-- ==== Sys2Proof/Word.lean ====
section
/-! DEFINITION. The register word of spec/00 R16, the octet, and the index ranges of spec/00 Table 0-3. -/

namespace Sys2Proof

/-- A register is 64 bits wide (R16). -/
abbrev Word := BitVec 64
/-- One byte. -/
abbrev Byte := BitVec 8
/-- Cell index c (R28). -/
abbrev Cell := Fin 128
/-- Switch die index d. -/
abbrev Die := Fin 8
/-- HBM stack: 0 A, 1 B, 2 C, 3 D. -/
abbrev Stack := Fin 4
/-- Instance index i. -/
abbrev Inst := Fin 4096
/-- Global SerDes lane, cell × 4 + k (R31). -/
abbrev Lane := Fin 512
/-- A mesh link of Scrim (R49). -/
abbrev MeshLink := Fin 232
/-- Traffic class. -/
abbrev Tc := Fin 8
/-- Virtual channel. -/
abbrev Vc := Fin 8
/-- Generation of a tag (R83). -/
abbrev Gen := Fin 8
/-- Slot field of a tag, 10 bits (Table 2-3). -/
abbrev Slot := Fin 1024
/-- Host slot (R156), 7 bits. -/
abbrev HSlot := Fin 128
/-- Home transaction table entry (R169). -/
abbrev Htid := Fin 1024
/-- A 64 B data unit. -/
abbrev Line := BitVec 512
/-- A pool extent of 1 GiB (R223). -/
abbrev Ext := Fin 65536
/-- An XTS key slot (R225). -/
abbrev KeySlot := Fin 8192

/-- The cell whose index is n, taken modulo 128. -/
abbrev Cell.of (n : Nat) : Cell := Fin.ofNat 128 n
/-- Minimum with a cap: the value of a counter that saturates at `top`. -/
abbrev satTo (top n : Nat) : Nat := min top n

end Sys2Proof
end

