-- ==== Sys2Proof/Types.lean ====
section
/-! DEFINITION. The operand types of the commands: messages and their opcodes, roles, modes, directory and extent entries,
and the records a command carries in. -/

namespace Sys2Proof

/-- MetaValue of a coherence message: 0b00 I, 0b01 S, 0b10 E (Table 6-5). -/
inductive Mv where
  | I | S | E
  deriving DecidableEq, Repr
/-- Message opcodes: Tables 6-4, 7-4 and 11-2, MFLUSH (R368), and the classes of traffic that carry no opcode of those
tables. -/
inductive Opc where
  | rds | rda | rdi | inva | wri | wra | wrptl | clnevct | specrd | biconf | recall
  | mrd | mspec | mflush | dirrd | dirwr
  | bisnpcur | bisnpdata | bisnpinv | fwd
  | rdata | wdata | dirdata
  | birsp | grant | wgo | mcmp | wcmp | done | bicack | dirack | rcmp | frsp | fkeep
  | onlabs | probe | probersp | routeadv | blob | keyx
  | cxlio | mgt | bulk
  /-- CXL.cache, or CXL.mem for the memory of a pass-through device, on virtual channel v (R151, Table 5-1). -/
  | pass (cache : Bool) (v : Fin 4)
  /-- A packet in transit through the module, on its own virtual channel (R353). -/
  | xfer (v : Fin 8)
  deriving DecidableEq, Repr
/-- A Scrim packet: the header fields of Table 2-3, the OPX fields of Table 6-5, and its data units (R50, R52). -/
structure Pkt where
  opc : Opc
  src : Cell := 0
  dst : Cell := 0
  tagCell : Cell := 0
  tagSlot : Slot := 0
  gen : Gen := 0
  inst : Inst := 0
  priv : Bool := false
  addr : BitVec 52 := 0
  tc : Tc := 0
  len : Fin 65 := 0
  mv : Mv := .I
  hslot : HSlot := 0
  mcell : Cell := 0
  /-- The home or proxy that issued the access a MEMORY cell performs: its MCMP returns there (R196). -/
  home : Cell := 0
  htid : Htid := 0
  bmask : Word := 0
  data : List Line := []
  /-- POISON of Table 2-2, bit j for data unit j (R51). -/
  pois : Word := 0
  stomp : Bool := false
  route : Fin 4 := 0
  wcell : Cell := 0
  fep : Bool := false
  /-- A re-issue (R83): it passes gates and negative shaper credit (R147). -/
  reissue : Bool := false
  deriving DecidableEq, Repr
/-- What an error check found: nothing, a corrected single-bit error, or an uncorrectable error. -/
inductive Ecc where
  | clean | corrected | uncorrectable
  deriving DecidableEq, Repr
/-- Link of a cell's router: north, east, south, west, local (R48). -/
inductive Dir where
  | north | east | south | west | loc
  deriving DecidableEq, Repr
/-- An element of the fence map: a Scrim link, a cell, a die, a stack (Table 12-1, R374). -/
inductive Elem where
  | link (n : MeshLink) | cell (c : Cell) | die (d : Die) | stack (k : Stack)
  deriving DecidableEq, Repr


/-- Operating modes (Table 1-8). -/
inductive Mode where
  | dormant | imageLoad | selfTest | bringUp | service | drowse | degraded | rebuild | maintenance
  | safeStop | sealedHalt | returnTest
  deriving DecidableEq, Repr
/-- Cell roles (Table 1-2). -/
inductive Role where
  | host | memory | device | onora | idle
  deriving DecidableEq, Repr

/-- What a matching round of the crossbar finds (R87, R104, R105, R112): the (output, VC) pairs with credit downstream,
whether the SAMP input is busy, whether a mirror copy finds credit, an error found in the data of the frame an output
sends (output, data unit), and an output that waited for a late unit, with the cycles. -/
structure StartIn where
  credit : List (Fin 10 × Vc)
  sampBusy : Bool
  mirCredit : Bool
  err : Option (Fin 10 × Fin 64)
  late : Option (Fin 10 × BitVec 16)
  deriving DecidableEq, Repr
/-- What meets a frame as it enters a crossbar: the words of it that a spill would find bad (R129), whether the SAMP input is busy, and whether
a mirror copy finds credit (R110). -/
structure ArriveIn where
  bad : BitVec 129 := 0
  sampBusy : Bool := true
  mirCredit : Bool := false
  deriving DecidableEq, Repr
/-- What the stack returns for one frame (Table 4-4): whether parity holds in the header half and in the length half of word 0, whether
HCRC and LCRC pass, whether parity holds in the link word and KCRC passes, and the data units whose word fails parity. -/
structure SpillIn where
  hdrPar : Bool
  lenPar : Bool
  hcrc : Bool
  lcrc : Bool
  linkPar : Bool
  kcrc : Bool
  badUnits : BitVec 64
  deriving DecidableEq, Repr
/-- The header half, the length half, and the link word as the head judges them. -/
def SpillIn.hdrOk (r : SpillIn) : Bool := r.hdrPar && r.hcrc
def SpillIn.lenOk (r : SpillIn) : Bool := r.lenPar && r.lcrc
def SpillIn.linkOk (r : SpillIn) : Bool := r.linkPar && r.kcrc
/-- A clock crossing (Table 4-1): cell c's port receive (0) or transmit (1), link j of edge e of die d, or the HBM
controller of die d's command (0) or return (1). -/
inductive Xing where
  | port (c : Cell) (n : Fin 2) | lath (d : Die) (e : Fin 4) (j : Fin 4) | hbm (d : Die) (n : Fin 2)
  deriving DecidableEq, Repr


/-- Directory states (Table 6-3). -/
inductive DState where
  | I | S | E | EO | bRd | bSnp | bWr | bEv | bRc | bLost | bFwd | bTake
  deriving DecidableEq, Repr
/-- A directory entry (Table 6-2). -/
structure DirEntry where
  line : BitVec 46 := 0
  st : DState := .I
  coarse : Bool := false
  owner : HSlot := 0
  age : Fin 16 := 0
  presence : Word := 0
  deriving DecidableEq, Repr
/-- Extent states of the home extent map (Table 8-1). -/
inductive ExtSt where
  | free | unmirrored | mirrored | single | resilver | remote | lost
  deriving DecidableEq, Repr
/-- A home extent map entry (Table 8-1). -/
structure ExtEnt where
  st : ExtSt := .free
  mcell : Cell := 0
  mcell2 : Cell := 0
  moving : Bool := false
  group : Bool := false
  owner : Inst := 0
  deriving DecidableEq, Repr
/-- A device map entry with VALID set (Table 8-2); `key` none is KEY 0x1FFF. -/
structure DevEnt where
  side : Fin 2 := 0
  key : Option KeySlot := none
  dev : Fin 4096 := 0
  deriving DecidableEq, Repr
/-- What an expander returned for an access: clean data, poisoned data, or an error (R228). -/
inductive ExpSt where
  | ok | poison | error
  deriving DecidableEq, Repr

/-- Who makes a register access or a management request (R452, Table 16-6). -/
inductive Src where
  | jtag | mgr | mctp (port : Cell) (eid : Fin 256) | sp
  deriving DecidableEq, Repr
/-- The request that a response of a pass-through device, or of its host, is to: the tag and generation the request travelled under. -/
structure PassTag where
  cell : Cell
  slot : Slot
  gen : Gen
  /-- The final answer: a request that still awaits others stays open. -/
  final : Bool := true
  deriving DecidableEq, Repr
/-- A CXL.mem request of a host at its port: opcode, host physical address, data and byte mask of a write; or a CXL.cache message for
the pass-through device at a vPPB: its virtual channel in `opc`, and the request it answers. -/
structure HostReq where
  opc : Opc
  hpa : BitVec 52
  data : Line := 0
  bmask : Word := 0
  vppb : Fin 64 := 0
  tag : Option PassTag := none
  deriving DecidableEq, Repr
/-- What a pass-through device sends: a CXL.io memory request; the completion of a CXL.io request; or a CXL.cache or CXL.mem message on
virtual channel v, with the request it answers. -/
inductive DevKind where
  | io | cpl (tag : PassTag) | pass (cache : Bool) (v : Fin 4) (tag : Option PassTag)
  deriving DecidableEq, Repr
/-- A CXL.io memory request of a pass-through device: host physical address, length in bytes, the lines of a write, and
Privileged Mode Requested of its PASID prefix (Table 9-2). -/
structure DevReq where
  write : Bool
  hpa : BitVec 52
  len : Fin 4097
  data : List Line := []
  pmr : Bool := false
  kind : DevKind := .io
  deriving DecidableEq, Repr
/-- An HDM decoder that the host has programmed in the virtual device of an instance (R222, R265), or in a pass-through device, whose
DEVICE port `dev` then names. -/
structure Hdm where
  inst : Inst
  dev : Option Cell := none
  base : BitVec 52
  size : BitVec 52
  dpa : BitVec 52
  deriving DecidableEq, Repr
/-- A region entry (Table 9-3). -/
structure Region where
  inst : Inst := 0
  dpaLine : BitVec 46 := 0
  len : BitVec 41 := 0
  poolLine : BitVec 40 := 0
  dev : Bool := false
  priv : Bool := false
  user : Bool := false
  wr : Bool := false
  rd : Bool := false
  deriving DecidableEq, Repr
/-- Where an expander's capacity lies and what identifies it (R225, R231). -/
structure Expander where
  serial : BitVec 64
  exts : Fin 4097
  deriving DecidableEq, Repr
/-- What the partner of a port offers while the link trains (R295, R296, R304): highest RATE code and width, lane reversal, a port whose
lanes are wired reversed (with `reverses`), PCIe rather than CXL, the latency-optimised 256 B flit, receive lanes whose polarity is inverted, and the expander behind a
MEMORY port. -/
structure LinkUp where
  rate : Fin 8
  width : Fin 17
  reverses : Bool := false
  rev : Bool := false
  pcie : Bool := false
  lopt : Bool := false
  polInv : BitVec 16 := 0
  exp : Expander := ⟨0, 0⟩
  deriving DecidableEq, Repr

/-- A chain unit (Table 11-5) without its CCRC. -/
structure ChainUnit where
  dmod : Fin 32
  smod : Fin 32
  hops : Fin 32 := 0
  phase : Fin 2 := 0
  cep : Bool := false
  deriving DecidableEq, Repr
/-- A packet on a chain link: chain unit, header and data (R328). -/
structure CPkt where
  cu : ChainUnit
  p : Pkt
  deriving DecidableEq, Repr
/-- A slot of an Onora frame: a chain unit, a header (its data empty), or half a data unit with the sideband of Table 2-2
(R326). -/
inductive OSlot where
  | chain (v : Vc) (u : ChainUnit)
  | head (p : Pkt)
  | data (v : Vc) (high : Bool) (d : BitVec 256) (poison eop stomp : Bool)
  deriving DecidableEq, Repr
/-- The control word of a frame (Table 11-4): ACK and NAK_SEQ where valid, and the valid credit reports
(virtual channel, phase, count). -/
structure OCtl where
  ack : Option (Fin 4096) := none
  nak : Option (Fin 4096) := none
  cr : List (Vc × Fin 2 × Fin 512) := []
  deriving DecidableEq, Repr
/-- A received DATA frame: whether the codeword decodes, FCRC passes, and CCRC and HCRC of its packets pass (R329). -/
structure OFrame where
  fec : Bool
  fcrc : Bool
  units : Bool
  seq : Fin 4096
  ctl : OCtl
  slots : List OSlot
  deriving DecidableEq, Repr
/-- PARAM values of the partner (Table 11-7). -/
structure OParam where
  member : Fin 8 := 0
  addr : Fin 32 := 0
  port : Fin 128 := 0
  dateline : Bool := false
  maxRate : Fin 16 := 6
  deriving DecidableEq, Repr
/-- A training block as a lane receives it (Table 11-7): whether TCRC passes, MARK inverted, and the request it carries; taps
in the order c+2, c+1, c−1, c−2. -/
structure TrainBlock where
  tcrc : Bool
  inverted : Bool := false
  lane : Fin 16
  reqId : Fin 4 := 0
  preset : Fin 16 := 0xF
  taps : Fin 4 × Fin 4 × Fin 4 × Fin 4 := (0, 0, 0, 0)
  deriving DecidableEq, Repr
/-- What the owner of capacity holds besides its registers: extents in allocation order, those offered and not yet
answered, the default map's list in acceptance order (R268), its key slot, and the region entries of its record. -/
structure Owner where
  exts : List Nat := []
  offered : List Nat := []
  accepted : List Nat := []
  key : Option Nat := none
  regions : List Region := []
  /-- Sharing group: its members. -/
  members : List Nat := []
  /-- The chain address and port of the export peer of an EXPORTED instance (R272). -/
  peer : Option Nat := none
  deriving DecidableEq, Repr
/-- A sealed state blob (Table 8-8): sequence number, source instance and module, and what its body holds. -/
structure Blob where
  seq : Nat
  inst : Nat
  srcModule : Nat
  remote : Bool
  own : Owner
  shares : BitVec 64 × BitVec 64
  info : BitVec 64
  deriving DecidableEq, Repr

/-- How the burn of a fuse bit went (R436): its three fuses read back set, some only after a retry, or it still reads clear. -/
inductive Burn where
  | ok | retried | failed
  deriving DecidableEq, Repr

/-- An FM API command (R221). -/
inductive FmCmd where
  | getVcsInfo (port : Cell)
  | bindVppb (i : Inst) (port : Cell) (v : Fin 64)
  | unbindVppb (port : Cell) (v : Fin 64) (mode : Fin 3)
  | getDcdInfo
  | getHostDc (i : Inst)
  | dcAdd (i : Inst) (r : Fin 2) (exts : List Ext)
  | dcRelease (i : Inst) (exts : List Ext) (force : Bool)
  deriving DecidableEq, Repr
/-- How a ZMP request arrives (R453 to R456): SEQ; whether its CRC passes and LEN agrees with its length; whether VER, TYPE and LEN
are valid for its type; whether 8 earlier requests are received and not yet answered. -/
structure ZmpIn where
  seq : BitVec 16
  frameOk : Bool := true
  valid : Bool := true
  busy : Bool := false
  deriving DecidableEq, Repr
/-- A ZMP request other than MCTP (Table 16-2). -/
inductive ZmpReq where
  | acquire (client : BitVec 16) | renew (client : BitVec 16) | release (client : BitVec 16)
  | read (addr : BitVec 32) (count : BitVec 16) | write (addr : BitVec 32) (data : List Word) | ping
  deriving DecidableEq, Repr
/-- An MCTP control message: one that shows that an EID has been reassigned to another endpoint, or any other. -/
inductive MctpCtl where
  | reassign (eid : Fin 256) | other
  deriving DecidableEq, Repr
/-- An MCTP message by its type: 0x00, 0x07, 0x7E with Claca's vendor ID, or any other (R457). -/
inductive MctpMsg where
  | control (c : MctpCtl) | fm (c : FmCmd) | vendor (x : ZmpIn) (r : ZmpReq) | other (typ : Fin 256)
  deriving DecidableEq, Repr
/-- A DBG_SP operation (Table 15-14). -/
inductive SpOp where
  | halt | step | read (addr : BitVec 32) | write (addr : BitVec 32) (data : Word)
  deriving DecidableEq, Repr
/-- A CXL.io request of a host (R218 to R222, R265): power control of slot v that disables it; a write of the HDM decoders of the
instance bound to vPPB v, or of the pass-through device there, each a base, a size and the DPA it starts at; any other configuration request for the virtual switch or a
virtual device; a read or a write of a register of the window of the instance bound to vPPB v, by its tenant; a request for the
pass-through device at vPPB v, with its data; or the completion of a request of the device there. -/
inductive IoReq where
  | slotDisable (v : Fin 64)
  | decoders (v : Fin 64) (l : List (BitVec 52 × BitVec 52 × BitVec 52))
  | config (v : Option (Fin 64))
  | window (v : Fin 64) (off : Fin 4096) (w : Option Word)
  | device (v : Fin 64) (hpa : BitVec 52) (data : List Line)
  | cpl (v : Fin 64) (tag : PassTag) (data : List Line)
  deriving DecidableEq, Repr
/-- What a write of a register can meet that the register does not hold (R241, R436): burns of fuse bits, whether the seal of a blob
verifies, and whether the SAMP input is busy. -/
structure PulseIn where
  hash : Burn
  bit : Burn
  tagOk : Bool
  sampBusy : Bool
  deriving DecidableEq, Repr

end Sys2Proof
end

