-- ==== Sys2Proof/Syntax.lean ====
section
/-! DEFINITION. The commands of the module: one constructor for each row of the opcode table, with the operands the
command brings from outside (spec/95 says what each one does). -/

namespace Sys2Proof

/-- A command: one row of the opcode table. -/
inductive Instr where
  /-- ENABLE_N_LOW_START: a Rind tick finds ENABLE_N low. -/
  | enableNLowStart
  /-- IMAGE_LOAD_COMPLETE: whether SFDP of devices 0 and 1 is readable and their reads complete. -/
  | imageLoadComplete (sfdpA sfdpB : Bool)
  /-- IMAGE_STAGING: every digest of the copy matches. -/
  | imageStaging (clean : Bool)
  /-- SELF_TEST_COMPLETE: the elements that failed, and whether the service processors of dies 0 and 7 passed. -/
  | selfTestComplete (fails : List Elem) (sp0 sp7 : Bool)
  /-- RENNET_WRITE: cell c receives a value for a register, under a mask. -/
  | rennetWrite (c : Cell) (addr : BitVec 32) (mask value : Word)
  /-- RENNET_CRC_REPORT of cell c. -/
  | rennetCrcReport (c : Cell)
  /-- RENNET_DISTRIBUTION_COMPLETE. -/
  | rennetDistributionComplete
  /-- MODE_REQ_SERVICE: GO with TARGET SERVICE. -/
  | modeReqService (src : Src)
  /-- MODE_REQ_DROWSE. -/
  | modeReqDrowse (src : Src)
  /-- MODE_REQ_MAINTENANCE. -/
  | modeReqMaintenance (src : Src)
  /-- MODE_REQ_SAFE_STOP. -/
  | modeReqSafeStop (src : Src)
  /-- ENABLE_N_HIGH. -/
  | enableNHigh
  /-- SAFE_STOP_COMPLETE: the drain and the state save are complete. -/
  | safeStopComplete
  /-- IDLE_POLICY_DROWSE: ENTER_QUIET cells have been quiet for ENTER_MS. -/
  | idlePolicyDrowse
  /-- DROWSE_WAKE_LIMIT: more than AWAKE_LIMIT cells have been awake for EXIT_US. -/
  | drowseWakeLimit
  /-- SCRIM_UNIT_RECEIVE: router c receives unit u of packet p (0 the header, n the n-th data unit) on input d. -/
  | scrimUnitReceive (c : Cell) (d : Dir) (p : Pkt) (u : Fin 65) (ecc : Ecc) (hcrcOk vcOk : Bool)
  /-- SCRIM_REPLAY_REQUEST: the receiver of output d of router c requests replay; `again`: of the flit replayed last. -/
  | scrimReplayRequest (c : Cell) (d : Dir) (again : Bool)
  /-- HEARTBEAT_SEND on output d of router c. -/
  | heartbeatSend (c : Cell) (d : Dir)
  /-- HEARTBEAT_TIMEOUT: input d of router c has seen no valid slot or heartbeat for 1 µs. -/
  | heartbeatTimeout (c : Cell) (d : Dir)
  /-- UCIE_LINK_DOWN: UCIe link-down or retry exhaustion on a Lath seam link. -/
  | ucieLinkDown (n : MeshLink)
  /-- FENCE_NOTE: the leader receives a note that e failed. -/
  | fenceNote (e : Elem)
  /-- FENCE_MAP: router c receives the broadcast fence map. -/
  | fenceMap (c : Cell)
  /-- FENCE_COMPLETION_REPORT: the leader receives the report of router c. -/
  | fenceCompletionReport (c : Cell)
  /-- DRAINED_REPORT: injection of c has stopped and its ejection buffer is empty. -/
  | drainedReport (c : Cell)
  /-- DRAIN_COMMIT: the controller samples DRAINED of c. -/
  | drainCommit (c : Cell)
  /-- DRAIN_LIMIT_EXPIRY: DRAINED of c was not reached within DRAIN_LIMIT. -/
  | drainLimitExpiry (c : Cell)
  /-- HOLD_UNIT_ARRIVAL: a unit of p arrives for the local port of c in HOLD. -/
  | holdUnitArrival (c : Cell) (p : Pkt)
  /-- DOMAIN_ON_SIGNAL: the controller signals that the logic domain of c is on. -/
  | domainOnSignal (c : Cell)
  /-- WAKE_FAIL: c is not ON 5 µs after its wake. -/
  | wakeFail (c : Cell)
  /-- LATH_LP_ENTRY: the links of edge e of die d have carried no unit for LP_IDLE. -/
  | lathLpEntry (d : Die) (e : Fin 4)
  /-- LATH_LP_EXIT: a unit of p waits at router c for edge e of die d, which is in low power. -/
  | lathLpExit (d : Die) (e : Fin 4) (c : Cell) (p : Pkt)
  /-- SEAM_TRAIN_COMPLETE: seam link n ends its training; `ok`: both modules trained within UCIe lane repair. -/
  | seamTrainComplete (n : MeshLink) (ok : Bool)
  /-- SCRIM_SNAP: SNAP of the router of c. -/
  | scrimSnap (c : Cell)
  /-- FRAME_ARRIVE: frame p arrives at input i of cell c for output o with `got` data units; `bad`: what the tail finds uncorrectable if
  it writes the frame to Whey, bit 0 in the header and bit j + 1 in data unit j (Table 4-4); `sampBusy`, `mirCredit`: what a mirror copy of
  it finds (R112). -/
  | frameArrive (c : Cell) (i o : Fin 10) (p : Pkt) (got : Fin 65) (x : ArriveIn)
  /-- FRAME_START: a core cycle of cell c's crossbar scheduler. -/
  | frameStart (c : Cell) (x : StartIn)
  /-- SAMPLE_COUNTER_EXPIRY of output o of c. -/
  | sampleCounterExpiry (c : Cell) (o : Fin 10)
  /-- XBAR_CLR_HWM in c. -/
  | xbarClrHwm (c : Cell)
  /-- CHUNK_GRANT: the controller answers c's request for a chunk with chunk n. -/
  | chunkGrant (c : Cell) (n : Fin 1572864) (bad : BitVec 129)
  /-- LENGTH_SLOT_ACK for context n of c. -/
  | lengthSlotAck (c : Cell) (n : Fin 64)
  /-- SPILL_FETCH by the head of context n of c. -/
  | spillFetch (c : Cell) (n : Fin 64)
  /-- SPILL_READ_RETURN for context n of c. -/
  | spillReadReturn (c : Cell) (n : Fin 64) (r : SpillIn)
  /-- HBM_WATCHDOG_EXPIRY of stack k's controller. -/
  | hbmWatchdogExpiry (k : Stack)
  /-- SPILL_CTX_VIEW0_READ in c. -/
  | spillCtxView0Read (c : Cell)
  /-- SPILL_XING_CLR_HWM of a crossing. -/
  | spillXingClrHwm (x : Xing)
  /-- GATE_BOUNDARY of the gate list of c. -/
  | gateBoundary (c : Cell)
  /-- HIST_PERIOD_END in c; `sampBusy`: SAMP cannot send a record now. -/
  | histPeriodEnd (c : Cell) (sampBusy : Bool)
  /-- DEPTH_SAMPLE in c. -/
  | depthSample (c : Cell)
  /-- SHP_OBS_SNAP in c. -/
  | shpObsSnap (c : Cell) (sampBusy : Bool)
  /-- SKIM_YIELD_WINDOW_END in c. -/
  | skimYieldWindowEnd (c : Cell)
  /-- RDS at home p.dst; `ecc` is what the SECDED of a cached entry of the line finds (R167). -/
  | rds (p : Pkt) (ecc : Ecc)
  /-- RDA at home p.dst. -/
  | rda (p : Pkt) (ecc : Ecc)
  /-- RDI at home p.dst. -/
  | rdi (p : Pkt) (ecc : Ecc)
  /-- INVA at home p.dst. -/
  | inva (p : Pkt) (ecc : Ecc)
  /-- WRI at home p.dst. -/
  | wri (p : Pkt) (ecc : Ecc)
  /-- WRA at home p.dst. -/
  | wra (p : Pkt) (ecc : Ecc)
  /-- WRPTL at home p.dst. -/
  | wrptl (p : Pkt) (ecc : Ecc)
  /-- CLNEVCT at home p.dst. -/
  | clnevct (p : Pkt) (ecc : Ecc)
  /-- SPECRD at home p.dst. -/
  | specrd (p : Pkt)
  /-- RECALL at home p.dst; HSLOT below 96 limits it to one host slot (R251). -/
  | recallMsg (p : Pkt) (ecc : Ecc)
  /-- HOME_CHAIN_START: at home h, the head of line's wait chain, or a parked allocation of its set, starts. -/
  | homeChainStart (h : Cell) (line : BitVec 46)
  /-- BICONF at cell p.dst. -/
  | biconf (p : Pkt)
  /-- MRD at MEMORY cell p.dst. -/
  | mrd (p : Pkt)
  /-- MSPEC at MEMORY cell p.dst. -/
  | mspec (p : Pkt)
  /-- WDATA at MEMORY cell p.dst. -/
  | wdata (p : Pkt)
  /-- EXPANDER_READ_DATA: the expander of m answers access `acc` with `raw` (ciphertext) and a status. -/
  | expanderReadData (m : Cell) (acc : Nat) (raw : Line) (st : ExpSt)
  /-- EXPANDER_WRITE_COMPLETE: the expander of m completes its write of access `acc`. -/
  | expanderWriteComplete (m : Cell) (acc : Nat)
  /-- MFLUSH at MEMORY cell p.dst. -/
  | mflush (p : Pkt)
  /-- DIRRD at an HBM controller: what its ECC finds on the primary and on the mirror copy, and the read's time. -/
  | dirrd (p : Pkt) (pri mir : Ecc) (ns : BitVec 32)
  /-- DIRWR at an HBM controller, and the write's time to its acknowledgement. -/
  | dirwr (p : Pkt) (ns : BitVec 32)
  /-- DIRDATA at home p.dst. -/
  | dirdata (p : Pkt)
  /-- DIRACK at home p.dst. -/
  | dirack (p : Pkt)
  /-- GRANT at originating cell p.dst. -/
  | grant (p : Pkt)
  /-- RDATA at originating cell p.dst. -/
  | rdata (p : Pkt)
  /-- WGO at originating cell p.dst. -/
  | wgo (p : Pkt)
  /-- WCMP at originating cell p.dst. -/
  | wcmp (p : Pkt)
  /-- MCMP at home or proxy p.dst. -/
  | mcmp (p : Pkt)
  /-- DONE at home or proxy p.dst. -/
  | done (p : Pkt)
  /-- RCMP at the internal engine of cell p.dst. -/
  | rcmp (p : Pkt)
  /-- BISNPCUR at anchor p.dst. -/
  | bisnpcur (p : Pkt)
  /-- BISNPDATA at anchor p.dst. -/
  | bisnpdata (p : Pkt)
  /-- BISNPINV at anchor p.dst. -/
  | bisnpinv (p : Pkt)
  /-- BICACK at anchor p.dst. -/
  | bicack (p : Pkt)
  /-- HOST_BIRSP: the host of anchor a answers BITag t with state mv. -/
  | hostBirsp (a : Cell) (t : Fin 4096) (mv : Mv)
  /-- HOST_BICONFLICT: the host of anchor a reports a conflict on a line. -/
  | hostBiconflict (a : Cell) (addr : BitVec 52)
  /-- BIRSP at home or proxy p.dst. -/
  | birsp (p : Pkt)
  /-- SNP_TIMEOUT_EXPIRY: host slot hs has left a BISnp of cell h unanswered for SNP_TIMEOUT. -/
  | snpTimeoutExpiry (h : Cell) (hs : HSlot)
  /-- DIR_LOOKUP: LOOKUP of DIR_SEL in cell h. -/
  | dirLookup (h : Cell)
  /-- DIR_LOOKUP_COMPLETE in cell h. -/
  | dirLookupComplete (h : Cell)
  /-- HOME_TT_CLR_HWM: CLR_HWM of HOME_TT in cell h. -/
  | homeTtClrHwm (h : Cell)
  /-- FWD at owner proxy p.dst. -/
  | fwd (p : Pkt)
  /-- FRSP at home p.dst. -/
  | frsp (p : Pkt)
  /-- FKEEP at home p.dst. -/
  | fkeep (p : Pkt)
  /-- PROXY_AGE_CHECK: the age check of the proxy of anchor a, once every 1 µs. -/
  | proxyAgeCheck (a : Cell)
  /-- HOME_PROXY_CLR_HWM: CLR_HWM of HOME_PROXY_STATUS in cell a. -/
  | homeProxyClrHwm (a : Cell)
  /-- TAKEOVER_QUIESCE_COMPLETE: the quiesce step of Table 7-8 ends. -/
  | takeoverQuiesceComplete
  /-- TAKEOVER_FLUSH_COMPLETE: the flush step of Table 7-8 ends; `slow`: an expander overran its condition. -/
  | takeoverFlushComplete (slow : Option Cell)
  /-- TWIN_LOSS_NOTE: cell c receives the anchor's note that host slot hs is lost. -/
  | twinLossNote (c : Cell) (hs : HSlot)
  /-- RESILVER_BLOCK_ACK: the target acknowledges the block that the copy engine of die d sent. -/
  | resilverBlockAck (d : Die)
  /-- HOST_REQUEST_RECEIVE at the port anchored at a. -/
  | hostRequestReceive (a : Cell) (r : HostReq)
  /-- HOLD_ADMIT: one core cycle of the hold of anchor a. -/
  | holdAdmit (a : Cell)
  /-- DEVICE_REQUEST_RECEIVE at DEVICE cell c. -/
  | deviceRequestReceive (c : Cell) (r : DevReq)
  /-- DEFAULT_MAP_FETCH_RETURN: block k of region r of instance i arrives at its anchor. -/
  | defaultMapFetchReturn (i : Inst) (r : Fin 2) (k : Ext)
  /-- HOST_RESPONSE_DEPART: the response of slot k of cell c leaves its port. -/
  | hostResponseDepart (c : Cell) (k : Slot)
  /-- SLOT_HOLD_EXPIRE: the 1 ms of R83 after the loss of slot k of cell c is over. -/
  | slotHoldExpire (c : Cell) (k : Slot)
  /-- FM_GET_VCS_INFO of the virtual switch of a port. -/
  | fmGetVcsInfo (src : Src) (port : Cell)
  /-- FM_BIND_VPPB. -/
  | fmBindVppb (src : Src) (i : Inst) (port : Cell) (v : Fin 64)
  /-- FM_UNBIND_VPPB with the removal of R220 it names. -/
  | fmUnbindVppb (src : Src) (port : Cell) (v : Fin 64) (mode : Fin 3)
  /-- FM_GET_DCD_INFO. -/
  | fmGetDcdInfo (src : Src)
  /-- FM_GET_HOST_DC_REGION_CFG of instance i. -/
  | fmGetHostDcRegionCfg (src : Src) (i : Inst)
  /-- FM_INITIATE_DC_ADD: extents for region r of instance i. -/
  | fmInitiateDcAdd (src : Src) (i : Inst) (r : Fin 2) (exts : List Ext)
  /-- FM_INITIATE_DC_RELEASE of extents of instance i. -/
  | fmInitiateDcRelease (src : Src) (i : Inst) (exts : List Ext) (force : Bool)
  /-- BIND: GO with OP 1 in INST_BIND of i. -/
  | bind (src : Src) (i : Inst)
  /-- UNBIND_KEEP: GO with OP 2. -/
  | unbindKeep (src : Src) (i : Inst)
  /-- UNBIND_RELEASE: GO with OP 3. -/
  | unbindRelease (src : Src) (i : Inst)
  /-- DC_ADD_RESPONSE: the host of i accepts these of the extents offered. -/
  | dcAddResponse (i : Inst) (exts : List Ext)
  /-- DC_RELEASE_RESPONSE: the host of i releases extents. -/
  | dcReleaseResponse (i : Inst) (exts : List Ext)
  /-- PORT_LINK_UP at the port anchored at c. -/
  | portLinkUp (c : Cell) (x : LinkUp)
  /-- HOST_LINK_DOWN at the port anchored at c. -/
  | hostLinkDown (c : Cell)
  /-- EXPANDER_LINK_DOWN at MEMORY port c. -/
  | expanderLinkDown (c : Cell)
  /-- DEVICE_LINK_DOWN at DEVICE port c. -/
  | deviceLinkDown (c : Cell)
  /-- MIG_PREPARE: GO with OP 1 in INST_MIG of i. -/
  | migPrepare (src : Src) (i : Inst)
  /-- MIG_MIGRATE: OP 2. -/
  | migMigrate (src : Src) (i : Inst)
  /-- MIG_ABORT: OP 3. -/
  | migAbort (src : Src) (i : Inst)
  /-- MIG_SAVE: OP 4. -/
  | migSave (src : Src) (i : Inst)
  /-- MIG_RESTORE: OP 5; `tagOk`: the blob's tag and peer check pass. -/
  | migRestore (src : Src) (i : Inst) (tagOk : Bool)
  /-- MIG_FREEZE_DRAINED: the source port of i has drained. -/
  | migFreezeDrained (i : Inst)
  /-- FREEZE_LIMIT_EXPIRY for i. -/
  | freezeLimitExpiry (i : Inst)
  /-- MIG_SAVE_COMPLETE: the blob of i is written. -/
  | migSaveComplete (i : Inst)
  /-- MIG_RESTORE_COMPLETE: contexts of i are live at the target. -/
  | migRestoreComplete (i : Inst)
  /-- PRESS_MOVE_GO: GO in INST_PRESS_OP of die d. -/
  | pressMoveGo (src : Src) (d : Die)
  /-- PRESS_ABORT: ABORT in INST_PRESS_OP of die d. -/
  | pressAbort (src : Src) (d : Die)
  /-- PRESS_RESILVER_START: extent e, SINGLE, and its replacement side: MEMORY port c, device extent x. -/
  | pressResilverStart (e : Ext) (c : Cell) (x : Fin 4096)
  /-- PRESS_BLOCK_ACK of part p of die d: whether the source lines were poisoned, and whether the write failed. -/
  | pressBlockAck (d : Die) (p : Fin 16) (poisoned failed : Bool)
  /-- PRESS_SOURCE_DRAINED: every source cell of the operation of die d has drained. -/
  | pressSourceDrained (d : Die)
  /-- COPY_GO: GO in INST_COPY_CTRL of i, by its tenant or (src) by the manager. -/
  | copyGo (src : Option Src) (i : Inst)
  /-- COPY_PART_COMPLETE: part p of the COPY of i. -/
  | copyPartComplete (i : Inst) (p : Fin 16)
  /-- BRINE_COMPLETE of extent e. -/
  | brineComplete (e : Ext)
  /-- MAP_NOTE: cell c applies map note n at its safe point. -/
  | mapNote (c : Cell) (n : Nat)
  /-- MAP_NOTE_COMPLETE: every acknowledgement of note n has arrived. -/
  | mapNoteComplete (n : Nat)
  /-- ZEROIZE: MEMORY cell c overwrites its copy of a slot. -/
  | zeroize (c : Cell) (k : KeySlot)
  /-- ZEROIZE_COMPLETE: every cell has acknowledged. -/
  | zeroizeComplete (k : KeySlot)
  /-- KEY_GENERATE_COMPLETE for a slot; `equal`: the halves of the key compare equal. -/
  | keyGenerateComplete (k : KeySlot) (equal : Bool)
  /-- KEYLOAD: MEMORY cell c receives a slot's wrapped key. -/
  | keyload (c : Cell) (k : KeySlot)
  /-- HEALTH_TEST_FAIL of the entropy source, or of the DRBG. -/
  | healthTestFail (drbg : Bool)
  /-- SEC_ROTATE_GO. -/
  | secRotateGo (src : Src)
  /-- ROTATION_AGE_CHECK, once an hour. -/
  | rotationAgeCheck
  /-- REKEY_BLOCK_ACK of the walker of extent e. -/
  | rekeyBlockAck (e : Ext)
  /-- BARRIER_DRAINED: cell c reports DRAINED to the commit engine. -/
  | barrierDrained (c : Cell)
  /-- BARRIER_LIMIT_EXPIRY in cell c. -/
  | barrierLimitExpiry (c : Cell)
  /-- IDE_KM_KEY_SET on port p; `go`: the stream also becomes secure. -/
  | ideKmKeySet (p : Cell) (go : Bool)
  /-- IDE_INTEGRITY_FAILURE on port p. -/
  | ideIntegrityFailure (p : Cell)
  /-- LANE_FAULT: lane l loses CDR lock or signal for 1 µs (`lock`), or reaches FAULT_THRESH with `errs` errors in a window. -/
  | laneFault (l : Lane) (lock : Bool) (errs : BitVec 32)
  /-- WIDTH_REDUCE_L0: the port anchored at c reaches L0 at its reduced width. -/
  | widthReduceL0 (c : Cell)
  /-- REFCLK_LOSS of die d. -/
  | refclkLoss (d : Die)
  /-- REFCLK_RETURN of die d. -/
  | refclkReturn (d : Die)
  /-- L1_ENTRY of the port anchored at c. -/
  | l1Entry (c : Cell)
  /-- L1_EXIT of the port anchored at c; lanes that fail to regain lock. -/
  | l1Exit (c : Cell) (bad : BitVec 16)
  /-- TEST_ENTER of the port anchored at c. -/
  | testEnter (src : Src) (c : Cell)
  /-- TEST_EXIT of the port anchored at c. -/
  | testExit (src : Src) (c : Cell)
  /-- WIDTH_RESTORE of the port anchored at c. -/
  | widthRestore (src : Src) (c : Cell)
  /-- INJ_ONE on lane l. -/
  | injOne (src : Src) (l : Lane)
  /-- INJ_RATE_ERROR on lane l. -/
  | injRateError (l : Lane)
  /-- CHK_EN_SET on lane l. -/
  | chkEnSet (src : Src) (l : Lane)
  /-- LANE_PRBS_STAT_READ of lane l. -/
  | lanePrbsStatRead (src : Src) (l : Lane)
  /-- LOOPBACK_SLAVE_ENTRY of the port anchored at c. -/
  | loopbackSlaveEntry (c : Cell)
  /-- MGR_FRAME_RECEIVE: SOF on both lanes or on one; whether the frame is whole (R317); SKIPs adjusted on each lane. -/
  | mgrFrameReceive (x2 whole : Bool) (skip0 skip1 : BitVec 16)
  /-- MGR_SYNC_GAIN on manager lane m. -/
  | mgrSyncGain (m : Fin 2)
  /-- MGR_SYNC_LOSS on manager lane m, with the code violations and disparity errors seen. -/
  | mgrSyncLoss (m : Fin 2) (viol disp : BitVec 16)
  /-- MGR_CLOCK_COMP_SEND. -/
  | mgrClockCompSend
  /-- MGR_WIDTH_FALLBACK: receive lane m has been out of sync for 100 µs. -/
  | mgrWidthFallback (m : Fin 2)
  /-- MGR_WIDTH_RESTORE_X2. -/
  | mgrWidthRestoreX2
  /-- MGR_LOOP_WRITE. -/
  | mgrLoopWrite (src : Src) (v : Bool)
  /-- PRBS_CHECKER_LOCK on lane l. -/
  | prbsCheckerLock (l : Lane)
  /-- PRBS_CHECKER_LOCK_LOSS on lane l, with the errors counted until then. -/
  | prbsCheckerLockLoss (l : Lane) (errs : BitVec 32)
  /-- ONORA_DATA_FRAME on the link of the port anchored at c. -/
  | onoraDataFrame (c : Cell) (f : OFrame)
  /-- ONORA_IDLE_FRAME; whether it passes its checks. -/
  | onoraIdleFrame (c : Cell) (ok : Bool) (x : OCtl)
  /-- ONORA_LEAVE_FRAME. -/
  | onoraLeaveFrame (c : Cell)
  /-- ONORA_ACK_TIMER: 300 ns after the earliest accepted frame that no sent ACK covers. -/
  | onoraAckTimer (c : Cell)
  /-- ONORA_NAK_REPEAT, every 1 µs. -/
  | onoraNakRepeat (c : Cell)
  /-- ONORA_ALIGN_SEND. -/
  | onoraAlignSend (c : Cell)
  /-- ONORA_ALIGN_MISSING: two expected ALIGN codewords in a row. -/
  | onoraAlignMissing (c : Cell)
  /-- ONORA_CREDIT_TIMEOUT. -/
  | onoraCreditTimeout (c : Cell)
  /-- ONORA_FRAME_TIMEOUT. -/
  | onoraFrameTimeout (c : Cell)
  /-- ONORA_TRAINING_BLOCK on receive lane j of the port anchored at c. -/
  | onoraTrainingBlock (c : Cell) (j : Fin 16) (b : TrainBlock)
  /-- ONORA_TRAIN_STATE_COMPLETE: the partner's PARAM values, and the requests sent in EQ. -/
  | onoraTrainStateComplete (c : Cell) (x : OParam) (reqs : BitVec 12)
  /-- ONORA_TRAIN_TIMEOUT. -/
  | onoraTrainTimeout (c : Cell)
  /-- ONORA_TRAIN_RETRY, 10 ms after a failed training. -/
  | onoraTrainRetry (c : Cell)
  /-- ONORA_RETRAIN. -/
  | onoraRetrain (src : Src) (c : Cell)
  /-- ONORA_LEAVE_SEND. -/
  | onoraLeaveSend
  /-- ONLABS at cell p.dst. -/
  | onlabs (p : Pkt)
  /-- ROUTEADV received by ONORA cell c. -/
  | routeadv (c : Cell) (x : CPkt)
  /-- ROUTEADV_PERIODIC, every 10 ms. -/
  | routeadvPeriodic
  /-- ROUTEADV_STALE: origin m not heard from for 50 ms. -/
  | routeadvStale (m : Fin 32)
  /-- ADDR_CONFLICT_CLEAR of address m. -/
  | addrConflictClear (m : Fin 32)
  /-- CHAIN_EPOCH_CLOSE. -/
  | chainEpochClose
  /-- PROBE_SEND, every PROBE_US. -/
  | probeSend
  /-- PROBE received by ONORA cell c, answered after `turn` ns. -/
  | probe (c : Cell) (x : CPkt) (turn : Fin 61)
  /-- PROBERSP received by ONORA cell c. -/
  | probersp (c : Cell) (x : CPkt)
  /-- BLOB piece received by ONORA cell c; what the whole blob opens to, if this piece completes it and its tag is right. -/
  | blob (c : Cell) (x : CPkt) (b : Option Blob)
  /-- BLOB_ACK received by ONORA cell c. -/
  | blobAck (c : Cell) (x : CPkt)
  /-- BLOB_RETRANSMIT of the blob of instance i. -/
  | blobRetransmit (i : Inst)
  /-- KEYX piece received by ONORA cell c; whether certificates and signature verify, and the SHA-384 hash of the device
  certificate, for a piece that completes the content. -/
  | keyx (c : Cell) (x : CPkt) (ok : Bool) (hash : BitVec 384)
  /-- XFER at the egress cell p.dst. -/
  | xfer (p : Pkt)
  /-- CHAIN_IMPORT: ONORA cell c imports the oldest request that waits in its receive buffer. -/
  | chainImport (c : Cell)
  /-- ONORA_RESPONSE_RETURN at ONORA cell c. -/
  | onoraResponseReturn (c : Cell) (x : CPkt)
  /-- ONORA_SIGNAL_REGAINED on every lane of the port anchored at c. -/
  | onoraSignalRegained (c : Cell)
  /-- REBUILD_START: the controller of stack k rebuilds the copy of its partner's quarter that needs it; `mirror`: the mirror
  copy, which the partner's own quarter keeps here, else the primary. -/
  | rebuildStart (k : Stack) (mirror : Bool)
  /-- SP_HEARTBEAT_MISS: the service processor of die 0, or of die 7 (1), is silent. -/
  | spHeartbeatMiss (sp : Fin 2)
  /-- FENCE_RETURN_GO: a write of GO, or AUTO_RETURN of an element. -/
  | fenceReturnGo (by_ : Sum Src Elem)
  /-- RETURN_SELF_TEST_COMPLETE: the element that returns has passed its test. -/
  | returnSelfTestComplete (ok : Bool)
  /-- LOG_FETCH: a write of LOG and SEQ. -/
  | logFetch (src : Src) (log : Fin 8) (seq : BitVec 32)
  /-- LOG_FETCH_COMPLETE. -/
  | logFetchComplete
  /-- RIND_START: a feed or the bus reaches 36 V. -/
  | rindStart
  /-- RIND_STOP: both feeds and the bus have fallen below 28 V. -/
  | rindStop
  /-- FEED_VALID: feed f (0 A, 1 B) has stayed in range for 1 ms, at a voltage in 10 mV. -/
  | feedValid (f : Fin 2) (v : BitVec 16)
  /-- FEED_UV: feed f, VALID, has stayed below 40 V for 2 µs. -/
  | feedUv (f : Fin 2) (v : BitVec 16)
  /-- FEED_OV: feed f has stayed above 62 V for 2 µs. -/
  | feedOv (f : Fin 2) (v : BitVec 16)
  /-- IDEAL_DIODE_REVERSE_OFF of feed f. -/
  | idealDiodeReverseOff (f : Fin 2)
  /-- SENSE_MATED: all three sense contacts are low. -/
  | senseMated
  /-- DEBOUNCE_EXPIRY. -/
  | debounceExpiry
  /-- RAMP_COMPLETE, at a bus voltage in 10 mV. -/
  | rampComplete (v : BitVec 16)
  /-- RAMP_TIMEOUT. -/
  | rampTimeout
  /-- SHORT_DETECT. -/
  | shortDetect
  /-- RAMP_COMPARATOR_TRIP of feed f, at a current in 10 mA. -/
  | rampComparatorTrip (f : Fin 2) (i : BitVec 16)
  /-- FAULT_TIMER_EXPIRY of feed f. -/
  | faultTimerExpiry (f : Fin 2) (i : BitVec 16)
  /-- FAST_TRIP of feed f. -/
  | fastTrip (f : Fin 2) (i : BitVec 16)
  /-- TRIP_WAIT_EXPIRY: 1 s after the trip. -/
  | tripWaitExpiry
  /-- LATCH_CLEAR_ENABLE_CYCLE: ENABLE_N has been high for 1 ms and is now low. -/
  | latchClearEnableCycle
  /-- LATCH_CLEAR_REINSERTION: all sense contacts have been open for 50 ms. -/
  | latchClearReinsertion
  /-- RETRY_COUNT_CLEAR: PWRGD has stayed asserted for 60 s. -/
  | retryCountClear
  /-- PWRGD_ASSERT: FEEDWARN_N has been high and no fault timer has run for 250 µs. -/
  | pwrgdAssert
  /-- FEEDWARN_TIMEOUT: FEEDWARN_N has been low for 20 µs. -/
  | feedwarnTimeout
  /-- SENSE_S_BREAK: SENSE_S_N has been high for 10 µs. -/
  | senseSBreak
  /-- SENSE_LM_OPEN: SENSE_L_N (`long`) or SENSE_M_N opens. -/
  | senseLmOpen (long : Bool)
  /-- CLR_PEAK. -/
  | clrPeak (src : Src)
  /-- XTAL_LOSS. -/
  | xtalLoss
  /-- XTAL_RESTORE. -/
  | xtalRestore
  /-- RTC_XTAL_LOSS. -/
  | rtcXtalLoss
  /-- PLL_LOCK of die d. -/
  | pllLock (d : Die)
  /-- PLL_UNLOCK of die d. -/
  | pllUnlock (d : Die)
  /-- RETENTION_IDLE: c has stayed quiet for RET_IDLE_US. -/
  | retentionIdle (c : Cell)
  /-- RTC_WRITE: SEC. -/
  | rtcWrite (src : Src) (v : BitVec 32)
  /-- SLEEP_CLR_MAX. -/
  | sleepClrMax (src : Src)
  /-- NOR_READ: GO with OP 1, a device and an offset. -/
  | norRead (src : Src) (dev : Fin 2) (off : BitVec 32)
  /-- NOR_PROGRAM: GO with OP 2. -/
  | norProgram (src : Src) (dev : Fin 2) (off : BitVec 32)
  /-- NOR_ERASE: GO with OP 3. -/
  | norErase (src : Src) (dev : Fin 2) (off : BitVec 32)
  /-- NOR_OP_COMPLETE: whether the device reports no error. -/
  | norOpComplete (ok : Bool)
  /-- NOR_LOG_WRITE to a device. -/
  | norLogWrite (dev : Fin 2)
  /-- IMAGE_VERIFY: GO with SLOT. -/
  | imageVerify (src : Src) (slot : Fin 2)
  /-- IMAGE_VERIFY_COMPLETE: whether SFDP is readable and reads complete. -/
  | imageVerifyComplete (sfdp : Bool)
  /-- LC_OPEN: GO with OP 1; the burn of the state bit. -/
  | lcOpen (src : Src) (b : Burn)
  /-- LC_SEAL: GO with OP 2; the burns of the owner hash, and of the state bit. -/
  | lcSeal (src : Src) (hash b : Burn)
  /-- LC_RETURN: GO with OP 3. -/
  | lcReturn (src : Src) (b : Burn)
  /-- LC_RETIRE: GO with OP 5. -/
  | lcRetire (src : Src) (b : Burn)
  /-- LC_REVOKE: GO with OP 6; the burn of the revoke fuse. -/
  | lcRevoke (src : Src) (b : Burn)
  /-- FUSE_PROG: a completed update of the FUSE_PROG data register; the burn of the state bit. -/
  | fuseProg (b : Burn)
  /-- JTAG_RESET: Test-Logic-Reset. -/
  | jtagReset
  /-- JTAG_IDCODE. -/
  | jtagIdcode
  /-- JTAG_SAMPLE_PRELOAD, with the value shifted in. -/
  | jtagSamplePreload (v : BitVec 9)
  /-- JTAG_EXTEST, with the value shifted in. -/
  | jtagExtest (v : BitVec 9)
  /-- JTAG_CLAMP. -/
  | jtagClamp
  /-- JTAG_HIGHZ. -/
  | jtagHighz
  /-- JTAG_BYPASS. -/
  | jtagBypass
  /-- DBG_ACC_READ of an address. -/
  | dbgAccRead (addr : BitVec 32)
  /-- DBG_ACC_WRITE. -/
  | dbgAccWrite (addr : BitVec 32) (data : Word)
  /-- DBG_SP on the service processor of die 0, or of die 7 (1). -/
  | dbgSp (sp : Fin 2) (op : SpOp)
  /-- MAKER_PRIVATE: instruction code 0x80 + n. -/
  | makerPrivate (n : Fin 127)
  /-- SPDM_GET_VERSION to the VCS of HOST port a. -/
  | spdmGetVersion (a : Cell)
  /-- SPDM_GET_CAPABILITIES. -/
  | spdmGetCapabilities (a : Cell)
  /-- SPDM_NEGOTIATE_ALGORITHMS. -/
  | spdmNegotiateAlgorithms (a : Cell)
  /-- SPDM_GET_CERTIFICATE of a slot. -/
  | spdmGetCertificate (a : Cell) (slot : Fin 8)
  /-- SPDM_CHALLENGE. -/
  | spdmChallenge (a : Cell)
  /-- SPDM_GET_MEASUREMENTS: one index, 0 for their number, 0xFF for all; whether a signature is asked for. -/
  | spdmGetMeasurements (a : Cell) (index : Fin 256) (sign : Bool)
  /-- SPDM_KEY_EXCHANGE. -/
  | spdmKeyExchange (a : Cell)
  /-- SPDM_SIGN_COMPLETE. -/
  | spdmSignComplete
  /-- ZMP_ACQUIRE on the manager port. -/
  | zmpAcquire (x : ZmpIn) (client : BitVec 16)
  /-- ZMP_RENEW. -/
  | zmpRenew (x : ZmpIn) (client : BitVec 16)
  /-- ZMP_RELEASE. -/
  | zmpRelease (x : ZmpIn) (client : BitVec 16)
  /-- ZMP_READ. -/
  | zmpRead (x : ZmpIn) (addr : BitVec 32) (count : BitVec 16)
  /-- ZMP_WRITE. -/
  | zmpWrite (x : ZmpIn) (addr : BitVec 32) (data : List Word)
  /-- ZMP_MCTP, with its message. -/
  | zmpMctp (x : ZmpIn) (m : MctpMsg)
  /-- ZMP_PING. -/
  | zmpPing (x : ZmpIn)
  /-- MCTP_CONTROL. -/
  | mctpControl (src : Src) (c : MctpCtl)
  /-- MCTP_VENDOR_ZMP. -/
  | mctpVendorZmp (src : Src) (x : ZmpIn) (r : ZmpReq)
  /-- LEASE_EXPIRY: LEASE_MS without a renewal. -/
  | leaseExpiry
  /-- REGISTER_WRITE: a 64-bit write of an address. -/
  | registerWrite (src : Src) (addr : BitVec 32) (v : Word)
  /-- COMMIT_GO. -/
  | commitGo (src : Src)
  /-- COMMIT_DISCARD. -/
  | commitDiscard (src : Src)
  /-- COMMIT_CHECK_COMPLETE. -/
  | commitCheckComplete
  /-- COMMIT_APPLY: the block of 1 MiB number b receives the apply instant. -/
  | commitApply (b : Fin 1024)
  /-- COMMIT_PENDING_APPLY: the safe point of pending fields of a register comes: those in a mask. -/
  | commitPendingApply (addr : BitVec 32) (mask : Word)
  /-- COMMIT_EPOCH_END. -/
  | commitEpochEnd
  /-- CTR_OVERFLOW: counter n of c counts `inc` in one core cycle and wraps. -/
  | ctrOverflow (c : Cell) (n : Fin 8) (inc : Fin 1025)
  /-- CTR_CAPTURE in c; whether the SAMP input is busy. -/
  | ctrCapture (c : Cell) (sampBusy : Bool)
  /-- CTR_VAL_WRITE of counter n, with the cycle's increment. -/
  | ctrValWrite (src : Src) (c : Cell) (n : Fin 8) (v : BitVec 32) (inc : Fin 1025)
  /-- CTR_PAIR_WRITE of pair j, with the increments of its two counters in the cycle. -/
  | ctrPairWrite (src : Src) (c : Cell) (j : Fin 4) (v : Word) (incLo incHi : Fin 1025)
  /-- CTR_FREEZE_WRITE. -/
  | ctrFreezeWrite (src : Src) (c : Cell) (v : Bool)
  /-- CTR_SNAP. -/
  | ctrSnap (src : Src) (c : Cell)
  /-- CTR_SNAP_AT_REACHED in c. -/
  | ctrSnapAtReached (c : Cell)
  /-- INST_CTR_SNAP of instance i, by a register path, or by its tenant (none). -/
  | instCtrSnap (by_ : Option Src) (i : Inst)
  /-- THERMAL_WARN: sensor x has been at its warn threshold for two samples. -/
  | thermalWarn (x : Fin 52)
  /-- THERMAL_RELEASE. -/
  | thermalRelease
  /-- THERMAL_TRIP of the sensors that lie beyond their trip thresholds in one sample period. -/
  | thermalTrip (xs : List (Fin 52))
  /-- HOST_CXL_IO_REQUEST at HOST port a. -/
  | hostCxlIoRequest (a : Cell) (r : IoReq)
  /-- LATH_EDGE_ACTIVE: edge e of die d reaches ACTIVE. -/
  | lathEdgeActive (d : Die) (e : Fin 4)
  deriving DecidableEq, Repr

end Sys2Proof
end

