-- ==== Sys2Proof/Config.lean ====
section
/-! DEFINITION. What the spec leaves to an implementation or to chance: free values, as constants with no body, and the
functions of cryptographic standards, which the spec names and does not give. -/

namespace Sys2Proof

/-- A random draw of the module (R281): the n-th free value. -/
opaque Config.freeRandom : Nat → Nat

/-- Data that the spec leaves open: the content of a line written with poison set. -/
opaque Config.freeLine : Nat → Line

/-- AES-256 (FIPS 197): a permutation of blocks of 16 bytes for each key. -/
opaque Config.aes256 : BitVec 256 → Equiv.Perm (BitVec 128)
/-- The wrapping function of the AES key wrap on 72 bytes (NIST SP 800-38F), for each key (R280, R282). -/
opaque Config.keyWrap : BitVec 256 → Equiv.Perm (BitVec 576)
/-- KDF of R280 (NIST SP 800-108 counter mode, HMAC-SHA-384): key, use, and context. The spec gives no label or context. -/
opaque Config.kdf : BitVec 256 → Nat → Nat → BitVec 384
/-- brainpoolP384r1: the public key of a secret one as 97 bytes, and the ECDH secret of a secret key and a public one (R280, R289). -/
opaque Config.ecPublic : BitVec 384 → List Byte
opaque Config.ecdh : BitVec 384 → List Byte → BitVec 384
/-- An ECDSA signature of a digest on brainpoolP384r1, 96 bytes (Table 11-23). -/
opaque Config.ecdsaSign : BitVec 384 → BitVec 384 → List Byte
/-- HKDF-SHA-384 (R289): input keying material, salt and info. -/
opaque Config.hkdf : BitVec 384 → BitVec 64 → List Byte → BitVec 256
/-- AES-256-GCM (R289): key, nonce, additional data and plaintext give the ciphertext and the tag. -/
opaque Config.gcm : BitVec 256 → BitVec 96 → List Byte → List Byte → List Byte × BitVec 128
/-- What a blob's body holds before it is sealed (Table 8-8): its layout is the module's own. -/
opaque Config.blobPlain : Blob → List Byte
/-- The DER of the module's device certificate and of its module CA certificate (R449, Table 11-23). -/
opaque Config.certs : List Byte

/-- SHA-384 (R421 to R426): FIPS 180-4, outside the spec. -/
opaque Config.sha384 : List Byte → BitVec 384
/-- An ECDSA signature on brainpoolP384r1 verifies (R423, R424, R438): under Claca key k (inl), or a public key's 97 bytes (inr). -/
opaque Config.ecdsaOk : Sum Nat (List Byte) → BitVec 384 → List Byte → Bool
/-- The role that the image with a digest gives a cell (R29), as 0 HOST, 1 MEMORY, 2 DEVICE, 3 ONORA, 4 IDLE: the spec names no
field that holds it. -/
opaque Config.imageRole : BitVec 384 → Nat → Fin 5
/-- The SECDED code of a Scrim slot (Table 2-2): 10 check bits over the 32 B payload and sideband bits [8:0]. The spec names the code
and gives no matrix. -/
opaque Config.secded : BitVec 265 → BitVec 10
/-- Max_Payload_Size of the device behind a DEVICE port, in bytes (R110): its host sets it in the device. -/
opaque Config.maxPayload : Nat → Nat
/-- Claca's PCI vendor ID (R110). -/
opaque Config.clacaVendor : BitVec 16
/-- SHA-384 of the mask ROM (Table 15-17). -/
opaque Config.romHash : BitVec 384

end Sys2Proof
end

