-- ==== Sys2Proof/Machine/Crypt.lean ====
section
/-! DEFINITION. Bytes, and the ciphers of spec/09 R279 to R289 over the functions of the standards (Config): XTS of a line, the key wrap, and
the seal of a blob. -/

namespace Sys2Proof.Machine

/-- A number as n bytes, least significant first (R14). -/
def leBytes (n x : Nat) : List Byte := (List.range n).map (fun i => BitVec.ofNat 8 (x / 256 ^ i))
/-- Bytes, least significant first, as a number. -/
def ofLe (l : List Byte) : Nat := l.foldr (fun b n => b.toNat + 256 * n) 0
/-- Bytes in data units of 64, the last one padded with zeros (R351). -/
def linesOf (bs : List Byte) : List Line :=
  (List.range ((bs.length + 63) / 64)).map (fun k => BitVec.ofNat 512 (ofLe ((bs.drop (64 * k)).take 64)))

/-! ### AES-256-XTS of a line (R279) -/

/-- The next block's tweak value: multiplication by the primitive element of GF(2^128) of IEEE Std 1619. -/
def nextTweak (t : BitVec 128) : BitVec 128 := (t <<< 1) ^^^ (if t.msb then 0x87 else 0)
/-- The tweak value of block j of a data unit: the number of the unit, under the second half of the key. -/
def tweakAt (key : BitVec 512) (unit : Nat) : Nat → BitVec 128
  | 0 => Config.aes256 (key.extractLsb' 256 256) (BitVec.ofNat 128 unit)
  | j + 1 => nextTweak (tweakAt key unit j)
/-- Block j of a line, as XTS enciphers or deciphers it with one permutation. -/
def xtsBlock (f : BitVec 128 → BitVec 128) (key : BitVec 512) (unit : Nat) (l : Line) (j : Nat) : BitVec 128 :=
  f (l.extractLsb' (128 * j) 128 ^^^ tweakAt key unit j) ^^^ tweakAt key unit j
/-- The four blocks of a line together. -/
def xtsLine (f : BitVec 128 → BitVec 128) (key : BitVec 512) (unit : Nat) (l : Line) : Line :=
  xtsBlock f key unit l 3 ++ xtsBlock f key unit l 2 ++ xtsBlock f key unit l 1 ++ xtsBlock f key unit l 0
/-- A 64 B line under a memory key at pool line address `unit`: the first half of the key is the data key (R279; which half of the 512
bits comes first, log 4). -/
def encrypt (key : BitVec 512) (unit : Nat) (l : Line) : Line := xtsLine (Config.aes256 (key.extractLsb' 0 256)) key unit l
def decrypt (key : BitVec 512) (unit : Nat) (l : Line) : Line := xtsLine (Config.aes256 (key.extractLsb' 0 256)).symm key unit l

/-! ### The key wrap (R280, R282) -/

/-- The initial value of the AES key wrap. -/
def wrapIcv : BitVec 64 := 0xA6A6A6A6A6A6A6A6
/-- A memory key as a KEYLOAD note carries it. -/
def wrapKey (transport : BitVec 256) (key : BitVec 512) : BitVec 576 := Config.keyWrap transport (wrapIcv ++ key)
/-- What a cell unwraps: none where the integrity check fails. -/
def unwrapKey (transport : BitVec 256) (w : BitVec 576) : Option (BitVec 512) :=
  let x := (Config.keyWrap transport).symm w
  if x.extractLsb' 512 64 = wrapIcv then some (x.extractLsb' 0 512) else none

/-! ### Blobs (Table 8-8, R289) -/

/-- Bytes of ASCII text. -/
def ascii (t : String) : List Byte := t.toList.map (fun c => BitVec.ofNat 8 c.toNat)
/-- The key that seals a blob on its way from one chain address to another. -/
def remoteKey (secret : BitVec 384) (peer : List Byte) (seq src dst : Nat) : BitVec 256 :=
  Config.hkdf (Config.ecdh secret peer) (BitVec.ofNat 64 seq) (ascii "JF blob" ++ leBytes 1 src ++ leBytes 1 dst)
/-- A blob's bytes (Table 8-8): header, body and tag, at most 16,384 of them. -/
def sealBlob (key : BitVec 256) (nonce : BitVec 96) (b : Blob) (remote grouped : Bool) : List Byte :=
  let plain := (Config.blobPlain b).take 16340
  let head := leBytes 2 1 ++ leBytes 2 (28 + plain.length + 16) ++ leBytes 2 b.inst ++ leBytes 1 b.srcModule
    ++ leBytes 1 (remote.toNat + 2 * grouped.toNat) ++ leBytes 8 b.seq ++ leBytes 12 nonce.toNat
  let (body, tag) := Config.gcm key nonce head plain
  head ++ body.take plain.length ++ leBytes 16 tag.toNat

end Sys2Proof.Machine
end

