-- ==== Sys2Proof/Machine/Regs.lean ====
section
/-! DEFINITION. What a register field is (R19, R20), a located field, a row of the register map, and the figures of the
package that the Reset columns call "per die", "per cell" or "per crossing". -/

namespace Sys2Proof.Machine

/-- The six field kinds of Table 0-4 (R19). -/
inductive Kind where
  | static | commit | live | status | clear | pulse
  deriving DecidableEq, Repr

/-- One field of a register: lowest bit, width, kind, whether its Reset column reads "image" (R425), and its value at reset for
the register's indices. -/
structure FieldDef where
  lsb : Nat
  width : Nat
  kind : Kind
  image : Bool
  reset : List Nat → Nat

/-- One register, or one array of them: first address, (count, stride) of each index, outermost first, and its fields. -/
structure RegDef where
  base : Nat
  dims : List (Nat × Nat)
  fields : List FieldDef

/-- A located field: address of its register, lowest bit, width. -/
structure Fld where
  addr : Nat
  lsb : Nat
  width : Nat
  deriving DecidableEq, Repr

/-- Dies 1, 2, 5 and 6 carry an HBM stack (Table 1-1). -/
def hbmDie (d : Nat) : Bool := d == 1 || d == 2 || d == 5 || d == 6

/-- Directory quarter whose primary copy a die's row pair keeps (R157). -/
def dieQuarter (d : Nat) : Nat := 2 * (d % 4 / 2) + d / 4

/-- Edges of die d that face a die: bit 0 north, 1 east, 2 south, 3 west (R63). -/
def edgePresent (d : Nat) : Nat :=
  (if d < 4 then 4 else 1) + (if d % 4 < 3 then 2 else 0) + (if d % 4 > 0 then 8 else 0)

/-- log2 of the entries of a cell's crossing: n = 0 port receive, 1 port transmit (Table 4-1). -/
def xingDepthCell (_ : List Nat) : Nat := 5
/-- log2 of the entries of a Lath edge crossing (Table 4-1); 0 for an edge that faces the package boundary (R63). -/
def xingDepthEdge (ix : List Nat) : Nat := if (edgePresent (ix.getD 0 0)).testBit (ix.getD 1 0) then 6 else 0
/-- log2 of the entries of an HBM crossing (Table 4-1). -/
def xingDepthHbm (_ : List Nat) : Nat := 6

/-- A mask of w ones starting at bit l. -/
def maskAt (l w : Nat) : Nat := (2 ^ w - 1) * 2 ^ l

/-- The indices at which an address offset hits an array, outermost first; none where it hits no element. -/
def splitIdx : List (Nat × Nat) → Nat → Option (List Nat)
  | [], off => if off = 0 then some [] else none
  | (n, st) :: ds, off =>
    if off / st < n then (splitIdx ds (off % st)).map (off / st :: ·) else none

/-- The row and indices of an address in a map. -/
def findReg : List RegDef → Nat → Option (RegDef × List Nat)
  | [], _ => none
  | r :: rs, a =>
    if a < r.base then findReg rs a
    else match splitIdx r.dims (a - r.base) with
      | some ix => some (r, ix)
      | none => findReg rs a

/-- The word a list of fields holds at reset. -/
def resetWord (fs : List FieldDef) (ix : List Nat) : Nat :=
  fs.foldl (fun acc f => acc + (f.reset ix % 2 ^ f.width) * 2 ^ f.lsb) 0

end Sys2Proof.Machine
end

