-- ==== Sys2Proof/Machine/Fields.lean ====
section
/-! DEFINITION. Every field of every register table of spec/ as a located field: its register's address (spec/16, R472,
Tables 16-15 and 16-16), its lowest bit and its width. Names are the spec's own: register, underscore, field. -/

namespace Sys2Proof.Machine.F

/-- Address of PKG_MODE, Table 1-10. -/
def PKG_MODE_at : Nat := 0x40
def PKG_MODE_TRANS_COUNT : Fld := ⟨PKG_MODE_at, 24, 16⟩
def PKG_MODE_CAUSE : Fld := ⟨PKG_MODE_at, 16, 8⟩
def PKG_MODE_PREV_MODE : Fld := ⟨PKG_MODE_at, 8, 4⟩
def PKG_MODE_MODE : Fld := ⟨PKG_MODE_at, 0, 4⟩
/-- Address of PKG_MODE_REQ, Table 1-11. -/
def PKG_MODE_REQ_at : Nat := 0x48
def PKG_MODE_REQ_LAST_TARGET : Fld := ⟨PKG_MODE_REQ_at, 12, 4⟩
def PKG_MODE_REQ_REFUSED : Fld := ⟨PKG_MODE_REQ_at, 9, 1⟩
def PKG_MODE_REQ_BUSY : Fld := ⟨PKG_MODE_REQ_at, 8, 1⟩
def PKG_MODE_REQ_GO : Fld := ⟨PKG_MODE_REQ_at, 4, 1⟩
def PKG_MODE_REQ_TARGET : Fld := ⟨PKG_MODE_REQ_at, 0, 4⟩
/-- Address of DIE_STATUS, Table 2-7. -/
def DIE_STATUS_at (d : Nat) : Nat := 0x1000000 + d * 0x100000
def DIE_STATUS_EDGE_PRESENT (d : Nat) : Fld := ⟨DIE_STATUS_at d, 12, 4⟩
def DIE_STATUS_EDGE_UP (d : Nat) : Fld := ⟨DIE_STATUS_at d, 8, 4⟩
def DIE_STATUS_FENCED (d : Nat) : Fld := ⟨DIE_STATUS_at d, 7, 1⟩
def DIE_STATUS_SP (d : Nat) : Fld := ⟨DIE_STATUS_at d, 6, 1⟩
def DIE_STATUS_HBM (d : Nat) : Fld := ⟨DIE_STATUS_at d, 5, 1⟩
def DIE_STATUS_LEADER (d : Nat) : Fld := ⟨DIE_STATUS_at d, 4, 1⟩
def DIE_STATUS_DIE (d : Nat) : Fld := ⟨DIE_STATUS_at d, 0, 3⟩
/-- Address of DIE_SPINE_CTRL, Table 2-8. -/
def DIE_SPINE_CTRL_at (d : Nat) : Nat := 0x1000000 + d * 0x100000 + 0x8
def DIE_SPINE_CTRL_DRAIN_LIMIT (d : Nat) : Fld := ⟨DIE_SPINE_CTRL_at d, 0, 4⟩
/-- Address of DIE_FENCE_EPOCH, Table 2-9. -/
def DIE_FENCE_EPOCH_at (d : Nat) : Nat := 0x1000000 + d * 0x100000 + 0x10
def DIE_FENCE_EPOCH_DIES (d : Nat) : Fld := ⟨DIE_FENCE_EPOCH_at d, 40, 8⟩
def DIE_FENCE_EPOCH_OPEN (d : Nat) : Fld := ⟨DIE_FENCE_EPOCH_at d, 31, 1⟩
def DIE_FENCE_EPOCH_LEADER_DIE (d : Nat) : Fld := ⟨DIE_FENCE_EPOCH_at d, 28, 3⟩
def DIE_FENCE_EPOCH_EPOCH (d : Nat) : Fld := ⟨DIE_FENCE_EPOCH_at d, 0, 16⟩
/-- Address of DIE_FENCE_LINK, Table 2-10. -/
def DIE_FENCE_LINK_at (d : Nat) (n : Nat) : Nat := 0x1000000 + d * 0x100000 + 0x100 + n * 0x8
def DIE_FENCE_LINK_LINK (d : Nat) (n : Nat) : Fld := ⟨DIE_FENCE_LINK_at d n, 0, 64⟩
/-- Address of DIE_FENCE_CELL, Table 2-10. -/
def DIE_FENCE_CELL_at (d : Nat) (n : Nat) : Nat := 0x1000000 + d * 0x100000 + 0x120 + n * 0x8
def DIE_FENCE_CELL_CELL (d : Nat) (n : Nat) : Fld := ⟨DIE_FENCE_CELL_at d n, 0, 64⟩
/-- Address of SCRIM_RTR_STATUS, Table 2-11. -/
def SCRIM_RTR_STATUS_at (c : Nat) : Nat := 0x1010000 + c / 16 * 0x100000 + c % 16 * 0x1000
def SCRIM_RTR_STATUS_OUT_DEAD (c : Nat) : Fld := ⟨SCRIM_RTR_STATUS_at c, 8, 5⟩
def SCRIM_RTR_STATUS_LOCAL_MODE (c : Nat) : Fld := ⟨SCRIM_RTR_STATUS_at c, 4, 2⟩
def SCRIM_RTR_STATUS_FEP (c : Nat) : Fld := ⟨SCRIM_RTR_STATUS_at c, 3, 1⟩
def SCRIM_RTR_STATUS_DRAIN_STATE (c : Nat) : Fld := ⟨SCRIM_RTR_STATUS_at c, 0, 3⟩
/-- Address of SCRIM_VC_WEIGHT, Table 2-12. -/
def SCRIM_VC_WEIGHT_at (c : Nat) : Nat := 0x1010000 + c / 16 * 0x100000 + c % 16 * 0x1000 + 0x8
def SCRIM_VC_WEIGHT_W6 (c : Nat) : Fld := ⟨SCRIM_VC_WEIGHT_at c, 24, 4⟩
def SCRIM_VC_WEIGHT_W5 (c : Nat) : Fld := ⟨SCRIM_VC_WEIGHT_at c, 20, 4⟩
def SCRIM_VC_WEIGHT_W4 (c : Nat) : Fld := ⟨SCRIM_VC_WEIGHT_at c, 16, 4⟩
def SCRIM_VC_WEIGHT_W3 (c : Nat) : Fld := ⟨SCRIM_VC_WEIGHT_at c, 12, 4⟩
def SCRIM_VC_WEIGHT_W2 (c : Nat) : Fld := ⟨SCRIM_VC_WEIGHT_at c, 8, 4⟩
def SCRIM_VC_WEIGHT_W1 (c : Nat) : Fld := ⟨SCRIM_VC_WEIGHT_at c, 4, 4⟩
def SCRIM_VC_WEIGHT_W0 (c : Nat) : Fld := ⟨SCRIM_VC_WEIGHT_at c, 0, 4⟩
/-- Address of SCRIM_LINK_ERR, Table 2-13. -/
def SCRIM_LINK_ERR_at (c : Nat) : Nat := 0x1010000 + c / 16 * 0x100000 + c % 16 * 0x1000 + 0x10
def SCRIM_LINK_ERR_HCRC_FAIL (c : Nat) : Fld := ⟨SCRIM_LINK_ERR_at c, 32, 16⟩
def SCRIM_LINK_ERR_REPLAYS (c : Nat) : Fld := ⟨SCRIM_LINK_ERR_at c, 16, 16⟩
def SCRIM_LINK_ERR_ECC_CORR (c : Nat) : Fld := ⟨SCRIM_LINK_ERR_at c, 0, 16⟩
/-- Address of SCRIM_ABSORB, Table 2-14. -/
def SCRIM_ABSORB_at (c : Nat) : Nat := 0x1010000 + c / 16 * 0x100000 + c % 16 * 0x1000 + 0x18
def SCRIM_ABSORB_STALE (c : Nat) : Fld := ⟨SCRIM_ABSORB_at c, 48, 16⟩
def SCRIM_ABSORB_DEAD_OUT (c : Nat) : Fld := ⟨SCRIM_ABSORB_at c, 32, 16⟩
def SCRIM_ABSORB_FENCED_DST (c : Nat) : Fld := ⟨SCRIM_ABSORB_at c, 16, 16⟩
def SCRIM_ABSORB_UNREACH (c : Nat) : Fld := ⟨SCRIM_ABSORB_at c, 0, 16⟩
/-- Address of SCRIM_STAT_CTRL, Table 2-15. -/
def SCRIM_STAT_CTRL_at (c : Nat) : Nat := 0x1010000 + c / 16 * 0x100000 + c % 16 * 0x1000 + 0x20
def SCRIM_STAT_CTRL_INTERVAL (c : Nat) : Fld := ⟨SCRIM_STAT_CTRL_at c, 16, 48⟩
def SCRIM_STAT_CTRL_LAT_VC (c : Nat) : Fld := ⟨SCRIM_STAT_CTRL_at c, 8, 3⟩
def SCRIM_STAT_CTRL_SNAP (c : Nat) : Fld := ⟨SCRIM_STAT_CTRL_at c, 0, 1⟩
/-- Address of SCRIM_INJ_BYTES, Table 2-16. -/
def SCRIM_INJ_BYTES_at (c : Nat) (v : Nat) : Nat := 0x1010000 + c / 16 * 0x100000 + c % 16 * 0x1000 + 0x100 + v * 0x8
def SCRIM_INJ_BYTES_INJ_BYTES (c : Nat) (v : Nat) : Fld := ⟨SCRIM_INJ_BYTES_at c v, 0, 64⟩
/-- Address of SCRIM_EJ_BYTES, Table 2-16. -/
def SCRIM_EJ_BYTES_at (c : Nat) (v : Nat) : Nat := 0x1010000 + c / 16 * 0x100000 + c % 16 * 0x1000 + 0x140 + v * 0x8
def SCRIM_EJ_BYTES_EJ_BYTES (c : Nat) (v : Nat) : Fld := ⟨SCRIM_EJ_BYTES_at c v, 0, 64⟩
/-- Address of SCRIM_INJ_STALL, Table 2-16. -/
def SCRIM_INJ_STALL_at (c : Nat) : Nat := 0x1010000 + c / 16 * 0x100000 + c % 16 * 0x1000 + 0x180
def SCRIM_INJ_STALL_STALL (c : Nat) : Fld := ⟨SCRIM_INJ_STALL_at c, 0, 64⟩
/-- Address of SCRIM_LAT_HIST, Table 2-17. -/
def SCRIM_LAT_HIST_at (c : Nat) (n : Nat) : Nat := 0x1010000 + c / 16 * 0x100000 + c % 16 * 0x1000 + 0x200 + n * 0x8
def SCRIM_LAT_HIST_HI (c : Nat) (n : Nat) : Fld := ⟨SCRIM_LAT_HIST_at c n, 32, 32⟩
def SCRIM_LAT_HIST_LO (c : Nat) (n : Nat) : Fld := ⟨SCRIM_LAT_HIST_at c n, 0, 32⟩
/-- Address of SCRIM_LAT_MAX, Table 2-18. -/
def SCRIM_LAT_MAX_at (c : Nat) : Nat := 0x1010000 + c / 16 * 0x100000 + c % 16 * 0x1000 + 0x240
def SCRIM_LAT_MAX_MAX_NS (c : Nat) : Fld := ⟨SCRIM_LAT_MAX_at c, 0, 32⟩
/-- Address of SCRIM_DETOUR, Table 2-19. -/
def SCRIM_DETOUR_at (c : Nat) (n : Nat) : Nat := 0x1010000 + c / 16 * 0x100000 + c % 16 * 0x1000 + 0x400 + n * 0x8
def SCRIM_DETOUR_E3 (c : Nat) (n : Nat) : Fld := ⟨SCRIM_DETOUR_at c n, 48, 16⟩
def SCRIM_DETOUR_E2 (c : Nat) (n : Nat) : Fld := ⟨SCRIM_DETOUR_at c n, 32, 16⟩
def SCRIM_DETOUR_E1 (c : Nat) (n : Nat) : Fld := ⟨SCRIM_DETOUR_at c n, 16, 16⟩
def SCRIM_DETOUR_E0 (c : Nat) (n : Nat) : Fld := ⟨SCRIM_DETOUR_at c n, 0, 16⟩
/-- Address of DIE_LATH_STATUS, Table 2-20. -/
def DIE_LATH_STATUS_at (d e : Nat) : Nat := 0x1020000 + d * 0x100000 + e * 0x1000
def DIE_LATH_STATUS_LINK_DEAD (d e : Nat) : Fld := ⟨DIE_LATH_STATUS_at d e, 8, 4⟩
def DIE_LATH_STATUS_LINK_LP (d e : Nat) : Fld := ⟨DIE_LATH_STATUS_at d e, 4, 4⟩
def DIE_LATH_STATUS_STATE (d e : Nat) : Fld := ⟨DIE_LATH_STATUS_at d e, 0, 3⟩
/-- Address of DIE_LATH_CTRL, Table 2-20. -/
def DIE_LATH_CTRL_at (d e : Nat) : Nat := 0x1020000 + d * 0x100000 + e * 0x1000 + 0x8
def DIE_LATH_CTRL_LP_IDLE (d e : Nat) : Fld := ⟨DIE_LATH_CTRL_at d e, 0, 8⟩
/-- Address of DIE_LATH_ERR, Table 2-20. -/
def DIE_LATH_ERR_at (d e : Nat) (j : Nat) : Nat := 0x1020000 + d * 0x100000 + e * 0x1000 + 0x10 + j * 0x8
def DIE_LATH_ERR_CRC_ERR (d e : Nat) (j : Nat) : Fld := ⟨DIE_LATH_ERR_at d e j, 32, 16⟩
def DIE_LATH_ERR_RETRIES (d e : Nat) (j : Nat) : Fld := ⟨DIE_LATH_ERR_at d e j, 16, 16⟩
def DIE_LATH_ERR_LP_EXITS (d e : Nat) (j : Nat) : Fld := ⟨DIE_LATH_ERR_at d e j, 0, 16⟩
/-- Address of XBAR_STATUS, Table 3-7. -/
def XBAR_STATUS_at (c : Nat) : Nat := 0x10010000 + c * 0x100000
def XBAR_STATUS_OUT_LOCK (c : Nat) : Fld := ⟨XBAR_STATUS_at c, 32, 10⟩
def XBAR_STATUS_IN_LOCK (c : Nat) : Fld := ⟨XBAR_STATUS_at c, 16, 10⟩
def XBAR_STATUS_SPILL_CTX (c : Nat) : Fld := ⟨XBAR_STATUS_at c, 8, 8⟩
def XBAR_STATUS_WHEY_OK (c : Nat) : Fld := ⟨XBAR_STATUS_at c, 4, 1⟩
def XBAR_STATUS_STACK (c : Nat) : Fld := ⟨XBAR_STATUS_at c, 2, 2⟩
def XBAR_STATUS_WIDTH (c : Nat) : Fld := ⟨XBAR_STATUS_at c, 0, 2⟩
/-- Address of XBAR_SCHED, Table 3-8. -/
def XBAR_SCHED_at (c : Nat) : Nat := 0x10010000 + c * 0x100000 + 0x8
def XBAR_SCHED_ITER (c : Nat) : Fld := ⟨XBAR_SCHED_at c, 0, 2⟩
/-- Address of XBAR_GPTR, Table 3-9. -/
def XBAR_GPTR_at (c : Nat) : Nat := 0x10010000 + c * 0x100000 + 0x10
def XBAR_GPTR_PTR (c : Nat) : Fld := ⟨XBAR_GPTR_at c, 0, 40⟩
/-- Address of XBAR_APTR, Table 3-9. -/
def XBAR_APTR_at (c : Nat) : Nat := 0x10010000 + c * 0x100000 + 0x18
def XBAR_APTR_PTR (c : Nat) : Fld := ⟨XBAR_APTR_at c, 0, 40⟩
/-- Address of XBAR_TRACK, Table 3-10. -/
def XBAR_TRACK_at (c : Nat) : Nat := 0x10010000 + c * 0x100000 + 0x20
def XBAR_TRACK_REISSUES (c : Nat) : Fld := ⟨XBAR_TRACK_at c, 32, 32⟩
def XBAR_TRACK_HWM (c : Nat) : Fld := ⟨XBAR_TRACK_at c, 20, 10⟩
def XBAR_TRACK_IN_USE (c : Nat) : Fld := ⟨XBAR_TRACK_at c, 10, 10⟩
def XBAR_TRACK_CLR_HWM (c : Nat) : Fld := ⟨XBAR_TRACK_at c, 0, 1⟩
/-- Address of XBAR_TRACK_CFG, Table 3-11. -/
def XBAR_TRACK_CFG_at (c : Nat) : Nat := 0x10010000 + c * 0x100000 + 0x28
def XBAR_TRACK_CFG_IO_RES (c : Nat) : Fld := ⟨XBAR_TRACK_CFG_at c, 0, 10⟩
/-- Address of XBAR_BUF, Table 3-12. -/
def XBAR_BUF_at (c : Nat) : Nat := 0x10010000 + c * 0x100000 + 0x30
def XBAR_BUF_USED (c : Nat) : Fld := ⟨XBAR_BUF_at c, 32, 16⟩
def XBAR_BUF_SHARED_FREE (c : Nat) : Fld := ⟨XBAR_BUF_at c, 16, 16⟩
def XBAR_BUF_HEAD_FREE (c : Nat) : Fld := ⟨XBAR_BUF_at c, 0, 9⟩
/-- Address of XBAR_RES, Table 3-13. -/
def XBAR_RES_at (c : Nat) (o : Nat) : Nat := 0x10010000 + c * 0x100000 + 0x100 + o * 0x8
def XBAR_RES_TC7 (c : Nat) (o : Nat) : Fld := ⟨XBAR_RES_at c o, 56, 8⟩
def XBAR_RES_TC6 (c : Nat) (o : Nat) : Fld := ⟨XBAR_RES_at c o, 48, 8⟩
def XBAR_RES_TC5 (c : Nat) (o : Nat) : Fld := ⟨XBAR_RES_at c o, 40, 8⟩
def XBAR_RES_TC4 (c : Nat) (o : Nat) : Fld := ⟨XBAR_RES_at c o, 32, 8⟩
def XBAR_RES_TC3 (c : Nat) (o : Nat) : Fld := ⟨XBAR_RES_at c o, 24, 8⟩
def XBAR_RES_TC2 (c : Nat) (o : Nat) : Fld := ⟨XBAR_RES_at c o, 16, 8⟩
def XBAR_RES_TC1 (c : Nat) (o : Nat) : Fld := ⟨XBAR_RES_at c o, 8, 8⟩
def XBAR_RES_TC0 (c : Nat) (o : Nat) : Fld := ⟨XBAR_RES_at c o, 0, 8⟩
/-- Address of XBAR_ALPHA, Table 3-14. -/
def XBAR_ALPHA_at (c : Nat) : Nat := 0x10010000 + c * 0x100000 + 0x150
def XBAR_ALPHA_HEADROOM (c : Nat) : Fld := ⟨XBAR_ALPHA_at c, 32, 9⟩
def XBAR_ALPHA_ALPHA (c : Nat) : Fld := ⟨XBAR_ALPHA_at c, 0, 32⟩
/-- Address of XBAR_SKIM, Table 3-15. -/
def XBAR_SKIM_at (c : Nat) : Nat := 0x10010000 + c * 0x100000 + 0x158
def XBAR_SKIM_ENABLE (c : Nat) : Fld := ⟨XBAR_SKIM_at c, 16, 1⟩
def XBAR_SKIM_SKIM_SRC (c : Nat) : Fld := ⟨XBAR_SKIM_at c, 8, 8⟩
def XBAR_SKIM_SKIM_VIC (c : Nat) : Fld := ⟨XBAR_SKIM_at c, 0, 8⟩
/-- Address of XBAR_SPILL_SHARE, Table 3-16. -/
def XBAR_SPILL_SHARE_at (c : Nat) : Nat := 0x10010000 + c * 0x100000 + 0x160
def XBAR_SPILL_SHARE_SALPHA (c : Nat) : Fld := ⟨XBAR_SPILL_SHARE_at c, 16, 4⟩
def XBAR_SPILL_SHARE_SPILL_MIN (c : Nat) : Fld := ⟨XBAR_SPILL_SHARE_at c, 0, 16⟩
/-- Address of XBAR_SPILL_USE, Table 3-16. -/
def XBAR_SPILL_USE_at (c : Nat) : Nat := 0x10010000 + c * 0x100000 + 0x168
def XBAR_SPILL_USE_SHARED_CHUNKS (c : Nat) : Fld := ⟨XBAR_SPILL_USE_at c, 32, 32⟩
def XBAR_SPILL_USE_TOTAL_CHUNKS (c : Nat) : Fld := ⟨XBAR_SPILL_USE_at c, 0, 32⟩
/-- Address of XBAR_CT, Table 3-17. -/
def XBAR_CT_at (c : Nat) : Nat := 0x10010000 + c * 0x100000 + 0x170
def XBAR_CT_CT_CLASS (c : Nat) : Fld := ⟨XBAR_CT_at c, 8, 8⟩
def XBAR_CT_CT_EN (c : Nat) : Fld := ⟨XBAR_CT_at c, 0, 1⟩
/-- Address of XBAR_SAMP_CTRL, Table 3-18. -/
def XBAR_SAMP_CTRL_at (c : Nat) : Nat := 0x10010000 + c * 0x100000 + 0x180
def XBAR_SAMP_CTRL_N_M1 (c : Nat) : Fld := ⟨XBAR_SAMP_CTRL_at c, 32, 16⟩
def XBAR_SAMP_CTRL_OUT_EN (c : Nat) : Fld := ⟨XBAR_SAMP_CTRL_at c, 16, 10⟩
def XBAR_SAMP_CTRL_TRUNC (c : Nat) : Fld := ⟨XBAR_SAMP_CTRL_at c, 8, 2⟩
def XBAR_SAMP_CTRL_RAND (c : Nat) : Fld := ⟨XBAR_SAMP_CTRL_at c, 1, 1⟩
def XBAR_SAMP_CTRL_EN (c : Nat) : Fld := ⟨XBAR_SAMP_CTRL_at c, 0, 1⟩
/-- Address of XBAR_SAMP_CNT, Table 3-19. -/
def XBAR_SAMP_CNT_at (c : Nat) : Nat := 0x10010000 + c * 0x100000 + 0x188
def XBAR_SAMP_CNT_SKIPPED (c : Nat) : Fld := ⟨XBAR_SAMP_CNT_at c, 32, 32⟩
def XBAR_SAMP_CNT_TAKEN (c : Nat) : Fld := ⟨XBAR_SAMP_CNT_at c, 0, 32⟩
/-- Address of XBAR_MIR_CTRL, Table 3-20. -/
def XBAR_MIR_CTRL_at (c : Nat) (m : Nat) : Nat := 0x10010000 + c * 0x100000 + 0x200 + m * 0x10
def XBAR_MIR_CTRL_TRUNC (c : Nat) (m : Nat) : Fld := ⟨XBAR_MIR_CTRL_at c m, 32, 16⟩
def XBAR_MIR_CTRL_DEST (c : Nat) (m : Nat) : Fld := ⟨XBAR_MIR_CTRL_at c m, 24, 7⟩
def XBAR_MIR_CTRL_FLOW (c : Nat) (m : Nat) : Fld := ⟨XBAR_MIR_CTRL_at c m, 16, 1⟩
def XBAR_MIR_CTRL_EGRESS (c : Nat) (m : Nat) : Fld := ⟨XBAR_MIR_CTRL_at c m, 9, 1⟩
def XBAR_MIR_CTRL_INGRESS (c : Nat) (m : Nat) : Fld := ⟨XBAR_MIR_CTRL_at c m, 8, 1⟩
def XBAR_MIR_CTRL_EN (c : Nat) (m : Nat) : Fld := ⟨XBAR_MIR_CTRL_at c m, 0, 1⟩
/-- Address of XBAR_MIR_FILT, Table 3-20. -/
def XBAR_MIR_FILT_at (c : Nat) (m : Nat) : Nat := 0x10010000 + c * 0x100000 + 0x208 + m * 0x10
def XBAR_MIR_FILT_INST (c : Nat) (m : Nat) : Fld := ⟨XBAR_MIR_FILT_at c m, 52, 12⟩
def XBAR_MIR_FILT_INST_ANY (c : Nat) (m : Nat) : Fld := ⟨XBAR_MIR_FILT_at c m, 51, 1⟩
def XBAR_MIR_FILT_TC_MASK (c : Nat) (m : Nat) : Fld := ⟨XBAR_MIR_FILT_at c m, 40, 8⟩
def XBAR_MIR_FILT_OPC (c : Nat) (m : Nat) : Fld := ⟨XBAR_MIR_FILT_at c m, 24, 8⟩
def XBAR_MIR_FILT_OPC_MASK (c : Nat) (m : Nat) : Fld := ⟨XBAR_MIR_FILT_at c m, 16, 8⟩
/-- Address of XBAR_MIR_CNT, Table 3-21. -/
def XBAR_MIR_CNT_at (c : Nat) (m : Nat) : Nat := 0x10010000 + c * 0x100000 + 0x240 + m * 0x8
def XBAR_MIR_CNT_DROPPED (c : Nat) (m : Nat) : Fld := ⟨XBAR_MIR_CNT_at c m, 32, 32⟩
def XBAR_MIR_CNT_COPIED (c : Nat) (m : Nat) : Fld := ⟨XBAR_MIR_CNT_at c m, 0, 32⟩
/-- Address of XBAR_VOQ_SEL, Table 3-23. -/
def XBAR_VOQ_SEL_at (c : Nat) : Nat := 0x10010000 + c * 0x100000 + 0x380
def XBAR_VOQ_SEL_IN (c : Nat) : Fld := ⟨XBAR_VOQ_SEL_at c, 8, 4⟩
def XBAR_VOQ_SEL_OUT (c : Nat) : Fld := ⟨XBAR_VOQ_SEL_at c, 4, 4⟩
def XBAR_VOQ_SEL_TC (c : Nat) : Fld := ⟨XBAR_VOQ_SEL_at c, 0, 3⟩
/-- Address of XBAR_VOQ_VIEW, Table 3-23. -/
def XBAR_VOQ_VIEW_at (c : Nat) : Nat := 0x10010000 + c * 0x100000 + 0x388
def XBAR_VOQ_VIEW_SPILLED (c : Nat) : Fld := ⟨XBAR_VOQ_VIEW_at c, 63, 1⟩
def XBAR_VOQ_VIEW_WHEY_FRAMES (c : Nat) : Fld := ⟨XBAR_VOQ_VIEW_at c, 32, 24⟩
def XBAR_VOQ_VIEW_BUF_FRAMES (c : Nat) : Fld := ⟨XBAR_VOQ_VIEW_at c, 16, 16⟩
def XBAR_VOQ_VIEW_BUF_GRAN (c : Nat) : Fld := ⟨XBAR_VOQ_VIEW_at c, 0, 16⟩
/-- Address of XBAR_SKIMS, Table 3-22. -/
def XBAR_SKIMS_at (c : Nat) : Nat := 0x10010000 + c * 0x100000 + 0x300
def XBAR_SKIMS_COUNT (c : Nat) : Fld := ⟨XBAR_SKIMS_at c, 0, 64⟩
/-- Address of XBAR_RETURNS, Table 3-22. -/
def XBAR_RETURNS_at (c : Nat) : Nat := 0x10010000 + c * 0x100000 + 0x308
def XBAR_RETURNS_COUNT (c : Nat) : Fld := ⟨XBAR_RETURNS_at c, 0, 64⟩
/-- Address of XBAR_STOMPS, Table 3-22. -/
def XBAR_STOMPS_at (c : Nat) : Nat := 0x10010000 + c * 0x100000 + 0x310
def XBAR_STOMPS_COUNT (c : Nat) : Fld := ⟨XBAR_STOMPS_at c, 0, 64⟩
/-- Address of XBAR_CT_STARTS, Table 3-22. -/
def XBAR_CT_STARTS_at (c : Nat) : Nat := 0x10010000 + c * 0x100000 + 0x318
def XBAR_CT_STARTS_COUNT (c : Nat) : Fld := ⟨XBAR_CT_STARTS_at c, 0, 64⟩
/-- Address of XBAR_LATE_DISCARD, Table 3-22. -/
def XBAR_LATE_DISCARD_at (c : Nat) : Nat := 0x10010000 + c * 0x100000 + 0x320
def XBAR_LATE_DISCARD_COUNT (c : Nat) : Fld := ⟨XBAR_LATE_DISCARD_at c, 0, 64⟩
/-- Address of XBAR_ADMIT_WAIT, Table 3-22. -/
def XBAR_ADMIT_WAIT_at (c : Nat) : Nat := 0x10010000 + c * 0x100000 + 0x328
def XBAR_ADMIT_WAIT_COUNT (c : Nat) : Fld := ⟨XBAR_ADMIT_WAIT_at c, 0, 64⟩
/-- Address of XBAR_UNDERRUN, Table 3-22. -/
def XBAR_UNDERRUN_at (c : Nat) : Nat := 0x10010000 + c * 0x100000 + 0x330
def XBAR_UNDERRUN_COUNT (c : Nat) : Fld := ⟨XBAR_UNDERRUN_at c, 0, 64⟩
/-- Address of SPILL_CTX_SEL, Table 4-6. -/
def SPILL_CTX_SEL_at (c : Nat) : Nat := 0x10030000 + c * 0x100000
def SPILL_CTX_SEL_CTX (c : Nat) : Fld := ⟨SPILL_CTX_SEL_at c, 0, 6⟩
/-- Address of SPILL_CTX_VIEW0, Table 4-7. -/
def SPILL_CTX_VIEW0_at (c : Nat) : Nat := 0x10030000 + c * 0x100000 + 0x8
def SPILL_CTX_VIEW0_ACTIVE (c : Nat) : Fld := ⟨SPILL_CTX_VIEW0_at c, 63, 1⟩
def SPILL_CTX_VIEW0_IN (c : Nat) : Fld := ⟨SPILL_CTX_VIEW0_at c, 52, 4⟩
def SPILL_CTX_VIEW0_OUT (c : Nat) : Fld := ⟨SPILL_CTX_VIEW0_at c, 48, 4⟩
def SPILL_CTX_VIEW0_TC (c : Nat) : Fld := ⟨SPILL_CTX_VIEW0_at c, 44, 3⟩
def SPILL_CTX_VIEW0_FSEQ_WR (c : Nat) : Fld := ⟨SPILL_CTX_VIEW0_at c, 24, 16⟩
def SPILL_CTX_VIEW0_FSEQ_RD (c : Nat) : Fld := ⟨SPILL_CTX_VIEW0_at c, 8, 16⟩
/-- Address of SPILL_CTX_VIEW1, Table 4-8. -/
def SPILL_CTX_VIEW1_at (c : Nat) : Nat := 0x10030000 + c * 0x100000 + 0x10
def SPILL_CTX_VIEW1_STACK (c : Nat) : Fld := ⟨SPILL_CTX_VIEW1_at c, 62, 2⟩
def SPILL_CTX_VIEW1_HEAD_CHUNK (c : Nat) : Fld := ⟨SPILL_CTX_VIEW1_at c, 35, 21⟩
def SPILL_CTX_VIEW1_HEAD_WORD (c : Nat) : Fld := ⟨SPILL_CTX_VIEW1_at c, 29, 6⟩
def SPILL_CTX_VIEW1_TAIL_CHUNK (c : Nat) : Fld := ⟨SPILL_CTX_VIEW1_at c, 8, 21⟩
def SPILL_CTX_VIEW1_TAIL_WORD (c : Nat) : Fld := ⟨SPILL_CTX_VIEW1_at c, 2, 6⟩
def SPILL_CTX_VIEW1_HEAD_REG (c : Nat) : Fld := ⟨SPILL_CTX_VIEW1_at c, 1, 1⟩
def SPILL_CTX_VIEW1_FETCH_OUT (c : Nat) : Fld := ⟨SPILL_CTX_VIEW1_at c, 0, 1⟩
/-- Address of SPILL_CTX_VIEW2, Table 4-9. -/
def SPILL_CTX_VIEW2_at (c : Nat) : Nat := 0x10030000 + c * 0x100000 + 0x18
def SPILL_CTX_VIEW2_FRAMES (c : Nat) : Fld := ⟨SPILL_CTX_VIEW2_at c, 40, 24⟩
def SPILL_CTX_VIEW2_CHUNKS (c : Nat) : Fld := ⟨SPILL_CTX_VIEW2_at c, 19, 21⟩
/-- Address of SPILL_STATUS, Table 4-10. -/
def SPILL_STATUS_at (c : Nat) : Nat := 0x10030000 + c * 0x100000 + 0x20
def SPILL_STATUS_SPARE (c : Nat) : Fld := ⟨SPILL_STATUS_at c, 8, 3⟩
def SPILL_STATUS_FETCH_OUT (c : Nat) : Fld := ⟨SPILL_STATUS_at c, 0, 7⟩
/-- Address of SPILL_ERR, Table 4-11. -/
def SPILL_ERR_at (c : Nat) : Nat := 0x10030000 + c * 0x100000 + 0x28
def SPILL_ERR_FRAMING_LOSS (c : Nat) : Fld := ⟨SPILL_ERR_at c, 48, 16⟩
def SPILL_ERR_HDR_ABSORB (c : Nat) : Fld := ⟨SPILL_ERR_at c, 32, 16⟩
def SPILL_ERR_PARITY_WORDS (c : Nat) : Fld := ⟨SPILL_ERR_at c, 16, 16⟩
def SPILL_ERR_TAIL_UNCORR (c : Nat) : Fld := ⟨SPILL_ERR_at c, 0, 16⟩
/-- Address of SPILL_CHUNK_WAIT, Table 4-12. -/
def SPILL_CHUNK_WAIT_at (c : Nat) : Nat := 0x10030000 + c * 0x100000 + 0x30
def SPILL_CHUNK_WAIT_WAIT (c : Nat) : Fld := ⟨SPILL_CHUNK_WAIT_at c, 0, 64⟩
/-- Address of SPILL_XING_CELL, Table 4-13. -/
def SPILL_XING_CELL_at (c : Nat) (n : Nat) : Nat := 0x10030000 + c * 0x100000 + 0x100 + n * 0x8
def SPILL_XING_CELL_CLR_HWM (c : Nat) (n : Nat) : Fld := ⟨SPILL_XING_CELL_at c n, 63, 1⟩
def SPILL_XING_CELL_DEPTH_LOG2 (c : Nat) (n : Nat) : Fld := ⟨SPILL_XING_CELL_at c n, 48, 4⟩
def SPILL_XING_CELL_HWM (c : Nat) (n : Nat) : Fld := ⟨SPILL_XING_CELL_at c n, 32, 16⟩
def SPILL_XING_CELL_WR_VIEW (c : Nat) (n : Nat) : Fld := ⟨SPILL_XING_CELL_at c n, 16, 16⟩
def SPILL_XING_CELL_RD_VIEW (c : Nat) (n : Nat) : Fld := ⟨SPILL_XING_CELL_at c n, 0, 16⟩
/-- Address of SPILL_XING_EDGE, Table 4-13. -/
def SPILL_XING_EDGE_at (d e : Nat) (j : Nat) : Nat := 0x1020000 + d * 0x100000 + e * 0x1000 + 0x100 + j * 0x8
def SPILL_XING_EDGE_CLR_HWM (d e : Nat) (j : Nat) : Fld := ⟨SPILL_XING_EDGE_at d e j, 63, 1⟩
def SPILL_XING_EDGE_DEPTH_LOG2 (d e : Nat) (j : Nat) : Fld := ⟨SPILL_XING_EDGE_at d e j, 48, 4⟩
def SPILL_XING_EDGE_HWM (d e : Nat) (j : Nat) : Fld := ⟨SPILL_XING_EDGE_at d e j, 32, 16⟩
def SPILL_XING_EDGE_WR_VIEW (d e : Nat) (j : Nat) : Fld := ⟨SPILL_XING_EDGE_at d e j, 16, 16⟩
def SPILL_XING_EDGE_RD_VIEW (d e : Nat) (j : Nat) : Fld := ⟨SPILL_XING_EDGE_at d e j, 0, 16⟩
/-- Address of SPILL_XING_HBM, Table 4-13. -/
def SPILL_XING_HBM_at (d : Nat) (n : Nat) : Nat := 0x1040800 + d * 0x100000 + 0x100 + n * 0x8
def SPILL_XING_HBM_CLR_HWM (d : Nat) (n : Nat) : Fld := ⟨SPILL_XING_HBM_at d n, 63, 1⟩
def SPILL_XING_HBM_DEPTH_LOG2 (d : Nat) (n : Nat) : Fld := ⟨SPILL_XING_HBM_at d n, 48, 4⟩
def SPILL_XING_HBM_HWM (d : Nat) (n : Nat) : Fld := ⟨SPILL_XING_HBM_at d n, 32, 16⟩
def SPILL_XING_HBM_WR_VIEW (d : Nat) (n : Nat) : Fld := ⟨SPILL_XING_HBM_at d n, 16, 16⟩
def SPILL_XING_HBM_RD_VIEW (d : Nat) (n : Nat) : Fld := ⟨SPILL_XING_HBM_at d n, 0, 16⟩
/-- Address of SPILL_STACK_STATUS, Table 4-14. -/
def SPILL_STACK_STATUS_at (d : Nat) : Nat := 0x1040800 + d * 0x100000
def SPILL_STACK_STATUS_STATE (d : Nat) : Fld := ⟨SPILL_STACK_STATUS_at d, 62, 2⟩
def SPILL_STACK_STATUS_FREE_TOTAL (d : Nat) : Fld := ⟨SPILL_STACK_STATUS_at d, 32, 21⟩
def SPILL_STACK_STATUS_SHARED_FREE (d : Nat) : Fld := ⟨SPILL_STACK_STATUS_at d, 0, 21⟩
/-- Address of SPILL_STACK_ERR, Table 4-15. -/
def SPILL_STACK_ERR_at (d : Nat) : Nat := 0x1040800 + d * 0x100000 + 0x8
def SPILL_STACK_ERR_PARITY_WORDS (d : Nat) : Fld := ⟨SPILL_STACK_ERR_at d, 32, 32⟩
def SPILL_STACK_ERR_GRANT_REFUSED (d : Nat) : Fld := ⟨SPILL_STACK_ERR_at d, 0, 32⟩
/-- Address of GATE_CLASS_MAP, Table 5-4. -/
def GATE_CLASS_MAP_at (c : Nat) : Nat := 0x10020000 + c * 0x100000
def GATE_CLASS_MAP_REQ_TC (c : Nat) : Fld := ⟨GATE_CLASS_MAP_at c, 8, 3⟩
def GATE_CLASS_MAP_RWD_TC (c : Nat) : Fld := ⟨GATE_CLASS_MAP_at c, 4, 3⟩
def GATE_CLASS_MAP_NDR_TC (c : Nat) : Fld := ⟨GATE_CLASS_MAP_at c, 0, 3⟩
/-- Address of GATE_CTRL, Table 5-5. -/
def GATE_CTRL_at (c : Nat) : Nat := 0x10020000 + c * 0x100000 + 0x8
def GATE_CTRL_GUARD_NS (c : Nat) : Fld := ⟨GATE_CTRL_at c, 32, 8⟩
def GATE_CTRL_LEN (c : Nat) : Fld := ⟨GATE_CTRL_at c, 16, 6⟩
def GATE_CTRL_EN (c : Nat) : Fld := ⟨GATE_CTRL_at c, 0, 1⟩
/-- Address of GATE_CYCLE, Table 5-6. -/
def GATE_CYCLE_at (c : Nat) : Nat := 0x10020000 + c * 0x100000 + 0x10
def GATE_CYCLE_CYCLE_NS (c : Nat) : Fld := ⟨GATE_CYCLE_at c, 0, 32⟩
/-- Address of GATE_BASE, Table 5-6. -/
def GATE_BASE_at (c : Nat) : Nat := 0x10020000 + c * 0x100000 + 0x18
def GATE_BASE_BASE_TIME (c : Nat) : Fld := ⟨GATE_BASE_at c, 0, 64⟩
/-- Address of GATE_STATUS, Table 5-7. -/
def GATE_STATUS_at (c : Nat) : Nat := 0x10020000 + c * 0x100000 + 0x20
def GATE_STATUS_OPEN (c : Nat) : Fld := ⟨GATE_STATUS_at c, 32, 8⟩
def GATE_STATUS_ENTRY (c : Nat) : Fld := ⟨GATE_STATUS_at c, 16, 6⟩
def GATE_STATUS_RUNNING (c : Nat) : Fld := ⟨GATE_STATUS_at c, 1, 1⟩
def GATE_STATUS_REFUSED (c : Nat) : Fld := ⟨GATE_STATUS_at c, 0, 1⟩
/-- Address of GATE_CNT, Table 5-8. -/
def GATE_CNT_at (c : Nat) : Nat := 0x10020000 + c * 0x100000 + 0x28
def GATE_CNT_FIT_WAIT (c : Nat) : Fld := ⟨GATE_CNT_at c, 32, 32⟩
def GATE_CNT_OVERRUN (c : Nat) : Fld := ⟨GATE_CNT_at c, 16, 16⟩
def GATE_CNT_OVERSIZE (c : Nat) : Fld := ⟨GATE_CNT_at c, 0, 16⟩
/-- Address of GATE_LIST, Table 5-9. -/
def GATE_LIST_at (c : Nat) (n : Nat) : Nat := 0x10020000 + c * 0x100000 + 0x100 + n * 0x8
def GATE_LIST_GATES1 (c : Nat) (n : Nat) : Fld := ⟨GATE_LIST_at c n, 56, 8⟩
def GATE_LIST_INTERVAL1 (c : Nat) (n : Nat) : Fld := ⟨GATE_LIST_at c n, 32, 24⟩
def GATE_LIST_GATES0 (c : Nat) (n : Nat) : Fld := ⟨GATE_LIST_at c n, 24, 8⟩
def GATE_LIST_INTERVAL0 (c : Nat) (n : Nat) : Fld := ⟨GATE_LIST_at c n, 0, 24⟩
/-- Address of SHP_CFG, Table 5-10. -/
def SHP_CFG_at (c : Nat) (o tc : Nat) : Nat := 0x10020000 + c * 0x100000 + 0x400 + o * 0x40 + tc * 0x8
def SHP_CFG_HI_CREDIT (c : Nat) (o tc : Nat) : Fld := ⟨SHP_CFG_at c o tc, 32, 12⟩
def SHP_CFG_EN (c : Nat) (o tc : Nat) : Fld := ⟨SHP_CFG_at c o tc, 16, 1⟩
def SHP_CFG_IDLE_RATE (c : Nat) (o tc : Nat) : Fld := ⟨SHP_CFG_at c o tc, 0, 16⟩
/-- Address of SHP_CREDIT, Table 5-10. -/
def SHP_CREDIT_at (c : Nat) (o tc : Nat) : Nat := 0x10020000 + c * 0x100000 + 0x600 + o * 0x40 + tc * 0x8
def SHP_CREDIT_GATED (c : Nat) (o tc : Nat) : Fld := ⟨SHP_CREDIT_at c o tc, 33, 1⟩
def SHP_CREDIT_ACTIVE (c : Nat) (o tc : Nat) : Fld := ⟨SHP_CREDIT_at c o tc, 32, 1⟩
def SHP_CREDIT_CREDIT (c : Nat) (o tc : Nat) : Fld := ⟨SHP_CREDIT_at c o tc, 0, 32⟩
/-- Address of SHP_OBS_CTRL, Table 5-11. -/
def SHP_OBS_CTRL_at (c : Nat) : Nat := 0x10020000 + c * 0x100000 + 0x800
def SHP_OBS_CTRL_HIST_PERIOD (c : Nat) : Fld := ⟨SHP_OBS_CTRL_at c, 48, 16⟩
def SHP_OBS_CTRL_DEPTH_PERIOD (c : Nat) : Fld := ⟨SHP_OBS_CTRL_at c, 32, 16⟩
def SHP_OBS_CTRL_REC_EN (c : Nat) : Fld := ⟨SHP_OBS_CTRL_at c, 1, 1⟩
def SHP_OBS_CTRL_SNAP (c : Nat) : Fld := ⟨SHP_OBS_CTRL_at c, 0, 1⟩
/-- Address of SHP_OBS_QSEL, Table 5-11. -/
def SHP_OBS_QSEL_at (c : Nat) : Nat := 0x10020000 + c * 0x100000 + 0x808
def SHP_OBS_QSEL_Q (c : Nat) (q : Nat) : Fld := ⟨SHP_OBS_QSEL_at c, 8 * q, 8⟩
/-- Address of SHP_OBS_DLY, Table 5-12. -/
def SHP_OBS_DLY_at (c : Nat) (q n : Nat) : Nat := 0x10020000 + c * 0x100000 + 0x900 + q * 0x80 + n * 0x8
def SHP_OBS_DLY_HI (c : Nat) (q n : Nat) : Fld := ⟨SHP_OBS_DLY_at c q n, 32, 32⟩
def SHP_OBS_DLY_LO (c : Nat) (q n : Nat) : Fld := ⟨SHP_OBS_DLY_at c q n, 0, 32⟩
/-- Address of SHP_OBS_DEP, Table 5-12. -/
def SHP_OBS_DEP_at (c : Nat) (q n : Nat) : Nat := 0x10020000 + c * 0x100000 + 0x940 + q * 0x80 + n * 0x8
def SHP_OBS_DEP_HI (c : Nat) (q n : Nat) : Fld := ⟨SHP_OBS_DEP_at c q n, 32, 32⟩
def SHP_OBS_DEP_LO (c : Nat) (q n : Nat) : Fld := ⟨SHP_OBS_DEP_at c q n, 0, 32⟩
/-- Address of SHP_OBS_SUM, Table 5-12. -/
def SHP_OBS_SUM_at (c : Nat) (q : Nat) : Nat := 0x10020000 + c * 0x100000 + 0x960 + q * 0x80
def SHP_OBS_SUM_FRAMES (c : Nat) (q : Nat) : Fld := ⟨SHP_OBS_SUM_at c q, 32, 32⟩
def SHP_OBS_SUM_MAX_DELAY (c : Nat) (q : Nat) : Fld := ⟨SHP_OBS_SUM_at c q, 0, 32⟩
/-- Address of SHP_OBS_MAX, Table 5-12. -/
def SHP_OBS_MAX_at (c : Nat) (q : Nat) : Nat := 0x10020000 + c * 0x100000 + 0x968 + q * 0x80
def SHP_OBS_MAX_SEQ (c : Nat) (q : Nat) : Fld := ⟨SHP_OBS_MAX_at c q, 32, 32⟩
def SHP_OBS_MAX_MAX_DEPTH (c : Nat) (q : Nat) : Fld := ⟨SHP_OBS_MAX_at c q, 0, 16⟩
/-- Address of HOME_STATUS, Table 6-9. -/
def HOME_STATUS_at (c : Nat) : Nat := 0x10040000 + c * 0x100000
def HOME_STATUS_SERVED (c : Nat) : Fld := ⟨HOME_STATUS_at c, 32, 8⟩
def HOME_STATUS_SLAB (c : Nat) : Fld := ⟨HOME_STATUS_at c, 16, 5⟩
def HOME_STATUS_QUARTER (c : Nat) : Fld := ⟨HOME_STATUS_at c, 14, 2⟩
def HOME_STATUS_TOPO (c : Nat) : Fld := ⟨HOME_STATUS_at c, 10, 2⟩
def HOME_STATUS_DOMAIN (c : Nat) : Fld := ⟨HOME_STATUS_at c, 8, 2⟩
def HOME_STATUS_STATE (c : Nat) : Fld := ⟨HOME_STATUS_at c, 0, 2⟩
/-- Address of HOME_CFG, Table 6-10. -/
def HOME_CFG_at (c : Nat) : Nat := 0x10040000 + c * 0x100000 + 0x8
def HOME_CFG_SNP_TIMEOUT (c : Nat) : Fld := ⟨HOME_CFG_at c, 24, 8⟩
def HOME_CFG_SPEC_EN (c : Nat) : Fld := ⟨HOME_CFG_at c, 16, 1⟩
def HOME_CFG_SNP_MAX (c : Nat) : Fld := ⟨HOME_CFG_at c, 0, 9⟩
/-- Address of HOME_MAP, Table 6-11. -/
def HOME_MAP_at (c : Nat) (n : Nat) : Nat := 0x10040000 + c * 0x100000 + 0x100 + n * 0x8
def HOME_MAP_CELL (c : Nat) (n : Nat) (j : Nat) : Fld := ⟨HOME_MAP_at c n, 8 * j, 7⟩
/-- Address of HOME_SLOT, Table 6-12. -/
def HOME_SLOT_at (c : Nat) (n : Nat) : Nat := 0x10040000 + c * 0x100000 + 0x180 + n * 0x8
def HOME_SLOT_VALID (c : Nat) (n : Nat) (j : Nat) : Fld := ⟨HOME_SLOT_at c n, 8 * j + 7, 1⟩
def HOME_SLOT_ANCHOR (c : Nat) (n : Nat) (j : Nat) : Fld := ⟨HOME_SLOT_at c n, 8 * j, 7⟩
/-- Address of HOME_TT, Table 6-13. -/
def HOME_TT_at (c : Nat) : Nat := 0x10040000 + c * 0x100000 + 0x200
def HOME_TT_HWM (c : Nat) : Fld := ⟨HOME_TT_at c, 49, 11⟩
def HOME_TT_IN_USE (c : Nat) : Fld := ⟨HOME_TT_at c, 38, 11⟩
def HOME_TT_EV_USE (c : Nat) : Fld := ⟨HOME_TT_at c, 31, 7⟩
def HOME_TT_INT_USE (c : Nat) : Fld := ⟨HOME_TT_at c, 25, 6⟩
def HOME_TT_SNP_OUT (c : Nat) : Fld := ⟨HOME_TT_at c, 16, 9⟩
def HOME_TT_CLR_HWM (c : Nat) : Fld := ⟨HOME_TT_at c, 0, 1⟩
/-- Address of HOME_INTAKE, Table 6-14. -/
def HOME_INTAKE_at (c : Nat) : Nat := 0x10040000 + c * 0x100000 + 0x208
def HOME_INTAKE_RING_HWM (c : Nat) : Fld := ⟨HOME_INTAKE_at c, 32, 18⟩
def HOME_INTAKE_RING_USED (c : Nat) : Fld := ⟨HOME_INTAKE_at c, 14, 18⟩
def HOME_INTAKE_SRAM_USED (c : Nat) : Fld := ⟨HOME_INTAKE_at c, 0, 9⟩
/-- Address of HOME_REQS, Table 6-15. -/
def HOME_REQS_at (c : Nat) : Nat := 0x10040000 + c * 0x100000 + 0x300
def HOME_REQS_COUNT (c : Nat) : Fld := ⟨HOME_REQS_at c, 0, 64⟩
/-- Address of HOME_HITS, Table 6-15. -/
def HOME_HITS_at (c : Nat) : Nat := 0x10040000 + c * 0x100000 + 0x308
def HOME_HITS_COUNT (c : Nat) : Fld := ⟨HOME_HITS_at c, 0, 64⟩
/-- Address of HOME_MISSES, Table 6-15. -/
def HOME_MISSES_at (c : Nat) : Nat := 0x10040000 + c * 0x100000 + 0x310
def HOME_MISSES_COUNT (c : Nat) : Fld := ⟨HOME_MISSES_at c, 0, 64⟩
/-- Address of HOME_BISNPS, Table 6-15. -/
def HOME_BISNPS_at (c : Nat) : Nat := 0x10040000 + c * 0x100000 + 0x318
def HOME_BISNPS_COUNT (c : Nat) : Fld := ⟨HOME_BISNPS_at c, 0, 64⟩
/-- Address of HOME_SNP_EXTRA, Table 6-15. -/
def HOME_SNP_EXTRA_at (c : Nat) : Nat := 0x10040000 + c * 0x100000 + 0x320
def HOME_SNP_EXTRA_COUNT (c : Nat) : Fld := ⟨HOME_SNP_EXTRA_at c, 0, 64⟩
/-- Address of HOME_EVICTS, Table 6-15. -/
def HOME_EVICTS_at (c : Nat) : Nat := 0x10040000 + c * 0x100000 + 0x328
def HOME_EVICTS_COUNT (c : Nat) : Fld := ⟨HOME_EVICTS_at c, 0, 64⟩
/-- Address of HOME_LATE, Table 6-15. -/
def HOME_LATE_at (c : Nat) : Nat := 0x10040000 + c * 0x100000 + 0x330
def HOME_LATE_COUNT (c : Nat) : Fld := ⟨HOME_LATE_at c, 0, 64⟩
/-- Address of HOME_PROTO, Table 6-15. -/
def HOME_PROTO_at (c : Nat) : Nat := 0x10040000 + c * 0x100000 + 0x338
def HOME_PROTO_COUNT (c : Nat) : Fld := ⟨HOME_PROTO_at c, 0, 64⟩
/-- Address of HOME_LOST, Table 6-15. -/
def HOME_LOST_at (c : Nat) : Nat := 0x10040000 + c * 0x100000 + 0x340
def HOME_LOST_COUNT (c : Nat) : Fld := ⟨HOME_LOST_at c, 0, 64⟩
/-- Address of HOME_PIN_WAIT, Table 6-15. -/
def HOME_PIN_WAIT_at (c : Nat) : Nat := 0x10040000 + c * 0x100000 + 0x348
def HOME_PIN_WAIT_COUNT (c : Nat) : Fld := ⟨HOME_PIN_WAIT_at c, 0, 64⟩
/-- Address of HOME_REISSUE_ADOPT, Table 6-15. -/
def HOME_REISSUE_ADOPT_at (c : Nat) : Nat := 0x10040000 + c * 0x100000 + 0x350
def HOME_REISSUE_ADOPT_COUNT (c : Nat) : Fld := ⟨HOME_REISSUE_ADOPT_at c, 0, 64⟩
/-- Address of DIR_CACHE_ERR, Table 6-16. -/
def DIR_CACHE_ERR_at (c : Nat) : Nat := 0x10040000 + c * 0x100000 + 0x400
def DIR_CACHE_ERR_UNCORR (c : Nat) : Fld := ⟨DIR_CACHE_ERR_at c, 32, 32⟩
def DIR_CACHE_ERR_CORR (c : Nat) : Fld := ⟨DIR_CACHE_ERR_at c, 0, 32⟩
/-- Address of DIR_SEL, Table 6-16. -/
def DIR_SEL_at (c : Nat) : Nat := 0x10040000 + c * 0x100000 + 0x410
def DIR_SEL_LOOKUP (c : Nat) : Fld := ⟨DIR_SEL_at c, 46, 1⟩
def DIR_SEL_LINE (c : Nat) : Fld := ⟨DIR_SEL_at c, 0, 46⟩
/-- Address of DIR_VIEW0, Table 6-17. -/
def DIR_VIEW0_at (c : Nat) : Nat := 0x10040000 + c * 0x100000 + 0x418
def DIR_VIEW0_ENTRY_LO (c : Nat) : Fld := ⟨DIR_VIEW0_at c, 0, 64⟩
/-- Address of DIR_VIEW1, Table 6-17. -/
def DIR_VIEW1_at (c : Nat) : Nat := 0x10040000 + c * 0x100000 + 0x420
def DIR_VIEW1_ENTRY_HI (c : Nat) : Fld := ⟨DIR_VIEW1_at c, 0, 64⟩
/-- Address of DIR_VIEW2, Table 6-17. -/
def DIR_VIEW2_at (c : Nat) : Nat := 0x10040000 + c * 0x100000 + 0x428
def DIR_VIEW2_VALID (c : Nat) : Fld := ⟨DIR_VIEW2_at c, 63, 1⟩
def DIR_VIEW2_FOUND (c : Nat) : Fld := ⟨DIR_VIEW2_at c, 62, 1⟩
def DIR_VIEW2_CACHED (c : Nat) : Fld := ⟨DIR_VIEW2_at c, 61, 1⟩
def DIR_VIEW2_BLOCKED (c : Nat) : Fld := ⟨DIR_VIEW2_at c, 60, 1⟩
def DIR_VIEW2_HTID (c : Nat) : Fld := ⟨DIR_VIEW2_at c, 50, 10⟩
def DIR_VIEW2_WAY (c : Nat) : Fld := ⟨DIR_VIEW2_at c, 46, 4⟩
def DIR_VIEW2_SET (c : Nat) : Fld := ⟨DIR_VIEW2_at c, 26, 20⟩
def DIR_VIEW2_HOME (c : Nat) : Fld := ⟨DIR_VIEW2_at c, 0, 7⟩
/-- Address of DIR_STACK_STATUS, Table 6-18. -/
def DIR_STACK_STATUS_at (d : Nat) : Nat := 0x1040400 + d * 0x100000
def DIR_STACK_STATUS_PRI_Q (d : Nat) : Fld := ⟨DIR_STACK_STATUS_at d, 8, 2⟩
def DIR_STACK_STATUS_MIR_Q (d : Nat) : Fld := ⟨DIR_STACK_STATUS_at d, 6, 2⟩
def DIR_STACK_STATUS_PRI_STATE (d : Nat) : Fld := ⟨DIR_STACK_STATUS_at d, 3, 3⟩
def DIR_STACK_STATUS_MIR_STATE (d : Nat) : Fld := ⟨DIR_STACK_STATUS_at d, 0, 3⟩
/-- Address of DIR_STACK_ERR, Table 6-19. -/
def DIR_STACK_ERR_at (d : Nat) : Nat := 0x1040400 + d * 0x100000 + 0x8
def DIR_STACK_ERR_MIRROR_READS (d : Nat) : Fld := ⟨DIR_STACK_ERR_at d, 48, 16⟩
def DIR_STACK_ERR_UNCORR (d : Nat) : Fld := ⟨DIR_STACK_ERR_at d, 32, 16⟩
def DIR_STACK_ERR_CORR (d : Nat) : Fld := ⟨DIR_STACK_ERR_at d, 0, 32⟩
/-- Address of DIR_STACK_LAT, Table 6-19. -/
def DIR_STACK_LAT_at (d : Nat) : Nat := 0x1040400 + d * 0x100000 + 0x10
def DIR_STACK_LAT_WR_MAX (d : Nat) : Fld := ⟨DIR_STACK_LAT_at d, 32, 32⟩
def DIR_STACK_LAT_RD_MAX (d : Nat) : Fld := ⟨DIR_STACK_LAT_at d, 0, 32⟩
/-- Address of HOME_PROXY_STATUS, Table 7-10. -/
def HOME_PROXY_STATUS_at (c : Nat) : Nat := 0x10040000 + c * 0x100000 + 0x500
def HOME_PROXY_STATUS_FWD_USE (c : Nat) : Fld := ⟨HOME_PROXY_STATUS_at c, 39, 9⟩
def HOME_PROXY_STATUS_HWM (c : Nat) : Fld := ⟨HOME_PROXY_STATUS_at c, 26, 13⟩
def HOME_PROXY_STATUS_ENTRIES (c : Nat) : Fld := ⟨HOME_PROXY_STATUS_at c, 13, 13⟩
def HOME_PROXY_STATUS_CLR_HWM (c : Nat) : Fld := ⟨HOME_PROXY_STATUS_at c, 0, 1⟩
/-- Address of HOME_PROXY_CFG, Table 7-11. -/
def HOME_PROXY_CFG_at (c : Nat) : Nat := 0x10040000 + c * 0x100000 + 0x508
def HOME_PROXY_CFG_IDLE_DROP (c : Nat) : Fld := ⟨HOME_PROXY_CFG_at c, 0, 16⟩
/-- Address of HOME_PARK, Table 7-12. -/
def HOME_PARK_at (c : Nat) : Nat := 0x10040000 + c * 0x100000 + 0x510
def HOME_PARK_SHARED_USE (c : Nat) : Fld := ⟨HOME_PARK_at c, 26, 6⟩
def HOME_PARK_DAT_USE (c : Nat) : Fld := ⟨HOME_PARK_at c, 21, 5⟩
def HOME_PARK_RSP_USE (c : Nat) : Fld := ⟨HOME_PARK_at c, 16, 5⟩
def HOME_PARK_OVERFLOW (c : Nat) : Fld := ⟨HOME_PARK_at c, 0, 10⟩
/-- Address of HOME_TAKE, Table 7-13. -/
def HOME_TAKE_at (c : Nat) : Nat := 0x10040000 + c * 0x100000 + 0x518
def HOME_TAKE_LAST_US (c : Nat) : Fld := ⟨HOME_TAKE_at c, 48, 16⟩
def HOME_TAKE_ADOPTED (c : Nat) : Fld := ⟨HOME_TAKE_at c, 40, 8⟩
def HOME_TAKE_FROM_CELL (c : Nat) : Fld := ⟨HOME_TAKE_at c, 32, 7⟩
def HOME_TAKE_STATE (c : Nat) : Fld := ⟨HOME_TAKE_at c, 30, 2⟩
def HOME_TAKE_SET_ASIDE (c : Nat) : Fld := ⟨HOME_TAKE_at c, 0, 18⟩
/-- Address of HOME_TWIN, Table 7-14. -/
def HOME_TWIN_at (c : Nat) (n : Nat) : Nat := 0x10040000 + c * 0x100000 + 0x580 + n * 0x8
def HOME_TWIN_VALID (c : Nat) (n : Nat) (j : Nat) : Fld := ⟨HOME_TWIN_at c n, 8 * j + 7, 1⟩
def HOME_TWIN_TWIN (c : Nat) (n : Nat) (j : Nat) : Fld := ⟨HOME_TWIN_at c n, 8 * j, 7⟩
/-- Address of HOME_FWDS, Table 7-15. -/
def HOME_FWDS_at (c : Nat) : Nat := 0x10040000 + c * 0x100000 + 0x600
def HOME_FWDS_COUNT (c : Nat) : Fld := ⟨HOME_FWDS_at c, 0, 64⟩
/-- Address of HOME_PROXY_LOCAL, Table 7-15. -/
def HOME_PROXY_LOCAL_at (c : Nat) : Nat := 0x10040000 + c * 0x100000 + 0x608
def HOME_PROXY_LOCAL_COUNT (c : Nat) : Fld := ⟨HOME_PROXY_LOCAL_at c, 0, 64⟩
/-- Address of HOME_PROXY_FWD, Table 7-15. -/
def HOME_PROXY_FWD_at (c : Nat) : Nat := 0x10040000 + c * 0x100000 + 0x610
def HOME_PROXY_FWD_COUNT (c : Nat) : Fld := ⟨HOME_PROXY_FWD_at c, 0, 64⟩
/-- Address of HOME_PROXY_NOENT, Table 7-15. -/
def HOME_PROXY_NOENT_at (c : Nat) : Nat := 0x10040000 + c * 0x100000 + 0x618
def HOME_PROXY_NOENT_COUNT (c : Nat) : Fld := ⟨HOME_PROXY_NOENT_at c, 0, 64⟩
/-- Address of HOME_PROXY_DROPS, Table 7-15. -/
def HOME_PROXY_DROPS_at (c : Nat) : Nat := 0x10040000 + c * 0x100000 + 0x620
def HOME_PROXY_DROPS_COUNT (c : Nat) : Fld := ⟨HOME_PROXY_DROPS_at c, 0, 64⟩
/-- Address of HOME_INSTALL_SKIP, Table 7-15. -/
def HOME_INSTALL_SKIP_at (c : Nat) : Nat := 0x10040000 + c * 0x100000 + 0x628
def HOME_INSTALL_SKIP_COUNT (c : Nat) : Fld := ⟨HOME_INSTALL_SKIP_at c, 0, 64⟩
/-- Address of HOME_PARKS, Table 7-15. -/
def HOME_PARKS_at (c : Nat) : Nat := 0x10040000 + c * 0x100000 + 0x630
def HOME_PARKS_COUNT (c : Nat) : Fld := ⟨HOME_PARKS_at c, 0, 64⟩
/-- Address of HOME_BIRSP_HOLD, Table 7-15. -/
def HOME_BIRSP_HOLD_at (c : Nat) : Nat := 0x10040000 + c * 0x100000 + 0x638
def HOME_BIRSP_HOLD_COUNT (c : Nat) : Fld := ⟨HOME_BIRSP_HOLD_at c, 0, 64⟩
/-- Address of DIR_REBUILD_CTRL, Table 7-16. -/
def DIR_REBUILD_CTRL_at (d : Nat) : Nat := 0x1040400 + d * 0x100000 + 0x18
def DIR_REBUILD_CTRL_RATE (d : Nat) : Fld := ⟨DIR_REBUILD_CTRL_at d, 0, 8⟩
/-- Address of DIR_REBUILD_STATUS, Table 7-16. -/
def DIR_REBUILD_STATUS_at (d : Nat) : Nat := 0x1040400 + d * 0x100000 + 0x20
def DIR_REBUILD_STATUS_ACTIVE (d : Nat) : Fld := ⟨DIR_REBUILD_STATUS_at d, 63, 1⟩
def DIR_REBUILD_STATUS_QUARTER (d : Nat) : Fld := ⟨DIR_REBUILD_STATUS_at d, 61, 2⟩
def DIR_REBUILD_STATUS_TARGET (d : Nat) : Fld := ⟨DIR_REBUILD_STATUS_at d, 60, 1⟩
def DIR_REBUILD_STATUS_RESULT (d : Nat) : Fld := ⟨DIR_REBUILD_STATUS_at d, 58, 2⟩
def DIR_REBUILD_STATUS_TOTAL (d : Nat) : Fld := ⟨DIR_REBUILD_STATUS_at d, 32, 26⟩
def DIR_REBUILD_STATUS_CURSOR (d : Nat) : Fld := ⟨DIR_REBUILD_STATUS_at d, 0, 32⟩
/-- Address of INST_INFO, Table 8-12. -/
def INST_INFO_at (i : Nat) : Nat := 0x20000000 + i * 0x1000
def INST_INFO_MIGRATING (i : Nat) : Fld := ⟨INST_INFO_at i, 53, 1⟩
def INST_INFO_GROUPED (i : Nat) : Fld := ⟨INST_INFO_at i, 52, 1⟩
def INST_INFO_GROUP (i : Nat) : Fld := ⟨INST_INFO_at i, 40, 12⟩
def INST_INFO_TEMPLATE (i : Nat) : Fld := ⟨INST_INFO_at i, 32, 8⟩
def INST_INFO_STATE (i : Nat) : Fld := ⟨INST_INFO_at i, 28, 4⟩
def INST_INFO_HOST_PORT (i : Nat) : Fld := ⟨INST_INFO_at i, 18, 7⟩
def INST_INFO_VPPB (i : Nat) : Fld := ⟨INST_INFO_at i, 12, 6⟩
def INST_INFO_INST (i : Nat) : Fld := ⟨INST_INFO_at i, 0, 12⟩
/-- Address of INST_CAP, Table 8-13. -/
def INST_CAP_at (i : Nat) : Nat := 0x20000000 + i * 0x1000 + 0x8
def INST_CAP_PENDING_GIB (i : Nat) : Fld := ⟨INST_CAP_at i, 32, 16⟩
def INST_CAP_MIRRORED_GIB (i : Nat) : Fld := ⟨INST_CAP_at i, 16, 16⟩
def INST_CAP_UNMIRRORED_GIB (i : Nat) : Fld := ⟨INST_CAP_at i, 0, 16⟩
/-- Address of INST_EVENT, Table 8-13. -/
def INST_EVENT_at (i : Nat) : Nat := 0x20000000 + i * 0x1000 + 0x18
def INST_EVENT_CODE (i : Nat) : Fld := ⟨INST_EVENT_at i, 48, 8⟩
def INST_EVENT_TIME (i : Nat) : Fld := ⟨INST_EVENT_at i, 0, 48⟩
/-- Address of INST_COPY_SRC, Table 8-14. -/
def INST_COPY_SRC_at (i : Nat) : Nat := 0x20000000 + i * 0x1000 + 0x100
def INST_COPY_SRC_SRC_DPA (i : Nat) : Fld := ⟨INST_COPY_SRC_at i, 0, 64⟩
/-- Address of INST_COPY_DST, Table 8-14. -/
def INST_COPY_DST_at (i : Nat) : Nat := 0x20000000 + i * 0x1000 + 0x108
def INST_COPY_DST_DST_DPA (i : Nat) : Fld := ⟨INST_COPY_DST_at i, 0, 64⟩
/-- Address of INST_COPY_CTRL, Table 8-14. -/
def INST_COPY_CTRL_at (i : Nat) : Nat := 0x20000000 + i * 0x1000 + 0x110
def INST_COPY_CTRL_LEN_4K (i : Nat) : Fld := ⟨INST_COPY_CTRL_at i, 16, 14⟩
def INST_COPY_CTRL_REFUSED (i : Nat) : Fld := ⟨INST_COPY_CTRL_at i, 2, 1⟩
def INST_COPY_CTRL_BUSY (i : Nat) : Fld := ⟨INST_COPY_CTRL_at i, 1, 1⟩
def INST_COPY_CTRL_GO (i : Nat) : Fld := ⟨INST_COPY_CTRL_at i, 0, 1⟩
/-- Address of INST_COPY_STATUS, Table 8-14. -/
def INST_COPY_STATUS_at (i : Nat) : Nat := 0x20000000 + i * 0x1000 + 0x118
def INST_COPY_STATUS_PART (i : Nat) (p : Nat) : Fld := ⟨INST_COPY_STATUS_at i, 4 * p, 4⟩
/-- Address of INST_BIND, Table 8-15. -/
def INST_BIND_at (i : Nat) : Nat := 0x20000000 + i * 0x1000 + 0x800
def INST_BIND_PORT (i : Nat) : Fld := ⟨INST_BIND_at i, 29, 7⟩
def INST_BIND_VPPB (i : Nat) : Fld := ⟨INST_BIND_at i, 23, 6⟩
def INST_BIND_MODE (i : Nat) : Fld := ⟨INST_BIND_at i, 18, 2⟩
def INST_BIND_OP (i : Nat) : Fld := ⟨INST_BIND_at i, 16, 2⟩
def INST_BIND_REFUSED (i : Nat) : Fld := ⟨INST_BIND_at i, 2, 1⟩
def INST_BIND_BUSY (i : Nat) : Fld := ⟨INST_BIND_at i, 1, 1⟩
def INST_BIND_GO (i : Nat) : Fld := ⟨INST_BIND_at i, 0, 1⟩
/-- Address of INST_SHARE0, Table 8-16. -/
def INST_SHARE0_at (i : Nat) : Nat := 0x20000000 + i * 0x1000 + 0x808
def INST_SHARE0_HOLD_MAX (i : Nat) : Fld := ⟨INST_SHARE0_at i, 32, 11⟩
def INST_SHARE0_SLOT_MAX (i : Nat) : Fld := ⟨INST_SHARE0_at i, 16, 10⟩
def INST_SHARE0_SLOT_MIN (i : Nat) : Fld := ⟨INST_SHARE0_at i, 0, 10⟩
/-- Address of INST_SHARE1, Table 8-16. -/
def INST_SHARE1_at (i : Nat) : Nat := 0x20000000 + i * 0x1000 + 0x810
def INST_SHARE1_BW_MIN (i : Nat) : Fld := ⟨INST_SHARE1_at i, 32, 12⟩
def INST_SHARE1_BW_MAX (i : Nat) : Fld := ⟨INST_SHARE1_at i, 0, 12⟩
/-- Address of INST_USE, Table 8-16. -/
def INST_USE_at (i : Nat) : Nat := 0x20000000 + i * 0x1000 + 0x818
def INST_USE_HELD (i : Nat) : Fld := ⟨INST_USE_at i, 32, 11⟩
def INST_USE_SLOTS (i : Nat) : Fld := ⟨INST_USE_at i, 16, 10⟩
def INST_USE_CLOSED (i : Nat) : Fld := ⟨INST_USE_at i, 0, 1⟩
/-- Address of INST_MIG, Table 8-17. -/
def INST_MIG_at (i : Nat) : Nat := 0x20000000 + i * 0x1000 + 0x820
def INST_MIG_T_MODULE (i : Nat) : Fld := ⟨INST_MIG_at i, 43, 5⟩
def INST_MIG_T_PORT (i : Nat) : Fld := ⟨INST_MIG_at i, 36, 7⟩
def INST_MIG_T_VPPB (i : Nat) : Fld := ⟨INST_MIG_at i, 30, 6⟩
def INST_MIG_MODE (i : Nat) : Fld := ⟨INST_MIG_at i, 16, 2⟩
def INST_MIG_OP (i : Nat) : Fld := ⟨INST_MIG_at i, 12, 3⟩
def INST_MIG_REFUSED (i : Nat) : Fld := ⟨INST_MIG_at i, 2, 1⟩
def INST_MIG_BUSY (i : Nat) : Fld := ⟨INST_MIG_at i, 1, 1⟩
def INST_MIG_GO (i : Nat) : Fld := ⟨INST_MIG_at i, 0, 1⟩
/-- Address of INST_MIG_STATUS, Table 8-17. -/
def INST_MIG_STATUS_at (i : Nat) : Nat := 0x20000000 + i * 0x1000 + 0x828
def INST_MIG_STATUS_RECALL_LEFT_GIB (i : Nat) : Fld := ⟨INST_MIG_STATUS_at i, 48, 16⟩
def INST_MIG_STATUS_DOWNTIME_US (i : Nat) : Fld := ⟨INST_MIG_STATUS_at i, 32, 16⟩
def INST_MIG_STATUS_STRAY (i : Nat) : Fld := ⟨INST_MIG_STATUS_at i, 24, 8⟩
def INST_MIG_STATUS_STEP (i : Nat) : Fld := ⟨INST_MIG_STATUS_at i, 20, 4⟩
def INST_MIG_STATUS_RESULT (i : Nat) : Fld := ⟨INST_MIG_STATUS_at i, 16, 4⟩
/-- Address of INST_PORT_STATUS, Table 8-18. -/
def INST_PORT_STATUS_at (c : Nat) : Nat := 0x10080000 + c * 0x100000
def INST_PORT_STATUS_HOLD_USED (c : Nat) : Fld := ⟨INST_PORT_STATUS_at c, 32, 11⟩
def INST_PORT_STATUS_BOUND (c : Nat) : Fld := ⟨INST_PORT_STATUS_at c, 16, 7⟩
def INST_PORT_STATUS_CREDIT_CLOSED (c : Nat) : Fld := ⟨INST_PORT_STATUS_at c, 0, 1⟩
/-- Address of INST_PORT_CFG, Table 8-18. -/
def INST_PORT_CFG_at (c : Nat) : Nat := 0x10080000 + c * 0x100000 + 0x8
def INST_PORT_CFG_FREEZE_LIMIT (c : Nat) : Fld := ⟨INST_PORT_CFG_at c, 0, 16⟩
/-- Address of INST_VPPB, Table 8-19. -/
def INST_VPPB_at (c : Nat) (v : Nat) : Nat := 0x10080000 + c * 0x100000 + 0x100 + v * 0x8
def INST_VPPB_KIND (c : Nat) (v : Nat) : Fld := ⟨INST_VPPB_at c v, 62, 2⟩
def INST_VPPB_STATE (c : Nat) (v : Nat) : Fld := ⟨INST_VPPB_at c v, 60, 2⟩
def INST_VPPB_TARGET (c : Nat) (v : Nat) : Fld := ⟨INST_VPPB_at c v, 0, 12⟩
/-- Address of INST_EXT_SEL, Table 8-20. -/
def INST_EXT_SEL_at (c : Nat) : Nat := 0x10080000 + c * 0x100000 + 0x400
def INST_EXT_SEL_EXT (c : Nat) : Fld := ⟨INST_EXT_SEL_at c, 0, 16⟩
/-- Address of INST_EXT_VIEW, Table 8-20. -/
def INST_EXT_VIEW_at (c : Nat) : Nat := 0x10080000 + c * 0x100000 + 0x408
def INST_EXT_VIEW_HOME_ENTRY (c : Nat) : Fld := ⟨INST_EXT_VIEW_at c, 32, 32⟩
def INST_EXT_VIEW_DEV_HI (c : Nat) : Fld := ⟨INST_EXT_VIEW_at c, 17, 15⟩
def INST_EXT_VIEW_LIFE (c : Nat) : Fld := ⟨INST_EXT_VIEW_at c, 15, 2⟩
def INST_EXT_VIEW_DEV_EXT (c : Nat) : Fld := ⟨INST_EXT_VIEW_at c, 0, 12⟩
/-- Address of INST_MEM_ERR, Table 8-20. -/
def INST_MEM_ERR_at (c : Nat) : Nat := 0x10080000 + c * 0x100000 + 0x410
def INST_MEM_ERR_NOKEY (c : Nat) : Fld := ⟨INST_MEM_ERR_at c, 32, 16⟩
def INST_MEM_ERR_MIRROR_READS (c : Nat) : Fld := ⟨INST_MEM_ERR_at c, 16, 16⟩
def INST_MEM_ERR_LOST_ACC (c : Nat) : Fld := ⟨INST_MEM_ERR_at c, 0, 16⟩
/-- Address of INST_ENG_STATUS, Table 8-21. -/
def INST_ENG_STATUS_at (d : Nat) : Nat := 0x1050000 + d * 0x100000
def INST_ENG_STATUS_RECALL_OPEN (d : Nat) : Fld := ⟨INST_ENG_STATUS_at d, 48, 12⟩
def INST_ENG_STATUS_PRESS_OPEN (d : Nat) : Fld := ⟨INST_ENG_STATUS_at d, 24, 12⟩
def INST_ENG_STATUS_BRINE_EXT (d : Nat) : Fld := ⟨INST_ENG_STATUS_at d, 16, 8⟩
def INST_ENG_STATUS_PRESS_ACTIVE (d : Nat) : Fld := ⟨INST_ENG_STATUS_at d, 0, 16⟩
/-- Address of INST_ENG_CFG, Table 8-21. -/
def INST_ENG_CFG_at (d : Nat) : Nat := 0x1050000 + d * 0x100000 + 0x8
def INST_ENG_CFG_BRINE_RATE (d : Nat) : Fld := ⟨INST_ENG_CFG_at d, 8, 8⟩
def INST_ENG_CFG_RATE (d : Nat) : Fld := ⟨INST_ENG_CFG_at d, 0, 8⟩
/-- Address of INST_PRESS_OP, Table 8-22. -/
def INST_PRESS_OP_at (d : Nat) : Nat := 0x1050000 + d * 0x100000 + 0x10
def INST_PRESS_OP_PART_EN (d : Nat) : Fld := ⟨INST_PRESS_OP_at d, 16, 16⟩
def INST_PRESS_OP_ABORT (d : Nat) : Fld := ⟨INST_PRESS_OP_at d, 3, 1⟩
def INST_PRESS_OP_REFUSED (d : Nat) : Fld := ⟨INST_PRESS_OP_at d, 2, 1⟩
def INST_PRESS_OP_BUSY (d : Nat) : Fld := ⟨INST_PRESS_OP_at d, 1, 1⟩
def INST_PRESS_OP_GO (d : Nat) : Fld := ⟨INST_PRESS_OP_at d, 0, 1⟩
/-- Address of INST_PRESS_STATUS, Table 8-22. -/
def INST_PRESS_STATUS_at (d : Nat) : Nat := 0x1050000 + d * 0x100000 + 0x18
def INST_PRESS_STATUS_PART (d : Nat) (p : Nat) : Fld := ⟨INST_PRESS_STATUS_at d, 4 * p, 4⟩
/-- Address of INST_PRESS_PART, Table 8-22. -/
def INST_PRESS_PART_at (d : Nat) (p : Nat) : Nat := 0x1050000 + d * 0x100000 + 0x100 + p * 0x8
def INST_PRESS_PART_EXT (d : Nat) (p : Nat) : Fld := ⟨INST_PRESS_PART_at d p, 48, 16⟩
def INST_PRESS_PART_SIDE (d : Nat) (p : Nat) : Fld := ⟨INST_PRESS_PART_at d p, 40, 1⟩
def INST_PRESS_PART_DEST_PORT (d : Nat) (p : Nat) : Fld := ⟨INST_PRESS_PART_at d p, 25, 7⟩
def INST_PRESS_PART_DEST_EXT (d : Nat) (p : Nat) : Fld := ⟨INST_PRESS_PART_at d p, 0, 12⟩
/-- Address of PROT_STATUS, Table 9-11. -/
def PROT_STATUS_at (c : Nat) : Nat := 0x10050000 + c * 0x100000
def PROT_STATUS_ENTRIES (c : Nat) : Fld := ⟨PROT_STATUS_at c, 32, 11⟩
def PROT_STATUS_PAUSED (c : Nat) : Fld := ⟨PROT_STATUS_at c, 16, 7⟩
def PROT_STATUS_BARRIER (c : Nat) : Fld := ⟨PROT_STATUS_at c, 0, 2⟩
/-- Address of PROT_CFG, Table 9-11. -/
def PROT_CFG_at (c : Nat) : Nat := 0x10050000 + c * 0x100000 + 0x8
def PROT_CFG_DEV_PRIV (c : Nat) : Fld := ⟨PROT_CFG_at c, 16, 1⟩
def PROT_CFG_BARRIER_LIMIT (c : Nat) : Fld := ⟨PROT_CFG_at c, 0, 16⟩
/-- Address of PROT_COMMIT_ERR, Table 9-12. -/
def PROT_COMMIT_ERR_at (c : Nat) : Nat := 0x10050000 + c * 0x100000 + 0x10
def PROT_COMMIT_ERR_REASON (c : Nat) : Fld := ⟨PROT_COMMIT_ERR_at c, 56, 8⟩
def PROT_COMMIT_ERR_ENTRY_B (c : Nat) : Fld := ⟨PROT_COMMIT_ERR_at c, 40, 10⟩
def PROT_COMMIT_ERR_ENTRY_A (c : Nat) : Fld := ⟨PROT_COMMIT_ERR_at c, 24, 10⟩
def PROT_COMMIT_ERR_CELL_B (c : Nat) : Fld := ⟨PROT_COMMIT_ERR_at c, 16, 7⟩
def PROT_COMMIT_ERR_REFUSED (c : Nat) : Fld := ⟨PROT_COMMIT_ERR_at c, 0, 1⟩
/-- Address of PROT_VIOL_CNT, Table 9-13. -/
def PROT_VIOL_CNT_at (c : Nat) : Nat := 0x10050000 + c * 0x100000 + 0x18
def PROT_VIOL_CNT_DROPPED (c : Nat) : Fld := ⟨PROT_VIOL_CNT_at c, 32, 32⟩
def PROT_VIOL_CNT_TOTAL (c : Nat) : Fld := ⟨PROT_VIOL_CNT_at c, 0, 32⟩
/-- Address of PROT_VLOG_PTR, Table 9-13. -/
def PROT_VLOG_PTR_at (c : Nat) : Nat := 0x10050000 + c * 0x100000 + 0x20
def PROT_VLOG_PTR_WR_IDX (c : Nat) : Fld := ⟨PROT_VLOG_PTR_at c, 8, 6⟩
def PROT_VLOG_PTR_RD_IDX (c : Nat) : Fld := ⟨PROT_VLOG_PTR_at c, 0, 6⟩
/-- Address of PROT_VLOG, Table 9-14. -/
def PROT_VLOG_at (c : Nat) (n w : Nat) : Nat := 0x10050000 + c * 0x100000 + 0x1000 + n * 0x20 + w * 0x8
def PROT_VLOG_REC (c : Nat) (n w : Nat) : Fld := ⟨PROT_VLOG_at c n w, 0, 64⟩
/-- Address of PROT_REGION, Table 9-15. -/
def PROT_REGION_at (c : Nat) (n w : Nat) : Nat := 0x10050000 + c * 0x100000 + 0x4000 + n * 0x20 + w * 0x8
def PROT_REGION_WORD (c : Nat) (n w : Nat) : Fld := ⟨PROT_REGION_at c n w, 0, 64⟩
/-- Address of SEC_STATUS, Table 9-16. -/
def SEC_STATUS_at : Nat := 0x400000
def SEC_STATUS_SLOTS_ACTIVE : Fld := ⟨SEC_STATUS_at, 32, 14⟩
def SEC_STATUS_ROTATING : Fld := ⟨SEC_STATUS_at, 16, 7⟩
def SEC_STATUS_DRBG_FAIL : Fld := ⟨SEC_STATUS_at, 2, 1⟩
def SEC_STATUS_ENTROPY_FAIL : Fld := ⟨SEC_STATUS_at, 1, 1⟩
def SEC_STATUS_READY : Fld := ⟨SEC_STATUS_at, 0, 1⟩
/-- Address of SEC_CFG, Table 9-16. -/
def SEC_CFG_at : Nat := 0x400008
def SEC_CFG_REKEY_RATE : Fld := ⟨SEC_CFG_at, 32, 8⟩
def SEC_CFG_ROT_PERIOD : Fld := ⟨SEC_CFG_at, 0, 16⟩
/-- Address of SEC_SLOT_SEL, Table 9-17. -/
def SEC_SLOT_SEL_at : Nat := 0x400010
def SEC_SLOT_SEL_SLOT : Fld := ⟨SEC_SLOT_SEL_at, 0, 13⟩
/-- Address of SEC_SLOT_VIEW, Table 9-17. -/
def SEC_SLOT_VIEW_at : Nat := 0x400018
def SEC_SLOT_VIEW_STATE : Fld := ⟨SEC_SLOT_VIEW_at, 61, 3⟩
def SEC_SLOT_VIEW_GROUP : Fld := ⟨SEC_SLOT_VIEW_at, 60, 1⟩
def SEC_SLOT_VIEW_OWNER : Fld := ⟨SEC_SLOT_VIEW_at, 48, 12⟩
def SEC_SLOT_VIEW_AGE_H : Fld := ⟨SEC_SLOT_VIEW_at, 0, 32⟩
/-- Address of SEC_ROTATE, Table 9-18. -/
def SEC_ROTATE_at : Nat := 0x400020
def SEC_ROTATE_GROUP : Fld := ⟨SEC_ROTATE_at, 28, 1⟩
def SEC_ROTATE_OWNER : Fld := ⟨SEC_ROTATE_at, 16, 12⟩
def SEC_ROTATE_REFUSED : Fld := ⟨SEC_ROTATE_at, 2, 1⟩
def SEC_ROTATE_BUSY : Fld := ⟨SEC_ROTATE_at, 1, 1⟩
def SEC_ROTATE_GO : Fld := ⟨SEC_ROTATE_at, 0, 1⟩
/-- Address of SEC_ROT_STATUS, Table 9-18. -/
def SEC_ROT_STATUS_at : Nat := 0x400028
def SEC_ROT_STATUS_EXT_LEFT : Fld := ⟨SEC_ROT_STATUS_at, 48, 16⟩
def SEC_ROT_STATUS_OLD_SLOT : Fld := ⟨SEC_ROT_STATUS_at, 35, 13⟩
def SEC_ROT_STATUS_NEW_SLOT : Fld := ⟨SEC_ROT_STATUS_at, 22, 13⟩
def SEC_ROT_STATUS_RESULT : Fld := ⟨SEC_ROT_STATUS_at, 20, 2⟩
/-- Address of SEC_KEY_CNT, Table 9-18. -/
def SEC_KEY_CNT_at : Nat := 0x400030
def SEC_KEY_CNT_ZEROIZED : Fld := ⟨SEC_KEY_CNT_at, 32, 32⟩
def SEC_KEY_CNT_GENERATED : Fld := ⟨SEC_KEY_CNT_at, 0, 32⟩
/-- Address of SEC_IDE, Table 9-19. -/
def SEC_IDE_at (p : Nat) : Nat := 0x400400 + p * 0x8
def SEC_IDE_FAILS (p : Nat) : Fld := ⟨SEC_IDE_at p, 32, 32⟩
def SEC_IDE_KEY_SETS (p : Nat) : Fld := ⟨SEC_IDE_at p, 16, 16⟩
def SEC_IDE_STATE (p : Nat) : Fld := ⟨SEC_IDE_at p, 0, 2⟩
/-- Address of LANE_PORT_STATUS, Table 10-7. -/
def LANE_PORT_STATUS_at (c : Nat) : Nat := 0x10000000 + c * 0x100000
def LANE_PORT_STATUS_LANES_FAULTY (c : Nat) : Fld := ⟨LANE_PORT_STATUS_at c, 48, 16⟩
def LANE_PORT_STATUS_LANES_USED (c : Nat) : Fld := ⟨LANE_PORT_STATUS_at c, 32, 16⟩
def LANE_PORT_STATUS_WIDTH (c : Nat) : Fld := ⟨LANE_PORT_STATUS_at c, 24, 5⟩
def LANE_PORT_STATUS_RATE (c : Nat) : Fld := ⟨LANE_PORT_STATUS_at c, 16, 4⟩
def LANE_PORT_STATUS_PROTO (c : Nat) : Fld := ⟨LANE_PORT_STATUS_at c, 12, 4⟩
def LANE_PORT_STATUS_REF_LOST (c : Nat) : Fld := ⟨LANE_PORT_STATUS_at c, 11, 1⟩
def LANE_PORT_STATUS_REF_SRC (c : Nat) : Fld := ⟨LANE_PORT_STATUS_at c, 10, 1⟩
def LANE_PORT_STATUS_STATE (c : Nat) : Fld := ⟨LANE_PORT_STATUS_at c, 4, 3⟩
def LANE_PORT_STATUS_REVERSED (c : Nat) : Fld := ⟨LANE_PORT_STATUS_at c, 3, 1⟩
/-- Address of LANE_PORT_CFG, Table 10-8. -/
def LANE_PORT_CFG_at (c : Nat) : Nat := 0x10000000 + c * 0x100000 + 0x8
def LANE_PORT_CFG_FAULT_THRESH (c : Nat) : Fld := ⟨LANE_PORT_CFG_at c, 40, 8⟩
def LANE_PORT_CFG_FAULT_WIN_US (c : Nat) : Fld := ⟨LANE_PORT_CFG_at c, 32, 8⟩
def LANE_PORT_CFG_REDUCE_EN (c : Nat) : Fld := ⟨LANE_PORT_CFG_at c, 16, 1⟩
def LANE_PORT_CFG_MAX_RATE (c : Nat) : Fld := ⟨LANE_PORT_CFG_at c, 8, 4⟩
def LANE_PORT_CFG_MAX_WIDTH (c : Nat) : Fld := ⟨LANE_PORT_CFG_at c, 0, 5⟩
/-- Address of LANE_PORT_CTRL, Table 10-9. -/
def LANE_PORT_CTRL_at (c : Nat) : Nat := 0x10000000 + c * 0x100000 + 0x10
def LANE_PORT_CTRL_TEST_RATE (c : Nat) : Fld := ⟨LANE_PORT_CTRL_at c, 8, 4⟩
def LANE_PORT_CTRL_BUSY (c : Nat) : Fld := ⟨LANE_PORT_CTRL_at c, 4, 1⟩
def LANE_PORT_CTRL_TEST_REFUSED (c : Nat) : Fld := ⟨LANE_PORT_CTRL_at c, 3, 1⟩
def LANE_PORT_CTRL_WIDTH_RESTORE (c : Nat) : Fld := ⟨LANE_PORT_CTRL_at c, 2, 1⟩
def LANE_PORT_CTRL_TEST_EXIT (c : Nat) : Fld := ⟨LANE_PORT_CTRL_at c, 1, 1⟩
def LANE_PORT_CTRL_TEST_ENTER (c : Nat) : Fld := ⟨LANE_PORT_CTRL_at c, 0, 1⟩
/-- Address of LANE_PORT_EVT, Table 10-10. -/
def LANE_PORT_EVT_at (c : Nat) : Nat := 0x10000000 + c * 0x100000 + 0x18
def LANE_PORT_EVT_REDUCTIONS (c : Nat) : Fld := ⟨LANE_PORT_EVT_at c, 48, 16⟩
def LANE_PORT_EVT_RECOVERIES (c : Nat) : Fld := ⟨LANE_PORT_EVT_at c, 32, 16⟩
def LANE_PORT_EVT_LINK_DOWNS (c : Nat) : Fld := ⟨LANE_PORT_EVT_at c, 16, 16⟩
def LANE_PORT_EVT_LAST_REDUCE_US (c : Nat) : Fld := ⟨LANE_PORT_EVT_at c, 0, 16⟩
/-- Address of LANE_STATUS, Table 10-11. -/
def LANE_STATUS_at (l : Nat) : Nat := 0x10000100 + l / 4 * 0x100000 + l % 4 * 0x80
def LANE_STATUS_FAULTY (l : Nat) : Fld := ⟨LANE_STATUS_at l, 7, 1⟩
def LANE_STATUS_USED (l : Nat) : Fld := ⟨LANE_STATUS_at l, 6, 1⟩
def LANE_STATUS_POL_INV (l : Nat) : Fld := ⟨LANE_STATUS_at l, 5, 1⟩
def LANE_STATUS_CDR_LOCK (l : Nat) : Fld := ⟨LANE_STATUS_at l, 4, 1⟩
def LANE_STATUS_SIG_DET (l : Nat) : Fld := ⟨LANE_STATUS_at l, 3, 1⟩
def LANE_STATUS_PWR (l : Nat) : Fld := ⟨LANE_STATUS_at l, 0, 3⟩
/-- Address of LANE_TXEQ, Table 10-11. -/
def LANE_TXEQ_at (l : Nat) : Nat := 0x10000100 + l / 4 * 0x100000 + l % 4 * 0x80 + 0x8
def LANE_TXEQ_PRESET (l : Nat) : Fld := ⟨LANE_TXEQ_at l, 36, 4⟩
def LANE_TXEQ_C_M2 (l : Nat) : Fld := ⟨LANE_TXEQ_at l, 28, 7⟩
def LANE_TXEQ_C_M1 (l : Nat) : Fld := ⟨LANE_TXEQ_at l, 21, 7⟩
def LANE_TXEQ_C_0 (l : Nat) : Fld := ⟨LANE_TXEQ_at l, 14, 7⟩
def LANE_TXEQ_C_P1 (l : Nat) : Fld := ⟨LANE_TXEQ_at l, 7, 7⟩
def LANE_TXEQ_C_P2 (l : Nat) : Fld := ⟨LANE_TXEQ_at l, 0, 7⟩
/-- Address of LANE_RXEQ, Table 10-12. -/
def LANE_RXEQ_at (l : Nat) : Nat := 0x10000100 + l / 4 * 0x100000 + l % 4 * 0x80 + 0x10
def LANE_RXEQ_EYE_H (l : Nat) : Fld := ⟨LANE_RXEQ_at l, 48, 16⟩
def LANE_RXEQ_EYE_W (l : Nat) : Fld := ⟨LANE_RXEQ_at l, 40, 8⟩
def LANE_RXEQ_CTLE (l : Nat) : Fld := ⟨LANE_RXEQ_at l, 32, 8⟩
/-- Address of LANE_ERR, Table 10-12. -/
def LANE_ERR_at (l : Nat) : Nat := 0x10000100 + l / 4 * 0x100000 + l % 4 * 0x80 + 0x18
def LANE_ERR_ERRORS (l : Nat) : Fld := ⟨LANE_ERR_at l, 32, 32⟩
def LANE_ERR_WINDOWS_HIT (l : Nat) : Fld := ⟨LANE_ERR_at l, 16, 16⟩
def LANE_ERR_CDR_LOSS (l : Nat) : Fld := ⟨LANE_ERR_at l, 0, 16⟩
/-- Address of LANE_TEST, Table 10-13. -/
def LANE_TEST_at (l : Nat) : Nat := 0x10000100 + l / 4 * 0x100000 + l % 4 * 0x80 + 0x20
def LANE_TEST_INJ_EXP (l : Nat) : Fld := ⟨LANE_TEST_at l, 28, 4⟩
def LANE_TEST_INJ_RATE (l : Nat) : Fld := ⟨LANE_TEST_at l, 27, 1⟩
def LANE_TEST_INJ_ONE (l : Nat) : Fld := ⟨LANE_TEST_at l, 26, 1⟩
def LANE_TEST_LOOP (l : Nat) : Fld := ⟨LANE_TEST_at l, 20, 4⟩
def LANE_TEST_CHK_PAT (l : Nat) : Fld := ⟨LANE_TEST_at l, 12, 4⟩
def LANE_TEST_CHK_EN (l : Nat) : Fld := ⟨LANE_TEST_at l, 11, 1⟩
def LANE_TEST_GEN_PAT (l : Nat) : Fld := ⟨LANE_TEST_at l, 4, 4⟩
def LANE_TEST_GEN_EN (l : Nat) : Fld := ⟨LANE_TEST_at l, 3, 1⟩
/-- Address of LANE_PRBS_STAT, Table 10-14. -/
def LANE_PRBS_STAT_at (l : Nat) : Nat := 0x10000100 + l / 4 * 0x100000 + l % 4 * 0x80 + 0x28
def LANE_PRBS_STAT_LOCKED (l : Nat) : Fld := ⟨LANE_PRBS_STAT_at l, 63, 1⟩
def LANE_PRBS_STAT_LOCK_LOSS (l : Nat) : Fld := ⟨LANE_PRBS_STAT_at l, 48, 15⟩
def LANE_PRBS_STAT_BIT_ERR (l : Nat) : Fld := ⟨LANE_PRBS_STAT_at l, 0, 48⟩
/-- Address of LANE_PRBS_BITS, Table 10-14. -/
def LANE_PRBS_BITS_at (l : Nat) : Nat := 0x10000100 + l / 4 * 0x100000 + l % 4 * 0x80 + 0x30
def LANE_PRBS_BITS_BITS (l : Nat) : Fld := ⟨LANE_PRBS_BITS_at l, 0, 64⟩
/-- Address of LANE_M_CTRL, Table 10-15. -/
def LANE_M_CTRL_at : Nat := 0x200800
def LANE_M_CTRL_WIDTH : Fld := ⟨LANE_M_CTRL_at, 2, 2⟩
def LANE_M_CTRL_LOOP : Fld := ⟨LANE_M_CTRL_at, 1, 1⟩
/-- Address of LANE_M_STATUS, Table 10-15. -/
def LANE_M_STATUS_at : Nat := 0x200808
def LANE_M_STATUS_RX_WIDTH : Fld := ⟨LANE_M_STATUS_at, 4, 2⟩
def LANE_M_STATUS_TX_WIDTH : Fld := ⟨LANE_M_STATUS_at, 2, 2⟩
def LANE_M_STATUS_SYNC1 : Fld := ⟨LANE_M_STATUS_at, 1, 1⟩
def LANE_M_STATUS_SYNC0 : Fld := ⟨LANE_M_STATUS_at, 0, 1⟩
/-- Address of LANE_M_ERR, Table 10-16. -/
def LANE_M_ERR_at (m : Nat) : Nat := 0x200840 + m * 0x8
def LANE_M_ERR_CODE_VIOL (m : Nat) : Fld := ⟨LANE_M_ERR_at m, 48, 16⟩
def LANE_M_ERR_DISP_ERR (m : Nat) : Fld := ⟨LANE_M_ERR_at m, 32, 16⟩
def LANE_M_ERR_SYNC_LOSS (m : Nat) : Fld := ⟨LANE_M_ERR_at m, 16, 16⟩
def LANE_M_ERR_CC_ADJ (m : Nat) : Fld := ⟨LANE_M_ERR_at m, 0, 16⟩
/-- Address of LANE_M_FRAMES, Table 10-16. -/
def LANE_M_FRAMES_at : Nat := 0x200850
def LANE_M_FRAMES_ABORTED : Fld := ⟨LANE_M_FRAMES_at, 32, 32⟩
def LANE_M_FRAMES_RECEIVED : Fld := ⟨LANE_M_FRAMES_at, 0, 32⟩
/-- Address of ONL_STATUS, Table 11-11. -/
def ONL_STATUS_at (c : Nat) : Nat := 0x10070000 + c * 0x100000
def ONL_STATUS_NBR_ADDR (c : Nat) : Fld := ⟨ONL_STATUS_at c, 54, 5⟩
def ONL_STATUS_NBR_MEMBER (c : Nat) : Fld := ⟨ONL_STATUS_at c, 51, 3⟩
def ONL_STATUS_NBR_PORT (c : Nat) : Fld := ⟨ONL_STATUS_at c, 44, 7⟩
def ONL_STATUS_TRAIN_STATE (c : Nat) : Fld := ⟨ONL_STATUS_at c, 36, 3⟩
def ONL_STATUS_LINK_STATE (c : Nat) : Fld := ⟨ONL_STATUS_at c, 31, 3⟩
def ONL_STATUS_BREAK_CAUSE (c : Nat) : Fld := ⟨ONL_STATUS_at c, 0, 3⟩
/-- Address of ONL_CFG, Table 11-12. -/
def ONL_CFG_at (c : Nat) : Nat := 0x10070000 + c * 0x100000 + 0x8
def ONL_CFG_PAIR_PORT (c : Nat) : Fld := ⟨ONL_CFG_at c, 16, 7⟩
def ONL_CFG_NBR_EXPECT (c : Nat) : Fld := ⟨ONL_CFG_at c, 8, 5⟩
def ONL_CFG_TRAIN_RETRIES (c : Nat) : Fld := ⟨ONL_CFG_at c, 4, 4⟩
def ONL_CFG_DATELINE (c : Nat) : Fld := ⟨ONL_CFG_at c, 2, 1⟩
def ONL_CFG_PRIMARY (c : Nat) : Fld := ⟨ONL_CFG_at c, 1, 1⟩
/-- Address of ONL_CTRL, Table 11-12. -/
def ONL_CTRL_at (c : Nat) : Nat := 0x10070000 + c * 0x100000 + 0x10
def ONL_CTRL_BUSY (c : Nat) : Fld := ⟨ONL_CTRL_at c, 2, 1⟩
def ONL_CTRL_REFUSED (c : Nat) : Fld := ⟨ONL_CTRL_at c, 1, 1⟩
def ONL_CTRL_RETRAIN (c : Nat) : Fld := ⟨ONL_CTRL_at c, 0, 1⟩
/-- Address of ONL_SEQ, Table 11-13. -/
def ONL_SEQ_at (c : Nat) : Nat := 0x10070000 + c * 0x100000 + 0x18
def ONL_SEQ_TX_NEXT (c : Nat) : Fld := ⟨ONL_SEQ_at c, 48, 12⟩
def ONL_SEQ_TX_ACKED (c : Nat) : Fld := ⟨ONL_SEQ_at c, 32, 12⟩
def ONL_SEQ_RX_EXPECT (c : Nat) : Fld := ⟨ONL_SEQ_at c, 16, 12⟩
def ONL_SEQ_UNACKED (c : Nat) : Fld := ⟨ONL_SEQ_at c, 0, 12⟩
/-- Address of ONL_ERR, Table 11-13. -/
def ONL_ERR_at (c : Nat) : Nat := 0x10070000 + c * 0x100000 + 0x20
def ONL_ERR_FEC_UNCORR (c : Nat) : Fld := ⟨ONL_ERR_at c, 48, 16⟩
def ONL_ERR_CHECK_FAIL (c : Nat) : Fld := ⟨ONL_ERR_at c, 32, 16⟩
def ONL_ERR_NAKS_SENT (c : Nat) : Fld := ⟨ONL_ERR_at c, 16, 16⟩
def ONL_ERR_REPLAYS (c : Nat) : Fld := ⟨ONL_ERR_at c, 0, 16⟩
/-- Address of ONL_TRAIN, Table 11-14. -/
def ONL_TRAIN_at (c : Nat) : Nat := 0x10070000 + c * 0x100000 + 0x28
def ONL_TRAIN_LAST_US (c : Nat) : Fld := ⟨ONL_TRAIN_at c, 40, 24⟩
def ONL_TRAIN_EQ_REQS (c : Nat) : Fld := ⟨ONL_TRAIN_at c, 28, 12⟩
def ONL_TRAIN_START_PRESET (c : Nat) : Fld := ⟨ONL_TRAIN_at c, 24, 4⟩
def ONL_TRAIN_FAILS (c : Nat) : Fld := ⟨ONL_TRAIN_at c, 8, 8⟩
/-- Address of ONL_CSLOT, Table 11-14. -/
def ONL_CSLOT_at (c : Nat) : Nat := 0x10070000 + c * 0x100000 + 0x30
def ONL_CSLOT_IMPORTS (c : Nat) : Fld := ⟨ONL_CSLOT_at c, 32, 32⟩
def ONL_CSLOT_IN_USE (c : Nat) : Fld := ⟨ONL_CSLOT_at c, 0, 9⟩
/-- Address of ONL_CREDIT, Table 11-15. -/
def ONL_CREDIT_at (c : Nat) (p v : Nat) : Nat := 0x10070000 + c * 0x100000 + 0x100 + p * 0x40 + v * 0x8
def ONL_CREDIT_ADV (c : Nat) (p v : Nat) : Fld := ⟨ONL_CREDIT_at c p v, 32, 16⟩
def ONL_CREDIT_TX_HELD (c : Nat) (p v : Nat) : Fld := ⟨ONL_CREDIT_at c p v, 16, 16⟩
def ONL_CREDIT_RX_USED (c : Nat) (p v : Nat) : Fld := ⟨ONL_CREDIT_at c p v, 0, 16⟩
/-- Address of ONL_CHAIN, Table 11-16. -/
def ONL_CHAIN_at (c : Nat) : Nat := 0x10070000 + c * 0x100000 + 0x200
def ONL_CHAIN_PROBE_US (c : Nat) : Fld := ⟨ONL_CHAIN_at c, 48, 16⟩
def ONL_CHAIN_BUDGET_US (c : Nat) : Fld := ⟨ONL_CHAIN_at c, 44, 4⟩
def ONL_CHAIN_HOP_LIMIT (c : Nat) : Fld := ⟨ONL_CHAIN_at c, 34, 5⟩
def ONL_CHAIN_TOPO (c : Nat) : Fld := ⟨ONL_CHAIN_at c, 32, 2⟩
def ONL_CHAIN_CEPOCH (c : Nat) : Fld := ⟨ONL_CHAIN_at c, 16, 16⟩
def ONL_CHAIN_ADDR_CONFLICT (c : Nat) : Fld := ⟨ONL_CHAIN_at c, 15, 1⟩
def ONL_CHAIN_ADDR (c : Nat) : Fld := ⟨ONL_CHAIN_at c, 0, 5⟩
/-- Address of ONL_ROUTE, Table 11-17. -/
def ONL_ROUTE_at (c : Nat) (m : Nat) : Nat := 0x10070000 + c * 0x100000 + 0x300 + m * 0x8
def ONL_ROUTE_REACH (c : Nat) (m : Nat) : Fld := ⟨ONL_ROUTE_at c m, 63, 1⟩
def ONL_ROUTE_OVER (c : Nat) (m : Nat) : Fld := ⟨ONL_ROUTE_at c m, 62, 1⟩
def ONL_ROUTE_VIA_PORT (c : Nat) (m : Nat) : Fld := ⟨ONL_ROUTE_at c m, 55, 7⟩
def ONL_ROUTE_HOPS (c : Nat) (m : Nat) : Fld := ⟨ONL_ROUTE_at c m, 50, 5⟩
def ONL_ROUTE_CONFLICT (c : Nat) (m : Nat) : Fld := ⟨ONL_ROUTE_at c m, 49, 1⟩
def ONL_ROUTE_RTT_NS (c : Nat) (m : Nat) : Fld := ⟨ONL_ROUTE_at c m, 0, 32⟩
/-- Address of ONL_REXT_SEL, Table 11-18. -/
def ONL_REXT_SEL_at (c : Nat) : Nat := 0x10070000 + c * 0x100000 + 0x440
def ONL_REXT_SEL_EXT (c : Nat) : Fld := ⟨ONL_REXT_SEL_at c, 0, 16⟩
/-- Address of ONL_REXT_VIEW, Table 11-18. -/
def ONL_REXT_VIEW_at (c : Nat) : Nat := 0x10070000 + c * 0x100000 + 0x448
def ONL_REXT_VIEW_ENTRY (c : Nat) : Fld := ⟨ONL_REXT_VIEW_at c, 0, 32⟩
/-- Address of ONL_TX_FRAMES, Table 11-19. -/
def ONL_TX_FRAMES_at (c : Nat) : Nat := 0x10070000 + c * 0x100000 + 0x400
def ONL_TX_FRAMES_COUNT (c : Nat) : Fld := ⟨ONL_TX_FRAMES_at c, 0, 64⟩
/-- Address of ONL_RX_FRAMES, Table 11-19. -/
def ONL_RX_FRAMES_at (c : Nat) : Nat := 0x10070000 + c * 0x100000 + 0x408
def ONL_RX_FRAMES_COUNT (c : Nat) : Fld := ⟨ONL_RX_FRAMES_at c, 0, 64⟩
/-- Address of ONL_ABSORBED, Table 11-19. -/
def ONL_ABSORBED_at (c : Nat) : Nat := 0x10070000 + c * 0x100000 + 0x410
def ONL_ABSORBED_COUNT (c : Nat) : Fld := ⟨ONL_ABSORBED_at c, 0, 64⟩
/-- Address of ONL_NOTES, Table 11-19. -/
def ONL_NOTES_at (c : Nat) : Nat := 0x10070000 + c * 0x100000 + 0x418
def ONL_NOTES_COUNT (c : Nat) : Fld := ⟨ONL_NOTES_at c, 0, 64⟩
/-- Address of ONL_PROTO, Table 11-19. -/
def ONL_PROTO_at (c : Nat) : Nat := 0x10070000 + c * 0x100000 + 0x420
def ONL_PROTO_COUNT (c : Nat) : Fld := ⟨ONL_PROTO_at c, 0, 64⟩
/-- Address of ONL_BREAKS, Table 11-19. -/
def ONL_BREAKS_at (c : Nat) : Nat := 0x10070000 + c * 0x100000 + 0x428
def ONL_BREAKS_COUNT (c : Nat) : Fld := ⟨ONL_BREAKS_at c, 0, 64⟩
/-- Address of ONL_HOP_ABSORB, Table 11-19. -/
def ONL_HOP_ABSORB_at (c : Nat) : Nat := 0x10070000 + c * 0x100000 + 0x430
def ONL_HOP_ABSORB_COUNT (c : Nat) : Fld := ⟨ONL_HOP_ABSORB_at c, 0, 64⟩
/-- Address of PKG_FAULT_STATUS, Table 12-9. -/
def PKG_FAULT_STATUS_at : Nat := 0x200
def PKG_FAULT_STATUS_LAST_SEQ : Fld := ⟨PKG_FAULT_STATUS_at, 32, 32⟩
def PKG_FAULT_STATUS_FAULTS : Fld := ⟨PKG_FAULT_STATUS_at, 16, 16⟩
def PKG_FAULT_STATUS_DOUBLE : Fld := ⟨PKG_FAULT_STATUS_at, 7, 1⟩
def PKG_FAULT_STATUS_OUTSIDE : Fld := ⟨PKG_FAULT_STATUS_at, 6, 1⟩
def PKG_FAULT_STATUS_STEP : Fld := ⟨PKG_FAULT_STATUS_at, 0, 3⟩
/-- Address of PKG_FAULT_TIMES, Table 12-10. -/
def PKG_FAULT_TIMES_at : Nat := 0x208
def PKG_FAULT_TIMES_DETECT_US : Fld := ⟨PKG_FAULT_TIMES_at, 48, 16⟩
def PKG_FAULT_TIMES_FENCE_US : Fld := ⟨PKG_FAULT_TIMES_at, 32, 16⟩
def PKG_FAULT_TIMES_TAKE_US : Fld := ⟨PKG_FAULT_TIMES_at, 16, 16⟩
def PKG_FAULT_TIMES_REISSUE_US : Fld := ⟨PKG_FAULT_TIMES_at, 0, 16⟩
/-- Address of PKG_FAULT_CFG, Table 12-11. -/
def PKG_FAULT_CFG_at : Nat := 0x210
def PKG_FAULT_CFG_TOL_CELLS : Fld := ⟨PKG_FAULT_CFG_at, 24, 8⟩
def PKG_FAULT_CFG_TOL_DIES : Fld := ⟨PKG_FAULT_CFG_at, 20, 4⟩
def PKG_FAULT_CFG_TOL_STACKS : Fld := ⟨PKG_FAULT_CFG_at, 16, 4⟩
def PKG_FAULT_CFG_TOL_SEAMS : Fld := ⟨PKG_FAULT_CFG_at, 8, 8⟩
def PKG_FAULT_CFG_AUTO_RETURN : Fld := ⟨PKG_FAULT_CFG_at, 0, 1⟩
/-- Address of PKG_FENCE_RETURN, Table 12-12. -/
def PKG_FENCE_RETURN_at : Nat := 0x218
def PKG_FENCE_RETURN_RESULT : Fld := ⟨PKG_FENCE_RETURN_at, 32, 4⟩
def PKG_FENCE_RETURN_KIND : Fld := ⟨PKG_FENCE_RETURN_at, 16, 4⟩
def PKG_FENCE_RETURN_ELEM : Fld := ⟨PKG_FENCE_RETURN_at, 8, 8⟩
def PKG_FENCE_RETURN_REFUSED : Fld := ⟨PKG_FENCE_RETURN_at, 2, 1⟩
def PKG_FENCE_RETURN_BUSY : Fld := ⟨PKG_FENCE_RETURN_at, 1, 1⟩
def PKG_FENCE_RETURN_GO : Fld := ⟨PKG_FENCE_RETURN_at, 0, 1⟩
/-- Address of PKG_LOG_SEL, Table 12-13. -/
def PKG_LOG_SEL_at : Nat := 0x220
def PKG_LOG_SEL_SEQ : Fld := ⟨PKG_LOG_SEL_at, 32, 32⟩
def PKG_LOG_SEL_LOG : Fld := ⟨PKG_LOG_SEL_at, 0, 3⟩
/-- Address of PKG_LOG_STAT, Table 12-13. -/
def PKG_LOG_STAT_at : Nat := 0x228
def PKG_LOG_STAT_VALID : Fld := ⟨PKG_LOG_STAT_at, 63, 1⟩
def PKG_LOG_STAT_GONE : Fld := ⟨PKG_LOG_STAT_at, 62, 1⟩
def PKG_LOG_STAT_AHEAD : Fld := ⟨PKG_LOG_STAT_at, 61, 1⟩
def PKG_LOG_STAT_NO_SP : Fld := ⟨PKG_LOG_STAT_at, 60, 1⟩
/-- Address of PKG_LOG_DATA, Table 12-14. -/
def PKG_LOG_DATA_at (w : Nat) : Nat := 0x230 + w * 0x8
def PKG_LOG_DATA_DATA (w : Nat) : Fld := ⟨PKG_LOG_DATA_at w, 0, 64⟩
/-- Address of PKG_LOG_PTR, Table 12-15. -/
def PKG_LOG_PTR_at (l : Nat) : Nat := 0x280 + l * 0x8
def PKG_LOG_PTR_NEXT_SEQ (l : Nat) : Fld := ⟨PKG_LOG_PTR_at l, 32, 32⟩
def PKG_LOG_PTR_OLDEST_SEQ (l : Nat) : Fld := ⟨PKG_LOG_PTR_at l, 0, 32⟩
/-- Address of PKG_LOG_DROP, Table 12-15. -/
def PKG_LOG_DROP_at (l : Nat) : Nat := 0x2B0 + l * 0x8
def PKG_LOG_DROP_DROPPED (l : Nat) : Fld := ⟨PKG_LOG_DROP_at l, 0, 16⟩
/-- Address of RIND_PWR_STATUS, Table 13-7. -/
def RIND_PWR_STATUS_at : Nat := 0x100000
def RIND_PWR_STATUS_RETRY_CNT : Fld := ⟨RIND_PWR_STATUS_at, 38, 2⟩
def RIND_PWR_STATUS_LATCHED : Fld := ⟨RIND_PWR_STATUS_at, 37, 1⟩
def RIND_PWR_STATUS_CTRL_STATE : Fld := ⟨RIND_PWR_STATUS_at, 28, 4⟩
def RIND_PWR_STATUS_LOST_WHY : Fld := ⟨RIND_PWR_STATUS_at, 24, 2⟩
def RIND_PWR_STATUS_PWRGD : Fld := ⟨RIND_PWR_STATUS_at, 23, 1⟩
def RIND_PWR_STATUS_GATE_ON : Fld := ⟨RIND_PWR_STATUS_at, 22, 1⟩
def RIND_PWR_STATUS_TIMER_RUN : Fld := ⟨RIND_PWR_STATUS_at, 21, 1⟩
def RIND_PWR_STATUS_BOTH_LOST : Fld := ⟨RIND_PWR_STATUS_at, 20, 1⟩
def RIND_PWR_STATUS_FEEDWARN : Fld := ⟨RIND_PWR_STATUS_at, 15, 1⟩
def RIND_PWR_STATUS_ENABLE : Fld := ⟨RIND_PWR_STATUS_at, 14, 1⟩
def RIND_PWR_STATUS_SENSE_S : Fld := ⟨RIND_PWR_STATUS_at, 13, 1⟩
def RIND_PWR_STATUS_SENSE_M : Fld := ⟨RIND_PWR_STATUS_at, 12, 1⟩
def RIND_PWR_STATUS_SENSE_L : Fld := ⟨RIND_PWR_STATUS_at, 11, 1⟩
def RIND_PWR_STATUS_CARRYING : Fld := ⟨RIND_PWR_STATUS_at, 6, 2⟩
def RIND_PWR_STATUS_FEED_B : Fld := ⟨RIND_PWR_STATUS_at, 4, 2⟩
def RIND_PWR_STATUS_FEED_A : Fld := ⟨RIND_PWR_STATUS_at, 2, 2⟩
/-- Address of RIND_PWR_FEED, Table 13-8. -/
def RIND_PWR_FEED_at (f : Nat) : Nat := 0x100008 + f * 0x8
def RIND_PWR_FEED_I_PEAK (f : Nat) : Fld := ⟨RIND_PWR_FEED_at f, 48, 16⟩
def RIND_PWR_FEED_I_NOW (f : Nat) : Fld := ⟨RIND_PWR_FEED_at f, 32, 16⟩
def RIND_PWR_FEED_V_MIN (f : Nat) : Fld := ⟨RIND_PWR_FEED_at f, 16, 16⟩
def RIND_PWR_FEED_V_NOW (f : Nat) : Fld := ⟨RIND_PWR_FEED_at f, 0, 16⟩
/-- Address of RIND_PWR_BUS, Table 13-9. -/
def RIND_PWR_BUS_at : Nat := 0x100018
def RIND_PWR_BUS_LAST_STOP_US : Fld := ⟨RIND_PWR_BUS_at, 48, 16⟩
def RIND_PWR_BUS_P_NOW : Fld := ⟨RIND_PWR_BUS_at, 32, 16⟩
def RIND_PWR_BUS_V_MIN : Fld := ⟨RIND_PWR_BUS_at, 16, 16⟩
def RIND_PWR_BUS_V_NOW : Fld := ⟨RIND_PWR_BUS_at, 0, 16⟩
/-- Address of RIND_PWR_CTRL, Table 13-10. -/
def RIND_PWR_CTRL_at : Nat := 0x100020
def RIND_PWR_CTRL_CLR_PEAK : Fld := ⟨RIND_PWR_CTRL_at, 0, 1⟩
/-- Address of RIND_PWR_TIMER, Table 13-11. -/
def RIND_PWR_TIMER_at : Nat := 0x100028
def RIND_PWR_TIMER_TIMER_MAX : Fld := ⟨RIND_PWR_TIMER_at, 32, 17⟩
def RIND_PWR_TIMER_TIMER_NOW : Fld := ⟨RIND_PWR_TIMER_at, 0, 17⟩
/-- Address of RIND_PWR_EVT, Table 13-12. -/
def RIND_PWR_EVT_at : Nat := 0x100030
def RIND_PWR_EVT_BREAKER : Fld := ⟨RIND_PWR_EVT_at, 48, 16⟩
def RIND_PWR_EVT_FAST : Fld := ⟨RIND_PWR_EVT_at, 32, 16⟩
def RIND_PWR_EVT_RAMP_FAIL : Fld := ⟨RIND_PWR_EVT_at, 16, 16⟩
def RIND_PWR_EVT_RETRIES : Fld := ⟨RIND_PWR_EVT_at, 0, 16⟩
/-- Address of RIND_PWR_FEED_EVT, Table 13-12. -/
def RIND_PWR_FEED_EVT_at : Nat := 0x100038
def RIND_PWR_FEED_EVT_REV_OFF_A : Fld := ⟨RIND_PWR_FEED_EVT_at, 48, 16⟩
def RIND_PWR_FEED_EVT_REV_OFF_B : Fld := ⟨RIND_PWR_FEED_EVT_at, 32, 16⟩
def RIND_PWR_FEED_EVT_LOSS_A : Fld := ⟨RIND_PWR_FEED_EVT_at, 16, 16⟩
def RIND_PWR_FEED_EVT_LOSS_B : Fld := ⟨RIND_PWR_FEED_EVT_at, 0, 16⟩
/-- Address of RIND_PWR_LAST, Table 13-13. -/
def RIND_PWR_LAST_at : Nat := 0x100040
def RIND_PWR_LAST_RTC_S : Fld := ⟨RIND_PWR_LAST_at, 32, 32⟩
def RIND_PWR_LAST_CAUSE : Fld := ⟨RIND_PWR_LAST_at, 16, 8⟩
def RIND_PWR_LAST_RETRY_AT : Fld := ⟨RIND_PWR_LAST_at, 0, 2⟩
/-- Address of RIND_CLK_STATUS, Table 14-5. -/
def RIND_CLK_STATUS_at : Nat := 0x100100
def RIND_CLK_STATUS_XTAL_LOSSES : Fld := ⟨RIND_CLK_STATUS_at, 48, 16⟩
def RIND_CLK_STATUS_RTC_LOST : Fld := ⟨RIND_CLK_STATUS_at, 4, 1⟩
def RIND_CLK_STATUS_XTAL_LOST : Fld := ⟨RIND_CLK_STATUS_at, 3, 1⟩
def RIND_CLK_STATUS_MGR_HOLD : Fld := ⟨RIND_CLK_STATUS_at, 2, 1⟩
def RIND_CLK_STATUS_MGR_LOCK : Fld := ⟨RIND_CLK_STATUS_at, 1, 1⟩
def RIND_CLK_STATUS_RIND_INT : Fld := ⟨RIND_CLK_STATUS_at, 0, 1⟩
/-- Address of RIND_RTC, Table 14-6. -/
def RIND_RTC_at : Nat := 0x100108
def RIND_RTC_SEC : Fld := ⟨RIND_RTC_at, 32, 32⟩
def RIND_RTC_SUBSEC : Fld := ⟨RIND_RTC_at, 0, 15⟩
/-- Address of RIND_PKG_TIME, Table 14-6. -/
def RIND_PKG_TIME_at : Nat := 0x100110
def RIND_PKG_TIME_NS : Fld := ⟨RIND_PKG_TIME_at, 0, 64⟩
/-- Address of RIND_DOMAIN_STATE, Table 14-7. -/
def RIND_DOMAIN_STATE_at (n : Nat) : Nat := 0x100200 + n * 0x8
def RIND_DOMAIN_STATE_D (n : Nat) (j : Nat) : Fld := ⟨RIND_DOMAIN_STATE_at n, 2 * j, 2⟩
/-- Address of RIND_DOMAIN_SEL, Table 14-8. -/
def RIND_DOMAIN_SEL_at : Nat := 0x100280
def RIND_DOMAIN_SEL_DOMAIN : Fld := ⟨RIND_DOMAIN_SEL_at, 0, 9⟩
/-- Address of RIND_DOMAIN_VIEW, Table 14-8. -/
def RIND_DOMAIN_VIEW_at : Nat := 0x100288
def RIND_DOMAIN_VIEW_STATE : Fld := ⟨RIND_DOMAIN_VIEW_at, 62, 2⟩
def RIND_DOMAIN_VIEW_LAST_WAKE_NS : Fld := ⟨RIND_DOMAIN_VIEW_at, 32, 16⟩
def RIND_DOMAIN_VIEW_ENTRIES : Fld := ⟨RIND_DOMAIN_VIEW_at, 0, 32⟩
/-- Address of RIND_SLEEP_CFG, Table 14-9. -/
def RIND_SLEEP_CFG_at : Nat := 0x100300
def RIND_SLEEP_CFG_ENTER_MS : Fld := ⟨RIND_SLEEP_CFG_at, 48, 16⟩
def RIND_SLEEP_CFG_ENTER_QUIET : Fld := ⟨RIND_SLEEP_CFG_at, 40, 8⟩
def RIND_SLEEP_CFG_AWAKE_LIMIT : Fld := ⟨RIND_SLEEP_CFG_at, 32, 8⟩
def RIND_SLEEP_CFG_EXIT_US : Fld := ⟨RIND_SLEEP_CFG_at, 16, 16⟩
def RIND_SLEEP_CFG_RET_IDLE_US : Fld := ⟨RIND_SLEEP_CFG_at, 8, 8⟩
def RIND_SLEEP_CFG_L1_IDLE_US : Fld := ⟨RIND_SLEEP_CFG_at, 0, 8⟩
/-- Address of RIND_SLEEP_STATUS, Table 14-10. -/
def RIND_SLEEP_STATUS_at : Nat := 0x100308
def RIND_SLEEP_STATUS_WAKE_MAX_NS : Fld := ⟨RIND_SLEEP_STATUS_at, 48, 16⟩
def RIND_SLEEP_STATUS_AWAKE : Fld := ⟨RIND_SLEEP_STATUS_at, 32, 8⟩
def RIND_SLEEP_STATUS_QUIET : Fld := ⟨RIND_SLEEP_STATUS_at, 16, 8⟩
def RIND_SLEEP_STATUS_RETAINED : Fld := ⟨RIND_SLEEP_STATUS_at, 8, 8⟩
def RIND_SLEEP_STATUS_CLR_MAX : Fld := ⟨RIND_SLEEP_STATUS_at, 0, 1⟩
/-- Address of RIND_SLEEP_CNT, Table 14-10. -/
def RIND_SLEEP_CNT_at : Nat := 0x100310
def RIND_SLEEP_CNT_WAKES : Fld := ⟨RIND_SLEEP_CNT_at, 32, 32⟩
def RIND_SLEEP_CNT_CANCELLED : Fld := ⟨RIND_SLEEP_CNT_at, 16, 16⟩
def RIND_SLEEP_CNT_TIMED_OUT : Fld := ⟨RIND_SLEEP_CNT_at, 8, 8⟩
def RIND_SLEEP_CNT_WAKE_FAIL : Fld := ⟨RIND_SLEEP_CNT_at, 0, 8⟩
/-- Address of DIE_PLL_STATUS, Table 14-11. -/
def DIE_PLL_STATUS_at (d : Nat) : Nat := 0x1030000 + d * 0x100000
def DIE_PLL_STATUS_UNLOCKS (d : Nat) : Fld := ⟨DIE_PLL_STATUS_at d, 48, 16⟩
def DIE_PLL_STATUS_LOCK_US (d : Nat) : Fld := ⟨DIE_PLL_STATUS_at d, 32, 16⟩
def DIE_PLL_STATUS_STATE (d : Nat) : Fld := ⟨DIE_PLL_STATUS_at d, 0, 3⟩
/-- Address of PKG_ID, Table 15-18. -/
def PKG_ID_at : Nat := 0x0
def PKG_ID_PART : Fld := ⟨PKG_ID_at, 48, 16⟩
def PKG_ID_MEMBER : Fld := ⟨PKG_ID_at, 44, 4⟩
def PKG_ID_STEPPING : Fld := ⟨PKG_ID_at, 40, 4⟩
def PKG_ID_IDCODE : Fld := ⟨PKG_ID_at, 0, 32⟩
/-- Address of PKG_SERIAL, Table 15-18. -/
def PKG_SERIAL_at (n : Nat) : Nat := 0x8 + n * 0x8
def PKG_SERIAL_SERIAL (n : Nat) : Fld := ⟨PKG_SERIAL_at n, 0, 64⟩
/-- Address of PKG_IMAGE, Table 15-18. -/
def PKG_IMAGE_at : Nat := 0x18
def PKG_IMAGE_A_RESULT : Fld := ⟨PKG_IMAGE_at, 56, 8⟩
def PKG_IMAGE_B_RESULT : Fld := ⟨PKG_IMAGE_at, 48, 8⟩
def PKG_IMAGE_SLOT : Fld := ⟨PKG_IMAGE_at, 46, 2⟩
def PKG_IMAGE_KIND : Fld := ⟨PKG_IMAGE_at, 44, 2⟩
def PKG_IMAGE_FW_SVN : Fld := ⟨PKG_IMAGE_at, 37, 7⟩
def PKG_IMAGE_MIN_SVN : Fld := ⟨PKG_IMAGE_at, 30, 7⟩
def PKG_IMAGE_FAIL_SECT : Fld := ⟨PKG_IMAGE_at, 22, 8⟩
def PKG_IMAGE_FAIL_REC : Fld := ⟨PKG_IMAGE_at, 0, 22⟩
/-- Address of PKG_LC, Table 15-19. -/
def PKG_LC_at : Nat := 0x300
def PKG_LC_REVOKED : Fld := ⟨PKG_LC_at, 12, 4⟩
def PKG_LC_SEAL : Fld := ⟨PKG_LC_at, 10, 2⟩
def PKG_LC_SEED_GONE : Fld := ⟨PKG_LC_at, 9, 1⟩
def PKG_LC_CODE : Fld := ⟨PKG_LC_at, 0, 8⟩
/-- Address of PKG_LC_REQ, Table 15-20. -/
def PKG_LC_REQ_at : Nat := 0x308
def PKG_LC_REQ_RESULT : Fld := ⟨PKG_LC_REQ_at, 24, 8⟩
def PKG_LC_REQ_OP : Fld := ⟨PKG_LC_REQ_at, 4, 3⟩
def PKG_LC_REQ_REFUSED : Fld := ⟨PKG_LC_REQ_at, 2, 1⟩
def PKG_LC_REQ_BUSY : Fld := ⟨PKG_LC_REQ_at, 1, 1⟩
def PKG_LC_REQ_GO : Fld := ⟨PKG_LC_REQ_at, 0, 1⟩
/-- Address of PKG_LC_NONCE, Table 15-19. -/
def PKG_LC_NONCE_at (n : Nat) : Nat := 0x310 + n * 0x8
def PKG_LC_NONCE_NONCE (n : Nat) : Fld := ⟨PKG_LC_NONCE_at n, 0, 64⟩
/-- Address of PKG_IMAGE_DIGEST, Table 15-21. -/
def PKG_IMAGE_DIGEST_at (n : Nat) : Nat := 0x340 + n * 0x8
def PKG_IMAGE_DIGEST_DIGEST (n : Nat) : Fld := ⟨PKG_IMAGE_DIGEST_at n, 0, 64⟩
/-- Address of PKG_OWNER_KEY, Table 15-21. -/
def PKG_OWNER_KEY_at (n : Nat) : Nat := 0x370 + n * 0x8
def PKG_OWNER_KEY_KEY_HASH (n : Nat) : Fld := ⟨PKG_OWNER_KEY_at n, 0, 64⟩
/-- Address of PKG_OWNER_FUSE, Table 15-21. -/
def PKG_OWNER_FUSE_at (n : Nat) : Nat := 0x3A0 + n * 0x8
def PKG_OWNER_FUSE_FUSED_HASH (n : Nat) : Fld := ⟨PKG_OWNER_FUSE_at n, 0, 64⟩
/-- Address of PKG_DEBUG, Table 15-22. -/
def PKG_DEBUG_at : Nat := 0x3D0
def PKG_DEBUG_LOCKED_HITS : Fld := ⟨PKG_DEBUG_at, 32, 32⟩
def PKG_DEBUG_DBG_ACCESSES : Fld := ⟨PKG_DEBUG_at, 0, 32⟩
/-- Address of PKG_RENNET, Table 15-22. -/
def PKG_RENNET_at : Nat := 0x3D8
def PKG_RENNET_REWRITES : Fld := ⟨PKG_RENNET_at, 48, 16⟩
def PKG_RENNET_FENCED : Fld := ⟨PKG_RENNET_at, 40, 8⟩
def PKG_RENNET_DURATION_US : Fld := ⟨PKG_RENNET_at, 0, 32⟩
/-- Address of PKG_IMAGE_VERIFY, Table 15-22. -/
def PKG_IMAGE_VERIFY_at : Nat := 0x3E0
def PKG_IMAGE_VERIFY_VERIFY_RESULT : Fld := ⟨PKG_IMAGE_VERIFY_at, 8, 8⟩
def PKG_IMAGE_VERIFY_SLOT : Fld := ⟨PKG_IMAGE_VERIFY_at, 3, 1⟩
def PKG_IMAGE_VERIFY_BUSY : Fld := ⟨PKG_IMAGE_VERIFY_at, 1, 1⟩
def PKG_IMAGE_VERIFY_GO : Fld := ⟨PKG_IMAGE_VERIFY_at, 0, 1⟩
/-- Address of PKG_LC_TOKEN, Table 15-20. -/
def PKG_LC_TOKEN_at (t n : Nat) : Nat := 0x400 + t * 0x100 + n * 0x8
def PKG_LC_TOKEN_DATA (t n : Nat) : Fld := ⟨PKG_LC_TOKEN_at t n, 0, 64⟩
/-- Address of PKG_NOR_CTRL, Table 15-23. -/
def PKG_NOR_CTRL_at : Nat := 0x600
def PKG_NOR_CTRL_OFFSET : Fld := ⟨PKG_NOR_CTRL_at, 32, 32⟩
def PKG_NOR_CTRL_DEV : Fld := ⟨PKG_NOR_CTRL_at, 28, 1⟩
def PKG_NOR_CTRL_OP : Fld := ⟨PKG_NOR_CTRL_at, 24, 2⟩
def PKG_NOR_CTRL_RESULT : Fld := ⟨PKG_NOR_CTRL_at, 4, 4⟩
def PKG_NOR_CTRL_BUSY : Fld := ⟨PKG_NOR_CTRL_at, 1, 1⟩
def PKG_NOR_CTRL_GO : Fld := ⟨PKG_NOR_CTRL_at, 0, 1⟩
/-- Address of PKG_NOR_DATA, Table 15-23. -/
def PKG_NOR_DATA_at (n : Nat) : Nat := 0x700 + n * 0x8
def PKG_NOR_DATA_DATA (n : Nat) : Fld := ⟨PKG_NOR_DATA_at n, 0, 64⟩
/-- Address of PKG_COMMIT, Table 16-11. -/
def PKG_COMMIT_at : Nat := 0x100
def PKG_COMMIT_EPOCH : Fld := ⟨PKG_COMMIT_at, 32, 32⟩
def PKG_COMMIT_SHADOWS : Fld := ⟨PKG_COMMIT_at, 8, 16⟩
def PKG_COMMIT_RESULT : Fld := ⟨PKG_COMMIT_at, 4, 2⟩
def PKG_COMMIT_REFUSED : Fld := ⟨PKG_COMMIT_at, 3, 1⟩
def PKG_COMMIT_BUSY : Fld := ⟨PKG_COMMIT_at, 2, 1⟩
def PKG_COMMIT_DISCARD : Fld := ⟨PKG_COMMIT_at, 1, 1⟩
def PKG_COMMIT_GO : Fld := ⟨PKG_COMMIT_at, 0, 1⟩
/-- Address of PKG_COMMIT_STATUS, Table 16-11. -/
def PKG_COMMIT_STATUS_at : Nat := 0x108
def PKG_COMMIT_STATUS_LAST_US : Fld := ⟨PKG_COMMIT_STATUS_at, 48, 16⟩
def PKG_COMMIT_STATUS_REFUSED_REGS : Fld := ⟨PKG_COMMIT_STATUS_at, 32, 16⟩
def PKG_COMMIT_STATUS_APPLIED_REGS : Fld := ⟨PKG_COMMIT_STATUS_at, 16, 16⟩
def PKG_COMMIT_STATUS_WAITING : Fld := ⟨PKG_COMMIT_STATUS_at, 0, 8⟩
/-- Address of PKG_SHADOW_SEL, Table 16-12. -/
def PKG_SHADOW_SEL_at : Nat := 0x110
def PKG_SHADOW_SEL_ADDR : Fld := ⟨PKG_SHADOW_SEL_at, 0, 32⟩
/-- Address of PKG_SHADOW_VIEW, Table 16-12. -/
def PKG_SHADOW_VIEW_at : Nat := 0x118
def PKG_SHADOW_VIEW_VALUE : Fld := ⟨PKG_SHADOW_VIEW_at, 0, 64⟩
/-- Address of PKG_SHADOW_MASK, Table 16-12. -/
def PKG_SHADOW_MASK_at : Nat := 0x128
def PKG_SHADOW_MASK_MASK : Fld := ⟨PKG_SHADOW_MASK_at, 0, 64⟩
/-- Address of PKG_MAINT_SET, Table 16-12. -/
def PKG_MAINT_SET_at (n : Nat) : Nat := 0x130 + n * 0x8
def PKG_MAINT_SET_PORTS (n : Nat) : Fld := ⟨PKG_MAINT_SET_at n, 0, 64⟩
/-- Address of MGR_LEASE, Table 16-13. -/
def MGR_LEASE_at : Nat := 0x200000
def MGR_LEASE_REMAIN_MS : Fld := ⟨MGR_LEASE_at, 40, 24⟩
def MGR_LEASE_CLIENT : Fld := ⟨MGR_LEASE_at, 24, 16⟩
def MGR_LEASE_EID : Fld := ⟨MGR_LEASE_at, 16, 8⟩
def MGR_LEASE_PORT : Fld := ⟨MGR_LEASE_at, 8, 7⟩
def MGR_LEASE_PATH : Fld := ⟨MGR_LEASE_at, 2, 2⟩
def MGR_LEASE_HELD : Fld := ⟨MGR_LEASE_at, 0, 1⟩
/-- Address of MGR_LEASE_CFG, Table 16-13. -/
def MGR_LEASE_CFG_at : Nat := 0x200008
def MGR_LEASE_CFG_REQUIRE_SESSION : Fld := ⟨MGR_LEASE_CFG_at, 33, 1⟩
def MGR_LEASE_CFG_MAINT_ALLOWED : Fld := ⟨MGR_LEASE_CFG_at, 32, 1⟩
def MGR_LEASE_CFG_MCTP_PORT : Fld := ⟨MGR_LEASE_CFG_at, 18, 7⟩
def MGR_LEASE_CFG_PATHS : Fld := ⟨MGR_LEASE_CFG_at, 16, 2⟩
def MGR_LEASE_CFG_LEASE_MS : Fld := ⟨MGR_LEASE_CFG_at, 0, 16⟩
/-- Address of MGR_ZMP_CNT, Table 16-14. -/
def MGR_ZMP_CNT_at : Nat := 0x200010
def MGR_ZMP_CNT_ANSWERED : Fld := ⟨MGR_ZMP_CNT_at, 32, 32⟩
def MGR_ZMP_CNT_REPLAYED : Fld := ⟨MGR_ZMP_CNT_at, 16, 16⟩
def MGR_ZMP_CNT_BUSY : Fld := ⟨MGR_ZMP_CNT_at, 8, 8⟩
def MGR_ZMP_CNT_DROPPED : Fld := ⟨MGR_ZMP_CNT_at, 0, 8⟩
/-- Address of MGR_ACCESS_CNT, Table 16-14. -/
def MGR_ACCESS_CNT_at : Nat := 0x200018
def MGR_ACCESS_CNT_ATTEMPTS : Fld := ⟨MGR_ACCESS_CNT_at, 32, 32⟩
def MGR_ACCESS_CNT_UNLOGGED : Fld := ⟨MGR_ACCESS_CNT_at, 16, 16⟩
def MGR_ACCESS_CNT_LEASE_LOSSES : Fld := ⟨MGR_ACCESS_CNT_at, 0, 16⟩
/-- Address of CTR_CFG, Table 17-4. -/
def CTR_CFG_at (c : Nat) (n : Nat) : Nat := 0x10060000 + c * 0x100000 + n * 0x8
def CTR_CFG_INST (c : Nat) (n : Nat) : Fld := ⟨CTR_CFG_at c n, 52, 12⟩
def CTR_CFG_INST_EN (c : Nat) (n : Nat) : Fld := ⟨CTR_CFG_at c n, 51, 1⟩
def CTR_CFG_UMASK (c : Nat) (n : Nat) : Fld := ⟨CTR_CFG_at c n, 32, 16⟩
def CTR_CFG_CHAIN (c : Nat) (n : Nat) : Fld := ⟨CTR_CFG_at c n, 17, 1⟩
def CTR_CFG_SAMPLE (c : Nat) (n : Nat) : Fld := ⟨CTR_CFG_at c n, 16, 1⟩
def CTR_CFG_EVT (c : Nat) (n : Nat) : Fld := ⟨CTR_CFG_at c n, 0, 8⟩
/-- Address of CTR_VAL, Table 17-5. -/
def CTR_VAL_at (c : Nat) (n : Nat) : Nat := 0x10060000 + c * 0x100000 + 0x40 + n * 0x8
def CTR_VAL_VALUE (c : Nat) (n : Nat) : Fld := ⟨CTR_VAL_at c n, 0, 32⟩
/-- Address of CTR_RELOAD, Table 17-5. -/
def CTR_RELOAD_at (c : Nat) (n : Nat) : Nat := 0x10060000 + c * 0x100000 + 0x80 + n * 0x8
def CTR_RELOAD_RELOAD (c : Nat) (n : Nat) : Fld := ⟨CTR_RELOAD_at c n, 0, 32⟩
/-- Address of CTR_PAIR, Table 17-5. -/
def CTR_PAIR_at (c : Nat) (j : Nat) : Nat := 0x10060000 + c * 0x100000 + 0xC0 + j * 0x8
def CTR_PAIR_HIGH (c : Nat) (j : Nat) : Fld := ⟨CTR_PAIR_at c j, 32, 32⟩
def CTR_PAIR_LOW (c : Nat) (j : Nat) : Fld := ⟨CTR_PAIR_at c j, 0, 32⟩
/-- Address of CTR_CTL, Table 17-6. -/
def CTR_CTL_at (c : Nat) : Nat := 0x10060000 + c * 0x100000 + 0xE0
def CTR_CTL_OVF (c : Nat) : Fld := ⟨CTR_CTL_at c, 32, 8⟩
/-- One bit of OVF. -/
def CTR_CTL_OVF_BIT (c n : Nat) : Fld := ⟨CTR_CTL_at c, 32 + n, 1⟩
def CTR_CTL_RUN (c : Nat) : Fld := ⟨CTR_CTL_at c, 16, 8⟩
def CTR_CTL_EN (c : Nat) : Fld := ⟨CTR_CTL_at c, 8, 8⟩
def CTR_CTL_SNAP_ARM (c : Nat) : Fld := ⟨CTR_CTL_at c, 2, 1⟩
def CTR_CTL_FREEZE (c : Nat) : Fld := ⟨CTR_CTL_at c, 1, 1⟩
def CTR_CTL_SNAP (c : Nat) : Fld := ⟨CTR_CTL_at c, 0, 1⟩
/-- Address of CTR_SNAP_AT, Table 17-6. -/
def CTR_SNAP_AT_at (c : Nat) : Nat := 0x10060000 + c * 0x100000 + 0xE8
def CTR_SNAP_AT_SNAP_AT (c : Nat) : Fld := ⟨CTR_SNAP_AT_at c, 0, 64⟩
/-- Address of CTR_SNAP_TIME, Table 17-6. -/
def CTR_SNAP_TIME_at (c : Nat) : Nat := 0x10060000 + c * 0x100000 + 0xF0
def CTR_SNAP_TIME_TIME (c : Nat) : Fld := ⟨CTR_SNAP_TIME_at c, 0, 64⟩
/-- Address of CTR_SNAPVAL, Table 17-7. -/
def CTR_SNAPVAL_at (c : Nat) (n : Nat) : Nat := 0x10060000 + c * 0x100000 + 0x100 + n * 0x8
def CTR_SNAPVAL_VALUE (c : Nat) (n : Nat) : Fld := ⟨CTR_SNAPVAL_at c n, 0, 32⟩
/-- Address of CTR_SREC_PTR, Table 17-7. -/
def CTR_SREC_PTR_at (c : Nat) : Nat := 0x10060000 + c * 0x100000 + 0x140
def CTR_SREC_PTR_RING_DROPPED (c : Nat) : Fld := ⟨CTR_SREC_PTR_at c, 48, 16⟩
def CTR_SREC_PTR_TAKEN (c : Nat) : Fld := ⟨CTR_SREC_PTR_at c, 16, 32⟩
def CTR_SREC_PTR_WR_IDX (c : Nat) : Fld := ⟨CTR_SREC_PTR_at c, 8, 3⟩
def CTR_SREC_PTR_RD_IDX (c : Nat) : Fld := ⟨CTR_SREC_PTR_at c, 0, 3⟩
/-- Address of CTR_SREC, Table 17-7. -/
def CTR_SREC_at (c : Nat) (r w : Nat) : Nat := 0x10060000 + c * 0x100000 + 0x200 + r * 0x40 + w * 0x8
def CTR_SREC_REC (c : Nat) (r w : Nat) : Fld := ⟨CTR_SREC_at c r w, 0, 64⟩
/-- Address of INST_CTR_CTL, Table 17-8. -/
def INST_CTR_CTL_at (i : Nat) : Nat := 0x20000000 + i * 0x1000 + 0x40
def INST_CTR_CTL_PERM (i : Nat) : Fld := ⟨INST_CTR_CTL_at i, 1, 2⟩
def INST_CTR_CTL_SNAP (i : Nat) : Fld := ⟨INST_CTR_CTL_at i, 0, 1⟩
/-- Address of INST_CTR_TIME, Table 17-8. -/
def INST_CTR_TIME_at (i : Nat) : Nat := 0x20000000 + i * 0x1000 + 0x48
def INST_CTR_TIME_TIME (i : Nat) : Fld := ⟨INST_CTR_TIME_at i, 0, 64⟩
/-- Address of INST_CTR_READS, Table 17-8. -/
def INST_CTR_READS_at (i : Nat) : Nat := 0x20000000 + i * 0x1000 + 0x50
def INST_CTR_READS_READS (i : Nat) : Fld := ⟨INST_CTR_READS_at i, 0, 64⟩
/-- Address of INST_CTR_WRITES, Table 17-8. -/
def INST_CTR_WRITES_at (i : Nat) : Nat := 0x20000000 + i * 0x1000 + 0x58
def INST_CTR_WRITES_WRITES (i : Nat) : Fld := ⟨INST_CTR_WRITES_at i, 0, 64⟩
/-- Address of INST_CTR_RD_LAT, Table 17-8. -/
def INST_CTR_RD_LAT_at (i : Nat) : Nat := 0x20000000 + i * 0x1000 + 0x60
def INST_CTR_RD_LAT_RD_LAT (i : Nat) : Fld := ⟨INST_CTR_RD_LAT_at i, 0, 64⟩
/-- Address of INST_CTR_HOLD_NS, Table 17-8. -/
def INST_CTR_HOLD_NS_at (i : Nat) : Nat := 0x20000000 + i * 0x1000 + 0x68
def INST_CTR_HOLD_NS_HOLD_NS (i : Nat) : Fld := ⟨INST_CTR_HOLD_NS_at i, 0, 64⟩
/-- Address of INST_CTR_THROTTLE_NS, Table 17-8. -/
def INST_CTR_THROTTLE_NS_at (i : Nat) : Nat := 0x20000000 + i * 0x1000 + 0x70
def INST_CTR_THROTTLE_NS_THROTTLE_NS (i : Nat) : Fld := ⟨INST_CTR_THROTTLE_NS_at i, 0, 64⟩

end Sys2Proof.Machine.F
end

