-- ==== Sys2Proof/Machine/RegMap.lean ====
section
/-! DEFINITION. The register map of spec/16 R472 with the fields of every register table: kind (R19) and the value each
field holds at reset (R18). A field whose Reset column reads "image" takes the default its table names, or 0 (R425). -/

namespace Sys2Proof.Machine

/-- Registers of the group PKG (Table 16-16). -/
def mapPkg : List RegDef := [
  -- PKG_MODE, Table 1-10
  ⟨0x40, [], [⟨24, 16, .status, false, fun _ => 0⟩,
     ⟨16, 8, .status, false, fun _ => 1⟩,
     ⟨8, 4, .status, false, fun _ => 0⟩,
     ⟨0, 4, .status, false, fun _ => 1⟩]⟩,
  -- PKG_MODE_REQ, Table 1-11
  ⟨0x48, [], [⟨12, 4, .status, false, fun _ => 0⟩,
     ⟨9, 1, .clear, false, fun _ => 0⟩,
     ⟨8, 1, .status, false, fun _ => 0⟩,
     ⟨4, 1, .pulse, false, fun _ => 0⟩,
     ⟨0, 4, .live, false, fun _ => 4⟩]⟩,
  -- PKG_FAULT_STATUS, Table 12-9
  ⟨0x200, [], [⟨32, 32, .status, false, fun _ => 0⟩,
     ⟨16, 16, .status, false, fun _ => 0⟩,
     ⟨7, 1, .status, false, fun _ => 0⟩,
     ⟨6, 1, .status, false, fun _ => 0⟩,
     ⟨0, 3, .status, false, fun _ => 0⟩]⟩,
  -- PKG_FAULT_TIMES, Table 12-10
  ⟨0x208, [], [⟨48, 16, .status, false, fun _ => 0⟩,
     ⟨32, 16, .status, false, fun _ => 0⟩,
     ⟨16, 16, .status, false, fun _ => 0⟩,
     ⟨0, 16, .status, false, fun _ => 0⟩]⟩,
  -- PKG_FAULT_CFG, Table 12-11
  ⟨0x210, [], [⟨24, 8, .static, true, fun _ => 0⟩,
     ⟨20, 4, .static, true, fun _ => 0⟩,
     ⟨16, 4, .static, true, fun _ => 0⟩,
     ⟨8, 8, .static, true, fun _ => 0⟩,
     ⟨0, 1, .static, true, fun _ => 0⟩]⟩,
  -- PKG_FENCE_RETURN, Table 12-12
  ⟨0x218, [], [⟨32, 4, .status, false, fun _ => 0⟩,
     ⟨16, 4, .live, false, fun _ => 0⟩,
     ⟨8, 8, .live, false, fun _ => 0⟩,
     ⟨2, 1, .clear, false, fun _ => 0⟩,
     ⟨1, 1, .status, false, fun _ => 0⟩,
     ⟨0, 1, .pulse, false, fun _ => 0⟩]⟩,
  -- PKG_LOG_SEL, Table 12-13
  ⟨0x220, [], [⟨32, 32, .live, false, fun _ => 0⟩,
     ⟨0, 3, .live, false, fun _ => 0⟩]⟩,
  -- PKG_LOG_STAT, Table 12-13
  ⟨0x228, [], [⟨63, 1, .status, false, fun _ => 0⟩,
     ⟨62, 1, .status, false, fun _ => 0⟩,
     ⟨61, 1, .status, false, fun _ => 0⟩,
     ⟨60, 1, .status, false, fun _ => 0⟩]⟩,
  -- PKG_LOG_DATA, Table 12-14
  ⟨0x230, [(4, 0x8)], [⟨0, 64, .status, false, fun _ => 0⟩]⟩,
  -- PKG_LOG_PTR, Table 12-15
  ⟨0x280, [(5, 0x8)], [⟨32, 32, .status, false, fun _ => 0⟩,
     ⟨0, 32, .status, false, fun _ => 0⟩]⟩,
  -- PKG_LOG_DROP, Table 12-15
  ⟨0x2B0, [(5, 0x8)], [⟨0, 16, .status, false, fun _ => 0⟩]⟩,
  -- PKG_ID, Table 15-18
  ⟨0x0, [], [⟨48, 16, .status, false, fun _ => 38528⟩,
     ⟨44, 4, .status, false, fun _ => 4⟩,
     ⟨40, 4, .status, false, fun _ => 1⟩,
     ⟨0, 32, .status, false, fun _ => 426247623⟩]⟩,
  -- PKG_SERIAL, Table 15-18
  ⟨0x8, [(2, 0x8)], [⟨0, 64, .status, false, fun _ => 0⟩]⟩,
  -- PKG_IMAGE, Table 15-18
  ⟨0x18, [], [⟨56, 8, .status, false, fun _ => 0⟩,
     ⟨48, 8, .status, false, fun _ => 0⟩,
     ⟨46, 2, .status, false, fun _ => 0⟩,
     ⟨44, 2, .status, false, fun _ => 0⟩,
     ⟨37, 7, .status, false, fun _ => 0⟩,
     ⟨30, 7, .status, false, fun _ => 0⟩,
     ⟨22, 8, .status, false, fun _ => 0⟩,
     ⟨0, 22, .status, false, fun _ => 0⟩]⟩,
  -- PKG_LC, Table 15-19
  ⟨0x300, [], [⟨12, 4, .status, false, fun _ => 0⟩,
     ⟨10, 2, .status, false, fun _ => 0⟩,
     ⟨9, 1, .status, false, fun _ => 0⟩,
     ⟨0, 8, .status, false, fun _ => 0⟩]⟩,
  -- PKG_LC_REQ, Table 15-20
  ⟨0x308, [], [⟨24, 8, .status, false, fun _ => 0⟩,
     ⟨4, 3, .live, false, fun _ => 0⟩,
     ⟨2, 1, .clear, false, fun _ => 0⟩,
     ⟨1, 1, .status, false, fun _ => 0⟩,
     ⟨0, 1, .pulse, false, fun _ => 0⟩]⟩,
  -- PKG_LC_NONCE, Table 15-19
  ⟨0x310, [(4, 0x8)], [⟨0, 64, .status, false, fun _ => 0⟩]⟩,
  -- PKG_IMAGE_DIGEST, Table 15-21
  ⟨0x340, [(6, 0x8)], [⟨0, 64, .status, false, fun _ => 0⟩]⟩,
  -- PKG_OWNER_KEY, Table 15-21
  ⟨0x370, [(6, 0x8)], [⟨0, 64, .status, false, fun _ => 0⟩]⟩,
  -- PKG_OWNER_FUSE, Table 15-21
  ⟨0x3A0, [(6, 0x8)], [⟨0, 64, .status, false, fun _ => 0⟩]⟩,
  -- PKG_DEBUG, Table 15-22
  ⟨0x3D0, [], [⟨32, 32, .status, false, fun _ => 0⟩,
     ⟨0, 32, .status, false, fun _ => 0⟩]⟩,
  -- PKG_RENNET, Table 15-22
  ⟨0x3D8, [], [⟨48, 16, .status, false, fun _ => 0⟩,
     ⟨40, 8, .status, false, fun _ => 0⟩,
     ⟨0, 32, .status, false, fun _ => 0⟩]⟩,
  -- PKG_IMAGE_VERIFY, Table 15-22
  ⟨0x3E0, [], [⟨8, 8, .status, false, fun _ => 0⟩,
     ⟨3, 1, .live, false, fun _ => 0⟩,
     ⟨1, 1, .status, false, fun _ => 0⟩,
     ⟨0, 1, .pulse, false, fun _ => 0⟩]⟩,
  -- PKG_LC_TOKEN, Table 15-20
  ⟨0x400, [(2, 0x100), (32, 0x8)], [⟨0, 64, .live, false, fun _ => 0⟩]⟩,
  -- PKG_NOR_CTRL, Table 15-23
  ⟨0x600, [], [⟨32, 32, .live, false, fun _ => 0⟩,
     ⟨28, 1, .live, false, fun _ => 0⟩,
     ⟨24, 2, .live, false, fun _ => 0⟩,
     ⟨4, 4, .status, false, fun _ => 0⟩,
     ⟨1, 1, .status, false, fun _ => 0⟩,
     ⟨0, 1, .pulse, false, fun _ => 0⟩]⟩,
  -- PKG_NOR_DATA, Table 15-23
  ⟨0x700, [(32, 0x8)], [⟨0, 64, .live, false, fun _ => 0⟩]⟩,
  -- PKG_COMMIT, Table 16-11
  ⟨0x100, [], [⟨32, 32, .status, false, fun _ => 0⟩,
     ⟨8, 16, .status, false, fun _ => 0⟩,
     ⟨4, 2, .status, false, fun _ => 0⟩,
     ⟨3, 1, .clear, false, fun _ => 0⟩,
     ⟨2, 1, .status, false, fun _ => 0⟩,
     ⟨1, 1, .pulse, false, fun _ => 0⟩,
     ⟨0, 1, .pulse, false, fun _ => 0⟩]⟩,
  -- PKG_COMMIT_STATUS, Table 16-11
  ⟨0x108, [], [⟨48, 16, .status, false, fun _ => 0⟩,
     ⟨32, 16, .status, false, fun _ => 0⟩,
     ⟨16, 16, .status, false, fun _ => 0⟩,
     ⟨0, 8, .status, false, fun _ => 0⟩]⟩,
  -- PKG_SHADOW_SEL, Table 16-12
  ⟨0x110, [], [⟨0, 32, .live, false, fun _ => 0⟩]⟩,
  -- PKG_SHADOW_VIEW, Table 16-12
  ⟨0x118, [], [⟨0, 64, .status, false, fun _ => 0⟩]⟩,
  -- PKG_SHADOW_MASK, Table 16-12
  ⟨0x128, [], [⟨0, 64, .status, false, fun _ => 0⟩]⟩,
  -- PKG_MAINT_SET, Table 16-12
  ⟨0x130, [(2, 0x8)], [⟨0, 64, .live, false, fun _ => 0⟩]⟩]

/-- Registers of the group DIE d (Table 16-16). -/
def mapDie : List RegDef := [
  -- DIE_STATUS, Table 2-7
  ⟨0x1000000, [(8, 0x100000)], [⟨12, 4, .status, false, fun ix => edgePresent (ix.getD 0 0)⟩,
     ⟨8, 4, .status, false, fun _ => 0⟩,
     ⟨7, 1, .status, false, fun _ => 0⟩,
     ⟨6, 1, .status, false, fun ix => if ix.getD 0 0 = 0 ∨ ix.getD 0 0 = 7 then 1 else 0⟩,
     ⟨5, 1, .status, false, fun ix => if hbmDie (ix.getD 0 0) then 1 else 0⟩,
     ⟨4, 1, .status, false, fun ix => if ix.getD 0 0 = 0 then 1 else 0⟩,
     ⟨0, 3, .status, false, fun ix => ix.getD 0 0⟩]⟩,
  -- DIE_SPINE_CTRL, Table 2-8
  ⟨0x1000008, [(8, 0x100000)], [⟨0, 4, .commit, true, fun _ => 0⟩]⟩,
  -- DIE_FENCE_EPOCH, Table 2-9
  ⟨0x1000010, [(8, 0x100000)], [⟨40, 8, .status, false, fun _ => 0⟩,
     ⟨31, 1, .status, false, fun _ => 0⟩,
     ⟨28, 3, .status, false, fun _ => 0⟩,
     ⟨0, 16, .status, false, fun _ => 0⟩]⟩,
  -- DIE_FENCE_LINK, Table 2-10
  ⟨0x1000100, [(8, 0x100000), (4, 0x8)], [⟨0, 64, .status, false, fun _ => 0⟩]⟩,
  -- DIE_FENCE_CELL, Table 2-10
  ⟨0x1000120, [(8, 0x100000), (2, 0x8)], [⟨0, 64, .status, false, fun _ => 0⟩]⟩]

/-- Registers of the group router of die (Table 16-16). -/
def mapRtr : List RegDef := [
  -- SCRIM_RTR_STATUS, Table 2-11
  ⟨0x1010000, [(8, 0x100000), (16, 0x1000)], [⟨8, 5, .status, false, fun _ => 0⟩,
     ⟨4, 2, .status, false, fun _ => 0⟩,
     ⟨3, 1, .status, false, fun _ => 0⟩,
     ⟨0, 3, .status, false, fun _ => 0⟩]⟩,
  -- SCRIM_VC_WEIGHT, Table 2-12
  ⟨0x1010008, [(8, 0x100000), (16, 0x1000)], [⟨24, 4, .commit, true, fun _ => 2⟩,
     ⟨20, 4, .commit, true, fun _ => 2⟩,
     ⟨16, 4, .commit, true, fun _ => 1⟩,
     ⟨12, 4, .commit, true, fun _ => 4⟩,
     ⟨8, 4, .commit, true, fun _ => 2⟩,
     ⟨4, 4, .commit, true, fun _ => 8⟩,
     ⟨0, 4, .commit, true, fun _ => 4⟩]⟩,
  -- SCRIM_LINK_ERR, Table 2-13
  ⟨0x1010010, [(8, 0x100000), (16, 0x1000)], [⟨32, 16, .status, false, fun _ => 0⟩,
     ⟨16, 16, .status, false, fun _ => 0⟩,
     ⟨0, 16, .status, false, fun _ => 0⟩]⟩,
  -- SCRIM_ABSORB, Table 2-14
  ⟨0x1010018, [(8, 0x100000), (16, 0x1000)], [⟨48, 16, .status, false, fun _ => 0⟩,
     ⟨32, 16, .status, false, fun _ => 0⟩,
     ⟨16, 16, .status, false, fun _ => 0⟩,
     ⟨0, 16, .status, false, fun _ => 0⟩]⟩,
  -- SCRIM_STAT_CTRL, Table 2-15
  ⟨0x1010020, [(8, 0x100000), (16, 0x1000)], [⟨16, 48, .status, false, fun _ => 0⟩,
     ⟨8, 3, .live, false, fun _ => 3⟩,
     ⟨0, 1, .pulse, false, fun _ => 0⟩]⟩,
  -- SCRIM_INJ_BYTES, Table 2-16
  ⟨0x1010100, [(8, 0x100000), (16, 0x1000), (8, 0x8)], [⟨0, 64, .status, false, fun _ => 0⟩]⟩,
  -- SCRIM_EJ_BYTES, Table 2-16
  ⟨0x1010140, [(8, 0x100000), (16, 0x1000), (8, 0x8)], [⟨0, 64, .status, false, fun _ => 0⟩]⟩,
  -- SCRIM_INJ_STALL, Table 2-16
  ⟨0x1010180, [(8, 0x100000), (16, 0x1000)], [⟨0, 64, .status, false, fun _ => 0⟩]⟩,
  -- SCRIM_LAT_HIST, Table 2-17
  ⟨0x1010200, [(8, 0x100000), (16, 0x1000), (8, 0x8)], [⟨32, 32, .status, false, fun _ => 0⟩,
     ⟨0, 32, .status, false, fun _ => 0⟩]⟩,
  -- SCRIM_LAT_MAX, Table 2-18
  ⟨0x1010240, [(8, 0x100000), (16, 0x1000)], [⟨0, 32, .status, false, fun _ => 0⟩]⟩,
  -- SCRIM_DETOUR, Table 2-19
  ⟨0x1010400, [(8, 0x100000), (16, 0x1000), (32, 0x8)], [⟨48, 16, .status, false, fun _ => 0⟩,
     ⟨32, 16, .status, false, fun _ => 0⟩,
     ⟨16, 16, .status, false, fun _ => 0⟩,
     ⟨0, 16, .status, false, fun _ => 0⟩]⟩]

/-- Registers of the group Lath edge (Table 16-16). -/
def mapEdge : List RegDef := [
  -- DIE_LATH_STATUS, Table 2-20
  ⟨0x1020000, [(8, 0x100000), (4, 0x1000)], [⟨8, 4, .status, false, fun _ => 0⟩,
     ⟨4, 4, .status, false, fun _ => 0⟩,
     ⟨0, 3, .status, false, fun _ => 0⟩]⟩,
  -- DIE_LATH_CTRL, Table 2-20
  ⟨0x1020008, [(8, 0x100000), (4, 0x1000)], [⟨0, 8, .commit, true, fun _ => 20⟩]⟩,
  -- DIE_LATH_ERR, Table 2-20
  ⟨0x1020010, [(8, 0x100000), (4, 0x1000), (4, 0x8)], [⟨32, 16, .status, false, fun _ => 0⟩,
     ⟨16, 16, .status, false, fun _ => 0⟩,
     ⟨0, 16, .status, false, fun _ => 0⟩]⟩,
  -- SPILL_XING_EDGE, Table 4-13
  ⟨0x1020100, [(8, 0x100000), (4, 0x1000), (4, 0x8)], [⟨63, 1, .pulse, false, fun _ => 0⟩,
     ⟨48, 4, .status, false, fun ix => xingDepthEdge ix⟩,
     ⟨32, 16, .status, false, fun _ => 0⟩,
     ⟨16, 16, .status, false, fun _ => 0⟩,
     ⟨0, 16, .status, false, fun _ => 0⟩]⟩]

/-- Registers of the group crossbar (Table 16-16). -/
def mapXbar : List RegDef := [
  -- XBAR_STATUS, Table 3-7
  ⟨0x10010000, [(128, 0x100000)], [⟨32, 10, .status, false, fun _ => 0⟩,
     ⟨16, 10, .status, false, fun _ => 0⟩,
     ⟨8, 8, .status, false, fun _ => 0⟩,
     ⟨4, 1, .status, false, fun _ => 0⟩,
     ⟨2, 2, .status, false, fun ix => ix.getD 0 0 / 32⟩,
     ⟨0, 2, .status, true, fun _ => 0⟩]⟩,
  -- XBAR_SCHED, Table 3-8
  ⟨0x10010008, [(128, 0x100000)], [⟨0, 2, .commit, true, fun _ => 3⟩]⟩,
  -- XBAR_GPTR, Table 3-9
  ⟨0x10010010, [(128, 0x100000)], [⟨0, 40, .status, false, fun _ => 0⟩]⟩,
  -- XBAR_APTR, Table 3-9
  ⟨0x10010018, [(128, 0x100000)], [⟨0, 40, .status, false, fun _ => 0⟩]⟩,
  -- XBAR_TRACK, Table 3-10
  ⟨0x10010020, [(128, 0x100000)], [⟨32, 32, .status, false, fun _ => 0⟩,
     ⟨20, 10, .status, false, fun _ => 0⟩,
     ⟨10, 10, .status, false, fun _ => 0⟩,
     ⟨0, 1, .pulse, false, fun _ => 0⟩]⟩,
  -- XBAR_TRACK_CFG, Table 3-11
  ⟨0x10010028, [(128, 0x100000)], [⟨0, 10, .commit, true, fun _ => 32⟩]⟩,
  -- XBAR_BUF, Table 3-12
  ⟨0x10010030, [(128, 0x100000)], [⟨32, 16, .status, false, fun _ => 0⟩,
     ⟨16, 16, .status, true, fun _ => 11006⟩,
     ⟨0, 9, .status, true, fun _ => 258⟩]⟩,
  -- XBAR_RES, Table 3-13
  ⟨0x10010100, [(128, 0x100000), (10, 0x8)], [⟨56, 8, .commit, true, fun _ => 8⟩,
     ⟨48, 8, .commit, true, fun _ => 8⟩,
     ⟨40, 8, .commit, true, fun _ => 8⟩,
     ⟨32, 8, .commit, true, fun _ => 8⟩,
     ⟨24, 8, .commit, true, fun _ => 8⟩,
     ⟨16, 8, .commit, true, fun _ => 8⟩,
     ⟨8, 8, .commit, true, fun _ => 8⟩,
     ⟨0, 8, .commit, true, fun _ => 8⟩]⟩,
  -- XBAR_ALPHA, Table 3-14
  ⟨0x10010150, [(128, 0x100000)], [⟨32, 9, .commit, true, fun _ => 258⟩,
     ⟨0, 32, .commit, true, fun _ => 0x44444444⟩]⟩,
  -- XBAR_SKIM, Table 3-15
  ⟨0x10010158, [(128, 0x100000)], [⟨16, 1, .commit, true, fun _ => 0⟩,
     ⟨8, 8, .commit, true, fun _ => 0⟩,
     ⟨0, 8, .commit, true, fun _ => 0⟩]⟩,
  -- XBAR_SPILL_SHARE, Table 3-16
  ⟨0x10010160, [(128, 0x100000)], [⟨16, 4, .commit, true, fun _ => 4⟩,
     ⟨0, 16, .commit, true, fun _ => 64⟩]⟩,
  -- XBAR_SPILL_USE, Table 3-16
  ⟨0x10010168, [(128, 0x100000)], [⟨32, 32, .status, false, fun _ => 0⟩,
     ⟨0, 32, .status, false, fun _ => 0⟩]⟩,
  -- XBAR_CT, Table 3-17
  ⟨0x10010170, [(128, 0x100000)], [⟨8, 8, .commit, true, fun _ => 0⟩,
     ⟨0, 1, .commit, true, fun _ => 0⟩]⟩,
  -- XBAR_SAMP_CTRL, Table 3-18
  ⟨0x10010180, [(128, 0x100000)], [⟨32, 16, .commit, true, fun _ => 0⟩,
     ⟨16, 10, .commit, true, fun _ => 0⟩,
     ⟨8, 2, .commit, true, fun _ => 0⟩,
     ⟨1, 1, .commit, true, fun _ => 0⟩,
     ⟨0, 1, .commit, true, fun _ => 0⟩]⟩,
  -- XBAR_SAMP_CNT, Table 3-19
  ⟨0x10010188, [(128, 0x100000)], [⟨32, 32, .status, false, fun _ => 0⟩,
     ⟨0, 32, .status, false, fun _ => 0⟩]⟩,
  -- XBAR_MIR_CTRL, Table 3-20
  ⟨0x10010200, [(128, 0x100000), (4, 0x10)], [⟨32, 16, .commit, true, fun _ => 0⟩,
     ⟨24, 7, .commit, true, fun _ => 0⟩,
     ⟨16, 1, .commit, true, fun _ => 0⟩,
     ⟨9, 1, .commit, true, fun _ => 0⟩,
     ⟨8, 1, .commit, true, fun _ => 0⟩,
     ⟨0, 1, .commit, true, fun _ => 0⟩]⟩,
  -- XBAR_MIR_FILT, Table 3-20
  ⟨0x10010208, [(128, 0x100000), (4, 0x10)], [⟨52, 12, .commit, true, fun _ => 0⟩,
     ⟨51, 1, .commit, true, fun _ => 0⟩,
     ⟨40, 8, .commit, true, fun _ => 0⟩,
     ⟨24, 8, .commit, true, fun _ => 0⟩,
     ⟨16, 8, .commit, true, fun _ => 0⟩]⟩,
  -- XBAR_MIR_CNT, Table 3-21
  ⟨0x10010240, [(128, 0x100000), (4, 0x8)], [⟨32, 32, .status, false, fun _ => 0⟩,
     ⟨0, 32, .status, false, fun _ => 0⟩]⟩,
  -- XBAR_VOQ_SEL, Table 3-23
  ⟨0x10010380, [(128, 0x100000)], [⟨8, 4, .live, false, fun _ => 0⟩,
     ⟨4, 4, .live, false, fun _ => 0⟩,
     ⟨0, 3, .live, false, fun _ => 0⟩]⟩,
  -- XBAR_VOQ_VIEW, Table 3-23
  ⟨0x10010388, [(128, 0x100000)], [⟨63, 1, .status, false, fun _ => 0⟩,
     ⟨32, 24, .status, false, fun _ => 0⟩,
     ⟨16, 16, .status, false, fun _ => 0⟩,
     ⟨0, 16, .status, false, fun _ => 0⟩]⟩,
  -- XBAR_SKIMS, Table 3-22
  ⟨0x10010300, [(128, 0x100000)], [⟨0, 64, .status, false, fun _ => 0⟩]⟩,
  -- XBAR_RETURNS, Table 3-22
  ⟨0x10010308, [(128, 0x100000)], [⟨0, 64, .status, false, fun _ => 0⟩]⟩,
  -- XBAR_STOMPS, Table 3-22
  ⟨0x10010310, [(128, 0x100000)], [⟨0, 64, .status, false, fun _ => 0⟩]⟩,
  -- XBAR_CT_STARTS, Table 3-22
  ⟨0x10010318, [(128, 0x100000)], [⟨0, 64, .status, false, fun _ => 0⟩]⟩,
  -- XBAR_LATE_DISCARD, Table 3-22
  ⟨0x10010320, [(128, 0x100000)], [⟨0, 64, .status, false, fun _ => 0⟩]⟩,
  -- XBAR_ADMIT_WAIT, Table 3-22
  ⟨0x10010328, [(128, 0x100000)], [⟨0, 64, .status, false, fun _ => 0⟩]⟩,
  -- XBAR_UNDERRUN, Table 3-22
  ⟨0x10010330, [(128, 0x100000)], [⟨0, 64, .status, false, fun _ => 0⟩]⟩]

/-- Registers of the group spill (Table 16-16). -/
def mapSpill : List RegDef := [
  -- SPILL_CTX_SEL, Table 4-6
  ⟨0x10030000, [(128, 0x100000)], [⟨0, 6, .live, false, fun _ => 0⟩]⟩,
  -- SPILL_CTX_VIEW0, Table 4-7
  ⟨0x10030008, [(128, 0x100000)], [⟨63, 1, .status, false, fun _ => 0⟩,
     ⟨52, 4, .status, false, fun _ => 0⟩,
     ⟨48, 4, .status, false, fun _ => 0⟩,
     ⟨44, 3, .status, false, fun _ => 0⟩,
     ⟨24, 16, .status, false, fun _ => 0⟩,
     ⟨8, 16, .status, false, fun _ => 0⟩]⟩,
  -- SPILL_CTX_VIEW1, Table 4-8
  ⟨0x10030010, [(128, 0x100000)], [⟨62, 2, .status, false, fun _ => 0⟩,
     ⟨35, 21, .status, false, fun _ => 0⟩,
     ⟨29, 6, .status, false, fun _ => 0⟩,
     ⟨8, 21, .status, false, fun _ => 0⟩,
     ⟨2, 6, .status, false, fun _ => 0⟩,
     ⟨1, 1, .status, false, fun _ => 0⟩,
     ⟨0, 1, .status, false, fun _ => 0⟩]⟩,
  -- SPILL_CTX_VIEW2, Table 4-9
  ⟨0x10030018, [(128, 0x100000)], [⟨40, 24, .status, false, fun _ => 0⟩,
     ⟨19, 21, .status, false, fun _ => 0⟩]⟩,
  -- SPILL_STATUS, Table 4-10
  ⟨0x10030020, [(128, 0x100000)], [⟨8, 3, .status, false, fun _ => 0⟩,
     ⟨0, 7, .status, false, fun _ => 0⟩]⟩,
  -- SPILL_ERR, Table 4-11
  ⟨0x10030028, [(128, 0x100000)], [⟨48, 16, .status, false, fun _ => 0⟩,
     ⟨32, 16, .status, false, fun _ => 0⟩,
     ⟨16, 16, .status, false, fun _ => 0⟩,
     ⟨0, 16, .status, false, fun _ => 0⟩]⟩,
  -- SPILL_CHUNK_WAIT, Table 4-12
  ⟨0x10030030, [(128, 0x100000)], [⟨0, 64, .status, false, fun _ => 0⟩]⟩,
  -- SPILL_XING_CELL, Table 4-13
  ⟨0x10030100, [(128, 0x100000), (2, 0x8)], [⟨63, 1, .pulse, false, fun _ => 0⟩,
     ⟨48, 4, .status, false, fun ix => xingDepthCell ix⟩,
     ⟨32, 16, .status, false, fun _ => 0⟩,
     ⟨16, 16, .status, false, fun _ => 0⟩,
     ⟨0, 16, .status, false, fun _ => 0⟩]⟩]

/-- Registers of the group HBM spill side (Table 16-16). -/
def mapHbms : List RegDef := [
  -- SPILL_XING_HBM, Table 4-13
  ⟨0x1040900, [(8, 0x100000), (2, 0x8)], [⟨63, 1, .pulse, false, fun _ => 0⟩,
     ⟨48, 4, .status, false, fun ix => xingDepthHbm ix⟩,
     ⟨32, 16, .status, false, fun _ => 0⟩,
     ⟨16, 16, .status, false, fun _ => 0⟩,
     ⟨0, 16, .status, false, fun _ => 0⟩]⟩,
  -- SPILL_STACK_STATUS, Table 4-14
  ⟨0x1040800, [(8, 0x100000)], [⟨62, 2, .status, false, fun _ => 0⟩,
     ⟨32, 21, .status, true, fun _ => 1572864⟩,
     ⟨0, 21, .status, true, fun _ => 1048576⟩]⟩,
  -- SPILL_STACK_ERR, Table 4-15
  ⟨0x1040808, [(8, 0x100000)], [⟨32, 32, .status, false, fun _ => 0⟩,
     ⟨0, 32, .status, false, fun _ => 0⟩]⟩]

/-- Registers of the group gates and shapers (Table 16-16). -/
def mapGate : List RegDef := [
  -- GATE_CLASS_MAP, Table 5-4
  ⟨0x10020000, [(128, 0x100000)], [⟨8, 3, .static, true, fun _ => 3⟩,
     ⟨4, 3, .static, true, fun _ => 4⟩,
     ⟨0, 3, .static, true, fun _ => 6⟩]⟩,
  -- GATE_CTRL, Table 5-5
  ⟨0x10020008, [(128, 0x100000)], [⟨32, 8, .commit, true, fun _ => 8⟩,
     ⟨16, 6, .commit, true, fun _ => 0⟩,
     ⟨0, 1, .commit, true, fun _ => 0⟩]⟩,
  -- GATE_CYCLE, Table 5-6
  ⟨0x10020010, [(128, 0x100000)], [⟨0, 32, .commit, true, fun _ => 0⟩]⟩,
  -- GATE_BASE, Table 5-6
  ⟨0x10020018, [(128, 0x100000)], [⟨0, 64, .commit, true, fun _ => 0⟩]⟩,
  -- GATE_STATUS, Table 5-7
  ⟨0x10020020, [(128, 0x100000)], [⟨32, 8, .status, false, fun _ => 255⟩,
     ⟨16, 6, .status, false, fun _ => 0⟩,
     ⟨1, 1, .status, false, fun _ => 0⟩,
     ⟨0, 1, .clear, false, fun _ => 0⟩]⟩,
  -- GATE_CNT, Table 5-8
  ⟨0x10020028, [(128, 0x100000)], [⟨32, 32, .status, false, fun _ => 0⟩,
     ⟨16, 16, .status, false, fun _ => 0⟩,
     ⟨0, 16, .status, false, fun _ => 0⟩]⟩,
  -- GATE_LIST, Table 5-9
  ⟨0x10020100, [(128, 0x100000), (32, 0x8)], [⟨56, 8, .commit, true, fun _ => 0⟩,
     ⟨32, 24, .commit, true, fun _ => 0⟩,
     ⟨24, 8, .commit, true, fun _ => 0⟩,
     ⟨0, 24, .commit, true, fun _ => 0⟩]⟩,
  -- SHP_CFG, Table 5-10
  ⟨0x10020400, [(128, 0x100000), (5, 0x40), (8, 0x8)], [⟨32, 12, .commit, true, fun _ => 129⟩,
     ⟨16, 1, .commit, true, fun _ => 0⟩,
     ⟨0, 16, .commit, true, fun _ => 0⟩]⟩,
  -- SHP_CREDIT, Table 5-10
  ⟨0x10020600, [(128, 0x100000), (5, 0x40), (8, 0x8)], [⟨33, 1, .status, false, fun _ => 0⟩,
     ⟨32, 1, .status, false, fun _ => 0⟩,
     ⟨0, 32, .status, false, fun _ => 0⟩]⟩,
  -- SHP_OBS_CTRL, Table 5-11
  ⟨0x10020800, [(128, 0x100000)], [⟨48, 16, .commit, true, fun _ => 0⟩,
     ⟨32, 16, .commit, true, fun _ => 0⟩,
     ⟨1, 1, .commit, true, fun _ => 0⟩,
     ⟨0, 1, .pulse, false, fun _ => 0⟩]⟩,
  -- SHP_OBS_QSEL, Table 5-11
  ⟨0x10020808, [(128, 0x100000)], [⟨0, 8, .commit, true, fun _ => 0⟩,
     ⟨8, 8, .commit, true, fun _ => 0⟩,
     ⟨16, 8, .commit, true, fun _ => 0⟩,
     ⟨24, 8, .commit, true, fun _ => 0⟩]⟩,
  -- SHP_OBS_DLY, Table 5-12
  ⟨0x10020900, [(128, 0x100000), (4, 0x80), (8, 0x8)], [⟨32, 32, .status, false, fun _ => 0⟩,
     ⟨0, 32, .status, false, fun _ => 0⟩]⟩,
  -- SHP_OBS_DEP, Table 5-12
  ⟨0x10020940, [(128, 0x100000), (4, 0x80), (4, 0x8)], [⟨32, 32, .status, false, fun _ => 0⟩,
     ⟨0, 32, .status, false, fun _ => 0⟩]⟩,
  -- SHP_OBS_SUM, Table 5-12
  ⟨0x10020960, [(128, 0x100000), (4, 0x80)], [⟨32, 32, .status, false, fun _ => 0⟩,
     ⟨0, 32, .status, false, fun _ => 0⟩]⟩,
  -- SHP_OBS_MAX, Table 5-12
  ⟨0x10020968, [(128, 0x100000), (4, 0x80)], [⟨32, 32, .status, false, fun _ => 0⟩,
     ⟨0, 16, .status, false, fun _ => 0⟩]⟩]

/-- Registers of the group home (Table 16-16). -/
def mapHome : List RegDef := [
  -- HOME_STATUS, Table 6-9
  ⟨0x10040000, [(128, 0x100000)], [⟨32, 8, .status, true, fun _ => 1⟩,
     ⟨16, 5, .status, false, fun ix => 16 * (ix.getD 0 0 / 16 % 2) + ix.getD 0 0 % 16⟩,
     ⟨14, 2, .status, false, fun ix => dieQuarter (ix.getD 0 0 / 16)⟩,
     ⟨10, 2, .status, true, fun _ => 0⟩,
     ⟨8, 2, .status, true, fun _ => 0⟩,
     ⟨0, 2, .status, false, fun _ => 0⟩]⟩,
  -- HOME_CFG, Table 6-10
  ⟨0x10040008, [(128, 0x100000)], [⟨24, 8, .commit, true, fun _ => 100⟩,
     ⟨16, 1, .commit, true, fun _ => 0⟩,
     ⟨0, 9, .commit, true, fun _ => 256⟩]⟩,
  -- HOME_MAP, Table 6-11
  ⟨0x10040100, [(128, 0x100000), (16, 0x8)], [⟨0, 7, .status, true, fun ix => 8 * ix.getD 1 0 + 0⟩,
     ⟨8, 7, .status, true, fun ix => 8 * ix.getD 1 0 + 1⟩,
     ⟨16, 7, .status, true, fun ix => 8 * ix.getD 1 0 + 2⟩,
     ⟨24, 7, .status, true, fun ix => 8 * ix.getD 1 0 + 3⟩,
     ⟨32, 7, .status, true, fun ix => 8 * ix.getD 1 0 + 4⟩,
     ⟨40, 7, .status, true, fun ix => 8 * ix.getD 1 0 + 5⟩,
     ⟨48, 7, .status, true, fun ix => 8 * ix.getD 1 0 + 6⟩,
     ⟨56, 7, .status, true, fun ix => 8 * ix.getD 1 0 + 7⟩]⟩,
  -- HOME_SLOT, Table 6-12
  ⟨0x10040180, [(128, 0x100000), (12, 0x8)], [⟨7, 1, .static, true, fun _ => 0⟩,
     ⟨15, 1, .static, true, fun _ => 0⟩,
     ⟨23, 1, .static, true, fun _ => 0⟩,
     ⟨31, 1, .static, true, fun _ => 0⟩,
     ⟨39, 1, .static, true, fun _ => 0⟩,
     ⟨47, 1, .static, true, fun _ => 0⟩,
     ⟨55, 1, .static, true, fun _ => 0⟩,
     ⟨63, 1, .static, true, fun _ => 0⟩,
     ⟨0, 7, .static, true, fun _ => 0⟩,
     ⟨8, 7, .static, true, fun _ => 0⟩,
     ⟨16, 7, .static, true, fun _ => 0⟩,
     ⟨24, 7, .static, true, fun _ => 0⟩,
     ⟨32, 7, .static, true, fun _ => 0⟩,
     ⟨40, 7, .static, true, fun _ => 0⟩,
     ⟨48, 7, .static, true, fun _ => 0⟩,
     ⟨56, 7, .static, true, fun _ => 0⟩]⟩,
  -- HOME_TT, Table 6-13
  ⟨0x10040200, [(128, 0x100000)], [⟨49, 11, .status, false, fun _ => 0⟩,
     ⟨38, 11, .status, false, fun _ => 0⟩,
     ⟨31, 7, .status, false, fun _ => 0⟩,
     ⟨25, 6, .status, false, fun _ => 0⟩,
     ⟨16, 9, .status, false, fun _ => 0⟩,
     ⟨0, 1, .pulse, false, fun _ => 0⟩]⟩,
  -- HOME_INTAKE, Table 6-14
  ⟨0x10040208, [(128, 0x100000)], [⟨32, 18, .status, false, fun _ => 0⟩,
     ⟨14, 18, .status, false, fun _ => 0⟩,
     ⟨0, 9, .status, false, fun _ => 0⟩]⟩,
  -- HOME_REQS, Table 6-15
  ⟨0x10040300, [(128, 0x100000)], [⟨0, 64, .status, false, fun _ => 0⟩]⟩,
  -- HOME_HITS, Table 6-15
  ⟨0x10040308, [(128, 0x100000)], [⟨0, 64, .status, false, fun _ => 0⟩]⟩,
  -- HOME_MISSES, Table 6-15
  ⟨0x10040310, [(128, 0x100000)], [⟨0, 64, .status, false, fun _ => 0⟩]⟩,
  -- HOME_BISNPS, Table 6-15
  ⟨0x10040318, [(128, 0x100000)], [⟨0, 64, .status, false, fun _ => 0⟩]⟩,
  -- HOME_SNP_EXTRA, Table 6-15
  ⟨0x10040320, [(128, 0x100000)], [⟨0, 64, .status, false, fun _ => 0⟩]⟩,
  -- HOME_EVICTS, Table 6-15
  ⟨0x10040328, [(128, 0x100000)], [⟨0, 64, .status, false, fun _ => 0⟩]⟩,
  -- HOME_LATE, Table 6-15
  ⟨0x10040330, [(128, 0x100000)], [⟨0, 64, .status, false, fun _ => 0⟩]⟩,
  -- HOME_PROTO, Table 6-15
  ⟨0x10040338, [(128, 0x100000)], [⟨0, 64, .status, false, fun _ => 0⟩]⟩,
  -- HOME_LOST, Table 6-15
  ⟨0x10040340, [(128, 0x100000)], [⟨0, 64, .status, false, fun _ => 0⟩]⟩,
  -- HOME_PIN_WAIT, Table 6-15
  ⟨0x10040348, [(128, 0x100000)], [⟨0, 64, .status, false, fun _ => 0⟩]⟩,
  -- HOME_REISSUE_ADOPT, Table 6-15
  ⟨0x10040350, [(128, 0x100000)], [⟨0, 64, .status, false, fun _ => 0⟩]⟩,
  -- DIR_CACHE_ERR, Table 6-16
  ⟨0x10040400, [(128, 0x100000)], [⟨32, 32, .status, false, fun _ => 0⟩,
     ⟨0, 32, .status, false, fun _ => 0⟩]⟩,
  -- DIR_SEL, Table 6-16
  ⟨0x10040410, [(128, 0x100000)], [⟨46, 1, .pulse, false, fun _ => 0⟩,
     ⟨0, 46, .live, false, fun _ => 0⟩]⟩,
  -- DIR_VIEW0, Table 6-17
  ⟨0x10040418, [(128, 0x100000)], [⟨0, 64, .status, false, fun _ => 0⟩]⟩,
  -- DIR_VIEW1, Table 6-17
  ⟨0x10040420, [(128, 0x100000)], [⟨0, 64, .status, false, fun _ => 0⟩]⟩,
  -- DIR_VIEW2, Table 6-17
  ⟨0x10040428, [(128, 0x100000)], [⟨63, 1, .status, false, fun _ => 0⟩,
     ⟨62, 1, .status, false, fun _ => 0⟩,
     ⟨61, 1, .status, false, fun _ => 0⟩,
     ⟨60, 1, .status, false, fun _ => 0⟩,
     ⟨50, 10, .status, false, fun _ => 0⟩,
     ⟨46, 4, .status, false, fun _ => 0⟩,
     ⟨26, 20, .status, false, fun _ => 0⟩,
     ⟨0, 7, .status, false, fun _ => 0⟩]⟩,
  -- HOME_PROXY_STATUS, Table 7-10
  ⟨0x10040500, [(128, 0x100000)], [⟨39, 9, .status, false, fun _ => 0⟩,
     ⟨26, 13, .status, false, fun _ => 0⟩,
     ⟨13, 13, .status, false, fun _ => 0⟩,
     ⟨0, 1, .pulse, false, fun _ => 0⟩]⟩,
  -- HOME_PROXY_CFG, Table 7-11
  ⟨0x10040508, [(128, 0x100000)], [⟨0, 16, .commit, true, fun _ => 100⟩]⟩,
  -- HOME_PARK, Table 7-12
  ⟨0x10040510, [(128, 0x100000)], [⟨26, 6, .status, false, fun _ => 0⟩,
     ⟨21, 5, .status, false, fun _ => 0⟩,
     ⟨16, 5, .status, false, fun _ => 0⟩,
     ⟨0, 10, .status, false, fun _ => 0⟩]⟩,
  -- HOME_TAKE, Table 7-13
  ⟨0x10040518, [(128, 0x100000)], [⟨48, 16, .status, false, fun _ => 0⟩,
     ⟨40, 8, .status, false, fun _ => 0⟩,
     ⟨32, 7, .status, false, fun _ => 0⟩,
     ⟨30, 2, .status, false, fun _ => 0⟩,
     ⟨0, 18, .status, false, fun _ => 0⟩]⟩,
  -- HOME_TWIN, Table 7-14
  ⟨0x10040580, [(128, 0x100000), (12, 0x8)], [⟨7, 1, .static, true, fun _ => 0⟩,
     ⟨15, 1, .static, true, fun _ => 0⟩,
     ⟨23, 1, .static, true, fun _ => 0⟩,
     ⟨31, 1, .static, true, fun _ => 0⟩,
     ⟨39, 1, .static, true, fun _ => 0⟩,
     ⟨47, 1, .static, true, fun _ => 0⟩,
     ⟨55, 1, .static, true, fun _ => 0⟩,
     ⟨63, 1, .static, true, fun _ => 0⟩,
     ⟨0, 7, .static, true, fun _ => 0⟩,
     ⟨8, 7, .static, true, fun _ => 0⟩,
     ⟨16, 7, .static, true, fun _ => 0⟩,
     ⟨24, 7, .static, true, fun _ => 0⟩,
     ⟨32, 7, .static, true, fun _ => 0⟩,
     ⟨40, 7, .static, true, fun _ => 0⟩,
     ⟨48, 7, .static, true, fun _ => 0⟩,
     ⟨56, 7, .static, true, fun _ => 0⟩]⟩,
  -- HOME_FWDS, Table 7-15
  ⟨0x10040600, [(128, 0x100000)], [⟨0, 64, .status, false, fun _ => 0⟩]⟩,
  -- HOME_PROXY_LOCAL, Table 7-15
  ⟨0x10040608, [(128, 0x100000)], [⟨0, 64, .status, false, fun _ => 0⟩]⟩,
  -- HOME_PROXY_FWD, Table 7-15
  ⟨0x10040610, [(128, 0x100000)], [⟨0, 64, .status, false, fun _ => 0⟩]⟩,
  -- HOME_PROXY_NOENT, Table 7-15
  ⟨0x10040618, [(128, 0x100000)], [⟨0, 64, .status, false, fun _ => 0⟩]⟩,
  -- HOME_PROXY_DROPS, Table 7-15
  ⟨0x10040620, [(128, 0x100000)], [⟨0, 64, .status, false, fun _ => 0⟩]⟩,
  -- HOME_INSTALL_SKIP, Table 7-15
  ⟨0x10040628, [(128, 0x100000)], [⟨0, 64, .status, false, fun _ => 0⟩]⟩,
  -- HOME_PARKS, Table 7-15
  ⟨0x10040630, [(128, 0x100000)], [⟨0, 64, .status, false, fun _ => 0⟩]⟩,
  -- HOME_BIRSP_HOLD, Table 7-15
  ⟨0x10040638, [(128, 0x100000)], [⟨0, 64, .status, false, fun _ => 0⟩]⟩]

/-- Registers of the group HBM directory side (Table 16-16). -/
def mapHbmd : List RegDef := [
  -- DIR_STACK_STATUS, Table 6-18
  ⟨0x1040400, [(8, 0x100000)], [⟨8, 2, .status, false, fun ix => dieQuarter (ix.getD 0 0)⟩,
     ⟨6, 2, .status, false, fun ix => dieQuarter ((ix.getD 0 0 + 4) % 8)⟩,
     ⟨3, 3, .status, false, fun _ => 0⟩,
     ⟨0, 3, .status, false, fun _ => 0⟩]⟩,
  -- DIR_STACK_ERR, Table 6-19
  ⟨0x1040408, [(8, 0x100000)], [⟨48, 16, .status, false, fun _ => 0⟩,
     ⟨32, 16, .status, false, fun _ => 0⟩,
     ⟨0, 32, .status, false, fun _ => 0⟩]⟩,
  -- DIR_STACK_LAT, Table 6-19
  ⟨0x1040410, [(8, 0x100000)], [⟨32, 32, .status, false, fun _ => 0⟩,
     ⟨0, 32, .status, false, fun _ => 0⟩]⟩,
  -- DIR_REBUILD_CTRL, Table 7-16
  ⟨0x1040418, [(8, 0x100000)], [⟨0, 8, .commit, true, fun _ => 16⟩]⟩,
  -- DIR_REBUILD_STATUS, Table 7-16
  ⟨0x1040420, [(8, 0x100000)], [⟨63, 1, .status, false, fun _ => 0⟩,
     ⟨61, 2, .status, false, fun _ => 0⟩,
     ⟨60, 1, .status, false, fun _ => 0⟩,
     ⟨58, 2, .status, false, fun _ => 0⟩,
     ⟨32, 26, .status, false, fun _ => 0⟩,
     ⟨0, 32, .status, false, fun _ => 0⟩]⟩]

/-- Registers of the group INST window (Table 16-16). -/
def mapInst : List RegDef := [
  -- INST_INFO, Table 8-12
  ⟨0x20000000, [(4096, 0x1000)], [⟨53, 1, .status, false, fun _ => 0⟩,
     ⟨52, 1, .status, false, fun _ => 0⟩,
     ⟨40, 12, .status, false, fun _ => 0⟩,
     ⟨32, 8, .status, false, fun _ => 0⟩,
     ⟨28, 4, .status, false, fun _ => 0⟩,
     ⟨18, 7, .status, false, fun _ => 0⟩,
     ⟨12, 6, .status, false, fun _ => 0⟩,
     ⟨0, 12, .status, false, fun ix => ix.getD 0 0⟩]⟩,
  -- INST_CAP, Table 8-13
  ⟨0x20000008, [(4096, 0x1000)], [⟨32, 16, .status, false, fun _ => 0⟩,
     ⟨16, 16, .status, false, fun _ => 0⟩,
     ⟨0, 16, .status, false, fun _ => 0⟩]⟩,
  -- INST_EVENT, Table 8-13
  ⟨0x20000018, [(4096, 0x1000)], [⟨48, 8, .status, false, fun _ => 0⟩,
     ⟨0, 48, .status, false, fun _ => 0⟩]⟩,
  -- INST_COPY_SRC, Table 8-14
  ⟨0x20000100, [(4096, 0x1000)], [⟨0, 64, .live, false, fun _ => 0⟩]⟩,
  -- INST_COPY_DST, Table 8-14
  ⟨0x20000108, [(4096, 0x1000)], [⟨0, 64, .live, false, fun _ => 0⟩]⟩,
  -- INST_COPY_CTRL, Table 8-14
  ⟨0x20000110, [(4096, 0x1000)], [⟨16, 14, .live, false, fun _ => 0⟩,
     ⟨2, 1, .clear, false, fun _ => 0⟩,
     ⟨1, 1, .status, false, fun _ => 0⟩,
     ⟨0, 1, .pulse, false, fun _ => 0⟩]⟩,
  -- INST_COPY_STATUS, Table 8-14
  ⟨0x20000118, [(4096, 0x1000)], [⟨0, 4, .status, false, fun _ => 0⟩,
     ⟨4, 4, .status, false, fun _ => 0⟩,
     ⟨8, 4, .status, false, fun _ => 0⟩,
     ⟨12, 4, .status, false, fun _ => 0⟩,
     ⟨16, 4, .status, false, fun _ => 0⟩,
     ⟨20, 4, .status, false, fun _ => 0⟩,
     ⟨24, 4, .status, false, fun _ => 0⟩,
     ⟨28, 4, .status, false, fun _ => 0⟩,
     ⟨32, 4, .status, false, fun _ => 0⟩,
     ⟨36, 4, .status, false, fun _ => 0⟩,
     ⟨40, 4, .status, false, fun _ => 0⟩,
     ⟨44, 4, .status, false, fun _ => 0⟩,
     ⟨48, 4, .status, false, fun _ => 0⟩,
     ⟨52, 4, .status, false, fun _ => 0⟩,
     ⟨56, 4, .status, false, fun _ => 0⟩,
     ⟨60, 4, .status, false, fun _ => 0⟩]⟩,
  -- INST_BIND, Table 8-15
  ⟨0x20000800, [(4096, 0x1000)], [⟨29, 7, .live, false, fun _ => 0⟩,
     ⟨23, 6, .live, false, fun _ => 0⟩,
     ⟨18, 2, .live, false, fun _ => 0⟩,
     ⟨16, 2, .live, false, fun _ => 0⟩,
     ⟨2, 1, .clear, false, fun _ => 0⟩,
     ⟨1, 1, .status, false, fun _ => 0⟩,
     ⟨0, 1, .pulse, false, fun _ => 0⟩]⟩,
  -- INST_SHARE0, Table 8-16
  ⟨0x20000808, [(4096, 0x1000)], [⟨32, 11, .commit, true, fun _ => 0⟩,
     ⟨16, 10, .commit, true, fun _ => 0⟩,
     ⟨0, 10, .commit, true, fun _ => 0⟩]⟩,
  -- INST_SHARE1, Table 8-16
  ⟨0x20000810, [(4096, 0x1000)], [⟨32, 12, .commit, true, fun _ => 0⟩,
     ⟨0, 12, .commit, true, fun _ => 0⟩]⟩,
  -- INST_USE, Table 8-16
  ⟨0x20000818, [(4096, 0x1000)], [⟨32, 11, .status, false, fun _ => 0⟩,
     ⟨16, 10, .status, false, fun _ => 0⟩,
     ⟨0, 1, .status, false, fun _ => 0⟩]⟩,
  -- INST_MIG, Table 8-17
  ⟨0x20000820, [(4096, 0x1000)], [⟨43, 5, .live, false, fun _ => 0⟩,
     ⟨36, 7, .live, false, fun _ => 0⟩,
     ⟨30, 6, .live, false, fun _ => 0⟩,
     ⟨16, 2, .live, false, fun _ => 0⟩,
     ⟨12, 3, .live, false, fun _ => 0⟩,
     ⟨2, 1, .clear, false, fun _ => 0⟩,
     ⟨1, 1, .status, false, fun _ => 0⟩,
     ⟨0, 1, .pulse, false, fun _ => 0⟩]⟩,
  -- INST_MIG_STATUS, Table 8-17
  ⟨0x20000828, [(4096, 0x1000)], [⟨48, 16, .status, false, fun _ => 0⟩,
     ⟨32, 16, .status, false, fun _ => 0⟩,
     ⟨24, 8, .status, false, fun _ => 0⟩,
     ⟨20, 4, .status, false, fun _ => 0⟩,
     ⟨16, 4, .status, false, fun _ => 0⟩]⟩,
  -- INST_CTR_CTL, Table 17-8
  ⟨0x20000040, [(4096, 0x1000)], [⟨1, 2, .status, true, fun _ => 0⟩,
     ⟨0, 1, .pulse, false, fun _ => 0⟩]⟩,
  -- INST_CTR_TIME, Table 17-8
  ⟨0x20000048, [(4096, 0x1000)], [⟨0, 64, .status, false, fun _ => 0⟩]⟩,
  -- INST_CTR_READS, Table 17-8
  ⟨0x20000050, [(4096, 0x1000)], [⟨0, 64, .status, false, fun _ => 0⟩]⟩,
  -- INST_CTR_WRITES, Table 17-8
  ⟨0x20000058, [(4096, 0x1000)], [⟨0, 64, .status, false, fun _ => 0⟩]⟩,
  -- INST_CTR_RD_LAT, Table 17-8
  ⟨0x20000060, [(4096, 0x1000)], [⟨0, 64, .status, false, fun _ => 0⟩]⟩,
  -- INST_CTR_HOLD_NS, Table 17-8
  ⟨0x20000068, [(4096, 0x1000)], [⟨0, 64, .status, false, fun _ => 0⟩]⟩,
  -- INST_CTR_THROTTLE_NS, Table 17-8
  ⟨0x20000070, [(4096, 0x1000)], [⟨0, 64, .status, false, fun _ => 0⟩]⟩]

/-- Registers of the group instance contexts (Table 16-16). -/
def mapIctx : List RegDef := [
  -- INST_PORT_STATUS, Table 8-18
  ⟨0x10080000, [(128, 0x100000)], [⟨32, 11, .status, false, fun _ => 0⟩,
     ⟨16, 7, .status, false, fun _ => 0⟩,
     ⟨0, 1, .status, false, fun _ => 0⟩]⟩,
  -- INST_PORT_CFG, Table 8-18
  ⟨0x10080008, [(128, 0x100000)], [⟨0, 16, .commit, true, fun _ => 1000⟩]⟩,
  -- INST_VPPB, Table 8-19
  ⟨0x10080100, [(128, 0x100000), (64, 0x8)], [⟨62, 2, .status, false, fun _ => 0⟩,
     ⟨60, 2, .status, false, fun _ => 0⟩,
     ⟨0, 12, .status, false, fun _ => 0⟩]⟩,
  -- INST_EXT_SEL, Table 8-20
  ⟨0x10080400, [(128, 0x100000)], [⟨0, 16, .live, false, fun _ => 0⟩]⟩,
  -- INST_EXT_VIEW, Table 8-20
  ⟨0x10080408, [(128, 0x100000)], [⟨32, 32, .status, false, fun _ => 0⟩,
     ⟨17, 15, .status, false, fun _ => 0⟩,
     ⟨15, 2, .status, false, fun _ => 0⟩,
     ⟨0, 12, .status, false, fun _ => 0⟩]⟩,
  -- INST_MEM_ERR, Table 8-20
  ⟨0x10080410, [(128, 0x100000)], [⟨32, 16, .status, false, fun _ => 0⟩,
     ⟨16, 16, .status, false, fun _ => 0⟩,
     ⟨0, 16, .status, false, fun _ => 0⟩]⟩]

/-- Registers of the group engines (Table 16-16). -/
def mapEng : List RegDef := [
  -- INST_ENG_STATUS, Table 8-21
  ⟨0x1050000, [(8, 0x100000)], [⟨48, 12, .status, false, fun _ => 0⟩,
     ⟨24, 12, .status, false, fun _ => 0⟩,
     ⟨16, 8, .status, false, fun _ => 0⟩,
     ⟨0, 16, .status, false, fun _ => 0⟩]⟩,
  -- INST_ENG_CFG, Table 8-21
  ⟨0x1050008, [(8, 0x100000)], [⟨8, 8, .commit, true, fun _ => 8⟩,
     ⟨0, 8, .commit, true, fun _ => 16⟩]⟩,
  -- INST_PRESS_OP, Table 8-22
  ⟨0x1050010, [(8, 0x100000)], [⟨16, 16, .live, false, fun _ => 0⟩,
     ⟨3, 1, .pulse, false, fun _ => 0⟩,
     ⟨2, 1, .clear, false, fun _ => 0⟩,
     ⟨1, 1, .status, false, fun _ => 0⟩,
     ⟨0, 1, .pulse, false, fun _ => 0⟩]⟩,
  -- INST_PRESS_STATUS, Table 8-22
  ⟨0x1050018, [(8, 0x100000)], [⟨0, 4, .status, false, fun _ => 0⟩,
     ⟨4, 4, .status, false, fun _ => 0⟩,
     ⟨8, 4, .status, false, fun _ => 0⟩,
     ⟨12, 4, .status, false, fun _ => 0⟩,
     ⟨16, 4, .status, false, fun _ => 0⟩,
     ⟨20, 4, .status, false, fun _ => 0⟩,
     ⟨24, 4, .status, false, fun _ => 0⟩,
     ⟨28, 4, .status, false, fun _ => 0⟩,
     ⟨32, 4, .status, false, fun _ => 0⟩,
     ⟨36, 4, .status, false, fun _ => 0⟩,
     ⟨40, 4, .status, false, fun _ => 0⟩,
     ⟨44, 4, .status, false, fun _ => 0⟩,
     ⟨48, 4, .status, false, fun _ => 0⟩,
     ⟨52, 4, .status, false, fun _ => 0⟩,
     ⟨56, 4, .status, false, fun _ => 0⟩,
     ⟨60, 4, .status, false, fun _ => 0⟩]⟩,
  -- INST_PRESS_PART, Table 8-22
  ⟨0x1050100, [(8, 0x100000), (16, 0x8)], [⟨48, 16, .live, false, fun _ => 0⟩,
     ⟨40, 1, .live, false, fun _ => 0⟩,
     ⟨25, 7, .live, false, fun _ => 0⟩,
     ⟨0, 12, .live, false, fun _ => 0⟩]⟩]

/-- Registers of the group protection (Table 16-16). -/
def mapProt : List RegDef := [
  -- PROT_STATUS, Table 9-11
  ⟨0x10050000, [(128, 0x100000)], [⟨32, 11, .status, true, fun _ => 0⟩,
     ⟨16, 7, .status, false, fun _ => 0⟩,
     ⟨0, 2, .status, false, fun _ => 0⟩]⟩,
  -- PROT_CFG, Table 9-11
  ⟨0x10050008, [(128, 0x100000)], [⟨16, 1, .static, true, fun _ => 0⟩,
     ⟨0, 16, .commit, true, fun _ => 200⟩]⟩,
  -- PROT_COMMIT_ERR, Table 9-12
  ⟨0x10050010, [(128, 0x100000)], [⟨56, 8, .status, false, fun _ => 0⟩,
     ⟨40, 10, .status, false, fun _ => 0⟩,
     ⟨24, 10, .status, false, fun _ => 0⟩,
     ⟨16, 7, .status, false, fun _ => 0⟩,
     ⟨0, 1, .clear, false, fun _ => 0⟩]⟩,
  -- PROT_VIOL_CNT, Table 9-13
  ⟨0x10050018, [(128, 0x100000)], [⟨32, 32, .status, false, fun _ => 0⟩,
     ⟨0, 32, .status, false, fun _ => 0⟩]⟩,
  -- PROT_VLOG_PTR, Table 9-13
  ⟨0x10050020, [(128, 0x100000)], [⟨8, 6, .status, false, fun _ => 0⟩,
     ⟨0, 6, .live, false, fun _ => 0⟩]⟩,
  -- PROT_VLOG, Table 9-14
  ⟨0x10051000, [(128, 0x100000), (64, 0x20), (4, 0x8)], [⟨0, 64, .status, false, fun _ => 0⟩]⟩,
  -- PROT_REGION, Table 9-15
  ⟨0x10054000, [(128, 0x100000), (1024, 0x20), (4, 0x8)], [⟨0, 64, .commit, true, fun _ => 0⟩]⟩]

/-- Registers of the group SEC (Table 16-16). -/
def mapSec : List RegDef := [
  -- SEC_STATUS, Table 9-16
  ⟨0x400000, [], [⟨32, 14, .status, false, fun _ => 0⟩,
     ⟨16, 7, .status, false, fun _ => 0⟩,
     ⟨2, 1, .status, false, fun _ => 0⟩,
     ⟨1, 1, .status, false, fun _ => 0⟩,
     ⟨0, 1, .status, false, fun _ => 0⟩]⟩,
  -- SEC_CFG, Table 9-16
  ⟨0x400008, [], [⟨32, 8, .commit, true, fun _ => 8⟩,
     ⟨0, 16, .commit, true, fun _ => 0⟩]⟩,
  -- SEC_SLOT_SEL, Table 9-17
  ⟨0x400010, [], [⟨0, 13, .live, false, fun _ => 0⟩]⟩,
  -- SEC_SLOT_VIEW, Table 9-17
  ⟨0x400018, [], [⟨61, 3, .status, false, fun _ => 0⟩,
     ⟨60, 1, .status, false, fun _ => 0⟩,
     ⟨48, 12, .status, false, fun _ => 0⟩,
     ⟨0, 32, .status, false, fun _ => 0⟩]⟩,
  -- SEC_ROTATE, Table 9-18
  ⟨0x400020, [], [⟨28, 1, .live, false, fun _ => 0⟩,
     ⟨16, 12, .live, false, fun _ => 0⟩,
     ⟨2, 1, .clear, false, fun _ => 0⟩,
     ⟨1, 1, .status, false, fun _ => 0⟩,
     ⟨0, 1, .pulse, false, fun _ => 0⟩]⟩,
  -- SEC_ROT_STATUS, Table 9-18
  ⟨0x400028, [], [⟨48, 16, .status, false, fun _ => 0⟩,
     ⟨35, 13, .status, false, fun _ => 0⟩,
     ⟨22, 13, .status, false, fun _ => 0⟩,
     ⟨20, 2, .status, false, fun _ => 0⟩]⟩,
  -- SEC_KEY_CNT, Table 9-18
  ⟨0x400030, [], [⟨32, 32, .status, false, fun _ => 0⟩,
     ⟨0, 32, .status, false, fun _ => 0⟩]⟩,
  -- SEC_IDE, Table 9-19
  ⟨0x400400, [(128, 0x8)], [⟨32, 32, .status, false, fun _ => 0⟩,
     ⟨16, 16, .status, false, fun _ => 0⟩,
     ⟨0, 2, .status, false, fun _ => 0⟩]⟩]

/-- Registers of the group CELL port (Table 16-16). -/
def mapPort : List RegDef := [
  -- LANE_PORT_STATUS, Table 10-7
  ⟨0x10000000, [(128, 0x100000)], [⟨48, 16, .status, false, fun _ => 0⟩,
     ⟨32, 16, .status, false, fun _ => 0⟩,
     ⟨24, 5, .status, false, fun _ => 0⟩,
     ⟨16, 4, .status, false, fun _ => 0⟩,
     ⟨12, 4, .status, false, fun _ => 0⟩,
     ⟨11, 1, .status, false, fun _ => 0⟩,
     ⟨10, 1, .static, true, fun _ => 0⟩,
     ⟨4, 3, .status, false, fun _ => 0⟩,
     ⟨3, 1, .status, false, fun _ => 0⟩]⟩,
  -- LANE_PORT_CFG, Table 10-8
  ⟨0x10000008, [(128, 0x100000)], [⟨40, 8, .commit, true, fun _ => 16⟩,
     ⟨32, 8, .commit, true, fun _ => 10⟩,
     ⟨16, 1, .commit, true, fun _ => 1⟩,
     ⟨8, 4, .static, true, fun _ => 0⟩,
     ⟨0, 5, .static, true, fun _ => 0⟩]⟩,
  -- LANE_PORT_CTRL, Table 10-9
  ⟨0x10000010, [(128, 0x100000)], [⟨8, 4, .live, false, fun _ => 3⟩,
     ⟨4, 1, .status, false, fun _ => 0⟩,
     ⟨3, 1, .clear, false, fun _ => 0⟩,
     ⟨2, 1, .pulse, false, fun _ => 0⟩,
     ⟨1, 1, .pulse, false, fun _ => 0⟩,
     ⟨0, 1, .pulse, false, fun _ => 0⟩]⟩,
  -- LANE_PORT_EVT, Table 10-10
  ⟨0x10000018, [(128, 0x100000)], [⟨48, 16, .status, false, fun _ => 0⟩,
     ⟨32, 16, .status, false, fun _ => 0⟩,
     ⟨16, 16, .status, false, fun _ => 0⟩,
     ⟨0, 16, .status, false, fun _ => 0⟩]⟩]

/-- Registers of the group lane (Table 16-16). -/
def mapLane : List RegDef := [
  -- LANE_STATUS, Table 10-11
  ⟨0x10000100, [(128, 0x100000), (4, 0x80)], [⟨7, 1, .status, false, fun _ => 0⟩,
     ⟨6, 1, .status, false, fun _ => 0⟩,
     ⟨5, 1, .status, false, fun _ => 0⟩,
     ⟨4, 1, .status, false, fun _ => 0⟩,
     ⟨3, 1, .status, false, fun _ => 0⟩,
     ⟨0, 3, .status, false, fun _ => 0⟩]⟩,
  -- LANE_TXEQ, Table 10-11
  ⟨0x10000108, [(128, 0x100000), (4, 0x80)], [⟨36, 4, .status, false, fun _ => 15⟩,
     ⟨28, 7, .status, false, fun _ => 0⟩,
     ⟨21, 7, .status, false, fun _ => 0⟩,
     ⟨14, 7, .status, false, fun _ => 0⟩,
     ⟨7, 7, .status, false, fun _ => 0⟩,
     ⟨0, 7, .status, false, fun _ => 0⟩]⟩,
  -- LANE_RXEQ, Table 10-12
  ⟨0x10000110, [(128, 0x100000), (4, 0x80)], [⟨48, 16, .status, false, fun _ => 0⟩,
     ⟨40, 8, .status, false, fun _ => 0⟩,
     ⟨32, 8, .status, false, fun _ => 0⟩]⟩,
  -- LANE_ERR, Table 10-12
  ⟨0x10000118, [(128, 0x100000), (4, 0x80)], [⟨32, 32, .status, false, fun _ => 0⟩,
     ⟨16, 16, .status, false, fun _ => 0⟩,
     ⟨0, 16, .status, false, fun _ => 0⟩]⟩,
  -- LANE_TEST, Table 10-13
  ⟨0x10000120, [(128, 0x100000), (4, 0x80)], [⟨28, 4, .live, false, fun _ => 0⟩,
     ⟨27, 1, .live, false, fun _ => 0⟩,
     ⟨26, 1, .pulse, false, fun _ => 0⟩,
     ⟨20, 4, .live, false, fun _ => 0⟩,
     ⟨12, 4, .live, false, fun _ => 0⟩,
     ⟨11, 1, .live, false, fun _ => 0⟩,
     ⟨4, 4, .live, false, fun _ => 0⟩,
     ⟨3, 1, .live, false, fun _ => 0⟩]⟩,
  -- LANE_PRBS_STAT, Table 10-14
  ⟨0x10000128, [(128, 0x100000), (4, 0x80)], [⟨63, 1, .status, false, fun _ => 0⟩,
     ⟨48, 15, .status, false, fun _ => 0⟩,
     ⟨0, 48, .status, false, fun _ => 0⟩]⟩,
  -- LANE_PRBS_BITS, Table 10-14
  ⟨0x10000130, [(128, 0x100000), (4, 0x80)], [⟨0, 64, .status, false, fun _ => 0⟩]⟩]

/-- Registers of the group MGR (Table 16-16). -/
def mapMgr : List RegDef := [
  -- LANE_M_CTRL, Table 10-15
  ⟨0x200800, [], [⟨2, 2, .live, false, fun _ => 0⟩,
     ⟨1, 1, .live, false, fun _ => 0⟩]⟩,
  -- LANE_M_STATUS, Table 10-15
  ⟨0x200808, [], [⟨4, 2, .status, false, fun _ => 0⟩,
     ⟨2, 2, .status, false, fun _ => 0⟩,
     ⟨1, 1, .status, false, fun _ => 0⟩,
     ⟨0, 1, .status, false, fun _ => 0⟩]⟩,
  -- LANE_M_ERR, Table 10-16
  ⟨0x200840, [(2, 0x8)], [⟨48, 16, .status, false, fun _ => 0⟩,
     ⟨32, 16, .status, false, fun _ => 0⟩,
     ⟨16, 16, .status, false, fun _ => 0⟩,
     ⟨0, 16, .status, false, fun _ => 0⟩]⟩,
  -- LANE_M_FRAMES, Table 10-16
  ⟨0x200850, [], [⟨32, 32, .status, false, fun _ => 0⟩,
     ⟨0, 32, .status, false, fun _ => 0⟩]⟩,
  -- MGR_LEASE, Table 16-13
  ⟨0x200000, [], [⟨40, 24, .status, false, fun _ => 0⟩,
     ⟨24, 16, .status, false, fun _ => 0⟩,
     ⟨16, 8, .status, false, fun _ => 0⟩,
     ⟨8, 7, .status, false, fun _ => 0⟩,
     ⟨2, 2, .status, false, fun _ => 0⟩,
     ⟨0, 1, .status, false, fun _ => 0⟩]⟩,
  -- MGR_LEASE_CFG, Table 16-13
  ⟨0x200008, [], [⟨33, 1, .static, true, fun _ => 0⟩,
     ⟨32, 1, .static, true, fun _ => 0⟩,
     ⟨18, 7, .static, true, fun _ => 0x7F⟩,
     ⟨16, 2, .static, true, fun _ => 1⟩,
     ⟨0, 16, .static, true, fun _ => 1000⟩]⟩,
  -- MGR_ZMP_CNT, Table 16-14
  ⟨0x200010, [], [⟨32, 32, .status, false, fun _ => 0⟩,
     ⟨16, 16, .status, false, fun _ => 0⟩,
     ⟨8, 8, .status, false, fun _ => 0⟩,
     ⟨0, 8, .status, false, fun _ => 0⟩]⟩,
  -- MGR_ACCESS_CNT, Table 16-14
  ⟨0x200018, [], [⟨32, 32, .status, false, fun _ => 0⟩,
     ⟨16, 16, .status, false, fun _ => 0⟩,
     ⟨0, 16, .status, false, fun _ => 0⟩]⟩]

/-- Registers of the group Onora (Table 16-16). -/
def mapOnl : List RegDef := [
  -- ONL_STATUS, Table 11-11
  ⟨0x10070000, [(128, 0x100000)], [⟨54, 5, .status, false, fun _ => 0⟩,
     ⟨51, 3, .status, false, fun _ => 0⟩,
     ⟨44, 7, .status, false, fun _ => 0⟩,
     ⟨36, 3, .status, false, fun _ => 0⟩,
     ⟨31, 3, .status, false, fun _ => 0⟩,
     ⟨0, 3, .status, false, fun _ => 0⟩]⟩,
  -- ONL_CFG, Table 11-12
  ⟨0x10070008, [(128, 0x100000)], [⟨16, 7, .static, true, fun _ => 0⟩,
     ⟨8, 5, .static, true, fun _ => 0⟩,
     ⟨4, 4, .commit, true, fun _ => 3⟩,
     ⟨2, 1, .static, true, fun _ => 0⟩,
     ⟨1, 1, .static, true, fun _ => 0⟩]⟩,
  -- ONL_CTRL, Table 11-12
  ⟨0x10070010, [(128, 0x100000)], [⟨2, 1, .status, false, fun _ => 0⟩,
     ⟨1, 1, .clear, false, fun _ => 0⟩,
     ⟨0, 1, .pulse, false, fun _ => 0⟩]⟩,
  -- ONL_SEQ, Table 11-13
  ⟨0x10070018, [(128, 0x100000)], [⟨48, 12, .status, false, fun _ => 0⟩,
     ⟨32, 12, .status, false, fun _ => 0⟩,
     ⟨16, 12, .status, false, fun _ => 0⟩,
     ⟨0, 12, .status, false, fun _ => 0⟩]⟩,
  -- ONL_ERR, Table 11-13
  ⟨0x10070020, [(128, 0x100000)], [⟨48, 16, .status, false, fun _ => 0⟩,
     ⟨32, 16, .status, false, fun _ => 0⟩,
     ⟨16, 16, .status, false, fun _ => 0⟩,
     ⟨0, 16, .status, false, fun _ => 0⟩]⟩,
  -- ONL_TRAIN, Table 11-14
  ⟨0x10070028, [(128, 0x100000)], [⟨40, 24, .status, false, fun _ => 0⟩,
     ⟨28, 12, .status, false, fun _ => 0⟩,
     ⟨24, 4, .commit, true, fun _ => 3⟩,
     ⟨8, 8, .status, false, fun _ => 0⟩]⟩,
  -- ONL_CSLOT, Table 11-14
  ⟨0x10070030, [(128, 0x100000)], [⟨32, 32, .status, false, fun _ => 0⟩,
     ⟨0, 9, .status, false, fun _ => 0⟩]⟩,
  -- ONL_CREDIT, Table 11-15
  ⟨0x10070100, [(128, 0x100000), (2, 0x40), (8, 0x8)], [⟨32, 16, .static, true, fun _ => 0⟩,
     ⟨16, 16, .status, false, fun _ => 0⟩,
     ⟨0, 16, .status, false, fun _ => 0⟩]⟩,
  -- ONL_CHAIN, Table 11-16
  ⟨0x10070200, [(128, 0x100000)], [⟨48, 16, .commit, true, fun _ => 1000⟩,
     ⟨44, 4, .commit, true, fun _ => 3⟩,
     ⟨34, 5, .static, true, fun _ => 0⟩,
     ⟨32, 2, .static, true, fun _ => 0⟩,
     ⟨16, 16, .status, false, fun _ => 0⟩,
     ⟨15, 1, .status, false, fun _ => 0⟩,
     ⟨0, 5, .static, true, fun _ => 0⟩]⟩,
  -- ONL_ROUTE, Table 11-17
  ⟨0x10070300, [(128, 0x100000), (32, 0x8)], [⟨63, 1, .status, false, fun _ => 0⟩,
     ⟨62, 1, .status, false, fun _ => 0⟩,
     ⟨55, 7, .status, false, fun _ => 0⟩,
     ⟨50, 5, .status, false, fun _ => 0⟩,
     ⟨49, 1, .status, false, fun _ => 0⟩,
     ⟨0, 32, .status, false, fun _ => 0⟩]⟩,
  -- ONL_REXT_SEL, Table 11-18
  ⟨0x10070440, [(128, 0x100000)], [⟨0, 16, .live, false, fun _ => 0⟩]⟩,
  -- ONL_REXT_VIEW, Table 11-18
  ⟨0x10070448, [(128, 0x100000)], [⟨0, 32, .status, false, fun _ => 0⟩]⟩,
  -- ONL_TX_FRAMES, Table 11-19
  ⟨0x10070400, [(128, 0x100000)], [⟨0, 64, .status, false, fun _ => 0⟩]⟩,
  -- ONL_RX_FRAMES, Table 11-19
  ⟨0x10070408, [(128, 0x100000)], [⟨0, 64, .status, false, fun _ => 0⟩]⟩,
  -- ONL_ABSORBED, Table 11-19
  ⟨0x10070410, [(128, 0x100000)], [⟨0, 64, .status, false, fun _ => 0⟩]⟩,
  -- ONL_NOTES, Table 11-19
  ⟨0x10070418, [(128, 0x100000)], [⟨0, 64, .status, false, fun _ => 0⟩]⟩,
  -- ONL_PROTO, Table 11-19
  ⟨0x10070420, [(128, 0x100000)], [⟨0, 64, .status, false, fun _ => 0⟩]⟩,
  -- ONL_BREAKS, Table 11-19
  ⟨0x10070428, [(128, 0x100000)], [⟨0, 64, .status, false, fun _ => 0⟩]⟩,
  -- ONL_HOP_ABSORB, Table 11-19
  ⟨0x10070430, [(128, 0x100000)], [⟨0, 64, .status, false, fun _ => 0⟩]⟩]

/-- Registers of the group RIND (Table 16-16). -/
def mapRind : List RegDef := [
  -- RIND_PWR_STATUS, Table 13-7
  ⟨0x100000, [], [⟨38, 2, .status, false, fun _ => 0⟩,
     ⟨37, 1, .status, false, fun _ => 0⟩,
     ⟨28, 4, .status, false, fun _ => 3⟩,
     ⟨24, 2, .status, false, fun _ => 0⟩,
     ⟨23, 1, .status, false, fun _ => 1⟩,
     ⟨22, 1, .status, false, fun _ => 1⟩,
     ⟨21, 1, .status, false, fun _ => 0⟩,
     ⟨20, 1, .status, false, fun _ => 0⟩,
     ⟨15, 1, .status, false, fun _ => 0⟩,
     ⟨14, 1, .status, false, fun _ => 0⟩,
     ⟨13, 1, .status, false, fun _ => 0⟩,
     ⟨12, 1, .status, false, fun _ => 0⟩,
     ⟨11, 1, .status, false, fun _ => 0⟩,
     ⟨6, 2, .status, false, fun _ => 0⟩,
     ⟨4, 2, .status, false, fun _ => 0⟩,
     ⟨2, 2, .status, false, fun _ => 0⟩]⟩,
  -- RIND_PWR_FEED, Table 13-8
  ⟨0x100008, [(2, 0x8)], [⟨48, 16, .status, false, fun _ => 0⟩,
     ⟨32, 16, .status, false, fun _ => 0⟩,
     ⟨16, 16, .status, false, fun _ => 0⟩,
     ⟨0, 16, .status, false, fun _ => 0⟩]⟩,
  -- RIND_PWR_BUS, Table 13-9
  ⟨0x100018, [], [⟨48, 16, .status, false, fun _ => 0⟩,
     ⟨32, 16, .status, false, fun _ => 0⟩,
     ⟨16, 16, .status, false, fun _ => 0⟩,
     ⟨0, 16, .status, false, fun _ => 0⟩]⟩,
  -- RIND_PWR_CTRL, Table 13-10
  ⟨0x100020, [], [⟨0, 1, .pulse, false, fun _ => 0⟩]⟩,
  -- RIND_PWR_TIMER, Table 13-11
  ⟨0x100028, [], [⟨32, 17, .status, false, fun _ => 0⟩,
     ⟨0, 17, .status, false, fun _ => 0⟩]⟩,
  -- RIND_PWR_EVT, Table 13-12
  ⟨0x100030, [], [⟨48, 16, .status, false, fun _ => 0⟩,
     ⟨32, 16, .status, false, fun _ => 0⟩,
     ⟨16, 16, .status, false, fun _ => 0⟩,
     ⟨0, 16, .status, false, fun _ => 0⟩]⟩,
  -- RIND_PWR_FEED_EVT, Table 13-12
  ⟨0x100038, [], [⟨48, 16, .status, false, fun _ => 0⟩,
     ⟨32, 16, .status, false, fun _ => 0⟩,
     ⟨16, 16, .status, false, fun _ => 0⟩,
     ⟨0, 16, .status, false, fun _ => 0⟩]⟩,
  -- RIND_PWR_LAST, Table 13-13
  ⟨0x100040, [], [⟨32, 32, .status, false, fun _ => 0⟩,
     ⟨16, 8, .status, false, fun _ => 0⟩,
     ⟨0, 2, .status, false, fun _ => 0⟩]⟩,
  -- RIND_CLK_STATUS, Table 14-5
  ⟨0x100100, [], [⟨48, 16, .status, false, fun _ => 0⟩,
     ⟨4, 1, .status, false, fun _ => 0⟩,
     ⟨3, 1, .status, false, fun _ => 0⟩,
     ⟨2, 1, .status, false, fun _ => 0⟩,
     ⟨1, 1, .status, false, fun _ => 0⟩,
     ⟨0, 1, .status, false, fun _ => 0⟩]⟩,
  -- RIND_RTC, Table 14-6
  ⟨0x100108, [], [⟨32, 32, .live, false, fun _ => 0⟩,
     ⟨0, 15, .status, false, fun _ => 0⟩]⟩,
  -- RIND_PKG_TIME, Table 14-6
  ⟨0x100110, [], [⟨0, 64, .status, false, fun _ => 0⟩]⟩,
  -- RIND_DOMAIN_STATE, Table 14-7
  ⟨0x100200, [(14, 0x8)], [⟨0, 2, .status, false, fun _ => 0⟩,
     ⟨2, 2, .status, false, fun _ => 0⟩,
     ⟨4, 2, .status, false, fun _ => 0⟩,
     ⟨6, 2, .status, false, fun _ => 0⟩,
     ⟨8, 2, .status, false, fun _ => 0⟩,
     ⟨10, 2, .status, false, fun _ => 0⟩,
     ⟨12, 2, .status, false, fun _ => 0⟩,
     ⟨14, 2, .status, false, fun _ => 0⟩,
     ⟨16, 2, .status, false, fun _ => 0⟩,
     ⟨18, 2, .status, false, fun _ => 0⟩,
     ⟨20, 2, .status, false, fun _ => 0⟩,
     ⟨22, 2, .status, false, fun _ => 0⟩,
     ⟨24, 2, .status, false, fun _ => 0⟩,
     ⟨26, 2, .status, false, fun _ => 0⟩,
     ⟨28, 2, .status, false, fun _ => 0⟩,
     ⟨30, 2, .status, false, fun _ => 0⟩,
     ⟨32, 2, .status, false, fun _ => 0⟩,
     ⟨34, 2, .status, false, fun _ => 0⟩,
     ⟨36, 2, .status, false, fun _ => 0⟩,
     ⟨38, 2, .status, false, fun _ => 0⟩,
     ⟨40, 2, .status, false, fun _ => 0⟩,
     ⟨42, 2, .status, false, fun _ => 0⟩,
     ⟨44, 2, .status, false, fun _ => 0⟩,
     ⟨46, 2, .status, false, fun _ => 0⟩,
     ⟨48, 2, .status, false, fun _ => 0⟩,
     ⟨50, 2, .status, false, fun _ => 0⟩,
     ⟨52, 2, .status, false, fun _ => 0⟩,
     ⟨54, 2, .status, false, fun _ => 0⟩,
     ⟨56, 2, .status, false, fun _ => 0⟩,
     ⟨58, 2, .status, false, fun _ => 0⟩,
     ⟨60, 2, .status, false, fun _ => 0⟩,
     ⟨62, 2, .status, false, fun _ => 0⟩]⟩,
  -- RIND_DOMAIN_SEL, Table 14-8
  ⟨0x100280, [], [⟨0, 9, .live, false, fun _ => 0⟩]⟩,
  -- RIND_DOMAIN_VIEW, Table 14-8
  ⟨0x100288, [], [⟨62, 2, .status, false, fun _ => 0⟩,
     ⟨32, 16, .status, false, fun _ => 0⟩,
     ⟨0, 32, .status, false, fun _ => 0⟩]⟩,
  -- RIND_SLEEP_CFG, Table 14-9
  ⟨0x100300, [], [⟨48, 16, .commit, true, fun _ => 100⟩,
     ⟨40, 8, .commit, true, fun _ => 96⟩,
     ⟨32, 8, .commit, true, fun _ => 16⟩,
     ⟨16, 16, .commit, true, fun _ => 50⟩,
     ⟨8, 8, .commit, true, fun _ => 20⟩,
     ⟨0, 8, .commit, true, fun _ => 10⟩]⟩,
  -- RIND_SLEEP_STATUS, Table 14-10
  ⟨0x100308, [], [⟨48, 16, .status, false, fun _ => 0⟩,
     ⟨32, 8, .status, false, fun _ => 0⟩,
     ⟨16, 8, .status, false, fun _ => 0⟩,
     ⟨8, 8, .status, false, fun _ => 0⟩,
     ⟨0, 1, .pulse, false, fun _ => 0⟩]⟩,
  -- RIND_SLEEP_CNT, Table 14-10
  ⟨0x100310, [], [⟨32, 32, .status, false, fun _ => 0⟩,
     ⟨16, 16, .status, false, fun _ => 0⟩,
     ⟨8, 8, .status, false, fun _ => 0⟩,
     ⟨0, 8, .status, false, fun _ => 0⟩]⟩]

/-- Registers of the group PLL (Table 16-16). -/
def mapPll : List RegDef := [
  -- DIE_PLL_STATUS, Table 14-11
  ⟨0x1030000, [(8, 0x100000)], [⟨48, 16, .status, false, fun _ => 0⟩,
     ⟨32, 16, .status, false, fun _ => 0⟩,
     ⟨0, 3, .status, false, fun _ => 0⟩]⟩]

/-- Registers of the group counters (Table 16-16). -/
def mapCtr : List RegDef := [
  -- CTR_CFG, Table 17-4
  ⟨0x10060000, [(128, 0x100000), (8, 0x8)], [⟨52, 12, .commit, false, fun _ => 0⟩,
     ⟨51, 1, .commit, false, fun _ => 0⟩,
     ⟨32, 16, .commit, false, fun _ => 0⟩,
     ⟨17, 1, .commit, false, fun _ => 0⟩,
     ⟨16, 1, .commit, false, fun _ => 0⟩,
     ⟨0, 8, .commit, false, fun _ => 0⟩]⟩,
  -- CTR_VAL, Table 17-5
  ⟨0x10060040, [(128, 0x100000), (8, 0x8)], [⟨0, 32, .live, false, fun _ => 0⟩]⟩,
  -- CTR_RELOAD, Table 17-5
  ⟨0x10060080, [(128, 0x100000), (8, 0x8)], [⟨0, 32, .commit, false, fun _ => 0⟩]⟩,
  -- CTR_PAIR, Table 17-5
  ⟨0x100600C0, [(128, 0x100000), (4, 0x8)], [⟨32, 32, .live, false, fun _ => 0⟩,
     ⟨0, 32, .live, false, fun _ => 0⟩]⟩,
  -- CTR_CTL, Table 17-6
  ⟨0x100600E0, [(128, 0x100000)], [⟨32, 8, .clear, false, fun _ => 0⟩,
     ⟨16, 8, .status, false, fun _ => 0⟩,
     ⟨8, 8, .live, false, fun _ => 0⟩,
     ⟨2, 1, .live, false, fun _ => 0⟩,
     ⟨1, 1, .live, false, fun _ => 0⟩,
     ⟨0, 1, .pulse, false, fun _ => 0⟩]⟩,
  -- CTR_SNAP_AT, Table 17-6
  ⟨0x100600E8, [(128, 0x100000)], [⟨0, 64, .live, false, fun _ => 0⟩]⟩,
  -- CTR_SNAP_TIME, Table 17-6
  ⟨0x100600F0, [(128, 0x100000)], [⟨0, 64, .status, false, fun _ => 0⟩]⟩,
  -- CTR_SNAPVAL, Table 17-7
  ⟨0x10060100, [(128, 0x100000), (8, 0x8)], [⟨0, 32, .status, false, fun _ => 0⟩]⟩,
  -- CTR_SREC_PTR, Table 17-7
  ⟨0x10060140, [(128, 0x100000)], [⟨48, 16, .status, false, fun _ => 0⟩,
     ⟨16, 32, .status, false, fun _ => 0⟩,
     ⟨8, 3, .status, false, fun _ => 0⟩,
     ⟨0, 3, .live, false, fun _ => 0⟩]⟩,
  -- CTR_SREC, Table 17-7
  ⟨0x10060200, [(128, 0x100000), (8, 0x40), (8, 0x8)], [⟨0, 64, .status, false, fun _ => 0⟩]⟩]

end Sys2Proof.Machine
end

