-- ==== Sys2Proof/Machine/Map.lean ====
section
/-! DEFINITION. Finite maps as lists of (key, value) pairs in one canonical form: keys strictly rising. Every table of the
State that is sparse (registers, tracker slots, directory sets, NOR bytes) is one of these. -/

namespace Sys2Proof.Machine

/-- A finite map from numbers. -/
abbrev NMap (V : Type) := List (Nat × V)

/-- The value at a key, if the map lists one. -/
def mget {V : Type} : NMap V → Nat → Option V
  | [], _ => none
  | (k, v) :: t, a => if k = a then some v else mget t a

/-- The value at a key, or d. -/
def mgetD {V : Type} (d : V) (m : NMap V) (a : Nat) : V := (mget m a).getD d

/-- Sets a key. -/
def mput {V : Type} : NMap V → Nat → V → NMap V
  | [], a, v => [(a, v)]
  | (k, w) :: t, a, v =>
    if k = a then (a, v) :: t
    else if a < k then (a, v) :: (k, w) :: t
    else (k, w) :: mput t a v

/-- Removes a key. -/
def mdel {V : Type} (m : NMap V) (a : Nat) : NMap V := m.filter (fun e => e.1 != a)

/-- Sets a key of a map whose unlisted keys read as d: writing d removes the entry. -/
def mset {V : Type} [DecidableEq V] (d : V) (m : NMap V) (a : Nat) (v : V) : NMap V :=
  if v = d then mdel m a else mput m a v

/-- Changes the value at a key of a map whose unlisted keys read as d. -/
def mmod {V : Type} [DecidableEq V] (d : V) (m : NMap V) (a : Nat) (f : V → V) : NMap V :=
  mset d m a (f (mgetD d m a))

/-- Keys strictly rising. -/
def mwf {V : Type} : NMap V → Bool
  | [] => true
  | [_] => true
  | (k, _) :: (l, w) :: t => decide (k < l) && mwf ((l, w) :: t)

/-- Keeps the entries whose key and value pass a test. -/
def mkeep {V : Type} (p : Nat → V → Bool) (m : NMap V) : NMap V := m.filter (fun e => p e.1 e.2)

end Sys2Proof.Machine
end

