-- ==== Sys2Proof/Machine/TypeOps.lean ====
section
/-! DEFINITION. The codes and derived values of the operand types: opcodes, virtual channels and modes as numbers, the
parts of an address, the header unit (spec/02 R52), and the directory entry (spec/06 R162 to R165). -/

namespace Sys2Proof

/-- The 8-bit OPC value where the spec gives one; 0 for the classes without one. -/
def Opc.code : Opc → Nat
  | .rds => 0x10 | .rda => 0x11 | .rdi => 0x12 | .inva => 0x13 | .wri => 0x14 | .wra => 0x15
  | .wrptl => 0x16 | .clnevct => 0x17 | .specrd => 0x18 | .biconf => 0x19 | .recall => 0x1A
  | .mrd => 0x20 | .mspec => 0x21 | .mflush => 0x22 | .dirrd => 0x28 | .dirwr => 0x29
  | .bisnpcur => 0x30 | .bisnpdata => 0x31 | .bisnpinv => 0x32 | .fwd => 0x38
  | .rdata => 0x40 | .wdata => 0x41 | .dirdata => 0x42
  | .birsp => 0x50 | .grant => 0x51 | .wgo => 0x52 | .mcmp => 0x53 | .wcmp => 0x54 | .done => 0x55
  | .bicack => 0x56 | .dirack => 0x57 | .rcmp => 0x58 | .frsp => 0x59 | .fkeep => 0x5A
  | .onlabs => 0x70 | .probe => 0x71 | .probersp => 0x72 | .routeadv => 0x73 | .blob => 0x74 | .keyx => 0x75
  | .cxlio => 0 | .mgt => 0 | .bulk => 0 | .pass _ _ => 0 | .xfer _ => 0x7F
/-- The virtual channel of each message (Tables 2-4, 6-4, 7-4, 11-2). -/
def Opc.vc : Opc → Nat
  | .birsp | .grant | .wgo | .mcmp | .wcmp | .done | .bicack | .dirack | .rcmp | .frsp | .fkeep | .onlabs => 0
  | .rdata | .wdata | .dirdata => 1
  | .bisnpcur | .bisnpdata | .bisnpinv | .fwd => 2
  | .rds | .rda | .rdi | .inva | .wri | .wra | .wrptl | .clnevct | .specrd | .biconf | .recall
  | .mrd | .mspec | .mflush | .dirrd | .dirwr => 3
  | .mgt | .probe | .probersp | .routeadv | .keyx => 4
  | .bulk | .blob => 5
  | .cxlio => 6
  | .pass _ v => v.val
  | .xfer v => v.val
/-- Some data unit of a packet is poisoned. -/
def Pkt.poison (p : Pkt) : Bool := p.pois != 0
/-- POISON of a packet with one data unit. -/
def poisOne (b : Bool) : Word := if b then 1 else 0
/-- POISON of the data units of a packet from number j on (R66, R104). -/
def Pkt.poisFrom (p : Pkt) (j : Nat) : Word :=
  p.pois ||| (BitVec.ofNat 64 (2 ^ p.len.val - 1) &&& ~~~(BitVec.ofNat 64 (2 ^ j - 1)))
/-- LINE address of a packet, ADDR[51:6] (R153). -/
def Pkt.line (p : Pkt) : Nat := p.addr.toNat / 64
/-- Extent of a pooled line, ADDR[45:30] (R223). -/
def Pkt.ext (p : Pkt) : Nat := p.addr.toNat / 2 ^ 30 % 65536
/-- Granules of a frame: 1 + 2 × LEN (R78). -/
def Pkt.granules (p : Pkt) : Nat := 1 + 2 * p.len.val
/-- Bytes of a frame, 32 + 64 × LEN. -/
def Pkt.bytes (p : Pkt) : Nat := 32 + 64 * p.len.val
def Dir.num : Dir → Nat
  | .north => 0 | .east => 1 | .south => 2 | .west => 3 | .loc => 4
/-- Mode code of PKG_MODE (Table 1-8). -/
def Mode.code : Mode → Nat
  | .dormant => 0 | .imageLoad => 1 | .selfTest => 2 | .bringUp => 3 | .service => 4 | .drowse => 5
  | .degraded => 6 | .rebuild => 7 | .maintenance => 8 | .safeStop => 9 | .sealedHalt => 10 | .returnTest => 11
/-- STATE code of a directory entry (Table 6-3). -/
def DState.code : DState → Nat
  | .I => 0 | .S => 1 | .E => 2 | .EO => 3 | .bRd => 8 | .bSnp => 9 | .bWr => 10 | .bEv => 11 | .bRc => 12
  | .bLost => 13 | .bFwd => 14 | .bTake => 15
/-- The state a stored code names; reserved codes are never written and read as I. -/
def DState.ofCode : Nat → DState
  | 1 => .S | 2 => .E | 3 => .EO | 8 => .bRd | 9 => .bSnp | 10 => .bWr | 11 => .bEv | 12 => .bRc
  | 13 => .bLost | 14 => .bFwd | 15 => .bTake | _ => .I
/-- A blocked line's states are the transient ones (R163). -/
def DState.transient : DState → Bool
  | .I | .S | .E | .EO => false
  | _ => true
def ExtSt.code : ExtSt → Nat
  | .free => 0 | .unmirrored => 1 | .mirrored => 2 | .single => 3 | .resilver => 4 | .remote => 5 | .lost => 6
/-- Two packets are one, whatever Scrim has done to ROUTE, FEP and WCELL on the way. -/
def Pkt.same (p q : Pkt) : Bool :=
  { p with route := 0, wcell := 0, fep := false } = { q with route := 0, wcell := 0, fep := false }
def Dir.opp : Dir → Dir
  | .north => .south | .south => .north | .east => .west | .west => .east | .loc => .loc
/-- The cell a packet heads for in its routing phase. -/
def Pkt.heading (p : Pkt) : Nat := if p.route = 1 then p.wcell.val else p.dst.val
/-- No MRD, MSPEC or WGO goes out for a FREE or LOST extent (R224, R230). -/
def ExtEnt.noMem (e : ExtEnt) : Bool := e.st = .free || e.st = .lost

/-! ### The header unit (R52) -/

/-- One bit of the CRC-16 of polynomial 0x8BB7. -/
def crcBit (crc : Nat) (b : Bool) : Nat :=
  let top := crc.testBit 15
  let sh := crc * 2 % 65536
  if top != b then sh ^^^ 0x8BB7 else sh
/-- CRC-16 of the n low bits of a number, initial value 0xFFFF. The spec gives polynomial and initial value; highest bit first and no
final inversion are a DESIGN CHOICE (log 103). -/
def crc16 (n x : Nat) : Nat :=
  (List.range n).foldl (fun crc i => crcBit crc (x.testBit (n - 1 - i))) 0xFFFF
/-- CRC-32 of polynomial 0x1EDC6F41 over the n low bits of a number, initial value 0xFFFFFFFF; the bit order as in crc16 (log 103). -/
def crc32 (n x : Nat) : Nat :=
  (List.range n).foldl (fun crc i =>
    let sh := crc * 2 % 2 ^ 32
    if crc.testBit 31 != x.testBit (n - 1 - i) then sh ^^^ 0x1EDC6F41 else sh) 0xFFFFFFFF
/-- META code of a MetaValue (Table 6-5). -/
def mvCode : Mv → Nat
  | .I => 0 | .S => 1 | .E => 2
/-- Bits [239:0] of a packet's header unit (Tables 2-3 and 6-5). -/
def Pkt.headerBits (p : Pkt) : Nat :=
  p.dst.val + p.src.val * 2 ^ 7 + p.opc.vc * 2 ^ 14 + p.tc.val * 2 ^ 17 + p.opc.code * 2 ^ 20 + p.len.val * 2 ^ 28
    + p.tagSlot.val * 2 ^ 35 + p.tagCell.val * 2 ^ 45 + p.gen.val * 2 ^ 52 + p.inst.val * 2 ^ 55 + p.priv.toNat * 2 ^ 67
    + p.addr.toNat * 2 ^ 68 + p.fep.toNat * 2 ^ 125 + p.route.val * 2 ^ 126
    + (p.bmask.toNat * 2 ^ 142 + p.htid.val * 2 ^ 206 + p.mcell.val * 2 ^ 216 + p.hslot.val * 2 ^ 223 + mvCode p.mv * 2 ^ 230)
    + p.wcell.val * 2 ^ 232
/-- The opcodes that may cross a chain link, by code and virtual channel (Tables 11-1 and 11-2). -/
def Opc.ofChain (code vc : Nat) : Option Opc :=
  ([.mcmp, .wcmp, .onlabs, .rdata, .wdata, .mrd, .mspec, .mgt, .probe, .probersp, .routeadv, .keyx, .blob] : List Opc).find?
    (fun o => o.code == code && o.vc == vc)
/-- The packet that a header unit and data units spell; none for an opcode that never crosses a link. -/
def Pkt.ofHeader (n : Nat) (data : List Line) : Option Pkt :=
  let f (lsb w : Nat) : Nat := n / 2 ^ lsb % 2 ^ w
  (Opc.ofChain (f 20 8) (f 14 3)).map (fun o =>
    { opc := o, dst := Cell.of (f 0 7), src := Cell.of (f 7 7), tc := Fin.ofNat 8 (f 17 3), len := Fin.ofNat 65 (f 28 7),
      tagSlot := Fin.ofNat 1024 (f 35 10), tagCell := Cell.of (f 45 7), gen := Fin.ofNat 8 (f 52 3),
      inst := Fin.ofNat 4096 (f 55 12), priv := f 67 1 == 1, addr := BitVec.ofNat 52 (f 68 52),
      bmask := BitVec.ofNat 64 (f 142 64), htid := Fin.ofNat 1024 (f 206 10), mcell := Cell.of (f 216 7),
      hslot := Fin.ofNat 128 (f 223 7), mv := if f 230 2 = 1 then .S else if f 230 2 = 2 then .E else .I, data := data })
/-- The 32 B header unit with its HCRC. -/
def Pkt.header (p : Pkt) : Nat := p.headerBits + crc16 240 p.headerBits * 2 ^ 240

/-! ### Slots and flits (R50, R51) -/

/-- Sideband bits [8:0] of a slot (Table 2-2): VALID, KIND, VC, EOP, POISON, STOMP. -/
def sideBits (valid : Bool) (kind vc : Nat) (eop poison stomp : Bool) : Nat :=
  valid.toNat + kind % 4 * 2 + vc % 8 * 2 ^ 3 + eop.toNat * 2 ^ 6 + poison.toNat * 2 ^ 7 + stomp.toNat * 2 ^ 8
/-- A 32 B payload with its sideband and the ECC over both. -/
def slotOf (payload side : Nat) : BitVec 256 × BitVec 19 :=
  (BitVec.ofNat 256 payload, BitVec.ofNat 19 (side % 512 + (Config.secded (BitVec.ofNat 265 (payload % 2 ^ 256 * 512 + side % 512))).toNat * 512))
/-- The slots of unit u of a packet: the header in one, a data unit in two. -/
def Pkt.unitSlots (p : Pkt) (u : Nat) : List (BitVec 256 × BitVec 19) :=
  let last : Bool := u == p.len.val
  if u = 0 then [slotOf p.header (sideBits true 0 p.opc.vc last false (last && p.stomp))]
  else
    let d := (p.data.getD (u - 1) 0).toNat
    let po := p.pois.getLsbD (u - 1)
    [slotOf d (sideBits true 1 p.opc.vc false po (last && p.stomp)), slotOf (d / 2 ^ 256) (sideBits true 2 p.opc.vc last po (last && p.stomp))]
/-- A heartbeat slot: it carries no unit (R51, R65). -/
def heartbeatSlot (credits : Nat) : BitVec 256 × BitVec 19 := slotOf credits (sideBits false 3 0 false false false)

/-! ### Entries (R162 to R165) -/

/-- The 16 B of an entry (Table 6-2). -/
def DirEntry.enc (e : DirEntry) : BitVec 128 :=
  BitVec.ofNat 128 (e.line.toNat * 2 ^ 82 + e.st.code * 2 ^ 78 + e.coarse.toNat * 2 ^ 77 + e.owner.val * 2 ^ 70
    + e.age.val * 2 ^ 66 + e.presence.toNat)
/-- The entry 16 B spell. -/
def DirEntry.dec (w : Nat) : DirEntry :=
  { line := BitVec.ofNat 46 (w / 2 ^ 82), st := DState.ofCode (w / 2 ^ 78 % 16), coarse := w / 2 ^ 77 % 2 == 1,
    owner := Fin.ofNat 128 (w / 2 ^ 70), age := Fin.ofNat 16 (w / 2 ^ 66), presence := BitVec.ofNat 64 w }
/-- Four entries in a 64 B data unit. -/
def packUnit (es : List DirEntry) : Line :=
  BitVec.ofNat 512 (es.foldr (fun e acc => e.enc.toNat + acc * 2 ^ 128) 0)
/-- The four entries of a data unit. -/
def unpackUnit (u : Line) : List DirEntry :=
  (List.range 4).map (fun i => DirEntry.dec (u.toNat / 2 ^ (128 * i) % 2 ^ 128))

/-- Host slots an entry says hold the line (R164). -/
def DirEntry.holders (e : DirEntry) : List HSlot :=
  match e.st with
  | .S =>
    if e.coarse then
      ((List.range 48).filter (fun j => e.presence.toNat.testBit j)).flatMap
        (fun j => [Fin.ofNat 128 (2 * j), Fin.ofNat 128 (2 * j + 1)])
    else ((List.range 64).filter (fun j => e.presence.toNat.testBit j)).map (Fin.ofNat 128)
  | .E | .EO => [e.owner]
  | _ => []

/-- An entry with a sharer added; slot 64 or above makes it coarse (R164). -/
def DirEntry.addSharer (e : DirEntry) (h : HSlot) : DirEntry :=
  let e := if e.st = .S then e else { e with st := .S, owner := 0, presence := 0, coarse := false }
  if e.coarse then { e with presence := e.presence ||| BitVec.ofNat 64 (2 ^ (h.val / 2)) }
  else if h.val < 64 then { e with presence := e.presence ||| BitVec.ofNat 64 (2 ^ h.val) }
  else
    let p := (List.range 64).foldl
      (fun acc b => if e.presence.toNat.testBit b then acc ||| 2 ^ (b / 2) else acc) 0
    { e with coarse := true, presence := BitVec.ofNat 64 (p ||| 2 ^ (h.val / 2)) }

/-- An entry that leaves every holder's record: state I. -/
def DirEntry.clear (e : DirEntry) : DirEntry := { line := e.line, st := .I }

/-- An entry in a transient state: OWNER is 0 outside E and EO (R162). -/
def DirEntry.inState (e : DirEntry) (st : DState) : DirEntry := { e with st := st, owner := 0 }

/-- An entry with a holder removed. A coarse bit stays, for the other slot of the pair may hold the line (R164). -/
def DirEntry.dropHolder (e : DirEntry) (h : HSlot) : DirEntry :=
  match e.st with
  | .S =>
    if e.coarse then e
    else
      let p := e.presence &&& ~~~(BitVec.ofNat 64 (2 ^ h.val))
      if p = 0 then e.clear else { e with presence := p }
  | .E | .EO => if e.owner = h then e.clear else e
  | _ => e

/-- The entry of an exclusive owner: EO in the unified topology (R192). -/
def ownedBy (line : Nat) (uni : Bool) (h : HSlot) : DirEntry :=
  { line := BitVec.ofNat 46 line, st := if uni then .EO else .E, owner := h }

/-- The 4 KiB block of its extent that a packet's line lies in. -/
def Pkt.block (p : Pkt) : Nat := p.addr.toNat % 2 ^ 30 / 4096
/-- Expander address of a packet's line (R225). -/
def DevEnt.dpa (d : DevEnt) (p : Pkt) : Nat := d.dev.val * 2 ^ 30 + p.addr.toNat % 2 ^ 30

/-- The cells that keep a side of an extent. -/
def ExtEnt.sides (x : ExtEnt) : List Cell :=
  match x.st with
  | .free | .lost | .remote => []
  | .unmirrored | .single => [x.mcell]
  | .mirrored | .resilver => [x.mcell, x.mcell2]

/-- An extent's entry after the loss of its side at cell c; none where it keeps none there. -/
def ExtEnt.lose (x : ExtEnt) (c : Cell) : Option ExtEnt :=
  if !x.sides.contains c then none
  else match x.st with
    | .mirrored => some { x with st := .single, mcell := if x.mcell = c then x.mcell2 else x.mcell, mcell2 := 0 }
    | .resilver => if x.mcell = c then some { x with st := .lost, mcell := 0, mcell2 := 0 } else some { x with st := .single, mcell2 := 0 }
    | _ => some { x with st := .lost, mcell := 0, mcell2 := 0 }

/-! ### Region entries (Table 9-3) -/

/-- The four words of an entry (Table 9-3). -/
def Region.words (r : Region) : List Nat :=
  [2 ^ 63 + r.inst.val * 2 ^ 46 + r.dpaLine.toNat, r.len.toNat, r.poolLine.toNat,
   r.dev.toNat * 16 + r.priv.toNat * 8 + r.user.toNat * 4 + r.wr.toNat * 2 + r.rd.toNat]
/-- The entry four words spell; none where VALID is clear. -/
def regionOf (w0 w1 w2 w3 : Nat) : Option Region :=
  if w0.testBit 63 then
    some { inst := Fin.ofNat 4096 (w0 / 2 ^ 46), dpaLine := BitVec.ofNat 46 w0, len := BitVec.ofNat 41 w1,
           poolLine := BitVec.ofNat 40 w2, dev := w3.testBit 4, priv := w3.testBit 3, user := w3.testBit 2,
           wr := w3.testBit 1, rd := w3.testBit 0 }
  else none
def Region.lo (r : Region) : Nat := r.dpaLine.toNat
def Region.hi (r : Region) : Nat := r.dpaLine.toNat + r.len.toNat
/-- Extents that a region's pool range touches. -/
def Region.extents (r : Region) : List Nat :=
  if r.len = 0 then []
  else
    let a := r.poolLine.toNat / 2 ^ 24
    let b := (r.poolLine.toNat + r.len.toNat - 1) / 2 ^ 24
    (List.range (b - a + 1)).map (a + ·)

/-! ### Chain packets -/

/-- The slots of a packet on a link: chain unit, header, and two halves of each data unit (R328). -/
def CPkt.slots (x : CPkt) : List OSlot :=
  let v : Vc := Fin.ofNat 8 x.p.opc.vc
  let n := x.p.data.length
  [OSlot.chain v x.cu, OSlot.head { x.p with data := [] }] ++
    ((List.range n).zip x.p.data).flatMap (fun (k, d) =>
      let last : Bool := k + 1 == n
      [OSlot.data v false (BitVec.ofNat 256 d.toNat) (x.p.pois.getLsbD k) false false,
       OSlot.data v true (BitVec.ofNat 256 (d.toNat / 2 ^ 256)) (x.p.pois.getLsbD k) last (last && x.p.stomp)])
/-- Slots of a packet, 2 + 2 × LEN. -/
def CPkt.need (x : CPkt) : Nat := 2 + 2 * x.p.data.length
/-- A packet that no ONLABS answers (R351). -/
def CPkt.silent (x : CPkt) : Bool :=
  x.p.opc = .probe || x.p.opc = .probersp || x.p.opc = .routeadv || x.p.opc = .blob || x.p.opc = .keyx
/-- The module whose cell the TAG names: DMOD for responses, SMOD for every other packet (R344). An absorbed ONLABS is for
DMOD too, and is sent again. -/
def CPkt.tagModule (x : CPkt) : Fin 32 :=
  if x.p.opc = .rdata ∨ x.p.opc = .wcmp ∨ x.p.opc = .mcmp ∨ x.p.opc = .onlabs then x.cu.dmod else x.cu.smod

end Sys2Proof
end

