-- ==== Sys2Proof/Machine/State.lean ====
section
/-! DEFINITION. The state of the module (spec/00 to spec/18), the outcomes a command can have besides a next state, and
the state when the module leaves DORMANT. -/

namespace Sys2Proof.Machine

/-- A packet on Scrim, at the router that last received or will inject it. -/
structure Flying where
  loc : Cell
  p : Pkt
  /-- 0: its source has not started it toward Scrim; 1: it leaves the source's crossbar; 2: its header has entered the mesh; 3: its last
  unit has been delivered, and it stands at its cell. -/
  inj : Nat := 0
  deriving DecidableEq, Repr

/-- The fence map (R67): fenced links, cells, dies and HBM stacks, each without repeats. -/
structure FenceMap where
  links : List Nat := []
  cells : List Nat := []
  dies : List Nat := []
  stks : List Nat := []
  deriving DecidableEq, Repr

/-- A unit in a router's input buffer: the packet, the unit's number (0 the header), and the pool its slots are of (R56): 0 shared,
1 reserved of its virtual channel for ROUTE 0b00 and 0b01, 2 reserved for ROUTE 0b10. -/
structure BufUnit where
  p : Pkt
  u : Nat
  pool : Nat
  deriving DecidableEq, Repr

/-- Scrim, Lath and the fence sequencers (spec/02). -/
structure ScrimSt where
  /-- Packets issued and not yet consumed or absorbed, oldest first (R58). -/
  flight : List Flying := []
  /-- Units that wait in a router: local port in HOLD (R71), or Lath edge in low power (R64). Key: cell. -/
  waiting : NMap (List Pkt) := []
  /-- Units that a local port in HOLD keeps from its cell, oldest first: they count as received when HOLD is released (R71, R72).
  Key: cell. -/
  heldUnits : NMap (List (Pkt × Nat)) := []
  /-- Lath seam links that train (R63). -/
  training : List Nat := []
  /-- Units in a router input's buffer, oldest first (R56). Key: cell × 5 + input. -/
  buf : NMap (List BufUnit) := []
  /-- Deficit of a VC at an output (R57). Key: (cell × 5 + output) × 8 + VC. -/
  deficit : NMap Nat := []
  /-- Input the rotating pointer of an output names within a VC (R57). Key as deficit. -/
  rrPtr : NMap Nat := []
  /-- The virtual channel whose turn it is at an output (R57). Key: cell × 5 + output. -/
  vcPtr : NMap Nat := []
  /-- The packet an input receives on a VC, and the units received: from its header to its last unit it holds its VC
  on the output it takes (R50). Key: (cell × 5 + input) × 8 + VC. -/
  rx : NMap (Pkt × Nat) := []
  /-- The packet that a local output delivers on a VC, and the units delivered: it holds its VC there too (R50). Key: cell × 8 + VC. -/
  eject : NMap (Pkt × Nat) := []
  /-- Packets that a router itself completes at an input, each with its next unit, oldest first: their units enter the buffer as slots are
  free (R56, R66). Key as rx. -/
  finish : NMap (List (Pkt × Nat)) := []
  /-- Flits of the replay buffer that the receiver has rejected, oldest first: the replay starts with them (R54). Key: cell × 5 + output. -/
  unacked : NMap (List (Pkt × Nat)) := []
  /-- SCRIM_VC_WEIGHT as an output still applies it that awaits its next packet boundary (R75). Key: cell × 5 + output. -/
  oldWeight : NMap Word := []
  /-- Cells that had a unit ready for an SCR output without credit since the last core cycle (R72). -/
  stallNow : List Nat := []
  /-- The last 16 flits sent on an on-die link, oldest first, each with the one unit it carries (R54). Key: cell × 5 + output. -/
  replay : NMap (List (Pkt × Nat)) := []
  /-- Failed replays of the same flit in a row (R54). Key: cell × 5 + output. -/
  replayFails : NMap Nat := []
  /-- Inputs that reject flits until the replay arrives (R54). Key: cell × 5 + input. -/
  rejecting : List Nat := []
  /-- Core cycle at which an input last saw a valid slot or heartbeat (R65). Key: cell × 5 + input. -/
  seen : NMap Nat := []
  /-- The fence map of the leader. -/
  fence : FenceMap := {}
  /-- The fence map before the open epoch. -/
  oldFence : FenceMap := {}
  /-- A fence epoch is open (Table 2-9). -/
  epochOpen : Bool := false
  /-- Closed epochs, 16 bits (Table 2-9). -/
  epoch : Nat := 0
  /-- Changes of the home extent map that travel with the open epoch, and those that wait for the next (R229). -/
  extChg : List (Nat × ExtEnt) := []
  extNext : List (Nat × ExtEnt) := []
  /-- Home extent map entries that cells held before the open epoch, where it changed them. Key: cell × 65536 + extent. -/
  extOld : NMap ExtEnt := []
  /-- The epoch, and the next one, of R212: 1 sets indices aside, 2 restores them; 0 neither. -/
  give : Nat := 0
  nextGive : Nat := 0
  /-- Routers that have applied the map of the open epoch. -/
  applied : List Cell := []
  /-- Routers whose completion report has arrived. -/
  reported : List Cell := []
  /-- Fence notes on their way to the leader. -/
  notes : List Elem := []
  /-- Elements that join the next epoch (R67). -/
  nextNotes : List Elem := []
  /-- Elements a return removes in the next epoch (R374). -/
  nextReturns : List Elem := []
  /-- Elements the open epoch adds, and those it returns. -/
  adding : List Elem := []
  returning : List Elem := []
  /-- Package time in ns at which an element was fenced (R374). -/
  fencedAt : List (Elem × Nat) := []
  /-- Elements barred from return until DORMANT (R374). -/
  barred : List Elem := []
  /-- Package time of an element's last return (R374). -/
  returnedAt : List (Elem × Nat) := []
  /-- Live statistics of R72: bytes injected and received. Key: cell × 8 + VC. -/
  injLive : NMap Nat := []
  ejLive : NMap Nat := []
  /-- Cycles with a unit ready and no credit. Key: cell. -/
  stallLive : NMap Nat := []
  /-- Live latency buckets (R73). Key: cell × 16 + bucket. -/
  histLive : NMap Nat := []
  /-- Longest time measured, ns. Key: cell. -/
  maxLive : NMap Nat := []
  /-- Core cycle of the last SNAP. Key: cell. -/
  snapAt : NMap Nat := []
  /-- Core cycle at which the timed transaction of a slot was first injected (R73). Key: cell × 1024 + slot. -/
  timing : NMap Nat := []
  /-- Slots whose transaction has been timed, or is (R73), as cell × 1024 + slot. -/
  timed : List Nat := []
  /-- Cells whose drain has passed its commit point (R70). -/
  committed : List Cell := []
  deriving DecidableEq, Repr

/-- What leaves a port toward the requester. -/
inductive Resp where
  /-- MemData with MetaValue, data and poison. -/
  | memData (mv : Mv) (data : Line) (poison : Bool)
  /-- Cmp. -/
  | cmp
  /-- Cmp-E. -/
  | cmpE
  /-- Completion of a CXL.io or device request; `ur`: Unsupported Request; `poison`: its data is poisoned. -/
  | ioCpl (data : List Line) (ur : Bool) (poison : Bool := false)
  /-- Completion of a CXL.io request that the INST endpoint of the port answers. -/
  | vcs (data : List Nat) (ur : Bool)
  /-- A message of a pass-through device, or of its host, that answers a request (R151). -/
  | pass (p : Pkt)
  deriving DecidableEq, Repr

/-- The lines of a device's request that are still to be served, one after another under its tag (R79, R263; DESIGN CHOICE, log 108):
the request, the DPA it starts at, the next line, and the data read so far. -/
structure DevTrack where
  cell : Cell
  req : DevReq
  dpa : Nat
  next : Nat
  data : List Line := []
  poison : Bool := false
  /-- The next line waits for re-issues of its tuple (R86). -/
  held : Bool := false
  deriving DecidableEq, Repr
/-- A tracker slot (R79): its admission record and what has arrived for it. -/
structure TSlot where
  /-- The request header under its tag and current generation. -/
  hdr : Pkt
  /-- Home cell, proxy or egress port the request was sent to. -/
  egress : Cell
  /-- Core cycle of admission. -/
  at_ : Nat
  /-- DPA line of a host's request to an instance, for the check at a re-issue (R270). -/
  dpa : Option Nat := none
  /-- Core cycle at which its header was received (R481). -/
  rx : Nat := 0
  /-- Anchor of the port it entered at. -/
  port : Cell
  /-- Write data held for WGO and for a re-issue (R91). -/
  wdata : List Line := []
  /-- Read data held for GRANT: data and poison (R172). -/
  rdata : Option (Line × Bool) := none
  granted : Option Mv := none
  /-- Cell that sent GRANT, with its HTID, and the MCELL the GRANT carried (R192). -/
  grantBy : Option (Cell × Htid) := none
  grantM : Cell := 0
  rdataFrom : Cell := 0
  /-- WGO received: issuer, MCELL and HTID. -/
  wgo : Option (Cell × Cell × Htid) := none
  /-- The response that waits to leave the port. -/
  resp : Option Resp := none
  /-- Core cycle of a loss at generation 7 (R83). -/
  ended : Option Nat := none
  /-- CXL.io or pass-through traffic (R81). -/
  io : Bool := false
  /-- The port's link is down: the response is discarded (R372). -/
  discard : Bool := false
  /-- A request of a frozen source instance, answered silently (R247), or a region miss (R269). -/
  silent : Bool := false
  /-- A device's request to instances: its lines. -/
  dev : Option DevTrack := none
  deriving DecidableEq, Repr

/-- A frame in the switch core (R78). -/
structure Frame where
  p : Pkt
  /-- Core cycle at which it joined the buffer, and data units it had then; one more arrives every two cycles. -/
  cyc : Nat
  got : Nat
  /-- Package time (ns) of its VOQ entry, kept through Whey (R106, R128). -/
  enq : Nat
  /-- Returned from Whey. -/
  whey : Bool := false
  /-- It has waited under R138. -/
  fitWait : Bool := false
  /-- Granules of it in the buffer whose SECDED is uncorrectable: bit 0 the header, bits 1 + 2j and 2 + 2j data unit j (R129). -/
  bad : BitVec 129 := 0
  deriving DecidableEq, Repr

/-- Granules that leave the buffer with a frame in transmission (R91): its account, how many, from which core cycle and over how many, and
how many have left. -/
structure Leaving where
  cell : Cell
  out : Nat
  tc : Nat
  gran : Nat
  at_ : Nat
  busy : Nat
  gone : Nat := 0
  deriving DecidableEq, Repr

/-- The switch core of every cell (spec/03). -/
structure XbarSt where
  /-- Tracker slots. Key: cell × 1024 + slot. -/
  slots : NMap TSlot := []
  /-- Buffer segments of the VOQs, oldest first. Key: ((cell × 10 + input) × 10 + output) × 8 + class. -/
  voq : NMap (List Frame) := []
  /-- Frames that wait at an input (R93), with the output each is for. Key: cell × 10 + input. -/
  waiting : NMap (List (Nat × Frame)) := []
  /-- Shared and reserved granules charged to an account (R91). Key: (cell × 10 + output) × 8 + class. -/
  shared : NMap Nat := []
  resUsed : NMap Nat := []
  /-- Core cycle at which the last granule of the frame on an input or output leaves (R90). Key: cell × 10 + endpoint. -/
  inBusy : NMap Nat := []
  outBusy : NMap Nat := []
  /-- Class of the frame an output sends. -/
  outCls : NMap Nat := []
  /-- Core cycle at which the open run ends that the frame at PORT started in and fits in (R139). Key: cell. -/
  runEnd : NMap Nat := []
  /-- Frames whose granules are leaving. -/
  leaving : List Leaving := []
  /-- The cell that the row datapath's pointer names, as its place in the port (R80). Key: anchor. -/
  rowPtr : NMap Nat := []
  /-- Core cycle after that of the last skim decision (R96). Key: cell. -/
  skimAt : NMap Nat := []
  /-- Core cycle after that of the last admission at an input (R92). Key: cell × 10 + input. -/
  admitAt : NMap Nat := []
  /-- Sampling down-counters, and outputs whose next frame is sampled (R106, R108). Key: cell × 10 + output. The spec gives a counter no value
  before its first reload: it starts at 0, so that the first sample is due at once (DESIGN CHOICE, log 132). -/
  sampCnt : NMap Nat := []
  sampDue : List Nat := []
  /-- The LFSR, seeded with 0x4000_0000 + c + 1. Key: cell. -/
  lfsr : NMap Nat := []
  /-- Sample records sent, and samples skipped since the last record. Key: cell. -/
  sampSeq : NMap Nat := []
  sampSkip : NMap Nat := []
  /-- SEQ of a mirror session. Key: cell × 4 + session. -/
  mirSeq : NMap Nat := []
  /-- The open 1 ms window of merged skim records (Table 12-8): victim class and skims so far. Key: cell. -/
  skimWin : NMap (Nat × Nat) := []
  /-- Frames of the image's write data that stay charged at the originating cell until their completion (R91):
  (output, class, granules). Key: cell × 1024 + slot. -/
  kept : NMap (Nat × Nat × Nat) := []
  deriving DecidableEq, Repr

/-- A sample record (Table 3-5). -/
structure SampleRec where
  time : Nat
  seq : Nat
  skipped : Nat
  cell : Nat
  path : Nat
  cls : Nat
  flags : Nat
  frameBytes : Nat
  qdelay : Nat
  voqGran : Nat
  sharedFree : Nat
  header : BitVec 256
  capBytes : Nat
  data : List Line
  deriving DecidableEq, Repr

/-- A mirror copy: the header of Table 3-6, the frame's header unit, and its data cut at `bytes`. -/
structure MirrorRec where
  dest : Cell
  info : Nat
  srcPort : Nat
  origBytes : Nat
  seq : Nat
  time : Nat
  header : BitVec 256
  bytes : Nat
  data : List Line
  deriving DecidableEq, Repr

/-- A frame in a Whey segment (Tables 4-3 and 4-4). -/
structure WFrame where
  f : Frame
  fseq : Nat
  /-- ENQ_NS, PMAP, STREAMED of the length slot. -/
  enqNs : Nat
  pmap : BitVec 64
  streamed : Bool
  /-- Its length-slot write is acknowledged: the frame is committed (R124). -/
  acked : Bool
  /-- Granules its account is charged until the acknowledgement (R97). -/
  charge : Nat
  /-- Words of it that wait for a chunk (R122). -/
  left : Nat := 0
  /-- Chunk and word of its word 0, and of the word after its last. -/
  chunk : Nat
  word : Nat
  endChunk : Nat
  endWord : Nat
  deriving DecidableEq, Repr

/-- A link word (Table 4-2). -/
structure LinkWord where
  cseq : Nat
  ctx : Nat
  cell : Nat
  stack : Nat
  next : Nat
  deriving DecidableEq, Repr

/-- A spill context (R120 to R128). -/
structure SpillCtx where
  inp : Nat
  out : Nat
  tc : Nat
  stack : Nat
  /-- The chunks it holds, oldest first, with the chunk sequence number of the first. -/
  chunks : List Nat
  cseq : Nat := 0
  headChunk : Nat
  headWord : Nat := 0
  tailChunk : Nat
  tailWord : Nat := 0
  fseqWr : Nat := 0
  fseqRd : Nat := 0
  /-- Written frames, oldest first. -/
  frames : List WFrame := []
  /-- Frames that wait at output WHEY for a chunk (R122). -/
  wait : List Frame := []
  /-- The head register holds word 0 of the oldest committed frame. -/
  headReg : Bool := false
  /-- A fetch is outstanding. -/
  fetch : Bool := false
  deriving DecidableEq, Repr

/-- A clock crossing (R116, R117): its pointers, each as its own side holds it; the Gray codes of each in the synchroniser of the other
side, newest first; and the entries that wait upstream to be written. -/
structure XPtr where
  wptr : Nat := 0
  rptr : Nat := 0
  wq : List Nat := []
  rq : List Nat := []
  todo : Nat := 0
  deriving DecidableEq, Repr

/-- Spill contexts, spare pools, the stacks' chunk grants, and the clock crossings (spec/04). -/
structure SpillSt where
  /-- Key: cell × 64 + context. -/
  ctx : NMap SpillCtx := []
  /-- Granted chunks not used yet. Key: cell. -/
  spare : NMap (List Nat) := []
  /-- Packets absorbed on a failed path or for a fenced stack, to be re-issued when the epoch closes (R69, R99). -/
  lost : List Pkt := []
  /-- Cell that a chunk is granted to. Key: stack × 2^21 + chunk. -/
  granted : NMap Nat := []
  /-- Link words written. Key: stack × 2^21 + chunk. -/
  link : NMap LinkWord := []
  /-- Key: address of the crossing's SPILL_XING register; die × 2 for the Rind access crossing of a die, and 1 more for its Rind return
  crossing. -/
  xing : NMap XPtr := []
  deriving DecidableEq, Repr

/-- A histogram record (Table 5-3). -/
structure HistRec where
  time : Nat
  seq : Nat
  cell : Nat
  out : Nat
  tc : Nat
  flags : Nat
  frames : Nat
  periodNs : Nat
  maxDelay : Nat
  maxDepth : Nat
  delay : List Nat
  depth : List Nat
  deriving DecidableEq, Repr

/-- Live counts of one watched queue (R148). -/
structure ObsLive where
  delay : List Nat := List.replicate 16 0
  depth : List Nat := List.replicate 8 0
  frames : Nat := 0
  maxDelay : Nat := 0
  maxDepth : Nat := 0
  /-- The queue's VOQs were SPILLED at a depth sample; a gate or shaper commit applied; a counter saturated. -/
  spilled : Bool := false
  commit : Bool := false
  satur : Bool := false
  deriving DecidableEq, Repr

/-- Queue observation (spec/05). -/
structure SchedSt where
  /-- Key: cell × 4 + queue. -/
  live : NMap ObsLive := []
  /-- A record that waits for SAMP (R149). Key: cell × 4 + queue. -/
  pendRec : NMap HistRec := []
  /-- SEQ of the last record queued. Key: cell. -/
  seq : NMap Nat := []
  /-- Package time of the last copy. Key: cell. -/
  since : NMap Nat := []
  /-- Gate windows a re-issue closed over are logged once each: core cycle at which the window ends. Key: cell. -/
  closedOver : NMap Nat := []
  /-- Cells in retention with an observation period that has ended (R408). -/
  due : List Nat := []
  deriving DecidableEq, Repr

/-- A cached copy of a whole set (R166): the image cell whose slab it is of, the set number, and its ways. -/
structure CSet where
  img : Cell
  set : Nat
  ways : List DirEntry
  deriving DecidableEq, Repr

/-- Where a home or proxy transaction stands. -/
inductive Phase where
  /-- Awaits DIRDATA of its set. -/
  | lookup
  /-- Awaits a way of its cache index to unpin (R166). -/
  | pin
  /-- In its line's wait chain (R170). -/
  | chain
  /-- In the allocation park queue (R204). -/
  | park
  /-- B_RD, B_SNP, B_WR, B_EV, B_RC, B_LOST, B_FWD (Table 6-3). -/
  | rd | snp | wr | ev | rc | lost | fwd
  /-- The line has left its transient state; only DIRACKs are still to come. -/
  | ack
  deriving DecidableEq, Repr

/-- An entry of a home's transaction table (R169, R195). -/
structure Txn where
  req : Pkt
  /-- Arrival order in its home. -/
  ord : Nat
  phase : Phase
  /-- Held by the owner proxy of the cell (R195). -/
  proxy : Bool := false
  /-- The stable entry found when the transaction started. -/
  found : DirEntry := {}
  /-- The stable entry the line takes when it leaves its transient state. -/
  next : DirEntry := {}
  /-- Way of the line's entry; 16 where it has none. -/
  way : Nat := 16
  /-- Slots snooped, and slots whose BIRSP is awaited. -/
  snooped : List HSlot := []
  awSnp : List HSlot := []
  /-- Snoops that wait for SNP_MAX (R187). -/
  snpWait : List HSlot := []
  /-- BIRSP answers counted. -/
  answers : List (HSlot × Mv) := []
  /-- Write-backs whose MCMP is awaited (R178), by their tag and generation. -/
  awWb : List (Cell × Slot × Gen) := []
  /-- MRD issued, and its MCMP awaited. -/
  mrdSent : Bool := false
  awMrd : Bool := false
  /-- DIRACKs awaited. -/
  awAck : Nat := 0
  /-- Controllers of a copy being rebuilt whose DIRACK is still to come; it makes nothing durable (R214). -/
  rsAck : List Cell := []
  /-- GRANT sent, DONE awaited. -/
  grantMv : Mv := .I
  granted : Bool := false
  awDone : Bool := false
  /-- The slots whose proxies hold a FWD of this transaction (R197). -/
  awFwd : List HSlot := []
  /-- The state a FWD lets the owner keep. -/
  fwdMv : Mv := .I
  /-- The transaction that waits for the way an eviction frees (R182). -/
  evictFor : Option Htid := none
  /-- RECALL limited to one slot (R251). -/
  only : Option HSlot := none
  /-- The DIRRD of the set is outstanding. -/
  awDir : Bool := false
  /-- That DIRRD reloads a cached entry that failed its ECC (R167). -/
  reload : Bool := false
  /-- Waits for a shared park slot (R204). -/
  inOvf : Bool := false
  /-- SNP_MAX when the transaction started (R188). -/
  snpMax : Nat := 0
  /-- No MRD or WGO: the extent is FREE or LOST. -/
  noMem : Bool := false
  deriving DecidableEq, Repr

/-- An entry of an anchor's BITag table (R175): who issued the snoop, its HTID, line and slot; a BIRsp that waits
under R203. -/
structure BiTag where
  home : Cell
  htid : Htid
  addr : BitVec 52
  hslot : HSlot
  opc : Opc
  /-- A BIRsp that is held, and the core cycle at which the port received it (R203). -/
  held : Option Mv := none
  heldAt : Nat := 0
  deriving DecidableEq, Repr

/-- A proxy entry (Table 7-1), with the package time since which HELD is I. -/
structure PEnt where
  line : BitVec 46
  held : Mv
  mcell : Cell
  home : Cell
  wout : Nat := 0
  blk : Bool := false
  age : Nat := 0
  since : Nat := 0
  deriving DecidableEq, Repr

/-- One item of a proxy's wait chain: a request of the owner with its transaction, or a FWD. -/
structure PItem where
  line : BitVec 46
  isFwd : Bool
  p : Pkt
  deriving DecidableEq, Repr

/-- An install parked under R192, with its class (R204). -/
structure Parked where
  dat : Bool
  ent : PEnt
  /-- Takes one of the 32 shared slots. -/
  shared : Bool
  deriving DecidableEq, Repr

/-- A request in a home's intake, with what the lookup of its departure meets, and its place in the ring; none in SRAM (R168). -/
structure HReq where
  p : Pkt
  ecc : Ecc := .clean
  ring : Option Nat := none
  deriving DecidableEq, Repr

/-- A FWD being served by a proxy (R198). -/
structure FwdServe where
  p : Pkt
  /-- The snoop has started; it waits for SNP_MAX; its answer is awaited. -/
  snooped : Bool := false
  snpWait : Bool := false
  awSnp : Bool := false
  answer : Option Mv := none
  /-- Write-backs whose MCMP is awaited, by their tag and generation. -/
  awWb : List (Cell × Slot × Gen) := []
  /-- SNP_MAX when the service started (R188). -/
  snpMax : Nat := 0
  hadEntry : Bool := false
  deriving DecidableEq, Repr

/-- The coherence homes, owner proxies and the directory (spec/06, spec/07). -/
structure HomeSt where
  /-- Directory cache, most recent copy first. Key: cell × 512 + index. -/
  cache : NMap (List CSet) := []
  /-- Stable directory in HBM: primary and mirror copy. Key: (image cell × 2^20 + set) × 16 + way. -/
  dirP : NMap DirEntry := []
  dirM : NMap DirEntry := []
  /-- Transaction tables. Key: cell × 1024 + HTID. -/
  tt : NMap Txn := []
  /-- Next arrival number. -/
  ord : Nat := 0
  /-- Requests not yet departed from a home's intake (R168), oldest first. Key: cell. -/
  intake : NMap (List HReq) := []
  /-- Intake rings in HBM, 32 B for each entry (R168). Key: stack × 2^40 + stack offset. -/
  ring : NMap Pkt := []
  /-- Conflict tables (R187). Key: cell. -/
  conflicts : NMap (List Pkt) := []
  /-- BITag tables. Key: anchor × 4096 + tag. -/
  bitag : NMap BiTag := []
  /-- BISnps that wait for a BITag entry (R175). Key: anchor. -/
  snpHeld : NMap (List Pkt) := []
  /-- Proxy tables. Key: (anchor × 512 + set) × 8 + way. -/
  proxy : NMap PEnt := []
  /-- Wait chains of a proxy, in order of arrival (R195). Key: anchor. -/
  pchain : NMap (List PItem) := []
  /-- FWDs that wait on VC2 for the FWD table (R198). Key: anchor. -/
  fwdWait : NMap (List Pkt) := []
  /-- FWDs in service. Key: anchor. -/
  fwdServe : NMap (List FwdServe) := []
  /-- Parked installs (R192, R204). Key: anchor. -/
  parked : NMap (List Parked) := []
  /-- Requests set aside under R208, in arrival order. Key: cell. -/
  setAside : NMap (List HReq) := []
  /-- Indices a cell has adopted. Key: cell. -/
  adopted : NMap (List Nat) := []
  /-- Indices whose lines a cell holds in B_TAKE, those it gives back to their image cells (R212), and those it has given
  back, as cell × 128 + index. -/
  held : List Nat := []
  giving : List Nat := []
  gaveBack : List Nat := []
  /-- Package time (µs) of the last takeover's start. -/
  takeAt : Nat := 0
  /-- Slots that a cell has learnt are lost (R210), as cell × 128 + slot. -/
  twinLost : List Nat := []
  /-- Sets lost in both copies, with the lines already recovered (R160). Key: image cell × 2^20 + set. -/
  lostSets : NMap (List Nat) := []
  /-- Cells whose DIR_SEL lookup is running. -/
  looking : List Cell := []
  /-- Home extent maps. Key: cell × 65536 + extent. -/
  ext : NMap ExtEnt := []
  /-- Re-silvering writes held for the block being copied (R214). Key: die of the source controller. -/
  rsHeld : NMap (List Pkt) := []
  deriving DecidableEq, Repr

/-- An instance template (Table 15-8). -/
structure Tmpl where
  mig : Bool := false
  privMem : Bool := false
  mirror : Bool := false
  reqTc : Nat := 0
  dataTc : Nat := 0
  cap0 : Nat := 0
  slotMin : Nat := 0
  slotMax : Nat := 0
  holdMax : Nat := 0
  bwMin : Nat := 0
  bwMax : Nat := 0
  ctrPerm : BitVec 64 := 0
  deriving DecidableEq, Repr

/-- An auto-bind rule (Tables 8-4 and 15-9). -/
structure AbRule where
  trigger : Nat
  port : Nat
  template : Nat := 0
  count : Nat := 0
  vppb : Nat := 0
  mirrored : Bool := false
  partner : Nat := 0x7F
  release : Bool := false
  tPort : Nat := 0
  tVppb : Nat := 0
  deriving DecidableEq, Repr

/-- A held request of a host (R240): its packet, the DPA its decoder gives (none: no decoder matched), and how it is
answered if it is a stray of R245 or R247. -/
structure Held where
  p : Pkt
  dpa : Option Nat
  stray : Bool := false
  /-- Core cycle at which it entered the hold. -/
  at_ : Nat := 0
  /-- Its port's link has gone down since: the response is discarded (R372). -/
  gone : Bool := false
  deriving DecidableEq, Repr

/-- A migration or save that runs (Table 8-7): source anchor and vPPB, core cycle of the freeze point, save without
migrating, and the blob once it is written. -/
structure Mig where
  srcPort : Nat
  srcVppb : Nat
  tPort : Nat
  tVppb : Nat
  freezeAt : Nat := 0
  /-- The freeze point is past; the target has thawed; its regions are live. -/
  frozen : Bool := false
  thawed : Bool := false
  ready : Bool := false
  save : Bool := false
  remote : Bool := false
  /-- Chain address of the target module. -/
  tModule : Nat := 0
  /-- FREEZE_LIMIT at the freeze point, in µs (R261). -/
  limit : Nat := 0
  /-- The state the instance returns to when the operation does not complete. -/
  back : Nat := 3
  deriving DecidableEq, Repr

/-- What a recall sweep belongs to (R236, R237, R246). -/
inductive SweepFor where
  | unbind (i : Nat) (keep : Bool) | release (i : Nat) | migRecall (i : Nat) | migDrain (i : Nat)
  deriving DecidableEq, Repr

/-- An engine's share of a sweep: its die, the number of its next line, and the line of its open RECALL; none with lines left while the
engine has 2,048 RECALLs open (R259). -/
structure SweepEng where
  die : Nat
  next : Nat
  line : Option Nat
  deriving DecidableEq, Repr

/-- A recall sweep (R251): the extents, the slot it is limited to, and the engines that divide the lines. Each engine
holds one RECALL of it open (DESIGN CHOICE, log 15). -/
structure Sweep where
  goal : SweepFor
  inst : Nat
  exts : List Nat
  only : Option HSlot
  /-- Core cycle in which it began. -/
  since : Nat := 0
  engs : List SweepEng
  deriving DecidableEq, Repr

/-- An access at a MEMORY cell (R225 to R228). -/
structure MemAcc where
  cell : Cell
  p : Pkt
  write : Bool
  /-- The expander's own completion is awaited. -/
  awOwn : Bool := true
  /-- Other sides whose access is awaited (R227, R228, R253). -/
  awSides : Nat := 0
  /-- This access is one side of that access. -/
  of_ : Option Nat := none
  /-- MSPEC: no response. -/
  spec : Bool := false
  /-- MFLUSH: an MCMP once the line's writes are complete. -/
  flush : Bool := false
  /-- A partial write that reads the line first. -/
  rmw : Bool := false
  /-- A write held for the block being copied or rewritten (R253, R287). -/
  held : Bool := false
  /-- The read was answered with poison or an error by one side already (R228). -/
  retried : Bool := false
  deriving DecidableEq, Repr

/-- A part of a Press MOVE or RESILVER (R253). -/
structure PressPart where
  ext : Nat
  /-- The cell whose side it copies. -/
  src : Nat := 0
  mirrorSide : Bool
  destCell : Nat
  destExt : Nat
  block : Nat := 0
  poisoned : Bool := false
  code : Nat := 0
  /-- The part has finished. -/
  ended : Bool := false
  /-- RESILVER: the part's own MAP note is out, and it is complete (R254). -/
  sent : Bool := false
  fin : Bool := false
  deriving DecidableEq, Repr

/-- A Press operation of a die (R252): MOVE or RESILVER. -/
structure PressOp where
  resilver : Bool
  parts : List (Nat × PressPart)
  /-- The remap barrier: its MAP note is out; every source drains (R254). -/
  remap : Bool := false
  /-- The remap note is complete; the sources still drain. -/
  noted : Bool := false
  deriving DecidableEq, Repr

/-- One part of a COPY (R255): pool lines to copy from and to (none: forbidden, zero or ignored), the line being copied,
and the data it waits to write. -/
structure CopyPart where
  num : Nat
  srcDpa : Nat
  dstDpa : Nat
  lines : Nat
  line : Nat := 0
  data : Option (Line × Bool) := none
  granted : Option (Cell × Htid) := none
  /-- The line is being written; GEN of its open request. -/
  writing : Bool := false
  gen : Nat := 0
  code : Nat := 0
  partly : Bool := false
  allowed : Bool := false
  poisoned : Bool := false
  ended : Bool := false
  /-- Its lines are being copied: a part of an instance that a barrier pauses is not (R277). -/
  started : Bool := false
  deriving DecidableEq, Repr
/-- A COPY of an instance: who asked, the die whose engine runs it, and its parts. -/
structure CopyOp where
  die : Nat
  priv : Bool
  tenant : Bool
  parts : List CopyPart
  deriving DecidableEq, Repr

/-- A scrub (R257): the engine's die, the owner, and the block it writes next. -/
structure Scrub where
  die : Nat
  owner : Nat
  group : Bool
  block : Nat := 0
  deriving DecidableEq, Repr

/-- What follows a map change (R226). -/
inductive NoteFor where
  | none
  /-- KEY none for extents an owner gives up (R285). -/
  | retire (owner : Nat) (exts : List Nat) (unbound : Option Bool)
  /-- The remap of a MOVE. -/
  | remap (d : Nat)
  /-- The remap of a RESILVER part. -/
  | silvered (ext : Nat)
  /-- A rekeyed extent takes its new slot (R287). -/
  | rekey (ext : Nat)
  deriving DecidableEq, Repr

/-- A MAP note (R226): the entries it changes, the cells that have acknowledged it, and what follows. -/
structure MapNote where
  home : List (Nat × ExtEnt)
  dev : List (Nat × Nat × Option DevEnt)
  acked : List Nat := []
  goal : NoteFor
  deriving DecidableEq, Repr

/-- Pooling, binding and instances (spec/08). -/
structure PoolSt where
  /-- Instances and sharing groups. Key: instance, or 4096 + group. -/
  own : NMap Owner := []
  /-- Life of an extent: 1 OWNED, 2 RETIRED, 3 SCRUBBING; unlisted FREE (Table 8-20). -/
  life : NMap Nat := []
  /-- Device maps. Key: cell × 65536 + extent. -/
  dev : NMap DevEnt := []
  /-- The expander behind each MEMORY port, and ports whose expander is lost. -/
  expander : NMap Expander := []
  lost : List Nat := []
  /-- The device extent a lost side held: serial number and device extent. Key: extent × 2 + side. -/
  was : NMap (BitVec 64 × Nat) := []
  /-- The device extent that a MEMORY_ADD rule chose to replace the lost side of a SINGLE extent: cell × 4096 + device extent (R231). Key: extent. -/
  repl : NMap Nat := []
  /-- Instances whose region entries an UNBIND has removed: every request to them is a region miss (R236). -/
  cut : List Nat := []
  hold : NMap (List Held) := []
  /-- Credits of R241, in 1/1024 B. Key: instance. -/
  credMin : NMap Int := []
  credMax : NMap Int := []
  /-- The core cycle behind the anchor's last admission (R241). Key: anchor. -/
  admitAt : NMap Nat := []
  /-- The rotating pointers of R241: last vPPB served of each group. Key: anchor. -/
  ptrMin : NMap Nat := []
  ptrRest : NMap Nat := []
  /-- Device requests that wait for a barrier (R277). Key: DEVICE cell. -/
  devHeld : NMap (List DevReq) := []
  /-- HDM decoders of a host's virtual devices. Key: anchor. -/
  hdm : NMap (List Hdm) := []
  /-- Default-map blocks an anchor has cached, (region, block), oldest first. Key: instance. -/
  mapCache : NMap (List (Nat × Nat)) := []
  /-- DC Add Capacity events that the host has not answered, oldest first: owner, and extents (R235). Key: instance. -/
  dcOpen : NMap (List (Nat × List Nat)) := []
  /-- Extents whose DC Release Capacity event the host has not answered (R237). Key: instance. -/
  dcGiving : NMap (List Nat) := []
  acc : NMap MemAcc := []
  nextAcc : Nat := 0
  sweeps : List Sweep := []
  press : NMap PressOp := []
  copy : NMap CopyOp := []
  scrub : NMap Scrub := []
  notes : NMap MapNote := []
  nextNote : Nat := 0
  migs : NMap Mig := []
  /-- Blobs in metadata, the sealed bytes of those that the module has sealed (Table 8-8), and (module, SEQ) pairs restored from. Key: instance. -/
  blobs : NMap Blob := []
  sealed : NMap (List Byte) := []
  blobSeq : Nat := 0
  restored : List (Nat × Nat) := []
  /-- Slots whose managed removal waits for the host to disable them (R220): the instance that unbinds and whether its record stays;
  none for a DEVICE port. Key: anchor × 64 + vPPB. -/
  slotWait : NMap (Option (Nat × Bool)) := []
  /-- Ports that hold admission in pause in MAINTENANCE (R471). -/
  paused : List Nat := []
  deriving DecidableEq, Repr

/-- A region change that waits for, or runs, the commit barrier (R275, R277): the operation, the entries to set, the
instances it touches, the cells concerned, and those that have drained. -/
inductive BarFor where
  | epoch | bind (i : Nat) | unbind (i : Nat) (keep : Bool) | restore (i : Nat) | srcGone (i : Nat)
  | release (i : Nat) (exts : List Nat) (force : Bool)
  /-- The entries that touch extents are gone before the extents leave their owner (R276). -/
  | retire (owner : Nat) (exts : List Nat) (unbound : Option Bool)
  deriving DecidableEq, Repr
structure Barrier where
  goal : BarFor
  /-- (cell, entry, its four words). -/
  sets : List (Nat × Nat × Option Region)
  insts : List Nat
  cells : List Nat
  drained : List Nat := []
  deriving DecidableEq, Repr

/-- A key slot (R282): Table 9-7 state, owner, the key, the wall time of its generation, and the cells
that have yet to acknowledge a ZEROIZE. -/
structure KeyRec where
  st : Nat := 0
  group : Bool := false
  owner : Nat := 0
  key : BitVec 512 := 0
  at_ : Nat := 0
  /-- Being generated: no key yet. -/
  making : Bool := false
  awAck : List Nat := []
  deriving DecidableEq, Repr

/-- A rotation (R287): the owner, the slots, the extents still to rekey, and whether the manager started it. -/
structure Rot where
  owner : Nat
  group : Bool
  old : Nat
  new : Nat
  left : List Nat
  byMgr : Bool
  deriving DecidableEq, Repr

/-- A rekey walker: its cell, and the cursor of each side in blocks. -/
structure Walker where
  cell : Nat
  block : Nat := 0
  mirBlock : Nat := 0
  deriving DecidableEq, Repr

/-- The keys of an IDE link stream (R290): the draw behind them, and whether the module programmed them, as it does on a MEMORY port, or the
link partner, to which it is the responder. -/
structure IdeKey where
  draw : Nat
  byModule : Bool
  deriving DecidableEq, Repr

/-- Protection and tenant sealing (spec/09). -/
structure SecSt where
  /-- Active region entries. Key: cell × 1024 + entry. -/
  region : NMap Region := []
  /-- The barrier that runs, and those that wait. -/
  barrier : Option Barrier := none
  waiting : List Barrier := []
  /-- Key: slot. -/
  slots : NMap KeyRec := []
  /-- Key RAMs: the key loaded. Key: cell × 8192 + slot. -/
  keyRam : NMap (BitVec 512) := []
  /-- KEYLOAD notes on their way: cell, slot and wrapped key. -/
  loads : List (Nat × Nat × BitVec 576) := []
  rots : List Rot := []
  /-- Rotations that wait for one of the 64 (R288). -/
  rotQueue : List (Nat × Bool × Bool) := []
  /-- Key: extent. -/
  walk : NMap Walker := []
  /-- Cells whose full violation ring is already logged (R293). -/
  ringFull : List Nat := []
  /-- The draw behind the transport key, and the customer seed and boot nonce behind the local blob key (R280). None where the key is gone. -/
  transport : Option Nat := none
  blobKey : Option (Nat × Nat) := none
  /-- Stream keys of IDE link streams (R290). Key: port. -/
  ide : NMap IdeKey := []
  deriving DecidableEq, Repr

/-- A chain sealing key of another module: the BOOT it came with, the hash of its device certificate, and the public key (R351). -/
structure PeerKey where
  boot : Nat
  hash : Nat
  key : List Byte
  deriving DecidableEq, Repr
/-- A frame in the replay store (R330): its number, its slots, and the packets that have units in it. -/
structure OStored where
  seq : Nat
  slots : List OSlot
  pkts : List CPkt
  deriving DecidableEq, Repr
/-- A packet that a link is receiving on one virtual channel (R328). -/
structure ORx where
  cu : ChainUnit
  hdr : Option Pkt := none
  halves : List (BitVec 256) := []
  pois : Word := 0
  deriving DecidableEq, Repr
/-- A chain slot (R355): the module the request came from, its header as it arrived, and what has not been answered. -/
structure CSlot where
  smod : Fin 32
  hdr : Pkt
  awData : Bool
  awMcmp : Bool := true
  deriving DecidableEq, Repr
/-- An advertisement held (Table 11-20), with the core cycle at which it came. -/
structure Adv where
  boot : Nat
  seq : Nat
  member : Nat
  topo : Nat
  nbrs : Nat
  heard : Nat
  deriving DecidableEq, Repr
/-- A transfer of pieces (Table 11-22): the whole's number and length, and its pieces by offset. -/
structure Pieces where
  xseq : Nat
  total : Nat
  got : NMap (List Line) := []
  deriving DecidableEq, Repr
/-- Onora links and the chain (spec/11). Keys are anchors unless said otherwise. -/
structure OnlSt where
  /-- Packets queued for a link (R328), oldest first. -/
  queue : NMap (List CPkt) := []
  /-- Replay stores, oldest frame first (R330). -/
  store : NMap (List OStored) := []
  /-- The frame last NAKed and how often in a row (R333). -/
  naks : NMap (Nat × Nat) := []
  /-- Last credit report of a pool by the partner; of a pool of this side, its allotment and the slots freed in it since UP, and how
  much of that this side has reported (R335). Key: (anchor × 2 + phase) × 8 + VC. -/
  report : NMap Nat := []
  freed : NMap Nat := []
  told : NMap Nat := []
  /-- The pool the next report is of (R335). -/
  crPtr : NMap Nat := []
  /-- Packets being received. Key: anchor × 8 + VC. -/
  rx : NMap ORx := []
  /-- Links that discard frames until SEQ = RX_EXPECT, after a failed frame (R331). -/
  failed : List Nat := []
  /-- Accepted frames that no sent ACK covers (R332). -/
  unacked : NMap Nat := []
  /-- Packets in a receive buffer whose own command has not come, oldest first, with the phase and the link of the slots they
  hold. Key: ONORA cell. -/
  arrived : NMap (List (Cell × CPkt)) := []
  /-- Core cycle at which DETECT ended, links that train at 128 GT/s, failed trainings in a row, and blocks that failed TCRC
  in a row (key: lane). -/
  trainAt : NMap Nat := []
  fast : List Nat := []
  fails : NMap Nat := []
  tcrc : NMap Nat := []
  /-- REQ_ID last applied (R339). Key: lane. -/
  reqId : NMap Nat := []
  /-- Chain slots. Key: cell × 1024 + slot. -/
  cslot : NMap CSlot := []
  /-- Remote extent table (R354): exporting module and its extent. Key: extent. -/
  rext : NMap (Nat × Nat) := []
  /-- Advertisements held. Key: origin. -/
  adv : NMap Adv := []
  /-- (BOOT, ADV_SEQ, core cycle) of the advertisements of an origin seen within 50 ms (R352). Key: origin. -/
  seen : NMap (List (Nat × Nat × Nat)) := []
  /-- The module's own BOOT (a draw) and ADV_SEQ, and the adjacency it last advertised. -/
  boot : Nat := 0
  advSeq : Nat := 0
  nbrs : Nat := 0
  /-- Next-hop address toward a module, now and before the open chain epoch (R349). Key: module. -/
  next : NMap Nat := []
  oldNext : NMap Nat := []
  epochOpen : Bool := false
  /-- PSEQ and T_SEND of the last PROBE to a module, and probes sent. Key: module. -/
  probe : NMap (Nat × Nat) := []
  pseq : Nat := 0
  /-- Blobs on their way: target module, XSEQ, total length and the lines of the whole. Key: instance. -/
  tx : NMap (Nat × Nat × Nat × List Line) := []
  /-- Wholes being assembled: BLOB and KEYX. Key: module. -/
  rxBlob : NMap Pieces := []
  rxKeyx : NMap Pieces := []
  /-- Chain sealing keys held (R351). Key: module. -/
  csk : NMap PeerKey := []
  /-- (address, BOOT) pairs whose KEYX has been answered. -/
  keyxSeen : List (Nat × Nat) := []
  /-- Core cycle at which a KEYX that has no ACK yet was last sent (R351). Key: module. -/
  keyxAt : NMap Nat := []
  deriving DecidableEq, Repr

/-- A fault log entry (Table 12-7). -/
structure FaultRec where
  time : Nat
  cls : Nat
  cell : Nat
  subj : Nat
  cause : Nat
  detail : Nat
  kind : Nat
  flags : Nat
  epoch : Nat
  seq : Nat
  mode : Nat
  step : Nat
  elem : Nat
  tUs : Nat
  deriving DecidableEq, Repr

/-- A violation record (Table 9-5). -/
structure ViolRec where
  time : Nat
  inst : Nat
  requester : Nat
  cell : Nat
  port : Nat
  access : Nat
  reason : Nat
  parts : Nat
  denied : Nat
  addr : Nat
  len : Nat
  deniedBytes : Nat
  deriving DecidableEq, Repr

/-- An access record (Table 16-6). -/
structure AccRec where
  time : Nat
  source : Nat
  reason : Nat
  origin : Nat
  addr : Nat
  data : Nat
  count : Nat
  seq : Nat
  deriving DecidableEq, Repr

/-- A commit record (Table 16-9). -/
structure CommitRec where
  time : Nat
  epoch : Nat
  kind : Nat
  rule : Nat
  detail : Nat
  cell : Nat
  addr : Nat
  applied : Nat
  refused : Nat
  seq : Nat
  deriving DecidableEq, Repr

/-- A life-cycle audit entry (Table 15-16). -/
structure AuditRec where
  sec : Nat
  subsec : Nat
  kind : Nat
  source : Nat
  lc : Nat
  detail : Nat
  addr : Nat
  count : Nat
  seq : Nat
  tag : Nat
  deriving DecidableEq, Repr

/-- An event that a rule has logged, and to which the spec gives no log format: a read of a frozen source (R247), an auto-bind rule that is
skipped (R239), an operation without its key (R281). -/
inductive EventKind where
  | strayRead | ruleSkipped | noKey
  deriving DecidableEq, Repr
structure EventRec where
  time : Nat
  kind : EventKind
  /-- Instance or owner, or the trigger of the rule. -/
  subj : Nat
  port : Nat
  deriving DecidableEq, Repr

/-- The logs of spec/12 R377 and R378, newest entry first, and what is being recovered. -/
structure LogSt where
  fault : List FaultRec := []
  /-- Fault-log entries that cells hold while no service processor takes them, oldest first (R377). -/
  unsent : List FaultRec := []
  viol : List ViolRec := []
  access : List AccRec := []
  commit : List CommitRec := []
  audit : List AuditRec := []
  /-- Events without a log of their own, newest first (DESIGN CHOICE, log 124). -/
  event : List EventRec := []
  /-- Package time (ns) of the fault whose recovery runs, its class, and an element for its step entries. -/
  faultAt : Nat := 0
  faultCls : Nat := 0
  /-- The recovery's re-issues still open, as cell × 1024 + slot (R371). -/
  reissued : List Nat := []
  /-- The mode an element's return leads from: a return runs (R374). -/
  returning : Option Elem := none
  /-- A fetch of PKG_LOG_SEL is outstanding (R378). -/
  fetching : Bool := false
  /-- BW_MIN scale, eighths (R373). -/
  scale : Nat := 8
  deriving DecidableEq, Repr

/-- An envelope entry (Table 16-5). -/
structure EnvEntry where
  addr : Nat
  stride : Nat
  count : Nat
  lsb : Nat
  width : Nat
  wr : Bool
  rd : Bool
  lo : Nat
  hi : Nat
  deriving DecidableEq, Repr
/-- An envelope: readable blocks and entries (R462). -/
structure Envelope where
  reads : BitVec 8 := 0
  entries : List EnvEntry := []
  deriving DecidableEq, Repr

/-- Where a commit epoch stands (R467). -/
inductive EpochPhase where
  | close | check | barrier | apply
  deriving DecidableEq, Repr
/-- A running commit epoch: the shadows that joined it, as (mask, value) by register; the blocks that have yet to
acknowledge; registers applied and refused; core cycle of GO. -/
structure Epoch where
  phase : EpochPhase := .close
  shadows : NMap (Nat × Nat) := []
  awAck : List Nat := []
  applied : Nat := 0
  refused : Nat := 0
  goAt : Nat := 0
  /-- Module commits that were waiting when GO was written, and go first (R275). -/
  after : Nat := 0
  deriving DecidableEq, Repr

/-- A stored response of R455: path, SEQ and TYPE. -/
structure Answer where
  src : Src
  seq : Nat
  typ : Nat
  payload : List (BitVec 64)
  deriving DecidableEq, Repr

/-- The lease, the envelope and the commit engine (spec/16). -/
structure MgrSt where
  holder : Option Src := none
  client : Nat := 0
  /-- Wall time at which the lease ends. -/
  leaseEnd : Nat := 0
  env : Option Envelope := none
  /-- Shadows not yet in an epoch, as (mask, value). Key: register address. -/
  shadow : NMap (Nat × Nat) := []
  epoch : Option Epoch := none
  /-- Acknowledged fields whose safe point has not come, as (mask, value). Key: register address. -/
  pend : NMap (Nat × Nat) := []
  /-- The last 8 responses, newest first (R455). -/
  answers : List Answer := []
  deriving DecidableEq, Repr

/-- Performance counters (spec/17): live instance counts READS, WRITES, RD_LAT, HOLD_NS, THROTTLE_NS (R481), and each cell's
capture unit (R478, R479). -/
structure CtrSt where
  /-- Key: instance × 8 + count. -/
  inst : NMap Nat := []
  /-- A capture that is due: core cycle of the first overflow, and OVF_MASK. Key: cell. -/
  capture : NMap (Nat × Nat) := []
  /-- The pending record, as words. Key: cell. -/
  record : NMap (List Nat) := []
  /-- LOST, and the counters it names, for the next record. Key: cell. -/
  lost : NMap (Nat × Nat) := []
  /-- SEQ of the next record. Key: cell. -/
  seq : NMap Nat := []
  /-- Low 128 bits of the header of the last frame started at output PORT. Key: cell. -/
  header : NMap Nat := []
  deriving DecidableEq, Repr

/-- The temperature sensors (R498, R499): those at or above their warn threshold, and THERM_N. Sensors 0 to 31 are the dies' (four
each), 32 to 35 the stacks', 36 to 51 the regulator phase groups' (two for each die). -/
structure ThermSt where
  warm : List (Fin 52) := []
  asserted : Bool := false
  deriving DecidableEq, Repr

/-- The JTAG TAP (R443): instruction register, boundary-scan register, data of the last DBG_ACC read, and the service processors that
DBG_SP has halted. -/
structure JtagSt where
  ir : BitVec 8 := 0x01
  bsr : BitVec 9 := 0
  data : Word := 0
  halted : List Die := []
  deriving DecidableEq, Repr

/-- An SPDM request that waits for a signature (R451): its HOST port and what is signed. -/
inductive SignFor where
  | challenge | measurements (index : Nat) | keyExchange
  deriving DecidableEq, Repr
/-- The SPDM responder: requests in the signing queue, oldest first, and ports with a session. -/
structure SpdmSt where
  queue : List (Cell × SignFor) := []
  sessions : List Cell := []
  deriving DecidableEq, Repr

/-- Power domains, die PLLs and the power entry (spec/13, spec/14). -/
structure PwrSt where
  /-- Entries to RETENTION or OFF, and the last time to ON in ns (Table 14-8). Key: domain. -/
  entries : NMap Nat := []
  onNs : NMap Nat := []
  /-- Core cycle of the wake of a cell that is not ON yet. Key: cell. -/
  wakeAt : NMap Nat := []
  /-- Wall time at which a die's PLL started. Key: die. -/
  pllAt : NMap Nat := []
  /-- Wall time at which both feeds were lost (R394). -/
  lostAt : Nat := 0
  /-- The draw is capped (R395). -/
  capped : Bool := false
  /-- Sensors of the regulator phase groups that a thermal trip has turned off (R498); a die that returns gets its own back. -/
  tripped : List Nat := []
  /-- The Rind supply runs (R382). -/
  rind : Bool := true
  deriving DecidableEq, Repr

/-- Serial lanes (spec/10). -/
structure LaneSt where
  /-- Anchors whose partner supports lane reversal (R304). -/
  reverses : List Nat := []
  /-- Core cycle at which a lane fault began the port's Recovery (R305). Key: anchor. -/
  faultAt : NMap Nat := []
  /-- Core cycle at which a port entered Recovery (R139). Key: anchor. -/
  recAt : NMap Nat := []
  /-- The port is in Recovery toward this width, reversed or not (R304). Key: anchor. -/
  goal : NMap (Nat × Bool) := []
  /-- Bits that a lane's checker has compared, and the core cycle since which it has been LOCKED. Key: lane. -/
  bits : NMap Nat := []
  locked : NMap Nat := []
  /-- Core cycle of the last error the lane's generator injected (R310). Key: lane. -/
  injAt : NMap Nat := []
  deriving DecidableEq, Repr

/-- A FIELDS record (Table 15-7), with its section and its number in it. -/
structure ImgField where
  sect : Nat
  num : Nat
  addr : Nat
  stride : Nat
  count : Nat
  mask : Word
  value : Word
  deriving DecidableEq, Repr
/-- An INSTANCES entry (Table 15-4). -/
structure ImgInst where
  inst : Nat
  template : Nat
  grouped : Bool
  group : Nat
  exts : List Nat
  deriving DecidableEq, Repr
/-- A CAPACITY entry (Table 15-4). -/
structure ImgCap where
  port : Nat
  partner : Nat
  mirrored : Bool
  first : Nat
  count : Nat
  deriving DecidableEq, Repr
/-- What a verified image holds (Tables 15-2 to 15-9, 16-4). -/
structure Image where
  /-- 0 A, 1 B. -/
  dev : Nat
  kind : Nat
  commitSvn : Bool
  svn : Nat
  /-- SHA-384 of the bytes to the end of the section table (measurement 2), of the owner key, of the payload, and POLICY_HASH. -/
  digest : BitVec 384
  keyHash : BitVec 384
  payload : BitVec 384
  policy : BitVec 384
  fields : List ImgField := []
  templates : List (Nat × Tmpl) := []
  insts : List ImgInst := []
  rules : List AbRule := []
  caps : List ImgCap := []
  regions : List Region := []
  peers : List Nat := []
  env : Envelope := {}
  leaseMs : Nat := 1000
  paths : Nat := 1
  mctpPort : Nat := 0x7F
  session : Bool := false
  maint : Bool := false
  deriving DecidableEq, Repr
/-- An operation of the NOR window that runs (R434). -/
structure NorOp where
  dev : Nat
  op : Nat
  off : Nat
  deriving DecidableEq, Repr
/-- The boot memory, the image and the fuses (spec/15). -/
structure ImgSt where
  /-- Bytes of the boot NOR devices; an unlisted byte is erased, 0xFF. Key: device × 2^26 + offset. -/
  nor : NMap Byte := []
  /-- Devices that SFDP or a bus error shows absent. -/
  norDead : List Nat := []
  /-- Entries ever written to an area, and the log's SEQ up to which they are (R419, R420). Key: device × 2 + area (0 audit,
  1 fault log). -/
  norPos : NMap Nat := []
  norSeq : NMap Nat := []
  norOp : Option NorOp := none
  /-- The slot that a PKG_IMAGE_VERIFY checks. -/
  verifying : Option Nat := none
  /-- Sealed owner hash fuses, and whether their CRC-16 passes (R440). -/
  fuseHash : BitVec 384 := 0
  fuseGood : Bool := false
  /-- The image that passed, and whether it is staged in metadata (R431). -/
  image : Option Image := none
  staged : Bool := false
  /-- Hash of the owner key of the image that last passed check 8 since DORMANT (R438). -/
  lastKey : Option (BitVec 384) := none
  /-- Rennet: CRC and writes of a cell (R432). Key: cell. Cells rewritten, and cells that matched. -/
  rennet : NMap (Nat × Nat) := []
  rewritten : List Nat := []
  matched : List Nat := []
  /-- Core cycle at which BRING_UP began. -/
  bringAt : Nat := 0
  /-- An element was fenced in SELF_TEST or BRING_UP (R41). -/
  fencedUp : Bool := false
  /-- CTR_PERM of an instance's template. Key: instance. -/
  ctrPerm : NMap Nat := []
  templates : NMap Tmpl := []
  rules : List AbRule := []
  /-- The chain peer list: SHA-384 hashes of identity certificates (R289). -/
  peers : List Nat := []
  /-- Rennet distribution has ended (R432). -/
  distributed : Bool := false
  /-- The draws behind the fused root device key and customer seed; none where not fused, or destroyed (R280, R437, R441). -/
  rootKey : Option Nat := none
  seed : Option Nat := none
  /-- A return runs: its SAFE_STOP ends in steps 2 to 5 of R441, with this burn. -/
  returning : Option Burn := none
  /-- TAG of the owner key of the return that runs (Table 15-16). -/
  retKey : Nat := 0
  deriving DecidableEq, Repr
/-- Kinds of SPDM response (R449 to R451). -/
inductive SpdmAns where
  | version | capabilities | algorithms | certificate | challengeAuth | measurements | keyExchange
  | notReady | unspecified | invalidRequest
  deriving DecidableEq, Repr
/-- Something the module sends to the outside. -/
inductive Out where
  /-- An Onora frame on the link of anchor a: TYPE, SEQ, control word and slots (Table 11-4). -/
  | onlFrame (a : Cell) (typ seq : Nat) (x : OCtl) (slots : List OSlot)
  /-- An ALIGN codeword (R325). -/
  | onlAlign (a : Cell)
  /-- ALIGN and SKIP on the manager port's lanes in use, as TX_WIDTH codes them (R314). -/
  | mgrSkip (width : Nat)
  /-- The answer to a request of the partner's receiver on lane l: ACK_ID, TAP_ST per tap, PRESET_OK (Table 11-7). -/
  | onlEq (l : Lane) (id : Nat) (taps : List Nat) (presetOk : Bool)
  /-- A record that SAMP of a cell sends to the active service processor (R106, R149, R479). -/
  | samp (p : Pkt)
  /-- A CXL.io TLP, CXL.cache or CXL.mem message leaves the port of a cell toward a pass-through device or its host (R151). -/
  | tlp (c : Cell) (p : Pkt)
  /-- A mirror copy leaves the port of a cell as a PCIe Vendor-Defined Type 1 message with a vendor ID (R110): the mirror header, the header
  unit and the data of the frame. -/
  | vdm (c : Cell) (vendor : BitVec 16) (payload : List Line)
  /-- A BISnp to the host of anchor a, with its BITag (R175). -/
  | biSnp (a : Cell) (tag : Fin 4096) (opc : Opc) (addr : BitVec 52)
  /-- BIConflictAck to the host of anchor a (R186). -/
  | biConflictAck (a : Cell) (addr : BitVec 52)
  /-- The host port anchored at a is reported as a link failure (R181). -/
  | linkFailure (a : Cell)
  /-- The note on VC4 to every cell that the slot of the HOST port anchored at a, which has a twin, is lost (R210). -/
  | twinNote (a : Cell) (hs : HSlot)
  /-- A response leaves the port that cell c belongs to. -/
  | resp (c : Cell) (r : Resp)
  /-- A read of the expander behind m: access number and device address (R225). -/
  | expRead (m : Cell) (acc : Nat) (dpa : Nat)
  /-- A write of ciphertext, with poison. -/
  | expWrite (m : Cell) (acc : Nat) (dpa : Nat) (raw : Line) (mask : Word) (poison : Bool)
  /-- A block of 4 KiB that an engine copies or rewrites between expanders: source cell and address, destination. -/
  | expBlock (m : Cell) (dpa : Nat) (m2 : Cell) (dpa2 : Nat)
  /-- A block of zeros under a key (R257). -/
  | expZero (m : Cell) (dpa : Nat) (key : Nat)
  /-- A block of 4 KiB rewritten under a new key; a line that reads as poisoned is written back poisoned (R287). -/
  | expRekey (m : Cell) (dpa : Nat) (old new : Nat)
  /-- The module programs the keys of the stream of a MEMORY port, through IDE_KM (R290). -/
  | ideKeys (p : Cell)
  /-- The module programs the HDM decoder of the expander behind m (R239). -/
  | expDecoder (m : Cell)
  /-- Hot-add on vPPB v of the port anchored at a; a removal of R220: 0 managed, 1 simulated managed, 2 simulated surprise. -/
  | hotAdd (a : Cell) (v : Nat)
  | removal (a : Cell) (v : Nat) (mode : Nat)
  /-- DC Add Capacity and DC Release Capacity events of instance i. -/
  | dcAdd (i : Nat) (exts : List Nat)
  | dcRelease (i : Nat) (exts : List Nat) (force : Bool)
  /-- A ZMP response: path, TYPE, SEQ, STATUS and payload (Table 16-1). -/
  | zmp (src : Src) (typ seq status : Nat) (payload : List Nat)
  /-- An answer to an MCTP control message. -/
  | mctp (src : Src)
  /-- What a JTAG data register shifts out: the instruction that acts, and the captured data. -/
  | tdo (ir dr : Nat)
  /-- What DBG_SP reads of a service processor's memory. -/
  | spMem (d : Die) (data : Nat)
  /-- An SPDM response of the VCS of a HOST port: its kind and data. -/
  | spdm (a : Cell) (kind : SpdmAns) (data : List Nat)
  /-- A completion of a CXL.io request that the VCS answers: data, or Unsupported Request. -/
  | vcsCpl (a : Cell) (data : List Nat) (ur : Bool)
  /-- An FM API answer: performed, or the code for a command the requester may not issue (R221). -/
  | fm (src : Src) (ok : Bool) (data : List Nat)
  deriving DecidableEq, Repr

/-- The state of the module. -/
structure State where
  /-- Commands that wait, first in, first out. -/
  pending : List Instr := []
  mode : Mode := .imageLoad
  /-- Registers that do not hold the value of their Reset column. Key: address. -/
  regs : NMap Word := []
  /-- Clear bits that the hardware set in this core cycle (R22). Key: address. -/
  setNow : NMap Nat := []
  /-- Core cycles since the module left DORMANT (R106). -/
  cyc : Nat := 0
  /-- Free values drawn so far. -/
  freeCtr : Nat := 0
  /-- What left the module, newest first. -/
  out : List Out := []
  /-- Die of the active service processor (R27). -/
  activeSp : Option Die := none
  /-- Dies whose service processor is fenced by itself. -/
  spGone : List Die := []
  /-- Role of each cell that the image gave one (R29). Key: cell. -/
  roles : NMap Role := []
  /-- The drain of SAFE_STOP is complete. -/
  drained : Bool := false
  scrim : ScrimSt := {}
  xbar : XbarSt := {}
  spill : SpillSt := {}
  sched : SchedSt := {}
  home : HomeSt := {}
  log : LogSt := {}
  pwr : PwrSt := {}
  lane : LaneSt := {}
  onl : OnlSt := {}
  img : ImgSt := {}
  pool : PoolSt := {}
  sec : SecSt := {}
  mgr : MgrSt := {}
  ctr : CtrSt := {}
  therm : ThermSt := {}
  jtag : JtagSt := {}
  spdm : SpdmSt := {}
  /-- Core cycles since the Rind domain started: it does not stop in DORMANT. -/
  wall : Nat := 0
  deriving DecidableEq, Repr

/-- Why the module stops. No command of the module makes it stop: the spec gives every one of them an effect or none. -/
inductive Fault where
  /-- Raised by nothing (safe). -/
  | halted
  deriving DecidableEq, Repr
/-- Why a command has no meaning in the model. -/
inductive Refusal where
  /-- A command that is not modelled yet, by its mnemonic; raised by the arms of exec only (safe). -/
  | notModelled (mnemonic : String)
  /-- A Claca test-mode instruction where the life-cycle state permits it: the spec does not say what it does (R444). Raised by
  MAKER_PRIVATE in MAKER_TEST, RETURNED and RETIRED (safe). -/
  | makerPrivate
  deriving DecidableEq, Repr

/-- The module on the tick at which it leaves DORMANT (R18): mode IMAGE_LOAD, cause 0x01; every register at its Reset column but for
those whose column names fuses (life cycle CUSTOMER_OPEN, as shipped, R502), pins and feeds (both VALID, all sense contacts and
ENABLE_N low) and the mode (Rind, security block and spines 0 and 7 ON, the PLLs of dies 0 and 7 LOCKING). -/
def State.reset : State :=
  { regs := [(0x300, 7#64), (0x100000, 0x30C078D4#64), (0x100260, 1#64), (0x100268, 0x50000040#64),
             (0x1030000, 1#64), (0x1730000, 1#64)]
    freeCtr := 2
    pwr := { pllAt := [(0, 0), (7, 0)] }
    img := { rootKey := some 0, seed := some 1 } }


end Sys2Proof.Machine
end

