-- ==== Sys2Proof/Machine/Ops.lean ====
section
/-! DEFINITION. The named operations every meaning is written with: register fields, messages on Scrim, time, the
logs, power domains. -/

namespace Sys2Proof.Machine

/-! ### Registers -/

/-- The part of the map that can hold an address (Table 16-15). -/
def mapOf (a : Nat) : List RegDef :=
  if a < 0x100000 then mapPkg
  else if a < 0x200000 then mapRind
  else if a < 0x400000 then mapMgr
  else if a < 0x1000000 then mapSec
  else if a < 0x10000000 then
    let o := a % 0x100000
    if o < 0x10000 then mapDie
    else if o < 0x20000 then mapRtr
    else if o < 0x30000 then mapEdge
    else if o < 0x40000 then mapPll
    else if o < 0x40800 then mapHbmd
    else if o < 0x50000 then mapHbms
    else mapEng
  else if a < 0x20000000 then
    let o := a % 0x100000
    if o < 0x10000 then mapPort ++ mapLane
    else if o < 0x20000 then mapXbar
    else if o < 0x30000 then mapGate
    else if o < 0x40000 then mapSpill
    else if o < 0x50000 then mapHome
    else if o < 0x60000 then mapProt
    else if o < 0x70000 then mapCtr
    else if o < 0x80000 then mapOnl
    else mapIctx
  else mapInst

/-- An HBM controller's registers stand on dies 1, 2, 5 and 6 only. -/
def presentAt (a : Nat) (ix : List Nat) : Bool :=
  if 0x1000000 ≤ a ∧ a < 0x10000000 then
    let o := a % 0x100000
    if 0x40000 ≤ o ∧ o < 0x50000 then hbmDie (ix.getD 0 0)
    else true
  else true

/-- The register at an address with its indices (R472). -/
def regAt (a : Nat) : Option (RegDef × List Nat) :=
  match findReg (mapOf a) a with
  | some (r, ix) => if presentAt a ix then some (r, ix) else none
  | none => none

/-- The word the register at an address holds at reset (R18). -/
def regReset (a : Nat) : Word :=
  match findReg (mapOf a) a with
  | some (r, ix) => BitVec.ofNat 64 (resetWord r.fields ix)
  | none => 0

/-- The stored word of a register. -/
def State.reg (s : State) (a : Nat) : Word := mgetD (regReset a) s.regs a

/-- Stores a word. -/
def State.setReg (s : State) (a : Nat) (w : Word) : State :=
  { s with regs := mset (regReset a) s.regs a w }

/-- Bits [lsb + width − 1 : lsb] of a word. -/
def getBits (w : Word) (lsb width : Nat) : Nat := w.toNat / 2 ^ lsb % 2 ^ width

/-- A word with those bits replaced. -/
def putBits (w : Word) (lsb width n : Nat) : Word :=
  (w &&& ~~~(BitVec.ofNat 64 (maskAt lsb width))) ||| BitVec.ofNat 64 (n % 2 ^ width * 2 ^ lsb)

/-- Reads a field. -/
def State.rd (s : State) (f : Fld) : Nat := getBits (s.reg f.addr) f.lsb f.width
/-- Reads a one-bit field. -/
def State.rdb (s : State) (f : Fld) : Bool := s.rd f == 1
/-- Writes a field; the value is cut to the field's width. -/
def State.wr (s : State) (f : Fld) (n : Nat) : State := s.setReg f.addr (putBits (s.reg f.addr) f.lsb f.width n)
/-- Writes a one-bit field. -/
def State.wrb (s : State) (f : Fld) (b : Bool) : State := s.wr f b.toNat
/-- The hardware sets a Clear bit. A write of 1 that takes effect in the same core cycle leaves the bit set (R22). -/
def State.flag (s : State) (f : Fld) : State :=
  let s := s.wr f 1
  { s with setNow := mset 0 s.setNow f.addr (mgetD 0 s.setNow f.addr ||| maskAt f.lsb f.width) }
/-- Adds to a field that wraps. -/
def State.inc (s : State) (f : Fld) (k : Nat := 1) : State := s.wr f (s.rd f + k)
/-- Adds to a field that saturates. -/
def State.sat (s : State) (f : Fld) (k : Nat := 1) : State := s.wr f (min (2 ^ f.width - 1) (s.rd f + k))
/-- Subtracts from a field, down to 0. -/
def State.dec (s : State) (f : Fld) (k : Nat := 1) : State := s.wr f (s.rd f - k)
/-- Raises a field to a value if it is larger. -/
def State.raise (s : State) (f : Fld) (n : Nat) : State := s.wr f (max (s.rd f) (min n (2 ^ f.width - 1)))
/-- One bit of a field. -/
def State.rdBit (s : State) (f : Fld) (b : Nat) : Bool := (s.rd f).testBit b
/-- Sets or clears one bit of a field. -/
def State.wrBit (s : State) (f : Fld) (b : Nat) (v : Bool) : State :=
  let n := s.rd f
  s.wr f (if v then n ||| 2 ^ b else n &&& (2 ^ f.width - 1 - 2 ^ b))

/-- The address lies in a region table (Table 9-15). -/
def regionAddr (a : Nat) : Bool :=
  decide (0x10000000 ≤ a) && decide (a < 0x20000000) && decide (0x54000 ≤ a % 0x100000) && decide (a % 0x100000 < 0x5C000)
/-- Bits of word w of a region entry that are not reserved (Table 9-3). -/
def regionBits (w : Nat) : Word :=
  BitVec.ofNat 64 (if w = 0 then 2 ^ 63 + (2 ^ 58 - 1) else if w = 1 then 2 ^ 41 - 1 else if w = 2 then 2 ^ 40 - 1 else 31)

/-! ### Time -/

/-- Package time, ns since the module left DORMANT: three core cycles a nanosecond (R106, R399). -/
def State.ns (s : State) : Nat := s.cyc / 3
/-- Package time in µs. -/
def State.us (s : State) : Nat := s.cyc / 3000

/-- A fresh index for a free value (Config). -/
def State.fresh (s : State) : Nat × State := (s.freeCtr, { s with freeCtr := s.freeCtr + 1 })

/-- Emits something to the outside, newest first. -/
def State.emit (s : State) (o : Out) : State := { s with out := o :: s.out }

/-! ### Places in the package -/

/-- Die of a cell (R28). -/
def dieOf (c : Cell) : Nat := c.val / 16
/-- X and Y of a cell (R28). -/
def cellX (c : Nat) : Nat := c / 16 % 4 * 4 + c % 4
def cellY (c : Nat) : Nat := c / 16 / 4 * 4 + c % 16 / 4
/-- The cell at (X, Y) (R28). -/
def cellAt (x y : Nat) : Nat := (y / 4 * 4 + x / 4) * 16 + y % 4 * 4 + x % 4
/-- Die of a stack: A on 1, B on 2, C on 5, D on 6 (Table 1-1). -/
def stackDie (k : Nat) : Nat := if k = 0 then 1 else if k = 1 then 2 else if k = 2 then 5 else 6
/-- Stack of a die with one. -/
def dieStack (d : Nat) : Nat := if d = 1 then 0 else if d = 2 then 1 else if d = 5 then 2 else 3
/-- The cell a packet to the HBM controller of a die is sent to: the die's first cell (DESIGN CHOICE, log 9). -/
def ctrlCell (d : Nat) : Cell := Cell.of (d * 16)
/-- The anchor cell of the port a cell belongs to (R15), from the widths the image gave. -/
def State.anchorOf (s : State) (c : Cell) : Cell :=
  if s.rd (F.XBAR_STATUS_WIDTH (c.val / 4 * 4)) = 3 then Cell.of (c.val / 4 * 4)
  else if s.rd (F.XBAR_STATUS_WIDTH (c.val / 2 * 2)) = 2 then Cell.of (c.val / 2 * 2)
  else c
/-- Number of cells of the port anchored at a cell. -/
def State.portCells (s : State) (a : Cell) : Nat :=
  if s.rd (F.XBAR_STATUS_WIDTH a) = 3 then 4 else if s.rd (F.XBAR_STATUS_WIDTH a) = 2 then 2 else 1
/-- The cells of the port anchored at a. -/
def State.portMembers (s : State) (a : Cell) : List Cell := (List.range (s.portCells a)).map (fun i => Cell.of (a.val + i))
/-- Role of a cell (R29). -/
def State.roleOf (s : State) (c : Cell) : Role := mgetD .idle s.roles c.val
/-- A cell is fenced, by itself or with its die. -/
def State.cellFenced (s : State) (c : Cell) : Bool :=
  s.scrim.fence.cells.contains c.val || s.scrim.fence.dies.contains (dieOf c)
/-- A die is fenced. -/
def State.dieFenced (s : State) (d : Nat) : Bool := s.scrim.fence.dies.contains d
/-- A stack is fenced, by itself or with its die. -/
def State.stackFenced (s : State) (k : Nat) : Bool :=
  s.scrim.fence.stks.contains k || s.scrim.fence.dies.contains (stackDie k)
/-- A die, cell or stack is out of service: fenced, and not the element that returns (R374). -/
def State.dieOff (s : State) (d : Nat) : Bool := s.dieFenced d && s.log.returning != some (.die (Fin.ofNat 8 d))
def State.cellOff (s : State) (c : Cell) : Bool :=
  (s.scrim.fence.cells.contains c.val && s.log.returning != some (.cell c)) || s.dieOff (dieOf c)
def State.stackOff (s : State) (k : Nat) : Bool :=
  (s.scrim.fence.stks.contains k && s.log.returning != some (.stack (Fin.ofNat 4 k))) || s.dieOff (stackDie k)

/-- Host slot of the port anchored at a (R156); 0x7F where the image gives it none. -/
def State.hslotOf (s : State) (a : Cell) : HSlot :=
  match (List.range 96).find? (fun i => s.rd (F.HOME_SLOT_VALID a (i / 8) (i % 8)) = 1 && s.rd (F.HOME_SLOT_ANCHOR a (i / 8) (i % 8)) = a.val) with
  | some i => Fin.ofNat 128 i
  | none => 0x7F
/-- A cell whose copy of the maps stands for all: the lowest one that is not fenced. -/
def State.refCell (s : State) : Cell := ((List.finRange 128).find? (fun c => !s.cellFenced c)).getD 0

/-! ### The last copy (R361) -/

/-- A stack holds the only copy of a quarter of the directory, or of its pair's spill. -/
def State.stackLast (s : State) (k : Nat) : Bool :=
  let d := stackDie k
  s.rd (F.DIR_STACK_STATUS_PRI_STATE d) == 1 || s.rd (F.DIR_STACK_STATUS_MIR_STATE d) == 1
/-- The other port of a pair is out: its cells are fenced, or its link is not in use. -/
def State.portOutOf (s : State) (b : Cell) : Bool :=
  let st := s.rd (F.LANE_PORT_STATUS_STATE b)
  s.cellFenced b || !(3 ≤ st && st ≤ 5)
/-- A port is the last of what a first fault left with one: the side of a mirrored extent, a twin, or a link of a pair. -/
def State.portLast (s : State) (a : Cell) : Bool :=
  match s.roleOf a with
  | .memory => s.home.ext.any (fun (e : Nat × ExtEnt) => e.1 / 65536 == s.refCell.val && (e.2.st == .single || e.2.st == .resilver)
      && (match e.2.lose a with | some x => x.st == .lost | none => false))
  | .host =>
    let h := s.hslotOf a
    let t := s.rd (F.HOME_TWIN_TWIN a (h.val / 8) (h.val % 8))
    s.rd (F.HOME_TWIN_VALID a (h.val / 8) (h.val % 8)) == 1 && s.portOutOf (Cell.of (s.rd (F.HOME_SLOT_ANCHOR a (t / 8) (t % 8))))
  | .onora =>
    let b := Cell.of (s.rd (F.ONL_CFG_PAIR_PORT a))
    b != a && s.roleOf b == .onora && s.rd (F.ONL_STATUS_BREAK_CAUSE b) != 0 && s.portOutOf b
  | _ => false
/-- An element's loss removes the last copy of something that an earlier fault left with one. -/
def State.lastOf (s : State) (e : Elem) : Bool :=
  let ports (f : Cell → Bool) : Bool := (List.finRange 128).any (fun (c : Cell) => f c && s.portLast (s.anchorOf c))
  match e with
  | .stack k => s.stackLast k.val
  | .die d => (hbmDie d.val && s.stackLast (dieStack d.val)) || ports (fun c => dieOf c == d.val)
  | .cell c => ports (· == c)
  | .link _ => false

/-! ### Messages on Scrim -/

/-- The class that a block of cell c gives a message (R134, Table 5-1): the one it names where its kind permits it, else the default.
Completions take NDR_TC. -/
def State.classOf (s : State) (c : Cell) (o : Opc) (tc : Tc) : Tc :=
  let keep (l : List Nat) (dflt : Nat) : Tc := if l.contains tc.val then tc else Fin.ofNat 8 dflt
  match o with
  | .rds | .rda | .rdi | .inva | .wri | .wra | .wrptl | .clnevct | .specrd | .biconf | .mrd | .mspec | .mflush | .dirrd | .dirwr =>
    keep [3, 4] (s.rd (F.GATE_CLASS_MAP_REQ_TC c))
  | .wdata => keep [2, 4, 6] (s.rd (F.GATE_CLASS_MAP_RWD_TC c))
  | .rdata | .dirdata => 5
  | .grant | .wgo | .mcmp | .wcmp | .done | .bicack | .dirack | .rcmp | .frsp | .fkeep => Fin.ofNat 8 (s.rd (F.GATE_CLASS_MAP_NDR_TC c))
  | .onlabs => keep [6, 7] (s.rd (F.GATE_CLASS_MAP_NDR_TC c))
  | .birsp => 7
  | .bisnpcur | .bisnpdata | .bisnpinv | .fwd | .recall => 6
  | .cxlio => 2
  | .mgt | .probe | .probersp | .routeadv | .keyx => 1
  | .bulk | .blob => 0
  | .pass _ _ | .xfer _ => tc
/-- A packet as its sender issues it, in its class. -/
def State.issued (s : State) (p : Pkt) : Pkt := { p with tc := s.classOf p.src p.opc p.tc }
/-- Issues a packet: it stands in flight, at the cell that sends it, until it is consumed or absorbed. -/
def State.send (s : State) (p : Pkt) : State :=
  { s with scrim.flight := s.scrim.flight ++ [{ loc := p.src, p := s.issued p }] }
/-- Issues packets in order. -/
def State.sendAll (s : State) (ps : List Pkt) : State := ps.foldl State.send s
/-- What routers hold of some packets leaves their buffers. -/
def State.purgeUnits (s : State) (has : Pkt → Bool) : State :=
  { s with
    scrim.buf := s.scrim.buf.filterMap (fun e =>
      let l := e.2.filter (fun (b : BufUnit) => !has b.p)
      if l = [] then none else some (e.1, l))
    scrim.rx := s.scrim.rx.filter (fun e => !has e.2.1)
    scrim.eject := s.scrim.eject.filter (fun e => !has e.2.1)
    scrim.finish := s.scrim.finish.filterMap (fun e =>
      let l := e.2.filter (fun (x : Pkt × Nat) => !has x.1)
      if l = [] then none else some (e.1, l))
    scrim.unacked := s.scrim.unacked.filterMap (fun e =>
      let l := e.2.filter (fun (x : Pkt × Nat) => !has x.1)
      if l = [] then none else some (e.1, l))
    scrim.waiting := s.scrim.waiting.filterMap (fun e =>
      let l := e.2.filter (fun (p : Pkt) => !has p)
      if l = [] then none else some (e.1, l))
    scrim.heldUnits := s.scrim.heldUnits.filterMap (fun e =>
      let l := e.2.filter (fun (x : Pkt × Nat) => !has x.1)
      if l = [] then none else some (e.1, l)) }

/-! ### Statistics of a cell as initiator (R72, R73) -/

/-- Bucket of a time in ns (R73). -/
def latBucket (t : Nat) : Nat := if t < 64 then 0 else min 15 (t.log2 - 5)
/-- Bytes of a unit. -/
def unitBytes (u : Nat) : Nat := if u = 0 then 32 else 64
/-- Scrim once cell c has injected a packet: its bytes count, and on LAT_VC the first header under a tag of this cell starts the time of its
transaction. -/
def State.injection (s : State) (c : Cell) (p : Pkt) : ScrimSt :=
  let x : ScrimSt := { s.scrim with injLive := mmod 0 s.scrim.injLive (c.val * 8 + p.opc.vc) (· + p.bytes) }
  let k := c.val * 1024 + p.tagSlot.val
  if p.tagCell = c ∧ p.opc.vc = s.rd (F.SCRIM_STAT_CTRL_LAT_VC c) ∧ !x.timed.contains k ∧ (mget s.xbar.slots k).isSome then
    { x with timing := mput x.timing k s.cyc, timed := k :: x.timed }
  else x
/-- Scrim once `n` bytes of a packet have reached cell c, with unit u first: a header of a VC0 or VC1 packet under a tag of this cell, in its
current generation, ends the transaction's time. -/
def State.receipt (s : State) (c : Cell) (p : Pkt) (u n : Nat) : ScrimSt :=
  let x : ScrimSt := { s.scrim with ejLive := mmod 0 s.scrim.ejLive (c.val * 8 + p.opc.vc) (· + n) }
  let k := c.val * 1024 + p.tagSlot.val
  if u = 0 ∧ p.opc.vc ≤ 1 ∧ p.tagCell = c then
    match mget x.timing k, mget s.xbar.slots k with
    | some t, some sl =>
      if sl.hdr.gen = p.gen then
        let ns := (s.cyc - t) / 3
        { x with
          timing := mdel x.timing k
          histLive := mmod 0 x.histLive (c.val * 16 + latBucket ns) (fun n => min 0xFFFFFFFF (n + 1))
          maxLive := mmod 0 x.maxLive c.val (fun m => max m (min ns 0xFFFFFFFF)) }
      else x
    | _, _ => x
  else x
/-- Units of a packet that its cell's local output has delivered while it delivers the packet. -/
def State.delivered (s : State) (p : Pkt) : Nat :=
  match mget s.scrim.eject (p.dst.val * 8 + p.opc.vc) with
  | some (q, k) => if q.same p then k else 0
  | none => 0
/-- Scrim once the whole of a packet has reached its cell: what had not been injected or received yet is counted. A message within a cell
does not pass Scrim. -/
def State.landed (s : State) (p : Pkt) : ScrimSt :=
  let inj := ((s.scrim.flight.find? (fun f => f.p.same p)).map (fun (f : Flying) => f.inj)).getD 2
  if p.src = p.dst ∨ inj = 3 then s.scrim
  else
    let s := if inj = 0 then { s with scrim := s.injection p.src p } else s
    let k := s.delivered p
    s.receipt p.dst p k (p.bytes - (if k = 0 then 0 else 32 + 64 * (k - 1)))
/-- Takes a consumed packet out of flight: all of it has reached its cell. -/
def State.take (s : State) (p : Pkt) : State :=
  { s with scrim := { s.landed p with flight := s.scrim.flight.eraseP (fun (f : Flying) => f.p.same p) } }.purgeUnits (fun q => q.same p)
/-- Scrim has delivered a packet to its cell, where a block of it is still to consume it. -/
def State.deliver (s : State) (p : Pkt) : State :=
  { s with scrim := { s.landed p with flight := s.scrim.flight.map (fun (f : Flying) => if f.p.same p then { f with inj := 3, loc := p.dst } else f) } }.purgeUnits
    (fun q => q.same p)

/-- A packet in transit through the module. -/
def Pkt.transit (p : Pkt) : Bool :=
  match p.opc with
  | .xfer _ => true
  | _ => false

/-! ### Logs -/

/-- The active service processor keeps the logs while metadata is present: from SELF_TEST's end to the end of the
drain (R465), and while a service processor runs (R27). -/
def State.metadataPresent (s : State) : Bool :=
  match s.mode with
  | .dormant | .imageLoad | .selfTest | .sealedHalt => false
  | .safeStop => !s.drained
  | _ => true

/-- Takes a word into log l of R378: NEXT_SEQ moves on, and OLDEST_SEQ once the ring of `cap` words is full. -/
def State.logBump (s : State) (l cap : Nat) : State :=
  let n := s.rd (F.PKG_LOG_PTR_NEXT_SEQ l) + 1
  let s := s.wr (F.PKG_LOG_PTR_NEXT_SEQ l) n
  if (n - s.rd (F.PKG_LOG_PTR_OLDEST_SEQ l)) % 2 ^ 32 > cap then s.inc (F.PKG_LOG_PTR_OLDEST_SEQ l) else s

/-- An entry reaches the fault log (R377). -/
def State.writeFault (s : State) (r : FaultRec) : State :=
  { s with log.fault := ({ r with seq := s.rd (F.PKG_LOG_PTR_NEXT_SEQ 0) } :: s.log.fault).take 65536 }.logBump 0 65536
/-- One entry for the fault log (R377). Without a service processor a cell holds up to 16 of its entries; others are lost and counted. -/
def State.logFaultRec (s : State) (r : FaultRec) : State :=
  let r := { r with time := s.ns, epoch := s.scrim.epoch }
  if s.activeSp.isSome then s.writeFault r
  else if r.cell < 128 ∧ (s.log.unsent.filter (fun (x : FaultRec) => x.cell == r.cell)).length < 16 then
    { s with log.unsent := s.log.unsent ++ [r] }
  else s.sat (F.PKG_LOG_DROP_DROPPED 0)
/-- The entries that cells hold go to a service processor that takes over. -/
def State.sendHeldFaults (s : State) : State :=
  s.log.unsent.foldl State.writeFault { s with log.unsent := [] }

/-- A fault entry, KIND 1 (R363): class, cell, subject, cause and detail of Table 12-8, element. A fault before the
running recovery has ended, unless it is the `same` one, is a double fault, and so is one that removes a `last` copy (R361).
`outside`: outside the promise (R362). -/
def State.logFault (s : State) (cls : Nat) (cell : Option Cell) (subj cause detail elem : Nat) (outside : Bool)
    (toward : Option Mode := none) (last : Bool := false) (same : Bool := false) : State :=
  let dbl := (s.rd F.PKG_FAULT_STATUS_STEP != 0 && !same) || last
  let s := s.sat F.PKG_FAULT_STATUS_FAULTS
  let s := if dbl then s.wr F.PKG_FAULT_STATUS_DOUBLE 1 else s
  let s := if outside then s.wr F.PKG_FAULT_STATUS_OUTSIDE 1 else s
  s.logFaultRec
    { time := 0, cls := cls, cell := (cell.map (·.val)).getD 0xFF, subj := subj, cause := cause, detail := detail % 65536,
      kind := 1, flags := outside.toNat + 2 * dbl.toNat, epoch := 0, seq := 0,
      mode := s.mode.code * 16 + (toward.getD s.mode).code, step := 0, elem := elem, tUs := 0 }

/-- A precedence record, KIND 2 (R293): ranks kept and yielded, cell, subject, cause and detail. -/
def State.logYield (s : State) (kept yielded : Nat) (cell : Option Cell) (subj cause detail : Nat) : State :=
  s.logFaultRec
    { time := 0, cls := 16 * kept + yielded, cell := (cell.map (·.val)).getD 0xFF, subj := subj, cause := cause,
      detail := detail % 65536, kind := 2, flags := 0, epoch := 0, seq := 0,
      mode := s.mode.code * 16 + s.mode.code, step := 0, elem := 0, tUs := 0 }

/-- A step entry, KIND 3, and its time in PKG_FAULT_TIMES (R365): 1 detect, 2 fence, 3 takeover, 4 re-issue. -/
def State.logStep (s : State) (step : Nat) : State :=
  let t := s.us - s.log.faultAt / 1000
  let s := match step with
    | 1 => s.wr F.PKG_FAULT_TIMES_DETECT_US (min t 0xFFFF)
    | 2 => s.wr F.PKG_FAULT_TIMES_FENCE_US (min t 0xFFFF)
    | 3 => s.wr F.PKG_FAULT_TIMES_TAKE_US (min t 0xFFFF)
    | _ => s.wr F.PKG_FAULT_TIMES_REISSUE_US (min t 0xFFFF)
  let bound := match step with | 1 => 20 | 2 => 50 | 3 => 250 | _ => 350
  let s := s.logFaultRec
    { time := 0, cls := s.log.faultCls, cell := 0xFF, subj := 0xFFFF, cause := 0, detail := 0, kind := 3,
      flags := if t > bound then 4 else 0, epoch := 0, seq := 0, mode := s.mode.code * 16 + s.mode.code,
      step := step, elem := 0, tUs := t }
  s.wr F.PKG_FAULT_STATUS_STEP (if step = 4 then 0 else step + 1)

/-- A commit record (R468). -/
def State.logCommit (s : State) (kind rule detail : Nat) (cell : Option Cell) (addr applied refused : Nat) : State :=
  if s.activeSp.isNone then s.sat (F.PKG_LOG_DROP_DROPPED 3)
  else
    let r : CommitRec :=
      { time := s.ns, epoch := s.rd F.PKG_COMMIT_EPOCH, kind := kind, rule := rule, detail := detail,
        cell := (cell.map (·.val)).getD 0x80, addr := addr, applied := applied, refused := refused,
        seq := s.rd (F.PKG_LOG_PTR_NEXT_SEQ 3) }
    ({ s with log.commit := (r :: s.log.commit).take 65536 }).logBump 3 65536

/-! ### The life-cycle audit log (R447) -/

/-- First 8 bytes of a SHA-384 value: a little-endian word of it. -/
def tagOf (h : BitVec 384) : Nat := h.toNat % 2 ^ 64
/-- Writes an audit entry. -/
def State.logAudit (s : State) (kind source detail addr tag : Nat) : State :=
  let r : AuditRec :=
    { sec := s.rd F.RIND_RTC_SEC, subsec := s.rd F.RIND_RTC_SUBSEC, kind := kind, source := source, lc := s.rd F.PKG_LC_CODE,
      detail := detail % 256, addr := addr, count := 1, seq := s.rd (F.PKG_LOG_PTR_NEXT_SEQ 4), tag := tag }
  ({ s with log.audit := (r :: s.log.audit).take 4096 }).logBump 4 4096

/-! ### Power domains and die PLLs (R401 to R405) -/

/-- D(j) of a domain (Tables 14-2 and 14-7). -/
def domFld (n : Nat) : Fld := F.RIND_DOMAIN_STATE_D (n / 32) (n % 32)
/-- 0 OFF, 1 ON, 2 RETENTION, 3 changing. -/
def State.domain (s : State) (n : Nat) : Nat := s.rd (domFld n)
/-- A domain changes state; entries to OFF or RETENTION are counted. -/
def State.setDomain (s : State) (n st : Nat) : State :=
  if s.domain n = st then s
  else
    let s := s.wr (domFld n) st
    if st = 0 ∨ st = 2 then { s with pwr.entries := mmod 0 s.pwr.entries n (fun x => (x + 1) % 2 ^ 32) } else s
/-- Domain of the scrim spine of a die, and of edge e of it. -/
def spineDom (d : Nat) : Nat := 384 + 5 * d
def edgeDom (d e : Nat) : Nat := 385 + 5 * d + e
/-- The die that edge e of die d faces: north, east, south, west. -/
def facing (d e : Nat) : Nat := if e = 0 then d - 4 else if e = 1 then d + 1 else if e = 2 then d + 4 else d - 1
/-- The die's PLL holds a clock. -/
def State.pllOn (s : State) (d : Nat) : Bool := s.rd (F.DIE_PLL_STATUS_STATE d) == 2 || s.rd (F.DIE_PLL_STATUS_STATE d) == 3
/-- A die PLL starts, unless it runs. -/
def State.pllStart (s : State) (d : Nat) : State :=
  if s.pllOn d ∨ s.dieOff d then s
  else { s.wr (F.DIE_PLL_STATUS_STATE d) 1 with pwr.pllAt := mput s.pwr.pllAt d s.wall }
/-- The quad of a cell is ON while its port is configured and, in L0, some lane of it is in use (R302). -/
def State.quadWanted (s : State) (c : Cell) : Bool :=
  let a := s.anchorOf c
  let used := s.rd (F.LANE_PORT_STATUS_LANES_USED a)
  s.roleOf c ≠ .idle && !(used ≠ 0 && used / 2 ^ (4 * (c.val - a.val)) % 16 == 0)
/-- A mode in which dies other than 0 and 7 run, and one in which ports do. -/
def diesOn : Mode → Bool
  | .dormant | .imageLoad | .sealedHalt | .safeStop => false
  | _ => true
def portsOn : Mode → Bool
  | .bringUp | .service | .drowse | .degraded | .rebuild | .maintenance => true
  | _ => false
/-- Table 14-3 asks for a domain to be ON. No domain of a die other than its spine leaves OFF before its PLL has locked (R401),
and those of fenced elements are OFF. -/
def State.domainWanted (s : State) (n : Nat) : Bool :=
  let m := s.mode
  if n = 431 then true
  else if m = .dormant then false
  else if n = 430 then true
  else if n < 384 then
    let c := Cell.of (n / 3)
    let d := dieOf c
    diesOn m && s.pllOn d && !s.cellOff c && (n % 3 ≠ 2 || ((portsOn m || s.rd (F.LANE_PORT_STATUS_STATE (s.anchorOf c)) == 6) && s.quadWanted c))
  else if n < 424 then
    let d := (n - 384) / 5
    let k := (n - 384) % 5
    if k = 0 then (diesOn m || d = 0 || d = 7) && !s.dieOff d
    else diesOn m && (edgePresent d).testBit (k - 1) && s.pllOn d && s.pllOn (facing d (k - 1)) && !s.dieOff d
      && !s.dieOff (facing d (k - 1))
  else if n < 428 then diesOn m && s.pllOn (stackDie (n - 424)) && !s.stackOff (n - 424)
  else
    let d := if n = 428 then 0 else 7
    s.pllOn d && !s.dieOff d
/-- Domains turn on and off as the mode asks (R405). Retention stays, and in SAFE_STOP domains turn off only at its end. -/
def State.setDomains (s : State) : State :=
  if s.mode = .safeStop then s
  else (List.range 432).foldl (fun s n =>
    if s.domainWanted n then (if s.domain n = 0 then s.setDomain n 1 else s) else s.setDomain n 0) s
/-- A cell in retention wakes (R409); it is ON at DOMAIN_ON_SIGNAL. -/
def State.wakeCell (s : State) (c : Cell) : State :=
  if s.domain (3 * c.val) = 2 then
    { (s.setDomain (3 * c.val) 3).setDomain (3 * c.val + 1) 3 with pwr.wakeAt := mput s.pwr.wakeAt c.val s.cyc }
  else s
/-- One side of an edge leaves low power (R64): its links count the exit. What waits for it goes on; what waits for a local port stays. -/
def State.sideWakes (s : State) (d e : Nat) : State :=
  let lp := s.rd (F.DIE_LATH_STATUS_LINK_LP d e)
  if lp = 0 then s
  else
    let s := (List.range 4).foldl (fun s j => if lp.testBit j then s.sat (F.DIE_LATH_ERR_LP_EXITS d e j) else s) s
    { s.wr (F.DIE_LATH_STATUS_LINK_LP d e) 0 with
      scrim.waiting := s.scrim.waiting.filterMap (fun (x : Nat × List Pkt) =>
        if x.1 / 16 ≠ d then some x
        else
          let l := x.2.filter (fun (p : Pkt) => p.dst.val == x.1)
          if l = [] then none else some (x.1, l)) }
/-- An edge leaves low power, on both of its dies. -/
def State.edgeWakes (s : State) (d e : Nat) : State :=
  let s := s.sideWakes d e
  if (edgePresent d).testBit e then s.sideWakes (facing d e) ((e + 2) % 4) else s
/-- What a change of mode does to domains and PLLs (R401, R405, R413). -/
def State.modeDomains (s : State) (from_ : Mode) : State :=
  let s := match s.mode with
    | .imageLoad => (s.pllStart 0).pllStart 7
    | .selfTest | .returnTest => (List.range 8).foldl State.pllStart s
    | _ => s
  let s := if from_ = .drowse ∧ s.mode ≠ .safeStop then
      (List.range 128).foldl (fun s c => s.wakeCell (Cell.of c)) ((List.range 32).foldl (fun s x => s.edgeWakes (x / 4) (x % 4)) s)
    else s
  s.setDomains

/-! ### Performance counters (R473 to R479) -/

/-- Counter n of a cell counts: EN is set, FREEZE is clear, and the cell's logic is ON (R473, R408). -/
def State.ctrRuns (s : State) (c n : Nat) : Bool :=
  s.rdBit (F.CTR_CTL_EN c) n && !s.rdb (F.CTR_CTL_FREEZE c) && s.domain (3 * c) == 1
/-- The lower half of pair j is chained to the upper one. -/
def State.ctrChained (s : State) (c n : Nat) : Bool := s.rdb (F.CTR_CFG_CHAIN c (n / 2 * 2))
/-- A sampling overflow reaches the capture unit: it joins the capture that runs, or is lost while a record is pending (R479). -/
def State.ctrSignal (s : State) (c n : Nat) : State :=
  if (mget s.ctr.record c).isSome then
    let (k, m) := mgetD (0, 0) s.ctr.lost c
    { s with ctr.lost := mput s.ctr.lost c (min 255 (k + 1), m ||| 2 ^ n) }
  else match mget s.ctr.capture c with
    | some (t, m) => { s with ctr.capture := mput s.ctr.capture c (t, m ||| 2 ^ n) }
    | none => { s with ctr.capture := mput s.ctr.capture c (s.cyc, 2 ^ n) }
/-- Adds to a counter: a chained lower half carries into the upper one; a counter in sampling mode takes its RELOAD at a wrap, and what
it counts beyond the wrap (R475, R478). -/
def State.ctrAdd (s : State) (c n k : Nat) : State :=
  let v := s.rd (F.CTR_VAL_VALUE c n) + k
  if v < 2 ^ 32 then s.wr (F.CTR_VAL_VALUE c n) v
  else if s.ctrChained c n && n % 2 == 0 then
    let s := s.wr (F.CTR_VAL_VALUE c n) (v - 2 ^ 32)
    let hi := s.rd (F.CTR_VAL_VALUE c (n + 1)) + 1
    if !s.ctrRuns c (n + 1) then s
    else if hi < 2 ^ 32 then s.wr (F.CTR_VAL_VALUE c (n + 1)) hi
    else
      let s := s.flag (F.CTR_CTL_OVF_BIT c (n + 1))
      if s.rdb (F.CTR_CFG_SAMPLE c (n + 1)) then
        let w := s.rd (F.CTR_RELOAD_RELOAD c n) + s.rd (F.CTR_RELOAD_RELOAD c (n + 1)) * 2 ^ 32 + (v - 2 ^ 32)
        ((s.wr (F.CTR_VAL_VALUE c n) w).wr (F.CTR_VAL_VALUE c (n + 1)) (w / 2 ^ 32)).ctrSignal c (n + 1)
      else s.wr (F.CTR_VAL_VALUE c (n + 1)) 0
  else
    let s := s.flag (F.CTR_CTL_OVF_BIT c n)
    if s.rdb (F.CTR_CFG_SAMPLE c n) then
      (s.wr (F.CTR_VAL_VALUE c n) (s.rd (F.CTR_RELOAD_RELOAD c n) + (v - 2 ^ 32))).ctrSignal c n
    else s.wr (F.CTR_VAL_VALUE c n) (v - 2 ^ 32)
/-- Counter n counts an event of Table 17-1: its EVT, the UMASK bits that qualify the event, and the instance filter. -/
def State.ctrTakes (s : State) (c n evt : Nat) (bits : List Nat) (filtered : Bool) (inst : Option Nat) : Bool :=
  s.rd (F.CTR_CFG_EVT c n) == evt && !(n % 2 == 1 && s.ctrChained c n) && s.ctrRuns c n
    && bits.all (fun b => s.rdBit (F.CTR_CFG_UMASK c n) b)
    && (!filtered || !s.rdb (F.CTR_CFG_INST_EN c n) || inst == some (s.rd (F.CTR_CFG_INST c n)))
/-- k occurrences of an event in a cell (R474). -/
def State.ctrEvent (s : State) (c evt : Nat) (bits : List Nat) (k : Nat := 1) (filtered : Bool := false) (inst : Option Nat := none) : State :=
  if k = 0 ∨ s.rd (F.CTR_CTL_EN c) = 0 then s
  else (List.range 8).foldl (fun (s : State) n => if s.ctrTakes c n evt bits filtered inst then s.ctrAdd c n k else s) s
/-- A frame that a cell discards under R82 is counted. -/
def State.lateDiscard (s : State) (c : Nat) : State := (s.inc (F.XBAR_LATE_DISCARD_COUNT c)).ctrEvent c 0x04 []

end Sys2Proof.Machine
end

