-- ==== Sys2Proof/Machine/ImgParse.lean ====
section
/-! DEFINITION. The boot image (spec/15 R418 to R429): the bytes of the boot memory, the layout of an image, and checks 1 to 11 of
Table 15-10. -/

namespace Sys2Proof.Machine

/-! ### Bytes -/

/-- A byte of a device. -/
def State.norByte (s : State) (dev off : Nat) : Byte := mgetD 0xFF s.img.nor (dev * 2 ^ 26 + off)
/-! ### Layout (Tables 15-2 to 15-9, 16-4, 16-5) -/

/-- Bytes of a device from an offset. -/
def imgBytes (r : Nat → Byte) (off n : Nat) : List Byte := (List.range n).map (fun i => r (off + i))
/-- n bytes, least significant first. -/
def imgLe (r : Nat → Byte) (off n : Nat) : Nat := ofLe (imgBytes r off n)
/-- A section table entry (Table 15-3). -/
structure Sect where
  num : Nat
  typ : Nat
  ver : Nat
  required : Bool
  off : Nat
  len : Nat
  digest : Nat
  deriving DecidableEq, Repr
def imgCount (r : Nat → Byte) : Nat := imgLe r 12 2
def imgSects (r : Nat → Byte) : List Sect :=
  (List.range (imgCount r)).map (fun i =>
    let b := 256 + 64 * i
    { num := i, typ := imgLe r b 2, ver := imgLe r (b + 2) 2, required := (imgLe r (b + 4) 4).testBit 0, off := imgLe r (b + 8) 4
      len := imgLe r (b + 12) 4, digest := imgLe r (b + 16) 48 })
/-- Offset of the signature block. -/
def imgSigAt (r : Nat → Byte) : Nat := 256 + 64 * imgCount r
/-- A SHA-384 value as its bytes' little-endian number. -/
def hashLe (l : List Byte) : BitVec 384 := Config.sha384 l
/-- Measurement 2: SHA-384 of bytes 0 to the end of the section table. -/
def imgDigest (r : Nat → Byte) : BitVec 384 := hashLe (imgBytes r 0 (imgSigAt r))
/-- The sections of a type. -/
def sectsOf (l : List Sect) (t : Nat) : List Sect := l.filter (fun (x : Sect) => x.typ == t)
/-- Records of n bytes of a section, with their offsets. -/
def imgRecs (x : Sect) (n : Nat) : List Nat := (List.range (x.len / n)).map (fun i => x.off + n * i)

def imgFields (r : Nat → Byte) (l : List Sect) : List ImgField :=
  (sectsOf l 0x10).flatMap (fun (x : Sect) => (imgRecs x 32).mapIdx (fun n b =>
    { sect := x.num, num := n, addr := imgLe r b 4, stride := imgLe r (b + 4) 4, count := imgLe r (b + 8) 2
      mask := BitVec.ofNat 64 (imgLe r (b + 16) 8), value := BitVec.ofNat 64 (imgLe r (b + 24) 8) }))
def imgTemplates (r : Nat → Byte) (l : List Sect) : List (Nat × Tmpl) :=
  (sectsOf l 0x20).flatMap (fun (x : Sect) => (imgRecs x 64).map (fun b =>
    let fl := imgLe r (b + 1) 1
    let cl := imgLe r (b + 2) 1
    (imgLe r b 1,
     { mig := fl.testBit 0, privMem := fl.testBit 1, mirror := fl.testBit 2, reqTc := cl % 8, dataTc := cl / 16 % 8, cap0 := imgLe r (b + 4) 2
       slotMin := imgLe r (b + 6) 2, slotMax := imgLe r (b + 8) 2, holdMax := imgLe r (b + 10) 2, bwMin := imgLe r (b + 12) 2
       bwMax := imgLe r (b + 14) 2, ctrPerm := BitVec.ofNat 64 (imgLe r (b + 16) 8) })))
def imgInsts (r : Nat → Byte) (l : List Sect) : List ImgInst :=
  (sectsOf l 0x21).flatMap (fun (x : Sect) =>
    -- the table ends where the first extent list begins
    let n := ((imgRecs x 16).map (fun b => imgLe r (b + 8) 4)).foldl (fun m o => if 0 < o then min m (o / 16) else m) (x.len / 16)
    ((imgRecs x 16).take n).map (fun b =>
      { inst := imgLe r b 2, template := imgLe r (b + 2) 1, grouped := (imgLe r (b + 3) 1).testBit 0, group := imgLe r (b + 4) 2
        exts := (List.range (imgLe r (b + 6) 2)).map (fun j => imgLe r (x.off + imgLe r (b + 8) 4 + 2 * j) 2) }))
def imgRules (r : Nat → Byte) (l : List Sect) : List AbRule :=
  (sectsOf l 0x22).flatMap (fun (x : Sect) => (imgRecs x 16).map (fun b =>
    { trigger := imgLe r b 1, port := imgLe r (b + 1) 1, template := imgLe r (b + 2) 1, count := imgLe r (b + 3) 1, vppb := imgLe r (b + 4) 1
      mirrored := imgLe r (b + 5) 1 == 1, partner := imgLe r (b + 6) 1, release := imgLe r (b + 7) 1 == 1, tPort := imgLe r (b + 8) 1
      tVppb := imgLe r (b + 9) 1 }))
def imgCaps (r : Nat → Byte) (l : List Sect) : List ImgCap :=
  (sectsOf l 0x23).flatMap (fun (x : Sect) => (imgRecs x 8).map (fun b =>
    { port := imgLe r b 1, partner := imgLe r (b + 1) 1, mirrored := imgLe r (b + 2) 1 == 1, first := imgLe r (b + 4) 2, count := imgLe r (b + 6) 2 }))
def imgRegions (r : Nat → Byte) (l : List Sect) : List Region :=
  (sectsOf l 0x24).flatMap (fun (x : Sect) => (imgRecs x 32).filterMap (fun b =>
    regionOf (imgLe r b 8) (imgLe r (b + 8) 8) (imgLe r (b + 16) 8) (imgLe r (b + 24) 8)))
def imgPeers (r : Nat → Byte) (l : List Sect) : List Nat :=
  (sectsOf l 0x30).flatMap (fun (x : Sect) => (imgRecs x 48).map (fun b => imgLe r b 48))
/-- Offset of the ENVELOPE section. -/
def envAt (l : List Sect) : Nat := ((sectsOf l 0x40).map (·.off)).headD 0
def imgEnvelope (r : Nat → Byte) (l : List Sect) : Envelope :=
  let b := envAt l
  { reads := BitVec.ofNat 8 (imgLe r (b + 13) 1)
    entries := (List.range (imgLe r (b + 6) 2)).map (fun i =>
      let e := b + 64 + 32 * i
      let acc := imgLe r (e + 12) 1
      { addr := imgLe r e 4, stride := imgLe r (e + 4) 4, count := imgLe r (e + 8) 2, lsb := imgLe r (e + 10) 1, width := imgLe r (e + 11) 1
        wr := acc.testBit 0, rd := acc.testBit 1, lo := imgLe r (e + 16) 8, hi := imgLe r (e + 24) 8 }) }
/-- Offset of the firmware bundle. -/
def fwAt (l : List Sect) : Nat := ((sectsOf l 0x01).map (·.off)).headD 0
/-- The image that a device holds. -/
def imgParse (dev : Nat) (r : Nat → Byte) : Image :=
  let l := imgSects r
  let sb := imgSigAt r
  let fw := fwAt l
  let ev := envAt l
  let flags := imgLe r (ev + 12) 1
  { dev := dev, kind := imgLe r 7 1, commitSvn := (imgLe r 14 2).testBit 0, svn := imgLe r (fw + 5) 1, digest := imgDigest r
    keyHash := hashLe (imgBytes r (sb + 8) 97), payload := BitVec.ofNat 384 (imgLe r (fw + 16) 48), policy := BitVec.ofNat 384 (imgLe r 96 48)
    fields := imgFields r l, templates := imgTemplates r l, insts := imgInsts r l, rules := imgRules r l, caps := imgCaps r l
    regions := imgRegions r l, peers := imgPeers r l, env := imgEnvelope r l, leaseMs := imgLe r (ev + 8) 2, paths := imgLe r (ev + 10) 1
    mctpPort := imgLe r (ev + 11) 1 % 128, session := flags.testBit 0, maint := flags.testBit 1 }

/-- A bit of the life-cycle thermometer (R436): the number of the state. -/
def lcIndex (code : Nat) : Option Nat := [0x01, 0x03, 0x07, 0x0F, 0x1F, 0x3F].findIdx? (· == code)
/-! ### The checks of Table 15-10 -/

/-- What the checks of a device found: the code, FAIL_SECT and FAIL_REC of a failure with 0x0C or 0x0D (none where the manual
does not tie it to a record), the image, and the owner key's hash once check 8 has passed. -/
structure ImgResult where
  code : Nat
  fail : Option (Nat × Nat) := none
  image : Image
  keyOk : Bool := false
/-- Check 6: the section table under R422, known types, and the counts of Table 15-4. -/
def sectsOk (r : Nat → Byte) (l : List Sect) : Bool :=
  let known := [0x01, 0x10, 0x20, 0x21, 0x22, 0x23, 0x24, 0x30, 0x40, 0xF0]
  let n (t : Nat) : Nat := (sectsOf l t).length
  l.all (fun (x : Sect) => x.off % 4096 == 0 && x.off ≥ imgSigAt r + 256 && x.off + x.len ≤ imgLe r 8 4
      && (known.contains x.typ || !x.required) && (!known.contains x.typ || x.ver == 1)
      && l.all (fun (y : Sect) => x.num == y.num || x.off + x.len ≤ y.off || y.off + y.len ≤ x.off))
    && n 0x01 == 1 && n 0x10 ≥ 1 && [0x20, 0x21, 0x22, 0x23, 0x24, 0x30].all (fun t => n t ≤ 1) && n 0x40 == 1
/-- Claca key k is not revoked. -/
def State.keyGood (s : State) (k : Nat) : Bool := k < 4 && !s.rdBit F.PKG_LC_REVOKED k
/-- Kinds that a life-cycle state accepts (Table 15-12). -/
def kindOk (code kind : Nat) : Bool :=
  (code == 0x03 && (kind == 1 || kind == 2)) || ((code == 0x07 || code == 0x0F) && kind == 1) || (code == 0x1F && kind == 2)
/-- Number of the first section whose digest fails, or of FIRMWARE where its payload's does. -/
def digestFault (r : Nat → Byte) (l : List Sect) : Option Nat :=
  match l.find? (fun (x : Sect) => hashLe (imgBytes r x.off x.len) != BitVec.ofNat 384 x.digest) with
  | some x => some x.num
  | none =>
    let fw := fwAt l
    if hashLe (imgBytes r (fw + 256) (imgLe r (fw + 12) 4)) = BitVec.ofNat 384 (imgLe r (fw + 16) 48) then none else ((sectsOf l 0x01).map (·.num)).head?
/-- Runs checks 1 to 11. `sfdp`: the device answers. -/
def State.check11 (s : State) (dev : Nat) (sfdp : Bool) : ImgResult :=
  let r := s.norByte dev
  let x := imgParse dev r
  let l := imgSects r
  let sb := imgSigAt r
  let lc := s.rd F.PKG_LC_CODE
  let signer := imgLe r (sb + 6) 1
  let key := imgLe r (sb + 7) 1
  let fw := fwAt l
  let bad (n : Nat) : ImgResult := { code := n, image := x }
  let bad9 (n : Nat) (f : Option (Nat × Nat)) : ImgResult := { code := n, fail := f, image := x, keyOk := true }
  let serial := s.rd (F.PKG_SERIAL_SERIAL 0) + s.rd (F.PKG_SERIAL_SERIAL 1) * 2 ^ 64
  if !sfdp || s.img.norDead.contains dev then bad 0x02
  else if imgLe r 0 4 ≠ 0x4D49464A ∨ imgLe r 4 2 ≠ 1 ∨ imgLe r 8 4 > 50331648 ∨ imgCount r = 0 ∨ imgCount r > 64 then bad 0x03
  else if imgLe r 6 1 ≠ 4 then bad 0x04
  else if !((lcIndex lc).any (fun k => (imgLe r 48 1).testBit k) && kindOk lc x.kind) then bad 0x05
  else if imgLe r 32 16 ≠ 0 ∧ imgLe r 32 16 ≠ serial then bad 0x06
  else if !sectsOk r l then bad 0x07
  else if imgLe r sb 4 ≠ 0x4753464A ∨ imgLe r (sb + 4) 2 ≠ 1 ∨ (signer = 2) ≠ (x.kind = 2) ∨ (signer ≠ 1 ∧ signer ≠ 2)
      ∨ (signer = 2 ∧ !s.keyGood key) ∨ (lc = 0x0F ∧ signer = 1 ∧ x.keyHash ≠ s.img.fuseHash) then bad 0x08
  else if !Config.ecdsaOk (if signer = 2 then .inl key else .inr (imgBytes r (sb + 8) 97)) (imgDigest r) (imgBytes r (sb + 160) 96) then bad 0x09
  else if imgLe r fw 4 ≠ 0x5746464A ∨ imgLe r (fw + 4) 1 ≠ 4 ∨ !s.keyGood (imgLe r (fw + 6) 1)
      ∨ !Config.ecdsaOk (.inl (imgLe r (fw + 6) 1)) (hashLe (imgBytes r fw 160)) (imgBytes r (fw + 160) 96) then bad9 0x0A none
  else if x.svn < s.rd F.PKG_IMAGE_MIN_SVN then bad9 0x0B none
  else match digestFault r l with
    | some n => bad9 0x0C (some (n, 0))
    | none => bad9 0x01 none

end Sys2Proof.Machine
end

