-- ==== Sys2Proof/Machine/Mode.lean ====
section
/-! DEFINITION. The mode machine (spec/01 Table 1-9), and the raise of the fused minimum that follows it (spec/15 R430). -/

namespace Sys2Proof.Machine

/-! ### The mode machine -/

/-- The transitions of Table 1-9 (R40). -/
def modeOk : Mode → Mode → Bool
  | .dormant, .imageLoad => true
  | .imageLoad, .selfTest | .imageLoad, .returnTest | .imageLoad, .sealedHalt => true
  | .selfTest, .bringUp => true
  | .bringUp, .service | .bringUp, .degraded => true
  | .service, .drowse | .drowse, .service => true
  | .service, .degraded | .drowse, .degraded | .maintenance, .degraded | .rebuild, .degraded => true
  | .service, .rebuild | .degraded, .rebuild | .rebuild, .service => true
  | .degraded, .service => true
  | .service, .maintenance | .maintenance, .service => true
  | .safeStop, .dormant | .sealedHalt, .dormant => true
  | .dormant, .safeStop | .safeStop, .safeStop | .sealedHalt, .safeStop => false
  | _, .safeStop => true
  | _, _ => false

/-- The raise of the fused minimum (R430): in SERVICE or DEGRADED, an image that commits its FW_SVN raises it once the other slot
passes checks 1 to 11 with one at least as high. -/
def State.svnJudge (s : State) : State :=
  match s.img.image with
  | none => s
  | some x =>
    if (s.mode = .service ∨ s.mode = .degraded) ∧ x.commitSvn ∧ s.rd F.PKG_IMAGE_MIN_SVN < x.svn then
      let y := s.check11 (1 - x.dev) true
      if y.code = 1 ∧ x.svn ≤ y.image.svn then (s.wr F.PKG_IMAGE_MIN_SVN x.svn).logAudit 5 4 x.svn 0 0 else s
    else s
/-- Takes one transition of Table 1-9 with its cause code (Table 1-12); any other pair of modes changes nothing. -/
def State.goMode (s : State) (m : Mode) (cause : Nat) : State :=
  if modeOk s.mode m then
    let s := s.wr F.PKG_MODE_PREV_MODE s.mode.code
    let s := s.wr F.PKG_MODE_CAUSE cause
    let s := s.sat F.PKG_MODE_TRANS_COUNT
    ({ s with mode := m }.modeDomains s.mode).svnJudge
  else s

end Sys2Proof.Machine
end

