-- ==== Sys2Proof/Machine/ScrimOps.lean ====
section
/-! DEFINITION. Scrim and Lath (spec/02): the header unit, the mesh and its routes, router buffers, dead links, fence
notes and the fence map. -/

namespace Sys2Proof.Machine

/-! ### The mesh (R49) and routes (R59, R60) -/

/-- Link between (x, y) and (x + 1, y). -/
def hLink (x y : Nat) : Nat := y * 15 + x
/-- Link between (x, y) and (x, y + 1). -/
def vLink (x y : Nat) : Nat := 120 + x * 7 + y
/-- Lath seam links (R49). -/
def seamLink (n : Nat) : Bool :=
  if n < 120 then n % 15 == 3 || n % 15 == 7 || n % 15 == 11 else (n - 120) % 7 == 3
/-- The two cells a link joins, west or north end first. -/
def linkEnds (n : Nat) : Nat × Nat :=
  if n < 120 then (cellAt (n % 15) (n / 15), cellAt (n % 15 + 1) (n / 15))
  else (cellAt ((n - 120) / 7) ((n - 120) % 7), cellAt ((n - 120) / 7) ((n - 120) % 7 + 1))
/-- Link on side d of a cell, if the mesh has one there. -/
def linkOf (c : Nat) (d : Dir) : Option Nat :=
  let x := cellX c
  let y := cellY c
  match d with
  | .north => if y = 0 then none else some (vLink x (y - 1))
  | .south => if y = 7 then none else some (vLink x y)
  | .west => if x = 0 then none else some (hLink (x - 1) y)
  | .east => if x = 15 then none else some (hLink x y)
  | .loc => none
/-- The cell on the other end of side d. -/
def neighbour (c : Nat) (d : Dir) : Option Nat :=
  let x := cellX c
  let y := cellY c
  match d with
  | .north => if y = 0 then none else some (cellAt x (y - 1))
  | .south => if y = 7 then none else some (cellAt x (y + 1))
  | .west => if x = 0 then none else some (cellAt (x - 1) y)
  | .east => if x = 15 then none else some (cellAt (x + 1) y)
  | .loc => none
/-- Side an XY packet leaves router c on toward cell t (R59). -/
def xyDir (c t : Nat) : Dir :=
  if cellX t > cellX c then .east else if cellX t < cellX c then .west
  else if cellY t > cellY c then .south else if cellY t < cellY c then .north else .loc
/-- The columns or rows passed from a to b, both included. -/
def span (a b : Nat) : List Nat := (List.range (max a b - min a b + 1)).map (· + min a b)
/-- Links of the XY path from s to d. -/
def xyLinks (s d : Nat) : List Nat :=
  let y := cellY s
  let x := cellX d
  ((span (cellX s) x).dropLast.map (fun i => hLink i y)) ++ ((span y (cellY d)).dropLast.map (fun j => vLink x j))
/-- Dies of the XY path from s to d. -/
def xyDies (s d : Nat) : List Nat :=
  ((span (cellX s) (cellX d)).map (fun i => cellAt i (cellY s) / 16))
    ++ ((span (cellY s) (cellY d)).map (fun j => cellAt (cellX d) j / 16))
/-- The XY path avoids every fenced link and fenced die. -/
def xyClear (m : FenceMap) (s d : Nat) : Bool :=
  !(xyLinks s d).any m.links.contains && !(xyDies s d).any m.dies.contains
/-- Hops between two cells. -/
def hops (s d : Nat) : Nat :=
  (max (cellX s) (cellX d) - min (cellX s) (cellX d)) + (max (cellY s) (cellY d) - min (cellY s) (cellY d))
/-- What a detour entry says (R60). -/
inductive Route where
  | direct | via (w : Nat) | unreachable
  deriving DecidableEq, Repr
/-- route(s, d) of R60. -/
def route (m : FenceMap) (s d : Nat) : Route :=
  if m.dies.contains (d / 16) then .unreachable
  else if xyClear m s d then .direct
  else
    let ok := (List.range 128).filter (fun w => !m.dies.contains (w / 16) && xyClear m s w && xyClear m w d)
    match ok.foldl (fun (acc : Option (Nat × Nat)) w =>
        let l := hops s w + hops w d
        match acc with
        | some (v, k) => if l < k then some (w, l) else some (v, k)
        | none => some (w, l)) none with
    | some (w, _) => .via w
    | none => .unreachable
/-- The 16-bit detour entry of a route (Table 2-19). -/
def Route.code : Route → Nat
  | .direct => 0
  | .via w => 0x4000 + w
  | .unreachable => 0x8000
/-- The map router c works by: the new one once it has run its part of the open epoch (R67). -/
def State.mapAt (s : State) (c : Cell) : FenceMap :=
  if s.scrim.epochOpen && !s.scrim.applied.contains c then s.scrim.oldFence else s.scrim.fence
/-- The word of SCRIM_DETOUR[n] of cell c. -/
def State.detourWord (s : State) (c : Cell) (n : Nat) : Nat :=
  if (s.mapAt c).links = [] ∧ (s.mapAt c).dies = [] then 0
  else (List.range 4).foldl (fun acc k => acc + (route (s.mapAt c) c.val (4 * n + k)).code * 2 ^ (16 * k)) 0
/-- The route of a packet from its source, by the table of its source (R59). -/
def State.routeOf (s : State) (c d : Cell) : Route := route (s.mapAt c) c.val d.val
/-- A packet leaving its source: ROUTE, WCELL and FEP as the detour table gives them. -/
def State.stampRoute (s : State) (p : Pkt) : Pkt :=
  let p := { p with fep := s.rdb (F.SCRIM_RTR_STATUS_FEP p.src) }
  match s.routeOf p.src p.dst with
  | .via w => { p with route := 1, wcell := Cell.of w }
  | _ => { p with route := 0, wcell := 0 }

/-! ### Packets in flight -/

/-- Replaces a packet in flight, and the router it stands at. -/
def State.moveTo (s : State) (p q : Pkt) (c : Cell) : State :=
  { s with scrim.flight := s.scrim.flight.map (fun f => if f.p.same p then { f with loc := c, p := q } else f) }
/-- Packets absorbed leave flight, and every router that holds part of them. -/
def State.absorb (s : State) (ps : List Pkt) : State :=
  { s with scrim.flight := s.scrim.flight.filter (fun f => !ps.any (fun p => f.p.same p)) }.purgeUnits
    (fun q => ps.any (fun p => q.same p))
/-- Packets absorbed on a failed path: their requests go out again (R69). -/
def State.lose (s : State) (ps : List Pkt) : State :=
  let t := s.absorb ps
  { t with spill.lost := t.spill.lost ++ ps }
/-- Whatever holds part of a packet holds it changed. -/
def State.patch (s : State) (p : Pkt) (f : Pkt → Pkt) : State :=
  let g (q : Pkt) : Pkt := if q.same p then f q else q
  { s with
    scrim.flight := s.scrim.flight.map (fun (x : Flying) => { x with p := g x.p })
    scrim.buf := s.scrim.buf.map (fun e => (e.1, e.2.map (fun (b : BufUnit) => { b with p := g b.p })))
    scrim.rx := s.scrim.rx.map (fun e => (e.1, (g e.2.1, e.2.2)))
    scrim.eject := s.scrim.eject.map (fun e => (e.1, (g e.2.1, e.2.2)))
    scrim.finish := s.scrim.finish.map (fun e => (e.1, e.2.map (fun (x : Pkt × Nat) => (g x.1, x.2))))
    scrim.unacked := s.scrim.unacked.map (fun e => (e.1, e.2.map (fun (x : Pkt × Nat) => (g x.1, x.2))))
    scrim.waiting := s.scrim.waiting.map (fun e => (e.1, e.2.map g))
    scrim.heldUnits := s.scrim.heldUnits.map (fun e => (e.1, e.2.map (fun (x : Pkt × Nat) => (g x.1, x.2)))) }
/-- The router of cell c is in the mesh: its die's spine is on (R48). -/
def State.spineOn (s : State) (c : Cell) : Bool := s.domain (spineDom (dieOf c)) == 1
/-- The output of router c that a packet standing there takes. -/
def outOf (c : Cell) (p : Pkt) : Dir := xyDir c.val p.heading
/-- Output d of router c is dead (R66). -/
def State.outDead (s : State) (c : Cell) (d : Dir) : Bool := s.rdBit (F.SCRIM_RTR_STATUS_OUT_DEAD c) d.num
/-- Units in the buffer of input i of router c. -/
def State.units (s : State) (c : Cell) (i : Nat) : List BufUnit := mgetD [] s.scrim.buf (c.val * 5 + i)
/-- What the far end of output d of router c has received of a packet whose tail is still here. -/
def State.passedUnits (s : State) (c : Cell) (d : Dir) (p : Pkt) : Option Nat :=
  match neighbour c.val d with
  | none => none
  | some n => match mget s.scrim.rx ((n * 5 + d.opp.num) * 8 + p.opc.vc) with
    | some (q, k) => if q.same p then some k else none
    | none => none
/-- The packets whose units router c holds for output d, or that have begun to pass it, each once. -/
def State.queuedFor (s : State) (c : Cell) (d : Dir) : List Pkt :=
  let here := ((List.range 5).flatMap (fun i => (s.units c i).map (fun (b : BufUnit) => b.p)))
    ++ (if d = .loc then [] else mgetD [] s.scrim.waiting c.val)
  let passing := match neighbour c.val d with
    | some n => (List.range 8).filterMap (fun v => (mget s.scrim.rx ((n * 5 + d.opp.num) * 8 + v)).map (·.1))
    | none => []
  (here.filter (fun (p : Pkt) => outOf c p == d)
    ++ ((mgetD [] s.scrim.unacked (c.val * 5 + d.num)).map (fun (x : Pkt × Nat) => x.1)) ++ passing).foldl
      (fun (l : List Pkt) p => if l.any (fun q => q.same p) then l else l ++ [p]) []
/-- Units of a packet from number k on leave the buffers of router c: they have not passed the point that has received k of them. -/
def State.dropRest (s : State) (c : Cell) (p : Pkt) (k : Nat) : State :=
  { s with scrim.buf := s.scrim.buf.filterMap (fun e =>
      let l := if e.1 / 5 = c.val then e.2.filter (fun (b : BufUnit) => !(b.p.same p && decide (k ≤ b.u))) else e.2
      if l = [] then none else some (e.1, l)) }
/-- From its death on, an output absorbs every unit queued for it (R66): a packet that has not begun to pass it is lost, and of one
that has, the sending router discards the rest. Each packet counts once. -/
def State.absorbDead (s : State) (c : Cell) (d : Dir) : State :=
  let ps := s.queuedFor c d
  let s := ps.foldl (fun (s : State) (p : Pkt) => match s.passedUnits c d p with
    | some k => s.dropRest c p k
    | none => s.lose [p]) { s with scrim.unacked := mdel s.scrim.unacked (c.val * 5 + d.num) }
  s.sat (F.SCRIM_ABSORB_DEAD_OUT c) ps.length

/-! ### Units (R72, R73) -/

/-- Slots of a unit: one for the header, two for a data unit. -/
def unitSlots (u : Nat) : Nat := if u = 0 then 1 else 2
/-- A cell starts a packet toward Scrim: it takes its place in the order of injection (R58), and is counted and timed. -/
def State.injected (s : State) (c : Cell) (p : Pkt) : State :=
  { s with scrim := { s.injection c p with
      flight := (s.scrim.flight.filter (fun f => !(f.p.same p && f.inj == 0)))
        ++ ((s.scrim.flight.filter (fun f => f.p.same p && f.inj == 0)).map (fun f => { f with inj := 1 })) } }
/-- A unit reaches its cell. -/
def State.received (s : State) (c : Cell) (p : Pkt) (u : Nat) : State := { s with scrim := s.receipt c p u (unitBytes u) }
/-! ### Edges of a die (R63) -/

/-- The edge of a die that side d of cell c crosses, with the link's number in it, if the link is a seam. -/
def edgeOf (c : Nat) (d : Dir) : Option (Nat × Nat) :=
  match linkOf c d with
  | some n => if seamLink n then some (d.num, match d with
      | .east | .west => c % 16 / 4
      | _ => c % 4) else none
  | none => none
/-- The die that edge e of die d faces. -/
def edgeFaces (d e : Nat) : Option Nat :=
  if (edgePresent d).testBit e then
    some (match e with | 0 => d - 4 | 1 => d + 1 | 2 => d + 4 | _ => d - 1)
  else none
/-- The four seam links of an edge. -/
def edgeLinks (d e : Nat) : List Nat :=
  (List.range 4).filterMap (fun j =>
    let c := match e with | 0 => d * 16 + j | 1 => d * 16 + 4 * j + 3 | 2 => d * 16 + 12 + j | _ => d * 16 + 4 * j
    linkOf c (match e with | 0 => Dir.north | 1 => .east | 2 => .south | _ => .west))
/-- Every Lath link of a die. -/
def dieSeams (d : Nat) : List Nat := (List.range 4).flatMap (fun e => if (edgePresent d).testBit e then edgeLinks d e else [])

/-- An edge whose links have all ended their training is ACTIVE, or FENCED where every one of them is fenced (R63, Table 2-20). -/
def State.edgeTrained (s : State) (d e : Nat) : State :=
  let l := edgeLinks d e
  if l.any s.scrim.training.contains then s
  else if l.all s.scrim.fence.links.contains then (s.wr (F.DIE_LATH_STATUS_STATE d e) 3).wrBit (F.DIE_STATUS_EDGE_UP d) e false
  else (s.wr (F.DIE_LATH_STATUS_STATE d e) 2).wrBit (F.DIE_STATUS_EDGE_UP d) e true
/-- Seam links start to train (R63): their edges show TRAINING unless they are up already. -/
def State.startTraining (s : State) (d e : Nat) (ls : List Nat) : State :=
  match edgeFaces d e with
  | none => s
  | some x =>
    let tr (s : State) (d e : Nat) : State :=
      if s.rd (F.DIE_LATH_STATUS_STATE d e) = 2 then s else s.wr (F.DIE_LATH_STATUS_STATE d e) 1
    let t := { s with scrim.training := s.scrim.training ++ ls.filter (fun n => !s.scrim.training.contains n) }
    if ls = [] then s else tr (tr t d e) x ((e + 2) % 4)

/-! ### Fence notes and the map (R65, R67) -/

/-- The leader: the sequencer of the lowest-numbered unfenced die (R67). -/
def State.leaderDie (s : State) : Nat := ((List.range 8).find? (fun d => !s.dieFenced d)).getD 0
/-- Sends a fence note for an element to the leader. -/
def State.note (s : State) (e : Elem) : State :=
  if s.scrim.notes.contains e then s else { s with scrim.notes := s.scrim.notes ++ [e] }
/-- A map with an element fenced. -/
def FenceMap.add (m : FenceMap) : Elem → FenceMap
  | .link n => if m.links.contains n.val then m else { m with links := m.links ++ [n.val] }
  | .cell c => if m.cells.contains c.val then m else { m with cells := m.cells ++ [c.val] }
  | .die d => if m.dies.contains d.val then m else { m with dies := m.dies ++ [d.val] }
  | .stack k => if m.stks.contains k.val then m else { m with stks := m.stks ++ [k.val] }
/-- A map with an element returned. -/
def FenceMap.drop (m : FenceMap) : Elem → FenceMap
  | .link n => { m with links := m.links.filter (· != n.val) }
  | .cell c => { m with cells := m.cells.filter (· != c.val) }
  | .die d => { m with dies := m.dies.filter (· != d.val) }
  | .stack k => { m with stks := m.stks.filter (· != k.val) }
/-- An element is fenced. -/
def FenceMap.has (m : FenceMap) : Elem → Bool
  | .link n => m.links.contains n.val
  | .cell c => m.cells.contains c.val
  | .die d => m.dies.contains d.val
  | .stack k => m.stks.contains k.val
/-- The die registers show the epoch and the leader (Table 2-9). -/
def State.showLeader (s : State) : State :=
  let l := s.leaderDie
  (List.range 8).foldl (fun s d => (s.wr (F.DIE_FENCE_EPOCH_LEADER_DIE d) l).wrb (F.DIE_STATUS_LEADER d) (d == l)) s

/-- Opens a fence epoch with the elements it adds and returns (R67, R374). -/
def State.openEpoch (s : State) (add ret : List Elem) : State :=
  { s with
    scrim.oldFence := s.scrim.fence, scrim.fence := add.foldl FenceMap.add (ret.foldl FenceMap.drop s.scrim.fence)
    scrim.epochOpen := true, scrim.applied := [], scrim.reported := [], scrim.adding := add, scrim.returning := ret
    scrim.give := s.scrim.nextGive, scrim.nextGive := 0 }.showLeader
/-- Class of Table 12-1, cell and element number of a failed element. -/
def elemClass : Elem → Nat
  | .link n => if seamLink n.val then 0x02 else 0x01
  | .cell _ => 0x03
  | .die _ => 0x04
  | .stack _ => 0x05
def elemNum : Elem → Nat
  | .link n => n.val | .cell c => c.val | .die d => d.val | .stack k => k.val
/-- Starts the recovery clock of a fault, unless one runs (R364). -/
def State.beginRecovery (s : State) (cls : Nat) : State :=
  if s.rd F.PKG_FAULT_STATUS_STEP = 0 then
    ({ s with log.faultAt := s.ns, log.faultCls := cls }).wr F.PKG_FAULT_STATUS_STEP 1
  else s
/-- The mode that a fence leads to, as its fault entry names it (Table 12-7): DEGRADED from a mode that serves, else no other. -/
def State.fenceToward (s : State) : Option Mode :=
  match s.mode with
  | .service | .drowse | .rebuild | .maintenance => some .degraded
  | _ => none
/-- What fails is one die with what has failed before it in this epoch: the deaths of its Lath links are the evidence (Table 12-1). -/
def State.oneDie (s : State) (e : Elem) : Bool :=
  let l := e :: (s.scrim.notes ++ s.scrim.nextNotes ++ s.scrim.adding)
  (s.log.faultCls == 2 || s.log.faultCls == 4) && (List.range 8).any (fun d => l.all (fun (x : Elem) => match x with
    | .link n => (dieSeams d).contains n.val
    | .die k => k.val == d
    | _ => false))
/-- A failed element: its fault entry (R363, before the recovery's clock starts, so that only an earlier fault makes it a
double one), the end of the detect step (R365), and the note. -/
def State.failElem (s : State) (e : Elem) (cell : Option Cell) (cause detail : Nat) : State :=
  let run := s.rd F.PKG_FAULT_STATUS_STEP != 0
  let s := s.logFault (elemClass e) cell 0xFFFF cause detail (elemNum e) false s.fenceToward (s.lastOf e) (s.oneDie e)
  let s := if run then s else (s.beginRecovery (elemClass e)).logStep 1
  s.note e
/-! ### Router buffers and arbitration (R50, R56, R57) -/

/-- Shared slots of an input: 36, or 228 at a Lath input (R56). -/
def sharedSlots (c : Cell) (d : Dir) : Nat := if (edgeOf c.val d).isSome then 228 else 36
/-- Slots in use of some units. -/
def usedSlots (l : List BufUnit) : Nat := l.foldl (fun n (b : BufUnit) => n + unitSlots b.u) 0
/-- The reserved pool of a packet's route phase: two slots of its VC for ROUTE 0b00 and 0b01, two for 0b10 (R56). -/
def phasePool (p : Pkt) : Nat := if p.route = 2 then 2 else 1
/-- The pool whose slots a unit takes at an input: shared ones while they are free, else the reserved ones of its VC and route phase;
none where neither has room, which is no credit (R56). Both slots of a data unit come from one pool: with one shared slot free it takes two
reserved ones (DESIGN CHOICE, log 131). -/
def State.freePool (s : State) (c : Cell) (d : Dir) (p : Pkt) (u : Nat) : Option Nat :=
  let l := s.units c d.num
  let n := unitSlots u
  let r := phasePool p
  if usedSlots (l.filter (fun b => b.pool == 0)) + n ≤ sharedSlots c d then some 0
  else if usedSlots (l.filter (fun b => b.pool == r && b.p.opc.vc == p.opc.vc)) + n ≤ 2 then some r
  else none
/-- Puts a unit into an input's buffer. -/
def State.bufPut (s : State) (c : Cell) (d : Dir) (p : Pkt) (u pool : Nat) : State :=
  { s with scrim.buf := mmod [] s.scrim.buf (c.val * 5 + d.num) (fun l => l ++ [⟨p, u, pool⟩]) }
/-- Inputs and outputs of a router by number. -/
def dirOf (i : Nat) : Dir := match i with | 0 => .north | 1 => .east | 2 => .south | 3 => .west | _ => .loc
/-- The units of the packet that the router completes on VC v at input i enter the buffer while slots are free. -/
def State.fillVc (s : State) (c : Cell) (i v : Nat) : Nat → State
  | 0 => s
  | fuel + 1 =>
    let k := (c.val * 5 + i) * 8 + v
    match mgetD [] s.scrim.finish k with
    | [] => s
    | (p, u) :: l => match s.freePool c (dirOf i) p u with
      | none => s
      | some pool =>
        let s := s.bufPut c (dirOf i) p u pool
        State.fillVc { s with scrim.finish := mset [] s.scrim.finish k (if p.len.val ≤ u then l else (p, u + 1) :: l) } c i v fuel
/-- The same for every VC of an input. -/
def State.fill (s : State) (c : Cell) (i : Nat) : State :=
  if s.scrim.finish = [] then s else (List.range 7).foldl (fun (s : State) v => s.fillVc c i v 66) s
/-- Takes a unit out of input i's buffer of router c: its slots are free, and their credit goes back to the pool they came from. -/
def State.bufTake (s : State) (c : Cell) (i : Nat) (p : Pkt) (u : Nat) : State :=
  { s with scrim.buf := mmod [] s.scrim.buf (c.val * 5 + i) (fun l => l.eraseP (fun b => b.p.same p && b.u == u)) }.fill c i
/-- The oldest unit of a VC at an input: each input keeps the order of arrival within a VC (R58). -/
def State.headUnit (s : State) (c : Cell) (i v : Nat) : Option BufUnit := (s.units c i).find? (fun b => b.p.opc.vc == v)
/-- Unit u of a packet may pass next on VC v into input d of router c: a packet holds its VC from its header to its last unit
(R50). -/
def State.vcFree (s : State) (c : Cell) (d : Dir) (p : Pkt) (u : Nat) : Bool :=
  let key := (c.val * 5 + d.num) * 8 + p.opc.vc
  (mgetD [] s.scrim.finish key).isEmpty && (match mget s.scrim.rx key with
    | some (q, k) => q.same p && k == u
    | none => u == 0)
/-- Unit u of a packet may pass next on its VC to the cell: there it holds its VC too. -/
def State.ejectFree (s : State) (c : Cell) (p : Pkt) (u : Nat) : Bool :=
  match mget s.scrim.eject (c.val * 8 + p.opc.vc) with
  | some (q, k) => q.same p && k == u
  | none => u == 0
/-- The far end (c, d) of output o takes unit u of a packet next: its VC is free for it, and there is credit; a local output always has
credit. -/
def State.farTakes (s : State) (o : Dir) (c : Cell) (d : Dir) (p : Pkt) (u : Nat) : Bool :=
  if o = .loc then s.ejectFree c p u else s.vcFree c d p u && (s.freePool c d p u).isSome
/-- The unit that input i of router n has ready for output o on VC v: the oldest of its VC, which the far end (c, d) takes. -/
def State.readyUnit (s : State) (n : Cell) (o : Dir) (c : Cell) (d : Dir) (v i : Nat) : Option BufUnit :=
  match s.headUnit n i v with
  | some b => if outOf n b.p == o && s.farTakes o c d b.p b.u then some b else none
  | none => none
/-- Weight of a VC at an output (Table 2-12): 0 acts as 1 (R57). An output that has not come to its packet boundary since a commit still
applies the weights from before (R75). -/
def State.vcWeight (s : State) (c : Cell) (o : Dir) (v : Nat) : Nat :=
  max 1 (getBits ((mget s.scrim.oldWeight (c.val * 5 + o.num)).getD (s.reg (F.SCRIM_VC_WEIGHT_at c))) (4 * v) 4)
/-- Key of the deficits and pointers of an output. -/
def drrKey (n : Cell) (o : Dir) (v : Nat) : Nat := (n.val * 5 + o.num) * 8 + v
/-- Within a VC the rotating pointer names the input that is asked first (R57). -/
def State.drrInput (s : State) (n : Cell) (o : Dir) (c : Cell) (d : Dir) (v : Nat) : Option (Nat × BufUnit) :=
  let p := mgetD 0 s.scrim.rrPtr (drrKey n o v)
  (List.range 5).findSome? (fun j => (s.readyUnit n o c d v ((p + j) % 5)).map (fun b => ((p + j) % 5, b)))
/-- The choice of output o of router n (R57): the VC whose turn it is goes on while its deficit covers its unit; else the turn passes,
and a VC that receives it gets its quantum, or keeps no deficit while it has nothing ready (DESIGN CHOICE, log 104). -/
def State.drrPick (s : State) (n : Cell) (o : Dir) (c : Cell) (d : Dir) : Nat → Option (Nat × BufUnit × State)
  | 0 => none
  | fuel + 1 =>
    let v := mgetD 0 s.scrim.vcPtr (n.val * 5 + o.num)
    let k := drrKey n o v
    let serve : Option (Nat × BufUnit) := match s.drrInput n o c d v with
      | some (i, b) => if unitSlots b.u ≤ mgetD 0 s.scrim.deficit k then some (i, b) else none
      | none => none
    match serve with
    | some (i, b) => some (i, b, { s with
        scrim.deficit := mmod 0 s.scrim.deficit k (· - unitSlots b.u), scrim.rrPtr := mset 0 s.scrim.rrPtr k ((i + 1) % 5) })
    | none =>
      let w := (v + 1) % 7
      let ready := (s.drrInput n o c d w).isSome
      State.drrPick { s with
        scrim.vcPtr := mset 0 s.scrim.vcPtr (n.val * 5 + o.num) w
        scrim.deficit := if ready then mmod 0 s.scrim.deficit (drrKey n o w) (· + s.vcWeight n o w * 16)
          else mset 0 s.scrim.deficit (drrKey n o w) 0 } n o c d fuel
/-- The oldest packet that cell c has started toward Scrim on a VC and whose header has not entered the mesh. -/
def State.nextInjected (s : State) (c : Cell) (v : Nat) : Option Pkt :=
  (s.scrim.flight.find? (fun f => f.p.src == c && f.inj == 1 && f.p.opc.vc == v)).map (·.p)
/-- Unit u of a packet is what the link into input d of router c brings next: the packet as the sender holds it, and the state once
the unit has left the sender (R50, R56 to R58). A unit waits for an edge in low power (R64). -/
def State.offered (s : State) (c : Cell) (d : Dir) (p : Pkt) (u : Nat) : Option (Pkt × State) :=
  match neighbour c.val d with
  | none =>
    if d ≠ .loc then none
    else
      let q : Option Pkt := if u = 0 then s.nextInjected c p.opc.vc
        else ((s.scrim.flight.find? (fun f => f.p.src == c && f.inj == 2 && f.p.same p)).map (·.p))
      match q with
      | some q =>
        if q.same p && s.vcFree c d q u && (s.freePool c d q u).isSome then
          some (q, { s with scrim.flight := s.scrim.flight.map (fun f => if f.p.same q then { f with inj := 2 } else f) })
        else none
      | none => none
  | some m =>
    let n := Cell.of m
    let o := d.opp
    let lp := match edgeOf c.val d with
      | some (e, j) => s.rdBit (F.DIE_LATH_STATUS_LINK_LP (dieOf c) e) j
      | none => false
    if s.outDead n o || lp || !s.spineOn n then none
    else match mgetD [] s.scrim.unacked (m * 5 + o.num) with
      -- a replay comes before any other flit (R54)
      | (q, k) :: l =>
        if q.same p && k == u && s.farTakes o c d q u then some (q, { s with scrim.unacked := mset [] s.scrim.unacked (m * 5 + o.num) l }) else none
      | [] => match s.drrPick n o c d 9 with
        | some (i, b, t) => if b.p.same p && b.u == u then some (b.p, t.bufTake n i b.p u) else none
        | none => none

/-! ### The local output (R50, R57, R67) -/

/-- An output comes to a packet boundary as a packet's last unit passes it (R75). -/
def State.boundary (s : State) (c : Cell) (o : Dir) (p : Pkt) (u : Nat) : State :=
  if u = p.len.val then { s with scrim.oldWeight := mdel s.scrim.oldWeight (c.val * 5 + o.num) } else s
/-- A commit of SCRIM_VC_WEIGHT: an output with a packet in progress goes on with the old weights, any other is at a boundary (R75). -/
def State.keepWeights (s : State) (c : Cell) : State :=
  let busy (o : Dir) : Bool := (List.range 8).any (fun v => match neighbour c.val o with
    | some n => (mget s.scrim.rx ((n * 5 + o.opp.num) * 8 + v)).isSome
    | none => o == Dir.loc && (mget s.scrim.eject (c.val * 8 + v)).isSome)
  { s with scrim.oldWeight := [Dir.north, Dir.east, Dir.south, Dir.west, Dir.loc].foldl (fun (m : NMap Word) (o : Dir) =>
      if busy o && (mget m (c.val * 5 + o.num)).isNone then mput m (c.val * 5 + o.num) (s.reg (F.SCRIM_VC_WEIGHT_at c)) else m) s.scrim.oldWeight }
/-- The local output passes a unit to its cell; in ABSORB it discards it (R67). -/
def State.localUnit (s : State) (c : Cell) (p : Pkt) (u : Nat) : State :=
  let k := c.val * 8 + p.opc.vc
  let s := (s.received c p u).boundary c .loc p u
  if u < p.len.val then { s with scrim.eject := mput s.scrim.eject k (p, u + 1) }
  else
    let s := { s with scrim.eject := mdel s.scrim.eject k }
    if s.rd (F.SCRIM_RTR_STATUS_LOCAL_MODE c) = 2 then (s.lose [p]).sat (F.SCRIM_ABSORB_FENCED_DST c)
    else { s with scrim.flight := s.scrim.flight.map (fun f => if f.p.same p then { f with inj := 3 } else f) }
/-- The local output delivers what its cell can take, unit by unit as it arbitrates (R57): nothing in HOLD (R70). -/
def State.localOut (s : State) (c : Cell) : Nat → State
  | 0 => s
  | fuel + 1 =>
    if s.rd (F.SCRIM_RTR_STATUS_LOCAL_MODE c) = 1 then s
    else match s.drrPick c .loc c .loc 9 with
      | some (i, b, t) => State.localOut ((t.bufTake c i b.p b.u).localUnit c b.p b.u) c fuel
      | none => s
/-- As many units as a local output can have before it. -/
def State.ejectAll (s : State) (c : Cell) : State :=
  let n := (List.range 5).foldl (fun n i => n + (s.units c i).length
    + (List.range 8).foldl (fun n v => n + 66 * (mgetD [] s.scrim.finish ((c.val * 5 + i) * 8 + v)).length) 0) 0
  s.localOut c n

/-! ### Dead links (R65, R66) -/

/-- Packets partly received on a dead input are completed to their LEN with poisoned data units and a stomped tail, as slots are free, and
their requests go out again (R66, R69). The sender's remaining units are discarded. -/
def State.stompPartial (s : State) (c : Cell) (d : Dir) : State :=
  ((s.scrim.rx.filter (fun e => e.1 / 8 == c.val * 5 + d.num)).foldl (fun (s : State) (e : Nat × (Pkt × Nat)) =>
    let p := e.2.1
    let k := e.2.2
    let q : Pkt := { p with pois := p.poisFrom (k - 1), stomp := true }
    let s := match neighbour c.val d with
      | some n => s.dropRest (Cell.of n) p k
      | none => s
    let s := { s with scrim.rx := mdel s.scrim.rx e.1 }.patch p (fun x => { x with pois := q.pois, stomp := true })
    let s := { s with spill.lost := s.spill.lost ++ [p], scrim.finish := mmod [] s.scrim.finish e.1 (fun l => (q, k) :: l) }
    s.fill c d.num) s).ejectAll c
/-- Router c declares the link on side d, or its local port, dead (R65): absorption (R66), the note, and the whole die
once all its Lath links are dead (R67, by the leader at FENCE_NOTE). -/
def State.declareDead (s : State) (c : Cell) (d : Dir) (cause : Nat) : State :=
  if s.outDead c d then s
  else
    let s := s.wrBit (F.SCRIM_RTR_STATUS_OUT_DEAD c) d.num true
    let s := (s.absorbDead c d).stompPartial c d
    match linkOf c.val d with
    | some n =>
      let s := match edgeOf c.val d with
        | some (e, j) => s.wrBit (F.DIE_LATH_STATUS_LINK_DEAD (dieOf c) e) j true
        | none => s
      s.failElem (.link (Fin.ofNat 232 n)) (some c) cause n
    | none => match d with
      | .loc => s.failElem (.cell c) (some c) cause 0xFFFF
      | _ => s

/-- The side on which a packet comes into router c, or had it turned there. -/
def cameFrom (c : Cell) (p : Pkt) : Dir :=
  let a := if p.route = 2 then p.wcell.val else p.src.val
  if a = c.val then .loc
  else if cellX c.val = cellX p.heading && cellY c.val ≠ cellY a then (if cellY a < cellY c.val then .north else .south)
  else if cellX a < cellX c.val then .west else .east
/-- A packet whose units are not in router c yet comes to stand there, as its slots allow (R56). -/
def State.standAt (s : State) (c : Cell) (p : Pkt) : State :=
  let k := (c.val * 5 + (cameFrom c p).num) * 8 + p.opc.vc
  if p.src = p.dst || (List.range 5).any (fun i => (s.units c i).any (fun (b : BufUnit) => b.p.same p))
      || s.scrim.finish.any (fun e => e.2.any (fun (x : Pkt × Nat) => x.1.same p)) then s
  else
    let u := s.delivered p
    let t := s.purgeUnits (fun q => q.same p)
    let s := { t.moveTo p p c with scrim.eject := s.scrim.eject, scrim.waiting := s.scrim.waiting, scrim.heldUnits := s.scrim.heldUnits }
    { s with scrim.finish := mmod [] s.scrim.finish k (fun l => l ++ [(p, u)]) }.fill c (cameFrom c p).num

/-! ### Arrivals (R58, R66, R67, R71) -/

/-- The controller abandons the power change of a port: its cells' local outputs are NORMAL again. The cell that did not drain in time,
or met a unit, shows `st`; the others of its port show IDLE, which the spec leaves open (DESIGN CHOICE, log 106). -/
def State.abandonDrain (s : State) (c : Cell) (st : Nat) : State :=
  (s.portMembers (s.anchorOf c)).foldl (fun (s : State) (m : Cell) =>
    let d := s.rd (F.SCRIM_RTR_STATUS_DRAIN_STATE m)
    if (d ≠ 1 ∧ d ≠ 2) ∨ s.scrim.committed.contains m ∨ s.rd (F.SCRIM_RTR_STATUS_LOCAL_MODE m) = 2 then s
    else (s.wr (F.SCRIM_RTR_STATUS_DRAIN_STATE m) (if m = c then st else 0)).wr (F.SCRIM_RTR_STATUS_LOCAL_MODE m) 0) s
/-- HOLD is released: the local output goes on with the units that waited at the router of c. -/
def State.releaseHold (s : State) (c : Cell) : State :=
  { s with
    scrim.waiting := mmod [] s.scrim.waiting c.val (fun w => w.filter (fun (p : Pkt) => outOf c p != Dir.loc))
    scrim.heldUnits := mdel s.scrim.heldUnits c.val }.ejectAll c
/-- A unit, or a whole packet, arrives for a local port in HOLD (R71): before the commit point the drain ends CANCELLED and the unit is
delivered; after it the port's cells wake and the unit waits, which yields hop latency once for each wait (R74). -/
def State.holdArrival (s : State) (c : Cell) (p : Pkt) : State :=
  let s := s.standAt c p
  let first := !(mgetD [] s.scrim.waiting c.val).any (fun q => outOf c q == .loc)
  let s := { s with scrim.waiting := mmod [] s.scrim.waiting c.val (fun l => if l.any (fun q => q.same p) then l else l ++ [p]) }
  if s.scrim.committed.contains c then
    let s := if first then s.logYield 4 6 (some c) 0xFFFF 0x010C c.val else s
    (s.portMembers (s.anchorOf c)).foldl (fun (s : State) (m : Cell) => s.wakeCell m) s
  else ((s.abandonDrain c 3).sat F.RIND_SLEEP_CNT_CANCELLED).releaseHold c
/-- Two packets are of one (source, destination, VC) triple. -/
def Pkt.sameTriple (p q : Pkt) : Bool := p.src == q.src && p.dst == q.dst && p.opc.vc == q.opc.vc
/-- Scrim still has to deliver a packet of the same triple that was injected before this one (R58). -/
def State.behind (s : State) (p : Pkt) : Bool :=
  match s.scrim.flight.find? (fun f => f.p.same p) with
  | none => false
  | some f =>
    let older := if f.inj = 0 then s.scrim.flight else s.scrim.flight.takeWhile (fun g => !g.p.same p)
    f.inj ≠ 3 && older.any (fun g => Pkt.sameTriple g.p p && g.inj != 0 && g.inj != 3 && !g.p.same p)
/-- A message can be consumed at its cell: the cell is not fenced, the message is not stomped, none is due before it, and its local
port is not in HOLD. -/
def State.mayArrive (s : State) (p : Pkt) : Bool :=
  !s.cellFenced p.dst && !p.stomp && !s.behind p && s.rd (F.SCRIM_RTR_STATUS_LOCAL_MODE p.dst) != 1
/-- A message arrives for a block of cell p.dst: a fenced cell absorbs it (R67), any other consumes it in its order (R58), or discards
it where it is stomped (R66); transit keeps its stomped tail (R104). A cell that drains or sleeps meets it as R71 says. -/
def State.arrive (s : State) (p : Pkt) (k : State → State) : State :=
  if s.cellFenced p.dst then (s.lose [p]).sat (F.SCRIM_ABSORB_FENCED_DST p.dst)
  else if s.behind p then s
  else if s.rd (F.SCRIM_RTR_STATUS_LOCAL_MODE p.dst) = 1 then
    if s.scrim.committed.contains p.dst then s.holdArrival p.dst p
    else if p.stomp && !Pkt.transit p then (s.holdArrival p.dst p).take p
    else k ((s.holdArrival p.dst p).take p)
  else if p.stomp && !Pkt.transit p then s.take p
  else k (s.take p)

end Sys2Proof.Machine
end

