-- ==== Sys2Proof/Machine/GateOps.lean ====
section
/-! DEFINITION. Gate lists, the fit rule, credit shapers and queue observation (spec/05), and the port's rate (R103). -/

namespace Sys2Proof.Machine

/-! ### Rates (R103), in units of 1/80 GB/s -/

/-- Tenths of GT/s of a RATE code. -/
def rateGt10 : Nat → Nat
  | 1 => 25 | 2 => 50 | 3 => 80 | 4 => 160 | 5 => 320 | 6 => 640 | 7 => 1280 | _ => 0
/-- The trained raw rate of the port of cell c: lanes × GT/s ÷ 8 (R103); 0 while it is down. -/
def State.portRate (s : State) (c : Cell) : Nat :=
  let a := s.anchorOf c
  s.rd (F.LANE_PORT_STATUS_WIDTH a) * rateGt10 (s.rd (F.LANE_PORT_STATUS_RATE a))
/-- 96 GB/s, the rate of a crossbar input or output (R76). -/
def coreRate : Nat := 96 * 80
/-- Rate of an endpoint: the port's at PORT, the crossbar's elsewhere. -/
def State.endRate (s : State) (c : Cell) (o : Nat) : Nat := if o = 0 then s.portRate c else coreRate

/-! ### Gate lists (R137 to R140) -/

/-- (GATES, INTERVAL) of entry n of cell c's list. -/
def State.gateEntry (s : State) (c : Cell) (n : Nat) : Nat × Nat :=
  if n % 2 = 0 then (s.rd (F.GATE_LIST_GATES0 c (n / 2)), s.rd (F.GATE_LIST_INTERVAL0 c (n / 2)))
  else (s.rd (F.GATE_LIST_GATES1 c (n / 2)), s.rd (F.GATE_LIST_INTERVAL1 c (n / 2)))
/-- The entries in use. -/
def State.gateList (s : State) (c : Cell) : List (Nat × Nat) :=
  (List.range (s.rd (F.GATE_CTRL_LEN c) + 1)).map (s.gateEntry c)
/-- The list runs: EN is 1 and package time has reached BASE_TIME. -/
def State.gateRuns (s : State) (c : Cell) : Bool :=
  s.rdb (F.GATE_CTRL_EN c) && s.rd (F.GATE_BASE_BASE_TIME c) ≤ s.ns && s.rd (F.GATE_CYCLE_CYCLE_NS c) ≠ 0
/-- Entry whose interval contains an offset, and the offset within it. -/
def entryAt : List (Nat × Nat) → Nat → Nat → Nat × Nat
  | [], _, n => (n, 0)
  | [_], off, n => (n, off)
  | (_, iv) :: t, off, n => if off < iv then (n, off) else entryAt t (off - iv) (n + 1)
/-- Current entry, and ns since it began (R137). -/
def State.gatePos (s : State) (c : Cell) : Nat × Nat :=
  entryAt (s.gateList c) ((s.ns - s.rd (F.GATE_BASE_BASE_TIME c)) % s.rd (F.GATE_CYCLE_CYCLE_NS c)) 0
/-- Gates open now: all of them while the list does not run. -/
def State.gatesOpen (s : State) (c : Cell) : Nat :=
  if s.gateRuns c then (s.gateEntry c (s.gatePos c).1).1 else 0xFF
/-- The gate of class tc at output o is open: SCR outputs have none (R136). -/
def State.gateOpen (s : State) (c : Cell) (o tc : Nat) : Bool := o ≠ 0 || (s.gatesOpen c).testBit tc
/-- Length of the run of consecutive entries open for tc that starts at entry n, over at most k entries; none where it
never ends. -/
def runLen (l : List (Nat × Nat)) (tc : Nat) : Nat → Nat → Option Nat
  | _, 0 => none
  | n, k + 1 =>
    match l[n % l.length]? with
    | some (g, iv) => if g.testBit tc then (runLen l tc (n + 1) k).map (· + iv) else some 0
    | none => some 0
/-- ns from now to the end of the class's present open run; none: it never ends. -/
def State.runLeft (s : State) (c : Cell) (tc : Nat) : Option Nat :=
  if s.gateRuns c then
    let (n, off) := s.gatePos c
    (runLen (s.gateList c) tc n ((s.gateList c).length + 1)).map (· - off)
  else none
/-- The longest open run of a class and the entry it starts at, the first among equals (R140). -/
def State.longestRun (s : State) (c : Cell) (tc : Nat) : Option (Nat × Nat) :=
  let l := s.gateList c
  (List.range l.length).foldl (fun acc n =>
    let prevOpen := match l[(n + l.length - 1) % l.length]? with
      | some (g, _) => g.testBit tc
      | none => false
    match l[n]? with
    | some (g, _) =>
      if g.testBit tc && !prevOpen then
        match runLen l tc n (l.length + 1), acc with
        | some r, some (r', n') => if r > r' then some (r, n) else some (r', n')
        | some r, none => some (r, n)
        | none, a => a
      else acc
    | none => acc) none
/-- T of R138 fits in t ns: T = (32 + 64 × LEN) ÷ r + GUARD_NS. -/
def State.fitsIn (s : State) (c : Cell) (p : Pkt) (t : Nat) : Bool :=
  let r := s.portRate c
  (p.bytes * 80 + s.rd (F.GATE_CTRL_GUARD_NS c) * r) ≤ t * r
/-- The frame fits in the class's present run (R138): judged for the start cycle. -/
def State.fits (s : State) (c : Cell) (p : Pkt) : Bool :=
  match s.runLeft c p.tc with
  | none => true
  | some t =>
    let r := s.portRate c
    -- the cycle may begin up to two thirds of a ns after the whole ns
    3 * (p.bytes * 80 + s.rd (F.GATE_CTRL_GUARD_NS c) * r) + s.cyc % 3 * r ≤ 3 * t * r
/-- R140: no open run of its class holds the frame, and this is the first cycle of the longest one. -/
def State.oversizeNow (s : State) (c : Cell) (p : Pkt) : Bool :=
  if s.gateRuns c then
    match s.longestRun c p.tc with
    | some (r, n) => !s.fitsIn c p r && s.gatePos c == (n, 0) && s.cyc % 3 == 0
    | none => false
  else false

/-! ### Shapers (R143 to R145) -/

/-- A 32-bit field as a signed number. -/
def sign32 (n : Nat) : Int := if n < 2 ^ 31 then n else (n : Int) - 2 ^ 32
/-- CREDIT of a shaper, in 1/1024 B. -/
def State.credit (s : State) (c : Cell) (o tc : Nat) : Int := sign32 (s.rd (F.SHP_CREDIT_CREDIT c o tc))
/-- Stores CREDIT. -/
def State.setCredit (s : State) (c : Cell) (o tc : Nat) (v : Int) : State :=
  s.wr (F.SHP_CREDIT_CREDIT c o tc) (v % 2 ^ 32).toNat
/-- IDLE_RATE: values below 64 act as 64 (R145). -/
def State.idleRate (s : State) (c : Cell) (o tc : Nat) : Nat := max 64 (s.rd (F.SHP_CFG_IDLE_RATE c o tc))
/-- The shaper of (output, class) can hold a frame back: it is enabled, and its rate is below the output's (R145). -/
def State.shapes (s : State) (c : Cell) (o tc : Nat) : Bool :=
  s.rdb (F.SHP_CFG_EN c o tc) && decide (s.idleRate c o tc * 240 < s.endRate c o * 1024)
/-- The queue of a shaper is active in this cycle (R143): a frame that joined the buffer in an earlier one, a fetch from Whey outstanding or
ended in this one, or a frame of the class in transmission. -/
def State.queueActive (s : State) (c : Cell) (o tc : Nat) : Bool :=
  (List.range 10).any (fun i => (mgetD [] s.xbar.voq (((c.val * 10 + i) * 10 + o) * 8 + tc)).any (fun (f : Frame) => decide (f.cyc < s.cyc) || f.whey))
    || s.spill.ctx.any (fun e => e.1 / 64 == c.val && e.2.out == o && e.2.tc == tc && e.2.fetch)
    || (s.cyc < mgetD 0 s.xbar.outBusy (c.val * 10 + o) && mgetD 8 s.xbar.outCls (c.val * 10 + o) == tc)
/-- Steps 2 to 4 of R143 at the end of a core cycle. -/
def State.shaperCycle (s : State) (c : Cell) (o tc : Nat) : State :=
  let v := s.credit c o tc
  let open_ := s.gateOpen c o tc
  let rate : Int := s.idleRate c o tc
  let v := if !open_ then v
    else if s.queueActive c o tc then v + rate
    else if v > 0 then 0 else min 0 (v + rate)
  let cap : Int := s.rd (F.SHP_CFG_HI_CREDIT c o tc) * 32 * 1024
  s.setCredit c o tc (min v cap)
/-- The shapers that a core cycle can change: active queues, and credit that is not 0. -/
def State.liveShapers (s : State) : List (Nat × Nat × Nat) :=
  let q := s.xbar.voq.filterMap (fun e =>
    let o := e.1 / 8 % 10
    if o < 5 then some (e.1 / 800, o, e.1 % 8) else none)
  let f := s.spill.ctx.filterMap (fun e => if e.2.fetch && e.2.out < 5 then some (e.1 / 64, e.2.out, e.2.tc) else none)
  let b := s.xbar.outBusy.filterMap (fun e => if e.1 % 10 < 5 then some (e.1 / 10, e.1 % 10, mgetD 0 s.xbar.outCls e.1) else none)
  let r := s.regs.filterMap (fun e =>
    let off := e.1 % 0x100000
    if 0x10000000 ≤ e.1 ∧ e.1 < 0x18000000 ∧ 0x20600 ≤ off ∧ off < 0x20740 then
      some ((e.1 - 0x10000000) / 0x100000, (off - 0x20600) / 64, (off - 0x20600) % 64 / 8) else none)
  (q ++ f ++ b ++ r).eraseDups
/-- All shapers over one core cycle. -/
def State.shapersCycle (s : State) : State :=
  s.liveShapers.foldl (fun s (k : Nat × Nat × Nat) => s.shaperCycle (Cell.of k.1) k.2.1 k.2.2) s

/-! ### Observation (R148, R149) -/

/-- Depth bucket of a number of granules. -/
def depthBucket (n : Nat) : Nat := if n = 0 then 0 else if n < 128 then 1 else if n ≥ 4096 then 7 else n.log2 - 5
/-- Adds 1 to element n of a list of 32-bit counters that saturate. -/
def bump (l : List Nat) (n : Nat) : List Nat := l.set n (min 0xFFFFFFFF (l.getD n 0 + 1))
/-- Queue q of a cell watches (output, class), if it is enabled. -/
def State.watched (s : State) (c : Cell) (q : Nat) : Option (Nat × Nat) :=
  let v := s.rd (F.SHP_OBS_QSEL_Q c q)
  if v ≥ 128 ∧ v / 8 % 16 ≤ 9 then some (v / 8 % 16, v % 8) else none
/-- A frame starts: its delay goes into every queue that watches it. -/
def State.observeStart (s : State) (c : Cell) (o tc delay : Nat) : State :=
  (List.range 4).foldl (fun s q =>
    if s.watched c q = some (o, tc) then
      { s with
        sched.live := mmod {} s.sched.live (c.val * 4 + q) (fun (l : ObsLive) =>
          { l with delay := bump l.delay (latBucket delay), frames := min 0xFFFFFFFF (l.frames + 1),
                   maxDelay := max l.maxDelay (min delay 0xFFFFFFFF),
                   satur := l.satur || l.delay.getD (latBucket delay) 0 = 0xFFFFFFFF }) }
    else s) s
/-- Granules held for (output, class), and whether a VOQ of it is SPILLED. -/
def State.queueDepth (s : State) (c : Cell) (o tc : Nat) : Nat × Bool :=
  ((List.range 10).foldl (fun n i =>
      (mgetD [] s.xbar.voq (((c.val * 10 + i) * 10 + o) * 8 + tc)).foldl (fun n f => n + f.p.granules) n) 0,
   s.spill.ctx.any (fun e => e.1 / 64 == c.val && e.2.out == o && e.2.tc == tc))
/-- One depth sample of every watched queue. -/
def State.sampleDepth (s : State) (c : Cell) : State :=
  (List.range 4).foldl (fun s q =>
    match s.watched c q with
    | some (o, tc) =>
      let (n, sp) := s.queueDepth c o tc
      { s with
        sched.live := mmod {} s.sched.live (c.val * 4 + q) (fun (l : ObsLive) =>
          { l with depth := bump l.depth (depthBucket n), maxDepth := max l.maxDepth (min n 0xFFFF),
                   spilled := l.spilled || sp, satur := l.satur || l.depth.getD (depthBucket n) 0 = 0xFFFFFFFF }) }
    | none => s) s
/-- The record of a queue (Table 5-3). -/
def State.histRec (s : State) (c : Cell) (q o tc : Nat) (l : ObsLive) : HistRec :=
  let repl := (mget s.sched.pendRec (c.val * 4 + q)).isSome
  { time := s.ns, seq := mgetD 0 s.sched.seq c.val, cell := c.val, out := o, tc := tc,
    flags := repl.toNat + 2 * l.spilled.toNat + 4 * l.commit.toNat + 8 * l.satur.toNat, frames := l.frames,
    periodNs := s.ns - mgetD 0 s.sched.since c.val, maxDelay := l.maxDelay, maxDepth := l.maxDepth, delay := l.delay,
    depth := l.depth }
/-- Copies the live counts of one queue into its view registers, zeroes them, and queues its record (R149). -/
def State.copyLive (s : State) (c : Cell) (q : Nat) (l : ObsLive) : State :=
  let s := (List.range 8).foldl (fun s n =>
    (s.wr (F.SHP_OBS_DLY_LO c q n) (l.delay.getD (2 * n) 0)).wr (F.SHP_OBS_DLY_HI c q n) (l.delay.getD (2 * n + 1) 0)) s
  let s := (List.range 4).foldl (fun s n =>
    (s.wr (F.SHP_OBS_DEP_LO c q n) (l.depth.getD (2 * n) 0)).wr (F.SHP_OBS_DEP_HI c q n) (l.depth.getD (2 * n + 1) 0)) s
  let s := (s.wr (F.SHP_OBS_SUM_FRAMES c q) l.frames).wr (F.SHP_OBS_SUM_MAX_DELAY c q) l.maxDelay
  let s := s.wr (F.SHP_OBS_MAX_MAX_DEPTH c q) l.maxDepth
  { s with sched.live := mdel s.sched.live (c.val * 4 + q) }
/-- The record of a queue where REC_EN is set waits for SAMP (R149). -/
def State.queueRec (s : State) (c : Cell) (q : Nat) (l : ObsLive) : State :=
  match s.rdb (F.SHP_OBS_CTRL_REC_EN c), s.watched c q with
  | true, some (o, tc) =>
    let r := s.histRec c q o tc l
    let s := s.wr (F.SHP_OBS_MAX_SEQ c q) r.seq
    { s with sched.pendRec := mput s.sched.pendRec (c.val * 4 + q) r, sched.seq := mset 0 s.sched.seq c.val ((r.seq + 1) % 2 ^ 32) }
  | _, _ => s
/-- The copy of one queue, and its record (R149). -/
def State.copyQueue (s : State) (c : Cell) (q : Nat) : State :=
  let l := mgetD {} s.sched.live (c.val * 4 + q)
  (s.copyLive c q l).queueRec c q l
/-! ### What SAMP sends -/

/-- n data units of a number, its low bytes first. -/
def unitsOf (n x : Nat) : List Line := (List.range n).map (fun k => BitVec.ofNat 512 (x / 2 ^ (512 * k)))
/-- The cell that a packet to the active service processor goes to: the first of its die (DESIGN CHOICE, log 9). -/
def State.spCell (s : State) : Cell := Cell.of (((s.activeSp.map (·.val)).getD 0) * 16)
/-- A record of n data units: one MGT packet on VC4 to the active service processor, in TC1 (R106, R149, Table 5-1). -/
def State.mgtPkt (s : State) (c : Cell) (n x : Nat) : Pkt :=
  { opc := .mgt, src := c, dst := s.spCell, tagSlot := 0x3FF, tc := 1, len := Fin.ofNat 65 n, data := unitsOf n x }
/-- A list of fields of w bits, the first lowest. -/
def packed (w : Nat) (l : List Nat) : Nat := (l.zipIdx).foldl (fun n (x : Nat × Nat) => n + x.1 % 2 ^ w * 2 ^ (w * x.2)) 0
/-- The 128 B of a histogram record (Table 5-3). -/
def HistRec.bits (r : HistRec) : Nat :=
  r.time % 2 ^ 64 + r.seq % 2 ^ 32 * 2 ^ 64 + r.cell * 2 ^ 96 + (r.out * 16 + r.tc) * 2 ^ 104 + r.flags * 2 ^ 112 + r.frames % 2 ^ 32 * 2 ^ 128
    + r.periodNs % 2 ^ 32 * 2 ^ 160 + r.maxDelay % 2 ^ 32 * 2 ^ 192 + r.maxDepth % 2 ^ 16 * 2 ^ 224 + packed 32 r.delay * 2 ^ 256
    + packed 32 r.depth * 2 ^ 768
/-- A record of SAMP waits: a histogram record, or a counter record. -/
def State.sampPends (s : State) (c : Cell) : Bool :=
  (List.range 4).any (fun q => (mget s.sched.pendRec (c.val * 4 + q)).isSome) || (mget s.ctr.record c.val).isSome
/-- SAMP sends the pending records of a cell, histograms first and then the counter record, before any sample record or mirror copy
(R149, R479). -/
def State.sendHist (s : State) (c : Cell) : State :=
  let s := (List.range 4).foldl (fun s q =>
    match mget s.sched.pendRec (c.val * 4 + q) with
    | some r => { s with sched.pendRec := mdel s.sched.pendRec (c.val * 4 + q) }.emit (.samp (s.mgtPkt c 2 r.bits))
    | none => s) s
  match mget s.ctr.record c.val with
  | some ws => { s with ctr.record := mdel s.ctr.record c.val }.emit (.samp (s.mgtPkt c ((ws.length + 7) / 8) (packed 64 ws)))
  | none => s
/-- The end of a period, or a SNAP, of a cell's observation (R149). -/
def State.copyObs (s : State) (c : Cell) (sampBusy : Bool) : State :=
  let s := (List.range 4).foldl (fun s q => s.copyQueue c q) s
  let s := { s with sched.since := mset 0 s.sched.since c.val s.ns }
  if sampBusy then s else s.sendHist c

end Sys2Proof.Machine
end

