-- ==== Sys2Proof/Machine/XingOps.lean ====
section
/-! DEFINITION. Clock crossings (R115 to R119, R132): pointers, the copies that pass through synchronisers in Gray code, the two views,
and a core cycle of every crossing. What an entry carries takes effect with its command (log 100); the pointers show its passage. -/

namespace Sys2Proof.Machine

/-- Gray code of a pointer (R116), and back. -/
def gray (b : Nat) : Nat := b ^^^ (b / 2)
def ungray (g : Nat) : Nat := (List.range 8).foldl (fun b k => b ^^^ (g / 2 ^ k)) 0

/-- A crossing of Table 4-1: depth, synchroniser stages, the die on each side, and whose clock each side runs on. -/
inductive XClock where
  | core | port | hclk | rind
  deriving DecidableEq, Repr
structure XKind where
  depth : Nat
  stages : Nat
  wDie : Nat
  rDie : Nat
  wClock : XClock
  rClock : XClock
  deriving DecidableEq, Repr
/-- The crossing of a key. -/
def xKind (a : Nat) : XKind :=
  if a < 16 then
    if a % 2 = 0 then ⟨4, 2, a / 2, a / 2, .core, .rind⟩ else ⟨4, 3, a / 2, a / 2, .rind, .core⟩
  else if a < 0x10000000 then
    let d := a / 0x100000 % 16
    let o := a % 0x100000
    if o < 0x40000 then ⟨64, 3, facing d (o / 0x1000 % 16), d, .core, .core⟩
    else if a % 16 = 0 then ⟨64, 2, d, d, .core, .hclk⟩ else ⟨64, 3, d, d, .hclk, .core⟩
  else
    let d := a / 0x100000 % 128 / 16
    if a % 16 = 0 then ⟨32, 3, d, d, .port, .core⟩ else ⟨32, 2, d, d, .core, .port⟩

/-- The copy of the other side's pointer, at the last of S stages (R117). -/
def XPtr.wsync (x : XPtr) (stages : Nat) : Nat := ungray (x.wq.getD (stages - 1) 0)
def XPtr.rsync (x : XPtr) (stages : Nat) : Nat := ungray (x.rq.getD (stages - 1) 0)
/-- WR_VIEW: entries the write side sees, modulo 2D (R132). -/
def XPtr.wrView (x : XPtr) (k : XKind) : Nat := (x.wptr + 2 * k.depth - x.rsync k.stages) % (2 * k.depth)
/-- RD_VIEW: entries the read side sees. -/
def XPtr.rdView (x : XPtr) (k : XKind) : Nat := (x.wsync k.stages + 2 * k.depth - x.rptr) % (2 * k.depth)
/-- Credit the write side returns upstream (R118). -/
def XPtr.credit (x : XPtr) (k : XKind) : Nat := k.depth - x.wrView k
/-- Full, as the write side computes it (R117). -/
def XPtr.full (x : XPtr) (k : XKind) : Bool := x.wrView k == k.depth
/-- Empty, as the read side computes it. -/
def XPtr.empty (x : XPtr) (k : XKind) : Bool := x.wsync k.stages == x.rptr
/-- One cycle: a side whose clock runs (`w`, `r`) moves at most one entry, and samples the other side's pointer (R116, R117). A side
whose clock stands changes nothing (R119). -/
def XPtr.cycle (x : XPtr) (k : XKind) (w r : Bool) : XPtr :=
  let put := w && decide (0 < x.todo) && !x.full k
  { wptr := if put then (x.wptr + 1) % (2 * k.depth) else x.wptr
    rptr := if r && !x.empty k then (x.rptr + 1) % (2 * k.depth) else x.rptr
    wq := if r then (gray x.wptr :: x.wq).take k.stages else x.wq
    rq := if w then (gray x.rptr :: x.rq).take k.stages else x.rq
    todo := if put then x.todo - 1 else x.todo }

/-- Lowest bit and width of HWM and DEPTH_LOG2 of a SPILL_XING register (Table 4-13). -/
def xingHwm (a : Nat) : Fld := ⟨a, 32, 16⟩
def xingDepth (a : Nat) : Fld := ⟨a, 48, 4⟩
/-- Entries reach the write side of the crossing whose key is a. -/
def State.xingPass (s : State) (a n : Nat) : State :=
  if n = 0 then s else { s with spill.xing := mmod {} s.spill.xing a (fun (x : XPtr) => { x with todo := x.todo + n }) }
/-- The write side has credit for one more entry (R118). -/
def State.xingRoom (s : State) (a : Nat) : Bool := decide ((mgetD {} s.spill.xing a).todo < (mgetD {} s.spill.xing a).credit (xKind a))
/-- A clock of die d has an edge in this core cycle: the port clock at most 1.0 GHz, HCLK 2.0 GHz, Rind 25 MHz (Table 4-1; DESIGN CHOICE
of the phases, log 109). The port clock of crossing a runs while its link has lanes. Core and controller clocks stand with the die's PLL or the stack. -/
def State.xEdge (s : State) (a d : Nat) (c : XClock) : Bool :=
  match c with
  | .core => s.pllOn d && !s.dieOff d
  | .port => s.cyc % 3 == 0 && s.rd (F.LANE_PORT_STATUS_WIDTH (s.anchorOf (Cell.of (a / 0x100000 % 128)))) != 0
  | .hclk => s.cyc % 3 != 0 && s.pllOn d && hbmDie d && !s.stackOff (dieStack d)
  | .rind => s.wall % 120 == 0
/-- Every crossing over one core cycle; HWM follows WR_VIEW. -/
def State.xingSync (s : State) : State :=
  s.spill.xing.foldl (fun (s : State) (e : Nat × XPtr) =>
    let k := xKind e.1
    let x := e.2.cycle k (s.xEdge e.1 k.wDie k.wClock) (s.xEdge e.1 k.rDie k.rClock)
    let s := { s with spill.xing := mset {} s.spill.xing e.1 x }
    if e.1 < 16 then s else s.raise (xingHwm e.1) (x.wrView k)) s
/-- A fence absorbs what crossings hold, and they are reset (R119). -/
def State.xingReset (s : State) (gone : Nat → Bool) : State := { s with spill.xing := mkeep (fun a _ => !gone a) s.spill.xing }
/-- A crossing with a side on die d. -/
def xingOfDie (d a : Nat) : Bool := (xKind a).wDie == d || (xKind a).rDie == d
/-- A crossing of the HBM controller of die d. -/
def xingOfHbm (d a : Nat) : Bool := 16 ≤ a && a < 0x10000000 && a / 0x100000 % 16 == d && 0x40000 ≤ a % 0x100000
/-- A crossing of the port of cell c. -/
def xingOfCell (c : Cell) (a : Nat) : Bool := 0x10000000 ≤ a && a / 0x100000 % 128 == c.val
/-- Entries in a cell's port crossings, while its port's clock runs. -/
def State.xingHolds (s : State) (c : Cell) : Bool :=
  [0, 1].any (fun n =>
    let a := F.SPILL_XING_CELL_at c n
    let x := mgetD {} s.spill.xing a
    s.rd (F.LANE_PORT_STATUS_WIDTH (s.anchorOf c)) != 0 && (x.todo != 0 || x.wrView (xKind a) != 0))
/-- The word of a crossing's register with its live views. -/
def State.xingWord (s : State) (a : Nat) (w : Word) : Word :=
  match mget s.spill.xing a with
  | some x => putBits (putBits w 16 16 (x.wrView (xKind a))) 0 16 (x.rdView (xKind a))
  | none => w
/-- A register of the Rind domain is accessed: through the Rind access crossing of the active service processor's die, and back through
its Rind return crossing (R115). -/
def State.rindAccess (s : State) (a : Nat) : State :=
  match s.activeSp with
  | some d => if 0x100000 ≤ a ∧ a < 0x200000 then (s.xingPass (d.val * 2) 1).xingPass (d.val * 2 + 1) 1 else s
  | none => s
/-- Address of a crossing's register. -/
def xingAddr : Xing → Nat
  | .port c n => F.SPILL_XING_CELL_at c n
  | .lath d e j => F.SPILL_XING_EDGE_at d e j
  | .hbm d n => F.SPILL_XING_HBM_at d n

end Sys2Proof.Machine
end

