-- ==== Sys2Proof/Machine/SpillOps.lean ====
section
/-! DEFINITION. The output buffer's accounting (R91 to R94) and the spill queues of spec/04: chunks, tails, heads and the
error outcomes of Table 4-4. -/

namespace Sys2Proof.Machine

/-! ### Buffer accounting (R91, R92) -/

def acctKey (c : Cell) (o tc : Nat) : Nat := (c.val * 10 + o) * 8 + tc
def voqKey (c : Cell) (i o tc : Nat) : Nat := ((c.val * 10 + i) * 10 + o) * 8 + tc
/-- RES(o, tc) in granules (Table 3-13). -/
def State.resOf (s : State) (c : Cell) (o tc : Nat) : Nat :=
  8 * ((s.reg (F.XBAR_RES_at c o)).toNat / 2 ^ (8 * tc) % 256)
/-- ALPHA(tc): values above 8 act as 8. -/
def State.alphaOf (s : State) (c : Cell) (tc : Nat) : Nat := min 8 (s.rd (F.XBAR_ALPHA_ALPHA c) / 2 ^ (4 * tc) % 16)
/-- HEADROOM: values below 129 act as 129. -/
def State.headroom (s : State) (c : Cell) : Nat := max 129 (s.rd (F.XBAR_ALPHA_HEADROOM c))
/-- Shared granules a frame of g granules needs on an account. -/
def State.needShared (s : State) (c : Cell) (o tc g : Nat) : Nat :=
  g - (s.resOf c o tc - mgetD 0 s.xbar.resUsed (acctKey c o tc))
/-- The admission test (R92, R94): shared_used + x ≤ α × F, in sixteenths. -/
def State.admits (s : State) (c : Cell) (o tc g : Nat) : Bool :=
  let k := acctKey c o tc
  let x := s.needShared c o tc g
  if mgetD 0 s.xbar.resUsed k > s.resOf c o tc then false
  else x = 0 || (mgetD 0 s.xbar.shared k + x) * 16 ≤ 2 ^ s.alphaOf c tc * s.rd (F.XBAR_BUF_SHARED_FREE c)
/-- Charges g granules to an account; `lent`: the shared part comes from headroom (R95). -/
def State.chargeGran (s : State) (c : Cell) (o tc g : Nat) (lent : Bool) : State :=
  let k := acctKey c o tc
  let x := s.needShared c o tc g
  let s := { s with
    xbar.resUsed := mmod 0 s.xbar.resUsed k (· + (g - x)), xbar.shared := mmod 0 s.xbar.shared k (· + x) }
  let s := s.inc (F.XBAR_BUF_USED c) g
  if lent then s.dec (F.XBAR_BUF_HEAD_FREE c) x else s.dec (F.XBAR_BUF_SHARED_FREE c) x
/-- Granules that no frame holds and no free reserve keeps. -/
def State.unkept (s : State) (c : Cell) : Nat :=
  16384 - s.rd (F.XBAR_BUF_USED c)
    - (List.range 80).foldl (fun n k => n + (s.resOf c (k / 8) (k % 8) - mgetD 0 s.xbar.resUsed (c.val * 80 + k))) 0
/-- F is what the reserves, the headroom and the frames leave of the 16,384 granules (R91). -/
def State.showShared (s : State) (c : Cell) : State := s.wr (F.XBAR_BUF_SHARED_FREE c) (s.unkept c - s.rd (F.XBAR_BUF_HEAD_FREE c))
/-- Frees g granules of an account: its shared charge first (R91); `refill`: the shared part refills headroom first
(R95). -/
def State.freeGran (s : State) (c : Cell) (o tc g : Nat) (refill : Bool) : State :=
  let k := acctKey c o tc
  let sh := min g (mgetD 0 s.xbar.shared k)
  let s := { s with
    xbar.shared := mmod 0 s.xbar.shared k (· - sh), xbar.resUsed := mmod 0 s.xbar.resUsed k (· - (g - sh)) }
  let s := s.dec (F.XBAR_BUF_USED c) g
  let h := if refill then min sh (s.headroom c - s.rd (F.XBAR_BUF_HEAD_FREE c)) else 0
  (s.inc (F.XBAR_BUF_HEAD_FREE c) h).showShared c
/-- RES or HEADROOM has changed, HEADROOM from `was` (R94, R113): the free reserve and the free headroom follow, and what is lent comes
back first. -/
def State.resize (s : State) (c : Cell) (was : Nat) : State :=
  let lent := was - s.rd (F.XBAR_BUF_HEAD_FREE c)
  (s.wr (F.XBAR_BUF_HEAD_FREE c) (min (s.headroom c - lent) (s.unkept c))).showShared c
/-- The pools of a cell with nothing buffered (R91). -/
def State.bufFresh (s : State) (c : Cell) : State :=
  ((s.wr (F.XBAR_BUF_USED c) 0).wr (F.XBAR_BUF_HEAD_FREE c) (s.headroom c)).showShared c

/-! ### Chunks (R100, R101, R122, R127) -/

/-- Stack that serves a cell's spill: its own, or the mirror partner's after a failover (R100, R102). -/
def State.spillStack (s : State) (c : Cell) : Nat := s.rd (F.XBAR_STATUS_STACK c)
/-- SPILL_MIN in chunks. -/
def State.spillMin (s : State) (c : Cell) : Nat := s.rd (F.XBAR_SPILL_SHARE_SPILL_MIN c) * 256
/-- A chunk of the minimum is free. -/
def State.minFree (s : State) (c : Cell) : Bool :=
  s.rd (F.XBAR_SPILL_USE_TOTAL_CHUNKS c) - s.rd (F.XBAR_SPILL_USE_SHARED_CHUNKS c) < s.spillMin c
/-- R101: another chunk is permitted. -/
def State.chunkOk (s : State) (c : Cell) : Bool :=
  let d := stackDie (s.spillStack c)
  s.minFree c || (s.rd (F.XBAR_SPILL_USE_SHARED_CHUNKS c) + 1) * 16
    ≤ 2 ^ min 8 (s.rd (F.XBAR_SPILL_SHARE_SALPHA c)) * s.rd (F.SPILL_STACK_STATUS_SHARED_FREE d)
/-- Chunks of stack k that cell c holds. -/
def State.chunksOf (s : State) (k : Nat) (c : Cell) : Nat :=
  (s.spill.granted.filter (fun (e : Nat × Nat) => e.1 / 2 ^ 21 == k && e.2 == c.val)).length
/-- F_s is what the minimums of the cells a stack serves, and the chunks held beyond them, leave of its 6 GiB (R100, R102). -/
def State.showPool (s : State) (k : Nat) : State :=
  let used := (List.finRange 128).foldl (fun n (c : Cell) =>
    n + max (if s.spillStack c = k then s.spillMin c else 0) (s.chunksOf k c)) 0
  (s.wr (F.SPILL_STACK_STATUS_SHARED_FREE (stackDie k)) (1572864 - used)).wr (F.SPILL_STACK_STATUS_FREE_TOTAL (stackDie k))
    (1572864 - (s.spill.granted.filter (fun (e : Nat × Nat) => e.1 / 2 ^ 21 == k)).length)
/-- The chunks a cell holds: those beyond its minimum are shared ones. -/
def State.showUse (s : State) (c : Cell) : State :=
  let n := (s.spill.granted.filter (fun (e : Nat × Nat) => e.2 == c.val)).length
  (s.wr (F.XBAR_SPILL_USE_TOTAL_CHUNKS c) n).wr (F.XBAR_SPILL_USE_SHARED_CHUNKS c) (n - s.spillMin c)
/-- The shares follow a grant to cell c of stack k, or a return. -/
def State.showShare (s : State) (c : Cell) (k : Nat) : State := (s.showUse c).showPool k
/-- A chunk goes back to the controller. -/
def State.freeChunk (s : State) (c : Cell) (k n : Nat) : State :=
  { s with spill.granted := mdel s.spill.granted (k * 2 ^ 21 + n), spill.link := mdel s.spill.link (k * 2 ^ 21 + n) }.showShare c k
/-- The spare pool of a cell. -/
def State.spare (s : State) (c : Cell) : List Nat := mgetD [] s.spill.spare c.val
def State.setSpare (s : State) (c : Cell) (l : List Nat) : State :=
  { s with spill.spare := mset [] s.spill.spare c.val l }.wr (F.SPILL_STATUS_SPARE c) l.length

/-! ### The tail (R121 to R125) -/

def State.sctx (s : State) (c : Cell) (n : Nat) : Option SpillCtx := mget s.spill.ctx (c.val * 64 + n)
def State.setSctx (s : State) (c : Cell) (n : Nat) (x : SpillCtx) : State :=
  { s with spill.ctx := mput s.spill.ctx (c.val * 64 + n) x }
/-- The context of a SPILLED VOQ. -/
def State.ctxOf (s : State) (c : Cell) (i o tc : Nat) : Option (Nat × SpillCtx) :=
  (s.spill.ctx.find? (fun e => e.1 / 64 == c.val && e.2.inp == i && e.2.out == o && e.2.tc == tc)).map
    (fun e => (e.1 % 64, e.2))
/-- The free spill context with the lowest number: which one opens, the spec leaves open (DESIGN CHOICE, log 113). -/
def State.freeCtxNum (s : State) (c : Cell) : Option Nat := (List.range 64).find? (fun n => (s.sctx c n).isNone)
/-- Data units of a frame in the buffer now: those it had, and those that have arrived since at its input's rate. -/
def State.unitsIn (s : State) (c : Cell) (i : Nat) (f : Frame) : Nat :=
  min f.p.len.val (f.got + (s.cyc - f.cyc) * s.endRate c i / (240 * 64))
/-- The tail writes n words from word w on. Words 0 to 62 of a chunk carry frames, and at word 63 the tail must take its next chunk
(R120 to R122): it does so for its next word, so that a frame that ends at word 62 leaves the tail at 63 (DESIGN CHOICE, log 110).
A frame of LEN 64 that starts at word 62 covers three chunks, although R121 says at most two (DESIGN CHOICE, log 111). The chunks
that it takes from `pool`, the last word, and the words left without one. -/
def tailWords (w n : Nat) : List Nat → List Nat × Nat × Nat
  | [] => ([], min 63 (w + n), n - (63 - w))
  | ch :: pool =>
    if w + n ≤ 63 then ([], w + n, 0)
    else
      let r := tailWords 0 (n - (63 - w)) pool
      (ch :: r.1, r.2.1, r.2.2)
/-- The link words of chunks that the tail leaves for the next ones (Table 4-2). -/
def linkWords (c : Cell) (n stack cseq : Nat) : List Nat → NMap LinkWord → NMap LinkWord
  | a :: b :: t, m =>
    linkWords c n stack (cseq + 1) (b :: t) (mput m (stack * 2 ^ 21 + a) ⟨cseq % 65536, n, c.val, stack, b⟩)
  | _, m => m
/-- The tail writes the words of the newest frame of context n that are left, taking chunks from the spare pool, oldest grant first
(R122), and no unit of it before that has arrived (R123). -/
def State.writeRest (s : State) (c : Cell) (n : Nat) : State :=
  match s.sctx c n with
  | none => s
  | some x => match x.frames.getLast? with
    | none => s
    | some w =>
      if w.left = 0 then s
      else
        let n' := min w.left (s.unitsIn c x.inp w.f + w.left - w.f.p.len.val)
        let (new, word, rest) := tailWords x.tailWord n' (s.spare c)
        let left := w.left - (n' - rest)
        let chunk := (new.getLast?).getD x.tailChunk
        let first : Nat × Nat := if w.left = w.f.p.len.val + 1 then (if x.tailWord = 63 then (new.headD 0, 0) else (x.tailChunk, x.tailWord))
          else (w.chunk, w.word)
        let w := { w with left := left, chunk := first.1, word := first.2, endChunk := chunk, endWord := word }
        let s := { s with spill.link := linkWords c n x.stack (x.cseq + x.chunks.length - 1) (x.tailChunk :: new) s.spill.link }
        (s.setSpare c ((s.spare c).drop new.length)).setSctx c n { x with
          frames := x.frames.dropLast ++ [w], chunks := x.chunks ++ new, tailChunk := chunk, tailWord := word }
/-- The tail of context n writes frame f (R122, R123): word 0 with its length slot zero, and its data units as they arrive; ENQ_NS is taken
now. A frame that finds no room for word 0, or an older one that waits, waits at output WHEY. The tail finds the granules that are
uncorrectable in the buffer (Table 4-4). -/
def State.writeFrame (s : State) (c : Cell) (n : Nat) (f : Frame) : State :=
  match s.sctx c n with
  | none => s
  | some x =>
    let held := !x.wait.isEmpty || x.frames.any (fun w => w.left != 0) || (x.tailWord = 63 && (s.spare c).isEmpty)
    if held then s.setSctx c n { x with wait := x.wait ++ [f] }
    else
      let s := s.sat (F.SPILL_ERR_TAIL_UNCORR c) ((List.range f.p.granules).filter (fun j => f.bad.getLsbD j)).length
      if f.bad.getLsbD 0 then
        -- the frame is not written: internal work, absorbed (R69)
        (s.freeGran c x.out x.tc f.p.granules false).lose [f.p]
      else
        let units := (List.range f.p.len.val).filter (fun j => f.bad.getLsbD (1 + 2 * j) || f.bad.getLsbD (2 + 2 * j))
        let pm : Word := units.foldl (fun m j => m ||| 1#64 <<< j) f.p.pois
        let w : WFrame :=
          { f := f, fseq := x.fseqWr, enqNs := s.ns % 2 ^ 32, pmap := pm, streamed := s.unitsIn c x.inp f < f.p.len.val, acked := false,
            charge := f.p.granules, left := f.p.len.val + 1, chunk := 0, word := 0, endChunk := 0, endWord := 0 }
        (s.setSctx c n { x with frames := x.frames ++ [w], fseqWr := (x.fseqWr + 1) % 65536 }).writeRest c n
/-- Frames that wait for a chunk go on, the lowest context first while chunks last (DESIGN CHOICE, log 112). -/
def State.writeWaiting (s : State) (c : Cell) : State :=
  (List.range 64).foldl (fun s n =>
    let s := s.writeRest c n
    match s.sctx c n with
    | some x => match x.wait with
      | f :: rest =>
        if x.frames.any (fun w => w.left != 0) || (x.tailWord = 63 && (s.spare c).isEmpty) then s
        else
          let s := (s.setSctx c n { x with wait := [] }).writeFrame c n f
          rest.foldl (fun (s : State) g => s.writeFrame c n g) s
      | [] => s
    | none => s) s
/-- What the controller reports with a grant about the frame that waits for it in the lowest context stands with the frame. -/
def State.markWaiting (s : State) (c : Cell) (bad : BitVec 129) : State :=
  match (List.range 64).find? (fun n => ((s.sctx c n).map (fun x => !x.wait.isEmpty)).getD false) with
  | some n => match s.sctx c n with
    | some x => s.setSctx c n { x with wait := match x.wait with
        | f :: rest => { f with bad := f.bad ||| bad } :: rest
        | [] => [] }
    | none => s
  | none => s
/-- A frame of the context waits for a chunk (R122): word 0 of its oldest that waits, or the rest of one past word 62. -/
def State.chunkWaits (s : State) (c : Cell) (x : SpillCtx) : Bool :=
  x.tailWord = 63 && (s.spare c).isEmpty && (!x.wait.isEmpty || x.frames.any (fun w => decide (0 < w.left) && decide (w.f.p.len.val < s.unitsIn c x.inp w.f + w.left)))
/-- The length slot of a frame is written: its last word is, and its last unit has arrived (R123). -/
def State.slotWritten (s : State) (c : Cell) (x : SpillCtx) (w : WFrame) : Bool :=
  w.left == 0 && s.unitsIn c x.inp w.f == w.f.p.len.val

/-! ### What stands in Whey (R120, R121, Tables 4-2 and 4-3) -/

/-- Offset of a word of chunk n in its stack. -/
def wheyAddr (n word : Nat) : Nat := 0x400000000 + n * 0x1000 + word * 64
/-- The link word of a chunk. -/
def LinkWord.bits (l : LinkWord) : Nat :=
  let x := l.next + l.stack * 2 ^ 21 + l.cell * 2 ^ 32 + l.ctx * 2 ^ 39 + l.cseq * 2 ^ 48
  x + crc16 496 x * 2 ^ 496
/-- The length slot of a frame. -/
def WFrame.lengthSlot (w : WFrame) : Nat :=
  let x := w.f.p.granules + w.streamed.toNat * 2 ^ 13 + w.f.p.stomp.toNat * 2 ^ 14 + 2 ^ 15 + w.fseq * 2 ^ 128 + w.enqNs * 2 ^ 144
    + w.pmap.toNat * 2 ^ 176
  x + crc16 240 x * 2 ^ 240
/-- Frame word j: the length slot and the header unit, or data unit j − 1; `slot`: the length slot is written. -/
def WFrame.word64 (w : WFrame) (slot : Bool) (j : Nat) : BitVec 512 :=
  if j = 0 then BitVec.ofNat 512 ((if slot then w.lengthSlot else 0) + w.f.p.header * 2 ^ 256) else w.f.p.data.getD (j - 1) 0
/-- Even parity, one bit for each 8 B of a Whey word (R129). -/
def wheyParity (x : BitVec 512) : BitVec 8 :=
  BitVec.ofNat 8 ((List.range 8).foldl (fun n k =>
    n + (((List.range 64).filter (fun b => x.getLsbD (64 * k + b))).length % 2) * 2 ^ k) 0)
/-- The word of a chunk of stack k that a context has written, and its parity. -/
def State.wheyAt (s : State) (k n word : Nat) : Option (BitVec 512 × BitVec 8) :=
  let r : Option (BitVec 512) :=
    if word = 63 then (mget s.spill.link (k * 2 ^ 21 + n)).map (fun l => BitVec.ofNat 512 l.bits)
    else s.spill.ctx.findSome? (fun e =>
      let x := e.2
      let pos (ch w : Nat) : Nat := 63 * x.chunks.idxOf ch + w
      if x.stack = k ∧ x.chunks.contains n then
        x.frames.findSome? (fun w =>
          let j := pos n word - pos w.chunk w.word
          if pos w.chunk w.word ≤ pos n word ∧ j + w.left ≤ w.f.p.len.val then
            some (w.word64 (s.slotWritten (Cell.of (e.1 / 64)) x w) j) else none)
      else none)
  r.map (fun x => (x, wheyParity x))

/-- Opens a context for a VOQ: it takes a chunk from the spare pool (R122, R128). -/
def State.openCtx (s : State) (c : Cell) (n i o tc : Nat) : State :=
  match s.spare c with
  | [] => s
  | ch :: rest =>
    let s := s.setSpare c rest
    let s := s.inc (F.XBAR_STATUS_SPILL_CTX c)
    s.setSctx c n { inp := i, out := o, tc := tc, stack := s.spillStack c, chunks := [ch], headChunk := ch, tailChunk := ch }
/-- The stack on which the cell's die spills (R100). -/
def homeStack (c : Cell) : Nat := let d := dieOf c; if d < 2 then 0 else if d < 4 then 1 else if d < 6 then 2 else 3
/-- The cell spills to stack k from now on: the chunks it holds ready on another go back. -/
def State.spillTo (s : State) (c : Cell) (k : Nat) : State :=
  let s := if s.spillStack c = k then s else ((s.spare c).foldl (fun s n => s.freeChunk c (s.spillStack c) n) s).setSpare c []
  (s.wr (F.XBAR_STATUS_STACK c) k).wr (F.XBAR_STATUS_WHEY_OK c) 1
/-- A cell that has no context open on its partner's stack spills to its own again, once that is back: a context's chunks lie in one stack
(R120; DESIGN CHOICE, log 134). -/
def State.spillHome (s : State) (c : Cell) : State :=
  let k := homeStack c
  if s.spillStack c = k ∨ s.rd (F.SPILL_STACK_STATUS_STATE (stackDie k)) = 2 ∨ s.spill.ctx.any (fun e => e.1 / 64 == c.val) then s else s.spillTo c k
/-- Closes a context: chunks it still holds go back, the tail's own to the spare pool while that holds fewer than 4
(R128), and the VOQ is NORMAL again. -/
def State.closeCtx (s : State) (c : Cell) (n : Nat) (toSpare : Bool) : State :=
  match s.sctx c n with
  | none => s
  | some x =>
    let s := { s with
      spill.ctx := mdel s.spill.ctx (c.val * 64 + n)
      scrim.flight := s.scrim.flight.filter (fun f => !(f.p.opc == Opc.bulk && f.p.src == c && f.p.tagSlot.val == 0x3FE && f.p.htid.val == n)) }.dec
        (F.XBAR_STATUS_SPILL_CTX c)
    let s := if x.fetch then s.dec (F.SPILL_STATUS_FETCH_OUT c) else s
    let keep := toSpare && (s.spare c).length < 4
    let s := x.chunks.foldl (fun s ch =>
      if keep && ch == x.tailChunk then s else s.freeChunk c x.stack ch) s
    (if keep then s.setSpare c (s.spare c ++ [x.tailChunk]) else s).spillHome c
/-- The committed frames of a context: the leading ones whose length slot is acknowledged (R124). -/
def SpillCtx.committed (x : SpillCtx) : List WFrame := x.frames.takeWhile (·.acked)
/-- A VC5 read that the head sends for context n (R126). -/
def readPkt (c : Cell) (n : Nat) (x : SpillCtx) (chunk word : Nat) : Pkt :=
  { opc := .bulk, src := c, dst := ctrlCell (stackDie x.stack), tagSlot := 0x3FE, tc := 0, htid := Fin.ofNat 1024 n,
    addr := BitVec.ofNat 52 (wheyAddr chunk word) }
/-- The head reads word 0 of the oldest committed frame into its empty head register, through the controller's crossings (R126). -/
def State.readHead (s : State) (c : Cell) (n : Nat) : State :=
  match s.sctx c n with
  | none => s
  | some x => match SpillCtx.committed x with
    | w :: _ =>
      if x.headReg then s
      else
        let d := stackDie x.stack
        (((s.setSctx c n { x with headReg := true }).xingPass (F.SPILL_XING_HBM_at d 0) 1).xingPass (F.SPILL_XING_HBM_at d 1) 1).send
          (readPkt c n x w.chunk w.word)
    | [] => s
/-- The head leaves frame w: chunks wholly behind it go back once the committed pointer lies later (R127). -/
def State.leaveFrame (s : State) (c : Cell) (n : Nat) (x : SpillCtx) (w : WFrame) : State :=
  let rest := x.frames.drop 1
  let lastCommit := match (SpillCtx.committed { x with frames := rest }).getLast? with
    | some v => v.endChunk
    | none => w.endChunk
  let gone := x.chunks.takeWhile (fun ch => ch != w.endChunk && ch != lastCommit)
  let x := { x with
    frames := rest, fseqRd := (x.fseqRd + 1) % 65536, headChunk := w.endChunk, headWord := w.endWord,
    chunks := x.chunks.drop gone.length, cseq := (x.cseq + gone.length) % 65536, fetch := false, headReg := false }
  let s := gone.foldl (fun s ch => s.freeChunk c x.stack ch) s
  let s := (s.setSctx c n x).dec (F.SPILL_STATUS_FETCH_OUT c)
  if rest = [] ∧ x.wait = [] then s.closeCtx c n true else s.readHead c n

end Sys2Proof.Machine
end

