-- ==== Sys2Proof/Machine/XbarOps.lean ====
section
/-! DEFINITION. The switch core (spec/03): arrivals, skims, the matching round, a frame's start with its gate, shaper,
sampling and mirroring, and tracker slots. -/

namespace Sys2Proof.Machine

/-! ### Tracker slots (R79, R81, R83) -/

def State.slot (s : State) (c : Cell) (k : Slot) : Option TSlot := mget s.xbar.slots (c.val * 1024 + k.val)
def State.setSlot (s : State) (c : Cell) (k : Slot) (t : TSlot) : State :=
  { s with xbar.slots := mput s.xbar.slots (c.val * 1024 + k.val) t }
/-- Free tracker slots of a cell, 768 in all. -/
def State.freeSlots (s : State) (c : Cell) : Nat := 768 - s.rd (F.XBAR_TRACK_IN_USE c)
/-- The traffic that names no instance: CXL.io and pass-through traffic, management, bulk transfers, directory accesses, chain control, and
what crosses the module. -/
def Pkt.nameless (p : Pkt) : Bool :=
  match p.opc with
  | .cxlio | .pass _ _ | .mgt | .bulk | .dirrd | .dirwr | .dirdata | .dirack | .onlabs | .probe | .probersp | .routeadv | .keyx | .xfer _ => true
  | _ => false
/-- The instance that a packet names, if it names one (R107, R474). -/
def Pkt.named (p : Pkt) : Option Nat := if Pkt.nameless p then none else some p.inst.val
/-- IO_RES: values above 767 act as 767. -/
def State.ioRes (s : State) (c : Cell) : Nat := min 767 (s.rd (F.XBAR_TRACK_CFG_IO_RES c))
/-- The lowest free tracker slot. -/
def State.firstSlot (s : State) (c : Cell) : Option Slot :=
  ((List.range 768).find? (fun k => (mget s.xbar.slots (c.val * 1024 + k)).isNone)).map (Fin.ofNat 1024)
/-- Takes a tracker slot: its record, IN_USE and HWM (Table 3-10). -/
def State.takeSlot (s : State) (c : Cell) (k : Slot) (t : TSlot) : State :=
  let s := (s.setSlot c k t).inc (F.XBAR_TRACK_IN_USE c)
  (s.raise (F.XBAR_TRACK_HWM c) (s.rd (F.XBAR_TRACK_IN_USE c))).ctrEvent c 0x02 [t.hdr.tc.val] 1 true (Pkt.named t.hdr)
/-- Frees granules that a write frame kept at its originating cell (R91). -/
def State.freeKept (s : State) (c : Cell) (k : Slot) : State :=
  match mget s.xbar.kept (c.val * 1024 + k.val) with
  | some (o, tc, g) => { s with xbar.kept := mdel s.xbar.kept (c.val * 1024 + k.val) }.freeGran c o tc g false
  | none => s
/-- The re-issue step ends once every request re-issued for the fault has completed (R364, Table 12-2). -/
def State.endReissue (s : State) : State :=
  if s.rd F.PKG_FAULT_STATUS_STEP = 4 ∧ s.log.reissued = [] then s.logStep 4 else s
/-- A request is complete, or ended, at its originating cell. -/
def State.reissueDone (s : State) (c : Cell) (k : Slot) : State :=
  if s.log.reissued.contains (c.val * 1024 + k.val) then
    { s with log.reissued := s.log.reissued.filter (· != c.val * 1024 + k.val) }.endReissue
  else s
/-- Frees a tracker slot. -/
def State.freeSlot (s : State) (c : Cell) (k : Slot) : State :=
  match s.slot c k with
  | none => s
  | some _ =>
    let s := { s with
      xbar.slots := mdel s.xbar.slots (c.val * 1024 + k.val), scrim.timing := mdel s.scrim.timing (c.val * 1024 + k.val)
      scrim.timed := s.scrim.timed.filter (· != c.val * 1024 + k.val) }
    ((s.freeKept c k).dec (F.XBAR_TRACK_IN_USE c)).reissueDone c k

/-! ### VOQs and skims (R84, R95, R96) -/

def State.voqAt (s : State) (c : Cell) (i o tc : Nat) : List Frame := mgetD [] s.xbar.voq (voqKey c i o tc)
def State.setVoq (s : State) (c : Cell) (i o tc : Nat) (l : List Frame) : State :=
  { s with xbar.voq := mset [] s.xbar.voq (voqKey c i o tc) l }
/-- Frames at the tail of a VOQ that may be skimmed: none older than one that is still arriving (R96), nor one that Whey
returned (R97). -/
def State.skimTail (s : State) (c : Cell) (i : Nat) (l : List Frame) : List Frame :=
  (l.reverse.takeWhile (fun f => s.unitsIn c i f = f.p.len.val && !f.whey)).reverse
/-- A KEYLOAD or ZEROIZE packet (R283): the spec gives their management packets no mark of their own, so any management packet for a MEMORY cell
is taken as one while a KEYLOAD or a ZEROIZE note is on its way to that cell (DESIGN CHOICE, log 149). -/
def State.keyPacket (s : State) (p : Pkt) : Bool :=
  p.opc == .mgt && (s.sec.loads.any (fun (x : Nat × Nat × BitVec 576) => x.1 == p.dst.val)
    || s.sec.slots.any (fun (e : Nat × KeyRec) => e.2.st == 4 && e.2.awAck.contains p.dst.val))
/-- The fewest frames at the tail, at most 16, that hold at least x granules. -/
def victimFrames (l : List Frame) (x : Nat) : Option (List Frame) :=
  ((List.range 16).find? (fun n => n < l.length
    && x ≤ (l.drop (l.length - (n + 1))).foldl (fun g f => g + f.p.granules) 0)).map (fun n => l.drop (l.length - (n + 1)))
/-- Puts a list in order by a key, largest first, keeping the order of equals. -/
def byLargest {α : Type} (key : α → Nat) (l : List α) : List α :=
  l.foldl (fun acc a => acc.takeWhile (fun b => key b ≥ key a) ++ a :: acc.dropWhile (fun b => key b ≥ key a)) []
/-- The victim of a skim for an arrival of class tc that needs x shared granules: (input, output, class, frames), chosen
in the order of R96. -/
def State.victim (s : State) (c : Cell) (tc x : Nat) : Option (Nat × Nat × Nat × List Frame) :=
  let vic := s.rd (F.XBAR_SKIM_SKIM_VIC c)
  let accounts := ((List.range tc).filter (fun k => vic.testBit k)).flatMap (fun k =>
    (byLargest (fun o => mgetD 0 s.xbar.shared (acctKey c o k)) (List.range 10)).filterMap (fun o =>
      if mgetD 0 s.xbar.shared (acctKey c o k) ≥ x then some (o, k) else none))
  let queues := accounts.flatMap (fun ok =>
    (byLargest (fun i => (s.voqAt c i ok.1 ok.2).foldl (fun g f => g + f.p.granules) 0)
      ((List.range 10).filter (fun i => (s.ctxOf c i ok.1 ok.2).isNone))).map (fun i => (i, ok.1, ok.2)))
  (queues.findSome? (fun q =>
    (victimFrames (s.skimTail c q.1 (s.voqAt c q.1 q.2.1 q.2.2)) x).bind (fun fs =>
      if fs.any (fun (f : Frame) => s.keyPacket f.p) then none else some (q.1, q.2.1, q.2.2, fs))))
/-- Joins a frame to its VOQ's buffer segment. -/
def State.joinVoq (s : State) (c : Cell) (i o : Nat) (f : Frame) : State :=
  let old := s.voqAt c i o f.p.tc
  let s := if f.p.gen.val != 0 && !f.whey && !old.isEmpty then s.logYield 3 4 (some c) 0xFFFF 0x0108 (s.anchorOf c).val else s
  s.setVoq c i o f.p.tc (old ++ [f])
/-- Merges a skim into the cell's 1 ms record (Table 12-8, cause 0x010E). -/
def State.noteSkim (s : State) (c : Cell) (vic : Nat) : State :=
  let n := match mget s.xbar.skimWin c.val with
    | some (_, n) => min 255 (n + 1)
    | none => 1
  { s with xbar.skimWin := mput s.xbar.skimWin c.val (vic, n) }
/-- A frame goes to Whey through output WHEY, which carries one frame at a time: its granules hold the output after those before it. -/
def State.wheyOut (s : State) (c : Cell) (n : Nat) (f : Frame) : State :=
  { s with xbar.outBusy := mmod 0 s.xbar.outBusy (c.val * 10 + 6) (fun t => max t s.cyc + f.p.granules)
           xbar.outCls := mput s.xbar.outCls (c.val * 10 + 6) f.p.tc.val }.writeFrame c n f
/-- A skim (R95): the arrival is written on headroom, on into Whey for a SPILLED VOQ (R97), and the victim's frames go to Whey in a context of
their own. -/
def State.skim (s : State) (c : Cell) (i o : Nat) (f : Frame) (v : Nat × Nat × Nat × List Frame) (n : Nat) :
    State :=
  let (vi, vo, vt, fs) := v
  let s := { s with xbar.skimAt := mset 0 s.xbar.skimAt c.val (s.cyc + 1) }
  let ctx := s.ctxOf c i o f.p.tc
  let s := s.chargeGran c o f.p.tc f.p.granules true
  let s := if ctx.isSome then s else s.joinVoq c i o f
  let l := s.voqAt c vi vo vt
  let s := s.setVoq c vi vo vt (l.take (l.length - fs.length))
  let s := ((s.openCtx c n vi vo vt).inc (F.XBAR_SKIMS_COUNT c) fs.length).ctrEvent c 0x09 [vt] fs.length
  let s := s.noteSkim c vt
  let s := fs.foldl (fun s w => s.wheyOut c n w) s
  match ctx with
  | some (m, _) => s.wheyOut c m f
  | none => s
/-- R95: a skim may follow, into a free context; one decision per cell per core cycle, for the highest class that waits (R96). -/
def State.maySkim (s : State) (c : Cell) (o tc g : Nat) : Option (Nat × (Nat × Nat × Nat × List Frame)) :=
  let x := s.needShared c o tc g
  let first := mgetD 0 s.xbar.skimAt c.val != s.cyc + 1
    && (List.range 10).all (fun i => (mgetD [] s.xbar.waiting (c.val * 10 + i)).all (fun w => w.2.p.tc.val ≤ tc))
  if first && s.rdb (F.XBAR_SKIM_ENABLE c) && (s.rd (F.XBAR_SKIM_SKIM_SRC c)).testBit tc && x ≤ s.rd (F.XBAR_BUF_HEAD_FREE c)
      && s.chunkOk c && s.rdb (F.XBAR_STATUS_WHEY_OK c) && !(s.spare c).isEmpty then
    match s.freeCtxNum c, s.victim c tc x with
    | some n, some v => some (n, v)
    | _, _ => none
  else none
/-- One admission decision (R92, R95, R97), of which an input takes one in a core cycle: into the buffer and its VOQ, on into Whey for a SPILLED
VOQ, over a skim, or none, which leaves the frame waiting at its input (R93). A frame Whey returned joins the buffer segment itself, and never
triggers a skim. -/
def State.tryAdmit (s : State) (c : Cell) (i o : Nat) (f : Frame) : Option State :=
  let tc := f.p.tc.val
  let g := f.p.granules
  let ctx := s.ctxOf c i o tc
  let now (s : State) : State := { s with xbar.admitAt := mset 0 s.xbar.admitAt (c.val * 10 + i) (s.cyc + 1) }
  -- key material is never written to a spill queue (R283)
  if mgetD 0 s.xbar.admitAt (c.val * 10 + i) = s.cyc + 1 ∨ (ctx.isSome ∧ s.keyPacket f.p) then none
  else if s.admits c o tc g then
    let s := (now s).chargeGran c o tc g false
    match ctx with
    | some (n, _) => if f.whey then some (s.joinVoq c i o f) else some (s.wheyOut c n f)
    | none => some (s.joinVoq c i o f)
  else if f.whey then none
  else match s.maySkim c o tc g with
    | some (n, v) => some ((now s).skim c i o f v n)
    | none => none
/-- A SPILLED VOQ whose stack is fenced absorbs every later arrival until the epoch closes (R99). -/
def State.voqAbsorbs (s : State) (c : Cell) (i o tc : Nat) : Bool :=
  match s.ctxOf c i o tc with
  | some (_, x) => s.stackFenced x.stack
  | none => false
/-- A frame of the queue (i, o, class) waits at its input. -/
def State.queueWaits (s : State) (c : Cell) (i o : Nat) (tc : Tc) (whey : Bool) : Bool :=
  (mgetD [] s.xbar.waiting (c.val * 10 + i)).any (fun w => w.1 == o && w.2.p.tc == tc && (!whey || w.2.whey))
/-- A frame waits at its input (R93): behind the others, but one that Whey returned before every later arrival of its queue (R85). -/
def State.waitAt (s : State) (c : Cell) (i o : Nat) (f : Frame) : State :=
  let later (w : Nat × Frame) : Bool := f.whey && w.1 == o && w.2.p.tc == f.p.tc && !w.2.whey
  { s with xbar.waiting := mmod [] s.xbar.waiting (c.val * 10 + i) (fun l =>
      l.takeWhile (fun w => !later w) ++ (o, f) :: l.dropWhile (fun w => !later w)) }
/-- A frame takes its Scrim lane SCR(v mod 4) as it arrives and as it leaves (R77). Its input is its output, and its output is SAMP, only in the
loopback of SELF_TEST (R84, Table 3-1). -/
def State.endsOk (s : State) (i o : Nat) (p : Pkt) : Bool :=
  let lane (e : Nat) : Bool := e == 0 || decide (4 < e) || e == p.opc.vc % 4 + 1
  lane i && lane o && p.opc.vc ≠ 7 && ((i != o && o != 9) || s.mode == .selfTest)
/-- Responses that name a slot of the originating cell. -/
def Opc.toSlot : Opc → Bool
  | .rdata | .grant | .wgo | .wcmp => true
  | .pass _ v => decide (v.val ≤ 1)
  | _ => false
/-- A response whose tag names a slot of this cell that is free or ended, or has another generation (R82, R83); at an ONORA cell also a chain
slot, which carries GEN 0 and takes MCMP too (R355). -/
def State.lateFrame (s : State) (c : Cell) (p : Pkt) : Bool :=
  (Opc.toSlot p.opc || (p.opc == .mcmp && decide (768 ≤ p.tagSlot.val))) && p.dst == c && p.tagCell == c && (match s.slot c p.tagSlot with
    | some t => t.hdr.gen != p.gen || t.ended.isSome
    | none => p.gen != 0 || (mget s.onl.cslot (c.val * 1024 + p.tagSlot.val)).isNone)
/-- The frame comes out of Scrim to its cell, in the order of its triple (R58). -/
def State.fromScrim (s : State) (c : Cell) (i : Nat) (p : Pkt) : Bool :=
  1 ≤ i && i ≤ 4 && p.dst == c && s.scrim.flight.any (fun f => f.p.same p)
/-- A frame arrives at input i for output o (R92 to R97): one that Scrim is to deliver only after those before it. An older frame of its
queue that still waits goes first. -/
def State.frameArrive (s : State) (c : Cell) (i o : Nat) (f : Frame) : State :=
  let s := if i = 0 then s.ctrEvent c 0x05 [f.p.tc.val] f.p.bytes true (Pkt.named f.p) else s
  if s.fromScrim c i f.p && s.behind f.p then s
  else if s.lateFrame c f.p then (s.take f.p).lateDiscard c
  else
  let s := if s.fromScrim c i f.p then s.deliver f.p else s
  if s.voqAbsorbs c i o f.p.tc then s.lose [f.p]
  else if s.queueWaits c i o f.p.tc false then s.waitAt c i o f
  else match s.tryAdmit c i o f with
    | some s => s
    | none => s.waitAt c i o f
/-- The frame of an input that its next admission decision is about: its oldest one of the highest class. -/
def nextWaiting (l : List (Nat × Frame)) : Option (Nat × Frame) :=
  l.foldl (fun acc w => match acc with
    | some a => if w.2.p.tc.val > a.2.p.tc.val then some w else some a
    | none => some w) none
/-- The frames of input i that may be admitted next: on a Scrim lane one for each virtual channel, so that one that waits holds back no
other channel (R93). -/
def waitHeads (i : Nat) (l : List (Nat × Frame)) : List (Nat × Frame) :=
  if 1 ≤ i ∧ i ≤ 4 then (List.range 8).filterMap (fun v => nextWaiting (l.filter (fun w => w.2.p.opc.vc == v)))
  else (nextWaiting l).toList
/-- One admission per input, in order of class and then of input number (R92). An admitted frame enters its VOQ now. -/
def State.admitWaiting (s : State) (c : Cell) : State :=
  let heads := (List.range 10).flatMap (fun i =>
    (waitHeads i (mgetD [] s.xbar.waiting (c.val * 10 + i))).map (fun w => (i, w)))
  ((byLargest (fun h => h.2.2.p.tc.val) heads).foldl (fun (a : State × List Nat) h =>
    let (i, o, f) := h
    let s := a.1
    if a.2.contains i then a
    else match s.tryAdmit c i o { f with cyc := s.cyc, enq := if f.whey then f.enq else s.ns } with
      | some s => ({ s with xbar.waiting := mmod [] s.xbar.waiting (c.val * 10 + i) (fun l => l.erase (o, f)) }, i :: a.2)
      | none => a) (s, [])).1

/-! ### The matching round (R88, R89) -/

/-- A request of an input to an output, with the highest class among its eligible heads. -/
structure Req where
  inp : Nat
  out : Nat
  tc : Nat
  deriving DecidableEq, Repr
/-- Distance from pointer p to n, counting 0 to 9 cyclically. -/
def fromPtr (p n : Nat) : Nat := (n + 10 - p % 10) % 10
/-- 4-bit pointer j of a pointer register. -/
def ptrAt (w j : Nat) : Nat := w / 2 ^ (4 * j) % 16
def setPtr (w j n : Nat) : Nat := w - ptrAt w j * 2 ^ (4 * j) + n % 16 * 2 ^ (4 * j)
/-- The best request of a list: highest class, then the nearest by a pointer. -/
def bestReq (dist : Req → Nat) (l : List Req) : Option Req :=
  l.foldl (fun acc r => match acc with
    | some a => if r.tc > a.tc ∨ (r.tc = a.tc ∧ dist r < dist a) then some r else some a
    | none => some r) none
/-- One iteration: request, grant, accept over the unmatched. -/
def iteration (rs : List Req) (g a : Nat) (done : List Req) : List Req :=
  let live := rs.filter (fun r => !done.any (fun m => m.inp == r.inp || m.out == r.out))
  let grants := (List.range 10).filterMap (fun o =>
    bestReq (fun r => fromPtr (ptrAt g o) r.inp) (live.filter (fun r => r.out == o)))
  (List.range 10).filterMap (fun i => bestReq (fun r => fromPtr (ptrAt a i) r.out) (grants.filter (fun r => r.inp == i)))
/-- Pointers move past the pairs accepted in iteration 1 (R89). -/
def movePtrs (ms : List Req) (g a : Nat) : Nat × Nat :=
  ms.foldl (fun p m => (setPtr p.1 m.out ((m.inp + 1) % 10), setPtr p.2 m.inp ((m.out + 1) % 10))) (g, a)
/-- A round of `iter` iterations: the matches, and the new grant and accept pointers. -/
def matchRound (iter : Nat) (rs : List Req) (g a : Nat) : List Req × Nat × Nat :=
  let m1 := iteration rs g a []
  let p := movePtrs m1 g a
  let m2 := if iter ≥ 2 then m1 ++ iteration rs g a m1 else m1
  let m3 := if iter ≥ 3 then m2 ++ iteration rs g a m2 else m2
  (m3, p.1, p.2)
/-- ITER: 0 acts as 1. -/
def State.iter (s : State) (c : Cell) : Nat := max 1 (s.rd (F.XBAR_SCHED_ITER c))

/-! ### A frame's start (R87, R103, R136, R147) -/

/-- How a VOQ head may start. -/
inductive Start where
  /-- Normally; over the open runs of its class (R140); as a re-issue that ignores gate, fit and credit (R147). -/
  | normal | oversize | bypass
  /-- Not in this cycle: its gate, its shaper, credit downstream or missing units; or it does not fit (R138). -/
  | wait | fitWait
  deriving DecidableEq, Repr

/-- Data units that must be in the buffer before a start: L of R103. -/
def cutLevel (len rin rout : Nat) : Nat := if rout ≤ rin then 0 else (len * (rout - rin) + rout - 1) / rout
/-- Enough of the frame has arrived for its output (R103). -/
def State.cutOk (s : State) (c : Cell) (i o : Nat) (f : Frame) : Bool :=
  let n := s.unitsIn c i f
  let whole := n = f.p.len.val
  if o = 0 then
    if f.p.opc = .cxlio then whole
    else whole || (s.rdb (F.XBAR_CT_CT_EN c) && (s.rd (F.XBAR_CT_CT_CLASS c)).testBit f.p.tc.val
      && cutLevel f.p.len (s.endRate c i) (s.endRate c o) ≤ n)
  else cutLevel f.p.len (s.endRate c i) (s.endRate c o) ≤ n
/-- The start rule of R136 with its exceptions, for the head f of a VOQ. A draining cell starts no packet toward Scrim (R70). -/
def State.startKind (s : State) (c : Cell) (i o : Nat) (f : Frame) (x : StartIn) : Start :=
  let v : Vc := Fin.ofNat 8 f.p.opc.vc
  let credited := x.credit.any (fun k => k.1.val == o && k.2 == v)
  let drains := 1 ≤ o && o ≤ 4 && (s.rd (F.SCRIM_RTR_STATUS_DRAIN_STATE c) == 1 || s.rd (F.SCRIM_RTR_STATUS_DRAIN_STATE c) == 2)
  if !credited || drains || !s.cutOk c i o f || (o = 0 && s.portRate c = 0) then .wait
  else if o > 4 then .normal
  else
    let shp := s.shapes c o f.p.tc && decide (s.credit c o f.p.tc < 0)
    let gate := s.gateOpen c o f.p.tc
    let fit := o ≠ 0 || s.fits c f.p
    if gate && fit && !shp then .normal
    else if f.p.gen ≠ 0 then .bypass
    else if shp then .wait
    else if gate then (if s.oversizeNow c f.p then .oversize else .fitWait)
    else .wait
/-- Core cycles an output is busy with a frame: a granule a cycle, or the port's rate if that is slower. -/
def State.busyFor (s : State) (c : Cell) (o : Nat) (p : Pkt) : Nat :=
  let r := s.endRate c o
  if r = 0 then p.granules else max p.granules ((p.bytes * 240 + r - 1) / r)
/-- Core cycles that a frame takes at the port's rate. -/
def State.sendTime (s : State) (c : Cell) (p : Pkt) : Nat := (p.bytes * 240 + s.portRate c - 1) / s.portRate c
/-- The endpoint takes part in a round: its frame's last granule has left. A round takes no time in the model, so that re-entering matching
ITER cycles earlier (R90) is this round, whose starts are in its own cycle (DESIGN CHOICE, log 114). -/
def State.unlocked (s : State) (c : Cell) (m : NMap Nat) (k : Nat) : Bool := mgetD 0 m (c.val * 10 + k) ≤ s.cyc

/-! ### The row datapath (R80) -/

/-- The highest class of a head that cell m offers at PORT. -/
def State.portOffer (s : State) (m : Cell) (x : StartIn) : Option Nat :=
  (s.xbar.voq.filterMap (fun e =>
    if e.1 / 800 == m.val && e.1 / 8 % 10 == 0 then
      match e.2 with
      | f :: _ => (match s.startKind m (e.1 / 80 % 10) 0 f x with
        | .normal | .oversize | .bypass => some (e.1 % 8)
        | _ => none)
      | [] => none
    else none)).max?
/-- The row datapath takes a frame of class tc of cell c: no other cell of the port sends one, and none offers a higher class, or the same
with the rotating pointer nearer. -/
def State.rowTakes (s : State) (c : Cell) (tc : Nat) (x : StartIn) : Bool :=
  let a := s.anchorOf c
  let n := s.portCells a
  let far (m : Cell) : Nat := (m.val - a.val + n - mgetD 0 s.xbar.rowPtr a.val) % n
  (s.portMembers a).all (fun m => m == c || (mgetD 0 s.xbar.outBusy (m.val * 10) ≤ s.cyc && (match s.portOffer m x with
    | some k => k < tc || (k == tc && far c < far m)
    | none => true)))

/-! ### Sampling and mirroring (R106 to R112) -/

/-- The LFSR of cell c: x^31 + x^28 + 1 (R106). -/
def State.lfsrOf (s : State) (c : Cell) : Nat := mgetD (0x40000000 + c.val + 1) s.xbar.lfsr c.val
/-- One step: toward bit 30, with bit 30 xor bit 27 as the new bit 0. -/
def lfsrStep (x : Nat) : Nat := (x * 2 + (x.testBit 30 != x.testBit 27).toNat) % 2 ^ 31
/-- Reloads an output's down-counter with N, or with a value drawn by the LFSR advanced 16 steps (R106). -/
def State.reloadSample (s : State) (c : Cell) (o : Nat) : State :=
  let n := s.rd (F.XBAR_SAMP_CTRL_N_M1 c) + 1
  if s.rdb (F.XBAR_SAMP_CTRL_RAND c) then
    let l := (List.range 16).foldl (fun x _ => lfsrStep x) (s.lfsrOf c)
    let v := (n + 1) / 2 + l / 2 ^ 15 % 65536 * n / 65536
    { s with xbar.lfsr := mset (0x40000000 + c.val + 1) s.xbar.lfsr c.val l, xbar.sampCnt := mset 0 s.xbar.sampCnt (c.val * 10 + o) v }
  else { s with xbar.sampCnt := mset 0 s.xbar.sampCnt (c.val * 10 + o) n }
/-- Data capture is granted for the instance a frame names (R107). -/
def State.mayCapture (s : State) (p : Pkt) : Bool :=
  if Pkt.nameless p then !s.keyPacket p else (mgetD 0 s.img.ctrPerm p.inst.val).testBit 0
/-- The sample record of a frame that starts (Table 3-5). FLAGS bit 4 is set where the frame has data that are masked: of a frame that names an
instance without capture and carries no data the spec does not say (DESIGN CHOICE, log 133). -/
def State.sampleRec (s : State) (c : Cell) (i o : Nat) (f : Frame) (cut : Bool) (gran free : Nat) : SampleRec :=
  let want := match s.rd (F.XBAR_SAMP_CTRL_TRUNC c) with | 0 => 0 | 1 => 1 | 2 => 2 | _ => 4
  let masked := !s.mayCapture f.p && f.p.len.val > 0
  let units := if masked then 0 else min want f.p.len.val
  { time := s.ns, seq := mgetD 0 s.xbar.sampSeq c.val, skipped := mgetD 0 s.xbar.sampSkip c.val, cell := c.val,
    path := i * 16 + o, cls := f.p.opc.vc * 16 + f.p.tc.val,
    flags := cut.toNat + 2 * f.whey.toNat + 4 * f.p.stomp.toNat + 8 * f.p.poison.toNat + 16 * masked.toNat
      + 32 * (units < f.p.len.val : Bool).toNat,
    frameBytes := f.p.bytes, qdelay := s.ns - f.enq, voqGran := gran, sharedFree := free,
    header := BitVec.ofNat 256 f.p.header, capBytes := 64 * units, data := f.p.data.take units }
/-- The 64 B of a sample record (Table 3-5). -/
def SampleRec.bits (r : SampleRec) : Nat :=
  r.time % 2 ^ 64 + r.seq % 2 ^ 32 * 2 ^ 64 + r.skipped % 2 ^ 16 * 2 ^ 96 + r.cell * 2 ^ 112 + r.path * 2 ^ 120 + r.cls * 2 ^ 128 + r.flags * 2 ^ 136
    + r.frameBytes * 2 ^ 144 + r.qdelay % 2 ^ 32 * 2 ^ 160 + r.voqGran % 2 ^ 16 * 2 ^ 192 + r.sharedFree % 2 ^ 16 * 2 ^ 208
    + r.header.toNat * 2 ^ 224 + r.capBytes * 2 ^ 480
/-- Sampling at a frame's start: the counter counts down, and a due sample is sent, or skipped while SAMP is busy (R106,
R108, R109). -/
def State.sampleStart (s : State) (c : Cell) (i o : Nat) (f : Frame) (cut : Bool) (gran free : Nat) (busy : Bool) : State :=
  if !(s.rdb (F.XBAR_SAMP_CTRL_EN c) && (s.rd (F.XBAR_SAMP_CTRL_OUT_EN c)).testBit o) then s
  else
    let k := c.val * 10 + o
    let s := { s with xbar.sampCnt := mmod 0 s.xbar.sampCnt k (· - 1) }
    if s.xbar.sampDue.contains k then
      let s := { s with xbar.sampDue := s.xbar.sampDue.filter (· != k) }
      if busy then
        { s with xbar.sampSkip := mmod 0 s.xbar.sampSkip c.val (fun n => min 0xFFFF (n + 1)) }.sat (F.XBAR_SAMP_CNT_SKIPPED c)
      else
        let r := s.sampleRec c i o f cut gran free
        let s := (s.emit (.samp (s.mgtPkt c (1 + r.data.length) (r.bits + packed 512 (r.data.map (·.toNat)) * 2 ^ 512)))).inc (F.XBAR_SAMP_CNT_TAKEN c)
        { s with
          xbar.sampSeq := mset 0 s.xbar.sampSeq c.val ((r.seq + 1) % 2 ^ 32), xbar.sampSkip := mdel s.xbar.sampSkip c.val }
    else s
/-- Session m copies the frame in this direction (R110): port mirroring every frame, flow mirroring those its filter
passes. -/
def State.mirrored (s : State) (c : Cell) (m : Nat) (p : Pkt) (egress : Bool) : Bool :=
  s.rdb (F.XBAR_MIR_CTRL_EN c m)
    && (if egress then s.rdb (F.XBAR_MIR_CTRL_EGRESS c m) else s.rdb (F.XBAR_MIR_CTRL_INGRESS c m))
    && (!s.rdb (F.XBAR_MIR_CTRL_FLOW c m)
      || ((s.rdb (F.XBAR_MIR_FILT_INST_ANY c m) || (!Pkt.nameless p && s.rd (F.XBAR_MIR_FILT_INST c m) = p.inst.val))
        && (s.rd (F.XBAR_MIR_FILT_TC_MASK c m)).testBit p.tc.val
        && (s.rd (F.XBAR_MIR_FILT_OPC c m)) &&& (s.rd (F.XBAR_MIR_FILT_OPC_MASK c m))
          = p.opc.code &&& (s.rd (F.XBAR_MIR_FILT_OPC_MASK c m))))
/-- A mirror copy as a packet on VC5 (R110, Table 3-6): the mirror header, the frame's header unit, and its data cut at `bytes` and padded
with zeros to a whole DWORD. -/
def MirrorRec.pkt (r : MirrorRec) (c : Cell) : Pkt :=
  let pad := (r.bytes + 3) / 4 * 4
  let head := 2 + r.info * 2 ^ 8 + r.srcPort * 2 ^ 16 + r.origBytes * 2 ^ 32 + r.seq % 2 ^ 16 * 2 ^ 48 + r.time % 2 ^ 64 * 2 ^ 64
  let x := head + r.header.toNat * 2 ^ 128 + packed 512 (r.data.map (·.toNat)) % 2 ^ (8 * r.bytes) * 2 ^ 384
  let n := min 64 ((48 + pad + 63) / 64)
  { opc := .bulk, src := c, dst := r.dest, tagSlot := 0x3FF, tc := 0, len := Fin.ofNat 65 n, data := unitsOf n x }
/-- The copies of a frame at PORT, each sent through SAMP or dropped (R110, R112). -/
def State.mirrorStart (s : State) (c : Cell) (p : Pkt) (egress busy credit : Bool) : State :=
  (List.range 4).foldl (fun s m =>
    if s.mirrored c m p egress then
      if busy || !credit then s.sat (F.XBAR_MIR_CNT_DROPPED c m)
      else
        let k := c.val * 4 + m
        let dest := s.rd (F.XBAR_MIR_CTRL_DEST c m)
        let whole := s.rd (F.XBAR_MIR_CTRL_TRUNC c m) == 0
        -- with its two headers a copy fits in the 64 data units of one packet (R50; DESIGN CHOICE, log 25)
        let most := min 4048 (Config.maxPayload dest)
        let tr := if whole then most else min (s.rd (F.XBAR_MIR_CTRL_TRUNC c m)) most
        let masked := !s.mayCapture p && p.len.val > 0
        let cut := tr < 64 * p.len.val
        let bytes := if masked then 0 else min tr (64 * p.len.val)
        let r : MirrorRec :=
          { dest := Cell.of dest,
            info := m + 4 * egress.toNat + 8 * (decide cut).toNat + 16 * masked.toNat, srcPort := (s.anchorOf c).val,
            origBytes := p.bytes, seq := mgetD 0 s.xbar.mirSeq k, time := s.ns, header := BitVec.ofNat 256 p.header,
            bytes := bytes, data := p.data.take ((bytes + 63) / 64) }
        let s := (s.send (r.pkt c)).inc (F.XBAR_MIR_CNT_COPIED c m)
        { s with xbar.mirSeq := mset 0 s.xbar.mirSeq k ((r.seq + 1) % 65536) }
    else s) s

/-! ### Starting a matched pair -/

/-- The yields a start logs (R150): an OVERSIZE start, a window a re-issue closes over, and a shaped class it leaves in
debt. -/
def State.startYields (s : State) (c : Cell) (o : Nat) (p : Pkt) (k : Start) : State :=
  match k with
  | .oversize => (s.sat (F.GATE_CNT_OVERSIZE c)).logYield 3 6 (some c) 0xFFFF 0x0104 (s.anchorOf c).val
  | .bypass =>
    let shut := o = 0 && !(s.gateOpen c o p.tc && s.fits c p)
    let win := s.ns + (match s.gateRuns c with
      | true => (s.gateEntry c (s.gatePos c).1).2 - (s.gatePos c).2
      | false => 0)
    let s := if shut && mgetD 0 s.sched.closedOver c.val ≠ win then
        { s with sched.closedOver := mset 0 s.sched.closedOver c.val win }.logYield 4 6 (some c) 0xFFFF 0x0103 (s.anchorOf c).val
      else s
    if s.shapes c o p.tc && decide (s.credit c o p.tc - (1024 * p.bytes : Nat) < 0) then
      s.logYield 4 5 (some c) 0xFFFF 0x010F (s.anchorOf c).val
    else s
  | _ => s

/-- A write frame at its originating cell: it stays charged until its completion (R91). -/
def keepsCharge (p : Pkt) (c : Cell) : Bool :=
  (match p.opc with
    | .wdata => true
    | .cxlio | .pass _ _ => !p.data.isEmpty
    | _ => false) && p.tagCell = c && p.tagSlot.val != 0x3FF

/-- A data error of the frame that starts at output o, after its header has left (R104). -/
def startBad (o : Nat) (f : Frame) (x : StartIn) : Bool :=
  match x.err with
  | some (eo, u) => eo.val == o && u.val < f.p.len.val
  | none => false
/-- The cycles its data came late (R105). -/
def startLate (o : Nat) (x : StartIn) : Nat :=
  match x.late with
  | some (eo, n) => if eo.val = o then n.toNat else 0
  | none => 0
/-- The head as it leaves: a data error poisons what follows and stomps the tail (R104). -/
def startHead (o : Nat) (f : Frame) (x : StartIn) : Frame :=
  if startBad o f x then
    let u := match x.err with
      | some (_, u) => u.val
      | none => 0
    { f with p := { f.p with pois := f.p.poisFrom u, stomp := true } }
  else f
/-- What a start counts and logs before it takes its frame. -/
def State.startErrors (s : State) (c : Cell) (o : Nat) (k : Start) (f : Frame) (x : StartIn) : State :=
  let s := s.startYields c o f.p k
  let bad := startBad o f x
  let s := if bad then (s.inc (F.XBAR_STOMPS_COUNT c)).ctrEvent c 0x0B [] else s
  let s := if bad && o = 0 then s.logYield 2 4 (some c) 0xFFFF 0x010D (s.anchorOf c).val else s
  s.inc (F.XBAR_UNDERRUN_COUNT c) (startLate o x)
/-- The frame leaves its VOQ and locks its input and output; at PORT the end of its run stands for R139, and the row datapath's pointer moves
past its cell (R80). A frame that its late data takes past its run is counted. -/
def State.startLock (s : State) (c : Cell) (i o tc : Nat) (k : Start) (f : Frame) (rest : List Frame) (x : StartIn) : State :=
  let busy := s.busyFor c o f.p + startLate o x
  let ends : Option Nat := if o = 0 ∧ k = .normal then (s.runLeft c tc).map (fun t => 3 * (s.ns + t)) else none
  let past := match ends with
    | some t => startLate o x != 0 && decide (t < s.cyc + s.sendTime c f.p + startLate o x)
    | none => false
  let s := if past then s.sat (F.GATE_CNT_OVERRUN c) else s
  let a := s.anchorOf c
  let s := { s.setVoq c i o tc rest with
    xbar.inBusy := mset 0 s.xbar.inBusy (c.val * 10 + i) (s.cyc + busy)
    xbar.outBusy := mset 0 s.xbar.outBusy (c.val * 10 + o) (s.cyc + busy)
    xbar.outCls := mput s.xbar.outCls (c.val * 10 + o) tc }
  if o ≠ 0 then s
  else { s with
    xbar.rowPtr := mset 0 s.xbar.rowPtr a.val ((c.val - a.val + 1) % s.portCells a)
    xbar.runEnd := match ends, past with
      | some t, false => mput s.xbar.runEnd c.val t
      | _, _ => mdel s.xbar.runEnd c.val }
/-- Its account, whose granules leave with it, its shaper's debit, and what observes it (R91, R144, R148). -/
def State.startAccount (s : State) (c : Cell) (o tc : Nat) (f : Frame) : State :=
  let s := if keepsCharge f.p c && (s.slot c f.p.tagSlot).isSome then
      -- what an issue before this one still holds goes back
      let s := s.freeKept c f.p.tagSlot
      { s with xbar.kept := mput s.xbar.kept (c.val * 1024 + f.p.tagSlot.val) (o, tc, f.p.granules) }
    else { s with xbar.leaving := s.xbar.leaving ++
      [{ cell := c, out := o, tc := tc, gran := f.p.granules, at_ := s.cyc, busy := mgetD 0 s.xbar.outBusy (c.val * 10 + o) - s.cyc }] }
  let s := if o < 5 then s.setCredit c o tc (s.credit c o tc - (1024 * f.p.bytes : Nat)) else s
  let s := s.observeStart c o tc (s.ns - f.enq)
  let s := s.ctrEvent c 0x07 [o] 1
  if o = 0 then
    ({ s with ctr.header := mput s.ctr.header c.val (f.p.header % 2 ^ 128) }).ctrEvent c 0x06 [tc] f.p.bytes true (Pkt.named f.p)
  else s
/-- Records, samples and mirror copies of the start (R149, R106, R110). -/
def State.startCopies (s : State) (c : Cell) (i o : Nat) (f : Frame) (cut : Bool) (gran free : Nat) (x : StartIn) : State :=
  let busy := x.sampBusy || s.sampPends c
  let s := if x.sampBusy then s else s.sendHist c
  let s := s.sampleStart c i o f cut gran free busy
  if o = 0 then s.mirrorStart c f.p true busy x.mirCredit else s
/-- Granules leave with the frames in transmission, in proportion to the time (R91). -/
def State.leaveCycle (s : State) : State :=
  s.xbar.leaving.foldl (fun (s : State) (l : Leaving) =>
    let n := if l.at_ + l.busy ≤ s.cyc + 1 then l.gran else l.gran * (s.cyc + 1 - l.at_) / l.busy
    let s := s.freeGran l.cell l.out l.tc (n - l.gone) false
    if n = l.gran then s else { s with xbar.leaving := s.xbar.leaving ++ [{ l with gone := n }] }) { s with xbar.leaving := [] }
/-- A CXL.io write whose sender awaits no response (R79). -/
def Pkt.posted (p : Pkt) : Bool := p.opc = .cxlio && !p.data.isEmpty
/-- Traffic between a host and its pass-through device leaves at PORT (R79, R151), and a mirror copy at its device (R110). Under a tag of this port it answers a request: the final
answer, and any completion, waits in its slot to depart. Any other goes out; a posted write's internal completion goes back. -/
def State.leavePort (s : State) (c : Cell) (p : Pkt) : State :=
  let copy : Bool := p.opc = .bulk && p.tagSlot.val = 0x3FF
  if !(p.opc = .cxlio || copy || (match p.opc with | .pass _ _ => true | _ => false)) || p.dst != c || !s.scrim.flight.any (fun f => f.p.same p)
  then s
  else
    let s := s.take p
    -- toward a CXL or PCIe link the link's own poison stands for the stomped tail (R104)
    let p := if s.roleOf c == .onora then p else { p with stomp := false }
    let out (s : State) (o : Out) : State := (s.xingPass (F.SPILL_XING_CELL_at c 1) (1 + p.len.val)).emit o
    if copy then out s (.vdm c Config.clacaVendor p.data)
    else if p.tagCell = c then
      match s.slot c p.tagSlot with
      | none => s.lateDiscard c
      | some t =>
        if t.hdr.gen ≠ p.gen ∨ t.resp.isSome ∨ t.ended.isSome then s.lateDiscard c
        else if p.opc = .cxlio then s.setSlot c p.tagSlot { t with resp := some (.ioCpl p.data false p.poison) }
        else if p.mv = .E then s.setSlot c p.tagSlot { t with resp := some (.pass p) }
        else out s (.tlp c p)
    else
      let s := out s (.tlp c p)
      if Pkt.posted p then s.send { p with opc := .wcmp, src := c, dst := p.tagCell, tc := 6, len := 0, data := [], pois := 0 } else s
/-- Toward Scrim the packet is injected with its route, and absorbed there if its destination is unreachable (R60, R69). -/
def State.startOut (s : State) (c : Cell) (o : Nat) (q : Pkt) : State :=
  if o = 0 then (if s.roleOf c == .host || s.roleOf c == .device then s.leavePort c q
    else s.xingPass (F.SPILL_XING_CELL_at c 1) (1 + q.len.val))
  else if o ≤ 4 then
    let p := s.stampRoute q
    let s := (s.moveTo q p c).injected c p
    if s.routeOf p.src p.dst == .unreachable then (s.lose [p]).sat (F.SCRIM_ABSORB_UNREACH c) else s
  else s
/-- The matched head of VOQ (i, o, class) starts: the frame leaves its VOQ and its account, locks its input and output,
debits its shaper, and is observed, sampled and mirrored. Toward Scrim it is injected with its route, or absorbed there
if its destination is unreachable (R60). -/
def State.startFrame (s : State) (c : Cell) (i o tc : Nat) (x : StartIn) : State :=
  match s.voqAt c i o tc with
  | [] => s
  | f :: rest =>
    let k := s.startKind c i o f x
    let cut := decide (s.unitsIn c i f < f.p.len.val)
    let gran := (f :: rest).foldl (fun n g => n + g.p.granules) 0
    let free := s.rd (F.XBAR_BUF_SHARED_FREE c)
    let f' := startHead o f x
    let s := s.startErrors c o k f x
    let s := if cut then s.inc (F.XBAR_CT_STARTS_COUNT c) else s
    let s := (s.startLock c i o tc k f rest x).startAccount c o tc f
    let s := ((s.startCopies c i o f' cut gran free x).moveTo f.p f'.p c).startOut c o f'.p
    -- a packet whose tail is stomped on its way to internal work is re-issued by its originating port (R104)
    if f'.p.stomp && !f.p.stomp && o != 0 && !Pkt.transit f.p then { s with spill.lost := s.spill.lost ++ [f'.p] } else s

/-- Heads that wait under R138 are counted once each; a cell with a head ready but no first-hop credit is stalled in this
cycle (R72). -/
def State.countWaits (s : State) (c : Cell) (x : StartIn) : State :=
  let heads := s.xbar.voq.filter (fun e => e.1 / 800 == c.val)
  let s := heads.foldl (fun s e =>
    let i := e.1 / 80 % 10
    let o := e.1 / 8 % 10
    match e.2 with
    | f :: rest =>
      if s.startKind c i o f x = .fitWait && !f.fitWait then
        ((s.setVoq c i o (e.1 % 8) ({ f with fitWait := true } :: rest)).sat (F.GATE_CNT_FIT_WAIT c)).ctrEvent c 0x0C []
      else s
    | [] => s) s
  let stalled := heads.any (fun e =>
    let o := e.1 / 8 % 10
    match e.2 with
    | f :: _ => 1 ≤ o && o ≤ 4 && !x.credit.any (fun k => k.1.val == o && k.2.val == f.p.opc.vc)
    | [] => false)
  if stalled && !s.scrim.stallNow.contains c.val then { s with scrim.stallNow := c.val :: s.scrim.stallNow } else s

/-- The requests of a round: for each unlocked pair, the highest class of an eligible head (R88). -/
def State.requests (s : State) (c : Cell) (x : StartIn) : List Req :=
  let ok := (s.xbar.voq.filter (fun e => e.1 / 800 == c.val)).filterMap (fun e =>
    let i := e.1 / 80 % 10
    let o := e.1 / 8 % 10
    match e.2 with
    | f :: _ =>
      let k := s.startKind c i o f x
      if (k = .normal ∨ k = .oversize ∨ k = .bypass) ∧ s.unlocked c s.xbar.inBusy i ∧ s.unlocked c s.xbar.outBusy o
          ∧ (o ≠ 0 ∨ s.rowTakes c (e.1 % 8) x) then
        some { inp := i, out := o, tc := e.1 % 8 : Req }
      else none
    | [] => none)
  ok.filter (fun r => !ok.any (fun q => q.inp == r.inp && q.out == r.out && q.tc > r.tc))

/-- One matching round of cell c, and the start of every match (R88 to R90, R136). -/
def State.round (s : State) (c : Cell) (x : StartIn) : State :=
  let s := s.countWaits c x
  let (ms, g, a) := matchRound (s.iter c) (s.requests c x) (s.rd (F.XBAR_GPTR_PTR c)) (s.rd (F.XBAR_APTR_PTR c))
  let s := (s.wr (F.XBAR_GPTR_PTR c) g).wr (F.XBAR_APTR_PTR c) a
  (ms.foldl (fun s m => s.startFrame c m.inp m.out m.tc x) s).admitWaiting c

/-! ### The head's return (R97, R127, R129) -/

/-- A framing loss (Table 4-4): the frame and every later one of the context are absorbed, the context closes and its
chunks go back (R130). -/
def State.framingLoss (s : State) (c : Cell) (n : Nat) : State :=
  match s.sctx c n with
  | none => s
  | some x =>
    let un := x.frames.filter (fun w => !w.acked)
    let s := (un.map (·.charge)).foldl (fun s g => s.freeGran c x.out x.tc g true) s
    let s := x.wait.foldl (fun s f => s.freeGran c x.out x.tc f.p.granules false) s
    let s := s.lose (x.frames.map (·.f.p) ++ x.wait.map (·.p))
    let s := (s.closeCtx c n false).sat (F.SPILL_ERR_FRAMING_LOSS c)
    let s := s.logFault 0x07 (some c) 0xFFFF 0x0007 n n false
    s.logYield 3 4 (some c) 0xFFFF 0x0109 n
/-- Number of ones among the n low bits. -/
def ones (n x : Nat) : Nat := ((List.range n).filter (fun i => x.testBit i)).length
/-- A frame that came back whole enough goes to its VOQ, or waits (R98, R129). Its words come in at SCR1 and pass output WHEY (R126). -/
def State.spillFrame (s : State) (c : Cell) (n : Nat) (x : SpillCtx) (w : WFrame) (f : Frame) : State :=
  let s := s.moveTo w.f.p f.p c
  let s := ((s.leaveFrame c n x w).inc (F.XBAR_RETURNS_COUNT c)).ctrEvent c 0x0A []
  let pass (t : Nat) : Nat := max t s.cyc + 2 * f.p.len.val
  let s := { s with xbar.inBusy := mmod 0 s.xbar.inBusy (c.val * 10 + 2) pass, xbar.outBusy := mmod 0 s.xbar.outBusy (c.val * 10 + 6) pass }
  if s.queueWaits c x.inp x.out f.p.tc true then s.waitAt c x.inp x.out f
  else (s.tryAdmit c x.inp x.out f).getD (s.waitAt c x.inp x.out f)
/-- The chunks whose link words the head follows to read a frame, each with the CSEQ it must carry (R126, R127). -/
def SpillCtx.links (x : SpillCtx) (w : WFrame) : List (Nat × Nat) :=
  ((x.chunks.zipIdx).takeWhile (fun e => e.1 != w.endChunk)).map (fun e => (e.1, (x.cseq + e.2) % 65536))
/-- The link words name this cell, this context and the next CSEQ (R127). -/
def State.linksOk (s : State) (c : Cell) (n : Nat) (x : SpillCtx) (w : WFrame) : Bool :=
  (x.links w).all (fun e => match mget s.spill.link (x.stack * 2 ^ 21 + e.1) with
    | some l => l.cell == c.val && l.ctx == n && l.cseq == e.2
    | none => false)
/-- Whey words return for context n (Table 4-4, R97, R98, R127 to R129). FSEQ is not checked where the length half fails. -/
def State.spillData (s : State) (c : Cell) (n : Nat) (x : SpillCtx) (w : WFrame) (r : SpillIn) : State :=
  let d := stackDie x.stack
  let units := w.f.p.len.val
  let follows := !(x.links w).isEmpty
  let s := s.xingPass (F.SPILL_XING_HBM_at d 1) (units + (x.links w).length)
  let badW := ones units r.badUnits.toNat
  let par := badW + (!(r.hdrPar && r.lenPar)).toNat + (follows && !r.linkPar).toNat
  let s := s.sat (F.SPILL_STACK_ERR_PARITY_WORDS d) par
  if (!r.hdrOk && !r.lenOk) || (r.lenOk && w.fseq != x.fseqRd) || (follows && !(r.linkOk && s.linksOk c n x w)) then s.framingLoss c n
  else if !r.hdrOk then
    ((s.lose [w.f.p]).sat (F.SPILL_ERR_HDR_ABSORB c)).leaveFrame c n x w
  else
    let all : Word := BitVec.ofNat 64 (2 ^ units - 1)
    let lost : Word := (if r.lenOk then r.badUnits ||| w.pmap else r.badUnits) &&& all
    let s := s.sat (F.SPILL_ERR_PARITY_WORDS c) (ones units lost.toNat)
    let pois := if r.lenOk then w.f.p.pois ||| lost else all
    let waited := (s.ns + 2 ^ 32 - w.enqNs) % 2 ^ 32
    s.spillFrame c n x w { w.f with p := { w.f.p with pois := pois }, cyc := s.cyc, got := units, whey := true, enq := s.ns - waited }
/-- The answer of the spill engine to the fetch of context n. -/
def State.spillReturn (s : State) (c : Cell) (n : Nat) (r : SpillIn) : State :=
  match s.sctx c n with
  | none => s
  | some x =>
    match x.frames, x.fetch with
    | w :: _, true =>
      -- the reads of this fetch are served
      { s with scrim.flight := s.scrim.flight.filter (fun f => !(f.p.opc == Opc.bulk && f.p.src == c && f.p.tagSlot.val == 0x3FE && f.p.htid.val == n)) }.spillData c n x w r
    | _, _ => s

end Sys2Proof.Machine
end

