-- ==== Sys2Proof/Machine/OnlOps.lean ====
section
/-! DEFINITION. Sending on the chain (spec/11): routes, the link's queue, credits and replay store, absorbed packets and their
ONLABS, chain slots and remote extents, and the pieces of a blob. ONL_CHAIN, ONL_ROUTE and the remote extent table hold the
same values in every ONORA anchor: the model keeps them once, at cell 0's addresses. -/

namespace Sys2Proof.Machine

/-! ### The chain as this module sees it -/

/-- The module's own chain address. -/
def State.chainAddr (s : State) : Nat := s.rd (F.ONL_CHAIN_ADDR 0)
/-- Chain epoch parity: bit 0 of CEPOCH (Table 11-16). -/
def State.cep (s : State) : Bool := s.rd (F.ONL_CHAIN_CEPOCH 0) % 2 == 1
/-- Anchors of the ONORA ports. -/
def State.onoraAnchors (s : State) : List Cell := (List.finRange 128).filter (fun c => s.roleOf c == .onora && s.anchorOf c == c)
/-- LINK_STATE of a link: 2 STANDBY and 3 ACTIVE are UP (Table 11-11). -/
def State.linkSt (s : State) (a : Cell) : Nat := s.rd (F.ONL_STATUS_LINK_STATE a)
def State.linkUp (s : State) (a : Cell) : Bool := s.linkSt a == 2 || s.linkSt a == 3
/-- Chain address of the neighbour behind a link. -/
def State.nbrOf (s : State) (a : Cell) : Nat := s.rd (F.ONL_STATUS_NBR_ADDR a)
/-- The other link of a pair (R341); none for a link that names itself, or no ONORA port. -/
def State.pairOf (s : State) (a : Cell) : Option Cell :=
  let b := Cell.of (s.rd (F.ONL_CFG_PAIR_PORT a))
  if b ≠ a ∧ s.roleOf b = .onora ∧ s.anchorOf b = b then some b else none
/-- The anchor of the ACTIVE link toward a neighbour. -/
def State.activeTo (s : State) (n : Nat) : Option Cell := s.onoraAnchors.find? (fun a => s.linkSt a == 3 && s.nbrOf a == n)
/-- The link that a packet for module m takes, if m is reachable (R349). -/
def State.via (s : State) (m : Nat) : Option Cell :=
  if s.rdb (F.ONL_ROUTE_REACH 0 m) then s.activeTo (mgetD 32 s.onl.next m) else none

/-! ### The bits of a frame (R324 to R328) -/

/-- A chain unit with its CCRC (Table 11-5). -/
def chainUnitBits (u : ChainUnit) : Nat :=
  let n := u.dmod.val * 2 ^ 27 + u.smod.val * 2 ^ 22 + u.hops.val * 2 ^ 17 + u.phase.val * 2 ^ 16 + u.cep.toNat * 2 ^ 15
  n + crc16 240 n * 2 ^ 240
/-- The 32 B of a slot, and its sideband: KIND 0b11 marks a chain unit (R326). -/
def slotBits : OSlot → Nat × Nat
  | .chain v u => (chainUnitBits u, sideBits true 3 v false false false)
  | .head p => (p.header, sideBits true 0 p.opc.vc (p.len.val == 0) false false)
  | .data v high d poison eop stomp => (d.toNat, sideBits true (if high then 2 else 1) v eop poison stomp)
/-- A credit report's 14 bits. -/
def creditBits (r : Option (Vc × Fin 2 × Fin 512)) : Nat :=
  match r with
  | some (v, p, n) => 2 ^ 13 + v.val * 2 ^ 10 + p.val * 2 ^ 9 + n.val
  | none => 0
/-- The control word (Table 11-4), without FCRC. -/
def ctlBits (typ seq : Nat) (x : OCtl) (side : List Nat) : Nat :=
  let sb := ((List.range side.length).zip side).foldl (fun (n : Nat) t => n + t.2 % 512 * 2 ^ (9 * t.1)) 0
  typ % 16 * 2 ^ 476 + seq % 4096 * 2 ^ 464
    + (match x.ack with | some a => a.val * 2 ^ 452 + 2 ^ 451 | none => 0)
    + (match x.nak with | some a => a.val * 2 ^ 439 + 2 ^ 438 | none => 0)
    + creditBits x.cr[1]? * 2 ^ 424 + creditBits x.cr[0]? * 2 ^ 410 + sb
/-- The 640 B of a frame: slot j at bytes 32j, the control word at byte 576, FCRC in its top bits over the frame without it. -/
def frameBits (typ seq : Nat) (x : OCtl) (slots : List OSlot) : Nat :=
  let b := slots.map slotBits
  let n := ((List.range b.length).zip b).foldl (fun (m : Nat) t => m + t.2.1 * 2 ^ (256 * t.1)) 0
    + ctlBits typ seq x (b.map (·.2)) * 2 ^ 4608
  n + crc32 5120 n * 2 ^ 5088
/-- Message symbol k of a frame's codeword: 512 symbols of the frame, then the codeword header, whose CW_TYPE FRAME is 0 (R324). -/
def codeSymbol (frame k : Nat) : Nat := if k < 512 then frame / 2 ^ (10 * k) % 1024 else 0
/-- Message symbol k of an ALIGN codeword on a link of width w, and the lane that sends symbol k (R325). -/
def alignSymbol (w k : Nat) : Nat := 0x300 + k % w
def symbolLane (w k : Nat) : Nat := k % w

/-! ### Frames (R326 to R335) -/

/-- Virtual channels that have credit pools (R334). -/
def poolVcs : List Nat := [0, 1, 3, 4, 5]
/-- Pools in use at a link, as (VC, phase): those with slots (log 148). -/
def State.pools (s : State) (a : Cell) : List (Nat × Nat) :=
  ([0, 1].flatMap (fun p => poolVcs.map (fun v => (v, p)))).filter (fun x => s.rd (F.ONL_CREDIT_ADV a x.2 x.1) ≠ 0)
def poolKey (a : Cell) (p v : Nat) : Nat := (a.val * 2 + p) * 8 + v
/-- What the next credit report of a pool tells: no report runs more than 511 slots ahead of the last, so that none is lost mod 512. -/
def State.tellable (s : State) (k : Nat) : Nat := min (mgetD 0 s.onl.freed k) (mgetD 0 s.onl.told k + 511)
/-- Pools of which the next frame carries a report (R335): two, in rotation. -/
def State.nextPools (s : State) (a : Cell) : List (Nat × Nat) :=
  let ps := s.pools a
  let r (k : Nat) : List (Nat × Nat) := if ps.length ≤ k then [] else (ps[(mgetD 0 s.onl.crPtr a.val + k) % ps.length]?).toList
  r 0 ++ r 1
/-- The control word of the next frame (R331, R332, R335): the ACK of what has been accepted, a NAK where one is due, and the
reports of the next two pools. -/
def State.control (s : State) (a : Cell) (nak : Bool) : OCtl :=
  let e := s.rd (F.ONL_SEQ_RX_EXPECT a)
  { ack := some (Fin.ofNat 4096 (e + 4095)), nak := if nak then some (Fin.ofNat 4096 e) else none,
    cr := (s.nextPools a).map (fun (v, p) => (Fin.ofNat 8 v, Fin.ofNat 2 p, Fin.ofNat 512 (s.tellable (poolKey a p v)))) }
/-- A frame leaves on a link: TYPE 0 IDLE, 1 DATA, 2 LEAVE. It acknowledges all that has been accepted. -/
def State.sendWord (s : State) (a : Cell) (typ seq : Nat) (slots : List OSlot) (nak : Bool) : State :=
  let s := s.emit (.onlFrame a typ seq (s.control a nak) slots)
  let n := (s.pools a).length
  { s with
    onl.unacked := mdel s.onl.unacked a.val
    onl.told := (s.nextPools a).foldl (fun (t : NMap Nat) x => mset 0 t (poolKey a x.2 x.1) (s.tellable (poolKey a x.2 x.1))) s.onl.told
    onl.crPtr := if n = 0 then s.onl.crPtr else mset 0 s.onl.crPtr a.val ((mgetD 0 s.onl.crPtr a.val + 2) % n) }
/-- A frame without a NAK. -/
def State.sendFrame (s : State) (a : Cell) (typ seq : Nat) (slots : List OSlot) : State := s.sendWord a typ seq slots false
/-- The IDLE frame that carries a NAK of RX_EXPECT (R331). -/
def State.sendNak (s : State) (a : Cell) : State := (s.sat (F.ONL_ERR_NAKS_SENT a)).sendWord a 0 0 [] true
/-- The packets of a queue that may start: each holds credit for all its slots, none overtakes one of its virtual channel,
and their frames fit the window of 2,047. Started and waiting packets, in order. -/
def State.startable (s : State) (a : Cell) : List CPkt → List (Nat × Nat) → List Nat → Nat → List CPkt × List CPkt
  | [], _, _, _ => ([], [])
  | x :: xs, spent, blocked, n =>
    let v := x.p.opc.vc
    let k := x.cu.phase.val * 8 + v
    let used := (spent.filter (fun e => e.1 == k)).foldl (fun m e => m + e.2) 0
    let room := (n + x.need + 17) / 18 + s.rd (F.ONL_SEQ_UNACKED a) ≤ 2047
    if blocked.contains v ∨ !room ∨ s.rd (F.ONL_CREDIT_TX_HELD a x.cu.phase v) < used + x.need then
      let (go, wait) := s.startable a xs spent (v :: blocked) n
      (go, x :: wait)
    else
      let (go, wait) := s.startable a xs ((k, x.need) :: spent) blocked (n + x.need)
      (x :: go, wait)
/-- A DATA frame with its slots leaves and stays in the replay store (R330). -/
def State.sendData (s : State) (a : Cell) (slots : List OSlot) (pkts : List CPkt) : State :=
  let seq := s.rd (F.ONL_SEQ_TX_NEXT a)
  let s := { s with onl.store := mmod [] s.onl.store a.val (fun l => l ++ [(⟨seq, slots, pkts⟩ : OStored)]) }
  (((s.wr (F.ONL_SEQ_TX_NEXT a) (seq + 1)).inc (F.ONL_SEQ_UNACKED a)).inc (F.ONL_TX_FRAMES_COUNT a)).sendFrame a 1 seq slots
/-- What of a link's queue may leave, leaves in frames of 18 slots. -/
def State.pump (s : State) (a : Cell) : State :=
  if !s.linkUp a then s
  else
    let (go, wait) := s.startable a (mgetD [] s.onl.queue a.val) [] [] 0
    let s := { s with onl.queue := mset [] s.onl.queue a.val wait }
    let s := go.foldl (fun (s : State) x => s.dec (F.ONL_CREDIT_TX_HELD a x.cu.phase x.p.opc.vc) x.need) s
    let sl := go.flatMap (fun x => x.slots.map (fun t => (t, x)))
    (List.range ((sl.length + 17) / 18)).foldl (fun (s : State) k =>
      let part := (sl.drop (18 * k)).take 18
      s.sendData a (part.map (·.1)) ((part.map (·.2)).eraseDups)) s
/-- A packet is queued for a link. -/
def State.queueOn (s : State) (a : Cell) (x : CPkt) : State :=
  { s with onl.queue := mmod [] s.onl.queue a.val (fun l => l ++ [x]) }.pump a

/-! ### Absorbed packets (R344, R346) -/

/-- The ONLABS that an absorbed packet's requester gets: on Scrim, or over the route that is left. -/
def State.sendOnlabs (s : State) (a : Cell) (x : CPkt) : State :=
  if x.silent then s
  else
    let n : Pkt := { x.p with opc := .onlabs, src := a, dst := x.p.tagCell, tc := 7, len := 0, data := [], pois := 0, stomp := false, priv := false }
    let m := x.tagModule
    if m.val = s.chainAddr then (s.inc (F.ONL_NOTES_COUNT a)).send n
    else match s.via m.val with
      | some b => (s.inc (F.ONL_NOTES_COUNT a)).queueOn b ⟨{ dmod := m, smod := Fin.ofNat 32 s.chainAddr, cep := s.cep }, n⟩
      | none => s
/-- Packets are absorbed at a link (R344, R345, R349). -/
def State.absorbChain (s : State) (a : Cell) (xs : List CPkt) : State :=
  xs.foldl (fun (s : State) x => (s.inc (F.ONL_ABSORBED_COUNT a)).sendOnlabs a x) s
/-- A packet goes to the route to its DMOD; one that has none is absorbed. -/
def State.chainOut (s : State) (a : Cell) (x : CPkt) : State :=
  match s.via x.cu.dmod.val with
  | some b => s.queueOn b x
  | none => s.absorbChain a [x]
/-- A packet of this module's own for module m (R354): HOPS 0, PHASE 0 and the current CEP. -/
def State.chainNew (s : State) (a : Cell) (m : Fin 32) (p : Pkt) : State :=
  s.chainOut a ⟨{ dmod := m, smod := Fin.ofNat 32 s.chainAddr, cep := s.cep }, { p with priv := false }⟩

/-! ### Exported capacity (R354, R355) -/

/-- A request to a remote extent leaves ONORA cell a (R354); one whose extent has no entry is absorbed. -/
def State.exportSend (s : State) (a : Cell) (p : Pkt) : State :=
  match mget s.onl.rext p.ext with
  | some (m, e) =>
    let addr := p.addr.toNat - p.ext * 2 ^ 30 + e % 65536 * 2 ^ 30
    s.chainNew a (Fin.ofNat 32 m) { p with addr := BitVec.ofNat 52 addr }
  | none => s.absorbChain a [⟨{ dmod := Fin.ofNat 32 s.chainAddr, smod := Fin.ofNat 32 s.chainAddr }, p⟩]
def State.chainSlot (s : State) (c : Cell) (k : Slot) : Option CSlot := mget s.onl.cslot (c.val * 1024 + k.val)
/-- Frees a chain slot. -/
def State.freeChain (s : State) (c : Cell) (k : Slot) : State :=
  { s with onl.cslot := mdel s.onl.cslot (c.val * 1024 + k.val) }.dec (F.ONL_CSLOT_IN_USE c)
/-- A response for a chain slot (R355, R82): TAG and GEN are restored, and the slot frees when the last has passed. None where
the slot is free or the generation is not 0. -/
def State.chainResponse (s : State) (p : Pkt) : Option State :=
  let c := p.dst
  match s.chainSlot c p.tagSlot with
  | none => none
  | some x =>
    if p.gen ≠ 0 ∨ (p.opc = .mcmp ∧ !x.awMcmp) ∨ (p.opc ≠ .mcmp ∧ !x.awData) then none
    else
      let s := s.chainNew c x.smod { p with tagCell := x.hdr.tagCell, tagSlot := x.hdr.tagSlot, gen := x.hdr.gen, src := c,
                                            dst := x.hdr.tagCell, hslot := x.hdr.hslot, htid := x.hdr.htid }
      let y := if p.opc = .mcmp then { x with awMcmp := false } else { x with awData := false }
      if y.awData ∨ y.awMcmp then some { s with onl.cslot := mput s.onl.cslot (c.val * 1024 + p.tagSlot.val) y }
      else some (s.freeChain c p.tagSlot)

/-! ### Payloads (R351) -/

/-- Byte field of a line, little-endian. -/
def lineGet (l : Line) (b n : Nat) : Nat := l.toNat / 2 ^ (8 * b) % 2 ^ (8 * n)
/-- A line of fields (byte, value). -/
def lineOf (fs : List (Nat × Nat)) : Line := BitVec.ofNat 512 (fs.foldl (fun acc f => acc + f.2 * 2 ^ (8 * f.1)) 0)
/-! ### The key hierarchy of Table 9-6 -/

/-- A key of 256 bits as it was drawn. -/
def drawn (n : Nat) : BitVec 256 := BitVec.ofNat 256 (Config.freeRandom n)
/-- The identity key: KDF of the root device key. -/
def State.identityKey (s : State) : Option (BitVec 384) := s.img.rootKey.map (fun n => Config.kdf (drawn n) 0 0)
/-- The local blob key: KDF of the customer seed and the boot nonce. -/
def State.localBlobKey (s : State) : Option (BitVec 256) := s.sec.blobKey.map (fun x => (Config.kdf (drawn x.1) 1 x.2).extractLsb' 0 256)
/-- The chain sealing key: KDF of the customer seed. -/
def State.chainKey (s : State) : Option (BitVec 384) := s.img.seed.map (fun n => Config.kdf (drawn n) 2 0)
/-- The KEYX content of the module (Table 11-23): its chain sealing public key, signed by its identity key, with its certificates. -/
def State.keyxBytes (s : State) (own identity : BitVec 384) : List Byte :=
  let certs := Config.certs.take (16384 - 256)
  let head := ((ascii "JFKX" ++ leBytes 1 s.chainAddr ++ leBytes 1 0 ++ leBytes 2 certs.length ++ (Config.ecPublic own).take 97) ++ List.replicate 55 0).take 160
  head ++ (Config.ecdsaSign identity (Config.sha384 head)).take 96 ++ certs

/-- A chain packet of the opcodes of Table 11-2 that carry a payload: OPX zero, TAG 0 and GEN 0. -/
def payload (o : Opc) (a : Cell) (data : List Line) : Pkt :=
  { opc := o, src := a, dst := 0, tc := if o = .blob then 0 else 1, len := Fin.ofNat 65 data.length, data := data }
/-- A piece header (Table 11-22). -/
def pieceHead (xseq off len total flags result : Nat) : Line :=
  lineOf [(0, xseq % 2 ^ 64), (8, off % 2 ^ 16), (10, len % 2 ^ 16), (12, total % 2 ^ 16), (14, flags), (15, result)]
/-- The pieces of a whole of `total` bytes in `ls`: 62 data units each. -/
def piecesOf (xseq total : Nat) (ls : List Line) : List (List Line) :=
  (List.range (max 1 ((ls.length + 61) / 62))).map (fun k =>
    pieceHead xseq (3968 * k) (min 3968 (total - 3968 * k)) total 0 0 :: (ls.drop (62 * k)).take 62)
/-- Every piece of a whole goes to a module. -/
def State.sendPieces (s : State) (o : Opc) (m : Nat) (xseq total : Nat) (ls : List Line) : State :=
  (piecesOf xseq total ls).foldl (fun (s : State) d =>
    s.chainNew ((s.via m).getD 0) (Fin.ofNat 32 m) (payload o ((s.via m).getD 0) d)) s
/-- The sealed blob of an instance sets out for a module (R249, R351). -/
def State.sendBlob (s : State) (i seq m : Nat) : State :=
  let bytes := mgetD [] s.pool.sealed i
  let ls := linesOf bytes
  let s := { s with onl.tx := mput s.onl.tx i (m, seq, bytes.length, ls) }
  s.sendPieces .blob m seq bytes.length ls

end Sys2Proof.Machine
end

