-- ==== Sys2Proof/Machine/HomeOps.lean ====
section
/-! DEFINITION. The operations of a coherence home (spec/06) and of an owner proxy (spec/07) that their messages share:
hashing, the directory copies and cache, the transaction table, snoops, grants and the rows of Table 6-6. -/

namespace Sys2Proof.Machine

/-! ### Hashing and places (R154 to R157) -/

/-- Topology of a cell: 0 unified, 1 split, 2 quad. -/
def State.topo (s : State) (h : Cell) : Nat := s.rd (F.HOME_STATUS_TOPO h)
/-- Owner ordering applies in the unified topology only (R39). -/
def State.unified (s : State) (h : Cell) : Bool := s.topo h == 0
/-- Dies of the domain of a die, ascending (Table 1-7). -/
def domainDies (topo d : Nat) : List Nat :=
  if topo = 1 then (if d % 4 < 2 then [0, 1, 4, 5] else [2, 3, 6, 7])
  else if topo = 2 then [d % 4, d % 4 + 4]
  else [0, 1, 2, 3, 4, 5, 6, 7]
/-- The cells of the coherence domain of cell a (Table 1-7). -/
def State.domainOf (s : State) (a : Cell) : List Cell :=
  (List.finRange 128).filter (fun c => (domainDies (s.topo a) (dieOf a)).contains (dieOf c))
/-- Bits [hi:lo] of a line address. -/
def lineBits (line lo n : Nat) : Nat := line / 2 ^ lo % 2 ^ n
/-- home_index(line) of R154 for n cells. -/
def homeIndex (n line : Nat) : Nat :=
  (lineBits line 0 7 ^^^ lineBits line 7 7 ^^^ lineBits line 14 7 ^^^ lineBits line 21 7 ^^^ lineBits line 28 7
    ^^^ lineBits line 35 7 ^^^ lineBits line 42 4) % n
/-- Cells of a domain. -/
def domainCells (topo : Nat) : Nat := if topo = 1 then 64 else if topo = 2 then 32 else 128
/-- The cell that serves an index in the image's map (R154). -/
def imageCell (topo d idx : Nat) : Cell := Cell.of ((domainDies topo d).getD (idx / 16) 0 * 16 + idx % 16)
/-- Index of a line in the domain of cell h. -/
def State.lineIdx (s : State) (h : Cell) (line : Nat) : Nat := homeIndex (domainCells (s.topo h)) line
/-- home_cell(line) of R154, by the HOME_MAP of cell c. -/
def State.homeOf (s : State) (c : Cell) (line : Nat) : Cell :=
  let i := s.lineIdx c line
  Cell.of (s.rd (F.HOME_MAP_CELL c (i / 8) (i % 8)))
/-- The image cell whose slab holds a line of home h (R157, R207). -/
def State.slabCell (s : State) (h : Cell) (line : Nat) : Cell :=
  imageCell (s.topo h) (dieOf h) (s.lineIdx h line)
/-- set(line) of R157. -/
def dirSet (line : Nat) : Nat := lineBits line 7 20 ^^^ lineBits line 27 19
/-- Die of the primary copy of an image cell's quarter (Table 6-1). -/
def primaryDie (d : Nat) : Nat := (if d % 4 < 2 then 1 else 2) + (if d < 4 then 0 else 4)
/-- Offset of an entry within a stack's copy (R157). -/
def dirOffset (img : Cell) (set way : Nat) (mirror : Bool) : Nat :=
  (16 * (dieOf img % 2) + img.val % 16) * 0x10000000 + set * 0x100 + way * 0x10 + (if mirror then 0x200000000 else 0)
/-- The image cell of an offset in the copy that the controller of die d keeps. -/
def offsetCell (d off : Nat) : Cell :=
  let q := if off < 0x200000000 then dieQuarter d else dieQuarter ((d + 4) % 8)
  let slab := off % 0x200000000 / 0x10000000
  Cell.of ((q % 2 * 4 + q / 2 * 2 + slab / 16) * 16 + slab % 16)
/-- Key of a directory entry. -/
def dirKey (img : Cell) (set way : Nat) : Nat := (img.val * 2 ^ 20 + set) * 16 + way

/-! ### The directory cache (R166, R167) -/

def cacheKey (h : Cell) (set : Nat) : Nat := h.val * 512 + set % 512
/-- The cached copy of a set, if there is one. -/
def State.cset (s : State) (h img : Cell) (set : Nat) : Option CSet :=
  (mgetD [] s.home.cache (cacheKey h set)).find? (fun x => x.img == img && x.set == set)
/-- A copy is pinned while it holds a transient entry, or a request waits for a line or a way of its set, or for the set itself (R166). -/
def State.pinned (s : State) (h : Cell) (x : CSet) : Bool :=
  x.ways.any (fun e => e.st.transient)
    || s.home.tt.any (fun (e : Nat × Txn) => e.1 / 1024 == h.val && !e.2.proxy
      && (e.2.phase == .chain || e.2.phase == .park || e.2.phase == .pin || e.2.awDir)
      && dirSet e.2.req.line == x.set && s.slabCell h e.2.req.line == x.img)
/-- Puts a copy in front as the most recent one, over the least recently used unpinned copy of a full index. -/
def State.putCset (s : State) (h : Cell) (x : CSet) : State :=
  let l := (mgetD [] s.home.cache (cacheKey h x.set)).filter (fun y => !(y.img == x.img && y.set == x.set))
  let l := if l.length < 8 then l
    else match l.reverse.find? (fun y => !s.pinned h y) with
      | some v => l.filter (fun y => !(y.img == v.img && y.set == v.set))
      | none => l
  { s with home.cache := mset [] s.home.cache (cacheKey h x.set) (x :: l) }
/-- Every way of an index is pinned by another set. -/
def State.indexPinned (s : State) (h : Cell) (set : Nat) : Bool :=
  let l := mgetD [] s.home.cache (cacheKey h set)
  l.length ≥ 8 && l.all (fun x => s.pinned h x)
/-- AGE of a way of a cached copy. -/
def State.wayAge (s : State) (h img : Cell) (set way : Nat) : Fin 16 :=
  (((s.cset h img set).bind (fun x => x.ways[way]?)).map (·.age)).getD 0
/-- Rewrites one way of a cached copy. Its AGE moves with touches only (R182). -/
def State.setWay (s : State) (h img : Cell) (set way : Nat) (e : DirEntry) : State :=
  let e := { e with age := s.wayAge h img set way }
  { s with
    home.cache := mmod [] s.home.cache (cacheKey h set)
      (fun l => l.map (fun x => if x.img == img && x.set == set then { x with ways := x.ways.set way e } else x)) }
/-- The way of a line in a copy. -/
def CSet.wayOf (x : CSet) (line : Nat) : Option Nat :=
  x.ways.findIdx? (fun e => e.line.toNat == line && e.st != .I)
/-- A way in state I. -/
def CSet.freeWay (x : CSet) : Option Nat := x.ways.findIdx? (fun e => e.st == .I)
/-- The unblocked way with the highest AGE, the lowest way among equals (R182). -/
def CSet.victim (x : CSet) : Option Nat :=
  ((List.range x.ways.length).foldl (fun acc i =>
    match x.ways[i]? with
    | some e => if e.st.transient then acc else
        match acc with
        | some (j, a) => if e.age.val > a then some (i, e.age.val) else some (j, a)
        | none => some (i, e.age.val)
    | none => acc) (none : Option (Nat × Nat))).map (·.1)
/-- A touch of one way: its AGE becomes 0 and the others age by one, up to 15 (R182). -/
def CSet.touch (x : CSet) (way : Nat) : CSet :=
  { x with ways := x.ways.mapIdx (fun i e => if i = way then { e with age := 0 }
      else { e with age := Fin.ofNat 16 (min 15 (e.age.val + 1)) }) }

/-! ### The transaction table (R169) -/

def State.txn (s : State) (h : Cell) (id : Htid) : Option Txn := mget s.home.tt (h.val * 1024 + id.val)
def State.setTxn (s : State) (h : Cell) (id : Htid) (t : Txn) : State :=
  { s with home.tt := mput s.home.tt (h.val * 1024 + id.val) t }
/-- The transactions of a cell, by entry. -/
def State.txns (s : State) (h : Cell) : List (Htid × Txn) :=
  (s.home.tt.filter (fun e => e.1 / 1024 == h.val)).map (fun e => (Fin.ofNat 1024 e.1, e.2))
/-- A free entry among the n that start at lo. -/
def State.freeHtid (s : State) (h : Cell) (lo n : Nat) : Option Htid :=
  ((List.range n).find? (fun i => (mget s.home.tt (h.val * 1024 + lo + i)).isNone)).map (fun i => Fin.ofNat 1024 (lo + i))
/-- General entries 0 to 927, eviction entries 928 to 991, internal entries 992 to 1,023 (DESIGN CHOICE, log 10). -/
def State.freeGeneral (s : State) (h : Cell) : Option Htid := s.freeHtid h 0 928
def State.freeEvict (s : State) (h : Cell) : Option Htid := s.freeHtid h 928 64
def State.freeInternal (s : State) (h : Cell) : Option Htid := s.freeHtid h 992 32
/-- SNP_MAX with its limits (Table 6-10). -/
def State.snpMax (s : State) (h : Cell) : Nat := max 64 (min 256 (s.rd (F.HOME_CFG_SNP_MAX h)))
/-- Takes an entry, with its counts and high-water mark, under the values of HOME_CFG that stand now (R188). -/
def State.openTxn (s : State) (h : Cell) (id : Htid) (t : Txn) : State :=
  let s := { s.setTxn h id { t with ord := s.home.ord, snpMax := s.snpMax h } with home.ord := s.home.ord + 1 }
  let s := s.inc (F.HOME_TT_IN_USE h)
  let s := s.raise (F.HOME_TT_HWM h) (s.rd (F.HOME_TT_IN_USE h))
  if id.val ≥ 992 then s.inc (F.HOME_TT_INT_USE h) else if id.val ≥ 928 then s.inc (F.HOME_TT_EV_USE h) else s
/-- Frees an entry. -/
def State.closeTxn (s : State) (h : Cell) (id : Htid) : State :=
  match s.txn h id with
  | none => s
  | some _ =>
    let s := { s with home.tt := mdel s.home.tt (h.val * 1024 + id.val) }
    let s := s.dec (F.HOME_TT_IN_USE h)
    if id.val ≥ 992 then s.dec (F.HOME_TT_INT_USE h) else if id.val ≥ 928 then s.dec (F.HOME_TT_EV_USE h) else s
/-- A transaction that keeps its line blocked, or keeps the line's place in order (R170, R205). -/
def Txn.blocks (t : Txn) : Bool := t.phase != .chain && (t.phase != .ack || t.awMrd)
/-- The line of home h is blocked. -/
def State.lineBlocked (s : State) (h : Cell) (line : Nat) : Bool :=
  (s.txns h).any (fun (_, t) => !t.proxy && t.blocks && t.req.line == line)
/-- A request waits in the line's chain. -/
def State.lineChained (s : State) (h : Cell) (line : Nat) : Bool :=
  (s.txns h).any (fun (_, t) => !t.proxy && t.phase == .chain && t.req.line == line)

/-! ### The extent map (R224) -/

def State.extOf (s : State) (c : Cell) (e : Nat) : ExtEnt := mgetD {} s.home.ext (c.val * 65536 + e)

/-! ### Messages a home or proxy sends -/

/-- A message of the transaction of request r, from cell h. -/
def reply (h : Cell) (id : Htid) (r : Pkt) (o : Opc) (dst : Cell) : Pkt :=
  { opc := o, src := h, dst := dst, tagCell := r.tagCell, tagSlot := r.tagSlot, gen := r.gen, inst := r.inst,
    priv := r.priv, addr := r.addr, tc := r.tc, hslot := r.hslot, htid := id, bmask := r.bmask, mcell := r.mcell }
/-- MRD to the MEMORY cell of the extent (R176); the entry awaits its MCMP. -/
def State.sendMrd (s : State) (h : Cell) (id : Htid) (t : Txn) : Txn × State :=
  if t.mrdSent then (t, s)
  else
    let m := (s.extOf h t.req.ext).mcell
    ({ t with mrdSent := true, awMrd := true }, s.send { reply h id t.req .mrd m with mcell := m, home := h })
/-- GRANT of a state (R172). -/
def State.sendGrant (s : State) (h : Cell) (id : Htid) (t : Txn) : Txn × State :=
  let m := (s.extOf h t.req.ext).mcell
  ({ t with granted := true }, s.send { reply h id t.req .grant t.req.tagCell with mv := t.grantMv, mcell := m })
/-- WGO to the originating cell of a write (R176). -/
def State.sendWgo (s : State) (h : Cell) (id : Htid) (r : Pkt) : State :=
  let m := (s.extOf h r.ext).mcell
  s.send { reply h id r .wgo r.tagCell with mcell := m }
/-- WCMP to the originating cell, which completes a write that reaches no memory, or a CLNEVCT (DEDUCED, log 11). -/
def State.sendWcmp (s : State) (h : Cell) (id : Htid) (r : Pkt) : State :=
  s.send (reply h id r .wcmp r.tagCell)
/-- An RDATA of the home's own: zeros, or poison (R224, R230). -/
def State.sendOwnData (s : State) (h : Cell) (id : Htid) (r : Pkt) (poison : Bool) : State :=
  s.send { reply h id r .rdata r.tagCell with len := 1, data := [0], pois := poisOne poison }
/-- The copies of an image cell's directory that are in service: die of the controller, and whether it is the mirror. -/
def State.dirCopies (s : State) (img : Cell) : List (Nat × Bool) :=
  let p := primaryDie (dieOf img)
  let m := (p + 4) % 8
  (if s.rd (F.DIR_STACK_STATUS_PRI_STATE p) = 3 then [] else [(p, false)])
    ++ (if s.rd (F.DIR_STACK_STATUS_MIR_STATE m) = 3 then [] else [(m, true)])
/-- The copies a set may be read from: homes read only the source while a target is rebuilding (R214). -/
def State.dirReadCopies (s : State) (img : Cell) : List (Nat × Bool) :=
  (s.dirCopies img).filter (fun c =>
    (if c.2 then s.rd (F.DIR_STACK_STATUS_MIR_STATE c.1) else s.rd (F.DIR_STACK_STATUS_PRI_STATE c.1)) != 2)
/-- The copies whose acknowledgement makes a write durable: the source's alone while a target is rebuilding (R214), the target's where the quarter
has no other copy (R215). -/
def State.durable (s : State) (img : Cell) : List (Nat × Bool) :=
  if (s.dirReadCopies img).isEmpty then s.dirCopies img else s.dirReadCopies img
/-- The controllers whose acknowledgement makes nothing durable. -/
def State.rsTargets (s : State) (img : Cell) : List Cell :=
  ((s.dirCopies img).filter (fun c => !(s.durable img).contains c)).map (fun c => ctrlCell c.1)
/-- DIRWR of one entry to every copy in service (R158); answers how many DIRACKs that awaits. -/
def State.sendDirwr (s : State) (h : Cell) (id : Htid) (r : Pkt) (img : Cell) (set way : Nat) (e : DirEntry) : Nat × State :=
  let cs := s.dirCopies img
  ((s.durable img).length, s.sendAll (cs.map (fun (d, mir) =>
    { reply h id r .dirwr (ctrlCell d) with
      addr := BitVec.ofNat 52 (dirOffset img set way mir), tc := 4, len := 1,
      bmask := BitVec.ofNat 64 (maskAt (way % 4 * 16) 16),
      data := [BitVec.ofNat 512 (e.enc.toNat * 2 ^ (128 * (way % 4)))] })))
/-- DIRRD of a set to the first copy in service (R159, R161); without one it says so. A set recovered while its quarter has no whole copy is read
from the target that it was written to (R215). -/
def State.sendDirrd (s : State) (h : Cell) (id : Htid) (r : Pkt) (img : Cell) (set : Nat) : Option State :=
  match s.dirReadCopies img ++ (if (mget s.home.lostSets (img.val * 2 ^ 20 + set)).isSome then s.dirCopies img else []) with
  | [] => none
  | (d, mir) :: _ =>
    some <| s.send { reply h id r .dirrd (ctrlCell d) with addr := BitVec.ofNat 52 (dirOffset img set 0 mir), tc := 4 }

/-- Twin of a slot, if the image declares one (R210). -/
def State.twinOf (s : State) (h : Cell) (hs : HSlot) : Option HSlot :=
  if s.rd (F.HOME_TWIN_VALID h (hs.val / 8) (hs.val % 8)) = 1 then
    some (Fin.ofNat 128 (s.rd (F.HOME_TWIN_TWIN h (hs.val / 8) (hs.val % 8))))
  else none
/-- Cell h has learnt that the slot is lost (R210). -/
def State.slotLost (s : State) (h : Cell) (hs : HSlot) : Bool := s.home.twinLost.contains (h.val * 128 + hs.val)
/-- The anchor of a slot's own port; cell 0, which the ANCHOR field's zero names, for a slot that the image does not configure, such as one of a
coarse pair (DESIGN CHOICE, log 136). -/
def State.ownAnchor (s : State) (h : Cell) (hs : HSlot) : Cell := Cell.of (s.rd (F.HOME_SLOT_ANCHOR h (hs.val / 8) (hs.val % 8)))
/-- The anchor that answers for a slot: its own, or its twin's while the slot is lost (R210). -/
def State.anchorFor (s : State) (h : Cell) (hs : HSlot) : Cell :=
  if s.slotLost h hs then
    match s.twinOf h hs with
    | some t => s.ownAnchor h t
    | none => s.ownAnchor h hs
  else s.ownAnchor h hs
/-- Two slots are one holder: equal, or twins of which one is lost (R210). -/
def State.sameHolder (s : State) (h : Cell) (a b : HSlot) : Bool :=
  a == b || (s.twinOf h a == some b && (s.slotLost h a || s.slotLost h b))
/-- Every configured slot of the domain. -/
def State.allSlots (s : State) (h : Cell) : List HSlot :=
  ((List.range 96).filter (fun i => s.rd (F.HOME_SLOT_VALID h (i / 8) (i % 8)) = 1)).map (Fin.ofNat 128)

/-- One BISnp of a transaction, to the anchor of a slot; its answer is awaited, also from a slot of a coarse pair that the image does not
configure (DESIGN CHOICE, log 136). -/
def State.sendSnoop (s : State) (h : Cell) (id : Htid) (t : Txn) (o : Opc) (hs : HSlot) : State :=
  let s := s.send { reply h id t.req o (s.anchorFor h hs) with hslot := hs }
  ((s.inc (F.HOME_BISNPS_COUNT h)).inc (F.HOME_TT_SNP_OUT h)).ctrEvent h 0x11 []
/-- The snoop a transaction sends: by the request and the state found (Table 6-6). -/
def Txn.snoopOpc (t : Txn) : Opc :=
  match t.phase, t.req.opc with
  | .snp, .rds => .bisnpdata
  | .snp, .rdi => .bisnpcur
  | _, _ => .bisnpinv
/-- A write or CLNEVCT. -/
def Opc.gives (o : Opc) : Bool := o = .wri || o = .wra || o = .wrptl || o = .clnevct
/-- Tag and generation of a packet. -/
def Pkt.tagGen (p : Pkt) : Cell × Slot × Gen := (p.tagCell, p.tagSlot, p.gen)
/-- A request for a line of a FREE extent is counted (R224). -/
def State.freeCount (s : State) (h : Cell) (p : Pkt) : State := if (s.extOf h p.ext).st = .free then s.inc (F.HOME_PROTO_COUNT h) else s
/-- A write or CLNEVCT of a host that transaction t has snooped: WGO or completion at once, counted as the snoop's data (R178). -/
def State.takeWb (s : State) (h : Cell) (id : Htid) (t : Txn) (p : Pkt) : Txn × State :=
  if p.opc = .clnevct ∨ (s.extOf h p.ext).noMem then (t, (s.freeCount h p).sendWcmp h id p)
  else ({ t with awWb := t.awWb ++ [Pkt.tagGen p] }, s.sendWgo h id p)

/-! ### The intake and its ring (R168) -/

/-- Stack offset of place n of an image cell's ring, in its primary or its mirror copy. -/
def ringOffset (img : Cell) (n : Nat) (mirror : Bool) : Nat :=
  (if mirror then 0x588000000 else 0x580000000) + (16 * (dieOf img % 2) + img.val % 16) * 0x400000 + n * 32
def ringKey (img : Cell) (n : Nat) (c : Nat × Bool) : Nat := dieStack c.1 * 2 ^ 40 + ringOffset img n c.2
/-- Counts of HOME_INTAKE. -/
def State.intakeCounts (s : State) (h : Cell) : State :=
  let l := mgetD [] s.home.intake h.val
  let n := (l.filter (fun r => r.ring.isSome)).length
  let s := (s.wr (F.HOME_INTAKE_SRAM_USED h) (l.length - n)).wr (F.HOME_INTAKE_RING_USED h) n
  s.raise (F.HOME_INTAKE_RING_HWM h) n
/-- A place of the ring is empty again. -/
def State.ringFree (s : State) (h : Cell) (r : HReq) : State :=
  match r.ring with
  | none => s
  | some n =>
    let img := s.slabCell h r.p.line
    { s with home.ring := mkeep (fun k _ => k != ringKey img n (primaryDie (dieOf img), false)
        && k != ringKey img n ((primaryDie (dieOf img) + 4) % 8, true)) s.home.ring }
/-- A request joins the intake: 256 stand in SRAM, the next ones in order in the ring of the slab of their line (R168, R207). -/
def State.intakePut (s : State) (h : Cell) (r : HReq) : State :=
  let l := mgetD [] s.home.intake h.val
  let img := s.slabCell h r.p.line
  let (s, r) : State × HReq :=
    if l.length < 256 then (s, r)
    else
      let n := match (l.filter (fun x => x.ring.isSome && s.slabCell h x.p.line == img)).getLast? with
        | some x => (x.ring.getD 0 + 1) % 131072
        | none => 0
      ({ s with home.ring := (s.dirCopies img).foldl (fun m c => mput m (ringKey img n c) r.p) s.home.ring }, { r with ring := some n })
  ({ s with home.intake := mset [] s.home.intake h.val (l ++ [r]) }).intakeCounts h
/-- Requests leave the intake; the oldest ones of the ring move into SRAM as the copy in service has them. -/
def State.intakeTake (s : State) (h : Cell) (go : HReq → Bool) : State :=
  let l := mgetD [] s.home.intake h.val
  let s := (l.filter go).foldl (fun s r => s.ringFree h r) s
  let rest := l.filter (fun r => !go r)
  let up := (rest.take 256).filter (fun r => r.ring.isSome)
  let load (r : HReq) : HReq := match r.ring with
    | some n =>
      let img := s.slabCell h r.p.line
      { r with p := ((s.dirReadCopies img).head?.bind (fun c => mget s.home.ring (ringKey img n c))).getD r.p, ring := none }
    | none => r
  let q := (rest.take 256).map load ++ rest.drop 256
  let s := up.foldl (fun s r => s.ringFree h r) s
  ({ s with home.intake := mset [] s.home.intake h.val q }).intakeCounts h

/-! ### Snoops (R165, R187) -/

/-- What already waits behind the block, in the line's chain or in the intake, of a host that has now been snooped: its writes are taken as the
snoop's data (R178). -/
def State.pullWrites (s : State) (h : Cell) (id : Htid) (t : Txn) (hs : HSlot) : Txn × State :=
  let mine (p : Pkt) : Bool := Opc.gives p.opc && p.line == t.req.line && p.hslot == hs
  let ch := ((s.txns h).filter (fun x => !x.2.proxy && x.2.phase == .chain && mine x.2.req)).mergeSort (fun a b => decide (a.2.ord ≤ b.2.ord))
  let q := (mgetD [] s.home.intake h.val).filter (fun r => mine r.p)
  let (t, s) := ch.foldl (fun (x : Txn × State) (c : Htid × Txn) => (x.2.closeTxn h c.1).takeWb h id x.1 c.2.req) (t, s)
  if q.isEmpty then (t, s)
  else q.foldl (fun (x : Txn × State) (r : HReq) => (x.2.inc (F.HOME_REQS_COUNT h)).takeWb h id x.1 r.p) (t, s.intakeTake h (fun r => mine r.p))
/-- Sends as many of the waiting snoops as SNP_MAX allows (R187); the others stay in snpWait. -/
def State.sendSnoops (s : State) (h : Cell) (id : Htid) (t : Txn) : Txn × State :=
  let room := t.snpMax - s.rd (F.HOME_TT_SNP_OUT h)
  let now := t.snpWait.take room
  now.foldl (fun (x : Txn × State) hs => (x.2.sendSnoop h id x.1 t.snoopOpc hs).pullWrites h id x.1 hs) ({ t with snpWait := t.snpWait.drop room }, s)
/-- Starts a snoop round: the slots are awaited at once, and sent as SNP_MAX allows. -/
def State.startSnoops (s : State) (h : Cell) (id : Htid) (t : Txn) (hs : List HSlot) : Txn × State :=
  s.sendSnoops h id { t with snooped := t.snooped ++ hs, awSnp := t.awSnp ++ hs, snpWait := t.snpWait ++ hs }
/-- FWD to the proxies of slots, with the state the owner may keep (R197). -/
def State.startFwds (s : State) (h : Cell) (id : Htid) (t : Txn) (hs : List HSlot) (keep : Mv) : Txn × State :=
  let m := (s.extOf h t.req.ext).mcell
  ({ t with awFwd := t.awFwd ++ hs, fwdMv := keep },
   hs.foldl (fun s x =>
     ((s.send { reply h id t.req .fwd (s.anchorFor h x) with mv := keep, mcell := m }).inc (F.HOME_FWDS_COUNT h)).ctrEvent h 0x12 []) s)

end Sys2Proof.Machine
end

