-- ==== Sys2Proof/Machine/HomeFlow.lean ====
section
/-! DEFINITION. The flows of a coherence home: how a request departs from the intake, what row of Table 6-6 it runs, and
what happens when the last message a transaction awaits has arrived. -/

namespace Sys2Proof.Machine

/-- The home is the slot's recorded holder, counting a lost twin as the slot itself (R210). -/
def State.otherHolders (s : State) (h : Cell) (e : DirEntry) (r : HSlot) : List HSlot :=
  e.holders.filter (fun x => !s.sameHolder h x r)

/-- Writes the line's stable entry back over its transient, in the cached copy. -/
def State.settle (s : State) (h : Cell) (t : Txn) (e : DirEntry) : State :=
  s.setWay h (s.slabCell h t.req.line) (dirSet t.req.line) t.way { e with line := BitVec.ofNat 46 t.req.line }
/-- Marks the line's cached entry with a transient state (R163). -/
def State.block (s : State) (h : Cell) (t : Txn) (st : DState) : State :=
  s.setWay h (s.slabCell h t.req.line) (dirSet t.req.line) t.way
    ({ t.found with line := BitVec.ofNat 46 t.req.line }.inState st)
/-- Durable write of an entry of the line of t (R158): DIRWR to each copy; the DIRACKs are added to what t awaits. -/
def State.writeEntry (s : State) (h : Cell) (id : Htid) (t : Txn) (e : DirEntry) : Txn × State :=
  let img := s.slabCell h t.req.line
  let set := dirSet t.req.line
  let (n, s) := s.sendDirwr h id t.req img set t.way { e with line := BitVec.ofNat 46 t.req.line, age := s.wayAge h img set t.way }
  ({ t with awAck := t.awAck + n, rsAck := t.rsAck ++ s.rsTargets img }, s)

/-- Ends a transaction whose line leaves its transient state: the entry becomes `next`, and the table entry frees once
no DIRACK is awaited. -/
def State.finish (s : State) (h : Cell) (id : Htid) (t : Txn) : State :=
  let s := s.settle h t t.next
  if t.awAck = 0 ∧ t.rsAck = [] then s.closeTxn h id else s.setTxn h id { t with phase := .ack }

/-- The end of B_RD: GRANT as soon as the write it needs is durable (R158; a GRANT I needs none), then the end of the
transaction once DIRACK, MCMP and DONE have all arrived (Table 6-3). -/
def State.advanceRd (s : State) (h : Cell) (id : Htid) (t : Txn) : State :=
  let (t, s) := if !t.granted && (t.awAck = 0 || t.grantMv = .I) then s.sendGrant h id t else (t, s)
  if t.granted && t.awAck = 0 && !t.awMrd && !t.awDone then s.finish h id t else s.setTxn h id t

/-- Takes a read, INVA or ownership request into B_RD: MRD unless the row has none, the durable write if the entry
changes, and the GRANT (R176). -/
def State.grantFlow (s : State) (h : Cell) (id : Htid) (t : Txn) (next : DirEntry) (mv : Mv) : State :=
  let t := { t with phase := .rd, next := next, grantMv := mv, awDone := true }
  let s := s.block h t .bRd
  let (t, s) := if t.req.opc = .inva then (t, s) else s.sendMrd h id t
  let same := next.st = t.found.st ∧ next.owner = t.found.owner ∧ next.presence = t.found.presence ∧ next.coarse = t.found.coarse
  -- a grant of E writes the entry again, but for an owner's request on EO, which leaves the directory as it is (R194)
  let force := (t.req.opc = .rda ∨ t.req.opc = .inva) ∧ t.found.st ≠ .EO
  let (t, s) := if same ∧ ¬force then (t, s) else s.writeEntry h id t next
  s.advanceRd h id t

/-- Takes a write into B_WR: WGO, and the MCMP is awaited (R176). -/
def State.writeFlow (s : State) (h : Cell) (id : Htid) (t : Txn) (next : DirEntry) : State :=
  let t := { t with phase := .wr, next := next, awMrd := true }
  let s := (s.block h t .bWr).sendWgo h id t.req
  s.setTxn h id t

/-- What follows the last snoop answer, or finds no snoop to send: the rest of the row (Table 6-6). `t.found` is the
entry as the answers left it. -/
def State.afterSnoops (s : State) (h : Cell) (id : Htid) (t : Txn) : State :=
  let l := t.req.line
  let hs := t.req.hslot
  let own := ownedBy l (s.unified h) hs
  let x := s.extOf h t.req.ext
  let rdReq := t.req.opc = .rds ∨ t.req.opc = .rda ∨ t.req.opc = .rdi
  let wrReq := t.req.opc = .wri ∨ t.req.opc = .wra ∨ t.req.opc = .wrptl
  if x.noMem ∧ rdReq then
    -- the extent was lost while the snoops were out (R230); an MRD already sent is answered where it went
    let s := if t.mrdSent then s else (s.freeCount h t.req).sendOwnData h id t.req (x.st = .lost)
    (s.block h t .bRd).advanceRd h id { t with phase := .rd, grantMv := .I, awDone := true, noMem := true, next := t.found }
  else if x.noMem ∧ wrReq then ((s.freeCount h t.req).sendWcmp h id t.req).finish h id { t with noMem := true, next := t.found }
  else match t.req.opc with
  | .rds => s.grantFlow h id t (t.found.addSharer hs) .S
  | .rda | .inva => s.grantFlow h id t own .E
  | .rdi => s.grantFlow h id t t.found .I
  | .wra => s.writeFlow h id t (if t.found.st = .E ∨ t.found.st = .EO then t.found else t.found.clear)
  | .recall =>
    let (t, s) := s.writeEntry h id { t with next := t.found } t.found
    let s := s.send (reply h id t.req .rcmp t.req.tagCell)
    s.finish h id t
  | _ => s.writeFlow h id t t.found.clear

/-- The entry after the answers of a snoop round: who is left (Table 6-6, R199). -/
def Txn.afterAnswers (t : Txn) : DirEntry :=
  match t.req.opc, t.phase with
  | .rds, .snp =>
    t.answers.foldl (fun e (a : HSlot × Mv) => if a.2 = .I then e.dropHolder a.1
      else (({ e with st := .S, owner := 0, presence := 0, coarse := false } : DirEntry).addSharer a.1)) t.found
  | .rdi, .snp =>
    t.answers.foldl (fun e (a : HSlot × Mv) => match a.2 with
      | .I => e.dropHolder a.1
      | .S => (({ e with st := .S, owner := 0, presence := 0, coarse := false } : DirEntry).addSharer a.1)
      | .E => e) t.found
  | _, _ => match t.only with
    | some o => t.found.dropHolder o
    | none => t.found.clear

/-- A request of the owner for a line in EO(O) is handled without a snoop of O, and the directory stays EO(O) (R194). -/
def State.ownerRow (s : State) (h : Cell) (id : Htid) (t : Txn) : State :=
  match t.req.opc with
  | .rds => s.grantFlow h id t t.found .S
  | .rda | .inva => s.grantFlow h id t t.found .E
  | .rdi => s.grantFlow h id t t.found .I
  | .wra => s.writeFlow h id t t.found
  | _ => s.writeFlow h id t t.found.clear

/-- CLNEVCT: H is removed if it is recorded, the result is written, and the request completes at once (Table 6-6);
from a host that is not recorded it changes nothing and is counted (R179). -/
def State.clnevctRow (s : State) (h : Cell) (id : Htid) (t : Txn) : State :=
  let mine := t.found.holders.any (fun x => s.sameHolder h x t.req.hslot)
  let s := s.sendWcmp h id t.req
  if mine then
    let next := t.found.holders.foldl (fun e x => if s.sameHolder h x t.req.hslot then e.dropHolder x else e) t.found
    let (t, s) := s.writeEntry h id { t with next := next } next
    s.finish h id t
  else ((s.inc (F.HOME_PROTO_COUNT h)).settle h t t.found).closeTxn h id

/-- The state a FWD of a request lets the owner keep (R197). -/
def fwdKeep : Opc → Mv
  | .rds => .S
  | .rdi => .E
  | _ => .I

/-- The row of Table 6-6 for a request whose line stands unblocked in way t.way with entry t.found. -/
def State.runRow (s : State) (h : Cell) (id : Htid) (t : Txn) : State :=
  let e := t.found
  let r := t.req
  let x := s.extOf h r.ext
  let rdReq := r.opc = .rds ∨ r.opc = .rda ∨ r.opc = .rdi
  let wrReq := r.opc = .wri ∨ r.opc = .wra ∨ r.opc = .wrptl
  if x.noMem && decide (rdReq ∨ wrReq) || decide (x.st = .free ∧ (r.opc = .inva ∨ r.opc = .clnevct)) then
    -- R224 and R230: no MRD and no WGO; the directory is unchanged
    let s := if x.st = .free then s.inc (F.HOME_PROTO_COUNT h) else s
    let s := s.settle h t e
    let t := { t with noMem := true, next := e }
    if rdReq then
      let s := s.sendOwnData h id r (x.st = .lost)
      (s.block h t .bRd).advanceRd h id { t with phase := .rd, grantMv := .I, awDone := true }
    else if r.opc = .inva then
      (s.block h t .bRd).advanceRd h id { t with phase := .rd, grantMv := .I, awDone := true }
    else (s.sendWcmp h id r).closeTxn h id
  else if r.opc = .clnevct then s.clnevctRow h id t
  else
    let mine := e.holders.any (fun y => s.sameHolder h y r.hslot)
    let others := if r.opc = .recall then
        (match t.only with | some o => e.holders.filter (· == o) | none => e.holders)
      else s.otherHolders h e r.hslot
    let s := if decide wrReq && !mine && r.hslot.val < 96 then s.inc (F.HOME_PROTO_COUNT h) else s
    -- a WRA from a host that is not the owner is performed as a WRI (R179)
    let r := if r.opc = .wra ∧ ¬(mine ∧ (e.st = .E ∨ e.st = .EO)) then { r with opc := .wri } else r
    let t := { t with req := r }
    if e.st = .EO then
      if others = [] then (if r.opc = .recall then s.afterSnoops h id t else s.ownerRow h id t)
      else
        let (t, s) := (s.block h t .bFwd).startFwds h id { t with phase := .fwd } others (fwdKeep r.opc)
        s.setTxn h id t
    else match r.opc with
      | .rds => if e.st = .E ∧ others ≠ [] then
          let (t, s) := (s.block h t .bSnp).startSnoops h id { t with phase := .snp } others
          s.setTxn h id t
        else s.grantFlow h id t ((if mine ∧ e.st = .E then e.clear else e).addSharer r.hslot) .S
      | .rdi => if e.st = .E ∧ others ≠ [] then
          let (t, s) := (s.block h t .bSnp).startSnoops h id { t with phase := .snp } others
          s.setTxn h id t
        else s.grantFlow h id t e .I
      | _ =>
        if others = [] then s.afterSnoops h id t
        else
          let ph := if r.opc = .recall then Phase.rc else Phase.snp
          let s := s.block h t (if r.opc = .recall then .bRc else .bSnp)
          let t := { t with phase := ph }
          -- in state S memory is current: the MRD goes out with the snoops
          let (t, s) := if r.opc = .rda ∧ e.st = .S then s.sendMrd h id t else (t, s)
          let (t, s) := s.startSnoops h id t others
          s.setTxn h id t

/-- Every host that could hold the line is asked for it: forwards in the unified domain, snoops elsewhere. -/
def State.askAll (s : State) (h : Cell) (id : Htid) (t : Txn) : Txn × State :=
  if s.unified h then s.startFwds h id t (s.allSlots h) .I else s.startSnoops h id t (s.allSlots h)
/-- Lost-set recovery of the line of t: BISnpInv to every slot of the domain, or FWD with META I to every proxy in the
unified topology (R160, R197). It runs in one of the entries kept for it (R169): the request's own if that is one, else another, while the
request waits; with none free the request waits for one. -/
def State.startLost (s : State) (h : Cell) (id : Htid) (t : Txn) : State :=
  let run (s : State) (k : Htid) (t : Txn) : State :=
    let t := { t with phase := .lost, found := { line := BitVec.ofNat 46 t.req.line } }
    let r := ((s.inc (F.HOME_LOST_COUNT h)).block h t .bLost).askAll h k t
    r.2.setTxn h k r.1
  if id.val ≥ 992 then run s id t
  else
    let s := s.setTxn h id { t with phase := .pin }
    match s.freeInternal h with
    | none => s
    | some k =>
      let u : Txn := { req := { t.req with opc := .recall, src := h, dst := h, tagCell := h, tagSlot := 0x3FF, gen := 0, hslot := 127 },
                       ord := s.home.ord, snpMax := s.snpMax h, phase := .lost, way := t.way, evictFor := some id }
      run (s.openTxn h k u) k u

/-- Puts an allocation that finds every way blocked into the park queue: a shared slot, or OVERFLOW until one frees (R204). -/
def State.parkReq (s : State) (h : Cell) (id : Htid) (t : Txn) : State :=
  if s.rd (F.HOME_PARK_SHARED_USE h) < 32 then
    (((s.setTxn h id { t with phase := .park }).inc (F.HOME_PARKS_COUNT h)).ctrEvent h 0x14 []).inc (F.HOME_PARK_SHARED_USE h)
  else (s.setTxn h id { t with phase := .park, inOvf := true }).sat (F.HOME_PARK_OVERFLOW h)
/-- A shared park slot frees: the oldest request in OVERFLOW enters it (R204). -/
def State.freeShared (s : State) (h : Cell) : State :=
  match ((s.txns h).filter (fun x => x.2.phase == .park && x.2.inOvf)).mergeSort (fun a b => decide (a.2.ord ≤ b.2.ord)) with
  | (id, t) :: _ =>
    ((((s.setTxn h id { t with inOvf := false }).dec (F.HOME_PARK_OVERFLOW h)).inc (F.HOME_PARKS_COUNT h)).ctrEvent h 0x14 [])
  | [] => s.dec (F.HOME_PARK_SHARED_USE h)

/-- A request leaves the park queue, when it has its way (R204). -/
def State.unpark (s : State) (h : Cell) (id : Htid) (t : Txn) : State :=
  if t.phase ≠ .park then s
  else if t.inOvf then s.dec (F.HOME_PARK_OVERFLOW h)
  else (s.setTxn h id { t with phase := .lookup }).freeShared h

/-- The line of t has way w of a cached copy and entry e: runs its row, or lost-set recovery first. -/
def State.withWay (s : State) (h : Cell) (id : Htid) (t : Txn) (x : CSet) (w : Nat) (e : DirEntry) : State :=
  let s := s.unpark h id t
  let t := { t with way := w, found := { e with line := BitVec.ofNat 46 t.req.line }, phase := if t.phase == .park then .lookup else t.phase, inOvf := false }
  let s := s.putCset h (x.touch w)
  let k := x.img.val * 2 ^ 20 + x.set
  match mget s.home.lostSets k with
  | some done => if done.contains t.req.line then s.runRow h id t else s.startLost h id t
  | none => s.runRow h id t

/-- Starts the eviction of victim way v for transaction id (R182): B_EV in an eviction entry, BISnpInv to every holder,
or FWD with META I for an EO victim (R197). A parked request keeps its park slot until it has the way (R205). With no eviction entry free the
request waits for one. -/
def State.evict (s : State) (h : Cell) (id : Htid) (t : Txn) (x : CSet) (v : Nat) : State :=
  match s.freeEvict h, x.ways[v]? with
  | some ev, some e =>
    let s := s.setTxn h id { t with phase := if t.phase == .park then .park else .pin }
    let s := s.inc (F.HOME_EVICTS_COUNT h)
    let t' : Txn :=
      { req := { opc := .recall, src := h, dst := h, tagCell := h, tagSlot := 0x3FF,
                 addr := BitVec.ofNat 52 (e.line.toNat * 64), hslot := 127 },
        ord := 0, phase := .ev, found := e, next := e.clear, way := v, evictFor := some id }
    let s := s.openTxn h ev t'
    let s := s.setWay h x.img x.set v (e.inState .bEv)
    let t' := { t' with ord := s.home.ord - 1, snpMax := s.snpMax h }
    let (t', s) := if e.st = .EO then s.startFwds h ev t' e.holders .I else s.startSnoops h ev t' e.holders
    s.setTxn h ev t'
  | _, _ => s.setTxn h id { t with phase := if t.phase == .park then .park else .pin }

/-- An older request waits for a way of the same set, with none being freed for it (R205). -/
def State.olderWaits (s : State) (h : Cell) (id : Htid) (t : Txn) : Bool :=
  (s.txns h).any (fun (i, u) => i != id && !u.proxy && (u.phase == .park || u.phase == .pin) && u.evictFor.isNone && decide (u.ord < t.ord)
    && dirSet u.req.line == dirSet t.req.line && s.slabCell h u.req.line == s.slabCell h t.req.line
    && !(s.txns h).any (fun (_, v) => v.evictFor == some i))
/-- Finds the way of a request whose set is cached: its own, a free one, or a victim's (R182), unless an older request waits for a way of the set
(R205). -/
def State.place (s : State) (h : Cell) (id : Htid) (t : Txn) (x : CSet) : State :=
  match x.wayOf t.req.line with
  | some w => s.withWay h id t x w ((x.ways[w]?).getD {})
  | none =>
    if s.olderWaits h id t then (if t.phase = .park then s.setTxn h id t else s.parkReq h id t)
    else match x.freeWay with
    | some w => s.withWay h id t x w {}
    | none =>
      match x.victim with
      | some v => s.evict h id t x v
      | none => if t.phase = .park then s.setTxn h id t else s.parkReq h id t

/-- The transient state of a transaction's line (Table 6-3); none once the line has left it. -/
def Phase.state : Phase → Option DState
  | .rd => some .bRd | .snp => some .bSnp | .wr => some .bWr | .ev => some .bEv | .rc => some .bRc | .lost => some .bLost
  | .fwd => some .bFwd
  | _ => none

/-- Both copies of a set have failed (R160). -/
def State.noteLost (s : State) (h img : Cell) (set : Nat) : State :=
  let k := img.val * 2 ^ 20 + set
  match mget s.home.lostSets k with
  | some _ => s
  | none => ({ s with home.lostSets := mput s.home.lostSets k [] }).logFault 0x06 (some h) 0xFFFF 0x0006 set 0 false
/-- The line lies in a set that was lost, and has not been recovered. -/
def State.lineLost (s : State) (h : Cell) (line : Nat) : Bool :=
  match mget s.home.lostSets ((s.slabCell h line).val * 2 ^ 20 + dirSet line) with
  | some done => !done.contains line
  | none => false
/-- The 16 ways of a set reach home h, which keeps the copy with the transients its table holds (R166, R167). A set lost
in both copies has no ways, and each line a request touches is recovered (R160). -/
def State.haveSet (s : State) (h img : Cell) (set : Nat) (ways : Option (List DirEntry)) : State :=
  let base := ways.getD (List.replicate 16 {})
  let own := (s.txns h).filter (fun (_, t) => !t.proxy && t.way < 16 && dirSet t.req.line == set
    && s.slabCell h t.req.line == img)
  let ws := own.foldl (fun (ws : List DirEntry) (x : Htid × Txn) => match x.2.phase.state with
    | some st => ws.set x.2.way ({ x.2.found with line := BitVec.ofNat 46 x.2.req.line }.inState st)
    | none => ws) base
  (if ways.isNone then s.noteLost h img set else s).putCset h { img := img, set := set, ways := ws }
/-- The entry of the line of t comes back from the primary copy; a transient is put back from its transaction (R167). -/
def State.reloadWay (s : State) (h : Cell) (t : Txn) (x : CSet) (ways : Option (List DirEntry)) : State :=
  match x.wayOf t.req.line with
  | none => s
  | some w =>
    let e : DirEntry := ((ways.getD []).find? (fun e => e.line.toNat == t.req.line && e.st != .I)).getD {}
    let e := match (s.txns h).find? (fun u => !u.2.proxy && u.2.way == w && u.2.req.line == t.req.line && u.2.phase.state.isSome) with
      | some u => { u.2.found with line := BitVec.ofNat 46 t.req.line }.inState (u.2.phase.state.getD .I)
      | none => e
    (if ways.isNone then s.noteLost h x.img x.set else s).putCset h { x with ways := x.ways.set w { e with age := ((x.ways[w]?).getD {}).age } }

/-- The request goes on once its set is cached: a RECALL of a line with no entry is answered (R251), any other request
takes its way. -/
def State.withSet (s : State) (h : Cell) (id : Htid) (t : Txn) : State :=
  match s.cset h (s.slabCell h t.req.line) (dirSet t.req.line) with
  | none => s.setTxn h id t
  | some x =>
    if t.req.opc = .recall ∧ x.wayOf t.req.line = none ∧ !s.lineLost h t.req.line then
      (s.send (reply h id t.req .rcmp t.req.tagCell)).closeTxn h id
    else s.place h id t x

/-- Fetches a transaction's set: DIRRD, or, with no copy left to read, the lost-set case at once. -/
def State.fetchSet (s : State) (h : Cell) (id : Htid) (t : Txn) : State :=
  let img := s.slabCell h t.req.line
  let set := dirSet t.req.line
  match s.sendDirrd h id t.req img set with
  | some s => s.setTxn h id { t with awDir := true }
  | none =>
    let s := match s.cset h img set with
      | some x => if t.reload then s.reloadWay h t x none else s
      | none => s.haveSet h img set none
    if t.phase = .chain then s.setTxn h id { t with reload := false } else s.withSet h id { t with reload := false }
/-- What the lookup meets in the directory cache (R167): a corrected error is counted; for an uncorrectable one the entry of the line is read again. -/
def State.lookupEcc (s : State) (h : Cell) (t : Txn) (ecc : Ecc) : Bool × State :=
  match ecc, ((s.cset h (s.slabCell h t.req.line) (dirSet t.req.line)).bind (fun x => x.wayOf t.req.line)) with
  | .corrected, some _ => (false, s.sat (F.DIR_CACHE_ERR_CORR h))
  | .uncorrectable, some _ => (true, s.sat (F.DIR_CACHE_ERR_UNCORR h))
  | _, _ => (false, s)

/-- Starts a transaction at the directory: a hit in the cache, or a DIRRD (R166). -/
def State.startTxn (s : State) (h : Cell) (id : Htid) (t : Txn) (ecc : Ecc) : State :=
  let img := s.slabCell h t.req.line
  let set := dirSet t.req.line
  match s.cset h img set with
  | some _ =>
    match ((s.inc (F.HOME_HITS_COUNT h)).ctrEvent h 0x0F []).lookupEcc h t ecc with
    | (true, s) => s.fetchSet h id { t with reload := true }
    | (false, s) => s.withSet h id t
  | none =>
    let s := (s.inc (F.HOME_MISSES_COUNT h)).ctrEvent h 0x10 []
    if s.indexPinned h set then (s.inc (F.HOME_PIN_WAIT_COUNT h)).setTxn h id { t with phase := .pin }
    else s.fetchSet h id t

/-- A RECALL may use a general entry or a kept internal one; every other request a general one (R169). -/
def State.entryFor (s : State) (h : Cell) (o : Opc) : Option Htid :=
  match s.freeGeneral h with
  | some i => some i
  | none => if o = .recall then s.freeInternal h else none

/-- A RECALL limited to one host slot names it in HSLOT; 0x7F names none (R251; DESIGN CHOICE, log 12). -/
def recallOnly (p : Pkt) : Option HSlot := if p.opc = .recall ∧ p.hslot.val < 96 then some p.hslot else none

/-- UMASK bit of event 0x0E for a request. -/
def intakeBit (o : Opc) : Nat :=
  match o with
  | .inva => 1
  | .wri | .wra | .wrptl => 2
  | .clnevct => 3
  | .recall => 4
  | .biconf => 5
  | _ => 0
/-- A request takes a table entry, and starts or joins its line's wait chain (R170). -/
def State.depart (s : State) (h : Cell) (id : Htid) (p : Pkt) (ecc : Ecc) : State :=
  let busy := s.lineBlocked h p.line || s.lineChained h p.line
  let t : Txn := { req := p, ord := s.home.ord, snpMax := s.snpMax h, phase := if busy then .chain else .lookup, only := recallOnly p }
  let s := s.openTxn h id t
  if busy then
    match s.lookupEcc h t ecc with
    | (true, s) => s.fetchSet h id { t with reload := true }
    | (false, s) => s
  else s.startTxn h id t ecc
/-- The index of a line is held by takeover in cell h (R208): the line is in B_TAKE. While a fence epoch is open this goes for each index that the
cell neither has in the image's map nor has adopted: cells that have applied the new HOME_MAP address it as the successor, which serves the index
from the epoch's close on (R207). -/
def State.lineHeld (s : State) (h : Cell) (line : Nat) : Bool :=
  let i := s.lineIdx h line
  s.home.held.contains (h.val * 128 + i)
    || (s.scrim.epochOpen && (s.slabCell h line).val != h.val && !(mgetD [] s.home.adopted h.val).contains i)
/-- SPECRD (Table 6-6): MSPEC for an unblocked line while SPEC_EN is set; none for a FREE or LOST extent, which is counted where it is FREE (R224). -/
def State.specRow (s : State) (h : Cell) (p : Pkt) : State :=
  let x := s.extOf h p.ext
  if s.lineBlocked h p.line || s.lineHeld h p.line || !s.rdb (F.HOME_CFG_SPEC_EN h) || x.noMem then s.freeCount h p
  else s.send { p with opc := .mspec, src := h, dst := x.mcell, mcell := x.mcell, home := h }

/-- The open transaction of a tag (R173). -/
def State.txnOfTag (s : State) (h : Cell) (p : Pkt) : Option (Htid × Txn) :=
  (s.txns h).find? (fun (_, t) => t.req.tagCell == p.tagCell && t.req.tagSlot == p.tagSlot && t.evictFor.isNone
    && p.tagSlot.val != 0x3FF && t.req.line == p.line)

/-- The re-issue of a request that awaits acknowledgements only (R173): the completion that a CLNEVCT or RECALL has had goes out again, and a
write's WGO, whose MCMP is then awaited again. Where another transaction has the line by now, the write waits for it in the line's chain. -/
def State.adoptDone (s : State) (h : Cell) (id : Htid) (t : Txn) : State :=
  match t.req.opc with
  | .recall => (s.send (reply h id t.req .rcmp t.req.tagCell)).setTxn h id t
  | .clnevct => (s.sendWcmp h id t.req).setTxn h id t
  | _ =>
    if (s.extOf h t.req.ext).noMem then (s.sendWcmp h id t.req).setTxn h id { t with awMrd := false }
    else if !t.awMrd && s.lineBlocked h t.req.line then
      { s.setTxn h id { t with phase := .chain, ord := s.home.ord } with home.ord := s.home.ord + 1 }
    else (s.sendWgo h id t.req).setTxn h id { t with awMrd := true }
/-- A re-issue is adopted: MRD, WGO and GRANT already issued go out again under the new GEN (R173). -/
def State.adopt (s : State) (h : Cell) (id : Htid) (t : Txn) (p : Pkt) : State :=
  let s := s.inc (F.HOME_REISSUE_ADOPT_COUNT h)
  let r := { t.req with gen := p.gen, src := p.src, mcell := p.mcell }
  let t := { t with req := r }
  let x := s.extOf h r.ext
  -- an MRD that a write-back has overtaken goes out after that write's MCMP (R177)
  let t : Txn := if t.phase == .snp && !t.awWb.isEmpty then { t with mrdSent := false, awMrd := false } else t
  if t.phase == .ack then s.adoptDone h id t
  else if x.st == .lost && (t.mrdSent || t.phase == .wr) && t.awMrd then
    -- R230: the home completes the re-issue itself
    if t.phase == .wr then
      ((s.sendWcmp h id r)).finish h id { t with awMrd := false }
    else
      let t := { t with grantMv := .I, next := t.found, awMrd := false, granted := false }
      (s.sendOwnData h id r true).advanceRd h id t
  else
    let (t, s) : Txn × State := if t.mrdSent then
        ({ t with awMrd := true }, s.send { reply h id r .mrd x.mcell with mcell := x.mcell, home := h }) else (t, s)
    let s := if t.phase == .wr then s.sendWgo h id r else s
    let s := if t.granted then s.send { reply h id r .grant r.tagCell with mv := t.grantMv, mcell := x.mcell } else s
    s.setTxn h id t

/-- The transaction that has snooped the host of a write of its line, and still awaits its answer (R178). -/
def State.crossing (s : State) (h : Cell) (p : Pkt) : Option (Htid × Txn) :=
  (s.txns h).find? (fun (_, t) => t.req.line == p.line && t.awSnp.contains p.hslot && !t.snpWait.contains p.hslot
    && (t.phase == .snp || t.phase == .ev || t.phase == .rc || t.phase == .lost))
/-- The transaction that has taken the write of this tag as its snoop's data, with the tag it holds (R173). -/
def State.wbOf (s : State) (h : Cell) (p : Pkt) : Option (Htid × Txn × (Cell × Slot × Gen)) :=
  (s.txns h).findSome? (fun (id, t) => if t.req.line = p.line then
      (t.awWb.find? (fun w => w.1 == p.tagCell && w.2.1 == p.tagSlot && p.tagSlot.val != 0x3FF)).map (fun w => (id, t, w)) else none)
/-- A re-issued write that a snoop has taken gets WGO again under its new generation; an older one, or a duplicate, is discarded (R173). -/
def State.adoptWb (s : State) (h : Cell) (id : Htid) (t : Txn) (w : Cell × Slot × Gen) (p : Pkt) : State :=
  if p.gen ≤ w.2.2 then s.inc (F.HOME_LATE_COUNT h)
  else
    let s := s.inc (F.HOME_REISSUE_ADOPT_COUNT h)
    let (t, s) := s.takeWb h id { t with awWb := t.awWb.erase w } p
    s.setTxn h id t
/-- The oldest request of the intake leaves it: adopted or discarded as a re-issue (R173), set aside under takeover (R208), or into a table entry
while one is free for it (R169). A SPECRD keeps none. -/
def State.departNext (s : State) (h : Cell) : State :=
  match mgetD [] s.home.intake h.val with
  | [] => s
  | r :: _ =>
    let p := r.p
    let out (s : State) : State := ((s.intakeTake h (fun x => x == r)).inc (F.HOME_REQS_COUNT h)).ctrEvent h 0x0E [intakeBit p.opc]
    match s.txnOfTag h p with
    | some (id, t) => if p.gen > t.req.gen then (out s).adopt h id t p else (out s).inc (F.HOME_LATE_COUNT h)
    | none =>
      if s.lineHeld h p.line && p.opc != .specrd then
        ({ out s with home.setAside := mmod [] s.home.setAside h.val (· ++ [{ r with ring := none }]) }).sat (F.HOME_TAKE_SET_ASIDE h)
      else match s.entryFor h p.opc with
        | none => s
        | some id => if p.opc = .specrd then (out s).specRow h p else (out s).depart h id p r.ecc
/-- A request arrives at a home: adopted or discarded as a re-issue (R173), taken as snoop data (R178), or sorted into the intake (R168), from
which it departs at once where nothing stands before it. -/
def State.homeRequest (s : State) (p : Pkt) (ecc : Ecc) : State :=
  s.arrive p fun s =>
    let h := p.dst
    match s.txnOfTag h p, s.wbOf h p with
    | some (id, t), _ =>
      if p.gen > t.req.gen then s.adopt h id t p else s.inc (F.HOME_LATE_COUNT h)
    | none, some (id, t, w) => s.adoptWb h id t w p
    | none, none =>
      -- an index given back: the originating port's sweep has re-issued the request to its image cell
      if s.home.gaveBack.contains (h.val * 128 + s.lineIdx h p.line) then s.inc (F.HOME_LATE_COUNT h)
      else
        match (if Opc.gives p.opc then s.crossing h p else none) with
        | some (id, t) =>
          let (t, s) := s.takeWb h id t p
          s.setTxn h id t
        | none =>
          let alone := (mgetD [] s.home.intake h.val).isEmpty
          let s := s.intakePut h { p := p, ecc := ecc }
          if alone then s.departNext h else s

/-- The head of a line's chain (R170). -/
def State.chainHead (s : State) (h : Cell) (line : Nat) : Option (Htid × Txn) :=
  ((s.txns h).filter (fun (_, t) => !t.proxy && t.phase == .chain && t.req.line == line)).foldl
    (fun acc x => match acc with
      | some y => if x.2.ord < y.2.ord then some x else some y
      | none => some x) none

/-- There is a way now for a request that waits for one: of its set, or of its cache index. -/
def State.wayThere (s : State) (h : Cell) (t : Txn) : Bool :=
  match s.cset h (s.slabCell h t.req.line) (dirSet t.req.line) with
  | some x => (x.wayOf t.req.line).isSome || x.freeWay.isSome || x.victim.isSome
  | none => !s.indexPinned h (dirSet t.req.line)
/-- The oldest request of a cache index that waits for a way, parked or for its index to unpin, and can have one (R205). -/
def State.wayWaiter (s : State) (h : Cell) (line : Nat) : Option (Htid × Txn) :=
  ((s.txns h).filter (fun (i, t) => !t.proxy && (t.phase == .park || t.phase == .pin) && t.evictFor.isNone
    && dirSet t.req.line % 512 == dirSet line % 512 && s.wayThere h t
    && !(s.txns h).any (fun (_, u) => u.evictFor == some i))).foldl
    (fun acc x => match acc with
      | some y => if x.2.ord < y.2.ord then some x else some y
      | none => some x) none

/-- The victim's awaits are complete: its way goes to the waiting request, which runs its row from state I (R182). -/
def State.evicted (s : State) (h : Cell) (id : Htid) (t : Txn) : State :=
  let img := s.slabCell h t.req.line
  let set := dirSet t.req.line
  let s := (s.setWay h img set t.way {}).closeTxn h id
  match t.evictFor with
  | none => s
  | some w =>
    match s.txn h w with
    | none => s
    | some u => match s.cset h img set with
      | some x => s.withWay h w u x t.way {}
      | none => s

/-- What the copies hold of a way while the line is in a transient state (R158): the entry its transaction writes, or the one it found; a line in
recovery has none. -/
def State.stableWay (s : State) (h img : Cell) (set w : Nat) (e : DirEntry) : DirEntry :=
  if !e.st.transient then e
  else match (s.txns h).find? (fun (_, u) => !u.proxy && u.way == w && dirSet u.req.line == set && s.slabCell h u.req.line == img
      && u.phase.state.isSome && u.phase != .lost) with
    | some (_, u) => { (if u.phase == .rd then u.next else u.found) with line := BitVec.ofNat 46 u.req.line, age := e.age }
    | none => {}
/-- The end of a lost line's recovery: the line is I, its set is written to both copies, and the request runs (R160). -/
def State.recovered (s : State) (h : Cell) (id : Htid) (t : Txn) : State :=
  let img := s.slabCell h t.req.line
  let set := dirSet t.req.line
  let k := img.val * 2 ^ 20 + set
  let s := { s with home.lostSets := mmod [] s.home.lostSets k (fun l => t.req.line :: l) }
  let ways := ((s.cset h img set).map (·.ways)).getD []
  let (n, s) := (List.range ways.length).foldl (fun (acc : Nat × State) w =>
      let e := (ways[w]?).getD {}
      let (k, s) := acc.2.sendDirwr h id t.req img set w (s.stableWay h img set w e)
      (acc.1 + k, s)) (0, s)
  let t := { t with awAck := t.awAck + n, rsAck := t.rsAck ++ (List.replicate ways.length (s.rsTargets img)).flatten }
  match t.evictFor with
  | none => s.runRow h id { t with found := { line := BitVec.ofNat 46 t.req.line } }
  | some w =>
    let t := { t with phase := .ack, evictFor := none }
    let s := (if t.awAck = 0 ∧ t.rsAck = [] then s.closeTxn h id else s.setTxn h id t).setWay h img set t.way {}
    match s.txn h w with
    | some u => s.runRow h w { u with found := { line := BitVec.ofNat 46 t.req.line } }
    | none => s

/-- Goes on with a transaction after a message it awaited: nothing while it still awaits one, else the next action of
its state (R170). -/
def State.advance (s : State) (h : Cell) (id : Htid) (t : Txn) : State :=
  let (t, s) := s.sendSnoops h id t
  let quiet := t.awSnp.isEmpty && t.awFwd.isEmpty && t.awWb.isEmpty
  match t.phase with
  | .rd => s.advanceRd h id t
  | .snp => if quiet then s.afterSnoops h id { t with found := t.afterAnswers } else s.setTxn h id t
  | .fwd => if quiet then s.afterSnoops h id t else s.setTxn h id t
  | .rc =>
    if quiet then s.afterSnoops h id { t with found := t.afterAnswers } else s.setTxn h id t
  | .ev => if quiet then s.evicted h id t else s.setTxn h id t
  | .lost => if quiet then s.recovered h id t else s.setTxn h id t
  | .wr =>
    if t.awMrd then s.setTxn h id t
    else
      let (t, s) := if t.next.st = .E ∨ t.next.st = .EO then (t, s) else s.writeEntry h id t t.next
      s.finish h id t
  | .ack => if t.awAck = 0 ∧ !t.awMrd ∧ t.rsAck = [] then s.closeTxn h id else s.setTxn h id t
  | _ => s.setTxn h id t

end Sys2Proof.Machine
end

