-- ==== Sys2Proof/Machine/OwnerOps.lean ====
section
/-! DEFINITION. The owner proxy of spec/07: its table, its wait chains, the requests it orders (Table 7-2) and the FWDs
it serves (Table 7-3). -/

namespace Sys2Proof.Machine

/-- Set of a line in the proxy table (R190). -/
def proxySet (line : Nat) : Nat := lineBits line 0 9 ^^^ lineBits line 9 9
def proxyKey (a : Cell) (line way : Nat) : Nat := (a.val * 512 + proxySet line) * 8 + way
/-- Way of a line in the proxy table. -/
def State.proxyWay (s : State) (a : Cell) (line : Nat) : Option Nat :=
  (List.range 8).find? (fun w => match mget s.home.proxy (proxyKey a line w) with
    | some e => e.line.toNat == line
    | none => false)
/-- The entry that answers a lookup: in the table, or parked (R192). -/
def State.proxyEnt (s : State) (a : Cell) (line : Nat) : Option PEnt :=
  match s.proxyWay a line with
  | some w => mget s.home.proxy (proxyKey a line w)
  | none => ((mgetD [] s.home.parked a.val).find? (fun p => p.ent.line.toNat == line)).map (·.ent)
/-- Rewrites the entry of a line, wherever it stands. -/
def State.setProxy (s : State) (a : Cell) (line : Nat) (e : PEnt) : State :=
  match s.proxyWay a line with
  | some w => { s with home.proxy := mput s.home.proxy (proxyKey a line w) e }
  | none => { s with
    home.parked := mmod [] s.home.parked a.val
      (fun l => l.map (fun p => if p.ent.line.toNat == line then { p with ent := e } else p)) }
/-- Frees the slot of a parked install (R204). -/
def State.unparkInstall (s : State) (a : Cell) (p : Parked) : State :=
  let s := { s with home.parked := mmod [] s.home.parked a.val (fun l => l.erase p) }
  if p.shared then s.freeShared a
  else if p.dat then s.dec (F.HOME_PARK_DAT_USE a) else s.dec (F.HOME_PARK_RSP_USE a)
/-- Removes the entry of a line. -/
def State.dropProxy (s : State) (a : Cell) (line : Nat) : State :=
  match s.proxyWay a line with
  | some w => { s with home.proxy := mdel s.home.proxy (proxyKey a line w) }.dec (F.HOME_PROXY_STATUS_ENTRIES a)
  | none => match (mgetD [] s.home.parked a.val).find? (fun p => p.ent.line.toNat == line) with
    | some p => s.unparkInstall a p
    | none => s

/-- A blocked entry: a transaction it orders is open, or a FWD for its line is served (R191). Writes whose MCMP has not come block it against
replacement, drops and FWDs, but not against the owner's next request, whose waits for WOUT Table 7-2 gives (DESIGN CHOICE, log 120). -/
def PEnt.busy (e : PEnt) : Bool := e.blk || e.wout != 0
/-- Sets the AGE of a way to 0; the ways of its set that were younger age by one, so that 7 is the least recently used of eight (DESIGN CHOICE,
log 121). -/
def State.touchProxy (s : State) (a : Cell) (line way : Nat) : State :=
  let old := ((mget s.home.proxy (proxyKey a line way)).map (·.age)).getD 7
  let set := proxyKey a line 0 / 8
  { s with home.proxy := s.home.proxy.map (fun (e : Nat × PEnt) =>
      if e.1 / 8 ≠ set then e
      else if e.1 % 8 = way then (e.1, { e.2 with age := 0 })
      else if e.2.age < old then (e.1, { e.2 with age := e.2.age + 1 }) else e) }
/-- A lookup that an entry of the table answers. -/
def State.usedProxy (s : State) (a : Cell) (line : Nat) : State :=
  match s.proxyWay a line with
  | some w => s.touchProxy a line w
  | none => s
/-- A proxy transaction of a line that keeps its entry blocked: a read, INVA or snoop in progress (R191). -/
def State.proxyBusy (s : State) (a : Cell) (line : Nat) : Bool :=
  (s.txns a).any (fun (_, t) => t.proxy && t.phase == .rd && t.req.line == line)
    || (mgetD [] s.home.fwdServe a.val).any (fun f => f.p.line == line)

/-- The way of an install: a free one, or the least recently used unblocked one (R190). -/
def State.proxyRoom (s : State) (a : Cell) (line : Nat) : Option Nat :=
  match (List.range 8).find? (fun w => (mget s.home.proxy (proxyKey a line w)).isNone) with
  | some w => some w
  | none => ((List.range 8).foldl (fun (acc : Option (Nat × Nat)) w =>
      match mget s.home.proxy (proxyKey a line w) with
      | some o => if PEnt.busy o then acc else match acc with
        | some (v, g) => if o.age > g then some (w, o.age) else some (v, g)
        | none => some (w, o.age)
      | none => acc) none).map (·.1)
/-- Puts an entry into a way, in the first rank of AGE that its set leaves free; what stood there is dropped (R194). -/
def State.putProxy (s : State) (a : Cell) (line w : Nat) (e : PEnt) : State :=
  let s := match mget s.home.proxy (proxyKey a line w) with
    | some _ => (s.dec (F.HOME_PROXY_STATUS_ENTRIES a)).inc (F.HOME_PROXY_DROPS_COUNT a)
    | none => s
  let ages := (List.range 8).filterMap (fun v => if v = w then none else (mget s.home.proxy (proxyKey a line v)).map (·.age))
  let s := { s with home.proxy := mput s.home.proxy (proxyKey a line w) { e with age := ((List.range 8).find? (fun n => !ages.contains n)).getD 7 } }.inc (F.HOME_PROXY_STATUS_ENTRIES a)
  (s.raise (F.HOME_PROXY_STATUS_HWM a) (s.rd (F.HOME_PROXY_STATUS_ENTRIES a))).touchProxy a line w
/-- Installs a proxy entry with HELD = E (R192): over a free way, or the least recently used unblocked one, or parked
under its class, also behind one that is parked for the set (R205), or skipped. -/
def State.installProxy (s : State) (a : Cell) (line : Nat) (mcell home : Cell) (dat : Bool) : State :=
  let e : PEnt := { line := BitVec.ofNat 46 line, held := .E, mcell := mcell, home := home, since := s.us }
  match s.proxyEnt a line with
  | some o => (s.setProxy a line { o with held := .E, mcell := mcell, home := home, since := s.us }).usedProxy a line
  | none =>
    match (if (mgetD [] s.home.parked a.val).any (fun p => proxySet p.ent.line.toNat == proxySet line) then none else s.proxyRoom a line) with
      | some w => s.putProxy a line w e
      | none =>
        let own := if dat then s.rd (F.HOME_PARK_DAT_USE a) else s.rd (F.HOME_PARK_RSP_USE a)
        let park (shared : Bool) (s : State) : State :=
          { s with
            home.parked := mmod [] s.home.parked a.val (fun l => l ++ [({ dat := dat, ent := e, shared := shared } : Parked)])
          }.inc (F.HOME_PARKS_COUNT a) |>.ctrEvent a 0x14 []
        if own < 16 then
          (park false s).inc (if dat then F.HOME_PARK_DAT_USE a else F.HOME_PARK_RSP_USE a)
        else if s.rd (F.HOME_PARK_SHARED_USE a) < 32 then (park true s).inc (F.HOME_PARK_SHARED_USE a)
        else s.inc (F.HOME_INSTALL_SKIP_COUNT a)

/-- Sends a request that its proxy does not serve on to the home of its line (R194, R200). -/
def State.toHome (s : State) (a : Cell) (p : Pkt) : State :=
  let h := s.homeOf a p.line
  let k := p.tagCell.val * 1024 + p.tagSlot.val
  let s := match mget s.xbar.slots k with
    | some t => { s with xbar.slots := mput s.xbar.slots k { t with egress := h } }
    | none => s
  s.send { p with src := a, dst := h }

/-- The first item of a line's chain at a proxy, and the chain without it. -/
def popChain (l : List PItem) (line : Nat) : Option (PItem × List PItem) :=
  match l.find? (fun i => i.line.toNat == line) with
  | some i => some (i, l.erase i)
  | none => none

/-- The BISnp a proxy sends to its own host for a FWD (Table 7-3). -/
def fwdSnoop : Mv → Opc
  | .I => .bisnpinv
  | .S => .bisnpdata
  | .E => .bisnpcur

/-- A place of the FWD table is free: the FWD that has waited longest on VC2 takes it and joins its line's chain (R198). -/
def State.fwdAdmit (s : State) (a : Cell) : State :=
  match mgetD [] s.home.fwdWait a.val with
  | p :: rest =>
    if s.rd (F.HOME_PROXY_STATUS_FWD_USE a) < 256 then
      { s with
        home.fwdWait := mset [] s.home.fwdWait a.val rest
        home.pchain := mmod [] s.home.pchain a.val
          (fun l => l ++ [({ line := BitVec.ofNat 46 p.line, isFwd := true, p := p } : PItem)]) }.inc (F.HOME_PROXY_STATUS_FWD_USE a)
    else s
  | [] => s
/-- Ends the service of a FWD: FRSP with the entry removed, or FKEEP (Table 7-3). With the entry removed, the own host's
requests behind the FWD leave for the home in chain order (R200). -/
def State.fwdReply (s : State) (a : Cell) (f : Pkt) (keep : Bool) (mv : Mv) : State :=
  let s := { s with home.fwdServe := mmod [] s.home.fwdServe a.val (fun l => l.filter (fun x => x.p != f)) }
  let s := (s.dec (F.HOME_PROXY_STATUS_FWD_USE a)).fwdAdmit a
  let m : Pkt := { f with opc := if keep then .fkeep else .frsp, src := a, dst := f.src, mv := mv }
  if keep then
    match s.proxyEnt a f.line with
    | some e => (s.setProxy a f.line { e with blk := false }).send m
    | none => s.send m
  else
    let s := (s.dropProxy a f.line).send m
    let l := mgetD [] s.home.pchain a.val
    let out := l.filter (fun i => i.line.toNat == f.line && !i.isFwd)
    let s := { s with home.pchain := mset [] s.home.pchain a.val (l.filter (fun i => !out.contains i)) }
    out.foldl (fun s i => s.toHome a i.p) s

/-- A write or CLNEVCT of the host for a line whose FWD is being served: the proxy takes it (R198), under the HTID of the FWD; its MCMP is told
apart by its tag (DESIGN CHOICE, log 122: R195 gives an HTID to ordered requests only). -/
def State.fwdTakesWrite (s : State) (a : Cell) (f : FwdServe) (p : Pkt) : State :=
  let p := { p with htid := f.p.htid }
  if p.opc = .clnevct ∨ (s.extOf a p.ext).noMem then (s.freeCount a p).sendWcmp a f.p.htid p
  else
    let s := s.sendWgo a f.p.htid p
    { s with
      home.fwdServe := mmod [] s.home.fwdServe a.val
        (fun l => l.map (fun (x : FwdServe) => if x.p == f.p then
          { x with awWb := x.awWb.filter (fun w => !(w.1 == p.tagCell && w.2.1 == p.tagSlot)) ++ [Pkt.tagGen p] } else x)) }
/-- The BISnp of a FWD goes out, under the FWD's HTID and with its HSLOT (DESIGN CHOICE, log 122: Table 6-5 lets HSLOT name the requester). Writes
of the host that wait in the line's chain are taken from here on. -/
def State.fwdSnoop1 (s : State) (a : Cell) (f : FwdServe) : State :=
  let s := { s with
    home.fwdServe := mmod [] s.home.fwdServe a.val (fun (l : List FwdServe) => l.map (fun (x : FwdServe) =>
      if x.p == f.p then { x with snpWait := false, snooped := true, awSnp := true } else x)) }
  let s := s.send { f.p with opc := fwdSnoop f.p.mv, src := a, dst := a }
  let s := ((s.inc (F.HOME_BISNPS_COUNT a)).inc (F.HOME_TT_SNP_OUT a)).ctrEvent a 0x11 []
  let ws := (mgetD [] s.home.pchain a.val).filter (fun i => !i.isFwd && i.p.line == f.p.line && Opc.gives i.p.opc)
  let s := { s with home.pchain := mmod [] s.home.pchain a.val (fun l => l.filter (fun i => !ws.contains i)) }
  ws.foldl (fun s i => s.fwdTakesWrite a f i.p) s
/-- BISnps of FWDs go out as SNP_MAX of the cell allows (R187). -/
def State.fwdSnoops (s : State) (a : Cell) : State :=
  (mgetD [] s.home.fwdServe a.val).foldl (fun s f =>
    if f.snpWait && decide (s.rd (F.HOME_TT_SNP_OUT a) < f.snpMax) then s.fwdSnoop1 a f else s) s
/-- Serves a FWD at the head of its chain (Table 7-3). -/
def State.serveFwd (s : State) (a : Cell) (f : Pkt) : State :=
  let s := s.inc (F.HOME_PROXY_FWD_COUNT a)
  let ent := s.proxyEnt a f.line
  let s := if ent.isNone then s.inc (F.HOME_PROXY_NOENT_COUNT a) else s
  let s := match ent with
    | some e => s.setProxy a f.line { e with blk := true }
    | none => s
  let sv : FwdServe := { p := f, hadEntry := ent.isSome, snpMax := s.snpMax a }
  let s := { s with home.fwdServe := mmod [] s.home.fwdServe a.val (· ++ [sv]) }
  let snoop : Bool := match ent with
    | none => true
    | some e => match f.mv, e.held with
      | .I, .I => false
      | .I, _ => true
      | _, .E => true
      | _, _ => false
  if snoop then
    let s := { s with
        home.fwdServe := mmod [] s.home.fwdServe a.val
          (fun (l : List FwdServe) => l.map (fun (x : FwdServe) => if x.p == f then { x with snpWait := true } else x)) }
    s.fwdSnoops a
  else
    let held := (ent.map (·.held)).getD .I
    s.fwdReply a f (f.mv = .E) held

/-- A FWD whose snoop and write-backs are answered: FRSP or FKEEP as Table 7-3 gives. -/
def State.fwdAdvance (s : State) (a : Cell) (f : FwdServe) : State :=
  match f.awSnp, f.answer with
  | false, some mv =>
    if f.awWb ≠ [] then s
    else if f.p.mv = .E ∧ mv = .E ∧ f.hadEntry then s.fwdReply a f.p true .E
    else s.fwdReply a f.p false mv
  | _, _ => s

/-- HELD after a request of Table 7-2. -/
def heldAfter (o : Opc) (held : Mv) : Mv :=
  match o with
  | .rds => .S
  | .rda | .inva | .wra => .E
  | .rdi => held
  | _ => .I

/-- Starts a request of the owner at its proxy (Table 7-2). Reads wait until WOUT is 0, a write while it is 15. -/
def State.proxyStart (s : State) (a : Cell) (id : Htid) (p : Pkt) (e : PEnt) : State :=
  let x := s.extOf a p.ext
  let s := ((s.inc (F.HOME_PROXY_LOCAL_COUNT a)).ctrEvent a 0x13 []).usedProxy a p.line
  let e := (s.proxyEnt a p.line).getD e
  let t : Txn := { req := p, ord := 0, phase := .rd, proxy := true }
  let held := heldAfter p.opc e.held
  let e' := { e with held := held, since := if held = .I ∧ e.held = .I then e.since else s.us }
  let read := p.opc = .rds ∨ p.opc = .rda ∨ p.opc = .rdi
  if read ∨ p.opc = .inva then
    let mv : Mv := if x.noMem ∧ read ∨ x.st = .free then .I else match p.opc with
      | .rds => .S
      | .rdi => .I
      | _ => .E
    let s := if x.st = .free then s.inc (F.HOME_PROTO_COUNT a) else s
    let s := s.openTxn a id t
    let t := { t with grantMv := mv, awDone := true, ord := s.home.ord - 1 }
    let (t, s) := if p.opc = .inva then (t, s)
      else if x.noMem then (t, s.sendOwnData a id p (x.st = .lost)) else s.sendMrd a id t
    let (t, s) := s.sendGrant a id t
    (s.setTxn a id t).setProxy a p.line { (if x.noMem ∧ read ∨ x.st = .free then e else e') with blk := true }
  else if p.opc = .clnevct then
    ((if x.st = .free then s.inc (F.HOME_PROTO_COUNT a) else s).sendWcmp a id p).setProxy a p.line e'
  else if x.noMem then
    let s := if x.st = .free then s.inc (F.HOME_PROTO_COUNT a) else s
    (s.sendWcmp a id p).setProxy a p.line e'
  else
    let s := s.openTxn a id { t with phase := .wr, awMrd := true }
    (s.sendWgo a id p).setProxy a p.line { e' with wout := e.wout + 1 }

/-- Starts the head of a line's chain at a proxy, if its entry is not blocked (R195, R198). -/
def State.proxyRun (s : State) (a : Cell) (line : Nat) : State :=
  if s.proxyBusy a line then s
  else match popChain (mgetD [] s.home.pchain a.val) line with
    | none => s
    | some (i, rest) =>
      let pop (s : State) : State := { s with home.pchain := mset [] s.home.pchain a.val rest }
      if i.isFwd then
        -- R199: every MCMP of the line has come before the FWD is answered
        (if ((s.proxyEnt a line).map (·.wout)).getD 0 ≠ 0 then s else (pop s).serveFwd a i.p)
      else match s.proxyEnt a line with
        | none => (pop s).toHome a i.p
        | some e =>
          let read := i.p.opc = .rds ∨ i.p.opc = .rda ∨ i.p.opc = .rdi
          let wr := i.p.opc = .wri ∨ i.p.opc = .wra ∨ i.p.opc = .wrptl
          if read ∧ e.wout ≠ 0 ∨ wr ∧ e.wout ≥ 15 then s
          else match s.freeGeneral a with
            | some id => (pop s).proxyStart a id i.p e
            | none => s

/-- The owner proxy of anchor a takes an admitted request of its host, if the line hits its table or a FWD of the line
is being served and the request gives the line's data back (R195, R198); none otherwise. -/
def State.proxyOrder (s : State) (a : Cell) (p : Pkt) : Option State :=
  if !s.unified a then none
  else
    match (mgetD [] s.home.fwdServe a.val).find? (fun f => f.p.line == p.line && f.snooped && Opc.gives p.opc) with
    | some f => some (s.fwdTakesWrite a f p)
    | none => match s.proxyEnt a p.line with
      | none => none
      | some e =>
        if p.opc = .specrd then
          if !PEnt.busy e ∧ !s.proxyBusy a p.line ∧ s.rdb (F.HOME_CFG_SPEC_EN a) ∧ !(s.extOf a p.ext).noMem then
            let m := (s.extOf a p.ext).mcell
            some (s.send { p with opc := .mspec, src := a, dst := m, mcell := m, home := a })
          else some (s.freeCount a p)
        else
          let item : PItem := { line := BitVec.ofNat 46 p.line, isFwd := false, p := p }
          let mine (i : PItem) : Bool := !i.isFwd && i.p.tagCell == p.tagCell && i.p.tagSlot == p.tagSlot
          -- a re-issue takes the place of its request in the chain (R173, R195)
          if p.gen.val ≠ 0 ∧ (mgetD [] s.home.pchain a.val).any mine then
            some { s with home.pchain := mmod [] s.home.pchain a.val (fun l => l.map (fun i => if mine i then item else i)) }
          else
            let s := { s with home.pchain := mmod [] s.home.pchain a.val (fun l => l ++ [item]) }
            some (s.proxyRun a p.line)

/-! ### Completions and re-issues (R173, R191, R196) -/

/-- A proxy transaction whose read is complete unblocks its entry and frees its table entry (R191). -/
def State.proxyDone (s : State) (a : Cell) (id : Htid) (t : Txn) : State :=
  if t.awDone || t.awMrd then s.setTxn a id t
  else
    let s := s.closeTxn a id
    let s := match s.proxyEnt a t.req.line with
      | some e => s.setProxy a t.req.line { e with blk := false }
      | none => s
    s.proxyRun a t.req.line
/-- The write of a proxy is complete: WOUT falls by one (Table 7-2). -/
def State.proxyWrote (s : State) (a : Cell) (id : Htid) (t : Txn) : State :=
  let s := s.closeTxn a id
  let s := match s.proxyEnt a t.req.line with
    | some e => s.setProxy a t.req.line { e with wout := e.wout - 1 }
    | none => s
  s.proxyRun a t.req.line
/-- A proxy adopts the re-issue of a request it holds (R173, R196). Where its cell's map shows the extent LOST, it completes the request (R230). -/
def State.proxyAdopt (s : State) (a : Cell) (id : Htid) (t : Txn) (p : Pkt) : State :=
  let s := s.inc (F.HOME_REISSUE_ADOPT_COUNT a)
  let r := { t.req with gen := p.gen, src := p.src, mcell := p.mcell }
  let t := { t with req := r }
  let x := s.extOf a r.ext
  if x.st = .lost ∧ t.awMrd then
    if t.phase = .wr then (s.sendWcmp a id r).proxyWrote a id t
    else
      let (t, s) := (s.sendOwnData a id r true).sendGrant a id { t with grantMv := .I, awMrd := false }
      s.setTxn a id t
  else
    let s := if t.mrdSent then s.send { reply a id r .mrd x.mcell with mcell := x.mcell, home := a } else s
    let s := if t.phase = .wr then s.sendWgo a id r else s
    let s := if t.granted then s.send { reply a id r .grant r.tagCell with mv := t.grantMv, mcell := x.mcell } else s
    s.setTxn a id t

end Sys2Proof.Machine
end

