-- ==== Sys2Proof/Machine/MgrOps.lean ====
section
/-! DEFINITION. The lease, the envelope and the access log (spec/16): who may make a register access, and what a refused
one leaves behind. -/

namespace Sys2Proof.Machine

/-- SOURCE of Table 16-6. -/
def srcCode : Src → Nat
  | .jtag => 0 | .mgr => 1 | .mctp _ _ => 2 | .sp => 3
/-- ORIGIN of Table 16-6. -/
def srcOrigin : Src → Nat
  | .mctp p e => p.val * 256 + e.val
  | _ => 0
/-- Core cycles in a millisecond. -/
def msCyc : Nat := 3000000

/-! ### The access log (R465) -/

/-- Writes an access record, or merges it into the one of the same source, register and reason that began within 1 ms. -/
def State.logAccess (s : State) (src : Src) (reason addr data : Nat) : State :=
  let s := s.inc F.MGR_ACCESS_CNT_ATTEMPTS
  if !s.metadataPresent then s.sat F.MGR_ACCESS_CNT_UNLOGGED
  else if s.activeSp.isNone then s.sat (F.PKG_LOG_DROP_DROPPED 2)
  else
    let hit (r : AccRec) : Bool := r.source == srcCode src && r.origin == srcOrigin src && r.reason == reason
      && r.addr == addr && s.ns < r.time + 1000000
    match s.log.access.findIdx? hit with
    | some n => { s with log.access := s.log.access.modify n (fun r => { r with count := min (2 ^ 32 - 1) (r.count + 1) }) }
    | none =>
      let r : AccRec := { time := s.ns, source := srcCode src, reason := reason, origin := srcOrigin src, addr := addr,
                          data := data, count := 1, seq := s.rd (F.PKG_LOG_PTR_NEXT_SEQ 2) }
      ({ s with log.access := (r :: s.log.access).take 65536 }).logBump 2 65536

/-! ### The envelope (R461 to R463) -/

/-- An entry that lets one field be written with any value. -/
def openField (f : Fld) : EnvEntry :=
  { addr := f.addr, stride := 8, count := 1, lsb := f.lsb, width := f.width, wr := true, rd := false, lo := 0,
    hi := 2 ^ f.width - 1 }
/-- The base envelope (Table 16-3). -/
def baseEnvelope : Envelope :=
  { reads := 7,
    entries := [openField F.PKG_LOG_SEL_LOG, openField F.PKG_LOG_SEL_SEQ, openField F.RIND_RTC_SEC,
                openField F.RIND_PWR_CTRL_CLR_PEAK, openField F.RIND_SLEEP_STATUS_CLR_MAX, openField F.LANE_M_CTRL_WIDTH] }
/-- The base envelope applies (R461). -/
def State.baseApplies (s : State) : Bool :=
  match s.mode with
  | .dormant | .imageLoad | .selfTest | .safeStop => true
  | .bringUp => !s.img.distributed
  | _ => s.mgr.env.isNone
/-- The envelope in force. -/
def State.envelope (s : State) : Envelope := if s.baseApplies then baseEnvelope else s.mgr.env.getD baseEnvelope
/-- Lease duration in ms, permitted paths, and the named host port, as the envelope in force has them. -/
def State.leaseMs (s : State) : Nat := if s.baseApplies then 1000 else s.rd F.MGR_LEASE_CFG_LEASE_MS
def State.pathOk (s : State) : Src → Bool
  | .mgr => s.baseApplies || s.rdBit F.MGR_LEASE_CFG_PATHS 0
  | .mctp p _ => !s.baseApplies && s.rdBit F.MGR_LEASE_CFG_PATHS 1 && s.rd F.MGR_LEASE_CFG_MCTP_PORT == p.val
  | _ => false
/-- An entry covers a register. -/
def EnvEntry.covers (e : EnvEntry) (a : Nat) : Bool :=
  e.addr ≤ a && (if e.stride = 0 then a == e.addr else (a - e.addr) % e.stride == 0 && (a - e.addr) / e.stride < e.count)
/-- Block bit of READ_BLOCKS for an address (Tables 16-4 and 16-15). -/
def readBlock (a : Nat) : Nat :=
  if a < 0x100000 then 0 else if a < 0x200000 then 1 else if a < 0x400000 then 2 else if a < 0x1000000 then 3
  else if a < 0x10000000 then 4 else if a < 0x20000000 then 5 else 6
/-- A register is readable under the envelope (R463). -/
def State.readable (s : State) (a : Nat) : Bool :=
  s.envelope.reads.getLsbD (readBlock a) || s.envelope.entries.any (fun e => e.rd && e.covers a)
/-- The judgement of one attempted field: the reason it fails, if it does (R463). -/
def State.judge (s : State) (a lsb width v : Nat) : Option Nat :=
  match s.envelope.entries.find? (fun e => e.wr && e.covers a && e.lsb == lsb && e.width == width) with
  | none => some 5
  | some e => if v < e.lo ∨ v > e.hi then some 6 else none

/-- The holder of the lease makes the access. -/
def State.holds (s : State) (src : Src) : Bool := s.mgr.holder == some src

/-! ### The reach of JTAG (R444, R445) -/

/-- Life-cycle states in which JTAG reaches every register: MAKER_BLANK, MAKER_TEST, RETURNED, RETIRED (Table 15-15). -/
def State.lcOpen (s : State) : Bool := [0x01, 0x03, 0x1F, 0x3F].contains (s.rd F.PKG_LC_CODE)
/-- Addresses of the locked set of Table 9-9 that the map holds: the security block's. The other storage it names has no
address (DEDUCED). -/
def lockedAddr (a : Nat) : Bool := 0x400000 ≤ a && a < 0x1000000
/-- Registers of the NOR window: PKG_NOR_CTRL and PKG_NOR_DATA. -/
def norAddr (a : Nat) : Bool := a == 0x600 || (0x700 ≤ a && a < 0x800)
/-- Registers of a cell's port and lanes: offset in the cell's block, and offset in the lane's registers. -/
def laneAddr (a : Nat) : Bool := 0x10000000 ≤ a && a < 0x20000000 && a % 0x100000 < 0x300
def laneTestAddr (a : Nat) : Bool := laneAddr a && (a % 0x100000 == 0x10 || (a % 0x100000 ≥ 0x100 && a % 0x80 == 0x20))
/-- LANE_ registers that only report: not LANE_PORT_CFG, LANE_PORT_CTRL or LANE_TEST (DEDUCED). -/
def laneStatusAddr (a : Nat) : Bool := laneAddr a && !laneTestAddr a && a % 0x100000 != 8
/-- DBG_ACC may read, and may write, a register (Table 15-15). -/
def State.jtagReads (s : State) (a : Nat) : Bool :=
  s.lcOpen || (s.rd F.PKG_LC_CODE == 7 && !lockedAddr a) || (s.rd F.PKG_LC_CODE == 0xF && (a < 0x400000 || laneStatusAddr a))
def State.jtagWrites (s : State) (a : Nat) : Bool := s.lcOpen || (s.rd F.PKG_LC_CODE == 7 && (laneTestAddr a || norAddr a))
/-- A refused access to the locked set (R291, R445): counted, and one audit entry for the attempts of a source at a block of
1 MiB within 1 s of the first. -/
def State.lockedHit (s : State) (src : Src) (a : Nat) (write : Bool) : State :=
  let s := s.sat F.PKG_DEBUG_LOCKED_HITS
  let now := s.rd F.RIND_RTC_SEC * 32768 + s.rd F.RIND_RTC_SUBSEC
  let hit (r : AuditRec) : Bool := r.kind == 1 && r.source == srcCode src && r.addr / 2 ^ 20 == a / 2 ^ 20
    && now < r.sec * 32768 + r.subsec + 32768
  match s.log.audit.findIdx? hit with
  | some n => { s with log.audit := s.log.audit.modify n (fun r => { r with count := min (2 ^ 32 - 1) (r.count + 1) }) }
  | none => s.logAudit 1 (srcCode src) write.toNat a 0
/-- A refused JTAG access: silent, and audited where it is to the locked set. -/
def State.jtagRefused (s : State) (a : Nat) (write : Bool) : State := if lockedAddr a then s.lockedHit .jtag a write else s

/-- Registers that SEALED_HALT lets the manager port write without a lease (R444): PKG_LC_REQ, PKG_LC_TOKEN,
PKG_IMAGE_VERIFY, the NOR window, and PKG_LOG_SEL of the log reads. -/
def haltWrites (a : Nat) : Bool := a == 0x308 || (0x400 ≤ a && a < 0x600) || a == 0x3E0 || norAddr a || a == 0x220
/-- Registers that SEALED_HALT lets it read: the PKG registers that R444 names, the RIND block, the log window, and those it
writes. -/
def haltReads (a : Nat) : Bool :=
  a < 0x20 || a == 0x40 || (0x220 ≤ a && a < 0x2D8) || (0x300 ≤ a && a < 0x3E8) || (0x100000 ≤ a && a < 0x200000) || haltWrites a

/-- A write of value v to one field, on its own: the service processors act without the lease, JTAG within its reach, any
other source needs the lease and the envelope (R17, R444, R452); a refused one leaves its record. -/
def State.mayWrite (s : State) (src : Src) (f : Fld) (v : Nat) : Bool × State :=
  match src with
  | .sp => (true, s)
  | .jtag => if s.jtagWrites f.addr then (true, s) else (false, s.jtagRefused f.addr true)
  | _ =>
    if s.mode = .sealedHalt then
      if src = .mgr ∧ haltWrites f.addr then (true, s) else (false, s.logAccess src 3 f.addr (v * 2 ^ f.lsb))
    else if !s.holds src then (false, s.logAccess src 3 f.addr (v * 2 ^ f.lsb))
    else match s.judge f.addr f.lsb f.width v with
      | none => (true, s)
      | some r => (false, s.logAccess src r f.addr (v * 2 ^ f.lsb))
/-- Runs an operation that a write starts, if the write may be made. -/
def State.ifMay (s : State) (src : Src) (f : Fld) (v : Nat) (k : State → State) : State :=
  let (ok, s) := s.mayWrite src f v
  if ok then k s else s

/-! ### The lease (R458 to R460) -/

/-- Milliseconds left. -/
def State.leaseLeft (s : State) : Nat := (s.mgr.leaseEnd - s.wall) / msCyc
/-- Grants the lease, or restarts it. -/
def State.grantLease (s : State) (src : Src) (client : Nat) : State :=
  { s with mgr.holder := some src, mgr.client := client, mgr.leaseEnd := s.wall + s.leaseMs * msCyc }
/-- The close step of an epoch is over: no fence epoch is open, and no module commit runs or goes before it (R275). -/
def State.epochFree (s : State) : Bool :=
  !s.scrim.epochOpen && s.sec.barrier.isNone && (s.mgr.epoch.map (·.after)).getD 0 == 0
/-- An epoch that still waits in its close step holds nothing yet: its shadows are discarded with the others (R460, R469). -/
def State.emptyClose (s : State) : State :=
  match s.mgr.epoch with
  | some e =>
    if e.phase = .close ∧ !s.epochFree then
      let old := e.shadows.filter (fun (x : Nat × (Nat × Nat)) => (mget s.mgr.shadow x.1).isNone)
      { s with
        mgr.epoch := some { e with shadows := [] }
        mgr.shadow := s.mgr.shadow ++ old }
    else s
  | none => s
/-- Every shadow not in an epoch is discarded, with its commit record (R42, R460). -/
def State.dropShadows (s : State) (kind rule : Nat) : State :=
  let n := s.mgr.shadow.length
  let s := { s with mgr.shadow := [] }
  let s := s.wr F.PKG_COMMIT_SHADOWS 0
  s.logCommit kind rule 0 none 0 0 n
/-- TEST of a port ends (R308): its lanes take their test-free settings, FAULTY clears (R303), and the port retrains. -/
def State.endTest (s : State) (a : Cell) : State :=
  let s := (List.range (4 * s.portCells a)).foldl (fun (s : State) j =>
    let l := 4 * a.val + j
    ({ s.setReg (F.LANE_TEST_at l) 0 with lane.locked := mdel s.lane.locked l }.wr (F.LANE_PRBS_STAT_LOCKED l) 0).wr (F.LANE_STATUS_FAULTY l) 0) s
  let s := (s.wr (F.LANE_PORT_STATUS_LANES_FAULTY a) 0).wr (F.LANE_PORT_STATUS_RATE a) 0
  let noRef := s.rdb (F.LANE_PORT_STATUS_REF_LOST a) && !s.rdb (F.LANE_PORT_STATUS_REF_SRC a) && s.roleOf a != .onora
  let s := (s.wr (F.LANE_PORT_STATUS_STATE a) (if noRef then 1 else 2)).setDomains
  if s.roleOf a = .onora then (s.wr (F.ONL_STATUS_LINK_STATE a) 1).wr (F.ONL_STATUS_TRAIN_STATE a) 1 else s
/-- Touched ports leave TEST and retrain, and admission resumes (R42, R471). -/
def State.leaveMaint (s : State) : State :=
  let s := (List.finRange 128).foldl (fun (s : State) (c : Cell) =>
    if s.pool.paused.contains c.val && s.rd (F.LANE_PORT_STATUS_STATE c) == 6 then s.endTest c else s) s
  { s with pool.paused := [] }
/-- The lease is lost (R460): shadows go, MAINTENANCE ends with cause 0x0F (R42). -/
def State.loseLease (s : State) : State :=
  match s.mgr.holder with
  | none => s
  | some _ =>
    let s := { s with mgr.holder := none, mgr.client := 0, mgr.leaseEnd := 0 }
    let s := (s.sat F.MGR_ACCESS_CNT_LEASE_LOSSES).emptyClose.dropShadows 3 8
    if s.mode = .maintenance then s.leaveMaint.goMode .service 0x0F else s

end Sys2Proof.Machine
end

