-- ==== Sys2Proof/Machine/ProtOps.lean ====
section
/-! DEFINITION. Isolation (spec/09): region entries and the default map, the outcome of a checked access, violation
records, the commit barrier, and key slots. -/

namespace Sys2Proof.Machine

/-- A word with a mask's bits replaced. -/
def overlay (w : Word) (m : Nat × Nat) : Word :=
  (w &&& ~~~(BitVec.ofNat 64 m.1)) ||| (BitVec.ofNat 64 m.2 &&& BitVec.ofNat 64 m.1)

/-! ### Region entries (R266 to R268) -/

/-- The valid entries of a cell, with their numbers. -/
def State.regions (s : State) (c : Nat) : List (Nat × Region) :=
  (s.sec.region.filter (fun (e : Nat × Region) => e.1 / 1024 == c)).map (fun (e : Nat × Region) => (e.1 % 1024, e.2))
/-- Sets or clears an entry; ENTRIES follows. The registers of PROT_REGION keep only the words of entries that are not valid. -/
def State.setRegion (s : State) (c n : Nat) (r : Option Region) : State :=
  let k := c * 1024 + n
  let s := if r.isSome then (List.range 4).foldl (fun (s : State) w => s.setReg (F.PROT_REGION_at c n w) 0) s else s
  let s := { s with
    sec.region := match r with
      | some x => mput s.sec.region k x
      | none => mdel s.sec.region k }
  s.wr (F.PROT_STATUS_ENTRIES c) (s.regions c).length

/-- The words of a valid entry move into its registers. -/
def State.keepWords (s : State) (c n : Nat) : State :=
  match mget s.sec.region (c * 1024 + n) with
  | some r => (List.range 4).foldl (fun (s : State) w => s.setReg (F.PROT_REGION_at c n w) (BitVec.ofNat 64 (r.words.getD w 0))) s
  | none => s

/-- A checked access: instance, class and kind. -/
structure Acc where
  inst : Nat
  priv : Bool
  dev : Bool
  opc : Opc
/-- The access a request makes needs RD, WR (R267). -/
def needsRd (o : Opc) : Bool := o = .rds || o = .rdi || o = .specrd || o = .rda || o = .inva
def needsWr (o : Opc) : Bool := o = .wri || o = .wra || o = .wrptl || o = .rda || o = .inva
/-- ACCESS code of Table 9-5. -/
def accessCode (o : Opc) : Nat :=
  if o = .rda ∨ o = .inva then 2 else if o = .clnevct then 3 else if needsWr o then 1 else 0

/-- The outcome of the check of one line: its pool line, and whether an RDA is performed as an RDS; a block of the default
map that the anchor has not cached; or the reason of a denial. -/
inductive Verdict where
  | ok (line : Nat) (asRds : Bool)
  | fetch (region block : Nat)
  | deny (reason : Nat)
  deriving DecidableEq, Repr

/-- The owner whose capacity region r of an instance maps: the instance, or its sharing group (R234, R268). -/
def State.ownerKey (s : State) (i r : Nat) : Option Nat :=
  if r = 0 then some i
  else if s.rdb (F.INST_INFO_GROUPED i) then some (4096 + s.rd (F.INST_INFO_GROUP i)) else none
def State.owner (s : State) (k : Nat) : Owner := mgetD {} s.pool.own k
def State.setOwner (s : State) (k : Nat) (o : Owner) : State := { s with pool.own := mset {} s.pool.own k o }
/-- Default map (R268): the pool line of a DPA line. -/
def State.defaultMap (s : State) (i line : Nat) (cached : Bool) : Verdict :=
  let r := line / 2 ^ 40
  if r ≥ 2 then .deny 2
  else
    let k := line % 2 ^ 40 / 2 ^ 24
    match s.ownerKey i r with
    | none => .deny 2
    | some o =>
      if cached && !(mgetD [] s.pool.mapCache i).contains (r, k) then .fetch r k
      else match (s.owner o).accepted[k]? with
        | some e => .ok (e * 2 ^ 24 + line % 2 ^ 24) false
        | none => .deny 2
/-- The entry of a cell that contains a line of an instance. -/
def State.entryFor? (s : State) (c i line : Nat) : Option (Nat × Region) :=
  (s.regions c).find? (fun (e : Nat × Region) => e.2.inst.val == i && e.2.lo ≤ line && line < e.2.hi)
/-- The check of R267 and R268 at cell c. `cached`: only cached blocks of the default map are at hand. -/
def State.check (s : State) (c : Nat) (a : Acc) (line : Nat) (cached : Bool) : Verdict :=
  if s.pool.cut.contains a.inst then .deny 1
  else match s.entryFor? c a.inst line with
  | some (_, r) =>
    let pool := r.poolLine.toNat + line - r.lo
    if !(if a.priv then r.priv else r.user) || (a.dev && !r.dev) then .deny 3
    else if a.opc = .clnevct then (if r.rd || r.wr then .ok pool false else .deny 4)
    else if a.opc = .rda ∧ r.rd ∧ !r.wr then .ok pool true
    else if (needsRd a.opc && !r.rd) || (needsWr a.opc && !r.wr) then .deny 4
    else .ok pool false
  | none => if a.priv then s.defaultMap a.inst line cached else .deny 1
def Verdict.allowed : Verdict → Bool
  | .ok _ _ => true
  | _ => false

/-- The lines at which the entry that contains a line, or its default-map block, can change, within a range. -/
def State.cuts (s : State) (c i lo n : Nat) : List Nat :=
  let inside := (((s.regions c).filter (fun (e : Nat × Region) => e.2.inst.val == i)).flatMap
    (fun (e : Nat × Region) => [e.2.lo, e.2.hi])).filter (fun x => lo < x && x < lo + n)
  let blocks := ((List.range (n / 2 ^ 24 + 2)).map (fun k => (lo / 2 ^ 24 + k) * 2 ^ 24)).filter (fun x => lo < x && x < lo + n)
  (inside ++ blocks).foldl (fun acc x => acc.filter (· < x) ++ x :: acc.filter (· > x)) []
/-- A range of lines cut into runs of one outcome: first line, lines, verdict of the first, number of the entry. -/
def State.runs (s : State) (c : Nat) (a : Acc) (lo n : Nat) : List (Nat × Nat × Verdict × Option Nat) :=
  let starts := lo :: s.cuts c a.inst lo n
  starts.mapIdx (fun k x =>
    (x, (starts[k + 1]?).getD (lo + n) - x, s.check c a x false, (s.entryFor? c a.inst x).map (·.1)))
/-- Parts of R271: neighbouring runs of one entry and one outcome are one part. -/
def parts : List (Nat × Nat × Verdict × Option Nat) → List (Nat × Nat × Bool)
  | [] => []
  | (x, n, v, e) :: t =>
    match parts t, t with
    | (y, m, ok) :: ps, (_, _, _, e') :: _ =>
      if e = e' ∧ ok = v.allowed then (x, n + m, ok) :: ps else (x, n, v.allowed) :: (y, m, ok) :: ps
    | ps, _ => (x, n, v.allowed) :: ps

/-! ### Violation records (R273) -/

/-- A violation at a cell, its PARTS and DENIED saturated: counted, written to its ring while it has room, and sent to the service processor. -/
def State.violate (s : State) (c : Cell) (r : ViolRec) : State :=
  let r := { r with time := s.ns, cell := c.val, parts := min 255 r.parts, denied := min 255 r.denied }
  let s := s.inc (F.PROT_VIOL_CNT_TOTAL c)
  let w := s.rd (F.PROT_VLOG_PTR_WR_IDX c)
  let s :=
    if (w + 1) % 64 = s.rd (F.PROT_VLOG_PTR_RD_IDX c) then
      let s := s.sat (F.PROT_VIOL_CNT_DROPPED c)
      if s.sec.ringFull.contains c.val then s
      else { s.logYield 1 8 (some c) 0xFFFF 0x010B c.val with sec.ringFull := c.val :: s.sec.ringFull }
    else
      let s := s.wr (F.PROT_VLOG_REC c w 0) r.time
      let s := s.wr (F.PROT_VLOG_REC c w 1) (r.inst + r.requester * 2 ^ 12 + r.cell * 2 ^ 16 + r.port * 2 ^ 24
        + r.access * 2 ^ 32 + r.reason * 2 ^ 40 + r.parts * 2 ^ 48 + r.denied * 2 ^ 56)
      let s := s.wr (F.PROT_VLOG_REC c w 2) r.addr
      let s := s.wr (F.PROT_VLOG_REC c w 3) (r.len + r.deniedBytes * 2 ^ 32)
      let s := s.inc (F.PROT_VLOG_PTR_WR_IDX c)
      { s with sec.ringFull := s.sec.ringFull.filter (· != c.val) }
  if s.activeSp.isNone then s.sat (F.PKG_LOG_DROP_DROPPED 1)
  else ({ s with log.viol := (r :: s.log.viol).take 65536 }).logBump 1 65536

/-! ### Instances -/

/-- STATE of an instance (Table 8-3). -/
def State.instSt (s : State) (i : Nat) : Nat := s.rd (F.INST_INFO_STATE i)
/-- Template of an instance. -/
def State.tmplOf (s : State) (t : Nat) : Tmpl := mgetD {} s.img.templates t
def State.tmpl (s : State) (i : Nat) : Tmpl := s.tmplOf (s.rd (F.INST_INFO_TEMPLATE i))
/-- Class of an instance's requests and of its write data: its template's, or the cell's default (R134). -/
def State.reqTc (s : State) (c i : Nat) : Tc :=
  Fin.ofNat 8 (if (s.tmpl i).reqTc = 0 then s.rd (F.GATE_CLASS_MAP_REQ_TC c) else (s.tmpl i).reqTc)
def State.dataTc (s : State) (c i : Nat) : Tc :=
  Fin.ofNat 8 (if (s.tmpl i).dataTc = 0 then s.rd (F.GATE_CLASS_MAP_RWD_TC c) else (s.tmpl i).dataTc)
/-- Virtual ports of an anchor bound to instances: (vPPB, instance). -/
def State.boundVppbs (s : State) (a : Nat) : List (Nat × Nat) :=
  (List.range 64).filterMap (fun v =>
    if s.rd (F.INST_VPPB_KIND a v) = 1 then some (v, s.rd (F.INST_VPPB_TARGET a v)) else none)
def State.instOn (s : State) (a i : Nat) : Bool := (s.boundVppbs a).any (fun x => x.2 == i)
/-- Event for the tenant (Table 8-13). -/
def State.tenantEvent (s : State) (i code : Nat) : State := (s.wr (F.INST_EVENT_CODE i) code).wr (F.INST_EVENT_TIME i) s.us
/-- Adds to an instance count: 0 READS, 1 WRITES, 2 RD_LAT, 3 HOLD_NS, 4 THROTTLE_NS (R481). -/
def State.instCount (s : State) (i k n : Nat) : State :=
  { s with ctr.inst := mmod 0 s.ctr.inst (i * 8 + k) (fun x => (x + n) % 2 ^ 64) }
/-- The virtual switch a DEVICE cell's port is bound in: anchor and vPPB. -/
def State.deviceVcs (s : State) (c : Nat) : Option (Nat × Nat) :=
  ((List.range 128).filter (fun a => s.roleOf (Cell.of a) = .host)).findSome? (fun a =>
    ((List.range 64).find? (fun v => s.rd (F.INST_VPPB_KIND a v) = 2 && s.rd (F.INST_VPPB_TARGET a v) % 128 == c)).map
      (fun v => (a, v)))

/-- An event that a rule has logged (R239, R247, R281; log 124). -/
def State.logEvent (s : State) (k : EventKind) (subj port : Nat) : State :=
  if s.activeSp.isNone then s
  else { s with log.event := ({ time := s.ns, kind := k, subj := subj, port := port } :: s.log.event).take 65536 }

/-! ### The commit barrier (R277) -/

/-- An open slot of a cell's port holds a request of one of these instances, or a COPY part of one is open (R277). -/
def State.barrierBusy (s : State) (c : Nat) (is : List Nat) : Bool :=
  let ms := (s.portMembers (s.anchorOf (Cell.of c))).map (·.val)
  s.xbar.slots.any (fun (e : Nat × TSlot) => ms.contains (e.1 / 1024) && is.contains e.2.hdr.inst.val && (!e.2.io || e.2.dev.isSome))
    || s.pool.copy.any (fun (e : Nat × CopyOp) => is.contains e.1 && e.2.parts.any (fun (q : CopyPart) => q.started && !q.ended))
/-- A barrier pauses its instances in every cell concerned. -/
def State.startBarrier (s : State) (b : Barrier) : State :=
  let b := { b with cells := b.cells.filter (fun c => !s.cellFenced (Cell.of c)) }
  let s := b.cells.foldl (fun (s : State) c => (s.wr (F.PROT_STATUS_PAUSED c) b.insts.length).wr (F.PROT_STATUS_BARRIER c) 1) s
  -- a paused instance falls short of its minimum (R46, Table 12-8)
  let s := b.insts.foldl (fun (s : State) i => s.logYield 1 5 (some (Cell.of (s.rd (F.INST_INFO_HOST_PORT i)))) i 0x0105 i) s
  { s with sec.barrier := some b }
/-- An instance is paused at a cell. -/
def State.pausedAt (s : State) (c i : Nat) : Bool :=
  match s.sec.barrier with
  | some b => b.cells.contains c && b.insts.contains i
  | none => false
/-- Every cell of the barrier resumes. -/
def State.endBarrier (s : State) (b : Barrier) : State :=
  let s := b.cells.foldl (fun (s : State) c => (s.wr (F.PROT_STATUS_PAUSED c) 0).wr (F.PROT_STATUS_BARRIER c) 0) s
  { s with sec.barrier := none }

/-! ### The rules of R276 -/

/-- Two ranges overlap. -/
def overlap (a n b m : Nat) : Bool := a < b + m && b < a + n
/-- Both belong to members of one sharing group, and every extent of both ranges is the group's. -/
def State.shareGroup (s : State) (p q : Region) : Bool :=
  s.rdb (F.INST_INFO_GROUPED p.inst) && s.rdb (F.INST_INFO_GROUPED q.inst)
    && s.rd (F.INST_INFO_GROUP p.inst) == s.rd (F.INST_INFO_GROUP q.inst)
    && (p.extents ++ q.extents).all (fun e => (s.owner (4096 + s.rd (F.INST_INFO_GROUP p.inst))).exts.contains e)
/-- The copy of the home extent map at cell c (R224). -/
def State.homeExt (s : State) (c : Cell) (e : Nat) : ExtEnt := mgetD {} s.home.ext (c.val * 65536 + e)
/-- LIFE of an extent: 1 OWNED, 2 RETIRED, 3 SCRUBBING (R235). -/
def State.lifeOf (s : State) (e : Nat) : Nat := mgetD 0 s.pool.life e
/-- An extent has no owner, or is leaving it: retired, or its entries or its keys are being taken away (R262, R276, R285). -/
def State.ownerless (s : State) (e : Nat) : Bool :=
  s.lifeOf e == 2
    || s.pool.notes.any (fun (n : Nat × MapNote) => match n.2.goal with
      | .retire _ es _ => es.contains e
      | _ => false)
    || (s.sec.barrier.toList ++ s.sec.waiting).any (fun (b : Barrier) => match b.goal with
      | .retire _ es _ => es.contains e
      | _ => false)
/-- A module commit that runs or waits clears an entry. -/
def State.leaving (s : State) (c n : Nat) : Bool :=
  (s.sec.barrier.toList ++ s.sec.waiting).any (fun (b : Barrier) => b.sets.any (fun x => x.1 == c && x.2.1 == n && x.2.2.isNone))
/-- Equal entries of one instance in two cells are one entry: where one is a DEVICE cell's copy of those of its virtual switch (R266), and
while a migration has both ports hold them or one of the two is being cleared (R246). -/
def State.sameEntry (s : State) (x y : Nat × Nat × Region) : Bool :=
  let i := x.2.2.inst.val
  let copy (c : Nat) : Bool := s.roleOf (Cell.of c) == .device && (s.deviceVcs c).any (fun v => s.instOn v.1 i)
  x.2.2 == y.2.2 && (copy x.1 || copy y.1 || (mget s.pool.migs i).isSome || s.leaving x.1 x.2.1 || s.leaving y.1 y.2.1)
/-- The first rule of R276 that a table of entries breaks, (cell, entry, region) each: REASON, entry, the other one. Where a change breaks
several rules, the REASON shown is the first in the order 1, 2, 3, 4, 6, 7 (DESIGN CHOICE, log 144). An extent that has left its owner is no
instance's (R262). -/
def State.regionFault (s : State) (l : List (Nat × Nat × Region)) : Option (Nat × (Nat × Nat) × (Nat × Nat)) :=
  let pairs := l.flatMap (fun x => (l.filter (fun y => (x.1 = y.1 ∧ x.2.1 < y.2.1) ∨ (x.1 < y.1 ∧ !s.sameEntry x y))).map (fun y => (x, y)))
  let at2 (x : (Nat × Nat × Region) × (Nat × Nat × Region)) := ((x.1.1, x.1.2.1), (x.2.1, x.2.2.1))
  let at1 (x : Nat × Nat × Region) := ((x.1, x.2.1), (x.1, x.2.1))
  (pairs.find? (fun x => x.1.2.2.inst == x.2.2.2.inst
      && overlap x.1.2.2.lo x.1.2.2.len.toNat x.2.2.2.lo x.2.2.2.len.toNat)).map (fun x => (1, at2 x))
  |>.orElse (fun _ => (pairs.find? (fun x => overlap x.1.2.2.poolLine.toNat x.1.2.2.len.toNat x.2.2.2.poolLine.toNat
      x.2.2.2.len.toNat && !s.shareGroup x.1.2.2 x.2.2.2)).map (fun x => (2, at2 x)))
  |>.orElse (fun _ => (l.find? (fun x => x.2.2.extents.any (fun e =>
      let h := s.homeExt (Cell.of x.1) e
      s.ownerless e || if x.2.2.lo ≥ 2 ^ 40 then
        !(h.group && s.rdb (F.INST_INFO_GROUPED x.2.2.inst) && h.owner.val == s.rd (F.INST_INFO_GROUP x.2.2.inst))
      else h.group || h.owner != x.2.2.inst || h.st = .free))).map (fun x => (3, at1 x)))
  |>.orElse (fun _ => (l.find? (fun x => x.2.2.hi > 2 ^ 41 || (x.2.2.lo < 2 ^ 40 && x.2.2.hi > 2 ^ 40))).map
      (fun x => (4, at1 x)))
  |>.orElse (fun _ => (l.find? (fun x => (l.filter (fun y => y.1 == x.1)).length > 1024)).map (fun x => (6, at1 x)))
  |>.orElse (fun _ => (l.find? (fun x => x.2.2.len = 0 || x.2.2.len.toNat > 2 ^ 40)).map (fun x => (7, at1 x)))
/-- Every valid entry of the module, with a set of changes in place. -/
def State.regionsWith (s : State) (sets : List (Nat × Nat × Option Region)) : List (Nat × Nat × Region) :=
  ((s.sec.region.filter (fun (e : Nat × Region) => !sets.any (fun x => x.1 * 1024 + x.2.1 == e.1))).map
      (fun (e : Nat × Region) => (e.1 / 1024, e.1 % 1024, e.2)))
    ++ sets.filterMap (fun x => x.2.2.map (fun r => (x.1, x.2.1, r)))
/-- The cells of a change, each with the first of its entries that change. -/
def firstEntries (sets : List (Nat × Nat × Option Region)) : List (Nat × Nat) :=
  ((sets.map (·.1)).dedup).map (fun c => (c, ((sets.find? (fun x => x.1 == c)).map (·.2.1)).getD 0))
/-- REFUSED, REASON and the entries of PROT_COMMIT_ERR in each cell whose change is refused (R276): ENTRY_A is the cell's own, ENTRY_B the
other one. A cell that holds neither of the two shows the first entry that it was to change, and entry a (DESIGN CHOICE, log 144). -/
def State.refuseRegions (s : State) (cells : List (Nat × Nat)) (reason : Nat) (a b : Nat × Nat) : State :=
  cells.foldl (fun (s : State) c =>
    let (own, other) := if c.1 = a.1 then (a.2, b) else if c.1 = b.1 then (b.2, a) else (c.2, a)
    let s := (s.flag (F.PROT_COMMIT_ERR_REFUSED c.1)).wr (F.PROT_COMMIT_ERR_REASON c.1) reason
    let s := (s.wr (F.PROT_COMMIT_ERR_ENTRY_A c.1) own).wr (F.PROT_COMMIT_ERR_ENTRY_B c.1) other.2
    s.wr (F.PROT_COMMIT_ERR_CELL_B c.1) other.1) s

/-! ### Key slots (R281, R282) -/

def State.keyRec (s : State) (k : Nat) : KeyRec := mgetD {} s.sec.slots k
def State.setKeyRec (s : State) (k : Nat) (r : KeyRec) : State :=
  let s := { s with sec.slots := mset {} s.sec.slots k r }
  s.wr F.SEC_STATUS_SLOTS_ACTIVE (s.sec.slots.filter (fun (e : Nat × KeyRec) => e.2.st != 0)).length
/-- Keys can be generated. -/
def State.keysOk (s : State) : Bool := !s.rdb F.SEC_STATUS_DRBG_FAIL && !s.rdb F.SEC_STATUS_ENTROPY_FAIL
/-- The lowest EMPTY slot. -/
def State.emptySlot (s : State) : Option Nat :=
  (List.range 8191).find? (fun k => match mget s.sec.slots k with | some r => r.st == 0 && !r.making | none => true)
/-- Takes the lowest EMPTY slot for an owner; its key is being generated. -/
def State.allocSlot (s : State) (owner : Nat) (group : Bool) : Option Nat × State :=
  match s.emptySlot with
  | some k =>
    if s.keysOk then (some k, s.setKeyRec k { st := 1, group := group, owner := owner, at_ := s.wall, making := true })
    else (none, s)
  | none => (none, s)
/-- An operation that needs a key got none: where the health tests have failed, the module logs it (R281). -/
def State.noKeyFor (s : State) (owner : Nat) : State := if s.keysOk then s else s.logEvent .noKey owner 0
/-- The MEMORY cells of the module that are not fenced. -/
def State.memCells (s : State) : List Cell :=
  (List.finRange 128).filter (fun c => s.roleOf c = .memory && !s.cellFenced c)
/-- The transport key (R280): a draw of the DRBG at IMAGE_LOAD. -/
def State.transportKey (s : State) : Option (BitVec 256) := s.sec.transport.map (fun n => BitVec.ofNat 256 (Config.freeRandom n))
/-- The KEYLOAD notes of a slot for some cells: its key, wrapped under the transport key (R282). -/
def State.keyNotes (s : State) (cs : List Cell) (k : Nat) : List (Nat × Nat × BitVec 576) :=
  match s.transportKey with
  | some t => cs.map (fun c => (c.val, k, wrapKey t (s.keyRec k).key))
  | none => []
/-- KEYLOAD notes for a slot go to every MEMORY cell. -/
def State.sendLoads (s : State) (k : Nat) : State := { s with sec.loads := s.sec.loads ++ s.keyNotes s.memCells k }
/-- Every MEMORY cell holds the key of a slot. -/
def State.keyLoaded (s : State) (k : Nat) : Bool :=
  !(s.keyRec k).making && s.memCells.all (fun c => (mget s.sec.keyRam (c.val * 8192 + k)).isSome)

end Sys2Proof.Machine
end

