-- ==== Sys2Proof/Machine/EngineOps.lean ====
section
/-! DEFINITION. The tracker slots and credits of a port (spec/03 R79 to R81); what the engines of a die send to homes and take back
(spec/08 R251, R255): the lines of a COPY, whose messages carry tag slot 0x3FF of the die's first cell (DESIGN CHOICE, log 13); and the
lines of a device's request. -/

namespace Sys2Proof.Machine

/-! ### Slots and credits of a port (R79 to R81) -/

/-- HOLD_MAX, SLOT_MAX as they act (Table 8-16). -/
def State.holdMax (s : State) (i : Nat) : Nat := max 1 (min 1024 (s.rd (F.INST_SHARE0_HOLD_MAX i)))
def State.slotMax (s : State) (i : Nat) : Nat := max 1 (s.rd (F.INST_SHARE0_SLOT_MAX i))
/-- Free slots of the port beyond IO_RES (R81). -/
def State.memSlots (s : State) (a : Cell) : Nat := (s.portMembers a).foldl (fun n c => n + (s.freeSlots c - s.ioRes c)) 0
/-- CREDIT_CLOSED of a port (R81, R242): no slot is free beyond IO_RES, or the hold of a bound instance is full. -/
def State.portCredit (s : State) (a : Cell) : State :=
  s.wrb (F.INST_PORT_STATUS_CREDIT_CLOSED a)
    (s.memSlots a = 0 || (s.boundVppbs a).any (fun x => s.holdMax x.2 ≤ s.rd (F.INST_USE_HELD x.2)))
/-- Request credit follows R81 and R242: CLOSED of the instance, CREDIT_CLOSED of the port. -/
def State.creditUpdate (s : State) (a : Cell) (i : Nat) : State :=
  (s.wrb (F.INST_USE_CLOSED i) (s.holdMax i ≤ s.rd (F.INST_USE_HELD i))).portCredit a
/-- The slot cell of a CXL.mem request to an instance: most free slots, the lowest cell among equals (R80). -/
def State.slotCell (s : State) (a : Cell) : Cell :=
  (s.portMembers a).foldl (fun best c => if s.freeSlots c > s.freeSlots best then c else best) a
/-- The slot cell of CXL.io and pass-through traffic: anchor + (E mod n), E the egress port (R80). -/
def State.ioCell (s : State) (a e : Cell) : Cell := Cell.of (a.val + e.val % s.portCells a)
/-- The DEVICE port bound to a vPPB. -/
def State.vppbDevice (s : State) (a : Cell) (v : Fin 64) : Option Cell :=
  if s.rd (F.INST_VPPB_KIND a v) = 2 then some (Cell.of (s.rd (F.INST_VPPB_TARGET a v) % 128)) else none
/-- Class of a message between a host and its pass-through device (Table 5-1): requests REQ_TC, data RWD_TC toward the device and TC5 toward
the host, CXL.cache responses TC7, other completions NDR_TC; snoops TC6 (DESIGN CHOICE, log 115: the table has no row for a host's CXL.cache
snoops). -/
def State.passTc (s : State) (c : Cell) (toDevice cache : Bool) (v : Fin 4) : Tc :=
  match v with
  | 0 => if cache then 7 else Fin.ofNat 8 (s.rd (F.GATE_CLASS_MAP_NDR_TC c))
  | 1 => if toDevice then Fin.ofNat 8 (s.rd (F.GATE_CLASS_MAP_RWD_TC c)) else 5
  | 2 => 6
  | 3 => Fin.ofNat 8 (s.rd (F.GATE_CLASS_MAP_REQ_TC c))
/-- An absorbed packet of a request of the port that awaits its re-issue (R86). -/
def State.lostOf (s : State) (a : Cell) (sel : TSlot → Bool) : Bool :=
  s.spill.lost.any (fun (p : Pkt) => (s.portMembers a).contains p.tagCell && match s.slot p.tagCell p.tagSlot with
    | some t => t.hdr.gen == p.gen && sel t
    | none => false)
/-- Traffic between a host and its pass-through device enters at port a toward port e (R79 to R81, R151). A message that answers a request goes
to the cell of its tag, or on under a tag of this port. A request takes a slot of its slot cell; with none free, or while a re-issue of its tuple
is due (R86), it waits for credit. -/
def State.passIn (s : State) (a e : Cell) (opc : Opc) (tc : Tc) (addr : BitVec 52) (mcell : Cell) (data : List Line) (tag : Option PassTag) (rx : Nat) :
    State :=
  let sc := s.ioCell a e
  let p : Pkt := { opc := opc, src := sc, dst := e, tagCell := sc, addr := addr, mcell := mcell, tc := tc, data := data.take 64,
                   len := Fin.ofNat 65 (min 64 data.length) }
  match tag with
  | some g =>
    let own := (s.portMembers a).contains g.cell
    if !own && !(s.portMembers e).contains g.cell then s
    else s.send { p with src := if own then g.cell else sc, dst := if own then e else g.cell, tagCell := g.cell, tagSlot := g.slot, gen := g.gen,
                         mv := if g.final then .E else .I }
  | none =>
    if s.lostOf a (fun t => t.io && t.hdr.dst == e && t.hdr.opc.vc == opc.vc && t.hdr.tc == tc) then s
    else match s.firstSlot sc with
    | none => s
    | some k =>
      let p := { p with tagSlot := k }
      ((s.takeSlot sc k { hdr := { p with data := [] }, egress := e, at_ := s.cyc, rx := rx, port := a, wdata := p.data, io := true }).portCredit a).send p
/-- Takes a tracker slot for a request that is answered at its originating cell (R247, R269). -/
def State.answerHere (s : State) (c a : Cell) (p : Pkt) (rx : Nat) (resp : Resp) (gone io : Bool := false) : State :=
  match s.firstSlot c with
  | some k => s.takeSlot c k { hdr := { p with src := c, tagCell := c, tagSlot := k }, egress := c, at_ := s.cyc, rx := rx, port := a,
                               resp := some resp, silent := true, discard := gone, io := io }
  | none => s
/-- Frees a tracker slot, its share of the instance's slots, and the credit it held. -/
def State.releaseSlot (s : State) (c : Cell) (k : Slot) (t : TSlot) : State :=
  let s := s.freeSlot c k
  if t.io || s.instSt t.hdr.inst = 0 then s.portCredit t.port
  else (s.dec (F.INST_USE_SLOTS t.hdr.inst)).creditUpdate t.port t.hdr.inst

/-! ### The lines of a COPY -/

/-- A request of an engine of die d for a line. -/
def State.engineReq (s : State) (d : Nat) (o : Opc) (inst line : Nat) (gen : Nat := 0) : State :=
  let c := ctrlCell d
  s.send { opc := o, src := c, dst := s.homeOf c line, tagCell := c, tagSlot := 0x3FF, gen := Fin.ofNat 8 gen, inst := Fin.ofNat 4096 inst, priv := true,
           addr := BitVec.ofNat 52 (line * 64), tc := 0, hslot := 0x7F, bmask := BitVec.allOnes 64 }
/-- The checks of a COPY part's next line (R255), by the table of the instance's anchor. -/
def State.copyCheck (s : State) (i : Nat) (o : CopyOp) (opc : Opc) (dpa : Nat) : Option Nat :=
  match s.check (s.rd (F.INST_INFO_HOST_PORT i)) { inst := i, priv := o.priv, dev := false, opc := opc } (dpa / 64) false with
  | .ok l _ => some l
  | _ => none
/-- Puts a part back. -/
def State.setPart (s : State) (i : Nat) (o : CopyOp) (q : CopyPart) : State :=
  { s with pool.copy := mput s.pool.copy i { o with parts := o.parts.map (fun (x : CopyPart) => if x.num = q.num then q else x) } }
/-- A part goes on to its next line: a forbidden source line reads as zero, a forbidden destination line is ignored. The
fuel is the number of lines left. A line that one of its sides allows is an allowed portion: a part whose destination is wholly forbidden and whose
source is not reports 0x3 (DESIGN CHOICE, log 141). -/
def State.copyNext (s : State) (i : Nat) (o : CopyOp) (q : CopyPart) : Nat → State
  | 0 => s.setPart i o q
  | n + 1 =>
    if q.line ≥ q.lines then s.setPart i o q
    else
      let src := s.copyCheck i o .rdi (q.srcDpa + q.line * 64)
      let dst := s.copyCheck i o .wri (q.dstDpa + q.line * 64)
      match dst, src with
      | none, none => s.copyNext i o { q with line := q.line + 1, partly := true } n
      | none, some _ => s.copyNext i o { q with line := q.line + 1, partly := true, allowed := true } n
      | some l, none =>
        (s.setPart i o { q with data := some (0, false), granted := none, partly := true, allowed := true, writing := true, gen := 0 }).engineReq o.die .wri i l
      | some _, some l => (s.setPart i o { q with data := none, granted := none, allowed := true, writing := false, gen := 0 }).engineReq o.die .rdi i l
/-- Opens a part at its first line. -/
def State.copyStart (s : State) (i : Nat) (o : CopyOp) (q : CopyPart) : State := s.copyNext i o { q with started := true } (q.lines + 1)
/-- A part that has its source line and the home's grant sends DONE and writes the line. -/
def State.copyTurn (s : State) (i : Nat) (o : CopyOp) (q : CopyPart) (p : Pkt) : State :=
  match q.data, q.granted with
  | some _, some (h, id) =>
    let s := s.send { p with opc := .done, src := ctrlCell o.die, dst := h, htid := id, tc := 6, len := 0, data := [] }
    match s.copyCheck i o .wri (q.dstDpa + q.line * 64) with
    | some l => (s.setPart i o { q with granted := none, writing := true, gen := 0 }).engineReq o.die .wri i l
    | none => s.copyNext i o { q with line := q.line + 1, partly := true } q.lines
  | _, _ => s.setPart i o q
/-- The COPY part of an engine of cell p.dst that waits for a message of a line: as source, or as destination. -/
def State.copyOf (s : State) (p : Pkt) (write : Bool) : Option (Nat × CopyOp × CopyPart) :=
  s.pool.copy.findSome? (fun (e : Nat × CopyOp) =>
    if ctrlCell e.2.die = p.dst then
      (e.2.parts.find? (fun (q : CopyPart) => q.started && !q.ended && q.line < q.lines && q.writing == write
        && (if write then s.copyCheck e.1 e.2 .wri (q.dstDpa + q.line * 64)
            else s.copyCheck e.1 e.2 .rdi (q.srcDpa + q.line * 64)) == some p.line)).map (fun q => (e.1, e.2, q))
    else none)
/-- A message for an engine: the data and grant of a source line, or the turn of its write. -/
def State.engineTake (s : State) (p : Pkt) : Option State :=
  match p.opc with
  | .rdata => (s.copyOf p false).map (fun (i, o, q) =>
      s.copyTurn i o { q with data := some (p.data.headD 0, p.poison), poisoned := q.poisoned || p.poison } p)
  | .grant => (s.copyOf p false).map (fun (i, o, q) => s.copyTurn i o { q with granted := some (p.src, p.htid) } p)
  | .wgo => (s.copyOf p true).map (fun (_, o, q) =>
      -- no data leaves under the WGO of a fenced home (R208)
      if s.cellFenced p.src then s
      else
      let (d, po) := q.data.getD (0, false)
      s.send { p with opc := .wdata, src := ctrlCell o.die, dst := p.mcell, home := p.src, bmask := BitVec.allOnes 64, tc := 0, len := 1,
                      data := [d], pois := poisOne po })
  | .wcmp => (s.copyOf p true).map (fun (i, o, q) =>
      s.copyNext i o { q with line := q.line + 1, data := none, granted := none } q.lines)
  | _ => none

/-! ### A device's request to instances (R79, R263, R269) -/

/-- The byte mask of a line that lies partly in a range. -/
def lineMask (line lo hi : Nat) : Word :=
  BitVec.ofNat 64 ((List.range 64).foldl (fun acc b => if lo ≤ line * 64 + b ∧ line * 64 + b < hi then acc + 2 ^ b else acc) 0)
/-- Lines of a device's request. -/
def DevTrack.lines (d : DevTrack) : Nat := if d.req.len.val = 0 then 0 else (d.dpa + d.req.len.val - 1) / 64 - d.dpa / 64 + 1
/-- The access a device makes (R263). -/
def State.devAcc (s : State) (c : Cell) (r : DevReq) (i : Inst) : Acc :=
  { inst := i, priv := r.pmr && s.rdb (F.PROT_CFG_DEV_PRIV c), dev := true, opc := if r.write then .wri else .rdi }
/-- Re-issues of device requests to home e in one class are due at the port of anchor a (R86). -/
def State.tupleLost (s : State) (a e : Cell) (tc : Tc) : Bool :=
  s.lostOf a (fun t => t.dev.isSome && t.egress == e && t.hdr.tc == tc)
/-- A device's request goes on with its next line (R263, R269): an allowed one goes to its home as RDI, WRI or WRPTL under the request's tag;
a forbidden read line returns zeros, a forbidden write line is ignored. At its end a read completes, and a write, which is posted, frees its
slot. The fuel is the number of lines left, and one. -/
def State.devStep (s : State) (c : Cell) (k : Slot) : Nat → State
  | 0 => s
  | n + 1 =>
    match s.slot c k with
    | none => s
    | some t => match t.dev with
      | none => s
      | some d =>
        let r := d.req
        let line := d.dpa / 64 + d.next
        if d.next = d.lines then
          (if r.write then s.releaseSlot c k t else s.setSlot c k { t with resp := some (.ioCpl d.data false d.poison) })
        else match s.check d.cell (s.devAcc d.cell r t.hdr.inst) line false with
          | .ok l _ =>
            if s.tupleLost t.port (s.homeOf c l) (s.reqTc c t.hdr.inst) then s.setSlot c k { t with dev := some { d with held := true } }
            else
            let m := lineMask line d.dpa (d.dpa + r.len.val)
            let h := s.homeOf c l
            let q : Pkt := { opc := if r.write then (if m = BitVec.allOnes 64 then .wri else .wrptl) else .rdi, src := c, dst := h, tagCell := c,
                             tagSlot := k, gen := t.hdr.gen, inst := t.hdr.inst, priv := (s.devAcc d.cell r t.hdr.inst).priv,
                             tc := s.reqTc c t.hdr.inst, addr := BitVec.ofNat 52 (l * 64), hslot := 0x7F, bmask := m }
            (s.setSlot c k { t with hdr := q, egress := h, wdata := [(r.data[d.next]?).getD 0], rdata := none, granted := none, grantBy := none,
                                    wgo := none, dev := some { d with held := false } }).send q
          | _ => (s.setSlot c k { t with dev := some { d with next := d.next + 1, data := if r.write then [] else d.data ++ [0] } }).devStep c k n
/-- A line of a device's request is complete: a read line has its data and its grant, whose issuer gets DONE. -/
def State.devLine (s : State) (c : Cell) (k : Slot) (t : TSlot) : State :=
  match t.dev with
  | none => s.setSlot c k t
  | some d =>
    if d.req.write then
      (s.setSlot c k { t with dev := some { d with next := d.next + 1 } }).devStep c k (d.lines - d.next + 1)
    else match t.rdata, t.grantBy with
      | some (x, po), some (h, id) =>
        let s := s.send { t.hdr with opc := .done, src := c, dst := h, htid := id, len := 0, data := [] }
        (s.setSlot c k { t with rdata := none, granted := none, grantBy := none,
                                dev := some { d with next := d.next + 1, data := d.data ++ [x], poison := d.poison || po } }).devStep c k
          (d.lines - d.next + 1)
      | _, _ => s.setSlot c k t

end Sys2Proof.Machine
end

