-- ==== Sys2Proof/Machine/Home.lean ====
section
/-! DEFINITION. The commands of the coherence homes, the HBM directory controllers, the originating cells and the anchors
(spec/06), and of the owner proxies, takeover and re-silvering (spec/07). -/

namespace Sys2Proof.Machine

open Host (Outcome)

/-! ### Requests at a home (R176) -/

/-- RDS (Table 6-6). -/
def execRds (p : Pkt) (ecc : Ecc) (s : State) : Outcome State Fault Refusal := .next (s.homeRequest { p with opc := .rds } ecc)
/-- RDA (Table 6-6). -/
def execRda (p : Pkt) (ecc : Ecc) (s : State) : Outcome State Fault Refusal := .next (s.homeRequest { p with opc := .rda } ecc)
/-- RDI (Table 6-6). -/
def execRdi (p : Pkt) (ecc : Ecc) (s : State) : Outcome State Fault Refusal := .next (s.homeRequest { p with opc := .rdi } ecc)
/-- INVA (Table 6-6). -/
def execInva (p : Pkt) (ecc : Ecc) (s : State) : Outcome State Fault Refusal := .next (s.homeRequest { p with opc := .inva } ecc)
/-- WRI (Table 6-6). -/
def execWri (p : Pkt) (ecc : Ecc) (s : State) : Outcome State Fault Refusal := .next (s.homeRequest { p with opc := .wri } ecc)
/-- WRA (Table 6-6). -/
def execWra (p : Pkt) (ecc : Ecc) (s : State) : Outcome State Fault Refusal := .next (s.homeRequest { p with opc := .wra } ecc)
/-- WRPTL (Table 6-6). -/
def execWrptl (p : Pkt) (ecc : Ecc) (s : State) : Outcome State Fault Refusal := .next (s.homeRequest { p with opc := .wrptl } ecc)
/-- CLNEVCT (Table 6-6). -/
def execClnevct (p : Pkt) (ecc : Ecc) (s : State) : Outcome State Fault Refusal := .next (s.homeRequest { p with opc := .clnevct } ecc)
/-- RECALL (Table 6-6). -/
def execRecall (p : Pkt) (ecc : Ecc) (s : State) : Outcome State Fault Refusal := .next (s.homeRequest { p with opc := .recall } ecc)

/-- SPECRD (Table 6-6), through the intake like any request (R168). -/
def execSpecrd (p : Pkt) (s : State) : Outcome State Fault Refusal := .next (s.homeRequest { p with opc := .specrd } .clean)

/-! ### What waits at a home (R166, R169, R170, R204, R205) -/

/-- The head of a line's chain starts. -/
def State.startChain (s : State) (h : Cell) (line : Nat) : State :=
  if s.lineBlocked h line then s
  else match s.chainHead h line with
    | some (id, t) => if t.awDir then s else s.startTxn h id { t with phase := .lookup } .clean
    | none => s
/-- The oldest request that waits for a way of the line's set, or for its index, goes on if one is there now. -/
def State.startWaiter (s : State) (h : Cell) (line : Nat) : State :=
  match s.wayWaiter h line with
  | none => s
  | some (id, t) =>
    let img := s.slabCell h t.req.line
    match s.cset h img (dirSet t.req.line) with
    | some x =>
      if (x.wayOf t.req.line).isSome || x.freeWay.isSome || x.victim.isSome then
        s.place h id t x
      else s
    | none =>
      if s.indexPinned h (dirSet t.req.line) then s else (s.unpark h id t).fetchSet h id { t with phase := .lookup, inOvf := false }
/-- A parked install takes a way of its proxy set, RSP before DAT (R205). -/
def State.startInstall (s : State) (a : Cell) (line : Nat) : State :=
  let l := (mgetD [] s.home.parked a.val).filter (fun p => proxySet p.ent.line.toNat == proxySet line)
  match (l.find? (fun p => !p.dat)).orElse (fun _ => l.head?) with
  | none => s
  | some p =>
    match s.proxyRoom a line with
    | none => s
    | some w => (s.unparkInstall a p).putProxy a line w p.ent
/-- HOME_CHAIN_START (R169, R170, R195, R205). -/
def execHomeChainStart (h : Cell) (line : BitVec 46) (s : State) : Outcome State Fault Refusal :=
  .next <|
    let l := line.toNat
    ((((s.startChain h l).startWaiter h l).startInstall h l).proxyRun h l).departNext h

/-! ### Conflicts (R175, R186, R187, R202) -/

/-- The cell answers a BIConflict. -/
def State.sendBicack (s : State) (h : Cell) (p : Pkt) : State :=
  s.send { p with opc := .bicack, src := h, dst := p.src, tc := 6 }
/-- The host's own request for the line holds a grant whose DONE is still to come at cell h. -/
def State.grantOpen (s : State) (h : Cell) (p : Pkt) : Bool :=
  (s.txns h).any (fun (_, t) => t.req.line == p.line && t.req.hslot == p.hslot && t.granted && t.awDone)
/-- A snoop of the line to the conflict's slot is open at cell h, as home or as proxy. -/
def State.snoopOpen (s : State) (h : Cell) (p : Pkt) : Bool :=
  (s.txns h).any (fun (_, t) => t.req.line == p.line && t.awSnp.contains p.hslot)
    || (mgetD [] s.home.fwdServe h.val).any (fun f => f.p.line == p.line && f.awSnp)
/-- BICONF: into the conflict table, and out of it with BICACK, no earlier than the host's own grant is done (R186,
R202); one that answers no snoop of this cell takes no place in the table (R187). -/
def execBiconf (p : Pkt) (s : State) : Outcome State Fault Refusal :=
  .next <|
    let p := { p with opc := Opc.biconf }
    s.arrive p fun s =>
      let h := p.dst
      let s := s.ctrEvent h 0x0E [5]
      if !s.snoopOpen h p then (s.inc (F.HOME_PROTO_COUNT h)).sendBicack h p
      else if s.grantOpen h p then { s with home.conflicts := mmod [] s.home.conflicts h.val (fun l => l ++ [p]) }
      else s.sendBicack h p
/-- The conflicts that waited for a grant's DONE are answered. -/
def State.answerConflicts (s : State) (h : Cell) : State :=
  let l := mgetD [] s.home.conflicts h.val
  let go := l.filter (fun p => !s.grantOpen h p)
  go.foldl (fun s p => s.sendBicack h p) { s with home.conflicts := mset [] s.home.conflicts h.val (l.filter (s.grantOpen h)) }

/-! ### The HBM directory controllers (R157 to R161, R214) -/

/-- A message reaches the controller of die d: a fenced die or stack absorbs it. -/
def State.ctrlArrive (s : State) (p : Pkt) (k : Nat → State → State) : State :=
  let d := dieOf p.dst
  if s.dieFenced d || s.stackFenced (dieStack d) then s.take p
  else if s.behind p then s
  else if p.stomp then s.take p
  else k d ((s.take p).xingPass (F.SPILL_XING_HBM_at d 0) (1 + p.data.length))
/-- The copies of the directory. -/
def State.dirCopy (s : State) (mirror : Bool) (k : Nat) : DirEntry :=
  mgetD {} (if mirror then s.home.dirM else s.home.dirP) k
/-- The 16 entries of a set in a copy. -/
def State.setIn (s : State) (mirror : Bool) (img : Cell) (set : Nat) : List DirEntry :=
  (List.range 16).map (fun w => s.dirCopy mirror (dirKey img set w))
/-- DIRRD (R159, R160): the copy asked for, or its mirror after an ECC failure; a set that neither gives comes back
poisoned. -/
def execDirrd (p : Pkt) (pri mir : Ecc) (ns : BitVec 32) (s : State) : Outcome State Fault Refusal :=
  .next <|
    let p := { p with opc := Opc.dirrd }
    s.ctrlArrive p fun d s =>
      let off := p.addr.toNat
      let img := offsetCell d off
      let set := off / 256 % 2 ^ 20
      let askedMirror := off ≥ 0x200000000
      let s := s.raise (F.DIR_STACK_LAT_RD_MAX d) ns.toNat
      let s := match pri with
        | .corrected => s.sat (F.DIR_STACK_ERR_CORR d)
        | .uncorrectable => s.sat (F.DIR_STACK_ERR_UNCORR d)
        | .clean => s
      let other := !askedMirror && s.rd (F.DIR_STACK_STATUS_MIR_STATE ((d + 4) % 8)) < 2
      let (s, lost, fromMirror) : State × Bool × Bool :=
        if pri ≠ .uncorrectable then (s, false, askedMirror)
        else if !other then (s, true, askedMirror)
        else
          let s := s.sat (F.DIR_STACK_ERR_MIRROR_READS d)
          match mir with
          | .uncorrectable => (s.sat (F.DIR_STACK_ERR_UNCORR d), true, true)
          | .corrected => (s.sat (F.DIR_STACK_ERR_CORR d), false, true)
          | .clean => (s, false, true)
      let es := s.setIn fromMirror img set
      let data := (List.range 4).map (fun i => packUnit (es.drop (4 * i) |>.take 4))
      let s := s.xingPass (F.SPILL_XING_HBM_at d 1) 4
      s.send { p with opc := .dirdata, src := p.dst, dst := p.src, tc := 5, len := 4, data := data, pois := if lost then 0xF else 0 }

/-- Blocks of a re-silvering run (R213). -/
def resilverBlocks : Nat := 38273024
/-- The die whose controller copies to, or from, the controller of die d: its mirror partner. -/
def partnerDie (d : Nat) : Nat := (d + 4) % 8
/-- The write of one entry into the copy that the controller of die d keeps at an offset. -/
def State.applyDirwr (s : State) (d : Nat) (p : Pkt) : State :=
  let off := p.addr.toNat
  let way := off / 16 % 16
  let e := DirEntry.dec ((p.data.headD 0).toNat / 2 ^ (128 * (way % 4)) % 2 ^ 128)
  let k := dirKey (offsetCell d off) (off / 256 % 2 ^ 20) way
  if off ≥ 0x200000000 then { s with home.dirM := mset {} s.home.dirM k e } else { s with home.dirP := mset {} s.home.dirP k e }
/-- The block of a run that an offset of a directory copy lies in. -/
def runBlock (off : Nat) : Nat := off % 0x200000000 / 256
/-- A write for the block that the controller of die d is copying, as the run's source: held until the target acknowledges the block (R214). -/
def State.holdsBlock (s : State) (d : Nat) (p : Pkt) : Bool :=
  let mirror := decide (p.addr.toNat ≥ 0x200000000)
  let st := if mirror then s.rd (F.DIR_STACK_STATUS_MIR_STATE d) else s.rd (F.DIR_STACK_STATUS_PRI_STATE d)
  let q := if mirror then s.rd (F.DIR_STACK_STATUS_MIR_Q d) else s.rd (F.DIR_STACK_STATUS_PRI_Q d)
  st != 2 && s.rdb (F.DIR_REBUILD_STATUS_ACTIVE d) && decide (s.rd (F.DIR_REBUILD_STATUS_QUARTER d) = q)
    && decide (runBlock p.addr.toNat = s.rd (F.DIR_REBUILD_STATUS_CURSOR d))
/-- DIRACK of a write at the controller that took it. -/
def State.sendDirack (s : State) (p : Pkt) : State :=
  s.send { p with opc := .dirack, src := p.dst, dst := p.src, tc := 6, len := 0, data := [] }
/-- A write at the controller of die d (R214): the copy that a run rebuilds takes writes below the cursor and discards the
others, and takes all of them once the run's source is fenced (R215); the source holds those for the block being copied, and forwards them when it is acknowledged. -/
def State.dirWrite (s : State) (d : Nat) (p : Pkt) : State :=
  let off := p.addr.toNat
  let mirror := off ≥ 0x200000000
  let st := if mirror then s.rd (F.DIR_STACK_STATUS_MIR_STATE d) else s.rd (F.DIR_STACK_STATUS_PRI_STATE d)
  let src := partnerDie d
  let q := if mirror then s.rd (F.DIR_STACK_STATUS_MIR_Q d) else s.rd (F.DIR_STACK_STATUS_PRI_Q d)
  if st = 2 then
    if s.rdb (F.DIR_REBUILD_STATUS_ACTIVE src) && s.rd (F.DIR_REBUILD_STATUS_QUARTER src) = q then
      if runBlock off < s.rd (F.DIR_REBUILD_STATUS_CURSOR src) then s.applyDirwr d p else s
    else s.applyDirwr d p
  else if s.holdsBlock d p then { s with home.rsHeld := mmod [] s.home.rsHeld d (fun l => l ++ [p]) }
  else s.applyDirwr d p
/-- DIRWR (R158, R214): written to this copy, and acknowledged; one that the source of a run holds is acknowledged when it is applied. A wait above the 110 ns bound is logged (R189). -/
def execDirwr (p : Pkt) (ns : BitVec 32) (s : State) : Outcome State Fault Refusal :=
  .next <|
    let p := { p with opc := Opc.dirwr }
    s.ctrlArrive p fun d s =>
      let s := s.raise (F.DIR_STACK_LAT_WR_MAX d) ns.toNat
      let s := if ns.toNat > 110 then s.logYield 2 6 (some p.src) 0xFFFF 0x0106 (dieStack d) else s
      let hold := s.holdsBlock d p
      let s := (s.dirWrite d p).xingPass (F.SPILL_XING_HBM_at d 1) 1
      if hold then s else s.sendDirack p

/-- The set of transaction id has been read: a request that waits in its line's chain stays there, any other goes on. -/
def State.setRead (s : State) (h : Cell) (id : Htid) (t : Txn) : State := if t.phase = .chain then s.setTxn h id t else s.withSet h id t
/-- DIRDATA (R160, R166, R167): the set enters the cache unless a copy of it already stands there, or the entry that was read again does, and the
request goes on. With no way of the index unpinned it waits for one. -/
def execDirdata (p : Pkt) (s : State) : Outcome State Fault Refusal :=
  .next <|
    let p := { p with opc := Opc.dirdata }
    s.arrive p fun s =>
      let h := p.dst
      match s.txn h p.htid with
      | some t =>
        if t.awDir then
          let img := s.slabCell h t.req.line
          let set := dirSet t.req.line
          let ways := if p.poison then none else some (p.data.flatMap unpackUnit)
          let u := { t with awDir := false, reload := false }
          match s.cset h img set with
          | some x => (if t.reload then s.reloadWay h t x ways else s).setRead h p.htid u
          | none =>
            if s.indexPinned h set then (s.inc (F.HOME_PIN_WAIT_COUNT h)).setTxn h p.htid (if u.phase = .chain then u else { u with phase := .pin })
            else (s.haveSet h img set ways).setRead h p.htid u
        else s.inc (F.HOME_LATE_COUNT h)
      | none => s.inc (F.HOME_LATE_COUNT h)
/-- DIRACK (R158); that of a copy being rebuilt makes nothing durable (R214). -/
def execDirack (p : Pkt) (s : State) : Outcome State Fault Refusal :=
  .next <|
    let p := { p with opc := Opc.dirack }
    s.arrive p fun s =>
      let h := p.dst
      match s.txn h p.htid with
      | some t =>
        if t.rsAck.contains p.src then s.advance h p.htid { t with rsAck := t.rsAck.erase p.src }
        else if t.awAck = 0 then s.inc (F.HOME_LATE_COUNT h) else s.advance h p.htid { t with awAck := t.awAck - 1 }
      | none => s.inc (F.HOME_LATE_COUNT h)

/-! ### Originating cells (R82, R171, R172, R203) -/

/-- A VC0 or VC1 frame for a slot of cell c: discarded when the slot is free or the generation is not its own (R82). -/
def State.forSlot (s : State) (p : Pkt) (k : TSlot → State → State) : State :=
  s.arrive p fun s =>
    match s.slot p.dst p.tagSlot with
    | some t => if t.hdr.gen = p.gen && t.ended.isNone then k t s else s.lateDiscard p.dst
    | none =>
      match ((if p.tagSlot.val = 0x3FF then s.engineTake p else none).or (s.chainResponse p)) with
      | some s => s
      | none => s.lateDiscard p.dst

/-- A write or CLNEVCT for the line that the port of anchor a received up to core cycle n has no WGO or Cmp yet (R203). One of the same cycle as the
BIRsp counts as received before it (DESIGN CHOICE, log 137). -/
def State.writeOpen (s : State) (a : Cell) (line n : Nat) : Bool :=
  s.xbar.slots.any (fun e => (s.portMembers a).any (fun c => c.val == e.1 / 1024)
      && Opc.gives e.2.hdr.opc && e.2.hdr.line == line && e.2.wgo.isNone && e.2.resp.isNone && e.2.ended.isNone && decide (e.2.rx ≤ n))
    || (mgetD [] s.pool.hold a.val).any (fun h => Opc.gives h.p.opc && h.p.line == line && decide (h.at_ ≤ n))
/-- Sends the BIRsp of a BITag entry to the cell it records, and frees the entry; a BISnp that waits takes it (R175). -/
def State.sendBirsp (s : State) (a : Cell) (t : Nat) (b : BiTag) (mv : Mv) : State :=
  let s := { s with home.bitag := mdel s.home.bitag (a.val * 4096 + t) }
  let s := s.send { opc := .birsp, src := a, dst := b.home, tagCell := b.home, tagSlot := 0x3FF, addr := b.addr,
                    hslot := b.hslot, htid := b.htid, mv := mv, tc := 7 }
  match mgetD [] s.home.snpHeld a.val with
  | p :: rest =>
    let s := { s with
      home.snpHeld := mset [] s.home.snpHeld a.val rest
      home.bitag := mput s.home.bitag (a.val * 4096 + t)
        { home := p.src, htid := p.htid, addr := p.addr, hslot := p.hslot, opc := p.opc } }
    s.emit (.biSnp a (Fin.ofNat 4096 t) p.opc p.addr)
  | [] => s
/-- The held BIRsps of a line leave once its writes have their WGO or Cmp (R203). -/
def State.releaseBirsp (s : State) (a : Cell) (line : Nat) : State :=
  (s.home.bitag.filter (fun e => e.1 / 4096 == a.val && e.2.addr.toNat / 64 == line && !s.writeOpen a line e.2.heldAt)).foldl (fun s e =>
    match e.2.held with
    | some mv => s.sendBirsp a (e.1 % 4096) e.2 mv
    | none => s) s

/-- GRANT (R172): the state the response gives; the held RDATA leaves, or Cmp-E for INVA. -/
def execGrant (p : Pkt) (s : State) : Outcome State Fault Refusal :=
  .next <|
    let p := { p with opc := Opc.grant }
    s.forSlot p fun t s =>
      let t := { t with granted := some p.mv, grantBy := some (p.src, p.htid), grantM := p.mcell }
      if t.dev.isSome then s.devLine p.dst p.tagSlot t
      else
      let t := if t.hdr.opc = .inva then { t with resp := some .cmpE }
        else match t.rdata with
          | some (d, po) => { t with resp := some (.memData p.mv d po) }
          | none => t
      s.setSlot p.dst p.tagSlot t
/-- RDATA (R172): held until GRANT. A second one is discarded (R369). -/
def execRdata (p : Pkt) (s : State) : Outcome State Fault Refusal :=
  .next <|
    let p := { p with opc := Opc.rdata }
    s.forSlot p fun t s =>
      if t.rdata.isSome then s.lateDiscard p.dst
      else
        let d := p.data.headD 0
        let t := { t with rdata := some (d, p.poison), rdataFrom := p.src }
        if t.dev.isSome then s.devLine p.dst p.tagSlot t
        else
        let t := match t.granted with
            | some mv => { t with resp := some (.memData mv d p.poison) }
            | none => t
        s.setSlot p.dst p.tagSlot t
/-- WGO (R176): the held data goes to MCELL, unless the home that allowed it is fenced (R208). -/
def execWgo (p : Pkt) (s : State) : Outcome State Fault Refusal :=
  .next <|
    let p := { p with opc := Opc.wgo }
    s.forSlot p fun t s =>
      if s.cellFenced p.src then s
      else
        let s := s.setSlot p.dst p.tagSlot { t with wgo := some (p.src, p.mcell, p.htid) }
        let s := s.send { p with opc := .wdata, src := p.dst, dst := p.mcell, home := p.src, bmask := t.hdr.bmask,
                                 tc := s.dataTc p.dst t.hdr.inst, len := 1, data := t.wdata,
                                 pois := t.hdr.pois }
        s.releaseBirsp t.port p.line
/-- WCMP (R176): the request is complete; its kept granules are freed (R91). A posted write has no response: its slot frees now (R79). -/
def execWcmp (p : Pkt) (s : State) : Outcome State Fault Refusal :=
  .next <|
    let p := { p with opc := Opc.wcmp }
    s.forSlot p fun t s =>
      let s := s.freeKept p.dst p.tagSlot
      if t.dev.isSome then s.devLine p.dst p.tagSlot t
      else if t.io then s.releaseSlot p.dst p.tagSlot t
      else (s.setSlot p.dst p.tagSlot { t with resp := some .cmp }).releaseBirsp t.port p.line

/-! ### Completions at a home or proxy -/

/-- The FWD being served that a message for a line concerns. -/
def State.fwdOf (s : State) (a : Cell) (line : Nat) : Option FwdServe :=
  (mgetD [] s.home.fwdServe a.val).find? (fun f => f.p.line == line)
def State.setFwd (s : State) (a : Cell) (f : FwdServe) : State :=
  { s with
    home.fwdServe := mmod [] s.home.fwdServe a.val (fun l => l.map (fun (x : FwdServe) => if x.p == f.p then f else x)) }
/-- A served FWD may be complete; then its chain goes on, and so do those of the FWDs that its place in the table let in (R198). -/
def State.fwdStep (s : State) (a : Cell) (f : FwdServe) : State :=
  let w := mgetD [] s.home.fwdWait a.val
  let s := ((s.setFwd a f).fwdAdvance a f).proxyRun a f.p.line
  (w.take (w.length - (mgetD [] s.home.fwdWait a.val).length)).foldl (fun s (p : Pkt) => s.proxyRun a p.line) s

/-- MCMP (R177): of a write-back that a FWD's snoop drew (R198), of the transaction's own access, or of a write-back it accepted (R178), told apart
by tag and generation. One of an older generation is discarded (R173). -/
def execMcmp (p : Pkt) (s : State) : Outcome State Fault Refusal :=
  .next <|
    let p := { p with opc := Opc.mcmp }
    s.arrive p fun s =>
      let h := p.dst
      if p.tagCell = h ∧ ((s.chainSlot h p.tagSlot).map (fun x => x.awMcmp && x.hdr.line == p.line)).getD false then
        -- the response of a chain slot (R355)
        (s.chainResponse p).getD (s.lateDiscard h)
      else match (s.fwdOf h p.line).filter (fun f => f.awWb.contains (Pkt.tagGen p)), s.txn h p.htid with
      | some f, _ => s.fwdStep h { f with awWb := f.awWb.erase (Pkt.tagGen p) }
      | none, some t =>
        if t.req.line ≠ p.line then s.inc (F.HOME_LATE_COUNT h)
        else if t.awMrd && Pkt.tagGen t.req == Pkt.tagGen p then
          if !t.proxy then s.advance h p.htid { t with awMrd := false }
          else if t.phase = .wr then s.proxyWrote h p.htid t
          else s.proxyDone h p.htid { t with awMrd := false }
        else if t.awWb.contains (Pkt.tagGen p) then s.advance h p.htid { t with awWb := t.awWb.erase (Pkt.tagGen p) }
        else s.inc (F.HOME_LATE_COUNT h)
      | none, none => s.inc (F.HOME_LATE_COUNT h)
/-- DONE (R171, R193): the home ends B_RD, a proxy its transaction; conflicts that waited for it are answered. -/
def execDone (p : Pkt) (s : State) : Outcome State Fault Refusal :=
  .next <|
    let p := { p with opc := Opc.done }
    s.arrive p fun s =>
      let h := p.dst
      let s := match s.txn h p.htid with
        | some t =>
          if !t.awDone || t.req.line != p.line || Pkt.tagGen t.req != Pkt.tagGen p then s.inc (F.HOME_LATE_COUNT h)
          else if t.proxy then s.proxyDone h p.htid { t with awDone := false }
          else s.advance h p.htid { t with awDone := false }
        | none => s.inc (F.HOME_LATE_COUNT h)
      s.answerConflicts h

/-! ### Snoops at an anchor (R175) -/

/-- A BISnp takes the lowest free BITag entry and goes to the host, or waits; a duplicate is dropped (R369). -/
def State.anchorSnoop (s : State) (p : Pkt) : State :=
  s.arrive p fun s =>
    let a := p.dst
    if s.home.bitag.any (fun e => e.1 / 4096 == a.val && e.2.home == p.src && e.2.htid == p.htid && e.2.addr == p.addr
        && e.2.hslot == p.hslot) then s
    else match (List.range 4096).find? (fun t => (mget s.home.bitag (a.val * 4096 + t)).isNone) with
      | some t =>
        let s := { s with
          home.bitag := mput s.home.bitag (a.val * 4096 + t)
            { home := p.src, htid := p.htid, addr := p.addr, hslot := p.hslot, opc := p.opc } }
        s.emit (.biSnp a (Fin.ofNat 4096 t) p.opc p.addr)
      | none => { s with home.snpHeld := mmod [] s.home.snpHeld a.val (fun l => l ++ [p]) }
/-- BISNPCUR (R175). -/
def execBisnpcur (p : Pkt) (s : State) : Outcome State Fault Refusal := .next (s.anchorSnoop { p with opc := .bisnpcur })
/-- BISNPDATA (R175). -/
def execBisnpdata (p : Pkt) (s : State) : Outcome State Fault Refusal := .next (s.anchorSnoop { p with opc := .bisnpdata })
/-- BISNPINV (R175). -/
def execBisnpinv (p : Pkt) (s : State) : Outcome State Fault Refusal := .next (s.anchorSnoop { p with opc := .bisnpinv })
/-- BICACK (R186): BIConflictAck to the host. -/
def execBicack (p : Pkt) (s : State) : Outcome State Fault Refusal :=
  .next <|
    let p := { p with opc := Opc.bicack }
    s.arrive p fun s => s.emit (.biConflictAck p.dst p.addr)
/-- HOST_BIRSP (R175, R203): a tag that is not open has no snoop to answer. -/
def execHostBirsp (a : Cell) (t : Fin 4096) (mv : Mv) (s : State) : Outcome State Fault Refusal :=
  .next <|
    match mget s.home.bitag (a.val * 4096 + t.val) with
    | none => s
    | some b =>
      if b.held.isSome then s
      else if s.writeOpen a (b.addr.toNat / 64) s.cyc then
        { s with home.bitag := mput s.home.bitag (a.val * 4096 + t.val) { b with held := some mv, heldAt := s.cyc } }.inc
          (F.HOME_BIRSP_HOLD_COUNT a)
      else s.sendBirsp a t.val b mv
/-- HOST_BICONFLICT (R175, R202). -/
def execHostBiconflict (a : Cell) (addr : BitVec 52) (s : State) : Outcome State Fault Refusal :=
  .next <|
    match s.home.bitag.find? (fun e => e.1 / 4096 == a.val && e.2.addr.toNat / 64 == addr.toNat / 64) with
    | some e =>
      s.send { opc := .biconf, src := a, dst := e.2.home, tagCell := a, tagSlot := 0x3FF, addr := addr, hslot := e.2.hslot,
               htid := e.2.htid, tc := Fin.ofNat 8 (s.rd (F.GATE_CLASS_MAP_REQ_TC a)) }
    | none =>
      s.send { opc := .biconf, src := a, dst := s.homeOf a (addr.toNat / 64), tagCell := a, tagSlot := 0x3FF, addr := addr,
               hslot := 127, tc := Fin.ofNat 8 (s.rd (F.GATE_CLASS_MAP_REQ_TC a)) }

/-- Snoops that waited for SNP_MAX go out as open ones close, those of the home and those of its proxy (R187). -/
def State.pumpSnoops (s : State) (h : Cell) : State :=
  (((s.txns h).filter (fun (_, t) => !t.snpWait.isEmpty)).foldl (fun s x =>
    match s.txn h x.1 with
    | some t =>
      let (t, s) := s.sendSnoops h x.1 t
      s.setTxn h x.1 t
    | none => s) s).fwdSnoops h
/-- One snoop answer of a slot reaches transaction id of home h. -/
def State.snoopAnswer (s : State) (h : Cell) (id : Htid) (t : Txn) (hs : HSlot) (mv : Mv) : State :=
  let sent := !t.snpWait.contains hs
  let s := if sent then s.dec (F.HOME_TT_SNP_OUT h) else s
  let s := s.advance h id { t with
    awSnp := t.awSnp.filter (· != hs), snpWait := t.snpWait.filter (· != hs), answers := t.answers ++ [(hs, mv)] }
  s.pumpSnoops h
/-- HOME_SNP_EXTRA counts the BIRspI of a slot of a coarse entry that did not hold the line (R165). The entry does not say which of a pair holds it,
and the spec gives the home no other way to know: whether it was a holder is a free value (log 24). -/
def State.countExtra (s : State) (h : Cell) (t : Txn) (mv : Mv) : State :=
  if t.found.coarse && t.found.st == .S && mv == .I then
    let (n, s) := s.fresh
    if (Config.freeRandom n).testBit 0 then s.inc (F.HOME_SNP_EXTRA_COUNT h) else s
  else s
/-- BIRSP (R170, R200): to the transaction its HTID names, or to the FWD that the proxy serves for the line. -/
def execBirsp (p : Pkt) (s : State) : Outcome State Fault Refusal :=
  .next <|
    let p := { p with opc := Opc.birsp }
    s.arrive p fun s =>
      let h := p.dst
      match (s.txn h p.htid).filter (fun t => t.req.line == p.line && t.awSnp.contains p.hslot && !t.snpWait.contains p.hslot) with
      | some t => (s.countExtra h t p.mv).snoopAnswer h p.htid t p.hslot p.mv
      | none =>
        match s.fwdOf h p.line with
        | some f =>
          if f.awSnp then
            let s := s.dec (F.HOME_TT_SNP_OUT h)
            (s.fwdStep h { f with awSnp := false, answer := some p.mv }).pumpSnoops h
          else s.inc (F.HOME_LATE_COUNT h)
        | none => s.inc (F.HOME_LATE_COUNT h)

/-- A line whose owner is lost is written at its MEMORY cell with poison (R181); the write it awaits. -/
def State.poisonLine (s : State) (h : Cell) (id : Htid) (r : Pkt) : List (Cell × Slot × Gen) × State :=
  let x := s.extOf h r.ext
  if x.noMem then ([], s)
  else
    let (n, s) := s.fresh
    let p : Pkt := { reply h id r .wdata x.mcell with
       tagCell := h, tagSlot := 0x3FF, gen := 0, mcell := x.mcell, home := h, len := 1, data := [Config.freeLine n],
       pois := 1, bmask := 0 }
    ([Pkt.tagGen p], s.send p)
/-- The same for the line of a transaction that the slot owned. -/
def State.poisonOwned (s : State) (h : Cell) (id : Htid) (t : Txn) (hs : HSlot) : Txn × State :=
  if (t.found.st = .E || t.found.st = .EO) && t.found.owner == hs then
    let (w, s) := s.poisonLine h id t.req
    ({ t with awWb := t.awWb ++ w }, s)
  else (t, s)
/-- Cell h takes every open BISnp to a slot as answered BIRspI, and poisons the lines the slot owned (R181). -/
def State.slotGone (s : State) (h : Cell) (hs : HSlot) : State :=
  let s := (s.txns h).foldl (fun s x =>
    match s.txn h x.1 with
    | some t =>
      if t.awSnp.contains hs then
        let (t, s) := s.poisonOwned h x.1 t hs
        s.snoopAnswer h x.1 t hs .I
      else if t.awFwd.contains hs then
        let (t, s) := s.poisonOwned h x.1 t hs
        s.advance h x.1 { t with awFwd := t.awFwd.filter (· != hs), found := t.found.dropHolder hs }
      else s
    | none => s) s
  (mgetD [] s.home.fwdServe h.val).foldl (fun s f =>
    -- the slot whose line is forwarded here owns it
    if (f.awSnp || f.snpWait) && f.p.dst == h && s.ownAnchor h hs == h then
      let s := if f.awSnp then s.dec (F.HOME_TT_SNP_OUT h) else s
      let (w, s) := s.poisonLine h f.p.htid f.p
      s.fwdStep h { f with awSnp := false, snpWait := false, snooped := true, answer := some .I, awWb := f.awWb ++ w }
    else s) s
/-- SNP_TIMEOUT_EXPIRY (R181, R363): class 0x0F with the slot, a link failure of the host's port. -/
def execSnpTimeoutExpiry (h : Cell) (hs : HSlot) (s : State) : Outcome State Fault Refusal :=
  .next <|
    let s := s.slotGone h hs
    let s := s.emit (.linkFailure (s.anchorFor h hs))
    s.logFault 0x0F (some h) hs.val 0x000D hs.val (s.anchorFor h hs).val true

/-! ### The directory view and high-water marks -/

/-- DIR_LOOKUP: the lookup starts, and VALID clears (Table 6-17). -/
def execDirLookup (h : Cell) (s : State) : Outcome State Fault Refusal :=
  .next <|
    let s := if s.home.looking.contains h then s else { s with home.looking := s.home.looking ++ [h] }
    s.wr (F.DIR_VIEW2_VALID h) 0
/-- DIR_LOOKUP_COMPLETE: the views take the entry, from the cache or from the copy in service (R166). A line that takeover holds is in B_TAKE
(Table 6-3). -/
def execDirLookupComplete (h : Cell) (s : State) : Outcome State Fault Refusal :=
  .next <|
    if !s.home.looking.contains h then s
    else
      let line := s.rd (F.DIR_SEL_LINE h)
      let set := dirSet line
      let img := s.slabCell h line
      let serves := s.homeOf h line
      let cached := s.cset h img set
      let ways := match cached with
        | some x => x.ways
        | none => match s.dirReadCopies img with
          | (_, mir) :: _ => s.setIn mir img set
          | [] => []
      let way := if serves = h then ways.findIdx? (fun e => e.line.toNat == line && e.st != .I) else none
      let held := serves = h ∧ s.lineHeld h line
      let e : DirEntry := match way with
        | some w => if held then (ways.getD w {}).inState .bTake else ways.getD w {}
        | none => {}
      let tx := (s.txns h).find? (fun (_, t) => !t.proxy && t.blocks && t.req.line == line)
      let s := { s with home.looking := s.home.looking.filter (· != h) }
      let s := s.setReg (F.DIR_VIEW0_at h) (BitVec.ofNat 64 e.enc.toNat)
      let s := s.setReg (F.DIR_VIEW1_at h) (BitVec.ofNat 64 (e.enc.toNat / 2 ^ 64))
      let s := s.setReg (F.DIR_VIEW2_at h) 0
      let s := s.wr (F.DIR_VIEW2_VALID h) 1
      let s := s.wrb (F.DIR_VIEW2_FOUND h) way.isSome
      let s := s.wrb (F.DIR_VIEW2_CACHED h) cached.isSome
      let s := s.wrb (F.DIR_VIEW2_BLOCKED h) (e.st.transient || held)
      let s := s.wr (F.DIR_VIEW2_HTID h) (match tx with | some (i, _) => if e.st.transient then i.val else 0 | none => 0)
      let s := s.wr (F.DIR_VIEW2_WAY h) (way.getD 0)
      let s := s.wr (F.DIR_VIEW2_SET h) set
      s.wr (F.DIR_VIEW2_HOME h) serves.val
/-- HOME_TT_CLR_HWM (Table 6-13). -/
def execHomeTtClrHwm (h : Cell) (s : State) : Outcome State Fault Refusal :=
  .next (s.wr (F.HOME_TT_HWM h) (s.rd (F.HOME_TT_IN_USE h)))

/-! ### Owner proxies (R194 to R201) -/

/-- FWD (R198): into the FWD table and the line's chain, or waiting on VC2; a duplicate is dropped (R369). -/
def execFwd (p : Pkt) (s : State) : Outcome State Fault Refusal :=
  .next <|
    let p := { p with opc := Opc.fwd }
    s.arrive p fun s =>
      let a := p.dst
      let dup (q : Pkt) : Bool := q.src == p.src && q.htid == p.htid && q.line == p.line
      if (mgetD [] s.home.fwdServe a.val).any (fun f => dup f.p)
          || (mgetD [] s.home.pchain a.val).any (fun i => i.isFwd && dup i.p) then s
      else if s.rd (F.HOME_PROXY_STATUS_FWD_USE a) ≥ 256 ∨ mgetD [] s.home.fwdWait a.val ≠ [] then
        { s with home.fwdWait := mmod [] s.home.fwdWait a.val (fun l => l ++ [p]) }
      else
        let s := { s with
          home.pchain := mmod [] s.home.pchain a.val
            (fun l => l ++ [({ line := BitVec.ofNat 46 p.line, isFwd := true, p := p } : PItem)]) }
        (s.inc (F.HOME_PROXY_STATUS_FWD_USE a)).proxyRun a p.line
/-- The state an owner's answer leaves the line in at the home (R199). -/
def ownerLeft (e : DirEntry) (mv : Mv) : DirEntry :=
  match mv with
  | .I => e.clear
  | .S => match e.st with
    | .E | .EO => ({ e with st := .S, owner := 0, presence := 0, coarse := false } : DirEntry).addSharer e.owner
    | _ => e
  | .E => e
/-- An answer of the proxy at cell `from_` reaches the transaction that forwarded to it. -/
def State.ownerAnswer (s : State) (p : Pkt) : State :=
  s.arrive p fun s =>
    let h := p.dst
    match s.txn h p.htid with
    | some t =>
      match t.awFwd.find? (fun hs => s.anchorFor h hs == p.src) with
      | some hs =>
        let found := if t.phase = .fwd then ownerLeft t.found p.mv else t.found
        s.advance h p.htid { t with awFwd := t.awFwd.erase hs, found := found }
      | none => s.inc (F.HOME_LATE_COUNT h)
    | none => s.inc (F.HOME_LATE_COUNT h)
/-- FRSP (R199). -/
def execFrsp (p : Pkt) (s : State) : Outcome State Fault Refusal := .next (s.ownerAnswer { p with opc := .frsp })
/-- FKEEP (R199): the line stays EO(O), and the RDI goes on from there. -/
def execFkeep (p : Pkt) (s : State) : Outcome State Fault Refusal := .next (s.ownerAnswer { p with opc := .fkeep, mv := .E })
/-- PROXY_AGE_CHECK (R194): an unblocked entry that has held I for IDLE_DROP is dropped. -/
def execProxyAgeCheck (a : Cell) (s : State) : Outcome State Fault Refusal :=
  .next <|
    let lim := s.rd (F.HOME_PROXY_CFG_IDLE_DROP a)
    let idle (e : PEnt) : Bool := !PEnt.busy e && e.held = .I && lim ≠ 0 && s.us - e.since ≥ lim
    let gone := (s.home.proxy.filter (fun (e : Nat × PEnt) => e.1 / 4096 == a.val && idle e.2)).length
    let s := { s with
      home.proxy := s.home.proxy.filter (fun (e : Nat × PEnt) => !(e.1 / 4096 == a.val && idle e.2)) }
    (s.dec (F.HOME_PROXY_STATUS_ENTRIES a) gone).inc (F.HOME_PROXY_DROPS_COUNT a) gone
/-- HOME_PROXY_CLR_HWM (Table 7-10). -/
def execHomeProxyClrHwm (a : Cell) (s : State) : Outcome State Fault Refusal :=
  .next (s.wr (F.HOME_PROXY_STATUS_HWM a) (s.rd (F.HOME_PROXY_STATUS_ENTRIES a)))

/-! ### Takeover and twins (R206 to R210) -/

/-- Cells that hold indices in B_TAKE in a step of the takeover. -/
def State.takingOver (s : State) (st : Nat) : List Cell :=
  ((List.range 128).map Cell.of).filter (fun c => s.home.held.any (fun k => k / 128 == c.val) && s.rd (F.HOME_TAKE_STATE c) = st)
/-- TAKEOVER_QUIESCE_COMPLETE (Table 7-8). -/
def execTakeoverQuiesceComplete (s : State) : Outcome State Fault Refusal :=
  .next ((s.takingOver 1).foldl (fun s c => s.wr (F.HOME_TAKE_STATE c) 2) s)
/-- Set-aside requests take entries in arrival order (R208). From the first that finds no entry free on they stand at the head of the intake, before
what has arrived since. -/
def State.takeAside (s : State) (c : Cell) : List HReq → State
  | [] => s
  | r :: rest => match s.txnOfTag c r.p, s.entryFor c r.p.opc with
    | some (id, t), _ => (if r.p.gen > t.req.gen then s.adopt c id t r.p else s.inc (F.HOME_LATE_COUNT c)).takeAside c rest
    | none, some id => (s.depart c id r.p r.ecc).takeAside c rest
    | none, none =>
      let old := mgetD [] s.home.intake c.val
      (r :: rest ++ old.map (fun (x : HReq) => { x with ring := none })).foldl (fun s x => s.intakePut c x) (s.intakeTake c (fun _ => true))
/-- TAKEOVER_RELEASE (R208): B_TAKE is cleared, and set-aside requests take entries in arrival order. -/
def State.release (s : State) (c : Cell) : State :=
  let l := mgetD [] s.home.setAside c.val
  let s := { s with home.held := s.home.held.filter (fun k => k / 128 != c.val), home.setAside := mdel s.home.setAside c.val }
  let s := (s.wr (F.HOME_TAKE_STATE c) 3).wr (F.HOME_TAKE_SET_ASIDE c) 0
  let s := s.wr (F.HOME_TAKE_LAST_US c) (min 0xFFFF (s.us - s.home.takeAt))
  s.takeAside c l
/-- A write that a fenced home allowed, or a home that gives its line's index back, is still open at a surviving MEMORY cell (Table 7-8, R212). -/
def State.flushOpen (s : State) : Bool :=
  s.pool.acc.any (fun (e : Nat × MemAcc) => e.2.write && !e.2.spec && !s.cellFenced e.2.cell
    && (s.cellFenced e.2.p.home || s.home.giving.contains (e.2.p.home.val * 128 + s.lineIdx e.2.p.home e.2.p.line)))
/-- The successor still has transactions open on lines of an index it gives back (R212). -/
def State.givingOpen (s : State) : Bool :=
  s.home.tt.any (fun (e : Nat × Txn) => !e.2.proxy && s.home.giving.contains (e.1 / 1024 * 128 + s.lineIdx (Cell.of (e.1 / 1024)) e.2.req.line))
/-- TAKEOVER_FLUSH_COMPLETE (Table 7-8), and the release that follows; an expander that overran its condition is logged
with ranks 2 and 4 (R208). -/
def execTakeoverFlushComplete (slow : Option Cell) (s : State) : Outcome State Fault Refusal :=
  .next <|
    let l := s.takingOver 2
    if l.isEmpty ∨ s.flushOpen ∨ s.givingOpen then s
    else
      let s := match slow with
        | some m => s.logYield 2 4 (some m) m.val 0x0107 m.val
        | none => s
      -- a successor that gives indices back, its transactions on them complete, awaits the second epoch (R212)
      if !s.home.giving.isEmpty then
        if s.scrim.epochOpen then { s with scrim.nextGive := 2 } else { s with scrim.nextGive := 2 }.openEpoch [] []
      else
      let s := l.foldl State.release s
      if s.rd F.PKG_FAULT_STATUS_STEP = 3 then (s.logStep 3).endReissue else s
/-- The slot's open snoops and FWDs go out again, to its twin's anchor (R210, Table 12-3). -/
def State.resendTo (s : State) (h : Cell) (hs : HSlot) : State :=
  (s.txns h).foldl (fun s x =>
    let (id, t) := x
    let s := if t.awSnp.contains hs && !t.snpWait.contains hs then
        s.send { reply h id t.req t.snoopOpc (s.anchorFor h hs) with hslot := hs } else s
    if t.awFwd.contains hs then
      s.send { reply h id t.req .fwd (s.anchorFor h hs) with mv := t.fwdMv, mcell := (s.extOf h t.req.ext).mcell }
    else s) s
/-- Cell c treats a slot as lost: with a twin the two are one holder (R210), without one R181 applies. -/
def State.loseSlot (s : State) (c : Cell) (hs : HSlot) : State :=
  match s.twinOf c hs with
  | some t =>
    if s.slotLost c hs then s
    else if s.slotLost c t then (s.slotGone c t).slotGone c hs
    else { s with home.twinLost := s.home.twinLost ++ [c.val * 128 + hs.val] }.resendTo c hs
  | none => s.slotGone c hs
/-- TWIN_LOSS_NOTE (R210). -/
def execTwinLossNote (c : Cell) (hs : HSlot) (s : State) : Outcome State Fault Refusal := .next (s.loseSlot c hs)

/-! ### Re-silvering (R213 to R215) -/

/-- The STATE field of the copy that the controller of die d keeps: its primary, or its mirror. -/
def copyState (d : Nat) (mirror : Bool) : Fld := if mirror then F.DIR_STACK_STATUS_MIR_STATE d else F.DIR_STACK_STATUS_PRI_STATE d
/-- The run of the controller of die d rebuilds a mirror copy. -/
def State.toMirror (s : State) (d : Nat) : Bool := s.rd (F.DIR_REBUILD_STATUS_TARGET d) = 1
/-- The run of die d goes on at the target itself, from its own recovered sets: its source is fenced (R215). -/
def State.selfRun (s : State) (d : Nat) : Bool :=
  s.rd (copyState d (s.toMirror d)) = 2
    && s.rd (if s.toMirror d then F.DIR_STACK_STATUS_MIR_Q d else F.DIR_STACK_STATUS_PRI_Q d) = s.rd (F.DIR_REBUILD_STATUS_QUARTER d)
/-- The copy that the run of die d rebuilds, on its partner or, where it goes on at the target, on itself: its STATE field. -/
def State.targetState (s : State) (d : Nat) : Fld := copyState (if s.selfRun d then d else partnerDie d) (s.toMirror d)
/-- The STATE field of the surviving copy that is the run's source. -/
def State.sourceState (s : State) (d : Nat) : Fld := copyState d (!s.toMirror d)
/-- What block n of a run holds: a set of the directory, or the entries of the rings as packets are no data of the copy (log 138). -/
def State.blockData (s : State) (d n : Nat) : List Line :=
  if n * 256 < 0x200000000 then
    let img := offsetCell d (n * 256 + (if s.toMirror d then 0 else 0x200000000))
    let es := s.setIn (!s.toMirror d) img (n % 2 ^ 20)
    (List.range 4).map (fun i => packUnit (es.drop (4 * i) |>.take 4))
  else [0, 0, 0, 0]
/-- The block packets of the run of die d. -/
def rsBlock (d : Nat) (p : Pkt) : Bool := p.opc == .bulk && p.src == ctrlCell d && p.tagSlot.val == 0x3FD
/-- The engine reads the block at its cursor and sends it to the target controller on VC5 at TC0 (R213). Its offset is in ADDR; tag slot 0x3FD
marks it (DESIGN CHOICE, log 138). -/
def State.sendBlock (s : State) (d : Nat) : State :=
  let n := s.rd (F.DIR_REBUILD_STATUS_CURSOR d)
  s.send { opc := .bulk, src := ctrlCell d, dst := ctrlCell (partnerDie d), tagCell := ctrlCell d, tagSlot := 0x3FD, tc := 0, len := 4,
           addr := BitVec.ofNat 52 (n * 256), data := s.blockData d n }
/-- The block that the run of die d has in flight is consumed. -/
def State.takeBlock (s : State) (d : Nat) : State :=
  { s with scrim.flight := s.scrim.flight.filter (fun (f : Flying) => !rsBlock d f.p) }
/-- The source applies the writes it holds, forwards them to the target while that takes them, and acknowledges them (R214). -/
def State.rsApply (s : State) (d : Nat) (forward : Bool) : State :=
  let held := mgetD [] s.home.rsHeld d
  held.foldl (fun s p =>
    let s := s.applyDirwr d p
    (if forward then s.applyDirwr (partnerDie d) { p with addr := BitVec.ofNat 52 ((p.addr.toNat + 0x200000000) % 0x400000000) } else s).sendDirack p)
    { s with home.rsHeld := mdel s.home.rsHeld d }
/-- Copies block n of a run to the partner: 16 entries of the quarter's directory, or 8 of its intake rings (R213). What metadata holds is state
of its own, one for both copies (log 138). -/
def State.copyBlock (s : State) (d n : Nat) : State :=
  let toMirror := s.toMirror d
  if n * 256 ≥ 0x208000000 then s
  else if n * 256 ≥ 0x200000000 then
    let from_ := dieStack d * 2 ^ 40 + (if toMirror then 0x580000000 else 0x588000000) + (n * 256 - 0x200000000)
    let to_ := dieStack (partnerDie d) * 2 ^ 40 + (if toMirror then 0x588000000 else 0x580000000) + (n * 256 - 0x200000000)
    (List.range 8).foldl (fun s i => match mget s.home.ring (from_ + 32 * i) with
      | some p => { s with home.ring := mput s.home.ring (to_ + 32 * i) p }
      | none => { s with home.ring := mdel s.home.ring (to_ + 32 * i) }) s
  else
    let img := offsetCell d (n * 256 + (if toMirror then 0 else 0x200000000))
    let set := n % 2 ^ 20
    (List.range 16).foldl (fun s w =>
      let k := dirKey img set w
      if toMirror then { s with home.dirM := mset {} s.home.dirM k (s.dirCopy false k) }
      else { s with home.dirP := mset {} s.home.dirP k (s.dirCopy true k) }) s
/-- Block n of a run that goes on at the target (R215): a recovered set stands there; any other is empty, and stays lost until it is recovered. -/
def State.selfBlock (s : State) (d n : Nat) : State :=
  if n * 256 ≥ 0x200000000 then s
  else
    let img := offsetCell d (n * 256 + (if s.toMirror d then 0x200000000 else 0))
    let k := img.val * 2 ^ 20 + n % 2 ^ 20
    match mget s.home.lostSets k with
    | some _ => s
    | none =>
      (List.range 16).foldl (fun s w =>
        let k := dirKey img (n % 2 ^ 20) w
        if s.toMirror d then { s with home.dirM := mset {} s.home.dirM k {} } else { s with home.dirP := mset {} s.home.dirP k {} })
        { s with home.lostSets := mput s.home.lostSets k [] }
/-- RESILVER_BLOCK_ACK (R214): the block is at the target, the writes held for it are applied and forwarded, and the
cursor advances; the last block ends the run (R215). -/
def State.resilverAck (s : State) (d : Nat) : State :=
  if !s.rdb (F.DIR_REBUILD_STATUS_ACTIVE d) then s
  else
    let n := s.rd (F.DIR_REBUILD_STATUS_CURSOR d)
    let self := s.selfRun d
    let s := if self then s.selfBlock d n else ((s.takeBlock d).copyBlock d n).rsApply d true
    let s := s.wr (F.DIR_REBUILD_STATUS_CURSOR d) (n + 1)
    if n + 1 ≥ resilverBlocks then
      let s := (s.wr (F.DIR_REBUILD_STATUS_ACTIVE d) 0).wr (F.DIR_REBUILD_STATUS_RESULT d) 1
      if self then s.wr (s.targetState d) 1 else (s.wr (s.targetState d) 0).wr (s.sourceState d) 0
    else if self then s else s.sendBlock d

end Sys2Proof.Machine
end

