-- ==== Sys2Proof/Machine/Hold.lean ====
section
/-! DEFINITION. Where requests enter and responses leave: the hold (spec/08 R240 to R247), admission (spec/03 R79 to R83),
the check of every request (spec/09 R263 to R271), and the departure of responses (spec/06 R171). -/

namespace Sys2Proof.Machine
open Host

/-! ### Requests of a host -/

/-- The decoder of the port that an address matches (R265). -/
def State.decode (s : State) (a : Cell) (hpa : Nat) : Option (Inst × Nat) :=
  ((mgetD [] s.pool.hdm a.val).find? (fun (d : Hdm) => d.dev.isNone && d.base.toNat ≤ hpa && hpa < d.base.toNat + d.size.toNat)).map
    (fun d => (d.inst, hpa - d.base.toNat + d.dpa.toNat))
/-- The DEVICE port whose device's HDM an address lies in (R151). -/
def State.decodeDev (s : State) (a : Cell) (hpa : Nat) : Option Cell :=
  (mgetD [] s.pool.hdm a.val).findSome? (fun (d : Hdm) => if d.base.toNat ≤ hpa && hpa < d.base.toNat + d.size.toNat then d.dev else none)
def readOpc (o : Opc) : Bool := o = .rds || o = .rda || o = .rdi
/-- The source port of a migration answers the instance's requests itself: from the freeze point until its vPPB is
unbound (R247); the target port does so until the thaw (R245). -/
def State.strayAt (s : State) (a i : Nat) : Bool :=
  match mget s.pool.migs i with
  | some m => if m.srcPort = a then m.frozen else !m.thawed
  | none => false
/-- INCOMING: the target port writes nothing (R245). -/
def State.strayWrites (s : State) (a i : Nat) : Bool :=
  match mget s.pool.migs i with
  | some m => m.srcPort != a
  | none => false
/-- A host's message to a pass-through device: CXL.cache, or a CXL.mem request to its HDM, which carries its opcode (R151; log 115). -/
def State.hostPass (s : State) (a : Cell) (r : HostReq) : Option State :=
  match r.opc with
  | .pass cache v =>
    some (match s.vppbDevice a r.vppb with
      | some e => s.passIn a e r.opc (s.passTc (s.ioCell a e) true cache v) r.hpa 0 (if v.val = 1 then [r.data] else []) r.tag s.cyc
      | none => s)
  | o =>
    (s.decodeDev a r.hpa.toNat).map (fun e =>
      let w := o = .wri || o = .wra || o = .wrptl
      let v : Fin 4 := if w then 1 else 3
      s.passIn a e (.pass false v) (s.passTc (s.ioCell a e) true false v) r.hpa (Fin.ofNat 128 (Opc.code o)) (if w then [r.data] else []) none s.cyc)
/-- A CXL.mem request to instances is assigned to an instance and enters the hold (R222, R240); with the hold full the link layer keeps it. At a
frozen source reads are answered there, and an INVA is issued like a write (DESIGN CHOICE, log 139: R247 does not name it). -/
def State.enterHold (s : State) (a : Cell) (r : HostReq) : State :=
    if s.rd (F.INST_PORT_STATUS_HOLD_USED a) ≥ 1024 then s
    else
      let d := s.decode a r.hpa.toNat
      let i : Inst := (d.map (·.1)).getD 0
      let priv := d.isSome && (s.tmpl i).privMem
      let stray := d.isSome && s.strayAt a i && (readOpc r.opc || s.strayWrites a i)
      let line := match d with
        | some (_, dpa) => match s.check a { inst := i, priv := priv, dev := false, opc := r.opc } (dpa / 64) false with
          | .ok l _ => l
          | _ => 0
        | none => 0
      let p : Pkt := { opc := r.opc, inst := i, priv := priv, addr := BitVec.ofNat 52 (line * 64 + r.hpa.toNat % 64),
                       hslot := s.hslotOf a, bmask := if r.opc = .wrptl then r.bmask else BitVec.allOnes 64, data := [r.data] }
      let h : Held := { p := p, dpa := some (match d with | some (_, x) => x | none => r.hpa.toNat), stray := stray, at_ := s.cyc }
      let h := if d.isNone then { h with dpa := none, p := { p with addr := r.hpa } } else h
      let s := { s with pool.hold := mmod [] s.pool.hold a.val (fun l => l ++ [h]) }
      let s := s.inc (F.INST_PORT_STATUS_HOLD_USED a)
      if d.isSome then
        let s := if stray then (s.sat (F.INST_MIG_STATUS_STRAY i)).logEvent .strayRead i a.val else s
        (s.inc (F.INST_USE_HELD i)).creditUpdate a i
      else s
/-- Entries of a host's message in its port's receive crossing (Table 4-1): a header, and its data. -/
def HostReq.entries (r : HostReq) : Nat := if [Opc.wri, .wra, .wrptl].contains r.opc then 2 else 1
/-- HOST_REQUEST_RECEIVE (R115, R151, R222, R240). A port that is paused for MAINTENANCE lets pass-through requests wait (R471). -/
def execHostRequestReceive (a : Cell) (r : HostReq) (s : State) : Outcome State Fault Refusal :=
  .next <|
    if s.mode = .safeStop then s
    else match s.hostPass a r with
      | some t => if s.pool.paused.contains a.val then s else t.xingPass (F.SPILL_XING_CELL_at a 0) (HostReq.entries r)
      | none => (s.enterHold a r).xingPass (F.SPILL_XING_CELL_at a 0) (HostReq.entries r)

/-! ### Admission (R79, R241) -/

/-- Instance of a held request: 4096 where no decoder matched. -/
def Held.who (h : Held) : Nat := if h.dpa.isSome then h.p.inst.val else 4096
/-- Slots kept for the other instances of the port (R241). -/
def State.keptSlots (s : State) (a : Cell) (i : Nat) : Nat :=
  (s.boundVppbs a).foldl (fun n x => if x.2 = i then n else n + (s.rd (F.INST_SHARE0_SLOT_MIN x.2) - s.rd (F.INST_USE_SLOTS x.2))) 0
/-- Guaranteed rate of an instance, scaled down under R373, and its cap, in 1/16 GB/s. -/
def State.bwMin (s : State) (i : Nat) : Nat := s.rd (F.INST_SHARE1_BW_MIN i) * s.log.scale / 8
def State.bwMax (s : State) (i : Nat) : Nat := s.rd (F.INST_SHARE1_BW_MAX i)
/-- Credit per core cycle of a rate in 1/16 GB/s (R143, R243). -/
def bwRate (r : Nat) : Nat := (r * 64 + 2) / 3
/-- The rate credit of R241 permits admission. -/
def State.rateOk (s : State) (i : Nat) : Bool := s.bwMax i = 0 || 0 ≤ mgetD 0 s.pool.credMax i
/-- The checked outcome of a held request. -/
def State.heldVerdict (s : State) (a : Cell) (h : Held) : Verdict :=
  match h.dpa with
  | none => .deny 5
  | some d => s.check a { inst := h.p.inst.val, priv := h.p.priv, dev := false, opc := h.p.opc } (d / 64) true
/-- A held request is eligible (R241): neither paused (R277, R471) nor waiting for a default-map block (R268), nor due after re-issues of its
tuple (R86). -/
def State.eligible (s : State) (a : Cell) (h : Held) (v : Verdict) : Bool :=
  let i := h.who
  let free := s.memSlots a
  let slotOk := if h.p.opc = .specrd then true
    else if i = 4096 then free > s.keptSlots a i
    else s.rd (F.INST_USE_SLOTS i) < s.slotMax i && free > 0
      && (s.rd (F.INST_USE_SLOTS i) < s.rd (F.INST_SHARE0_SLOT_MIN i) || free > s.keptSlots a i)
  let c := s.slotCell a
  let lost := match v with
    | .ok l _ => s.lostOf a (fun t => !t.io && s.homeOf c t.hdr.line == s.homeOf c l && t.hdr.tc == s.reqTc c h.p.inst)
    | _ => false
  slotOk && !lost && !s.pausedAt a i && !s.pool.paused.contains a.val && (i = 4096 || s.rateOk i)
    && (h.stray || match v with | .fetch _ _ => false | _ => true)
/-- The oldest held request of each instance. -/
def heads : List Held → List Nat → List Held
  | [], _ => []
  | h :: t, seen => if seen.contains h.who then heads t seen else h :: heads t (h.who :: seen)
/-- vPPB by which an instance of a port takes its turn; 64 for requests without an instance. -/
def State.turnOf (s : State) (a : Cell) (h : Held) : Nat :=
  ((s.boundVppbs a).find? (fun x => x.2 == h.who)).elim 64 (·.1)
/-- The request a rotating pointer reaches first. -/
def State.nextTurn (s : State) (a : Cell) (last : Nat) (l : List Held) : Option Held :=
  l.foldl (fun acc h => match acc with
    | some b => if (s.turnOf a h + 64 - last) % 65 < (s.turnOf a b + 64 - last) % 65 then some h else some b
    | none => some h) none

/-- The silent answer of R269. -/
def silentResp (o : Opc) : Resp := if readOpc o then .memData .I 0 false else .cmp
/-- What an owner proxy took stays there, its slot's record naming the proxy; anything else is sent. -/
def State.orSend (s : State) (o : Option State) (q : Pkt) (c : Cell) (k : Slot) (t : TSlot) : State :=
  match o with
  | some s => s.setSlot c k t
  | none => s.send q
/-- The request goes out under tracker slot k: to an owner proxy that takes it, else to its home (R79, R190). -/
def State.issueAt (s : State) (c a : Cell) (p : Pkt) (rx : Nat) (gone : Bool) (dpa : Option Nat) (k : Slot) : State :=
  let h := s.homeOf c p.line
  let q := { p with src := c, dst := h, tagCell := c, tagSlot := k, tc := s.reqTc c p.inst, data := [] }
  let t : TSlot := { hdr := q, egress := h, at_ := s.cyc, dpa := dpa, rx := rx, port := a, wdata := p.data, discard := gone }
  let s := s.takeSlot c k t
  s.orSend (s.proxyOrder a q) q c k { t with egress := a }
/-- A permitted request takes its slot and goes to its home, or to its port's owner proxy (R79, R195). -/
def State.issue (s : State) (c a : Cell) (p : Pkt) (rx : Nat) (gone : Bool := false) (dpa : Option Nat := none) : State :=
  (s.firstSlot c).elim s (s.issueAt c a p rx gone dpa)
/-- An admitted request leaves the hold: answered as a stray, refused in silence with its violation record, sent as
SPECRD without a slot, or issued under a tag. -/
def State.letIn (s : State) (a : Cell) (h : Held) (v : Verdict) : State :=
  let i := h.p.inst.val
  let real := h.dpa.isSome
  let s := { s with pool.hold := mmod [] s.pool.hold a.val (fun l => l.erase h) }
  let s := s.dec (F.INST_PORT_STATUS_HOLD_USED a)
  let s := if real then (s.dec (F.INST_USE_HELD i)).instCount i 3 ((s.cyc - h.at_) / 3) else s
  let s := if real && (readOpc h.p.opc || [Opc.wri, .wra, .wrptl].contains h.p.opc) then
      { s with
        pool.credMin := mmod 0 s.pool.credMin i (fun (x : Int) => x - 65536)
        pool.credMax := mmod 0 s.pool.credMax i (fun (x : Int) => x - 65536) }
    else s
  let c := s.slotCell a
  let use (s : State) : State := if real then s.inc (F.INST_USE_SLOTS i) else s
  let s :=
    if h.stray then
      if h.p.opc = .specrd then s else (use s).answerHere c a h.p h.at_ (silentResp h.p.opc) h.gone
    else match v with
      | .ok l asRds =>
        let p := { h.p with addr := BitVec.ofNat 52 (l * 64 + h.p.addr.toNat % 64), opc := if asRds then .rds else h.p.opc }
        if p.opc = .specrd then
          let q := { p with src := c, dst := s.homeOf c l, tagCell := c, tagSlot := (0x3FF : Slot), tc := s.reqTc c i, data := [] }
          match s.proxyOrder a q with
          | some s => s
          | none => s.send q
        else (use s).issue c a p h.at_ h.gone (h.dpa.map (· / 64))
      | .deny r =>
        let s := s.violate c
          { time := 0, inst := if r = 5 then 0 else i, requester := h.p.priv.toNat, cell := 0, port := a.val,
            access := accessCode h.p.opc, reason := r, parts := 1, denied := 1, addr := h.dpa.getD h.p.addr.toNat, len := 64,
            deniedBytes := 64 }
        if h.p.opc = .specrd then s
        else ((use s).answerHere c a h.p h.at_ (silentResp h.p.opc) h.gone !real).ctrEvent c 0x1A [] 1 true (if r = 5 then none else Pkt.named h.p)
      | .fetch _ _ => s
  if real then s.creditUpdate a i else s.portCredit a
/-- HOLD_ADMIT (R241), one in a core cycle: instances whose minimum credit is not negative first, then the others, each group by turns; a block
of the default map that a request lacks is fetched by then. -/
def execHoldAdmit (a : Cell) (s : State) : Outcome State Fault Refusal :=
  .next <|
    if s.mode = .safeStop ∨ s.cellFenced a ∨ mgetD 0 s.pool.admitAt a.val = s.cyc + 1 then s
    else
      let l := (heads (mgetD [] s.pool.hold a.val) []).filter (fun h => s.eligible a h (s.heldVerdict a h))
      let (m, r) := l.partition (fun h => h.who < 4096 && s.bwMin h.who > 0 && decide (0 ≤ mgetD 0 s.pool.credMin h.who))
      match s.nextTurn a (mgetD 0 s.pool.ptrMin a.val) m with
      | some h => { s with
          pool.ptrMin := mset 0 s.pool.ptrMin a.val (s.turnOf a h), pool.admitAt := mset 0 s.pool.admitAt a.val (s.cyc + 1) }.letIn a h (s.heldVerdict a h)
      | none => match s.nextTurn a (mgetD 0 s.pool.ptrRest a.val) r with
        | some h => { s with
            pool.ptrRest := mset 0 s.pool.ptrRest a.val (s.turnOf a h), pool.admitAt := mset 0 s.pool.admitAt a.val (s.cyc + 1) }.letIn a h (s.heldVerdict a h)
        | none => s
/-- DEFAULT_MAP_FETCH_RETURN (R268): the block joins the 256 the anchor caches, over the oldest. -/
def execDefaultMapFetchReturn (i : Inst) (r : Fin 2) (k : Ext) (s : State) : Outcome State Fault Refusal :=
  .next { s with
    pool.mapCache := mmod [] s.pool.mapCache i.val (fun l =>
      let l := l.filter (· != (r.val, k.val)) ++ [(r.val, k.val)]
      l.drop (l.length - 256)) }
/-- A credit of R241 at the end of a core cycle, by R143: an instance with requests held gains its rate, up to one access (DESIGN CHOICE, log 14);
one with none forfeits a positive credit, and pays off a negative one. -/
def creditStep (active : Bool) (r : Nat) (x : Int) : Int :=
  if active then min 65536 (x + bwRate r) else if x > 0 then 0 else min 0 (x + bwRate r)
/-- One core cycle of the credits of R241, and of throttled nanoseconds (R481). A credit whose rate is 0 stays as it is (R243). -/
def State.holdCycle (s : State) : State :=
  let ids := (s.pool.own.filter (fun (e : Nat × Owner) => e.1 < 4096)).map (·.1)
  ids.foldl (fun (s : State) i =>
    if s.instSt i = 0 then s
    else
      let up (r : Nat) (x : Int) : Int := creditStep (s.rd (F.INST_USE_HELD i) > 0) r x
      let s := { s with
        pool.credMin := mmod 0 s.pool.credMin i (fun (x : Int) => if s.bwMin i = 0 then x else up (s.bwMin i) x)
        pool.credMax := mmod 0 s.pool.credMax i (fun (x : Int) => if s.bwMax i = 0 then x else up (s.bwMax i) x) }
      let a := Cell.of (s.rd (F.INST_INFO_HOST_PORT i))
      if s.cyc % 3 = 0 && !s.rateOk i && s.rd (F.INST_USE_HELD i) > 0 && s.rd (F.INST_USE_SLOTS i) < s.slotMax i && s.memSlots a > 0 then
        s.instCount i 4 1
      else s) s

/-! ### Requests of a pass-through device (R263, R271) -/

/-- The home of the first line of a device's request that is allowed, as its egress port (R80; log 108). -/
def State.devEgress (s : State) (c : Cell) (r : DevReq) (i : Inst) (dpa : Nat) : Option Cell :=
  (List.range ({ cell := c, req := r, dpa := dpa, next := 0 } : DevTrack).lines).findSome? (fun n =>
    match s.check c (s.devAcc c r i) (dpa / 64 + n) false with
    | .ok x _ => some (s.homeOf c x)
    | _ => none)
/-- Re-issues of the tuple of a device's request are due before it (R86). -/
def State.devTupleLost (s : State) (c : Cell) (r : DevReq) (i : Inst) (dpa : Nat) : Bool :=
  match s.devEgress c r i dpa with
  | some e => s.tupleLost (s.anchorOf c) e (s.reqTc c i)
  | none => false
/-- The slot cell of a device's request to an instance. -/
def State.devCell (s : State) (c : Cell) (r : DevReq) (i : Inst) (dpa : Nat) : Cell :=
  (s.devEgress c r i dpa).elim (s.anchorOf c) (s.ioCell (s.anchorOf c))
/-- The violation record of a device request with a denied part: its first denied line, and how many parts and bytes are denied (R269, R271). -/
def State.devViolate (s : State) (c a : Cell) (r : DevReq) (i : Inst) (dpa : Nat) : State :=
  let acc := s.devAcc c r i
  let lines := (List.range (DevTrack.lines { cell := c, req := r, dpa := dpa, next := 0 })).map (fun n => dpa / 64 + n)
  let ps := parts (s.runs c acc (dpa / 64) lines.length)
  let bad := ps.filter (fun p => !p.2.2)
  match lines.findSome? (fun l => match s.check c acc l false with
    | .deny x => some (x, l)
    | _ => none) with
  | some (x, l) =>
    let bytes := (lines.filter (fun l => !(s.check c acc l false).allowed)).foldl (fun n l =>
      n + (min (dpa + r.len.val) (l * 64 + 64) - max dpa (l * 64))) 0
    (s.violate c { time := 0, inst := i.val, requester := 2 + acc.priv.toNat, cell := 0, port := a.val, access := r.write.toNat, reason := x,
                   parts := ps.length, denied := bad.length, addr := max dpa (l * 64), len := r.len.val, deniedBytes := bytes }).ctrEvent
      c 0x1A [] 1 true (some i.val)
  | none => s
/-- A device's memory request to an instance (R79, R263, R269, R271): one slot for all its lines (log 108), and one violation record for all its
forbidden parts. With no slot free it waits for credit (R81). -/
def State.deviceServe (s : State) (c : Cell) (r : DevReq) (i : Inst) (dpa : Nat) : State :=
  let a := s.anchorOf c
  let acc := s.devAcc c r i
  let d : DevTrack := { cell := c, req := r, dpa := dpa, next := 0 }
  let e := s.devEgress c r i dpa
  let sc := s.devCell c r i dpa
  match s.firstSlot sc with
  | none => s
  | some k =>
    let s := (s.takeSlot sc k { hdr := { opc := if r.write then .wri else .rdi, src := sc, dst := e.getD sc, tagCell := sc, tagSlot := k, inst := i,
                                         priv := acc.priv, tc := s.reqTc sc i, hslot := 0x7F },
                                egress := e.getD sc, at_ := s.cyc, rx := s.cyc, port := a, io := true, dev := some d }).portCredit a
    (s.devViolate c a r i dpa).devStep sc k (d.lines + 1)
/-- A pass-through device's message (R79, R151, R263): a memory request that matches an instance's decoder of its virtual switch is served, and
waits at a barrier (R277, R471); any other traffic goes to the host. A stopping module admits none (R44). -/
def State.deviceReceive (s : State) (c : Cell) (r : DevReq) : State :=
  match s.deviceVcs c with
  | none => s
  | some (h, _) =>
    let a := s.anchorOf c
    let e := Cell.of h
    let sc := s.ioCell a e
    match r.kind with
    | .cpl g => s.passIn a e .cxlio 2 r.hpa 0 r.data (some { g with final := true }) s.cyc
    | .pass cache v g => s.passIn a e (.pass cache v) (s.passTc sc false cache v) r.hpa 0 r.data g s.cyc
    | .io =>
      match s.decode e r.hpa.toNat with
      | none => if s.pool.paused.contains a.val then s else s.passIn a e .cxlio 2 r.hpa 0 r.data none s.cyc
      | some (i, dpa) =>
        if s.pausedAt c i || s.pool.paused.contains a.val || s.devTupleLost c r i dpa then
          { s with pool.devHeld := mmod [] s.pool.devHeld c.val (fun l => l ++ [r]) }
        else s.deviceServe c r i dpa
/-- DEVICE_REQUEST_RECEIVE: requests of the device that wait keep their place before it. -/
def execDeviceRequestReceive (c : Cell) (r : DevReq) (s : State) : Outcome State Fault Refusal :=
  .next <|
    if s.mode = .safeStop then s
    else if r.kind = .io && mgetD [] s.pool.devHeld c.val != [] then
      { s with pool.devHeld := mmod [] s.pool.devHeld c.val (fun l => l ++ [r]) }
    else s.deviceReceive c r
/-- A request that waits at a DEVICE cell finds a slot, if it needs one. -/
def State.devRoom (s : State) (c : Cell) (r : DevReq) : Bool :=
  match s.deviceVcs c with
  | some (h, _) => match s.decode (Cell.of h) r.hpa.toNat with
    | some (i, dpa) => (s.firstSlot (s.devCell c r i dpa)).isSome
    | none => true
  | none => true
/-- Requests of devices that waited for a barrier go on, or wait for a slot; a stopping module admits none (R44). -/
def State.resumeDevices (s : State) (cells : List Nat) : State :=
  if s.mode = .safeStop then s
  else cells.foldl (fun (s : State) c =>
    (mgetD [] s.pool.devHeld c).foldl (fun (s : State) r =>
      if s.devRoom (Cell.of c) r && !(mgetD [] s.pool.devHeld c).any (fun q => q.kind == .io) then s.deviceReceive (Cell.of c) r
      else { s with pool.devHeld := mmod [] s.pool.devHeld c (fun l => l ++ [r]) }) { s with pool.devHeld := mdel s.pool.devHeld c }) s

/-! ### Responses (R171) -/

/-- HOST_RESPONSE_DEPART (R171): the response leaves, DONE goes to the cell that granted, the proxy entry is installed
for E (R192), and the slot frees. A response that has not come does not leave. -/
def execHostResponseDepart (c : Cell) (k : Slot) (s : State) : Outcome State Fault Refusal :=
  .next <|
    match s.slot c k with
    | none => s
    | some t => match t.resp with
      | none => s
      | some r =>
        let units := match r with
          | .memData _ _ _ => 1
          | .ioCpl d _ _ => d.length
          | .pass p => p.len.val
          | _ => 0
        let s := if t.discard then s else (s.xingPass (F.SPILL_XING_CELL_at c 1) (1 + units)).emit (match r with
          | .vcs d ur => .vcsCpl t.port d ur
          | .pass p => .tlp c p
          | r => .resp c r)
        let i := t.hdr.inst.val
        let s := if t.io then s
          else if readOpc t.hdr.opc then (s.instCount i 0 1).instCount i 2 ((s.cyc - t.rx) / 3)
          else if needsWr t.hdr.opc && t.hdr.opc != .inva then s.instCount i 1 1 else s
        let s := match t.grantBy with
          | some (h, id) => s.send { t.hdr with opc := .done, src := c, dst := h, htid := id, tc := 6, len := 0, data := [] }
          | none => s
        -- a grant of the port's own proxy installs nothing
        let own := match t.grantBy with
          | some (h, id) => ((s.txn h id).map (·.proxy)).getD false
          | none => false
        let s := match r, t.grantBy with
          | .memData .E _ _, some (h, _) =>
            if s.unified t.port ∧ !own then s.installProxy t.port t.hdr.line t.rdataFrom h true else s
          | .cmpE, some (h, _) =>
            if s.unified t.port ∧ !own then s.installProxy t.port t.hdr.line t.grantM h false else s
          | _, _ => s
        if t.ended.isSome then s.setSlot c k { t with resp := none, grantBy := none } else s.releaseSlot c k t
/-- SLOT_HOLD_EXPIRE (R83): 1 ms after a loss at generation 7 the slot frees, and not before. -/
def execSlotHoldExpire (c : Cell) (k : Slot) (s : State) : Outcome State Fault Refusal :=
  .next <|
    match s.slot c k with
    | some t => match t.ended with
      | some n => if n + 3000000 ≤ s.cyc then s.releaseSlot c k t else s
      | none => s
    | none => s

end Sys2Proof.Machine
end

