-- ==== Sys2Proof/Machine/MemOps.lean ====
section
/-! DEFINITION. MEMORY cells (spec/08 R225 to R230, R253, spec/09 R279, R287): reads and writes of the expander under the
extent's key, mirrored sides, and what a copy or a rewrite in progress does to a write. -/

namespace Sys2Proof.Machine

/-- The device map entry of a cell for an extent. -/
def State.devEnt (s : State) (c e : Nat) : Option DevEnt := mget s.pool.dev (c * 65536 + e)
def State.setDev (s : State) (c e : Nat) (x : Option DevEnt) : State :=
  { s with
    pool.dev := match x with
      | some d => mput s.pool.dev (c * 65536 + e) d
      | none => mdel s.pool.dev (c * 65536 + e) }
/-- The slot that serves a line at a cell: the extent's, or below a walker's cursor the new one (R287). -/
def State.slotAt (s : State) (c : Cell) (d : DevEnt) (p : Pkt) : Option Nat :=
  d.key.map (fun (k : KeySlot) => match mget s.sec.walk p.ext, s.sec.rots.find? (fun (r : Rot) => r.old == k.val) with
    | some w, some r => if p.block < (if w.cell = c.val then w.block else w.mirBlock) then r.new else k.val
    | _, _ => k.val)
/-- The key that serves a line at a cell: what the cell's key RAM holds of its slot (R282). -/
def State.keyAt (s : State) (c : Cell) (d : DevEnt) (p : Pkt) : Option (BitVec 512) :=
  (s.slotAt c d p).bind (fun k => if (s.keyRec k).st = 0 ∨ (s.keyRec k).st = 4 then none else mget s.sec.keyRam (c.val * 8192 + k))
/-- An access waits: its key has not been loaded into the cell's key RAM, which the cell reloads before it serves (R282). -/
def State.keyWait (s : State) (c : Cell) (p : Pkt) : Bool :=
  match (s.devEnt c p.ext).bind (fun d => s.slotAt c d p) with
  | none => false
  | some k => (s.keyRec k).st != 0 && (s.keyRec k).st != 4 && (mget s.sec.keyRam (c.val * 8192 + k)).isNone

/-- MCMP to the home or proxy that issued an access. -/
def State.sendMcmp (s : State) (m : Cell) (p : Pkt) : State :=
  s.send { p with opc := .mcmp, src := m, dst := p.home, tc := 6, len := 0, data := [], pois := 0 }
/-- WCMP to the originating cell. -/
def State.sendMemWcmp (s : State) (m : Cell) (p : Pkt) : State :=
  s.send { p with opc := .wcmp, src := m, dst := p.tagCell, tc := 6, len := 0, data := [], pois := 0 }
/-- RDATA to the originating cell and MCMP to the home (R33). -/
def State.answerRead (s : State) (m : Cell) (p : Pkt) (d : Line) (poison : Bool) : State :=
  (s.send { p with opc := .rdata, src := m, dst := p.tagCell, tc := 5, len := 1, data := [d], pois := poisOne poison }).sendMcmp m p
/-- A read answered with poison: what its data holds is open (Config.freeLine). -/
def State.answerPoison (s : State) (m : Cell) (p : Pkt) : State :=
  let (n, s) := s.fresh
  s.answerRead m p (Config.freeLine n) true
/-- Both completions of a write (R35). -/
def State.answerWrite (s : State) (m : Cell) (p : Pkt) : State := (s.sendMemWcmp m p).sendMcmp m p

def State.putAcc (s : State) (a : MemAcc) : Nat × State :=
  (s.pool.nextAcc, { s with pool.acc := mput s.pool.acc s.pool.nextAcc a, pool.nextAcc := s.pool.nextAcc + 1 })
def State.setAcc (s : State) (n : Nat) (a : MemAcc) : State := { s with pool.acc := mput s.pool.acc n a }
def State.dropAcc (s : State) (n : Nat) : State := { s with pool.acc := mdel s.pool.acc n }

/-! ### Reads -/

/-- A read of the expander begins. -/
def State.startRead (s : State) (m : Cell) (p : Pkt) (a : MemAcc) (d : DevEnt) : State :=
  let (n, s) := s.putAcc a
  s.emit (.expRead m n (d.dpa p))
/-- The other cell of a mirrored extent. -/
def otherSide (e : ExtEnt) (m : Cell) : Cell := if e.mcell = m then e.mcell2 else e.mcell
/-- An access that is the other side of an open access at the cell it came from. -/
def State.parentAcc (s : State) (p : Pkt) (write : Bool) : Option Nat :=
  (s.pool.acc.find? (fun (e : Nat × MemAcc) => e.2.cell == p.src && e.2.write == write && e.2.awSides > 0
    && e.2.p.line == p.line && e.2.p.tagCell == p.tagCell && e.2.p.tagSlot == p.tagSlot)).map (·.1)
/-- The cell that an access goes to from a cell whose expander is lost (R229): the other side of a mirrored extent. -/
def State.liveSide (s : State) (m : Cell) (e : Nat) : Option Cell :=
  let x := s.homeExt m e
  let o := if x.st = .mirrored then otherSide x m else x.mcell
  if (x.st = .mirrored ∨ x.st = .single) ∧ o ≠ m ∧ !s.pool.lost.contains o.val ∧ !s.cellFenced o then some o else none
/-- A read is sent to the other side, which answers for this cell. -/
def State.readAtOther (s : State) (m o : Cell) (p : Pkt) : State :=
  (s.putAcc { cell := m, p := p, write := false, awOwn := false, awSides := 1, retried := true }).2.send { p with opc := .mrd, src := m, dst := o }
/-- So is a write. -/
def State.writeAtOther (s : State) (m o : Cell) (p : Pkt) : State :=
  (s.putAcc { cell := m, p := p, write := true, awOwn := false, awSides := 1 }).2.send { p with opc := .wdata, src := m, dst := o }
/-- An access that finds no key is counted (R225). -/
def State.noKey (s : State) (m : Cell) : State := (s.sat (F.INST_MEM_ERR_NOKEY m)).ctrEvent m 0x19 []
/-- A read that has no copy to take, or no key (R225): it is answered with poison or with zeros, and so is the access of which it is the other side. -/
def State.readFail (s : State) (m : Cell) (p : Pkt) (up : Option Nat) (poison : Bool) : State :=
  match up with
  | some n => match mget s.pool.acc n with
    | some a => if poison then (s.dropAcc n).answerPoison a.cell a.p else (s.dropAcc n).answerRead a.cell a.p 0 false
    | none => s
  | none => if poison then s.answerPoison m p else s.answerRead m p 0 false
/-- MRD at a MEMORY cell (R225, R230). -/
def State.memRead (s : State) (m : Cell) (p : Pkt) : State :=
  let up := s.parentAcc p false
  if (s.homeExt m p.ext).st = .lost then (s.sat (F.INST_MEM_ERR_LOST_ACC m)).readFail m p up true
  else if s.pool.lost.contains m.val then match (if up.isNone then s.liveSide m p.ext else none) with
    | some o => s.readAtOther m o p
    | none => (s.sat (F.INST_MEM_ERR_LOST_ACC m)).readFail m p up true
  else match s.devEnt m p.ext with
    | some d => match s.keyAt m d p with
      | some _ => s.startRead m p { cell := m, p := p, write := false, of_ := up } d
      | none => (s.noKey m).readFail m p up false
    | none => (s.noKey m).readFail m p up false
/-- MSPEC starts the read, and nothing answers it. -/
def State.memSpec (s : State) (m : Cell) (p : Pkt) : State :=
  match s.devEnt m p.ext with
  | some d => if (s.keyAt m d p).isSome then s.startRead m p { cell := m, p := p, write := false, spec := true } d
      else s.noKey m
  | none => s.noKey m

/-! ### Writes -/

/-- MFLUSHes of a line whose writes are complete are answered (R368). -/
def State.answerFlushes (s : State) (m : Cell) (line : Nat) : State :=
  if s.pool.acc.any (fun (e : Nat × MemAcc) => e.2.write && e.2.cell == m && e.2.p.line == line) then s
  else (s.pool.acc.filter (fun (e : Nat × MemAcc) => e.2.flush && e.2.cell == m && e.2.p.line == line)).foldl
    (fun (s : State) e => (s.dropAcc e.1).sendMcmp m e.2.p) s
/-- A side of a write is complete; with the last one the write is answered, or is the completed side of another. The fuel bounds how
deep sides nest: MCELL, MCELL2, and the destination of a copy. -/
def State.sideDone (s : State) (n : Nat) : Nat → State
  | 0 => s
  | k + 1 =>
    match mget s.pool.acc n with
    | none => s
    | some a =>
      if a.awOwn ∨ a.awSides > 1 then s.setAcc n { a with awSides := a.awSides - 1 }
      else match a.of_ with
        | none => ((s.dropAcc n).answerWrite a.cell a.p).answerFlushes a.cell a.p.line
        | some m => (s.dropAcc n).sideDone m k
/-- The MAP note that gives a part its destination is still on its way: the engine reads nothing yet (R226, R253). -/
def State.partNoted (s : State) (q : PressPart) : Bool :=
  s.pool.notes.any (fun (e : Nat × MapNote) => e.2.dev.any (fun d => d.1 == q.destCell && d.2.1 == q.ext && d.2.2.isSome))
/-- The part of a running Press operation of which a cell holds the source side of an extent, or, once the remap note of its MOVE is out, the
destination (R253, R254). -/
def State.pressAt (s : State) (m : Cell) (e : Nat) : Option (PressOp × PressPart) :=
  s.pool.press.findSome? (fun (x : Nat × PressOp) => (x.2.parts.find? (fun (q : Nat × PressPart) => q.2.ext == e && !q.2.fin
    && (!q.2.ended || q.2.code == 1 || q.2.code == 2) && !s.partNoted q.2
    && (q.2.src == m.val || (q.2.destCell == m.val && x.2.remap)))).map (fun q => (x.2, q.2)))
/-- A write lies in the block that a copy or a rewrite is working on, and waits (R253, R287). -/
def State.mustHold (s : State) (m : Cell) (p : Pkt) : Bool :=
  (match s.pressAt m p.ext with
    | some (_, q) => q.src == m.val && !q.ended && q.block == p.block
    | none => false)
  || (match mget s.sec.walk p.ext with
    | some w => w.block == p.block && w.cell == m.val
    | none => false)
/-- Cells besides m that a write goes to: the mirror side, from the cell that is MCELL; the destination of a copy, below its cursor; and while
a remap barrier is open, from either side of the copy to the other (R227, R253, R254). A write that comes from another side goes on to the
copy only (`inner`). -/
def State.writeSides (s : State) (m : Cell) (p : Pkt) (inner : Bool) : List Cell :=
  let e := s.homeExt m p.ext
  let mir (first : Bool) : List Cell := if !inner && first && e.st = .mirrored && e.mcell2 ≠ m then [e.mcell2] else []
  match s.pressAt m p.ext with
  | none => mir (e.mcell == m)
  | some (o, q) =>
    let cp := if q.src ≠ m.val then [Cell.of q.src]
      else if q.ended || p.block < q.block then [Cell.of q.destCell] else []
    let cp := cp.filter (fun c => !(inner && c == p.src))
    (mir (e.mcell == m || (!o.resilver && !q.mirrorSide))).filter (fun c => !cp.contains c) ++ cp
/-- The write of a line goes to the expander, and to the other sides. -/
def State.performWrite (s : State) (m : Cell) (p : Pkt) (up : Option Nat) (d : DevEnt) (key : BitVec 512) : State :=
  let sides := s.writeSides m p up.isSome
  let rmw := p.bmask ≠ BitVec.allOnes 64 && !p.poison
  let (n, s) := s.putAcc { cell := m, p := p, write := true, of_ := up, awSides := sides.length, rmw := rmw }
  let s := s.sendAll (sides.map (fun c => { p with opc := .wdata, src := m, dst := c }))
  if rmw then s.emit (.expRead m n (d.dpa p))
  else (s.emit (.expWrite m n (d.dpa p) (encrypt key p.line (p.data.headD 0)) (BitVec.allOnes 64) p.poison)).ctrEvent m 0x18 [0]
/-- A write that reaches no expander: its sender takes it as complete. -/
def State.discardWrite (s : State) (m : Cell) (p : Pkt) (up : Option Nat) : State :=
  match up with
  | some n => s.sideDone n 4
  | none => s.answerWrite m p
/-- WDATA at a MEMORY cell (R225, R227, R230, R253). -/
def State.memWrite (s : State) (m : Cell) (p : Pkt) : State :=
  let up := s.parentAcc p true
  if (s.homeExt m p.ext).st = .lost then (s.sat (F.INST_MEM_ERR_LOST_ACC m)).discardWrite m p up
  else if s.pool.lost.contains m.val then match (if up.isNone then s.liveSide m p.ext else none) with
    | some o => s.writeAtOther m o p
    | none => (s.sat (F.INST_MEM_ERR_LOST_ACC m)).discardWrite m p up
  else match s.devEnt m p.ext with
    | some d => match s.keyAt m d p with
      | some key =>
        if s.mustHold m p then (s.putAcc { cell := m, p := p, write := true, held := true, of_ := up }).2
        else s.performWrite m p up d key
      | none => (s.noKey m).discardWrite m p up
    | none => (s.noKey m).discardWrite m p up
/-- Writes held for a block of an extent go on (R253, R287). -/
def State.releaseHeld (s : State) (e : Nat) : State :=
  (s.pool.acc.filter (fun (x : Nat × MemAcc) => x.2.held && x.2.p.ext == e)).foldl (fun (s : State) x =>
    let s := s.dropAcc x.1
    match s.devEnt x.2.cell e with
    | some d => match s.keyAt x.2.cell d x.2.p with
      | some k => s.performWrite x.2.cell x.2.p x.2.of_ d k
      | none => (s.noKey x.2.cell).discardWrite x.2.cell x.2.p x.2.of_
    | none => (s.noKey x.2.cell).discardWrite x.2.cell x.2.p x.2.of_) s
/-- A write has completed at every side: it is answered, or its parent's side is complete. -/
def State.writeStep (s : State) (n : Nat) (a : MemAcc) : State :=
  if a.awOwn ∨ a.awSides > 0 then s.setAcc n a
  else
    let s := s.dropAcc n
    match a.of_ with
    | none => (s.answerWrite a.cell a.p).answerFlushes a.cell a.p.line
    | some m => s.sideDone m 4

/-! ### What an expander answers -/

/-- Bytes of a line under a mask from one line, the others from another. -/
def mergeLine (old new : Line) (mask : Word) : Line :=
  let m := (List.range 64).foldl (fun acc i => if mask.getLsbD i then acc + 255 * 2 ^ (8 * i) else acc) 0
  (old &&& ~~~(BitVec.ofNat 512 m)) ||| (new &&& BitVec.ofNat 512 m)
/-- Read data of an access (R33, R228, R279). -/
def State.expReadData (s : State) (m : Cell) (n : Nat) (raw : Line) (st : ExpSt) : State :=
  match mget s.pool.acc n with
  | none => s
  | some a =>
    if a.cell ≠ m then s
    else if a.spec then s.dropAcc n
    else match s.devEnt m a.p.ext with
      | none => s.dropAcc n
      | some d => match s.keyAt m d a.p with
      | none =>
        let s := (s.dropAcc n).noKey m
        if a.rmw then s.discardWrite m a.p a.of_ else s.readFail m a.p a.of_ false
      | some key =>
        let plain := decrypt key a.p.line raw
        let s := s.ctrEvent m 0x18 [1]
        if a.rmw then
          let new := mergeLine plain (a.p.data.headD 0) a.p.bmask
          ((s.setAcc n { a with rmw := false }).ctrEvent m 0x18 [0]).emit
            (.expWrite m n (d.dpa a.p) (encrypt key a.p.line new) (BitVec.allOnes 64) (st ≠ .ok))
        else match a.of_ with
          | some up => match mget s.pool.acc up with
            | some b =>
              let s := (s.dropAcc n).dropAcc up
              if st = .ok then (s.sat (F.INST_MEM_ERR_MIRROR_READS b.cell)).answerRead b.cell b.p plain false
              else s.answerRead b.cell b.p plain true
            | none => s.dropAcc n
          | none =>
            let e := s.homeExt m a.p.ext
            if st ≠ .ok ∧ e.st = .mirrored ∧ !a.retried then
              (s.setAcc n { a with retried := true, awSides := 1 }).send { a.p with opc := .mrd, src := m, dst := otherSide e m }
            else (s.dropAcc n).answerRead m a.p plain (st ≠ .ok)
/-- Completion of an access's write. -/
def State.expWriteDone (s : State) (m : Cell) (n : Nat) : State :=
  match mget s.pool.acc n with
  | none => s
  | some a => if a.cell = m ∧ a.write ∧ !a.held then s.writeStep n { a with awOwn := false } else s

end Sys2Proof.Machine
end

