-- ==== Sys2Proof/Machine/Scrim.lean ====
section
/-! DEFINITION. The commands of Scrim and Lath (spec/02): units, replay, heartbeats, dead links, fence notes, Lath edges and
the router's snapshot. The drain handshake stands with the power domains, the fence epoch's own steps in Fence. -/

namespace Sys2Proof.Machine

open Host (Outcome)

/-- The unit is for an output of router c. A dead output absorbs it (R66): with the header the whole packet, and the rest of one that has
begun to pass was counted as the output died. Else it joins its input's buffer, where a local port holds it (R71) or goes on with it. -/
def State.forwardUnit (s : State) (c : Cell) (d : Dir) (p : Pkt) (u pool : Nat) : State :=
  let o := outOf c p
  if s.outDead c o then (if u = 0 then (s.lose [p]).sat (F.SCRIM_ABSORB_DEAD_OUT c) else s)
  else
    let s := s.bufPut c d p u pool
    if o ≠ .loc then s
    else if s.rd (F.SCRIM_RTR_STATUS_LOCAL_MODE c) = 1 then
      { s with scrim.heldUnits := mmod [] s.scrim.heldUnits c.val (fun l => l ++ [(p, u)]) }.holdArrival c p
    else s.ejectAll c

/-- The header of a packet with the old FEP is checked against both maps (R67): a packet whose route has changed is absorbed, any
other is stamped again. A router that has not run its part of the open epoch meets the new FEP with packets of routers that have. -/
def State.staleFep (s : State) (c : Cell) (p : Pkt) : State × Option Pkt :=
  let fep := s.rdb (F.SCRIM_RTR_STATUS_FEP c)
  if p.fep = fep ∨ (s.scrim.epochOpen ∧ !s.scrim.applied.contains c) then (s, some p)
  else if route s.scrim.oldFence p.src.val p.dst.val = route s.scrim.fence p.src.val p.dst.val then (s, some { p with fep := fep })
  else ((s.lose [p]).sat (F.SCRIM_ABSORB_STALE c), none)
/-- The header takes its turn at the waypoint (R59). -/
def turned (c : Cell) (p : Pkt) : Pkt := if p.route = 1 ∧ p.wcell = c then { p with route := 2 } else p
/-- The link's sender keeps the last 16 flits it sent (R54); a flit carries one unit here (DESIGN CHOICE, log 105). -/
def State.keepFlit (s : State) (c : Cell) (d : Dir) (p : Pkt) (u : Nat) : State :=
  match neighbour c.val d, edgeOf c.val d with
  | some n, none =>
    { s with scrim.replay := mmod [] s.scrim.replay (n * 5 + d.opp.num) (fun l =>
        if l.getLast? = some (p, u) then l else (l ++ [(p, u)]).drop (l.length - 15)) }
  | _, _ => s
/-- The crossing of a Lath input has credit for a unit (R118). -/
def State.seamRoom (s : State) (c : Cell) (d : Dir) : Bool :=
  match edgeOf c.val d with
  | some (e, j) => s.xingRoom (F.SPILL_XING_EDGE_at (dieOf c) e j)
  | none => true
/-- A sound unit that its sender offers next: it leaves the sender's buffer, crosses the seam, and is forwarded. Nothing comes of one
that no sender offers (log 8). -/
def State.goodUnit (s : State) (c : Cell) (d : Dir) (p : Pkt) (u : Nat) : State :=
  match (if s.seamRoom c d then s.offered c d p u else none) with
  | none => s
  | some (q, s) =>
    let pool := (s.freePool c d q u).getD 0
    let s := match edgeOf c.val d with
      | some (e, j) => s.xingPass (F.SPILL_XING_EDGE_at (dieOf c) e j) 1
      | none => s.keepFlit c d q u
    let k := (c.val * 5 + d.num) * 8 + q.opc.vc
    let s := match neighbour c.val d with
      | some n => s.boundary (Cell.of n) d.opp q u
      | none => s
    if u = 0 then
      match s.staleFep c q with
      | (s, none) => s
      | (s, some r) =>
        let r := turned c r
        let s := s.moveTo q r c
        let s := if r.len.val = 0 then s else { s with scrim.rx := mput s.scrim.rx k (r, 1) }
        s.forwardUnit c d r u pool
    else
      let r := turned c q
      let s := { s with scrim.rx := if u = q.len.val then mdel s.scrim.rx k else mput s.scrim.rx k (r, u + 1) }
      s.forwardUnit c d r u pool
/-- A flit that its sender has sent, and its receiver rejects: it leaves the sender's buffer, and the replay starts with it (R54). -/
def State.rejected (s : State) (c : Cell) (d : Dir) (p : Pkt) (u : Nat) : State :=
  match neighbour c.val d, s.offered c d p u with
  | some n, some (q, t) =>
    { t with scrim.unacked := mmod [] t.scrim.unacked (n * 5 + d.opp.num) (fun l => (q, u) :: l) }.keepFlit c d q u
  | _, _ => s
/-- A unit that the receiver rejects: on a Lath link UCIe retries it; on another link every later flit is rejected too, and a replay
is requested (R53, R54). `crc` is an uncorrectable error of its slots, `form` a header failure or VC7. -/
def State.badUnit (s : State) (c : Cell) (d : Dir) (p : Pkt) (u : Nat) (crc form : Bool) : State :=
  let s := if form then s.sat (F.SCRIM_LINK_ERR_HCRC_FAIL c) else s
  match edgeOf c.val d with
  | some (e, j) =>
    (if crc then s.sat (F.DIE_LATH_ERR_CRC_ERR (dieOf c) e j) else s).sat (F.DIE_LATH_ERR_RETRIES (dieOf c) e j)
  | none =>
    let s := s.rejected c d p u
    { s with scrim.rejecting := (c.val * 5 + d.num) :: s.scrim.rejecting }.sat (F.SCRIM_LINK_ERR_REPLAYS c)
/-- What a unit does at input d of router c (R53, R54): nothing in a router that is out of the mesh (R48); any valid slot shows the
link alive (R65). -/
def State.takeUnit (s : State) (c : Cell) (d : Dir) (p : Pkt) (u : Nat) (ecc : Ecc) (hcrcOk vcOk : Bool) : State :=
  let k := c.val * 5 + d.num
  let crc : Bool := ecc = .uncorrectable
  let form := !crc && (!vcOk || p.opc.vc == 7 || (u == 0 && !hcrcOk))
  if !s.spineOn c then s
  else
    let s := if crc then s else { s with scrim.seen := mput s.scrim.seen k s.cyc }
    if s.scrim.rejecting.contains k then s
    else
      let s := if ecc = .corrected then s.sat (F.SCRIM_LINK_ERR_ECC_CORR c) else s
      if crc || form then s.badUnit c d p u crc form else s.goodUnit c d p u

/-- SCRIM_REPLAY_REQUEST (R54): the sender replays, and the receiver takes flits again; a fourth failed replay of the
same flit makes the link dead. A seam link has UCIe's retry in its place. -/
def execScrimReplayRequest (c : Cell) (d : Dir) (again : Bool) (s : State) : Outcome State Fault Refusal :=
  .next <|
    if (edgeOf c.val d).isSome then s
    else
    let k := c.val * 5 + d.num
    let n := if again then mgetD 0 s.scrim.replayFails k + 1 else 0
    let s := { s with scrim.replayFails := mset 0 s.scrim.replayFails k n }
    let s := match neighbour c.val d with
      | some m => { s with scrim.rejecting := s.scrim.rejecting.filter (· != m * 5 + d.opp.num) }
      | none => { s with scrim.rejecting := s.scrim.rejecting.filter (· != k) }
    if n ≥ 4 then s.declareDead c d 0x0001 else s

/-- HEARTBEAT_SEND (R65): the far input sees a heartbeat, whatever credit there is. -/
def execHeartbeatSend (c : Cell) (d : Dir) (s : State) : Outcome State Fault Refusal :=
  .next <|
    let k := match neighbour c.val d with
      | some n => n * 5 + d.opp.num
      | none => c.val * 5 + d.num
    if s.spineOn c then { s with scrim.seen := mput s.scrim.seen k s.cyc } else s

/-- The cell's logic domain is off or in retention (R404): its local port is exempt from the heartbeat rule (R65). -/
def State.asleep (s : State) (c : Cell) : Bool := s.domain (3 * c.val) ≠ 1

/-- Input d of router c has seen no valid slot or heartbeat for 1 µs: 3,000 core cycles (R65). -/
def State.silent (s : State) (c : Cell) (d : Dir) : Bool :=
  decide (mgetD 0 s.scrim.seen (c.val * 5 + d.num) + 3000 ≤ s.cyc)
/-- HEARTBEAT_TIMEOUT (R65): an input of a router in the mesh that was silent for 1 µs. A local port asleep is exempt, and there is no input
where the mesh has no link. -/
def execHeartbeatTimeout (c : Cell) (d : Dir) (s : State) : Outcome State Fault Refusal :=
  .next <|
    if !s.spineOn c || !s.silent c d || (if d = .loc then s.asleep c else (linkOf c.val d).isNone) then s else s.declareDead c d 0x0002

/-- UCIE_LINK_DOWN (R65): both ends declare the seam link dead; any other link has no UCIe and is left alone. -/
def execUcieLinkDown (n : MeshLink) (s : State) : Outcome State Fault Refusal :=
  .next <|
    if seamLink n.val then
      let (a, b) := linkEnds n.val
      let (da, db) : Dir × Dir := if n.val < 120 then (.east, .west) else (.south, .north)
      (s.declareDead (Cell.of a) da 0x0003).declareDead (Cell.of b) db 0x0003
    else s

/-- The elements that notes fence: those they name, and a die whose Lath links are then all dead (R67). -/
def State.wholeDies (s : State) (notes : List Elem) : List Elem :=
  let m := notes.foldl FenceMap.add s.scrim.fence
  let whole := (List.range 8).filter (fun d => !m.dies.contains d && (dieSeams d).all m.links.contains)
  whole.map (fun d => Elem.die (Fin.ofNat 8 d))

/-- The leader decides on notes: their elements, and whole dies, each of which is a class 0x04 fault of its own. -/
def State.fenceNotes (s : State) (notes ret : List Elem) : State :=
  let whole := s.wholeDies notes
  let s := whole.foldl (fun (s : State) e => s.logFault 0x04 none 0xFFFF 0x0004 (elemNum e) (elemNum e) false s.fenceToward (s.lastOf e) (s.oneDie e)) s
  s.openEpoch (notes ++ whole) ret

/-- FENCE_NOTE (R67): an element that fails while an epoch is open joins the next one. A fenced element adds nothing. -/
def execFenceNote (e : Elem) (s : State) : Outcome State Fault Refusal :=
  .next <|
    let s := { s with scrim.notes := s.scrim.notes.filter (· != e) }
    if s.scrim.fence.has e then s
    else if s.scrim.epochOpen then
      if s.scrim.nextNotes.contains e then s else { s with scrim.nextNotes := s.scrim.nextNotes ++ [e] }
    else s.fenceNotes [e] []

/-- LATH_LP_ENTRY (R64): the links of the edge enter low power, at both of their ends. -/
def execLathLpEntry (d : Die) (e : Fin 4) (s : State) : Outcome State Fault Refusal :=
  .next <|
    if (edgePresent d.val).testBit e.val && s.mode = .drowse && s.rd (F.DIE_LATH_CTRL_LP_IDLE d e) != 0
        && s.rd (F.DIE_LATH_STATUS_STATE d e) = 2 then
      (s.wr (F.DIE_LATH_STATUS_LINK_LP d e) 0xF).wr (F.DIE_LATH_STATUS_LINK_LP (facing d e) ((e.val + 2) % 4)) 0xF
    else s

/-- LATH_LP_EXIT (R64): the unit waits in the router, in the slots it takes there, while its edge returns to ACTIVE. -/
def execLathLpExit (d : Die) (e : Fin 4) (c : Cell) (p : Pkt) (s : State) : Outcome State Fault Refusal :=
  .next <|
    if s.rd (F.DIE_LATH_STATUS_LINK_LP d e) != 0 then
      { s.standAt c p with scrim.waiting := mmod [] s.scrim.waiting c.val (· ++ [p]) }
    else s

/-- LATH_EDGE_ACTIVE (R64). -/
def execLathEdgeActive (d : Die) (e : Fin 4) (s : State) : Outcome State Fault Refusal :=
  .next <| if (edgePresent d.val).testBit e.val then s.edgeWakes d.val e.val else s

/-- SEAM_TRAIN_COMPLETE (R63): a seam link that trains is up, or is fenced; another link, or one that does not train, is left alone.
The edges on both sides are ACTIVE once their links have trained. -/
def execSeamTrainComplete (n : MeshLink) (ok : Bool) (s : State) : Outcome State Fault Refusal :=
  .next <|
    if !s.scrim.training.contains n.val then s
    else
      let (a, b) := linkEnds n.val
      let (ea, eb) : Nat × Nat := if n.val < 120 then (1, 3) else (2, 0)
      let s := { s with scrim.training := s.scrim.training.filter (· != n.val) }
      let s := (s.edgeTrained (a / 16) ea).edgeTrained (b / 16) eb
      if ok then s else s.failElem (.link n) none 0x0003 n.val

/-- SCRIM_SNAP (R72): every statistics register takes its live count, the live counts start again from 0, and INTERVAL
holds the core cycles since the last SNAP; at the first one, those since the module left DORMANT (DESIGN CHOICE, log 107: the spec
states no interval before a first SNAP). -/
def execScrimSnap (c : Cell) (s : State) : Outcome State Fault Refusal :=
  .next <|
    let s := (List.range 7).foldl (fun s v =>
      (s.wr (F.SCRIM_INJ_BYTES_INJ_BYTES c v) (mgetD 0 s.scrim.injLive (c.val * 8 + v))).wr
        (F.SCRIM_EJ_BYTES_EJ_BYTES c v) (mgetD 0 s.scrim.ejLive (c.val * 8 + v))) s
    let s := s.wr (F.SCRIM_INJ_STALL_STALL c) (mgetD 0 s.scrim.stallLive c.val)
    let s := (List.range 8).foldl (fun s n =>
      (s.wr (F.SCRIM_LAT_HIST_LO c n) (mgetD 0 s.scrim.histLive (c.val * 16 + 2 * n))).wr
        (F.SCRIM_LAT_HIST_HI c n) (mgetD 0 s.scrim.histLive (c.val * 16 + 2 * n + 1))) s
    let s := s.wr (F.SCRIM_LAT_MAX_MAX_NS c) (mgetD 0 s.scrim.maxLive c.val)
    let s := s.wr (F.SCRIM_STAT_CTRL_INTERVAL c) (s.cyc - mgetD 0 s.scrim.snapAt c.val)
    { s with
      scrim.injLive := mkeep (fun k _ => k / 8 != c.val) s.scrim.injLive
      scrim.ejLive := mkeep (fun k _ => k / 8 != c.val) s.scrim.ejLive
      scrim.stallLive := mdel s.scrim.stallLive c.val
      scrim.histLive := mkeep (fun k _ => k / 16 != c.val) s.scrim.histLive
      scrim.maxLive := mdel s.scrim.maxLive c.val
      scrim.snapAt := mset 0 s.scrim.snapAt c.val s.cyc }

end Sys2Proof.Machine
end

