-- ==== Sys2Proof/Machine/InstOps.lean ====
section
/-! DEFINITION. Capacity and its owners (spec/08, spec/09 R285 to R288): map notes, recall sweeps, retirement of extents and
keys, rotations, scrubs, and the module's own region commits. -/

namespace Sys2Proof.Machine

/-! ### Extents -/

/-- The home entry of an extent, with the changes that travel in a fence epoch. -/
def State.extNow (s : State) (e : Nat) : ExtEnt :=
  ((s.scrim.extNext ++ s.scrim.extChg).find? (fun (x : Nat × ExtEnt) => x.1 == e)).elim (s.homeExt s.refCell e) (·.2)
def State.setLife (s : State) (e n : Nat) : State := { s with pool.life := mset 0 s.pool.life e n }
/-- Writes an entry into every copy (the image's maps, and those of new capacity). -/
def State.setExtAll (s : State) (e : Nat) (x : ExtEnt) : State :=
  { s with home.ext := (List.range 128).foldl (fun m c => mset {} m (c * 65536 + e) x) s.home.ext }
/-- INST_CAP of an instance: what it has been offered, and what waits for a scrub, an answer or a release. -/
def State.capUpdate (s : State) (i : Nat) : State :=
  if i ≥ 4096 then s
  else
    let o := s.owner i
    let given := o.exts.filter (fun e => o.offered.contains e || o.accepted.contains e)
    let mir := given.filter (fun e => let x := s.extNow e; x.st = .mirrored || x.st = .single || x.st = .resilver)
    let s := s.wr (F.INST_CAP_MIRRORED_GIB i) mir.length
    let s := s.wr (F.INST_CAP_UNMIRRORED_GIB i) (given.length - mir.length)
    s.wr (F.INST_CAP_PENDING_GIB i) (o.exts.length - o.accepted.length)

/-- The members an extent belongs to see an event. -/
def State.extEvent (s : State) (x : ExtEnt) (code : Nat) : State :=
  let is := if x.group then (s.owner (4096 + x.owner.val)).members else [x.owner.val]
  is.foldl (fun (s : State) i => if s.instSt i = 0 then s else s.tenantEvent i code) s

/-! ### Map notes (R226) -/

/-- Sends a MAP note; what it is for follows when every surviving cell has acknowledged it. -/
def State.sendNote (s : State) (home : List (Nat × ExtEnt)) (dev : List (Nat × Nat × Option DevEnt)) (goal : NoteFor) : State :=
  { s with pool.notes := mput s.pool.notes s.pool.nextNote { home := home, dev := dev, goal := goal }, pool.nextNote := s.pool.nextNote + 1 }
/-- A cell applies a note and acknowledges it; notes reach a cell in the order in which they were sent. -/
def State.applyNote (s : State) (c : Cell) (n : Nat) : State :=
  match mget s.pool.notes n with
  | none => s
  | some x =>
    if x.acked.contains c.val ∨ s.cellFenced c ∨ s.pool.notes.any (fun (e : Nat × MapNote) => e.1 < n && !e.2.acked.contains c.val) then s
    else
      let s := { s with home.ext := x.home.foldl (fun (m : NMap ExtEnt) (h : Nat × ExtEnt) => mset {} m (c.val * 65536 + h.1) h.2) s.home.ext }
      -- an extent that is no longer REMOTE leaves the remote extent table (R354)
      let s := { s with onl.rext := s.onl.rext.filter (fun (e : Nat × Nat × Nat) => !x.home.any (fun (h : Nat × ExtEnt) => h.1 == e.1 && h.2.st != ExtSt.remote)) }
      let s := x.dev.foldl (fun (s : State) d => if d.1 = c.val then s.setDev d.1 d.2.1 d.2.2 else s) s
      { s with pool.notes := mput s.pool.notes n { x with acked := c.val :: x.acked } }
/-- Every surviving cell has acknowledged. -/
def State.noteAcked (s : State) (x : MapNote) : Bool :=
  (List.finRange 128).all (fun c => s.cellFenced c || x.acked.contains c.val)

/-! ### Keys leave (R285, R286) and rotate (R287) -/

/-- ZEROIZE notes for a slot go to every MEMORY cell (R285). -/
def State.zeroizeSlot (s : State) (k : Nat) : State :=
  s.setKeyRec k { s.keyRec k with st := 4, making := false, awAck := s.memCells.map (·.val) }
/-- A device map entry of the module still names a slot. -/
def State.slotNamed (s : State) (k : Nat) : Bool :=
  s.pool.dev.any (fun (e : Nat × DevEnt) => e.2.key == some (Fin.ofNat 8192 k))
/-- Walkers start on the extents of rotations whose new key every MEMORY cell has loaded: four to a cell, none on an extent that Press
moves (R287, R288). -/
def State.startWalkers (s : State) : State :=
  s.sec.rots.foldl (fun (s : State) r =>
    if !s.keyLoaded r.new then s
    else r.left.foldl (fun (s : State) e =>
      let x := s.extNow e
      let c := x.mcell.val
      let busy := s.pool.press.any (fun (o : Nat × PressOp) => o.2.parts.any (fun (q : Nat × PressPart) => q.2.ext == e && !q.2.fin))
      let n := (s.sec.walk.filter (fun (w : Nat × Walker) => w.2.cell == c)).length
      if (mget s.sec.walk e).isSome || busy || n ≥ 4 || x.sides.isEmpty then s
      else { s with sec.walk := mput s.sec.walk e { cell := c } }) s) s
/-- Extents left to rekey and the running rotations, in the registers (Tables 9-16 and 9-18). -/
def State.rotShow (s : State) : State :=
  let s := s.wr F.SEC_STATUS_ROTATING s.sec.rots.length
  let s := s.wrb F.SEC_ROTATE_BUSY (s.sec.rots.any (·.byMgr) || s.sec.rotQueue.any (·.2.2))
  match s.sec.rots.getLast? with
  | some r => ((s.wr F.SEC_ROT_STATUS_EXT_LEFT r.left.length).wr F.SEC_ROT_STATUS_OLD_SLOT r.old).wr F.SEC_ROT_STATUS_NEW_SLOT r.new
  | none => s.wr F.SEC_ROT_STATUS_EXT_LEFT 0
/-- The running rotation of an owner's slot. -/
def State.rotOf (s : State) (owner : Nat) : Option Rot :=
  s.sec.rots.find? (fun (r : Rot) => r.owner + (if r.group then 4096 else 0) == owner)
/-- A rotation of an owner's slot waits its turn. -/
def State.queueRot (s : State) (owner : Nat) (byMgr : Bool) : State :=
  let q := (owner, decide (owner ≥ 4096), byMgr)
  (if s.sec.rotQueue.contains q then s else { s with sec.rotQueue := s.sec.rotQueue ++ [q] }).rotShow
/-- Starts a rotation of an owner's slot, or none where it holds none or no key can be made (R281, R287). With 64 running, or while one of
the same owner runs, it waits (R288). -/
def State.startRot (s : State) (owner : Nat) (byMgr : Bool) : Option State :=
  match (s.owner owner).key with
  | none => none
  | some old =>
    if s.sec.rots.length ≥ 64 ∨ (s.rotOf owner).isSome then some (s.queueRot owner byMgr)
    else match s.allocSlot (owner % 4096) (owner ≥ 4096) with
      | (some new, s) =>
        let s := s.setKeyRec old { s.keyRec old with st := 2 }
        let s := s.setKeyRec new { s.keyRec new with st := 3 }
        let s := { s with
          sec.rots := s.sec.rots ++ [(⟨owner % 4096, owner ≥ 4096, old, new,
            (s.owner owner).exts.filter (fun e => !(s.extNow e).sides.isEmpty), byMgr⟩ : Rot)] }
        some ((s.wr F.SEC_ROT_STATUS_RESULT 2).rotShow)
      | (none, _) => none
/-- Rotations that wait start in order, as far as there is room; one that gets no key goes on waiting. -/
def State.startRots (s : State) : State :=
  s.sec.rotQueue.foldl (fun (s : State) q =>
    if s.sec.rots.length ≥ 64 ∨ (s.rotOf q.1).isSome then s
    else match { s with sec.rotQueue := s.sec.rotQueue.erase q }.startRot q.1 q.2.2 with
      | some t => t
      | none => if (s.owner q.1).key.isNone then { s with sec.rotQueue := s.sec.rotQueue.erase q } else s.noKeyFor q.1) s
/-- A rotation whose extents are all rekeyed ends: the new slot serves, the old one is zeroized (R287). -/
def State.endRots (s : State) : State :=
  let fin := s.sec.rots.filter (fun r => r.left.isEmpty && !(s.keyRec r.new).making)
  let s := { s with sec.rots := s.sec.rots.filter (fun r => !(r.left.isEmpty && !(s.keyRec r.new).making)) }
  let s := fin.foldl (fun (s : State) r =>
    let k := r.owner + (if r.group then 4096 else 0)
    let s := s.setOwner k { s.owner k with key := some r.new }
    let s := s.setKeyRec r.new { s.keyRec r.new with st := 1 }
    (s.zeroizeSlot r.old).wr F.SEC_ROT_STATUS_RESULT 1) s
  (if fin.isEmpty then s else s.startRots).rotShow
/-- The last step of retirement (R285, R286): slots that no entry names are zeroized, those of a running rotation with them; one that is still
named rotates, after the rotation that runs. A rotation whose last extent has been released ends (R288). -/
def State.retireKey (s : State) (owner : Nat) : State :=
  match (s.owner owner).key with
  | none => s
  | some k =>
    let run := s.rotOf owner
    if s.slotNamed k || run.any (fun (r : Rot) => s.slotNamed r.new) then
      if run.isSome then (s.queueRot owner false).endRots
      else (s.startRot owner false).getD ((s.noKeyFor owner).queueRot owner false)
    else
      let s := { s with sec.rots := s.sec.rots.filter (fun (r : Rot) => some r != run) }
      let s := run.elim s (fun r => s.zeroizeSlot r.new)
      ((s.setOwner owner { s.owner owner with key := none }).zeroizeSlot k).rotShow
/-- Extents stop being their owner's: KEY none on every side, by a MAP note (R285). A walker on one of them stops (R288). -/
def State.retireNow (s : State) (owner : Nat) (exts : List Nat) (unbound : Option Bool) : State :=
  let s := { s with
    sec.walk := mkeep (fun e _ => !exts.contains e) s.sec.walk
    sec.rots := s.sec.rots.map (fun (r : Rot) => { r with left := r.left.filter (fun e => !exts.contains e) }) }
  let dev := exts.flatMap (fun e => (s.extNow e).sides.filterMap (fun (c : Cell) =>
    (s.devEnt c e).map (fun d => (c.val, e, some { d with key := none }))))
  s.sendNote [] dev (.retire owner exts unbound)

/-- A module commit takes its place behind those that wait (R275). -/
def State.queueCommit (s : State) (g : BarFor) (is : List Nat) (sets : List (Nat × Nat × Option Region)) : State :=
  { s with sec.waiting := s.sec.waiting ++ [{ goal := g, sets := sets, insts := is, cells := (sets.map (·.1)).dedup }] }
/-- The entries whose pool range touches an extent of a list, each cleared whole (R276). -/
def State.touching (s : State) (exts : List Nat) : List (Nat × Nat × Option Region) :=
  (s.sec.region.filter (fun (e : Nat × Region) => e.2.extents.any (fun x => exts.contains x))).map (fun (e : Nat × Region) => (e.1 / 1024, e.1 % 1024, none))
/-- Extents leave their owner: every entry that touches them is invalidated first, whoever wrote it (R262, R276). -/
def State.retire (s : State) (owner : Nat) (exts : List Nat) (unbound : Option Bool) : State :=
  let l := s.sec.region.filter (fun (e : Nat × Region) => e.2.extents.any (fun x => exts.contains x))
  if l.isEmpty then s.retireNow owner exts unbound
  else s.queueCommit (.retire owner exts unbound) ((l.map (fun (e : Nat × Region) => e.2.inst.val)).dedup) (s.touching exts)

/-! ### Scrubs (R257) -/

/-- An extent is assigned to an owner: its maps name the owner and its key, and Brine scrubs it. -/
def State.assignExt (s : State) (owner e : Nat) : State :=
  let o := s.owner owner
  let x := { s.extNow e with owner := Fin.ofNat 4096 owner, group := owner ≥ 4096 }
  let dev := x.sides.filterMap (fun (c : Cell) => (s.devEnt c e).map (fun d => (c.val, e, some { d with key := o.key.map (Fin.ofNat 8192) })))
  let d := dieOf x.mcell
  let s := s.setOwner owner { o with exts := if o.exts.contains e then o.exts else o.exts ++ [e] }
  let s := ((s.sendNote [(e, x)] dev .none).setLife e 3).inc (F.INST_ENG_STATUS_BRINE_EXT d)
  { s with pool.scrub := mput s.pool.scrub e { die := d, owner := owner % 4096, group := owner ≥ 4096 } }.capUpdate owner
/-- An owner offers extents to the hosts of its bound members, each by one DC Add Capacity event (R235, R268). -/
def State.offerExts (s : State) (owner : Nat) (es : List Nat) : State :=
  let o := s.owner owner
  let ms := (if owner ≥ 4096 then o.members else [owner]).filter (fun i => s.instSt i == 3)
  if ms.isEmpty ∨ es.isEmpty then s
  else
    let s := s.setOwner owner { o with offered := o.offered ++ es.filter (fun e => !o.offered.contains e) }
    ms.foldl (fun (s : State) i =>
      ({ s with pool.dcOpen := mmod [] s.pool.dcOpen i (fun l => l ++ [(owner, es)]) }.emit (.dcAdd i es)).capUpdate i) s
/-- Every scrubbed extent of an owner is offered to one bound member by one event, also what other members have accepted (R235). -/
def State.offerTo (s : State) (i owner : Nat) : State :=
  let es := (s.owner owner).exts.filter (fun e => s.lifeOf e == 1)
  if es.isEmpty then s
  else
    let o := s.owner owner
    let s := s.setOwner owner { o with offered := o.offered ++ es.filter (fun e => !o.offered.contains e && !o.accepted.contains e) }
    ({ s with pool.dcOpen := mmod [] s.pool.dcOpen i (fun l => l ++ [(owner, es)]) }.emit (.dcAdd i es)).capUpdate i
/-- The extents of an owner that are scrubbed and that its hosts have not accepted. -/
def State.offerReady (s : State) (owner : Nat) : State :=
  s.offerExts owner
    ((s.owner owner).exts.filter (fun e => s.lifeOf e == 1 && !(s.owner owner).offered.contains e && !(s.owner owner).accepted.contains e))
/-- Every side of an extent being scrubbed holds its owner's key, which has been made. -/
def State.scrubKeyed (s : State) (owner e : Nat) : Bool :=
  match (s.owner owner).key with
  | none => false
  | some k => !(s.keyRec k).making && (s.extNow e).sides.all (fun (c : Cell) => ((s.devEnt c e).bind (·.key)).map (·.val) == some k)
/-- BRINE_COMPLETE: the extent is OWNED and offered; one whose side is LOST never is (R258). -/
def State.scrubDone (s : State) (e : Nat) : State :=
  match mget s.pool.scrub e with
  | none => s
  | some b =>
    let owner := b.owner + (if b.group then 4096 else 0)
    if (s.extNow e).sides.isEmpty ∨ !s.scrubKeyed owner e then s
    else
      let key := (s.owner owner).key.getD 8191
      let s := (s.extNow e).sides.foldl (fun (s : State) (c : Cell) => match s.devEnt c e with
        | some d => s.emit (.expZero c (d.dev.val * 2 ^ 30) key)
        | none => s) s
      let s := { s with pool.scrub := mdel s.pool.scrub e }.dec (F.INST_ENG_STATUS_BRINE_EXT b.die)
      ((s.setLife e 1).offerExts owner [e]).capUpdate owner

/-! ### Removal of instances and their extents -/

/-- Takes extents off an owner's lists. -/
def State.dropExts (s : State) (owner : Nat) (exts : List Nat) : State :=
  let o := s.owner owner
  let f := fun (l : List Nat) => l.filter (fun e => !exts.contains e)
  (s.setOwner owner { o with exts := f o.exts, offered := f o.offered, accepted := f o.accepted }).capUpdate owner
/-- A vPPB is empty again, and the decoders of the device that it held are gone. -/
def State.freeVppb (s : State) (a v : Nat) : State :=
  let i := s.rd (F.INST_VPPB_TARGET a v)
  let gone (h : Hdm) : Bool := match s.rd (F.INST_VPPB_KIND a v), h.dev with
    | 1, none => h.inst.val == i
    | 2, some e => e.val == i % 128
    | _, _ => false
  let s := { s with pool.hdm := mmod [] s.pool.hdm a (fun (l : List Hdm) => l.filter (fun (h : Hdm) => !gone h)) }
  let s := ((s.wr (F.INST_VPPB_KIND a v) 0).wr (F.INST_VPPB_STATE a v) 0).wr (F.INST_VPPB_TARGET a v) 0
  s.wr (F.INST_PORT_STATUS_BOUND a) (s.boundVppbs a).length
/-- A record becomes FREE: its fields and counts go back to zero (R236, R481). -/
def State.freeInst (s : State) (i : Nat) : State :=
  let s := s.setReg (F.INST_INFO_at i) (regReset (F.INST_INFO_at i))
  let s := s.setReg (F.INST_CAP_at i) 0
  let s := (s.setReg (F.INST_SHARE0_at i) (regReset (F.INST_SHARE0_at i))).setReg (F.INST_SHARE1_at i) (regReset (F.INST_SHARE1_at i))
  let s := s.setReg (F.INST_USE_at i) 0
  { s with
    pool.own := mdel s.pool.own i, pool.mapCache := mdel s.pool.mapCache i, pool.migs := mdel s.pool.migs i,
    pool.dcOpen := mdel s.pool.dcOpen i, pool.dcGiving := mdel s.pool.dcGiving i
    pool.credMin := mdel s.pool.credMin i, pool.credMax := mdel s.pool.credMax i,
    ctr.inst := mkeep (fun k _ => k / 8 != i) s.ctr.inst, img.ctrPerm := mdel s.img.ctrPerm i }
/-- An owner without a key slot takes one, and its extents are scrubbed under it; none where no key can be made (R281, R282). -/
def State.giveKey (s : State) (i : Nat) : Option State :=
  if (s.owner i).key.isSome then some s
  else match s.allocSlot (i % 4096) (i ≥ 4096) with
    | (some k, s) => some ((s.owner i).exts.foldl (fun (s : State) e => s.assignExt i e) (s.setOwner i { s.owner i with key := some k }))
    | (none, _) => none
/-- The binding of an instance ends: the record stays DEFINED with its capacity scrubbed again under a new key, or it is
FREE (R236). -/
def State.unbound (s : State) (i : Nat) (keep : Bool) : State :=
  let s := { s with pool.dcOpen := mdel s.pool.dcOpen i, pool.dcGiving := mdel s.pool.dcGiving i, pool.cut := s.pool.cut.filter (· != i) }
  let s := (s.wr (F.INST_BIND_BUSY i) 0).freeVppb (s.rd (F.INST_INFO_HOST_PORT i)) (s.rd (F.INST_INFO_VPPB i))
  if keep then
    let s := ((s.wr (F.INST_INFO_STATE i) 1).wr (F.INST_INFO_HOST_PORT i) 0).wr (F.INST_INFO_VPPB i) 0
    let s := s.setOwner i { s.owner i with key := none, offered := [], accepted := [] }
    (s.giveKey i).getD (s.noKeyFor i)
  else
    let g := s.rd (F.INST_INFO_GROUP i)
    let s := if s.rdb (F.INST_INFO_GROUPED i) then
        s.setOwner (4096 + g) { s.owner (4096 + g) with members := (s.owner (4096 + g)).members.filter (· != i) } else s
    s.freeInst i

/-! ### Recall sweeps (R251) -/

/-- Line number n of a list of extents. -/
def sweepLine (exts : List Nat) (n : Nat) : Option Nat := (exts[n / 2 ^ 24]?).map (fun e => e * 2 ^ 24 + n % 2 ^ 24)
/-- An engine sends its next RECALL, unless it has 2,048 open (R259). -/
def State.sweepSend (s : State) (w : Sweep) (g : SweepEng) : State × SweepEng :=
  match (if s.rd (F.INST_ENG_STATUS_RECALL_OPEN g.die) < 2048 then sweepLine w.exts g.next else none) with
  | none => (s, { g with line := none })
  | some l =>
    let c := ctrlCell g.die
    let s := s.send { opc := .recall, src := c, dst := s.homeOf (Cell.of (s.rd (F.INST_INFO_HOST_PORT w.inst))) l, tagCell := c,
                      tagSlot := 0x3FF, inst := Fin.ofNat 4096 w.inst, priv := true, addr := BitVec.ofNat 52 (l * 64), tc := 6,
                      hslot := w.only.getD 0x7F }
    (s.inc (F.INST_ENG_STATUS_RECALL_OPEN g.die), { g with line := some l, next := g.next + w.engs.length })
/-- An engine's share of a sweep is done. -/
def Sweep.engDone (w : Sweep) (g : SweepEng) : Bool := g.line.isNone && (sweepLine w.exts g.next).isNone
/-- The first sweep that an engine keeps waiting sends its RECALL. -/
def State.sweepWake (s : State) (d : Nat) : State :=
  match s.pool.sweeps.find? (fun (w : Sweep) => w.engs.any (fun g => g.die == d && g.line.isNone && !w.engDone g)) with
  | none => s
  | some w =>
    match w.engs.find? (fun g => g.die == d && g.line.isNone && !w.engDone g) with
    | none => s
    | some g =>
      let (s, g') := s.sweepSend w g
      let w' := { w with engs := w.engs.map (fun (x : SweepEng) => if x = g then g' else x) }
      { s with pool.sweeps := s.pool.sweeps.map (fun (x : Sweep) => if x = w then w' else x) }
/-- Whole extents a sweep has still to reach. -/
def Sweep.leftGib (w : Sweep) : Nat :=
  w.exts.length - (w.engs.foldl (fun m (g : SweepEng) => min m g.next) (w.exts.length * 2 ^ 24)) / 2 ^ 24

end Sys2Proof.Machine
end

