-- ==== Sys2Proof/Machine/PressOps.lean ====
section
/-! DEFINITION. What ends an operation of Press (spec/08 R254, R256): its status registers, the remap, and aborts. -/

namespace Sys2Proof.Machine
open Host

/-- An extent is in another Press operation or being scrubbed. -/
def State.extBusy (s : State) (e : Nat) : Bool :=
  s.pool.press.any (fun (o : Nat × PressOp) => o.2.parts.any (fun (q : Nat × PressPart) => q.2.ext == e && !q.2.fin))
    || (mget s.pool.scrub e).isSome
/-- The status registers of an operation. -/
def State.pressShow (s : State) (d : Nat) (o : PressOp) : State :=
  let s := o.parts.foldl (fun (s : State) q => s.wr (F.INST_PRESS_STATUS_PART d q.1) q.2.code) s
  s.wr (F.INST_ENG_STATUS_PRESS_ACTIVE d) (o.parts.foldl (fun n q => if q.2.ended then n else n ||| 2 ^ q.1) 0)
/-- An operation of a die ends. -/
def State.pressEnd (s : State) (d : Nat) : State :=
  ({ s with pool.press := mdel s.pool.press d }.wr (F.INST_PRESS_OP_BUSY d) 0).wr (F.INST_ENG_STATUS_PRESS_ACTIVE d) 0 |>.startWalkers
/-- A stack in service has a directory copy that is not whole, and its partner can be the source (R213). -/
def State.copyNeeded (s : State) (k : Nat) : Bool :=
  let d := stackDie k
  !s.stackFenced k && !s.stackFenced ((k + 2) % 4)
    && (s.rd (F.DIR_STACK_STATUS_PRI_STATE d) ≥ 2 || s.rd (F.DIR_STACK_STATUS_MIR_STATE d) ≥ 2)
/-- Re-silvering is complete: the mode leaves REBUILD (Table 1-9, R215, R231). -/
def State.rebuildEnd (s : State) : State :=
  let busy := (List.range 4).any (fun k => s.copyNeeded k) || s.pool.press.any (fun (o : Nat × PressOp) => o.2.resilver)
    || (List.range 8).any (fun d => s.rdb (F.DIR_REBUILD_STATUS_ACTIVE d))
  if s.mode = .rebuild ∧ !busy then
    if s.scrim.fence = {} then s.goMode .service 0x0C else s.goMode .degraded 0x0C
  else s
/-- The destination side of a part, as its cell's device map has it. -/
def PressPart.destEnt (q : PressPart) (key : Option KeySlot) (side : Fin 2) : DevEnt :=
  { side := side, key := key, dev := Fin.ofNat 4096 q.destExt }
/-- A part has copied its extent. -/
def PressPart.copied (q : PressPart) : Bool := q.ended && (q.code == 1 || q.code == 2)
/-- Device map entries that the end of a part clears: those of a destination that it was given. -/
def PressPart.freed (q : PressPart) : List (Nat × Nat × Option DevEnt) := if q.fin then [] else [(q.destCell, q.ext, none)]
/-- A RESILVER operation with its last part complete ends. -/
def State.silverEnd (s : State) (d : Nat) (o : PressOp) : State :=
  let s := { s with pool.press := mput s.pool.press d o }.pressShow d o
  if o.parts.all (fun q => q.2.fin) then (s.pressEnd d).rebuildEnd else s
/-- The parts of a RESILVER that have ended are remapped, each on its own: one that is copied makes its extent MIRRORED, any other leaves it
SINGLE and its destination free (R254). -/
def State.silverCheck (s : State) (d : Nat) (o : PressOp) : State :=
  let due := o.parts.filter (fun (q : Nat × PressPart) => q.2.ended && !q.2.sent)
  let o := { o with parts := o.parts.map (fun (q : Nat × PressPart) => (q.1, { q.2 with sent := q.2.ended, fin := q.2.fin || (q.2.ended && !q.2.copied) })) }
  let s := due.foldl (fun (s : State) q =>
    let x := s.extNow q.2.ext
    if q.2.copied then s.sendNote [(q.2.ext, { x with st := .mirrored, mcell2 := Cell.of q.2.destCell, moving := false })] [] (.silvered q.2.ext)
    else (s.sendNote (if x.st = .lost then [] else [(q.2.ext, { x with st := .single, mcell2 := 0, moving := false })]) q.2.freed .none).releaseHeld q.2.ext) s
  s.silverEnd d o
/-- Every part of a MOVE has ended: with all of them copied the remap note goes out; otherwise none is remapped, MOVING
is cleared and the destinations are free (R254). -/
def State.moveCheck (s : State) (d : Nat) (o : PressOp) : State :=
  let s := s.pressShow d o
  if o.remap ∨ !o.parts.all (fun q => q.2.ended) then s
  else if o.parts.all (fun q => q.2.copied) then
    let home := o.parts.map (fun (q : Nat × PressPart) =>
      let x := { s.extNow q.2.ext with moving := false }
      let c := Cell.of q.2.destCell
      (q.2.ext, if q.2.mirrorSide then { x with mcell2 := c } else { x with mcell := c }))
    { s with pool.press := mput s.pool.press d { o with remap := true } }.sendNote home [] (.remap d)
  else
    let home := o.parts.map (fun (q : Nat × PressPart) => (q.2.ext, { s.extNow q.2.ext with moving := false }))
    let s := s.sendNote home (o.parts.flatMap (fun q => q.2.freed)) .none
    (o.parts.foldl (fun (s : State) q => s.releaseHeld q.2.ext) s).pressEnd d
/-- What follows when parts of the operation of a die have ended. -/
def State.pressCheck (s : State) (d : Nat) : State :=
  match mget s.pool.press d with
  | none => s
  | some o => if o.resilver then s.silverCheck d o else s.moveCheck d o
/-- A running MOVE is aborted: each of its parts that runs, and each part of `es` whether it runs or has been copied, ends with code 5, so
that no part is remapped (R254, R256). One whose remap note has gone out ends as it would. -/
def State.abortMoveOf (s : State) (d : Nat) (es : List Nat) : State :=
  match mget s.pool.press d with
  | some o => if o.resilver ∨ o.remap then s
      else { s with
        pool.press := mput s.pool.press d
          { o with parts := o.parts.map (fun (q : Nat × PressPart) =>
              (q.1, if q.2.ended && !es.contains q.2.ext then q.2 else { q.2 with code := 5, ended := true })) } }.pressCheck d
  | none => s
/-- PRESS_ABORT: the running MOVE ends with code 5. -/
def State.abortMove (s : State) (d : Nat) : State := s.abortMoveOf d []
/-- A release, unbind or migration that names an extent in a running MOVE aborts the MOVE (R256). -/
def State.abortMoves (s : State) (es : List Nat) : State :=
  (List.range 8).foldl (fun (s : State) d =>
    match mget s.pool.press d with
    | some o => if o.parts.any (fun (q : Nat × PressPart) => es.contains q.2.ext) then s.abortMoveOf d es else s
    | none => s) s

end Sys2Proof.Machine
end

