-- ==== Sys2Proof/Machine/Inst.lean ====
section
/-! DEFINITION. Binding, capacity and migration (spec/08 R218 to R251): the module's own region commits and what follows
each, recall sweeps, BIND and UNBIND, Dynamic Capacity, the FM API, and the steps of a migration. -/

namespace Sys2Proof.Machine
open Host

/-! ### Sweeps and what follows them -/

/-- A migration ends (Table 8-17): result, downtime already shown. -/
def State.migEnd (s : State) (i step result : Nat) : State :=
  let s := ((s.wr (F.INST_MIG_STATUS_STEP i) step).wr (F.INST_MIG_STATUS_RESULT i) result).wr (F.INST_MIG_BUSY i) 0
  { s.wr (F.INST_INFO_MIGRATING i) 0 with pool.migs := mdel s.pool.migs i }
/-- Entries at the lowest free numbers of a cell. -/
def State.placeSets (s : State) (c : Nat) (l : List Region) : List (Nat × Nat × Option Region) :=
  let used := (s.regions c).map (·.1)
  let free := (List.range 1024).filter (fun n => !used.contains n)
  (l.zip free).map (fun x => (c, x.2, some x.1))
/-- The entries that bind an instance's regions in a cell: its record's. -/
def State.installSets (s : State) (c i : Nat) : List (Nat × Nat × Option Region) := s.placeSets c (s.owner i).regions
/-- The cells that hold the region entries of instances bound at an anchor: the anchor, and the DEVICE cells bound in its
virtual switch (R266). -/
def State.regionCells (s : State) (a : Nat) : List Nat :=
  a :: ((List.range 64).filter (fun v => s.rd (F.INST_VPPB_KIND a v) = 2)).map (fun v => s.rd (F.INST_VPPB_TARGET a v) % 128)
/-- Every entry of an instance in the cells of an anchor, cleared. -/
def State.removeSets (s : State) (a i : Nat) : List (Nat × Nat × Option Region) :=
  (s.regionCells a).flatMap (fun c => ((s.regions c).filter (fun (e : Nat × Region) => e.2.inst.val == i)).map (fun e => (c, e.1, none)))
/-- The sharing group of which an instance is the last member, as an owner (R236, R285). -/
def State.lastGroup (s : State) (i : Nat) : Option Nat :=
  let g := 4096 + s.rd (F.INST_INFO_GROUP i)
  if s.rdb (F.INST_INFO_GROUPED i) ∧ (s.owner g).members.all (· == i) then some g else none
/-- The extents of an instance's capacity: its own, and those its sharing group holds (R222). -/
def State.capExts (s : State) (i : Nat) : List Nat :=
  (s.owner i).exts ++ (s.ownerKey i 1).elim [] (fun g => (s.owner g).exts)
/-- The sweep's last RCMP has arrived (R251): unbind and release go on to the keys, a REMOTE migration to its save, a LOCAL
one has drained its source. -/
def State.sweepDone (s : State) (w : Sweep) : State :=
  match w.goal with
  | .unbind i keep =>
    let s := if keep then s else match s.lastGroup i with
      | some g => s.retire g (s.owner g).exts none
      | none => s
    s.retire i (s.owner i).exts (some keep)
  | .release i => s.retire i w.exts none
  | .migRecall i => if (mget s.pool.migs i).isSome ∧ s.instSt i = 6 then
      (s.wr (F.INST_MIG_STATUS_RECALL_LEFT_GIB i) 0).wr (F.INST_MIG_STATUS_STEP i) 4 else s
  | .migDrain i =>
    let s := s.wr (F.INST_MIG_STATUS_RECALL_LEFT_GIB i) 0
    match mget s.pool.migs i with
    | some m =>
      let sets := s.removeSets m.srcPort i
      let s := ((s.emit (.removal (Cell.of m.srcPort) m.srcVppb 1)).freeVppb m.srcPort m.srcVppb).migEnd i 9 1
      if sets.isEmpty then s else s.queueCommit (.srcGone i) [i] sets
    | none => s
/-- Starts a sweep; with no line to recall it is complete at once. -/
def State.startSweep (s : State) (goal : SweepFor) (i : Nat) (exts : List Nat) (only : Option HSlot) : State :=
  let dies := (List.range 8).filter (fun d => !s.dieFenced d)
  let w : Sweep := { goal := goal, inst := i, exts := exts, only := only, since := s.cyc, engs := dies.mapIdx (fun k d => ⟨d, k, none⟩) }
  if exts.isEmpty ∨ dies.isEmpty then s.sweepDone w
  else
    let (s, gs) := w.engs.foldl (fun (x : State × List SweepEng) g =>
      let (s, g) := x.1.sweepSend w g
      (s, x.2 ++ [g])) (s, [])
    { s with pool.sweeps := s.pool.sweeps ++ [{ w with engs := gs }] }
/-- A sweep has taken longer than 12 ms per GiB. -/
def State.slowSweep (s : State) (w : Sweep) : Bool := decide (w.exts.length * 36000000 < s.cyc - w.since)
/-- The engine state of a sweep takes the place of its former one. -/
def Sweep.put (w : Sweep) (g g' : SweepEng) : Sweep :=
  { w with engs := w.engs.map (fun (x : SweepEng) => if x.die = g.die ∧ x.line = g.line then g' else x) }
/-- The last line of a sweep has come back: it ends, and a late one is logged (R251, R46). -/
def State.sweepEnd (s : State) (w w' : Sweep) (die : Nat) : State :=
  let s := { s with pool.sweeps := s.pool.sweeps.filter (fun x => x != w) }
  ((if s.slowSweep w then s.logYield 5 6 none 0xFFFF 0x0110 die else s).sweepDone w').sweepWake die
/-- A sweep goes on; the GiB left shows for a migration (R251, R260). -/
def State.sweepOn (s : State) (w w' : Sweep) (g' : SweepEng) (die : Nat) : State :=
  let s := { s with pool.sweeps := s.pool.sweeps.map (fun (x : Sweep) => if x = w then w' else x) }
  let s := if w'.engDone g' then s.sweepWake die else s
  match w.goal with
  | .migRecall i => s.wr (F.INST_MIG_STATUS_RECALL_LEFT_GIB i) w'.leftGib
  | .migDrain i => s.wr (F.INST_MIG_STATUS_RECALL_LEFT_GIB i) w'.leftGib
  | _ => s
/-- A line of a sweep has come back: the engine sends its next (R251). -/
def State.sweepStep (s : State) (w : Sweep) (g : SweepEng) : State :=
  let r := (s.dec (F.INST_ENG_STATUS_RECALL_OPEN g.die)).sweepSend w g
  let w' := w.put g r.2
  if w'.engs.all (fun x => w'.engDone x) then r.1.sweepEnd w w' g.die else r.1.sweepOn w w' r.2 g.die
/-! ### Module commits (R275) -/

/-- The instances whose hosts see an owner's capacity: itself, or the bound members of a group. -/
def State.hostsOf (s : State) (o : Nat) : List Nat := if o ≥ 4096 then (s.owner o).members.filter (fun i => s.instSt i == 3) else [o]
/-- What follows a region change that is in place. -/
def State.barDone (s : State) (g : BarFor) : State :=
  match g with
  | .epoch => s
  | .bind i =>
    let a := s.rd (F.INST_INFO_HOST_PORT i)
    let v := s.rd (F.INST_INFO_VPPB i)
    let s := ((s.emit (.hotAdd (Cell.of a) v)).wr (F.INST_VPPB_STATE a v) 2).wr (F.INST_INFO_STATE i) 3
    let s := s.wr (F.INST_BIND_BUSY i) 0
    let s := s.offerReady i
    if s.rdb (F.INST_INFO_GROUPED i) then s.offerTo i (4096 + s.rd (F.INST_INFO_GROUP i)) else s
  | .unbind i keep =>
    -- from here on every request to the instance is a region miss (R236)
    let s := { s with pool.cut := if s.pool.cut.contains i then s.pool.cut else s.pool.cut ++ [i] }
    s.startSweep (.unbind i keep) i (s.capExts i) none
  | .restore i => match mget s.pool.migs i with
    | some m => { s with pool.migs := mput s.pool.migs i { m with ready := true } }
    | none => s
  | .srcGone _ => s
  | .retire o exts un => s.retireNow o exts un
  | .release o exts force =>
    let ms := s.hostsOf o
    let s := ms.foldl (fun (s : State) i =>
      (s.setOwner i { s.owner i with regions := (s.owner i).regions.filter (fun r => !r.extents.any (fun x => exts.contains x)) }).emit
        (.dcRelease i exts force)) s
    if force ∨ ms.isEmpty then s.startSweep (.release o) (ms.headD (o % 4096)) exts none
    else ms.foldl (fun (s : State) i =>
      { s with pool.dcGiving := mmod [] s.pool.dcGiving i (fun l => l ++ exts.filter (fun e => !l.contains e)) }) s
/-- An operation of a migration that does not complete (Table 8-9): the target vPPB is unbound with a removal (simulated managed: DESIGN CHOICE,
log 142), its region entries go by a module commit, and the instance returns to its state before the operation. A blob that was not restored can
be restored later. -/
def State.migBack (s : State) (i result : Nat) : State :=
  match mget s.pool.migs i with
  | none => s
  | some m =>
    let here := decide (m.tModule = s.chainAddr) && (!m.save || decide (m.srcPort ≥ 128))
    let sets := if here ∧ m.ready then s.removeSets m.tPort i else []
    let s := if here then
        (if s.cellFenced (Cell.of m.tPort) then s else s.emit (.removal (Cell.of m.tPort) m.tVppb 1)).freeVppb m.tPort m.tVppb
      else s
    let s := if sets.isEmpty then s else s.queueCommit (.srcGone i) [i] sets
    let s := if m.srcPort ≥ 128 then match mget s.pool.blobs i with
        | some b => { s with pool.restored := s.pool.restored.filter (· != (b.srcModule, b.seq)) }
        | none => s
      else s
    { (s.wr (F.INST_INFO_STATE i) m.back).migEnd i 0 result with onl.tx := mdel s.onl.tx i }
/-- What follows a refused one (R275): the operation ends with REFUSED, as if it had not begun. -/
def State.barRefused (s : State) (g : BarFor) : State :=
  match g with
  | .bind i =>
    let s := s.freeVppb (s.rd (F.INST_INFO_HOST_PORT i)) (s.rd (F.INST_INFO_VPPB i))
    let s := ((s.wr (F.INST_INFO_STATE i) 1).wr (F.INST_INFO_HOST_PORT i) 0).wr (F.INST_INFO_VPPB i) 0
    (s.wr (F.INST_BIND_BUSY i) 0).flag (F.INST_BIND_REFUSED i)
  | .unbind i _ => ((s.wr (F.INST_INFO_STATE i) 3).wr (F.INST_BIND_BUSY i) 0).flag (F.INST_BIND_REFUSED i)
  | .restore i => match mget s.pool.migs i with
    | some _ => (s.flag (F.INST_MIG_REFUSED i)).migBack i 4
    | none => s
  -- a release is judged as a write of INST_BIND (log 16)
  | .release o _ _ => s.flag (F.INST_BIND_REFUSED ((s.hostsOf o).headD (o % 4096)))
  | _ => s
/-- A cell whose table has no room for the entries that a change installs (rule 5 of R276). -/
def State.tableFull (s : State) (g : BarFor) : Option Nat :=
  let full (a i : Nat) : Option Nat := (s.regionCells a).find? (fun c => 1024 < (s.regions c).length + (s.owner i).regions.length)
  match g with
  | .bind i => full (s.rd (F.INST_INFO_HOST_PORT i)) i
  | .restore i => (mget s.pool.migs i).bind (fun m => full m.tPort i)
  | _ => none
/-- The entries that a module commit changes, as its turn comes: what it clears is what is there then, and what it sets takes the lowest numbers
that are free then. -/
def State.commitSets (s : State) (b : Barrier) : List (Nat × Nat × Option Region) :=
  match b.goal with
  | .bind i => (s.regionCells (s.rd (F.INST_INFO_HOST_PORT i))).flatMap (fun c => s.installSets c i)
  | .restore i => ((mget s.pool.migs i).map (fun m => (s.regionCells m.tPort).flatMap (fun c => s.installSets c i))).getD []
  | .unbind i _ => s.removeSets (s.rd (F.INST_INFO_HOST_PORT i)) i
  | .retire _ exts _ => s.touching exts
  | _ =>
    b.cells.flatMap (fun c => s.placeSets c (b.sets.filterMap (fun x => if x.1 = c then x.2.2 else none)))
      ++ b.sets.filter (fun x => x.2.2.isNone && (mget s.sec.region (x.1 * 1024 + x.2.1)).any (fun r => b.insts.contains r.inst.val))
/-- A module commit is refused: its operation ends, with the record of KIND 2 (R275). -/
def State.refuseCommit (s : State) (g : BarFor) (reason c n regs : Nat) : State :=
  (s.logCommit 2 1 reason (some (Cell.of c)) (F.PROT_REGION_at c n 0) 0 regs).barRefused g
/-- A module commit has its turn (R275): it is judged by the rules of R276, and goes to its barrier or is refused. One that changes nothing is in
place at once; one that only clears entries breaks no rule. -/
def State.runCommit (s : State) (b : Barrier) : State :=
  let sets := s.commitSets b
  let b := { b with sets := sets, cells := (sets.map (·.1)).dedup }
  match s.tableFull b.goal with
  | some c => s.refuseCommit b.goal 6 c 0 (4 * sets.length)
  | none =>
    if sets.isEmpty then s.barDone b.goal
    else if sets.all (fun x => x.2.2.isNone) then s.startBarrier b
    else match s.regionFault (s.regionsWith sets) with
      | some (r, a, _) => s.refuseCommit b.goal r a.1 a.2 (4 * sets.length)
      | none => s.startBarrier b
/-- The module commit that waits longest takes its turn, unless another or an epoch that came before it runs (R275). -/
def State.commitTurn (s : State) : State :=
  match s.sec.waiting with
  | [] => s
  | b :: t =>
    if s.sec.barrier.isSome then s
    else match s.mgr.epoch with
      | none => { s with sec.waiting := t }.runCommit b
      | some e => if e.after = 0 then s
          else { s with sec.waiting := t, mgr.epoch := some { e with after := e.after - 1 } }.runCommit b
/-- The module commits that can run now take their turns. -/
def State.nextCommit (s : State) : State := (List.range (2 * s.sec.waiting.length + 2)).foldl (fun (s : State) _ => s.commitTurn) s
/-- A module commit: it takes its place, and its turn if none is before it; a change of no entry, with room for it, is in place at once. -/
def State.regionCommit (s : State) (g : BarFor) (is : List Nat) (sets : List (Nat × Nat × Option Region)) : State :=
  if sets.isEmpty && (s.tableFull g).isNone then s.barDone g else (s.queueCommit g is sets).nextCommit

/-- RCMP (R251) at the engine of cell p.dst: its next line, or with the last one the end of the sweep. -/
def execRcmp (p : Pkt) (s : State) : Outcome State Fault Refusal :=
  .next <|
    let p := { p with opc := Opc.rcmp }
    s.arrive p fun s =>
      let hit (g : SweepEng) : Bool := ctrlCell g.die == p.dst && g.line == some p.line
      match s.pool.sweeps.find? (fun w => w.engs.any hit) with
      | none => s
      | some w =>
        match w.engs.find? hit with
        | none => s
        | some g => (s.sweepStep w g).nextCommit
/-- The device of a vPPB is unbound: its cell's copies of the entries of the virtual switch go (R266). -/
def State.unbindDev (s : State) (a v : Nat) : State :=
  let c := s.rd (F.INST_VPPB_TARGET a v) % 128
  let l := s.regions c
  let is := (l.map (fun (e : Nat × Region) => e.2.inst.val)).dedup
  (s.freeVppb a v).regionCommit (.srcGone (is.headD 0)) is (l.map (fun (e : Nat × Region) => (c, e.1, none)))

/-! ### BIND and UNBIND (R235, R236) -/

/-- Two cells lie in one coherence domain (R38). -/
def State.sameDomain (s : State) (a b : Nat) : Bool := (domainDies (s.topo (Cell.of a)) (a / 16)).contains (b / 16)
/-- The host ports of the other members of an instance's sharing group that have one lie in one domain with a port (R38). -/
def State.groupDomainOk (s : State) (i port : Nat) : Bool :=
  !s.rdb (F.INST_INFO_GROUPED i) || (List.range 4096).all (fun j =>
    j == i || !s.rdb (F.INST_INFO_GROUPED j) || s.rd (F.INST_INFO_GROUP j) != s.rd (F.INST_INFO_GROUP i)
      || s.instSt j < 2 || s.instSt j == 7 || s.sameDomain port (s.rd (F.INST_INFO_HOST_PORT j)))

/-- BIND. A member of a sharing group is not bound outside its group's domain (R38; DESIGN CHOICE, log 117: REFUSED). -/
def State.bindOp (s : State) (i : Nat) (port v : Nat) : State :=
  if s.rdb (F.INST_BIND_BUSY i) then s
  else if s.instSt i ≠ 1 ∨ s.roleOf (Cell.of port) ≠ .host ∨ (s.anchorOf (Cell.of port)).val ≠ port ∨ s.rd (F.INST_VPPB_KIND port v) ≠ 0
      ∨ (s.boundVppbs port).length ≥ 64 ∨ !s.groupDomainOk i port then s.flag (F.INST_BIND_REFUSED i)
  else match s.giveKey i with
  | none => (s.noKeyFor i).flag (F.INST_BIND_REFUSED i)
  | some s =>
    let s := ((s.wr (F.INST_INFO_STATE i) 2).wr (F.INST_INFO_HOST_PORT i) port).wr (F.INST_INFO_VPPB i) v
    let s := ((s.wr (F.INST_VPPB_KIND port v) 1).wr (F.INST_VPPB_STATE port v) 1).wr (F.INST_VPPB_TARGET port v) i
    let s := (s.wr (F.INST_PORT_STATUS_BOUND port) (s.boundVppbs port).length).wr (F.INST_BIND_BUSY i) 1
    s.regionCommit (.bind i) [i] ((s.regionCells port).flatMap (fun c => s.installSets c i))
def State.unbindOp (s : State) (i mode : Nat) (keep : Bool) : State :=
  if s.rdb (F.INST_BIND_BUSY i) then s
  else if s.instSt i ≠ 3 ∧ s.instSt i ≠ 9 then s.flag (F.INST_BIND_REFUSED i)
  else
    let a := s.rd (F.INST_INFO_HOST_PORT i)
    let v := s.rd (F.INST_INFO_VPPB i)
    let m := if mode = 3 then 0 else mode
    let wait := m = 0 ∧ s.instSt i = 3
    let gone := if keep then [] else ((s.lastGroup i).map (fun g => (s.owner g).exts)).getD []
    let s := (s.abortMoves ((s.owner i).exts ++ gone)).emit (.removal (Cell.of a) v m)
    let s := ((s.wr (F.INST_INFO_STATE i) 8).wr (F.INST_VPPB_STATE a v) 3).wr (F.INST_BIND_BUSY i) 1
    if wait then { s with pool.slotWait := mput s.pool.slotWait (a * 64 + v) (some (i, keep)) }
    else s.regionCommit (.unbind i keep) [i] (s.removeSets a i)
/-- The host has disabled the slot of a managed removal, or its link is gone: the removal goes on (R220). -/
def State.slotOff (s : State) (a v : Nat) : State :=
  match mget s.pool.slotWait (a * 64 + v) with
  | none => s
  | some w =>
    let s := { s with pool.slotWait := mdel s.pool.slotWait (a * 64 + v) }
    match w with
    | some (i, keep) => s.regionCommit (.unbind i keep) [i] (s.removeSets a i)
    | none => s.unbindDev a v
/-- BIND by the manager: GO with OP 1 in INST_BIND. -/
def execBind (src : Src) (i : Inst) (s : State) : Outcome State Fault Refusal :=
  .next (s.ifMay src (F.INST_BIND_GO i) 1 fun s => s.bindOp i (s.rd (F.INST_BIND_PORT i)) (s.rd (F.INST_BIND_VPPB i)))
def execUnbindKeep (src : Src) (i : Inst) (s : State) : Outcome State Fault Refusal :=
  .next (s.ifMay src (F.INST_BIND_GO i) 1 fun s => s.unbindOp i (s.rd (F.INST_BIND_MODE i)) true)
def execUnbindRelease (src : Src) (i : Inst) (s : State) : Outcome State Fault Refusal :=
  .next (s.ifMay src (F.INST_BIND_GO i) 1 fun s => s.unbindOp i (s.rd (F.INST_BIND_MODE i)) false)

/-! ### Definition and capacity (R233, R235, R237) -/

/-- A record defined from a template (R233), with its key slot: shares and permissions. -/
def State.defineWith (s : State) (i t : Nat) (m : Tmpl) (k : Nat) : State :=
  let s := (s.wr (F.INST_INFO_STATE i) 1).wr (F.INST_INFO_TEMPLATE i) t
  let s := ((s.wr (F.INST_SHARE0_SLOT_MIN i) m.slotMin).wr (F.INST_SHARE0_SLOT_MAX i) m.slotMax).wr (F.INST_SHARE0_HOLD_MAX i) m.holdMax
  let s := (s.wr (F.INST_SHARE1_BW_MIN i) m.bwMin).wr (F.INST_SHARE1_BW_MAX i) m.bwMax
  let s := s.wr (F.INST_CTR_CTL_PERM i) (m.ctrPerm.toNat / 2 % 4)
  { s with img.ctrPerm := mset 0 s.img.ctrPerm i m.ctrPerm.toNat }.setOwner i { key := some k }
/-- Defines a FREE record from a template (R233), with its initial capacity. None where it cannot. -/
def State.defineInst (s : State) (i t : Nat) : Option State :=
  match mget s.img.templates t, s.allocSlot i false with
  | some m, (some k, s) =>
    let exts := ((s.pool.life.filter (fun (e : Nat × Nat) => e.2 == 2 && decide ((s.extNow e.1).st = (if m.mirror then .mirrored else .unmirrored)))).map (·.1)).take m.cap0
    if exts.length < m.cap0 ∨ s.instSt i ≠ 0 then none
    else some (exts.foldl (fun (s : State) e => s.assignExt i e) (s.defineWith i t m k))
  | _, _ => none
/-- Extents assigned to an owner (Initiate Dynamic Capacity Add): the RETIRED ones among them. -/
def State.dcAddOp (s : State) (owner : Nat) (exts : List Nat) : State :=
  (exts.filter (fun e => s.lifeOf e == 2)).foldl (fun (s : State) e => s.assignExt owner e) s
/-- A release of extents of one owner (R237): entries that touch them are invalidated whole through the barrier, then the event goes out. -/
def State.releaseOf (s : State) (o : Nat) (exts : List Nat) (force : Bool) : State :=
  let mine := exts.filter (fun e => (s.owner o).exts.contains e)
  let s := s.abortMoves mine
  if mine.isEmpty then s
  else
    let is := s.hostsOf o
    let sets := is.flatMap (fun i => (s.regionCells (s.rd (F.INST_INFO_HOST_PORT i))).flatMap (fun c => ((s.regions c).filter (fun (e : Nat × Region) =>
      e.2.inst.val == i && e.2.extents.any (fun x => mine.contains x))).map (fun e => (c, e.1, (none : Option Region)))))
    s.regionCommit (.release o mine force) is sets.dedup
/-- A release by way of an instance: of its own extents, and of those of its sharing group, whose bound members all see the event. -/
def State.releaseOp (s : State) (i : Nat) (exts : List Nat) (force : Bool) : State :=
  let s := s.releaseOf i exts force
  (s.ownerKey i 1).elim s (fun g => s.releaseOf g exts force)
/-- DC_ADD_RESPONSE (R235, R268) answers the oldest DC Add Capacity event of the instance that waits (log 126): accepted extents join the default map's
list in the response's order; the others of the event return to the pool through the release path, but for a group's, which stay with the group
while any member is bound (R236). -/
def State.addResponse (s : State) (i : Nat) (exts : List Nat) : State :=
  match mgetD [] s.pool.dcOpen i with
  | [] => s
  | (owner, es) :: t =>
    let o := s.owner owner
    let yes := exts.filter (fun e => es.contains e && o.exts.contains e)
    let no := es.filter (fun e => !exts.contains e && o.exts.contains e)
    let s := { s with pool.dcOpen := mset [] s.pool.dcOpen i t }
    let s := s.setOwner owner { o with
      offered := o.offered.filter (fun e => !(yes ++ (if owner ≥ 4096 then [] else no)).contains e)
      accepted := o.accepted ++ yes.filter (fun e => !o.accepted.contains e) }
    let s := s.capUpdate i
    if no.isEmpty ∨ owner ≥ 4096 then s else s.releaseOf owner no true
def execDcAddResponse (i : Inst) (exts : List Ext) (s : State) : Outcome State Fault Refusal := .next (s.addResponse i (exts.map (·.val)))
/-- The lines of released extents of one owner are recalled. -/
def State.recallFor (s : State) (o i : Nat) (exts : List Nat) : State := if exts.isEmpty then s else s.startSweep (.release o) i exts none
/-- DC_RELEASE_RESPONSE (R237): the host has released extents that it was asked to; their lines are recalled, those of a group once the hosts of all
its bound members have released them. -/
def execDcReleaseResponse (i : Inst) (exts : List Ext) (s : State) : Outcome State Fault Refusal :=
  .next <|
    let asked := mgetD [] s.pool.dcGiving i.val
    let l := exts.map (·.val)
    let mine := asked.filter (fun e => l.contains e)
    if mine.isEmpty then s
    else
      let s := { s with pool.dcGiving := mset [] s.pool.dcGiving i.val (asked.filter (fun e => !l.contains e)) }
      let own := mine.filter (fun e => (s.owner i).exts.contains e)
      let g := 4096 + s.rd (F.INST_INFO_GROUP i)
      let due := mine.filter (fun e => !own.contains e && !(s.hostsOf g).any (fun j => (mgetD [] s.pool.dcGiving j).contains e))
      (s.recallFor i i own).recallFor g i due

/-! ### The CXL FM API (R221, R464) -/

/-- The lease for an FM API request: an origin on a permitted path takes it while it is free (R459). -/
def State.fmLease (s : State) (src : Src) : State :=
  if s.mgr.holder.isNone && s.pathOk src && s.mode != .sealedHalt then s.grantLease src 0 else s
/-- A message of type 0x07 or 0x7E arrives: over the manager port, or over the HOST port that the envelope names, within a session
where the envelope asks for one (R457). A requester with an open session sends every message in it (DESIGN CHOICE). -/
def State.mctpIn (s : State) (src : Src) (k : State → State) : State :=
  match src with
  | .mgr => k s
  | .mctp p _ =>
    if !s.pathOk src then s
    else if s.rdb F.MGR_LEASE_CFG_REQUIRE_SESSION && !s.baseApplies && !s.spdm.sessions.contains p then
      (s.sat F.MGR_ZMP_CNT_DROPPED).logAccess src 3 0 0
    else k s
  | _ => s
/-- An FM API command is performed if every write it implies may be made; otherwise it changes nothing and is answered with
the code of a command the requester may not issue. One that the module refuses (`fail`) is not answered as performed. -/
def State.fmDo (s : State) (src : Src) (ws : List (Fld × Nat)) (k : State → State) (fail : State → Option State := fun _ => none) : State :=
  s.mctpIn src fun s =>
  let s := s.fmLease src
  if !s.holds src then (s.logAccess src 3 ((ws.head?.map (·.1.addr)).getD 0) 0).emit (.fm src false [])
  else match ws.find? (fun w => (s.judge w.1.addr w.1.lsb w.1.width w.2).isSome) with
    | some w => (s.logAccess src 7 w.1.addr (w.2 * 2 ^ w.1.lsb)).emit (.fm src false [])
    | none => match fail s with
      | some s => s.emit (.fm src false [])
      | none => (k s).emit (.fm src true [])
/-- A query is answered under READ_BLOCKS bit 6. -/
def State.fmQuery (s : State) (src : Src) (data : List Nat) : State :=
  s.mctpIn src fun s =>
  let s := s.fmLease src
  if !s.holds src then (s.logAccess src 3 0x20000000 0).emit (.fm src false [])
  else if s.envelope.reads.getLsbD 6 then s.emit (.fm src true data)
  else (s.logAccess src 7 0x20000000 0).emit (.fm src false [])
def State.fmGetVcsInfo (s : State) (src : Src) (port : Cell) : State :=
  s.fmQuery src ((List.range 64).map (fun v => (s.reg (F.INST_VPPB_at port v)).toNat))
def execFmGetVcsInfo (src : Src) (port : Cell) (s : State) : Outcome State Fault Refusal := .next (s.fmGetVcsInfo src port)
def State.fmBindVppb (s : State) (src : Src) (i : Inst) (port : Cell) (v : Fin 64) : State :=
  s.fmDo src [(F.INST_BIND_OP i, 1), (F.INST_BIND_PORT i, port.val), (F.INST_BIND_VPPB i, v.val), (F.INST_BIND_GO i, 1)]
    fun s => (((s.wr (F.INST_BIND_OP i) 1).wr (F.INST_BIND_PORT i) port).wr (F.INST_BIND_VPPB i) v).bindOp i port v
def execFmBindVppb (src : Src) (i : Inst) (port : Cell) (v : Fin 64) (s : State) : Outcome State Fault Refusal :=
  .next (s.fmBindVppb src i port v)
def State.fmUnbindVppb (s : State) (src : Src) (port : Cell) (v : Fin 64) (mode : Fin 3) : State :=
  let i := s.rd (F.INST_VPPB_TARGET port v)
  s.fmDo src [(F.INST_BIND_OP i, 2), (F.INST_BIND_MODE i, mode.val), (F.INST_BIND_GO i, 1)] fun s =>
    match s.rd (F.INST_VPPB_KIND port v) with
    | 1 => ((s.wr (F.INST_BIND_OP i) 2).wr (F.INST_BIND_MODE i) mode).unbindOp i mode true
    | 2 =>
      let s := s.emit (.removal port v mode)
      if mode = 0 then
        { s.wr (F.INST_VPPB_STATE port v) 3 with pool.slotWait := mput s.pool.slotWait (port.val * 64 + v.val) none }
      else s.unbindDev port v
    | _ => s
def execFmUnbindVppb (src : Src) (port : Cell) (v : Fin 64) (mode : Fin 3) (s : State) : Outcome State Fault Refusal :=
  .next (s.fmUnbindVppb src port v mode)
def State.fmGetDcdInfo (s : State) (src : Src) : State :=
  s.fmQuery src [2, 2 ^ 30, (s.pool.life.filter (fun (e : Nat × Nat) => e.2 != 0)).length,
    (s.pool.life.filter (fun (e : Nat × Nat) => e.2 == 2)).length]
def execFmGetDcdInfo (src : Src) (s : State) : Outcome State Fault Refusal := .next (s.fmGetDcdInfo src)
def State.fmGetHostDc (s : State) (src : Src) (i : Inst) : State :=
  s.fmQuery src [0, 2 ^ 46, (s.owner i).exts.length * 2 ^ 30, 2 ^ 46, 2 ^ 46,
    ((s.ownerKey i 1).elim 0 (fun g => (s.owner g).exts.length)) * 2 ^ 30]
def execFmGetHostDcRegionCfg (src : Src) (i : Inst) (s : State) : Outcome State Fault Refusal := .next (s.fmGetHostDc src i)
/-- Initiate Dynamic Capacity Add: judged as a write of GO of the instance's INST_BIND (DESIGN CHOICE, log 16). An owner without a key slot takes
one; where no key can be made, the operation is refused (R281). -/
def State.fmDcAdd (s : State) (src : Src) (i : Inst) (r : Fin 2) (exts : List Ext) : State :=
  let to_ (s : State) : Option Nat := if s.instSt i = 0 then none else s.ownerKey i r
  s.fmDo src [(F.INST_BIND_GO i, 1)]
    (fun s => match (to_ s).bind (fun o => (s.giveKey o).map (fun t => (o, t))) with
      | some (o, t) => t.dcAddOp o (exts.map (·.val))
      | none => s)
    (fun s => match to_ s with
      | some o => if (s.giveKey o).isNone then some ((s.noKeyFor o).flag (F.INST_BIND_REFUSED i)) else none
      | none => none)
def execFmInitiateDcAdd (src : Src) (i : Inst) (r : Fin 2) (exts : List Ext) (s : State) : Outcome State Fault Refusal :=
  .next (s.fmDcAdd src i r exts)
def State.fmDcRelease (s : State) (src : Src) (i : Inst) (exts : List Ext) (force : Bool) : State :=
  s.fmDo src [(F.INST_BIND_GO i, 1)] fun s => if s.instSt i = 3 then s.releaseOp i (exts.map (·.val)) force else s
def execFmInitiateDcRelease (src : Src) (i : Inst) (exts : List Ext) (force : Bool) (s : State) : Outcome State Fault Refusal :=
  .next (s.fmDcRelease src i exts force)
/-- An FM API command, whatever carries it. -/
def State.fmCmd (s : State) (src : Src) (c : FmCmd) : State :=
  match c with
  | .getVcsInfo port => s.fmGetVcsInfo src port
  | .bindVppb i port v => s.fmBindVppb src i port v
  | .unbindVppb port v mode => s.fmUnbindVppb src port v mode
  | .getDcdInfo => s.fmGetDcdInfo src
  | .getHostDc i => s.fmGetHostDc src i
  | .dcAdd i r exts => s.fmDcAdd src i r exts
  | .dcRelease i exts force => s.fmDcRelease src i exts force

/-! ### Migration (R244 to R250) -/

def State.migRefuse (s : State) (i : Nat) : State := s.flag (F.INST_MIG_REFUSED i)
/-- PREPARE (R245): the target vPPB takes the instance, INCOMING. -/
def State.prepareOp (s : State) (i : Nat) : State :=
  if s.rdb (F.INST_MIG_BUSY i) then s
  else
    let tp := s.rd (F.INST_MIG_T_PORT i)
    let tv := s.rd (F.INST_MIG_T_VPPB i)
    let mode := s.rd (F.INST_MIG_MODE i)
    let src := s.rd (F.INST_INFO_HOST_PORT i)
    let here := s.rd (F.INST_MIG_T_MODULE i) = s.chainAddr
    if s.instSt i ≠ 3 ∨ mode ≥ 2 ∨ !(s.tmpl i).mig ∨ (mode = 1 ∧ s.rdb (F.INST_INFO_GROUPED i)) ∨ (mget s.pool.migs i).isSome
        ∨ (mode = 0 ∧ (!here ∨ !s.sameDomain src tp)) ∨ (mode = 1 ∧ here ∧ s.sameDomain src tp)
        ∨ (here ∧ (s.roleOf (Cell.of tp) ≠ .host ∨ (s.anchorOf (Cell.of tp)).val ≠ tp ∨ s.rd (F.INST_VPPB_KIND tp tv) ≠ 0 ∨ (s.boundVppbs tp).length ≥ 64)) then s.migRefuse i
    else if !here ∧ (!s.rdb (F.ONL_ROUTE_REACH 0 (s.rd (F.INST_MIG_T_MODULE i))) ∨ s.rdb (F.ONL_ROUTE_OVER 0 (s.rd (F.INST_MIG_T_MODULE i)))) then
      -- R357
      s.wr (F.INST_MIG_STATUS_RESULT i) 4
    else
      let s := { s with
        pool.migs := mput s.pool.migs i
          { srcPort := src, srcVppb := s.rd (F.INST_INFO_VPPB i), tPort := tp, tVppb := tv, remote := mode = 1, tModule := s.rd (F.INST_MIG_T_MODULE i) } }
      let s := if here then
          let s := ((s.wr (F.INST_VPPB_KIND tp tv) 1).wr (F.INST_VPPB_STATE tp tv) 1).wr (F.INST_VPPB_TARGET tp tv) i
          (s.wr (F.INST_PORT_STATUS_BOUND tp) (s.boundVppbs tp).length).emit (.hotAdd (Cell.of tp) tv)
        else s
      (((s.wr (F.INST_INFO_STATE i) 4).wr (F.INST_MIG_STATUS_STEP i) 1).wr (F.INST_MIG_STATUS_RESULT i) 0).wr (F.INST_MIG_STATUS_STRAY i) 0
/-- The freeze point (R246, R247). -/
def State.freeze (s : State) (i : Nat) (m : Mig) : State :=
  let s := { s with
    pool.migs := mput s.pool.migs i { m with frozen := true, freezeAt := s.cyc, limit := max 100 (s.rd (F.INST_PORT_CFG_FREEZE_LIMIT m.srcPort)) }
    }.abortMoves (s.owner i).exts
  let s := ((s.wr (F.INST_INFO_STATE i) 5).wr (F.INST_MIG_STATUS_STEP i) 2).wr (F.INST_MIG_STATUS_RESULT i) 0
  (s.wr (F.INST_MIG_BUSY i) 1).wr (F.INST_INFO_MIGRATING i) 1
def State.migrateOp (s : State) (i : Nat) : State :=
  if s.rdb (F.INST_MIG_BUSY i) then s
  else match mget s.pool.migs i with
    | some m => if s.instSt i = 4 then s.freeze i m else s.migRefuse i
    | none => s.migRefuse i
/-- ABORT. Before the thaw it ends the migration, although BUSY is 1: Table 8-9 gives it that effect, where R23 has a GO while BUSY ignored
(DESIGN CHOICE, log 119). After the thaw a GO while BUSY is ignored. -/
def State.abortOp (s : State) (i : Nat) : State :=
  match mget s.pool.migs i with
  | some m => if m.thawed then (if s.rdb (F.INST_MIG_BUSY i) then s else s.migRefuse i) else (s.migBack i 2).nextCommit
  | none => if s.rdb (F.INST_MIG_BUSY i) then s else s.migRefuse i
/-- SAVE without MIGRATE (R249). It asks for no migration permission, and neither does RESTORE: R244 names it for a migration (DESIGN CHOICE,
log 140). -/
def State.saveOp (s : State) (i : Nat) : State :=
  if s.rdb (F.INST_MIG_BUSY i) then s
  else if s.instSt i ≠ 3 then s.migRefuse i
  else
    let m : Mig := { srcPort := s.rd (F.INST_INFO_HOST_PORT i), srcVppb := s.rd (F.INST_INFO_VPPB i), tPort := 0, tVppb := 0,
                     save := true, remote := true, tModule := s.chainAddr }
    (s.wr (F.INST_MIG_STATUS_STRAY i) 0).freeze i m
/-- The key that seals a blob for a module: the local blob key for the module itself, or one from the ECDH secret of the two chain sealing keys
(R289). None where a key is missing. -/
def State.sealKey (s : State) (to_ seq : Nat) : Option (BitVec 256) :=
  if to_ = s.chainAddr then s.localBlobKey
  else s.chainKey.bind (fun own => (mget s.onl.csk to_).map (fun (k : PeerKey) => remoteKey own k.key seq s.chainAddr to_))
/-- The blob of an instance (Table 8-8), sealed for a module, with a nonce drawn from the DRBG (R289). -/
def State.makeBlob (s : State) (i : Nat) (remote : Bool) (to_ : Nat) : State :=
  let (n, s) := s.fresh
  let b : Blob := { seq := s.pool.blobSeq + 1, inst := i, srcModule := s.chainAddr, remote := remote, own := s.owner i,
                    shares := (s.reg (F.INST_SHARE0_at i), s.reg (F.INST_SHARE1_at i)), info := s.reg (F.INST_INFO_at i) }
  let bytes := (s.sealKey to_ b.seq).map (fun k =>
    sealBlob k (BitVec.ofNat 96 (Config.freeRandom n)) b (decide (to_ ≠ s.chainAddr)) (s.rdb (F.INST_INFO_GROUPED i)))
  { s with
    pool.blobs := mput s.pool.blobs i b, pool.blobSeq := s.pool.blobSeq + 1
    pool.sealed := match bytes with
      | some x => mput s.pool.sealed i x
      | none => mdel s.pool.sealed i }
/-- A request that the source port held or had admitted at the freeze point has not completed (Table 8-7). -/
def State.freezeBusy (s : State) (i : Nat) (m : Mig) : Bool :=
  (mgetD [] s.pool.hold m.srcPort).any (fun h => h.dpa.isSome && h.p.inst.val == i && !h.stray && h.at_ ≤ m.freezeAt)
    || s.xbar.slots.any (fun (e : Nat × TSlot) => e.2.port.val == m.srcPort && e.2.hdr.inst.val == i && !e.2.io && !e.2.silent
      && e.2.ended.isNone && e.2.rx ≤ m.freezeAt)
/-- MIG_FREEZE_DRAINED (Table 8-7): FROZEN; a REMOTE migration recalls, a LOCAL one saves. -/
def execMigFreezeDrained (i : Inst) (s : State) : Outcome State Fault Refusal :=
  .next <|
    match mget s.pool.migs i.val with
    | some m =>
      if s.instSt i ≠ 5 ∨ s.freezeBusy i m then s
      else
        let s := s.wr (F.INST_INFO_STATE i) 6
        if m.remote then (s.wr (F.INST_MIG_STATUS_STEP i) 3).startSweep (.migRecall i) i (s.capExts i) none
        else s.wr (F.INST_MIG_STATUS_STEP i) 4
    | none => s
/-- FREEZE_LIMIT_EXPIRY: back to BOUND with RESULT 3. -/
def execFreezeLimitExpiry (i : Inst) (s : State) : Outcome State Fault Refusal :=
  .next (match mget s.pool.migs i.val with
    | some m => if s.instSt i = 5 ∧ m.freezeAt + m.limit * 3000 ≤ s.cyc then (s.migBack i 3).nextCommit else s
    | none => s)
/-- MIG_SAVE_COMPLETE: a SAVE unbinds the source and leaves the instance SAVED; a migration goes on to its restore here,
or to the transfer. -/
def execMigSaveComplete (i : Inst) (s : State) : Outcome State Fault Refusal :=
  .next <|
    match mget s.pool.migs i.val with
    | some m =>
      if s.instSt i ≠ 6 ∨ s.rd (F.INST_MIG_STATUS_STEP i) ≠ 4 then s
      else
        let s := s.makeBlob i m.remote m.tModule
        if m.save then
          let sets := s.removeSets m.srcPort i
          let s := (s.emit (.removal (Cell.of m.srcPort) m.srcVppb 1)).freeVppb m.srcPort m.srcVppb
          ((s.wr (F.INST_INFO_STATE i) 7).migEnd i 9 1).regionCommit (.srcGone i) [i.val] sets
        else if m.tModule = s.chainAddr then
          (s.wr (F.INST_MIG_STATUS_STEP i) 6).regionCommit (.restore i) [i.val]
            ((s.regionCells m.tPort).flatMap (fun c => s.installSets c i))
        else
          -- R289: only to a module whose chain sealing key has been accepted
          let s := s.wr (F.INST_MIG_STATUS_STEP i) 5
          if (s.sealKey m.tModule s.pool.blobSeq).isNone then (s.wr (F.INST_MIG_STATUS_RESULT i) 4).wr (F.INST_MIG_BUSY i) 0
          else s.sendBlob i s.pool.blobSeq m.tModule
    | none => s
/-- RESTORE (R249): a SAVED instance, or one whose blob has come from another module, at T_PORT and T_VPPB; any HOST port that the binding rules
permit (log 140). A blob that
fails its tag or its SEQ check is refused with RESULT 4. -/
def State.restoreOp (s : State) (i : Nat) (tagOk : Bool) : State :=
  if s.rdb (F.INST_MIG_BUSY i) then s
  else
    let tp := s.rd (F.INST_MIG_T_PORT i)
    let tv := s.rd (F.INST_MIG_T_VPPB i)
    match mget s.pool.blobs i with
    | none => s.migRefuse i
    | some b =>
      if (s.instSt i ≠ 7 ∧ s.instSt i ≠ 0) ∨ s.roleOf (Cell.of tp) ≠ .host ∨ (s.anchorOf (Cell.of tp)).val ≠ tp
          ∨ (s.rd (F.INST_VPPB_KIND tp tv) ≠ 0 ∧ !(s.rd (F.INST_VPPB_KIND tp tv) = 1 ∧ s.rd (F.INST_VPPB_TARGET tp tv) = i))
          ∨ !s.groupDomainOk i tp then s.migRefuse i
      else if !tagOk ∨ s.pool.restored.contains (b.srcModule, b.seq) then s.wr (F.INST_MIG_STATUS_RESULT i) 4
      else
        let s := { s with
          pool.restored := (b.srcModule, b.seq) :: s.pool.restored
          pool.migs := mput s.pool.migs i { srcPort := 128, srcVppb := 0, tPort := tp, tVppb := tv, freezeAt := s.cyc, frozen := true, save := true,
                                            remote := b.remote, tModule := s.chainAddr, back := s.instSt i } }
        let s := (s.setReg (F.INST_SHARE0_at i) b.shares.1).setReg (F.INST_SHARE1_at i) b.shares.2
        let s := s.setOwner i b.own
        let s := (s.wr (F.INST_INFO_TEMPLATE i) (getBits b.info 32 8)).wr (F.INST_INFO_STATE i) 4
        let s := ((s.wr (F.INST_VPPB_KIND tp tv) 1).wr (F.INST_VPPB_STATE tp tv) 1).wr (F.INST_VPPB_TARGET tp tv) i
        let s := (s.wr (F.INST_PORT_STATUS_BOUND tp) (s.boundVppbs tp).length).emit (.hotAdd (Cell.of tp) tv)
        let s := ((s.wr (F.INST_MIG_STATUS_STEP i) 6).wr (F.INST_MIG_STATUS_RESULT i) 0).wr (F.INST_MIG_BUSY i) 1
        s.regionCommit (.restore i) [i] ((s.regionCells tp).flatMap (fun c => s.installSets c i))
/-- MIG_RESTORE_COMPLETE (R246): contexts and regions are live, and the target thaws; a LOCAL migration drains its source. -/
def execMigRestoreComplete (i : Inst) (s : State) : Outcome State Fault Refusal :=
  .next <|
    match mget s.pool.migs i.val with
    | some m =>
      if !m.ready then s
      else
        let s := ((s.wr (F.INST_INFO_STATE i) 3).wr (F.INST_INFO_HOST_PORT i) m.tPort).wr (F.INST_INFO_VPPB i) m.tVppb
        let s := (s.wr (F.INST_VPPB_STATE m.tPort m.tVppb) 2).tenantEvent i 1
        let s := s.wr (F.INST_MIG_STATUS_DOWNTIME_US i) (min 0xFFFF ((s.cyc - m.freezeAt) / 3000))
        let s := s.wr (F.INST_MIG_STATUS_STEP i) 7
        if m.srcPort ≥ 128 then s.migEnd i 9 1
        else if m.remote then
          let sets := s.removeSets m.srcPort i
          let s := (s.emit (.removal (Cell.of m.srcPort) m.srcVppb 1)).freeVppb m.srcPort m.srcVppb
          (s.migEnd i 9 1).regionCommit (.srcGone i) [i.val] sets
        else
          let s := { s with pool.migs := mput s.pool.migs i.val { m with thawed := true, ready := false } }
          ((s.wr (F.INST_MIG_STATUS_STEP i) 8).startSweep (.migDrain i) i (s.capExts i) (some (s.hslotOf (Cell.of m.srcPort)))).nextCommit
    | none => s
def execMigPrepare (src : Src) (i : Inst) (s : State) : Outcome State Fault Refusal :=
  .next (s.ifMay src (F.INST_MIG_GO i) 1 fun s => s.prepareOp i)
def execMigMigrate (src : Src) (i : Inst) (s : State) : Outcome State Fault Refusal :=
  .next (s.ifMay src (F.INST_MIG_GO i) 1 fun s => s.migrateOp i)
def execMigAbort (src : Src) (i : Inst) (s : State) : Outcome State Fault Refusal :=
  .next (s.ifMay src (F.INST_MIG_GO i) 1 fun s => s.abortOp i)
def execMigSave (src : Src) (i : Inst) (s : State) : Outcome State Fault Refusal :=
  .next (s.ifMay src (F.INST_MIG_GO i) 1 fun s => s.saveOp i)
def execMigRestore (src : Src) (i : Inst) (tagOk : Bool) (s : State) : Outcome State Fault Refusal :=
  .next (s.ifMay src (F.INST_MIG_GO i) 1 fun s => s.restoreOp i tagOk)

end Sys2Proof.Machine
end

