-- ==== Sys2Proof/Machine/Press.lean ====
section
/-! DEFINITION. Press, Brine and the map notes (spec/08 R226, R252 to R258), and the keys: zeroization, generation, loads,
rotation (spec/09 R281 to R288), the commit barrier (R277) and link encryption (R290). -/

namespace Sys2Proof.Machine
open Host

/-- Blocks of 4 KiB in an extent. -/
def extBlocks : Nat := 262144

/-! ### Press (R252 to R256) -/

/-- Parts of an operation begin: MOVING is set, the extent of a RESILVER is RESILVER, and the destinations have their entries, all by one MAP
note (R226, R231, R253). -/
def State.pressBegin (s : State) (d : Nat) (o : PressOp) (new : List PressPart) : State :=
  let home := new.map (fun (q : PressPart) =>
    let x := s.extNow q.ext
    (q.ext, if o.resilver then { x with st := .resilver, mcell2 := Cell.of q.destCell, moving := true } else { x with moving := true }))
  let dev := (new.filter (fun (q : PressPart) => !q.fin)).map (fun (q : PressPart) =>
    let key := (s.devEnt (Cell.of q.src) q.ext).bind (·.key)
    (q.destCell, q.ext, some (q.destEnt key (if o.resilver || q.mirrorSide then 1 else 0))))
  let s := { s with pool.press := mput s.pool.press d o }
  let s := { s with pool.repl := mkeep (fun e _ => !new.any (fun (q : PressPart) => q.ext == e)) s.pool.repl }
  ((s.sendNote home dev .none).wr (F.INST_PRESS_OP_BUSY d) 1).pressShow d o
/-- A device extent of a cell is in no device map entry, and no note on its way gives it one. -/
def State.devFree (s : State) (c x : Nat) : Bool :=
  !s.pool.dev.any (fun (e : Nat × DevEnt) => e.1 / 65536 == c && e.2.dev.val == x)
    && !s.pool.notes.any (fun (n : Nat × MapNote) => n.2.dev.any (fun d => d.1 == c && (d.2.2.map (fun (y : DevEnt) => y.dev.val)) == some x))
/-- A destination can take a side of an extent: a MEMORY port with its expander, that serves no side of the extent, and a device extent that
is free there. -/
def State.destOk (s : State) (e c x : Nat) : Bool :=
  s.roleOf (Cell.of c) = .memory && s.anchorOf (Cell.of c) == Cell.of c && !s.cellFenced (Cell.of c) && !s.pool.lost.contains c
    && (s.devEnt c e).isNone && s.devFree c x
/-- A part of a MOVE as it begins: an extent being rekeyed ends it with code 8 (R288), a side that is gone with 7, and a destination that cannot
take it with 6 (DESIGN CHOICE, log 125), one that an earlier part names among them. -/
def State.movePart (s : State) (d : Nat) (before : List (Nat × PressPart)) (p : Nat) : Nat × PressPart :=
  let e := s.rd (F.INST_PRESS_PART_EXT d p)
  let x := s.extNow e
  let mir := s.rdb (F.INST_PRESS_PART_SIDE d p)
  let m := if mir then x.mcell2 else x.mcell
  let q : PressPart := { ext := e, src := m.val, mirrorSide := mir, destCell := s.rd (F.INST_PRESS_PART_DEST_PORT d p),
                         destExt := s.rd (F.INST_PRESS_PART_DEST_EXT d p) }
  -- the sides of a mirrored extent lie on different dies (R227)
  let apart := x.st ≠ .mirrored ∨ dieOf (Cell.of q.destCell) ≠ dieOf (if mir then x.mcell else x.mcell2)
  let free := decide apart && s.destOk e q.destCell q.destExt && !before.any (fun (y : Nat × PressPart) => y.2.destCell == q.destCell && y.2.destExt == q.destExt)
  (p, if (mget s.sec.walk e).isSome then { q with code := 8, ended := true, fin := true }
      else if !x.sides.contains m || (mir && x.st ≠ .mirrored) then { q with code := 7, ended := true, fin := true }
      else if !free then { q with code := 6, ended := true, fin := true }
      else q)
/-- PRESS_MOVE_GO (R253, R254). A GO while BUSY starts nothing and sets REFUSED: Table 8-22 names that case for REFUSED, beside R23 and
R261, which say that the write is ignored (DESIGN CHOICE, log 118). Two parts that name one extent are refused: each finds it busy (log 125). -/
def State.moveOp (s : State) (d : Nat) : State :=
  let en := s.rd (F.INST_PRESS_OP_PART_EN d)
  let ns := (List.range 16).filter (fun p => en.testBit p)
  let es := ns.map (fun p => s.rd (F.INST_PRESS_PART_EXT d p))
  if s.rdb (F.INST_PRESS_OP_BUSY d) ∨ ns.isEmpty ∨ es.any (fun e => s.extBusy e) ∨ es.dedup.length < es.length then s.flag (F.INST_PRESS_OP_REFUSED d)
  else
    let ps := ns.foldl (fun (l : List (Nat × PressPart)) p => l ++ [s.movePart d l p]) []
    (s.pressBegin d { resilver := false, parts := ps } (ps.map (·.2))).pressCheck d
def execPressMoveGo (src : Src) (d : Die) (s : State) : Outcome State Fault Refusal :=
  .next (s.ifMay src (F.INST_PRESS_OP_GO d) 1 fun s => s.moveOp d)
def execPressAbort (src : Src) (d : Die) (s : State) : Outcome State Fault Refusal :=
  .next (s.ifMay src (F.INST_PRESS_OP_ABORT d) 1 fun s => s.abortMove d)
/-- The device extents of the lost side of an extent that have come back with their expander: cell and device extent (R231). -/
def State.backAgain (s : State) (e : Nat) : List (Nat × Nat) :=
  [2 * e, 2 * e + 1].filterMap (fun k => (mget s.pool.was k).bind (fun w =>
    (s.pool.expander.find? (fun (x : Nat × Expander) => x.2.serial == w.1 && !s.pool.lost.contains x.1 && s.destOk e x.1 w.2)).map
      (fun x => (x.1, w.2))))
/-- A replacement side of a SINGLE extent (R231): the device extent it held before if that is back, otherwise the free one that the auto-bind rule
of the replacement expander chose; on another die (R227). -/
def State.replaceOk (s : State) (e c x : Nat) : Bool :=
  s.destOk e c x && dieOf (Cell.of c) != dieOf (s.extNow e).mcell
    && (if (s.backAgain e).isEmpty then mget s.pool.repl e == some (c * 4096 + x) else (s.backAgain e).contains (c, x))
/-- The number of the next part of the RESILVER that the engine of a die runs or can begin: none while it runs another operation, or 16 parts. -/
def State.silverPart (s : State) (d : Nat) : Option Nat :=
  match mget s.pool.press d with
  | some o => if o.resilver then (List.range 16).find? (fun p => !o.parts.any (fun (q : Nat × PressPart) => q.1 == p && !q.2.fin)) else none
  | none => if s.rdb (F.INST_PRESS_OP_BUSY d) then none else some 0
/-- PRESS_RESILVER_START (R231, R252): the extent is a part of the RESILVER of the die of its side, and the module enters REBUILD; a rekeying extent
waits (R288), and DEGRADED waits until the fence is complete (Table 1-9). -/
def execPressResilverStart (e : Ext) (c : Cell) (x : Fin 4096) (s : State) : Outcome State Fault Refusal :=
  .next <|
    let h := s.extNow e
    let d := dieOf h.mcell
    match s.silverPart d with
    | none => s
    | some p =>
    if h.st ≠ .single ∨ s.extBusy e ∨ (mget s.sec.walk e.val).isSome ∨ !s.replaceOk e c x
        ∨ (s.mode ≠ .rebuild ∧ (s.scrim.epochOpen ∨ !s.scrim.notes.isEmpty))
        ∨ ((s.mode = .service ∨ s.mode = .drowse) ∧ s.scrim.fence ≠ ({} : FenceMap)) then s
    else
      let s := if s.mode = .service ∨ s.mode = .degraded then s.goMode .rebuild 0x0B else s
      let s := if s.mode = .drowse then (s.goMode .service 0x0B).goMode .rebuild 0x0B else s
      let q : PressPart := { ext := e.val, src := h.mcell.val, mirrorSide := true, destCell := c.val, destExt := x.val }
      let ps := ((mget s.pool.press d).map (·.parts)).getD []
      s.pressBegin d { resilver := true, parts := ps.filter (fun (y : Nat × PressPart) => y.1 != p) ++ [(p, q)] } [q]
/-- PRESS_BLOCK_ACK (R253), once the note of the part is applied everywhere: the cursor advances and the writes held for the block go on. -/
def execPressBlockAck (d : Die) (p : Fin 16) (poisoned failed : Bool) (s : State) : Outcome State Fault Refusal :=
  .next <|
    match mget s.pool.press d.val with
    | none => s
    | some o => match o.parts.find? (fun q => q.1 == p.val) with
      | none => s
      | some (_, q) =>
        if q.ended ∨ s.partNoted q then s
        else
          let m := Cell.of q.src
          let s := match s.devEnt m q.ext with
            | some x => s.emit (.expBlock m (x.dev.val * 2 ^ 30 + q.block * 4096) (Cell.of q.destCell) (q.destExt * 2 ^ 30 + q.block * 4096))
            | none => s
          let q := { q with block := q.block + 1, poisoned := q.poisoned || poisoned }
          let q := if failed then { q with code := 6, ended := true }
            else if q.block ≥ extBlocks then { q with code := if q.poisoned then 2 else 1, ended := true } else q
          let s := { s with
            pool.press := mput s.pool.press d.val { o with parts := o.parts.map (fun (x : Nat × PressPart) => if x.1 = p.val then (x.1, q) else x) } }
          (s.releaseHeld q.ext).pressCheck d
/-- PRESS_SOURCE_DRAINED (R254): once the writes that the sources of a MOVE accepted are complete, the sources clear their entries, and the
operation ends. -/
def execPressSourceDrained (d : Die) (s : State) : Outcome State Fault Refusal :=
  .next <|
    match mget s.pool.press d.val with
    | some o =>
      let open_ (q : PressPart) : Bool := s.pool.acc.any (fun (a : Nat × MemAcc) => a.2.write && a.2.p.ext == q.ext && a.2.cell.val == q.src)
      if !o.noted ∨ o.parts.any (fun q => open_ q.2) then s
      else (o.parts.foldl (fun (s : State) q => s.setDev q.2.src q.2.ext none) s).pressEnd d
    | none => s

/-! ### COPY (R255) -/

/-- The violation record of a COPY: one, whatever its forbidden parts. With forbidden parts on both sides it names the source, and its counts take
in both sides (DESIGN CHOICE, log 145: R273 does not say which). -/
def State.copyViolation (s : State) (i : Nat) (o : CopyOp) (n : Nat) : State :=
  let a := s.rd (F.INST_INFO_HOST_PORT i)
  let side (opc : Opc) (dpa : Nat) := parts (s.runs a { inst := i, priv := o.priv, dev := false, opc := opc } (dpa / 64) n)
  let sp := side .rdi ((o.parts.head?.map (·.srcDpa)).getD 0)
  let dp := side .wri ((o.parts.head?.map (·.dstDpa)).getD 0)
  let sb := sp.filter (fun x => !x.2.2)
  let db := dp.filter (fun x => !x.2.2)
  match (sb.map (fun x => (x, Opc.rdi, 4)) ++ db.map (fun x => (x, Opc.wri, 5))).head? with
  | none => s
  | some ((l, _, _), opc, code) =>
    let r := match s.check a { inst := i, priv := o.priv, dev := false, opc := opc } l false with
      | .deny r => r
      | _ => 0
    s.violate (Cell.of a)
      { time := 0, inst := i, requester := if o.tenant then 4 else 5, cell := 0, port := a, access := code, reason := r,
        parts := sp.length + dp.length, denied := sb.length + db.length, addr := l * 64, len := n * 64,
        deniedBytes := (sb ++ db).foldl (fun b x => b + x.2.1 * 64) 0 }
/-- The parts of a COPY start, and the violation record of those that are forbidden is written. -/
def State.copyBegin (s : State) (i : Nat) : State :=
  match mget s.pool.copy i with
  | none => s
  | some o =>
    if o.parts.any (·.started) then s
    else o.parts.foldl (fun (s : State) q => match mget s.pool.copy i with
      | some o => s.copyStart i o q
      | none => s) (s.copyViolation i o (o.parts.foldl (fun n q => n + q.lines) 0))
/-- Press issues the COPYs that waited for a barrier of their instances (R277). -/
def State.resumeCopies (s : State) (is : List Nat) : State := is.foldl (fun (s : State) i => s.copyBegin i) s
/-- COPY_GO: parts of up to 2 MiB; the die of the instance's anchor runs them, once no barrier pauses the instance (R277). -/
def State.copyOp (s : State) (i : Nat) (tenant : Bool) : State :=
  if s.rdb (F.INST_COPY_CTRL_BUSY i) then s
  else
    let n := s.rd (F.INST_COPY_CTRL_LEN_4K i)
    let d := s.rd (F.INST_INFO_HOST_PORT i) / 16
    if n = 0 ∨ n > 8192 ∨ s.rdb (F.INST_PRESS_OP_BUSY d) ∨ s.instSt i ≠ 3 then s.flag (F.INST_COPY_CTRL_REFUSED i)
    else
      let src := s.rd (F.INST_COPY_SRC_SRC_DPA i) / 4096 * 4096
      let dst := s.rd (F.INST_COPY_DST_DST_DPA i) / 4096 * 4096
      let ps := (List.range ((n + 511) / 512)).map (fun k =>
        ({ num := k, srcDpa := src + k * 2 ^ 21, dstDpa := dst + k * 2 ^ 21, lines := min (512 * 64) ((n - 512 * k) * 64) } : CopyPart))
      let o : CopyOp := { die := d, priv := !tenant, tenant := tenant, parts := ps }
      let s := { s with pool.copy := mput s.pool.copy i o }
      let s := (s.wr (F.INST_COPY_CTRL_BUSY i) 1).wr (F.INST_PRESS_OP_BUSY d) 1
      let s := (s.wr (F.INST_COPY_STATUS_at i |> fun a => ⟨a, 0, 64⟩) 0).wr (F.INST_ENG_STATUS_PRESS_ACTIVE d) (2 ^ ps.length - 1)
      if s.sec.barrier.any (fun b => b.insts.contains i) then s else s.copyBegin i
def execCopyGo (src : Option Src) (i : Inst) (s : State) : Outcome State Fault Refusal :=
  .next <|
    match src with
    | none => s.copyOp i true
    | some x => s.ifMay x (F.INST_COPY_CTRL_GO i) 1 fun s => s.copyOp i false
/-- Worst code of a COPY part whose lines are done (Table 8-11). -/
def CopyPart.result (q : CopyPart) : Nat := if !q.allowed then 4 else if q.partly then 3 else if q.poisoned then 2 else 1
/-- COPY_PART_COMPLETE: a part whose last line is written reports its code. -/
def execCopyPartComplete (i : Inst) (p : Fin 16) (s : State) : Outcome State Fault Refusal :=
  .next <|
    match mget s.pool.copy i.val with
    | none => s
    | some o => match o.parts.find? (fun q => q.num == p.val) with
      | none => s
      | some q =>
        if q.ended ∨ q.line < q.lines then s
        else
          let o := { o with parts := o.parts.map (fun (x : CopyPart) => if x.num = p.val then { x with ended := true, code := x.result } else x) }
          let s := s.wr (F.INST_COPY_STATUS_PART i p) q.result
          let s := s.wrBit (F.INST_ENG_STATUS_PRESS_ACTIVE o.die) p.val false
          if o.parts.all (·.ended) then
            ({ s with pool.copy := mdel s.pool.copy i.val }.wr (F.INST_COPY_CTRL_BUSY i) 0).wr (F.INST_PRESS_OP_BUSY o.die) 0
          else { s with pool.copy := mput s.pool.copy i.val o }

/-! ### Brine and map notes -/

def execBrineComplete (e : Ext) (s : State) : Outcome State Fault Refusal := .next (s.scrubDone e)
/-- MAP_NOTE (R226): the cell applies it at its safe point and acknowledges. -/
def execMapNote (c : Cell) (n : Nat) (s : State) : Outcome State Fault Refusal := .next (s.applyNote c n)
/-- MAP_NOTE_COMPLETE: retirement goes on to the key, a remap to its drain, a rekeyed extent to the next. -/
def execMapNoteComplete (n : Nat) (s : State) : Outcome State Fault Refusal :=
  .next <|
    match mget s.pool.notes n with
    | none => s
    | some x =>
      if !s.noteAcked x then s
      else
        let s := { s with pool.notes := mdel s.pool.notes n }
        match x.goal with
        | .none => s
        | .retire o exts un =>
          let s := exts.foldl (fun (s : State) e => s.setLife e 2) s
          match un with
          | none => ((s.dropExts o exts).retireKey o).nextCommit
          | some true => ((s.retireKey o).unbound o true).nextCommit
          | some false => (((s.dropExts o exts).retireKey o).unbound o false).nextCommit
        | .remap d => match mget s.pool.press d with
          | some p => { s with pool.press := mput s.pool.press d { p with noted := true } }
          | none => s
        | .silvered e =>
          let mine (o : PressOp) : Bool := o.resilver && o.parts.any (fun (q : Nat × PressPart) => q.2.ext == e && q.2.sent)
          let s := s.extEvent (s.extNow e) 4
          match s.pool.press.find? (fun (o : Nat × PressOp) => mine o.2) with
          | some (d, o) => s.silverEnd d { o with parts := o.parts.map (fun (q : Nat × PressPart) =>
              if q.2.ext = e then (q.1, { q.2 with fin := true }) else q) }
          | none => s
        | .rekey e =>
          let s := { s with
            sec.walk := mdel s.sec.walk e
            sec.rots := s.sec.rots.map (fun (r : Rot) => { r with left := r.left.filter (· != e) }) }
          s.endRots.startWalkers

/-! ### Keys (R281 to R288) -/

/-- ZEROIZE (R285): the cell overwrites its copy and acknowledges. -/
def execZeroize (c : Cell) (k : KeySlot) (s : State) : Outcome State Fault Refusal :=
  .next <|
    let r := s.keyRec k
    if r.st = 4 then
      { s with sec.keyRam := mdel s.sec.keyRam (c.val * 8192 + k.val) }.setKeyRec k { r with awAck := r.awAck.filter (· != c.val) }
    else s
/-- ZEROIZE_COMPLETE: every cell has acknowledged, and the slot is EMPTY. -/
def execZeroizeComplete (k : KeySlot) (s : State) : Outcome State Fault Refusal :=
  .next <|
    let r := s.keyRec k
    if r.st = 4 ∧ r.awAck.all (fun c => s.cellFenced (Cell.of c)) then
      let s := { s with
        sec.keyRam := mkeep (fun x _ => x % 8192 != k.val) s.sec.keyRam
        sec.loads := s.sec.loads.filter (fun x => x.2.1 != k.val) }
      (s.setKeyRec k {}).inc F.SEC_KEY_CNT_ZEROIZED
    else s
/-- KEY_GENERATE_COMPLETE (R281): a key with equal halves is discarded and another is drawn; with a health test failed no key is generated. The
halves of a key that is kept differ by the command's own verdict, as a draw is a free value. -/
def execKeyGenerateComplete (k : KeySlot) (equal : Bool) (s : State) : Outcome State Fault Refusal :=
  .next <|
    let r := s.keyRec k
    if !r.making ∨ !s.keysOk then s
    else
      let (n, s) := s.fresh
      if equal then s
      else
        let s := (s.setKeyRec k { r with making := false, key := BitVec.ofNat 512 (Config.freeRandom n), at_ := s.wall }).inc F.SEC_KEY_CNT_GENERATED
        ((s.sendLoads k).endRots).startWalkers
/-- KEYLOAD (R282): the cell unwraps the key under the transport key, and it enters the cell's key RAM; the walkers of a rotation start with the
last load of its new key (R287). -/
def execKeyload (c : Cell) (k : KeySlot) (s : State) : Outcome State Fault Refusal :=
  .next <|
    let r := s.keyRec k
    let mine (x : Nat × Nat × BitVec 576) : Bool := x.1 == c.val && x.2.1 == k.val
    match s.sec.loads.find? mine with
    | none => s
    | some x =>
      let s := { s with sec.loads := s.sec.loads.filter (fun x => !mine x) }
      match (if r.st = 0 ∨ r.st = 4 ∨ r.making then none else s.transportKey.bind (fun t => unwrapKey t x.2.2)) with
      | some key => { s with sec.keyRam := mput s.sec.keyRam (c.val * 8192 + k.val) key }.startWalkers
      | none => s
/-- HEALTH_TEST_FAIL (R281): no new key until the next IMAGE_LOAD; a class 0x11 entry. -/
def execHealthTestFail (drbg : Bool) (s : State) : Outcome State Fault Refusal :=
  .next <|
    let s := if drbg then s.wr F.SEC_STATUS_DRBG_FAIL 1 else s.wr F.SEC_STATUS_ENTROPY_FAIL 1
    (s.wr F.SEC_STATUS_READY 0).logFault 0x11 none 0xFFFF 0x000F (if drbg then 2 else 1) 0 false
/-- SEC_ROTATE_GO (R287, Table 9-18). -/
def State.rotateOp (s : State) : State :=
  if s.rdb F.SEC_ROTATE_BUSY then s
  else
    let o := s.rd F.SEC_ROTATE_OWNER + (if s.rdb F.SEC_ROTATE_GROUP then 4096 else 0)
    if s.sec.rots.length ≥ 64 then s.flag F.SEC_ROTATE_REFUSED
    else match s.startRot o true with
      | some s => s
      | none => (s.noKeyFor o).flag F.SEC_ROTATE_REFUSED
def execSecRotateGo (src : Src) (s : State) : Outcome State Fault Refusal :=
  .next (s.ifMay src F.SEC_ROTATE_GO 1 fun s => s.rotateOp)
/-- Core cycles in an hour. -/
def hourCyc : Nat := 3600 * 1000 * msCyc
/-- ROTATION_AGE_CHECK (R287): slots ACTIVE for ROT_PERIOD days rotate. -/
def execRotationAgeCheck (s : State) : Outcome State Fault Refusal :=
  .next <|
    let p := s.rd F.SEC_CFG_ROT_PERIOD
    if p = 0 then s
    else (s.sec.slots.filter (fun (e : Nat × KeyRec) => e.2.st == 1 && !e.2.making && decide ((s.wall - e.2.at_) / hourCyc ≥ 24 * p))).foldl
      (fun (s : State) e => 
        let o := e.2.owner + (if e.2.group then 4096 else 0)
        (s.startRot o false).getD (s.noKeyFor o)) s
/-- REKEY_BLOCK_ACK (R287): the block is rewritten on every side, a line read as poisoned as a poisoned one; the cursors advance and the writes held for the block go on; after the last block a MAP note
gives the extent its new slot. -/
def execRekeyBlockAck (e : Ext) (s : State) : Outcome State Fault Refusal :=
  .next <|
    match mget s.sec.walk e.val with
    | none => s
    | some w =>
      if w.block ≥ extBlocks then s
      else
        let new := ((s.sec.rots.find? (fun r => r.left.contains e.val)).map (·.new)).getD 8191
        let s := (s.extNow e).sides.foldl (fun (s : State) (m : Cell) => match s.devEnt m e with
          | some x => s.emit (.expRekey m (x.dev.val * 2 ^ 30 + (if m.val = w.cell then w.block else w.mirBlock) * 4096)
              ((x.key.map (·.val)).getD 8191) new)
          | none => s) s
        let w := { w with block := w.block + 1, mirBlock := w.mirBlock + 1 }
        let s := { s with sec.walk := mput s.sec.walk e.val w }.releaseHeld e
        if w.block < extBlocks then s
        else match s.sec.rots.find? (fun r => r.left.contains e.val) with
          | some r =>
            let dev := (s.extNow e).sides.filterMap (fun (m : Cell) =>
              (s.devEnt m e).map (fun x => (m.val, e.val, some { x with key := some (Fin.ofNat 8192 r.new) })))
            s.sendNote [] dev (.rekey e)
          | none => s

/-! ### The barrier (R277) -/

/-- The migration that a restore's barrier belongs to has been given up. -/
def State.barVoid (s : State) (g : BarFor) : Bool :=
  match g with
  | .restore i => (mget s.pool.migs i).isNone
  | _ => false
/-- BARRIER_SWAP: every entry of the change is active in one core cycle, and admission resumes. -/
def State.barSwap (s : State) (b : Barrier) : State :=
  let s := b.sets.foldl (fun (s : State) x =>
    if s.cellFenced (Cell.of x.1) ∨ s.barVoid b.goal then s
    else (if b.goal = .epoch ∧ x.2.2.isNone then s.keepWords x.1 x.2.1 else s).setRegion x.1 x.2.1 x.2.2) s
  (((s.endBarrier b).barDone b.goal).resumeDevices b.cells).resumeCopies b.insts
/-- The region shadows of an epoch whose barrier has run: applied, or refused with REASON 5. -/
def State.epochRegions (s : State) (b : Barrier) (ok : Bool) : State :=
  match b.goal, s.mgr.epoch with
  | .epoch, some e =>
    let isReg (a : Nat) : Bool := b.sets.any (fun x => F.PROT_REGION_at x.1 x.2.1 0 ≤ a && a < F.PROT_REGION_at x.1 x.2.1 0 + 32)
    let n := (e.shadows.filter (fun (x : Nat × (Nat × Nat)) => isReg x.1)).length
    let s := if ok then e.shadows.foldl (fun (s : State) (x : Nat × (Nat × Nat)) =>
        let c := x.1 / 0x100000 % 256
        let k := x.1 % 0x100000 - 0x54000
        if isReg x.1 ∧ (mget s.sec.region (c * 1024 + k / 32)).isNone then s.setReg x.1 (overlay (s.reg x.1) x.2) else s) s
      else s
    let sh := e.shadows.filter (fun (x : Nat × (Nat × Nat)) => !isReg x.1)
    { s with mgr.epoch := some { e with
        phase := .apply, shadows := sh, applied := e.applied + (if ok then n else 0), refused := e.refused + (if ok then 0 else n) } }
  | _, _ => s
/-- BARRIER_DRAINED: with the last cell's report the engine orders the swap, after a fence epoch that is open; a fenced cell has left the barrier
(R278). -/
def execBarrierDrained (c : Cell) (s : State) : Outcome State Fault Refusal :=
  .next <|
    match s.sec.barrier with
    | none => s
    | some b =>
      if !b.cells.contains c.val ∨ s.barrierBusy c b.insts then s
      else
        let b := { b with drained := if b.drained.contains c.val then b.drained else c.val :: b.drained }
        let s := s.wr (F.PROT_STATUS_BARRIER c) 2
        let s := { s with sec.barrier := some b }
        if !s.scrim.epochOpen && b.cells.all (fun x => b.drained.contains x || s.cellFenced (Cell.of x)) then
          ((s.barSwap b).epochRegions b true).nextCommit
        else s
/-- A change that belongs to an operation which has ended, or to the retirement of extents, is refused like any other, and is made again as a new
module commit (DESIGN CHOICE, log 150). -/
def State.again (s : State) (b : Barrier) : State :=
  match b.goal with
  | .srcGone _ => s.queueCommit b.goal b.insts b.sets
  | .retire _ _ _ => s.queueCommit b.goal b.insts b.sets
  | _ => s
/-- BARRIER_LIMIT_EXPIRY: no cell swaps, every cell resumes, and the change is refused with REASON 5. -/
def execBarrierLimitExpiry (c : Cell) (s : State) : Outcome State Fault Refusal :=
  .next <|
    match s.sec.barrier with
    | none => s
    | some b =>
      if !b.cells.contains c.val ∨ b.drained.contains c.val then s
      else
        let n := ((b.sets.find? (fun x => x.1 == c.val)).map (fun x => x.2.1)).getD 0
        let s := s.endBarrier b
        let s := if b.goal = .epoch then s.refuseRegions (firstEntries b.sets) 5 (c.val, n) (c.val, n) else s
        let s := s.logCommit 2 1 5 (some c) (F.PROT_REGION_at c n 0) 0 (4 * b.sets.length)
        ((((s.barRefused b.goal).epochRegions b false).resumeDevices b.cells).resumeCopies b.insts |>.again b).nextCommit

/-! ### Link encryption (R290) -/

/-- IDE_KM_KEY_SET: the stream's keys are programmed, and it becomes secure when IDE_KM orders it. On a MEMORY port the module draws and programs
them; on a HOST or DEVICE port it is the responder, and they are the link partner's. -/
def execIdeKmKeySet (p : Cell) (go : Bool) (s : State) : Outcome State Fault Refusal :=
  .next <|
    if (s.anchorOf p) ≠ p ∨ s.roleOf p = .idle ∨ s.roleOf p = .onora then s
    else
      let own := s.roleOf p == .memory
      let (n, s) := s.fresh
      let s := { s with sec.ide := mput s.sec.ide p.val { draw := n, byModule := own } }
      ((if own then s.emit (.ideKeys p) else s).sat (F.SEC_IDE_KEY_SETS p)).wr (F.SEC_IDE_STATE p) (if go then 2 else 1)

end Sys2Proof.Machine
end

