-- ==== Sys2Proof/Machine/Link.lean ====
section
/-! DEFINITION. Ports whose links come up and go down (spec/08 R229, R230, R238, R239, spec/10 R295 to R298, spec/12 R372,
spec/09 R290): training, the outcome for open work, lost expanders, and auto-bind rules. -/

namespace Sys2Proof.Machine
open Host

/-! ### Training (R295 to R298) -/

/-- Configured width W of a port. -/
def State.portWidth (s : State) (a : Cell) : Nat := 4 * s.portCells a
/-- RATE codes at which a role's protocol carries traffic (Table 10-1): CXL at 2.5 GT/s only trains and negotiates. -/
def ratesOf (r : Role) (pcie : Bool) : List Nat :=
  match r with
  | .host | .memory => [6, 5, 4, 3]
  | .device => if pcie then [6, 5, 4, 3, 2, 1] else [6, 5, 4, 3]
  | .onora => [7, 6]
  | .idle => []
/-- The highest rate both ends support, within MAX_RATE. -/
def trainRate (r : Role) (pcie : Bool) (partner max : Nat) : Nat :=
  ((ratesOf r pcie).find? (fun x => x ≤ partner && x ≤ max)).getD 0
/-- The widest width both ends support, within MAX_WIDTH. -/
def trainWidth (partner w : Nat) : Nat := ([16, 8, 4, 2, 1].find? (fun x => x ≤ partner && x ≤ w)).getD 0
/-- PROTO code: the 256 B flit runs only at 64 GT/s (R295). -/
def protoOf (r : Role) (pcie lopt : Bool) (rate : Nat) : Nat :=
  match r with
  | .onora => 5
  | .idle => 0
  | .device => if pcie then 4 else if rate = 6 then (if lopt then 3 else 2) else 1
  | _ => if rate = 6 then (if lopt then 3 else 2) else 1
/-- Mask of w lanes of a port of width W, at its low end or, reversed, at its high end. -/
def laneMask (W w : Nat) (rev : Bool) : Nat := if rev then (2 ^ w - 1) * 2 ^ (W - w) else 2 ^ w - 1
/-- The lane registers of a port follow the lanes in use, and PWR the port's state: 1 detect, 2 L0, 3 L1. -/
def State.showLanes (s : State) (a : Cell) (used pwr : Nat) : State :=
  let s := s.wr (F.LANE_PORT_STATUS_LANES_USED a) used
  let s := (List.range (s.portWidth a)).foldl (fun (s : State) j =>
    let l := 4 * a.val + j
    let on := used.testBit j
    let s := (s.wrb (F.LANE_STATUS_USED l) on).wrb (F.LANE_STATUS_CDR_LOCK l) on
    (s.wrb (F.LANE_STATUS_SIG_DET l) on).wr (F.LANE_STATUS_PWR l) (if on then pwr else 1)) s
  s.setDomains
/-- What equalisation left in a lane's transmitter (R299): a free draw among the taps and the presets that Table 10-2 allows, the outer
taps unused. -/
def State.equalise (s : State) (l : Nat) : State :=
  let (k, s) := s.fresh
  let r := Config.freeRandom k
  let m := r % 22
  let pre := r / 32 % (m + 1)
  let signed (x : Nat) : Nat := if x = 0 then 0 else 64 + x
  let s := (s.wr (F.LANE_TXEQ_PRESET l) (r / 1024 % 11)).wr (F.LANE_TXEQ_C_0 l) (63 - m)
  (((s.wr (F.LANE_TXEQ_C_M1 l) (signed pre)).wr (F.LANE_TXEQ_C_P1 l) (signed (m - pre))).wr (F.LANE_TXEQ_C_M2 l) 0).wr (F.LANE_TXEQ_C_P2 l) 0
/-- A port is in L0 at a width and rate. -/
def State.portL0 (s : State) (a : Cell) (w rate proto : Nat) (rev : Bool) : State :=
  let s := ((s.wr (F.LANE_PORT_STATUS_WIDTH a) w).wr (F.LANE_PORT_STATUS_RATE a) rate).wr (F.LANE_PORT_STATUS_PROTO a) proto
  let s := ((s.wr (F.LANE_PORT_STATUS_STATE a) 3).wrb (F.LANE_PORT_STATUS_REVERSED a) rev).wr (F.LANE_PORT_CTRL_BUSY a) 0
  s.showLanes a (laneMask (s.portWidth a) w rev) 2
/-- A port leaves its link for Detect, or another state; LINK_DOWNS counts departures from L0 to Detect. -/
def State.portOut (s : State) (a : Cell) (st : Nat) : State :=
  let was := s.rd (F.LANE_PORT_STATUS_STATE a)
  let s := if st = 1 ∧ (was = 3 ∨ was = 4 ∨ was = 5) then s.sat (F.LANE_PORT_EVT_LINK_DOWNS a) else s
  let s := ((s.wr (F.LANE_PORT_STATUS_WIDTH a) 0).wr (F.LANE_PORT_STATUS_RATE a) 0).wr (F.LANE_PORT_STATUS_PROTO a) 0
  let s := ((s.wr (F.LANE_PORT_STATUS_STATE a) st).wrb (F.LANE_PORT_STATUS_REVERSED a) false).wr (F.LANE_PORT_CTRL_BUSY a) 0
  { s.showLanes a 0 1 with lane.goal := mdel s.lane.goal a.val, lane.faultAt := mdel s.lane.faultAt a.val, lane.recAt := mdel s.lane.recAt a.val }
/-- The IDE stream ends and its keys are zeroized (R290). -/
def State.ideOff (s : State) (a : Cell) (st : Nat) : State :=
  let s := { s with sec.ide := mdel s.sec.ide a.val }
  if s.rd (F.SEC_IDE_STATE a) = 0 then s else s.wr (F.SEC_IDE_STATE a) st

/-! ### Open work of a port (Table 12-4) -/

/-- Every open slot of the port's cells discards its response. -/
def State.discardSlots (s : State) (a : Cell) : State :=
  let ms := (s.portMembers a).map (·.val)
  { s with xbar.slots := s.xbar.slots.map (fun (e : Nat × TSlot) => if ms.contains (e.1 / 1024) then (e.1, { e.2 with discard := true }) else e) }
/-- The first auto-bind rules that match a trigger at a port, in image order (R239). -/
def State.rulesFor (s : State) (trigger : Nat) (a : Cell) : List AbRule :=
  s.img.rules.filter (fun r => r.trigger == trigger && (r.port == a.val || r.port == 0x7F))
/-- R238: the instances of a lost host port become ORPHANED, or are unbound. A migration of which it is the source and that
has not saved is aborted with RESULT 5 (Table 8-9). -/
def State.hostLost (s : State) (a : Cell) : State :=
  let release := ((s.rulesFor 2 a).head?.map (·.release)).getD false
  (s.boundVppbs a).foldl (fun (s : State) x =>
    let i := x.2
    let s := match mget s.pool.migs i with
      | some m => if m.srcPort = a.val ∧ s.rd (F.INST_MIG_STATUS_STEP i) ≤ 4 then (s.migBack i 5).nextCommit else s
      | none => s
    -- a target anchor fenced after the thaw leaves the instance BOUND there (Table 8-9)
    let thawed : Bool := match mget s.pool.migs i with
      | some m => m.thawed && m.tPort == a.val && s.cellFenced a
      | none => false
    if s.instSt i ≠ 3 ∨ s.rd (F.INST_INFO_HOST_PORT i) ≠ a.val ∨ thawed then s
    else if release then s.unbindOp i 2 false
    else s.wr (F.INST_INFO_STATE i) 9) s
/-- Held accesses of a lost host link: reads are dropped, writes stay. -/
def State.holdsGone (s : State) (a : Cell) : State :=
  let l := mgetD [] s.pool.hold a.val
  let keep := l.filter (fun h => !readOpc h.p.opc)
  let s := (l.filter (fun h => readOpc h.p.opc && h.dpa.isSome)).foldl (fun (s : State) h => s.dec (F.INST_USE_HELD h.p.inst)) s
  let s := { s with pool.hold := mset [] s.pool.hold a.val (keep.map (fun (h : Held) => { h with gone := true })) }
  s.wr (F.INST_PORT_STATUS_HOLD_USED a) keep.length
/-- A lease held through the port is lost (R460). -/
def State.leaseGone (s : State) (a : Cell) : State :=
  match s.mgr.holder with
  | some (.mctp p _) => if s.anchorOf p = a then s.loseLease else s
  | _ => s
/-- A host link is down: admitted work runs on and its responses are discarded, held reads go (their answer would be), held
writes stay to be performed, and open BISnps of its slot follow R181 in the cells of its domain, where slot numbers are unique (R156); a twin's
loss reaches the homes as notes (R210). -/
def State.hostDown (s : State) (a : Cell) : State :=
  let hs := s.hslotOf a
  let s := (s.holdsGone a).discardSlots a
  let s := (s.domainOf a).foldl (fun (s : State) c => if (s.twinOf c hs).isNone && hs.val < 96 then s.slotGone c hs else s) s
  let s := (s.emit (.linkFailure a)).hostLost a
  let s := (List.range 64).foldl (fun (s : State) v => s.slotOff a v) s
  s.leaseGone a
/-- The anchor of a lost link notes the loss of a slot with a twin to every cell (R210). -/
def State.twinNote (s : State) (a : Cell) : State :=
  let hs := s.hslotOf a
  if hs.val < 96 ∧ (s.twinOf a hs).isSome then s.emit (.twinNote a hs) else s
/-- What a host's request to a device that is gone completes with: Unsupported Request, and poison for a CXL.mem read (PRESUMED, log 18). -/
def goneResp (p : Pkt) : Option Resp :=
  match p.opc with
  | .cxlio => some (.ioCpl [] true)
  | .pass false 3 => some (.pass { p with opc := .pass false 1, mv := .E, len := 1, data := [0], pois := 1 })
  | .pass false v => some (.pass { p with opc := .pass false v, mv := .E, len := 0, data := [] })
  | _ => none
/-- A device link is down: requests toward the device complete, and the device's own requests run
on with their responses discarded. Its requests that wait for a barrier are dropped (DESIGN CHOICE, log 18). -/
def State.deviceDown (s : State) (a : Cell) : State :=
  let s := s.discardSlots a
  { s with
    pool.devHeld := mdel s.pool.devHeld a.val
    xbar.slots := s.xbar.slots.map (fun (e : Nat × TSlot) =>
      if e.2.io ∧ e.2.dev.isNone ∧ s.anchorOf e.2.hdr.dst = a ∧ e.2.resp.isNone then (e.1, { e.2 with resp := goneResp e.2.hdr }) else e) }

/-! ### Lost expanders (R229, R230) -/

/-- The open accesses of a cell whose expander is lost: those of mirrored extents go to the other side, the others complete
at once (R229, R230). -/
def State.moveOpen (s : State) (c : Cell) : State :=
  (s.pool.acc.filter (fun (e : Nat × MemAcc) => e.2.cell == c && (e.2.awOwn || e.2.held) && !e.2.flush)).foldl (fun (s : State) e =>
    let a := e.2
    let other := if a.of_.isNone then s.liveSide c a.p.ext else none
    if a.spec then s.dropAcc e.1
    else if a.write then
      match other with
      | some o =>
        if a.awSides > 0 then s.setAcc e.1 { a with awOwn := false }
        else (s.setAcc e.1 { a with awOwn := false, held := false, rmw := false, awSides := 1 }).send { a.p with opc := .wdata, src := c, dst := o }
      | none => if a.of_.isSome then s.writeStep e.1 { a with awOwn := false }
          else ((s.dropAcc e.1).sat (F.INST_MEM_ERR_LOST_ACC c)).answerWrite c a.p
    else match a.of_ with
      | some n => match mget s.pool.acc n with
        | some b => ((s.dropAcc e.1).dropAcc n).answerPoison b.cell b.p
        | none => s.dropAcc e.1
      | none => match other with
        | some o => (s.setAcc e.1 { a with awOwn := false, awSides := 1, retried := true }).send { a.p with opc := .mrd, src := c, dst := o }
        | none => ((s.dropAcc e.1).sat (F.INST_MEM_ERR_LOST_ACC c)).answerPoison c a.p) s
/-- Extents change state because of a fault: in the open fence epoch's successor, or in an epoch of their own (R229). -/
def State.faultChange (s : State) (l : List (Nat × ExtEnt)) : State :=
  if l.isEmpty then s
  else if s.scrim.epochOpen then { s with scrim.extNext := s.scrim.extNext ++ l }
  else { (s.openEpoch [] []) with scrim.extChg := l }
/-- Press parts, scrubs and walkers that used a side at cell c (R256, R258, R288). -/
def State.enginesLose (s : State) (c : Cell) (l : List (Nat × ExtEnt)) : State :=
  let hit (e : Nat) : Bool := l.any (fun x => x.1 == e)
  let gone (e : Nat) : Bool := l.any (fun x => x.1 == e && x.2.st == ExtSt.lost)
  let s := s.pool.press.foldl (fun (s : State) (o : Nat × PressOp) =>
    let parts := o.2.parts.map (fun (q : Nat × PressPart) =>
      if q.2.ended then q
      else if q.2.destCell = c.val then (q.1, { q.2 with code := 6, ended := true })
      else if q.2.src = c.val then (q.1, { q.2 with code := 7, ended := true })
      else q)
    if parts = o.2.parts then s else { s with pool.press := mput s.pool.press o.1 { o.2 with parts := parts } }.pressCheck o.1) s
  let s := { s with
    pool.scrub := s.pool.scrub.map (fun (e : Nat × Scrub) => if hit e.1 then (e.1, { e.2 with block := 0 }) else e)
    sec.walk := (s.sec.walk.filter (fun (w : Nat × Walker) => !gone w.1)).map (fun (w : Nat × Walker) =>
      if w.2.cell = c.val then (w.1, match l.find? (fun (x : Nat × ExtEnt) => x.1 == w.1) with
        | some x => { cell := x.2.mcell.val, block := w.2.mirBlock, mirBlock := 0 }
        | none => w.2) else w)
    sec.rots := s.sec.rots.map (fun (r : Rot) => { r with left := r.left.filter (fun e => !gone e) }) }
  s.endRots
/-- The accesses of a fenced cell are gone; those of other cells await no side there any more. -/
def State.dropAccs (s : State) (c : Cell) : State :=
  let kids := (s.pool.acc.filter (fun (e : Nat × MemAcc) => e.2.cell == c)).filterMap (fun (e : Nat × MemAcc) => e.2.of_)
  let sent := (s.pool.acc.filter (fun (e : Nat × MemAcc) => e.2.cell != c && e.2.awSides > 0
    && s.scrim.flight.any (fun f => f.p.dst == c && f.p.src == e.2.cell && f.p.line == e.2.p.line
      && (f.p.opc == (if e.2.write then Opc.wdata else Opc.mrd))))).map (·.1)
  let s := { s with pool.acc := s.pool.acc.filter (fun (e : Nat × MemAcc) => e.2.cell != c) }
  (kids ++ sent).foldl (fun (s : State) n => match mget s.pool.acc n with
    | some a => if a.write then s.writeStep n { a with awSides := a.awSides - 1 } else (s.dropAcc n).answerPoison a.cell a.p
    | none => s) s
/-- The sides of cell c are lost: maps, open work, engines and events (R229, R230). `alive`: the cell itself is not fenced. -/
def State.loseSides (s : State) (c : Cell) (alive : Bool) : State × List (Nat × ExtEnt) :=
  let exts := (s.home.ext.filter (fun (e : Nat × ExtEnt) => e.1 / 65536 == s.refCell.val)).map (fun (e : Nat × ExtEnt) => e.1 % 65536)
  let l := exts.filterMap (fun e => ((s.extNow e).lose c).map (fun x => (e, x)))
  let serial := ((mget s.pool.expander c.val).map (·.serial)).getD 0
  let s := l.foldl (fun (s : State) x => match s.devEnt c x.1 with
    | some d => { s with pool.was := mput s.pool.was (2 * x.1 + d.side.val) (serial, d.dev.val) }
    | none => s) s
  let s := { s with
    pool.lost := if s.pool.lost.contains c.val then s.pool.lost else s.pool.lost ++ [c.val]
    pool.repl := mkeep (fun _ k => k / 4096 != c.val) s.pool.repl }
  let s := l.foldl (fun (s : State) x => s.extEvent (s.extNow x.1) (if x.2.st = .lost then 2 else 3)) s
  let s := if alive then s.moveOpen c else s.dropAccs c
  (s.enginesLose c l, l)

/-! ### The commands -/

/-- The link of a port is down for its role: a class 0x09, 0x0A or 0x0B entry and Table 12-4. -/
def State.roleDown (s : State) (a : Cell) : State :=
  match s.roleOf a with
  | .host => ((s.logFault 0x09 (some a) a.val 0x0009 a.val a.val true none (s.portLast a)).hostDown a).twinNote a
  | .device => (s.logFault 0x0B (some a) a.val 0x0009 a.val a.val true).deviceDown a
  | .memory =>
    let run := s.rd F.PKG_FAULT_STATUS_STEP != 0
    let (t, l) := s.loseSides a true
    let t := t.logFault 0x0A (some a) a.val 0x0009 a.val a.val (l.any (fun x => x.2.st == .lost)) none (s.portLast a)
    let t := if run then t else (t.beginRecovery 0x0A).logStep 1
    { t.faultChange l with pool.expander := mdel t.pool.expander a.val }
  | _ => s
/-- The link of a port leaves L0 for Detect, or for another state of LANE_PORT_STATUS. -/
def State.linkDown (s : State) (a : Cell) (st ide : Nat) : State := ((s.portOut a st).ideOff a ide).roleDown a
/-- A link-down of the port anchored at c, if it has that role. -/
def State.downAs (s : State) (c : Cell) (r : Role) : State :=
  if s.roleOf c = r ∧ s.anchorOf c = c then s.linkDown c 1 0 else s
/-- HOST_LINK_DOWN (R238, R372). -/
def execHostLinkDown (c : Cell) (s : State) : Outcome State Fault Refusal := .next (s.downAs c .host)
/-- EXPANDER_LINK_DOWN (R229, R230). -/
def execExpanderLinkDown (c : Cell) (s : State) : Outcome State Fault Refusal := .next (s.downAs c .memory)
/-- DEVICE_LINK_DOWN (R372). -/
def execDeviceLinkDown (c : Cell) (s : State) : Outcome State Fault Refusal := .next (s.downAs c .device)
/-- IDE_INTEGRITY_FAILURE (R290): the stream is insecure, the link goes down as its role has it, and the keys are gone. -/
def execIdeIntegrityFailure (p : Cell) (s : State) : Outcome State Fault Refusal :=
  .next <|
    if s.rd (F.SEC_IDE_STATE p) = 0 ∨ s.rd (F.SEC_IDE_STATE p) = 3 then s
    else ({ s with sec.ide := mdel s.sec.ide p.val }.sat (F.SEC_IDE_FAILS p)).linkDown p 1 3

/-! ### Auto-bind (R239) -/

/-- The lowest instance number whose STATE is 0, FREE. -/
def State.freeNumber (s : State) : Option Nat := (List.range 4096).find? (fun i => s.instSt i == 0)
/-- A new instance of template t bound to vPPB v. -/
def State.bindOne (s : State) (a : Cell) (t v : Nat) : Option State :=
  match s.freeNumber with
  | none => none
  | some i =>
    if v ≥ 64 ∨ s.rd (F.INST_VPPB_KIND a v) ≠ 0 ∨ (s.boundVppbs a).length ≥ 64 then none
    else (s.defineInst i t).map (fun s => s.bindOp i a v)
/-- Binds COUNT new instances of a template to vPPBs that follow one another; none where it cannot be carried out. -/
def State.bindNew (s : State) (a : Cell) (t v : Nat) : Nat → Option State
  | 0 => some s
  | n + 1 => (s.bindOne a t v).bind (fun s => s.bindNew a t (v + 1) n)
/-- The device extents of a cell that no entry names and no lost side of the same expander held. -/
def State.freeDev (s : State) (c : Cell) (x : Expander) : List Nat :=
  (List.range x.exts.val).filter (fun d =>
    !s.pool.dev.any (fun (e : Nat × DevEnt) => e.1 / 65536 == c.val && e.2.dev.val == d)
      && !s.pool.was.any (fun (e : Nat × (BitVec 64 × Nat)) => e.2.1 == x.serial && e.2.2 == d))
/-- The lowest n free extent numbers. -/
def State.freeExts (s : State) (n : Nat) : List Nat :=
  ((List.range 65536).filter (fun e => s.lifeOf e == 0 && (s.extNow e).st == .free)).take n
/-- New pool extents, RETIRED, at the lowest free numbers (R239): (cell, device extent) of each side. -/
def State.addExts (s : State) (l : List ((Cell × Nat) × Option (Cell × Nat))) : State :=
  ((s.freeExts l.length).zip l).foldl (fun (s : State) (x : Nat × ((Cell × Nat) × Option (Cell × Nat))) =>
    let e := x.1
    let (c, d) := x.2.1
    let ent : ExtEnt := match x.2.2 with
      | some (m, _) => { st := .mirrored, mcell := c, mcell2 := m }
      | none => { st := .unmirrored, mcell := c }
    let dev := (c.val, e, some ({ side := 0, key := none, dev := Fin.ofNat 4096 d } : DevEnt)) ::
      (match x.2.2 with
       | some (m, dm) => [(m.val, e, some ({ side := 1, key := none, dev := Fin.ofNat 4096 dm } : DevEnt))]
       | none => [])
    (s.sendNote [(e, ent)] dev .none).setLife e 2) s
/-- The device extents that a MEMORY_ADD rule gives to SINGLE extents as replacement sides, before the others become capacity (R231): to those whose
former side is not back, whose surviving side lies on another die, on the rule's partner where it has one, the lowest first. Answers the device
extents that are left. -/
def State.chooseRepl (s : State) (c : Cell) (r : AbRule) (free : List Nat) : State × List Nat :=
  let exts := (s.home.ext.filter (fun (e : Nat × ExtEnt) => e.1 / 65536 == s.refCell.val)).map (fun (e : Nat × ExtEnt) => e.1 % 65536)
  let back (e : Nat) : Bool := [2 * e, 2 * e + 1].any (fun k => (mget s.pool.was k).any (fun w =>
    s.pool.expander.any (fun (x : Nat × Expander) => x.2.serial == w.1)))
  let want := exts.filter (fun e => let x := s.extNow e
    x.st == .single && dieOf x.mcell != dieOf c && (!r.mirrored || x.mcell.val == r.partner) && (mget s.pool.repl e).isNone && !back e)
  ({ s with pool.repl := (want.zip free).foldl (fun (m : NMap Nat) x => mput m x.1 (c.val * 4096 + x.2)) s.pool.repl }, free.drop want.length)
/-- MEMORY_ADD: the expander's decoder is programmed, and its free extents join the pool in the rule's class. -/
def State.memoryAdd (s : State) (c : Cell) (x : Expander) (r : AbRule) : Option State :=
  let (s, mine) := s.chooseRepl c r (s.freeDev c x)
  let s := s.emit (.expDecoder c)
  if r.mirrored then
    let m := Cell.of r.partner
    match mget s.pool.expander m.val with
    | none => none
    | some y =>
      if r.partner ≥ 128 ∨ m = c ∨ s.roleOf m ≠ .memory ∨ dieOf m = dieOf c ∨ s.pool.lost.contains m.val then none
      else
        let theirs := s.freeDev m y
        some (s.addExts ((mine.filter (fun d => theirs.contains d)).map (fun d => ((c, d), some (m, d)))))
  else some (s.addExts (mine.map (fun d => ((c, d), none))))
/-- DEVICE_ADD: the device is bound to its target vPPB, and the target's region entries go to its cell (R219, R266). -/
def State.deviceAdd (s : State) (c : Cell) (r : AbRule) : Option State :=
  if s.roleOf (Cell.of r.tPort) ≠ .host ∨ r.tVppb ≥ 64 ∨ s.rd (F.INST_VPPB_KIND r.tPort r.tVppb) ≠ 0 ∨ (s.deviceVcs c.val).isSome then none
  else
    let s := (s.wr (F.INST_VPPB_KIND r.tPort r.tVppb) 2).wr (F.INST_VPPB_STATE r.tPort r.tVppb) 2
    let s := (s.wr (F.INST_VPPB_TARGET r.tPort r.tVppb) c).emit (.hotAdd (Cell.of r.tPort) r.tVppb)
    let is := (s.boundVppbs r.tPort).map (·.2)
    let free := (List.range 1024).filter (fun n => !((s.regions c).map (·.1)).contains n)
    let sets := ((is.flatMap (fun i => (s.owner i).regions)).zip free).map (fun x => (c.val, x.2, some x.1))
    if free.length < (is.flatMap (fun i => (s.owner i).regions)).length then none else some (s.regionCommit (.srcGone (is.headD 0)) is sets)
/-- The first of a list of rules that can be carried out; each one skipped before it is logged. -/
def State.tryRules (s : State) (trigger : Nat) (c : Cell) (run : State → AbRule → Option State) : List AbRule → State
  | [] => s
  | r :: t => match run s r with
    | some s => s
    | none => (s.logEvent .ruleSkipped trigger c.val).tryRules trigger c run t
/-- AUTO_BIND_EVALUATE (R239): the first matching rule that can be carried out. -/
def State.autoBind (s : State) (trigger : Nat) (c : Cell) (run : State → AbRule → Option State) : State :=
  if s.activeSp.isNone then s else s.tryRules trigger c run (s.rulesFor trigger c)

/-- PORT_LINK_UP: a configured port trains as both ends allow, and its role's trigger is raised. -/
def execPortLinkUp (c : Cell) (x : LinkUp) (s : State) : Outcome State Fault Refusal :=
  .next <|
    let r := s.roleOf c
    let rate := trainRate r x.pcie x.rate (s.rd (F.LANE_PORT_CFG_MAX_RATE c))
    let w := trainWidth x.width (s.rd (F.LANE_PORT_CFG_MAX_WIDTH c))
    let noRef := s.rdb (F.LANE_PORT_STATUS_REF_LOST c) && !s.rdb (F.LANE_PORT_STATUS_REF_SRC c)
    if r = .idle ∨ r = .onora ∨ s.anchorOf c ≠ c ∨ !portsOn s.mode ∨ s.cellFenced c ∨ noRef ∨ rate = 0 ∨ w = 0
        ∨ (3 ≤ s.rd (F.LANE_PORT_STATUS_STATE c) ∧ s.rd (F.LANE_PORT_STATUS_STATE c) ≤ 6) then s
    else
      let rev := x.reverses && x.rev
      let s := s.portL0 c w rate (protoOf r x.pcie x.lopt rate) rev
      let s := { s with lane.reverses := if x.reverses then c.val :: s.lane.reverses.filter (· != c.val) else s.lane.reverses.filter (· != c.val) }
      let s := ((List.range (s.portWidth c)).filter (laneMask (s.portWidth c) w rev).testBit).foldl (fun (s : State) j =>
        (s.wrb (F.LANE_STATUS_POL_INV (4 * c.val + j)) (x.polInv.getLsbD j)).equalise (4 * c.val + j)) s
      match r with
      | .host =>
        let hs := s.hslotOf c
        -- R210: the two are two holders again once no cell of the port is fenced
        let s := if (s.portMembers c).any s.cellFenced then s
          else { s with home.twinLost := s.home.twinLost.filter (fun n => n % 128 != hs.val || !(s.domainOf c).contains (Cell.of (n / 128))) }
        let s := (s.boundVppbs c).foldl (fun (s : State) v => if s.instSt v.2 = 9 then s.wr (F.INST_INFO_STATE v.2) 3 else s) s
        s.autoBind 1 c (fun s r => s.bindNew c r.template r.vppb r.count)
      | .memory =>
        let s := { s with
          pool.expander := mput s.pool.expander c.val x.exp
          pool.lost := s.pool.lost.filter (· != c.val) }
        s.autoBind 3 c (fun s r => s.memoryAdd c x.exp r)
      | .device => s.autoBind 5 c (fun s r => s.deviceAdd c r)
      | _ => s

end Sys2Proof.Machine
end

