-- ==== Sys2Proof/Machine/Reissue.lean ====
section
/-! DEFINITION. Discard and re-issue (spec/03 R83, R86, spec/12 R366 to R371): a request that lost a packet goes out again
under its tag. -/

namespace Sys2Proof.Machine
open Host (Outcome)

/-- A request lost at generation 7 ends (R83): a read completes with poison, any other gets no completion, and the slot
stays allocated for 1 ms. -/
def State.exhaust (s : State) (c : Cell) (k : Slot) (t : TSlot) : State :=
  let s := s.logFault 0x12 (some c) k.val 0x0010 k.val k.val true
  let (n, s) := s.fresh
  let r : Option Resp := match t.dev, t.hdr.opc with
    | some d, _ => if d.req.write then none else some (.ioCpl (d.data ++ [Config.freeLine n]) false true)
    | none, .cxlio => if t.wdata.isEmpty then some (.ioCpl [Config.freeLine n] false true) else none
    | none, .pass cache 3 =>
      -- a CXL.cache request to the host is taken to be a read (log 115)
      if cache || [Opc.rds, .rda, .rdi].any (fun o => o.code == t.hdr.mcell.val) then
        some (.pass { t.hdr with opc := .pass cache 1, mv := .E, len := 1, data := [Config.freeLine n], pois := 1 })
      else none
    | none, o => if readOpc o then some (.memData .I (Config.freeLine n) true) else none
  (s.setSlot c k { t with ended := some s.cyc, resp := r, granted := none, grantBy := none }).reissueDone c k
/-- The check of a re-issue against the region table active now (R270): none where the line of a request to an instance is permitted, or there
is no line to check; otherwise the REASON. -/
def State.reissueDenied (s : State) (t : TSlot) : Option Nat :=
  let v : Option Verdict := match t.dev, t.dpa with
    | some d, _ => some (s.check d.cell (s.devAcc d.cell d.req t.hdr.inst) (d.dpa / 64 + d.next) false)
    | none, some l => some (s.check t.port { inst := t.hdr.inst, priv := t.hdr.priv, dev := false, opc := t.hdr.opc } l false)
    | none, none => none
  match v with
  | some (.deny r) => some r
  | _ => none
/-- A request whose re-issue is denied is answered in silence, as R269 answers it, with its violation record: a device's goes on with its next
line. -/
def State.reissueRefused (s : State) (c : Cell) (k : Slot) (t : TSlot) (r : Nat) : State :=
  let s := s.reissueDone c k
  match t.dev with
  | some d =>
    (s.setSlot c k { t with rdata := none, granted := none, grantBy := none, wgo := none,
                            dev := some { d with next := d.next + 1, data := if d.req.write then [] else d.data ++ [0] } }).devStep c k (d.lines - d.next)
  | none =>
    (s.violate c
      { time := 0, inst := t.hdr.inst.val, requester := t.hdr.priv.toNat, cell := 0, port := t.port.val, access := accessCode t.hdr.opc, reason := r,
        parts := 1, denied := 1, addr := (t.dpa.getD 0) * 64, len := 64, deniedBytes := 64 }).setSlot c k
      { t with resp := some (silentResp t.hdr.opc), silent := true, granted := none, grantBy := none }
/-- A request is issued again under the same slot and tag with GEN + 1 (R83): to the home its line has now, or by the owner
proxy of its port; it is checked again first (R270). The sixth re-issue leaves a warning (R370). One whose response only waits to leave lost nothing. -/
def State.reissue (s : State) (c : Cell) (k : Slot) (t : TSlot) : State :=
  if t.resp.isSome ∨ t.ended.isSome ∨ (t.dev.map (·.held)).getD false then s
  else if t.hdr.gen = 7 then s.exhaust c k t
  else match s.reissueDenied { t with hdr := { t.hdr with gen := t.hdr.gen + 1 } } with
  | some r => s.reissueRefused c k { t with hdr := { t.hdr with gen := t.hdr.gen + 1 } } r
  | none =>
    let g : Gen := t.hdr.gen + 1
    let s := (s.sat (F.XBAR_TRACK_REISSUES c)).ctrEvent c 0x03 [t.hdr.tc.val] 1 true (Pkt.named t.hdr)
    let s := if g = 6 then s.logFault 0x12 (some c) k.val 0x0010 k.val k.val false else s
    let q := { t.hdr with gen := g, reissue := true }
    let id := c.val * 1024 + k.val
    let s := if s.log.reissued.contains id then s else { s with log.reissued := s.log.reissued ++ [id] }
    let s := s.setSlot c k { t with hdr := q, granted := none, grantBy := none }
    if t.io && t.dev.isNone then s.send { q with data := t.wdata }
    else match s.txnOfTag t.port q with
      | some (id, x) => if x.proxy then s.proxyAdopt t.port id x q else s.send { q with dst := s.homeOf c q.line }
      | none => match s.proxyOrder t.port { q with dst := s.homeOf c q.line } with
        | some s => s.setSlot c k { t with hdr := q, granted := none, grantBy := none, egress := t.port }
        | none => (s.setSlot c k { t with hdr := q, granted := none, grantBy := none, egress := s.homeOf c q.line }).send
            { q with dst := s.homeOf c q.line }
/-- The open slots of a cell in order of admission (R86). -/
def State.openSlots (s : State) (c : Cell) : List (Slot × TSlot) :=
  let l := (s.xbar.slots.filter (fun (e : Nat × TSlot) => e.1 / 1024 == c.val)).map (fun (e : Nat × TSlot) => ((Fin.ofNat 1024 e.1 : Slot), e.2))
  l.mergeSort (fun a b => decide (a.2.at_ ≤ b.2.at_))
/-- The sweep of an originating cell (R367): the slots that a test picks are re-issued. -/
def State.sweepCell (s : State) (c : Cell) (hit : Slot → TSlot → Bool) : State :=
  if s.cellFenced c then s
  else (s.openSlots c).foldl (fun (s : State) x => if hit x.1 x.2 then s.reissue c x.1 x.2 else s) s

/-! ### Frames absorbed outside a fence epoch (R69, R98, R99, R130) -/

/-- One of some packets carries the tag and generation of a slot. -/
def tagHit (ps : List Pkt) (c : Cell) (k : Slot) (t : TSlot) : Bool :=
  ps.any (fun (p : Pkt) => p.tagCell == c && p.tagSlot == k && p.gen == t.hdr.gen)
/-- Re-issues of the requests whose tag and generation some packets carry, cell by cell in order of admission. -/
def State.reissueTags (s : State) (ps : List Pkt) : State :=
  ((ps.map (·.tagCell)).dedup).foldl (fun (s : State) (c : Cell) =>
    s.sweepCell c (tagHit ps c)) s
/-- Packets absorbed outside a fence epoch, and with no note of one on its way, are re-issued at once; any other waits for the close
(R69, R367). -/
def State.settleLost (s : State) : State :=
  if s.scrim.epochOpen || s.scrim.notes != [] || s.scrim.nextNotes != [] then s
  else
    let ps := s.spill.lost
    ({ s with spill.lost := [] }).reissueTags ps
/-- SCRIM_UNIT_RECEIVE (R50 to R59, R66, R67, R71): a router receives a unit, checks it, and forwards or delivers it. -/
def execScrimUnitReceive (c : Cell) (d : Dir) (p : Pkt) (u : Fin 65) (ecc : Ecc) (hcrcOk vcOk : Bool) (s : State) :
    Outcome State Fault Refusal :=
  .next ((s.takeUnit c d p u.val ecc hcrcOk vcOk).settleLost)
/-- FRAME_ARRIVE (R84, R91 to R97). -/
def execFrameArrive (c : Cell) (i o : Fin 10) (p : Pkt) (got : Fin 65) (x : ArriveIn) (s : State) : Outcome State Fault Refusal :=
  .next <|
    if !s.endsOk i o p then s
    else
      -- a frame from outside passes the port's receive crossing (R115): one that the port has taken as a request has
      let s := if i.val = 0 && !((s.roleOf c == .host || s.roleOf c == .device) && s.scrim.flight.any (fun f => f.p.same p)) then
        s.xingPass (F.SPILL_XING_CELL_at c 0) (1 + p.len.val) else s
      -- a frame that enters at PORT is copied as it enters (R110), after what SAMP holds
      let s := if i.val = 0 then s.mirrorStart c p false (x.sampBusy || s.sampPends c) x.mirCredit else s
      (s.frameArrive c i o { p := p, cyc := s.cyc, got := min got.val p.len.val, enq := s.ns, bad := x.bad }).settleLost
/-- FRAME_START (R87 to R90, R136): one matching round of the cell, and every start it gives. -/
def execFrameStart (c : Cell) (x : StartIn) (s : State) : Outcome State Fault Refusal := .next ((s.round c x).settleLost)
/-- CHUNK_GRANT (R101, R122): the controller grants chunk n, or refuses and counts; a tail that waits goes on. -/
def execChunkGrant (c : Cell) (n : Fin 1572864) (bad : BitVec 129) (s : State) : Outcome State Fault Refusal :=
  .next <|
    let k := s.spillStack c
    let d := stackDie k
    let key := k * 2 ^ 21 + n.val
    if (s.spare c).length ≥ 4 || (mget s.spill.granted key).isSome || s.stackFenced k then s
    else if !s.chunkOk c then s.sat (F.SPILL_STACK_ERR_GRANT_REFUSED d)
    else
      let s := { s with spill.granted := mput s.spill.granted key c.val }.showShare c k
      (((s.markWaiting c bad).setSpare c (s.spare c ++ [n.val])).writeWaiting c).settleLost
/-- SPILL_READ_RETURN (R97, R127 to R130). -/
def execSpillReadReturn (c : Cell) (n : Fin 64) (r : SpillIn) (s : State) : Outcome State Fault Refusal :=
  .next ((s.spillReturn c n r).settleLost)

end Sys2Proof.Machine
end

