-- ==== Sys2Proof/Machine/Onl.lean ====
section
/-! DEFINITION. The commands of Onora links and the chain (spec/11): frames, replay, credits, training, link pairs and their
failover, advertisements and routes, probes, blobs and keys, packets in transit, and exported capacity. -/

namespace Sys2Proof.Machine
open Host

/-! ### Links come up (R337, R340, R342) -/

/-- BUSY of a RETRAIN ends (Table 11-12). -/
def State.trainEnds (s : State) (a : Cell) : State := s.wr (F.ONL_CTRL_BUSY a) 0
/-- The lanes an ONORA port may use: all of them, or the sound half of a x16 port with FAULTY lanes; none: the port stays DOWN
(R344). Width, and whether it is reversed. -/
def State.onlWidth (s : State) (a : Cell) : Option (Nat × Bool) :=
  let w := s.portWidth a
  let f := s.rd (F.LANE_PORT_STATUS_LANES_FAULTY a)
  if f = 0 then some (w, false)
  else if w < 16 then none
  else if f % 256 = 0 then some (8, false)
  else if f / 256 = 0 then some (8, true)
  else none
/-- Training begins in DETECT. -/
def State.trainStart (s : State) (a : Cell) : State :=
  match s.onlWidth a with
  | none => ((s.wr (F.ONL_STATUS_LINK_STATE a) 0).wr (F.ONL_STATUS_TRAIN_STATE a) 0).wr (F.LANE_PORT_CTRL_BUSY a) 0
  | some _ =>
    let s := (s.wr (F.ONL_STATUS_LINK_STATE a) 1).wr (F.ONL_STATUS_TRAIN_STATE a) 1
    { s.wr (F.LANE_PORT_STATUS_STATE a) 2 with
      onl.fast := s.onl.fast.filter (· != a.val)
      onl.tcrc := mkeep (fun k _ => k / 4 < a.val || a.val + s.portCells a ≤ k / 4) s.onl.tcrc
      onl.reqId := mkeep (fun k _ => k / 4 < a.val || a.val + s.portCells a ≤ k / 4) s.onl.reqId }
/-- A training fails (R340): the link is LATCHED after TRAIN_RETRIES failures in a row, and else waits to retry. -/
def State.trainFail (s : State) (a : Cell) : State :=
  let n := mgetD 0 s.onl.fails a.val + 1
  let s := { s with onl.fails := mset 0 s.onl.fails a.val n,
                      onl.tcrc := mkeep (fun k _ => k / 4 < a.val || a.val + s.portCells a ≤ k / 4) s.onl.tcrc }
  let s := ((s.sat (F.ONL_TRAIN_FAILS a)).wr (F.ONL_STATUS_TRAIN_STATE a) 0).trainEnds a
  (s.wr (F.LANE_PORT_STATUS_STATE a) 1).wr (F.ONL_STATUS_LINK_STATE a) (if n ≥ max 1 (s.rd (F.ONL_CFG_TRAIN_RETRIES a)) then 5 else 0)
/-- The coefficients of a preset (Table 11-8): c−2, c−1, c0, c+1, c+2. -/
def onlPreset (n : Nat) : List Nat :=
  ([[0, 0, 63, 0, 0], [0, 0, 55, 8, 0], [0, 0, 48, 15, 0], [0, 6, 45, 12, 0], [0, 8, 44, 11, 0], [2, 8, 42, 9, 2],
    [0, 4, 50, 9, 0], [0, 10, 43, 10, 0]] : List (List Nat)).getD n []
/-- A lane's coefficients with the sign of a magnitude: c−2 and c−1 negative, c+1 and c+2 negative. -/
def coefWord (m : Nat) : Nat := if m = 0 then 0 else 64 + m
def State.setCoefs (s : State) (l : Nat) (c : List Nat) : State :=
  let s := ((s.wr (F.LANE_TXEQ_C_M2 l) (coefWord (c.getD 0 0))).wr (F.LANE_TXEQ_C_M1 l) (coefWord (c.getD 1 0))).wr (F.LANE_TXEQ_C_0 l) (c.getD 2 0)
  (s.wr (F.LANE_TXEQ_C_P1 l) (coefWord (c.getD 3 0))).wr (F.LANE_TXEQ_C_P2 l) (coefWord (c.getD 4 0))
def State.coefs (s : State) (l : Nat) : List Nat :=
  [s.rd (F.LANE_TXEQ_C_M2 l) % 64, s.rd (F.LANE_TXEQ_C_M1 l) % 64, s.rd (F.LANE_TXEQ_C_0 l) % 64, s.rd (F.LANE_TXEQ_C_P1 l) % 64,
   s.rd (F.LANE_TXEQ_C_P2 l) % 64]
/-- The limits of Table 10-2. -/
def coefsOk (c : List Nat) : Bool :=
  let m2 := c.getD 0 0
  let m1 := c.getD 1 0
  let z := c.getD 2 0
  let p1 := c.getD 3 0
  let p2 := c.getD 4 0
  m2 ≤ 8 && m1 ≤ 24 && p1 ≤ 24 && p2 ≤ 8 && 21 ≤ z && z ≤ 63 && m2 + m1 + z + p1 + p2 == 63 && 21 + m2 + m1 + p1 + p2 ≤ z
/-- START_PRESET at entry to LOCK (Table 11-14). -/
def State.startPreset (s : State) (a : Cell) : State :=
  let n := s.rd (F.ONL_TRAIN_START_PRESET a)
  let n := if n > 7 then 3 else n
  (List.range (s.portWidth a)).foldl (fun (s : State) j =>
    (s.setCoefs (4 * a.val + j) (onlPreset n)).wr (F.LANE_TXEQ_PRESET (4 * a.val + j)) n) s
/-- What a link starts with at UP (R330, R335): sequence numbers at 0, pools at zero, and the whole allotment to hand over. Before any frame is
acknowledged TX_ACKED reads 4,095, the number before 0, and before any is accepted frames carry ACKV with that number, which acknowledges nothing
(DESIGN CHOICE, log 146). -/
def State.linkReset (s : State) (a : Cell) : State :=
  let s := (((s.wr (F.ONL_SEQ_TX_NEXT a) 0).wr (F.ONL_SEQ_TX_ACKED a) 4095).wr (F.ONL_SEQ_RX_EXPECT a) 0).wr (F.ONL_SEQ_UNACKED a) 0
  let s := { s with
    onl.queue := mdel s.onl.queue a.val, onl.store := mdel s.onl.store a.val, onl.naks := mdel s.onl.naks a.val
    onl.failed := s.onl.failed.filter (· != a.val), onl.unacked := mdel s.onl.unacked a.val
    onl.rx := mkeep (fun k _ => k / 8 != a.val) s.onl.rx }
  [0, 1].foldl (fun (s : State) p => poolVcs.foldl (fun (s : State) v =>
    let s := (s.wr (F.ONL_CREDIT_TX_HELD a p v) 0).wr (F.ONL_CREDIT_RX_USED a p v) 0
    { s with
      onl.report := mdel s.onl.report (poolKey a p v)
      onl.told := mdel s.onl.told (poolKey a p v)
      onl.freed := mset 0 s.onl.freed (poolKey a p v) (s.rd (F.ONL_CREDIT_ADV a p v)) }) s) s

/-! ### Routes (R349 to R352) -/

/-- Bits of a mask. -/
def bitsOf (n : Nat) : List Nat := (List.range 32).filter (fun m => n.testBit m)
/-- The adjacency: neighbours with at least one link in UP (R349). -/
def State.neighbours (s : State) : Nat :=
  s.onoraAnchors.foldl (fun m a => if s.linkUp a then m ||| 2 ^ s.nbrOf a else m) 0
/-- Modules that an advertised adjacency lets a set reach in one more hop. -/
def State.spread (s : State) (l : Nat) : Nat :=
  (bitsOf l).foldl (fun m o => m ||| ((mget s.onl.adv o).map (·.nbrs)).getD 0) l
/-- Hops from a module to another over the advertisements, up to 31. -/
def State.hopsFrom (s : State) (n m : Nat) : Option Nat :=
  let rec go : Nat → Nat → Nat → Option Nat
    | 0, _, _ => none
    | f + 1, k, l => if l.testBit m then some k else go f (k + 1) (s.spread l)
  go 32 0 (2 ^ n)
/-- The route to a module: next-hop address and hops. Fewest hops, then the lowest next hop; a module in conflict, or beyond
HOP_LIMIT, is unreachable. -/
def State.bestRoute (s : State) (m : Nat) : Option (Nat × Nat) :=
  if m = s.chainAddr ∨ s.rdb (F.ONL_ROUTE_CONFLICT 0 m) then none
  else
    let l := (bitsOf s.neighbours).filterMap (fun n => if n = s.chainAddr then none else (s.hopsFrom n m).map (fun h => (n, h + 1)))
    let best := l.foldl (fun (b : Option (Nat × Nat)) x => match b with
      | some y => if x.2 < y.2 then some x else b
      | none => some x) none
    best.bind (fun x => if x.2 ≤ s.rd (F.ONL_CHAIN_HOP_LIMIT 0) then some x else none)
/-- The line of an advertisement (Table 11-20). -/
def advLine (origin member topo boot seq nbrs : Nat) : Line :=
  lineOf [(0, origin), (1, member), (2, topo), (4, boot % 2 ^ 32), (8, seq % 2 ^ 32), (12, nbrs)]
/-- An advertisement goes to each neighbour but one. -/
def State.flood (s : State) (l : Line) (but : Option Nat) : State :=
  (bitsOf s.neighbours).foldl (fun (s : State) n =>
    if some n = but then s
    else match s.activeTo n with
      | some a => s.queueOn a ⟨{ dmod := Fin.ofNat 32 n, smod := Fin.ofNat 32 s.chainAddr, cep := s.cep }, payload .routeadv a [l]⟩
      | none => s) s
/-- The module advertises its adjacency (R349). MEMBER is JF-9680's code 4 (Table 11-7). -/
def State.advertise (s : State) : State :=
  let m := s.neighbours
  let l := advLine s.chainAddr 4 (s.rd (F.ONL_CHAIN_TOPO 0)) s.onl.boot s.onl.advSeq m
  let s := { s with
    onl.seen := mmod [] s.onl.seen s.chainAddr (fun l => (s.onl.boot % 2 ^ 32, s.onl.advSeq, s.cyc) :: l)
    onl.advSeq := (s.onl.advSeq + 1) % 2 ^ 32, onl.nbrs := m }
  s.flood l none
/-- KEYX to a module (R351); a module whose customer seed is gone has no chain sealing key to send. -/
def State.sendKeyx (s : State) (m : Nat) : State :=
  match s.chainKey, s.identityKey with
  | some own, some identity =>
    let bytes := s.keyxBytes own identity
    { s.sendPieces .keyx m (s.onl.boot % 2 ^ 32) bytes.length (linesOf bytes) with onl.keyxAt := mput s.onl.keyxAt m s.cyc }
  | _, _ => s
/-- Exported capacity behind an unreachable module becomes LOST (R356). -/
def State.loseModule (s : State) (m : Nat) : State :=
  let l := (s.onl.rext.filter (fun (e : Nat × Nat × Nat) => e.2.1 == m && (s.extNow e.1).st == .remote)).map (fun (e : Nat × Nat × Nat) => e.1)
  let s := l.foldl (fun (s : State) e => s.extEvent (s.extNow e) 2) s
  s.faultChange (l.map (fun e => (e, { s.extNow e with st := ExtSt.lost, mcell := 0, mcell2 := 0 })))
/-- Every route is computed again (R349). A change opens a chain epoch; a module that becomes reachable gets a KEYX. -/
def State.routes (s : State) : State :=
  let r := (List.range 32).map (fun m => (m, s.bestRoute m))
  let was := s.onl.next
  let next := r.foldl (fun (t : NMap Nat) x => match x.2 with
    | some (n, _) => mput t x.1 n
    | none => t) []
  let reach (m : Nat) : Bool := s.rdb (F.ONL_ROUTE_REACH 0 m)
  let fresh := (r.filter (fun x => x.2.isSome && !reach x.1)).map (·.1)
  let gone := (r.filter (fun x => x.2.isNone && reach x.1)).map (·.1)
  let changed := r.any (fun x => x.2.map (·.2) != (if reach x.1 then some (s.rd (F.ONL_ROUTE_HOPS 0 x.1)) else none)) || next != was
  let s := { s with onl.next := next }
  let s := r.foldl (fun (s : State) x => match x.2 with
    | some (n, h) => ((s.wr (F.ONL_ROUTE_REACH 0 x.1) 1).wr (F.ONL_ROUTE_HOPS 0 x.1) h).wr (F.ONL_ROUTE_VIA_PORT 0 x.1) (((s.activeTo n).map (·.val)).getD 0)
    | none => ((s.wr (F.ONL_ROUTE_REACH 0 x.1) 0).wr (F.ONL_ROUTE_HOPS 0 x.1) 0).wr (F.ONL_ROUTE_VIA_PORT 0 x.1) 0) s
  let s := if changed then { s with onl.oldNext := if s.onl.epochOpen then s.onl.oldNext else was, onl.epochOpen := true } else s
  let s := fresh.foldl State.sendKeyx { s with onl.keyxAt := mkeep (fun m _ => !gone.contains m) s.onl.keyxAt }
  gone.foldl State.loseModule s
/-- The adjacency may have changed: if it has, it is advertised, and routes follow. -/
def State.adjacency (s : State) : State := (if s.neighbours = s.onl.nbrs then s else s.advertise).routes

/-! ### Breaks (R343, R344) -/

/-- A link breaks: what it holds is absorbed, the pair's STANDBY link becomes ACTIVE, and it retrains. -/
def State.linkBreak (s : State) (a : Cell) (cause : Nat) : State :=
  if !s.linkUp a then s
  else
    let run := s.rd F.PKG_FAULT_STATUS_STEP != 0
    let active := s.linkSt a = 3
    let other := (s.pairOf a).bind (fun b => if s.linkSt b = 2 then some b else none)
    let s := s.logFault 0x0C (some a) a.val 0x000A cause a.val (active && other.isNone) none (s.portLast a)
    let s := if run ∨ !active then s else (s.beginRecovery 0x0C).logStep 1
    let s := (s.wr (F.ONL_STATUS_BREAK_CAUSE a) cause).inc (F.ONL_BREAKS_COUNT a)
    let held := (((mgetD [] s.onl.store a.val).flatMap (·.pkts)) ++ mgetD [] s.onl.queue a.val).eraseDups
    let s := (s.linkReset a).portOut a 2
    let s := (s.wr (F.ONL_STATUS_LINK_STATE a) 4).wr (F.ONL_STATUS_TRAIN_STATE a) 1
    let s := match other with
      | some b => if active then s.wr (F.ONL_STATUS_LINK_STATE b) 3 else s
      | none => s
    let s := s.adjacency
    let s := s.absorbChain a held
    -- an x8 link with a FAULTY lane stays DOWN (R344)
    let s := if (s.onlWidth a).isNone then (s.wr (F.ONL_STATUS_LINK_STATE a) 0).wr (F.ONL_STATUS_TRAIN_STATE a) 0 else s
    if run ∨ !active then s
    else
      let s := (s.logStep 2).logStep 3
      if s.scrim.flight.any (fun f => f.p.opc == .onlabs) then s else s.endReissue
/-- ONORA_LEAVE_FRAME: cause 5. -/
def execOnoraLeaveFrame (c : Cell) (s : State) : Outcome State Fault Refusal := .next (s.linkBreak c 5)
/-- ONORA_ALIGN_MISSING: codeword lock is lost, cause 4. -/
def execOnoraAlignMissing (c : Cell) (s : State) : Outcome State Fault Refusal := .next (s.linkBreak c 4)
/-- ONORA_CREDIT_TIMEOUT: a packet waits for credit, cause 2 (R336). -/
def execOnoraCreditTimeout (c : Cell) (s : State) : Outcome State Fault Refusal :=
  .next (if (mgetD [] s.onl.queue c.val).any (fun x => s.rd (F.ONL_CREDIT_TX_HELD c x.cu.phase x.p.opc.vc) < x.need) then s.linkBreak c 2 else s)
/-- ONORA_FRAME_TIMEOUT: cause 1. -/
def execOnoraFrameTimeout (c : Cell) (s : State) : Outcome State Fault Refusal := .next (s.linkBreak c 1)
/-- ONORA_ALIGN_SEND (R325). -/
def execOnoraAlignSend (c : Cell) (s : State) : Outcome State Fault Refusal :=
  .next (if s.linkUp c ∨ s.rd (F.ONL_STATUS_TRAIN_STATE c) = 6 then s.emit (.onlAlign c) else s)

/-! ### The control word of a received frame (R330, R333, R335) -/

/-- Frames up to a number that the store holds are acknowledged; any other number is ignored. -/
def State.ackTo (s : State) (a : Cell) (n : Nat) : State :=
  let l := mgetD [] s.onl.store a.val
  match l.findIdx? (fun f => f.seq == n) with
  | none => s
  | some i =>
    let s := { s with onl.store := mset [] s.onl.store a.val (l.drop (i + 1)) }
    ((s.wr (F.ONL_SEQ_TX_ACKED a) n).wr (F.ONL_SEQ_UNACKED a) (l.length - (i + 1))).pump a
/-- A NAK (R333): it acknowledges the frame before, and every frame from it on is sent again; the fourth in a row of one frame
breaks the link. -/
def State.nakFrom (s : State) (a : Cell) (n : Nat) : State :=
  let s := s.ackTo a ((n + 4095) % 4096)
  let l := mgetD [] s.onl.store a.val
  match l.findIdx? (fun f => f.seq == n) with
  | none => s
  | some i =>
    let k := match mget s.onl.naks a.val with
      | some (m, k) => if m = n then k + 1 else 1
      | none => 1
    let s := { s with onl.naks := mput s.onl.naks a.val (n, k) }
    if k ≥ 4 then s.linkBreak a 3
    else (l.drop i).foldl (fun (s : State) f => s.sendFrame a 1 f.seq f.slots) (s.sat (F.ONL_ERR_REPLAYS a))
/-- A credit report adds what was freed since the last one of its pool. -/
def State.creditReport (s : State) (a : Cell) (r : Vc × Fin 2 × Fin 512) : State :=
  let k := poolKey a r.2.1 r.1
  let d := (r.2.2.val + 512 - mgetD 0 s.onl.report k) % 512
  ({ s with onl.report := mset 0 s.onl.report k r.2.2.val }.sat (F.ONL_CREDIT_TX_HELD a r.2.1 r.1) d).pump a
/-- The control word of a frame that passed every check. -/
def State.takeControl (s : State) (a : Cell) (x : OCtl) : State :=
  let s := x.cr.foldl (fun (s : State) r => s.creditReport a r) s
  let s := match x.ack with
    | some n => s.ackTo a n
    | none => s
  match x.nak with
  | some n => s.nakFrom a n
  | none => s
/-- A frame fails its checks (R331): a NAK goes out, unless one stands already. -/
def State.frameFails (s : State) (a : Cell) (fec : Bool) : State :=
  let s := if fec then s.sat (F.ONL_ERR_CHECK_FAIL a) else s.sat (F.ONL_ERR_FEC_UNCORR a)
  if s.onl.failed.contains a.val then s else { s with onl.failed := a.val :: s.onl.failed }.sendNak a

/-! ### Packets that have arrived (R322, R323, R345, R349, R352, R353) -/

/-- Slots of a packet leave the receive buffer (R335). -/
def State.freeRx (s : State) (a : Cell) (x : CPkt) : State :=
  let k := poolKey a x.cu.phase x.p.opc.vc
  { s with onl.freed := mmod 0 s.onl.freed k (fun n => n + x.need) }.dec (F.ONL_CREDIT_RX_USED a x.cu.phase x.p.opc.vc) x.need
/-- The class a frame keeps, or the default of its kind (R135, Table 5-1). -/
def State.classFor (s : State) (c : Cell) (p : Pkt) : Tc :=
  let t := p.tc.val
  let keep (l : List Nat) (d : Nat) : Tc := if l.contains t then p.tc else Fin.ofNat 8 d
  match p.opc with
  | .mrd | .mspec => keep [3, 4] (s.rd (F.GATE_CLASS_MAP_REQ_TC c))
  | .wdata => keep [2, 4, 6] (s.rd (F.GATE_CLASS_MAP_RWD_TC c))
  | .rdata => keep [5] 5
  | .mcmp | .wcmp | .onlabs => keep [6, 7] (s.rd (F.GATE_CLASS_MAP_NDR_TC c))
  | .blob => keep [0] 0
  | _ => keep [1] 1
/-- A request to exported capacity. -/
def chainReq (o : Opc) : Bool := o = .mrd || o = .mspec || o = .wdata
/-- The XFER that takes a packet to the anchor of its egress link (R353): data unit 0 holds the chain unit, HOPS + 1, with its
CCRC, and the header. -/
def xferOf (c e : Cell) (x : CPkt) : Pkt :=
  { opc := .xfer (Fin.ofNat 8 x.p.opc.vc), src := c, dst := e, tagCell := x.p.tagCell, tagSlot := x.p.tagSlot, gen := x.p.gen, tc := x.p.tc,
    len := Fin.ofNat 65 (x.p.data.length + 1), pois := x.p.pois <<< 1, stomp := x.p.stomp
    data := BitVec.ofNat 512 (chainUnitBits x.cu + { x.p with len := Fin.ofNat 65 x.p.data.length }.header * 2 ^ 256) :: x.p.data }
/-- The packet an XFER carries; none where its header names no opcode that may cross. -/
def unwrap (p : Pkt) : Option CPkt :=
  let l := (p.data.headD 0).toNat
  let f (lsb w : Nat) : Nat := l / 2 ^ lsb % 2 ^ w
  (Pkt.ofHeader (l / 2 ^ 256) (p.data.drop 1)).map (fun q =>
    ⟨{ dmod := Fin.ofNat 32 (f 27 5), smod := Fin.ofNat 32 (f 22 5), hops := Fin.ofNat 32 (f 17 5), phase := Fin.ofNat 2 (f 16 1), cep := f 15 1 == 1 },
      { q with pois := p.pois >>> 1, stomp := p.stomp }⟩)
/-- A whole packet has come on the link of anchor a. What its own command does not take up leaves the buffer here: absorbed, on
its way through (R353), an ONLABS to its cell, a management frame to the active service processor. -/
def State.chainArrive (s : State) (a : Cell) (x : CPkt) : State :=
  let own := s.chainAddr
  let here := x.cu.dmod.val = own
  let free := s.freeRx a x
  let x := { x with p := { x.p with priv := false, tc := s.classFor a x.p } }
  if (Opc.ofChain x.p.opc.code x.p.opc.vc).isNone ∨ x.p.data.length > 63 then free.inc (F.ONL_PROTO_COUNT a)
  else if x.p.stomp then free.sendOnlabs a x
  else if x.cu.hops.val > s.rd (F.ONL_CHAIN_HOP_LIMIT 0) then free.inc (F.ONL_HOP_ABSORB_COUNT a)
  else if s.mode = .safeStop ∧ (!here ∨ chainReq x.p.opc) then free.absorbChain a [x]
  else if !here then
    let y : CPkt := { x with cu := { x.cu with hops := Fin.ofNat 32 (x.cu.hops.val + 1), cep := s.cep,
                                               phase := if s.rdb (F.ONL_CFG_DATELINE a) then 1 else x.cu.phase } }
    match s.via x.cu.dmod.val with
    | some e => free.send (xferOf (Cell.of (a.val + x.cu.dmod.val % s.portCells a)) e y)
    | none => free.absorbChain a [y]
  else if s.rdb (F.ONL_CHAIN_ADDR_CONFLICT 0) ∧ (chainReq x.p.opc ∨ x.p.opc = .blob) then free.absorbChain a [x]
  else match x.p.opc with
    | .onlabs => free.send { x.p with src := Cell.of (a.val + x.p.tagCell.val % s.portCells a), dst := x.p.tagCell }
    | .mgt =>
      let sp := ((s.activeSp.map (·.val)).getD 0) * 16
      free.send { x.p with src := Cell.of (a.val + sp % s.portCells a), dst := Cell.of sp }
    | _ =>
      let c := if chainReq x.p.opc then Cell.of (a.val + (s.homeExt a x.p.ext).mcell.val % s.portCells a)
        else Cell.of (a.val + x.p.tagCell.val % s.portCells a)
      { s with onl.arrived := mmod [] s.onl.arrived c.val (fun l => l ++ [(a, x)]) }
/-- A packet leaves the receive buffer for its command. -/
def State.chainTake (s : State) (c : Cell) (x : CPkt) : State :=
  match (mgetD [] s.onl.arrived c.val).find? (fun (e : Cell × CPkt) => e.2 == x) with
  | some e => { s with onl.arrived := mmod [] s.onl.arrived c.val (fun l => l.erase e) }.freeRx e.1 x
  | none => s
/-- A slot of an accepted frame (R328): it takes its pool's place in the buffer, and the last one completes its packet. -/
def State.takeSlotUnit (s : State) (a : Cell) (t : OSlot) : State :=
  let used (s : State) (p v : Nat) : State := s.sat (F.ONL_CREDIT_RX_USED a p v)
  let key (v : Nat) : Nat := a.val * 8 + v
  let done (s : State) (v : Nat) (r : ORx) (h : Pkt) (stomp : Bool) : State :=
    let hs := r.halves
    let data := (List.range (hs.length / 2)).map (fun k =>
      BitVec.ofNat 512 ((hs.getD (2 * k) 0).toNat + (hs.getD (2 * k + 1) 0).toNat * 2 ^ 256))
    { s with onl.rx := mdel s.onl.rx (key v) }.chainArrive a ⟨r.cu, { h with data := data, pois := r.pois, stomp := stomp }⟩
  match t with
  | .chain v u => used { s with onl.rx := mput s.onl.rx (key v) { cu := u } } u.phase v
  | .head p => match mget s.onl.rx (key p.opc.vc) with
    | some r =>
      let s := used s r.cu.phase p.opc.vc
      if p.len.val = 0 then done s p.opc.vc r p false
      else { s with onl.rx := mput s.onl.rx (key p.opc.vc) { r with hdr := some p } }
    | none => s
  | .data v _ d poison eop stomp => match mget s.onl.rx (key v) with
    | some r => match r.hdr with
      | some h =>
        let s := used s r.cu.phase v
        let r := { r with halves := r.halves ++ [d], pois := if poison then r.pois ||| BitVec.ofNat 64 (2 ^ (r.halves.length / 2)) else r.pois }
        if eop then done s v r h stomp else { s with onl.rx := mput s.onl.rx (key v) r }
      | none => s
    | none => s

/-! ### The commands of a link -/

/-- ONORA_DATA_FRAME (R329, R331, R332). A discarded frame that passes every check and has another SEQ gives its control word all the same, unless
a failed frame stands (DESIGN CHOICE, log 147: R331 discards the frame and does not name the word). -/
def execOnoraDataFrame (c : Cell) (f : OFrame) (s : State) : Outcome State Fault Refusal :=
  .next <|
    if !s.linkUp c then s
    else if !f.fec ∨ !f.fcrc ∨ !f.units then s.frameFails c f.fec
    else
      let e := s.rd (F.ONL_SEQ_RX_EXPECT c)
      if f.seq.val ≠ e then (if s.onl.failed.contains c.val then s else s.takeControl c f.ctl)
      else
        let s := { s with onl.failed := s.onl.failed.filter (· != c.val) }
        let s := (s.wr (F.ONL_SEQ_RX_EXPECT c) (e + 1)).inc (F.ONL_RX_FRAMES_COUNT c)
        let n := mgetD 0 s.onl.unacked c.val + 1
        let s := { s with onl.unacked := mput s.onl.unacked c.val n }
        let s := (s.takeControl c f.ctl)
        let s := f.slots.foldl (fun (s : State) t => s.takeSlotUnit c t) s
        if n ≥ 64 ∧ s.linkUp c then s.sendFrame c 0 0 [] else s
/-- ONORA_IDLE_FRAME (R327). -/
def execOnoraIdleFrame (c : Cell) (ok : Bool) (x : OCtl) (s : State) : Outcome State Fault Refusal :=
  .next (if !s.linkUp c then s else if ok then s.takeControl c x else s.frameFails c true)
/-- ONORA_ACK_TIMER (R332). -/
def execOnoraAckTimer (c : Cell) (s : State) : Outcome State Fault Refusal :=
  .next (if s.linkUp c ∧ mgetD 0 s.onl.unacked c.val > 0 then s.sendFrame c 0 0 [] else s)
/-- ONORA_NAK_REPEAT (R331). -/
def execOnoraNakRepeat (c : Cell) (s : State) : Outcome State Fault Refusal :=
  .next (if s.linkUp c ∧ s.onl.failed.contains c.val then s.sendNak c else s)

/-! ### Training (R337 to R340) -/

/-- A step of one tap (R339): the unit comes from c0 or goes back to it; hold, updated, or at limit. -/
def tapStep (c : List Nat) (i req : Nat) : List Nat × Nat :=
  let m := c.getD i 0
  let z := c.getD 2 0
  if req = 1 then
    let d := (c.set i (m + 1)).set 2 (z - 1)
    if coefsOk d then (d, 1) else (c, 2)
  else if req = 2 then
    if m = 0 then (c, 2)
    else
      let d := (c.set i (m - 1)).set 2 (z + 1)
      if coefsOk d then (d, 1) else (c, 2)
  else (c, 0)
/-- ONORA_TRAINING_BLOCK (R338, R339). -/
def execOnoraTrainingBlock (c : Cell) (j : Fin 16) (b : TrainBlock) (s : State) : Outcome State Fault Refusal :=
  .next <|
    let st := s.rd (F.ONL_STATUS_TRAIN_STATE c)
    let w := s.portWidth c
    if st < 2 ∨ st > 5 ∨ j.val ≥ w then s
    else if !b.tcrc then
      let n := mgetD 0 s.onl.tcrc (4 * c.val + j.val) + 1
      if n ≥ 16 then s.trainFail c else { s with onl.tcrc := mset 0 s.onl.tcrc (4 * c.val + j.val) n }
    else
      let l : Lane := Fin.ofNat 512 (4 * c.val + j.val)
      let s := { s with onl.tcrc := mdel s.onl.tcrc (4 * c.val + j.val) }
      let s := s.wrb (F.LANE_STATUS_POL_INV l) b.inverted
      let s := if b.lane.val + j.val + 1 = w ∧ b.lane ≠ j then s.wrb (F.LANE_PORT_STATUS_REVERSED c) true
        else if b.lane = j then s.wrb (F.LANE_PORT_STATUS_REVERSED c) false else s
      if mget s.onl.reqId l.val = some b.reqId.val then s
      else
        let s := { s with onl.reqId := mput s.onl.reqId l.val b.reqId.val }
        if b.preset ≠ 0xF then
          if b.preset.val ≤ 7 then
            ((s.setCoefs l (onlPreset b.preset)).wr (F.LANE_TXEQ_PRESET l) b.preset).emit (.onlEq l b.reqId.val [0, 0, 0, 0] true)
          else s.emit (.onlEq l b.reqId.val [0, 0, 0, 0] false)
        else
          let c0 := s.coefs l
          let (c1, t0) := tapStep c0 4 b.taps.1
          let (c2, t1) := tapStep c1 3 b.taps.2.1
          let (c3, t2) := tapStep c2 1 b.taps.2.2.1
          let (c4, t3) := tapStep c3 0 b.taps.2.2.2
          (s.setCoefs l c4).emit (.onlEq l b.reqId.val [t0, t1, t2, t3] false)
/-- The trained link: L0 at its width, the failures of training forgotten, the time it took. -/
def State.linkTrained (s : State) (a : Cell) (w rate : Nat) (rev : Bool) : State :=
  let fault := mget s.lane.faultAt a.val
  let s := { (s.linkReset a).portL0 a w rate 5 rev with onl.fails := mdel s.onl.fails a.val, lane.faultAt := mdel s.lane.faultAt a.val }
  -- a fault has narrowed the link: the minimums fall with it (R146)
  let s := if fault.isSome && w < s.portWidth a then s.logYield 4 5 (some a) a.val 0x0102 a.val else s
  let us := (s.cyc - mgetD s.cyc s.onl.trainAt a.val) / 3000
  ((s.wr (F.ONL_TRAIN_LAST_US a) (min (2 ^ 24 - 1) us)).wr (F.ONL_STATUS_TRAIN_STATE a) 7).trainEnds a
/-- LINK_STATE of a link that comes up: ACTIVE, or STANDBY beside the pair's ACTIVE one. -/
def State.upState (s : State) (a : Cell) : Nat :=
  match s.pairOf a with
  | none => 3
  | some b => if s.linkSt b = 3 then 2
    else if s.rdb (F.ONL_CFG_PRIMARY a) ∨ s.rd (F.ONL_STATUS_BREAK_CAUSE b) ≠ 0 then 3 else 2
/-- The link reaches UP (R342): ACTIVE if it is PRIMARY and the other link of the pair is not ACTIVE, or has no other link, or
the other one has been lost; else STANDBY. -/
def State.linkComesUp (s : State) (a : Cell) (rate : Nat) : State :=
  match s.onlWidth a with
  | none => s
  | some (w, rev) =>
    -- lanes that the partner numbers in reverse stay reversed (R338)
    let turned := rev || s.rdb (F.LANE_PORT_STATUS_REVERSED a)
    let s := (s.linkTrained a w rate rev).wrb (F.LANE_PORT_STATUS_REVERSED a) turned
    (s.wr (F.ONL_STATUS_LINK_STATE a) (s.upState a)).adjacency
/-- ONORA_TRAIN_STATE_COMPLETE (Table 11-6, R340). -/
def execOnoraTrainStateComplete (c : Cell) (x : OParam) (reqs : BitVec 12) (s : State) : Outcome State Fault Refusal :=
  .next <|
    let fast := s.onl.fast.contains c.val
    let may := s.rd (F.LANE_PORT_CFG_MAX_RATE c) ≥ 7 && x.maxRate = 7
    match s.rd (F.ONL_STATUS_TRAIN_STATE c) with
    | 1 =>
      let s := { s with onl.trainAt := mput s.onl.trainAt c.val s.cyc }
      ((s.wr (F.ONL_STATUS_TRAIN_STATE c) 2).wr (F.ONL_STATUS_LINK_STATE c) 1).startPreset c
    | 2 => s.wr (F.ONL_STATUS_TRAIN_STATE c) 3
    | 3 => (s.wr (F.ONL_STATUS_TRAIN_STATE c) 4).wr (F.ONL_TRAIN_EQ_REQS c) reqs.toNat
    | 4 =>
      let s := ((s.wr (F.ONL_STATUS_NBR_ADDR c) x.addr).wr (F.ONL_STATUS_NBR_MEMBER c) x.member).wr (F.ONL_STATUS_NBR_PORT c) x.port
      if x.addr.val ≠ s.rd (F.ONL_CFG_NBR_EXPECT c) ∨ x.dateline ≠ s.rdb (F.ONL_CFG_DATELINE c) ∨ x.addr.val = s.chainAddr then
        let s := s.logFault 0x0C (some c) c.val 0x000A (s.rd (F.ONL_STATUS_BREAK_CAUSE c)) c.val false
        ((s.wr (F.ONL_STATUS_LINK_STATE c) 6).wr (F.ONL_STATUS_TRAIN_STATE c) 0).trainEnds c
      else if may ∧ !fast then s.wr (F.ONL_STATUS_TRAIN_STATE c) 5
      else s.wr (F.ONL_STATUS_TRAIN_STATE c) 6
    | 5 => { s with onl.fast := c.val :: s.onl.fast }.wr (F.ONL_STATUS_TRAIN_STATE c) 2
    | 6 => s.linkComesUp c (if fast then 7 else 6)
    | _ => s
/-- ONORA_TRAIN_TIMEOUT (R340): DETECT has no bound. -/
def execOnoraTrainTimeout (c : Cell) (s : State) : Outcome State Fault Refusal :=
  .next (if 2 ≤ s.rd (F.ONL_STATUS_TRAIN_STATE c) ∧ s.rd (F.ONL_STATUS_TRAIN_STATE c) ≤ 6 then s.trainFail c else s)
/-- ONORA_TRAIN_RETRY (R340). -/
def execOnoraTrainRetry (c : Cell) (s : State) : Outcome State Fault Refusal :=
  .next (if s.linkSt c = 0 ∧ mgetD 0 s.onl.fails c.val > 0 then s.trainStart c else s)
/-- ONORA_SIGNAL_REGAINED (R340): a LATCHED link trains again. -/
def execOnoraSignalRegained (c : Cell) (s : State) : Outcome State Fault Refusal :=
  .next (if s.linkSt c = 5 then { s with onl.fails := mdel s.onl.fails c.val }.trainStart c else s)
/-- RETRAIN (Table 11-12). -/
def State.retrain (s : State) (c : Cell) : State :=
  if s.rdb (F.ONL_CTRL_BUSY c) then s
  else
    let busy (s : State) : State := if s.linkSt c = 1 ∨ s.linkSt c = 4 then s.wr (F.ONL_CTRL_BUSY c) 1 else s
    let go (s : State) : State := { s with onl.fails := mdel s.onl.fails c.val }.trainStart c
    match s.linkSt c with
    | 0 | 5 => if s.roleOf c = .onora ∧ s.anchorOf c = c then busy (go s) else s
    | 2 => busy (go ((s.linkReset c).portOut c 2).adjacency)
    | 3 => if s.mode = .maintenance ∧ s.pool.paused.contains c.val then busy (s.linkBreak c 6)
        else s.flag (F.ONL_CTRL_REFUSED c)
    | _ => s
/-- ONORA_RETRAIN. -/
def execOnoraRetrain (src : Src) (c : Cell) (s : State) : Outcome State Fault Refusal :=
  .next (s.ifMay src (F.ONL_CTRL_RETRAIN c) 1 fun s => s.retrain c)
/-- ONORA_LEAVE_SEND (R345). -/
def execOnoraLeaveSend (s : State) : Outcome State Fault Refusal :=
  .next (if s.mode = .safeStop ∧ s.onl.cslot = [] ∧ s.onl.store = [] then
      (s.onoraAnchors.filter s.linkUp).foldl (fun (s : State) a => s.sendFrame a 2 0 []) s
    else s)

/-! ### Notes, advertisements and epochs -/

/-- ONLABS (R346): a note for a free slot or an older generation is discarded. -/
def execOnlabs (p : Pkt) (s : State) : Outcome State Fault Refusal :=
  .next <|
    let p := { p with opc := Opc.onlabs }
    s.arrive p fun s => match s.slot p.tagCell p.tagSlot with
      | some t => if p.tagCell = p.dst ∧ t.hdr.gen = p.gen then s.reissue p.dst p.tagSlot t else s.endReissue
      | none => s.endReissue
/-- An advertisement is newer than the one held (R351). -/
def newerAdv (held : Option Adv) (boot seq : Nat) : Bool :=
  match held with
  | none => true
  | some h => h.boot != boot || (1 ≤ (seq + 2 ^ 32 - h.seq) % 2 ^ 32 && (seq + 2 ^ 32 - h.seq) % 2 ^ 32 < 2 ^ 31)
/-- Two BOOT values of one origin, each with two ADV_SEQ values, within 50 ms (R352). -/
def conflicting (l : List (Nat × Nat × Nat)) : Bool :=
  let boots := ((l.map (·.1)).eraseDups).filter (fun b => 2 ≤ (((l.filter (fun x => x.1 == b)).map (fun x => x.2.1)).eraseDups).length)
  2 ≤ boots.length
/-- An advertisement of another boot or of an older one of the same address within 50 ms is a conflict, logged once. -/
def State.advConflict (s : State) (o : Nat) (near : List (Nat × Nat × Nat)) : State :=
  if conflicting near ∧ !s.rdb (F.ONL_ROUTE_CONFLICT 0 o) then
    let s := (s.logFault 0x0C none 0xFFFF 0x0011 o o false).wr (F.ONL_ROUTE_CONFLICT 0 o) 1
    (if o = s.chainAddr then s.wr (F.ONL_CHAIN_ADDR_CONFLICT 0) 1 else s).routes
  else s
/-- A newer advertisement is kept and flooded on; one heard already renews its entry. -/
def State.keepAdv (s : State) (x : CPkt) (l : Line) (o boot seq : Nat) : State :=
  if newerAdv (mget s.onl.adv o) boot seq then
    ({ s with onl.adv := mput s.onl.adv o ⟨boot, seq, lineGet l 1 1, lineGet l 2 1, lineGet l 12 4, s.cyc⟩ }.flood l (some x.cu.smod.val)).routes
  else match mget s.onl.adv o with
    | some h => { s with onl.adv := mput s.onl.adv o { h with heard := s.cyc } }
    | none => s
/-- ROUTEADV (R349, R351, R352). -/
def execRouteadv (c : Cell) (x : CPkt) (s : State) : Outcome State Fault Refusal :=
  .next <|
    let s := s.chainTake c x
    let l := x.p.data.headD 0
    let o := lineGet l 0 1 % 32
    let boot := lineGet l 4 4
    let seq := lineGet l 8 4
    let near := (mgetD [] s.onl.seen o).filter (fun e => s.cyc < e.2.2 + 50 * msCyc)
    let near := if near.any (fun e => e.1 == boot && e.2.1 == seq) then near else (boot, seq, s.cyc) :: near
    let s := { s with onl.seen := mset [] s.onl.seen o near }.advConflict o near
    if o = s.chainAddr then s else s.keepAdv x l o boot seq
/-- ROUTEADV_PERIODIC (R349). -/
def execRouteadvPeriodic (s : State) : Outcome State Fault Refusal := .next s.advertise
/-- ROUTEADV_STALE (R351): an origin that has not been heard for 50 ms. -/
def execRouteadvStale (m : Fin 32) (s : State) : Outcome State Fault Refusal :=
  .next (if (mget s.onl.adv m.val).any (fun (h : Adv) => s.cyc < h.heard + 50 * msCyc) then s else { s with onl.adv := mdel s.onl.adv m.val }.routes)
/-- ADDR_CONFLICT_CLEAR (R352): no advertisement of a second BOOT has come for 50 ms. -/
def execAddrConflictClear (m : Fin 32) (s : State) : Outcome State Fault Refusal :=
  .next <|
    let near := (mgetD [] s.onl.seen m.val).filter (fun e => s.cyc < e.2.2 + 50 * msCyc)
    if 2 ≤ ((near.map (·.1)).eraseDups).length then s else
    let s := { s.wr (F.ONL_ROUTE_CONFLICT 0 m) 0 with onl.seen := mdel s.onl.seen m.val }
    (if m.val = s.chainAddr then s.wr (F.ONL_CHAIN_ADDR_CONFLICT 0) 0 else s).routes
/-- A queued packet's next hop differs between the routes before and after an epoch. -/
def State.hopChanged (s : State) (m : Nat) : Bool := mget s.onl.next m != mget s.onl.oldNext m
/-- CHAIN_EPOCH_CLOSE (R349, R367): CEP toggles, and packets queued for a link whose next hop changed are absorbed. -/
def execChainEpochClose (s : State) : Outcome State Fault Refusal :=
  .next <|
    if !s.onl.epochOpen then s
    else
      let s := s.inc (F.ONL_CHAIN_CEPOCH 0)
      let s := s.onoraAnchors.foldl (fun (s : State) a =>
        let l := mgetD [] s.onl.queue a.val
        let s := { s with onl.queue := mset [] s.onl.queue a.val (l.filter (fun x => !s.hopChanged x.cu.dmod.val)) }
        s.absorbChain a (l.filter (fun x => s.hopChanged x.cu.dmod.val))) s
      { s with onl.epochOpen := false }

/-! ### Probes (R357) -/

/-- PROBE_SEND. -/
def execProbeSend (s : State) : Outcome State Fault Refusal :=
  .next <|
    (List.range 32).foldl (fun (s : State) m => match s.via m with
      | some a =>
        let q := (s.onl.pseq + 1) % 2 ^ 32
        let s := { s with onl.pseq := q, onl.probe := mput s.onl.probe m (q, s.ns) }
        s.chainNew a (Fin.ofNat 32 m) (payload .probe a [lineOf [(0, s.ns), (8, q)]])
      | none => s) s
/-- PROBE: the answer echoes T_SEND and PSEQ. -/
def execProbe (c : Cell) (x : CPkt) (turn : Fin 61) (s : State) : Outcome State Fault Refusal :=
  .next <|
    let s := s.chainTake c x
    let l := x.p.data.headD 0
    s.chainNew c x.cu.smod (payload .probersp c [lineOf [(0, lineGet l 0 8), (8, lineGet l 8 4), (12, turn.val)]])
/-- Round-trip budget in ns (Table 11-16). -/
def State.budgetNs (s : State) : Nat := 1000 * max 1 (min 8 (s.rd (F.ONL_CHAIN_BUDGET_US 0)))
/-- PROBERSP: RTT_NS and OVER; a route of exported capacity that becomes OVER is logged with ranks 4 and 6 (R357). -/
def execProbersp (c : Cell) (x : CPkt) (s : State) : Outcome State Fault Refusal :=
  .next <|
    let s := s.chainTake c x
    let m := x.cu.smod.val
    let l := x.p.data.headD 0
    match mget s.onl.probe m with
    | none => s
    | some (q, _) =>
      if lineGet l 8 4 ≠ q then s
      else
        let rtt := s.ns - lineGet l 0 8
        let late : Bool := decide (rtt > s.budgetNs)
        let s := s.wr (F.ONL_ROUTE_RTT_NS 0 m) (min (2 ^ 32 - 1) rtt)
        let s := if late && !s.rdb (F.ONL_ROUTE_OVER 0 m) && s.onl.rext.any (fun (e : Nat × Nat × Nat) => e.2.1 == m) then
            s.logYield 4 6 (some c) 0xFFFF 0x010A m
          else s
        s.wrb (F.ONL_ROUTE_OVER 0 m) late

/-! ### Blobs and keys (R249, R289, R351) -/

/-- A piece joins its whole: the whole so far, and whether it is complete. -/
def addPiece (old : Option Pieces) (d : List Line) : Pieces × Bool :=
  let l := d.headD 0
  let xseq := lineGet l 0 8
  let p : Pieces := match old with
    | some q => if q.xseq = xseq then q else ⟨xseq, lineGet l 12 2, []⟩
    | none => ⟨xseq, lineGet l 12 2, []⟩
  let p := { p with got := mput p.got (lineGet l 8 2) (d.drop 1) }
  (p, (List.range ((p.total + 3967) / 3968)).all (fun k => (mget p.got (3968 * k)).isSome))
/-- The ACK of a whole (Table 11-22). -/
def State.sendAck (s : State) (c : Cell) (o : Opc) (m : Fin 32) (xseq result : Nat) : State :=
  s.chainNew c m (payload o c [pieceHead xseq 0 0 0 1 result])
/-- A blob is accepted: its extents take free extent numbers, REMOTE, and it waits for RESTORE (R249, R354). -/
def State.acceptBlob (s : State) (m : Nat) (b : Blob) : Option State :=
  let es := s.freeExts b.own.exts.length
  if s.instSt b.inst ≠ 0 ∨ es.length < b.own.exts.length ∨ s.pool.restored.contains (m, b.seq) ∨ (mget s.onl.csk m).isNone ∨ b.srcModule ≠ m then none
  else
    let map := b.own.exts.zip es
    let to_ (e : Nat) : Nat := ((map.find? (fun x => x.1 == e)).map (·.2)).getD e
    let own := { b.own with
      exts := es, offered := [], accepted := b.own.accepted.map to_, key := none, peer := none
      regions := b.own.regions.map (fun (r : Region) =>
        { r with poolLine := BitVec.ofNat 40 (to_ (r.poolLine.toNat / 2 ^ 24) * 2 ^ 24 + r.poolLine.toNat % 2 ^ 24) }) }
    let a := (s.via m).getD 0
    let s := { s with
      pool.blobs := mput s.pool.blobs b.inst { b with own := own }
      onl.rext := map.foldl (fun (t : NMap (Nat × Nat)) x => mput t x.2 (m, x.1)) s.onl.rext }
    let s := es.foldl (fun (s : State) e => s.setLife e 1) s
    some (s.sendNote (es.map (fun e => (e, ({ st := .remote, mcell := a, owner := Fin.ofNat 4096 b.inst } : ExtEnt)))) [] .none)
/-- BLOB (R351): pieces are assembled; the complete blob is accepted or refused. -/
def execBlob (c : Cell) (x : CPkt) (b : Option Blob) (s : State) : Outcome State Fault Refusal :=
  .next <|
    let s := s.chainTake c x
    let m := x.cu.smod.val
    let (p, all) := addPiece (mget s.onl.rxBlob m) x.p.data
    if !all then { s with onl.rxBlob := mput s.onl.rxBlob m p }
    else
      let s := { s with onl.rxBlob := mdel s.onl.rxBlob m }
      match (b.bind (fun (v : Blob) => if v.seq % 2 ^ 64 = p.xseq then some v else none)) with
      | none => s.sendAck c .blob x.cu.smod p.xseq 4
      | some v =>
        -- a repeat of a blob that is held already is accepted again (idempotent under XSEQ)
        if (mget s.pool.blobs v.inst).any (fun h => h.seq == v.seq && h.srcModule == m) then s.sendAck c .blob x.cu.smod p.xseq 1
        else match s.acceptBlob m v with
          | some s => s.sendAck c .blob x.cu.smod p.xseq 1
          | none => s.sendAck c .blob x.cu.smod p.xseq 4
/-- BLOB_ACK: accepted, the instance is EXPORTED (R249); refused, it stays FROZEN with RESULT 4. -/
def execBlobAck (c : Cell) (x : CPkt) (s : State) : Outcome State Fault Refusal :=
  .next <|
    let s := s.chainTake c x
    let l := x.p.data.headD 0
    match s.onl.tx.find? (fun (e : Nat × Nat × Nat × Nat × List Line) => e.2.1 == x.cu.smod.val && e.2.2.1 % 2 ^ 64 == lineGet l 0 8) with
    | none => s
    | some e =>
      let i := e.1
      let s := { s with onl.tx := mdel s.onl.tx i }
      match mget s.pool.migs i with
      | none => s
      | some m =>
        if lineGet l 15 1 = 1 then
          let sets := s.removeSets m.srcPort i
          let s := (s.emit (.removal (Cell.of m.srcPort) m.srcVppb 1)).freeVppb m.srcPort m.srcVppb
          let s := s.setOwner i { s.owner i with peer := some m.tModule }
          ((s.wr (F.INST_INFO_STATE i) 0xA).migEnd i 9 1).regionCommit (.srcGone i) [i] sets
        else (s.wr (F.INST_MIG_STATUS_RESULT i) 4).wr (F.INST_MIG_BUSY i) 0
/-- BLOB_RETRANSMIT. -/
def execBlobRetransmit (i : Inst) (s : State) : Outcome State Fault Refusal :=
  .next (match mget s.onl.tx i.val with
    | some (m, q, n, ls) => s.sendPieces .blob m q n ls
    | none => s)
/-- KEYX (R351): the key is held if certificates, signature and ADDR are right and the device certificate is in the chain peer
list (R289); a BOOT not seen before is answered with the module's own KEYX. -/
def execKeyx (c : Cell) (x : CPkt) (ok : Bool) (hash : BitVec 384) (s : State) : Outcome State Fault Refusal :=
  .next <|
    let s := s.chainTake c x
    let m := x.cu.smod.val
    let l := x.p.data.headD 0
    if (lineGet l 14 1).testBit 0 then { s with onl.keyxAt := mdel s.onl.keyxAt m }
    else
      let (p, all) := addPiece (mget s.onl.rxKeyx m) x.p.data
      if !all then { s with onl.rxKeyx := mput s.onl.rxKeyx m p }
      else
        let first := ((mget p.got 0).getD []).headD 0
        let key := (((((mget p.got 0).getD []).take 2).flatMap (fun (l : Line) => leBytes 64 l.toNat)).drop 8).take 97
        let s := { s with onl.rxKeyx := mdel s.onl.rxKeyx m }
        let good := ok && lineGet first 0 4 == 0x58464B4A && lineGet first 4 1 == m && s.img.peers.contains hash.toNat
        let s := if good then { s with onl.csk := mput s.onl.csk m { boot := p.xseq, hash := hash.toNat, key := key } } else s
        let s := s.sendAck c .keyx x.cu.smod p.xseq (if good then 1 else 4)
        if s.onl.keyxSeen.contains (m, p.xseq) then s else { s with onl.keyxSeen := (m, p.xseq) :: s.onl.keyxSeen }.sendKeyx m

/-! ### Transit, import and return (R353, R355, R356) -/

/-- XFER: the egress cell unwraps the packet and sends it on the link; one that carries the old CEP, and whose next hop changed,
is absorbed (R349), and so is one past HOP_LIMIT. -/
def execXfer (p : Pkt) (s : State) : Outcome State Fault Refusal :=
  .next <|
    s.arrive p fun s => match unwrap p with
      | none => s.inc (F.ONL_PROTO_COUNT p.dst)
      | some x =>
        let a := p.dst
        if x.cu.hops.val > s.rd (F.ONL_CHAIN_HOP_LIMIT 0) then s.inc (F.ONL_HOP_ABSORB_COUNT a)
        else if x.cu.cep ≠ s.cep ∧ s.hopChanged x.cu.dmod.val then s.absorbChain a [x]
        else
          let x : CPkt := { x with cu := { x.cu with cep := s.cep } }
          if s.linkSt a = 3 then s.queueOn a x else s.chainOut a x
/-- CHAIN_IMPORT (R355): the oldest request that waits takes a chain slot and goes to its MCELL; MSPEC needs none for long. A
FREE or LOST extent has no MCELL, and its completions go back at once (R230). SAFE_STOP admits nothing more and absorbs what waits (R345). -/
def execChainImport (c : Cell) (s : State) : Outcome State Fault Refusal :=
  .next <|
    match (mgetD [] s.onl.arrived c.val).find? (fun (e : Cell × CPkt) => chainReq e.2.p.opc) with
    | none => s
    | some e =>
      let x := e.2
      if s.mode = .safeStop then (s.chainTake c x).absorbChain e.1 [x] else
      let free := (List.range 256).find? (fun k => (mget s.onl.cslot (c.val * 1024 + 768 + k)).isNone)
      match free with
      | none => s
      | some k =>
        let k : Slot := Fin.ofNat 1024 (768 + k)
        let s := (s.chainTake c x).inc (F.ONL_CSLOT_IMPORTS c)
        let ent := s.homeExt c x.p.ext
        let q := { x.p with src := c, tagCell := c, tagSlot := k, gen := 0, hslot := Fin.ofNat 128 x.cu.smod.val, home := c, dst := ent.mcell, mcell := ent.mcell, priv := false }
        if x.p.opc = .mspec then (if ent.noMem then s else s.send q)
        else
          let s := { s with onl.cslot := mput s.onl.cslot (c.val * 1024 + k.val) { smod := x.cu.smod, hdr := { x.p with data := [] }, awData := true } }.inc (F.ONL_CSLOT_IN_USE c)
          if !ent.noMem then s.send q
          else if x.p.opc = .mrd then s.answerPoison c { q with dst := c }
          else s.answerWrite c { q with dst := c }
/-- ONORA_RESPONSE_RETURN (R356): the address goes back to the local extent; RDATA and WCMP go to the tag's cell, MCMP to the
line's home in that cell's domain. -/
def execOnoraResponseReturn (c : Cell) (x : CPkt) (s : State) : Outcome State Fault Refusal :=
  .next <|
    let s := s.chainTake c x
    match s.onl.rext.find? (fun (e : Nat × Nat × Nat) => e.2.1 == x.cu.smod.val && e.2.2 == x.p.ext) with
    | none => s
    | some e =>
      let p : Pkt := { x.p with src := c, addr := BitVec.ofNat 52 (x.p.addr.toNat - x.p.ext * 2 ^ 30 + e.1 * 2 ^ 30) }
      if p.opc = .mcmp then s.send { p with dst := s.homeOf p.tagCell p.line } else s.send { p with dst := p.tagCell }

end Sys2Proof.Machine
end

