-- ==== Sys2Proof/Machine/Mem.lean ====
section
/-! DEFINITION. The commands of MEMORY cells (spec/08 R225 to R230), with the export-peer check of chain-borne requests
(spec/09 R272); at an ONORA cell the same messages leave for exported capacity (spec/11 R354). -/

namespace Sys2Proof.Machine
open Host

/-- The DPA of a pool line in its instance's regions; the pool address itself where no region holds it. -/
def State.dpaOf (s : State) (i line : Nat) : Nat :=
  match (s.owner i).regions.find? (fun (r : Region) => r.poolLine.toNat ≤ line && line < r.poolLine.toNat + r.len.toNat) with
  | some r => (r.dpaLine.toNat + (line - r.poolLine.toNat)) * 64
  | none => line * 64
/-- R272: a chain-borne request is accepted only from the export peer of the EXPORTED instance that owns the extent. -/
def State.peerOk (s : State) (p : Pkt) : Bool :=
  -- an MSPEC holds no chain slot: it carries the number of one (R355)
  let chain : Bool := match s.chainSlot p.tagCell p.tagSlot with
    | none => p.opc == .mspec && s.roleOf p.tagCell == .onora && decide (768 ≤ p.tagSlot.val)
    | some x => x.hdr.line == p.line
  let e := s.homeExt p.dst p.ext
  !chain || (!e.group && s.instSt e.owner == 0xA && (s.owner e.owner.val).peer == some p.hslot.val)
/-- The record of a request that fails the check: requester 6, REASON 0x6. -/
def State.exportViolation (s : State) (p : Pkt) (write : Bool) : State :=
  let i := (s.homeExt p.dst p.ext).owner.val
  s.violate p.dst
    { time := 0, inst := i, requester := 6, cell := 0, port := s.anchorOf p.tagCell, access := write.toNat, reason := 6, parts := 1, denied := 1,
      addr := s.dpaOf i p.line, len := 64, deniedBytes := 64 }

/-- MRD (R225). Like MSPEC and WDATA, it waits while its key is being loaded (R282). -/
def execMrd (p : Pkt) (s : State) : Outcome State Fault Refusal :=
  .next <|
    let p := { p with opc := Opc.mrd }
    if s.keyWait p.dst p then s else
    s.arrive p fun s =>
      if s.roleOf p.dst = .onora then s.exportSend p.dst p
      else if s.peerOk p then s.memRead p.dst p
      else (s.exportViolation p false).answerRead p.dst p 0 false
/-- MSPEC (R176): one that fails the check starts no read (R269, R272). -/
def execMspec (p : Pkt) (s : State) : Outcome State Fault Refusal :=
  .next <|
    let p := { p with opc := Opc.mspec }
    if s.keyWait p.dst p then s else
    s.arrive p fun s =>
      if s.roleOf p.dst = .onora then s.exportSend p.dst p
      else if s.peerOk p then s.memSpec p.dst p
      else s.exportViolation p false
/-- WDATA (R225, R227, R253). -/
def execWdata (p : Pkt) (s : State) : Outcome State Fault Refusal :=
  .next <|
    let p := { p with opc := Opc.wdata }
    if s.keyWait p.dst p then s else
    s.arrive p fun s =>
      if s.roleOf p.dst = .onora then s.exportSend p.dst p
      else if s.peerOk p then s.memWrite p.dst p
      else (s.exportViolation p true).answerWrite p.dst p
/-- EXPANDER_READ_DATA (R33, R228, R279). -/
def execExpanderReadData (m : Cell) (acc : Nat) (raw : Line) (st : ExpSt) (s : State) : Outcome State Fault Refusal :=
  .next (s.expReadData m acc raw st)
/-- EXPANDER_WRITE_COMPLETE (R35, R227). -/
def execExpanderWriteComplete (m : Cell) (acc : Nat) (s : State) : Outcome State Fault Refusal :=
  .next (s.expWriteDone m acc)
/-- MFLUSH (R368). -/
def execMflush (p : Pkt) (s : State) : Outcome State Fault Refusal :=
  .next <|
    let p := { p with opc := Opc.mflush }
    s.arrive p fun s =>
      ((s.putAcc { cell := p.dst, p := p, write := false, awOwn := false, flush := true }).2).answerFlushes p.dst p.line

end Sys2Proof.Machine
end

