-- ==== Sys2Proof/Machine/Fence.lean ====
section
/-! DEFINITION. Fence epochs (spec/02 R67 to R69): what a router does with the map, what changes when the epoch closes
(spec/03 R99, R102, spec/06 R161, spec/07 R206 to R212, spec/08 R229, R256, R258, spec/12 R364 to R376), the sweeps that
restore work, and the return of elements (R374). -/

namespace Sys2Proof.Machine
open Host (Outcome)

/-! ### What an epoch changes -/

/-- A cell, or a stack, is fenced under a map, by itself or with its die. -/
def FenceMap.cellGone (m : FenceMap) (c : Nat) : Bool := m.cells.contains c || m.dies.contains (c / 16)
def FenceMap.stackGone (m : FenceMap) (k : Nat) : Bool := m.stks.contains k || m.dies.contains (stackDie k)
/-- Cells, stacks and dies that the epoch takes out of service, and those it returns. -/
def State.cellsLost (s : State) : List Cell :=
  (List.finRange 128).filter (fun (c : Cell) => s.scrim.fence.cellGone c.val && !s.scrim.oldFence.cellGone c.val)
def State.cellsBack (s : State) : List Cell :=
  (List.finRange 128).filter (fun (c : Cell) => s.scrim.oldFence.cellGone c.val && !s.scrim.fence.cellGone c.val)
def State.stacksLost (s : State) : List Nat := (List.range 4).filter (fun k => s.scrim.fence.stackGone k && !s.scrim.oldFence.stackGone k)
def State.stacksBack (s : State) : List Nat := (List.range 4).filter (fun k => s.scrim.oldFence.stackGone k && !s.scrim.fence.stackGone k)
def State.diesLost (s : State) : List Nat := s.scrim.fence.dies.filter (fun d => !s.scrim.oldFence.dies.contains d)
def State.diesBack (s : State) : List Nat := s.scrim.oldFence.dies.filter (fun d => !s.scrim.fence.dies.contains d)
/-- Anchors of configured ports that lose a cell while all of their cells were in service. -/
def State.portsLost (s : State) : List Cell :=
  ((s.cellsLost.map (fun (c : Cell) => s.anchorOf c)).dedup).filter (fun (a : Cell) =>
    s.roleOf a != .idle && !(s.portMembers a).any (fun (m : Cell) => s.scrim.oldFence.cellGone m.val))
/-- The route between two cells, in either direction, is not what it was, or the far one is fenced. -/
def State.legLost (s : State) (a b : Nat) : Bool :=
  let old := s.scrim.oldFence
  let new := s.scrim.fence
  new.cellGone b || (!(old.links == new.links && old.dies == new.dies) && (route old a b != route new a b || route old b a != route new b a))
/-- The cell that an index of HOME_MAP passes to when cell d × 16 + idx mod 16 is not in service (R206); d is the die of its
image cell. -/
def State.successor (s : State) (topo d idx : Nat) : Option Nat :=
  let ok (e : Nat) : Bool := !s.scrim.fence.cellGone (e * 16 + idx % 16)
  let x := (d + 4) % 8
  if ok x then some (x * 16 + idx % 16)
  else ((domainDies topo d).find? (fun e => e != d && ok e)).map (fun e => e * 16 + idx % 16)
/-- The cell that HOME_MAP names for an index from this epoch on (R206, R212). -/
def State.nextHome (s : State) (c : Cell) (idx cur : Nat) : Nat :=
  let img := imageCell (s.topo c) (dieOf c) idx
  if s.scrim.give = 2 ∧ s.home.giving.contains (cur * 128 + idx) ∧ !s.scrim.fence.cellGone img.val then img.val
  else if s.scrim.fence.cellGone cur then (s.successor (s.topo c) (dieOf img) idx).getD cur
  else cur
/-- Entry i of HOME_MAP in cell c. -/
def mapFld (c i : Nat) : Fld := F.HOME_MAP_CELL c (i / 8) (i % 8)

/-! ### FENCE_MAP: a router's part (R67 steps 3 to 5) -/

/-- Dies of the coherence domains of a topology. -/
def domainsOf (topo : Nat) : List (List Nat) := if topo = 1 then [[0, 1, 4, 5], [2, 3, 6, 7]] else if topo = 2 then [[0, 4], [1, 5], [2, 6], [3, 7]] else []
/-- The extents whose lines the hosts of a domain without a die in service may hold: LOST (Table 12-6). -/
def State.domainLost (s : State) : List (Nat × ExtEnt) :=
  ((domainsOf (s.topo s.refCell)).filter (fun (l : List Nat) => l.all s.scrim.fence.dies.contains && !l.all s.scrim.oldFence.dies.contains)).flatMap
    (fun (l : List Nat) =>
      ((List.range 4096).filter (fun i => s.instSt i != 0 && s.instSt i != 1 && l.contains (s.rd (F.INST_INFO_HOST_PORT i) / 16))).flatMap
        (fun i => (s.owner i).exts.map (fun e => (e, { s.extNow e with st := ExtSt.lost, mcell := 0, mcell2 := 0 }))))
/-- The epoch reaches its first router: retained cells wake (R414), and the changes of the extent map that the fence causes
travel with the map (R226, R229). -/
def State.epochStarts (s : State) : State :=
  let s := if s.mode = .drowse then (List.finRange 128).foldl (fun (s : State) (c : Cell) => s.wakeCell c) s else s
  let s := (s.portsLost.filter (fun (a : Cell) => s.roleOf a == .memory)).foldl (fun (s : State) (a : Cell) =>
    let (t, l) := s.loseSides a false
    { t with scrim.extChg := l ++ t.scrim.extChg, pool.expander := mdel t.pool.expander a.val }) s
  { s with scrim.extChg := s.domainLost ++ s.scrim.extChg }
/-- The scan of router c's input buffers (R67): a packet whose route changes is absorbed, any other takes the new FEP. -/
def State.scanBuffers (s : State) (c : Cell) (fep : Bool) : State :=
  let old := s.scrim.oldFence
  let new := s.scrim.fence
  let still := old.links == new.links && old.dies == new.dies
  let here := (s.scrim.flight.filter (fun (f : Flying) => f.loc == c && f.inj == 2)).map (fun (f : Flying) => f.p)
  let parts := (List.range 5).flatMap (fun i => (s.units c i).map (fun (b : BufUnit) => b.p)
    ++ (mgetD [] s.scrim.unacked (c.val * 5 + i)).map (fun (x : Pkt × Nat) => x.1))
  let mine := (here ++ parts ++ mgetD [] s.scrim.waiting c.val).foldl (fun (l : List Pkt) p => if l.any (fun q => q.same p) then l else l ++ [p]) []
  let stale := if still then [] else mine.filter (fun (p : Pkt) => route old p.src.val p.dst.val != route new p.src.val p.dst.val)
  let s := (s.lose stale).sat (F.SCRIM_ABSORB_STALE c) stale.length
  let stamp (p : Pkt) : Pkt := { p with fep := fep }
  { s with
    scrim.flight := s.scrim.flight.map (fun (f : Flying) => if f.loc = c ∧ f.inj = 2 then { f with p := stamp f.p } else f)
    scrim.buf := s.scrim.buf.map (fun e => if e.1 / 5 = c.val then (e.1, e.2.map (fun (b : BufUnit) => { b with p := stamp b.p })) else e)
    scrim.rx := s.scrim.rx.map (fun e => if e.1 / 40 = c.val then (e.1, (stamp e.2.1, e.2.2)) else e)
    scrim.finish := s.scrim.finish.map (fun e => if e.1 / 40 = c.val then (e.1, e.2.map (fun x => (stamp x.1, x.2))) else e)
    scrim.unacked := s.scrim.unacked.map (fun e => if e.1 / 5 = c.val then (e.1, e.2.map (fun x => (stamp x.1, x.2))) else e)
    scrim.waiting := s.scrim.waiting.map (fun e => if e.1 = c.val then (e.1, e.2.map stamp) else e)
    scrim.heldUnits := s.scrim.heldUnits.map (fun e => if e.1 = c.val then (e.1, e.2.map (fun x => (stamp x.1, x.2))) else e) }
/-- Hops of a route. -/
def routeHops (m : FenceMap) (s d : Nat) : Option Nat :=
  match route m s d with
  | .direct => some (hops s d)
  | .via w => some (hops s w + hops w d)
  | .unreachable => none
/-- A route of cell c leads over a waypoint, and further than before: the cell's hop latency yields to the containment of the fault (R74). -/
def State.detoured (s : State) (c : Cell) : Bool :=
  let new := s.scrim.fence
  !(new.links = [] ∧ new.dies = []) && (List.range 128).any (fun d => match routeHops s.scrim.oldFence c.val d, routeHops new c.val d with
    | some a, some b => a < b
    | _, _ => false)
/-- The local port of a fenced cell goes to ABSORB: what it held is discarded there, and a drain that it cuts short ends as DRAINED
(R67, R71); that of a returned cell is NORMAL again. Outputs of returned links are alive. -/
def State.setLocal (s : State) (c : Cell) : State :=
  let s := if s.scrim.fence.cellGone c.val then
      let s := if s.rd (F.SCRIM_RTR_STATUS_DRAIN_STATE c) = 1 then s.wr (F.SCRIM_RTR_STATUS_DRAIN_STATE c) 2 else s
      let held := (mgetD [] s.scrim.waiting c.val).filter (fun p => outOf c p == .loc)
      let s := (s.wr (F.SCRIM_RTR_STATUS_LOCAL_MODE c) 2).releaseHold c
      -- what the local output has not discarded unit by unit
      let held := held.filter (fun p => s.scrim.flight.any (fun f => f.p.same p))
      (s.lose held).sat (F.SCRIM_ABSORB_FENCED_DST c) held.length
    else if s.scrim.oldFence.cellGone c.val then
      (((s.wr (F.SCRIM_RTR_STATUS_DRAIN_STATE c) 0).wr (F.SCRIM_RTR_STATUS_LOCAL_MODE c) 0).wrBit (F.SCRIM_RTR_STATUS_OUT_DEAD c) 4 false)
    else s
  [Dir.north, .east, .south, .west].foldl (fun (s : State) (d : Dir) => match linkOf c.val d with
    | some n =>
      if s.scrim.oldFence.links.contains n && !s.scrim.fence.links.contains n then
        let s := s.wrBit (F.SCRIM_RTR_STATUS_OUT_DEAD c) d.num false
        match edgeOf c.val d with
        | some (e, j) => s.wrBit (F.DIE_LATH_STATUS_LINK_DEAD (dieOf c) e) j false
        | none => s
      else s
    | none => s) s
/-- Cell c applies HOME_MAP and the extent map changes of the epoch together (R207, R226); a returned cell takes the maps of
the others. -/
def State.applyMaps (s : State) (c : Cell) : State :=
  let back := s.scrim.oldFence.cellGone c.val
  let r : Cell := if back then ((domainDies (s.topo c) (dieOf c)).flatMap (fun d => (List.range 16).map (fun i => Cell.of (d * 16 + i)))).find?
      (fun (x : Cell) => !s.scrim.oldFence.cellGone x.val && !s.scrim.fence.cellGone x.val) |>.getD c else c
  let s := (List.range (domainCells (s.topo c))).foldl (fun (s : State) i =>
    let cur := s.rd (mapFld r i)
    let n := s.nextHome c i cur
    if n = cur && !back then s else s.wr (mapFld c i) n) s
  let s := if back then { s with
      home.ext := (s.home.ext.filter (fun (e : Nat × ExtEnt) => e.1 / 65536 == r.val)).foldl (fun (m : NMap ExtEnt) (e : Nat × ExtEnt) =>
        mset {} m (c.val * 65536 + e.1 % 65536) e.2) (mkeep (fun k _ => k / 65536 != c.val) s.home.ext) } else s
  s.scrim.extChg.foldl (fun (s : State) (x : Nat × ExtEnt) => { s with
    scrim.extOld := mput s.scrim.extOld (c.val * 65536 + x.1) (s.extOf c x.1)
    home.ext := mset {} s.home.ext (c.val * 65536 + x.1) x.2 }) s
/-- The FEP that router c takes: the other of its own, and for a returned die that of the routers that never left. -/
def State.nextFep (s : State) (c : Cell) : Bool :=
  if !s.scrim.oldFence.dies.contains (dieOf c) then !s.rdb (F.SCRIM_RTR_STATUS_FEP c)
  else match (List.finRange 128).find? (fun (r : Cell) => !s.scrim.oldFence.dies.contains (dieOf r) && !s.dieFenced (dieOf r)) with
    | some r => s.rdb (F.SCRIM_RTR_STATUS_FEP r) == s.scrim.applied.contains r
    | none => !s.rdb (F.SCRIM_RTR_STATUS_FEP c)
/-- FENCE_MAP (R67): the router of cell c takes the new map. A fenced die's router takes no part. -/
def execFenceMap (c : Cell) (s : State) : Outcome State Fault Refusal :=
  .next <|
    if !s.scrim.epochOpen ∨ s.scrim.applied.contains c ∨ s.dieFenced (dieOf c) then s
    else
      let s := if s.scrim.applied = [] then s.epochStarts else s
      let fep := s.nextFep c
      let s := (s.scanBuffers c fep).wrb (F.SCRIM_RTR_STATUS_FEP c) fep
      let s := (s.setLocal c).applyMaps c
      let s := if s.detoured c then s.logYield 4 6 (some c) 0xFFFF 0x010C c.val else s
      { s with scrim.applied := c :: s.scrim.applied }

/-! ### The close: what is lost -/

/-- Frames of a spill context whose stack is fenced are lost internal work, and the VOQ is NORMAL (R99). -/
def State.loseCtx (s : State) (c : Cell) (n : Nat) : State :=
  match s.sctx c n with
  | none => s
  | some x =>
    let s := ((x.frames.filter (fun (w : WFrame) => !w.acked)).map (·.charge)).foldl (fun (s : State) g => s.freeGran c x.out x.tc g true) s
    let s := x.wait.foldl (fun (s : State) (f : Frame) => s.freeGran c x.out x.tc f.p.granules false) s
    let ps := x.frames.map (fun (w : WFrame) => w.f.p) ++ x.wait.map (fun (f : Frame) => f.p)
    (s.lose ps).closeCtx c n false
/-- The cells that spill to stack k now. -/
def State.spillers (s : State) (k : Nat) : List Cell := (List.finRange 128).filter (fun (c : Cell) => s.spillStack c == k)
/-- The run of die x stops (R215). -/
def State.stopRun (s : State) (x : Nat) : State :=
  if s.rdb (F.DIR_REBUILD_STATUS_ACTIVE x) then
    ((s.wr (F.DIR_REBUILD_STATUS_ACTIVE x) 0).wr (F.DIR_REBUILD_STATUS_RESULT x) 2).takeBlock x else s
/-- The stack of die d is lost, that of die d' is its partner (R215). A run whose source is d goes on at its target d', from where it stood; a run
whose target is d stops, and its source applies the writes it held; a run that had gone on at d stops. -/
def State.stopCopies (s : State) (d d' : Nat) : State :=
  let q := s.rd (F.DIR_REBUILD_STATUS_QUARTER d)
  let m := s.toMirror d
  let go := s.rdb (F.DIR_REBUILD_STATUS_ACTIVE d) && s.rd (copyState d' m) = 2 && !s.stackFenced (dieStack d')
  let n := s.rd (F.DIR_REBUILD_STATUS_CURSOR d)
  let s := ((s.rsApply d' false).stopRun d').stopRun d
  if go then
    let s := ((s.wr (F.DIR_REBUILD_STATUS_ACTIVE d') 1).wr (F.DIR_REBUILD_STATUS_QUARTER d') q).wrb (F.DIR_REBUILD_STATUS_TARGET d') m
    ((s.wr (F.DIR_REBUILD_STATUS_TOTAL d') resilverBlocks).wr (F.DIR_REBUILD_STATUS_CURSOR d') n).wr (F.DIR_REBUILD_STATUS_RESULT d') 0
  else s
/-- A stack leaves service: its cells spill to the partner (R102), its copies of the directory are gone (R161), and a copy
engine that used it stops (R215). -/
def State.stackLoss (s : State) (k : Nat) : State :=
  let d := stackDie k
  let k' := (k + 2) % 4
  let d' := stackDie k'
  let cs := s.spillers k
  let other := !s.stackFenced k'
  let s := (s.spill.ctx.filter (fun (e : Nat × SpillCtx) => e.2.stack == k)).foldl (fun (s : State) e => s.loseCtx (Cell.of (e.1 / 64)) (e.1 % 64)) s
  let s := cs.foldl (fun (s : State) (c : Cell) =>
    let s := s.setSpare c []
    if other then s.wr (F.XBAR_STATUS_STACK c) k' else s.wr (F.XBAR_STATUS_WHEY_OK c) 0) s
  let s := { s with
    spill.granted := mkeep (fun x _ => x / 2 ^ 21 != k) s.spill.granted, spill.link := mkeep (fun x _ => x / 2 ^ 21 != k) s.spill.link }
  let s := (cs.foldl State.showUse s).xingReset (xingOfHbm d)
  let s := s.wr (F.SPILL_STACK_STATUS_STATE d) 2
  let s := if other then (s.wr (F.SPILL_STACK_STATUS_STATE d') 1).showPool k' else s
  let s := s.stopCopies d d'
  let s := (s.wr (F.DIR_STACK_STATUS_PRI_STATE d) 3).wr (F.DIR_STACK_STATUS_MIR_STATE d) 3
  let single (s : State) (f : Fld) : State := if s.rd f = 0 then s.wr f 1 else s
  let s := if other then single (single s (F.DIR_STACK_STATUS_PRI_STATE d')) (F.DIR_STACK_STATUS_MIR_STATE d') else s
  { s with
    home.dirP := mkeep (fun x _ => primaryDie (x / 16 / 2 ^ 20 / 16) != d) s.home.dirP
    home.dirM := mkeep (fun x _ => primaryDie (x / 16 / 2 ^ 20 / 16) != d') s.home.dirM
    home.ring := mkeep (fun x _ => x / 2 ^ 40 != k) s.home.ring
    home.rsHeld := mdel s.home.rsHeld d }
/-- A stack is back: its chunks are free, its cells spill to it again, and its copies wait to be re-silvered (R374). -/
def State.stackReturn (s : State) (k : Nat) : State :=
  let d := stackDie k
  let k' := (k + 2) % 4
  let d' := stackDie k'
  let both := s.stackFenced k'
  let cs := (List.finRange 128).filter (fun (c : Cell) => homeStack c == k || (both && homeStack c == k'))
  let s := cs.foldl (fun (s : State) (c : Cell) =>
    if s.spill.ctx.any (fun (e : Nat × SpillCtx) => e.1 / 64 == c.val) then s else s.spillTo c k) s
  let s := (s.showPool k).wr (F.SPILL_STACK_STATUS_STATE d) (if both then 1 else 0)
  if s.stackFenced k' then s else (s.wr (F.SPILL_STACK_STATUS_STATE d') 0).showPool k'
/-- An Onora link whose port has lost a cell is down: the other link of its pair takes over, and what it held is absorbed
(R344). -/
def State.onoraGone (s : State) (a : Cell) : State :=
  let was := s.linkUp a
  let other := (s.pairOf a).bind (fun (b : Cell) => if s.linkSt a = 3 ∧ s.linkSt b = 2 then some b else none)
  let held := (((mgetD [] s.onl.store a.val).flatMap (fun (o : OStored) => o.pkts)) ++ mgetD [] s.onl.queue a.val).eraseDups
  let s := ((s.linkReset a).wr (F.ONL_STATUS_LINK_STATE a) 0).wr (F.ONL_STATUS_TRAIN_STATE a) 0
  let s := match other with
    | some b => s.wr (F.ONL_STATUS_LINK_STATE b) 3
    | none => s
  if was then s.adjacency.absorbChain a held else s
/-- Every home that knows slot hs loses it. -/
def State.loseSlots (s : State) (a : Cell) : State :=
  let hs := s.hslotOf a
  (s.domainOf a).foldl (fun (s : State) (c : Cell) => if s.cellFenced c ∨ hs.val ≥ 96 ∨ (s.twinOf c hs).isNone then s else s.loseSlot c hs) s
/-- What a port that is gone did, by its role. -/
def State.roleGone (s : State) (a : Cell) : State :=
  match s.roleOf a with
  | .host => (s.hostDown a).loseSlots a
  | .device => s.deviceDown a
  | .onora => s.onoraGone a
  | _ => s
/-- A port that has lost a cell is down (R362); the instances of a host port follow R238. -/
def State.portGone (s : State) (a : Cell) : State := ((s.portOut a 0).ideOff a 0).roleGone a
/-- A migration whose target anchor is fenced before thaw aborts (Table 8-9). -/
def State.targetsGone (s : State) (ps : List Cell) : State :=
  s.pool.migs.foldl (fun (s : State) (e : Nat × Mig) =>
    if (!e.2.save || e.2.srcPort ≥ 128) && !e.2.thawed && e.2.tModule == s.chainAddr && ps.any (fun (a : Cell) => a.val == e.2.tPort) then
      s.migBack e.1 4 else s) s
/-- A packet of an HBM controller or an engine, which a cell's loss leaves alone (log 9). -/
def fromCtrl (p : Pkt) : Bool := p.opc == .dirdata || p.opc == .dirack || p.opc == .bulk || p.opc == .recall || p.tagSlot.val == 0x3FF
/-- Everything that a fenced cell held is lost (R207, R278, R366). -/
def State.dropCell (s : State) (c : Cell) : State :=
  let n := c.val
  let s := (List.range 64).foldl (fun (s : State) i => s.loseCtx c i) s
  let s := ((s.spare c).foldl (fun (s : State) ch => s.freeChunk c (s.spillStack c) ch) s).setSpare c []
  let s := { s with
    xbar.slots := mkeep (fun k _ => k / 1024 != n) s.xbar.slots, xbar.voq := mkeep (fun k _ => k / 800 != n) s.xbar.voq
    xbar.waiting := mkeep (fun k _ => k / 10 != n) s.xbar.waiting, xbar.shared := mkeep (fun k _ => k / 80 != n) s.xbar.shared
    xbar.resUsed := mkeep (fun k _ => k / 80 != n) s.xbar.resUsed, xbar.kept := mkeep (fun k _ => k / 1024 != n) s.xbar.kept
    xbar.skimWin := mdel s.xbar.skimWin n, xbar.rowPtr := mdel s.xbar.rowPtr n, xbar.skimAt := mdel s.xbar.skimAt n
    xbar.admitAt := mkeep (fun k _ => k / 10 != n) s.xbar.admitAt
    xbar.runEnd := mdel s.xbar.runEnd n, xbar.leaving := s.xbar.leaving.filter (fun (l : Leaving) => l.cell != c)
    xbar.outBusy := mkeep (fun k _ => k / 10 != n) s.xbar.outBusy, xbar.inBusy := mkeep (fun k _ => k / 10 != n) s.xbar.inBusy
    scrim.timing := mkeep (fun k _ => k / 1024 != n) s.scrim.timing
    scrim.timed := s.scrim.timed.filter (fun k => k / 1024 != n)
    scrim.flight := s.scrim.flight.filter (fun (f : Flying) => !(f.loc == c && (f.inj == 0 || f.inj == 3) && !fromCtrl f.p) && !(f.p.opc == Opc.bulk && f.p.tagCell == c)), scrim.committed := s.scrim.committed.filter (· != c) }
  let s := { s with
    home.cache := mkeep (fun k _ => k / 512 != n) s.home.cache, home.tt := mkeep (fun k _ => k / 1024 != n) s.home.tt
    home.ring := ((mgetD [] s.home.intake n).foldl (fun (t : State) r => t.ringFree c r) s).home.ring
    home.intake := mdel s.home.intake n, home.conflicts := mdel s.home.conflicts n, home.bitag := mkeep (fun k _ => k / 4096 != n) s.home.bitag
    home.snpHeld := mdel s.home.snpHeld n, home.proxy := mkeep (fun k _ => k / 4096 != n) s.home.proxy
    home.pchain := mdel s.home.pchain n, home.fwdWait := mdel s.home.fwdWait n, home.fwdServe := mdel s.home.fwdServe n
    home.parked := mdel s.home.parked n, home.setAside := mdel s.home.setAside n, home.adopted := mdel s.home.adopted n
    home.held := s.home.held.filter (fun k => k / 128 != n), home.giving := s.home.giving.filter (fun k => k / 128 != n)
    home.twinLost := s.home.twinLost.filter (fun k => k / 128 != n), home.looking := s.home.looking.filter (· != c) }
  let s := { s with
    pool.hold := mdel s.pool.hold n, pool.devHeld := mdel s.pool.devHeld n, pool.hdm := mdel s.pool.hdm n
    sec.region := mkeep (fun k _ => k / 1024 != n) s.sec.region, sec.keyRam := mkeep (fun k _ => k / 8192 != n) s.sec.keyRam
    sec.loads := s.sec.loads.filter (fun x => x.1 != n)
    onl.cslot := mkeep (fun k _ => k / 1024 != n) s.onl.cslot, onl.arrived := mdel s.onl.arrived n }
  let s := [F.XBAR_TRACK_at n, F.XBAR_SPILL_USE_at n, F.HOME_TT_at n, F.HOME_INTAKE_at n, F.HOME_PROXY_STATUS_at n, F.HOME_PARK_at n,
            F.HOME_TAKE_at n, F.ONL_CSLOT_at n].foldl (fun (s : State) a => s.setReg a (regReset a)) s
  (((s.wr (F.INST_PORT_STATUS_HOLD_USED n) 0).wr (F.HOME_STATUS_STATE n) 2).bufFresh c).xingReset (xingOfCell c)
/-- The standby processor of the active one on die d, if it runs (R27). -/
def State.nextSp (s : State) (d : Die) : Option Die :=
  let x : Die := Fin.ofNat 8 (7 - d.val)
  if s.dieFenced x ∨ s.spGone.contains x then none else some x
/-- A die leaves service: its PLL stops, its service processor is gone and the standby takes over (R27), and edges that face it
are off (R63); what its routers held is lost. -/
def State.dieLoss (s : State) (d : Nat) : State :=
  let s := s.wr (F.DIE_PLL_STATUS_STATE d) 0
  let s := if s.activeSp = some (Fin.ofNat 8 d) then
      { s with activeSp := s.nextSp (Fin.ofNat 8 d) } else s
  let s := (List.range 4).foldl (fun (s : State) e => match edgeFaces d e with
    | some x =>
      let e' := (e + 2) % 4
      let off (s : State) (d e : Nat) : State := (s.wr (F.DIE_LATH_STATUS_STATE d e) 0).wrBit (F.DIE_STATUS_EDGE_UP d) e false
      off (off s d e) x e'
    | none => s) s
  { s with
    scrim.buf := mkeep (fun k _ => k / 5 / 16 != d) s.scrim.buf, scrim.rx := mkeep (fun k _ => k / 8 / 5 / 16 != d) s.scrim.rx
    scrim.eject := mkeep (fun k _ => k / 8 / 16 != d) s.scrim.eject, scrim.finish := mkeep (fun k _ => k / 8 / 5 / 16 != d) s.scrim.finish
    scrim.unacked := mkeep (fun k _ => k / 5 / 16 != d) s.scrim.unacked, scrim.oldWeight := mkeep (fun k _ => k / 5 / 16 != d) s.scrim.oldWeight
    scrim.waiting := mkeep (fun k _ => k / 16 != d) s.scrim.waiting
    scrim.heldUnits := mkeep (fun k _ => k / 16 != d) s.scrim.heldUnits
    scrim.training := s.scrim.training.filter (fun n => !(dieSeams d).contains n)
    scrim.flight := s.scrim.flight.filter (fun (f : Flying) => dieOf f.loc != d) }.xingReset (xingOfDie d)
/-- What the epoch takes out of service. -/
def State.takeOut (s : State) : State :=
  let ps := s.portsLost
  let cs := s.cellsLost
  let s := s.stacksLost.foldl State.stackLoss s
  let s := s.diesLost.foldl State.dieLoss s
  let s := ps.foldl State.portGone s
  let s := s.targetsGone ps
  cs.foldl State.dropCell s

/-! ### The close: takeover, DEGRADED -/

/-- Takeover begins (R206 to R208): cells that HOME_MAP names for more indices than the image gave them hold those lines in B_TAKE.
Answers whether any cell adopts. -/
def State.takeover (s : State) : State × Bool :=
  (List.finRange 128).foldl (fun (x : State × Bool) (h : Cell) =>
    let s := x.1
    if s.cellFenced h then x
    else
      let served := (List.range (domainCells (s.topo h))).filter (fun i => s.rd (mapFld h i) == h.val)
      let mine := served.filter (fun i => (imageCell (s.topo h) (dieOf h) i).val != h.val)
      let had := mgetD [] s.home.adopted h.val
      let new := mine.filter (fun i => !had.contains i)
      let s := if mine = had then s else { s with home.adopted := mset [] s.home.adopted h.val mine }
      let s := (s.wr (F.HOME_STATUS_SERVED h) served.length).wr (F.HOME_STATUS_STATE h) (if mine = [] then 0 else 1)
      let s := s.wr (F.HOME_TAKE_ADOPTED h) mine.length
      match new.getLast? with
      | none => (s, x.2)
      | some i =>
        let keys := new.map (fun j => h.val * 128 + j)
        let s := { s with
          home.held := s.home.held ++ keys.filter (fun k => !s.home.held.contains k)
          home.gaveBack := s.home.gaveBack.filter (fun k => !keys.contains k), home.takeAt := s.us }
        ((s.wr (F.HOME_TAKE_STATE h) 1).wr (F.HOME_TAKE_FROM_CELL h) (imageCell (s.topo h) (dieOf h) i).val, true)) (s, false)
/-- Unfenced links among the eight that cross X = 7|8 (R373). -/
def FenceMap.bisection (m : FenceMap) : Nat :=
  ((List.range 8).filter (fun y => !m.links.contains (hLink 7 y) && !m.dies.contains (cellAt 7 y / 16) && !m.dies.contains (cellAt 8 y / 16))).length
/-- The minimums are scaled by the surviving bisection (R373). -/
def State.rescale (s : State) : State :=
  let f := s.scrim.fence.bisection
  if f = s.log.scale then s
  else
    let t := { s with log.scale := f }
    if f < s.log.scale then t.logYield 4 5 none 0xFFFF 0x0101 f else t
/-- Fences of SELF_TEST and BRING_UP are beyond the image's tolerance (R41, Table 12-11). -/
def State.beyond (s : State) : Bool :=
  let m := s.scrim.fence
  m.cells.length > s.rd F.PKG_FAULT_CFG_TOL_CELLS || m.dies.length > min 1 (s.rd F.PKG_FAULT_CFG_TOL_DIES)
    || m.stks.length > min 1 (s.rd F.PKG_FAULT_CFG_TOL_STACKS) || m.links.length > s.rd F.PKG_FAULT_CFG_TOL_SEAMS
/-- A fault fenced an element (R41, R42, R44, Table 1-9). -/
def State.degrade (s : State) : State :=
  let seq := ((s.log.fault.find? (fun (r : FaultRec) => r.kind == 1 && r.cls ≤ 5)).map (·.seq)).getD 0
  match s.mode with
  | .selfTest => { s with img.fencedUp := true }
  | .bringUp =>
    let s := { s with img.fencedUp := true }
    if s.beyond then s.goMode .safeStop 0x08 else s
  | .maintenance => (((s.dropShadows 5 0).leaveMaint).wr F.PKG_FAULT_STATUS_LAST_SEQ seq).goMode .degraded 0x0A
  | .service | .drowse | .rebuild => (s.wr F.PKG_FAULT_STATUS_LAST_SEQ seq).goMode .degraded 0x0A
  | _ => s

/-! ### The close: sweeps of homes, proxies and engines (R368, Table 12-3) -/

/-- The extent entry that cell c had before the epoch. -/
def State.extBefore (s : State) (c : Cell) (e : Nat) : ExtEnt := (mget s.scrim.extOld (c.val * 65536 + e)).getD (s.extOf c e)
/-- The MCMP that cell h awaits from the MEMORY cell of a line is doubtful. -/
def State.mcmpLost (s : State) (h : Cell) (e : Nat) : Bool :=
  let x := s.extBefore h e
  x != s.extOf h e || s.legLost h.val x.mcell.val
/-- MFLUSH to the MEMORY cell that the updated map names; none where the extent is LOST. -/
def State.sendMflush (s : State) (h : Cell) (id : Htid) (r : Pkt) : Option State :=
  let x := s.extOf h r.ext
  if x.noMem then none else some (s.send { reply h id r .mflush x.mcell with mcell := x.mcell, home := h })
/-- The snoops and FWDs of a transaction whose legs have changed go out again. -/
def State.resnoop (s : State) (h : Cell) (id : Htid) (t : Txn) : State :=
  let s := (t.awSnp.filter (fun (x : HSlot) => !t.snpWait.contains x && s.legLost h.val (s.anchorFor h x).val)).foldl (fun (s : State) (x : HSlot) =>
    s.send { reply h id t.req t.snoopOpc (s.anchorFor h x) with hslot := x }) s
  (t.awFwd.filter (fun (x : HSlot) => s.legLost h.val (s.anchorFor h x).val)).foldl (fun (s : State) (x : HSlot) =>
    s.send { reply h id t.req .fwd (s.anchorFor h x) with mv := t.fwdMv, mcell := (s.extOf h t.req.ext).mcell }) s
/-- The copies of a transaction's set: those it may have lost an acknowledgement of are written again, and what it awaits is
what is on its way (R158, R161). -/
def State.rewriteDir (s : State) (h : Cell) (id : Htid) (t : Txn) : Txn × State :=
  let img := s.slabCell h t.req.line
  let p := primaryDie (dieOf img)
  if t.awAck = 0 ∧ t.rsAck = [] ∨ !([p, (p + 4) % 8].any (fun d => s.legLost h.val (ctrlCell d).val || s.stackFenced (dieStack d))) then (t, s)
  else
    let live (c : Cell) : Bool := !s.cellFenced c && !s.stackFenced (dieStack (dieOf c))
    let way := (s.scrim.flight.filter (fun (f : Flying) =>
      (f.p.opc == .dirwr && f.p.src == h && f.p.htid == id && live f.p.dst) || (f.p.opc == .dirack && f.p.dst == h && f.p.htid == id))).length
    let held := ((mgetD [] s.home.rsHeld p ++ mgetD [] s.home.rsHeld ((p + 4) % 8)).filter (fun (q : Pkt) => q.src == h && q.htid == id)).length
    let cs := (s.dirCopies img).filter (fun (c : Nat × Bool) => s.legLost h.val (ctrlCell c.1).val)
    let e : DirEntry := { t.next with line := BitVec.ofNat 46 t.req.line }
    let s := s.sendAll (cs.map (fun (c : Nat × Bool) =>
      { reply h id t.req .dirwr (ctrlCell c.1) with
        addr := BitVec.ofNat 52 (dirOffset img (dirSet t.req.line) t.way c.2), tc := 4, len := 1,
        bmask := BitVec.ofNat 64 (maskAt (t.way % 4 * 16) 16),
        data := [BitVec.ofNat 512 (e.enc.toNat * 2 ^ (128 * (t.way % 4)))] }))
    ({ t with awAck := way + held + cs.length, rsAck := [] }, s)
/-- A transaction in doubt of its MEMORY cell's answers flushes there, and awaits what the flush answers (R368, Table 12-3). -/
def State.flushDoubt (s : State) (h : Cell) (id : Htid) (t t1 : Txn) : Txn × State :=
  if !((t.awMrd || !t.awWb.isEmpty) && s.mcmpLost h t.req.ext) then (t1, s)
  else match s.sendMflush h id t.req with
    | none => ({ t1 with awMrd := false, awWb := [] }, s)
    | some s => ({ t1 with awWb := if t.awWb.isEmpty then [] else [Pkt.tagGen t.req] },
        if t.awMrd && !t.awWb.isEmpty then (s.sendMflush h id t.req).getD s else s)
/-- The sweep of a transaction of a tracker that stays a proxy. -/
def State.sweepProxy (s : State) (h : Cell) (id : Htid) (t t2 : Txn) : State :=
  if t2 = t then s
  else if t.phase = .wr then (if t2.awMrd then s.setTxn h id t2 else s.proxyWrote h id t2)
  else s.proxyDone h id t2
/-- The sweep of a home's transaction: snoops and directory writes again, and a set read again where its reader or its stack is gone. -/
def State.sweepHome (s : State) (h : Cell) (id : Htid) (t t2 : Txn) : State :=
  let r := (s.resnoop h id t).rewriteDir h id t2
  let p := primaryDie (dieOf (r.2.slabCell h t.req.line))
  if t.awDir then
    if [p, (p + 4) % 8].any (fun d => r.2.legLost h.val (ctrlCell d).val || r.2.stackFenced (dieStack d)) then r.2.fetchSet h id r.1 else r.2
  else if r.1 = t then r.2
  else r.2.advance h id r.1
/-- Sweep of one transaction of a home. -/
def State.sweepTxn (s : State) (h : Cell) (id : Htid) : State :=
  match s.txn h id with
  | none => s
  | some t =>
    let t1 := if t.awDone ∧ (s.cellFenced t.req.tagCell ∨ (t.granted ∧ s.legLost h.val t.req.tagCell.val)) then { t with awDone := false } else t
    let r := s.flushDoubt h id t t1
    if t.proxy then r.2.sweepProxy h id t r.1 else r.2.sweepHome h id t r.1
/-- FWDs that a proxy serves await their write-backs anew. -/
def State.sweepFwds (s : State) (a : Cell) : State :=
  (mgetD [] s.home.fwdServe a.val).foldl (fun (s : State) (f : FwdServe) =>
    if !f.awWb.isEmpty && s.mcmpLost a f.p.ext then match s.sendMflush a f.p.htid f.p with
      | none => s.fwdStep a { f with awWb := [] }
      | some s => s.setFwd a { f with awWb := [Pkt.tagGen f.p] }
    else s) s
/-- The sweep of every surviving home and proxy. -/
def State.sweepHomes (s : State) : State :=
  (List.finRange 128).foldl (fun (s : State) (h : Cell) =>
    if s.cellFenced h then s
    else ((s.txns h).foldl (fun (s : State) (x : Htid × Txn) => s.sweepTxn h x.1) s).sweepFwds h) s
/-- RECALLs of internal engines go out again; the share of a fenced die passes to the leader's (R207, Table 12-3). -/
def State.sweepRecalls (s : State) (moved : Bool) : State :=
  let one (s : State) (w : Sweep) (g : SweepEng) : State × SweepEng :=
    match g.line with
    | none => if s.dieFenced g.die then s.sweepSend w { g with die := s.leaderDie } else (s, g)
    | some l =>
      let gone := s.dieFenced g.die
      let g' := if gone then { g with die := s.leaderDie } else g
      let c := ctrlCell g'.die
      let dst := s.homeOf (Cell.of (s.rd (F.INST_INFO_HOST_PORT w.inst))) l
      if gone ∧ 2048 ≤ s.rd (F.INST_ENG_STATUS_RECALL_OPEN g'.die) then (s, { g' with line := none, next := g.next - w.engs.length }) else
      let s := if gone then s.inc (F.INST_ENG_STATUS_RECALL_OPEN g'.die) else s
      if gone ∨ moved ∨ s.legLost c.val dst.val then
        (s.send { opc := .recall, src := c, dst := dst, tagCell := c, tagSlot := 0x3FF, inst := Fin.ofNat 4096 w.inst, priv := true,
                  addr := BitVec.ofNat 52 (l * 64), tc := 6, hslot := w.only.getD 0x7F }, g')
      else (s, g')
  s.pool.sweeps.foldl (fun (s : State) (w : Sweep) =>
    let (s, gs) := w.engs.foldl (fun (x : State × List SweepEng) (g : SweepEng) =>
      let (s, g) := one x.1 w g
      (s, x.2 ++ [g])) (s, [])
    { s with pool.sweeps := s.pool.sweeps.map (fun (x : Sweep) => if x = w then { w with engs := gs } else x) }) s
/-- COPYs: the lines that are open are requested again; those of a fenced die's engine end with code 7. -/
def State.sweepCopies (s : State) (moved : Bool) : State :=
  s.pool.copy.foldl (fun (s : State) (e : Nat × CopyOp) =>
    let o := e.2
    if s.dieFenced o.die then
      let s := o.parts.foldl (fun (s : State) (q : CopyPart) => if q.ended then s else s.wr (F.INST_COPY_STATUS_PART e.1 q.num) 7) s
      { s with pool.copy := mdel s.pool.copy e.1 }.wr (F.INST_COPY_CTRL_BUSY e.1) 0
    else o.parts.foldl (fun (s : State) (q : CopyPart) =>
      if q.ended ∨ q.line ≥ q.lines then s
      else
        let l := if q.writing then s.copyCheck e.1 o .wri (q.dstDpa + q.line * 64) else s.copyCheck e.1 o .rdi (q.srcDpa + q.line * 64)
        match l with
        | none => s
        | some l =>
          let c := ctrlCell o.die
          if moved ∨ s.legLost c.val (s.homeOf c l).val ∨ s.mcmpLost c (l / 2 ^ 24) ∨ s.legLost c.val (s.extOf c (l / 2 ^ 24)).mcell.val then
            let q := { q with granted := none, data := if q.writing then q.data else none, gen := q.gen + 1 }
            match mget s.pool.copy e.1 with
            | some o => (s.setPart e.1 o q).engineReq o.die (if q.writing then .wri else .rdi) e.1 l q.gen
            | none => s
          else s) s) s
/-- MOVE and RESILVER parts whose traffic the fence absorbs end (R256); scrubs it touches start again (R258). -/
def State.sweepPress (s : State) : State :=
  let s := s.pool.press.foldl (fun (s : State) (o : Nat × PressOp) =>
    if o.2.remap then s
    else
      let parts := o.2.parts.map (fun (q : Nat × PressPart) =>
        if q.2.ended then q
        else if s.dieFenced o.1 then (q.1, { q.2 with code := 7, ended := true })
        else if s.legLost q.2.src q.2.destCell then (q.1, { q.2 with code := 6, ended := true })
        else q)
      if parts = o.2.parts then s else { s with pool.press := mput s.pool.press o.1 { o.2 with parts := parts } }.pressCheck o.1) s
  { s with pool.scrub := s.pool.scrub.map (fun (e : Nat × Scrub) =>
      if s.dieFenced e.2.die then (e.1, { e.2 with die := s.leaderDie, block := 0 })
      else if (s.extNow e.1).sides.any (fun (m : Cell) => s.legLost (ctrlCell e.2.die).val m.val) then (e.1, { e.2 with block := 0 })
      else e) }

/-! ### The close: the originating cells (R367) -/

/-- A slot's request is re-issued: its home or MEMORY cell is fenced or moved, or a leg it uses has changed. -/
def State.slotHit (s : State) (c : Cell) (t : TSlot) : Bool :=
  if t.io && t.dev.isNone then s.legLost c.val t.egress.val
  else
    let proxied := ((s.txnOfTag t.port t.hdr).map (fun x => x.2.proxy)).getD false
    let m := (s.extBefore c t.hdr.ext).mcell
    (!proxied && s.homeOf c t.hdr.line != t.egress) || s.scrim.fence.cellGone t.egress.val
      || (s.scrim.fence.cellGone m.val && !s.scrim.oldFence.cellGone m.val)
      || s.legLost c.val t.egress.val || s.legLost t.egress.val m.val || s.legLost c.val m.val
      || (c != t.port && s.legLost c.val t.port.val)
/-- Chain slots whose work a fence absorbed: their modules are told, and re-issue (R346, R366). -/
def State.sweepChain (s : State) : State :=
  s.onl.cslot.foldl (fun (s : State) (e : Nat × CSlot) =>
    let c := Cell.of (e.1 / 1024)
    let m := (s.extBefore c e.2.hdr.ext).mcell
    if s.cellFenced c ∨ !(s.legLost c.val m.val || s.extBefore c e.2.hdr.ext != s.extOf c e.2.hdr.ext) then s
    else (s.freeChain c (Fin.ofNat 1024 e.1)).sendOnlabs (s.anchorOf c)
      ⟨{ dmod := Fin.ofNat 32 s.chainAddr, smod := e.2.smod }, e.2.hdr⟩) s
/-- All sweeps of a closed epoch. -/
def State.sweepAll (s : State) : State :=
  let moved := s.cellsLost != [] || s.scrim.give == 2
  let s := ((s.sweepHomes.sweepRecalls moved).sweepCopies moved).sweepPress
  -- every re-issue of a cell in the order of admission (R86)
  let lost := s.spill.lost
  let s := (List.finRange 128).foldl (fun (s : State) (c : Cell) => s.sweepCell c (fun k t => s.slotHit c t || tagHit lost c k t)) s
  let s := s.sweepChain
  { s.reissueTags s.spill.lost with spill.lost := [] }

/-! ### Return to service (R212, R374) -/

/-- Nothing is fenced any more and every copy is whole: DEGRADED ends. -/
def State.healed (s : State) : State :=
  if s.mode = .degraded ∧ s.scrim.fence = {} ∧ !(List.range 4).any (fun k => s.copyNeeded k) then s.goMode .service 0x0D else s
/-- The return entry of an element back in service. -/
def State.logReturned (s : State) (e : Elem) : State :=
  let s := { s with scrim.returnedAt := (e, s.ns) :: s.scrim.returnedAt.filter (fun x => x.1 != e) }
  s.logFaultRec { time := 0, cls := elemClass e, cell := 0xFF, subj := 0xFFFF, cause := 0, detail := 0, kind := 4, flags := 0, epoch := 0,
                  seq := 0, mode := s.mode.code * 16 + s.mode.code, step := 0, elem := elemNum e, tUs := 0 }
/-- A return ends: 1 returned, 2 failed. A returned element leaves a return entry. -/
def State.endReturn (s : State) (result : Nat) : State :=
  match s.log.returning with
  | none => s
  | some e =>
    let s := ({ s with log.returning := none }.wr F.PKG_FENCE_RETURN_BUSY 0).wr F.PKG_FENCE_RETURN_RESULT result
    if result = 1 then (s.logReturned e).healed else s.setDomains
/-- The indices that go back to image cells in service: (cell that serves them, index). -/
def State.toGive (s : State) : List Nat :=
  s.home.adopted.flatMap (fun (e : Nat × List Nat) =>
    (e.2.filter (fun i => !s.cellFenced (imageCell (s.topo (Cell.of e.1)) (e.1 / 16) i))).map (fun i => e.1 * 128 + i))
/-- A return goes on to its homes once the copies of its stack are whole: the first epoch of R212 is wanted; with no index to
return it ends. -/
def State.giveWanted (s : State) : State :=
  if s.log.returning.isNone ∨ s.scrim.give ≠ 0 ∨ s.scrim.nextGive ≠ 0 ∨ s.home.giving ≠ [] then s
  else match s.log.returning with
    | none => s
    | some e =>
      let stack : Option Nat := match e with
        | .stack k => some k.val
        | .die d => if hbmDie d.val then some (dieStack d.val) else none
        | _ => none
      let waits := match stack with
        | some k => s.copyNeeded k
        | none => false
      if s.scrim.fence.has e || waits then s
      else if s.toGive = [] then s.endReturn 1
      else { s with scrim.nextGive := 1 }
/-- The same, outside the close of an epoch: the epoch opens at once unless another is open. -/
def State.giveBack (s : State) : State :=
  let s := s.giveWanted
  if s.scrim.epochOpen ∨ s.scrim.nextGive = 0 then s else s.openEpoch [] []
/-- The end of R212's epochs: after the first, successors hold the lines and complete what is open; after the second, the
image cells serve the requests set aside, in arrival order. -/
def State.giveStep (s : State) (step : Nat) : State :=
  if step = 1 then
    let g := s.toGive
    let s := { s with home.giving := g, home.held := s.home.held ++ g.filter (fun k => !s.home.held.contains k), home.takeAt := s.us }
    ((g.map (· / 128)).dedup).foldl (fun (s : State) h => s.wr (F.HOME_TAKE_STATE h) 1) s
  else if step = 2 then
    let g := s.home.giving
    let hs := (g.map (· / 128)).dedup
    let goes (s : State) (h : Nat) (p : Pkt) : Bool := g.contains (h * 128 + s.lineIdx (Cell.of h) p.line)
    let serves (h : Nat) (img : Cell) : Bool := (mgetD [] s.home.adopted h).any (fun i => imageCell (s.topo (Cell.of h)) (h / 16) i == img)
    let s := { s with home.giving := [], home.held := s.home.held.filter (fun k => !g.contains k), home.gaveBack := s.home.gaveBack ++ g }
    let s := hs.foldl (fun (s : State) h =>
      let all := mgetD [] s.home.setAside h ++ mgetD [] s.home.intake h
      let s := s.intakeTake (Cell.of h) (fun r => goes s h r.p)
      let s := { s with
        home.setAside := mmod [] s.home.setAside h (fun l => l.filter (fun (r : HReq) => !goes s h r.p))
        home.cache := s.home.cache.map (fun (e : Nat × List CSet) =>
          if e.1 / 512 = h then (e.1, e.2.filter (fun (x : CSet) => x.img.val == h || serves h x.img)) else e) }
      let s := (s.wr (F.HOME_TAKE_STATE h) 3).wr (F.HOME_TAKE_SET_ASIDE h) (mgetD [] s.home.setAside h).length
      let s := s.wr (F.HOME_TAKE_LAST_US h) (min 0xFFFF (s.us - s.home.takeAt))
      (all.filter (fun r => goes s h r.p)).foldl (fun (s : State) (r : HReq) =>
        let q : Pkt := { r.p with dst := s.homeOf (Cell.of h) r.p.line }
        { s with scrim.flight := s.scrim.flight ++ [({ loc := q.dst, p := q } : Flying)] }.homeRequest q r.ecc) s) s
    s.endReturn 1
  else s

/-! ### Elements that come back -/

/-- A port all of whose cells are in service, and whose link was off, trains (R374). -/
def State.portTrain (s : State) (a : Cell) : State :=
  if s.roleOf a = .idle ∨ s.rd (F.LANE_PORT_STATUS_STATE a) ≠ 0 ∨ (s.portMembers a).any (fun (m : Cell) => s.cellFenced m) then s
  else if s.roleOf a = .onora then s.trainStart a
  else s.wr (F.LANE_PORT_STATUS_STATE a) 1
/-- A returned cell holds again the region entries of the instances bound at its port, and the keys of a MEMORY cell (R266, R282). -/
def State.cellReturn (s : State) (c : Cell) : State :=
  let a : Option Nat := match s.roleOf c with
    | .host => if s.anchorOf c = c then some c.val else none
    | .device => (s.deviceVcs c.val).map (·.1)
    | _ => none
  let s := match a with
    | some a => (s.boundVppbs a).foldl (fun (s : State) (x : Nat × Nat) =>
        (s.installSets c.val x.2).foldl (fun (s : State) (y : Nat × Nat × Option Region) => s.setRegion y.1 y.2.1 y.2.2) s) s
    | none => s
  let s := if s.memCells.contains c then
      { s with sec.loads := s.sec.loads ++ (s.sec.slots.filter (fun (e : Nat × KeyRec) => e.2.st ≠ 0 && e.2.st ≠ 4 && !e.2.making)).flatMap (fun (e : Nat × KeyRec) => s.keyNotes [c] e.1) }
    else s
  s.portTrain (s.anchorOf c)
/-- A returned die's service processor is active where no other runs (DEDUCED). -/
def State.dieReturn (s : State) (d : Nat) : State :=
  if s.activeSp.isNone ∧ (d = 0 ∨ d = 7) ∧ !s.spGone.contains (Fin.ofNat 8 d) then { s with activeSp := some (Fin.ofNat 8 d) }.sendHeldFaults else s
/-- Edges between dies in service show ACTIVE, or FENCED where all their links are fenced (R63, Table 2-20). -/
def State.showEdges (s : State) : State :=
  (List.range 32).foldl (fun (s : State) x => match edgeFaces (x / 4) (x % 4) with
    | some y => if s.dieFenced (x / 4) || s.dieFenced y || !s.pllOn (x / 4) || !s.pllOn y then s else s.edgeTrained (x / 4) (x % 4)
    | none => s) s
/-- What the epoch brings back into service. -/
def State.bringBack (s : State) : State :=
  let s := { s with pwr.tripped := s.pwr.tripped.filter (fun x => !s.diesBack.contains ((x - 36) / 2)) }
  let s := s.diesBack.foldl State.dieReturn s
  let s := s.stacksBack.foldl State.stackReturn s
  s.cellsBack.foldl State.cellReturn s

/-! ### The close of the epoch (R67 step 6) -/

/-- The block that holds a register: its index of 1 MiB, one for all of the security block (Table 16-15). -/
def blockOf (a : Nat) : Nat := if a < 0x400000 then a / 0x100000 else if a < 0x1000000 then 4 else a / 0x100000
/-- The cell whose block holds a register. -/
def cellOfAddr (a : Nat) : Option Cell := if 0x10000000 ≤ a ∧ a < 0x20000000 then some (Cell.of (a / 0x100000)) else none
/-- A register lies on a fenced element (rule 0x07 of Table 16-7); ONL_CHAIN, one for the module, lies on none. -/
def State.addrFenced (s : State) (a : Nat) : Bool :=
  if 0x1000000 ≤ a ∧ a < 0x10000000 then
    let d := a / 0x100000 % 16
    s.dieFenced d || (hbmDie d && 0x40000 ≤ a % 0x100000 && a % 0x100000 < 0x50000 && s.stackFenced (dieStack d))
  else match cellOfAddr a with
    | some c => s.cellFenced c && a % 0x100000 / 8 != 0x70200 / 8
    | none => false
/-- Refusals of a commit rule: one record for each block, with the first register and the number of them (R468). -/
def State.refuseGroup (s : State) (rule detail : Nat) (as : List Nat) : State :=
  ((as.map blockOf).dedup).foldl (fun (s : State) b =>
    let l := as.filter (fun a => blockOf a == b)
    s.logCommit 2 rule detail (cellOfAddr (l.headD 0)) (l.headD 0) 0 l.length) s
/-- The blocks of the fenced elements drop their shadows of the epoch that runs, and acknowledge nothing (R469). -/
def State.commitFence (s : State) : State :=
  match s.mgr.epoch with
  | none => s
  | some e =>
    let gone := (e.shadows.filter (fun (x : Nat × (Nat × Nat)) => s.addrFenced x.1)).map (·.1)
    let s := s.refuseGroup 7 0 gone
    { s with
      mgr.epoch := some { e with
        shadows := e.shadows.filter (fun (x : Nat × (Nat × Nat)) => !s.addrFenced x.1), refused := e.refused + gone.length
        awAck := e.awAck.filter (fun b => !s.addrFenced (b * 0x100000)) }
      mgr.pend := s.mgr.pend.filter (fun (x : Nat × (Nat × Nat)) => !s.addrFenced x.1) }
/-- A barrier that awaited fenced cells only swaps (R278). -/
def State.barrierFence (s : State) : State :=
  match s.sec.barrier with
  | none => s.nextCommit
  | some b => if b.cells.all (fun x => b.drained.contains x || s.cellFenced (Cell.of x)) then ((s.barSwap b).epochRegions b true).nextCommit else s
/-- Elements newly fenced: when, and whether they are barred from a return, having failed within 1 h of the last (R374). -/
def State.fencedNow (s : State) (es : List Elem) : State :=
  es.foldl (fun (s : State) e =>
    let again := s.scrim.returnedAt.any (fun (x : Elem × Nat) => x.1 == e && decide (s.ns < x.2 + 3600 * 10 ^ 9))
    { s with
      scrim.fencedAt := (e, s.ns) :: s.scrim.fencedAt.filter (fun (x : Elem × Nat) => x.1 != e)
      scrim.barred := if again then e :: s.scrim.barred.filter (· != e) else s.scrim.barred }) s
/-- A return that a fault meets in its epochs ends with RESULT 2 (Table 12-6). -/
def State.returnFault (s : State) (faults : Bool) : State :=
  match s.log.returning with
  | none => s
  | some e =>
    if faults && (s.scrim.nextReturns.contains e || !s.scrim.fence.has e) then
      { s with home.giving := [], scrim.nextReturns := [], scrim.nextGive := 0, scrim.give := 0 }.endReturn 2
    else s
/-- The next epoch opens with what has gathered for it (R67, R229, R374). -/
def State.nextEpoch (s : State) : State :=
  let notes := s.scrim.nextNotes.filter (fun e => !s.scrim.fence.has e)
  let rets := s.scrim.nextReturns
  let ext := s.scrim.extNext
  let s := { s with scrim.nextNotes := [], scrim.nextReturns := [], scrim.extNext := [] }
  if notes = [] ∧ rets = [] ∧ ext = [] ∧ s.scrim.nextGive = 0 then s
  else
    let s := s.fenceNotes notes rets
    { s with scrim.extChg := ext }
/-- Steps 2 and 3 of the fault process end with the epoch unless homes take over (R365). -/
def State.stepTwo (s : State) (adopts : Bool) : State :=
  let s := s.logStep 2
  if adopts || !(s.takingOver 1).isEmpty || !(s.takingOver 2).isEmpty then s else (s.logStep 3).endReissue
/-- The module without its newly fenced elements: rescaled, its domains set, degraded, its work swept. -/
def State.fencedOut (s : State) (new : List Elem) : State :=
  let s := (s.rescale.fencedNow new).setDomains
  (if new = [] then s else s.degrade).sweepAll
/-- The new map is in force: DIE_FENCE_EPOCH moves on (R67). -/
def State.shiftEpoch (s : State) : State :=
  let s := s.takeOut.bringBack.showEdges
  { s with scrim.epoch := (s.scrim.epoch + 1) % 65536, scrim.epochOpen := false }.showLeader
/-- What the closed epoch gathered is done with. -/
def State.clearEpoch (s : State) : State :=
  { s with scrim.extChg := [], scrim.extOld := [], scrim.applied := [], scrim.reported := [], scrim.adding := [], scrim.returning := [] }
/-- A return moves on, and gives its homes back what it may (R374). -/
def State.endGive (s : State) (give : Nat) : State :=
  let s := (s.giveStep (if s.log.returning.isNone then 0 else give)).giveWanted
  { s with scrim.give := 0 }
/-- The leader closes the epoch: DIE_FENCE_EPOCH moves on, what is fenced leaves service, takeovers begin, sweeps restore what
was absorbed, and the steps of the recovery are logged (R67, R365 to R368, R373). -/
def State.closeEpoch (s : State) : State :=
  let new := s.scrim.adding.filter (fun e => !s.scrim.oldFence.has e)
  let work := new != [] || s.scrim.extChg != []
  let r := s.shiftEpoch.takeover
  let t := r.1.fencedOut new
  let t := if work && t.rd F.PKG_FAULT_STATUS_STEP == 2 then t.stepTwo r.2 else t
  let t := t.clearEpoch.commitFence.barrierFence
  let t := t.returnFault (new != [] || t.scrim.nextNotes != [])
  (t.endGive s.scrim.give).healed.nextEpoch
/-- Every router whose report the leader awaits has reported: those of dies in service, and, where DROWSE meets a fence, the
cells in retention are awake, or have failed to wake (R67, R411, R414). -/
def State.tryClose (s : State) : State :=
  if s.scrim.epochOpen && (List.finRange 128).all (fun (c : Cell) => s.dieFenced (dieOf c) || (s.scrim.reported.contains c
      && (s.cellFenced c || s.scrim.oldFence.cellGone c.val || s.domain (3 * c.val) ≠ 3
        || (s.scrim.notes ++ s.scrim.nextNotes).contains (Elem.cell c))))
  then s.closeEpoch else s
/-- FENCE_COMPLETION_REPORT (R67). -/
def execFenceCompletionReport (c : Cell) (s : State) : Outcome State Fault Refusal :=
  .next <|
    if !s.scrim.epochOpen ∨ !s.scrim.applied.contains c then s
    else { s with scrim.reported := if s.scrim.reported.contains c then s.scrim.reported else c :: s.scrim.reported }.tryClose
/-- RESILVER_BLOCK_ACK (R214, R215): after the last block the mode may leave REBUILD, and a return may go on. -/
def execResilverBlockAck (d : Die) (s : State) : Outcome State Fault Refusal :=
  .next ((s.resilverAck d.val).rebuildEnd.giveBack)

end Sys2Proof.Machine
end

