-- ==== Sys2Proof/Machine/Lane.lean ====
section
/-! DEFINITION. The commands of the serial lanes (spec/10): lane faults and width reduction, reference clocks, L1, lane test,
loopback, and the manager port's lanes. -/

namespace Sys2Proof.Machine
open Host

/-! ### Lane faults and width reduction (R303 to R307) -/

/-- Anchor of the port a lane belongs to, and the port lane's number. -/
def State.laneAnchor (s : State) (l : Lane) : Cell := s.anchorOf (Cell.of (l.val / 4))
def State.portLane (s : State) (l : Lane) : Nat := l.val - 4 * (s.laneAnchor l).val
/-- The selection of R304: the widest width below the current one whose lanes are all sound, at either end. -/
def reduce (W cur faulty : Nat) (reverses : Bool) : Option (Nat × Bool) :=
  [8, 4, 2, 1].findSome? (fun w =>
    if w ≥ cur then none
    else if faulty % 2 ^ w = 0 then some (w, false)
    else if reverses ∧ w ≤ W ∧ faulty / 2 ^ (W - w) % 2 ^ w = 0 then some (w, true)
    else none)
/-- A port enters Recovery toward a width. -/
def State.recovery (s : State) (a : Cell) (g : Nat × Bool) (fault : Bool) : State :=
  let s := (s.wr (F.LANE_PORT_STATUS_STATE a) 4).sat (F.LANE_PORT_EVT_RECOVERIES a)
  { s with
    lane.goal := mput s.lane.goal a.val g, lane.recAt := mput s.lane.recAt a.val s.cyc
    lane.faultAt := if fault then mput s.lane.faultAt a.val s.cyc else s.lane.faultAt }
/-- A CXL or PCIe port has a newly FAULTY lane: it narrows, or goes down (R304, R306). -/
def State.narrow (s : State) (a : Cell) : State :=
  match (if s.rdb (F.LANE_PORT_CFG_REDUCE_EN a) then
      reduce (s.portWidth a) (s.rd (F.LANE_PORT_STATUS_WIDTH a)) (s.rd (F.LANE_PORT_STATUS_LANES_FAULTY a)) (s.lane.reverses.contains a.val)
    else none) with
  | none => s.linkDown a 1 0
  | some g =>
    if s.rd (F.LANE_PORT_STATUS_STATE a) = 4 then
      { s with lane.goal := mput s.lane.goal a.val g, lane.faultAt := mput s.lane.faultAt a.val ((mget s.lane.faultAt a.val).getD s.cyc) }
    else s.recovery a g true
/-- A used lane becomes FAULTY (R303): the fault entry, and what its port does. -/
def State.laneFaulty (s : State) (l : Lane) : State :=
  let a := s.laneAnchor l
  let run := s.rd F.PKG_FAULT_STATUS_STEP != 0
  let s := (s.wr (F.LANE_STATUS_FAULTY l) 1).wrBit (F.LANE_PORT_STATUS_LANES_FAULTY a) (s.portLane l) true
  let s := s.logFault 0x08 (some (Cell.of (l.val / 4))) a.val 0x0008 l.val l.val false
  if s.roleOf a = .onora then
    let s := s.linkBreak a 4
    { s with lane.faultAt := mput s.lane.faultAt a.val s.cyc }
  else
    let s := if run then s else ((((s.beginRecovery 0x08).logStep 1).logStep 2).logStep 3).logStep 4
    s.narrow a
/-- LANE_FAULT (R303): lock is lost, or a window ends its count. In TEST, and on a lane that carries no traffic, it is counted
only. -/
def execLaneFault (l : Lane) (lock : Bool) (errs : BitVec 32) (s : State) : Outcome State Fault Refusal :=
  .next <|
    let a := s.laneAnchor l
    let thr := max 1 (s.rd (F.LANE_PORT_CFG_FAULT_THRESH a))
    let st := s.rd (F.LANE_PORT_STATUS_STATE a)
    let s := s.sat (F.LANE_ERR_ERRORS l) errs.toNat
    let s := if lock then s.sat (F.LANE_ERR_CDR_LOSS l) else s
    let s := if errs.toNat ≥ thr then s.sat (F.LANE_ERR_WINDOWS_HIT l) else s
    if (!lock && errs.toNat < thr) || !(st == 3 || st == 4) || !s.rdb (F.LANE_STATUS_USED l) || s.rdb (F.LANE_STATUS_FAULTY l) then s
    else (s.wr (F.LANE_STATUS_CDR_LOCK l) (!lock).toNat).laneFaulty l
/-- A width reduction that a lane fault began at t is counted, timed and logged. -/
def State.reduced (s : State) (c : Cell) (at_ : Option Nat) : State :=
  match at_ with
  | none => s
  | some t =>
    let s := (s.sat (F.LANE_PORT_EVT_REDUCTIONS c)).wr (F.LANE_PORT_EVT_LAST_REDUCE_US c) (min 0xFFFF ((s.cyc - t) / 3000))
    s.logYield 4 5 (some c) c.val 0x0102 c.val
/-- A frame that a cell of the port was sending when it entered Recovery is sent on at the new rate; one that thereby ends past its run is
counted (R139). -/
def State.sendOn (s : State) (a : Cell) (old new_ : Nat) : State :=
  let at_ := mgetD s.cyc s.lane.recAt a.val
  let s := (s.portMembers a).foldl (fun (s : State) (c : Cell) =>
    let left := mgetD 0 s.xbar.outBusy (c.val * 10) - at_
    if left = 0 ∨ new_ = 0 then s
    else
      let e := s.cyc + (left * old + new_ - 1) / new_
      let s := { s with xbar.outBusy := mset 0 s.xbar.outBusy (c.val * 10) e }
      match mget s.xbar.runEnd c.val with
      | some t => if t < e then { s with xbar.runEnd := mdel s.xbar.runEnd c.val }.sat (F.GATE_CNT_OVERRUN c) else s
      | none => s) s
  { s with lane.recAt := mdel s.lane.recAt a.val }
/-- WIDTH_REDUCE_L0 (R305, R307): the port reaches L0 at the width its Recovery selected. A reduction is counted, timed, and
leaves a precedence record of ranks 4 and 5. -/
def execWidthReduceL0 (c : Cell) (s : State) : Outcome State Fault Refusal :=
  .next <|
    match mget s.lane.goal c.val with
    | none => s
    | some g =>
      if s.rd (F.LANE_PORT_STATUS_STATE c) ≠ 4 then s
      else
        let old := s.rd (F.LANE_PORT_STATUS_WIDTH c)
        let t := (s.portL0 c g.1 (s.rd (F.LANE_PORT_STATUS_RATE c)) (s.rd (F.LANE_PORT_STATUS_PROTO c)) g.2).sendOn c old g.1
        { t with lane.goal := mdel t.lane.goal c.val, lane.faultAt := mdel t.lane.faultAt c.val }.reduced c (mget s.lane.faultAt c.val)
/-- WIDTH_RESTORE: the port retrains at its configured width, and FAULTY clears on every lane. -/
def State.widthRestore (s : State) (c : Cell) : State :=
  if s.rdb (F.LANE_PORT_CTRL_BUSY c) then s
  else if !(s.mode = .maintenance ∧ s.pool.paused.contains c.val) then s.flag (F.LANE_PORT_CTRL_TEST_REFUSED c)
  else
    let s := (List.range (s.portWidth c)).foldl (fun (s : State) j => s.wr (F.LANE_STATUS_FAULTY (4 * c.val + j)) 0) s
    let s := s.wr (F.LANE_PORT_STATUS_LANES_FAULTY c) 0
    if s.roleOf c = .onora then
      if s.linkSt c = 0 then
        let s := s.trainStart c
        s.wrb (F.LANE_PORT_CTRL_BUSY c) (s.linkSt c = 1)
      else s
    else if 3 ≤ s.rd (F.LANE_PORT_STATUS_STATE c) ∧ s.rd (F.LANE_PORT_STATUS_STATE c) ≤ 5 then
      (s.recovery c (s.portWidth c, false) false).wr (F.LANE_PORT_CTRL_BUSY c) 1
    else s
/-- WIDTH_RESTORE (R307). -/
def execWidthRestore (src : Src) (c : Cell) (s : State) : Outcome State Fault Refusal :=
  .next (s.ifMay src (F.LANE_PORT_CTRL_WIDTH_RESTORE c) 1 fun s => s.widthRestore c)

/-! ### Reference clocks (R298) -/

/-- Anchors of configured ports on a die. -/
def State.dieAnchors (s : State) (d : Die) : List Cell :=
  (List.finRange 128).filter (fun c => dieOf c == d.val && s.roleOf c != .idle && s.anchorOf c == c)
/-- REFCLK_LOSS: REF_LOST in every port of the die; its common-clock ports leave their links for Detect. -/
def execRefclkLoss (d : Die) (s : State) : Outcome State Fault Refusal :=
  .next <|
    let as := s.dieAnchors d
    let s := as.foldl (fun (s : State) a => s.wr (F.LANE_PORT_STATUS_REF_LOST a) 1) s
    let s := s.logFault 0x0E none 0xFFFF 0x000C d.val d.val true
    as.foldl (fun (s : State) (a : Cell) =>
      let st := s.rd (F.LANE_PORT_STATUS_STATE a)
      if s.roleOf a = .onora ∨ s.rdb (F.LANE_PORT_STATUS_REF_SRC a) then s
      else if 3 ≤ st ∧ st ≤ 5 then s.linkDown a 1 0
      else if st = 2 then s.wr (F.LANE_PORT_STATUS_STATE a) 1
      else s) s
/-- REFCLK_RETURN. -/
def execRefclkReturn (d : Die) (s : State) : Outcome State Fault Refusal :=
  .next ((s.dieAnchors d).foldl (fun (s : State) a => s.wr (F.LANE_PORT_STATUS_REF_LOST a) 0) s)

/-! ### L1 (R301, R406) -/

/-- PWR of every lane in use. -/
def State.lanePwr (s : State) (a : Cell) (n : Nat) : State :=
  (List.range (s.portWidth a)).foldl (fun (s : State) j =>
    if s.rdb (F.LANE_STATUS_USED (4 * a.val + j)) then s.wr (F.LANE_STATUS_PWR (4 * a.val + j)) n else s) s
/-- L1_ENTRY: a CXL or PCIe port in L0 goes to L1, in every mode from BRING_UP to MAINTENANCE. -/
def execL1Entry (c : Cell) (s : State) : Outcome State Fault Refusal :=
  .next (if s.rd (F.LANE_PORT_STATUS_STATE c) = 3 ∧ s.roleOf c ≠ .onora ∧ portsOn s.mode then
      (s.wr (F.LANE_PORT_STATUS_STATE c) 5).lanePwr c 3
    else s)
/-- L1_EXIT: the port is back in L0 and wakes its cells (R408); lanes that do not lock again are FAULTY, and the reduction runs
in the same Recovery (R306). -/
def execL1Exit (c : Cell) (bad : BitVec 16) (s : State) : Outcome State Fault Refusal :=
  .next <|
    if s.rd (F.LANE_PORT_STATUS_STATE c) ≠ 5 then s
    else
      let s := (s.wr (F.LANE_PORT_STATUS_STATE c) 3).lanePwr c 2
      let s := (s.portMembers c).foldl (fun (s : State) m => s.wakeCell m) s
      (List.range (s.portWidth c)).foldl (fun (s : State) j =>
        let l : Lane := Fin.ofNat 512 (4 * c.val + j)
        let st := s.rd (F.LANE_PORT_STATUS_STATE c)
        if bad.getLsbD j ∧ s.rdb (F.LANE_STATUS_USED l) ∧ (st = 3 ∨ st = 4) then ((s.sat (F.LANE_ERR_CDR_LOSS l)).wr (F.LANE_STATUS_CDR_LOCK l) 0).laneFaulty l
        else s) s

/-! ### Lane test (R308 to R311) -/

/-- TEST_ENTER: the port's link goes down and its lanes run at TEST_RATE. A TEST_RATE of the Onora rates on another port is
refused (DEDUCED: R308 says that TEST_RATE may name them only on an ONORA port), and so is a code that names no rate. -/
def State.testEnter (s : State) (c : Cell) : State :=
  let rate := max 1 (s.rd (F.LANE_PORT_CTRL_TEST_RATE c))
  let may := s.mode = .selfTest ∨ s.mode = .returnTest ∨ (s.mode = .maintenance ∧ s.pool.paused.contains c.val)
  if s.rdb (F.LANE_PORT_CTRL_BUSY c) ∨ s.rd (F.LANE_PORT_STATUS_STATE c) = 6 then s
  else if !may ∨ rate > 7 ∨ (rate = 7 ∧ s.roleOf c ≠ .onora) then s.flag (F.LANE_PORT_CTRL_TEST_REFUSED c)
  else
    let s := if s.roleOf c = .onora then
        ((s.linkBreak c 4).wr (F.ONL_STATUS_LINK_STATE c) 0).wr (F.ONL_STATUS_TRAIN_STATE c) 0
      else if 3 ≤ s.rd (F.LANE_PORT_STATUS_STATE c) then s.linkDown c 6 0
      else s
    ((s.wr (F.LANE_PORT_STATUS_STATE c) 6).wr (F.LANE_PORT_STATUS_RATE c) rate).setDomains
/-- TEST_ENTER. -/
def execTestEnter (src : Src) (c : Cell) (s : State) : Outcome State Fault Refusal :=
  .next (s.ifMay src (F.LANE_PORT_CTRL_TEST_ENTER c) 1 fun s => s.testEnter c)
/-- TEST_EXIT (R308). -/
def State.testExit (s : State) (c : Cell) : State :=
  if s.rd (F.LANE_PORT_STATUS_STATE c) = 6 ∧ !s.rdb (F.LANE_PORT_CTRL_BUSY c) then s.endTest c else s
def execTestExit (src : Src) (c : Cell) (s : State) : Outcome State Fault Refusal :=
  .next (s.ifMay src (F.LANE_PORT_CTRL_TEST_EXIT c) 1 fun s => s.testExit c)
/-- The lane's port is in TEST. -/
def State.laneInTest (s : State) (l : Lane) : Bool := s.rd (F.LANE_PORT_STATUS_STATE (s.laneAnchor l)) == 6
/-- One error leaves the lane's generator; two causes in one core cycle make one error (R310). In a near loopback the lane's own
checker counts it while it is locked; in far retimed loopback the generator is ignored (R311). -/
def State.inject (s : State) (l : Lane) : State :=
  if !s.laneInTest l ∨ !s.rdb (F.LANE_TEST_GEN_EN l) ∨ mget s.lane.injAt l.val = some s.cyc then s
  else
    let s := { s with lane.injAt := mput s.lane.injAt l.val s.cyc }
    let loop := s.rd (F.LANE_TEST_LOOP l)
    if (loop = 1 ∨ loop = 2) ∧ s.rdb (F.LANE_TEST_CHK_EN l) ∧ s.rdb (F.LANE_PRBS_STAT_LOCKED l) then s.sat (F.LANE_PRBS_STAT_BIT_ERR l)
    else s
/-- INJ_ONE. -/
def execInjOne (src : Src) (l : Lane) (s : State) : Outcome State Fault Refusal :=
  .next (s.ifMay src (F.LANE_TEST_INJ_ONE l) 1 fun s => s.inject l)
/-- INJ_RATE_ERROR: the periodic error. -/
def execInjRateError (l : Lane) (s : State) : Outcome State Fault Refusal :=
  .next (if s.rdb (F.LANE_TEST_INJ_RATE l) then s.inject l else s)
/-- Bits that a lane's checker has compared, at the test rate while it is LOCKED: a core cycle is a third of a nanosecond. -/
def State.bitsCompared (s : State) (l : Lane) : Nat :=
  mgetD 0 s.lane.bits l.val + (match mget s.lane.locked l.val with
    | some t => (s.cyc - t) * rateGt10 (s.rd (F.LANE_PORT_STATUS_RATE (s.laneAnchor l))) / 30
    | none => 0)
/-- A write of CHK_EN: setting it clears BIT_ERR and BITS and starts the checker unlocked; clearing it stops the checker. -/
def State.setChkEn (s : State) (l : Lane) (on : Bool) : State :=
  let s := { s with lane.bits := mset 0 s.lane.bits l.val (if on then 0 else s.bitsCompared l), lane.locked := mdel s.lane.locked l.val }
  let s := (s.wr (F.LANE_TEST_CHK_EN l) on.toNat).wr (F.LANE_PRBS_STAT_LOCKED l) 0
  if on then (s.wr (F.LANE_PRBS_STAT_BIT_ERR l) 0).wr (F.LANE_PRBS_BITS_BITS l) 0 else s
/-- CHK_EN_SET. Outside TEST the write is ignored. -/
def execChkEnSet (src : Src) (l : Lane) (s : State) : Outcome State Fault Refusal :=
  .next (s.ifMay src (F.LANE_TEST_CHK_EN l) 1 fun s => if s.laneInTest l then s.setChkEn l true else s)
/-- Who may read a register, and the record of a refused read (R17, R444, R463). -/
def State.mayRead (s : State) (src : Src) (a : Nat) : Bool × State :=
  match src with
  | .sp => (true, s)
  | .jtag => if s.jtagReads a then (true, s) else (false, s.jtagRefused a false)
  | _ =>
    if s.mode = .sealedHalt then (if src = .mgr ∧ haltReads a then (true, s) else (false, s.logAccess src 3 a 0))
    else if !s.holds src then (false, s.logAccess src 3 a 0)
    else if s.readable a then (true, s) else (false, s.logAccess src 4 a 0)
/-- LANE_PRBS_STAT_READ: the read captures BITS in the same cycle (R309). -/
def execLanePrbsStatRead (src : Src) (l : Lane) (s : State) : Outcome State Fault Refusal :=
  .next <|
    let (ok, s) := s.mayRead src (F.LANE_PRBS_STAT_at l)
    if ok then s.wr (F.LANE_PRBS_BITS_BITS l) (s.bitsCompared l) else s
/-- PRBS_CHECKER_LOCK: 256 bits without an error. -/
def execPrbsCheckerLock (l : Lane) (s : State) : Outcome State Fault Refusal :=
  .next <|
    if !s.laneInTest l ∨ !s.rdb (F.LANE_TEST_CHK_EN l) ∨ s.rdb (F.LANE_PRBS_STAT_LOCKED l) then s
    else { s.wr (F.LANE_PRBS_STAT_LOCKED l) 1 with lane.locked := mput s.lane.locked l.val s.cyc }
/-- PRBS_CHECKER_LOCK_LOSS: 32 errors in 256 bits, with the errors counted since the last account. -/
def execPrbsCheckerLockLoss (l : Lane) (errs : BitVec 32) (s : State) : Outcome State Fault Refusal :=
  .next <|
    if !s.laneInTest l ∨ !s.rdb (F.LANE_PRBS_STAT_LOCKED l) then s
    else
      let s := { s with lane.bits := mset 0 s.lane.bits l.val (s.bitsCompared l), lane.locked := mdel s.lane.locked l.val }
      ((s.sat (F.LANE_PRBS_STAT_BIT_ERR l) errs.toNat).wr (F.LANE_PRBS_STAT_LOCKED l) 0).sat (F.LANE_PRBS_STAT_LOCK_LOSS l)
/-- LOOPBACK_SLAVE_ENTRY (R311): outside TEST, a CXL or PCIe port's traffic stops as for a link-down. -/
def execLoopbackSlaveEntry (c : Cell) (s : State) : Outcome State Fault Refusal :=
  .next <|
    let st := s.rd (F.LANE_PORT_STATUS_STATE c)
    if s.roleOf c = .onora ∨ s.roleOf c = .idle ∨ !portsOn s.mode ∨ st = 0 ∨ st = 6 ∨ st = 7 then s
    else if st ≥ 3 then s.linkDown c 7 0 else s.wr (F.LANE_PORT_STATUS_STATE c) 7

/-! ### The manager port's lanes (R312 to R319) -/

def mgrSync (m : Fin 2) : Fld := if m = 0 then F.LANE_M_STATUS_SYNC0 else F.LANE_M_STATUS_SYNC1
/-- TX_WIDTH code for the sync of both lanes under WIDTH (R318): AUTO sends x2 on both, else x1 on the lane in sync. -/
def State.mgrWidth (s : State) : Nat := s.rd F.LANE_M_CTRL_WIDTH
/-- MGR_FRAME_RECEIVE (R316, R317). -/
def execMgrFrameReceive (x2 whole : Bool) (skip0 skip1 : BitVec 16) (s : State) : Outcome State Fault Refusal :=
  .next <|
    let s := (s.inc (F.LANE_M_ERR_CC_ADJ 0) skip0.toNat).inc (F.LANE_M_ERR_CC_ADJ 1) skip1.toNat
    let s := s.wr F.LANE_M_STATUS_RX_WIDTH (if x2 then 2 else 1)
    if whole then s.inc F.LANE_M_FRAMES_RECEIVED else s.sat F.LANE_M_FRAMES_ABORTED
/-- MGR_SYNC_GAIN (R315). The transmitter starts once a lane is in sync: at the width that WIDTH names, x2 for AUTO while both
lanes hold sync (DESIGN CHOICE: where only one lane is in sync at the start, x1 waits for MGR_WIDTH_FALLBACK). -/
def execMgrSyncGain (m : Fin 2) (s : State) : Outcome State Fault Refusal :=
  .next <|
    let s := s.wr (mgrSync m) 1
    if s.rd F.LANE_M_STATUS_TX_WIDTH ≠ 0 then s
    else match s.mgrWidth with
      | 1 => s.wr F.LANE_M_STATUS_TX_WIDTH 2
      | 2 => s.wr F.LANE_M_STATUS_TX_WIDTH 1
      | _ => if s.rdb F.LANE_M_STATUS_SYNC0 ∧ s.rdb F.LANE_M_STATUS_SYNC1 then s.wr F.LANE_M_STATUS_TX_WIDTH 2 else s
/-- MGR_SYNC_LOSS (R315): with the invalid symbols counted on the lane. -/
def execMgrSyncLoss (m : Fin 2) (viol disp : BitVec 16) (s : State) : Outcome State Fault Refusal :=
  .next <|
    let s := ((s.sat (F.LANE_M_ERR_CODE_VIOL m) viol.toNat).sat (F.LANE_M_ERR_DISP_ERR m) disp.toNat)
    if s.rdb (mgrSync m) then (s.wr (mgrSync m) 0).sat (F.LANE_M_ERR_SYNC_LOSS m) else s
/-- MGR_CLOCK_COMP_SEND (R314): ALIGN and SKIP on every lane in use. -/
def execMgrClockCompSend (s : State) : Outcome State Fault Refusal :=
  .next (if s.rd F.LANE_M_STATUS_TX_WIDTH = 0 then s else s.emit (.mgrSkip (s.rd F.LANE_M_STATUS_TX_WIDTH)))
/-- MGR_WIDTH_FALLBACK (R318): AUTO sends x1 on the other lane. -/
def execMgrWidthFallback (m : Fin 2) (s : State) : Outcome State Fault Refusal :=
  .next <|
    let auto := s.mgrWidth = 0 ∨ s.mgrWidth = 3
    if auto ∧ !s.rdb (mgrSync m) then s.wr F.LANE_M_STATUS_TX_WIDTH (if m = 1 then 1 else 3) else s
/-- MGR_WIDTH_RESTORE_X2 (R318). -/
def execMgrWidthRestoreX2 (s : State) : Outcome State Fault Refusal :=
  .next <|
    let auto := s.mgrWidth = 0 ∨ s.mgrWidth = 3
    if auto ∧ s.rdb F.LANE_M_STATUS_SYNC0 ∧ s.rdb F.LANE_M_STATUS_SYNC1 then s.wr F.LANE_M_STATUS_TX_WIDTH 2 else s
/-- MGR_LOOP_WRITE (R319): honoured from JTAG and from a service processor only. -/
def execMgrLoopWrite (src : Src) (v : Bool) (s : State) : Outcome State Fault Refusal :=
  .next (match src with
    | .sp | .jtag => s.ifMay src F.LANE_M_CTRL_LOOP v.toNat fun s => s.wrb F.LANE_M_CTRL_LOOP v
    | _ => (s.mayWrite src F.LANE_M_CTRL_LOOP v.toNat).2)

end Sys2Proof.Machine
end

