-- ==== Sys2Proof/Machine/StopOps.lean ====
section
/-! DEFINITION. The boot memory (spec/15 R418 to R420), the words of log records (spec/09 Table 9-5, spec/12 Table 12-7,
spec/15 Table 15-16, spec/16 Tables 16-6 and 16-9), and what survives DORMANT (spec/00 R18, spec/13 R382, spec/16 R471). -/

namespace Sys2Proof.Machine

/-! ### Log records as four words of 8 bytes -/

def FaultRec.words (r : FaultRec) : List Nat :=
  [r.time,
   r.cls + r.cell * 2 ^ 8 + r.subj * 2 ^ 16 + r.detail * 2 ^ 32 + r.cause * 2 ^ 48,
   r.kind + r.flags * 2 ^ 8 + r.epoch % 2 ^ 16 * 2 ^ 16 + r.seq * 2 ^ 32,
   r.mode + r.step * 2 ^ 8 + r.elem * 2 ^ 16 + r.tUs % 2 ^ 32 * 2 ^ 32]
def ViolRec.words (r : ViolRec) : List Nat :=
  [r.time,
   r.inst + r.requester * 2 ^ 12 + r.cell * 2 ^ 16 + r.port * 2 ^ 24 + r.access * 2 ^ 32 + r.reason * 2 ^ 40 + r.parts * 2 ^ 48 + r.denied * 2 ^ 56,
   r.addr,
   r.len % 2 ^ 32 + r.deniedBytes % 2 ^ 32 * 2 ^ 32]
def AccRec.words (r : AccRec) : List Nat :=
  [r.time, r.source + r.reason * 2 ^ 8 + r.origin * 2 ^ 16 + r.addr * 2 ^ 32, r.data, r.count + r.seq * 2 ^ 32]
def CommitRec.words (r : CommitRec) : List Nat :=
  [r.time, r.epoch + r.kind * 2 ^ 32 + r.rule * 2 ^ 40 + r.detail * 2 ^ 48 + r.cell * 2 ^ 56, r.addr + r.applied * 2 ^ 32, r.refused + r.seq * 2 ^ 32]
def AuditRec.words (r : AuditRec) : List Nat :=
  [r.subsec + r.sec * 2 ^ 32, r.kind + r.source * 2 ^ 8 + r.lc * 2 ^ 16 + r.detail * 2 ^ 24 + r.addr * 2 ^ 32, r.count + r.seq * 2 ^ 32, r.tag]
/-! ### The boot NOR devices (R418, R419) -/

/-- Programming clears bits and sets none (PRESUMED: NOR flash). -/
def State.norPut (s : State) (dev off : Nat) (l : List Byte) : State :=
  { s with img.nor := (l.zipIdx).foldl (fun (m : NMap Byte) (x : Byte × Nat) => mmod 0xFF m (dev * 2 ^ 26 + off + x.2) (fun b => b &&& x.1)) s.img.nor }
/-- Erases a sector of 64 KiB. -/
def State.norErase (s : State) (dev off : Nat) : State :=
  { s with img.nor := mkeep (fun k _ => k / 65536 != (dev * 2 ^ 26 + off) / 65536) s.img.nor }
/-- First byte and sectors of an area: 0 audit, 1 fault log (Table 15-1). -/
def areaBase (area : Nat) : Nat := if area = 0 then 0x3000000 else 0x3100000
def areaSectors (area : Nat) : Nat := if area = 0 then 16 else 4
/-- Writes one entry of 32 B into an area (R419): the sector's header goes before its first entry, and the next sector is erased then. -/
def State.areaWrite (s : State) (dev area : Nat) (ws : List Nat) : State :=
  let n := mgetD 0 s.img.norPos (dev * 2 + area)
  let sector (k : Nat) : Nat := areaBase area + k % areaSectors area * 65536
  let at_ := sector (n / 2047)
  let s := if n % 2047 = 0 then
      let s := (s.norErase dev at_).norErase dev (sector (n / 2047 + 1))
      s.norPut dev at_ ([0x4A, 0x46, 0x4C, 0x47] ++ leBytes 4 (n / 2047) ++ List.replicate 24 0)
    else s
  let s := s.norPut dev (at_ + 32 + n % 2047 * 32) (ws.flatMap (leBytes 8))
  { s with img.norPos := mput s.img.norPos (dev * 2 + area) (n + 1) }
/-- A device answers. -/
def State.norPresent (s : State) (dev : Nat) : Bool := !s.img.norDead.contains dev
/-- A program or erase holds the device (R434). -/
def State.norHeld (s : State) (dev : Nat) : Bool :=
  match s.img.norOp with
  | some o => o.dev == dev && o.op ≥ 2
  | none => false
/-- Entries of a log that a device does not have yet, oldest first. -/
def State.norPending (s : State) (dev area : Nat) : List (Nat × List Nat) :=
  let from_ := mgetD 0 s.img.norSeq (dev * 2 + area)
  let l := if area = 0 then s.log.audit.map (fun (r : AuditRec) => (r.seq, r.words)) else s.log.fault.map (fun (r : FaultRec) => (r.seq, r.words))
  (l.filter (fun (x : Nat × List Nat) => x.1 ≥ from_)).reverse
/-- Writes at most n pending entries of an area to a device; answers how many are left. -/
def State.norFlush (s : State) (dev area n : Nat) : State × Nat :=
  let l := s.norPending dev area
  let s := (l.take n).foldl (fun (s : State) (x : Nat × List Nat) =>
    { (s.areaWrite dev area x.2) with img.norSeq := mput s.img.norSeq (dev * 2 + area) (x.1 + 1) }) s
  (s, l.length - n)

/-! ### DORMANT -/

/-- Registers that show fuses: serial number, life cycle, sealed owner hash. -/
def fuseReg (a : Nat) : Bool := a == 0x8 || a == 0x10 || a == 0x300 || (0x3A0 ≤ a && a < 0x3D0)
/-- Registers that keep their values when the module leaves DORMANT: the power entry's (R397), the fields that spec/14 marks kept, the
MGR block (R471), and the audit log's pointers (R447). -/
def keptReg (a : Nat) : Bool :=
  fuseReg a || (0x100000 ≤ a && a ≤ 0x100040) || a == 0x100100 || a == 0x100108 || (0x200000 ≤ a && a < 0x400000)
    || a == F.PKG_LOG_PTR_at 4
/-- The audit entries that the boot memory holds: the ring is refilled from them (R447). -/
def State.keptAudit (s : State) : List AuditRec :=
  let n := max (mgetD 0 s.img.norSeq 0) (mgetD 0 s.img.norSeq 2)
  s.log.audit.filter (fun r => r.seq < n)
/-- What survives of the image state: the boot memory, the fuses, and the entries of the fault-log area's ring. -/
def keptImg (x : ImgSt) : ImgSt :=
  { nor := x.nor, norPos := x.norPos, norSeq := mkeep (fun k _ => k % 2 == 0) x.norSeq, fuseHash := x.fuseHash, fuseGood := x.fuseGood,
    rootKey := x.rootKey, seed := x.seed }
/-- DORMANT: everything but the Rind domain is off, and its volatile state, keys among it, is gone (R284). -/
def State.powerOff (s : State) : State :=
  let min := s.rd F.PKG_IMAGE_MIN_SVN
  let t : State :=
    { pending := s.pending, mode := .dormant
      regs := s.regs.filter (fun (e : Nat × Word) => keptReg e.1 || e.1 == F.PKG_MODE_at)
      cyc := s.cyc, freeCtr := s.freeCtr, out := s.out, wall := s.wall
      log := { audit := s.keptAudit }, img := keptImg s.img, pwr := { rind := s.pwr.rind }, therm := s.therm
      jtag := { s.jtag with halted := [] }
      mgr := { s.mgr with env := none, shadow := [], epoch := none, pend := [] } }
  (t.wr F.PKG_IMAGE_MIN_SVN min).setDomains
/-- The module stops without its Rind domain: only the boot memory and the fuses stay (R382, R399, R471). -/
def State.unpower (s : State) : State :=
  let min := s.rd F.PKG_IMAGE_MIN_SVN
  let t : State :=
    { pending := s.pending, mode := .dormant
      regs := s.regs.filter (fun (e : Nat × Word) => fuseReg e.1 || e.1 == F.PKG_LOG_PTR_at 4)
      freeCtr := s.freeCtr, out := s.out, wall := s.wall
      log := { audit := s.keptAudit }, img := keptImg s.img, pwr := { rind := false } }
  t.wr F.PKG_IMAGE_MIN_SVN min

end Sys2Proof.Machine
end

