-- ==== Sys2Proof/Machine/Power.lean ====
section
/-! DEFINITION. Power entry (spec/13), clocks, power domains and sleep (spec/14), and the drain of a cell before its domain
leaves ON (spec/02 R70, R71). -/

namespace Sys2Proof.Machine
open Host

/-! ### Feeds and the bus (R383 to R386) -/

def feedFld (f : Nat) : Fld := if f = 0 then F.RIND_PWR_STATUS_FEED_A else F.RIND_PWR_STATUS_FEED_B
def State.feedOk (s : State) (f : Nat) : Bool := s.rd (feedFld f) == 1
def State.anyFeed (s : State) : Bool := s.feedOk 0 || s.feedOk 1
/-- CTRL_STATE (Table 13-2). -/
def State.ctrl (s : State) : Nat := s.rd F.RIND_PWR_STATUS_CTRL_STATE
def State.setCtrl (s : State) (n : Nat) : State := s.wr F.RIND_PWR_STATUS_CTRL_STATE n
/-- The ideal diodes that conduct (R384): that of the higher VALID feed, both within 50 mV, while the gates are not off. -/
def State.carrying (s : State) : Nat :=
  let va := s.rd (F.RIND_PWR_FEED_V_NOW 0)
  let vb := s.rd (F.RIND_PWR_FEED_V_NOW 1)
  if s.ctrl ≠ 2 ∧ s.ctrl ≠ 3 then 0
  else match s.feedOk 0, s.feedOk 1 with
    | true, true => if va ≤ vb + 5 ∧ vb ≤ va + 5 then 3 else if vb < va then 1 else 2
    | true, false => 1
    | false, true => 2
    | false, false => 0
/-- Input power in W: 10 mV × 10 mA is 0.1 mW. -/
def State.showPower (s : State) : State :=
  let p := (s.rd (F.RIND_PWR_FEED_V_NOW 0) * s.rd (F.RIND_PWR_FEED_I_NOW 0) + s.rd (F.RIND_PWR_FEED_V_NOW 1) * s.rd (F.RIND_PWR_FEED_I_NOW 1)) / 10000
  (s.wr F.RIND_PWR_BUS_P_NOW (min 0xFFFF p)).wr F.RIND_PWR_STATUS_CARRYING s.carrying
/-- A minimum since CLR_PEAK; 0 stands for none measured yet (DEDUCED from its Reset value). -/
def State.lower (s : State) (f : Fld) (v : Nat) : State := if s.rd f = 0 ∨ v < s.rd f then s.wr f v else s
/-- A feed's state and voltage. -/
def State.setFeed (s : State) (f : Nat) (st v : Nat) : State :=
  let s := (s.wr (feedFld f) st).wr (F.RIND_PWR_FEED_V_NOW f) v
  (if st = 1 then s.lower (F.RIND_PWR_FEED_V_MIN f) v else s).showPower
/-- A current that a detector has seen. -/
def State.feedCurrent (s : State) (f : Nat) (i : Nat) : State :=
  ((s.wr (F.RIND_PWR_FEED_I_NOW f) i).raise (F.RIND_PWR_FEED_I_PEAK f) i).showPower

/-! ### Loss of both feeds (R394, R395) -/

/-- Every quad turns off (R395): each link goes down as for its role, and Onora links are DOWN. -/
def State.quadsOff (s : State) : State :=
  let s := (List.finRange 128).foldl (fun (s : State) (a : Cell) =>
    let st := s.rd (F.LANE_PORT_STATUS_STATE a)
    if st = 0 ∨ s.roleOf a = .idle ∨ s.anchorOf a ≠ a then s
    else if s.roleOf a = .onora then
      let held := ((mgetD [] s.onl.store a.val).flatMap (·.pkts)) ++ mgetD [] s.onl.queue a.val
      let s := (((s.linkReset a).portOut a 0).wr (F.ONL_STATUS_LINK_STATE a) 0).wr (F.ONL_STATUS_TRAIN_STATE a) 0
      s.absorbChain a held.eraseDups
    else if 3 ≤ st ∧ st ≤ 5 then s.linkDown a 0 0
    else s.portOut a 0) s
  (List.range 128).foldl (fun (s : State) c => s.setDomain (3 * c + 2) 0) s
/-- The two entries of a loss of both feeds. -/
def State.logBothLost (s : State) : State :=
  let to_ : Option Mode := if modeOk s.mode .safeStop then some .safeStop else none
  (s.logFault 0x10 none 0xFFFF 0x000E 0 0 true to_).logFault 0x10 none 0xFFFF 0x000E 1 1 true to_
/-- The module treats both feeds as lost: `why` is LOST_WHY. One class 0x10 entry for each feed, outside the promise, and SAFE_STOP
from a mode that may stop. -/
def State.bothLost (s : State) (why : Nat) : State :=
  let was := s.rdb F.RIND_PWR_STATUS_BOTH_LOST
  let s := ((s.wr F.RIND_PWR_STATUS_LOST_WHY why).wr F.RIND_PWR_STATUS_BOTH_LOST 1).wr F.RIND_PWR_STATUS_PWRGD 0
  if was then s
  else
    let s := { s with pwr.lostAt := s.wall }.logBothLost
    match s.mode with
    | .dormant | .sealedHalt => s
    | _ => ({ s.goMode .safeStop 0x13 with pwr.capped := true }).quadsOff
/-- A stop of R394 runs. -/
def State.stopRuns (s : State) : Bool := s.mode == .safeStop
/-- The gates are pulled. -/
def State.gatesOff (s : State) (st : Nat) : State := ((s.setCtrl st).wr F.RIND_PWR_STATUS_GATE_ON 0).showPower
/-- A trip (R393): the cause, the time, and the retry or the latch. One in ON is a loss of both feeds (R394). -/
def State.trip (s : State) (cause : Nat) : State :=
  let on := s.ctrl == 3
  let n := s.rd F.RIND_PWR_STATUS_RETRY_CNT
  let s := ((s.wr F.RIND_PWR_LAST_RETRY_AT n).wr F.RIND_PWR_LAST_CAUSE cause).wr F.RIND_PWR_LAST_RTC_S (s.rd F.RIND_RTC_SEC)
  let s := (s.wr F.RIND_PWR_STATUS_TIMER_RUN 0).wr F.RIND_PWR_TIMER_TIMER_NOW 0
  let s := if n = 3 then (s.gatesOff 5).wr F.RIND_PWR_STATUS_LATCHED 1 else (s.gatesOff 4).wr F.RIND_PWR_STATUS_RETRY_CNT (n + 1)
  if on then s.bothLost 3 else s
/-- A feed leaves VALID, or goes out of range from another state (R383). -/
def State.feedLost (s : State) (f : Fin 2) (st v : Nat) : State :=
  let was := s.feedOk f
  let s := s.setFeed f st v
  let s := if was then s.sat (if f = 0 then F.RIND_PWR_FEED_EVT_LOSS_A else F.RIND_PWR_FEED_EVT_LOSS_B) else s
  if !was then s
  else if s.anyFeed then s.logFault 0x10 none 0xFFFF 0x000E f.val f.val true
  else match s.ctrl with
    | 1 => s.setCtrl 0
    | 2 => let (n, s) := s.fresh; s.trip (Config.freeRandom n % 256)
    | 3 => let s := s.bothLost 0
           if s.stopRuns then s else s.gatesOff 0
    | _ => s

/-! ### The commands of the power entry -/

/-- The Rind supply runs (R382): without it the module holds no power-entry, clock or manager state. -/
def State.onRind (s : State) (k : State → State) : State := if s.pwr.rind then k s else s
/-- RIND_STOP. -/
def execRindStop (s : State) : Outcome State Fault Refusal := .next (s.onRind State.unpower)
/-- RIND_START: the controller is OFF, both feeds ABSENT, and the manager port's synthesiser locks. -/
def execRindStart (s : State) : Outcome State Fault Refusal :=
  .next <|
    if s.pwr.rind then s
    else
      let s := { s with pwr.rind := true }
      let s := (((s.setCtrl 0).wr F.RIND_PWR_STATUS_PWRGD 0).wr F.RIND_PWR_STATUS_GATE_ON 0).wr F.RIND_CLK_STATUS_MGR_LOCK 1
      (((s.wr (feedFld 0) 0).wr (feedFld 1) 0).showPower).setDomain 431 1
/-- Every sense contact is closed. -/
def State.senses (s : State) : Bool := s.rdb F.RIND_PWR_STATUS_SENSE_L && s.rdb F.RIND_PWR_STATUS_SENSE_M && s.rdb F.RIND_PWR_STATUS_SENSE_S
/-- The controller leaves OFF for DEBOUNCE once every sense contact is closed and a feed is VALID (Table 13-2). -/
def State.tryDebounce (s : State) : State := if s.ctrl = 0 ∧ s.senses ∧ s.anyFeed then s.setCtrl 1 else s
/-- FEED_VALID (R386): with the bus up its FET is on at once. -/
def execFeedValid (f : Fin 2) (v : BitVec 16) (s : State) : Outcome State Fault Refusal :=
  .next (s.onRind fun s => (s.setFeed f 1 v.toNat).tryDebounce)
/-- FEED_UV: only a VALID feed becomes UV. -/
def execFeedUv (f : Fin 2) (v : BitVec 16) (s : State) : Outcome State Fault Refusal :=
  .next (s.onRind fun s => if s.feedOk f then s.feedLost f 2 v.toNat else s)
/-- FEED_OV. -/
def execFeedOv (f : Fin 2) (v : BitVec 16) (s : State) : Outcome State Fault Refusal :=
  .next (s.onRind fun s => s.feedLost f 3 v.toNat)
/-- IDEAL_DIODE_REVERSE_OFF (R385). -/
def execIdealDiodeReverseOff (f : Fin 2) (s : State) : Outcome State Fault Refusal :=
  .next (s.onRind fun s =>
    let s := s.sat (if f = 0 then F.RIND_PWR_FEED_EVT_REV_OFF_A else F.RIND_PWR_FEED_EVT_REV_OFF_B)
    s.wr F.RIND_PWR_STATUS_CARRYING (s.rd F.RIND_PWR_STATUS_CARRYING &&& (if f = 0 then 2 else 1)))
/-- SENSE_MATED. -/
def execSenseMated (s : State) : Outcome State Fault Refusal :=
  .next (s.onRind fun s =>
    let s := ((s.wr F.RIND_PWR_STATUS_SENSE_L 1).wr F.RIND_PWR_STATUS_SENSE_M 1).wr F.RIND_PWR_STATUS_SENSE_S 1
    s.tryDebounce)
/-- DEBOUNCE_EXPIRY. -/
def execDebounceExpiry (s : State) : Outcome State Fault Refusal :=
  .next (s.onRind fun s => if s.ctrl = 1 then (s.setCtrl 2).showPower else s)
/-- RAMP_COMPLETE (R388). -/
def execRampComplete (v : BitVec 16) (s : State) : Outcome State Fault Refusal :=
  .next (s.onRind fun s =>
    if s.ctrl = 2 then
      ((((s.setCtrl 3).wr F.RIND_PWR_STATUS_GATE_ON 1).wr F.RIND_PWR_BUS_V_NOW v.toNat).lower F.RIND_PWR_BUS_V_MIN v.toNat).showPower
    else s)
/-- RAMP_TIMEOUT (R388). -/
def execRampTimeout (s : State) : Outcome State Fault Refusal :=
  .next (s.onRind fun s => if s.ctrl = 2 then (s.sat F.RIND_PWR_EVT_RAMP_FAIL).trip 7 else s)
/-- SHORT_DETECT (R389). -/
def execShortDetect (s : State) : Outcome State Fault Refusal :=
  .next (s.onRind fun s => if s.ctrl = 2 then (s.sat F.RIND_PWR_EVT_RAMP_FAIL).trip 6 else s)
/-- RAMP_COMPARATOR_TRIP (R389). -/
def execRampComparatorTrip (f : Fin 2) (i : BitVec 16) (s : State) : Outcome State Fault Refusal :=
  .next (s.onRind fun s => if s.ctrl = 2 then ((s.feedCurrent f i.toNat).sat F.RIND_PWR_EVT_FAST).trip 5 else s)
/-- FAULT_TIMER_EXPIRY (R390, R392): PWRGD falls, and the gates are pulled 2 µs later. -/
def execFaultTimerExpiry (f : Fin 2) (i : BitVec 16) (s : State) : Outcome State Fault Refusal :=
  .next (s.onRind fun s =>
    if s.ctrl = 3 then (((s.feedCurrent f i.toNat).sat F.RIND_PWR_EVT_BREAKER).raise F.RIND_PWR_TIMER_TIMER_MAX 100000).trip (1 + f.val)
    else s)
/-- FAST_TRIP (R390). -/
def execFastTrip (f : Fin 2) (i : BitVec 16) (s : State) : Outcome State Fault Refusal :=
  .next (s.onRind fun s => if s.ctrl = 3 then ((s.feedCurrent f i.toNat).sat F.RIND_PWR_EVT_FAST).trip (3 + f.val) else s)
/-- TRIP_WAIT_EXPIRY (R393). The controller never ramps with a sense contact open: it is OFF then (DEDUCED, R387). -/
def execTripWaitExpiry (s : State) : Outcome State Fault Refusal :=
  .next (s.onRind fun s =>
    if s.ctrl ≠ 4 then s
    else if s.senses then ((s.setCtrl 2).sat F.RIND_PWR_EVT_RETRIES).showPower
    else s.setCtrl 0)
/-- LATCH_CLEAR_ENABLE_CYCLE (R393, Table 13-6): no effect during DEBOUNCE, RAMP and TRIP_WAIT. -/
def execLatchClearEnableCycle (s : State) : Outcome State Fault Refusal :=
  .next (s.onRind fun s =>
    let s := s.wr F.RIND_PWR_STATUS_ENABLE 1
    match s.ctrl with
    | 1 | 2 | 4 => s
    | 5 => ((s.setCtrl 0).wr F.RIND_PWR_STATUS_LATCHED 0).wr F.RIND_PWR_STATUS_RETRY_CNT 0
    | _ => s.wr F.RIND_PWR_STATUS_RETRY_CNT 0)
/-- The long or medium contact opens: a controller in ON loses both feeds and goes to OFF, one in RAMP or DEBOUNCE goes to OFF with
no trip (Table 13-6). -/
def State.contactOpens (s : State) : State :=
  match s.ctrl with
  | 1 | 2 => s.gatesOff 0
  | 3 => (s.gatesOff 0).bothLost 2
  | _ => s
/-- LATCH_CLEAR_REINSERTION (R393). -/
def execLatchClearReinsertion (s : State) : Outcome State Fault Refusal :=
  .next (s.onRind fun s =>
    let s := ((s.wr F.RIND_PWR_STATUS_SENSE_L 0).wr F.RIND_PWR_STATUS_SENSE_M 0).wr F.RIND_PWR_STATUS_SENSE_S 0
    let s := s.contactOpens
    let s := if s.ctrl = 5 then s.setCtrl 0 else s
    (s.wr F.RIND_PWR_STATUS_LATCHED 0).wr F.RIND_PWR_STATUS_RETRY_CNT 0)
/-- RETRY_COUNT_CLEAR (R393). -/
def execRetryCountClear (s : State) : Outcome State Fault Refusal :=
  .next (s.onRind fun s => if s.rdb F.RIND_PWR_STATUS_PWRGD then s.wr F.RIND_PWR_STATUS_RETRY_CNT 0 else s)
/-- PWRGD_ASSERT (R391). -/
def execPwrgdAssert (s : State) : Outcome State Fault Refusal :=
  .next (s.onRind fun s =>
    if s.ctrl = 3 ∧ s.anyFeed ∧ s.rdb F.RIND_PWR_STATUS_SENSE_S ∧ !s.rdb F.RIND_PWR_STATUS_TIMER_RUN then
      ((s.wr F.RIND_PWR_STATUS_FEEDWARN 0).wr F.RIND_PWR_STATUS_BOTH_LOST 0).wr F.RIND_PWR_STATUS_PWRGD 1
    else s)
/-- FEEDWARN_TIMEOUT (R394). -/
def execFeedwarnTimeout (s : State) : Outcome State Fault Refusal :=
  .next (s.onRind fun s => (s.wr F.RIND_PWR_STATUS_FEEDWARN 1).bothLost 1)
/-- SENSE_S_BREAK (R394): in ON it is a loss of both feeds; in DEBOUNCE the OFF condition breaks. -/
def execSenseSBreak (s : State) : Outcome State Fault Refusal :=
  .next (s.onRind fun s =>
    let s := s.wr F.RIND_PWR_STATUS_SENSE_S 0
    match s.ctrl with
    | 1 => s.setCtrl 0
    | 3 => s.bothLost 2
    | _ => s)
/-- SENSE_LM_OPEN (R387, R394). -/
def execSenseLmOpen (long : Bool) (s : State) : Outcome State Fault Refusal :=
  .next (s.onRind fun s => (s.wr (if long then F.RIND_PWR_STATUS_SENSE_L else F.RIND_PWR_STATUS_SENSE_M) 0).contactOpens)
/-- CLR_PEAK (Table 13-10). -/
def State.clrPeak (s : State) : State :=
  let s := [0, 1].foldl (fun (s : State) f =>
    (s.wr (F.RIND_PWR_FEED_I_PEAK f) (s.rd (F.RIND_PWR_FEED_I_NOW f))).wr (F.RIND_PWR_FEED_V_MIN f) (s.rd (F.RIND_PWR_FEED_V_NOW f))) s
  (s.wr F.RIND_PWR_BUS_V_MIN (s.rd F.RIND_PWR_BUS_V_NOW)).wr F.RIND_PWR_TIMER_TIMER_MAX (s.rd F.RIND_PWR_TIMER_TIMER_NOW)
def execClrPeak (src : Src) (s : State) : Outcome State Fault Refusal :=
  .next (s.onRind fun s => s.ifMay src F.RIND_PWR_CTRL_CLR_PEAK 1 State.clrPeak)

/-! ### Clocks (R399 to R402) -/

/-- XTAL_LOSS (R400). -/
def execXtalLoss (s : State) : Outcome State Fault Refusal :=
  .next (s.onRind fun s =>
    let s := ((s.wr F.RIND_CLK_STATUS_XTAL_LOST 1).wr F.RIND_CLK_STATUS_RIND_INT 1).wr F.RIND_CLK_STATUS_MGR_HOLD 1
    let s := s.sat F.RIND_CLK_STATUS_XTAL_LOSSES
    (List.range 8).foldl (fun (s : State) d => if s.rd (F.DIE_PLL_STATUS_STATE d) = 2 then s.wr (F.DIE_PLL_STATUS_STATE d) 3 else s) s)
/-- XTAL_RESTORE (R400). -/
def execXtalRestore (s : State) : Outcome State Fault Refusal :=
  .next (s.onRind fun s =>
    let s := ((s.wr F.RIND_CLK_STATUS_XTAL_LOST 0).wr F.RIND_CLK_STATUS_RIND_INT 0).wr F.RIND_CLK_STATUS_MGR_HOLD 0
    (List.range 8).foldl (fun (s : State) d => if s.rd (F.DIE_PLL_STATUS_STATE d) = 3 then s.wr (F.DIE_PLL_STATUS_STATE d) 2 else s) s)
/-- RTC_XTAL_LOSS (R400). -/
def execRtcXtalLoss (s : State) : Outcome State Fault Refusal := .next (s.onRind fun s => s.wr F.RIND_CLK_STATUS_RTC_LOST 1)
/-- The seam links of a die train once the PLLs of both their dies have locked (R63). A fenced link trains with its return only. -/
def State.trainSeams (s : State) (d : Nat) : State :=
  (List.range 4).foldl (fun (s : State) e => match edgeFaces d e with
    | some x =>
      if s.pllOn d && s.pllOn x && !s.dieOff x && diesOn s.mode then
        s.startTraining d e ((edgeLinks d e).filter (fun n =>
          !s.scrim.fence.links.contains n || s.log.returning == some (.die (Fin.ofNat 8 d))))
      else s
    | none => s) s
/-- PLL_LOCK (R401): the die's domains may leave OFF, and its seam links train (R63). -/
def execPllLock (d : Die) (s : State) : Outcome State Fault Refusal :=
  .next <|
    if s.rd (F.DIE_PLL_STATUS_STATE d) ≠ 1 then s
    else (((s.wr (F.DIE_PLL_STATUS_STATE d) 2).wr (F.DIE_PLL_STATUS_LOCK_US d)
      (min 0xFFFF ((s.wall - mgetD 0 s.pwr.pllAt d.val) / 3000))).setDomains).trainSeams d.val
/-- PLL_UNLOCK (R402): outside HOLDOVER the die is fenced. -/
def execPllUnlock (d : Die) (s : State) : Outcome State Fault Refusal :=
  .next <|
    if s.rd (F.DIE_PLL_STATUS_STATE d) ≠ 2 then s
    else ((s.wr (F.DIE_PLL_STATUS_STATE d) 4).sat (F.DIE_PLL_STATUS_UNLOCKS d)).failElem (.die d) none 0x0004 d.val
/-- RTC_WRITE (Table 14-6). -/
def State.rtcWrite (s : State) (v : Nat) : State := (s.wr F.RIND_RTC_SEC v).wr F.RIND_RTC_SUBSEC 0
def execRtcWrite (src : Src) (v : BitVec 32) (s : State) : Outcome State Fault Refusal :=
  .next (s.onRind fun s => s.ifMay src F.RIND_RTC_SEC v.toNat fun s => s.rtcWrite v.toNat)

/-! ### Sleep (R406 to R411) and the drain (R70, R71) -/

/-- A cell is quiet (R407). A port that is OFF carries nothing either. -/
def State.quiet (s : State) (c : Cell) : Bool :=
  let a := s.anchorOf c
  let st := s.rd (F.LANE_PORT_STATUS_STATE a)
  s.roleOf c != .onora && (s.roleOf c == .idle || st == 0 || st == 1 || st == 5)
    && !s.xbar.slots.any (fun (e : Nat × TSlot) => e.1 / 1024 == c.val) && (mgetD [] s.pool.hold c.val).isEmpty
    && (mgetD [] s.pool.devHeld c.val).isEmpty
    && !s.home.tt.any (fun (e : Nat × Txn) => e.1 / 1024 == c.val) && (mgetD [] s.home.intake c.val).isEmpty && !s.home.held.any (fun k => k / 128 == c.val)
    && !s.home.bitag.any (fun (e : Nat × BiTag) => e.1 / 4096 == c.val)
    && (mgetD [] s.home.fwdWait c.val).isEmpty && (mgetD [] s.home.fwdServe c.val).isEmpty
    && !s.spill.ctx.any (fun (e : Nat × SpillCtx) => e.1 / 64 == c.val)
    && !s.xbar.voq.any (fun (e : Nat × List Frame) => e.1 / 800 == c.val)
    && !s.xbar.leaving.any (fun (l : Leaving) => l.cell == c)
    && (List.range 10).all (fun o => (List.range 8).all (fun tc => decide (0 ≤ s.credit c o tc)))
/-- The cell still injects a packet: an SCR output sends one, or one that it has started has not entered its router whole (R70). -/
def State.injecting (s : State) (c : Cell) : Bool :=
  [1, 2, 3, 4].any (fun o => decide (s.cyc < mgetD 0 s.xbar.outBusy (c.val * 10 + o)))
    || s.scrim.flight.any (fun (f : Flying) => f.p.src == c && f.inj == 1)
    || (List.range 8).any (fun v => (mget s.scrim.rx ((c.val * 5 + 4) * 8 + v)).isSome) || s.xingHolds c
/-- The cell has consumed what its ejection buffer held: no frame of it waits at an input or in a VOQ. -/
def State.ejected (s : State) (c : Cell) : Bool :=
  !s.xbar.waiting.any (fun e => e.1 / 10 == c.val) && !s.xbar.voq.any (fun e => e.1 / 800 == c.val)
    && (List.range 8).all (fun v => (mget s.scrim.eject (c.val * 8 + v)).isNone)
/-- RETENTION_IDLE (R406): in DROWSE the drain starts in every cell of the port together. A cell that injects nothing is held at
once; from here on it starts no packet (R70). -/
def execRetentionIdle (c : Cell) (s : State) : Outcome State Fault Refusal :=
  .next <|
    let ms := s.portMembers c
    if s.mode ≠ .drowse ∨ ms.any (fun (m : Cell) => !s.quiet m || s.domain (3 * m.val) != 1 || s.cellFenced m || s.rd (F.SCRIM_RTR_STATUS_LOCAL_MODE m) != 0) then s
    else ms.foldl (fun (s : State) (m : Cell) =>
      let s := s.wr (F.SCRIM_RTR_STATUS_DRAIN_STATE m) 1
      if s.injecting m then s else s.wr (F.SCRIM_RTR_STATUS_LOCAL_MODE m) 1) s
/-- DRAINED_REPORT: injection has stopped, the local output is in HOLD, and the ejection buffer is empty (R70). -/
def execDrainedReport (c : Cell) (s : State) : Outcome State Fault Refusal :=
  .next (if s.rd (F.SCRIM_RTR_STATUS_DRAIN_STATE c) = 1 ∧ !s.injecting c ∧ s.ejected c then
    (s.wr (F.SCRIM_RTR_STATUS_LOCAL_MODE c) 1).wr (F.SCRIM_RTR_STATUS_DRAIN_STATE c) 2 else s)
/-- DRAIN_COMMIT: with every cell of the port DRAINED, logic and SRAM enter RETENTION (R404, R406). -/
def execDrainCommit (c : Cell) (s : State) : Outcome State Fault Refusal :=
  .next <|
    let ms := s.portMembers c
    if ms.any (fun (m : Cell) => s.rd (F.SCRIM_RTR_STATUS_DRAIN_STATE m) != 2 || s.scrim.committed.contains m || s.domain (3 * m.val) != 1) then s
    else ms.foldl (fun (s : State) (m : Cell) =>
      let s := (s.setDomain (3 * m.val) 2).setDomain (3 * m.val + 1) 2
      -- its empty crossings are reset (R119)
      { s with scrim.committed := m :: s.scrim.committed }.xingReset (xingOfCell m)) s
/-- DRAIN_LIMIT_EXPIRY (R70). -/
def execDrainLimitExpiry (c : Cell) (s : State) : Outcome State Fault Refusal :=
  .next (if s.rd (F.SCRIM_RTR_STATUS_DRAIN_STATE c) = 1 then (s.abandonDrain c 4).sat F.RIND_SLEEP_CNT_TIMED_OUT else s)
/-- HOLD_UNIT_ARRIVAL (R71). -/
def execHoldUnitArrival (c : Cell) (p : Pkt) (s : State) : Outcome State Fault Refusal :=
  .next (if s.rd (F.SCRIM_RTR_STATUS_LOCAL_MODE c) = 1 then s.holdArrival c p else s)
/-- DOMAIN_ON_SIGNAL (R71, R408): HOLD is released, and every shaper's CREDIT is 0. -/
def execDomainOnSignal (c : Cell) (s : State) : Outcome State Fault Refusal :=
  .next <|
    if s.domain (3 * c.val) ≠ 3 then s
    else
      let t := min 0xFFFF ((s.cyc - mgetD s.cyc s.pwr.wakeAt c.val) / 3)
      let s := (s.setDomain (3 * c.val) 1).setDomain (3 * c.val + 1) 1
      let s := { s with
        scrim.committed := s.scrim.committed.filter (· != c)
        pwr.wakeAt := mdel s.pwr.wakeAt c.val
        pwr.onNs := mput (mput s.pwr.onNs (3 * c.val) t) (3 * c.val + 1) t }
      let s := (s.inc F.RIND_SLEEP_CNT_WAKES).raise F.RIND_SLEEP_STATUS_WAKE_MAX_NS t
      let s := (List.range 10).foldl (fun (s : State) o => (List.range 8).foldl (fun (s : State) tc => s.setCredit c o tc 0) s) s
      -- a period that ended in retention is copied as one that spans it (R408)
      let s := if s.sched.due.contains c.val then { s with sched.due := s.sched.due.filter (· != c.val) }.copyObs c false else s
      (((s.wr (F.SCRIM_RTR_STATUS_DRAIN_STATE c) 0).wr (F.SCRIM_RTR_STATUS_LOCAL_MODE c) 0).releaseHold c).tryClose
/-- WAKE_FAIL (R411). -/
def execWakeFail (c : Cell) (s : State) : Outcome State Fault Refusal :=
  .next (if s.domain (3 * c.val) = 3 then (s.sat F.RIND_SLEEP_CNT_WAKE_FAIL).failElem (.cell c) (some c) 0x0002 0xFFFF |>.tryClose else s)
/-- SLEEP_CLR_MAX (Table 14-10). -/
def execSleepClrMax (src : Src) (s : State) : Outcome State Fault Refusal :=
  .next (s.onRind fun s => s.ifMay src F.RIND_SLEEP_STATUS_CLR_MAX 1 fun s => s.wr F.RIND_SLEEP_STATUS_WAKE_MAX_NS 0)

end Sys2Proof.Machine
end

