-- ==== Sys2Proof/Machine/Return.lean ====
section
/-! DEFINITION. Directory re-silvering starts (spec/07 R213), the service processors' heartbeats (spec/01 R27), the return of
elements to service (spec/12 R374), and the fetch of log words (R378). -/

namespace Sys2Proof.Machine
open Host (Outcome)

/-- The mode goes to REBUILD, from DROWSE through SERVICE (Table 1-9). -/
def State.toRebuild (s : State) : State :=
  match s.mode with
  | .drowse => (s.goMode .service 0x0B).goMode .rebuild 0x0B
  | .service | .degraded => s.goMode .rebuild 0x0B
  | _ => s
/-- REBUILD_START (R213): the controller of stack k copies the quarter whose other copy its partner has lost. Both stacks are in
service, no fence epoch is open, and the controller has no other run. -/
def execRebuildStart (k : Stack) (mirror : Bool) (s : State) : Outcome State Fault Refusal :=
  .next <|
    let d := stackDie k
    let x := partnerDie d
    let f := if mirror then F.DIR_STACK_STATUS_MIR_STATE x else F.DIR_STACK_STATUS_PRI_STATE x
    let q := if mirror then s.rd (F.DIR_STACK_STATUS_MIR_Q x) else s.rd (F.DIR_STACK_STATUS_PRI_Q x)
    if s.stackFenced k ∨ s.stackFenced (dieStack x) ∨ s.rd f ≠ 3 ∨ s.rdb (F.DIR_REBUILD_STATUS_ACTIVE d) ∨ s.scrim.epochOpen
        ∨ !(s.mode = .service ∨ s.mode = .drowse ∨ s.mode = .degraded ∨ s.mode = .rebuild) then s
    else
      let s := ((s.wr (F.DIR_REBUILD_STATUS_ACTIVE d) 1).wr (F.DIR_REBUILD_STATUS_QUARTER d) q).wrb (F.DIR_REBUILD_STATUS_TARGET d) mirror
      let s := ((s.wr (F.DIR_REBUILD_STATUS_TOTAL d) resilverBlocks).wr (F.DIR_REBUILD_STATUS_CURSOR d) 0).wr (F.DIR_REBUILD_STATUS_RESULT d) 0
      ((s.wr f 2).sendBlock d).toRebuild

/-! ### Service processors (R27) -/

/-- SP_HEARTBEAT_MISS: a class 0x0D entry; the processor is fenced, and its partner takes over the active role if it had it. The
steps of its recovery have nothing else to do, and end at once (R364). -/
def execSpHeartbeatMiss (sp : Fin 2) (s : State) : Outcome State Fault Refusal :=
  .next <|
    let d : Die := if sp = 0 then 0 else 7
    if s.spGone.contains d ∨ s.dieFenced d ∨ s.activeSp.isNone then s
    else
      let run := s.rd F.PKG_FAULT_STATUS_STEP != 0
      let s := { s with spGone := d :: s.spGone }
      let s := if s.activeSp = some d then { s with activeSp := s.nextSp d } else s
      let s := s.logFault 0x0D none 0xFFFF 0x000B d.val d.val false
      if run then s else ((((s.beginRecovery 0x0D).logStep 1).logStep 2).logStep 3).logStep 4

/-! ### Return to service (R374) -/

/-- An element is eligible: fenced for 1 s, not barred, and the mode is DEGRADED or REBUILD. -/
def State.mayReturn (s : State) (e : Elem) : Bool :=
  s.scrim.fence.has e && !s.scrim.barred.contains e && (s.mode == .degraded || s.mode == .rebuild)
    && s.scrim.fencedAt.all (fun (x : Elem × Nat) => x.1 != e || decide (x.2 + 10 ^ 9 ≤ s.ns))
/-- A return starts: the element's domains go off and on, a seam link trains again (R63), and its test runs. -/
def State.startReturn (s : State) (e : Elem) : State :=
  let s := ({ s with log.returning := some e }.wr F.PKG_FENCE_RETURN_BUSY 1).wr F.PKG_FENCE_RETURN_RESULT 0
  match e with
  | .die d => (s.pllStart d.val).setDomains
  | .link n =>
    if seamLink n.val then s.setDomains.startTraining ((linkEnds n.val).1 / 16) (if n.val < 120 then 1 else 2) [n.val] else s.setDomains
  | _ => s.setDomains
/-- The element that KIND and ELEM name. -/
def elemOf (kind n : Nat) : Option Elem :=
  match kind with
  | 1 => if n < 232 then some (.link (Fin.ofNat 232 n)) else none
  | 2 => if n < 128 then some (.cell (Fin.ofNat 128 n)) else none
  | 3 => if n < 8 then some (.die (Fin.ofNat 8 n)) else none
  | 4 => if n < 4 then some (.stack (Fin.ofNat 4 n)) else none
  | _ => none
/-- GO of PKG_FENCE_RETURN. -/
def State.fenceReturnOp (s : State) : State :=
  if s.rdb F.PKG_FENCE_RETURN_BUSY then s
  else match elemOf (s.rd F.PKG_FENCE_RETURN_KIND) (s.rd F.PKG_FENCE_RETURN_ELEM) with
    | some e => if s.mayReturn e then s.startReturn e else s.flag F.PKG_FENCE_RETURN_REFUSED
    | none => s.flag F.PKG_FENCE_RETURN_REFUSED
/-- FENCE_RETURN_GO: by a write of GO, or by AUTO_RETURN, which needs a service processor (Table 12-6). -/
def execFenceReturnGo (by_ : Sum Src Elem) (s : State) : Outcome State Fault Refusal :=
  .next <|
    match by_ with
    | .inl src => s.ifMay src F.PKG_FENCE_RETURN_GO 1 State.fenceReturnOp
    | .inr e => if s.rdb F.PKG_FAULT_CFG_AUTO_RETURN && s.activeSp.isSome && !s.rdb F.PKG_FENCE_RETURN_BUSY && s.mayReturn e
        then s.startReturn e else s
/-- What leaves the fence map with an element: with a die also its Lath links to dies in service (DEDUCED). -/
def State.returnSet (s : State) (e : Elem) : List Elem :=
  match e with
  | .die d => e :: (((List.range 4).filter (fun n => (edgeFaces d.val n).any (fun x => !s.dieFenced x))).flatMap (fun n => edgeLinks d.val n)).map
      (fun n => Elem.link (Fin.ofNat 232 n))
  | _ => [e]
/-- The element's seam links have trained (R63, R374). -/
def State.trained (s : State) (e : Elem) : Bool :=
  (s.returnSet e).all (fun x => match x with
    | .link n => !s.scrim.training.contains n.val
    | _ => true)
/-- RETURN_SELF_TEST_COMPLETE: a fence epoch takes the element out of the fence map; one that fails its test stays fenced until
DORMANT. A test cannot pass while a seam link of the element still trains. -/
def execReturnSelfTestComplete (ok : Bool) (s : State) : Outcome State Fault Refusal :=
  .next <|
    match s.log.returning with
    | none => s
    | some e =>
      if !s.scrim.fence.has e ∨ s.scrim.nextReturns.contains e then s
      else if ok && !s.trained e then s
      else if !ok then { s with scrim.barred := e :: s.scrim.barred.filter (· != e) }.endReturn 2
      else if s.scrim.epochOpen then { s with scrim.nextReturns := s.returnSet e }
      else s.fenceNotes [] (s.returnSet e)

/-! ### Log words (R378) -/

/-- Words of a log that the service processor keeps, newest first, with their SEQ. -/
def State.logWords (s : State) (l : Nat) : List (Nat × List Nat) :=
  match l with
  | 0 => s.log.fault.map (fun (r : FaultRec) => (r.seq, r.words))
  | 1 => s.log.viol.zipIdx.map (fun (x : ViolRec × Nat) => ((s.rd (F.PKG_LOG_PTR_NEXT_SEQ 1) + 2 ^ 32 - 1 - x.2) % 2 ^ 32, x.1.words))
  | 2 => s.log.access.map (fun (r : AccRec) => (r.seq, r.words))
  | 3 => s.log.commit.map (fun (r : CommitRec) => (r.seq, r.words))
  | 4 => s.log.audit.map (fun (r : AuditRec) => (r.seq, r.words))
  | _ => []
/-- A write of PKG_LOG_SEL starts the fetch. -/
def State.logFetchOp (s : State) : State := { s.setReg F.PKG_LOG_STAT_at 0 with log.fetching := true }
/-- LOG_FETCH_COMPLETE. The audit log needs no service processor (R447); LOG codes 5 to 7 read as zero. -/
def execLogFetchComplete (s : State) : Outcome State Fault Refusal :=
  .next <|
    if !s.log.fetching then s
    else
      let l := s.rd F.PKG_LOG_SEL_LOG
      let n := s.rd F.PKG_LOG_SEL_SEQ
      let s := { s with log.fetching := false }
      let s := (List.range 4).foldl (fun (s : State) w => s.wr (F.PKG_LOG_DATA_DATA w) 0) s
      if l ≥ 5 then s.wr F.PKG_LOG_STAT_VALID 1
      else if l ≠ 4 ∧ (s.activeSp.isNone ∨ !s.metadataPresent) then s.wr F.PKG_LOG_STAT_NO_SP 1
      else
        let old := s.rd (F.PKG_LOG_PTR_OLDEST_SEQ l)
        let s := s.wr F.PKG_LOG_STAT_VALID 1
        match (s.logWords l).find? (fun (x : Nat × List Nat) => x.1 == n) with
        | some x => (x.2.zipIdx).foldl (fun (s : State) (y : Nat × Nat) => s.wr (F.PKG_LOG_DATA_DATA y.2) y.1) s
        | none => if (n + 2 ^ 32 - old) % 2 ^ 32 < 2 ^ 31 then s.wr F.PKG_LOG_STAT_AHEAD 1 else s.wr F.PKG_LOG_STAT_GONE 1

end Sys2Proof.Machine
end

