-- ==== Sys2Proof/Machine/Rules.lean ====
section
/-! DEFINITION. The conditions that an image must meet and a commit is judged by (spec/15 check 12, spec/16 Table 16-7), over
the values that the registers would have. -/

namespace Sys2Proof.Machine

/-! ### Gate lists (R141, R142) -/

/-- Classes that Table 5-1 lets leave a port of a role. -/
def roleClasses : Role → List Nat
  | .host => [2, 5, 6, 7]
  | .memory => [0, 2, 3, 4, 6]
  | .device => [0, 2, 3, 4, 6, 7]
  | .onora => [0, 1, 2, 3, 4, 5, 6, 7]
  | .idle => []
/-- The longest closed run of a class in a list, in ns; none where it never opens. -/
def closedRun (l : List (Nat × Nat)) (tc : Nat) : Option Nat :=
  let c := l.map (fun (e : Nat × Nat) => (255 - e.1 % 256, e.2))
  (List.range l.length).foldl (fun (acc : Option Nat) n => match acc, runLen c tc n (l.length + 1) with
    | some m, some r => some (max m r)
    | _, _ => none) (some 0)
/-- 4,128 B at the port's highest rate, and the guard, fit the longest open run of a class. -/
def State.longFits (s : State) (c : Cell) (tc : Nat) : Bool :=
  let a := s.anchorOf c
  let r := s.rd (F.LANE_PORT_CFG_MAX_WIDTH a) * rateGt10 (s.rd (F.LANE_PORT_CFG_MAX_RATE a))
  match s.longestRun c tc with
  | some (t, _) => decide (4128 * 80 + s.rd (F.GATE_CTRL_GUARD_NS c) * r ≤ t * r)
  | none => (s.gateList c).all (fun (e : Nat × Nat) => e.1.testBit tc)
/-- A cell's list keeps R141: its sum; every class opens; none stays closed for more than 100 µs at a HOST or DEVICE port; and, where
an image is judged, a longest frame of every class fits. A list whose EN is 0 is not judged. -/
def State.gateOk (s : State) (c : Cell) (image : Bool) : Bool :=
  let l := s.gateList c
  let ro := s.roleOf c
  !s.rdb (F.GATE_CTRL_EN c) ||
    (l.foldl (fun n (e : Nat × Nat) => n + e.2) 0 == s.rd (F.GATE_CYCLE_CYCLE_NS c)
      && (roleClasses ro).all (fun tc => l.any (fun (e : Nat × Nat) => e.1.testBit tc)
          && ((ro ≠ .host && ro ≠ .device) || (closedRun l tc).any (fun n => n ≤ 100000))
          && (!image || s.longFits c tc)))

/-! ### Buffers, spill, reserves (Tables 3-13 and 3-16, R184) -/

/-- ΣRES + HEADROOM ≤ 12,288 granules. -/
def State.resOk (s : State) (c : Cell) : Bool :=
  (List.range 10).foldl (fun n o => (List.range 8).foldl (fun m tc => m + s.resOf c o tc) n) 0 + s.headroom c ≤ 12288
/-- 32 × SPILL_MIN ≤ 3,072. -/
def State.spillMinOk (s : State) (c : Cell) : Bool := 32 * s.rd (F.XBAR_SPILL_SHARE_SPILL_MIN c) ≤ 3072
/-- (output, class) pairs of a cell that messages of Table 6-4 pass (R77, R159, Table 5-1). -/
def State.msgPaths (s : State) (c : Cell) : List (Nat × Nat) :=
  let req := s.rd (F.GATE_CLASS_MAP_REQ_TC c)
  let rwd := s.rd (F.GATE_CLASS_MAP_RWD_TC c)
  let ndr := s.rd (F.GATE_CLASS_MAP_NDR_TC c)
  [(1, ndr), (1, 7), (2, 5), (2, rwd), (3, 6), (4, req), (4, 4), (4, 6), (5, req), (5, 5), (5, 6), (5, 7), (5, ndr)]
    ++ (match s.roleOf c with
      | .host => [(0, 5), (0, 6), (0, ndr)]
      | .memory => [(0, req), (0, rwd)]
      | _ => [])
/-- Every such pair has a reserve (R184). -/
def State.reserveOk (s : State) (c : Cell) : Bool := (s.msgPaths c).all (fun x => s.resOf c x.1 x.2 != 0)
/-- Tracker slots that a port may keep for instances: those of its cells without IO_RES (Table 8-5). -/
def State.portSlots (s : State) (a : Cell) : Nat := (s.portMembers a).foldl (fun n (m : Cell) => n + (768 - s.ioRes m)) 0
/-- ΣSLOT_MIN of the instances of a port fits. -/
def State.slotMinOk (s : State) (a : Cell) : Bool :=
  ((s.boundVppbs a).foldl (fun n x => n + s.rd (F.INST_SHARE0_SLOT_MIN x.2)) 0) ≤ s.portSlots a

/-! ### Roles, slots, twins, mirrors, chain (R29, R111, R135, R156, R210, R219, R334, R341, R348) -/

/-- Anchors of the configured ports of a role. -/
def State.anchorsOf (s : State) (ro : Role) : List Cell :=
  (List.finRange 128).filter (fun (c : Cell) => s.roleOf c == ro && s.anchorOf c == c)
/-- R29. -/
def State.rolesOk (s : State) : Bool :=
  (List.finRange 128).all (fun (c : Cell) => s.roleOf (s.anchorOf c) == s.roleOf c) && (s.anchorsOf .host).length ≤ 96
    && (s.anchorsOf .onora).length ≤ 8 && (s.anchorsOf .onora).all (fun (a : Cell) => s.portCells a ≥ 2)
/-- The fields of GATE_CLASS_MAP lie in the permitted sets (R135). -/
def State.classMapOk (s : State) (c : Cell) : Bool :=
  [3, 4].contains (s.rd (F.GATE_CLASS_MAP_REQ_TC c)) && [2, 4, 6].contains (s.rd (F.GATE_CLASS_MAP_RWD_TC c))
    && [6, 7].contains (s.rd (F.GATE_CLASS_MAP_NDR_TC c))
/-- Slots that a cell has configured: (slot, anchor). -/
def State.slotsOf (s : State) (c : Cell) : List (Nat × Nat) :=
  (List.range 96).filterMap (fun n => if s.rdb (F.HOME_SLOT_VALID c (n / 8) (n % 8)) then some (n, s.rd (F.HOME_SLOT_ANCHOR c (n / 8) (n % 8))) else none)
/-- The HOST ports of the domain of cell c. -/
def State.domainHosts (s : State) (c : Cell) : List Cell :=
  (s.anchorsOf .host).filter (fun (a : Cell) => (domainDies (s.topo c) (dieOf c)).contains (dieOf a))
/-- R156 in the domain of cell c: every HOST port has one slot of its own, and a split or quad domain has at most 64 such ports. -/
def State.hostSlotsOk (s : State) (c : Cell) : Bool :=
  let hs := s.domainHosts c
  (s.topo c = 0 || hs.length ≤ 64) && hs.all (fun (a : Cell) => ((s.slotsOf c).filter (fun x => x.2 == a.val)).length == 1)
/-- R210 for the twins that cell c names: both slots are those of HOST ports of its domain, with anchors on dies in different rows. -/
def State.twinsOk (s : State) (c : Cell) : Bool :=
  let slots := (s.slotsOf c).filter (fun x => (s.domainHosts c).any (fun (a : Cell) => a.val == x.2))
  (s.slotsOf c).all (fun x =>
    !s.rdb (F.HOME_TWIN_VALID c (x.1 / 8) (x.1 % 8)) ||
      (let t := s.rd (F.HOME_TWIN_TWIN c (x.1 / 8) (x.1 % 8))
       s.rdb (F.HOME_TWIN_VALID c (t / 8) (t % 8)) && s.rd (F.HOME_TWIN_TWIN c (t / 8) (t % 8)) == x.1
         && slots.contains x && slots.any (fun y => y.1 == t && y.2 / 16 / 4 != x.2 / 16 / 4)))
/-- Every cell of a domain holds the same slots and twins. -/
def State.sameSlots (s : State) (c d : Cell) : Bool :=
  (List.range 12).all (fun n => s.reg (F.HOME_SLOT_at c n) == s.reg (F.HOME_SLOT_at d n) && s.reg (F.HOME_TWIN_at c n) == s.reg (F.HOME_TWIN_at d n))
/-- Destinations of the mirror sessions that are enabled. -/
def State.mirrorDests (s : State) : List Nat :=
  (List.finRange 128).flatMap (fun (c : Cell) => (List.range 4).filterMap (fun k =>
    if s.rdb (F.XBAR_MIR_CTRL_EN c k) then some (s.rd (F.XBAR_MIR_CTRL_DEST c k)) else none))
/-- R111 and R219: a mirror destination is a DEVICE port that no auto-bind rule names. -/
def State.mirrorsOk (s : State) (rules : List AbRule) : Bool :=
  rules.all (fun (r : AbRule) => r.trigger != 3 || !r.mirrored || r.port == 0x7F || r.port / 16 != r.partner / 16)
  && s.mirrorDests.all (fun p => s.roleOf (Cell.of p) == .device
    && !rules.any (fun (r : AbRule) => (r.trigger == 5 || r.trigger == 6) && (r.port == p || r.port == 0x7F)))
/-- R334 for the ONORA port anchored at a. The pools in use are those of all five virtual channels in phase 0, and in a ring those of phase 1
(DESIGN CHOICE, log 148: R334 does not say which are in use); the credit reports, which can only tell of slots that exist, go through those whose ADV
is not 0. -/
def State.creditsOk (s : State) (a : Cell) : Bool :=
  let pool (ph v : Nat) : Nat := s.rd (F.ONL_CREDIT_ADV a ph v)
  let ring := s.rd (F.ONL_CHAIN_TOPO (Cell.of 0)) == 1
  let all := (List.range 2).flatMap (fun ph => (List.range 8).map (fun v => (ph, v)))
  all.foldl (fun n x => n + pool x.1 x.2) 0 ≤ 16384
    && [0, 1, 3, 4, 5].all (fun v => pool 0 v ≥ 128 && (if ring then pool 1 v ≥ 128 else pool 1 v == 0))
/-- R341 and R348 for the ONORA port anchored at a: pairs name each other, on different dies, with one neighbour; a dateline only in
a ring, where one pair at most is flagged, at both of its links. -/
def State.pairOk (s : State) (a : Cell) : Bool :=
  (match s.pairOf a with
    | some b => s.rd (F.ONL_CFG_PAIR_PORT b) != a.val || (dieOf a != dieOf b && s.rd (F.ONL_CFG_NBR_EXPECT a) == s.rd (F.ONL_CFG_NBR_EXPECT b))
    | none => true)
  && (!s.rdb (F.ONL_CFG_DATELINE a) || (s.rd (F.ONL_CHAIN_TOPO (Cell.of 0)) == 1
    && (s.anchorsOf .onora).all (fun (b : Cell) => s.rdb (F.ONL_CFG_DATELINE b) == (b == a || s.pairOf a == some b))))

end Sys2Proof.Machine
end

