-- ==== Sys2Proof/Machine/ImgOps.lean ====
section
/-! DEFINITION. The boot image (spec/15): FIELDS records (R425), what Rennet makes of an image (R432), and check 12 of Table 15-10. -/

namespace Sys2Proof.Machine

/-! ### FIELDS records (R425) -/

/-- Registers of the ONORA cells that are one for the module have one home, at cell 0. -/
def canonAddr (a : Nat) : Nat :=
  if 0x10000000 ≤ a ∧ a < 0x20000000 ∧ 0x70200 ≤ a % 0x100000 ∧ a % 0x100000 < 0x70208 then 0x10000000 + a % 0x100000 else a
/-- The bits of a register that a record may write: those of the fields whose Reset column reads "image". -/
def imageBits (a : Nat) : Nat :=
  match regAt a with
  | some (r, _) => r.fields.foldl (fun m f => if f.image then m ||| maskAt f.lsb f.width else m) 0
  | none => 0
/-- Addresses of a record. -/
def ImgField.addrs (f : ImgField) : List Nat := (List.range f.count).map (fun j => f.addr + j * f.stride)
/-- A record taken by itself keeps R425: addresses, step, count, and bits of image fields outside the INST windows. -/
def ImgField.ok (f : ImgField) : Bool :=
  f.addr % 8 == 0 && f.stride % 8 == 0 && f.count ≥ 1
    && f.addrs.all (fun a => a < 0x20000000 && (regAt a).isSome && f.mask.toNat &&& imageBits a == f.mask.toNat)
/-- The first record that breaks R425, alone or by touching a bit twice. -/
def fieldFault : List ImgField → NMap Nat → Option (Nat × Nat)
  | [], _ => none
  | f :: fs, used =>
    if !f.ok then some (f.sect, f.num)
    else
      let (clash, used) := f.addrs.foldl (fun (x : Bool × NMap Nat) a =>
        (x.1 || mgetD 0 x.2 a &&& f.mask.toNat != 0, mset 0 x.2 a (mgetD 0 x.2 a ||| f.mask.toNat))) (false, used)
      if clash then some (f.sect, f.num) else fieldFault fs used
/-- A write of a value under a mask. -/
def State.putMasked (s : State) (a : Nat) (mask value : Word) : State :=
  let a := canonAddr a
  s.setReg a ((s.reg a &&& ~~~mask) ||| (value &&& mask))
/-- The registers of FIELDS records. -/
def State.applyFields (s : State) (fs : List ImgField) : State :=
  fs.foldl (fun (s : State) (f : ImgField) => f.addrs.foldl (fun (s : State) a => s.putMasked a f.mask f.value) s) s

/-! ### What Rennet makes of the image (R432) -/

def roleOfCode (n : Fin 5) : Role :=
  match n with
  | 0 => .host | 1 => .memory | 2 => .device | 3 => .onora | 4 => .idle
/-- The roles that the image gives. -/
def Image.roles (x : Image) : NMap Role :=
  (List.range 128).filterMap (fun c => match roleOfCode (Config.imageRole x.digest c) with
    | .idle => none
    | r => some (c, r))
/-- HOME_MAP (R154), and the indices each cell serves. -/
def State.setHomeMap (s : State) : State :=
  (List.finRange 128).foldl (fun (s : State) (c : Cell) =>
    let n := domainCells (s.topo c)
    let s := (List.range 128).foldl (fun (s : State) i =>
      s.wr (F.HOME_MAP_CELL c (i / 8) (i % 8)) (if i < n then (imageCell (s.topo c) (dieOf c) i).val else 0)) s
    s.wr (F.HOME_STATUS_SERVED c) 1) s
/-- Map notes that nothing awaits: their changes stand in every cell. -/
def State.settleNotes (s : State) : State :=
  let s := s.pool.notes.foldl (fun (s : State) (x : Nat × MapNote) =>
    let s := x.2.home.foldl (fun (s : State) y => s.setExtAll y.1 y.2) s
    x.2.dev.foldl (fun (s : State) y => s.setDev y.1 y.2.1 y.2.2) s) s
  { s with pool.notes := [] }
/-- CAPACITY, in entry order: pool extents from the lowest free numbers. -/
def State.setCaps (s : State) (l : List ImgCap) : State :=
  l.foldl (fun (s : State) (x : ImgCap) =>
    (s.addExts ((List.range x.count).map (fun j =>
      ((Cell.of x.port, x.first + j), if x.mirrored then some (Cell.of x.partner, x.first + j) else none)))).settleNotes) s
/-- A sharing group is formed with its first member, and its slot is taken then (R432). -/
def State.joinGroup (s : State) (i g : Nat) : State :=
  let o := s.owner (4096 + g)
  let s := (s.wr (F.INST_INFO_GROUPED i) 1).wr (F.INST_INFO_GROUP i) g
  if o.members.isEmpty then
    let (k, s) := s.allocSlot g true
    s.setOwner (4096 + g) { o with members := [i], key := k }
  else s.setOwner (4096 + g) { o with members := o.members ++ [i] }
/-- INSTANCES, in order: each takes the lowest EMPTY slot, and its extents. -/
def State.setInsts (s : State) (l : List ImgInst) : State :=
  l.foldl (fun (s : State) (x : ImgInst) =>
    match mget s.img.templates x.template, s.allocSlot x.inst false with
    | some m, (some k, s) =>
      let s := s.defineWith x.inst x.template m k
      let s := if x.grouped then s.joinGroup x.inst x.group else s
      (x.exts.foldl (fun (s : State) e => s.assignExt x.inst e) s).settleNotes
    | _, _ => s) s
/-- REGIONS: the entries of each instance's record. -/
def State.setImgRegions (s : State) (l : List Region) : State :=
  l.foldl (fun (s : State) (r : Region) => s.setOwner r.inst.val { s.owner r.inst.val with regions := (s.owner r.inst.val).regions ++ [r] }) s
/-- Buffers and spill accounts with the reserves and minimums of the image (Tables 3-13, 4-8); a cell whose stack serves may skim (R95). -/
def State.freshPools (s : State) : State :=
  let s := (List.finRange 128).foldl (fun (s : State) (c : Cell) => s.bufFresh c) s
  (List.range 4).foldl (fun (s : State) k =>
    if s.stackFenced k then s
    else (s.spillers k).foldl (fun (s : State) (c : Cell) => s.wr (F.XBAR_STATUS_WHEY_OK c) 1) (s.showPool k)) s
/-- What the image sets besides FIELDS. -/
def State.applySections (s : State) (x : Image) : State :=
  let s := { s with
    img.templates := x.templates.foldl (fun (m : NMap Tmpl) (t : Nat × Tmpl) => mput m t.1 t.2) [], img.rules := x.rules, img.peers := x.peers }
  (((s.setHomeMap.setCaps x.caps).setInsts x.insts).setImgRegions x.regions).freshPools
/-- The whole image in place, as check 12 judges it. -/
def State.withImage (s : State) (x : Image) : State := ({ s with roles := x.roles }.applyFields x.fields).applySections x

/-! ### Check 12 -/

/-- An envelope entry is in order (R462): each register it covers has exactly that field, of a kind that can be written. -/
def EnvEntry.ok (e : EnvEntry) : Bool :=
  e.lo ≤ e.hi && (List.range e.count).all (fun j => match regAt (e.addr + j * e.stride) with
    | some (r, _) => r.fields.any (fun f => f.lsb == e.lsb && f.width == e.width && f.kind != .static && f.kind != .status)
    | none => false)
/-- The permitted classes of a template (R135). -/
def Tmpl.ok (t : Tmpl) : Bool := [0, 3, 4].contains t.reqTc && [0, 2, 4, 6].contains t.dataTc && t.ctrPerm.toNat < 8
/-- Hosts that rules name for a sharing group's members lie in one domain (R38). PORT 0x7F stands for every HOST port (Table 8-5). -/
def State.groupOk (s : State) (x : Image) (g : Nat) : Bool :=
  let ms := x.insts.filter (fun (i : ImgInst) => i.grouped && i.group == g)
  let ports := (x.rules.filter (fun (r : AbRule) => r.trigger == 1 && ms.any (fun (i : ImgInst) => i.template == r.template))).flatMap
    (fun (r : AbRule) => if r.port == 0x7F then (s.anchorsOf .host).map (·.val) else [r.port])
  ms.length ≥ 2 && ports.all (fun p => (domainDies (s.topo (Cell.of p)) (p / 16)).contains (ports.headD 0 / 16))
/-- SLOT_MIN of the instances that the first HOST_UP rule for a port binds there (Table 8-5). -/
def State.ruleSlotsOk (s : State) (x : Image) (a : Cell) : Bool :=
  match x.rules.find? (fun (r : AbRule) => r.trigger == 1 && (r.port == a.val || r.port == 0x7F)) with
  | some r => r.count * (s.tmplOf r.template).slotMin ≤ s.portSlots a
  | none => true
/-- Device extents of a mirrored CAPACITY entry lie on dies of their own, within an expander's 4,096 (R225), and no other entry names them
(R227, Table 15-4). -/
def capOk (l : List ImgCap) (x : ImgCap) : Bool :=
  let uses (y : ImgCap) (p : Nat) : Bool := (y.port == p || (y.mirrored && y.partner == p)) && overlap y.first y.count x.first x.count
  (!x.mirrored || (x.port / 16 != x.partner / 16 && x.first + x.count ≤ 4096)) && !(l.erase x).any (fun (y : ImgCap) => uses y x.port || (x.mirrored && uses y x.partner))
/-- The conditions of the manual over the state that the image makes. -/
def State.imageHolds (s : State) (x : Image) : Bool :=
  let cells := List.finRange 128
  let d0 (c : Cell) : Cell := Cell.of ((domainDies (s.topo c) (dieOf c)).headD 0 * 16)
  s.rolesOk
    && cells.all (fun (c : Cell) => s.classMapOk c && s.gateOk c true && s.resOk c && s.spillMinOk c && s.reserveOk c
      && s.topo c == s.topo (Cell.of 0) && s.sameSlots c (d0 c))
    && cells.all (fun (c : Cell) => d0 c != c || (s.hostSlotsOk c && s.twinsOk c))
    && s.mirrorsOk x.rules
    && (s.anchorsOf .onora).all (fun (a : Cell) => s.creditsOk a && s.pairOk a)
    && (s.anchorsOf .host).all (fun (a : Cell) => s.ruleSlotsOk x a)
    && x.caps.all (fun (c : ImgCap) => capOk x.caps c)
    && x.templates.all (fun (t : Nat × Tmpl) => t.2.ok)
    && ((x.insts.filter (·.grouped)).map (·.group)).all (fun g => s.groupOk x g)
    && (s.regionFault (x.regions.mapIdx (fun n (r : Region) => (r.inst.val, n, r)))).isNone
    && x.env.entries.length ≤ 4096
    && (!x.paths.testBit 1 || (x.mctpPort < 128 && s.roleOf (Cell.of x.mctpPort) == .host))

/-- Runs checks 1 to 12 (R426). -/
def State.checkImage (s : State) (dev : Nat) (sfdp : Bool) : ImgResult :=
  let y := s.check11 dev sfdp
  let x := y.image
  if y.code ≠ 1 then y
  else match fieldFault x.fields [] with
    | some f => { y with code := 0x0D, fail := some f }
    | none => match x.env.entries.findIdx? (fun (e : EnvEntry) => !e.ok) with
      | some n => { y with code := 0x0D, fail := some (((sectsOf (imgSects (s.norByte dev)) 0x40).map (·.num)).headD 0, n) }
      | none => if (s.withImage x).imageHolds x then y else { y with code := 0x0D }

end Sys2Proof.Machine
end

