-- ==== Sys2Proof/Machine/Boot.lean ====
section
/-! DEFINITION. From DORMANT to SERVICE and back (spec/01 R40 to R44, R503, R504; spec/15 R426 to R433, R440 to R442; spec/14 R412,
R413). -/

namespace Sys2Proof.Machine
open Host (Outcome)

/-! ### IMAGE_LOAD (R426, R440, R442, R503) -/

/-- Life-cycle code changes, with its audit entry of KIND 2 (R447). -/
def State.setLc (s : State) (code source detail tag : Nat) : State := (s.wr F.PKG_LC_CODE code).logAudit 2 source detail 0 tag
/-- A draw of n 64-bit words of a register array. -/
def State.drawWords (s : State) (f : Nat → Fld) (n : Nat) : State :=
  (List.range n).foldl (fun (s : State) i => let (k, s) := s.fresh; s.wr (f i) (Config.freeRandom k)) s
/-- A fresh life-cycle nonce (R426, R438). -/
def State.drawNonce (s : State) : State := s.drawWords F.PKG_LC_NONCE_NONCE 4
/-- PKG_OWNER_FUSE shows the sealed hash (Table 15-21). -/
def State.showOwnerFuse (s : State) : State :=
  (List.range 6).foldl (fun (s : State) n => s.wr (F.PKG_OWNER_FUSE_FUSED_HASH n) (s.img.fuseHash.toNat / 2 ^ (64 * n))) s
/-- What fuses left half done is completed at IMAGE_LOAD: a return whose seed is gone (R442), a seal whose hash is fused (R440). -/
def State.mendFuses (s : State) : State :=
  let lc := s.rd F.PKG_LC_CODE
  if (lc = 0x07 ∨ lc = 0x0F) ∧ s.rdb F.PKG_LC_SEED_GONE then s.setLc 0x1F 4 2 (if lc = 0x0F then tagOf s.img.fuseHash else 0)
  else if lc = 0x07 ∧ s.img.fuseHash ≠ 0 then
    if s.img.fuseGood then (s.showOwnerFuse.wr F.PKG_LC_SEAL 1).setLc 0x0F 4 2 (tagOf s.img.fuseHash) else s.wr F.PKG_LC_SEAL 2
  else s
/-- The life-cycle check passes (R426). -/
def State.lcPasses (s : State) : Bool :=
  let lc := s.rd F.PKG_LC_CODE
  [0x03, 0x07, 0x0F, 0x1F].contains lc && !(lc == 0x0F && !s.img.fuseGood)
/-- SEALED_HALT: the lease is lost (R460). -/
def State.halt (s : State) (cause : Nat) : State := (s.goMode .sealedHalt cause).loseLease
/-- The module leaves DORMANT: package time starts again, registers that are not kept are at their Reset column (R18), the fuses are
checked, and the nonces drawn. -/
def State.leaveDormant (s : State) : State :=
  let min := s.rd F.PKG_IMAGE_MIN_SVN
  let s := { s with cyc := 0, regs := s.regs.filter (fun (e : Nat × Word) => keptReg e.1), mode := .imageLoad }
  let s := ((s.wr F.PKG_IMAGE_MIN_SVN min).modeDomains .dormant).mendFuses
  if s.lcPasses then
    let (n, s) := s.drawNonce.fresh
    let (k, s) := s.fresh
    { s with
      onl.boot := Config.freeRandom n
      sec.transport := some k
      sec.blobKey := s.img.seed.map (fun x => (x, Config.freeRandom n)) }
  else s.halt 0x05
/-- ENABLE_N_LOW_START. -/
def execEnableNLowStart (s : State) : Outcome State Fault Refusal :=
  .next (s.onRind fun s =>
    let s := s.wr F.RIND_PWR_STATUS_ENABLE 1
    if s.mode = .dormant ∧ s.rdb F.RIND_PWR_STATUS_PWRGD then s.leaveDormant else s)

/-! ### The image checks (R426 to R429) -/

/-- A 384-bit value over six registers. -/
def State.wr384 (s : State) (f : Nat → Fld) (h : BitVec 384) : State :=
  (List.range 6).foldl (fun (s : State) n => s.wr (f n) (h.toNat / 2 ^ (64 * n))) s
/-- The outcome of one device's checks: its code, the audit entry, FAIL_SECT and FAIL_REC, and the key of check 8. -/
def State.triedImage (s : State) (dev : Nat) (y : ImgResult) : State :=
  let s := s.wr (if dev = 0 then F.PKG_IMAGE_A_RESULT else F.PKG_IMAGE_B_RESULT) y.code
  let s := if y.keyOk && y.image.kind == 1 then { s with img.lastKey := some y.image.keyHash } else s
  let s := if y.code = 0x0C ∨ y.code = 0x0D then
      match y.fail with
      | some (a, b) => (s.wr F.PKG_IMAGE_FAIL_SECT a).wr F.PKG_IMAGE_FAIL_REC b
      | none =>
        let (n, s) := s.fresh
        let (m, s) := s.fresh
        (s.wr F.PKG_IMAGE_FAIL_SECT (Config.freeRandom n)).wr F.PKG_IMAGE_FAIL_REC (Config.freeRandom m)
    else s
  s.logAudit 4 4 y.code dev (tagOf y.image.digest)
/-- The envelope of an image is in force (R461). -/
def State.setEnvelope (s : State) (x : Image) : State :=
  let s := { s with mgr.env := some x.env }
  let s := ((s.wr F.MGR_LEASE_CFG_LEASE_MS x.leaseMs).wr F.MGR_LEASE_CFG_PATHS x.paths).wr F.MGR_LEASE_CFG_MCTP_PORT x.mctpPort
  (s.wrb F.MGR_LEASE_CFG_REQUIRE_SESSION x.session).wrb F.MGR_LEASE_CFG_MAINT_ALLOWED x.maint
/-- A verified image is the running one (Tables 15-18, 15-21). -/
def State.takeImage (s : State) (x : Image) (cause : Nat) : State :=
  let s := ((s.wr F.PKG_IMAGE_SLOT (x.dev + 1)).wr F.PKG_IMAGE_KIND x.kind).wr F.PKG_IMAGE_FW_SVN x.svn
  let s := (s.wr384 F.PKG_IMAGE_DIGEST_DIGEST x.digest).wr384 F.PKG_OWNER_KEY_KEY_HASH x.keyHash
  let s := { s with img.image := some x }
  if x.kind = 2 then (s.setEnvelope x).goMode .returnTest 0x15 else s.goMode .selfTest cause
/-- IMAGE_LOAD_COMPLETE (R428). -/
def execImageLoadComplete (sfdpA sfdpB : Bool) (s : State) : Outcome State Fault Refusal :=
  .next <|
    if s.mode ≠ .imageLoad then s
    else
      let s := { s with img.norDead := (if sfdpA then [] else [0]) ++ (if sfdpB then [] else [1]) }.wr F.SEC_STATUS_READY 1
      let a := s.checkImage 0 sfdpA
      let s := s.triedImage 0 a
      if a.code = 1 then s.takeImage a.image 0x02
      else
        let b := s.checkImage 1 sfdpB
        let s := s.triedImage 1 b
        if b.code = 1 then s.takeImage b.image 0x03 else s.halt 0x04

/-! ### SELF_TEST (R431, R504) -/

/-- IMAGE_STAGING: the image is in metadata; a digest that does not match is a failure beyond tolerance. -/
def execImageStaging (clean : Bool) (s : State) : Outcome State Fault Refusal :=
  .next <|
    match s.img.image with
    | none => s
    | some x =>
      if s.mode ≠ .selfTest then s
      else
        let r := s.norByte x.dev
        if clean && (digestFault r (imgSects r)).isNone then { s with img.staged := true } else s.goMode .safeStop 0x08
/-- Cause code and detail of an element that fails its test (Table 12-8). -/
def failCause : Elem → Nat × Nat
  | .link n => (if seamLink n.val then 0x0003 else 0x0001, n.val)
  | .cell _ => (0x0002, 0xFFFF)
  | .die d => (0x0004, d.val)
  | .stack k => (0x0005, k.val)
/-- Failed elements join the fence map before any traffic runs. -/
def State.fenceAtTest (s : State) (fails : List Elem) : State :=
  if fails = [] then s
  else
    let all := fails ++ s.wholeDies fails
    let s := { s with scrim.oldFence := s.scrim.fence, scrim.fence := all.foldl FenceMap.add s.scrim.fence, img.fencedUp := true }
    let s := all.foldl (fun (s : State) e =>
      s.logFault (elemClass e) none 0xFFFF (failCause e).1 (failCause e).2 (elemNum e) false) s
    let s := (List.finRange 128).foldl (fun (s : State) (c : Cell) => s.setLocal c) s
    ((s.takeOut.rescale.fencedNow all).showLeader).setDomains
/-- Records of registers outside the cells' and routers' own blocks take effect as BRING_UP begins. -/
def cellReg (a : Nat) : Bool := (cellOfAddr a).isSome || (0x1000000 ≤ a && a < 0x10000000 && a % 0x100000 / 0x10000 == 1)
/-- BRING_UP begins: roles, and Rennet's writes outside the cells. -/
def State.beginBringUp (s : State) (x : Image) (cause : Nat) : State :=
  let s := { s with roles := x.roles, img.bringAt := s.cyc }
  let s := x.fields.foldl (fun (s : State) (f : ImgField) =>
    (f.addrs.filter (fun a => !cellReg a)).foldl (fun (s : State) a => s.putMasked a f.mask f.value) s) s
  s.goMode .bringUp cause
/-- SELF_TEST_COMPLETE: within the image's tolerance the failed elements are fenced and BRING_UP begins; beyond it the module stops. -/
def execSelfTestComplete (fails : List Elem) (sp0 sp7 : Bool) (s : State) : Outcome State Fault Refusal :=
  .next <|
    match s.img.image with
    | none => s
    | some x =>
      if s.mode ≠ .selfTest ∨ !s.img.staged then s
      else
        let s := { s with
          spGone := (if sp0 then [] else [0]) ++ (if sp7 then [] else [7])
          activeSp := if sp0 then some 0 else if sp7 then some 7 else none }
        let s := s.fenceAtTest fails
        if (s.applyFields x.fields).beyond then s.goMode .safeStop 0x08
        else s.beginBringUp x (if s.scrim.fence = ({} : FenceMap) then 0x06 else 0x07)

/-! ### BRING_UP: Rennet (R432) -/

/-- CRC-32 of polynomial 0x1EDC6F41 over a byte, most significant bit first (DESIGN CHOICE: the spec gives no bit order). -/
def crc32Byte (crc : Nat) (b : Byte) : Nat :=
  (List.range 8).foldl (fun crc i =>
    let top := crc.testBit 31 != b.getLsbD (7 - i)
    (crc * 2 % 2 ^ 32) ^^^ (if top then 0x1EDC6F41 else 0)) crc
/-- The CRC of a write: its address, then its value. -/
def crcWrite (crc : Nat) (a : Nat) (v : Word) : Nat := (leBytes 4 a ++ leBytes 8 v.toNat).foldl crc32Byte crc
/-- A register of a cell's own block or of its router's. -/
def ownReg (c : Cell) (a : Nat) : Bool := cellOfAddr a == some c || (F.SCRIM_RTR_STATUS_at c / 0x1000 == a / 0x1000)
/-- Writes of FIELDS that a cell receives, in order. -/
def Image.writesOf (x : Image) (c : Cell) : List (Nat × Word × Word) :=
  x.fields.flatMap (fun (f : ImgField) => (f.addrs.filter (ownReg c)).map (fun a => (a, f.mask, f.value)))
/-- A cell's CRC and number of writes so far. -/
def State.rennetOf (s : State) (c : Cell) : Nat × Nat := mgetD (0xFFFFFFFF, 0) s.img.rennet c.val
/-- RENNET_WRITE: the cell folds it into its CRC and applies it to its registers. Only bits of image fields take a value (R18, R425). -/
def execRennetWrite (c : Cell) (addr : BitVec 32) (mask value : Word) (s : State) : Outcome State Fault Refusal :=
  .next <|
    if s.mode ≠ .bringUp ∨ s.img.distributed ∨ s.cellFenced c ∨ s.img.matched.contains c.val then s
    else
      let a := addr.toNat
      let (crc, n) := s.rennetOf c
      let s := { s with img.rennet := mset (0xFFFFFFFF, 0) s.img.rennet c.val (crcWrite crc a value, n + 1) }
      if ownReg c a then s.putMasked a (mask &&& BitVec.ofNat 64 (imageBits a)) value else s
/-- RENNET_CRC_REPORT. -/
def execRennetCrcReport (c : Cell) (s : State) : Outcome State Fault Refusal :=
  .next <|
    match s.img.image with
    | none => s
    | some x =>
      if s.mode ≠ .bringUp ∨ s.img.distributed ∨ s.cellFenced c ∨ s.img.matched.contains c.val then s
      else
        let ws := x.writesOf c
        let own := ws.foldl (fun crc (w : Nat × Word × Word) => crcWrite crc w.1 w.2.2) 0xFFFFFFFF
        if s.rennetOf c = (own, ws.length) then
          let s := { s with img.matched := c.val :: s.img.matched }
          let a := s.anchorOf c
          if (s.portMembers a).all (fun (m : Cell) => s.img.matched.contains m.val) then s.portTrain a else s
        else if s.img.rewritten.contains c.val then
          (s.sat F.PKG_RENNET_FENCED).failElem (.cell c) (some c) 0x0002 0xFFFF
        else
          { s with img.rewritten := c.val :: s.img.rewritten, img.rennet := mdel s.img.rennet c.val }.sat F.PKG_RENNET_REWRITES
/-- Indices of home cells that are fenced pass to successors before any line is cached (R206). -/
def State.homesAround (s : State) : State :=
  let s := (List.finRange 128).foldl (fun (s : State) (c : Cell) =>
    (List.range (domainCells (s.topo c))).foldl (fun (s : State) i =>
      let cur := s.rd (mapFld c i)
      s.wr (mapFld c i) (s.nextHome c i cur)) s) s
  let s := s.takeover.1
  (List.finRange 128).foldl (fun (s : State) (c : Cell) => s.wr (F.HOME_TAKE_STATE c) 0) { s with home.held := [] }
/-- RENNET_DISTRIBUTION_COMPLETE: maps, capacity, instances, regions and keys stand, the envelope is in force, and the module runs. It
waits for no fence (R41): an epoch that is still open closes in DEGRADED. -/
def execRennetDistributionComplete (s : State) : Outcome State Fault Refusal :=
  .next <|
    match s.img.image with
    | none => s
    | some x =>
      if s.mode ≠ .bringUp ∨ s.img.distributed
          ∨ !(List.finRange 128).all (fun (c : Cell) => s.cellFenced c || s.img.matched.contains c.val) then s
      else if { s with scrim.fence := s.scrim.notes.foldl FenceMap.add s.scrim.fence }.beyond then s.goMode .safeStop 0x08
      else
        let s := ((s.applySections x).homesAround.setEnvelope x)
        let s := { s with img.distributed := true }.wr F.PKG_RENNET_DURATION_US ((s.cyc - s.img.bringAt) / 3000)
        s.goMode (if s.img.fencedUp || s.scrim.fence != ({} : FenceMap) || s.scrim.epochOpen || !s.scrim.notes.isEmpty then .degraded else .service) 0x09

/-! ### Stopping (R44, R379, R420, R441) -/

/-- Steps 2 to 5 of an accepted return: every key is gone, the seed is destroyed, the bit burns, and the audit entry is written. -/
def State.returnSteps (s : State) (b : Burn) : State :=
  let s := { s with
    sec.slots := [], sec.keyRam := [], sec.loads := [], sec.rots := [], sec.rotQueue := [], sec.walk := [], sec.transport := none
    sec.blobKey := none, sec.ide := [], onl.csk := [] }
  -- the DRBG is reseeded
  let s := s.fresh.2
  let s := (List.finRange 128).foldl (fun (s : State) (a : Cell) => s.ideOff a 0) s
  let s := { s with img.seed := none }.wr F.PKG_LC_SEED_GONE 1
  let s := if b = .retried then s.logAudit 6 4 0 0 0 else s
  if b = .failed then s else s.setLc 0x1F 4 0x1F s.img.retKey
/-- ENABLE_N_HIGH. -/
def execEnableNHigh (s : State) : Outcome State Fault Refusal :=
  .next (s.onRind fun s =>
    let s := s.wr F.RIND_PWR_STATUS_ENABLE 0
    match s.mode with
    | .sealedHalt => (s.goMode .dormant 0x12).powerOff
    | _ => s.goMode .safeStop 0x12)
/-- The logs that NOR has not yet are written within the budget: 40 entries for each device, audit entries first (R420). -/
def State.saveLogs (s : State) : State :=
  let s := [0, 1].foldl (fun (s : State) dev =>
    if !s.norPresent dev then s
    else
      let a := (s.norPending dev 0).length
      ((s.norFlush dev 0 40).1.norFlush dev 1 (40 - min 40 a)).1) s
  -- what neither device took
  let lost (area : Nat) : Nat := min (s.norPending 0 area).length (s.norPending 1 area).length
  (s.sat (F.PKG_LOG_DROP_DROPPED 4) (lost 0)).sat (F.PKG_LOG_DROP_DROPPED 0) (lost 1)
/-- At the end of the drain a cell abandons what it is still injecting or has not consumed (R44). -/
def State.abandonWork (s : State) (c : Cell) : State :=
  { s with
    xbar.voq := mkeep (fun k _ => k / 800 != c.val) s.xbar.voq, xbar.waiting := mkeep (fun k _ => k / 10 != c.val) s.xbar.waiting
    xbar.outBusy := mkeep (fun k _ => k / 10 != c.val) s.xbar.outBusy
    scrim.flight := s.scrim.flight.filter (fun (f : Flying) => !(f.p.src == c && f.inj == 1))
    scrim.rx := mkeep (fun k _ => k / 8 != c.val * 5 + 4) s.scrim.rx, scrim.eject := mkeep (fun k _ => k / 8 != c.val) s.scrim.eject }
/-- The handshake of R70 before the cells go off: drain is asserted to each cell that is on, its local output is held, and once injection has
stopped and its ejection buffer is empty it reports DRAINED and loses its domains. -/
def State.cellsOff (s : State) : State :=
  (List.finRange 128).foldl (fun (s : State) (c : Cell) =>
    if s.domain (3 * c.val) = 0 ∨ s.cellFenced c then s
    else
      let s := ((s.wr (F.SCRIM_RTR_STATUS_DRAIN_STATE c) 1).wr (F.SCRIM_RTR_STATUS_LOCAL_MODE c) 1).abandonWork c
      if s.injecting c || !s.ejected c then s
      else ((s.wr (F.SCRIM_RTR_STATUS_DRAIN_STATE c) 2).setDomain (3 * c.val) 0).setDomain (3 * c.val + 1) 0) s
/-- The power entry after a stop: with no feed VALID its controller goes to OFF (Table 13-2). -/
def State.stopGates (s : State) : State := if s.ctrl = 3 ∧ !s.anyFeed then s.gatesOff 0 else s
/-- SAFE_STOP_COMPLETE. -/
def execSafeStopComplete (s : State) : Outcome State Fault Refusal :=
  .next <|
    if s.mode ≠ .safeStop then s
    else
      let s := match s.img.returning with
        | some b => s.returnSteps b
        | none => s
      let s := { s.saveLogs with drained := true }
      let s := if s.rdb F.RIND_PWR_STATUS_BOTH_LOST then s.wr F.RIND_PWR_BUS_LAST_STOP_US (min 0xFFFF ((s.wall - s.pwr.lostAt) / 3000)) else s
      (s.cellsOff.goMode .dormant 0x14).powerOff.stopGates

/-! ### DROWSE (R412, R413) -/

/-- IDLE_POLICY_DROWSE. -/
def execIdlePolicyDrowse (s : State) : Outcome State Fault Refusal :=
  .next <|
    let n := ((List.finRange 128).filter (fun (c : Cell) => s.quiet c)).length
    let need := min 128 (max 1 (s.rd F.RIND_SLEEP_CFG_ENTER_QUIET))
    if s.mode = .service ∧ s.rd F.RIND_SLEEP_CFG_ENTER_MS ≠ 0 ∧ need ≤ n then s.goMode .drowse 0x10 else s
/-- DROWSE_WAKE_LIMIT. -/
def execDrowseWakeLimit (s : State) : Outcome State Fault Refusal :=
  .next <|
    let n := ((List.range 128).filter (fun c => s.domain (3 * c) == 1)).length
    if s.mode = .drowse ∧ max 1 (s.rd F.RIND_SLEEP_CFG_AWAKE_LIMIT) < n then s.goMode .service 0x11 else s

end Sys2Proof.Machine
end

