-- ==== Sys2Proof/Machine/Life.lean ====
section
/-! DEFINITION. The NOR window and the logs in NOR (spec/15 R420, R434), verification of a slot (R435), and the life cycle (R436 to
R442). -/

namespace Sys2Proof.Machine
open Host (Outcome)

/-! ### The NOR window (R434) -/

/-- n bytes that the spec leaves open. -/
def State.freeBytes (s : State) (n : Nat) : List Byte × State :=
  ((List.range n).map (fun i => BitVec.ofNat 8 (Config.freeRandom (s.freeCtr + i))), { s with freeCtr := s.freeCtr + n })
/-- Modes in which the window works. -/
def norMode : Mode → Bool
  | .service | .drowse | .degraded | .rebuild | .maintenance | .sealedHalt => true
  | _ => false
/-- An operation lies where it may: reads anywhere in the device, programs and erases in the image slot, aligned. -/
def norWhere (op off : Nat) : Bool :=
  match op with
  | 1 => off + 256 ≤ 2 ^ 26
  | 2 => off % 256 == 0 && off + 256 ≤ 0x3000000
  | _ => off % 65536 == 0 && off + 65536 ≤ 0x3000000
/-- GO of PKG_NOR_CTRL. -/
def State.norGo (s : State) : State :=
  let op := s.rd F.PKG_NOR_CTRL_OP
  let off := s.rd F.PKG_NOR_CTRL_OFFSET
  let dev := s.rd F.PKG_NOR_CTRL_DEV
  if s.rdb F.PKG_NOR_CTRL_BUSY ∨ op = 0 then s
  else if !norMode s.mode || !norWhere op off then s.wr F.PKG_NOR_CTRL_RESULT 2
  else if !s.norPresent dev then s.wr F.PKG_NOR_CTRL_RESULT 3
  else ({ s with img.norOp := some ⟨dev, op, off⟩ }.wr F.PKG_NOR_CTRL_BUSY 1).wr F.PKG_NOR_CTRL_RESULT 0
/-- The service processor writes entries to NOR in this mode (R420). -/
def norLogs : Mode → Bool
  | .dormant | .imageLoad | .sealedHalt | .safeStop => false
  | _ => true
/-- Every pending entry of a device that answers and is not held. -/
def State.catchUp (s : State) (dev : Nat) : State :=
  if !norLogs s.mode || !s.norPresent dev || s.norHeld dev then s
  else
    let s := (s.norFlush dev 0 (s.norPending dev 0).length).1
    (s.norFlush dev 1 (s.norPending dev 1).length).1
/-- The effect of an operation on its device. After a device error the bytes concerned are open. -/
def State.norEffect (s : State) (o : NorOp) (ok : Bool) : State :=
  match o.op, ok with
  | 1, true => (List.range 32).foldl (fun (s : State) n =>
      s.wr (F.PKG_NOR_DATA_DATA n) (ofLe ((List.range 8).map (fun i => s.norByte o.dev (o.off + 8 * n + i))))) s
  | 1, false => s
  | 2, true => s.norPut o.dev o.off ((List.range 32).flatMap (fun n => leBytes 8 (s.rd (F.PKG_NOR_DATA_DATA n))))
  | 2, false => let (l, s) := s.freeBytes 256; s.norPut o.dev o.off l
  | _, true => s.norErase o.dev o.off
  | _, false => let (l, s) := s.freeBytes 65536; (s.norErase o.dev o.off).norPut o.dev o.off l
/-- NOR_OP_COMPLETE. -/
def execNorOpComplete (ok : Bool) (s : State) : Outcome State Fault Refusal :=
  .next <|
    match s.img.norOp with
    | none => s
    | some o =>
      let s := s.norEffect o ok
      let s := ({ s with img.norOp := none }.wr F.PKG_NOR_CTRL_BUSY 0).wr F.PKG_NOR_CTRL_RESULT (if ok then 1 else 3)
      s.catchUp o.dev
/-- NOR_LOG_WRITE (R420). -/
def execNorLogWrite (dev : Fin 2) (s : State) : Outcome State Fault Refusal := .next (s.catchUp dev.val)

/-! ### Verification of a slot (R435) -/

/-- GO of PKG_IMAGE_VERIFY. -/
def State.verifyGo (s : State) : State :=
  if s.rdb F.PKG_IMAGE_VERIFY_BUSY then s
  else ({ s with img.verifying := some (s.rd F.PKG_IMAGE_VERIFY_SLOT) }.wr F.PKG_IMAGE_VERIFY_BUSY 1).wr F.PKG_IMAGE_VERIFY_VERIFY_RESULT 0
/-- IMAGE_VERIFY_COMPLETE: the code, and the raise of R430 where the other slot verifies. -/
def execImageVerifyComplete (sfdp : Bool) (s : State) : Outcome State Fault Refusal :=
  .next <|
    match s.img.verifying with
    | none => s
    | some n =>
      let y := s.check11 n sfdp
      let s := ({ s with img.verifying := none }.wr F.PKG_IMAGE_VERIFY_BUSY 0).wr F.PKG_IMAGE_VERIFY_VERIFY_RESULT y.code
      let s := if y.keyOk && y.image.kind == 1 then { s with img.lastKey := some y.image.keyHash } else s
      let s := match y.fail with
        | some (a, b) => (s.wr F.PKG_IMAGE_FAIL_SECT a).wr F.PKG_IMAGE_FAIL_REC b
        | none => s
      if y.code == 1 && s.img.image.any (fun (x : Image) => x.dev != n) then s.svnJudge else s

/-! ### The life cycle (R436 to R441) -/

/-- Bytes of token t. -/
def State.tokenLe (s : State) (t off n : Nat) : Nat :=
  ofLe ((List.range n).map (fun i => BitVec.ofNat 8 (s.rd (F.PKG_LC_TOKEN_DATA t ((off + i) / 8)) / 256 ^ ((off + i) % 8))))
def State.tokenBytes (s : State) (t off n : Nat) : List Byte :=
  (List.range n).map (fun i => BitVec.ofNat 8 (s.rd (F.PKG_LC_TOKEN_DATA t ((off + i) / 8)) / 256 ^ ((off + i) % 8)))
/-- The module's serial number. -/
def State.serial (s : State) : Nat := s.rd (F.PKG_SERIAL_SERIAL 0) + s.rd (F.PKG_SERIAL_SERIAL 1) * 2 ^ 64
/-- The life-cycle nonce. -/
def State.nonce (s : State) : Nat := (List.range 4).foldl (fun n i => n + s.rd (F.PKG_LC_NONCE_NONCE i) * 2 ^ (64 * i)) 0
/-- Hash of the owner key of a token. -/
def State.tokenKey (s : State) (t : Nat) : BitVec 384 := hashLe (s.tokenBytes t 59 97)
/-- The checks of R438 on token t, of a type, for a target (none: any key index, for REVOKE): the RESULT of the first that fails. -/
def State.tokenFault (s : State) (t typ : Nat) (target : Option Nat) (owner : Bool) : Option Nat :=
  let refused := t + 2
  let key := s.tokenLe t 57 1
  let k : Sum Nat (List Byte) := if owner then .inr (s.tokenBytes t 59 97) else .inl key
  if s.tokenLe t 0 4 ≠ 0x4B54464A ∨ s.tokenLe t 56 1 ≠ (if owner then 1 else 2) ∨ (!owner ∧ !s.keyGood key)
      ∨ !Config.ecdsaOk k (hashLe (s.tokenBytes t 0 160)) (s.tokenBytes t 160 96) then some refused
  else if s.tokenLe t 8 16 ≠ s.serial then some refused
  else if s.tokenLe t 24 32 ≠ s.nonce then some 4
  else if s.tokenLe t 4 1 ≠ typ then some refused
  else match target with
    | some g => if s.tokenLe t 5 1 ≠ g then some refused else none
    | none => if s.tokenLe t 5 1 ≥ 4 ∨ s.tokenLe t 5 1 = key then some refused else none
/-- The owner's key is the one that counts (R438). -/
def State.ownerKeyOk (s : State) : Bool :=
  if s.rd F.PKG_LC_CODE = 0x0F then s.tokenKey 0 == s.img.fuseHash
  else match s.img.lastKey with
    | some h => s.tokenKey 0 == h
    | none => true
/-- A transition from the current state in the current mode (Table 15-13). -/
def State.lcAllowed (s : State) (op : Nat) : Bool :=
  let lc := s.rd F.PKG_LC_CODE
  let maker := s.mode == .sealedHalt || s.mode == .returnTest
  match op with
  | 1 => lc == 0x03 && maker
  | 2 => lc == 0x07 && s.rd F.PKG_LC_SEAL != 2 && (s.mode == .service || s.mode == .degraded || s.mode == .maintenance)
  | 3 => (lc == 0x07 || lc == 0x0F) && norMode s.mode
  | 5 => lc == 0x1F && maker
  | 6 => [0x03, 0x07, 0x0F, 0x1F].contains lc && s.mode != .dormant && s.mode != .safeStop
  | _ => false
/-- The RESULT that refuses a request, if one does. -/
def State.lcFault (s : State) (op : Nat) : Option Nat :=
  if !s.lcAllowed op then some 5
  else match op with
    | 1 => s.tokenFault 0 1 (some 0x07) false
    | 2 => (s.tokenFault 0 2 (some 0x0F) true).orElse (fun _ => if s.ownerKeyOk then none else some 7)
    | 3 => ((s.tokenFault 0 3 (some 0x1F) true).orElse (fun _ => if s.ownerKeyOk then none else some 7)).orElse
        (fun _ => s.tokenFault 1 4 (some 0x1F) false)
    | 5 => s.tokenFault 0 5 (some 0x3F) false
    | _ => s.tokenFault 0 6 none false
/-- A burn leaves its audit entry where it was retried (R447). -/
def State.burned (s : State) (src : Nat) (b : Burn) : State := if b = .retried then s.logAudit 6 src 0 0 0 else s
/-- The end of a request: RESULT, REFUSED, the audit entry of a refusal, and a new nonce (R438, R439). -/
def State.lcEnd (s : State) (src result tag : Nat) : State :=
  let s := s.wr F.PKG_LC_REQ_RESULT result
  let s := if result ≥ 2 then (s.flag F.PKG_LC_REQ_REFUSED).logAudit 3 src result 0 tag else s
  s.drawNonce
/-- GO of PKG_LC_REQ. `hash`: the burn of the owner hash; `b`: of the state bit, or of the revoke fuse. -/
def State.lcGo (s : State) (src : Nat) (hash b : Burn) : State :=
  let op := s.rd F.PKG_LC_REQ_OP
  let owner := if op = 2 ∨ op = 3 then tagOf (s.tokenKey 0) else 0
  if s.rdb F.PKG_LC_REQ_BUSY then s
  else match s.lcFault op with
    | some r => s.lcEnd src r owner
    | none => match op with
      | 1 =>
        let s := s.burned src b
        let (n, s) := s.fresh
        if b = .failed then s.lcEnd src 6 0
        else (({ s with img.seed := some n }.wr F.PKG_LC_SEED_GONE 0).setLc 0x07 src 0x07 0).lcEnd src 1 0
      | 2 =>
        let s := ({ s with img.fuseHash := s.tokenKey 0, img.fuseGood := hash != Burn.failed }.burned src hash)
        if hash = .failed then s.lcEnd src 6 owner
        else
          let s := s.burned src b
          if b = .failed then s.lcEnd src 6 owner
          else ((s.showOwnerFuse.wr F.PKG_LC_SEAL 1).setLc 0x0F src 0x0F owner).lcEnd src 1 owner
      | 3 =>
        let s := { s with img.retKey := owner }
        if s.mode = .sealedHalt then
          let s := s.returnSteps b
          s.lcEnd src (if b = .failed then 6 else 1) owner
        else
          ({ s with img.returning := some b }.wr F.PKG_LC_REQ_BUSY 1).drawNonce.goMode .safeStop 0x0E
      | 5 =>
        let s := s.burned src b
        if b = .failed then s.lcEnd src 6 0 else (s.setLc 0x3F src 0x3F 0).lcEnd src 1 0
      | _ =>
        let s := s.burned src b
        if b = .failed then s.lcEnd src 6 0 else (s.wrBit F.PKG_LC_REVOKED (s.tokenLe 0 5 1) true).lcEnd src 1 0

end Sys2Proof.Machine
end

