-- ==== Sys2Proof/Machine/Xbar.lean ====
section
/-! DEFINITION. The commands of the switch core (spec/03), the spill queues and crossings (spec/04), and the gates, shapers
and observation (spec/05). The departure of a host response stands with the host ports, and
the commands that can absorb a frame stand with the re-issues. -/

namespace Sys2Proof.Machine

open Host (Outcome)

/-- SAMPLE_COUNTER_EXPIRY (R106, R108): at zero, the next frame of the output is sampled, and the counter reloads. -/
def execSampleCounterExpiry (c : Cell) (o : Fin 10) (s : State) : Outcome State Fault Refusal :=
  .next <|
    let k := c.val * 10 + o.val
    if !(s.rdb (F.XBAR_SAMP_CTRL_EN c) && (s.rd (F.XBAR_SAMP_CTRL_OUT_EN c)).testBit o.val) || mgetD 0 s.xbar.sampCnt k != 0 then s
    else
      let s := if s.xbar.sampDue.contains k then s else { s with xbar.sampDue := s.xbar.sampDue ++ [k] }
      s.reloadSample c o

/-- XBAR_CLR_HWM (Table 3-10). -/
def execXbarClrHwm (c : Cell) (s : State) : Outcome State Fault Refusal :=
  .next (s.wr (F.XBAR_TRACK_HWM c) (s.rd (F.XBAR_TRACK_IN_USE c)))

/-- SKIM_YIELD_WINDOW_END (Table 12-8): the cell sends the record of its 1 ms window, if it holds one. -/
def execSkimYieldWindowEnd (c : Cell) (s : State) : Outcome State Fault Refusal :=
  .next <|
    match mget s.xbar.skimWin c.val with
    | some (vic, n) =>
      { s with xbar.skimWin := mdel s.xbar.skimWin c.val }.logYield 5 6 (some c) 0xFFFF 0x010E (vic + 256 * n)
    | none => s

/-- LENGTH_SLOT_ACK (R124): the oldest frame of the context that is not committed is, once its length slot is written, and its granules are
freed, headroom first (R95); an empty head register takes word 0 of the oldest committed frame (R126). -/
def execLengthSlotAck (c : Cell) (n : Fin 64) (s : State) : Outcome State Fault Refusal :=
  .next <|
    match s.sctx c n with
    | none => s
    | some x =>
      match x.frames.find? (fun w => !w.acked) with
      | none => s
      | some w =>
        if !s.slotWritten c x w then s
        else
        let d := stackDie x.stack
        -- the words of the frame and its length slot
        let s := s.xingPass (F.SPILL_XING_HBM_at d 0) (w.f.p.len.val + 2)
        let fs := x.frames.map (fun v => if v.fseq = w.fseq then { v with acked := true } else v)
        let s := (s.setSctx c n { x with frames := fs }).readHead c n
        (s.freeGran c x.out x.tc w.charge true).admitWaiting c

/-- The chunks that a frame touches. -/
def SpillCtx.touched (x : SpillCtx) (w : WFrame) : List Nat :=
  (x.chunks.dropWhile (· != w.chunk)).takeWhile (· != w.endChunk) ++ [w.endChunk]
/-- One VC5 read for each chunk that a frame touches (R126). -/
def State.readPkts (s : State) (c : Cell) (n : Nat) (x : SpillCtx) (w : WFrame) : State :=
  s.sendAll ((x.touched w).map (fun ch =>
    readPkt c n x ch 0))
/-- SPILL_FETCH (R97, R125, R126; what the check of the head register found comes with the return, log 135): only a committed frame, only when the buffer segment, with the returned frames that wait to join it,
holds at most one. -/
def execSpillFetch (c : Cell) (n : Fin 64) (s : State) : Outcome State Fault Refusal :=
  .next <|
    match s.sctx c n with
    | none => s
    | some x =>
      match x.committed with
      | [] => s
      | w :: _ =>
        let held := (s.voqAt c x.inp x.out x.tc).length
          + ((mgetD [] s.xbar.waiting (c.val * 10 + x.inp)).filter (fun f => f.1 == x.out && f.2.p.tc.val == x.tc && f.2.whey)).length
        if x.headReg && !x.fetch && held ≤ 1 then
          let s := s.xingPass (F.SPILL_XING_HBM_at (stackDie x.stack) 0) (x.touched w).length
          ((s.setSctx c n { x with fetch := true }).inc (F.SPILL_STATUS_FETCH_OUT c)).readPkts c n x w
        else s

/-- HBM_WATCHDOG_EXPIRY (R119, R363): the stack is a class 0x05 fault and is fenced. -/
def execHbmWatchdogExpiry (k : Stack) (s : State) : Outcome State Fault Refusal :=
  .next (s.failElem (.stack k) none 0x0005 k.val)

/-- SPILL_CTX_VIEW0_READ: VIEW0 to VIEW2 of the context that CTX selects, from one core cycle (Table 4-7). -/
def State.captureSpillViews (s : State) (c : Cell) : State :=
  let n := s.rd (F.SPILL_CTX_SEL_CTX c)
  match s.sctx c n with
  | none => ((s.setReg (F.SPILL_CTX_VIEW0_at c) 0).setReg (F.SPILL_CTX_VIEW1_at c) 0).setReg (F.SPILL_CTX_VIEW2_at c) 0
  | some x =>
    let s := s.setReg (F.SPILL_CTX_VIEW0_at c) 0
    let s := s.wr (F.SPILL_CTX_VIEW0_ACTIVE c) 1
    let s := s.wr (F.SPILL_CTX_VIEW0_IN c) x.inp
    let s := s.wr (F.SPILL_CTX_VIEW0_OUT c) x.out
    let s := s.wr (F.SPILL_CTX_VIEW0_TC c) x.tc
    let s := s.wr (F.SPILL_CTX_VIEW0_FSEQ_WR c) x.fseqWr
    let s := s.wr (F.SPILL_CTX_VIEW0_FSEQ_RD c) x.fseqRd
    let s := s.wr (F.SPILL_CTX_VIEW1_STACK c) x.stack
    let s := s.wr (F.SPILL_CTX_VIEW1_HEAD_CHUNK c) x.headChunk
    let s := s.wr (F.SPILL_CTX_VIEW1_HEAD_WORD c) x.headWord
    let s := s.wr (F.SPILL_CTX_VIEW1_TAIL_CHUNK c) x.tailChunk
    let s := s.wr (F.SPILL_CTX_VIEW1_TAIL_WORD c) x.tailWord
    let s := s.wr (F.SPILL_CTX_VIEW1_HEAD_REG c) x.headReg.toNat
    let s := s.wr (F.SPILL_CTX_VIEW1_FETCH_OUT c) x.fetch.toNat
    let s := s.wr (F.SPILL_CTX_VIEW2_FRAMES c) (min 0xFFFFFF (x.committed.length - x.fetch.toNat))
    s.wr (F.SPILL_CTX_VIEW2_CHUNKS c) x.chunks.length

def execSpillCtxView0Read (c : Cell) (s : State) : Outcome State Fault Refusal := .next (s.captureSpillViews c)

/-- SPILL_XING_CLR_HWM (Table 4-13): HWM takes WR_VIEW; an edge that faces the boundary ignores it. -/
def execSpillXingClrHwm (x : Xing) (s : State) : Outcome State Fault Refusal :=
  .next <|
    let a := xingAddr x
    match regAt a with
    | none => s
    | some _ => if (match x with | .lath d e _ => !(edgePresent d.val).testBit e.val | _ => false) then s else s.wr (xingHwm a) (getBits (s.xingWord a 0) 16 16)

/-- GATE_BOUNDARY (R137): GATE_STATUS takes the entry and the open gates of package time. -/
def execGateBoundary (c : Cell) (s : State) : Outcome State Fault Refusal :=
  .next <|
    let s := s.wr (F.GATE_STATUS_OPEN c) (s.gatesOpen c)
    let s := s.wr (F.GATE_STATUS_ENTRY c) (if s.gateRuns c then (s.gatePos c).1 else 0)
    s.wrb (F.GATE_STATUS_RUNNING c) (s.gateRuns c)

/-- A cell is in retention, or wakes from it: it counts and observes nothing (R408). -/
def State.retained (s : State) (c : Cell) : Bool := s.domain (3 * c.val) ≥ 2
/-- HIST_PERIOD_END (R149). HIST_PERIOD 0 disables periodic copies; a cell in retention copies the period when it is ON again (R408). -/
def execHistPeriodEnd (c : Cell) (sampBusy : Bool) (s : State) : Outcome State Fault Refusal :=
  .next <| if s.rd (F.SHP_OBS_CTRL_HIST_PERIOD c) = 0 then s
    else if s.retained c then { s with sched.due := c.val :: s.sched.due.filter (· != c.val) }
    else s.copyObs c sampBusy

/-- DEPTH_SAMPLE (R148). -/
def execDepthSample (c : Cell) (s : State) : Outcome State Fault Refusal := .next (if s.retained c then s else s.sampleDepth c)

/-- SHP_OBS_SNAP (R149). -/
def execShpObsSnap (c : Cell) (sampBusy : Bool) (s : State) : Outcome State Fault Refusal := .next (s.copyObs c sampBusy)

end Sys2Proof.Machine
end

