-- ==== Sys2Proof/Machine/View.lean ====
section
/-! DEFINITION. What a read of a register shows (spec/00 R15, R18, R19): the stored word, the pending fields of R467, and the
fields that show other state. -/

namespace Sys2Proof.Machine

/-! ### Registers that are not there to be read or written -/

/-- The block that holds a register has its domain OFF (Table 14-2): such registers read as zero. -/
def State.blockOff (s : State) (a : Nat) : Bool :=
  if a < 0x400000 then false
  else if a < 0x1000000 then s.domain 430 == 0
  else if a < 0x10000000 then
    let d := a / 0x100000 % 16
    let o := a % 0x100000
    if 0x20000 ≤ o ∧ o < 0x30000 then s.domain (edgeDom d (o / 0x1000 % 16)) == 0
    else if 0x40000 ≤ o ∧ o < 0x50000 then s.domain (424 + dieStack d) == 0
    else s.domain (spineDom d) == 0
  else if a < 0x20000000 then s.domain (3 * (a / 0x100000 % 128)) == 0
  else false
/-- The anchor of a configured port. -/
def State.isAnchor (s : State) (c : Cell) : Bool := s.roleOf c != .idle && s.anchorOf c == c
/-- A register that holds no value: one of a port number not in use (R15), of an edge that faces the package boundary, of the
counters of a fenced cell (R473), of the Onora part of a cell that has none, or a HOME_MAP entry beyond the domain (R155). -/
def State.unusedReg (s : State) (a : Nat) : Bool :=
  if 0x400400 ≤ a ∧ a < 0x400800 then !s.isAnchor (Cell.of ((a - 0x400400) / 8))
  else if 0x1000000 ≤ a ∧ a < 0x10000000 then
    let o := a % 0x100000
    0x20000 ≤ o && o < 0x30000 && !(edgePresent (a / 0x100000 % 16)).testBit (o / 0x1000 % 16)
  else match cellOfAddr a with
    | none => false
    | some c =>
      let o := a % 0x100000
      if o < 0x20 then !s.isAnchor c
      else if 0x40100 ≤ o ∧ o < 0x40180 then decide (domainCells (s.topo c) ≤ (o - 0x40100) / 8 * 8)
      else if 0x60000 ≤ o ∧ o < 0x70000 then s.cellFenced c
      else if o = 0x70030 then s.roleOf c != .onora
      else if 0x70000 ≤ o ∧ o < 0x80000 then !(s.roleOf c == .onora && s.anchorOf c == c)
      else 0x80000 ≤ o && o < 0x80400 && !s.isAnchor c
/-- Such a register, or one whose block is OFF, reads as zero and ignores writes (the latter DEDUCED for writes). -/
def State.hidden (s : State) (a : Nat) : Bool := s.blockOff a || s.unusedReg a
/-- The address that holds the register's value: the module-wide registers of the ONORA anchors have one home. -/
def homeAddr (a : Nat) : Nat :=
  if 0x10000000 ≤ a ∧ a < 0x20000000 then
    let o := a % 0x100000
    if (0x70200 ≤ o ∧ o < 0x70400) ∨ o = 0x70440 ∨ o = 0x70448 then 0x10000000 + o else a
  else a

/-! ### Words of table entries -/

/-- Table 8-1. -/
def extWord (x : ExtEnt) : Nat :=
  x.st.code * 2 ^ 29 + x.mcell.val * 2 ^ 22 + x.mcell2.val * 2 ^ 15 + x.moving.toNat * 2 ^ 13 + x.group.toNat * 2 ^ 12 + x.owner.val
/-- Table 8-2. -/
def devWord (d : DevEnt) : Nat := 2 ^ 31 + d.side.val * 2 ^ 30 + ((d.key.map (·.val)).getD 0x1FFF) * 2 ^ 17 + d.dev.val
/-- Table 11-10. -/
def rextWord (x : Nat × Nat) : Nat := 2 ^ 31 + x.1 * 2 ^ 26 + x.2
/-- Bits of the numbers below n that pass a test. -/
def bitsWhere (n : Nat) (f : Nat → Bool) : Nat := (List.range n).foldl (fun acc j => if f j then acc + 2 ^ j else acc) 0
/-- A register word with some fields shown. -/
def showFields (w : Word) (l : List (Fld × Nat)) : Word := l.foldl (fun (w : Word) x => putBits w x.1.lsb x.1.width x.2) w

/-! ### Shadows (R466) and pending fields (R467) -/

/-- The shadow of a register: that of the running epoch, and on it the one that waits for the next. -/
def State.shadowOf (s : State) (a : Nat) : Nat × Nat :=
  let e := match s.mgr.epoch with
    | some e => mgetD (0, 0) e.shadows a
    | none => (0, 0)
  let n := mgetD (0, 0) s.mgr.shadow a
  (e.1 ||| n.1, (overlay (BitVec.ofNat 64 e.2) n).toNat &&& (e.1 ||| n.1))
/-- Registers that hold a shadow. -/
def State.shadowRegs (s : State) : Nat :=
  let e := match s.mgr.epoch with
    | some e => e.shadows
    | none => []
  s.mgr.shadow.length + (e.filter (fun (x : Nat × (Nat × Nat)) => (mget s.mgr.shadow x.1).isNone)).length

/-! ### Views -/

/-- The word of PROT_REGION: an entry that is valid stands in the cell's table; the words of one that is not, in the register. -/
def State.regionWord (s : State) (c n w : Nat) : Word :=
  match mget s.sec.region (c * 1024 + n) with
  | some r => BitVec.ofNat 64 (r.words.getD w 0)
  | none => s.reg (F.PROT_REGION_at c n w) &&& regionBits w
/-- Cells whose logic has a domain state. -/
def State.cellsIn (s : State) (st : Nat) : Nat := ((List.range 128).filter (fun c => s.domain (3 * c) == st)).length
/-- A package-wide register whose fields show other state. -/
def State.viewPkg (s : State) (a : Nat) (w : Word) : Word :=
  if a = F.PKG_MODE_at then showFields w [(F.PKG_MODE_MODE, s.mode.code)]
  else if a = F.PKG_MODE_REQ_at then
    showFields w [(F.PKG_MODE_REQ_BUSY, (s.mode == .safeStop && s.rd F.PKG_MODE_CAUSE == 0x0E && s.img.returning.isNone).toNat)]
  else if a = F.PKG_COMMIT_at then showFields w [(F.PKG_COMMIT_SHADOWS, min 0xFFFF s.shadowRegs), (F.PKG_COMMIT_BUSY, s.mgr.epoch.isSome.toNat)]
  else if a = F.PKG_SHADOW_MASK_at then BitVec.ofNat 64 (s.shadowOf (homeAddr (s.rd F.PKG_SHADOW_SEL_ADDR))).1
  else if a = F.RIND_PKG_TIME_at then BitVec.ofNat 64 s.ns
  else if a = F.RIND_DOMAIN_VIEW_at then
    let n := s.rd F.RIND_DOMAIN_SEL_DOMAIN
    if n > 431 then 0
    else showFields 0 [(F.RIND_DOMAIN_VIEW_STATE, s.domain n), (F.RIND_DOMAIN_VIEW_LAST_WAKE_NS, min 0xFFFF (mgetD 0 s.pwr.onNs n)),
      (F.RIND_DOMAIN_VIEW_ENTRIES, mgetD 0 s.pwr.entries n)]
  else if a = F.RIND_SLEEP_STATUS_at then
    showFields w [(F.RIND_SLEEP_STATUS_AWAKE, s.cellsIn 1), (F.RIND_SLEEP_STATUS_RETAINED, s.cellsIn 2),
      (F.RIND_SLEEP_STATUS_QUIET, ((List.finRange 128).filter (fun (c : Cell) => s.quiet c)).length)]
  else if a = F.MGR_LEASE_at then
    match s.mgr.holder with
    | none => 0
    | some src =>
      let (p, e) := match src with
        | .mctp p e => (p.val, e.val)
        | _ => (0, 0)
      showFields 0 [(F.MGR_LEASE_REMAIN_MS, s.leaseLeft), (F.MGR_LEASE_CLIENT, s.mgr.client), (F.MGR_LEASE_EID, e), (F.MGR_LEASE_PORT, p),
        (F.MGR_LEASE_PATH, srcCode src), (F.MGR_LEASE_HELD, 1)]
  else if a = F.MGR_LEASE_CFG_at ∧ s.baseApplies then
    showFields 0 [(F.MGR_LEASE_CFG_LEASE_MS, 1000), (F.MGR_LEASE_CFG_PATHS, 1), (F.MGR_LEASE_CFG_MCTP_PORT, 0x7F)]
  else if a = F.SEC_SLOT_VIEW_at then
    let r := s.keyRec (s.rd F.SEC_SLOT_SEL_SLOT)
    if r.st = 0 then 0
    else showFields 0 [(F.SEC_SLOT_VIEW_STATE, r.st), (F.SEC_SLOT_VIEW_GROUP, r.group.toNat), (F.SEC_SLOT_VIEW_OWNER, r.owner % 4096),
      (F.SEC_SLOT_VIEW_AGE_H, min 0xFFFFFFFF ((s.wall - r.at_) / hourCyc))]
  else w
/-- Open COPY requests of the engine of a die. -/
def State.copyOpen (s : State) (d : Nat) : Nat :=
  (s.pool.copy.filter (fun (e : Nat × CopyOp) => e.2.die == d)).foldl (fun n (e : Nat × CopyOp) =>
    n + (e.2.parts.filter (fun (q : CopyPart) => q.started && !q.ended && q.line < q.lines)).length) 0
/-- A register of a die. -/
def State.viewDie (s : State) (a : Nat) (w : Word) : Word :=
  let d := a / 0x100000 % 16
  let o := a % 0x100000
  if o = 0 then showFields w [(F.DIE_STATUS_FENCED 0, (s.dieFenced d).toNat)]
  else if o = 0x10 then
    showFields w [(F.DIE_FENCE_EPOCH_DIES 0, bitsWhere 8 s.dieFenced), (F.DIE_FENCE_EPOCH_OPEN 0, s.scrim.epochOpen.toNat),
      (F.DIE_FENCE_EPOCH_EPOCH 0, s.scrim.epoch)]
  else if 0x100 ≤ o ∧ o < 0x120 then BitVec.ofNat 64 (bitsWhere 64 (fun j => s.scrim.fence.links.contains ((o - 0x100) / 8 * 64 + j)))
  else if 0x120 ≤ o ∧ o < 0x130 then BitVec.ofNat 64 (bitsWhere 64 (fun j => s.scrim.fence.cells.contains ((o - 0x120) / 8 * 64 + j)))
  else if 0x10000 ≤ o ∧ o < 0x20000 then
    if 0x400 ≤ o % 0x1000 ∧ o % 0x1000 < 0x500 then BitVec.ofNat 64 (s.detourWord (Cell.of (d * 16 + o / 0x1000 % 16)) ((o % 0x1000 - 0x400) / 8)) else w
  else if (0x20000 ≤ o ∧ o < 0x30000 ∧ 0x100 ≤ o % 0x1000) ∨ (0x40900 ≤ o ∧ o < 0x40910) then s.xingWord a w
  else if o = 0x50000 then showFields w [(F.INST_ENG_STATUS_PRESS_OPEN 0, s.copyOpen d)]
  else w
/-- A register of a cell. -/
def State.viewCell (s : State) (c : Cell) (a : Nat) (w : Word) : Word :=
  let o := a % 0x100000
  if o = 0x10000 then
    showFields w [(F.XBAR_STATUS_IN_LOCK 0, bitsWhere 10 (fun i => s.cyc < mgetD 0 s.xbar.inBusy (c.val * 10 + i))),
      (F.XBAR_STATUS_OUT_LOCK 0, bitsWhere 10 (fun i => s.cyc < mgetD 0 s.xbar.outBusy (c.val * 10 + i)))]
  else if o = 0x10388 then
    let i := s.rd (F.XBAR_VOQ_SEL_IN c)
    let out := s.rd (F.XBAR_VOQ_SEL_OUT c)
    let tc := s.rd (F.XBAR_VOQ_SEL_TC c)
    if i > 9 ∨ out > 9 then 0
    else
      let l := s.voqAt c i out tc
      let k := s.ctxOf c i out tc
      showFields 0 [(F.XBAR_VOQ_VIEW_SPILLED 0, k.isSome.toNat),
        (F.XBAR_VOQ_VIEW_WHEY_FRAMES 0, min 0xFFFFFF ((k.map (fun x => x.2.frames.length)).getD 0)),
        (F.XBAR_VOQ_VIEW_BUF_FRAMES 0, l.length), (F.XBAR_VOQ_VIEW_BUF_GRAN 0, l.foldl (fun n (f : Frame) => n + f.p.granules) 0)]
  else if 0x20600 ≤ o ∧ o < 0x20740 then
    let out := (o - 0x20600) / 64
    let tc := o / 8 % 8
    showFields w [(F.SHP_CREDIT_GATED 0 0 0, (!s.gateOpen c out tc).toNat), (F.SHP_CREDIT_ACTIVE 0 0 0, (s.queueActive c out tc).toNat)]
  else if 0x30100 ≤ o ∧ o < 0x30110 then s.xingWord a w
  else if 0x54000 ≤ o ∧ o < 0x5C000 then s.regionWord c.val ((o - 0x54000) / 32) (o / 8 % 4)
  else if 0x600C0 ≤ o ∧ o < 0x600E0 then
    let j := (o - 0x600C0) / 8
    BitVec.ofNat 64 (s.rd (F.CTR_VAL_VALUE c (2 * j)) + s.rd (F.CTR_VAL_VALUE c (2 * j + 1)) * 2 ^ 32)
  else if o = 0x600E0 then
    showFields w [(F.CTR_CTL_RUN 0, bitsWhere 8 (fun n => s.ctrRuns c n && (s.rd (F.CTR_CFG_EVT c n) != 0 || (n % 2 == 1 && s.ctrChained c n))))]
  else if 0x60000 ≤ o ∧ o < 0x60040 ∧ o / 8 % 2 = 1 then showFields w [(F.CTR_CFG_CHAIN 0 0, 0)]
  else if o = 0x70448 then BitVec.ofNat 64 ((mget s.onl.rext (s.rd (F.ONL_REXT_SEL_EXT 0))).map rextWord |>.getD 0)
  else if o = 0x80408 then
    let e := s.rd (F.INST_EXT_SEL_EXT c)
    let d := ((s.devEnt c.val e).map devWord).getD 0
    showFields 0 [(F.INST_EXT_VIEW_HOME_ENTRY 0, extWord (s.extOf c e)), (F.INST_EXT_VIEW_DEV_HI 0, d / 2 ^ 17),
      (F.INST_EXT_VIEW_LIFE 0, s.lifeOf e), (F.INST_EXT_VIEW_DEV_EXT 0, d % 4096)]
  else w
/-- The value of a register, without its shadow views: pulse fields read as 0 (R19). -/
def State.active (s : State) (a : Nat) : Word :=
  match regAt a with
  | none => 0
  | some (r, _) =>
    if s.hidden a then 0
    else
      let h := homeAddr a
      let w := match mget s.mgr.pend h with
        | some m => overlay (s.reg h) m
        | none => s.reg h
      let w := if h < 0x1000000 then s.viewPkg h w
        else if h < 0x10000000 then s.viewDie h w
        else match cellOfAddr h with
          | some c => s.viewCell c h w
          | none => w
      r.fields.foldl (fun (w : Word) f => if f.kind = .pulse then putBits w f.lsb f.width 0 else w) w
/-- The value of a register with its shadow in place of active values. -/
def State.shadowed (s : State) (a : Nat) : Word := overlay (s.active a) (s.shadowOf (homeAddr a))
/-- The value that a read shows. -/
def State.look (s : State) (a : Nat) : Word :=
  if a = F.PKG_SHADOW_VIEW_at then
    let b := s.rd F.PKG_SHADOW_SEL_ADDR
    if b % 8 = 0 ∧ s.readable b then s.shadowed b else 0
  else s.active a
/-- A lane's eye and peaking (R300): free values while its port is in L0. -/
def State.eye (s : State) (l : Lane) (w : Word) : Word × State :=
  if s.rd (F.LANE_PORT_STATUS_STATE (s.laneAnchor l)) = 3 ∧ s.rdb (F.LANE_STATUS_USED l) then
    let (k, s) := s.fresh
    let v := Config.freeRandom k
    (showFields w [(F.LANE_RXEQ_EYE_H 0, v), (F.LANE_RXEQ_EYE_W 0, v / 2 ^ 16), (F.LANE_RXEQ_CTLE 0, v / 2 ^ 24 % 19)], s)
  else (w, s)
/-- A read of a register, with what it captures: the spill context views (Table 4-7) and LANE_PRBS_BITS (R309). -/
def State.readReg (s : State) (a : Nat) : Word × State :=
  match cellOfAddr a with
  | none => (s.look a, s)
  | some c =>
    let o := a % 0x100000
    let l : Lane := Fin.ofNat 512 (4 * c.val + (o - 0x100) / 0x80)
    if s.hidden a then (0, s)
    else if o = 0x30008 then
      let s := s.captureSpillViews c
      (s.look a, s)
    else if 0x100 ≤ o ∧ o < 0x300 ∧ o % 0x80 = 0x28 then (s.look a, s.wr (F.LANE_PRBS_BITS_BITS l) (s.bitsCompared l))
    else if 0x100 ≤ o ∧ o < 0x300 ∧ o % 0x80 = 0x10 then s.eye l (s.look a)
    else (s.look a, s)
/-- An access from one of the paths to an address: it is aligned, and a register stands there (R17). -/
def State.reaches (s : State) (src : Src) (a data : Nat) : Option State :=
  if a % 8 ≠ 0 then some (s.logAccess src 1 a data)
  else if (regAt a).isNone then some (s.logAccess src 2 a data)
  else none
/-- A read by one of the paths: what it may not read is zero. JTAG outside its reach reads zero before anything else is judged. -/
def State.readBy (s : State) (src : Src) (a : Nat) : Word × State :=
  let s := s.rindAccess a
  if src = .jtag ∧ !s.jtagReads a then (0, s.jtagRefused a false)
  else match s.reaches src a 0 with
    | some s => (0, s)
    | none =>
      let (ok, s) := s.mayRead src a
      if ok then s.readReg a else (0, s)

end Sys2Proof.Machine
end

