-- ==== Sys2Proof/Machine/Commit.lean ====
section
/-! DEFINITION. Commit epochs (spec/16 R466 to R470): close, check, barrier, apply, end, and the fields that wait for a safe
point. -/

namespace Sys2Proof.Machine

open Host (Outcome)

/-- Modes in which GO is accepted: 0x3 to 0x8. -/
def commitMode (m : Mode) : Bool := 3 ≤ m.code && m.code ≤ 8
/-- GO of PKG_COMMIT: the shadows present join the epoch. -/
def State.commitGo (s : State) : State :=
  if s.mgr.epoch.isSome then s
  else if !commitMode s.mode then s.flag F.PKG_COMMIT_REFUSED
  else
    { s with
      mgr.epoch := some { phase := if s.epochFree && s.sec.waiting.isEmpty then .check else .close, shadows := s.mgr.shadow, goAt := s.cyc,
                            after := s.sec.waiting.length }
      mgr.shadow := [] }
/-- DISCARD (R469): the shadows that wait for the next epoch go, with a record of KIND 4. -/
def State.commitDiscard (s : State) : State := s.dropShadows 4 0

/-! ### Check (Table 16-7) -/

/-- The stored registers with shadows in place. -/
def State.withShadows (s : State) (sh : NMap (Nat × Nat)) : State :=
  sh.foldl (fun (s : State) (x : Nat × (Nat × Nat)) => s.setReg x.1 (overlay (s.reg x.1) x.2)) s
/-- Part of a cell's block that a register lies in. -/
def inCell (a lo hi : Nat) : Bool := (cellOfAddr a).isSome && lo ≤ a % 0x100000 && a % 0x100000 < hi
/-- A word of PROT_REGION: cell and entry. -/
def regionAt (a : Nat) : Option (Nat × Nat) :=
  if inCell a 0x54000 0x5C000 then some (a / 0x100000 % 256, (a % 0x100000 - 0x54000) / 32) else none
/-- The region entries that shadows change, as they would be. -/
def State.epochSets (s : State) (sh : NMap (Nat × Nat)) : List (Nat × Nat × Option Region) :=
  ((sh.filterMap (fun (x : Nat × (Nat × Nat)) => regionAt x.1)).dedup).map (fun (x : Nat × Nat) =>
    let w (k : Nat) : Nat := (overlay (s.regionWord x.1 x.2 k) (mgetD (0, 0) sh (F.PROT_REGION_at x.1 x.2 k))).toNat
    (x.1, x.2, regionOf (w 0) (w 1) (w 2) (w 3)))
/-- Ports whose ΣSLOT_MIN a register bears on (rule 0x06). -/
def State.slotPort (s : State) (a : Nat) : Option Cell :=
  if 0x20000000 ≤ a then
    let i := (a - 0x20000000) / 0x1000
    let p := s.rd (F.INST_INFO_HOST_PORT i)
    if a % 0x1000 = 0x808 ∧ s.instOn p i then some (Cell.of p) else none
  else match cellOfAddr a with
    | some c => if a % 0x100000 = 0x10028 then some (s.anchorOf c) else none
    | none => none
/-- The check as it goes: state, the shadows left, and the registers refused. -/
structure Checked where
  s : State
  sh : NMap (Nat × Nat)
  refused : Nat := 0
/-- Refuses the shadows that a test names, with a record for each block (rule, DETAIL), or one record at a cell. -/
def refuse (x : Checked) (rule detail : Nat) (one : Option Cell) (bad : Nat → Bool) : Checked :=
  let l := (x.sh.filter (fun (e : Nat × (Nat × Nat)) => bad e.1)).map (·.1)
  if l.isEmpty then x
  else
    { s := match one with
        | some c => x.s.logCommit 2 rule detail (some c) (l.headD 0) 0 l.length
        | none => x.s.refuseGroup rule detail l
      sh := x.sh.filter (fun (e : Nat × (Nat × Nat)) => !bad e.1)
      refused := x.refused + l.length }
/-- A test of a cell applied to the registers of a part of its block. -/
def cellBad (ok : Cell → Bool) (part : Nat → Bool) (a : Nat) : Bool :=
  match cellOfAddr a with
  | some c => part a && !ok c
  | none => false
def inGate (a : Nat) : Bool := inCell a 0x20000 0x20400
def inRes (a : Nat) : Bool := inCell a 0x10100 0x10150
def inAlpha (a : Nat) : Bool := inCell a 0x10150 0x10158
/-- Rule 0x01: the region sets of the epoch, all of them or none. -/
def State.judgeRegions (s : State) (x : Checked) : Checked :=
  let sets := s.epochSets x.sh
  match s.regionFault (s.regionsWith sets) with
  | some (r, a, b) =>
    if sets.isEmpty then x
    else refuse { x with s := x.s.refuseRegions (firstEntries sets) r a b } 1 r (some (Cell.of a.1))
      (fun n => (regionAt n).isSome)
  | none => x
/-- Rule 0x02: the gate lists; a refused list shows at its cell. -/
def judgeGates (u : State) (x : Checked) : Checked :=
  let gates := ((x.sh.filter (fun (e : Nat × (Nat × Nat)) => cellBad (fun c => u.gateOk c false) inGate e.1)).filterMap
    (fun (e : Nat × (Nat × Nat)) => cellOfAddr e.1)).dedup
  refuse { x with s := gates.foldl (fun (s : State) (c : Cell) => s.flag (F.GATE_STATUS_REFUSED c)) x.s } 2 0 none
    (cellBad (fun c => u.gateOk c false) inGate)
/-- Rule 0x06: the host slots, port by port. -/
def State.judgeSlots (s u : State) (x : Checked) : Checked :=
  ((x.sh.filterMap (fun (e : Nat × (Nat × Nat)) => s.slotPort e.1)).dedup).foldl (fun (x : Checked) (p : Cell) =>
    if u.slotMinOk p then x else refuse x 6 0 (some p) (fun a => s.slotPort a == some p)) x
/-- The rules of Table 16-7, each judged on the union of active values and the epoch's shadows, in the order of their numbers after
rule 0x07. -/
def State.judgeEpoch (s : State) (sh : NMap (Nat × Nat)) : Checked :=
  -- a gate list that waits for its cycle boundary is part of the list that would result (R142)
  let u := (s.withShadows (s.mgr.pend.filter (fun (e : Nat × (Nat × Nat)) => inGate e.1))).withShadows sh
  let x := judgeGates u (s.judgeRegions (refuse { s := s, sh := sh } 7 0 none s.addrFenced))
  let x := refuse x 3 0 none (cellBad u.resOk (fun a => inRes a || inAlpha a))
  let x := refuse x 4 0 none (cellBad u.spillMinOk (fun a => inCell a 0x10160 0x10168))
  s.judgeSlots u (refuse x 5 0 none (cellBad u.reserveOk inRes))
/-- What passed the check goes on: region changes run the barrier of R277, and the rest is applied after it, or now. -/
def Checked.goOn (x : Checked) (e : Epoch) : State :=
  let sets := x.s.epochSets x.sh
  let others := (x.sh.filter (fun (y : Nat × (Nat × Nat)) => (regionAt y.1).isNone)).map (fun (y : Nat × (Nat × Nat)) => blockOf y.1)
  let e := { e with phase := if sets.isEmpty then .apply else .barrier, shadows := x.sh, refused := e.refused + x.refused,
                    awAck := others.dedup }
  let insts := (sets.filterMap (fun (y : Nat × Nat × Option Region) => y.2.2.map (fun r => r.inst.val))
    ++ sets.filterMap (fun (y : Nat × Nat × Option Region) => (mget x.s.sec.region (y.1 * 1024 + y.2.1)).map (fun r => r.inst.val))).dedup
  let s := { x.s with mgr.epoch := some e }
  if sets.isEmpty then s
  else s.startBarrier { goal := .epoch, sets := sets, insts := insts, cells := (sets.map (fun (y : Nat × Nat × Option Region) => y.1)).dedup }
/-- COMMIT_CHECK_COMPLETE (R467, R468): refused groups go, and the rest goes on. -/
def execCommitCheckComplete (s : State) : Outcome State Fault Refusal :=
  .next <|
    match s.mgr.epoch with
    | none => s
    | some e => if !(e.phase = .close ∨ e.phase = .check) ∨ !s.epochFree then s else (s.judgeEpoch e.shadows).goOn e

/-! ### Apply -/

/-- A cycle boundary of the active gate list, or no list is enabled (R142). -/
def State.gateBoundary (s : State) (c : Cell) : Bool :=
  !s.rdb (F.GATE_CTRL_EN c) || s.rd (F.GATE_CYCLE_CYCLE_NS c) == 0
    || (s.gateRuns c && s.cyc % 3 == 0 && (s.ns - s.rd (F.GATE_BASE_BASE_TIME c)) % s.rd (F.GATE_CYCLE_CYCLE_NS c) == 0)
/-- A frame of the class of a shaper's register is in transmission at its output (R145). -/
def State.shaperBusy (s : State) (c : Cell) (o : Nat) : Bool :=
  let out := (o - 0x20400) / 64
  decide (s.cyc < mgetD 0 s.xbar.outBusy (c.val * 10 + out)) && mgetD 8 s.xbar.outCls (c.val * 10 + out) == (o - 0x20400) % 64 / 8
/-- A field whose safe point is not now and may not come (R467, Table 16-8): the next drain, idle period, window, lane fault,
training, probe, pause, freeze, age check, evaluation or period end, a cycle boundary of a gate list that runs, or the end of a frame of a
shaper's class. The fields of SHP_OBS_ apply with the acknowledgement while no period runs (DEDUCED). -/
def State.waitsFor (s : State) (a lsb : Nat) : Bool :=
  if a = F.RIND_SLEEP_CFG_at then true
  else if a = F.SEC_CFG_at then lsb == 0
  else if 0x1000000 ≤ a ∧ a < 0x10000000 then
    let o := a % 0x100000
    o == 8 || (0x20000 ≤ o && o < 0x30000 && o % 0x1000 == 8)
  else match cellOfAddr a with
    | none => false
    | some c =>
      let o := a % 0x100000
      if inGate a then !s.gateBoundary c
      else if 0x20400 ≤ o ∧ o < 0x20540 then s.shaperBusy c o
      else if 0x20800 ≤ o ∧ o < 0x20810 then s.rd (F.SHP_OBS_CTRL_HIST_PERIOD c) != 0
      else [8, 0x40508, 0x50008, 0x80008, 0x70008, 0x70028, 0x70200].contains o
/-- The mask of a register's fields that wait. -/
def State.waitMask (s : State) (a : Nat) : Nat :=
  match regAt a with
  | some (r, _) => r.fields.foldl (fun m f => if f.kind = .commit ∧ s.waitsFor a f.lsb then m ||| maskAt f.lsb f.width else m) 0
  | none => 0
/-- Blocks that hold pending fields. -/
def State.showWaiting (s : State) : State :=
  s.wr F.PKG_COMMIT_STATUS_WAITING (min 255 ((s.mgr.pend.map (fun (x : Nat × (Nat × Nat)) => blockOf x.1)).dedup).length)
/-- A gate or shaper change takes effect in a cell: the histogram records of its queues say so (Table 5-3). -/
def State.noteGateChange (s : State) (a : Nat) : State :=
  match cellOfAddr a with
  | none => s
  | some c =>
    if inCell a 0x20000 0x20600 then
      (List.range 4).foldl (fun (s : State) q =>
        if (s.watched c q).isSome then { s with sched.live := mmod {} s.sched.live (c.val * 4 + q) (fun l => { l with commit := true }) }
        else s) s
    else s
/-- The pools of a cell follow its reserves, headroom, spill share and I/O slots as they take effect (R94, R100, R101, R113); so does the credit
of a port its instances' shares (R243). -/
def State.noteShares (s : State) (a headroom : Nat) : State :=
  match cellOfAddr a with
  | none =>
    let i := (a - 0x20000000) / 0x1000
    let p := s.rd (F.INST_INFO_HOST_PORT i)
    if 0x20000000 ≤ a ∧ i < 4096 ∧ (a % 0x1000 = 0x808 ∨ a % 0x1000 = 0x810) ∧ s.instOn p i then s.creditUpdate (Cell.of p) i else s
  | some c =>
    if inRes a || inAlpha a then s.resize c headroom
    else if inCell a 0x10160 0x10168 then s.showShare c (s.spillStack c)
    else if inCell a 0x10028 0x10030 then s.portCredit (s.anchorOf c)
    else s
/-- The router whose SCRIM_VC_WEIGHT a register is. -/
def weightsOf (a : Nat) : Option Cell :=
  let o := a % 0x100000
  if 0x1000000 ≤ a ∧ a < 0x1800000 ∧ 0x10000 ≤ o ∧ o < 0x20000 ∧ o % 0x1000 = 8 then
    some (Cell.of ((a / 0x100000 - 16) * 16 + (o / 0x1000 - 16)))
  else none
/-- Bits of a register take new values. -/
def State.applyBits (s : State) (a mask value : Nat) : State :=
  if mask = 0 then s
  else
    let was := ((cellOfAddr a).map (fun c => s.headroom c)).getD 0
    let s := match weightsOf a with
      | some c => s.keepWeights c
      | none => s
    ((s.setReg a (overlay (s.reg a) (mask, value))).noteGateChange a).noteShares a was
/-- One register of a block at the apply instant: fields in `w` join the pending ones, the others apply. -/
def State.applyReg (s : State) (a : Nat) (m : Nat × Nat) (w : Nat) : State :=
  let w := m.1 &&& w
  let p := mgetD (0, 0) s.mgr.pend a
  let s := s.applyBits a (m.1 ^^^ w) m.2
  if w = 0 then s
  else { s with mgr.pend := mput s.mgr.pend a (p.1 ||| w, (overlay (BitVec.ofNat 64 p.2) (w, m.2)).toNat) }
/-- Pending bits of a register in a mask apply. -/
def State.applyPending (s : State) (a mask : Nat) : State :=
  match mget s.mgr.pend a with
  | none => s
  | some m =>
    let now := m.1 &&& mask
    let left := m.1 ^^^ now
    let s := { s with mgr.pend := if left = 0 then mdel s.mgr.pend a else mput s.mgr.pend a (left, m.2) }
    s.applyBits a now m.2
/-- COMMIT_APPLY: the block applies its shadows and acknowledges; a retained cell wakes first (R409, R469). -/
def execCommitApply (b : Fin 1024) (s : State) : Outcome State Fault Refusal :=
  .next <|
    match s.mgr.epoch with
    | none => s
    | some e =>
      if e.phase ≠ .apply ∨ s.scrim.epochOpen ∨ !e.awAck.contains b.val then s
      else
        let mine := e.shadows.filter (fun (x : Nat × (Nat × Nat)) => blockOf x.1 == b.val)
        let waits := mine.map (fun (x : Nat × (Nat × Nat)) => (x.1, x.2, s.waitMask x.1))
        let s := match cellOfAddr (b.val * 0x100000) with
          | some c => s.wakeCell c
          | none => s
        -- at its boundary a gate list takes what an earlier epoch left waiting with this epoch's fields (R142)
        let due := if mine.any (fun (x : Nat × (Nat × Nat)) => inGate x.1) then
            s.mgr.pend.filter (fun (x : Nat × (Nat × Nat)) => inGate x.1 && blockOf x.1 == b.val && s.waitMask x.1 == 0) else []
        let s := due.foldl (fun (s : State) (x : Nat × (Nat × Nat)) => s.applyPending x.1 (2 ^ 64 - 1)) s
        let s := waits.foldl (fun (s : State) (x : Nat × (Nat × Nat) × Nat) => s.applyReg x.1 x.2.1 x.2.2) s
        let e := { e with
          shadows := e.shadows.filter (fun (x : Nat × (Nat × Nat)) => blockOf x.1 != b.val)
          awAck := e.awAck.filter (· != b.val), applied := e.applied + mine.length }
        ({ s with mgr.epoch := some e }).showWaiting
/-- The safe point of a pending field may come: those of dies, routers and edges wait for the close of a fence epoch (R68), a gate list for a
cycle boundary (R142), and a shaper for the end of its frame (R145). -/
def State.safePoint (s : State) (a : Nat) : Bool :=
  match cellOfAddr a with
  | some c =>
    if inGate a then s.gateBoundary c
    else !(inCell a 0x20400 0x20540 && s.shaperBusy c (a % 0x100000))
  | none => !(0x1000000 ≤ a && a < 0x10000000 && s.scrim.epochOpen)
/-- COMMIT_PENDING_APPLY: the fields of a mask at their safe point; a gate list takes effect as a whole (R142). -/
def execCommitPendingApply (addr : BitVec 32) (mask : Word) (s : State) : Outcome State Fault Refusal :=
  .next <|
    let a := addr.toNat
    let regs := if inGate a then (s.mgr.pend.filter (fun (x : Nat × (Nat × Nat)) => inGate x.1 && blockOf x.1 == blockOf a)).map (·.1) else [a]
    if s.safePoint a then (regs.foldl (fun (s : State) r => s.applyPending r (if inGate a then 2 ^ 64 - 1 else mask.toNat)) s).showWaiting else s
/-- COMMIT_EPOCH_END: the record of KIND 1, the results, and BUSY clears; the module commit that waits takes its turn. -/
def execCommitEpochEnd (s : State) : Outcome State Fault Refusal :=
  .next <|
    match s.mgr.epoch with
    | none => s
    | some e =>
      if e.phase ≠ .apply ∨ !e.awAck.isEmpty ∨ s.scrim.epochOpen then s
      else
        let s := s.logCommit 1 0 0 none 0 e.applied e.refused
        let s := s.wr F.PKG_COMMIT_RESULT (if e.refused ≠ 0 then 2 else if e.applied ≠ 0 then 1 else 3)
        let s := (s.wr F.PKG_COMMIT_STATUS_APPLIED_REGS (min 0xFFFF e.applied)).wr F.PKG_COMMIT_STATUS_REFUSED_REGS (min 0xFFFF e.refused)
        let s := s.wr F.PKG_COMMIT_STATUS_LAST_US (min 0xFFFF ((s.cyc - e.goAt) / 3000))
        let s := s.inc F.PKG_COMMIT_EPOCH
        { s with mgr.epoch := none }.nextCommit

end Sys2Proof.Machine
end

