-- ==== Sys2Proof/Machine/Write.lean ====
section
/-! DEFINITION. Writes of registers (spec/00 R17 to R23, spec/16 R463): who may write, which fields are attempted and judged, and
what each kind of field does; the requests for a mode (spec/01 R45), and the counters' snapshots (spec/17 R480, R482). -/

namespace Sys2Proof.Machine

open Host (Outcome)

/-! ### Mode requests (R45, R471) -/

/-- Ports that PKG_MAINT_SET names. -/
def State.maintPorts (s : State) : List Nat :=
  (List.range 128).filter (fun p => s.rdBit (F.PKG_MAINT_SET_PORTS (p / 64)) (p % 64) && s.isAnchor (Cell.of p))
/-- GO of PKG_MODE_REQ: transitions that Table 1-9 gives a manager request, MAINTENANCE under R471. -/
def State.modeReq (s : State) : State :=
  let t := s.rd F.PKG_MODE_REQ_TARGET
  let take (k : State → State) : State := k (s.wr F.PKG_MODE_REQ_LAST_TARGET t)
  let refused : State := s.flag F.PKG_MODE_REQ_REFUSED
  if s.mode = .safeStop ∧ s.rd F.PKG_MODE_CAUSE = 0x0E ∧ s.img.returning.isNone then s
  else match t with
    | 4 => match s.mode with
      | .drowse => take (fun s => s.goMode .service 0x0E)
      | .maintenance => take (fun s => s.leaveMaint.goMode .service 0x0E)
      | _ => refused
    | 5 => if s.mode = .service then take (fun s => s.goMode .drowse 0x0E) else refused
    | 8 =>
      if (s.mode = .service ∨ s.mode = .drowse) ∧ s.rdb F.MGR_LEASE_CFG_MAINT_ALLOWED ∧ !s.maintPorts.isEmpty then
        take (fun s =>
          let s := if s.mode = .drowse then s.goMode .service 0x0E else s
          { s.goMode .maintenance 0x0E with pool.paused := s.maintPorts })
      else refused
    | 9 => match s.mode with
      | .dormant | .safeStop | .sealedHalt => refused
      | _ => take (fun s => s.goMode .safeStop 0x0E)
    | _ => refused

/-! ### Snapshots of counters (R480, R482) -/

/-- The eight counters of a cell are copied, with package time. -/
def State.ctrSnap (s : State) (c : Nat) : State :=
  ((List.range 8).foldl (fun (s : State) n => s.wr (F.CTR_SNAPVAL_VALUE c n) (s.rd (F.CTR_VAL_VALUE c n))) s).wr (F.CTR_SNAP_TIME_TIME c) s.ns
/-- The five counts of an instance are copied, with package time. -/
def State.instSnap (s : State) (i : Nat) : State :=
  let v (k : Nat) : Nat := mgetD 0 s.ctr.inst (i * 8 + k)
  let s := ((s.wr (F.INST_CTR_READS_READS i) (v 0)).wr (F.INST_CTR_WRITES_WRITES i) (v 1)).wr (F.INST_CTR_RD_LAT_RD_LAT i) (v 2)
  ((s.wr (F.INST_CTR_HOLD_NS_HOLD_NS i) (v 3)).wr (F.INST_CTR_THROTTLE_NS_THROTTLE_NS i) (v 4)).wr (F.INST_CTR_TIME_TIME i) s.ns

/-! ### Pulse fields -/

/-- The state after a command whose meaning answers a next state. -/
def afterCmd (s : State) (o : Outcome State Fault Refusal) : State :=
  match o with
  | .next t => t
  | _ => s
/-- GO of INST_BIND and of INST_MIG, by OP. -/
def State.bindGo (s : State) (i : Nat) : State :=
  match s.rd (F.INST_BIND_OP i) with
  | 1 => s.bindOp i (s.rd (F.INST_BIND_PORT i)) (s.rd (F.INST_BIND_VPPB i))
  | 2 => s.unbindOp i (s.rd (F.INST_BIND_MODE i)) true
  | 3 => s.unbindOp i (s.rd (F.INST_BIND_MODE i)) false
  | _ => if s.rdb (F.INST_BIND_BUSY i) then s else s.flag (F.INST_BIND_REFUSED i)
def State.migGo (s : State) (i : Nat) (tagOk : Bool) : State :=
  match s.rd (F.INST_MIG_OP i) with
  | 1 => s.prepareOp i
  | 2 => s.migrateOp i
  | 3 => s.abortOp i
  | 4 => s.saveOp i
  | 5 => s.restoreOp i tagOk
  | _ => if s.rdb (F.INST_MIG_BUSY i) then s else s.migRefuse i
/-- A pulse field of the PKG, RIND or SEC block. -/
def State.pulsePkg (s : State) (src : Src) (a lsb : Nat) (e : PulseIn) : State :=
  if a = F.PKG_MODE_REQ_at then s.modeReq
  else if a = F.PKG_COMMIT_at then (if lsb = 0 then s.commitGo else s.commitDiscard)
  else if a = F.PKG_FENCE_RETURN_at then s.fenceReturnOp
  else if a = F.PKG_LC_REQ_at then s.lcGo (srcCode src) e.hash e.bit
  else if a = F.PKG_IMAGE_VERIFY_at then s.verifyGo
  else if a = F.PKG_NOR_CTRL_at then s.norGo
  else if a = F.RIND_PWR_CTRL_at then s.clrPeak
  else if a = F.RIND_SLEEP_STATUS_at then s.wr F.RIND_SLEEP_STATUS_WAKE_MAX_NS 0
  else if a = F.SEC_ROTATE_at then s.rotateOp
  else s
/-- A pulse field of a die. -/
def State.pulseDie (s : State) (a lsb : Nat) : State :=
  let d := a / 0x100000 % 16
  let o := a % 0x100000
  if 0x10000 ≤ o ∧ o < 0x20000 then afterCmd s (execScrimSnap (Cell.of (d * 16 + o / 0x1000 % 16)) s)
  else if o = 0x50010 then (if lsb = 0 then s.moveOp d else s.abortMove d)
  else if lsb = 63 then s.wr (xingHwm a) (getBits (s.xingWord a 0) 16 16)
  else s
/-- A pulse field of a cell. -/
def State.pulseCell (s : State) (c : Cell) (a lsb : Nat) (e : PulseIn) : State :=
  let o := a % 0x100000
  if o = 0x10 then (if lsb = 0 then s.testEnter c else if lsb = 1 then s.testExit c else s.widthRestore c)
  else if o < 0x10000 then s.inject (Fin.ofNat 512 (4 * c.val + (o - 0x100) / 0x80))
  else if o = 0x10020 then afterCmd s (execXbarClrHwm c s)
  else if o = 0x20800 then s.copyObs c e.sampBusy
  else if 0x30100 ≤ o ∧ o < 0x30110 then s.wr (xingHwm a) (getBits (s.xingWord a 0) 16 16)
  else if o = 0x40200 then afterCmd s (execHomeTtClrHwm c s)
  else if o = 0x40410 then afterCmd s (execDirLookup c s)
  else if o = 0x40500 then afterCmd s (execHomeProxyClrHwm c s)
  else if o = 0x600E0 then s.ctrSnap c
  else if o = 0x70010 then s.retrain c
  else s
/-- A pulse field of an instance window, by the manager. -/
def State.pulseInst (s : State) (a : Nat) (e : PulseIn) : State :=
  let i := (a - 0x20000000) / 0x1000
  let o := a % 0x1000
  if o = 0x40 then s.instSnap i
  else if o = 0x110 then s.copyOp i false
  else if o = 0x800 then s.bindGo i
  else if o = 0x820 then s.migGo i e.tagOk
  else s
/-- Writing 1 to a pulse field starts its action (R19). -/
def State.pulse (s : State) (src : Src) (a lsb : Nat) (e : PulseIn) : State :=
  if a < 0x1000000 then s.pulsePkg src a lsb e
  else if a < 0x10000000 then s.pulseDie a lsb
  else match cellOfAddr a with
    | some c => s.pulseCell c a lsb e
    | none => s.pulseInst a e

/-! ### Stored fields -/

/-- TEST_RATE takes a value: a port in TEST runs at it from then on, and the bits that its checkers compared so far stand. An Onora rate on
another port, or a code that names no rate, leaves the rate that runs. -/
def State.setTestRate (s : State) (c : Cell) (v : Nat) : State :=
  let run (r : Nat) : Bool := s.rd (F.LANE_PORT_STATUS_STATE c) == 6 && r ≤ 7 && (r != 7 || s.roleOf c == .onora)
  let s := s.wr (F.LANE_PORT_CTRL_TEST_RATE c) v
  if run (max 1 v) then
    let s := (List.range (s.portWidth c)).foldl (fun (s : State) j =>
      let l : Lane := Fin.ofNat 512 (4 * c.val + j)
      if (mget s.lane.locked l.val).isSome then
        { s with lane.bits := mset 0 s.lane.bits l.val (s.bitsCompared l), lane.locked := mput s.lane.locked l.val s.cyc }
      else s) s
    s.wr (F.LANE_PORT_STATUS_RATE c) (max 1 v)
  else s
/-- LANE_M_CTRL.WIDTH takes a value: a transmitter that runs uses the named width from its next frame (R318). -/
def State.setMgrWidth (s : State) (v : Nat) : State :=
  let s := s.wr F.LANE_M_CTRL_WIDTH v
  if s.rd F.LANE_M_STATUS_TX_WIDTH = 0 then s
  else if v = 1 then s.wr F.LANE_M_STATUS_TX_WIDTH 2
  else if v = 2 then s.wr F.LANE_M_STATUS_TX_WIDTH 1
  else s
/-- A Live field takes a value. LANE_TEST changes in TEST only (R308); PKG_MAINT_SET not in MAINTENANCE (R471); LANE_M_CTRL.LOOP
by JTAG and the service processors only (R319). -/
def State.storeLive (s : State) (src : Src) (a lsb width v : Nat) : State :=
  if a = F.PKG_MAINT_SET_at 0 ∨ a = F.PKG_MAINT_SET_at 1 then (if s.mode = .maintenance then s else s.wr ⟨a, lsb, width⟩ v)
  else if a = F.LANE_M_CTRL_at ∧ lsb = 1 then
    (match src with
      | .sp | .jtag => s.wr ⟨a, lsb, width⟩ v
      | _ => s)
  else if a = F.LANE_M_CTRL_at then s.setMgrWidth v
  else if a = F.RIND_RTC_at then s.rtcWrite v
  else match cellOfAddr a with
    | none => s.wr ⟨a, lsb, width⟩ v
    | some c =>
      let o := a % 0x100000
      if 0x100 ≤ o ∧ o < 0x300 ∧ o % 0x80 = 0x20 then
        let l : Lane := Fin.ofNat 512 (4 * c.val + (o - 0x100) / 0x80)
        if !s.laneInTest l then s
        else if lsb = 11 then s.setChkEn l (v == 1)
        else s.wr ⟨a, lsb, width⟩ v
      else if o = 0x10 then s.setTestRate c v
      else if 0x600C0 ≤ o ∧ o < 0x600E0 then
        s.wr (F.CTR_VAL_VALUE c (2 * ((o - 0x600C0) / 8) + (if lsb = 0 then 0 else 1))) v
      else s.wr ⟨a, lsb, width⟩ v
/-- A Commit field's value goes into its shadow (R466). -/
def State.storeShadow (s : State) (a lsb width v : Nat) : State :=
  let m := mgetD (0, 0) s.mgr.shadow a
  let w := putBits (BitVec.ofNat 64 m.2) lsb width v
  { s with mgr.shadow := mput s.mgr.shadow a (m.1 ||| maskAt lsb width, w.toNat) }

/-! ### A write (R463) -/

/-- A field that a write attempts, and the value written into it. -/
structure Attempt where
  f : FieldDef
  v : Nat
/-- The fields of a register that a written word attempts. Reserved bits of a region entry take none (R18, Table 9-3). -/
def State.attempts (s : State) (a : Nat) (r : RegDef) (w : Word) : List Attempt :=
  let w := if regionAddr a then w &&& regionBits (a / 8 % 4) else w
  r.fields.filterMap (fun (f : FieldDef) =>
    let v := getBits w f.lsb f.width
    let tries := match f.kind with
      | .static | .status => false
      | .commit => v != getBits (s.shadowed a) f.lsb f.width
      | .live => v != getBits (s.active a) f.lsb f.width
      | .clear | .pulse => v != 0
    if tries then some ⟨f, v⟩ else none)
/-- Stores first, then the pulses that the write starts (R20). A Clear bit that the hardware set in this core cycle stays set (R22). -/
def State.act (s : State) (src : Src) (a : Nat) (l : List Attempt) (e : PulseIn) : State :=
  let h := homeAddr a
  let s := l.foldl (fun (s : State) (x : Attempt) => match x.f.kind with
    | .live => s.storeLive src h x.f.lsb x.f.width x.v
    | .commit => s.storeShadow h x.f.lsb x.f.width x.v
    | .clear => s.setReg h (s.reg h &&& ~~~(putBits 0 x.f.lsb x.f.width x.v &&& ~~~(BitVec.ofNat 64 (mgetD 0 s.setNow h))))
    | _ => s) s
  l.foldl (fun (s : State) (x : Attempt) => if x.f.kind = .pulse then s.pulse src h x.f.lsb e else s) s
/-- The first reason for which an attempted field fails under the envelope. -/
def State.failing (s : State) (a : Nat) (l : List Attempt) : Option Nat :=
  (l.filterMap (fun (x : Attempt) => s.judge a x.f.lsb x.f.width x.v)).head?
/-- The fields that a write may change, of those it attempts: all of them for a service processor, for JTAG within its reach and in
SEALED_HALT, else those that pass the envelope; with the one access record of the write. -/
def State.permit (s : State) (src : Src) (a : Nat) (l : List Attempt) (w : Word) : Option (List Attempt) × State :=
  match src with
  | .sp | .jtag => (some l, s)
  | _ =>
    if s.mode = .sealedHalt then (if src = .mgr ∧ haltWrites a then (some l, s) else (none, s.logAccess src 3 a w.toNat))
    else if !s.holds src then (none, s.logAccess src 3 a w.toNat)
    else
      let ok := l.filter (fun (x : Attempt) => (s.judge a x.f.lsb x.f.width x.v).isNone)
      match s.failing a l with
      | some r => (some ok, s.logAccess src r a w.toNat)
      | none => (some l, s)
/-- A running mode asked for a life-cycle change without the lease draws RESULT 5 (R439). -/
def State.lcUnleased (s : State) (src : Src) (a : Nat) (w : Word) : State :=
  if a = F.PKG_LC_REQ_at ∧ w.getLsbD 0 ∧ commitMode s.mode ∧ !s.rdb F.PKG_LC_REQ_BUSY ∧ src ≠ .sp ∧ src ≠ .jtag ∧ !s.holds src then
    s.lcEnd (srcCode src) 5 0
  else s
/-- A 64-bit write of an address from one of the paths. -/
def State.writeReg (s : State) (src : Src) (a : Nat) (w : Word) (e : PulseIn) : State :=
  let s := s.rindAccess a
  if src = .jtag ∧ !s.jtagWrites a then s.jtagRefused a true
  else match s.reaches src a w.toNat with
    | some s => s
    | none =>
      match regAt a with
      | none => s
      | some (r, _) =>
        let l := if s.hidden a then [] else s.attempts a r w
        match s.permit src a l w with
        | (none, s) => s.lcUnleased src a w
        | (some ok, s) =>
          let s := s.act src a ok e
          if a = F.PKG_LOG_SEL_at ∧ ok.length = l.length then s.logFetchOp else s
/-- What a generic write draws for what it can meet: free values (R436). -/
def burnOf (n : Nat) : Burn := if n % 3 = 0 then .ok else if n % 3 = 1 then .retried else .failed
def State.pulseDraw (s : State) : PulseIn × State :=
  let (k, s) := s.fresh
  let n := Config.freeRandom k
  (⟨burnOf n, burnOf (n / 3), (n / 9).testBit 0, (n / 9).testBit 1⟩, s)
/-- A write that draws what its pulses meet. -/
def State.writeDraw (s : State) (src : Src) (a : Nat) (w : Word) : State :=
  let (e, s) := s.pulseDraw
  s.writeReg src a w e
/-- The burns of a command that names them. -/
def burns (hash bit : Burn) : PulseIn := ⟨hash, bit, false, false⟩
/-- A word of field values. -/
def wordOf (l : List (Fld × Nat)) : Word := showFields 0 l

/-- REGISTER_WRITE. -/
def execRegisterWrite (src : Src) (addr : BitVec 32) (v : Word) (s : State) : Outcome State Fault Refusal :=
  .next (s.writeDraw src addr.toNat v)

/-! ### Writes with a row of their own -/

/-- A request for a mode: TARGET and GO. -/
def State.modeReqWrite (s : State) (src : Src) (t : Nat) : State :=
  s.writeReg src F.PKG_MODE_REQ_at (wordOf [(F.PKG_MODE_REQ_TARGET, t), (F.PKG_MODE_REQ_GO, 1)]) (burns .ok .ok)
def execModeReqService (src : Src) (s : State) : Outcome State Fault Refusal := .next (s.modeReqWrite src 4)
def execModeReqDrowse (src : Src) (s : State) : Outcome State Fault Refusal := .next (s.modeReqWrite src 5)
def execModeReqMaintenance (src : Src) (s : State) : Outcome State Fault Refusal := .next (s.modeReqWrite src 8)
def execModeReqSafeStop (src : Src) (s : State) : Outcome State Fault Refusal := .next (s.modeReqWrite src 9)
/-- COMMIT_GO and COMMIT_DISCARD. -/
def execCommitGo (src : Src) (s : State) : Outcome State Fault Refusal :=
  .next (s.writeReg src F.PKG_COMMIT_at (wordOf [(F.PKG_COMMIT_GO, 1)]) (burns .ok .ok))
def execCommitDiscard (src : Src) (s : State) : Outcome State Fault Refusal :=
  .next (s.writeReg src F.PKG_COMMIT_at (wordOf [(F.PKG_COMMIT_DISCARD, 1)]) (burns .ok .ok))
/-- LOG_FETCH (R378). -/
def execLogFetch (src : Src) (log : Fin 8) (seq : BitVec 32) (s : State) : Outcome State Fault Refusal :=
  .next (s.writeReg src F.PKG_LOG_SEL_at (wordOf [(F.PKG_LOG_SEL_LOG, log.val), (F.PKG_LOG_SEL_SEQ, seq.toNat)]) (burns .ok .ok))
/-- IMAGE_VERIFY (R435). -/
def execImageVerify (src : Src) (slot : Fin 2) (s : State) : Outcome State Fault Refusal :=
  .next (s.writeReg src F.PKG_IMAGE_VERIFY_at (wordOf [(F.PKG_IMAGE_VERIFY_SLOT, slot.val), (F.PKG_IMAGE_VERIFY_GO, 1)]) (burns .ok .ok))
/-- An operation of the NOR window (R434). -/
def State.norWrite (s : State) (src : Src) (op dev : Nat) (off : BitVec 32) : State :=
  s.writeReg src F.PKG_NOR_CTRL_at
    (wordOf [(F.PKG_NOR_CTRL_OP, op), (F.PKG_NOR_CTRL_DEV, dev), (F.PKG_NOR_CTRL_OFFSET, off.toNat), (F.PKG_NOR_CTRL_GO, 1)]) (burns .ok .ok)
def execNorRead (src : Src) (dev : Fin 2) (off : BitVec 32) (s : State) : Outcome State Fault Refusal := .next (s.norWrite src 1 dev off)
def execNorProgram (src : Src) (dev : Fin 2) (off : BitVec 32) (s : State) : Outcome State Fault Refusal := .next (s.norWrite src 2 dev off)
def execNorErase (src : Src) (dev : Fin 2) (off : BitVec 32) (s : State) : Outcome State Fault Refusal := .next (s.norWrite src 3 dev off)
/-- A life-cycle request (R437 to R441). -/
def State.lcWrite (s : State) (src : Src) (op : Nat) (hash b : Burn) : State :=
  s.writeReg src F.PKG_LC_REQ_at (wordOf [(F.PKG_LC_REQ_OP, op), (F.PKG_LC_REQ_GO, 1)]) (burns hash b)
def execLcOpen (src : Src) (b : Burn) (s : State) : Outcome State Fault Refusal := .next (s.lcWrite src 1 .ok b)
def execLcSeal (src : Src) (hash b : Burn) (s : State) : Outcome State Fault Refusal := .next (s.lcWrite src 2 hash b)
def execLcReturn (src : Src) (b : Burn) (s : State) : Outcome State Fault Refusal := .next (s.lcWrite src 3 .ok b)
def execLcRetire (src : Src) (b : Burn) (s : State) : Outcome State Fault Refusal := .next (s.lcWrite src 5 .ok b)
def execLcRevoke (src : Src) (b : Burn) (s : State) : Outcome State Fault Refusal := .next (s.lcWrite src 6 .ok b)

end Sys2Proof.Machine
end

