-- ==== Sys2Proof/Machine/Counter.lean ====
section
/-! DEFINITION. The performance counters' own commands (spec/17 R475 to R482): overflows, captures and their records, and the writes
that meet counts. -/

namespace Sys2Proof.Machine

open Host (Outcome)

/-- Counter n counts now, on an event of its own or, for a chained upper half, on carries (R473, R475). -/
def State.ctrLive (s : State) (c : Cell) (n : Nat) : Bool := s.ctrRuns c n && s.rd (F.CTR_CFG_EVT c n) != 0 && !(n % 2 == 1 && s.ctrChained c n)
/-- Adds a cycle's increment to a counter that counts. -/
def State.ctrCount (s : State) (c : Cell) (n k : Nat) : State := if s.ctrLive c n ∧ !s.cellFenced c then s.ctrAdd c n k else s
/-- The counter, or the pair whose lower half it is, wraps with an increment. -/
def State.ctrWraps (s : State) (c : Cell) (n k : Nat) : Bool :=
  2 ^ 32 ≤ s.rd (F.CTR_VAL_VALUE c n) + k
    && (!(n % 2 == 0 && s.ctrChained c n) || (s.rd (F.CTR_VAL_VALUE c (n + 1)) == 2 ^ 32 - 1 && s.ctrRuns c (n + 1)))
/-- CTR_OVERFLOW (R475, R478). -/
def execCtrOverflow (c : Cell) (n : Fin 8) (inc : Fin 1025) (s : State) : Outcome State Fault Refusal :=
  .next (if s.ctrWraps c n inc then s.ctrCount c n inc else s)
/-- The words of a counter sample record (Table 17-2). -/
def State.ctrRecord (s : State) (c : Cell) (t m : Nat) : List Nat :=
  let (lost, lm) := mgetD (0, 0) s.ctr.lost c.val
  let v (n : Nat) : Nat := s.rd (F.CTR_VAL_VALUE c n)
  let h := mgetD 0 s.ctr.header c.val
  [s.ns, mgetD 0 s.ctr.seq c.val + c.val * 2 ^ 32 + (m ||| lm) * 2 ^ 40 + min 8 (s.cyc - t) * 2 ^ 48 + lost * 2 ^ 56,
    v 0 + v 1 * 2 ^ 32, v 2 + v 3 * 2 ^ 32, v 4 + v 5 * 2 ^ 32, v 6 + v 7 * 2 ^ 32, h % 2 ^ 64, h / 2 ^ 64 % 2 ^ 64]
/-- The record goes into the cell's ring, if it has room (R479). -/
def State.ctrRing (s : State) (c : Cell) (ws : List Nat) : State :=
  let w := s.rd (F.CTR_SREC_PTR_WR_IDX c)
  if (w + 1) % 8 = s.rd (F.CTR_SREC_PTR_RD_IDX c) then s.sat (F.CTR_SREC_PTR_RING_DROPPED c)
  else
    let s := (List.range 8).foldl (fun (s : State) n => s.wr (F.CTR_SREC_REC c w n) (ws.getD n 0)) s
    s.wr (F.CTR_SREC_PTR_WR_IDX c) ((w + 1) % 8)
/-- CTR_CAPTURE (R478, R479). -/
def execCtrCapture (c : Cell) (sampBusy : Bool) (s : State) : Outcome State Fault Refusal :=
  .next <|
    match mget s.ctr.capture c.val with
    | none => s
    | some (t, m) =>
      let ws := s.ctrRecord c t m
      let s := (s.ctrRing c ws).inc (F.CTR_SREC_PTR_TAKEN c)
      let s := { s with
        ctr.capture := mdel s.ctr.capture c.val, ctr.lost := mdel s.ctr.lost c.val, ctr.record := mput s.ctr.record c.val ws
        ctr.seq := mset 0 s.ctr.seq c.val ((mgetD 0 s.ctr.seq c.val + 1) % 2 ^ 32) }
      if sampBusy then s else s.sendHist c
/-- CTR_VAL_WRITE (R477): the write first, and the cycle's increment on it. -/
def execCtrValWrite (src : Src) (c : Cell) (n : Fin 8) (v : BitVec 32) (inc : Fin 1025) (s : State) : Outcome State Fault Refusal :=
  .next ((s.writeReg src (F.CTR_VAL_at c n) (v.setWidth 64) (burns .ok .ok)).ctrCount c n inc)
/-- CTR_PAIR_WRITE (R476, R477). -/
def execCtrPairWrite (src : Src) (c : Cell) (j : Fin 4) (v : Word) (incLo incHi : Fin 1025) (s : State) : Outcome State Fault Refusal :=
  .next (((s.writeReg src (F.CTR_PAIR_at c j) v (burns .ok .ok)).ctrCount c (2 * j.val) incLo).ctrCount c (2 * j.val + 1) incHi)
/-- A write of CTR_CTL that keeps EN and SNAP_ARM. -/
def State.ctrCtl (s : State) (src : Src) (c : Cell) (freeze snap : Nat) : State :=
  s.writeReg src (F.CTR_CTL_at c)
    (wordOf [(F.CTR_CTL_EN c, s.rd (F.CTR_CTL_EN c)), (F.CTR_CTL_SNAP_ARM c, s.rd (F.CTR_CTL_SNAP_ARM c)), (F.CTR_CTL_FREEZE c, freeze),
      (F.CTR_CTL_SNAP c, snap)]) (burns .ok .ok)
/-- CTR_FREEZE_WRITE. -/
def execCtrFreezeWrite (src : Src) (c : Cell) (v : Bool) (s : State) : Outcome State Fault Refusal := .next (s.ctrCtl src c v.toNat 0)
/-- CTR_SNAP (R480). -/
def execCtrSnap (src : Src) (c : Cell) (s : State) : Outcome State Fault Refusal :=
  .next (s.ctrCtl src c (s.rd (F.CTR_CTL_FREEZE c)) 1)
/-- CTR_SNAP_AT_REACHED: the armed snapshot, at its time or at the cell's wake after it. -/
def execCtrSnapAtReached (c : Cell) (s : State) : Outcome State Fault Refusal :=
  .next <|
    if s.rdb (F.CTR_CTL_SNAP_ARM c) ∧ s.domain (3 * c.val) = 1 ∧ s.rd (F.CTR_SNAP_AT_SNAP_AT c) ≤ s.ns ∧ !s.cellFenced c then
      (s.ctrSnap c).wr (F.CTR_CTL_SNAP_ARM c) 0
    else s
/-- CTR_PERM bit b of an instance's template (R482). -/
def State.ctrGrant (s : State) (i b : Nat) : Bool := (mgetD 0 s.img.ctrPerm i).testBit b
/-- A tenant's SNAP is honoured where it may read some count. -/
def State.tenantSnap (s : State) (i : Nat) : State := if s.ctrGrant i 1 ∨ s.ctrGrant i 2 then s.instSnap i else s
/-- INST_CTR_SNAP, by a register path or by the tenant. -/
def execInstCtrSnap (by_ : Option Src) (i : Inst) (s : State) : Outcome State Fault Refusal :=
  .next <|
    match by_ with
    | some src => s.writeReg src (F.INST_CTR_CTL_at i) (wordOf [(F.INST_CTR_CTL_SNAP i, 1)]) (burns .ok .ok)
    | none => s.tenantSnap i

end Sys2Proof.Machine
end

