-- ==== Sys2Proof/Machine/CxlIo.lean ====
section
/-! DEFINITION. A host's CXL.io requests (spec/08 R218 to R222, spec/03 R80, spec/17 R482): what the virtual switch and the virtual
devices answer, a tenant's accesses to its instance window, and requests for a pass-through device. -/

namespace Sys2Proof.Machine

open Host (Outcome)

/-- The instance bound to a vPPB. -/
def State.vppbInst (s : State) (a : Cell) (v : Fin 64) : Option Inst :=
  if s.rd (F.INST_VPPB_KIND a v) = 1 then some (Fin.ofNat 4096 (s.rd (F.INST_VPPB_TARGET a v))) else none
/-- A completion by the INST endpoint of the anchor: it waits in a slot of the anchor until it departs (R79, R80). -/
def State.vcsAnswer (s : State) (a : Cell) (data : List Nat) (ur : Bool := false) : State :=
  (s.answerHere a a { opc := .cxlio, tc := 2 } s.cyc (.vcs data ur) false true).portCredit a
/-- What the tenant reads at an offset of its window: counts that its template does not grant are zero (R482), and so is the manager
side. -/
def State.tenantRead (s : State) (i : Inst) (o : Nat) : Word :=
  let hidden := 0x800 ≤ o || (0x50 ≤ o && o < 0x68 && !s.ctrGrant i 1) || (0x68 ≤ o && o < 0x78 && !s.ctrGrant i 2)
  if hidden then 0 else s.look (0x20000000 + i.val * 0x1000 + o)
/-- What a tenant's write to its window does: fields act under their kinds (R19), SNAP as its template allows. An access that is misaligned, or
at an offset without a register, makes no access record: Table 16-6 has no SOURCE for a tenant (DESIGN CHOICE, log 116). -/
def State.tenantWrite (s : State) (i : Inst) (o : Nat) (w : Word) : State :=
  let a := 0x20000000 + i.val * 0x1000 + o
  if 0x800 ≤ o then s
  else match regAt a with
    | none => s
    | some (r, _) =>
      let l := s.attempts a r w
      let pulses := l.filter (fun (x : Attempt) => x.f.kind = .pulse)
      let s := s.act .sp a (l.filter (fun (x : Attempt) => x.f.kind ≠ .pulse)) (burns .ok .ok)
      if pulses.isEmpty then s else if o = 0x40 then s.tenantSnap i else if o = 0x110 then s.copyOp i true else s
/-- A request goes on toward the DEVICE port e, from the slot cell of R80, if that has a slot free (R81). -/
def State.forwardIo (s : State) (a e : Cell) (hpa : BitVec 52) (data : List Line) : State := s.passIn a e .cxlio 2 hpa 0 data none s.cyc
/-- The HDM decoders of a virtual device, or of a pass-through device, as the host now has them. -/
def State.setDecoders (s : State) (a : Cell) (same : Hdm → Bool) (new : List Hdm) : State :=
  { s with pool.hdm := mmod [] s.pool.hdm a.val (fun (h : List Hdm) => h.filter (fun (x : Hdm) => !same x) ++ new) }
/-- The INST endpoint of the anchor answers this request itself, and so needs a slot there (R79, R81). -/
def State.instAnswers (s : State) (a : Cell) (r : IoReq) : Bool :=
  match r with
  | .slotDisable _ | .window _ _ _ | .config none => true
  | .config (some v) | .decoders v _ | .device v _ _ => (s.vppbDevice a v).isNone
  | .cpl _ _ _ => false
/-- What a host reads of the virtual device of an instance (R222, R245): presence; a Type 3 device with Dynamic Capacity and two regions; of each
region its base, its length and its block of 1 GiB, region 1 of zero length without a group; then the extents of each. The list is the model's own form
of that configuration (DESIGN CHOICE, log 143). -/
def State.dcConfig (s : State) (i : Nat) : List Nat :=
  let p := (s.owner i).exts
  let g := (s.ownerKey i 1).elim [] (fun g => (s.owner g).exts)
  [1, 3, 2, 0, p.length * 2 ^ 30, 2 ^ 30, 2 ^ 46, g.length * 2 ^ 30, 2 ^ 30] ++ p ++ g
/-- A CXL.io request at a HOST port. -/
def State.hostIo (s : State) (a : Cell) (r : IoReq) : State :=
  if s.instAnswers a r && (s.firstSlot a).isNone then s
  else match r with
  | .cpl v g data =>
    (match s.vppbDevice a v with
      | some e => s.passIn a e .cxlio 2 0 0 data (some { g with final := true }) s.cyc
      | none => s)
  | .slotDisable v => (s.slotOff a v).vcsAnswer a []
  | .decoders v l =>
    (match s.vppbDevice a v with
      | some e =>
        (s.setDecoders a (fun x => x.dev == some e) (l.map (fun (x : BitVec 52 × BitVec 52 × BitVec 52) =>
          ({ inst := 0, dev := some e, base := x.1, size := x.2.1, dpa := x.2.2 } : Hdm)))).forwardIo a e 0 []
      | none => match s.vppbInst a v with
        | none => s.vcsAnswer a [] true
        | some i =>
          (s.setDecoders a (fun x => x.dev.isNone && x.inst == i) (l.map (fun (x : BitVec 52 × BitVec 52 × BitVec 52) =>
            ({ inst := i, base := x.1, size := x.2.1, dpa := x.2.2 } : Hdm)))).vcsAnswer a [])
  | .config none => s.vcsAnswer a []
  | .config (some v) =>
    (match s.vppbDevice a v with
      | some e => s.forwardIo a e 0 []
      | none => s.vcsAnswer a ((s.vppbInst a v).elim [0] (fun i => s.dcConfig i)))
  | .window v o w =>
    (match s.vppbInst a v with
      | none => s.vcsAnswer a [] true
      | some i => match w with
        | none => s.vcsAnswer a [(s.tenantRead i o.val).toNat]
        | some w => (s.tenantWrite i o.val w).vcsAnswer a [])
  | .device v hpa data =>
    (match s.vppbDevice a v with
      | none => s.vcsAnswer a [] true
      | some e => s.forwardIo a e hpa data)
/-- HOST_CXL_IO_REQUEST: a stopping module takes none, and one in MAINTENANCE lets requests to a paused port wait (R471). -/
def execHostCxlIoRequest (a : Cell) (r : IoReq) (s : State) : Outcome State Fault Refusal :=
  .next (if s.mode = .safeStop ∨ s.pool.paused.contains a.val then s else s.hostIo a r)

end Sys2Proof.Machine
end

