-- ==== Sys2Proof/Machine/Manager.lean ====
section
/-! DEFINITION. The manager's protocols (spec/16 R453 to R460): ZMP frames, MCTP messages, and the lease they acquire, renew and
release. -/

namespace Sys2Proof.Machine

open Host (Outcome)

/-- Payload of ACQUIRE, RENEW and RELEASE: GRANTED, and the PATH, CLIENT and REMAIN_MS of the holder. -/
def State.leaseAnswer (s : State) (src : Src) : List Nat :=
  match s.mgr.holder with
  | none => [0]
  | some h => [(h == src).toNat + srcCode h * 2 ^ 8 + s.mgr.client * 2 ^ 16 + s.leaseLeft * 2 ^ 32]
/-- ACQUIRE: a free lease is granted to an origin that PATHS permits, outside SEALED_HALT; the holder's restarts (R459). -/
def State.acquire (s : State) (src : Src) (client : Nat) : State :=
  match s.mgr.holder with
  | none => if s.pathOk src && s.mode != .sealedHalt then s.grantLease src client else s
  | some h => if h = src then s.grantLease src client else s
/-- RENEW, by the holder only. -/
def State.renew (s : State) (src : Src) (client : Nat) : State := if s.holds src then s.grantLease src client else s
/-- RELEASE, by the holder only. -/
def State.giveUp (s : State) (src : Src) : State := if s.holds src then s.loseLease else s
/-- COUNT registers from an address, each judged by itself (R454). -/
def State.readMany (s : State) (src : Src) : Nat → Nat → List Nat × State
  | _, 0 => ([], s)
  | a, n + 1 =>
    let (w, s) := s.readBy src a
    let (l, s) := s.readMany src (a + 8) n
    (w.toNat :: l, s)
/-- Registers from an address are written in ascending order (R454). -/
def State.writeMany (s : State) (src : Src) : Nat → List Word → State
  | _, [] => s
  | a, w :: l => (s.writeDraw src a w).writeMany src (a + 8) l
/-- TYPE of a request (Table 16-2). -/
def zmpType : ZmpReq → Nat
  | .acquire _ => 1 | .renew _ => 2 | .release _ => 3 | .read _ _ => 4 | .write _ _ => 5 | .ping => 7
/-- COUNT lies between 1 and 64. -/
def zmpCount : ZmpReq → Bool
  | .read _ n => 1 ≤ n.toNat && n.toNat ≤ 64
  | .write _ l => 1 ≤ l.length && l.length ≤ 64
  | _ => true
/-- What a request does, and the payload of its response. -/
def State.zmpDo (s : State) (src : Src) (r : ZmpReq) : List Nat × State :=
  match r with
  | .acquire c => let s := s.acquire src c.toNat; (s.leaseAnswer src, s)
  | .renew c => let s := s.renew src c.toNat; (s.leaseAnswer src, s)
  | .release _ => let s := s.giveUp src; (s.leaseAnswer src, s)
  | .read a n => s.readMany src a.toNat n.toNat
  | .write a l => ([], s.writeMany src a.toNat l)
  | .ping => ([(s.look F.PKG_MODE_at).toNat], s)
/-- A response leaves, and is counted. -/
def State.zmpAnswer (s : State) (src : Src) (typ seq status : Nat) (payload : List Nat) : State :=
  (s.inc F.MGR_ZMP_CNT_ANSWERED).emit (.zmp src (typ + 128) seq status payload)
/-- The stored response to a request (R455). -/
def State.stored (s : State) (src : Src) (typ seq : Nat) : Option Answer :=
  s.mgr.answers.find? (fun (a : Answer) => a.src == src && a.typ == typ && a.seq == seq)
/-- A request is answered: BUSY, BAD_FRAME, again from the store, or after its execution (R453 to R456). -/
def State.zmpRun (s : State) (src : Src) (x : ZmpIn) (typ : Nat) (count : Bool) (k : State → List Nat × State) : State :=
  let seq := x.seq.toNat
  if !x.frameOk then s
  else if x.busy then (s.sat F.MGR_ZMP_CNT_BUSY).zmpAnswer src typ seq 1 []
  else if !x.valid || !count then s.zmpAnswer src typ seq 2 []
  else match s.stored src typ seq with
    | some a => (s.sat F.MGR_ZMP_CNT_REPLAYED).zmpAnswer src typ seq 0 (a.payload.map (fun (w : BitVec 64) => w.toNat))
    | none =>
      let (l, s) := k s
      let a : Answer := { src := src, seq := seq, typ := typ, payload := l.map (BitVec.ofNat 64) }
      { s with mgr.answers := (a :: s.mgr.answers).take 8 }.zmpAnswer src typ seq 0 l
/-- A ZMP request other than MCTP. -/
def State.zmpReq (s : State) (src : Src) (x : ZmpIn) (r : ZmpReq) : State :=
  s.zmpRun src x (zmpType r) (zmpCount r) (fun s => s.zmpDo src r)
/-- An MCTP control message (R457): answered; it can reassign the EID that holds the lease (R460). -/
def State.mctpControl (s : State) (src : Src) (c : MctpCtl) : State :=
  let k (s : State) : State :=
    let s := match c with
      | .reassign e =>
        (match s.mgr.holder, src with
          | some (.mctp p h), .mctp q _ => if p = q ∧ h = e then s.loseLease else s
          | _, _ => s)
      | .other => s
    s.emit (.mctp src)
  match src with
  | .mgr => k s
  | .mctp _ _ => if s.pathOk src then k s else s
  | _ => s
/-- A vendor-defined message (R457): a ZMP frame without its CRC. Executing it acquires a free lease (R459). -/
def State.mctpVendor (s : State) (src : Src) (x : ZmpIn) (r : ZmpReq) : State :=
  s.mctpIn src fun s => s.zmpRun src x (zmpType r) (zmpCount r) (fun s => (s.fmLease src).zmpDo src r)
/-- An MCTP message by its type. -/
def State.mctpMsg (s : State) (src : Src) (m : MctpMsg) : State :=
  match m with
  | .control c => s.mctpControl src c
  | .fm c => s.fmCmd src c
  | .vendor x r => s.mctpVendor src x r
  | .other _ => s.sat F.MGR_ZMP_CNT_DROPPED

/-- ZMP frames on the manager port; the lease and the port's logic stand in the Rind domain. -/
def execZmpAcquire (x : ZmpIn) (client : BitVec 16) (s : State) : Outcome State Fault Refusal :=
  .next (s.onRind fun s => s.zmpReq .mgr x (.acquire client))
def execZmpRenew (x : ZmpIn) (client : BitVec 16) (s : State) : Outcome State Fault Refusal :=
  .next (s.onRind fun s => s.zmpReq .mgr x (.renew client))
def execZmpRelease (x : ZmpIn) (client : BitVec 16) (s : State) : Outcome State Fault Refusal :=
  .next (s.onRind fun s => s.zmpReq .mgr x (.release client))
def execZmpRead (x : ZmpIn) (addr : BitVec 32) (count : BitVec 16) (s : State) : Outcome State Fault Refusal :=
  .next (s.onRind fun s => s.zmpReq .mgr x (.read addr count))
def execZmpWrite (x : ZmpIn) (addr : BitVec 32) (data : List Word) (s : State) : Outcome State Fault Refusal :=
  .next (s.onRind fun s => s.zmpReq .mgr x (.write addr data))
/-- TYPE 0x06 carries one MCTP packet; its answer travels by itself. -/
def execZmpMctp (x : ZmpIn) (m : MctpMsg) (s : State) : Outcome State Fault Refusal :=
  .next (s.onRind fun s => s.zmpRun .mgr x 6 true (fun s => ([], s.mctpMsg .mgr m)))
def execZmpPing (x : ZmpIn) (s : State) : Outcome State Fault Refusal := .next (s.onRind fun s => s.zmpReq .mgr x .ping)
/-- MCTP messages. -/
def execMctpControl (src : Src) (c : MctpCtl) (s : State) : Outcome State Fault Refusal :=
  .next (s.onRind fun s => s.mctpControl src c)
def execMctpVendorZmp (src : Src) (x : ZmpIn) (r : ZmpReq) (s : State) : Outcome State Fault Refusal :=
  .next (s.onRind fun s => s.mctpVendor src x r)
/-- LEASE_EXPIRY: LEASE_MS ends without a renewal (R459, R460). -/
def execLeaseExpiry (s : State) : Outcome State Fault Refusal :=
  .next (s.onRind fun s => if s.mgr.leaseEnd ≤ s.wall then s.loseLease else s)

end Sys2Proof.Machine
end

