-- ==== Sys2Proof/Machine/Debug.lean ====
section
/-! DEFINITION. The JTAG TAP (spec/15 R443 to R446), boundary scan and the sideband outputs (spec/18 R490 to R495), fuse programming
(spec/15 R437), and the SPDM responder (spec/15 R449 to R451). -/

namespace Sys2Proof.Machine

open Host (Outcome)

/-! ### Instructions and pins -/

/-- EXTEST, SAMPLE/PRELOAD, CLAMP and HIGHZ are permitted (R444). -/
def State.scanOk (s : State) : Bool := s.mode == .dormant || s.mode == .sealedHalt || s.mode == .returnTest
/-- The instruction with a code that takes an update or drives pins now: BYPASS where the state does not permit it (R443, R495). -/
def State.scanIr (s : State) : Nat :=
  let c := s.jtag.ir.toNat
  if 2 ≤ c ∧ c ≤ 5 ∧ !s.scanOk then 0xFF else c
/-- The level of an open-drain output: its output cell under EXTEST and CLAMP, released under HIGHZ, else its function. -/
def State.pinLevel (s : State) (cell : Nat) (function : Bool) : Bool :=
  if s.scanIr = 3 ∨ s.scanIr = 4 then s.jtag.bsr.getLsbD cell else if s.scanIr = 5 then true else function
/-- PWRGD is high: the controller asserts it. It is held low while Rind is not running (R490). -/
def State.pinPwrgd (s : State) : Bool := s.pwr.rind && s.pinLevel 5 (s.rdb F.RIND_PWR_STATUS_PWRGD)
/-- THERM_N is high: nothing asks for airflow, or Rind is not running (R490, R499). -/
def State.pinThermN (s : State) : Bool := !s.pwr.rind || s.pinLevel 7 (!s.therm.asserted)
/-- What the boundary-scan cells capture (Table 18-10). What an output cell captures is open. -/
def State.scanCapture (s : State) (free : Nat) : Nat :=
  let pin (low : Bool) : Nat := (!low).toNat
  pin (s.rdb F.RIND_PWR_STATUS_ENABLE) + pin (s.rdb F.RIND_PWR_STATUS_FEEDWARN) * 2 + pin (s.rdb F.RIND_PWR_STATUS_SENSE_L) * 4
    + pin (s.rdb F.RIND_PWR_STATUS_SENSE_M) * 8 + pin (s.rdb F.RIND_PWR_STATUS_SENSE_S) * 16 + free % 2 * 32
    + s.pinPwrgd.toNat * 64 + free / 2 % 2 * 128 + s.pinThermN.toNat * 256
/-- Selects an instruction. -/
def State.setIr (s : State) (c : Nat) : State := { s with jtag.ir := BitVec.ofNat 8 c }
/-- A scan of the 1-bit bypass register. -/
def State.bypass (s : State) : State := s.emit (.tdo 0xFF 0)
/-- An instruction is selected and its data register scanned; one that the state does not permit acts as BYPASS. -/
def State.jtagRun (s : State) (c : Nat) (ok : Bool) (k : State → State) : State :=
  s.onRind fun s =>
    let s := s.setIr c
    if ok then k s else s.bypass
/-- A scan of the boundary-scan register: capture, then update. -/
def State.scan (s : State) (v : BitVec 9) : State :=
  let (n, s) := s.fresh
  { s.emit (.tdo s.jtag.ir.toNat (s.scanCapture (Config.freeRandom n))) with jtag.bsr := v }

/-- JTAG_RESET. -/
def execJtagReset (s : State) : Outcome State Fault Refusal := .next (s.onRind fun s => s.setIr 0x01)
/-- JTAG_IDCODE. -/
def execJtagIdcode (s : State) : Outcome State Fault Refusal :=
  .next (s.jtagRun 0x01 true fun s => s.emit (.tdo 0x01 0x196805C7))
/-- JTAG_SAMPLE_PRELOAD. -/
def execJtagSamplePreload (v : BitVec 9) (s : State) : Outcome State Fault Refusal := .next (s.jtagRun 0x02 s.scanOk fun s => s.scan v)
/-- JTAG_EXTEST. -/
def execJtagExtest (v : BitVec 9) (s : State) : Outcome State Fault Refusal := .next (s.jtagRun 0x03 s.scanOk fun s => s.scan v)
/-- JTAG_CLAMP and JTAG_HIGHZ, with the bypass register. -/
def execJtagClamp (s : State) : Outcome State Fault Refusal := .next (s.jtagRun 0x04 s.scanOk fun s => s.emit (.tdo 0x04 0))
def execJtagHighz (s : State) : Outcome State Fault Refusal := .next (s.jtagRun 0x05 s.scanOk fun s => s.emit (.tdo 0x05 0))
/-- JTAG_BYPASS. -/
def execJtagBypass (s : State) : Outcome State Fault Refusal := .next (s.jtagRun 0xFF true State.bypass)

/-! ### DBG_ACC and DBG_SP (Table 15-14) -/

/-- A DBG_ACC operation shifts out the data of the last read. -/
def State.dbgShift (s : State) : State := (s.inc F.PKG_DEBUG_DBG_ACCESSES).emit (.tdo 0x20 s.jtag.data.toNat)
/-- DBG_ACC_READ. -/
def execDbgAccRead (addr : BitVec 32) (s : State) : Outcome State Fault Refusal :=
  .next (s.jtagRun 0x20 true fun s =>
    let (w, s) := s.dbgShift.readBy .jtag addr.toNat
    { s with jtag.data := w })
/-- DBG_ACC_WRITE. -/
def execDbgAccWrite (addr : BitVec 32) (data : Word) (s : State) : Outcome State Fault Refusal :=
  .next (s.jtagRun 0x20 true fun s => s.dbgShift.writeDraw .jtag addr.toNat data)
/-- DBG_SP: what a service processor's memory holds, and what a step or a write does there, is its firmware's. -/
def State.spDo (s : State) (d : Die) (op : SpOp) : State :=
  match op with
  | .halt => if s.jtag.halted.contains d then s else { s with jtag.halted := d :: s.jtag.halted }
  | .step => s
  | .read _ => let (n, s) := s.fresh; s.emit (.spMem d (Config.freeRandom n % 2 ^ 64))
  | .write _ _ => s
def execDbgSp (sp : Fin 2) (op : SpOp) (s : State) : Outcome State Fault Refusal :=
  .next (s.jtagRun 0x21 s.lcOpen fun s => if s.domain (428 + sp.val) = 1 then s.spDo (if sp = 0 then 0 else 7) op else s)

/-! ### Maker instructions -/

/-- FUSE_PROG in MAKER_BLANK and SEALED_HALT: serial number and root device key are drawn and fused, then the state bit; a bit that
reads clear leaves the state (R436, R437). In MAKER_TEST there is no transition for it. -/
def State.fuseProg (s : State) (b : Burn) : State :=
  if s.rd F.PKG_LC_CODE ≠ 0x01 ∨ s.mode ≠ .sealedHalt then s
  else
    let s := match s.img.rootKey with
      | some _ => s
      | none =>
        let (n, s) := s.fresh
        { s with img.rootKey := some n }.drawWords F.PKG_SERIAL_SERIAL 2
    let s := s.burned 0 b
    if b = .failed then s else s.setLc 0x03 0 0x03 0
def execFuseProg (b : Burn) (s : State) : Outcome State Fault Refusal :=
  .next (s.jtagRun 0x40 (s.rd F.PKG_LC_CODE == 0x01 || s.rd F.PKG_LC_CODE == 0x03) fun s => s.fuseProg b)
/-- Claca's test modes open in MAKER_TEST, RETURNED and RETIRED (Table 15-15). -/
def State.makerOk (s : State) : Bool := [0x03, 0x1F, 0x3F].contains (s.rd F.PKG_LC_CODE)
/-- MAKER_PRIVATE: BYPASS where it is not permitted; the spec does not say what it does where it is. -/
def execMakerPrivate (n : Fin 127) (s : State) : Outcome State Fault Refusal :=
  if s.pwr.rind && s.makerOk then .refused .makerPrivate else .next (s.jtagRun (0x80 + n.val) false id)

/-! ### SPDM (R449 to R451) -/

/-- The upstream port of a HOST port's VCS answers SPDM. -/
def State.spdmAt (s : State) (a : Cell) (k : State → State) : State :=
  if s.roleOf a = .host ∧ s.isAnchor a = true ∧ portsOn s.mode = true then k s else s
/-- The identity key signs: it exists from MAKER_TEST on, and not in RETIRED. -/
def State.canSign (s : State) : Bool := s.rd F.PKG_LC_CODE != 0x3F && s.rd F.PKG_LC_CODE != 0x01 && s.img.rootKey.isSome
/-- A request that needs a signature joins the queue of 16, or is answered with an error. -/
def State.spdmSign (s : State) (a : Cell) (g : SignFor) : State :=
  if !s.canSign then s.emit (.spdm a .unspecified [])
  else if s.spdm.queue.length ≥ 16 then s.emit (.spdm a .notReady [])
  else { s with spdm.queue := s.spdm.queue ++ [(a, g)] }
/-- A measurement of Table 15-17. -/
def State.measurement (s : State) (n : Nat) : Nat :=
  let img (f : Image → BitVec 384) : Nat := (s.img.image.map (fun (x : Image) => (f x).toNat)).getD 0
  match n with
  | 1 => img (·.payload)
  | 2 => img (·.digest)
  | 3 => img (·.keyHash)
  | 4 => img (·.policy)
  | 5 => s.rd F.PKG_LC_CODE + s.rd F.PKG_IMAGE_FW_SVN * 2 ^ 8 + s.rd F.PKG_IMAGE_MIN_SVN * 2 ^ 16 + s.rd F.PKG_IMAGE_SLOT * 2 ^ 24
      + s.rd F.PKG_LC_REVOKED * 2 ^ 32
  | _ => Config.romHash.toNat
/-- The measurements that an index asks for: 0 their number, 0xFF all. -/
def State.measure (s : State) (n : Nat) : List Nat := if n = 0 then [6] else if n = 0xFF then [1, 2, 3, 4, 5, 6].map s.measurement else [s.measurement n]
/-- SPDM_GET_VERSION: 1.3. -/
def execSpdmGetVersion (a : Cell) (s : State) : Outcome State Fault Refusal := .next (s.spdmAt a fun s => s.emit (.spdm a .version [0x13]))
/-- SPDM_GET_CAPABILITIES: CERT, CHAL, MEAS with signature, KEY_EX, ENCRYPT and MAC. -/
def execSpdmGetCapabilities (a : Cell) (s : State) : Outcome State Fault Refusal :=
  .next (s.spdmAt a fun s => s.emit (.spdm a .capabilities [1, 1, 1, 1, 1, 1]))
/-- SPDM_NEGOTIATE_ALGORITHMS: the four of R450. -/
def execSpdmNegotiateAlgorithms (a : Cell) (s : State) : Outcome State Fault Refusal :=
  .next (s.spdmAt a fun s => s.emit (.spdm a .algorithms [1, 1, 1, 1]))
/-- SPDM_GET_CERTIFICATE: slot 0 holds a chain of three certificates, the others are empty. -/
def execSpdmGetCertificate (a : Cell) (slot : Fin 8) (s : State) : Outcome State Fault Refusal :=
  .next (s.spdmAt a fun s => if slot = 0 then s.emit (.spdm a .certificate [3]) else s.emit (.spdm a .invalidRequest []))
/-- SPDM_CHALLENGE. -/
def execSpdmChallenge (a : Cell) (s : State) : Outcome State Fault Refusal := .next (s.spdmAt a fun s => s.spdmSign a .challenge)
/-- SPDM_GET_MEASUREMENTS. -/
def execSpdmGetMeasurements (a : Cell) (index : Fin 256) (sign : Bool) (s : State) : Outcome State Fault Refusal :=
  .next (s.spdmAt a fun s =>
    if index.val > 6 ∧ index.val ≠ 0xFF then s.emit (.spdm a .invalidRequest [])
    else if sign then s.spdmSign a (.measurements index.val)
    else s.emit (.spdm a .measurements (s.measure index.val)))
/-- SPDM_KEY_EXCHANGE. -/
def execSpdmKeyExchange (a : Cell) (s : State) : Outcome State Fault Refusal := .next (s.spdmAt a fun s => s.spdmSign a .keyExchange)
/-- SPDM_SIGN_COMPLETE: the oldest request is answered; a key exchange opens a session. -/
def execSpdmSignComplete (s : State) : Outcome State Fault Refusal :=
  .next <|
    match s.spdm.queue with
    | [] => s
    | (a, g) :: l =>
      let s := { s with spdm.queue := l }
      match g with
      | .challenge => s.emit (.spdm a .challengeAuth [])
      | .measurements n => s.emit (.spdm a .measurements (s.measure n))
      | .keyExchange =>
        { s with spdm.sessions := if s.spdm.sessions.contains a then s.spdm.sessions else a :: s.spdm.sessions }.emit (.spdm a .keyExchange [])

end Sys2Proof.Machine
end

