-- ==== Sys2Proof/Machine/Thermal.lean ====
section
/-! DEFINITION. The temperature sensors (spec/18 R498, R499). -/

namespace Sys2Proof.Machine

open Host (Outcome)

/-- THERMAL_WARN. -/
def State.warm (s : State) (x : Fin 52) : State :=
  { s with therm.warm := if s.therm.warm.contains x then s.therm.warm else x :: s.therm.warm, therm.asserted := true }
def execThermalWarn (x : Fin 52) (s : State) : Outcome State Fault Refusal := .next (s.onRind fun s => s.warm x)
/-- THERMAL_RELEASE: every sensor has been 5 °C below its warn threshold for two samples. -/
def execThermalRelease (s : State) : Outcome State Fault Refusal :=
  .next (s.onRind fun s => { s with therm.warm := [], therm.asserted := false })
/-- What a sensor watches: four sensors to a die, one to a stack, and two regulator phase groups to a die (DEDUCED). -/
def sensorElem (x : Fin 52) : Elem :=
  if x.val < 32 then .die (Fin.ofNat 8 (x.val / 4)) else if x.val < 36 then .stack (Fin.ofNat 4 (x.val - 32))
  else .die (Fin.ofNat 8 ((x.val - 36) / 2))
/-- The element runs: its spine, or its PHY, is powered, and it is not fenced. -/
def State.runs_ (s : State) : Elem → Bool
  | .die d => s.domain (spineDom d) == 1 && !s.dieFenced d
  | .stack k => s.domain (424 + k.val) == 1 && !s.stackFenced k
  | _ => false
/-- Trips of one sample period (Table 18-12): each element that runs is faulted and noted once, so that one fence epoch takes them
all; a sensor beyond its trip threshold is beyond its warn threshold too. -/
def State.tripAll (s : State) (xs : List (Fin 52)) : State :=
  let s := xs.foldl State.warm s
  let s := { s with pwr.tripped := ((xs.filter (fun (x : Fin 52) => 36 ≤ x.val)).map (·.val) ++ s.pwr.tripped).dedup }
  let es := ((xs.map sensorElem).dedup).filter s.runs_
  es.foldl (fun (s : State) e => s.failElem e none (match e with | .stack _ => 0x0005 | _ => 0x0004) (elemNum e)) s
/-- THERMAL_TRIP. -/
def execThermalTrip (xs : List (Fin 52)) (s : State) : Outcome State Fault Refusal := .next (s.onRind fun s => s.tripAll xs)

end Sys2Proof.Machine
end

