-- ==== Sys2Proof/Machine/Dispatch.lean ====
section
/-! DEFINITION. What each command does to everything but the queue: one arm for each row of spec/opcode_table.json. -/

namespace Sys2Proof.Machine

def exec (i : Instr) (s : State) : Host.Outcome State Fault Refusal :=
  match i with
  | .enableNLowStart => Sys2Proof.Machine.execEnableNLowStart s
  | .imageLoadComplete sfdpA sfdpB => Sys2Proof.Machine.execImageLoadComplete sfdpA sfdpB s
  | .imageStaging clean => Sys2Proof.Machine.execImageStaging clean s
  | .selfTestComplete fails sp0 sp7 => Sys2Proof.Machine.execSelfTestComplete fails sp0 sp7 s
  | .rennetWrite c addr mask value => Sys2Proof.Machine.execRennetWrite c addr mask value s
  | .rennetCrcReport c => Sys2Proof.Machine.execRennetCrcReport c s
  | .rennetDistributionComplete => Sys2Proof.Machine.execRennetDistributionComplete s
  | .modeReqService src => Sys2Proof.Machine.execModeReqService src s
  | .modeReqDrowse src => Sys2Proof.Machine.execModeReqDrowse src s
  | .modeReqMaintenance src => Sys2Proof.Machine.execModeReqMaintenance src s
  | .modeReqSafeStop src => Sys2Proof.Machine.execModeReqSafeStop src s
  | .enableNHigh => Sys2Proof.Machine.execEnableNHigh s
  | .safeStopComplete => Sys2Proof.Machine.execSafeStopComplete s
  | .idlePolicyDrowse => Sys2Proof.Machine.execIdlePolicyDrowse s
  | .drowseWakeLimit => Sys2Proof.Machine.execDrowseWakeLimit s
  | .scrimUnitReceive c d p u ecc hcrcOk vcOk => Sys2Proof.Machine.execScrimUnitReceive c d p u ecc hcrcOk vcOk s
  | .scrimReplayRequest c d again => Sys2Proof.Machine.execScrimReplayRequest c d again s
  | .heartbeatSend c d => Sys2Proof.Machine.execHeartbeatSend c d s
  | .heartbeatTimeout c d => Sys2Proof.Machine.execHeartbeatTimeout c d s
  | .ucieLinkDown n => Sys2Proof.Machine.execUcieLinkDown n s
  | .fenceNote e => Sys2Proof.Machine.execFenceNote e s
  | .fenceMap c => Sys2Proof.Machine.execFenceMap c s
  | .fenceCompletionReport c => Sys2Proof.Machine.execFenceCompletionReport c s
  | .drainedReport c => Sys2Proof.Machine.execDrainedReport c s
  | .drainCommit c => Sys2Proof.Machine.execDrainCommit c s
  | .drainLimitExpiry c => Sys2Proof.Machine.execDrainLimitExpiry c s
  | .holdUnitArrival c p => Sys2Proof.Machine.execHoldUnitArrival c p s
  | .domainOnSignal c => Sys2Proof.Machine.execDomainOnSignal c s
  | .wakeFail c => Sys2Proof.Machine.execWakeFail c s
  | .lathLpEntry d e => Sys2Proof.Machine.execLathLpEntry d e s
  | .lathLpExit d e c p => Sys2Proof.Machine.execLathLpExit d e c p s
  | .seamTrainComplete n ok => Sys2Proof.Machine.execSeamTrainComplete n ok s
  | .scrimSnap c => Sys2Proof.Machine.execScrimSnap c s
  | .frameArrive c n o p got x => Sys2Proof.Machine.execFrameArrive c n o p got x s
  | .frameStart c x => Sys2Proof.Machine.execFrameStart c x s
  | .sampleCounterExpiry c o => Sys2Proof.Machine.execSampleCounterExpiry c o s
  | .xbarClrHwm c => Sys2Proof.Machine.execXbarClrHwm c s
  | .chunkGrant c n bad => Sys2Proof.Machine.execChunkGrant c n bad s
  | .lengthSlotAck c n => Sys2Proof.Machine.execLengthSlotAck c n s
  | .spillFetch c n => Sys2Proof.Machine.execSpillFetch c n s
  | .spillReadReturn c n r => Sys2Proof.Machine.execSpillReadReturn c n r s
  | .hbmWatchdogExpiry k => Sys2Proof.Machine.execHbmWatchdogExpiry k s
  | .spillCtxView0Read c => Sys2Proof.Machine.execSpillCtxView0Read c s
  | .spillXingClrHwm x => Sys2Proof.Machine.execSpillXingClrHwm x s
  | .gateBoundary c => Sys2Proof.Machine.execGateBoundary c s
  | .histPeriodEnd c sampBusy => Sys2Proof.Machine.execHistPeriodEnd c sampBusy s
  | .depthSample c => Sys2Proof.Machine.execDepthSample c s
  | .shpObsSnap c sampBusy => Sys2Proof.Machine.execShpObsSnap c sampBusy s
  | .skimYieldWindowEnd c => Sys2Proof.Machine.execSkimYieldWindowEnd c s
  | .rds p ecc => Sys2Proof.Machine.execRds p ecc s
  | .rda p ecc => Sys2Proof.Machine.execRda p ecc s
  | .rdi p ecc => Sys2Proof.Machine.execRdi p ecc s
  | .inva p ecc => Sys2Proof.Machine.execInva p ecc s
  | .wri p ecc => Sys2Proof.Machine.execWri p ecc s
  | .wra p ecc => Sys2Proof.Machine.execWra p ecc s
  | .wrptl p ecc => Sys2Proof.Machine.execWrptl p ecc s
  | .clnevct p ecc => Sys2Proof.Machine.execClnevct p ecc s
  | .specrd p => Sys2Proof.Machine.execSpecrd p s
  | .recallMsg p ecc => Sys2Proof.Machine.execRecall p ecc s
  | .homeChainStart h line => Sys2Proof.Machine.execHomeChainStart h line s
  | .biconf p => Sys2Proof.Machine.execBiconf p s
  | .mrd p => Sys2Proof.Machine.execMrd p s
  | .mspec p => Sys2Proof.Machine.execMspec p s
  | .wdata p => Sys2Proof.Machine.execWdata p s
  | .expanderReadData m acc raw st => Sys2Proof.Machine.execExpanderReadData m acc raw st s
  | .expanderWriteComplete m acc => Sys2Proof.Machine.execExpanderWriteComplete m acc s
  | .mflush p => Sys2Proof.Machine.execMflush p s
  | .dirrd p pri mir ns => Sys2Proof.Machine.execDirrd p pri mir ns s
  | .dirwr p ns => Sys2Proof.Machine.execDirwr p ns s
  | .dirdata p => Sys2Proof.Machine.execDirdata p s
  | .dirack p => Sys2Proof.Machine.execDirack p s
  | .grant p => Sys2Proof.Machine.execGrant p s
  | .rdata p => Sys2Proof.Machine.execRdata p s
  | .wgo p => Sys2Proof.Machine.execWgo p s
  | .wcmp p => Sys2Proof.Machine.execWcmp p s
  | .mcmp p => Sys2Proof.Machine.execMcmp p s
  | .done p => Sys2Proof.Machine.execDone p s
  | .rcmp p => Sys2Proof.Machine.execRcmp p s
  | .bisnpcur p => Sys2Proof.Machine.execBisnpcur p s
  | .bisnpdata p => Sys2Proof.Machine.execBisnpdata p s
  | .bisnpinv p => Sys2Proof.Machine.execBisnpinv p s
  | .bicack p => Sys2Proof.Machine.execBicack p s
  | .hostBirsp a t mv => Sys2Proof.Machine.execHostBirsp a t mv s
  | .hostBiconflict a addr => Sys2Proof.Machine.execHostBiconflict a addr s
  | .birsp p => Sys2Proof.Machine.execBirsp p s
  | .snpTimeoutExpiry h hs => Sys2Proof.Machine.execSnpTimeoutExpiry h hs s
  | .dirLookup h => Sys2Proof.Machine.execDirLookup h s
  | .dirLookupComplete h => Sys2Proof.Machine.execDirLookupComplete h s
  | .homeTtClrHwm h => Sys2Proof.Machine.execHomeTtClrHwm h s
  | .fwd p => Sys2Proof.Machine.execFwd p s
  | .frsp p => Sys2Proof.Machine.execFrsp p s
  | .fkeep p => Sys2Proof.Machine.execFkeep p s
  | .proxyAgeCheck a => Sys2Proof.Machine.execProxyAgeCheck a s
  | .homeProxyClrHwm a => Sys2Proof.Machine.execHomeProxyClrHwm a s
  | .takeoverQuiesceComplete => Sys2Proof.Machine.execTakeoverQuiesceComplete s
  | .takeoverFlushComplete slow => Sys2Proof.Machine.execTakeoverFlushComplete slow s
  | .twinLossNote c hs => Sys2Proof.Machine.execTwinLossNote c hs s
  | .resilverBlockAck d => Sys2Proof.Machine.execResilverBlockAck d s
  | .hostRequestReceive a r => Sys2Proof.Machine.execHostRequestReceive a r s
  | .holdAdmit a => Sys2Proof.Machine.execHoldAdmit a s
  | .deviceRequestReceive c r => Sys2Proof.Machine.execDeviceRequestReceive c r s
  | .defaultMapFetchReturn n r k => Sys2Proof.Machine.execDefaultMapFetchReturn n r k s
  | .hostResponseDepart c k => Sys2Proof.Machine.execHostResponseDepart c k s
  | .slotHoldExpire c k => Sys2Proof.Machine.execSlotHoldExpire c k s
  | .fmGetVcsInfo src port => Sys2Proof.Machine.execFmGetVcsInfo src port s
  | .fmBindVppb src n port v => Sys2Proof.Machine.execFmBindVppb src n port v s
  | .fmUnbindVppb src port v mode => Sys2Proof.Machine.execFmUnbindVppb src port v mode s
  | .fmGetDcdInfo src => Sys2Proof.Machine.execFmGetDcdInfo src s
  | .fmGetHostDcRegionCfg src n => Sys2Proof.Machine.execFmGetHostDcRegionCfg src n s
  | .fmInitiateDcAdd src n r exts => Sys2Proof.Machine.execFmInitiateDcAdd src n r exts s
  | .fmInitiateDcRelease src n exts force => Sys2Proof.Machine.execFmInitiateDcRelease src n exts force s
  | .bind src n => Sys2Proof.Machine.execBind src n s
  | .unbindKeep src n => Sys2Proof.Machine.execUnbindKeep src n s
  | .unbindRelease src n => Sys2Proof.Machine.execUnbindRelease src n s
  | .dcAddResponse n exts => Sys2Proof.Machine.execDcAddResponse n exts s
  | .dcReleaseResponse n exts => Sys2Proof.Machine.execDcReleaseResponse n exts s
  | .portLinkUp c x => Sys2Proof.Machine.execPortLinkUp c x s
  | .hostLinkDown c => Sys2Proof.Machine.execHostLinkDown c s
  | .expanderLinkDown c => Sys2Proof.Machine.execExpanderLinkDown c s
  | .deviceLinkDown c => Sys2Proof.Machine.execDeviceLinkDown c s
  | .migPrepare src n => Sys2Proof.Machine.execMigPrepare src n s
  | .migMigrate src n => Sys2Proof.Machine.execMigMigrate src n s
  | .migAbort src n => Sys2Proof.Machine.execMigAbort src n s
  | .migSave src n => Sys2Proof.Machine.execMigSave src n s
  | .migRestore src n tagOk => Sys2Proof.Machine.execMigRestore src n tagOk s
  | .migFreezeDrained n => Sys2Proof.Machine.execMigFreezeDrained n s
  | .freezeLimitExpiry n => Sys2Proof.Machine.execFreezeLimitExpiry n s
  | .migSaveComplete n => Sys2Proof.Machine.execMigSaveComplete n s
  | .migRestoreComplete n => Sys2Proof.Machine.execMigRestoreComplete n s
  | .pressMoveGo src d => Sys2Proof.Machine.execPressMoveGo src d s
  | .pressAbort src d => Sys2Proof.Machine.execPressAbort src d s
  | .pressResilverStart e c x => Sys2Proof.Machine.execPressResilverStart e c x s
  | .pressBlockAck d p poisoned failed => Sys2Proof.Machine.execPressBlockAck d p poisoned failed s
  | .pressSourceDrained d => Sys2Proof.Machine.execPressSourceDrained d s
  | .copyGo src n => Sys2Proof.Machine.execCopyGo src n s
  | .copyPartComplete n p => Sys2Proof.Machine.execCopyPartComplete n p s
  | .brineComplete e => Sys2Proof.Machine.execBrineComplete e s
  | .mapNote c n => Sys2Proof.Machine.execMapNote c n s
  | .mapNoteComplete n => Sys2Proof.Machine.execMapNoteComplete n s
  | .zeroize c k => Sys2Proof.Machine.execZeroize c k s
  | .zeroizeComplete k => Sys2Proof.Machine.execZeroizeComplete k s
  | .keyGenerateComplete k equal => Sys2Proof.Machine.execKeyGenerateComplete k equal s
  | .keyload c k => Sys2Proof.Machine.execKeyload c k s
  | .healthTestFail drbg => Sys2Proof.Machine.execHealthTestFail drbg s
  | .secRotateGo src => Sys2Proof.Machine.execSecRotateGo src s
  | .rotationAgeCheck => Sys2Proof.Machine.execRotationAgeCheck s
  | .rekeyBlockAck e => Sys2Proof.Machine.execRekeyBlockAck e s
  | .barrierDrained c => Sys2Proof.Machine.execBarrierDrained c s
  | .barrierLimitExpiry c => Sys2Proof.Machine.execBarrierLimitExpiry c s
  | .ideKmKeySet p go => Sys2Proof.Machine.execIdeKmKeySet p go s
  | .ideIntegrityFailure p => Sys2Proof.Machine.execIdeIntegrityFailure p s
  | .laneFault l lock errs => Sys2Proof.Machine.execLaneFault l lock errs s
  | .widthReduceL0 c => Sys2Proof.Machine.execWidthReduceL0 c s
  | .refclkLoss d => Sys2Proof.Machine.execRefclkLoss d s
  | .refclkReturn d => Sys2Proof.Machine.execRefclkReturn d s
  | .l1Entry c => Sys2Proof.Machine.execL1Entry c s
  | .l1Exit c bad => Sys2Proof.Machine.execL1Exit c bad s
  | .testEnter src c => Sys2Proof.Machine.execTestEnter src c s
  | .testExit src c => Sys2Proof.Machine.execTestExit src c s
  | .widthRestore src c => Sys2Proof.Machine.execWidthRestore src c s
  | .injOne src l => Sys2Proof.Machine.execInjOne src l s
  | .injRateError l => Sys2Proof.Machine.execInjRateError l s
  | .chkEnSet src l => Sys2Proof.Machine.execChkEnSet src l s
  | .lanePrbsStatRead src l => Sys2Proof.Machine.execLanePrbsStatRead src l s
  | .loopbackSlaveEntry c => Sys2Proof.Machine.execLoopbackSlaveEntry c s
  | .mgrFrameReceive x2 whole skip0 skip1 => Sys2Proof.Machine.execMgrFrameReceive x2 whole skip0 skip1 s
  | .mgrSyncGain m => Sys2Proof.Machine.execMgrSyncGain m s
  | .mgrSyncLoss m viol disp => Sys2Proof.Machine.execMgrSyncLoss m viol disp s
  | .mgrClockCompSend => Sys2Proof.Machine.execMgrClockCompSend s
  | .mgrWidthFallback m => Sys2Proof.Machine.execMgrWidthFallback m s
  | .mgrWidthRestoreX2 => Sys2Proof.Machine.execMgrWidthRestoreX2 s
  | .mgrLoopWrite src v => Sys2Proof.Machine.execMgrLoopWrite src v s
  | .prbsCheckerLock l => Sys2Proof.Machine.execPrbsCheckerLock l s
  | .prbsCheckerLockLoss l errs => Sys2Proof.Machine.execPrbsCheckerLockLoss l errs s
  | .onoraDataFrame c f => Sys2Proof.Machine.execOnoraDataFrame c f s
  | .onoraIdleFrame c ok x => Sys2Proof.Machine.execOnoraIdleFrame c ok x s
  | .onoraLeaveFrame c => Sys2Proof.Machine.execOnoraLeaveFrame c s
  | .onoraAckTimer c => Sys2Proof.Machine.execOnoraAckTimer c s
  | .onoraNakRepeat c => Sys2Proof.Machine.execOnoraNakRepeat c s
  | .onoraAlignSend c => Sys2Proof.Machine.execOnoraAlignSend c s
  | .onoraAlignMissing c => Sys2Proof.Machine.execOnoraAlignMissing c s
  | .onoraCreditTimeout c => Sys2Proof.Machine.execOnoraCreditTimeout c s
  | .onoraFrameTimeout c => Sys2Proof.Machine.execOnoraFrameTimeout c s
  | .onoraTrainingBlock c j b => Sys2Proof.Machine.execOnoraTrainingBlock c j b s
  | .onoraTrainStateComplete c x reqs => Sys2Proof.Machine.execOnoraTrainStateComplete c x reqs s
  | .onoraTrainTimeout c => Sys2Proof.Machine.execOnoraTrainTimeout c s
  | .onoraTrainRetry c => Sys2Proof.Machine.execOnoraTrainRetry c s
  | .onoraRetrain src c => Sys2Proof.Machine.execOnoraRetrain src c s
  | .onoraLeaveSend => Sys2Proof.Machine.execOnoraLeaveSend s
  | .onlabs p => Sys2Proof.Machine.execOnlabs p s
  | .routeadv c x => Sys2Proof.Machine.execRouteadv c x s
  | .routeadvPeriodic => Sys2Proof.Machine.execRouteadvPeriodic s
  | .routeadvStale m => Sys2Proof.Machine.execRouteadvStale m s
  | .addrConflictClear m => Sys2Proof.Machine.execAddrConflictClear m s
  | .chainEpochClose => Sys2Proof.Machine.execChainEpochClose s
  | .probeSend => Sys2Proof.Machine.execProbeSend s
  | .probe c x turn => Sys2Proof.Machine.execProbe c x turn s
  | .probersp c x => Sys2Proof.Machine.execProbersp c x s
  | .blob c x b => Sys2Proof.Machine.execBlob c x b s
  | .blobAck c x => Sys2Proof.Machine.execBlobAck c x s
  | .blobRetransmit n => Sys2Proof.Machine.execBlobRetransmit n s
  | .keyx c x ok hash => Sys2Proof.Machine.execKeyx c x ok hash s
  | .xfer p => Sys2Proof.Machine.execXfer p s
  | .chainImport c => Sys2Proof.Machine.execChainImport c s
  | .onoraResponseReturn c x => Sys2Proof.Machine.execOnoraResponseReturn c x s
  | .onoraSignalRegained c => Sys2Proof.Machine.execOnoraSignalRegained c s
  | .rebuildStart k mirror => Sys2Proof.Machine.execRebuildStart k mirror s
  | .spHeartbeatMiss sp => Sys2Proof.Machine.execSpHeartbeatMiss sp s
  | .fenceReturnGo by_ => Sys2Proof.Machine.execFenceReturnGo by_ s
  | .returnSelfTestComplete ok => Sys2Proof.Machine.execReturnSelfTestComplete ok s
  | .logFetch src log seq => Sys2Proof.Machine.execLogFetch src log seq s
  | .logFetchComplete => Sys2Proof.Machine.execLogFetchComplete s
  | .rindStart => Sys2Proof.Machine.execRindStart s
  | .rindStop => Sys2Proof.Machine.execRindStop s
  | .feedValid f v => Sys2Proof.Machine.execFeedValid f v s
  | .feedUv f v => Sys2Proof.Machine.execFeedUv f v s
  | .feedOv f v => Sys2Proof.Machine.execFeedOv f v s
  | .idealDiodeReverseOff f => Sys2Proof.Machine.execIdealDiodeReverseOff f s
  | .senseMated => Sys2Proof.Machine.execSenseMated s
  | .debounceExpiry => Sys2Proof.Machine.execDebounceExpiry s
  | .rampComplete v => Sys2Proof.Machine.execRampComplete v s
  | .rampTimeout => Sys2Proof.Machine.execRampTimeout s
  | .shortDetect => Sys2Proof.Machine.execShortDetect s
  | .rampComparatorTrip f n => Sys2Proof.Machine.execRampComparatorTrip f n s
  | .faultTimerExpiry f n => Sys2Proof.Machine.execFaultTimerExpiry f n s
  | .fastTrip f n => Sys2Proof.Machine.execFastTrip f n s
  | .tripWaitExpiry => Sys2Proof.Machine.execTripWaitExpiry s
  | .latchClearEnableCycle => Sys2Proof.Machine.execLatchClearEnableCycle s
  | .latchClearReinsertion => Sys2Proof.Machine.execLatchClearReinsertion s
  | .retryCountClear => Sys2Proof.Machine.execRetryCountClear s
  | .pwrgdAssert => Sys2Proof.Machine.execPwrgdAssert s
  | .feedwarnTimeout => Sys2Proof.Machine.execFeedwarnTimeout s
  | .senseSBreak => Sys2Proof.Machine.execSenseSBreak s
  | .senseLmOpen long => Sys2Proof.Machine.execSenseLmOpen long s
  | .clrPeak src => Sys2Proof.Machine.execClrPeak src s
  | .xtalLoss => Sys2Proof.Machine.execXtalLoss s
  | .xtalRestore => Sys2Proof.Machine.execXtalRestore s
  | .rtcXtalLoss => Sys2Proof.Machine.execRtcXtalLoss s
  | .pllLock d => Sys2Proof.Machine.execPllLock d s
  | .pllUnlock d => Sys2Proof.Machine.execPllUnlock d s
  | .retentionIdle c => Sys2Proof.Machine.execRetentionIdle c s
  | .rtcWrite src v => Sys2Proof.Machine.execRtcWrite src v s
  | .sleepClrMax src => Sys2Proof.Machine.execSleepClrMax src s
  | .norRead src dev off => Sys2Proof.Machine.execNorRead src dev off s
  | .norProgram src dev off => Sys2Proof.Machine.execNorProgram src dev off s
  | .norErase src dev off => Sys2Proof.Machine.execNorErase src dev off s
  | .norOpComplete ok => Sys2Proof.Machine.execNorOpComplete ok s
  | .norLogWrite dev => Sys2Proof.Machine.execNorLogWrite dev s
  | .imageVerify src slot => Sys2Proof.Machine.execImageVerify src slot s
  | .imageVerifyComplete sfdp => Sys2Proof.Machine.execImageVerifyComplete sfdp s
  | .lcOpen src b => Sys2Proof.Machine.execLcOpen src b s
  | .lcSeal src hash b => Sys2Proof.Machine.execLcSeal src hash b s
  | .lcReturn src b => Sys2Proof.Machine.execLcReturn src b s
  | .lcRetire src b => Sys2Proof.Machine.execLcRetire src b s
  | .lcRevoke src b => Sys2Proof.Machine.execLcRevoke src b s
  | .fuseProg b => Sys2Proof.Machine.execFuseProg b s
  | .jtagReset => Sys2Proof.Machine.execJtagReset s
  | .jtagIdcode => Sys2Proof.Machine.execJtagIdcode s
  | .jtagSamplePreload v => Sys2Proof.Machine.execJtagSamplePreload v s
  | .jtagExtest v => Sys2Proof.Machine.execJtagExtest v s
  | .jtagClamp => Sys2Proof.Machine.execJtagClamp s
  | .jtagHighz => Sys2Proof.Machine.execJtagHighz s
  | .jtagBypass => Sys2Proof.Machine.execJtagBypass s
  | .dbgAccRead addr => Sys2Proof.Machine.execDbgAccRead addr s
  | .dbgAccWrite addr data => Sys2Proof.Machine.execDbgAccWrite addr data s
  | .dbgSp sp op => Sys2Proof.Machine.execDbgSp sp op s
  | .makerPrivate n => Sys2Proof.Machine.execMakerPrivate n s
  | .spdmGetVersion a => Sys2Proof.Machine.execSpdmGetVersion a s
  | .spdmGetCapabilities a => Sys2Proof.Machine.execSpdmGetCapabilities a s
  | .spdmNegotiateAlgorithms a => Sys2Proof.Machine.execSpdmNegotiateAlgorithms a s
  | .spdmGetCertificate a slot => Sys2Proof.Machine.execSpdmGetCertificate a slot s
  | .spdmChallenge a => Sys2Proof.Machine.execSpdmChallenge a s
  | .spdmGetMeasurements a index sign => Sys2Proof.Machine.execSpdmGetMeasurements a index sign s
  | .spdmKeyExchange a => Sys2Proof.Machine.execSpdmKeyExchange a s
  | .spdmSignComplete => Sys2Proof.Machine.execSpdmSignComplete s
  | .zmpAcquire x client => Sys2Proof.Machine.execZmpAcquire x client s
  | .zmpRenew x client => Sys2Proof.Machine.execZmpRenew x client s
  | .zmpRelease x client => Sys2Proof.Machine.execZmpRelease x client s
  | .zmpRead x addr count => Sys2Proof.Machine.execZmpRead x addr count s
  | .zmpWrite x addr data => Sys2Proof.Machine.execZmpWrite x addr data s
  | .zmpMctp x m => Sys2Proof.Machine.execZmpMctp x m s
  | .zmpPing x => Sys2Proof.Machine.execZmpPing x s
  | .mctpControl src c => Sys2Proof.Machine.execMctpControl src c s
  | .mctpVendorZmp src x r => Sys2Proof.Machine.execMctpVendorZmp src x r s
  | .leaseExpiry => Sys2Proof.Machine.execLeaseExpiry s
  | .registerWrite src addr v => Sys2Proof.Machine.execRegisterWrite src addr v s
  | .commitGo src => Sys2Proof.Machine.execCommitGo src s
  | .commitDiscard src => Sys2Proof.Machine.execCommitDiscard src s
  | .commitCheckComplete => Sys2Proof.Machine.execCommitCheckComplete s
  | .commitApply b => Sys2Proof.Machine.execCommitApply b s
  | .commitPendingApply addr mask => Sys2Proof.Machine.execCommitPendingApply addr mask s
  | .commitEpochEnd => Sys2Proof.Machine.execCommitEpochEnd s
  | .ctrOverflow c n inc => Sys2Proof.Machine.execCtrOverflow c n inc s
  | .ctrCapture c sampBusy => Sys2Proof.Machine.execCtrCapture c sampBusy s
  | .ctrValWrite src c n v inc => Sys2Proof.Machine.execCtrValWrite src c n v inc s
  | .ctrPairWrite src c j v incLo incHi => Sys2Proof.Machine.execCtrPairWrite src c j v incLo incHi s
  | .ctrFreezeWrite src c v => Sys2Proof.Machine.execCtrFreezeWrite src c v s
  | .ctrSnap src c => Sys2Proof.Machine.execCtrSnap src c s
  | .ctrSnapAtReached c => Sys2Proof.Machine.execCtrSnapAtReached c s
  | .instCtrSnap by_ n => Sys2Proof.Machine.execInstCtrSnap by_ n s
  | .thermalWarn x => Sys2Proof.Machine.execThermalWarn x s
  | .thermalRelease => Sys2Proof.Machine.execThermalRelease s
  | .thermalTrip xs => Sys2Proof.Machine.execThermalTrip xs s
  | .hostCxlIoRequest a r => Sys2Proof.Machine.execHostCxlIoRequest a r s
  | .lathEdgeActive d e => Sys2Proof.Machine.execLathEdgeActive d e s

end Sys2Proof.Machine
end

