-- ==== Sys2Proof/Machine/Tick.lean ====
section
/-! DEFINITION. One core cycle, which passes when no command waits (DESIGN CHOICE, log 17): time and the clocks (spec/14 R399), credits
of shapers and holds (spec/05 R143, spec/08 R241), crossings, frames that wait for admission (spec/03 R93), and what counters count in
every cycle (spec/17). -/

namespace Sys2Proof.Machine

/-- Ticks of 32.768 kHz in a number of core cycles. -/
def rtcTicks (n : Nat) : Nat := n * 32768 / 3000000000
/-- The RTC counts seconds and ticks within them. -/
def State.rtcCycle (s : State) : State :=
  if rtcTicks (s.wall + 1) = rtcTicks s.wall then s
  else if s.rd F.RIND_RTC_SUBSEC = 32767 then (s.wr F.RIND_RTC_SUBSEC 0).inc F.RIND_RTC_SEC
  else s.inc F.RIND_RTC_SUBSEC
/-- The first number of the keys of a map, divided by n, each once. -/
def owners {V : Type} (n : Nat) (m : NMap V) : List Nat := (m.map (fun (e : Nat × V) => e.1 / n)).dedup
/-- Frames that wait for admission are counted and tried (R93). -/
def State.admitCycle (s : State) : State :=
  let s := s.xbar.waiting.foldl (fun (s : State) (e : Nat × List (Nat × Frame)) =>
    if e.2.isEmpty then s else (s.inc (F.XBAR_ADMIT_WAIT_COUNT (e.1 / 10))).ctrEvent (e.1 / 10) 0x08 [e.1 % 10]) s
  (owners 10 s.xbar.waiting).foldl (fun (s : State) c => s.admitWaiting (Cell.of c)) s
/-- The cell had a unit ready, and its router's local input had no credit for it (R72): of a packet it has started, or of a VOQ's head. -/
def State.stalled (s : State) (c : Cell) : Bool :=
  s.scrim.stallNow.contains c.val
    || (List.range 7).any (fun v => match mget s.scrim.rx ((c.val * 5 + 4) * 8 + v), s.nextInjected c v with
      | some (q, k), _ => (s.freePool c .loc q k).isNone
      | none, some q => (s.freePool c .loc q 0).isNone
      | none, none => false)
    || s.xbar.voq.any (fun (e : Nat × List Frame) => e.1 / 800 == c.val && (match e.2 with
      | f :: _ => 1 ≤ e.1 / 8 % 10 && e.1 / 8 % 10 ≤ 4 && s.cutOk c (e.1 / 80 % 10) (e.1 / 8 % 10) f && (s.freePool c .loc f.p 0).isNone
      | [] => false))
/-- Cycles in which cells stall (R72). -/
def State.stallCycle (s : State) : State :=
  let cs := (s.scrim.stallNow ++ s.scrim.flight.map (fun (f : Flying) => f.p.src.val) ++ s.scrim.rx.map (fun (e : Nat × (Pkt × Nat)) => e.1 / 40)
    ++ s.xbar.voq.map (fun (e : Nat × List Frame) => e.1 / 800)).dedup.filter (fun c => s.stalled (Cell.of c))
  let s := cs.foldl (fun (s : State) c => { s with scrim.stallLive := mmod 0 s.scrim.stallLive c (· + 1) }.ctrEvent c 0x1B []) s
  { s with scrim.stallNow := [] }
/-- Cycles in which a frame waits for a chunk (R122). -/
def State.chunkCycle (s : State) : State :=
  ((s.spill.ctx.filter (fun (e : Nat × SpillCtx) => s.chunkWaits (Cell.of (e.1 / 64)) e.2)).map (fun (e : Nat × SpillCtx) => e.1 / 64)).dedup.foldl
    (fun (s : State) c => s.inc (F.SPILL_CHUNK_WAIT_WAIT c)) s
/-- Units that have arrived for frames on their way to Whey are written (R123). -/
def State.wheyCycle (s : State) : State := (owners 64 s.spill.ctx).foldl (fun (s : State) c => s.writeWaiting (Cell.of c)) s
/-- Event 0x0D counts a cycle once for a counter if some active shaper of the classes and outputs it takes holds negative credit. -/
def State.shaperEvent (s : State) (c : Nat) : State :=
  let bad := s.liveShapers.filter (fun (k : Nat × Nat × Nat) => k.1 == c && decide (s.credit (Cell.of c) k.2.1 k.2.2 < 0)
    && s.queueActive (Cell.of c) k.2.1 k.2.2)
  (List.range 8).foldl (fun (s : State) n =>
    if bad.any (fun (k : Nat × Nat × Nat) => s.ctrTakes c n 0x0D [k.2.2, 8 + k.2.1] false none) then s.ctrAdd c n 1 else s) s
/-- A wait chain of the home or of the proxy at a cell is not empty. -/
def State.chained (s : State) (c : Nat) : Bool :=
  s.home.tt.any (fun (e : Nat × Txn) => e.1 / 1024 == c && e.2.phase == .chain) || !(mgetD [] s.home.pchain c).isEmpty
/-- What the counters of a cell count in every cycle. -/
def State.ctrCycle (s : State) (c : Nat) : State :=
  let s := (s.ctrEvent c 0x01 []).shaperEvent c
  let s := if s.chained c then s.ctrEvent c 0x15 [] else s
  (s.ctrEvent c 0x16 [] (s.rd (F.XBAR_TRACK_IN_USE c))).ctrEvent c 0x17 [] (s.rd (F.HOME_TT_IN_USE c))
/-- Cells some counter of which is enabled. -/
def State.countingCells (s : State) : List Nat :=
  s.regs.filterMap (fun (e : Nat × Word) =>
    if 0x10000000 ≤ e.1 ∧ e.1 < 0x18000000 ∧ e.1 % 0x100000 = 0x600E0 ∧ getBits e.2 8 8 ≠ 0 then some (e.1 / 0x100000 % 128) else none)
/-- Lines of device requests that waited for re-issues of their tuple go out (R86). -/
def State.resumeLines (s : State) : State :=
  (s.xbar.slots.filter (fun (e : Nat × TSlot) => (e.2.dev.map (·.held)).getD false)).foldl (fun (s : State) e =>
    s.devStep (Cell.of (e.1 / 1024)) (Fin.ofNat 1024 e.1) ((e.2.dev.map DevTrack.lines).getD 0 + 1)) s
/-- A KEYX that has no ACK BUDGET_US and 10 µs after it was sent is sent again (R351). -/
def State.keyxCycle (s : State) : State :=
  (s.onl.keyxAt.filter (fun (e : Nat × Nat) => e.2 + 3 * (s.budgetNs + 10000) ≤ s.cyc)).foldl (fun (s : State) (e : Nat × Nat) => s.sendKeyx e.1) s
/-- A cycle of the module outside DORMANT. Shapers and granules follow what the cycle that ends held (R91, R143). -/
def State.runCycle (s : State) : State :=
  let s := s.shapersCycle.leaveCycle.stallCycle
  let s := { s with cyc := s.cyc + 1 }
  let s := s.wheyCycle.admitCycle.chunkCycle.holdCycle.xingSync.settleLost.keyxCycle
  let s := s.resumeLines
  let s := s.resumeDevices (s.pool.devHeld.map (fun (e : Nat × List DevReq) => e.1))
  s.countingCells.foldl State.ctrCycle s
/-- In DORMANT package time holds; the level of R503 is judged on each Rind tick, which is 120 core cycles. -/
def State.dormantCycle (s : State) : State :=
  if s.wall % 120 = 0 ∧ s.rdb F.RIND_PWR_STATUS_ENABLE ∧ s.rdb F.RIND_PWR_STATUS_PWRGD then s.leaveDormant else s
/-- One core cycle. Without its Rind supply the module has no clock. -/
def State.tick (s : State) : State :=
  s.onRind fun s =>
    let s := s.rtcCycle.tryDebounce
    let s := { s with wall := s.wall + 1, setNow := [] }
    if s.mode = .dormant then s.dormantCycle else s.runCycle

end Sys2Proof.Machine
end

