-- ==== Sys2Proof/Safety.lean ====
section
/-! DEFINITION. What a safe state and a safe step are, in the terms that the statements use: the canonical form of the memories, the moves
of the mode, and the bounds that the spec puts on queues and stores. -/

namespace Sys2Proof.Machine

/-- The register space is in canonical form: addresses strictly rising, and no entry equal to the value of its Reset column. -/
def regsOk (m : NMap Word) : Bool := mwf m && m.all (fun e => e.2 != regReset e.1)
/-- The boot memory is in canonical form: addresses strictly rising, and no entry equal to an erased byte. -/
def norOk (m : NMap Byte) : Bool := mwf m && m.all (fun e => e.2 != 0xFF#8)
/-- THERM_N is asserted exactly while some sensor counts as warm (R499). -/
def thermOk (t : ThermSt) : Bool := t.asserted == !t.warm.isEmpty
/-- A move of the mode along the transitions of Table 1-9, any number of them (R40). -/
inductive ModePath : Mode → Mode → Prop where
  | stay (m : Mode) : ModePath m m
  | move {a b c : Mode} (h : ModePath a b) (e : modeOk b c = true) : ModePath a c
/-- What every state of a run satisfies: canonical memories, THERM_N as R499 says, at most 8 stored responses (R455), and at most 16
requests in the signing queue (R451). -/
structure State.Sound (s : State) : Prop where
  regs : regsOk s.regs = true
  nor : norOk s.img.nor = true
  therm : thermOk s.therm = true
  answers : s.mgr.answers.length ≤ 8
  signs : s.spdm.queue.length ≤ 16
/-- The parts of State but the queue. -/
inductive Part where
  /-- The mode. -/
  | mode
  /-- The register space, with the Clear bits set in this core cycle. -/
  | regs
  /-- Package time. -/
  | cyc
  /-- Free values drawn. -/
  | freeCtr
  /-- What left the module. -/
  | out
  /-- The active service processor. -/
  | activeSp
  /-- Service processors that are gone. -/
  | spGone
  /-- The roles of the cells. -/
  | roles
  /-- The drain of SAFE_STOP. -/
  | drained
  /-- Routers, credits, packets in flight, the fence map. -/
  | scrim
  /-- Crossbars, tag slots, chunks, frames in queues. -/
  | xbar
  /-- Granules, contexts and length slots of Whey. -/
  | spill
  /-- Gates, shapers and their samples. -/
  | sched
  /-- Homes, proxies, directories and their transactions. -/
  | home
  /-- Logs and recoveries. -/
  | log
  /-- Feeds, ramps, domains, PLLs and the Rind clock. -/
  | pwr
  /-- Lanes and links. -/
  | lane
  /-- Onora links and the chain. -/
  | onl
  /-- Images, boot memory, fuses and the root key. -/
  | img
  /-- Instances, extents, holds, engines and BRINE. -/
  | pool
  /-- Keys, protection and rotations. -/
  | sec
  /-- The management port, its answers, the commit epoch. -/
  | mgr
  /-- Counters, captures and records. -/
  | ctr
  /-- Temperature and THERM_N. -/
  | therm
  /-- The test access port. -/
  | jtag
  /-- SPDM sessions and the signing queue. -/
  | spdm
  /-- Core cycles since the Rind domain started. -/
  | wall
  deriving DecidableEq, Repr
/-- A part is the same in two states. -/
def Part.same (p : Part) (s t : State) : Prop :=
  match p with
  | .mode => t.mode = s.mode
  | .regs => t.regs = s.regs ∧ t.setNow = s.setNow
  | .cyc => t.cyc = s.cyc
  | .freeCtr => t.freeCtr = s.freeCtr
  | .out => t.out = s.out
  | .activeSp => t.activeSp = s.activeSp
  | .spGone => t.spGone = s.spGone
  | .roles => t.roles = s.roles
  | .drained => t.drained = s.drained
  | .scrim => t.scrim = s.scrim
  | .xbar => t.xbar = s.xbar
  | .spill => t.spill = s.spill
  | .sched => t.sched = s.sched
  | .home => t.home = s.home
  | .log => t.log = s.log
  | .pwr => t.pwr = s.pwr
  | .lane => t.lane = s.lane
  | .onl => t.onl = s.onl
  | .img => t.img = s.img
  | .pool => t.pool = s.pool
  | .sec => t.sec = s.sec
  | .mgr => t.mgr = s.mgr
  | .ctr => t.ctr = s.ctr
  | .therm => t.therm = s.therm
  | .jtag => t.jtag = s.jtag
  | .spdm => t.spdm = s.spdm
  | .wall => t.wall = s.wall
/-- Nothing but these parts differs between two states. -/
def State.changesOnly (l : List Part) (s t : State) : Prop := t.pending = s.pending ∧ ∀ p : Part, p ∉ l → p.same s t
/-- Nothing but these registers differs between two states. -/
def State.onlyRegs (l : List Nat) (s t : State) : Prop := t = { s with regs := t.regs, setNow := t.setNow } ∧ ∀ a, a ∉ l → t.reg a = s.reg a
/-- The parts of State that a command may change. What is not listed, it leaves alone in every state. -/
def partsOf (c : Instr) : List Part :=
  match c with
  | .enableNLowStart =>
      [.mode, .regs, .cyc, .freeCtr, .scrim, .log, .pwr, .lane, .onl, .pool, .sec, .mgr]
  | .imageLoadComplete _ _ =>
      [.mode, .regs, .freeCtr, .scrim, .log, .pwr, .lane, .img, .pool, .mgr]
  | .imageStaging _ =>
      [.mode, .regs, .scrim, .log, .pwr, .img]
  | .selfTestComplete _ _ _ =>
      [.mode, .regs, .freeCtr, .out, .activeSp, .spGone, .roles, .scrim, .xbar, .spill, .home, .log, .pwr, .lane, .onl, .img, .pool, .sec, .mgr, .ctr]
  | .rennetWrite _ _ _ _ =>
      [.regs, .img]
  | .rennetCrcReport _ =>
      [.regs, .scrim, .log, .onl, .img]
  | .rennetDistributionComplete =>
      [.mode, .regs, .scrim, .home, .log, .pwr, .img, .pool, .sec, .mgr]
  | .modeReqService _ | .modeReqDrowse _ | .modeReqMaintenance _ | .modeReqSafeStop _ | .logFetch _ _ _ | .norRead _ _ _
  | .norProgram _ _ _ | .norErase _ _ _ | .imageVerify _ _ | .lcOpen _ _ | .lcSeal _ _ _ | .lcReturn _ _ | .lcRetire _ _
  | .lcRevoke _ _ | .zmpAcquire _ _ | .zmpRenew _ _ | .zmpRelease _ _ | .zmpRead _ _ _ | .zmpWrite _ _ _ | .zmpMctp _ _
  | .zmpPing _ | .mctpVendorZmp _ _ _ | .registerWrite _ _ _ | .commitGo _ | .commitDiscard _ | .ctrValWrite _ _ _ _ _
  | .ctrPairWrite _ _ _ _ _ _ | .ctrFreezeWrite _ _ _ | .ctrSnap _ _ | .instCtrSnap _ _ =>
      [.mode, .regs, .freeCtr, .out, .scrim, .xbar, .spill, .sched, .home, .log, .pwr, .lane, .onl, .img, .pool, .sec, .mgr, .ctr]
  | .enableNHigh =>
      [.mode, .regs, .activeSp, .spGone, .roles, .drained, .scrim, .xbar, .spill, .sched, .home, .log, .pwr, .lane, .onl, .img, .pool, .sec, .mgr, .ctr, .jtag, .spdm]
  | .safeStopComplete =>
      [.mode, .regs, .freeCtr, .activeSp, .spGone, .roles, .drained, .scrim, .xbar, .spill, .sched, .home, .log, .pwr, .lane, .onl, .img, .pool, .sec, .mgr, .ctr, .jtag, .spdm]
  | .idlePolicyDrowse | .drowseWakeLimit | .rebuildStart _ _ | .returnSelfTestComplete _ =>
      [.mode, .regs, .scrim, .log, .pwr]
  | .scrimUnitReceive _ _ _ _ _ _ _ | .onlabs _ =>
      [.regs, .freeCtr, .scrim, .xbar, .spill, .home, .log, .pwr, .sec, .ctr]
  | .scrimReplayRequest _ _ _ | .heartbeatTimeout _ _ | .ucieLinkDown _ =>
      [.regs, .scrim, .spill, .log]
  | .heartbeatSend _ _ | .lathLpExit _ _ _ _ | .hostBiconflict _ _ =>
      [.scrim]
  | .fenceNote _ | .seamTrainComplete _ _ | .hbmWatchdogExpiry _ | .pllUnlock _ =>
      [.regs, .scrim, .log]
  | .fenceMap _ =>
      [.mode, .regs, .freeCtr, .out, .scrim, .spill, .home, .log, .pwr, .pool, .sec, .ctr]
  | .fenceCompletionReport _ | .wakeFail _ =>
      [.mode, .regs, .freeCtr, .out, .activeSp, .scrim, .xbar, .spill, .home, .log, .pwr, .lane, .onl, .img, .pool, .sec, .mgr, .ctr]
  | .drainedReport _ | .drainLimitExpiry _ | .lathLpEntry _ _ | .xbarClrHwm _ | .spillCtxView0Read _ | .spillXingClrHwm _
  | .gateBoundary _ | .homeTtClrHwm _ | .homeProxyClrHwm _ | .takeoverQuiesceComplete | .refclkReturn _ | .l1Entry _
  | .mgrFrameReceive _ _ _ _ | .mgrSyncGain _ | .mgrSyncLoss _ _ _ | .mgrWidthFallback _ | .mgrWidthRestoreX2
  | .feedValid _ _ | .idealDiodeReverseOff _ | .senseMated | .debounceExpiry | .rampComplete _ | .tripWaitExpiry
  | .latchClearEnableCycle | .retryCountClear | .pwrgdAssert | .xtalLoss | .xtalRestore | .rtcXtalLoss | .retentionIdle _
  | .ctrSnapAtReached _ =>
      [.regs]
  | .drainCommit _ =>
      [.regs, .scrim, .spill, .pwr]
  | .holdUnitArrival _ _ =>
      [.regs, .scrim, .spill, .log, .pwr]
  | .domainOnSignal _ =>
      [.mode, .regs, .freeCtr, .out, .activeSp, .scrim, .xbar, .spill, .sched, .home, .log, .pwr, .lane, .onl, .img, .pool, .sec, .mgr, .ctr]
  | .scrimSnap _ | .lathEdgeActive _ _ =>
      [.regs, .scrim]
  | .frameArrive _ _ _ _ _ _ | .chunkGrant _ _ _ | .spillReadReturn _ _ _ =>
      [.regs, .freeCtr, .scrim, .xbar, .spill, .home, .log, .sec, .ctr]
  | .frameStart _ _ =>
      [.regs, .freeCtr, .out, .scrim, .xbar, .spill, .sched, .home, .log, .sec, .ctr]
  | .sampleCounterExpiry _ _ =>
      [.xbar]
  | .lengthSlotAck _ _ =>
      [.regs, .scrim, .xbar, .spill, .log, .ctr]
  | .spillFetch _ _ | .dirrd _ _ _ _ =>
      [.regs, .scrim, .spill]
  | .histPeriodEnd _ _ | .shpObsSnap _ _ | .ctrCapture _ _ =>
      [.regs, .out, .sched, .ctr]
  | .depthSample _ =>
      [.sched]
  | .skimYieldWindowEnd _ =>
      [.regs, .xbar, .log]
  | .rds _ _ | .rda _ _ | .rdi _ _ | .inva _ _ | .wri _ _ | .wra _ _ | .wrptl _ _ | .clnevct _ _ | .specrd _
  | .recallMsg _ _ | .biconf _ | .dirdata _ | .dirack _ | .frsp _ | .fkeep _ =>
      [.regs, .scrim, .spill, .home, .log, .pwr, .ctr]
  | .homeChainStart _ _ =>
      [.regs, .scrim, .xbar, .home, .log, .ctr]
  | .mrd _ =>
      [.regs, .freeCtr, .out, .scrim, .spill, .log, .pwr, .onl, .pool, .sec, .ctr]
  | .mspec _ | .wdata _ =>
      [.regs, .out, .scrim, .spill, .log, .pwr, .onl, .pool, .sec, .ctr]
  | .expanderReadData _ _ _ _ =>
      [.regs, .freeCtr, .out, .scrim, .pool, .ctr]
  | .expanderWriteComplete _ _ =>
      [.scrim, .pool]
  | .mflush _ =>
      [.regs, .scrim, .spill, .log, .pwr, .pool]
  | .dirwr _ _ =>
      [.regs, .scrim, .spill, .home, .log]
  | .grant _ | .rdata _ =>
      [.regs, .out, .scrim, .xbar, .spill, .log, .pwr, .onl, .pool, .ctr]
  | .wgo _ | .wcmp _ =>
      [.regs, .out, .scrim, .xbar, .spill, .home, .log, .pwr, .onl, .pool, .ctr]
  | .mcmp _ =>
      [.regs, .out, .scrim, .xbar, .spill, .home, .log, .pwr, .onl, .ctr]
  | .done _ | .fwd _ =>
      [.regs, .scrim, .xbar, .spill, .home, .log, .pwr, .ctr]
  | .rcmp _ =>
      [.regs, .out, .scrim, .spill, .log, .pwr, .onl, .pool, .sec, .mgr]
  | .bisnpcur _ | .bisnpdata _ | .bisnpinv _ =>
      [.regs, .out, .scrim, .spill, .home, .log, .pwr]
  | .bicack _ =>
      [.regs, .out, .scrim, .spill, .log, .pwr]
  | .hostBirsp _ _ _ =>
      [.regs, .out, .scrim, .home]
  | .birsp _ =>
      [.regs, .freeCtr, .scrim, .xbar, .spill, .home, .log, .pwr, .ctr]
  | .snpTimeoutExpiry _ _ =>
      [.regs, .freeCtr, .out, .scrim, .xbar, .home, .log, .ctr]
  | .dirLookup _ | .dirLookupComplete _ | .proxyAgeCheck _ =>
      [.regs, .home]
  | .takeoverFlushComplete _ =>
      [.regs, .scrim, .home, .log, .ctr]
  | .twinLossNote _ _ =>
      [.regs, .freeCtr, .scrim, .xbar, .home, .ctr]
  | .resilverBlockAck _ =>
      [.mode, .regs, .scrim, .home, .log, .pwr]
  | .hostRequestReceive _ _ =>
      [.regs, .scrim, .xbar, .spill, .log, .pool, .ctr]
  | .holdAdmit _ =>
      [.regs, .scrim, .xbar, .home, .log, .pool, .sec, .ctr]
  | .deviceRequestReceive _ _ =>
      [.regs, .scrim, .xbar, .log, .pool, .sec, .ctr]
  | .defaultMapFetchReturn _ _ _ =>
      [.pool]
  | .hostResponseDepart _ _ =>
      [.regs, .out, .scrim, .xbar, .spill, .home, .log, .ctr]
  | .slotHoldExpire _ _ =>
      [.regs, .scrim, .xbar, .log]
  | .fmGetVcsInfo _ _ | .fmGetDcdInfo _ | .fmGetHostDcRegionCfg _ _ =>
      [.regs, .out, .log, .mgr]
  | .fmBindVppb _ _ _ _ | .bind _ _ | .migAbort _ _ | .migRestore _ _ _ | .freezeLimitExpiry _ | .migRestoreComplete _
  | .blobAck _ _ | .commitEpochEnd =>
      [.regs, .out, .scrim, .log, .onl, .pool, .sec, .mgr]
  | .fmUnbindVppb _ _ _ _ | .fmInitiateDcRelease _ _ _ _ | .unbindKeep _ _ | .unbindRelease _ _ | .dcAddResponse _ _ =>
      [.mode, .regs, .out, .scrim, .log, .pwr, .onl, .pool, .sec, .mgr, .ctr]
  | .fmInitiateDcAdd _ _ _ _ =>
      [.regs, .out, .log, .pool, .sec, .mgr]
  | .dcReleaseResponse _ _ | .migFreezeDrained _ =>
      [.regs, .out, .scrim, .pool, .sec]
  | .portLinkUp _ _ =>
      [.regs, .freeCtr, .out, .scrim, .home, .log, .pwr, .lane, .onl, .img, .pool, .sec, .mgr]
  | .hostLinkDown _ | .expanderLinkDown _ | .deviceLinkDown _ | .ideIntegrityFailure _ | .laneFault _ _ _ | .refclkLoss _
  | .l1Exit _ _ | .testEnter _ _ | .loopbackSlaveEntry _ | .feedUv _ _ | .feedOv _ _ | .rampTimeout | .shortDetect
  | .rampComparatorTrip _ _ | .faultTimerExpiry _ _ | .fastTrip _ _ | .latchClearReinsertion | .feedwarnTimeout
  | .senseSBreak | .senseLmOpen _ =>
      [.mode, .regs, .freeCtr, .out, .scrim, .xbar, .home, .log, .pwr, .lane, .onl, .pool, .sec, .mgr, .ctr]
  | .migPrepare _ _ =>
      [.regs, .out, .log, .pool]
  | .migMigrate _ _ | .migSave _ _ | .pressMoveGo _ _ | .pressAbort _ _ | .pressBlockAck _ _ _ _ =>
      [.mode, .regs, .out, .scrim, .log, .pwr, .pool, .sec, .ctr]
  | .migSaveComplete _ =>
      [.regs, .freeCtr, .out, .scrim, .log, .onl, .pool, .sec, .mgr]
  | .pressResilverStart _ _ _ =>
      [.mode, .regs, .scrim, .log, .pwr, .pool]
  | .pressSourceDrained _ =>
      [.regs, .pool, .sec]
  | .copyGo _ _ =>
      [.regs, .scrim, .log, .pool, .sec]
  | .copyPartComplete _ _ =>
      [.regs, .pool]
  | .brineComplete _ =>
      [.regs, .out, .pool]
  | .mapNote _ _ =>
      [.home, .onl, .pool]
  | .mapNoteComplete _ =>
      [.mode, .regs, .out, .scrim, .log, .pwr, .onl, .img, .pool, .sec, .mgr, .ctr]
  | .zeroize _ _ | .zeroizeComplete _ =>
      [.regs, .sec]
  | .keyGenerateComplete _ _ =>
      [.regs, .freeCtr, .log, .pool, .sec]
  | .keyload _ _ =>
      [.sec]
  | .healthTestFail _ | .lanePrbsStatRead _ _ | .mgrLoopWrite _ _ | .logFetchComplete | .clrPeak _ | .rtcWrite _ _
  | .sleepClrMax _ =>
      [.regs, .log]
  | .secRotateGo _ | .rotationAgeCheck =>
      [.regs, .log, .sec]
  | .rekeyBlockAck _ =>
      [.regs, .out, .scrim, .pool, .sec, .ctr]
  | .barrierDrained _ | .barrierLimitExpiry _ =>
      [.regs, .out, .scrim, .xbar, .log, .onl, .pool, .sec, .mgr, .ctr]
  | .ideKmKeySet _ _ =>
      [.regs, .freeCtr, .out, .sec]
  | .widthReduceL0 _ =>
      [.regs, .xbar, .log, .pwr, .lane]
  | .testExit _ _ =>
      [.regs, .log, .pwr, .lane]
  | .widthRestore _ _ =>
      [.regs, .log, .lane, .onl]
  | .injOne _ _ | .chkEnSet _ _ =>
      [.regs, .log, .lane]
  | .injRateError _ | .prbsCheckerLock _ | .prbsCheckerLockLoss _ _ =>
      [.regs, .lane]
  | .mgrClockCompSend | .onoraAlignSend _ | .spdmGetVersion _ | .spdmGetCapabilities _ | .spdmNegotiateAlgorithms _
  | .spdmGetCertificate _ _ =>
      [.out]
  | .onoraDataFrame _ _ | .onoraIdleFrame _ _ _ | .onoraLeaveFrame _ | .onoraAlignMissing _ | .onoraCreditTimeout _
  | .onoraFrameTimeout _ | .onoraTrainStateComplete _ _ _ | .onoraRetrain _ _ =>
      [.regs, .out, .scrim, .log, .pwr, .lane, .onl]
  | .onoraAckTimer _ | .onoraLeaveSend =>
      [.out, .onl]
  | .onoraNakRepeat _ | .onoraTrainingBlock _ _ _ | .routeadvPeriodic =>
      [.regs, .out, .onl]
  | .onoraTrainTimeout _ | .onoraTrainRetry _ | .onoraSignalRegained _ =>
      [.regs, .onl]
  | .routeadv _ _ =>
      [.regs, .out, .scrim, .log, .onl]
  | .routeadvStale _ | .addrConflictClear _ | .chainEpochClose | .probeSend | .probe _ _ _ | .blobRetransmit _
  | .keyx _ _ _ _ =>
      [.regs, .out, .scrim, .onl]
  | .probersp _ _ =>
      [.regs, .log, .onl]
  | .blob _ _ _ =>
      [.regs, .out, .scrim, .onl, .pool]
  | .xfer _ =>
      [.regs, .out, .scrim, .spill, .log, .pwr, .onl]
  | .chainImport _ =>
      [.regs, .freeCtr, .out, .scrim, .onl]
  | .onoraResponseReturn _ _ =>
      [.regs, .scrim, .onl]
  | .spHeartbeatMiss _ =>
      [.regs, .activeSp, .spGone, .log]
  | .fenceReturnGo _ =>
      [.regs, .scrim, .log, .pwr]
  | .rindStart =>
      [.regs, .pwr]
  | .rindStop =>
      [.mode, .regs, .cyc, .activeSp, .spGone, .roles, .drained, .scrim, .xbar, .spill, .sched, .home, .log, .pwr, .lane, .onl, .img, .pool, .sec, .mgr, .ctr, .therm, .jtag, .spdm]
  | .pllLock _ =>
      [.regs, .scrim, .pwr]
  | .norOpComplete _ =>
      [.regs, .freeCtr, .img]
  | .norLogWrite _ =>
      [.img]
  | .imageVerifyComplete _ =>
      [.regs, .log, .img]
  | .fuseProg _ =>
      [.regs, .freeCtr, .out, .log, .img, .jtag]
  | .jtagReset =>
      [.jtag]
  | .jtagIdcode | .jtagClamp | .jtagHighz | .jtagBypass | .makerPrivate _ =>
      [.out, .jtag]
  | .jtagSamplePreload _ | .jtagExtest _ | .dbgSp _ _ =>
      [.freeCtr, .out, .jtag]
  | .dbgAccRead _ =>
      [.regs, .freeCtr, .out, .spill, .log, .jtag]
  | .dbgAccWrite _ _ =>
      [.mode, .regs, .freeCtr, .out, .scrim, .xbar, .spill, .sched, .home, .log, .pwr, .lane, .onl, .img, .pool, .sec, .mgr, .ctr, .jtag]
  | .spdmChallenge _ | .spdmGetMeasurements _ _ _ | .spdmKeyExchange _ | .spdmSignComplete =>
      [.out, .spdm]
  | .mctpControl _ _ =>
      [.mode, .regs, .out, .scrim, .log, .pwr, .lane, .pool, .mgr]
  | .leaseExpiry =>
      [.mode, .regs, .scrim, .log, .pwr, .lane, .pool, .mgr]
  | .commitCheckComplete =>
      [.regs, .log, .sec, .mgr]
  | .commitApply _ =>
      [.regs, .scrim, .sched, .pwr, .mgr]
  | .commitPendingApply _ _ =>
      [.regs, .scrim, .sched, .mgr]
  | .ctrOverflow _ _ _ =>
      [.regs, .ctr]
  | .thermalWarn _ | .thermalRelease =>
      [.therm]
  | .thermalTrip _ =>
      [.regs, .scrim, .log, .pwr, .therm]
  | .hostCxlIoRequest _ _ =>
      [.mode, .regs, .freeCtr, .out, .scrim, .xbar, .sched, .home, .log, .pwr, .lane, .onl, .img, .pool, .sec, .mgr, .ctr]

end Sys2Proof.Machine
end

