-- ==== Sys2Proof/Certificates/Slice0/Obligations.lean ====
section
/-! DEFINITION. The statements for the provers: what every command does and completes with, what it leaves alone, the invariants that every
step keeps, and the rules of spec/ on single functions of the machine. A choice of the model is named with its log entry. -/

open Sys2Proof Sys2Proof.Machine

/-- Start, image load, self-test, Rennet and rebuild (R40, R503; spec/15). -/
def Obligations.BootCommandsComplete : Prop :=
  (∀ s : State, s.pwr.rind = true → s.mode = .dormant → s.rdb F.RIND_PWR_STATUS_PWRGD = true →
    ∃ t, exec .enableNLowStart s = .next t ∧ (t.mode = .imageLoad ∨ t.mode = .sealedHalt) ∧ t.cyc = 0) ∧
  (∀ (a b : Bool) (s : State), s.mode = .imageLoad →
    ∃ t, exec (.imageLoadComplete a b) s = .next t ∧ (t.mode = .selfTest ∨ t.mode = .returnTest ∨ t.mode = .sealedHalt)) ∧
  (∀ (s : State) (x : Image), s.img.image = some x → s.mode = .selfTest →
    digestFault (s.norByte x.dev) (imgSects (s.norByte x.dev)) = none →
    exec (.imageStaging true) s = .next { s with img.staged := true }) ∧
  (∀ (s : State) (x : Image) (sp7 : Bool), s.img.image = some x → s.mode = .selfTest → s.img.staged = true →
    ({ s with spGone := if sp7 then [] else [7], activeSp := some 0 }.applyFields x.fields).beyond = false →
    ∃ t, exec (.selfTestComplete [] true sp7) s = .next t ∧ t.mode = .bringUp ∧ t.activeSp = some 0) ∧
  (∀ (c : Cell) (addr : BitVec 32) (mask value : Word) (s : State), s.mode = .bringUp → s.img.distributed = false →
    s.cellFenced c = false → s.img.matched.contains c.val = false →
    ∃ t, exec (.rennetWrite c addr mask value) s = .next t ∧
      t.img.rennet = mset (0xFFFFFFFF, 0) s.img.rennet c.val (crcWrite (s.rennetOf c).1 addr.toNat value, (s.rennetOf c).2 + 1) ∧
      (ownReg c addr.toNat = true → t.reg (canonAddr addr.toNat) = (s.reg (canonAddr addr.toNat)
        &&& ~~~(mask &&& BitVec.ofNat 64 (imageBits addr.toNat))) ||| (value &&& (mask &&& BitVec.ofNat 64 (imageBits addr.toNat)))) ∧
      (ownReg c addr.toNat = false → t.regs = s.regs) ∧ ∀ b, b ≠ canonAddr addr.toNat → t.reg b = s.reg b) ∧
  (∀ (c : Cell) (s : State) (x : Image), s.img.image = some x → s.mode = .bringUp → s.img.distributed = false →
    s.cellFenced c = false → s.img.matched.contains c.val = false → s.img.rewritten.contains c.val = false →
    ∃ t, exec (.rennetCrcReport c) s = .next t ∧ (t.img.matched.contains c.val = true ∨ t.img.rewritten.contains c.val = true)) ∧
  (∀ (s : State) (x : Image), s.img.image = some x → s.mode = .bringUp → s.img.distributed = false → s.scrim.epochOpen = false →
    (List.finRange 128).all (fun (c : Cell) => s.cellFenced c || s.img.matched.contains c.val) = true → s.img.fencedUp = false →
    s.scrim.fence = {} → s.scrim.notes = [] →
    ∃ t, exec .rennetDistributionComplete s = .next t ∧ t.mode = .service ∧ t.img.distributed = true ∧ t.rd F.PKG_MODE_CAUSE = 0x09) ∧
  (∀ (k : Stack) (s : State), s.stackFenced k = false → s.stackFenced (dieStack (partnerDie (stackDie k))) = false →
    s.rd (F.DIR_STACK_STATUS_PRI_STATE (partnerDie (stackDie k))) = 3 → s.rd (F.DIR_REBUILD_STATUS_ACTIVE (stackDie k)) = 0 →
    s.scrim.epochOpen = false → s.mode = .service ∨ s.mode = .degraded ∨ s.mode = .drowse →
    ∃ t, exec (.rebuildStart k false) s = .next t ∧ t.mode = .rebuild ∧ t.rd F.PKG_MODE_CAUSE = 0x0B)

/-- Requests of a service processor for a mode (R45, R471, Table 1-12). -/
def Obligations.ModeRequestsComplete : Prop :=
  (∀ s : State, s.mgr.pend = [] → s.mode = .drowse →
    ∃ t, exec (.modeReqService .sp) s = .next t ∧ t.mode = .service ∧ t.rd F.PKG_MODE_CAUSE = 0x0E ∧ t.rd F.PKG_MODE_REQ_LAST_TARGET = 4) ∧
  (∀ s : State, s.mgr.pend = [] → s.mode = .service →
    ∃ t, exec (.modeReqDrowse .sp) s = .next t ∧ t.mode = .drowse ∧ t.rd F.PKG_MODE_CAUSE = 0x0E ∧ t.rd F.PKG_MODE_REQ_LAST_TARGET = 5) ∧
  (∀ s : State, s.mgr.pend = [] → s.mode = .service → s.rdb F.MGR_LEASE_CFG_MAINT_ALLOWED = true → s.maintPorts ≠ [] →
    ∃ t, exec (.modeReqMaintenance .sp) s = .next t ∧ t.mode = .maintenance ∧ t.pool.paused = s.maintPorts ∧
      t.rd F.PKG_MODE_CAUSE = 0x0E ∧ t.rd F.PKG_MODE_REQ_LAST_TARGET = 8) ∧
  (∀ s : State, s.mgr.pend = [] → s.mode ≠ .dormant → s.mode ≠ .safeStop → s.mode ≠ .sealedHalt →
    ∃ t, exec (.modeReqSafeStop .sp) s = .next t ∧ t.mode = .safeStop ∧ t.rd F.PKG_MODE_CAUSE = 0x0E ∧ t.rd F.PKG_MODE_REQ_LAST_TARGET = 9)

/-- Events that move the mode (Table 1-9). -/
def Obligations.ModeEventsComplete : Prop :=
  (∀ s : State, s.pwr.rind = true →
    ∃ t, exec .enableNHigh s = .next t ∧ (s.mode = .sealedHalt → t.mode = .dormant) ∧
      (s.mode ≠ .sealedHalt → s.mode ≠ .dormant → s.mode ≠ .safeStop → t.mode = .safeStop ∧ t.rd F.PKG_MODE_CAUSE = 0x12)) ∧
  (∀ s : State, s.mode = .safeStop →
    ∃ t, exec .safeStopComplete s = .next t ∧ t.mode = .dormant ∧ t.rd F.PKG_MODE_CAUSE = 0x14) ∧
  (∀ s : State, s.mode = .service → s.rd F.RIND_SLEEP_CFG_ENTER_MS ≠ 0 →
    min 128 (max 1 (s.rd F.RIND_SLEEP_CFG_ENTER_QUIET)) ≤ ((List.finRange 128).filter (fun (c : Cell) => s.quiet c)).length →
    ∃ t, exec .idlePolicyDrowse s = .next t ∧ t.mode = .drowse ∧ t.rd F.PKG_MODE_CAUSE = 0x10) ∧
  (∀ s : State, s.mode = .drowse → max 1 (s.rd F.RIND_SLEEP_CFG_AWAKE_LIMIT) < ((List.range 128).filter (fun c => s.domain (3 * c) == 1)).length →
    ∃ t, exec .drowseWakeLimit s = .next t ∧ t.mode = .service ∧ t.rd F.PKG_MODE_CAUSE = 0x11)

/-- The fabric's events (spec/02). -/
def Obligations.ScrimCommandsComplete : Prop :=
  (∀ (c : Cell) (d : Dir) (p : Pkt) (u : Fin 65) (ecc : Ecc) (h v : Bool) (s : State), s.spineOn c = false →
    exec (.scrimUnitReceive c d p u ecc h v) s = .next s.settleLost) ∧
  (∀ (c : Cell) (d : Dir) (p : Pkt) (u : Fin 65) (ecc : Ecc) (h v : Bool) (s : State), s.spineOn c = true →
    s.scrim.rejecting.contains (c.val * 5 + d.num) = true → ecc ≠ .uncorrectable →
    exec (.scrimUnitReceive c d p u ecc h v) s = .next
      (State.settleLost { s with scrim.seen := mput s.scrim.seen (c.val * 5 + d.num) s.cyc })) ∧
  (∀ (c : Cell) (d : Dir) (p : Pkt) (u : Fin 65) (h v : Bool) (s : State), s.spineOn c = true →
    s.scrim.rejecting.contains (c.val * 5 + d.num) = false → edgeOf c.val d = none → s.spill.lost = [] →
    ∃ t, exec (.scrimUnitReceive c d p u .uncorrectable h v) s = .next t ∧ t.scrim.rejecting.contains (c.val * 5 + d.num) = true ∧
      t.rd (F.SCRIM_LINK_ERR_REPLAYS c) = min (2 ^ (F.SCRIM_LINK_ERR_REPLAYS c).width - 1) (s.rd (F.SCRIM_LINK_ERR_REPLAYS c) + 1)) ∧
  (∀ (c : Cell) (d : Dir) (p : Pkt) (u : Fin 65) (s : State), s.spineOn c = true →
    s.scrim.rejecting.contains (c.val * 5 + d.num) = false → p.opc.vc ≠ 7 →
    exec (.scrimUnitReceive c d p u .clean true true) s = .next
      ((State.goodUnit { s with scrim.seen := mput s.scrim.seen (c.val * 5 + d.num) s.cyc } c d p u).settleLost)) ∧
  (∀ (c : Cell) (d : Dir) (again : Bool) (s : State), (edgeOf c.val d).isSome = true → exec (.scrimReplayRequest c d again) s = .next s) ∧
  (∀ (c : Cell) (d : Dir) (m : Nat) (s : State), neighbour c.val d = some m → edgeOf c.val d = none →
    ∃ t, exec (.scrimReplayRequest c d false) s = .next t ∧ mgetD 0 t.scrim.replayFails (c.val * 5 + d.num) = 0 ∧
      t.scrim.rejecting.contains (m * 5 + d.opp.num) = false) ∧
  (∀ (c : Cell) (d : Dir) (m : Nat) (s : State), neighbour c.val d = some m → s.spineOn c = true →
    ∃ t, exec (.heartbeatSend c d) s = .next t ∧ mget t.scrim.seen (m * 5 + d.opp.num) = some s.cyc) ∧
  (∀ (c : Cell) (d : Dir) (n : Nat) (s : State), linkOf c.val d = some n → s.outDead c d = false → s.spineOn c = true → s.silent c d = true →
    ∃ t, exec (.heartbeatTimeout c d) s = .next t ∧ t.scrim.notes.contains (.link (Fin.ofNat 232 n)) = true) ∧
  (∀ (n : MeshLink) (s : State), seamLink n.val = true →
    s.outDead (Cell.of (linkEnds n.val).1) (if n.val < 120 then .east else .south) = false →
    ∃ t, exec (.ucieLinkDown n) s = .next t ∧ t.scrim.notes.contains (.link n) = true) ∧
  (∀ (n : MeshLink) (s : State), s.scrim.training.contains n.val = true →
    (∃ t, exec (.seamTrainComplete n false) s = .next t ∧ t.scrim.notes.contains (.link n) = true) ∧
    (∀ a b : Nat, a = (linkEnds n.val).1 / 16 → b = (linkEnds n.val).2 / 16 → a ≠ b → s.scrim.training = [n.val] →
      (edgeLinks a (if n.val < 120 then 1 else 2)).all s.scrim.fence.links.contains = false →
      (edgeLinks b (if n.val < 120 then 3 else 0)).all s.scrim.fence.links.contains = false →
      ∃ t, exec (.seamTrainComplete n true) s = .next t ∧ t.scrim.training = [] ∧
        t.rd (F.DIE_LATH_STATUS_STATE a (if n.val < 120 then 1 else 2)) = 2 ∧
        t.rd (F.DIE_LATH_STATUS_STATE b (if n.val < 120 then 3 else 0)) = 2)) ∧
  (∀ (c : Cell) (s : State),
    ∃ t, exec (.scrimSnap c) s = .next t ∧ t.rd (F.SCRIM_LAT_MAX_MAX_NS c) = mgetD 0 s.scrim.maxLive c.val % 2 ^ (F.SCRIM_LAT_MAX_MAX_NS c).width ∧
      mget t.scrim.maxLive c.val = none ∧ mgetD 0 t.scrim.snapAt c.val = s.cyc) ∧
  (∀ (d : Die) (e : Fin 4) (s : State), (edgePresent d.val).testBit e.val = true → s.mode = .drowse → s.rd (F.DIE_LATH_CTRL_LP_IDLE d e) ≠ 0 →
    s.rd (F.DIE_LATH_STATUS_STATE d e) = 2 →
    exec (.lathLpEntry d e) s = .next ((s.wr (F.DIE_LATH_STATUS_LINK_LP d e) 0xF).wr (F.DIE_LATH_STATUS_LINK_LP (facing d e) ((e.val + 2) % 4)) 0xF)) ∧
  (∀ (d : Die) (e : Fin 4) (c : Cell) (p : Pkt) (s : State), s.rd (F.DIE_LATH_STATUS_LINK_LP d e) ≠ 0 →
    ∃ t, exec (.lathLpExit d e c p) s = .next t ∧ mgetD [] t.scrim.waiting c.val = mgetD [] s.scrim.waiting c.val ++ [p]) ∧
  (∀ (d : Die) (e : Fin 4) (s : State), (edgePresent d.val).testBit e.val = true →
    ∃ t, exec (.lathEdgeActive d e) s = .next t ∧ t.rd (F.DIE_LATH_STATUS_LINK_LP d e) = 0)

/-- Fencing, sleep and return (spec/02, spec/12, spec/14). -/
def Obligations.FenceCommandsComplete : Prop :=
  (∀ (e : Elem) (s : State), s.scrim.fence.has e = false →
    ∃ t, exec (.fenceNote e) s = .next t ∧ (s.scrim.epochOpen = true → e ∈ t.scrim.nextNotes) ∧
      (s.scrim.epochOpen = false → t.scrim.epochOpen = true ∧ e ∈ t.scrim.adding)) ∧
  (∀ (c : Cell) (s : State), s.scrim.epochOpen = true → s.dieFenced (dieOf c) = false →
    ∃ t, exec (.fenceMap c) s = .next t ∧ c ∈ t.scrim.applied) ∧
  (∀ (c x : Cell) (s : State), s.scrim.epochOpen = true → c ∈ s.scrim.applied → s.dieFenced (dieOf x) = false → x ∉ s.scrim.reported → x ≠ c →
    ∃ t, exec (.fenceCompletionReport c) s = .next t ∧ t.scrim.epochOpen = true ∧ c ∈ t.scrim.reported) ∧
  (∀ (c : Cell) (s : State), s.rd (F.SCRIM_RTR_STATUS_DRAIN_STATE c) = 1 → s.injecting c = false → s.ejected c = true →
    exec (.drainedReport c) s = .next ((s.wr (F.SCRIM_RTR_STATUS_LOCAL_MODE c) 1).wr (F.SCRIM_RTR_STATUS_DRAIN_STATE c) 2)) ∧
  (∀ (c : Cell) (s : State),
    (∀ m ∈ s.portMembers c, s.rd (F.SCRIM_RTR_STATUS_DRAIN_STATE m) = 2 ∧ m ∉ s.scrim.committed ∧ s.domain (3 * m.val) = 1) →
    ∃ t, exec (.drainCommit c) s = .next t ∧ (∀ m ∈ s.portMembers c, m ∈ t.scrim.committed) ∧
      (s.portMembers c = [c] → t.domain (3 * c.val) = 2)) ∧
  (∀ (c : Cell) (s : State), s.rd (F.SCRIM_RTR_STATUS_DRAIN_STATE c) = 1 →
    ∃ t, exec (.drainLimitExpiry c) s = .next t ∧ t.rd F.RIND_SLEEP_CNT_TIMED_OUT = min 255 (s.rd F.RIND_SLEEP_CNT_TIMED_OUT + 1)) ∧
  (∀ (c : Cell) (p : Pkt) (s : State), s.rd (F.SCRIM_RTR_STATUS_LOCAL_MODE c) = 1 →
    ∃ t, exec (.holdUnitArrival c p) s = .next t ∧
      (c ∈ s.scrim.committed → ∃ q ∈ mgetD [] t.scrim.waiting c.val, q.same p = true) ∧
      (c ∉ s.scrim.committed → ∀ q ∈ mgetD [] t.scrim.waiting c.val, outOf c q ≠ .loc)) ∧
  (∀ (c : Cell) (s : State), s.domain (3 * c.val) = 3 → s.scrim.epochOpen = false →
    ∃ t, exec (.domainOnSignal c) s = .next t ∧ c ∉ t.scrim.committed ∧ (∀ q ∈ mgetD [] t.scrim.waiting c.val, outOf c q ≠ .loc) ∧
      (c.val ∉ s.sched.due → t.domain (3 * c.val) = 1)) ∧
  (∀ (c : Cell) (s : State), s.domain (3 * c.val) = 3 → s.scrim.epochOpen = false →
    ∃ t, exec (.wakeFail c) s = .next t ∧ Elem.cell c ∈ t.scrim.notes) ∧
  (∀ (s : State), (0 : Die) ∉ s.spGone → s.dieFenced 0 = false → s.activeSp = some 0 →
    ∃ t, exec (.spHeartbeatMiss 0) s = .next t ∧ (0 : Die) ∈ t.spGone ∧ (s.dieFenced 7 = false → (7 : Die) ∉ s.spGone → t.activeSp = some 7) ∧
      t.rd F.PKG_FAULT_STATUS_FAULTS = min (2 ^ F.PKG_FAULT_STATUS_FAULTS.width - 1) (s.rd F.PKG_FAULT_STATUS_FAULTS + 1)) ∧
  (∀ (s : State), s.rd F.PKG_FENCE_RETURN_BUSY = 0 →
    (∀ e : Elem, elemOf (s.rd F.PKG_FENCE_RETURN_KIND) (s.rd F.PKG_FENCE_RETURN_ELEM) = some e → s.mayReturn e = true →
      ∃ t, exec (.fenceReturnGo (.inl .sp)) s = .next t ∧ t.log.returning = some e ∧ t.rd F.PKG_FENCE_RETURN_BUSY = 1) ∧
    (∀ e : Elem, elemOf (s.rd F.PKG_FENCE_RETURN_KIND) (s.rd F.PKG_FENCE_RETURN_ELEM) = some e → s.mayReturn e = false →
      exec (.fenceReturnGo (.inl .sp)) s = .next (s.flag F.PKG_FENCE_RETURN_REFUSED)) ∧
    (elemOf (s.rd F.PKG_FENCE_RETURN_KIND) (s.rd F.PKG_FENCE_RETURN_ELEM) = none →
      exec (.fenceReturnGo (.inl .sp)) s = .next (s.flag F.PKG_FENCE_RETURN_REFUSED))) ∧
  (∀ (e : Elem) (s : State), s.log.returning = some e → s.scrim.fence.has e = true → e ∉ s.scrim.nextReturns →
    (s.scrim.epochOpen = false → s.trained e = true →
      ∃ t, exec (.returnSelfTestComplete true) s = .next t ∧ t.scrim.epochOpen = true ∧ e ∈ t.scrim.returning) ∧
    ∃ t, exec (.returnSelfTestComplete false) s = .next t ∧ e ∈ t.scrim.barred ∧ t.log.returning = none ∧ t.rd F.PKG_FENCE_RETURN_RESULT = 2)

/-- Tracker, hold queue, VOQs and responses (spec/03, spec/08). -/
def Obligations.SwitchIntakeComplete : Prop :=
  (∀ (a : Cell) (r : HostReq) (s : State), s.mode ≠ .safeStop →
    (∀ t, s.hostPass a r = some t → s.pool.paused.contains a.val = false →
      exec (.hostRequestReceive a r) s = .next (t.xingPass (F.SPILL_XING_CELL_at a 0) (HostReq.entries r))) ∧
    (s.hostPass a r = none → s.rd (F.INST_PORT_STATUS_HOLD_USED a) < 1024 →
      ∃ t, exec (.hostRequestReceive a r) s = .next t ∧
        (mgetD [] t.pool.hold a.val).length = (mgetD [] s.pool.hold a.val).length + 1 ∧
        t.rd (F.INST_PORT_STATUS_HOLD_USED a) = s.rd (F.INST_PORT_STATUS_HOLD_USED a) + 1)) ∧
  (∀ (a : Cell) (h : Held) (s : State), s.mode ≠ .safeStop → s.cellFenced a = false → mgetD 0 s.pool.admitAt a.val ≠ s.cyc + 1 →
    s.nextTurn a (mgetD 0 s.pool.ptrMin a.val) (((heads (mgetD [] s.pool.hold a.val) []).filter (fun h => s.eligible a h (s.heldVerdict a h))).filter
      (fun h => h.who < 4096 && s.bwMin h.who > 0 && decide (0 ≤ mgetD 0 s.pool.credMin h.who))) = some h →
    exec (.holdAdmit a) s = .next (State.letIn { s with
      pool.ptrMin := mset 0 s.pool.ptrMin a.val (s.turnOf a h), pool.admitAt := mset 0 s.pool.admitAt a.val (s.cyc + 1) } a h (s.heldVerdict a h))) ∧
  (∀ (c : Cell) (r : DevReq) (s : State) (a b : Nat), s.mode ≠ .safeStop → s.deviceVcs c = some (a, b) →
    (r.kind ≠ .io → exec (.deviceRequestReceive c r) s = .next (s.deviceReceive c r)) ∧
    (r.kind = .io → mgetD [] s.pool.devHeld c.val = [] →
      (∀ (i : Inst) (dpa : Nat), s.decode (Cell.of a) r.hpa.toNat = some (i, dpa) → s.pausedAt c i = true →
        ∃ t, exec (.deviceRequestReceive c r) s = .next t ∧ mgetD [] t.pool.devHeld c.val = [r]) ∧
      (∀ (i : Inst) (dpa : Nat), s.decode (Cell.of a) r.hpa.toNat = some (i, dpa) → s.pausedAt c i = false →
        s.pool.paused.contains (s.anchorOf c).val = false → s.devTupleLost c r i dpa = false →
        exec (.deviceRequestReceive c r) s = .next (s.deviceServe c r i dpa)) ∧
      (∀ (k : Slot) (sc : Cell), s.decode (Cell.of a) r.hpa.toNat = none → s.pool.paused.contains (s.anchorOf c).val = false →
        sc = s.ioCell (s.anchorOf c) (Cell.of a) → s.firstSlot sc = some k → s.spill.lost = [] →
        ∃ t, exec (.deviceRequestReceive c r) s = .next t ∧ (t.slot sc k).isSome = true ∧
          t.scrim.flight.length = s.scrim.flight.length + 1))) ∧
  (∀ (i : Inst) (r : Fin 2) (k : Ext) (s : State),
    ∃ t, exec (.defaultMapFetchReturn i r k) s = .next t ∧ (r.val, k.val) ∈ mgetD [] t.pool.mapCache i.val ∧
      (mgetD [] t.pool.mapCache i.val).length ≤ 256) ∧
  (∀ (c : Cell) (i o : Fin 10) (p : Pkt) (got : Fin 65) (x : ArriveIn) (s : State), s.endsOk i o p = true →
    (s.fromScrim c i p = true → s.behind p = false) →
    (i ≠ 0 → mgetD 0 s.xbar.admitAt (c.val * 10 + i.val) ≠ s.cyc + 1 → s.lateFrame c p = false → s.voqAbsorbs c i o p.tc = false → mgetD [] s.xbar.waiting (c.val * 10 + i.val) = [] →
      s.admits c o p.tc p.granules = true → s.ctxOf c i o p.tc = none → s.spill.lost = [] →
      ∃ t, exec (.frameArrive c i o p got x) s = .next t ∧
        t.voqAt c i o p.tc = s.voqAt c i o p.tc ++ [{ p := p, cyc := s.cyc, got := min got.val p.len.val, enq := s.ns, bad := x.bad }]) ∧
    (i ≠ 0 → s.lateFrame c p = true → exec (.frameArrive c i o p got x) s = .next (((s.take p).lateDiscard c).settleLost))) ∧
  (∀ (c : Cell) (x : StartIn) (m : Req) (g a : Nat) (s : State),
    matchRound ((s.countWaits c x).iter c) ((s.countWaits c x).requests c x) ((s.countWaits c x).rd (F.XBAR_GPTR_PTR c))
      ((s.countWaits c x).rd (F.XBAR_APTR_PTR c)) = ([m], g, a) →
    exec (.frameStart c x) s = .next ((((((s.countWaits c x).wr (F.XBAR_GPTR_PTR c) g).wr (F.XBAR_APTR_PTR c) a).startFrame c m.inp m.out m.tc
      x).admitWaiting c).settleLost)) ∧
  (∀ (c : Cell) (o : Fin 10) (s : State), s.rdb (F.XBAR_SAMP_CTRL_EN c) = true → (s.rd (F.XBAR_SAMP_CTRL_OUT_EN c)).testBit o.val = true →
    mgetD 0 s.xbar.sampCnt (c.val * 10 + o.val) = 0 →
    ∃ t, exec (.sampleCounterExpiry c o) s = .next t ∧ c.val * 10 + o.val ∈ t.xbar.sampDue ∧
      (s.rd (F.XBAR_SAMP_CTRL_RAND c) = 0 → mgetD 0 t.xbar.sampCnt (c.val * 10 + o.val) = s.rd (F.XBAR_SAMP_CTRL_N_M1 c) + 1)) ∧
  (∀ (c : Cell) (k : Slot) (x : TSlot) (r : Resp) (s : State), s.slot c k = some x → x.resp = some r → x.discard = false → x.ended = none →
    x.grantBy = none →
    ∃ t o, exec (.hostResponseDepart c k) s = .next t ∧ t.out = o :: s.out ∧ t.slot c k = none ∧
      (∀ d ur, r = .vcs d ur → o = .vcsCpl x.port d ur) ∧ (∀ p, r = .pass p → o = .tlp c p) ∧
      ((∀ d ur, r ≠ .vcs d ur) → (∀ p, r ≠ .pass p) → o = .resp c r)) ∧
  (∀ (c : Cell) (k : Slot) (x : TSlot) (n : Nat) (s : State), s.slot c k = some x → x.ended = some n → n + 3000000 ≤ s.cyc →
    ∃ t, exec (.slotHoldExpire c k) s = .next t ∧ t.slot c k = none) ∧
  (∀ (c : Cell) (s : State), exec (.xbarClrHwm c) s = .next (s.wr (F.XBAR_TRACK_HWM c) (s.rd (F.XBAR_TRACK_IN_USE c))))

/-- Spill queues, gates and observation (spec/04, spec/05). -/
def Obligations.SpillAndGateComplete : Prop :=
  (∀ (c : Cell) (n : Fin 1572864) (bad : BitVec 129) (s : State), (s.spare c).length < 4 →
    mget s.spill.granted (s.spillStack c * 2 ^ 21 + n.val) = none → s.stackFenced (s.spillStack c) = false → s.chunkOk c = true →
    (∀ m, s.sctx c m = none) → s.spill.lost = [] →
    ∃ t, exec (.chunkGrant c n bad) s = .next t ∧ t.spare c = s.spare c ++ [n.val] ∧
      mget t.spill.granted (s.spillStack c * 2 ^ 21 + n.val) = some c.val) ∧
  (∀ (c : Cell) (n : Fin 64) (x : SpillCtx) (w : WFrame) (s : State), s.sctx c n = some x → x.frames.find? (fun w => !w.acked) = some w →
    s.slotWritten c x w = true → (∀ i, mgetD [] s.xbar.waiting (c.val * 10 + i) = []) →
    ∃ t, exec (.lengthSlotAck c n) s = .next t ∧
      t.sctx c n = some { x with frames := x.frames.map (fun v => if v.fseq = w.fseq then { v with acked := true } else v), headReg := true }) ∧
  (∀ (c : Cell) (n : Fin 64) (x : SpillCtx) (w : WFrame) (l : List WFrame) (s : State), s.sctx c n = some x → x.headReg = true → x.fetch = false →
    x.committed = w :: l → (s.voqAt c x.inp x.out x.tc).length + ((mgetD [] s.xbar.waiting (c.val * 10 + x.inp)).filter
      (fun f => f.1 == x.out && f.2.p.tc.val == x.tc && f.2.whey)).length ≤ 1 →
    exec (.spillFetch c n) s = .next ((((s.xingPass (F.SPILL_XING_HBM_at (stackDie x.stack) 0) (x.touched w).length).setSctx c n
      { x with fetch := true }).inc (F.SPILL_STATUS_FETCH_OUT c)).readPkts c n x w)) ∧
  (∀ (c : Cell) (n : Fin 64) (r : SpillIn) (x : SpillCtx) (w : WFrame) (l : List WFrame) (s : State), s.sctx c n = some x → x.frames = w :: l →
    x.fetch = true → exec (.spillReadReturn c n r) s = .next ((State.spillData
      { s with scrim.flight := s.scrim.flight.filter (fun f => !(f.p.opc == Opc.bulk && f.p.src == c && f.p.tagSlot.val == 0x3FE && f.p.htid.val == n.val)) } c n x w
        r).settleLost)) ∧
  (∀ (k : Stack) (s : State), ∃ t, exec (.hbmWatchdogExpiry k) s = .next t ∧ Elem.stack k ∈ t.scrim.notes) ∧
  (∀ (c : Cell) (s : State),
    ∃ t, exec (.spillCtxView0Read c) s = .next t ∧ (s.sctx c (s.rd (F.SPILL_CTX_SEL_CTX c)) = none → t.reg (F.SPILL_CTX_VIEW0_at c) = 0) ∧
      ∀ x, s.sctx c (s.rd (F.SPILL_CTX_SEL_CTX c)) = some x → t.rd (F.SPILL_CTX_VIEW0_ACTIVE c) = 1 ∧
        t.rd (F.SPILL_CTX_VIEW0_TC c) = x.tc % 2 ^ (F.SPILL_CTX_VIEW0_TC c).width ∧
        t.rd (F.SPILL_CTX_VIEW2_CHUNKS c) = x.chunks.length % 2 ^ (F.SPILL_CTX_VIEW2_CHUNKS c).width) ∧
  (∀ (x : Xing) (s : State), (regAt (xingAddr x)).isSome = true →
    (∀ (d : Die) (e j : Fin 4), x = .lath d e j → (edgePresent d.val).testBit e.val = true) →
    exec (.spillXingClrHwm x) s = .next (s.wr (xingHwm (xingAddr x)) (getBits (s.xingWord (xingAddr x) 0) 16 16))) ∧
  (∀ (c : Cell) (s : State), ∃ t, exec (.gateBoundary c) s = .next t ∧ t.rd (F.GATE_STATUS_OPEN c) = s.gatesOpen c % 2 ^ (F.GATE_STATUS_OPEN c).width) ∧
  (∀ (c : Cell) (s : State), s.rd (F.SHP_OBS_CTRL_HIST_PERIOD c) ≠ 0 →
    (s.retained c = false → ∃ t, exec (.histPeriodEnd c true) s = .next t ∧ mgetD 0 t.sched.since c.val = s.ns) ∧
    (s.retained c = true → ∃ t, exec (.histPeriodEnd c true) s = .next t ∧ c.val ∈ t.sched.due)) ∧
  (∀ (c : Cell) (s : State), ∃ t, exec (.shpObsSnap c true) s = .next t ∧ mgetD 0 t.sched.since c.val = s.ns) ∧
  (∀ (c : Cell) (s : State), s.retained c = false →
    ∃ t, exec (.depthSample c) s = .next t ∧ ∀ (q : Fin 4) (o tc : Nat), s.watched c q = some (o, tc) →
      (mgetD {} t.sched.live (c.val * 4 + q.val)).depth = bump (mgetD {} s.sched.live (c.val * 4 + q.val)).depth (depthBucket (s.queueDepth c o tc).1)) ∧
  (∀ (c : Cell) (v n : Nat) (s : State), mget s.xbar.skimWin c.val = some (v, n) → s.activeSp ≠ none →
    ∃ t, exec (.skimYieldWindowEnd c) s = .next t ∧ mget t.xbar.skimWin c.val = none ∧
      ∃ r, t.log.fault.head? = some r ∧ r.kind = 2 ∧ r.cause = 0x010E ∧ r.detail = (v + 256 * n) % 65536)

/-- Requests that a home receives (spec/06). `q` is the packet with the opcode of its command. -/
def Obligations.CoherenceRequestsComplete : Prop :=
  (∀ (p q : Pkt) (ecc : Ecc) (c : Instr) (o : Opc) (s : State),
    (c, o) ∈ [(.rds p ecc, .rds), (.rda p ecc, .rda), (.rdi p ecc, .rdi), (.inva p ecc, .inva), (.wri p ecc, .wri), (.wra p ecc, .wra),
      (.wrptl p ecc, .wrptl), (.clnevct p ecc, .clnevct), (.recallMsg p ecc, .recall)] →
    q = { p with opc := o } → s.mayArrive q = true →
    (∀ id t, s.txnOfTag p.dst p = some (id, t) → p.gen ≤ t.req.gen → exec c s = .next ((s.take q).inc (F.HOME_LATE_COUNT p.dst))) ∧
    (∀ id t, s.txnOfTag p.dst p = some (id, t) → t.req.gen < p.gen → exec c s = .next ((s.take q).adopt p.dst id t q)) ∧
    (∀ id t w, s.txnOfTag p.dst p = none → s.wbOf p.dst p = some (id, t, w) → exec c s = .next ((s.take q).adoptWb p.dst id t w q)) ∧
    (s.txnOfTag p.dst p = none → s.wbOf p.dst p = none → p.dst.val * 128 + s.lineIdx p.dst p.line ∈ s.home.gaveBack →
      exec c s = .next ((s.take q).inc (F.HOME_LATE_COUNT p.dst))) ∧
    (s.txnOfTag p.dst p = none → s.wbOf p.dst p = none → p.dst.val * 128 + s.lineIdx p.dst p.line ∉ s.home.gaveBack →
      (∀ id t, o ∈ [Opc.wri, .wra, .wrptl, .clnevct] → s.crossing p.dst q = some (id, t) →
        exec c s = .next (((s.take q).takeWb p.dst id t q).2.setTxn p.dst id ((s.take q).takeWb p.dst id t q).1)) ∧
      ((o ∈ [Opc.wri, .wra, .wrptl, .clnevct] → s.crossing p.dst q = none) →
        (mgetD [] s.home.intake p.dst.val ≠ [] → exec c s = .next ((s.take q).intakePut p.dst { p := q, ecc := ecc })) ∧
        (mgetD [] s.home.intake p.dst.val = [] →
          (s.lineHeld p.dst p.line = true →
            ∃ t, exec c s = .next t ∧ t.home.setAside = mmod [] s.home.setAside p.dst.val (· ++ [{ p := q, ecc := ecc }])) ∧
          (∀ id, s.lineHeld p.dst p.line = false → s.freeGeneral p.dst = some id →
            exec c s = .next ((((((s.take q).intakePut p.dst { p := q, ecc := ecc }).intakeTake p.dst
              (fun x => x == ({ p := q, ecc := ecc } : HReq))).inc (F.HOME_REQS_COUNT p.dst)).ctrEvent p.dst 0x0E [intakeBit o]).depart p.dst id q
                ecc)))))) ∧
  (∀ (p q : Pkt) (s : State), q = { p with opc := .specrd } → s.mayArrive q = true → s.txnOfTag p.dst p = none → s.wbOf p.dst p = none →
    p.dst.val * 128 + s.lineIdx p.dst p.line ∉ s.home.gaveBack →
    (mgetD [] s.home.intake p.dst.val ≠ [] → exec (.specrd p) s = .next ((s.take q).intakePut p.dst { p := q })) ∧
    (∀ id, mgetD [] s.home.intake p.dst.val = [] → s.freeGeneral p.dst = some id →
      (s.lineBlocked p.dst p.line = true ∨ s.lineHeld p.dst p.line = true ∨ s.rd (F.HOME_CFG_SPEC_EN p.dst) = 0 ∨ (s.extOf p.dst p.ext).noMem = true →
        ∃ t, exec (.specrd p) s = .next t ∧ t.scrim.flight = (s.take q).scrim.flight) ∧
      (s.lineBlocked p.dst p.line = false → s.lineHeld p.dst p.line = false → s.rd (F.HOME_CFG_SPEC_EN p.dst) ≠ 0 →
        (s.extOf p.dst p.ext).noMem = false →
        ∃ t f, exec (.specrd p) s = .next t ∧ t.scrim.flight = (s.take q).scrim.flight ++ [{ loc := p.dst, p := f }] ∧ f.opc = .mspec ∧
          f.dst = (s.extOf p.dst p.ext).mcell ∧ f.home = p.dst))) ∧
  (∀ (h : Cell) (line : BitVec 46) (s : State),
    (∀ id t, s.lineBlocked h line.toNat = false → s.chainHead h line.toNat = some (id, t) → t.awDir = false →
      exec (.homeChainStart h line) s = .next (((((s.startTxn h id ({ t with phase := .lookup } : Txn) .clean).startWaiter h line.toNat).startInstall h
        line.toNat).proxyRun h line.toNat).departNext h)) ∧
    (∀ id r l, (s.lineBlocked h line.toNat = true ∨ s.chainHead h line.toNat = none) → s.wayWaiter h line.toNat = none →
      mgetD [] s.home.parked h.val = [] → mgetD [] s.home.pchain h.val = [] → mgetD [] s.home.intake h.val = r :: l →
      s.txnOfTag h r.p = none → s.lineHeld h r.p.line = false → s.entryFor h r.p.opc = some id → r.p.opc ≠ .specrd →
      exec (.homeChainStart h line) s = .next ((((s.intakeTake h (fun x => x == r)).inc (F.HOME_REQS_COUNT h)).ctrEvent h 0x0E
        [intakeBit r.p.opc]).depart h id r.p r.ecc))) ∧
  (∀ (p q : Pkt) (s : State), q = { p with opc := .biconf } → s.mayArrive q = true →
    (s.snoopOpen p.dst p = true → s.grantOpen p.dst p = true →
      ∃ t, exec (.biconf p) s = .next t ∧ t.home.conflicts = mmod [] s.home.conflicts p.dst.val (· ++ [q])) ∧
    (s.snoopOpen p.dst p = true → s.grantOpen p.dst p = false →
      exec (.biconf p) s = .next (((s.take q).ctrEvent p.dst 0x0E [5]).sendBicack p.dst q)) ∧
    (s.snoopOpen p.dst p = false →
      exec (.biconf p) s = .next ((((s.take q).ctrEvent p.dst 0x0E [5]).inc (F.HOME_PROTO_COUNT p.dst)).sendBicack p.dst q)))

/-- MEMORY cells and the directory's HBM (spec/06, spec/08, spec/09). -/
def Obligations.MemoryAndDirectoryComplete : Prop :=
  (∀ (p q : Pkt) (s : State), q = { p with opc := .mrd } → s.mayArrive q = true → s.keyWait p.dst q = false →
    (s.roleOf p.dst = .onora → exec (.mrd p) s = .next ((s.take q).exportSend p.dst q)) ∧
    (s.roleOf p.dst ≠ .onora →
      (s.peerOk q = false → exec (.mrd p) s = .next (((s.take q).exportViolation q false).answerRead p.dst q 0 false)) ∧
      (s.peerOk q = true → (s.homeExt p.dst p.ext).st = .lost →
        exec (.mrd p) s = .next (((s.take q).sat (F.INST_MEM_ERR_LOST_ACC p.dst)).readFail p.dst q (s.parentAcc q false) true)) ∧
      (s.peerOk q = true → (s.homeExt p.dst p.ext).st ≠ .lost → s.pool.lost.contains p.dst.val = false →
        (∀ d k, s.devEnt p.dst p.ext = some d → s.keyAt p.dst d q = some k →
          exec (.mrd p) s = .next (((s.take q).putAcc { cell := p.dst, p := q, write := false, of_ := s.parentAcc q false }).2.emit
            (.expRead p.dst s.pool.nextAcc (d.dpa q)))) ∧
        ((∀ d, s.devEnt p.dst p.ext = some d → s.keyAt p.dst d q = none) →
          exec (.mrd p) s = .next (((s.take q).noKey p.dst).readFail p.dst q (s.parentAcc q false) false))))) ∧
  (∀ (p q : Pkt) (s : State), q = { p with opc := .mspec } → s.mayArrive q = true → s.keyWait p.dst q = false →
    (s.roleOf p.dst = .onora → exec (.mspec p) s = .next ((s.take q).exportSend p.dst q)) ∧
    (s.roleOf p.dst ≠ .onora →
      (s.peerOk q = false → exec (.mspec p) s = .next ((s.take q).exportViolation q false)) ∧
      (∀ d k, s.peerOk q = true → s.devEnt p.dst p.ext = some d → s.keyAt p.dst d q = some k →
        exec (.mspec p) s = .next (((s.take q).putAcc { cell := p.dst, p := q, write := false, spec := true }).2.emit
          (.expRead p.dst s.pool.nextAcc (d.dpa q)))) ∧
      (s.peerOk q = true → (∀ d, s.devEnt p.dst p.ext = some d → s.keyAt p.dst d q = none) →
        exec (.mspec p) s = .next ((s.take q).noKey p.dst)))) ∧
  (∀ (p q : Pkt) (s : State), q = { p with opc := .wdata } → s.mayArrive q = true → s.keyWait p.dst q = false →
    (s.roleOf p.dst = .onora → exec (.wdata p) s = .next ((s.take q).exportSend p.dst q)) ∧
    (s.roleOf p.dst ≠ .onora →
      (s.peerOk q = false → exec (.wdata p) s = .next (((s.take q).exportViolation q true).answerWrite p.dst q)) ∧
      (s.peerOk q = true → (s.homeExt p.dst p.ext).st ≠ .lost → s.pool.lost.contains p.dst.val = false →
        (∀ d k, s.devEnt p.dst p.ext = some d → s.keyAt p.dst d q = some k →
          (s.mustHold p.dst q = true →
            exec (.wdata p) s = .next ((s.take q).putAcc { cell := p.dst, p := q, write := true, held := true, of_ := s.parentAcc q true }).2) ∧
          (s.mustHold p.dst q = false → exec (.wdata p) s = .next ((s.take q).performWrite p.dst q (s.parentAcc q true) d k))) ∧
        ((∀ d, s.devEnt p.dst p.ext = some d → s.keyAt p.dst d q = none) →
          exec (.wdata p) s = .next (((s.take q).noKey p.dst).discardWrite p.dst q (s.parentAcc q true)))))) ∧
  (∀ (m : Cell) (n : Nat) (a : MemAcc) (raw : Line) (st : ExpSt) (s : State), mget s.pool.acc n = some a → a.cell = m →
    (a.spec = true → exec (.expanderReadData m n raw st) s = .next (s.dropAcc n)) ∧
    (∀ d key, a.spec = false → s.devEnt m a.p.ext = some d → s.keyAt m d a.p = some key → a.rmw = false → a.of_ = none → st = .ok →
      exec (.expanderReadData m n raw st) s = .next (((s.ctrEvent m 0x18 [1]).dropAcc n).answerRead m a.p (decrypt key a.p.line raw) false)) ∧
    (∀ d, a.spec = false → s.devEnt m a.p.ext = some d → s.keyAt m d a.p = none → a.rmw = false →
      exec (.expanderReadData m n raw st) s = .next (((s.dropAcc n).noKey m).readFail m a.p a.of_ false)) ∧
    (a.write = true → a.held = false →
      exec (.expanderWriteComplete m n) s = .next (s.writeStep n { a with awOwn := false }))) ∧
  (∀ (p q : Pkt) (s : State), q = { p with opc := .mflush } → s.mayArrive q = true →
    exec (.mflush p) s = .next ((((s.take q).putAcc
      { cell := p.dst, p := q, write := false, awOwn := false, flush := true }).2).answerFlushes p.dst p.line)) ∧
  (∀ (p q : Pkt) (mir : Ecc) (ns : BitVec 32) (s : State), q = { p with opc := .dirrd } → s.dieFenced (dieOf p.dst) = false →
    s.stackFenced (dieStack (dieOf p.dst)) = false → s.behind q = false → q.stomp = false →
    ∃ t f, exec (.dirrd p .clean mir ns) s = .next t ∧ t.scrim.flight = (s.take q).scrim.flight ++ [{ loc := p.dst, p := f }] ∧
      f.opc = .dirdata ∧ f.dst = p.src ∧ f.len = 4 ∧ f.pois = 0 ∧
      f.data = (List.range 4).map (fun i => packUnit (((s.setIn (decide (p.addr.toNat ≥ 0x200000000)) (offsetCell (dieOf p.dst) p.addr.toNat)
        (p.addr.toNat / 256 % 2 ^ 20)).drop (4 * i)).take 4))) ∧
  (∀ (p q : Pkt) (ns : BitVec 32) (s : State), q = { p with opc := .dirwr } → s.dieFenced (dieOf p.dst) = false →
    s.stackFenced (dieStack (dieOf p.dst)) = false → s.behind q = false → q.stomp = false → ns.toNat ≤ 110 →
    (s.holdsBlock (dieOf p.dst) q = false →
      ∃ t f, exec (.dirwr p ns) s = .next t ∧ t.scrim.flight = (s.take q).scrim.flight ++ [{ loc := p.dst, p := f }] ∧
        f.opc = .dirack ∧ f.dst = p.src ∧ f.len = 0 ∧ f.htid = p.htid) ∧
    (s.holdsBlock (dieOf p.dst) q = true →
      ∃ t, exec (.dirwr p ns) s = .next t ∧ t.scrim.flight = (s.take q).scrim.flight ∧
        t.home.rsHeld = mmod [] s.home.rsHeld (dieOf p.dst) (· ++ [q]))) ∧
  (∀ (p q : Pkt) (s : State), q = { p with opc := .dirdata } → s.mayArrive q = true →
    (∀ t, s.txn p.dst p.htid = some t → t.awDir = true → t.phase ≠ .chain →
      (s.cset p.dst (s.slabCell p.dst t.req.line) (dirSet t.req.line) = none → s.indexPinned p.dst (dirSet t.req.line) = false →
        exec (.dirdata p) s = .next (((s.take q).haveSet p.dst (s.slabCell p.dst t.req.line) (dirSet t.req.line)
          (if p.poison then none else some (p.data.flatMap unpackUnit))).withSet p.dst p.htid { t with awDir := false, reload := false })) ∧
      (∀ x, s.cset p.dst (s.slabCell p.dst t.req.line) (dirSet t.req.line) = some x → t.reload = false →
        exec (.dirdata p) s = .next ((s.take q).withSet p.dst p.htid { t with awDir := false, reload := false }))) ∧
    (s.txn p.dst p.htid = none → exec (.dirdata p) s = .next ((s.take q).inc (F.HOME_LATE_COUNT p.dst)))) ∧
  (∀ (p q : Pkt) (s : State), q = { p with opc := .dirack } → s.mayArrive q = true →
    (∀ t, s.txn p.dst p.htid = some t → p.src ∈ t.rsAck →
      exec (.dirack p) s = .next ((s.take q).advance p.dst p.htid { t with rsAck := t.rsAck.erase p.src })) ∧
    (∀ t, s.txn p.dst p.htid = some t → p.src ∉ t.rsAck → t.awAck ≠ 0 →
      exec (.dirack p) s = .next ((s.take q).advance p.dst p.htid { t with awAck := t.awAck - 1 })) ∧
    (s.txn p.dst p.htid = none → exec (.dirack p) s = .next ((s.take q).inc (F.HOME_LATE_COUNT p.dst))))

/-- Responses, snoops and directory lookups (spec/06). -/
def Obligations.ResponsesAndSnoopsComplete : Prop :=
  (∀ (p : Pkt) (x : TSlot) (s : State), s.slot p.dst p.tagSlot = some x → x.hdr.gen = p.gen → x.ended = none →
    (s.mayArrive { p with opc := .grant } = true →
      (∀ d, x.dev = some d → exec (.grant p) s = .next ((s.take { p with opc := .grant }).devLine p.dst p.tagSlot
        { x with granted := some p.mv, grantBy := some (p.src, p.htid), grantM := p.mcell })) ∧
      (x.dev = none → ∃ t y, exec (.grant p) s = .next t ∧ t.slot p.dst p.tagSlot = some y ∧ y.granted = some p.mv ∧
        y.grantBy = some (p.src, p.htid) ∧ (x.hdr.opc = .inva → y.resp = some .cmpE) ∧
        (∀ d po, x.hdr.opc ≠ .inva → x.rdata = some (d, po) → y.resp = some (.memData p.mv d po)))) ∧
    (s.mayArrive { p with opc := .rdata } = true →
      (∀ d, x.rdata = none → x.dev = some d → exec (.rdata p) s = .next ((s.take { p with opc := .rdata }).devLine p.dst p.tagSlot
        { x with rdata := some (p.data.headD 0, p.poison), rdataFrom := p.src })) ∧
      (x.rdata = none → x.dev = none → ∃ t y, exec (.rdata p) s = .next t ∧ t.slot p.dst p.tagSlot = some y ∧
        y.rdata = some (p.data.headD 0, p.poison) ∧
        (∀ mv, x.granted = some mv → y.resp = some (.memData mv (p.data.headD 0) p.poison))) ∧
      (∀ d, x.rdata = some d → exec (.rdata p) s = .next ((s.take { p with opc := .rdata }).lateDiscard p.dst))) ∧
    (s.mayArrive { p with opc := .wgo } = true →
      (s.cellFenced p.src = true → exec (.wgo p) s = .next (s.take { p with opc := .wgo })) ∧
      (s.cellFenced p.src = false → exec (.wgo p) s = .next ((((s.take { p with opc := .wgo }).setSlot p.dst p.tagSlot
        { x with wgo := some (p.src, p.mcell, p.htid) }).send
          { p with opc := .wdata, src := p.dst, dst := p.mcell, home := p.src, bmask := x.hdr.bmask, tc := s.dataTc p.dst x.hdr.inst, len := 1,
                   data := x.wdata, pois := x.hdr.pois }).releaseBirsp x.port p.line))) ∧
    (s.mayArrive { p with opc := .wcmp } = true →
      (∀ d, x.dev = some d → exec (.wcmp p) s = .next (((s.take { p with opc := .wcmp }).freeKept p.dst p.tagSlot).devLine p.dst p.tagSlot x)) ∧
      (x.dev = none → x.io = true → exec (.wcmp p) s =
        .next (((s.take { p with opc := .wcmp }).freeKept p.dst p.tagSlot).releaseSlot p.dst p.tagSlot x)) ∧
      (x.dev = none → x.io = false → exec (.wcmp p) s = .next ((((s.take { p with opc := .wcmp }).freeKept p.dst p.tagSlot).setSlot p.dst p.tagSlot
        { x with resp := some .cmp }).releaseBirsp x.port p.line)))) ∧
  (∀ (p : Pkt) (s : State),
    (s.mayArrive { p with opc := .mcmp } = true → s.chainSlot p.dst p.tagSlot = none → s.fwdOf p.dst p.line = none →
      (∀ t, s.txn p.dst p.htid = some t → t.req.line = p.line → t.proxy = false → t.awMrd = true → Pkt.tagGen t.req = Pkt.tagGen p →
        exec (.mcmp p) s = .next ((s.take { p with opc := .mcmp }).advance p.dst p.htid { t with awMrd := false })) ∧
      (∀ t, s.txn p.dst p.htid = some t → t.req.line = p.line → t.awMrd = false → Pkt.tagGen p ∈ t.awWb →
        exec (.mcmp p) s = .next ((s.take { p with opc := .mcmp }).advance p.dst p.htid { t with awWb := t.awWb.erase (Pkt.tagGen p) })) ∧
      (s.txn p.dst p.htid = none → exec (.mcmp p) s = .next ((s.take { p with opc := .mcmp }).inc (F.HOME_LATE_COUNT p.dst)))) ∧
    (s.mayArrive { p with opc := .done } = true →
      (∀ t, s.txn p.dst p.htid = some t → t.awDone = true → t.req.line = p.line → t.proxy = false → Pkt.tagGen t.req = Pkt.tagGen p →
        exec (.done p) s = .next (((s.take { p with opc := .done }).advance p.dst p.htid { t with awDone := false }).answerConflicts p.dst)) ∧
      (s.txn p.dst p.htid = none →
        exec (.done p) s = .next (((s.take { p with opc := .done }).inc (F.HOME_LATE_COUNT p.dst)).answerConflicts p.dst))) ∧
    (s.mayArrive { p with opc := .birsp } = true →
      (∀ t, s.txn p.dst p.htid = some t → t.req.line = p.line → t.awSnp.contains p.hslot = true → t.snpWait.contains p.hslot = false →
        exec (.birsp p) s = .next (((s.take { p with opc := .birsp }).countExtra p.dst t p.mv).snoopAnswer p.dst p.htid t p.hslot p.mv)) ∧
      (s.txn p.dst p.htid = none → s.fwdOf p.dst p.line = none →
        exec (.birsp p) s = .next ((s.take { p with opc := .birsp }).inc (F.HOME_LATE_COUNT p.dst)))) ∧
    (s.mayArrive { p with opc := .bicack } = true →
      exec (.bicack p) s = .next ((s.take { p with opc := .bicack }).emit (.biConflictAck p.dst p.addr)))) ∧
  (∀ (p : Pkt) (w : Sweep) (g : SweepEng) (s : State), s.mayArrive { p with opc := .rcmp } = true → s.pool.sweeps = [w] → w.engs = [g] →
    ctrlCell g.die = p.dst → g.line = some p.line →
    (∀ l, s.rd (F.INST_ENG_STATUS_RECALL_OPEN g.die) ≤ 2048 → sweepLine w.exts g.next = some l →
      ∃ t : State, exec (.rcmp p) s = .next t.nextCommit ∧
        t.pool.sweeps = [{ w with engs := [{ g with line := some l, next := g.next + 1 }] }] ∧
        ∃ f, f ∈ t.scrim.flight ∧ f.p.opc = .recall ∧ f.p.line = l % 2 ^ 46) ∧
    (sweepLine w.exts g.next = none →
      exec (.rcmp p) s = .next ((((s.take { p with opc := .rcmp }).dec (F.INST_ENG_STATUS_RECALL_OPEN g.die)).sweepEnd w
        { w with engs := [{ g with line := none }] } g.die).nextCommit))) ∧
  (∀ (p q : Pkt) (c : Instr) (o : Opc) (s : State), (c, o) ∈ [(.bisnpcur p, .bisnpcur), (.bisnpdata p, .bisnpdata), (.bisnpinv p, .bisnpinv)] →
    q = { p with opc := o } → s.mayArrive q = true → (∀ e ∈ s.home.bitag, e.1 / 4096 ≠ p.dst.val) →
    ∃ t, exec c s = .next t ∧ t.out = .biSnp p.dst 0 o p.addr :: s.out ∧
      mget t.home.bitag (p.dst.val * 4096) = some { home := p.src, htid := p.htid, addr := p.addr, hslot := p.hslot, opc := o }) ∧
  (∀ (a : Cell) (n : Fin 4096) (mv : Mv) (b : BiTag) (s : State), mget s.home.bitag (a.val * 4096 + n.val) = some b → b.held = none →
    (s.writeOpen a (b.addr.toNat / 64) s.cyc = true → ∃ t, exec (.hostBirsp a n mv) s = .next t ∧
      mget t.home.bitag (a.val * 4096 + n.val) = some { b with held := some mv, heldAt := s.cyc } ∧ t.rd (F.HOME_BIRSP_HOLD_COUNT a) = (s.inc (F.HOME_BIRSP_HOLD_COUNT
        a)).rd (F.HOME_BIRSP_HOLD_COUNT a)) ∧
    (s.writeOpen a (b.addr.toNat / 64) s.cyc = false → exec (.hostBirsp a n mv) s = .next (s.sendBirsp a n.val b mv))) ∧
  (∀ (a : Cell) (addr : BitVec 52) (s : State),
    ∃ t f, exec (.hostBiconflict a addr) s = .next t ∧ t.scrim.flight = s.scrim.flight ++ [{ loc := a, p := f }] ∧ f.opc = .biconf ∧ f.addr = addr ∧
      (∀ e ∈ s.home.bitag, e.1 / 4096 = a.val → e.2.addr.toNat / 64 ≠ addr.toNat / 64) → f.dst = s.homeOf a (addr.toNat / 64)) ∧
  (∀ (h : Cell) (hs : HSlot) (s : State), s.activeSp ≠ none →
    ∃ t r, exec (.snpTimeoutExpiry h hs) s = .next t ∧ t.log.fault.head? = some r ∧ r.cls = 0x0F ∧ r.cause = 0x000D ∧ r.detail = hs.val) ∧
  (∀ (h : Cell) (s : State),
    (∃ t, exec (.dirLookup h) s = .next t ∧ h ∈ t.home.looking ∧ t.rd (F.DIR_VIEW2_VALID h) = 0) ∧
    (h ∈ s.home.looking → ∃ t, exec (.dirLookupComplete h) s = .next t ∧ h ∉ t.home.looking ∧ t.rd (F.DIR_VIEW2_VALID h) = 1 ∧
      t.rd (F.DIR_VIEW2_HOME h) = (s.homeOf h (s.rd (F.DIR_SEL_LINE h))).val) ∧
    (∃ t, exec (.homeTtClrHwm h) s = .next t ∧ t.rd (F.HOME_TT_HWM h) = s.rd (F.HOME_TT_IN_USE h)))

/-- Owner proxies, home takeover, twins and re-silvering (spec/07). -/
def Obligations.OwnerOrderingAndTakeoverComplete : Prop :=
  (∀ (p q : Pkt) (s : State), q = { p with opc := .fwd } → s.mayArrive q = true →
    (∀ f ∈ mgetD [] s.home.fwdServe p.dst.val, f.p.line ≠ p.line) → (∀ i ∈ mgetD [] s.home.pchain p.dst.val, i.isFwd = false) →
    (256 ≤ s.rd (F.HOME_PROXY_STATUS_FWD_USE p.dst) →
      ∃ t, exec (.fwd p) s = .next t ∧ t.home.fwdWait = mmod [] s.home.fwdWait p.dst.val (· ++ [q]) ∧ t.home.pchain = s.home.pchain) ∧
    (s.rd (F.HOME_PROXY_STATUS_FWD_USE p.dst) < 256 → mgetD [] s.home.fwdWait p.dst.val = [] →
      exec (.fwd p) s = .next (({ s.take q with
        home.pchain := mmod [] s.home.pchain p.dst.val (· ++ [({ line := BitVec.ofNat 46 p.line, isFwd := true, p := q } : PItem)]) }.inc
          (F.HOME_PROXY_STATUS_FWD_USE p.dst)).proxyRun p.dst p.line))) ∧
  (∀ (p q : Pkt) (c : Instr) (s : State), (c, q) ∈ [(.frsp p, { p with opc := Opc.frsp }), (.fkeep p, { p with opc := Opc.fkeep, mv := .E })] →
    s.mayArrive q = true →
    (∀ t hs, s.txn p.dst p.htid = some t → t.awFwd.find? (fun k => s.anchorFor p.dst k == p.src) = some hs → t.phase = .fwd →
      exec c s = .next ((s.take q).advance p.dst p.htid { t with awFwd := t.awFwd.erase hs, found := ownerLeft t.found q.mv })) ∧
    (s.txn p.dst p.htid = none → exec c s = .next ((s.take q).inc (F.HOME_LATE_COUNT p.dst)))) ∧
  (∀ (a : Cell) (s : State),
    ∃ t, exec (.proxyAgeCheck a) s = .next t ∧
      (∀ e ∈ s.home.proxy, e.1 / 4096 ≠ a.val ∨ PEnt.busy e.2 = true ∨ e.2.held ≠ .I ∨ s.rd (F.HOME_PROXY_CFG_IDLE_DROP a) = 0 ∨
        s.us - e.2.since < s.rd (F.HOME_PROXY_CFG_IDLE_DROP a) → e ∈ t.home.proxy) ∧
      (∀ e ∈ t.home.proxy, e ∈ s.home.proxy) ∧
      (∀ e ∈ t.home.proxy, e.1 / 4096 = a.val → PEnt.busy e.2 = false → e.2.held = .I → s.rd (F.HOME_PROXY_CFG_IDLE_DROP a) ≠ 0 →
        s.us - e.2.since < s.rd (F.HOME_PROXY_CFG_IDLE_DROP a))) ∧
  (∀ (a : Cell) (s : State),
    ∃ t, exec (.homeProxyClrHwm a) s = .next t ∧ t.rd (F.HOME_PROXY_STATUS_HWM a) = s.rd (F.HOME_PROXY_STATUS_ENTRIES a)) ∧
  (∀ (s : State), ∃ t, exec .takeoverQuiesceComplete s = .next t ∧
    ∀ c : Cell, t.rd (F.HOME_TAKE_STATE c) = (if c ∈ s.takingOver 1 then 2 else s.rd (F.HOME_TAKE_STATE c))) ∧
  (∀ s : State, s.flushOpen = true ∨ s.givingOpen = true → exec (.takeoverFlushComplete none) s = .next s) ∧
  (∀ (c : Cell) (s : State), s.takingOver 2 = [c] → s.flushOpen = false → s.home.giving = [] → mgetD [] s.home.setAside c.val = [] →
    ∃ t, exec (.takeoverFlushComplete none) s = .next t ∧ t.rd (F.HOME_TAKE_STATE c) = 3 ∧ t.rd (F.HOME_TAKE_SET_ASIDE c) = 0 ∧
      t.home.held = s.home.held.filter (fun k => k / 128 != c.val)) ∧
  (∀ (c : Cell) (hs : HSlot) (s : State),
    (s.twinOf c hs = none → exec (.twinLossNote c hs) s = .next (s.slotGone c hs)) ∧
    (∀ k, s.twinOf c hs = some k → s.slotLost c hs = false →
      (s.slotLost c k = true → exec (.twinLossNote c hs) s = .next ((s.slotGone c k).slotGone c hs)) ∧
      (s.slotLost c k = false →
        exec (.twinLossNote c hs) s = .next ({ s with home.twinLost := s.home.twinLost ++ [c.val * 128 + hs.val] }.resendTo c hs)))) ∧
  (∀ (d : Die) (s : State), s.rd (F.DIR_REBUILD_STATUS_ACTIVE d.val) = 1 →
    ∃ t : State, exec (.resilverBlockAck d) s = .next t.rebuildEnd.giveBack ∧
      t.rd (F.DIR_REBUILD_STATUS_CURSOR d.val) = (s.rd (F.DIR_REBUILD_STATUS_CURSOR d.val) + 1) % 2 ^ (F.DIR_REBUILD_STATUS_CURSOR d.val).width ∧
      (resilverBlocks ≤ s.rd (F.DIR_REBUILD_STATUS_CURSOR d.val) + 1 →
        t.rd (F.DIR_REBUILD_STATUS_ACTIVE d.val) = 0 ∧ t.rd (F.DIR_REBUILD_STATUS_RESULT d.val) = 1))

/-- Fabric manager, binding, Dynamic Capacity and links (spec/08, spec/16). -/
def Obligations.PoolAndPortCommandsComplete : Prop :=
  (∀ (port : Cell) (i : Inst) (s : State), s.mgr.holder = some .mgr → s.envelope.reads.getLsbD 6 = true →
    exec (.fmGetVcsInfo .mgr port) s = .next (s.emit (.fm .mgr true ((List.range 64).map (fun v => (s.reg (F.INST_VPPB_at port v)).toNat)))) ∧
    (∃ a b, exec (.fmGetDcdInfo .mgr) s = .next (s.emit (.fm .mgr true [2, 2 ^ 30, a, b])) ∧ b ≤ a) ∧
    (∃ l, exec (.fmGetHostDcRegionCfg .mgr i) s = .next (s.emit (.fm .mgr true l)) ∧ l[2]? = some ((s.owner i).exts.length * 2 ^ 30))) ∧
  (∀ (s : State), s.mgr.holder = some .mgr →
    (∀ (i : Inst) (port : Cell) (v : Fin 64), s.judge (F.INST_BIND_OP i).addr (F.INST_BIND_OP i).lsb (F.INST_BIND_OP i).width 1 = none →
      s.judge (F.INST_BIND_PORT i).addr (F.INST_BIND_PORT i).lsb (F.INST_BIND_PORT i).width port.val = none →
      s.judge (F.INST_BIND_VPPB i).addr (F.INST_BIND_VPPB i).lsb (F.INST_BIND_VPPB i).width v.val = none →
      s.judge (F.INST_BIND_GO i).addr (F.INST_BIND_GO i).lsb (F.INST_BIND_GO i).width 1 = none →
      exec (.fmBindVppb .mgr i port v) s = .next (((((s.wr (F.INST_BIND_OP i) 1).wr (F.INST_BIND_PORT i) port).wr (F.INST_BIND_VPPB i) v).bindOp i
        port v).emit (.fm .mgr true []))) ∧
    (∀ (port : Cell) (v : Fin 64) (m : Fin 3) (i : Nat), i = s.rd (F.INST_VPPB_TARGET port v) → s.rd (F.INST_VPPB_KIND port v) = 1 →
      s.judge (F.INST_BIND_OP i).addr (F.INST_BIND_OP i).lsb (F.INST_BIND_OP i).width 2 = none →
      s.judge (F.INST_BIND_MODE i).addr (F.INST_BIND_MODE i).lsb (F.INST_BIND_MODE i).width m.val = none →
      s.judge (F.INST_BIND_GO i).addr (F.INST_BIND_GO i).lsb (F.INST_BIND_GO i).width 1 = none →
      exec (.fmUnbindVppb .mgr port v m) s = .next ((((s.wr (F.INST_BIND_OP i) 2).wr (F.INST_BIND_MODE i) m).unbindOp i m true).emit (.fm .mgr true []))) ∧
    (∀ (i : Inst) (exts : List Ext), s.judge (F.INST_BIND_GO i).addr (F.INST_BIND_GO i).lsb (F.INST_BIND_GO i).width 1 = none →
      (s.instSt i ≠ 0 → (s.owner i).key ≠ none →
        exec (.fmInitiateDcAdd .mgr i 0 exts) s = .next ((s.dcAddOp i (exts.map (·.val))).emit (.fm .mgr true []))) ∧
      (∀ force, s.instSt i = 3 →
        exec (.fmInitiateDcRelease .mgr i exts force) s = .next ((s.releaseOp i (exts.map (·.val)) force).emit (.fm .mgr true []))))) ∧
  (∀ (i : Inst) (port v : Nat) (s : State), port = s.rd (F.INST_BIND_PORT i) → v = s.rd (F.INST_BIND_VPPB i) → s.rd (F.INST_BIND_BUSY i) = 0 →
    (s.instSt i ≠ 1 → ∃ t, exec (.bind .sp i) s = .next t ∧ t.rd (F.INST_BIND_REFUSED i) = 1 ∧ t.instSt i = s.instSt i) ∧
    (s.instSt i = 1 → s.roleOf (Cell.of port) = .host → (s.anchorOf (Cell.of port)).val = port → s.rd (F.INST_VPPB_KIND port v) = 0 →
      (s.boundVppbs port).length < 64 → (s.owner i).key ≠ none → (s.owner i).regions = [] → s.rd (F.INST_INFO_GROUPED i) = 0 →
      (∀ c : Nat, (s.regions c).length ≤ 1024) →
      ∃ t, exec (.bind .sp i) s = .next t ∧ t.rd (F.INST_INFO_STATE i) = 3 ∧ t.rd (F.INST_INFO_HOST_PORT i) = port ∧ t.rd (F.INST_BIND_BUSY i) = 0 ∧
        t.rd (F.INST_VPPB_STATE port v) = 2 ∧ t.rd (F.INST_VPPB_TARGET port v) = i.val)) ∧
  (∀ (i : Inst) (a v : Nat) (s : State), a = s.rd (F.INST_INFO_HOST_PORT i) → v = s.rd (F.INST_INFO_VPPB i) → s.rd (F.INST_BIND_BUSY i) = 0 →
    (s.instSt i ≠ 3 → s.instSt i ≠ 9 → ∃ t, exec (.unbindKeep .sp i) s = .next t ∧ t.rd (F.INST_BIND_REFUSED i) = 1 ∧ t.instSt i = s.instSt i) ∧
    (s.instSt i = 3 → s.rd (F.INST_BIND_MODE i) = 0 ∨ s.rd (F.INST_BIND_MODE i) = 3 →
      (∃ t, exec (.unbindKeep .sp i) s = .next t ∧ t.rd (F.INST_INFO_STATE i) = 8 ∧ mget t.pool.slotWait (a * 64 + v) = some (some (i.val, true))) ∧
      (∃ t, exec (.unbindRelease .sp i) s = .next t ∧ t.rd (F.INST_INFO_STATE i) = 8 ∧
        mget t.pool.slotWait (a * 64 + v) = some (some (i.val, false))))) ∧
  (∀ (i : Inst) (exts : List Ext) (s : State),
    (∀ l, mgetD [] s.pool.dcOpen i.val = (i.val, exts.map (·.val)) :: l → (∀ e ∈ exts, e.val ∈ (s.owner i).exts) →
      ∃ t, exec (.dcAddResponse i exts) s = .next t ∧ mgetD [] t.pool.dcOpen i.val = l ∧
        ∀ e ∈ exts, e.val ∉ (t.owner i).offered ∧ e.val ∈ (t.owner i).accepted) ∧
    (mgetD [] s.pool.dcOpen i.val = [] → exec (.dcAddResponse i exts) s = .next s) ∧
    ((∀ e ∈ exts, e.val ∉ mgetD [] s.pool.dcGiving i.val) → exec (.dcReleaseResponse i exts) s = .next s) ∧
    (exts ≠ [] → mgetD [] s.pool.dcGiving i.val = exts.map (·.val) →
      ((∀ e ∈ exts, e.val ∈ (s.owner i).exts) → exec (.dcReleaseResponse i exts) s =
        .next (State.startSweep { s with pool.dcGiving := mdel s.pool.dcGiving i.val } (.release i) i (exts.map (·.val)) none)) ∧
      (∀ g, g = 4096 + s.rd (F.INST_INFO_GROUP i) → (∀ e ∈ exts, e.val ∉ (s.owner i).exts) →
        (∀ j ∈ s.hostsOf g, j ≠ i.val → ∀ e ∈ exts, e.val ∉ mgetD [] s.pool.dcGiving j) → exec (.dcReleaseResponse i exts) s =
        .next (State.startSweep { s with pool.dcGiving := mdel s.pool.dcGiving i.val } (.release g) i (exts.map (·.val)) none)))) ∧
  (∀ (c : Cell) (x : LinkUp) (s : State), s.roleOf c ≠ .idle → s.roleOf c ≠ .onora → s.anchorOf c = c → portsOn s.mode = true →
    s.cellFenced c = false → s.rd (F.LANE_PORT_STATUS_REF_LOST c) = 0 → (∀ n, s.rulesFor n c = []) →
    trainRate (s.roleOf c) x.pcie x.rate (s.rd (F.LANE_PORT_CFG_MAX_RATE c)) ≠ 0 → trainWidth x.width (s.rd (F.LANE_PORT_CFG_MAX_WIDTH c)) ≠ 0 →
    (s.rd (F.LANE_PORT_STATUS_STATE c) < 3 ∨ 6 < s.rd (F.LANE_PORT_STATUS_STATE c)) →
    ∃ t, exec (.portLinkUp c x) s = .next t ∧ t.rd (F.LANE_PORT_STATUS_STATE c) = 3 ∧
      t.rd (F.LANE_PORT_STATUS_WIDTH c) = trainWidth x.width (s.rd (F.LANE_PORT_CFG_MAX_WIDTH c)) % 2 ^ (F.LANE_PORT_STATUS_WIDTH c).width) ∧
  (∀ (c : Cell) (s : State), s.anchorOf c = c →
    (s.roleOf c = .host → exec (.hostLinkDown c) s = .next (s.linkDown c 1 0)) ∧
    (s.roleOf c = .memory → exec (.expanderLinkDown c) s = .next (s.linkDown c 1 0)) ∧
    (s.roleOf c = .device → exec (.deviceLinkDown c) s = .next (s.linkDown c 1 0)))

/-- A migration or a save starts, is aborted, or exceeds FREEZE_LIMIT (R244 to R246, R249, R250). -/
def Obligations.MigrationStartsComplete : Prop :=
  (∀ (i : Inst) (tp tv : Nat) (s : State), tp = s.rd (F.INST_MIG_T_PORT i) → tv = s.rd (F.INST_MIG_T_VPPB i) → s.rd (F.INST_MIG_BUSY i) = 0 →
    s.instSt i = 3 → s.rd (F.INST_MIG_MODE i) = 0 → (s.tmpl i).mig = true → mget s.pool.migs i.val = none → s.rd (F.INST_MIG_T_MODULE i) = s.chainAddr →
    s.sameDomain (s.rd (F.INST_INFO_HOST_PORT i)) tp = true → s.roleOf (Cell.of tp) = .host → (s.anchorOf (Cell.of tp)).val = tp →
    s.rd (F.INST_VPPB_KIND tp tv) = 0 → (s.boundVppbs tp).length < 64 →
    ∃ t, exec (.migPrepare .sp i) s = .next t ∧ t.instSt i = 4 ∧ t.rd (F.INST_MIG_STATUS_STEP i) = 1 ∧ t.rd (F.INST_VPPB_TARGET tp tv) = i.val ∧
      ∃ m, mget t.pool.migs i.val = some m ∧ m.tPort = tp ∧ m.tVppb = tv ∧ m.srcPort = s.rd (F.INST_INFO_HOST_PORT i) ∧ m.frozen = false) ∧
  (∀ (i : Inst) (m : Mig) (s : State), mget s.pool.migs i.val = some m → s.rd (F.INST_MIG_BUSY i) = 0 → s.instSt i = 4 →
    ∃ t, exec (.migMigrate .sp i) s = .next t ∧ t.instSt i = 5 ∧ t.rd (F.INST_MIG_STATUS_STEP i) = 2 ∧ t.rd (F.INST_MIG_BUSY i) = 1 ∧
      t.rd (F.INST_INFO_MIGRATING i) = 1 ∧ ((∀ d, mget s.pool.press d = none) →
        mget t.pool.migs i.val = some { m with frozen := true, freezeAt := s.cyc, limit := max 100 (s.rd (F.INST_PORT_CFG_FREEZE_LIMIT m.srcPort)) })) ∧
  (∀ (i : Inst) (s : State), s.rd (F.INST_MIG_BUSY i) = 0 → s.instSt i = 3 →
    ∃ t, exec (.migSave .sp i) s = .next t ∧ t.instSt i = 5 ∧ t.rd (F.INST_MIG_STATUS_STEP i) = 2 ∧ t.rd (F.INST_MIG_BUSY i) = 1 ∧
      ((∀ d, mget s.pool.press d = none) → ∃ m, mget t.pool.migs i.val = some m ∧ m.save = true ∧ m.frozen = true ∧
        m.srcPort = s.rd (F.INST_INFO_HOST_PORT i) ∧ m.freezeAt = s.cyc)) ∧
  (∀ (i : Inst) (m : Mig) (s : State), mget s.pool.migs i.val = some m → m.back < 16 →
    (m.thawed = false → ∃ t : State, exec (.migAbort .sp i) s = .next t.nextCommit ∧ t.instSt i = m.back ∧ t.rd (F.INST_MIG_STATUS_RESULT i) = 2 ∧
      t.rd (F.INST_MIG_BUSY i) = 0 ∧ mget t.pool.migs i.val = none) ∧
    (s.instSt i = 5 → m.freezeAt + m.limit * 3000 ≤ s.cyc → ∃ t : State, exec (.freezeLimitExpiry i) s = .next t.nextCommit ∧ t.instSt i = m.back ∧
      t.rd (F.INST_MIG_STATUS_RESULT i) = 3 ∧ t.rd (F.INST_MIG_BUSY i) = 0 ∧ mget t.pool.migs i.val = none)) ∧
  (∀ (i : Inst) (s : State), s.rd (F.INST_MIG_BUSY i) = 0 →
    (s.instSt i ≠ 3 → exec (.migPrepare .sp i) s = .next (s.flag (F.INST_MIG_REFUSED i)) ∧
      exec (.migSave .sp i) s = .next (s.flag (F.INST_MIG_REFUSED i))) ∧
    (s.instSt i ≠ 4 → exec (.migMigrate .sp i) s = .next (s.flag (F.INST_MIG_REFUSED i))) ∧
    (mget s.pool.migs i.val = none → exec (.migAbort .sp i) s = .next (s.flag (F.INST_MIG_REFUSED i))))

/-- The later steps of a migration, a save and a restore (R246, R249, R250, Table 8-7). -/
def Obligations.MigrationStepsComplete : Prop :=
  (∀ (i : Inst) (m : Mig) (s : State), mget s.pool.migs i.val = some m → s.instSt i = 5 → s.freezeBusy i m = false →
    (m.remote = false → ∃ t, exec (.migFreezeDrained i) s = .next t ∧ t.instSt i = 6 ∧ t.rd (F.INST_MIG_STATUS_STEP i) = 4) ∧
    (m.remote = true → exec (.migFreezeDrained i) s = .next (((s.wr (F.INST_INFO_STATE i) 6).wr (F.INST_MIG_STATUS_STEP i) 3).startSweep
      (.migRecall i) i (s.capExts i) none))) ∧
  (∀ (i : Inst) (m : Mig) (s : State), mget s.pool.migs i.val = some m → s.instSt i = 6 → s.rd (F.INST_MIG_STATUS_STEP i) = 4 →
    ∃ (u : State) (b : Blob), mget u.pool.blobs i.val = some b ∧ b.seq = s.pool.blobSeq + 1 ∧ b.own = s.owner i ∧ u.pool.blobSeq = s.pool.blobSeq + 1 ∧
      u.regs = s.regs ∧
      (m.save = true → ∃ t : State, exec (.migSaveComplete i) s = .next (t.regionCommit (.srcGone i) [i.val] (u.removeSets m.srcPort i)) ∧
        t.instSt i = 7 ∧ t.rd (F.INST_MIG_STATUS_RESULT i) = 1 ∧ t.rd (F.INST_MIG_BUSY i) = 0 ∧ mget t.pool.migs i.val = none) ∧
      (m.save = false → m.tModule = s.chainAddr → ∃ t : State, t.instSt i = 6 ∧ t.rd (F.INST_MIG_STATUS_STEP i) = 6 ∧
        exec (.migSaveComplete i) s =
          .next (t.regionCommit (.restore i) [i.val] ((t.regionCells m.tPort).flatMap (fun c => t.installSets c i)))) ∧
      (m.save = false → m.tModule ≠ s.chainAddr → mget s.onl.csk m.tModule = none → ∃ t, exec (.migSaveComplete i) s = .next t ∧
        t.rd (F.INST_MIG_STATUS_RESULT i) = 4 ∧ t.rd (F.INST_MIG_BUSY i) = 0) ∧
      (m.save = false → m.tModule ≠ s.chainAddr → s.sealKey m.tModule (s.pool.blobSeq + 1) ≠ none → ∃ t : State,
        exec (.migSaveComplete i) s = .next (t.sendBlob i (s.pool.blobSeq + 1) m.tModule) ∧ t.rd (F.INST_MIG_STATUS_STEP i) = 5)) ∧
  (∀ (i : Inst) (m : Mig) (s : State), mget s.pool.migs i.val = some m → m.ready = true → m.tPort < 128 → m.tVppb < 64 →
    ∃ u : State, u.instSt i = 3 ∧ u.rd (F.INST_INFO_HOST_PORT i) = m.tPort ∧ u.rd (F.INST_INFO_VPPB i) = m.tVppb ∧
      u.rd (F.INST_VPPB_STATE m.tPort m.tVppb) = 2 ∧ u.rd (F.INST_MIG_STATUS_STEP i) = 7 ∧ u.pool = s.pool ∧
      (128 ≤ m.srcPort → exec (.migRestoreComplete i) s = .next (u.migEnd i 9 1)) ∧
      (m.srcPort < 128 → m.remote = false → ∀ v : State,
        v = { u with pool.migs := mput s.pool.migs i.val { m with thawed := true, ready := false } } →
        exec (.migRestoreComplete i) s = .next ((v.wr (F.INST_MIG_STATUS_STEP i) 8).startSweep (.migDrain i) i (v.capExts i)
          (some (v.hslotOf (Cell.of m.srcPort)))).nextCommit) ∧
      (m.srcPort < 128 → m.remote = true → ∃ t : State, exec (.migRestoreComplete i) s =
        .next (t.regionCommit (.srcGone i) [i.val] (u.removeSets m.srcPort i)) ∧ t.rd (F.INST_MIG_STATUS_STEP i) = 9 ∧
        t.rd (F.INST_MIG_STATUS_RESULT i) = 1 ∧ mget t.pool.migs i.val = none)) ∧
  (∀ (i : Inst) (b : Blob) (tp tv : Nat) (s : State), mget s.pool.blobs i.val = some b → s.rd (F.INST_MIG_BUSY i) = 0 →
    tp = s.rd (F.INST_MIG_T_PORT i) → tv = s.rd (F.INST_MIG_T_VPPB i) → s.instSt i = 7 ∨ s.instSt i = 0 → s.roleOf (Cell.of tp) = .host →
    (s.anchorOf (Cell.of tp)).val = tp → s.rd (F.INST_VPPB_KIND tp tv) = 0 → s.groupDomainOk i tp = true →
    (exec (.migRestore .sp i false) s = .next (s.wr (F.INST_MIG_STATUS_RESULT i) 4)) ∧
    ((b.srcModule, b.seq) ∈ s.pool.restored → exec (.migRestore .sp i true) s = .next (s.wr (F.INST_MIG_STATUS_RESULT i) 4)) ∧
    ((b.srcModule, b.seq) ∉ s.pool.restored →
      ∃ t : State, exec (.migRestore .sp i true) s =
          .next (t.regionCommit (.restore i) [i.val] ((t.regionCells tp).flatMap (fun c => t.installSets c i))) ∧
        (b.srcModule, b.seq) ∈ t.pool.restored ∧ t.owner i = b.own ∧ t.instSt i = 4 ∧ t.rd (F.INST_MIG_STATUS_STEP i) = 6 ∧
        t.rd (F.INST_MIG_BUSY i) = 1 ∧ t.rd (F.INST_VPPB_TARGET tp tv) = i.val))

/-- Press: MOVE and RESILVER (R252 to R254). -/
def Obligations.PressCommandsComplete : Prop :=
  (∀ (d : Die) (en : Nat) (ns : List Nat) (s : State), en = s.rd (F.INST_PRESS_OP_PART_EN d) → ns = (List.range 16).filter (fun p => en.testBit p) →
    (s.rd (F.INST_PRESS_OP_BUSY d) = 1 ∨ ns = [] ∨ (∃ p ∈ ns, s.extBusy (s.rd (F.INST_PRESS_PART_EXT d p)) = true) →
      exec (.pressMoveGo .sp d) s = .next (s.flag (F.INST_PRESS_OP_REFUSED d))) ∧
    (s.rd (F.INST_PRESS_OP_BUSY d) = 0 → ns ≠ [] → (∀ p ∈ ns, s.extBusy (s.rd (F.INST_PRESS_PART_EXT d p)) = false) →
      (ns.map (fun p => s.rd (F.INST_PRESS_PART_EXT d p))).Nodup →
      ∃ (t : State) (o : PressOp), exec (.pressMoveGo .sp d) s = .next (t.pressCheck d) ∧ mget t.pool.press d.val = some o ∧ o.resilver = false ∧
        o.parts.map (·.1) = ns ∧ t.rd (F.INST_PRESS_OP_BUSY d) = 1)) ∧
  (∀ (d : Die) (o : PressOp) (s : State), mget s.pool.press d.val = some o →
    (o.resilver = false → o.remap = false →
      exec (.pressAbort .sp d) s = .next (State.pressCheck { s with pool.press := mput s.pool.press d.val { o with
        parts := o.parts.map (fun (q : Nat × PressPart) => (q.1, if q.2.ended then q.2 else { q.2 with code := 5, ended := true })) } } d)) ∧
    (o.resilver = true ∨ o.remap = true → exec (.pressAbort .sp d) s = .next s) ∧
    (∀ (q : PressPart) (p : Fin 16) (po : Bool), o.parts = [(p.val, q)] → q.ended = false → s.partNoted q = false →
      (q.block + 1 < extBlocks → ∃ t : State, exec (.pressBlockAck d p po false) s = .next ((t.releaseHeld q.ext).pressCheck d) ∧
        mget t.pool.press d.val = some { o with parts := [(p.val, { q with block := q.block + 1, poisoned := q.poisoned || po })] }) ∧
      (∃ t : State, exec (.pressBlockAck d p po true) s = .next ((t.releaseHeld q.ext).pressCheck d) ∧
        mget t.pool.press d.val = some { o with parts :=
          [(p.val, { q with block := q.block + 1, poisoned := q.poisoned || po, code := 6, ended := true })] })) ∧
    (o.noted = true → (∀ q ∈ o.parts, ∀ a ∈ s.pool.acc, a.2.write = true → a.2.p.ext = q.2.ext → a.2.cell.val ≠ q.2.src) →
      ∃ t, exec (.pressSourceDrained d) s = .next t ∧ mget t.pool.press d.val = none ∧ t.rd (F.INST_PRESS_OP_BUSY d) = 0 ∧
        t.rd (F.INST_ENG_STATUS_PRESS_ACTIVE d) = 0)) ∧
  (∀ (e : Ext) (c : Cell) (x : Fin 4096) (d : Die) (p : Nat) (q : PressPart) (s : State), (s.extNow e).st = .single → s.extBusy e = false →
    mget s.sec.walk e.val = none → d = dieOf (s.extNow e).mcell → s.silverPart d = some p → s.replaceOk e c x = true →
    q = { ext := e.val, src := (s.extNow e).mcell.val, mirrorSide := true, destCell := c.val, destExt := x.val } →
    (s.mode = .rebuild → exec (.pressResilverStart e c x) s = .next (s.pressBegin d
      { resilver := true, parts := (((mget s.pool.press d.val).map (·.parts)).getD []).filter (fun y => y.1 != p) ++ [(p, q)] } [q])) ∧
    (s.scrim.epochOpen = false → s.scrim.notes = [] → (s.mode = .service ∧ s.scrim.fence = {}) ∨ s.mode = .degraded →
      ∃ t : State, exec (.pressResilverStart e c x) s = .next (t.pressBegin d
        { resilver := true, parts := (((mget t.pool.press d.val).map (·.parts)).getD []).filter (fun y => y.1 != p) ++ [(p, q)] } [q]) ∧
        t.mode = .rebuild ∧ t.rd F.PKG_MODE_CAUSE = 0x0B) ∧
    (s.mode = .drowse → s.scrim.epochOpen = false → s.scrim.notes = [] → s.scrim.fence = {} → ∃ t, exec (.pressResilverStart e c x) s = .next t ∧ t.mode = .rebuild))

/-- COPY of an instance and the scrub of an extent (R255, R257). -/
def Obligations.CopyAndScrubComplete : Prop :=
  (∀ (i : Inst) (n d : Nat) (s : State), n = s.rd (F.INST_COPY_CTRL_LEN_4K i) → d = s.rd (F.INST_INFO_HOST_PORT i) / 16 →
    s.rd (F.INST_COPY_CTRL_BUSY i) = 0 → ∀ src ∈ [none, some Src.sp],
    (n = 0 ∨ 8192 < n ∨ s.rd (F.INST_PRESS_OP_BUSY d) = 1 ∨ s.instSt i ≠ 3 →
      exec (.copyGo src i) s = .next (s.flag (F.INST_COPY_CTRL_REFUSED i))) ∧
    (0 < n → n ≤ 8192 → s.rd (F.INST_PRESS_OP_BUSY d) = 0 → s.instSt i = 3 →
      ∃ t o, t.rd (F.INST_COPY_CTRL_BUSY i) = 1 ∧ t.rd (F.INST_PRESS_OP_BUSY d) = 1 ∧ mget t.pool.copy i.val = some o ∧ o.die = d ∧
        o.priv = src.isSome ∧ o.parts.length = (n + 511) / 512 ∧
        (s.sec.barrier = none → exec (.copyGo src i) s = .next (t.copyBegin i)) ∧
        (∀ b, s.sec.barrier = some b → i.val ∈ b.insts → exec (.copyGo src i) s = .next t))) ∧
  (∀ (i : Inst) (p : Fin 16) (o : CopyOp) (q : CopyPart) (s : State), mget s.pool.copy i.val = some o → o.die < 8 → o.parts = [q] → q.num = p.val →
    q.ended = false → q.lines ≤ q.line →
    ∃ t, exec (.copyPartComplete i p) s = .next t ∧ mget t.pool.copy i.val = none ∧ t.rd (F.INST_COPY_CTRL_BUSY i) = 0 ∧
      t.rd (F.INST_COPY_STATUS_PART i p) = q.result % 2 ^ (F.INST_COPY_STATUS_PART i p).width) ∧
  (∀ (e : Ext) (b : Scrub) (s : State), mget s.pool.scrub e.val = some b → (s.extNow e).sides ≠ [] →
    s.scrubKeyed (b.owner + (if b.group then 4096 else 0)) e = true →
    ∃ t, exec (.brineComplete e) s = .next t ∧ mget t.pool.scrub e.val = none ∧ t.lifeOf e = 1)

/-- Isolation and protection (spec/08, spec/09). The key that KEY_GENERATE_COMPLETE takes is a free value. -/
def Obligations.IsolationCommandsComplete : Prop :=
  (∀ (c : Cell) (n : Nat) (x : MapNote) (s : State), mget s.pool.notes n = some x → c.val ∉ x.acked → s.cellFenced c = false →
    (∀ e ∈ s.pool.notes, e.1 < n → c.val ∈ e.2.acked) →
    ∃ t, exec (.mapNote c n) s = .next t ∧ mget t.pool.notes n = some { x with acked := c.val :: x.acked } ∧
      ∀ e v, x.home = [(e, v)] → e < 65536 → mgetD {} t.home.ext (c.val * 65536 + e) = v) ∧
  (∀ (n : Nat) (x : MapNote) (s : State), mget s.pool.notes n = some x →
    (s.noteAcked x = false → exec (.mapNoteComplete n) s = .next s) ∧
    (s.noteAcked x = true → x.goal = .none → exec (.mapNoteComplete n) s = .next { s with pool.notes := mdel s.pool.notes n }) ∧
    (∀ d o, s.noteAcked x = true → x.goal = .remap d → mget s.pool.press d = some o → o.resilver = false →
      ∃ t, exec (.mapNoteComplete n) s = .next t ∧ mget t.pool.press d = some { o with noted := true })) ∧
  (∀ (c : Cell) (k : KeySlot) (s : State), (s.keyRec k).st = 4 →
    (∃ t, exec (.zeroize c k) s = .next t ∧ mget t.sec.keyRam (c.val * 8192 + k.val) = none ∧ c.val ∉ (t.keyRec k).awAck) ∧
    ((s.keyRec k).awAck = [] → ∃ t, exec (.zeroizeComplete k) s = .next t ∧ t.keyRec k = {} ∧
      (∀ e ∈ t.sec.keyRam, e.1 % 8192 ≠ k.val) ∧
      t.rd F.SEC_KEY_CNT_ZEROIZED = (s.rd F.SEC_KEY_CNT_ZEROIZED + 1) % 2 ^ F.SEC_KEY_CNT_ZEROIZED.width)) ∧
  (∀ (k : KeySlot) (s : State), (s.keyRec k).making = true → s.keysOk = true → s.sec.rots = [] → s.sec.rotQueue = [] →
    (exec (.keyGenerateComplete k true) s = .next { s with freeCtr := s.freeCtr + 1 }) ∧
    (∃ t, exec (.keyGenerateComplete k false) s = .next t ∧ (t.keyRec k).key = BitVec.ofNat 512 (Config.freeRandom s.freeCtr) ∧
      (t.keyRec k).making = false ∧ t.sec.loads = s.sec.loads ++ t.keyNotes s.memCells k)) ∧
  (∀ (k : KeySlot) (equal : Bool) (s : State), s.keysOk = false → exec (.keyGenerateComplete k equal) s = .next s) ∧
  (∀ (c : Cell) (k : KeySlot) (f : Nat × Nat × BitVec 576 → Bool) (s : State), f = (fun x => x.1 == c.val && x.2.1 == k.val) →
    (∀ x w key, s.sec.loads.find? f = some x → (s.keyRec k).st ≠ 0 → (s.keyRec k).st ≠ 4 → (s.keyRec k).making = false →
      s.transportKey = some w → unwrapKey w x.2.2 = some key →
      ∃ t, exec (.keyload c k) s = .next t ∧ mget t.sec.keyRam (c.val * 8192 + k.val) = some key ∧ t.sec.loads = s.sec.loads.filter (fun x => !f x)) ∧
    (∀ x, s.sec.loads.find? f = some x → (s.keyRec k).st = 0 ∨ (s.keyRec k).st = 4 ∨ (s.keyRec k).making = true ∨
        s.transportKey.bind (fun w => unwrapKey w x.2.2) = none →
      exec (.keyload c k) s = .next { s with sec.loads := s.sec.loads.filter (fun x => !f x) }) ∧
    (s.sec.loads.find? f = none → exec (.keyload c k) s = .next s)) ∧
  (∀ (drbg : Bool) (s : State), s.activeSp ≠ none → ∃ t r, exec (.healthTestFail drbg) s = .next t ∧ t.rd F.SEC_STATUS_READY = 0 ∧
    (drbg = true → t.rd F.SEC_STATUS_DRBG_FAIL = 1) ∧ (drbg = false → t.rd F.SEC_STATUS_ENTROPY_FAIL = 1) ∧
    t.log.fault.head? = some r ∧ r.cls = 0x11 ∧ r.cause = 0x000F) ∧
  (∀ (o : Nat) (s : State), o = s.rd F.SEC_ROTATE_OWNER + (if s.rdb F.SEC_ROTATE_GROUP then 4096 else 0) → s.rd F.SEC_ROTATE_BUSY = 0 →
    (64 ≤ s.sec.rots.length → exec (.secRotateGo .sp) s = .next (s.flag F.SEC_ROTATE_REFUSED)) ∧
    (s.rotOf o ≠ none → (s.owner o).key ≠ none → s.sec.rots.length < 64 → exec (.secRotateGo .sp) s = .next (s.queueRot o true)) ∧
    ((s.owner o).key = none → s.sec.rots.length < 64 → exec (.secRotateGo .sp) s = .next ((s.noKeyFor o).flag F.SEC_ROTATE_REFUSED)) ∧
    (∀ k, (s.owner o).key = some k → s.sec.rots.length < 64 → s.rotOf o = none → (s.allocSlot (o % 4096) (decide (o ≥ 4096))).1 ≠ none →
      ∃ t r, exec (.secRotateGo .sp) s = .next t ∧ t.sec.rots = s.sec.rots ++ [r] ∧ r.old = k ∧ r.byMgr = true ∧ t.rd F.SEC_ROT_STATUS_RESULT = 2)) ∧
  (∀ (s : State),
    (s.rd F.SEC_CFG_ROT_PERIOD = 0 ∨ (∀ e ∈ s.sec.slots, e.2.st = 1 → (s.wall - e.2.at_) / hourCyc < 24 * s.rd F.SEC_CFG_ROT_PERIOD) →
      exec .rotationAgeCheck s = .next s) ∧
    (∀ k r, s.sec.slots = [(k, r)] → r.st = 1 → r.making = false → s.rd F.SEC_CFG_ROT_PERIOD ≠ 0 →
      24 * s.rd F.SEC_CFG_ROT_PERIOD ≤ (s.wall - r.at_) / hourCyc →
      exec .rotationAgeCheck s = .next ((s.startRot (r.owner + (if r.group then 4096 else 0)) false).getD
        (s.noKeyFor (r.owner + (if r.group then 4096 else 0)))))) ∧
  (∀ (e : Ext) (w : Walker) (s : State), mget s.sec.walk e.val = some w → w.block + 1 < extBlocks →
    ∃ t, exec (.rekeyBlockAck e) s = .next t ∧ mget t.sec.walk e.val = some { w with block := w.block + 1, mirBlock := w.mirBlock + 1 }) ∧
  (∀ (c : Cell) (b : Barrier) (s : State), s.sec.barrier = some b → c.val ∈ b.cells → c.val ∉ b.drained →
    (s.barrierBusy c b.insts = true → exec (.barrierDrained c) s = .next s) ∧
    (∀ d : Cell, s.barrierBusy c b.insts = false → d.val ∈ b.cells → d ≠ c → d.val ∉ b.drained → s.cellFenced d = false →
      ∃ t, exec (.barrierDrained c) s = .next t ∧ t.sec.barrier = some { b with drained := c.val :: b.drained } ∧ t.rd (F.PROT_STATUS_BARRIER c) = 2) ∧
    (s.barrierBusy c b.insts = false → b.cells = [c.val] → s.scrim.epochOpen = false →
      exec (.barrierDrained c) s = .next
        (((({ s.wr (F.PROT_STATUS_BARRIER c) 2 with sec.barrier := some { b with drained := c.val :: b.drained } } : State).barSwap
          { b with drained := c.val :: b.drained }).epochRegions { b with drained := c.val :: b.drained } true).nextCommit)) ∧
    (∀ (n : Nat) (u : State), n = ((b.sets.find? (fun x => x.1 == c.val)).map (fun x => x.2.1)).getD 0 →
      u = (if b.goal = .epoch then (s.endBarrier b).refuseRegions (firstEntries b.sets) 5 (c.val, n) (c.val, n) else s.endBarrier b) →
      exec (.barrierLimitExpiry c) s = .next
        ((((((u.logCommit 2 1 5 (some c) (F.PROT_REGION_at c n 0) 0 (4 * b.sets.length)).barRefused b.goal).epochRegions b
          false).resumeDevices b.cells).resumeCopies b.insts).again b).nextCommit)) ∧
  (∀ (p : Cell) (s : State), s.anchorOf p = p → s.roleOf p ≠ .idle → s.roleOf p ≠ .onora →
    ∀ go : Bool, ∃ t, exec (.ideKmKeySet p go) s = .next t ∧ t.rd (F.SEC_IDE_STATE p) = (if go then 2 else 1) ∧
      mget t.sec.ide p.val = some { draw := s.freeCtr, byModule := s.roleOf p == .memory }) ∧
  (∀ (p : Cell) (s : State), s.rd (F.SEC_IDE_STATE p) = 1 ∨ s.rd (F.SEC_IDE_STATE p) = 2 →
    exec (.ideIntegrityFailure p) s = .next ((State.sat { s with sec.ide := mdel s.sec.ide p.val } (F.SEC_IDE_FAILS p)).linkDown p 1 3))

/-- Lanes of CXL, PCIe and Onora ports (spec/10). -/
def Obligations.LaneCommandsComplete : Prop :=
  (∀ (l : Lane) (errs : BitVec 32) (s : State),
    (errs.toNat < max 1 (s.rd (F.LANE_PORT_CFG_FAULT_THRESH (s.laneAnchor l))) →
      exec (.laneFault l false errs) s = .next (s.sat (F.LANE_ERR_ERRORS l) errs.toNat)) ∧
    (s.rd (F.LANE_PORT_STATUS_STATE (s.laneAnchor l)) = 3 ∨ s.rd (F.LANE_PORT_STATUS_STATE (s.laneAnchor l)) = 4 →
      s.rd (F.LANE_STATUS_USED l) = 1 → s.rd (F.LANE_STATUS_FAULTY l) = 0 →
      (max 1 (s.rd (F.LANE_PORT_CFG_FAULT_THRESH (s.laneAnchor l))) ≤ errs.toNat →
        exec (.laneFault l false errs) s =
          .next ((((s.sat (F.LANE_ERR_ERRORS l) errs.toNat).sat (F.LANE_ERR_WINDOWS_HIT l)).wr (F.LANE_STATUS_CDR_LOCK l) 1).laneFaulty l)) ∧
      (errs.toNat < max 1 (s.rd (F.LANE_PORT_CFG_FAULT_THRESH (s.laneAnchor l))) →
        exec (.laneFault l true errs) s =
          .next ((((s.sat (F.LANE_ERR_ERRORS l) errs.toNat).sat (F.LANE_ERR_CDR_LOSS l)).wr (F.LANE_STATUS_CDR_LOCK l) 0).laneFaulty l)))) ∧
  (∀ (c : Cell) (g : Nat × Bool) (s : State), mget s.lane.goal c.val = some g → s.rd (F.LANE_PORT_STATUS_STATE c) = 4 →
    ∃ t, exec (.widthReduceL0 c) s = .next t ∧ t.rd (F.LANE_PORT_STATUS_STATE c) = 3 ∧
      t.rd (F.LANE_PORT_STATUS_WIDTH c) = g.1 % 2 ^ (F.LANE_PORT_STATUS_WIDTH c).width ∧ mget t.lane.goal c.val = none) ∧
  (∀ (d : Die) (s : State),
    (s.activeSp ≠ none → (∀ a ∈ s.dieAnchors d, s.roleOf a = .onora ∨ s.rd (F.LANE_PORT_STATUS_REF_SRC a) = 1) →
      ∃ t r, exec (.refclkLoss d) s = .next t ∧ (∀ a ∈ s.dieAnchors d, t.rd (F.LANE_PORT_STATUS_REF_LOST a) = 1) ∧
        t.log.fault.head? = some r ∧ r.cls = 0x0E ∧ r.cause = 0x000C ∧ r.detail = d.val) ∧
    (∀ a, s.dieAnchors d = [a] → s.roleOf a ≠ .onora → s.rd (F.LANE_PORT_STATUS_REF_SRC a) = 0 → s.rd (F.LANE_PORT_STATUS_STATE a) = 3 →
      exec (.refclkLoss d) s = .next (((s.wr (F.LANE_PORT_STATUS_REF_LOST a) 1).logFault 0x0E none 0xFFFF 0x000C d.val d.val true).linkDown a 1 0)) ∧
    (∃ t, exec (.refclkReturn d) s = .next t ∧ ∀ a ∈ s.dieAnchors d, t.rd (F.LANE_PORT_STATUS_REF_LOST a) = 0)) ∧
  (∀ (c : Cell) (s : State),
    (s.rd (F.LANE_PORT_STATUS_STATE c) = 3 → s.roleOf c ≠ .onora → portsOn s.mode = true →
      ∃ t, exec (.l1Entry c) s = .next t ∧ t.rd (F.LANE_PORT_STATUS_STATE c) = 5) ∧
    (s.rd (F.LANE_PORT_STATUS_STATE c) = 5 → ∃ t, exec (.l1Exit c 0) s = .next t ∧ t.rd (F.LANE_PORT_STATUS_STATE c) = 3)) ∧
  (∀ (c : Cell) (s : State), s.rd (F.LANE_PORT_CTRL_BUSY c) = 0 →
    (s.rd (F.LANE_PORT_STATUS_STATE c) ≠ 6 → s.mode ≠ .selfTest → s.mode ≠ .returnTest → s.mode ≠ .maintenance →
      exec (.testEnter .sp c) s = .next (s.flag (F.LANE_PORT_CTRL_TEST_REFUSED c))) ∧
    (s.mode = .selfTest → s.roleOf c ≠ .onora → s.rd (F.LANE_PORT_STATUS_STATE c) < 3 → s.rd (F.LANE_PORT_CTRL_TEST_RATE c) ≠ 7 →
      ∃ t, exec (.testEnter .sp c) s = .next t ∧ t.rd (F.LANE_PORT_STATUS_STATE c) = 6 ∧
        t.rd (F.LANE_PORT_STATUS_RATE c) = max 1 (s.rd (F.LANE_PORT_CTRL_TEST_RATE c))) ∧
    (s.rd (F.LANE_PORT_STATUS_STATE c) = 6 → exec (.testExit .sp c) s = .next (s.endTest c)) ∧
    (s.mode ≠ .maintenance → exec (.widthRestore .sp c) s = .next (s.flag (F.LANE_PORT_CTRL_TEST_REFUSED c))) ∧
    (s.mode = .maintenance → c.val ∈ s.pool.paused → s.roleOf c ≠ .onora → s.rd (F.LANE_PORT_STATUS_STATE c) = 3 →
      ∃ t, exec (.widthRestore .sp c) s = .next t ∧ t.rd (F.LANE_PORT_CTRL_BUSY c) = 1)) ∧
  (∀ (l : Lane) (s : State), s.laneInTest l = true →
    (s.rd (F.LANE_TEST_GEN_EN l) = 1 → mget s.lane.injAt l.val ≠ some s.cyc → s.rd (F.LANE_TEST_LOOP l) = 1 → s.rd (F.LANE_TEST_CHK_EN l) = 1 →
      s.rd (F.LANE_PRBS_STAT_LOCKED l) = 1 →
      (∃ t, exec (.injOne .sp l) s = .next t ∧ mget t.lane.injAt l.val = some s.cyc ∧
        t.rd (F.LANE_PRBS_STAT_BIT_ERR l) = min (2 ^ (F.LANE_PRBS_STAT_BIT_ERR l).width - 1) (s.rd (F.LANE_PRBS_STAT_BIT_ERR l) + 1)) ∧
      (s.rd (F.LANE_TEST_INJ_RATE l) ≠ 0 → exec (.injRateError l) s = exec (.injOne .sp l) s)) ∧
    (∃ t, exec (.chkEnSet .sp l) s = .next t ∧ t.rd (F.LANE_TEST_CHK_EN l) = 1 ∧ t.rd (F.LANE_PRBS_STAT_BIT_ERR l) = 0 ∧
      t.rd (F.LANE_PRBS_STAT_LOCKED l) = 0) ∧
    (∃ t, exec (.lanePrbsStatRead .sp l) s = .next t ∧
      t.rd (F.LANE_PRBS_BITS_BITS l) = s.bitsCompared l % 2 ^ (F.LANE_PRBS_BITS_BITS l).width) ∧
    (s.rd (F.LANE_TEST_CHK_EN l) = 1 → s.rd (F.LANE_PRBS_STAT_LOCKED l) = 0 →
      ∃ t, exec (.prbsCheckerLock l) s = .next t ∧ t.rd (F.LANE_PRBS_STAT_LOCKED l) = 1 ∧ mget t.lane.locked l.val = some s.cyc) ∧
    (∀ errs, s.rd (F.LANE_PRBS_STAT_LOCKED l) = 1 →
      ∃ t, exec (.prbsCheckerLockLoss l errs) s = .next t ∧ t.rd (F.LANE_PRBS_STAT_LOCKED l) = 0 ∧ mget t.lane.locked l.val = none ∧
        t.rd (F.LANE_PRBS_STAT_BIT_ERR l) = min (2 ^ (F.LANE_PRBS_STAT_BIT_ERR l).width - 1) (s.rd (F.LANE_PRBS_STAT_BIT_ERR l) + errs.toNat))) ∧
  (∀ (c : Cell) (s : State), s.roleOf c ≠ .onora → s.roleOf c ≠ .idle → portsOn s.mode = true →
    (s.rd (F.LANE_PORT_STATUS_STATE c) = 1 ∨ s.rd (F.LANE_PORT_STATUS_STATE c) = 2 →
      ∃ t, exec (.loopbackSlaveEntry c) s = .next t ∧ t.rd (F.LANE_PORT_STATUS_STATE c) = 7) ∧
    (3 ≤ s.rd (F.LANE_PORT_STATUS_STATE c) → s.rd (F.LANE_PORT_STATUS_STATE c) < 6 →
      exec (.loopbackSlaveEntry c) s = .next (s.linkDown c 7 0)))

/-- The manager-port lanes (spec/10). -/
def Obligations.ManagerLanesComplete : Prop :=
  (∀ (x2 : Bool) (a b : BitVec 16) (s : State),
    (∃ t, exec (.mgrFrameReceive x2 true a b) s = .next t ∧ t.rd F.LANE_M_STATUS_RX_WIDTH = (if x2 then 2 else 1) ∧
      t.rd F.LANE_M_FRAMES_RECEIVED = (s.rd F.LANE_M_FRAMES_RECEIVED + 1) % 2 ^ F.LANE_M_FRAMES_RECEIVED.width) ∧
    (∃ t, exec (.mgrFrameReceive x2 false a b) s = .next t ∧ t.rd F.LANE_M_STATUS_RX_WIDTH = (if x2 then 2 else 1) ∧
      t.rd F.LANE_M_FRAMES_ABORTED = min (2 ^ F.LANE_M_FRAMES_ABORTED.width - 1) (s.rd F.LANE_M_FRAMES_ABORTED + 1))) ∧
  (∀ (m : Fin 2) (s : State), ∃ t, exec (.mgrSyncGain m) s = .next t ∧ t.rd (mgrSync m) = 1 ∧
    (s.rd F.LANE_M_STATUS_TX_WIDTH = 0 → s.mgrWidth = 1 → t.rd F.LANE_M_STATUS_TX_WIDTH = 2) ∧
    (s.rd F.LANE_M_STATUS_TX_WIDTH = 0 → s.mgrWidth = 2 → t.rd F.LANE_M_STATUS_TX_WIDTH = 1)) ∧
  (∀ (m : Fin 2) (v d : BitVec 16) (s : State), ∃ t, exec (.mgrSyncLoss m v d) s = .next t ∧ t.rd (mgrSync m) = 0 ∧
    t.rd (F.LANE_M_ERR_CODE_VIOL m) = min (2 ^ (F.LANE_M_ERR_CODE_VIOL m).width - 1) (s.rd (F.LANE_M_ERR_CODE_VIOL m) + v.toNat) ∧
    (s.rd (mgrSync m) = 1 →
      t.rd (F.LANE_M_ERR_SYNC_LOSS m) = min (2 ^ (F.LANE_M_ERR_SYNC_LOSS m).width - 1) (s.rd (F.LANE_M_ERR_SYNC_LOSS m) + 1))) ∧
  (∀ s : State, s.rd F.LANE_M_STATUS_TX_WIDTH ≠ 0 →
    exec .mgrClockCompSend s = .next (s.emit (.mgrSkip (s.rd F.LANE_M_STATUS_TX_WIDTH)))) ∧
  (∀ (m : Fin 2) (s : State), s.mgrWidth = 0 ∨ s.mgrWidth = 3 → s.rd (mgrSync m) = 0 →
    ∃ t, exec (.mgrWidthFallback m) s = .next t ∧ t.rd F.LANE_M_STATUS_TX_WIDTH = (if m = 1 then 1 else 3)) ∧
  (∀ s : State, s.mgrWidth = 0 ∨ s.mgrWidth = 3 → s.rd F.LANE_M_STATUS_SYNC0 = 1 → s.rd F.LANE_M_STATUS_SYNC1 = 1 →
    ∃ t, exec .mgrWidthRestoreX2 s = .next t ∧ t.rd F.LANE_M_STATUS_TX_WIDTH = 2) ∧
  (∀ (v : Bool) (s : State), ∃ t, exec (.mgrLoopWrite .sp v) s = .next t ∧ t.rd F.LANE_M_CTRL_LOOP = v.toNat)

/-- The link layer of an ONORA port (spec/11). -/
def Obligations.OnoraLinkComplete : Prop :=
  (∀ (c : Cell) (f : OFrame) (s : State), s.linkUp c = true →
    (f.fec = false ∨ f.fcrc = false ∨ f.units = false → exec (.onoraDataFrame c f) s = .next (s.frameFails c f.fec)) ∧
    (f.fec = true → f.fcrc = true → f.units = true → f.seq.val ≠ s.rd (F.ONL_SEQ_RX_EXPECT c) →
      (c.val ∈ s.onl.failed → exec (.onoraDataFrame c f) s = .next s) ∧
      (c.val ∉ s.onl.failed → exec (.onoraDataFrame c f) s = .next (s.takeControl c f.ctl))) ∧
    (f.fec = true → f.fcrc = true → f.units = true → f.seq.val = s.rd (F.ONL_SEQ_RX_EXPECT c) → f.ctl.cr = [] → f.ctl.ack = none → f.ctl.nak = none →
      f.slots = [] → mgetD 0 s.onl.unacked c.val < 63 →
      ∃ t, exec (.onoraDataFrame c f) s = .next t ∧ t.rd (F.ONL_SEQ_RX_EXPECT c) = (f.seq.val + 1) % 4096 ∧ c.val ∉ t.onl.failed ∧
        mgetD 0 t.onl.unacked c.val = mgetD 0 s.onl.unacked c.val + 1) ∧
    (∀ x, exec (.onoraIdleFrame c true x) s = .next (s.takeControl c x) ∧ exec (.onoraIdleFrame c false x) s = .next (s.frameFails c true)) ∧
    (exec (.onoraLeaveFrame c) s = .next (s.linkBreak c 5)) ∧
    (0 < mgetD 0 s.onl.unacked c.val → ∃ t, exec (.onoraAckTimer c) s = .next t ∧ mget t.onl.unacked c.val = none ∧
      t.out = .onlFrame c 0 0 (s.control c false) [] :: s.out) ∧
    (c.val ∈ s.onl.failed → exec (.onoraNakRepeat c) s = .next (s.sendNak c)) ∧
    (exec (.onoraAlignSend c) s = .next (s.emit (.onlAlign c))) ∧
    (exec (.onoraAlignMissing c) s = .next (s.linkBreak c 4)) ∧
    ((∃ x ∈ mgetD [] s.onl.queue c.val, s.rd (F.ONL_CREDIT_TX_HELD c x.cu.phase x.p.opc.vc) < x.need) → exec (.onoraCreditTimeout c) s = .next (s.linkBreak c 2)) ∧
    (exec (.onoraFrameTimeout c) s = .next (s.linkBreak c 1))) ∧
  (∀ (c : Cell) (j : Fin 16) (b : TrainBlock) (s : State), 2 ≤ s.rd (F.ONL_STATUS_TRAIN_STATE c) → s.rd (F.ONL_STATUS_TRAIN_STATE c) ≤ 5 →
    j.val < s.portWidth c →
    (b.tcrc = false → mgetD 0 s.onl.tcrc (4 * c.val + j.val) + 1 < 16 →
      exec (.onoraTrainingBlock c j b) s =
        .next { s with onl.tcrc := mset 0 s.onl.tcrc (4 * c.val + j.val) (mgetD 0 s.onl.tcrc (4 * c.val + j.val) + 1) }) ∧
    (b.tcrc = false → 16 ≤ mgetD 0 s.onl.tcrc (4 * c.val + j.val) + 1 → exec (.onoraTrainingBlock c j b) s = .next (s.trainFail c)) ∧
    (b.tcrc = true → 4 * c.val + j.val < 512 → ∃ t, exec (.onoraTrainingBlock c j b) s = .next t ∧
      mget t.onl.reqId (4 * c.val + j.val) = some b.reqId.val)) ∧
  (∀ (c : Cell) (x : OParam) (n : BitVec 12) (s : State),
    (s.rd (F.ONL_STATUS_TRAIN_STATE c) = 1 → ∃ t, exec (.onoraTrainStateComplete c x n) s = .next t ∧ t.rd (F.ONL_STATUS_TRAIN_STATE c) = 2 ∧
      t.rd (F.ONL_STATUS_LINK_STATE c) = 1 ∧ mget t.onl.trainAt c.val = some s.cyc) ∧
    (s.rd (F.ONL_STATUS_TRAIN_STATE c) = 2 → ∃ t, exec (.onoraTrainStateComplete c x n) s = .next t ∧ t.rd (F.ONL_STATUS_TRAIN_STATE c) = 3) ∧
    (s.rd (F.ONL_STATUS_TRAIN_STATE c) = 3 → ∃ t, exec (.onoraTrainStateComplete c x n) s = .next t ∧ t.rd (F.ONL_STATUS_TRAIN_STATE c) = 4 ∧
      t.rd (F.ONL_TRAIN_EQ_REQS c) = n.toNat) ∧
    (s.rd (F.ONL_STATUS_TRAIN_STATE c) = 4 →
      ((x.addr.val ≠ s.rd (F.ONL_CFG_NBR_EXPECT c) ∨ x.dateline ≠ s.rdb (F.ONL_CFG_DATELINE c) ∨ x.addr.val = s.chainAddr) →
        ∃ t, exec (.onoraTrainStateComplete c x n) s = .next t ∧ t.rd (F.ONL_STATUS_LINK_STATE c) = 6 ∧ t.rd (F.ONL_STATUS_TRAIN_STATE c) = 0) ∧
      (x.addr.val = s.rd (F.ONL_CFG_NBR_EXPECT c) → x.dateline = s.rdb (F.ONL_CFG_DATELINE c) → x.addr.val ≠ s.chainAddr →
        ∃ t, exec (.onoraTrainStateComplete c x n) s = .next t ∧ t.rd (F.ONL_STATUS_NBR_ADDR c) = x.addr.val ∧
          t.rd (F.ONL_STATUS_TRAIN_STATE c) =
            (if 7 ≤ s.rd (F.LANE_PORT_CFG_MAX_RATE c) ∧ x.maxRate = 7 ∧ c.val ∉ s.onl.fast then 5 else 6))) ∧
    (s.rd (F.ONL_STATUS_TRAIN_STATE c) = 5 → ∃ t, exec (.onoraTrainStateComplete c x n) s = .next t ∧ t.rd (F.ONL_STATUS_TRAIN_STATE c) = 2 ∧
      c.val ∈ t.onl.fast) ∧
    (s.rd (F.ONL_STATUS_TRAIN_STATE c) = 6 →
      exec (.onoraTrainStateComplete c x n) s = .next (s.linkComesUp c (if c.val ∈ s.onl.fast then 7 else 6)))) ∧
  (∀ (c : Cell) (s : State),
    (2 ≤ s.rd (F.ONL_STATUS_TRAIN_STATE c) → s.rd (F.ONL_STATUS_TRAIN_STATE c) ≤ 6 →
      ∃ t, exec (.onoraTrainTimeout c) s = .next t ∧ t.rd (F.ONL_STATUS_LINK_STATE c) =
        (if max 1 (s.rd (F.ONL_CFG_TRAIN_RETRIES c)) ≤ mgetD 0 s.onl.fails c.val + 1 then 5 else 0)) ∧
    (s.linkSt c = 0 → 0 < mgetD 0 s.onl.fails c.val → exec (.onoraTrainRetry c) s = .next (s.trainStart c)) ∧
    (s.rd (F.ONL_CTRL_BUSY c) = 0 → s.linkSt c = 0 → s.roleOf c = .onora → s.anchorOf c = c → s.onlWidth c ≠ none →
      ∃ t, exec (.onoraRetrain .sp c) s = .next t ∧ t.rd (F.ONL_CTRL_BUSY c) = 1) ∧
    (s.rd (F.ONL_CTRL_BUSY c) = 0 → s.linkSt c = 3 → s.mode ≠ .maintenance →
      exec (.onoraRetrain .sp c) s = .next (s.flag (F.ONL_CTRL_REFUSED c))) ∧
    (s.linkSt c = 5 → exec (.onoraSignalRegained c) s = .next (State.trainStart { s with onl.fails := mdel s.onl.fails c.val } c))) ∧
  (∀ (s : State), s.mode = .safeStop → s.onl.cslot = [] → s.onl.store = [] → ∀ a, s.onoraAnchors.filter s.linkUp = [a] →
    ∃ t, exec .onoraLeaveSend s = .next t ∧ t.out = .onlFrame a 2 0 (s.control a false) [] :: s.out)

/-- The chain of modules (spec/11). -/
def Obligations.OnoraChainComplete : Prop :=
  (∀ (p : Pkt) (s : State), s.mayArrive { p with opc := .onlabs } = true →
    (∀ x, s.slot p.tagCell p.tagSlot = some x → p.tagCell = p.dst → x.hdr.gen = p.gen →
      exec (.onlabs p) s = .next ((s.take { p with opc := .onlabs }).reissue p.dst p.tagSlot x)) ∧
    (s.slot p.tagCell p.tagSlot = none → exec (.onlabs p) s = .next ((s.take { p with opc := .onlabs }).endReissue))) ∧
  (∀ (c : Cell) (x : CPkt) (o boot seq : Nat) (s : State), o = lineGet (x.p.data.headD 0) 0 1 % 32 → boot = lineGet (x.p.data.headD 0) 4 4 →
    seq = lineGet (x.p.data.headD 0) 8 4 → mgetD [] s.onl.seen o = [] → o ≠ s.chainAddr →
    exec (.routeadv c x) s = .next (({ s.chainTake c x with onl.seen := mset [] (s.chainTake c x).onl.seen o [(boot, seq, s.cyc)] } : State).keepAdv x
      (x.p.data.headD 0) o boot seq)) ∧
  (∀ s : State, ∃ t, exec .routeadvPeriodic s = .next t ∧ t.onl.advSeq = (s.onl.advSeq + 1) % 2 ^ 32 ∧ t.onl.nbrs = s.neighbours) ∧
  (∀ (m : Fin 32) (s : State),
    ((∀ h, mget s.onl.adv m.val = some h → h.heard + 50 * msCyc ≤ s.cyc) →
      exec (.routeadvStale m) s = .next (State.routes { s with onl.adv := mdel s.onl.adv m.val })) ∧
    (m.val ≠ s.chainAddr → (∀ e ∈ mgetD [] s.onl.seen m.val, e.2.2 + 50 * msCyc ≤ s.cyc) → exec (.addrConflictClear m) s =
      .next (State.routes { s.wr (F.ONL_ROUTE_CONFLICT 0 m) 0 with onl.seen := mdel s.onl.seen m.val }))) ∧
  (∀ s : State, (s.onl.epochOpen = false → exec .chainEpochClose s = .next s) ∧
    (s.onl.epochOpen = true → ∃ t, exec .chainEpochClose s = .next t ∧ t.onl.epochOpen = false ∧
      t.rd (F.ONL_CHAIN_CEPOCH 0) = (s.rd (F.ONL_CHAIN_CEPOCH 0) + 1) % 2 ^ (F.ONL_CHAIN_CEPOCH 0).width)) ∧
  (∀ s : State, ∃ t, exec .probeSend s = .next t ∧ ∀ m, m < 32 → s.via m ≠ none → mget t.onl.probe m ≠ none) ∧
  (∀ (c : Cell) (x : CPkt) (n : Fin 61) (s : State), exec (.probe c x n) s = .next ((s.chainTake c x).chainNew c x.cu.smod
    (payload .probersp c [lineOf [(0, lineGet (x.p.data.headD 0) 0 8), (8, lineGet (x.p.data.headD 0) 8 4), (12, n.val)]]))) ∧
  (∀ (c : Cell) (x : CPkt) (at_ : Nat) (s : State), mget s.onl.probe x.cu.smod.val = some (lineGet (x.p.data.headD 0) 8 4, at_) →
    ∃ t, exec (.probersp c x) s = .next t ∧
      t.rd (F.ONL_ROUTE_RTT_NS 0 x.cu.smod) = min (2 ^ 32 - 1) (s.ns - lineGet (x.p.data.headD 0) 0 8) ∧
      t.rdb (F.ONL_ROUTE_OVER 0 x.cu.smod) = decide (s.budgetNs < s.ns - lineGet (x.p.data.headD 0) 0 8)) ∧
  (∀ (c : Cell) (x : CPkt) (b : Option Blob) (p : Pieces) (s : State), p = (addPiece (mget s.onl.rxBlob x.cu.smod.val) x.p.data).1 →
    ((addPiece (mget s.onl.rxBlob x.cu.smod.val) x.p.data).2 = false →
      exec (.blob c x b) s = .next { s.chainTake c x with onl.rxBlob := mput (s.chainTake c x).onl.rxBlob x.cu.smod.val p }) ∧
    ((addPiece (mget s.onl.rxBlob x.cu.smod.val) x.p.data).2 = true → b = none →
      exec (.blob c x b) s = .next (State.sendAck { s.chainTake c x with onl.rxBlob := mdel (s.chainTake c x).onl.rxBlob x.cu.smod.val } c .blob
        x.cu.smod p.xseq 4))) ∧
  (∀ (c : Cell) (x : CPkt) (i q n : Nat) (ls : List Line) (m : Mig) (s : State), s.onl.tx = [(i, (x.cu.smod.val, q, n, ls))] →
    q % 2 ^ 64 = lineGet (x.p.data.headD 0) 0 8 → mget s.pool.migs i = some m → i < 4096 → lineGet (x.p.data.headD 0) 15 1 ≠ 1 →
    ∃ t, exec (.blobAck c x) s = .next t ∧ t.onl.tx = [] ∧ t.rd (F.INST_MIG_STATUS_RESULT i) = 4 ∧ t.rd (F.INST_MIG_BUSY i) = 0) ∧
  (∀ (i : Inst) (m q n : Nat) (ls : List Line) (s : State), mget s.onl.tx i.val = some (m, q, n, ls) →
    exec (.blobRetransmit i) s = .next (s.sendPieces .blob m q n ls)) ∧
  (∀ (c : Cell) (x : CPkt) (h : BitVec 384) (p : Pieces) (s : State), p = (addPiece (mget s.onl.rxKeyx x.cu.smod.val) x.p.data).1 →
    (lineGet (x.p.data.headD 0) 14 1).testBit 0 = false → (addPiece (mget s.onl.rxKeyx x.cu.smod.val) x.p.data).2 = true →
    lineGet (((mget p.got 0).getD []).headD 0) 0 4 = 0x58464B4A → lineGet (((mget p.got 0).getD []).headD 0) 4 1 = x.cu.smod.val → h.toNat ∈ s.img.peers →
    ∃ t, exec (.keyx c x true h) s = .next t ∧ (∃ k, mget t.onl.csk x.cu.smod.val = some k ∧ k.boot = p.xseq ∧ k.hash = h.toNat) ∧ (x.cu.smod.val, p.xseq) ∈ t.onl.keyxSeen) ∧
  (∀ (p : Pkt) (x : CPkt) (s : State), s.mayArrive p = true → unwrap p = some x →
    (s.rd (F.ONL_CHAIN_HOP_LIMIT 0) < x.cu.hops.val → exec (.xfer p) s = .next ((s.take p).inc (F.ONL_HOP_ABSORB_COUNT p.dst))) ∧
    (x.cu.hops.val ≤ s.rd (F.ONL_CHAIN_HOP_LIMIT 0) → x.cu.cep = s.cep →
      (s.linkSt p.dst = 3 → exec (.xfer p) s = .next ((s.take p).queueOn p.dst x)) ∧
      (s.linkSt p.dst ≠ 3 → exec (.xfer p) s = .next ((s.take p).chainOut p.dst x)))) ∧
  (∀ (c p : Cell) (x : CPkt) (s : State), mgetD [] s.onl.arrived c.val = [(p, x)] → chainReq x.p.opc = true → x.p.opc ≠ .mspec →
    s.mode ≠ .safeStop → mget s.onl.cslot (c.val * 1024 + 768) = none → (s.homeExt c x.p.ext).noMem = false →
    ∃ t y, exec (.chainImport c) s = .next t ∧ mget t.onl.cslot (c.val * 1024 + 768) = some y ∧ y.smod = x.cu.smod ∧ y.awData = true ∧
      mgetD [] t.onl.arrived c.val = []) ∧
  (∀ (c : Cell) (x : CPkt) (e : Nat × Nat × Nat) (s : State), s.onl.rext.find? (fun v => v.2.1 == x.cu.smod.val && v.2.2 == x.p.ext) = some e →
    x.p.opc ≠ .mcmp →
    exec (.onoraResponseReturn c x) s = .next ((s.chainTake c x).send
      { x.p with src := c, dst := x.p.tagCell, addr := BitVec.ofNat 52 (x.p.addr.toNat - x.p.ext * 2 ^ 30 + e.1 * 2 ^ 30) }))

/-- Power entry (spec/13). The commands other than RIND_START act only while Rind runs. -/
def Obligations.PowerEntryComplete : Prop :=
  (∀ s : State, s.pwr.rind = false → ∃ t, exec .rindStart s = .next t ∧ t.pwr.rind = true ∧ t.ctrl = 0 ∧ t.rd F.RIND_PWR_STATUS_PWRGD = 0 ∧
    t.rd F.RIND_CLK_STATUS_MGR_LOCK = 1) ∧
  (∀ s : State, s.pwr.rind = true →
    (∃ t, exec .rindStop s = .next t ∧ t.mode = .dormant ∧ t.pwr.rind = false ∧ t.mgr.holder = none ∧ t.sec.slots = [] ∧ t.scrim.flight = []) ∧
    (∀ (f : Fin 2) (v : BitVec 16), ∃ t, exec (.feedValid f v) s = .next t ∧ t.rd (feedFld f) = 1 ∧ t.rd (F.RIND_PWR_FEED_V_NOW f) = v.toNat) ∧
    (∀ (f : Fin 2) (v : BitVec 16), s.rd (feedFld f) = 1 →
      (s.rd (feedFld (1 - f)) = 1 → s.activeSp ≠ none →
        (∃ t r, exec (.feedUv f v) s = .next t ∧ t.rd (feedFld f) = 2 ∧ t.log.fault.head? = some r ∧ r.cls = 0x10 ∧ r.cause = 0x000E) ∧
        (∃ t r, exec (.feedOv f v) s = .next t ∧ t.rd (feedFld f) = 3 ∧ t.log.fault.head? = some r ∧ r.cls = 0x10 ∧ r.cause = 0x000E)) ∧
      (s.rd (feedFld (1 - f)) ≠ 1 → s.ctrl = 1 →
        (∃ t, exec (.feedUv f v) s = .next t ∧ t.rd (feedFld f) = 2 ∧ t.ctrl = 0) ∧
        (∃ t, exec (.feedOv f v) s = .next t ∧ t.rd (feedFld f) = 3 ∧ t.ctrl = 0))) ∧
    (∃ t, exec (.idealDiodeReverseOff 0) s = .next t ∧ t.rd F.RIND_PWR_STATUS_CARRYING = s.rd F.RIND_PWR_STATUS_CARRYING &&& 2 ∧
      t.rd F.RIND_PWR_FEED_EVT_REV_OFF_A = min (2 ^ F.RIND_PWR_FEED_EVT_REV_OFF_A.width - 1) (s.rd F.RIND_PWR_FEED_EVT_REV_OFF_A + 1)) ∧
    (∃ t, exec .senseMated s = .next t ∧ t.rd F.RIND_PWR_STATUS_SENSE_L = 1 ∧ t.rd F.RIND_PWR_STATUS_SENSE_M = 1 ∧ t.rd F.RIND_PWR_STATUS_SENSE_S = 1 ∧
      (s.ctrl = 0 → s.rd (feedFld 0) = 1 → t.ctrl = 1) ∧ (s.ctrl ≠ 0 → t.ctrl = s.ctrl)) ∧
    (s.ctrl = 1 → ∃ t, exec .debounceExpiry s = .next t ∧ t.ctrl = 2) ∧
    (s.ctrl = 2 → (∀ v : BitVec 16, ∃ t, exec (.rampComplete v) s = .next t ∧ t.ctrl = 3 ∧ t.rd F.RIND_PWR_STATUS_GATE_ON = 1 ∧
        t.rd F.RIND_PWR_BUS_V_NOW = v.toNat) ∧
      (∀ (f : Fin 2) (i : BitVec 16) (c : Instr) (n : Nat), (c, n) ∈ [(.rampTimeout, 7), (.shortDetect, 6), (.rampComparatorTrip f i, 5)] →
        (s.rd F.RIND_PWR_STATUS_RETRY_CNT ≠ 3 → ∃ t, exec c s = .next t ∧ t.ctrl = 4 ∧ t.rd F.RIND_PWR_LAST_CAUSE = n ∧
          t.rd F.RIND_PWR_STATUS_RETRY_CNT = s.rd F.RIND_PWR_STATUS_RETRY_CNT + 1) ∧
        (s.rd F.RIND_PWR_STATUS_RETRY_CNT = 3 → ∃ t, exec c s = .next t ∧ t.ctrl = 5 ∧ t.rd F.RIND_PWR_LAST_CAUSE = n ∧
          t.rd F.RIND_PWR_STATUS_LATCHED = 1))) ∧
    (s.ctrl = 3 → ∀ (f : Fin 2) (i : BitVec 16),
      exec (.faultTimerExpiry f i) s = .next ((((s.feedCurrent f i.toNat).sat F.RIND_PWR_EVT_BREAKER).raise F.RIND_PWR_TIMER_TIMER_MAX 100000).trip
        (1 + f.val)) ∧
      exec (.fastTrip f i) s = .next (((s.feedCurrent f i.toNat).sat F.RIND_PWR_EVT_FAST).trip (3 + f.val))) ∧
    (s.ctrl = 4 → (s.senses = true → ∃ t, exec .tripWaitExpiry s = .next t ∧ t.ctrl = 2) ∧
      (s.senses = false → ∃ t, exec .tripWaitExpiry s = .next t ∧ t.ctrl = 0)) ∧
    (s.ctrl = 5 → (∃ t, exec .latchClearEnableCycle s = .next t ∧ t.ctrl = 0 ∧ t.rd F.RIND_PWR_STATUS_LATCHED = 0 ∧
        t.rd F.RIND_PWR_STATUS_RETRY_CNT = 0) ∧
      (∃ t, exec .latchClearReinsertion s = .next t ∧ t.ctrl = 0 ∧ t.rd F.RIND_PWR_STATUS_LATCHED = 0 ∧ t.rd F.RIND_PWR_STATUS_RETRY_CNT = 0 ∧
        t.rd F.RIND_PWR_STATUS_SENSE_S = 0)) ∧
    (s.rd F.RIND_PWR_STATUS_PWRGD = 1 → ∃ t, exec .retryCountClear s = .next t ∧ t.rd F.RIND_PWR_STATUS_RETRY_CNT = 0) ∧
    (s.ctrl = 3 → s.anyFeed = true → s.rd F.RIND_PWR_STATUS_SENSE_S = 1 → s.rd F.RIND_PWR_STATUS_TIMER_RUN = 0 →
      ∃ t, exec .pwrgdAssert s = .next t ∧ t.rd F.RIND_PWR_STATUS_PWRGD = 1 ∧ t.rd F.RIND_PWR_STATUS_BOTH_LOST = 0) ∧
    (exec .feedwarnTimeout s = .next ((s.wr F.RIND_PWR_STATUS_FEEDWARN 1).bothLost 1)) ∧
    (s.rd F.RIND_PWR_STATUS_BOTH_LOST = 1 → ∃ t, exec .feedwarnTimeout s = .next t ∧ t.rd F.RIND_PWR_STATUS_LOST_WHY = 1 ∧
      t.rd F.RIND_PWR_STATUS_PWRGD = 0) ∧
    (s.ctrl = 1 → ∃ t, exec .senseSBreak s = .next t ∧ t.ctrl = 0 ∧ t.rd F.RIND_PWR_STATUS_SENSE_S = 0) ∧
    (s.ctrl = 3 → exec .senseSBreak s = .next ((s.wr F.RIND_PWR_STATUS_SENSE_S 0).bothLost 2)) ∧
    (s.ctrl ≠ 3 → ∃ t, exec (.senseLmOpen true) s = .next t ∧ t.rd F.RIND_PWR_STATUS_SENSE_L = 0 ∧ (s.ctrl = 1 ∨ s.ctrl = 2 → t.ctrl = 0)) ∧
    (∃ t, exec (.clrPeak .sp) s = .next t ∧ (∀ f : Fin 2, t.rd (F.RIND_PWR_FEED_I_PEAK f) = s.rd (F.RIND_PWR_FEED_I_NOW f) ∧
        t.rd (F.RIND_PWR_FEED_V_MIN f) = s.rd (F.RIND_PWR_FEED_V_NOW f)) ∧
      t.rd F.RIND_PWR_TIMER_TIMER_MAX = s.rd F.RIND_PWR_TIMER_TIMER_NOW))

/-- Clocks, retention and log fetches (spec/12, spec/14). -/
def Obligations.ClocksAndLogFetchComplete : Prop :=
  (∀ s : State, s.pwr.rind = true →
    (∃ t, exec .xtalLoss s = .next t ∧ t.rd F.RIND_CLK_STATUS_XTAL_LOST = 1 ∧ t.rd F.RIND_CLK_STATUS_RIND_INT = 1 ∧
      t.rd F.RIND_CLK_STATUS_MGR_HOLD = 1 ∧ ∀ d : Die, t.rd (F.DIE_PLL_STATUS_STATE d) =
        (if s.rd (F.DIE_PLL_STATUS_STATE d) = 2 then 3 else s.rd (F.DIE_PLL_STATUS_STATE d))) ∧
    (∃ t, exec .xtalRestore s = .next t ∧ t.rd F.RIND_CLK_STATUS_XTAL_LOST = 0 ∧ t.rd F.RIND_CLK_STATUS_RIND_INT = 0 ∧
      ∀ d : Die, t.rd (F.DIE_PLL_STATUS_STATE d) = (if s.rd (F.DIE_PLL_STATUS_STATE d) = 3 then 2 else s.rd (F.DIE_PLL_STATUS_STATE d))) ∧
    (∃ t, exec .rtcXtalLoss s = .next t ∧ t.rd F.RIND_CLK_STATUS_RTC_LOST = 1) ∧
    (∀ v : BitVec 32, ∃ t, exec (.rtcWrite .sp v) s = .next t ∧ t.rd F.RIND_RTC_SEC = v.toNat ∧ t.rd F.RIND_RTC_SUBSEC = 0) ∧
    (∃ t, exec (.sleepClrMax .sp) s = .next t ∧ t.rd F.RIND_SLEEP_STATUS_WAKE_MAX_NS = 0)) ∧
  (∀ (d : Die) (s : State),
    (s.rd (F.DIE_PLL_STATUS_STATE d) = 1 → ∃ t, exec (.pllLock d) s = .next t ∧ t.rd (F.DIE_PLL_STATUS_STATE d) = 2 ∧
      t.rd (F.DIE_PLL_STATUS_LOCK_US d) = min 0xFFFF ((s.wall - mgetD 0 s.pwr.pllAt d.val) / 3000)) ∧
    (s.rd (F.DIE_PLL_STATUS_STATE d) = 2 → exec (.pllUnlock d) s =
      .next (((s.wr (F.DIE_PLL_STATUS_STATE d) 4).sat (F.DIE_PLL_STATUS_UNLOCKS d)).failElem (.die d) none 0x0004 d.val))) ∧
  (∀ (c : Cell) (s : State), s.mode = .drowse →
    (∀ m ∈ s.portMembers c, s.quiet m = true ∧ s.domain (3 * m.val) = 1 ∧ s.cellFenced m = false ∧ s.rd (F.SCRIM_RTR_STATUS_LOCAL_MODE m) = 0 ∧
      s.injecting m = false) →
    ∃ t, exec (.retentionIdle c) s = .next t ∧ ∀ m ∈ s.portMembers c,
      t.rd (F.SCRIM_RTR_STATUS_DRAIN_STATE m) = 1 ∧ t.rd (F.SCRIM_RTR_STATUS_LOCAL_MODE m) = 1) ∧
  (∀ (l : Fin 8) (n : BitVec 32) (s : State), s.mgr.pend = [] →
    ∃ t, exec (.logFetch .sp l n) s = .next t ∧ t.log.fetching = true ∧ t.rd F.PKG_LOG_STAT_VALID = 0 ∧ t.rd F.PKG_LOG_SEL_LOG = l.val ∧
      t.rd F.PKG_LOG_SEL_SEQ = n.toNat) ∧
  (∀ s : State, s.log.fetching = true →
    (∃ t, exec .logFetchComplete s = .next t ∧ t.log.fetching = false) ∧
    (s.rd F.PKG_LOG_SEL_LOG < 4 → s.activeSp = none → ∃ t, exec .logFetchComplete s = .next t ∧ t.rd F.PKG_LOG_STAT_NO_SP = 1) ∧
    (∀ n ws, s.rd F.PKG_LOG_SEL_LOG < 4 → s.activeSp ≠ none → s.metadataPresent = true →
      (s.logWords (s.rd F.PKG_LOG_SEL_LOG)).find? (fun x => x.1 == s.rd F.PKG_LOG_SEL_SEQ) = some (n, ws) → ws.length ≤ 4 →
      ∃ t, exec .logFetchComplete s = .next t ∧ t.rd F.PKG_LOG_STAT_VALID = 1 ∧
        ∀ k w, ws[k]? = some w → t.rd (F.PKG_LOG_DATA_DATA k) = w % 2 ^ 64))

/-- NOR window, image verification and life cycle (spec/15). -/
def Obligations.ImageAndLifeCycleComplete : Prop :=
  (∀ (dev : Fin 2) (off : BitVec 32) (s : State) (c : Instr) (op : Nat), s.mgr.pend = [] → s.rd F.PKG_NOR_CTRL_BUSY = 0 →
    (c, op) ∈ [(.norRead .sp dev off, 1), (.norProgram .sp dev off, 2), (.norErase .sp dev off, 3)] →
    (norMode s.mode = false ∨ norWhere op off.toNat = false → ∃ t, exec c s = .next t ∧ t.rd F.PKG_NOR_CTRL_RESULT = 2 ∧ t.img.norOp = s.img.norOp) ∧
    (norMode s.mode = true → norWhere op off.toNat = true → s.norPresent dev = false →
      ∃ t, exec c s = .next t ∧ t.rd F.PKG_NOR_CTRL_RESULT = 3 ∧ t.img.norOp = s.img.norOp) ∧
    (norMode s.mode = true → norWhere op off.toNat = true → s.norPresent dev = true →
      ∃ t, exec c s = .next t ∧ t.img.norOp = some ⟨dev.val, op, off.toNat⟩ ∧ t.rd F.PKG_NOR_CTRL_BUSY = 1)) ∧
  (∀ (o : NorOp) (ok : Bool) (s : State), s.img.norOp = some o →
    ∃ t, exec (.norOpComplete ok) s = .next t ∧ t.img.norOp = none ∧ t.rd F.PKG_NOR_CTRL_BUSY = 0 ∧
      t.rd F.PKG_NOR_CTRL_RESULT = (if ok then 1 else 3)) ∧
  (∀ (dev : Fin 2) (s : State), norLogs s.mode = true → s.norPresent dev = true → s.norHeld dev = false →
    exec (.norLogWrite dev) s = .next
      ((s.norFlush dev 0 (s.norPending dev 0).length).1.norFlush dev 1 ((s.norFlush dev 0 (s.norPending dev 0).length).1.norPending dev 1).length).1) ∧
  (∀ (k : Fin 2) (s : State), s.mgr.pend = [] → s.rd F.PKG_IMAGE_VERIFY_BUSY = 0 →
    ∃ t, exec (.imageVerify .sp k) s = .next t ∧ t.img.verifying = some k.val ∧ t.rd F.PKG_IMAGE_VERIFY_BUSY = 1) ∧
  (∀ (n : Nat) (sfdp : Bool) (s : State), s.img.verifying = some n →
    ∃ t, exec (.imageVerifyComplete sfdp) s = .next t ∧ t.img.verifying = none ∧ t.rd F.PKG_IMAGE_VERIFY_BUSY = 0 ∧
      t.rd F.PKG_IMAGE_VERIFY_VERIFY_RESULT = (s.check11 n sfdp).code % 256) ∧
  (∀ (s : State), s.mgr.pend = [] → s.rd F.PKG_LC_REQ_BUSY = 0 →
    (∀ b, b ≠ Burn.failed → s.lcFault 1 = none → ∃ t, exec (.lcOpen .sp b) s = .next t ∧ t.rd F.PKG_LC_CODE = 0x07 ∧ t.img.seed ≠ none ∧
      t.rd F.PKG_LC_REQ_RESULT = 1) ∧
    (∀ h b, h ≠ Burn.failed → b ≠ Burn.failed → s.lcFault 2 = none → ∃ t, exec (.lcSeal .sp h b) s = .next t ∧ t.rd F.PKG_LC_CODE = 0x0F ∧
      t.img.fuseHash = s.tokenKey 0 ∧ t.rd F.PKG_LC_REQ_RESULT = 1) ∧
    (∀ b, s.lcFault 3 = none → s.mode ≠ .sealedHalt → ∃ t, exec (.lcReturn .sp b) s = .next t ∧ t.mode = .safeStop ∧ t.img.returning = some b ∧
      t.rd F.PKG_LC_REQ_BUSY = 1) ∧
    (∀ b, b ≠ Burn.failed → s.lcFault 3 = none → s.mode = .sealedHalt → ∃ t, exec (.lcReturn .sp b) s = .next t ∧ t.rd F.PKG_LC_CODE = 0x1F ∧
      t.img.seed = none ∧ t.sec.slots = []) ∧
    (∀ b, b ≠ Burn.failed → s.lcFault 5 = none → ∃ t, exec (.lcRetire .sp b) s = .next t ∧ t.rd F.PKG_LC_CODE = 0x3F ∧ t.rd F.PKG_LC_REQ_RESULT = 1) ∧
    (∀ b, b ≠ Burn.failed → s.lcFault 6 = none → s.tokenLe 0 5 1 < 4 → ∃ t, exec (.lcRevoke .sp b) s = .next t ∧
      (t.rd F.PKG_LC_REVOKED).testBit (s.tokenLe 0 5 1) = true ∧ t.rd F.PKG_LC_REQ_RESULT = 1) ∧
    (∀ b r, s.lcFault 1 = some r → r ≠ 1 → r < 256 → ∃ t, exec (.lcOpen .sp b) s = .next t ∧ t.rd F.PKG_LC_CODE = s.rd F.PKG_LC_CODE ∧
      t.rd F.PKG_LC_REQ_RESULT = r)) ∧
  (∀ (b : Burn) (s : State), s.pwr.rind = true → s.rd F.PKG_LC_CODE = 0x01 → s.mode = .sealedHalt → b ≠ .failed →
    ∃ t, exec (.fuseProg b) s = .next t ∧ t.rd F.PKG_LC_CODE = 0x03 ∧ t.img.rootKey ≠ none)

/-- JTAG, debug and SPDM (spec/15, spec/18). MAKER_PRIVATE stops only where the spec permits a private instruction without saying what it
does (R443, R444). -/
def Obligations.DebugAndSpdmComplete : Prop :=
  (∀ s : State, s.pwr.rind = true →
    (∃ t, exec .jtagReset s = .next t ∧ t.jtag.ir = 0x01) ∧
    (exec .jtagIdcode s = .next ((s.setIr 0x01).emit (.tdo 0x01 0x196805C7))) ∧
    (exec .jtagBypass s = .next ((s.setIr 0xFF).emit (.tdo 0xFF 0))) ∧
    (∀ v : BitVec 9, (s.mode = .dormant ∨ s.mode = .sealedHalt ∨ s.mode = .returnTest →
        (∃ t, exec (.jtagSamplePreload v) s = .next t ∧ t.jtag.ir = 0x02 ∧ t.jtag.bsr = v) ∧
        (∃ t, exec (.jtagExtest v) s = .next t ∧ t.jtag.ir = 0x03 ∧ t.jtag.bsr = v) ∧
        (∃ t, exec .jtagClamp s = .next t ∧ t.jtag.ir = 0x04 ∧ t.jtag.bsr = s.jtag.bsr) ∧
        (∃ t, exec .jtagHighz s = .next t ∧ t.jtag.ir = 0x05 ∧ t.jtag.bsr = s.jtag.bsr)) ∧
      (s.mode ≠ .dormant → s.mode ≠ .sealedHalt → s.mode ≠ .returnTest →
        exec (.jtagSamplePreload v) s = .next ((s.setIr 0x02).emit (.tdo 0xFF 0)) ∧ exec (.jtagExtest v) s = .next ((s.setIr 0x03).emit (.tdo 0xFF 0)) ∧
        exec .jtagClamp s = .next ((s.setIr 0x04).emit (.tdo 0xFF 0)) ∧ exec .jtagHighz s = .next ((s.setIr 0x05).emit (.tdo 0xFF 0)))) ∧
    (∀ addr : BitVec 32, addr.toNat % 8 = 0 → (regAt addr.toNat).isSome = true →
      (s.jtagReads addr.toNat = true → exec (.dbgAccRead addr) s = .next
        { ((((s.setIr 0x20).dbgShift).rindAccess addr.toNat).readReg addr.toNat).2 with
          jtag.data := ((((s.setIr 0x20).dbgShift).rindAccess addr.toNat).readReg addr.toNat).1 }) ∧
      (s.jtagReads addr.toNat = false → ∃ t, exec (.dbgAccRead addr) s = .next t ∧ t.jtag.data = 0) ∧
      (∀ w, s.jtagWrites addr.toNat = true → exec (.dbgAccWrite addr w) s =
        .next (((s.setIr 0x20).dbgShift).pulseDraw.2.writeReg .jtag addr.toNat w ((s.setIr 0x20).dbgShift).pulseDraw.1)) ∧
      (∀ w, s.jtagWrites addr.toNat = false → exec (.dbgAccWrite addr w) s =
        .next ((((s.setIr 0x20).dbgShift).pulseDraw.2.rindAccess addr.toNat).jtagRefused addr.toNat true))) ∧
    (∀ sp : Fin 2, s.lcOpen = true → s.domain (428 + sp.val) = 1 →
      (∃ t, exec (.dbgSp sp .halt) s = .next t ∧ (if sp = 0 then 0 else 7) ∈ t.jtag.halted) ∧
      (∀ a, ∃ t v, exec (.dbgSp sp (.read a)) s = .next t ∧ t.out = .spMem (if sp = 0 then 0 else 7) v :: s.out)) ∧
    (∀ n : Fin 127, (s.makerOk = true → exec (.makerPrivate n) s = .refused .makerPrivate) ∧
      (s.makerOk = false → exec (.makerPrivate n) s = .next ((s.setIr (0x80 + n.val)).emit (.tdo 0xFF 0))))) ∧
  (∀ (a : Cell) (s : State), s.roleOf a = .host → s.isAnchor a = true → portsOn s.mode = true →
    exec (.spdmGetVersion a) s = .next (s.emit (.spdm a .version [0x13])) ∧
    exec (.spdmGetCapabilities a) s = .next (s.emit (.spdm a .capabilities [1, 1, 1, 1, 1, 1])) ∧
    exec (.spdmNegotiateAlgorithms a) s = .next (s.emit (.spdm a .algorithms [1, 1, 1, 1])) ∧
    exec (.spdmGetCertificate a 0) s = .next (s.emit (.spdm a .certificate [3])) ∧
    (∀ k : Fin 8, k ≠ 0 → exec (.spdmGetCertificate a k) s = .next (s.emit (.spdm a .invalidRequest []))) ∧
    (∀ n : Fin 256, n.val ≤ 6 ∨ n.val = 0xFF → exec (.spdmGetMeasurements a n false) s = .next (s.emit (.spdm a .measurements (s.measure n.val)))) ∧
    (s.canSign = true → s.spdm.queue.length < 16 →
      (∃ t, exec (.spdmChallenge a) s = .next t ∧ t.spdm.queue = s.spdm.queue ++ [(a, .challenge)]) ∧
      (∃ t, exec (.spdmKeyExchange a) s = .next t ∧ t.spdm.queue = s.spdm.queue ++ [(a, .keyExchange)]) ∧
      (∀ n : Fin 256, n.val ≤ 6 ∨ n.val = 0xFF →
        ∃ t, exec (.spdmGetMeasurements a n true) s = .next t ∧ t.spdm.queue = s.spdm.queue ++ [(a, .measurements n.val)])) ∧
    (s.canSign = true → 16 ≤ s.spdm.queue.length → exec (.spdmChallenge a) s = .next (s.emit (.spdm a .notReady [])))) ∧
  (∀ (a : Cell) (l : List (Cell × SignFor)) (s : State),
    (s.spdm.queue = (a, .challenge) :: l → ∃ t, exec .spdmSignComplete s = .next t ∧ t.spdm.queue = l ∧
      t.out = .spdm a .challengeAuth [] :: s.out) ∧
    (s.spdm.queue = (a, .keyExchange) :: l → ∃ t, exec .spdmSignComplete s = .next t ∧ t.spdm.queue = l ∧ a ∈ t.spdm.sessions ∧
      t.out = .spdm a .keyExchange [] :: s.out))

/-- The manager port and commit epochs (spec/16). -/
def Obligations.ManagerAndCommitComplete : Prop :=
  (∀ (x : ZmpIn) (s : State), s.pwr.rind = true → x.frameOk = true → x.valid = true →
    (x.busy = true → ∀ c : BitVec 16, exec (.zmpAcquire x c) s =
      .next ((s.sat F.MGR_ZMP_CNT_BUSY).zmpAnswer .mgr 1 x.seq.toNat 1 [])) ∧
    (x.busy = false → (∀ n, s.stored .mgr n x.seq.toNat = none) →
      (∀ c : BitVec 16, s.mgr.holder = none → s.pathOk .mgr = true → s.mode ≠ .sealedHalt →
        ∃ t l, exec (.zmpAcquire x c) s = .next t ∧ t.mgr.holder = some .mgr ∧ t.mgr.client = c.toNat ∧ t.mgr.leaseEnd = s.wall + s.leaseMs * msCyc ∧
          t.out = .zmp .mgr 129 x.seq.toNat 0 l :: s.out) ∧
      (∀ c : BitVec 16, s.mgr.holder = some .mgr →
        (∃ t l, exec (.zmpRenew x c) s = .next t ∧ t.mgr.leaseEnd = s.wall + s.leaseMs * msCyc ∧ t.out = .zmp .mgr 130 x.seq.toNat 0 l :: s.out) ∧
        (∃ t l, exec (.zmpRelease x c) s = .next t ∧ t.mgr.holder = none ∧ t.out.head? = some (.zmp .mgr 131 x.seq.toNat 0 l))) ∧
      (∀ (a : BitVec 32) (n : BitVec 16), 1 ≤ n.toNat → n.toNat ≤ 64 →
        ∃ t l, exec (.zmpRead x a n) s = .next t ∧ t.out.head? = some (.zmp .mgr 132 x.seq.toNat 0 l) ∧ l.length = n.toNat) ∧
      (∀ (a : BitVec 32) (w : Word), exec (.zmpWrite x a [w]) s = .next
        ({ s.writeDraw .mgr a.toNat w with mgr.answers :=
          (({ src := .mgr, seq := x.seq.toNat, typ := 5, payload := [] } : Answer) :: (s.writeDraw .mgr a.toNat w).mgr.answers).take 8 }.zmpAnswer .mgr 5
            x.seq.toNat 0 [])) ∧
      (∃ t, exec (.zmpMctp x (.control .other)) s = .next t ∧ Out.mctp .mgr ∈ t.out) ∧
      (∃ t, exec (.zmpPing x) s = .next t ∧ t.out = .zmp .mgr 135 x.seq.toNat 0 [(s.look F.PKG_MODE_at).toNat] :: s.out)) ∧
    (∀ a, x.busy = false → s.stored .mgr 7 x.seq.toNat = some a →
      ∃ t, exec (.zmpPing x) s = .next t ∧ t.mgr.answers = s.mgr.answers ∧
        t.out = .zmp .mgr 135 x.seq.toNat 0 (a.payload.map (fun w => w.toNat)) :: s.out)) ∧
  (∀ (x : ZmpIn) (s : State), s.pwr.rind = true →
    (exec (.mctpControl .mgr .other) s = .next (s.emit (.mctp .mgr))) ∧
    (x.frameOk = true → x.valid = true → x.busy = false → s.stored .mgr 7 x.seq.toNat = none → s.mgr.holder = some .mgr →
      ∃ t, exec (.mctpVendorZmp .mgr x .ping) s = .next t ∧ t.out = .zmp .mgr 135 x.seq.toNat 0 [(s.look F.PKG_MODE_at).toNat] :: s.out) ∧
    (∀ h, s.mgr.holder = some h → s.mgr.leaseEnd ≤ s.wall → ∃ t, exec .leaseExpiry s = .next t ∧ t.mgr.holder = none ∧ t.mgr.shadow = [] ∧
      (s.mode = .maintenance → t.mode = .service) ∧ (s.mode ≠ .maintenance → t.mode = s.mode))) ∧
  (∀ (a : BitVec 32) (v : Word) (s u : State), u = (s.pulseDraw.2).rindAccess a.toNat →
    (a.toNat % 8 ≠ 0 → exec (.registerWrite .sp a v) s = .next (u.logAccess .sp 1 a.toNat v.toNat)) ∧
    (a.toNat % 8 = 0 → regAt a.toNat = none → exec (.registerWrite .sp a v) s = .next (u.logAccess .sp 2 a.toNat v.toNat)) ∧
    (∀ r l, regAt a.toNat = some (r, l) → a.toNat % 8 = 0 → u.hidden a.toNat = false → a.toNat ≠ F.PKG_LOG_SEL_at →
      exec (.registerWrite .sp a v) s = .next (u.act .sp a.toNat (u.attempts a.toNat r v) s.pulseDraw.1))) ∧
  (∀ s : State,
    (s.mgr.epoch = none → commitMode s.mode = false → ∃ t, exec (.commitGo .sp) s = .next t ∧ t.rd F.PKG_COMMIT_REFUSED = 1 ∧ t.mgr.epoch = none) ∧
    (s.mgr.epoch = none → commitMode s.mode = true → ∃ t e, exec (.commitGo .sp) s = .next t ∧ t.mgr.epoch = some e ∧ t.mgr.shadow = [] ∧
      e.shadows = s.mgr.shadow ∧ e.goAt = s.cyc) ∧
    (∃ t, exec (.commitDiscard .sp) s = .next t ∧ t.mgr.shadow = []) ∧
    (∀ e, s.mgr.epoch = some e → e.phase = .check → s.epochFree = true → exec .commitCheckComplete s = .next ((s.judgeEpoch e.shadows).goOn e)) ∧
    (∀ e (b : Fin 1024), s.mgr.epoch = some e → e.phase = .apply → s.scrim.epochOpen = false → b.val ∈ e.awAck →
      ∃ t e', exec (.commitApply b) s = .next t ∧ t.mgr.epoch = some e' ∧ b.val ∉ e'.awAck ∧ (∀ x ∈ e'.shadows, blockOf x.1 ≠ b.val)) ∧
    (∀ (a : BitVec 32) m, inGate a.toNat = false → s.safePoint a.toNat = true → mget s.mgr.pend a.toNat = some m → m.1 < 2 ^ 64 →
      ∃ t, exec (.commitPendingApply a (BitVec.allOnes 64)) s = .next t ∧ mget t.mgr.pend a.toNat = none) ∧
    (∀ e, s.mgr.epoch = some e → e.phase = .apply → e.awAck = [] → s.scrim.epochOpen = false →
      ∃ t : State, exec .commitEpochEnd s = .next t.nextCommit ∧ t.mgr.epoch = none ∧ t.sec.waiting = s.sec.waiting ∧
        t.rd F.PKG_COMMIT_RESULT = (if e.refused ≠ 0 then 2 else if e.applied ≠ 0 then 1 else 3) ∧
        t.rd F.PKG_COMMIT_EPOCH = (s.rd F.PKG_COMMIT_EPOCH + 1) % 2 ^ F.PKG_COMMIT_EPOCH.width))

/-- Counters (spec/17), temperatures (spec/18) and CXL.io (spec/08). -/
def Obligations.CountersThermalAndIoComplete : Prop :=
  (∀ (c : Cell) (n : Fin 8) (k : Fin 1025) (s : State),
    (s.ctrWraps c n k = false → exec (.ctrOverflow c n k) s = .next s) ∧
    (s.ctrWraps c n k = true → s.ctrLive c n = true → s.cellFenced c = false → s.ctrChained c n = false → s.rd (F.CTR_CFG_SAMPLE c n) = 0 →
      ∃ t, exec (.ctrOverflow c n k) s = .next t ∧ t.rd (F.CTR_VAL_VALUE c n) = s.rd (F.CTR_VAL_VALUE c n) + k.val - 2 ^ 32 ∧
        (t.rd (F.CTR_CTL_OVF c)).testBit n.val = true)) ∧
  (∀ (c : Cell) (t0 m : Nat) (s : State), mget s.ctr.capture c.val = some (t0, m) →
    (∃ t, exec (.ctrCapture c true) s = .next t ∧ mget t.ctr.capture c.val = none ∧ mget t.ctr.record c.val = some (s.ctrRecord c t0 m) ∧
      mgetD 0 t.ctr.seq c.val = (mgetD 0 s.ctr.seq c.val + 1) % 2 ^ 32) ∧
    (∃ t, exec (.ctrCapture c false) s = .next t ∧ mget t.ctr.capture c.val = none ∧ mget t.ctr.record c.val = none ∧
      t.out.head? = some (.samp (s.mgtPkt c 1 (packed 64 (s.ctrRecord c t0 m)))))) ∧
  (∀ (c : Cell) (s : State), s.mgr.pend = [] → s.hidden (F.CTR_CTL_at c) = false → (∀ n : Fin 8, s.hidden (F.CTR_VAL_at c n) = false) →
    (∀ j : Fin 4, s.hidden (F.CTR_PAIR_at c j) = false) →
    (∀ (n : Fin 8) (v : BitVec 32) (k : Fin 1025), s.ctrLive c n = false →
      ∃ t, exec (.ctrValWrite .sp c n v k) s = .next t ∧ t.rd (F.CTR_VAL_VALUE c n) = v.toNat) ∧
    (∀ (j : Fin 4) (v : Word) (k l : Fin 1025), s.ctrLive c (2 * j.val) = false → s.ctrLive c (2 * j.val + 1) = false →
      ∃ t, exec (.ctrPairWrite .sp c j v k l) s = .next t ∧
        t.rd (F.CTR_VAL_VALUE c (2 * j.val)) + t.rd (F.CTR_VAL_VALUE c (2 * j.val + 1)) * 2 ^ 32 = v.toNat) ∧
    (∀ v : Bool, ∃ t, exec (.ctrFreezeWrite .sp c v) s = .next t ∧ t.rd (F.CTR_CTL_FREEZE c) = v.toNat) ∧
    (∃ t, exec (.ctrSnap .sp c) s = .next t ∧ (∀ n : Fin 8, t.rd (F.CTR_SNAPVAL_VALUE c n) = s.rd (F.CTR_VAL_VALUE c n)) ∧
      t.rd (F.CTR_SNAP_TIME_TIME c) = s.ns % 2 ^ 64)) ∧
  (∀ (c : Cell) (s : State), s.rd (F.CTR_CTL_SNAP_ARM c) = 1 → s.domain (3 * c.val) = 1 → s.rd (F.CTR_SNAP_AT_SNAP_AT c) ≤ s.ns → s.cellFenced c = false →
    ∃ t, exec (.ctrSnapAtReached c) s = .next t ∧ (∀ n : Fin 8, t.rd (F.CTR_SNAPVAL_VALUE c n) = s.rd (F.CTR_VAL_VALUE c n)) ∧
      t.rd (F.CTR_CTL_SNAP_ARM c) = 0) ∧
  (∀ (i : Inst) (s : State), (s.ctrGrant i 1 = true ∨ s.ctrGrant i 2 = true → exec (.instCtrSnap none i) s = .next (s.instSnap i)) ∧
    (s.ctrGrant i 1 = false → s.ctrGrant i 2 = false → exec (.instCtrSnap none i) s = .next s)) ∧
  (∀ s : State, s.pwr.rind = true →
    (∀ x : Fin 52, ∃ t, exec (.thermalWarn x) s = .next t ∧ x ∈ t.therm.warm ∧ t.therm.asserted = true) ∧
    (∃ t, exec .thermalRelease s = .next t ∧ t.therm.warm = [] ∧ t.therm.asserted = false) ∧
    (∀ x : Fin 52, s.runs_ (sensorElem x) = true → x.val < 36 →
      exec (.thermalTrip [x]) s = .next (State.failElem { s.warm x with pwr.tripped := s.pwr.tripped.dedup } (sensorElem x) none
        (if x.val < 32 then 0x0004 else 0x0005) (elemNum (sensorElem x))))) ∧
  (∀ (a : Cell) (v : Fin 64) (s : State), s.mode ≠ .safeStop → a.val ∉ s.pool.paused → s.firstSlot a ≠ none →
    (s.vppbInst a v = none → s.vppbDevice a v = none →
      (∀ l, exec (.hostCxlIoRequest a (.decoders v l)) s = .next (s.vcsAnswer a [] true)) ∧
      (∀ o w, exec (.hostCxlIoRequest a (.window v o w)) s = .next (s.vcsAnswer a [] true)) ∧
      (∀ h d, exec (.hostCxlIoRequest a (.device v h d)) s = .next (s.vcsAnswer a [] true))) ∧
    (∀ i, s.vppbInst a v = some i → s.vppbDevice a v = none →
      (∀ o, exec (.hostCxlIoRequest a (.window v o none)) s = .next (s.vcsAnswer a [(s.tenantRead i o.val).toNat])) ∧
      (∀ o w, exec (.hostCxlIoRequest a (.window v o (some w))) s = .next ((s.tenantWrite i o.val w).vcsAnswer a [])) ∧
      (∀ x, ∃ u : State, exec (.hostCxlIoRequest a (.decoders v [x])) s = .next (u.vcsAnswer a []) ∧
        ({ inst := i, base := x.1, size := x.2.1, dpa := x.2.2 } : Hdm) ∈ mgetD [] u.pool.hdm a.val)))

/-- Frames of register-only commands. -/
def Obligations.RegisterOnlyFrames : Prop :=
  ∀ s t : State,
    (∀ x2 w a b, exec (.mgrFrameReceive x2 w a b) s = .next t →
      s.onlyRegs [F.LANE_M_ERR_at 0, F.LANE_M_ERR_at 1, F.LANE_M_STATUS_at, F.LANE_M_FRAMES_at] t) ∧
    (∀ m, exec (.mgrSyncGain m) s = .next t → s.onlyRegs [F.LANE_M_STATUS_at] t) ∧
    (∀ m v d, exec (.mgrSyncLoss m v d) s = .next t → s.onlyRegs [F.LANE_M_STATUS_at, F.LANE_M_ERR_at m] t) ∧
    (∀ m, exec (.mgrWidthFallback m) s = .next t → s.onlyRegs [F.LANE_M_STATUS_at] t) ∧
    (exec .mgrWidthRestoreX2 s = .next t → s.onlyRegs [F.LANE_M_STATUS_at] t) ∧
    (∀ v, exec (.mgrLoopWrite .sp v) s = .next t → s.onlyRegs [F.LANE_M_CTRL_at] t) ∧
    (exec .senseMated s = .next t → s.onlyRegs [F.RIND_PWR_STATUS_at] t) ∧
    (exec .debounceExpiry s = .next t → s.onlyRegs [F.RIND_PWR_STATUS_at, F.RIND_PWR_BUS_at] t) ∧
    (∀ v, exec (.rampComplete v) s = .next t → s.onlyRegs [F.RIND_PWR_STATUS_at, F.RIND_PWR_BUS_at] t) ∧
    (∀ f i c, c ∈ [Instr.rampTimeout, .shortDetect, .rampComparatorTrip f i] → exec c s = .next t →
      s.onlyRegs [F.RIND_PWR_STATUS_at, F.RIND_PWR_FEED_at f, F.RIND_PWR_BUS_at, F.RIND_PWR_TIMER_at, F.RIND_PWR_EVT_at, F.RIND_PWR_LAST_at] t) ∧
    (exec .tripWaitExpiry s = .next t → s.onlyRegs [F.RIND_PWR_STATUS_at, F.RIND_PWR_BUS_at, F.RIND_PWR_EVT_at] t) ∧
    (∀ c, c ∈ [Instr.latchClearEnableCycle, .retryCountClear, .pwrgdAssert] → exec c s = .next t → s.onlyRegs [F.RIND_PWR_STATUS_at] t) ∧
    (∀ f v, exec (.feedValid f v) s = .next t → s.onlyRegs [F.RIND_PWR_STATUS_at, F.RIND_PWR_FEED_at f, F.RIND_PWR_BUS_at] t) ∧
    (∀ f, exec (.idealDiodeReverseOff f) s = .next t → s.onlyRegs [F.RIND_PWR_STATUS_at, F.RIND_PWR_FEED_EVT_at] t) ∧
    (exec (.clrPeak .sp) s = .next t → s.onlyRegs [F.RIND_PWR_FEED_at 0, F.RIND_PWR_FEED_at 1, F.RIND_PWR_BUS_at, F.RIND_PWR_TIMER_at] t) ∧
    (∀ c, c ∈ [Instr.xtalLoss, .xtalRestore] → exec c s = .next t →
      s.onlyRegs (F.RIND_CLK_STATUS_at :: (List.range 8).map F.DIE_PLL_STATUS_at) t) ∧
    (exec .rtcXtalLoss s = .next t → s.onlyRegs [F.RIND_CLK_STATUS_at] t) ∧
    (∀ v, exec (.rtcWrite .sp v) s = .next t → s.onlyRegs [F.RIND_RTC_at] t) ∧
    (exec (.sleepClrMax .sp) s = .next t → s.onlyRegs [F.RIND_SLEEP_STATUS_at] t) ∧
    (∀ d, exec (.refclkReturn d) s = .next t → s.onlyRegs ((s.dieAnchors d).map (fun a => F.LANE_PORT_STATUS_at a)) t) ∧
    (∀ c, exec (.l1Entry c) s = .next t →
      s.onlyRegs (F.LANE_PORT_STATUS_at c :: (List.range (s.portWidth c)).map (fun j => F.LANE_STATUS_at (4 * c.val + j))) t) ∧
    (∀ l, exec (.lanePrbsStatRead .sp l) s = .next t → s.onlyRegs [F.LANE_PRBS_BITS_at l] t) ∧
    (∀ c, exec (.drainedReport c) s = .next t → s.onlyRegs [F.SCRIM_RTR_STATUS_at c] t) ∧
    (∀ c, exec (.retentionIdle c) s = .next t → s.onlyRegs ((s.portMembers c).map (fun m => F.SCRIM_RTR_STATUS_at m)) t) ∧
    (∀ d e, exec (.lathLpEntry d e) s = .next t → s.onlyRegs [F.DIE_LATH_STATUS_at d e, F.DIE_LATH_STATUS_at (facing d e) ((e.val + 2) % 4)] t) ∧
    (∀ c, exec (.xbarClrHwm c) s = .next t → s.onlyRegs [F.XBAR_TRACK_at c] t) ∧
    (∀ c, exec (.spillCtxView0Read c) s = .next t → s.onlyRegs [F.SPILL_CTX_VIEW0_at c, F.SPILL_CTX_VIEW1_at c, F.SPILL_CTX_VIEW2_at c] t) ∧
    (∀ c, exec (.homeTtClrHwm c) s = .next t → s.onlyRegs [F.HOME_TT_at c] t) ∧
    (∀ c, exec (.homeProxyClrHwm c) s = .next t → s.onlyRegs [F.HOME_PROXY_STATUS_at c] t) ∧
    (exec .takeoverQuiesceComplete s = .next t → s.onlyRegs ((s.takingOver 1).map (fun c => F.HOME_TAKE_at c)) t) ∧
    (∀ i, exec (.instCtrSnap none i) s = .next t → s.onlyRegs [F.INST_CTR_READS_at i, F.INST_CTR_WRITES_at i, F.INST_CTR_RD_LAT_at i,
      F.INST_CTR_HOLD_NS_at i, F.INST_CTR_THROTTLE_NS_at i, F.INST_CTR_TIME_at i] t) ∧
    (∀ c, exec (.ctrSnapAtReached c) s = .next t →
      s.onlyRegs (F.CTR_CTL_at c :: F.CTR_SNAP_TIME_at c :: (List.range 8).map (F.CTR_SNAPVAL_at c)) t)

/-- Register frames of commands that also change tables, queues or pins. -/
def Obligations.RegisterFrames : Prop :=
  ∀ s t : State,
    (∀ l c, c ∈ [Instr.injOne .sp l, .injRateError l, .prbsCheckerLock l] → exec c s = .next t → ∀ a, a ≠ F.LANE_PRBS_STAT_at l → t.reg a = s.reg a) ∧
    (∀ l n, exec (.prbsCheckerLockLoss l n) s = .next t → ∀ a, a ≠ F.LANE_PRBS_STAT_at l → t.reg a = s.reg a) ∧
    (∀ l, exec (.chkEnSet .sp l) s = .next t →
      ∀ a, a ∉ [F.LANE_TEST_at l, F.LANE_PRBS_STAT_at l, F.LANE_PRBS_BITS_at l] → t.reg a = s.reg a) ∧
    (∀ c n, exec (.spillFetch c n) s = .next t → ∀ a, a ≠ F.SPILL_STATUS_at c → t.reg a = s.reg a) ∧
    (∀ h, exec (.proxyAgeCheck h) s = .next t → ∀ a, a ∉ [F.HOME_PROXY_STATUS_at h, F.HOME_PROXY_DROPS_at h] → t.reg a = s.reg a) ∧
    (∀ h, exec (.dirLookup h) s = .next t → ∀ a, a ≠ F.DIR_VIEW2_at h → t.reg a = s.reg a) ∧
    (∀ h, exec (.dirLookupComplete h) s = .next t → ∀ a, a ∉ [F.DIR_VIEW0_at h, F.DIR_VIEW1_at h, F.DIR_VIEW2_at h] → t.reg a = s.reg a) ∧
    (∀ p c, c ∈ [Instr.bisnpcur p, .bisnpdata p, .bisnpinv p, .bicack p] → exec c s = .next t →
      s.cellFenced p.dst = true ∨ s.rd (F.SCRIM_RTR_STATUS_LOCAL_MODE p.dst) ≠ 1 → ∀ a, a ≠ F.SCRIM_ABSORB_at p.dst → t.reg a = s.reg a) ∧
    (∀ h n mv, exec (.hostBirsp h n mv) s = .next t → ∀ a, a ≠ F.HOME_BIRSP_HOLD_at h → t.reg a = s.reg a) ∧
    (∀ p go, exec (.ideKmKeySet p go) s = .next t → ∀ a, a ≠ F.SEC_IDE_at p → t.reg a = s.reg a) ∧
    (∀ c k, exec (.zeroize c k) s = .next t → ∀ a, a ≠ F.SEC_STATUS_at → t.reg a = s.reg a) ∧
    (∀ k, exec (.zeroizeComplete k) s = .next t → ∀ a, a ∉ [F.SEC_STATUS_at, F.SEC_KEY_CNT_at] → t.reg a = s.reg a) ∧
    (∀ d, exec (.pressSourceDrained d) s = .next t → ∀ a, a ∉ [F.INST_PRESS_OP_at d, F.INST_ENG_STATUS_at d] → t.reg a = s.reg a) ∧
    (∀ i c, c ∈ [Instr.migMigrate .sp i, .migSave .sp i] → exec c s = .next t →
      (∀ d o, mget s.pool.press d = some o → ∀ q ∈ o.parts, q.2.ext ∉ (s.owner i).exts) →
      ∀ a, a ∉ [F.INST_INFO_at i, F.INST_MIG_at i, F.INST_MIG_STATUS_at i] → t.reg a = s.reg a) ∧
    (∀ ok, exec (.norOpComplete ok) s = .next t → ∀ a, a ∉ F.PKG_NOR_CTRL_at :: (List.range 32).map F.PKG_NOR_DATA_at → t.reg a = s.reg a) ∧
    (∀ c b, exec (.ctrCapture c b) s = .next t →
      ∀ a, a ∉ F.CTR_SREC_PTR_at c :: (List.range 64).map (fun n => F.CTR_SREC_at c (n / 8) (n % 8)) → t.reg a = s.reg a) ∧
    (∀ c n k, exec (.ctrOverflow c n k) s = .next t → ∀ a, a ∉ F.CTR_CTL_at c :: (List.range 8).map (F.CTR_VAL_at c) → t.reg a = s.reg a) ∧
    (∀ c, exec (.onoraNakRepeat c) s = .next t → ∀ a, a ≠ F.ONL_ERR_at c → t.reg a = s.reg a) ∧
    (∀ c v, v ∈ [Instr.onoraTrainRetry c, .onoraSignalRegained c] → exec v s = .next t →
      ∀ a, a ∉ [F.LANE_PORT_STATUS_at c, F.ONL_STATUS_at c, F.LANE_PORT_CTRL_at c] → t.reg a = s.reg a)

/-- The frame of all 305 commands, part by part. -/
def Obligations.EveryCommandFrame : Prop :=
  ∀ (c : Instr) (s t : State), exec c s = .next t → s.changesOnly (partsOf c) t

/-- A step runs the command in front. -/
def Obligations.StepTakesTheFront : Prop :=
  ∀ (c : Instr) (l : List Instr) (s : State), step { s with pending := c :: l } = exec c { s with pending := l }

/-- The idle step. The Rind tick (120 core cycles) and the tick itself are DESIGN CHOICE, log 17. -/
def Obligations.EmptyQueuePassesACycle : Prop :=
  ∀ s : State, s.pending = [] → ∃ t, step s = .next t ∧ t.pending = [] ∧
    (s.pwr.rind = false → t = s) ∧
    (s.pwr.rind = true →
      t.wall = s.wall + 1 ∧
      (s.mode ≠ .dormant → t.cyc = s.cyc + 1 ∧ t.mode = s.mode) ∧
      (s.mode = .dormant →
        ((s.wall + 1) % 120 = 0 ∧ s.rdb F.RIND_PWR_STATUS_ENABLE = true ∧ s.rdb F.RIND_PWR_STATUS_PWRGD = true →
          t.cyc = 0 ∧ (t.mode = .imageLoad ∨ t.mode = .sealedHalt)) ∧
        (¬ ((s.wall + 1) % 120 = 0 ∧ s.rdb F.RIND_PWR_STATUS_ENABLE = true ∧ s.rdb F.RIND_PWR_STATUS_PWRGD = true) →
          t.cyc = s.cyc ∧ t.mode = .dormant)))

/-- Reset. The six values and the erased boot memory are the model's (log 1). -/
def Obligations.StateAfterReset : Prop :=
  State.reset.mode = .imageLoad ∧ State.reset.mode.code = 0x1 ∧ State.reset.cyc = 0 ∧ State.reset.pending = [] ∧
  (∀ a, a ∉ [0x300, 0x100000, 0x100260, 0x100268, 0x1030000, 0x1730000] → State.reset.reg a = regReset a) ∧
  State.reset.rd F.PKG_LC_CODE = 0x07 ∧ State.reset.rdb F.RIND_PWR_STATUS_PWRGD = true ∧ State.reset.rdb F.RIND_PWR_STATUS_ENABLE = true ∧
  (∀ dev off, State.reset.norByte dev off = 0xFF) ∧
  State.reset.scrim.flight = [] ∧ State.reset.scrim.fence = ({} : FenceMap) ∧ State.reset.sec = ({} : SecSt) ∧
  State.reset.mgr.holder = none ∧ State.reset.pool = ({} : PoolSt) ∧ State.reset.therm.asserted = false ∧
  (∀ c : Cell, State.reset.roleOf c = .idle ∧ State.reset.anchorOf c = c)

/-- The invariant holds after reset. -/
def Obligations.ResetIsSound : Prop := State.reset.Sound

/-- The invariant of the machine, kept by every command and by the idle cycle. -/
def Obligations.StepKeepsSound : Prop :=
  ∀ s t : State, s.Sound → step s = .next t → t.Sound

/-- R40 over every step. -/
def Obligations.ModeMovesAlongTheTable : Prop :=
  (∀ s t : State, s.pending.head? ≠ some .rindStop → step s = .next t → ModePath s.mode t.mode) ∧
  (∀ s : State, s.pwr.rind = true → ∃ t, exec .rindStop s = .next t ∧ t.mode = .dormant) ∧
  (∀ m : Mode, m.code < 12)

/-- The fused root key outlives every command, DORMANT and a stop of Rind. -/
def Obligations.RootKeyIsNeverChanged : Prop :=
  ∀ (s t : State) (k : Nat), s.img.rootKey = some k → step s = .next t → t.img.rootKey = some k

/-- Where the machine stops. -/
def Obligations.OnlyPrivateInstructionsStop : Prop :=
  ∀ s : State,
    (∀ f, step s ≠ .fault f) ∧
    (∀ r, step s = .refused r ↔
      r = .makerPrivate ∧ s.pwr.rind = true ∧ s.rd F.PKG_LC_CODE ∈ [0x03, 0x1F, 0x3F] ∧ ∃ n l, s.pending = .makerPrivate n :: l)

/-- The register space. -/
def Obligations.RegisterFieldsReadBack : Prop :=
  ∀ (s : State) (f g : Fld) (n : Nat), f.lsb + f.width ≤ 64 → g.lsb + g.width ≤ 64 →
    (s.wr f n).rd f = n % 2 ^ f.width ∧
    (f.addr ≠ g.addr ∨ f.lsb + f.width ≤ g.lsb ∨ g.lsb + g.width ≤ f.lsb → (s.wr f n).rd g = s.rd g) ∧
    s.onlyRegs [f.addr] (s.wr f n) ∧
    (regsOk s.regs = true → regsOk (s.wr f n).regs = true ∧ (s.wr f n).setReg f.addr (s.reg f.addr) = s)

/-- R15. -/
def Obligations.PortsTakeTheNumberOfTheirAnchor : Prop :=
  ∀ (c : Cell) (s : State),
    (s.rd (F.XBAR_STATUS_WIDTH (c.val - c.val % 4)) = 3 → (s.anchorOf c).val = c.val - c.val % 4) ∧
    (s.rd (F.XBAR_STATUS_WIDTH (c.val - c.val % 4)) ≠ 3 → s.rd (F.XBAR_STATUS_WIDTH (c.val - c.val % 2)) = 2 →
      (s.anchorOf c).val = c.val - c.val % 2) ∧
    (s.rd (F.XBAR_STATUS_WIDTH (c.val - c.val % 4)) ≠ 3 → s.rd (F.XBAR_STATUS_WIDTH (c.val - c.val % 2)) ≠ 2 → s.anchorOf c = c)

/-- R499. -/
def Obligations.ThermNFollowsTheSensors : Prop :=
  (∀ (x : Fin 52) (s : State), s.pwr.rind = true →
    ∃ t, exec (.thermalWarn x) s = .next t ∧ t.therm.asserted = true ∧ x ∈ t.therm.warm ∧ (∀ y ∈ s.therm.warm, y ∈ t.therm.warm) ∧
      t = { s with therm := t.therm }) ∧
  (∀ s : State, s.pwr.rind = true →
    ∃ t, exec .thermalRelease s = .next t ∧ t.therm.asserted = false ∧ t.therm.warm = [] ∧ t = { s with therm := t.therm }) ∧
  (∀ (c : Instr) (s t : State), (∀ x, c ≠ .thermalWarn x) → c ≠ .thermalRelease → (∀ xs, c ≠ .thermalTrip xs) → c ≠ .rindStop →
    exec c s = .next t → t.therm = s.therm) ∧
  (∀ (s : State) (x : Fin 52), s.Sound → x ∈ s.therm.warm → s.therm.asserted = true)

/-- R13: PORT_LINK_UP is the end of CXL and PCIe training. -/
def Obligations.OnoraPortsTrainOnlyOnora : Prop :=
  ∀ (c : Cell) (x : LinkUp) (s : State), s.roleOf c = .onora ∨ s.roleOf c = .idle → exec (.portLinkUp c x) s = .next s

/-- R61, over the detour rule of R60. -/
def Obligations.SingleFaultsLeaveEveryPairARoute : Prop :=
  (∀ (l : Fin 232) (s d : Cell), route { links := [l.val] } s.val d.val ≠ .unreachable) ∧
  (∀ (x : Die) (s d : Cell), s.val / 16 ≠ x.val → d.val / 16 ≠ x.val → route { dies := [x.val] } s.val d.val ≠ .unreachable)

/-- Home hashing. The spread over a group follows from the formula of R154. -/
def Obligations.HomesSpreadLines : Prop :=
  (∀ (s : State) (c : Cell) (line : Nat),
    s.homeOf c line = Cell.of (s.rd (F.HOME_MAP_CELL c (homeIndex (domainCells (s.topo c)) line / 8) (homeIndex (domainCells (s.topo c)) line % 8)))) ∧
  (∀ n : Nat, n = 128 ∨ n = 64 ∨ n = 32 →
    (∀ line : Nat, homeIndex n line =
      (line % 128 ^^^ line / 2 ^ 7 % 128 ^^^ line / 2 ^ 14 % 128 ^^^ line / 2 ^ 21 % 128 ^^^ line / 2 ^ 28 % 128 ^^^ line / 2 ^ 35 % 128
        ^^^ line / 2 ^ 42 % 16) % n ∧ homeIndex n line < n) ∧
    (∀ base i j : Nat, i < n → j < n → homeIndex n (n * base + i) = homeIndex n (n * base + j) → i = j))

/-- The places of directory entries. -/
def Obligations.DirectoryPlacesAreDistinct : Prop :=
  ∀ (c : Cell) (set way : Nat), set < 2 ^ 20 → way < 16 →
    (dirOffset c set way false < 0x200000000 ∧ 0x200000000 ≤ dirOffset c set way true ∧ dirOffset c set way true < 0x400000000) ∧
    (∀ line : Nat, dirSet line < 2 ^ 20) ∧
    offsetCell (primaryDie (c.val / 16)) (dirOffset c set way false) = c ∧
    offsetCell ((primaryDie (c.val / 16) + 4) % 8) (dirOffset c set way true) = c ∧
    primaryDie (c.val / 16) / 4 = c.val / 16 / 4 ∧
    (∀ (b : Cell) (set' way' : Nat) (m : Bool), set' < 2 ^ 20 → way' < 16 → dirOffset c set way m = dirOffset b set' way' m →
      set = set' ∧ way = way' ∧ c.val / 16 % 2 = b.val / 16 % 2 ∧ c.val % 16 = b.val % 16)

/-- Presence, exact and coarse. -/
def Obligations.DirectoryNeverForgetsASharer : Prop :=
  ∀ (e : DirEntry) (h : HSlot), e.st = .S → h.val < 96 → (e.coarse = true → e.presence.toNat < 2 ^ 48) →
    h ∈ (e.addSharer h).holders ∧ (e.addSharer h).st = .S ∧
    (∀ g ∈ e.holders, g ∈ (e.addSharer h).holders) ∧
    (e.coarse = false → h.val < 64 → (e.addSharer h).coarse = false ∧ ∀ g, g ∈ (e.addSharer h).holders ↔ g = h ∨ g ∈ e.holders) ∧
    (e.coarse = false → 64 ≤ h.val → (e.addSharer h).coarse = true ∧
      ∀ g : HSlot, g.val < 96 → (g ∈ (e.addSharer h).holders ↔ g.val / 2 = h.val / 2 ∨ ∃ k ∈ e.holders, k.val / 2 = g.val / 2)) ∧
    (e.coarse = true → e.dropHolder h = e) ∧
    (e.coarse = false → h.val < 64 → ∀ g, g ∈ (e.dropHolder h).holders ↔ g ∈ e.holders ∧ g ≠ h)

/-- The choice of a victim way and the ages. -/
def Obligations.VictimWayIsTheOldest : Prop :=
  ∀ x : CSet,
    (∀ i, x.freeWay = some i → (∃ e, x.ways[i]? = some e ∧ e.st = .I) ∧ ∀ j < i, ∀ e, x.ways[j]? = some e → e.st ≠ .I) ∧
    (x.freeWay = none ↔ ∀ e ∈ x.ways, e.st ≠ .I) ∧
    (∀ i, x.victim = some i → ∃ e, x.ways[i]? = some e ∧ e.st.transient = false ∧
      ∀ j f, x.ways[j]? = some f → f.st.transient = false → f.age ≤ e.age ∧ (f.age = e.age → i ≤ j)) ∧
    (x.victim = none ↔ ∀ e ∈ x.ways, e.st.transient = true) ∧
    (∀ i, (x.touch i).ways.length = x.ways.length ∧ ∀ (j : Nat) (e : DirEntry), x.ways[j]? = some e →
      (x.touch i).ways[j]? = some ({ e with age := if j = i then 0 else Fin.ofNat 16 (min 15 (e.age.val + 1)) } : DirEntry))

/-- Counting. -/
def Obligations.ChainedCountersCountSixtyFourBits : Prop :=
  ∀ (c : Cell) (j : Fin 4) (k : Nat) (s : State), k < 2 ^ 32 →
    (s.ctrRuns c (2 * j.val + 1) = true → s.ctrChained c (2 * j.val) = true → s.rdb (F.CTR_CFG_SAMPLE c (2 * j.val + 1)) = false →
      let v := s.rd (F.CTR_VAL_VALUE c (2 * j.val)) + 2 ^ 32 * s.rd (F.CTR_VAL_VALUE c (2 * j.val + 1)) + k
      let t := s.ctrAdd c (2 * j.val) k
      t.rd (F.CTR_VAL_VALUE c (2 * j.val)) + 2 ^ 32 * t.rd (F.CTR_VAL_VALUE c (2 * j.val + 1)) = v % 2 ^ 64 ∧
      t.rdBit (F.CTR_CTL_OVF c) (2 * j.val) = s.rdBit (F.CTR_CTL_OVF c) (2 * j.val) ∧
      t.rdBit (F.CTR_CTL_OVF c) (2 * j.val + 1) = (s.rdBit (F.CTR_CTL_OVF c) (2 * j.val + 1) || decide (2 ^ 64 ≤ v)) ∧
      s.onlyRegs [F.CTR_VAL_at c (2 * j.val), F.CTR_VAL_at c (2 * j.val + 1), F.CTR_CTL_at c] t) ∧
    (∀ n : Fin 8, s.ctrChained c n = false → s.rdb (F.CTR_CFG_SAMPLE c n) = false →
      let v := s.rd (F.CTR_VAL_VALUE c n) + k
      let t := s.ctrAdd c n k
      t.rd (F.CTR_VAL_VALUE c n) = v % 2 ^ 32 ∧
      t.rdBit (F.CTR_CTL_OVF c) n = (s.rdBit (F.CTR_CTL_OVF c) n || decide (2 ^ 32 ≤ v)) ∧
      s.onlyRegs [F.CTR_VAL_at c n, F.CTR_CTL_at c] t)

/-- A retransmission. -/
def Obligations.RetransmittedRequestsActOnce : Prop :=
  ∀ (x : ZmpIn) (r : ZmpReq) (c : Instr) (s t : State),
    (match r with
      | .acquire k => c = .zmpAcquire x k
      | .renew k => c = .zmpRenew x k
      | .release k => c = .zmpRelease x k
      | .read a n => c = .zmpRead x a n
      | .write a l => c = .zmpWrite x a l
      | .ping => c = .zmpPing x) →
    x.frameOk = true → x.busy = false → x.valid = true → zmpCount r = true → exec c s = .next t → t.pwr.rind = true →
    ∃ l, exec c t = .next ((t.sat F.MGR_ZMP_CNT_REPLAYED).zmpAnswer .mgr (zmpType r) x.seq.toNat 0 l)
end

