-- ==== Sys2Proof/Laws/Crypt.lean ====
section
/-! SUPPORT. A line that is encrypted decrypts to itself, and a key that is wrapped unwraps to itself (R279, R280, R282). -/

set_option Elab.async false

namespace Sys2Proof.Machine

/-- The upper and the lower part of two words put together, and a word put together from its parts. -/
theorem extract_upper {n m : Nat} (a : BitVec n) (b : BitVec m) : (a ++ b).extractLsb' m n = a := by
  apply BitVec.eq_of_getLsbD_eq
  intro i hi
  simp [BitVec.getLsbD_append, hi]
theorem extract_lower {n m : Nat} (a : BitVec n) (b : BitVec m) : (a ++ b).extractLsb' 0 m = b := by
  apply BitVec.eq_of_getLsbD_eq
  intro i hi
  simp [BitVec.getLsbD_append, hi]
theorem extract_above {n m : Nat} (a : BitVec n) (b : BitVec m) (i k : Nat) : (a ++ b).extractLsb' (m + i) k = a.extractLsb' i k := by
  apply BitVec.eq_of_getLsbD_eq
  intro j hj
  simp [BitVec.getLsbD_append, Nat.add_assoc]
theorem extract_join {w : Nat} (x : BitVec w) (i n m : Nat) : x.extractLsb' (i + m) n ++ x.extractLsb' i m = x.extractLsb' i (n + m) := by
  apply BitVec.eq_of_getLsbD_eq
  intro j hj
  simp only [BitVec.getLsbD_append, BitVec.getLsbD_extractLsb']
  by_cases h : j < m
  · simp [h, hj]
  · have e : i + m + (j - m) = i + j := by omega
    have e' : j - m < n := by omega
    simp [h, hj, e, e']
theorem extract_all {w : Nat} (x : BitVec w) : x.extractLsb' 0 w = x := by
  apply BitVec.eq_of_getLsbD_eq
  intro j hj
  simp [hj]
@[simp] theorem unwrapKey_wrapKey (t : BitVec 256) (key : BitVec 512) : unwrapKey t (wrapKey t key) = some key := by
  simp only [unwrapKey, wrapKey, Equiv.symm_apply_apply, extract_upper, extract_lower, if_true]

/-- A cell takes no wrapped value for a key but the wrap of that key. -/
theorem unwrapKey_eq_some {t : BitVec 256} {w : BitVec 576} {key : BitVec 512} (h : unwrapKey t w = some key) : w = wrapKey t key := by
  simp only [unwrapKey] at h
  split at h
  · rename_i hi
    simp only [Option.some.injEq] at h
    have e := extract_join ((Config.keyWrap t).symm w) 0 64 512
    rw [extract_all] at e
    rw [wrapKey, ← hi, ← h]
    exact (Equiv.symm_apply_eq _).1 e.symm
  · cases h

/-- Block j of a line as XTS deciphers it: the block that was enciphered. -/
theorem xtsBlock_symm (f : Equiv.Perm (BitVec 128)) (key : BitVec 512) (unit : Nat) (l m : Line) (j : Nat)
    (h : m.extractLsb' (128 * j) 128 = xtsBlock f key unit l j) : xtsBlock f.symm key unit m j = l.extractLsb' (128 * j) 128 := by
  simp only [xtsBlock, h, BitVec.xor_assoc, BitVec.xor_self, BitVec.xor_zero, Equiv.symm_apply_apply]

theorem xtsLine_block (f : BitVec 128 → BitVec 128) (key : BitVec 512) (unit : Nat) (l : Line) (j : Nat) (hj : j < 4) :
    (xtsLine f key unit l).extractLsb' (128 * j) 128 = xtsBlock f key unit l j := by
  have : j = 0 ∨ j = 1 ∨ j = 2 ∨ j = 3 := by omega
  rcases this with rfl | rfl | rfl | rfl
  · exact extract_lower _ _
  · exact (extract_above _ _ 0 128).trans (extract_lower _ _)
  · exact (extract_above _ _ 128 128).trans ((extract_above _ _ 0 128).trans (extract_lower _ _))
  · exact (extract_above _ _ 256 128).trans ((extract_above _ _ 128 128).trans ((extract_above _ _ 0 128).trans (extract_all _)))

/-- A line decrypts to what was encrypted (R279). -/
@[simp] theorem decrypt_encrypt (key : BitVec 512) (unit : Nat) (l : Line) : decrypt key unit (encrypt key unit l) = l := by
  have b (j : Nat) (hj : j < 4) := xtsBlock_symm (Config.aes256 (key.extractLsb' 0 256)) key unit l (encrypt key unit l) j
    (xtsLine_block _ key unit l j hj)
  rw [decrypt, xtsLine, b 0 (by omega), b 1 (by omega), b 2 (by omega), b 3 (by omega)]
  have h := extract_join l 256 128 128
  have h' := extract_join l 128 256 128
  have h'' := extract_join l 0 384 128
  rw [extract_all] at h''
  exact (congrArg (fun x => x ++ l.extractLsb' 0 128) ((congrArg (fun x => x ++ l.extractLsb' 128 128) h).trans h')).trans h''

end Sys2Proof.Machine
end

