-- ==== Sys2Proof/Laws/Map.lean ====
section
/-! SUPPORT. Laws of the finite maps: reading after writing, and that every operation keeps the keys strictly rising. -/

set_option Elab.async false

namespace Sys2Proof.Machine

/-- Keys strictly rising, as a relation between any two entries in order. -/
theorem mwf_iff_pairwise {V : Type} (m : NMap V) : mwf m = true ↔ m.Pairwise (fun x y => x.1 < y.1) := by
  induction m with
  | nil => simp [mwf]
  | cons x t ih =>
    cases t with
    | nil => simp [mwf]
    | cons y t =>
      rw [mwf, Bool.and_eq_true, ih, decide_eq_true_eq]
      constructor
      · rintro ⟨h1, h2⟩
        refine List.pairwise_cons.2 ⟨fun z hz => ?_, h2⟩
        rcases List.mem_cons.1 hz with rfl | hz
        · exact h1
        · exact lt_trans h1 ((List.pairwise_cons.1 h2).1 z hz)
      · intro h
        exact ⟨(List.pairwise_cons.1 h).1 y (List.mem_cons_self ..), (List.pairwise_cons.1 h).2⟩
/-- Filtering keeps the order of keys. -/
theorem mwf_filter {V : Type} (p : Nat × V → Bool) {m : NMap V} (h : mwf m = true) : mwf (m.filter p) = true :=
  (mwf_iff_pairwise _).2 (((mwf_iff_pairwise _).1 h).filter p)
theorem mwf_mdel {V : Type} {m : NMap V} (h : mwf m = true) (a : Nat) : mwf (mdel m a) = true := mwf_filter _ h
theorem mwf_mkeep {V : Type} (p : Nat → V → Bool) {m : NMap V} (h : mwf m = true) : mwf (mkeep p m) = true := mwf_filter _ h
/-- What mput lists: the new entry, or an old one at another key. -/
theorem mem_mput {V : Type} {m : NMap V} {a : Nat} {v : V} {e : Nat × V} (h : e ∈ mput m a v) : e = (a, v) ∨ e ∈ m := by
  induction m with
  | nil => simpa [mput] using h
  | cons x t ih =>
    obtain ⟨k, w⟩ := x
    simp only [mput] at h
    split at h
    · rcases List.mem_cons.1 h with h | h
      · exact .inl h
      · exact .inr (List.mem_cons_of_mem _ h)
    · split at h
      · rcases List.mem_cons.1 h with h | h
        · exact .inl h
        · exact .inr h
      · rcases List.mem_cons.1 h with h | h
        · exact .inr (h ▸ List.mem_cons_self ..)
        · exact (ih h).imp id (List.mem_cons_of_mem _)
theorem mwf_mput {V : Type} {m : NMap V} (h : mwf m = true) (a : Nat) (v : V) : mwf (mput m a v) = true := by
  rw [mwf_iff_pairwise] at h ⊢
  induction m with
  | nil => simp [mput]
  | cons x t ih =>
    obtain ⟨k, w⟩ := x
    obtain ⟨h1, h2⟩ := List.pairwise_cons.1 h
    simp only [mput]
    split
    · next e => exact List.pairwise_cons.2 ⟨fun z hz => e ▸ h1 z hz, h2⟩
    · split
      · next e => exact List.pairwise_cons.2 ⟨fun z hz => by
          rcases List.mem_cons.1 hz with rfl | hz
          · exact e
          · exact lt_trans e (h1 z hz), h⟩
      · next e1 e2 =>
        refine List.pairwise_cons.2 ⟨fun z hz => ?_, ih h2⟩
        rcases mem_mput hz with rfl | hz
        · show k < a; omega
        · exact h1 z hz
theorem mwf_mset {V : Type} [DecidableEq V] (d : V) {m : NMap V} (h : mwf m = true) (a : Nat) (v : V) : mwf (mset d m a v) = true := by
  unfold mset
  split
  · exact mwf_mdel h a
  · exact mwf_mput h a v
/-- What mset lists: an entry that is not the default, or an old one. -/
theorem mem_mset {V : Type} [DecidableEq V] {d : V} {m : NMap V} {a : Nat} {v : V} {e : Nat × V} (h : e ∈ mset d m a v) :
    (e = (a, v) ∧ v ≠ d) ∨ e ∈ m := by
  unfold mset at h
  split at h
  · exact .inr (List.mem_of_mem_filter h)
  · next n => exact (mem_mput h).imp (fun x => ⟨x, n⟩) id
/-- A read after a write of the same key. -/
@[simp] theorem mget_mput_self {V : Type} (m : NMap V) (a : Nat) (v : V) : mget (mput m a v) a = some v := by
  induction m with
  | nil => simp [mput, mget]
  | cons x t ih =>
    obtain ⟨k, w⟩ := x
    simp only [mput]
    split
    · simp [mget]
    · split
      · simp [mget]
      · next e _ => simp [mget, e, ih]
/-- A read of another key. -/
theorem mget_mput_ne {V : Type} (m : NMap V) {a b : Nat} (v : V) (h : a ≠ b) : mget (mput m a v) b = mget m b := by
  induction m with
  | nil => simp [mput, mget, h]
  | cons x t ih =>
    obtain ⟨k, w⟩ := x
    simp only [mput]
    split
    · next e => simp [mget, h, e]
    · split
      · simp [mget, h]
      · simp [mget, ih]
theorem mget_mdel_ne {V : Type} (m : NMap V) {a b : Nat} (h : a ≠ b) : mget (mdel m a) b = mget m b := by
  induction m with
  | nil => rfl
  | cons x t ih =>
    obtain ⟨k, w⟩ := x
    simp only [mdel, List.filter_cons] at ih ⊢
    split
    · simp only [mget, ih]
    · next e => simp at e; subst e; simp [mget, h, ih]
@[simp] theorem mget_mdel_self {V : Type} (m : NMap V) (a : Nat) : mget (mdel m a) a = none := by
  induction m with
  | nil => rfl
  | cons x t ih =>
    obtain ⟨k, w⟩ := x
    simp only [mdel, List.filter_cons] at ih ⊢
    split
    · next e => simp at e; simp [mget, e, ih]
    · exact ih
@[simp] theorem mgetD_mset_self {V : Type} [DecidableEq V] (d : V) (m : NMap V) (a : Nat) (v : V) : mgetD d (mset d m a v) a = v := by
  unfold mset mgetD
  split
  · next e => simp [e]
  · simp
theorem mgetD_mset_ne {V : Type} [DecidableEq V] (d e : V) (m : NMap V) {a b : Nat} (v : V) (h : a ≠ b) :
    mgetD e (mset d m a v) b = mgetD e m b := by
  unfold mset mgetD
  split
  · rw [mget_mdel_ne m h]
  · rw [mget_mput_ne m v h]

end Sys2Proof.Machine
end

