-- ==== Sys2Proof/Laws/Keep.lean ====
section
/-! SUPPORT. What every operation keeps: the queue, the canonical memories, the root device key, the bounds of Safety, and the mode but for
the transitions of Table 1-9. -/

set_option Elab.async false

namespace Sys2Proof.Machine

set_option linter.unreachableTactic false
set_option linter.unusedTactic false

/-! A set of parts as a number: part i of Part is bit i. -/

def Part.bit (p : Part) : ℕ := 2 ^ p.ctorIdx
/-- A part of a set of parts of P is a set of parts of P. -/
theorem sub_of {w P : ℕ} (h : w &&& P = w) {v : ℕ} (k : v &&& w = v) : v &&& P = v := by rw [← k, Nat.and_assoc, h]
theorem Part.same_trans {p : Part} {s t u : State} (h : p.same s t) (k : p.same t u) : p.same s u := by
  cases p <;> first | exact Eq.trans k h | exact ⟨k.1.trans h.1, k.2.trans h.2⟩

/-- t comes from s by operations that keep what Safety names, and that change nothing but the parts of the set P. -/
structure Keeps (P : ℕ) (s t : State) : Prop where
  queue : t.pending = s.pending
  mode : ModePath s.mode t.mode
  regs : regsOk s.regs = true → regsOk t.regs = true
  nor : norOk s.img.nor = true → norOk t.img.nor = true
  therm : thermOk s.therm = true → thermOk t.therm = true
  answers : s.mgr.answers.length ≤ 8 → t.mgr.answers.length ≤ 8
  signs : s.spdm.queue.length ≤ 16 → t.spdm.queue.length ≤ 16
  key : ∀ k, s.img.rootKey = some k → t.img.rootKey = some k
  frame : ∀ p : Part, p.bit &&& P ≠ p.bit → p.same s t

theorem Keeps.refl {P : ℕ} (s : State) : Keeps P s s := ⟨rfl, .stay _, id, id, id, id, id, fun _ h => h, fun p _ => by cases p <;> first | rfl | exact ⟨rfl, rfl⟩⟩
theorem ModePath.trans {a b c : Mode} (h : ModePath a b) (k : ModePath b c) : ModePath a c := by
  induction k with
  | stay => exact h
  | move _ e ih => exact .move ih e
theorem Keeps.trans {P : ℕ} {s t u : State} (h : Keeps P s t) (k : Keeps P t u) : Keeps P s u :=
  ⟨k.queue.trans h.queue, h.mode.trans k.mode, k.regs ∘ h.regs, k.nor ∘ h.nor, k.therm ∘ h.therm, k.answers ∘ h.answers, k.signs ∘ h.signs,
    fun x e => k.key x (h.key x e), fun p hb => Part.same_trans (h.frame p hb) (k.frame p hb)⟩
/-- What a further change of the parts of m leaves alone. -/
theorem Keeps.more {P : ℕ} {s0 s t : State} (h : Keeps P s0 s) (m : ℕ)
    (k : ∀ p : Part, p.bit &&& m ≠ p.bit → p.same s t := by intro p hb; cases p <;> first | rfl | exact ⟨rfl, rfl⟩ | exact absurd rfl hb)
    (hm : m &&& P = m) : ∀ p : Part, p.bit &&& P ≠ p.bit → p.same s0 t :=
  fun p hb => Part.same_trans (h.frame p hb) (k p fun e => hb (sub_of hm e))
/-- Sound states stay sound. -/
theorem Keeps.sound {P : ℕ} {s t : State} (h : Keeps P s t) (k : s.Sound) : t.Sound :=
  ⟨h.regs k.regs, h.nor k.nor, h.therm k.therm, h.answers k.answers, h.signs k.signs⟩
/-- A record update of the other fields. -/
theorem mk_keeps {P : ℕ} {s0 b : State} {setNow cyc freeCtr out activeSp spGone roles drained scrim xbar spill sched home log pwr lane onl img pool sec mgr ctr
    jtag wall} (h : Keeps P s0 b) (e1 : img.nor = b.img.nor) (e2 : img.rootKey = b.img.rootKey) (e3 : mgr.answers = b.mgr.answers)
    (hf : (2 &&& P = 2 ∨ setNow = b.setNow) ∧ (4 &&& P = 4 ∨ cyc = b.cyc) ∧ (8 &&& P = 8 ∨ freeCtr = b.freeCtr) ∧ (16 &&& P = 16 ∨ out = b.out) ∧ (32 &&& P = 32 ∨ activeSp = b.activeSp) ∧ (64 &&& P = 64 ∨ spGone = b.spGone) ∧ (128 &&& P = 128 ∨ roles = b.roles) ∧ (256 &&& P = 256 ∨ drained = b.drained) ∧ (512 &&& P = 512 ∨ scrim = b.scrim) ∧ (1024 &&& P = 1024 ∨ xbar = b.xbar) ∧ (2048 &&& P = 2048 ∨ spill = b.spill) ∧ (4096 &&& P = 4096 ∨ sched = b.sched) ∧ (8192 &&& P = 8192 ∨ home = b.home) ∧ (16384 &&& P = 16384 ∨ log = b.log) ∧ (32768 &&& P = 32768 ∨ pwr = b.pwr) ∧ (65536 &&& P = 65536 ∨ lane = b.lane) ∧ (131072 &&& P = 131072 ∨ onl = b.onl) ∧ (262144 &&& P = 262144 ∨ img = b.img) ∧ (524288 &&& P = 524288 ∨ pool = b.pool) ∧ (1048576 &&& P = 1048576 ∨ sec = b.sec) ∧ (2097152 &&& P = 2097152 ∨ mgr = b.mgr) ∧ (4194304 &&& P = 4194304 ∨ ctr = b.ctr) ∧ (16777216 &&& P = 16777216 ∨ jtag = b.jtag) ∧ (67108864 &&& P = 67108864 ∨ wall = b.wall)) :
    Keeps P s0 ⟨b.pending, b.mode, b.regs, setNow, cyc, freeCtr, out, activeSp, spGone, roles, drained, scrim, xbar, spill, sched, home, log, pwr, lane, onl,
      img, pool, sec, mgr, ctr, b.therm, jtag, b.spdm, wall⟩ :=
  ⟨h.queue, h.mode, h.regs, fun x => e1 ▸ h.nor x, h.therm, fun x => e3 ▸ h.answers x, h.signs, fun k e => e2 ▸ h.key k e, fun p hb => by
    obtain ⟨h_setNow, h_cyc, h_freeCtr, h_out, h_activeSp, h_spGone, h_roles, h_drained, h_scrim, h_xbar, h_spill, h_sched, h_home, h_log, h_pwr, h_lane, h_onl, h_img, h_pool, h_sec, h_mgr, h_ctr, h_jtag, h_wall⟩ := hf
    refine Part.same_trans (h.frame p hb) ?_
    cases p
    · rfl
    · exact ⟨rfl, h_setNow.resolve_left hb⟩
    · exact h_cyc.resolve_left hb
    · exact h_freeCtr.resolve_left hb
    · exact h_out.resolve_left hb
    · exact h_activeSp.resolve_left hb
    · exact h_spGone.resolve_left hb
    · exact h_roles.resolve_left hb
    · exact h_drained.resolve_left hb
    · exact h_scrim.resolve_left hb
    · exact h_xbar.resolve_left hb
    · exact h_spill.resolve_left hb
    · exact h_sched.resolve_left hb
    · exact h_home.resolve_left hb
    · exact h_log.resolve_left hb
    · exact h_pwr.resolve_left hb
    · exact h_lane.resolve_left hb
    · exact h_onl.resolve_left hb
    · exact h_img.resolve_left hb
    · exact h_pool.resolve_left hb
    · exact h_sec.resolve_left hb
    · exact h_mgr.resolve_left hb
    · exact h_ctr.resolve_left hb
    · rfl
    · exact h_jtag.resolve_left hb
    · rfl
    · exact h_wall.resolve_left hb⟩
theorem ite_keeps {P : ℕ} {s0 a b : State} {c : Prop} [Decidable c] (h : c → Keeps P s0 a) (k : ¬c → Keeps P s0 b) : Keeps P s0 (if c then a else b) := by
  split
  · exact h ‹_›
  · exact k ‹_›
theorem foldl_keeps {α : Type} {P : ℕ} {s0 s : State} {f : State → α → State} {l : List α} (h : Keeps P s0 s)
    (k : ∀ t x, Keeps P s0 t → Keeps P s0 (f t x)) : Keeps P s0 (l.foldl f s) := by
  induction l generalizing s with
  | nil => exact h
  | cons x l ih => exact ih (k _ _ h)
theorem foldl_snd_keeps {α β : Type} {P : ℕ} {s0 t : State} {b : β} {f : β × State → α → β × State} {l : List α} (h : Keeps P s0 t)
    (k : ∀ b t x, Keeps P s0 t → Keeps P s0 (f (b, t) x).2) : Keeps P s0 (l.foldl f (b, t)).2 := by
  induction l generalizing b t with
  | nil => exact h
  | cons x l ih => exact ih (k b t x h)
theorem foldl_fst_keeps {α β : Type} {P : ℕ} {s0 t : State} {b : β} {f : State × β → α → State × β} {l : List α} (h : Keeps P s0 t)
    (k : ∀ t b x, Keeps P s0 t → Keeps P s0 (f (t, b) x).1) : Keeps P s0 (l.foldl f (t, b)).1 := by
  induction l generalizing b t with
  | nil => exact h
  | cons x l ih => exact ih (k t b x h)
theorem getD_keeps {P : ℕ} {s0 s : State} {o : Option State} (k : ∀ t, o = some t → Keeps P s0 t) (h : Keeps P s0 s) : Keeps P s0 (o.getD s) := by
  cases o with
  | none => exact h
  | some t => exact k t rfl
/-- A store into the register space keeps its canonical form. -/
theorem regsOk_mset {m : NMap Word} (h : regsOk m = true) (a : Nat) (w : Word) : regsOk (mset (regReset a) m a w) = true := by
  simp only [regsOk, Bool.and_eq_true, List.all_eq_true, bne_iff_ne] at h ⊢
  refine ⟨mwf_mset _ h.1 _ _, fun e he => ?_⟩
  rcases mem_mset he with ⟨rfl, hn⟩ | he
  · exact hn
  · exact h.2 e he
theorem regsOk_filter {m : NMap Word} (h : regsOk m = true) (p : Nat × Word → Bool) : regsOk (m.filter p) = true := by
  simp only [regsOk, Bool.and_eq_true, List.all_eq_true, bne_iff_ne] at h ⊢
  exact ⟨mwf_filter _ h.1, fun e he => h.2 e (List.mem_of_mem_filter he)⟩
/-- A write of the boot memory keeps its canonical form. -/
theorem norOk_mset {m : NMap Byte} (h : norOk m = true) (a : Nat) (w : Byte) : norOk (mset 0xFF#8 m a w) = true := by
  simp only [norOk, Bool.and_eq_true, List.all_eq_true, bne_iff_ne] at h ⊢
  refine ⟨mwf_mset _ h.1 _ _, fun e he => ?_⟩
  rcases mem_mset he with ⟨rfl, hn⟩ | he
  · exact hn
  · exact h.2 e he
theorem norOk_filter {m : NMap Byte} (h : norOk m = true) (p : Nat × Byte → Bool) : norOk (m.filter p) = true := by
  simp only [norOk, Bool.and_eq_true, List.all_eq_true, bne_iff_ne] at h ⊢
  exact ⟨mwf_filter _ h.1, fun e he => h.2 e (List.mem_of_mem_filter he)⟩
theorem State.setReg_keeps {P : ℕ} {s0 s : State} (hp : 2 &&& P = 2) (h : Keeps P s0 s) (a : Nat) (w : Word) :
    Keeps P s0 (s.setReg a w) :=
  ⟨h.queue, h.mode, fun x => regsOk_mset (h.regs x) a w, h.nor, h.therm, h.answers, h.signs, h.key, h.more 2 (hm := hp)⟩
theorem State.fresh_keeps_eq {P : ℕ} {s0 s t : State} {n : Nat} (hp : 8 &&& P = 8) (e : s.fresh = (n, t)) (h : Keeps P s0 s) : Keeps P s0 t := by
  simp only [State.fresh, Prod.mk.injEq] at e
  rw [← e.2]
  exact mk_keeps h rfl rfl rfl (by and_intros <;> first | with_reducible exact .inr rfl | exact .inl hp)
theorem State.fresh_keeps {P : ℕ} {s0 s : State} (hp : 8 &&& P = 8) (h : Keeps P s0 s) :
    Keeps P s0 s.fresh.2 := State.fresh_keeps_eq hp rfl h
/-- One transition of Table 1-9. -/
theorem Keeps.toMode {P : ℕ} {s0 s : State} {m : Mode} (h : Keeps P s0 s) (hp : 1 &&& P = 1)
    (e : modeOk s.mode m = true) : Keeps P s0 { s with mode := m } :=
  ⟨h.queue, .move h.mode e, h.regs, h.nor, h.therm, h.answers, h.signs, h.key, h.more 1 (hm := hp)⟩

/-! What stays where a set of parts does not name a part: 134217727 is the set of all parts. -/

theorem Keeps.mode_eq {s t : State} (h : Keeps 134217726 s t) : t.mode = s.mode := h.frame .mode (by decide)
theorem Keeps.regs_eq {s t : State} (h : Keeps 134217725 s t) : t.regs = s.regs := (h.frame .regs (by decide)).1
theorem Keeps.cyc_eq {s t : State} (h : Keeps 134217723 s t) : t.cyc = s.cyc := h.frame .cyc (by decide)
theorem Keeps.freeCtr_eq {s t : State} (h : Keeps 134217719 s t) : t.freeCtr = s.freeCtr := h.frame .freeCtr (by decide)
theorem Keeps.out_eq {s t : State} (h : Keeps 134217711 s t) : t.out = s.out := h.frame .out (by decide)
theorem Keeps.activeSp_eq {s t : State} (h : Keeps 134217695 s t) : t.activeSp = s.activeSp := h.frame .activeSp (by decide)
theorem Keeps.spGone_eq {s t : State} (h : Keeps 134217663 s t) : t.spGone = s.spGone := h.frame .spGone (by decide)
theorem Keeps.roles_eq {s t : State} (h : Keeps 134217599 s t) : t.roles = s.roles := h.frame .roles (by decide)
theorem Keeps.drained_eq {s t : State} (h : Keeps 134217471 s t) : t.drained = s.drained := h.frame .drained (by decide)
theorem Keeps.scrim_eq {s t : State} (h : Keeps 134217215 s t) : t.scrim = s.scrim := h.frame .scrim (by decide)
theorem Keeps.xbar_eq {s t : State} (h : Keeps 134216703 s t) : t.xbar = s.xbar := h.frame .xbar (by decide)
theorem Keeps.spill_eq {s t : State} (h : Keeps 134215679 s t) : t.spill = s.spill := h.frame .spill (by decide)
theorem Keeps.sched_eq {s t : State} (h : Keeps 134213631 s t) : t.sched = s.sched := h.frame .sched (by decide)
theorem Keeps.home_eq {s t : State} (h : Keeps 134209535 s t) : t.home = s.home := h.frame .home (by decide)
theorem Keeps.log_eq {s t : State} (h : Keeps 134201343 s t) : t.log = s.log := h.frame .log (by decide)
theorem Keeps.pwr_eq {s t : State} (h : Keeps 134184959 s t) : t.pwr = s.pwr := h.frame .pwr (by decide)
theorem Keeps.lane_eq {s t : State} (h : Keeps 134152191 s t) : t.lane = s.lane := h.frame .lane (by decide)
theorem Keeps.onl_eq {s t : State} (h : Keeps 134086655 s t) : t.onl = s.onl := h.frame .onl (by decide)
theorem Keeps.img_eq {s t : State} (h : Keeps 133955583 s t) : t.img = s.img := h.frame .img (by decide)
theorem Keeps.pool_eq {s t : State} (h : Keeps 133693439 s t) : t.pool = s.pool := h.frame .pool (by decide)
theorem Keeps.sec_eq {s t : State} (h : Keeps 133169151 s t) : t.sec = s.sec := h.frame .sec (by decide)
theorem Keeps.mgr_eq {s t : State} (h : Keeps 132120575 s t) : t.mgr = s.mgr := h.frame .mgr (by decide)
theorem Keeps.ctr_eq {s t : State} (h : Keeps 130023423 s t) : t.ctr = s.ctr := h.frame .ctr (by decide)
theorem Keeps.therm_eq {s t : State} (h : Keeps 125829119 s t) : t.therm = s.therm := h.frame .therm (by decide)
theorem Keeps.jtag_eq {s t : State} (h : Keeps 117440511 s t) : t.jtag = s.jtag := h.frame .jtag (by decide)
theorem Keeps.spdm_eq {s t : State} (h : Keeps 100663295 s t) : t.spdm = s.spdm := h.frame .spdm (by decide)
theorem Keeps.wall_eq {s t : State} (h : Keeps 67108863 s t) : t.wall = s.wall := h.frame .wall (by decide)

end Sys2Proof.Machine
end

