-- ==== Sys2Proof/Laws/KeepFabric.lean ====
section
/-! SUPPORT. What the operations of the mesh, the crossbar, the gates and Whey keep: one lemma for each function that answers a state. -/

set_option Elab.async false

namespace Sys2Proof.Machine

set_option linter.unreachableTactic false
set_option linter.unusedTactic false

/-! ### Machine/Ops -/

theorem State.wr_keeps {P : ℕ} {s0 s : State} (hp : 2 &&& P = 2) (h : Keeps P s0 s) (a1 : Fld) (a2 : ℕ) : Keeps P s0 (State.wr s a1 a2) := by
  unfold State.wr
  repeat' first
    | with_reducible assumption | exact sub_of hp rfl | exact rfl | with_reducible apply State.setReg_keeps
    | with_reducible apply ite_keeps | with_reducible apply foldl_keeps
    | with_reducible refine getD_keeps (fun _ _ => ?_) ?_ | intro _ | cases ‹(_, _) = (_, _)› | cases ‹some _ = some _›
    | cases ‹none = some _›
    | fail_if_no_progress with_reducible refine mk_keeps ?_ rfl rfl rfl (by and_intros <;> first | exact .inr (by with_reducible rfl) | exact .inl (sub_of hp rfl)) | dsimp only | split
theorem State.wrb_keeps {P : ℕ} {s0 s : State} (hp : 2 &&& P = 2) (h : Keeps P s0 s) (a1 : Fld) (a2 : Bool) : Keeps P s0 (State.wrb s a1 a2) := by
  unfold State.wrb
  repeat' first
    | with_reducible assumption | exact sub_of hp rfl | exact rfl | with_reducible apply State.wr_keeps
    | with_reducible apply ite_keeps | with_reducible apply foldl_keeps
    | with_reducible refine getD_keeps (fun _ _ => ?_) ?_ | intro _ | cases ‹(_, _) = (_, _)› | cases ‹some _ = some _›
    | cases ‹none = some _›
    | fail_if_no_progress with_reducible refine mk_keeps ?_ rfl rfl rfl (by and_intros <;> first | exact .inr (by with_reducible rfl) | exact .inl (sub_of hp rfl)) | dsimp only | split
theorem State.flag_keeps {P : ℕ} {s0 s : State} (hp : 2 &&& P = 2) (h : Keeps P s0 s) (a1 : Fld) : Keeps P s0 (State.flag s a1) := by
  unfold State.flag
  repeat' first
    | with_reducible assumption | exact sub_of hp rfl | exact rfl | with_reducible apply State.wr_keeps
    | with_reducible apply ite_keeps | with_reducible apply foldl_keeps
    | with_reducible refine getD_keeps (fun _ _ => ?_) ?_ | intro _ | cases ‹(_, _) = (_, _)› | cases ‹some _ = some _›
    | cases ‹none = some _›
    | fail_if_no_progress with_reducible refine mk_keeps ?_ rfl rfl rfl (by and_intros <;> first | exact .inr (by with_reducible rfl) | exact .inl (sub_of hp rfl)) | dsimp only | split
theorem State.inc_keeps {P : ℕ} {s0 s : State} (hp : 2 &&& P = 2) (h : Keeps P s0 s) (a1 : Fld) (a2 : optParam ℕ 1) : Keeps P s0 (State.inc s a1 a2) := by
  unfold State.inc
  repeat' first
    | with_reducible assumption | exact sub_of hp rfl | exact rfl | with_reducible apply State.wr_keeps
    | with_reducible apply ite_keeps | with_reducible apply foldl_keeps
    | with_reducible refine getD_keeps (fun _ _ => ?_) ?_ | intro _ | cases ‹(_, _) = (_, _)› | cases ‹some _ = some _›
    | cases ‹none = some _›
    | fail_if_no_progress with_reducible refine mk_keeps ?_ rfl rfl rfl (by and_intros <;> first | exact .inr (by with_reducible rfl) | exact .inl (sub_of hp rfl)) | dsimp only | split
theorem State.sat_keeps {P : ℕ} {s0 s : State} (hp : 2 &&& P = 2) (h : Keeps P s0 s) (a1 : Fld) (a2 : optParam ℕ 1) : Keeps P s0 (State.sat s a1 a2) := by
  unfold State.sat
  repeat' first
    | with_reducible assumption | exact sub_of hp rfl | exact rfl | with_reducible apply State.wr_keeps
    | with_reducible apply ite_keeps | with_reducible apply foldl_keeps
    | with_reducible refine getD_keeps (fun _ _ => ?_) ?_ | intro _ | cases ‹(_, _) = (_, _)› | cases ‹some _ = some _›
    | cases ‹none = some _›
    | fail_if_no_progress with_reducible refine mk_keeps ?_ rfl rfl rfl (by and_intros <;> first | exact .inr (by with_reducible rfl) | exact .inl (sub_of hp rfl)) | dsimp only | split
theorem State.dec_keeps {P : ℕ} {s0 s : State} (hp : 2 &&& P = 2) (h : Keeps P s0 s) (a1 : Fld) (a2 : optParam ℕ 1) : Keeps P s0 (State.dec s a1 a2) := by
  unfold State.dec
  repeat' first
    | with_reducible assumption | exact sub_of hp rfl | exact rfl | with_reducible apply State.wr_keeps
    | with_reducible apply ite_keeps | with_reducible apply foldl_keeps
    | with_reducible refine getD_keeps (fun _ _ => ?_) ?_ | intro _ | cases ‹(_, _) = (_, _)› | cases ‹some _ = some _›
    | cases ‹none = some _›
    | fail_if_no_progress with_reducible refine mk_keeps ?_ rfl rfl rfl (by and_intros <;> first | exact .inr (by with_reducible rfl) | exact .inl (sub_of hp rfl)) | dsimp only | split
theorem State.raise_keeps {P : ℕ} {s0 s : State} (hp : 2 &&& P = 2) (h : Keeps P s0 s) (a1 : Fld) (a2 : ℕ) : Keeps P s0 (State.raise s a1 a2) := by
  unfold State.raise
  repeat' first
    | with_reducible assumption | exact sub_of hp rfl | exact rfl | with_reducible apply State.wr_keeps
    | with_reducible apply ite_keeps | with_reducible apply foldl_keeps
    | with_reducible refine getD_keeps (fun _ _ => ?_) ?_ | intro _ | cases ‹(_, _) = (_, _)› | cases ‹some _ = some _›
    | cases ‹none = some _›
    | fail_if_no_progress with_reducible refine mk_keeps ?_ rfl rfl rfl (by and_intros <;> first | exact .inr (by with_reducible rfl) | exact .inl (sub_of hp rfl)) | dsimp only | split
theorem State.wrBit_keeps {P : ℕ} {s0 s : State} (hp : 2 &&& P = 2) (h : Keeps P s0 s) (a1 : Fld) (a2 : ℕ) (a3 : Bool) : Keeps P s0 (State.wrBit s a1 a2 a3) := by
  unfold State.wrBit
  repeat' first
    | with_reducible assumption | exact sub_of hp rfl | exact rfl | with_reducible apply State.wr_keeps
    | with_reducible apply ite_keeps | with_reducible apply foldl_keeps
    | with_reducible refine getD_keeps (fun _ _ => ?_) ?_ | intro _ | cases ‹(_, _) = (_, _)› | cases ‹some _ = some _›
    | cases ‹none = some _›
    | fail_if_no_progress with_reducible refine mk_keeps ?_ rfl rfl rfl (by and_intros <;> first | exact .inr (by with_reducible rfl) | exact .inl (sub_of hp rfl)) | dsimp only | split
theorem State.emit_keeps {P : ℕ} {s0 s : State} (hp : 16 &&& P = 16) (h : Keeps P s0 s) (a1 : Out) : Keeps P s0 (State.emit s a1) := by
  unfold State.emit
  repeat' first
    | with_reducible assumption | exact sub_of hp rfl | exact rfl | with_reducible apply ite_keeps
    | with_reducible apply foldl_keeps | with_reducible refine getD_keeps (fun _ _ => ?_) ?_ | intro _
    | cases ‹(_, _) = (_, _)› | cases ‹some _ = some _› | cases ‹none = some _›
    | fail_if_no_progress with_reducible refine mk_keeps ?_ rfl rfl rfl (by and_intros <;> first | exact .inr (by with_reducible rfl) | exact .inl (sub_of hp rfl)) | dsimp only | split
theorem State.send_keeps {P : ℕ} {s0 s : State} (hp : 512 &&& P = 512) (h : Keeps P s0 s) (a1 : Pkt) : Keeps P s0 (State.send s a1) := by
  unfold State.send
  repeat' first
    | with_reducible assumption | exact sub_of hp rfl | exact rfl | with_reducible apply ite_keeps
    | with_reducible apply foldl_keeps | with_reducible refine getD_keeps (fun _ _ => ?_) ?_ | intro _
    | cases ‹(_, _) = (_, _)› | cases ‹some _ = some _› | cases ‹none = some _›
    | fail_if_no_progress with_reducible refine mk_keeps ?_ rfl rfl rfl (by and_intros <;> first | exact .inr (by with_reducible rfl) | exact .inl (sub_of hp rfl)) | dsimp only | split
theorem State.sendAll_keeps {P : ℕ} {s0 s : State} (hp : 512 &&& P = 512) (h : Keeps P s0 s) (a1 : List Pkt) : Keeps P s0 (State.sendAll s a1) := by
  unfold State.sendAll
  repeat' first
    | with_reducible assumption | exact sub_of hp rfl | exact rfl | with_reducible apply State.send_keeps
    | with_reducible apply ite_keeps | with_reducible apply foldl_keeps
    | with_reducible refine getD_keeps (fun _ _ => ?_) ?_ | intro _ | cases ‹(_, _) = (_, _)› | cases ‹some _ = some _›
    | cases ‹none = some _›
    | fail_if_no_progress with_reducible refine mk_keeps ?_ rfl rfl rfl (by and_intros <;> first | exact .inr (by with_reducible rfl) | exact .inl (sub_of hp rfl)) | dsimp only | split
theorem State.purgeUnits_keeps {P : ℕ} {s0 s : State} (hp : 512 &&& P = 512) (h : Keeps P s0 s) (a1 : Pkt → Bool) : Keeps P s0 (State.purgeUnits s a1) := by
  unfold State.purgeUnits
  repeat' first
    | with_reducible assumption | exact sub_of hp rfl | exact rfl | with_reducible apply ite_keeps
    | with_reducible apply foldl_keeps | with_reducible refine getD_keeps (fun _ _ => ?_) ?_ | intro _
    | cases ‹(_, _) = (_, _)› | cases ‹some _ = some _› | cases ‹none = some _›
    | fail_if_no_progress with_reducible refine mk_keeps ?_ rfl rfl rfl (by and_intros <;> first | exact .inr (by with_reducible rfl) | exact .inl (sub_of hp rfl)) | dsimp only | split
theorem State.take_keeps {P : ℕ} {s0 s : State} (hp : 512 &&& P = 512) (h : Keeps P s0 s) (a1 : Pkt) : Keeps P s0 (State.take s a1) := by
  unfold State.take
  repeat' first
    | with_reducible assumption | exact sub_of hp rfl | exact rfl | with_reducible apply State.purgeUnits_keeps
    | with_reducible apply ite_keeps | with_reducible apply foldl_keeps
    | with_reducible refine getD_keeps (fun _ _ => ?_) ?_ | intro _ | cases ‹(_, _) = (_, _)› | cases ‹some _ = some _›
    | cases ‹none = some _›
    | fail_if_no_progress with_reducible refine mk_keeps ?_ rfl rfl rfl (by and_intros <;> first | exact .inr (by with_reducible rfl) | exact .inl (sub_of hp rfl)) | dsimp only | split
theorem State.deliver_keeps {P : ℕ} {s0 s : State} (hp : 512 &&& P = 512) (h : Keeps P s0 s) (a1 : Pkt) : Keeps P s0 (State.deliver s a1) := by
  unfold State.deliver
  repeat' first
    | with_reducible assumption | exact sub_of hp rfl | exact rfl | with_reducible apply State.purgeUnits_keeps
    | with_reducible apply ite_keeps | with_reducible apply foldl_keeps
    | with_reducible refine getD_keeps (fun _ _ => ?_) ?_ | intro _ | cases ‹(_, _) = (_, _)› | cases ‹some _ = some _›
    | cases ‹none = some _›
    | fail_if_no_progress with_reducible refine mk_keeps ?_ rfl rfl rfl (by and_intros <;> first | exact .inr (by with_reducible rfl) | exact .inl (sub_of hp rfl)) | dsimp only | split
theorem State.logBump_keeps {P : ℕ} {s0 s : State} (hp : 2 &&& P = 2) (h : Keeps P s0 s) (a1 : ℕ) (a2 : ℕ) : Keeps P s0 (State.logBump s a1 a2) := by
  unfold State.logBump
  repeat' first
    | with_reducible assumption | exact sub_of hp rfl | exact rfl | with_reducible apply State.wr_keeps
    | with_reducible apply State.inc_keeps | with_reducible apply ite_keeps | with_reducible apply foldl_keeps
    | with_reducible refine getD_keeps (fun _ _ => ?_) ?_ | intro _ | cases ‹(_, _) = (_, _)› | cases ‹some _ = some _›
    | cases ‹none = some _›
    | fail_if_no_progress with_reducible refine mk_keeps ?_ rfl rfl rfl (by and_intros <;> first | exact .inr (by with_reducible rfl) | exact .inl (sub_of hp rfl)) | dsimp only | split
theorem State.writeFault_keeps {P : ℕ} {s0 s : State} (hp : 16386 &&& P = 16386) (h : Keeps P s0 s) (a1 : FaultRec) : Keeps P s0 (State.writeFault s a1) := by
  unfold State.writeFault
  repeat' first
    | with_reducible assumption | exact sub_of hp rfl | exact rfl | with_reducible apply State.logBump_keeps
    | with_reducible apply ite_keeps | with_reducible apply foldl_keeps
    | with_reducible refine getD_keeps (fun _ _ => ?_) ?_ | intro _ | cases ‹(_, _) = (_, _)› | cases ‹some _ = some _›
    | cases ‹none = some _›
    | fail_if_no_progress with_reducible refine mk_keeps ?_ rfl rfl rfl (by and_intros <;> first | exact .inr (by with_reducible rfl) | exact .inl (sub_of hp rfl)) | dsimp only | split
theorem State.logFaultRec_keeps {P : ℕ} {s0 s : State} (hp : 16386 &&& P = 16386) (h : Keeps P s0 s) (a1 : FaultRec) : Keeps P s0 (State.logFaultRec s a1) := by
  unfold State.logFaultRec
  repeat' first
    | with_reducible assumption | exact sub_of hp rfl | exact rfl | with_reducible apply State.writeFault_keeps
    | with_reducible apply State.sat_keeps | with_reducible apply ite_keeps | with_reducible apply foldl_keeps
    | with_reducible refine getD_keeps (fun _ _ => ?_) ?_ | intro _ | cases ‹(_, _) = (_, _)› | cases ‹some _ = some _›
    | cases ‹none = some _›
    | fail_if_no_progress with_reducible refine mk_keeps ?_ rfl rfl rfl (by and_intros <;> first | exact .inr (by with_reducible rfl) | exact .inl (sub_of hp rfl)) | dsimp only | split
theorem State.sendHeldFaults_keeps {P : ℕ} {s0 s : State} (hp : 16386 &&& P = 16386) (h : Keeps P s0 s) : Keeps P s0 (State.sendHeldFaults s) := by
  unfold State.sendHeldFaults
  repeat' first
    | with_reducible assumption | exact sub_of hp rfl | exact rfl | with_reducible apply State.writeFault_keeps
    | with_reducible apply ite_keeps | with_reducible apply foldl_keeps
    | with_reducible refine getD_keeps (fun _ _ => ?_) ?_ | intro _ | cases ‹(_, _) = (_, _)› | cases ‹some _ = some _›
    | cases ‹none = some _›
    | fail_if_no_progress with_reducible refine mk_keeps ?_ rfl rfl rfl (by and_intros <;> first | exact .inr (by with_reducible rfl) | exact .inl (sub_of hp rfl)) | dsimp only | split
theorem State.logFault_keeps {P : ℕ} {s0 s : State} (hp : 16386 &&& P = 16386) (h : Keeps P s0 s) (a1 : ℕ) (a2 : Option Cell) (a3 : ℕ) (a4 : ℕ) (a5 : ℕ) (a6 : ℕ) (a7 : Bool) (a8 : optParam (Option Mode) none) (a9 : optParam Bool false) (a10 : optParam Bool false) : Keeps P s0 (State.logFault s a1 a2 a3 a4 a5 a6 a7 a8 a9 a10) := by
  unfold State.logFault
  repeat' first
    | with_reducible assumption | exact sub_of hp rfl | exact rfl | with_reducible apply State.logFaultRec_keeps
    | with_reducible apply State.wr_keeps | with_reducible apply State.sat_keeps | with_reducible apply ite_keeps
    | with_reducible apply foldl_keeps | with_reducible refine getD_keeps (fun _ _ => ?_) ?_ | intro _
    | cases ‹(_, _) = (_, _)› | cases ‹some _ = some _› | cases ‹none = some _›
    | fail_if_no_progress with_reducible refine mk_keeps ?_ rfl rfl rfl (by and_intros <;> first | exact .inr (by with_reducible rfl) | exact .inl (sub_of hp rfl)) | dsimp only | split
theorem State.logYield_keeps {P : ℕ} {s0 s : State} (hp : 16386 &&& P = 16386) (h : Keeps P s0 s) (a1 : ℕ) (a2 : ℕ) (a3 : Option Cell) (a4 : ℕ) (a5 : ℕ) (a6 : ℕ) : Keeps P s0 (State.logYield s a1 a2 a3 a4 a5 a6) := by
  unfold State.logYield
  repeat' first
    | with_reducible assumption | exact sub_of hp rfl | exact rfl | with_reducible apply State.logFaultRec_keeps
    | with_reducible apply ite_keeps | with_reducible apply foldl_keeps
    | with_reducible refine getD_keeps (fun _ _ => ?_) ?_ | intro _ | cases ‹(_, _) = (_, _)› | cases ‹some _ = some _›
    | cases ‹none = some _›
    | fail_if_no_progress with_reducible refine mk_keeps ?_ rfl rfl rfl (by and_intros <;> first | exact .inr (by with_reducible rfl) | exact .inl (sub_of hp rfl)) | dsimp only | split
theorem State.logStep_keeps {P : ℕ} {s0 s : State} (hp : 16386 &&& P = 16386) (h : Keeps P s0 s) (a1 : ℕ) : Keeps P s0 (State.logStep s a1) := by
  unfold State.logStep
  repeat' first
    | with_reducible assumption | exact sub_of hp rfl | exact rfl | with_reducible apply State.logFaultRec_keeps
    | with_reducible apply State.wr_keeps | with_reducible apply ite_keeps | with_reducible apply foldl_keeps
    | with_reducible refine getD_keeps (fun _ _ => ?_) ?_ | intro _ | cases ‹(_, _) = (_, _)› | cases ‹some _ = some _›
    | cases ‹none = some _›
    | fail_if_no_progress with_reducible refine mk_keeps ?_ rfl rfl rfl (by and_intros <;> first | exact .inr (by with_reducible rfl) | exact .inl (sub_of hp rfl)) | dsimp only | split
theorem State.logCommit_keeps {P : ℕ} {s0 s : State} (hp : 16386 &&& P = 16386) (h : Keeps P s0 s) (a1 : ℕ) (a2 : ℕ) (a3 : ℕ) (a4 : Option Cell) (a5 : ℕ) (a6 : ℕ) (a7 : ℕ) : Keeps P s0 (State.logCommit s a1 a2 a3 a4 a5 a6 a7) := by
  unfold State.logCommit
  repeat' first
    | with_reducible assumption | exact sub_of hp rfl | exact rfl | with_reducible apply State.sat_keeps
    | with_reducible apply State.logBump_keeps | with_reducible apply ite_keeps | with_reducible apply foldl_keeps
    | with_reducible refine getD_keeps (fun _ _ => ?_) ?_ | intro _ | cases ‹(_, _) = (_, _)› | cases ‹some _ = some _›
    | cases ‹none = some _›
    | fail_if_no_progress with_reducible refine mk_keeps ?_ rfl rfl rfl (by and_intros <;> first | exact .inr (by with_reducible rfl) | exact .inl (sub_of hp rfl)) | dsimp only | split
theorem State.logAudit_keeps {P : ℕ} {s0 s : State} (hp : 16386 &&& P = 16386) (h : Keeps P s0 s) (a1 : ℕ) (a2 : ℕ) (a3 : ℕ) (a4 : ℕ) (a5 : ℕ) : Keeps P s0 (State.logAudit s a1 a2 a3 a4 a5) := by
  unfold State.logAudit
  repeat' first
    | with_reducible assumption | exact sub_of hp rfl | exact rfl | with_reducible apply State.logBump_keeps
    | with_reducible apply ite_keeps | with_reducible apply foldl_keeps
    | with_reducible refine getD_keeps (fun _ _ => ?_) ?_ | intro _ | cases ‹(_, _) = (_, _)› | cases ‹some _ = some _›
    | cases ‹none = some _›
    | fail_if_no_progress with_reducible refine mk_keeps ?_ rfl rfl rfl (by and_intros <;> first | exact .inr (by with_reducible rfl) | exact .inl (sub_of hp rfl)) | dsimp only | split
theorem State.setDomain_keeps {P : ℕ} {s0 s : State} (hp : 32770 &&& P = 32770) (h : Keeps P s0 s) (a1 : ℕ) (a2 : ℕ) : Keeps P s0 (State.setDomain s a1 a2) := by
  unfold State.setDomain
  repeat' first
    | with_reducible assumption | exact sub_of hp rfl | exact rfl | with_reducible apply State.wr_keeps
    | with_reducible apply ite_keeps | with_reducible apply foldl_keeps
    | with_reducible refine getD_keeps (fun _ _ => ?_) ?_ | intro _ | cases ‹(_, _) = (_, _)› | cases ‹some _ = some _›
    | cases ‹none = some _›
    | fail_if_no_progress with_reducible refine mk_keeps ?_ rfl rfl rfl (by and_intros <;> first | exact .inr (by with_reducible rfl) | exact .inl (sub_of hp rfl)) | dsimp only | split
theorem State.pllStart_keeps {P : ℕ} {s0 s : State} (hp : 32770 &&& P = 32770) (h : Keeps P s0 s) (a1 : ℕ) : Keeps P s0 (State.pllStart s a1) := by
  unfold State.pllStart
  repeat' first
    | with_reducible assumption | exact sub_of hp rfl | exact rfl | with_reducible apply State.wr_keeps
    | with_reducible apply ite_keeps | with_reducible apply foldl_keeps
    | with_reducible refine getD_keeps (fun _ _ => ?_) ?_ | intro _ | cases ‹(_, _) = (_, _)› | cases ‹some _ = some _›
    | cases ‹none = some _›
    | fail_if_no_progress with_reducible refine mk_keeps ?_ rfl rfl rfl (by and_intros <;> first | exact .inr (by with_reducible rfl) | exact .inl (sub_of hp rfl)) | dsimp only | split
theorem State.setDomains_keeps {P : ℕ} {s0 s : State} (hp : 32770 &&& P = 32770) (h : Keeps P s0 s) : Keeps P s0 (State.setDomains s) := by
  unfold State.setDomains
  repeat' first
    | with_reducible assumption | exact sub_of hp rfl | exact rfl | with_reducible apply State.setDomain_keeps
    | with_reducible apply ite_keeps | with_reducible apply foldl_keeps
    | with_reducible refine getD_keeps (fun _ _ => ?_) ?_ | intro _ | cases ‹(_, _) = (_, _)› | cases ‹some _ = some _›
    | cases ‹none = some _›
    | fail_if_no_progress with_reducible refine mk_keeps ?_ rfl rfl rfl (by and_intros <;> first | exact .inr (by with_reducible rfl) | exact .inl (sub_of hp rfl)) | dsimp only | split
theorem State.wakeCell_keeps {P : ℕ} {s0 s : State} (hp : 32770 &&& P = 32770) (h : Keeps P s0 s) (a1 : Cell) : Keeps P s0 (State.wakeCell s a1) := by
  unfold State.wakeCell
  repeat' first
    | with_reducible assumption | exact sub_of hp rfl | exact rfl | with_reducible apply State.setDomain_keeps
    | with_reducible apply ite_keeps | with_reducible apply foldl_keeps
    | with_reducible refine getD_keeps (fun _ _ => ?_) ?_ | intro _ | cases ‹(_, _) = (_, _)› | cases ‹some _ = some _›
    | cases ‹none = some _›
    | fail_if_no_progress with_reducible refine mk_keeps ?_ rfl rfl rfl (by and_intros <;> first | exact .inr (by with_reducible rfl) | exact .inl (sub_of hp rfl)) | dsimp only | split
theorem State.sideWakes_keeps {P : ℕ} {s0 s : State} (hp : 514 &&& P = 514) (h : Keeps P s0 s) (a1 : ℕ) (a2 : ℕ) : Keeps P s0 (State.sideWakes s a1 a2) := by
  unfold State.sideWakes
  repeat' first
    | with_reducible assumption | exact sub_of hp rfl | exact rfl | with_reducible apply State.wr_keeps
    | with_reducible apply State.sat_keeps | with_reducible apply ite_keeps | with_reducible apply foldl_keeps
    | with_reducible refine getD_keeps (fun _ _ => ?_) ?_ | intro _ | cases ‹(_, _) = (_, _)› | cases ‹some _ = some _›
    | cases ‹none = some _›
    | fail_if_no_progress with_reducible refine mk_keeps ?_ rfl rfl rfl (by and_intros <;> first | exact .inr (by with_reducible rfl) | exact .inl (sub_of hp rfl)) | dsimp only | split
theorem State.edgeWakes_keeps {P : ℕ} {s0 s : State} (hp : 514 &&& P = 514) (h : Keeps P s0 s) (a1 : ℕ) (a2 : ℕ) : Keeps P s0 (State.edgeWakes s a1 a2) := by
  unfold State.edgeWakes
  repeat' first
    | with_reducible assumption | exact sub_of hp rfl | exact rfl | with_reducible apply State.sideWakes_keeps
    | with_reducible apply ite_keeps | with_reducible apply foldl_keeps
    | with_reducible refine getD_keeps (fun _ _ => ?_) ?_ | intro _ | cases ‹(_, _) = (_, _)› | cases ‹some _ = some _›
    | cases ‹none = some _›
    | fail_if_no_progress with_reducible refine mk_keeps ?_ rfl rfl rfl (by and_intros <;> first | exact .inr (by with_reducible rfl) | exact .inl (sub_of hp rfl)) | dsimp only | split
theorem State.modeDomains_keeps {P : ℕ} {s0 s : State} (hp : 33282 &&& P = 33282) (h : Keeps P s0 s) (a1 : Mode) : Keeps P s0 (State.modeDomains s a1) := by
  unfold State.modeDomains
  repeat' first
    | with_reducible assumption | exact sub_of hp rfl | exact rfl | with_reducible apply State.edgeWakes_keeps
    | with_reducible apply State.wakeCell_keeps | with_reducible apply State.setDomains_keeps
    | with_reducible apply State.pllStart_keeps | with_reducible apply ite_keeps | with_reducible apply foldl_keeps
    | with_reducible refine getD_keeps (fun _ _ => ?_) ?_ | intro _ | cases ‹(_, _) = (_, _)› | cases ‹some _ = some _›
    | cases ‹none = some _›
    | fail_if_no_progress with_reducible refine mk_keeps ?_ rfl rfl rfl (by and_intros <;> first | exact .inr (by with_reducible rfl) | exact .inl (sub_of hp rfl)) | dsimp only | split
theorem State.ctrSignal_keeps {P : ℕ} {s0 s : State} (hp : 4194304 &&& P = 4194304) (h : Keeps P s0 s) (a1 : ℕ) (a2 : ℕ) : Keeps P s0 (State.ctrSignal s a1 a2) := by
  unfold State.ctrSignal
  repeat' first
    | with_reducible assumption | exact sub_of hp rfl | exact rfl | with_reducible apply ite_keeps
    | with_reducible apply foldl_keeps | with_reducible refine getD_keeps (fun _ _ => ?_) ?_ | intro _
    | cases ‹(_, _) = (_, _)› | cases ‹some _ = some _› | cases ‹none = some _›
    | fail_if_no_progress with_reducible refine mk_keeps ?_ rfl rfl rfl (by and_intros <;> first | exact .inr (by with_reducible rfl) | exact .inl (sub_of hp rfl)) | dsimp only | split
theorem State.ctrAdd_keeps {P : ℕ} {s0 s : State} (hp : 4194306 &&& P = 4194306) (h : Keeps P s0 s) (a1 : ℕ) (a2 : ℕ) (a3 : ℕ) : Keeps P s0 (State.ctrAdd s a1 a2 a3) := by
  unfold State.ctrAdd
  repeat' first
    | with_reducible assumption | exact sub_of hp rfl | exact rfl | with_reducible apply State.ctrSignal_keeps
    | with_reducible apply State.wr_keeps | with_reducible apply State.flag_keeps | with_reducible apply ite_keeps
    | with_reducible apply foldl_keeps | with_reducible refine getD_keeps (fun _ _ => ?_) ?_ | intro _
    | cases ‹(_, _) = (_, _)› | cases ‹some _ = some _› | cases ‹none = some _›
    | fail_if_no_progress with_reducible refine mk_keeps ?_ rfl rfl rfl (by and_intros <;> first | exact .inr (by with_reducible rfl) | exact .inl (sub_of hp rfl)) | dsimp only | split
theorem State.ctrEvent_keeps {P : ℕ} {s0 s : State} (hp : 4194306 &&& P = 4194306) (h : Keeps P s0 s) (a1 : ℕ) (a2 : ℕ) (a3 : List ℕ) (a4 : optParam ℕ 1) (a5 : optParam Bool false) (a6 : optParam (Option ℕ) none) : Keeps P s0 (State.ctrEvent s a1 a2 a3 a4 a5 a6) := by
  unfold State.ctrEvent
  repeat' first
    | with_reducible assumption | exact sub_of hp rfl | exact rfl | with_reducible apply State.ctrAdd_keeps
    | with_reducible apply ite_keeps | with_reducible apply foldl_keeps
    | with_reducible refine getD_keeps (fun _ _ => ?_) ?_ | intro _ | cases ‹(_, _) = (_, _)› | cases ‹some _ = some _›
    | cases ‹none = some _›
    | fail_if_no_progress with_reducible refine mk_keeps ?_ rfl rfl rfl (by and_intros <;> first | exact .inr (by with_reducible rfl) | exact .inl (sub_of hp rfl)) | dsimp only | split
theorem State.lateDiscard_keeps {P : ℕ} {s0 s : State} (hp : 4194306 &&& P = 4194306) (h : Keeps P s0 s) (a1 : ℕ) : Keeps P s0 (s.lateDiscard a1) :=
  State.ctrEvent_keeps (sub_of hp rfl) (State.inc_keeps (sub_of hp rfl) h _ _) _ _ _ _ _ _

/-! ### Machine/Mode -/

theorem State.svnJudge_keeps {P : ℕ} {s0 s : State} (hp : 16386 &&& P = 16386) (h : Keeps P s0 s) : Keeps P s0 (State.svnJudge s) := by
  unfold State.svnJudge
  repeat' first
    | with_reducible assumption | exact sub_of hp rfl | exact rfl | with_reducible apply State.logAudit_keeps
    | with_reducible apply State.wr_keeps | with_reducible apply ite_keeps | with_reducible apply foldl_keeps
    | with_reducible refine getD_keeps (fun _ _ => ?_) ?_ | intro _ | cases ‹(_, _) = (_, _)› | cases ‹some _ = some _›
    | cases ‹none = some _›
    | fail_if_no_progress with_reducible refine mk_keeps ?_ rfl rfl rfl (by and_intros <;> first | exact .inr (by with_reducible rfl) | exact .inl (sub_of hp rfl)) | dsimp only | split
theorem State.goMode_keeps {P : ℕ} {s0 s : State} (hp : 49667 &&& P = 49667) (h : Keeps P s0 s) (a1 : Mode) (a2 : ℕ) : Keeps P s0 (State.goMode s a1 a2) := by
  unfold State.goMode
  refine ite_keeps (fun e => State.svnJudge_keeps (sub_of hp rfl) (State.modeDomains_keeps (sub_of hp rfl) ?_ _)) (fun _ => h)
  exact Keeps.toMode (State.sat_keeps (sub_of hp rfl) (State.wr_keeps (sub_of hp rfl) (State.wr_keeps (sub_of hp rfl) h _ _) _ _) _ _) (sub_of hp rfl) e

/-! ### Machine/MgrOps -/

theorem State.logAccess_keeps {P : ℕ} {s0 s : State} (hp : 16386 &&& P = 16386) (h : Keeps P s0 s) (a1 : Src) (a2 : ℕ) (a3 : ℕ) (a4 : ℕ) : Keeps P s0 (State.logAccess s a1 a2 a3 a4) := by
  unfold State.logAccess
  repeat' first
    | with_reducible assumption | exact sub_of hp rfl | exact rfl | with_reducible apply State.inc_keeps
    | with_reducible apply State.sat_keeps | with_reducible apply State.logBump_keeps | with_reducible apply ite_keeps
    | with_reducible apply foldl_keeps | with_reducible refine getD_keeps (fun _ _ => ?_) ?_ | intro _
    | cases ‹(_, _) = (_, _)› | cases ‹some _ = some _› | cases ‹none = some _›
    | fail_if_no_progress with_reducible refine mk_keeps ?_ rfl rfl rfl (by and_intros <;> first | exact .inr (by with_reducible rfl) | exact .inl (sub_of hp rfl)) | dsimp only | split
theorem State.lockedHit_keeps {P : ℕ} {s0 s : State} (hp : 16386 &&& P = 16386) (h : Keeps P s0 s) (a1 : Src) (a2 : ℕ) (a3 : Bool) : Keeps P s0 (State.lockedHit s a1 a2 a3) := by
  unfold State.lockedHit
  repeat' first
    | with_reducible assumption | exact sub_of hp rfl | exact rfl | with_reducible apply State.logAudit_keeps
    | with_reducible apply State.sat_keeps | with_reducible apply ite_keeps | with_reducible apply foldl_keeps
    | with_reducible refine getD_keeps (fun _ _ => ?_) ?_ | intro _ | cases ‹(_, _) = (_, _)› | cases ‹some _ = some _›
    | cases ‹none = some _›
    | fail_if_no_progress with_reducible refine mk_keeps ?_ rfl rfl rfl (by and_intros <;> first | exact .inr (by with_reducible rfl) | exact .inl (sub_of hp rfl)) | dsimp only | split
theorem State.jtagRefused_keeps {P : ℕ} {s0 s : State} (hp : 16386 &&& P = 16386) (h : Keeps P s0 s) (a1 : ℕ) (a2 : Bool) : Keeps P s0 (State.jtagRefused s a1 a2) := by
  unfold State.jtagRefused
  repeat' first
    | with_reducible assumption | exact sub_of hp rfl | exact rfl | with_reducible apply State.lockedHit_keeps
    | with_reducible apply ite_keeps | with_reducible apply foldl_keeps
    | with_reducible refine getD_keeps (fun _ _ => ?_) ?_ | intro _ | cases ‹(_, _) = (_, _)› | cases ‹some _ = some _›
    | cases ‹none = some _›
    | fail_if_no_progress with_reducible refine mk_keeps ?_ rfl rfl rfl (by and_intros <;> first | exact .inr (by with_reducible rfl) | exact .inl (sub_of hp rfl)) | dsimp only | split
theorem State.mayWrite_keeps_eq {P : ℕ} {s0 s t : State} (hp : 16386 &&& P = 16386) {a1 : Src} {a2 : Fld} {a3 : ℕ} {r} (e : State.mayWrite s a1 a2 a3 = (r, t)) (h : Keeps P s0 s) : Keeps P s0 t := by
  unfold State.mayWrite at e
  repeat' first
    | split at e | with_reducible assumption | exact sub_of hp rfl | exact rfl
    | with_reducible apply State.jtagRefused_keeps | with_reducible apply State.logAccess_keeps
    | with_reducible apply ite_keeps | with_reducible apply foldl_keeps
    | with_reducible refine getD_keeps (fun _ _ => ?_) ?_ | intro _ | cases ‹(_, _) = (_, _)› | cases ‹some _ = some _›
    | cases ‹none = some _›
    | fail_if_no_progress with_reducible refine mk_keeps ?_ rfl rfl rfl (by and_intros <;> first | exact .inr (by with_reducible rfl) | exact .inl (sub_of hp rfl)) | dsimp only | dsimp only at e | split
theorem State.mayWrite_keeps {P : ℕ} {s0 s : State} (hp : 16386 &&& P = 16386) (h : Keeps P s0 s) (a1 : Src) (a2 : Fld) (a3 : ℕ) : Keeps P s0 (State.mayWrite s a1 a2 a3).2 :=
  State.mayWrite_keeps_eq hp (Prod.mk.eta (p := State.mayWrite s a1 a2 a3)).symm h
theorem State.ifMay_keeps {P : ℕ} {s0 s : State} (hp : 16386 &&& P = 16386) (h : Keeps P s0 s) (a1 : Src) (a2 : Fld) (a3 : ℕ) (a4 : State → State) (hk : ∀ t, Keeps P s0 t → Keeps P s0 (a4 t)) : Keeps P s0 (State.ifMay s a1 a2 a3 a4) := by
  unfold State.ifMay
  repeat' first
    | with_reducible assumption | exact sub_of hp rfl | exact rfl | apply hk
    | refine State.mayWrite_keeps_eq (sub_of hp rfl) (by assumption) ?_ | with_reducible apply State.mayWrite_keeps
    | with_reducible apply ite_keeps | with_reducible apply foldl_keeps
    | with_reducible refine foldl_snd_keeps ?_ (fun _ _ _ _ => ?_) | with_reducible refine getD_keeps (fun _ _ => ?_) ?_
    | intro _ | cases ‹(_, _) = (_, _)› | cases ‹some _ = some _› | cases ‹none = some _›
    | fail_if_no_progress with_reducible refine mk_keeps ?_ rfl rfl rfl (by and_intros <;> first | exact .inr (by with_reducible rfl) | exact .inl (sub_of hp rfl)) | dsimp only | split
theorem State.grantLease_keeps {P : ℕ} {s0 s : State} (hp : 2097152 &&& P = 2097152) (h : Keeps P s0 s) (a1 : Src) (a2 : ℕ) : Keeps P s0 (State.grantLease s a1 a2) := by
  unfold State.grantLease
  repeat' first
    | with_reducible assumption | exact sub_of hp rfl | exact rfl | with_reducible apply ite_keeps
    | with_reducible apply foldl_keeps | with_reducible refine getD_keeps (fun _ _ => ?_) ?_ | intro _
    | cases ‹(_, _) = (_, _)› | cases ‹some _ = some _› | cases ‹none = some _›
    | fail_if_no_progress with_reducible refine mk_keeps ?_ rfl rfl rfl (by and_intros <;> first | exact .inr (by with_reducible rfl) | exact .inl (sub_of hp rfl)) | dsimp only | split
theorem State.emptyClose_keeps {P : ℕ} {s0 s : State} (hp : 2097152 &&& P = 2097152) (h : Keeps P s0 s) : Keeps P s0 (State.emptyClose s) := by
  unfold State.emptyClose
  repeat' first
    | with_reducible assumption | exact sub_of hp rfl | exact rfl | with_reducible apply ite_keeps
    | with_reducible apply foldl_keeps | with_reducible refine getD_keeps (fun _ _ => ?_) ?_ | intro _
    | cases ‹(_, _) = (_, _)› | cases ‹some _ = some _› | cases ‹none = some _›
    | fail_if_no_progress with_reducible refine mk_keeps ?_ rfl rfl rfl (by and_intros <;> first | exact .inr (by with_reducible rfl) | exact .inl (sub_of hp rfl)) | dsimp only | split
theorem State.dropShadows_keeps {P : ℕ} {s0 s : State} (hp : 2113538 &&& P = 2113538) (h : Keeps P s0 s) (a1 : ℕ) (a2 : ℕ) : Keeps P s0 (State.dropShadows s a1 a2) := by
  unfold State.dropShadows
  repeat' first
    | with_reducible assumption | exact sub_of hp rfl | exact rfl | with_reducible apply State.logCommit_keeps
    | with_reducible apply State.wr_keeps | with_reducible apply ite_keeps | with_reducible apply foldl_keeps
    | with_reducible refine getD_keeps (fun _ _ => ?_) ?_ | intro _ | cases ‹(_, _) = (_, _)› | cases ‹some _ = some _›
    | cases ‹none = some _›
    | fail_if_no_progress with_reducible refine mk_keeps ?_ rfl rfl rfl (by and_intros <;> first | exact .inr (by with_reducible rfl) | exact .inl (sub_of hp rfl)) | dsimp only | split
theorem State.endTest_keeps {P : ℕ} {s0 s : State} (hp : 98306 &&& P = 98306) (h : Keeps P s0 s) (a1 : Cell) : Keeps P s0 (State.endTest s a1) := by
  unfold State.endTest
  repeat' first
    | with_reducible assumption | exact sub_of hp rfl | exact rfl | with_reducible apply State.setReg_keeps
    | with_reducible apply State.setDomains_keeps | with_reducible apply State.wr_keeps | with_reducible apply ite_keeps
    | with_reducible apply foldl_keeps | with_reducible refine getD_keeps (fun _ _ => ?_) ?_ | intro _
    | cases ‹(_, _) = (_, _)› | cases ‹some _ = some _› | cases ‹none = some _›
    | fail_if_no_progress with_reducible refine mk_keeps ?_ rfl rfl rfl (by and_intros <;> first | exact .inr (by with_reducible rfl) | exact .inl (sub_of hp rfl)) | dsimp only | split
theorem State.leaveMaint_keeps {P : ℕ} {s0 s : State} (hp : 622594 &&& P = 622594) (h : Keeps P s0 s) : Keeps P s0 (State.leaveMaint s) := by
  unfold State.leaveMaint
  repeat' first
    | with_reducible assumption | exact sub_of hp rfl | exact rfl | with_reducible apply State.endTest_keeps
    | with_reducible apply ite_keeps | with_reducible apply foldl_keeps
    | with_reducible refine getD_keeps (fun _ _ => ?_) ?_ | intro _ | cases ‹(_, _) = (_, _)› | cases ‹some _ = some _›
    | cases ‹none = some _›
    | fail_if_no_progress with_reducible refine mk_keeps ?_ rfl rfl rfl (by and_intros <;> first | exact .inr (by with_reducible rfl) | exact .inl (sub_of hp rfl)) | dsimp only | split
theorem State.loseLease_keeps {P : ℕ} {s0 s : State} (hp : 2736643 &&& P = 2736643) (h : Keeps P s0 s) : Keeps P s0 (State.loseLease s) := by
  unfold State.loseLease
  repeat' first
    | with_reducible assumption | exact sub_of hp rfl | exact rfl | with_reducible apply State.goMode_keeps
    | with_reducible apply State.emptyClose_keeps | with_reducible apply State.dropShadows_keeps
    | with_reducible apply State.sat_keeps | with_reducible apply State.leaveMaint_keeps | with_reducible apply ite_keeps
    | with_reducible apply foldl_keeps | with_reducible refine getD_keeps (fun _ _ => ?_) ?_ | intro _
    | cases ‹(_, _) = (_, _)› | cases ‹some _ = some _› | cases ‹none = some _›
    | fail_if_no_progress with_reducible refine mk_keeps ?_ rfl rfl rfl (by and_intros <;> first | exact .inr (by with_reducible rfl) | exact .inl (sub_of hp rfl)) | dsimp only | split

/-! ### Machine/ProtOps -/

theorem State.setRegion_keeps {P : ℕ} {s0 s : State} (hp : 1048578 &&& P = 1048578) (h : Keeps P s0 s) (a1 : ℕ) (a2 : ℕ) (a3 : Option Region) : Keeps P s0 (State.setRegion s a1 a2 a3) := by
  unfold State.setRegion
  repeat' first
    | with_reducible assumption | exact sub_of hp rfl | exact rfl | with_reducible apply State.setReg_keeps
    | with_reducible apply State.wr_keeps | with_reducible apply ite_keeps | with_reducible apply foldl_keeps
    | with_reducible refine getD_keeps (fun _ _ => ?_) ?_ | intro _ | cases ‹(_, _) = (_, _)› | cases ‹some _ = some _›
    | cases ‹none = some _›
    | fail_if_no_progress with_reducible refine mk_keeps ?_ rfl rfl rfl (by and_intros <;> first | exact .inr (by with_reducible rfl) | exact .inl (sub_of hp rfl)) | dsimp only | split
theorem State.keepWords_keeps {P : ℕ} {s0 s : State} (hp : 2 &&& P = 2) (h : Keeps P s0 s) (a1 : ℕ) (a2 : ℕ) : Keeps P s0 (State.keepWords s a1 a2) := by
  unfold State.keepWords
  repeat' first
    | with_reducible assumption | exact sub_of hp rfl | exact rfl | with_reducible apply State.setReg_keeps
    | with_reducible apply ite_keeps | with_reducible apply foldl_keeps
    | with_reducible refine getD_keeps (fun _ _ => ?_) ?_ | intro _ | cases ‹(_, _) = (_, _)› | cases ‹some _ = some _›
    | cases ‹none = some _›
    | fail_if_no_progress with_reducible refine mk_keeps ?_ rfl rfl rfl (by and_intros <;> first | exact .inr (by with_reducible rfl) | exact .inl (sub_of hp rfl)) | dsimp only | split
theorem State.setOwner_keeps {P : ℕ} {s0 s : State} (hp : 524288 &&& P = 524288) (h : Keeps P s0 s) (a1 : ℕ) (a2 : Owner) : Keeps P s0 (State.setOwner s a1 a2) := by
  unfold State.setOwner
  repeat' first
    | with_reducible assumption | exact sub_of hp rfl | exact rfl | with_reducible apply ite_keeps
    | with_reducible apply foldl_keeps | with_reducible refine getD_keeps (fun _ _ => ?_) ?_ | intro _
    | cases ‹(_, _) = (_, _)› | cases ‹some _ = some _› | cases ‹none = some _›
    | fail_if_no_progress with_reducible refine mk_keeps ?_ rfl rfl rfl (by and_intros <;> first | exact .inr (by with_reducible rfl) | exact .inl (sub_of hp rfl)) | dsimp only | split
theorem State.violate_keeps {P : ℕ} {s0 s : State} (hp : 1064962 &&& P = 1064962) (h : Keeps P s0 s) (a1 : Cell) (a2 : ViolRec) : Keeps P s0 (State.violate s a1 a2) := by
  unfold State.violate
  repeat' first
    | with_reducible assumption | exact sub_of hp rfl | exact rfl | with_reducible apply State.logYield_keeps
    | with_reducible apply State.wr_keeps | with_reducible apply State.inc_keeps | with_reducible apply State.sat_keeps
    | with_reducible apply State.logBump_keeps | with_reducible apply ite_keeps | with_reducible apply foldl_keeps
    | with_reducible refine getD_keeps (fun _ _ => ?_) ?_ | intro _ | cases ‹(_, _) = (_, _)› | cases ‹some _ = some _›
    | cases ‹none = some _›
    | fail_if_no_progress with_reducible refine mk_keeps ?_ rfl rfl rfl (by and_intros <;> first | exact .inr (by with_reducible rfl) | exact .inl (sub_of hp rfl)) | dsimp only | split
theorem State.tenantEvent_keeps {P : ℕ} {s0 s : State} (hp : 2 &&& P = 2) (h : Keeps P s0 s) (a1 : ℕ) (a2 : ℕ) : Keeps P s0 (State.tenantEvent s a1 a2) := by
  unfold State.tenantEvent
  repeat' first
    | with_reducible assumption | exact sub_of hp rfl | exact rfl | with_reducible apply State.wr_keeps
    | with_reducible apply ite_keeps | with_reducible apply foldl_keeps
    | with_reducible refine getD_keeps (fun _ _ => ?_) ?_ | intro _ | cases ‹(_, _) = (_, _)› | cases ‹some _ = some _›
    | cases ‹none = some _›
    | fail_if_no_progress with_reducible refine mk_keeps ?_ rfl rfl rfl (by and_intros <;> first | exact .inr (by with_reducible rfl) | exact .inl (sub_of hp rfl)) | dsimp only | split
theorem State.instCount_keeps {P : ℕ} {s0 s : State} (hp : 4194304 &&& P = 4194304) (h : Keeps P s0 s) (a1 : ℕ) (a2 : ℕ) (a3 : ℕ) : Keeps P s0 (State.instCount s a1 a2 a3) := by
  unfold State.instCount
  repeat' first
    | with_reducible assumption | exact sub_of hp rfl | exact rfl | with_reducible apply ite_keeps
    | with_reducible apply foldl_keeps | with_reducible refine getD_keeps (fun _ _ => ?_) ?_ | intro _
    | cases ‹(_, _) = (_, _)› | cases ‹some _ = some _› | cases ‹none = some _›
    | fail_if_no_progress with_reducible refine mk_keeps ?_ rfl rfl rfl (by and_intros <;> first | exact .inr (by with_reducible rfl) | exact .inl (sub_of hp rfl)) | dsimp only | split
theorem State.logEvent_keeps {P : ℕ} {s0 s : State} (hp : 16384 &&& P = 16384) (h : Keeps P s0 s) (a1 : EventKind) (a2 : ℕ) (a3 : ℕ) : Keeps P s0 (State.logEvent s a1 a2 a3) := by
  unfold State.logEvent
  repeat' first
    | with_reducible assumption | exact sub_of hp rfl | exact rfl | with_reducible apply ite_keeps
    | with_reducible apply foldl_keeps | with_reducible refine getD_keeps (fun _ _ => ?_) ?_ | intro _
    | cases ‹(_, _) = (_, _)› | cases ‹some _ = some _› | cases ‹none = some _›
    | fail_if_no_progress with_reducible refine mk_keeps ?_ rfl rfl rfl (by and_intros <;> first | exact .inr (by with_reducible rfl) | exact .inl (sub_of hp rfl)) | dsimp only | split
theorem State.startBarrier_keeps {P : ℕ} {s0 s : State} (hp : 1064962 &&& P = 1064962) (h : Keeps P s0 s) (a1 : Barrier) : Keeps P s0 (State.startBarrier s a1) := by
  unfold State.startBarrier
  repeat' first
    | with_reducible assumption | exact sub_of hp rfl | exact rfl | with_reducible apply State.logYield_keeps
    | with_reducible apply State.wr_keeps | with_reducible apply ite_keeps | with_reducible apply foldl_keeps
    | with_reducible refine getD_keeps (fun _ _ => ?_) ?_ | intro _ | cases ‹(_, _) = (_, _)› | cases ‹some _ = some _›
    | cases ‹none = some _›
    | fail_if_no_progress with_reducible refine mk_keeps ?_ rfl rfl rfl (by and_intros <;> first | exact .inr (by with_reducible rfl) | exact .inl (sub_of hp rfl)) | dsimp only | split
theorem State.endBarrier_keeps {P : ℕ} {s0 s : State} (hp : 1048578 &&& P = 1048578) (h : Keeps P s0 s) (a1 : Barrier) : Keeps P s0 (State.endBarrier s a1) := by
  unfold State.endBarrier
  repeat' first
    | with_reducible assumption | exact sub_of hp rfl | exact rfl | with_reducible apply State.wr_keeps
    | with_reducible apply ite_keeps | with_reducible apply foldl_keeps
    | with_reducible refine getD_keeps (fun _ _ => ?_) ?_ | intro _ | cases ‹(_, _) = (_, _)› | cases ‹some _ = some _›
    | cases ‹none = some _›
    | fail_if_no_progress with_reducible refine mk_keeps ?_ rfl rfl rfl (by and_intros <;> first | exact .inr (by with_reducible rfl) | exact .inl (sub_of hp rfl)) | dsimp only | split
theorem State.refuseRegions_keeps {P : ℕ} {s0 s : State} (hp : 2 &&& P = 2) (h : Keeps P s0 s) (a1 : List (ℕ × ℕ)) (a2 : ℕ) (a3 : ℕ × ℕ) (a4 : ℕ × ℕ) : Keeps P s0 (State.refuseRegions s a1 a2 a3 a4) := by
  unfold State.refuseRegions
  repeat' first
    | with_reducible assumption | exact sub_of hp rfl | exact rfl | with_reducible apply State.wr_keeps
    | with_reducible apply State.flag_keeps | with_reducible apply ite_keeps | with_reducible apply foldl_keeps
    | with_reducible refine getD_keeps (fun _ _ => ?_) ?_ | intro _ | cases ‹(_, _) = (_, _)› | cases ‹some _ = some _›
    | cases ‹none = some _›
    | fail_if_no_progress with_reducible refine mk_keeps ?_ rfl rfl rfl (by and_intros <;> first | exact .inr (by with_reducible rfl) | exact .inl (sub_of hp rfl)) | dsimp only | split
theorem State.setKeyRec_keeps {P : ℕ} {s0 s : State} (hp : 1048578 &&& P = 1048578) (h : Keeps P s0 s) (a1 : ℕ) (a2 : KeyRec) : Keeps P s0 (State.setKeyRec s a1 a2) := by
  unfold State.setKeyRec
  repeat' first
    | with_reducible assumption | exact sub_of hp rfl | exact rfl | with_reducible apply State.wr_keeps
    | with_reducible apply ite_keeps | with_reducible apply foldl_keeps
    | with_reducible refine getD_keeps (fun _ _ => ?_) ?_ | intro _ | cases ‹(_, _) = (_, _)› | cases ‹some _ = some _›
    | cases ‹none = some _›
    | fail_if_no_progress with_reducible refine mk_keeps ?_ rfl rfl rfl (by and_intros <;> first | exact .inr (by with_reducible rfl) | exact .inl (sub_of hp rfl)) | dsimp only | split
theorem State.allocSlot_keeps_eq {P : ℕ} {s0 s t : State} (hp : 1048578 &&& P = 1048578) {a1 : ℕ} {a2 : Bool} {r} (e : State.allocSlot s a1 a2 = (r, t)) (h : Keeps P s0 s) : Keeps P s0 t := by
  unfold State.allocSlot at e
  repeat' first
    | split at e | with_reducible assumption | exact sub_of hp rfl | exact rfl
    | with_reducible apply State.setKeyRec_keeps | with_reducible apply ite_keeps | with_reducible apply foldl_keeps
    | with_reducible refine getD_keeps (fun _ _ => ?_) ?_ | intro _ | cases ‹(_, _) = (_, _)› | cases ‹some _ = some _›
    | cases ‹none = some _›
    | fail_if_no_progress with_reducible refine mk_keeps ?_ rfl rfl rfl (by and_intros <;> first | exact .inr (by with_reducible rfl) | exact .inl (sub_of hp rfl)) | dsimp only | dsimp only at e | split
theorem State.allocSlot_keeps {P : ℕ} {s0 s : State} (hp : 1048578 &&& P = 1048578) (h : Keeps P s0 s) (a1 : ℕ) (a2 : Bool) : Keeps P s0 (State.allocSlot s a1 a2).2 :=
  State.allocSlot_keeps_eq hp (Prod.mk.eta (p := State.allocSlot s a1 a2)).symm h
theorem State.noKeyFor_keeps {P : ℕ} {s0 s : State} (hp : 16384 &&& P = 16384) (h : Keeps P s0 s) (a1 : ℕ) : Keeps P s0 (State.noKeyFor s a1) := by
  unfold State.noKeyFor
  repeat' first
    | with_reducible assumption | exact sub_of hp rfl | exact rfl | with_reducible apply State.logEvent_keeps
    | with_reducible apply ite_keeps | with_reducible apply foldl_keeps
    | with_reducible refine getD_keeps (fun _ _ => ?_) ?_ | intro _ | cases ‹(_, _) = (_, _)› | cases ‹some _ = some _›
    | cases ‹none = some _›
    | fail_if_no_progress with_reducible refine mk_keeps ?_ rfl rfl rfl (by and_intros <;> first | exact .inr (by with_reducible rfl) | exact .inl (sub_of hp rfl)) | dsimp only | split
theorem State.sendLoads_keeps {P : ℕ} {s0 s : State} (hp : 1048576 &&& P = 1048576) (h : Keeps P s0 s) (a1 : ℕ) : Keeps P s0 (State.sendLoads s a1) := by
  unfold State.sendLoads
  repeat' first
    | with_reducible assumption | exact sub_of hp rfl | exact rfl | with_reducible apply ite_keeps
    | with_reducible apply foldl_keeps | with_reducible refine getD_keeps (fun _ _ => ?_) ?_ | intro _
    | cases ‹(_, _) = (_, _)› | cases ‹some _ = some _› | cases ‹none = some _›
    | fail_if_no_progress with_reducible refine mk_keeps ?_ rfl rfl rfl (by and_intros <;> first | exact .inr (by with_reducible rfl) | exact .inl (sub_of hp rfl)) | dsimp only | split

/-! ### Machine/MemOps -/

theorem State.setDev_keeps {P : ℕ} {s0 s : State} (hp : 524288 &&& P = 524288) (h : Keeps P s0 s) (a1 : ℕ) (a2 : ℕ) (a3 : Option DevEnt) : Keeps P s0 (State.setDev s a1 a2 a3) := by
  unfold State.setDev
  repeat' first
    | with_reducible assumption | exact sub_of hp rfl | exact rfl | with_reducible apply ite_keeps
    | with_reducible apply foldl_keeps | with_reducible refine getD_keeps (fun _ _ => ?_) ?_ | intro _
    | cases ‹(_, _) = (_, _)› | cases ‹some _ = some _› | cases ‹none = some _›
    | fail_if_no_progress with_reducible refine mk_keeps ?_ rfl rfl rfl (by and_intros <;> first | exact .inr (by with_reducible rfl) | exact .inl (sub_of hp rfl)) | dsimp only | split
theorem State.sendMcmp_keeps {P : ℕ} {s0 s : State} (hp : 512 &&& P = 512) (h : Keeps P s0 s) (a1 : Cell) (a2 : Pkt) : Keeps P s0 (State.sendMcmp s a1 a2) := by
  unfold State.sendMcmp
  repeat' first
    | with_reducible assumption | exact sub_of hp rfl | exact rfl | with_reducible apply State.send_keeps
    | with_reducible apply ite_keeps | with_reducible apply foldl_keeps
    | with_reducible refine getD_keeps (fun _ _ => ?_) ?_ | intro _ | cases ‹(_, _) = (_, _)› | cases ‹some _ = some _›
    | cases ‹none = some _›
    | fail_if_no_progress with_reducible refine mk_keeps ?_ rfl rfl rfl (by and_intros <;> first | exact .inr (by with_reducible rfl) | exact .inl (sub_of hp rfl)) | dsimp only | split
theorem State.sendMemWcmp_keeps {P : ℕ} {s0 s : State} (hp : 512 &&& P = 512) (h : Keeps P s0 s) (a1 : Cell) (a2 : Pkt) : Keeps P s0 (State.sendMemWcmp s a1 a2) := by
  unfold State.sendMemWcmp
  repeat' first
    | with_reducible assumption | exact sub_of hp rfl | exact rfl | with_reducible apply State.send_keeps
    | with_reducible apply ite_keeps | with_reducible apply foldl_keeps
    | with_reducible refine getD_keeps (fun _ _ => ?_) ?_ | intro _ | cases ‹(_, _) = (_, _)› | cases ‹some _ = some _›
    | cases ‹none = some _›
    | fail_if_no_progress with_reducible refine mk_keeps ?_ rfl rfl rfl (by and_intros <;> first | exact .inr (by with_reducible rfl) | exact .inl (sub_of hp rfl)) | dsimp only | split
theorem State.answerRead_keeps {P : ℕ} {s0 s : State} (hp : 512 &&& P = 512) (h : Keeps P s0 s) (a1 : Cell) (a2 : Pkt) (a3 : Line) (a4 : Bool) : Keeps P s0 (State.answerRead s a1 a2 a3 a4) := by
  unfold State.answerRead
  repeat' first
    | with_reducible assumption | exact sub_of hp rfl | exact rfl | with_reducible apply State.sendMcmp_keeps
    | with_reducible apply State.send_keeps | with_reducible apply ite_keeps | with_reducible apply foldl_keeps
    | with_reducible refine getD_keeps (fun _ _ => ?_) ?_ | intro _ | cases ‹(_, _) = (_, _)› | cases ‹some _ = some _›
    | cases ‹none = some _›
    | fail_if_no_progress with_reducible refine mk_keeps ?_ rfl rfl rfl (by and_intros <;> first | exact .inr (by with_reducible rfl) | exact .inl (sub_of hp rfl)) | dsimp only | split
theorem State.answerPoison_keeps {P : ℕ} {s0 s : State} (hp : 520 &&& P = 520) (h : Keeps P s0 s) (a1 : Cell) (a2 : Pkt) : Keeps P s0 (State.answerPoison s a1 a2) := by
  unfold State.answerPoison
  repeat' first
    | with_reducible assumption | exact sub_of hp rfl | exact rfl
    | refine State.fresh_keeps_eq (sub_of hp rfl) (by assumption) ?_ | with_reducible apply State.fresh_keeps
    | with_reducible apply State.answerRead_keeps | with_reducible apply ite_keeps | with_reducible apply foldl_keeps
    | with_reducible refine foldl_snd_keeps ?_ (fun _ _ _ _ => ?_) | with_reducible refine getD_keeps (fun _ _ => ?_) ?_
    | intro _ | cases ‹(_, _) = (_, _)› | cases ‹some _ = some _› | cases ‹none = some _›
    | fail_if_no_progress with_reducible refine mk_keeps ?_ rfl rfl rfl (by and_intros <;> first | exact .inr (by with_reducible rfl) | exact .inl (sub_of hp rfl)) | dsimp only | split
theorem State.answerWrite_keeps {P : ℕ} {s0 s : State} (hp : 512 &&& P = 512) (h : Keeps P s0 s) (a1 : Cell) (a2 : Pkt) : Keeps P s0 (State.answerWrite s a1 a2) := by
  unfold State.answerWrite
  repeat' first
    | with_reducible assumption | exact sub_of hp rfl | exact rfl | with_reducible apply State.sendMemWcmp_keeps
    | with_reducible apply State.sendMcmp_keeps | with_reducible apply ite_keeps | with_reducible apply foldl_keeps
    | with_reducible refine getD_keeps (fun _ _ => ?_) ?_ | intro _ | cases ‹(_, _) = (_, _)› | cases ‹some _ = some _›
    | cases ‹none = some _›
    | fail_if_no_progress with_reducible refine mk_keeps ?_ rfl rfl rfl (by and_intros <;> first | exact .inr (by with_reducible rfl) | exact .inl (sub_of hp rfl)) | dsimp only | split
theorem State.putAcc_keeps_eq {P : ℕ} {s0 s t : State} (hp : 524288 &&& P = 524288) {a1 : MemAcc} {r} (e : State.putAcc s a1 = (r, t)) (h : Keeps P s0 s) : Keeps P s0 t := by
  unfold State.putAcc at e
  repeat' first
    | split at e | with_reducible assumption | exact sub_of hp rfl | exact rfl | with_reducible apply ite_keeps
    | with_reducible apply foldl_keeps | with_reducible refine getD_keeps (fun _ _ => ?_) ?_ | intro _
    | cases ‹(_, _) = (_, _)› | cases ‹some _ = some _› | cases ‹none = some _›
    | fail_if_no_progress with_reducible refine mk_keeps ?_ rfl rfl rfl (by and_intros <;> first | exact .inr (by with_reducible rfl) | exact .inl (sub_of hp rfl)) | dsimp only | dsimp only at e | split
theorem State.putAcc_keeps {P : ℕ} {s0 s : State} (hp : 524288 &&& P = 524288) (h : Keeps P s0 s) (a1 : MemAcc) : Keeps P s0 (State.putAcc s a1).2 :=
  State.putAcc_keeps_eq hp (Prod.mk.eta (p := State.putAcc s a1)).symm h
theorem State.setAcc_keeps {P : ℕ} {s0 s : State} (hp : 524288 &&& P = 524288) (h : Keeps P s0 s) (a1 : ℕ) (a2 : MemAcc) : Keeps P s0 (State.setAcc s a1 a2) := by
  unfold State.setAcc
  repeat' first
    | with_reducible assumption | exact sub_of hp rfl | exact rfl | with_reducible apply ite_keeps
    | with_reducible apply foldl_keeps | with_reducible refine getD_keeps (fun _ _ => ?_) ?_ | intro _
    | cases ‹(_, _) = (_, _)› | cases ‹some _ = some _› | cases ‹none = some _›
    | fail_if_no_progress with_reducible refine mk_keeps ?_ rfl rfl rfl (by and_intros <;> first | exact .inr (by with_reducible rfl) | exact .inl (sub_of hp rfl)) | dsimp only | split
theorem State.dropAcc_keeps {P : ℕ} {s0 s : State} (hp : 524288 &&& P = 524288) (h : Keeps P s0 s) (a1 : ℕ) : Keeps P s0 (State.dropAcc s a1) := by
  unfold State.dropAcc
  repeat' first
    | with_reducible assumption | exact sub_of hp rfl | exact rfl | with_reducible apply ite_keeps
    | with_reducible apply foldl_keeps | with_reducible refine getD_keeps (fun _ _ => ?_) ?_ | intro _
    | cases ‹(_, _) = (_, _)› | cases ‹some _ = some _› | cases ‹none = some _›
    | fail_if_no_progress with_reducible refine mk_keeps ?_ rfl rfl rfl (by and_intros <;> first | exact .inr (by with_reducible rfl) | exact .inl (sub_of hp rfl)) | dsimp only | split
theorem State.startRead_keeps {P : ℕ} {s0 s : State} (hp : 524304 &&& P = 524304) (h : Keeps P s0 s) (a1 : Cell) (a2 : Pkt) (a3 : MemAcc) (a4 : DevEnt) : Keeps P s0 (State.startRead s a1 a2 a3 a4) := by
  unfold State.startRead
  repeat' first
    | with_reducible assumption | exact sub_of hp rfl | exact rfl
    | refine State.putAcc_keeps_eq (sub_of hp rfl) (by assumption) ?_ | with_reducible apply State.putAcc_keeps
    | with_reducible apply State.emit_keeps | with_reducible apply ite_keeps | with_reducible apply foldl_keeps
    | with_reducible refine foldl_snd_keeps ?_ (fun _ _ _ _ => ?_) | with_reducible refine getD_keeps (fun _ _ => ?_) ?_
    | intro _ | cases ‹(_, _) = (_, _)› | cases ‹some _ = some _› | cases ‹none = some _›
    | fail_if_no_progress with_reducible refine mk_keeps ?_ rfl rfl rfl (by and_intros <;> first | exact .inr (by with_reducible rfl) | exact .inl (sub_of hp rfl)) | dsimp only | split
theorem State.readAtOther_keeps {P : ℕ} {s0 s : State} (hp : 524800 &&& P = 524800) (h : Keeps P s0 s) (a1 : Cell) (a2 : Cell) (a3 : Pkt) : Keeps P s0 (State.readAtOther s a1 a2 a3) := by
  unfold State.readAtOther
  repeat' first
    | with_reducible assumption | exact sub_of hp rfl | exact rfl
    | refine State.putAcc_keeps_eq (sub_of hp rfl) (by assumption) ?_ | with_reducible apply State.putAcc_keeps
    | with_reducible apply State.send_keeps | with_reducible apply ite_keeps | with_reducible apply foldl_keeps
    | with_reducible refine foldl_snd_keeps ?_ (fun _ _ _ _ => ?_) | with_reducible refine getD_keeps (fun _ _ => ?_) ?_
    | intro _ | cases ‹(_, _) = (_, _)› | cases ‹some _ = some _› | cases ‹none = some _›
    | fail_if_no_progress with_reducible refine mk_keeps ?_ rfl rfl rfl (by and_intros <;> first | exact .inr (by with_reducible rfl) | exact .inl (sub_of hp rfl)) | dsimp only | split
theorem State.writeAtOther_keeps {P : ℕ} {s0 s : State} (hp : 524800 &&& P = 524800) (h : Keeps P s0 s) (a1 : Cell) (a2 : Cell) (a3 : Pkt) : Keeps P s0 (State.writeAtOther s a1 a2 a3) := by
  unfold State.writeAtOther
  repeat' first
    | with_reducible assumption | exact sub_of hp rfl | exact rfl
    | refine State.putAcc_keeps_eq (sub_of hp rfl) (by assumption) ?_ | with_reducible apply State.putAcc_keeps
    | with_reducible apply State.send_keeps | with_reducible apply ite_keeps | with_reducible apply foldl_keeps
    | with_reducible refine foldl_snd_keeps ?_ (fun _ _ _ _ => ?_) | with_reducible refine getD_keeps (fun _ _ => ?_) ?_
    | intro _ | cases ‹(_, _) = (_, _)› | cases ‹some _ = some _› | cases ‹none = some _›
    | fail_if_no_progress with_reducible refine mk_keeps ?_ rfl rfl rfl (by and_intros <;> first | exact .inr (by with_reducible rfl) | exact .inl (sub_of hp rfl)) | dsimp only | split
theorem State.noKey_keeps {P : ℕ} {s0 s : State} (hp : 4194306 &&& P = 4194306) (h : Keeps P s0 s) (a1 : Cell) : Keeps P s0 (State.noKey s a1) := by
  unfold State.noKey
  repeat' first
    | with_reducible assumption | exact sub_of hp rfl | exact rfl | with_reducible apply State.ctrEvent_keeps
    | with_reducible apply State.sat_keeps | with_reducible apply ite_keeps | with_reducible apply foldl_keeps
    | with_reducible refine getD_keeps (fun _ _ => ?_) ?_ | intro _ | cases ‹(_, _) = (_, _)› | cases ‹some _ = some _›
    | cases ‹none = some _›
    | fail_if_no_progress with_reducible refine mk_keeps ?_ rfl rfl rfl (by and_intros <;> first | exact .inr (by with_reducible rfl) | exact .inl (sub_of hp rfl)) | dsimp only | split
theorem State.readFail_keeps {P : ℕ} {s0 s : State} (hp : 524808 &&& P = 524808) (h : Keeps P s0 s) (a1 : Cell) (a2 : Pkt) (a3 : Option ℕ) (a4 : Bool) : Keeps P s0 (State.readFail s a1 a2 a3 a4) := by
  unfold State.readFail
  repeat' first
    | with_reducible assumption | exact sub_of hp rfl | exact rfl | with_reducible apply State.dropAcc_keeps
    | with_reducible apply State.answerPoison_keeps | with_reducible apply State.answerRead_keeps
    | with_reducible apply ite_keeps | with_reducible apply foldl_keeps
    | with_reducible refine getD_keeps (fun _ _ => ?_) ?_ | intro _ | cases ‹(_, _) = (_, _)› | cases ‹some _ = some _›
    | cases ‹none = some _›
    | fail_if_no_progress with_reducible refine mk_keeps ?_ rfl rfl rfl (by and_intros <;> first | exact .inr (by with_reducible rfl) | exact .inl (sub_of hp rfl)) | dsimp only | split
theorem State.memRead_keeps {P : ℕ} {s0 s : State} (hp : 4719130 &&& P = 4719130) (h : Keeps P s0 s) (a1 : Cell) (a2 : Pkt) : Keeps P s0 (State.memRead s a1 a2) := by
  unfold State.memRead
  repeat' first
    | with_reducible assumption | exact sub_of hp rfl | exact rfl | with_reducible apply State.noKey_keeps
    | with_reducible apply State.readAtOther_keeps | with_reducible apply State.startRead_keeps
    | with_reducible apply State.readFail_keeps | with_reducible apply State.sat_keeps | with_reducible apply ite_keeps
    | with_reducible apply foldl_keeps | with_reducible refine getD_keeps (fun _ _ => ?_) ?_ | intro _
    | cases ‹(_, _) = (_, _)› | cases ‹some _ = some _› | cases ‹none = some _›
    | fail_if_no_progress with_reducible refine mk_keeps ?_ rfl rfl rfl (by and_intros <;> first | exact .inr (by with_reducible rfl) | exact .inl (sub_of hp rfl)) | dsimp only | split
theorem State.memSpec_keeps {P : ℕ} {s0 s : State} (hp : 4718610 &&& P = 4718610) (h : Keeps P s0 s) (a1 : Cell) (a2 : Pkt) : Keeps P s0 (State.memSpec s a1 a2) := by
  unfold State.memSpec
  repeat' first
    | with_reducible assumption | exact sub_of hp rfl | exact rfl | with_reducible apply State.noKey_keeps
    | with_reducible apply State.startRead_keeps | with_reducible apply ite_keeps | with_reducible apply foldl_keeps
    | with_reducible refine getD_keeps (fun _ _ => ?_) ?_ | intro _ | cases ‹(_, _) = (_, _)› | cases ‹some _ = some _›
    | cases ‹none = some _›
    | fail_if_no_progress with_reducible refine mk_keeps ?_ rfl rfl rfl (by and_intros <;> first | exact .inr (by with_reducible rfl) | exact .inl (sub_of hp rfl)) | dsimp only | split
theorem State.answerFlushes_keeps {P : ℕ} {s0 s : State} (hp : 524800 &&& P = 524800) (h : Keeps P s0 s) (a1 : Cell) (a2 : ℕ) : Keeps P s0 (State.answerFlushes s a1 a2) := by
  unfold State.answerFlushes
  repeat' first
    | with_reducible assumption | exact sub_of hp rfl | exact rfl | with_reducible apply State.dropAcc_keeps
    | with_reducible apply State.sendMcmp_keeps | with_reducible apply ite_keeps | with_reducible apply foldl_keeps
    | with_reducible refine getD_keeps (fun _ _ => ?_) ?_ | intro _ | cases ‹(_, _) = (_, _)› | cases ‹some _ = some _›
    | cases ‹none = some _›
    | fail_if_no_progress with_reducible refine mk_keeps ?_ rfl rfl rfl (by and_intros <;> first | exact .inr (by with_reducible rfl) | exact .inl (sub_of hp rfl)) | dsimp only | split
theorem State.sideDone_keeps {P : ℕ} {s0 s : State} (hp : 524800 &&& P = 524800) (h : Keeps P s0 s) (a1 : ℕ) (a2 : ℕ) : Keeps P s0 (State.sideDone s a1 a2) := by
  induction a2 generalizing s a1 with
  | zero => exact h
  | succ k ih =>
    unfold State.sideDone
    split
    · exact h
    · refine ite_keeps (fun _ => State.setAcc_keeps (sub_of hp rfl) h _ _) fun _ => ?_
      split
      · exact State.answerFlushes_keeps (sub_of hp rfl) (State.answerWrite_keeps (sub_of hp rfl) (State.dropAcc_keeps (sub_of hp rfl) h _) _ _) _ _
      · exact ih (State.dropAcc_keeps (sub_of hp rfl) h _) _
theorem State.performWrite_keeps {P : ℕ} {s0 s : State} (hp : 4719122 &&& P = 4719122) (h : Keeps P s0 s) (a1 : Cell) (a2 : Pkt) (a3 : Option ℕ) (a4 : DevEnt) (a5 : BitVec 512) : Keeps P s0 (State.performWrite s a1 a2 a3 a4 a5) := by
  unfold State.performWrite
  repeat' first
    | with_reducible assumption | exact sub_of hp rfl | exact rfl | with_reducible apply State.ctrEvent_keeps
    | refine State.putAcc_keeps_eq (sub_of hp rfl) (by assumption) ?_ | with_reducible apply State.putAcc_keeps
    | with_reducible apply State.sendAll_keeps | with_reducible apply State.emit_keeps | with_reducible apply ite_keeps
    | with_reducible apply foldl_keeps | with_reducible refine foldl_snd_keeps ?_ (fun _ _ _ _ => ?_)
    | with_reducible refine getD_keeps (fun _ _ => ?_) ?_ | intro _ | cases ‹(_, _) = (_, _)› | cases ‹some _ = some _›
    | cases ‹none = some _›
    | fail_if_no_progress with_reducible refine mk_keeps ?_ rfl rfl rfl (by and_intros <;> first | exact .inr (by with_reducible rfl) | exact .inl (sub_of hp rfl)) | dsimp only | split
theorem State.discardWrite_keeps {P : ℕ} {s0 s : State} (hp : 524800 &&& P = 524800) (h : Keeps P s0 s) (a1 : Cell) (a2 : Pkt) (a3 : Option ℕ) : Keeps P s0 (State.discardWrite s a1 a2 a3) := by
  unfold State.discardWrite
  repeat' first
    | with_reducible assumption | exact sub_of hp rfl | exact rfl | with_reducible apply State.answerWrite_keeps
    | with_reducible apply State.sideDone_keeps | with_reducible apply ite_keeps | with_reducible apply foldl_keeps
    | with_reducible refine getD_keeps (fun _ _ => ?_) ?_ | intro _ | cases ‹(_, _) = (_, _)› | cases ‹some _ = some _›
    | cases ‹none = some _›
    | fail_if_no_progress with_reducible refine mk_keeps ?_ rfl rfl rfl (by and_intros <;> first | exact .inr (by with_reducible rfl) | exact .inl (sub_of hp rfl)) | dsimp only | split
theorem State.memWrite_keeps {P : ℕ} {s0 s : State} (hp : 4719122 &&& P = 4719122) (h : Keeps P s0 s) (a1 : Cell) (a2 : Pkt) : Keeps P s0 (State.memWrite s a1 a2) := by
  unfold State.memWrite
  repeat' first
    | with_reducible assumption | exact sub_of hp rfl | exact rfl | with_reducible apply State.discardWrite_keeps
    | with_reducible apply State.performWrite_keeps | with_reducible apply State.noKey_keeps
    | refine State.putAcc_keeps_eq (sub_of hp rfl) (by assumption) ?_ | with_reducible apply State.putAcc_keeps
    | with_reducible apply State.sat_keeps | with_reducible apply State.writeAtOther_keeps
    | with_reducible apply ite_keeps | with_reducible apply foldl_keeps
    | with_reducible refine foldl_snd_keeps ?_ (fun _ _ _ _ => ?_) | with_reducible refine getD_keeps (fun _ _ => ?_) ?_
    | intro _ | cases ‹(_, _) = (_, _)› | cases ‹some _ = some _› | cases ‹none = some _›
    | fail_if_no_progress with_reducible refine mk_keeps ?_ rfl rfl rfl (by and_intros <;> first | exact .inr (by with_reducible rfl) | exact .inl (sub_of hp rfl)) | dsimp only | split
theorem State.releaseHeld_keeps {P : ℕ} {s0 s : State} (hp : 4719122 &&& P = 4719122) (h : Keeps P s0 s) (a1 : ℕ) : Keeps P s0 (State.releaseHeld s a1) := by
  unfold State.releaseHeld
  repeat' first
    | with_reducible assumption | exact sub_of hp rfl | exact rfl | with_reducible apply State.dropAcc_keeps
    | with_reducible apply State.discardWrite_keeps | with_reducible apply State.performWrite_keeps
    | with_reducible apply State.noKey_keeps | with_reducible apply ite_keeps | with_reducible apply foldl_keeps
    | with_reducible refine getD_keeps (fun _ _ => ?_) ?_ | intro _ | cases ‹(_, _) = (_, _)› | cases ‹some _ = some _›
    | cases ‹none = some _›
    | fail_if_no_progress with_reducible refine mk_keeps ?_ rfl rfl rfl (by and_intros <;> first | exact .inr (by with_reducible rfl) | exact .inl (sub_of hp rfl)) | dsimp only | split
theorem State.writeStep_keeps {P : ℕ} {s0 s : State} (hp : 524800 &&& P = 524800) (h : Keeps P s0 s) (a1 : ℕ) (a2 : MemAcc) : Keeps P s0 (State.writeStep s a1 a2) := by
  unfold State.writeStep
  repeat' first
    | with_reducible assumption | exact sub_of hp rfl | exact rfl | with_reducible apply State.dropAcc_keeps
    | with_reducible apply State.answerWrite_keeps | with_reducible apply State.sideDone_keeps
    | with_reducible apply State.setAcc_keeps | with_reducible apply State.answerFlushes_keeps
    | with_reducible apply ite_keeps | with_reducible apply foldl_keeps
    | with_reducible refine getD_keeps (fun _ _ => ?_) ?_ | intro _ | cases ‹(_, _) = (_, _)› | cases ‹some _ = some _›
    | cases ‹none = some _›
    | fail_if_no_progress with_reducible refine mk_keeps ?_ rfl rfl rfl (by and_intros <;> first | exact .inr (by with_reducible rfl) | exact .inl (sub_of hp rfl)) | dsimp only | split
theorem State.expReadData_keeps {P : ℕ} {s0 s : State} (hp : 4719130 &&& P = 4719130) (h : Keeps P s0 s) (a1 : Cell) (a2 : ℕ) (a3 : Line) (a4 : ExpSt) : Keeps P s0 (State.expReadData s a1 a2 a3 a4) := by
  unfold State.expReadData
  repeat' first
    | with_reducible assumption | exact sub_of hp rfl | exact rfl | with_reducible apply State.dropAcc_keeps
    | with_reducible apply State.ctrEvent_keeps | with_reducible apply State.discardWrite_keeps
    | with_reducible apply State.noKey_keeps | with_reducible apply State.setAcc_keeps
    | with_reducible apply State.answerRead_keeps | with_reducible apply State.readFail_keeps
    | with_reducible apply State.sat_keeps | with_reducible apply State.send_keeps | with_reducible apply State.emit_keeps
    | with_reducible apply ite_keeps | with_reducible apply foldl_keeps
    | with_reducible refine getD_keeps (fun _ _ => ?_) ?_ | intro _ | cases ‹(_, _) = (_, _)› | cases ‹some _ = some _›
    | cases ‹none = some _›
    | fail_if_no_progress with_reducible refine mk_keeps ?_ rfl rfl rfl (by and_intros <;> first | exact .inr (by with_reducible rfl) | exact .inl (sub_of hp rfl)) | dsimp only | split
theorem State.expWriteDone_keeps {P : ℕ} {s0 s : State} (hp : 524800 &&& P = 524800) (h : Keeps P s0 s) (a1 : Cell) (a2 : ℕ) : Keeps P s0 (State.expWriteDone s a1 a2) := by
  unfold State.expWriteDone
  repeat' first
    | with_reducible assumption | exact sub_of hp rfl | exact rfl | with_reducible apply State.writeStep_keeps
    | with_reducible apply ite_keeps | with_reducible apply foldl_keeps
    | with_reducible refine getD_keeps (fun _ _ => ?_) ?_ | intro _ | cases ‹(_, _) = (_, _)› | cases ‹some _ = some _›
    | cases ‹none = some _›
    | fail_if_no_progress with_reducible refine mk_keeps ?_ rfl rfl rfl (by and_intros <;> first | exact .inr (by with_reducible rfl) | exact .inl (sub_of hp rfl)) | dsimp only | split

/-! ### Machine/XingOps -/

theorem State.xingPass_keeps {P : ℕ} {s0 s : State} (hp : 2048 &&& P = 2048) (h : Keeps P s0 s) (a1 : ℕ) (a2 : ℕ) : Keeps P s0 (State.xingPass s a1 a2) := by
  unfold State.xingPass
  repeat' first
    | with_reducible assumption | exact sub_of hp rfl | exact rfl | with_reducible apply ite_keeps
    | with_reducible apply foldl_keeps | with_reducible refine getD_keeps (fun _ _ => ?_) ?_ | intro _
    | cases ‹(_, _) = (_, _)› | cases ‹some _ = some _› | cases ‹none = some _›
    | fail_if_no_progress with_reducible refine mk_keeps ?_ rfl rfl rfl (by and_intros <;> first | exact .inr (by with_reducible rfl) | exact .inl (sub_of hp rfl)) | dsimp only | split
theorem State.xingSync_keeps {P : ℕ} {s0 s : State} (hp : 2050 &&& P = 2050) (h : Keeps P s0 s) : Keeps P s0 (State.xingSync s) := by
  unfold State.xingSync
  repeat' first
    | with_reducible assumption | exact sub_of hp rfl | exact rfl | with_reducible apply State.raise_keeps
    | with_reducible apply ite_keeps | with_reducible apply foldl_keeps
    | with_reducible refine getD_keeps (fun _ _ => ?_) ?_ | intro _ | cases ‹(_, _) = (_, _)› | cases ‹some _ = some _›
    | cases ‹none = some _›
    | fail_if_no_progress with_reducible refine mk_keeps ?_ rfl rfl rfl (by and_intros <;> first | exact .inr (by with_reducible rfl) | exact .inl (sub_of hp rfl)) | dsimp only | split
theorem State.xingReset_keeps {P : ℕ} {s0 s : State} (hp : 2048 &&& P = 2048) (h : Keeps P s0 s) (a1 : ℕ → Bool) : Keeps P s0 (State.xingReset s a1) := by
  unfold State.xingReset
  repeat' first
    | with_reducible assumption | exact sub_of hp rfl | exact rfl | with_reducible apply ite_keeps
    | with_reducible apply foldl_keeps | with_reducible refine getD_keeps (fun _ _ => ?_) ?_ | intro _
    | cases ‹(_, _) = (_, _)› | cases ‹some _ = some _› | cases ‹none = some _›
    | fail_if_no_progress with_reducible refine mk_keeps ?_ rfl rfl rfl (by and_intros <;> first | exact .inr (by with_reducible rfl) | exact .inl (sub_of hp rfl)) | dsimp only | split
theorem State.rindAccess_keeps {P : ℕ} {s0 s : State} (hp : 2048 &&& P = 2048) (h : Keeps P s0 s) (a1 : ℕ) : Keeps P s0 (State.rindAccess s a1) := by
  unfold State.rindAccess
  repeat' first
    | with_reducible assumption | exact sub_of hp rfl | exact rfl | with_reducible apply State.xingPass_keeps
    | with_reducible apply ite_keeps | with_reducible apply foldl_keeps
    | with_reducible refine getD_keeps (fun _ _ => ?_) ?_ | intro _ | cases ‹(_, _) = (_, _)› | cases ‹some _ = some _›
    | cases ‹none = some _›
    | fail_if_no_progress with_reducible refine mk_keeps ?_ rfl rfl rfl (by and_intros <;> first | exact .inr (by with_reducible rfl) | exact .inl (sub_of hp rfl)) | dsimp only | split

/-! ### Machine/ScrimOps -/

theorem State.moveTo_keeps {P : ℕ} {s0 s : State} (hp : 512 &&& P = 512) (h : Keeps P s0 s) (a1 : Pkt) (a2 : Pkt) (a3 : Cell) : Keeps P s0 (State.moveTo s a1 a2 a3) := by
  unfold State.moveTo
  repeat' first
    | with_reducible assumption | exact sub_of hp rfl | exact rfl | with_reducible apply ite_keeps
    | with_reducible apply foldl_keeps | with_reducible refine getD_keeps (fun _ _ => ?_) ?_ | intro _
    | cases ‹(_, _) = (_, _)› | cases ‹some _ = some _› | cases ‹none = some _›
    | fail_if_no_progress with_reducible refine mk_keeps ?_ rfl rfl rfl (by and_intros <;> first | exact .inr (by with_reducible rfl) | exact .inl (sub_of hp rfl)) | dsimp only | split
theorem State.absorb_keeps {P : ℕ} {s0 s : State} (hp : 512 &&& P = 512) (h : Keeps P s0 s) (a1 : List Pkt) : Keeps P s0 (State.absorb s a1) := by
  unfold State.absorb
  repeat' first
    | with_reducible assumption | exact sub_of hp rfl | exact rfl | with_reducible apply State.purgeUnits_keeps
    | with_reducible apply ite_keeps | with_reducible apply foldl_keeps
    | with_reducible refine getD_keeps (fun _ _ => ?_) ?_ | intro _ | cases ‹(_, _) = (_, _)› | cases ‹some _ = some _›
    | cases ‹none = some _›
    | fail_if_no_progress with_reducible refine mk_keeps ?_ rfl rfl rfl (by and_intros <;> first | exact .inr (by with_reducible rfl) | exact .inl (sub_of hp rfl)) | dsimp only | split
theorem State.lose_keeps {P : ℕ} {s0 s : State} (hp : 2560 &&& P = 2560) (h : Keeps P s0 s) (a1 : List Pkt) : Keeps P s0 (State.lose s a1) := by
  unfold State.lose
  repeat' first
    | with_reducible assumption | exact sub_of hp rfl | exact rfl | with_reducible apply State.absorb_keeps
    | with_reducible apply ite_keeps | with_reducible apply foldl_keeps
    | with_reducible refine getD_keeps (fun _ _ => ?_) ?_ | intro _ | cases ‹(_, _) = (_, _)› | cases ‹some _ = some _›
    | cases ‹none = some _›
    | fail_if_no_progress with_reducible refine mk_keeps ?_ rfl rfl rfl (by and_intros <;> first | exact .inr (by with_reducible rfl) | exact .inl (sub_of hp rfl)) | dsimp only | split
theorem State.patch_keeps {P : ℕ} {s0 s : State} (hp : 512 &&& P = 512) (h : Keeps P s0 s) (a1 : Pkt) (a2 : Pkt → Pkt) : Keeps P s0 (State.patch s a1 a2) := by
  unfold State.patch
  repeat' first
    | with_reducible assumption | exact sub_of hp rfl | exact rfl | with_reducible apply ite_keeps
    | with_reducible apply foldl_keeps | with_reducible refine getD_keeps (fun _ _ => ?_) ?_ | intro _
    | cases ‹(_, _) = (_, _)› | cases ‹some _ = some _› | cases ‹none = some _›
    | fail_if_no_progress with_reducible refine mk_keeps ?_ rfl rfl rfl (by and_intros <;> first | exact .inr (by with_reducible rfl) | exact .inl (sub_of hp rfl)) | dsimp only | split
theorem State.dropRest_keeps {P : ℕ} {s0 s : State} (hp : 512 &&& P = 512) (h : Keeps P s0 s) (a1 : Cell) (a2 : Pkt) (a3 : ℕ) : Keeps P s0 (State.dropRest s a1 a2 a3) := by
  unfold State.dropRest
  repeat' first
    | with_reducible assumption | exact sub_of hp rfl | exact rfl | with_reducible apply ite_keeps
    | with_reducible apply foldl_keeps | with_reducible refine getD_keeps (fun _ _ => ?_) ?_ | intro _
    | cases ‹(_, _) = (_, _)› | cases ‹some _ = some _› | cases ‹none = some _›
    | fail_if_no_progress with_reducible refine mk_keeps ?_ rfl rfl rfl (by and_intros <;> first | exact .inr (by with_reducible rfl) | exact .inl (sub_of hp rfl)) | dsimp only | split
theorem State.absorbDead_keeps {P : ℕ} {s0 s : State} (hp : 2562 &&& P = 2562) (h : Keeps P s0 s) (a1 : Cell) (a2 : Dir) : Keeps P s0 (State.absorbDead s a1 a2) := by
  unfold State.absorbDead
  repeat' first
    | with_reducible assumption | exact sub_of hp rfl | exact rfl | with_reducible apply State.lose_keeps
    | with_reducible apply State.dropRest_keeps | with_reducible apply State.sat_keeps | with_reducible apply ite_keeps
    | with_reducible apply foldl_keeps | with_reducible refine getD_keeps (fun _ _ => ?_) ?_ | intro _
    | cases ‹(_, _) = (_, _)› | cases ‹some _ = some _› | cases ‹none = some _›
    | fail_if_no_progress with_reducible refine mk_keeps ?_ rfl rfl rfl (by and_intros <;> first | exact .inr (by with_reducible rfl) | exact .inl (sub_of hp rfl)) | dsimp only | split
theorem State.injected_keeps {P : ℕ} {s0 s : State} (hp : 512 &&& P = 512) (h : Keeps P s0 s) (a1 : Cell) (a2 : Pkt) : Keeps P s0 (State.injected s a1 a2) := by
  unfold State.injected
  repeat' first
    | with_reducible assumption | exact sub_of hp rfl | exact rfl | with_reducible apply ite_keeps
    | with_reducible apply foldl_keeps | with_reducible refine getD_keeps (fun _ _ => ?_) ?_ | intro _
    | cases ‹(_, _) = (_, _)› | cases ‹some _ = some _› | cases ‹none = some _›
    | fail_if_no_progress with_reducible refine mk_keeps ?_ rfl rfl rfl (by and_intros <;> first | exact .inr (by with_reducible rfl) | exact .inl (sub_of hp rfl)) | dsimp only | split
theorem State.received_keeps {P : ℕ} {s0 s : State} (hp : 512 &&& P = 512) (h : Keeps P s0 s) (a1 : Cell) (a2 : Pkt) (a3 : ℕ) : Keeps P s0 (State.received s a1 a2 a3) := by
  unfold State.received
  repeat' first
    | with_reducible assumption | exact sub_of hp rfl | exact rfl | with_reducible apply ite_keeps
    | with_reducible apply foldl_keeps | with_reducible refine getD_keeps (fun _ _ => ?_) ?_ | intro _
    | cases ‹(_, _) = (_, _)› | cases ‹some _ = some _› | cases ‹none = some _›
    | fail_if_no_progress with_reducible refine mk_keeps ?_ rfl rfl rfl (by and_intros <;> first | exact .inr (by with_reducible rfl) | exact .inl (sub_of hp rfl)) | dsimp only | split
theorem State.edgeTrained_keeps {P : ℕ} {s0 s : State} (hp : 2 &&& P = 2) (h : Keeps P s0 s) (a1 : ℕ) (a2 : ℕ) : Keeps P s0 (State.edgeTrained s a1 a2) := by
  unfold State.edgeTrained
  repeat' first
    | with_reducible assumption | exact sub_of hp rfl | exact rfl | with_reducible apply State.wrBit_keeps
    | with_reducible apply State.wr_keeps | with_reducible apply ite_keeps | with_reducible apply foldl_keeps
    | with_reducible refine getD_keeps (fun _ _ => ?_) ?_ | intro _ | cases ‹(_, _) = (_, _)› | cases ‹some _ = some _›
    | cases ‹none = some _›
    | fail_if_no_progress with_reducible refine mk_keeps ?_ rfl rfl rfl (by and_intros <;> first | exact .inr (by with_reducible rfl) | exact .inl (sub_of hp rfl)) | dsimp only | split
theorem State.startTraining_keeps {P : ℕ} {s0 s : State} (hp : 514 &&& P = 514) (h : Keeps P s0 s) (a1 : ℕ) (a2 : ℕ) (a3 : List ℕ) : Keeps P s0 (State.startTraining s a1 a2 a3) := by
  unfold State.startTraining
  repeat' first
    | with_reducible assumption | exact sub_of hp rfl | exact rfl | with_reducible apply State.wr_keeps
    | with_reducible apply ite_keeps | with_reducible apply foldl_keeps
    | with_reducible refine getD_keeps (fun _ _ => ?_) ?_ | intro _ | cases ‹(_, _) = (_, _)› | cases ‹some _ = some _›
    | cases ‹none = some _›
    | fail_if_no_progress with_reducible refine mk_keeps ?_ rfl rfl rfl (by and_intros <;> first | exact .inr (by with_reducible rfl) | exact .inl (sub_of hp rfl)) | dsimp only | split
theorem State.note_keeps {P : ℕ} {s0 s : State} (hp : 512 &&& P = 512) (h : Keeps P s0 s) (a1 : Elem) : Keeps P s0 (State.note s a1) := by
  unfold State.note
  repeat' first
    | with_reducible assumption | exact sub_of hp rfl | exact rfl | with_reducible apply ite_keeps
    | with_reducible apply foldl_keeps | with_reducible refine getD_keeps (fun _ _ => ?_) ?_ | intro _
    | cases ‹(_, _) = (_, _)› | cases ‹some _ = some _› | cases ‹none = some _›
    | fail_if_no_progress with_reducible refine mk_keeps ?_ rfl rfl rfl (by and_intros <;> first | exact .inr (by with_reducible rfl) | exact .inl (sub_of hp rfl)) | dsimp only | split
theorem State.showLeader_keeps {P : ℕ} {s0 s : State} (hp : 2 &&& P = 2) (h : Keeps P s0 s) : Keeps P s0 (State.showLeader s) := by
  unfold State.showLeader
  repeat' first
    | with_reducible assumption | exact sub_of hp rfl | exact rfl | with_reducible apply State.wr_keeps
    | with_reducible apply State.wrb_keeps | with_reducible apply ite_keeps | with_reducible apply foldl_keeps
    | with_reducible refine getD_keeps (fun _ _ => ?_) ?_ | intro _ | cases ‹(_, _) = (_, _)› | cases ‹some _ = some _›
    | cases ‹none = some _›
    | fail_if_no_progress with_reducible refine mk_keeps ?_ rfl rfl rfl (by and_intros <;> first | exact .inr (by with_reducible rfl) | exact .inl (sub_of hp rfl)) | dsimp only | split
theorem State.openEpoch_keeps {P : ℕ} {s0 s : State} (hp : 514 &&& P = 514) (h : Keeps P s0 s) (a1 : List Elem) (a2 : List Elem) : Keeps P s0 (State.openEpoch s a1 a2) := by
  unfold State.openEpoch
  repeat' first
    | with_reducible assumption | exact sub_of hp rfl | exact rfl | with_reducible apply State.showLeader_keeps
    | with_reducible apply ite_keeps | with_reducible apply foldl_keeps
    | with_reducible refine getD_keeps (fun _ _ => ?_) ?_ | intro _ | cases ‹(_, _) = (_, _)› | cases ‹some _ = some _›
    | cases ‹none = some _›
    | fail_if_no_progress with_reducible refine mk_keeps ?_ rfl rfl rfl (by and_intros <;> first | exact .inr (by with_reducible rfl) | exact .inl (sub_of hp rfl)) | dsimp only | split
theorem State.beginRecovery_keeps {P : ℕ} {s0 s : State} (hp : 16386 &&& P = 16386) (h : Keeps P s0 s) (a1 : ℕ) : Keeps P s0 (State.beginRecovery s a1) := by
  unfold State.beginRecovery
  repeat' first
    | with_reducible assumption | exact sub_of hp rfl | exact rfl | with_reducible apply State.wr_keeps
    | with_reducible apply ite_keeps | with_reducible apply foldl_keeps
    | with_reducible refine getD_keeps (fun _ _ => ?_) ?_ | intro _ | cases ‹(_, _) = (_, _)› | cases ‹some _ = some _›
    | cases ‹none = some _›
    | fail_if_no_progress with_reducible refine mk_keeps ?_ rfl rfl rfl (by and_intros <;> first | exact .inr (by with_reducible rfl) | exact .inl (sub_of hp rfl)) | dsimp only | split
theorem State.failElem_keeps {P : ℕ} {s0 s : State} (hp : 16898 &&& P = 16898) (h : Keeps P s0 s) (a1 : Elem) (a2 : Option Cell) (a3 : ℕ) (a4 : ℕ) : Keeps P s0 (State.failElem s a1 a2 a3 a4) := by
  unfold State.failElem
  repeat' first
    | with_reducible assumption | exact sub_of hp rfl | exact rfl | with_reducible apply State.note_keeps
    | with_reducible apply State.logStep_keeps | with_reducible apply State.beginRecovery_keeps
    | with_reducible apply State.logFault_keeps | with_reducible apply ite_keeps | with_reducible apply foldl_keeps
    | with_reducible refine getD_keeps (fun _ _ => ?_) ?_ | intro _ | cases ‹(_, _) = (_, _)› | cases ‹some _ = some _›
    | cases ‹none = some _›
    | fail_if_no_progress with_reducible refine mk_keeps ?_ rfl rfl rfl (by and_intros <;> first | exact .inr (by with_reducible rfl) | exact .inl (sub_of hp rfl)) | dsimp only | split
theorem State.bufPut_keeps {P : ℕ} {s0 s : State} (hp : 512 &&& P = 512) (h : Keeps P s0 s) (a1 : Cell) (a2 : Dir) (a3 : Pkt) (a4 : ℕ) (a5 : ℕ) : Keeps P s0 (State.bufPut s a1 a2 a3 a4 a5) := by
  unfold State.bufPut
  repeat' first
    | with_reducible assumption | exact sub_of hp rfl | exact rfl | with_reducible apply ite_keeps
    | with_reducible apply foldl_keeps | with_reducible refine getD_keeps (fun _ _ => ?_) ?_ | intro _
    | cases ‹(_, _) = (_, _)› | cases ‹some _ = some _› | cases ‹none = some _›
    | fail_if_no_progress with_reducible refine mk_keeps ?_ rfl rfl rfl (by and_intros <;> first | exact .inr (by with_reducible rfl) | exact .inl (sub_of hp rfl)) | dsimp only | split
theorem State.fillVc_keeps {P : ℕ} {s0 s : State} (hp : 512 &&& P = 512) (h : Keeps P s0 s) (a1 : Cell) (a2 : ℕ) (a3 : ℕ) (a4 : ℕ) : Keeps P s0 (State.fillVc s a1 a2 a3 a4) := by
  induction a4 generalizing s with
  | zero => exact h
  | succ k ih =>
    unfold State.fillVc
    dsimp only
    split
    · exact h
    · split
      · exact h
      · exact ih (mk_keeps (State.bufPut_keeps (sub_of hp rfl) h _ _ _ _ _) rfl rfl rfl (by and_intros <;> first | exact .inr (by with_reducible rfl) | exact .inl (sub_of hp rfl)))
theorem State.fill_keeps {P : ℕ} {s0 s : State} (hp : 512 &&& P = 512) (h : Keeps P s0 s) (a1 : Cell) (a2 : ℕ) : Keeps P s0 (State.fill s a1 a2) := by
  unfold State.fill
  repeat' first
    | with_reducible assumption | exact sub_of hp rfl | exact rfl | with_reducible apply State.fillVc_keeps
    | with_reducible apply ite_keeps | with_reducible apply foldl_keeps
    | with_reducible refine getD_keeps (fun _ _ => ?_) ?_ | intro _ | cases ‹(_, _) = (_, _)› | cases ‹some _ = some _›
    | cases ‹none = some _›
    | fail_if_no_progress with_reducible refine mk_keeps ?_ rfl rfl rfl (by and_intros <;> first | exact .inr (by with_reducible rfl) | exact .inl (sub_of hp rfl)) | dsimp only | split
theorem State.bufTake_keeps {P : ℕ} {s0 s : State} (hp : 512 &&& P = 512) (h : Keeps P s0 s) (a1 : Cell) (a2 : ℕ) (a3 : Pkt) (a4 : ℕ) : Keeps P s0 (State.bufTake s a1 a2 a3 a4) := by
  unfold State.bufTake
  repeat' first
    | with_reducible assumption | exact sub_of hp rfl | exact rfl | with_reducible apply State.fill_keeps
    | with_reducible apply ite_keeps | with_reducible apply foldl_keeps
    | with_reducible refine getD_keeps (fun _ _ => ?_) ?_ | intro _ | cases ‹(_, _) = (_, _)› | cases ‹some _ = some _›
    | cases ‹none = some _›
    | fail_if_no_progress with_reducible refine mk_keeps ?_ rfl rfl rfl (by and_intros <;> first | exact .inr (by with_reducible rfl) | exact .inl (sub_of hp rfl)) | dsimp only | split
theorem State.drrPick_keeps_eq {P : ℕ} {s0 s t : State} (hp : 512 &&& P = 512) {a1 : Cell} {a2 : Dir} {a3 : Cell} {a4 : Dir} {a5 : ℕ} {r q} (e : State.drrPick s a1 a2 a3 a4 a5 = some (r, q, t)) (h : Keeps P s0 s) : Keeps P s0 t := by
  induction a5 generalizing s with
  | zero => cases e
  | succ k ih =>
    unfold State.drrPick at e
    dsimp only at e
    split at e
    · cases e
      exact mk_keeps h rfl rfl rfl (by and_intros <;> first | exact .inr (by with_reducible rfl) | exact .inl (sub_of hp rfl))
    · exact ih e (mk_keeps h rfl rfl rfl (by and_intros <;> first | exact .inr (by with_reducible rfl) | exact .inl (sub_of hp rfl)))
theorem State.offered_keeps_eq {P : ℕ} {s0 s t : State} (hp : 512 &&& P = 512) {a1 : Cell} {a2 : Dir} {a3 : Pkt} {a4 : ℕ} {r} (e : State.offered s a1 a2 a3 a4 = some (r, t)) (h : Keeps P s0 s) : Keeps P s0 t := by
  unfold State.offered at e
  repeat' first
    | split at e | with_reducible assumption | exact sub_of hp rfl | exact rfl | with_reducible apply State.bufTake_keeps
    | refine State.drrPick_keeps_eq (sub_of hp rfl) (by assumption) ?_ | with_reducible apply ite_keeps
    | with_reducible apply foldl_keeps | with_reducible refine getD_keeps (fun _ _ => ?_) ?_ | intro _
    | cases ‹(_, _) = (_, _)› | cases ‹some _ = some _› | cases ‹none = some _›
    | fail_if_no_progress with_reducible refine mk_keeps ?_ rfl rfl rfl (by and_intros <;> first | exact .inr (by with_reducible rfl) | exact .inl (sub_of hp rfl)) | dsimp only | dsimp only at e | split
theorem State.boundary_keeps {P : ℕ} {s0 s : State} (hp : 512 &&& P = 512) (h : Keeps P s0 s) (a1 : Cell) (a2 : Dir) (a3 : Pkt) (a4 : ℕ) : Keeps P s0 (State.boundary s a1 a2 a3 a4) := by
  unfold State.boundary
  repeat' first
    | with_reducible assumption | exact sub_of hp rfl | exact rfl | with_reducible apply ite_keeps
    | with_reducible apply foldl_keeps | with_reducible refine getD_keeps (fun _ _ => ?_) ?_ | intro _
    | cases ‹(_, _) = (_, _)› | cases ‹some _ = some _› | cases ‹none = some _›
    | fail_if_no_progress with_reducible refine mk_keeps ?_ rfl rfl rfl (by and_intros <;> first | exact .inr (by with_reducible rfl) | exact .inl (sub_of hp rfl)) | dsimp only | split
theorem State.keepWeights_keeps {P : ℕ} {s0 s : State} (hp : 512 &&& P = 512) (h : Keeps P s0 s) (a1 : Cell) : Keeps P s0 (State.keepWeights s a1) := by
  unfold State.keepWeights
  repeat' first
    | with_reducible assumption | exact sub_of hp rfl | exact rfl | with_reducible apply ite_keeps
    | with_reducible apply foldl_keeps | with_reducible refine getD_keeps (fun _ _ => ?_) ?_ | intro _
    | cases ‹(_, _) = (_, _)› | cases ‹some _ = some _› | cases ‹none = some _›
    | fail_if_no_progress with_reducible refine mk_keeps ?_ rfl rfl rfl (by and_intros <;> first | exact .inr (by with_reducible rfl) | exact .inl (sub_of hp rfl)) | dsimp only | split
theorem State.localUnit_keeps {P : ℕ} {s0 s : State} (hp : 2562 &&& P = 2562) (h : Keeps P s0 s) (a1 : Cell) (a2 : Pkt) (a3 : ℕ) : Keeps P s0 (State.localUnit s a1 a2 a3) := by
  unfold State.localUnit
  repeat' first
    | with_reducible assumption | exact sub_of hp rfl | exact rfl | with_reducible apply State.boundary_keeps
    | with_reducible apply State.lose_keeps | with_reducible apply State.received_keeps
    | with_reducible apply State.sat_keeps | with_reducible apply ite_keeps | with_reducible apply foldl_keeps
    | with_reducible refine getD_keeps (fun _ _ => ?_) ?_ | intro _ | cases ‹(_, _) = (_, _)› | cases ‹some _ = some _›
    | cases ‹none = some _›
    | fail_if_no_progress with_reducible refine mk_keeps ?_ rfl rfl rfl (by and_intros <;> first | exact .inr (by with_reducible rfl) | exact .inl (sub_of hp rfl)) | dsimp only | split
theorem State.localOut_keeps {P : ℕ} {s0 s : State} (hp : 2562 &&& P = 2562) (h : Keeps P s0 s) (a1 : Cell) (a2 : ℕ) : Keeps P s0 (State.localOut s a1 a2) := by
  induction a2 generalizing s with
  | zero => exact h
  | succ k ih =>
    unfold State.localOut
    refine ite_keeps (fun _ => h) fun _ => ?_
    split
    · rename_i e
      exact ih (State.localUnit_keeps (sub_of hp rfl) (State.bufTake_keeps (sub_of hp rfl) (State.drrPick_keeps_eq (sub_of hp rfl) e h) _ _ _ _) _ _ _)
    · exact h
theorem State.ejectAll_keeps {P : ℕ} {s0 s : State} (hp : 2562 &&& P = 2562) (h : Keeps P s0 s) (a1 : Cell) : Keeps P s0 (State.ejectAll s a1) := by
  unfold State.ejectAll
  repeat' first
    | with_reducible assumption | exact sub_of hp rfl | exact rfl | with_reducible apply State.localOut_keeps
    | with_reducible apply ite_keeps | with_reducible apply foldl_keeps
    | with_reducible refine getD_keeps (fun _ _ => ?_) ?_ | intro _ | cases ‹(_, _) = (_, _)› | cases ‹some _ = some _›
    | cases ‹none = some _›
    | fail_if_no_progress with_reducible refine mk_keeps ?_ rfl rfl rfl (by and_intros <;> first | exact .inr (by with_reducible rfl) | exact .inl (sub_of hp rfl)) | dsimp only | split
theorem State.stompPartial_keeps {P : ℕ} {s0 s : State} (hp : 2562 &&& P = 2562) (h : Keeps P s0 s) (a1 : Cell) (a2 : Dir) : Keeps P s0 (State.stompPartial s a1 a2) := by
  unfold State.stompPartial
  repeat' first
    | with_reducible assumption | exact sub_of hp rfl | exact rfl | with_reducible apply State.patch_keeps
    | with_reducible apply State.ejectAll_keeps | with_reducible apply State.dropRest_keeps
    | with_reducible apply State.fill_keeps | with_reducible apply ite_keeps | with_reducible apply foldl_keeps
    | with_reducible refine getD_keeps (fun _ _ => ?_) ?_ | intro _ | cases ‹(_, _) = (_, _)› | cases ‹some _ = some _›
    | cases ‹none = some _›
    | fail_if_no_progress with_reducible refine mk_keeps ?_ rfl rfl rfl (by and_intros <;> first | exact .inr (by with_reducible rfl) | exact .inl (sub_of hp rfl)) | dsimp only | split
theorem State.declareDead_keeps {P : ℕ} {s0 s : State} (hp : 18946 &&& P = 18946) (h : Keeps P s0 s) (a1 : Cell) (a2 : Dir) (a3 : ℕ) : Keeps P s0 (State.declareDead s a1 a2 a3) := by
  unfold State.declareDead
  repeat' first
    | with_reducible assumption | exact sub_of hp rfl | exact rfl | with_reducible apply State.failElem_keeps
    | with_reducible apply State.wrBit_keeps | with_reducible apply State.stompPartial_keeps
    | with_reducible apply State.absorbDead_keeps | with_reducible apply ite_keeps | with_reducible apply foldl_keeps
    | with_reducible refine getD_keeps (fun _ _ => ?_) ?_ | intro _ | cases ‹(_, _) = (_, _)› | cases ‹some _ = some _›
    | cases ‹none = some _›
    | fail_if_no_progress with_reducible refine mk_keeps ?_ rfl rfl rfl (by and_intros <;> first | exact .inr (by with_reducible rfl) | exact .inl (sub_of hp rfl)) | dsimp only | split
theorem State.standAt_keeps {P : ℕ} {s0 s : State} (hp : 512 &&& P = 512) (h : Keeps P s0 s) (a1 : Cell) (a2 : Pkt) : Keeps P s0 (State.standAt s a1 a2) := by
  unfold State.standAt
  repeat' first
    | with_reducible assumption | exact sub_of hp rfl | exact rfl | with_reducible apply State.fill_keeps
    | with_reducible apply State.moveTo_keeps | with_reducible apply State.purgeUnits_keeps
    | with_reducible apply ite_keeps | with_reducible apply foldl_keeps
    | with_reducible refine getD_keeps (fun _ _ => ?_) ?_ | intro _ | cases ‹(_, _) = (_, _)› | cases ‹some _ = some _›
    | cases ‹none = some _›
    | fail_if_no_progress with_reducible refine mk_keeps ?_ rfl rfl rfl (by and_intros <;> first | exact .inr (by with_reducible rfl) | exact .inl (sub_of hp rfl)) | dsimp only | split
theorem State.abandonDrain_keeps {P : ℕ} {s0 s : State} (hp : 2 &&& P = 2) (h : Keeps P s0 s) (a1 : Cell) (a2 : ℕ) : Keeps P s0 (State.abandonDrain s a1 a2) := by
  unfold State.abandonDrain
  repeat' first
    | with_reducible assumption | exact sub_of hp rfl | exact rfl | with_reducible apply State.wr_keeps
    | with_reducible apply ite_keeps | with_reducible apply foldl_keeps
    | with_reducible refine getD_keeps (fun _ _ => ?_) ?_ | intro _ | cases ‹(_, _) = (_, _)› | cases ‹some _ = some _›
    | cases ‹none = some _›
    | fail_if_no_progress with_reducible refine mk_keeps ?_ rfl rfl rfl (by and_intros <;> first | exact .inr (by with_reducible rfl) | exact .inl (sub_of hp rfl)) | dsimp only | split
theorem State.releaseHold_keeps {P : ℕ} {s0 s : State} (hp : 2562 &&& P = 2562) (h : Keeps P s0 s) (a1 : Cell) : Keeps P s0 (State.releaseHold s a1) := by
  unfold State.releaseHold
  repeat' first
    | with_reducible assumption | exact sub_of hp rfl | exact rfl | with_reducible apply State.ejectAll_keeps
    | with_reducible apply ite_keeps | with_reducible apply foldl_keeps
    | with_reducible refine getD_keeps (fun _ _ => ?_) ?_ | intro _ | cases ‹(_, _) = (_, _)› | cases ‹some _ = some _›
    | cases ‹none = some _›
    | fail_if_no_progress with_reducible refine mk_keeps ?_ rfl rfl rfl (by and_intros <;> first | exact .inr (by with_reducible rfl) | exact .inl (sub_of hp rfl)) | dsimp only | split
theorem State.holdArrival_keeps {P : ℕ} {s0 s : State} (hp : 51714 &&& P = 51714) (h : Keeps P s0 s) (a1 : Cell) (a2 : Pkt) : Keeps P s0 (State.holdArrival s a1 a2) := by
  unfold State.holdArrival
  repeat' first
    | with_reducible assumption | exact sub_of hp rfl | exact rfl | with_reducible apply State.logYield_keeps
    | with_reducible apply State.wakeCell_keeps | with_reducible apply State.standAt_keeps
    | with_reducible apply State.abandonDrain_keeps | with_reducible apply State.sat_keeps
    | with_reducible apply State.releaseHold_keeps | with_reducible apply ite_keeps | with_reducible apply foldl_keeps
    | with_reducible refine getD_keeps (fun _ _ => ?_) ?_ | intro _ | cases ‹(_, _) = (_, _)› | cases ‹some _ = some _›
    | cases ‹none = some _›
    | fail_if_no_progress with_reducible refine mk_keeps ?_ rfl rfl rfl (by and_intros <;> first | exact .inr (by with_reducible rfl) | exact .inl (sub_of hp rfl)) | dsimp only | split
theorem State.arrive_keeps {P : ℕ} {s0 s : State} (hp : 51714 &&& P = 51714) (h : Keeps P s0 s) (a1 : Pkt) (a2 : State → State) (hk : ∀ t, Keeps P s0 t → Keeps P s0 (a2 t)) : Keeps P s0 (State.arrive s a1 a2) := by
  unfold State.arrive
  repeat' first
    | with_reducible assumption | exact sub_of hp rfl | exact rfl | apply hk
    | with_reducible apply State.holdArrival_keeps | with_reducible apply State.lose_keeps
    | with_reducible apply State.take_keeps | with_reducible apply State.sat_keeps | with_reducible apply ite_keeps
    | with_reducible apply foldl_keeps | with_reducible refine getD_keeps (fun _ _ => ?_) ?_ | intro _
    | cases ‹(_, _) = (_, _)› | cases ‹some _ = some _› | cases ‹none = some _›
    | fail_if_no_progress with_reducible refine mk_keeps ?_ rfl rfl rfl (by and_intros <;> first | exact .inr (by with_reducible rfl) | exact .inl (sub_of hp rfl)) | dsimp only | split

/-! ### Machine/Scrim -/

theorem State.forwardUnit_keeps {P : ℕ} {s0 s : State} (hp : 51714 &&& P = 51714) (h : Keeps P s0 s) (a1 : Cell) (a2 : Dir) (a3 : Pkt) (a4 : ℕ) (a5 : ℕ) : Keeps P s0 (State.forwardUnit s a1 a2 a3 a4 a5) := by
  unfold State.forwardUnit
  repeat' first
    | with_reducible assumption | exact sub_of hp rfl | exact rfl | with_reducible apply State.bufPut_keeps
    | with_reducible apply State.holdArrival_keeps | with_reducible apply State.lose_keeps
    | with_reducible apply State.ejectAll_keeps | with_reducible apply State.sat_keeps | with_reducible apply ite_keeps
    | with_reducible apply foldl_keeps | with_reducible refine getD_keeps (fun _ _ => ?_) ?_ | intro _
    | cases ‹(_, _) = (_, _)› | cases ‹some _ = some _› | cases ‹none = some _›
    | fail_if_no_progress with_reducible refine mk_keeps ?_ rfl rfl rfl (by and_intros <;> first | exact .inr (by with_reducible rfl) | exact .inl (sub_of hp rfl)) | dsimp only | split
theorem State.staleFep_keeps_eq {P : ℕ} {s0 s t : State} (hp : 2562 &&& P = 2562) {a1 : Cell} {a2 : Pkt} {r} (e : State.staleFep s a1 a2 = (t, r)) (h : Keeps P s0 s) : Keeps P s0 t := by
  unfold State.staleFep at e
  repeat' first
    | split at e | with_reducible assumption | exact sub_of hp rfl | exact rfl | with_reducible apply State.lose_keeps
    | with_reducible apply State.sat_keeps | with_reducible apply ite_keeps | with_reducible apply foldl_keeps
    | with_reducible refine getD_keeps (fun _ _ => ?_) ?_ | intro _ | cases ‹(_, _) = (_, _)› | cases ‹some _ = some _›
    | cases ‹none = some _›
    | fail_if_no_progress with_reducible refine mk_keeps ?_ rfl rfl rfl (by and_intros <;> first | exact .inr (by with_reducible rfl) | exact .inl (sub_of hp rfl)) | dsimp only | dsimp only at e | split
theorem State.staleFep_keeps {P : ℕ} {s0 s : State} (hp : 2562 &&& P = 2562) (h : Keeps P s0 s) (a1 : Cell) (a2 : Pkt) : Keeps P s0 (State.staleFep s a1 a2).1 :=
  State.staleFep_keeps_eq hp (Prod.mk.eta (p := State.staleFep s a1 a2)).symm h
theorem State.keepFlit_keeps {P : ℕ} {s0 s : State} (hp : 512 &&& P = 512) (h : Keeps P s0 s) (a1 : Cell) (a2 : Dir) (a3 : Pkt) (a4 : ℕ) : Keeps P s0 (State.keepFlit s a1 a2 a3 a4) := by
  unfold State.keepFlit
  repeat' first
    | with_reducible assumption | exact sub_of hp rfl | exact rfl | with_reducible apply ite_keeps
    | with_reducible apply foldl_keeps | with_reducible refine getD_keeps (fun _ _ => ?_) ?_ | intro _
    | cases ‹(_, _) = (_, _)› | cases ‹some _ = some _› | cases ‹none = some _›
    | fail_if_no_progress with_reducible refine mk_keeps ?_ rfl rfl rfl (by and_intros <;> first | exact .inr (by with_reducible rfl) | exact .inl (sub_of hp rfl)) | dsimp only | split
theorem State.goodUnit_keeps {P : ℕ} {s0 s : State} (hp : 51714 &&& P = 51714) (h : Keeps P s0 s) (a1 : Cell) (a2 : Dir) (a3 : Pkt) (a4 : ℕ) : Keeps P s0 (State.goodUnit s a1 a2 a3 a4) := by
  unfold State.goodUnit
  split
  · exact h
  · rename_i e
    split at e
    · have h1 := State.offered_keeps_eq (sub_of hp rfl) e h
      extract_lets pool u k v
      have h2 : Keeps P s0 u := by
        dsimp only [u]
        split
        · exact State.xingPass_keeps (sub_of hp rfl) h1 _ _
        · exact State.keepFlit_keeps (sub_of hp rfl) h1 _ _ _ _
      clear_value u
      have h3 : Keeps P s0 v := by
        dsimp only [v]
        split
        · exact State.boundary_keeps (sub_of hp rfl) h2 _ _ _ _
        · exact h2
      clear_value v
      refine ite_keeps (fun _ => ?_) fun _ => State.forwardUnit_keeps (sub_of hp rfl) (mk_keeps h3 rfl rfl rfl (by and_intros <;> first | exact .inr (by with_reducible rfl) | exact .inl (sub_of hp rfl))) _ _ _ _ _
      split
      · rename_i e
        exact State.staleFep_keeps_eq (sub_of hp rfl) e h3
      · rename_i e
        have h4 := State.moveTo_keeps (sub_of hp rfl) (State.staleFep_keeps_eq (sub_of hp rfl) e h3)
        refine State.forwardUnit_keeps (sub_of hp rfl) (ite_keeps (fun _ => h4 _ _ _) fun _ => mk_keeps (h4 _ _ _) rfl rfl rfl (by and_intros <;> first | exact .inr (by with_reducible rfl) | exact .inl (sub_of hp rfl))) _ _ _ _ _
    · cases e
theorem State.rejected_keeps {P : ℕ} {s0 s : State} (hp : 512 &&& P = 512) (h : Keeps P s0 s) (a1 : Cell) (a2 : Dir) (a3 : Pkt) (a4 : ℕ) : Keeps P s0 (State.rejected s a1 a2 a3 a4) := by
  unfold State.rejected
  repeat' first
    | with_reducible assumption | exact sub_of hp rfl | exact rfl
    | refine State.offered_keeps_eq (sub_of hp rfl) (by assumption) ?_ | with_reducible apply State.keepFlit_keeps
    | with_reducible apply ite_keeps | with_reducible apply foldl_keeps
    | with_reducible refine getD_keeps (fun _ _ => ?_) ?_ | intro _ | cases ‹(_, _) = (_, _)› | cases ‹some _ = some _›
    | cases ‹none = some _›
    | fail_if_no_progress with_reducible refine mk_keeps ?_ rfl rfl rfl (by and_intros <;> first | exact .inr (by with_reducible rfl) | exact .inl (sub_of hp rfl)) | dsimp only | split
theorem State.badUnit_keeps {P : ℕ} {s0 s : State} (hp : 514 &&& P = 514) (h : Keeps P s0 s) (a1 : Cell) (a2 : Dir) (a3 : Pkt) (a4 : ℕ) (a5 : Bool) (a6 : Bool) : Keeps P s0 (State.badUnit s a1 a2 a3 a4 a5 a6) := by
  unfold State.badUnit
  repeat' first
    | with_reducible assumption | exact sub_of hp rfl | exact rfl | with_reducible apply State.rejected_keeps
    | with_reducible apply State.sat_keeps | with_reducible apply ite_keeps | with_reducible apply foldl_keeps
    | with_reducible refine getD_keeps (fun _ _ => ?_) ?_ | intro _ | cases ‹(_, _) = (_, _)› | cases ‹some _ = some _›
    | cases ‹none = some _›
    | fail_if_no_progress with_reducible refine mk_keeps ?_ rfl rfl rfl (by and_intros <;> first | exact .inr (by with_reducible rfl) | exact .inl (sub_of hp rfl)) | dsimp only | split
theorem State.takeUnit_keeps {P : ℕ} {s0 s : State} (hp : 51714 &&& P = 51714) (h : Keeps P s0 s) (a1 : Cell) (a2 : Dir) (a3 : Pkt) (a4 : ℕ) (a5 : Ecc) (a6 : Bool) (a7 : Bool) : Keeps P s0 (State.takeUnit s a1 a2 a3 a4 a5 a6 a7) := by
  unfold State.takeUnit
  repeat' first
    | with_reducible assumption | exact sub_of hp rfl | exact rfl | with_reducible apply State.badUnit_keeps
    | with_reducible apply State.sat_keeps | with_reducible apply State.goodUnit_keeps | with_reducible apply ite_keeps
    | with_reducible apply foldl_keeps | with_reducible refine getD_keeps (fun _ _ => ?_) ?_ | intro _
    | cases ‹(_, _) = (_, _)› | cases ‹some _ = some _› | cases ‹none = some _›
    | fail_if_no_progress with_reducible refine mk_keeps ?_ rfl rfl rfl (by and_intros <;> first | exact .inr (by with_reducible rfl) | exact .inl (sub_of hp rfl)) | dsimp only | split
theorem execScrimReplayRequest_keeps_eq {P : ℕ} {s0 s t : State} (hp : 18946 &&& P = 18946) {a0 : Cell} {a1 : Dir} {a2 : Bool} (e : execScrimReplayRequest a0 a1 a2 s = .next t) (h : Keeps P s0 s) : Keeps P s0 t := by
  unfold execScrimReplayRequest at e
  repeat' first
    | cases ‹Host.Outcome.next _ = Host.Outcome.next _› | cases ‹Host.Outcome.refused _ = Host.Outcome.next _›
    | cases ‹Host.Outcome.fault _ = Host.Outcome.next _› | split at e | with_reducible assumption | exact sub_of hp rfl
    | exact rfl | with_reducible apply State.declareDead_keeps | with_reducible apply ite_keeps
    | with_reducible apply foldl_keeps | with_reducible refine getD_keeps (fun _ _ => ?_) ?_ | intro _
    | cases ‹(_, _) = (_, _)› | cases ‹some _ = some _› | cases ‹none = some _›
    | fail_if_no_progress with_reducible refine mk_keeps ?_ rfl rfl rfl (by and_intros <;> first | exact .inr (by with_reducible rfl) | exact .inl (sub_of hp rfl)) | dsimp only | dsimp only at e | split
theorem execHeartbeatSend_keeps_eq {P : ℕ} {s0 s t : State} (hp : 512 &&& P = 512) {a0 : Cell} {a1 : Dir} (e : execHeartbeatSend a0 a1 s = .next t) (h : Keeps P s0 s) : Keeps P s0 t := by
  unfold execHeartbeatSend at e
  repeat' first
    | cases ‹Host.Outcome.next _ = Host.Outcome.next _› | cases ‹Host.Outcome.refused _ = Host.Outcome.next _›
    | cases ‹Host.Outcome.fault _ = Host.Outcome.next _› | split at e | with_reducible assumption | exact sub_of hp rfl
    | exact rfl | with_reducible apply ite_keeps | with_reducible apply foldl_keeps
    | with_reducible refine getD_keeps (fun _ _ => ?_) ?_ | intro _ | cases ‹(_, _) = (_, _)› | cases ‹some _ = some _›
    | cases ‹none = some _›
    | fail_if_no_progress with_reducible refine mk_keeps ?_ rfl rfl rfl (by and_intros <;> first | exact .inr (by with_reducible rfl) | exact .inl (sub_of hp rfl)) | dsimp only | dsimp only at e | split
theorem execHeartbeatTimeout_keeps_eq {P : ℕ} {s0 s t : State} (hp : 18946 &&& P = 18946) {a0 : Cell} {a1 : Dir} (e : execHeartbeatTimeout a0 a1 s = .next t) (h : Keeps P s0 s) : Keeps P s0 t := by
  unfold execHeartbeatTimeout at e
  repeat' first
    | cases ‹Host.Outcome.next _ = Host.Outcome.next _› | cases ‹Host.Outcome.refused _ = Host.Outcome.next _›
    | cases ‹Host.Outcome.fault _ = Host.Outcome.next _› | split at e | with_reducible assumption | exact sub_of hp rfl
    | exact rfl | with_reducible apply State.declareDead_keeps | with_reducible apply ite_keeps
    | with_reducible apply foldl_keeps | with_reducible refine getD_keeps (fun _ _ => ?_) ?_ | intro _
    | cases ‹(_, _) = (_, _)› | cases ‹some _ = some _› | cases ‹none = some _›
    | fail_if_no_progress with_reducible refine mk_keeps ?_ rfl rfl rfl (by and_intros <;> first | exact .inr (by with_reducible rfl) | exact .inl (sub_of hp rfl)) | dsimp only | dsimp only at e | split
theorem execUcieLinkDown_keeps_eq {P : ℕ} {s0 s t : State} (hp : 18946 &&& P = 18946) {a0 : MeshLink} (e : execUcieLinkDown a0 s = .next t) (h : Keeps P s0 s) : Keeps P s0 t := by
  unfold execUcieLinkDown at e
  repeat' first
    | cases ‹Host.Outcome.next _ = Host.Outcome.next _› | cases ‹Host.Outcome.refused _ = Host.Outcome.next _›
    | cases ‹Host.Outcome.fault _ = Host.Outcome.next _› | split at e | with_reducible assumption | exact sub_of hp rfl
    | exact rfl | with_reducible apply State.declareDead_keeps | with_reducible apply ite_keeps
    | with_reducible apply foldl_keeps | with_reducible refine getD_keeps (fun _ _ => ?_) ?_ | intro _
    | cases ‹(_, _) = (_, _)› | cases ‹some _ = some _› | cases ‹none = some _›
    | fail_if_no_progress with_reducible refine mk_keeps ?_ rfl rfl rfl (by and_intros <;> first | exact .inr (by with_reducible rfl) | exact .inl (sub_of hp rfl)) | dsimp only | dsimp only at e | split
theorem State.fenceNotes_keeps {P : ℕ} {s0 s : State} (hp : 16898 &&& P = 16898) (h : Keeps P s0 s) (a1 : List Elem) (a2 : List Elem) : Keeps P s0 (State.fenceNotes s a1 a2) := by
  unfold State.fenceNotes
  repeat' first
    | with_reducible assumption | exact sub_of hp rfl | exact rfl | with_reducible apply State.openEpoch_keeps
    | with_reducible apply State.logFault_keeps | with_reducible apply ite_keeps | with_reducible apply foldl_keeps
    | with_reducible refine getD_keeps (fun _ _ => ?_) ?_ | intro _ | cases ‹(_, _) = (_, _)› | cases ‹some _ = some _›
    | cases ‹none = some _›
    | fail_if_no_progress with_reducible refine mk_keeps ?_ rfl rfl rfl (by and_intros <;> first | exact .inr (by with_reducible rfl) | exact .inl (sub_of hp rfl)) | dsimp only | split
theorem execFenceNote_keeps_eq {P : ℕ} {s0 s t : State} (hp : 16898 &&& P = 16898) {a0 : Elem} (e : execFenceNote a0 s = .next t) (h : Keeps P s0 s) : Keeps P s0 t := by
  unfold execFenceNote at e
  repeat' first
    | cases ‹Host.Outcome.next _ = Host.Outcome.next _› | cases ‹Host.Outcome.refused _ = Host.Outcome.next _›
    | cases ‹Host.Outcome.fault _ = Host.Outcome.next _› | split at e | with_reducible assumption | exact sub_of hp rfl
    | exact rfl | with_reducible apply State.fenceNotes_keeps | with_reducible apply ite_keeps
    | with_reducible apply foldl_keeps | with_reducible refine getD_keeps (fun _ _ => ?_) ?_ | intro _
    | cases ‹(_, _) = (_, _)› | cases ‹some _ = some _› | cases ‹none = some _›
    | fail_if_no_progress with_reducible refine mk_keeps ?_ rfl rfl rfl (by and_intros <;> first | exact .inr (by with_reducible rfl) | exact .inl (sub_of hp rfl)) | dsimp only | dsimp only at e | split
theorem execLathLpEntry_keeps_eq {P : ℕ} {s0 s t : State} (hp : 2 &&& P = 2) {a0 : Die} {a1 : Fin 4} (e : execLathLpEntry a0 a1 s = .next t) (h : Keeps P s0 s) : Keeps P s0 t := by
  unfold execLathLpEntry at e
  repeat' first
    | cases ‹Host.Outcome.next _ = Host.Outcome.next _› | cases ‹Host.Outcome.refused _ = Host.Outcome.next _›
    | cases ‹Host.Outcome.fault _ = Host.Outcome.next _› | split at e | with_reducible assumption | exact sub_of hp rfl
    | exact rfl | with_reducible apply State.wr_keeps | with_reducible apply ite_keeps | with_reducible apply foldl_keeps
    | with_reducible refine getD_keeps (fun _ _ => ?_) ?_ | intro _ | cases ‹(_, _) = (_, _)› | cases ‹some _ = some _›
    | cases ‹none = some _›
    | fail_if_no_progress with_reducible refine mk_keeps ?_ rfl rfl rfl (by and_intros <;> first | exact .inr (by with_reducible rfl) | exact .inl (sub_of hp rfl)) | dsimp only | dsimp only at e | split
theorem execLathLpExit_keeps_eq {P : ℕ} {s0 s t : State} (hp : 512 &&& P = 512) {a0 : Die} {a1 : Fin 4} {a2 : Cell} {a3 : Pkt} (e : execLathLpExit a0 a1 a2 a3 s = .next t) (h : Keeps P s0 s) : Keeps P s0 t := by
  unfold execLathLpExit at e
  repeat' first
    | cases ‹Host.Outcome.next _ = Host.Outcome.next _› | cases ‹Host.Outcome.refused _ = Host.Outcome.next _›
    | cases ‹Host.Outcome.fault _ = Host.Outcome.next _› | split at e | with_reducible assumption | exact sub_of hp rfl
    | exact rfl | with_reducible apply State.standAt_keeps | with_reducible apply ite_keeps
    | with_reducible apply foldl_keeps | with_reducible refine getD_keeps (fun _ _ => ?_) ?_ | intro _
    | cases ‹(_, _) = (_, _)› | cases ‹some _ = some _› | cases ‹none = some _›
    | fail_if_no_progress with_reducible refine mk_keeps ?_ rfl rfl rfl (by and_intros <;> first | exact .inr (by with_reducible rfl) | exact .inl (sub_of hp rfl)) | dsimp only | dsimp only at e | split
theorem execLathEdgeActive_keeps_eq {P : ℕ} {s0 s t : State} (hp : 514 &&& P = 514) {a0 : Die} {a1 : Fin 4} (e : execLathEdgeActive a0 a1 s = .next t) (h : Keeps P s0 s) : Keeps P s0 t := by
  unfold execLathEdgeActive at e
  repeat' first
    | cases ‹Host.Outcome.next _ = Host.Outcome.next _› | cases ‹Host.Outcome.refused _ = Host.Outcome.next _›
    | cases ‹Host.Outcome.fault _ = Host.Outcome.next _› | split at e | with_reducible assumption | exact sub_of hp rfl
    | exact rfl | with_reducible apply State.edgeWakes_keeps | with_reducible apply ite_keeps
    | with_reducible apply foldl_keeps | with_reducible refine getD_keeps (fun _ _ => ?_) ?_ | intro _
    | cases ‹(_, _) = (_, _)› | cases ‹some _ = some _› | cases ‹none = some _›
    | fail_if_no_progress with_reducible refine mk_keeps ?_ rfl rfl rfl (by and_intros <;> first | exact .inr (by with_reducible rfl) | exact .inl (sub_of hp rfl)) | dsimp only | dsimp only at e | split
theorem execSeamTrainComplete_keeps_eq {P : ℕ} {s0 s t : State} (hp : 16898 &&& P = 16898) {a0 : MeshLink} {a1 : Bool} (e : execSeamTrainComplete a0 a1 s = .next t) (h : Keeps P s0 s) : Keeps P s0 t := by
  unfold execSeamTrainComplete at e
  repeat' first
    | cases ‹Host.Outcome.next _ = Host.Outcome.next _› | cases ‹Host.Outcome.refused _ = Host.Outcome.next _›
    | cases ‹Host.Outcome.fault _ = Host.Outcome.next _› | split at e | with_reducible assumption | exact sub_of hp rfl
    | exact rfl | with_reducible apply State.failElem_keeps | with_reducible apply State.edgeTrained_keeps
    | with_reducible apply ite_keeps | with_reducible apply foldl_keeps
    | with_reducible refine getD_keeps (fun _ _ => ?_) ?_ | intro _ | cases ‹(_, _) = (_, _)› | cases ‹some _ = some _›
    | cases ‹none = some _›
    | fail_if_no_progress with_reducible refine mk_keeps ?_ rfl rfl rfl (by and_intros <;> first | exact .inr (by with_reducible rfl) | exact .inl (sub_of hp rfl)) | dsimp only | dsimp only at e | split
theorem execScrimSnap_keeps_eq {P : ℕ} {s0 s t : State} (hp : 514 &&& P = 514) {a0 : Cell} (e : execScrimSnap a0 s = .next t) (h : Keeps P s0 s) : Keeps P s0 t := by
  unfold execScrimSnap at e
  repeat' first
    | cases ‹Host.Outcome.next _ = Host.Outcome.next _› | cases ‹Host.Outcome.refused _ = Host.Outcome.next _›
    | cases ‹Host.Outcome.fault _ = Host.Outcome.next _› | split at e | with_reducible assumption | exact sub_of hp rfl
    | exact rfl | with_reducible apply State.wr_keeps | with_reducible apply ite_keeps | with_reducible apply foldl_keeps
    | with_reducible refine getD_keeps (fun _ _ => ?_) ?_ | intro _ | cases ‹(_, _) = (_, _)› | cases ‹some _ = some _›
    | cases ‹none = some _›
    | fail_if_no_progress with_reducible refine mk_keeps ?_ rfl rfl rfl (by and_intros <;> first | exact .inr (by with_reducible rfl) | exact .inl (sub_of hp rfl)) | dsimp only | dsimp only at e | split

/-! ### Machine/GateOps -/

theorem State.setCredit_keeps {P : ℕ} {s0 s : State} (hp : 2 &&& P = 2) (h : Keeps P s0 s) (a1 : Cell) (a2 : ℕ) (a3 : ℕ) (a4 : ℤ) : Keeps P s0 (State.setCredit s a1 a2 a3 a4) := by
  unfold State.setCredit
  repeat' first
    | with_reducible assumption | exact sub_of hp rfl | exact rfl | with_reducible apply State.wr_keeps
    | with_reducible apply ite_keeps | with_reducible apply foldl_keeps
    | with_reducible refine getD_keeps (fun _ _ => ?_) ?_ | intro _ | cases ‹(_, _) = (_, _)› | cases ‹some _ = some _›
    | cases ‹none = some _›
    | fail_if_no_progress with_reducible refine mk_keeps ?_ rfl rfl rfl (by and_intros <;> first | exact .inr (by with_reducible rfl) | exact .inl (sub_of hp rfl)) | dsimp only | split
theorem State.shaperCycle_keeps {P : ℕ} {s0 s : State} (hp : 2 &&& P = 2) (h : Keeps P s0 s) (a1 : Cell) (a2 : ℕ) (a3 : ℕ) : Keeps P s0 (State.shaperCycle s a1 a2 a3) := by
  unfold State.shaperCycle
  repeat' first
    | with_reducible assumption | exact sub_of hp rfl | exact rfl | with_reducible apply State.setCredit_keeps
    | with_reducible apply ite_keeps | with_reducible apply foldl_keeps
    | with_reducible refine getD_keeps (fun _ _ => ?_) ?_ | intro _ | cases ‹(_, _) = (_, _)› | cases ‹some _ = some _›
    | cases ‹none = some _›
    | fail_if_no_progress with_reducible refine mk_keeps ?_ rfl rfl rfl (by and_intros <;> first | exact .inr (by with_reducible rfl) | exact .inl (sub_of hp rfl)) | dsimp only | split
theorem State.shapersCycle_keeps {P : ℕ} {s0 s : State} (hp : 2 &&& P = 2) (h : Keeps P s0 s) : Keeps P s0 (State.shapersCycle s) := by
  unfold State.shapersCycle
  repeat' first
    | with_reducible assumption | exact sub_of hp rfl | exact rfl | with_reducible apply State.shaperCycle_keeps
    | with_reducible apply ite_keeps | with_reducible apply foldl_keeps
    | with_reducible refine getD_keeps (fun _ _ => ?_) ?_ | intro _ | cases ‹(_, _) = (_, _)› | cases ‹some _ = some _›
    | cases ‹none = some _›
    | fail_if_no_progress with_reducible refine mk_keeps ?_ rfl rfl rfl (by and_intros <;> first | exact .inr (by with_reducible rfl) | exact .inl (sub_of hp rfl)) | dsimp only | split
theorem State.observeStart_keeps {P : ℕ} {s0 s : State} (hp : 4096 &&& P = 4096) (h : Keeps P s0 s) (a1 : Cell) (a2 : ℕ) (a3 : ℕ) (a4 : ℕ) : Keeps P s0 (State.observeStart s a1 a2 a3 a4) := by
  unfold State.observeStart
  repeat' first
    | with_reducible assumption | exact sub_of hp rfl | exact rfl | with_reducible apply ite_keeps
    | with_reducible apply foldl_keeps | with_reducible refine getD_keeps (fun _ _ => ?_) ?_ | intro _
    | cases ‹(_, _) = (_, _)› | cases ‹some _ = some _› | cases ‹none = some _›
    | fail_if_no_progress with_reducible refine mk_keeps ?_ rfl rfl rfl (by and_intros <;> first | exact .inr (by with_reducible rfl) | exact .inl (sub_of hp rfl)) | dsimp only | split
theorem State.sampleDepth_keeps {P : ℕ} {s0 s : State} (hp : 4096 &&& P = 4096) (h : Keeps P s0 s) (a1 : Cell) : Keeps P s0 (State.sampleDepth s a1) := by
  unfold State.sampleDepth
  repeat' first
    | with_reducible assumption | exact sub_of hp rfl | exact rfl | with_reducible apply ite_keeps
    | with_reducible apply foldl_keeps | with_reducible refine getD_keeps (fun _ _ => ?_) ?_ | intro _
    | cases ‹(_, _) = (_, _)› | cases ‹some _ = some _› | cases ‹none = some _›
    | fail_if_no_progress with_reducible refine mk_keeps ?_ rfl rfl rfl (by and_intros <;> first | exact .inr (by with_reducible rfl) | exact .inl (sub_of hp rfl)) | dsimp only | split
theorem State.copyLive_keeps {P : ℕ} {s0 s : State} (hp : 4098 &&& P = 4098) (h : Keeps P s0 s) (a1 : Cell) (a2 : ℕ) (a3 : ObsLive) : Keeps P s0 (State.copyLive s a1 a2 a3) := by
  unfold State.copyLive
  repeat' first
    | with_reducible assumption | exact sub_of hp rfl | exact rfl | with_reducible apply State.wr_keeps
    | with_reducible apply ite_keeps | with_reducible apply foldl_keeps
    | with_reducible refine getD_keeps (fun _ _ => ?_) ?_ | intro _ | cases ‹(_, _) = (_, _)› | cases ‹some _ = some _›
    | cases ‹none = some _›
    | fail_if_no_progress with_reducible refine mk_keeps ?_ rfl rfl rfl (by and_intros <;> first | exact .inr (by with_reducible rfl) | exact .inl (sub_of hp rfl)) | dsimp only | split
theorem State.queueRec_keeps {P : ℕ} {s0 s : State} (hp : 4098 &&& P = 4098) (h : Keeps P s0 s) (a1 : Cell) (a2 : ℕ) (a3 : ObsLive) : Keeps P s0 (State.queueRec s a1 a2 a3) := by
  unfold State.queueRec
  repeat' first
    | with_reducible assumption | exact sub_of hp rfl | exact rfl | with_reducible apply State.wr_keeps
    | with_reducible apply ite_keeps | with_reducible apply foldl_keeps
    | with_reducible refine getD_keeps (fun _ _ => ?_) ?_ | intro _ | cases ‹(_, _) = (_, _)› | cases ‹some _ = some _›
    | cases ‹none = some _›
    | fail_if_no_progress with_reducible refine mk_keeps ?_ rfl rfl rfl (by and_intros <;> first | exact .inr (by with_reducible rfl) | exact .inl (sub_of hp rfl)) | dsimp only | split
theorem State.copyQueue_keeps {P : ℕ} {s0 s : State} (hp : 4098 &&& P = 4098) (h : Keeps P s0 s) (a1 : Cell) (a2 : ℕ) : Keeps P s0 (State.copyQueue s a1 a2) := by
  unfold State.copyQueue
  repeat' first
    | with_reducible assumption | exact sub_of hp rfl | exact rfl | with_reducible apply State.copyLive_keeps
    | with_reducible apply State.queueRec_keeps | with_reducible apply ite_keeps | with_reducible apply foldl_keeps
    | with_reducible refine getD_keeps (fun _ _ => ?_) ?_ | intro _ | cases ‹(_, _) = (_, _)› | cases ‹some _ = some _›
    | cases ‹none = some _›
    | fail_if_no_progress with_reducible refine mk_keeps ?_ rfl rfl rfl (by and_intros <;> first | exact .inr (by with_reducible rfl) | exact .inl (sub_of hp rfl)) | dsimp only | split
theorem State.sendHist_keeps {P : ℕ} {s0 s : State} (hp : 4198416 &&& P = 4198416) (h : Keeps P s0 s) (a1 : Cell) : Keeps P s0 (State.sendHist s a1) := by
  unfold State.sendHist
  repeat' first
    | with_reducible assumption | exact sub_of hp rfl | exact rfl | with_reducible apply State.emit_keeps
    | with_reducible apply ite_keeps | with_reducible apply foldl_keeps
    | with_reducible refine getD_keeps (fun _ _ => ?_) ?_ | intro _ | cases ‹(_, _) = (_, _)› | cases ‹some _ = some _›
    | cases ‹none = some _›
    | fail_if_no_progress with_reducible refine mk_keeps ?_ rfl rfl rfl (by and_intros <;> first | exact .inr (by with_reducible rfl) | exact .inl (sub_of hp rfl)) | dsimp only | split
theorem State.copyObs_keeps {P : ℕ} {s0 s : State} (hp : 4198418 &&& P = 4198418) (h : Keeps P s0 s) (a1 : Cell) (a2 : Bool) : Keeps P s0 (State.copyObs s a1 a2) := by
  unfold State.copyObs
  repeat' first
    | with_reducible assumption | exact sub_of hp rfl | exact rfl | with_reducible apply State.copyQueue_keeps
    | with_reducible apply State.sendHist_keeps | with_reducible apply ite_keeps | with_reducible apply foldl_keeps
    | with_reducible refine getD_keeps (fun _ _ => ?_) ?_ | intro _ | cases ‹(_, _) = (_, _)› | cases ‹some _ = some _›
    | cases ‹none = some _›
    | fail_if_no_progress with_reducible refine mk_keeps ?_ rfl rfl rfl (by and_intros <;> first | exact .inr (by with_reducible rfl) | exact .inl (sub_of hp rfl)) | dsimp only | split

/-! ### Machine/SpillOps -/

theorem State.chargeGran_keeps {P : ℕ} {s0 s : State} (hp : 1026 &&& P = 1026) (h : Keeps P s0 s) (a1 : Cell) (a2 : ℕ) (a3 : ℕ) (a4 : ℕ) (a5 : Bool) : Keeps P s0 (State.chargeGran s a1 a2 a3 a4 a5) := by
  unfold State.chargeGran
  repeat' first
    | with_reducible assumption | exact sub_of hp rfl | exact rfl | with_reducible apply State.inc_keeps
    | with_reducible apply State.dec_keeps | with_reducible apply ite_keeps | with_reducible apply foldl_keeps
    | with_reducible refine getD_keeps (fun _ _ => ?_) ?_ | intro _ | cases ‹(_, _) = (_, _)› | cases ‹some _ = some _›
    | cases ‹none = some _›
    | fail_if_no_progress with_reducible refine mk_keeps ?_ rfl rfl rfl (by and_intros <;> first | exact .inr (by with_reducible rfl) | exact .inl (sub_of hp rfl)) | dsimp only | split
theorem State.showShared_keeps {P : ℕ} {s0 s : State} (hp : 2 &&& P = 2) (h : Keeps P s0 s) (a1 : Cell) : Keeps P s0 (State.showShared s a1) := by
  unfold State.showShared
  repeat' first
    | with_reducible assumption | exact sub_of hp rfl | exact rfl | with_reducible apply State.wr_keeps
    | with_reducible apply ite_keeps | with_reducible apply foldl_keeps
    | with_reducible refine getD_keeps (fun _ _ => ?_) ?_ | intro _ | cases ‹(_, _) = (_, _)› | cases ‹some _ = some _›
    | cases ‹none = some _›
    | fail_if_no_progress with_reducible refine mk_keeps ?_ rfl rfl rfl (by and_intros <;> first | exact .inr (by with_reducible rfl) | exact .inl (sub_of hp rfl)) | dsimp only | split
theorem State.freeGran_keeps {P : ℕ} {s0 s : State} (hp : 1026 &&& P = 1026) (h : Keeps P s0 s) (a1 : Cell) (a2 : ℕ) (a3 : ℕ) (a4 : ℕ) (a5 : Bool) : Keeps P s0 (State.freeGran s a1 a2 a3 a4 a5) := by
  unfold State.freeGran
  repeat' first
    | with_reducible assumption | exact sub_of hp rfl | exact rfl | with_reducible apply State.showShared_keeps
    | with_reducible apply State.inc_keeps | with_reducible apply State.dec_keeps | with_reducible apply ite_keeps
    | with_reducible apply foldl_keeps | with_reducible refine getD_keeps (fun _ _ => ?_) ?_ | intro _
    | cases ‹(_, _) = (_, _)› | cases ‹some _ = some _› | cases ‹none = some _›
    | fail_if_no_progress with_reducible refine mk_keeps ?_ rfl rfl rfl (by and_intros <;> first | exact .inr (by with_reducible rfl) | exact .inl (sub_of hp rfl)) | dsimp only | split
theorem State.resize_keeps {P : ℕ} {s0 s : State} (hp : 2 &&& P = 2) (h : Keeps P s0 s) (a1 : Cell) (a2 : ℕ) : Keeps P s0 (State.resize s a1 a2) := by
  unfold State.resize
  repeat' first
    | with_reducible assumption | exact sub_of hp rfl | exact rfl | with_reducible apply State.showShared_keeps
    | with_reducible apply State.wr_keeps | with_reducible apply ite_keeps | with_reducible apply foldl_keeps
    | with_reducible refine getD_keeps (fun _ _ => ?_) ?_ | intro _ | cases ‹(_, _) = (_, _)› | cases ‹some _ = some _›
    | cases ‹none = some _›
    | fail_if_no_progress with_reducible refine mk_keeps ?_ rfl rfl rfl (by and_intros <;> first | exact .inr (by with_reducible rfl) | exact .inl (sub_of hp rfl)) | dsimp only | split
theorem State.bufFresh_keeps {P : ℕ} {s0 s : State} (hp : 2 &&& P = 2) (h : Keeps P s0 s) (a1 : Cell) : Keeps P s0 (State.bufFresh s a1) := by
  unfold State.bufFresh
  repeat' first
    | with_reducible assumption | exact sub_of hp rfl | exact rfl | with_reducible apply State.showShared_keeps
    | with_reducible apply State.wr_keeps | with_reducible apply ite_keeps | with_reducible apply foldl_keeps
    | with_reducible refine getD_keeps (fun _ _ => ?_) ?_ | intro _ | cases ‹(_, _) = (_, _)› | cases ‹some _ = some _›
    | cases ‹none = some _›
    | fail_if_no_progress with_reducible refine mk_keeps ?_ rfl rfl rfl (by and_intros <;> first | exact .inr (by with_reducible rfl) | exact .inl (sub_of hp rfl)) | dsimp only | split
theorem State.showPool_keeps {P : ℕ} {s0 s : State} (hp : 2 &&& P = 2) (h : Keeps P s0 s) (a1 : ℕ) : Keeps P s0 (State.showPool s a1) := by
  unfold State.showPool
  repeat' first
    | with_reducible assumption | exact sub_of hp rfl | exact rfl | with_reducible apply State.wr_keeps
    | with_reducible apply ite_keeps | with_reducible apply foldl_keeps
    | with_reducible refine getD_keeps (fun _ _ => ?_) ?_ | intro _ | cases ‹(_, _) = (_, _)› | cases ‹some _ = some _›
    | cases ‹none = some _›
    | fail_if_no_progress with_reducible refine mk_keeps ?_ rfl rfl rfl (by and_intros <;> first | exact .inr (by with_reducible rfl) | exact .inl (sub_of hp rfl)) | dsimp only | split
theorem State.showUse_keeps {P : ℕ} {s0 s : State} (hp : 2 &&& P = 2) (h : Keeps P s0 s) (a1 : Cell) : Keeps P s0 (State.showUse s a1) := by
  unfold State.showUse
  repeat' first
    | with_reducible assumption | exact sub_of hp rfl | exact rfl | with_reducible apply State.wr_keeps
    | with_reducible apply ite_keeps | with_reducible apply foldl_keeps
    | with_reducible refine getD_keeps (fun _ _ => ?_) ?_ | intro _ | cases ‹(_, _) = (_, _)› | cases ‹some _ = some _›
    | cases ‹none = some _›
    | fail_if_no_progress with_reducible refine mk_keeps ?_ rfl rfl rfl (by and_intros <;> first | exact .inr (by with_reducible rfl) | exact .inl (sub_of hp rfl)) | dsimp only | split
theorem State.showShare_keeps {P : ℕ} {s0 s : State} (hp : 2 &&& P = 2) (h : Keeps P s0 s) (a1 : Cell) (a2 : ℕ) : Keeps P s0 (State.showShare s a1 a2) := by
  unfold State.showShare
  repeat' first
    | with_reducible assumption | exact sub_of hp rfl | exact rfl | with_reducible apply State.showPool_keeps
    | with_reducible apply State.showUse_keeps | with_reducible apply ite_keeps | with_reducible apply foldl_keeps
    | with_reducible refine getD_keeps (fun _ _ => ?_) ?_ | intro _ | cases ‹(_, _) = (_, _)› | cases ‹some _ = some _›
    | cases ‹none = some _›
    | fail_if_no_progress with_reducible refine mk_keeps ?_ rfl rfl rfl (by and_intros <;> first | exact .inr (by with_reducible rfl) | exact .inl (sub_of hp rfl)) | dsimp only | split
theorem State.freeChunk_keeps {P : ℕ} {s0 s : State} (hp : 2050 &&& P = 2050) (h : Keeps P s0 s) (a1 : Cell) (a2 : ℕ) (a3 : ℕ) : Keeps P s0 (State.freeChunk s a1 a2 a3) := by
  unfold State.freeChunk
  repeat' first
    | with_reducible assumption | exact sub_of hp rfl | exact rfl | with_reducible apply State.showShare_keeps
    | with_reducible apply ite_keeps | with_reducible apply foldl_keeps
    | with_reducible refine getD_keeps (fun _ _ => ?_) ?_ | intro _ | cases ‹(_, _) = (_, _)› | cases ‹some _ = some _›
    | cases ‹none = some _›
    | fail_if_no_progress with_reducible refine mk_keeps ?_ rfl rfl rfl (by and_intros <;> first | exact .inr (by with_reducible rfl) | exact .inl (sub_of hp rfl)) | dsimp only | split
theorem State.setSpare_keeps {P : ℕ} {s0 s : State} (hp : 2050 &&& P = 2050) (h : Keeps P s0 s) (a1 : Cell) (a2 : List ℕ) : Keeps P s0 (State.setSpare s a1 a2) := by
  unfold State.setSpare
  repeat' first
    | with_reducible assumption | exact sub_of hp rfl | exact rfl | with_reducible apply State.wr_keeps
    | with_reducible apply ite_keeps | with_reducible apply foldl_keeps
    | with_reducible refine getD_keeps (fun _ _ => ?_) ?_ | intro _ | cases ‹(_, _) = (_, _)› | cases ‹some _ = some _›
    | cases ‹none = some _›
    | fail_if_no_progress with_reducible refine mk_keeps ?_ rfl rfl rfl (by and_intros <;> first | exact .inr (by with_reducible rfl) | exact .inl (sub_of hp rfl)) | dsimp only | split
theorem State.setSctx_keeps {P : ℕ} {s0 s : State} (hp : 2048 &&& P = 2048) (h : Keeps P s0 s) (a1 : Cell) (a2 : ℕ) (a3 : SpillCtx) : Keeps P s0 (State.setSctx s a1 a2 a3) := by
  unfold State.setSctx
  repeat' first
    | with_reducible assumption | exact sub_of hp rfl | exact rfl | with_reducible apply ite_keeps
    | with_reducible apply foldl_keeps | with_reducible refine getD_keeps (fun _ _ => ?_) ?_ | intro _
    | cases ‹(_, _) = (_, _)› | cases ‹some _ = some _› | cases ‹none = some _›
    | fail_if_no_progress with_reducible refine mk_keeps ?_ rfl rfl rfl (by and_intros <;> first | exact .inr (by with_reducible rfl) | exact .inl (sub_of hp rfl)) | dsimp only | split
theorem State.writeRest_keeps {P : ℕ} {s0 s : State} (hp : 2050 &&& P = 2050) (h : Keeps P s0 s) (a1 : Cell) (a2 : ℕ) : Keeps P s0 (State.writeRest s a1 a2) := by
  unfold State.writeRest
  repeat' first
    | with_reducible assumption | exact sub_of hp rfl | exact rfl | with_reducible apply State.setSctx_keeps
    | with_reducible apply State.setSpare_keeps | with_reducible apply ite_keeps | with_reducible apply foldl_keeps
    | with_reducible refine getD_keeps (fun _ _ => ?_) ?_ | intro _ | cases ‹(_, _) = (_, _)› | cases ‹some _ = some _›
    | cases ‹none = some _›
    | fail_if_no_progress with_reducible refine mk_keeps ?_ rfl rfl rfl (by and_intros <;> first | exact .inr (by with_reducible rfl) | exact .inl (sub_of hp rfl)) | dsimp only | split
theorem State.writeFrame_keeps {P : ℕ} {s0 s : State} (hp : 3586 &&& P = 3586) (h : Keeps P s0 s) (a1 : Cell) (a2 : ℕ) (a3 : Frame) : Keeps P s0 (State.writeFrame s a1 a2 a3) := by
  unfold State.writeFrame
  repeat' first
    | with_reducible assumption | exact sub_of hp rfl | exact rfl | with_reducible apply State.writeRest_keeps
    | with_reducible apply State.setSctx_keeps | with_reducible apply State.lose_keeps
    | with_reducible apply State.freeGran_keeps | with_reducible apply State.sat_keeps | with_reducible apply ite_keeps
    | with_reducible apply foldl_keeps | with_reducible refine getD_keeps (fun _ _ => ?_) ?_ | intro _
    | cases ‹(_, _) = (_, _)› | cases ‹some _ = some _› | cases ‹none = some _›
    | fail_if_no_progress with_reducible refine mk_keeps ?_ rfl rfl rfl (by and_intros <;> first | exact .inr (by with_reducible rfl) | exact .inl (sub_of hp rfl)) | dsimp only | split
theorem State.writeWaiting_keeps {P : ℕ} {s0 s : State} (hp : 3586 &&& P = 3586) (h : Keeps P s0 s) (a1 : Cell) : Keeps P s0 (State.writeWaiting s a1) := by
  unfold State.writeWaiting
  repeat' first
    | with_reducible assumption | exact sub_of hp rfl | exact rfl | with_reducible apply State.writeRest_keeps
    | with_reducible apply State.setSctx_keeps | with_reducible apply State.writeFrame_keeps
    | with_reducible apply ite_keeps | with_reducible apply foldl_keeps
    | with_reducible refine getD_keeps (fun _ _ => ?_) ?_ | intro _ | cases ‹(_, _) = (_, _)› | cases ‹some _ = some _›
    | cases ‹none = some _›
    | fail_if_no_progress with_reducible refine mk_keeps ?_ rfl rfl rfl (by and_intros <;> first | exact .inr (by with_reducible rfl) | exact .inl (sub_of hp rfl)) | dsimp only | split
theorem State.markWaiting_keeps {P : ℕ} {s0 s : State} (hp : 2048 &&& P = 2048) (h : Keeps P s0 s) (a1 : Cell) (a2 : BitVec 129) : Keeps P s0 (State.markWaiting s a1 a2) := by
  unfold State.markWaiting
  repeat' first
    | with_reducible assumption | exact sub_of hp rfl | exact rfl | with_reducible apply State.setSctx_keeps
    | with_reducible apply ite_keeps | with_reducible apply foldl_keeps
    | with_reducible refine getD_keeps (fun _ _ => ?_) ?_ | intro _ | cases ‹(_, _) = (_, _)› | cases ‹some _ = some _›
    | cases ‹none = some _›
    | fail_if_no_progress with_reducible refine mk_keeps ?_ rfl rfl rfl (by and_intros <;> first | exact .inr (by with_reducible rfl) | exact .inl (sub_of hp rfl)) | dsimp only | split
theorem State.openCtx_keeps {P : ℕ} {s0 s : State} (hp : 2050 &&& P = 2050) (h : Keeps P s0 s) (a1 : Cell) (a2 : ℕ) (a3 : ℕ) (a4 : ℕ) (a5 : ℕ) : Keeps P s0 (State.openCtx s a1 a2 a3 a4 a5) := by
  unfold State.openCtx
  repeat' first
    | with_reducible assumption | exact sub_of hp rfl | exact rfl | with_reducible apply State.setSctx_keeps
    | with_reducible apply State.setSpare_keeps | with_reducible apply State.inc_keeps | with_reducible apply ite_keeps
    | with_reducible apply foldl_keeps | with_reducible refine getD_keeps (fun _ _ => ?_) ?_ | intro _
    | cases ‹(_, _) = (_, _)› | cases ‹some _ = some _› | cases ‹none = some _›
    | fail_if_no_progress with_reducible refine mk_keeps ?_ rfl rfl rfl (by and_intros <;> first | exact .inr (by with_reducible rfl) | exact .inl (sub_of hp rfl)) | dsimp only | split
theorem State.spillTo_keeps {P : ℕ} {s0 s : State} (hp : 2050 &&& P = 2050) (h : Keeps P s0 s) (a1 : Cell) (a2 : ℕ) : Keeps P s0 (State.spillTo s a1 a2) := by
  unfold State.spillTo
  repeat' first
    | with_reducible assumption | exact sub_of hp rfl | exact rfl | with_reducible apply State.setSpare_keeps
    | with_reducible apply State.wr_keeps | with_reducible apply State.freeChunk_keeps | with_reducible apply ite_keeps
    | with_reducible apply foldl_keeps | with_reducible refine getD_keeps (fun _ _ => ?_) ?_ | intro _
    | cases ‹(_, _) = (_, _)› | cases ‹some _ = some _› | cases ‹none = some _›
    | fail_if_no_progress with_reducible refine mk_keeps ?_ rfl rfl rfl (by and_intros <;> first | exact .inr (by with_reducible rfl) | exact .inl (sub_of hp rfl)) | dsimp only | split
theorem State.spillHome_keeps {P : ℕ} {s0 s : State} (hp : 2050 &&& P = 2050) (h : Keeps P s0 s) (a1 : Cell) : Keeps P s0 (State.spillHome s a1) := by
  unfold State.spillHome
  repeat' first
    | with_reducible assumption | exact sub_of hp rfl | exact rfl | with_reducible apply State.spillTo_keeps
    | with_reducible apply ite_keeps | with_reducible apply foldl_keeps
    | with_reducible refine getD_keeps (fun _ _ => ?_) ?_ | intro _ | cases ‹(_, _) = (_, _)› | cases ‹some _ = some _›
    | cases ‹none = some _›
    | fail_if_no_progress with_reducible refine mk_keeps ?_ rfl rfl rfl (by and_intros <;> first | exact .inr (by with_reducible rfl) | exact .inl (sub_of hp rfl)) | dsimp only | split
theorem State.closeCtx_keeps {P : ℕ} {s0 s : State} (hp : 2562 &&& P = 2562) (h : Keeps P s0 s) (a1 : Cell) (a2 : ℕ) (a3 : Bool) : Keeps P s0 (State.closeCtx s a1 a2 a3) := by
  unfold State.closeCtx
  repeat' first
    | with_reducible assumption | exact sub_of hp rfl | exact rfl | with_reducible apply State.setSpare_keeps
    | with_reducible apply State.spillHome_keeps | with_reducible apply State.freeChunk_keeps
    | with_reducible apply State.dec_keeps | with_reducible apply ite_keeps | with_reducible apply foldl_keeps
    | with_reducible refine getD_keeps (fun _ _ => ?_) ?_ | intro _ | cases ‹(_, _) = (_, _)› | cases ‹some _ = some _›
    | cases ‹none = some _›
    | fail_if_no_progress with_reducible refine mk_keeps ?_ rfl rfl rfl (by and_intros <;> first | exact .inr (by with_reducible rfl) | exact .inl (sub_of hp rfl)) | dsimp only | split
theorem State.readHead_keeps {P : ℕ} {s0 s : State} (hp : 2560 &&& P = 2560) (h : Keeps P s0 s) (a1 : Cell) (a2 : ℕ) : Keeps P s0 (State.readHead s a1 a2) := by
  unfold State.readHead
  repeat' first
    | with_reducible assumption | exact sub_of hp rfl | exact rfl | with_reducible apply State.setSctx_keeps
    | with_reducible apply State.xingPass_keeps | with_reducible apply State.send_keeps | with_reducible apply ite_keeps
    | with_reducible apply foldl_keeps | with_reducible refine getD_keeps (fun _ _ => ?_) ?_ | intro _
    | cases ‹(_, _) = (_, _)› | cases ‹some _ = some _› | cases ‹none = some _›
    | fail_if_no_progress with_reducible refine mk_keeps ?_ rfl rfl rfl (by and_intros <;> first | exact .inr (by with_reducible rfl) | exact .inl (sub_of hp rfl)) | dsimp only | split
theorem State.leaveFrame_keeps {P : ℕ} {s0 s : State} (hp : 2562 &&& P = 2562) (h : Keeps P s0 s) (a1 : Cell) (a2 : ℕ) (a3 : SpillCtx) (a4 : WFrame) : Keeps P s0 (State.leaveFrame s a1 a2 a3 a4) := by
  unfold State.leaveFrame
  repeat' first
    | with_reducible assumption | exact sub_of hp rfl | exact rfl | with_reducible apply State.closeCtx_keeps
    | with_reducible apply State.setSctx_keeps | with_reducible apply State.freeChunk_keeps
    | with_reducible apply State.dec_keeps | with_reducible apply State.readHead_keeps | with_reducible apply ite_keeps
    | with_reducible apply foldl_keeps | with_reducible refine getD_keeps (fun _ _ => ?_) ?_ | intro _
    | cases ‹(_, _) = (_, _)› | cases ‹some _ = some _› | cases ‹none = some _›
    | fail_if_no_progress with_reducible refine mk_keeps ?_ rfl rfl rfl (by and_intros <;> first | exact .inr (by with_reducible rfl) | exact .inl (sub_of hp rfl)) | dsimp only | split

/-! ### Machine/XbarOps -/

theorem State.setSlot_keeps {P : ℕ} {s0 s : State} (hp : 1024 &&& P = 1024) (h : Keeps P s0 s) (a1 : Cell) (a2 : Slot) (a3 : TSlot) : Keeps P s0 (State.setSlot s a1 a2 a3) := by
  unfold State.setSlot
  repeat' first
    | with_reducible assumption | exact sub_of hp rfl | exact rfl | with_reducible apply ite_keeps
    | with_reducible apply foldl_keeps | with_reducible refine getD_keeps (fun _ _ => ?_) ?_ | intro _
    | cases ‹(_, _) = (_, _)› | cases ‹some _ = some _› | cases ‹none = some _›
    | fail_if_no_progress with_reducible refine mk_keeps ?_ rfl rfl rfl (by and_intros <;> first | exact .inr (by with_reducible rfl) | exact .inl (sub_of hp rfl)) | dsimp only | split
theorem State.takeSlot_keeps {P : ℕ} {s0 s : State} (hp : 4195330 &&& P = 4195330) (h : Keeps P s0 s) (a1 : Cell) (a2 : Slot) (a3 : TSlot) : Keeps P s0 (State.takeSlot s a1 a2 a3) := by
  unfold State.takeSlot
  repeat' first
    | with_reducible assumption | exact sub_of hp rfl | exact rfl | with_reducible apply State.ctrEvent_keeps
    | with_reducible apply State.setSlot_keeps | with_reducible apply State.raise_keeps
    | with_reducible apply State.inc_keeps | with_reducible apply ite_keeps | with_reducible apply foldl_keeps
    | with_reducible refine getD_keeps (fun _ _ => ?_) ?_ | intro _ | cases ‹(_, _) = (_, _)› | cases ‹some _ = some _›
    | cases ‹none = some _›
    | fail_if_no_progress with_reducible refine mk_keeps ?_ rfl rfl rfl (by and_intros <;> first | exact .inr (by with_reducible rfl) | exact .inl (sub_of hp rfl)) | dsimp only | split
theorem State.freeKept_keeps {P : ℕ} {s0 s : State} (hp : 1026 &&& P = 1026) (h : Keeps P s0 s) (a1 : Cell) (a2 : Slot) : Keeps P s0 (State.freeKept s a1 a2) := by
  unfold State.freeKept
  repeat' first
    | with_reducible assumption | exact sub_of hp rfl | exact rfl | with_reducible apply State.freeGran_keeps
    | with_reducible apply ite_keeps | with_reducible apply foldl_keeps
    | with_reducible refine getD_keeps (fun _ _ => ?_) ?_ | intro _ | cases ‹(_, _) = (_, _)› | cases ‹some _ = some _›
    | cases ‹none = some _›
    | fail_if_no_progress with_reducible refine mk_keeps ?_ rfl rfl rfl (by and_intros <;> first | exact .inr (by with_reducible rfl) | exact .inl (sub_of hp rfl)) | dsimp only | split
theorem State.endReissue_keeps {P : ℕ} {s0 s : State} (hp : 16386 &&& P = 16386) (h : Keeps P s0 s) : Keeps P s0 (State.endReissue s) := by
  unfold State.endReissue
  repeat' first
    | with_reducible assumption | exact sub_of hp rfl | exact rfl | with_reducible apply State.logStep_keeps
    | with_reducible apply ite_keeps | with_reducible apply foldl_keeps
    | with_reducible refine getD_keeps (fun _ _ => ?_) ?_ | intro _ | cases ‹(_, _) = (_, _)› | cases ‹some _ = some _›
    | cases ‹none = some _›
    | fail_if_no_progress with_reducible refine mk_keeps ?_ rfl rfl rfl (by and_intros <;> first | exact .inr (by with_reducible rfl) | exact .inl (sub_of hp rfl)) | dsimp only | split
theorem State.reissueDone_keeps {P : ℕ} {s0 s : State} (hp : 16386 &&& P = 16386) (h : Keeps P s0 s) (a1 : Cell) (a2 : Slot) : Keeps P s0 (State.reissueDone s a1 a2) := by
  unfold State.reissueDone
  repeat' first
    | with_reducible assumption | exact sub_of hp rfl | exact rfl | with_reducible apply State.endReissue_keeps
    | with_reducible apply ite_keeps | with_reducible apply foldl_keeps
    | with_reducible refine getD_keeps (fun _ _ => ?_) ?_ | intro _ | cases ‹(_, _) = (_, _)› | cases ‹some _ = some _›
    | cases ‹none = some _›
    | fail_if_no_progress with_reducible refine mk_keeps ?_ rfl rfl rfl (by and_intros <;> first | exact .inr (by with_reducible rfl) | exact .inl (sub_of hp rfl)) | dsimp only | split
theorem State.freeSlot_keeps {P : ℕ} {s0 s : State} (hp : 17922 &&& P = 17922) (h : Keeps P s0 s) (a1 : Cell) (a2 : Slot) : Keeps P s0 (State.freeSlot s a1 a2) := by
  unfold State.freeSlot
  repeat' first
    | with_reducible assumption | exact sub_of hp rfl | exact rfl | with_reducible apply State.reissueDone_keeps
    | with_reducible apply State.freeKept_keeps | with_reducible apply State.dec_keeps | with_reducible apply ite_keeps
    | with_reducible apply foldl_keeps | with_reducible refine getD_keeps (fun _ _ => ?_) ?_ | intro _
    | cases ‹(_, _) = (_, _)› | cases ‹some _ = some _› | cases ‹none = some _›
    | fail_if_no_progress with_reducible refine mk_keeps ?_ rfl rfl rfl (by and_intros <;> first | exact .inr (by with_reducible rfl) | exact .inl (sub_of hp rfl)) | dsimp only | split
theorem State.setVoq_keeps {P : ℕ} {s0 s : State} (hp : 1024 &&& P = 1024) (h : Keeps P s0 s) (a1 : Cell) (a2 : ℕ) (a3 : ℕ) (a4 : ℕ) (a5 : List Frame) : Keeps P s0 (State.setVoq s a1 a2 a3 a4 a5) := by
  unfold State.setVoq
  repeat' first
    | with_reducible assumption | exact sub_of hp rfl | exact rfl | with_reducible apply ite_keeps
    | with_reducible apply foldl_keeps | with_reducible refine getD_keeps (fun _ _ => ?_) ?_ | intro _
    | cases ‹(_, _) = (_, _)› | cases ‹some _ = some _› | cases ‹none = some _›
    | fail_if_no_progress with_reducible refine mk_keeps ?_ rfl rfl rfl (by and_intros <;> first | exact .inr (by with_reducible rfl) | exact .inl (sub_of hp rfl)) | dsimp only | split
theorem State.joinVoq_keeps {P : ℕ} {s0 s : State} (hp : 17410 &&& P = 17410) (h : Keeps P s0 s) (a1 : Cell) (a2 : ℕ) (a3 : ℕ) (a4 : Frame) : Keeps P s0 (State.joinVoq s a1 a2 a3 a4) := by
  unfold State.joinVoq
  repeat' first
    | with_reducible assumption | exact sub_of hp rfl | exact rfl | with_reducible apply State.logYield_keeps
    | with_reducible apply State.setVoq_keeps | with_reducible apply ite_keeps | with_reducible apply foldl_keeps
    | with_reducible refine getD_keeps (fun _ _ => ?_) ?_ | intro _ | cases ‹(_, _) = (_, _)› | cases ‹some _ = some _›
    | cases ‹none = some _›
    | fail_if_no_progress with_reducible refine mk_keeps ?_ rfl rfl rfl (by and_intros <;> first | exact .inr (by with_reducible rfl) | exact .inl (sub_of hp rfl)) | dsimp only | split
theorem State.noteSkim_keeps {P : ℕ} {s0 s : State} (hp : 1024 &&& P = 1024) (h : Keeps P s0 s) (a1 : Cell) (a2 : ℕ) : Keeps P s0 (State.noteSkim s a1 a2) := by
  unfold State.noteSkim
  repeat' first
    | with_reducible assumption | exact sub_of hp rfl | exact rfl | with_reducible apply ite_keeps
    | with_reducible apply foldl_keeps | with_reducible refine getD_keeps (fun _ _ => ?_) ?_ | intro _
    | cases ‹(_, _) = (_, _)› | cases ‹some _ = some _› | cases ‹none = some _›
    | fail_if_no_progress with_reducible refine mk_keeps ?_ rfl rfl rfl (by and_intros <;> first | exact .inr (by with_reducible rfl) | exact .inl (sub_of hp rfl)) | dsimp only | split
theorem State.wheyOut_keeps {P : ℕ} {s0 s : State} (hp : 3586 &&& P = 3586) (h : Keeps P s0 s) (a1 : Cell) (a2 : ℕ) (a3 : Frame) : Keeps P s0 (State.wheyOut s a1 a2 a3) := by
  unfold State.wheyOut
  repeat' first
    | with_reducible assumption | exact sub_of hp rfl | exact rfl | with_reducible apply State.writeFrame_keeps
    | with_reducible apply ite_keeps | with_reducible apply foldl_keeps
    | with_reducible refine getD_keeps (fun _ _ => ?_) ?_ | intro _ | cases ‹(_, _) = (_, _)› | cases ‹some _ = some _›
    | cases ‹none = some _›
    | fail_if_no_progress with_reducible refine mk_keeps ?_ rfl rfl rfl (by and_intros <;> first | exact .inr (by with_reducible rfl) | exact .inl (sub_of hp rfl)) | dsimp only | split
theorem State.skim_keeps {P : ℕ} {s0 s : State} (hp : 4214274 &&& P = 4214274) (h : Keeps P s0 s) (a1 : Cell) (a2 : ℕ) (a3 : ℕ) (a4 : Frame) (a5 : ℕ × ℕ × ℕ × List Frame) (a6 : ℕ) : Keeps P s0 (State.skim s a1 a2 a3 a4 a5 a6) := by
  unfold State.skim
  obtain ⟨vi, vo, vt, fs⟩ := a5
  extract_lets src u ctx v w
  have h1 : Keeps P s0 v := State.chargeGran_keeps (sub_of hp rfl) (mk_keeps h rfl rfl rfl (by and_intros <;> first | exact .inr (by with_reducible rfl) | exact .inl (sub_of hp rfl))) _ _ _ _ _
  clear_value v
  have h2 : Keeps P s0 w := ite_keeps (fun _ => h1) fun _ => State.joinVoq_keeps (sub_of hp rfl) h1 _ _ _ _
  clear_value w
  dsimp only
  have h3 := fun l : List Frame => foldl_keeps (State.noteSkim_keeps (sub_of hp rfl) (State.ctrEvent_keeps (sub_of hp rfl) (State.inc_keeps (sub_of hp rfl) (State.openCtx_keeps (sub_of hp rfl)
    (State.setVoq_keeps (sub_of hp rfl) h2 a1 vi vo vt (l.take ((w.voqAt a1 vi vo vt).length - fs.length))) a1 a6 vi vo vt) (F.XBAR_SKIMS_COUNT a1) fs.length)
      a1 0x09 [vt] fs.length false none) a1 vt) (l := fs) (f := fun s w => s.wheyOut a1 a6 w) fun _ _ h => State.wheyOut_keeps (sub_of hp rfl) h _ _ _
  clear_value ctx
  split
  · exact State.wheyOut_keeps (sub_of hp rfl) (h3 _) _ _ _
  · exact h3 _
theorem State.tryAdmit_keeps_eq {P : ℕ} {s0 s t : State} (hp : 4214274 &&& P = 4214274) {a1 : Cell} {a2 : ℕ} {a3 : ℕ} {a4 : Frame} (e : State.tryAdmit s a1 a2 a3 a4 = some t) (h : Keeps P s0 s) : Keeps P s0 t := by
  unfold State.tryAdmit at e
  dsimp only at e
  have h1 : Keeps P s0 { s with xbar.admitAt := mset 0 s.xbar.admitAt (a1.val * 10 + a2) (s.cyc + 1) } := mk_keeps h rfl rfl rfl (by and_intros <;> first | exact .inr (by with_reducible rfl) | exact .inl (sub_of hp rfl))
  have h2 := State.chargeGran_keeps (sub_of hp rfl) h1
  split at e
  · cases e
  · split at e
    · split at e
      · split at e
        · cases e
          exact State.joinVoq_keeps (sub_of hp rfl) (h2 _ _ _ _ _) _ _ _ _
        · cases e
          exact State.wheyOut_keeps (sub_of hp rfl) (h2 _ _ _ _ _) _ _ _
      · cases e
        exact State.joinVoq_keeps (sub_of hp rfl) (h2 _ _ _ _ _) _ _ _ _
    · split at e
      · cases e
      · split at e
        · cases e
          exact State.skim_keeps (sub_of hp rfl) h1 _ _ _ _ _ _
        · cases e
theorem State.waitAt_keeps {P : ℕ} {s0 s : State} (hp : 1024 &&& P = 1024) (h : Keeps P s0 s) (a1 : Cell) (a2 : ℕ) (a3 : ℕ) (a4 : Frame) : Keeps P s0 (State.waitAt s a1 a2 a3 a4) := by
  unfold State.waitAt
  repeat' first
    | with_reducible assumption | exact sub_of hp rfl | exact rfl | with_reducible apply ite_keeps
    | with_reducible apply foldl_keeps | with_reducible refine getD_keeps (fun _ _ => ?_) ?_ | intro _
    | cases ‹(_, _) = (_, _)› | cases ‹some _ = some _› | cases ‹none = some _›
    | fail_if_no_progress with_reducible refine mk_keeps ?_ rfl rfl rfl (by and_intros <;> first | exact .inr (by with_reducible rfl) | exact .inl (sub_of hp rfl)) | dsimp only | split
theorem State.frameArrive_keeps {P : ℕ} {s0 s : State} (hp : 4214274 &&& P = 4214274) (h : Keeps P s0 s) (a1 : Cell) (a2 : ℕ) (a3 : ℕ) (a4 : Frame) : Keeps P s0 (State.frameArrive s a1 a2 a3 a4) := by
  unfold State.frameArrive
  extract_lets u
  have h1 : Keeps P s0 u := ite_keeps (fun _ => State.ctrEvent_keeps (sub_of hp rfl) h _ _ _ _ _ _) fun _ => h
  clear_value u
  refine ite_keeps (fun _ => h1) fun _ => ite_keeps (fun _ => State.lateDiscard_keeps (sub_of hp rfl) (State.take_keeps (sub_of hp rfl) h1 _) _) fun _ => ?_
  rename_i v _ _
  have h2 : Keeps P s0 v := ite_keeps (fun _ => State.deliver_keeps (sub_of hp rfl) h1 _) fun _ => h1
  clear_value v
  refine ite_keeps (fun _ => State.lose_keeps (sub_of hp rfl) h2 _) fun _ => ite_keeps (fun _ => State.waitAt_keeps (sub_of hp rfl) h2 _ _ _ _) fun _ => ?_
  split
  · rename_i e
    exact State.tryAdmit_keeps_eq (sub_of hp rfl) e h2
  · exact State.waitAt_keeps (sub_of hp rfl) h2 _ _ _ _
theorem State.admitWaiting_keeps {P : ℕ} {s0 s : State} (hp : 4214274 &&& P = 4214274) (h : Keeps P s0 s) (a1 : Cell) : Keeps P s0 (State.admitWaiting s a1) := by
  unfold State.admitWaiting
  refine foldl_fst_keeps h fun t b x h => ?_
  obtain ⟨i, o, f⟩ := x
  dsimp only
  split
  · exact h
  · split
    · rename_i e
      exact mk_keeps (State.tryAdmit_keeps_eq (sub_of hp rfl) e h) rfl rfl rfl (by and_intros <;> first | exact .inr (by with_reducible rfl) | exact .inl (sub_of hp rfl))
    · exact h
theorem State.reloadSample_keeps {P : ℕ} {s0 s : State} (hp : 1024 &&& P = 1024) (h : Keeps P s0 s) (a1 : Cell) (a2 : ℕ) : Keeps P s0 (State.reloadSample s a1 a2) := by
  unfold State.reloadSample
  repeat' first
    | with_reducible assumption | exact sub_of hp rfl | exact rfl | with_reducible apply ite_keeps
    | with_reducible apply foldl_keeps | with_reducible refine getD_keeps (fun _ _ => ?_) ?_ | intro _
    | cases ‹(_, _) = (_, _)› | cases ‹some _ = some _› | cases ‹none = some _›
    | fail_if_no_progress with_reducible refine mk_keeps ?_ rfl rfl rfl (by and_intros <;> first | exact .inr (by with_reducible rfl) | exact .inl (sub_of hp rfl)) | dsimp only | split
theorem State.sampleStart_keeps {P : ℕ} {s0 s : State} (hp : 1042 &&& P = 1042) (h : Keeps P s0 s) (a1 : Cell) (a2 : ℕ) (a3 : ℕ) (a4 : Frame) (a5 : Bool) (a6 : ℕ) (a7 : ℕ) (a8 : Bool) : Keeps P s0 (State.sampleStart s a1 a2 a3 a4 a5 a6 a7 a8) := by
  unfold State.sampleStart
  repeat' first
    | with_reducible assumption | exact sub_of hp rfl | exact rfl | with_reducible apply State.inc_keeps
    | with_reducible apply State.sat_keeps | with_reducible apply State.emit_keeps | with_reducible apply ite_keeps
    | with_reducible apply foldl_keeps | with_reducible refine getD_keeps (fun _ _ => ?_) ?_ | intro _
    | cases ‹(_, _) = (_, _)› | cases ‹some _ = some _› | cases ‹none = some _›
    | fail_if_no_progress with_reducible refine mk_keeps ?_ rfl rfl rfl (by and_intros <;> first | exact .inr (by with_reducible rfl) | exact .inl (sub_of hp rfl)) | dsimp only | split
theorem State.mirrorStart_keeps {P : ℕ} {s0 s : State} (hp : 1538 &&& P = 1538) (h : Keeps P s0 s) (a1 : Cell) (a2 : Pkt) (a3 : Bool) (a4 : Bool) (a5 : Bool) : Keeps P s0 (State.mirrorStart s a1 a2 a3 a4 a5) := by
  unfold State.mirrorStart
  repeat' first
    | with_reducible assumption | exact sub_of hp rfl | exact rfl | with_reducible apply State.inc_keeps
    | with_reducible apply State.sat_keeps | with_reducible apply State.send_keeps | with_reducible apply ite_keeps
    | with_reducible apply foldl_keeps | with_reducible refine getD_keeps (fun _ _ => ?_) ?_ | intro _
    | cases ‹(_, _) = (_, _)› | cases ‹some _ = some _› | cases ‹none = some _›
    | fail_if_no_progress with_reducible refine mk_keeps ?_ rfl rfl rfl (by and_intros <;> first | exact .inr (by with_reducible rfl) | exact .inl (sub_of hp rfl)) | dsimp only | split
theorem State.startYields_keeps {P : ℕ} {s0 s : State} (hp : 20482 &&& P = 20482) (h : Keeps P s0 s) (a1 : Cell) (a2 : ℕ) (a3 : Pkt) (a4 : Start) : Keeps P s0 (State.startYields s a1 a2 a3 a4) := by
  unfold State.startYields
  repeat' first
    | with_reducible assumption | exact sub_of hp rfl | exact rfl | with_reducible apply State.logYield_keeps
    | with_reducible apply State.sat_keeps | with_reducible apply ite_keeps | with_reducible apply foldl_keeps
    | with_reducible refine getD_keeps (fun _ _ => ?_) ?_ | intro _ | cases ‹(_, _) = (_, _)› | cases ‹some _ = some _›
    | cases ‹none = some _›
    | fail_if_no_progress with_reducible refine mk_keeps ?_ rfl rfl rfl (by and_intros <;> first | exact .inr (by with_reducible rfl) | exact .inl (sub_of hp rfl)) | dsimp only | split
theorem State.startErrors_keeps {P : ℕ} {s0 s : State} (hp : 4214786 &&& P = 4214786) (h : Keeps P s0 s) (a1 : Cell) (a2 : ℕ) (a3 : Start) (a4 : Frame) (a5 : StartIn) : Keeps P s0 (State.startErrors s a1 a2 a3 a4 a5) := by
  unfold State.startErrors
  repeat' first
    | with_reducible assumption | exact sub_of hp rfl | exact rfl | with_reducible apply State.logYield_keeps
    | with_reducible apply State.ctrEvent_keeps | with_reducible apply State.startYields_keeps
    | with_reducible apply State.inc_keeps | with_reducible apply ite_keeps | with_reducible apply foldl_keeps
    | with_reducible refine getD_keeps (fun _ _ => ?_) ?_ | intro _ | cases ‹(_, _) = (_, _)› | cases ‹some _ = some _›
    | cases ‹none = some _›
    | fail_if_no_progress with_reducible refine mk_keeps ?_ rfl rfl rfl (by and_intros <;> first | exact .inr (by with_reducible rfl) | exact .inl (sub_of hp rfl)) | dsimp only | split
theorem State.startLock_keeps {P : ℕ} {s0 s : State} (hp : 1026 &&& P = 1026) (h : Keeps P s0 s) (a1 : Cell) (a2 : ℕ) (a3 : ℕ) (a4 : ℕ) (a5 : Start) (a6 : Frame) (a7 : List Frame) (a8 : StartIn) : Keeps P s0 (State.startLock s a1 a2 a3 a4 a5 a6 a7 a8) := by
  unfold State.startLock
  repeat' first
    | with_reducible assumption | exact sub_of hp rfl | exact rfl | with_reducible apply State.setVoq_keeps
    | with_reducible apply State.sat_keeps | with_reducible apply ite_keeps | with_reducible apply foldl_keeps
    | with_reducible refine getD_keeps (fun _ _ => ?_) ?_ | intro _ | cases ‹(_, _) = (_, _)› | cases ‹some _ = some _›
    | cases ‹none = some _›
    | fail_if_no_progress with_reducible refine mk_keeps ?_ rfl rfl rfl (by and_intros <;> first | exact .inr (by with_reducible rfl) | exact .inl (sub_of hp rfl)) | dsimp only | split
theorem State.startAccount_keeps {P : ℕ} {s0 s : State} (hp : 4199426 &&& P = 4199426) (h : Keeps P s0 s) (a1 : Cell) (a2 : ℕ) (a3 : ℕ) (a4 : Frame) : Keeps P s0 (State.startAccount s a1 a2 a3 a4) := by
  unfold State.startAccount
  repeat' first
    | with_reducible assumption | exact sub_of hp rfl | exact rfl | with_reducible apply State.ctrEvent_keeps
    | with_reducible apply State.setCredit_keeps | with_reducible apply State.freeKept_keeps
    | with_reducible apply State.observeStart_keeps | with_reducible apply ite_keeps | with_reducible apply foldl_keeps
    | with_reducible refine getD_keeps (fun _ _ => ?_) ?_ | intro _ | cases ‹(_, _) = (_, _)› | cases ‹some _ = some _›
    | cases ‹none = some _›
    | fail_if_no_progress with_reducible refine mk_keeps ?_ rfl rfl rfl (by and_intros <;> first | exact .inr (by with_reducible rfl) | exact .inl (sub_of hp rfl)) | dsimp only | split
theorem State.startCopies_keeps {P : ℕ} {s0 s : State} (hp : 4199954 &&& P = 4199954) (h : Keeps P s0 s) (a1 : Cell) (a2 : ℕ) (a3 : ℕ) (a4 : Frame) (a5 : Bool) (a6 : ℕ) (a7 : ℕ) (a8 : StartIn) : Keeps P s0 (State.startCopies s a1 a2 a3 a4 a5 a6 a7 a8) := by
  unfold State.startCopies
  repeat' first
    | with_reducible assumption | exact sub_of hp rfl | exact rfl | with_reducible apply State.sampleStart_keeps
    | with_reducible apply State.sendHist_keeps | with_reducible apply State.mirrorStart_keeps
    | with_reducible apply ite_keeps | with_reducible apply foldl_keeps
    | with_reducible refine getD_keeps (fun _ _ => ?_) ?_ | intro _ | cases ‹(_, _) = (_, _)› | cases ‹some _ = some _›
    | cases ‹none = some _›
    | fail_if_no_progress with_reducible refine mk_keeps ?_ rfl rfl rfl (by and_intros <;> first | exact .inr (by with_reducible rfl) | exact .inl (sub_of hp rfl)) | dsimp only | split
theorem State.leaveCycle_keeps {P : ℕ} {s0 s : State} (hp : 1026 &&& P = 1026) (h : Keeps P s0 s) : Keeps P s0 (State.leaveCycle s) := by
  unfold State.leaveCycle
  repeat' first
    | with_reducible assumption | exact sub_of hp rfl | exact rfl | with_reducible apply State.freeGran_keeps
    | with_reducible apply ite_keeps | with_reducible apply foldl_keeps
    | with_reducible refine getD_keeps (fun _ _ => ?_) ?_ | intro _ | cases ‹(_, _) = (_, _)› | cases ‹some _ = some _›
    | cases ‹none = some _›
    | fail_if_no_progress with_reducible refine mk_keeps ?_ rfl rfl rfl (by and_intros <;> first | exact .inr (by with_reducible rfl) | exact .inl (sub_of hp rfl)) | dsimp only | split
theorem State.leavePort_keeps {P : ℕ} {s0 s : State} (hp : 4197906 &&& P = 4197906) (h : Keeps P s0 s) (a1 : Cell) (a2 : Pkt) : Keeps P s0 (State.leavePort s a1 a2) := by
  unfold State.leavePort
  repeat' first
    | with_reducible assumption | exact sub_of hp rfl | exact rfl | with_reducible apply State.setSlot_keeps
    | with_reducible apply State.take_keeps | with_reducible apply State.xingPass_keeps
    | with_reducible apply State.lateDiscard_keeps | with_reducible apply State.send_keeps
    | with_reducible apply State.emit_keeps | with_reducible apply ite_keeps | with_reducible apply foldl_keeps
    | with_reducible refine getD_keeps (fun _ _ => ?_) ?_ | intro _ | cases ‹(_, _) = (_, _)› | cases ‹some _ = some _›
    | cases ‹none = some _›
    | fail_if_no_progress with_reducible refine mk_keeps ?_ rfl rfl rfl (by and_intros <;> first | exact .inr (by with_reducible rfl) | exact .inl (sub_of hp rfl)) | dsimp only | split
theorem State.startOut_keeps {P : ℕ} {s0 s : State} (hp : 4197906 &&& P = 4197906) (h : Keeps P s0 s) (a1 : Cell) (a2 : ℕ) (a3 : Pkt) : Keeps P s0 (State.startOut s a1 a2 a3) := by
  unfold State.startOut
  repeat' first
    | with_reducible assumption | exact sub_of hp rfl | exact rfl | with_reducible apply State.injected_keeps
    | with_reducible apply State.lose_keeps | with_reducible apply State.leavePort_keeps
    | with_reducible apply State.moveTo_keeps | with_reducible apply State.xingPass_keeps
    | with_reducible apply State.sat_keeps | with_reducible apply ite_keeps | with_reducible apply foldl_keeps
    | with_reducible refine getD_keeps (fun _ _ => ?_) ?_ | intro _ | cases ‹(_, _) = (_, _)› | cases ‹some _ = some _›
    | cases ‹none = some _›
    | fail_if_no_progress with_reducible refine mk_keeps ?_ rfl rfl rfl (by and_intros <;> first | exact .inr (by with_reducible rfl) | exact .inl (sub_of hp rfl)) | dsimp only | split
theorem State.startFrame_keeps {P : ℕ} {s0 s : State} (hp : 4218386 &&& P = 4218386) (h : Keeps P s0 s) (a1 : Cell) (a2 : ℕ) (a3 : ℕ) (a4 : ℕ) (a5 : StartIn) : Keeps P s0 (State.startFrame s a1 a2 a3 a4 a5) := by
  unfold State.startFrame
  repeat' first
    | with_reducible assumption | exact sub_of hp rfl | exact rfl | with_reducible apply State.startAccount_keeps
    | with_reducible apply State.startErrors_keeps | with_reducible apply State.startLock_keeps
    | with_reducible apply State.inc_keeps | with_reducible apply State.startCopies_keeps
    | with_reducible apply State.moveTo_keeps | with_reducible apply State.startOut_keeps | with_reducible apply ite_keeps
    | with_reducible apply foldl_keeps | with_reducible refine getD_keeps (fun _ _ => ?_) ?_ | intro _
    | cases ‹(_, _) = (_, _)› | cases ‹some _ = some _› | cases ‹none = some _›
    | fail_if_no_progress with_reducible refine mk_keeps ?_ rfl rfl rfl (by and_intros <;> first | exact .inr (by with_reducible rfl) | exact .inl (sub_of hp rfl)) | dsimp only | split
theorem State.countWaits_keeps {P : ℕ} {s0 s : State} (hp : 4195842 &&& P = 4195842) (h : Keeps P s0 s) (a1 : Cell) (a2 : StartIn) : Keeps P s0 (State.countWaits s a1 a2) := by
  unfold State.countWaits
  repeat' first
    | with_reducible assumption | exact sub_of hp rfl | exact rfl | with_reducible apply State.ctrEvent_keeps
    | with_reducible apply State.setVoq_keeps | with_reducible apply State.sat_keeps | with_reducible apply ite_keeps
    | with_reducible apply foldl_keeps | with_reducible refine getD_keeps (fun _ _ => ?_) ?_ | intro _
    | cases ‹(_, _) = (_, _)› | cases ‹some _ = some _› | cases ‹none = some _›
    | fail_if_no_progress with_reducible refine mk_keeps ?_ rfl rfl rfl (by and_intros <;> first | exact .inr (by with_reducible rfl) | exact .inl (sub_of hp rfl)) | dsimp only | split
theorem State.round_keeps {P : ℕ} {s0 s : State} (hp : 4218386 &&& P = 4218386) (h : Keeps P s0 s) (a1 : Cell) (a2 : StartIn) : Keeps P s0 (State.round s a1 a2) := by
  unfold State.round
  repeat' first
    | with_reducible assumption | exact sub_of hp rfl | exact rfl | with_reducible apply State.countWaits_keeps
    | with_reducible apply State.wr_keeps | with_reducible apply State.startFrame_keeps
    | with_reducible apply State.admitWaiting_keeps | with_reducible apply ite_keeps | with_reducible apply foldl_keeps
    | with_reducible refine getD_keeps (fun _ _ => ?_) ?_ | intro _ | cases ‹(_, _) = (_, _)› | cases ‹some _ = some _›
    | cases ‹none = some _›
    | fail_if_no_progress with_reducible refine mk_keeps ?_ rfl rfl rfl (by and_intros <;> first | exact .inr (by with_reducible rfl) | exact .inl (sub_of hp rfl)) | dsimp only | split
theorem State.framingLoss_keeps {P : ℕ} {s0 s : State} (hp : 19970 &&& P = 19970) (h : Keeps P s0 s) (a1 : Cell) (a2 : ℕ) : Keeps P s0 (State.framingLoss s a1 a2) := by
  unfold State.framingLoss
  repeat' first
    | with_reducible assumption | exact sub_of hp rfl | exact rfl | with_reducible apply State.closeCtx_keeps
    | with_reducible apply State.logYield_keeps | with_reducible apply State.lose_keeps
    | with_reducible apply State.freeGran_keeps | with_reducible apply State.sat_keeps
    | with_reducible apply State.logFault_keeps | with_reducible apply ite_keeps | with_reducible apply foldl_keeps
    | with_reducible refine getD_keeps (fun _ _ => ?_) ?_ | intro _ | cases ‹(_, _) = (_, _)› | cases ‹some _ = some _›
    | cases ‹none = some _›
    | fail_if_no_progress with_reducible refine mk_keeps ?_ rfl rfl rfl (by and_intros <;> first | exact .inr (by with_reducible rfl) | exact .inl (sub_of hp rfl)) | dsimp only | split
theorem State.spillFrame_keeps {P : ℕ} {s0 s : State} (hp : 4214274 &&& P = 4214274) (h : Keeps P s0 s) (a1 : Cell) (a2 : ℕ) (a3 : SpillCtx) (a4 : WFrame) (a5 : Frame) : Keeps P s0 (State.spillFrame s a1 a2 a3 a4 a5) := by
  unfold State.spillFrame
  extract_lets u v pass src w
  have h1 : Keeps P s0 w := mk_keeps (State.ctrEvent_keeps (sub_of hp rfl) (State.inc_keeps (sub_of hp rfl) (State.leaveFrame_keeps (sub_of hp rfl) (State.moveTo_keeps (sub_of hp rfl) h _ _ _) _ _ _ _) _ _) _ _ _ _ _ _) rfl rfl rfl (by and_intros <;> first | exact .inr (by with_reducible rfl) | exact .inl (sub_of hp rfl))
  clear_value w
  exact ite_keeps (fun _ => State.waitAt_keeps (sub_of hp rfl) h1 _ _ _ _) fun _ =>
    getD_keeps (fun t e => State.tryAdmit_keeps_eq (sub_of hp rfl) e h1) (State.waitAt_keeps (sub_of hp rfl) h1 _ _ _ _)
theorem State.spillData_keeps {P : ℕ} {s0 s : State} (hp : 4214274 &&& P = 4214274) (h : Keeps P s0 s) (a1 : Cell) (a2 : ℕ) (a3 : SpillCtx) (a4 : WFrame) (a5 : SpillIn) : Keeps P s0 (State.spillData s a1 a2 a3 a4 a5) := by
  unfold State.spillData
  repeat' first
    | with_reducible assumption | exact sub_of hp rfl | exact rfl | with_reducible apply State.framingLoss_keeps
    | with_reducible apply State.lose_keeps | with_reducible apply State.spillFrame_keeps
    | with_reducible apply State.leaveFrame_keeps | with_reducible apply State.xingPass_keeps
    | with_reducible apply State.sat_keeps | with_reducible apply ite_keeps | with_reducible apply foldl_keeps
    | with_reducible refine getD_keeps (fun _ _ => ?_) ?_ | intro _ | cases ‹(_, _) = (_, _)› | cases ‹some _ = some _›
    | cases ‹none = some _›
    | fail_if_no_progress with_reducible refine mk_keeps ?_ rfl rfl rfl (by and_intros <;> first | exact .inr (by with_reducible rfl) | exact .inl (sub_of hp rfl)) | dsimp only | split
theorem State.spillReturn_keeps {P : ℕ} {s0 s : State} (hp : 4214274 &&& P = 4214274) (h : Keeps P s0 s) (a1 : Cell) (a2 : ℕ) (a3 : SpillIn) : Keeps P s0 (State.spillReturn s a1 a2 a3) := by
  unfold State.spillReturn
  repeat' first
    | with_reducible assumption | exact sub_of hp rfl | exact rfl | with_reducible apply State.spillData_keeps
    | with_reducible apply ite_keeps | with_reducible apply foldl_keeps
    | with_reducible refine getD_keeps (fun _ _ => ?_) ?_ | intro _ | cases ‹(_, _) = (_, _)› | cases ‹some _ = some _›
    | cases ‹none = some _›
    | fail_if_no_progress with_reducible refine mk_keeps ?_ rfl rfl rfl (by and_intros <;> first | exact .inr (by with_reducible rfl) | exact .inl (sub_of hp rfl)) | dsimp only | split

/-! ### Machine/Xbar -/

theorem execSampleCounterExpiry_keeps_eq {P : ℕ} {s0 s t : State} (hp : 1024 &&& P = 1024) {a0 : Cell} {a1 : Fin 10} (e : execSampleCounterExpiry a0 a1 s = .next t) (h : Keeps P s0 s) : Keeps P s0 t := by
  unfold execSampleCounterExpiry at e
  repeat' first
    | cases ‹Host.Outcome.next _ = Host.Outcome.next _› | cases ‹Host.Outcome.refused _ = Host.Outcome.next _›
    | cases ‹Host.Outcome.fault _ = Host.Outcome.next _› | split at e | with_reducible assumption | exact sub_of hp rfl
    | exact rfl | with_reducible apply State.reloadSample_keeps | with_reducible apply ite_keeps
    | with_reducible apply foldl_keeps | with_reducible refine getD_keeps (fun _ _ => ?_) ?_ | intro _
    | cases ‹(_, _) = (_, _)› | cases ‹some _ = some _› | cases ‹none = some _›
    | fail_if_no_progress with_reducible refine mk_keeps ?_ rfl rfl rfl (by and_intros <;> first | exact .inr (by with_reducible rfl) | exact .inl (sub_of hp rfl)) | dsimp only | dsimp only at e | split
theorem execXbarClrHwm_keeps_eq {P : ℕ} {s0 s t : State} (hp : 2 &&& P = 2) {a0 : Cell} (e : execXbarClrHwm a0 s = .next t) (h : Keeps P s0 s) : Keeps P s0 t := by
  unfold execXbarClrHwm at e
  repeat' first
    | cases ‹Host.Outcome.next _ = Host.Outcome.next _› | cases ‹Host.Outcome.refused _ = Host.Outcome.next _›
    | cases ‹Host.Outcome.fault _ = Host.Outcome.next _› | split at e | with_reducible assumption | exact sub_of hp rfl
    | exact rfl | with_reducible apply State.wr_keeps | with_reducible apply ite_keeps | with_reducible apply foldl_keeps
    | with_reducible refine getD_keeps (fun _ _ => ?_) ?_ | intro _ | cases ‹(_, _) = (_, _)› | cases ‹some _ = some _›
    | cases ‹none = some _›
    | fail_if_no_progress with_reducible refine mk_keeps ?_ rfl rfl rfl (by and_intros <;> first | exact .inr (by with_reducible rfl) | exact .inl (sub_of hp rfl)) | dsimp only | dsimp only at e | split
theorem execSkimYieldWindowEnd_keeps_eq {P : ℕ} {s0 s t : State} (hp : 17410 &&& P = 17410) {a0 : Cell} (e : execSkimYieldWindowEnd a0 s = .next t) (h : Keeps P s0 s) : Keeps P s0 t := by
  unfold execSkimYieldWindowEnd at e
  repeat' first
    | cases ‹Host.Outcome.next _ = Host.Outcome.next _› | cases ‹Host.Outcome.refused _ = Host.Outcome.next _›
    | cases ‹Host.Outcome.fault _ = Host.Outcome.next _› | split at e | with_reducible assumption | exact sub_of hp rfl
    | exact rfl | with_reducible apply State.logYield_keeps | with_reducible apply ite_keeps
    | with_reducible apply foldl_keeps | with_reducible refine getD_keeps (fun _ _ => ?_) ?_ | intro _
    | cases ‹(_, _) = (_, _)› | cases ‹some _ = some _› | cases ‹none = some _›
    | fail_if_no_progress with_reducible refine mk_keeps ?_ rfl rfl rfl (by and_intros <;> first | exact .inr (by with_reducible rfl) | exact .inl (sub_of hp rfl)) | dsimp only | dsimp only at e | split
theorem execLengthSlotAck_keeps_eq {P : ℕ} {s0 s t : State} (hp : 4214274 &&& P = 4214274) {a0 : Cell} {a1 : Fin 64} (e : execLengthSlotAck a0 a1 s = .next t) (h : Keeps P s0 s) : Keeps P s0 t := by
  unfold execLengthSlotAck at e
  repeat' first
    | cases ‹Host.Outcome.next _ = Host.Outcome.next _› | cases ‹Host.Outcome.refused _ = Host.Outcome.next _›
    | cases ‹Host.Outcome.fault _ = Host.Outcome.next _› | split at e | with_reducible assumption | exact sub_of hp rfl
    | exact rfl | with_reducible apply State.setSctx_keeps | with_reducible apply State.freeGran_keeps
    | with_reducible apply State.admitWaiting_keeps | with_reducible apply State.xingPass_keeps
    | with_reducible apply State.readHead_keeps | with_reducible apply ite_keeps | with_reducible apply foldl_keeps
    | with_reducible refine getD_keeps (fun _ _ => ?_) ?_ | intro _ | cases ‹(_, _) = (_, _)› | cases ‹some _ = some _›
    | cases ‹none = some _›
    | fail_if_no_progress with_reducible refine mk_keeps ?_ rfl rfl rfl (by and_intros <;> first | exact .inr (by with_reducible rfl) | exact .inl (sub_of hp rfl)) | dsimp only | dsimp only at e | split
theorem State.readPkts_keeps {P : ℕ} {s0 s : State} (hp : 512 &&& P = 512) (h : Keeps P s0 s) (a1 : Cell) (a2 : ℕ) (a3 : SpillCtx) (a4 : WFrame) : Keeps P s0 (State.readPkts s a1 a2 a3 a4) := by
  unfold State.readPkts
  repeat' first
    | with_reducible assumption | exact sub_of hp rfl | exact rfl | with_reducible apply State.sendAll_keeps
    | with_reducible apply ite_keeps | with_reducible apply foldl_keeps
    | with_reducible refine getD_keeps (fun _ _ => ?_) ?_ | intro _ | cases ‹(_, _) = (_, _)› | cases ‹some _ = some _›
    | cases ‹none = some _›
    | fail_if_no_progress with_reducible refine mk_keeps ?_ rfl rfl rfl (by and_intros <;> first | exact .inr (by with_reducible rfl) | exact .inl (sub_of hp rfl)) | dsimp only | split
theorem execSpillFetch_keeps_eq {P : ℕ} {s0 s t : State} (hp : 2562 &&& P = 2562) {a0 : Cell} {a1 : Fin 64} (e : execSpillFetch a0 a1 s = .next t) (h : Keeps P s0 s) : Keeps P s0 t := by
  unfold execSpillFetch at e
  repeat' first
    | cases ‹Host.Outcome.next _ = Host.Outcome.next _› | cases ‹Host.Outcome.refused _ = Host.Outcome.next _›
    | cases ‹Host.Outcome.fault _ = Host.Outcome.next _› | split at e | with_reducible assumption | exact sub_of hp rfl
    | exact rfl | with_reducible apply State.setSctx_keeps | with_reducible apply State.readPkts_keeps
    | with_reducible apply State.inc_keeps | with_reducible apply State.xingPass_keeps | with_reducible apply ite_keeps
    | with_reducible apply foldl_keeps | with_reducible refine getD_keeps (fun _ _ => ?_) ?_ | intro _
    | cases ‹(_, _) = (_, _)› | cases ‹some _ = some _› | cases ‹none = some _›
    | fail_if_no_progress with_reducible refine mk_keeps ?_ rfl rfl rfl (by and_intros <;> first | exact .inr (by with_reducible rfl) | exact .inl (sub_of hp rfl)) | dsimp only | dsimp only at e | split
theorem execHbmWatchdogExpiry_keeps_eq {P : ℕ} {s0 s t : State} (hp : 16898 &&& P = 16898) {a0 : Stack} (e : execHbmWatchdogExpiry a0 s = .next t) (h : Keeps P s0 s) : Keeps P s0 t := by
  unfold execHbmWatchdogExpiry at e
  repeat' first
    | cases ‹Host.Outcome.next _ = Host.Outcome.next _› | cases ‹Host.Outcome.refused _ = Host.Outcome.next _›
    | cases ‹Host.Outcome.fault _ = Host.Outcome.next _› | split at e | with_reducible assumption | exact sub_of hp rfl
    | exact rfl | with_reducible apply State.failElem_keeps | with_reducible apply ite_keeps
    | with_reducible apply foldl_keeps | with_reducible refine getD_keeps (fun _ _ => ?_) ?_ | intro _
    | cases ‹(_, _) = (_, _)› | cases ‹some _ = some _› | cases ‹none = some _›
    | fail_if_no_progress with_reducible refine mk_keeps ?_ rfl rfl rfl (by and_intros <;> first | exact .inr (by with_reducible rfl) | exact .inl (sub_of hp rfl)) | dsimp only | dsimp only at e | split
theorem State.captureSpillViews_keeps {P : ℕ} {s0 s : State} (hp : 2 &&& P = 2) (h : Keeps P s0 s) (a1 : Cell) : Keeps P s0 (State.captureSpillViews s a1) := by
  unfold State.captureSpillViews
  repeat' first
    | with_reducible assumption | exact sub_of hp rfl | exact rfl | with_reducible apply State.setReg_keeps
    | with_reducible apply State.wr_keeps | with_reducible apply ite_keeps | with_reducible apply foldl_keeps
    | with_reducible refine getD_keeps (fun _ _ => ?_) ?_ | intro _ | cases ‹(_, _) = (_, _)› | cases ‹some _ = some _›
    | cases ‹none = some _›
    | fail_if_no_progress with_reducible refine mk_keeps ?_ rfl rfl rfl (by and_intros <;> first | exact .inr (by with_reducible rfl) | exact .inl (sub_of hp rfl)) | dsimp only | split
theorem execSpillCtxView0Read_keeps_eq {P : ℕ} {s0 s t : State} (hp : 2 &&& P = 2) {a0 : Cell} (e : execSpillCtxView0Read a0 s = .next t) (h : Keeps P s0 s) : Keeps P s0 t := by
  unfold execSpillCtxView0Read at e
  repeat' first
    | cases ‹Host.Outcome.next _ = Host.Outcome.next _› | cases ‹Host.Outcome.refused _ = Host.Outcome.next _›
    | cases ‹Host.Outcome.fault _ = Host.Outcome.next _› | split at e | with_reducible assumption | exact sub_of hp rfl
    | exact rfl | with_reducible apply State.captureSpillViews_keeps | with_reducible apply ite_keeps
    | with_reducible apply foldl_keeps | with_reducible refine getD_keeps (fun _ _ => ?_) ?_ | intro _
    | cases ‹(_, _) = (_, _)› | cases ‹some _ = some _› | cases ‹none = some _›
    | fail_if_no_progress with_reducible refine mk_keeps ?_ rfl rfl rfl (by and_intros <;> first | exact .inr (by with_reducible rfl) | exact .inl (sub_of hp rfl)) | dsimp only | dsimp only at e | split
theorem execSpillXingClrHwm_keeps_eq {P : ℕ} {s0 s t : State} (hp : 2 &&& P = 2) {a0 : Xing} (e : execSpillXingClrHwm a0 s = .next t) (h : Keeps P s0 s) : Keeps P s0 t := by
  unfold execSpillXingClrHwm at e
  repeat' first
    | cases ‹Host.Outcome.next _ = Host.Outcome.next _› | cases ‹Host.Outcome.refused _ = Host.Outcome.next _›
    | cases ‹Host.Outcome.fault _ = Host.Outcome.next _› | split at e | with_reducible assumption | exact sub_of hp rfl
    | exact rfl | with_reducible apply State.wr_keeps | with_reducible apply ite_keeps | with_reducible apply foldl_keeps
    | with_reducible refine getD_keeps (fun _ _ => ?_) ?_ | intro _ | cases ‹(_, _) = (_, _)› | cases ‹some _ = some _›
    | cases ‹none = some _›
    | fail_if_no_progress with_reducible refine mk_keeps ?_ rfl rfl rfl (by and_intros <;> first | exact .inr (by with_reducible rfl) | exact .inl (sub_of hp rfl)) | dsimp only | dsimp only at e | split
theorem execGateBoundary_keeps_eq {P : ℕ} {s0 s t : State} (hp : 2 &&& P = 2) {a0 : Cell} (e : execGateBoundary a0 s = .next t) (h : Keeps P s0 s) : Keeps P s0 t := by
  unfold execGateBoundary at e
  repeat' first
    | cases ‹Host.Outcome.next _ = Host.Outcome.next _› | cases ‹Host.Outcome.refused _ = Host.Outcome.next _›
    | cases ‹Host.Outcome.fault _ = Host.Outcome.next _› | split at e | with_reducible assumption | exact sub_of hp rfl
    | exact rfl | with_reducible apply State.wr_keeps | with_reducible apply State.wrb_keeps
    | with_reducible apply ite_keeps | with_reducible apply foldl_keeps
    | with_reducible refine getD_keeps (fun _ _ => ?_) ?_ | intro _ | cases ‹(_, _) = (_, _)› | cases ‹some _ = some _›
    | cases ‹none = some _›
    | fail_if_no_progress with_reducible refine mk_keeps ?_ rfl rfl rfl (by and_intros <;> first | exact .inr (by with_reducible rfl) | exact .inl (sub_of hp rfl)) | dsimp only | dsimp only at e | split
theorem execHistPeriodEnd_keeps_eq {P : ℕ} {s0 s t : State} (hp : 4198418 &&& P = 4198418) {a0 : Cell} {a1 : Bool} (e : execHistPeriodEnd a0 a1 s = .next t) (h : Keeps P s0 s) : Keeps P s0 t := by
  unfold execHistPeriodEnd at e
  repeat' first
    | cases ‹Host.Outcome.next _ = Host.Outcome.next _› | cases ‹Host.Outcome.refused _ = Host.Outcome.next _›
    | cases ‹Host.Outcome.fault _ = Host.Outcome.next _› | split at e | with_reducible assumption | exact sub_of hp rfl
    | exact rfl | with_reducible apply State.copyObs_keeps | with_reducible apply ite_keeps
    | with_reducible apply foldl_keeps | with_reducible refine getD_keeps (fun _ _ => ?_) ?_ | intro _
    | cases ‹(_, _) = (_, _)› | cases ‹some _ = some _› | cases ‹none = some _›
    | fail_if_no_progress with_reducible refine mk_keeps ?_ rfl rfl rfl (by and_intros <;> first | exact .inr (by with_reducible rfl) | exact .inl (sub_of hp rfl)) | dsimp only | dsimp only at e | split
theorem execDepthSample_keeps_eq {P : ℕ} {s0 s t : State} (hp : 4096 &&& P = 4096) {a0 : Cell} (e : execDepthSample a0 s = .next t) (h : Keeps P s0 s) : Keeps P s0 t := by
  unfold execDepthSample at e
  repeat' first
    | cases ‹Host.Outcome.next _ = Host.Outcome.next _› | cases ‹Host.Outcome.refused _ = Host.Outcome.next _›
    | cases ‹Host.Outcome.fault _ = Host.Outcome.next _› | split at e | with_reducible assumption | exact sub_of hp rfl
    | exact rfl | with_reducible apply State.sampleDepth_keeps | with_reducible apply ite_keeps
    | with_reducible apply foldl_keeps | with_reducible refine getD_keeps (fun _ _ => ?_) ?_ | intro _
    | cases ‹(_, _) = (_, _)› | cases ‹some _ = some _› | cases ‹none = some _›
    | fail_if_no_progress with_reducible refine mk_keeps ?_ rfl rfl rfl (by and_intros <;> first | exact .inr (by with_reducible rfl) | exact .inl (sub_of hp rfl)) | dsimp only | dsimp only at e | split
theorem execShpObsSnap_keeps_eq {P : ℕ} {s0 s t : State} (hp : 4198418 &&& P = 4198418) {a0 : Cell} {a1 : Bool} (e : execShpObsSnap a0 a1 s = .next t) (h : Keeps P s0 s) : Keeps P s0 t := by
  unfold execShpObsSnap at e
  repeat' first
    | cases ‹Host.Outcome.next _ = Host.Outcome.next _› | cases ‹Host.Outcome.refused _ = Host.Outcome.next _›
    | cases ‹Host.Outcome.fault _ = Host.Outcome.next _› | split at e | with_reducible assumption | exact sub_of hp rfl
    | exact rfl | with_reducible apply State.copyObs_keeps | with_reducible apply ite_keeps
    | with_reducible apply foldl_keeps | with_reducible refine getD_keeps (fun _ _ => ?_) ?_ | intro _
    | cases ‹(_, _) = (_, _)› | cases ‹some _ = some _› | cases ‹none = some _›
    | fail_if_no_progress with_reducible refine mk_keeps ?_ rfl rfl rfl (by and_intros <;> first | exact .inr (by with_reducible rfl) | exact .inl (sub_of hp rfl)) | dsimp only | dsimp only at e | split

/-! ### Machine/OnlOps -/

theorem State.sendWord_keeps {P : ℕ} {s0 s : State} (hp : 131088 &&& P = 131088) (h : Keeps P s0 s) (a1 : Cell) (a2 : ℕ) (a3 : ℕ) (a4 : List OSlot) (a5 : Bool) : Keeps P s0 (State.sendWord s a1 a2 a3 a4 a5) := by
  unfold State.sendWord
  repeat' first
    | with_reducible assumption | exact sub_of hp rfl | exact rfl | with_reducible apply State.emit_keeps
    | with_reducible apply ite_keeps | with_reducible apply foldl_keeps
    | with_reducible refine getD_keeps (fun _ _ => ?_) ?_ | intro _ | cases ‹(_, _) = (_, _)› | cases ‹some _ = some _›
    | cases ‹none = some _›
    | fail_if_no_progress with_reducible refine mk_keeps ?_ rfl rfl rfl (by and_intros <;> first | exact .inr (by with_reducible rfl) | exact .inl (sub_of hp rfl)) | dsimp only | split
theorem State.sendFrame_keeps {P : ℕ} {s0 s : State} (hp : 131088 &&& P = 131088) (h : Keeps P s0 s) (a1 : Cell) (a2 : ℕ) (a3 : ℕ) (a4 : List OSlot) : Keeps P s0 (State.sendFrame s a1 a2 a3 a4) := by
  unfold State.sendFrame
  repeat' first
    | with_reducible assumption | exact sub_of hp rfl | exact rfl | with_reducible apply State.sendWord_keeps
    | with_reducible apply ite_keeps | with_reducible apply foldl_keeps
    | with_reducible refine getD_keeps (fun _ _ => ?_) ?_ | intro _ | cases ‹(_, _) = (_, _)› | cases ‹some _ = some _›
    | cases ‹none = some _›
    | fail_if_no_progress with_reducible refine mk_keeps ?_ rfl rfl rfl (by and_intros <;> first | exact .inr (by with_reducible rfl) | exact .inl (sub_of hp rfl)) | dsimp only | split
theorem State.sendNak_keeps {P : ℕ} {s0 s : State} (hp : 131090 &&& P = 131090) (h : Keeps P s0 s) (a1 : Cell) : Keeps P s0 (State.sendNak s a1) := by
  unfold State.sendNak
  repeat' first
    | with_reducible assumption | exact sub_of hp rfl | exact rfl | with_reducible apply State.sendWord_keeps
    | with_reducible apply State.sat_keeps | with_reducible apply ite_keeps | with_reducible apply foldl_keeps
    | with_reducible refine getD_keeps (fun _ _ => ?_) ?_ | intro _ | cases ‹(_, _) = (_, _)› | cases ‹some _ = some _›
    | cases ‹none = some _›
    | fail_if_no_progress with_reducible refine mk_keeps ?_ rfl rfl rfl (by and_intros <;> first | exact .inr (by with_reducible rfl) | exact .inl (sub_of hp rfl)) | dsimp only | split
theorem State.sendData_keeps {P : ℕ} {s0 s : State} (hp : 131090 &&& P = 131090) (h : Keeps P s0 s) (a1 : Cell) (a2 : List OSlot) (a3 : List CPkt) : Keeps P s0 (State.sendData s a1 a2 a3) := by
  unfold State.sendData
  repeat' first
    | with_reducible assumption | exact sub_of hp rfl | exact rfl | with_reducible apply State.sendFrame_keeps
    | with_reducible apply State.wr_keeps | with_reducible apply State.inc_keeps | with_reducible apply ite_keeps
    | with_reducible apply foldl_keeps | with_reducible refine getD_keeps (fun _ _ => ?_) ?_ | intro _
    | cases ‹(_, _) = (_, _)› | cases ‹some _ = some _› | cases ‹none = some _›
    | fail_if_no_progress with_reducible refine mk_keeps ?_ rfl rfl rfl (by and_intros <;> first | exact .inr (by with_reducible rfl) | exact .inl (sub_of hp rfl)) | dsimp only | split
theorem State.pump_keeps {P : ℕ} {s0 s : State} (hp : 131090 &&& P = 131090) (h : Keeps P s0 s) (a1 : Cell) : Keeps P s0 (State.pump s a1) := by
  unfold State.pump
  repeat' first
    | with_reducible assumption | exact sub_of hp rfl | exact rfl | with_reducible apply State.sendData_keeps
    | with_reducible apply State.dec_keeps | with_reducible apply ite_keeps | with_reducible apply foldl_keeps
    | with_reducible refine getD_keeps (fun _ _ => ?_) ?_ | intro _ | cases ‹(_, _) = (_, _)› | cases ‹some _ = some _›
    | cases ‹none = some _›
    | fail_if_no_progress with_reducible refine mk_keeps ?_ rfl rfl rfl (by and_intros <;> first | exact .inr (by with_reducible rfl) | exact .inl (sub_of hp rfl)) | dsimp only | split
theorem State.queueOn_keeps {P : ℕ} {s0 s : State} (hp : 131090 &&& P = 131090) (h : Keeps P s0 s) (a1 : Cell) (a2 : CPkt) : Keeps P s0 (State.queueOn s a1 a2) := by
  unfold State.queueOn
  repeat' first
    | with_reducible assumption | exact sub_of hp rfl | exact rfl | with_reducible apply State.pump_keeps
    | with_reducible apply ite_keeps | with_reducible apply foldl_keeps
    | with_reducible refine getD_keeps (fun _ _ => ?_) ?_ | intro _ | cases ‹(_, _) = (_, _)› | cases ‹some _ = some _›
    | cases ‹none = some _›
    | fail_if_no_progress with_reducible refine mk_keeps ?_ rfl rfl rfl (by and_intros <;> first | exact .inr (by with_reducible rfl) | exact .inl (sub_of hp rfl)) | dsimp only | split
theorem State.sendOnlabs_keeps {P : ℕ} {s0 s : State} (hp : 131602 &&& P = 131602) (h : Keeps P s0 s) (a1 : Cell) (a2 : CPkt) : Keeps P s0 (State.sendOnlabs s a1 a2) := by
  unfold State.sendOnlabs
  repeat' first
    | with_reducible assumption | exact sub_of hp rfl | exact rfl | with_reducible apply State.queueOn_keeps
    | with_reducible apply State.inc_keeps | with_reducible apply State.send_keeps | with_reducible apply ite_keeps
    | with_reducible apply foldl_keeps | with_reducible refine getD_keeps (fun _ _ => ?_) ?_ | intro _
    | cases ‹(_, _) = (_, _)› | cases ‹some _ = some _› | cases ‹none = some _›
    | fail_if_no_progress with_reducible refine mk_keeps ?_ rfl rfl rfl (by and_intros <;> first | exact .inr (by with_reducible rfl) | exact .inl (sub_of hp rfl)) | dsimp only | split
theorem State.absorbChain_keeps {P : ℕ} {s0 s : State} (hp : 131602 &&& P = 131602) (h : Keeps P s0 s) (a1 : Cell) (a2 : List CPkt) : Keeps P s0 (State.absorbChain s a1 a2) := by
  unfold State.absorbChain
  repeat' first
    | with_reducible assumption | exact sub_of hp rfl | exact rfl | with_reducible apply State.sendOnlabs_keeps
    | with_reducible apply State.inc_keeps | with_reducible apply ite_keeps | with_reducible apply foldl_keeps
    | with_reducible refine getD_keeps (fun _ _ => ?_) ?_ | intro _ | cases ‹(_, _) = (_, _)› | cases ‹some _ = some _›
    | cases ‹none = some _›
    | fail_if_no_progress with_reducible refine mk_keeps ?_ rfl rfl rfl (by and_intros <;> first | exact .inr (by with_reducible rfl) | exact .inl (sub_of hp rfl)) | dsimp only | split
theorem State.chainOut_keeps {P : ℕ} {s0 s : State} (hp : 131602 &&& P = 131602) (h : Keeps P s0 s) (a1 : Cell) (a2 : CPkt) : Keeps P s0 (State.chainOut s a1 a2) := by
  unfold State.chainOut
  repeat' first
    | with_reducible assumption | exact sub_of hp rfl | exact rfl | with_reducible apply State.queueOn_keeps
    | with_reducible apply State.absorbChain_keeps | with_reducible apply ite_keeps | with_reducible apply foldl_keeps
    | with_reducible refine getD_keeps (fun _ _ => ?_) ?_ | intro _ | cases ‹(_, _) = (_, _)› | cases ‹some _ = some _›
    | cases ‹none = some _›
    | fail_if_no_progress with_reducible refine mk_keeps ?_ rfl rfl rfl (by and_intros <;> first | exact .inr (by with_reducible rfl) | exact .inl (sub_of hp rfl)) | dsimp only | split
theorem State.chainNew_keeps {P : ℕ} {s0 s : State} (hp : 131602 &&& P = 131602) (h : Keeps P s0 s) (a1 : Cell) (a2 : Fin 32) (a3 : Pkt) : Keeps P s0 (State.chainNew s a1 a2 a3) := by
  unfold State.chainNew
  repeat' first
    | with_reducible assumption | exact sub_of hp rfl | exact rfl | with_reducible apply State.chainOut_keeps
    | with_reducible apply ite_keeps | with_reducible apply foldl_keeps
    | with_reducible refine getD_keeps (fun _ _ => ?_) ?_ | intro _ | cases ‹(_, _) = (_, _)› | cases ‹some _ = some _›
    | cases ‹none = some _›
    | fail_if_no_progress with_reducible refine mk_keeps ?_ rfl rfl rfl (by and_intros <;> first | exact .inr (by with_reducible rfl) | exact .inl (sub_of hp rfl)) | dsimp only | split
theorem State.exportSend_keeps {P : ℕ} {s0 s : State} (hp : 131602 &&& P = 131602) (h : Keeps P s0 s) (a1 : Cell) (a2 : Pkt) : Keeps P s0 (State.exportSend s a1 a2) := by
  unfold State.exportSend
  repeat' first
    | with_reducible assumption | exact sub_of hp rfl | exact rfl | with_reducible apply State.absorbChain_keeps
    | with_reducible apply State.chainNew_keeps | with_reducible apply ite_keeps | with_reducible apply foldl_keeps
    | with_reducible refine getD_keeps (fun _ _ => ?_) ?_ | intro _ | cases ‹(_, _) = (_, _)› | cases ‹some _ = some _›
    | cases ‹none = some _›
    | fail_if_no_progress with_reducible refine mk_keeps ?_ rfl rfl rfl (by and_intros <;> first | exact .inr (by with_reducible rfl) | exact .inl (sub_of hp rfl)) | dsimp only | split
theorem State.freeChain_keeps {P : ℕ} {s0 s : State} (hp : 131074 &&& P = 131074) (h : Keeps P s0 s) (a1 : Cell) (a2 : Slot) : Keeps P s0 (State.freeChain s a1 a2) := by
  unfold State.freeChain
  repeat' first
    | with_reducible assumption | exact sub_of hp rfl | exact rfl | with_reducible apply State.dec_keeps
    | with_reducible apply ite_keeps | with_reducible apply foldl_keeps
    | with_reducible refine getD_keeps (fun _ _ => ?_) ?_ | intro _ | cases ‹(_, _) = (_, _)› | cases ‹some _ = some _›
    | cases ‹none = some _›
    | fail_if_no_progress with_reducible refine mk_keeps ?_ rfl rfl rfl (by and_intros <;> first | exact .inr (by with_reducible rfl) | exact .inl (sub_of hp rfl)) | dsimp only | split
theorem State.chainResponse_keeps_eq {P : ℕ} {s0 s t : State} (hp : 131602 &&& P = 131602) {a1 : Pkt} (e : State.chainResponse s a1 = some t) (h : Keeps P s0 s) : Keeps P s0 t := by
  unfold State.chainResponse at e
  repeat' first
    | split at e | with_reducible assumption | exact sub_of hp rfl | exact rfl
    | with_reducible apply State.freeChain_keeps | with_reducible apply State.chainNew_keeps
    | with_reducible apply ite_keeps | with_reducible apply foldl_keeps
    | with_reducible refine getD_keeps (fun _ _ => ?_) ?_ | intro _ | cases ‹(_, _) = (_, _)› | cases ‹some _ = some _›
    | cases ‹none = some _›
    | fail_if_no_progress with_reducible refine mk_keeps ?_ rfl rfl rfl (by and_intros <;> first | exact .inr (by with_reducible rfl) | exact .inl (sub_of hp rfl)) | dsimp only | dsimp only at e | split
theorem State.sendPieces_keeps {P : ℕ} {s0 s : State} (hp : 131602 &&& P = 131602) (h : Keeps P s0 s) (a1 : Opc) (a2 : ℕ) (a3 : ℕ) (a4 : ℕ) (a5 : List Line) : Keeps P s0 (State.sendPieces s a1 a2 a3 a4 a5) := by
  unfold State.sendPieces
  repeat' first
    | with_reducible assumption | exact sub_of hp rfl | exact rfl | with_reducible apply State.chainNew_keeps
    | with_reducible apply ite_keeps | with_reducible apply foldl_keeps
    | with_reducible refine getD_keeps (fun _ _ => ?_) ?_ | intro _ | cases ‹(_, _) = (_, _)› | cases ‹some _ = some _›
    | cases ‹none = some _›
    | fail_if_no_progress with_reducible refine mk_keeps ?_ rfl rfl rfl (by and_intros <;> first | exact .inr (by with_reducible rfl) | exact .inl (sub_of hp rfl)) | dsimp only | split
theorem State.sendBlob_keeps {P : ℕ} {s0 s : State} (hp : 131602 &&& P = 131602) (h : Keeps P s0 s) (a1 : ℕ) (a2 : ℕ) (a3 : ℕ) : Keeps P s0 (State.sendBlob s a1 a2 a3) := by
  unfold State.sendBlob
  repeat' first
    | with_reducible assumption | exact sub_of hp rfl | exact rfl | with_reducible apply State.sendPieces_keeps
    | with_reducible apply ite_keeps | with_reducible apply foldl_keeps
    | with_reducible refine getD_keeps (fun _ _ => ?_) ?_ | intro _ | cases ‹(_, _) = (_, _)› | cases ‹some _ = some _›
    | cases ‹none = some _›
    | fail_if_no_progress with_reducible refine mk_keeps ?_ rfl rfl rfl (by and_intros <;> first | exact .inr (by with_reducible rfl) | exact .inl (sub_of hp rfl)) | dsimp only | split

end Sys2Proof.Machine
end

