-- ==== Sys2Proof/Laws/KeepHome.lean ====
section
/-! SUPPORT. What the operations of homes, MEMORY cells, engines and instances keep: one lemma for each function that answers a state. -/

set_option Elab.async false

namespace Sys2Proof.Machine

set_option linter.unreachableTactic false
set_option linter.unusedTactic false

/-! ### Machine/HomeOps -/

theorem State.putCset_keeps {P : ℕ} {s0 s : State} (hp : 8192 &&& P = 8192) (h : Keeps P s0 s) (a1 : Cell) (a2 : CSet) : Keeps P s0 (State.putCset s a1 a2) := by
  unfold State.putCset
  repeat' first
    | with_reducible assumption | exact sub_of hp rfl | exact rfl | with_reducible apply ite_keeps
    | with_reducible apply foldl_keeps | with_reducible refine getD_keeps (fun _ _ => ?_) ?_ | intro _
    | cases ‹(_, _) = (_, _)› | cases ‹some _ = some _› | cases ‹none = some _›
    | fail_if_no_progress with_reducible refine mk_keeps ?_ rfl rfl rfl (by and_intros <;> first | exact .inr (by with_reducible rfl) | exact .inl (sub_of hp rfl)) | dsimp only | split
theorem State.setWay_keeps {P : ℕ} {s0 s : State} (hp : 8192 &&& P = 8192) (h : Keeps P s0 s) (a1 : Cell) (a2 : Cell) (a3 : ℕ) (a4 : ℕ) (a5 : DirEntry) : Keeps P s0 (State.setWay s a1 a2 a3 a4 a5) := by
  unfold State.setWay
  repeat' first
    | with_reducible assumption | exact sub_of hp rfl | exact rfl | with_reducible apply ite_keeps
    | with_reducible apply foldl_keeps | with_reducible refine getD_keeps (fun _ _ => ?_) ?_ | intro _
    | cases ‹(_, _) = (_, _)› | cases ‹some _ = some _› | cases ‹none = some _›
    | fail_if_no_progress with_reducible refine mk_keeps ?_ rfl rfl rfl (by and_intros <;> first | exact .inr (by with_reducible rfl) | exact .inl (sub_of hp rfl)) | dsimp only | split
theorem State.setTxn_keeps {P : ℕ} {s0 s : State} (hp : 8192 &&& P = 8192) (h : Keeps P s0 s) (a1 : Cell) (a2 : Htid) (a3 : Txn) : Keeps P s0 (State.setTxn s a1 a2 a3) := by
  unfold State.setTxn
  repeat' first
    | with_reducible assumption | exact sub_of hp rfl | exact rfl | with_reducible apply ite_keeps
    | with_reducible apply foldl_keeps | with_reducible refine getD_keeps (fun _ _ => ?_) ?_ | intro _
    | cases ‹(_, _) = (_, _)› | cases ‹some _ = some _› | cases ‹none = some _›
    | fail_if_no_progress with_reducible refine mk_keeps ?_ rfl rfl rfl (by and_intros <;> first | exact .inr (by with_reducible rfl) | exact .inl (sub_of hp rfl)) | dsimp only | split
theorem State.openTxn_keeps {P : ℕ} {s0 s : State} (hp : 8194 &&& P = 8194) (h : Keeps P s0 s) (a1 : Cell) (a2 : Htid) (a3 : Txn) : Keeps P s0 (State.openTxn s a1 a2 a3) := by
  unfold State.openTxn
  repeat' first
    | with_reducible assumption | exact sub_of hp rfl | exact rfl | with_reducible apply State.setTxn_keeps
    | with_reducible apply State.raise_keeps | with_reducible apply State.inc_keeps | with_reducible apply ite_keeps
    | with_reducible apply foldl_keeps | with_reducible refine getD_keeps (fun _ _ => ?_) ?_ | intro _
    | cases ‹(_, _) = (_, _)› | cases ‹some _ = some _› | cases ‹none = some _›
    | fail_if_no_progress with_reducible refine mk_keeps ?_ rfl rfl rfl (by and_intros <;> first | exact .inr (by with_reducible rfl) | exact .inl (sub_of hp rfl)) | dsimp only | split
theorem State.closeTxn_keeps {P : ℕ} {s0 s : State} (hp : 8194 &&& P = 8194) (h : Keeps P s0 s) (a1 : Cell) (a2 : Htid) : Keeps P s0 (State.closeTxn s a1 a2) := by
  unfold State.closeTxn
  repeat' first
    | with_reducible assumption | exact sub_of hp rfl | exact rfl | with_reducible apply State.dec_keeps
    | with_reducible apply ite_keeps | with_reducible apply foldl_keeps
    | with_reducible refine getD_keeps (fun _ _ => ?_) ?_ | intro _ | cases ‹(_, _) = (_, _)› | cases ‹some _ = some _›
    | cases ‹none = some _›
    | fail_if_no_progress with_reducible refine mk_keeps ?_ rfl rfl rfl (by and_intros <;> first | exact .inr (by with_reducible rfl) | exact .inl (sub_of hp rfl)) | dsimp only | split
theorem State.sendMrd_keeps_eq {P : ℕ} {s0 s t : State} (hp : 512 &&& P = 512) {a1 : Cell} {a2 : Htid} {a3 : Txn} {r} (e : State.sendMrd s a1 a2 a3 = (r, t)) (h : Keeps P s0 s) : Keeps P s0 t := by
  unfold State.sendMrd at e
  repeat' first
    | split at e | with_reducible assumption | exact sub_of hp rfl | exact rfl | with_reducible apply State.send_keeps
    | with_reducible apply ite_keeps | with_reducible apply foldl_keeps
    | with_reducible refine getD_keeps (fun _ _ => ?_) ?_ | intro _ | cases ‹(_, _) = (_, _)› | cases ‹some _ = some _›
    | cases ‹none = some _›
    | fail_if_no_progress with_reducible refine mk_keeps ?_ rfl rfl rfl (by and_intros <;> first | exact .inr (by with_reducible rfl) | exact .inl (sub_of hp rfl)) | dsimp only | dsimp only at e | split
theorem State.sendMrd_keeps {P : ℕ} {s0 s : State} (hp : 512 &&& P = 512) (h : Keeps P s0 s) (a1 : Cell) (a2 : Htid) (a3 : Txn) : Keeps P s0 (State.sendMrd s a1 a2 a3).2 :=
  State.sendMrd_keeps_eq hp (Prod.mk.eta (p := State.sendMrd s a1 a2 a3)).symm h
theorem State.sendGrant_keeps_eq {P : ℕ} {s0 s t : State} (hp : 512 &&& P = 512) {a1 : Cell} {a2 : Htid} {a3 : Txn} {r} (e : State.sendGrant s a1 a2 a3 = (r, t)) (h : Keeps P s0 s) : Keeps P s0 t := by
  unfold State.sendGrant at e
  repeat' first
    | split at e | with_reducible assumption | exact sub_of hp rfl | exact rfl | with_reducible apply State.send_keeps
    | with_reducible apply ite_keeps | with_reducible apply foldl_keeps
    | with_reducible refine getD_keeps (fun _ _ => ?_) ?_ | intro _ | cases ‹(_, _) = (_, _)› | cases ‹some _ = some _›
    | cases ‹none = some _›
    | fail_if_no_progress with_reducible refine mk_keeps ?_ rfl rfl rfl (by and_intros <;> first | exact .inr (by with_reducible rfl) | exact .inl (sub_of hp rfl)) | dsimp only | dsimp only at e | split
theorem State.sendGrant_keeps {P : ℕ} {s0 s : State} (hp : 512 &&& P = 512) (h : Keeps P s0 s) (a1 : Cell) (a2 : Htid) (a3 : Txn) : Keeps P s0 (State.sendGrant s a1 a2 a3).2 :=
  State.sendGrant_keeps_eq hp (Prod.mk.eta (p := State.sendGrant s a1 a2 a3)).symm h
theorem State.sendWgo_keeps {P : ℕ} {s0 s : State} (hp : 512 &&& P = 512) (h : Keeps P s0 s) (a1 : Cell) (a2 : Htid) (a3 : Pkt) : Keeps P s0 (State.sendWgo s a1 a2 a3) := by
  unfold State.sendWgo
  repeat' first
    | with_reducible assumption | exact sub_of hp rfl | exact rfl | with_reducible apply State.send_keeps
    | with_reducible apply ite_keeps | with_reducible apply foldl_keeps
    | with_reducible refine getD_keeps (fun _ _ => ?_) ?_ | intro _ | cases ‹(_, _) = (_, _)› | cases ‹some _ = some _›
    | cases ‹none = some _›
    | fail_if_no_progress with_reducible refine mk_keeps ?_ rfl rfl rfl (by and_intros <;> first | exact .inr (by with_reducible rfl) | exact .inl (sub_of hp rfl)) | dsimp only | split
theorem State.sendWcmp_keeps {P : ℕ} {s0 s : State} (hp : 512 &&& P = 512) (h : Keeps P s0 s) (a1 : Cell) (a2 : Htid) (a3 : Pkt) : Keeps P s0 (State.sendWcmp s a1 a2 a3) := by
  unfold State.sendWcmp
  repeat' first
    | with_reducible assumption | exact sub_of hp rfl | exact rfl | with_reducible apply State.send_keeps
    | with_reducible apply ite_keeps | with_reducible apply foldl_keeps
    | with_reducible refine getD_keeps (fun _ _ => ?_) ?_ | intro _ | cases ‹(_, _) = (_, _)› | cases ‹some _ = some _›
    | cases ‹none = some _›
    | fail_if_no_progress with_reducible refine mk_keeps ?_ rfl rfl rfl (by and_intros <;> first | exact .inr (by with_reducible rfl) | exact .inl (sub_of hp rfl)) | dsimp only | split
theorem State.sendOwnData_keeps {P : ℕ} {s0 s : State} (hp : 512 &&& P = 512) (h : Keeps P s0 s) (a1 : Cell) (a2 : Htid) (a3 : Pkt) (a4 : Bool) : Keeps P s0 (State.sendOwnData s a1 a2 a3 a4) := by
  unfold State.sendOwnData
  repeat' first
    | with_reducible assumption | exact sub_of hp rfl | exact rfl | with_reducible apply State.send_keeps
    | with_reducible apply ite_keeps | with_reducible apply foldl_keeps
    | with_reducible refine getD_keeps (fun _ _ => ?_) ?_ | intro _ | cases ‹(_, _) = (_, _)› | cases ‹some _ = some _›
    | cases ‹none = some _›
    | fail_if_no_progress with_reducible refine mk_keeps ?_ rfl rfl rfl (by and_intros <;> first | exact .inr (by with_reducible rfl) | exact .inl (sub_of hp rfl)) | dsimp only | split
theorem State.sendDirwr_keeps_eq {P : ℕ} {s0 s t : State} (hp : 512 &&& P = 512) {a1 : Cell} {a2 : Htid} {a3 : Pkt} {a4 : Cell} {a5 : ℕ} {a6 : ℕ} {a7 : DirEntry} {r} (e : State.sendDirwr s a1 a2 a3 a4 a5 a6 a7 = (r, t)) (h : Keeps P s0 s) : Keeps P s0 t := by
  unfold State.sendDirwr at e
  repeat' first
    | split at e | with_reducible assumption | exact sub_of hp rfl | exact rfl | with_reducible apply State.sendAll_keeps
    | with_reducible apply ite_keeps | with_reducible apply foldl_keeps
    | with_reducible refine getD_keeps (fun _ _ => ?_) ?_ | intro _ | cases ‹(_, _) = (_, _)› | cases ‹some _ = some _›
    | cases ‹none = some _›
    | fail_if_no_progress with_reducible refine mk_keeps ?_ rfl rfl rfl (by and_intros <;> first | exact .inr (by with_reducible rfl) | exact .inl (sub_of hp rfl)) | dsimp only | dsimp only at e | split
theorem State.sendDirwr_keeps {P : ℕ} {s0 s : State} (hp : 512 &&& P = 512) (h : Keeps P s0 s) (a1 : Cell) (a2 : Htid) (a3 : Pkt) (a4 : Cell) (a5 : ℕ) (a6 : ℕ) (a7 : DirEntry) : Keeps P s0 (State.sendDirwr s a1 a2 a3 a4 a5 a6 a7).2 :=
  State.sendDirwr_keeps_eq hp (Prod.mk.eta (p := State.sendDirwr s a1 a2 a3 a4 a5 a6 a7)).symm h
theorem State.sendDirrd_keeps_eq {P : ℕ} {s0 s t : State} (hp : 512 &&& P = 512) {a1 : Cell} {a2 : Htid} {a3 : Pkt} {a4 : Cell} {a5 : ℕ} (e : State.sendDirrd s a1 a2 a3 a4 a5 = some t) (h : Keeps P s0 s) : Keeps P s0 t := by
  unfold State.sendDirrd at e
  repeat' first
    | split at e | with_reducible assumption | exact sub_of hp rfl | exact rfl | with_reducible apply State.send_keeps
    | with_reducible apply ite_keeps | with_reducible apply foldl_keeps
    | with_reducible refine getD_keeps (fun _ _ => ?_) ?_ | intro _ | cases ‹(_, _) = (_, _)› | cases ‹some _ = some _›
    | cases ‹none = some _›
    | fail_if_no_progress with_reducible refine mk_keeps ?_ rfl rfl rfl (by and_intros <;> first | exact .inr (by with_reducible rfl) | exact .inl (sub_of hp rfl)) | dsimp only | dsimp only at e | split
theorem State.sendSnoop_keeps {P : ℕ} {s0 s : State} (hp : 4194818 &&& P = 4194818) (h : Keeps P s0 s) (a1 : Cell) (a2 : Htid) (a3 : Txn) (a4 : Opc) (a5 : HSlot) : Keeps P s0 (State.sendSnoop s a1 a2 a3 a4 a5) := by
  unfold State.sendSnoop
  repeat' first
    | with_reducible assumption | exact sub_of hp rfl | exact rfl | with_reducible apply State.ctrEvent_keeps
    | with_reducible apply State.inc_keeps | with_reducible apply State.send_keeps | with_reducible apply ite_keeps
    | with_reducible apply foldl_keeps | with_reducible refine getD_keeps (fun _ _ => ?_) ?_ | intro _
    | cases ‹(_, _) = (_, _)› | cases ‹some _ = some _› | cases ‹none = some _›
    | fail_if_no_progress with_reducible refine mk_keeps ?_ rfl rfl rfl (by and_intros <;> first | exact .inr (by with_reducible rfl) | exact .inl (sub_of hp rfl)) | dsimp only | split
theorem State.freeCount_keeps {P : ℕ} {s0 s : State} (hp : 2 &&& P = 2) (h : Keeps P s0 s) (a1 : Cell) (a2 : Pkt) : Keeps P s0 (State.freeCount s a1 a2) := by
  unfold State.freeCount
  repeat' first
    | with_reducible assumption | exact sub_of hp rfl | exact rfl | with_reducible apply State.inc_keeps
    | with_reducible apply ite_keeps | with_reducible apply foldl_keeps
    | with_reducible refine getD_keeps (fun _ _ => ?_) ?_ | intro _ | cases ‹(_, _) = (_, _)› | cases ‹some _ = some _›
    | cases ‹none = some _›
    | fail_if_no_progress with_reducible refine mk_keeps ?_ rfl rfl rfl (by and_intros <;> first | exact .inr (by with_reducible rfl) | exact .inl (sub_of hp rfl)) | dsimp only | split
theorem State.takeWb_keeps_eq {P : ℕ} {s0 s t : State} (hp : 514 &&& P = 514) {a1 : Cell} {a2 : Htid} {a3 : Txn} {a4 : Pkt} {r} (e : State.takeWb s a1 a2 a3 a4 = (r, t)) (h : Keeps P s0 s) : Keeps P s0 t := by
  unfold State.takeWb at e
  repeat' first
    | split at e | with_reducible assumption | exact sub_of hp rfl | exact rfl | with_reducible apply State.sendWgo_keeps
    | with_reducible apply State.freeCount_keeps | with_reducible apply State.sendWcmp_keeps
    | with_reducible apply ite_keeps | with_reducible apply foldl_keeps
    | with_reducible refine getD_keeps (fun _ _ => ?_) ?_ | intro _ | cases ‹(_, _) = (_, _)› | cases ‹some _ = some _›
    | cases ‹none = some _›
    | fail_if_no_progress with_reducible refine mk_keeps ?_ rfl rfl rfl (by and_intros <;> first | exact .inr (by with_reducible rfl) | exact .inl (sub_of hp rfl)) | dsimp only | dsimp only at e | split
theorem State.takeWb_keeps {P : ℕ} {s0 s : State} (hp : 514 &&& P = 514) (h : Keeps P s0 s) (a1 : Cell) (a2 : Htid) (a3 : Txn) (a4 : Pkt) : Keeps P s0 (State.takeWb s a1 a2 a3 a4).2 :=
  State.takeWb_keeps_eq hp (Prod.mk.eta (p := State.takeWb s a1 a2 a3 a4)).symm h
theorem State.intakeCounts_keeps {P : ℕ} {s0 s : State} (hp : 2 &&& P = 2) (h : Keeps P s0 s) (a1 : Cell) : Keeps P s0 (State.intakeCounts s a1) := by
  unfold State.intakeCounts
  repeat' first
    | with_reducible assumption | exact sub_of hp rfl | exact rfl | with_reducible apply State.wr_keeps
    | with_reducible apply State.raise_keeps | with_reducible apply ite_keeps | with_reducible apply foldl_keeps
    | with_reducible refine getD_keeps (fun _ _ => ?_) ?_ | intro _ | cases ‹(_, _) = (_, _)› | cases ‹some _ = some _›
    | cases ‹none = some _›
    | fail_if_no_progress with_reducible refine mk_keeps ?_ rfl rfl rfl (by and_intros <;> first | exact .inr (by with_reducible rfl) | exact .inl (sub_of hp rfl)) | dsimp only | split
theorem State.ringFree_keeps {P : ℕ} {s0 s : State} (hp : 8192 &&& P = 8192) (h : Keeps P s0 s) (a1 : Cell) (a2 : HReq) : Keeps P s0 (State.ringFree s a1 a2) := by
  unfold State.ringFree
  repeat' first
    | with_reducible assumption | exact sub_of hp rfl | exact rfl | with_reducible apply ite_keeps
    | with_reducible apply foldl_keeps | with_reducible refine getD_keeps (fun _ _ => ?_) ?_ | intro _
    | cases ‹(_, _) = (_, _)› | cases ‹some _ = some _› | cases ‹none = some _›
    | fail_if_no_progress with_reducible refine mk_keeps ?_ rfl rfl rfl (by and_intros <;> first | exact .inr (by with_reducible rfl) | exact .inl (sub_of hp rfl)) | dsimp only | split
theorem State.intakePut_keeps {P : ℕ} {s0 s : State} (hp : 8194 &&& P = 8194) (h : Keeps P s0 s) (a1 : Cell) (a2 : HReq) : Keeps P s0 (State.intakePut s a1 a2) := by
  unfold State.intakePut
  repeat' first
    | with_reducible assumption | exact sub_of hp rfl | exact rfl | with_reducible apply State.intakeCounts_keeps
    | with_reducible apply ite_keeps | with_reducible apply foldl_keeps
    | with_reducible refine getD_keeps (fun _ _ => ?_) ?_ | intro _ | cases ‹(_, _) = (_, _)› | cases ‹some _ = some _›
    | cases ‹none = some _›
    | fail_if_no_progress with_reducible refine mk_keeps ?_ rfl rfl rfl (by and_intros <;> first | exact .inr (by with_reducible rfl) | exact .inl (sub_of hp rfl)) | dsimp only | split
theorem State.intakeTake_keeps {P : ℕ} {s0 s : State} (hp : 8194 &&& P = 8194) (h : Keeps P s0 s) (a1 : Cell) (a2 : HReq → Bool) : Keeps P s0 (State.intakeTake s a1 a2) := by
  unfold State.intakeTake
  repeat' first
    | with_reducible assumption | exact sub_of hp rfl | exact rfl | with_reducible apply State.ringFree_keeps
    | with_reducible apply State.intakeCounts_keeps | with_reducible apply ite_keeps | with_reducible apply foldl_keeps
    | with_reducible refine getD_keeps (fun _ _ => ?_) ?_ | intro _ | cases ‹(_, _) = (_, _)› | cases ‹some _ = some _›
    | cases ‹none = some _›
    | fail_if_no_progress with_reducible refine mk_keeps ?_ rfl rfl rfl (by and_intros <;> first | exact .inr (by with_reducible rfl) | exact .inl (sub_of hp rfl)) | dsimp only | split
theorem State.pullWrites_keeps_eq {P : ℕ} {s0 s t : State} (hp : 8706 &&& P = 8706) {a1 : Cell} {a2 : Htid} {a3 : Txn} {a4 : HSlot} {r} (e : State.pullWrites s a1 a2 a3 a4 = (r, t)) (h : Keeps P s0 s) : Keeps P s0 t := by
  have k : Keeps P s0 (State.pullWrites s a1 a2 a3 a4).2 := by
    unfold State.pullWrites
    extract_lets mine ch q
    have h1 := foldl_snd_keeps (b := a3) (l := ch) (f := fun (x : Txn × State) (c : Htid × Txn) => (x.2.closeTxn a1 c.1).takeWb a1 a2 x.1 c.2.req) h
      fun _ _ _ h => State.takeWb_keeps (sub_of hp rfl) (State.closeTxn_keeps (sub_of hp rfl) h _ _) _ _ _ _
    dsimp only
    split
    · exact h1
    · exact foldl_snd_keeps (State.intakeTake_keeps (sub_of hp rfl) h1 _ _) fun _ _ _ h => State.takeWb_keeps (sub_of hp rfl) (State.inc_keeps (sub_of hp rfl) h _ _) _ _ _ _
  rw [e] at k
  exact k
theorem State.pullWrites_keeps {P : ℕ} {s0 s : State} (hp : 8706 &&& P = 8706) (h : Keeps P s0 s) (a1 : Cell) (a2 : Htid) (a3 : Txn) (a4 : HSlot) : Keeps P s0 (State.pullWrites s a1 a2 a3 a4).2 :=
  State.pullWrites_keeps_eq hp (Prod.mk.eta (p := State.pullWrites s a1 a2 a3 a4)).symm h
theorem State.sendSnoops_keeps_eq {P : ℕ} {s0 s t : State} (hp : 4203010 &&& P = 4203010) {a1 : Cell} {a2 : Htid} {a3 : Txn} {r} (e : State.sendSnoops s a1 a2 a3 = (r, t)) (h : Keeps P s0 s) : Keeps P s0 t := by
  have k : Keeps P s0 (State.sendSnoops s a1 a2 a3).2 := by
    unfold State.sendSnoops
    extract_lets room now
    clear_value room now
    have hf : ∀ f : Txn × State → HSlot → Txn × State,
        (∀ b u x, f (b, u) x = (u.sendSnoop a1 a2 b a3.snoopOpc x).pullWrites a1 a2 b x) → ∀ y, Keeps P s0 (now.foldl f (y, s)).2 :=
      fun f e y => foldl_snd_keeps h fun b u x h => by
        rw [e]
        exact State.pullWrites_keeps (sub_of hp rfl) (State.sendSnoop_keeps (sub_of hp rfl) h _ _ _ _ _) _ _ _ _
    exact hf _ (fun _ _ _ => rfl) _
  rw [e] at k
  exact k
theorem State.sendSnoops_keeps {P : ℕ} {s0 s : State} (hp : 4203010 &&& P = 4203010) (h : Keeps P s0 s) (a1 : Cell) (a2 : Htid) (a3 : Txn) : Keeps P s0 (State.sendSnoops s a1 a2 a3).2 :=
  State.sendSnoops_keeps_eq hp (Prod.mk.eta (p := State.sendSnoops s a1 a2 a3)).symm h
theorem State.startSnoops_keeps_eq {P : ℕ} {s0 s t : State} (hp : 4203010 &&& P = 4203010) {a1 : Cell} {a2 : Htid} {a3 : Txn} {a4 : List HSlot} {r} (e : State.startSnoops s a1 a2 a3 a4 = (r, t)) (h : Keeps P s0 s) : Keeps P s0 t := by
  unfold State.startSnoops at e
  repeat' first
    | split at e | with_reducible assumption | exact sub_of hp rfl | exact rfl
    | refine State.sendSnoops_keeps_eq (sub_of hp rfl) (by assumption) ?_ | with_reducible apply State.sendSnoops_keeps
    | with_reducible apply ite_keeps | with_reducible apply foldl_keeps
    | with_reducible refine foldl_snd_keeps ?_ (fun _ _ _ _ => ?_) | with_reducible refine getD_keeps (fun _ _ => ?_) ?_
    | intro _ | cases ‹(_, _) = (_, _)› | cases ‹some _ = some _› | cases ‹none = some _›
    | fail_if_no_progress with_reducible refine mk_keeps ?_ rfl rfl rfl (by and_intros <;> first | exact .inr (by with_reducible rfl) | exact .inl (sub_of hp rfl)) | dsimp only | dsimp only at e | split
theorem State.startSnoops_keeps {P : ℕ} {s0 s : State} (hp : 4203010 &&& P = 4203010) (h : Keeps P s0 s) (a1 : Cell) (a2 : Htid) (a3 : Txn) (a4 : List HSlot) : Keeps P s0 (State.startSnoops s a1 a2 a3 a4).2 :=
  State.startSnoops_keeps_eq hp (Prod.mk.eta (p := State.startSnoops s a1 a2 a3 a4)).symm h
theorem State.startFwds_keeps_eq {P : ℕ} {s0 s t : State} (hp : 4194818 &&& P = 4194818) {a1 : Cell} {a2 : Htid} {a3 : Txn} {a4 : List HSlot} {a5 : Mv} {r} (e : State.startFwds s a1 a2 a3 a4 a5 = (r, t)) (h : Keeps P s0 s) : Keeps P s0 t := by
  unfold State.startFwds at e
  repeat' first
    | split at e | with_reducible assumption | exact sub_of hp rfl | exact rfl | with_reducible apply State.ctrEvent_keeps
    | with_reducible apply State.inc_keeps | with_reducible apply State.send_keeps | with_reducible apply ite_keeps
    | with_reducible apply foldl_keeps | with_reducible refine getD_keeps (fun _ _ => ?_) ?_ | intro _
    | cases ‹(_, _) = (_, _)› | cases ‹some _ = some _› | cases ‹none = some _›
    | fail_if_no_progress with_reducible refine mk_keeps ?_ rfl rfl rfl (by and_intros <;> first | exact .inr (by with_reducible rfl) | exact .inl (sub_of hp rfl)) | dsimp only | dsimp only at e | split
theorem State.startFwds_keeps {P : ℕ} {s0 s : State} (hp : 4194818 &&& P = 4194818) (h : Keeps P s0 s) (a1 : Cell) (a2 : Htid) (a3 : Txn) (a4 : List HSlot) (a5 : Mv) : Keeps P s0 (State.startFwds s a1 a2 a3 a4 a5).2 :=
  State.startFwds_keeps_eq hp (Prod.mk.eta (p := State.startFwds s a1 a2 a3 a4 a5)).symm h

/-! ### Machine/HomeFlow -/

theorem State.settle_keeps {P : ℕ} {s0 s : State} (hp : 8192 &&& P = 8192) (h : Keeps P s0 s) (a1 : Cell) (a2 : Txn) (a3 : DirEntry) : Keeps P s0 (State.settle s a1 a2 a3) := by
  unfold State.settle
  repeat' first
    | with_reducible assumption | exact sub_of hp rfl | exact rfl | with_reducible apply State.setWay_keeps
    | with_reducible apply ite_keeps | with_reducible apply foldl_keeps
    | with_reducible refine getD_keeps (fun _ _ => ?_) ?_ | intro _ | cases ‹(_, _) = (_, _)› | cases ‹some _ = some _›
    | cases ‹none = some _›
    | fail_if_no_progress with_reducible refine mk_keeps ?_ rfl rfl rfl (by and_intros <;> first | exact .inr (by with_reducible rfl) | exact .inl (sub_of hp rfl)) | dsimp only | split
theorem State.block_keeps {P : ℕ} {s0 s : State} (hp : 8192 &&& P = 8192) (h : Keeps P s0 s) (a1 : Cell) (a2 : Txn) (a3 : DState) : Keeps P s0 (State.block s a1 a2 a3) := by
  unfold State.block
  repeat' first
    | with_reducible assumption | exact sub_of hp rfl | exact rfl | with_reducible apply State.setWay_keeps
    | with_reducible apply ite_keeps | with_reducible apply foldl_keeps
    | with_reducible refine getD_keeps (fun _ _ => ?_) ?_ | intro _ | cases ‹(_, _) = (_, _)› | cases ‹some _ = some _›
    | cases ‹none = some _›
    | fail_if_no_progress with_reducible refine mk_keeps ?_ rfl rfl rfl (by and_intros <;> first | exact .inr (by with_reducible rfl) | exact .inl (sub_of hp rfl)) | dsimp only | split
theorem State.writeEntry_keeps_eq {P : ℕ} {s0 s t : State} (hp : 512 &&& P = 512) {a1 : Cell} {a2 : Htid} {a3 : Txn} {a4 : DirEntry} {r} (e : State.writeEntry s a1 a2 a3 a4 = (r, t)) (h : Keeps P s0 s) : Keeps P s0 t := by
  unfold State.writeEntry at e
  cases e
  exact State.sendDirwr_keeps (sub_of hp rfl) h _ _ _ _ _ _ _
theorem State.writeEntry_keeps {P : ℕ} {s0 s : State} (hp : 512 &&& P = 512) (h : Keeps P s0 s) (a1 : Cell) (a2 : Htid) (a3 : Txn) (a4 : DirEntry) : Keeps P s0 (State.writeEntry s a1 a2 a3 a4).2 :=
  State.writeEntry_keeps_eq hp (Prod.mk.eta (p := State.writeEntry s a1 a2 a3 a4)).symm h
theorem State.finish_keeps {P : ℕ} {s0 s : State} (hp : 8194 &&& P = 8194) (h : Keeps P s0 s) (a1 : Cell) (a2 : Htid) (a3 : Txn) : Keeps P s0 (State.finish s a1 a2 a3) := by
  unfold State.finish
  repeat' first
    | with_reducible assumption | exact sub_of hp rfl | exact rfl | with_reducible apply State.setTxn_keeps
    | with_reducible apply State.settle_keeps | with_reducible apply State.closeTxn_keeps | with_reducible apply ite_keeps
    | with_reducible apply foldl_keeps | with_reducible refine getD_keeps (fun _ _ => ?_) ?_ | intro _
    | cases ‹(_, _) = (_, _)› | cases ‹some _ = some _› | cases ‹none = some _›
    | fail_if_no_progress with_reducible refine mk_keeps ?_ rfl rfl rfl (by and_intros <;> first | exact .inr (by with_reducible rfl) | exact .inl (sub_of hp rfl)) | dsimp only | split
theorem State.advanceRd_keeps {P : ℕ} {s0 s : State} (hp : 8706 &&& P = 8706) (h : Keeps P s0 s) (a1 : Cell) (a2 : Htid) (a3 : Txn) : Keeps P s0 (State.advanceRd s a1 a2 a3) := by
  unfold State.advanceRd
  repeat' first
    | with_reducible assumption | exact sub_of hp rfl | exact rfl | with_reducible apply State.setTxn_keeps
    | with_reducible apply State.finish_keeps | refine State.sendGrant_keeps_eq (sub_of hp rfl) (by assumption) ?_
    | with_reducible apply State.sendGrant_keeps | with_reducible apply ite_keeps | with_reducible apply foldl_keeps
    | with_reducible refine foldl_snd_keeps ?_ (fun _ _ _ _ => ?_) | with_reducible refine getD_keeps (fun _ _ => ?_) ?_
    | intro _ | cases ‹(_, _) = (_, _)› | cases ‹some _ = some _› | cases ‹none = some _›
    | fail_if_no_progress with_reducible refine mk_keeps ?_ rfl rfl rfl (by and_intros <;> first | exact .inr (by with_reducible rfl) | exact .inl (sub_of hp rfl)) | dsimp only | split
theorem State.grantFlow_keeps {P : ℕ} {s0 s : State} (hp : 8706 &&& P = 8706) (h : Keeps P s0 s) (a1 : Cell) (a2 : Htid) (a3 : Txn) (a4 : DirEntry) (a5 : Mv) : Keeps P s0 (State.grantFlow s a1 a2 a3 a4 a5) := by
  unfold State.grantFlow
  repeat' first
    | with_reducible assumption | exact sub_of hp rfl | exact rfl | with_reducible apply State.advanceRd_keeps
    | refine State.writeEntry_keeps_eq (sub_of hp rfl) (by assumption) ?_ | with_reducible apply State.writeEntry_keeps
    | refine State.sendMrd_keeps_eq (sub_of hp rfl) (by assumption) ?_ | with_reducible apply State.sendMrd_keeps
    | with_reducible apply State.block_keeps | with_reducible apply ite_keeps | with_reducible apply foldl_keeps
    | with_reducible refine foldl_snd_keeps ?_ (fun _ _ _ _ => ?_) | with_reducible refine getD_keeps (fun _ _ => ?_) ?_
    | intro _ | cases ‹(_, _) = (_, _)› | cases ‹some _ = some _› | cases ‹none = some _›
    | fail_if_no_progress with_reducible refine mk_keeps ?_ rfl rfl rfl (by and_intros <;> first | exact .inr (by with_reducible rfl) | exact .inl (sub_of hp rfl)) | dsimp only | split
theorem State.writeFlow_keeps {P : ℕ} {s0 s : State} (hp : 8704 &&& P = 8704) (h : Keeps P s0 s) (a1 : Cell) (a2 : Htid) (a3 : Txn) (a4 : DirEntry) : Keeps P s0 (State.writeFlow s a1 a2 a3 a4) := by
  unfold State.writeFlow
  repeat' first
    | with_reducible assumption | exact sub_of hp rfl | exact rfl | with_reducible apply State.sendWgo_keeps
    | with_reducible apply State.setTxn_keeps | with_reducible apply State.block_keeps | with_reducible apply ite_keeps
    | with_reducible apply foldl_keeps | with_reducible refine getD_keeps (fun _ _ => ?_) ?_ | intro _
    | cases ‹(_, _) = (_, _)› | cases ‹some _ = some _› | cases ‹none = some _›
    | fail_if_no_progress with_reducible refine mk_keeps ?_ rfl rfl rfl (by and_intros <;> first | exact .inr (by with_reducible rfl) | exact .inl (sub_of hp rfl)) | dsimp only | split
theorem State.afterSnoops_keeps {P : ℕ} {s0 s : State} (hp : 8706 &&& P = 8706) (h : Keeps P s0 s) (a1 : Cell) (a2 : Htid) (a3 : Txn) : Keeps P s0 (State.afterSnoops s a1 a2 a3) := by
  unfold State.afterSnoops
  repeat' first
    | with_reducible assumption | exact sub_of hp rfl | exact rfl | with_reducible apply State.advanceRd_keeps
    | with_reducible apply State.grantFlow_keeps | with_reducible apply State.freeCount_keeps
    | with_reducible apply State.writeFlow_keeps | with_reducible apply State.finish_keeps
    | refine State.writeEntry_keeps_eq (sub_of hp rfl) (by assumption) ?_ | with_reducible apply State.writeEntry_keeps
    | with_reducible apply State.sendOwnData_keeps | with_reducible apply State.send_keeps
    | with_reducible apply State.sendWcmp_keeps | with_reducible apply State.block_keeps | with_reducible apply ite_keeps
    | with_reducible apply foldl_keeps | with_reducible refine foldl_snd_keeps ?_ (fun _ _ _ _ => ?_)
    | with_reducible refine getD_keeps (fun _ _ => ?_) ?_ | intro _ | cases ‹(_, _) = (_, _)› | cases ‹some _ = some _›
    | cases ‹none = some _›
    | fail_if_no_progress with_reducible refine mk_keeps ?_ rfl rfl rfl (by and_intros <;> first | exact .inr (by with_reducible rfl) | exact .inl (sub_of hp rfl)) | dsimp only | split
theorem State.ownerRow_keeps {P : ℕ} {s0 s : State} (hp : 8706 &&& P = 8706) (h : Keeps P s0 s) (a1 : Cell) (a2 : Htid) (a3 : Txn) : Keeps P s0 (State.ownerRow s a1 a2 a3) := by
  unfold State.ownerRow
  repeat' first
    | with_reducible assumption | exact sub_of hp rfl | exact rfl | with_reducible apply State.grantFlow_keeps
    | with_reducible apply State.writeFlow_keeps | with_reducible apply ite_keeps | with_reducible apply foldl_keeps
    | with_reducible refine getD_keeps (fun _ _ => ?_) ?_ | intro _ | cases ‹(_, _) = (_, _)› | cases ‹some _ = some _›
    | cases ‹none = some _›
    | fail_if_no_progress with_reducible refine mk_keeps ?_ rfl rfl rfl (by and_intros <;> first | exact .inr (by with_reducible rfl) | exact .inl (sub_of hp rfl)) | dsimp only | split
theorem State.clnevctRow_keeps {P : ℕ} {s0 s : State} (hp : 8706 &&& P = 8706) (h : Keeps P s0 s) (a1 : Cell) (a2 : Htid) (a3 : Txn) : Keeps P s0 (State.clnevctRow s a1 a2 a3) := by
  unfold State.clnevctRow
  repeat' first
    | with_reducible assumption | exact sub_of hp rfl | exact rfl | with_reducible apply State.settle_keeps
    | with_reducible apply State.finish_keeps | with_reducible apply State.closeTxn_keeps
    | refine State.writeEntry_keeps_eq (sub_of hp rfl) (by assumption) ?_ | with_reducible apply State.writeEntry_keeps
    | with_reducible apply State.inc_keeps | with_reducible apply State.sendWcmp_keeps | with_reducible apply ite_keeps
    | with_reducible apply foldl_keeps | with_reducible refine foldl_snd_keeps ?_ (fun _ _ _ _ => ?_)
    | with_reducible refine getD_keeps (fun _ _ => ?_) ?_ | intro _ | cases ‹(_, _) = (_, _)› | cases ‹some _ = some _›
    | cases ‹none = some _›
    | fail_if_no_progress with_reducible refine mk_keeps ?_ rfl rfl rfl (by and_intros <;> first | exact .inr (by with_reducible rfl) | exact .inl (sub_of hp rfl)) | dsimp only | split
theorem State.runRow_keeps {P : ℕ} {s0 s : State} (hp : 4203010 &&& P = 4203010) (h : Keeps P s0 s) (a1 : Cell) (a2 : Htid) (a3 : Txn) : Keeps P s0 (State.runRow s a1 a2 a3) := by
  unfold State.runRow
  repeat' first
    | with_reducible assumption | exact sub_of hp rfl | exact rfl | with_reducible apply State.advanceRd_keeps
    | refine State.startSnoops_keeps_eq (sub_of hp rfl) (by assumption) ?_ | with_reducible apply State.startSnoops_keeps
    | with_reducible apply State.grantFlow_keeps | refine State.startFwds_keeps_eq (sub_of hp rfl) (by assumption) ?_
    | with_reducible apply State.startFwds_keeps | with_reducible apply State.setTxn_keeps
    | with_reducible apply State.settle_keeps | with_reducible apply State.closeTxn_keeps
    | with_reducible apply State.ownerRow_keeps | with_reducible apply State.inc_keeps
    | with_reducible apply State.afterSnoops_keeps | with_reducible apply State.sendOwnData_keeps
    | with_reducible apply State.sendWcmp_keeps | refine State.sendMrd_keeps_eq (sub_of hp rfl) (by assumption) ?_
    | with_reducible apply State.sendMrd_keeps | with_reducible apply State.block_keeps
    | with_reducible apply State.clnevctRow_keeps | with_reducible apply ite_keeps | with_reducible apply foldl_keeps
    | with_reducible refine foldl_snd_keeps ?_ (fun _ _ _ _ => ?_) | with_reducible refine getD_keeps (fun _ _ => ?_) ?_
    | intro _ | cases ‹(_, _) = (_, _)› | cases ‹some _ = some _› | cases ‹none = some _›
    | fail_if_no_progress with_reducible refine mk_keeps ?_ rfl rfl rfl (by and_intros <;> first | exact .inr (by with_reducible rfl) | exact .inl (sub_of hp rfl)) | dsimp only | split
theorem State.askAll_keeps_eq {P : ℕ} {s0 s t : State} (hp : 4203010 &&& P = 4203010) {a1 : Cell} {a2 : Htid} {a3 : Txn} {r} (e : State.askAll s a1 a2 a3 = (r, t)) (h : Keeps P s0 s) : Keeps P s0 t := by
  unfold State.askAll at e
  repeat' first
    | split at e | with_reducible assumption | exact sub_of hp rfl | exact rfl
    | refine State.startSnoops_keeps_eq (sub_of hp rfl) (by assumption) ?_ | with_reducible apply State.startSnoops_keeps
    | refine State.startFwds_keeps_eq (sub_of hp rfl) (by assumption) ?_ | with_reducible apply State.startFwds_keeps
    | with_reducible apply ite_keeps | with_reducible apply foldl_keeps
    | with_reducible refine foldl_snd_keeps ?_ (fun _ _ _ _ => ?_) | with_reducible refine getD_keeps (fun _ _ => ?_) ?_
    | intro _ | cases ‹(_, _) = (_, _)› | cases ‹some _ = some _› | cases ‹none = some _›
    | fail_if_no_progress with_reducible refine mk_keeps ?_ rfl rfl rfl (by and_intros <;> first | exact .inr (by with_reducible rfl) | exact .inl (sub_of hp rfl)) | dsimp only | dsimp only at e | split
theorem State.askAll_keeps {P : ℕ} {s0 s : State} (hp : 4203010 &&& P = 4203010) (h : Keeps P s0 s) (a1 : Cell) (a2 : Htid) (a3 : Txn) : Keeps P s0 (State.askAll s a1 a2 a3).2 :=
  State.askAll_keeps_eq hp (Prod.mk.eta (p := State.askAll s a1 a2 a3)).symm h
theorem State.startLost_keeps {P : ℕ} {s0 s : State} (hp : 4203010 &&& P = 4203010) (h : Keeps P s0 s) (a1 : Cell) (a2 : Htid) (a3 : Txn) : Keeps P s0 (State.startLost s a1 a2 a3) := by
  unfold State.startLost
  repeat' first
    | with_reducible assumption | exact sub_of hp rfl | exact rfl | with_reducible apply State.setTxn_keeps
    | with_reducible apply State.inc_keeps | with_reducible apply State.openTxn_keeps
    | refine State.askAll_keeps_eq (sub_of hp rfl) (by assumption) ?_ | with_reducible apply State.askAll_keeps
    | with_reducible apply State.block_keeps | with_reducible apply ite_keeps | with_reducible apply foldl_keeps
    | with_reducible refine foldl_snd_keeps ?_ (fun _ _ _ _ => ?_) | with_reducible refine getD_keeps (fun _ _ => ?_) ?_
    | intro _ | cases ‹(_, _) = (_, _)› | cases ‹some _ = some _› | cases ‹none = some _›
    | fail_if_no_progress with_reducible refine mk_keeps ?_ rfl rfl rfl (by and_intros <;> first | exact .inr (by with_reducible rfl) | exact .inl (sub_of hp rfl)) | dsimp only | split
theorem State.parkReq_keeps {P : ℕ} {s0 s : State} (hp : 4202498 &&& P = 4202498) (h : Keeps P s0 s) (a1 : Cell) (a2 : Htid) (a3 : Txn) : Keeps P s0 (State.parkReq s a1 a2 a3) := by
  unfold State.parkReq
  repeat' first
    | with_reducible assumption | exact sub_of hp rfl | exact rfl | with_reducible apply State.ctrEvent_keeps
    | with_reducible apply State.setTxn_keeps | with_reducible apply State.inc_keeps
    | with_reducible apply State.sat_keeps | with_reducible apply ite_keeps | with_reducible apply foldl_keeps
    | with_reducible refine getD_keeps (fun _ _ => ?_) ?_ | intro _ | cases ‹(_, _) = (_, _)› | cases ‹some _ = some _›
    | cases ‹none = some _›
    | fail_if_no_progress with_reducible refine mk_keeps ?_ rfl rfl rfl (by and_intros <;> first | exact .inr (by with_reducible rfl) | exact .inl (sub_of hp rfl)) | dsimp only | split
theorem State.freeShared_keeps {P : ℕ} {s0 s : State} (hp : 4202498 &&& P = 4202498) (h : Keeps P s0 s) (a1 : Cell) : Keeps P s0 (State.freeShared s a1) := by
  unfold State.freeShared
  repeat' first
    | with_reducible assumption | exact sub_of hp rfl | exact rfl | with_reducible apply State.ctrEvent_keeps
    | with_reducible apply State.setTxn_keeps | with_reducible apply State.inc_keeps
    | with_reducible apply State.dec_keeps | with_reducible apply ite_keeps | with_reducible apply foldl_keeps
    | with_reducible refine getD_keeps (fun _ _ => ?_) ?_ | intro _ | cases ‹(_, _) = (_, _)› | cases ‹some _ = some _›
    | cases ‹none = some _›
    | fail_if_no_progress with_reducible refine mk_keeps ?_ rfl rfl rfl (by and_intros <;> first | exact .inr (by with_reducible rfl) | exact .inl (sub_of hp rfl)) | dsimp only | split
theorem State.unpark_keeps {P : ℕ} {s0 s : State} (hp : 4202498 &&& P = 4202498) (h : Keeps P s0 s) (a1 : Cell) (a2 : Htid) (a3 : Txn) : Keeps P s0 (State.unpark s a1 a2 a3) := by
  unfold State.unpark
  repeat' first
    | with_reducible assumption | exact sub_of hp rfl | exact rfl | with_reducible apply State.setTxn_keeps
    | with_reducible apply State.dec_keeps | with_reducible apply State.freeShared_keeps | with_reducible apply ite_keeps
    | with_reducible apply foldl_keeps | with_reducible refine getD_keeps (fun _ _ => ?_) ?_ | intro _
    | cases ‹(_, _) = (_, _)› | cases ‹some _ = some _› | cases ‹none = some _›
    | fail_if_no_progress with_reducible refine mk_keeps ?_ rfl rfl rfl (by and_intros <;> first | exact .inr (by with_reducible rfl) | exact .inl (sub_of hp rfl)) | dsimp only | split
theorem State.withWay_keeps {P : ℕ} {s0 s : State} (hp : 4203010 &&& P = 4203010) (h : Keeps P s0 s) (a1 : Cell) (a2 : Htid) (a3 : Txn) (a4 : CSet) (a5 : ℕ) (a6 : DirEntry) : Keeps P s0 (State.withWay s a1 a2 a3 a4 a5 a6) := by
  unfold State.withWay
  repeat' first
    | with_reducible assumption | exact sub_of hp rfl | exact rfl | with_reducible apply State.runRow_keeps
    | with_reducible apply State.startLost_keeps | with_reducible apply State.unpark_keeps
    | with_reducible apply State.putCset_keeps | with_reducible apply ite_keeps | with_reducible apply foldl_keeps
    | with_reducible refine getD_keeps (fun _ _ => ?_) ?_ | intro _ | cases ‹(_, _) = (_, _)› | cases ‹some _ = some _›
    | cases ‹none = some _›
    | fail_if_no_progress with_reducible refine mk_keeps ?_ rfl rfl rfl (by and_intros <;> first | exact .inr (by with_reducible rfl) | exact .inl (sub_of hp rfl)) | dsimp only | split
theorem State.evict_keeps {P : ℕ} {s0 s : State} (hp : 4203010 &&& P = 4203010) (h : Keeps P s0 s) (a1 : Cell) (a2 : Htid) (a3 : Txn) (a4 : CSet) (a5 : ℕ) : Keeps P s0 (State.evict s a1 a2 a3 a4 a5) := by
  unfold State.evict
  repeat' first
    | with_reducible assumption | exact sub_of hp rfl | exact rfl
    | refine State.startSnoops_keeps_eq (sub_of hp rfl) (by assumption) ?_ | with_reducible apply State.startSnoops_keeps
    | refine State.startFwds_keeps_eq (sub_of hp rfl) (by assumption) ?_ | with_reducible apply State.startFwds_keeps
    | with_reducible apply State.setTxn_keeps | with_reducible apply State.inc_keeps
    | with_reducible apply State.setWay_keeps | with_reducible apply State.openTxn_keeps | with_reducible apply ite_keeps
    | with_reducible apply foldl_keeps | with_reducible refine foldl_snd_keeps ?_ (fun _ _ _ _ => ?_)
    | with_reducible refine getD_keeps (fun _ _ => ?_) ?_ | intro _ | cases ‹(_, _) = (_, _)› | cases ‹some _ = some _›
    | cases ‹none = some _›
    | fail_if_no_progress with_reducible refine mk_keeps ?_ rfl rfl rfl (by and_intros <;> first | exact .inr (by with_reducible rfl) | exact .inl (sub_of hp rfl)) | dsimp only | split
theorem State.place_keeps {P : ℕ} {s0 s : State} (hp : 4203010 &&& P = 4203010) (h : Keeps P s0 s) (a1 : Cell) (a2 : Htid) (a3 : Txn) (a4 : CSet) : Keeps P s0 (State.place s a1 a2 a3 a4) := by
  unfold State.place
  repeat' first
    | with_reducible assumption | exact sub_of hp rfl | exact rfl | with_reducible apply State.setTxn_keeps
    | with_reducible apply State.withWay_keeps | with_reducible apply State.evict_keeps
    | with_reducible apply State.parkReq_keeps | with_reducible apply ite_keeps | with_reducible apply foldl_keeps
    | with_reducible refine getD_keeps (fun _ _ => ?_) ?_ | intro _ | cases ‹(_, _) = (_, _)› | cases ‹some _ = some _›
    | cases ‹none = some _›
    | fail_if_no_progress with_reducible refine mk_keeps ?_ rfl rfl rfl (by and_intros <;> first | exact .inr (by with_reducible rfl) | exact .inl (sub_of hp rfl)) | dsimp only | split
theorem State.noteLost_keeps {P : ℕ} {s0 s : State} (hp : 24578 &&& P = 24578) (h : Keeps P s0 s) (a1 : Cell) (a2 : Cell) (a3 : ℕ) : Keeps P s0 (State.noteLost s a1 a2 a3) := by
  unfold State.noteLost
  repeat' first
    | with_reducible assumption | exact sub_of hp rfl | exact rfl | with_reducible apply State.logFault_keeps
    | with_reducible apply ite_keeps | with_reducible apply foldl_keeps
    | with_reducible refine getD_keeps (fun _ _ => ?_) ?_ | intro _ | cases ‹(_, _) = (_, _)› | cases ‹some _ = some _›
    | cases ‹none = some _›
    | fail_if_no_progress with_reducible refine mk_keeps ?_ rfl rfl rfl (by and_intros <;> first | exact .inr (by with_reducible rfl) | exact .inl (sub_of hp rfl)) | dsimp only | split
theorem State.haveSet_keeps {P : ℕ} {s0 s : State} (hp : 24578 &&& P = 24578) (h : Keeps P s0 s) (a1 : Cell) (a2 : Cell) (a3 : ℕ) (a4 : Option (List DirEntry)) : Keeps P s0 (State.haveSet s a1 a2 a3 a4) := by
  unfold State.haveSet
  repeat' first
    | with_reducible assumption | exact sub_of hp rfl | exact rfl | with_reducible apply State.noteLost_keeps
    | with_reducible apply State.putCset_keeps | with_reducible apply ite_keeps | with_reducible apply foldl_keeps
    | with_reducible refine getD_keeps (fun _ _ => ?_) ?_ | intro _ | cases ‹(_, _) = (_, _)› | cases ‹some _ = some _›
    | cases ‹none = some _›
    | fail_if_no_progress with_reducible refine mk_keeps ?_ rfl rfl rfl (by and_intros <;> first | exact .inr (by with_reducible rfl) | exact .inl (sub_of hp rfl)) | dsimp only | split
theorem State.reloadWay_keeps {P : ℕ} {s0 s : State} (hp : 24578 &&& P = 24578) (h : Keeps P s0 s) (a1 : Cell) (a2 : Txn) (a3 : CSet) (a4 : Option (List DirEntry)) : Keeps P s0 (State.reloadWay s a1 a2 a3 a4) := by
  unfold State.reloadWay
  repeat' first
    | with_reducible assumption | exact sub_of hp rfl | exact rfl | with_reducible apply State.noteLost_keeps
    | with_reducible apply State.putCset_keeps | with_reducible apply ite_keeps | with_reducible apply foldl_keeps
    | with_reducible refine getD_keeps (fun _ _ => ?_) ?_ | intro _ | cases ‹(_, _) = (_, _)› | cases ‹some _ = some _›
    | cases ‹none = some _›
    | fail_if_no_progress with_reducible refine mk_keeps ?_ rfl rfl rfl (by and_intros <;> first | exact .inr (by with_reducible rfl) | exact .inl (sub_of hp rfl)) | dsimp only | split
theorem State.withSet_keeps {P : ℕ} {s0 s : State} (hp : 4203010 &&& P = 4203010) (h : Keeps P s0 s) (a1 : Cell) (a2 : Htid) (a3 : Txn) : Keeps P s0 (State.withSet s a1 a2 a3) := by
  unfold State.withSet
  repeat' first
    | with_reducible assumption | exact sub_of hp rfl | exact rfl | with_reducible apply State.place_keeps
    | with_reducible apply State.setTxn_keeps | with_reducible apply State.closeTxn_keeps
    | with_reducible apply State.send_keeps | with_reducible apply ite_keeps | with_reducible apply foldl_keeps
    | with_reducible refine getD_keeps (fun _ _ => ?_) ?_ | intro _ | cases ‹(_, _) = (_, _)› | cases ‹some _ = some _›
    | cases ‹none = some _›
    | fail_if_no_progress with_reducible refine mk_keeps ?_ rfl rfl rfl (by and_intros <;> first | exact .inr (by with_reducible rfl) | exact .inl (sub_of hp rfl)) | dsimp only | split
theorem State.fetchSet_keeps {P : ℕ} {s0 s : State} (hp : 4219394 &&& P = 4219394) (h : Keeps P s0 s) (a1 : Cell) (a2 : Htid) (a3 : Txn) : Keeps P s0 (State.fetchSet s a1 a2 a3) := by
  unfold State.fetchSet
  repeat' first
    | with_reducible assumption | exact sub_of hp rfl | exact rfl | with_reducible apply State.setTxn_keeps
    | with_reducible apply State.reloadWay_keeps | with_reducible apply State.haveSet_keeps
    | with_reducible apply State.withSet_keeps | refine State.sendDirrd_keeps_eq (sub_of hp rfl) (by assumption) ?_
    | with_reducible apply ite_keeps | with_reducible apply foldl_keeps
    | with_reducible refine getD_keeps (fun _ _ => ?_) ?_ | intro _ | cases ‹(_, _) = (_, _)› | cases ‹some _ = some _›
    | cases ‹none = some _›
    | fail_if_no_progress with_reducible refine mk_keeps ?_ rfl rfl rfl (by and_intros <;> first | exact .inr (by with_reducible rfl) | exact .inl (sub_of hp rfl)) | dsimp only | split
theorem State.lookupEcc_keeps_eq {P : ℕ} {s0 s t : State} (hp : 2 &&& P = 2) {a1 : Cell} {a2 : Txn} {a3 : Ecc} {r} (e : State.lookupEcc s a1 a2 a3 = (r, t)) (h : Keeps P s0 s) : Keeps P s0 t := by
  unfold State.lookupEcc at e
  repeat' first
    | split at e | with_reducible assumption | exact sub_of hp rfl | exact rfl | with_reducible apply State.sat_keeps
    | with_reducible apply ite_keeps | with_reducible apply foldl_keeps
    | with_reducible refine getD_keeps (fun _ _ => ?_) ?_ | intro _ | cases ‹(_, _) = (_, _)› | cases ‹some _ = some _›
    | cases ‹none = some _›
    | fail_if_no_progress with_reducible refine mk_keeps ?_ rfl rfl rfl (by and_intros <;> first | exact .inr (by with_reducible rfl) | exact .inl (sub_of hp rfl)) | dsimp only | dsimp only at e | split
theorem State.lookupEcc_keeps {P : ℕ} {s0 s : State} (hp : 2 &&& P = 2) (h : Keeps P s0 s) (a1 : Cell) (a2 : Txn) (a3 : Ecc) : Keeps P s0 (State.lookupEcc s a1 a2 a3).2 :=
  State.lookupEcc_keeps_eq hp (Prod.mk.eta (p := State.lookupEcc s a1 a2 a3)).symm h
theorem State.startTxn_keeps {P : ℕ} {s0 s : State} (hp : 4219394 &&& P = 4219394) (h : Keeps P s0 s) (a1 : Cell) (a2 : Htid) (a3 : Txn) (a4 : Ecc) : Keeps P s0 (State.startTxn s a1 a2 a3 a4) := by
  unfold State.startTxn
  repeat' first
    | with_reducible assumption | exact sub_of hp rfl | exact rfl | with_reducible apply State.fetchSet_keeps
    | with_reducible apply State.ctrEvent_keeps | with_reducible apply State.setTxn_keeps
    | with_reducible apply State.inc_keeps | refine State.lookupEcc_keeps_eq (sub_of hp rfl) (by assumption) ?_
    | with_reducible apply State.lookupEcc_keeps | with_reducible apply State.withSet_keeps
    | with_reducible apply ite_keeps | with_reducible apply foldl_keeps
    | with_reducible refine foldl_snd_keeps ?_ (fun _ _ _ _ => ?_) | with_reducible refine getD_keeps (fun _ _ => ?_) ?_
    | intro _ | cases ‹(_, _) = (_, _)› | cases ‹some _ = some _› | cases ‹none = some _›
    | fail_if_no_progress with_reducible refine mk_keeps ?_ rfl rfl rfl (by and_intros <;> first | exact .inr (by with_reducible rfl) | exact .inl (sub_of hp rfl)) | dsimp only | split
theorem State.depart_keeps {P : ℕ} {s0 s : State} (hp : 4219394 &&& P = 4219394) (h : Keeps P s0 s) (a1 : Cell) (a2 : Htid) (a3 : Pkt) (a4 : Ecc) : Keeps P s0 (State.depart s a1 a2 a3 a4) := by
  unfold State.depart
  repeat' first
    | with_reducible assumption | exact sub_of hp rfl | exact rfl | with_reducible apply State.fetchSet_keeps
    | with_reducible apply State.openTxn_keeps | refine State.lookupEcc_keeps_eq (sub_of hp rfl) (by assumption) ?_
    | with_reducible apply State.lookupEcc_keeps | with_reducible apply State.startTxn_keeps
    | with_reducible apply ite_keeps | with_reducible apply foldl_keeps
    | with_reducible refine foldl_snd_keeps ?_ (fun _ _ _ _ => ?_) | with_reducible refine getD_keeps (fun _ _ => ?_) ?_
    | intro _ | cases ‹(_, _) = (_, _)› | cases ‹some _ = some _› | cases ‹none = some _›
    | fail_if_no_progress with_reducible refine mk_keeps ?_ rfl rfl rfl (by and_intros <;> first | exact .inr (by with_reducible rfl) | exact .inl (sub_of hp rfl)) | dsimp only | split
theorem State.specRow_keeps {P : ℕ} {s0 s : State} (hp : 514 &&& P = 514) (h : Keeps P s0 s) (a1 : Cell) (a2 : Pkt) : Keeps P s0 (State.specRow s a1 a2) := by
  unfold State.specRow
  repeat' first
    | with_reducible assumption | exact sub_of hp rfl | exact rfl | with_reducible apply State.freeCount_keeps
    | with_reducible apply State.send_keeps | with_reducible apply ite_keeps | with_reducible apply foldl_keeps
    | with_reducible refine getD_keeps (fun _ _ => ?_) ?_ | intro _ | cases ‹(_, _) = (_, _)› | cases ‹some _ = some _›
    | cases ‹none = some _›
    | fail_if_no_progress with_reducible refine mk_keeps ?_ rfl rfl rfl (by and_intros <;> first | exact .inr (by with_reducible rfl) | exact .inl (sub_of hp rfl)) | dsimp only | split
theorem State.adoptDone_keeps {P : ℕ} {s0 s : State} (hp : 8704 &&& P = 8704) (h : Keeps P s0 s) (a1 : Cell) (a2 : Htid) (a3 : Txn) : Keeps P s0 (State.adoptDone s a1 a2 a3) := by
  unfold State.adoptDone
  repeat' first
    | with_reducible assumption | exact sub_of hp rfl | exact rfl | with_reducible apply State.sendWgo_keeps
    | with_reducible apply State.setTxn_keeps | with_reducible apply State.send_keeps
    | with_reducible apply State.sendWcmp_keeps | with_reducible apply ite_keeps | with_reducible apply foldl_keeps
    | with_reducible refine getD_keeps (fun _ _ => ?_) ?_ | intro _ | cases ‹(_, _) = (_, _)› | cases ‹some _ = some _›
    | cases ‹none = some _›
    | fail_if_no_progress with_reducible refine mk_keeps ?_ rfl rfl rfl (by and_intros <;> first | exact .inr (by with_reducible rfl) | exact .inl (sub_of hp rfl)) | dsimp only | split
theorem State.adopt_keeps {P : ℕ} {s0 s : State} (hp : 8706 &&& P = 8706) (h : Keeps P s0 s) (a1 : Cell) (a2 : Htid) (a3 : Txn) (a4 : Pkt) : Keeps P s0 (State.adopt s a1 a2 a3 a4) := by
  unfold State.adopt
  repeat' first
    | with_reducible assumption | exact sub_of hp rfl | exact rfl | with_reducible apply State.advanceRd_keeps
    | with_reducible apply State.sendWgo_keeps | with_reducible apply State.setTxn_keeps
    | with_reducible apply State.finish_keeps | with_reducible apply State.inc_keeps
    | with_reducible apply State.adoptDone_keeps | with_reducible apply State.sendOwnData_keeps
    | with_reducible apply State.send_keeps | with_reducible apply State.sendWcmp_keeps | with_reducible apply ite_keeps
    | with_reducible apply foldl_keeps | with_reducible refine getD_keeps (fun _ _ => ?_) ?_ | intro _
    | cases ‹(_, _) = (_, _)› | cases ‹some _ = some _› | cases ‹none = some _›
    | fail_if_no_progress with_reducible refine mk_keeps ?_ rfl rfl rfl (by and_intros <;> first | exact .inr (by with_reducible rfl) | exact .inl (sub_of hp rfl)) | dsimp only | split
theorem State.adoptWb_keeps {P : ℕ} {s0 s : State} (hp : 8706 &&& P = 8706) (h : Keeps P s0 s) (a1 : Cell) (a2 : Htid) (a3 : Txn) (a4 : Cell × Slot × Gen) (a5 : Pkt) : Keeps P s0 (State.adoptWb s a1 a2 a3 a4 a5) := by
  unfold State.adoptWb
  repeat' first
    | with_reducible assumption | exact sub_of hp rfl | exact rfl
    | refine State.takeWb_keeps_eq (sub_of hp rfl) (by assumption) ?_ | with_reducible apply State.takeWb_keeps
    | with_reducible apply State.setTxn_keeps | with_reducible apply State.inc_keeps | with_reducible apply ite_keeps
    | with_reducible apply foldl_keeps | with_reducible refine foldl_snd_keeps ?_ (fun _ _ _ _ => ?_)
    | with_reducible refine getD_keeps (fun _ _ => ?_) ?_ | intro _ | cases ‹(_, _) = (_, _)› | cases ‹some _ = some _›
    | cases ‹none = some _›
    | fail_if_no_progress with_reducible refine mk_keeps ?_ rfl rfl rfl (by and_intros <;> first | exact .inr (by with_reducible rfl) | exact .inl (sub_of hp rfl)) | dsimp only | split
theorem State.departNext_keeps {P : ℕ} {s0 s : State} (hp : 4219394 &&& P = 4219394) (h : Keeps P s0 s) (a1 : Cell) : Keeps P s0 (State.departNext s a1) := by
  unfold State.departNext
  split
  · exact h
  · extract_lets p out
    have h1 : ∀ u, Keeps P s0 u → Keeps P s0 (out u) := fun u h =>
      State.ctrEvent_keeps (sub_of hp rfl) (State.inc_keeps (sub_of hp rfl) (State.intakeTake_keeps (sub_of hp rfl) h _ _) _ _) _ _ _ _ _ _
    have h2 := h1 s h
    clear_value out
    split
    · exact ite_keeps (fun _ => State.adopt_keeps (sub_of hp rfl) h2 _ _ _ _) fun _ => State.inc_keeps (sub_of hp rfl) h2 _ _
    · split
      · refine State.sat_keeps (sub_of hp rfl) ?_ _ _
        exact mk_keeps h2 rfl rfl rfl (by and_intros <;> first | exact .inr (by with_reducible rfl) | exact .inl (sub_of hp rfl))
      · split
        · exact h
        · exact ite_keeps (fun _ => State.specRow_keeps (sub_of hp rfl) h2 _ _) fun _ => State.depart_keeps (sub_of hp rfl) h2 _ _ _ _
theorem State.homeRequest_keeps {P : ℕ} {s0 s : State} (hp : 4254210 &&& P = 4254210) (h : Keeps P s0 s) (a1 : Pkt) (a2 : Ecc) : Keeps P s0 (State.homeRequest s a1 a2) := by
  unfold State.homeRequest
  repeat' first
    | with_reducible assumption | exact sub_of hp rfl | exact rfl | with_reducible apply State.adoptWb_keeps
    | refine State.takeWb_keeps_eq (sub_of hp rfl) (by assumption) ?_ | with_reducible apply State.takeWb_keeps
    | with_reducible apply State.intakePut_keeps | with_reducible apply State.setTxn_keeps
    | with_reducible apply State.arrive_keeps | with_reducible apply State.inc_keeps
    | with_reducible apply State.adopt_keeps | with_reducible apply State.departNext_keeps
    | with_reducible apply ite_keeps | with_reducible apply foldl_keeps
    | with_reducible refine foldl_snd_keeps ?_ (fun _ _ _ _ => ?_) | with_reducible refine getD_keeps (fun _ _ => ?_) ?_
    | intro _ | cases ‹(_, _) = (_, _)› | cases ‹some _ = some _› | cases ‹none = some _›
    | fail_if_no_progress with_reducible refine mk_keeps ?_ rfl rfl rfl (by and_intros <;> first | exact .inr (by with_reducible rfl) | exact .inl (sub_of hp rfl)) | dsimp only | split
theorem State.evicted_keeps {P : ℕ} {s0 s : State} (hp : 4203010 &&& P = 4203010) (h : Keeps P s0 s) (a1 : Cell) (a2 : Htid) (a3 : Txn) : Keeps P s0 (State.evicted s a1 a2 a3) := by
  unfold State.evicted
  repeat' first
    | with_reducible assumption | exact sub_of hp rfl | exact rfl | with_reducible apply State.withWay_keeps
    | with_reducible apply State.closeTxn_keeps | with_reducible apply State.setWay_keeps | with_reducible apply ite_keeps
    | with_reducible apply foldl_keeps | with_reducible refine getD_keeps (fun _ _ => ?_) ?_ | intro _
    | cases ‹(_, _) = (_, _)› | cases ‹some _ = some _› | cases ‹none = some _›
    | fail_if_no_progress with_reducible refine mk_keeps ?_ rfl rfl rfl (by and_intros <;> first | exact .inr (by with_reducible rfl) | exact .inl (sub_of hp rfl)) | dsimp only | split
theorem State.recovered_keeps {P : ℕ} {s0 s : State} (hp : 4203010 &&& P = 4203010) (h : Keeps P s0 s) (a1 : Cell) (a2 : Htid) (a3 : Txn) : Keeps P s0 (State.recovered s a1 a2 a3) := by
  unfold State.recovered
  extract_lets img set k src u ways
  have h1 : Keeps P s0 u := mk_keeps h rfl rfl rfl (by and_intros <;> first | exact .inr (by with_reducible rfl) | exact .inl (sub_of hp rfl))
  have h2 := foldl_snd_keeps (b := 0) (l := List.range ways.length) (f := fun (acc : Nat × State) w =>
      let e := (ways[w]?).getD {}
      let (k, s) := acc.2.sendDirwr a1 a2 a3.req img set w (u.stableWay a1 img set w e)
      (acc.1 + k, s)) h1 fun _ _ _ h => State.sendDirwr_keeps (sub_of hp rfl) h _ _ _ _ _ _ _
  split
  rename_i e
  rw [e] at h2
  extract_lets t
  split
  · exact State.runRow_keeps (sub_of hp rfl) h2 _ _ _
  · rename_i x v _ _ _
    have h3 : Keeps P s0 v := State.setWay_keeps (sub_of hp rfl) (ite_keeps (fun _ => State.closeTxn_keeps (sub_of hp rfl) h2 _ _) fun _ => State.setTxn_keeps (sub_of hp rfl) h2 _ _ _) _ _ _ _ _
    clear_value v
    split
    · exact State.runRow_keeps (sub_of hp rfl) h3 _ _ _
    · exact h3
theorem State.advance_keeps {P : ℕ} {s0 s : State} (hp : 4203010 &&& P = 4203010) (h : Keeps P s0 s) (a1 : Cell) (a2 : Htid) (a3 : Txn) : Keeps P s0 (State.advance s a1 a2 a3) := by
  unfold State.advance
  repeat' first
    | with_reducible assumption | exact sub_of hp rfl | exact rfl | with_reducible apply State.advanceRd_keeps
    | refine State.sendSnoops_keeps_eq (sub_of hp rfl) (by assumption) ?_ | with_reducible apply State.sendSnoops_keeps
    | with_reducible apply State.setTxn_keeps | with_reducible apply State.finish_keeps
    | with_reducible apply State.closeTxn_keeps | refine State.writeEntry_keeps_eq (sub_of hp rfl) (by assumption) ?_
    | with_reducible apply State.writeEntry_keeps | with_reducible apply State.recovered_keeps
    | with_reducible apply State.evicted_keeps | with_reducible apply State.afterSnoops_keeps
    | with_reducible apply ite_keeps | with_reducible apply foldl_keeps
    | with_reducible refine foldl_snd_keeps ?_ (fun _ _ _ _ => ?_) | with_reducible refine getD_keeps (fun _ _ => ?_) ?_
    | intro _ | cases ‹(_, _) = (_, _)› | cases ‹some _ = some _› | cases ‹none = some _›
    | fail_if_no_progress with_reducible refine mk_keeps ?_ rfl rfl rfl (by and_intros <;> first | exact .inr (by with_reducible rfl) | exact .inl (sub_of hp rfl)) | dsimp only | split

/-! ### Machine/OwnerOps -/

theorem State.setProxy_keeps {P : ℕ} {s0 s : State} (hp : 8192 &&& P = 8192) (h : Keeps P s0 s) (a1 : Cell) (a2 : ℕ) (a3 : PEnt) : Keeps P s0 (State.setProxy s a1 a2 a3) := by
  unfold State.setProxy
  repeat' first
    | with_reducible assumption | exact sub_of hp rfl | exact rfl | with_reducible apply ite_keeps
    | with_reducible apply foldl_keeps | with_reducible refine getD_keeps (fun _ _ => ?_) ?_ | intro _
    | cases ‹(_, _) = (_, _)› | cases ‹some _ = some _› | cases ‹none = some _›
    | fail_if_no_progress with_reducible refine mk_keeps ?_ rfl rfl rfl (by and_intros <;> first | exact .inr (by with_reducible rfl) | exact .inl (sub_of hp rfl)) | dsimp only | split
theorem State.unparkInstall_keeps {P : ℕ} {s0 s : State} (hp : 4202498 &&& P = 4202498) (h : Keeps P s0 s) (a1 : Cell) (a2 : Parked) : Keeps P s0 (State.unparkInstall s a1 a2) := by
  unfold State.unparkInstall
  repeat' first
    | with_reducible assumption | exact sub_of hp rfl | exact rfl | with_reducible apply State.dec_keeps
    | with_reducible apply State.freeShared_keeps | with_reducible apply ite_keeps | with_reducible apply foldl_keeps
    | with_reducible refine getD_keeps (fun _ _ => ?_) ?_ | intro _ | cases ‹(_, _) = (_, _)› | cases ‹some _ = some _›
    | cases ‹none = some _›
    | fail_if_no_progress with_reducible refine mk_keeps ?_ rfl rfl rfl (by and_intros <;> first | exact .inr (by with_reducible rfl) | exact .inl (sub_of hp rfl)) | dsimp only | split
theorem State.dropProxy_keeps {P : ℕ} {s0 s : State} (hp : 4202498 &&& P = 4202498) (h : Keeps P s0 s) (a1 : Cell) (a2 : ℕ) : Keeps P s0 (State.dropProxy s a1 a2) := by
  unfold State.dropProxy
  repeat' first
    | with_reducible assumption | exact sub_of hp rfl | exact rfl | with_reducible apply State.unparkInstall_keeps
    | with_reducible apply State.dec_keeps | with_reducible apply ite_keeps | with_reducible apply foldl_keeps
    | with_reducible refine getD_keeps (fun _ _ => ?_) ?_ | intro _ | cases ‹(_, _) = (_, _)› | cases ‹some _ = some _›
    | cases ‹none = some _›
    | fail_if_no_progress with_reducible refine mk_keeps ?_ rfl rfl rfl (by and_intros <;> first | exact .inr (by with_reducible rfl) | exact .inl (sub_of hp rfl)) | dsimp only | split
theorem State.touchProxy_keeps {P : ℕ} {s0 s : State} (hp : 8192 &&& P = 8192) (h : Keeps P s0 s) (a1 : Cell) (a2 : ℕ) (a3 : ℕ) : Keeps P s0 (State.touchProxy s a1 a2 a3) := by
  unfold State.touchProxy
  repeat' first
    | with_reducible assumption | exact sub_of hp rfl | exact rfl | with_reducible apply ite_keeps
    | with_reducible apply foldl_keeps | with_reducible refine getD_keeps (fun _ _ => ?_) ?_ | intro _
    | cases ‹(_, _) = (_, _)› | cases ‹some _ = some _› | cases ‹none = some _›
    | fail_if_no_progress with_reducible refine mk_keeps ?_ rfl rfl rfl (by and_intros <;> first | exact .inr (by with_reducible rfl) | exact .inl (sub_of hp rfl)) | dsimp only | split
theorem State.usedProxy_keeps {P : ℕ} {s0 s : State} (hp : 8192 &&& P = 8192) (h : Keeps P s0 s) (a1 : Cell) (a2 : ℕ) : Keeps P s0 (State.usedProxy s a1 a2) := by
  unfold State.usedProxy
  repeat' first
    | with_reducible assumption | exact sub_of hp rfl | exact rfl | with_reducible apply State.touchProxy_keeps
    | with_reducible apply ite_keeps | with_reducible apply foldl_keeps
    | with_reducible refine getD_keeps (fun _ _ => ?_) ?_ | intro _ | cases ‹(_, _) = (_, _)› | cases ‹some _ = some _›
    | cases ‹none = some _›
    | fail_if_no_progress with_reducible refine mk_keeps ?_ rfl rfl rfl (by and_intros <;> first | exact .inr (by with_reducible rfl) | exact .inl (sub_of hp rfl)) | dsimp only | split
theorem State.putProxy_keeps {P : ℕ} {s0 s : State} (hp : 8194 &&& P = 8194) (h : Keeps P s0 s) (a1 : Cell) (a2 : ℕ) (a3 : ℕ) (a4 : PEnt) : Keeps P s0 (State.putProxy s a1 a2 a3 a4) := by
  unfold State.putProxy
  repeat' first
    | with_reducible assumption | exact sub_of hp rfl | exact rfl | with_reducible apply State.raise_keeps
    | with_reducible apply State.inc_keeps | with_reducible apply State.dec_keeps
    | with_reducible apply State.touchProxy_keeps | with_reducible apply ite_keeps | with_reducible apply foldl_keeps
    | with_reducible refine getD_keeps (fun _ _ => ?_) ?_ | intro _ | cases ‹(_, _) = (_, _)› | cases ‹some _ = some _›
    | cases ‹none = some _›
    | fail_if_no_progress with_reducible refine mk_keeps ?_ rfl rfl rfl (by and_intros <;> first | exact .inr (by with_reducible rfl) | exact .inl (sub_of hp rfl)) | dsimp only | split
theorem State.installProxy_keeps {P : ℕ} {s0 s : State} (hp : 4202498 &&& P = 4202498) (h : Keeps P s0 s) (a1 : Cell) (a2 : ℕ) (a3 : Cell) (a4 : Cell) (a5 : Bool) : Keeps P s0 (State.installProxy s a1 a2 a3 a4 a5) := by
  unfold State.installProxy
  repeat' first
    | with_reducible assumption | exact sub_of hp rfl | exact rfl | with_reducible apply State.usedProxy_keeps
    | with_reducible apply State.setProxy_keeps | with_reducible apply State.ctrEvent_keeps
    | with_reducible apply State.inc_keeps | with_reducible apply State.putProxy_keeps | with_reducible apply ite_keeps
    | with_reducible apply foldl_keeps | with_reducible refine getD_keeps (fun _ _ => ?_) ?_ | intro _
    | cases ‹(_, _) = (_, _)› | cases ‹some _ = some _› | cases ‹none = some _›
    | fail_if_no_progress with_reducible refine mk_keeps ?_ rfl rfl rfl (by and_intros <;> first | exact .inr (by with_reducible rfl) | exact .inl (sub_of hp rfl)) | dsimp only | split
theorem State.toHome_keeps {P : ℕ} {s0 s : State} (hp : 1536 &&& P = 1536) (h : Keeps P s0 s) (a1 : Cell) (a2 : Pkt) : Keeps P s0 (State.toHome s a1 a2) := by
  unfold State.toHome
  repeat' first
    | with_reducible assumption | exact sub_of hp rfl | exact rfl | with_reducible apply State.send_keeps
    | with_reducible apply ite_keeps | with_reducible apply foldl_keeps
    | with_reducible refine getD_keeps (fun _ _ => ?_) ?_ | intro _ | cases ‹(_, _) = (_, _)› | cases ‹some _ = some _›
    | cases ‹none = some _›
    | fail_if_no_progress with_reducible refine mk_keeps ?_ rfl rfl rfl (by and_intros <;> first | exact .inr (by with_reducible rfl) | exact .inl (sub_of hp rfl)) | dsimp only | split
theorem State.fwdAdmit_keeps {P : ℕ} {s0 s : State} (hp : 8194 &&& P = 8194) (h : Keeps P s0 s) (a1 : Cell) : Keeps P s0 (State.fwdAdmit s a1) := by
  unfold State.fwdAdmit
  repeat' first
    | with_reducible assumption | exact sub_of hp rfl | exact rfl | with_reducible apply State.inc_keeps
    | with_reducible apply ite_keeps | with_reducible apply foldl_keeps
    | with_reducible refine getD_keeps (fun _ _ => ?_) ?_ | intro _ | cases ‹(_, _) = (_, _)› | cases ‹some _ = some _›
    | cases ‹none = some _›
    | fail_if_no_progress with_reducible refine mk_keeps ?_ rfl rfl rfl (by and_intros <;> first | exact .inr (by with_reducible rfl) | exact .inl (sub_of hp rfl)) | dsimp only | split
theorem State.fwdReply_keeps {P : ℕ} {s0 s : State} (hp : 4204034 &&& P = 4204034) (h : Keeps P s0 s) (a1 : Cell) (a2 : Pkt) (a3 : Bool) (a4 : Mv) : Keeps P s0 (State.fwdReply s a1 a2 a3 a4) := by
  unfold State.fwdReply
  repeat' first
    | with_reducible assumption | exact sub_of hp rfl | exact rfl | with_reducible apply State.fwdAdmit_keeps
    | with_reducible apply State.setProxy_keeps | with_reducible apply State.dropProxy_keeps
    | with_reducible apply State.dec_keeps | with_reducible apply State.toHome_keeps
    | with_reducible apply State.send_keeps | with_reducible apply ite_keeps | with_reducible apply foldl_keeps
    | with_reducible refine getD_keeps (fun _ _ => ?_) ?_ | intro _ | cases ‹(_, _) = (_, _)› | cases ‹some _ = some _›
    | cases ‹none = some _›
    | fail_if_no_progress with_reducible refine mk_keeps ?_ rfl rfl rfl (by and_intros <;> first | exact .inr (by with_reducible rfl) | exact .inl (sub_of hp rfl)) | dsimp only | split
theorem State.fwdTakesWrite_keeps {P : ℕ} {s0 s : State} (hp : 8706 &&& P = 8706) (h : Keeps P s0 s) (a1 : Cell) (a2 : FwdServe) (a3 : Pkt) : Keeps P s0 (State.fwdTakesWrite s a1 a2 a3) := by
  unfold State.fwdTakesWrite
  repeat' first
    | with_reducible assumption | exact sub_of hp rfl | exact rfl | with_reducible apply State.sendWgo_keeps
    | with_reducible apply State.freeCount_keeps | with_reducible apply State.sendWcmp_keeps
    | with_reducible apply ite_keeps | with_reducible apply foldl_keeps
    | with_reducible refine getD_keeps (fun _ _ => ?_) ?_ | intro _ | cases ‹(_, _) = (_, _)› | cases ‹some _ = some _›
    | cases ‹none = some _›
    | fail_if_no_progress with_reducible refine mk_keeps ?_ rfl rfl rfl (by and_intros <;> first | exact .inr (by with_reducible rfl) | exact .inl (sub_of hp rfl)) | dsimp only | split
theorem State.fwdSnoop1_keeps {P : ℕ} {s0 s : State} (hp : 4203010 &&& P = 4203010) (h : Keeps P s0 s) (a1 : Cell) (a2 : FwdServe) : Keeps P s0 (State.fwdSnoop1 s a1 a2) := by
  unfold State.fwdSnoop1
  repeat' first
    | with_reducible assumption | exact sub_of hp rfl | exact rfl | with_reducible apply State.ctrEvent_keeps
    | with_reducible apply State.inc_keeps | with_reducible apply State.fwdTakesWrite_keeps
    | with_reducible apply State.send_keeps | with_reducible apply ite_keeps | with_reducible apply foldl_keeps
    | with_reducible refine getD_keeps (fun _ _ => ?_) ?_ | intro _ | cases ‹(_, _) = (_, _)› | cases ‹some _ = some _›
    | cases ‹none = some _›
    | fail_if_no_progress with_reducible refine mk_keeps ?_ rfl rfl rfl (by and_intros <;> first | exact .inr (by with_reducible rfl) | exact .inl (sub_of hp rfl)) | dsimp only | split
theorem State.fwdSnoops_keeps {P : ℕ} {s0 s : State} (hp : 4203010 &&& P = 4203010) (h : Keeps P s0 s) (a1 : Cell) : Keeps P s0 (State.fwdSnoops s a1) := by
  unfold State.fwdSnoops
  repeat' first
    | with_reducible assumption | exact sub_of hp rfl | exact rfl | with_reducible apply State.fwdSnoop1_keeps
    | with_reducible apply ite_keeps | with_reducible apply foldl_keeps
    | with_reducible refine getD_keeps (fun _ _ => ?_) ?_ | intro _ | cases ‹(_, _) = (_, _)› | cases ‹some _ = some _›
    | cases ‹none = some _›
    | fail_if_no_progress with_reducible refine mk_keeps ?_ rfl rfl rfl (by and_intros <;> first | exact .inr (by with_reducible rfl) | exact .inl (sub_of hp rfl)) | dsimp only | split
theorem State.serveFwd_keeps {P : ℕ} {s0 s : State} (hp : 4204034 &&& P = 4204034) (h : Keeps P s0 s) (a1 : Cell) (a2 : Pkt) : Keeps P s0 (State.serveFwd s a1 a2) := by
  unfold State.serveFwd
  repeat' first
    | with_reducible assumption | exact sub_of hp rfl | exact rfl | with_reducible apply State.setProxy_keeps
    | with_reducible apply State.fwdReply_keeps | with_reducible apply State.inc_keeps
    | with_reducible apply State.fwdSnoops_keeps | with_reducible apply ite_keeps | with_reducible apply foldl_keeps
    | with_reducible refine getD_keeps (fun _ _ => ?_) ?_ | intro _ | cases ‹(_, _) = (_, _)› | cases ‹some _ = some _›
    | cases ‹none = some _›
    | fail_if_no_progress with_reducible refine mk_keeps ?_ rfl rfl rfl (by and_intros <;> first | exact .inr (by with_reducible rfl) | exact .inl (sub_of hp rfl)) | dsimp only | split
theorem State.fwdAdvance_keeps {P : ℕ} {s0 s : State} (hp : 4204034 &&& P = 4204034) (h : Keeps P s0 s) (a1 : Cell) (a2 : FwdServe) : Keeps P s0 (State.fwdAdvance s a1 a2) := by
  unfold State.fwdAdvance
  repeat' first
    | with_reducible assumption | exact sub_of hp rfl | exact rfl | with_reducible apply State.fwdReply_keeps
    | with_reducible apply ite_keeps | with_reducible apply foldl_keeps
    | with_reducible refine getD_keeps (fun _ _ => ?_) ?_ | intro _ | cases ‹(_, _) = (_, _)› | cases ‹some _ = some _›
    | cases ‹none = some _›
    | fail_if_no_progress with_reducible refine mk_keeps ?_ rfl rfl rfl (by and_intros <;> first | exact .inr (by with_reducible rfl) | exact .inl (sub_of hp rfl)) | dsimp only | split
theorem State.proxyStart_keeps {P : ℕ} {s0 s : State} (hp : 4203010 &&& P = 4203010) (h : Keeps P s0 s) (a1 : Cell) (a2 : Htid) (a3 : Pkt) (a4 : PEnt) : Keeps P s0 (State.proxyStart s a1 a2 a3 a4) := by
  unfold State.proxyStart
  repeat' first
    | with_reducible assumption | exact sub_of hp rfl | exact rfl | with_reducible apply State.usedProxy_keeps
    | with_reducible apply State.setProxy_keeps | with_reducible apply State.sendWgo_keeps
    | with_reducible apply State.ctrEvent_keeps | with_reducible apply State.setTxn_keeps
    | refine State.sendGrant_keeps_eq (sub_of hp rfl) (by assumption) ?_ | with_reducible apply State.sendGrant_keeps
    | with_reducible apply State.inc_keeps | with_reducible apply State.openTxn_keeps
    | with_reducible apply State.sendOwnData_keeps | with_reducible apply State.sendWcmp_keeps
    | refine State.sendMrd_keeps_eq (sub_of hp rfl) (by assumption) ?_ | with_reducible apply State.sendMrd_keeps
    | with_reducible apply ite_keeps | with_reducible apply foldl_keeps
    | with_reducible refine foldl_snd_keeps ?_ (fun _ _ _ _ => ?_) | with_reducible refine getD_keeps (fun _ _ => ?_) ?_
    | intro _ | cases ‹(_, _) = (_, _)› | cases ‹some _ = some _› | cases ‹none = some _›
    | fail_if_no_progress with_reducible refine mk_keeps ?_ rfl rfl rfl (by and_intros <;> first | exact .inr (by with_reducible rfl) | exact .inl (sub_of hp rfl)) | dsimp only | split
theorem State.proxyRun_keeps {P : ℕ} {s0 s : State} (hp : 4204034 &&& P = 4204034) (h : Keeps P s0 s) (a1 : Cell) (a2 : ℕ) : Keeps P s0 (State.proxyRun s a1 a2) := by
  unfold State.proxyRun
  refine ite_keeps (fun _ => h) fun _ => ?_
  split
  · exact h
  · extract_lets pop read wr
    have hq : Keeps P s0 (pop s) := mk_keeps h rfl rfl rfl (by and_intros <;> first | exact .inr (by with_reducible rfl) | exact .inl (sub_of hp rfl))
    generalize pop s = t at hq ⊢
    refine ite_keeps (fun _ => ite_keeps (fun _ => h) fun _ => State.serveFwd_keeps (sub_of hp rfl) hq _ _) fun _ => ?_
    split
    · exact State.toHome_keeps (sub_of hp rfl) hq _ _
    · refine ite_keeps (fun _ => h) fun _ => ?_
      split
      · exact State.proxyStart_keeps (sub_of hp rfl) hq _ _ _ _
      · exact h
theorem State.proxyOrder_keeps_eq {P : ℕ} {s0 s t : State} (hp : 4204034 &&& P = 4204034) {a1 : Cell} {a2 : Pkt} (e : State.proxyOrder s a1 a2 = some t) (h : Keeps P s0 s) : Keeps P s0 t := by
  unfold State.proxyOrder at e
  split at e
  · cases e
  · split at e
    · cases e
      exact State.fwdTakesWrite_keeps (sub_of hp rfl) h _ _ _
    · split at e
      · cases e
      · split at e
        · split at e
          · cases e
            exact State.send_keeps (sub_of hp rfl) h _
          · cases e
            exact State.freeCount_keeps (sub_of hp rfl) h _ _
        · dsimp only at e
          split at e
          · cases e
            exact mk_keeps h rfl rfl rfl (by and_intros <;> first | exact .inr (by with_reducible rfl) | exact .inl (sub_of hp rfl))
          · cases e
            exact State.proxyRun_keeps (sub_of hp rfl) (mk_keeps h rfl rfl rfl (by and_intros <;> first | exact .inr (by with_reducible rfl) | exact .inl (sub_of hp rfl))) _ _
theorem State.proxyDone_keeps {P : ℕ} {s0 s : State} (hp : 4204034 &&& P = 4204034) (h : Keeps P s0 s) (a1 : Cell) (a2 : Htid) (a3 : Txn) : Keeps P s0 (State.proxyDone s a1 a2 a3) := by
  unfold State.proxyDone
  repeat' first
    | with_reducible assumption | exact sub_of hp rfl | exact rfl | with_reducible apply State.setProxy_keeps
    | with_reducible apply State.proxyRun_keeps | with_reducible apply State.setTxn_keeps
    | with_reducible apply State.closeTxn_keeps | with_reducible apply ite_keeps | with_reducible apply foldl_keeps
    | with_reducible refine getD_keeps (fun _ _ => ?_) ?_ | intro _ | cases ‹(_, _) = (_, _)› | cases ‹some _ = some _›
    | cases ‹none = some _›
    | fail_if_no_progress with_reducible refine mk_keeps ?_ rfl rfl rfl (by and_intros <;> first | exact .inr (by with_reducible rfl) | exact .inl (sub_of hp rfl)) | dsimp only | split
theorem State.proxyWrote_keeps {P : ℕ} {s0 s : State} (hp : 4204034 &&& P = 4204034) (h : Keeps P s0 s) (a1 : Cell) (a2 : Htid) (a3 : Txn) : Keeps P s0 (State.proxyWrote s a1 a2 a3) := by
  unfold State.proxyWrote
  repeat' first
    | with_reducible assumption | exact sub_of hp rfl | exact rfl | with_reducible apply State.setProxy_keeps
    | with_reducible apply State.proxyRun_keeps | with_reducible apply State.closeTxn_keeps
    | with_reducible apply ite_keeps | with_reducible apply foldl_keeps
    | with_reducible refine getD_keeps (fun _ _ => ?_) ?_ | intro _ | cases ‹(_, _) = (_, _)› | cases ‹some _ = some _›
    | cases ‹none = some _›
    | fail_if_no_progress with_reducible refine mk_keeps ?_ rfl rfl rfl (by and_intros <;> first | exact .inr (by with_reducible rfl) | exact .inl (sub_of hp rfl)) | dsimp only | split
theorem State.proxyAdopt_keeps {P : ℕ} {s0 s : State} (hp : 4204034 &&& P = 4204034) (h : Keeps P s0 s) (a1 : Cell) (a2 : Htid) (a3 : Txn) (a4 : Pkt) : Keeps P s0 (State.proxyAdopt s a1 a2 a3 a4) := by
  unfold State.proxyAdopt
  repeat' first
    | with_reducible assumption | exact sub_of hp rfl | exact rfl | with_reducible apply State.sendWgo_keeps
    | with_reducible apply State.setTxn_keeps | refine State.sendGrant_keeps_eq (sub_of hp rfl) (by assumption) ?_
    | with_reducible apply State.sendGrant_keeps | with_reducible apply State.inc_keeps
    | with_reducible apply State.sendOwnData_keeps | with_reducible apply State.send_keeps
    | with_reducible apply State.sendWcmp_keeps | with_reducible apply State.proxyWrote_keeps
    | with_reducible apply ite_keeps | with_reducible apply foldl_keeps
    | with_reducible refine foldl_snd_keeps ?_ (fun _ _ _ _ => ?_) | with_reducible refine getD_keeps (fun _ _ => ?_) ?_
    | intro _ | cases ‹(_, _) = (_, _)› | cases ‹some _ = some _› | cases ‹none = some _›
    | fail_if_no_progress with_reducible refine mk_keeps ?_ rfl rfl rfl (by and_intros <;> first | exact .inr (by with_reducible rfl) | exact .inl (sub_of hp rfl)) | dsimp only | split

/-! ### Machine/EngineOps -/

theorem State.portCredit_keeps {P : ℕ} {s0 s : State} (hp : 2 &&& P = 2) (h : Keeps P s0 s) (a1 : Cell) : Keeps P s0 (State.portCredit s a1) := by
  unfold State.portCredit
  repeat' first
    | with_reducible assumption | exact sub_of hp rfl | exact rfl | with_reducible apply State.wrb_keeps
    | with_reducible apply ite_keeps | with_reducible apply foldl_keeps
    | with_reducible refine getD_keeps (fun _ _ => ?_) ?_ | intro _ | cases ‹(_, _) = (_, _)› | cases ‹some _ = some _›
    | cases ‹none = some _›
    | fail_if_no_progress with_reducible refine mk_keeps ?_ rfl rfl rfl (by and_intros <;> first | exact .inr (by with_reducible rfl) | exact .inl (sub_of hp rfl)) | dsimp only | split
theorem State.creditUpdate_keeps {P : ℕ} {s0 s : State} (hp : 2 &&& P = 2) (h : Keeps P s0 s) (a1 : Cell) (a2 : ℕ) : Keeps P s0 (State.creditUpdate s a1 a2) := by
  unfold State.creditUpdate
  repeat' first
    | with_reducible assumption | exact sub_of hp rfl | exact rfl | with_reducible apply State.portCredit_keeps
    | with_reducible apply State.wrb_keeps | with_reducible apply ite_keeps | with_reducible apply foldl_keeps
    | with_reducible refine getD_keeps (fun _ _ => ?_) ?_ | intro _ | cases ‹(_, _) = (_, _)› | cases ‹some _ = some _›
    | cases ‹none = some _›
    | fail_if_no_progress with_reducible refine mk_keeps ?_ rfl rfl rfl (by and_intros <;> first | exact .inr (by with_reducible rfl) | exact .inl (sub_of hp rfl)) | dsimp only | split
theorem State.passIn_keeps {P : ℕ} {s0 s : State} (hp : 4195842 &&& P = 4195842) (h : Keeps P s0 s) (a1 : Cell) (a2 : Cell) (a3 : Opc) (a4 : Tc) (a5 : BitVec 52) (a6 : Cell) (a7 : List Line) (a8 : Option PassTag) (a9 : ℕ) : Keeps P s0 (State.passIn s a1 a2 a3 a4 a5 a6 a7 a8 a9) := by
  unfold State.passIn
  repeat' first
    | with_reducible assumption | exact sub_of hp rfl | exact rfl | with_reducible apply State.takeSlot_keeps
    | with_reducible apply State.portCredit_keeps | with_reducible apply State.send_keeps | with_reducible apply ite_keeps
    | with_reducible apply foldl_keeps | with_reducible refine getD_keeps (fun _ _ => ?_) ?_ | intro _
    | cases ‹(_, _) = (_, _)› | cases ‹some _ = some _› | cases ‹none = some _›
    | fail_if_no_progress with_reducible refine mk_keeps ?_ rfl rfl rfl (by and_intros <;> first | exact .inr (by with_reducible rfl) | exact .inl (sub_of hp rfl)) | dsimp only | split
theorem State.answerHere_keeps {P : ℕ} {s0 s : State} (hp : 4195330 &&& P = 4195330) (h : Keeps P s0 s) (a1 : Cell) (a2 : Cell) (a3 : Pkt) (a4 : ℕ) (a5 : Resp) (a6 : optParam Bool false) (a7 : optParam Bool false) : Keeps P s0 (State.answerHere s a1 a2 a3 a4 a5 a6 a7) := by
  unfold State.answerHere
  repeat' first
    | with_reducible assumption | exact sub_of hp rfl | exact rfl | with_reducible apply State.takeSlot_keeps
    | with_reducible apply ite_keeps | with_reducible apply foldl_keeps
    | with_reducible refine getD_keeps (fun _ _ => ?_) ?_ | intro _ | cases ‹(_, _) = (_, _)› | cases ‹some _ = some _›
    | cases ‹none = some _›
    | fail_if_no_progress with_reducible refine mk_keeps ?_ rfl rfl rfl (by and_intros <;> first | exact .inr (by with_reducible rfl) | exact .inl (sub_of hp rfl)) | dsimp only | split
theorem State.releaseSlot_keeps {P : ℕ} {s0 s : State} (hp : 17922 &&& P = 17922) (h : Keeps P s0 s) (a1 : Cell) (a2 : Slot) (a3 : TSlot) : Keeps P s0 (State.releaseSlot s a1 a2 a3) := by
  unfold State.releaseSlot
  repeat' first
    | with_reducible assumption | exact sub_of hp rfl | exact rfl | with_reducible apply State.creditUpdate_keeps
    | with_reducible apply State.dec_keeps | with_reducible apply State.portCredit_keeps
    | with_reducible apply State.freeSlot_keeps | with_reducible apply ite_keeps | with_reducible apply foldl_keeps
    | with_reducible refine getD_keeps (fun _ _ => ?_) ?_ | intro _ | cases ‹(_, _) = (_, _)› | cases ‹some _ = some _›
    | cases ‹none = some _›
    | fail_if_no_progress with_reducible refine mk_keeps ?_ rfl rfl rfl (by and_intros <;> first | exact .inr (by with_reducible rfl) | exact .inl (sub_of hp rfl)) | dsimp only | split
theorem State.engineReq_keeps {P : ℕ} {s0 s : State} (hp : 512 &&& P = 512) (h : Keeps P s0 s) (a1 : ℕ) (a2 : Opc) (a3 : ℕ) (a4 : ℕ) (a5 : optParam ℕ 0) : Keeps P s0 (State.engineReq s a1 a2 a3 a4 a5) := by
  unfold State.engineReq
  repeat' first
    | with_reducible assumption | exact sub_of hp rfl | exact rfl | with_reducible apply State.send_keeps
    | with_reducible apply ite_keeps | with_reducible apply foldl_keeps
    | with_reducible refine getD_keeps (fun _ _ => ?_) ?_ | intro _ | cases ‹(_, _) = (_, _)› | cases ‹some _ = some _›
    | cases ‹none = some _›
    | fail_if_no_progress with_reducible refine mk_keeps ?_ rfl rfl rfl (by and_intros <;> first | exact .inr (by with_reducible rfl) | exact .inl (sub_of hp rfl)) | dsimp only | split
theorem State.setPart_keeps {P : ℕ} {s0 s : State} (hp : 524288 &&& P = 524288) (h : Keeps P s0 s) (a1 : ℕ) (a2 : CopyOp) (a3 : CopyPart) : Keeps P s0 (State.setPart s a1 a2 a3) := by
  unfold State.setPart
  repeat' first
    | with_reducible assumption | exact sub_of hp rfl | exact rfl | with_reducible apply ite_keeps
    | with_reducible apply foldl_keeps | with_reducible refine getD_keeps (fun _ _ => ?_) ?_ | intro _
    | cases ‹(_, _) = (_, _)› | cases ‹some _ = some _› | cases ‹none = some _›
    | fail_if_no_progress with_reducible refine mk_keeps ?_ rfl rfl rfl (by and_intros <;> first | exact .inr (by with_reducible rfl) | exact .inl (sub_of hp rfl)) | dsimp only | split
theorem State.copyNext_keeps {P : ℕ} {s0 s : State} (hp : 524800 &&& P = 524800) (h : Keeps P s0 s) (a1 : ℕ) (a2 : CopyOp) (a3 : CopyPart) (a4 : ℕ) : Keeps P s0 (State.copyNext s a1 a2 a3 a4) := by
  induction a4 generalizing a3 with
  | zero => exact State.setPart_keeps (sub_of hp rfl) h _ _ _
  | succ n ih =>
    unfold State.copyNext
    refine ite_keeps (fun _ => State.setPart_keeps (sub_of hp rfl) h _ _ _) fun _ => ?_
    dsimp only
    split
    · exact ih _
    · exact ih _
    · exact State.engineReq_keeps (sub_of hp rfl) (State.setPart_keeps (sub_of hp rfl) h _ _ _) _ _ _ _
    · exact State.engineReq_keeps (sub_of hp rfl) (State.setPart_keeps (sub_of hp rfl) h _ _ _) _ _ _ _
theorem State.copyStart_keeps {P : ℕ} {s0 s : State} (hp : 524800 &&& P = 524800) (h : Keeps P s0 s) (a1 : ℕ) (a2 : CopyOp) (a3 : CopyPart) : Keeps P s0 (State.copyStart s a1 a2 a3) := by
  unfold State.copyStart
  repeat' first
    | with_reducible assumption | exact sub_of hp rfl | exact rfl | with_reducible apply State.copyNext_keeps
    | with_reducible apply ite_keeps | with_reducible apply foldl_keeps
    | with_reducible refine getD_keeps (fun _ _ => ?_) ?_ | intro _ | cases ‹(_, _) = (_, _)› | cases ‹some _ = some _›
    | cases ‹none = some _›
    | fail_if_no_progress with_reducible refine mk_keeps ?_ rfl rfl rfl (by and_intros <;> first | exact .inr (by with_reducible rfl) | exact .inl (sub_of hp rfl)) | dsimp only | split
theorem State.copyTurn_keeps {P : ℕ} {s0 s : State} (hp : 524800 &&& P = 524800) (h : Keeps P s0 s) (a1 : ℕ) (a2 : CopyOp) (a3 : CopyPart) (a4 : Pkt) : Keeps P s0 (State.copyTurn s a1 a2 a3 a4) := by
  unfold State.copyTurn
  repeat' first
    | with_reducible assumption | exact sub_of hp rfl | exact rfl | with_reducible apply State.setPart_keeps
    | with_reducible apply State.copyNext_keeps | with_reducible apply State.engineReq_keeps
    | with_reducible apply State.send_keeps | with_reducible apply ite_keeps | with_reducible apply foldl_keeps
    | with_reducible refine getD_keeps (fun _ _ => ?_) ?_ | intro _ | cases ‹(_, _) = (_, _)› | cases ‹some _ = some _›
    | cases ‹none = some _›
    | fail_if_no_progress with_reducible refine mk_keeps ?_ rfl rfl rfl (by and_intros <;> first | exact .inr (by with_reducible rfl) | exact .inl (sub_of hp rfl)) | dsimp only | split
theorem State.engineTake_keeps_eq {P : ℕ} {s0 s t : State} (hp : 524800 &&& P = 524800) {a1 : Pkt} (e : State.engineTake s a1 = some t) (h : Keeps P s0 s) : Keeps P s0 t := by
  unfold State.engineTake at e
  split at e <;> first | cases e; done | (obtain ⟨⟨i, o, q⟩, -, e⟩ := Option.map_eq_some_iff.1 e; subst e)
  · exact State.copyTurn_keeps (sub_of hp rfl) h _ _ _ _
  · exact State.copyTurn_keeps (sub_of hp rfl) h _ _ _ _
  · exact ite_keeps (fun _ => h) fun _ => State.send_keeps (sub_of hp rfl) h _
  · exact State.copyNext_keeps (sub_of hp rfl) h _ _ _ _
theorem State.devStep_keeps {P : ℕ} {s0 s : State} (hp : 17922 &&& P = 17922) (h : Keeps P s0 s) (a1 : Cell) (a2 : Slot) (a3 : ℕ) : Keeps P s0 (State.devStep s a1 a2 a3) := by
  induction a3 generalizing s with
  | zero => exact h
  | succ k ih =>
    unfold State.devStep
    split
    · exact h
    · split
      · exact h
      · refine ite_keeps (fun _ => ite_keeps (fun _ => State.releaseSlot_keeps (sub_of hp rfl) h _ _ _) fun _ => State.setSlot_keeps (sub_of hp rfl) h _ _ _) fun _ => ?_
        split
        · exact ite_keeps (fun _ => State.setSlot_keeps (sub_of hp rfl) h _ _ _) fun _ => State.send_keeps (sub_of hp rfl) (State.setSlot_keeps (sub_of hp rfl) h _ _ _) _
        · exact ih (State.setSlot_keeps (sub_of hp rfl) h _ _ _)
theorem State.devLine_keeps {P : ℕ} {s0 s : State} (hp : 17922 &&& P = 17922) (h : Keeps P s0 s) (a1 : Cell) (a2 : Slot) (a3 : TSlot) : Keeps P s0 (State.devLine s a1 a2 a3) := by
  unfold State.devLine
  repeat' first
    | with_reducible assumption | exact sub_of hp rfl | exact rfl | with_reducible apply State.devStep_keeps
    | with_reducible apply State.setSlot_keeps | with_reducible apply State.send_keeps | with_reducible apply ite_keeps
    | with_reducible apply foldl_keeps | with_reducible refine getD_keeps (fun _ _ => ?_) ?_ | intro _
    | cases ‹(_, _) = (_, _)› | cases ‹some _ = some _› | cases ‹none = some _›
    | fail_if_no_progress with_reducible refine mk_keeps ?_ rfl rfl rfl (by and_intros <;> first | exact .inr (by with_reducible rfl) | exact .inl (sub_of hp rfl)) | dsimp only | split

/-! ### Machine/Home -/

theorem execRds_keeps_eq {P : ℕ} {s0 s t : State} (hp : 4254210 &&& P = 4254210) {a0 : Pkt} {a1 : Ecc} (e : execRds a0 a1 s = .next t) (h : Keeps P s0 s) : Keeps P s0 t := by
  unfold execRds at e
  repeat' first
    | cases ‹Host.Outcome.next _ = Host.Outcome.next _› | cases ‹Host.Outcome.refused _ = Host.Outcome.next _›
    | cases ‹Host.Outcome.fault _ = Host.Outcome.next _› | split at e | with_reducible assumption | exact sub_of hp rfl
    | exact rfl | with_reducible apply State.homeRequest_keeps | with_reducible apply ite_keeps
    | with_reducible apply foldl_keeps | with_reducible refine getD_keeps (fun _ _ => ?_) ?_ | intro _
    | cases ‹(_, _) = (_, _)› | cases ‹some _ = some _› | cases ‹none = some _›
    | fail_if_no_progress with_reducible refine mk_keeps ?_ rfl rfl rfl (by and_intros <;> first | exact .inr (by with_reducible rfl) | exact .inl (sub_of hp rfl)) | dsimp only | dsimp only at e | split
theorem execRda_keeps_eq {P : ℕ} {s0 s t : State} (hp : 4254210 &&& P = 4254210) {a0 : Pkt} {a1 : Ecc} (e : execRda a0 a1 s = .next t) (h : Keeps P s0 s) : Keeps P s0 t := by
  unfold execRda at e
  repeat' first
    | cases ‹Host.Outcome.next _ = Host.Outcome.next _› | cases ‹Host.Outcome.refused _ = Host.Outcome.next _›
    | cases ‹Host.Outcome.fault _ = Host.Outcome.next _› | split at e | with_reducible assumption | exact sub_of hp rfl
    | exact rfl | with_reducible apply State.homeRequest_keeps | with_reducible apply ite_keeps
    | with_reducible apply foldl_keeps | with_reducible refine getD_keeps (fun _ _ => ?_) ?_ | intro _
    | cases ‹(_, _) = (_, _)› | cases ‹some _ = some _› | cases ‹none = some _›
    | fail_if_no_progress with_reducible refine mk_keeps ?_ rfl rfl rfl (by and_intros <;> first | exact .inr (by with_reducible rfl) | exact .inl (sub_of hp rfl)) | dsimp only | dsimp only at e | split
theorem execRdi_keeps_eq {P : ℕ} {s0 s t : State} (hp : 4254210 &&& P = 4254210) {a0 : Pkt} {a1 : Ecc} (e : execRdi a0 a1 s = .next t) (h : Keeps P s0 s) : Keeps P s0 t := by
  unfold execRdi at e
  repeat' first
    | cases ‹Host.Outcome.next _ = Host.Outcome.next _› | cases ‹Host.Outcome.refused _ = Host.Outcome.next _›
    | cases ‹Host.Outcome.fault _ = Host.Outcome.next _› | split at e | with_reducible assumption | exact sub_of hp rfl
    | exact rfl | with_reducible apply State.homeRequest_keeps | with_reducible apply ite_keeps
    | with_reducible apply foldl_keeps | with_reducible refine getD_keeps (fun _ _ => ?_) ?_ | intro _
    | cases ‹(_, _) = (_, _)› | cases ‹some _ = some _› | cases ‹none = some _›
    | fail_if_no_progress with_reducible refine mk_keeps ?_ rfl rfl rfl (by and_intros <;> first | exact .inr (by with_reducible rfl) | exact .inl (sub_of hp rfl)) | dsimp only | dsimp only at e | split
theorem execInva_keeps_eq {P : ℕ} {s0 s t : State} (hp : 4254210 &&& P = 4254210) {a0 : Pkt} {a1 : Ecc} (e : execInva a0 a1 s = .next t) (h : Keeps P s0 s) : Keeps P s0 t := by
  unfold execInva at e
  repeat' first
    | cases ‹Host.Outcome.next _ = Host.Outcome.next _› | cases ‹Host.Outcome.refused _ = Host.Outcome.next _›
    | cases ‹Host.Outcome.fault _ = Host.Outcome.next _› | split at e | with_reducible assumption | exact sub_of hp rfl
    | exact rfl | with_reducible apply State.homeRequest_keeps | with_reducible apply ite_keeps
    | with_reducible apply foldl_keeps | with_reducible refine getD_keeps (fun _ _ => ?_) ?_ | intro _
    | cases ‹(_, _) = (_, _)› | cases ‹some _ = some _› | cases ‹none = some _›
    | fail_if_no_progress with_reducible refine mk_keeps ?_ rfl rfl rfl (by and_intros <;> first | exact .inr (by with_reducible rfl) | exact .inl (sub_of hp rfl)) | dsimp only | dsimp only at e | split
theorem execWri_keeps_eq {P : ℕ} {s0 s t : State} (hp : 4254210 &&& P = 4254210) {a0 : Pkt} {a1 : Ecc} (e : execWri a0 a1 s = .next t) (h : Keeps P s0 s) : Keeps P s0 t := by
  unfold execWri at e
  repeat' first
    | cases ‹Host.Outcome.next _ = Host.Outcome.next _› | cases ‹Host.Outcome.refused _ = Host.Outcome.next _›
    | cases ‹Host.Outcome.fault _ = Host.Outcome.next _› | split at e | with_reducible assumption | exact sub_of hp rfl
    | exact rfl | with_reducible apply State.homeRequest_keeps | with_reducible apply ite_keeps
    | with_reducible apply foldl_keeps | with_reducible refine getD_keeps (fun _ _ => ?_) ?_ | intro _
    | cases ‹(_, _) = (_, _)› | cases ‹some _ = some _› | cases ‹none = some _›
    | fail_if_no_progress with_reducible refine mk_keeps ?_ rfl rfl rfl (by and_intros <;> first | exact .inr (by with_reducible rfl) | exact .inl (sub_of hp rfl)) | dsimp only | dsimp only at e | split
theorem execWra_keeps_eq {P : ℕ} {s0 s t : State} (hp : 4254210 &&& P = 4254210) {a0 : Pkt} {a1 : Ecc} (e : execWra a0 a1 s = .next t) (h : Keeps P s0 s) : Keeps P s0 t := by
  unfold execWra at e
  repeat' first
    | cases ‹Host.Outcome.next _ = Host.Outcome.next _› | cases ‹Host.Outcome.refused _ = Host.Outcome.next _›
    | cases ‹Host.Outcome.fault _ = Host.Outcome.next _› | split at e | with_reducible assumption | exact sub_of hp rfl
    | exact rfl | with_reducible apply State.homeRequest_keeps | with_reducible apply ite_keeps
    | with_reducible apply foldl_keeps | with_reducible refine getD_keeps (fun _ _ => ?_) ?_ | intro _
    | cases ‹(_, _) = (_, _)› | cases ‹some _ = some _› | cases ‹none = some _›
    | fail_if_no_progress with_reducible refine mk_keeps ?_ rfl rfl rfl (by and_intros <;> first | exact .inr (by with_reducible rfl) | exact .inl (sub_of hp rfl)) | dsimp only | dsimp only at e | split
theorem execWrptl_keeps_eq {P : ℕ} {s0 s t : State} (hp : 4254210 &&& P = 4254210) {a0 : Pkt} {a1 : Ecc} (e : execWrptl a0 a1 s = .next t) (h : Keeps P s0 s) : Keeps P s0 t := by
  unfold execWrptl at e
  repeat' first
    | cases ‹Host.Outcome.next _ = Host.Outcome.next _› | cases ‹Host.Outcome.refused _ = Host.Outcome.next _›
    | cases ‹Host.Outcome.fault _ = Host.Outcome.next _› | split at e | with_reducible assumption | exact sub_of hp rfl
    | exact rfl | with_reducible apply State.homeRequest_keeps | with_reducible apply ite_keeps
    | with_reducible apply foldl_keeps | with_reducible refine getD_keeps (fun _ _ => ?_) ?_ | intro _
    | cases ‹(_, _) = (_, _)› | cases ‹some _ = some _› | cases ‹none = some _›
    | fail_if_no_progress with_reducible refine mk_keeps ?_ rfl rfl rfl (by and_intros <;> first | exact .inr (by with_reducible rfl) | exact .inl (sub_of hp rfl)) | dsimp only | dsimp only at e | split
theorem execClnevct_keeps_eq {P : ℕ} {s0 s t : State} (hp : 4254210 &&& P = 4254210) {a0 : Pkt} {a1 : Ecc} (e : execClnevct a0 a1 s = .next t) (h : Keeps P s0 s) : Keeps P s0 t := by
  unfold execClnevct at e
  repeat' first
    | cases ‹Host.Outcome.next _ = Host.Outcome.next _› | cases ‹Host.Outcome.refused _ = Host.Outcome.next _›
    | cases ‹Host.Outcome.fault _ = Host.Outcome.next _› | split at e | with_reducible assumption | exact sub_of hp rfl
    | exact rfl | with_reducible apply State.homeRequest_keeps | with_reducible apply ite_keeps
    | with_reducible apply foldl_keeps | with_reducible refine getD_keeps (fun _ _ => ?_) ?_ | intro _
    | cases ‹(_, _) = (_, _)› | cases ‹some _ = some _› | cases ‹none = some _›
    | fail_if_no_progress with_reducible refine mk_keeps ?_ rfl rfl rfl (by and_intros <;> first | exact .inr (by with_reducible rfl) | exact .inl (sub_of hp rfl)) | dsimp only | dsimp only at e | split
theorem execRecall_keeps_eq {P : ℕ} {s0 s t : State} (hp : 4254210 &&& P = 4254210) {a0 : Pkt} {a1 : Ecc} (e : execRecall a0 a1 s = .next t) (h : Keeps P s0 s) : Keeps P s0 t := by
  unfold execRecall at e
  repeat' first
    | cases ‹Host.Outcome.next _ = Host.Outcome.next _› | cases ‹Host.Outcome.refused _ = Host.Outcome.next _›
    | cases ‹Host.Outcome.fault _ = Host.Outcome.next _› | split at e | with_reducible assumption | exact sub_of hp rfl
    | exact rfl | with_reducible apply State.homeRequest_keeps | with_reducible apply ite_keeps
    | with_reducible apply foldl_keeps | with_reducible refine getD_keeps (fun _ _ => ?_) ?_ | intro _
    | cases ‹(_, _) = (_, _)› | cases ‹some _ = some _› | cases ‹none = some _›
    | fail_if_no_progress with_reducible refine mk_keeps ?_ rfl rfl rfl (by and_intros <;> first | exact .inr (by with_reducible rfl) | exact .inl (sub_of hp rfl)) | dsimp only | dsimp only at e | split
theorem execSpecrd_keeps_eq {P : ℕ} {s0 s t : State} (hp : 4254210 &&& P = 4254210) {a0 : Pkt} (e : execSpecrd a0 s = .next t) (h : Keeps P s0 s) : Keeps P s0 t := by
  unfold execSpecrd at e
  repeat' first
    | cases ‹Host.Outcome.next _ = Host.Outcome.next _› | cases ‹Host.Outcome.refused _ = Host.Outcome.next _›
    | cases ‹Host.Outcome.fault _ = Host.Outcome.next _› | split at e | with_reducible assumption | exact sub_of hp rfl
    | exact rfl | with_reducible apply State.homeRequest_keeps | with_reducible apply ite_keeps
    | with_reducible apply foldl_keeps | with_reducible refine getD_keeps (fun _ _ => ?_) ?_ | intro _
    | cases ‹(_, _) = (_, _)› | cases ‹some _ = some _› | cases ‹none = some _›
    | fail_if_no_progress with_reducible refine mk_keeps ?_ rfl rfl rfl (by and_intros <;> first | exact .inr (by with_reducible rfl) | exact .inl (sub_of hp rfl)) | dsimp only | dsimp only at e | split
theorem State.startChain_keeps {P : ℕ} {s0 s : State} (hp : 4219394 &&& P = 4219394) (h : Keeps P s0 s) (a1 : Cell) (a2 : ℕ) : Keeps P s0 (State.startChain s a1 a2) := by
  unfold State.startChain
  repeat' first
    | with_reducible assumption | exact sub_of hp rfl | exact rfl | with_reducible apply State.startTxn_keeps
    | with_reducible apply ite_keeps | with_reducible apply foldl_keeps
    | with_reducible refine getD_keeps (fun _ _ => ?_) ?_ | intro _ | cases ‹(_, _) = (_, _)› | cases ‹some _ = some _›
    | cases ‹none = some _›
    | fail_if_no_progress with_reducible refine mk_keeps ?_ rfl rfl rfl (by and_intros <;> first | exact .inr (by with_reducible rfl) | exact .inl (sub_of hp rfl)) | dsimp only | split
theorem State.startWaiter_keeps {P : ℕ} {s0 s : State} (hp : 4219394 &&& P = 4219394) (h : Keeps P s0 s) (a1 : Cell) (a2 : ℕ) : Keeps P s0 (State.startWaiter s a1 a2) := by
  unfold State.startWaiter
  repeat' first
    | with_reducible assumption | exact sub_of hp rfl | exact rfl | with_reducible apply State.fetchSet_keeps
    | with_reducible apply State.place_keeps | with_reducible apply State.unpark_keeps | with_reducible apply ite_keeps
    | with_reducible apply foldl_keeps | with_reducible refine getD_keeps (fun _ _ => ?_) ?_ | intro _
    | cases ‹(_, _) = (_, _)› | cases ‹some _ = some _› | cases ‹none = some _›
    | fail_if_no_progress with_reducible refine mk_keeps ?_ rfl rfl rfl (by and_intros <;> first | exact .inr (by with_reducible rfl) | exact .inl (sub_of hp rfl)) | dsimp only | split
theorem State.startInstall_keeps {P : ℕ} {s0 s : State} (hp : 4202498 &&& P = 4202498) (h : Keeps P s0 s) (a1 : Cell) (a2 : ℕ) : Keeps P s0 (State.startInstall s a1 a2) := by
  unfold State.startInstall
  repeat' first
    | with_reducible assumption | exact sub_of hp rfl | exact rfl | with_reducible apply State.unparkInstall_keeps
    | with_reducible apply State.putProxy_keeps | with_reducible apply ite_keeps | with_reducible apply foldl_keeps
    | with_reducible refine getD_keeps (fun _ _ => ?_) ?_ | intro _ | cases ‹(_, _) = (_, _)› | cases ‹some _ = some _›
    | cases ‹none = some _›
    | fail_if_no_progress with_reducible refine mk_keeps ?_ rfl rfl rfl (by and_intros <;> first | exact .inr (by with_reducible rfl) | exact .inl (sub_of hp rfl)) | dsimp only | split
theorem execHomeChainStart_keeps_eq {P : ℕ} {s0 s t : State} (hp : 4220418 &&& P = 4220418) {a0 : Cell} {a1 : BitVec 46} (e : execHomeChainStart a0 a1 s = .next t) (h : Keeps P s0 s) : Keeps P s0 t := by
  unfold execHomeChainStart at e
  repeat' first
    | cases ‹Host.Outcome.next _ = Host.Outcome.next _› | cases ‹Host.Outcome.refused _ = Host.Outcome.next _›
    | cases ‹Host.Outcome.fault _ = Host.Outcome.next _› | split at e | with_reducible assumption | exact sub_of hp rfl
    | exact rfl | with_reducible apply State.startInstall_keeps | with_reducible apply State.proxyRun_keeps
    | with_reducible apply State.startWaiter_keeps | with_reducible apply State.startChain_keeps
    | with_reducible apply State.departNext_keeps | with_reducible apply ite_keeps | with_reducible apply foldl_keeps
    | with_reducible refine getD_keeps (fun _ _ => ?_) ?_ | intro _ | cases ‹(_, _) = (_, _)› | cases ‹some _ = some _›
    | cases ‹none = some _›
    | fail_if_no_progress with_reducible refine mk_keeps ?_ rfl rfl rfl (by and_intros <;> first | exact .inr (by with_reducible rfl) | exact .inl (sub_of hp rfl)) | dsimp only | dsimp only at e | split
theorem State.sendBicack_keeps {P : ℕ} {s0 s : State} (hp : 512 &&& P = 512) (h : Keeps P s0 s) (a1 : Cell) (a2 : Pkt) : Keeps P s0 (State.sendBicack s a1 a2) := by
  unfold State.sendBicack
  repeat' first
    | with_reducible assumption | exact sub_of hp rfl | exact rfl | with_reducible apply State.send_keeps
    | with_reducible apply ite_keeps | with_reducible apply foldl_keeps
    | with_reducible refine getD_keeps (fun _ _ => ?_) ?_ | intro _ | cases ‹(_, _) = (_, _)› | cases ‹some _ = some _›
    | cases ‹none = some _›
    | fail_if_no_progress with_reducible refine mk_keeps ?_ rfl rfl rfl (by and_intros <;> first | exact .inr (by with_reducible rfl) | exact .inl (sub_of hp rfl)) | dsimp only | split
theorem execBiconf_keeps_eq {P : ℕ} {s0 s t : State} (hp : 4254210 &&& P = 4254210) {a0 : Pkt} (e : execBiconf a0 s = .next t) (h : Keeps P s0 s) : Keeps P s0 t := by
  unfold execBiconf at e
  repeat' first
    | cases ‹Host.Outcome.next _ = Host.Outcome.next _› | cases ‹Host.Outcome.refused _ = Host.Outcome.next _›
    | cases ‹Host.Outcome.fault _ = Host.Outcome.next _› | split at e | with_reducible assumption | exact sub_of hp rfl
    | exact rfl | with_reducible apply State.sendBicack_keeps | with_reducible apply State.ctrEvent_keeps
    | with_reducible apply State.arrive_keeps | with_reducible apply State.inc_keeps | with_reducible apply ite_keeps
    | with_reducible apply foldl_keeps | with_reducible refine getD_keeps (fun _ _ => ?_) ?_ | intro _
    | cases ‹(_, _) = (_, _)› | cases ‹some _ = some _› | cases ‹none = some _›
    | fail_if_no_progress with_reducible refine mk_keeps ?_ rfl rfl rfl (by and_intros <;> first | exact .inr (by with_reducible rfl) | exact .inl (sub_of hp rfl)) | dsimp only | dsimp only at e | split
theorem State.answerConflicts_keeps {P : ℕ} {s0 s : State} (hp : 8704 &&& P = 8704) (h : Keeps P s0 s) (a1 : Cell) : Keeps P s0 (State.answerConflicts s a1) := by
  unfold State.answerConflicts
  repeat' first
    | with_reducible assumption | exact sub_of hp rfl | exact rfl | with_reducible apply State.sendBicack_keeps
    | with_reducible apply ite_keeps | with_reducible apply foldl_keeps
    | with_reducible refine getD_keeps (fun _ _ => ?_) ?_ | intro _ | cases ‹(_, _) = (_, _)› | cases ‹some _ = some _›
    | cases ‹none = some _›
    | fail_if_no_progress with_reducible refine mk_keeps ?_ rfl rfl rfl (by and_intros <;> first | exact .inr (by with_reducible rfl) | exact .inl (sub_of hp rfl)) | dsimp only | split
theorem State.ctrlArrive_keeps {P : ℕ} {s0 s : State} (hp : 2560 &&& P = 2560) (h : Keeps P s0 s) (a1 : Pkt) (a2 : ℕ → State → State) (hk : ∀ n t, Keeps P s0 t → Keeps P s0 (a2 n t)) : Keeps P s0 (State.ctrlArrive s a1 a2) := by
  unfold State.ctrlArrive
  repeat' first
    | with_reducible assumption | exact sub_of hp rfl | exact rfl | apply hk | with_reducible apply State.take_keeps
    | with_reducible apply State.xingPass_keeps | with_reducible apply ite_keeps | with_reducible apply foldl_keeps
    | with_reducible refine getD_keeps (fun _ _ => ?_) ?_ | intro _ | cases ‹(_, _) = (_, _)› | cases ‹some _ = some _›
    | cases ‹none = some _›
    | fail_if_no_progress with_reducible refine mk_keeps ?_ rfl rfl rfl (by and_intros <;> first | exact .inr (by with_reducible rfl) | exact .inl (sub_of hp rfl)) | dsimp only | split
theorem execDirrd_keeps_eq {P : ℕ} {s0 s t : State} (hp : 2562 &&& P = 2562) {a0 : Pkt} {a1 : Ecc} {a2 : Ecc} {a3 : BitVec 32} (e : execDirrd a0 a1 a2 a3 s = .next t) (h : Keeps P s0 s) : Keeps P s0 t := by
  unfold execDirrd at e
  repeat' first
    | cases ‹Host.Outcome.next _ = Host.Outcome.next _› | cases ‹Host.Outcome.refused _ = Host.Outcome.next _›
    | cases ‹Host.Outcome.fault _ = Host.Outcome.next _› | split at e | with_reducible assumption | exact sub_of hp rfl
    | exact rfl | with_reducible apply State.raise_keeps | with_reducible apply State.ctrlArrive_keeps
    | with_reducible apply State.xingPass_keeps | with_reducible apply State.sat_keeps
    | with_reducible apply State.send_keeps | with_reducible apply ite_keeps | with_reducible apply foldl_keeps
    | with_reducible refine getD_keeps (fun _ _ => ?_) ?_ | intro _ | cases ‹(_, _) = (_, _)› | cases ‹some _ = some _›
    | cases ‹none = some _›
    | fail_if_no_progress with_reducible refine mk_keeps ?_ rfl rfl rfl (by and_intros <;> first | exact .inr (by with_reducible rfl) | exact .inl (sub_of hp rfl)) | dsimp only | dsimp only at e | split
theorem State.applyDirwr_keeps {P : ℕ} {s0 s : State} (hp : 8192 &&& P = 8192) (h : Keeps P s0 s) (a1 : ℕ) (a2 : Pkt) : Keeps P s0 (State.applyDirwr s a1 a2) := by
  unfold State.applyDirwr
  repeat' first
    | with_reducible assumption | exact sub_of hp rfl | exact rfl | with_reducible apply ite_keeps
    | with_reducible apply foldl_keeps | with_reducible refine getD_keeps (fun _ _ => ?_) ?_ | intro _
    | cases ‹(_, _) = (_, _)› | cases ‹some _ = some _› | cases ‹none = some _›
    | fail_if_no_progress with_reducible refine mk_keeps ?_ rfl rfl rfl (by and_intros <;> first | exact .inr (by with_reducible rfl) | exact .inl (sub_of hp rfl)) | dsimp only | split
theorem State.sendDirack_keeps {P : ℕ} {s0 s : State} (hp : 512 &&& P = 512) (h : Keeps P s0 s) (a1 : Pkt) : Keeps P s0 (State.sendDirack s a1) := by
  unfold State.sendDirack
  repeat' first
    | with_reducible assumption | exact sub_of hp rfl | exact rfl | with_reducible apply State.send_keeps
    | with_reducible apply ite_keeps | with_reducible apply foldl_keeps
    | with_reducible refine getD_keeps (fun _ _ => ?_) ?_ | intro _ | cases ‹(_, _) = (_, _)› | cases ‹some _ = some _›
    | cases ‹none = some _›
    | fail_if_no_progress with_reducible refine mk_keeps ?_ rfl rfl rfl (by and_intros <;> first | exact .inr (by with_reducible rfl) | exact .inl (sub_of hp rfl)) | dsimp only | split
theorem State.dirWrite_keeps {P : ℕ} {s0 s : State} (hp : 8192 &&& P = 8192) (h : Keeps P s0 s) (a1 : ℕ) (a2 : Pkt) : Keeps P s0 (State.dirWrite s a1 a2) := by
  unfold State.dirWrite
  repeat' first
    | with_reducible assumption | exact sub_of hp rfl | exact rfl | with_reducible apply State.applyDirwr_keeps
    | with_reducible apply ite_keeps | with_reducible apply foldl_keeps
    | with_reducible refine getD_keeps (fun _ _ => ?_) ?_ | intro _ | cases ‹(_, _) = (_, _)› | cases ‹some _ = some _›
    | cases ‹none = some _›
    | fail_if_no_progress with_reducible refine mk_keeps ?_ rfl rfl rfl (by and_intros <;> first | exact .inr (by with_reducible rfl) | exact .inl (sub_of hp rfl)) | dsimp only | split
theorem execDirwr_keeps_eq {P : ℕ} {s0 s t : State} (hp : 27138 &&& P = 27138) {a0 : Pkt} {a1 : BitVec 32} (e : execDirwr a0 a1 s = .next t) (h : Keeps P s0 s) : Keeps P s0 t := by
  unfold execDirwr at e
  repeat' first
    | cases ‹Host.Outcome.next _ = Host.Outcome.next _› | cases ‹Host.Outcome.refused _ = Host.Outcome.next _›
    | cases ‹Host.Outcome.fault _ = Host.Outcome.next _› | split at e | with_reducible assumption | exact sub_of hp rfl
    | exact rfl | with_reducible apply State.logYield_keeps | with_reducible apply State.raise_keeps
    | with_reducible apply State.ctrlArrive_keeps | with_reducible apply State.sendDirack_keeps
    | with_reducible apply State.dirWrite_keeps | with_reducible apply State.xingPass_keeps
    | with_reducible apply ite_keeps | with_reducible apply foldl_keeps
    | with_reducible refine getD_keeps (fun _ _ => ?_) ?_ | intro _ | cases ‹(_, _) = (_, _)› | cases ‹some _ = some _›
    | cases ‹none = some _›
    | fail_if_no_progress with_reducible refine mk_keeps ?_ rfl rfl rfl (by and_intros <;> first | exact .inr (by with_reducible rfl) | exact .inl (sub_of hp rfl)) | dsimp only | dsimp only at e | split
theorem State.setRead_keeps {P : ℕ} {s0 s : State} (hp : 4203010 &&& P = 4203010) (h : Keeps P s0 s) (a1 : Cell) (a2 : Htid) (a3 : Txn) : Keeps P s0 (State.setRead s a1 a2 a3) := by
  unfold State.setRead
  repeat' first
    | with_reducible assumption | exact sub_of hp rfl | exact rfl | with_reducible apply State.setTxn_keeps
    | with_reducible apply State.withSet_keeps | with_reducible apply ite_keeps | with_reducible apply foldl_keeps
    | with_reducible refine getD_keeps (fun _ _ => ?_) ?_ | intro _ | cases ‹(_, _) = (_, _)› | cases ‹some _ = some _›
    | cases ‹none = some _›
    | fail_if_no_progress with_reducible refine mk_keeps ?_ rfl rfl rfl (by and_intros <;> first | exact .inr (by with_reducible rfl) | exact .inl (sub_of hp rfl)) | dsimp only | split
theorem execDirdata_keeps_eq {P : ℕ} {s0 s t : State} (hp : 4254210 &&& P = 4254210) {a0 : Pkt} (e : execDirdata a0 s = .next t) (h : Keeps P s0 s) : Keeps P s0 t := by
  unfold execDirdata at e
  repeat' first
    | cases ‹Host.Outcome.next _ = Host.Outcome.next _› | cases ‹Host.Outcome.refused _ = Host.Outcome.next _›
    | cases ‹Host.Outcome.fault _ = Host.Outcome.next _› | split at e | with_reducible assumption | exact sub_of hp rfl
    | exact rfl | with_reducible apply State.setTxn_keeps | with_reducible apply State.reloadWay_keeps
    | with_reducible apply State.arrive_keeps | with_reducible apply State.haveSet_keeps
    | with_reducible apply State.inc_keeps | with_reducible apply State.setRead_keeps | with_reducible apply ite_keeps
    | with_reducible apply foldl_keeps | with_reducible refine getD_keeps (fun _ _ => ?_) ?_ | intro _
    | cases ‹(_, _) = (_, _)› | cases ‹some _ = some _› | cases ‹none = some _›
    | fail_if_no_progress with_reducible refine mk_keeps ?_ rfl rfl rfl (by and_intros <;> first | exact .inr (by with_reducible rfl) | exact .inl (sub_of hp rfl)) | dsimp only | dsimp only at e | split
theorem execDirack_keeps_eq {P : ℕ} {s0 s t : State} (hp : 4254210 &&& P = 4254210) {a0 : Pkt} (e : execDirack a0 s = .next t) (h : Keeps P s0 s) : Keeps P s0 t := by
  unfold execDirack at e
  repeat' first
    | cases ‹Host.Outcome.next _ = Host.Outcome.next _› | cases ‹Host.Outcome.refused _ = Host.Outcome.next _›
    | cases ‹Host.Outcome.fault _ = Host.Outcome.next _› | split at e | with_reducible assumption | exact sub_of hp rfl
    | exact rfl | with_reducible apply State.arrive_keeps | with_reducible apply State.inc_keeps
    | with_reducible apply State.advance_keeps | with_reducible apply ite_keeps | with_reducible apply foldl_keeps
    | with_reducible refine getD_keeps (fun _ _ => ?_) ?_ | intro _ | cases ‹(_, _) = (_, _)› | cases ‹some _ = some _›
    | cases ‹none = some _›
    | fail_if_no_progress with_reducible refine mk_keeps ?_ rfl rfl rfl (by and_intros <;> first | exact .inr (by with_reducible rfl) | exact .inl (sub_of hp rfl)) | dsimp only | dsimp only at e | split
theorem State.forSlot_keeps {P : ℕ} {s0 s : State} (hp : 4901394 &&& P = 4901394) (h : Keeps P s0 s) (a1 : Pkt) (a2 : TSlot → State → State)
    (hk : ∀ n t, Keeps P s0 t → Keeps P s0 (a2 n t)) : Keeps P s0 (State.forSlot s a1 a2) := by
  unfold State.forSlot
  refine State.arrive_keeps (sub_of hp rfl) h _ _ fun t h => ?_
  split
  · exact ite_keeps (fun _ => hk _ _ h) fun _ => State.lateDiscard_keeps (sub_of hp rfl) h _
  · split
    · rename_i e
      rcases Option.or_eq_some_iff.1 e with e | ⟨-, e⟩
      · split at e
        · exact State.engineTake_keeps_eq (sub_of hp rfl) e h
        · cases e
      · exact State.chainResponse_keeps_eq (sub_of hp rfl) e h
    · exact State.lateDiscard_keeps (sub_of hp rfl) h _
theorem State.sendBirsp_keeps {P : ℕ} {s0 s : State} (hp : 8720 &&& P = 8720) (h : Keeps P s0 s) (a1 : Cell) (a2 : ℕ) (a3 : BiTag) (a4 : Mv) : Keeps P s0 (State.sendBirsp s a1 a2 a3 a4) := by
  unfold State.sendBirsp
  repeat' first
    | with_reducible assumption | exact sub_of hp rfl | exact rfl | with_reducible apply State.send_keeps
    | with_reducible apply State.emit_keeps | with_reducible apply ite_keeps | with_reducible apply foldl_keeps
    | with_reducible refine getD_keeps (fun _ _ => ?_) ?_ | intro _ | cases ‹(_, _) = (_, _)› | cases ‹some _ = some _›
    | cases ‹none = some _›
    | fail_if_no_progress with_reducible refine mk_keeps ?_ rfl rfl rfl (by and_intros <;> first | exact .inr (by with_reducible rfl) | exact .inl (sub_of hp rfl)) | dsimp only | split
theorem State.releaseBirsp_keeps {P : ℕ} {s0 s : State} (hp : 8720 &&& P = 8720) (h : Keeps P s0 s) (a1 : Cell) (a2 : ℕ) : Keeps P s0 (State.releaseBirsp s a1 a2) := by
  unfold State.releaseBirsp
  repeat' first
    | with_reducible assumption | exact sub_of hp rfl | exact rfl | with_reducible apply State.sendBirsp_keeps
    | with_reducible apply ite_keeps | with_reducible apply foldl_keeps
    | with_reducible refine getD_keeps (fun _ _ => ?_) ?_ | intro _ | cases ‹(_, _) = (_, _)› | cases ‹some _ = some _›
    | cases ‹none = some _›
    | fail_if_no_progress with_reducible refine mk_keeps ?_ rfl rfl rfl (by and_intros <;> first | exact .inr (by with_reducible rfl) | exact .inl (sub_of hp rfl)) | dsimp only | split
theorem execGrant_keeps_eq {P : ℕ} {s0 s t : State} (hp : 4902418 &&& P = 4902418) {a0 : Pkt} (e : execGrant a0 s = .next t) (h : Keeps P s0 s) : Keeps P s0 t := by
  unfold execGrant at e
  repeat' first
    | cases ‹Host.Outcome.next _ = Host.Outcome.next _› | cases ‹Host.Outcome.refused _ = Host.Outcome.next _›
    | cases ‹Host.Outcome.fault _ = Host.Outcome.next _› | split at e | with_reducible assumption | exact sub_of hp rfl
    | exact rfl | with_reducible apply State.devLine_keeps | with_reducible apply State.setSlot_keeps
    | with_reducible apply State.forSlot_keeps | with_reducible apply ite_keeps | with_reducible apply foldl_keeps
    | with_reducible refine getD_keeps (fun _ _ => ?_) ?_ | intro _ | cases ‹(_, _) = (_, _)› | cases ‹some _ = some _›
    | cases ‹none = some _›
    | fail_if_no_progress with_reducible refine mk_keeps ?_ rfl rfl rfl (by and_intros <;> first | exact .inr (by with_reducible rfl) | exact .inl (sub_of hp rfl)) | dsimp only | dsimp only at e | split
theorem execRdata_keeps_eq {P : ℕ} {s0 s t : State} (hp : 4902418 &&& P = 4902418) {a0 : Pkt} (e : execRdata a0 s = .next t) (h : Keeps P s0 s) : Keeps P s0 t := by
  unfold execRdata at e
  repeat' first
    | cases ‹Host.Outcome.next _ = Host.Outcome.next _› | cases ‹Host.Outcome.refused _ = Host.Outcome.next _›
    | cases ‹Host.Outcome.fault _ = Host.Outcome.next _› | split at e | with_reducible assumption | exact sub_of hp rfl
    | exact rfl | with_reducible apply State.devLine_keeps | with_reducible apply State.setSlot_keeps
    | with_reducible apply State.forSlot_keeps | with_reducible apply State.lateDiscard_keeps
    | with_reducible apply ite_keeps | with_reducible apply foldl_keeps
    | with_reducible refine getD_keeps (fun _ _ => ?_) ?_ | intro _ | cases ‹(_, _) = (_, _)› | cases ‹some _ = some _›
    | cases ‹none = some _›
    | fail_if_no_progress with_reducible refine mk_keeps ?_ rfl rfl rfl (by and_intros <;> first | exact .inr (by with_reducible rfl) | exact .inl (sub_of hp rfl)) | dsimp only | dsimp only at e | split
theorem execWgo_keeps_eq {P : ℕ} {s0 s t : State} (hp : 4910610 &&& P = 4910610) {a0 : Pkt} (e : execWgo a0 s = .next t) (h : Keeps P s0 s) : Keeps P s0 t := by
  unfold execWgo at e
  repeat' first
    | cases ‹Host.Outcome.next _ = Host.Outcome.next _› | cases ‹Host.Outcome.refused _ = Host.Outcome.next _›
    | cases ‹Host.Outcome.fault _ = Host.Outcome.next _› | split at e | with_reducible assumption | exact sub_of hp rfl
    | exact rfl | with_reducible apply State.setSlot_keeps | with_reducible apply State.forSlot_keeps
    | with_reducible apply State.send_keeps | with_reducible apply State.releaseBirsp_keeps
    | with_reducible apply ite_keeps | with_reducible apply foldl_keeps
    | with_reducible refine getD_keeps (fun _ _ => ?_) ?_ | intro _ | cases ‹(_, _) = (_, _)› | cases ‹some _ = some _›
    | cases ‹none = some _›
    | fail_if_no_progress with_reducible refine mk_keeps ?_ rfl rfl rfl (by and_intros <;> first | exact .inr (by with_reducible rfl) | exact .inl (sub_of hp rfl)) | dsimp only | dsimp only at e | split
theorem execWcmp_keeps_eq {P : ℕ} {s0 s t : State} (hp : 4910610 &&& P = 4910610) {a0 : Pkt} (e : execWcmp a0 s = .next t) (h : Keeps P s0 s) : Keeps P s0 t := by
  unfold execWcmp at e
  repeat' first
    | cases ‹Host.Outcome.next _ = Host.Outcome.next _› | cases ‹Host.Outcome.refused _ = Host.Outcome.next _›
    | cases ‹Host.Outcome.fault _ = Host.Outcome.next _› | split at e | with_reducible assumption | exact sub_of hp rfl
    | exact rfl | with_reducible apply State.devLine_keeps | with_reducible apply State.releaseSlot_keeps
    | with_reducible apply State.setSlot_keeps | with_reducible apply State.freeKept_keeps
    | with_reducible apply State.forSlot_keeps | with_reducible apply State.releaseBirsp_keeps
    | with_reducible apply ite_keeps | with_reducible apply foldl_keeps
    | with_reducible refine getD_keeps (fun _ _ => ?_) ?_ | intro _ | cases ‹(_, _) = (_, _)› | cases ‹some _ = some _›
    | cases ‹none = some _›
    | fail_if_no_progress with_reducible refine mk_keeps ?_ rfl rfl rfl (by and_intros <;> first | exact .inr (by with_reducible rfl) | exact .inl (sub_of hp rfl)) | dsimp only | dsimp only at e | split
theorem State.setFwd_keeps {P : ℕ} {s0 s : State} (hp : 8192 &&& P = 8192) (h : Keeps P s0 s) (a1 : Cell) (a2 : FwdServe) : Keeps P s0 (State.setFwd s a1 a2) := by
  unfold State.setFwd
  repeat' first
    | with_reducible assumption | exact sub_of hp rfl | exact rfl | with_reducible apply ite_keeps
    | with_reducible apply foldl_keeps | with_reducible refine getD_keeps (fun _ _ => ?_) ?_ | intro _
    | cases ‹(_, _) = (_, _)› | cases ‹some _ = some _› | cases ‹none = some _›
    | fail_if_no_progress with_reducible refine mk_keeps ?_ rfl rfl rfl (by and_intros <;> first | exact .inr (by with_reducible rfl) | exact .inl (sub_of hp rfl)) | dsimp only | split
theorem State.fwdStep_keeps {P : ℕ} {s0 s : State} (hp : 4204034 &&& P = 4204034) (h : Keeps P s0 s) (a1 : Cell) (a2 : FwdServe) : Keeps P s0 (State.fwdStep s a1 a2) := by
  unfold State.fwdStep
  repeat' first
    | with_reducible assumption | exact sub_of hp rfl | exact rfl | with_reducible apply State.setFwd_keeps
    | with_reducible apply State.proxyRun_keeps | with_reducible apply State.fwdAdvance_keeps
    | with_reducible apply ite_keeps | with_reducible apply foldl_keeps
    | with_reducible refine getD_keeps (fun _ _ => ?_) ?_ | intro _ | cases ‹(_, _) = (_, _)› | cases ‹some _ = some _›
    | cases ‹none = some _›
    | fail_if_no_progress with_reducible refine mk_keeps ?_ rfl rfl rfl (by and_intros <;> first | exact .inr (by with_reducible rfl) | exact .inl (sub_of hp rfl)) | dsimp only | split
theorem execMcmp_keeps_eq {P : ℕ} {s0 s t : State} (hp : 4386322 &&& P = 4386322) {a0 : Pkt} (e : execMcmp a0 s = .next t) (h : Keeps P s0 s) : Keeps P s0 t := by
  unfold execMcmp at e
  repeat' first
    | cases ‹Host.Outcome.next _ = Host.Outcome.next _› | cases ‹Host.Outcome.refused _ = Host.Outcome.next _›
    | cases ‹Host.Outcome.fault _ = Host.Outcome.next _› | split at e | with_reducible assumption | exact sub_of hp rfl
    | exact rfl | with_reducible apply State.proxyDone_keeps
    | refine State.chainResponse_keeps_eq (sub_of hp rfl) (by assumption) ?_ | with_reducible apply State.fwdStep_keeps
    | with_reducible apply State.arrive_keeps | with_reducible apply State.inc_keeps
    | with_reducible apply State.lateDiscard_keeps | with_reducible apply State.advance_keeps
    | with_reducible apply State.proxyWrote_keeps | with_reducible apply ite_keeps | with_reducible apply foldl_keeps
    | with_reducible refine getD_keeps (fun _ _ => ?_) ?_ | intro _ | cases ‹(_, _) = (_, _)› | cases ‹some _ = some _›
    | cases ‹none = some _›
    | fail_if_no_progress with_reducible refine mk_keeps ?_ rfl rfl rfl (by and_intros <;> first | exact .inr (by with_reducible rfl) | exact .inl (sub_of hp rfl)) | dsimp only | dsimp only at e | split
theorem execDone_keeps_eq {P : ℕ} {s0 s t : State} (hp : 4255234 &&& P = 4255234) {a0 : Pkt} (e : execDone a0 s = .next t) (h : Keeps P s0 s) : Keeps P s0 t := by
  unfold execDone at e
  repeat' first
    | cases ‹Host.Outcome.next _ = Host.Outcome.next _› | cases ‹Host.Outcome.refused _ = Host.Outcome.next _›
    | cases ‹Host.Outcome.fault _ = Host.Outcome.next _› | split at e | with_reducible assumption | exact sub_of hp rfl
    | exact rfl | with_reducible apply State.proxyDone_keeps | with_reducible apply State.arrive_keeps
    | with_reducible apply State.inc_keeps | with_reducible apply State.answerConflicts_keeps
    | with_reducible apply State.advance_keeps | with_reducible apply ite_keeps | with_reducible apply foldl_keeps
    | with_reducible refine getD_keeps (fun _ _ => ?_) ?_ | intro _ | cases ‹(_, _) = (_, _)› | cases ‹some _ = some _›
    | cases ‹none = some _›
    | fail_if_no_progress with_reducible refine mk_keeps ?_ rfl rfl rfl (by and_intros <;> first | exact .inr (by with_reducible rfl) | exact .inl (sub_of hp rfl)) | dsimp only | dsimp only at e | split
theorem State.anchorSnoop_keeps {P : ℕ} {s0 s : State} (hp : 59922 &&& P = 59922) (h : Keeps P s0 s) (a1 : Pkt) : Keeps P s0 (State.anchorSnoop s a1) := by
  unfold State.anchorSnoop
  refine State.arrive_keeps (sub_of hp rfl) h _ _ fun t h => ?_
  extract_lets a
  refine ite_keeps (fun _ => h) fun _ => ?_
  split
  · exact State.emit_keeps (sub_of hp rfl) (mk_keeps h rfl rfl rfl (by and_intros <;> first | exact .inr (by with_reducible rfl) | exact .inl (sub_of hp rfl))) _
  · exact mk_keeps h rfl rfl rfl (by and_intros <;> first | exact .inr (by with_reducible rfl) | exact .inl (sub_of hp rfl))
theorem execBisnpcur_keeps_eq {P : ℕ} {s0 s t : State} (hp : 59922 &&& P = 59922) {a0 : Pkt} (e : execBisnpcur a0 s = .next t) (h : Keeps P s0 s) : Keeps P s0 t := by
  unfold execBisnpcur at e
  repeat' first
    | cases ‹Host.Outcome.next _ = Host.Outcome.next _› | cases ‹Host.Outcome.refused _ = Host.Outcome.next _›
    | cases ‹Host.Outcome.fault _ = Host.Outcome.next _› | split at e | with_reducible assumption | exact sub_of hp rfl
    | exact rfl | with_reducible apply State.anchorSnoop_keeps | with_reducible apply ite_keeps
    | with_reducible apply foldl_keeps | with_reducible refine getD_keeps (fun _ _ => ?_) ?_ | intro _
    | cases ‹(_, _) = (_, _)› | cases ‹some _ = some _› | cases ‹none = some _›
    | fail_if_no_progress with_reducible refine mk_keeps ?_ rfl rfl rfl (by and_intros <;> first | exact .inr (by with_reducible rfl) | exact .inl (sub_of hp rfl)) | dsimp only | dsimp only at e | split
theorem execBisnpdata_keeps_eq {P : ℕ} {s0 s t : State} (hp : 59922 &&& P = 59922) {a0 : Pkt} (e : execBisnpdata a0 s = .next t) (h : Keeps P s0 s) : Keeps P s0 t := by
  unfold execBisnpdata at e
  repeat' first
    | cases ‹Host.Outcome.next _ = Host.Outcome.next _› | cases ‹Host.Outcome.refused _ = Host.Outcome.next _›
    | cases ‹Host.Outcome.fault _ = Host.Outcome.next _› | split at e | with_reducible assumption | exact sub_of hp rfl
    | exact rfl | with_reducible apply State.anchorSnoop_keeps | with_reducible apply ite_keeps
    | with_reducible apply foldl_keeps | with_reducible refine getD_keeps (fun _ _ => ?_) ?_ | intro _
    | cases ‹(_, _) = (_, _)› | cases ‹some _ = some _› | cases ‹none = some _›
    | fail_if_no_progress with_reducible refine mk_keeps ?_ rfl rfl rfl (by and_intros <;> first | exact .inr (by with_reducible rfl) | exact .inl (sub_of hp rfl)) | dsimp only | dsimp only at e | split
theorem execBisnpinv_keeps_eq {P : ℕ} {s0 s t : State} (hp : 59922 &&& P = 59922) {a0 : Pkt} (e : execBisnpinv a0 s = .next t) (h : Keeps P s0 s) : Keeps P s0 t := by
  unfold execBisnpinv at e
  repeat' first
    | cases ‹Host.Outcome.next _ = Host.Outcome.next _› | cases ‹Host.Outcome.refused _ = Host.Outcome.next _›
    | cases ‹Host.Outcome.fault _ = Host.Outcome.next _› | split at e | with_reducible assumption | exact sub_of hp rfl
    | exact rfl | with_reducible apply State.anchorSnoop_keeps | with_reducible apply ite_keeps
    | with_reducible apply foldl_keeps | with_reducible refine getD_keeps (fun _ _ => ?_) ?_ | intro _
    | cases ‹(_, _) = (_, _)› | cases ‹some _ = some _› | cases ‹none = some _›
    | fail_if_no_progress with_reducible refine mk_keeps ?_ rfl rfl rfl (by and_intros <;> first | exact .inr (by with_reducible rfl) | exact .inl (sub_of hp rfl)) | dsimp only | dsimp only at e | split
theorem execBicack_keeps_eq {P : ℕ} {s0 s t : State} (hp : 51730 &&& P = 51730) {a0 : Pkt} (e : execBicack a0 s = .next t) (h : Keeps P s0 s) : Keeps P s0 t := by
  unfold execBicack at e
  repeat' first
    | cases ‹Host.Outcome.next _ = Host.Outcome.next _› | cases ‹Host.Outcome.refused _ = Host.Outcome.next _›
    | cases ‹Host.Outcome.fault _ = Host.Outcome.next _› | split at e | with_reducible assumption | exact sub_of hp rfl
    | exact rfl | with_reducible apply State.arrive_keeps | with_reducible apply State.emit_keeps
    | with_reducible apply ite_keeps | with_reducible apply foldl_keeps
    | with_reducible refine getD_keeps (fun _ _ => ?_) ?_ | intro _ | cases ‹(_, _) = (_, _)› | cases ‹some _ = some _›
    | cases ‹none = some _›
    | fail_if_no_progress with_reducible refine mk_keeps ?_ rfl rfl rfl (by and_intros <;> first | exact .inr (by with_reducible rfl) | exact .inl (sub_of hp rfl)) | dsimp only | dsimp only at e | split
theorem execHostBirsp_keeps_eq {P : ℕ} {s0 s t : State} (hp : 8722 &&& P = 8722) {a0 : Cell} {a1 : Fin 4096} {a2 : Mv} (e : execHostBirsp a0 a1 a2 s = .next t) (h : Keeps P s0 s) : Keeps P s0 t := by
  unfold execHostBirsp at e
  repeat' first
    | cases ‹Host.Outcome.next _ = Host.Outcome.next _› | cases ‹Host.Outcome.refused _ = Host.Outcome.next _›
    | cases ‹Host.Outcome.fault _ = Host.Outcome.next _› | split at e | with_reducible assumption | exact sub_of hp rfl
    | exact rfl | with_reducible apply State.inc_keeps | with_reducible apply State.sendBirsp_keeps
    | with_reducible apply ite_keeps | with_reducible apply foldl_keeps
    | with_reducible refine getD_keeps (fun _ _ => ?_) ?_ | intro _ | cases ‹(_, _) = (_, _)› | cases ‹some _ = some _›
    | cases ‹none = some _›
    | fail_if_no_progress with_reducible refine mk_keeps ?_ rfl rfl rfl (by and_intros <;> first | exact .inr (by with_reducible rfl) | exact .inl (sub_of hp rfl)) | dsimp only | dsimp only at e | split
theorem execHostBiconflict_keeps_eq {P : ℕ} {s0 s t : State} (hp : 512 &&& P = 512) {a0 : Cell} {a1 : BitVec 52} (e : execHostBiconflict a0 a1 s = .next t) (h : Keeps P s0 s) : Keeps P s0 t := by
  unfold execHostBiconflict at e
  repeat' first
    | cases ‹Host.Outcome.next _ = Host.Outcome.next _› | cases ‹Host.Outcome.refused _ = Host.Outcome.next _›
    | cases ‹Host.Outcome.fault _ = Host.Outcome.next _› | split at e | with_reducible assumption | exact sub_of hp rfl
    | exact rfl | with_reducible apply State.send_keeps | with_reducible apply ite_keeps
    | with_reducible apply foldl_keeps | with_reducible refine getD_keeps (fun _ _ => ?_) ?_ | intro _
    | cases ‹(_, _) = (_, _)› | cases ‹some _ = some _› | cases ‹none = some _›
    | fail_if_no_progress with_reducible refine mk_keeps ?_ rfl rfl rfl (by and_intros <;> first | exact .inr (by with_reducible rfl) | exact .inl (sub_of hp rfl)) | dsimp only | dsimp only at e | split
theorem State.pumpSnoops_keeps {P : ℕ} {s0 s : State} (hp : 4203010 &&& P = 4203010) (h : Keeps P s0 s) (a1 : Cell) : Keeps P s0 (State.pumpSnoops s a1) := by
  unfold State.pumpSnoops
  repeat' first
    | with_reducible assumption | exact sub_of hp rfl | exact rfl
    | refine State.sendSnoops_keeps_eq (sub_of hp rfl) (by assumption) ?_ | with_reducible apply State.sendSnoops_keeps
    | with_reducible apply State.setTxn_keeps | with_reducible apply State.fwdSnoops_keeps
    | with_reducible apply ite_keeps | with_reducible apply foldl_keeps
    | with_reducible refine foldl_snd_keeps ?_ (fun _ _ _ _ => ?_) | with_reducible refine getD_keeps (fun _ _ => ?_) ?_
    | intro _ | cases ‹(_, _) = (_, _)› | cases ‹some _ = some _› | cases ‹none = some _›
    | fail_if_no_progress with_reducible refine mk_keeps ?_ rfl rfl rfl (by and_intros <;> first | exact .inr (by with_reducible rfl) | exact .inl (sub_of hp rfl)) | dsimp only | split
theorem State.snoopAnswer_keeps {P : ℕ} {s0 s : State} (hp : 4203010 &&& P = 4203010) (h : Keeps P s0 s) (a1 : Cell) (a2 : Htid) (a3 : Txn) (a4 : HSlot) (a5 : Mv) : Keeps P s0 (State.snoopAnswer s a1 a2 a3 a4 a5) := by
  unfold State.snoopAnswer
  repeat' first
    | with_reducible assumption | exact sub_of hp rfl | exact rfl | with_reducible apply State.pumpSnoops_keeps
    | with_reducible apply State.dec_keeps | with_reducible apply State.advance_keeps | with_reducible apply ite_keeps
    | with_reducible apply foldl_keeps | with_reducible refine getD_keeps (fun _ _ => ?_) ?_ | intro _
    | cases ‹(_, _) = (_, _)› | cases ‹some _ = some _› | cases ‹none = some _›
    | fail_if_no_progress with_reducible refine mk_keeps ?_ rfl rfl rfl (by and_intros <;> first | exact .inr (by with_reducible rfl) | exact .inl (sub_of hp rfl)) | dsimp only | split
theorem State.countExtra_keeps {P : ℕ} {s0 s : State} (hp : 10 &&& P = 10) (h : Keeps P s0 s) (a1 : Cell) (a2 : Txn) (a3 : Mv) : Keeps P s0 (State.countExtra s a1 a2 a3) := by
  unfold State.countExtra
  repeat' first
    | with_reducible assumption | exact sub_of hp rfl | exact rfl
    | refine State.fresh_keeps_eq (sub_of hp rfl) (by assumption) ?_ | with_reducible apply State.fresh_keeps
    | with_reducible apply State.inc_keeps | with_reducible apply ite_keeps | with_reducible apply foldl_keeps
    | with_reducible refine foldl_snd_keeps ?_ (fun _ _ _ _ => ?_) | with_reducible refine getD_keeps (fun _ _ => ?_) ?_
    | intro _ | cases ‹(_, _) = (_, _)› | cases ‹some _ = some _› | cases ‹none = some _›
    | fail_if_no_progress with_reducible refine mk_keeps ?_ rfl rfl rfl (by and_intros <;> first | exact .inr (by with_reducible rfl) | exact .inl (sub_of hp rfl)) | dsimp only | split
theorem execBirsp_keeps_eq {P : ℕ} {s0 s t : State} (hp : 4255242 &&& P = 4255242) {a0 : Pkt} (e : execBirsp a0 s = .next t) (h : Keeps P s0 s) : Keeps P s0 t := by
  unfold execBirsp at e
  repeat' first
    | cases ‹Host.Outcome.next _ = Host.Outcome.next _› | cases ‹Host.Outcome.refused _ = Host.Outcome.next _›
    | cases ‹Host.Outcome.fault _ = Host.Outcome.next _› | split at e | with_reducible assumption | exact sub_of hp rfl
    | exact rfl | with_reducible apply State.countExtra_keeps | with_reducible apply State.pumpSnoops_keeps
    | with_reducible apply State.fwdStep_keeps | with_reducible apply State.arrive_keeps
    | with_reducible apply State.inc_keeps | with_reducible apply State.dec_keeps
    | with_reducible apply State.snoopAnswer_keeps | with_reducible apply ite_keeps | with_reducible apply foldl_keeps
    | with_reducible refine getD_keeps (fun _ _ => ?_) ?_ | intro _ | cases ‹(_, _) = (_, _)› | cases ‹some _ = some _›
    | cases ‹none = some _›
    | fail_if_no_progress with_reducible refine mk_keeps ?_ rfl rfl rfl (by and_intros <;> first | exact .inr (by with_reducible rfl) | exact .inl (sub_of hp rfl)) | dsimp only | dsimp only at e | split
theorem State.poisonLine_keeps_eq {P : ℕ} {s0 s t : State} (hp : 520 &&& P = 520) {a1 : Cell} {a2 : Htid} {a3 : Pkt} {r} (e : State.poisonLine s a1 a2 a3 = (r, t)) (h : Keeps P s0 s) : Keeps P s0 t := by
  unfold State.poisonLine at e
  repeat' first
    | split at e | with_reducible assumption | exact sub_of hp rfl | exact rfl
    | refine State.fresh_keeps_eq (sub_of hp rfl) (by assumption) ?_ | with_reducible apply State.fresh_keeps
    | with_reducible apply State.send_keeps | with_reducible apply ite_keeps | with_reducible apply foldl_keeps
    | with_reducible refine foldl_snd_keeps ?_ (fun _ _ _ _ => ?_) | with_reducible refine getD_keeps (fun _ _ => ?_) ?_
    | intro _ | cases ‹(_, _) = (_, _)› | cases ‹some _ = some _› | cases ‹none = some _›
    | fail_if_no_progress with_reducible refine mk_keeps ?_ rfl rfl rfl (by and_intros <;> first | exact .inr (by with_reducible rfl) | exact .inl (sub_of hp rfl)) | dsimp only | dsimp only at e | split
theorem State.poisonLine_keeps {P : ℕ} {s0 s : State} (hp : 520 &&& P = 520) (h : Keeps P s0 s) (a1 : Cell) (a2 : Htid) (a3 : Pkt) : Keeps P s0 (State.poisonLine s a1 a2 a3).2 :=
  State.poisonLine_keeps_eq hp (Prod.mk.eta (p := State.poisonLine s a1 a2 a3)).symm h
theorem State.poisonOwned_keeps_eq {P : ℕ} {s0 s t : State} (hp : 520 &&& P = 520) {a1 : Cell} {a2 : Htid} {a3 : Txn} {a4 : HSlot} {r} (e : State.poisonOwned s a1 a2 a3 a4 = (r, t)) (h : Keeps P s0 s) : Keeps P s0 t := by
  unfold State.poisonOwned at e
  repeat' first
    | split at e | with_reducible assumption | exact sub_of hp rfl | exact rfl
    | refine State.poisonLine_keeps_eq (sub_of hp rfl) (by assumption) ?_ | with_reducible apply State.poisonLine_keeps
    | with_reducible apply ite_keeps | with_reducible apply foldl_keeps
    | with_reducible refine foldl_snd_keeps ?_ (fun _ _ _ _ => ?_) | with_reducible refine getD_keeps (fun _ _ => ?_) ?_
    | intro _ | cases ‹(_, _) = (_, _)› | cases ‹some _ = some _› | cases ‹none = some _›
    | fail_if_no_progress with_reducible refine mk_keeps ?_ rfl rfl rfl (by and_intros <;> first | exact .inr (by with_reducible rfl) | exact .inl (sub_of hp rfl)) | dsimp only | dsimp only at e | split
theorem State.poisonOwned_keeps {P : ℕ} {s0 s : State} (hp : 520 &&& P = 520) (h : Keeps P s0 s) (a1 : Cell) (a2 : Htid) (a3 : Txn) (a4 : HSlot) : Keeps P s0 (State.poisonOwned s a1 a2 a3 a4).2 :=
  State.poisonOwned_keeps_eq hp (Prod.mk.eta (p := State.poisonOwned s a1 a2 a3 a4)).symm h
theorem State.slotGone_keeps {P : ℕ} {s0 s : State} (hp : 4204042 &&& P = 4204042) (h : Keeps P s0 s) (a1 : Cell) (a2 : HSlot) : Keeps P s0 (State.slotGone s a1 a2) := by
  unfold State.slotGone
  repeat' first
    | with_reducible assumption | exact sub_of hp rfl | exact rfl
    | refine State.poisonLine_keeps_eq (sub_of hp rfl) (by assumption) ?_ | with_reducible apply State.poisonLine_keeps
    | with_reducible apply State.fwdStep_keeps | with_reducible apply State.dec_keeps
    | with_reducible apply State.snoopAnswer_keeps | refine State.poisonOwned_keeps_eq (sub_of hp rfl) (by assumption) ?_
    | with_reducible apply State.poisonOwned_keeps | with_reducible apply State.advance_keeps
    | with_reducible apply ite_keeps | with_reducible apply foldl_keeps
    | with_reducible refine foldl_snd_keeps ?_ (fun _ _ _ _ => ?_) | with_reducible refine getD_keeps (fun _ _ => ?_) ?_
    | intro _ | cases ‹(_, _) = (_, _)› | cases ‹some _ = some _› | cases ‹none = some _›
    | fail_if_no_progress with_reducible refine mk_keeps ?_ rfl rfl rfl (by and_intros <;> first | exact .inr (by with_reducible rfl) | exact .inl (sub_of hp rfl)) | dsimp only | split
theorem execSnpTimeoutExpiry_keeps_eq {P : ℕ} {s0 s t : State} (hp : 4220442 &&& P = 4220442) {a0 : Cell} {a1 : HSlot} (e : execSnpTimeoutExpiry a0 a1 s = .next t) (h : Keeps P s0 s) : Keeps P s0 t := by
  unfold execSnpTimeoutExpiry at e
  repeat' first
    | cases ‹Host.Outcome.next _ = Host.Outcome.next _› | cases ‹Host.Outcome.refused _ = Host.Outcome.next _›
    | cases ‹Host.Outcome.fault _ = Host.Outcome.next _› | split at e | with_reducible assumption | exact sub_of hp rfl
    | exact rfl | with_reducible apply State.logFault_keeps | with_reducible apply State.slotGone_keeps
    | with_reducible apply State.emit_keeps | with_reducible apply ite_keeps | with_reducible apply foldl_keeps
    | with_reducible refine getD_keeps (fun _ _ => ?_) ?_ | intro _ | cases ‹(_, _) = (_, _)› | cases ‹some _ = some _›
    | cases ‹none = some _›
    | fail_if_no_progress with_reducible refine mk_keeps ?_ rfl rfl rfl (by and_intros <;> first | exact .inr (by with_reducible rfl) | exact .inl (sub_of hp rfl)) | dsimp only | dsimp only at e | split
theorem execDirLookup_keeps_eq {P : ℕ} {s0 s t : State} (hp : 8194 &&& P = 8194) {a0 : Cell} (e : execDirLookup a0 s = .next t) (h : Keeps P s0 s) : Keeps P s0 t := by
  unfold execDirLookup at e
  repeat' first
    | cases ‹Host.Outcome.next _ = Host.Outcome.next _› | cases ‹Host.Outcome.refused _ = Host.Outcome.next _›
    | cases ‹Host.Outcome.fault _ = Host.Outcome.next _› | split at e | with_reducible assumption | exact sub_of hp rfl
    | exact rfl | with_reducible apply State.wr_keeps | with_reducible apply ite_keeps | with_reducible apply foldl_keeps
    | with_reducible refine getD_keeps (fun _ _ => ?_) ?_ | intro _ | cases ‹(_, _) = (_, _)› | cases ‹some _ = some _›
    | cases ‹none = some _›
    | fail_if_no_progress with_reducible refine mk_keeps ?_ rfl rfl rfl (by and_intros <;> first | exact .inr (by with_reducible rfl) | exact .inl (sub_of hp rfl)) | dsimp only | dsimp only at e | split
theorem execDirLookupComplete_keeps_eq {P : ℕ} {s0 s t : State} (hp : 8194 &&& P = 8194) {a0 : Cell} (e : execDirLookupComplete a0 s = .next t) (h : Keeps P s0 s) : Keeps P s0 t := by
  unfold execDirLookupComplete at e
  repeat' first
    | cases ‹Host.Outcome.next _ = Host.Outcome.next _› | cases ‹Host.Outcome.refused _ = Host.Outcome.next _›
    | cases ‹Host.Outcome.fault _ = Host.Outcome.next _› | split at e | with_reducible assumption | exact sub_of hp rfl
    | exact rfl | with_reducible apply State.setReg_keeps | with_reducible apply State.wr_keeps
    | with_reducible apply State.wrb_keeps | with_reducible apply ite_keeps | with_reducible apply foldl_keeps
    | with_reducible refine getD_keeps (fun _ _ => ?_) ?_ | intro _ | cases ‹(_, _) = (_, _)› | cases ‹some _ = some _›
    | cases ‹none = some _›
    | fail_if_no_progress with_reducible refine mk_keeps ?_ rfl rfl rfl (by and_intros <;> first | exact .inr (by with_reducible rfl) | exact .inl (sub_of hp rfl)) | dsimp only | dsimp only at e | split
theorem execHomeTtClrHwm_keeps_eq {P : ℕ} {s0 s t : State} (hp : 2 &&& P = 2) {a0 : Cell} (e : execHomeTtClrHwm a0 s = .next t) (h : Keeps P s0 s) : Keeps P s0 t := by
  unfold execHomeTtClrHwm at e
  repeat' first
    | cases ‹Host.Outcome.next _ = Host.Outcome.next _› | cases ‹Host.Outcome.refused _ = Host.Outcome.next _›
    | cases ‹Host.Outcome.fault _ = Host.Outcome.next _› | split at e | with_reducible assumption | exact sub_of hp rfl
    | exact rfl | with_reducible apply State.wr_keeps | with_reducible apply ite_keeps | with_reducible apply foldl_keeps
    | with_reducible refine getD_keeps (fun _ _ => ?_) ?_ | intro _ | cases ‹(_, _) = (_, _)› | cases ‹some _ = some _›
    | cases ‹none = some _›
    | fail_if_no_progress with_reducible refine mk_keeps ?_ rfl rfl rfl (by and_intros <;> first | exact .inr (by with_reducible rfl) | exact .inl (sub_of hp rfl)) | dsimp only | dsimp only at e | split
theorem execFwd_keeps_eq {P : ℕ} {s0 s t : State} (hp : 4255234 &&& P = 4255234) {a0 : Pkt} (e : execFwd a0 s = .next t) (h : Keeps P s0 s) : Keeps P s0 t := by
  unfold execFwd at e
  repeat' first
    | cases ‹Host.Outcome.next _ = Host.Outcome.next _› | cases ‹Host.Outcome.refused _ = Host.Outcome.next _›
    | cases ‹Host.Outcome.fault _ = Host.Outcome.next _› | split at e | with_reducible assumption | exact sub_of hp rfl
    | exact rfl | with_reducible apply State.proxyRun_keeps | with_reducible apply State.arrive_keeps
    | with_reducible apply State.inc_keeps | with_reducible apply ite_keeps | with_reducible apply foldl_keeps
    | with_reducible refine getD_keeps (fun _ _ => ?_) ?_ | intro _ | cases ‹(_, _) = (_, _)› | cases ‹some _ = some _›
    | cases ‹none = some _›
    | fail_if_no_progress with_reducible refine mk_keeps ?_ rfl rfl rfl (by and_intros <;> first | exact .inr (by with_reducible rfl) | exact .inl (sub_of hp rfl)) | dsimp only | dsimp only at e | split
theorem State.ownerAnswer_keeps {P : ℕ} {s0 s : State} (hp : 4254210 &&& P = 4254210) (h : Keeps P s0 s) (a1 : Pkt) : Keeps P s0 (State.ownerAnswer s a1) := by
  unfold State.ownerAnswer
  repeat' first
    | with_reducible assumption | exact sub_of hp rfl | exact rfl | with_reducible apply State.arrive_keeps
    | with_reducible apply State.inc_keeps | with_reducible apply State.advance_keeps | with_reducible apply ite_keeps
    | with_reducible apply foldl_keeps | with_reducible refine getD_keeps (fun _ _ => ?_) ?_ | intro _
    | cases ‹(_, _) = (_, _)› | cases ‹some _ = some _› | cases ‹none = some _›
    | fail_if_no_progress with_reducible refine mk_keeps ?_ rfl rfl rfl (by and_intros <;> first | exact .inr (by with_reducible rfl) | exact .inl (sub_of hp rfl)) | dsimp only | split
theorem execFrsp_keeps_eq {P : ℕ} {s0 s t : State} (hp : 4254210 &&& P = 4254210) {a0 : Pkt} (e : execFrsp a0 s = .next t) (h : Keeps P s0 s) : Keeps P s0 t := by
  unfold execFrsp at e
  repeat' first
    | cases ‹Host.Outcome.next _ = Host.Outcome.next _› | cases ‹Host.Outcome.refused _ = Host.Outcome.next _›
    | cases ‹Host.Outcome.fault _ = Host.Outcome.next _› | split at e | with_reducible assumption | exact sub_of hp rfl
    | exact rfl | with_reducible apply State.ownerAnswer_keeps | with_reducible apply ite_keeps
    | with_reducible apply foldl_keeps | with_reducible refine getD_keeps (fun _ _ => ?_) ?_ | intro _
    | cases ‹(_, _) = (_, _)› | cases ‹some _ = some _› | cases ‹none = some _›
    | fail_if_no_progress with_reducible refine mk_keeps ?_ rfl rfl rfl (by and_intros <;> first | exact .inr (by with_reducible rfl) | exact .inl (sub_of hp rfl)) | dsimp only | dsimp only at e | split
theorem execFkeep_keeps_eq {P : ℕ} {s0 s t : State} (hp : 4254210 &&& P = 4254210) {a0 : Pkt} (e : execFkeep a0 s = .next t) (h : Keeps P s0 s) : Keeps P s0 t := by
  unfold execFkeep at e
  repeat' first
    | cases ‹Host.Outcome.next _ = Host.Outcome.next _› | cases ‹Host.Outcome.refused _ = Host.Outcome.next _›
    | cases ‹Host.Outcome.fault _ = Host.Outcome.next _› | split at e | with_reducible assumption | exact sub_of hp rfl
    | exact rfl | with_reducible apply State.ownerAnswer_keeps | with_reducible apply ite_keeps
    | with_reducible apply foldl_keeps | with_reducible refine getD_keeps (fun _ _ => ?_) ?_ | intro _
    | cases ‹(_, _) = (_, _)› | cases ‹some _ = some _› | cases ‹none = some _›
    | fail_if_no_progress with_reducible refine mk_keeps ?_ rfl rfl rfl (by and_intros <;> first | exact .inr (by with_reducible rfl) | exact .inl (sub_of hp rfl)) | dsimp only | dsimp only at e | split
theorem execProxyAgeCheck_keeps_eq {P : ℕ} {s0 s t : State} (hp : 8194 &&& P = 8194) {a0 : Cell} (e : execProxyAgeCheck a0 s = .next t) (h : Keeps P s0 s) : Keeps P s0 t := by
  unfold execProxyAgeCheck at e
  repeat' first
    | cases ‹Host.Outcome.next _ = Host.Outcome.next _› | cases ‹Host.Outcome.refused _ = Host.Outcome.next _›
    | cases ‹Host.Outcome.fault _ = Host.Outcome.next _› | split at e | with_reducible assumption | exact sub_of hp rfl
    | exact rfl | with_reducible apply State.inc_keeps | with_reducible apply State.dec_keeps
    | with_reducible apply ite_keeps | with_reducible apply foldl_keeps
    | with_reducible refine getD_keeps (fun _ _ => ?_) ?_ | intro _ | cases ‹(_, _) = (_, _)› | cases ‹some _ = some _›
    | cases ‹none = some _›
    | fail_if_no_progress with_reducible refine mk_keeps ?_ rfl rfl rfl (by and_intros <;> first | exact .inr (by with_reducible rfl) | exact .inl (sub_of hp rfl)) | dsimp only | dsimp only at e | split
theorem execHomeProxyClrHwm_keeps_eq {P : ℕ} {s0 s t : State} (hp : 2 &&& P = 2) {a0 : Cell} (e : execHomeProxyClrHwm a0 s = .next t) (h : Keeps P s0 s) : Keeps P s0 t := by
  unfold execHomeProxyClrHwm at e
  repeat' first
    | cases ‹Host.Outcome.next _ = Host.Outcome.next _› | cases ‹Host.Outcome.refused _ = Host.Outcome.next _›
    | cases ‹Host.Outcome.fault _ = Host.Outcome.next _› | split at e | with_reducible assumption | exact sub_of hp rfl
    | exact rfl | with_reducible apply State.wr_keeps | with_reducible apply ite_keeps | with_reducible apply foldl_keeps
    | with_reducible refine getD_keeps (fun _ _ => ?_) ?_ | intro _ | cases ‹(_, _) = (_, _)› | cases ‹some _ = some _›
    | cases ‹none = some _›
    | fail_if_no_progress with_reducible refine mk_keeps ?_ rfl rfl rfl (by and_intros <;> first | exact .inr (by with_reducible rfl) | exact .inl (sub_of hp rfl)) | dsimp only | dsimp only at e | split
theorem execTakeoverQuiesceComplete_keeps_eq {P : ℕ} {s0 s t : State} (hp : 2 &&& P = 2) (e : execTakeoverQuiesceComplete s = .next t) (h : Keeps P s0 s) : Keeps P s0 t := by
  unfold execTakeoverQuiesceComplete at e
  repeat' first
    | cases ‹Host.Outcome.next _ = Host.Outcome.next _› | cases ‹Host.Outcome.refused _ = Host.Outcome.next _›
    | cases ‹Host.Outcome.fault _ = Host.Outcome.next _› | split at e | with_reducible assumption | exact sub_of hp rfl
    | exact rfl | with_reducible apply State.wr_keeps | with_reducible apply ite_keeps | with_reducible apply foldl_keeps
    | with_reducible refine getD_keeps (fun _ _ => ?_) ?_ | intro _ | cases ‹(_, _) = (_, _)› | cases ‹some _ = some _›
    | cases ‹none = some _›
    | fail_if_no_progress with_reducible refine mk_keeps ?_ rfl rfl rfl (by and_intros <;> first | exact .inr (by with_reducible rfl) | exact .inl (sub_of hp rfl)) | dsimp only | dsimp only at e | split
theorem State.takeAside_keeps {P : ℕ} {s0 s : State} (hp : 4219394 &&& P = 4219394) (h : Keeps P s0 s) (a1 : Cell) (a2 : List HReq) : Keeps P s0 (State.takeAside s a1 a2) := by
  induction a2 generalizing s with
  | nil => exact h
  | cons r rest ih =>
    unfold State.takeAside
    split
    · exact ih (ite_keeps (fun _ => State.adopt_keeps (sub_of hp rfl) h _ _ _ _) fun _ => State.inc_keeps (sub_of hp rfl) h _ _)
    · exact ih (State.depart_keeps (sub_of hp rfl) h _ _ _ _)
    · exact foldl_keeps (State.intakeTake_keeps (sub_of hp rfl) h _ _) fun _ _ h => State.intakePut_keeps (sub_of hp rfl) h _ _
theorem State.release_keeps {P : ℕ} {s0 s : State} (hp : 4219394 &&& P = 4219394) (h : Keeps P s0 s) (a1 : Cell) : Keeps P s0 (State.release s a1) := by
  unfold State.release
  exact State.takeAside_keeps (sub_of hp rfl) (State.wr_keeps (sub_of hp rfl) (State.wr_keeps (sub_of hp rfl) (State.wr_keeps (sub_of hp rfl) (mk_keeps h rfl rfl rfl (by and_intros <;> first | exact .inr (by with_reducible rfl) | exact .inl (sub_of hp rfl))) _ _) _ _) _ _) _ _
theorem execTakeoverFlushComplete_keeps_eq {P : ℕ} {s0 s t : State} (hp : 4219394 &&& P = 4219394) {a0 : Option Cell} (e : execTakeoverFlushComplete a0 s = .next t) (h : Keeps P s0 s) : Keeps P s0 t := by
  unfold execTakeoverFlushComplete at e
  repeat' first
    | cases ‹Host.Outcome.next _ = Host.Outcome.next _› | cases ‹Host.Outcome.refused _ = Host.Outcome.next _›
    | cases ‹Host.Outcome.fault _ = Host.Outcome.next _› | split at e | with_reducible assumption | exact sub_of hp rfl
    | exact rfl | with_reducible apply State.logYield_keeps | with_reducible apply State.logStep_keeps
    | with_reducible apply State.openEpoch_keeps | with_reducible apply State.endReissue_keeps
    | with_reducible apply State.release_keeps | with_reducible apply ite_keeps | with_reducible apply foldl_keeps
    | with_reducible refine getD_keeps (fun _ _ => ?_) ?_ | intro _ | cases ‹(_, _) = (_, _)› | cases ‹some _ = some _›
    | cases ‹none = some _›
    | fail_if_no_progress with_reducible refine mk_keeps ?_ rfl rfl rfl (by and_intros <;> first | exact .inr (by with_reducible rfl) | exact .inl (sub_of hp rfl)) | dsimp only | dsimp only at e | split
theorem State.resendTo_keeps {P : ℕ} {s0 s : State} (hp : 512 &&& P = 512) (h : Keeps P s0 s) (a1 : Cell) (a2 : HSlot) : Keeps P s0 (State.resendTo s a1 a2) := by
  unfold State.resendTo
  repeat' first
    | with_reducible assumption | exact sub_of hp rfl | exact rfl | with_reducible apply State.send_keeps
    | with_reducible apply ite_keeps | with_reducible apply foldl_keeps
    | with_reducible refine getD_keeps (fun _ _ => ?_) ?_ | intro _ | cases ‹(_, _) = (_, _)› | cases ‹some _ = some _›
    | cases ‹none = some _›
    | fail_if_no_progress with_reducible refine mk_keeps ?_ rfl rfl rfl (by and_intros <;> first | exact .inr (by with_reducible rfl) | exact .inl (sub_of hp rfl)) | dsimp only | split
theorem State.loseSlot_keeps {P : ℕ} {s0 s : State} (hp : 4204042 &&& P = 4204042) (h : Keeps P s0 s) (a1 : Cell) (a2 : HSlot) : Keeps P s0 (State.loseSlot s a1 a2) := by
  unfold State.loseSlot
  repeat' first
    | with_reducible assumption | exact sub_of hp rfl | exact rfl | with_reducible apply State.resendTo_keeps
    | with_reducible apply State.slotGone_keeps | with_reducible apply ite_keeps | with_reducible apply foldl_keeps
    | with_reducible refine getD_keeps (fun _ _ => ?_) ?_ | intro _ | cases ‹(_, _) = (_, _)› | cases ‹some _ = some _›
    | cases ‹none = some _›
    | fail_if_no_progress with_reducible refine mk_keeps ?_ rfl rfl rfl (by and_intros <;> first | exact .inr (by with_reducible rfl) | exact .inl (sub_of hp rfl)) | dsimp only | split
theorem execTwinLossNote_keeps_eq {P : ℕ} {s0 s t : State} (hp : 4204042 &&& P = 4204042) {a0 : Cell} {a1 : HSlot} (e : execTwinLossNote a0 a1 s = .next t) (h : Keeps P s0 s) : Keeps P s0 t := by
  unfold execTwinLossNote at e
  repeat' first
    | cases ‹Host.Outcome.next _ = Host.Outcome.next _› | cases ‹Host.Outcome.refused _ = Host.Outcome.next _›
    | cases ‹Host.Outcome.fault _ = Host.Outcome.next _› | split at e | with_reducible assumption | exact sub_of hp rfl
    | exact rfl | with_reducible apply State.loseSlot_keeps | with_reducible apply ite_keeps
    | with_reducible apply foldl_keeps | with_reducible refine getD_keeps (fun _ _ => ?_) ?_ | intro _
    | cases ‹(_, _) = (_, _)› | cases ‹some _ = some _› | cases ‹none = some _›
    | fail_if_no_progress with_reducible refine mk_keeps ?_ rfl rfl rfl (by and_intros <;> first | exact .inr (by with_reducible rfl) | exact .inl (sub_of hp rfl)) | dsimp only | dsimp only at e | split
theorem State.sendBlock_keeps {P : ℕ} {s0 s : State} (hp : 512 &&& P = 512) (h : Keeps P s0 s) (a1 : ℕ) : Keeps P s0 (State.sendBlock s a1) := by
  unfold State.sendBlock
  repeat' first
    | with_reducible assumption | exact sub_of hp rfl | exact rfl | with_reducible apply State.send_keeps
    | with_reducible apply ite_keeps | with_reducible apply foldl_keeps
    | with_reducible refine getD_keeps (fun _ _ => ?_) ?_ | intro _ | cases ‹(_, _) = (_, _)› | cases ‹some _ = some _›
    | cases ‹none = some _›
    | fail_if_no_progress with_reducible refine mk_keeps ?_ rfl rfl rfl (by and_intros <;> first | exact .inr (by with_reducible rfl) | exact .inl (sub_of hp rfl)) | dsimp only | split
theorem State.takeBlock_keeps {P : ℕ} {s0 s : State} (hp : 512 &&& P = 512) (h : Keeps P s0 s) (a1 : ℕ) : Keeps P s0 (State.takeBlock s a1) := by
  unfold State.takeBlock
  repeat' first
    | with_reducible assumption | exact sub_of hp rfl | exact rfl | with_reducible apply ite_keeps
    | with_reducible apply foldl_keeps | with_reducible refine getD_keeps (fun _ _ => ?_) ?_ | intro _
    | cases ‹(_, _) = (_, _)› | cases ‹some _ = some _› | cases ‹none = some _›
    | fail_if_no_progress with_reducible refine mk_keeps ?_ rfl rfl rfl (by and_intros <;> first | exact .inr (by with_reducible rfl) | exact .inl (sub_of hp rfl)) | dsimp only | split
theorem State.rsApply_keeps {P : ℕ} {s0 s : State} (hp : 8704 &&& P = 8704) (h : Keeps P s0 s) (a1 : ℕ) (a2 : Bool) : Keeps P s0 (State.rsApply s a1 a2) := by
  unfold State.rsApply
  repeat' first
    | with_reducible assumption | exact sub_of hp rfl | exact rfl | with_reducible apply State.applyDirwr_keeps
    | with_reducible apply State.sendDirack_keeps | with_reducible apply ite_keeps | with_reducible apply foldl_keeps
    | with_reducible refine getD_keeps (fun _ _ => ?_) ?_ | intro _ | cases ‹(_, _) = (_, _)› | cases ‹some _ = some _›
    | cases ‹none = some _›
    | fail_if_no_progress with_reducible refine mk_keeps ?_ rfl rfl rfl (by and_intros <;> first | exact .inr (by with_reducible rfl) | exact .inl (sub_of hp rfl)) | dsimp only | split
theorem State.copyBlock_keeps {P : ℕ} {s0 s : State} (hp : 8192 &&& P = 8192) (h : Keeps P s0 s) (a1 : ℕ) (a2 : ℕ) : Keeps P s0 (State.copyBlock s a1 a2) := by
  unfold State.copyBlock
  repeat' first
    | with_reducible assumption | exact sub_of hp rfl | exact rfl | with_reducible apply ite_keeps
    | with_reducible apply foldl_keeps | with_reducible refine getD_keeps (fun _ _ => ?_) ?_ | intro _
    | cases ‹(_, _) = (_, _)› | cases ‹some _ = some _› | cases ‹none = some _›
    | fail_if_no_progress with_reducible refine mk_keeps ?_ rfl rfl rfl (by and_intros <;> first | exact .inr (by with_reducible rfl) | exact .inl (sub_of hp rfl)) | dsimp only | split
theorem State.selfBlock_keeps {P : ℕ} {s0 s : State} (hp : 8192 &&& P = 8192) (h : Keeps P s0 s) (a1 : ℕ) (a2 : ℕ) : Keeps P s0 (State.selfBlock s a1 a2) := by
  unfold State.selfBlock
  repeat' first
    | with_reducible assumption | exact sub_of hp rfl | exact rfl | with_reducible apply ite_keeps
    | with_reducible apply foldl_keeps | with_reducible refine getD_keeps (fun _ _ => ?_) ?_ | intro _
    | cases ‹(_, _) = (_, _)› | cases ‹some _ = some _› | cases ‹none = some _›
    | fail_if_no_progress with_reducible refine mk_keeps ?_ rfl rfl rfl (by and_intros <;> first | exact .inr (by with_reducible rfl) | exact .inl (sub_of hp rfl)) | dsimp only | split
theorem State.resilverAck_keeps {P : ℕ} {s0 s : State} (hp : 8706 &&& P = 8706) (h : Keeps P s0 s) (a1 : ℕ) : Keeps P s0 (State.resilverAck s a1) := by
  unfold State.resilverAck
  repeat' first
    | with_reducible assumption | exact sub_of hp rfl | exact rfl | with_reducible apply State.copyBlock_keeps
    | with_reducible apply State.sendBlock_keeps | with_reducible apply State.takeBlock_keeps
    | with_reducible apply State.rsApply_keeps | with_reducible apply State.wr_keeps
    | with_reducible apply State.selfBlock_keeps | with_reducible apply ite_keeps | with_reducible apply foldl_keeps
    | with_reducible refine getD_keeps (fun _ _ => ?_) ?_ | intro _ | cases ‹(_, _) = (_, _)› | cases ‹some _ = some _›
    | cases ‹none = some _›
    | fail_if_no_progress with_reducible refine mk_keeps ?_ rfl rfl rfl (by and_intros <;> first | exact .inr (by with_reducible rfl) | exact .inl (sub_of hp rfl)) | dsimp only | split

/-! ### Machine/Hold -/

theorem State.hostPass_keeps_eq {P : ℕ} {s0 s t : State} (hp : 4195842 &&& P = 4195842) {a1 : Cell} {a2 : HostReq} (e : State.hostPass s a1 a2 = some t) (h : Keeps P s0 s) : Keeps P s0 t := by
  unfold State.hostPass at e
  split at e
  · cases e
    split
    · exact State.passIn_keeps (sub_of hp rfl) h _ _ _ _ _ _ _ _ _
    · exact h
  · obtain ⟨x, -, e⟩ := Option.map_eq_some_iff.1 e
    subst e
    exact State.passIn_keeps (sub_of hp rfl) h _ _ _ _ _ _ _ _ _
theorem State.enterHold_keeps {P : ℕ} {s0 s : State} (hp : 540674 &&& P = 540674) (h : Keeps P s0 s) (a1 : Cell) (a2 : HostReq) : Keeps P s0 (State.enterHold s a1 a2) := by
  unfold State.enterHold
  repeat' first
    | with_reducible assumption | exact sub_of hp rfl | exact rfl | with_reducible apply State.inc_keeps
    | with_reducible apply State.creditUpdate_keeps | with_reducible apply State.sat_keeps
    | with_reducible apply State.logEvent_keeps | with_reducible apply ite_keeps | with_reducible apply foldl_keeps
    | with_reducible refine getD_keeps (fun _ _ => ?_) ?_ | intro _ | cases ‹(_, _) = (_, _)› | cases ‹some _ = some _›
    | cases ‹none = some _›
    | fail_if_no_progress with_reducible refine mk_keeps ?_ rfl rfl rfl (by and_intros <;> first | exact .inr (by with_reducible rfl) | exact .inl (sub_of hp rfl)) | dsimp only | split
theorem execHostRequestReceive_keeps_eq {P : ℕ} {s0 s t : State} (hp : 4738562 &&& P = 4738562) {a0 : Cell} {a1 : HostReq} (e : execHostRequestReceive a0 a1 s = .next t) (h : Keeps P s0 s) : Keeps P s0 t := by
  unfold execHostRequestReceive at e
  repeat' first
    | cases ‹Host.Outcome.next _ = Host.Outcome.next _› | cases ‹Host.Outcome.refused _ = Host.Outcome.next _›
    | cases ‹Host.Outcome.fault _ = Host.Outcome.next _› | split at e | with_reducible assumption | exact sub_of hp rfl
    | exact rfl | with_reducible apply State.enterHold_keeps
    | refine State.hostPass_keeps_eq (sub_of hp rfl) (by assumption) ?_ | with_reducible apply State.xingPass_keeps
    | with_reducible apply ite_keeps | with_reducible apply foldl_keeps
    | with_reducible refine getD_keeps (fun _ _ => ?_) ?_ | intro _ | cases ‹(_, _) = (_, _)› | cases ‹some _ = some _›
    | cases ‹none = some _›
    | fail_if_no_progress with_reducible refine mk_keeps ?_ rfl rfl rfl (by and_intros <;> first | exact .inr (by with_reducible rfl) | exact .inl (sub_of hp rfl)) | dsimp only | dsimp only at e | split
theorem State.orSend_keeps {P : ℕ} {s0 s : State} (hp : 1536 &&& P = 1536) (h : Keeps P s0 s) {a1 : Option State} (k : ∀ t, a1 = some t → Keeps P s0 t) (a2 : Pkt) (a3 : Cell) (a4 : Slot) (a5 : TSlot) : Keeps P s0 (State.orSend s a1 a2 a3 a4 a5) := by
  cases a1 with
  | none => exact State.send_keeps (sub_of hp rfl) h _
  | some t => exact State.setSlot_keeps (sub_of hp rfl) (k t rfl) _ _ _
theorem State.issueAt_keeps {P : ℕ} {s0 s : State} (hp : 4204034 &&& P = 4204034) (h : Keeps P s0 s) (a1 : Cell) (a2 : Cell) (a3 : Pkt) (a4 : ℕ) (a5 : Bool) (a6 : Option ℕ) (a7 : Slot) : Keeps P s0 (State.issueAt s a1 a2 a3 a4 a5 a6 a7) := by
  unfold State.issueAt
  extract_lets hm q t s1
  have h1 : Keeps P s0 s1 := State.takeSlot_keeps (sub_of hp rfl) h _ _ _
  clear_value s1 q t
  exact State.orSend_keeps (sub_of hp rfl) h1 (fun _ e => State.proxyOrder_keeps_eq (sub_of hp rfl) e h1) _ _ _ _
theorem State.issue_keeps {P : ℕ} {s0 s : State} (hp : 4204034 &&& P = 4204034) (h : Keeps P s0 s) (a1 : Cell) (a2 : Cell) (a3 : Pkt) (a4 : ℕ) (a5 : Bool) (a6 : Option ℕ) : Keeps P s0 (State.issue s a1 a2 a3 a4 a5 a6) := by
  unfold State.issue
  cases s.firstSlot a1 with
  | none => exact h
  | some k =>
    rw [Option.elim_some]
    exact State.issueAt_keeps (sub_of hp rfl) h _ _ _ _ _ _ _
theorem State.letIn_keeps {P : ℕ} {s0 s : State} (hp : 5793282 &&& P = 5793282) (h : Keeps P s0 s) (a1 : Cell) (a2 : Held) (a3 : Verdict) : Keeps P s0 (State.letIn s a1 a2 a3) := by
  unfold State.letIn
  extract_lets i real src s1 s2 s3 src2 s4 c use hq s5
  have h2 : Keeps P s0 s2 := State.dec_keeps (sub_of hp rfl) (mk_keeps h rfl rfl rfl (by and_intros <;> first | exact .inr (by with_reducible rfl) | exact .inl (sub_of hp rfl))) _ _
  have h3 : Keeps P s0 s3 := ite_keeps (fun _ => State.instCount_keeps (sub_of hp rfl) (State.dec_keeps (sub_of hp rfl) h2 _ _) _ _ _) fun _ => h2
  have h4 : Keeps P s0 s4 := ite_keeps (fun _ => mk_keeps h3 rfl rfl rfl (by and_intros <;> first | exact .inr (by with_reducible rfl) | exact .inl (sub_of hp rfl))) fun _ => h3
  have hw : ∀ u, Keeps P s0 u → Keeps P s0 (use u) := fun u h => ite_keeps (fun _ => State.inc_keeps (sub_of hp rfl) h _ _) fun _ => h
  clear_value s4 use
  have h5 : Keeps P s0 s5 := by
    refine ite_keeps (fun _ => ite_keeps (fun _ => h4) fun _ => State.answerHere_keeps (sub_of hp rfl) (hw _ h4) _ _ _ _ _ _ _) fun _ => ?_
    split
    · refine ite_keeps (fun _ => ?_) fun _ => State.issue_keeps (sub_of hp rfl) (hw _ h4) _ _ _ _ _ _
      dsimp only
      split
      · rename_i e
        exact State.proxyOrder_keeps_eq (sub_of hp rfl) e h4
      · exact State.send_keeps (sub_of hp rfl) h4 _
    · exact ite_keeps (fun _ => State.violate_keeps (sub_of hp rfl) h4 _ _) fun _ =>
        State.ctrEvent_keeps (sub_of hp rfl) (State.answerHere_keeps (sub_of hp rfl) (hw _ (State.violate_keeps (sub_of hp rfl) h4 _ _)) _ _ _ _ _ _ _) _ _ _ _ _ _
    · exact h4
  exact ite_keeps (fun _ => State.creditUpdate_keeps (sub_of hp rfl) h5 _ _) fun _ => State.portCredit_keeps (sub_of hp rfl) h5 _
theorem execHoldAdmit_keeps_eq {P : ℕ} {s0 s t : State} (hp : 5793282 &&& P = 5793282) {a0 : Cell} (e : execHoldAdmit a0 s = .next t) (h : Keeps P s0 s) : Keeps P s0 t := by
  unfold execHoldAdmit at e
  repeat' first
    | cases ‹Host.Outcome.next _ = Host.Outcome.next _› | cases ‹Host.Outcome.refused _ = Host.Outcome.next _›
    | cases ‹Host.Outcome.fault _ = Host.Outcome.next _› | split at e | with_reducible assumption | exact sub_of hp rfl
    | exact rfl | with_reducible apply State.letIn_keeps | with_reducible apply ite_keeps
    | with_reducible apply foldl_keeps | with_reducible refine getD_keeps (fun _ _ => ?_) ?_ | intro _
    | cases ‹(_, _) = (_, _)› | cases ‹some _ = some _› | cases ‹none = some _›
    | fail_if_no_progress with_reducible refine mk_keeps ?_ rfl rfl rfl (by and_intros <;> first | exact .inr (by with_reducible rfl) | exact .inl (sub_of hp rfl)) | dsimp only | dsimp only at e | split
theorem execDefaultMapFetchReturn_keeps_eq {P : ℕ} {s0 s t : State} (hp : 524288 &&& P = 524288) {a0 : Inst} {a1 : Fin 2} {a2 : Ext} (e : execDefaultMapFetchReturn a0 a1 a2 s = .next t) (h : Keeps P s0 s) : Keeps P s0 t := by
  unfold execDefaultMapFetchReturn at e
  repeat' first
    | cases ‹Host.Outcome.next _ = Host.Outcome.next _› | cases ‹Host.Outcome.refused _ = Host.Outcome.next _›
    | cases ‹Host.Outcome.fault _ = Host.Outcome.next _› | split at e | with_reducible assumption | exact sub_of hp rfl
    | exact rfl | with_reducible apply ite_keeps | with_reducible apply foldl_keeps
    | with_reducible refine getD_keeps (fun _ _ => ?_) ?_ | intro _ | cases ‹(_, _) = (_, _)› | cases ‹some _ = some _›
    | cases ‹none = some _›
    | fail_if_no_progress with_reducible refine mk_keeps ?_ rfl rfl rfl (by and_intros <;> first | exact .inr (by with_reducible rfl) | exact .inl (sub_of hp rfl)) | dsimp only | dsimp only at e | split
theorem State.holdCycle_keeps {P : ℕ} {s0 s : State} (hp : 4718592 &&& P = 4718592) (h : Keeps P s0 s) : Keeps P s0 (State.holdCycle s) := by
  unfold State.holdCycle
  repeat' first
    | with_reducible assumption | exact sub_of hp rfl | exact rfl | with_reducible apply State.instCount_keeps
    | with_reducible apply ite_keeps | with_reducible apply foldl_keeps
    | with_reducible refine getD_keeps (fun _ _ => ?_) ?_ | intro _ | cases ‹(_, _) = (_, _)› | cases ‹some _ = some _›
    | cases ‹none = some _›
    | fail_if_no_progress with_reducible refine mk_keeps ?_ rfl rfl rfl (by and_intros <;> first | exact .inr (by with_reducible rfl) | exact .inl (sub_of hp rfl)) | dsimp only | split
theorem State.devViolate_keeps {P : ℕ} {s0 s : State} (hp : 5259266 &&& P = 5259266) (h : Keeps P s0 s) (a1 : Cell) (a2 : Cell) (a3 : DevReq) (a4 : Inst) (a5 : ℕ) : Keeps P s0 (State.devViolate s a1 a2 a3 a4 a5) := by
  unfold State.devViolate
  repeat' first
    | with_reducible assumption | exact sub_of hp rfl | exact rfl | with_reducible apply State.ctrEvent_keeps
    | with_reducible apply State.violate_keeps | with_reducible apply ite_keeps | with_reducible apply foldl_keeps
    | with_reducible refine getD_keeps (fun _ _ => ?_) ?_ | intro _ | cases ‹(_, _) = (_, _)› | cases ‹some _ = some _›
    | cases ‹none = some _›
    | fail_if_no_progress with_reducible refine mk_keeps ?_ rfl rfl rfl (by and_intros <;> first | exact .inr (by with_reducible rfl) | exact .inl (sub_of hp rfl)) | dsimp only | split
theorem State.deviceServe_keeps {P : ℕ} {s0 s : State} (hp : 5260802 &&& P = 5260802) (h : Keeps P s0 s) (a1 : Cell) (a2 : DevReq) (a3 : Inst) (a4 : ℕ) : Keeps P s0 (State.deviceServe s a1 a2 a3 a4) := by
  unfold State.deviceServe
  repeat' first
    | with_reducible assumption | exact sub_of hp rfl | exact rfl | with_reducible apply State.devStep_keeps
    | with_reducible apply State.takeSlot_keeps | with_reducible apply State.devViolate_keeps
    | with_reducible apply State.portCredit_keeps | with_reducible apply ite_keeps | with_reducible apply foldl_keeps
    | with_reducible refine getD_keeps (fun _ _ => ?_) ?_ | intro _ | cases ‹(_, _) = (_, _)› | cases ‹some _ = some _›
    | cases ‹none = some _›
    | fail_if_no_progress with_reducible refine mk_keeps ?_ rfl rfl rfl (by and_intros <;> first | exact .inr (by with_reducible rfl) | exact .inl (sub_of hp rfl)) | dsimp only | split
theorem State.deviceReceive_keeps {P : ℕ} {s0 s : State} (hp : 5785090 &&& P = 5785090) (h : Keeps P s0 s) (a1 : Cell) (a2 : DevReq) : Keeps P s0 (State.deviceReceive s a1 a2) := by
  unfold State.deviceReceive
  repeat' first
    | with_reducible assumption | exact sub_of hp rfl | exact rfl | with_reducible apply State.passIn_keeps
    | with_reducible apply State.deviceServe_keeps | with_reducible apply ite_keeps | with_reducible apply foldl_keeps
    | with_reducible refine getD_keeps (fun _ _ => ?_) ?_ | intro _ | cases ‹(_, _) = (_, _)› | cases ‹some _ = some _›
    | cases ‹none = some _›
    | fail_if_no_progress with_reducible refine mk_keeps ?_ rfl rfl rfl (by and_intros <;> first | exact .inr (by with_reducible rfl) | exact .inl (sub_of hp rfl)) | dsimp only | split
theorem execDeviceRequestReceive_keeps_eq {P : ℕ} {s0 s t : State} (hp : 5785090 &&& P = 5785090) {a0 : Cell} {a1 : DevReq} (e : execDeviceRequestReceive a0 a1 s = .next t) (h : Keeps P s0 s) : Keeps P s0 t := by
  unfold execDeviceRequestReceive at e
  repeat' first
    | cases ‹Host.Outcome.next _ = Host.Outcome.next _› | cases ‹Host.Outcome.refused _ = Host.Outcome.next _›
    | cases ‹Host.Outcome.fault _ = Host.Outcome.next _› | split at e | with_reducible assumption | exact sub_of hp rfl
    | exact rfl | with_reducible apply State.deviceReceive_keeps | with_reducible apply ite_keeps
    | with_reducible apply foldl_keeps | with_reducible refine getD_keeps (fun _ _ => ?_) ?_ | intro _
    | cases ‹(_, _) = (_, _)› | cases ‹some _ = some _› | cases ‹none = some _›
    | fail_if_no_progress with_reducible refine mk_keeps ?_ rfl rfl rfl (by and_intros <;> first | exact .inr (by with_reducible rfl) | exact .inl (sub_of hp rfl)) | dsimp only | dsimp only at e | split
theorem State.resumeDevices_keeps {P : ℕ} {s0 s : State} (hp : 5785090 &&& P = 5785090) (h : Keeps P s0 s) (a1 : List ℕ) : Keeps P s0 (State.resumeDevices s a1) := by
  unfold State.resumeDevices
  repeat' first
    | with_reducible assumption | exact sub_of hp rfl | exact rfl | with_reducible apply State.deviceReceive_keeps
    | with_reducible apply ite_keeps | with_reducible apply foldl_keeps
    | with_reducible refine getD_keeps (fun _ _ => ?_) ?_ | intro _ | cases ‹(_, _) = (_, _)› | cases ‹some _ = some _›
    | cases ‹none = some _›
    | fail_if_no_progress with_reducible refine mk_keeps ?_ rfl rfl rfl (by and_intros <;> first | exact .inr (by with_reducible rfl) | exact .inl (sub_of hp rfl)) | dsimp only | split
theorem execHostResponseDepart_keeps_eq {P : ℕ} {s0 s t : State} (hp : 4222482 &&& P = 4222482) {a0 : Cell} {a1 : Slot} (e : execHostResponseDepart a0 a1 s = .next t) (h : Keeps P s0 s) : Keeps P s0 t := by
  unfold execHostResponseDepart at e
  repeat' first
    | cases ‹Host.Outcome.next _ = Host.Outcome.next _› | cases ‹Host.Outcome.refused _ = Host.Outcome.next _›
    | cases ‹Host.Outcome.fault _ = Host.Outcome.next _› | split at e | with_reducible assumption | exact sub_of hp rfl
    | exact rfl | with_reducible apply State.instCount_keeps | with_reducible apply State.installProxy_keeps
    | with_reducible apply State.releaseSlot_keeps | with_reducible apply State.setSlot_keeps
    | with_reducible apply State.xingPass_keeps | with_reducible apply State.send_keeps
    | with_reducible apply State.emit_keeps | with_reducible apply ite_keeps | with_reducible apply foldl_keeps
    | with_reducible refine getD_keeps (fun _ _ => ?_) ?_ | intro _ | cases ‹(_, _) = (_, _)› | cases ‹some _ = some _›
    | cases ‹none = some _›
    | fail_if_no_progress with_reducible refine mk_keeps ?_ rfl rfl rfl (by and_intros <;> first | exact .inr (by with_reducible rfl) | exact .inl (sub_of hp rfl)) | dsimp only | dsimp only at e | split
theorem execSlotHoldExpire_keeps_eq {P : ℕ} {s0 s t : State} (hp : 17922 &&& P = 17922) {a0 : Cell} {a1 : Slot} (e : execSlotHoldExpire a0 a1 s = .next t) (h : Keeps P s0 s) : Keeps P s0 t := by
  unfold execSlotHoldExpire at e
  repeat' first
    | cases ‹Host.Outcome.next _ = Host.Outcome.next _› | cases ‹Host.Outcome.refused _ = Host.Outcome.next _›
    | cases ‹Host.Outcome.fault _ = Host.Outcome.next _› | split at e | with_reducible assumption | exact sub_of hp rfl
    | exact rfl | with_reducible apply State.releaseSlot_keeps | with_reducible apply ite_keeps
    | with_reducible apply foldl_keeps | with_reducible refine getD_keeps (fun _ _ => ?_) ?_ | intro _
    | cases ‹(_, _) = (_, _)› | cases ‹some _ = some _› | cases ‹none = some _›
    | fail_if_no_progress with_reducible refine mk_keeps ?_ rfl rfl rfl (by and_intros <;> first | exact .inr (by with_reducible rfl) | exact .inl (sub_of hp rfl)) | dsimp only | dsimp only at e | split

/-! ### Machine/InstOps -/

theorem State.setLife_keeps {P : ℕ} {s0 s : State} (hp : 524288 &&& P = 524288) (h : Keeps P s0 s) (a1 : ℕ) (a2 : ℕ) : Keeps P s0 (State.setLife s a1 a2) := by
  unfold State.setLife
  repeat' first
    | with_reducible assumption | exact sub_of hp rfl | exact rfl | with_reducible apply ite_keeps
    | with_reducible apply foldl_keeps | with_reducible refine getD_keeps (fun _ _ => ?_) ?_ | intro _
    | cases ‹(_, _) = (_, _)› | cases ‹some _ = some _› | cases ‹none = some _›
    | fail_if_no_progress with_reducible refine mk_keeps ?_ rfl rfl rfl (by and_intros <;> first | exact .inr (by with_reducible rfl) | exact .inl (sub_of hp rfl)) | dsimp only | split
theorem State.setExtAll_keeps {P : ℕ} {s0 s : State} (hp : 8192 &&& P = 8192) (h : Keeps P s0 s) (a1 : ℕ) (a2 : ExtEnt) : Keeps P s0 (State.setExtAll s a1 a2) := by
  unfold State.setExtAll
  repeat' first
    | with_reducible assumption | exact sub_of hp rfl | exact rfl | with_reducible apply ite_keeps
    | with_reducible apply foldl_keeps | with_reducible refine getD_keeps (fun _ _ => ?_) ?_ | intro _
    | cases ‹(_, _) = (_, _)› | cases ‹some _ = some _› | cases ‹none = some _›
    | fail_if_no_progress with_reducible refine mk_keeps ?_ rfl rfl rfl (by and_intros <;> first | exact .inr (by with_reducible rfl) | exact .inl (sub_of hp rfl)) | dsimp only | split
theorem State.capUpdate_keeps {P : ℕ} {s0 s : State} (hp : 2 &&& P = 2) (h : Keeps P s0 s) (a1 : ℕ) : Keeps P s0 (State.capUpdate s a1) := by
  unfold State.capUpdate
  repeat' first
    | with_reducible assumption | exact sub_of hp rfl | exact rfl | with_reducible apply State.wr_keeps
    | with_reducible apply ite_keeps | with_reducible apply foldl_keeps
    | with_reducible refine getD_keeps (fun _ _ => ?_) ?_ | intro _ | cases ‹(_, _) = (_, _)› | cases ‹some _ = some _›
    | cases ‹none = some _›
    | fail_if_no_progress with_reducible refine mk_keeps ?_ rfl rfl rfl (by and_intros <;> first | exact .inr (by with_reducible rfl) | exact .inl (sub_of hp rfl)) | dsimp only | split
theorem State.extEvent_keeps {P : ℕ} {s0 s : State} (hp : 2 &&& P = 2) (h : Keeps P s0 s) (a1 : ExtEnt) (a2 : ℕ) : Keeps P s0 (State.extEvent s a1 a2) := by
  unfold State.extEvent
  repeat' first
    | with_reducible assumption | exact sub_of hp rfl | exact rfl | with_reducible apply State.tenantEvent_keeps
    | with_reducible apply ite_keeps | with_reducible apply foldl_keeps
    | with_reducible refine getD_keeps (fun _ _ => ?_) ?_ | intro _ | cases ‹(_, _) = (_, _)› | cases ‹some _ = some _›
    | cases ‹none = some _›
    | fail_if_no_progress with_reducible refine mk_keeps ?_ rfl rfl rfl (by and_intros <;> first | exact .inr (by with_reducible rfl) | exact .inl (sub_of hp rfl)) | dsimp only | split
theorem State.sendNote_keeps {P : ℕ} {s0 s : State} (hp : 524288 &&& P = 524288) (h : Keeps P s0 s) (a1 : List (ℕ × ExtEnt)) (a2 : List (ℕ × ℕ × Option DevEnt)) (a3 : NoteFor) : Keeps P s0 (State.sendNote s a1 a2 a3) := by
  unfold State.sendNote
  repeat' first
    | with_reducible assumption | exact sub_of hp rfl | exact rfl | with_reducible apply ite_keeps
    | with_reducible apply foldl_keeps | with_reducible refine getD_keeps (fun _ _ => ?_) ?_ | intro _
    | cases ‹(_, _) = (_, _)› | cases ‹some _ = some _› | cases ‹none = some _›
    | fail_if_no_progress with_reducible refine mk_keeps ?_ rfl rfl rfl (by and_intros <;> first | exact .inr (by with_reducible rfl) | exact .inl (sub_of hp rfl)) | dsimp only | split
theorem State.applyNote_keeps {P : ℕ} {s0 s : State} (hp : 663552 &&& P = 663552) (h : Keeps P s0 s) (a1 : Cell) (a2 : ℕ) : Keeps P s0 (State.applyNote s a1 a2) := by
  unfold State.applyNote
  repeat' first
    | with_reducible assumption | exact sub_of hp rfl | exact rfl | with_reducible apply State.setDev_keeps
    | with_reducible apply ite_keeps | with_reducible apply foldl_keeps
    | with_reducible refine getD_keeps (fun _ _ => ?_) ?_ | intro _ | cases ‹(_, _) = (_, _)› | cases ‹some _ = some _›
    | cases ‹none = some _›
    | fail_if_no_progress with_reducible refine mk_keeps ?_ rfl rfl rfl (by and_intros <;> first | exact .inr (by with_reducible rfl) | exact .inl (sub_of hp rfl)) | dsimp only | split
theorem State.zeroizeSlot_keeps {P : ℕ} {s0 s : State} (hp : 1048578 &&& P = 1048578) (h : Keeps P s0 s) (a1 : ℕ) : Keeps P s0 (State.zeroizeSlot s a1) := by
  unfold State.zeroizeSlot
  repeat' first
    | with_reducible assumption | exact sub_of hp rfl | exact rfl | with_reducible apply State.setKeyRec_keeps
    | with_reducible apply ite_keeps | with_reducible apply foldl_keeps
    | with_reducible refine getD_keeps (fun _ _ => ?_) ?_ | intro _ | cases ‹(_, _) = (_, _)› | cases ‹some _ = some _›
    | cases ‹none = some _›
    | fail_if_no_progress with_reducible refine mk_keeps ?_ rfl rfl rfl (by and_intros <;> first | exact .inr (by with_reducible rfl) | exact .inl (sub_of hp rfl)) | dsimp only | split
theorem State.startWalkers_keeps {P : ℕ} {s0 s : State} (hp : 1048576 &&& P = 1048576) (h : Keeps P s0 s) : Keeps P s0 (State.startWalkers s) := by
  unfold State.startWalkers
  repeat' first
    | with_reducible assumption | exact sub_of hp rfl | exact rfl | with_reducible apply ite_keeps
    | with_reducible apply foldl_keeps | with_reducible refine getD_keeps (fun _ _ => ?_) ?_ | intro _
    | cases ‹(_, _) = (_, _)› | cases ‹some _ = some _› | cases ‹none = some _›
    | fail_if_no_progress with_reducible refine mk_keeps ?_ rfl rfl rfl (by and_intros <;> first | exact .inr (by with_reducible rfl) | exact .inl (sub_of hp rfl)) | dsimp only | split
theorem State.rotShow_keeps {P : ℕ} {s0 s : State} (hp : 2 &&& P = 2) (h : Keeps P s0 s) : Keeps P s0 (State.rotShow s) := by
  unfold State.rotShow
  repeat' first
    | with_reducible assumption | exact sub_of hp rfl | exact rfl | with_reducible apply State.wr_keeps
    | with_reducible apply State.wrb_keeps | with_reducible apply ite_keeps | with_reducible apply foldl_keeps
    | with_reducible refine getD_keeps (fun _ _ => ?_) ?_ | intro _ | cases ‹(_, _) = (_, _)› | cases ‹some _ = some _›
    | cases ‹none = some _›
    | fail_if_no_progress with_reducible refine mk_keeps ?_ rfl rfl rfl (by and_intros <;> first | exact .inr (by with_reducible rfl) | exact .inl (sub_of hp rfl)) | dsimp only | split
theorem State.queueRot_keeps {P : ℕ} {s0 s : State} (hp : 1048578 &&& P = 1048578) (h : Keeps P s0 s) (a1 : ℕ) (a2 : Bool) : Keeps P s0 (State.queueRot s a1 a2) := by
  unfold State.queueRot
  repeat' first
    | with_reducible assumption | exact sub_of hp rfl | exact rfl | with_reducible apply State.rotShow_keeps
    | with_reducible apply ite_keeps | with_reducible apply foldl_keeps
    | with_reducible refine getD_keeps (fun _ _ => ?_) ?_ | intro _ | cases ‹(_, _) = (_, _)› | cases ‹some _ = some _›
    | cases ‹none = some _›
    | fail_if_no_progress with_reducible refine mk_keeps ?_ rfl rfl rfl (by and_intros <;> first | exact .inr (by with_reducible rfl) | exact .inl (sub_of hp rfl)) | dsimp only | split
theorem State.startRot_keeps_eq {P : ℕ} {s0 s t : State} (hp : 1048578 &&& P = 1048578) {a1 : ℕ} {a2 : Bool} (e : State.startRot s a1 a2 = some t) (h : Keeps P s0 s) : Keeps P s0 t := by
  unfold State.startRot at e
  split at e
  · cases e
  · split at e
    · cases e
      exact State.queueRot_keeps (sub_of hp rfl) h _ _
    · split at e
      · rename_i e2
        have h2 := State.allocSlot_keeps_eq (sub_of hp rfl) e2 h
        cases e
        exact State.rotShow_keeps (sub_of hp rfl) (State.wr_keeps (sub_of hp rfl) (mk_keeps (State.setKeyRec_keeps (sub_of hp rfl) (State.setKeyRec_keeps (sub_of hp rfl) h2 _ _) _ _) rfl rfl rfl (by and_intros <;> first | exact .inr (by with_reducible rfl) | exact .inl (sub_of hp rfl))) _ _)
      · cases e
theorem State.startRots_keeps {P : ℕ} {s0 s : State} (hp : 1064962 &&& P = 1064962) (h : Keeps P s0 s) : Keeps P s0 (State.startRots s) := by
  unfold State.startRots
  repeat' first
    | with_reducible assumption | exact sub_of hp rfl | exact rfl | with_reducible apply State.noKeyFor_keeps
    | refine State.startRot_keeps_eq (sub_of hp rfl) (by assumption) ?_ | with_reducible apply ite_keeps
    | with_reducible apply foldl_keeps | with_reducible refine getD_keeps (fun _ _ => ?_) ?_ | intro _
    | cases ‹(_, _) = (_, _)› | cases ‹some _ = some _› | cases ‹none = some _›
    | fail_if_no_progress with_reducible refine mk_keeps ?_ rfl rfl rfl (by and_intros <;> first | exact .inr (by with_reducible rfl) | exact .inl (sub_of hp rfl)) | dsimp only | split
theorem State.endRots_keeps {P : ℕ} {s0 s : State} (hp : 1589250 &&& P = 1589250) (h : Keeps P s0 s) : Keeps P s0 (State.endRots s) := by
  unfold State.endRots
  extract_lets fin src s1 s2
  have h2 : Keeps P s0 s2 := foldl_keeps (mk_keeps h rfl rfl rfl (by and_intros <;> first | exact .inr (by with_reducible rfl) | exact .inl (sub_of hp rfl))) fun t x h => State.wr_keeps (sub_of hp rfl) (State.zeroizeSlot_keeps (sub_of hp rfl)
    (State.setKeyRec_keeps (sub_of hp rfl) (State.setOwner_keeps (sub_of hp rfl) h _ _) _ _) _) _ _
  clear_value s2
  exact State.rotShow_keeps (sub_of hp rfl) (ite_keeps (fun _ => h2) fun _ => State.startRots_keeps (sub_of hp rfl) h2)
theorem State.retireKey_keeps {P : ℕ} {s0 s : State} (hp : 1589250 &&& P = 1589250) (h : Keeps P s0 s) (a1 : ℕ) : Keeps P s0 (State.retireKey s a1) := by
  unfold State.retireKey
  split
  · exact h
  · extract_lets run
    refine ite_keeps (fun _ => ite_keeps (fun _ => State.endRots_keeps (sub_of hp rfl) (State.queueRot_keeps (sub_of hp rfl) h _ _)) fun _ =>
      getD_keeps (fun t e => State.startRot_keeps_eq (sub_of hp rfl) e h) (State.queueRot_keeps (sub_of hp rfl) (State.noKeyFor_keeps (sub_of hp rfl) h _) _ _)) fun _ => ?_
    rename_i src u v src2 _
    have h1 : Keeps P s0 u := mk_keeps h rfl rfl rfl (by and_intros <;> first | exact .inr (by with_reducible rfl) | exact .inl (sub_of hp rfl))
    have h2 : Keeps P s0 v := by
      dsimp only [v]
      cases run with
      | none => exact h1
      | some r => exact State.zeroizeSlot_keeps (sub_of hp rfl) h1 _
    clear_value v
    exact State.rotShow_keeps (sub_of hp rfl) (State.zeroizeSlot_keeps (sub_of hp rfl) (State.setOwner_keeps (sub_of hp rfl) h2 _ _) _)
theorem State.retireNow_keeps {P : ℕ} {s0 s : State} (hp : 1572864 &&& P = 1572864) (h : Keeps P s0 s) (a1 : ℕ) (a2 : List ℕ) (a3 : Option Bool) : Keeps P s0 (State.retireNow s a1 a2 a3) := by
  unfold State.retireNow
  repeat' first
    | with_reducible assumption | exact sub_of hp rfl | exact rfl | with_reducible apply State.sendNote_keeps
    | with_reducible apply ite_keeps | with_reducible apply foldl_keeps
    | with_reducible refine getD_keeps (fun _ _ => ?_) ?_ | intro _ | cases ‹(_, _) = (_, _)› | cases ‹some _ = some _›
    | cases ‹none = some _›
    | fail_if_no_progress with_reducible refine mk_keeps ?_ rfl rfl rfl (by and_intros <;> first | exact .inr (by with_reducible rfl) | exact .inl (sub_of hp rfl)) | dsimp only | split
theorem State.queueCommit_keeps {P : ℕ} {s0 s : State} (hp : 1048576 &&& P = 1048576) (h : Keeps P s0 s) (a1 : BarFor) (a2 : List ℕ) (a3 : List (ℕ × ℕ × Option Region)) : Keeps P s0 (State.queueCommit s a1 a2 a3) := by
  unfold State.queueCommit
  repeat' first
    | with_reducible assumption | exact sub_of hp rfl | exact rfl | with_reducible apply ite_keeps
    | with_reducible apply foldl_keeps | with_reducible refine getD_keeps (fun _ _ => ?_) ?_ | intro _
    | cases ‹(_, _) = (_, _)› | cases ‹some _ = some _› | cases ‹none = some _›
    | fail_if_no_progress with_reducible refine mk_keeps ?_ rfl rfl rfl (by and_intros <;> first | exact .inr (by with_reducible rfl) | exact .inl (sub_of hp rfl)) | dsimp only | split
theorem State.retire_keeps {P : ℕ} {s0 s : State} (hp : 1572864 &&& P = 1572864) (h : Keeps P s0 s) (a1 : ℕ) (a2 : List ℕ) (a3 : Option Bool) : Keeps P s0 (State.retire s a1 a2 a3) := by
  unfold State.retire
  repeat' first
    | with_reducible assumption | exact sub_of hp rfl | exact rfl | with_reducible apply State.retireNow_keeps
    | with_reducible apply State.queueCommit_keeps | with_reducible apply ite_keeps | with_reducible apply foldl_keeps
    | with_reducible refine getD_keeps (fun _ _ => ?_) ?_ | intro _ | cases ‹(_, _) = (_, _)› | cases ‹some _ = some _›
    | cases ‹none = some _›
    | fail_if_no_progress with_reducible refine mk_keeps ?_ rfl rfl rfl (by and_intros <;> first | exact .inr (by with_reducible rfl) | exact .inl (sub_of hp rfl)) | dsimp only | split
theorem State.assignExt_keeps {P : ℕ} {s0 s : State} (hp : 524290 &&& P = 524290) (h : Keeps P s0 s) (a1 : ℕ) (a2 : ℕ) : Keeps P s0 (State.assignExt s a1 a2) := by
  unfold State.assignExt
  repeat' first
    | with_reducible assumption | exact sub_of hp rfl | exact rfl | with_reducible apply State.sendNote_keeps
    | with_reducible apply State.setLife_keeps | with_reducible apply State.capUpdate_keeps
    | with_reducible apply State.setOwner_keeps | with_reducible apply State.inc_keeps | with_reducible apply ite_keeps
    | with_reducible apply foldl_keeps | with_reducible refine getD_keeps (fun _ _ => ?_) ?_ | intro _
    | cases ‹(_, _) = (_, _)› | cases ‹some _ = some _› | cases ‹none = some _›
    | fail_if_no_progress with_reducible refine mk_keeps ?_ rfl rfl rfl (by and_intros <;> first | exact .inr (by with_reducible rfl) | exact .inl (sub_of hp rfl)) | dsimp only | split
theorem State.offerExts_keeps {P : ℕ} {s0 s : State} (hp : 524306 &&& P = 524306) (h : Keeps P s0 s) (a1 : ℕ) (a2 : List ℕ) : Keeps P s0 (State.offerExts s a1 a2) := by
  unfold State.offerExts
  repeat' first
    | with_reducible assumption | exact sub_of hp rfl | exact rfl | with_reducible apply State.capUpdate_keeps
    | with_reducible apply State.setOwner_keeps | with_reducible apply State.emit_keeps | with_reducible apply ite_keeps
    | with_reducible apply foldl_keeps | with_reducible refine getD_keeps (fun _ _ => ?_) ?_ | intro _
    | cases ‹(_, _) = (_, _)› | cases ‹some _ = some _› | cases ‹none = some _›
    | fail_if_no_progress with_reducible refine mk_keeps ?_ rfl rfl rfl (by and_intros <;> first | exact .inr (by with_reducible rfl) | exact .inl (sub_of hp rfl)) | dsimp only | split
theorem State.offerTo_keeps {P : ℕ} {s0 s : State} (hp : 524306 &&& P = 524306) (h : Keeps P s0 s) (a1 : ℕ) (a2 : ℕ) : Keeps P s0 (State.offerTo s a1 a2) := by
  unfold State.offerTo
  repeat' first
    | with_reducible assumption | exact sub_of hp rfl | exact rfl | with_reducible apply State.capUpdate_keeps
    | with_reducible apply State.setOwner_keeps | with_reducible apply State.emit_keeps | with_reducible apply ite_keeps
    | with_reducible apply foldl_keeps | with_reducible refine getD_keeps (fun _ _ => ?_) ?_ | intro _
    | cases ‹(_, _) = (_, _)› | cases ‹some _ = some _› | cases ‹none = some _›
    | fail_if_no_progress with_reducible refine mk_keeps ?_ rfl rfl rfl (by and_intros <;> first | exact .inr (by with_reducible rfl) | exact .inl (sub_of hp rfl)) | dsimp only | split
theorem State.offerReady_keeps {P : ℕ} {s0 s : State} (hp : 524306 &&& P = 524306) (h : Keeps P s0 s) (a1 : ℕ) : Keeps P s0 (State.offerReady s a1) := by
  unfold State.offerReady
  repeat' first
    | with_reducible assumption | exact sub_of hp rfl | exact rfl | with_reducible apply State.offerExts_keeps
    | with_reducible apply ite_keeps | with_reducible apply foldl_keeps
    | with_reducible refine getD_keeps (fun _ _ => ?_) ?_ | intro _ | cases ‹(_, _) = (_, _)› | cases ‹some _ = some _›
    | cases ‹none = some _›
    | fail_if_no_progress with_reducible refine mk_keeps ?_ rfl rfl rfl (by and_intros <;> first | exact .inr (by with_reducible rfl) | exact .inl (sub_of hp rfl)) | dsimp only | split
theorem State.scrubDone_keeps {P : ℕ} {s0 s : State} (hp : 524306 &&& P = 524306) (h : Keeps P s0 s) (a1 : ℕ) : Keeps P s0 (State.scrubDone s a1) := by
  unfold State.scrubDone
  repeat' first
    | with_reducible assumption | exact sub_of hp rfl | exact rfl | with_reducible apply State.setLife_keeps
    | with_reducible apply State.capUpdate_keeps | with_reducible apply State.offerExts_keeps
    | with_reducible apply State.dec_keeps | with_reducible apply State.emit_keeps | with_reducible apply ite_keeps
    | with_reducible apply foldl_keeps | with_reducible refine getD_keeps (fun _ _ => ?_) ?_ | intro _
    | cases ‹(_, _) = (_, _)› | cases ‹some _ = some _› | cases ‹none = some _›
    | fail_if_no_progress with_reducible refine mk_keeps ?_ rfl rfl rfl (by and_intros <;> first | exact .inr (by with_reducible rfl) | exact .inl (sub_of hp rfl)) | dsimp only | split
theorem State.dropExts_keeps {P : ℕ} {s0 s : State} (hp : 524290 &&& P = 524290) (h : Keeps P s0 s) (a1 : ℕ) (a2 : List ℕ) : Keeps P s0 (State.dropExts s a1 a2) := by
  unfold State.dropExts
  repeat' first
    | with_reducible assumption | exact sub_of hp rfl | exact rfl | with_reducible apply State.capUpdate_keeps
    | with_reducible apply State.setOwner_keeps | with_reducible apply ite_keeps | with_reducible apply foldl_keeps
    | with_reducible refine getD_keeps (fun _ _ => ?_) ?_ | intro _ | cases ‹(_, _) = (_, _)› | cases ‹some _ = some _›
    | cases ‹none = some _›
    | fail_if_no_progress with_reducible refine mk_keeps ?_ rfl rfl rfl (by and_intros <;> first | exact .inr (by with_reducible rfl) | exact .inl (sub_of hp rfl)) | dsimp only | split
theorem State.freeVppb_keeps {P : ℕ} {s0 s : State} (hp : 524290 &&& P = 524290) (h : Keeps P s0 s) (a1 : ℕ) (a2 : ℕ) : Keeps P s0 (State.freeVppb s a1 a2) := by
  unfold State.freeVppb
  repeat' first
    | with_reducible assumption | exact sub_of hp rfl | exact rfl | with_reducible apply State.wr_keeps
    | with_reducible apply ite_keeps | with_reducible apply foldl_keeps
    | with_reducible refine getD_keeps (fun _ _ => ?_) ?_ | intro _ | cases ‹(_, _) = (_, _)› | cases ‹some _ = some _›
    | cases ‹none = some _›
    | fail_if_no_progress with_reducible refine mk_keeps ?_ rfl rfl rfl (by and_intros <;> first | exact .inr (by with_reducible rfl) | exact .inl (sub_of hp rfl)) | dsimp only | split
theorem State.freeInst_keeps {P : ℕ} {s0 s : State} (hp : 4980738 &&& P = 4980738) (h : Keeps P s0 s) (a1 : ℕ) : Keeps P s0 (State.freeInst s a1) := by
  unfold State.freeInst
  repeat' first
    | with_reducible assumption | exact sub_of hp rfl | exact rfl | with_reducible apply State.setReg_keeps
    | with_reducible apply ite_keeps | with_reducible apply foldl_keeps
    | with_reducible refine getD_keeps (fun _ _ => ?_) ?_ | intro _ | cases ‹(_, _) = (_, _)› | cases ‹some _ = some _›
    | cases ‹none = some _›
    | fail_if_no_progress with_reducible refine mk_keeps ?_ rfl rfl rfl (by and_intros <;> first | exact .inr (by with_reducible rfl) | exact .inl (sub_of hp rfl)) | dsimp only | split
theorem State.giveKey_keeps_eq {P : ℕ} {s0 s t : State} (hp : 1572866 &&& P = 1572866) {a1 : ℕ} (e : State.giveKey s a1 = some t) (h : Keeps P s0 s) : Keeps P s0 t := by
  unfold State.giveKey at e
  split at e
  · cases e
    exact h
  · split at e
    · rename_i e2
      cases e
      exact foldl_keeps (State.setOwner_keeps (sub_of hp rfl) (State.allocSlot_keeps_eq (sub_of hp rfl) e2 h) _ _) fun _ _ h => State.assignExt_keeps (sub_of hp rfl) h _ _
    · cases e
theorem State.unbound_keeps {P : ℕ} {s0 s : State} (hp : 6045698 &&& P = 6045698) (h : Keeps P s0 s) (a1 : ℕ) (a2 : Bool) : Keeps P s0 (State.unbound s a1 a2) := by
  unfold State.unbound
  have h1 : ∀ v, Keeps P s0 v → ∀ x y z, Keeps P s0 ((v.wr x 0).freeVppb y z) := fun _ h _ _ _ => State.freeVppb_keeps (sub_of hp rfl) (State.wr_keeps (sub_of hp rfl) h _ _) _ _
  extract_lets src u w
  have h2 : Keeps P s0 w := h1 _ (mk_keeps h rfl rfl rfl (by and_intros <;> first | exact .inr (by with_reducible rfl) | exact .inl (sub_of hp rfl))) _ _ _
  clear_value w
  refine ite_keeps (fun _ => ?_) fun _ => State.freeInst_keeps (sub_of hp rfl) (ite_keeps (fun _ => State.setOwner_keeps (sub_of hp rfl) h2 _ _) fun _ => h2) _
  have h3 : ∀ x, Keeps P s0 ((((w.wr (F.INST_INFO_STATE a1) 1).wr (F.INST_INFO_HOST_PORT a1) 0).wr (F.INST_INFO_VPPB a1) 0).setOwner a1 x) :=
    fun _ => State.setOwner_keeps (sub_of hp rfl) (State.wr_keeps (sub_of hp rfl) (State.wr_keeps (sub_of hp rfl) (State.wr_keeps (sub_of hp rfl) h2 _ _) _ _) _ _) _ _
  exact getD_keeps (fun t e => State.giveKey_keeps_eq (sub_of hp rfl) e (h3 _)) (State.noKeyFor_keeps (sub_of hp rfl) (h3 _) _)
theorem State.sweepSend_keeps_eq {P : ℕ} {s0 s t : State} (hp : 514 &&& P = 514) {a1 : Sweep} {a2 : SweepEng} {r} (e : State.sweepSend s a1 a2 = (t, r)) (h : Keeps P s0 s) : Keeps P s0 t := by
  unfold State.sweepSend at e
  repeat' first
    | split at e | with_reducible assumption | exact sub_of hp rfl | exact rfl | with_reducible apply State.inc_keeps
    | with_reducible apply State.send_keeps | with_reducible apply ite_keeps | with_reducible apply foldl_keeps
    | with_reducible refine getD_keeps (fun _ _ => ?_) ?_ | intro _ | cases ‹(_, _) = (_, _)› | cases ‹some _ = some _›
    | cases ‹none = some _›
    | fail_if_no_progress with_reducible refine mk_keeps ?_ rfl rfl rfl (by and_intros <;> first | exact .inr (by with_reducible rfl) | exact .inl (sub_of hp rfl)) | dsimp only | dsimp only at e | split
theorem State.sweepSend_keeps {P : ℕ} {s0 s : State} (hp : 514 &&& P = 514) (h : Keeps P s0 s) (a1 : Sweep) (a2 : SweepEng) : Keeps P s0 (State.sweepSend s a1 a2).1 :=
  State.sweepSend_keeps_eq hp (Prod.mk.eta (p := State.sweepSend s a1 a2)).symm h
theorem State.sweepWake_keeps {P : ℕ} {s0 s : State} (hp : 524802 &&& P = 524802) (h : Keeps P s0 s) (a1 : ℕ) : Keeps P s0 (State.sweepWake s a1) := by
  unfold State.sweepWake
  repeat' first
    | with_reducible assumption | exact sub_of hp rfl | exact rfl
    | refine State.sweepSend_keeps_eq (sub_of hp rfl) (by assumption) ?_ | with_reducible apply State.sweepSend_keeps
    | with_reducible apply ite_keeps | with_reducible apply foldl_keeps
    | with_reducible refine foldl_fst_keeps ?_ (fun _ _ _ _ => ?_) | with_reducible refine getD_keeps (fun _ _ => ?_) ?_
    | intro _ | cases ‹(_, _) = (_, _)› | cases ‹some _ = some _› | cases ‹none = some _›
    | fail_if_no_progress with_reducible refine mk_keeps ?_ rfl rfl rfl (by and_intros <;> first | exact .inr (by with_reducible rfl) | exact .inl (sub_of hp rfl)) | dsimp only | split

/-! ### Machine/PressOps -/

theorem State.pressShow_keeps {P : ℕ} {s0 s : State} (hp : 2 &&& P = 2) (h : Keeps P s0 s) (a1 : ℕ) (a2 : PressOp) : Keeps P s0 (State.pressShow s a1 a2) := by
  unfold State.pressShow
  repeat' first
    | with_reducible assumption | exact sub_of hp rfl | exact rfl | with_reducible apply State.wr_keeps
    | with_reducible apply ite_keeps | with_reducible apply foldl_keeps
    | with_reducible refine getD_keeps (fun _ _ => ?_) ?_ | intro _ | cases ‹(_, _) = (_, _)› | cases ‹some _ = some _›
    | cases ‹none = some _›
    | fail_if_no_progress with_reducible refine mk_keeps ?_ rfl rfl rfl (by and_intros <;> first | exact .inr (by with_reducible rfl) | exact .inl (sub_of hp rfl)) | dsimp only | split
theorem State.pressEnd_keeps {P : ℕ} {s0 s : State} (hp : 1572866 &&& P = 1572866) (h : Keeps P s0 s) (a1 : ℕ) : Keeps P s0 (State.pressEnd s a1) := by
  unfold State.pressEnd
  repeat' first
    | with_reducible assumption | exact sub_of hp rfl | exact rfl | with_reducible apply State.wr_keeps
    | with_reducible apply State.startWalkers_keeps | with_reducible apply ite_keeps | with_reducible apply foldl_keeps
    | with_reducible refine getD_keeps (fun _ _ => ?_) ?_ | intro _ | cases ‹(_, _) = (_, _)› | cases ‹some _ = some _›
    | cases ‹none = some _›
    | fail_if_no_progress with_reducible refine mk_keeps ?_ rfl rfl rfl (by and_intros <;> first | exact .inr (by with_reducible rfl) | exact .inl (sub_of hp rfl)) | dsimp only | split
theorem State.rebuildEnd_keeps {P : ℕ} {s0 s : State} (hp : 49667 &&& P = 49667) (h : Keeps P s0 s) : Keeps P s0 (State.rebuildEnd s) := by
  unfold State.rebuildEnd
  repeat' first
    | with_reducible assumption | exact sub_of hp rfl | exact rfl | with_reducible apply State.goMode_keeps
    | with_reducible apply ite_keeps | with_reducible apply foldl_keeps
    | with_reducible refine getD_keeps (fun _ _ => ?_) ?_ | intro _ | cases ‹(_, _) = (_, _)› | cases ‹some _ = some _›
    | cases ‹none = some _›
    | fail_if_no_progress with_reducible refine mk_keeps ?_ rfl rfl rfl (by and_intros <;> first | exact .inr (by with_reducible rfl) | exact .inl (sub_of hp rfl)) | dsimp only | split
theorem State.silverEnd_keeps {P : ℕ} {s0 s : State} (hp : 1622531 &&& P = 1622531) (h : Keeps P s0 s) (a1 : ℕ) (a2 : PressOp) : Keeps P s0 (State.silverEnd s a1 a2) := by
  unfold State.silverEnd
  repeat' first
    | with_reducible assumption | exact sub_of hp rfl | exact rfl | with_reducible apply State.rebuildEnd_keeps
    | with_reducible apply State.pressShow_keeps | with_reducible apply State.pressEnd_keeps
    | with_reducible apply ite_keeps | with_reducible apply foldl_keeps
    | with_reducible refine getD_keeps (fun _ _ => ?_) ?_ | intro _ | cases ‹(_, _) = (_, _)› | cases ‹some _ = some _›
    | cases ‹none = some _›
    | fail_if_no_progress with_reducible refine mk_keeps ?_ rfl rfl rfl (by and_intros <;> first | exact .inr (by with_reducible rfl) | exact .inl (sub_of hp rfl)) | dsimp only | split
theorem State.silverCheck_keeps {P : ℕ} {s0 s : State} (hp : 5816851 &&& P = 5816851) (h : Keeps P s0 s) (a1 : ℕ) (a2 : PressOp) : Keeps P s0 (State.silverCheck s a1 a2) := by
  unfold State.silverCheck
  repeat' first
    | with_reducible assumption | exact sub_of hp rfl | exact rfl | with_reducible apply State.sendNote_keeps
    | with_reducible apply State.silverEnd_keeps | with_reducible apply State.releaseHeld_keeps
    | with_reducible apply ite_keeps | with_reducible apply foldl_keeps
    | with_reducible refine getD_keeps (fun _ _ => ?_) ?_ | intro _ | cases ‹(_, _) = (_, _)› | cases ‹some _ = some _›
    | cases ‹none = some _›
    | fail_if_no_progress with_reducible refine mk_keeps ?_ rfl rfl rfl (by and_intros <;> first | exact .inr (by with_reducible rfl) | exact .inl (sub_of hp rfl)) | dsimp only | split
theorem State.moveCheck_keeps {P : ℕ} {s0 s : State} (hp : 5767698 &&& P = 5767698) (h : Keeps P s0 s) (a1 : ℕ) (a2 : PressOp) : Keeps P s0 (State.moveCheck s a1 a2) := by
  unfold State.moveCheck
  repeat' first
    | with_reducible assumption | exact sub_of hp rfl | exact rfl | with_reducible apply State.sendNote_keeps
    | with_reducible apply State.pressShow_keeps | with_reducible apply State.releaseHeld_keeps
    | with_reducible apply State.pressEnd_keeps | with_reducible apply ite_keeps | with_reducible apply foldl_keeps
    | with_reducible refine getD_keeps (fun _ _ => ?_) ?_ | intro _ | cases ‹(_, _) = (_, _)› | cases ‹some _ = some _›
    | cases ‹none = some _›
    | fail_if_no_progress with_reducible refine mk_keeps ?_ rfl rfl rfl (by and_intros <;> first | exact .inr (by with_reducible rfl) | exact .inl (sub_of hp rfl)) | dsimp only | split
theorem State.pressCheck_keeps {P : ℕ} {s0 s : State} (hp : 5816851 &&& P = 5816851) (h : Keeps P s0 s) (a1 : ℕ) : Keeps P s0 (State.pressCheck s a1) := by
  unfold State.pressCheck
  repeat' first
    | with_reducible assumption | exact sub_of hp rfl | exact rfl | with_reducible apply State.moveCheck_keeps
    | with_reducible apply State.silverCheck_keeps | with_reducible apply ite_keeps | with_reducible apply foldl_keeps
    | with_reducible refine getD_keeps (fun _ _ => ?_) ?_ | intro _ | cases ‹(_, _) = (_, _)› | cases ‹some _ = some _›
    | cases ‹none = some _›
    | fail_if_no_progress with_reducible refine mk_keeps ?_ rfl rfl rfl (by and_intros <;> first | exact .inr (by with_reducible rfl) | exact .inl (sub_of hp rfl)) | dsimp only | split
theorem State.abortMoveOf_keeps {P : ℕ} {s0 s : State} (hp : 5816851 &&& P = 5816851) (h : Keeps P s0 s) (a1 : ℕ) (a2 : List ℕ) : Keeps P s0 (State.abortMoveOf s a1 a2) := by
  unfold State.abortMoveOf
  repeat' first
    | with_reducible assumption | exact sub_of hp rfl | exact rfl | with_reducible apply State.pressCheck_keeps
    | with_reducible apply ite_keeps | with_reducible apply foldl_keeps
    | with_reducible refine getD_keeps (fun _ _ => ?_) ?_ | intro _ | cases ‹(_, _) = (_, _)› | cases ‹some _ = some _›
    | cases ‹none = some _›
    | fail_if_no_progress with_reducible refine mk_keeps ?_ rfl rfl rfl (by and_intros <;> first | exact .inr (by with_reducible rfl) | exact .inl (sub_of hp rfl)) | dsimp only | split
theorem State.abortMove_keeps {P : ℕ} {s0 s : State} (hp : 5816851 &&& P = 5816851) (h : Keeps P s0 s) (a1 : ℕ) : Keeps P s0 (State.abortMove s a1) := by
  unfold State.abortMove
  repeat' first
    | with_reducible assumption | exact sub_of hp rfl | exact rfl | with_reducible apply State.abortMoveOf_keeps
    | with_reducible apply ite_keeps | with_reducible apply foldl_keeps
    | with_reducible refine getD_keeps (fun _ _ => ?_) ?_ | intro _ | cases ‹(_, _) = (_, _)› | cases ‹some _ = some _›
    | cases ‹none = some _›
    | fail_if_no_progress with_reducible refine mk_keeps ?_ rfl rfl rfl (by and_intros <;> first | exact .inr (by with_reducible rfl) | exact .inl (sub_of hp rfl)) | dsimp only | split
theorem State.abortMoves_keeps {P : ℕ} {s0 s : State} (hp : 5816851 &&& P = 5816851) (h : Keeps P s0 s) (a1 : List ℕ) : Keeps P s0 (State.abortMoves s a1) := by
  unfold State.abortMoves
  repeat' first
    | with_reducible assumption | exact sub_of hp rfl | exact rfl | with_reducible apply State.abortMoveOf_keeps
    | with_reducible apply ite_keeps | with_reducible apply foldl_keeps
    | with_reducible refine getD_keeps (fun _ _ => ?_) ?_ | intro _ | cases ‹(_, _) = (_, _)› | cases ‹some _ = some _›
    | cases ‹none = some _›
    | fail_if_no_progress with_reducible refine mk_keeps ?_ rfl rfl rfl (by and_intros <;> first | exact .inr (by with_reducible rfl) | exact .inl (sub_of hp rfl)) | dsimp only | split

/-! ### Machine/Inst -/

theorem State.migEnd_keeps {P : ℕ} {s0 s : State} (hp : 524290 &&& P = 524290) (h : Keeps P s0 s) (a1 : ℕ) (a2 : ℕ) (a3 : ℕ) : Keeps P s0 (State.migEnd s a1 a2 a3) := by
  unfold State.migEnd
  repeat' first
    | with_reducible assumption | exact sub_of hp rfl | exact rfl | with_reducible apply State.wr_keeps
    | with_reducible apply ite_keeps | with_reducible apply foldl_keeps
    | with_reducible refine getD_keeps (fun _ _ => ?_) ?_ | intro _ | cases ‹(_, _) = (_, _)› | cases ‹some _ = some _›
    | cases ‹none = some _›
    | fail_if_no_progress with_reducible refine mk_keeps ?_ rfl rfl rfl (by and_intros <;> first | exact .inr (by with_reducible rfl) | exact .inl (sub_of hp rfl)) | dsimp only | split
theorem State.sweepDone_keeps {P : ℕ} {s0 s : State} (hp : 1572882 &&& P = 1572882) (h : Keeps P s0 s) (a1 : Sweep) : Keeps P s0 (State.sweepDone s a1) := by
  unfold State.sweepDone
  repeat' first
    | with_reducible assumption | exact sub_of hp rfl | exact rfl | with_reducible apply State.retire_keeps
    | with_reducible apply State.queueCommit_keeps | with_reducible apply State.wr_keeps
    | with_reducible apply State.freeVppb_keeps | with_reducible apply State.migEnd_keeps
    | with_reducible apply State.emit_keeps | with_reducible apply ite_keeps | with_reducible apply foldl_keeps
    | with_reducible refine getD_keeps (fun _ _ => ?_) ?_ | intro _ | cases ‹(_, _) = (_, _)› | cases ‹some _ = some _›
    | cases ‹none = some _›
    | fail_if_no_progress with_reducible refine mk_keeps ?_ rfl rfl rfl (by and_intros <;> first | exact .inr (by with_reducible rfl) | exact .inl (sub_of hp rfl)) | dsimp only | split
theorem State.startSweep_keeps {P : ℕ} {s0 s : State} (hp : 1573394 &&& P = 1573394) (h : Keeps P s0 s) (a1 : SweepFor) (a2 : ℕ) (a3 : List ℕ) (a4 : Option HSlot) : Keeps P s0 (State.startSweep s a1 a2 a3 a4) := by
  unfold State.startSweep
  refine ite_keeps (fun _ => State.sweepDone_keeps (sub_of hp rfl) h _) fun _ => ?_
  exact mk_keeps (foldl_fst_keeps h fun t b x h => State.sweepSend_keeps (sub_of hp rfl) h _ _) rfl rfl rfl (by and_intros <;> first | exact .inr (by with_reducible rfl) | exact .inl (sub_of hp rfl))
theorem State.sweepEnd_keeps {P : ℕ} {s0 s : State} (hp : 1589778 &&& P = 1589778) (h : Keeps P s0 s) (a1 : Sweep) (a2 : Sweep) (a3 : ℕ) : Keeps P s0 (State.sweepEnd s a1 a2 a3) := by
  unfold State.sweepEnd
  repeat' first
    | with_reducible assumption | exact sub_of hp rfl | exact rfl | with_reducible apply State.logYield_keeps
    | with_reducible apply State.sweepDone_keeps | with_reducible apply State.sweepWake_keeps
    | with_reducible apply ite_keeps | with_reducible apply foldl_keeps
    | with_reducible refine getD_keeps (fun _ _ => ?_) ?_ | intro _ | cases ‹(_, _) = (_, _)› | cases ‹some _ = some _›
    | cases ‹none = some _›
    | fail_if_no_progress with_reducible refine mk_keeps ?_ rfl rfl rfl (by and_intros <;> first | exact .inr (by with_reducible rfl) | exact .inl (sub_of hp rfl)) | dsimp only | split
theorem State.sweepOn_keeps {P : ℕ} {s0 s : State} (hp : 524802 &&& P = 524802) (h : Keeps P s0 s) (a1 : Sweep) (a2 : Sweep) (a3 : SweepEng) (a4 : ℕ) : Keeps P s0 (State.sweepOn s a1 a2 a3 a4) := by
  unfold State.sweepOn
  repeat' first
    | with_reducible assumption | exact sub_of hp rfl | exact rfl | with_reducible apply State.wr_keeps
    | with_reducible apply State.sweepWake_keeps | with_reducible apply ite_keeps | with_reducible apply foldl_keeps
    | with_reducible refine getD_keeps (fun _ _ => ?_) ?_ | intro _ | cases ‹(_, _) = (_, _)› | cases ‹some _ = some _›
    | cases ‹none = some _›
    | fail_if_no_progress with_reducible refine mk_keeps ?_ rfl rfl rfl (by and_intros <;> first | exact .inr (by with_reducible rfl) | exact .inl (sub_of hp rfl)) | dsimp only | split
theorem State.sweepStep_keeps {P : ℕ} {s0 s : State} (hp : 1589778 &&& P = 1589778) (h : Keeps P s0 s) (a1 : Sweep) (a2 : SweepEng) : Keeps P s0 (State.sweepStep s a1 a2) := by
  unfold State.sweepStep
  have h1 := State.sweepSend_keeps (sub_of hp rfl) (State.dec_keeps (sub_of hp rfl) h (F.INST_ENG_STATUS_RECALL_OPEN a2.die) 1) a1 a2
  exact ite_keeps (fun _ => State.sweepEnd_keeps (sub_of hp rfl) h1 _ _ _) fun _ => State.sweepOn_keeps (sub_of hp rfl) h1 _ _ _ _
theorem State.barDone_keeps {P : ℕ} {s0 s : State} (hp : 1573394 &&& P = 1573394) (h : Keeps P s0 s) (a1 : BarFor) : Keeps P s0 (State.barDone s a1) := by
  unfold State.barDone
  repeat' first
    | with_reducible assumption | exact sub_of hp rfl | exact rfl | with_reducible apply State.startSweep_keeps
    | with_reducible apply State.retireNow_keeps | with_reducible apply State.wr_keeps
    | with_reducible apply State.setOwner_keeps | with_reducible apply State.offerReady_keeps
    | with_reducible apply State.emit_keeps | with_reducible apply State.offerTo_keeps | with_reducible apply ite_keeps
    | with_reducible apply foldl_keeps | with_reducible refine getD_keeps (fun _ _ => ?_) ?_ | intro _
    | cases ‹(_, _) = (_, _)› | cases ‹some _ = some _› | cases ‹none = some _›
    | fail_if_no_progress with_reducible refine mk_keeps ?_ rfl rfl rfl (by and_intros <;> first | exact .inr (by with_reducible rfl) | exact .inl (sub_of hp rfl)) | dsimp only | split
theorem State.migBack_keeps {P : ℕ} {s0 s : State} (hp : 1703954 &&& P = 1703954) (h : Keeps P s0 s) (a1 : ℕ) (a2 : ℕ) : Keeps P s0 (State.migBack s a1 a2) := by
  unfold State.migBack
  repeat' first
    | with_reducible assumption | exact sub_of hp rfl | exact rfl | with_reducible apply State.queueCommit_keeps
    | with_reducible apply State.wr_keeps | with_reducible apply State.freeVppb_keeps
    | with_reducible apply State.migEnd_keeps | with_reducible apply State.emit_keeps | with_reducible apply ite_keeps
    | with_reducible apply foldl_keeps | with_reducible refine getD_keeps (fun _ _ => ?_) ?_ | intro _
    | cases ‹(_, _) = (_, _)› | cases ‹some _ = some _› | cases ‹none = some _›
    | fail_if_no_progress with_reducible refine mk_keeps ?_ rfl rfl rfl (by and_intros <;> first | exact .inr (by with_reducible rfl) | exact .inl (sub_of hp rfl)) | dsimp only | split
theorem State.barRefused_keeps {P : ℕ} {s0 s : State} (hp : 1703954 &&& P = 1703954) (h : Keeps P s0 s) (a1 : BarFor) : Keeps P s0 (State.barRefused s a1) := by
  unfold State.barRefused
  repeat' first
    | with_reducible assumption | exact sub_of hp rfl | exact rfl | with_reducible apply State.migBack_keeps
    | with_reducible apply State.wr_keeps | with_reducible apply State.flag_keeps
    | with_reducible apply State.freeVppb_keeps | with_reducible apply ite_keeps | with_reducible apply foldl_keeps
    | with_reducible refine getD_keeps (fun _ _ => ?_) ?_ | intro _ | cases ‹(_, _) = (_, _)› | cases ‹some _ = some _›
    | cases ‹none = some _›
    | fail_if_no_progress with_reducible refine mk_keeps ?_ rfl rfl rfl (by and_intros <;> first | exact .inr (by with_reducible rfl) | exact .inl (sub_of hp rfl)) | dsimp only | split
theorem State.refuseCommit_keeps {P : ℕ} {s0 s : State} (hp : 1720338 &&& P = 1720338) (h : Keeps P s0 s) (a1 : BarFor) (a2 : ℕ) (a3 : ℕ) (a4 : ℕ) (a5 : ℕ) : Keeps P s0 (State.refuseCommit s a1 a2 a3 a4 a5) := by
  unfold State.refuseCommit
  repeat' first
    | with_reducible assumption | exact sub_of hp rfl | exact rfl | with_reducible apply State.barRefused_keeps
    | with_reducible apply State.logCommit_keeps | with_reducible apply ite_keeps | with_reducible apply foldl_keeps
    | with_reducible refine getD_keeps (fun _ _ => ?_) ?_ | intro _ | cases ‹(_, _) = (_, _)› | cases ‹some _ = some _›
    | cases ‹none = some _›
    | fail_if_no_progress with_reducible refine mk_keeps ?_ rfl rfl rfl (by and_intros <;> first | exact .inr (by with_reducible rfl) | exact .inl (sub_of hp rfl)) | dsimp only | split
theorem State.runCommit_keeps {P : ℕ} {s0 s : State} (hp : 1720850 &&& P = 1720850) (h : Keeps P s0 s) (a1 : Barrier) : Keeps P s0 (State.runCommit s a1) := by
  unfold State.runCommit
  repeat' first
    | with_reducible assumption | exact sub_of hp rfl | exact rfl | with_reducible apply State.barDone_keeps
    | with_reducible apply State.startBarrier_keeps | with_reducible apply State.refuseCommit_keeps
    | with_reducible apply ite_keeps | with_reducible apply foldl_keeps
    | with_reducible refine getD_keeps (fun _ _ => ?_) ?_ | intro _ | cases ‹(_, _) = (_, _)› | cases ‹some _ = some _›
    | cases ‹none = some _›
    | fail_if_no_progress with_reducible refine mk_keeps ?_ rfl rfl rfl (by and_intros <;> first | exact .inr (by with_reducible rfl) | exact .inl (sub_of hp rfl)) | dsimp only | split
theorem State.commitTurn_keeps {P : ℕ} {s0 s : State} (hp : 3818002 &&& P = 3818002) (h : Keeps P s0 s) : Keeps P s0 (State.commitTurn s) := by
  unfold State.commitTurn
  repeat' first
    | with_reducible assumption | exact sub_of hp rfl | exact rfl | with_reducible apply State.runCommit_keeps
    | with_reducible apply ite_keeps | with_reducible apply foldl_keeps
    | with_reducible refine getD_keeps (fun _ _ => ?_) ?_ | intro _ | cases ‹(_, _) = (_, _)› | cases ‹some _ = some _›
    | cases ‹none = some _›
    | fail_if_no_progress with_reducible refine mk_keeps ?_ rfl rfl rfl (by and_intros <;> first | exact .inr (by with_reducible rfl) | exact .inl (sub_of hp rfl)) | dsimp only | split
theorem State.nextCommit_keeps {P : ℕ} {s0 s : State} (hp : 3818002 &&& P = 3818002) (h : Keeps P s0 s) : Keeps P s0 (State.nextCommit s) := by
  unfold State.nextCommit
  repeat' first
    | with_reducible assumption | exact sub_of hp rfl | exact rfl | with_reducible apply State.commitTurn_keeps
    | with_reducible apply ite_keeps | with_reducible apply foldl_keeps
    | with_reducible refine getD_keeps (fun _ _ => ?_) ?_ | intro _ | cases ‹(_, _) = (_, _)› | cases ‹some _ = some _›
    | cases ‹none = some _›
    | fail_if_no_progress with_reducible refine mk_keeps ?_ rfl rfl rfl (by and_intros <;> first | exact .inr (by with_reducible rfl) | exact .inl (sub_of hp rfl)) | dsimp only | split
theorem State.regionCommit_keeps {P : ℕ} {s0 s : State} (hp : 3818002 &&& P = 3818002) (h : Keeps P s0 s) (a1 : BarFor) (a2 : List ℕ) (a3 : List (ℕ × ℕ × Option Region)) : Keeps P s0 (State.regionCommit s a1 a2 a3) := by
  unfold State.regionCommit
  repeat' first
    | with_reducible assumption | exact sub_of hp rfl | exact rfl | with_reducible apply State.barDone_keeps
    | with_reducible apply State.queueCommit_keeps | with_reducible apply State.nextCommit_keeps
    | with_reducible apply ite_keeps | with_reducible apply foldl_keeps
    | with_reducible refine getD_keeps (fun _ _ => ?_) ?_ | intro _ | cases ‹(_, _) = (_, _)› | cases ‹some _ = some _›
    | cases ‹none = some _›
    | fail_if_no_progress with_reducible refine mk_keeps ?_ rfl rfl rfl (by and_intros <;> first | exact .inr (by with_reducible rfl) | exact .inl (sub_of hp rfl)) | dsimp only | split
theorem execRcmp_keeps_eq {P : ℕ} {s0 s t : State} (hp : 3852818 &&& P = 3852818) {a0 : Pkt} (e : execRcmp a0 s = .next t) (h : Keeps P s0 s) : Keeps P s0 t := by
  unfold execRcmp at e
  repeat' first
    | cases ‹Host.Outcome.next _ = Host.Outcome.next _› | cases ‹Host.Outcome.refused _ = Host.Outcome.next _›
    | cases ‹Host.Outcome.fault _ = Host.Outcome.next _› | split at e | with_reducible assumption | exact sub_of hp rfl
    | exact rfl | with_reducible apply State.arrive_keeps | with_reducible apply State.nextCommit_keeps
    | with_reducible apply State.sweepStep_keeps | with_reducible apply ite_keeps | with_reducible apply foldl_keeps
    | with_reducible refine getD_keeps (fun _ _ => ?_) ?_ | intro _ | cases ‹(_, _) = (_, _)› | cases ‹some _ = some _›
    | cases ‹none = some _›
    | fail_if_no_progress with_reducible refine mk_keeps ?_ rfl rfl rfl (by and_intros <;> first | exact .inr (by with_reducible rfl) | exact .inl (sub_of hp rfl)) | dsimp only | dsimp only at e | split
theorem State.unbindDev_keeps {P : ℕ} {s0 s : State} (hp : 3818002 &&& P = 3818002) (h : Keeps P s0 s) (a1 : ℕ) (a2 : ℕ) : Keeps P s0 (State.unbindDev s a1 a2) := by
  unfold State.unbindDev
  repeat' first
    | with_reducible assumption | exact sub_of hp rfl | exact rfl | with_reducible apply State.regionCommit_keeps
    | with_reducible apply State.freeVppb_keeps | with_reducible apply ite_keeps | with_reducible apply foldl_keeps
    | with_reducible refine getD_keeps (fun _ _ => ?_) ?_ | intro _ | cases ‹(_, _) = (_, _)› | cases ‹some _ = some _›
    | cases ‹none = some _›
    | fail_if_no_progress with_reducible refine mk_keeps ?_ rfl rfl rfl (by and_intros <;> first | exact .inr (by with_reducible rfl) | exact .inl (sub_of hp rfl)) | dsimp only | split
theorem State.bindOp_keeps {P : ℕ} {s0 s : State} (hp : 3818002 &&& P = 3818002) (h : Keeps P s0 s) (a1 : ℕ) (a2 : ℕ) (a3 : ℕ) : Keeps P s0 (State.bindOp s a1 a2 a3) := by
  unfold State.bindOp
  repeat' first
    | with_reducible assumption | exact sub_of hp rfl | exact rfl | with_reducible apply State.regionCommit_keeps
    | with_reducible apply State.wr_keeps | with_reducible apply State.noKeyFor_keeps
    | with_reducible apply State.flag_keeps | refine State.giveKey_keeps_eq (sub_of hp rfl) (by assumption) ?_
    | with_reducible apply ite_keeps | with_reducible apply foldl_keeps
    | with_reducible refine getD_keeps (fun _ _ => ?_) ?_ | intro _ | cases ‹(_, _) = (_, _)› | cases ‹some _ = some _›
    | cases ‹none = some _›
    | fail_if_no_progress with_reducible refine mk_keeps ?_ rfl rfl rfl (by and_intros <;> first | exact .inr (by with_reducible rfl) | exact .inl (sub_of hp rfl)) | dsimp only | split
theorem State.unbindOp_keeps {P : ℕ} {s0 s : State} (hp : 8045075 &&& P = 8045075) (h : Keeps P s0 s) (a1 : ℕ) (a2 : ℕ) (a3 : Bool) : Keeps P s0 (State.unbindOp s a1 a2 a3) := by
  unfold State.unbindOp
  repeat' first
    | with_reducible assumption | exact sub_of hp rfl | exact rfl | with_reducible apply State.regionCommit_keeps
    | with_reducible apply State.wr_keeps | with_reducible apply State.abortMoves_keeps
    | with_reducible apply State.flag_keeps | with_reducible apply State.emit_keeps | with_reducible apply ite_keeps
    | with_reducible apply foldl_keeps | with_reducible refine getD_keeps (fun _ _ => ?_) ?_ | intro _
    | cases ‹(_, _) = (_, _)› | cases ‹some _ = some _› | cases ‹none = some _›
    | fail_if_no_progress with_reducible refine mk_keeps ?_ rfl rfl rfl (by and_intros <;> first | exact .inr (by with_reducible rfl) | exact .inl (sub_of hp rfl)) | dsimp only | split
theorem State.slotOff_keeps {P : ℕ} {s0 s : State} (hp : 3818002 &&& P = 3818002) (h : Keeps P s0 s) (a1 : ℕ) (a2 : ℕ) : Keeps P s0 (State.slotOff s a1 a2) := by
  unfold State.slotOff
  repeat' first
    | with_reducible assumption | exact sub_of hp rfl | exact rfl | with_reducible apply State.unbindDev_keeps
    | with_reducible apply State.regionCommit_keeps | with_reducible apply ite_keeps | with_reducible apply foldl_keeps
    | with_reducible refine getD_keeps (fun _ _ => ?_) ?_ | intro _ | cases ‹(_, _) = (_, _)› | cases ‹some _ = some _›
    | cases ‹none = some _›
    | fail_if_no_progress with_reducible refine mk_keeps ?_ rfl rfl rfl (by and_intros <;> first | exact .inr (by with_reducible rfl) | exact .inl (sub_of hp rfl)) | dsimp only | split
theorem execBind_keeps_eq {P : ℕ} {s0 s t : State} (hp : 3818002 &&& P = 3818002) {a0 : Src} {a1 : Inst} (e : execBind a0 a1 s = .next t) (h : Keeps P s0 s) : Keeps P s0 t := by
  unfold execBind at e
  repeat' first
    | cases ‹Host.Outcome.next _ = Host.Outcome.next _› | cases ‹Host.Outcome.refused _ = Host.Outcome.next _›
    | cases ‹Host.Outcome.fault _ = Host.Outcome.next _› | split at e | with_reducible assumption | exact sub_of hp rfl
    | exact rfl | with_reducible apply State.bindOp_keeps | with_reducible apply State.ifMay_keeps
    | with_reducible apply ite_keeps | with_reducible apply foldl_keeps
    | with_reducible refine getD_keeps (fun _ _ => ?_) ?_ | intro _ | cases ‹(_, _) = (_, _)› | cases ‹some _ = some _›
    | cases ‹none = some _›
    | fail_if_no_progress with_reducible refine mk_keeps ?_ rfl rfl rfl (by and_intros <;> first | exact .inr (by with_reducible rfl) | exact .inl (sub_of hp rfl)) | dsimp only | dsimp only at e | split
theorem execUnbindKeep_keeps_eq {P : ℕ} {s0 s t : State} (hp : 8045075 &&& P = 8045075) {a0 : Src} {a1 : Inst} (e : execUnbindKeep a0 a1 s = .next t) (h : Keeps P s0 s) : Keeps P s0 t := by
  unfold execUnbindKeep at e
  repeat' first
    | cases ‹Host.Outcome.next _ = Host.Outcome.next _› | cases ‹Host.Outcome.refused _ = Host.Outcome.next _›
    | cases ‹Host.Outcome.fault _ = Host.Outcome.next _› | split at e | with_reducible assumption | exact sub_of hp rfl
    | exact rfl | with_reducible apply State.ifMay_keeps | with_reducible apply State.unbindOp_keeps
    | with_reducible apply ite_keeps | with_reducible apply foldl_keeps
    | with_reducible refine getD_keeps (fun _ _ => ?_) ?_ | intro _ | cases ‹(_, _) = (_, _)› | cases ‹some _ = some _›
    | cases ‹none = some _›
    | fail_if_no_progress with_reducible refine mk_keeps ?_ rfl rfl rfl (by and_intros <;> first | exact .inr (by with_reducible rfl) | exact .inl (sub_of hp rfl)) | dsimp only | dsimp only at e | split
theorem execUnbindRelease_keeps_eq {P : ℕ} {s0 s t : State} (hp : 8045075 &&& P = 8045075) {a0 : Src} {a1 : Inst} (e : execUnbindRelease a0 a1 s = .next t) (h : Keeps P s0 s) : Keeps P s0 t := by
  unfold execUnbindRelease at e
  repeat' first
    | cases ‹Host.Outcome.next _ = Host.Outcome.next _› | cases ‹Host.Outcome.refused _ = Host.Outcome.next _›
    | cases ‹Host.Outcome.fault _ = Host.Outcome.next _› | split at e | with_reducible assumption | exact sub_of hp rfl
    | exact rfl | with_reducible apply State.ifMay_keeps | with_reducible apply State.unbindOp_keeps
    | with_reducible apply ite_keeps | with_reducible apply foldl_keeps
    | with_reducible refine getD_keeps (fun _ _ => ?_) ?_ | intro _ | cases ‹(_, _) = (_, _)› | cases ‹some _ = some _›
    | cases ‹none = some _›
    | fail_if_no_progress with_reducible refine mk_keeps ?_ rfl rfl rfl (by and_intros <;> first | exact .inr (by with_reducible rfl) | exact .inl (sub_of hp rfl)) | dsimp only | dsimp only at e | split
theorem State.defineWith_keeps {P : ℕ} {s0 s : State} (hp : 786434 &&& P = 786434) (h : Keeps P s0 s) (a1 : ℕ) (a2 : ℕ) (a3 : Tmpl) (a4 : ℕ) : Keeps P s0 (State.defineWith s a1 a2 a3 a4) := by
  unfold State.defineWith
  repeat' first
    | with_reducible assumption | exact sub_of hp rfl | exact rfl | with_reducible apply State.wr_keeps
    | with_reducible apply State.setOwner_keeps | with_reducible apply ite_keeps | with_reducible apply foldl_keeps
    | with_reducible refine getD_keeps (fun _ _ => ?_) ?_ | intro _ | cases ‹(_, _) = (_, _)› | cases ‹some _ = some _›
    | cases ‹none = some _›
    | fail_if_no_progress with_reducible refine mk_keeps ?_ rfl rfl rfl (by and_intros <;> first | exact .inr (by with_reducible rfl) | exact .inl (sub_of hp rfl)) | dsimp only | split
theorem State.defineInst_keeps_eq {P : ℕ} {s0 s t : State} (hp : 1835010 &&& P = 1835010) {a1 : ℕ} {a2 : ℕ} (e : State.defineInst s a1 a2 = some t) (h : Keeps P s0 s) : Keeps P s0 t := by
  unfold State.defineInst at e
  split at e
  · rename_i e2
    have h2 := State.allocSlot_keeps_eq (sub_of hp rfl) e2 h
    extract_lets exts at e
    split at e
    · cases e
    · cases e
      exact foldl_keeps (State.defineWith_keeps (sub_of hp rfl) h2 _ _ _ _) fun _ _ h => State.assignExt_keeps (sub_of hp rfl) h _ _
  · cases e
theorem State.dcAddOp_keeps {P : ℕ} {s0 s : State} (hp : 524290 &&& P = 524290) (h : Keeps P s0 s) (a1 : ℕ) (a2 : List ℕ) : Keeps P s0 (State.dcAddOp s a1 a2) := by
  unfold State.dcAddOp
  repeat' first
    | with_reducible assumption | exact sub_of hp rfl | exact rfl | with_reducible apply State.assignExt_keeps
    | with_reducible apply ite_keeps | with_reducible apply foldl_keeps
    | with_reducible refine getD_keeps (fun _ _ => ?_) ?_ | intro _ | cases ‹(_, _) = (_, _)› | cases ‹some _ = some _›
    | cases ‹none = some _›
    | fail_if_no_progress with_reducible refine mk_keeps ?_ rfl rfl rfl (by and_intros <;> first | exact .inr (by with_reducible rfl) | exact .inl (sub_of hp rfl)) | dsimp only | split
theorem State.releaseOf_keeps {P : ℕ} {s0 s : State} (hp : 8045075 &&& P = 8045075) (h : Keeps P s0 s) (a1 : ℕ) (a2 : List ℕ) (a3 : Bool) : Keeps P s0 (State.releaseOf s a1 a2 a3) := by
  unfold State.releaseOf
  repeat' first
    | with_reducible assumption | exact sub_of hp rfl | exact rfl | with_reducible apply State.regionCommit_keeps
    | with_reducible apply State.abortMoves_keeps | with_reducible apply ite_keeps | with_reducible apply foldl_keeps
    | with_reducible refine getD_keeps (fun _ _ => ?_) ?_ | intro _ | cases ‹(_, _) = (_, _)› | cases ‹some _ = some _›
    | cases ‹none = some _›
    | fail_if_no_progress with_reducible refine mk_keeps ?_ rfl rfl rfl (by and_intros <;> first | exact .inr (by with_reducible rfl) | exact .inl (sub_of hp rfl)) | dsimp only | split
theorem State.releaseOp_keeps {P : ℕ} {s0 s : State} (hp : 8045075 &&& P = 8045075) (h : Keeps P s0 s) (a1 : ℕ) (a2 : List ℕ) (a3 : Bool) : Keeps P s0 (State.releaseOp s a1 a2 a3) := by
  unfold State.releaseOp
  extract_lets u
  have h1 : Keeps P s0 u := State.releaseOf_keeps (sub_of hp rfl) h _ _ _
  clear_value u
  cases u.ownerKey a1 1 with
  | none => exact h1
  | some g => exact State.releaseOf_keeps (sub_of hp rfl) h1 _ _ _
theorem State.addResponse_keeps {P : ℕ} {s0 s : State} (hp : 8045075 &&& P = 8045075) (h : Keeps P s0 s) (a1 : ℕ) (a2 : List ℕ) : Keeps P s0 (State.addResponse s a1 a2) := by
  unfold State.addResponse
  repeat' first
    | with_reducible assumption | exact sub_of hp rfl | exact rfl | with_reducible apply State.releaseOf_keeps
    | with_reducible apply State.capUpdate_keeps | with_reducible apply State.setOwner_keeps
    | with_reducible apply ite_keeps | with_reducible apply foldl_keeps
    | with_reducible refine getD_keeps (fun _ _ => ?_) ?_ | intro _ | cases ‹(_, _) = (_, _)› | cases ‹some _ = some _›
    | cases ‹none = some _›
    | fail_if_no_progress with_reducible refine mk_keeps ?_ rfl rfl rfl (by and_intros <;> first | exact .inr (by with_reducible rfl) | exact .inl (sub_of hp rfl)) | dsimp only | split
theorem execDcAddResponse_keeps_eq {P : ℕ} {s0 s t : State} (hp : 8045075 &&& P = 8045075) {a0 : Inst} {a1 : List Ext} (e : execDcAddResponse a0 a1 s = .next t) (h : Keeps P s0 s) : Keeps P s0 t := by
  unfold execDcAddResponse at e
  repeat' first
    | cases ‹Host.Outcome.next _ = Host.Outcome.next _› | cases ‹Host.Outcome.refused _ = Host.Outcome.next _›
    | cases ‹Host.Outcome.fault _ = Host.Outcome.next _› | split at e | with_reducible assumption | exact sub_of hp rfl
    | exact rfl | with_reducible apply State.addResponse_keeps | with_reducible apply ite_keeps
    | with_reducible apply foldl_keeps | with_reducible refine getD_keeps (fun _ _ => ?_) ?_ | intro _
    | cases ‹(_, _) = (_, _)› | cases ‹some _ = some _› | cases ‹none = some _›
    | fail_if_no_progress with_reducible refine mk_keeps ?_ rfl rfl rfl (by and_intros <;> first | exact .inr (by with_reducible rfl) | exact .inl (sub_of hp rfl)) | dsimp only | dsimp only at e | split
theorem State.recallFor_keeps {P : ℕ} {s0 s : State} (hp : 1573394 &&& P = 1573394) (h : Keeps P s0 s) (a1 : ℕ) (a2 : ℕ) (a3 : List ℕ) : Keeps P s0 (State.recallFor s a1 a2 a3) := by
  unfold State.recallFor
  repeat' first
    | with_reducible assumption | exact sub_of hp rfl | exact rfl | with_reducible apply State.startSweep_keeps
    | with_reducible apply ite_keeps | with_reducible apply foldl_keeps
    | with_reducible refine getD_keeps (fun _ _ => ?_) ?_ | intro _ | cases ‹(_, _) = (_, _)› | cases ‹some _ = some _›
    | cases ‹none = some _›
    | fail_if_no_progress with_reducible refine mk_keeps ?_ rfl rfl rfl (by and_intros <;> first | exact .inr (by with_reducible rfl) | exact .inl (sub_of hp rfl)) | dsimp only | split
theorem execDcReleaseResponse_keeps_eq {P : ℕ} {s0 s t : State} (hp : 1573394 &&& P = 1573394) {a0 : Inst} {a1 : List Ext} (e : execDcReleaseResponse a0 a1 s = .next t) (h : Keeps P s0 s) : Keeps P s0 t := by
  unfold execDcReleaseResponse at e
  repeat' first
    | cases ‹Host.Outcome.next _ = Host.Outcome.next _› | cases ‹Host.Outcome.refused _ = Host.Outcome.next _›
    | cases ‹Host.Outcome.fault _ = Host.Outcome.next _› | split at e | with_reducible assumption | exact sub_of hp rfl
    | exact rfl | with_reducible apply State.recallFor_keeps | with_reducible apply ite_keeps
    | with_reducible apply foldl_keeps | with_reducible refine getD_keeps (fun _ _ => ?_) ?_ | intro _
    | cases ‹(_, _) = (_, _)› | cases ‹some _ = some _› | cases ‹none = some _›
    | fail_if_no_progress with_reducible refine mk_keeps ?_ rfl rfl rfl (by and_intros <;> first | exact .inr (by with_reducible rfl) | exact .inl (sub_of hp rfl)) | dsimp only | dsimp only at e | split
theorem State.fmLease_keeps {P : ℕ} {s0 s : State} (hp : 2097152 &&& P = 2097152) (h : Keeps P s0 s) (a1 : Src) : Keeps P s0 (State.fmLease s a1) := by
  unfold State.fmLease
  repeat' first
    | with_reducible assumption | exact sub_of hp rfl | exact rfl | with_reducible apply State.grantLease_keeps
    | with_reducible apply ite_keeps | with_reducible apply foldl_keeps
    | with_reducible refine getD_keeps (fun _ _ => ?_) ?_ | intro _ | cases ‹(_, _) = (_, _)› | cases ‹some _ = some _›
    | cases ‹none = some _›
    | fail_if_no_progress with_reducible refine mk_keeps ?_ rfl rfl rfl (by and_intros <;> first | exact .inr (by with_reducible rfl) | exact .inl (sub_of hp rfl)) | dsimp only | split
theorem State.mctpIn_keeps {P : ℕ} {s0 s : State} (hp : 16386 &&& P = 16386) (h : Keeps P s0 s) (a1 : Src) (a2 : State → State) (hk : ∀ t, Keeps P s0 t → Keeps P s0 (a2 t)) : Keeps P s0 (State.mctpIn s a1 a2) := by
  unfold State.mctpIn
  repeat' first
    | with_reducible assumption | exact sub_of hp rfl | exact rfl | apply hk | with_reducible apply State.logAccess_keeps
    | with_reducible apply State.sat_keeps | with_reducible apply ite_keeps | with_reducible apply foldl_keeps
    | with_reducible refine getD_keeps (fun _ _ => ?_) ?_ | intro _ | cases ‹(_, _) = (_, _)› | cases ‹some _ = some _›
    | cases ‹none = some _›
    | fail_if_no_progress with_reducible refine mk_keeps ?_ rfl rfl rfl (by and_intros <;> first | exact .inr (by with_reducible rfl) | exact .inl (sub_of hp rfl)) | dsimp only | split
theorem State.fmDo_keeps {P : ℕ} {s0 s : State} (hp : 2113554 &&& P = 2113554) (h : Keeps P s0 s) (a1 : Src) (a2 : List (Fld × ℕ)) (a3 : State → State) (a4 : State → Option State)
    (hk : ∀ t, Keeps P s0 t → Keeps P s0 (a3 t)) (hf : ∀ t u, Keeps P s0 t → a4 t = some u → Keeps P s0 u) : Keeps P s0 (State.fmDo s a1 a2 a3 a4) := by
  unfold State.fmDo
  refine State.mctpIn_keeps (sub_of hp rfl) h _ _ fun t h => ?_
  have h1 := State.fmLease_keeps (sub_of hp rfl) h a1
  refine ite_keeps (fun _ => State.emit_keeps (sub_of hp rfl) (State.logAccess_keeps (sub_of hp rfl) h1 _ _ _ _) _) fun _ => ?_
  split
  · exact State.emit_keeps (sub_of hp rfl) (State.logAccess_keeps (sub_of hp rfl) h1 _ _ _ _) _
  · split
    · rename_i e
      exact State.emit_keeps (sub_of hp rfl) (hf _ _ h1 e) _
    · exact State.emit_keeps (sub_of hp rfl) (hk _ h1) _
theorem State.fmQuery_keeps {P : ℕ} {s0 s : State} (hp : 2113554 &&& P = 2113554) (h : Keeps P s0 s) (a1 : Src) (a2 : List ℕ) : Keeps P s0 (State.fmQuery s a1 a2) := by
  unfold State.fmQuery
  repeat' first
    | with_reducible assumption | exact sub_of hp rfl | exact rfl | with_reducible apply State.mctpIn_keeps
    | with_reducible apply State.logAccess_keeps | with_reducible apply State.fmLease_keeps
    | with_reducible apply State.emit_keeps | with_reducible apply ite_keeps | with_reducible apply foldl_keeps
    | with_reducible refine getD_keeps (fun _ _ => ?_) ?_ | intro _ | cases ‹(_, _) = (_, _)› | cases ‹some _ = some _›
    | cases ‹none = some _›
    | fail_if_no_progress with_reducible refine mk_keeps ?_ rfl rfl rfl (by and_intros <;> first | exact .inr (by with_reducible rfl) | exact .inl (sub_of hp rfl)) | dsimp only | split
theorem State.fmGetVcsInfo_keeps {P : ℕ} {s0 s : State} (hp : 2113554 &&& P = 2113554) (h : Keeps P s0 s) (a1 : Src) (a2 : Cell) : Keeps P s0 (State.fmGetVcsInfo s a1 a2) := by
  unfold State.fmGetVcsInfo
  repeat' first
    | with_reducible assumption | exact sub_of hp rfl | exact rfl | with_reducible apply State.fmQuery_keeps
    | with_reducible apply ite_keeps | with_reducible apply foldl_keeps
    | with_reducible refine getD_keeps (fun _ _ => ?_) ?_ | intro _ | cases ‹(_, _) = (_, _)› | cases ‹some _ = some _›
    | cases ‹none = some _›
    | fail_if_no_progress with_reducible refine mk_keeps ?_ rfl rfl rfl (by and_intros <;> first | exact .inr (by with_reducible rfl) | exact .inl (sub_of hp rfl)) | dsimp only | split
theorem execFmGetVcsInfo_keeps_eq {P : ℕ} {s0 s t : State} (hp : 2113554 &&& P = 2113554) {a0 : Src} {a1 : Cell} (e : execFmGetVcsInfo a0 a1 s = .next t) (h : Keeps P s0 s) : Keeps P s0 t := by
  unfold execFmGetVcsInfo at e
  repeat' first
    | cases ‹Host.Outcome.next _ = Host.Outcome.next _› | cases ‹Host.Outcome.refused _ = Host.Outcome.next _›
    | cases ‹Host.Outcome.fault _ = Host.Outcome.next _› | split at e | with_reducible assumption | exact sub_of hp rfl
    | exact rfl | with_reducible apply State.fmGetVcsInfo_keeps | with_reducible apply ite_keeps
    | with_reducible apply foldl_keeps | with_reducible refine getD_keeps (fun _ _ => ?_) ?_ | intro _
    | cases ‹(_, _) = (_, _)› | cases ‹some _ = some _› | cases ‹none = some _›
    | fail_if_no_progress with_reducible refine mk_keeps ?_ rfl rfl rfl (by and_intros <;> first | exact .inr (by with_reducible rfl) | exact .inl (sub_of hp rfl)) | dsimp only | dsimp only at e | split
theorem State.fmBindVppb_keeps {P : ℕ} {s0 s : State} (hp : 3818002 &&& P = 3818002) (h : Keeps P s0 s) (a1 : Src) (a2 : Inst) (a3 : Cell) (a4 : Fin 64) : Keeps P s0 (State.fmBindVppb s a1 a2 a3 a4) := by
  unfold State.fmBindVppb
  repeat' first
    | with_reducible assumption | exact sub_of hp rfl | exact rfl | with_reducible apply State.fmDo_keeps
    | with_reducible apply State.bindOp_keeps | with_reducible apply State.wr_keeps | with_reducible apply ite_keeps
    | with_reducible apply foldl_keeps | with_reducible refine getD_keeps (fun _ _ => ?_) ?_ | intro _
    | cases ‹(_, _) = (_, _)› | cases ‹some _ = some _› | cases ‹none = some _›
    | fail_if_no_progress with_reducible refine mk_keeps ?_ rfl rfl rfl (by and_intros <;> first | exact .inr (by with_reducible rfl) | exact .inl (sub_of hp rfl)) | dsimp only | split
theorem execFmBindVppb_keeps_eq {P : ℕ} {s0 s t : State} (hp : 3818002 &&& P = 3818002) {a0 : Src} {a1 : Inst} {a2 : Cell} {a3 : Fin 64} (e : execFmBindVppb a0 a1 a2 a3 s = .next t) (h : Keeps P s0 s) : Keeps P s0 t := by
  unfold execFmBindVppb at e
  repeat' first
    | cases ‹Host.Outcome.next _ = Host.Outcome.next _› | cases ‹Host.Outcome.refused _ = Host.Outcome.next _›
    | cases ‹Host.Outcome.fault _ = Host.Outcome.next _› | split at e | with_reducible assumption | exact sub_of hp rfl
    | exact rfl | with_reducible apply State.fmBindVppb_keeps | with_reducible apply ite_keeps
    | with_reducible apply foldl_keeps | with_reducible refine getD_keeps (fun _ _ => ?_) ?_ | intro _
    | cases ‹(_, _) = (_, _)› | cases ‹some _ = some _› | cases ‹none = some _›
    | fail_if_no_progress with_reducible refine mk_keeps ?_ rfl rfl rfl (by and_intros <;> first | exact .inr (by with_reducible rfl) | exact .inl (sub_of hp rfl)) | dsimp only | dsimp only at e | split
theorem State.fmUnbindVppb_keeps {P : ℕ} {s0 s : State} (hp : 8045075 &&& P = 8045075) (h : Keeps P s0 s) (a1 : Src) (a2 : Cell) (a3 : Fin 64) (a4 : Fin 3) : Keeps P s0 (State.fmUnbindVppb s a1 a2 a3 a4) := by
  unfold State.fmUnbindVppb
  repeat' first
    | with_reducible assumption | exact sub_of hp rfl | exact rfl | with_reducible apply State.fmDo_keeps
    | with_reducible apply State.unbindDev_keeps | with_reducible apply State.wr_keeps
    | with_reducible apply State.unbindOp_keeps | with_reducible apply State.emit_keeps | with_reducible apply ite_keeps
    | with_reducible apply foldl_keeps | with_reducible refine getD_keeps (fun _ _ => ?_) ?_ | intro _
    | cases ‹(_, _) = (_, _)› | cases ‹some _ = some _› | cases ‹none = some _›
    | fail_if_no_progress with_reducible refine mk_keeps ?_ rfl rfl rfl (by and_intros <;> first | exact .inr (by with_reducible rfl) | exact .inl (sub_of hp rfl)) | dsimp only | split
theorem execFmUnbindVppb_keeps_eq {P : ℕ} {s0 s t : State} (hp : 8045075 &&& P = 8045075) {a0 : Src} {a1 : Cell} {a2 : Fin 64} {a3 : Fin 3} (e : execFmUnbindVppb a0 a1 a2 a3 s = .next t) (h : Keeps P s0 s) : Keeps P s0 t := by
  unfold execFmUnbindVppb at e
  repeat' first
    | cases ‹Host.Outcome.next _ = Host.Outcome.next _› | cases ‹Host.Outcome.refused _ = Host.Outcome.next _›
    | cases ‹Host.Outcome.fault _ = Host.Outcome.next _› | split at e | with_reducible assumption | exact sub_of hp rfl
    | exact rfl | with_reducible apply State.fmUnbindVppb_keeps | with_reducible apply ite_keeps
    | with_reducible apply foldl_keeps | with_reducible refine getD_keeps (fun _ _ => ?_) ?_ | intro _
    | cases ‹(_, _) = (_, _)› | cases ‹some _ = some _› | cases ‹none = some _›
    | fail_if_no_progress with_reducible refine mk_keeps ?_ rfl rfl rfl (by and_intros <;> first | exact .inr (by with_reducible rfl) | exact .inl (sub_of hp rfl)) | dsimp only | dsimp only at e | split
theorem State.fmGetDcdInfo_keeps {P : ℕ} {s0 s : State} (hp : 2113554 &&& P = 2113554) (h : Keeps P s0 s) (a1 : Src) : Keeps P s0 (State.fmGetDcdInfo s a1) := by
  unfold State.fmGetDcdInfo
  repeat' first
    | with_reducible assumption | exact sub_of hp rfl | exact rfl | with_reducible apply State.fmQuery_keeps
    | with_reducible apply ite_keeps | with_reducible apply foldl_keeps
    | with_reducible refine getD_keeps (fun _ _ => ?_) ?_ | intro _ | cases ‹(_, _) = (_, _)› | cases ‹some _ = some _›
    | cases ‹none = some _›
    | fail_if_no_progress with_reducible refine mk_keeps ?_ rfl rfl rfl (by and_intros <;> first | exact .inr (by with_reducible rfl) | exact .inl (sub_of hp rfl)) | dsimp only | split
theorem execFmGetDcdInfo_keeps_eq {P : ℕ} {s0 s t : State} (hp : 2113554 &&& P = 2113554) {a0 : Src} (e : execFmGetDcdInfo a0 s = .next t) (h : Keeps P s0 s) : Keeps P s0 t := by
  unfold execFmGetDcdInfo at e
  repeat' first
    | cases ‹Host.Outcome.next _ = Host.Outcome.next _› | cases ‹Host.Outcome.refused _ = Host.Outcome.next _›
    | cases ‹Host.Outcome.fault _ = Host.Outcome.next _› | split at e | with_reducible assumption | exact sub_of hp rfl
    | exact rfl | with_reducible apply State.fmGetDcdInfo_keeps | with_reducible apply ite_keeps
    | with_reducible apply foldl_keeps | with_reducible refine getD_keeps (fun _ _ => ?_) ?_ | intro _
    | cases ‹(_, _) = (_, _)› | cases ‹some _ = some _› | cases ‹none = some _›
    | fail_if_no_progress with_reducible refine mk_keeps ?_ rfl rfl rfl (by and_intros <;> first | exact .inr (by with_reducible rfl) | exact .inl (sub_of hp rfl)) | dsimp only | dsimp only at e | split
theorem State.fmGetHostDc_keeps {P : ℕ} {s0 s : State} (hp : 2113554 &&& P = 2113554) (h : Keeps P s0 s) (a1 : Src) (a2 : Inst) : Keeps P s0 (State.fmGetHostDc s a1 a2) := by
  unfold State.fmGetHostDc
  repeat' first
    | with_reducible assumption | exact sub_of hp rfl | exact rfl | with_reducible apply State.fmQuery_keeps
    | with_reducible apply ite_keeps | with_reducible apply foldl_keeps
    | with_reducible refine getD_keeps (fun _ _ => ?_) ?_ | intro _ | cases ‹(_, _) = (_, _)› | cases ‹some _ = some _›
    | cases ‹none = some _›
    | fail_if_no_progress with_reducible refine mk_keeps ?_ rfl rfl rfl (by and_intros <;> first | exact .inr (by with_reducible rfl) | exact .inl (sub_of hp rfl)) | dsimp only | split
theorem execFmGetHostDcRegionCfg_keeps_eq {P : ℕ} {s0 s t : State} (hp : 2113554 &&& P = 2113554) {a0 : Src} {a1 : Inst} (e : execFmGetHostDcRegionCfg a0 a1 s = .next t) (h : Keeps P s0 s) : Keeps P s0 t := by
  unfold execFmGetHostDcRegionCfg at e
  repeat' first
    | cases ‹Host.Outcome.next _ = Host.Outcome.next _› | cases ‹Host.Outcome.refused _ = Host.Outcome.next _›
    | cases ‹Host.Outcome.fault _ = Host.Outcome.next _› | split at e | with_reducible assumption | exact sub_of hp rfl
    | exact rfl | with_reducible apply State.fmGetHostDc_keeps | with_reducible apply ite_keeps
    | with_reducible apply foldl_keeps | with_reducible refine getD_keeps (fun _ _ => ?_) ?_ | intro _
    | cases ‹(_, _) = (_, _)› | cases ‹some _ = some _› | cases ‹none = some _›
    | fail_if_no_progress with_reducible refine mk_keeps ?_ rfl rfl rfl (by and_intros <;> first | exact .inr (by with_reducible rfl) | exact .inl (sub_of hp rfl)) | dsimp only | dsimp only at e | split
theorem State.fmDcAdd_keeps {P : ℕ} {s0 s : State} (hp : 3686418 &&& P = 3686418) (h : Keeps P s0 s) (a1 : Src) (a2 : Inst) (a3 : Fin 2) (a4 : List Ext) : Keeps P s0 (State.fmDcAdd s a1 a2 a3 a4) := by
  unfold State.fmDcAdd
  refine State.fmDo_keeps (sub_of hp rfl) h _ _ _ _ (fun t h => ?_) fun t u h e => ?_
  · split
    · rename_i e
      obtain ⟨o, -, e⟩ := Option.bind_eq_some_iff.1 e
      obtain ⟨v, e, e2⟩ := Option.map_eq_some_iff.1 e
      cases e2
      exact State.dcAddOp_keeps (sub_of hp rfl) (State.giveKey_keeps_eq (sub_of hp rfl) e h) _ _
    · exact h
  · dsimp only at e
    split at e
    · split at e
      · cases e
        exact State.flag_keeps (sub_of hp rfl) (State.noKeyFor_keeps (sub_of hp rfl) h _) _
      · cases e
    · cases e
theorem execFmInitiateDcAdd_keeps_eq {P : ℕ} {s0 s t : State} (hp : 3686418 &&& P = 3686418) {a0 : Src} {a1 : Inst} {a2 : Fin 2} {a3 : List Ext} (e : execFmInitiateDcAdd a0 a1 a2 a3 s = .next t) (h : Keeps P s0 s) : Keeps P s0 t := by
  unfold execFmInitiateDcAdd at e
  repeat' first
    | cases ‹Host.Outcome.next _ = Host.Outcome.next _› | cases ‹Host.Outcome.refused _ = Host.Outcome.next _›
    | cases ‹Host.Outcome.fault _ = Host.Outcome.next _› | split at e | with_reducible assumption | exact sub_of hp rfl
    | exact rfl | with_reducible apply State.fmDcAdd_keeps | with_reducible apply ite_keeps
    | with_reducible apply foldl_keeps | with_reducible refine getD_keeps (fun _ _ => ?_) ?_ | intro _
    | cases ‹(_, _) = (_, _)› | cases ‹some _ = some _› | cases ‹none = some _›
    | fail_if_no_progress with_reducible refine mk_keeps ?_ rfl rfl rfl (by and_intros <;> first | exact .inr (by with_reducible rfl) | exact .inl (sub_of hp rfl)) | dsimp only | dsimp only at e | split
theorem State.fmDcRelease_keeps {P : ℕ} {s0 s : State} (hp : 8045075 &&& P = 8045075) (h : Keeps P s0 s) (a1 : Src) (a2 : Inst) (a3 : List Ext) (a4 : Bool) : Keeps P s0 (State.fmDcRelease s a1 a2 a3 a4) := by
  unfold State.fmDcRelease
  repeat' first
    | with_reducible assumption | exact sub_of hp rfl | exact rfl | with_reducible apply State.fmDo_keeps
    | with_reducible apply State.releaseOp_keeps | with_reducible apply ite_keeps | with_reducible apply foldl_keeps
    | with_reducible refine getD_keeps (fun _ _ => ?_) ?_ | intro _ | cases ‹(_, _) = (_, _)› | cases ‹some _ = some _›
    | cases ‹none = some _›
    | fail_if_no_progress with_reducible refine mk_keeps ?_ rfl rfl rfl (by and_intros <;> first | exact .inr (by with_reducible rfl) | exact .inl (sub_of hp rfl)) | dsimp only | split
theorem execFmInitiateDcRelease_keeps_eq {P : ℕ} {s0 s t : State} (hp : 8045075 &&& P = 8045075) {a0 : Src} {a1 : Inst} {a2 : List Ext} {a3 : Bool} (e : execFmInitiateDcRelease a0 a1 a2 a3 s = .next t) (h : Keeps P s0 s) : Keeps P s0 t := by
  unfold execFmInitiateDcRelease at e
  repeat' first
    | cases ‹Host.Outcome.next _ = Host.Outcome.next _› | cases ‹Host.Outcome.refused _ = Host.Outcome.next _›
    | cases ‹Host.Outcome.fault _ = Host.Outcome.next _› | split at e | with_reducible assumption | exact sub_of hp rfl
    | exact rfl | with_reducible apply State.fmDcRelease_keeps | with_reducible apply ite_keeps
    | with_reducible apply foldl_keeps | with_reducible refine getD_keeps (fun _ _ => ?_) ?_ | intro _
    | cases ‹(_, _) = (_, _)› | cases ‹some _ = some _› | cases ‹none = some _›
    | fail_if_no_progress with_reducible refine mk_keeps ?_ rfl rfl rfl (by and_intros <;> first | exact .inr (by with_reducible rfl) | exact .inl (sub_of hp rfl)) | dsimp only | dsimp only at e | split
theorem State.fmCmd_keeps {P : ℕ} {s0 s : State} (hp : 8045075 &&& P = 8045075) (h : Keeps P s0 s) (a1 : Src) (a2 : FmCmd) : Keeps P s0 (State.fmCmd s a1 a2) := by
  unfold State.fmCmd
  repeat' first
    | with_reducible assumption | exact sub_of hp rfl | exact rfl | with_reducible apply State.fmBindVppb_keeps
    | with_reducible apply State.fmGetDcdInfo_keeps | with_reducible apply State.fmGetVcsInfo_keeps
    | with_reducible apply State.fmDcAdd_keeps | with_reducible apply State.fmGetHostDc_keeps
    | with_reducible apply State.fmDcRelease_keeps | with_reducible apply State.fmUnbindVppb_keeps
    | with_reducible apply ite_keeps | with_reducible apply foldl_keeps
    | with_reducible refine getD_keeps (fun _ _ => ?_) ?_ | intro _ | cases ‹(_, _) = (_, _)› | cases ‹some _ = some _›
    | cases ‹none = some _›
    | fail_if_no_progress with_reducible refine mk_keeps ?_ rfl rfl rfl (by and_intros <;> first | exact .inr (by with_reducible rfl) | exact .inl (sub_of hp rfl)) | dsimp only | split
theorem State.migRefuse_keeps {P : ℕ} {s0 s : State} (hp : 2 &&& P = 2) (h : Keeps P s0 s) (a1 : ℕ) : Keeps P s0 (State.migRefuse s a1) := by
  unfold State.migRefuse
  repeat' first
    | with_reducible assumption | exact sub_of hp rfl | exact rfl | with_reducible apply State.flag_keeps
    | with_reducible apply ite_keeps | with_reducible apply foldl_keeps
    | with_reducible refine getD_keeps (fun _ _ => ?_) ?_ | intro _ | cases ‹(_, _) = (_, _)› | cases ‹some _ = some _›
    | cases ‹none = some _›
    | fail_if_no_progress with_reducible refine mk_keeps ?_ rfl rfl rfl (by and_intros <;> first | exact .inr (by with_reducible rfl) | exact .inl (sub_of hp rfl)) | dsimp only | split
theorem State.prepareOp_keeps {P : ℕ} {s0 s : State} (hp : 524306 &&& P = 524306) (h : Keeps P s0 s) (a1 : ℕ) : Keeps P s0 (State.prepareOp s a1) := by
  unfold State.prepareOp
  repeat' first
    | with_reducible assumption | exact sub_of hp rfl | exact rfl | with_reducible apply State.migRefuse_keeps
    | with_reducible apply State.wr_keeps | with_reducible apply State.emit_keeps | with_reducible apply ite_keeps
    | with_reducible apply foldl_keeps | with_reducible refine getD_keeps (fun _ _ => ?_) ?_ | intro _
    | cases ‹(_, _) = (_, _)› | cases ‹some _ = some _› | cases ‹none = some _›
    | fail_if_no_progress with_reducible refine mk_keeps ?_ rfl rfl rfl (by and_intros <;> first | exact .inr (by with_reducible rfl) | exact .inl (sub_of hp rfl)) | dsimp only | split
theorem State.freeze_keeps {P : ℕ} {s0 s : State} (hp : 5816851 &&& P = 5816851) (h : Keeps P s0 s) (a1 : ℕ) (a2 : Mig) : Keeps P s0 (State.freeze s a1 a2) := by
  unfold State.freeze
  repeat' first
    | with_reducible assumption | exact sub_of hp rfl | exact rfl | with_reducible apply State.wr_keeps
    | with_reducible apply State.abortMoves_keeps | with_reducible apply ite_keeps | with_reducible apply foldl_keeps
    | with_reducible refine getD_keeps (fun _ _ => ?_) ?_ | intro _ | cases ‹(_, _) = (_, _)› | cases ‹some _ = some _›
    | cases ‹none = some _›
    | fail_if_no_progress with_reducible refine mk_keeps ?_ rfl rfl rfl (by and_intros <;> first | exact .inr (by with_reducible rfl) | exact .inl (sub_of hp rfl)) | dsimp only | split
theorem State.migrateOp_keeps {P : ℕ} {s0 s : State} (hp : 5816851 &&& P = 5816851) (h : Keeps P s0 s) (a1 : ℕ) : Keeps P s0 (State.migrateOp s a1) := by
  unfold State.migrateOp
  repeat' first
    | with_reducible assumption | exact sub_of hp rfl | exact rfl | with_reducible apply State.freeze_keeps
    | with_reducible apply State.migRefuse_keeps | with_reducible apply ite_keeps | with_reducible apply foldl_keeps
    | with_reducible refine getD_keeps (fun _ _ => ?_) ?_ | intro _ | cases ‹(_, _) = (_, _)› | cases ‹some _ = some _›
    | cases ‹none = some _›
    | fail_if_no_progress with_reducible refine mk_keeps ?_ rfl rfl rfl (by and_intros <;> first | exact .inr (by with_reducible rfl) | exact .inl (sub_of hp rfl)) | dsimp only | split
theorem State.abortOp_keeps {P : ℕ} {s0 s : State} (hp : 3818002 &&& P = 3818002) (h : Keeps P s0 s) (a1 : ℕ) : Keeps P s0 (State.abortOp s a1) := by
  unfold State.abortOp
  repeat' first
    | with_reducible assumption | exact sub_of hp rfl | exact rfl | with_reducible apply State.migBack_keeps
    | with_reducible apply State.migRefuse_keeps | with_reducible apply State.nextCommit_keeps
    | with_reducible apply ite_keeps | with_reducible apply foldl_keeps
    | with_reducible refine getD_keeps (fun _ _ => ?_) ?_ | intro _ | cases ‹(_, _) = (_, _)› | cases ‹some _ = some _›
    | cases ‹none = some _›
    | fail_if_no_progress with_reducible refine mk_keeps ?_ rfl rfl rfl (by and_intros <;> first | exact .inr (by with_reducible rfl) | exact .inl (sub_of hp rfl)) | dsimp only | split
theorem State.saveOp_keeps {P : ℕ} {s0 s : State} (hp : 5816851 &&& P = 5816851) (h : Keeps P s0 s) (a1 : ℕ) : Keeps P s0 (State.saveOp s a1) := by
  unfold State.saveOp
  repeat' first
    | with_reducible assumption | exact sub_of hp rfl | exact rfl | with_reducible apply State.freeze_keeps
    | with_reducible apply State.migRefuse_keeps | with_reducible apply State.wr_keeps | with_reducible apply ite_keeps
    | with_reducible apply foldl_keeps | with_reducible refine getD_keeps (fun _ _ => ?_) ?_ | intro _
    | cases ‹(_, _) = (_, _)› | cases ‹some _ = some _› | cases ‹none = some _›
    | fail_if_no_progress with_reducible refine mk_keeps ?_ rfl rfl rfl (by and_intros <;> first | exact .inr (by with_reducible rfl) | exact .inl (sub_of hp rfl)) | dsimp only | split
theorem State.makeBlob_keeps {P : ℕ} {s0 s : State} (hp : 524296 &&& P = 524296) (h : Keeps P s0 s) (a1 : ℕ) (a2 : Bool) (a3 : ℕ) : Keeps P s0 (State.makeBlob s a1 a2 a3) := by
  unfold State.makeBlob
  repeat' first
    | with_reducible assumption | exact sub_of hp rfl | exact rfl
    | refine State.fresh_keeps_eq (sub_of hp rfl) (by assumption) ?_ | with_reducible apply State.fresh_keeps
    | with_reducible apply ite_keeps | with_reducible apply foldl_keeps
    | with_reducible refine foldl_snd_keeps ?_ (fun _ _ _ _ => ?_) | with_reducible refine getD_keeps (fun _ _ => ?_) ?_
    | intro _ | cases ‹(_, _) = (_, _)› | cases ‹some _ = some _› | cases ‹none = some _›
    | fail_if_no_progress with_reducible refine mk_keeps ?_ rfl rfl rfl (by and_intros <;> first | exact .inr (by with_reducible rfl) | exact .inl (sub_of hp rfl)) | dsimp only | split
theorem execMigFreezeDrained_keeps_eq {P : ℕ} {s0 s t : State} (hp : 1573394 &&& P = 1573394) {a0 : Inst} (e : execMigFreezeDrained a0 s = .next t) (h : Keeps P s0 s) : Keeps P s0 t := by
  unfold execMigFreezeDrained at e
  repeat' first
    | cases ‹Host.Outcome.next _ = Host.Outcome.next _› | cases ‹Host.Outcome.refused _ = Host.Outcome.next _›
    | cases ‹Host.Outcome.fault _ = Host.Outcome.next _› | split at e | with_reducible assumption | exact sub_of hp rfl
    | exact rfl | with_reducible apply State.startSweep_keeps | with_reducible apply State.wr_keeps
    | with_reducible apply ite_keeps | with_reducible apply foldl_keeps
    | with_reducible refine getD_keeps (fun _ _ => ?_) ?_ | intro _ | cases ‹(_, _) = (_, _)› | cases ‹some _ = some _›
    | cases ‹none = some _›
    | fail_if_no_progress with_reducible refine mk_keeps ?_ rfl rfl rfl (by and_intros <;> first | exact .inr (by with_reducible rfl) | exact .inl (sub_of hp rfl)) | dsimp only | dsimp only at e | split
theorem execFreezeLimitExpiry_keeps_eq {P : ℕ} {s0 s t : State} (hp : 3818002 &&& P = 3818002) {a0 : Inst} (e : execFreezeLimitExpiry a0 s = .next t) (h : Keeps P s0 s) : Keeps P s0 t := by
  unfold execFreezeLimitExpiry at e
  repeat' first
    | cases ‹Host.Outcome.next _ = Host.Outcome.next _› | cases ‹Host.Outcome.refused _ = Host.Outcome.next _›
    | cases ‹Host.Outcome.fault _ = Host.Outcome.next _› | split at e | with_reducible assumption | exact sub_of hp rfl
    | exact rfl | with_reducible apply State.migBack_keeps | with_reducible apply State.nextCommit_keeps
    | with_reducible apply ite_keeps | with_reducible apply foldl_keeps
    | with_reducible refine getD_keeps (fun _ _ => ?_) ?_ | intro _ | cases ‹(_, _) = (_, _)› | cases ‹some _ = some _›
    | cases ‹none = some _›
    | fail_if_no_progress with_reducible refine mk_keeps ?_ rfl rfl rfl (by and_intros <;> first | exact .inr (by with_reducible rfl) | exact .inl (sub_of hp rfl)) | dsimp only | dsimp only at e | split
theorem execMigSaveComplete_keeps_eq {P : ℕ} {s0 s t : State} (hp : 3818010 &&& P = 3818010) {a0 : Inst} (e : execMigSaveComplete a0 s = .next t) (h : Keeps P s0 s) : Keeps P s0 t := by
  unfold execMigSaveComplete at e
  repeat' first
    | cases ‹Host.Outcome.next _ = Host.Outcome.next _› | cases ‹Host.Outcome.refused _ = Host.Outcome.next _›
    | cases ‹Host.Outcome.fault _ = Host.Outcome.next _› | split at e | with_reducible assumption | exact sub_of hp rfl
    | exact rfl | with_reducible apply State.regionCommit_keeps | with_reducible apply State.wr_keeps
    | with_reducible apply State.freeVppb_keeps | with_reducible apply State.sendBlob_keeps
    | with_reducible apply State.migEnd_keeps | with_reducible apply State.makeBlob_keeps
    | with_reducible apply State.emit_keeps | with_reducible apply ite_keeps | with_reducible apply foldl_keeps
    | with_reducible refine getD_keeps (fun _ _ => ?_) ?_ | intro _ | cases ‹(_, _) = (_, _)› | cases ‹some _ = some _›
    | cases ‹none = some _›
    | fail_if_no_progress with_reducible refine mk_keeps ?_ rfl rfl rfl (by and_intros <;> first | exact .inr (by with_reducible rfl) | exact .inl (sub_of hp rfl)) | dsimp only | dsimp only at e | split
theorem State.restoreOp_keeps {P : ℕ} {s0 s : State} (hp : 3818002 &&& P = 3818002) (h : Keeps P s0 s) (a1 : ℕ) (a2 : Bool) : Keeps P s0 (State.restoreOp s a1 a2) := by
  unfold State.restoreOp
  repeat' first
    | with_reducible assumption | exact sub_of hp rfl | exact rfl | with_reducible apply State.setReg_keeps
    | with_reducible apply State.regionCommit_keeps | with_reducible apply State.migRefuse_keeps
    | with_reducible apply State.wr_keeps | with_reducible apply State.setOwner_keeps
    | with_reducible apply State.emit_keeps | with_reducible apply ite_keeps | with_reducible apply foldl_keeps
    | with_reducible refine getD_keeps (fun _ _ => ?_) ?_ | intro _ | cases ‹(_, _) = (_, _)› | cases ‹some _ = some _›
    | cases ‹none = some _›
    | fail_if_no_progress with_reducible refine mk_keeps ?_ rfl rfl rfl (by and_intros <;> first | exact .inr (by with_reducible rfl) | exact .inl (sub_of hp rfl)) | dsimp only | split
theorem execMigRestoreComplete_keeps_eq {P : ℕ} {s0 s t : State} (hp : 3818002 &&& P = 3818002) {a0 : Inst} (e : execMigRestoreComplete a0 s = .next t) (h : Keeps P s0 s) : Keeps P s0 t := by
  unfold execMigRestoreComplete at e
  repeat' first
    | cases ‹Host.Outcome.next _ = Host.Outcome.next _› | cases ‹Host.Outcome.refused _ = Host.Outcome.next _›
    | cases ‹Host.Outcome.fault _ = Host.Outcome.next _› | split at e | with_reducible assumption | exact sub_of hp rfl
    | exact rfl | with_reducible apply State.regionCommit_keeps | with_reducible apply State.startSweep_keeps
    | with_reducible apply State.wr_keeps | with_reducible apply State.nextCommit_keeps
    | with_reducible apply State.freeVppb_keeps | with_reducible apply State.migEnd_keeps
    | with_reducible apply State.tenantEvent_keeps | with_reducible apply State.emit_keeps
    | with_reducible apply ite_keeps | with_reducible apply foldl_keeps
    | with_reducible refine getD_keeps (fun _ _ => ?_) ?_ | intro _ | cases ‹(_, _) = (_, _)› | cases ‹some _ = some _›
    | cases ‹none = some _›
    | fail_if_no_progress with_reducible refine mk_keeps ?_ rfl rfl rfl (by and_intros <;> first | exact .inr (by with_reducible rfl) | exact .inl (sub_of hp rfl)) | dsimp only | dsimp only at e | split
theorem execMigPrepare_keeps_eq {P : ℕ} {s0 s t : State} (hp : 540690 &&& P = 540690) {a0 : Src} {a1 : Inst} (e : execMigPrepare a0 a1 s = .next t) (h : Keeps P s0 s) : Keeps P s0 t := by
  unfold execMigPrepare at e
  repeat' first
    | cases ‹Host.Outcome.next _ = Host.Outcome.next _› | cases ‹Host.Outcome.refused _ = Host.Outcome.next _›
    | cases ‹Host.Outcome.fault _ = Host.Outcome.next _› | split at e | with_reducible assumption | exact sub_of hp rfl
    | exact rfl | with_reducible apply State.prepareOp_keeps | with_reducible apply State.ifMay_keeps
    | with_reducible apply ite_keeps | with_reducible apply foldl_keeps
    | with_reducible refine getD_keeps (fun _ _ => ?_) ?_ | intro _ | cases ‹(_, _) = (_, _)› | cases ‹some _ = some _›
    | cases ‹none = some _›
    | fail_if_no_progress with_reducible refine mk_keeps ?_ rfl rfl rfl (by and_intros <;> first | exact .inr (by with_reducible rfl) | exact .inl (sub_of hp rfl)) | dsimp only | dsimp only at e | split
theorem execMigMigrate_keeps_eq {P : ℕ} {s0 s t : State} (hp : 5816851 &&& P = 5816851) {a0 : Src} {a1 : Inst} (e : execMigMigrate a0 a1 s = .next t) (h : Keeps P s0 s) : Keeps P s0 t := by
  unfold execMigMigrate at e
  repeat' first
    | cases ‹Host.Outcome.next _ = Host.Outcome.next _› | cases ‹Host.Outcome.refused _ = Host.Outcome.next _›
    | cases ‹Host.Outcome.fault _ = Host.Outcome.next _› | split at e | with_reducible assumption | exact sub_of hp rfl
    | exact rfl | with_reducible apply State.ifMay_keeps | with_reducible apply State.migrateOp_keeps
    | with_reducible apply ite_keeps | with_reducible apply foldl_keeps
    | with_reducible refine getD_keeps (fun _ _ => ?_) ?_ | intro _ | cases ‹(_, _) = (_, _)› | cases ‹some _ = some _›
    | cases ‹none = some _›
    | fail_if_no_progress with_reducible refine mk_keeps ?_ rfl rfl rfl (by and_intros <;> first | exact .inr (by with_reducible rfl) | exact .inl (sub_of hp rfl)) | dsimp only | dsimp only at e | split
theorem execMigAbort_keeps_eq {P : ℕ} {s0 s t : State} (hp : 3818002 &&& P = 3818002) {a0 : Src} {a1 : Inst} (e : execMigAbort a0 a1 s = .next t) (h : Keeps P s0 s) : Keeps P s0 t := by
  unfold execMigAbort at e
  repeat' first
    | cases ‹Host.Outcome.next _ = Host.Outcome.next _› | cases ‹Host.Outcome.refused _ = Host.Outcome.next _›
    | cases ‹Host.Outcome.fault _ = Host.Outcome.next _› | split at e | with_reducible assumption | exact sub_of hp rfl
    | exact rfl | with_reducible apply State.abortOp_keeps | with_reducible apply State.ifMay_keeps
    | with_reducible apply ite_keeps | with_reducible apply foldl_keeps
    | with_reducible refine getD_keeps (fun _ _ => ?_) ?_ | intro _ | cases ‹(_, _) = (_, _)› | cases ‹some _ = some _›
    | cases ‹none = some _›
    | fail_if_no_progress with_reducible refine mk_keeps ?_ rfl rfl rfl (by and_intros <;> first | exact .inr (by with_reducible rfl) | exact .inl (sub_of hp rfl)) | dsimp only | dsimp only at e | split
theorem execMigSave_keeps_eq {P : ℕ} {s0 s t : State} (hp : 5816851 &&& P = 5816851) {a0 : Src} {a1 : Inst} (e : execMigSave a0 a1 s = .next t) (h : Keeps P s0 s) : Keeps P s0 t := by
  unfold execMigSave at e
  repeat' first
    | cases ‹Host.Outcome.next _ = Host.Outcome.next _› | cases ‹Host.Outcome.refused _ = Host.Outcome.next _›
    | cases ‹Host.Outcome.fault _ = Host.Outcome.next _› | split at e | with_reducible assumption | exact sub_of hp rfl
    | exact rfl | with_reducible apply State.saveOp_keeps | with_reducible apply State.ifMay_keeps
    | with_reducible apply ite_keeps | with_reducible apply foldl_keeps
    | with_reducible refine getD_keeps (fun _ _ => ?_) ?_ | intro _ | cases ‹(_, _) = (_, _)› | cases ‹some _ = some _›
    | cases ‹none = some _›
    | fail_if_no_progress with_reducible refine mk_keeps ?_ rfl rfl rfl (by and_intros <;> first | exact .inr (by with_reducible rfl) | exact .inl (sub_of hp rfl)) | dsimp only | dsimp only at e | split
theorem execMigRestore_keeps_eq {P : ℕ} {s0 s t : State} (hp : 3818002 &&& P = 3818002) {a0 : Src} {a1 : Inst} {a2 : Bool} (e : execMigRestore a0 a1 a2 s = .next t) (h : Keeps P s0 s) : Keeps P s0 t := by
  unfold execMigRestore at e
  repeat' first
    | cases ‹Host.Outcome.next _ = Host.Outcome.next _› | cases ‹Host.Outcome.refused _ = Host.Outcome.next _›
    | cases ‹Host.Outcome.fault _ = Host.Outcome.next _› | split at e | with_reducible assumption | exact sub_of hp rfl
    | exact rfl | with_reducible apply State.restoreOp_keeps | with_reducible apply State.ifMay_keeps
    | with_reducible apply ite_keeps | with_reducible apply foldl_keeps
    | with_reducible refine getD_keeps (fun _ _ => ?_) ?_ | intro _ | cases ‹(_, _) = (_, _)› | cases ‹some _ = some _›
    | cases ‹none = some _›
    | fail_if_no_progress with_reducible refine mk_keeps ?_ rfl rfl rfl (by and_intros <;> first | exact .inr (by with_reducible rfl) | exact .inl (sub_of hp rfl)) | dsimp only | dsimp only at e | split

/-! ### Machine/Press -/

theorem State.pressBegin_keeps {P : ℕ} {s0 s : State} (hp : 524290 &&& P = 524290) (h : Keeps P s0 s) (a1 : ℕ) (a2 : PressOp) (a3 : List PressPart) : Keeps P s0 (State.pressBegin s a1 a2 a3) := by
  unfold State.pressBegin
  repeat' first
    | with_reducible assumption | exact sub_of hp rfl | exact rfl | with_reducible apply State.sendNote_keeps
    | with_reducible apply State.wr_keeps | with_reducible apply State.pressShow_keeps | with_reducible apply ite_keeps
    | with_reducible apply foldl_keeps | with_reducible refine getD_keeps (fun _ _ => ?_) ?_ | intro _
    | cases ‹(_, _) = (_, _)› | cases ‹some _ = some _› | cases ‹none = some _›
    | fail_if_no_progress with_reducible refine mk_keeps ?_ rfl rfl rfl (by and_intros <;> first | exact .inr (by with_reducible rfl) | exact .inl (sub_of hp rfl)) | dsimp only | split
theorem State.moveOp_keeps {P : ℕ} {s0 s : State} (hp : 5816851 &&& P = 5816851) (h : Keeps P s0 s) (a1 : ℕ) : Keeps P s0 (State.moveOp s a1) := by
  unfold State.moveOp
  repeat' first
    | with_reducible assumption | exact sub_of hp rfl | exact rfl | with_reducible apply State.pressCheck_keeps
    | with_reducible apply State.flag_keeps | with_reducible apply State.pressBegin_keeps | with_reducible apply ite_keeps
    | with_reducible apply foldl_keeps | with_reducible refine getD_keeps (fun _ _ => ?_) ?_ | intro _
    | cases ‹(_, _) = (_, _)› | cases ‹some _ = some _› | cases ‹none = some _›
    | fail_if_no_progress with_reducible refine mk_keeps ?_ rfl rfl rfl (by and_intros <;> first | exact .inr (by with_reducible rfl) | exact .inl (sub_of hp rfl)) | dsimp only | split
theorem execPressMoveGo_keeps_eq {P : ℕ} {s0 s t : State} (hp : 5816851 &&& P = 5816851) {a0 : Src} {a1 : Die} (e : execPressMoveGo a0 a1 s = .next t) (h : Keeps P s0 s) : Keeps P s0 t := by
  unfold execPressMoveGo at e
  repeat' first
    | cases ‹Host.Outcome.next _ = Host.Outcome.next _› | cases ‹Host.Outcome.refused _ = Host.Outcome.next _›
    | cases ‹Host.Outcome.fault _ = Host.Outcome.next _› | split at e | with_reducible assumption | exact sub_of hp rfl
    | exact rfl | with_reducible apply State.moveOp_keeps | with_reducible apply State.ifMay_keeps
    | with_reducible apply ite_keeps | with_reducible apply foldl_keeps
    | with_reducible refine getD_keeps (fun _ _ => ?_) ?_ | intro _ | cases ‹(_, _) = (_, _)› | cases ‹some _ = some _›
    | cases ‹none = some _›
    | fail_if_no_progress with_reducible refine mk_keeps ?_ rfl rfl rfl (by and_intros <;> first | exact .inr (by with_reducible rfl) | exact .inl (sub_of hp rfl)) | dsimp only | dsimp only at e | split
theorem execPressAbort_keeps_eq {P : ℕ} {s0 s t : State} (hp : 5816851 &&& P = 5816851) {a0 : Src} {a1 : Die} (e : execPressAbort a0 a1 s = .next t) (h : Keeps P s0 s) : Keeps P s0 t := by
  unfold execPressAbort at e
  repeat' first
    | cases ‹Host.Outcome.next _ = Host.Outcome.next _› | cases ‹Host.Outcome.refused _ = Host.Outcome.next _›
    | cases ‹Host.Outcome.fault _ = Host.Outcome.next _› | split at e | with_reducible assumption | exact sub_of hp rfl
    | exact rfl | with_reducible apply State.abortMove_keeps | with_reducible apply State.ifMay_keeps
    | with_reducible apply ite_keeps | with_reducible apply foldl_keeps
    | with_reducible refine getD_keeps (fun _ _ => ?_) ?_ | intro _ | cases ‹(_, _) = (_, _)› | cases ‹some _ = some _›
    | cases ‹none = some _›
    | fail_if_no_progress with_reducible refine mk_keeps ?_ rfl rfl rfl (by and_intros <;> first | exact .inr (by with_reducible rfl) | exact .inl (sub_of hp rfl)) | dsimp only | dsimp only at e | split
theorem execPressResilverStart_keeps_eq {P : ℕ} {s0 s t : State} (hp : 573955 &&& P = 573955) {a0 : Ext} {a1 : Cell} {a2 : Fin 4096} (e : execPressResilverStart a0 a1 a2 s = .next t) (h : Keeps P s0 s) : Keeps P s0 t := by
  unfold execPressResilverStart at e
  repeat' first
    | cases ‹Host.Outcome.next _ = Host.Outcome.next _› | cases ‹Host.Outcome.refused _ = Host.Outcome.next _›
    | cases ‹Host.Outcome.fault _ = Host.Outcome.next _› | split at e | with_reducible assumption | exact sub_of hp rfl
    | exact rfl | with_reducible apply State.goMode_keeps | with_reducible apply State.pressBegin_keeps
    | with_reducible apply ite_keeps | with_reducible apply foldl_keeps
    | with_reducible refine getD_keeps (fun _ _ => ?_) ?_ | intro _ | cases ‹(_, _) = (_, _)› | cases ‹some _ = some _›
    | cases ‹none = some _›
    | fail_if_no_progress with_reducible refine mk_keeps ?_ rfl rfl rfl (by and_intros <;> first | exact .inr (by with_reducible rfl) | exact .inl (sub_of hp rfl)) | dsimp only | dsimp only at e | split
theorem execPressBlockAck_keeps_eq {P : ℕ} {s0 s t : State} (hp : 5816851 &&& P = 5816851) {a0 : Die} {a1 : Fin 16} {a2 : Bool} {a3 : Bool} (e : execPressBlockAck a0 a1 a2 a3 s = .next t) (h : Keeps P s0 s) : Keeps P s0 t := by
  unfold execPressBlockAck at e
  repeat' first
    | cases ‹Host.Outcome.next _ = Host.Outcome.next _› | cases ‹Host.Outcome.refused _ = Host.Outcome.next _›
    | cases ‹Host.Outcome.fault _ = Host.Outcome.next _› | split at e | with_reducible assumption | exact sub_of hp rfl
    | exact rfl | with_reducible apply State.pressCheck_keeps | with_reducible apply State.releaseHeld_keeps
    | with_reducible apply State.emit_keeps | with_reducible apply ite_keeps | with_reducible apply foldl_keeps
    | with_reducible refine getD_keeps (fun _ _ => ?_) ?_ | intro _ | cases ‹(_, _) = (_, _)› | cases ‹some _ = some _›
    | cases ‹none = some _›
    | fail_if_no_progress with_reducible refine mk_keeps ?_ rfl rfl rfl (by and_intros <;> first | exact .inr (by with_reducible rfl) | exact .inl (sub_of hp rfl)) | dsimp only | dsimp only at e | split
theorem execPressSourceDrained_keeps_eq {P : ℕ} {s0 s t : State} (hp : 1572866 &&& P = 1572866) {a0 : Die} (e : execPressSourceDrained a0 s = .next t) (h : Keeps P s0 s) : Keeps P s0 t := by
  unfold execPressSourceDrained at e
  repeat' first
    | cases ‹Host.Outcome.next _ = Host.Outcome.next _› | cases ‹Host.Outcome.refused _ = Host.Outcome.next _›
    | cases ‹Host.Outcome.fault _ = Host.Outcome.next _› | split at e | with_reducible assumption | exact sub_of hp rfl
    | exact rfl | with_reducible apply State.setDev_keeps | with_reducible apply State.pressEnd_keeps
    | with_reducible apply ite_keeps | with_reducible apply foldl_keeps
    | with_reducible refine getD_keeps (fun _ _ => ?_) ?_ | intro _ | cases ‹(_, _) = (_, _)› | cases ‹some _ = some _›
    | cases ‹none = some _›
    | fail_if_no_progress with_reducible refine mk_keeps ?_ rfl rfl rfl (by and_intros <;> first | exact .inr (by with_reducible rfl) | exact .inl (sub_of hp rfl)) | dsimp only | dsimp only at e | split
theorem State.copyViolation_keeps {P : ℕ} {s0 s : State} (hp : 1064962 &&& P = 1064962) (h : Keeps P s0 s) (a1 : ℕ) (a2 : CopyOp) (a3 : ℕ) : Keeps P s0 (State.copyViolation s a1 a2 a3) := by
  unfold State.copyViolation
  repeat' first
    | with_reducible assumption | exact sub_of hp rfl | exact rfl | with_reducible apply State.violate_keeps
    | with_reducible apply ite_keeps | with_reducible apply foldl_keeps
    | with_reducible refine getD_keeps (fun _ _ => ?_) ?_ | intro _ | cases ‹(_, _) = (_, _)› | cases ‹some _ = some _›
    | cases ‹none = some _›
    | fail_if_no_progress with_reducible refine mk_keeps ?_ rfl rfl rfl (by and_intros <;> first | exact .inr (by with_reducible rfl) | exact .inl (sub_of hp rfl)) | dsimp only | split
theorem State.copyBegin_keeps {P : ℕ} {s0 s : State} (hp : 1589762 &&& P = 1589762) (h : Keeps P s0 s) (a1 : ℕ) : Keeps P s0 (State.copyBegin s a1) := by
  unfold State.copyBegin
  repeat' first
    | with_reducible assumption | exact sub_of hp rfl | exact rfl | with_reducible apply State.copyStart_keeps
    | with_reducible apply State.copyViolation_keeps | with_reducible apply ite_keeps | with_reducible apply foldl_keeps
    | with_reducible refine getD_keeps (fun _ _ => ?_) ?_ | intro _ | cases ‹(_, _) = (_, _)› | cases ‹some _ = some _›
    | cases ‹none = some _›
    | fail_if_no_progress with_reducible refine mk_keeps ?_ rfl rfl rfl (by and_intros <;> first | exact .inr (by with_reducible rfl) | exact .inl (sub_of hp rfl)) | dsimp only | split
theorem State.resumeCopies_keeps {P : ℕ} {s0 s : State} (hp : 1589762 &&& P = 1589762) (h : Keeps P s0 s) (a1 : List ℕ) : Keeps P s0 (State.resumeCopies s a1) := by
  unfold State.resumeCopies
  repeat' first
    | with_reducible assumption | exact sub_of hp rfl | exact rfl | with_reducible apply State.copyBegin_keeps
    | with_reducible apply ite_keeps | with_reducible apply foldl_keeps
    | with_reducible refine getD_keeps (fun _ _ => ?_) ?_ | intro _ | cases ‹(_, _) = (_, _)› | cases ‹some _ = some _›
    | cases ‹none = some _›
    | fail_if_no_progress with_reducible refine mk_keeps ?_ rfl rfl rfl (by and_intros <;> first | exact .inr (by with_reducible rfl) | exact .inl (sub_of hp rfl)) | dsimp only | split
theorem State.copyOp_keeps {P : ℕ} {s0 s : State} (hp : 1589762 &&& P = 1589762) (h : Keeps P s0 s) (a1 : ℕ) (a2 : Bool) : Keeps P s0 (State.copyOp s a1 a2) := by
  unfold State.copyOp
  repeat' first
    | with_reducible assumption | exact sub_of hp rfl | exact rfl | with_reducible apply State.copyBegin_keeps
    | with_reducible apply State.wr_keeps | with_reducible apply State.flag_keeps | with_reducible apply ite_keeps
    | with_reducible apply foldl_keeps | with_reducible refine getD_keeps (fun _ _ => ?_) ?_ | intro _
    | cases ‹(_, _) = (_, _)› | cases ‹some _ = some _› | cases ‹none = some _›
    | fail_if_no_progress with_reducible refine mk_keeps ?_ rfl rfl rfl (by and_intros <;> first | exact .inr (by with_reducible rfl) | exact .inl (sub_of hp rfl)) | dsimp only | split
theorem execCopyGo_keeps_eq {P : ℕ} {s0 s t : State} (hp : 1589762 &&& P = 1589762) {a0 : Option Src} {a1 : Inst} (e : execCopyGo a0 a1 s = .next t) (h : Keeps P s0 s) : Keeps P s0 t := by
  unfold execCopyGo at e
  repeat' first
    | cases ‹Host.Outcome.next _ = Host.Outcome.next _› | cases ‹Host.Outcome.refused _ = Host.Outcome.next _›
    | cases ‹Host.Outcome.fault _ = Host.Outcome.next _› | split at e | with_reducible assumption | exact sub_of hp rfl
    | exact rfl | with_reducible apply State.copyOp_keeps | with_reducible apply State.ifMay_keeps
    | with_reducible apply ite_keeps | with_reducible apply foldl_keeps
    | with_reducible refine getD_keeps (fun _ _ => ?_) ?_ | intro _ | cases ‹(_, _) = (_, _)› | cases ‹some _ = some _›
    | cases ‹none = some _›
    | fail_if_no_progress with_reducible refine mk_keeps ?_ rfl rfl rfl (by and_intros <;> first | exact .inr (by with_reducible rfl) | exact .inl (sub_of hp rfl)) | dsimp only | dsimp only at e | split
theorem execCopyPartComplete_keeps_eq {P : ℕ} {s0 s t : State} (hp : 524290 &&& P = 524290) {a0 : Inst} {a1 : Fin 16} (e : execCopyPartComplete a0 a1 s = .next t) (h : Keeps P s0 s) : Keeps P s0 t := by
  unfold execCopyPartComplete at e
  repeat' first
    | cases ‹Host.Outcome.next _ = Host.Outcome.next _› | cases ‹Host.Outcome.refused _ = Host.Outcome.next _›
    | cases ‹Host.Outcome.fault _ = Host.Outcome.next _› | split at e | with_reducible assumption | exact sub_of hp rfl
    | exact rfl | with_reducible apply State.wrBit_keeps | with_reducible apply State.wr_keeps
    | with_reducible apply ite_keeps | with_reducible apply foldl_keeps
    | with_reducible refine getD_keeps (fun _ _ => ?_) ?_ | intro _ | cases ‹(_, _) = (_, _)› | cases ‹some _ = some _›
    | cases ‹none = some _›
    | fail_if_no_progress with_reducible refine mk_keeps ?_ rfl rfl rfl (by and_intros <;> first | exact .inr (by with_reducible rfl) | exact .inl (sub_of hp rfl)) | dsimp only | dsimp only at e | split
theorem execBrineComplete_keeps_eq {P : ℕ} {s0 s t : State} (hp : 524306 &&& P = 524306) {a0 : Ext} (e : execBrineComplete a0 s = .next t) (h : Keeps P s0 s) : Keeps P s0 t := by
  unfold execBrineComplete at e
  repeat' first
    | cases ‹Host.Outcome.next _ = Host.Outcome.next _› | cases ‹Host.Outcome.refused _ = Host.Outcome.next _›
    | cases ‹Host.Outcome.fault _ = Host.Outcome.next _› | split at e | with_reducible assumption | exact sub_of hp rfl
    | exact rfl | with_reducible apply State.scrubDone_keeps | with_reducible apply ite_keeps
    | with_reducible apply foldl_keeps | with_reducible refine getD_keeps (fun _ _ => ?_) ?_ | intro _
    | cases ‹(_, _) = (_, _)› | cases ‹some _ = some _› | cases ‹none = some _›
    | fail_if_no_progress with_reducible refine mk_keeps ?_ rfl rfl rfl (by and_intros <;> first | exact .inr (by with_reducible rfl) | exact .inl (sub_of hp rfl)) | dsimp only | dsimp only at e | split
theorem execMapNote_keeps_eq {P : ℕ} {s0 s t : State} (hp : 663552 &&& P = 663552) {a0 : Cell} {a1 : ℕ} (e : execMapNote a0 a1 s = .next t) (h : Keeps P s0 s) : Keeps P s0 t := by
  unfold execMapNote at e
  repeat' first
    | cases ‹Host.Outcome.next _ = Host.Outcome.next _› | cases ‹Host.Outcome.refused _ = Host.Outcome.next _›
    | cases ‹Host.Outcome.fault _ = Host.Outcome.next _› | split at e | with_reducible assumption | exact sub_of hp rfl
    | exact rfl | with_reducible apply State.applyNote_keeps | with_reducible apply ite_keeps
    | with_reducible apply foldl_keeps | with_reducible refine getD_keeps (fun _ _ => ?_) ?_ | intro _
    | cases ‹(_, _) = (_, _)› | cases ‹some _ = some _› | cases ‹none = some _›
    | fail_if_no_progress with_reducible refine mk_keeps ?_ rfl rfl rfl (by and_intros <;> first | exact .inr (by with_reducible rfl) | exact .inl (sub_of hp rfl)) | dsimp only | dsimp only at e | split
theorem execMapNoteComplete_keeps_eq {P : ℕ} {s0 s t : State} (hp : 8307219 &&& P = 8307219) {a0 : ℕ} (e : execMapNoteComplete a0 s = .next t) (h : Keeps P s0 s) : Keeps P s0 t := by
  unfold execMapNoteComplete at e
  repeat' first
    | cases ‹Host.Outcome.next _ = Host.Outcome.next _› | cases ‹Host.Outcome.refused _ = Host.Outcome.next _›
    | cases ‹Host.Outcome.fault _ = Host.Outcome.next _› | split at e | with_reducible assumption | exact sub_of hp rfl
    | exact rfl | with_reducible apply State.dropExts_keeps | with_reducible apply State.retireKey_keeps
    | with_reducible apply State.setLife_keeps | with_reducible apply State.silverEnd_keeps
    | with_reducible apply State.unbound_keeps | with_reducible apply State.endRots_keeps
    | with_reducible apply State.nextCommit_keeps | with_reducible apply State.startWalkers_keeps
    | with_reducible apply State.extEvent_keeps | with_reducible apply ite_keeps | with_reducible apply foldl_keeps
    | with_reducible refine getD_keeps (fun _ _ => ?_) ?_ | intro _ | cases ‹(_, _) = (_, _)› | cases ‹some _ = some _›
    | cases ‹none = some _›
    | fail_if_no_progress with_reducible refine mk_keeps ?_ rfl rfl rfl (by and_intros <;> first | exact .inr (by with_reducible rfl) | exact .inl (sub_of hp rfl)) | dsimp only | dsimp only at e | split
theorem execZeroize_keeps_eq {P : ℕ} {s0 s t : State} (hp : 1048578 &&& P = 1048578) {a0 : Cell} {a1 : KeySlot} (e : execZeroize a0 a1 s = .next t) (h : Keeps P s0 s) : Keeps P s0 t := by
  unfold execZeroize at e
  repeat' first
    | cases ‹Host.Outcome.next _ = Host.Outcome.next _› | cases ‹Host.Outcome.refused _ = Host.Outcome.next _›
    | cases ‹Host.Outcome.fault _ = Host.Outcome.next _› | split at e | with_reducible assumption | exact sub_of hp rfl
    | exact rfl | with_reducible apply State.setKeyRec_keeps | with_reducible apply ite_keeps
    | with_reducible apply foldl_keeps | with_reducible refine getD_keeps (fun _ _ => ?_) ?_ | intro _
    | cases ‹(_, _) = (_, _)› | cases ‹some _ = some _› | cases ‹none = some _›
    | fail_if_no_progress with_reducible refine mk_keeps ?_ rfl rfl rfl (by and_intros <;> first | exact .inr (by with_reducible rfl) | exact .inl (sub_of hp rfl)) | dsimp only | dsimp only at e | split
theorem execZeroizeComplete_keeps_eq {P : ℕ} {s0 s t : State} (hp : 1048578 &&& P = 1048578) {a0 : KeySlot} (e : execZeroizeComplete a0 s = .next t) (h : Keeps P s0 s) : Keeps P s0 t := by
  unfold execZeroizeComplete at e
  repeat' first
    | cases ‹Host.Outcome.next _ = Host.Outcome.next _› | cases ‹Host.Outcome.refused _ = Host.Outcome.next _›
    | cases ‹Host.Outcome.fault _ = Host.Outcome.next _› | split at e | with_reducible assumption | exact sub_of hp rfl
    | exact rfl | with_reducible apply State.setKeyRec_keeps | with_reducible apply State.inc_keeps
    | with_reducible apply ite_keeps | with_reducible apply foldl_keeps
    | with_reducible refine getD_keeps (fun _ _ => ?_) ?_ | intro _ | cases ‹(_, _) = (_, _)› | cases ‹some _ = some _›
    | cases ‹none = some _›
    | fail_if_no_progress with_reducible refine mk_keeps ?_ rfl rfl rfl (by and_intros <;> first | exact .inr (by with_reducible rfl) | exact .inl (sub_of hp rfl)) | dsimp only | dsimp only at e | split
theorem execKeyGenerateComplete_keeps_eq {P : ℕ} {s0 s t : State} (hp : 1589258 &&& P = 1589258) {a0 : KeySlot} {a1 : Bool} (e : execKeyGenerateComplete a0 a1 s = .next t) (h : Keeps P s0 s) : Keeps P s0 t := by
  unfold execKeyGenerateComplete at e
  repeat' first
    | cases ‹Host.Outcome.next _ = Host.Outcome.next _› | cases ‹Host.Outcome.refused _ = Host.Outcome.next _›
    | cases ‹Host.Outcome.fault _ = Host.Outcome.next _› | split at e | with_reducible assumption | exact sub_of hp rfl
    | exact rfl | refine State.fresh_keeps_eq (sub_of hp rfl) (by assumption) ?_ | with_reducible apply State.fresh_keeps
    | with_reducible apply State.endRots_keeps | with_reducible apply State.setKeyRec_keeps
    | with_reducible apply State.inc_keeps | with_reducible apply State.sendLoads_keeps
    | with_reducible apply State.startWalkers_keeps | with_reducible apply ite_keeps | with_reducible apply foldl_keeps
    | with_reducible refine foldl_snd_keeps ?_ (fun _ _ _ _ => ?_) | with_reducible refine getD_keeps (fun _ _ => ?_) ?_
    | intro _ | cases ‹(_, _) = (_, _)› | cases ‹some _ = some _› | cases ‹none = some _›
    | fail_if_no_progress with_reducible refine mk_keeps ?_ rfl rfl rfl (by and_intros <;> first | exact .inr (by with_reducible rfl) | exact .inl (sub_of hp rfl)) | dsimp only | dsimp only at e | split
theorem execKeyload_keeps_eq {P : ℕ} {s0 s t : State} (hp : 1048576 &&& P = 1048576) {a0 : Cell} {a1 : KeySlot} (e : execKeyload a0 a1 s = .next t) (h : Keeps P s0 s) : Keeps P s0 t := by
  unfold execKeyload at e
  repeat' first
    | cases ‹Host.Outcome.next _ = Host.Outcome.next _› | cases ‹Host.Outcome.refused _ = Host.Outcome.next _›
    | cases ‹Host.Outcome.fault _ = Host.Outcome.next _› | split at e | with_reducible assumption | exact sub_of hp rfl
    | exact rfl | with_reducible apply State.startWalkers_keeps | with_reducible apply ite_keeps
    | with_reducible apply foldl_keeps | with_reducible refine getD_keeps (fun _ _ => ?_) ?_ | intro _
    | cases ‹(_, _) = (_, _)› | cases ‹some _ = some _› | cases ‹none = some _›
    | fail_if_no_progress with_reducible refine mk_keeps ?_ rfl rfl rfl (by and_intros <;> first | exact .inr (by with_reducible rfl) | exact .inl (sub_of hp rfl)) | dsimp only | dsimp only at e | split
theorem execHealthTestFail_keeps_eq {P : ℕ} {s0 s t : State} (hp : 16386 &&& P = 16386) {a0 : Bool} (e : execHealthTestFail a0 s = .next t) (h : Keeps P s0 s) : Keeps P s0 t := by
  unfold execHealthTestFail at e
  repeat' first
    | cases ‹Host.Outcome.next _ = Host.Outcome.next _› | cases ‹Host.Outcome.refused _ = Host.Outcome.next _›
    | cases ‹Host.Outcome.fault _ = Host.Outcome.next _› | split at e | with_reducible assumption | exact sub_of hp rfl
    | exact rfl | with_reducible apply State.wr_keeps | with_reducible apply State.logFault_keeps
    | with_reducible apply ite_keeps | with_reducible apply foldl_keeps
    | with_reducible refine getD_keeps (fun _ _ => ?_) ?_ | intro _ | cases ‹(_, _) = (_, _)› | cases ‹some _ = some _›
    | cases ‹none = some _›
    | fail_if_no_progress with_reducible refine mk_keeps ?_ rfl rfl rfl (by and_intros <;> first | exact .inr (by with_reducible rfl) | exact .inl (sub_of hp rfl)) | dsimp only | dsimp only at e | split
theorem State.rotateOp_keeps {P : ℕ} {s0 s : State} (hp : 1064962 &&& P = 1064962) (h : Keeps P s0 s) : Keeps P s0 (State.rotateOp s) := by
  unfold State.rotateOp
  repeat' first
    | with_reducible assumption | exact sub_of hp rfl | exact rfl | with_reducible apply State.noKeyFor_keeps
    | refine State.startRot_keeps_eq (sub_of hp rfl) (by assumption) ?_ | with_reducible apply State.flag_keeps
    | with_reducible apply ite_keeps | with_reducible apply foldl_keeps
    | with_reducible refine getD_keeps (fun _ _ => ?_) ?_ | intro _ | cases ‹(_, _) = (_, _)› | cases ‹some _ = some _›
    | cases ‹none = some _›
    | fail_if_no_progress with_reducible refine mk_keeps ?_ rfl rfl rfl (by and_intros <;> first | exact .inr (by with_reducible rfl) | exact .inl (sub_of hp rfl)) | dsimp only | split
theorem execSecRotateGo_keeps_eq {P : ℕ} {s0 s t : State} (hp : 1064962 &&& P = 1064962) {a0 : Src} (e : execSecRotateGo a0 s = .next t) (h : Keeps P s0 s) : Keeps P s0 t := by
  unfold execSecRotateGo at e
  repeat' first
    | cases ‹Host.Outcome.next _ = Host.Outcome.next _› | cases ‹Host.Outcome.refused _ = Host.Outcome.next _›
    | cases ‹Host.Outcome.fault _ = Host.Outcome.next _› | split at e | with_reducible assumption | exact sub_of hp rfl
    | exact rfl | with_reducible apply State.rotateOp_keeps | with_reducible apply State.ifMay_keeps
    | with_reducible apply ite_keeps | with_reducible apply foldl_keeps
    | with_reducible refine getD_keeps (fun _ _ => ?_) ?_ | intro _ | cases ‹(_, _) = (_, _)› | cases ‹some _ = some _›
    | cases ‹none = some _›
    | fail_if_no_progress with_reducible refine mk_keeps ?_ rfl rfl rfl (by and_intros <;> first | exact .inr (by with_reducible rfl) | exact .inl (sub_of hp rfl)) | dsimp only | dsimp only at e | split
theorem execRotationAgeCheck_keeps_eq {P : ℕ} {s0 s t : State} (hp : 1064962 &&& P = 1064962) (e : execRotationAgeCheck s = .next t) (h : Keeps P s0 s) : Keeps P s0 t := by
  unfold execRotationAgeCheck at e
  repeat' first
    | cases ‹Host.Outcome.next _ = Host.Outcome.next _› | cases ‹Host.Outcome.refused _ = Host.Outcome.next _›
    | cases ‹Host.Outcome.fault _ = Host.Outcome.next _› | split at e | with_reducible assumption | exact sub_of hp rfl
    | exact rfl | with_reducible apply State.noKeyFor_keeps
    | refine State.startRot_keeps_eq (sub_of hp rfl) (by assumption) ?_ | with_reducible apply ite_keeps
    | with_reducible apply foldl_keeps | with_reducible refine getD_keeps (fun _ _ => ?_) ?_ | intro _
    | cases ‹(_, _) = (_, _)› | cases ‹some _ = some _› | cases ‹none = some _›
    | fail_if_no_progress with_reducible refine mk_keeps ?_ rfl rfl rfl (by and_intros <;> first | exact .inr (by with_reducible rfl) | exact .inl (sub_of hp rfl)) | dsimp only | dsimp only at e | split
theorem execRekeyBlockAck_keeps_eq {P : ℕ} {s0 s t : State} (hp : 5767698 &&& P = 5767698) {a0 : Ext} (e : execRekeyBlockAck a0 s = .next t) (h : Keeps P s0 s) : Keeps P s0 t := by
  unfold execRekeyBlockAck at e
  repeat' first
    | cases ‹Host.Outcome.next _ = Host.Outcome.next _› | cases ‹Host.Outcome.refused _ = Host.Outcome.next _›
    | cases ‹Host.Outcome.fault _ = Host.Outcome.next _› | split at e | with_reducible assumption | exact sub_of hp rfl
    | exact rfl | with_reducible apply State.sendNote_keeps | with_reducible apply State.releaseHeld_keeps
    | with_reducible apply State.emit_keeps | with_reducible apply ite_keeps | with_reducible apply foldl_keeps
    | with_reducible refine getD_keeps (fun _ _ => ?_) ?_ | intro _ | cases ‹(_, _) = (_, _)› | cases ‹some _ = some _›
    | cases ‹none = some _›
    | fail_if_no_progress with_reducible refine mk_keeps ?_ rfl rfl rfl (by and_intros <;> first | exact .inr (by with_reducible rfl) | exact .inl (sub_of hp rfl)) | dsimp only | dsimp only at e | split
theorem State.barSwap_keeps {P : ℕ} {s0 s : State} (hp : 5785106 &&& P = 5785106) (h : Keeps P s0 s) (a1 : Barrier) : Keeps P s0 (State.barSwap s a1) := by
  unfold State.barSwap
  repeat' first
    | with_reducible assumption | exact sub_of hp rfl | exact rfl | with_reducible apply State.keepWords_keeps
    | with_reducible apply State.resumeCopies_keeps | with_reducible apply State.endBarrier_keeps
    | with_reducible apply State.barDone_keeps | with_reducible apply State.resumeDevices_keeps
    | with_reducible apply State.setRegion_keeps | with_reducible apply ite_keeps | with_reducible apply foldl_keeps
    | with_reducible refine getD_keeps (fun _ _ => ?_) ?_ | intro _ | cases ‹(_, _) = (_, _)› | cases ‹some _ = some _›
    | cases ‹none = some _›
    | fail_if_no_progress with_reducible refine mk_keeps ?_ rfl rfl rfl (by and_intros <;> first | exact .inr (by with_reducible rfl) | exact .inl (sub_of hp rfl)) | dsimp only | split
theorem State.epochRegions_keeps {P : ℕ} {s0 s : State} (hp : 2097154 &&& P = 2097154) (h : Keeps P s0 s) (a1 : Barrier) (a2 : Bool) : Keeps P s0 (State.epochRegions s a1 a2) := by
  unfold State.epochRegions
  repeat' first
    | with_reducible assumption | exact sub_of hp rfl | exact rfl | with_reducible apply State.setReg_keeps
    | with_reducible apply ite_keeps | with_reducible apply foldl_keeps
    | with_reducible refine getD_keeps (fun _ _ => ?_) ?_ | intro _ | cases ‹(_, _) = (_, _)› | cases ‹some _ = some _›
    | cases ‹none = some _›
    | fail_if_no_progress with_reducible refine mk_keeps ?_ rfl rfl rfl (by and_intros <;> first | exact .inr (by with_reducible rfl) | exact .inl (sub_of hp rfl)) | dsimp only | split
theorem execBarrierDrained_keeps_eq {P : ℕ} {s0 s t : State} (hp : 8013330 &&& P = 8013330) {a0 : Cell} (e : execBarrierDrained a0 s = .next t) (h : Keeps P s0 s) : Keeps P s0 t := by
  unfold execBarrierDrained at e
  repeat' first
    | cases ‹Host.Outcome.next _ = Host.Outcome.next _› | cases ‹Host.Outcome.refused _ = Host.Outcome.next _›
    | cases ‹Host.Outcome.fault _ = Host.Outcome.next _› | split at e | with_reducible assumption | exact sub_of hp rfl
    | exact rfl | with_reducible apply State.epochRegions_keeps | with_reducible apply State.wr_keeps
    | with_reducible apply State.barSwap_keeps | with_reducible apply State.nextCommit_keeps
    | with_reducible apply ite_keeps | with_reducible apply foldl_keeps
    | with_reducible refine getD_keeps (fun _ _ => ?_) ?_ | intro _ | cases ‹(_, _) = (_, _)› | cases ‹some _ = some _›
    | cases ‹none = some _›
    | fail_if_no_progress with_reducible refine mk_keeps ?_ rfl rfl rfl (by and_intros <;> first | exact .inr (by with_reducible rfl) | exact .inl (sub_of hp rfl)) | dsimp only | dsimp only at e | split
theorem State.again_keeps {P : ℕ} {s0 s : State} (hp : 1048576 &&& P = 1048576) (h : Keeps P s0 s) (a1 : Barrier) : Keeps P s0 (State.again s a1) := by
  unfold State.again
  repeat' first
    | with_reducible assumption | exact sub_of hp rfl | exact rfl | with_reducible apply State.queueCommit_keeps
    | with_reducible apply ite_keeps | with_reducible apply foldl_keeps
    | with_reducible refine getD_keeps (fun _ _ => ?_) ?_ | intro _ | cases ‹(_, _) = (_, _)› | cases ‹some _ = some _›
    | cases ‹none = some _›
    | fail_if_no_progress with_reducible refine mk_keeps ?_ rfl rfl rfl (by and_intros <;> first | exact .inr (by with_reducible rfl) | exact .inl (sub_of hp rfl)) | dsimp only | split
theorem execBarrierLimitExpiry_keeps_eq {P : ℕ} {s0 s t : State} (hp : 8013330 &&& P = 8013330) {a0 : Cell} (e : execBarrierLimitExpiry a0 s = .next t) (h : Keeps P s0 s) : Keeps P s0 t := by
  unfold execBarrierLimitExpiry at e
  repeat' first
    | cases ‹Host.Outcome.next _ = Host.Outcome.next _› | cases ‹Host.Outcome.refused _ = Host.Outcome.next _›
    | cases ‹Host.Outcome.fault _ = Host.Outcome.next _› | split at e | with_reducible assumption | exact sub_of hp rfl
    | exact rfl | with_reducible apply State.epochRegions_keeps | with_reducible apply State.barRefused_keeps
    | with_reducible apply State.resumeCopies_keeps | with_reducible apply State.endBarrier_keeps
    | with_reducible apply State.logCommit_keeps | with_reducible apply State.again_keeps
    | with_reducible apply State.nextCommit_keeps | with_reducible apply State.resumeDevices_keeps
    | with_reducible apply State.refuseRegions_keeps | with_reducible apply ite_keeps | with_reducible apply foldl_keeps
    | with_reducible refine getD_keeps (fun _ _ => ?_) ?_ | intro _ | cases ‹(_, _) = (_, _)› | cases ‹some _ = some _›
    | cases ‹none = some _›
    | fail_if_no_progress with_reducible refine mk_keeps ?_ rfl rfl rfl (by and_intros <;> first | exact .inr (by with_reducible rfl) | exact .inl (sub_of hp rfl)) | dsimp only | dsimp only at e | split
theorem execIdeKmKeySet_keeps_eq {P : ℕ} {s0 s t : State} (hp : 1048602 &&& P = 1048602) {a0 : Cell} {a1 : Bool} (e : execIdeKmKeySet a0 a1 s = .next t) (h : Keeps P s0 s) : Keeps P s0 t := by
  unfold execIdeKmKeySet at e
  repeat' first
    | cases ‹Host.Outcome.next _ = Host.Outcome.next _› | cases ‹Host.Outcome.refused _ = Host.Outcome.next _›
    | cases ‹Host.Outcome.fault _ = Host.Outcome.next _› | split at e | with_reducible assumption | exact sub_of hp rfl
    | exact rfl | refine State.fresh_keeps_eq (sub_of hp rfl) (by assumption) ?_ | with_reducible apply State.fresh_keeps
    | with_reducible apply State.wr_keeps | with_reducible apply State.sat_keeps | with_reducible apply State.emit_keeps
    | with_reducible apply ite_keeps | with_reducible apply foldl_keeps
    | with_reducible refine foldl_snd_keeps ?_ (fun _ _ _ _ => ?_) | with_reducible refine getD_keeps (fun _ _ => ?_) ?_
    | intro _ | cases ‹(_, _) = (_, _)› | cases ‹some _ = some _› | cases ‹none = some _›
    | fail_if_no_progress with_reducible refine mk_keeps ?_ rfl rfl rfl (by and_intros <;> first | exact .inr (by with_reducible rfl) | exact .inl (sub_of hp rfl)) | dsimp only | dsimp only at e | split

end Sys2Proof.Machine
end

