-- ==== Sys2Proof/Laws/KeepLink.lean ====
section
/-! SUPPORT. What the operations of links, the chain, fencing and recovery keep: one lemma for each function that answers a state. -/

set_option Elab.async false

namespace Sys2Proof.Machine

set_option linter.unreachableTactic false
set_option linter.unusedTactic false

/-! ### Machine/Link -/

theorem State.showLanes_keeps {P : ℕ} {s0 s : State} (hp : 32770 &&& P = 32770) (h : Keeps P s0 s) (a1 : Cell) (a2 : ℕ) (a3 : ℕ) : Keeps P s0 (State.showLanes s a1 a2 a3) := by
  unfold State.showLanes
  repeat' first
    | with_reducible assumption | exact sub_of hp rfl | exact rfl | with_reducible apply State.setDomains_keeps
    | with_reducible apply State.wr_keeps | with_reducible apply State.wrb_keeps | with_reducible apply ite_keeps
    | with_reducible apply foldl_keeps | with_reducible refine getD_keeps (fun _ _ => ?_) ?_ | intro _
    | cases ‹(_, _) = (_, _)› | cases ‹some _ = some _› | cases ‹none = some _›
    | fail_if_no_progress with_reducible refine mk_keeps ?_ rfl rfl rfl (by and_intros <;> first | exact .inr (by with_reducible rfl) | exact .inl (sub_of hp rfl)) | dsimp only | split
theorem State.equalise_keeps {P : ℕ} {s0 s : State} (hp : 10 &&& P = 10) (h : Keeps P s0 s) (a1 : ℕ) : Keeps P s0 (State.equalise s a1) := by
  unfold State.equalise
  repeat' first
    | with_reducible assumption | exact sub_of hp rfl | exact rfl
    | refine State.fresh_keeps_eq (sub_of hp rfl) (by assumption) ?_ | with_reducible apply State.fresh_keeps
    | with_reducible apply State.wr_keeps | with_reducible apply ite_keeps | with_reducible apply foldl_keeps
    | with_reducible refine foldl_snd_keeps ?_ (fun _ _ _ _ => ?_) | with_reducible refine getD_keeps (fun _ _ => ?_) ?_
    | intro _ | cases ‹(_, _) = (_, _)› | cases ‹some _ = some _› | cases ‹none = some _›
    | fail_if_no_progress with_reducible refine mk_keeps ?_ rfl rfl rfl (by and_intros <;> first | exact .inr (by with_reducible rfl) | exact .inl (sub_of hp rfl)) | dsimp only | split
theorem State.portL0_keeps {P : ℕ} {s0 s : State} (hp : 32770 &&& P = 32770) (h : Keeps P s0 s) (a1 : Cell) (a2 : ℕ) (a3 : ℕ) (a4 : ℕ) (a5 : Bool) : Keeps P s0 (State.portL0 s a1 a2 a3 a4 a5) := by
  unfold State.portL0
  repeat' first
    | with_reducible assumption | exact sub_of hp rfl | exact rfl | with_reducible apply State.wr_keeps
    | with_reducible apply State.showLanes_keeps | with_reducible apply State.wrb_keeps | with_reducible apply ite_keeps
    | with_reducible apply foldl_keeps | with_reducible refine getD_keeps (fun _ _ => ?_) ?_ | intro _
    | cases ‹(_, _) = (_, _)› | cases ‹some _ = some _› | cases ‹none = some _›
    | fail_if_no_progress with_reducible refine mk_keeps ?_ rfl rfl rfl (by and_intros <;> first | exact .inr (by with_reducible rfl) | exact .inl (sub_of hp rfl)) | dsimp only | split
theorem State.portOut_keeps {P : ℕ} {s0 s : State} (hp : 98306 &&& P = 98306) (h : Keeps P s0 s) (a1 : Cell) (a2 : ℕ) : Keeps P s0 (State.portOut s a1 a2) := by
  unfold State.portOut
  repeat' first
    | with_reducible assumption | exact sub_of hp rfl | exact rfl | with_reducible apply State.wr_keeps
    | with_reducible apply State.showLanes_keeps | with_reducible apply State.sat_keeps
    | with_reducible apply State.wrb_keeps | with_reducible apply ite_keeps | with_reducible apply foldl_keeps
    | with_reducible refine getD_keeps (fun _ _ => ?_) ?_ | intro _ | cases ‹(_, _) = (_, _)› | cases ‹some _ = some _›
    | cases ‹none = some _›
    | fail_if_no_progress with_reducible refine mk_keeps ?_ rfl rfl rfl (by and_intros <;> first | exact .inr (by with_reducible rfl) | exact .inl (sub_of hp rfl)) | dsimp only | split
theorem State.ideOff_keeps {P : ℕ} {s0 s : State} (hp : 1048578 &&& P = 1048578) (h : Keeps P s0 s) (a1 : Cell) (a2 : ℕ) : Keeps P s0 (State.ideOff s a1 a2) := by
  unfold State.ideOff
  repeat' first
    | with_reducible assumption | exact sub_of hp rfl | exact rfl | with_reducible apply State.wr_keeps
    | with_reducible apply ite_keeps | with_reducible apply foldl_keeps
    | with_reducible refine getD_keeps (fun _ _ => ?_) ?_ | intro _ | cases ‹(_, _) = (_, _)› | cases ‹some _ = some _›
    | cases ‹none = some _›
    | fail_if_no_progress with_reducible refine mk_keeps ?_ rfl rfl rfl (by and_intros <;> first | exact .inr (by with_reducible rfl) | exact .inl (sub_of hp rfl)) | dsimp only | split
theorem State.discardSlots_keeps {P : ℕ} {s0 s : State} (hp : 1024 &&& P = 1024) (h : Keeps P s0 s) (a1 : Cell) : Keeps P s0 (State.discardSlots s a1) := by
  unfold State.discardSlots
  repeat' first
    | with_reducible assumption | exact sub_of hp rfl | exact rfl | with_reducible apply ite_keeps
    | with_reducible apply foldl_keeps | with_reducible refine getD_keeps (fun _ _ => ?_) ?_ | intro _
    | cases ‹(_, _) = (_, _)› | cases ‹some _ = some _› | cases ‹none = some _›
    | fail_if_no_progress with_reducible refine mk_keeps ?_ rfl rfl rfl (by and_intros <;> first | exact .inr (by with_reducible rfl) | exact .inl (sub_of hp rfl)) | dsimp only | split
theorem State.hostLost_keeps {P : ℕ} {s0 s : State} (hp : 8045075 &&& P = 8045075) (h : Keeps P s0 s) (a1 : Cell) : Keeps P s0 (State.hostLost s a1) := by
  unfold State.hostLost
  repeat' first
    | with_reducible assumption | exact sub_of hp rfl | exact rfl | with_reducible apply State.migBack_keeps
    | with_reducible apply State.wr_keeps | with_reducible apply State.nextCommit_keeps
    | with_reducible apply State.unbindOp_keeps | with_reducible apply ite_keeps | with_reducible apply foldl_keeps
    | with_reducible refine getD_keeps (fun _ _ => ?_) ?_ | intro _ | cases ‹(_, _) = (_, _)› | cases ‹some _ = some _›
    | cases ‹none = some _›
    | fail_if_no_progress with_reducible refine mk_keeps ?_ rfl rfl rfl (by and_intros <;> first | exact .inr (by with_reducible rfl) | exact .inl (sub_of hp rfl)) | dsimp only | split
theorem State.holdsGone_keeps {P : ℕ} {s0 s : State} (hp : 524290 &&& P = 524290) (h : Keeps P s0 s) (a1 : Cell) : Keeps P s0 (State.holdsGone s a1) := by
  unfold State.holdsGone
  repeat' first
    | with_reducible assumption | exact sub_of hp rfl | exact rfl | with_reducible apply State.wr_keeps
    | with_reducible apply State.dec_keeps | with_reducible apply ite_keeps | with_reducible apply foldl_keeps
    | with_reducible refine getD_keeps (fun _ _ => ?_) ?_ | intro _ | cases ‹(_, _) = (_, _)› | cases ‹some _ = some _›
    | cases ‹none = some _›
    | fail_if_no_progress with_reducible refine mk_keeps ?_ rfl rfl rfl (by and_intros <;> first | exact .inr (by with_reducible rfl) | exact .inl (sub_of hp rfl)) | dsimp only | split
theorem State.leaseGone_keeps {P : ℕ} {s0 s : State} (hp : 2736643 &&& P = 2736643) (h : Keeps P s0 s) (a1 : Cell) : Keeps P s0 (State.leaseGone s a1) := by
  unfold State.leaseGone
  repeat' first
    | with_reducible assumption | exact sub_of hp rfl | exact rfl | with_reducible apply State.loseLease_keeps
    | with_reducible apply ite_keeps | with_reducible apply foldl_keeps
    | with_reducible refine getD_keeps (fun _ _ => ?_) ?_ | intro _ | cases ‹(_, _) = (_, _)› | cases ‹some _ = some _›
    | cases ‹none = some _›
    | fail_if_no_progress with_reducible refine mk_keeps ?_ rfl rfl rfl (by and_intros <;> first | exact .inr (by with_reducible rfl) | exact .inl (sub_of hp rfl)) | dsimp only | split
theorem State.hostDown_keeps {P : ℕ} {s0 s : State} (hp : 8119835 &&& P = 8119835) (h : Keeps P s0 s) (a1 : Cell) : Keeps P s0 (State.hostDown s a1) := by
  unfold State.hostDown
  repeat' first
    | with_reducible assumption | exact sub_of hp rfl | exact rfl | with_reducible apply State.hostLost_keeps
    | with_reducible apply State.holdsGone_keeps | with_reducible apply State.discardSlots_keeps
    | with_reducible apply State.slotOff_keeps | with_reducible apply State.leaseGone_keeps
    | with_reducible apply State.slotGone_keeps | with_reducible apply State.emit_keeps | with_reducible apply ite_keeps
    | with_reducible apply foldl_keeps | with_reducible refine getD_keeps (fun _ _ => ?_) ?_ | intro _
    | cases ‹(_, _) = (_, _)› | cases ‹some _ = some _› | cases ‹none = some _›
    | fail_if_no_progress with_reducible refine mk_keeps ?_ rfl rfl rfl (by and_intros <;> first | exact .inr (by with_reducible rfl) | exact .inl (sub_of hp rfl)) | dsimp only | split
theorem State.twinNote_keeps {P : ℕ} {s0 s : State} (hp : 16 &&& P = 16) (h : Keeps P s0 s) (a1 : Cell) : Keeps P s0 (State.twinNote s a1) := by
  unfold State.twinNote
  repeat' first
    | with_reducible assumption | exact sub_of hp rfl | exact rfl | with_reducible apply State.emit_keeps
    | with_reducible apply ite_keeps | with_reducible apply foldl_keeps
    | with_reducible refine getD_keeps (fun _ _ => ?_) ?_ | intro _ | cases ‹(_, _) = (_, _)› | cases ‹some _ = some _›
    | cases ‹none = some _›
    | fail_if_no_progress with_reducible refine mk_keeps ?_ rfl rfl rfl (by and_intros <;> first | exact .inr (by with_reducible rfl) | exact .inl (sub_of hp rfl)) | dsimp only | split
theorem State.deviceDown_keeps {P : ℕ} {s0 s : State} (hp : 525312 &&& P = 525312) (h : Keeps P s0 s) (a1 : Cell) : Keeps P s0 (State.deviceDown s a1) := by
  unfold State.deviceDown
  repeat' first
    | with_reducible assumption | exact sub_of hp rfl | exact rfl | with_reducible apply State.discardSlots_keeps
    | with_reducible apply ite_keeps | with_reducible apply foldl_keeps
    | with_reducible refine getD_keeps (fun _ _ => ?_) ?_ | intro _ | cases ‹(_, _) = (_, _)› | cases ‹some _ = some _›
    | cases ‹none = some _›
    | fail_if_no_progress with_reducible refine mk_keeps ?_ rfl rfl rfl (by and_intros <;> first | exact .inr (by with_reducible rfl) | exact .inl (sub_of hp rfl)) | dsimp only | split
theorem State.moveOpen_keeps {P : ℕ} {s0 s : State} (hp : 524810 &&& P = 524810) (h : Keeps P s0 s) (a1 : Cell) : Keeps P s0 (State.moveOpen s a1) := by
  unfold State.moveOpen
  repeat' first
    | with_reducible assumption | exact sub_of hp rfl | exact rfl | with_reducible apply State.dropAcc_keeps
    | with_reducible apply State.answerWrite_keeps | with_reducible apply State.answerPoison_keeps
    | with_reducible apply State.writeStep_keeps | with_reducible apply State.setAcc_keeps
    | with_reducible apply State.sat_keeps | with_reducible apply State.send_keeps | with_reducible apply ite_keeps
    | with_reducible apply foldl_keeps | with_reducible refine getD_keeps (fun _ _ => ?_) ?_ | intro _
    | cases ‹(_, _) = (_, _)› | cases ‹some _ = some _› | cases ‹none = some _›
    | fail_if_no_progress with_reducible refine mk_keeps ?_ rfl rfl rfl (by and_intros <;> first | exact .inr (by with_reducible rfl) | exact .inl (sub_of hp rfl)) | dsimp only | split
theorem State.faultChange_keeps {P : ℕ} {s0 s : State} (hp : 514 &&& P = 514) (h : Keeps P s0 s) (a1 : List (ℕ × ExtEnt)) : Keeps P s0 (State.faultChange s a1) := by
  unfold State.faultChange
  repeat' first
    | with_reducible assumption | exact sub_of hp rfl | exact rfl | with_reducible apply State.openEpoch_keeps
    | with_reducible apply ite_keeps | with_reducible apply foldl_keeps
    | with_reducible refine getD_keeps (fun _ _ => ?_) ?_ | intro _ | cases ‹(_, _) = (_, _)› | cases ‹some _ = some _›
    | cases ‹none = some _›
    | fail_if_no_progress with_reducible refine mk_keeps ?_ rfl rfl rfl (by and_intros <;> first | exact .inr (by with_reducible rfl) | exact .inl (sub_of hp rfl)) | dsimp only | split
theorem State.enginesLose_keeps {P : ℕ} {s0 s : State} (hp : 5816851 &&& P = 5816851) (h : Keeps P s0 s) (a1 : Cell) (a2 : List (ℕ × ExtEnt)) : Keeps P s0 (State.enginesLose s a1 a2) := by
  unfold State.enginesLose
  repeat' first
    | with_reducible assumption | exact sub_of hp rfl | exact rfl | with_reducible apply State.pressCheck_keeps
    | with_reducible apply State.endRots_keeps | with_reducible apply ite_keeps | with_reducible apply foldl_keeps
    | with_reducible refine getD_keeps (fun _ _ => ?_) ?_ | intro _ | cases ‹(_, _) = (_, _)› | cases ‹some _ = some _›
    | cases ‹none = some _›
    | fail_if_no_progress with_reducible refine mk_keeps ?_ rfl rfl rfl (by and_intros <;> first | exact .inr (by with_reducible rfl) | exact .inl (sub_of hp rfl)) | dsimp only | split
theorem State.dropAccs_keeps {P : ℕ} {s0 s : State} (hp : 524808 &&& P = 524808) (h : Keeps P s0 s) (a1 : Cell) : Keeps P s0 (State.dropAccs s a1) := by
  unfold State.dropAccs
  repeat' first
    | with_reducible assumption | exact sub_of hp rfl | exact rfl | with_reducible apply State.dropAcc_keeps
    | with_reducible apply State.answerPoison_keeps | with_reducible apply State.writeStep_keeps
    | with_reducible apply ite_keeps | with_reducible apply foldl_keeps
    | with_reducible refine getD_keeps (fun _ _ => ?_) ?_ | intro _ | cases ‹(_, _) = (_, _)› | cases ‹some _ = some _›
    | cases ‹none = some _›
    | fail_if_no_progress with_reducible refine mk_keeps ?_ rfl rfl rfl (by and_intros <;> first | exact .inr (by with_reducible rfl) | exact .inl (sub_of hp rfl)) | dsimp only | split
theorem State.loseSides_keeps_eq {P : ℕ} {s0 s t : State} (hp : 5816859 &&& P = 5816859) {a1 : Cell} {a2 : Bool} {r} (e : State.loseSides s a1 a2 = (t, r)) (h : Keeps P s0 s) : Keeps P s0 t := by
  unfold State.loseSides at e
  repeat' first
    | split at e | with_reducible assumption | exact sub_of hp rfl | exact rfl
    | with_reducible apply State.enginesLose_keeps | with_reducible apply State.moveOpen_keeps
    | with_reducible apply State.dropAccs_keeps | with_reducible apply State.extEvent_keeps
    | with_reducible apply ite_keeps | with_reducible apply foldl_keeps
    | with_reducible refine getD_keeps (fun _ _ => ?_) ?_ | intro _ | cases ‹(_, _) = (_, _)› | cases ‹some _ = some _›
    | cases ‹none = some _›
    | fail_if_no_progress with_reducible refine mk_keeps ?_ rfl rfl rfl (by and_intros <;> first | exact .inr (by with_reducible rfl) | exact .inl (sub_of hp rfl)) | dsimp only | dsimp only at e | split
theorem State.loseSides_keeps {P : ℕ} {s0 s : State} (hp : 5816859 &&& P = 5816859) (h : Keeps P s0 s) (a1 : Cell) (a2 : Bool) : Keeps P s0 (State.loseSides s a1 a2).1 :=
  State.loseSides_keeps_eq hp (Prod.mk.eta (p := State.loseSides s a1 a2)).symm h
theorem State.roleDown_keeps {P : ℕ} {s0 s : State} (hp : 8119835 &&& P = 8119835) (h : Keeps P s0 s) (a1 : Cell) : Keeps P s0 (State.roleDown s a1) := by
  unfold State.roleDown
  repeat' first
    | with_reducible assumption | exact sub_of hp rfl | exact rfl
    | refine State.loseSides_keeps_eq (sub_of hp rfl) (by assumption) ?_ | with_reducible apply State.loseSides_keeps
    | with_reducible apply State.twinNote_keeps | with_reducible apply State.deviceDown_keeps
    | with_reducible apply State.faultChange_keeps | with_reducible apply State.logStep_keeps
    | with_reducible apply State.beginRecovery_keeps | with_reducible apply State.hostDown_keeps
    | with_reducible apply State.logFault_keeps | with_reducible apply ite_keeps | with_reducible apply foldl_keeps
    | with_reducible refine foldl_fst_keeps ?_ (fun _ _ _ _ => ?_) | with_reducible refine getD_keeps (fun _ _ => ?_) ?_
    | intro _ | cases ‹(_, _) = (_, _)› | cases ‹some _ = some _› | cases ‹none = some _›
    | fail_if_no_progress with_reducible refine mk_keeps ?_ rfl rfl rfl (by and_intros <;> first | exact .inr (by with_reducible rfl) | exact .inl (sub_of hp rfl)) | dsimp only | split
theorem State.linkDown_keeps {P : ℕ} {s0 s : State} (hp : 8119835 &&& P = 8119835) (h : Keeps P s0 s) (a1 : Cell) (a2 : ℕ) (a3 : ℕ) : Keeps P s0 (State.linkDown s a1 a2 a3) := by
  unfold State.linkDown
  repeat' first
    | with_reducible assumption | exact sub_of hp rfl | exact rfl | with_reducible apply State.roleDown_keeps
    | with_reducible apply State.ideOff_keeps | with_reducible apply State.portOut_keeps | with_reducible apply ite_keeps
    | with_reducible apply foldl_keeps | with_reducible refine getD_keeps (fun _ _ => ?_) ?_ | intro _
    | cases ‹(_, _) = (_, _)› | cases ‹some _ = some _› | cases ‹none = some _›
    | fail_if_no_progress with_reducible refine mk_keeps ?_ rfl rfl rfl (by and_intros <;> first | exact .inr (by with_reducible rfl) | exact .inl (sub_of hp rfl)) | dsimp only | split
theorem State.downAs_keeps {P : ℕ} {s0 s : State} (hp : 8119835 &&& P = 8119835) (h : Keeps P s0 s) (a1 : Cell) (a2 : Role) : Keeps P s0 (State.downAs s a1 a2) := by
  unfold State.downAs
  repeat' first
    | with_reducible assumption | exact sub_of hp rfl | exact rfl | with_reducible apply State.linkDown_keeps
    | with_reducible apply ite_keeps | with_reducible apply foldl_keeps
    | with_reducible refine getD_keeps (fun _ _ => ?_) ?_ | intro _ | cases ‹(_, _) = (_, _)› | cases ‹some _ = some _›
    | cases ‹none = some _›
    | fail_if_no_progress with_reducible refine mk_keeps ?_ rfl rfl rfl (by and_intros <;> first | exact .inr (by with_reducible rfl) | exact .inl (sub_of hp rfl)) | dsimp only | split
theorem execHostLinkDown_keeps_eq {P : ℕ} {s0 s t : State} (hp : 8119835 &&& P = 8119835) {a0 : Cell} (e : execHostLinkDown a0 s = .next t) (h : Keeps P s0 s) : Keeps P s0 t := by
  unfold execHostLinkDown at e
  repeat' first
    | cases ‹Host.Outcome.next _ = Host.Outcome.next _› | cases ‹Host.Outcome.refused _ = Host.Outcome.next _›
    | cases ‹Host.Outcome.fault _ = Host.Outcome.next _› | split at e | with_reducible assumption | exact sub_of hp rfl
    | exact rfl | with_reducible apply State.downAs_keeps | with_reducible apply ite_keeps
    | with_reducible apply foldl_keeps | with_reducible refine getD_keeps (fun _ _ => ?_) ?_ | intro _
    | cases ‹(_, _) = (_, _)› | cases ‹some _ = some _› | cases ‹none = some _›
    | fail_if_no_progress with_reducible refine mk_keeps ?_ rfl rfl rfl (by and_intros <;> first | exact .inr (by with_reducible rfl) | exact .inl (sub_of hp rfl)) | dsimp only | dsimp only at e | split
theorem execExpanderLinkDown_keeps_eq {P : ℕ} {s0 s t : State} (hp : 8119835 &&& P = 8119835) {a0 : Cell} (e : execExpanderLinkDown a0 s = .next t) (h : Keeps P s0 s) : Keeps P s0 t := by
  unfold execExpanderLinkDown at e
  repeat' first
    | cases ‹Host.Outcome.next _ = Host.Outcome.next _› | cases ‹Host.Outcome.refused _ = Host.Outcome.next _›
    | cases ‹Host.Outcome.fault _ = Host.Outcome.next _› | split at e | with_reducible assumption | exact sub_of hp rfl
    | exact rfl | with_reducible apply State.downAs_keeps | with_reducible apply ite_keeps
    | with_reducible apply foldl_keeps | with_reducible refine getD_keeps (fun _ _ => ?_) ?_ | intro _
    | cases ‹(_, _) = (_, _)› | cases ‹some _ = some _› | cases ‹none = some _›
    | fail_if_no_progress with_reducible refine mk_keeps ?_ rfl rfl rfl (by and_intros <;> first | exact .inr (by with_reducible rfl) | exact .inl (sub_of hp rfl)) | dsimp only | dsimp only at e | split
theorem execDeviceLinkDown_keeps_eq {P : ℕ} {s0 s t : State} (hp : 8119835 &&& P = 8119835) {a0 : Cell} (e : execDeviceLinkDown a0 s = .next t) (h : Keeps P s0 s) : Keeps P s0 t := by
  unfold execDeviceLinkDown at e
  repeat' first
    | cases ‹Host.Outcome.next _ = Host.Outcome.next _› | cases ‹Host.Outcome.refused _ = Host.Outcome.next _›
    | cases ‹Host.Outcome.fault _ = Host.Outcome.next _› | split at e | with_reducible assumption | exact sub_of hp rfl
    | exact rfl | with_reducible apply State.downAs_keeps | with_reducible apply ite_keeps
    | with_reducible apply foldl_keeps | with_reducible refine getD_keeps (fun _ _ => ?_) ?_ | intro _
    | cases ‹(_, _) = (_, _)› | cases ‹some _ = some _› | cases ‹none = some _›
    | fail_if_no_progress with_reducible refine mk_keeps ?_ rfl rfl rfl (by and_intros <;> first | exact .inr (by with_reducible rfl) | exact .inl (sub_of hp rfl)) | dsimp only | dsimp only at e | split
theorem execIdeIntegrityFailure_keeps_eq {P : ℕ} {s0 s t : State} (hp : 8119835 &&& P = 8119835) {a0 : Cell} (e : execIdeIntegrityFailure a0 s = .next t) (h : Keeps P s0 s) : Keeps P s0 t := by
  unfold execIdeIntegrityFailure at e
  repeat' first
    | cases ‹Host.Outcome.next _ = Host.Outcome.next _› | cases ‹Host.Outcome.refused _ = Host.Outcome.next _›
    | cases ‹Host.Outcome.fault _ = Host.Outcome.next _› | split at e | with_reducible assumption | exact sub_of hp rfl
    | exact rfl | with_reducible apply State.linkDown_keeps | with_reducible apply State.sat_keeps
    | with_reducible apply ite_keeps | with_reducible apply foldl_keeps
    | with_reducible refine getD_keeps (fun _ _ => ?_) ?_ | intro _ | cases ‹(_, _) = (_, _)› | cases ‹some _ = some _›
    | cases ‹none = some _›
    | fail_if_no_progress with_reducible refine mk_keeps ?_ rfl rfl rfl (by and_intros <;> first | exact .inr (by with_reducible rfl) | exact .inl (sub_of hp rfl)) | dsimp only | dsimp only at e | split
theorem State.bindOne_keeps_eq {P : ℕ} {s0 s t : State} (hp : 4080146 &&& P = 4080146) {a1 : Cell} {a2 : ℕ} {a3 : ℕ} (e : State.bindOne s a1 a2 a3 = some t) (h : Keeps P s0 s) : Keeps P s0 t := by
  unfold State.bindOne at e
  split at e
  · cases e
  · split at e
    · cases e
    · obtain ⟨u, e', rfl⟩ := Option.map_eq_some_iff.1 e
      exact State.bindOp_keeps (sub_of hp rfl) (State.defineInst_keeps_eq (sub_of hp rfl) e' h) _ _ _
theorem State.bindNew_keeps_eq {P : ℕ} {s0 s t : State} (hp : 4080146 &&& P = 4080146) {a1 : Cell} {a2 : ℕ} {a3 : ℕ} {a4 : ℕ} (e : State.bindNew s a1 a2 a3 a4 = some t)
    (h : Keeps P s0 s) : Keeps P s0 t := by
  induction a4 generalizing s a3 with
  | zero => exact Option.some.inj e ▸ h
  | succ n ih =>
    obtain ⟨u, e1, e⟩ := Option.bind_eq_some_iff.1 e
    exact ih e (State.bindOne_keeps_eq (sub_of hp rfl) e1 h)
theorem State.addExts_keeps {P : ℕ} {s0 s : State} (hp : 524288 &&& P = 524288) (h : Keeps P s0 s) (a1 : List ((Cell × ℕ) × Option (Cell × ℕ))) : Keeps P s0 (State.addExts s a1) := by
  unfold State.addExts
  repeat' first
    | with_reducible assumption | exact sub_of hp rfl | exact rfl | with_reducible apply State.sendNote_keeps
    | with_reducible apply State.setLife_keeps | with_reducible apply ite_keeps | with_reducible apply foldl_keeps
    | with_reducible refine getD_keeps (fun _ _ => ?_) ?_ | intro _ | cases ‹(_, _) = (_, _)› | cases ‹some _ = some _›
    | cases ‹none = some _›
    | fail_if_no_progress with_reducible refine mk_keeps ?_ rfl rfl rfl (by and_intros <;> first | exact .inr (by with_reducible rfl) | exact .inl (sub_of hp rfl)) | dsimp only | split
theorem State.chooseRepl_keeps_eq {P : ℕ} {s0 s t : State} (hp : 524288 &&& P = 524288) {a1 : Cell} {a2 : AbRule} {a3 : List ℕ} {r} (e : State.chooseRepl s a1 a2 a3 = (t, r)) (h : Keeps P s0 s) : Keeps P s0 t := by
  unfold State.chooseRepl at e
  repeat' first
    | split at e | with_reducible assumption | exact sub_of hp rfl | exact rfl | with_reducible apply ite_keeps
    | with_reducible apply foldl_keeps | with_reducible refine getD_keeps (fun _ _ => ?_) ?_ | intro _
    | cases ‹(_, _) = (_, _)› | cases ‹some _ = some _› | cases ‹none = some _›
    | fail_if_no_progress with_reducible refine mk_keeps ?_ rfl rfl rfl (by and_intros <;> first | exact .inr (by with_reducible rfl) | exact .inl (sub_of hp rfl)) | dsimp only | dsimp only at e | split
theorem State.chooseRepl_keeps {P : ℕ} {s0 s : State} (hp : 524288 &&& P = 524288) (h : Keeps P s0 s) (a1 : Cell) (a2 : AbRule) (a3 : List ℕ) : Keeps P s0 (State.chooseRepl s a1 a2 a3).1 :=
  State.chooseRepl_keeps_eq hp (Prod.mk.eta (p := State.chooseRepl s a1 a2 a3)).symm h
theorem State.memoryAdd_keeps_eq {P : ℕ} {s0 s t : State} (hp : 524304 &&& P = 524304) {a1 : Cell} {a2 : Expander} {a3 : AbRule} (e : State.memoryAdd s a1 a2 a3 = some t) (h : Keeps P s0 s) : Keeps P s0 t := by
  unfold State.memoryAdd at e
  repeat' first
    | split at e | with_reducible assumption | exact sub_of hp rfl | exact rfl
    | refine State.chooseRepl_keeps_eq (sub_of hp rfl) (by assumption) ?_ | with_reducible apply State.chooseRepl_keeps
    | with_reducible apply State.addExts_keeps | with_reducible apply State.emit_keeps | with_reducible apply ite_keeps
    | with_reducible apply foldl_keeps | with_reducible refine foldl_fst_keeps ?_ (fun _ _ _ _ => ?_)
    | with_reducible refine getD_keeps (fun _ _ => ?_) ?_ | intro _ | cases ‹(_, _) = (_, _)› | cases ‹some _ = some _›
    | cases ‹none = some _›
    | fail_if_no_progress with_reducible refine mk_keeps ?_ rfl rfl rfl (by and_intros <;> first | exact .inr (by with_reducible rfl) | exact .inl (sub_of hp rfl)) | dsimp only | dsimp only at e | split
theorem State.deviceAdd_keeps_eq {P : ℕ} {s0 s t : State} (hp : 3818002 &&& P = 3818002) {a1 : Cell} {a2 : AbRule} (e : State.deviceAdd s a1 a2 = some t) (h : Keeps P s0 s) : Keeps P s0 t := by
  unfold State.deviceAdd at e
  repeat' first
    | split at e | with_reducible assumption | exact sub_of hp rfl | exact rfl
    | with_reducible apply State.regionCommit_keeps | with_reducible apply State.wr_keeps
    | with_reducible apply State.emit_keeps | with_reducible apply ite_keeps | with_reducible apply foldl_keeps
    | with_reducible refine getD_keeps (fun _ _ => ?_) ?_ | intro _ | cases ‹(_, _) = (_, _)› | cases ‹some _ = some _›
    | cases ‹none = some _›
    | fail_if_no_progress with_reducible refine mk_keeps ?_ rfl rfl rfl (by and_intros <;> first | exact .inr (by with_reducible rfl) | exact .inl (sub_of hp rfl)) | dsimp only | dsimp only at e | split
theorem State.tryRules_keeps {P : ℕ} {s0 s : State} (hp : 16384 &&& P = 16384) (h : Keeps P s0 s) (a1 : ℕ) (a2 : Cell) (a3 : State → AbRule → Option State) (a4 : List AbRule)
    (hk : ∀ u x t, Keeps P s0 u → a3 u x = some t → Keeps P s0 t) : Keeps P s0 (State.tryRules s a1 a2 a3 a4) := by
  induction a4 generalizing s with
  | nil => exact h
  | cons r l ih =>
    unfold State.tryRules
    split
    · rename_i e
      exact hk _ _ _ h e
    · exact ih (State.logEvent_keeps (sub_of hp rfl) h _ _ _)
theorem State.autoBind_keeps {P : ℕ} {s0 s : State} (hp : 16384 &&& P = 16384) (h : Keeps P s0 s) (a1 : ℕ) (a2 : Cell) (a3 : State → AbRule → Option State)
    (hk : ∀ u x t, Keeps P s0 u → a3 u x = some t → Keeps P s0 t) : Keeps P s0 (State.autoBind s a1 a2 a3) := by
  unfold State.autoBind
  exact ite_keeps (fun _ => h) fun _ => State.tryRules_keeps (sub_of hp rfl) h _ _ _ _ hk
theorem execPortLinkUp_keeps_eq {P : ℕ} {s0 s t : State} (hp : 4186650 &&& P = 4186650) {a0 : Cell} {a1 : LinkUp} (e : execPortLinkUp a0 a1 s = .next t) (h : Keeps P s0 s) : Keeps P s0 t := by
  unfold execPortLinkUp at e
  repeat' first
    | cases ‹Host.Outcome.next _ = Host.Outcome.next _› | cases ‹Host.Outcome.refused _ = Host.Outcome.next _›
    | cases ‹Host.Outcome.fault _ = Host.Outcome.next _› | split at e | with_reducible assumption | exact sub_of hp rfl
    | exact rfl | with_reducible apply State.portL0_keeps
    | refine State.memoryAdd_keeps_eq (sub_of hp rfl) (by assumption) ?_ | with_reducible apply State.autoBind_keeps
    | with_reducible apply State.wr_keeps | with_reducible apply State.equalise_keeps
    | refine State.deviceAdd_keeps_eq (sub_of hp rfl) (by assumption) ?_
    | refine State.bindNew_keeps_eq (sub_of hp rfl) (by assumption) ?_ | with_reducible apply State.wrb_keeps
    | with_reducible apply ite_keeps | with_reducible apply foldl_keeps
    | with_reducible refine getD_keeps (fun _ _ => ?_) ?_ | intro _ | cases ‹(_, _) = (_, _)› | cases ‹some _ = some _›
    | cases ‹none = some _›
    | fail_if_no_progress with_reducible refine mk_keeps ?_ rfl rfl rfl (by and_intros <;> first | exact .inr (by with_reducible rfl) | exact .inl (sub_of hp rfl)) | dsimp only | dsimp only at e | split

/-! ### Machine/Reissue -/

theorem State.exhaust_keeps {P : ℕ} {s0 s : State} (hp : 17418 &&& P = 17418) (h : Keeps P s0 s) (a1 : Cell) (a2 : Slot) (a3 : TSlot) : Keeps P s0 (State.exhaust s a1 a2 a3) := by
  unfold State.exhaust
  repeat' first
    | with_reducible assumption | exact sub_of hp rfl | exact rfl
    | refine State.fresh_keeps_eq (sub_of hp rfl) (by assumption) ?_ | with_reducible apply State.fresh_keeps
    | with_reducible apply State.reissueDone_keeps | with_reducible apply State.setSlot_keeps
    | with_reducible apply State.logFault_keeps | with_reducible apply ite_keeps | with_reducible apply foldl_keeps
    | with_reducible refine foldl_snd_keeps ?_ (fun _ _ _ _ => ?_) | with_reducible refine getD_keeps (fun _ _ => ?_) ?_
    | intro _ | cases ‹(_, _) = (_, _)› | cases ‹some _ = some _› | cases ‹none = some _›
    | fail_if_no_progress with_reducible refine mk_keeps ?_ rfl rfl rfl (by and_intros <;> first | exact .inr (by with_reducible rfl) | exact .inl (sub_of hp rfl)) | dsimp only | split
theorem State.reissueRefused_keeps {P : ℕ} {s0 s : State} (hp : 1066498 &&& P = 1066498) (h : Keeps P s0 s) (a1 : Cell) (a2 : Slot) (a3 : TSlot) (a4 : ℕ) : Keeps P s0 (State.reissueRefused s a1 a2 a3 a4) := by
  unfold State.reissueRefused
  repeat' first
    | with_reducible assumption | exact sub_of hp rfl | exact rfl | with_reducible apply State.reissueDone_keeps
    | with_reducible apply State.devStep_keeps | with_reducible apply State.setSlot_keeps
    | with_reducible apply State.violate_keeps | with_reducible apply ite_keeps | with_reducible apply foldl_keeps
    | with_reducible refine getD_keeps (fun _ _ => ?_) ?_ | intro _ | cases ‹(_, _) = (_, _)› | cases ‹some _ = some _›
    | cases ‹none = some _›
    | fail_if_no_progress with_reducible refine mk_keeps ?_ rfl rfl rfl (by and_intros <;> first | exact .inr (by with_reducible rfl) | exact .inl (sub_of hp rfl)) | dsimp only | split
theorem State.reissue_keeps {P : ℕ} {s0 s : State} (hp : 5269002 &&& P = 5269002) (h : Keeps P s0 s) (a1 : Cell) (a2 : Slot) (a3 : TSlot) : Keeps P s0 (State.reissue s a1 a2 a3) := by
  unfold State.reissue
  repeat' first
    | with_reducible assumption | exact sub_of hp rfl | exact rfl | with_reducible apply State.ctrEvent_keeps
    | with_reducible apply State.setSlot_keeps | refine State.proxyOrder_keeps_eq (sub_of hp rfl) (by assumption) ?_
    | with_reducible apply State.exhaust_keeps | with_reducible apply State.reissueRefused_keeps
    | with_reducible apply State.sat_keeps | with_reducible apply State.logFault_keeps
    | with_reducible apply State.send_keeps | with_reducible apply State.proxyAdopt_keeps | with_reducible apply ite_keeps
    | with_reducible apply foldl_keeps | with_reducible refine getD_keeps (fun _ _ => ?_) ?_ | intro _
    | cases ‹(_, _) = (_, _)› | cases ‹some _ = some _› | cases ‹none = some _›
    | fail_if_no_progress with_reducible refine mk_keeps ?_ rfl rfl rfl (by and_intros <;> first | exact .inr (by with_reducible rfl) | exact .inl (sub_of hp rfl)) | dsimp only | split
theorem State.sweepCell_keeps {P : ℕ} {s0 s : State} (hp : 5269002 &&& P = 5269002) (h : Keeps P s0 s) (a1 : Cell) (a2 : Slot → TSlot → Bool) : Keeps P s0 (State.sweepCell s a1 a2) := by
  unfold State.sweepCell
  repeat' first
    | with_reducible assumption | exact sub_of hp rfl | exact rfl | with_reducible apply State.reissue_keeps
    | with_reducible apply ite_keeps | with_reducible apply foldl_keeps
    | with_reducible refine getD_keeps (fun _ _ => ?_) ?_ | intro _ | cases ‹(_, _) = (_, _)› | cases ‹some _ = some _›
    | cases ‹none = some _›
    | fail_if_no_progress with_reducible refine mk_keeps ?_ rfl rfl rfl (by and_intros <;> first | exact .inr (by with_reducible rfl) | exact .inl (sub_of hp rfl)) | dsimp only | split
theorem State.reissueTags_keeps {P : ℕ} {s0 s : State} (hp : 5269002 &&& P = 5269002) (h : Keeps P s0 s) (a1 : List Pkt) : Keeps P s0 (State.reissueTags s a1) := by
  unfold State.reissueTags
  repeat' first
    | with_reducible assumption | exact sub_of hp rfl | exact rfl | with_reducible apply State.sweepCell_keeps
    | with_reducible apply ite_keeps | with_reducible apply foldl_keeps
    | with_reducible refine getD_keeps (fun _ _ => ?_) ?_ | intro _ | cases ‹(_, _) = (_, _)› | cases ‹some _ = some _›
    | cases ‹none = some _›
    | fail_if_no_progress with_reducible refine mk_keeps ?_ rfl rfl rfl (by and_intros <;> first | exact .inr (by with_reducible rfl) | exact .inl (sub_of hp rfl)) | dsimp only | split
theorem State.settleLost_keeps {P : ℕ} {s0 s : State} (hp : 5271050 &&& P = 5271050) (h : Keeps P s0 s) : Keeps P s0 (State.settleLost s) := by
  unfold State.settleLost
  repeat' first
    | with_reducible assumption | exact sub_of hp rfl | exact rfl | with_reducible apply State.reissueTags_keeps
    | with_reducible apply ite_keeps | with_reducible apply foldl_keeps
    | with_reducible refine getD_keeps (fun _ _ => ?_) ?_ | intro _ | cases ‹(_, _) = (_, _)› | cases ‹some _ = some _›
    | cases ‹none = some _›
    | fail_if_no_progress with_reducible refine mk_keeps ?_ rfl rfl rfl (by and_intros <;> first | exact .inr (by with_reducible rfl) | exact .inl (sub_of hp rfl)) | dsimp only | split
theorem execScrimUnitReceive_keeps_eq {P : ℕ} {s0 s t : State} (hp : 5303818 &&& P = 5303818) {a0 : Cell} {a1 : Dir} {a2 : Pkt} {a3 : Fin 65} {a4 : Ecc} {a5 : Bool} {a6 : Bool} (e : execScrimUnitReceive a0 a1 a2 a3 a4 a5 a6 s = .next t) (h : Keeps P s0 s) : Keeps P s0 t := by
  unfold execScrimUnitReceive at e
  repeat' first
    | cases ‹Host.Outcome.next _ = Host.Outcome.next _› | cases ‹Host.Outcome.refused _ = Host.Outcome.next _›
    | cases ‹Host.Outcome.fault _ = Host.Outcome.next _› | split at e | with_reducible assumption | exact sub_of hp rfl
    | exact rfl | with_reducible apply State.takeUnit_keeps | with_reducible apply State.settleLost_keeps
    | with_reducible apply ite_keeps | with_reducible apply foldl_keeps
    | with_reducible refine getD_keeps (fun _ _ => ?_) ?_ | intro _ | cases ‹(_, _) = (_, _)› | cases ‹some _ = some _›
    | cases ‹none = some _›
    | fail_if_no_progress with_reducible refine mk_keeps ?_ rfl rfl rfl (by and_intros <;> first | exact .inr (by with_reducible rfl) | exact .inl (sub_of hp rfl)) | dsimp only | dsimp only at e | split
theorem execFrameArrive_keeps_eq {P : ℕ} {s0 s t : State} (hp : 5271050 &&& P = 5271050) {a0 : Cell} {a1 : Fin 10} {a2 : Fin 10} {a3 : Pkt} {a4 : Fin 65} {a5 : ArriveIn} (e : execFrameArrive a0 a1 a2 a3 a4 a5 s = .next t) (h : Keeps P s0 s) : Keeps P s0 t := by
  unfold execFrameArrive at e
  repeat' first
    | cases ‹Host.Outcome.next _ = Host.Outcome.next _› | cases ‹Host.Outcome.refused _ = Host.Outcome.next _›
    | cases ‹Host.Outcome.fault _ = Host.Outcome.next _› | split at e | with_reducible assumption | exact sub_of hp rfl
    | exact rfl | with_reducible apply State.settleLost_keeps | with_reducible apply State.frameArrive_keeps
    | with_reducible apply State.xingPass_keeps | with_reducible apply State.mirrorStart_keeps
    | with_reducible apply ite_keeps | with_reducible apply foldl_keeps
    | with_reducible refine getD_keeps (fun _ _ => ?_) ?_ | intro _ | cases ‹(_, _) = (_, _)› | cases ‹some _ = some _›
    | cases ‹none = some _›
    | fail_if_no_progress with_reducible refine mk_keeps ?_ rfl rfl rfl (by and_intros <;> first | exact .inr (by with_reducible rfl) | exact .inl (sub_of hp rfl)) | dsimp only | dsimp only at e | split
theorem execFrameStart_keeps_eq {P : ℕ} {s0 s t : State} (hp : 5275162 &&& P = 5275162) {a0 : Cell} {a1 : StartIn} (e : execFrameStart a0 a1 s = .next t) (h : Keeps P s0 s) : Keeps P s0 t := by
  unfold execFrameStart at e
  repeat' first
    | cases ‹Host.Outcome.next _ = Host.Outcome.next _› | cases ‹Host.Outcome.refused _ = Host.Outcome.next _›
    | cases ‹Host.Outcome.fault _ = Host.Outcome.next _› | split at e | with_reducible assumption | exact sub_of hp rfl
    | exact rfl | with_reducible apply State.round_keeps | with_reducible apply State.settleLost_keeps
    | with_reducible apply ite_keeps | with_reducible apply foldl_keeps
    | with_reducible refine getD_keeps (fun _ _ => ?_) ?_ | intro _ | cases ‹(_, _) = (_, _)› | cases ‹some _ = some _›
    | cases ‹none = some _›
    | fail_if_no_progress with_reducible refine mk_keeps ?_ rfl rfl rfl (by and_intros <;> first | exact .inr (by with_reducible rfl) | exact .inl (sub_of hp rfl)) | dsimp only | dsimp only at e | split
theorem execChunkGrant_keeps_eq {P : ℕ} {s0 s t : State} (hp : 5271050 &&& P = 5271050) {a0 : Cell} {a1 : Fin 1572864} {a2 : BitVec 129} (e : execChunkGrant a0 a1 a2 s = .next t) (h : Keeps P s0 s) : Keeps P s0 t := by
  unfold execChunkGrant at e
  repeat' first
    | cases ‹Host.Outcome.next _ = Host.Outcome.next _› | cases ‹Host.Outcome.refused _ = Host.Outcome.next _›
    | cases ‹Host.Outcome.fault _ = Host.Outcome.next _› | split at e | with_reducible assumption | exact sub_of hp rfl
    | exact rfl | with_reducible apply State.settleLost_keeps | with_reducible apply State.setSpare_keeps
    | with_reducible apply State.showShare_keeps | with_reducible apply State.writeWaiting_keeps
    | with_reducible apply State.markWaiting_keeps | with_reducible apply State.sat_keeps | with_reducible apply ite_keeps
    | with_reducible apply foldl_keeps | with_reducible refine getD_keeps (fun _ _ => ?_) ?_ | intro _
    | cases ‹(_, _) = (_, _)› | cases ‹some _ = some _› | cases ‹none = some _›
    | fail_if_no_progress with_reducible refine mk_keeps ?_ rfl rfl rfl (by and_intros <;> first | exact .inr (by with_reducible rfl) | exact .inl (sub_of hp rfl)) | dsimp only | dsimp only at e | split
theorem execSpillReadReturn_keeps_eq {P : ℕ} {s0 s t : State} (hp : 5271050 &&& P = 5271050) {a0 : Cell} {a1 : Fin 64} {a2 : SpillIn} (e : execSpillReadReturn a0 a1 a2 s = .next t) (h : Keeps P s0 s) : Keeps P s0 t := by
  unfold execSpillReadReturn at e
  repeat' first
    | cases ‹Host.Outcome.next _ = Host.Outcome.next _› | cases ‹Host.Outcome.refused _ = Host.Outcome.next _›
    | cases ‹Host.Outcome.fault _ = Host.Outcome.next _› | split at e | with_reducible assumption | exact sub_of hp rfl
    | exact rfl | with_reducible apply State.settleLost_keeps | with_reducible apply State.spillReturn_keeps
    | with_reducible apply ite_keeps | with_reducible apply foldl_keeps
    | with_reducible refine getD_keeps (fun _ _ => ?_) ?_ | intro _ | cases ‹(_, _) = (_, _)› | cases ‹some _ = some _›
    | cases ‹none = some _›
    | fail_if_no_progress with_reducible refine mk_keeps ?_ rfl rfl rfl (by and_intros <;> first | exact .inr (by with_reducible rfl) | exact .inl (sub_of hp rfl)) | dsimp only | dsimp only at e | split

/-! ### Machine/Onl -/

theorem State.trainEnds_keeps {P : ℕ} {s0 s : State} (hp : 2 &&& P = 2) (h : Keeps P s0 s) (a1 : Cell) : Keeps P s0 (State.trainEnds s a1) := by
  unfold State.trainEnds
  repeat' first
    | with_reducible assumption | exact sub_of hp rfl | exact rfl | with_reducible apply State.wr_keeps
    | with_reducible apply ite_keeps | with_reducible apply foldl_keeps
    | with_reducible refine getD_keeps (fun _ _ => ?_) ?_ | intro _ | cases ‹(_, _) = (_, _)› | cases ‹some _ = some _›
    | cases ‹none = some _›
    | fail_if_no_progress with_reducible refine mk_keeps ?_ rfl rfl rfl (by and_intros <;> first | exact .inr (by with_reducible rfl) | exact .inl (sub_of hp rfl)) | dsimp only | split
theorem State.trainStart_keeps {P : ℕ} {s0 s : State} (hp : 131074 &&& P = 131074) (h : Keeps P s0 s) (a1 : Cell) : Keeps P s0 (State.trainStart s a1) := by
  unfold State.trainStart
  repeat' first
    | with_reducible assumption | exact sub_of hp rfl | exact rfl | with_reducible apply State.wr_keeps
    | with_reducible apply ite_keeps | with_reducible apply foldl_keeps
    | with_reducible refine getD_keeps (fun _ _ => ?_) ?_ | intro _ | cases ‹(_, _) = (_, _)› | cases ‹some _ = some _›
    | cases ‹none = some _›
    | fail_if_no_progress with_reducible refine mk_keeps ?_ rfl rfl rfl (by and_intros <;> first | exact .inr (by with_reducible rfl) | exact .inl (sub_of hp rfl)) | dsimp only | split
theorem State.trainFail_keeps {P : ℕ} {s0 s : State} (hp : 131074 &&& P = 131074) (h : Keeps P s0 s) (a1 : Cell) : Keeps P s0 (State.trainFail s a1) := by
  unfold State.trainFail
  repeat' first
    | with_reducible assumption | exact sub_of hp rfl | exact rfl | with_reducible apply State.wr_keeps
    | with_reducible apply State.trainEnds_keeps | with_reducible apply State.sat_keeps | with_reducible apply ite_keeps
    | with_reducible apply foldl_keeps | with_reducible refine getD_keeps (fun _ _ => ?_) ?_ | intro _
    | cases ‹(_, _) = (_, _)› | cases ‹some _ = some _› | cases ‹none = some _›
    | fail_if_no_progress with_reducible refine mk_keeps ?_ rfl rfl rfl (by and_intros <;> first | exact .inr (by with_reducible rfl) | exact .inl (sub_of hp rfl)) | dsimp only | split
theorem State.setCoefs_keeps {P : ℕ} {s0 s : State} (hp : 2 &&& P = 2) (h : Keeps P s0 s) (a1 : ℕ) (a2 : List ℕ) : Keeps P s0 (State.setCoefs s a1 a2) := by
  unfold State.setCoefs
  repeat' first
    | with_reducible assumption | exact sub_of hp rfl | exact rfl | with_reducible apply State.wr_keeps
    | with_reducible apply ite_keeps | with_reducible apply foldl_keeps
    | with_reducible refine getD_keeps (fun _ _ => ?_) ?_ | intro _ | cases ‹(_, _) = (_, _)› | cases ‹some _ = some _›
    | cases ‹none = some _›
    | fail_if_no_progress with_reducible refine mk_keeps ?_ rfl rfl rfl (by and_intros <;> first | exact .inr (by with_reducible rfl) | exact .inl (sub_of hp rfl)) | dsimp only | split
theorem State.startPreset_keeps {P : ℕ} {s0 s : State} (hp : 2 &&& P = 2) (h : Keeps P s0 s) (a1 : Cell) : Keeps P s0 (State.startPreset s a1) := by
  unfold State.startPreset
  repeat' first
    | with_reducible assumption | exact sub_of hp rfl | exact rfl | with_reducible apply State.setCoefs_keeps
    | with_reducible apply State.wr_keeps | with_reducible apply ite_keeps | with_reducible apply foldl_keeps
    | with_reducible refine getD_keeps (fun _ _ => ?_) ?_ | intro _ | cases ‹(_, _) = (_, _)› | cases ‹some _ = some _›
    | cases ‹none = some _›
    | fail_if_no_progress with_reducible refine mk_keeps ?_ rfl rfl rfl (by and_intros <;> first | exact .inr (by with_reducible rfl) | exact .inl (sub_of hp rfl)) | dsimp only | split
theorem State.linkReset_keeps {P : ℕ} {s0 s : State} (hp : 131074 &&& P = 131074) (h : Keeps P s0 s) (a1 : Cell) : Keeps P s0 (State.linkReset s a1) := by
  unfold State.linkReset
  repeat' first
    | with_reducible assumption | exact sub_of hp rfl | exact rfl | with_reducible apply State.wr_keeps
    | with_reducible apply ite_keeps | with_reducible apply foldl_keeps
    | with_reducible refine getD_keeps (fun _ _ => ?_) ?_ | intro _ | cases ‹(_, _) = (_, _)› | cases ‹some _ = some _›
    | cases ‹none = some _›
    | fail_if_no_progress with_reducible refine mk_keeps ?_ rfl rfl rfl (by and_intros <;> first | exact .inr (by with_reducible rfl) | exact .inl (sub_of hp rfl)) | dsimp only | split
theorem State.flood_keeps {P : ℕ} {s0 s : State} (hp : 131090 &&& P = 131090) (h : Keeps P s0 s) (a1 : Line) (a2 : Option ℕ) : Keeps P s0 (State.flood s a1 a2) := by
  unfold State.flood
  repeat' first
    | with_reducible assumption | exact sub_of hp rfl | exact rfl | with_reducible apply State.queueOn_keeps
    | with_reducible apply ite_keeps | with_reducible apply foldl_keeps
    | with_reducible refine getD_keeps (fun _ _ => ?_) ?_ | intro _ | cases ‹(_, _) = (_, _)› | cases ‹some _ = some _›
    | cases ‹none = some _›
    | fail_if_no_progress with_reducible refine mk_keeps ?_ rfl rfl rfl (by and_intros <;> first | exact .inr (by with_reducible rfl) | exact .inl (sub_of hp rfl)) | dsimp only | split
theorem State.advertise_keeps {P : ℕ} {s0 s : State} (hp : 131090 &&& P = 131090) (h : Keeps P s0 s) : Keeps P s0 (State.advertise s) := by
  unfold State.advertise
  repeat' first
    | with_reducible assumption | exact sub_of hp rfl | exact rfl | with_reducible apply State.flood_keeps
    | with_reducible apply ite_keeps | with_reducible apply foldl_keeps
    | with_reducible refine getD_keeps (fun _ _ => ?_) ?_ | intro _ | cases ‹(_, _) = (_, _)› | cases ‹some _ = some _›
    | cases ‹none = some _›
    | fail_if_no_progress with_reducible refine mk_keeps ?_ rfl rfl rfl (by and_intros <;> first | exact .inr (by with_reducible rfl) | exact .inl (sub_of hp rfl)) | dsimp only | split
theorem State.sendKeyx_keeps {P : ℕ} {s0 s : State} (hp : 131602 &&& P = 131602) (h : Keeps P s0 s) (a1 : ℕ) : Keeps P s0 (State.sendKeyx s a1) := by
  unfold State.sendKeyx
  repeat' first
    | with_reducible assumption | exact sub_of hp rfl | exact rfl | with_reducible apply State.sendPieces_keeps
    | with_reducible apply ite_keeps | with_reducible apply foldl_keeps
    | with_reducible refine getD_keeps (fun _ _ => ?_) ?_ | intro _ | cases ‹(_, _) = (_, _)› | cases ‹some _ = some _›
    | cases ‹none = some _›
    | fail_if_no_progress with_reducible refine mk_keeps ?_ rfl rfl rfl (by and_intros <;> first | exact .inr (by with_reducible rfl) | exact .inl (sub_of hp rfl)) | dsimp only | split
theorem State.loseModule_keeps {P : ℕ} {s0 s : State} (hp : 514 &&& P = 514) (h : Keeps P s0 s) (a1 : ℕ) : Keeps P s0 (State.loseModule s a1) := by
  unfold State.loseModule
  repeat' first
    | with_reducible assumption | exact sub_of hp rfl | exact rfl | with_reducible apply State.faultChange_keeps
    | with_reducible apply State.extEvent_keeps | with_reducible apply ite_keeps | with_reducible apply foldl_keeps
    | with_reducible refine getD_keeps (fun _ _ => ?_) ?_ | intro _ | cases ‹(_, _) = (_, _)› | cases ‹some _ = some _›
    | cases ‹none = some _›
    | fail_if_no_progress with_reducible refine mk_keeps ?_ rfl rfl rfl (by and_intros <;> first | exact .inr (by with_reducible rfl) | exact .inl (sub_of hp rfl)) | dsimp only | split
theorem State.routes_keeps {P : ℕ} {s0 s : State} (hp : 131602 &&& P = 131602) (h : Keeps P s0 s) : Keeps P s0 (State.routes s) := by
  unfold State.routes
  repeat' first
    | with_reducible assumption | exact sub_of hp rfl | exact rfl | with_reducible apply State.wr_keeps
    | with_reducible apply State.loseModule_keeps | with_reducible apply State.sendKeyx_keeps
    | with_reducible apply ite_keeps | with_reducible apply foldl_keeps
    | with_reducible refine getD_keeps (fun _ _ => ?_) ?_ | intro _ | cases ‹(_, _) = (_, _)› | cases ‹some _ = some _›
    | cases ‹none = some _›
    | fail_if_no_progress with_reducible refine mk_keeps ?_ rfl rfl rfl (by and_intros <;> first | exact .inr (by with_reducible rfl) | exact .inl (sub_of hp rfl)) | dsimp only | split
theorem State.adjacency_keeps {P : ℕ} {s0 s : State} (hp : 131602 &&& P = 131602) (h : Keeps P s0 s) : Keeps P s0 (State.adjacency s) := by
  unfold State.adjacency
  repeat' first
    | with_reducible assumption | exact sub_of hp rfl | exact rfl | with_reducible apply State.advertise_keeps
    | with_reducible apply State.routes_keeps | with_reducible apply ite_keeps | with_reducible apply foldl_keeps
    | with_reducible refine getD_keeps (fun _ _ => ?_) ?_ | intro _ | cases ‹(_, _) = (_, _)› | cases ‹some _ = some _›
    | cases ‹none = some _›
    | fail_if_no_progress with_reducible refine mk_keeps ?_ rfl rfl rfl (by and_intros <;> first | exact .inr (by with_reducible rfl) | exact .inl (sub_of hp rfl)) | dsimp only | split
theorem State.linkBreak_keeps {P : ℕ} {s0 s : State} (hp : 246290 &&& P = 246290) (h : Keeps P s0 s) (a1 : Cell) (a2 : ℕ) : Keeps P s0 (State.linkBreak s a1 a2) := by
  unfold State.linkBreak
  repeat' first
    | with_reducible assumption | exact sub_of hp rfl | exact rfl | with_reducible apply State.wr_keeps
    | with_reducible apply State.logStep_keeps | with_reducible apply State.inc_keeps
    | with_reducible apply State.endReissue_keeps | with_reducible apply State.absorbChain_keeps
    | with_reducible apply State.beginRecovery_keeps | with_reducible apply State.portOut_keeps
    | with_reducible apply State.linkReset_keeps | with_reducible apply State.logFault_keeps
    | with_reducible apply State.adjacency_keeps | with_reducible apply ite_keeps | with_reducible apply foldl_keeps
    | with_reducible refine getD_keeps (fun _ _ => ?_) ?_ | intro _ | cases ‹(_, _) = (_, _)› | cases ‹some _ = some _›
    | cases ‹none = some _›
    | fail_if_no_progress with_reducible refine mk_keeps ?_ rfl rfl rfl (by and_intros <;> first | exact .inr (by with_reducible rfl) | exact .inl (sub_of hp rfl)) | dsimp only | split
theorem execOnoraLeaveFrame_keeps_eq {P : ℕ} {s0 s t : State} (hp : 246290 &&& P = 246290) {a0 : Cell} (e : execOnoraLeaveFrame a0 s = .next t) (h : Keeps P s0 s) : Keeps P s0 t := by
  unfold execOnoraLeaveFrame at e
  repeat' first
    | cases ‹Host.Outcome.next _ = Host.Outcome.next _› | cases ‹Host.Outcome.refused _ = Host.Outcome.next _›
    | cases ‹Host.Outcome.fault _ = Host.Outcome.next _› | split at e | with_reducible assumption | exact sub_of hp rfl
    | exact rfl | with_reducible apply State.linkBreak_keeps | with_reducible apply ite_keeps
    | with_reducible apply foldl_keeps | with_reducible refine getD_keeps (fun _ _ => ?_) ?_ | intro _
    | cases ‹(_, _) = (_, _)› | cases ‹some _ = some _› | cases ‹none = some _›
    | fail_if_no_progress with_reducible refine mk_keeps ?_ rfl rfl rfl (by and_intros <;> first | exact .inr (by with_reducible rfl) | exact .inl (sub_of hp rfl)) | dsimp only | dsimp only at e | split
theorem execOnoraAlignMissing_keeps_eq {P : ℕ} {s0 s t : State} (hp : 246290 &&& P = 246290) {a0 : Cell} (e : execOnoraAlignMissing a0 s = .next t) (h : Keeps P s0 s) : Keeps P s0 t := by
  unfold execOnoraAlignMissing at e
  repeat' first
    | cases ‹Host.Outcome.next _ = Host.Outcome.next _› | cases ‹Host.Outcome.refused _ = Host.Outcome.next _›
    | cases ‹Host.Outcome.fault _ = Host.Outcome.next _› | split at e | with_reducible assumption | exact sub_of hp rfl
    | exact rfl | with_reducible apply State.linkBreak_keeps | with_reducible apply ite_keeps
    | with_reducible apply foldl_keeps | with_reducible refine getD_keeps (fun _ _ => ?_) ?_ | intro _
    | cases ‹(_, _) = (_, _)› | cases ‹some _ = some _› | cases ‹none = some _›
    | fail_if_no_progress with_reducible refine mk_keeps ?_ rfl rfl rfl (by and_intros <;> first | exact .inr (by with_reducible rfl) | exact .inl (sub_of hp rfl)) | dsimp only | dsimp only at e | split
theorem execOnoraCreditTimeout_keeps_eq {P : ℕ} {s0 s t : State} (hp : 246290 &&& P = 246290) {a0 : Cell} (e : execOnoraCreditTimeout a0 s = .next t) (h : Keeps P s0 s) : Keeps P s0 t := by
  unfold execOnoraCreditTimeout at e
  repeat' first
    | cases ‹Host.Outcome.next _ = Host.Outcome.next _› | cases ‹Host.Outcome.refused _ = Host.Outcome.next _›
    | cases ‹Host.Outcome.fault _ = Host.Outcome.next _› | split at e | with_reducible assumption | exact sub_of hp rfl
    | exact rfl | with_reducible apply State.linkBreak_keeps | with_reducible apply ite_keeps
    | with_reducible apply foldl_keeps | with_reducible refine getD_keeps (fun _ _ => ?_) ?_ | intro _
    | cases ‹(_, _) = (_, _)› | cases ‹some _ = some _› | cases ‹none = some _›
    | fail_if_no_progress with_reducible refine mk_keeps ?_ rfl rfl rfl (by and_intros <;> first | exact .inr (by with_reducible rfl) | exact .inl (sub_of hp rfl)) | dsimp only | dsimp only at e | split
theorem execOnoraFrameTimeout_keeps_eq {P : ℕ} {s0 s t : State} (hp : 246290 &&& P = 246290) {a0 : Cell} (e : execOnoraFrameTimeout a0 s = .next t) (h : Keeps P s0 s) : Keeps P s0 t := by
  unfold execOnoraFrameTimeout at e
  repeat' first
    | cases ‹Host.Outcome.next _ = Host.Outcome.next _› | cases ‹Host.Outcome.refused _ = Host.Outcome.next _›
    | cases ‹Host.Outcome.fault _ = Host.Outcome.next _› | split at e | with_reducible assumption | exact sub_of hp rfl
    | exact rfl | with_reducible apply State.linkBreak_keeps | with_reducible apply ite_keeps
    | with_reducible apply foldl_keeps | with_reducible refine getD_keeps (fun _ _ => ?_) ?_ | intro _
    | cases ‹(_, _) = (_, _)› | cases ‹some _ = some _› | cases ‹none = some _›
    | fail_if_no_progress with_reducible refine mk_keeps ?_ rfl rfl rfl (by and_intros <;> first | exact .inr (by with_reducible rfl) | exact .inl (sub_of hp rfl)) | dsimp only | dsimp only at e | split
theorem execOnoraAlignSend_keeps_eq {P : ℕ} {s0 s t : State} (hp : 16 &&& P = 16) {a0 : Cell} (e : execOnoraAlignSend a0 s = .next t) (h : Keeps P s0 s) : Keeps P s0 t := by
  unfold execOnoraAlignSend at e
  repeat' first
    | cases ‹Host.Outcome.next _ = Host.Outcome.next _› | cases ‹Host.Outcome.refused _ = Host.Outcome.next _›
    | cases ‹Host.Outcome.fault _ = Host.Outcome.next _› | split at e | with_reducible assumption | exact sub_of hp rfl
    | exact rfl | with_reducible apply State.emit_keeps | with_reducible apply ite_keeps
    | with_reducible apply foldl_keeps | with_reducible refine getD_keeps (fun _ _ => ?_) ?_ | intro _
    | cases ‹(_, _) = (_, _)› | cases ‹some _ = some _› | cases ‹none = some _›
    | fail_if_no_progress with_reducible refine mk_keeps ?_ rfl rfl rfl (by and_intros <;> first | exact .inr (by with_reducible rfl) | exact .inl (sub_of hp rfl)) | dsimp only | dsimp only at e | split
theorem State.ackTo_keeps {P : ℕ} {s0 s : State} (hp : 131090 &&& P = 131090) (h : Keeps P s0 s) (a1 : Cell) (a2 : ℕ) : Keeps P s0 (State.ackTo s a1 a2) := by
  unfold State.ackTo
  repeat' first
    | with_reducible assumption | exact sub_of hp rfl | exact rfl | with_reducible apply State.pump_keeps
    | with_reducible apply State.wr_keeps | with_reducible apply ite_keeps | with_reducible apply foldl_keeps
    | with_reducible refine getD_keeps (fun _ _ => ?_) ?_ | intro _ | cases ‹(_, _) = (_, _)› | cases ‹some _ = some _›
    | cases ‹none = some _›
    | fail_if_no_progress with_reducible refine mk_keeps ?_ rfl rfl rfl (by and_intros <;> first | exact .inr (by with_reducible rfl) | exact .inl (sub_of hp rfl)) | dsimp only | split
theorem State.nakFrom_keeps {P : ℕ} {s0 s : State} (hp : 246290 &&& P = 246290) (h : Keeps P s0 s) (a1 : Cell) (a2 : ℕ) : Keeps P s0 (State.nakFrom s a1 a2) := by
  unfold State.nakFrom
  repeat' first
    | with_reducible assumption | exact sub_of hp rfl | exact rfl | with_reducible apply State.ackTo_keeps
    | with_reducible apply State.linkBreak_keeps | with_reducible apply State.sendFrame_keeps
    | with_reducible apply State.sat_keeps | with_reducible apply ite_keeps | with_reducible apply foldl_keeps
    | with_reducible refine getD_keeps (fun _ _ => ?_) ?_ | intro _ | cases ‹(_, _) = (_, _)› | cases ‹some _ = some _›
    | cases ‹none = some _›
    | fail_if_no_progress with_reducible refine mk_keeps ?_ rfl rfl rfl (by and_intros <;> first | exact .inr (by with_reducible rfl) | exact .inl (sub_of hp rfl)) | dsimp only | split
theorem State.creditReport_keeps {P : ℕ} {s0 s : State} (hp : 131090 &&& P = 131090) (h : Keeps P s0 s) (a1 : Cell) (a2 : Vc × Fin 2 × Fin 512) : Keeps P s0 (State.creditReport s a1 a2) := by
  unfold State.creditReport
  repeat' first
    | with_reducible assumption | exact sub_of hp rfl | exact rfl | with_reducible apply State.pump_keeps
    | with_reducible apply State.sat_keeps | with_reducible apply ite_keeps | with_reducible apply foldl_keeps
    | with_reducible refine getD_keeps (fun _ _ => ?_) ?_ | intro _ | cases ‹(_, _) = (_, _)› | cases ‹some _ = some _›
    | cases ‹none = some _›
    | fail_if_no_progress with_reducible refine mk_keeps ?_ rfl rfl rfl (by and_intros <;> first | exact .inr (by with_reducible rfl) | exact .inl (sub_of hp rfl)) | dsimp only | split
theorem State.takeControl_keeps {P : ℕ} {s0 s : State} (hp : 246290 &&& P = 246290) (h : Keeps P s0 s) (a1 : Cell) (a2 : OCtl) : Keeps P s0 (State.takeControl s a1 a2) := by
  unfold State.takeControl
  repeat' first
    | with_reducible assumption | exact sub_of hp rfl | exact rfl | with_reducible apply State.ackTo_keeps
    | with_reducible apply State.creditReport_keeps | with_reducible apply State.nakFrom_keeps
    | with_reducible apply ite_keeps | with_reducible apply foldl_keeps
    | with_reducible refine getD_keeps (fun _ _ => ?_) ?_ | intro _ | cases ‹(_, _) = (_, _)› | cases ‹some _ = some _›
    | cases ‹none = some _›
    | fail_if_no_progress with_reducible refine mk_keeps ?_ rfl rfl rfl (by and_intros <;> first | exact .inr (by with_reducible rfl) | exact .inl (sub_of hp rfl)) | dsimp only | split
theorem State.frameFails_keeps {P : ℕ} {s0 s : State} (hp : 131090 &&& P = 131090) (h : Keeps P s0 s) (a1 : Cell) (a2 : Bool) : Keeps P s0 (State.frameFails s a1 a2) := by
  unfold State.frameFails
  repeat' first
    | with_reducible assumption | exact sub_of hp rfl | exact rfl | with_reducible apply State.sendNak_keeps
    | with_reducible apply State.sat_keeps | with_reducible apply ite_keeps | with_reducible apply foldl_keeps
    | with_reducible refine getD_keeps (fun _ _ => ?_) ?_ | intro _ | cases ‹(_, _) = (_, _)› | cases ‹some _ = some _›
    | cases ‹none = some _›
    | fail_if_no_progress with_reducible refine mk_keeps ?_ rfl rfl rfl (by and_intros <;> first | exact .inr (by with_reducible rfl) | exact .inl (sub_of hp rfl)) | dsimp only | split
theorem State.freeRx_keeps {P : ℕ} {s0 s : State} (hp : 131074 &&& P = 131074) (h : Keeps P s0 s) (a1 : Cell) (a2 : CPkt) : Keeps P s0 (State.freeRx s a1 a2) := by
  unfold State.freeRx
  repeat' first
    | with_reducible assumption | exact sub_of hp rfl | exact rfl | with_reducible apply State.dec_keeps
    | with_reducible apply ite_keeps | with_reducible apply foldl_keeps
    | with_reducible refine getD_keeps (fun _ _ => ?_) ?_ | intro _ | cases ‹(_, _) = (_, _)› | cases ‹some _ = some _›
    | cases ‹none = some _›
    | fail_if_no_progress with_reducible refine mk_keeps ?_ rfl rfl rfl (by and_intros <;> first | exact .inr (by with_reducible rfl) | exact .inl (sub_of hp rfl)) | dsimp only | split
theorem State.chainArrive_keeps {P : ℕ} {s0 s : State} (hp : 131602 &&& P = 131602) (h : Keeps P s0 s) (a1 : Cell) (a2 : CPkt) : Keeps P s0 (State.chainArrive s a1 a2) := by
  unfold State.chainArrive
  repeat' first
    | with_reducible assumption | exact sub_of hp rfl | exact rfl | with_reducible apply State.sendOnlabs_keeps
    | with_reducible apply State.inc_keeps | with_reducible apply State.absorbChain_keeps
    | with_reducible apply State.freeRx_keeps | with_reducible apply State.send_keeps | with_reducible apply ite_keeps
    | with_reducible apply foldl_keeps | with_reducible refine getD_keeps (fun _ _ => ?_) ?_ | intro _
    | cases ‹(_, _) = (_, _)› | cases ‹some _ = some _› | cases ‹none = some _›
    | fail_if_no_progress with_reducible refine mk_keeps ?_ rfl rfl rfl (by and_intros <;> first | exact .inr (by with_reducible rfl) | exact .inl (sub_of hp rfl)) | dsimp only | split
theorem State.chainTake_keeps {P : ℕ} {s0 s : State} (hp : 131074 &&& P = 131074) (h : Keeps P s0 s) (a1 : Cell) (a2 : CPkt) : Keeps P s0 (State.chainTake s a1 a2) := by
  unfold State.chainTake
  repeat' first
    | with_reducible assumption | exact sub_of hp rfl | exact rfl | with_reducible apply State.freeRx_keeps
    | with_reducible apply ite_keeps | with_reducible apply foldl_keeps
    | with_reducible refine getD_keeps (fun _ _ => ?_) ?_ | intro _ | cases ‹(_, _) = (_, _)› | cases ‹some _ = some _›
    | cases ‹none = some _›
    | fail_if_no_progress with_reducible refine mk_keeps ?_ rfl rfl rfl (by and_intros <;> first | exact .inr (by with_reducible rfl) | exact .inl (sub_of hp rfl)) | dsimp only | split
theorem State.takeSlotUnit_keeps {P : ℕ} {s0 s : State} (hp : 131602 &&& P = 131602) (h : Keeps P s0 s) (a1 : Cell) (a2 : OSlot) : Keeps P s0 (State.takeSlotUnit s a1 a2) := by
  unfold State.takeSlotUnit
  repeat' first
    | with_reducible assumption | exact sub_of hp rfl | exact rfl | with_reducible apply State.chainArrive_keeps
    | with_reducible apply State.sat_keeps | with_reducible apply ite_keeps | with_reducible apply foldl_keeps
    | with_reducible refine getD_keeps (fun _ _ => ?_) ?_ | intro _ | cases ‹(_, _) = (_, _)› | cases ‹some _ = some _›
    | cases ‹none = some _›
    | fail_if_no_progress with_reducible refine mk_keeps ?_ rfl rfl rfl (by and_intros <;> first | exact .inr (by with_reducible rfl) | exact .inl (sub_of hp rfl)) | dsimp only | split
theorem execOnoraDataFrame_keeps_eq {P : ℕ} {s0 s t : State} (hp : 246290 &&& P = 246290) {a0 : Cell} {a1 : OFrame} (e : execOnoraDataFrame a0 a1 s = .next t) (h : Keeps P s0 s) : Keeps P s0 t := by
  unfold execOnoraDataFrame at e
  repeat' first
    | cases ‹Host.Outcome.next _ = Host.Outcome.next _› | cases ‹Host.Outcome.refused _ = Host.Outcome.next _›
    | cases ‹Host.Outcome.fault _ = Host.Outcome.next _› | split at e | with_reducible assumption | exact sub_of hp rfl
    | exact rfl | with_reducible apply State.sendFrame_keeps | with_reducible apply State.frameFails_keeps
    | with_reducible apply State.wr_keeps | with_reducible apply State.takeSlotUnit_keeps
    | with_reducible apply State.inc_keeps | with_reducible apply State.takeControl_keeps | with_reducible apply ite_keeps
    | with_reducible apply foldl_keeps | with_reducible refine getD_keeps (fun _ _ => ?_) ?_ | intro _
    | cases ‹(_, _) = (_, _)› | cases ‹some _ = some _› | cases ‹none = some _›
    | fail_if_no_progress with_reducible refine mk_keeps ?_ rfl rfl rfl (by and_intros <;> first | exact .inr (by with_reducible rfl) | exact .inl (sub_of hp rfl)) | dsimp only | dsimp only at e | split
theorem execOnoraIdleFrame_keeps_eq {P : ℕ} {s0 s t : State} (hp : 246290 &&& P = 246290) {a0 : Cell} {a1 : Bool} {a2 : OCtl} (e : execOnoraIdleFrame a0 a1 a2 s = .next t) (h : Keeps P s0 s) : Keeps P s0 t := by
  unfold execOnoraIdleFrame at e
  repeat' first
    | cases ‹Host.Outcome.next _ = Host.Outcome.next _› | cases ‹Host.Outcome.refused _ = Host.Outcome.next _›
    | cases ‹Host.Outcome.fault _ = Host.Outcome.next _› | split at e | with_reducible assumption | exact sub_of hp rfl
    | exact rfl | with_reducible apply State.frameFails_keeps | with_reducible apply State.takeControl_keeps
    | with_reducible apply ite_keeps | with_reducible apply foldl_keeps
    | with_reducible refine getD_keeps (fun _ _ => ?_) ?_ | intro _ | cases ‹(_, _) = (_, _)› | cases ‹some _ = some _›
    | cases ‹none = some _›
    | fail_if_no_progress with_reducible refine mk_keeps ?_ rfl rfl rfl (by and_intros <;> first | exact .inr (by with_reducible rfl) | exact .inl (sub_of hp rfl)) | dsimp only | dsimp only at e | split
theorem execOnoraAckTimer_keeps_eq {P : ℕ} {s0 s t : State} (hp : 131088 &&& P = 131088) {a0 : Cell} (e : execOnoraAckTimer a0 s = .next t) (h : Keeps P s0 s) : Keeps P s0 t := by
  unfold execOnoraAckTimer at e
  repeat' first
    | cases ‹Host.Outcome.next _ = Host.Outcome.next _› | cases ‹Host.Outcome.refused _ = Host.Outcome.next _›
    | cases ‹Host.Outcome.fault _ = Host.Outcome.next _› | split at e | with_reducible assumption | exact sub_of hp rfl
    | exact rfl | with_reducible apply State.sendFrame_keeps | with_reducible apply ite_keeps
    | with_reducible apply foldl_keeps | with_reducible refine getD_keeps (fun _ _ => ?_) ?_ | intro _
    | cases ‹(_, _) = (_, _)› | cases ‹some _ = some _› | cases ‹none = some _›
    | fail_if_no_progress with_reducible refine mk_keeps ?_ rfl rfl rfl (by and_intros <;> first | exact .inr (by with_reducible rfl) | exact .inl (sub_of hp rfl)) | dsimp only | dsimp only at e | split
theorem execOnoraNakRepeat_keeps_eq {P : ℕ} {s0 s t : State} (hp : 131090 &&& P = 131090) {a0 : Cell} (e : execOnoraNakRepeat a0 s = .next t) (h : Keeps P s0 s) : Keeps P s0 t := by
  unfold execOnoraNakRepeat at e
  repeat' first
    | cases ‹Host.Outcome.next _ = Host.Outcome.next _› | cases ‹Host.Outcome.refused _ = Host.Outcome.next _›
    | cases ‹Host.Outcome.fault _ = Host.Outcome.next _› | split at e | with_reducible assumption | exact sub_of hp rfl
    | exact rfl | with_reducible apply State.sendNak_keeps | with_reducible apply ite_keeps
    | with_reducible apply foldl_keeps | with_reducible refine getD_keeps (fun _ _ => ?_) ?_ | intro _
    | cases ‹(_, _) = (_, _)› | cases ‹some _ = some _› | cases ‹none = some _›
    | fail_if_no_progress with_reducible refine mk_keeps ?_ rfl rfl rfl (by and_intros <;> first | exact .inr (by with_reducible rfl) | exact .inl (sub_of hp rfl)) | dsimp only | dsimp only at e | split
theorem execOnoraTrainingBlock_keeps_eq {P : ℕ} {s0 s t : State} (hp : 131090 &&& P = 131090) {a0 : Cell} {a1 : Fin 16} {a2 : TrainBlock} (e : execOnoraTrainingBlock a0 a1 a2 s = .next t) (h : Keeps P s0 s) : Keeps P s0 t := by
  unfold execOnoraTrainingBlock at e
  repeat' first
    | cases ‹Host.Outcome.next _ = Host.Outcome.next _› | cases ‹Host.Outcome.refused _ = Host.Outcome.next _›
    | cases ‹Host.Outcome.fault _ = Host.Outcome.next _› | split at e | with_reducible assumption | exact sub_of hp rfl
    | exact rfl | with_reducible apply State.setCoefs_keeps | with_reducible apply State.trainFail_keeps
    | with_reducible apply State.wr_keeps | with_reducible apply State.wrb_keeps | with_reducible apply State.emit_keeps
    | with_reducible apply ite_keeps | with_reducible apply foldl_keeps
    | with_reducible refine getD_keeps (fun _ _ => ?_) ?_ | intro _ | cases ‹(_, _) = (_, _)› | cases ‹some _ = some _›
    | cases ‹none = some _›
    | fail_if_no_progress with_reducible refine mk_keeps ?_ rfl rfl rfl (by and_intros <;> first | exact .inr (by with_reducible rfl) | exact .inl (sub_of hp rfl)) | dsimp only | dsimp only at e | split
theorem State.linkTrained_keeps {P : ℕ} {s0 s : State} (hp : 245762 &&& P = 245762) (h : Keeps P s0 s) (a1 : Cell) (a2 : ℕ) (a3 : ℕ) (a4 : Bool) : Keeps P s0 (State.linkTrained s a1 a2 a3 a4) := by
  unfold State.linkTrained
  repeat' first
    | with_reducible assumption | exact sub_of hp rfl | exact rfl | with_reducible apply State.portL0_keeps
    | with_reducible apply State.logYield_keeps | with_reducible apply State.wr_keeps
    | with_reducible apply State.trainEnds_keeps | with_reducible apply State.linkReset_keeps
    | with_reducible apply ite_keeps | with_reducible apply foldl_keeps
    | with_reducible refine getD_keeps (fun _ _ => ?_) ?_ | intro _ | cases ‹(_, _) = (_, _)› | cases ‹some _ = some _›
    | cases ‹none = some _›
    | fail_if_no_progress with_reducible refine mk_keeps ?_ rfl rfl rfl (by and_intros <;> first | exact .inr (by with_reducible rfl) | exact .inl (sub_of hp rfl)) | dsimp only | split
theorem State.linkComesUp_keeps {P : ℕ} {s0 s : State} (hp : 246290 &&& P = 246290) (h : Keeps P s0 s) (a1 : Cell) (a2 : ℕ) : Keeps P s0 (State.linkComesUp s a1 a2) := by
  unfold State.linkComesUp
  repeat' first
    | with_reducible assumption | exact sub_of hp rfl | exact rfl | with_reducible apply State.linkTrained_keeps
    | with_reducible apply State.wr_keeps | with_reducible apply State.wrb_keeps
    | with_reducible apply State.adjacency_keeps | with_reducible apply ite_keeps | with_reducible apply foldl_keeps
    | with_reducible refine getD_keeps (fun _ _ => ?_) ?_ | intro _ | cases ‹(_, _) = (_, _)› | cases ‹some _ = some _›
    | cases ‹none = some _›
    | fail_if_no_progress with_reducible refine mk_keeps ?_ rfl rfl rfl (by and_intros <;> first | exact .inr (by with_reducible rfl) | exact .inl (sub_of hp rfl)) | dsimp only | split
theorem execOnoraTrainStateComplete_keeps_eq {P : ℕ} {s0 s t : State} (hp : 246290 &&& P = 246290) {a0 : Cell} {a1 : OParam} {a2 : BitVec 12} (e : execOnoraTrainStateComplete a0 a1 a2 s = .next t) (h : Keeps P s0 s) : Keeps P s0 t := by
  unfold execOnoraTrainStateComplete at e
  repeat' first
    | cases ‹Host.Outcome.next _ = Host.Outcome.next _› | cases ‹Host.Outcome.refused _ = Host.Outcome.next _›
    | cases ‹Host.Outcome.fault _ = Host.Outcome.next _› | split at e | with_reducible assumption | exact sub_of hp rfl
    | exact rfl | with_reducible apply State.wr_keeps | with_reducible apply State.startPreset_keeps
    | with_reducible apply State.linkComesUp_keeps | with_reducible apply State.trainEnds_keeps
    | with_reducible apply State.logFault_keeps | with_reducible apply ite_keeps | with_reducible apply foldl_keeps
    | with_reducible refine getD_keeps (fun _ _ => ?_) ?_ | intro _ | cases ‹(_, _) = (_, _)› | cases ‹some _ = some _›
    | cases ‹none = some _›
    | fail_if_no_progress with_reducible refine mk_keeps ?_ rfl rfl rfl (by and_intros <;> first | exact .inr (by with_reducible rfl) | exact .inl (sub_of hp rfl)) | dsimp only | dsimp only at e | split
theorem execOnoraTrainTimeout_keeps_eq {P : ℕ} {s0 s t : State} (hp : 131074 &&& P = 131074) {a0 : Cell} (e : execOnoraTrainTimeout a0 s = .next t) (h : Keeps P s0 s) : Keeps P s0 t := by
  unfold execOnoraTrainTimeout at e
  repeat' first
    | cases ‹Host.Outcome.next _ = Host.Outcome.next _› | cases ‹Host.Outcome.refused _ = Host.Outcome.next _›
    | cases ‹Host.Outcome.fault _ = Host.Outcome.next _› | split at e | with_reducible assumption | exact sub_of hp rfl
    | exact rfl | with_reducible apply State.trainFail_keeps | with_reducible apply ite_keeps
    | with_reducible apply foldl_keeps | with_reducible refine getD_keeps (fun _ _ => ?_) ?_ | intro _
    | cases ‹(_, _) = (_, _)› | cases ‹some _ = some _› | cases ‹none = some _›
    | fail_if_no_progress with_reducible refine mk_keeps ?_ rfl rfl rfl (by and_intros <;> first | exact .inr (by with_reducible rfl) | exact .inl (sub_of hp rfl)) | dsimp only | dsimp only at e | split
theorem execOnoraTrainRetry_keeps_eq {P : ℕ} {s0 s t : State} (hp : 131074 &&& P = 131074) {a0 : Cell} (e : execOnoraTrainRetry a0 s = .next t) (h : Keeps P s0 s) : Keeps P s0 t := by
  unfold execOnoraTrainRetry at e
  repeat' first
    | cases ‹Host.Outcome.next _ = Host.Outcome.next _› | cases ‹Host.Outcome.refused _ = Host.Outcome.next _›
    | cases ‹Host.Outcome.fault _ = Host.Outcome.next _› | split at e | with_reducible assumption | exact sub_of hp rfl
    | exact rfl | with_reducible apply State.trainStart_keeps | with_reducible apply ite_keeps
    | with_reducible apply foldl_keeps | with_reducible refine getD_keeps (fun _ _ => ?_) ?_ | intro _
    | cases ‹(_, _) = (_, _)› | cases ‹some _ = some _› | cases ‹none = some _›
    | fail_if_no_progress with_reducible refine mk_keeps ?_ rfl rfl rfl (by and_intros <;> first | exact .inr (by with_reducible rfl) | exact .inl (sub_of hp rfl)) | dsimp only | dsimp only at e | split
theorem execOnoraSignalRegained_keeps_eq {P : ℕ} {s0 s t : State} (hp : 131074 &&& P = 131074) {a0 : Cell} (e : execOnoraSignalRegained a0 s = .next t) (h : Keeps P s0 s) : Keeps P s0 t := by
  unfold execOnoraSignalRegained at e
  repeat' first
    | cases ‹Host.Outcome.next _ = Host.Outcome.next _› | cases ‹Host.Outcome.refused _ = Host.Outcome.next _›
    | cases ‹Host.Outcome.fault _ = Host.Outcome.next _› | split at e | with_reducible assumption | exact sub_of hp rfl
    | exact rfl | with_reducible apply State.trainStart_keeps | with_reducible apply ite_keeps
    | with_reducible apply foldl_keeps | with_reducible refine getD_keeps (fun _ _ => ?_) ?_ | intro _
    | cases ‹(_, _) = (_, _)› | cases ‹some _ = some _› | cases ‹none = some _›
    | fail_if_no_progress with_reducible refine mk_keeps ?_ rfl rfl rfl (by and_intros <;> first | exact .inr (by with_reducible rfl) | exact .inl (sub_of hp rfl)) | dsimp only | dsimp only at e | split
theorem State.retrain_keeps {P : ℕ} {s0 s : State} (hp : 246290 &&& P = 246290) (h : Keeps P s0 s) (a1 : Cell) : Keeps P s0 (State.retrain s a1) := by
  unfold State.retrain
  repeat' first
    | with_reducible assumption | exact sub_of hp rfl | exact rfl | with_reducible apply State.linkBreak_keeps
    | with_reducible apply State.wr_keeps | with_reducible apply State.trainStart_keeps
    | with_reducible apply State.flag_keeps | with_reducible apply State.portOut_keeps
    | with_reducible apply State.linkReset_keeps | with_reducible apply State.adjacency_keeps
    | with_reducible apply ite_keeps | with_reducible apply foldl_keeps
    | with_reducible refine getD_keeps (fun _ _ => ?_) ?_ | intro _ | cases ‹(_, _) = (_, _)› | cases ‹some _ = some _›
    | cases ‹none = some _›
    | fail_if_no_progress with_reducible refine mk_keeps ?_ rfl rfl rfl (by and_intros <;> first | exact .inr (by with_reducible rfl) | exact .inl (sub_of hp rfl)) | dsimp only | split
theorem execOnoraRetrain_keeps_eq {P : ℕ} {s0 s t : State} (hp : 246290 &&& P = 246290) {a0 : Src} {a1 : Cell} (e : execOnoraRetrain a0 a1 s = .next t) (h : Keeps P s0 s) : Keeps P s0 t := by
  unfold execOnoraRetrain at e
  repeat' first
    | cases ‹Host.Outcome.next _ = Host.Outcome.next _› | cases ‹Host.Outcome.refused _ = Host.Outcome.next _›
    | cases ‹Host.Outcome.fault _ = Host.Outcome.next _› | split at e | with_reducible assumption | exact sub_of hp rfl
    | exact rfl | with_reducible apply State.ifMay_keeps | with_reducible apply State.retrain_keeps
    | with_reducible apply ite_keeps | with_reducible apply foldl_keeps
    | with_reducible refine getD_keeps (fun _ _ => ?_) ?_ | intro _ | cases ‹(_, _) = (_, _)› | cases ‹some _ = some _›
    | cases ‹none = some _›
    | fail_if_no_progress with_reducible refine mk_keeps ?_ rfl rfl rfl (by and_intros <;> first | exact .inr (by with_reducible rfl) | exact .inl (sub_of hp rfl)) | dsimp only | dsimp only at e | split
theorem execOnoraLeaveSend_keeps_eq {P : ℕ} {s0 s t : State} (hp : 131088 &&& P = 131088) (e : execOnoraLeaveSend s = .next t) (h : Keeps P s0 s) : Keeps P s0 t := by
  unfold execOnoraLeaveSend at e
  repeat' first
    | cases ‹Host.Outcome.next _ = Host.Outcome.next _› | cases ‹Host.Outcome.refused _ = Host.Outcome.next _›
    | cases ‹Host.Outcome.fault _ = Host.Outcome.next _› | split at e | with_reducible assumption | exact sub_of hp rfl
    | exact rfl | with_reducible apply State.sendFrame_keeps | with_reducible apply ite_keeps
    | with_reducible apply foldl_keeps | with_reducible refine getD_keeps (fun _ _ => ?_) ?_ | intro _
    | cases ‹(_, _) = (_, _)› | cases ‹some _ = some _› | cases ‹none = some _›
    | fail_if_no_progress with_reducible refine mk_keeps ?_ rfl rfl rfl (by and_intros <;> first | exact .inr (by with_reducible rfl) | exact .inl (sub_of hp rfl)) | dsimp only | dsimp only at e | split
theorem execOnlabs_keeps_eq {P : ℕ} {s0 s t : State} (hp : 5303818 &&& P = 5303818) {a0 : Pkt} (e : execOnlabs a0 s = .next t) (h : Keeps P s0 s) : Keeps P s0 t := by
  unfold execOnlabs at e
  repeat' first
    | cases ‹Host.Outcome.next _ = Host.Outcome.next _› | cases ‹Host.Outcome.refused _ = Host.Outcome.next _›
    | cases ‹Host.Outcome.fault _ = Host.Outcome.next _› | split at e | with_reducible assumption | exact sub_of hp rfl
    | exact rfl | with_reducible apply State.reissue_keeps | with_reducible apply State.arrive_keeps
    | with_reducible apply State.endReissue_keeps | with_reducible apply ite_keeps | with_reducible apply foldl_keeps
    | with_reducible refine getD_keeps (fun _ _ => ?_) ?_ | intro _ | cases ‹(_, _) = (_, _)› | cases ‹some _ = some _›
    | cases ‹none = some _›
    | fail_if_no_progress with_reducible refine mk_keeps ?_ rfl rfl rfl (by and_intros <;> first | exact .inr (by with_reducible rfl) | exact .inl (sub_of hp rfl)) | dsimp only | dsimp only at e | split
theorem State.advConflict_keeps {P : ℕ} {s0 s : State} (hp : 147986 &&& P = 147986) (h : Keeps P s0 s) (a1 : ℕ) (a2 : List (ℕ × ℕ × ℕ)) : Keeps P s0 (State.advConflict s a1 a2) := by
  unfold State.advConflict
  repeat' first
    | with_reducible assumption | exact sub_of hp rfl | exact rfl | with_reducible apply State.routes_keeps
    | with_reducible apply State.wr_keeps | with_reducible apply State.logFault_keeps | with_reducible apply ite_keeps
    | with_reducible apply foldl_keeps | with_reducible refine getD_keeps (fun _ _ => ?_) ?_ | intro _
    | cases ‹(_, _) = (_, _)› | cases ‹some _ = some _› | cases ‹none = some _›
    | fail_if_no_progress with_reducible refine mk_keeps ?_ rfl rfl rfl (by and_intros <;> first | exact .inr (by with_reducible rfl) | exact .inl (sub_of hp rfl)) | dsimp only | split
theorem State.keepAdv_keeps {P : ℕ} {s0 s : State} (hp : 131602 &&& P = 131602) (h : Keeps P s0 s) (a1 : CPkt) (a2 : Line) (a3 : ℕ) (a4 : ℕ) (a5 : ℕ) : Keeps P s0 (State.keepAdv s a1 a2 a3 a4 a5) := by
  unfold State.keepAdv
  repeat' first
    | with_reducible assumption | exact sub_of hp rfl | exact rfl | with_reducible apply State.routes_keeps
    | with_reducible apply State.flood_keeps | with_reducible apply ite_keeps | with_reducible apply foldl_keeps
    | with_reducible refine getD_keeps (fun _ _ => ?_) ?_ | intro _ | cases ‹(_, _) = (_, _)› | cases ‹some _ = some _›
    | cases ‹none = some _›
    | fail_if_no_progress with_reducible refine mk_keeps ?_ rfl rfl rfl (by and_intros <;> first | exact .inr (by with_reducible rfl) | exact .inl (sub_of hp rfl)) | dsimp only | split
theorem execRouteadv_keeps_eq {P : ℕ} {s0 s t : State} (hp : 147986 &&& P = 147986) {a0 : Cell} {a1 : CPkt} (e : execRouteadv a0 a1 s = .next t) (h : Keeps P s0 s) : Keeps P s0 t := by
  unfold execRouteadv at e
  repeat' first
    | cases ‹Host.Outcome.next _ = Host.Outcome.next _› | cases ‹Host.Outcome.refused _ = Host.Outcome.next _›
    | cases ‹Host.Outcome.fault _ = Host.Outcome.next _› | split at e | with_reducible assumption | exact sub_of hp rfl
    | exact rfl | with_reducible apply State.advConflict_keeps | with_reducible apply State.chainTake_keeps
    | with_reducible apply State.keepAdv_keeps | with_reducible apply ite_keeps | with_reducible apply foldl_keeps
    | with_reducible refine getD_keeps (fun _ _ => ?_) ?_ | intro _ | cases ‹(_, _) = (_, _)› | cases ‹some _ = some _›
    | cases ‹none = some _›
    | fail_if_no_progress with_reducible refine mk_keeps ?_ rfl rfl rfl (by and_intros <;> first | exact .inr (by with_reducible rfl) | exact .inl (sub_of hp rfl)) | dsimp only | dsimp only at e | split
theorem execRouteadvPeriodic_keeps_eq {P : ℕ} {s0 s t : State} (hp : 131090 &&& P = 131090) (e : execRouteadvPeriodic s = .next t) (h : Keeps P s0 s) : Keeps P s0 t := by
  unfold execRouteadvPeriodic at e
  repeat' first
    | cases ‹Host.Outcome.next _ = Host.Outcome.next _› | cases ‹Host.Outcome.refused _ = Host.Outcome.next _›
    | cases ‹Host.Outcome.fault _ = Host.Outcome.next _› | split at e | with_reducible assumption | exact sub_of hp rfl
    | exact rfl | with_reducible apply State.advertise_keeps | with_reducible apply ite_keeps
    | with_reducible apply foldl_keeps | with_reducible refine getD_keeps (fun _ _ => ?_) ?_ | intro _
    | cases ‹(_, _) = (_, _)› | cases ‹some _ = some _› | cases ‹none = some _›
    | fail_if_no_progress with_reducible refine mk_keeps ?_ rfl rfl rfl (by and_intros <;> first | exact .inr (by with_reducible rfl) | exact .inl (sub_of hp rfl)) | dsimp only | dsimp only at e | split
theorem execRouteadvStale_keeps_eq {P : ℕ} {s0 s t : State} (hp : 131602 &&& P = 131602) {a0 : Fin 32} (e : execRouteadvStale a0 s = .next t) (h : Keeps P s0 s) : Keeps P s0 t := by
  unfold execRouteadvStale at e
  repeat' first
    | cases ‹Host.Outcome.next _ = Host.Outcome.next _› | cases ‹Host.Outcome.refused _ = Host.Outcome.next _›
    | cases ‹Host.Outcome.fault _ = Host.Outcome.next _› | split at e | with_reducible assumption | exact sub_of hp rfl
    | exact rfl | with_reducible apply State.routes_keeps | with_reducible apply ite_keeps
    | with_reducible apply foldl_keeps | with_reducible refine getD_keeps (fun _ _ => ?_) ?_ | intro _
    | cases ‹(_, _) = (_, _)› | cases ‹some _ = some _› | cases ‹none = some _›
    | fail_if_no_progress with_reducible refine mk_keeps ?_ rfl rfl rfl (by and_intros <;> first | exact .inr (by with_reducible rfl) | exact .inl (sub_of hp rfl)) | dsimp only | dsimp only at e | split
theorem execAddrConflictClear_keeps_eq {P : ℕ} {s0 s t : State} (hp : 131602 &&& P = 131602) {a0 : Fin 32} (e : execAddrConflictClear a0 s = .next t) (h : Keeps P s0 s) : Keeps P s0 t := by
  unfold execAddrConflictClear at e
  repeat' first
    | cases ‹Host.Outcome.next _ = Host.Outcome.next _› | cases ‹Host.Outcome.refused _ = Host.Outcome.next _›
    | cases ‹Host.Outcome.fault _ = Host.Outcome.next _› | split at e | with_reducible assumption | exact sub_of hp rfl
    | exact rfl | with_reducible apply State.routes_keeps | with_reducible apply State.wr_keeps
    | with_reducible apply ite_keeps | with_reducible apply foldl_keeps
    | with_reducible refine getD_keeps (fun _ _ => ?_) ?_ | intro _ | cases ‹(_, _) = (_, _)› | cases ‹some _ = some _›
    | cases ‹none = some _›
    | fail_if_no_progress with_reducible refine mk_keeps ?_ rfl rfl rfl (by and_intros <;> first | exact .inr (by with_reducible rfl) | exact .inl (sub_of hp rfl)) | dsimp only | dsimp only at e | split
theorem execChainEpochClose_keeps_eq {P : ℕ} {s0 s t : State} (hp : 131602 &&& P = 131602) (e : execChainEpochClose s = .next t) (h : Keeps P s0 s) : Keeps P s0 t := by
  unfold execChainEpochClose at e
  repeat' first
    | cases ‹Host.Outcome.next _ = Host.Outcome.next _› | cases ‹Host.Outcome.refused _ = Host.Outcome.next _›
    | cases ‹Host.Outcome.fault _ = Host.Outcome.next _› | split at e | with_reducible assumption | exact sub_of hp rfl
    | exact rfl | with_reducible apply State.inc_keeps | with_reducible apply State.absorbChain_keeps
    | with_reducible apply ite_keeps | with_reducible apply foldl_keeps
    | with_reducible refine getD_keeps (fun _ _ => ?_) ?_ | intro _ | cases ‹(_, _) = (_, _)› | cases ‹some _ = some _›
    | cases ‹none = some _›
    | fail_if_no_progress with_reducible refine mk_keeps ?_ rfl rfl rfl (by and_intros <;> first | exact .inr (by with_reducible rfl) | exact .inl (sub_of hp rfl)) | dsimp only | dsimp only at e | split
theorem execProbeSend_keeps_eq {P : ℕ} {s0 s t : State} (hp : 131602 &&& P = 131602) (e : execProbeSend s = .next t) (h : Keeps P s0 s) : Keeps P s0 t := by
  unfold execProbeSend at e
  repeat' first
    | cases ‹Host.Outcome.next _ = Host.Outcome.next _› | cases ‹Host.Outcome.refused _ = Host.Outcome.next _›
    | cases ‹Host.Outcome.fault _ = Host.Outcome.next _› | split at e | with_reducible assumption | exact sub_of hp rfl
    | exact rfl | with_reducible apply State.chainNew_keeps | with_reducible apply ite_keeps
    | with_reducible apply foldl_keeps | with_reducible refine getD_keeps (fun _ _ => ?_) ?_ | intro _
    | cases ‹(_, _) = (_, _)› | cases ‹some _ = some _› | cases ‹none = some _›
    | fail_if_no_progress with_reducible refine mk_keeps ?_ rfl rfl rfl (by and_intros <;> first | exact .inr (by with_reducible rfl) | exact .inl (sub_of hp rfl)) | dsimp only | dsimp only at e | split
theorem execProbe_keeps_eq {P : ℕ} {s0 s t : State} (hp : 131602 &&& P = 131602) {a0 : Cell} {a1 : CPkt} {a2 : Fin 61} (e : execProbe a0 a1 a2 s = .next t) (h : Keeps P s0 s) : Keeps P s0 t := by
  unfold execProbe at e
  repeat' first
    | cases ‹Host.Outcome.next _ = Host.Outcome.next _› | cases ‹Host.Outcome.refused _ = Host.Outcome.next _›
    | cases ‹Host.Outcome.fault _ = Host.Outcome.next _› | split at e | with_reducible assumption | exact sub_of hp rfl
    | exact rfl | with_reducible apply State.chainNew_keeps | with_reducible apply State.chainTake_keeps
    | with_reducible apply ite_keeps | with_reducible apply foldl_keeps
    | with_reducible refine getD_keeps (fun _ _ => ?_) ?_ | intro _ | cases ‹(_, _) = (_, _)› | cases ‹some _ = some _›
    | cases ‹none = some _›
    | fail_if_no_progress with_reducible refine mk_keeps ?_ rfl rfl rfl (by and_intros <;> first | exact .inr (by with_reducible rfl) | exact .inl (sub_of hp rfl)) | dsimp only | dsimp only at e | split
theorem execProbersp_keeps_eq {P : ℕ} {s0 s t : State} (hp : 147458 &&& P = 147458) {a0 : Cell} {a1 : CPkt} (e : execProbersp a0 a1 s = .next t) (h : Keeps P s0 s) : Keeps P s0 t := by
  unfold execProbersp at e
  repeat' first
    | cases ‹Host.Outcome.next _ = Host.Outcome.next _› | cases ‹Host.Outcome.refused _ = Host.Outcome.next _›
    | cases ‹Host.Outcome.fault _ = Host.Outcome.next _› | split at e | with_reducible assumption | exact sub_of hp rfl
    | exact rfl | with_reducible apply State.logYield_keeps | with_reducible apply State.wr_keeps
    | with_reducible apply State.chainTake_keeps | with_reducible apply State.wrb_keeps | with_reducible apply ite_keeps
    | with_reducible apply foldl_keeps | with_reducible refine getD_keeps (fun _ _ => ?_) ?_ | intro _
    | cases ‹(_, _) = (_, _)› | cases ‹some _ = some _› | cases ‹none = some _›
    | fail_if_no_progress with_reducible refine mk_keeps ?_ rfl rfl rfl (by and_intros <;> first | exact .inr (by with_reducible rfl) | exact .inl (sub_of hp rfl)) | dsimp only | dsimp only at e | split
theorem State.sendAck_keeps {P : ℕ} {s0 s : State} (hp : 131602 &&& P = 131602) (h : Keeps P s0 s) (a1 : Cell) (a2 : Opc) (a3 : Fin 32) (a4 : ℕ) (a5 : ℕ) : Keeps P s0 (State.sendAck s a1 a2 a3 a4 a5) := by
  unfold State.sendAck
  repeat' first
    | with_reducible assumption | exact sub_of hp rfl | exact rfl | with_reducible apply State.chainNew_keeps
    | with_reducible apply ite_keeps | with_reducible apply foldl_keeps
    | with_reducible refine getD_keeps (fun _ _ => ?_) ?_ | intro _ | cases ‹(_, _) = (_, _)› | cases ‹some _ = some _›
    | cases ‹none = some _›
    | fail_if_no_progress with_reducible refine mk_keeps ?_ rfl rfl rfl (by and_intros <;> first | exact .inr (by with_reducible rfl) | exact .inl (sub_of hp rfl)) | dsimp only | split
theorem State.acceptBlob_keeps_eq {P : ℕ} {s0 s t : State} (hp : 655360 &&& P = 655360) {a1 : ℕ} {a2 : Blob} (e : State.acceptBlob s a1 a2 = some t) (h : Keeps P s0 s) : Keeps P s0 t := by
  unfold State.acceptBlob at e
  repeat' first
    | split at e | with_reducible assumption | exact sub_of hp rfl | exact rfl | with_reducible apply State.sendNote_keeps
    | with_reducible apply State.setLife_keeps | with_reducible apply ite_keeps | with_reducible apply foldl_keeps
    | with_reducible refine getD_keeps (fun _ _ => ?_) ?_ | intro _ | cases ‹(_, _) = (_, _)› | cases ‹some _ = some _›
    | cases ‹none = some _›
    | fail_if_no_progress with_reducible refine mk_keeps ?_ rfl rfl rfl (by and_intros <;> first | exact .inr (by with_reducible rfl) | exact .inl (sub_of hp rfl)) | dsimp only | dsimp only at e | split
theorem execBlob_keeps_eq {P : ℕ} {s0 s t : State} (hp : 655890 &&& P = 655890) {a0 : Cell} {a1 : CPkt} {a2 : Option Blob} (e : execBlob a0 a1 a2 s = .next t) (h : Keeps P s0 s) : Keeps P s0 t := by
  unfold execBlob at e
  repeat' first
    | cases ‹Host.Outcome.next _ = Host.Outcome.next _› | cases ‹Host.Outcome.refused _ = Host.Outcome.next _›
    | cases ‹Host.Outcome.fault _ = Host.Outcome.next _› | split at e | with_reducible assumption | exact sub_of hp rfl
    | exact rfl | refine State.acceptBlob_keeps_eq (sub_of hp rfl) (by assumption) ?_
    | with_reducible apply State.sendAck_keeps | with_reducible apply State.chainTake_keeps
    | with_reducible apply ite_keeps | with_reducible apply foldl_keeps
    | with_reducible refine getD_keeps (fun _ _ => ?_) ?_ | intro _ | cases ‹(_, _) = (_, _)› | cases ‹some _ = some _›
    | cases ‹none = some _›
    | fail_if_no_progress with_reducible refine mk_keeps ?_ rfl rfl rfl (by and_intros <;> first | exact .inr (by with_reducible rfl) | exact .inl (sub_of hp rfl)) | dsimp only | dsimp only at e | split
theorem execBlobAck_keeps_eq {P : ℕ} {s0 s t : State} (hp : 3818002 &&& P = 3818002) {a0 : Cell} {a1 : CPkt} (e : execBlobAck a0 a1 s = .next t) (h : Keeps P s0 s) : Keeps P s0 t := by
  unfold execBlobAck at e
  repeat' first
    | cases ‹Host.Outcome.next _ = Host.Outcome.next _› | cases ‹Host.Outcome.refused _ = Host.Outcome.next _›
    | cases ‹Host.Outcome.fault _ = Host.Outcome.next _› | split at e | with_reducible assumption | exact sub_of hp rfl
    | exact rfl | with_reducible apply State.regionCommit_keeps | with_reducible apply State.wr_keeps
    | with_reducible apply State.setOwner_keeps | with_reducible apply State.freeVppb_keeps
    | with_reducible apply State.migEnd_keeps | with_reducible apply State.chainTake_keeps
    | with_reducible apply State.emit_keeps | with_reducible apply ite_keeps | with_reducible apply foldl_keeps
    | with_reducible refine getD_keeps (fun _ _ => ?_) ?_ | intro _ | cases ‹(_, _) = (_, _)› | cases ‹some _ = some _›
    | cases ‹none = some _›
    | fail_if_no_progress with_reducible refine mk_keeps ?_ rfl rfl rfl (by and_intros <;> first | exact .inr (by with_reducible rfl) | exact .inl (sub_of hp rfl)) | dsimp only | dsimp only at e | split
theorem execBlobRetransmit_keeps_eq {P : ℕ} {s0 s t : State} (hp : 131602 &&& P = 131602) {a0 : Inst} (e : execBlobRetransmit a0 s = .next t) (h : Keeps P s0 s) : Keeps P s0 t := by
  unfold execBlobRetransmit at e
  repeat' first
    | cases ‹Host.Outcome.next _ = Host.Outcome.next _› | cases ‹Host.Outcome.refused _ = Host.Outcome.next _›
    | cases ‹Host.Outcome.fault _ = Host.Outcome.next _› | split at e | with_reducible assumption | exact sub_of hp rfl
    | exact rfl | with_reducible apply State.sendPieces_keeps | with_reducible apply ite_keeps
    | with_reducible apply foldl_keeps | with_reducible refine getD_keeps (fun _ _ => ?_) ?_ | intro _
    | cases ‹(_, _) = (_, _)› | cases ‹some _ = some _› | cases ‹none = some _›
    | fail_if_no_progress with_reducible refine mk_keeps ?_ rfl rfl rfl (by and_intros <;> first | exact .inr (by with_reducible rfl) | exact .inl (sub_of hp rfl)) | dsimp only | dsimp only at e | split
theorem execKeyx_keeps_eq {P : ℕ} {s0 s t : State} (hp : 131602 &&& P = 131602) {a0 : Cell} {a1 : CPkt} {a2 : Bool} {a3 : BitVec 384} (e : execKeyx a0 a1 a2 a3 s = .next t) (h : Keeps P s0 s) : Keeps P s0 t := by
  unfold execKeyx at e
  repeat' first
    | cases ‹Host.Outcome.next _ = Host.Outcome.next _› | cases ‹Host.Outcome.refused _ = Host.Outcome.next _›
    | cases ‹Host.Outcome.fault _ = Host.Outcome.next _› | split at e | with_reducible assumption | exact sub_of hp rfl
    | exact rfl | with_reducible apply State.sendAck_keeps | with_reducible apply State.chainTake_keeps
    | with_reducible apply State.sendKeyx_keeps | with_reducible apply ite_keeps | with_reducible apply foldl_keeps
    | with_reducible refine getD_keeps (fun _ _ => ?_) ?_ | intro _ | cases ‹(_, _) = (_, _)› | cases ‹some _ = some _›
    | cases ‹none = some _›
    | fail_if_no_progress with_reducible refine mk_keeps ?_ rfl rfl rfl (by and_intros <;> first | exact .inr (by with_reducible rfl) | exact .inl (sub_of hp rfl)) | dsimp only | dsimp only at e | split
theorem execXfer_keeps_eq {P : ℕ} {s0 s t : State} (hp : 182802 &&& P = 182802) {a0 : Pkt} (e : execXfer a0 s = .next t) (h : Keeps P s0 s) : Keeps P s0 t := by
  unfold execXfer at e
  repeat' first
    | cases ‹Host.Outcome.next _ = Host.Outcome.next _› | cases ‹Host.Outcome.refused _ = Host.Outcome.next _›
    | cases ‹Host.Outcome.fault _ = Host.Outcome.next _› | split at e | with_reducible assumption | exact sub_of hp rfl
    | exact rfl | with_reducible apply State.chainOut_keeps | with_reducible apply State.queueOn_keeps
    | with_reducible apply State.arrive_keeps | with_reducible apply State.inc_keeps
    | with_reducible apply State.absorbChain_keeps | with_reducible apply ite_keeps | with_reducible apply foldl_keeps
    | with_reducible refine getD_keeps (fun _ _ => ?_) ?_ | intro _ | cases ‹(_, _) = (_, _)› | cases ‹some _ = some _›
    | cases ‹none = some _›
    | fail_if_no_progress with_reducible refine mk_keeps ?_ rfl rfl rfl (by and_intros <;> first | exact .inr (by with_reducible rfl) | exact .inl (sub_of hp rfl)) | dsimp only | dsimp only at e | split
theorem execChainImport_keeps_eq {P : ℕ} {s0 s t : State} (hp : 131610 &&& P = 131610) {a0 : Cell} (e : execChainImport a0 s = .next t) (h : Keeps P s0 s) : Keeps P s0 t := by
  unfold execChainImport at e
  repeat' first
    | cases ‹Host.Outcome.next _ = Host.Outcome.next _› | cases ‹Host.Outcome.refused _ = Host.Outcome.next _›
    | cases ‹Host.Outcome.fault _ = Host.Outcome.next _› | split at e | with_reducible assumption | exact sub_of hp rfl
    | exact rfl | with_reducible apply State.answerWrite_keeps | with_reducible apply State.answerPoison_keeps
    | with_reducible apply State.inc_keeps | with_reducible apply State.absorbChain_keeps
    | with_reducible apply State.chainTake_keeps | with_reducible apply State.send_keeps | with_reducible apply ite_keeps
    | with_reducible apply foldl_keeps | with_reducible refine getD_keeps (fun _ _ => ?_) ?_ | intro _
    | cases ‹(_, _) = (_, _)› | cases ‹some _ = some _› | cases ‹none = some _›
    | fail_if_no_progress with_reducible refine mk_keeps ?_ rfl rfl rfl (by and_intros <;> first | exact .inr (by with_reducible rfl) | exact .inl (sub_of hp rfl)) | dsimp only | dsimp only at e | split
theorem execOnoraResponseReturn_keeps_eq {P : ℕ} {s0 s t : State} (hp : 131586 &&& P = 131586) {a0 : Cell} {a1 : CPkt} (e : execOnoraResponseReturn a0 a1 s = .next t) (h : Keeps P s0 s) : Keeps P s0 t := by
  unfold execOnoraResponseReturn at e
  repeat' first
    | cases ‹Host.Outcome.next _ = Host.Outcome.next _› | cases ‹Host.Outcome.refused _ = Host.Outcome.next _›
    | cases ‹Host.Outcome.fault _ = Host.Outcome.next _› | split at e | with_reducible assumption | exact sub_of hp rfl
    | exact rfl | with_reducible apply State.chainTake_keeps | with_reducible apply State.send_keeps
    | with_reducible apply ite_keeps | with_reducible apply foldl_keeps
    | with_reducible refine getD_keeps (fun _ _ => ?_) ?_ | intro _ | cases ‹(_, _) = (_, _)› | cases ‹some _ = some _›
    | cases ‹none = some _›
    | fail_if_no_progress with_reducible refine mk_keeps ?_ rfl rfl rfl (by and_intros <;> first | exact .inr (by with_reducible rfl) | exact .inl (sub_of hp rfl)) | dsimp only | dsimp only at e | split

/-! ### Machine/Mem -/

theorem State.exportViolation_keeps {P : ℕ} {s0 s : State} (hp : 1064962 &&& P = 1064962) (h : Keeps P s0 s) (a1 : Pkt) (a2 : Bool) : Keeps P s0 (State.exportViolation s a1 a2) := by
  unfold State.exportViolation
  repeat' first
    | with_reducible assumption | exact sub_of hp rfl | exact rfl | with_reducible apply State.violate_keeps
    | with_reducible apply ite_keeps | with_reducible apply foldl_keeps
    | with_reducible refine getD_keeps (fun _ _ => ?_) ?_ | intro _ | cases ‹(_, _) = (_, _)› | cases ‹some _ = some _›
    | cases ‹none = some _›
    | fail_if_no_progress with_reducible refine mk_keeps ?_ rfl rfl rfl (by and_intros <;> first | exact .inr (by with_reducible rfl) | exact .inl (sub_of hp rfl)) | dsimp only | split
theorem execMrd_keeps_eq {P : ℕ} {s0 s t : State} (hp : 5949978 &&& P = 5949978) {a0 : Pkt} (e : execMrd a0 s = .next t) (h : Keeps P s0 s) : Keeps P s0 t := by
  unfold execMrd at e
  repeat' first
    | cases ‹Host.Outcome.next _ = Host.Outcome.next _› | cases ‹Host.Outcome.refused _ = Host.Outcome.next _›
    | cases ‹Host.Outcome.fault _ = Host.Outcome.next _› | split at e | with_reducible assumption | exact sub_of hp rfl
    | exact rfl | with_reducible apply State.memRead_keeps | with_reducible apply State.arrive_keeps
    | with_reducible apply State.exportSend_keeps | with_reducible apply State.answerRead_keeps
    | with_reducible apply State.exportViolation_keeps | with_reducible apply ite_keeps | with_reducible apply foldl_keeps
    | with_reducible refine getD_keeps (fun _ _ => ?_) ?_ | intro _ | cases ‹(_, _) = (_, _)› | cases ‹some _ = some _›
    | cases ‹none = some _›
    | fail_if_no_progress with_reducible refine mk_keeps ?_ rfl rfl rfl (by and_intros <;> first | exact .inr (by with_reducible rfl) | exact .inl (sub_of hp rfl)) | dsimp only | dsimp only at e | split
theorem execMspec_keeps_eq {P : ℕ} {s0 s t : State} (hp : 5949970 &&& P = 5949970) {a0 : Pkt} (e : execMspec a0 s = .next t) (h : Keeps P s0 s) : Keeps P s0 t := by
  unfold execMspec at e
  repeat' first
    | cases ‹Host.Outcome.next _ = Host.Outcome.next _› | cases ‹Host.Outcome.refused _ = Host.Outcome.next _›
    | cases ‹Host.Outcome.fault _ = Host.Outcome.next _› | split at e | with_reducible assumption | exact sub_of hp rfl
    | exact rfl | with_reducible apply State.memSpec_keeps | with_reducible apply State.arrive_keeps
    | with_reducible apply State.exportSend_keeps | with_reducible apply State.exportViolation_keeps
    | with_reducible apply ite_keeps | with_reducible apply foldl_keeps
    | with_reducible refine getD_keeps (fun _ _ => ?_) ?_ | intro _ | cases ‹(_, _) = (_, _)› | cases ‹some _ = some _›
    | cases ‹none = some _›
    | fail_if_no_progress with_reducible refine mk_keeps ?_ rfl rfl rfl (by and_intros <;> first | exact .inr (by with_reducible rfl) | exact .inl (sub_of hp rfl)) | dsimp only | dsimp only at e | split
theorem execWdata_keeps_eq {P : ℕ} {s0 s t : State} (hp : 5949970 &&& P = 5949970) {a0 : Pkt} (e : execWdata a0 s = .next t) (h : Keeps P s0 s) : Keeps P s0 t := by
  unfold execWdata at e
  repeat' first
    | cases ‹Host.Outcome.next _ = Host.Outcome.next _› | cases ‹Host.Outcome.refused _ = Host.Outcome.next _›
    | cases ‹Host.Outcome.fault _ = Host.Outcome.next _› | split at e | with_reducible assumption | exact sub_of hp rfl
    | exact rfl | with_reducible apply State.answerWrite_keeps | with_reducible apply State.arrive_keeps
    | with_reducible apply State.exportSend_keeps | with_reducible apply State.exportViolation_keeps
    | with_reducible apply State.memWrite_keeps | with_reducible apply ite_keeps | with_reducible apply foldl_keeps
    | with_reducible refine getD_keeps (fun _ _ => ?_) ?_ | intro _ | cases ‹(_, _) = (_, _)› | cases ‹some _ = some _›
    | cases ‹none = some _›
    | fail_if_no_progress with_reducible refine mk_keeps ?_ rfl rfl rfl (by and_intros <;> first | exact .inr (by with_reducible rfl) | exact .inl (sub_of hp rfl)) | dsimp only | dsimp only at e | split
theorem execExpanderReadData_keeps_eq {P : ℕ} {s0 s t : State} (hp : 4719130 &&& P = 4719130) {a0 : Cell} {a1 : ℕ} {a2 : Line} {a3 : ExpSt} (e : execExpanderReadData a0 a1 a2 a3 s = .next t) (h : Keeps P s0 s) : Keeps P s0 t := by
  unfold execExpanderReadData at e
  repeat' first
    | cases ‹Host.Outcome.next _ = Host.Outcome.next _› | cases ‹Host.Outcome.refused _ = Host.Outcome.next _›
    | cases ‹Host.Outcome.fault _ = Host.Outcome.next _› | split at e | with_reducible assumption | exact sub_of hp rfl
    | exact rfl | with_reducible apply State.expReadData_keeps | with_reducible apply ite_keeps
    | with_reducible apply foldl_keeps | with_reducible refine getD_keeps (fun _ _ => ?_) ?_ | intro _
    | cases ‹(_, _) = (_, _)› | cases ‹some _ = some _› | cases ‹none = some _›
    | fail_if_no_progress with_reducible refine mk_keeps ?_ rfl rfl rfl (by and_intros <;> first | exact .inr (by with_reducible rfl) | exact .inl (sub_of hp rfl)) | dsimp only | dsimp only at e | split
theorem execExpanderWriteComplete_keeps_eq {P : ℕ} {s0 s t : State} (hp : 524800 &&& P = 524800) {a0 : Cell} {a1 : ℕ} (e : execExpanderWriteComplete a0 a1 s = .next t) (h : Keeps P s0 s) : Keeps P s0 t := by
  unfold execExpanderWriteComplete at e
  repeat' first
    | cases ‹Host.Outcome.next _ = Host.Outcome.next _› | cases ‹Host.Outcome.refused _ = Host.Outcome.next _›
    | cases ‹Host.Outcome.fault _ = Host.Outcome.next _› | split at e | with_reducible assumption | exact sub_of hp rfl
    | exact rfl | with_reducible apply State.expWriteDone_keeps | with_reducible apply ite_keeps
    | with_reducible apply foldl_keeps | with_reducible refine getD_keeps (fun _ _ => ?_) ?_ | intro _
    | cases ‹(_, _) = (_, _)› | cases ‹some _ = some _› | cases ‹none = some _›
    | fail_if_no_progress with_reducible refine mk_keeps ?_ rfl rfl rfl (by and_intros <;> first | exact .inr (by with_reducible rfl) | exact .inl (sub_of hp rfl)) | dsimp only | dsimp only at e | split
theorem execMflush_keeps_eq {P : ℕ} {s0 s t : State} (hp : 576002 &&& P = 576002) {a0 : Pkt} (e : execMflush a0 s = .next t) (h : Keeps P s0 s) : Keeps P s0 t := by
  unfold execMflush at e
  repeat' first
    | cases ‹Host.Outcome.next _ = Host.Outcome.next _› | cases ‹Host.Outcome.refused _ = Host.Outcome.next _›
    | cases ‹Host.Outcome.fault _ = Host.Outcome.next _› | split at e | with_reducible assumption | exact sub_of hp rfl
    | exact rfl | with_reducible apply State.answerFlushes_keeps | with_reducible apply State.arrive_keeps
    | refine State.putAcc_keeps_eq (sub_of hp rfl) (by assumption) ?_ | with_reducible apply State.putAcc_keeps
    | with_reducible apply ite_keeps | with_reducible apply foldl_keeps
    | with_reducible refine foldl_snd_keeps ?_ (fun _ _ _ _ => ?_) | with_reducible refine getD_keeps (fun _ _ => ?_) ?_
    | intro _ | cases ‹(_, _) = (_, _)› | cases ‹some _ = some _› | cases ‹none = some _›
    | fail_if_no_progress with_reducible refine mk_keeps ?_ rfl rfl rfl (by and_intros <;> first | exact .inr (by with_reducible rfl) | exact .inl (sub_of hp rfl)) | dsimp only | dsimp only at e | split

/-! ### Machine/Fence -/

theorem State.epochStarts_keeps {P : ℕ} {s0 s : State} (hp : 5816859 &&& P = 5816859) (h : Keeps P s0 s) : Keeps P s0 (State.epochStarts s) := by
  unfold State.epochStarts
  repeat' first
    | with_reducible assumption | exact sub_of hp rfl | exact rfl
    | refine State.loseSides_keeps_eq (sub_of hp rfl) (by assumption) ?_ | with_reducible apply State.loseSides_keeps
    | with_reducible apply State.wakeCell_keeps | with_reducible apply ite_keeps | with_reducible apply foldl_keeps
    | with_reducible refine foldl_fst_keeps ?_ (fun _ _ _ _ => ?_) | with_reducible refine getD_keeps (fun _ _ => ?_) ?_
    | intro _ | cases ‹(_, _) = (_, _)› | cases ‹some _ = some _› | cases ‹none = some _›
    | fail_if_no_progress with_reducible refine mk_keeps ?_ rfl rfl rfl (by and_intros <;> first | exact .inr (by with_reducible rfl) | exact .inl (sub_of hp rfl)) | dsimp only | split
theorem State.scanBuffers_keeps {P : ℕ} {s0 s : State} (hp : 2562 &&& P = 2562) (h : Keeps P s0 s) (a1 : Cell) (a2 : Bool) : Keeps P s0 (State.scanBuffers s a1 a2) := by
  unfold State.scanBuffers
  repeat' first
    | with_reducible assumption | exact sub_of hp rfl | exact rfl | with_reducible apply State.lose_keeps
    | with_reducible apply State.sat_keeps | with_reducible apply ite_keeps | with_reducible apply foldl_keeps
    | with_reducible refine getD_keeps (fun _ _ => ?_) ?_ | intro _ | cases ‹(_, _) = (_, _)› | cases ‹some _ = some _›
    | cases ‹none = some _›
    | fail_if_no_progress with_reducible refine mk_keeps ?_ rfl rfl rfl (by and_intros <;> first | exact .inr (by with_reducible rfl) | exact .inl (sub_of hp rfl)) | dsimp only | split
theorem State.setLocal_keeps {P : ℕ} {s0 s : State} (hp : 2562 &&& P = 2562) (h : Keeps P s0 s) (a1 : Cell) : Keeps P s0 (State.setLocal s a1) := by
  unfold State.setLocal
  repeat' first
    | with_reducible assumption | exact sub_of hp rfl | exact rfl | with_reducible apply State.wrBit_keeps
    | with_reducible apply State.wr_keeps | with_reducible apply State.lose_keeps | with_reducible apply State.sat_keeps
    | with_reducible apply State.releaseHold_keeps | with_reducible apply ite_keeps | with_reducible apply foldl_keeps
    | with_reducible refine getD_keeps (fun _ _ => ?_) ?_ | intro _ | cases ‹(_, _) = (_, _)› | cases ‹some _ = some _›
    | cases ‹none = some _›
    | fail_if_no_progress with_reducible refine mk_keeps ?_ rfl rfl rfl (by and_intros <;> first | exact .inr (by with_reducible rfl) | exact .inl (sub_of hp rfl)) | dsimp only | split
theorem State.applyMaps_keeps {P : ℕ} {s0 s : State} (hp : 8706 &&& P = 8706) (h : Keeps P s0 s) (a1 : Cell) : Keeps P s0 (State.applyMaps s a1) := by
  unfold State.applyMaps
  repeat' first
    | with_reducible assumption | exact sub_of hp rfl | exact rfl | with_reducible apply State.wr_keeps
    | with_reducible apply ite_keeps | with_reducible apply foldl_keeps
    | with_reducible refine getD_keeps (fun _ _ => ?_) ?_ | intro _ | cases ‹(_, _) = (_, _)› | cases ‹some _ = some _›
    | cases ‹none = some _›
    | fail_if_no_progress with_reducible refine mk_keeps ?_ rfl rfl rfl (by and_intros <;> first | exact .inr (by with_reducible rfl) | exact .inl (sub_of hp rfl)) | dsimp only | split
theorem execFenceMap_keeps_eq {P : ℕ} {s0 s t : State} (hp : 5827099 &&& P = 5827099) {a0 : Cell} (e : execFenceMap a0 s = .next t) (h : Keeps P s0 s) : Keeps P s0 t := by
  unfold execFenceMap at e
  repeat' first
    | cases ‹Host.Outcome.next _ = Host.Outcome.next _› | cases ‹Host.Outcome.refused _ = Host.Outcome.next _›
    | cases ‹Host.Outcome.fault _ = Host.Outcome.next _› | split at e | with_reducible assumption | exact sub_of hp rfl
    | exact rfl | with_reducible apply State.scanBuffers_keeps | with_reducible apply State.logYield_keeps
    | with_reducible apply State.applyMaps_keeps | with_reducible apply State.setLocal_keeps
    | with_reducible apply State.epochStarts_keeps | with_reducible apply State.wrb_keeps | with_reducible apply ite_keeps
    | with_reducible apply foldl_keeps | with_reducible refine getD_keeps (fun _ _ => ?_) ?_ | intro _
    | cases ‹(_, _) = (_, _)› | cases ‹some _ = some _› | cases ‹none = some _›
    | fail_if_no_progress with_reducible refine mk_keeps ?_ rfl rfl rfl (by and_intros <;> first | exact .inr (by with_reducible rfl) | exact .inl (sub_of hp rfl)) | dsimp only | dsimp only at e | split
theorem State.loseCtx_keeps {P : ℕ} {s0 s : State} (hp : 3586 &&& P = 3586) (h : Keeps P s0 s) (a1 : Cell) (a2 : ℕ) : Keeps P s0 (State.loseCtx s a1 a2) := by
  unfold State.loseCtx
  repeat' first
    | with_reducible assumption | exact sub_of hp rfl | exact rfl | with_reducible apply State.closeCtx_keeps
    | with_reducible apply State.lose_keeps | with_reducible apply State.freeGran_keeps | with_reducible apply ite_keeps
    | with_reducible apply foldl_keeps | with_reducible refine getD_keeps (fun _ _ => ?_) ?_ | intro _
    | cases ‹(_, _) = (_, _)› | cases ‹some _ = some _› | cases ‹none = some _›
    | fail_if_no_progress with_reducible refine mk_keeps ?_ rfl rfl rfl (by and_intros <;> first | exact .inr (by with_reducible rfl) | exact .inl (sub_of hp rfl)) | dsimp only | split
theorem State.stopRun_keeps {P : ℕ} {s0 s : State} (hp : 514 &&& P = 514) (h : Keeps P s0 s) (a1 : ℕ) : Keeps P s0 (State.stopRun s a1) := by
  unfold State.stopRun
  repeat' first
    | with_reducible assumption | exact sub_of hp rfl | exact rfl | with_reducible apply State.takeBlock_keeps
    | with_reducible apply State.wr_keeps | with_reducible apply ite_keeps | with_reducible apply foldl_keeps
    | with_reducible refine getD_keeps (fun _ _ => ?_) ?_ | intro _ | cases ‹(_, _) = (_, _)› | cases ‹some _ = some _›
    | cases ‹none = some _›
    | fail_if_no_progress with_reducible refine mk_keeps ?_ rfl rfl rfl (by and_intros <;> first | exact .inr (by with_reducible rfl) | exact .inl (sub_of hp rfl)) | dsimp only | split
theorem State.stopCopies_keeps {P : ℕ} {s0 s : State} (hp : 8706 &&& P = 8706) (h : Keeps P s0 s) (a1 : ℕ) (a2 : ℕ) : Keeps P s0 (State.stopCopies s a1 a2) := by
  unfold State.stopCopies
  repeat' first
    | with_reducible assumption | exact sub_of hp rfl | exact rfl | with_reducible apply State.rsApply_keeps
    | with_reducible apply State.wr_keeps | with_reducible apply State.wrb_keeps
    | with_reducible apply State.stopRun_keeps | with_reducible apply ite_keeps | with_reducible apply foldl_keeps
    | with_reducible refine getD_keeps (fun _ _ => ?_) ?_ | intro _ | cases ‹(_, _) = (_, _)› | cases ‹some _ = some _›
    | cases ‹none = some _›
    | fail_if_no_progress with_reducible refine mk_keeps ?_ rfl rfl rfl (by and_intros <;> first | exact .inr (by with_reducible rfl) | exact .inl (sub_of hp rfl)) | dsimp only | split
theorem State.stackLoss_keeps {P : ℕ} {s0 s : State} (hp : 11778 &&& P = 11778) (h : Keeps P s0 s) (a1 : ℕ) : Keeps P s0 (State.stackLoss s a1) := by
  unfold State.stackLoss
  repeat' first
    | with_reducible assumption | exact sub_of hp rfl | exact rfl | with_reducible apply State.setSpare_keeps
    | with_reducible apply State.xingReset_keeps | with_reducible apply State.showPool_keeps
    | with_reducible apply State.wr_keeps | with_reducible apply State.showUse_keeps
    | with_reducible apply State.stopCopies_keeps | with_reducible apply State.loseCtx_keeps
    | with_reducible apply ite_keeps | with_reducible apply foldl_keeps
    | with_reducible refine getD_keeps (fun _ _ => ?_) ?_ | intro _ | cases ‹(_, _) = (_, _)› | cases ‹some _ = some _›
    | cases ‹none = some _›
    | fail_if_no_progress with_reducible refine mk_keeps ?_ rfl rfl rfl (by and_intros <;> first | exact .inr (by with_reducible rfl) | exact .inl (sub_of hp rfl)) | dsimp only | split
theorem State.stackReturn_keeps {P : ℕ} {s0 s : State} (hp : 2050 &&& P = 2050) (h : Keeps P s0 s) (a1 : ℕ) : Keeps P s0 (State.stackReturn s a1) := by
  unfold State.stackReturn
  repeat' first
    | with_reducible assumption | exact sub_of hp rfl | exact rfl | with_reducible apply State.showPool_keeps
    | with_reducible apply State.wr_keeps | with_reducible apply State.spillTo_keeps | with_reducible apply ite_keeps
    | with_reducible apply foldl_keeps | with_reducible refine getD_keeps (fun _ _ => ?_) ?_ | intro _
    | cases ‹(_, _) = (_, _)› | cases ‹some _ = some _› | cases ‹none = some _›
    | fail_if_no_progress with_reducible refine mk_keeps ?_ rfl rfl rfl (by and_intros <;> first | exact .inr (by with_reducible rfl) | exact .inl (sub_of hp rfl)) | dsimp only | split
theorem State.onoraGone_keeps {P : ℕ} {s0 s : State} (hp : 131602 &&& P = 131602) (h : Keeps P s0 s) (a1 : Cell) : Keeps P s0 (State.onoraGone s a1) := by
  unfold State.onoraGone
  repeat' first
    | with_reducible assumption | exact sub_of hp rfl | exact rfl | with_reducible apply State.wr_keeps
    | with_reducible apply State.absorbChain_keeps | with_reducible apply State.linkReset_keeps
    | with_reducible apply State.adjacency_keeps | with_reducible apply ite_keeps | with_reducible apply foldl_keeps
    | with_reducible refine getD_keeps (fun _ _ => ?_) ?_ | intro _ | cases ‹(_, _) = (_, _)› | cases ‹some _ = some _›
    | cases ‹none = some _›
    | fail_if_no_progress with_reducible refine mk_keeps ?_ rfl rfl rfl (by and_intros <;> first | exact .inr (by with_reducible rfl) | exact .inl (sub_of hp rfl)) | dsimp only | split
theorem State.loseSlots_keeps {P : ℕ} {s0 s : State} (hp : 4204042 &&& P = 4204042) (h : Keeps P s0 s) (a1 : Cell) : Keeps P s0 (State.loseSlots s a1) := by
  unfold State.loseSlots
  repeat' first
    | with_reducible assumption | exact sub_of hp rfl | exact rfl | with_reducible apply State.loseSlot_keeps
    | with_reducible apply ite_keeps | with_reducible apply foldl_keeps
    | with_reducible refine getD_keeps (fun _ _ => ?_) ?_ | intro _ | cases ‹(_, _) = (_, _)› | cases ‹some _ = some _›
    | cases ‹none = some _›
    | fail_if_no_progress with_reducible refine mk_keeps ?_ rfl rfl rfl (by and_intros <;> first | exact .inr (by with_reducible rfl) | exact .inl (sub_of hp rfl)) | dsimp only | split
theorem State.roleGone_keeps {P : ℕ} {s0 s : State} (hp : 8119835 &&& P = 8119835) (h : Keeps P s0 s) (a1 : Cell) : Keeps P s0 (State.roleGone s a1) := by
  unfold State.roleGone
  repeat' first
    | with_reducible assumption | exact sub_of hp rfl | exact rfl | with_reducible apply State.loseSlots_keeps
    | with_reducible apply State.deviceDown_keeps | with_reducible apply State.hostDown_keeps
    | with_reducible apply State.onoraGone_keeps | with_reducible apply ite_keeps | with_reducible apply foldl_keeps
    | with_reducible refine getD_keeps (fun _ _ => ?_) ?_ | intro _ | cases ‹(_, _) = (_, _)› | cases ‹some _ = some _›
    | cases ‹none = some _›
    | fail_if_no_progress with_reducible refine mk_keeps ?_ rfl rfl rfl (by and_intros <;> first | exact .inr (by with_reducible rfl) | exact .inl (sub_of hp rfl)) | dsimp only | split
theorem State.portGone_keeps {P : ℕ} {s0 s : State} (hp : 8119835 &&& P = 8119835) (h : Keeps P s0 s) (a1 : Cell) : Keeps P s0 (State.portGone s a1) := by
  unfold State.portGone
  repeat' first
    | with_reducible assumption | exact sub_of hp rfl | exact rfl | with_reducible apply State.ideOff_keeps
    | with_reducible apply State.roleGone_keeps | with_reducible apply State.portOut_keeps
    | with_reducible apply ite_keeps | with_reducible apply foldl_keeps
    | with_reducible refine getD_keeps (fun _ _ => ?_) ?_ | intro _ | cases ‹(_, _) = (_, _)› | cases ‹some _ = some _›
    | cases ‹none = some _›
    | fail_if_no_progress with_reducible refine mk_keeps ?_ rfl rfl rfl (by and_intros <;> first | exact .inr (by with_reducible rfl) | exact .inl (sub_of hp rfl)) | dsimp only | split
theorem State.targetsGone_keeps {P : ℕ} {s0 s : State} (hp : 1703954 &&& P = 1703954) (h : Keeps P s0 s) (a1 : List Cell) : Keeps P s0 (State.targetsGone s a1) := by
  unfold State.targetsGone
  repeat' first
    | with_reducible assumption | exact sub_of hp rfl | exact rfl | with_reducible apply State.migBack_keeps
    | with_reducible apply ite_keeps | with_reducible apply foldl_keeps
    | with_reducible refine getD_keeps (fun _ _ => ?_) ?_ | intro _ | cases ‹(_, _) = (_, _)› | cases ‹some _ = some _›
    | cases ‹none = some _›
    | fail_if_no_progress with_reducible refine mk_keeps ?_ rfl rfl rfl (by and_intros <;> first | exact .inr (by with_reducible rfl) | exact .inl (sub_of hp rfl)) | dsimp only | split
theorem State.dropCell_keeps {P : ℕ} {s0 s : State} (hp : 1715714 &&& P = 1715714) (h : Keeps P s0 s) (a1 : Cell) : Keeps P s0 (State.dropCell s a1) := by
  unfold State.dropCell
  repeat' first
    | with_reducible assumption | exact sub_of hp rfl | exact rfl | with_reducible apply State.setReg_keeps
    | with_reducible apply State.setSpare_keeps | with_reducible apply State.xingReset_keeps
    | with_reducible apply State.wr_keeps | with_reducible apply State.loseCtx_keeps
    | with_reducible apply State.freeChunk_keeps | with_reducible apply State.bufFresh_keeps
    | with_reducible apply State.ringFree_keeps | with_reducible apply ite_keeps | with_reducible apply foldl_keeps
    | with_reducible refine getD_keeps (fun _ _ => ?_) ?_ | intro _ | cases ‹(_, _) = (_, _)› | cases ‹some _ = some _›
    | cases ‹none = some _›
    | fail_if_no_progress with_reducible refine mk_keeps ?_ rfl rfl rfl (by and_intros <;> first | exact .inr (by with_reducible rfl) | exact .inl (sub_of hp rfl)) | dsimp only | split
theorem State.dieLoss_keeps {P : ℕ} {s0 s : State} (hp : 2594 &&& P = 2594) (h : Keeps P s0 s) (a1 : ℕ) : Keeps P s0 (State.dieLoss s a1) := by
  unfold State.dieLoss
  repeat' first
    | with_reducible assumption | exact sub_of hp rfl | exact rfl | with_reducible apply State.xingReset_keeps
    | with_reducible apply State.wrBit_keeps | with_reducible apply State.wr_keeps | with_reducible apply ite_keeps
    | with_reducible apply foldl_keeps | with_reducible refine getD_keeps (fun _ _ => ?_) ?_ | intro _
    | cases ‹(_, _) = (_, _)› | cases ‹some _ = some _› | cases ‹none = some _›
    | fail_if_no_progress with_reducible refine mk_keeps ?_ rfl rfl rfl (by and_intros <;> first | exact .inr (by with_reducible rfl) | exact .inl (sub_of hp rfl)) | dsimp only | split
theorem State.takeOut_keeps {P : ℕ} {s0 s : State} (hp : 8121915 &&& P = 8121915) (h : Keeps P s0 s) : Keeps P s0 (State.takeOut s) := by
  unfold State.takeOut
  repeat' first
    | with_reducible assumption | exact sub_of hp rfl | exact rfl | with_reducible apply State.dieLoss_keeps
    | with_reducible apply State.dropCell_keeps | with_reducible apply State.portGone_keeps
    | with_reducible apply State.stackLoss_keeps | with_reducible apply State.targetsGone_keeps
    | with_reducible apply ite_keeps | with_reducible apply foldl_keeps
    | with_reducible refine getD_keeps (fun _ _ => ?_) ?_ | intro _ | cases ‹(_, _) = (_, _)› | cases ‹some _ = some _›
    | cases ‹none = some _›
    | fail_if_no_progress with_reducible refine mk_keeps ?_ rfl rfl rfl (by and_intros <;> first | exact .inr (by with_reducible rfl) | exact .inl (sub_of hp rfl)) | dsimp only | split
theorem State.takeover_keeps_eq {P : ℕ} {s0 s t : State} (hp : 8194 &&& P = 8194) {r} (e : State.takeover s = (t, r)) (h : Keeps P s0 s) : Keeps P s0 t := by
  have k : Keeps P s0 (State.takeover s).1 := by
    unfold State.takeover
    refine foldl_fst_keeps h fun u b x h => ?_
    dsimp only
    split
    · exact h
    · have h1 := fun (m : NMap (List ℕ)) => @ite_keeps P s0 u
      split
      · exact State.wr_keeps (sub_of hp rfl) (State.wr_keeps (sub_of hp rfl) (State.wr_keeps (sub_of hp rfl) (ite_keeps (fun _ => h) fun _ => mk_keeps h rfl rfl rfl (by and_intros <;> first | exact .inr (by with_reducible rfl) | exact .inl (sub_of hp rfl))) _ _) _ _) _ _
      · exact State.wr_keeps (sub_of hp rfl) (State.wr_keeps (sub_of hp rfl) (mk_keeps (State.wr_keeps (sub_of hp rfl) (State.wr_keeps (sub_of hp rfl) (State.wr_keeps (sub_of hp rfl)
          (ite_keeps (fun _ => h) fun _ => mk_keeps h rfl rfl rfl (by and_intros <;> first | exact .inr (by with_reducible rfl) | exact .inl (sub_of hp rfl))) _ _) _ _) _ _) rfl rfl rfl (by and_intros <;> first | with_reducible exact .inr rfl | exact .inl (sub_of hp rfl))) _ _) _ _
  rw [e] at k
  exact k
theorem State.takeover_keeps {P : ℕ} {s0 s : State} (hp : 8194 &&& P = 8194) (h : Keeps P s0 s) : Keeps P s0 (State.takeover s).1 :=
  State.takeover_keeps_eq (sub_of hp rfl) (Prod.mk.eta (p := State.takeover s)).symm h
theorem State.rescale_keeps {P : ℕ} {s0 s : State} (hp : 16386 &&& P = 16386) (h : Keeps P s0 s) : Keeps P s0 (State.rescale s) := by
  unfold State.rescale
  repeat' first
    | with_reducible assumption | exact sub_of hp rfl | exact rfl | with_reducible apply State.logYield_keeps
    | with_reducible apply ite_keeps | with_reducible apply foldl_keeps
    | with_reducible refine getD_keeps (fun _ _ => ?_) ?_ | intro _ | cases ‹(_, _) = (_, _)› | cases ‹some _ = some _›
    | cases ‹none = some _›
    | fail_if_no_progress with_reducible refine mk_keeps ?_ rfl rfl rfl (by and_intros <;> first | exact .inr (by with_reducible rfl) | exact .inl (sub_of hp rfl)) | dsimp only | split
theorem State.degrade_keeps {P : ℕ} {s0 s : State} (hp : 2998787 &&& P = 2998787) (h : Keeps P s0 s) : Keeps P s0 (State.degrade s) := by
  unfold State.degrade
  repeat' first
    | with_reducible assumption | exact sub_of hp rfl | exact rfl | with_reducible apply State.goMode_keeps
    | with_reducible apply State.dropShadows_keeps | with_reducible apply State.wr_keeps
    | with_reducible apply State.leaveMaint_keeps | with_reducible apply ite_keeps | with_reducible apply foldl_keeps
    | with_reducible refine getD_keeps (fun _ _ => ?_) ?_ | intro _ | cases ‹(_, _) = (_, _)› | cases ‹some _ = some _›
    | cases ‹none = some _›
    | fail_if_no_progress with_reducible refine mk_keeps ?_ rfl rfl rfl (by and_intros <;> first | exact .inr (by with_reducible rfl) | exact .inl (sub_of hp rfl)) | dsimp only | split
theorem State.sendMflush_keeps_eq {P : ℕ} {s0 s t : State} (hp : 512 &&& P = 512) {a1 : Cell} {a2 : Htid} {a3 : Pkt} (e : State.sendMflush s a1 a2 a3 = some t) (h : Keeps P s0 s) : Keeps P s0 t := by
  unfold State.sendMflush at e
  repeat' first
    | split at e | with_reducible assumption | exact sub_of hp rfl | exact rfl | with_reducible apply State.send_keeps
    | with_reducible apply ite_keeps | with_reducible apply foldl_keeps
    | with_reducible refine getD_keeps (fun _ _ => ?_) ?_ | intro _ | cases ‹(_, _) = (_, _)› | cases ‹some _ = some _›
    | cases ‹none = some _›
    | fail_if_no_progress with_reducible refine mk_keeps ?_ rfl rfl rfl (by and_intros <;> first | exact .inr (by with_reducible rfl) | exact .inl (sub_of hp rfl)) | dsimp only | dsimp only at e | split
theorem State.resnoop_keeps {P : ℕ} {s0 s : State} (hp : 512 &&& P = 512) (h : Keeps P s0 s) (a1 : Cell) (a2 : Htid) (a3 : Txn) : Keeps P s0 (State.resnoop s a1 a2 a3) := by
  unfold State.resnoop
  repeat' first
    | with_reducible assumption | exact sub_of hp rfl | exact rfl | with_reducible apply State.send_keeps
    | with_reducible apply ite_keeps | with_reducible apply foldl_keeps
    | with_reducible refine getD_keeps (fun _ _ => ?_) ?_ | intro _ | cases ‹(_, _) = (_, _)› | cases ‹some _ = some _›
    | cases ‹none = some _›
    | fail_if_no_progress with_reducible refine mk_keeps ?_ rfl rfl rfl (by and_intros <;> first | exact .inr (by with_reducible rfl) | exact .inl (sub_of hp rfl)) | dsimp only | split
theorem State.rewriteDir_keeps_eq {P : ℕ} {s0 s t : State} (hp : 512 &&& P = 512) {a1 : Cell} {a2 : Htid} {a3 : Txn} {r} (e : State.rewriteDir s a1 a2 a3 = (r, t)) (h : Keeps P s0 s) : Keeps P s0 t := by
  unfold State.rewriteDir at e
  repeat' first
    | split at e | with_reducible assumption | exact sub_of hp rfl | exact rfl | with_reducible apply State.sendAll_keeps
    | with_reducible apply ite_keeps | with_reducible apply foldl_keeps
    | with_reducible refine getD_keeps (fun _ _ => ?_) ?_ | intro _ | cases ‹(_, _) = (_, _)› | cases ‹some _ = some _›
    | cases ‹none = some _›
    | fail_if_no_progress with_reducible refine mk_keeps ?_ rfl rfl rfl (by and_intros <;> first | exact .inr (by with_reducible rfl) | exact .inl (sub_of hp rfl)) | dsimp only | dsimp only at e | split
theorem State.rewriteDir_keeps {P : ℕ} {s0 s : State} (hp : 512 &&& P = 512) (h : Keeps P s0 s) (a1 : Cell) (a2 : Htid) (a3 : Txn) : Keeps P s0 (State.rewriteDir s a1 a2 a3).2 :=
  State.rewriteDir_keeps_eq hp (Prod.mk.eta (p := State.rewriteDir s a1 a2 a3)).symm h
theorem State.flushDoubt_keeps_eq {P : ℕ} {s0 s t : State} (hp : 512 &&& P = 512) {a1 : Cell} {a2 : Htid} {a3 : Txn} {a4 : Txn} {r} (e : State.flushDoubt s a1 a2 a3 a4 = (r, t)) (h : Keeps P s0 s) : Keeps P s0 t := by
  unfold State.flushDoubt at e
  repeat' first
    | split at e | with_reducible assumption | exact sub_of hp rfl | exact rfl
    | refine State.sendMflush_keeps_eq (sub_of hp rfl) (by assumption) ?_ | with_reducible apply ite_keeps
    | with_reducible apply foldl_keeps | with_reducible refine getD_keeps (fun _ _ => ?_) ?_ | intro _
    | cases ‹(_, _) = (_, _)› | cases ‹some _ = some _› | cases ‹none = some _›
    | fail_if_no_progress with_reducible refine mk_keeps ?_ rfl rfl rfl (by and_intros <;> first | exact .inr (by with_reducible rfl) | exact .inl (sub_of hp rfl)) | dsimp only | dsimp only at e | split
theorem State.flushDoubt_keeps {P : ℕ} {s0 s : State} (hp : 512 &&& P = 512) (h : Keeps P s0 s) (a1 : Cell) (a2 : Htid) (a3 : Txn) (a4 : Txn) : Keeps P s0 (State.flushDoubt s a1 a2 a3 a4).2 :=
  State.flushDoubt_keeps_eq hp (Prod.mk.eta (p := State.flushDoubt s a1 a2 a3 a4)).symm h
theorem State.sweepProxy_keeps {P : ℕ} {s0 s : State} (hp : 4204034 &&& P = 4204034) (h : Keeps P s0 s) (a1 : Cell) (a2 : Htid) (a3 : Txn) (a4 : Txn) : Keeps P s0 (State.sweepProxy s a1 a2 a3 a4) := by
  unfold State.sweepProxy
  repeat' first
    | with_reducible assumption | exact sub_of hp rfl | exact rfl | with_reducible apply State.proxyDone_keeps
    | with_reducible apply State.setTxn_keeps | with_reducible apply State.proxyWrote_keeps
    | with_reducible apply ite_keeps | with_reducible apply foldl_keeps
    | with_reducible refine getD_keeps (fun _ _ => ?_) ?_ | intro _ | cases ‹(_, _) = (_, _)› | cases ‹some _ = some _›
    | cases ‹none = some _›
    | fail_if_no_progress with_reducible refine mk_keeps ?_ rfl rfl rfl (by and_intros <;> first | exact .inr (by with_reducible rfl) | exact .inl (sub_of hp rfl)) | dsimp only | split
theorem State.sweepHome_keeps {P : ℕ} {s0 s : State} (hp : 4219394 &&& P = 4219394) (h : Keeps P s0 s) (a1 : Cell) (a2 : Htid) (a3 : Txn) (a4 : Txn) : Keeps P s0 (State.sweepHome s a1 a2 a3 a4) := by
  unfold State.sweepHome
  repeat' first
    | with_reducible assumption | exact sub_of hp rfl | exact rfl
    | refine State.rewriteDir_keeps_eq (sub_of hp rfl) (by assumption) ?_ | with_reducible apply State.rewriteDir_keeps
    | with_reducible apply State.fetchSet_keeps | with_reducible apply State.resnoop_keeps
    | with_reducible apply State.advance_keeps | with_reducible apply ite_keeps | with_reducible apply foldl_keeps
    | with_reducible refine foldl_snd_keeps ?_ (fun _ _ _ _ => ?_) | with_reducible refine getD_keeps (fun _ _ => ?_) ?_
    | intro _ | cases ‹(_, _) = (_, _)› | cases ‹some _ = some _› | cases ‹none = some _›
    | fail_if_no_progress with_reducible refine mk_keeps ?_ rfl rfl rfl (by and_intros <;> first | exact .inr (by with_reducible rfl) | exact .inl (sub_of hp rfl)) | dsimp only | split
theorem State.sweepTxn_keeps {P : ℕ} {s0 s : State} (hp : 4220418 &&& P = 4220418) (h : Keeps P s0 s) (a1 : Cell) (a2 : Htid) : Keeps P s0 (State.sweepTxn s a1 a2) := by
  unfold State.sweepTxn
  repeat' first
    | with_reducible assumption | exact sub_of hp rfl | exact rfl | with_reducible apply State.sweepProxy_keeps
    | with_reducible apply State.sweepHome_keeps | refine State.flushDoubt_keeps_eq (sub_of hp rfl) (by assumption) ?_
    | with_reducible apply State.flushDoubt_keeps | with_reducible apply ite_keeps | with_reducible apply foldl_keeps
    | with_reducible refine foldl_snd_keeps ?_ (fun _ _ _ _ => ?_) | with_reducible refine getD_keeps (fun _ _ => ?_) ?_
    | intro _ | cases ‹(_, _) = (_, _)› | cases ‹some _ = some _› | cases ‹none = some _›
    | fail_if_no_progress with_reducible refine mk_keeps ?_ rfl rfl rfl (by and_intros <;> first | exact .inr (by with_reducible rfl) | exact .inl (sub_of hp rfl)) | dsimp only | split
theorem State.sweepFwds_keeps {P : ℕ} {s0 s : State} (hp : 4204034 &&& P = 4204034) (h : Keeps P s0 s) (a1 : Cell) : Keeps P s0 (State.sweepFwds s a1) := by
  unfold State.sweepFwds
  repeat' first
    | with_reducible assumption | exact sub_of hp rfl | exact rfl | with_reducible apply State.setFwd_keeps
    | with_reducible apply State.fwdStep_keeps | refine State.sendMflush_keeps_eq (sub_of hp rfl) (by assumption) ?_
    | with_reducible apply ite_keeps | with_reducible apply foldl_keeps
    | with_reducible refine getD_keeps (fun _ _ => ?_) ?_ | intro _ | cases ‹(_, _) = (_, _)› | cases ‹some _ = some _›
    | cases ‹none = some _›
    | fail_if_no_progress with_reducible refine mk_keeps ?_ rfl rfl rfl (by and_intros <;> first | exact .inr (by with_reducible rfl) | exact .inl (sub_of hp rfl)) | dsimp only | split
theorem State.sweepHomes_keeps {P : ℕ} {s0 s : State} (hp : 4220418 &&& P = 4220418) (h : Keeps P s0 s) : Keeps P s0 (State.sweepHomes s) := by
  unfold State.sweepHomes
  repeat' first
    | with_reducible assumption | exact sub_of hp rfl | exact rfl | with_reducible apply State.sweepFwds_keeps
    | with_reducible apply State.sweepTxn_keeps | with_reducible apply ite_keeps | with_reducible apply foldl_keeps
    | with_reducible refine getD_keeps (fun _ _ => ?_) ?_ | intro _ | cases ‹(_, _) = (_, _)› | cases ‹some _ = some _›
    | cases ‹none = some _›
    | fail_if_no_progress with_reducible refine mk_keeps ?_ rfl rfl rfl (by and_intros <;> first | exact .inr (by with_reducible rfl) | exact .inl (sub_of hp rfl)) | dsimp only | split
theorem State.sweepRecalls_keeps {P : ℕ} {s0 s : State} (hp : 524802 &&& P = 524802) (h : Keeps P s0 s) (a1 : Bool) : Keeps P s0 (State.sweepRecalls s a1) := by
  unfold State.sweepRecalls
  refine foldl_keeps h fun t w h => mk_keeps (foldl_fst_keeps h fun u b x h => ?_) rfl rfl rfl (by and_intros <;> first | exact .inr (by with_reducible rfl) | exact .inl (sub_of hp rfl))
  dsimp only
  repeat' first
    | exact h | exact State.send_keeps (sub_of hp rfl) (State.inc_keeps (sub_of hp rfl) h _ _) _ | exact State.inc_keeps (sub_of hp rfl) h _ _ | exact State.send_keeps (sub_of hp rfl) h _
    | exact State.sweepSend_keeps (sub_of hp rfl) h _ _ | split
theorem State.sweepCopies_keeps {P : ℕ} {s0 s : State} (hp : 524802 &&& P = 524802) (h : Keeps P s0 s) (a1 : Bool) : Keeps P s0 (State.sweepCopies s a1) := by
  unfold State.sweepCopies
  repeat' first
    | with_reducible assumption | exact sub_of hp rfl | exact rfl | with_reducible apply State.setPart_keeps
    | with_reducible apply State.wr_keeps | with_reducible apply State.engineReq_keeps | with_reducible apply ite_keeps
    | with_reducible apply foldl_keeps | with_reducible refine getD_keeps (fun _ _ => ?_) ?_ | intro _
    | cases ‹(_, _) = (_, _)› | cases ‹some _ = some _› | cases ‹none = some _›
    | fail_if_no_progress with_reducible refine mk_keeps ?_ rfl rfl rfl (by and_intros <;> first | exact .inr (by with_reducible rfl) | exact .inl (sub_of hp rfl)) | dsimp only | split
theorem State.sweepPress_keeps {P : ℕ} {s0 s : State} (hp : 5816851 &&& P = 5816851) (h : Keeps P s0 s) : Keeps P s0 (State.sweepPress s) := by
  unfold State.sweepPress
  repeat' first
    | with_reducible assumption | exact sub_of hp rfl | exact rfl | with_reducible apply State.pressCheck_keeps
    | with_reducible apply ite_keeps | with_reducible apply foldl_keeps
    | with_reducible refine getD_keeps (fun _ _ => ?_) ?_ | intro _ | cases ‹(_, _) = (_, _)› | cases ‹some _ = some _›
    | cases ‹none = some _›
    | fail_if_no_progress with_reducible refine mk_keeps ?_ rfl rfl rfl (by and_intros <;> first | exact .inr (by with_reducible rfl) | exact .inl (sub_of hp rfl)) | dsimp only | split
theorem State.sweepChain_keeps {P : ℕ} {s0 s : State} (hp : 131602 &&& P = 131602) (h : Keeps P s0 s) : Keeps P s0 (State.sweepChain s) := by
  unfold State.sweepChain
  repeat' first
    | with_reducible assumption | exact sub_of hp rfl | exact rfl | with_reducible apply State.sendOnlabs_keeps
    | with_reducible apply State.freeChain_keeps | with_reducible apply ite_keeps | with_reducible apply foldl_keeps
    | with_reducible refine getD_keeps (fun _ _ => ?_) ?_ | intro _ | cases ‹(_, _) = (_, _)› | cases ‹some _ = some _›
    | cases ‹none = some _›
    | fail_if_no_progress with_reducible refine mk_keeps ?_ rfl rfl rfl (by and_intros <;> first | exact .inr (by with_reducible rfl) | exact .inl (sub_of hp rfl)) | dsimp only | split
theorem State.sweepAll_keeps {P : ℕ} {s0 s : State} (hp : 5959195 &&& P = 5959195) (h : Keeps P s0 s) : Keeps P s0 (State.sweepAll s) := by
  unfold State.sweepAll
  repeat' first
    | with_reducible assumption | exact sub_of hp rfl | exact rfl | with_reducible apply State.reissueTags_keeps
    | with_reducible apply State.sweepHomes_keeps | with_reducible apply State.sweepCell_keeps
    | with_reducible apply State.sweepChain_keeps | with_reducible apply State.sweepRecalls_keeps
    | with_reducible apply State.sweepPress_keeps | with_reducible apply State.sweepCopies_keeps
    | with_reducible apply ite_keeps | with_reducible apply foldl_keeps
    | with_reducible refine getD_keeps (fun _ _ => ?_) ?_ | intro _ | cases ‹(_, _) = (_, _)› | cases ‹some _ = some _›
    | cases ‹none = some _›
    | fail_if_no_progress with_reducible refine mk_keeps ?_ rfl rfl rfl (by and_intros <;> first | exact .inr (by with_reducible rfl) | exact .inl (sub_of hp rfl)) | dsimp only | split
theorem State.healed_keeps {P : ℕ} {s0 s : State} (hp : 49667 &&& P = 49667) (h : Keeps P s0 s) : Keeps P s0 (State.healed s) := by
  unfold State.healed
  repeat' first
    | with_reducible assumption | exact sub_of hp rfl | exact rfl | with_reducible apply State.goMode_keeps
    | with_reducible apply ite_keeps | with_reducible apply foldl_keeps
    | with_reducible refine getD_keeps (fun _ _ => ?_) ?_ | intro _ | cases ‹(_, _) = (_, _)› | cases ‹some _ = some _›
    | cases ‹none = some _›
    | fail_if_no_progress with_reducible refine mk_keeps ?_ rfl rfl rfl (by and_intros <;> first | exact .inr (by with_reducible rfl) | exact .inl (sub_of hp rfl)) | dsimp only | split
theorem State.logReturned_keeps {P : ℕ} {s0 s : State} (hp : 16898 &&& P = 16898) (h : Keeps P s0 s) (a1 : Elem) : Keeps P s0 (State.logReturned s a1) := by
  unfold State.logReturned
  repeat' first
    | with_reducible assumption | exact sub_of hp rfl | exact rfl | with_reducible apply State.logFaultRec_keeps
    | with_reducible apply ite_keeps | with_reducible apply foldl_keeps
    | with_reducible refine getD_keeps (fun _ _ => ?_) ?_ | intro _ | cases ‹(_, _) = (_, _)› | cases ‹some _ = some _›
    | cases ‹none = some _›
    | fail_if_no_progress with_reducible refine mk_keeps ?_ rfl rfl rfl (by and_intros <;> first | exact .inr (by with_reducible rfl) | exact .inl (sub_of hp rfl)) | dsimp only | split
theorem State.endReturn_keeps {P : ℕ} {s0 s : State} (hp : 49667 &&& P = 49667) (h : Keeps P s0 s) (a1 : ℕ) : Keeps P s0 (State.endReturn s a1) := by
  unfold State.endReturn
  repeat' first
    | with_reducible assumption | exact sub_of hp rfl | exact rfl | with_reducible apply State.setDomains_keeps
    | with_reducible apply State.wr_keeps | with_reducible apply State.logReturned_keeps
    | with_reducible apply State.healed_keeps | with_reducible apply ite_keeps | with_reducible apply foldl_keeps
    | with_reducible refine getD_keeps (fun _ _ => ?_) ?_ | intro _ | cases ‹(_, _) = (_, _)› | cases ‹some _ = some _›
    | cases ‹none = some _›
    | fail_if_no_progress with_reducible refine mk_keeps ?_ rfl rfl rfl (by and_intros <;> first | exact .inr (by with_reducible rfl) | exact .inl (sub_of hp rfl)) | dsimp only | split
theorem State.giveWanted_keeps {P : ℕ} {s0 s : State} (hp : 49667 &&& P = 49667) (h : Keeps P s0 s) : Keeps P s0 (State.giveWanted s) := by
  unfold State.giveWanted
  repeat' first
    | with_reducible assumption | exact sub_of hp rfl | exact rfl | with_reducible apply State.endReturn_keeps
    | with_reducible apply ite_keeps | with_reducible apply foldl_keeps
    | with_reducible refine getD_keeps (fun _ _ => ?_) ?_ | intro _ | cases ‹(_, _) = (_, _)› | cases ‹some _ = some _›
    | cases ‹none = some _›
    | fail_if_no_progress with_reducible refine mk_keeps ?_ rfl rfl rfl (by and_intros <;> first | exact .inr (by with_reducible rfl) | exact .inl (sub_of hp rfl)) | dsimp only | split
theorem State.giveBack_keeps {P : ℕ} {s0 s : State} (hp : 49667 &&& P = 49667) (h : Keeps P s0 s) : Keeps P s0 (State.giveBack s) := by
  unfold State.giveBack
  repeat' first
    | with_reducible assumption | exact sub_of hp rfl | exact rfl | with_reducible apply State.openEpoch_keeps
    | with_reducible apply State.giveWanted_keeps | with_reducible apply ite_keeps | with_reducible apply foldl_keeps
    | with_reducible refine getD_keeps (fun _ _ => ?_) ?_ | intro _ | cases ‹(_, _) = (_, _)› | cases ‹some _ = some _›
    | cases ‹none = some _›
    | fail_if_no_progress with_reducible refine mk_keeps ?_ rfl rfl rfl (by and_intros <;> first | exact .inr (by with_reducible rfl) | exact .inl (sub_of hp rfl)) | dsimp only | split
theorem State.giveStep_keeps {P : ℕ} {s0 s : State} (hp : 4254211 &&& P = 4254211) (h : Keeps P s0 s) (a1 : ℕ) : Keeps P s0 (State.giveStep s a1) := by
  unfold State.giveStep
  repeat' first
    | with_reducible assumption | exact sub_of hp rfl | exact rfl | with_reducible apply State.homeRequest_keeps
    | with_reducible apply State.wr_keeps | with_reducible apply State.endReturn_keeps
    | with_reducible apply State.intakeTake_keeps | with_reducible apply ite_keeps | with_reducible apply foldl_keeps
    | with_reducible refine getD_keeps (fun _ _ => ?_) ?_ | intro _ | cases ‹(_, _) = (_, _)› | cases ‹some _ = some _›
    | cases ‹none = some _›
    | fail_if_no_progress with_reducible refine mk_keeps ?_ rfl rfl rfl (by and_intros <;> first | exact .inr (by with_reducible rfl) | exact .inl (sub_of hp rfl)) | dsimp only | split
theorem State.portTrain_keeps {P : ℕ} {s0 s : State} (hp : 131074 &&& P = 131074) (h : Keeps P s0 s) (a1 : Cell) : Keeps P s0 (State.portTrain s a1) := by
  unfold State.portTrain
  repeat' first
    | with_reducible assumption | exact sub_of hp rfl | exact rfl | with_reducible apply State.wr_keeps
    | with_reducible apply State.trainStart_keeps | with_reducible apply ite_keeps | with_reducible apply foldl_keeps
    | with_reducible refine getD_keeps (fun _ _ => ?_) ?_ | intro _ | cases ‹(_, _) = (_, _)› | cases ‹some _ = some _›
    | cases ‹none = some _›
    | fail_if_no_progress with_reducible refine mk_keeps ?_ rfl rfl rfl (by and_intros <;> first | exact .inr (by with_reducible rfl) | exact .inl (sub_of hp rfl)) | dsimp only | split
theorem State.cellReturn_keeps {P : ℕ} {s0 s : State} (hp : 1179650 &&& P = 1179650) (h : Keeps P s0 s) (a1 : Cell) : Keeps P s0 (State.cellReturn s a1) := by
  unfold State.cellReturn
  repeat' first
    | with_reducible assumption | exact sub_of hp rfl | exact rfl | with_reducible apply State.portTrain_keeps
    | with_reducible apply State.setRegion_keeps | with_reducible apply ite_keeps | with_reducible apply foldl_keeps
    | with_reducible refine getD_keeps (fun _ _ => ?_) ?_ | intro _ | cases ‹(_, _) = (_, _)› | cases ‹some _ = some _›
    | cases ‹none = some _›
    | fail_if_no_progress with_reducible refine mk_keeps ?_ rfl rfl rfl (by and_intros <;> first | exact .inr (by with_reducible rfl) | exact .inl (sub_of hp rfl)) | dsimp only | split
theorem State.dieReturn_keeps {P : ℕ} {s0 s : State} (hp : 16418 &&& P = 16418) (h : Keeps P s0 s) (a1 : ℕ) : Keeps P s0 (State.dieReturn s a1) := by
  unfold State.dieReturn
  repeat' first
    | with_reducible assumption | exact sub_of hp rfl | exact rfl | with_reducible apply State.sendHeldFaults_keeps
    | with_reducible apply ite_keeps | with_reducible apply foldl_keeps
    | with_reducible refine getD_keeps (fun _ _ => ?_) ?_ | intro _ | cases ‹(_, _) = (_, _)› | cases ‹some _ = some _›
    | cases ‹none = some _›
    | fail_if_no_progress with_reducible refine mk_keeps ?_ rfl rfl rfl (by and_intros <;> first | exact .inr (by with_reducible rfl) | exact .inl (sub_of hp rfl)) | dsimp only | split
theorem State.showEdges_keeps {P : ℕ} {s0 s : State} (hp : 2 &&& P = 2) (h : Keeps P s0 s) : Keeps P s0 (State.showEdges s) := by
  unfold State.showEdges
  repeat' first
    | with_reducible assumption | exact sub_of hp rfl | exact rfl | with_reducible apply State.edgeTrained_keeps
    | with_reducible apply ite_keeps | with_reducible apply foldl_keeps
    | with_reducible refine getD_keeps (fun _ _ => ?_) ?_ | intro _ | cases ‹(_, _) = (_, _)› | cases ‹some _ = some _›
    | cases ‹none = some _›
    | fail_if_no_progress with_reducible refine mk_keeps ?_ rfl rfl rfl (by and_intros <;> first | exact .inr (by with_reducible rfl) | exact .inl (sub_of hp rfl)) | dsimp only | split
theorem State.bringBack_keeps {P : ℕ} {s0 s : State} (hp : 1230882 &&& P = 1230882) (h : Keeps P s0 s) : Keeps P s0 (State.bringBack s) := by
  unfold State.bringBack
  repeat' first
    | with_reducible assumption | exact sub_of hp rfl | exact rfl | with_reducible apply State.dieReturn_keeps
    | with_reducible apply State.cellReturn_keeps | with_reducible apply State.stackReturn_keeps
    | with_reducible apply ite_keeps | with_reducible apply foldl_keeps
    | with_reducible refine getD_keeps (fun _ _ => ?_) ?_ | intro _ | cases ‹(_, _) = (_, _)› | cases ‹some _ = some _›
    | cases ‹none = some _›
    | fail_if_no_progress with_reducible refine mk_keeps ?_ rfl rfl rfl (by and_intros <;> first | exact .inr (by with_reducible rfl) | exact .inl (sub_of hp rfl)) | dsimp only | split
theorem State.refuseGroup_keeps {P : ℕ} {s0 s : State} (hp : 16386 &&& P = 16386) (h : Keeps P s0 s) (a1 : ℕ) (a2 : ℕ) (a3 : List ℕ) : Keeps P s0 (State.refuseGroup s a1 a2 a3) := by
  unfold State.refuseGroup
  repeat' first
    | with_reducible assumption | exact sub_of hp rfl | exact rfl | with_reducible apply State.logCommit_keeps
    | with_reducible apply ite_keeps | with_reducible apply foldl_keeps
    | with_reducible refine getD_keeps (fun _ _ => ?_) ?_ | intro _ | cases ‹(_, _) = (_, _)› | cases ‹some _ = some _›
    | cases ‹none = some _›
    | fail_if_no_progress with_reducible refine mk_keeps ?_ rfl rfl rfl (by and_intros <;> first | exact .inr (by with_reducible rfl) | exact .inl (sub_of hp rfl)) | dsimp only | split
theorem State.commitFence_keeps {P : ℕ} {s0 s : State} (hp : 2113538 &&& P = 2113538) (h : Keeps P s0 s) : Keeps P s0 (State.commitFence s) := by
  unfold State.commitFence
  repeat' first
    | with_reducible assumption | exact sub_of hp rfl | exact rfl | with_reducible apply State.refuseGroup_keeps
    | with_reducible apply ite_keeps | with_reducible apply foldl_keeps
    | with_reducible refine getD_keeps (fun _ _ => ?_) ?_ | intro _ | cases ‹(_, _) = (_, _)› | cases ‹some _ = some _›
    | cases ‹none = some _›
    | fail_if_no_progress with_reducible refine mk_keeps ?_ rfl rfl rfl (by and_intros <;> first | exact .inr (by with_reducible rfl) | exact .inl (sub_of hp rfl)) | dsimp only | split
theorem State.barrierFence_keeps {P : ℕ} {s0 s : State} (hp : 8013330 &&& P = 8013330) (h : Keeps P s0 s) : Keeps P s0 (State.barrierFence s) := by
  unfold State.barrierFence
  repeat' first
    | with_reducible assumption | exact sub_of hp rfl | exact rfl | with_reducible apply State.epochRegions_keeps
    | with_reducible apply State.barSwap_keeps | with_reducible apply State.nextCommit_keeps
    | with_reducible apply ite_keeps | with_reducible apply foldl_keeps
    | with_reducible refine getD_keeps (fun _ _ => ?_) ?_ | intro _ | cases ‹(_, _) = (_, _)› | cases ‹some _ = some _›
    | cases ‹none = some _›
    | fail_if_no_progress with_reducible refine mk_keeps ?_ rfl rfl rfl (by and_intros <;> first | exact .inr (by with_reducible rfl) | exact .inl (sub_of hp rfl)) | dsimp only | split
theorem State.fencedNow_keeps {P : ℕ} {s0 s : State} (hp : 512 &&& P = 512) (h : Keeps P s0 s) (a1 : List Elem) : Keeps P s0 (State.fencedNow s a1) := by
  unfold State.fencedNow
  repeat' first
    | with_reducible assumption | exact sub_of hp rfl | exact rfl | with_reducible apply ite_keeps
    | with_reducible apply foldl_keeps | with_reducible refine getD_keeps (fun _ _ => ?_) ?_ | intro _
    | cases ‹(_, _) = (_, _)› | cases ‹some _ = some _› | cases ‹none = some _›
    | fail_if_no_progress with_reducible refine mk_keeps ?_ rfl rfl rfl (by and_intros <;> first | exact .inr (by with_reducible rfl) | exact .inl (sub_of hp rfl)) | dsimp only | split
theorem State.returnFault_keeps {P : ℕ} {s0 s : State} (hp : 57859 &&& P = 57859) (h : Keeps P s0 s) (a1 : Bool) : Keeps P s0 (State.returnFault s a1) := by
  unfold State.returnFault
  repeat' first
    | with_reducible assumption | exact sub_of hp rfl | exact rfl | with_reducible apply State.endReturn_keeps
    | with_reducible apply ite_keeps | with_reducible apply foldl_keeps
    | with_reducible refine getD_keeps (fun _ _ => ?_) ?_ | intro _ | cases ‹(_, _) = (_, _)› | cases ‹some _ = some _›
    | cases ‹none = some _›
    | fail_if_no_progress with_reducible refine mk_keeps ?_ rfl rfl rfl (by and_intros <;> first | exact .inr (by with_reducible rfl) | exact .inl (sub_of hp rfl)) | dsimp only | split
theorem State.nextEpoch_keeps {P : ℕ} {s0 s : State} (hp : 16898 &&& P = 16898) (h : Keeps P s0 s) : Keeps P s0 (State.nextEpoch s) := by
  unfold State.nextEpoch
  repeat' first
    | with_reducible assumption | exact sub_of hp rfl | exact rfl | with_reducible apply State.fenceNotes_keeps
    | with_reducible apply ite_keeps | with_reducible apply foldl_keeps
    | with_reducible refine getD_keeps (fun _ _ => ?_) ?_ | intro _ | cases ‹(_, _) = (_, _)› | cases ‹some _ = some _›
    | cases ‹none = some _›
    | fail_if_no_progress with_reducible refine mk_keeps ?_ rfl rfl rfl (by and_intros <;> first | exact .inr (by with_reducible rfl) | exact .inl (sub_of hp rfl)) | dsimp only | split
theorem State.stepTwo_keeps {P : ℕ} {s0 s : State} (hp : 16386 &&& P = 16386) (h : Keeps P s0 s) (a1 : Bool) : Keeps P s0 (State.stepTwo s a1) := by
  unfold State.stepTwo
  repeat' first
    | with_reducible assumption | exact sub_of hp rfl | exact rfl | with_reducible apply State.logStep_keeps
    | with_reducible apply State.endReissue_keeps | with_reducible apply ite_keeps | with_reducible apply foldl_keeps
    | with_reducible refine getD_keeps (fun _ _ => ?_) ?_ | intro _ | cases ‹(_, _) = (_, _)› | cases ‹some _ = some _›
    | cases ‹none = some _›
    | fail_if_no_progress with_reducible refine mk_keeps ?_ rfl rfl rfl (by and_intros <;> first | exact .inr (by with_reducible rfl) | exact .inl (sub_of hp rfl)) | dsimp only | split
theorem State.fencedOut_keeps {P : ℕ} {s0 s : State} (hp : 8384027 &&& P = 8384027) (h : Keeps P s0 s) (a1 : List Elem) : Keeps P s0 (State.fencedOut s a1) := by
  unfold State.fencedOut
  repeat' first
    | with_reducible assumption | exact sub_of hp rfl | exact rfl | with_reducible apply State.rescale_keeps
    | with_reducible apply State.fencedNow_keeps | with_reducible apply State.setDomains_keeps
    | with_reducible apply State.sweepAll_keeps | with_reducible apply State.degrade_keeps
    | with_reducible apply ite_keeps | with_reducible apply foldl_keeps
    | with_reducible refine getD_keeps (fun _ _ => ?_) ?_ | intro _ | cases ‹(_, _) = (_, _)› | cases ‹some _ = some _›
    | cases ‹none = some _›
    | fail_if_no_progress with_reducible refine mk_keeps ?_ rfl rfl rfl (by and_intros <;> first | exact .inr (by with_reducible rfl) | exact .inl (sub_of hp rfl)) | dsimp only | split
theorem State.shiftEpoch_keeps {P : ℕ} {s0 s : State} (hp : 8121915 &&& P = 8121915) (h : Keeps P s0 s) : Keeps P s0 (State.shiftEpoch s) := by
  unfold State.shiftEpoch
  repeat' first
    | with_reducible assumption | exact sub_of hp rfl | exact rfl | with_reducible apply State.showEdges_keeps
    | with_reducible apply State.takeOut_keeps | with_reducible apply State.showLeader_keeps
    | with_reducible apply State.bringBack_keeps | with_reducible apply ite_keeps | with_reducible apply foldl_keeps
    | with_reducible refine getD_keeps (fun _ _ => ?_) ?_ | intro _ | cases ‹(_, _) = (_, _)› | cases ‹some _ = some _›
    | cases ‹none = some _›
    | fail_if_no_progress with_reducible refine mk_keeps ?_ rfl rfl rfl (by and_intros <;> first | exact .inr (by with_reducible rfl) | exact .inl (sub_of hp rfl)) | dsimp only | split
theorem State.clearEpoch_keeps {P : ℕ} {s0 s : State} (hp : 512 &&& P = 512) (h : Keeps P s0 s) : Keeps P s0 (State.clearEpoch s) := by
  unfold State.clearEpoch
  repeat' first
    | with_reducible assumption | exact sub_of hp rfl | exact rfl | with_reducible apply ite_keeps
    | with_reducible apply foldl_keeps | with_reducible refine getD_keeps (fun _ _ => ?_) ?_ | intro _
    | cases ‹(_, _) = (_, _)› | cases ‹some _ = some _› | cases ‹none = some _›
    | fail_if_no_progress with_reducible refine mk_keeps ?_ rfl rfl rfl (by and_intros <;> first | exact .inr (by with_reducible rfl) | exact .inl (sub_of hp rfl)) | dsimp only | split
theorem State.endGive_keeps {P : ℕ} {s0 s : State} (hp : 4254211 &&& P = 4254211) (h : Keeps P s0 s) (a1 : ℕ) : Keeps P s0 (State.endGive s a1) := by
  unfold State.endGive
  repeat' first
    | with_reducible assumption | exact sub_of hp rfl | exact rfl | with_reducible apply State.giveStep_keeps
    | with_reducible apply State.giveWanted_keeps | with_reducible apply ite_keeps | with_reducible apply foldl_keeps
    | with_reducible refine getD_keeps (fun _ _ => ?_) ?_ | intro _ | cases ‹(_, _) = (_, _)› | cases ‹some _ = some _›
    | cases ‹none = some _›
    | fail_if_no_progress with_reducible refine mk_keeps ?_ rfl rfl rfl (by and_intros <;> first | exact .inr (by with_reducible rfl) | exact .inl (sub_of hp rfl)) | dsimp only | split
theorem State.closeEpoch_keeps {P : ℕ} {s0 s : State} (hp : 8384059 &&& P = 8384059) (h : Keeps P s0 s) : Keeps P s0 (State.closeEpoch s) := by
  unfold State.closeEpoch
  have h1 := fun l => State.fencedOut_keeps (sub_of hp rfl) (State.takeover_keeps (sub_of hp rfl) (State.shiftEpoch_keeps (sub_of hp rfl) h)) l
  have h2 := fun c d b l => @ite_keeps P s0 _ _ c d (fun _ => State.stepTwo_keeps (sub_of hp rfl) (h1 l) b) fun _ => h1 l
  exact State.nextEpoch_keeps (sub_of hp rfl) (State.healed_keeps (sub_of hp rfl) (State.endGive_keeps (sub_of hp rfl) (State.returnFault_keeps (sub_of hp rfl) (State.barrierFence_keeps (sub_of hp rfl) (State.commitFence_keeps (sub_of hp rfl)
    (State.clearEpoch_keeps (sub_of hp rfl) (h2 _ _ _ _)))) _) _))
theorem State.tryClose_keeps {P : ℕ} {s0 s : State} (hp : 8384059 &&& P = 8384059) (h : Keeps P s0 s) : Keeps P s0 (State.tryClose s) := by
  unfold State.tryClose
  repeat' first
    | with_reducible assumption | exact sub_of hp rfl | exact rfl | with_reducible apply State.closeEpoch_keeps
    | with_reducible apply ite_keeps | with_reducible apply foldl_keeps
    | with_reducible refine getD_keeps (fun _ _ => ?_) ?_ | intro _ | cases ‹(_, _) = (_, _)› | cases ‹some _ = some _›
    | cases ‹none = some _›
    | fail_if_no_progress with_reducible refine mk_keeps ?_ rfl rfl rfl (by and_intros <;> first | exact .inr (by with_reducible rfl) | exact .inl (sub_of hp rfl)) | dsimp only | split
theorem execFenceCompletionReport_keeps_eq {P : ℕ} {s0 s t : State} (hp : 8384059 &&& P = 8384059) {a0 : Cell} (e : execFenceCompletionReport a0 s = .next t) (h : Keeps P s0 s) : Keeps P s0 t := by
  unfold execFenceCompletionReport at e
  repeat' first
    | cases ‹Host.Outcome.next _ = Host.Outcome.next _› | cases ‹Host.Outcome.refused _ = Host.Outcome.next _›
    | cases ‹Host.Outcome.fault _ = Host.Outcome.next _› | split at e | with_reducible assumption | exact sub_of hp rfl
    | exact rfl | with_reducible apply State.tryClose_keeps | with_reducible apply ite_keeps
    | with_reducible apply foldl_keeps | with_reducible refine getD_keeps (fun _ _ => ?_) ?_ | intro _
    | cases ‹(_, _) = (_, _)› | cases ‹some _ = some _› | cases ‹none = some _›
    | fail_if_no_progress with_reducible refine mk_keeps ?_ rfl rfl rfl (by and_intros <;> first | exact .inr (by with_reducible rfl) | exact .inl (sub_of hp rfl)) | dsimp only | dsimp only at e | split
theorem execResilverBlockAck_keeps_eq {P : ℕ} {s0 s t : State} (hp : 57859 &&& P = 57859) {a0 : Die} (e : execResilverBlockAck a0 s = .next t) (h : Keeps P s0 s) : Keeps P s0 t := by
  unfold execResilverBlockAck at e
  repeat' first
    | cases ‹Host.Outcome.next _ = Host.Outcome.next _› | cases ‹Host.Outcome.refused _ = Host.Outcome.next _›
    | cases ‹Host.Outcome.fault _ = Host.Outcome.next _› | split at e | with_reducible assumption | exact sub_of hp rfl
    | exact rfl | with_reducible apply State.giveBack_keeps | with_reducible apply State.rebuildEnd_keeps
    | with_reducible apply State.resilverAck_keeps | with_reducible apply ite_keeps | with_reducible apply foldl_keeps
    | with_reducible refine getD_keeps (fun _ _ => ?_) ?_ | intro _ | cases ‹(_, _) = (_, _)› | cases ‹some _ = some _›
    | cases ‹none = some _›
    | fail_if_no_progress with_reducible refine mk_keeps ?_ rfl rfl rfl (by and_intros <;> first | exact .inr (by with_reducible rfl) | exact .inl (sub_of hp rfl)) | dsimp only | dsimp only at e | split

/-! ### Machine/Lane -/

theorem State.recovery_keeps {P : ℕ} {s0 s : State} (hp : 65538 &&& P = 65538) (h : Keeps P s0 s) (a1 : Cell) (a2 : ℕ × Bool) (a3 : Bool) : Keeps P s0 (State.recovery s a1 a2 a3) := by
  unfold State.recovery
  repeat' first
    | with_reducible assumption | exact sub_of hp rfl | exact rfl | with_reducible apply State.wr_keeps
    | with_reducible apply State.sat_keeps | with_reducible apply ite_keeps | with_reducible apply foldl_keeps
    | with_reducible refine getD_keeps (fun _ _ => ?_) ?_ | intro _ | cases ‹(_, _) = (_, _)› | cases ‹some _ = some _›
    | cases ‹none = some _›
    | fail_if_no_progress with_reducible refine mk_keeps ?_ rfl rfl rfl (by and_intros <;> first | exact .inr (by with_reducible rfl) | exact .inl (sub_of hp rfl)) | dsimp only | split
theorem State.narrow_keeps {P : ℕ} {s0 s : State} (hp : 8119835 &&& P = 8119835) (h : Keeps P s0 s) (a1 : Cell) : Keeps P s0 (State.narrow s a1) := by
  unfold State.narrow
  repeat' first
    | with_reducible assumption | exact sub_of hp rfl | exact rfl | with_reducible apply State.linkDown_keeps
    | with_reducible apply State.recovery_keeps | with_reducible apply ite_keeps | with_reducible apply foldl_keeps
    | with_reducible refine getD_keeps (fun _ _ => ?_) ?_ | intro _ | cases ‹(_, _) = (_, _)› | cases ‹some _ = some _›
    | cases ‹none = some _›
    | fail_if_no_progress with_reducible refine mk_keeps ?_ rfl rfl rfl (by and_intros <;> first | exact .inr (by with_reducible rfl) | exact .inl (sub_of hp rfl)) | dsimp only | split
theorem State.laneFaulty_keeps {P : ℕ} {s0 s : State} (hp : 8119835 &&& P = 8119835) (h : Keeps P s0 s) (a1 : Lane) : Keeps P s0 (State.laneFaulty s a1) := by
  unfold State.laneFaulty
  repeat' first
    | with_reducible assumption | exact sub_of hp rfl | exact rfl | with_reducible apply State.narrow_keeps
    | with_reducible apply State.linkBreak_keeps | with_reducible apply State.wrBit_keeps
    | with_reducible apply State.wr_keeps | with_reducible apply State.logStep_keeps
    | with_reducible apply State.beginRecovery_keeps | with_reducible apply State.logFault_keeps
    | with_reducible apply ite_keeps | with_reducible apply foldl_keeps
    | with_reducible refine getD_keeps (fun _ _ => ?_) ?_ | intro _ | cases ‹(_, _) = (_, _)› | cases ‹some _ = some _›
    | cases ‹none = some _›
    | fail_if_no_progress with_reducible refine mk_keeps ?_ rfl rfl rfl (by and_intros <;> first | exact .inr (by with_reducible rfl) | exact .inl (sub_of hp rfl)) | dsimp only | split
theorem execLaneFault_keeps_eq {P : ℕ} {s0 s t : State} (hp : 8119835 &&& P = 8119835) {a0 : Lane} {a1 : Bool} {a2 : BitVec 32} (e : execLaneFault a0 a1 a2 s = .next t) (h : Keeps P s0 s) : Keeps P s0 t := by
  unfold execLaneFault at e
  repeat' first
    | cases ‹Host.Outcome.next _ = Host.Outcome.next _› | cases ‹Host.Outcome.refused _ = Host.Outcome.next _›
    | cases ‹Host.Outcome.fault _ = Host.Outcome.next _› | split at e | with_reducible assumption | exact sub_of hp rfl
    | exact rfl | with_reducible apply State.wr_keeps | with_reducible apply State.laneFaulty_keeps
    | with_reducible apply State.sat_keeps | with_reducible apply ite_keeps | with_reducible apply foldl_keeps
    | with_reducible refine getD_keeps (fun _ _ => ?_) ?_ | intro _ | cases ‹(_, _) = (_, _)› | cases ‹some _ = some _›
    | cases ‹none = some _›
    | fail_if_no_progress with_reducible refine mk_keeps ?_ rfl rfl rfl (by and_intros <;> first | exact .inr (by with_reducible rfl) | exact .inl (sub_of hp rfl)) | dsimp only | dsimp only at e | split
theorem State.reduced_keeps {P : ℕ} {s0 s : State} (hp : 16386 &&& P = 16386) (h : Keeps P s0 s) (a1 : Cell) (a2 : Option ℕ) : Keeps P s0 (State.reduced s a1 a2) := by
  unfold State.reduced
  repeat' first
    | with_reducible assumption | exact sub_of hp rfl | exact rfl | with_reducible apply State.logYield_keeps
    | with_reducible apply State.wr_keeps | with_reducible apply State.sat_keeps | with_reducible apply ite_keeps
    | with_reducible apply foldl_keeps | with_reducible refine getD_keeps (fun _ _ => ?_) ?_ | intro _
    | cases ‹(_, _) = (_, _)› | cases ‹some _ = some _› | cases ‹none = some _›
    | fail_if_no_progress with_reducible refine mk_keeps ?_ rfl rfl rfl (by and_intros <;> first | exact .inr (by with_reducible rfl) | exact .inl (sub_of hp rfl)) | dsimp only | split
theorem State.sendOn_keeps {P : ℕ} {s0 s : State} (hp : 66562 &&& P = 66562) (h : Keeps P s0 s) (a1 : Cell) (a2 : ℕ) (a3 : ℕ) : Keeps P s0 (State.sendOn s a1 a2 a3) := by
  unfold State.sendOn
  repeat' first
    | with_reducible assumption | exact sub_of hp rfl | exact rfl | with_reducible apply State.sat_keeps
    | with_reducible apply ite_keeps | with_reducible apply foldl_keeps
    | with_reducible refine getD_keeps (fun _ _ => ?_) ?_ | intro _ | cases ‹(_, _) = (_, _)› | cases ‹some _ = some _›
    | cases ‹none = some _›
    | fail_if_no_progress with_reducible refine mk_keeps ?_ rfl rfl rfl (by and_intros <;> first | exact .inr (by with_reducible rfl) | exact .inl (sub_of hp rfl)) | dsimp only | split
theorem execWidthReduceL0_keeps_eq {P : ℕ} {s0 s t : State} (hp : 115714 &&& P = 115714) {a0 : Cell} (e : execWidthReduceL0 a0 s = .next t) (h : Keeps P s0 s) : Keeps P s0 t := by
  unfold execWidthReduceL0 at e
  repeat' first
    | cases ‹Host.Outcome.next _ = Host.Outcome.next _› | cases ‹Host.Outcome.refused _ = Host.Outcome.next _›
    | cases ‹Host.Outcome.fault _ = Host.Outcome.next _› | split at e | with_reducible assumption | exact sub_of hp rfl
    | exact rfl | with_reducible apply State.portL0_keeps | with_reducible apply State.reduced_keeps
    | with_reducible apply State.sendOn_keeps | with_reducible apply ite_keeps | with_reducible apply foldl_keeps
    | with_reducible refine getD_keeps (fun _ _ => ?_) ?_ | intro _ | cases ‹(_, _) = (_, _)› | cases ‹some _ = some _›
    | cases ‹none = some _›
    | fail_if_no_progress with_reducible refine mk_keeps ?_ rfl rfl rfl (by and_intros <;> first | exact .inr (by with_reducible rfl) | exact .inl (sub_of hp rfl)) | dsimp only | dsimp only at e | split
theorem State.widthRestore_keeps {P : ℕ} {s0 s : State} (hp : 196610 &&& P = 196610) (h : Keeps P s0 s) (a1 : Cell) : Keeps P s0 (State.widthRestore s a1) := by
  unfold State.widthRestore
  repeat' first
    | with_reducible assumption | exact sub_of hp rfl | exact rfl | with_reducible apply State.wr_keeps
    | with_reducible apply State.trainStart_keeps | with_reducible apply State.recovery_keeps
    | with_reducible apply State.flag_keeps | with_reducible apply State.wrb_keeps | with_reducible apply ite_keeps
    | with_reducible apply foldl_keeps | with_reducible refine getD_keeps (fun _ _ => ?_) ?_ | intro _
    | cases ‹(_, _) = (_, _)› | cases ‹some _ = some _› | cases ‹none = some _›
    | fail_if_no_progress with_reducible refine mk_keeps ?_ rfl rfl rfl (by and_intros <;> first | exact .inr (by with_reducible rfl) | exact .inl (sub_of hp rfl)) | dsimp only | split
theorem execWidthRestore_keeps_eq {P : ℕ} {s0 s t : State} (hp : 212994 &&& P = 212994) {a0 : Src} {a1 : Cell} (e : execWidthRestore a0 a1 s = .next t) (h : Keeps P s0 s) : Keeps P s0 t := by
  unfold execWidthRestore at e
  repeat' first
    | cases ‹Host.Outcome.next _ = Host.Outcome.next _› | cases ‹Host.Outcome.refused _ = Host.Outcome.next _›
    | cases ‹Host.Outcome.fault _ = Host.Outcome.next _› | split at e | with_reducible assumption | exact sub_of hp rfl
    | exact rfl | with_reducible apply State.widthRestore_keeps | with_reducible apply State.ifMay_keeps
    | with_reducible apply ite_keeps | with_reducible apply foldl_keeps
    | with_reducible refine getD_keeps (fun _ _ => ?_) ?_ | intro _ | cases ‹(_, _) = (_, _)› | cases ‹some _ = some _›
    | cases ‹none = some _›
    | fail_if_no_progress with_reducible refine mk_keeps ?_ rfl rfl rfl (by and_intros <;> first | exact .inr (by with_reducible rfl) | exact .inl (sub_of hp rfl)) | dsimp only | dsimp only at e | split
theorem execRefclkLoss_keeps_eq {P : ℕ} {s0 s t : State} (hp : 8119835 &&& P = 8119835) {a0 : Die} (e : execRefclkLoss a0 s = .next t) (h : Keeps P s0 s) : Keeps P s0 t := by
  unfold execRefclkLoss at e
  repeat' first
    | cases ‹Host.Outcome.next _ = Host.Outcome.next _› | cases ‹Host.Outcome.refused _ = Host.Outcome.next _›
    | cases ‹Host.Outcome.fault _ = Host.Outcome.next _› | split at e | with_reducible assumption | exact sub_of hp rfl
    | exact rfl | with_reducible apply State.linkDown_keeps | with_reducible apply State.wr_keeps
    | with_reducible apply State.logFault_keeps | with_reducible apply ite_keeps | with_reducible apply foldl_keeps
    | with_reducible refine getD_keeps (fun _ _ => ?_) ?_ | intro _ | cases ‹(_, _) = (_, _)› | cases ‹some _ = some _›
    | cases ‹none = some _›
    | fail_if_no_progress with_reducible refine mk_keeps ?_ rfl rfl rfl (by and_intros <;> first | exact .inr (by with_reducible rfl) | exact .inl (sub_of hp rfl)) | dsimp only | dsimp only at e | split
theorem execRefclkReturn_keeps_eq {P : ℕ} {s0 s t : State} (hp : 2 &&& P = 2) {a0 : Die} (e : execRefclkReturn a0 s = .next t) (h : Keeps P s0 s) : Keeps P s0 t := by
  unfold execRefclkReturn at e
  repeat' first
    | cases ‹Host.Outcome.next _ = Host.Outcome.next _› | cases ‹Host.Outcome.refused _ = Host.Outcome.next _›
    | cases ‹Host.Outcome.fault _ = Host.Outcome.next _› | split at e | with_reducible assumption | exact sub_of hp rfl
    | exact rfl | with_reducible apply State.wr_keeps | with_reducible apply ite_keeps | with_reducible apply foldl_keeps
    | with_reducible refine getD_keeps (fun _ _ => ?_) ?_ | intro _ | cases ‹(_, _) = (_, _)› | cases ‹some _ = some _›
    | cases ‹none = some _›
    | fail_if_no_progress with_reducible refine mk_keeps ?_ rfl rfl rfl (by and_intros <;> first | exact .inr (by with_reducible rfl) | exact .inl (sub_of hp rfl)) | dsimp only | dsimp only at e | split
theorem State.lanePwr_keeps {P : ℕ} {s0 s : State} (hp : 2 &&& P = 2) (h : Keeps P s0 s) (a1 : Cell) (a2 : ℕ) : Keeps P s0 (State.lanePwr s a1 a2) := by
  unfold State.lanePwr
  repeat' first
    | with_reducible assumption | exact sub_of hp rfl | exact rfl | with_reducible apply State.wr_keeps
    | with_reducible apply ite_keeps | with_reducible apply foldl_keeps
    | with_reducible refine getD_keeps (fun _ _ => ?_) ?_ | intro _ | cases ‹(_, _) = (_, _)› | cases ‹some _ = some _›
    | cases ‹none = some _›
    | fail_if_no_progress with_reducible refine mk_keeps ?_ rfl rfl rfl (by and_intros <;> first | exact .inr (by with_reducible rfl) | exact .inl (sub_of hp rfl)) | dsimp only | split
theorem execL1Entry_keeps_eq {P : ℕ} {s0 s t : State} (hp : 2 &&& P = 2) {a0 : Cell} (e : execL1Entry a0 s = .next t) (h : Keeps P s0 s) : Keeps P s0 t := by
  unfold execL1Entry at e
  repeat' first
    | cases ‹Host.Outcome.next _ = Host.Outcome.next _› | cases ‹Host.Outcome.refused _ = Host.Outcome.next _›
    | cases ‹Host.Outcome.fault _ = Host.Outcome.next _› | split at e | with_reducible assumption | exact sub_of hp rfl
    | exact rfl | with_reducible apply State.wr_keeps | with_reducible apply State.lanePwr_keeps
    | with_reducible apply ite_keeps | with_reducible apply foldl_keeps
    | with_reducible refine getD_keeps (fun _ _ => ?_) ?_ | intro _ | cases ‹(_, _) = (_, _)› | cases ‹some _ = some _›
    | cases ‹none = some _›
    | fail_if_no_progress with_reducible refine mk_keeps ?_ rfl rfl rfl (by and_intros <;> first | exact .inr (by with_reducible rfl) | exact .inl (sub_of hp rfl)) | dsimp only | dsimp only at e | split
theorem execL1Exit_keeps_eq {P : ℕ} {s0 s t : State} (hp : 8119835 &&& P = 8119835) {a0 : Cell} {a1 : BitVec 16} (e : execL1Exit a0 a1 s = .next t) (h : Keeps P s0 s) : Keeps P s0 t := by
  unfold execL1Exit at e
  repeat' first
    | cases ‹Host.Outcome.next _ = Host.Outcome.next _› | cases ‹Host.Outcome.refused _ = Host.Outcome.next _›
    | cases ‹Host.Outcome.fault _ = Host.Outcome.next _› | split at e | with_reducible assumption | exact sub_of hp rfl
    | exact rfl | with_reducible apply State.wakeCell_keeps | with_reducible apply State.wr_keeps
    | with_reducible apply State.lanePwr_keeps | with_reducible apply State.laneFaulty_keeps
    | with_reducible apply State.sat_keeps | with_reducible apply ite_keeps | with_reducible apply foldl_keeps
    | with_reducible refine getD_keeps (fun _ _ => ?_) ?_ | intro _ | cases ‹(_, _) = (_, _)› | cases ‹some _ = some _›
    | cases ‹none = some _›
    | fail_if_no_progress with_reducible refine mk_keeps ?_ rfl rfl rfl (by and_intros <;> first | exact .inr (by with_reducible rfl) | exact .inl (sub_of hp rfl)) | dsimp only | dsimp only at e | split
theorem State.testEnter_keeps {P : ℕ} {s0 s : State} (hp : 8119835 &&& P = 8119835) (h : Keeps P s0 s) (a1 : Cell) : Keeps P s0 (State.testEnter s a1) := by
  unfold State.testEnter
  repeat' first
    | with_reducible assumption | exact sub_of hp rfl | exact rfl | with_reducible apply State.linkDown_keeps
    | with_reducible apply State.linkBreak_keeps | with_reducible apply State.setDomains_keeps
    | with_reducible apply State.wr_keeps | with_reducible apply State.flag_keeps | with_reducible apply ite_keeps
    | with_reducible apply foldl_keeps | with_reducible refine getD_keeps (fun _ _ => ?_) ?_ | intro _
    | cases ‹(_, _) = (_, _)› | cases ‹some _ = some _› | cases ‹none = some _›
    | fail_if_no_progress with_reducible refine mk_keeps ?_ rfl rfl rfl (by and_intros <;> first | exact .inr (by with_reducible rfl) | exact .inl (sub_of hp rfl)) | dsimp only | split
theorem execTestEnter_keeps_eq {P : ℕ} {s0 s t : State} (hp : 8119835 &&& P = 8119835) {a0 : Src} {a1 : Cell} (e : execTestEnter a0 a1 s = .next t) (h : Keeps P s0 s) : Keeps P s0 t := by
  unfold execTestEnter at e
  repeat' first
    | cases ‹Host.Outcome.next _ = Host.Outcome.next _› | cases ‹Host.Outcome.refused _ = Host.Outcome.next _›
    | cases ‹Host.Outcome.fault _ = Host.Outcome.next _› | split at e | with_reducible assumption | exact sub_of hp rfl
    | exact rfl | with_reducible apply State.ifMay_keeps | with_reducible apply State.testEnter_keeps
    | with_reducible apply ite_keeps | with_reducible apply foldl_keeps
    | with_reducible refine getD_keeps (fun _ _ => ?_) ?_ | intro _ | cases ‹(_, _) = (_, _)› | cases ‹some _ = some _›
    | cases ‹none = some _›
    | fail_if_no_progress with_reducible refine mk_keeps ?_ rfl rfl rfl (by and_intros <;> first | exact .inr (by with_reducible rfl) | exact .inl (sub_of hp rfl)) | dsimp only | dsimp only at e | split
theorem State.testExit_keeps {P : ℕ} {s0 s : State} (hp : 98306 &&& P = 98306) (h : Keeps P s0 s) (a1 : Cell) : Keeps P s0 (State.testExit s a1) := by
  unfold State.testExit
  repeat' first
    | with_reducible assumption | exact sub_of hp rfl | exact rfl | with_reducible apply State.endTest_keeps
    | with_reducible apply ite_keeps | with_reducible apply foldl_keeps
    | with_reducible refine getD_keeps (fun _ _ => ?_) ?_ | intro _ | cases ‹(_, _) = (_, _)› | cases ‹some _ = some _›
    | cases ‹none = some _›
    | fail_if_no_progress with_reducible refine mk_keeps ?_ rfl rfl rfl (by and_intros <;> first | exact .inr (by with_reducible rfl) | exact .inl (sub_of hp rfl)) | dsimp only | split
theorem execTestExit_keeps_eq {P : ℕ} {s0 s t : State} (hp : 114690 &&& P = 114690) {a0 : Src} {a1 : Cell} (e : execTestExit a0 a1 s = .next t) (h : Keeps P s0 s) : Keeps P s0 t := by
  unfold execTestExit at e
  repeat' first
    | cases ‹Host.Outcome.next _ = Host.Outcome.next _› | cases ‹Host.Outcome.refused _ = Host.Outcome.next _›
    | cases ‹Host.Outcome.fault _ = Host.Outcome.next _› | split at e | with_reducible assumption | exact sub_of hp rfl
    | exact rfl | with_reducible apply State.testExit_keeps | with_reducible apply State.ifMay_keeps
    | with_reducible apply ite_keeps | with_reducible apply foldl_keeps
    | with_reducible refine getD_keeps (fun _ _ => ?_) ?_ | intro _ | cases ‹(_, _) = (_, _)› | cases ‹some _ = some _›
    | cases ‹none = some _›
    | fail_if_no_progress with_reducible refine mk_keeps ?_ rfl rfl rfl (by and_intros <;> first | exact .inr (by with_reducible rfl) | exact .inl (sub_of hp rfl)) | dsimp only | dsimp only at e | split
theorem State.inject_keeps {P : ℕ} {s0 s : State} (hp : 65538 &&& P = 65538) (h : Keeps P s0 s) (a1 : Lane) : Keeps P s0 (State.inject s a1) := by
  unfold State.inject
  repeat' first
    | with_reducible assumption | exact sub_of hp rfl | exact rfl | with_reducible apply State.sat_keeps
    | with_reducible apply ite_keeps | with_reducible apply foldl_keeps
    | with_reducible refine getD_keeps (fun _ _ => ?_) ?_ | intro _ | cases ‹(_, _) = (_, _)› | cases ‹some _ = some _›
    | cases ‹none = some _›
    | fail_if_no_progress with_reducible refine mk_keeps ?_ rfl rfl rfl (by and_intros <;> first | exact .inr (by with_reducible rfl) | exact .inl (sub_of hp rfl)) | dsimp only | split
theorem execInjOne_keeps_eq {P : ℕ} {s0 s t : State} (hp : 81922 &&& P = 81922) {a0 : Src} {a1 : Lane} (e : execInjOne a0 a1 s = .next t) (h : Keeps P s0 s) : Keeps P s0 t := by
  unfold execInjOne at e
  repeat' first
    | cases ‹Host.Outcome.next _ = Host.Outcome.next _› | cases ‹Host.Outcome.refused _ = Host.Outcome.next _›
    | cases ‹Host.Outcome.fault _ = Host.Outcome.next _› | split at e | with_reducible assumption | exact sub_of hp rfl
    | exact rfl | with_reducible apply State.inject_keeps | with_reducible apply State.ifMay_keeps
    | with_reducible apply ite_keeps | with_reducible apply foldl_keeps
    | with_reducible refine getD_keeps (fun _ _ => ?_) ?_ | intro _ | cases ‹(_, _) = (_, _)› | cases ‹some _ = some _›
    | cases ‹none = some _›
    | fail_if_no_progress with_reducible refine mk_keeps ?_ rfl rfl rfl (by and_intros <;> first | exact .inr (by with_reducible rfl) | exact .inl (sub_of hp rfl)) | dsimp only | dsimp only at e | split
theorem execInjRateError_keeps_eq {P : ℕ} {s0 s t : State} (hp : 65538 &&& P = 65538) {a0 : Lane} (e : execInjRateError a0 s = .next t) (h : Keeps P s0 s) : Keeps P s0 t := by
  unfold execInjRateError at e
  repeat' first
    | cases ‹Host.Outcome.next _ = Host.Outcome.next _› | cases ‹Host.Outcome.refused _ = Host.Outcome.next _›
    | cases ‹Host.Outcome.fault _ = Host.Outcome.next _› | split at e | with_reducible assumption | exact sub_of hp rfl
    | exact rfl | with_reducible apply State.inject_keeps | with_reducible apply ite_keeps
    | with_reducible apply foldl_keeps | with_reducible refine getD_keeps (fun _ _ => ?_) ?_ | intro _
    | cases ‹(_, _) = (_, _)› | cases ‹some _ = some _› | cases ‹none = some _›
    | fail_if_no_progress with_reducible refine mk_keeps ?_ rfl rfl rfl (by and_intros <;> first | exact .inr (by with_reducible rfl) | exact .inl (sub_of hp rfl)) | dsimp only | dsimp only at e | split
theorem State.setChkEn_keeps {P : ℕ} {s0 s : State} (hp : 65538 &&& P = 65538) (h : Keeps P s0 s) (a1 : Lane) (a2 : Bool) : Keeps P s0 (State.setChkEn s a1 a2) := by
  unfold State.setChkEn
  repeat' first
    | with_reducible assumption | exact sub_of hp rfl | exact rfl | with_reducible apply State.wr_keeps
    | with_reducible apply ite_keeps | with_reducible apply foldl_keeps
    | with_reducible refine getD_keeps (fun _ _ => ?_) ?_ | intro _ | cases ‹(_, _) = (_, _)› | cases ‹some _ = some _›
    | cases ‹none = some _›
    | fail_if_no_progress with_reducible refine mk_keeps ?_ rfl rfl rfl (by and_intros <;> first | exact .inr (by with_reducible rfl) | exact .inl (sub_of hp rfl)) | dsimp only | split
theorem execChkEnSet_keeps_eq {P : ℕ} {s0 s t : State} (hp : 81922 &&& P = 81922) {a0 : Src} {a1 : Lane} (e : execChkEnSet a0 a1 s = .next t) (h : Keeps P s0 s) : Keeps P s0 t := by
  unfold execChkEnSet at e
  repeat' first
    | cases ‹Host.Outcome.next _ = Host.Outcome.next _› | cases ‹Host.Outcome.refused _ = Host.Outcome.next _›
    | cases ‹Host.Outcome.fault _ = Host.Outcome.next _› | split at e | with_reducible assumption | exact sub_of hp rfl
    | exact rfl | with_reducible apply State.setChkEn_keeps | with_reducible apply State.ifMay_keeps
    | with_reducible apply ite_keeps | with_reducible apply foldl_keeps
    | with_reducible refine getD_keeps (fun _ _ => ?_) ?_ | intro _ | cases ‹(_, _) = (_, _)› | cases ‹some _ = some _›
    | cases ‹none = some _›
    | fail_if_no_progress with_reducible refine mk_keeps ?_ rfl rfl rfl (by and_intros <;> first | exact .inr (by with_reducible rfl) | exact .inl (sub_of hp rfl)) | dsimp only | dsimp only at e | split
theorem State.mayRead_keeps_eq {P : ℕ} {s0 s t : State} (hp : 16386 &&& P = 16386) {a1 : Src} {a2 : ℕ} {r} (e : State.mayRead s a1 a2 = (r, t)) (h : Keeps P s0 s) : Keeps P s0 t := by
  unfold State.mayRead at e
  repeat' first
    | split at e | with_reducible assumption | exact sub_of hp rfl | exact rfl
    | with_reducible apply State.jtagRefused_keeps | with_reducible apply State.logAccess_keeps
    | with_reducible apply ite_keeps | with_reducible apply foldl_keeps
    | with_reducible refine getD_keeps (fun _ _ => ?_) ?_ | intro _ | cases ‹(_, _) = (_, _)› | cases ‹some _ = some _›
    | cases ‹none = some _›
    | fail_if_no_progress with_reducible refine mk_keeps ?_ rfl rfl rfl (by and_intros <;> first | exact .inr (by with_reducible rfl) | exact .inl (sub_of hp rfl)) | dsimp only | dsimp only at e | split
theorem State.mayRead_keeps {P : ℕ} {s0 s : State} (hp : 16386 &&& P = 16386) (h : Keeps P s0 s) (a1 : Src) (a2 : ℕ) : Keeps P s0 (State.mayRead s a1 a2).2 :=
  State.mayRead_keeps_eq hp (Prod.mk.eta (p := State.mayRead s a1 a2)).symm h
theorem execLanePrbsStatRead_keeps_eq {P : ℕ} {s0 s t : State} (hp : 16386 &&& P = 16386) {a0 : Src} {a1 : Lane} (e : execLanePrbsStatRead a0 a1 s = .next t) (h : Keeps P s0 s) : Keeps P s0 t := by
  unfold execLanePrbsStatRead at e
  repeat' first
    | cases ‹Host.Outcome.next _ = Host.Outcome.next _› | cases ‹Host.Outcome.refused _ = Host.Outcome.next _›
    | cases ‹Host.Outcome.fault _ = Host.Outcome.next _› | split at e | with_reducible assumption | exact sub_of hp rfl
    | exact rfl | refine State.mayRead_keeps_eq (sub_of hp rfl) (by assumption) ?_
    | with_reducible apply State.mayRead_keeps | with_reducible apply State.wr_keeps | with_reducible apply ite_keeps
    | with_reducible apply foldl_keeps | with_reducible refine foldl_snd_keeps ?_ (fun _ _ _ _ => ?_)
    | with_reducible refine getD_keeps (fun _ _ => ?_) ?_ | intro _ | cases ‹(_, _) = (_, _)› | cases ‹some _ = some _›
    | cases ‹none = some _›
    | fail_if_no_progress with_reducible refine mk_keeps ?_ rfl rfl rfl (by and_intros <;> first | exact .inr (by with_reducible rfl) | exact .inl (sub_of hp rfl)) | dsimp only | dsimp only at e | split
theorem execPrbsCheckerLock_keeps_eq {P : ℕ} {s0 s t : State} (hp : 65538 &&& P = 65538) {a0 : Lane} (e : execPrbsCheckerLock a0 s = .next t) (h : Keeps P s0 s) : Keeps P s0 t := by
  unfold execPrbsCheckerLock at e
  repeat' first
    | cases ‹Host.Outcome.next _ = Host.Outcome.next _› | cases ‹Host.Outcome.refused _ = Host.Outcome.next _›
    | cases ‹Host.Outcome.fault _ = Host.Outcome.next _› | split at e | with_reducible assumption | exact sub_of hp rfl
    | exact rfl | with_reducible apply State.wr_keeps | with_reducible apply ite_keeps | with_reducible apply foldl_keeps
    | with_reducible refine getD_keeps (fun _ _ => ?_) ?_ | intro _ | cases ‹(_, _) = (_, _)› | cases ‹some _ = some _›
    | cases ‹none = some _›
    | fail_if_no_progress with_reducible refine mk_keeps ?_ rfl rfl rfl (by and_intros <;> first | exact .inr (by with_reducible rfl) | exact .inl (sub_of hp rfl)) | dsimp only | dsimp only at e | split
theorem execPrbsCheckerLockLoss_keeps_eq {P : ℕ} {s0 s t : State} (hp : 65538 &&& P = 65538) {a0 : Lane} {a1 : BitVec 32} (e : execPrbsCheckerLockLoss a0 a1 s = .next t) (h : Keeps P s0 s) : Keeps P s0 t := by
  unfold execPrbsCheckerLockLoss at e
  repeat' first
    | cases ‹Host.Outcome.next _ = Host.Outcome.next _› | cases ‹Host.Outcome.refused _ = Host.Outcome.next _›
    | cases ‹Host.Outcome.fault _ = Host.Outcome.next _› | split at e | with_reducible assumption | exact sub_of hp rfl
    | exact rfl | with_reducible apply State.wr_keeps | with_reducible apply State.sat_keeps
    | with_reducible apply ite_keeps | with_reducible apply foldl_keeps
    | with_reducible refine getD_keeps (fun _ _ => ?_) ?_ | intro _ | cases ‹(_, _) = (_, _)› | cases ‹some _ = some _›
    | cases ‹none = some _›
    | fail_if_no_progress with_reducible refine mk_keeps ?_ rfl rfl rfl (by and_intros <;> first | exact .inr (by with_reducible rfl) | exact .inl (sub_of hp rfl)) | dsimp only | dsimp only at e | split
theorem execLoopbackSlaveEntry_keeps_eq {P : ℕ} {s0 s t : State} (hp : 8119835 &&& P = 8119835) {a0 : Cell} (e : execLoopbackSlaveEntry a0 s = .next t) (h : Keeps P s0 s) : Keeps P s0 t := by
  unfold execLoopbackSlaveEntry at e
  repeat' first
    | cases ‹Host.Outcome.next _ = Host.Outcome.next _› | cases ‹Host.Outcome.refused _ = Host.Outcome.next _›
    | cases ‹Host.Outcome.fault _ = Host.Outcome.next _› | split at e | with_reducible assumption | exact sub_of hp rfl
    | exact rfl | with_reducible apply State.linkDown_keeps | with_reducible apply State.wr_keeps
    | with_reducible apply ite_keeps | with_reducible apply foldl_keeps
    | with_reducible refine getD_keeps (fun _ _ => ?_) ?_ | intro _ | cases ‹(_, _) = (_, _)› | cases ‹some _ = some _›
    | cases ‹none = some _›
    | fail_if_no_progress with_reducible refine mk_keeps ?_ rfl rfl rfl (by and_intros <;> first | exact .inr (by with_reducible rfl) | exact .inl (sub_of hp rfl)) | dsimp only | dsimp only at e | split
theorem execMgrFrameReceive_keeps_eq {P : ℕ} {s0 s t : State} (hp : 2 &&& P = 2) {a0 : Bool} {a1 : Bool} {a2 : BitVec 16} {a3 : BitVec 16} (e : execMgrFrameReceive a0 a1 a2 a3 s = .next t) (h : Keeps P s0 s) : Keeps P s0 t := by
  unfold execMgrFrameReceive at e
  repeat' first
    | cases ‹Host.Outcome.next _ = Host.Outcome.next _› | cases ‹Host.Outcome.refused _ = Host.Outcome.next _›
    | cases ‹Host.Outcome.fault _ = Host.Outcome.next _› | split at e | with_reducible assumption | exact sub_of hp rfl
    | exact rfl | with_reducible apply State.wr_keeps | with_reducible apply State.inc_keeps
    | with_reducible apply State.sat_keeps | with_reducible apply ite_keeps | with_reducible apply foldl_keeps
    | with_reducible refine getD_keeps (fun _ _ => ?_) ?_ | intro _ | cases ‹(_, _) = (_, _)› | cases ‹some _ = some _›
    | cases ‹none = some _›
    | fail_if_no_progress with_reducible refine mk_keeps ?_ rfl rfl rfl (by and_intros <;> first | exact .inr (by with_reducible rfl) | exact .inl (sub_of hp rfl)) | dsimp only | dsimp only at e | split
theorem execMgrSyncGain_keeps_eq {P : ℕ} {s0 s t : State} (hp : 2 &&& P = 2) {a0 : Fin 2} (e : execMgrSyncGain a0 s = .next t) (h : Keeps P s0 s) : Keeps P s0 t := by
  unfold execMgrSyncGain at e
  repeat' first
    | cases ‹Host.Outcome.next _ = Host.Outcome.next _› | cases ‹Host.Outcome.refused _ = Host.Outcome.next _›
    | cases ‹Host.Outcome.fault _ = Host.Outcome.next _› | split at e | with_reducible assumption | exact sub_of hp rfl
    | exact rfl | with_reducible apply State.wr_keeps | with_reducible apply ite_keeps | with_reducible apply foldl_keeps
    | with_reducible refine getD_keeps (fun _ _ => ?_) ?_ | intro _ | cases ‹(_, _) = (_, _)› | cases ‹some _ = some _›
    | cases ‹none = some _›
    | fail_if_no_progress with_reducible refine mk_keeps ?_ rfl rfl rfl (by and_intros <;> first | exact .inr (by with_reducible rfl) | exact .inl (sub_of hp rfl)) | dsimp only | dsimp only at e | split
theorem execMgrSyncLoss_keeps_eq {P : ℕ} {s0 s t : State} (hp : 2 &&& P = 2) {a0 : Fin 2} {a1 : BitVec 16} {a2 : BitVec 16} (e : execMgrSyncLoss a0 a1 a2 s = .next t) (h : Keeps P s0 s) : Keeps P s0 t := by
  unfold execMgrSyncLoss at e
  repeat' first
    | cases ‹Host.Outcome.next _ = Host.Outcome.next _› | cases ‹Host.Outcome.refused _ = Host.Outcome.next _›
    | cases ‹Host.Outcome.fault _ = Host.Outcome.next _› | split at e | with_reducible assumption | exact sub_of hp rfl
    | exact rfl | with_reducible apply State.wr_keeps | with_reducible apply State.sat_keeps
    | with_reducible apply ite_keeps | with_reducible apply foldl_keeps
    | with_reducible refine getD_keeps (fun _ _ => ?_) ?_ | intro _ | cases ‹(_, _) = (_, _)› | cases ‹some _ = some _›
    | cases ‹none = some _›
    | fail_if_no_progress with_reducible refine mk_keeps ?_ rfl rfl rfl (by and_intros <;> first | exact .inr (by with_reducible rfl) | exact .inl (sub_of hp rfl)) | dsimp only | dsimp only at e | split
theorem execMgrClockCompSend_keeps_eq {P : ℕ} {s0 s t : State} (hp : 16 &&& P = 16) (e : execMgrClockCompSend s = .next t) (h : Keeps P s0 s) : Keeps P s0 t := by
  unfold execMgrClockCompSend at e
  repeat' first
    | cases ‹Host.Outcome.next _ = Host.Outcome.next _› | cases ‹Host.Outcome.refused _ = Host.Outcome.next _›
    | cases ‹Host.Outcome.fault _ = Host.Outcome.next _› | split at e | with_reducible assumption | exact sub_of hp rfl
    | exact rfl | with_reducible apply State.emit_keeps | with_reducible apply ite_keeps
    | with_reducible apply foldl_keeps | with_reducible refine getD_keeps (fun _ _ => ?_) ?_ | intro _
    | cases ‹(_, _) = (_, _)› | cases ‹some _ = some _› | cases ‹none = some _›
    | fail_if_no_progress with_reducible refine mk_keeps ?_ rfl rfl rfl (by and_intros <;> first | exact .inr (by with_reducible rfl) | exact .inl (sub_of hp rfl)) | dsimp only | dsimp only at e | split
theorem execMgrWidthFallback_keeps_eq {P : ℕ} {s0 s t : State} (hp : 2 &&& P = 2) {a0 : Fin 2} (e : execMgrWidthFallback a0 s = .next t) (h : Keeps P s0 s) : Keeps P s0 t := by
  unfold execMgrWidthFallback at e
  repeat' first
    | cases ‹Host.Outcome.next _ = Host.Outcome.next _› | cases ‹Host.Outcome.refused _ = Host.Outcome.next _›
    | cases ‹Host.Outcome.fault _ = Host.Outcome.next _› | split at e | with_reducible assumption | exact sub_of hp rfl
    | exact rfl | with_reducible apply State.wr_keeps | with_reducible apply ite_keeps | with_reducible apply foldl_keeps
    | with_reducible refine getD_keeps (fun _ _ => ?_) ?_ | intro _ | cases ‹(_, _) = (_, _)› | cases ‹some _ = some _›
    | cases ‹none = some _›
    | fail_if_no_progress with_reducible refine mk_keeps ?_ rfl rfl rfl (by and_intros <;> first | exact .inr (by with_reducible rfl) | exact .inl (sub_of hp rfl)) | dsimp only | dsimp only at e | split
theorem execMgrWidthRestoreX2_keeps_eq {P : ℕ} {s0 s t : State} (hp : 2 &&& P = 2) (e : execMgrWidthRestoreX2 s = .next t) (h : Keeps P s0 s) : Keeps P s0 t := by
  unfold execMgrWidthRestoreX2 at e
  repeat' first
    | cases ‹Host.Outcome.next _ = Host.Outcome.next _› | cases ‹Host.Outcome.refused _ = Host.Outcome.next _›
    | cases ‹Host.Outcome.fault _ = Host.Outcome.next _› | split at e | with_reducible assumption | exact sub_of hp rfl
    | exact rfl | with_reducible apply State.wr_keeps | with_reducible apply ite_keeps | with_reducible apply foldl_keeps
    | with_reducible refine getD_keeps (fun _ _ => ?_) ?_ | intro _ | cases ‹(_, _) = (_, _)› | cases ‹some _ = some _›
    | cases ‹none = some _›
    | fail_if_no_progress with_reducible refine mk_keeps ?_ rfl rfl rfl (by and_intros <;> first | exact .inr (by with_reducible rfl) | exact .inl (sub_of hp rfl)) | dsimp only | dsimp only at e | split
theorem execMgrLoopWrite_keeps_eq {P : ℕ} {s0 s t : State} (hp : 16386 &&& P = 16386) {a0 : Src} {a1 : Bool} (e : execMgrLoopWrite a0 a1 s = .next t) (h : Keeps P s0 s) : Keeps P s0 t := by
  unfold execMgrLoopWrite at e
  repeat' first
    | cases ‹Host.Outcome.next _ = Host.Outcome.next _› | cases ‹Host.Outcome.refused _ = Host.Outcome.next _›
    | cases ‹Host.Outcome.fault _ = Host.Outcome.next _› | split at e | with_reducible assumption | exact sub_of hp rfl
    | exact rfl | with_reducible apply State.ifMay_keeps | with_reducible apply State.wrb_keeps
    | refine State.mayWrite_keeps_eq (sub_of hp rfl) (by assumption) ?_ | with_reducible apply State.mayWrite_keeps
    | with_reducible apply ite_keeps | with_reducible apply foldl_keeps
    | with_reducible refine foldl_snd_keeps ?_ (fun _ _ _ _ => ?_) | with_reducible refine getD_keeps (fun _ _ => ?_) ?_
    | intro _ | cases ‹(_, _) = (_, _)› | cases ‹some _ = some _› | cases ‹none = some _›
    | fail_if_no_progress with_reducible refine mk_keeps ?_ rfl rfl rfl (by and_intros <;> first | exact .inr (by with_reducible rfl) | exact .inl (sub_of hp rfl)) | dsimp only | dsimp only at e | split

/-! ### Machine/StopOps -/

theorem State.norPut_keeps {P : ℕ} {s0 s : State} (hp : 262144 &&& P = 262144) (h : Keeps P s0 s) (a1 : ℕ) (a2 : ℕ) (a3 : List Byte) : Keeps P s0 (State.norPut s a1 a2 a3) :=
  ⟨h.queue, h.mode, h.regs, fun x => by
    have k := h.nor x
    unfold State.norPut
    generalize s.img.nor = m at k
    show norOk (List.foldl _ m a3.zipIdx) = true
    generalize a3.zipIdx = l
    induction l generalizing m with
    | nil => exact k
    | cons y l ih => exact ih _ (norOk_mset k _ _), h.therm, h.answers, h.signs, h.key, h.more 262144 (hm := sub_of hp rfl)⟩
theorem State.norErase_keeps {P : ℕ} {s0 s : State} (hp : 262144 &&& P = 262144) (h : Keeps P s0 s) (a1 : ℕ) (a2 : ℕ) : Keeps P s0 (State.norErase s a1 a2) :=
  ⟨h.queue, h.mode, h.regs, fun x => norOk_filter (h.nor x) _, h.therm, h.answers, h.signs, h.key, h.more 262144 (hm := sub_of hp rfl)⟩
theorem State.areaWrite_keeps {P : ℕ} {s0 s : State} (hp : 262144 &&& P = 262144) (h : Keeps P s0 s) (a1 : ℕ) (a2 : ℕ) (a3 : List ℕ) : Keeps P s0 (State.areaWrite s a1 a2 a3) := by
  unfold State.areaWrite
  repeat' first
    | with_reducible assumption | exact sub_of hp rfl | exact rfl | with_reducible apply State.norErase_keeps
    | with_reducible apply State.norPut_keeps | with_reducible apply ite_keeps | with_reducible apply foldl_keeps
    | with_reducible refine getD_keeps (fun _ _ => ?_) ?_ | intro _ | cases ‹(_, _) = (_, _)› | cases ‹some _ = some _›
    | cases ‹none = some _›
    | fail_if_no_progress with_reducible refine mk_keeps ?_ rfl rfl rfl (by and_intros <;> first | exact .inr (by with_reducible rfl) | exact .inl (sub_of hp rfl)) | dsimp only | split
theorem State.norFlush_keeps_eq {P : ℕ} {s0 s t : State} (hp : 262144 &&& P = 262144) {a1 : ℕ} {a2 : ℕ} {a3 : ℕ} {r} (e : State.norFlush s a1 a2 a3 = (t, r)) (h : Keeps P s0 s) : Keeps P s0 t := by
  unfold State.norFlush at e
  repeat' first
    | split at e | with_reducible assumption | exact sub_of hp rfl | exact rfl
    | with_reducible apply State.areaWrite_keeps | with_reducible apply ite_keeps | with_reducible apply foldl_keeps
    | with_reducible refine getD_keeps (fun _ _ => ?_) ?_ | intro _ | cases ‹(_, _) = (_, _)› | cases ‹some _ = some _›
    | cases ‹none = some _›
    | fail_if_no_progress with_reducible refine mk_keeps ?_ rfl rfl rfl (by and_intros <;> first | exact .inr (by with_reducible rfl) | exact .inl (sub_of hp rfl)) | dsimp only | dsimp only at e | split
theorem State.norFlush_keeps {P : ℕ} {s0 s : State} (hp : 262144 &&& P = 262144) (h : Keeps P s0 s) (a1 : ℕ) (a2 : ℕ) (a3 : ℕ) : Keeps P s0 (State.norFlush s a1 a2 a3).1 :=
  State.norFlush_keeps_eq hp (Prod.mk.eta (p := State.norFlush s a1 a2 a3)).symm h
theorem State.powerOff_keeps {P : ℕ} {s0 s : State} (hp : 58720227 &&& P = 58720227) (h : Keeps P s0 s) (k : ModePath s0.mode .dormant) : Keeps P s0 (State.powerOff s) := by
  unfold State.powerOff
  refine State.setDomains_keeps (sub_of hp rfl) (State.wr_keeps (sub_of hp rfl) ?_ _ _)
  exact ⟨h.queue, k, fun x => regsOk_filter (h.regs x) _, h.nor, h.therm, h.answers, fun _ => Nat.zero_le _, h.key, h.more 58720227 (hm := sub_of hp rfl)⟩

/-! ### Machine/Power -/

theorem State.setCtrl_keeps {P : ℕ} {s0 s : State} (hp : 2 &&& P = 2) (h : Keeps P s0 s) (a1 : ℕ) : Keeps P s0 (State.setCtrl s a1) := by
  unfold State.setCtrl
  repeat' first
    | with_reducible assumption | exact sub_of hp rfl | exact rfl | with_reducible apply State.wr_keeps
    | with_reducible apply ite_keeps | with_reducible apply foldl_keeps
    | with_reducible refine getD_keeps (fun _ _ => ?_) ?_ | intro _ | cases ‹(_, _) = (_, _)› | cases ‹some _ = some _›
    | cases ‹none = some _›
    | fail_if_no_progress with_reducible refine mk_keeps ?_ rfl rfl rfl (by and_intros <;> first | exact .inr (by with_reducible rfl) | exact .inl (sub_of hp rfl)) | dsimp only | split
theorem State.showPower_keeps {P : ℕ} {s0 s : State} (hp : 2 &&& P = 2) (h : Keeps P s0 s) : Keeps P s0 (State.showPower s) := by
  unfold State.showPower
  repeat' first
    | with_reducible assumption | exact sub_of hp rfl | exact rfl | with_reducible apply State.wr_keeps
    | with_reducible apply ite_keeps | with_reducible apply foldl_keeps
    | with_reducible refine getD_keeps (fun _ _ => ?_) ?_ | intro _ | cases ‹(_, _) = (_, _)› | cases ‹some _ = some _›
    | cases ‹none = some _›
    | fail_if_no_progress with_reducible refine mk_keeps ?_ rfl rfl rfl (by and_intros <;> first | exact .inr (by with_reducible rfl) | exact .inl (sub_of hp rfl)) | dsimp only | split
theorem State.lower_keeps {P : ℕ} {s0 s : State} (hp : 2 &&& P = 2) (h : Keeps P s0 s) (a1 : Fld) (a2 : ℕ) : Keeps P s0 (State.lower s a1 a2) := by
  unfold State.lower
  repeat' first
    | with_reducible assumption | exact sub_of hp rfl | exact rfl | with_reducible apply State.wr_keeps
    | with_reducible apply ite_keeps | with_reducible apply foldl_keeps
    | with_reducible refine getD_keeps (fun _ _ => ?_) ?_ | intro _ | cases ‹(_, _) = (_, _)› | cases ‹some _ = some _›
    | cases ‹none = some _›
    | fail_if_no_progress with_reducible refine mk_keeps ?_ rfl rfl rfl (by and_intros <;> first | exact .inr (by with_reducible rfl) | exact .inl (sub_of hp rfl)) | dsimp only | split
theorem State.setFeed_keeps {P : ℕ} {s0 s : State} (hp : 2 &&& P = 2) (h : Keeps P s0 s) (a1 : ℕ) (a2 : ℕ) (a3 : ℕ) : Keeps P s0 (State.setFeed s a1 a2 a3) := by
  unfold State.setFeed
  repeat' first
    | with_reducible assumption | exact sub_of hp rfl | exact rfl | with_reducible apply State.wr_keeps
    | with_reducible apply State.lower_keeps | with_reducible apply State.showPower_keeps | with_reducible apply ite_keeps
    | with_reducible apply foldl_keeps | with_reducible refine getD_keeps (fun _ _ => ?_) ?_ | intro _
    | cases ‹(_, _) = (_, _)› | cases ‹some _ = some _› | cases ‹none = some _›
    | fail_if_no_progress with_reducible refine mk_keeps ?_ rfl rfl rfl (by and_intros <;> first | exact .inr (by with_reducible rfl) | exact .inl (sub_of hp rfl)) | dsimp only | split
theorem State.feedCurrent_keeps {P : ℕ} {s0 s : State} (hp : 2 &&& P = 2) (h : Keeps P s0 s) (a1 : ℕ) (a2 : ℕ) : Keeps P s0 (State.feedCurrent s a1 a2) := by
  unfold State.feedCurrent
  repeat' first
    | with_reducible assumption | exact sub_of hp rfl | exact rfl | with_reducible apply State.wr_keeps
    | with_reducible apply State.raise_keeps | with_reducible apply State.showPower_keeps | with_reducible apply ite_keeps
    | with_reducible apply foldl_keeps | with_reducible refine getD_keeps (fun _ _ => ?_) ?_ | intro _
    | cases ‹(_, _) = (_, _)› | cases ‹some _ = some _› | cases ‹none = some _›
    | fail_if_no_progress with_reducible refine mk_keeps ?_ rfl rfl rfl (by and_intros <;> first | exact .inr (by with_reducible rfl) | exact .inl (sub_of hp rfl)) | dsimp only | split
theorem State.quadsOff_keeps {P : ℕ} {s0 s : State} (hp : 8119835 &&& P = 8119835) (h : Keeps P s0 s) : Keeps P s0 (State.quadsOff s) := by
  unfold State.quadsOff
  repeat' first
    | with_reducible assumption | exact sub_of hp rfl | exact rfl | with_reducible apply State.setDomain_keeps
    | with_reducible apply State.linkDown_keeps | with_reducible apply State.wr_keeps
    | with_reducible apply State.absorbChain_keeps | with_reducible apply State.portOut_keeps
    | with_reducible apply State.linkReset_keeps | with_reducible apply ite_keeps | with_reducible apply foldl_keeps
    | with_reducible refine getD_keeps (fun _ _ => ?_) ?_ | intro _ | cases ‹(_, _) = (_, _)› | cases ‹some _ = some _›
    | cases ‹none = some _›
    | fail_if_no_progress with_reducible refine mk_keeps ?_ rfl rfl rfl (by and_intros <;> first | exact .inr (by with_reducible rfl) | exact .inl (sub_of hp rfl)) | dsimp only | split
theorem State.logBothLost_keeps {P : ℕ} {s0 s : State} (hp : 16386 &&& P = 16386) (h : Keeps P s0 s) : Keeps P s0 (State.logBothLost s) := by
  unfold State.logBothLost
  repeat' first
    | with_reducible assumption | exact sub_of hp rfl | exact rfl | with_reducible apply State.logFault_keeps
    | with_reducible apply ite_keeps | with_reducible apply foldl_keeps
    | with_reducible refine getD_keeps (fun _ _ => ?_) ?_ | intro _ | cases ‹(_, _) = (_, _)› | cases ‹some _ = some _›
    | cases ‹none = some _›
    | fail_if_no_progress with_reducible refine mk_keeps ?_ rfl rfl rfl (by and_intros <;> first | exact .inr (by with_reducible rfl) | exact .inl (sub_of hp rfl)) | dsimp only | split
theorem State.bothLost_keeps {P : ℕ} {s0 s : State} (hp : 8119835 &&& P = 8119835) (h : Keeps P s0 s) (a1 : ℕ) : Keeps P s0 (State.bothLost s a1) := by
  unfold State.bothLost
  repeat' first
    | with_reducible assumption | exact sub_of hp rfl | exact rfl | with_reducible apply State.goMode_keeps
    | with_reducible apply State.quadsOff_keeps | with_reducible apply State.wr_keeps
    | with_reducible apply State.logBothLost_keeps | with_reducible apply ite_keeps | with_reducible apply foldl_keeps
    | with_reducible refine getD_keeps (fun _ _ => ?_) ?_ | intro _ | cases ‹(_, _) = (_, _)› | cases ‹some _ = some _›
    | cases ‹none = some _›
    | fail_if_no_progress with_reducible refine mk_keeps ?_ rfl rfl rfl (by and_intros <;> first | exact .inr (by with_reducible rfl) | exact .inl (sub_of hp rfl)) | dsimp only | split
theorem State.gatesOff_keeps {P : ℕ} {s0 s : State} (hp : 2 &&& P = 2) (h : Keeps P s0 s) (a1 : ℕ) : Keeps P s0 (State.gatesOff s a1) := by
  unfold State.gatesOff
  repeat' first
    | with_reducible assumption | exact sub_of hp rfl | exact rfl | with_reducible apply State.wr_keeps
    | with_reducible apply State.setCtrl_keeps | with_reducible apply State.showPower_keeps
    | with_reducible apply ite_keeps | with_reducible apply foldl_keeps
    | with_reducible refine getD_keeps (fun _ _ => ?_) ?_ | intro _ | cases ‹(_, _) = (_, _)› | cases ‹some _ = some _›
    | cases ‹none = some _›
    | fail_if_no_progress with_reducible refine mk_keeps ?_ rfl rfl rfl (by and_intros <;> first | exact .inr (by with_reducible rfl) | exact .inl (sub_of hp rfl)) | dsimp only | split
theorem State.trip_keeps {P : ℕ} {s0 s : State} (hp : 8119835 &&& P = 8119835) (h : Keeps P s0 s) (a1 : ℕ) : Keeps P s0 (State.trip s a1) := by
  unfold State.trip
  repeat' first
    | with_reducible assumption | exact sub_of hp rfl | exact rfl | with_reducible apply State.bothLost_keeps
    | with_reducible apply State.wr_keeps | with_reducible apply State.gatesOff_keeps | with_reducible apply ite_keeps
    | with_reducible apply foldl_keeps | with_reducible refine getD_keeps (fun _ _ => ?_) ?_ | intro _
    | cases ‹(_, _) = (_, _)› | cases ‹some _ = some _› | cases ‹none = some _›
    | fail_if_no_progress with_reducible refine mk_keeps ?_ rfl rfl rfl (by and_intros <;> first | exact .inr (by with_reducible rfl) | exact .inl (sub_of hp rfl)) | dsimp only | split
theorem State.feedLost_keeps {P : ℕ} {s0 s : State} (hp : 8119835 &&& P = 8119835) (h : Keeps P s0 s) (a1 : Fin 2) (a2 : ℕ) (a3 : ℕ) : Keeps P s0 (State.feedLost s a1 a2 a3) := by
  unfold State.feedLost
  repeat' first
    | with_reducible assumption | exact sub_of hp rfl | exact rfl
    | refine State.fresh_keeps_eq (sub_of hp rfl) (by assumption) ?_ | with_reducible apply State.fresh_keeps
    | with_reducible apply State.bothLost_keeps | with_reducible apply State.trip_keeps
    | with_reducible apply State.setCtrl_keeps | with_reducible apply State.gatesOff_keeps
    | with_reducible apply State.setFeed_keeps | with_reducible apply State.sat_keeps
    | with_reducible apply State.logFault_keeps | with_reducible apply ite_keeps | with_reducible apply foldl_keeps
    | with_reducible refine foldl_snd_keeps ?_ (fun _ _ _ _ => ?_) | with_reducible refine getD_keeps (fun _ _ => ?_) ?_
    | intro _ | cases ‹(_, _) = (_, _)› | cases ‹some _ = some _› | cases ‹none = some _›
    | fail_if_no_progress with_reducible refine mk_keeps ?_ rfl rfl rfl (by and_intros <;> first | exact .inr (by with_reducible rfl) | exact .inl (sub_of hp rfl)) | dsimp only | split
theorem State.onRind_keeps {P : ℕ} {s0 s : State} (hp : 0 &&& P = 0) (h : Keeps P s0 s) (a1 : State → State) (hk : ∀ t, Keeps P s0 t → Keeps P s0 (a1 t)) : Keeps P s0 (State.onRind s a1) := by
  unfold State.onRind
  repeat' first
    | with_reducible assumption | exact sub_of hp rfl | exact rfl | apply hk | with_reducible apply ite_keeps
    | with_reducible apply foldl_keeps | with_reducible refine getD_keeps (fun _ _ => ?_) ?_ | intro _
    | cases ‹(_, _) = (_, _)› | cases ‹some _ = some _› | cases ‹none = some _›
    | fail_if_no_progress with_reducible refine mk_keeps ?_ rfl rfl rfl (by and_intros <;> first | exact .inr (by with_reducible rfl) | exact .inl (sub_of hp rfl)) | dsimp only | split
theorem execRindStart_keeps_eq {P : ℕ} {s0 s t : State} (hp : 32770 &&& P = 32770) (e : execRindStart s = .next t) (h : Keeps P s0 s) : Keeps P s0 t := by
  unfold execRindStart at e
  repeat' first
    | cases ‹Host.Outcome.next _ = Host.Outcome.next _› | cases ‹Host.Outcome.refused _ = Host.Outcome.next _›
    | cases ‹Host.Outcome.fault _ = Host.Outcome.next _› | split at e | with_reducible assumption | exact sub_of hp rfl
    | exact rfl | with_reducible apply State.setDomain_keeps | with_reducible apply State.wr_keeps
    | with_reducible apply State.setCtrl_keeps | with_reducible apply State.showPower_keeps
    | with_reducible apply ite_keeps | with_reducible apply foldl_keeps
    | with_reducible refine getD_keeps (fun _ _ => ?_) ?_ | intro _ | cases ‹(_, _) = (_, _)› | cases ‹some _ = some _›
    | cases ‹none = some _›
    | fail_if_no_progress with_reducible refine mk_keeps ?_ rfl rfl rfl (by and_intros <;> first | exact .inr (by with_reducible rfl) | exact .inl (sub_of hp rfl)) | dsimp only | dsimp only at e | split
theorem State.tryDebounce_keeps {P : ℕ} {s0 s : State} (hp : 2 &&& P = 2) (h : Keeps P s0 s) : Keeps P s0 (State.tryDebounce s) := by
  unfold State.tryDebounce
  repeat' first
    | with_reducible assumption | exact sub_of hp rfl | exact rfl | with_reducible apply State.setCtrl_keeps
    | with_reducible apply ite_keeps | with_reducible apply foldl_keeps
    | with_reducible refine getD_keeps (fun _ _ => ?_) ?_ | intro _ | cases ‹(_, _) = (_, _)› | cases ‹some _ = some _›
    | cases ‹none = some _›
    | fail_if_no_progress with_reducible refine mk_keeps ?_ rfl rfl rfl (by and_intros <;> first | exact .inr (by with_reducible rfl) | exact .inl (sub_of hp rfl)) | dsimp only | split
theorem execFeedValid_keeps_eq {P : ℕ} {s0 s t : State} (hp : 2 &&& P = 2) {a0 : Fin 2} {a1 : BitVec 16} (e : execFeedValid a0 a1 s = .next t) (h : Keeps P s0 s) : Keeps P s0 t := by
  unfold execFeedValid at e
  repeat' first
    | cases ‹Host.Outcome.next _ = Host.Outcome.next _› | cases ‹Host.Outcome.refused _ = Host.Outcome.next _›
    | cases ‹Host.Outcome.fault _ = Host.Outcome.next _› | split at e | with_reducible assumption | exact sub_of hp rfl
    | exact rfl | with_reducible apply State.tryDebounce_keeps | with_reducible apply State.setFeed_keeps
    | with_reducible apply State.onRind_keeps | with_reducible apply ite_keeps | with_reducible apply foldl_keeps
    | with_reducible refine getD_keeps (fun _ _ => ?_) ?_ | intro _ | cases ‹(_, _) = (_, _)› | cases ‹some _ = some _›
    | cases ‹none = some _›
    | fail_if_no_progress with_reducible refine mk_keeps ?_ rfl rfl rfl (by and_intros <;> first | exact .inr (by with_reducible rfl) | exact .inl (sub_of hp rfl)) | dsimp only | dsimp only at e | split
theorem execFeedUv_keeps_eq {P : ℕ} {s0 s t : State} (hp : 8119835 &&& P = 8119835) {a0 : Fin 2} {a1 : BitVec 16} (e : execFeedUv a0 a1 s = .next t) (h : Keeps P s0 s) : Keeps P s0 t := by
  unfold execFeedUv at e
  repeat' first
    | cases ‹Host.Outcome.next _ = Host.Outcome.next _› | cases ‹Host.Outcome.refused _ = Host.Outcome.next _›
    | cases ‹Host.Outcome.fault _ = Host.Outcome.next _› | split at e | with_reducible assumption | exact sub_of hp rfl
    | exact rfl | with_reducible apply State.feedLost_keeps | with_reducible apply State.onRind_keeps
    | with_reducible apply ite_keeps | with_reducible apply foldl_keeps
    | with_reducible refine getD_keeps (fun _ _ => ?_) ?_ | intro _ | cases ‹(_, _) = (_, _)› | cases ‹some _ = some _›
    | cases ‹none = some _›
    | fail_if_no_progress with_reducible refine mk_keeps ?_ rfl rfl rfl (by and_intros <;> first | exact .inr (by with_reducible rfl) | exact .inl (sub_of hp rfl)) | dsimp only | dsimp only at e | split
theorem execFeedOv_keeps_eq {P : ℕ} {s0 s t : State} (hp : 8119835 &&& P = 8119835) {a0 : Fin 2} {a1 : BitVec 16} (e : execFeedOv a0 a1 s = .next t) (h : Keeps P s0 s) : Keeps P s0 t := by
  unfold execFeedOv at e
  repeat' first
    | cases ‹Host.Outcome.next _ = Host.Outcome.next _› | cases ‹Host.Outcome.refused _ = Host.Outcome.next _›
    | cases ‹Host.Outcome.fault _ = Host.Outcome.next _› | split at e | with_reducible assumption | exact sub_of hp rfl
    | exact rfl | with_reducible apply State.feedLost_keeps | with_reducible apply State.onRind_keeps
    | with_reducible apply ite_keeps | with_reducible apply foldl_keeps
    | with_reducible refine getD_keeps (fun _ _ => ?_) ?_ | intro _ | cases ‹(_, _) = (_, _)› | cases ‹some _ = some _›
    | cases ‹none = some _›
    | fail_if_no_progress with_reducible refine mk_keeps ?_ rfl rfl rfl (by and_intros <;> first | exact .inr (by with_reducible rfl) | exact .inl (sub_of hp rfl)) | dsimp only | dsimp only at e | split
theorem execIdealDiodeReverseOff_keeps_eq {P : ℕ} {s0 s t : State} (hp : 2 &&& P = 2) {a0 : Fin 2} (e : execIdealDiodeReverseOff a0 s = .next t) (h : Keeps P s0 s) : Keeps P s0 t := by
  unfold execIdealDiodeReverseOff at e
  repeat' first
    | cases ‹Host.Outcome.next _ = Host.Outcome.next _› | cases ‹Host.Outcome.refused _ = Host.Outcome.next _›
    | cases ‹Host.Outcome.fault _ = Host.Outcome.next _› | split at e | with_reducible assumption | exact sub_of hp rfl
    | exact rfl | with_reducible apply State.wr_keeps | with_reducible apply State.sat_keeps
    | with_reducible apply State.onRind_keeps | with_reducible apply ite_keeps | with_reducible apply foldl_keeps
    | with_reducible refine getD_keeps (fun _ _ => ?_) ?_ | intro _ | cases ‹(_, _) = (_, _)› | cases ‹some _ = some _›
    | cases ‹none = some _›
    | fail_if_no_progress with_reducible refine mk_keeps ?_ rfl rfl rfl (by and_intros <;> first | exact .inr (by with_reducible rfl) | exact .inl (sub_of hp rfl)) | dsimp only | dsimp only at e | split
theorem execSenseMated_keeps_eq {P : ℕ} {s0 s t : State} (hp : 2 &&& P = 2) (e : execSenseMated s = .next t) (h : Keeps P s0 s) : Keeps P s0 t := by
  unfold execSenseMated at e
  repeat' first
    | cases ‹Host.Outcome.next _ = Host.Outcome.next _› | cases ‹Host.Outcome.refused _ = Host.Outcome.next _›
    | cases ‹Host.Outcome.fault _ = Host.Outcome.next _› | split at e | with_reducible assumption | exact sub_of hp rfl
    | exact rfl | with_reducible apply State.tryDebounce_keeps | with_reducible apply State.wr_keeps
    | with_reducible apply State.onRind_keeps | with_reducible apply ite_keeps | with_reducible apply foldl_keeps
    | with_reducible refine getD_keeps (fun _ _ => ?_) ?_ | intro _ | cases ‹(_, _) = (_, _)› | cases ‹some _ = some _›
    | cases ‹none = some _›
    | fail_if_no_progress with_reducible refine mk_keeps ?_ rfl rfl rfl (by and_intros <;> first | exact .inr (by with_reducible rfl) | exact .inl (sub_of hp rfl)) | dsimp only | dsimp only at e | split
theorem execDebounceExpiry_keeps_eq {P : ℕ} {s0 s t : State} (hp : 2 &&& P = 2) (e : execDebounceExpiry s = .next t) (h : Keeps P s0 s) : Keeps P s0 t := by
  unfold execDebounceExpiry at e
  repeat' first
    | cases ‹Host.Outcome.next _ = Host.Outcome.next _› | cases ‹Host.Outcome.refused _ = Host.Outcome.next _›
    | cases ‹Host.Outcome.fault _ = Host.Outcome.next _› | split at e | with_reducible assumption | exact sub_of hp rfl
    | exact rfl | with_reducible apply State.setCtrl_keeps | with_reducible apply State.onRind_keeps
    | with_reducible apply State.showPower_keeps | with_reducible apply ite_keeps | with_reducible apply foldl_keeps
    | with_reducible refine getD_keeps (fun _ _ => ?_) ?_ | intro _ | cases ‹(_, _) = (_, _)› | cases ‹some _ = some _›
    | cases ‹none = some _›
    | fail_if_no_progress with_reducible refine mk_keeps ?_ rfl rfl rfl (by and_intros <;> first | exact .inr (by with_reducible rfl) | exact .inl (sub_of hp rfl)) | dsimp only | dsimp only at e | split
theorem execRampComplete_keeps_eq {P : ℕ} {s0 s t : State} (hp : 2 &&& P = 2) {a0 : BitVec 16} (e : execRampComplete a0 s = .next t) (h : Keeps P s0 s) : Keeps P s0 t := by
  unfold execRampComplete at e
  repeat' first
    | cases ‹Host.Outcome.next _ = Host.Outcome.next _› | cases ‹Host.Outcome.refused _ = Host.Outcome.next _›
    | cases ‹Host.Outcome.fault _ = Host.Outcome.next _› | split at e | with_reducible assumption | exact sub_of hp rfl
    | exact rfl | with_reducible apply State.wr_keeps | with_reducible apply State.lower_keeps
    | with_reducible apply State.setCtrl_keeps | with_reducible apply State.onRind_keeps
    | with_reducible apply State.showPower_keeps | with_reducible apply ite_keeps | with_reducible apply foldl_keeps
    | with_reducible refine getD_keeps (fun _ _ => ?_) ?_ | intro _ | cases ‹(_, _) = (_, _)› | cases ‹some _ = some _›
    | cases ‹none = some _›
    | fail_if_no_progress with_reducible refine mk_keeps ?_ rfl rfl rfl (by and_intros <;> first | exact .inr (by with_reducible rfl) | exact .inl (sub_of hp rfl)) | dsimp only | dsimp only at e | split
theorem execRampTimeout_keeps_eq {P : ℕ} {s0 s t : State} (hp : 8119835 &&& P = 8119835) (e : execRampTimeout s = .next t) (h : Keeps P s0 s) : Keeps P s0 t := by
  unfold execRampTimeout at e
  repeat' first
    | cases ‹Host.Outcome.next _ = Host.Outcome.next _› | cases ‹Host.Outcome.refused _ = Host.Outcome.next _›
    | cases ‹Host.Outcome.fault _ = Host.Outcome.next _› | split at e | with_reducible assumption | exact sub_of hp rfl
    | exact rfl | with_reducible apply State.trip_keeps | with_reducible apply State.sat_keeps
    | with_reducible apply State.onRind_keeps | with_reducible apply ite_keeps | with_reducible apply foldl_keeps
    | with_reducible refine getD_keeps (fun _ _ => ?_) ?_ | intro _ | cases ‹(_, _) = (_, _)› | cases ‹some _ = some _›
    | cases ‹none = some _›
    | fail_if_no_progress with_reducible refine mk_keeps ?_ rfl rfl rfl (by and_intros <;> first | exact .inr (by with_reducible rfl) | exact .inl (sub_of hp rfl)) | dsimp only | dsimp only at e | split
theorem execShortDetect_keeps_eq {P : ℕ} {s0 s t : State} (hp : 8119835 &&& P = 8119835) (e : execShortDetect s = .next t) (h : Keeps P s0 s) : Keeps P s0 t := by
  unfold execShortDetect at e
  repeat' first
    | cases ‹Host.Outcome.next _ = Host.Outcome.next _› | cases ‹Host.Outcome.refused _ = Host.Outcome.next _›
    | cases ‹Host.Outcome.fault _ = Host.Outcome.next _› | split at e | with_reducible assumption | exact sub_of hp rfl
    | exact rfl | with_reducible apply State.trip_keeps | with_reducible apply State.sat_keeps
    | with_reducible apply State.onRind_keeps | with_reducible apply ite_keeps | with_reducible apply foldl_keeps
    | with_reducible refine getD_keeps (fun _ _ => ?_) ?_ | intro _ | cases ‹(_, _) = (_, _)› | cases ‹some _ = some _›
    | cases ‹none = some _›
    | fail_if_no_progress with_reducible refine mk_keeps ?_ rfl rfl rfl (by and_intros <;> first | exact .inr (by with_reducible rfl) | exact .inl (sub_of hp rfl)) | dsimp only | dsimp only at e | split
theorem execRampComparatorTrip_keeps_eq {P : ℕ} {s0 s t : State} (hp : 8119835 &&& P = 8119835) {a0 : Fin 2} {a1 : BitVec 16} (e : execRampComparatorTrip a0 a1 s = .next t) (h : Keeps P s0 s) : Keeps P s0 t := by
  unfold execRampComparatorTrip at e
  repeat' first
    | cases ‹Host.Outcome.next _ = Host.Outcome.next _› | cases ‹Host.Outcome.refused _ = Host.Outcome.next _›
    | cases ‹Host.Outcome.fault _ = Host.Outcome.next _› | split at e | with_reducible assumption | exact sub_of hp rfl
    | exact rfl | with_reducible apply State.trip_keeps | with_reducible apply State.feedCurrent_keeps
    | with_reducible apply State.sat_keeps | with_reducible apply State.onRind_keeps | with_reducible apply ite_keeps
    | with_reducible apply foldl_keeps | with_reducible refine getD_keeps (fun _ _ => ?_) ?_ | intro _
    | cases ‹(_, _) = (_, _)› | cases ‹some _ = some _› | cases ‹none = some _›
    | fail_if_no_progress with_reducible refine mk_keeps ?_ rfl rfl rfl (by and_intros <;> first | exact .inr (by with_reducible rfl) | exact .inl (sub_of hp rfl)) | dsimp only | dsimp only at e | split
theorem execFaultTimerExpiry_keeps_eq {P : ℕ} {s0 s t : State} (hp : 8119835 &&& P = 8119835) {a0 : Fin 2} {a1 : BitVec 16} (e : execFaultTimerExpiry a0 a1 s = .next t) (h : Keeps P s0 s) : Keeps P s0 t := by
  unfold execFaultTimerExpiry at e
  repeat' first
    | cases ‹Host.Outcome.next _ = Host.Outcome.next _› | cases ‹Host.Outcome.refused _ = Host.Outcome.next _›
    | cases ‹Host.Outcome.fault _ = Host.Outcome.next _› | split at e | with_reducible assumption | exact sub_of hp rfl
    | exact rfl | with_reducible apply State.trip_keeps | with_reducible apply State.raise_keeps
    | with_reducible apply State.feedCurrent_keeps | with_reducible apply State.sat_keeps
    | with_reducible apply State.onRind_keeps | with_reducible apply ite_keeps | with_reducible apply foldl_keeps
    | with_reducible refine getD_keeps (fun _ _ => ?_) ?_ | intro _ | cases ‹(_, _) = (_, _)› | cases ‹some _ = some _›
    | cases ‹none = some _›
    | fail_if_no_progress with_reducible refine mk_keeps ?_ rfl rfl rfl (by and_intros <;> first | exact .inr (by with_reducible rfl) | exact .inl (sub_of hp rfl)) | dsimp only | dsimp only at e | split
theorem execFastTrip_keeps_eq {P : ℕ} {s0 s t : State} (hp : 8119835 &&& P = 8119835) {a0 : Fin 2} {a1 : BitVec 16} (e : execFastTrip a0 a1 s = .next t) (h : Keeps P s0 s) : Keeps P s0 t := by
  unfold execFastTrip at e
  repeat' first
    | cases ‹Host.Outcome.next _ = Host.Outcome.next _› | cases ‹Host.Outcome.refused _ = Host.Outcome.next _›
    | cases ‹Host.Outcome.fault _ = Host.Outcome.next _› | split at e | with_reducible assumption | exact sub_of hp rfl
    | exact rfl | with_reducible apply State.trip_keeps | with_reducible apply State.feedCurrent_keeps
    | with_reducible apply State.sat_keeps | with_reducible apply State.onRind_keeps | with_reducible apply ite_keeps
    | with_reducible apply foldl_keeps | with_reducible refine getD_keeps (fun _ _ => ?_) ?_ | intro _
    | cases ‹(_, _) = (_, _)› | cases ‹some _ = some _› | cases ‹none = some _›
    | fail_if_no_progress with_reducible refine mk_keeps ?_ rfl rfl rfl (by and_intros <;> first | exact .inr (by with_reducible rfl) | exact .inl (sub_of hp rfl)) | dsimp only | dsimp only at e | split
theorem execTripWaitExpiry_keeps_eq {P : ℕ} {s0 s t : State} (hp : 2 &&& P = 2) (e : execTripWaitExpiry s = .next t) (h : Keeps P s0 s) : Keeps P s0 t := by
  unfold execTripWaitExpiry at e
  repeat' first
    | cases ‹Host.Outcome.next _ = Host.Outcome.next _› | cases ‹Host.Outcome.refused _ = Host.Outcome.next _›
    | cases ‹Host.Outcome.fault _ = Host.Outcome.next _› | split at e | with_reducible assumption | exact sub_of hp rfl
    | exact rfl | with_reducible apply State.setCtrl_keeps | with_reducible apply State.sat_keeps
    | with_reducible apply State.onRind_keeps | with_reducible apply State.showPower_keeps
    | with_reducible apply ite_keeps | with_reducible apply foldl_keeps
    | with_reducible refine getD_keeps (fun _ _ => ?_) ?_ | intro _ | cases ‹(_, _) = (_, _)› | cases ‹some _ = some _›
    | cases ‹none = some _›
    | fail_if_no_progress with_reducible refine mk_keeps ?_ rfl rfl rfl (by and_intros <;> first | exact .inr (by with_reducible rfl) | exact .inl (sub_of hp rfl)) | dsimp only | dsimp only at e | split
theorem execLatchClearEnableCycle_keeps_eq {P : ℕ} {s0 s t : State} (hp : 2 &&& P = 2) (e : execLatchClearEnableCycle s = .next t) (h : Keeps P s0 s) : Keeps P s0 t := by
  unfold execLatchClearEnableCycle at e
  repeat' first
    | cases ‹Host.Outcome.next _ = Host.Outcome.next _› | cases ‹Host.Outcome.refused _ = Host.Outcome.next _›
    | cases ‹Host.Outcome.fault _ = Host.Outcome.next _› | split at e | with_reducible assumption | exact sub_of hp rfl
    | exact rfl | with_reducible apply State.wr_keeps | with_reducible apply State.setCtrl_keeps
    | with_reducible apply State.onRind_keeps | with_reducible apply ite_keeps | with_reducible apply foldl_keeps
    | with_reducible refine getD_keeps (fun _ _ => ?_) ?_ | intro _ | cases ‹(_, _) = (_, _)› | cases ‹some _ = some _›
    | cases ‹none = some _›
    | fail_if_no_progress with_reducible refine mk_keeps ?_ rfl rfl rfl (by and_intros <;> first | exact .inr (by with_reducible rfl) | exact .inl (sub_of hp rfl)) | dsimp only | dsimp only at e | split
theorem State.contactOpens_keeps {P : ℕ} {s0 s : State} (hp : 8119835 &&& P = 8119835) (h : Keeps P s0 s) : Keeps P s0 (State.contactOpens s) := by
  unfold State.contactOpens
  repeat' first
    | with_reducible assumption | exact sub_of hp rfl | exact rfl | with_reducible apply State.bothLost_keeps
    | with_reducible apply State.gatesOff_keeps | with_reducible apply ite_keeps | with_reducible apply foldl_keeps
    | with_reducible refine getD_keeps (fun _ _ => ?_) ?_ | intro _ | cases ‹(_, _) = (_, _)› | cases ‹some _ = some _›
    | cases ‹none = some _›
    | fail_if_no_progress with_reducible refine mk_keeps ?_ rfl rfl rfl (by and_intros <;> first | exact .inr (by with_reducible rfl) | exact .inl (sub_of hp rfl)) | dsimp only | split
theorem execLatchClearReinsertion_keeps_eq {P : ℕ} {s0 s t : State} (hp : 8119835 &&& P = 8119835) (e : execLatchClearReinsertion s = .next t) (h : Keeps P s0 s) : Keeps P s0 t := by
  unfold execLatchClearReinsertion at e
  repeat' first
    | cases ‹Host.Outcome.next _ = Host.Outcome.next _› | cases ‹Host.Outcome.refused _ = Host.Outcome.next _›
    | cases ‹Host.Outcome.fault _ = Host.Outcome.next _› | split at e | with_reducible assumption | exact sub_of hp rfl
    | exact rfl | with_reducible apply State.contactOpens_keeps | with_reducible apply State.wr_keeps
    | with_reducible apply State.setCtrl_keeps | with_reducible apply State.onRind_keeps | with_reducible apply ite_keeps
    | with_reducible apply foldl_keeps | with_reducible refine getD_keeps (fun _ _ => ?_) ?_ | intro _
    | cases ‹(_, _) = (_, _)› | cases ‹some _ = some _› | cases ‹none = some _›
    | fail_if_no_progress with_reducible refine mk_keeps ?_ rfl rfl rfl (by and_intros <;> first | exact .inr (by with_reducible rfl) | exact .inl (sub_of hp rfl)) | dsimp only | dsimp only at e | split
theorem execRetryCountClear_keeps_eq {P : ℕ} {s0 s t : State} (hp : 2 &&& P = 2) (e : execRetryCountClear s = .next t) (h : Keeps P s0 s) : Keeps P s0 t := by
  unfold execRetryCountClear at e
  repeat' first
    | cases ‹Host.Outcome.next _ = Host.Outcome.next _› | cases ‹Host.Outcome.refused _ = Host.Outcome.next _›
    | cases ‹Host.Outcome.fault _ = Host.Outcome.next _› | split at e | with_reducible assumption | exact sub_of hp rfl
    | exact rfl | with_reducible apply State.wr_keeps | with_reducible apply State.onRind_keeps
    | with_reducible apply ite_keeps | with_reducible apply foldl_keeps
    | with_reducible refine getD_keeps (fun _ _ => ?_) ?_ | intro _ | cases ‹(_, _) = (_, _)› | cases ‹some _ = some _›
    | cases ‹none = some _›
    | fail_if_no_progress with_reducible refine mk_keeps ?_ rfl rfl rfl (by and_intros <;> first | exact .inr (by with_reducible rfl) | exact .inl (sub_of hp rfl)) | dsimp only | dsimp only at e | split
theorem execPwrgdAssert_keeps_eq {P : ℕ} {s0 s t : State} (hp : 2 &&& P = 2) (e : execPwrgdAssert s = .next t) (h : Keeps P s0 s) : Keeps P s0 t := by
  unfold execPwrgdAssert at e
  repeat' first
    | cases ‹Host.Outcome.next _ = Host.Outcome.next _› | cases ‹Host.Outcome.refused _ = Host.Outcome.next _›
    | cases ‹Host.Outcome.fault _ = Host.Outcome.next _› | split at e | with_reducible assumption | exact sub_of hp rfl
    | exact rfl | with_reducible apply State.wr_keeps | with_reducible apply State.onRind_keeps
    | with_reducible apply ite_keeps | with_reducible apply foldl_keeps
    | with_reducible refine getD_keeps (fun _ _ => ?_) ?_ | intro _ | cases ‹(_, _) = (_, _)› | cases ‹some _ = some _›
    | cases ‹none = some _›
    | fail_if_no_progress with_reducible refine mk_keeps ?_ rfl rfl rfl (by and_intros <;> first | exact .inr (by with_reducible rfl) | exact .inl (sub_of hp rfl)) | dsimp only | dsimp only at e | split
theorem execFeedwarnTimeout_keeps_eq {P : ℕ} {s0 s t : State} (hp : 8119835 &&& P = 8119835) (e : execFeedwarnTimeout s = .next t) (h : Keeps P s0 s) : Keeps P s0 t := by
  unfold execFeedwarnTimeout at e
  repeat' first
    | cases ‹Host.Outcome.next _ = Host.Outcome.next _› | cases ‹Host.Outcome.refused _ = Host.Outcome.next _›
    | cases ‹Host.Outcome.fault _ = Host.Outcome.next _› | split at e | with_reducible assumption | exact sub_of hp rfl
    | exact rfl | with_reducible apply State.bothLost_keeps | with_reducible apply State.wr_keeps
    | with_reducible apply State.onRind_keeps | with_reducible apply ite_keeps | with_reducible apply foldl_keeps
    | with_reducible refine getD_keeps (fun _ _ => ?_) ?_ | intro _ | cases ‹(_, _) = (_, _)› | cases ‹some _ = some _›
    | cases ‹none = some _›
    | fail_if_no_progress with_reducible refine mk_keeps ?_ rfl rfl rfl (by and_intros <;> first | exact .inr (by with_reducible rfl) | exact .inl (sub_of hp rfl)) | dsimp only | dsimp only at e | split
theorem execSenseSBreak_keeps_eq {P : ℕ} {s0 s t : State} (hp : 8119835 &&& P = 8119835) (e : execSenseSBreak s = .next t) (h : Keeps P s0 s) : Keeps P s0 t := by
  unfold execSenseSBreak at e
  repeat' first
    | cases ‹Host.Outcome.next _ = Host.Outcome.next _› | cases ‹Host.Outcome.refused _ = Host.Outcome.next _›
    | cases ‹Host.Outcome.fault _ = Host.Outcome.next _› | split at e | with_reducible assumption | exact sub_of hp rfl
    | exact rfl | with_reducible apply State.bothLost_keeps | with_reducible apply State.wr_keeps
    | with_reducible apply State.setCtrl_keeps | with_reducible apply State.onRind_keeps | with_reducible apply ite_keeps
    | with_reducible apply foldl_keeps | with_reducible refine getD_keeps (fun _ _ => ?_) ?_ | intro _
    | cases ‹(_, _) = (_, _)› | cases ‹some _ = some _› | cases ‹none = some _›
    | fail_if_no_progress with_reducible refine mk_keeps ?_ rfl rfl rfl (by and_intros <;> first | exact .inr (by with_reducible rfl) | exact .inl (sub_of hp rfl)) | dsimp only | dsimp only at e | split
theorem execSenseLmOpen_keeps_eq {P : ℕ} {s0 s t : State} (hp : 8119835 &&& P = 8119835) {a0 : Bool} (e : execSenseLmOpen a0 s = .next t) (h : Keeps P s0 s) : Keeps P s0 t := by
  unfold execSenseLmOpen at e
  repeat' first
    | cases ‹Host.Outcome.next _ = Host.Outcome.next _› | cases ‹Host.Outcome.refused _ = Host.Outcome.next _›
    | cases ‹Host.Outcome.fault _ = Host.Outcome.next _› | split at e | with_reducible assumption | exact sub_of hp rfl
    | exact rfl | with_reducible apply State.contactOpens_keeps | with_reducible apply State.wr_keeps
    | with_reducible apply State.onRind_keeps | with_reducible apply ite_keeps | with_reducible apply foldl_keeps
    | with_reducible refine getD_keeps (fun _ _ => ?_) ?_ | intro _ | cases ‹(_, _) = (_, _)› | cases ‹some _ = some _›
    | cases ‹none = some _›
    | fail_if_no_progress with_reducible refine mk_keeps ?_ rfl rfl rfl (by and_intros <;> first | exact .inr (by with_reducible rfl) | exact .inl (sub_of hp rfl)) | dsimp only | dsimp only at e | split
theorem State.clrPeak_keeps {P : ℕ} {s0 s : State} (hp : 2 &&& P = 2) (h : Keeps P s0 s) : Keeps P s0 (State.clrPeak s) := by
  unfold State.clrPeak
  repeat' first
    | with_reducible assumption | exact sub_of hp rfl | exact rfl | with_reducible apply State.wr_keeps
    | with_reducible apply ite_keeps | with_reducible apply foldl_keeps
    | with_reducible refine getD_keeps (fun _ _ => ?_) ?_ | intro _ | cases ‹(_, _) = (_, _)› | cases ‹some _ = some _›
    | cases ‹none = some _›
    | fail_if_no_progress with_reducible refine mk_keeps ?_ rfl rfl rfl (by and_intros <;> first | exact .inr (by with_reducible rfl) | exact .inl (sub_of hp rfl)) | dsimp only | split
theorem execClrPeak_keeps_eq {P : ℕ} {s0 s t : State} (hp : 16386 &&& P = 16386) {a0 : Src} (e : execClrPeak a0 s = .next t) (h : Keeps P s0 s) : Keeps P s0 t := by
  unfold execClrPeak at e
  repeat' first
    | cases ‹Host.Outcome.next _ = Host.Outcome.next _› | cases ‹Host.Outcome.refused _ = Host.Outcome.next _›
    | cases ‹Host.Outcome.fault _ = Host.Outcome.next _› | split at e | with_reducible assumption | exact sub_of hp rfl
    | exact rfl | with_reducible apply State.clrPeak_keeps | with_reducible apply State.ifMay_keeps
    | with_reducible apply State.onRind_keeps | with_reducible apply ite_keeps | with_reducible apply foldl_keeps
    | with_reducible refine getD_keeps (fun _ _ => ?_) ?_ | intro _ | cases ‹(_, _) = (_, _)› | cases ‹some _ = some _›
    | cases ‹none = some _›
    | fail_if_no_progress with_reducible refine mk_keeps ?_ rfl rfl rfl (by and_intros <;> first | exact .inr (by with_reducible rfl) | exact .inl (sub_of hp rfl)) | dsimp only | dsimp only at e | split
theorem execXtalLoss_keeps_eq {P : ℕ} {s0 s t : State} (hp : 2 &&& P = 2) (e : execXtalLoss s = .next t) (h : Keeps P s0 s) : Keeps P s0 t := by
  unfold execXtalLoss at e
  repeat' first
    | cases ‹Host.Outcome.next _ = Host.Outcome.next _› | cases ‹Host.Outcome.refused _ = Host.Outcome.next _›
    | cases ‹Host.Outcome.fault _ = Host.Outcome.next _› | split at e | with_reducible assumption | exact sub_of hp rfl
    | exact rfl | with_reducible apply State.wr_keeps | with_reducible apply State.sat_keeps
    | with_reducible apply State.onRind_keeps | with_reducible apply ite_keeps | with_reducible apply foldl_keeps
    | with_reducible refine getD_keeps (fun _ _ => ?_) ?_ | intro _ | cases ‹(_, _) = (_, _)› | cases ‹some _ = some _›
    | cases ‹none = some _›
    | fail_if_no_progress with_reducible refine mk_keeps ?_ rfl rfl rfl (by and_intros <;> first | exact .inr (by with_reducible rfl) | exact .inl (sub_of hp rfl)) | dsimp only | dsimp only at e | split
theorem execXtalRestore_keeps_eq {P : ℕ} {s0 s t : State} (hp : 2 &&& P = 2) (e : execXtalRestore s = .next t) (h : Keeps P s0 s) : Keeps P s0 t := by
  unfold execXtalRestore at e
  repeat' first
    | cases ‹Host.Outcome.next _ = Host.Outcome.next _› | cases ‹Host.Outcome.refused _ = Host.Outcome.next _›
    | cases ‹Host.Outcome.fault _ = Host.Outcome.next _› | split at e | with_reducible assumption | exact sub_of hp rfl
    | exact rfl | with_reducible apply State.wr_keeps | with_reducible apply State.onRind_keeps
    | with_reducible apply ite_keeps | with_reducible apply foldl_keeps
    | with_reducible refine getD_keeps (fun _ _ => ?_) ?_ | intro _ | cases ‹(_, _) = (_, _)› | cases ‹some _ = some _›
    | cases ‹none = some _›
    | fail_if_no_progress with_reducible refine mk_keeps ?_ rfl rfl rfl (by and_intros <;> first | exact .inr (by with_reducible rfl) | exact .inl (sub_of hp rfl)) | dsimp only | dsimp only at e | split
theorem execRtcXtalLoss_keeps_eq {P : ℕ} {s0 s t : State} (hp : 2 &&& P = 2) (e : execRtcXtalLoss s = .next t) (h : Keeps P s0 s) : Keeps P s0 t := by
  unfold execRtcXtalLoss at e
  repeat' first
    | cases ‹Host.Outcome.next _ = Host.Outcome.next _› | cases ‹Host.Outcome.refused _ = Host.Outcome.next _›
    | cases ‹Host.Outcome.fault _ = Host.Outcome.next _› | split at e | with_reducible assumption | exact sub_of hp rfl
    | exact rfl | with_reducible apply State.wr_keeps | with_reducible apply State.onRind_keeps
    | with_reducible apply ite_keeps | with_reducible apply foldl_keeps
    | with_reducible refine getD_keeps (fun _ _ => ?_) ?_ | intro _ | cases ‹(_, _) = (_, _)› | cases ‹some _ = some _›
    | cases ‹none = some _›
    | fail_if_no_progress with_reducible refine mk_keeps ?_ rfl rfl rfl (by and_intros <;> first | exact .inr (by with_reducible rfl) | exact .inl (sub_of hp rfl)) | dsimp only | dsimp only at e | split
theorem State.trainSeams_keeps {P : ℕ} {s0 s : State} (hp : 514 &&& P = 514) (h : Keeps P s0 s) (a1 : ℕ) : Keeps P s0 (State.trainSeams s a1) := by
  unfold State.trainSeams
  repeat' first
    | with_reducible assumption | exact sub_of hp rfl | exact rfl | with_reducible apply State.startTraining_keeps
    | with_reducible apply ite_keeps | with_reducible apply foldl_keeps
    | with_reducible refine getD_keeps (fun _ _ => ?_) ?_ | intro _ | cases ‹(_, _) = (_, _)› | cases ‹some _ = some _›
    | cases ‹none = some _›
    | fail_if_no_progress with_reducible refine mk_keeps ?_ rfl rfl rfl (by and_intros <;> first | exact .inr (by with_reducible rfl) | exact .inl (sub_of hp rfl)) | dsimp only | split
theorem execPllLock_keeps_eq {P : ℕ} {s0 s t : State} (hp : 33282 &&& P = 33282) {a0 : Die} (e : execPllLock a0 s = .next t) (h : Keeps P s0 s) : Keeps P s0 t := by
  unfold execPllLock at e
  repeat' first
    | cases ‹Host.Outcome.next _ = Host.Outcome.next _› | cases ‹Host.Outcome.refused _ = Host.Outcome.next _›
    | cases ‹Host.Outcome.fault _ = Host.Outcome.next _› | split at e | with_reducible assumption | exact sub_of hp rfl
    | exact rfl | with_reducible apply State.trainSeams_keeps | with_reducible apply State.setDomains_keeps
    | with_reducible apply State.wr_keeps | with_reducible apply ite_keeps | with_reducible apply foldl_keeps
    | with_reducible refine getD_keeps (fun _ _ => ?_) ?_ | intro _ | cases ‹(_, _) = (_, _)› | cases ‹some _ = some _›
    | cases ‹none = some _›
    | fail_if_no_progress with_reducible refine mk_keeps ?_ rfl rfl rfl (by and_intros <;> first | exact .inr (by with_reducible rfl) | exact .inl (sub_of hp rfl)) | dsimp only | dsimp only at e | split
theorem execPllUnlock_keeps_eq {P : ℕ} {s0 s t : State} (hp : 16898 &&& P = 16898) {a0 : Die} (e : execPllUnlock a0 s = .next t) (h : Keeps P s0 s) : Keeps P s0 t := by
  unfold execPllUnlock at e
  repeat' first
    | cases ‹Host.Outcome.next _ = Host.Outcome.next _› | cases ‹Host.Outcome.refused _ = Host.Outcome.next _›
    | cases ‹Host.Outcome.fault _ = Host.Outcome.next _› | split at e | with_reducible assumption | exact sub_of hp rfl
    | exact rfl | with_reducible apply State.failElem_keeps | with_reducible apply State.wr_keeps
    | with_reducible apply State.sat_keeps | with_reducible apply ite_keeps | with_reducible apply foldl_keeps
    | with_reducible refine getD_keeps (fun _ _ => ?_) ?_ | intro _ | cases ‹(_, _) = (_, _)› | cases ‹some _ = some _›
    | cases ‹none = some _›
    | fail_if_no_progress with_reducible refine mk_keeps ?_ rfl rfl rfl (by and_intros <;> first | exact .inr (by with_reducible rfl) | exact .inl (sub_of hp rfl)) | dsimp only | dsimp only at e | split
theorem State.rtcWrite_keeps {P : ℕ} {s0 s : State} (hp : 2 &&& P = 2) (h : Keeps P s0 s) (a1 : ℕ) : Keeps P s0 (State.rtcWrite s a1) := by
  unfold State.rtcWrite
  repeat' first
    | with_reducible assumption | exact sub_of hp rfl | exact rfl | with_reducible apply State.wr_keeps
    | with_reducible apply ite_keeps | with_reducible apply foldl_keeps
    | with_reducible refine getD_keeps (fun _ _ => ?_) ?_ | intro _ | cases ‹(_, _) = (_, _)› | cases ‹some _ = some _›
    | cases ‹none = some _›
    | fail_if_no_progress with_reducible refine mk_keeps ?_ rfl rfl rfl (by and_intros <;> first | exact .inr (by with_reducible rfl) | exact .inl (sub_of hp rfl)) | dsimp only | split
theorem execRtcWrite_keeps_eq {P : ℕ} {s0 s t : State} (hp : 16386 &&& P = 16386) {a0 : Src} {a1 : BitVec 32} (e : execRtcWrite a0 a1 s = .next t) (h : Keeps P s0 s) : Keeps P s0 t := by
  unfold execRtcWrite at e
  repeat' first
    | cases ‹Host.Outcome.next _ = Host.Outcome.next _› | cases ‹Host.Outcome.refused _ = Host.Outcome.next _›
    | cases ‹Host.Outcome.fault _ = Host.Outcome.next _› | split at e | with_reducible assumption | exact sub_of hp rfl
    | exact rfl | with_reducible apply State.ifMay_keeps | with_reducible apply State.rtcWrite_keeps
    | with_reducible apply State.onRind_keeps | with_reducible apply ite_keeps | with_reducible apply foldl_keeps
    | with_reducible refine getD_keeps (fun _ _ => ?_) ?_ | intro _ | cases ‹(_, _) = (_, _)› | cases ‹some _ = some _›
    | cases ‹none = some _›
    | fail_if_no_progress with_reducible refine mk_keeps ?_ rfl rfl rfl (by and_intros <;> first | exact .inr (by with_reducible rfl) | exact .inl (sub_of hp rfl)) | dsimp only | dsimp only at e | split
theorem execRetentionIdle_keeps_eq {P : ℕ} {s0 s t : State} (hp : 2 &&& P = 2) {a0 : Cell} (e : execRetentionIdle a0 s = .next t) (h : Keeps P s0 s) : Keeps P s0 t := by
  unfold execRetentionIdle at e
  repeat' first
    | cases ‹Host.Outcome.next _ = Host.Outcome.next _› | cases ‹Host.Outcome.refused _ = Host.Outcome.next _›
    | cases ‹Host.Outcome.fault _ = Host.Outcome.next _› | split at e | with_reducible assumption | exact sub_of hp rfl
    | exact rfl | with_reducible apply State.wr_keeps | with_reducible apply ite_keeps | with_reducible apply foldl_keeps
    | with_reducible refine getD_keeps (fun _ _ => ?_) ?_ | intro _ | cases ‹(_, _) = (_, _)› | cases ‹some _ = some _›
    | cases ‹none = some _›
    | fail_if_no_progress with_reducible refine mk_keeps ?_ rfl rfl rfl (by and_intros <;> first | exact .inr (by with_reducible rfl) | exact .inl (sub_of hp rfl)) | dsimp only | dsimp only at e | split
theorem execDrainedReport_keeps_eq {P : ℕ} {s0 s t : State} (hp : 2 &&& P = 2) {a0 : Cell} (e : execDrainedReport a0 s = .next t) (h : Keeps P s0 s) : Keeps P s0 t := by
  unfold execDrainedReport at e
  repeat' first
    | cases ‹Host.Outcome.next _ = Host.Outcome.next _› | cases ‹Host.Outcome.refused _ = Host.Outcome.next _›
    | cases ‹Host.Outcome.fault _ = Host.Outcome.next _› | split at e | with_reducible assumption | exact sub_of hp rfl
    | exact rfl | with_reducible apply State.wr_keeps | with_reducible apply ite_keeps | with_reducible apply foldl_keeps
    | with_reducible refine getD_keeps (fun _ _ => ?_) ?_ | intro _ | cases ‹(_, _) = (_, _)› | cases ‹some _ = some _›
    | cases ‹none = some _›
    | fail_if_no_progress with_reducible refine mk_keeps ?_ rfl rfl rfl (by and_intros <;> first | exact .inr (by with_reducible rfl) | exact .inl (sub_of hp rfl)) | dsimp only | dsimp only at e | split
theorem execDrainCommit_keeps_eq {P : ℕ} {s0 s t : State} (hp : 35330 &&& P = 35330) {a0 : Cell} (e : execDrainCommit a0 s = .next t) (h : Keeps P s0 s) : Keeps P s0 t := by
  unfold execDrainCommit at e
  repeat' first
    | cases ‹Host.Outcome.next _ = Host.Outcome.next _› | cases ‹Host.Outcome.refused _ = Host.Outcome.next _›
    | cases ‹Host.Outcome.fault _ = Host.Outcome.next _› | split at e | with_reducible assumption | exact sub_of hp rfl
    | exact rfl | with_reducible apply State.setDomain_keeps | with_reducible apply State.xingReset_keeps
    | with_reducible apply ite_keeps | with_reducible apply foldl_keeps
    | with_reducible refine getD_keeps (fun _ _ => ?_) ?_ | intro _ | cases ‹(_, _) = (_, _)› | cases ‹some _ = some _›
    | cases ‹none = some _›
    | fail_if_no_progress with_reducible refine mk_keeps ?_ rfl rfl rfl (by and_intros <;> first | exact .inr (by with_reducible rfl) | exact .inl (sub_of hp rfl)) | dsimp only | dsimp only at e | split
theorem execDrainLimitExpiry_keeps_eq {P : ℕ} {s0 s t : State} (hp : 2 &&& P = 2) {a0 : Cell} (e : execDrainLimitExpiry a0 s = .next t) (h : Keeps P s0 s) : Keeps P s0 t := by
  unfold execDrainLimitExpiry at e
  repeat' first
    | cases ‹Host.Outcome.next _ = Host.Outcome.next _› | cases ‹Host.Outcome.refused _ = Host.Outcome.next _›
    | cases ‹Host.Outcome.fault _ = Host.Outcome.next _› | split at e | with_reducible assumption | exact sub_of hp rfl
    | exact rfl | with_reducible apply State.abandonDrain_keeps | with_reducible apply State.sat_keeps
    | with_reducible apply ite_keeps | with_reducible apply foldl_keeps
    | with_reducible refine getD_keeps (fun _ _ => ?_) ?_ | intro _ | cases ‹(_, _) = (_, _)› | cases ‹some _ = some _›
    | cases ‹none = some _›
    | fail_if_no_progress with_reducible refine mk_keeps ?_ rfl rfl rfl (by and_intros <;> first | exact .inr (by with_reducible rfl) | exact .inl (sub_of hp rfl)) | dsimp only | dsimp only at e | split
theorem execHoldUnitArrival_keeps_eq {P : ℕ} {s0 s t : State} (hp : 51714 &&& P = 51714) {a0 : Cell} {a1 : Pkt} (e : execHoldUnitArrival a0 a1 s = .next t) (h : Keeps P s0 s) : Keeps P s0 t := by
  unfold execHoldUnitArrival at e
  repeat' first
    | cases ‹Host.Outcome.next _ = Host.Outcome.next _› | cases ‹Host.Outcome.refused _ = Host.Outcome.next _›
    | cases ‹Host.Outcome.fault _ = Host.Outcome.next _› | split at e | with_reducible assumption | exact sub_of hp rfl
    | exact rfl | with_reducible apply State.holdArrival_keeps | with_reducible apply ite_keeps
    | with_reducible apply foldl_keeps | with_reducible refine getD_keeps (fun _ _ => ?_) ?_ | intro _
    | cases ‹(_, _) = (_, _)› | cases ‹some _ = some _› | cases ‹none = some _›
    | fail_if_no_progress with_reducible refine mk_keeps ?_ rfl rfl rfl (by and_intros <;> first | exact .inr (by with_reducible rfl) | exact .inl (sub_of hp rfl)) | dsimp only | dsimp only at e | split
theorem execDomainOnSignal_keeps_eq {P : ℕ} {s0 s t : State} (hp : 8388155 &&& P = 8388155) {a0 : Cell} (e : execDomainOnSignal a0 s = .next t) (h : Keeps P s0 s) : Keeps P s0 t := by
  unfold execDomainOnSignal at e
  repeat' first
    | cases ‹Host.Outcome.next _ = Host.Outcome.next _› | cases ‹Host.Outcome.refused _ = Host.Outcome.next _›
    | cases ‹Host.Outcome.fault _ = Host.Outcome.next _› | split at e | with_reducible assumption | exact sub_of hp rfl
    | exact rfl | with_reducible apply State.setDomain_keeps | with_reducible apply State.wr_keeps
    | with_reducible apply State.tryClose_keeps | with_reducible apply State.copyObs_keeps
    | with_reducible apply State.setCredit_keeps | with_reducible apply State.raise_keeps
    | with_reducible apply State.inc_keeps | with_reducible apply State.releaseHold_keeps | with_reducible apply ite_keeps
    | with_reducible apply foldl_keeps | with_reducible refine getD_keeps (fun _ _ => ?_) ?_ | intro _
    | cases ‹(_, _) = (_, _)› | cases ‹some _ = some _› | cases ‹none = some _›
    | fail_if_no_progress with_reducible refine mk_keeps ?_ rfl rfl rfl (by and_intros <;> first | exact .inr (by with_reducible rfl) | exact .inl (sub_of hp rfl)) | dsimp only | dsimp only at e | split
theorem execWakeFail_keeps_eq {P : ℕ} {s0 s t : State} (hp : 8384059 &&& P = 8384059) {a0 : Cell} (e : execWakeFail a0 s = .next t) (h : Keeps P s0 s) : Keeps P s0 t := by
  unfold execWakeFail at e
  repeat' first
    | cases ‹Host.Outcome.next _ = Host.Outcome.next _› | cases ‹Host.Outcome.refused _ = Host.Outcome.next _›
    | cases ‹Host.Outcome.fault _ = Host.Outcome.next _› | split at e | with_reducible assumption | exact sub_of hp rfl
    | exact rfl | with_reducible apply State.failElem_keeps | with_reducible apply State.tryClose_keeps
    | with_reducible apply State.sat_keeps | with_reducible apply ite_keeps | with_reducible apply foldl_keeps
    | with_reducible refine getD_keeps (fun _ _ => ?_) ?_ | intro _ | cases ‹(_, _) = (_, _)› | cases ‹some _ = some _›
    | cases ‹none = some _›
    | fail_if_no_progress with_reducible refine mk_keeps ?_ rfl rfl rfl (by and_intros <;> first | exact .inr (by with_reducible rfl) | exact .inl (sub_of hp rfl)) | dsimp only | dsimp only at e | split
theorem execSleepClrMax_keeps_eq {P : ℕ} {s0 s t : State} (hp : 16386 &&& P = 16386) {a0 : Src} (e : execSleepClrMax a0 s = .next t) (h : Keeps P s0 s) : Keeps P s0 t := by
  unfold execSleepClrMax at e
  repeat' first
    | cases ‹Host.Outcome.next _ = Host.Outcome.next _› | cases ‹Host.Outcome.refused _ = Host.Outcome.next _›
    | cases ‹Host.Outcome.fault _ = Host.Outcome.next _› | split at e | with_reducible assumption | exact sub_of hp rfl
    | exact rfl | with_reducible apply State.wr_keeps | with_reducible apply State.ifMay_keeps
    | with_reducible apply State.onRind_keeps | with_reducible apply ite_keeps | with_reducible apply foldl_keeps
    | with_reducible refine getD_keeps (fun _ _ => ?_) ?_ | intro _ | cases ‹(_, _) = (_, _)› | cases ‹some _ = some _›
    | cases ‹none = some _›
    | fail_if_no_progress with_reducible refine mk_keeps ?_ rfl rfl rfl (by and_intros <;> first | exact .inr (by with_reducible rfl) | exact .inl (sub_of hp rfl)) | dsimp only | dsimp only at e | split

/-! ### Machine/Return -/

theorem State.toRebuild_keeps {P : ℕ} {s0 s : State} (hp : 49667 &&& P = 49667) (h : Keeps P s0 s) : Keeps P s0 (State.toRebuild s) := by
  unfold State.toRebuild
  repeat' first
    | with_reducible assumption | exact sub_of hp rfl | exact rfl | with_reducible apply State.goMode_keeps
    | with_reducible apply ite_keeps | with_reducible apply foldl_keeps
    | with_reducible refine getD_keeps (fun _ _ => ?_) ?_ | intro _ | cases ‹(_, _) = (_, _)› | cases ‹some _ = some _›
    | cases ‹none = some _›
    | fail_if_no_progress with_reducible refine mk_keeps ?_ rfl rfl rfl (by and_intros <;> first | exact .inr (by with_reducible rfl) | exact .inl (sub_of hp rfl)) | dsimp only | split
theorem execRebuildStart_keeps_eq {P : ℕ} {s0 s t : State} (hp : 49667 &&& P = 49667) {a0 : Stack} {a1 : Bool} (e : execRebuildStart a0 a1 s = .next t) (h : Keeps P s0 s) : Keeps P s0 t := by
  unfold execRebuildStart at e
  repeat' first
    | cases ‹Host.Outcome.next _ = Host.Outcome.next _› | cases ‹Host.Outcome.refused _ = Host.Outcome.next _›
    | cases ‹Host.Outcome.fault _ = Host.Outcome.next _› | split at e | with_reducible assumption | exact sub_of hp rfl
    | exact rfl | with_reducible apply State.sendBlock_keeps | with_reducible apply State.wr_keeps
    | with_reducible apply State.toRebuild_keeps | with_reducible apply State.wrb_keeps | with_reducible apply ite_keeps
    | with_reducible apply foldl_keeps | with_reducible refine getD_keeps (fun _ _ => ?_) ?_ | intro _
    | cases ‹(_, _) = (_, _)› | cases ‹some _ = some _› | cases ‹none = some _›
    | fail_if_no_progress with_reducible refine mk_keeps ?_ rfl rfl rfl (by and_intros <;> first | exact .inr (by with_reducible rfl) | exact .inl (sub_of hp rfl)) | dsimp only | dsimp only at e | split
theorem execSpHeartbeatMiss_keeps_eq {P : ℕ} {s0 s t : State} (hp : 16482 &&& P = 16482) {a0 : Fin 2} (e : execSpHeartbeatMiss a0 s = .next t) (h : Keeps P s0 s) : Keeps P s0 t := by
  unfold execSpHeartbeatMiss at e
  repeat' first
    | cases ‹Host.Outcome.next _ = Host.Outcome.next _› | cases ‹Host.Outcome.refused _ = Host.Outcome.next _›
    | cases ‹Host.Outcome.fault _ = Host.Outcome.next _› | split at e | with_reducible assumption | exact sub_of hp rfl
    | exact rfl | with_reducible apply State.logStep_keeps | with_reducible apply State.beginRecovery_keeps
    | with_reducible apply State.logFault_keeps | with_reducible apply ite_keeps | with_reducible apply foldl_keeps
    | with_reducible refine getD_keeps (fun _ _ => ?_) ?_ | intro _ | cases ‹(_, _) = (_, _)› | cases ‹some _ = some _›
    | cases ‹none = some _›
    | fail_if_no_progress with_reducible refine mk_keeps ?_ rfl rfl rfl (by and_intros <;> first | exact .inr (by with_reducible rfl) | exact .inl (sub_of hp rfl)) | dsimp only | dsimp only at e | split
theorem State.startReturn_keeps {P : ℕ} {s0 s : State} (hp : 49666 &&& P = 49666) (h : Keeps P s0 s) (a1 : Elem) : Keeps P s0 (State.startReturn s a1) := by
  unfold State.startReturn
  repeat' first
    | with_reducible assumption | exact sub_of hp rfl | exact rfl | with_reducible apply State.setDomains_keeps
    | with_reducible apply State.wr_keeps | with_reducible apply State.startTraining_keeps
    | with_reducible apply State.pllStart_keeps | with_reducible apply ite_keeps | with_reducible apply foldl_keeps
    | with_reducible refine getD_keeps (fun _ _ => ?_) ?_ | intro _ | cases ‹(_, _) = (_, _)› | cases ‹some _ = some _›
    | cases ‹none = some _›
    | fail_if_no_progress with_reducible refine mk_keeps ?_ rfl rfl rfl (by and_intros <;> first | exact .inr (by with_reducible rfl) | exact .inl (sub_of hp rfl)) | dsimp only | split
theorem State.fenceReturnOp_keeps {P : ℕ} {s0 s : State} (hp : 49666 &&& P = 49666) (h : Keeps P s0 s) : Keeps P s0 (State.fenceReturnOp s) := by
  unfold State.fenceReturnOp
  repeat' first
    | with_reducible assumption | exact sub_of hp rfl | exact rfl | with_reducible apply State.startReturn_keeps
    | with_reducible apply State.flag_keeps | with_reducible apply ite_keeps | with_reducible apply foldl_keeps
    | with_reducible refine getD_keeps (fun _ _ => ?_) ?_ | intro _ | cases ‹(_, _) = (_, _)› | cases ‹some _ = some _›
    | cases ‹none = some _›
    | fail_if_no_progress with_reducible refine mk_keeps ?_ rfl rfl rfl (by and_intros <;> first | exact .inr (by with_reducible rfl) | exact .inl (sub_of hp rfl)) | dsimp only | split
theorem execFenceReturnGo_keeps_eq {P : ℕ} {s0 s t : State} (hp : 49666 &&& P = 49666) {a0 : Src ⊕ Elem} (e : execFenceReturnGo a0 s = .next t) (h : Keeps P s0 s) : Keeps P s0 t := by
  unfold execFenceReturnGo at e
  repeat' first
    | cases ‹Host.Outcome.next _ = Host.Outcome.next _› | cases ‹Host.Outcome.refused _ = Host.Outcome.next _›
    | cases ‹Host.Outcome.fault _ = Host.Outcome.next _› | split at e | with_reducible assumption | exact sub_of hp rfl
    | exact rfl | with_reducible apply State.startReturn_keeps | with_reducible apply State.fenceReturnOp_keeps
    | with_reducible apply State.ifMay_keeps | with_reducible apply ite_keeps | with_reducible apply foldl_keeps
    | with_reducible refine getD_keeps (fun _ _ => ?_) ?_ | intro _ | cases ‹(_, _) = (_, _)› | cases ‹some _ = some _›
    | cases ‹none = some _›
    | fail_if_no_progress with_reducible refine mk_keeps ?_ rfl rfl rfl (by and_intros <;> first | exact .inr (by with_reducible rfl) | exact .inl (sub_of hp rfl)) | dsimp only | dsimp only at e | split
theorem execReturnSelfTestComplete_keeps_eq {P : ℕ} {s0 s t : State} (hp : 49667 &&& P = 49667) {a0 : Bool} (e : execReturnSelfTestComplete a0 s = .next t) (h : Keeps P s0 s) : Keeps P s0 t := by
  unfold execReturnSelfTestComplete at e
  repeat' first
    | cases ‹Host.Outcome.next _ = Host.Outcome.next _› | cases ‹Host.Outcome.refused _ = Host.Outcome.next _›
    | cases ‹Host.Outcome.fault _ = Host.Outcome.next _› | split at e | with_reducible assumption | exact sub_of hp rfl
    | exact rfl | with_reducible apply State.fenceNotes_keeps | with_reducible apply State.endReturn_keeps
    | with_reducible apply ite_keeps | with_reducible apply foldl_keeps
    | with_reducible refine getD_keeps (fun _ _ => ?_) ?_ | intro _ | cases ‹(_, _) = (_, _)› | cases ‹some _ = some _›
    | cases ‹none = some _›
    | fail_if_no_progress with_reducible refine mk_keeps ?_ rfl rfl rfl (by and_intros <;> first | exact .inr (by with_reducible rfl) | exact .inl (sub_of hp rfl)) | dsimp only | dsimp only at e | split
theorem State.logFetchOp_keeps {P : ℕ} {s0 s : State} (hp : 16386 &&& P = 16386) (h : Keeps P s0 s) : Keeps P s0 (State.logFetchOp s) := by
  unfold State.logFetchOp
  repeat' first
    | with_reducible assumption | exact sub_of hp rfl | exact rfl | with_reducible apply State.setReg_keeps
    | with_reducible apply ite_keeps | with_reducible apply foldl_keeps
    | with_reducible refine getD_keeps (fun _ _ => ?_) ?_ | intro _ | cases ‹(_, _) = (_, _)› | cases ‹some _ = some _›
    | cases ‹none = some _›
    | fail_if_no_progress with_reducible refine mk_keeps ?_ rfl rfl rfl (by and_intros <;> first | exact .inr (by with_reducible rfl) | exact .inl (sub_of hp rfl)) | dsimp only | split
theorem execLogFetchComplete_keeps_eq {P : ℕ} {s0 s t : State} (hp : 16386 &&& P = 16386) (e : execLogFetchComplete s = .next t) (h : Keeps P s0 s) : Keeps P s0 t := by
  unfold execLogFetchComplete at e
  repeat' first
    | cases ‹Host.Outcome.next _ = Host.Outcome.next _› | cases ‹Host.Outcome.refused _ = Host.Outcome.next _›
    | cases ‹Host.Outcome.fault _ = Host.Outcome.next _› | split at e | with_reducible assumption | exact sub_of hp rfl
    | exact rfl | with_reducible apply State.wr_keeps | with_reducible apply ite_keeps | with_reducible apply foldl_keeps
    | with_reducible refine getD_keeps (fun _ _ => ?_) ?_ | intro _ | cases ‹(_, _) = (_, _)› | cases ‹some _ = some _›
    | cases ‹none = some _›
    | fail_if_no_progress with_reducible refine mk_keeps ?_ rfl rfl rfl (by and_intros <;> first | exact .inr (by with_reducible rfl) | exact .inl (sub_of hp rfl)) | dsimp only | dsimp only at e | split

end Sys2Proof.Machine
end

