-- ==== Sys2Proof/Laws/KeepModule.lean ====
section
/-! SUPPORT. What the operations of boot, the life cycle, the manager, counters and the tick keep: one lemma for each function that answers a state. -/

set_option Elab.async false

namespace Sys2Proof.Machine

set_option linter.unreachableTactic false
set_option linter.unusedTactic false

/-! ### Machine/ImgOps -/

theorem State.putMasked_keeps {P : ℕ} {s0 s : State} (hp : 2 &&& P = 2) (h : Keeps P s0 s) (a1 : ℕ) (a2 : Word) (a3 : Word) : Keeps P s0 (State.putMasked s a1 a2 a3) := by
  unfold State.putMasked
  repeat' first
    | with_reducible assumption | exact sub_of hp rfl | exact rfl | with_reducible apply State.setReg_keeps
    | with_reducible apply ite_keeps | with_reducible apply foldl_keeps
    | with_reducible refine getD_keeps (fun _ _ => ?_) ?_ | intro _ | cases ‹(_, _) = (_, _)› | cases ‹some _ = some _›
    | cases ‹none = some _›
    | fail_if_no_progress with_reducible refine mk_keeps ?_ rfl rfl rfl (by and_intros <;> first | exact .inr (by with_reducible rfl) | exact .inl (sub_of hp rfl)) | dsimp only | split
theorem State.applyFields_keeps {P : ℕ} {s0 s : State} (hp : 2 &&& P = 2) (h : Keeps P s0 s) (a1 : List ImgField) : Keeps P s0 (State.applyFields s a1) := by
  unfold State.applyFields
  repeat' first
    | with_reducible assumption | exact sub_of hp rfl | exact rfl | with_reducible apply State.putMasked_keeps
    | with_reducible apply ite_keeps | with_reducible apply foldl_keeps
    | with_reducible refine getD_keeps (fun _ _ => ?_) ?_ | intro _ | cases ‹(_, _) = (_, _)› | cases ‹some _ = some _›
    | cases ‹none = some _›
    | fail_if_no_progress with_reducible refine mk_keeps ?_ rfl rfl rfl (by and_intros <;> first | exact .inr (by with_reducible rfl) | exact .inl (sub_of hp rfl)) | dsimp only | split
theorem State.setHomeMap_keeps {P : ℕ} {s0 s : State} (hp : 2 &&& P = 2) (h : Keeps P s0 s) : Keeps P s0 (State.setHomeMap s) := by
  unfold State.setHomeMap
  repeat' first
    | with_reducible assumption | exact sub_of hp rfl | exact rfl | with_reducible apply State.wr_keeps
    | with_reducible apply ite_keeps | with_reducible apply foldl_keeps
    | with_reducible refine getD_keeps (fun _ _ => ?_) ?_ | intro _ | cases ‹(_, _) = (_, _)› | cases ‹some _ = some _›
    | cases ‹none = some _›
    | fail_if_no_progress with_reducible refine mk_keeps ?_ rfl rfl rfl (by and_intros <;> first | exact .inr (by with_reducible rfl) | exact .inl (sub_of hp rfl)) | dsimp only | split
theorem State.settleNotes_keeps {P : ℕ} {s0 s : State} (hp : 532480 &&& P = 532480) (h : Keeps P s0 s) : Keeps P s0 (State.settleNotes s) := by
  unfold State.settleNotes
  repeat' first
    | with_reducible assumption | exact sub_of hp rfl | exact rfl | with_reducible apply State.setDev_keeps
    | with_reducible apply State.setExtAll_keeps | with_reducible apply ite_keeps | with_reducible apply foldl_keeps
    | with_reducible refine getD_keeps (fun _ _ => ?_) ?_ | intro _ | cases ‹(_, _) = (_, _)› | cases ‹some _ = some _›
    | cases ‹none = some _›
    | fail_if_no_progress with_reducible refine mk_keeps ?_ rfl rfl rfl (by and_intros <;> first | exact .inr (by with_reducible rfl) | exact .inl (sub_of hp rfl)) | dsimp only | split
theorem State.setCaps_keeps {P : ℕ} {s0 s : State} (hp : 532480 &&& P = 532480) (h : Keeps P s0 s) (a1 : List ImgCap) : Keeps P s0 (State.setCaps s a1) := by
  unfold State.setCaps
  repeat' first
    | with_reducible assumption | exact sub_of hp rfl | exact rfl | with_reducible apply State.addExts_keeps
    | with_reducible apply State.settleNotes_keeps | with_reducible apply ite_keeps | with_reducible apply foldl_keeps
    | with_reducible refine getD_keeps (fun _ _ => ?_) ?_ | intro _ | cases ‹(_, _) = (_, _)› | cases ‹some _ = some _›
    | cases ‹none = some _›
    | fail_if_no_progress with_reducible refine mk_keeps ?_ rfl rfl rfl (by and_intros <;> first | exact .inr (by with_reducible rfl) | exact .inl (sub_of hp rfl)) | dsimp only | split
theorem State.joinGroup_keeps {P : ℕ} {s0 s : State} (hp : 1572866 &&& P = 1572866) (h : Keeps P s0 s) (a1 : ℕ) (a2 : ℕ) : Keeps P s0 (State.joinGroup s a1 a2) := by
  unfold State.joinGroup
  have h1 : Keeps P s0 ((s.wr (F.INST_INFO_GROUPED a1) 1).wr (F.INST_INFO_GROUP a1) a2) := State.wr_keeps (sub_of hp rfl) (State.wr_keeps (sub_of hp rfl) h _ _) _ _
  refine ite_keeps (fun _ => ?_) fun _ => State.setOwner_keeps (sub_of hp rfl) h1 _ _
  split
  rename_i e
  exact State.setOwner_keeps (sub_of hp rfl) (State.allocSlot_keeps_eq (sub_of hp rfl) e h1) _ _
theorem State.setInsts_keeps {P : ℕ} {s0 s : State} (hp : 1843202 &&& P = 1843202) (h : Keeps P s0 s) (a1 : List ImgInst) : Keeps P s0 (State.setInsts s a1) := by
  unfold State.setInsts
  refine foldl_keeps h fun t x h => ?_
  split
  · rename_i e
    have h2 := State.defineWith_keeps (sub_of hp rfl) (State.allocSlot_keeps_eq (sub_of hp rfl) e h)
    exact State.settleNotes_keeps (sub_of hp rfl) (foldl_keeps (ite_keeps (fun _ => State.joinGroup_keeps (sub_of hp rfl) (h2 _ _ _ _) _ _) fun _ => h2 _ _ _ _)
      fun _ _ h => State.assignExt_keeps (sub_of hp rfl) h _ _)
  · exact h
theorem State.setImgRegions_keeps {P : ℕ} {s0 s : State} (hp : 524288 &&& P = 524288) (h : Keeps P s0 s) (a1 : List Region) : Keeps P s0 (State.setImgRegions s a1) := by
  unfold State.setImgRegions
  repeat' first
    | with_reducible assumption | exact sub_of hp rfl | exact rfl | with_reducible apply State.setOwner_keeps
    | with_reducible apply ite_keeps | with_reducible apply foldl_keeps
    | with_reducible refine getD_keeps (fun _ _ => ?_) ?_ | intro _ | cases ‹(_, _) = (_, _)› | cases ‹some _ = some _›
    | cases ‹none = some _›
    | fail_if_no_progress with_reducible refine mk_keeps ?_ rfl rfl rfl (by and_intros <;> first | exact .inr (by with_reducible rfl) | exact .inl (sub_of hp rfl)) | dsimp only | split
theorem State.freshPools_keeps {P : ℕ} {s0 s : State} (hp : 2 &&& P = 2) (h : Keeps P s0 s) : Keeps P s0 (State.freshPools s) := by
  unfold State.freshPools
  repeat' first
    | with_reducible assumption | exact sub_of hp rfl | exact rfl | with_reducible apply State.showPool_keeps
    | with_reducible apply State.wr_keeps | with_reducible apply State.bufFresh_keeps | with_reducible apply ite_keeps
    | with_reducible apply foldl_keeps | with_reducible refine getD_keeps (fun _ _ => ?_) ?_ | intro _
    | cases ‹(_, _) = (_, _)› | cases ‹some _ = some _› | cases ‹none = some _›
    | fail_if_no_progress with_reducible refine mk_keeps ?_ rfl rfl rfl (by and_intros <;> first | exact .inr (by with_reducible rfl) | exact .inl (sub_of hp rfl)) | dsimp only | split
theorem State.applySections_keeps {P : ℕ} {s0 s : State} (hp : 1843202 &&& P = 1843202) (h : Keeps P s0 s) (a1 : Image) : Keeps P s0 (State.applySections s a1) := by
  unfold State.applySections
  repeat' first
    | with_reducible assumption | exact sub_of hp rfl | exact rfl | with_reducible apply State.setInsts_keeps
    | with_reducible apply State.setImgRegions_keeps | with_reducible apply State.freshPools_keeps
    | with_reducible apply State.setCaps_keeps | with_reducible apply State.setHomeMap_keeps
    | with_reducible apply ite_keeps | with_reducible apply foldl_keeps
    | with_reducible refine getD_keeps (fun _ _ => ?_) ?_ | intro _ | cases ‹(_, _) = (_, _)› | cases ‹some _ = some _›
    | cases ‹none = some _›
    | fail_if_no_progress with_reducible refine mk_keeps ?_ rfl rfl rfl (by and_intros <;> first | exact .inr (by with_reducible rfl) | exact .inl (sub_of hp rfl)) | dsimp only | split

/-! ### Machine/Boot -/

theorem State.setLc_keeps {P : ℕ} {s0 s : State} (hp : 16386 &&& P = 16386) (h : Keeps P s0 s) (a1 : ℕ) (a2 : ℕ) (a3 : ℕ) (a4 : ℕ) : Keeps P s0 (State.setLc s a1 a2 a3 a4) := by
  unfold State.setLc
  repeat' first
    | with_reducible assumption | exact sub_of hp rfl | exact rfl | with_reducible apply State.logAudit_keeps
    | with_reducible apply State.wr_keeps | with_reducible apply ite_keeps | with_reducible apply foldl_keeps
    | with_reducible refine getD_keeps (fun _ _ => ?_) ?_ | intro _ | cases ‹(_, _) = (_, _)› | cases ‹some _ = some _›
    | cases ‹none = some _›
    | fail_if_no_progress with_reducible refine mk_keeps ?_ rfl rfl rfl (by and_intros <;> first | exact .inr (by with_reducible rfl) | exact .inl (sub_of hp rfl)) | dsimp only | split
theorem State.drawWords_keeps {P : ℕ} {s0 s : State} (hp : 10 &&& P = 10) (h : Keeps P s0 s) (a1 : ℕ → Fld) (a2 : ℕ) : Keeps P s0 (State.drawWords s a1 a2) := by
  unfold State.drawWords
  repeat' first
    | with_reducible assumption | exact sub_of hp rfl | exact rfl
    | refine State.fresh_keeps_eq (sub_of hp rfl) (by assumption) ?_ | with_reducible apply State.fresh_keeps
    | with_reducible apply State.wr_keeps | with_reducible apply ite_keeps | with_reducible apply foldl_keeps
    | with_reducible refine foldl_snd_keeps ?_ (fun _ _ _ _ => ?_) | with_reducible refine getD_keeps (fun _ _ => ?_) ?_
    | intro _ | cases ‹(_, _) = (_, _)› | cases ‹some _ = some _› | cases ‹none = some _›
    | fail_if_no_progress with_reducible refine mk_keeps ?_ rfl rfl rfl (by and_intros <;> first | exact .inr (by with_reducible rfl) | exact .inl (sub_of hp rfl)) | dsimp only | split
theorem State.drawNonce_keeps {P : ℕ} {s0 s : State} (hp : 10 &&& P = 10) (h : Keeps P s0 s) : Keeps P s0 (State.drawNonce s) := by
  unfold State.drawNonce
  repeat' first
    | with_reducible assumption | exact sub_of hp rfl | exact rfl | with_reducible apply State.drawWords_keeps
    | with_reducible apply ite_keeps | with_reducible apply foldl_keeps
    | with_reducible refine getD_keeps (fun _ _ => ?_) ?_ | intro _ | cases ‹(_, _) = (_, _)› | cases ‹some _ = some _›
    | cases ‹none = some _›
    | fail_if_no_progress with_reducible refine mk_keeps ?_ rfl rfl rfl (by and_intros <;> first | exact .inr (by with_reducible rfl) | exact .inl (sub_of hp rfl)) | dsimp only | split
theorem State.showOwnerFuse_keeps {P : ℕ} {s0 s : State} (hp : 2 &&& P = 2) (h : Keeps P s0 s) : Keeps P s0 (State.showOwnerFuse s) := by
  unfold State.showOwnerFuse
  repeat' first
    | with_reducible assumption | exact sub_of hp rfl | exact rfl | with_reducible apply State.wr_keeps
    | with_reducible apply ite_keeps | with_reducible apply foldl_keeps
    | with_reducible refine getD_keeps (fun _ _ => ?_) ?_ | intro _ | cases ‹(_, _) = (_, _)› | cases ‹some _ = some _›
    | cases ‹none = some _›
    | fail_if_no_progress with_reducible refine mk_keeps ?_ rfl rfl rfl (by and_intros <;> first | exact .inr (by with_reducible rfl) | exact .inl (sub_of hp rfl)) | dsimp only | split
theorem State.mendFuses_keeps {P : ℕ} {s0 s : State} (hp : 16386 &&& P = 16386) (h : Keeps P s0 s) : Keeps P s0 (State.mendFuses s) := by
  unfold State.mendFuses
  repeat' first
    | with_reducible assumption | exact sub_of hp rfl | exact rfl | with_reducible apply State.wr_keeps
    | with_reducible apply State.setLc_keeps | with_reducible apply State.showOwnerFuse_keeps
    | with_reducible apply ite_keeps | with_reducible apply foldl_keeps
    | with_reducible refine getD_keeps (fun _ _ => ?_) ?_ | intro _ | cases ‹(_, _) = (_, _)› | cases ‹some _ = some _›
    | cases ‹none = some _›
    | fail_if_no_progress with_reducible refine mk_keeps ?_ rfl rfl rfl (by and_intros <;> first | exact .inr (by with_reducible rfl) | exact .inl (sub_of hp rfl)) | dsimp only | split
theorem State.halt_keeps {P : ℕ} {s0 s : State} (hp : 2736643 &&& P = 2736643) (h : Keeps P s0 s) (a1 : ℕ) : Keeps P s0 (State.halt s a1) := by
  unfold State.halt
  repeat' first
    | with_reducible assumption | exact sub_of hp rfl | exact rfl | with_reducible apply State.loseLease_keeps
    | with_reducible apply State.goMode_keeps | with_reducible apply ite_keeps | with_reducible apply foldl_keeps
    | with_reducible refine getD_keeps (fun _ _ => ?_) ?_ | intro _ | cases ‹(_, _) = (_, _)› | cases ‹some _ = some _›
    | cases ‹none = some _›
    | fail_if_no_progress with_reducible refine mk_keeps ?_ rfl rfl rfl (by and_intros <;> first | exact .inr (by with_reducible rfl) | exact .inl (sub_of hp rfl)) | dsimp only | split
theorem State.leaveDormant_keeps {P : ℕ} {s0 s : State} (hp : 3916303 &&& P = 3916303) (h : Keeps P s0 s) (k : s.mode = .dormant) : Keeps P s0 (State.leaveDormant s) := by
  unfold State.leaveDormant
  have h0 : Keeps P s0 { s with cyc := 0, regs := s.regs.filter (fun (e : Nat × Word) => keptReg e.1), mode := .imageLoad } :=
    ⟨h.queue, .move (k ▸ h.mode) (show modeOk .dormant .imageLoad = true from rfl), fun x => regsOk_filter (h.regs x) _, h.nor, h.therm, h.answers, h.signs, h.key, h.more 7 (hm := (sub_of hp rfl))⟩
  have h1 := fun m => State.mendFuses_keeps (sub_of hp rfl) (State.modeDomains_keeps (sub_of hp rfl) (State.wr_keeps (sub_of hp rfl) h0 F.PKG_IMAGE_MIN_SVN m) .dormant)
  exact ite_keeps (fun _ => mk_keeps (State.fresh_keeps (sub_of hp rfl) (State.fresh_keeps (sub_of hp rfl) (State.drawNonce_keeps (sub_of hp rfl) (h1 _)))) rfl rfl rfl (by and_intros <;> first | exact .inr (by with_reducible rfl) | exact .inl (sub_of hp rfl))) fun _ => State.halt_keeps (sub_of hp rfl) (h1 _) _
theorem execEnableNLowStart_keeps_eq {P : ℕ} {s0 s t : State} (hp : 3916303 &&& P = 3916303) (e : execEnableNLowStart s = .next t) (h : Keeps P s0 s) : Keeps P s0 t := by
  unfold execEnableNLowStart at e
  cases e
  refine State.onRind_keeps (sub_of hp rfl) h _ fun u h => ?_
  have h1 := State.wr_keeps (sub_of hp rfl) h F.RIND_PWR_STATUS_ENABLE 1
  exact ite_keeps (fun e => State.leaveDormant_keeps (sub_of hp rfl) h1 e.1) fun _ => h1
theorem State.wr384_keeps {P : ℕ} {s0 s : State} (hp : 2 &&& P = 2) (h : Keeps P s0 s) (a1 : ℕ → Fld) (a2 : BitVec 384) : Keeps P s0 (State.wr384 s a1 a2) := by
  unfold State.wr384
  repeat' first
    | with_reducible assumption | exact sub_of hp rfl | exact rfl | with_reducible apply State.wr_keeps
    | with_reducible apply ite_keeps | with_reducible apply foldl_keeps
    | with_reducible refine getD_keeps (fun _ _ => ?_) ?_ | intro _ | cases ‹(_, _) = (_, _)› | cases ‹some _ = some _›
    | cases ‹none = some _›
    | fail_if_no_progress with_reducible refine mk_keeps ?_ rfl rfl rfl (by and_intros <;> first | exact .inr (by with_reducible rfl) | exact .inl (sub_of hp rfl)) | dsimp only | split
theorem State.triedImage_keeps {P : ℕ} {s0 s : State} (hp : 278538 &&& P = 278538) (h : Keeps P s0 s) (a1 : ℕ) (a2 : ImgResult) : Keeps P s0 (State.triedImage s a1 a2) := by
  unfold State.triedImage
  repeat' first
    | with_reducible assumption | exact sub_of hp rfl | exact rfl | with_reducible apply State.logAudit_keeps
    | refine State.fresh_keeps_eq (sub_of hp rfl) (by assumption) ?_ | with_reducible apply State.fresh_keeps
    | with_reducible apply State.wr_keeps | with_reducible apply ite_keeps | with_reducible apply foldl_keeps
    | with_reducible refine foldl_snd_keeps ?_ (fun _ _ _ _ => ?_) | with_reducible refine getD_keeps (fun _ _ => ?_) ?_
    | intro _ | cases ‹(_, _) = (_, _)› | cases ‹some _ = some _› | cases ‹none = some _›
    | fail_if_no_progress with_reducible refine mk_keeps ?_ rfl rfl rfl (by and_intros <;> first | exact .inr (by with_reducible rfl) | exact .inl (sub_of hp rfl)) | dsimp only | split
theorem State.setEnvelope_keeps {P : ℕ} {s0 s : State} (hp : 2097154 &&& P = 2097154) (h : Keeps P s0 s) (a1 : Image) : Keeps P s0 (State.setEnvelope s a1) := by
  unfold State.setEnvelope
  repeat' first
    | with_reducible assumption | exact sub_of hp rfl | exact rfl | with_reducible apply State.wr_keeps
    | with_reducible apply State.wrb_keeps | with_reducible apply ite_keeps | with_reducible apply foldl_keeps
    | with_reducible refine getD_keeps (fun _ _ => ?_) ?_ | intro _ | cases ‹(_, _) = (_, _)› | cases ‹some _ = some _›
    | cases ‹none = some _›
    | fail_if_no_progress with_reducible refine mk_keeps ?_ rfl rfl rfl (by and_intros <;> first | exact .inr (by with_reducible rfl) | exact .inl (sub_of hp rfl)) | dsimp only | split
theorem State.takeImage_keeps {P : ℕ} {s0 s : State} (hp : 2408963 &&& P = 2408963) (h : Keeps P s0 s) (a1 : Image) (a2 : ℕ) : Keeps P s0 (State.takeImage s a1 a2) := by
  unfold State.takeImage
  repeat' first
    | with_reducible assumption | exact sub_of hp rfl | exact rfl | with_reducible apply State.goMode_keeps
    | with_reducible apply State.setEnvelope_keeps | with_reducible apply State.wr_keeps
    | with_reducible apply State.wr384_keeps | with_reducible apply ite_keeps | with_reducible apply foldl_keeps
    | with_reducible refine getD_keeps (fun _ _ => ?_) ?_ | intro _ | cases ‹(_, _) = (_, _)› | cases ‹some _ = some _›
    | cases ‹none = some _›
    | fail_if_no_progress with_reducible refine mk_keeps ?_ rfl rfl rfl (by and_intros <;> first | exact .inr (by with_reducible rfl) | exact .inl (sub_of hp rfl)) | dsimp only | split
theorem execImageLoadComplete_keeps_eq {P : ℕ} {s0 s t : State} (hp : 2998795 &&& P = 2998795) {a0 : Bool} {a1 : Bool} (e : execImageLoadComplete a0 a1 s = .next t) (h : Keeps P s0 s) : Keeps P s0 t := by
  unfold execImageLoadComplete at e
  repeat' first
    | cases ‹Host.Outcome.next _ = Host.Outcome.next _› | cases ‹Host.Outcome.refused _ = Host.Outcome.next _›
    | cases ‹Host.Outcome.fault _ = Host.Outcome.next _› | split at e | with_reducible assumption | exact sub_of hp rfl
    | exact rfl | with_reducible apply State.halt_keeps | with_reducible apply State.wr_keeps
    | with_reducible apply State.triedImage_keeps | with_reducible apply State.takeImage_keeps
    | with_reducible apply ite_keeps | with_reducible apply foldl_keeps
    | with_reducible refine getD_keeps (fun _ _ => ?_) ?_ | intro _ | cases ‹(_, _) = (_, _)› | cases ‹some _ = some _›
    | cases ‹none = some _›
    | fail_if_no_progress with_reducible refine mk_keeps ?_ rfl rfl rfl (by and_intros <;> first | exact .inr (by with_reducible rfl) | exact .inl (sub_of hp rfl)) | dsimp only | dsimp only at e | split
theorem execImageStaging_keeps_eq {P : ℕ} {s0 s t : State} (hp : 311811 &&& P = 311811) {a0 : Bool} (e : execImageStaging a0 s = .next t) (h : Keeps P s0 s) : Keeps P s0 t := by
  unfold execImageStaging at e
  repeat' first
    | cases ‹Host.Outcome.next _ = Host.Outcome.next _› | cases ‹Host.Outcome.refused _ = Host.Outcome.next _›
    | cases ‹Host.Outcome.fault _ = Host.Outcome.next _› | split at e | with_reducible assumption | exact sub_of hp rfl
    | exact rfl | with_reducible apply State.goMode_keeps | with_reducible apply ite_keeps
    | with_reducible apply foldl_keeps | with_reducible refine getD_keeps (fun _ _ => ?_) ?_ | intro _
    | cases ‹(_, _) = (_, _)› | cases ‹some _ = some _› | cases ‹none = some _›
    | fail_if_no_progress with_reducible refine mk_keeps ?_ rfl rfl rfl (by and_intros <;> first | exact .inr (by with_reducible rfl) | exact .inl (sub_of hp rfl)) | dsimp only | dsimp only at e | split
theorem State.fenceAtTest_keeps {P : ℕ} {s0 s : State} (hp : 8384059 &&& P = 8384059) (h : Keeps P s0 s) (a1 : List Elem) : Keeps P s0 (State.fenceAtTest s a1) := by
  unfold State.fenceAtTest
  repeat' first
    | with_reducible assumption | exact sub_of hp rfl | exact rfl | with_reducible apply State.rescale_keeps
    | with_reducible apply State.fencedNow_keeps | with_reducible apply State.setDomains_keeps
    | with_reducible apply State.setLocal_keeps | with_reducible apply State.takeOut_keeps
    | with_reducible apply State.showLeader_keeps | with_reducible apply State.logFault_keeps
    | with_reducible apply ite_keeps | with_reducible apply foldl_keeps
    | with_reducible refine getD_keeps (fun _ _ => ?_) ?_ | intro _ | cases ‹(_, _) = (_, _)› | cases ‹some _ = some _›
    | cases ‹none = some _›
    | fail_if_no_progress with_reducible refine mk_keeps ?_ rfl rfl rfl (by and_intros <;> first | exact .inr (by with_reducible rfl) | exact .inl (sub_of hp rfl)) | dsimp only | split
theorem State.beginBringUp_keeps {P : ℕ} {s0 s : State} (hp : 311939 &&& P = 311939) (h : Keeps P s0 s) (a1 : Image) (a2 : ℕ) : Keeps P s0 (State.beginBringUp s a1 a2) := by
  unfold State.beginBringUp
  repeat' first
    | with_reducible assumption | exact sub_of hp rfl | exact rfl | with_reducible apply State.putMasked_keeps
    | with_reducible apply State.goMode_keeps | with_reducible apply ite_keeps | with_reducible apply foldl_keeps
    | with_reducible refine getD_keeps (fun _ _ => ?_) ?_ | intro _ | cases ‹(_, _) = (_, _)› | cases ‹some _ = some _›
    | cases ‹none = some _›
    | fail_if_no_progress with_reducible refine mk_keeps ?_ rfl rfl rfl (by and_intros <;> first | exact .inr (by with_reducible rfl) | exact .inl (sub_of hp rfl)) | dsimp only | split
theorem execSelfTestComplete_keeps_eq {P : ℕ} {s0 s t : State} (hp : 8384251 &&& P = 8384251) {a0 : List Elem} {a1 : Bool} {a2 : Bool} (e : execSelfTestComplete a0 a1 a2 s = .next t) (h : Keeps P s0 s) : Keeps P s0 t := by
  unfold execSelfTestComplete at e
  repeat' first
    | cases ‹Host.Outcome.next _ = Host.Outcome.next _› | cases ‹Host.Outcome.refused _ = Host.Outcome.next _›
    | cases ‹Host.Outcome.fault _ = Host.Outcome.next _› | split at e | with_reducible assumption | exact sub_of hp rfl
    | exact rfl | with_reducible apply State.goMode_keeps | with_reducible apply State.fenceAtTest_keeps
    | with_reducible apply State.applyFields_keeps | with_reducible apply State.beginBringUp_keeps
    | with_reducible apply ite_keeps | with_reducible apply foldl_keeps
    | with_reducible refine getD_keeps (fun _ _ => ?_) ?_ | intro _ | cases ‹(_, _) = (_, _)› | cases ‹some _ = some _›
    | cases ‹none = some _›
    | fail_if_no_progress with_reducible refine mk_keeps ?_ rfl rfl rfl (by and_intros <;> first | exact .inr (by with_reducible rfl) | exact .inl (sub_of hp rfl)) | dsimp only | dsimp only at e | split
theorem execRennetWrite_keeps_eq {P : ℕ} {s0 s t : State} (hp : 262146 &&& P = 262146) {a0 : Cell} {a1 : BitVec 32} {a2 : Word} {a3 : Word} (e : execRennetWrite a0 a1 a2 a3 s = .next t) (h : Keeps P s0 s) : Keeps P s0 t := by
  unfold execRennetWrite at e
  repeat' first
    | cases ‹Host.Outcome.next _ = Host.Outcome.next _› | cases ‹Host.Outcome.refused _ = Host.Outcome.next _›
    | cases ‹Host.Outcome.fault _ = Host.Outcome.next _› | split at e | with_reducible assumption | exact sub_of hp rfl
    | exact rfl | with_reducible apply State.putMasked_keeps | with_reducible apply ite_keeps
    | with_reducible apply foldl_keeps | with_reducible refine getD_keeps (fun _ _ => ?_) ?_ | intro _
    | cases ‹(_, _) = (_, _)› | cases ‹some _ = some _› | cases ‹none = some _›
    | fail_if_no_progress with_reducible refine mk_keeps ?_ rfl rfl rfl (by and_intros <;> first | exact .inr (by with_reducible rfl) | exact .inl (sub_of hp rfl)) | dsimp only | dsimp only at e | split
theorem execRennetCrcReport_keeps_eq {P : ℕ} {s0 s t : State} (hp : 410114 &&& P = 410114) {a0 : Cell} (e : execRennetCrcReport a0 s = .next t) (h : Keeps P s0 s) : Keeps P s0 t := by
  unfold execRennetCrcReport at e
  repeat' first
    | cases ‹Host.Outcome.next _ = Host.Outcome.next _› | cases ‹Host.Outcome.refused _ = Host.Outcome.next _›
    | cases ‹Host.Outcome.fault _ = Host.Outcome.next _› | split at e | with_reducible assumption | exact sub_of hp rfl
    | exact rfl | with_reducible apply State.failElem_keeps | with_reducible apply State.portTrain_keeps
    | with_reducible apply State.sat_keeps | with_reducible apply ite_keeps | with_reducible apply foldl_keeps
    | with_reducible refine getD_keeps (fun _ _ => ?_) ?_ | intro _ | cases ‹(_, _) = (_, _)› | cases ‹some _ = some _›
    | cases ‹none = some _›
    | fail_if_no_progress with_reducible refine mk_keeps ?_ rfl rfl rfl (by and_intros <;> first | exact .inr (by with_reducible rfl) | exact .inl (sub_of hp rfl)) | dsimp only | dsimp only at e | split
theorem State.homesAround_keeps {P : ℕ} {s0 s : State} (hp : 8194 &&& P = 8194) (h : Keeps P s0 s) : Keeps P s0 (State.homesAround s) := by
  unfold State.homesAround
  refine foldl_keeps (mk_keeps (State.takeover_keeps (sub_of hp rfl) (foldl_keeps h fun t x h => ?_)) rfl rfl rfl (by and_intros <;> first | exact .inr (by with_reducible rfl) | exact .inl (sub_of hp rfl))) fun _ _ h => State.wr_keeps (sub_of hp rfl) h _ _
  exact foldl_keeps h fun _ _ h => State.wr_keeps (sub_of hp rfl) h _ _
theorem execRennetDistributionComplete_keeps_eq {P : ℕ} {s0 s t : State} (hp : 3990019 &&& P = 3990019) (e : execRennetDistributionComplete s = .next t) (h : Keeps P s0 s) : Keeps P s0 t := by
  unfold execRennetDistributionComplete at e
  repeat' first
    | cases ‹Host.Outcome.next _ = Host.Outcome.next _› | cases ‹Host.Outcome.refused _ = Host.Outcome.next _›
    | cases ‹Host.Outcome.fault _ = Host.Outcome.next _› | split at e | with_reducible assumption | exact sub_of hp rfl
    | exact rfl | with_reducible apply State.applySections_keeps | with_reducible apply State.goMode_keeps
    | with_reducible apply State.setEnvelope_keeps | with_reducible apply State.wr_keeps
    | with_reducible apply State.homesAround_keeps | with_reducible apply ite_keeps | with_reducible apply foldl_keeps
    | with_reducible refine getD_keeps (fun _ _ => ?_) ?_ | intro _ | cases ‹(_, _) = (_, _)› | cases ‹some _ = some _›
    | cases ‹none = some _›
    | fail_if_no_progress with_reducible refine mk_keeps ?_ rfl rfl rfl (by and_intros <;> first | exact .inr (by with_reducible rfl) | exact .inl (sub_of hp rfl)) | dsimp only | dsimp only at e | split
theorem State.returnSteps_keeps {P : ℕ} {s0 s : State} (hp : 1458186 &&& P = 1458186) (h : Keeps P s0 s) (a1 : Burn) : Keeps P s0 (State.returnSteps s a1) := by
  unfold State.returnSteps
  repeat' first
    | with_reducible assumption | exact sub_of hp rfl | exact rfl | with_reducible apply State.logAudit_keeps
    | refine State.fresh_keeps_eq (sub_of hp rfl) (by assumption) ?_ | with_reducible apply State.fresh_keeps
    | with_reducible apply State.ideOff_keeps | with_reducible apply State.wr_keeps
    | with_reducible apply State.setLc_keeps | with_reducible apply ite_keeps | with_reducible apply foldl_keeps
    | with_reducible refine foldl_snd_keeps ?_ (fun _ _ _ _ => ?_) | with_reducible refine getD_keeps (fun _ _ => ?_) ?_
    | intro _ | cases ‹(_, _) = (_, _)› | cases ‹some _ = some _› | cases ‹none = some _›
    | fail_if_no_progress with_reducible refine mk_keeps ?_ rfl rfl rfl (by and_intros <;> first | exact .inr (by with_reducible rfl) | exact .inl (sub_of hp rfl)) | dsimp only | split
theorem execEnableNHigh_keeps_eq {P : ℕ} {s0 s t : State} (hp : 58720227 &&& P = 58720227) (e : execEnableNHigh s = .next t) (h : Keeps P s0 s) : Keeps P s0 t := by
  unfold execEnableNHigh at e
  cases e
  refine State.onRind_keeps (sub_of hp rfl) h _ fun u h => ?_
  have h1 := State.wr_keeps (sub_of hp rfl) h F.RIND_PWR_STATUS_ENABLE 0
  dsimp only
  split
  · rename_i e
    exact State.powerOff_keeps (sub_of hp rfl) (State.goMode_keeps (sub_of hp rfl) h1 _ _) (.move (e ▸ h1.mode) (by decide))
  · exact State.goMode_keeps (sub_of hp rfl) h1 _ _
theorem State.saveLogs_keeps {P : ℕ} {s0 s : State} (hp : 262146 &&& P = 262146) (h : Keeps P s0 s) : Keeps P s0 (State.saveLogs s) := by
  unfold State.saveLogs
  repeat' first
    | with_reducible assumption | exact sub_of hp rfl | exact rfl
    | refine State.norFlush_keeps_eq (sub_of hp rfl) (by assumption) ?_ | with_reducible apply State.norFlush_keeps
    | with_reducible apply State.sat_keeps | with_reducible apply ite_keeps | with_reducible apply foldl_keeps
    | with_reducible refine foldl_fst_keeps ?_ (fun _ _ _ _ => ?_) | with_reducible refine getD_keeps (fun _ _ => ?_) ?_
    | intro _ | cases ‹(_, _) = (_, _)› | cases ‹some _ = some _› | cases ‹none = some _›
    | fail_if_no_progress with_reducible refine mk_keeps ?_ rfl rfl rfl (by and_intros <;> first | exact .inr (by with_reducible rfl) | exact .inl (sub_of hp rfl)) | dsimp only | split
theorem State.abandonWork_keeps {P : ℕ} {s0 s : State} (hp : 1536 &&& P = 1536) (h : Keeps P s0 s) (a1 : Cell) : Keeps P s0 (State.abandonWork s a1) := by
  unfold State.abandonWork
  repeat' first
    | with_reducible assumption | exact sub_of hp rfl | exact rfl | with_reducible apply ite_keeps
    | with_reducible apply foldl_keeps | with_reducible refine getD_keeps (fun _ _ => ?_) ?_ | intro _
    | cases ‹(_, _) = (_, _)› | cases ‹some _ = some _› | cases ‹none = some _›
    | fail_if_no_progress with_reducible refine mk_keeps ?_ rfl rfl rfl (by and_intros <;> first | exact .inr (by with_reducible rfl) | exact .inl (sub_of hp rfl)) | dsimp only | split
theorem State.cellsOff_keeps {P : ℕ} {s0 s : State} (hp : 34306 &&& P = 34306) (h : Keeps P s0 s) : Keeps P s0 (State.cellsOff s) := by
  unfold State.cellsOff
  repeat' first
    | with_reducible assumption | exact sub_of hp rfl | exact rfl | with_reducible apply State.setDomain_keeps
    | with_reducible apply State.wr_keeps | with_reducible apply State.abandonWork_keeps | with_reducible apply ite_keeps
    | with_reducible apply foldl_keeps | with_reducible refine getD_keeps (fun _ _ => ?_) ?_ | intro _
    | cases ‹(_, _) = (_, _)› | cases ‹some _ = some _› | cases ‹none = some _›
    | fail_if_no_progress with_reducible refine mk_keeps ?_ rfl rfl rfl (by and_intros <;> first | exact .inr (by with_reducible rfl) | exact .inl (sub_of hp rfl)) | dsimp only | split
theorem State.stopGates_keeps {P : ℕ} {s0 s : State} (hp : 2 &&& P = 2) (h : Keeps P s0 s) : Keeps P s0 (State.stopGates s) := by
  unfold State.stopGates
  repeat' first
    | with_reducible assumption | exact sub_of hp rfl | exact rfl | with_reducible apply State.gatesOff_keeps
    | with_reducible apply ite_keeps | with_reducible apply foldl_keeps
    | with_reducible refine getD_keeps (fun _ _ => ?_) ?_ | intro _ | cases ‹(_, _) = (_, _)› | cases ‹some _ = some _›
    | cases ‹none = some _›
    | fail_if_no_progress with_reducible refine mk_keeps ?_ rfl rfl rfl (by and_intros <;> first | exact .inr (by with_reducible rfl) | exact .inl (sub_of hp rfl)) | dsimp only | split
theorem execSafeStopComplete_keeps_eq {P : ℕ} {s0 s t : State} (hp : 58720235 &&& P = 58720235) (e : execSafeStopComplete s = .next t) (h : Keeps P s0 s) : Keeps P s0 t := by
  unfold execSafeStopComplete at e
  cases e
  refine ite_keeps (fun _ => h) fun e => State.stopGates_keeps (sub_of hp rfl) ?_
  have hq := fun u (k : Keeps P s0 u) => State.powerOff_keeps (sub_of hp rfl) (State.goMode_keeps (sub_of hp rfl) k .dormant 0x14) (.move (Decidable.not_not.1 e ▸ h.mode) (by decide))
  refine hq _ (State.cellsOff_keeps (sub_of hp rfl) ?_)
  have h1 : Keeps P s0 (match s.img.returning with
      | some b => s.returnSteps b
      | none => s) := by
    split
    · exact State.returnSteps_keeps (sub_of hp rfl) h _
    · exact h
  have h2 := State.saveLogs_keeps (sub_of hp rfl) h1
  have h3 : ∀ u : State, Keeps P s0 u → Keeps P s0 { u with drained := true } := fun u h => mk_keeps h rfl rfl rfl (by and_intros <;> first | exact .inr (by with_reducible rfl) | exact .inl (sub_of hp rfl))
  have h4 := h3 _ h2
  exact ite_keeps (fun _ => State.wr_keeps (sub_of hp rfl) h4 _ _) fun _ => h4
theorem execIdlePolicyDrowse_keeps_eq {P : ℕ} {s0 s t : State} (hp : 49667 &&& P = 49667) (e : execIdlePolicyDrowse s = .next t) (h : Keeps P s0 s) : Keeps P s0 t := by
  unfold execIdlePolicyDrowse at e
  repeat' first
    | cases ‹Host.Outcome.next _ = Host.Outcome.next _› | cases ‹Host.Outcome.refused _ = Host.Outcome.next _›
    | cases ‹Host.Outcome.fault _ = Host.Outcome.next _› | split at e | with_reducible assumption | exact sub_of hp rfl
    | exact rfl | with_reducible apply State.goMode_keeps | with_reducible apply ite_keeps
    | with_reducible apply foldl_keeps | with_reducible refine getD_keeps (fun _ _ => ?_) ?_ | intro _
    | cases ‹(_, _) = (_, _)› | cases ‹some _ = some _› | cases ‹none = some _›
    | fail_if_no_progress with_reducible refine mk_keeps ?_ rfl rfl rfl (by and_intros <;> first | exact .inr (by with_reducible rfl) | exact .inl (sub_of hp rfl)) | dsimp only | dsimp only at e | split
theorem execDrowseWakeLimit_keeps_eq {P : ℕ} {s0 s t : State} (hp : 49667 &&& P = 49667) (e : execDrowseWakeLimit s = .next t) (h : Keeps P s0 s) : Keeps P s0 t := by
  unfold execDrowseWakeLimit at e
  repeat' first
    | cases ‹Host.Outcome.next _ = Host.Outcome.next _› | cases ‹Host.Outcome.refused _ = Host.Outcome.next _›
    | cases ‹Host.Outcome.fault _ = Host.Outcome.next _› | split at e | with_reducible assumption | exact sub_of hp rfl
    | exact rfl | with_reducible apply State.goMode_keeps | with_reducible apply ite_keeps
    | with_reducible apply foldl_keeps | with_reducible refine getD_keeps (fun _ _ => ?_) ?_ | intro _
    | cases ‹(_, _) = (_, _)› | cases ‹some _ = some _› | cases ‹none = some _›
    | fail_if_no_progress with_reducible refine mk_keeps ?_ rfl rfl rfl (by and_intros <;> first | exact .inr (by with_reducible rfl) | exact .inl (sub_of hp rfl)) | dsimp only | dsimp only at e | split

/-! ### Machine/Life -/

theorem State.freeBytes_keeps_eq {P : ℕ} {s0 s t : State} (hp : 8 &&& P = 8) {a1 : ℕ} {r} (e : State.freeBytes s a1 = (r, t)) (h : Keeps P s0 s) : Keeps P s0 t := by
  unfold State.freeBytes at e
  repeat' first
    | split at e | with_reducible assumption | exact sub_of hp rfl | exact rfl | with_reducible apply ite_keeps
    | with_reducible apply foldl_keeps | with_reducible refine getD_keeps (fun _ _ => ?_) ?_ | intro _
    | cases ‹(_, _) = (_, _)› | cases ‹some _ = some _› | cases ‹none = some _›
    | fail_if_no_progress with_reducible refine mk_keeps ?_ rfl rfl rfl (by and_intros <;> first | exact .inr (by with_reducible rfl) | exact .inl (sub_of hp rfl)) | dsimp only | dsimp only at e | split
theorem State.freeBytes_keeps {P : ℕ} {s0 s : State} (hp : 8 &&& P = 8) (h : Keeps P s0 s) (a1 : ℕ) : Keeps P s0 (State.freeBytes s a1).2 :=
  State.freeBytes_keeps_eq hp (Prod.mk.eta (p := State.freeBytes s a1)).symm h
theorem State.norGo_keeps {P : ℕ} {s0 s : State} (hp : 262146 &&& P = 262146) (h : Keeps P s0 s) : Keeps P s0 (State.norGo s) := by
  unfold State.norGo
  repeat' first
    | with_reducible assumption | exact sub_of hp rfl | exact rfl | with_reducible apply State.wr_keeps
    | with_reducible apply ite_keeps | with_reducible apply foldl_keeps
    | with_reducible refine getD_keeps (fun _ _ => ?_) ?_ | intro _ | cases ‹(_, _) = (_, _)› | cases ‹some _ = some _›
    | cases ‹none = some _›
    | fail_if_no_progress with_reducible refine mk_keeps ?_ rfl rfl rfl (by and_intros <;> first | exact .inr (by with_reducible rfl) | exact .inl (sub_of hp rfl)) | dsimp only | split
theorem State.catchUp_keeps {P : ℕ} {s0 s : State} (hp : 262144 &&& P = 262144) (h : Keeps P s0 s) (a1 : ℕ) : Keeps P s0 (State.catchUp s a1) := by
  unfold State.catchUp
  repeat' first
    | with_reducible assumption | exact sub_of hp rfl | exact rfl
    | refine State.norFlush_keeps_eq (sub_of hp rfl) (by assumption) ?_ | with_reducible apply State.norFlush_keeps
    | with_reducible apply ite_keeps | with_reducible apply foldl_keeps
    | with_reducible refine foldl_fst_keeps ?_ (fun _ _ _ _ => ?_) | with_reducible refine getD_keeps (fun _ _ => ?_) ?_
    | intro _ | cases ‹(_, _) = (_, _)› | cases ‹some _ = some _› | cases ‹none = some _›
    | fail_if_no_progress with_reducible refine mk_keeps ?_ rfl rfl rfl (by and_intros <;> first | exact .inr (by with_reducible rfl) | exact .inl (sub_of hp rfl)) | dsimp only | split
theorem State.norEffect_keeps {P : ℕ} {s0 s : State} (hp : 262154 &&& P = 262154) (h : Keeps P s0 s) (a1 : NorOp) (a2 : Bool) : Keeps P s0 (State.norEffect s a1 a2) := by
  unfold State.norEffect
  repeat' first
    | with_reducible assumption | exact sub_of hp rfl | exact rfl
    | refine State.freeBytes_keeps_eq (sub_of hp rfl) (by assumption) ?_ | with_reducible apply State.freeBytes_keeps
    | with_reducible apply State.norErase_keeps | with_reducible apply State.wr_keeps
    | with_reducible apply State.norPut_keeps | with_reducible apply ite_keeps | with_reducible apply foldl_keeps
    | with_reducible refine foldl_snd_keeps ?_ (fun _ _ _ _ => ?_) | with_reducible refine getD_keeps (fun _ _ => ?_) ?_
    | intro _ | cases ‹(_, _) = (_, _)› | cases ‹some _ = some _› | cases ‹none = some _›
    | fail_if_no_progress with_reducible refine mk_keeps ?_ rfl rfl rfl (by and_intros <;> first | exact .inr (by with_reducible rfl) | exact .inl (sub_of hp rfl)) | dsimp only | split
theorem execNorOpComplete_keeps_eq {P : ℕ} {s0 s t : State} (hp : 262154 &&& P = 262154) {a0 : Bool} (e : execNorOpComplete a0 s = .next t) (h : Keeps P s0 s) : Keeps P s0 t := by
  unfold execNorOpComplete at e
  repeat' first
    | cases ‹Host.Outcome.next _ = Host.Outcome.next _› | cases ‹Host.Outcome.refused _ = Host.Outcome.next _›
    | cases ‹Host.Outcome.fault _ = Host.Outcome.next _› | split at e | with_reducible assumption | exact sub_of hp rfl
    | exact rfl | with_reducible apply State.wr_keeps | with_reducible apply State.catchUp_keeps
    | with_reducible apply State.norEffect_keeps | with_reducible apply ite_keeps | with_reducible apply foldl_keeps
    | with_reducible refine getD_keeps (fun _ _ => ?_) ?_ | intro _ | cases ‹(_, _) = (_, _)› | cases ‹some _ = some _›
    | cases ‹none = some _›
    | fail_if_no_progress with_reducible refine mk_keeps ?_ rfl rfl rfl (by and_intros <;> first | exact .inr (by with_reducible rfl) | exact .inl (sub_of hp rfl)) | dsimp only | dsimp only at e | split
theorem execNorLogWrite_keeps_eq {P : ℕ} {s0 s t : State} (hp : 262144 &&& P = 262144) {a0 : Fin 2} (e : execNorLogWrite a0 s = .next t) (h : Keeps P s0 s) : Keeps P s0 t := by
  unfold execNorLogWrite at e
  repeat' first
    | cases ‹Host.Outcome.next _ = Host.Outcome.next _› | cases ‹Host.Outcome.refused _ = Host.Outcome.next _›
    | cases ‹Host.Outcome.fault _ = Host.Outcome.next _› | split at e | with_reducible assumption | exact sub_of hp rfl
    | exact rfl | with_reducible apply State.catchUp_keeps | with_reducible apply ite_keeps
    | with_reducible apply foldl_keeps | with_reducible refine getD_keeps (fun _ _ => ?_) ?_ | intro _
    | cases ‹(_, _) = (_, _)› | cases ‹some _ = some _› | cases ‹none = some _›
    | fail_if_no_progress with_reducible refine mk_keeps ?_ rfl rfl rfl (by and_intros <;> first | exact .inr (by with_reducible rfl) | exact .inl (sub_of hp rfl)) | dsimp only | dsimp only at e | split
theorem State.verifyGo_keeps {P : ℕ} {s0 s : State} (hp : 262146 &&& P = 262146) (h : Keeps P s0 s) : Keeps P s0 (State.verifyGo s) := by
  unfold State.verifyGo
  repeat' first
    | with_reducible assumption | exact sub_of hp rfl | exact rfl | with_reducible apply State.wr_keeps
    | with_reducible apply ite_keeps | with_reducible apply foldl_keeps
    | with_reducible refine getD_keeps (fun _ _ => ?_) ?_ | intro _ | cases ‹(_, _) = (_, _)› | cases ‹some _ = some _›
    | cases ‹none = some _›
    | fail_if_no_progress with_reducible refine mk_keeps ?_ rfl rfl rfl (by and_intros <;> first | exact .inr (by with_reducible rfl) | exact .inl (sub_of hp rfl)) | dsimp only | split
theorem execImageVerifyComplete_keeps_eq {P : ℕ} {s0 s t : State} (hp : 278530 &&& P = 278530) {a0 : Bool} (e : execImageVerifyComplete a0 s = .next t) (h : Keeps P s0 s) : Keeps P s0 t := by
  unfold execImageVerifyComplete at e
  repeat' first
    | cases ‹Host.Outcome.next _ = Host.Outcome.next _› | cases ‹Host.Outcome.refused _ = Host.Outcome.next _›
    | cases ‹Host.Outcome.fault _ = Host.Outcome.next _› | split at e | with_reducible assumption | exact sub_of hp rfl
    | exact rfl | with_reducible apply State.svnJudge_keeps | with_reducible apply State.wr_keeps
    | with_reducible apply ite_keeps | with_reducible apply foldl_keeps
    | with_reducible refine getD_keeps (fun _ _ => ?_) ?_ | intro _ | cases ‹(_, _) = (_, _)› | cases ‹some _ = some _›
    | cases ‹none = some _›
    | fail_if_no_progress with_reducible refine mk_keeps ?_ rfl rfl rfl (by and_intros <;> first | exact .inr (by with_reducible rfl) | exact .inl (sub_of hp rfl)) | dsimp only | dsimp only at e | split
theorem State.burned_keeps {P : ℕ} {s0 s : State} (hp : 16386 &&& P = 16386) (h : Keeps P s0 s) (a1 : ℕ) (a2 : Burn) : Keeps P s0 (State.burned s a1 a2) := by
  unfold State.burned
  repeat' first
    | with_reducible assumption | exact sub_of hp rfl | exact rfl | with_reducible apply State.logAudit_keeps
    | with_reducible apply ite_keeps | with_reducible apply foldl_keeps
    | with_reducible refine getD_keeps (fun _ _ => ?_) ?_ | intro _ | cases ‹(_, _) = (_, _)› | cases ‹some _ = some _›
    | cases ‹none = some _›
    | fail_if_no_progress with_reducible refine mk_keeps ?_ rfl rfl rfl (by and_intros <;> first | exact .inr (by with_reducible rfl) | exact .inl (sub_of hp rfl)) | dsimp only | split
theorem State.lcEnd_keeps {P : ℕ} {s0 s : State} (hp : 16394 &&& P = 16394) (h : Keeps P s0 s) (a1 : ℕ) (a2 : ℕ) (a3 : ℕ) : Keeps P s0 (State.lcEnd s a1 a2 a3) := by
  unfold State.lcEnd
  repeat' first
    | with_reducible assumption | exact sub_of hp rfl | exact rfl | with_reducible apply State.logAudit_keeps
    | with_reducible apply State.wr_keeps | with_reducible apply State.flag_keeps
    | with_reducible apply State.drawNonce_keeps | with_reducible apply ite_keeps | with_reducible apply foldl_keeps
    | with_reducible refine getD_keeps (fun _ _ => ?_) ?_ | intro _ | cases ‹(_, _) = (_, _)› | cases ‹some _ = some _›
    | cases ‹none = some _›
    | fail_if_no_progress with_reducible refine mk_keeps ?_ rfl rfl rfl (by and_intros <;> first | exact .inr (by with_reducible rfl) | exact .inl (sub_of hp rfl)) | dsimp only | split
theorem State.lcGo_keeps {P : ℕ} {s0 s : State} (hp : 1491467 &&& P = 1491467) (h : Keeps P s0 s) (a1 : ℕ) (a2 : Burn) (a3 : Burn) : Keeps P s0 (State.lcGo s a1 a2 a3) := by
  unfold State.lcGo
  repeat' first
    | with_reducible assumption | exact sub_of hp rfl | exact rfl
    | refine State.fresh_keeps_eq (sub_of hp rfl) (by assumption) ?_ | with_reducible apply State.fresh_keeps
    | with_reducible apply State.goMode_keeps | with_reducible apply State.burned_keeps
    | with_reducible apply State.wrBit_keeps | with_reducible apply State.wr_keeps
    | with_reducible apply State.setLc_keeps | with_reducible apply State.returnSteps_keeps
    | with_reducible apply State.showOwnerFuse_keeps | with_reducible apply State.drawNonce_keeps
    | with_reducible apply State.lcEnd_keeps | with_reducible apply ite_keeps | with_reducible apply foldl_keeps
    | with_reducible refine foldl_snd_keeps ?_ (fun _ _ _ _ => ?_) | with_reducible refine getD_keeps (fun _ _ => ?_) ?_
    | intro _ | cases ‹(_, _) = (_, _)› | cases ‹some _ = some _› | cases ‹none = some _›
    | fail_if_no_progress with_reducible refine mk_keeps ?_ rfl rfl rfl (by and_intros <;> first | exact .inr (by with_reducible rfl) | exact .inl (sub_of hp rfl)) | dsimp only | split

/-! ### Machine/View -/

theorem State.eye_keeps_eq {P : ℕ} {s0 s t : State} (hp : 8 &&& P = 8) {a1 : Lane} {a2 : Word} {r} (e : State.eye s a1 a2 = (r, t)) (h : Keeps P s0 s) : Keeps P s0 t := by
  unfold State.eye at e
  repeat' first
    | split at e | with_reducible assumption | exact sub_of hp rfl | exact rfl
    | refine State.fresh_keeps_eq (sub_of hp rfl) (by assumption) ?_ | with_reducible apply State.fresh_keeps
    | with_reducible apply ite_keeps | with_reducible apply foldl_keeps
    | with_reducible refine foldl_snd_keeps ?_ (fun _ _ _ _ => ?_) | with_reducible refine getD_keeps (fun _ _ => ?_) ?_
    | intro _ | cases ‹(_, _) = (_, _)› | cases ‹some _ = some _› | cases ‹none = some _›
    | fail_if_no_progress with_reducible refine mk_keeps ?_ rfl rfl rfl (by and_intros <;> first | exact .inr (by with_reducible rfl) | exact .inl (sub_of hp rfl)) | dsimp only | dsimp only at e | split
theorem State.eye_keeps {P : ℕ} {s0 s : State} (hp : 8 &&& P = 8) (h : Keeps P s0 s) (a1 : Lane) (a2 : Word) : Keeps P s0 (State.eye s a1 a2).2 :=
  State.eye_keeps_eq hp (Prod.mk.eta (p := State.eye s a1 a2)).symm h
theorem State.readReg_keeps_eq {P : ℕ} {s0 s t : State} (hp : 10 &&& P = 10) {a1 : ℕ} {r} (e : State.readReg s a1 = (r, t)) (h : Keeps P s0 s) : Keeps P s0 t := by
  unfold State.readReg at e
  repeat' first
    | split at e | with_reducible assumption | exact sub_of hp rfl | exact rfl | with_reducible apply State.wr_keeps
    | with_reducible apply State.captureSpillViews_keeps | refine State.eye_keeps_eq (sub_of hp rfl) (by assumption) ?_
    | with_reducible apply State.eye_keeps | with_reducible apply ite_keeps | with_reducible apply foldl_keeps
    | with_reducible refine foldl_snd_keeps ?_ (fun _ _ _ _ => ?_) | with_reducible refine getD_keeps (fun _ _ => ?_) ?_
    | intro _ | cases ‹(_, _) = (_, _)› | cases ‹some _ = some _› | cases ‹none = some _›
    | fail_if_no_progress with_reducible refine mk_keeps ?_ rfl rfl rfl (by and_intros <;> first | exact .inr (by with_reducible rfl) | exact .inl (sub_of hp rfl)) | dsimp only | dsimp only at e | split
theorem State.readReg_keeps {P : ℕ} {s0 s : State} (hp : 10 &&& P = 10) (h : Keeps P s0 s) (a1 : ℕ) : Keeps P s0 (State.readReg s a1).2 :=
  State.readReg_keeps_eq hp (Prod.mk.eta (p := State.readReg s a1)).symm h
theorem State.reaches_keeps_eq {P : ℕ} {s0 s t : State} (hp : 16386 &&& P = 16386) {a1 : Src} {a2 : ℕ} {a3 : ℕ} (e : State.reaches s a1 a2 a3 = some t) (h : Keeps P s0 s) : Keeps P s0 t := by
  unfold State.reaches at e
  repeat' first
    | split at e | with_reducible assumption | exact sub_of hp rfl | exact rfl
    | with_reducible apply State.logAccess_keeps | with_reducible apply ite_keeps | with_reducible apply foldl_keeps
    | with_reducible refine getD_keeps (fun _ _ => ?_) ?_ | intro _ | cases ‹(_, _) = (_, _)› | cases ‹some _ = some _›
    | cases ‹none = some _›
    | fail_if_no_progress with_reducible refine mk_keeps ?_ rfl rfl rfl (by and_intros <;> first | exact .inr (by with_reducible rfl) | exact .inl (sub_of hp rfl)) | dsimp only | dsimp only at e | split
theorem State.readBy_keeps_eq {P : ℕ} {s0 s t : State} (hp : 18442 &&& P = 18442) {a1 : Src} {a2 : ℕ} {r} (e : State.readBy s a1 a2 = (r, t)) (h : Keeps P s0 s) : Keeps P s0 t := by
  unfold State.readBy at e
  repeat' first
    | split at e | with_reducible assumption | exact sub_of hp rfl | exact rfl
    | with_reducible apply State.jtagRefused_keeps | refine State.readReg_keeps_eq (sub_of hp rfl) (by assumption) ?_
    | with_reducible apply State.readReg_keeps | refine State.mayRead_keeps_eq (sub_of hp rfl) (by assumption) ?_
    | with_reducible apply State.mayRead_keeps | refine State.reaches_keeps_eq (sub_of hp rfl) (by assumption) ?_
    | with_reducible apply State.rindAccess_keeps | with_reducible apply ite_keeps | with_reducible apply foldl_keeps
    | with_reducible refine foldl_snd_keeps ?_ (fun _ _ _ _ => ?_) | with_reducible refine getD_keeps (fun _ _ => ?_) ?_
    | intro _ | cases ‹(_, _) = (_, _)› | cases ‹some _ = some _› | cases ‹none = some _›
    | fail_if_no_progress with_reducible refine mk_keeps ?_ rfl rfl rfl (by and_intros <;> first | exact .inr (by with_reducible rfl) | exact .inl (sub_of hp rfl)) | dsimp only | dsimp only at e | split
theorem State.readBy_keeps {P : ℕ} {s0 s : State} (hp : 18442 &&& P = 18442) (h : Keeps P s0 s) (a1 : Src) (a2 : ℕ) : Keeps P s0 (State.readBy s a1 a2).2 :=
  State.readBy_keeps_eq hp (Prod.mk.eta (p := State.readBy s a1 a2)).symm h

/-! ### Machine/Commit -/

theorem State.commitGo_keeps {P : ℕ} {s0 s : State} (hp : 2097154 &&& P = 2097154) (h : Keeps P s0 s) : Keeps P s0 (State.commitGo s) := by
  unfold State.commitGo
  repeat' first
    | with_reducible assumption | exact sub_of hp rfl | exact rfl | with_reducible apply State.flag_keeps
    | with_reducible apply ite_keeps | with_reducible apply foldl_keeps
    | with_reducible refine getD_keeps (fun _ _ => ?_) ?_ | intro _ | cases ‹(_, _) = (_, _)› | cases ‹some _ = some _›
    | cases ‹none = some _›
    | fail_if_no_progress with_reducible refine mk_keeps ?_ rfl rfl rfl (by and_intros <;> first | exact .inr (by with_reducible rfl) | exact .inl (sub_of hp rfl)) | dsimp only | split
theorem State.commitDiscard_keeps {P : ℕ} {s0 s : State} (hp : 2113538 &&& P = 2113538) (h : Keeps P s0 s) : Keeps P s0 (State.commitDiscard s) := by
  unfold State.commitDiscard
  repeat' first
    | with_reducible assumption | exact sub_of hp rfl | exact rfl | with_reducible apply State.dropShadows_keeps
    | with_reducible apply ite_keeps | with_reducible apply foldl_keeps
    | with_reducible refine getD_keeps (fun _ _ => ?_) ?_ | intro _ | cases ‹(_, _) = (_, _)› | cases ‹some _ = some _›
    | cases ‹none = some _›
    | fail_if_no_progress with_reducible refine mk_keeps ?_ rfl rfl rfl (by and_intros <;> first | exact .inr (by with_reducible rfl) | exact .inl (sub_of hp rfl)) | dsimp only | split
theorem State.withShadows_keeps {P : ℕ} {s0 s : State} (hp : 2 &&& P = 2) (h : Keeps P s0 s) (a1 : NMap (ℕ × ℕ)) : Keeps P s0 (State.withShadows s a1) := by
  unfold State.withShadows
  repeat' first
    | with_reducible assumption | exact sub_of hp rfl | exact rfl | with_reducible apply State.setReg_keeps
    | with_reducible apply ite_keeps | with_reducible apply foldl_keeps
    | with_reducible refine getD_keeps (fun _ _ => ?_) ?_ | intro _ | cases ‹(_, _) = (_, _)› | cases ‹some _ = some _›
    | cases ‹none = some _›
    | fail_if_no_progress with_reducible refine mk_keeps ?_ rfl rfl rfl (by and_intros <;> first | exact .inr (by with_reducible rfl) | exact .inl (sub_of hp rfl)) | dsimp only | split
theorem refuse_keeps {P : ℕ} {s0 : State} (hp : 16386 &&& P = 16386) {x : Checked} (h : Keeps P s0 x.s) (r d : ℕ) (o : Option Cell) (b : ℕ → Bool) : Keeps P s0 (refuse x r d o b).s := by
  unfold refuse
  dsimp only
  split
  · exact h
  · dsimp only
    split
    · exact State.logCommit_keeps (sub_of hp rfl) h _ _ _ _ _ _ _
    · exact State.refuseGroup_keeps (sub_of hp rfl) h _ _ _
theorem State.judgeRegions_keeps {P : ℕ} {s0 : State} (hp : 16386 &&& P = 16386) (s : State) {x : Checked} (h : Keeps P s0 x.s) : Keeps P s0 (s.judgeRegions x).s := by
  unfold State.judgeRegions
  dsimp only
  split
  · split
    · exact h
    · exact refuse_keeps (sub_of hp rfl) (State.refuseRegions_keeps (sub_of hp rfl) h _ _ _ _) _ _ _ _
  · exact h
theorem judgeGates_keeps {P : ℕ} {s0 : State} (hp : 16386 &&& P = 16386) (u : State) {x : Checked} (h : Keeps P s0 x.s) : Keeps P s0 (judgeGates u x).s :=
  refuse_keeps (sub_of hp rfl) (x := ⟨_, _, _⟩) (foldl_keeps h fun _ _ h => State.flag_keeps (sub_of hp rfl) h _) _ _ _ _
theorem State.judgeSlots_keeps {P : ℕ} {s0 : State} (hp : 16386 &&& P = 16386) (s u : State) {x : Checked} (h : Keeps P s0 x.s) : Keeps P s0 (s.judgeSlots u x).s := by
  unfold State.judgeSlots
  generalize (x.sh.filterMap (fun (e : Nat × (Nat × Nat)) => s.slotPort e.1)).dedup = l
  induction l generalizing x with
  | nil => exact h
  | cons p l ih =>
    refine ih ?_
    dsimp only
    split
    · exact h
    · exact refuse_keeps (sub_of hp rfl) h _ _ _ _
theorem State.judgeEpoch_keeps {P : ℕ} {s0 s : State} (hp : 16386 &&& P = 16386) (h : Keeps P s0 s) (a1 : NMap (Nat × Nat)) : Keeps P s0 (s.judgeEpoch a1).s :=
  State.judgeSlots_keeps (sub_of hp rfl) _ _ (refuse_keeps (sub_of hp rfl) (refuse_keeps (sub_of hp rfl) (refuse_keeps (sub_of hp rfl) (judgeGates_keeps (sub_of hp rfl) _ (State.judgeRegions_keeps (sub_of hp rfl) _
    (refuse_keeps (sub_of hp rfl) (x := ⟨s, a1, 0⟩) h _ _ _ _))) _ _ _ _) _ _ _ _) _ _ _ _)
theorem Checked.goOn_keeps {P : ℕ} {s0 : State} (hp : 3162114 &&& P = 3162114) {x : Checked} (h : Keeps P s0 x.s) (e : Epoch) : Keeps P s0 (x.goOn e) := by
  unfold Checked.goOn
  dsimp only
  refine ite_keeps (fun _ => mk_keeps h rfl rfl rfl (by and_intros <;> first | exact .inr (by with_reducible rfl) | exact .inl (sub_of hp rfl))) fun _ => State.startBarrier_keeps (sub_of hp rfl) ?_ _
  exact mk_keeps h rfl rfl rfl (by and_intros <;> first | exact .inr (by with_reducible rfl) | exact .inl (sub_of hp rfl))
theorem execCommitCheckComplete_keeps_eq {P : ℕ} {s0 s t : State} (hp : 3162114 &&& P = 3162114) (e : execCommitCheckComplete s = .next t) (h : Keeps P s0 s) : Keeps P s0 t := by
  unfold execCommitCheckComplete at e
  cases e
  split
  · exact h
  · exact ite_keeps (fun _ => h) fun _ => Checked.goOn_keeps (sub_of hp rfl) (State.judgeEpoch_keeps (sub_of hp rfl) h _) _
theorem State.showWaiting_keeps {P : ℕ} {s0 s : State} (hp : 2 &&& P = 2) (h : Keeps P s0 s) : Keeps P s0 (State.showWaiting s) := by
  unfold State.showWaiting
  repeat' first
    | with_reducible assumption | exact sub_of hp rfl | exact rfl | with_reducible apply State.wr_keeps
    | with_reducible apply ite_keeps | with_reducible apply foldl_keeps
    | with_reducible refine getD_keeps (fun _ _ => ?_) ?_ | intro _ | cases ‹(_, _) = (_, _)› | cases ‹some _ = some _›
    | cases ‹none = some _›
    | fail_if_no_progress with_reducible refine mk_keeps ?_ rfl rfl rfl (by and_intros <;> first | exact .inr (by with_reducible rfl) | exact .inl (sub_of hp rfl)) | dsimp only | split
theorem State.noteGateChange_keeps {P : ℕ} {s0 s : State} (hp : 4096 &&& P = 4096) (h : Keeps P s0 s) (a1 : ℕ) : Keeps P s0 (State.noteGateChange s a1) := by
  unfold State.noteGateChange
  repeat' first
    | with_reducible assumption | exact sub_of hp rfl | exact rfl | with_reducible apply ite_keeps
    | with_reducible apply foldl_keeps | with_reducible refine getD_keeps (fun _ _ => ?_) ?_ | intro _
    | cases ‹(_, _) = (_, _)› | cases ‹some _ = some _› | cases ‹none = some _›
    | fail_if_no_progress with_reducible refine mk_keeps ?_ rfl rfl rfl (by and_intros <;> first | exact .inr (by with_reducible rfl) | exact .inl (sub_of hp rfl)) | dsimp only | split
theorem State.noteShares_keeps {P : ℕ} {s0 s : State} (hp : 2 &&& P = 2) (h : Keeps P s0 s) (a1 : ℕ) (a2 : ℕ) : Keeps P s0 (State.noteShares s a1 a2) := by
  unfold State.noteShares
  repeat' first
    | with_reducible assumption | exact sub_of hp rfl | exact rfl | with_reducible apply State.showShare_keeps
    | with_reducible apply State.resize_keeps | with_reducible apply State.creditUpdate_keeps
    | with_reducible apply State.portCredit_keeps | with_reducible apply ite_keeps | with_reducible apply foldl_keeps
    | with_reducible refine getD_keeps (fun _ _ => ?_) ?_ | intro _ | cases ‹(_, _) = (_, _)› | cases ‹some _ = some _›
    | cases ‹none = some _›
    | fail_if_no_progress with_reducible refine mk_keeps ?_ rfl rfl rfl (by and_intros <;> first | exact .inr (by with_reducible rfl) | exact .inl (sub_of hp rfl)) | dsimp only | split
theorem State.applyBits_keeps {P : ℕ} {s0 s : State} (hp : 4610 &&& P = 4610) (h : Keeps P s0 s) (a1 : ℕ) (a2 : ℕ) (a3 : ℕ) : Keeps P s0 (State.applyBits s a1 a2 a3) := by
  unfold State.applyBits
  repeat' first
    | with_reducible assumption | exact sub_of hp rfl | exact rfl | with_reducible apply State.noteShares_keeps
    | with_reducible apply State.setReg_keeps | with_reducible apply State.noteGateChange_keeps
    | with_reducible apply State.keepWeights_keeps | with_reducible apply ite_keeps | with_reducible apply foldl_keeps
    | with_reducible refine getD_keeps (fun _ _ => ?_) ?_ | intro _ | cases ‹(_, _) = (_, _)› | cases ‹some _ = some _›
    | cases ‹none = some _›
    | fail_if_no_progress with_reducible refine mk_keeps ?_ rfl rfl rfl (by and_intros <;> first | exact .inr (by with_reducible rfl) | exact .inl (sub_of hp rfl)) | dsimp only | split
theorem State.applyReg_keeps {P : ℕ} {s0 s : State} (hp : 2101762 &&& P = 2101762) (h : Keeps P s0 s) (a1 : ℕ) (a2 : ℕ × ℕ) (a3 : ℕ) : Keeps P s0 (State.applyReg s a1 a2 a3) := by
  unfold State.applyReg
  repeat' first
    | with_reducible assumption | exact sub_of hp rfl | exact rfl | with_reducible apply State.applyBits_keeps
    | with_reducible apply ite_keeps | with_reducible apply foldl_keeps
    | with_reducible refine getD_keeps (fun _ _ => ?_) ?_ | intro _ | cases ‹(_, _) = (_, _)› | cases ‹some _ = some _›
    | cases ‹none = some _›
    | fail_if_no_progress with_reducible refine mk_keeps ?_ rfl rfl rfl (by and_intros <;> first | exact .inr (by with_reducible rfl) | exact .inl (sub_of hp rfl)) | dsimp only | split
theorem State.applyPending_keeps {P : ℕ} {s0 s : State} (hp : 2101762 &&& P = 2101762) (h : Keeps P s0 s) (a1 : ℕ) (a2 : ℕ) : Keeps P s0 (State.applyPending s a1 a2) := by
  unfold State.applyPending
  repeat' first
    | with_reducible assumption | exact sub_of hp rfl | exact rfl | with_reducible apply State.applyBits_keeps
    | with_reducible apply ite_keeps | with_reducible apply foldl_keeps
    | with_reducible refine getD_keeps (fun _ _ => ?_) ?_ | intro _ | cases ‹(_, _) = (_, _)› | cases ‹some _ = some _›
    | cases ‹none = some _›
    | fail_if_no_progress with_reducible refine mk_keeps ?_ rfl rfl rfl (by and_intros <;> first | exact .inr (by with_reducible rfl) | exact .inl (sub_of hp rfl)) | dsimp only | split
theorem execCommitApply_keeps_eq {P : ℕ} {s0 s t : State} (hp : 2134530 &&& P = 2134530) {a0 : Fin 1024} (e : execCommitApply a0 s = .next t) (h : Keeps P s0 s) : Keeps P s0 t := by
  unfold execCommitApply at e
  repeat' first
    | cases ‹Host.Outcome.next _ = Host.Outcome.next _› | cases ‹Host.Outcome.refused _ = Host.Outcome.next _›
    | cases ‹Host.Outcome.fault _ = Host.Outcome.next _› | split at e | with_reducible assumption | exact sub_of hp rfl
    | exact rfl | with_reducible apply State.wakeCell_keeps | with_reducible apply State.applyReg_keeps
    | with_reducible apply State.applyPending_keeps | with_reducible apply State.showWaiting_keeps
    | with_reducible apply ite_keeps | with_reducible apply foldl_keeps
    | with_reducible refine getD_keeps (fun _ _ => ?_) ?_ | intro _ | cases ‹(_, _) = (_, _)› | cases ‹some _ = some _›
    | cases ‹none = some _›
    | fail_if_no_progress with_reducible refine mk_keeps ?_ rfl rfl rfl (by and_intros <;> first | exact .inr (by with_reducible rfl) | exact .inl (sub_of hp rfl)) | dsimp only | dsimp only at e | split
theorem execCommitPendingApply_keeps_eq {P : ℕ} {s0 s t : State} (hp : 2101762 &&& P = 2101762) {a0 : BitVec 32} {a1 : Word} (e : execCommitPendingApply a0 a1 s = .next t) (h : Keeps P s0 s) : Keeps P s0 t := by
  unfold execCommitPendingApply at e
  repeat' first
    | cases ‹Host.Outcome.next _ = Host.Outcome.next _› | cases ‹Host.Outcome.refused _ = Host.Outcome.next _›
    | cases ‹Host.Outcome.fault _ = Host.Outcome.next _› | split at e | with_reducible assumption | exact sub_of hp rfl
    | exact rfl | with_reducible apply State.applyPending_keeps | with_reducible apply State.showWaiting_keeps
    | with_reducible apply ite_keeps | with_reducible apply foldl_keeps
    | with_reducible refine getD_keeps (fun _ _ => ?_) ?_ | intro _ | cases ‹(_, _) = (_, _)› | cases ‹some _ = some _›
    | cases ‹none = some _›
    | fail_if_no_progress with_reducible refine mk_keeps ?_ rfl rfl rfl (by and_intros <;> first | exact .inr (by with_reducible rfl) | exact .inl (sub_of hp rfl)) | dsimp only | dsimp only at e | split
theorem execCommitEpochEnd_keeps_eq {P : ℕ} {s0 s t : State} (hp : 3818002 &&& P = 3818002) (e : execCommitEpochEnd s = .next t) (h : Keeps P s0 s) : Keeps P s0 t := by
  unfold execCommitEpochEnd at e
  repeat' first
    | cases ‹Host.Outcome.next _ = Host.Outcome.next _› | cases ‹Host.Outcome.refused _ = Host.Outcome.next _›
    | cases ‹Host.Outcome.fault _ = Host.Outcome.next _› | split at e | with_reducible assumption | exact sub_of hp rfl
    | exact rfl | with_reducible apply State.logCommit_keeps | with_reducible apply State.wr_keeps
    | with_reducible apply State.nextCommit_keeps | with_reducible apply State.inc_keeps | with_reducible apply ite_keeps
    | with_reducible apply foldl_keeps | with_reducible refine getD_keeps (fun _ _ => ?_) ?_ | intro _
    | cases ‹(_, _) = (_, _)› | cases ‹some _ = some _› | cases ‹none = some _›
    | fail_if_no_progress with_reducible refine mk_keeps ?_ rfl rfl rfl (by and_intros <;> first | exact .inr (by with_reducible rfl) | exact .inl (sub_of hp rfl)) | dsimp only | dsimp only at e | split

/-! ### Machine/Write -/

theorem State.modeReq_keeps {P : ℕ} {s0 s : State} (hp : 639491 &&& P = 639491) (h : Keeps P s0 s) : Keeps P s0 (State.modeReq s) := by
  unfold State.modeReq
  repeat' first
    | with_reducible assumption | exact sub_of hp rfl | exact rfl | with_reducible apply State.goMode_keeps
    | with_reducible apply State.wr_keeps | with_reducible apply State.flag_keeps
    | with_reducible apply State.leaveMaint_keeps | with_reducible apply ite_keeps | with_reducible apply foldl_keeps
    | with_reducible refine getD_keeps (fun _ _ => ?_) ?_ | intro _ | cases ‹(_, _) = (_, _)› | cases ‹some _ = some _›
    | cases ‹none = some _›
    | fail_if_no_progress with_reducible refine mk_keeps ?_ rfl rfl rfl (by and_intros <;> first | exact .inr (by with_reducible rfl) | exact .inl (sub_of hp rfl)) | dsimp only | split
theorem State.ctrSnap_keeps {P : ℕ} {s0 s : State} (hp : 2 &&& P = 2) (h : Keeps P s0 s) (a1 : ℕ) : Keeps P s0 (State.ctrSnap s a1) := by
  unfold State.ctrSnap
  repeat' first
    | with_reducible assumption | exact sub_of hp rfl | exact rfl | with_reducible apply State.wr_keeps
    | with_reducible apply ite_keeps | with_reducible apply foldl_keeps
    | with_reducible refine getD_keeps (fun _ _ => ?_) ?_ | intro _ | cases ‹(_, _) = (_, _)› | cases ‹some _ = some _›
    | cases ‹none = some _›
    | fail_if_no_progress with_reducible refine mk_keeps ?_ rfl rfl rfl (by and_intros <;> first | exact .inr (by with_reducible rfl) | exact .inl (sub_of hp rfl)) | dsimp only | split
theorem State.instSnap_keeps {P : ℕ} {s0 s : State} (hp : 2 &&& P = 2) (h : Keeps P s0 s) (a1 : ℕ) : Keeps P s0 (State.instSnap s a1) := by
  unfold State.instSnap
  repeat' first
    | with_reducible assumption | exact sub_of hp rfl | exact rfl | with_reducible apply State.wr_keeps
    | with_reducible apply ite_keeps | with_reducible apply foldl_keeps
    | with_reducible refine getD_keeps (fun _ _ => ?_) ?_ | intro _ | cases ‹(_, _) = (_, _)› | cases ‹some _ = some _›
    | cases ‹none = some _›
    | fail_if_no_progress with_reducible refine mk_keeps ?_ rfl rfl rfl (by and_intros <;> first | exact .inr (by with_reducible rfl) | exact .inl (sub_of hp rfl)) | dsimp only | split
theorem afterCmd_keeps {P : ℕ} {s0 s : State} (hp : 0 &&& P = 0) (h : Keeps P s0 s) (a1 : Host.Outcome State Fault Refusal) (hk : ∀ t, a1 = .next t → Keeps P s0 t) : Keeps P s0 (afterCmd s a1) := by
  unfold afterCmd
  split
  · exact hk _ rfl
  · exact h
theorem State.bindGo_keeps {P : ℕ} {s0 s : State} (hp : 8045075 &&& P = 8045075) (h : Keeps P s0 s) (a1 : ℕ) : Keeps P s0 (State.bindGo s a1) := by
  unfold State.bindGo
  repeat' first
    | with_reducible assumption | exact sub_of hp rfl | exact rfl | with_reducible apply State.bindOp_keeps
    | with_reducible apply State.flag_keeps | with_reducible apply State.unbindOp_keeps | with_reducible apply ite_keeps
    | with_reducible apply foldl_keeps | with_reducible refine getD_keeps (fun _ _ => ?_) ?_ | intro _
    | cases ‹(_, _) = (_, _)› | cases ‹some _ = some _› | cases ‹none = some _›
    | fail_if_no_progress with_reducible refine mk_keeps ?_ rfl rfl rfl (by and_intros <;> first | exact .inr (by with_reducible rfl) | exact .inl (sub_of hp rfl)) | dsimp only | split
theorem State.migGo_keeps {P : ℕ} {s0 s : State} (hp : 8045075 &&& P = 8045075) (h : Keeps P s0 s) (a1 : ℕ) (a2 : Bool) : Keeps P s0 (State.migGo s a1 a2) := by
  unfold State.migGo
  repeat' first
    | with_reducible assumption | exact sub_of hp rfl | exact rfl | with_reducible apply State.migRefuse_keeps
    | with_reducible apply State.prepareOp_keeps | with_reducible apply State.abortOp_keeps
    | with_reducible apply State.saveOp_keeps | with_reducible apply State.restoreOp_keeps
    | with_reducible apply State.migrateOp_keeps | with_reducible apply ite_keeps | with_reducible apply foldl_keeps
    | with_reducible refine getD_keeps (fun _ _ => ?_) ?_ | intro _ | cases ‹(_, _) = (_, _)› | cases ‹some _ = some _›
    | cases ‹none = some _›
    | fail_if_no_progress with_reducible refine mk_keeps ?_ rfl rfl rfl (by and_intros <;> first | exact .inr (by with_reducible rfl) | exact .inl (sub_of hp rfl)) | dsimp only | split
theorem State.pulsePkg_keeps {P : ℕ} {s0 s : State} (hp : 4178443 &&& P = 4178443) (h : Keeps P s0 s) (a1 : Src) (a2 : ℕ) (a3 : ℕ) (a4 : PulseIn) : Keeps P s0 (State.pulsePkg s a1 a2 a3 a4) := by
  unfold State.pulsePkg
  repeat' first
    | with_reducible assumption | exact sub_of hp rfl | exact rfl | with_reducible apply State.rotateOp_keeps
    | with_reducible apply State.verifyGo_keeps | with_reducible apply State.fenceReturnOp_keeps
    | with_reducible apply State.norGo_keeps | with_reducible apply State.commitGo_keeps
    | with_reducible apply State.wr_keeps | with_reducible apply State.clrPeak_keeps
    | with_reducible apply State.commitDiscard_keeps | with_reducible apply State.modeReq_keeps
    | with_reducible apply State.lcGo_keeps | with_reducible apply ite_keeps | with_reducible apply foldl_keeps
    | with_reducible refine getD_keeps (fun _ _ => ?_) ?_ | intro _ | cases ‹(_, _) = (_, _)› | cases ‹some _ = some _›
    | cases ‹none = some _›
    | fail_if_no_progress with_reducible refine mk_keeps ?_ rfl rfl rfl (by and_intros <;> first | exact .inr (by with_reducible rfl) | exact .inl (sub_of hp rfl)) | dsimp only | split
theorem State.pulseDie_keeps {P : ℕ} {s0 s : State} (hp : 5816851 &&& P = 5816851) (h : Keeps P s0 s) (a1 : ℕ) (a2 : ℕ) : Keeps P s0 (State.pulseDie s a1 a2) := by
  unfold State.pulseDie
  repeat' first
    | with_reducible assumption | exact sub_of hp rfl | exact rfl
    | refine execScrimSnap_keeps_eq (sub_of hp rfl) (by assumption) ?_ | with_reducible apply State.moveOp_keeps
    | with_reducible apply State.abortMove_keeps | with_reducible apply State.wr_keeps
    | with_reducible apply afterCmd_keeps | with_reducible apply ite_keeps | with_reducible apply foldl_keeps
    | with_reducible refine getD_keeps (fun _ _ => ?_) ?_ | intro _ | cases ‹(_, _) = (_, _)› | cases ‹some _ = some _›
    | cases ‹none = some _›
    | fail_if_no_progress with_reducible refine mk_keeps ?_ rfl rfl rfl (by and_intros <;> first | exact .inr (by with_reducible rfl) | exact .inl (sub_of hp rfl)) | dsimp only | split
theorem State.pulseCell_keeps {P : ℕ} {s0 s : State} (hp : 8123931 &&& P = 8123931) (h : Keeps P s0 s) (a1 : Cell) (a2 : ℕ) (a3 : ℕ) (a4 : PulseIn) : Keeps P s0 (State.pulseCell s a1 a2 a3 a4) := by
  unfold State.pulseCell
  extract_lets o
  refine ite_keeps (fun _ => ite_keeps (fun _ => State.testEnter_keeps (sub_of hp rfl) h _) fun _ => ite_keeps (fun _ => State.testExit_keeps (sub_of hp rfl) h _) fun _ =>
    State.widthRestore_keeps (sub_of hp rfl) h _) fun _ => ?_
  refine ite_keeps (fun _ => State.inject_keeps (sub_of hp rfl) h _) fun _ => ?_
  refine ite_keeps (fun _ => afterCmd_keeps (sub_of hp rfl) h _ fun _ e => execXbarClrHwm_keeps_eq (sub_of hp rfl) e h) fun _ => ?_
  refine ite_keeps (fun _ => State.copyObs_keeps (sub_of hp rfl) h _ _) fun _ => ?_
  refine ite_keeps (fun _ => State.wr_keeps (sub_of hp rfl) h _ _) fun _ => ?_
  refine ite_keeps (fun _ => afterCmd_keeps (sub_of hp rfl) h _ fun _ e => execHomeTtClrHwm_keeps_eq (sub_of hp rfl) e h) fun _ => ?_
  refine ite_keeps (fun _ => afterCmd_keeps (sub_of hp rfl) h _ fun _ e => execDirLookup_keeps_eq (sub_of hp rfl) e h) fun _ => ?_
  refine ite_keeps (fun _ => afterCmd_keeps (sub_of hp rfl) h _ fun _ e => execHomeProxyClrHwm_keeps_eq (sub_of hp rfl) e h) fun _ => ?_
  exact ite_keeps (fun _ => State.ctrSnap_keeps (sub_of hp rfl) h _) fun _ => ite_keeps (fun _ => State.retrain_keeps (sub_of hp rfl) h _) fun _ => h
theorem State.pulseInst_keeps {P : ℕ} {s0 s : State} (hp : 8045075 &&& P = 8045075) (h : Keeps P s0 s) (a1 : ℕ) (a2 : PulseIn) : Keeps P s0 (State.pulseInst s a1 a2) := by
  unfold State.pulseInst
  repeat' first
    | with_reducible assumption | exact sub_of hp rfl | exact rfl | with_reducible apply State.migGo_keeps
    | with_reducible apply State.copyOp_keeps | with_reducible apply State.instSnap_keeps
    | with_reducible apply State.bindGo_keeps | with_reducible apply ite_keeps | with_reducible apply foldl_keeps
    | with_reducible refine getD_keeps (fun _ _ => ?_) ?_ | intro _ | cases ‹(_, _) = (_, _)› | cases ‹some _ = some _›
    | cases ‹none = some _›
    | fail_if_no_progress with_reducible refine mk_keeps ?_ rfl rfl rfl (by and_intros <;> first | exact .inr (by with_reducible rfl) | exact .inl (sub_of hp rfl)) | dsimp only | split
theorem State.pulse_keeps {P : ℕ} {s0 s : State} (hp : 8386075 &&& P = 8386075) (h : Keeps P s0 s) (a1 : Src) (a2 : ℕ) (a3 : ℕ) (a4 : PulseIn) : Keeps P s0 (State.pulse s a1 a2 a3 a4) := by
  unfold State.pulse
  repeat' first
    | with_reducible assumption | exact sub_of hp rfl | exact rfl | with_reducible apply State.pulseDie_keeps
    | with_reducible apply State.pulseCell_keeps | with_reducible apply State.pulsePkg_keeps
    | with_reducible apply State.pulseInst_keeps | with_reducible apply ite_keeps | with_reducible apply foldl_keeps
    | with_reducible refine getD_keeps (fun _ _ => ?_) ?_ | intro _ | cases ‹(_, _) = (_, _)› | cases ‹some _ = some _›
    | cases ‹none = some _›
    | fail_if_no_progress with_reducible refine mk_keeps ?_ rfl rfl rfl (by and_intros <;> first | exact .inr (by with_reducible rfl) | exact .inl (sub_of hp rfl)) | dsimp only | split
theorem State.setTestRate_keeps {P : ℕ} {s0 s : State} (hp : 65538 &&& P = 65538) (h : Keeps P s0 s) (a1 : Cell) (a2 : ℕ) : Keeps P s0 (State.setTestRate s a1 a2) := by
  unfold State.setTestRate
  repeat' first
    | with_reducible assumption | exact sub_of hp rfl | exact rfl | with_reducible apply State.wr_keeps
    | with_reducible apply ite_keeps | with_reducible apply foldl_keeps
    | with_reducible refine getD_keeps (fun _ _ => ?_) ?_ | intro _ | cases ‹(_, _) = (_, _)› | cases ‹some _ = some _›
    | cases ‹none = some _›
    | fail_if_no_progress with_reducible refine mk_keeps ?_ rfl rfl rfl (by and_intros <;> first | exact .inr (by with_reducible rfl) | exact .inl (sub_of hp rfl)) | dsimp only | split
theorem State.setMgrWidth_keeps {P : ℕ} {s0 s : State} (hp : 2 &&& P = 2) (h : Keeps P s0 s) (a1 : ℕ) : Keeps P s0 (State.setMgrWidth s a1) := by
  unfold State.setMgrWidth
  repeat' first
    | with_reducible assumption | exact sub_of hp rfl | exact rfl | with_reducible apply State.wr_keeps
    | with_reducible apply ite_keeps | with_reducible apply foldl_keeps
    | with_reducible refine getD_keeps (fun _ _ => ?_) ?_ | intro _ | cases ‹(_, _) = (_, _)› | cases ‹some _ = some _›
    | cases ‹none = some _›
    | fail_if_no_progress with_reducible refine mk_keeps ?_ rfl rfl rfl (by and_intros <;> first | exact .inr (by with_reducible rfl) | exact .inl (sub_of hp rfl)) | dsimp only | split
theorem State.storeLive_keeps {P : ℕ} {s0 s : State} (hp : 65538 &&& P = 65538) (h : Keeps P s0 s) (a1 : Src) (a2 : ℕ) (a3 : ℕ) (a4 : ℕ) (a5 : ℕ) : Keeps P s0 (State.storeLive s a1 a2 a3 a4 a5) := by
  unfold State.storeLive
  repeat' first
    | with_reducible assumption | exact sub_of hp rfl | exact rfl | with_reducible apply State.setMgrWidth_keeps
    | with_reducible apply State.setTestRate_keeps | with_reducible apply State.setChkEn_keeps
    | with_reducible apply State.wr_keeps | with_reducible apply State.rtcWrite_keeps | with_reducible apply ite_keeps
    | with_reducible apply foldl_keeps | with_reducible refine getD_keeps (fun _ _ => ?_) ?_ | intro _
    | cases ‹(_, _) = (_, _)› | cases ‹some _ = some _› | cases ‹none = some _›
    | fail_if_no_progress with_reducible refine mk_keeps ?_ rfl rfl rfl (by and_intros <;> first | exact .inr (by with_reducible rfl) | exact .inl (sub_of hp rfl)) | dsimp only | split
theorem State.storeShadow_keeps {P : ℕ} {s0 s : State} (hp : 2097152 &&& P = 2097152) (h : Keeps P s0 s) (a1 : ℕ) (a2 : ℕ) (a3 : ℕ) (a4 : ℕ) : Keeps P s0 (State.storeShadow s a1 a2 a3 a4) := by
  unfold State.storeShadow
  repeat' first
    | with_reducible assumption | exact sub_of hp rfl | exact rfl | with_reducible apply ite_keeps
    | with_reducible apply foldl_keeps | with_reducible refine getD_keeps (fun _ _ => ?_) ?_ | intro _
    | cases ‹(_, _) = (_, _)› | cases ‹some _ = some _› | cases ‹none = some _›
    | fail_if_no_progress with_reducible refine mk_keeps ?_ rfl rfl rfl (by and_intros <;> first | exact .inr (by with_reducible rfl) | exact .inl (sub_of hp rfl)) | dsimp only | split
theorem State.act_keeps {P : ℕ} {s0 s : State} (hp : 8386075 &&& P = 8386075) (h : Keeps P s0 s) (a1 : Src) (a2 : ℕ) (a3 : List Attempt) (a4 : PulseIn) : Keeps P s0 (State.act s a1 a2 a3 a4) := by
  unfold State.act
  repeat' first
    | with_reducible assumption | exact sub_of hp rfl | exact rfl | with_reducible apply State.pulse_keeps
    | with_reducible apply State.setReg_keeps | with_reducible apply State.storeShadow_keeps
    | with_reducible apply State.storeLive_keeps | with_reducible apply ite_keeps | with_reducible apply foldl_keeps
    | with_reducible refine getD_keeps (fun _ _ => ?_) ?_ | intro _ | cases ‹(_, _) = (_, _)› | cases ‹some _ = some _›
    | cases ‹none = some _›
    | fail_if_no_progress with_reducible refine mk_keeps ?_ rfl rfl rfl (by and_intros <;> first | exact .inr (by with_reducible rfl) | exact .inl (sub_of hp rfl)) | dsimp only | split
theorem State.permit_keeps_eq {P : ℕ} {s0 s t : State} (hp : 16386 &&& P = 16386) {a1 : Src} {a2 : ℕ} {a3 : List Attempt} {a4 : Word} {r} (e : State.permit s a1 a2 a3 a4 = (r, t)) (h : Keeps P s0 s) : Keeps P s0 t := by
  unfold State.permit at e
  repeat' first
    | split at e | with_reducible assumption | exact sub_of hp rfl | exact rfl
    | with_reducible apply State.logAccess_keeps | with_reducible apply ite_keeps | with_reducible apply foldl_keeps
    | with_reducible refine getD_keeps (fun _ _ => ?_) ?_ | intro _ | cases ‹(_, _) = (_, _)› | cases ‹some _ = some _›
    | cases ‹none = some _›
    | fail_if_no_progress with_reducible refine mk_keeps ?_ rfl rfl rfl (by and_intros <;> first | exact .inr (by with_reducible rfl) | exact .inl (sub_of hp rfl)) | dsimp only | dsimp only at e | split
theorem State.permit_keeps {P : ℕ} {s0 s : State} (hp : 16386 &&& P = 16386) (h : Keeps P s0 s) (a1 : Src) (a2 : ℕ) (a3 : List Attempt) (a4 : Word) : Keeps P s0 (State.permit s a1 a2 a3 a4).2 :=
  State.permit_keeps_eq hp (Prod.mk.eta (p := State.permit s a1 a2 a3 a4)).symm h
theorem State.lcUnleased_keeps {P : ℕ} {s0 s : State} (hp : 16394 &&& P = 16394) (h : Keeps P s0 s) (a1 : Src) (a2 : ℕ) (a3 : Word) : Keeps P s0 (State.lcUnleased s a1 a2 a3) := by
  unfold State.lcUnleased
  repeat' first
    | with_reducible assumption | exact sub_of hp rfl | exact rfl | with_reducible apply State.lcEnd_keeps
    | with_reducible apply ite_keeps | with_reducible apply foldl_keeps
    | with_reducible refine getD_keeps (fun _ _ => ?_) ?_ | intro _ | cases ‹(_, _) = (_, _)› | cases ‹some _ = some _›
    | cases ‹none = some _›
    | fail_if_no_progress with_reducible refine mk_keeps ?_ rfl rfl rfl (by and_intros <;> first | exact .inr (by with_reducible rfl) | exact .inl (sub_of hp rfl)) | dsimp only | split
theorem State.writeReg_keeps {P : ℕ} {s0 s : State} (hp : 8388123 &&& P = 8388123) (h : Keeps P s0 s) (a1 : Src) (a2 : ℕ) (a3 : Word) (a4 : PulseIn) : Keeps P s0 (State.writeReg s a1 a2 a3 a4) := by
  unfold State.writeReg
  repeat' first
    | with_reducible assumption | exact sub_of hp rfl | exact rfl | with_reducible apply State.logFetchOp_keeps
    | with_reducible apply State.jtagRefused_keeps | refine State.permit_keeps_eq (sub_of hp rfl) (by assumption) ?_
    | with_reducible apply State.permit_keeps | with_reducible apply State.lcUnleased_keeps
    | refine State.reaches_keeps_eq (sub_of hp rfl) (by assumption) ?_ | with_reducible apply State.rindAccess_keeps
    | with_reducible apply State.act_keeps | with_reducible apply ite_keeps | with_reducible apply foldl_keeps
    | with_reducible refine foldl_snd_keeps ?_ (fun _ _ _ _ => ?_) | with_reducible refine getD_keeps (fun _ _ => ?_) ?_
    | intro _ | cases ‹(_, _) = (_, _)› | cases ‹some _ = some _› | cases ‹none = some _›
    | fail_if_no_progress with_reducible refine mk_keeps ?_ rfl rfl rfl (by and_intros <;> first | exact .inr (by with_reducible rfl) | exact .inl (sub_of hp rfl)) | dsimp only | split
theorem State.pulseDraw_keeps_eq {P : ℕ} {s0 s t : State} (hp : 8 &&& P = 8) {r} (e : State.pulseDraw s = (r, t)) (h : Keeps P s0 s) : Keeps P s0 t := by
  unfold State.pulseDraw at e
  repeat' first
    | split at e | with_reducible assumption | exact sub_of hp rfl | exact rfl
    | refine State.fresh_keeps_eq (sub_of hp rfl) (by assumption) ?_ | with_reducible apply State.fresh_keeps
    | with_reducible apply ite_keeps | with_reducible apply foldl_keeps
    | with_reducible refine foldl_snd_keeps ?_ (fun _ _ _ _ => ?_) | with_reducible refine getD_keeps (fun _ _ => ?_) ?_
    | intro _ | cases ‹(_, _) = (_, _)› | cases ‹some _ = some _› | cases ‹none = some _›
    | fail_if_no_progress with_reducible refine mk_keeps ?_ rfl rfl rfl (by and_intros <;> first | exact .inr (by with_reducible rfl) | exact .inl (sub_of hp rfl)) | dsimp only | dsimp only at e | split
theorem State.pulseDraw_keeps {P : ℕ} {s0 s : State} (hp : 8 &&& P = 8) (h : Keeps P s0 s) : Keeps P s0 (State.pulseDraw s).2 :=
  State.pulseDraw_keeps_eq hp (Prod.mk.eta (p := State.pulseDraw s)).symm h
theorem State.writeDraw_keeps {P : ℕ} {s0 s : State} (hp : 8388123 &&& P = 8388123) (h : Keeps P s0 s) (a1 : Src) (a2 : ℕ) (a3 : Word) : Keeps P s0 (State.writeDraw s a1 a2 a3) := by
  unfold State.writeDraw
  repeat' first
    | with_reducible assumption | exact sub_of hp rfl | exact rfl
    | refine State.pulseDraw_keeps_eq (sub_of hp rfl) (by assumption) ?_ | with_reducible apply State.pulseDraw_keeps
    | with_reducible apply State.writeReg_keeps | with_reducible apply ite_keeps | with_reducible apply foldl_keeps
    | with_reducible refine foldl_snd_keeps ?_ (fun _ _ _ _ => ?_) | with_reducible refine getD_keeps (fun _ _ => ?_) ?_
    | intro _ | cases ‹(_, _) = (_, _)› | cases ‹some _ = some _› | cases ‹none = some _›
    | fail_if_no_progress with_reducible refine mk_keeps ?_ rfl rfl rfl (by and_intros <;> first | exact .inr (by with_reducible rfl) | exact .inl (sub_of hp rfl)) | dsimp only | split
theorem execRegisterWrite_keeps_eq {P : ℕ} {s0 s t : State} (hp : 8388123 &&& P = 8388123) {a0 : Src} {a1 : BitVec 32} {a2 : Word} (e : execRegisterWrite a0 a1 a2 s = .next t) (h : Keeps P s0 s) : Keeps P s0 t := by
  unfold execRegisterWrite at e
  repeat' first
    | cases ‹Host.Outcome.next _ = Host.Outcome.next _› | cases ‹Host.Outcome.refused _ = Host.Outcome.next _›
    | cases ‹Host.Outcome.fault _ = Host.Outcome.next _› | split at e | with_reducible assumption | exact sub_of hp rfl
    | exact rfl | with_reducible apply State.writeDraw_keeps | with_reducible apply ite_keeps
    | with_reducible apply foldl_keeps | with_reducible refine getD_keeps (fun _ _ => ?_) ?_ | intro _
    | cases ‹(_, _) = (_, _)› | cases ‹some _ = some _› | cases ‹none = some _›
    | fail_if_no_progress with_reducible refine mk_keeps ?_ rfl rfl rfl (by and_intros <;> first | exact .inr (by with_reducible rfl) | exact .inl (sub_of hp rfl)) | dsimp only | dsimp only at e | split
theorem State.modeReqWrite_keeps {P : ℕ} {s0 s : State} (hp : 8388123 &&& P = 8388123) (h : Keeps P s0 s) (a1 : Src) (a2 : ℕ) : Keeps P s0 (State.modeReqWrite s a1 a2) := by
  unfold State.modeReqWrite
  repeat' first
    | with_reducible assumption | exact sub_of hp rfl | exact rfl | with_reducible apply State.writeReg_keeps
    | with_reducible apply ite_keeps | with_reducible apply foldl_keeps
    | with_reducible refine getD_keeps (fun _ _ => ?_) ?_ | intro _ | cases ‹(_, _) = (_, _)› | cases ‹some _ = some _›
    | cases ‹none = some _›
    | fail_if_no_progress with_reducible refine mk_keeps ?_ rfl rfl rfl (by and_intros <;> first | exact .inr (by with_reducible rfl) | exact .inl (sub_of hp rfl)) | dsimp only | split
theorem execModeReqService_keeps_eq {P : ℕ} {s0 s t : State} (hp : 8388123 &&& P = 8388123) {a0 : Src} (e : execModeReqService a0 s = .next t) (h : Keeps P s0 s) : Keeps P s0 t := by
  unfold execModeReqService at e
  repeat' first
    | cases ‹Host.Outcome.next _ = Host.Outcome.next _› | cases ‹Host.Outcome.refused _ = Host.Outcome.next _›
    | cases ‹Host.Outcome.fault _ = Host.Outcome.next _› | split at e | with_reducible assumption | exact sub_of hp rfl
    | exact rfl | with_reducible apply State.modeReqWrite_keeps | with_reducible apply ite_keeps
    | with_reducible apply foldl_keeps | with_reducible refine getD_keeps (fun _ _ => ?_) ?_ | intro _
    | cases ‹(_, _) = (_, _)› | cases ‹some _ = some _› | cases ‹none = some _›
    | fail_if_no_progress with_reducible refine mk_keeps ?_ rfl rfl rfl (by and_intros <;> first | exact .inr (by with_reducible rfl) | exact .inl (sub_of hp rfl)) | dsimp only | dsimp only at e | split
theorem execModeReqDrowse_keeps_eq {P : ℕ} {s0 s t : State} (hp : 8388123 &&& P = 8388123) {a0 : Src} (e : execModeReqDrowse a0 s = .next t) (h : Keeps P s0 s) : Keeps P s0 t := by
  unfold execModeReqDrowse at e
  repeat' first
    | cases ‹Host.Outcome.next _ = Host.Outcome.next _› | cases ‹Host.Outcome.refused _ = Host.Outcome.next _›
    | cases ‹Host.Outcome.fault _ = Host.Outcome.next _› | split at e | with_reducible assumption | exact sub_of hp rfl
    | exact rfl | with_reducible apply State.modeReqWrite_keeps | with_reducible apply ite_keeps
    | with_reducible apply foldl_keeps | with_reducible refine getD_keeps (fun _ _ => ?_) ?_ | intro _
    | cases ‹(_, _) = (_, _)› | cases ‹some _ = some _› | cases ‹none = some _›
    | fail_if_no_progress with_reducible refine mk_keeps ?_ rfl rfl rfl (by and_intros <;> first | exact .inr (by with_reducible rfl) | exact .inl (sub_of hp rfl)) | dsimp only | dsimp only at e | split
theorem execModeReqMaintenance_keeps_eq {P : ℕ} {s0 s t : State} (hp : 8388123 &&& P = 8388123) {a0 : Src} (e : execModeReqMaintenance a0 s = .next t) (h : Keeps P s0 s) : Keeps P s0 t := by
  unfold execModeReqMaintenance at e
  repeat' first
    | cases ‹Host.Outcome.next _ = Host.Outcome.next _› | cases ‹Host.Outcome.refused _ = Host.Outcome.next _›
    | cases ‹Host.Outcome.fault _ = Host.Outcome.next _› | split at e | with_reducible assumption | exact sub_of hp rfl
    | exact rfl | with_reducible apply State.modeReqWrite_keeps | with_reducible apply ite_keeps
    | with_reducible apply foldl_keeps | with_reducible refine getD_keeps (fun _ _ => ?_) ?_ | intro _
    | cases ‹(_, _) = (_, _)› | cases ‹some _ = some _› | cases ‹none = some _›
    | fail_if_no_progress with_reducible refine mk_keeps ?_ rfl rfl rfl (by and_intros <;> first | exact .inr (by with_reducible rfl) | exact .inl (sub_of hp rfl)) | dsimp only | dsimp only at e | split
theorem execModeReqSafeStop_keeps_eq {P : ℕ} {s0 s t : State} (hp : 8388123 &&& P = 8388123) {a0 : Src} (e : execModeReqSafeStop a0 s = .next t) (h : Keeps P s0 s) : Keeps P s0 t := by
  unfold execModeReqSafeStop at e
  repeat' first
    | cases ‹Host.Outcome.next _ = Host.Outcome.next _› | cases ‹Host.Outcome.refused _ = Host.Outcome.next _›
    | cases ‹Host.Outcome.fault _ = Host.Outcome.next _› | split at e | with_reducible assumption | exact sub_of hp rfl
    | exact rfl | with_reducible apply State.modeReqWrite_keeps | with_reducible apply ite_keeps
    | with_reducible apply foldl_keeps | with_reducible refine getD_keeps (fun _ _ => ?_) ?_ | intro _
    | cases ‹(_, _) = (_, _)› | cases ‹some _ = some _› | cases ‹none = some _›
    | fail_if_no_progress with_reducible refine mk_keeps ?_ rfl rfl rfl (by and_intros <;> first | exact .inr (by with_reducible rfl) | exact .inl (sub_of hp rfl)) | dsimp only | dsimp only at e | split
theorem execCommitGo_keeps_eq {P : ℕ} {s0 s t : State} (hp : 8388123 &&& P = 8388123) {a0 : Src} (e : execCommitGo a0 s = .next t) (h : Keeps P s0 s) : Keeps P s0 t := by
  unfold execCommitGo at e
  repeat' first
    | cases ‹Host.Outcome.next _ = Host.Outcome.next _› | cases ‹Host.Outcome.refused _ = Host.Outcome.next _›
    | cases ‹Host.Outcome.fault _ = Host.Outcome.next _› | split at e | with_reducible assumption | exact sub_of hp rfl
    | exact rfl | with_reducible apply State.writeReg_keeps | with_reducible apply ite_keeps
    | with_reducible apply foldl_keeps | with_reducible refine getD_keeps (fun _ _ => ?_) ?_ | intro _
    | cases ‹(_, _) = (_, _)› | cases ‹some _ = some _› | cases ‹none = some _›
    | fail_if_no_progress with_reducible refine mk_keeps ?_ rfl rfl rfl (by and_intros <;> first | exact .inr (by with_reducible rfl) | exact .inl (sub_of hp rfl)) | dsimp only | dsimp only at e | split
theorem execCommitDiscard_keeps_eq {P : ℕ} {s0 s t : State} (hp : 8388123 &&& P = 8388123) {a0 : Src} (e : execCommitDiscard a0 s = .next t) (h : Keeps P s0 s) : Keeps P s0 t := by
  unfold execCommitDiscard at e
  repeat' first
    | cases ‹Host.Outcome.next _ = Host.Outcome.next _› | cases ‹Host.Outcome.refused _ = Host.Outcome.next _›
    | cases ‹Host.Outcome.fault _ = Host.Outcome.next _› | split at e | with_reducible assumption | exact sub_of hp rfl
    | exact rfl | with_reducible apply State.writeReg_keeps | with_reducible apply ite_keeps
    | with_reducible apply foldl_keeps | with_reducible refine getD_keeps (fun _ _ => ?_) ?_ | intro _
    | cases ‹(_, _) = (_, _)› | cases ‹some _ = some _› | cases ‹none = some _›
    | fail_if_no_progress with_reducible refine mk_keeps ?_ rfl rfl rfl (by and_intros <;> first | exact .inr (by with_reducible rfl) | exact .inl (sub_of hp rfl)) | dsimp only | dsimp only at e | split
theorem execLogFetch_keeps_eq {P : ℕ} {s0 s t : State} (hp : 8388123 &&& P = 8388123) {a0 : Src} {a1 : Fin 8} {a2 : BitVec 32} (e : execLogFetch a0 a1 a2 s = .next t) (h : Keeps P s0 s) : Keeps P s0 t := by
  unfold execLogFetch at e
  repeat' first
    | cases ‹Host.Outcome.next _ = Host.Outcome.next _› | cases ‹Host.Outcome.refused _ = Host.Outcome.next _›
    | cases ‹Host.Outcome.fault _ = Host.Outcome.next _› | split at e | with_reducible assumption | exact sub_of hp rfl
    | exact rfl | with_reducible apply State.writeReg_keeps | with_reducible apply ite_keeps
    | with_reducible apply foldl_keeps | with_reducible refine getD_keeps (fun _ _ => ?_) ?_ | intro _
    | cases ‹(_, _) = (_, _)› | cases ‹some _ = some _› | cases ‹none = some _›
    | fail_if_no_progress with_reducible refine mk_keeps ?_ rfl rfl rfl (by and_intros <;> first | exact .inr (by with_reducible rfl) | exact .inl (sub_of hp rfl)) | dsimp only | dsimp only at e | split
theorem execImageVerify_keeps_eq {P : ℕ} {s0 s t : State} (hp : 8388123 &&& P = 8388123) {a0 : Src} {a1 : Fin 2} (e : execImageVerify a0 a1 s = .next t) (h : Keeps P s0 s) : Keeps P s0 t := by
  unfold execImageVerify at e
  repeat' first
    | cases ‹Host.Outcome.next _ = Host.Outcome.next _› | cases ‹Host.Outcome.refused _ = Host.Outcome.next _›
    | cases ‹Host.Outcome.fault _ = Host.Outcome.next _› | split at e | with_reducible assumption | exact sub_of hp rfl
    | exact rfl | with_reducible apply State.writeReg_keeps | with_reducible apply ite_keeps
    | with_reducible apply foldl_keeps | with_reducible refine getD_keeps (fun _ _ => ?_) ?_ | intro _
    | cases ‹(_, _) = (_, _)› | cases ‹some _ = some _› | cases ‹none = some _›
    | fail_if_no_progress with_reducible refine mk_keeps ?_ rfl rfl rfl (by and_intros <;> first | exact .inr (by with_reducible rfl) | exact .inl (sub_of hp rfl)) | dsimp only | dsimp only at e | split
theorem State.norWrite_keeps {P : ℕ} {s0 s : State} (hp : 8388123 &&& P = 8388123) (h : Keeps P s0 s) (a1 : Src) (a2 : ℕ) (a3 : ℕ) (a4 : BitVec 32) : Keeps P s0 (State.norWrite s a1 a2 a3 a4) := by
  unfold State.norWrite
  repeat' first
    | with_reducible assumption | exact sub_of hp rfl | exact rfl | with_reducible apply State.writeReg_keeps
    | with_reducible apply ite_keeps | with_reducible apply foldl_keeps
    | with_reducible refine getD_keeps (fun _ _ => ?_) ?_ | intro _ | cases ‹(_, _) = (_, _)› | cases ‹some _ = some _›
    | cases ‹none = some _›
    | fail_if_no_progress with_reducible refine mk_keeps ?_ rfl rfl rfl (by and_intros <;> first | exact .inr (by with_reducible rfl) | exact .inl (sub_of hp rfl)) | dsimp only | split
theorem execNorRead_keeps_eq {P : ℕ} {s0 s t : State} (hp : 8388123 &&& P = 8388123) {a0 : Src} {a1 : Fin 2} {a2 : BitVec 32} (e : execNorRead a0 a1 a2 s = .next t) (h : Keeps P s0 s) : Keeps P s0 t := by
  unfold execNorRead at e
  repeat' first
    | cases ‹Host.Outcome.next _ = Host.Outcome.next _› | cases ‹Host.Outcome.refused _ = Host.Outcome.next _›
    | cases ‹Host.Outcome.fault _ = Host.Outcome.next _› | split at e | with_reducible assumption | exact sub_of hp rfl
    | exact rfl | with_reducible apply State.norWrite_keeps | with_reducible apply ite_keeps
    | with_reducible apply foldl_keeps | with_reducible refine getD_keeps (fun _ _ => ?_) ?_ | intro _
    | cases ‹(_, _) = (_, _)› | cases ‹some _ = some _› | cases ‹none = some _›
    | fail_if_no_progress with_reducible refine mk_keeps ?_ rfl rfl rfl (by and_intros <;> first | exact .inr (by with_reducible rfl) | exact .inl (sub_of hp rfl)) | dsimp only | dsimp only at e | split
theorem execNorProgram_keeps_eq {P : ℕ} {s0 s t : State} (hp : 8388123 &&& P = 8388123) {a0 : Src} {a1 : Fin 2} {a2 : BitVec 32} (e : execNorProgram a0 a1 a2 s = .next t) (h : Keeps P s0 s) : Keeps P s0 t := by
  unfold execNorProgram at e
  repeat' first
    | cases ‹Host.Outcome.next _ = Host.Outcome.next _› | cases ‹Host.Outcome.refused _ = Host.Outcome.next _›
    | cases ‹Host.Outcome.fault _ = Host.Outcome.next _› | split at e | with_reducible assumption | exact sub_of hp rfl
    | exact rfl | with_reducible apply State.norWrite_keeps | with_reducible apply ite_keeps
    | with_reducible apply foldl_keeps | with_reducible refine getD_keeps (fun _ _ => ?_) ?_ | intro _
    | cases ‹(_, _) = (_, _)› | cases ‹some _ = some _› | cases ‹none = some _›
    | fail_if_no_progress with_reducible refine mk_keeps ?_ rfl rfl rfl (by and_intros <;> first | exact .inr (by with_reducible rfl) | exact .inl (sub_of hp rfl)) | dsimp only | dsimp only at e | split
theorem execNorErase_keeps_eq {P : ℕ} {s0 s t : State} (hp : 8388123 &&& P = 8388123) {a0 : Src} {a1 : Fin 2} {a2 : BitVec 32} (e : execNorErase a0 a1 a2 s = .next t) (h : Keeps P s0 s) : Keeps P s0 t := by
  unfold execNorErase at e
  repeat' first
    | cases ‹Host.Outcome.next _ = Host.Outcome.next _› | cases ‹Host.Outcome.refused _ = Host.Outcome.next _›
    | cases ‹Host.Outcome.fault _ = Host.Outcome.next _› | split at e | with_reducible assumption | exact sub_of hp rfl
    | exact rfl | with_reducible apply State.norWrite_keeps | with_reducible apply ite_keeps
    | with_reducible apply foldl_keeps | with_reducible refine getD_keeps (fun _ _ => ?_) ?_ | intro _
    | cases ‹(_, _) = (_, _)› | cases ‹some _ = some _› | cases ‹none = some _›
    | fail_if_no_progress with_reducible refine mk_keeps ?_ rfl rfl rfl (by and_intros <;> first | exact .inr (by with_reducible rfl) | exact .inl (sub_of hp rfl)) | dsimp only | dsimp only at e | split
theorem State.lcWrite_keeps {P : ℕ} {s0 s : State} (hp : 8388123 &&& P = 8388123) (h : Keeps P s0 s) (a1 : Src) (a2 : ℕ) (a3 : Burn) (a4 : Burn) : Keeps P s0 (State.lcWrite s a1 a2 a3 a4) := by
  unfold State.lcWrite
  repeat' first
    | with_reducible assumption | exact sub_of hp rfl | exact rfl | with_reducible apply State.writeReg_keeps
    | with_reducible apply ite_keeps | with_reducible apply foldl_keeps
    | with_reducible refine getD_keeps (fun _ _ => ?_) ?_ | intro _ | cases ‹(_, _) = (_, _)› | cases ‹some _ = some _›
    | cases ‹none = some _›
    | fail_if_no_progress with_reducible refine mk_keeps ?_ rfl rfl rfl (by and_intros <;> first | exact .inr (by with_reducible rfl) | exact .inl (sub_of hp rfl)) | dsimp only | split
theorem execLcOpen_keeps_eq {P : ℕ} {s0 s t : State} (hp : 8388123 &&& P = 8388123) {a0 : Src} {a1 : Burn} (e : execLcOpen a0 a1 s = .next t) (h : Keeps P s0 s) : Keeps P s0 t := by
  unfold execLcOpen at e
  repeat' first
    | cases ‹Host.Outcome.next _ = Host.Outcome.next _› | cases ‹Host.Outcome.refused _ = Host.Outcome.next _›
    | cases ‹Host.Outcome.fault _ = Host.Outcome.next _› | split at e | with_reducible assumption | exact sub_of hp rfl
    | exact rfl | with_reducible apply State.lcWrite_keeps | with_reducible apply ite_keeps
    | with_reducible apply foldl_keeps | with_reducible refine getD_keeps (fun _ _ => ?_) ?_ | intro _
    | cases ‹(_, _) = (_, _)› | cases ‹some _ = some _› | cases ‹none = some _›
    | fail_if_no_progress with_reducible refine mk_keeps ?_ rfl rfl rfl (by and_intros <;> first | exact .inr (by with_reducible rfl) | exact .inl (sub_of hp rfl)) | dsimp only | dsimp only at e | split
theorem execLcSeal_keeps_eq {P : ℕ} {s0 s t : State} (hp : 8388123 &&& P = 8388123) {a0 : Src} {a1 : Burn} {a2 : Burn} (e : execLcSeal a0 a1 a2 s = .next t) (h : Keeps P s0 s) : Keeps P s0 t := by
  unfold execLcSeal at e
  repeat' first
    | cases ‹Host.Outcome.next _ = Host.Outcome.next _› | cases ‹Host.Outcome.refused _ = Host.Outcome.next _›
    | cases ‹Host.Outcome.fault _ = Host.Outcome.next _› | split at e | with_reducible assumption | exact sub_of hp rfl
    | exact rfl | with_reducible apply State.lcWrite_keeps | with_reducible apply ite_keeps
    | with_reducible apply foldl_keeps | with_reducible refine getD_keeps (fun _ _ => ?_) ?_ | intro _
    | cases ‹(_, _) = (_, _)› | cases ‹some _ = some _› | cases ‹none = some _›
    | fail_if_no_progress with_reducible refine mk_keeps ?_ rfl rfl rfl (by and_intros <;> first | exact .inr (by with_reducible rfl) | exact .inl (sub_of hp rfl)) | dsimp only | dsimp only at e | split
theorem execLcReturn_keeps_eq {P : ℕ} {s0 s t : State} (hp : 8388123 &&& P = 8388123) {a0 : Src} {a1 : Burn} (e : execLcReturn a0 a1 s = .next t) (h : Keeps P s0 s) : Keeps P s0 t := by
  unfold execLcReturn at e
  repeat' first
    | cases ‹Host.Outcome.next _ = Host.Outcome.next _› | cases ‹Host.Outcome.refused _ = Host.Outcome.next _›
    | cases ‹Host.Outcome.fault _ = Host.Outcome.next _› | split at e | with_reducible assumption | exact sub_of hp rfl
    | exact rfl | with_reducible apply State.lcWrite_keeps | with_reducible apply ite_keeps
    | with_reducible apply foldl_keeps | with_reducible refine getD_keeps (fun _ _ => ?_) ?_ | intro _
    | cases ‹(_, _) = (_, _)› | cases ‹some _ = some _› | cases ‹none = some _›
    | fail_if_no_progress with_reducible refine mk_keeps ?_ rfl rfl rfl (by and_intros <;> first | exact .inr (by with_reducible rfl) | exact .inl (sub_of hp rfl)) | dsimp only | dsimp only at e | split
theorem execLcRetire_keeps_eq {P : ℕ} {s0 s t : State} (hp : 8388123 &&& P = 8388123) {a0 : Src} {a1 : Burn} (e : execLcRetire a0 a1 s = .next t) (h : Keeps P s0 s) : Keeps P s0 t := by
  unfold execLcRetire at e
  repeat' first
    | cases ‹Host.Outcome.next _ = Host.Outcome.next _› | cases ‹Host.Outcome.refused _ = Host.Outcome.next _›
    | cases ‹Host.Outcome.fault _ = Host.Outcome.next _› | split at e | with_reducible assumption | exact sub_of hp rfl
    | exact rfl | with_reducible apply State.lcWrite_keeps | with_reducible apply ite_keeps
    | with_reducible apply foldl_keeps | with_reducible refine getD_keeps (fun _ _ => ?_) ?_ | intro _
    | cases ‹(_, _) = (_, _)› | cases ‹some _ = some _› | cases ‹none = some _›
    | fail_if_no_progress with_reducible refine mk_keeps ?_ rfl rfl rfl (by and_intros <;> first | exact .inr (by with_reducible rfl) | exact .inl (sub_of hp rfl)) | dsimp only | dsimp only at e | split
theorem execLcRevoke_keeps_eq {P : ℕ} {s0 s t : State} (hp : 8388123 &&& P = 8388123) {a0 : Src} {a1 : Burn} (e : execLcRevoke a0 a1 s = .next t) (h : Keeps P s0 s) : Keeps P s0 t := by
  unfold execLcRevoke at e
  repeat' first
    | cases ‹Host.Outcome.next _ = Host.Outcome.next _› | cases ‹Host.Outcome.refused _ = Host.Outcome.next _›
    | cases ‹Host.Outcome.fault _ = Host.Outcome.next _› | split at e | with_reducible assumption | exact sub_of hp rfl
    | exact rfl | with_reducible apply State.lcWrite_keeps | with_reducible apply ite_keeps
    | with_reducible apply foldl_keeps | with_reducible refine getD_keeps (fun _ _ => ?_) ?_ | intro _
    | cases ‹(_, _) = (_, _)› | cases ‹some _ = some _› | cases ‹none = some _›
    | fail_if_no_progress with_reducible refine mk_keeps ?_ rfl rfl rfl (by and_intros <;> first | exact .inr (by with_reducible rfl) | exact .inl (sub_of hp rfl)) | dsimp only | dsimp only at e | split

/-! ### Machine/Manager -/

theorem State.acquire_keeps {P : ℕ} {s0 s : State} (hp : 2097152 &&& P = 2097152) (h : Keeps P s0 s) (a1 : Src) (a2 : ℕ) : Keeps P s0 (State.acquire s a1 a2) := by
  unfold State.acquire
  repeat' first
    | with_reducible assumption | exact sub_of hp rfl | exact rfl | with_reducible apply State.grantLease_keeps
    | with_reducible apply ite_keeps | with_reducible apply foldl_keeps
    | with_reducible refine getD_keeps (fun _ _ => ?_) ?_ | intro _ | cases ‹(_, _) = (_, _)› | cases ‹some _ = some _›
    | cases ‹none = some _›
    | fail_if_no_progress with_reducible refine mk_keeps ?_ rfl rfl rfl (by and_intros <;> first | exact .inr (by with_reducible rfl) | exact .inl (sub_of hp rfl)) | dsimp only | split
theorem State.renew_keeps {P : ℕ} {s0 s : State} (hp : 2097152 &&& P = 2097152) (h : Keeps P s0 s) (a1 : Src) (a2 : ℕ) : Keeps P s0 (State.renew s a1 a2) := by
  unfold State.renew
  repeat' first
    | with_reducible assumption | exact sub_of hp rfl | exact rfl | with_reducible apply State.grantLease_keeps
    | with_reducible apply ite_keeps | with_reducible apply foldl_keeps
    | with_reducible refine getD_keeps (fun _ _ => ?_) ?_ | intro _ | cases ‹(_, _) = (_, _)› | cases ‹some _ = some _›
    | cases ‹none = some _›
    | fail_if_no_progress with_reducible refine mk_keeps ?_ rfl rfl rfl (by and_intros <;> first | exact .inr (by with_reducible rfl) | exact .inl (sub_of hp rfl)) | dsimp only | split
theorem State.giveUp_keeps {P : ℕ} {s0 s : State} (hp : 2736643 &&& P = 2736643) (h : Keeps P s0 s) (a1 : Src) : Keeps P s0 (State.giveUp s a1) := by
  unfold State.giveUp
  repeat' first
    | with_reducible assumption | exact sub_of hp rfl | exact rfl | with_reducible apply State.loseLease_keeps
    | with_reducible apply ite_keeps | with_reducible apply foldl_keeps
    | with_reducible refine getD_keeps (fun _ _ => ?_) ?_ | intro _ | cases ‹(_, _) = (_, _)› | cases ‹some _ = some _›
    | cases ‹none = some _›
    | fail_if_no_progress with_reducible refine mk_keeps ?_ rfl rfl rfl (by and_intros <;> first | exact .inr (by with_reducible rfl) | exact .inl (sub_of hp rfl)) | dsimp only | split
theorem State.readMany_keeps_eq {P : ℕ} {s0 s t : State} (hp : 18442 &&& P = 18442) {a1 : Src} {a2 : ℕ} {a3 : ℕ} {r} (e : State.readMany s a1 a2 a3 = (r, t)) (h : Keeps P s0 s) : Keeps P s0 t := by
  induction a3 generalizing s a2 r with
  | zero => cases e; exact h
  | succ n ih =>
    unfold State.readMany at e
    cases e
    exact ih (Prod.mk.eta).symm (State.readBy_keeps (sub_of hp rfl) h _ _)
theorem State.readMany_keeps {P : ℕ} {s0 s : State} (hp : 18442 &&& P = 18442) (h : Keeps P s0 s) (a1 : Src) (a2 : ℕ) (a3 : ℕ) : Keeps P s0 (State.readMany s a1 a2 a3).2 :=
  State.readMany_keeps_eq hp (Prod.mk.eta (p := State.readMany s a1 a2 a3)).symm h
theorem State.writeMany_keeps {P : ℕ} {s0 s : State} (hp : 8388123 &&& P = 8388123) (h : Keeps P s0 s) (a1 : Src) (a2 : ℕ) (a3 : List Word) : Keeps P s0 (State.writeMany s a1 a2 a3) := by
  induction a3 generalizing s a2 with
  | nil => exact h
  | cons w l ih => exact ih (State.writeDraw_keeps (sub_of hp rfl) h _ _ _) _
theorem State.zmpDo_keeps_eq {P : ℕ} {s0 s t : State} (hp : 8388123 &&& P = 8388123) {a1 : Src} {a2 : ZmpReq} {r} (e : State.zmpDo s a1 a2 = (r, t)) (h : Keeps P s0 s) : Keeps P s0 t := by
  unfold State.zmpDo at e
  repeat' first
    | split at e | with_reducible assumption | exact sub_of hp rfl | exact rfl | with_reducible apply State.acquire_keeps
    | with_reducible apply State.renew_keeps | with_reducible apply State.giveUp_keeps
    | with_reducible apply State.writeMany_keeps | refine State.readMany_keeps_eq (sub_of hp rfl) (by assumption) ?_
    | with_reducible apply State.readMany_keeps | with_reducible apply ite_keeps | with_reducible apply foldl_keeps
    | with_reducible refine foldl_snd_keeps ?_ (fun _ _ _ _ => ?_) | with_reducible refine getD_keeps (fun _ _ => ?_) ?_
    | intro _ | cases ‹(_, _) = (_, _)› | cases ‹some _ = some _› | cases ‹none = some _›
    | fail_if_no_progress with_reducible refine mk_keeps ?_ rfl rfl rfl (by and_intros <;> first | exact .inr (by with_reducible rfl) | exact .inl (sub_of hp rfl)) | dsimp only | dsimp only at e | split
theorem State.zmpDo_keeps {P : ℕ} {s0 s : State} (hp : 8388123 &&& P = 8388123) (h : Keeps P s0 s) (a1 : Src) (a2 : ZmpReq) : Keeps P s0 (State.zmpDo s a1 a2).2 :=
  State.zmpDo_keeps_eq hp (Prod.mk.eta (p := State.zmpDo s a1 a2)).symm h
theorem State.zmpAnswer_keeps {P : ℕ} {s0 s : State} (hp : 18 &&& P = 18) (h : Keeps P s0 s) (a1 : Src) (a2 : ℕ) (a3 : ℕ) (a4 : ℕ) (a5 : List ℕ) : Keeps P s0 (State.zmpAnswer s a1 a2 a3 a4 a5) := by
  unfold State.zmpAnswer
  repeat' first
    | with_reducible assumption | exact sub_of hp rfl | exact rfl | with_reducible apply State.inc_keeps
    | with_reducible apply State.emit_keeps | with_reducible apply ite_keeps | with_reducible apply foldl_keeps
    | with_reducible refine getD_keeps (fun _ _ => ?_) ?_ | intro _ | cases ‹(_, _) = (_, _)› | cases ‹some _ = some _›
    | cases ‹none = some _›
    | fail_if_no_progress with_reducible refine mk_keeps ?_ rfl rfl rfl (by and_intros <;> first | exact .inr (by with_reducible rfl) | exact .inl (sub_of hp rfl)) | dsimp only | split
theorem State.zmpRun_keeps {P : ℕ} {s0 s : State} (hp : 2097170 &&& P = 2097170) (h : Keeps P s0 s) (a1 : Src) (a2 : ZmpIn) (a3 : ℕ) (a4 : Bool) (a5 : State → List ℕ × State)
    (hk : ∀ u x t, Keeps P s0 u → a5 u = (x, t) → Keeps P s0 t) : Keeps P s0 (State.zmpRun s a1 a2 a3 a4 a5) := by
  unfold State.zmpRun
  refine ite_keeps (fun _ => h) fun _ => ite_keeps (fun _ => State.zmpAnswer_keeps (sub_of hp rfl) (State.sat_keeps (sub_of hp rfl) h _ _) _ _ _ _ _) fun _ =>
    ite_keeps (fun _ => State.zmpAnswer_keeps (sub_of hp rfl) h _ _ _ _ _) fun _ => ?_
  split
  · exact State.zmpAnswer_keeps (sub_of hp rfl) (State.sat_keeps (sub_of hp rfl) h _ _) _ _ _ _ _
  · have k := hk _ _ _ h (Prod.mk.eta (p := a5 s)).symm
    exact State.zmpAnswer_keeps (sub_of hp rfl) (s := { (a5 s).2 with
      mgr.answers := ((⟨a1, a2.seq.toNat, a3, (a5 s).1.map (BitVec.ofNat 64)⟩ : Answer) :: (a5 s).2.mgr.answers).take 8 }) ⟨k.queue, k.mode, k.regs, k.nor, k.therm, fun _ => List.length_take_le _ _, k.signs, k.key, k.more 2097152 (hm := sub_of hp rfl)⟩ _ _ _ _ _
theorem State.zmpReq_keeps {P : ℕ} {s0 s : State} (hp : 8388123 &&& P = 8388123) (h : Keeps P s0 s) (a1 : Src) (a2 : ZmpIn) (a3 : ZmpReq) : Keeps P s0 (State.zmpReq s a1 a2 a3) := by
  unfold State.zmpReq
  repeat' first
    | with_reducible assumption | exact sub_of hp rfl | exact rfl | with_reducible apply State.zmpRun_keeps
    | refine State.zmpDo_keeps_eq (sub_of hp rfl) (by assumption) ?_ | with_reducible apply State.zmpDo_keeps
    | with_reducible apply ite_keeps | with_reducible apply foldl_keeps
    | with_reducible refine foldl_snd_keeps ?_ (fun _ _ _ _ => ?_) | with_reducible refine getD_keeps (fun _ _ => ?_) ?_
    | intro _ | cases ‹(_, _) = (_, _)› | cases ‹some _ = some _› | cases ‹none = some _›
    | fail_if_no_progress with_reducible refine mk_keeps ?_ rfl rfl rfl (by and_intros <;> first | exact .inr (by with_reducible rfl) | exact .inl (sub_of hp rfl)) | dsimp only | split
theorem State.mctpControl_keeps {P : ℕ} {s0 s : State} (hp : 2736659 &&& P = 2736659) (h : Keeps P s0 s) (a1 : Src) (a2 : MctpCtl) : Keeps P s0 (State.mctpControl s a1 a2) := by
  unfold State.mctpControl
  repeat' first
    | with_reducible assumption | exact sub_of hp rfl | exact rfl | with_reducible apply State.loseLease_keeps
    | with_reducible apply State.emit_keeps | with_reducible apply ite_keeps | with_reducible apply foldl_keeps
    | with_reducible refine getD_keeps (fun _ _ => ?_) ?_ | intro _ | cases ‹(_, _) = (_, _)› | cases ‹some _ = some _›
    | cases ‹none = some _›
    | fail_if_no_progress with_reducible refine mk_keeps ?_ rfl rfl rfl (by and_intros <;> first | exact .inr (by with_reducible rfl) | exact .inl (sub_of hp rfl)) | dsimp only | split
theorem State.mctpVendor_keeps {P : ℕ} {s0 s : State} (hp : 8388123 &&& P = 8388123) (h : Keeps P s0 s) (a1 : Src) (a2 : ZmpIn) (a3 : ZmpReq) : Keeps P s0 (State.mctpVendor s a1 a2 a3) := by
  unfold State.mctpVendor
  repeat' first
    | with_reducible assumption | exact sub_of hp rfl | exact rfl | with_reducible apply State.mctpIn_keeps
    | with_reducible apply State.zmpRun_keeps | refine State.zmpDo_keeps_eq (sub_of hp rfl) (by assumption) ?_
    | with_reducible apply State.zmpDo_keeps | with_reducible apply State.fmLease_keeps | with_reducible apply ite_keeps
    | with_reducible apply foldl_keeps | with_reducible refine foldl_snd_keeps ?_ (fun _ _ _ _ => ?_)
    | with_reducible refine getD_keeps (fun _ _ => ?_) ?_ | intro _ | cases ‹(_, _) = (_, _)› | cases ‹some _ = some _›
    | cases ‹none = some _›
    | fail_if_no_progress with_reducible refine mk_keeps ?_ rfl rfl rfl (by and_intros <;> first | exact .inr (by with_reducible rfl) | exact .inl (sub_of hp rfl)) | dsimp only | split
theorem State.mctpMsg_keeps {P : ℕ} {s0 s : State} (hp : 8388123 &&& P = 8388123) (h : Keeps P s0 s) (a1 : Src) (a2 : MctpMsg) : Keeps P s0 (State.mctpMsg s a1 a2) := by
  unfold State.mctpMsg
  repeat' first
    | with_reducible assumption | exact sub_of hp rfl | exact rfl | with_reducible apply State.mctpControl_keeps
    | with_reducible apply State.fmCmd_keeps | with_reducible apply State.sat_keeps
    | with_reducible apply State.mctpVendor_keeps | with_reducible apply ite_keeps | with_reducible apply foldl_keeps
    | with_reducible refine getD_keeps (fun _ _ => ?_) ?_ | intro _ | cases ‹(_, _) = (_, _)› | cases ‹some _ = some _›
    | cases ‹none = some _›
    | fail_if_no_progress with_reducible refine mk_keeps ?_ rfl rfl rfl (by and_intros <;> first | exact .inr (by with_reducible rfl) | exact .inl (sub_of hp rfl)) | dsimp only | split
theorem execZmpAcquire_keeps_eq {P : ℕ} {s0 s t : State} (hp : 8388123 &&& P = 8388123) {a0 : ZmpIn} {a1 : BitVec 16} (e : execZmpAcquire a0 a1 s = .next t) (h : Keeps P s0 s) : Keeps P s0 t := by
  unfold execZmpAcquire at e
  repeat' first
    | cases ‹Host.Outcome.next _ = Host.Outcome.next _› | cases ‹Host.Outcome.refused _ = Host.Outcome.next _›
    | cases ‹Host.Outcome.fault _ = Host.Outcome.next _› | split at e | with_reducible assumption | exact sub_of hp rfl
    | exact rfl | with_reducible apply State.zmpReq_keeps | with_reducible apply State.onRind_keeps
    | with_reducible apply ite_keeps | with_reducible apply foldl_keeps
    | with_reducible refine getD_keeps (fun _ _ => ?_) ?_ | intro _ | cases ‹(_, _) = (_, _)› | cases ‹some _ = some _›
    | cases ‹none = some _›
    | fail_if_no_progress with_reducible refine mk_keeps ?_ rfl rfl rfl (by and_intros <;> first | exact .inr (by with_reducible rfl) | exact .inl (sub_of hp rfl)) | dsimp only | dsimp only at e | split
theorem execZmpRenew_keeps_eq {P : ℕ} {s0 s t : State} (hp : 8388123 &&& P = 8388123) {a0 : ZmpIn} {a1 : BitVec 16} (e : execZmpRenew a0 a1 s = .next t) (h : Keeps P s0 s) : Keeps P s0 t := by
  unfold execZmpRenew at e
  repeat' first
    | cases ‹Host.Outcome.next _ = Host.Outcome.next _› | cases ‹Host.Outcome.refused _ = Host.Outcome.next _›
    | cases ‹Host.Outcome.fault _ = Host.Outcome.next _› | split at e | with_reducible assumption | exact sub_of hp rfl
    | exact rfl | with_reducible apply State.zmpReq_keeps | with_reducible apply State.onRind_keeps
    | with_reducible apply ite_keeps | with_reducible apply foldl_keeps
    | with_reducible refine getD_keeps (fun _ _ => ?_) ?_ | intro _ | cases ‹(_, _) = (_, _)› | cases ‹some _ = some _›
    | cases ‹none = some _›
    | fail_if_no_progress with_reducible refine mk_keeps ?_ rfl rfl rfl (by and_intros <;> first | exact .inr (by with_reducible rfl) | exact .inl (sub_of hp rfl)) | dsimp only | dsimp only at e | split
theorem execZmpRelease_keeps_eq {P : ℕ} {s0 s t : State} (hp : 8388123 &&& P = 8388123) {a0 : ZmpIn} {a1 : BitVec 16} (e : execZmpRelease a0 a1 s = .next t) (h : Keeps P s0 s) : Keeps P s0 t := by
  unfold execZmpRelease at e
  repeat' first
    | cases ‹Host.Outcome.next _ = Host.Outcome.next _› | cases ‹Host.Outcome.refused _ = Host.Outcome.next _›
    | cases ‹Host.Outcome.fault _ = Host.Outcome.next _› | split at e | with_reducible assumption | exact sub_of hp rfl
    | exact rfl | with_reducible apply State.zmpReq_keeps | with_reducible apply State.onRind_keeps
    | with_reducible apply ite_keeps | with_reducible apply foldl_keeps
    | with_reducible refine getD_keeps (fun _ _ => ?_) ?_ | intro _ | cases ‹(_, _) = (_, _)› | cases ‹some _ = some _›
    | cases ‹none = some _›
    | fail_if_no_progress with_reducible refine mk_keeps ?_ rfl rfl rfl (by and_intros <;> first | exact .inr (by with_reducible rfl) | exact .inl (sub_of hp rfl)) | dsimp only | dsimp only at e | split
theorem execZmpRead_keeps_eq {P : ℕ} {s0 s t : State} (hp : 8388123 &&& P = 8388123) {a0 : ZmpIn} {a1 : BitVec 32} {a2 : BitVec 16} (e : execZmpRead a0 a1 a2 s = .next t) (h : Keeps P s0 s) : Keeps P s0 t := by
  unfold execZmpRead at e
  repeat' first
    | cases ‹Host.Outcome.next _ = Host.Outcome.next _› | cases ‹Host.Outcome.refused _ = Host.Outcome.next _›
    | cases ‹Host.Outcome.fault _ = Host.Outcome.next _› | split at e | with_reducible assumption | exact sub_of hp rfl
    | exact rfl | with_reducible apply State.zmpReq_keeps | with_reducible apply State.onRind_keeps
    | with_reducible apply ite_keeps | with_reducible apply foldl_keeps
    | with_reducible refine getD_keeps (fun _ _ => ?_) ?_ | intro _ | cases ‹(_, _) = (_, _)› | cases ‹some _ = some _›
    | cases ‹none = some _›
    | fail_if_no_progress with_reducible refine mk_keeps ?_ rfl rfl rfl (by and_intros <;> first | exact .inr (by with_reducible rfl) | exact .inl (sub_of hp rfl)) | dsimp only | dsimp only at e | split
theorem execZmpWrite_keeps_eq {P : ℕ} {s0 s t : State} (hp : 8388123 &&& P = 8388123) {a0 : ZmpIn} {a1 : BitVec 32} {a2 : List Word} (e : execZmpWrite a0 a1 a2 s = .next t) (h : Keeps P s0 s) : Keeps P s0 t := by
  unfold execZmpWrite at e
  repeat' first
    | cases ‹Host.Outcome.next _ = Host.Outcome.next _› | cases ‹Host.Outcome.refused _ = Host.Outcome.next _›
    | cases ‹Host.Outcome.fault _ = Host.Outcome.next _› | split at e | with_reducible assumption | exact sub_of hp rfl
    | exact rfl | with_reducible apply State.zmpReq_keeps | with_reducible apply State.onRind_keeps
    | with_reducible apply ite_keeps | with_reducible apply foldl_keeps
    | with_reducible refine getD_keeps (fun _ _ => ?_) ?_ | intro _ | cases ‹(_, _) = (_, _)› | cases ‹some _ = some _›
    | cases ‹none = some _›
    | fail_if_no_progress with_reducible refine mk_keeps ?_ rfl rfl rfl (by and_intros <;> first | exact .inr (by with_reducible rfl) | exact .inl (sub_of hp rfl)) | dsimp only | dsimp only at e | split
theorem execZmpMctp_keeps_eq {P : ℕ} {s0 s t : State} (hp : 8388123 &&& P = 8388123) {a0 : ZmpIn} {a1 : MctpMsg} (e : execZmpMctp a0 a1 s = .next t) (h : Keeps P s0 s) : Keeps P s0 t := by
  unfold execZmpMctp at e
  repeat' first
    | cases ‹Host.Outcome.next _ = Host.Outcome.next _› | cases ‹Host.Outcome.refused _ = Host.Outcome.next _›
    | cases ‹Host.Outcome.fault _ = Host.Outcome.next _› | split at e | with_reducible assumption | exact sub_of hp rfl
    | exact rfl | with_reducible apply State.mctpMsg_keeps | with_reducible apply State.zmpRun_keeps
    | with_reducible apply State.onRind_keeps | with_reducible apply ite_keeps | with_reducible apply foldl_keeps
    | with_reducible refine getD_keeps (fun _ _ => ?_) ?_ | intro _ | cases ‹(_, _) = (_, _)› | cases ‹some _ = some _›
    | cases ‹none = some _›
    | fail_if_no_progress with_reducible refine mk_keeps ?_ rfl rfl rfl (by and_intros <;> first | exact .inr (by with_reducible rfl) | exact .inl (sub_of hp rfl)) | dsimp only | dsimp only at e | split
theorem execZmpPing_keeps_eq {P : ℕ} {s0 s t : State} (hp : 8388123 &&& P = 8388123) {a0 : ZmpIn} (e : execZmpPing a0 s = .next t) (h : Keeps P s0 s) : Keeps P s0 t := by
  unfold execZmpPing at e
  repeat' first
    | cases ‹Host.Outcome.next _ = Host.Outcome.next _› | cases ‹Host.Outcome.refused _ = Host.Outcome.next _›
    | cases ‹Host.Outcome.fault _ = Host.Outcome.next _› | split at e | with_reducible assumption | exact sub_of hp rfl
    | exact rfl | with_reducible apply State.zmpReq_keeps | with_reducible apply State.onRind_keeps
    | with_reducible apply ite_keeps | with_reducible apply foldl_keeps
    | with_reducible refine getD_keeps (fun _ _ => ?_) ?_ | intro _ | cases ‹(_, _) = (_, _)› | cases ‹some _ = some _›
    | cases ‹none = some _›
    | fail_if_no_progress with_reducible refine mk_keeps ?_ rfl rfl rfl (by and_intros <;> first | exact .inr (by with_reducible rfl) | exact .inl (sub_of hp rfl)) | dsimp only | dsimp only at e | split
theorem execMctpControl_keeps_eq {P : ℕ} {s0 s t : State} (hp : 2736659 &&& P = 2736659) {a0 : Src} {a1 : MctpCtl} (e : execMctpControl a0 a1 s = .next t) (h : Keeps P s0 s) : Keeps P s0 t := by
  unfold execMctpControl at e
  repeat' first
    | cases ‹Host.Outcome.next _ = Host.Outcome.next _› | cases ‹Host.Outcome.refused _ = Host.Outcome.next _›
    | cases ‹Host.Outcome.fault _ = Host.Outcome.next _› | split at e | with_reducible assumption | exact sub_of hp rfl
    | exact rfl | with_reducible apply State.mctpControl_keeps | with_reducible apply State.onRind_keeps
    | with_reducible apply ite_keeps | with_reducible apply foldl_keeps
    | with_reducible refine getD_keeps (fun _ _ => ?_) ?_ | intro _ | cases ‹(_, _) = (_, _)› | cases ‹some _ = some _›
    | cases ‹none = some _›
    | fail_if_no_progress with_reducible refine mk_keeps ?_ rfl rfl rfl (by and_intros <;> first | exact .inr (by with_reducible rfl) | exact .inl (sub_of hp rfl)) | dsimp only | dsimp only at e | split
theorem execMctpVendorZmp_keeps_eq {P : ℕ} {s0 s t : State} (hp : 8388123 &&& P = 8388123) {a0 : Src} {a1 : ZmpIn} {a2 : ZmpReq} (e : execMctpVendorZmp a0 a1 a2 s = .next t) (h : Keeps P s0 s) : Keeps P s0 t := by
  unfold execMctpVendorZmp at e
  repeat' first
    | cases ‹Host.Outcome.next _ = Host.Outcome.next _› | cases ‹Host.Outcome.refused _ = Host.Outcome.next _›
    | cases ‹Host.Outcome.fault _ = Host.Outcome.next _› | split at e | with_reducible assumption | exact sub_of hp rfl
    | exact rfl | with_reducible apply State.mctpVendor_keeps | with_reducible apply State.onRind_keeps
    | with_reducible apply ite_keeps | with_reducible apply foldl_keeps
    | with_reducible refine getD_keeps (fun _ _ => ?_) ?_ | intro _ | cases ‹(_, _) = (_, _)› | cases ‹some _ = some _›
    | cases ‹none = some _›
    | fail_if_no_progress with_reducible refine mk_keeps ?_ rfl rfl rfl (by and_intros <;> first | exact .inr (by with_reducible rfl) | exact .inl (sub_of hp rfl)) | dsimp only | dsimp only at e | split
theorem execLeaseExpiry_keeps_eq {P : ℕ} {s0 s t : State} (hp : 2736643 &&& P = 2736643) (e : execLeaseExpiry s = .next t) (h : Keeps P s0 s) : Keeps P s0 t := by
  unfold execLeaseExpiry at e
  repeat' first
    | cases ‹Host.Outcome.next _ = Host.Outcome.next _› | cases ‹Host.Outcome.refused _ = Host.Outcome.next _›
    | cases ‹Host.Outcome.fault _ = Host.Outcome.next _› | split at e | with_reducible assumption | exact sub_of hp rfl
    | exact rfl | with_reducible apply State.loseLease_keeps | with_reducible apply State.onRind_keeps
    | with_reducible apply ite_keeps | with_reducible apply foldl_keeps
    | with_reducible refine getD_keeps (fun _ _ => ?_) ?_ | intro _ | cases ‹(_, _) = (_, _)› | cases ‹some _ = some _›
    | cases ‹none = some _›
    | fail_if_no_progress with_reducible refine mk_keeps ?_ rfl rfl rfl (by and_intros <;> first | exact .inr (by with_reducible rfl) | exact .inl (sub_of hp rfl)) | dsimp only | dsimp only at e | split

/-! ### Machine/Debug -/

theorem State.setIr_keeps {P : ℕ} {s0 s : State} (hp : 16777216 &&& P = 16777216) (h : Keeps P s0 s) (a1 : ℕ) : Keeps P s0 (State.setIr s a1) := by
  unfold State.setIr
  repeat' first
    | with_reducible assumption | exact sub_of hp rfl | exact rfl | with_reducible apply ite_keeps
    | with_reducible apply foldl_keeps | with_reducible refine getD_keeps (fun _ _ => ?_) ?_ | intro _
    | cases ‹(_, _) = (_, _)› | cases ‹some _ = some _› | cases ‹none = some _›
    | fail_if_no_progress with_reducible refine mk_keeps ?_ rfl rfl rfl (by and_intros <;> first | exact .inr (by with_reducible rfl) | exact .inl (sub_of hp rfl)) | dsimp only | split
theorem State.bypass_keeps {P : ℕ} {s0 s : State} (hp : 16 &&& P = 16) (h : Keeps P s0 s) : Keeps P s0 (State.bypass s) := by
  unfold State.bypass
  repeat' first
    | with_reducible assumption | exact sub_of hp rfl | exact rfl | with_reducible apply State.emit_keeps
    | with_reducible apply ite_keeps | with_reducible apply foldl_keeps
    | with_reducible refine getD_keeps (fun _ _ => ?_) ?_ | intro _ | cases ‹(_, _) = (_, _)› | cases ‹some _ = some _›
    | cases ‹none = some _›
    | fail_if_no_progress with_reducible refine mk_keeps ?_ rfl rfl rfl (by and_intros <;> first | exact .inr (by with_reducible rfl) | exact .inl (sub_of hp rfl)) | dsimp only | split
theorem State.jtagRun_keeps {P : ℕ} {s0 s : State} (hp : 16777232 &&& P = 16777232) (h : Keeps P s0 s) (a1 : ℕ) (a2 : Bool) (a3 : State → State) (hk : ∀ t, Keeps P s0 t → Keeps P s0 (a3 t)) : Keeps P s0 (State.jtagRun s a1 a2 a3) := by
  unfold State.jtagRun
  repeat' first
    | with_reducible assumption | exact sub_of hp rfl | exact rfl | apply hk | with_reducible apply State.bypass_keeps
    | with_reducible apply State.setIr_keeps | with_reducible apply State.onRind_keeps | with_reducible apply ite_keeps
    | with_reducible apply foldl_keeps | with_reducible refine getD_keeps (fun _ _ => ?_) ?_ | intro _
    | cases ‹(_, _) = (_, _)› | cases ‹some _ = some _› | cases ‹none = some _›
    | fail_if_no_progress with_reducible refine mk_keeps ?_ rfl rfl rfl (by and_intros <;> first | exact .inr (by with_reducible rfl) | exact .inl (sub_of hp rfl)) | dsimp only | split
theorem State.scan_keeps {P : ℕ} {s0 s : State} (hp : 16777240 &&& P = 16777240) (h : Keeps P s0 s) (a1 : BitVec 9) : Keeps P s0 (State.scan s a1) := by
  unfold State.scan
  repeat' first
    | with_reducible assumption | exact sub_of hp rfl | exact rfl
    | refine State.fresh_keeps_eq (sub_of hp rfl) (by assumption) ?_ | with_reducible apply State.fresh_keeps
    | with_reducible apply State.emit_keeps | with_reducible apply ite_keeps | with_reducible apply foldl_keeps
    | with_reducible refine foldl_snd_keeps ?_ (fun _ _ _ _ => ?_) | with_reducible refine getD_keeps (fun _ _ => ?_) ?_
    | intro _ | cases ‹(_, _) = (_, _)› | cases ‹some _ = some _› | cases ‹none = some _›
    | fail_if_no_progress with_reducible refine mk_keeps ?_ rfl rfl rfl (by and_intros <;> first | exact .inr (by with_reducible rfl) | exact .inl (sub_of hp rfl)) | dsimp only | split
theorem execJtagReset_keeps_eq {P : ℕ} {s0 s t : State} (hp : 16777216 &&& P = 16777216) (e : execJtagReset s = .next t) (h : Keeps P s0 s) : Keeps P s0 t := by
  unfold execJtagReset at e
  repeat' first
    | cases ‹Host.Outcome.next _ = Host.Outcome.next _› | cases ‹Host.Outcome.refused _ = Host.Outcome.next _›
    | cases ‹Host.Outcome.fault _ = Host.Outcome.next _› | split at e | with_reducible assumption | exact sub_of hp rfl
    | exact rfl | with_reducible apply State.setIr_keeps | with_reducible apply State.onRind_keeps
    | with_reducible apply ite_keeps | with_reducible apply foldl_keeps
    | with_reducible refine getD_keeps (fun _ _ => ?_) ?_ | intro _ | cases ‹(_, _) = (_, _)› | cases ‹some _ = some _›
    | cases ‹none = some _›
    | fail_if_no_progress with_reducible refine mk_keeps ?_ rfl rfl rfl (by and_intros <;> first | exact .inr (by with_reducible rfl) | exact .inl (sub_of hp rfl)) | dsimp only | dsimp only at e | split
theorem execJtagIdcode_keeps_eq {P : ℕ} {s0 s t : State} (hp : 16777232 &&& P = 16777232) (e : execJtagIdcode s = .next t) (h : Keeps P s0 s) : Keeps P s0 t := by
  unfold execJtagIdcode at e
  repeat' first
    | cases ‹Host.Outcome.next _ = Host.Outcome.next _› | cases ‹Host.Outcome.refused _ = Host.Outcome.next _›
    | cases ‹Host.Outcome.fault _ = Host.Outcome.next _› | split at e | with_reducible assumption | exact sub_of hp rfl
    | exact rfl | with_reducible apply State.jtagRun_keeps | with_reducible apply State.emit_keeps
    | with_reducible apply ite_keeps | with_reducible apply foldl_keeps
    | with_reducible refine getD_keeps (fun _ _ => ?_) ?_ | intro _ | cases ‹(_, _) = (_, _)› | cases ‹some _ = some _›
    | cases ‹none = some _›
    | fail_if_no_progress with_reducible refine mk_keeps ?_ rfl rfl rfl (by and_intros <;> first | exact .inr (by with_reducible rfl) | exact .inl (sub_of hp rfl)) | dsimp only | dsimp only at e | split
theorem execJtagSamplePreload_keeps_eq {P : ℕ} {s0 s t : State} (hp : 16777240 &&& P = 16777240) {a0 : BitVec 9} (e : execJtagSamplePreload a0 s = .next t) (h : Keeps P s0 s) : Keeps P s0 t := by
  unfold execJtagSamplePreload at e
  repeat' first
    | cases ‹Host.Outcome.next _ = Host.Outcome.next _› | cases ‹Host.Outcome.refused _ = Host.Outcome.next _›
    | cases ‹Host.Outcome.fault _ = Host.Outcome.next _› | split at e | with_reducible assumption | exact sub_of hp rfl
    | exact rfl | with_reducible apply State.jtagRun_keeps | with_reducible apply State.scan_keeps
    | with_reducible apply ite_keeps | with_reducible apply foldl_keeps
    | with_reducible refine getD_keeps (fun _ _ => ?_) ?_ | intro _ | cases ‹(_, _) = (_, _)› | cases ‹some _ = some _›
    | cases ‹none = some _›
    | fail_if_no_progress with_reducible refine mk_keeps ?_ rfl rfl rfl (by and_intros <;> first | exact .inr (by with_reducible rfl) | exact .inl (sub_of hp rfl)) | dsimp only | dsimp only at e | split
theorem execJtagExtest_keeps_eq {P : ℕ} {s0 s t : State} (hp : 16777240 &&& P = 16777240) {a0 : BitVec 9} (e : execJtagExtest a0 s = .next t) (h : Keeps P s0 s) : Keeps P s0 t := by
  unfold execJtagExtest at e
  repeat' first
    | cases ‹Host.Outcome.next _ = Host.Outcome.next _› | cases ‹Host.Outcome.refused _ = Host.Outcome.next _›
    | cases ‹Host.Outcome.fault _ = Host.Outcome.next _› | split at e | with_reducible assumption | exact sub_of hp rfl
    | exact rfl | with_reducible apply State.jtagRun_keeps | with_reducible apply State.scan_keeps
    | with_reducible apply ite_keeps | with_reducible apply foldl_keeps
    | with_reducible refine getD_keeps (fun _ _ => ?_) ?_ | intro _ | cases ‹(_, _) = (_, _)› | cases ‹some _ = some _›
    | cases ‹none = some _›
    | fail_if_no_progress with_reducible refine mk_keeps ?_ rfl rfl rfl (by and_intros <;> first | exact .inr (by with_reducible rfl) | exact .inl (sub_of hp rfl)) | dsimp only | dsimp only at e | split
theorem execJtagClamp_keeps_eq {P : ℕ} {s0 s t : State} (hp : 16777232 &&& P = 16777232) (e : execJtagClamp s = .next t) (h : Keeps P s0 s) : Keeps P s0 t := by
  unfold execJtagClamp at e
  repeat' first
    | cases ‹Host.Outcome.next _ = Host.Outcome.next _› | cases ‹Host.Outcome.refused _ = Host.Outcome.next _›
    | cases ‹Host.Outcome.fault _ = Host.Outcome.next _› | split at e | with_reducible assumption | exact sub_of hp rfl
    | exact rfl | with_reducible apply State.jtagRun_keeps | with_reducible apply State.emit_keeps
    | with_reducible apply ite_keeps | with_reducible apply foldl_keeps
    | with_reducible refine getD_keeps (fun _ _ => ?_) ?_ | intro _ | cases ‹(_, _) = (_, _)› | cases ‹some _ = some _›
    | cases ‹none = some _›
    | fail_if_no_progress with_reducible refine mk_keeps ?_ rfl rfl rfl (by and_intros <;> first | exact .inr (by with_reducible rfl) | exact .inl (sub_of hp rfl)) | dsimp only | dsimp only at e | split
theorem execJtagHighz_keeps_eq {P : ℕ} {s0 s t : State} (hp : 16777232 &&& P = 16777232) (e : execJtagHighz s = .next t) (h : Keeps P s0 s) : Keeps P s0 t := by
  unfold execJtagHighz at e
  repeat' first
    | cases ‹Host.Outcome.next _ = Host.Outcome.next _› | cases ‹Host.Outcome.refused _ = Host.Outcome.next _›
    | cases ‹Host.Outcome.fault _ = Host.Outcome.next _› | split at e | with_reducible assumption | exact sub_of hp rfl
    | exact rfl | with_reducible apply State.jtagRun_keeps | with_reducible apply State.emit_keeps
    | with_reducible apply ite_keeps | with_reducible apply foldl_keeps
    | with_reducible refine getD_keeps (fun _ _ => ?_) ?_ | intro _ | cases ‹(_, _) = (_, _)› | cases ‹some _ = some _›
    | cases ‹none = some _›
    | fail_if_no_progress with_reducible refine mk_keeps ?_ rfl rfl rfl (by and_intros <;> first | exact .inr (by with_reducible rfl) | exact .inl (sub_of hp rfl)) | dsimp only | dsimp only at e | split
theorem execJtagBypass_keeps_eq {P : ℕ} {s0 s t : State} (hp : 16777232 &&& P = 16777232) (e : execJtagBypass s = .next t) (h : Keeps P s0 s) : Keeps P s0 t := by
  unfold execJtagBypass at e
  repeat' first
    | cases ‹Host.Outcome.next _ = Host.Outcome.next _› | cases ‹Host.Outcome.refused _ = Host.Outcome.next _›
    | cases ‹Host.Outcome.fault _ = Host.Outcome.next _› | split at e | with_reducible assumption | exact sub_of hp rfl
    | exact rfl | with_reducible apply State.bypass_keeps | with_reducible apply State.jtagRun_keeps
    | with_reducible apply ite_keeps | with_reducible apply foldl_keeps
    | with_reducible refine getD_keeps (fun _ _ => ?_) ?_ | intro _ | cases ‹(_, _) = (_, _)› | cases ‹some _ = some _›
    | cases ‹none = some _›
    | fail_if_no_progress with_reducible refine mk_keeps ?_ rfl rfl rfl (by and_intros <;> first | exact .inr (by with_reducible rfl) | exact .inl (sub_of hp rfl)) | dsimp only | dsimp only at e | split
theorem State.dbgShift_keeps {P : ℕ} {s0 s : State} (hp : 18 &&& P = 18) (h : Keeps P s0 s) : Keeps P s0 (State.dbgShift s) := by
  unfold State.dbgShift
  repeat' first
    | with_reducible assumption | exact sub_of hp rfl | exact rfl | with_reducible apply State.inc_keeps
    | with_reducible apply State.emit_keeps | with_reducible apply ite_keeps | with_reducible apply foldl_keeps
    | with_reducible refine getD_keeps (fun _ _ => ?_) ?_ | intro _ | cases ‹(_, _) = (_, _)› | cases ‹some _ = some _›
    | cases ‹none = some _›
    | fail_if_no_progress with_reducible refine mk_keeps ?_ rfl rfl rfl (by and_intros <;> first | exact .inr (by with_reducible rfl) | exact .inl (sub_of hp rfl)) | dsimp only | split
theorem execDbgAccRead_keeps_eq {P : ℕ} {s0 s t : State} (hp : 16795674 &&& P = 16795674) {a0 : BitVec 32} (e : execDbgAccRead a0 s = .next t) (h : Keeps P s0 s) : Keeps P s0 t := by
  unfold execDbgAccRead at e
  repeat' first
    | cases ‹Host.Outcome.next _ = Host.Outcome.next _› | cases ‹Host.Outcome.refused _ = Host.Outcome.next _›
    | cases ‹Host.Outcome.fault _ = Host.Outcome.next _› | split at e | with_reducible assumption | exact sub_of hp rfl
    | exact rfl | refine State.readBy_keeps_eq (sub_of hp rfl) (by assumption) ?_
    | with_reducible apply State.readBy_keeps | with_reducible apply State.jtagRun_keeps
    | with_reducible apply State.dbgShift_keeps | with_reducible apply ite_keeps | with_reducible apply foldl_keeps
    | with_reducible refine foldl_snd_keeps ?_ (fun _ _ _ _ => ?_) | with_reducible refine getD_keeps (fun _ _ => ?_) ?_
    | intro _ | cases ‹(_, _) = (_, _)› | cases ‹some _ = some _› | cases ‹none = some _›
    | fail_if_no_progress with_reducible refine mk_keeps ?_ rfl rfl rfl (by and_intros <;> first | exact .inr (by with_reducible rfl) | exact .inl (sub_of hp rfl)) | dsimp only | dsimp only at e | split
theorem execDbgAccWrite_keeps_eq {P : ℕ} {s0 s t : State} (hp : 25165339 &&& P = 25165339) {a0 : BitVec 32} {a1 : Word} (e : execDbgAccWrite a0 a1 s = .next t) (h : Keeps P s0 s) : Keeps P s0 t := by
  unfold execDbgAccWrite at e
  repeat' first
    | cases ‹Host.Outcome.next _ = Host.Outcome.next _› | cases ‹Host.Outcome.refused _ = Host.Outcome.next _›
    | cases ‹Host.Outcome.fault _ = Host.Outcome.next _› | split at e | with_reducible assumption | exact sub_of hp rfl
    | exact rfl | with_reducible apply State.writeDraw_keeps | with_reducible apply State.jtagRun_keeps
    | with_reducible apply State.dbgShift_keeps | with_reducible apply ite_keeps | with_reducible apply foldl_keeps
    | with_reducible refine getD_keeps (fun _ _ => ?_) ?_ | intro _ | cases ‹(_, _) = (_, _)› | cases ‹some _ = some _›
    | cases ‹none = some _›
    | fail_if_no_progress with_reducible refine mk_keeps ?_ rfl rfl rfl (by and_intros <;> first | exact .inr (by with_reducible rfl) | exact .inl (sub_of hp rfl)) | dsimp only | dsimp only at e | split
theorem State.spDo_keeps {P : ℕ} {s0 s : State} (hp : 16777240 &&& P = 16777240) (h : Keeps P s0 s) (a1 : Die) (a2 : SpOp) : Keeps P s0 (State.spDo s a1 a2) := by
  unfold State.spDo
  repeat' first
    | with_reducible assumption | exact sub_of hp rfl | exact rfl
    | refine State.fresh_keeps_eq (sub_of hp rfl) (by assumption) ?_ | with_reducible apply State.fresh_keeps
    | with_reducible apply State.emit_keeps | with_reducible apply ite_keeps | with_reducible apply foldl_keeps
    | with_reducible refine foldl_snd_keeps ?_ (fun _ _ _ _ => ?_) | with_reducible refine getD_keeps (fun _ _ => ?_) ?_
    | intro _ | cases ‹(_, _) = (_, _)› | cases ‹some _ = some _› | cases ‹none = some _›
    | fail_if_no_progress with_reducible refine mk_keeps ?_ rfl rfl rfl (by and_intros <;> first | exact .inr (by with_reducible rfl) | exact .inl (sub_of hp rfl)) | dsimp only | split
theorem execDbgSp_keeps_eq {P : ℕ} {s0 s t : State} (hp : 16777240 &&& P = 16777240) {a0 : Fin 2} {a1 : SpOp} (e : execDbgSp a0 a1 s = .next t) (h : Keeps P s0 s) : Keeps P s0 t := by
  unfold execDbgSp at e
  repeat' first
    | cases ‹Host.Outcome.next _ = Host.Outcome.next _› | cases ‹Host.Outcome.refused _ = Host.Outcome.next _›
    | cases ‹Host.Outcome.fault _ = Host.Outcome.next _› | split at e | with_reducible assumption | exact sub_of hp rfl
    | exact rfl | with_reducible apply State.jtagRun_keeps | with_reducible apply State.spDo_keeps
    | with_reducible apply ite_keeps | with_reducible apply foldl_keeps
    | with_reducible refine getD_keeps (fun _ _ => ?_) ?_ | intro _ | cases ‹(_, _) = (_, _)› | cases ‹some _ = some _›
    | cases ‹none = some _›
    | fail_if_no_progress with_reducible refine mk_keeps ?_ rfl rfl rfl (by and_intros <;> first | exact .inr (by with_reducible rfl) | exact .inl (sub_of hp rfl)) | dsimp only | dsimp only at e | split
theorem State.fuseProg_keeps {P : ℕ} {s0 s : State} (hp : 278538 &&& P = 278538) (h : Keeps P s0 s) (a1 : Burn) : Keeps P s0 (State.fuseProg s a1) := by
  unfold State.fuseProg
  refine ite_keeps (fun _ => h) fun _ => ?_
  have h1 : Keeps P s0 (match s.img.rootKey with
      | some _ => s
      | none =>
        let (n, s) := s.fresh
        { s with img.rootKey := some n }.drawWords F.PKG_SERIAL_SERIAL 2) := by
    split
    · exact h
    · rename_i e
      have h' := State.fresh_keeps (sub_of hp rfl) h
      refine State.drawWords_keeps (sub_of hp rfl) (s := { s.fresh.2 with img.rootKey := some s.fresh.1 }) ⟨h'.queue, h'.mode, h'.regs, h'.nor, h'.therm,
        h'.answers, h'.signs, fun k x => ?_, h'.more 262144 (hm := sub_of hp rfl)⟩ _ _
      have h2 := h.key k x
      rw [e] at h2
      cases h2
  exact ite_keeps (fun _ => State.burned_keeps (sub_of hp rfl) h1 _ _) fun _ => State.setLc_keeps (sub_of hp rfl) (State.burned_keeps (sub_of hp rfl) h1 _ _) _ _ _ _
theorem execFuseProg_keeps_eq {P : ℕ} {s0 s t : State} (hp : 17055770 &&& P = 17055770) {a0 : Burn} (e : execFuseProg a0 s = .next t) (h : Keeps P s0 s) : Keeps P s0 t := by
  unfold execFuseProg at e
  repeat' first
    | cases ‹Host.Outcome.next _ = Host.Outcome.next _› | cases ‹Host.Outcome.refused _ = Host.Outcome.next _›
    | cases ‹Host.Outcome.fault _ = Host.Outcome.next _› | split at e | with_reducible assumption | exact sub_of hp rfl
    | exact rfl | with_reducible apply State.jtagRun_keeps | with_reducible apply State.fuseProg_keeps
    | with_reducible apply ite_keeps | with_reducible apply foldl_keeps
    | with_reducible refine getD_keeps (fun _ _ => ?_) ?_ | intro _ | cases ‹(_, _) = (_, _)› | cases ‹some _ = some _›
    | cases ‹none = some _›
    | fail_if_no_progress with_reducible refine mk_keeps ?_ rfl rfl rfl (by and_intros <;> first | exact .inr (by with_reducible rfl) | exact .inl (sub_of hp rfl)) | dsimp only | dsimp only at e | split
theorem execMakerPrivate_keeps_eq {P : ℕ} {s0 s t : State} (hp : 16777232 &&& P = 16777232) {a0 : Fin 127} (e : execMakerPrivate a0 s = .next t) (h : Keeps P s0 s) : Keeps P s0 t := by
  unfold execMakerPrivate at e
  split at e
  · cases e
  · cases e
    exact State.jtagRun_keeps (sub_of hp rfl) h _ _ _ fun u k => k
theorem State.spdmAt_keeps {P : ℕ} {s0 s : State} (hp : 0 &&& P = 0) (h : Keeps P s0 s) (a1 : Cell) (a2 : State → State) (hk : ∀ t, Keeps P s0 t → Keeps P s0 (a2 t)) : Keeps P s0 (State.spdmAt s a1 a2) := by
  unfold State.spdmAt
  repeat' first
    | with_reducible assumption | exact sub_of hp rfl | exact rfl | apply hk | with_reducible apply ite_keeps
    | with_reducible apply foldl_keeps | with_reducible refine getD_keeps (fun _ _ => ?_) ?_ | intro _
    | cases ‹(_, _) = (_, _)› | cases ‹some _ = some _› | cases ‹none = some _›
    | fail_if_no_progress with_reducible refine mk_keeps ?_ rfl rfl rfl (by and_intros <;> first | exact .inr (by with_reducible rfl) | exact .inl (sub_of hp rfl)) | dsimp only | split
theorem State.spdmSign_keeps {P : ℕ} {s0 s : State} (hp : 33554448 &&& P = 33554448) (h : Keeps P s0 s) (a1 : Cell) (a2 : SignFor) : Keeps P s0 (State.spdmSign s a1 a2) := by
  unfold State.spdmSign
  refine ite_keeps (fun _ => State.emit_keeps (sub_of hp rfl) h _) fun _ => ite_keeps (fun _ => State.emit_keeps (sub_of hp rfl) h _) fun k => ?_
  exact ⟨h.queue, h.mode, h.regs, h.nor, h.therm, h.answers, fun _ => by
    show (s.spdm.queue ++ [(a1, a2)]).length ≤ 16
    simp only [List.length_append, List.length_singleton]
    omega, h.key, h.more 33554432 (hm := sub_of hp rfl)⟩
theorem execSpdmGetVersion_keeps_eq {P : ℕ} {s0 s t : State} (hp : 16 &&& P = 16) {a0 : Cell} (e : execSpdmGetVersion a0 s = .next t) (h : Keeps P s0 s) : Keeps P s0 t := by
  unfold execSpdmGetVersion at e
  repeat' first
    | cases ‹Host.Outcome.next _ = Host.Outcome.next _› | cases ‹Host.Outcome.refused _ = Host.Outcome.next _›
    | cases ‹Host.Outcome.fault _ = Host.Outcome.next _› | split at e | with_reducible assumption | exact sub_of hp rfl
    | exact rfl | with_reducible apply State.spdmAt_keeps | with_reducible apply State.emit_keeps
    | with_reducible apply ite_keeps | with_reducible apply foldl_keeps
    | with_reducible refine getD_keeps (fun _ _ => ?_) ?_ | intro _ | cases ‹(_, _) = (_, _)› | cases ‹some _ = some _›
    | cases ‹none = some _›
    | fail_if_no_progress with_reducible refine mk_keeps ?_ rfl rfl rfl (by and_intros <;> first | exact .inr (by with_reducible rfl) | exact .inl (sub_of hp rfl)) | dsimp only | dsimp only at e | split
theorem execSpdmGetCapabilities_keeps_eq {P : ℕ} {s0 s t : State} (hp : 16 &&& P = 16) {a0 : Cell} (e : execSpdmGetCapabilities a0 s = .next t) (h : Keeps P s0 s) : Keeps P s0 t := by
  unfold execSpdmGetCapabilities at e
  repeat' first
    | cases ‹Host.Outcome.next _ = Host.Outcome.next _› | cases ‹Host.Outcome.refused _ = Host.Outcome.next _›
    | cases ‹Host.Outcome.fault _ = Host.Outcome.next _› | split at e | with_reducible assumption | exact sub_of hp rfl
    | exact rfl | with_reducible apply State.spdmAt_keeps | with_reducible apply State.emit_keeps
    | with_reducible apply ite_keeps | with_reducible apply foldl_keeps
    | with_reducible refine getD_keeps (fun _ _ => ?_) ?_ | intro _ | cases ‹(_, _) = (_, _)› | cases ‹some _ = some _›
    | cases ‹none = some _›
    | fail_if_no_progress with_reducible refine mk_keeps ?_ rfl rfl rfl (by and_intros <;> first | exact .inr (by with_reducible rfl) | exact .inl (sub_of hp rfl)) | dsimp only | dsimp only at e | split
theorem execSpdmNegotiateAlgorithms_keeps_eq {P : ℕ} {s0 s t : State} (hp : 16 &&& P = 16) {a0 : Cell} (e : execSpdmNegotiateAlgorithms a0 s = .next t) (h : Keeps P s0 s) : Keeps P s0 t := by
  unfold execSpdmNegotiateAlgorithms at e
  repeat' first
    | cases ‹Host.Outcome.next _ = Host.Outcome.next _› | cases ‹Host.Outcome.refused _ = Host.Outcome.next _›
    | cases ‹Host.Outcome.fault _ = Host.Outcome.next _› | split at e | with_reducible assumption | exact sub_of hp rfl
    | exact rfl | with_reducible apply State.spdmAt_keeps | with_reducible apply State.emit_keeps
    | with_reducible apply ite_keeps | with_reducible apply foldl_keeps
    | with_reducible refine getD_keeps (fun _ _ => ?_) ?_ | intro _ | cases ‹(_, _) = (_, _)› | cases ‹some _ = some _›
    | cases ‹none = some _›
    | fail_if_no_progress with_reducible refine mk_keeps ?_ rfl rfl rfl (by and_intros <;> first | exact .inr (by with_reducible rfl) | exact .inl (sub_of hp rfl)) | dsimp only | dsimp only at e | split
theorem execSpdmGetCertificate_keeps_eq {P : ℕ} {s0 s t : State} (hp : 16 &&& P = 16) {a0 : Cell} {a1 : Fin 8} (e : execSpdmGetCertificate a0 a1 s = .next t) (h : Keeps P s0 s) : Keeps P s0 t := by
  unfold execSpdmGetCertificate at e
  repeat' first
    | cases ‹Host.Outcome.next _ = Host.Outcome.next _› | cases ‹Host.Outcome.refused _ = Host.Outcome.next _›
    | cases ‹Host.Outcome.fault _ = Host.Outcome.next _› | split at e | with_reducible assumption | exact sub_of hp rfl
    | exact rfl | with_reducible apply State.spdmAt_keeps | with_reducible apply State.emit_keeps
    | with_reducible apply ite_keeps | with_reducible apply foldl_keeps
    | with_reducible refine getD_keeps (fun _ _ => ?_) ?_ | intro _ | cases ‹(_, _) = (_, _)› | cases ‹some _ = some _›
    | cases ‹none = some _›
    | fail_if_no_progress with_reducible refine mk_keeps ?_ rfl rfl rfl (by and_intros <;> first | exact .inr (by with_reducible rfl) | exact .inl (sub_of hp rfl)) | dsimp only | dsimp only at e | split
theorem execSpdmChallenge_keeps_eq {P : ℕ} {s0 s t : State} (hp : 33554448 &&& P = 33554448) {a0 : Cell} (e : execSpdmChallenge a0 s = .next t) (h : Keeps P s0 s) : Keeps P s0 t := by
  unfold execSpdmChallenge at e
  repeat' first
    | cases ‹Host.Outcome.next _ = Host.Outcome.next _› | cases ‹Host.Outcome.refused _ = Host.Outcome.next _›
    | cases ‹Host.Outcome.fault _ = Host.Outcome.next _› | split at e | with_reducible assumption | exact sub_of hp rfl
    | exact rfl | with_reducible apply State.spdmAt_keeps | with_reducible apply State.spdmSign_keeps
    | with_reducible apply ite_keeps | with_reducible apply foldl_keeps
    | with_reducible refine getD_keeps (fun _ _ => ?_) ?_ | intro _ | cases ‹(_, _) = (_, _)› | cases ‹some _ = some _›
    | cases ‹none = some _›
    | fail_if_no_progress with_reducible refine mk_keeps ?_ rfl rfl rfl (by and_intros <;> first | exact .inr (by with_reducible rfl) | exact .inl (sub_of hp rfl)) | dsimp only | dsimp only at e | split
theorem execSpdmGetMeasurements_keeps_eq {P : ℕ} {s0 s t : State} (hp : 33554448 &&& P = 33554448) {a0 : Cell} {a1 : Fin 256} {a2 : Bool} (e : execSpdmGetMeasurements a0 a1 a2 s = .next t) (h : Keeps P s0 s) : Keeps P s0 t := by
  unfold execSpdmGetMeasurements at e
  repeat' first
    | cases ‹Host.Outcome.next _ = Host.Outcome.next _› | cases ‹Host.Outcome.refused _ = Host.Outcome.next _›
    | cases ‹Host.Outcome.fault _ = Host.Outcome.next _› | split at e | with_reducible assumption | exact sub_of hp rfl
    | exact rfl | with_reducible apply State.spdmAt_keeps | with_reducible apply State.spdmSign_keeps
    | with_reducible apply State.emit_keeps | with_reducible apply ite_keeps | with_reducible apply foldl_keeps
    | with_reducible refine getD_keeps (fun _ _ => ?_) ?_ | intro _ | cases ‹(_, _) = (_, _)› | cases ‹some _ = some _›
    | cases ‹none = some _›
    | fail_if_no_progress with_reducible refine mk_keeps ?_ rfl rfl rfl (by and_intros <;> first | exact .inr (by with_reducible rfl) | exact .inl (sub_of hp rfl)) | dsimp only | dsimp only at e | split
theorem execSpdmKeyExchange_keeps_eq {P : ℕ} {s0 s t : State} (hp : 33554448 &&& P = 33554448) {a0 : Cell} (e : execSpdmKeyExchange a0 s = .next t) (h : Keeps P s0 s) : Keeps P s0 t := by
  unfold execSpdmKeyExchange at e
  repeat' first
    | cases ‹Host.Outcome.next _ = Host.Outcome.next _› | cases ‹Host.Outcome.refused _ = Host.Outcome.next _›
    | cases ‹Host.Outcome.fault _ = Host.Outcome.next _› | split at e | with_reducible assumption | exact sub_of hp rfl
    | exact rfl | with_reducible apply State.spdmAt_keeps | with_reducible apply State.spdmSign_keeps
    | with_reducible apply ite_keeps | with_reducible apply foldl_keeps
    | with_reducible refine getD_keeps (fun _ _ => ?_) ?_ | intro _ | cases ‹(_, _) = (_, _)› | cases ‹some _ = some _›
    | cases ‹none = some _›
    | fail_if_no_progress with_reducible refine mk_keeps ?_ rfl rfl rfl (by and_intros <;> first | exact .inr (by with_reducible rfl) | exact .inl (sub_of hp rfl)) | dsimp only | dsimp only at e | split
theorem execSpdmSignComplete_keeps_eq {P : ℕ} {s0 s t : State} (hp : 33554448 &&& P = 33554448) (e : execSpdmSignComplete s = .next t) (h : Keeps P s0 s) : Keeps P s0 t := by
  unfold execSpdmSignComplete at e
  cases e
  split
  · exact h
  · rename_i a g l e
    have h1 : Keeps P s0 { s with spdm.queue := l } := ⟨h.queue, h.mode, h.regs, h.nor, h.therm, h.answers, fun x => by
      have := h.signs x
      rw [e] at this
      exact Nat.le_of_succ_le this, h.key, h.more 33554432 (hm := sub_of hp rfl)⟩
    dsimp only
    split
    · exact State.emit_keeps (sub_of hp rfl) h1 _
    · exact State.emit_keeps (sub_of hp rfl) h1 _
    · exact State.emit_keeps (sub_of hp rfl) (s := { s with
        spdm.queue := l
        spdm.sessions := if s.spdm.sessions.contains a then s.spdm.sessions else a :: s.spdm.sessions }) ⟨h1.queue, h1.mode, h1.regs, h1.nor, h1.therm, h1.answers, h1.signs, h1.key, h1.more 33554432 (hm := sub_of hp rfl)⟩ _

/-! ### Machine/Counter -/

theorem State.ctrCount_keeps {P : ℕ} {s0 s : State} (hp : 4194306 &&& P = 4194306) (h : Keeps P s0 s) (a1 : Cell) (a2 : ℕ) (a3 : ℕ) : Keeps P s0 (State.ctrCount s a1 a2 a3) := by
  unfold State.ctrCount
  repeat' first
    | with_reducible assumption | exact sub_of hp rfl | exact rfl | with_reducible apply State.ctrAdd_keeps
    | with_reducible apply ite_keeps | with_reducible apply foldl_keeps
    | with_reducible refine getD_keeps (fun _ _ => ?_) ?_ | intro _ | cases ‹(_, _) = (_, _)› | cases ‹some _ = some _›
    | cases ‹none = some _›
    | fail_if_no_progress with_reducible refine mk_keeps ?_ rfl rfl rfl (by and_intros <;> first | exact .inr (by with_reducible rfl) | exact .inl (sub_of hp rfl)) | dsimp only | split
theorem execCtrOverflow_keeps_eq {P : ℕ} {s0 s t : State} (hp : 4194306 &&& P = 4194306) {a0 : Cell} {a1 : Fin 8} {a2 : Fin 1025} (e : execCtrOverflow a0 a1 a2 s = .next t) (h : Keeps P s0 s) : Keeps P s0 t := by
  unfold execCtrOverflow at e
  repeat' first
    | cases ‹Host.Outcome.next _ = Host.Outcome.next _› | cases ‹Host.Outcome.refused _ = Host.Outcome.next _›
    | cases ‹Host.Outcome.fault _ = Host.Outcome.next _› | split at e | with_reducible assumption | exact sub_of hp rfl
    | exact rfl | with_reducible apply State.ctrCount_keeps | with_reducible apply ite_keeps
    | with_reducible apply foldl_keeps | with_reducible refine getD_keeps (fun _ _ => ?_) ?_ | intro _
    | cases ‹(_, _) = (_, _)› | cases ‹some _ = some _› | cases ‹none = some _›
    | fail_if_no_progress with_reducible refine mk_keeps ?_ rfl rfl rfl (by and_intros <;> first | exact .inr (by with_reducible rfl) | exact .inl (sub_of hp rfl)) | dsimp only | dsimp only at e | split
theorem State.ctrRing_keeps {P : ℕ} {s0 s : State} (hp : 2 &&& P = 2) (h : Keeps P s0 s) (a1 : Cell) (a2 : List ℕ) : Keeps P s0 (State.ctrRing s a1 a2) := by
  unfold State.ctrRing
  repeat' first
    | with_reducible assumption | exact sub_of hp rfl | exact rfl | with_reducible apply State.wr_keeps
    | with_reducible apply State.sat_keeps | with_reducible apply ite_keeps | with_reducible apply foldl_keeps
    | with_reducible refine getD_keeps (fun _ _ => ?_) ?_ | intro _ | cases ‹(_, _) = (_, _)› | cases ‹some _ = some _›
    | cases ‹none = some _›
    | fail_if_no_progress with_reducible refine mk_keeps ?_ rfl rfl rfl (by and_intros <;> first | exact .inr (by with_reducible rfl) | exact .inl (sub_of hp rfl)) | dsimp only | split
theorem execCtrCapture_keeps_eq {P : ℕ} {s0 s t : State} (hp : 4198418 &&& P = 4198418) {a0 : Cell} {a1 : Bool} (e : execCtrCapture a0 a1 s = .next t) (h : Keeps P s0 s) : Keeps P s0 t := by
  unfold execCtrCapture at e
  repeat' first
    | cases ‹Host.Outcome.next _ = Host.Outcome.next _› | cases ‹Host.Outcome.refused _ = Host.Outcome.next _›
    | cases ‹Host.Outcome.fault _ = Host.Outcome.next _› | split at e | with_reducible assumption | exact sub_of hp rfl
    | exact rfl | with_reducible apply State.ctrRing_keeps | with_reducible apply State.inc_keeps
    | with_reducible apply State.sendHist_keeps | with_reducible apply ite_keeps | with_reducible apply foldl_keeps
    | with_reducible refine getD_keeps (fun _ _ => ?_) ?_ | intro _ | cases ‹(_, _) = (_, _)› | cases ‹some _ = some _›
    | cases ‹none = some _›
    | fail_if_no_progress with_reducible refine mk_keeps ?_ rfl rfl rfl (by and_intros <;> first | exact .inr (by with_reducible rfl) | exact .inl (sub_of hp rfl)) | dsimp only | dsimp only at e | split
theorem execCtrValWrite_keeps_eq {P : ℕ} {s0 s t : State} (hp : 8388123 &&& P = 8388123) {a0 : Src} {a1 : Cell} {a2 : Fin 8} {a3 : BitVec 32} {a4 : Fin 1025} (e : execCtrValWrite a0 a1 a2 a3 a4 s = .next t) (h : Keeps P s0 s) : Keeps P s0 t := by
  unfold execCtrValWrite at e
  repeat' first
    | cases ‹Host.Outcome.next _ = Host.Outcome.next _› | cases ‹Host.Outcome.refused _ = Host.Outcome.next _›
    | cases ‹Host.Outcome.fault _ = Host.Outcome.next _› | split at e | with_reducible assumption | exact sub_of hp rfl
    | exact rfl | with_reducible apply State.ctrCount_keeps | with_reducible apply State.writeReg_keeps
    | with_reducible apply ite_keeps | with_reducible apply foldl_keeps
    | with_reducible refine getD_keeps (fun _ _ => ?_) ?_ | intro _ | cases ‹(_, _) = (_, _)› | cases ‹some _ = some _›
    | cases ‹none = some _›
    | fail_if_no_progress with_reducible refine mk_keeps ?_ rfl rfl rfl (by and_intros <;> first | exact .inr (by with_reducible rfl) | exact .inl (sub_of hp rfl)) | dsimp only | dsimp only at e | split
theorem execCtrPairWrite_keeps_eq {P : ℕ} {s0 s t : State} (hp : 8388123 &&& P = 8388123) {a0 : Src} {a1 : Cell} {a2 : Fin 4} {a3 : Word} {a4 : Fin 1025} {a5 : Fin 1025} (e : execCtrPairWrite a0 a1 a2 a3 a4 a5 s = .next t) (h : Keeps P s0 s) : Keeps P s0 t := by
  unfold execCtrPairWrite at e
  repeat' first
    | cases ‹Host.Outcome.next _ = Host.Outcome.next _› | cases ‹Host.Outcome.refused _ = Host.Outcome.next _›
    | cases ‹Host.Outcome.fault _ = Host.Outcome.next _› | split at e | with_reducible assumption | exact sub_of hp rfl
    | exact rfl | with_reducible apply State.ctrCount_keeps | with_reducible apply State.writeReg_keeps
    | with_reducible apply ite_keeps | with_reducible apply foldl_keeps
    | with_reducible refine getD_keeps (fun _ _ => ?_) ?_ | intro _ | cases ‹(_, _) = (_, _)› | cases ‹some _ = some _›
    | cases ‹none = some _›
    | fail_if_no_progress with_reducible refine mk_keeps ?_ rfl rfl rfl (by and_intros <;> first | exact .inr (by with_reducible rfl) | exact .inl (sub_of hp rfl)) | dsimp only | dsimp only at e | split
theorem State.ctrCtl_keeps {P : ℕ} {s0 s : State} (hp : 8388123 &&& P = 8388123) (h : Keeps P s0 s) (a1 : Src) (a2 : Cell) (a3 : ℕ) (a4 : ℕ) : Keeps P s0 (State.ctrCtl s a1 a2 a3 a4) := by
  unfold State.ctrCtl
  repeat' first
    | with_reducible assumption | exact sub_of hp rfl | exact rfl | with_reducible apply State.writeReg_keeps
    | with_reducible apply ite_keeps | with_reducible apply foldl_keeps
    | with_reducible refine getD_keeps (fun _ _ => ?_) ?_ | intro _ | cases ‹(_, _) = (_, _)› | cases ‹some _ = some _›
    | cases ‹none = some _›
    | fail_if_no_progress with_reducible refine mk_keeps ?_ rfl rfl rfl (by and_intros <;> first | exact .inr (by with_reducible rfl) | exact .inl (sub_of hp rfl)) | dsimp only | split
theorem execCtrFreezeWrite_keeps_eq {P : ℕ} {s0 s t : State} (hp : 8388123 &&& P = 8388123) {a0 : Src} {a1 : Cell} {a2 : Bool} (e : execCtrFreezeWrite a0 a1 a2 s = .next t) (h : Keeps P s0 s) : Keeps P s0 t := by
  unfold execCtrFreezeWrite at e
  repeat' first
    | cases ‹Host.Outcome.next _ = Host.Outcome.next _› | cases ‹Host.Outcome.refused _ = Host.Outcome.next _›
    | cases ‹Host.Outcome.fault _ = Host.Outcome.next _› | split at e | with_reducible assumption | exact sub_of hp rfl
    | exact rfl | with_reducible apply State.ctrCtl_keeps | with_reducible apply ite_keeps
    | with_reducible apply foldl_keeps | with_reducible refine getD_keeps (fun _ _ => ?_) ?_ | intro _
    | cases ‹(_, _) = (_, _)› | cases ‹some _ = some _› | cases ‹none = some _›
    | fail_if_no_progress with_reducible refine mk_keeps ?_ rfl rfl rfl (by and_intros <;> first | exact .inr (by with_reducible rfl) | exact .inl (sub_of hp rfl)) | dsimp only | dsimp only at e | split
theorem execCtrSnap_keeps_eq {P : ℕ} {s0 s t : State} (hp : 8388123 &&& P = 8388123) {a0 : Src} {a1 : Cell} (e : execCtrSnap a0 a1 s = .next t) (h : Keeps P s0 s) : Keeps P s0 t := by
  unfold execCtrSnap at e
  repeat' first
    | cases ‹Host.Outcome.next _ = Host.Outcome.next _› | cases ‹Host.Outcome.refused _ = Host.Outcome.next _›
    | cases ‹Host.Outcome.fault _ = Host.Outcome.next _› | split at e | with_reducible assumption | exact sub_of hp rfl
    | exact rfl | with_reducible apply State.ctrCtl_keeps | with_reducible apply ite_keeps
    | with_reducible apply foldl_keeps | with_reducible refine getD_keeps (fun _ _ => ?_) ?_ | intro _
    | cases ‹(_, _) = (_, _)› | cases ‹some _ = some _› | cases ‹none = some _›
    | fail_if_no_progress with_reducible refine mk_keeps ?_ rfl rfl rfl (by and_intros <;> first | exact .inr (by with_reducible rfl) | exact .inl (sub_of hp rfl)) | dsimp only | dsimp only at e | split
theorem execCtrSnapAtReached_keeps_eq {P : ℕ} {s0 s t : State} (hp : 2 &&& P = 2) {a0 : Cell} (e : execCtrSnapAtReached a0 s = .next t) (h : Keeps P s0 s) : Keeps P s0 t := by
  unfold execCtrSnapAtReached at e
  repeat' first
    | cases ‹Host.Outcome.next _ = Host.Outcome.next _› | cases ‹Host.Outcome.refused _ = Host.Outcome.next _›
    | cases ‹Host.Outcome.fault _ = Host.Outcome.next _› | split at e | with_reducible assumption | exact sub_of hp rfl
    | exact rfl | with_reducible apply State.wr_keeps | with_reducible apply State.ctrSnap_keeps
    | with_reducible apply ite_keeps | with_reducible apply foldl_keeps
    | with_reducible refine getD_keeps (fun _ _ => ?_) ?_ | intro _ | cases ‹(_, _) = (_, _)› | cases ‹some _ = some _›
    | cases ‹none = some _›
    | fail_if_no_progress with_reducible refine mk_keeps ?_ rfl rfl rfl (by and_intros <;> first | exact .inr (by with_reducible rfl) | exact .inl (sub_of hp rfl)) | dsimp only | dsimp only at e | split
theorem State.tenantSnap_keeps {P : ℕ} {s0 s : State} (hp : 2 &&& P = 2) (h : Keeps P s0 s) (a1 : ℕ) : Keeps P s0 (State.tenantSnap s a1) := by
  unfold State.tenantSnap
  repeat' first
    | with_reducible assumption | exact sub_of hp rfl | exact rfl | with_reducible apply State.instSnap_keeps
    | with_reducible apply ite_keeps | with_reducible apply foldl_keeps
    | with_reducible refine getD_keeps (fun _ _ => ?_) ?_ | intro _ | cases ‹(_, _) = (_, _)› | cases ‹some _ = some _›
    | cases ‹none = some _›
    | fail_if_no_progress with_reducible refine mk_keeps ?_ rfl rfl rfl (by and_intros <;> first | exact .inr (by with_reducible rfl) | exact .inl (sub_of hp rfl)) | dsimp only | split
theorem execInstCtrSnap_keeps_eq {P : ℕ} {s0 s t : State} (hp : 8388123 &&& P = 8388123) {a0 : Option Src} {a1 : Inst} (e : execInstCtrSnap a0 a1 s = .next t) (h : Keeps P s0 s) : Keeps P s0 t := by
  unfold execInstCtrSnap at e
  repeat' first
    | cases ‹Host.Outcome.next _ = Host.Outcome.next _› | cases ‹Host.Outcome.refused _ = Host.Outcome.next _›
    | cases ‹Host.Outcome.fault _ = Host.Outcome.next _› | split at e | with_reducible assumption | exact sub_of hp rfl
    | exact rfl | with_reducible apply State.tenantSnap_keeps | with_reducible apply State.writeReg_keeps
    | with_reducible apply ite_keeps | with_reducible apply foldl_keeps
    | with_reducible refine getD_keeps (fun _ _ => ?_) ?_ | intro _ | cases ‹(_, _) = (_, _)› | cases ‹some _ = some _›
    | cases ‹none = some _›
    | fail_if_no_progress with_reducible refine mk_keeps ?_ rfl rfl rfl (by and_intros <;> first | exact .inr (by with_reducible rfl) | exact .inl (sub_of hp rfl)) | dsimp only | dsimp only at e | split

/-! ### Machine/Thermal -/

theorem State.warm_keeps {P : ℕ} {s0 s : State} (hp : 8388608 &&& P = 8388608) (h : Keeps P s0 s) (a1 : Fin 52) : Keeps P s0 (State.warm s a1) :=
  ⟨h.queue, h.mode, h.regs, h.nor, fun _ => by
    unfold State.warm thermOk
    show (true == !(if s.therm.warm.contains a1 = true then s.therm.warm else a1 :: s.therm.warm).isEmpty) = true
    split
    · rename_i e
      cases hw : s.therm.warm with
      | nil => simp [hw] at e
      | cons => rfl
    · rfl, h.answers, h.signs, h.key, h.more 8388608 (hm := sub_of hp rfl)⟩
theorem execThermalWarn_keeps_eq {P : ℕ} {s0 s t : State} (hp : 8388608 &&& P = 8388608) {a0 : Fin 52} (e : execThermalWarn a0 s = .next t) (h : Keeps P s0 s) : Keeps P s0 t := by
  unfold execThermalWarn at e
  repeat' first
    | cases ‹Host.Outcome.next _ = Host.Outcome.next _› | cases ‹Host.Outcome.refused _ = Host.Outcome.next _›
    | cases ‹Host.Outcome.fault _ = Host.Outcome.next _› | split at e | with_reducible assumption | exact sub_of hp rfl
    | exact rfl | with_reducible apply State.warm_keeps | with_reducible apply State.onRind_keeps
    | with_reducible apply ite_keeps | with_reducible apply foldl_keeps
    | with_reducible refine getD_keeps (fun _ _ => ?_) ?_ | intro _ | cases ‹(_, _) = (_, _)› | cases ‹some _ = some _›
    | cases ‹none = some _›
    | fail_if_no_progress with_reducible refine mk_keeps ?_ rfl rfl rfl (by and_intros <;> first | exact .inr (by with_reducible rfl) | exact .inl (sub_of hp rfl)) | dsimp only | dsimp only at e | split
theorem execThermalRelease_keeps_eq {P : ℕ} {s0 s t : State} (hp : 8388608 &&& P = 8388608) (e : execThermalRelease s = .next t) (h : Keeps P s0 s) : Keeps P s0 t := by
  unfold execThermalRelease at e
  cases e
  exact State.onRind_keeps (sub_of hp rfl) h _ fun u h => ⟨h.queue, h.mode, h.regs, h.nor, fun _ => rfl, h.answers, h.signs, h.key, h.more 8388608 (hm := sub_of hp rfl)⟩
theorem State.tripAll_keeps {P : ℕ} {s0 s : State} (hp : 8438274 &&& P = 8438274) (h : Keeps P s0 s) (a1 : List (Fin 52)) : Keeps P s0 (State.tripAll s a1) := by
  unfold State.tripAll
  repeat' first
    | with_reducible assumption | exact sub_of hp rfl | exact rfl | with_reducible apply State.failElem_keeps
    | with_reducible apply State.warm_keeps | with_reducible apply ite_keeps | with_reducible apply foldl_keeps
    | with_reducible refine getD_keeps (fun _ _ => ?_) ?_ | intro _ | cases ‹(_, _) = (_, _)› | cases ‹some _ = some _›
    | cases ‹none = some _›
    | fail_if_no_progress with_reducible refine mk_keeps ?_ rfl rfl rfl (by and_intros <;> first | exact .inr (by with_reducible rfl) | exact .inl (sub_of hp rfl)) | dsimp only | split
theorem execThermalTrip_keeps_eq {P : ℕ} {s0 s t : State} (hp : 8438274 &&& P = 8438274) {a0 : List (Fin 52)} (e : execThermalTrip a0 s = .next t) (h : Keeps P s0 s) : Keeps P s0 t := by
  unfold execThermalTrip at e
  repeat' first
    | cases ‹Host.Outcome.next _ = Host.Outcome.next _› | cases ‹Host.Outcome.refused _ = Host.Outcome.next _›
    | cases ‹Host.Outcome.fault _ = Host.Outcome.next _› | split at e | with_reducible assumption | exact sub_of hp rfl
    | exact rfl | with_reducible apply State.tripAll_keeps | with_reducible apply State.onRind_keeps
    | with_reducible apply ite_keeps | with_reducible apply foldl_keeps
    | with_reducible refine getD_keeps (fun _ _ => ?_) ?_ | intro _ | cases ‹(_, _) = (_, _)› | cases ‹some _ = some _›
    | cases ‹none = some _›
    | fail_if_no_progress with_reducible refine mk_keeps ?_ rfl rfl rfl (by and_intros <;> first | exact .inr (by with_reducible rfl) | exact .inl (sub_of hp rfl)) | dsimp only | dsimp only at e | split

/-! ### Machine/CxlIo -/

theorem State.vcsAnswer_keeps {P : ℕ} {s0 s : State} (hp : 4195330 &&& P = 4195330) (h : Keeps P s0 s) (a1 : Cell) (a2 : List ℕ) (a3 : optParam Bool false) : Keeps P s0 (State.vcsAnswer s a1 a2 a3) := by
  unfold State.vcsAnswer
  repeat' first
    | with_reducible assumption | exact sub_of hp rfl | exact rfl | with_reducible apply State.answerHere_keeps
    | with_reducible apply State.portCredit_keeps | with_reducible apply ite_keeps | with_reducible apply foldl_keeps
    | with_reducible refine getD_keeps (fun _ _ => ?_) ?_ | intro _ | cases ‹(_, _) = (_, _)› | cases ‹some _ = some _›
    | cases ‹none = some _›
    | fail_if_no_progress with_reducible refine mk_keeps ?_ rfl rfl rfl (by and_intros <;> first | exact .inr (by with_reducible rfl) | exact .inl (sub_of hp rfl)) | dsimp only | split
theorem State.tenantWrite_keeps {P : ℕ} {s0 s : State} (hp : 8386075 &&& P = 8386075) (h : Keeps P s0 s) (a1 : Inst) (a2 : ℕ) (a3 : Word) : Keeps P s0 (State.tenantWrite s a1 a2 a3) := by
  unfold State.tenantWrite
  repeat' first
    | with_reducible assumption | exact sub_of hp rfl | exact rfl | with_reducible apply State.copyOp_keeps
    | with_reducible apply State.tenantSnap_keeps | with_reducible apply State.act_keeps | with_reducible apply ite_keeps
    | with_reducible apply foldl_keeps | with_reducible refine getD_keeps (fun _ _ => ?_) ?_ | intro _
    | cases ‹(_, _) = (_, _)› | cases ‹some _ = some _› | cases ‹none = some _›
    | fail_if_no_progress with_reducible refine mk_keeps ?_ rfl rfl rfl (by and_intros <;> first | exact .inr (by with_reducible rfl) | exact .inl (sub_of hp rfl)) | dsimp only | split
theorem State.forwardIo_keeps {P : ℕ} {s0 s : State} (hp : 4195842 &&& P = 4195842) (h : Keeps P s0 s) (a1 : Cell) (a2 : Cell) (a3 : BitVec 52) (a4 : List Line) : Keeps P s0 (State.forwardIo s a1 a2 a3 a4) := by
  unfold State.forwardIo
  repeat' first
    | with_reducible assumption | exact sub_of hp rfl | exact rfl | with_reducible apply State.passIn_keeps
    | with_reducible apply ite_keeps | with_reducible apply foldl_keeps
    | with_reducible refine getD_keeps (fun _ _ => ?_) ?_ | intro _ | cases ‹(_, _) = (_, _)› | cases ‹some _ = some _›
    | cases ‹none = some _›
    | fail_if_no_progress with_reducible refine mk_keeps ?_ rfl rfl rfl (by and_intros <;> first | exact .inr (by with_reducible rfl) | exact .inl (sub_of hp rfl)) | dsimp only | split
theorem State.setDecoders_keeps {P : ℕ} {s0 s : State} (hp : 524288 &&& P = 524288) (h : Keeps P s0 s) (a1 : Cell) (a2 : Hdm → Bool) (a3 : List Hdm) : Keeps P s0 (State.setDecoders s a1 a2 a3) := by
  unfold State.setDecoders
  repeat' first
    | with_reducible assumption | exact sub_of hp rfl | exact rfl | with_reducible apply ite_keeps
    | with_reducible apply foldl_keeps | with_reducible refine getD_keeps (fun _ _ => ?_) ?_ | intro _
    | cases ‹(_, _) = (_, _)› | cases ‹some _ = some _› | cases ‹none = some _›
    | fail_if_no_progress with_reducible refine mk_keeps ?_ rfl rfl rfl (by and_intros <;> first | exact .inr (by with_reducible rfl) | exact .inl (sub_of hp rfl)) | dsimp only | split
theorem State.hostIo_keeps {P : ℕ} {s0 s : State} (hp : 8386075 &&& P = 8386075) (h : Keeps P s0 s) (a1 : Cell) (a2 : IoReq) : Keeps P s0 (State.hostIo s a1 a2) := by
  unfold State.hostIo
  repeat' first
    | with_reducible assumption | exact sub_of hp rfl | exact rfl | with_reducible apply State.setDecoders_keeps
    | with_reducible apply State.passIn_keeps | with_reducible apply State.vcsAnswer_keeps
    | with_reducible apply State.forwardIo_keeps | with_reducible apply State.slotOff_keeps
    | with_reducible apply State.tenantWrite_keeps | with_reducible apply ite_keeps | with_reducible apply foldl_keeps
    | with_reducible refine getD_keeps (fun _ _ => ?_) ?_ | intro _ | cases ‹(_, _) = (_, _)› | cases ‹some _ = some _›
    | cases ‹none = some _›
    | fail_if_no_progress with_reducible refine mk_keeps ?_ rfl rfl rfl (by and_intros <;> first | exact .inr (by with_reducible rfl) | exact .inl (sub_of hp rfl)) | dsimp only | split
theorem execHostCxlIoRequest_keeps_eq {P : ℕ} {s0 s t : State} (hp : 8386075 &&& P = 8386075) {a0 : Cell} {a1 : IoReq} (e : execHostCxlIoRequest a0 a1 s = .next t) (h : Keeps P s0 s) : Keeps P s0 t := by
  unfold execHostCxlIoRequest at e
  repeat' first
    | cases ‹Host.Outcome.next _ = Host.Outcome.next _› | cases ‹Host.Outcome.refused _ = Host.Outcome.next _›
    | cases ‹Host.Outcome.fault _ = Host.Outcome.next _› | split at e | with_reducible assumption | exact sub_of hp rfl
    | exact rfl | with_reducible apply State.hostIo_keeps | with_reducible apply ite_keeps
    | with_reducible apply foldl_keeps | with_reducible refine getD_keeps (fun _ _ => ?_) ?_ | intro _
    | cases ‹(_, _) = (_, _)› | cases ‹some _ = some _› | cases ‹none = some _›
    | fail_if_no_progress with_reducible refine mk_keeps ?_ rfl rfl rfl (by and_intros <;> first | exact .inr (by with_reducible rfl) | exact .inl (sub_of hp rfl)) | dsimp only | dsimp only at e | split

/-! ### Machine/Tick -/

theorem State.rtcCycle_keeps {P : ℕ} {s0 s : State} (hp : 2 &&& P = 2) (h : Keeps P s0 s) : Keeps P s0 (State.rtcCycle s) := by
  unfold State.rtcCycle
  repeat' first
    | with_reducible assumption | exact sub_of hp rfl | exact rfl | with_reducible apply State.wr_keeps
    | with_reducible apply State.inc_keeps | with_reducible apply ite_keeps | with_reducible apply foldl_keeps
    | with_reducible refine getD_keeps (fun _ _ => ?_) ?_ | intro _ | cases ‹(_, _) = (_, _)› | cases ‹some _ = some _›
    | cases ‹none = some _›
    | fail_if_no_progress with_reducible refine mk_keeps ?_ rfl rfl rfl (by and_intros <;> first | exact .inr (by with_reducible rfl) | exact .inl (sub_of hp rfl)) | dsimp only | split
theorem State.admitCycle_keeps {P : ℕ} {s0 s : State} (hp : 4214274 &&& P = 4214274) (h : Keeps P s0 s) : Keeps P s0 (State.admitCycle s) := by
  unfold State.admitCycle
  repeat' first
    | with_reducible assumption | exact sub_of hp rfl | exact rfl | with_reducible apply State.ctrEvent_keeps
    | with_reducible apply State.inc_keeps | with_reducible apply State.admitWaiting_keeps
    | with_reducible apply ite_keeps | with_reducible apply foldl_keeps
    | with_reducible refine getD_keeps (fun _ _ => ?_) ?_ | intro _ | cases ‹(_, _) = (_, _)› | cases ‹some _ = some _›
    | cases ‹none = some _›
    | fail_if_no_progress with_reducible refine mk_keeps ?_ rfl rfl rfl (by and_intros <;> first | exact .inr (by with_reducible rfl) | exact .inl (sub_of hp rfl)) | dsimp only | split
theorem State.stallCycle_keeps {P : ℕ} {s0 s : State} (hp : 4194818 &&& P = 4194818) (h : Keeps P s0 s) : Keeps P s0 (State.stallCycle s) := by
  unfold State.stallCycle
  repeat' first
    | with_reducible assumption | exact sub_of hp rfl | exact rfl | with_reducible apply State.ctrEvent_keeps
    | with_reducible apply ite_keeps | with_reducible apply foldl_keeps
    | with_reducible refine getD_keeps (fun _ _ => ?_) ?_ | intro _ | cases ‹(_, _) = (_, _)› | cases ‹some _ = some _›
    | cases ‹none = some _›
    | fail_if_no_progress with_reducible refine mk_keeps ?_ rfl rfl rfl (by and_intros <;> first | exact .inr (by with_reducible rfl) | exact .inl (sub_of hp rfl)) | dsimp only | split
theorem State.chunkCycle_keeps {P : ℕ} {s0 s : State} (hp : 2 &&& P = 2) (h : Keeps P s0 s) : Keeps P s0 (State.chunkCycle s) := by
  unfold State.chunkCycle
  repeat' first
    | with_reducible assumption | exact sub_of hp rfl | exact rfl | with_reducible apply State.inc_keeps
    | with_reducible apply ite_keeps | with_reducible apply foldl_keeps
    | with_reducible refine getD_keeps (fun _ _ => ?_) ?_ | intro _ | cases ‹(_, _) = (_, _)› | cases ‹some _ = some _›
    | cases ‹none = some _›
    | fail_if_no_progress with_reducible refine mk_keeps ?_ rfl rfl rfl (by and_intros <;> first | exact .inr (by with_reducible rfl) | exact .inl (sub_of hp rfl)) | dsimp only | split
theorem State.wheyCycle_keeps {P : ℕ} {s0 s : State} (hp : 3586 &&& P = 3586) (h : Keeps P s0 s) : Keeps P s0 (State.wheyCycle s) := by
  unfold State.wheyCycle
  repeat' first
    | with_reducible assumption | exact sub_of hp rfl | exact rfl | with_reducible apply State.writeWaiting_keeps
    | with_reducible apply ite_keeps | with_reducible apply foldl_keeps
    | with_reducible refine getD_keeps (fun _ _ => ?_) ?_ | intro _ | cases ‹(_, _) = (_, _)› | cases ‹some _ = some _›
    | cases ‹none = some _›
    | fail_if_no_progress with_reducible refine mk_keeps ?_ rfl rfl rfl (by and_intros <;> first | exact .inr (by with_reducible rfl) | exact .inl (sub_of hp rfl)) | dsimp only | split
theorem State.shaperEvent_keeps {P : ℕ} {s0 s : State} (hp : 4194306 &&& P = 4194306) (h : Keeps P s0 s) (a1 : ℕ) : Keeps P s0 (State.shaperEvent s a1) := by
  unfold State.shaperEvent
  repeat' first
    | with_reducible assumption | exact sub_of hp rfl | exact rfl | with_reducible apply State.ctrAdd_keeps
    | with_reducible apply ite_keeps | with_reducible apply foldl_keeps
    | with_reducible refine getD_keeps (fun _ _ => ?_) ?_ | intro _ | cases ‹(_, _) = (_, _)› | cases ‹some _ = some _›
    | cases ‹none = some _›
    | fail_if_no_progress with_reducible refine mk_keeps ?_ rfl rfl rfl (by and_intros <;> first | exact .inr (by with_reducible rfl) | exact .inl (sub_of hp rfl)) | dsimp only | split
theorem State.ctrCycle_keeps {P : ℕ} {s0 s : State} (hp : 4194306 &&& P = 4194306) (h : Keeps P s0 s) (a1 : ℕ) : Keeps P s0 (State.ctrCycle s a1) := by
  unfold State.ctrCycle
  repeat' first
    | with_reducible assumption | exact sub_of hp rfl | exact rfl | with_reducible apply State.ctrEvent_keeps
    | with_reducible apply State.shaperEvent_keeps | with_reducible apply ite_keeps | with_reducible apply foldl_keeps
    | with_reducible refine getD_keeps (fun _ _ => ?_) ?_ | intro _ | cases ‹(_, _) = (_, _)› | cases ‹some _ = some _›
    | cases ‹none = some _›
    | fail_if_no_progress with_reducible refine mk_keeps ?_ rfl rfl rfl (by and_intros <;> first | exact .inr (by with_reducible rfl) | exact .inl (sub_of hp rfl)) | dsimp only | split
theorem State.resumeLines_keeps {P : ℕ} {s0 s : State} (hp : 17922 &&& P = 17922) (h : Keeps P s0 s) : Keeps P s0 (State.resumeLines s) := by
  unfold State.resumeLines
  repeat' first
    | with_reducible assumption | exact sub_of hp rfl | exact rfl | with_reducible apply State.devStep_keeps
    | with_reducible apply ite_keeps | with_reducible apply foldl_keeps
    | with_reducible refine getD_keeps (fun _ _ => ?_) ?_ | intro _ | cases ‹(_, _) = (_, _)› | cases ‹some _ = some _›
    | cases ‹none = some _›
    | fail_if_no_progress with_reducible refine mk_keeps ?_ rfl rfl rfl (by and_intros <;> first | exact .inr (by with_reducible rfl) | exact .inl (sub_of hp rfl)) | dsimp only | split
theorem State.keyxCycle_keeps {P : ℕ} {s0 s : State} (hp : 131602 &&& P = 131602) (h : Keeps P s0 s) : Keeps P s0 (State.keyxCycle s) := by
  unfold State.keyxCycle
  repeat' first
    | with_reducible assumption | exact sub_of hp rfl | exact rfl | with_reducible apply State.sendKeyx_keeps
    | with_reducible apply ite_keeps | with_reducible apply foldl_keeps
    | with_reducible refine getD_keeps (fun _ _ => ?_) ?_ | intro _ | cases ‹(_, _) = (_, _)› | cases ‹some _ = some _›
    | cases ‹none = some _›
    | fail_if_no_progress with_reducible refine mk_keeps ?_ rfl rfl rfl (by and_intros <;> first | exact .inr (by with_reducible rfl) | exact .inl (sub_of hp rfl)) | dsimp only | split
theorem State.runCycle_keeps {P : ℕ} {s0 s : State} (hp : 5926430 &&& P = 5926430) (h : Keeps P s0 s) : Keeps P s0 (State.runCycle s) := by
  unfold State.runCycle
  repeat' first
    | with_reducible assumption | exact sub_of hp rfl | exact rfl | with_reducible apply State.keyxCycle_keeps
    | with_reducible apply State.holdCycle_keeps | with_reducible apply State.settleLost_keeps
    | with_reducible apply State.chunkCycle_keeps | with_reducible apply State.resumeLines_keeps
    | with_reducible apply State.wheyCycle_keeps | with_reducible apply State.stallCycle_keeps
    | with_reducible apply State.leaveCycle_keeps | with_reducible apply State.resumeDevices_keeps
    | with_reducible apply State.xingSync_keeps | with_reducible apply State.shapersCycle_keeps
    | with_reducible apply State.ctrCycle_keeps | with_reducible apply State.admitCycle_keeps
    | with_reducible apply ite_keeps | with_reducible apply foldl_keeps
    | with_reducible refine getD_keeps (fun _ _ => ?_) ?_ | intro _ | cases ‹(_, _) = (_, _)› | cases ‹some _ = some _›
    | cases ‹none = some _›
    | fail_if_no_progress with_reducible refine mk_keeps ?_ rfl rfl rfl (by and_intros <;> first | exact .inr (by with_reducible rfl) | exact .inl (sub_of hp rfl)) | dsimp only | split
theorem State.dormantCycle_keeps {P : ℕ} {s0 s : State} (hp : 3916303 &&& P = 3916303) (h : Keeps P s0 s) (k : s.mode = .dormant) : Keeps P s0 (State.dormantCycle s) :=
  ite_keeps (fun _ => State.leaveDormant_keeps (sub_of hp rfl) h k) fun _ => h
theorem State.tick_keeps {P : ℕ} {s0 s : State} (hp : 75230751 &&& P = 75230751) (h : Keeps P s0 s) : Keeps P s0 (State.tick s) := by
  unfold State.tick
  refine State.onRind_keeps (sub_of hp rfl) h _ fun t h => ?_
  have h1 : Keeps P s0 { t.rtcCycle.tryDebounce with wall := t.rtcCycle.tryDebounce.wall + 1, setNow := [] } := mk_keeps (State.tryDebounce_keeps (sub_of hp rfl) (State.rtcCycle_keeps (sub_of hp rfl) h)) rfl rfl rfl (by and_intros <;> first | exact .inr (by with_reducible rfl) | exact .inl (sub_of hp rfl))
  exact ite_keeps (fun e => State.dormantCycle_keeps (sub_of hp rfl) h1 e) fun _ => State.runCycle_keeps (sub_of hp rfl) h1

end Sys2Proof.Machine
end

