-- ==== Sys2Proof/Laws/KeepStep.lean ====
section
/-! SUPPORT. What one command, and one step, keep. -/

set_option Elab.async false

namespace Sys2Proof.Machine

set_option linter.unreachableTactic false
set_option linter.unusedTactic false

theorem State.withFetchWord_keeps {P : ℕ} {s0 s : State} (hp : 0 &&& P = 0) (h : Keeps P s0 s) (a1 : ℕ) (a2 : ℕ) : Keeps P s0 (State.withFetchWord s a1 a2) := by
  unfold State.withFetchWord
  repeat' first
    | with_reducible assumption | exact sub_of hp rfl | exact rfl | with_reducible apply ite_keeps
    | with_reducible apply foldl_keeps | with_reducible refine getD_keeps (fun _ _ => ?_) ?_ | intro _ | cases ‹(_, _) = (_, _)›
    | cases ‹some _ = some _› | cases ‹none = some _›
    | fail_if_no_progress with_reducible refine mk_keeps ?_ rfl rfl rfl (by and_intros <;> first | exact .inr (by with_reducible rfl) | exact .inl (sub_of hp rfl)) | dsimp only | split

/-- A list of parts as a number. -/
def partMask (l : List Part) : ℕ := l.foldr (fun p n => p.bit ||| n) 0
/-- Every command but RIND_STOP keeps what Safety names, moves the mode only along Table 1-9, and changes no part but those of partsOf. -/
theorem exec_keeps {c : Instr} {s t : State} (hc : c ≠ .rindStop) (e : exec c s = .next t) :
    Keeps (partMask (partsOf c)) s t := by
  cases c with
  | enableNLowStart => exact execEnableNLowStart_keeps_eq (s := s) (by dsimp only [partsOf]; decide) e (Keeps.refl s)
  | imageLoadComplete _ _ => exact execImageLoadComplete_keeps_eq (s := s) (by dsimp only [partsOf]; decide) e (Keeps.refl s)
  | imageStaging _ => exact execImageStaging_keeps_eq (s := s) (by dsimp only [partsOf]; decide) e (Keeps.refl s)
  | selfTestComplete _ _ _ => exact execSelfTestComplete_keeps_eq (s := s) (by dsimp only [partsOf]; decide) e (Keeps.refl s)
  | rennetWrite _ _ _ _ => exact execRennetWrite_keeps_eq (s := s) (by dsimp only [partsOf]; decide) e (Keeps.refl s)
  | rennetCrcReport _ => exact execRennetCrcReport_keeps_eq (s := s) (by dsimp only [partsOf]; decide) e (Keeps.refl s)
  | rennetDistributionComplete => exact execRennetDistributionComplete_keeps_eq (s := s) (by dsimp only [partsOf]; decide) e (Keeps.refl s)
  | modeReqService _ => exact execModeReqService_keeps_eq (s := s) (by dsimp only [partsOf]; decide) e (Keeps.refl s)
  | modeReqDrowse _ => exact execModeReqDrowse_keeps_eq (s := s) (by dsimp only [partsOf]; decide) e (Keeps.refl s)
  | modeReqMaintenance _ => exact execModeReqMaintenance_keeps_eq (s := s) (by dsimp only [partsOf]; decide) e (Keeps.refl s)
  | modeReqSafeStop _ => exact execModeReqSafeStop_keeps_eq (s := s) (by dsimp only [partsOf]; decide) e (Keeps.refl s)
  | enableNHigh => exact execEnableNHigh_keeps_eq (s := s) (by dsimp only [partsOf]; decide) e (Keeps.refl s)
  | safeStopComplete => exact execSafeStopComplete_keeps_eq (s := s) (by dsimp only [partsOf]; decide) e (Keeps.refl s)
  | idlePolicyDrowse => exact execIdlePolicyDrowse_keeps_eq (s := s) (by dsimp only [partsOf]; decide) e (Keeps.refl s)
  | drowseWakeLimit => exact execDrowseWakeLimit_keeps_eq (s := s) (by dsimp only [partsOf]; decide) e (Keeps.refl s)
  | scrimUnitReceive _ _ _ _ _ _ _ => exact execScrimUnitReceive_keeps_eq (s := s) (by dsimp only [partsOf]; decide) e (Keeps.refl s)
  | scrimReplayRequest _ _ _ => exact execScrimReplayRequest_keeps_eq (s := s) (by dsimp only [partsOf]; decide) e (Keeps.refl s)
  | heartbeatSend _ _ => exact execHeartbeatSend_keeps_eq (s := s) (by dsimp only [partsOf]; decide) e (Keeps.refl s)
  | heartbeatTimeout _ _ => exact execHeartbeatTimeout_keeps_eq (s := s) (by dsimp only [partsOf]; decide) e (Keeps.refl s)
  | ucieLinkDown _ => exact execUcieLinkDown_keeps_eq (s := s) (by dsimp only [partsOf]; decide) e (Keeps.refl s)
  | fenceNote _ => exact execFenceNote_keeps_eq (s := s) (by dsimp only [partsOf]; decide) e (Keeps.refl s)
  | fenceMap _ => exact execFenceMap_keeps_eq (s := s) (by dsimp only [partsOf]; decide) e (Keeps.refl s)
  | fenceCompletionReport _ => exact execFenceCompletionReport_keeps_eq (s := s) (by dsimp only [partsOf]; decide) e (Keeps.refl s)
  | drainedReport _ => exact execDrainedReport_keeps_eq (s := s) (by dsimp only [partsOf]; decide) e (Keeps.refl s)
  | drainCommit _ => exact execDrainCommit_keeps_eq (s := s) (by dsimp only [partsOf]; decide) e (Keeps.refl s)
  | drainLimitExpiry _ => exact execDrainLimitExpiry_keeps_eq (s := s) (by dsimp only [partsOf]; decide) e (Keeps.refl s)
  | holdUnitArrival _ _ => exact execHoldUnitArrival_keeps_eq (s := s) (by dsimp only [partsOf]; decide) e (Keeps.refl s)
  | domainOnSignal _ => exact execDomainOnSignal_keeps_eq (s := s) (by dsimp only [partsOf]; decide) e (Keeps.refl s)
  | wakeFail _ => exact execWakeFail_keeps_eq (s := s) (by dsimp only [partsOf]; decide) e (Keeps.refl s)
  | lathLpEntry _ _ => exact execLathLpEntry_keeps_eq (s := s) (by dsimp only [partsOf]; decide) e (Keeps.refl s)
  | lathLpExit _ _ _ _ => exact execLathLpExit_keeps_eq (s := s) (by dsimp only [partsOf]; decide) e (Keeps.refl s)
  | seamTrainComplete _ _ => exact execSeamTrainComplete_keeps_eq (s := s) (by dsimp only [partsOf]; decide) e (Keeps.refl s)
  | scrimSnap _ => exact execScrimSnap_keeps_eq (s := s) (by dsimp only [partsOf]; decide) e (Keeps.refl s)
  | frameArrive _ _ _ _ _ _ => exact execFrameArrive_keeps_eq (s := s) (by dsimp only [partsOf]; decide) e (Keeps.refl s)
  | frameStart _ _ => exact execFrameStart_keeps_eq (s := s) (by dsimp only [partsOf]; decide) e (Keeps.refl s)
  | sampleCounterExpiry _ _ => exact execSampleCounterExpiry_keeps_eq (s := s) (by dsimp only [partsOf]; decide) e (Keeps.refl s)
  | xbarClrHwm _ => exact execXbarClrHwm_keeps_eq (s := s) (by dsimp only [partsOf]; decide) e (Keeps.refl s)
  | chunkGrant _ _ _ => exact execChunkGrant_keeps_eq (s := s) (by dsimp only [partsOf]; decide) e (Keeps.refl s)
  | lengthSlotAck _ _ => exact execLengthSlotAck_keeps_eq (s := s) (by dsimp only [partsOf]; decide) e (Keeps.refl s)
  | spillFetch _ _ => exact execSpillFetch_keeps_eq (s := s) (by dsimp only [partsOf]; decide) e (Keeps.refl s)
  | spillReadReturn _ _ _ => exact execSpillReadReturn_keeps_eq (s := s) (by dsimp only [partsOf]; decide) e (Keeps.refl s)
  | hbmWatchdogExpiry _ => exact execHbmWatchdogExpiry_keeps_eq (s := s) (by dsimp only [partsOf]; decide) e (Keeps.refl s)
  | spillCtxView0Read _ => exact execSpillCtxView0Read_keeps_eq (s := s) (by dsimp only [partsOf]; decide) e (Keeps.refl s)
  | spillXingClrHwm _ => exact execSpillXingClrHwm_keeps_eq (s := s) (by dsimp only [partsOf]; decide) e (Keeps.refl s)
  | gateBoundary _ => exact execGateBoundary_keeps_eq (s := s) (by dsimp only [partsOf]; decide) e (Keeps.refl s)
  | histPeriodEnd _ _ => exact execHistPeriodEnd_keeps_eq (s := s) (by dsimp only [partsOf]; decide) e (Keeps.refl s)
  | depthSample _ => exact execDepthSample_keeps_eq (s := s) (by dsimp only [partsOf]; decide) e (Keeps.refl s)
  | shpObsSnap _ _ => exact execShpObsSnap_keeps_eq (s := s) (by dsimp only [partsOf]; decide) e (Keeps.refl s)
  | skimYieldWindowEnd _ => exact execSkimYieldWindowEnd_keeps_eq (s := s) (by dsimp only [partsOf]; decide) e (Keeps.refl s)
  | rds _ _ => exact execRds_keeps_eq (s := s) (by dsimp only [partsOf]; decide) e (Keeps.refl s)
  | rda _ _ => exact execRda_keeps_eq (s := s) (by dsimp only [partsOf]; decide) e (Keeps.refl s)
  | rdi _ _ => exact execRdi_keeps_eq (s := s) (by dsimp only [partsOf]; decide) e (Keeps.refl s)
  | inva _ _ => exact execInva_keeps_eq (s := s) (by dsimp only [partsOf]; decide) e (Keeps.refl s)
  | wri _ _ => exact execWri_keeps_eq (s := s) (by dsimp only [partsOf]; decide) e (Keeps.refl s)
  | wra _ _ => exact execWra_keeps_eq (s := s) (by dsimp only [partsOf]; decide) e (Keeps.refl s)
  | wrptl _ _ => exact execWrptl_keeps_eq (s := s) (by dsimp only [partsOf]; decide) e (Keeps.refl s)
  | clnevct _ _ => exact execClnevct_keeps_eq (s := s) (by dsimp only [partsOf]; decide) e (Keeps.refl s)
  | specrd _ => exact execSpecrd_keeps_eq (s := s) (by dsimp only [partsOf]; decide) e (Keeps.refl s)
  | recallMsg _ _ => exact execRecall_keeps_eq (s := s) (by dsimp only [partsOf]; decide) e (Keeps.refl s)
  | homeChainStart _ _ => exact execHomeChainStart_keeps_eq (s := s) (by dsimp only [partsOf]; decide) e (Keeps.refl s)
  | biconf _ => exact execBiconf_keeps_eq (s := s) (by dsimp only [partsOf]; decide) e (Keeps.refl s)
  | mrd _ => exact execMrd_keeps_eq (s := s) (by dsimp only [partsOf]; decide) e (Keeps.refl s)
  | mspec _ => exact execMspec_keeps_eq (s := s) (by dsimp only [partsOf]; decide) e (Keeps.refl s)
  | wdata _ => exact execWdata_keeps_eq (s := s) (by dsimp only [partsOf]; decide) e (Keeps.refl s)
  | expanderReadData _ _ _ _ => exact execExpanderReadData_keeps_eq (s := s) (by dsimp only [partsOf]; decide) e (Keeps.refl s)
  | expanderWriteComplete _ _ => exact execExpanderWriteComplete_keeps_eq (s := s) (by dsimp only [partsOf]; decide) e (Keeps.refl s)
  | mflush _ => exact execMflush_keeps_eq (s := s) (by dsimp only [partsOf]; decide) e (Keeps.refl s)
  | dirrd _ _ _ _ => exact execDirrd_keeps_eq (s := s) (by dsimp only [partsOf]; decide) e (Keeps.refl s)
  | dirwr _ _ => exact execDirwr_keeps_eq (s := s) (by dsimp only [partsOf]; decide) e (Keeps.refl s)
  | dirdata _ => exact execDirdata_keeps_eq (s := s) (by dsimp only [partsOf]; decide) e (Keeps.refl s)
  | dirack _ => exact execDirack_keeps_eq (s := s) (by dsimp only [partsOf]; decide) e (Keeps.refl s)
  | grant _ => exact execGrant_keeps_eq (s := s) (by dsimp only [partsOf]; decide) e (Keeps.refl s)
  | rdata _ => exact execRdata_keeps_eq (s := s) (by dsimp only [partsOf]; decide) e (Keeps.refl s)
  | wgo _ => exact execWgo_keeps_eq (s := s) (by dsimp only [partsOf]; decide) e (Keeps.refl s)
  | wcmp _ => exact execWcmp_keeps_eq (s := s) (by dsimp only [partsOf]; decide) e (Keeps.refl s)
  | mcmp _ => exact execMcmp_keeps_eq (s := s) (by dsimp only [partsOf]; decide) e (Keeps.refl s)
  | done _ => exact execDone_keeps_eq (s := s) (by dsimp only [partsOf]; decide) e (Keeps.refl s)
  | rcmp _ => exact execRcmp_keeps_eq (s := s) (by dsimp only [partsOf]; decide) e (Keeps.refl s)
  | bisnpcur _ => exact execBisnpcur_keeps_eq (s := s) (by dsimp only [partsOf]; decide) e (Keeps.refl s)
  | bisnpdata _ => exact execBisnpdata_keeps_eq (s := s) (by dsimp only [partsOf]; decide) e (Keeps.refl s)
  | bisnpinv _ => exact execBisnpinv_keeps_eq (s := s) (by dsimp only [partsOf]; decide) e (Keeps.refl s)
  | bicack _ => exact execBicack_keeps_eq (s := s) (by dsimp only [partsOf]; decide) e (Keeps.refl s)
  | hostBirsp _ _ _ => exact execHostBirsp_keeps_eq (s := s) (by dsimp only [partsOf]; decide) e (Keeps.refl s)
  | hostBiconflict _ _ => exact execHostBiconflict_keeps_eq (s := s) (by dsimp only [partsOf]; decide) e (Keeps.refl s)
  | birsp _ => exact execBirsp_keeps_eq (s := s) (by dsimp only [partsOf]; decide) e (Keeps.refl s)
  | snpTimeoutExpiry _ _ => exact execSnpTimeoutExpiry_keeps_eq (s := s) (by dsimp only [partsOf]; decide) e (Keeps.refl s)
  | dirLookup _ => exact execDirLookup_keeps_eq (s := s) (by dsimp only [partsOf]; decide) e (Keeps.refl s)
  | dirLookupComplete _ => exact execDirLookupComplete_keeps_eq (s := s) (by dsimp only [partsOf]; decide) e (Keeps.refl s)
  | homeTtClrHwm _ => exact execHomeTtClrHwm_keeps_eq (s := s) (by dsimp only [partsOf]; decide) e (Keeps.refl s)
  | fwd _ => exact execFwd_keeps_eq (s := s) (by dsimp only [partsOf]; decide) e (Keeps.refl s)
  | frsp _ => exact execFrsp_keeps_eq (s := s) (by dsimp only [partsOf]; decide) e (Keeps.refl s)
  | fkeep _ => exact execFkeep_keeps_eq (s := s) (by dsimp only [partsOf]; decide) e (Keeps.refl s)
  | proxyAgeCheck _ => exact execProxyAgeCheck_keeps_eq (s := s) (by dsimp only [partsOf]; decide) e (Keeps.refl s)
  | homeProxyClrHwm _ => exact execHomeProxyClrHwm_keeps_eq (s := s) (by dsimp only [partsOf]; decide) e (Keeps.refl s)
  | takeoverQuiesceComplete => exact execTakeoverQuiesceComplete_keeps_eq (s := s) (by dsimp only [partsOf]; decide) e (Keeps.refl s)
  | takeoverFlushComplete _ => exact execTakeoverFlushComplete_keeps_eq (s := s) (by dsimp only [partsOf]; decide) e (Keeps.refl s)
  | twinLossNote _ _ => exact execTwinLossNote_keeps_eq (s := s) (by dsimp only [partsOf]; decide) e (Keeps.refl s)
  | resilverBlockAck _ => exact execResilverBlockAck_keeps_eq (s := s) (by dsimp only [partsOf]; decide) e (Keeps.refl s)
  | hostRequestReceive _ _ => exact execHostRequestReceive_keeps_eq (s := s) (by dsimp only [partsOf]; decide) e (Keeps.refl s)
  | holdAdmit _ => exact execHoldAdmit_keeps_eq (s := s) (by dsimp only [partsOf]; decide) e (Keeps.refl s)
  | deviceRequestReceive _ _ => exact execDeviceRequestReceive_keeps_eq (s := s) (by dsimp only [partsOf]; decide) e (Keeps.refl s)
  | defaultMapFetchReturn _ _ _ => exact execDefaultMapFetchReturn_keeps_eq (s := s) (by dsimp only [partsOf]; decide) e (Keeps.refl s)
  | hostResponseDepart _ _ => exact execHostResponseDepart_keeps_eq (s := s) (by dsimp only [partsOf]; decide) e (Keeps.refl s)
  | slotHoldExpire _ _ => exact execSlotHoldExpire_keeps_eq (s := s) (by dsimp only [partsOf]; decide) e (Keeps.refl s)
  | fmGetVcsInfo _ _ => exact execFmGetVcsInfo_keeps_eq (s := s) (by dsimp only [partsOf]; decide) e (Keeps.refl s)
  | fmBindVppb _ _ _ _ => exact execFmBindVppb_keeps_eq (s := s) (by dsimp only [partsOf]; decide) e (Keeps.refl s)
  | fmUnbindVppb _ _ _ _ => exact execFmUnbindVppb_keeps_eq (s := s) (by dsimp only [partsOf]; decide) e (Keeps.refl s)
  | fmGetDcdInfo _ => exact execFmGetDcdInfo_keeps_eq (s := s) (by dsimp only [partsOf]; decide) e (Keeps.refl s)
  | fmGetHostDcRegionCfg _ _ => exact execFmGetHostDcRegionCfg_keeps_eq (s := s) (by dsimp only [partsOf]; decide) e (Keeps.refl s)
  | fmInitiateDcAdd _ _ _ _ => exact execFmInitiateDcAdd_keeps_eq (s := s) (by dsimp only [partsOf]; decide) e (Keeps.refl s)
  | fmInitiateDcRelease _ _ _ _ => exact execFmInitiateDcRelease_keeps_eq (s := s) (by dsimp only [partsOf]; decide) e (Keeps.refl s)
  | bind _ _ => exact execBind_keeps_eq (s := s) (by dsimp only [partsOf]; decide) e (Keeps.refl s)
  | unbindKeep _ _ => exact execUnbindKeep_keeps_eq (s := s) (by dsimp only [partsOf]; decide) e (Keeps.refl s)
  | unbindRelease _ _ => exact execUnbindRelease_keeps_eq (s := s) (by dsimp only [partsOf]; decide) e (Keeps.refl s)
  | dcAddResponse _ _ => exact execDcAddResponse_keeps_eq (s := s) (by dsimp only [partsOf]; decide) e (Keeps.refl s)
  | dcReleaseResponse _ _ => exact execDcReleaseResponse_keeps_eq (s := s) (by dsimp only [partsOf]; decide) e (Keeps.refl s)
  | portLinkUp _ _ => exact execPortLinkUp_keeps_eq (s := s) (by dsimp only [partsOf]; decide) e (Keeps.refl s)
  | hostLinkDown _ => exact execHostLinkDown_keeps_eq (s := s) (by dsimp only [partsOf]; decide) e (Keeps.refl s)
  | expanderLinkDown _ => exact execExpanderLinkDown_keeps_eq (s := s) (by dsimp only [partsOf]; decide) e (Keeps.refl s)
  | deviceLinkDown _ => exact execDeviceLinkDown_keeps_eq (s := s) (by dsimp only [partsOf]; decide) e (Keeps.refl s)
  | migPrepare _ _ => exact execMigPrepare_keeps_eq (s := s) (by dsimp only [partsOf]; decide) e (Keeps.refl s)
  | migMigrate _ _ => exact execMigMigrate_keeps_eq (s := s) (by dsimp only [partsOf]; decide) e (Keeps.refl s)
  | migAbort _ _ => exact execMigAbort_keeps_eq (s := s) (by dsimp only [partsOf]; decide) e (Keeps.refl s)
  | migSave _ _ => exact execMigSave_keeps_eq (s := s) (by dsimp only [partsOf]; decide) e (Keeps.refl s)
  | migRestore _ _ _ => exact execMigRestore_keeps_eq (s := s) (by dsimp only [partsOf]; decide) e (Keeps.refl s)
  | migFreezeDrained _ => exact execMigFreezeDrained_keeps_eq (s := s) (by dsimp only [partsOf]; decide) e (Keeps.refl s)
  | freezeLimitExpiry _ => exact execFreezeLimitExpiry_keeps_eq (s := s) (by dsimp only [partsOf]; decide) e (Keeps.refl s)
  | migSaveComplete _ => exact execMigSaveComplete_keeps_eq (s := s) (by dsimp only [partsOf]; decide) e (Keeps.refl s)
  | migRestoreComplete _ => exact execMigRestoreComplete_keeps_eq (s := s) (by dsimp only [partsOf]; decide) e (Keeps.refl s)
  | pressMoveGo _ _ => exact execPressMoveGo_keeps_eq (s := s) (by dsimp only [partsOf]; decide) e (Keeps.refl s)
  | pressAbort _ _ => exact execPressAbort_keeps_eq (s := s) (by dsimp only [partsOf]; decide) e (Keeps.refl s)
  | pressResilverStart _ _ _ => exact execPressResilverStart_keeps_eq (s := s) (by dsimp only [partsOf]; decide) e (Keeps.refl s)
  | pressBlockAck _ _ _ _ => exact execPressBlockAck_keeps_eq (s := s) (by dsimp only [partsOf]; decide) e (Keeps.refl s)
  | pressSourceDrained _ => exact execPressSourceDrained_keeps_eq (s := s) (by dsimp only [partsOf]; decide) e (Keeps.refl s)
  | copyGo _ _ => exact execCopyGo_keeps_eq (s := s) (by dsimp only [partsOf]; decide) e (Keeps.refl s)
  | copyPartComplete _ _ => exact execCopyPartComplete_keeps_eq (s := s) (by dsimp only [partsOf]; decide) e (Keeps.refl s)
  | brineComplete _ => exact execBrineComplete_keeps_eq (s := s) (by dsimp only [partsOf]; decide) e (Keeps.refl s)
  | mapNote _ _ => exact execMapNote_keeps_eq (s := s) (by dsimp only [partsOf]; decide) e (Keeps.refl s)
  | mapNoteComplete _ => exact execMapNoteComplete_keeps_eq (s := s) (by dsimp only [partsOf]; decide) e (Keeps.refl s)
  | zeroize _ _ => exact execZeroize_keeps_eq (s := s) (by dsimp only [partsOf]; decide) e (Keeps.refl s)
  | zeroizeComplete _ => exact execZeroizeComplete_keeps_eq (s := s) (by dsimp only [partsOf]; decide) e (Keeps.refl s)
  | keyGenerateComplete _ _ => exact execKeyGenerateComplete_keeps_eq (s := s) (by dsimp only [partsOf]; decide) e (Keeps.refl s)
  | keyload _ _ => exact execKeyload_keeps_eq (s := s) (by dsimp only [partsOf]; decide) e (Keeps.refl s)
  | healthTestFail _ => exact execHealthTestFail_keeps_eq (s := s) (by dsimp only [partsOf]; decide) e (Keeps.refl s)
  | secRotateGo _ => exact execSecRotateGo_keeps_eq (s := s) (by dsimp only [partsOf]; decide) e (Keeps.refl s)
  | rotationAgeCheck => exact execRotationAgeCheck_keeps_eq (s := s) (by dsimp only [partsOf]; decide) e (Keeps.refl s)
  | rekeyBlockAck _ => exact execRekeyBlockAck_keeps_eq (s := s) (by dsimp only [partsOf]; decide) e (Keeps.refl s)
  | barrierDrained _ => exact execBarrierDrained_keeps_eq (s := s) (by dsimp only [partsOf]; decide) e (Keeps.refl s)
  | barrierLimitExpiry _ => exact execBarrierLimitExpiry_keeps_eq (s := s) (by dsimp only [partsOf]; decide) e (Keeps.refl s)
  | ideKmKeySet _ _ => exact execIdeKmKeySet_keeps_eq (s := s) (by dsimp only [partsOf]; decide) e (Keeps.refl s)
  | ideIntegrityFailure _ => exact execIdeIntegrityFailure_keeps_eq (s := s) (by dsimp only [partsOf]; decide) e (Keeps.refl s)
  | laneFault _ _ _ => exact execLaneFault_keeps_eq (s := s) (by dsimp only [partsOf]; decide) e (Keeps.refl s)
  | widthReduceL0 _ => exact execWidthReduceL0_keeps_eq (s := s) (by dsimp only [partsOf]; decide) e (Keeps.refl s)
  | refclkLoss _ => exact execRefclkLoss_keeps_eq (s := s) (by dsimp only [partsOf]; decide) e (Keeps.refl s)
  | refclkReturn _ => exact execRefclkReturn_keeps_eq (s := s) (by dsimp only [partsOf]; decide) e (Keeps.refl s)
  | l1Entry _ => exact execL1Entry_keeps_eq (s := s) (by dsimp only [partsOf]; decide) e (Keeps.refl s)
  | l1Exit _ _ => exact execL1Exit_keeps_eq (s := s) (by dsimp only [partsOf]; decide) e (Keeps.refl s)
  | testEnter _ _ => exact execTestEnter_keeps_eq (s := s) (by dsimp only [partsOf]; decide) e (Keeps.refl s)
  | testExit _ _ => exact execTestExit_keeps_eq (s := s) (by dsimp only [partsOf]; decide) e (Keeps.refl s)
  | widthRestore _ _ => exact execWidthRestore_keeps_eq (s := s) (by dsimp only [partsOf]; decide) e (Keeps.refl s)
  | injOne _ _ => exact execInjOne_keeps_eq (s := s) (by dsimp only [partsOf]; decide) e (Keeps.refl s)
  | injRateError _ => exact execInjRateError_keeps_eq (s := s) (by dsimp only [partsOf]; decide) e (Keeps.refl s)
  | chkEnSet _ _ => exact execChkEnSet_keeps_eq (s := s) (by dsimp only [partsOf]; decide) e (Keeps.refl s)
  | lanePrbsStatRead _ _ => exact execLanePrbsStatRead_keeps_eq (s := s) (by dsimp only [partsOf]; decide) e (Keeps.refl s)
  | loopbackSlaveEntry _ => exact execLoopbackSlaveEntry_keeps_eq (s := s) (by dsimp only [partsOf]; decide) e (Keeps.refl s)
  | mgrFrameReceive _ _ _ _ => exact execMgrFrameReceive_keeps_eq (s := s) (by dsimp only [partsOf]; decide) e (Keeps.refl s)
  | mgrSyncGain _ => exact execMgrSyncGain_keeps_eq (s := s) (by dsimp only [partsOf]; decide) e (Keeps.refl s)
  | mgrSyncLoss _ _ _ => exact execMgrSyncLoss_keeps_eq (s := s) (by dsimp only [partsOf]; decide) e (Keeps.refl s)
  | mgrClockCompSend => exact execMgrClockCompSend_keeps_eq (s := s) (by dsimp only [partsOf]; decide) e (Keeps.refl s)
  | mgrWidthFallback _ => exact execMgrWidthFallback_keeps_eq (s := s) (by dsimp only [partsOf]; decide) e (Keeps.refl s)
  | mgrWidthRestoreX2 => exact execMgrWidthRestoreX2_keeps_eq (s := s) (by dsimp only [partsOf]; decide) e (Keeps.refl s)
  | mgrLoopWrite _ _ => exact execMgrLoopWrite_keeps_eq (s := s) (by dsimp only [partsOf]; decide) e (Keeps.refl s)
  | prbsCheckerLock _ => exact execPrbsCheckerLock_keeps_eq (s := s) (by dsimp only [partsOf]; decide) e (Keeps.refl s)
  | prbsCheckerLockLoss _ _ => exact execPrbsCheckerLockLoss_keeps_eq (s := s) (by dsimp only [partsOf]; decide) e (Keeps.refl s)
  | onoraDataFrame _ _ => exact execOnoraDataFrame_keeps_eq (s := s) (by dsimp only [partsOf]; decide) e (Keeps.refl s)
  | onoraIdleFrame _ _ _ => exact execOnoraIdleFrame_keeps_eq (s := s) (by dsimp only [partsOf]; decide) e (Keeps.refl s)
  | onoraLeaveFrame _ => exact execOnoraLeaveFrame_keeps_eq (s := s) (by dsimp only [partsOf]; decide) e (Keeps.refl s)
  | onoraAckTimer _ => exact execOnoraAckTimer_keeps_eq (s := s) (by dsimp only [partsOf]; decide) e (Keeps.refl s)
  | onoraNakRepeat _ => exact execOnoraNakRepeat_keeps_eq (s := s) (by dsimp only [partsOf]; decide) e (Keeps.refl s)
  | onoraAlignSend _ => exact execOnoraAlignSend_keeps_eq (s := s) (by dsimp only [partsOf]; decide) e (Keeps.refl s)
  | onoraAlignMissing _ => exact execOnoraAlignMissing_keeps_eq (s := s) (by dsimp only [partsOf]; decide) e (Keeps.refl s)
  | onoraCreditTimeout _ => exact execOnoraCreditTimeout_keeps_eq (s := s) (by dsimp only [partsOf]; decide) e (Keeps.refl s)
  | onoraFrameTimeout _ => exact execOnoraFrameTimeout_keeps_eq (s := s) (by dsimp only [partsOf]; decide) e (Keeps.refl s)
  | onoraTrainingBlock _ _ _ => exact execOnoraTrainingBlock_keeps_eq (s := s) (by dsimp only [partsOf]; decide) e (Keeps.refl s)
  | onoraTrainStateComplete _ _ _ => exact execOnoraTrainStateComplete_keeps_eq (s := s) (by dsimp only [partsOf]; decide) e (Keeps.refl s)
  | onoraTrainTimeout _ => exact execOnoraTrainTimeout_keeps_eq (s := s) (by dsimp only [partsOf]; decide) e (Keeps.refl s)
  | onoraTrainRetry _ => exact execOnoraTrainRetry_keeps_eq (s := s) (by dsimp only [partsOf]; decide) e (Keeps.refl s)
  | onoraRetrain _ _ => exact execOnoraRetrain_keeps_eq (s := s) (by dsimp only [partsOf]; decide) e (Keeps.refl s)
  | onoraLeaveSend => exact execOnoraLeaveSend_keeps_eq (s := s) (by dsimp only [partsOf]; decide) e (Keeps.refl s)
  | onlabs _ => exact execOnlabs_keeps_eq (s := s) (by dsimp only [partsOf]; decide) e (Keeps.refl s)
  | routeadv _ _ => exact execRouteadv_keeps_eq (s := s) (by dsimp only [partsOf]; decide) e (Keeps.refl s)
  | routeadvPeriodic => exact execRouteadvPeriodic_keeps_eq (s := s) (by dsimp only [partsOf]; decide) e (Keeps.refl s)
  | routeadvStale _ => exact execRouteadvStale_keeps_eq (s := s) (by dsimp only [partsOf]; decide) e (Keeps.refl s)
  | addrConflictClear _ => exact execAddrConflictClear_keeps_eq (s := s) (by dsimp only [partsOf]; decide) e (Keeps.refl s)
  | chainEpochClose => exact execChainEpochClose_keeps_eq (s := s) (by dsimp only [partsOf]; decide) e (Keeps.refl s)
  | probeSend => exact execProbeSend_keeps_eq (s := s) (by dsimp only [partsOf]; decide) e (Keeps.refl s)
  | probe _ _ _ => exact execProbe_keeps_eq (s := s) (by dsimp only [partsOf]; decide) e (Keeps.refl s)
  | probersp _ _ => exact execProbersp_keeps_eq (s := s) (by dsimp only [partsOf]; decide) e (Keeps.refl s)
  | blob _ _ _ => exact execBlob_keeps_eq (s := s) (by dsimp only [partsOf]; decide) e (Keeps.refl s)
  | blobAck _ _ => exact execBlobAck_keeps_eq (s := s) (by dsimp only [partsOf]; decide) e (Keeps.refl s)
  | blobRetransmit _ => exact execBlobRetransmit_keeps_eq (s := s) (by dsimp only [partsOf]; decide) e (Keeps.refl s)
  | keyx _ _ _ _ => exact execKeyx_keeps_eq (s := s) (by dsimp only [partsOf]; decide) e (Keeps.refl s)
  | xfer _ => exact execXfer_keeps_eq (s := s) (by dsimp only [partsOf]; decide) e (Keeps.refl s)
  | chainImport _ => exact execChainImport_keeps_eq (s := s) (by dsimp only [partsOf]; decide) e (Keeps.refl s)
  | onoraResponseReturn _ _ => exact execOnoraResponseReturn_keeps_eq (s := s) (by dsimp only [partsOf]; decide) e (Keeps.refl s)
  | onoraSignalRegained _ => exact execOnoraSignalRegained_keeps_eq (s := s) (by dsimp only [partsOf]; decide) e (Keeps.refl s)
  | rebuildStart _ _ => exact execRebuildStart_keeps_eq (s := s) (by dsimp only [partsOf]; decide) e (Keeps.refl s)
  | spHeartbeatMiss _ => exact execSpHeartbeatMiss_keeps_eq (s := s) (by dsimp only [partsOf]; decide) e (Keeps.refl s)
  | fenceReturnGo _ => exact execFenceReturnGo_keeps_eq (s := s) (by dsimp only [partsOf]; decide) e (Keeps.refl s)
  | returnSelfTestComplete _ => exact execReturnSelfTestComplete_keeps_eq (s := s) (by dsimp only [partsOf]; decide) e (Keeps.refl s)
  | logFetch _ _ _ => exact execLogFetch_keeps_eq (s := s) (by dsimp only [partsOf]; decide) e (Keeps.refl s)
  | logFetchComplete => exact execLogFetchComplete_keeps_eq (s := s) (by dsimp only [partsOf]; decide) e (Keeps.refl s)
  | rindStart => exact execRindStart_keeps_eq (s := s) (by dsimp only [partsOf]; decide) e (Keeps.refl s)
  | rindStop => exact absurd rfl hc
  | feedValid _ _ => exact execFeedValid_keeps_eq (s := s) (by dsimp only [partsOf]; decide) e (Keeps.refl s)
  | feedUv _ _ => exact execFeedUv_keeps_eq (s := s) (by dsimp only [partsOf]; decide) e (Keeps.refl s)
  | feedOv _ _ => exact execFeedOv_keeps_eq (s := s) (by dsimp only [partsOf]; decide) e (Keeps.refl s)
  | idealDiodeReverseOff _ => exact execIdealDiodeReverseOff_keeps_eq (s := s) (by dsimp only [partsOf]; decide) e (Keeps.refl s)
  | senseMated => exact execSenseMated_keeps_eq (s := s) (by dsimp only [partsOf]; decide) e (Keeps.refl s)
  | debounceExpiry => exact execDebounceExpiry_keeps_eq (s := s) (by dsimp only [partsOf]; decide) e (Keeps.refl s)
  | rampComplete _ => exact execRampComplete_keeps_eq (s := s) (by dsimp only [partsOf]; decide) e (Keeps.refl s)
  | rampTimeout => exact execRampTimeout_keeps_eq (s := s) (by dsimp only [partsOf]; decide) e (Keeps.refl s)
  | shortDetect => exact execShortDetect_keeps_eq (s := s) (by dsimp only [partsOf]; decide) e (Keeps.refl s)
  | rampComparatorTrip _ _ => exact execRampComparatorTrip_keeps_eq (s := s) (by dsimp only [partsOf]; decide) e (Keeps.refl s)
  | faultTimerExpiry _ _ => exact execFaultTimerExpiry_keeps_eq (s := s) (by dsimp only [partsOf]; decide) e (Keeps.refl s)
  | fastTrip _ _ => exact execFastTrip_keeps_eq (s := s) (by dsimp only [partsOf]; decide) e (Keeps.refl s)
  | tripWaitExpiry => exact execTripWaitExpiry_keeps_eq (s := s) (by dsimp only [partsOf]; decide) e (Keeps.refl s)
  | latchClearEnableCycle => exact execLatchClearEnableCycle_keeps_eq (s := s) (by dsimp only [partsOf]; decide) e (Keeps.refl s)
  | latchClearReinsertion => exact execLatchClearReinsertion_keeps_eq (s := s) (by dsimp only [partsOf]; decide) e (Keeps.refl s)
  | retryCountClear => exact execRetryCountClear_keeps_eq (s := s) (by dsimp only [partsOf]; decide) e (Keeps.refl s)
  | pwrgdAssert => exact execPwrgdAssert_keeps_eq (s := s) (by dsimp only [partsOf]; decide) e (Keeps.refl s)
  | feedwarnTimeout => exact execFeedwarnTimeout_keeps_eq (s := s) (by dsimp only [partsOf]; decide) e (Keeps.refl s)
  | senseSBreak => exact execSenseSBreak_keeps_eq (s := s) (by dsimp only [partsOf]; decide) e (Keeps.refl s)
  | senseLmOpen _ => exact execSenseLmOpen_keeps_eq (s := s) (by dsimp only [partsOf]; decide) e (Keeps.refl s)
  | clrPeak _ => exact execClrPeak_keeps_eq (s := s) (by dsimp only [partsOf]; decide) e (Keeps.refl s)
  | xtalLoss => exact execXtalLoss_keeps_eq (s := s) (by dsimp only [partsOf]; decide) e (Keeps.refl s)
  | xtalRestore => exact execXtalRestore_keeps_eq (s := s) (by dsimp only [partsOf]; decide) e (Keeps.refl s)
  | rtcXtalLoss => exact execRtcXtalLoss_keeps_eq (s := s) (by dsimp only [partsOf]; decide) e (Keeps.refl s)
  | pllLock _ => exact execPllLock_keeps_eq (s := s) (by dsimp only [partsOf]; decide) e (Keeps.refl s)
  | pllUnlock _ => exact execPllUnlock_keeps_eq (s := s) (by dsimp only [partsOf]; decide) e (Keeps.refl s)
  | retentionIdle _ => exact execRetentionIdle_keeps_eq (s := s) (by dsimp only [partsOf]; decide) e (Keeps.refl s)
  | rtcWrite _ _ => exact execRtcWrite_keeps_eq (s := s) (by dsimp only [partsOf]; decide) e (Keeps.refl s)
  | sleepClrMax _ => exact execSleepClrMax_keeps_eq (s := s) (by dsimp only [partsOf]; decide) e (Keeps.refl s)
  | norRead _ _ _ => exact execNorRead_keeps_eq (s := s) (by dsimp only [partsOf]; decide) e (Keeps.refl s)
  | norProgram _ _ _ => exact execNorProgram_keeps_eq (s := s) (by dsimp only [partsOf]; decide) e (Keeps.refl s)
  | norErase _ _ _ => exact execNorErase_keeps_eq (s := s) (by dsimp only [partsOf]; decide) e (Keeps.refl s)
  | norOpComplete _ => exact execNorOpComplete_keeps_eq (s := s) (by dsimp only [partsOf]; decide) e (Keeps.refl s)
  | norLogWrite _ => exact execNorLogWrite_keeps_eq (s := s) (by dsimp only [partsOf]; decide) e (Keeps.refl s)
  | imageVerify _ _ => exact execImageVerify_keeps_eq (s := s) (by dsimp only [partsOf]; decide) e (Keeps.refl s)
  | imageVerifyComplete _ => exact execImageVerifyComplete_keeps_eq (s := s) (by dsimp only [partsOf]; decide) e (Keeps.refl s)
  | lcOpen _ _ => exact execLcOpen_keeps_eq (s := s) (by dsimp only [partsOf]; decide) e (Keeps.refl s)
  | lcSeal _ _ _ => exact execLcSeal_keeps_eq (s := s) (by dsimp only [partsOf]; decide) e (Keeps.refl s)
  | lcReturn _ _ => exact execLcReturn_keeps_eq (s := s) (by dsimp only [partsOf]; decide) e (Keeps.refl s)
  | lcRetire _ _ => exact execLcRetire_keeps_eq (s := s) (by dsimp only [partsOf]; decide) e (Keeps.refl s)
  | lcRevoke _ _ => exact execLcRevoke_keeps_eq (s := s) (by dsimp only [partsOf]; decide) e (Keeps.refl s)
  | fuseProg _ => exact execFuseProg_keeps_eq (s := s) (by dsimp only [partsOf]; decide) e (Keeps.refl s)
  | jtagReset => exact execJtagReset_keeps_eq (s := s) (by dsimp only [partsOf]; decide) e (Keeps.refl s)
  | jtagIdcode => exact execJtagIdcode_keeps_eq (s := s) (by dsimp only [partsOf]; decide) e (Keeps.refl s)
  | jtagSamplePreload _ => exact execJtagSamplePreload_keeps_eq (s := s) (by dsimp only [partsOf]; decide) e (Keeps.refl s)
  | jtagExtest _ => exact execJtagExtest_keeps_eq (s := s) (by dsimp only [partsOf]; decide) e (Keeps.refl s)
  | jtagClamp => exact execJtagClamp_keeps_eq (s := s) (by dsimp only [partsOf]; decide) e (Keeps.refl s)
  | jtagHighz => exact execJtagHighz_keeps_eq (s := s) (by dsimp only [partsOf]; decide) e (Keeps.refl s)
  | jtagBypass => exact execJtagBypass_keeps_eq (s := s) (by dsimp only [partsOf]; decide) e (Keeps.refl s)
  | dbgAccRead _ => exact execDbgAccRead_keeps_eq (s := s) (by dsimp only [partsOf]; decide) e (Keeps.refl s)
  | dbgAccWrite _ _ => exact execDbgAccWrite_keeps_eq (s := s) (by dsimp only [partsOf]; decide) e (Keeps.refl s)
  | dbgSp _ _ => exact execDbgSp_keeps_eq (s := s) (by dsimp only [partsOf]; decide) e (Keeps.refl s)
  | makerPrivate _ => exact execMakerPrivate_keeps_eq (s := s) (by dsimp only [partsOf]; decide) e (Keeps.refl s)
  | spdmGetVersion _ => exact execSpdmGetVersion_keeps_eq (s := s) (by dsimp only [partsOf]; decide) e (Keeps.refl s)
  | spdmGetCapabilities _ => exact execSpdmGetCapabilities_keeps_eq (s := s) (by dsimp only [partsOf]; decide) e (Keeps.refl s)
  | spdmNegotiateAlgorithms _ => exact execSpdmNegotiateAlgorithms_keeps_eq (s := s) (by dsimp only [partsOf]; decide) e (Keeps.refl s)
  | spdmGetCertificate _ _ => exact execSpdmGetCertificate_keeps_eq (s := s) (by dsimp only [partsOf]; decide) e (Keeps.refl s)
  | spdmChallenge _ => exact execSpdmChallenge_keeps_eq (s := s) (by dsimp only [partsOf]; decide) e (Keeps.refl s)
  | spdmGetMeasurements _ _ _ => exact execSpdmGetMeasurements_keeps_eq (s := s) (by dsimp only [partsOf]; decide) e (Keeps.refl s)
  | spdmKeyExchange _ => exact execSpdmKeyExchange_keeps_eq (s := s) (by dsimp only [partsOf]; decide) e (Keeps.refl s)
  | spdmSignComplete => exact execSpdmSignComplete_keeps_eq (s := s) (by dsimp only [partsOf]; decide) e (Keeps.refl s)
  | zmpAcquire _ _ => exact execZmpAcquire_keeps_eq (s := s) (by dsimp only [partsOf]; decide) e (Keeps.refl s)
  | zmpRenew _ _ => exact execZmpRenew_keeps_eq (s := s) (by dsimp only [partsOf]; decide) e (Keeps.refl s)
  | zmpRelease _ _ => exact execZmpRelease_keeps_eq (s := s) (by dsimp only [partsOf]; decide) e (Keeps.refl s)
  | zmpRead _ _ _ => exact execZmpRead_keeps_eq (s := s) (by dsimp only [partsOf]; decide) e (Keeps.refl s)
  | zmpWrite _ _ _ => exact execZmpWrite_keeps_eq (s := s) (by dsimp only [partsOf]; decide) e (Keeps.refl s)
  | zmpMctp _ _ => exact execZmpMctp_keeps_eq (s := s) (by dsimp only [partsOf]; decide) e (Keeps.refl s)
  | zmpPing _ => exact execZmpPing_keeps_eq (s := s) (by dsimp only [partsOf]; decide) e (Keeps.refl s)
  | mctpControl _ _ => exact execMctpControl_keeps_eq (s := s) (by dsimp only [partsOf]; decide) e (Keeps.refl s)
  | mctpVendorZmp _ _ _ => exact execMctpVendorZmp_keeps_eq (s := s) (by dsimp only [partsOf]; decide) e (Keeps.refl s)
  | leaseExpiry => exact execLeaseExpiry_keeps_eq (s := s) (by dsimp only [partsOf]; decide) e (Keeps.refl s)
  | registerWrite _ _ _ => exact execRegisterWrite_keeps_eq (s := s) (by dsimp only [partsOf]; decide) e (Keeps.refl s)
  | commitGo _ => exact execCommitGo_keeps_eq (s := s) (by dsimp only [partsOf]; decide) e (Keeps.refl s)
  | commitDiscard _ => exact execCommitDiscard_keeps_eq (s := s) (by dsimp only [partsOf]; decide) e (Keeps.refl s)
  | commitCheckComplete => exact execCommitCheckComplete_keeps_eq (s := s) (by dsimp only [partsOf]; decide) e (Keeps.refl s)
  | commitApply _ => exact execCommitApply_keeps_eq (s := s) (by dsimp only [partsOf]; decide) e (Keeps.refl s)
  | commitPendingApply _ _ => exact execCommitPendingApply_keeps_eq (s := s) (by dsimp only [partsOf]; decide) e (Keeps.refl s)
  | commitEpochEnd => exact execCommitEpochEnd_keeps_eq (s := s) (by dsimp only [partsOf]; decide) e (Keeps.refl s)
  | ctrOverflow _ _ _ => exact execCtrOverflow_keeps_eq (s := s) (by dsimp only [partsOf]; decide) e (Keeps.refl s)
  | ctrCapture _ _ => exact execCtrCapture_keeps_eq (s := s) (by dsimp only [partsOf]; decide) e (Keeps.refl s)
  | ctrValWrite _ _ _ _ _ => exact execCtrValWrite_keeps_eq (s := s) (by dsimp only [partsOf]; decide) e (Keeps.refl s)
  | ctrPairWrite _ _ _ _ _ _ => exact execCtrPairWrite_keeps_eq (s := s) (by dsimp only [partsOf]; decide) e (Keeps.refl s)
  | ctrFreezeWrite _ _ _ => exact execCtrFreezeWrite_keeps_eq (s := s) (by dsimp only [partsOf]; decide) e (Keeps.refl s)
  | ctrSnap _ _ => exact execCtrSnap_keeps_eq (s := s) (by dsimp only [partsOf]; decide) e (Keeps.refl s)
  | ctrSnapAtReached _ => exact execCtrSnapAtReached_keeps_eq (s := s) (by dsimp only [partsOf]; decide) e (Keeps.refl s)
  | instCtrSnap _ _ => exact execInstCtrSnap_keeps_eq (s := s) (by dsimp only [partsOf]; decide) e (Keeps.refl s)
  | thermalWarn _ => exact execThermalWarn_keeps_eq (s := s) (by dsimp only [partsOf]; decide) e (Keeps.refl s)
  | thermalRelease => exact execThermalRelease_keeps_eq (s := s) (by dsimp only [partsOf]; decide) e (Keeps.refl s)
  | thermalTrip _ => exact execThermalTrip_keeps_eq (s := s) (by dsimp only [partsOf]; decide) e (Keeps.refl s)
  | hostCxlIoRequest _ _ => exact execHostCxlIoRequest_keeps_eq (s := s) (by dsimp only [partsOf]; decide) e (Keeps.refl s)
  | lathEdgeActive _ _ => exact execLathEdgeActive_keeps_eq (s := s) (by dsimp only [partsOf]; decide) e (Keeps.refl s)
/-- RIND_STOP keeps all of it but the mode. -/
theorem State.unpower_sound {s : State} (h : s.Sound) : s.unpower.Sound := by
  have h0 : regsOk (s.unpower).regs = true := by
    unfold State.unpower
    exact (State.wr_keeps (P := 2) rfl (Keeps.refl _) _ _).regs (regsOk_filter h.regs _)
  exact ⟨h0, h.nor, rfl, Nat.zero_le _, Nat.zero_le _⟩
theorem execRindStop_cases {s t : State} (e : execRindStop s = .next t) : t = s ∨ t = s.unpower := by
  unfold execRindStop State.onRind at e
  cases e
  split
  · exact .inr rfl
  · exact .inl rfl
theorem exec_sound {c : Instr} {s t : State} (h : s.Sound) (e : exec c s = .next t) : t.Sound := by
  by_cases hc : c = .rindStop
  · subst hc
    rcases execRindStop_cases (s := s) e with rfl | rfl
    · exact h
    · exact State.unpower_sound h
  · exact (exec_keeps hc e).sound h
theorem exec_queue {c : Instr} {s t : State} (e : exec c s = .next t) : t.pending = s.pending := by
  by_cases hc : c = .rindStop
  · subst hc
    rcases execRindStop_cases (s := s) e with rfl | rfl <;> rfl
  · exact (exec_keeps hc e).queue
theorem exec_key {c : Instr} {s t : State} {k : ℕ} (e : exec c s = .next t) (h : s.img.rootKey = some k) : t.img.rootKey = some k := by
  by_cases hc : c = .rindStop
  · subst hc
    rcases execRindStop_cases (s := s) e with rfl | rfl <;> exact h
  · exact (exec_keeps hc e).key k h

end Sys2Proof.Machine
end

