-- ==== Sys2Proof/Laws/State.lean ====
section
/-! SUPPORT. What the named operations do to each field of State, and how a register field reads after a write. -/

set_option Elab.async false

namespace Sys2Proof.Machine

/-! ### Bit fields -/

theorem testBit_maskAt (l w i : Nat) : (maskAt l w).testBit i = (decide (l ≤ i) && decide (i < l + w)) := by
  unfold maskAt
  rw [Nat.testBit_mul_two_pow, Nat.testBit_two_pow_sub_one]
  by_cases h : l ≤ i
  · simp only [h, decide_true, Bool.true_and, decide_eq_decide]
    omega
  · simp [h]
theorem testBit_putBits (w : Word) (l n k i : Nat) :
    (putBits w l n k).toNat.testBit i = (decide (i < 64) && ((w.toNat.testBit i && !(decide (l ≤ i) && decide (i < l + n)))
      || (decide (l ≤ i) && decide (i < l + n) && k.testBit (i - l)))) := by
  unfold putBits
  rw [BitVec.testBit_toNat, BitVec.getLsbD_or, BitVec.getLsbD_and, BitVec.getLsbD_not, BitVec.getLsbD_ofNat, BitVec.getLsbD_ofNat,
    testBit_maskAt, Nat.testBit_mul_two_pow, Nat.testBit_mod_two_pow, BitVec.testBit_toNat]
  by_cases hi : i < 64 <;> by_cases hl : l ≤ i <;> by_cases hn : i < l + n
  all_goals simp [hi, hl, hn]
  all_goals (intro; omega)
theorem getBits_putBits_same (w : Word) {l n : Nat} (k : Nat) (h : l + n ≤ 64) : getBits (putBits w l n k) l n = k % 2 ^ n := by
  apply Nat.eq_of_testBit_eq
  intro i
  unfold getBits
  rw [Nat.testBit_mod_two_pow, Nat.testBit_div_two_pow, testBit_putBits, Nat.testBit_mod_two_pow]
  by_cases hi : i < n
  · have h1 : i + l < 64 := by omega
    have h2 : i + l < l + n := by omega
    simp [hi, h1, h2]
  · simp [hi]
theorem getBits_putBits_other (w : Word) {l n l' n' : Nat} (k : Nat) (h : l + n ≤ l' ∨ l' + n' ≤ l) (h' : l' + n' ≤ 64) :
    getBits (putBits w l n k) l' n' = getBits w l' n' := by
  apply Nat.eq_of_testBit_eq
  intro i
  unfold getBits
  rw [Nat.testBit_mod_two_pow, Nat.testBit_div_two_pow, testBit_putBits, Nat.testBit_mod_two_pow, Nat.testBit_div_two_pow]
  by_cases hi : i < n'
  · have h1 : i + l' < 64 := by omega
    have h2 : ¬(l ≤ i + l' ∧ i + l' < l + n) := by omega
    by_cases h3 : l ≤ i + l'
    · have h4 : ¬ i + l' < l + n := by omega
      simp [hi, h1, h3, h4]
    · simp [hi, h1, h3]
  · simp [hi]

/-! ### Registers -/

theorem mget_mput_same {V : Type} (m : NMap V) (a : Nat) (v : V) : mget (mput m a v) a = some v := by
  induction m with
  | nil => simp [mput, mget]
  | cons e t ih =>
    obtain ⟨k, w⟩ := e
    unfold mput
    split
    · simp [mget]
    · split
      · simp [mget]
      · rename_i h _
        simp [mget, h, ih]
theorem mget_mdel_same {V : Type} (m : NMap V) (a : Nat) : mget (mdel m a) a = none := by
  induction m with
  | nil => rfl
  | cons e t ih =>
    obtain ⟨k, w⟩ := e
    by_cases h : k = a
    · simp only [mdel, List.filter, h, bne_self_eq_false]
      exact ih
    · have h' : (k != a) = true := by simp [h]
      simp only [mdel, List.filter, h', mget, h, if_false]
      exact ih
theorem mgetD_mset_same {V : Type} [DecidableEq V] (d : V) (m : NMap V) (a : Nat) (v : V) : mgetD d (mset d m a v) a = v := by
  unfold mset mgetD
  split
  · rename_i h
    rw [mget_mdel_same, h]
    rfl
  · rw [mget_mput_same]
    rfl
theorem State.reg_setReg_same (s : State) (a : Nat) (w : Word) : (s.setReg a w).reg a = w := mgetD_mset_same _ _ _ _
theorem State.reg_setReg_ne (s : State) {a b : Nat} (w : Word) (h : a ≠ b) : (s.setReg a w).reg b = s.reg b := mgetD_mset_ne _ _ _ _ h
/-- A write of a field leaves every other register. -/
theorem State.reg_wr_ne (s : State) {f : Fld} {b : Nat} (n : Nat) (h : f.addr ≠ b) : (s.wr f n).reg b = s.reg b := s.reg_setReg_ne _ h
/-- A field reads what was written to it, cut to its width. -/
theorem State.rd_wr_same (s : State) {f : Fld} (n : Nat) (h : f.lsb + f.width ≤ 64) : (s.wr f n).rd f = n % 2 ^ f.width := by
  unfold State.rd State.wr
  rw [State.reg_setReg_same]
  exact getBits_putBits_same _ _ h
/-- A write of one register leaves the fields of another. -/
theorem State.rd_wr_ne (s : State) {f g : Fld} (n : Nat) (h : f.addr ≠ g.addr) : (s.wr f n).rd g = s.rd g := by
  unfold State.rd
  rw [State.reg_wr_ne s n h]
/-- A write of one field leaves the other fields of its register. -/
theorem State.rd_wr_other (s : State) {f g : Fld} (n : Nat) (e : f.addr = g.addr) (h : f.lsb + f.width ≤ g.lsb ∨ g.lsb + g.width ≤ f.lsb)
    (h' : g.lsb + g.width ≤ 64) : (s.wr f n).rd g = s.rd g := by
  unfold State.rd State.wr
  rw [← e, State.reg_setReg_same]
  exact getBits_putBits_other _ _ h h'
/-- A field never reads more than its width holds. -/
theorem State.rd_lt (s : State) (f : Fld) : s.rd f < 2 ^ f.width := Nat.mod_lt _ (Nat.two_pow_pos _)
/-- Fields read the same in states with the same registers. -/
theorem State.rd_congr {s t : State} (h : t.regs = s.regs) (f : Fld) : t.rd f = s.rd f := by
  unfold State.rd State.reg
  rw [h]
theorem State.reg_congr {s t : State} (h : t.regs = s.regs) (a : Nat) : t.reg a = s.reg a := by
  unfold State.reg
  rw [h]
/-- A saturating field holds the lesser of its largest value and the sum. -/
theorem State.rd_sat (s : State) {f : Fld} (k : Nat) (h : f.lsb + f.width ≤ 64) : (s.sat f k).rd f = min (2 ^ f.width - 1) (s.rd f + k) := by
  unfold State.sat
  rw [State.rd_wr_same s _ h, Nat.mod_eq_of_lt]
  have := Nat.two_pow_pos f.width
  omega
theorem State.rd_inc (s : State) {f : Fld} (k : Nat) (h : f.lsb + f.width ≤ 64) : (s.inc f k).rd f = (s.rd f + k) % 2 ^ f.width :=
  State.rd_wr_same s _ h
theorem State.rd_dec (s : State) {f : Fld} (k : Nat) (h : f.lsb + f.width ≤ 64) : (s.dec f k).rd f = s.rd f - k := by
  unfold State.dec
  rw [State.rd_wr_same s _ h, Nat.mod_eq_of_lt]
  have := State.rd_lt s f
  omega
@[simp] theorem State.rd_emit (s : State) (o : Out) (f : Fld) : (s.emit o).rd f = s.rd f := rfl
@[simp] theorem State.rd_send (s : State) (p : Pkt) (f : Fld) : (s.send p).rd f = s.rd f := rfl
@[simp] theorem State.rd_take (s : State) (p : Pkt) (f : Fld) : (s.take p).rd f = s.rd f := rfl
@[simp] theorem State.emit_regs (s : State) (o : Out) : (s.emit o).regs = s.regs := rfl
@[simp] theorem State.send_regs (s : State) (p : Pkt) : (s.send p).regs = s.regs := rfl
@[simp] theorem State.take_regs (s : State) (p : Pkt) : (s.take p).regs = s.regs := rfl
@[simp] theorem State.emit_out (s : State) (o : Out) : (s.emit o).out = o :: s.out := rfl
@[simp] theorem State.send_flight (s : State) (p : Pkt) : (s.send p).scrim.flight = s.scrim.flight ++ [{ loc := p.src, p := s.issued p }] := rfl

/-- The registers of a state that differs from t in other parts. -/
theorem State.reg_mk (t : State) {pending mode setNow cyc freeCtr out activeSp spGone roles drained scrim xbar spill sched home log pwr lane onl img pool sec mgr ctr
    therm jtag spdm wall} (a : ℕ) :
    State.reg ⟨pending, mode, t.regs, setNow, cyc, freeCtr, out, activeSp, spGone, roles, drained, scrim, xbar, spill, sched, home, log, pwr, lane, onl,
      img, pool, sec, mgr, ctr, therm, jtag, spdm, wall⟩ a = t.reg a := rfl
theorem foldl_reg {α : Type} {a : ℕ} {l : List α} {f : State → α → State} (k : ∀ t x, (f t x).reg a = t.reg a) (s : State) :
    (l.foldl f s).reg a = s.reg a := by
  induction l generalizing s with
  | nil => rfl
  | cons x l ih => exact (ih _).trans (k s x)
theorem State.rd_of_reg {s t : State} {f : Fld} (h : t.reg f.addr = s.reg f.addr) : t.rd f = s.rd f := by
  unfold State.rd
  rw [h]
theorem State.rd_mk (t : State) {pending mode setNow cyc freeCtr out activeSp spGone roles drained scrim xbar spill sched home log pwr lane onl img pool sec mgr ctr
    therm jtag spdm wall} (f : Fld) :
    State.rd ⟨pending, mode, t.regs, setNow, cyc, freeCtr, out, activeSp, spGone, roles, drained, scrim, xbar, spill, sched, home, log, pwr, lane, onl,
      img, pool, sec, mgr, ctr, therm, jtag, spdm, wall⟩ f = t.rd f := rfl
/-- Two fields that share no bit. -/
def Fld.apart (f g : Fld) : Bool :=
  (f.addr != g.addr || decide (f.lsb + f.width ≤ g.lsb) || decide (g.lsb + g.width ≤ f.lsb)) && decide (g.lsb + g.width ≤ 64)
/-- A write of a field leaves a field that shares no bit with it. -/
theorem State.rd_wr_apart (s : State) {f g : Fld} (n : Nat) (h : f.apart g = true) : (s.wr f n).rd g = s.rd g := by
  simp only [Fld.apart, Bool.and_eq_true, Bool.or_eq_true, bne_iff_ne, decide_eq_true_eq] at h
  by_cases e : f.addr = g.addr
  · exact State.rd_wr_other s n e (by tauto) h.2
  · exact State.rd_wr_ne s n e

/-! ### One lemma for each operation and field -/

@[simp] theorem State.setReg_pending (s : State) (a : Nat) (w : Word) : (s.setReg a w).pending = s.pending := rfl
@[simp] theorem State.setReg_mode (s : State) (a : Nat) (w : Word) : (s.setReg a w).mode = s.mode := rfl
@[simp] theorem State.setReg_setNow (s : State) (a : Nat) (w : Word) : (s.setReg a w).setNow = s.setNow := rfl
@[simp] theorem State.setReg_cyc (s : State) (a : Nat) (w : Word) : (s.setReg a w).cyc = s.cyc := rfl
@[simp] theorem State.setReg_freeCtr (s : State) (a : Nat) (w : Word) : (s.setReg a w).freeCtr = s.freeCtr := rfl
@[simp] theorem State.setReg_out (s : State) (a : Nat) (w : Word) : (s.setReg a w).out = s.out := rfl
@[simp] theorem State.setReg_activeSp (s : State) (a : Nat) (w : Word) : (s.setReg a w).activeSp = s.activeSp := rfl
@[simp] theorem State.setReg_spGone (s : State) (a : Nat) (w : Word) : (s.setReg a w).spGone = s.spGone := rfl
@[simp] theorem State.setReg_roles (s : State) (a : Nat) (w : Word) : (s.setReg a w).roles = s.roles := rfl
@[simp] theorem State.setReg_drained (s : State) (a : Nat) (w : Word) : (s.setReg a w).drained = s.drained := rfl
@[simp] theorem State.setReg_scrim (s : State) (a : Nat) (w : Word) : (s.setReg a w).scrim = s.scrim := rfl
@[simp] theorem State.setReg_xbar (s : State) (a : Nat) (w : Word) : (s.setReg a w).xbar = s.xbar := rfl
@[simp] theorem State.setReg_spill (s : State) (a : Nat) (w : Word) : (s.setReg a w).spill = s.spill := rfl
@[simp] theorem State.setReg_sched (s : State) (a : Nat) (w : Word) : (s.setReg a w).sched = s.sched := rfl
@[simp] theorem State.setReg_home (s : State) (a : Nat) (w : Word) : (s.setReg a w).home = s.home := rfl
@[simp] theorem State.setReg_log (s : State) (a : Nat) (w : Word) : (s.setReg a w).log = s.log := rfl
@[simp] theorem State.setReg_pwr (s : State) (a : Nat) (w : Word) : (s.setReg a w).pwr = s.pwr := rfl
@[simp] theorem State.setReg_lane (s : State) (a : Nat) (w : Word) : (s.setReg a w).lane = s.lane := rfl
@[simp] theorem State.setReg_onl (s : State) (a : Nat) (w : Word) : (s.setReg a w).onl = s.onl := rfl
@[simp] theorem State.setReg_img (s : State) (a : Nat) (w : Word) : (s.setReg a w).img = s.img := rfl
@[simp] theorem State.setReg_pool (s : State) (a : Nat) (w : Word) : (s.setReg a w).pool = s.pool := rfl
@[simp] theorem State.setReg_sec (s : State) (a : Nat) (w : Word) : (s.setReg a w).sec = s.sec := rfl
@[simp] theorem State.setReg_mgr (s : State) (a : Nat) (w : Word) : (s.setReg a w).mgr = s.mgr := rfl
@[simp] theorem State.setReg_ctr (s : State) (a : Nat) (w : Word) : (s.setReg a w).ctr = s.ctr := rfl
@[simp] theorem State.setReg_therm (s : State) (a : Nat) (w : Word) : (s.setReg a w).therm = s.therm := rfl
@[simp] theorem State.setReg_jtag (s : State) (a : Nat) (w : Word) : (s.setReg a w).jtag = s.jtag := rfl
@[simp] theorem State.setReg_spdm (s : State) (a : Nat) (w : Word) : (s.setReg a w).spdm = s.spdm := rfl
@[simp] theorem State.setReg_wall (s : State) (a : Nat) (w : Word) : (s.setReg a w).wall = s.wall := rfl
@[simp] theorem State.wr_pending (s : State) (f : Fld) (n : Nat) : (s.wr f n).pending = s.pending := rfl
@[simp] theorem State.wr_mode (s : State) (f : Fld) (n : Nat) : (s.wr f n).mode = s.mode := rfl
@[simp] theorem State.wr_setNow (s : State) (f : Fld) (n : Nat) : (s.wr f n).setNow = s.setNow := rfl
@[simp] theorem State.wr_cyc (s : State) (f : Fld) (n : Nat) : (s.wr f n).cyc = s.cyc := rfl
@[simp] theorem State.wr_freeCtr (s : State) (f : Fld) (n : Nat) : (s.wr f n).freeCtr = s.freeCtr := rfl
@[simp] theorem State.wr_out (s : State) (f : Fld) (n : Nat) : (s.wr f n).out = s.out := rfl
@[simp] theorem State.wr_activeSp (s : State) (f : Fld) (n : Nat) : (s.wr f n).activeSp = s.activeSp := rfl
@[simp] theorem State.wr_spGone (s : State) (f : Fld) (n : Nat) : (s.wr f n).spGone = s.spGone := rfl
@[simp] theorem State.wr_roles (s : State) (f : Fld) (n : Nat) : (s.wr f n).roles = s.roles := rfl
@[simp] theorem State.wr_drained (s : State) (f : Fld) (n : Nat) : (s.wr f n).drained = s.drained := rfl
@[simp] theorem State.wr_scrim (s : State) (f : Fld) (n : Nat) : (s.wr f n).scrim = s.scrim := rfl
@[simp] theorem State.wr_xbar (s : State) (f : Fld) (n : Nat) : (s.wr f n).xbar = s.xbar := rfl
@[simp] theorem State.wr_spill (s : State) (f : Fld) (n : Nat) : (s.wr f n).spill = s.spill := rfl
@[simp] theorem State.wr_sched (s : State) (f : Fld) (n : Nat) : (s.wr f n).sched = s.sched := rfl
@[simp] theorem State.wr_home (s : State) (f : Fld) (n : Nat) : (s.wr f n).home = s.home := rfl
@[simp] theorem State.wr_log (s : State) (f : Fld) (n : Nat) : (s.wr f n).log = s.log := rfl
@[simp] theorem State.wr_pwr (s : State) (f : Fld) (n : Nat) : (s.wr f n).pwr = s.pwr := rfl
@[simp] theorem State.wr_lane (s : State) (f : Fld) (n : Nat) : (s.wr f n).lane = s.lane := rfl
@[simp] theorem State.wr_onl (s : State) (f : Fld) (n : Nat) : (s.wr f n).onl = s.onl := rfl
@[simp] theorem State.wr_img (s : State) (f : Fld) (n : Nat) : (s.wr f n).img = s.img := rfl
@[simp] theorem State.wr_pool (s : State) (f : Fld) (n : Nat) : (s.wr f n).pool = s.pool := rfl
@[simp] theorem State.wr_sec (s : State) (f : Fld) (n : Nat) : (s.wr f n).sec = s.sec := rfl
@[simp] theorem State.wr_mgr (s : State) (f : Fld) (n : Nat) : (s.wr f n).mgr = s.mgr := rfl
@[simp] theorem State.wr_ctr (s : State) (f : Fld) (n : Nat) : (s.wr f n).ctr = s.ctr := rfl
@[simp] theorem State.wr_therm (s : State) (f : Fld) (n : Nat) : (s.wr f n).therm = s.therm := rfl
@[simp] theorem State.wr_jtag (s : State) (f : Fld) (n : Nat) : (s.wr f n).jtag = s.jtag := rfl
@[simp] theorem State.wr_spdm (s : State) (f : Fld) (n : Nat) : (s.wr f n).spdm = s.spdm := rfl
@[simp] theorem State.wr_wall (s : State) (f : Fld) (n : Nat) : (s.wr f n).wall = s.wall := rfl
@[simp] theorem State.wrb_pending (s : State) (f : Fld) (b : Bool) : (s.wrb f b).pending = s.pending := rfl
@[simp] theorem State.wrb_mode (s : State) (f : Fld) (b : Bool) : (s.wrb f b).mode = s.mode := rfl
@[simp] theorem State.wrb_setNow (s : State) (f : Fld) (b : Bool) : (s.wrb f b).setNow = s.setNow := rfl
@[simp] theorem State.wrb_cyc (s : State) (f : Fld) (b : Bool) : (s.wrb f b).cyc = s.cyc := rfl
@[simp] theorem State.wrb_freeCtr (s : State) (f : Fld) (b : Bool) : (s.wrb f b).freeCtr = s.freeCtr := rfl
@[simp] theorem State.wrb_out (s : State) (f : Fld) (b : Bool) : (s.wrb f b).out = s.out := rfl
@[simp] theorem State.wrb_activeSp (s : State) (f : Fld) (b : Bool) : (s.wrb f b).activeSp = s.activeSp := rfl
@[simp] theorem State.wrb_spGone (s : State) (f : Fld) (b : Bool) : (s.wrb f b).spGone = s.spGone := rfl
@[simp] theorem State.wrb_roles (s : State) (f : Fld) (b : Bool) : (s.wrb f b).roles = s.roles := rfl
@[simp] theorem State.wrb_drained (s : State) (f : Fld) (b : Bool) : (s.wrb f b).drained = s.drained := rfl
@[simp] theorem State.wrb_scrim (s : State) (f : Fld) (b : Bool) : (s.wrb f b).scrim = s.scrim := rfl
@[simp] theorem State.wrb_xbar (s : State) (f : Fld) (b : Bool) : (s.wrb f b).xbar = s.xbar := rfl
@[simp] theorem State.wrb_spill (s : State) (f : Fld) (b : Bool) : (s.wrb f b).spill = s.spill := rfl
@[simp] theorem State.wrb_sched (s : State) (f : Fld) (b : Bool) : (s.wrb f b).sched = s.sched := rfl
@[simp] theorem State.wrb_home (s : State) (f : Fld) (b : Bool) : (s.wrb f b).home = s.home := rfl
@[simp] theorem State.wrb_log (s : State) (f : Fld) (b : Bool) : (s.wrb f b).log = s.log := rfl
@[simp] theorem State.wrb_pwr (s : State) (f : Fld) (b : Bool) : (s.wrb f b).pwr = s.pwr := rfl
@[simp] theorem State.wrb_lane (s : State) (f : Fld) (b : Bool) : (s.wrb f b).lane = s.lane := rfl
@[simp] theorem State.wrb_onl (s : State) (f : Fld) (b : Bool) : (s.wrb f b).onl = s.onl := rfl
@[simp] theorem State.wrb_img (s : State) (f : Fld) (b : Bool) : (s.wrb f b).img = s.img := rfl
@[simp] theorem State.wrb_pool (s : State) (f : Fld) (b : Bool) : (s.wrb f b).pool = s.pool := rfl
@[simp] theorem State.wrb_sec (s : State) (f : Fld) (b : Bool) : (s.wrb f b).sec = s.sec := rfl
@[simp] theorem State.wrb_mgr (s : State) (f : Fld) (b : Bool) : (s.wrb f b).mgr = s.mgr := rfl
@[simp] theorem State.wrb_ctr (s : State) (f : Fld) (b : Bool) : (s.wrb f b).ctr = s.ctr := rfl
@[simp] theorem State.wrb_therm (s : State) (f : Fld) (b : Bool) : (s.wrb f b).therm = s.therm := rfl
@[simp] theorem State.wrb_jtag (s : State) (f : Fld) (b : Bool) : (s.wrb f b).jtag = s.jtag := rfl
@[simp] theorem State.wrb_spdm (s : State) (f : Fld) (b : Bool) : (s.wrb f b).spdm = s.spdm := rfl
@[simp] theorem State.wrb_wall (s : State) (f : Fld) (b : Bool) : (s.wrb f b).wall = s.wall := rfl
@[simp] theorem State.inc_pending (s : State) (f : Fld) (k : Nat) : (s.inc f k).pending = s.pending := rfl
@[simp] theorem State.inc_mode (s : State) (f : Fld) (k : Nat) : (s.inc f k).mode = s.mode := rfl
@[simp] theorem State.inc_setNow (s : State) (f : Fld) (k : Nat) : (s.inc f k).setNow = s.setNow := rfl
@[simp] theorem State.inc_cyc (s : State) (f : Fld) (k : Nat) : (s.inc f k).cyc = s.cyc := rfl
@[simp] theorem State.inc_freeCtr (s : State) (f : Fld) (k : Nat) : (s.inc f k).freeCtr = s.freeCtr := rfl
@[simp] theorem State.inc_out (s : State) (f : Fld) (k : Nat) : (s.inc f k).out = s.out := rfl
@[simp] theorem State.inc_activeSp (s : State) (f : Fld) (k : Nat) : (s.inc f k).activeSp = s.activeSp := rfl
@[simp] theorem State.inc_spGone (s : State) (f : Fld) (k : Nat) : (s.inc f k).spGone = s.spGone := rfl
@[simp] theorem State.inc_roles (s : State) (f : Fld) (k : Nat) : (s.inc f k).roles = s.roles := rfl
@[simp] theorem State.inc_drained (s : State) (f : Fld) (k : Nat) : (s.inc f k).drained = s.drained := rfl
@[simp] theorem State.inc_scrim (s : State) (f : Fld) (k : Nat) : (s.inc f k).scrim = s.scrim := rfl
@[simp] theorem State.inc_xbar (s : State) (f : Fld) (k : Nat) : (s.inc f k).xbar = s.xbar := rfl
@[simp] theorem State.inc_spill (s : State) (f : Fld) (k : Nat) : (s.inc f k).spill = s.spill := rfl
@[simp] theorem State.inc_sched (s : State) (f : Fld) (k : Nat) : (s.inc f k).sched = s.sched := rfl
@[simp] theorem State.inc_home (s : State) (f : Fld) (k : Nat) : (s.inc f k).home = s.home := rfl
@[simp] theorem State.inc_log (s : State) (f : Fld) (k : Nat) : (s.inc f k).log = s.log := rfl
@[simp] theorem State.inc_pwr (s : State) (f : Fld) (k : Nat) : (s.inc f k).pwr = s.pwr := rfl
@[simp] theorem State.inc_lane (s : State) (f : Fld) (k : Nat) : (s.inc f k).lane = s.lane := rfl
@[simp] theorem State.inc_onl (s : State) (f : Fld) (k : Nat) : (s.inc f k).onl = s.onl := rfl
@[simp] theorem State.inc_img (s : State) (f : Fld) (k : Nat) : (s.inc f k).img = s.img := rfl
@[simp] theorem State.inc_pool (s : State) (f : Fld) (k : Nat) : (s.inc f k).pool = s.pool := rfl
@[simp] theorem State.inc_sec (s : State) (f : Fld) (k : Nat) : (s.inc f k).sec = s.sec := rfl
@[simp] theorem State.inc_mgr (s : State) (f : Fld) (k : Nat) : (s.inc f k).mgr = s.mgr := rfl
@[simp] theorem State.inc_ctr (s : State) (f : Fld) (k : Nat) : (s.inc f k).ctr = s.ctr := rfl
@[simp] theorem State.inc_therm (s : State) (f : Fld) (k : Nat) : (s.inc f k).therm = s.therm := rfl
@[simp] theorem State.inc_jtag (s : State) (f : Fld) (k : Nat) : (s.inc f k).jtag = s.jtag := rfl
@[simp] theorem State.inc_spdm (s : State) (f : Fld) (k : Nat) : (s.inc f k).spdm = s.spdm := rfl
@[simp] theorem State.inc_wall (s : State) (f : Fld) (k : Nat) : (s.inc f k).wall = s.wall := rfl
@[simp] theorem State.sat_pending (s : State) (f : Fld) (k : Nat) : (s.sat f k).pending = s.pending := rfl
@[simp] theorem State.sat_mode (s : State) (f : Fld) (k : Nat) : (s.sat f k).mode = s.mode := rfl
@[simp] theorem State.sat_setNow (s : State) (f : Fld) (k : Nat) : (s.sat f k).setNow = s.setNow := rfl
@[simp] theorem State.sat_cyc (s : State) (f : Fld) (k : Nat) : (s.sat f k).cyc = s.cyc := rfl
@[simp] theorem State.sat_freeCtr (s : State) (f : Fld) (k : Nat) : (s.sat f k).freeCtr = s.freeCtr := rfl
@[simp] theorem State.sat_out (s : State) (f : Fld) (k : Nat) : (s.sat f k).out = s.out := rfl
@[simp] theorem State.sat_activeSp (s : State) (f : Fld) (k : Nat) : (s.sat f k).activeSp = s.activeSp := rfl
@[simp] theorem State.sat_spGone (s : State) (f : Fld) (k : Nat) : (s.sat f k).spGone = s.spGone := rfl
@[simp] theorem State.sat_roles (s : State) (f : Fld) (k : Nat) : (s.sat f k).roles = s.roles := rfl
@[simp] theorem State.sat_drained (s : State) (f : Fld) (k : Nat) : (s.sat f k).drained = s.drained := rfl
@[simp] theorem State.sat_scrim (s : State) (f : Fld) (k : Nat) : (s.sat f k).scrim = s.scrim := rfl
@[simp] theorem State.sat_xbar (s : State) (f : Fld) (k : Nat) : (s.sat f k).xbar = s.xbar := rfl
@[simp] theorem State.sat_spill (s : State) (f : Fld) (k : Nat) : (s.sat f k).spill = s.spill := rfl
@[simp] theorem State.sat_sched (s : State) (f : Fld) (k : Nat) : (s.sat f k).sched = s.sched := rfl
@[simp] theorem State.sat_home (s : State) (f : Fld) (k : Nat) : (s.sat f k).home = s.home := rfl
@[simp] theorem State.sat_log (s : State) (f : Fld) (k : Nat) : (s.sat f k).log = s.log := rfl
@[simp] theorem State.sat_pwr (s : State) (f : Fld) (k : Nat) : (s.sat f k).pwr = s.pwr := rfl
@[simp] theorem State.sat_lane (s : State) (f : Fld) (k : Nat) : (s.sat f k).lane = s.lane := rfl
@[simp] theorem State.sat_onl (s : State) (f : Fld) (k : Nat) : (s.sat f k).onl = s.onl := rfl
@[simp] theorem State.sat_img (s : State) (f : Fld) (k : Nat) : (s.sat f k).img = s.img := rfl
@[simp] theorem State.sat_pool (s : State) (f : Fld) (k : Nat) : (s.sat f k).pool = s.pool := rfl
@[simp] theorem State.sat_sec (s : State) (f : Fld) (k : Nat) : (s.sat f k).sec = s.sec := rfl
@[simp] theorem State.sat_mgr (s : State) (f : Fld) (k : Nat) : (s.sat f k).mgr = s.mgr := rfl
@[simp] theorem State.sat_ctr (s : State) (f : Fld) (k : Nat) : (s.sat f k).ctr = s.ctr := rfl
@[simp] theorem State.sat_therm (s : State) (f : Fld) (k : Nat) : (s.sat f k).therm = s.therm := rfl
@[simp] theorem State.sat_jtag (s : State) (f : Fld) (k : Nat) : (s.sat f k).jtag = s.jtag := rfl
@[simp] theorem State.sat_spdm (s : State) (f : Fld) (k : Nat) : (s.sat f k).spdm = s.spdm := rfl
@[simp] theorem State.sat_wall (s : State) (f : Fld) (k : Nat) : (s.sat f k).wall = s.wall := rfl
@[simp] theorem State.dec_pending (s : State) (f : Fld) (k : Nat) : (s.dec f k).pending = s.pending := rfl
@[simp] theorem State.dec_mode (s : State) (f : Fld) (k : Nat) : (s.dec f k).mode = s.mode := rfl
@[simp] theorem State.dec_setNow (s : State) (f : Fld) (k : Nat) : (s.dec f k).setNow = s.setNow := rfl
@[simp] theorem State.dec_cyc (s : State) (f : Fld) (k : Nat) : (s.dec f k).cyc = s.cyc := rfl
@[simp] theorem State.dec_freeCtr (s : State) (f : Fld) (k : Nat) : (s.dec f k).freeCtr = s.freeCtr := rfl
@[simp] theorem State.dec_out (s : State) (f : Fld) (k : Nat) : (s.dec f k).out = s.out := rfl
@[simp] theorem State.dec_activeSp (s : State) (f : Fld) (k : Nat) : (s.dec f k).activeSp = s.activeSp := rfl
@[simp] theorem State.dec_spGone (s : State) (f : Fld) (k : Nat) : (s.dec f k).spGone = s.spGone := rfl
@[simp] theorem State.dec_roles (s : State) (f : Fld) (k : Nat) : (s.dec f k).roles = s.roles := rfl
@[simp] theorem State.dec_drained (s : State) (f : Fld) (k : Nat) : (s.dec f k).drained = s.drained := rfl
@[simp] theorem State.dec_scrim (s : State) (f : Fld) (k : Nat) : (s.dec f k).scrim = s.scrim := rfl
@[simp] theorem State.dec_xbar (s : State) (f : Fld) (k : Nat) : (s.dec f k).xbar = s.xbar := rfl
@[simp] theorem State.dec_spill (s : State) (f : Fld) (k : Nat) : (s.dec f k).spill = s.spill := rfl
@[simp] theorem State.dec_sched (s : State) (f : Fld) (k : Nat) : (s.dec f k).sched = s.sched := rfl
@[simp] theorem State.dec_home (s : State) (f : Fld) (k : Nat) : (s.dec f k).home = s.home := rfl
@[simp] theorem State.dec_log (s : State) (f : Fld) (k : Nat) : (s.dec f k).log = s.log := rfl
@[simp] theorem State.dec_pwr (s : State) (f : Fld) (k : Nat) : (s.dec f k).pwr = s.pwr := rfl
@[simp] theorem State.dec_lane (s : State) (f : Fld) (k : Nat) : (s.dec f k).lane = s.lane := rfl
@[simp] theorem State.dec_onl (s : State) (f : Fld) (k : Nat) : (s.dec f k).onl = s.onl := rfl
@[simp] theorem State.dec_img (s : State) (f : Fld) (k : Nat) : (s.dec f k).img = s.img := rfl
@[simp] theorem State.dec_pool (s : State) (f : Fld) (k : Nat) : (s.dec f k).pool = s.pool := rfl
@[simp] theorem State.dec_sec (s : State) (f : Fld) (k : Nat) : (s.dec f k).sec = s.sec := rfl
@[simp] theorem State.dec_mgr (s : State) (f : Fld) (k : Nat) : (s.dec f k).mgr = s.mgr := rfl
@[simp] theorem State.dec_ctr (s : State) (f : Fld) (k : Nat) : (s.dec f k).ctr = s.ctr := rfl
@[simp] theorem State.dec_therm (s : State) (f : Fld) (k : Nat) : (s.dec f k).therm = s.therm := rfl
@[simp] theorem State.dec_jtag (s : State) (f : Fld) (k : Nat) : (s.dec f k).jtag = s.jtag := rfl
@[simp] theorem State.dec_spdm (s : State) (f : Fld) (k : Nat) : (s.dec f k).spdm = s.spdm := rfl
@[simp] theorem State.dec_wall (s : State) (f : Fld) (k : Nat) : (s.dec f k).wall = s.wall := rfl
@[simp] theorem State.raise_pending (s : State) (f : Fld) (n : Nat) : (s.raise f n).pending = s.pending := rfl
@[simp] theorem State.raise_mode (s : State) (f : Fld) (n : Nat) : (s.raise f n).mode = s.mode := rfl
@[simp] theorem State.raise_setNow (s : State) (f : Fld) (n : Nat) : (s.raise f n).setNow = s.setNow := rfl
@[simp] theorem State.raise_cyc (s : State) (f : Fld) (n : Nat) : (s.raise f n).cyc = s.cyc := rfl
@[simp] theorem State.raise_freeCtr (s : State) (f : Fld) (n : Nat) : (s.raise f n).freeCtr = s.freeCtr := rfl
@[simp] theorem State.raise_out (s : State) (f : Fld) (n : Nat) : (s.raise f n).out = s.out := rfl
@[simp] theorem State.raise_activeSp (s : State) (f : Fld) (n : Nat) : (s.raise f n).activeSp = s.activeSp := rfl
@[simp] theorem State.raise_spGone (s : State) (f : Fld) (n : Nat) : (s.raise f n).spGone = s.spGone := rfl
@[simp] theorem State.raise_roles (s : State) (f : Fld) (n : Nat) : (s.raise f n).roles = s.roles := rfl
@[simp] theorem State.raise_drained (s : State) (f : Fld) (n : Nat) : (s.raise f n).drained = s.drained := rfl
@[simp] theorem State.raise_scrim (s : State) (f : Fld) (n : Nat) : (s.raise f n).scrim = s.scrim := rfl
@[simp] theorem State.raise_xbar (s : State) (f : Fld) (n : Nat) : (s.raise f n).xbar = s.xbar := rfl
@[simp] theorem State.raise_spill (s : State) (f : Fld) (n : Nat) : (s.raise f n).spill = s.spill := rfl
@[simp] theorem State.raise_sched (s : State) (f : Fld) (n : Nat) : (s.raise f n).sched = s.sched := rfl
@[simp] theorem State.raise_home (s : State) (f : Fld) (n : Nat) : (s.raise f n).home = s.home := rfl
@[simp] theorem State.raise_log (s : State) (f : Fld) (n : Nat) : (s.raise f n).log = s.log := rfl
@[simp] theorem State.raise_pwr (s : State) (f : Fld) (n : Nat) : (s.raise f n).pwr = s.pwr := rfl
@[simp] theorem State.raise_lane (s : State) (f : Fld) (n : Nat) : (s.raise f n).lane = s.lane := rfl
@[simp] theorem State.raise_onl (s : State) (f : Fld) (n : Nat) : (s.raise f n).onl = s.onl := rfl
@[simp] theorem State.raise_img (s : State) (f : Fld) (n : Nat) : (s.raise f n).img = s.img := rfl
@[simp] theorem State.raise_pool (s : State) (f : Fld) (n : Nat) : (s.raise f n).pool = s.pool := rfl
@[simp] theorem State.raise_sec (s : State) (f : Fld) (n : Nat) : (s.raise f n).sec = s.sec := rfl
@[simp] theorem State.raise_mgr (s : State) (f : Fld) (n : Nat) : (s.raise f n).mgr = s.mgr := rfl
@[simp] theorem State.raise_ctr (s : State) (f : Fld) (n : Nat) : (s.raise f n).ctr = s.ctr := rfl
@[simp] theorem State.raise_therm (s : State) (f : Fld) (n : Nat) : (s.raise f n).therm = s.therm := rfl
@[simp] theorem State.raise_jtag (s : State) (f : Fld) (n : Nat) : (s.raise f n).jtag = s.jtag := rfl
@[simp] theorem State.raise_spdm (s : State) (f : Fld) (n : Nat) : (s.raise f n).spdm = s.spdm := rfl
@[simp] theorem State.raise_wall (s : State) (f : Fld) (n : Nat) : (s.raise f n).wall = s.wall := rfl
@[simp] theorem State.wrBit_pending (s : State) (f : Fld) (b : Nat) (v : Bool) : (s.wrBit f b v).pending = s.pending := rfl
@[simp] theorem State.wrBit_mode (s : State) (f : Fld) (b : Nat) (v : Bool) : (s.wrBit f b v).mode = s.mode := rfl
@[simp] theorem State.wrBit_setNow (s : State) (f : Fld) (b : Nat) (v : Bool) : (s.wrBit f b v).setNow = s.setNow := rfl
@[simp] theorem State.wrBit_cyc (s : State) (f : Fld) (b : Nat) (v : Bool) : (s.wrBit f b v).cyc = s.cyc := rfl
@[simp] theorem State.wrBit_freeCtr (s : State) (f : Fld) (b : Nat) (v : Bool) : (s.wrBit f b v).freeCtr = s.freeCtr := rfl
@[simp] theorem State.wrBit_out (s : State) (f : Fld) (b : Nat) (v : Bool) : (s.wrBit f b v).out = s.out := rfl
@[simp] theorem State.wrBit_activeSp (s : State) (f : Fld) (b : Nat) (v : Bool) : (s.wrBit f b v).activeSp = s.activeSp := rfl
@[simp] theorem State.wrBit_spGone (s : State) (f : Fld) (b : Nat) (v : Bool) : (s.wrBit f b v).spGone = s.spGone := rfl
@[simp] theorem State.wrBit_roles (s : State) (f : Fld) (b : Nat) (v : Bool) : (s.wrBit f b v).roles = s.roles := rfl
@[simp] theorem State.wrBit_drained (s : State) (f : Fld) (b : Nat) (v : Bool) : (s.wrBit f b v).drained = s.drained := rfl
@[simp] theorem State.wrBit_scrim (s : State) (f : Fld) (b : Nat) (v : Bool) : (s.wrBit f b v).scrim = s.scrim := rfl
@[simp] theorem State.wrBit_xbar (s : State) (f : Fld) (b : Nat) (v : Bool) : (s.wrBit f b v).xbar = s.xbar := rfl
@[simp] theorem State.wrBit_spill (s : State) (f : Fld) (b : Nat) (v : Bool) : (s.wrBit f b v).spill = s.spill := rfl
@[simp] theorem State.wrBit_sched (s : State) (f : Fld) (b : Nat) (v : Bool) : (s.wrBit f b v).sched = s.sched := rfl
@[simp] theorem State.wrBit_home (s : State) (f : Fld) (b : Nat) (v : Bool) : (s.wrBit f b v).home = s.home := rfl
@[simp] theorem State.wrBit_log (s : State) (f : Fld) (b : Nat) (v : Bool) : (s.wrBit f b v).log = s.log := rfl
@[simp] theorem State.wrBit_pwr (s : State) (f : Fld) (b : Nat) (v : Bool) : (s.wrBit f b v).pwr = s.pwr := rfl
@[simp] theorem State.wrBit_lane (s : State) (f : Fld) (b : Nat) (v : Bool) : (s.wrBit f b v).lane = s.lane := rfl
@[simp] theorem State.wrBit_onl (s : State) (f : Fld) (b : Nat) (v : Bool) : (s.wrBit f b v).onl = s.onl := rfl
@[simp] theorem State.wrBit_img (s : State) (f : Fld) (b : Nat) (v : Bool) : (s.wrBit f b v).img = s.img := rfl
@[simp] theorem State.wrBit_pool (s : State) (f : Fld) (b : Nat) (v : Bool) : (s.wrBit f b v).pool = s.pool := rfl
@[simp] theorem State.wrBit_sec (s : State) (f : Fld) (b : Nat) (v : Bool) : (s.wrBit f b v).sec = s.sec := rfl
@[simp] theorem State.wrBit_mgr (s : State) (f : Fld) (b : Nat) (v : Bool) : (s.wrBit f b v).mgr = s.mgr := rfl
@[simp] theorem State.wrBit_ctr (s : State) (f : Fld) (b : Nat) (v : Bool) : (s.wrBit f b v).ctr = s.ctr := rfl
@[simp] theorem State.wrBit_therm (s : State) (f : Fld) (b : Nat) (v : Bool) : (s.wrBit f b v).therm = s.therm := rfl
@[simp] theorem State.wrBit_jtag (s : State) (f : Fld) (b : Nat) (v : Bool) : (s.wrBit f b v).jtag = s.jtag := rfl
@[simp] theorem State.wrBit_spdm (s : State) (f : Fld) (b : Nat) (v : Bool) : (s.wrBit f b v).spdm = s.spdm := rfl
@[simp] theorem State.wrBit_wall (s : State) (f : Fld) (b : Nat) (v : Bool) : (s.wrBit f b v).wall = s.wall := rfl
@[simp] theorem State.emit_pending (s : State) (o : Out) : (s.emit o).pending = s.pending := rfl
@[simp] theorem State.emit_mode (s : State) (o : Out) : (s.emit o).mode = s.mode := rfl
@[simp] theorem State.emit_setNow (s : State) (o : Out) : (s.emit o).setNow = s.setNow := rfl
@[simp] theorem State.emit_cyc (s : State) (o : Out) : (s.emit o).cyc = s.cyc := rfl
@[simp] theorem State.emit_freeCtr (s : State) (o : Out) : (s.emit o).freeCtr = s.freeCtr := rfl
@[simp] theorem State.emit_activeSp (s : State) (o : Out) : (s.emit o).activeSp = s.activeSp := rfl
@[simp] theorem State.emit_spGone (s : State) (o : Out) : (s.emit o).spGone = s.spGone := rfl
@[simp] theorem State.emit_roles (s : State) (o : Out) : (s.emit o).roles = s.roles := rfl
@[simp] theorem State.emit_drained (s : State) (o : Out) : (s.emit o).drained = s.drained := rfl
@[simp] theorem State.emit_scrim (s : State) (o : Out) : (s.emit o).scrim = s.scrim := rfl
@[simp] theorem State.emit_xbar (s : State) (o : Out) : (s.emit o).xbar = s.xbar := rfl
@[simp] theorem State.emit_spill (s : State) (o : Out) : (s.emit o).spill = s.spill := rfl
@[simp] theorem State.emit_sched (s : State) (o : Out) : (s.emit o).sched = s.sched := rfl
@[simp] theorem State.emit_home (s : State) (o : Out) : (s.emit o).home = s.home := rfl
@[simp] theorem State.emit_log (s : State) (o : Out) : (s.emit o).log = s.log := rfl
@[simp] theorem State.emit_pwr (s : State) (o : Out) : (s.emit o).pwr = s.pwr := rfl
@[simp] theorem State.emit_lane (s : State) (o : Out) : (s.emit o).lane = s.lane := rfl
@[simp] theorem State.emit_onl (s : State) (o : Out) : (s.emit o).onl = s.onl := rfl
@[simp] theorem State.emit_img (s : State) (o : Out) : (s.emit o).img = s.img := rfl
@[simp] theorem State.emit_pool (s : State) (o : Out) : (s.emit o).pool = s.pool := rfl
@[simp] theorem State.emit_sec (s : State) (o : Out) : (s.emit o).sec = s.sec := rfl
@[simp] theorem State.emit_mgr (s : State) (o : Out) : (s.emit o).mgr = s.mgr := rfl
@[simp] theorem State.emit_ctr (s : State) (o : Out) : (s.emit o).ctr = s.ctr := rfl
@[simp] theorem State.emit_therm (s : State) (o : Out) : (s.emit o).therm = s.therm := rfl
@[simp] theorem State.emit_jtag (s : State) (o : Out) : (s.emit o).jtag = s.jtag := rfl
@[simp] theorem State.emit_spdm (s : State) (o : Out) : (s.emit o).spdm = s.spdm := rfl
@[simp] theorem State.emit_wall (s : State) (o : Out) : (s.emit o).wall = s.wall := rfl
@[simp] theorem State.send_pending (s : State) (p : Pkt) : (s.send p).pending = s.pending := rfl
@[simp] theorem State.send_mode (s : State) (p : Pkt) : (s.send p).mode = s.mode := rfl
@[simp] theorem State.send_setNow (s : State) (p : Pkt) : (s.send p).setNow = s.setNow := rfl
@[simp] theorem State.send_cyc (s : State) (p : Pkt) : (s.send p).cyc = s.cyc := rfl
@[simp] theorem State.send_freeCtr (s : State) (p : Pkt) : (s.send p).freeCtr = s.freeCtr := rfl
@[simp] theorem State.send_out (s : State) (p : Pkt) : (s.send p).out = s.out := rfl
@[simp] theorem State.send_activeSp (s : State) (p : Pkt) : (s.send p).activeSp = s.activeSp := rfl
@[simp] theorem State.send_spGone (s : State) (p : Pkt) : (s.send p).spGone = s.spGone := rfl
@[simp] theorem State.send_roles (s : State) (p : Pkt) : (s.send p).roles = s.roles := rfl
@[simp] theorem State.send_drained (s : State) (p : Pkt) : (s.send p).drained = s.drained := rfl
@[simp] theorem State.send_xbar (s : State) (p : Pkt) : (s.send p).xbar = s.xbar := rfl
@[simp] theorem State.send_spill (s : State) (p : Pkt) : (s.send p).spill = s.spill := rfl
@[simp] theorem State.send_sched (s : State) (p : Pkt) : (s.send p).sched = s.sched := rfl
@[simp] theorem State.send_home (s : State) (p : Pkt) : (s.send p).home = s.home := rfl
@[simp] theorem State.send_log (s : State) (p : Pkt) : (s.send p).log = s.log := rfl
@[simp] theorem State.send_pwr (s : State) (p : Pkt) : (s.send p).pwr = s.pwr := rfl
@[simp] theorem State.send_lane (s : State) (p : Pkt) : (s.send p).lane = s.lane := rfl
@[simp] theorem State.send_onl (s : State) (p : Pkt) : (s.send p).onl = s.onl := rfl
@[simp] theorem State.send_img (s : State) (p : Pkt) : (s.send p).img = s.img := rfl
@[simp] theorem State.send_pool (s : State) (p : Pkt) : (s.send p).pool = s.pool := rfl
@[simp] theorem State.send_sec (s : State) (p : Pkt) : (s.send p).sec = s.sec := rfl
@[simp] theorem State.send_mgr (s : State) (p : Pkt) : (s.send p).mgr = s.mgr := rfl
@[simp] theorem State.send_ctr (s : State) (p : Pkt) : (s.send p).ctr = s.ctr := rfl
@[simp] theorem State.send_therm (s : State) (p : Pkt) : (s.send p).therm = s.therm := rfl
@[simp] theorem State.send_jtag (s : State) (p : Pkt) : (s.send p).jtag = s.jtag := rfl
@[simp] theorem State.send_spdm (s : State) (p : Pkt) : (s.send p).spdm = s.spdm := rfl
@[simp] theorem State.send_wall (s : State) (p : Pkt) : (s.send p).wall = s.wall := rfl
@[simp] theorem State.take_pending (s : State) (p : Pkt) : (s.take p).pending = s.pending := rfl
@[simp] theorem State.take_mode (s : State) (p : Pkt) : (s.take p).mode = s.mode := rfl
@[simp] theorem State.take_setNow (s : State) (p : Pkt) : (s.take p).setNow = s.setNow := rfl
@[simp] theorem State.take_cyc (s : State) (p : Pkt) : (s.take p).cyc = s.cyc := rfl
@[simp] theorem State.take_freeCtr (s : State) (p : Pkt) : (s.take p).freeCtr = s.freeCtr := rfl
@[simp] theorem State.take_out (s : State) (p : Pkt) : (s.take p).out = s.out := rfl
@[simp] theorem State.take_activeSp (s : State) (p : Pkt) : (s.take p).activeSp = s.activeSp := rfl
@[simp] theorem State.take_spGone (s : State) (p : Pkt) : (s.take p).spGone = s.spGone := rfl
@[simp] theorem State.take_roles (s : State) (p : Pkt) : (s.take p).roles = s.roles := rfl
@[simp] theorem State.take_drained (s : State) (p : Pkt) : (s.take p).drained = s.drained := rfl
@[simp] theorem State.take_xbar (s : State) (p : Pkt) : (s.take p).xbar = s.xbar := rfl
@[simp] theorem State.take_spill (s : State) (p : Pkt) : (s.take p).spill = s.spill := rfl
@[simp] theorem State.take_sched (s : State) (p : Pkt) : (s.take p).sched = s.sched := rfl
@[simp] theorem State.take_home (s : State) (p : Pkt) : (s.take p).home = s.home := rfl
@[simp] theorem State.take_log (s : State) (p : Pkt) : (s.take p).log = s.log := rfl
@[simp] theorem State.take_pwr (s : State) (p : Pkt) : (s.take p).pwr = s.pwr := rfl
@[simp] theorem State.take_lane (s : State) (p : Pkt) : (s.take p).lane = s.lane := rfl
@[simp] theorem State.take_onl (s : State) (p : Pkt) : (s.take p).onl = s.onl := rfl
@[simp] theorem State.take_img (s : State) (p : Pkt) : (s.take p).img = s.img := rfl
@[simp] theorem State.take_pool (s : State) (p : Pkt) : (s.take p).pool = s.pool := rfl
@[simp] theorem State.take_sec (s : State) (p : Pkt) : (s.take p).sec = s.sec := rfl
@[simp] theorem State.take_mgr (s : State) (p : Pkt) : (s.take p).mgr = s.mgr := rfl
@[simp] theorem State.take_ctr (s : State) (p : Pkt) : (s.take p).ctr = s.ctr := rfl
@[simp] theorem State.take_therm (s : State) (p : Pkt) : (s.take p).therm = s.therm := rfl
@[simp] theorem State.take_jtag (s : State) (p : Pkt) : (s.take p).jtag = s.jtag := rfl
@[simp] theorem State.take_spdm (s : State) (p : Pkt) : (s.take p).spdm = s.spdm := rfl
@[simp] theorem State.take_wall (s : State) (p : Pkt) : (s.take p).wall = s.wall := rfl

/-! ### A Clear bit that the hardware sets (R22) -/

@[simp] theorem State.flag_pending (s : State) (f : Fld) : (s.flag f).pending = s.pending := rfl
@[simp] theorem State.flag_mode (s : State) (f : Fld) : (s.flag f).mode = s.mode := rfl
@[simp] theorem State.flag_cyc (s : State) (f : Fld) : (s.flag f).cyc = s.cyc := rfl
@[simp] theorem State.flag_freeCtr (s : State) (f : Fld) : (s.flag f).freeCtr = s.freeCtr := rfl
@[simp] theorem State.flag_out (s : State) (f : Fld) : (s.flag f).out = s.out := rfl
@[simp] theorem State.flag_activeSp (s : State) (f : Fld) : (s.flag f).activeSp = s.activeSp := rfl
@[simp] theorem State.flag_spGone (s : State) (f : Fld) : (s.flag f).spGone = s.spGone := rfl
@[simp] theorem State.flag_roles (s : State) (f : Fld) : (s.flag f).roles = s.roles := rfl
@[simp] theorem State.flag_drained (s : State) (f : Fld) : (s.flag f).drained = s.drained := rfl
@[simp] theorem State.flag_scrim (s : State) (f : Fld) : (s.flag f).scrim = s.scrim := rfl
@[simp] theorem State.flag_xbar (s : State) (f : Fld) : (s.flag f).xbar = s.xbar := rfl
@[simp] theorem State.flag_spill (s : State) (f : Fld) : (s.flag f).spill = s.spill := rfl
@[simp] theorem State.flag_sched (s : State) (f : Fld) : (s.flag f).sched = s.sched := rfl
@[simp] theorem State.flag_home (s : State) (f : Fld) : (s.flag f).home = s.home := rfl
@[simp] theorem State.flag_log (s : State) (f : Fld) : (s.flag f).log = s.log := rfl
@[simp] theorem State.flag_pwr (s : State) (f : Fld) : (s.flag f).pwr = s.pwr := rfl
@[simp] theorem State.flag_lane (s : State) (f : Fld) : (s.flag f).lane = s.lane := rfl
@[simp] theorem State.flag_onl (s : State) (f : Fld) : (s.flag f).onl = s.onl := rfl
@[simp] theorem State.flag_img (s : State) (f : Fld) : (s.flag f).img = s.img := rfl
@[simp] theorem State.flag_pool (s : State) (f : Fld) : (s.flag f).pool = s.pool := rfl
@[simp] theorem State.flag_sec (s : State) (f : Fld) : (s.flag f).sec = s.sec := rfl
@[simp] theorem State.flag_mgr (s : State) (f : Fld) : (s.flag f).mgr = s.mgr := rfl
@[simp] theorem State.flag_ctr (s : State) (f : Fld) : (s.flag f).ctr = s.ctr := rfl
@[simp] theorem State.flag_therm (s : State) (f : Fld) : (s.flag f).therm = s.therm := rfl
@[simp] theorem State.flag_jtag (s : State) (f : Fld) : (s.flag f).jtag = s.jtag := rfl
@[simp] theorem State.flag_spdm (s : State) (f : Fld) : (s.flag f).spdm = s.spdm := rfl
@[simp] theorem State.flag_wall (s : State) (f : Fld) : (s.flag f).wall = s.wall := rfl
@[simp] theorem State.flag_regs (s : State) (f : Fld) : (s.flag f).regs = (s.wr f 1).regs := rfl
theorem State.rd_flag (s : State) (f g : Fld) : (s.flag f).rd g = (s.wr f 1).rd g := rfl
theorem State.reg_flag (s : State) (f : Fld) (a : Nat) : (s.flag f).reg a = (s.wr f 1).reg a := rfl
/-- A bit that is set reads 1. -/
theorem State.rd_flag_same (s : State) {f : Fld} (h : f.lsb + f.width ≤ 64) (w : 0 < f.width) : (s.flag f).rd f = 1 := by
  rw [State.rd_flag, State.rd_wr_same s _ h, Nat.mod_eq_of_lt (Nat.one_lt_two_pow (by omega))]
/-- It leaves every other register. -/
theorem State.reg_flag_ne (s : State) {f : Fld} {b : Nat} (h : f.addr ≠ b) : (s.flag f).reg b = s.reg b := s.reg_wr_ne 1 h

end Sys2Proof.Machine
end

