-- ==== Sys2Proof/Laws/Mode.lean ====
section
/-! SUPPORT. What a change of mode does: the mode, PKG_MODE, and what it leaves alone. -/

set_option Elab.async false

namespace Sys2Proof.Machine

/-- Domains, PLLs and wake-ups write no register of the PKG block. -/
theorem State.setDomain_reg (s : State) (n st : ℕ) {a : ℕ} (h : a < 0x100000) : (s.setDomain n st).reg a = s.reg a := by
  have k : (s.wr (domFld n) st).reg a = s.reg a := by
    refine s.reg_wr_ne st fun e => ?_
    simp only [domFld, F.RIND_DOMAIN_STATE_D, F.RIND_DOMAIN_STATE_at] at e
    omega
  unfold State.setDomain
  split
  · rfl
  · dsimp only
    split
    · exact (State.reg_mk (s.wr (domFld n) st) a).trans k
    · exact k
theorem State.setDomains_reg (s : State) {a : ℕ} (h : a < 0x100000) : s.setDomains.reg a = s.reg a := by
  unfold State.setDomains
  split
  · rfl
  · refine foldl_reg (fun t n => ?_) s
    have k0 := State.setDomain_reg t n 0 h
    have k1 := State.setDomain_reg t n 1 h
    generalize t.setDomain n 0 = u at *
    generalize t.setDomain n 1 = v at *
    generalize t.domainWanted n = c
    generalize t.domain n = d
    split
    · split
      · exact k1
      · rfl
    · exact k0
theorem State.pllStart_reg (s : State) (d : ℕ) {a : ℕ} (h : a < 0x100000) : (s.pllStart d).reg a = s.reg a := by
  unfold State.pllStart
  split
  · rfl
  · refine (State.reg_mk (s.wr (F.DIE_PLL_STATUS_STATE d) 1) a).trans (s.reg_wr_ne 1 fun e => ?_)
    simp only [F.DIE_PLL_STATUS_STATE, F.DIE_PLL_STATUS_at] at e
    omega
theorem State.wakeCell_reg (s : State) (c : Cell) {a : ℕ} (h : a < 0x100000) : (s.wakeCell c).reg a = s.reg a := by
  unfold State.wakeCell
  split
  · exact (State.reg_mk ((s.setDomain _ _).setDomain _ _) a).trans ((State.setDomain_reg _ _ _ h).trans (State.setDomain_reg _ _ _ h))
  · rfl
theorem State.sideWakes_reg (s : State) (d e : ℕ) {a : ℕ} (h : a < 0x100000) : (s.sideWakes d e).reg a = s.reg a := by
  unfold State.sideWakes
  dsimp only
  split
  · rfl
  · refine (State.reg_mk (State.wr _ (F.DIE_LATH_STATUS_LINK_LP d e) 0) a).trans ((State.reg_wr_ne _ 0 fun e => ?_).trans ?_)
    · simp only [F.DIE_LATH_STATUS_LINK_LP, F.DIE_LATH_STATUS_at] at e
      omega
    · refine foldl_reg (fun t j => ?_) s
      split
      · unfold State.sat
        exact State.reg_wr_ne _ _ fun e => by
          simp only [F.DIE_LATH_ERR_LP_EXITS, F.DIE_LATH_ERR_at] at e
          omega
      · rfl
theorem State.edgeWakes_reg (s : State) (d e : ℕ) {a : ℕ} (h : a < 0x100000) : (s.edgeWakes d e).reg a = s.reg a := by
  unfold State.edgeWakes
  dsimp only
  split
  · exact (State.sideWakes_reg _ _ _ h).trans (State.sideWakes_reg s d e h)
  · exact State.sideWakes_reg s d e h
theorem State.modeDomains_reg (s : State) (m : Mode) {a : ℕ} (h : a < 0x100000) : (s.modeDomains m).reg a = s.reg a := by
  have k : ∀ u : State, (if m = .drowse ∧ u.mode ≠ .safeStop then (List.range 128).foldl (fun s c => s.wakeCell (Cell.of c))
      ((List.range 32).foldl (fun s x => s.edgeWakes (x / 4) (x % 4)) u) else u).setDomains.reg a
      = u.reg a := by
    intro u
    rw [State.setDomains_reg _ h]
    split
    · exact (foldl_reg (fun t n => State.wakeCell_reg t _ h) _).trans (foldl_reg (fun t n => State.edgeWakes_reg t _ _ h) u)
    · rfl
  refine (k _).trans ?_
  split
  · exact (State.pllStart_reg _ _ h).trans (State.pllStart_reg _ _ h)
  · exact foldl_reg (fun t n => State.pllStart_reg t n h) s
  · exact foldl_reg (fun t n => State.pllStart_reg t n h) s
  · rfl
/-- The raise of the fused minimum writes PKG_IMAGE and the pointers of the audit log only. -/
theorem State.svnJudge_reg (s : State) {a : ℕ} (h : a < 0x280) (h' : a ≠ F.PKG_IMAGE_at) : s.svnJudge.reg a = s.reg a := by
  have hp : ∀ (u : State) (n : ℕ), (u.wr (F.PKG_LOG_PTR_NEXT_SEQ 4) n).reg a = u.reg a := fun u n => u.reg_wr_ne n (by
    simp only [F.PKG_LOG_PTR_NEXT_SEQ, F.PKG_LOG_PTR_at]; omega)
  have ho : ∀ (u : State) (n : ℕ), (u.wr (F.PKG_LOG_PTR_OLDEST_SEQ 4) n).reg a = u.reg a := fun u n => u.reg_wr_ne n (by
    simp only [F.PKG_LOG_PTR_OLDEST_SEQ, F.PKG_LOG_PTR_at]; omega)
  unfold State.svnJudge
  split
  · rfl
  · split
    · dsimp only
      split
      · unfold State.logAudit State.logBump State.inc
        dsimp only
        split
        · exact (ho _ _).trans ((hp _ _).trans (s.reg_wr_ne _ (Ne.symm h')))
        · exact (hp _ _).trans (s.reg_wr_ne _ (Ne.symm h'))
      · rfl
    · rfl
theorem State.svnJudge_mode (s : State) : s.svnJudge.mode = s.mode := (State.svnJudge_keeps (P := 16386) rfl (Keeps.refl s)).frame .mode (by decide)
theorem State.modeDomains_mode (s : State) (m : Mode) : (s.modeDomains m).mode = s.mode :=
  (State.modeDomains_keeps (P := 33282) rfl (Keeps.refl s) m).frame .mode (by decide)
/-- The three fields of PKG_MODE that a transition writes, before domains and the fused minimum follow. -/
def State.noteMode (s : State) (m : Mode) (c : ℕ) : State :=
  { ((s.wr F.PKG_MODE_PREV_MODE s.mode.code).wr F.PKG_MODE_CAUSE c).sat F.PKG_MODE_TRANS_COUNT with mode := m }
theorem State.goMode_eq {s : State} {m : Mode} {c : ℕ} (h : modeOk s.mode m = true) :
    s.goMode m c = ((s.noteMode m c).modeDomains s.mode).svnJudge := by
  unfold State.goMode
  exact if_pos h
/-- A transition of Table 1-9 takes its mode, the mode before it, its cause and its count (R40). -/
theorem State.goMode_mode {s : State} {m : Mode} {c : ℕ} (h : modeOk s.mode m = true) : (s.goMode m c).mode = m := by
  rw [State.goMode_eq h, State.svnJudge_mode, State.modeDomains_mode]
  rfl
theorem State.noteMode_reg {s : State} {m : Mode} {c : ℕ} {a : ℕ} (h : a ≠ F.PKG_MODE_at) : (s.noteMode m c).reg a = s.reg a := by
  refine (State.reg_mk (((s.wr F.PKG_MODE_PREV_MODE s.mode.code).wr F.PKG_MODE_CAUSE c).sat F.PKG_MODE_TRANS_COUNT) a).trans ?_
  unfold State.sat
  rw [State.reg_wr_ne _ _ (Ne.symm h), State.reg_wr_ne _ _ (Ne.symm h), State.reg_wr_ne _ _ (Ne.symm h)]
/-- Registers of the PKG block but PKG_MODE, PKG_IMAGE and the pointers of the logs keep their words. -/
theorem State.goMode_reg {s : State} {m : Mode} {c : ℕ} {a : ℕ} (h : a < 0x280) (h1 : a ≠ F.PKG_IMAGE_at) (h2 : a ≠ F.PKG_MODE_at) :
    (s.goMode m c).reg a = s.reg a := by
  by_cases k : modeOk s.mode m = true
  · rw [State.goMode_eq k, State.svnJudge_reg _ h h1, State.modeDomains_reg _ _ (by omega), State.noteMode_reg h2]
  · unfold State.goMode
    rw [if_neg k]
theorem State.goMode_note {s : State} {m : Mode} {c : ℕ} (h : modeOk s.mode m = true) :
    (s.goMode m c).reg F.PKG_MODE_at = (s.noteMode m c).reg F.PKG_MODE_at := by
  rw [State.goMode_eq h, State.svnJudge_reg _ (by decide) (by decide), State.modeDomains_reg _ _ (by decide)]
theorem State.goMode_cause {s : State} {m : Mode} {c : ℕ} (h : modeOk s.mode m = true) : (s.goMode m c).rd F.PKG_MODE_CAUSE = c % 256 := by
  rw [State.rd_of_reg (State.goMode_note h)]
  refine (State.rd_of_reg (State.reg_mk (((s.wr F.PKG_MODE_PREV_MODE s.mode.code).wr F.PKG_MODE_CAUSE c).sat F.PKG_MODE_TRANS_COUNT) _)).trans ?_
  unfold State.sat
  rw [State.rd_wr_other (f := F.PKG_MODE_TRANS_COUNT) _ _ (by rfl) (by decide) (by decide), State.rd_wr_same _ _ (by decide)]
  rfl
theorem State.goMode_prev {s : State} {m : Mode} {c : ℕ} (h : modeOk s.mode m = true) :
    (s.goMode m c).rd F.PKG_MODE_PREV_MODE = s.mode.code % 16 := by
  rw [State.rd_of_reg (State.goMode_note h)]
  refine (State.rd_of_reg (State.reg_mk (((s.wr F.PKG_MODE_PREV_MODE s.mode.code).wr F.PKG_MODE_CAUSE c).sat F.PKG_MODE_TRANS_COUNT) _)).trans ?_
  unfold State.sat
  rw [State.rd_wr_other (f := F.PKG_MODE_TRANS_COUNT) _ _ (by rfl) (by decide) (by decide),
    State.rd_wr_other (f := F.PKG_MODE_CAUSE) _ _ (by rfl) (by decide) (by decide), State.rd_wr_same _ _ (by decide)]
  rfl

end Sys2Proof.Machine
end

