-- ==== Sys2Proof/Laws/ModeReq.lean ====
section
/-! SUPPORT. What a request of a service processor for a mode does, and what stays of a package that is off. -/

set_option Elab.async false

namespace Sys2Proof.Machine

/-- The fields of PKG_MODE_REQ (Table 1-11). -/
def modeReqReg : RegDef := ⟨0x48, [], [⟨12, 4, .status, false, fun _ => 0⟩, ⟨9, 1, .clear, false, fun _ => 0⟩, ⟨8, 1, .status, false, fun _ => 0⟩,
  ⟨4, 1, .pulse, false, fun _ => 0⟩, ⟨0, 4, .live, false, fun _ => 4⟩]⟩
/-- PKG_MODE_REQ of Table 1-11. -/
theorem regAt_modeReq : regAt 0x48 = some (modeReqReg, []) := rfl
/-- With nothing pending, the active TARGET is the stored one. -/
theorem State.active_modeReq (s : State) (h : s.mgr.pend = []) : getBits (s.active 0x48) 0 4 = s.rd F.PKG_MODE_REQ_TARGET := by
  unfold State.active
  rw [regAt_modeReq]
  have e1 : s.hidden 0x48 = false := rfl
  have e2 : homeAddr 0x48 = 0x48 := rfl
  simp only [e1, e2, h, mget]
  simp only [modeReqReg, List.foldl]
  simp only [Bool.false_eq_true, if_false, reduceCtorEq, if_true]
  rw [getBits_putBits_other _ _ (by decide) (by decide)]
  rw [if_pos (by decide)]
  unfold State.viewPkg
  rw [if_neg (by decide), if_pos (show 72 = F.PKG_MODE_REQ_at from rfl)]
  simp only [showFields, List.foldl]
  rw [getBits_putBits_other _ _ (by decide) (by decide)]
  rfl
/-- The word that asks for mode `t`. -/
theorem wordOf_modeReq (t : Nat) (ht : t < 16) : getBits (wordOf [(F.PKG_MODE_REQ_TARGET, t), (F.PKG_MODE_REQ_GO, 1)]) 0 4 = t ∧
   getBits (wordOf [(F.PKG_MODE_REQ_TARGET, t), (F.PKG_MODE_REQ_GO, 1)]) 4 1 = 1 ∧ getBits (wordOf [(F.PKG_MODE_REQ_TARGET, t), (F.PKG_MODE_REQ_GO, 1)]) 9 1 = 0 := by
  unfold wordOf showFields
  simp only [List.foldl]
  refine ⟨?_, ?_, ?_⟩
  · rw [getBits_putBits_other _ _ (by decide) (by decide)]
    exact (getBits_putBits_same _ _ (by decide)).trans (Nat.mod_eq_of_lt ht)
  · exact getBits_putBits_same _ _ (by decide)
  · rw [getBits_putBits_other _ _ (by decide) (by decide), getBits_putBits_other _ _ (by decide) (by decide)]
    rfl
/-- A request of a service processor for a mode stores TARGET, if it is another, and starts the request (R19, R463). -/
theorem State.modeReqWrite_sp {s : State} (h : s.mgr.pend = []) {t : ℕ} (ht : t < 16) :
    ∃ u, s.modeReqWrite .sp t = u.modeReq ∧ u.rd F.PKG_MODE_REQ_TARGET = t ∧ (u = s ∨ u = s.wr F.PKG_MODE_REQ_TARGET t) := by
  obtain ⟨w1, w2, w3⟩ := wordOf_modeReq t ht
  have e0 : s.rindAccess 0x48 = s := by
    unfold State.rindAccess
    split
    · rfl
    · rfl
  have e1 : s.reaches .sp 0x48 (wordOf [(F.PKG_MODE_REQ_TARGET, t), (F.PKG_MODE_REQ_GO, 1)]).toNat = none := by
    unfold State.reaches
    rw [if_neg (by decide), regAt_modeReq]
    rfl
  have e2 : s.hidden 0x48 = false := rfl
  have hact := State.active_modeReq s h
  have e3 : s.attempts 0x48 modeReqReg (wordOf [(F.PKG_MODE_REQ_TARGET, t), (F.PKG_MODE_REQ_GO, 1)])
      = (if t = s.rd F.PKG_MODE_REQ_TARGET then [⟨⟨4, 1, .pulse, false, fun _ => 0⟩, 1⟩]
        else [⟨⟨4, 1, .pulse, false, fun _ => 0⟩, 1⟩, ⟨⟨0, 4, .live, false, fun _ => 4⟩, t⟩]) := by
    unfold State.attempts
    have hr : regionAddr 0x48 = false := rfl
    rw [hr]
    simp only [modeReqReg, List.filterMap_cons, List.filterMap_nil, Bool.false_eq_true, if_false, w1, w2, w3, hact]
    by_cases ht2 : t = s.rd F.PKG_MODE_REQ_TARGET
    · simp [← ht2]
    · simp [ht2]
  unfold State.modeReqWrite State.writeReg
  have ea : F.PKG_MODE_REQ_at = 0x48 := rfl
  simp only [ea, e0, e1, regAt_modeReq, e2, e3, reduceCtorEq, false_and, if_false, Bool.false_eq_true, State.permit]
  by_cases ht2 : t = s.rd F.PKG_MODE_REQ_TARGET
  · rw [if_pos ht2]
    refine ⟨s, ?_, ht2.symm, .inl rfl⟩
    rfl
  · rw [if_neg ht2]
    refine ⟨s.wr F.PKG_MODE_REQ_TARGET t, ?_, ?_, .inr rfl⟩
    · rfl
    · rw [State.rd_wr_same _ _ (by decide)]
      exact Nat.mod_eq_of_lt ht

/-- What that write leaves alone. -/
theorem State.modeReqWrite_frame {s u : State} {t : ℕ} (h : u = s ∨ u = s.wr F.PKG_MODE_REQ_TARGET t) : u.mode = s.mode ∧ u.pool = s.pool ∧ u.img = s.img
    ∧ (∀ a, a ≠ 0x48 → u.reg a = s.reg a) := by
  rcases h with rfl | rfl
  · exact ⟨rfl, rfl, rfl, fun _ _ => rfl⟩
  · exact ⟨rfl, rfl, rfl, fun a h => State.reg_wr_ne _ _ (Ne.symm h)⟩
/-- The last requested target survives the transition. -/
theorem State.goMode_lastTarget (u : State) (m : Mode) (c t : ℕ) (ht : t < 16) : ((u.wr F.PKG_MODE_REQ_LAST_TARGET t).goMode m c).rd F.PKG_MODE_REQ_LAST_TARGET = t := by
  rw [State.rd_of_reg (State.goMode_reg (a := F.PKG_MODE_REQ_at) (by decide) (by decide) (by decide)), State.rd_wr_same _ _ (by decide)]
  exact Nat.mod_eq_of_lt ht
/-- The ports of PKG_MAINT_SET read no field of PKG_MODE_REQ. -/
theorem State.maintPorts_congr {s u : State} (h : ∀ a, a ≠ 0x48 → u.reg a = s.reg a) (hr : u.roles = s.roles) : u.maintPorts = s.maintPorts := by
  have e : ∀ f : Fld, f.addr ≠ 0x48 → u.rd f = s.rd f := fun f k => State.rd_of_reg (h _ k)
  have ea : ∀ c : Cell, u.isAnchor c = s.isAnchor c := by
    intro c
    unfold State.isAnchor State.roleOf State.anchorOf
    rw [hr, e _ (by simp only [F.XBAR_STATUS_WIDTH, F.XBAR_STATUS_at]; omega), e _ (by simp only [F.XBAR_STATUS_WIDTH, F.XBAR_STATUS_at]; omega)]
  unfold State.maintPorts State.rdBit
  refine List.filter_congr fun p _ => ?_
  rw [ea, e _ (by simp only [F.PKG_MAINT_SET_PORTS, F.PKG_MAINT_SET_at]; omega)]
theorem State.powerOff_mode (u : State) : u.powerOff.mode = .dormant :=
  (State.setDomains_keeps (P := 134217726) rfl (State.wr_keeps (P := 134217726) rfl (Keeps.refl _) _ _)).mode_eq
theorem mget_filter {V : Type} (m : NMap V) (p : Nat × V → Bool) (a : Nat) (h : ∀ v, p (a, v) = true) : mget (m.filter p) a = mget m a := by
  induction m with
  | nil => rfl
  | cons e t ih =>
    obtain ⟨k, w⟩ := e
    by_cases hk : k = a
    · subst hk
      simp [List.filter, h, mget]
    · by_cases hp : p (k, w) = true
      · simp [List.filter, hp, mget, hk, ih]
      · simp [List.filter, hp, mget, hk, ih]
/-- PKG_MODE outlives the loss of power (R40). -/
theorem State.powerOff_cause (u : State) : u.powerOff.rd F.PKG_MODE_CAUSE = u.rd F.PKG_MODE_CAUSE := by
  unfold State.powerOff
  refine (State.rd_of_reg (State.setDomains_reg _ (by decide))).trans ?_
  rw [State.rd_wr_ne _ _ (by decide)]
  refine State.rd_of_reg ?_
  unfold State.reg mgetD
  dsimp only
  rw [mget_filter]
  intro v
  rw [Bool.or_eq_true]
  exact .inr (by rfl)
/-- The gates that open when both feeds are gone write no register of the PKG block. -/
theorem State.stopGates_reg (s : State) {a : ℕ} (h : a < 0x280) : s.stopGates.reg a = s.reg a := by
  have k : ∀ (u : State) (f : Fld) (n : ℕ), 0x280 ≤ f.addr → (u.wr f n).reg a = u.reg a := fun u f n e => u.reg_wr_ne n (by omega)
  unfold State.stopGates
  split
  · unfold State.gatesOff State.showPower State.setCtrl
    dsimp only
    rw [k _ _ _ (by decide), k _ _ _ (by decide), k _ _ _ (by decide), k _ _ _ (by decide)]
  · rfl
end Sys2Proof.Machine
end

