-- ==== Sys2Proof/Laws/Turn.lean ====
section
/-! SUPPORT. What entering a crossing leaves, and the turn of the waiting module commits where there is none or where one must wait. -/

set_option Elab.async false

namespace Sys2Proof.Machine

/-- Entries that pass a crossing change its pointers and nothing else. -/
theorem State.xingPass_eq (s : State) (a n : Nat) : ∃ x : NMap XPtr, s.xingPass a n = { s with spill.xing := x } := by
  unfold State.xingPass
  split
  · exact ⟨s.spill.xing, rfl⟩
  · exact ⟨_, rfl⟩
@[simp] theorem State.xingPass_regs (s : State) (a n : Nat) : (s.xingPass a n).regs = s.regs := by
  obtain ⟨x, h⟩ := s.xingPass_eq a n; rw [h]
@[simp] theorem State.xingPass_out (s : State) (a n : Nat) : (s.xingPass a n).out = s.out := by
  obtain ⟨x, h⟩ := s.xingPass_eq a n; rw [h]
@[simp] theorem State.xingPass_mode (s : State) (a n : Nat) : (s.xingPass a n).mode = s.mode := by
  obtain ⟨x, h⟩ := s.xingPass_eq a n; rw [h]
@[simp] theorem State.xingPass_scrim (s : State) (a n : Nat) : (s.xingPass a n).scrim = s.scrim := by
  obtain ⟨x, h⟩ := s.xingPass_eq a n; rw [h]
@[simp] theorem State.xingPass_xbar (s : State) (a n : Nat) : (s.xingPass a n).xbar = s.xbar := by
  obtain ⟨x, h⟩ := s.xingPass_eq a n; rw [h]
@[simp] theorem State.xingPass_pool (s : State) (a n : Nat) : (s.xingPass a n).pool = s.pool := by
  obtain ⟨x, h⟩ := s.xingPass_eq a n; rw [h]
@[simp] theorem State.xingPass_home (s : State) (a n : Nat) : (s.xingPass a n).home = s.home := by
  obtain ⟨x, h⟩ := s.xingPass_eq a n; rw [h]
@[simp] theorem State.xingPass_sec (s : State) (a n : Nat) : (s.xingPass a n).sec = s.sec := by
  obtain ⟨x, h⟩ := s.xingPass_eq a n; rw [h]

/-- A turn that takes no commit leaves the state. -/
theorem State.commitTurn_none (s : State) (h : s.sec.waiting = [] ∨ s.sec.barrier.isSome = true) : s.commitTurn = s := by
  unfold State.commitTurn
  cases hw : s.sec.waiting with
  | nil => rfl
  | cons b t =>
    rcases h with h | h
    · rw [hw] at h; cases h
    · simp [h]
/-- With no commit waiting, or with a barrier open, the state stays. -/
@[simp] theorem State.nextCommit_none (s : State) (h : s.sec.waiting = [] ∨ s.sec.barrier.isSome = true) : s.nextCommit = s := by
  have f (l : List Nat) : l.foldl (fun (s : State) _ => s.commitTurn) s = s := by
    induction l with
    | nil => rfl
    | cons _ t ih => rw [List.foldl_cons, s.commitTurn_none h, ih]
  exact f _

end Sys2Proof.Machine
end

