-- ==== Sys2Proof/WellFormed.lean ====
section
/-! DEFINITION. Commands whose operands agree with one another: a message carries its row's opcode and at most 64 data units (spec/02
R50), lists name nothing twice, a frame holds at most 18 slots (spec/11 R326), a link has a width that exists (spec/10). What an operand
alone can hold, its type says. -/

namespace Sys2Proof

/-- A message of an opcode, with at most 64 data units (R50). -/
def Pkt.carries (p : Pkt) (o : Opc) : Bool := p.opc == o && decide (p.data.length ≤ 64)
/-- A CXL.mem request that a host may send (Table 6-4), or a CXL.cache message for its pass-through device (R151). -/
def HostReq.ok (r : HostReq) : Bool :=
  match r.opc with
  | .pass cache _ => cache
  | o => [Opc.rds, .rda, .rdi, .inva, .wri, .wra, .wrptl, .clnevct, .specrd].contains o
/-- A device's write brings its lines, and a read none (R263); any other message brings at most 64 data units. -/
def DevReq.ok (r : DevReq) : Bool :=
  if r.kind != .io then decide (r.data.length ≤ 64)
  else if r.write then r.len.val = 0 || r.data.length == (r.hpa.toNat + r.len.val - 1) / 64 - r.hpa.toNat / 64 + 1 else r.data.isEmpty
/-- The command's operands agree. -/
def Instr.wellFormed (i : Instr) : Bool :=
  match i with
  | .selfTestComplete fails _ _ => fails.Nodup
  | .scrimUnitReceive _ _ p u _ _ _ => p.data.length ≤ 64 && u.val ≤ p.len.val
  | .holdUnitArrival _ p => p.data.length ≤ 64
  | .lathLpExit _ _ _ p => p.data.length ≤ 64
  | .frameArrive _ _ _ p got _ => p.data.length ≤ 64 && got.val ≤ p.len.val
  | .rds p _ => p.carries .rds
  | .rda p _ => p.carries .rda
  | .rdi p _ => p.carries .rdi
  | .inva p _ => p.carries .inva
  | .wri p _ => p.carries .wri
  | .wra p _ => p.carries .wra
  | .wrptl p _ => p.carries .wrptl
  | .clnevct p _ => p.carries .clnevct
  | .specrd p => p.carries .specrd
  | .recallMsg p _ => p.carries .recall
  | .biconf p => p.carries .biconf
  | .mrd p => p.carries .mrd
  | .mspec p => p.carries .mspec
  | .wdata p => p.carries .wdata
  | .mflush p => p.carries .mflush
  | .dirrd p _ _ _ => p.carries .dirrd
  | .dirwr p _ => p.carries .dirwr
  | .dirdata p => p.carries .dirdata
  | .dirack p => p.carries .dirack
  | .grant p => p.carries .grant
  | .rdata p => p.carries .rdata
  | .wgo p => p.carries .wgo
  | .wcmp p => p.carries .wcmp
  | .mcmp p => p.carries .mcmp
  | .done p => p.carries .done
  | .rcmp p => p.carries .rcmp
  | .bisnpcur p => p.carries .bisnpcur
  | .bisnpdata p => p.carries .bisnpdata
  | .bisnpinv p => p.carries .bisnpinv
  | .bicack p => p.carries .bicack
  | .birsp p => p.carries .birsp
  | .fwd p => p.carries .fwd
  | .frsp p => p.carries .frsp
  | .fkeep p => p.carries .fkeep
  | .hostRequestReceive _ r => r.ok
  | .deviceRequestReceive _ r => r.ok
  | .fmInitiateDcAdd _ _ _ exts => exts.Nodup
  | .fmInitiateDcRelease _ _ exts _ => exts.Nodup
  | .dcAddResponse _ exts => exts.Nodup
  | .dcReleaseResponse _ exts => exts.Nodup
  | .portLinkUp _ x => [1, 2, 4, 8, 16].contains x.width.val
  | .onoraDataFrame _ f => f.slots.length ≤ 18
  | .onlabs p => p.carries .onlabs
  | .xfer p => (match p.opc with | .xfer _ => p.data.length ≤ 64 | _ => false)
  | .thermalTrip xs => xs ≠ [] && xs.Nodup
  | .enableNLowStart | .imageLoadComplete .. | .imageStaging .. | .rennetWrite .. | .rennetCrcReport ..
  | .rennetDistributionComplete | .modeReqService .. | .modeReqDrowse .. | .modeReqMaintenance .. | .modeReqSafeStop ..
  | .enableNHigh | .safeStopComplete | .idlePolicyDrowse | .drowseWakeLimit | .scrimReplayRequest .. | .heartbeatSend ..
  | .heartbeatTimeout .. | .ucieLinkDown .. | .fenceNote .. | .fenceMap .. | .fenceCompletionReport .. | .drainedReport ..
  | .drainCommit .. | .drainLimitExpiry .. | .domainOnSignal .. | .wakeFail .. | .lathLpEntry .. | .seamTrainComplete ..
  | .scrimSnap .. | .frameStart .. | .sampleCounterExpiry .. | .xbarClrHwm .. | .chunkGrant .. | .lengthSlotAck ..
  | .spillFetch .. | .spillReadReturn .. | .hbmWatchdogExpiry .. | .spillCtxView0Read .. | .spillXingClrHwm ..
  | .gateBoundary .. | .histPeriodEnd .. | .depthSample .. | .shpObsSnap .. | .skimYieldWindowEnd .. | .homeChainStart ..
  | .expanderReadData .. | .expanderWriteComplete .. | .hostBirsp .. | .hostBiconflict .. | .snpTimeoutExpiry ..
  | .dirLookup .. | .dirLookupComplete .. | .homeTtClrHwm .. | .proxyAgeCheck .. | .homeProxyClrHwm ..
  | .takeoverQuiesceComplete | .takeoverFlushComplete .. | .twinLossNote .. | .resilverBlockAck .. | .holdAdmit ..
  | .defaultMapFetchReturn .. | .hostResponseDepart .. | .slotHoldExpire .. | .fmGetVcsInfo .. | .fmBindVppb ..
  | .fmUnbindVppb .. | .fmGetDcdInfo .. | .fmGetHostDcRegionCfg .. | .bind .. | .unbindKeep .. | .unbindRelease ..
  | .hostLinkDown .. | .expanderLinkDown .. | .deviceLinkDown .. | .migPrepare .. | .migMigrate .. | .migAbort .. | .migSave ..
  | .migRestore .. | .migFreezeDrained .. | .freezeLimitExpiry .. | .migSaveComplete .. | .migRestoreComplete ..
  | .pressMoveGo .. | .pressAbort .. | .pressResilverStart .. | .pressBlockAck .. | .pressSourceDrained .. | .copyGo ..
  | .copyPartComplete .. | .brineComplete .. | .mapNote .. | .mapNoteComplete .. | .zeroize .. | .zeroizeComplete ..
  | .keyGenerateComplete .. | .keyload .. | .healthTestFail .. | .secRotateGo .. | .rotationAgeCheck | .rekeyBlockAck ..
  | .barrierDrained .. | .barrierLimitExpiry .. | .ideKmKeySet .. | .ideIntegrityFailure .. | .laneFault .. | .widthReduceL0 ..
  | .refclkLoss .. | .refclkReturn .. | .l1Entry .. | .l1Exit .. | .testEnter .. | .testExit .. | .widthRestore .. | .injOne ..
  | .injRateError .. | .chkEnSet .. | .lanePrbsStatRead .. | .loopbackSlaveEntry .. | .mgrFrameReceive .. | .mgrSyncGain ..
  | .mgrSyncLoss .. | .mgrClockCompSend | .mgrWidthFallback .. | .mgrWidthRestoreX2 | .mgrLoopWrite .. | .prbsCheckerLock ..
  | .prbsCheckerLockLoss .. | .onoraIdleFrame .. | .onoraLeaveFrame .. | .onoraAckTimer .. | .onoraNakRepeat ..
  | .onoraAlignSend .. | .onoraAlignMissing .. | .onoraCreditTimeout .. | .onoraFrameTimeout .. | .onoraTrainingBlock ..
  | .onoraTrainStateComplete .. | .onoraTrainTimeout .. | .onoraTrainRetry .. | .onoraRetrain .. | .onoraLeaveSend
  | .routeadv .. | .routeadvPeriodic | .routeadvStale .. | .addrConflictClear .. | .chainEpochClose | .probeSend | .probe ..
  | .probersp .. | .blob .. | .blobAck .. | .blobRetransmit .. | .keyx .. | .chainImport .. | .onoraResponseReturn ..
  | .onoraSignalRegained .. | .rebuildStart .. | .spHeartbeatMiss .. | .fenceReturnGo .. | .returnSelfTestComplete ..
  | .logFetch .. | .logFetchComplete | .rindStart | .rindStop | .feedValid .. | .feedUv .. | .feedOv ..
  | .idealDiodeReverseOff .. | .senseMated | .debounceExpiry | .rampComplete .. | .rampTimeout | .shortDetect
  | .rampComparatorTrip .. | .faultTimerExpiry .. | .fastTrip .. | .tripWaitExpiry | .latchClearEnableCycle
  | .latchClearReinsertion | .retryCountClear | .pwrgdAssert | .feedwarnTimeout | .senseSBreak | .senseLmOpen .. | .clrPeak ..
  | .xtalLoss | .xtalRestore | .rtcXtalLoss | .pllLock .. | .pllUnlock .. | .retentionIdle .. | .rtcWrite .. | .sleepClrMax ..
  | .norRead .. | .norProgram .. | .norErase .. | .norOpComplete .. | .norLogWrite .. | .imageVerify ..
  | .imageVerifyComplete .. | .lcOpen .. | .lcSeal .. | .lcReturn .. | .lcRetire .. | .lcRevoke .. | .fuseProg .. | .jtagReset
  | .jtagIdcode | .jtagSamplePreload .. | .jtagExtest .. | .jtagClamp | .jtagHighz | .jtagBypass | .dbgAccRead ..
  | .dbgAccWrite .. | .dbgSp .. | .makerPrivate .. | .spdmGetVersion .. | .spdmGetCapabilities .. | .spdmNegotiateAlgorithms ..
  | .spdmGetCertificate .. | .spdmChallenge .. | .spdmGetMeasurements .. | .spdmKeyExchange .. | .spdmSignComplete
  | .zmpAcquire .. | .zmpRenew .. | .zmpRelease .. | .zmpRead .. | .zmpWrite .. | .zmpMctp .. | .zmpPing .. | .mctpControl ..
  | .mctpVendorZmp .. | .leaseExpiry | .registerWrite .. | .commitGo .. | .commitDiscard .. | .commitCheckComplete
  | .commitApply .. | .commitPendingApply .. | .commitEpochEnd | .ctrOverflow .. | .ctrCapture .. | .ctrValWrite ..
  | .ctrPairWrite .. | .ctrFreezeWrite .. | .ctrSnap .. | .ctrSnapAtReached .. | .instCtrSnap .. | .thermalWarn ..
  | .thermalRelease | .hostCxlIoRequest .. | .lathEdgeActive .. => true

end Sys2Proof
end

