-- ==== Sys2Proof/Tests/Slice0.lean ====
section
/-! SUPPORT. Smoke tests of well-formedness, states that meet the hypotheses of the statements, and small tests of single commands. -/

set_option Elab.async false

namespace Sys2Proof.Tests

open Sys2Proof.Machine

/-! ### Ill-formed commands are refused by the check -/

theorem test_wf_rds_opcode : (.rds { opc := .rda } .clean : Instr).wellFormed = false := by decide
theorem test_wf_rda_opcode : (.rda { opc := .rds } .clean : Instr).wellFormed = false := by decide
theorem test_wf_rdi_opcode : (.rdi { opc := .rda } .clean : Instr).wellFormed = false := by decide
theorem test_wf_inva_opcode : (.inva { opc := .rda } .clean : Instr).wellFormed = false := by decide
theorem test_wf_wri_opcode : (.wri { opc := .rda } .clean : Instr).wellFormed = false := by decide
theorem test_wf_wra_opcode : (.wra { opc := .rda } .clean : Instr).wellFormed = false := by decide
theorem test_wf_wrptl_opcode : (.wrptl { opc := .rda } .clean : Instr).wellFormed = false := by decide
theorem test_wf_clnevct_opcode : (.clnevct { opc := .rda } .clean : Instr).wellFormed = false := by decide
theorem test_wf_specrd_opcode : (.specrd { opc := .rda } : Instr).wellFormed = false := by decide
theorem test_wf_recallMsg_opcode : (.recallMsg { opc := .rda } .clean : Instr).wellFormed = false := by decide
theorem test_wf_biconf_opcode : (.biconf { opc := .rda } : Instr).wellFormed = false := by decide
theorem test_wf_mrd_opcode : (.mrd { opc := .rda } : Instr).wellFormed = false := by decide
theorem test_wf_mspec_opcode : (.mspec { opc := .rda } : Instr).wellFormed = false := by decide
theorem test_wf_wdata_opcode : (.wdata { opc := .rda } : Instr).wellFormed = false := by decide
theorem test_wf_mflush_opcode : (.mflush { opc := .rda } : Instr).wellFormed = false := by decide
theorem test_wf_dirrd_opcode : (.dirrd { opc := .rda } .clean .clean 0 : Instr).wellFormed = false := by decide
theorem test_wf_dirwr_opcode : (.dirwr { opc := .rda } 0 : Instr).wellFormed = false := by decide
theorem test_wf_dirdata_opcode : (.dirdata { opc := .rda } : Instr).wellFormed = false := by decide
theorem test_wf_dirack_opcode : (.dirack { opc := .rda } : Instr).wellFormed = false := by decide
theorem test_wf_grant_opcode : (.grant { opc := .rda } : Instr).wellFormed = false := by decide
theorem test_wf_rdata_opcode : (.rdata { opc := .rda } : Instr).wellFormed = false := by decide
theorem test_wf_wgo_opcode : (.wgo { opc := .rda } : Instr).wellFormed = false := by decide
theorem test_wf_wcmp_opcode : (.wcmp { opc := .rda } : Instr).wellFormed = false := by decide
theorem test_wf_mcmp_opcode : (.mcmp { opc := .rda } : Instr).wellFormed = false := by decide
theorem test_wf_done_opcode : (.done { opc := .rda } : Instr).wellFormed = false := by decide
theorem test_wf_rcmp_opcode : (.rcmp { opc := .rda } : Instr).wellFormed = false := by decide
theorem test_wf_bisnpcur_opcode : (.bisnpcur { opc := .rda } : Instr).wellFormed = false := by decide
theorem test_wf_bisnpdata_opcode : (.bisnpdata { opc := .rda } : Instr).wellFormed = false := by decide
theorem test_wf_bisnpinv_opcode : (.bisnpinv { opc := .rda } : Instr).wellFormed = false := by decide
theorem test_wf_bicack_opcode : (.bicack { opc := .rda } : Instr).wellFormed = false := by decide
theorem test_wf_birsp_opcode : (.birsp { opc := .rda } : Instr).wellFormed = false := by decide
theorem test_wf_fwd_opcode : (.fwd { opc := .rda } : Instr).wellFormed = false := by decide
theorem test_wf_frsp_opcode : (.frsp { opc := .rda } : Instr).wellFormed = false := by decide
theorem test_wf_fkeep_opcode : (.fkeep { opc := .rda } : Instr).wellFormed = false := by decide
theorem test_wf_onlabs_opcode : (.onlabs { opc := .rda } : Instr).wellFormed = false := by decide
theorem test_wf_long_message : (.rds { opc := .rds, data := List.replicate 65 0 } .clean : Instr).wellFormed = false := by decide
theorem test_wf_selfTest_twice : (.selfTestComplete [.die 1, .die 1] true true : Instr).wellFormed = false := by decide
theorem test_wf_unit_long : (.scrimUnitReceive 0 .north { opc := .rds, data := List.replicate 65 0 } 0 .clean true true : Instr).wellFormed = false := by decide
theorem test_wf_unit_beyond : (.scrimUnitReceive 0 .north { opc := .rds, len := 2 } 3 .clean true true : Instr).wellFormed = false := by decide
theorem test_wf_hold_long : (.holdUnitArrival 0 { opc := .rds, data := List.replicate 65 0 } : Instr).wellFormed = false := by decide
theorem test_wf_exit_long : (.lathLpExit 0 0 0 { opc := .rds, data := List.replicate 65 0 } : Instr).wellFormed = false := by decide
theorem test_wf_frame_long : (.frameArrive 0 1 2 { opc := .rds, data := List.replicate 65 0 } 0 {} : Instr).wellFormed = false := by decide
theorem test_wf_frame_beyond : (.frameArrive 0 1 2 { opc := .rds, len := 2 } 3 {} : Instr).wellFormed = false := by decide
theorem test_wf_frame_loops_back : (.frameArrive 0 1 1 { opc := .rds } 0 {} : Instr).wellFormed = true := by decide
theorem test_wf_host_request : (.hostRequestReceive 0 { opc := .recall, hpa := 0 } : Instr).wellFormed = false := by decide
theorem test_wf_device_read_with_data : (.deviceRequestReceive 0 { write := false, hpa := 0, len := 64, data := [0] } : Instr).wellFormed = false := by decide
theorem test_wf_device_write_short : (.deviceRequestReceive 0 { write := true, hpa := 0x20, len := 64, data := [0] } : Instr).wellFormed = false := by decide
theorem test_wf_add_twice : (.fmInitiateDcAdd .mgr 0 0 [7, 7] : Instr).wellFormed = false := by decide
theorem test_wf_release_twice : (.fmInitiateDcRelease .mgr 0 [7, 7] true : Instr).wellFormed = false := by decide
theorem test_wf_accept_twice : (.dcAddResponse 0 [7, 7] : Instr).wellFormed = false := by decide
theorem test_wf_give_twice : (.dcReleaseResponse 0 [7, 7] : Instr).wellFormed = false := by decide
theorem test_wf_width : (.portLinkUp 0 { rate := 1, width := 3 } : Instr).wellFormed = false := by decide
theorem test_wf_slots : (.onoraDataFrame 0 { fec := true, fcrc := true, units := true, seq := 0, ctl := {}, slots := List.replicate 19 (.head { opc := .rds }) } : Instr).wellFormed = false := by decide
theorem test_wf_xfer_opcode : (.xfer { opc := .rds } : Instr).wellFormed = false := by decide
theorem test_wf_xfer_long : (.xfer { opc := .xfer 0, data := List.replicate 65 0 } : Instr).wellFormed = false := by decide
theorem test_wf_trip_none : (.thermalTrip [] : Instr).wellFormed = false := by decide
theorem test_wf_trip_twice : (.thermalTrip [3, 3] : Instr).wellFormed = false := by decide
theorem test_wf_good : (Instr.rds { opc := .rds } .clean).wellFormed = true ∧ (Instr.portLinkUp 0 { rate := 1, width := 16 }).wellFormed = true
    ∧ (Instr.thermalTrip [3, 4]).wellFormed = true := by decide


/-! ### States that meet the hypotheses of the statements

Each theorem takes the clauses of one statement in their order, a state and operands for each that has hypotheses. -/

/-- The state after reset in another mode, with a host, an expander, a device and an Onora port. -/
def at_ (m : Mode) : State := { State.reset with mode := m, roles := [(0, .host), (5, .memory), (9, .device), (14, .onora)], activeSp := some 0 }
def sv : State := at_ .service
def img0 : Image := { dev := 0, kind := 1, commitSvn := false, svn := 0, digest := 0, keyHash := 0, payload := 0, policy := 0 }
/-- The same with an image loaded and staged. -/
def loaded (m : Mode) : State := { at_ m with img.image := some img0, img.staged := true }

theorem test_meets_boot : (at_ .dormant).pwr.rind = true ∧ (at_ .dormant).rdb F.RIND_PWR_STATUS_PWRGD = true ∧ State.reset.mode = .imageLoad
    ∧ ({ loaded .selfTest with spGone := [7], activeSp := some 0 }.applyFields img0.fields).beyond = false
    ∧ (loaded .bringUp).img.distributed = false ∧ (loaded .bringUp).cellFenced 127 = false ∧ (loaded .bringUp).img.matched.contains 127 = false
    ∧ (loaded .bringUp).img.rewritten.contains 127 = false ∧ ownReg 0 (F.GATE_CTRL_at 0) = true ∧ ownReg 127 (F.GATE_CTRL_at 0) = false := by
  decide +kernel
/-- A boot memory whose image has no section and an empty payload with its digest. -/
def emptyImage : NMap Byte := [(12, 0), (13, 0), (14, 0), (15, 0)] ++ (List.range 48).map (fun i =>
  (16 + i, BitVec.ofNat 8 ((Config.sha384 []).toNat / 256 ^ i)))
theorem test_meets_distribution : let s : State := { loaded .bringUp with img.matched := List.range 128 }
    (List.finRange 128).all (fun (c : Cell) => s.cellFenced c || s.img.matched.contains c.val) = true ∧ s.img.fencedUp = false
      ∧ s.scrim.fence = {} ∧ s.scrim.notes = [] ∧ s.scrim.epochOpen = false := by decide +kernel
theorem test_meets_rebuild : let s := sv.wr (F.DIR_STACK_STATUS_PRI_STATE (partnerDie (stackDie 3))) 3
    s.stackFenced 3 = false ∧ s.stackFenced (dieStack (partnerDie (stackDie 3))) = false
      ∧ s.rd (F.DIR_STACK_STATUS_PRI_STATE (partnerDie (stackDie 3))) = 3 ∧ s.rd (F.DIR_REBUILD_STATUS_ACTIVE (stackDie 3)) = 0 := by decide +kernel
theorem test_meets_modes : let s := (sv.wr F.MGR_LEASE_CFG_MAINT_ALLOWED 1).wr (F.PKG_MAINT_SET_PORTS 0) 1
    s.mgr.pend = [] ∧ s.rdb F.MGR_LEASE_CFG_MAINT_ALLOWED = true ∧ s.maintPorts ≠ [] := by decide +kernel
theorem test_meets_mode_events : let s := (sv.wr F.RIND_SLEEP_CFG_ENTER_MS 1).wr F.RIND_SLEEP_CFG_ENTER_QUIET 1
    s.pwr.rind = true ∧ s.rd F.RIND_SLEEP_CFG_ENTER_MS ≠ 0 ∧ max 1 (s.rd F.RIND_SLEEP_CFG_ENTER_QUIET) = 1 ∧ s.quiet 127 = true := by decide +kernel
theorem test_meets_wake_limit : let s := ((at_ .drowse).setDomain 0 1).setDomain 381 1
    max 1 ((s.wr F.RIND_SLEEP_CFG_AWAKE_LIMIT 0).rd F.RIND_SLEEP_CFG_AWAKE_LIMIT) = 1 ∧ s.domain (3 * 0) = 1 ∧ s.domain (3 * 127) = 1 := by
  decide +kernel
theorem test_meets_scrim : sv.spineOn 20 = false ∧ sv.spineOn 127 = true
    ∧ ({ sv with scrim.rejecting := [Dir.east.num] } : State).scrim.rejecting.contains ((0 : Cell).val * 5 + Dir.east.num) = true
    ∧ edgeOf (0 : Cell).val .east = none ∧ sv.spill.lost = [] ∧ ({ opc := .rds } : Pkt).opc.vc ≠ 7 ∧ neighbour (0 : Cell).val .east = some 1
    ∧ (edgeOf (linkEnds 3).1 .east).isSome = true ∧ (linkOf (0 : Cell).val .east).isSome ∧ sv.outDead 0 .east = false ∧ ({ sv with cyc := 3000 } : State).silent 0 .east = true := by decide +kernel
theorem test_meets_seams : seamLink (3 : MeshLink).val = true ∧ sv.outDead (Cell.of (linkEnds 3).1) .east = false
    ∧ (linkEnds 3).1 / 16 ≠ (linkEnds 3).2 / 16 ∧ (edgeLinks ((linkEnds 3).1 / 16) 1).all sv.scrim.fence.links.contains = false
    ∧ (edgeLinks ((linkEnds 3).2 / 16) 3).all sv.scrim.fence.links.contains = false ∧ (edgePresent (0 : Die).val).testBit (1 : Fin 4).val = true
    ∧ (sv.wr (F.DIE_LATH_CTRL_LP_IDLE 0 1) 1).rd (F.DIE_LATH_CTRL_LP_IDLE 0 1) ≠ 0
    ∧ (sv.wr (F.DIE_LATH_STATUS_STATE 0 1) 2).rd (F.DIE_LATH_STATUS_STATE 0 1) = 2
    ∧ (sv.wr (F.DIE_LATH_STATUS_LINK_LP 0 1) 1).rd (F.DIE_LATH_STATUS_LINK_LP 0 1) ≠ 0 := by decide +kernel
/-- A fenced cell that may return. -/
def gone : State := { ((at_ .degraded).wr F.PKG_FENCE_RETURN_KIND 2).wr F.PKG_FENCE_RETURN_ELEM 127 with
  scrim.fence.cells := [127], log.returning := some (.cell 127) }
theorem test_meets_fence : sv.scrim.fence.has (.link 231) = false ∧ sv.dieFenced (dieOf 127) = false ∧ (0 : Cell) ≠ 127
    ∧ (sv.wr (F.SCRIM_RTR_STATUS_DRAIN_STATE 5) 1).rd (F.SCRIM_RTR_STATUS_DRAIN_STATE 5) = 1 ∧ sv.injecting 5 = false ∧ sv.ejected 5 = true
    ∧ sv.portMembers 5 = [5] ∧ (sv.setDomain 15 1).domain (3 * (5 : Cell).val) = 1 ∧ (sv.setDomain 15 3).domain (3 * (5 : Cell).val) = 3
    ∧ (sv.wr (F.SCRIM_RTR_STATUS_LOCAL_MODE 5) 1).rd (F.SCRIM_RTR_STATUS_LOCAL_MODE 5) = 1 ∧ (0 : Die) ∉ sv.spGone ∧ (7 : Die) ∉ sv.spGone := by
  decide +kernel
theorem test_meets_return : elemOf (gone.rd F.PKG_FENCE_RETURN_KIND) (gone.rd F.PKG_FENCE_RETURN_ELEM) = some (.cell 127)
    ∧ gone.mayReturn (.cell 127) = true ∧ gone.rd F.PKG_FENCE_RETURN_BUSY = 0 ∧ ({ gone with mode := .service } : State).mayReturn (.cell 127) = false
    ∧ elemOf (sv.rd F.PKG_FENCE_RETURN_KIND) (sv.rd F.PKG_FENCE_RETURN_ELEM) = none ∧ gone.trained (.cell 127) = true
    ∧ gone.scrim.fence.has (.cell 127) = true ∧ Elem.cell 127 ∉ gone.scrim.nextReturns := by decide +kernel
/-- A bound instance, a pass-through device and a host request that waits. -/
def held : Held := { p := { opc := .rds, inst := 3 }, dpa := some 0 }
def bound : State := { (((((sv.wr (F.INST_SHARE1_BW_MIN 3) 8).wr (F.INST_VPPB_KIND 0 2) 1).wr (F.INST_VPPB_TARGET 0 2) 3).wr
    (F.INST_VPPB_KIND 0 1) 2).wr (F.INST_VPPB_TARGET 0 1) 9).wr (F.INST_INFO_STATE 3) 3 with
  pool.hold := [(0, [held])], pool.hdm := [(0, [{ inst := 3, base := 0, size := 0x40000000#52, dpa := 0 }])] }
theorem test_meets_hold : sv.hostPass 0 { opc := .rds, hpa := 0 } = none ∧ (sv.hostPass 0 { opc := .pass false 0, hpa := 0 }).isSome = true
    ∧ sv.rd (F.INST_PORT_STATUS_HOLD_USED 0) < 1024 ∧ mgetD 0 bound.pool.admitAt 0 ≠ bound.cyc + 1
    ∧ bound.nextTurn 0 (mgetD 0 bound.pool.ptrMin 0) (((heads (mgetD [] bound.pool.hold 0) []).filter
      (fun h => bound.eligible 0 h (bound.heldVerdict 0 h))).filter
        (fun h => h.who < 4096 && bound.bwMin h.who > 0 && decide (0 ≤ mgetD 0 bound.pool.credMin h.who))) = some held := by decide +kernel
theorem test_meets_device : bound.deviceVcs 9 = some (0, 1) ∧ bound.decode 0 0 = some (3, 0) ∧ bound.pausedAt 9 3 = false
    ∧ bound.decode 0 0x40000000 = none ∧ bound.firstSlot (bound.ioCell (bound.anchorOf 9) 0) = some 0 ∧ mgetD [] bound.pool.devHeld 9 = []
    ∧ bound.pool.paused.contains (bound.anchorOf 9).val = false ∧ bound.devTupleLost 9 { write := false, hpa := 0, len := 64, data := [] } 3 0 = false
    ∧ ({ bound with sec.barrier := some { goal := .epoch, sets := [], insts := [3], cells := [9] } } : State).pausedAt 9 3 = true := by decide +kernel
def transit : Pkt := { opc := .rds, dst := 1 }
def queued : State := { sv with xbar.voq := [(5 * 80 + 6 * 8, [{ p := transit, cyc := 0, got := 0, enq := 0 }])] }
def credit3 : StartIn := { credit := [(6, 3)], sampBusy := true, mirCredit := false, err := none, late := none }
theorem test_meets_frames : sv.endsOk 5 6 transit = true ∧ sv.lateFrame 0 transit = false ∧ sv.voqAbsorbs 0 5 6 0 = false
    ∧ sv.admits 0 6 0 transit.granules = true ∧ sv.ctxOf 0 5 6 0 = none ∧ sv.endsOk 5 6 { opc := .wcmp, gen := 1 } = true
    ∧ sv.lateFrame 0 { opc := .wcmp, gen := 1 } = true ∧ mgetD 0 sv.xbar.admitAt (0 * 10 + 5) ≠ sv.cyc + 1
    ∧ (let s : State := { sv with scrim.flight := [{ loc := 1, p := transit }] }
      s.fromScrim 1 4 transit = true ∧ s.behind transit = false)
    ∧ (matchRound ((queued.countWaits 0 credit3).iter 0) ((queued.countWaits 0 credit3).requests 0 credit3)
      ((queued.countWaits 0 credit3).rd (F.XBAR_GPTR_PTR 0)) ((queued.countWaits 0 credit3).rd (F.XBAR_APTR_PTR 0))).1.length = 1 := by decide +kernel
def slot3 : TSlot := { hdr := { opc := .rds }, egress := 0, at_ := 0, port := 0 }
theorem test_meets_slots : let s := (sv.wr (F.XBAR_SAMP_CTRL_EN 0) 1).wr (F.XBAR_SAMP_CTRL_OUT_EN 0) 512
    s.rdb (F.XBAR_SAMP_CTRL_EN 0) = true ∧ (s.rd (F.XBAR_SAMP_CTRL_OUT_EN 0)).testBit 9 = true ∧ mgetD 0 s.xbar.sampCnt (0 * 10 + 9) = 0
      ∧ (s.setSlot 0 3 { slot3 with resp := some .cmp }).slot 0 3 = some { slot3 with resp := some .cmp }
      ∧ (s.setSlot 0 3 { slot3 with ended := some 0 }).slot 0 3 = some { slot3 with ended := some 0 } := by decide +kernel
/-- A spill context with one written frame, and with one that is committed. -/
def wf0 : WFrame := { f := { p := transit, cyc := 0, got := 0, enq := 0 }, fseq := 0, enqNs := 0, pmap := 0, streamed := false
                      acked := false, charge := 1, chunk := 0, word := 0, endChunk := 0, endWord := 1 }
def ctx0 : SpillCtx := { inp := 5, out := 6, tc := 0, stack := 0, chunks := [0], headChunk := 0, tailChunk := 0, frames := [wf0] }
def ctx1 : SpillCtx := { ctx0 with frames := [{ wf0 with acked := true }], headReg := true }
theorem test_meets_spill : (sv.spare 0).length < 4 ∧ mget sv.spill.granted (sv.spillStack 0 * 2 ^ 21 + 1572863) = none
    ∧ sv.stackFenced (sv.spillStack 0) = false ∧ sv.chunkOk 0 = true ∧ (∀ m : Fin 64, sv.sctx 0 m = none)
    ∧ (sv.setSctx 0 63 ctx0).sctx 0 63 = some ctx0 ∧ ctx0.frames.find? (fun w => !w.acked) = some wf0 ∧ sv.slotWritten 0 ctx0 wf0 = true
    ∧ ctx1.committed = [{ wf0 with acked := true }] ∧ (sv.voqAt 0 5 6 0).length ≤ 1 := by decide +kernel
theorem test_meets_gates : (regAt (xingAddr (.lath 0 1 3))).isSome = true
    ∧ (sv.wr (F.SHP_OBS_CTRL_HIST_PERIOD 0) 1).rd (F.SHP_OBS_CTRL_HIST_PERIOD 0) ≠ 0 ∧ sv.retained 0 = false
    ∧ ((sv.setDomain 0 2).retained 0 = true) ∧ (sv.wr (F.SHP_OBS_QSEL_Q 0 3) (128 + 9 * 8)).watched 0 3 = some (9, 0) := by decide +kernel
theorem ofLe_bytes (h n : Nat) : ofLe ((List.range n).map (fun i => BitVec.ofNat 8 (h / 256 ^ i))) = h % 256 ^ n := by
  induction n generalizing h with
  | zero => simp [ofLe, Nat.mod_one]
  | succ n ih =>
    rw [List.range_succ_eq_map, List.map_cons, List.map_map]
    have e : ((fun i => BitVec.ofNat 8 (h / 256 ^ i)) ∘ Nat.succ) = fun i => BitVec.ofNat 8 (h / 256 / 256 ^ i) := by
      funext i
      simp [Nat.pow_succ, Nat.div_div_eq_div_mul, Nat.mul_comm]
    rw [e]
    have := ih (h / 256)
    simp only [ofLe, List.foldr_cons] at this ⊢
    rw [this]
    simp
    rw [Nat.pow_succ, Nat.mul_comm (256 ^ n), Nat.mod_mul]
theorem test_meets_staging : let s : State := { loaded .selfTest with img.nor := emptyImage }
    digestFault (s.norByte 0) (imgSects (s.norByte 0)) = none := by
  intro s
  have e0 : imgSects (s.norByte 0) = [] := rfl
  have e1 : imgBytes (s.norByte 0) 256 (imgLe (s.norByte 0) 12 4) = [] := rfl
  have e2 : imgLe (s.norByte 0) 16 48 = (Config.sha384 []).toNat := by
    have : imgBytes (s.norByte 0) 16 48 = (List.range 48).map (fun i => BitVec.ofNat 8 ((Config.sha384 []).toNat / 256 ^ i)) := rfl
    unfold imgLe
    rw [this, ofLe_bytes]
    exact Nat.mod_eq_of_lt (Config.sha384 []).isLt
  rw [e0]
  change (if hashLe (imgBytes (s.norByte 0) 256 (imgLe (s.norByte 0) 12 4)) = BitVec.ofNat 384 (imgLe (s.norByte 0) 16 48) then none else _) = none
  rw [if_pos]
  rw [e1, e2, BitVec.ofNat_toNat, BitVec.setWidth_eq]
  rfl
/-- A home with an open transaction, in the state that each response needs. -/
def txn0 : Txn := { req := { opc := .rds, gen := 1 }, ord := 0, phase := .snp, awSnp := [0x5F] }
def homeWith (t : Txn) : State := sv.setTxn 0 7 t
theorem test_meets_home : sv.mayArrive { opc := .rds } = true ∧ (homeWith txn0).txnOfTag 0 { opc := .rds, gen := 1 } = some (7, txn0)
    ∧ (homeWith txn0).wbOf 0 { opc := .rds } = none
    ∧ ((homeWith { txn0 with awWb := [(0, 3, 0)] }).wbOf 0 { opc := .wri, tagSlot := 3 }).isSome = true
    ∧ (homeWith { txn0 with awWb := [(0, 3, 0)] }).txnOfTag 0 { opc := .wri, tagSlot := 3 } = none
    ∧ (homeWith txn0).crossing 0 { opc := .wri, hslot := 0x5F } = some (7, txn0)
    ∧ ({ sv with home.gaveBack := [0] } : State).home.gaveBack.contains ((0 : Cell).val * 128 + sv.lineIdx 0 0) = true
    ∧ ({ sv with home.held := [0] } : State).lineHeld 0 0 = true ∧ sv.lineHeld 0 0 = false ∧ sv.freeGeneral 0 = some 0 := by decide +kernel
theorem test_meets_specrd : (homeWith txn0).lineBlocked 0 0 = true ∧ sv.mayArrive { opc := .specrd } = true
    ∧ (let s : State := { sv.wr (F.HOME_CFG_SPEC_EN 0) 1 with home.ext := [(0, { st := .mirrored, mcell := 5 })] }
      s.lineBlocked 0 0 = false ∧ s.lineHeld 0 0 = false ∧ s.rd (F.HOME_CFG_SPEC_EN 0) ≠ 0 ∧ (s.extOf 0 0).noMem = false) := by decide +kernel
theorem test_meets_chain : (homeWith { txn0 with phase := .chain }).chainHead 0 0 = some (7, { txn0 with phase := .chain })
    ∧ (homeWith { txn0 with phase := .chain }).lineBlocked 0 0 = false ∧ sv.chainHead 0 0 = none ∧ sv.wayWaiter 0 0 = none
    ∧ sv.entryFor 0 .rds = some 0 ∧ sv.txnOfTag 0 { opc := .rds } = none := by decide +kernel
theorem test_meets_biconf : (homeWith txn0).snoopOpen 0 { opc := .biconf, hslot := 0x5F } = true ∧ (homeWith txn0).grantOpen 0 { opc := .biconf } = false
    ∧ (homeWith { txn0 with granted := true, awDone := true, awSnp := [0] }).grantOpen 0 { opc := .biconf } = true
    ∧ sv.snoopOpen 0 { opc := .biconf } = false := by decide +kernel
/-- An extent in an expander, with its key loaded; and what takes each case of an access out of it. -/
def stored : State := { sv with
  home.ext := [(5 * 65536, { st := .mirrored, mcell := 5 })], pool.dev := [(5 * 65536, { key := some 2 })]
  sec.slots := [(2, { st := 1, key := 4 })], sec.keyRam := [(5 * 8192 + 2, 4)] }
def rd5 : Pkt := { opc := .mrd, dst := 5 }
theorem test_meets_memory : stored.mayArrive rd5 = true ∧ stored.keyWait 5 rd5 = false ∧ stored.peerOk rd5 = true ∧ stored.peerOk { rd5 with opc := .mspec } = true ∧ stored.roleOf 5 ≠ .onora
    ∧ stored.roleOf 14 = .onora ∧ stored.devEnt 5 0 = some { key := some 2 } ∧ stored.keyAt 5 { key := some 2 } rd5 = some 4
    ∧ (stored.homeExt 5 0).st ≠ .lost ∧ ({ stored with home.ext := [(5 * 65536, { st := .lost })] } : State).homeExt 5 0 = { st := .lost }
    ∧ ({ stored with pool.dev := [] } : State).devEnt 5 0 = none ∧ stored.pool.lost.contains 5 = false ∧ stored.mustHold 5 rd5 = false
    ∧ ({ stored with sec.walk := [(0, { cell := 5 })] } : State).mustHold 5 rd5 = true := by decide +kernel
theorem test_meets_peer : let s : State := { stored with onl.cslot := [(5 * 1024 + 0x300, { smod := 3, hdr := rd5, awData := false })] }
    s.peerOk { rd5 with tagCell := 5, tagSlot := 0x300, hslot := 3 } = false ∧ s.mayArrive { rd5 with tagCell := 5, tagSlot := 0x300, hslot := 3 } = true
      ∧ s.keyWait 5 { rd5 with tagCell := 5, tagSlot := 0x300, hslot := 3 } = false
      ∧ s.peerOk { rd5 with opc := .mspec, tagCell := 14, tagSlot := 0x300, hslot := 3 } = false := by decide +kernel
/-- Accesses of a MEMORY cell and of the directory. -/
theorem test_meets_accesses : mget [(0, ({ cell := 5, p := rd5, write := false } : MemAcc))] 0 = some { cell := 5, p := rd5, write := false }
    ∧ sv.dieFenced (dieOf 5) = false ∧ sv.stackFenced (dieStack (dieOf 5)) = false ∧ (110#32).toNat ≤ 110
    ∧ (homeWith { txn0 with awDir := true }).txn 0 7 = some { txn0 with awDir := true }
    ∧ sv.cset 0 (sv.slabCell 0 0) (dirSet 0) = none ∧ sv.indexPinned 0 (dirSet 0) = false ∧ sv.txn 0 7 = none
    ∧ (homeWith { txn0 with awAck := 1 }).txn 0 7 = some { txn0 with awAck := 1 }
    ∧ (homeWith { txn0 with rsAck := [127] }).txn 0 7 = some { txn0 with rsAck := [127] } ∧ stored.keyAt 5 {} rd5 = none
    ∧ sv.behind { opc := .dirwr } = false ∧ ({ opc := .dirwr } : Pkt).stomp = false ∧ sv.holdsBlock 0 { opc := .dirwr } = false
    ∧ (let s := (sv.wr (F.DIR_REBUILD_STATUS_ACTIVE 0) 1).wr (F.DIR_REBUILD_STATUS_QUARTER 0) (sv.rd (F.DIR_STACK_STATUS_PRI_Q 0))
      s.holdsBlock 0 { opc := .dirwr, addr := BitVec.ofNat 52 (s.rd (F.DIR_REBUILD_STATUS_CURSOR 0)) } = true) := by decide +kernel
theorem test_meets_cached : let s : State := { sv with home.cache := [(cacheKey 0 (dirSet 0), [{ img := sv.slabCell 0 0, set := dirSet 0, ways := [] }])] }
    (s.cset 0 (s.slabCell 0 0) (dirSet 0)).isSome = true := by decide +kernel
/-- Slots that wait for a response: a host's, a device's, one of CXL.io; and a Type 3 request's. -/
theorem test_meets_responses : (sv.setSlot 0 3 slot3).slot 0 3 = some slot3 ∧ slot3.dev = none ∧ slot3.ended = none
    ∧ sv.mayArrive { opc := .grant, tagSlot := 3 } = true ∧ sv.mayArrive { opc := .rdata, tagSlot := 3 } = true
    ∧ sv.mayArrive { opc := .wgo, tagSlot := 3 } = true ∧ sv.mayArrive { opc := .wcmp, tagSlot := 3 } = true
    ∧ sv.mayArrive { opc := .mcmp } = true ∧ sv.chainSlot 0 0 = none ∧ sv.fwdOf 0 0 = none ∧ sv.mayArrive { opc := .done } = true
    ∧ (homeWith { txn0 with awMrd := true }).txn 0 7 = some { txn0 with awMrd := true } ∧ Pkt.tagGen txn0.req = Pkt.tagGen { opc := .mcmp, gen := 1 }
    ∧ sv.mayArrive { opc := .birsp } = true ∧ sv.mayArrive { opc := .bicack } = true := by decide +kernel
theorem test_meets_recall : let w : Sweep := { goal := .release 0, inst := 0, exts := [9], only := none, engs := [{ die := 1, next := 2 ^ 24 - 1, line := some 0 }] }
    ({ sv with pool.sweeps := [w] } : State).mayArrive { opc := .rcmp, dst := 16 } = true ∧ ctrlCell 1 = 16
      ∧ sv.rd (F.INST_ENG_STATUS_RECALL_OPEN 1) ≤ 2048 ∧ sweepLine w.exts (2 ^ 24 - 1) = some (10 * 2 ^ 24 - 1) ∧ sweepLine w.exts (2 ^ 24) = none
      ∧ ({ opc := .rcmp } : Pkt).line = 0 := by decide +kernel
def snoop0 : BiTag := { home := 0, htid := 7, addr := 0, hslot := 0, opc := .bisnpinv }
theorem test_meets_snoops : sv.mayArrive { opc := .bisnpcur } = true ∧ sv.home.bitag = []
    ∧ mget [(4095, snoop0)] ((0 : Cell).val * 4096 + (4095 : Fin 4096).val) = some snoop0 ∧ sv.writeOpen 0 0 sv.cyc = false
    ∧ (sv.setSlot 0 3 { slot3 with hdr := { opc := .wri } }).writeOpen 0 0 0 = true ∧ sv.activeSp ≠ none := by decide +kernel
theorem test_meets_forwards : sv.mayArrive { opc := .fwd } = true ∧ sv.rd (F.HOME_PROXY_STATUS_FWD_USE 0) < 256
    ∧ 256 ≤ (sv.wr (F.HOME_PROXY_STATUS_FWD_USE 0) 256).rd (F.HOME_PROXY_STATUS_FWD_USE 0)
    ∧ [(0x5F : HSlot)].find? (fun k => sv.anchorFor 0 k == sv.anchorFor 0 0x5F) = some 0x5F ∧ sv.mayArrive { opc := .frsp } = true
    ∧ mgetD [] sv.home.fwdWait 0 = [] ∧ ({ homeWith txn0 with home.giving := [0] } : State).givingOpen = true
    ∧ sv.flushOpen = false ∧ ({ sv with pool.acc := [(0, { cell := 5, p := rd5, write := true })], home.giving := [0] } : State).flushOpen = true := by
  decide +kernel
theorem test_meets_takeover : let s := { sv with home.held := [127 * 128 + 127] }.wr (F.HOME_TAKE_STATE 127) 2
    s.takingOver 2 = [127] ∧ s.flushOpen = false ∧ s.home.giving = [] ∧ mgetD [] s.home.setAside 127 = [] := by decide +kernel
theorem test_meets_twins : sv.twinOf 0 0x5F = none
    ∧ ((sv.wr (F.HOME_TWIN_VALID 0 11 7) 1).wr (F.HOME_TWIN_TWIN 0 11 7) 4).twinOf 0 0x5F = some 4 ∧ sv.slotLost 0 4 = false
    ∧ ({ sv with home.twinLost := [4] } : State).slotLost 0 4 = true
    ∧ (sv.wr (F.DIR_REBUILD_STATUS_ACTIVE 7) 1).rd (F.DIR_REBUILD_STATUS_ACTIVE (7 : Die).val) = 1
    ∧ resilverBlocks ≤ (sv.wr (F.DIR_REBUILD_STATUS_CURSOR 7) (resilverBlocks - 1)).rd (F.DIR_REBUILD_STATUS_CURSOR 7) + 1 := by decide +kernel
/-- The manager holds the lease, under an envelope that opens the binding of instance 3 and the fabric manager's reads. -/
def openAt (f : Fld) : EnvEntry := { addr := f.addr, stride := 0, count := 1, lsb := f.lsb, width := f.width, wr := true, rd := true, lo := 0, hi := 127 }
def leased : State := { bound with mgr.holder := some .mgr, mgr.env := some { reads := 0x47, entries := (List.map openAt
  [F.INST_BIND_OP 3, F.INST_BIND_PORT 3, F.INST_BIND_VPPB 3, F.INST_BIND_MODE 3, F.INST_BIND_GO 3]) }, pool.own := [(3, { key := some 2, exts := [7, 8] })] }
theorem test_meets_fabric_manager : leased.envelope.reads.getLsbD 6 = true
    ∧ leased.judge (F.INST_BIND_OP 3).addr (F.INST_BIND_OP 3).lsb (F.INST_BIND_OP 3).width 2 = none
    ∧ leased.judge (F.INST_BIND_PORT 3).addr (F.INST_BIND_PORT 3).lsb (F.INST_BIND_PORT 3).width (127 : Cell).val = none
    ∧ leased.judge (F.INST_BIND_VPPB 3).addr (F.INST_BIND_VPPB 3).lsb (F.INST_BIND_VPPB 3).width (63 : Fin 64).val = none
    ∧ leased.judge (F.INST_BIND_MODE 3).addr (F.INST_BIND_MODE 3).lsb (F.INST_BIND_MODE 3).width (2 : Fin 3).val = none
    ∧ leased.judge (F.INST_BIND_GO 3).addr (F.INST_BIND_GO 3).lsb (F.INST_BIND_GO 3).width 1 = none
    ∧ leased.rd (F.INST_VPPB_TARGET 0 2) = 3 ∧ leased.rd (F.INST_VPPB_KIND 0 2) = 1 ∧ leased.instSt 3 = 3 ∧ (leased.owner 3).key ≠ none := by
  decide +kernel
/-- An instance that is created and one that is bound to port 0. -/
def created : State := { (sv.wr (F.INST_INFO_STATE 3) 1).wr (F.INST_BIND_VPPB 3) 63 with pool.own := [(3, { key := some 2 })] }
theorem test_meets_bind : created.rd (F.INST_BIND_BUSY 3) = 0 ∧ created.instSt 3 = 1 ∧ created.roleOf (Cell.of (created.rd (F.INST_BIND_PORT 3))) = .host
    ∧ (created.anchorOf (Cell.of (created.rd (F.INST_BIND_PORT 3)))).val = created.rd (F.INST_BIND_PORT 3) ∧ created.rd (F.INST_BIND_VPPB 3) = 63
    ∧ created.rd (F.INST_VPPB_KIND (created.rd (F.INST_BIND_PORT 3)) 63) = 0 ∧ (created.boundVppbs (created.rd (F.INST_BIND_PORT 3))).length < 64
    ∧ (created.owner 3).key ≠ none ∧ (created.owner 3).regions = [] ∧ created.rd (F.INST_INFO_GROUPED 3) = 0 ∧ (∀ c : Cell, (created.regions c).length ≤ 1024)
    ∧ bound.instSt 3 = 3 ∧ bound.rd (F.INST_BIND_MODE 3) = 0 := by decide +kernel
theorem test_meets_capacity : ((mget [(3, [(3, [7, 8])])] 3).getD [] == [(3, [7, 8])]) = true ∧ ([7, 8].all (leased.owner 3).exts.contains) = true
    ∧ mgetD [] ({ leased with pool.dcGiving := [(3, [7])] } : State).pool.dcGiving 3 = [(7 : Ext)].map (·.val)
    ∧ (9 : Ext).val ∉ (leased.owner 3).exts
    ∧ mgetD [] sv.pool.dcOpen 3 = [] ∧ ([(7 : Ext), 8].map (·.val) == [7, 8]) = true := by decide +kernel
theorem test_meets_shared_release : leased.hostsOf (4096 + leased.rd (F.INST_INFO_GROUP 3)) = [] := by decide +kernel
/-- The same with the ports' Static rate and width as an image sets them. -/
def sl : State := (sv.wr (F.LANE_PORT_CFG_MAX_RATE 0) 6).wr (F.LANE_PORT_CFG_MAX_WIDTH 0) 16
theorem test_meets_links : sl.anchorOf 0 = 0 ∧ portsOn sl.mode = true ∧ sl.cellFenced 0 = false ∧ sl.rd (F.LANE_PORT_STATUS_REF_LOST 0) = 0
    ∧ sl.img.rules = [] ∧ trainRate (sl.roleOf 0) false 5 (sl.rd (F.LANE_PORT_CFG_MAX_RATE 0)) ≠ 0
    ∧ trainWidth 4 (sl.rd (F.LANE_PORT_CFG_MAX_WIDTH 0)) ≠ 0 ∧ sl.rd (F.LANE_PORT_STATUS_STATE 0) < 3 ∧ sl.roleOf 5 = .memory ∧ sl.roleOf 9 = .device := by
  decide +kernel
/-- Migrations at each step of Table 8-8, from port 0 to port 1. -/
def moving : State := { (bound.wr (F.INST_MIG_T_PORT 3) 1).wr (F.INST_MIG_T_VPPB 3) 63 with
  roles := [(0, .host), (1, .host)], img.templates := [(0, { mig := true })] }
def mig0 : Mig := { srcPort := 0, srcVppb := 2, tPort := 1, tVppb := 63 }
def movingAt (n : Nat) : State := { moving.wr (F.INST_INFO_STATE 3) n with pool.migs := [(3, mig0)] }
theorem test_meets_prepare : moving.rd (F.INST_MIG_T_PORT 3) = 1 ∧ moving.rd (F.INST_MIG_T_VPPB 3) = 63 ∧ moving.rd (F.INST_MIG_BUSY 3) = 0
    ∧ moving.instSt 3 = 3 ∧ moving.rd (F.INST_MIG_MODE 3) = 0 ∧ (moving.tmpl 3).mig = true ∧ mget moving.pool.migs 3 = none
    ∧ moving.rd (F.INST_MIG_T_MODULE 3) = moving.chainAddr ∧ moving.sameDomain (moving.rd (F.INST_INFO_HOST_PORT 3)) 1 = true
    ∧ moving.roleOf (Cell.of 1) = .host ∧ (moving.anchorOf (Cell.of 1)).val = 1 ∧ moving.rd (F.INST_VPPB_KIND 1 63) = 0 ∧ (moving.boundVppbs 1).length < 64 := by decide +kernel
theorem test_meets_migration : (movingAt 4).instSt 3 = 4 ∧ (movingAt 4).rd (F.INST_MIG_BUSY 3) = 0 ∧ mig0.back < 16 ∧ mig0.thawed = false
    ∧ (movingAt 5).instSt 3 = 5 ∧ mig0.freezeAt + mig0.limit * 3000 ≤ (movingAt 5).cyc
    ∧ ({ movingAt 5 with cyc := 1 } : State).freezeBusy 3 mig0 = true ∧ ({ movingAt 5 with pool.hold := [] } : State).freezeBusy 3 mig0 = false := by
  decide +kernel
theorem test_meets_save : let s := (movingAt 6).wr (F.INST_MIG_STATUS_STEP 3) 4
    s.instSt 3 = 6 ∧ s.rd (F.INST_MIG_STATUS_STEP 3) = 4 ∧ mig0.tModule = s.chainAddr ∧ ({ mig0 with tModule := 31 } : Mig).tModule ≠ s.chainAddr
      ∧ mget s.onl.csk 31 = none ∧ mig0.srcPort < 128 ∧ ({ mig0 with remote := true } : Mig).remote = true := by decide +kernel
theorem test_meets_sealed_save : let s : State := { movingAt 6 with img.rootKey := some 0, img.seed := some 0, onl.csk := [(31, { boot := 0, hash := 0, key := [] })] }
    s.sealKey 31 (s.pool.blobSeq + 1) ≠ none := by
  intro s h
  have : (31 : Nat) ≠ s.chainAddr := by decide +kernel
  simp [State.sealKey, this, s, State.chainKey, mget] at h
def blob0 : Blob := { seq := 1, inst := 3, srcModule := 0, remote := false, own := { exts := [7] }, shares := (0, 0), info := 0 }
theorem test_meets_restore : let s : State := { moving.wr (F.INST_INFO_STATE 3) 7 with pool.blobs := [(3, blob0)] }
    s.rd (F.INST_MIG_BUSY 3) = 0 ∧ s.instSt 3 = 7 ∧ s.roleOf (Cell.of 1) = .host ∧ (s.anchorOf (Cell.of 1)).val = 1 ∧ s.rd (F.INST_VPPB_KIND 1 63) = 0
      ∧ ((blob0.srcModule, blob0.seq) ∉ s.pool.restored) := by decide +kernel
theorem test_meets_restore_domain : ({ moving.wr (F.INST_INFO_STATE 3) 7 with pool.blobs := [(3, blob0)] } : State).groupDomainOk 3 1 = true := by
  unfold State.groupDomainOk
  rw [Bool.or_eq_true]
  exact .inl (by decide +kernel)
/-- Extents 0 and 1 as the homes hold them, with a second expander on another die. -/
def extents : State := { at_ .rebuild with
  roles := [(0, .host), (5, .memory), (20, .memory)], pool.dev := [(5 * 65536, { key := some 2 })]
  home.ext := [(0, { st := .single, mcell := 5 }), (1, { st := .mirrored, mcell := 5, mcell2 := 20 })] }
def part0 : PressPart := { ext := 0, src := 5, mirrorSide := true, destCell := 20, destExt := 4095 }
theorem test_meets_press : let s := ((extents.wr (F.INST_PRESS_OP_PART_EN 7) 0x8001).wr (F.INST_PRESS_PART_EXT 7 15) 1)
    s.rd (F.INST_PRESS_OP_BUSY 7) = 0 ∧ (List.range 16).filter (fun p => (s.rd (F.INST_PRESS_OP_PART_EN 7)).testBit p) = [0, 15]
      ∧ s.extBusy (s.rd (F.INST_PRESS_PART_EXT 7 0)) = false ∧ s.extBusy (s.rd (F.INST_PRESS_PART_EXT 7 15)) = false
      ∧ ([0, 15].map (fun p => s.rd (F.INST_PRESS_PART_EXT 7 p))).Nodup ∧ part0.ended = false ∧ part0.block + 1 < extBlocks
      ∧ s.partNoted part0 = false := by decide +kernel
theorem test_meets_resilver : (extents.extNow 0).st = .single ∧ extents.extBusy 0 = false ∧ mget extents.sec.walk 0 = none
    ∧ dieOf (extents.extNow 0).mcell = 0 ∧ extents.silverPart 0 = some 0
    ∧ ({ extents with pool.repl := [(0, 20 * 4096 + 4095)] } : State).replaceOk 0 20 4095 = true ∧ extents.scrim.notes = []
    ∧ extents.scrim.epochOpen = false ∧ extents.scrim.fence = {} := by decide +kernel
theorem test_meets_copy : let s := bound.wr (F.INST_COPY_CTRL_LEN_4K 3) 8192
    s.rd (F.INST_COPY_CTRL_LEN_4K 3) = 8192 ∧ s.rd (F.INST_COPY_CTRL_BUSY 3) = 0 ∧ s.rd (F.INST_PRESS_OP_BUSY (s.rd (F.INST_INFO_HOST_PORT 3) / 16)) = 0
      ∧ s.instSt 3 = 3 ∧ s.sec.barrier = none ∧ ({ num := 15, srcDpa := 0, dstDpa := 0, lines := 1, line := 1 } : CopyPart).ended = false := by decide +kernel
theorem test_meets_scrub : let s : State := { extents with
      sec.slots := [(2, { st := 1 })], pool.own := [(3, { key := some 2 })], pool.scrub := [(0, { die := 0, owner := 3, group := false })] }
    (s.extNow 0).sides ≠ [] ∧ s.scrubKeyed (3 + 0) 0 = true := by decide +kernel
theorem test_meets_notes : let x : MapNote := { home := [(65535, {})], dev := [], acked := List.range 127, goal := .remap 7 }
    (127 : Cell).val ∉ x.acked ∧ sv.noteAcked x = false ∧ sv.noteAcked { x with acked := List.range 128 } = true ∧ sv.cellFenced 127 = false := by decide +kernel
theorem test_meets_keys : let s : State := { sv with
      sec.slots := [(2, { st := 4 }), (3, { st := 1, owner := 3 }), (4, { st := 1, making := true })], sec.loads := [(127, 3, 0)], pool.own := [(3, { key := some 3 })] }
    (s.keyRec 2).st = 4 ∧ (s.keyRec 2).awAck = [] ∧ (s.keyRec 4).making = true ∧ s.sec.rots = [] ∧ (s.keyRec 3).st = 1 ∧ (s.keyRec 3).making = false
      ∧ s.sec.loads.find? (fun x => x.1 == (127 : Cell).val && x.2.1 == (3 : KeySlot).val) = some (127, 3, 0) ∧ s.transportKey = none
      ∧ s.sec.loads.find? (fun x => x.1 == (126 : Cell).val && x.2.1 == (3 : KeySlot).val) = none ∧ s.keysOk = true
      ∧ (s.wr F.SEC_STATUS_DRBG_FAIL 1).keysOk = false ∧ s.rotOf 3 = none ∧ (s.owner 3).key = some 3 ∧ s.rd F.SEC_ROTATE_BUSY = 0
      ∧ (s.allocSlot (3 % 4096) (decide (3 ≥ 4096))).1 ≠ none ∧ (s.owner (s.rd F.SEC_ROTATE_OWNER)).key = none := by decide +kernel
/-- A note that carries a key under the transport key. -/
theorem test_meets_keyload : let w := BitVec.ofNat 256 (Config.freeRandom 9)
    ({ sv with sec.transport := some 9 } : State).transportKey = some w ∧ unwrapKey w (wrapKey w 5) = some 5 := ⟨rfl, unwrapKey_wrapKey _ _⟩
theorem test_meets_rotation : let s : State := { sv with sec.rots := [({ owner := 3, group := false, old := 3, new := 4, left := [], byMgr := false } : Rot)], pool.own := [(3, { key := some 3 })] }
    s.rotOf 3 ≠ none ∧ (s.owner 3).key ≠ none ∧ s.sec.rots.length < 64 := by decide +kernel
theorem test_meets_ages : let s : State := { sv.wr F.SEC_CFG_ROT_PERIOD 1 with sec.slots := [(3, { st := 1, owner := 3 })], wall := 24 * hourCyc }
    s.rd F.SEC_CFG_ROT_PERIOD ≠ 0 ∧ 24 * s.rd F.SEC_CFG_ROT_PERIOD ≤ (s.wall - 0) / hourCyc ∧ sv.rd F.SEC_CFG_ROT_PERIOD = 0
      ∧ ({ cell := 5 } : Walker).block + 1 < extBlocks := by decide +kernel
theorem test_meets_barrier : let b : Barrier := { goal := .bind 3, sets := [], insts := [3], cells := [0, 127] }
    let s : State := { sv with sec.barrier := some b }
    (0 : Cell).val ∈ b.cells ∧ (0 : Cell).val ∉ b.drained ∧ s.barrierBusy 0 b.insts = false ∧ (127 : Cell) ≠ 0 ∧ s.cellFenced 127 = false
      ∧ (s.setSlot 0 3 { slot3 with hdr := { opc := .rds, inst := 3 } }).barrierBusy 0 b.insts = true ∧ b.goal ≠ .epoch
      ∧ (s.wr (F.SEC_IDE_STATE 9) 2).rd (F.SEC_IDE_STATE 9) = 2 ∧ s.anchorOf 9 = 9 := by decide +kernel
/-- A port 0 whose link is at a STATE of Table 10-9. -/
def linkAt (m : Mode) (n : Nat) : State := ((at_ m).wr (F.LANE_PORT_STATUS_STATE 0) n).wr (F.LANE_PORT_CFG_FAULT_THRESH 0) 4
theorem test_meets_lanes : let s : State := { (linkAt .service 4).wr (F.LANE_STATUS_USED 0) 1 with lane.goal := [(0, (2, false))] }
    (4#32).toNat = max 1 (s.rd (F.LANE_PORT_CFG_FAULT_THRESH (s.laneAnchor 0))) ∧ (3#32).toNat < max 1 (s.rd (F.LANE_PORT_CFG_FAULT_THRESH (s.laneAnchor 0)))
      ∧ s.rd (F.LANE_PORT_STATUS_STATE (s.laneAnchor 0)) = 4 ∧ s.rd (F.LANE_STATUS_USED 0) = 1 ∧ s.rd (F.LANE_STATUS_FAULTY 0) = 0
      ∧ mget s.lane.goal 0 = some (2, false) ∧ (linkAt .service 3).rd (F.LANE_PORT_STATUS_STATE 0) = 3 ∧ (s.laneAnchor 511).val = 127 := by decide +kernel
theorem test_meets_refclk : let s : State := { (linkAt .service 3).wr (F.LANE_PORT_STATUS_REF_SRC 0) 1 with roles := [(0, .host), (14, .onora)] }
    (∀ a ∈ s.dieAnchors 0, s.roleOf a = .onora ∨ s.rd (F.LANE_PORT_STATUS_REF_SRC a) = 1) ∧ s.activeSp ≠ none
      ∧ ({ linkAt .service 3 with roles := [(0, .host)] } : State).dieAnchors 0 = [0] ∧ (linkAt .service 3).rd (F.LANE_PORT_STATUS_REF_SRC 0) = 0 := by
  decide +kernel
theorem test_meets_l1_and_tests : portsOn (linkAt .service 3).mode = true ∧ (linkAt .service 5).rd (F.LANE_PORT_STATUS_STATE 0) = 5
    ∧ (linkAt .service 3).rd (F.LANE_PORT_CTRL_BUSY 0) = 0 ∧ ((linkAt .selfTest 2).wr (F.LANE_PORT_CTRL_TEST_RATE 0) 6).rd (F.LANE_PORT_CTRL_TEST_RATE 0) ≠ 7
    ∧ (linkAt .selfTest 2).rd (F.LANE_PORT_STATUS_STATE 0) < 3 ∧ (linkAt .selfTest 6).rd (F.LANE_PORT_STATUS_STATE 0) = 6
    ∧ (0 : Cell).val ∈ ({ linkAt .maintenance 3 with pool.paused := [0] } : State).pool.paused
    ∧ (linkAt .service 1).rd (F.LANE_PORT_STATUS_STATE 0) = 1 ∧ (linkAt .service 2).rd (F.LANE_PORT_STATUS_STATE 0) = 2 := by decide +kernel
theorem test_meets_prbs : let s := ((((linkAt .selfTest 6).wr (F.LANE_TEST_GEN_EN 3) 1).wr (F.LANE_TEST_LOOP 3) 1).wr (F.LANE_TEST_CHK_EN 3) 1)
    s.laneInTest 3 = true ∧ s.rd (F.LANE_TEST_GEN_EN 3) = 1 ∧ s.rd (F.LANE_TEST_LOOP 3) = 1 ∧ s.rd (F.LANE_TEST_CHK_EN 3) = 1
      ∧ mget s.lane.injAt 3 ≠ some s.cyc ∧ s.rd (F.LANE_PRBS_STAT_LOCKED 3) = 0 ∧ (s.wr (F.LANE_PRBS_STAT_LOCKED 3) 1).rd (F.LANE_PRBS_STAT_LOCKED 3) = 1
      ∧ (s.wr (F.LANE_TEST_INJ_RATE 3) 1).rd (F.LANE_TEST_INJ_RATE 3) ≠ 0 := by decide +kernel
theorem test_meets_manager_lanes : sv.rd F.LANE_M_STATUS_TX_WIDTH = 0 ∧ (sv.wr F.LANE_M_CTRL_WIDTH 1).mgrWidth = 1 ∧ (sv.wr F.LANE_M_CTRL_WIDTH 2).mgrWidth = 2
    ∧ sv.mgrWidth = 0 ∧ sv.rd (mgrSync 1) = 0 ∧ (sv.wr (mgrSync 0) 1).rd (mgrSync 0) = 1 ∧ (sv.wr F.LANE_M_STATUS_TX_WIDTH 2).rd F.LANE_M_STATUS_TX_WIDTH ≠ 0
    ∧ ((sv.wr F.LANE_M_STATUS_SYNC0 1).wr F.LANE_M_STATUS_SYNC1 1).rd F.LANE_M_STATUS_SYNC0 = 1
    ∧ ((sv.wr F.LANE_M_STATUS_SYNC0 1).wr F.LANE_M_STATUS_SYNC1 1).rd F.LANE_M_STATUS_SYNC1 = 1 := by decide +kernel
/-- An Onora port at a LINK_STATE and TRAIN_STATE of Table 11-9. -/
def onlAt (link train : Nat) : State := (sv.wr (F.ONL_STATUS_LINK_STATE 14) link).wr (F.ONL_STATUS_TRAIN_STATE 14) train
def cpkt0 : CPkt := { cu := { dmod := 0, smod := 3 }, p := { opc := .mcmp } }
theorem test_meets_onora_link : (onlAt 2 0).linkUp 14 = true ∧ (onlAt 3 0).linkUp 14 = true ∧ (0 : Fin 4096).val = (onlAt 3 0).rd (F.ONL_SEQ_RX_EXPECT 14)
    ∧ (4095 : Fin 4096).val ≠ (onlAt 3 0).rd (F.ONL_SEQ_RX_EXPECT 14) ∧ (14 : Cell).val ∉ (onlAt 3 0).onl.failed
    ∧ mgetD 0 ({ onlAt 3 0 with onl.unacked := [(14, 62)] } : State).onl.unacked (14 : Cell).val < 63
    ∧ 0 < mgetD 0 ({ onlAt 3 0 with onl.unacked := [(14, 62)] } : State).onl.unacked (14 : Cell).val
    ∧ (∃ x ∈ mgetD [] ({ onlAt 3 0 with onl.queue := [(14, [cpkt0])] } : State).onl.queue (14 : Cell).val,
      ({ onlAt 3 0 with onl.queue := [(14, [cpkt0])] } : State).rd (F.ONL_CREDIT_TX_HELD (14 : Cell) x.cu.phase x.p.opc.vc) < x.need) := by decide +kernel
theorem test_meets_training : 2 ≤ (onlAt 1 2).rd (F.ONL_STATUS_TRAIN_STATE 14) ∧ (onlAt 1 5).rd (F.ONL_STATUS_TRAIN_STATE 14) ≤ 5 ∧ (3 : Fin 16).val < sv.portWidth 14
    ∧ 16 ≤ mgetD 0 ({ onlAt 1 2 with onl.tcrc := [(59, 15)] } : State).onl.tcrc (4 * (14 : Cell).val + (3 : Fin 16).val) + 1 ∧ 4 * (127 : Cell).val + (3 : Fin 16).val < 512
    ∧ (onlAt 1 1).rd (F.ONL_STATUS_TRAIN_STATE 14) = 1 ∧ (onlAt 1 6).rd (F.ONL_STATUS_TRAIN_STATE 14) = 6
    ∧ (let s := (onlAt 1 4).wr (F.ONL_CFG_NBR_EXPECT 14) 31
      (31 : Fin 32).val = s.rd (F.ONL_CFG_NBR_EXPECT 14) ∧ ({ addr := 31 } : OParam).dateline = s.rdb (F.ONL_CFG_DATELINE 14) ∧ (31 : Fin 32).val ≠ s.chainAddr)
    ∧ (onlAt 0 0).linkSt 14 = 0 ∧ 0 < mgetD 0 ({ onlAt 0 0 with onl.fails := [(14, 1)] } : State).onl.fails 14 ∧ (onlAt 0 0).rd (F.ONL_CTRL_BUSY 14) = 0
    ∧ (onlAt 0 0).anchorOf 14 = 14 ∧ (onlAt 0 0).onlWidth 14 ≠ none ∧ (onlAt 3 0).mode ≠ .maintenance ∧ (onlAt 5 0).linkSt 14 = 5
    ∧ ({ onlAt 3 0 with mode := .safeStop } : State).onoraAnchors.filter ({ onlAt 3 0 with mode := .safeStop } : State).linkUp = [14] := by decide +kernel
/-- A packet's wrapped form and what the chain holds of its peers. -/
theorem test_meets_chain_packets : sv.mayArrive { opc := .onlabs, tagSlot := 3 } = true ∧ (sv.setSlot 0 3 { slot3 with hdr := { opc := .rds } }).slot 0 3 ≠ none
    ∧ sv.slot 0 3 = none ∧ mgetD [] sv.onl.seen 31 = [] ∧ (31 : Nat) ≠ sv.chainAddr ∧ sv.onl.epochOpen = false ∧ mget sv.onl.adv 31 = none
    ∧ ({ boot := 0, seq := 0, member := 0, topo := 0, nbrs := 0, heard := 0 } : Adv).heard + 50 * msCyc ≤ 50 * msCyc := by decide +kernel
theorem test_meets_probes : let x : CPkt := { cpkt0 with p := { opc := .probersp, data := [lineOf [(0, 0), (8, 7)]] } }
    mget [(3, (7, 0))] x.cu.smod.val = some (lineGet (x.p.data.headD 0) 8 4, 0) := by decide +kernel
def piece (xseq off len : Nat) (rest : List Line) : CPkt := { cpkt0 with p := { opc := .blob, data := lineOf [(0, xseq), (8, off), (12, len)] :: rest } }
theorem test_meets_pieces : (addPiece none (piece 9 0 3969 [0]).p.data).2 = false
    ∧ (addPiece (some { xseq := 9, total := 3969, got := [(0, [0])] }) (piece 9 3968 3969 [0]).p.data).2 = true
    ∧ (addPiece none (piece 9 0 64 [0]).p.data).2 = true ∧ (9 : Nat) % 2 ^ 64 = lineGet ((piece 9 0 64 []).p.data.headD 0) 0 8
    ∧ lineGet ((piece 9 0 64 []).p.data.headD 0) 15 1 ≠ 1 ∧ (3 : Nat) < 4096 := by decide +kernel
theorem test_meets_keyx : let x : CPkt := { cpkt0 with p := { opc := .keyx, data := [lineOf [(0, 9), (12, 64)], lineOf [(0, 0x58464B4A), (4, 3)]] } }
    let p := (addPiece none x.p.data).1
    (lineGet (x.p.data.headD 0) 14 1).testBit 0 = false ∧ (addPiece none x.p.data).2 = true
      ∧ lineGet (((mget p.got 0).getD []).headD 0) 0 4 = 0x58464B4A ∧ lineGet (((mget p.got 0).getD []).headD 0) 4 1 = x.cu.smod.val
      ∧ (5#384).toNat ∈ ({ sv with img.peers := [5] } : State).img.peers := by decide +kernel
/-- A wrapped packet that has made 16 hops. -/
def wrapped : Pkt := xferOf 14 14 { cu := { dmod := 2, smod := 3, hops := 16 }, p := { opc := .mrd } }
theorem test_meets_xfer : sv.mayArrive wrapped = true ∧ (unwrap wrapped).isSome = true ∧ ((unwrap wrapped).map (·.cu.hops)) = some 16
    ∧ ((unwrap wrapped).map (·.cu.cep)) = some sv.cep ∧ (sv.wr (F.ONL_CHAIN_HOP_LIMIT 0) 15).rd (F.ONL_CHAIN_HOP_LIMIT 0) < 16
    ∧ 16 ≤ (sv.wr (F.ONL_CHAIN_HOP_LIMIT 0) 16).rd (F.ONL_CHAIN_HOP_LIMIT 0) ∧ (onlAt 3 0).linkSt 14 = 3 ∧ sv.linkSt 14 ≠ 3 := by decide +kernel
theorem test_meets_import : let x : CPkt := { cpkt0 with p := { opc := .mrd } }
    let s : State := { sv with onl.arrived := [(14, [(14, x)])], home.ext := [(14 * 65536, { st := .mirrored, mcell := 5 })], onl.rext := [(7, (3, 0))] }
    mgetD [] s.onl.arrived 14 = [(14, x)] ∧ chainReq x.p.opc = true ∧ s.mode ≠ .safeStop ∧ mget s.onl.cslot ((14 : Cell).val * 1024 + 768) = none
      ∧ (s.homeExt 14 x.p.ext).noMem = false ∧ s.onl.rext.find? (fun v => v.2.1 == x.cu.smod.val && v.2.2 == x.p.ext) = some (7, 3, 0)
      ∧ x.p.opc ≠ .mcmp := by decide +kernel
/-- Rind running, in a power controller state. -/
def pwrAt (n : Nat) : State := ((((at_ .dormant).wr F.RIND_PWR_STATUS_CTRL_STATE n).wr (feedFld 0) 1).wr (feedFld 1) 1).wr F.RIND_PWR_STATUS_SENSE_S 1
theorem test_meets_power : (pwrAt 5).pwr.rind = true ∧ ({ pwrAt 0 with pwr.rind := false } : State).pwr.rind = false ∧ (pwrAt 5).ctrl = 5 ∧ (pwrAt 0).ctrl = 0
    ∧ (pwrAt 3).rd (feedFld 0) = 1 ∧ (pwrAt 3).rd (feedFld (1 - 0)) = 1 ∧ ((pwrAt 1).wr (feedFld 1) 2).rd (feedFld (1 - 0)) ≠ 1 ∧ (pwrAt 3).activeSp ≠ none
    ∧ ((pwrAt 2).wr F.RIND_PWR_STATUS_RETRY_CNT 3).rd F.RIND_PWR_STATUS_RETRY_CNT = 3 ∧ ((pwrAt 2).wr F.RIND_PWR_STATUS_RETRY_CNT 2).rd F.RIND_PWR_STATUS_RETRY_CNT ≠ 3
    ∧ (((pwrAt 4).wr F.RIND_PWR_STATUS_SENSE_L 1).wr F.RIND_PWR_STATUS_SENSE_M 1).senses = true
    ∧ ((pwrAt 4).wr F.RIND_PWR_STATUS_SENSE_S 0).senses = false ∧ (pwrAt 3).anyFeed = true ∧ (pwrAt 3).rd F.RIND_PWR_STATUS_SENSE_S = 1
    ∧ (pwrAt 3).rd F.RIND_PWR_STATUS_TIMER_RUN = 0 ∧ ((pwrAt 3).wr F.RIND_PWR_STATUS_BOTH_LOST 1).rd F.RIND_PWR_STATUS_BOTH_LOST = 1
    ∧ ((pwrAt 3).wr F.RIND_PWR_STATUS_PWRGD 1).rd F.RIND_PWR_STATUS_PWRGD = 1 := by decide +kernel
theorem test_meets_clocks : ((at_ .drowse).wr (F.DIE_PLL_STATUS_STATE 7) 1).rd (F.DIE_PLL_STATUS_STATE 7) = 1
    ∧ ((at_ .drowse).wr (F.DIE_PLL_STATUS_STATE 7) 2).rd (F.DIE_PLL_STATUS_STATE 7) = 2 ∧ sv.mgr.pend = []
    ∧ (let s := (at_ .drowse).setDomain 15 1
      (∀ m ∈ s.portMembers 5, s.quiet m = true ∧ s.domain (3 * m.val) = 1 ∧ s.cellFenced m = false ∧ s.rd (F.SCRIM_RTR_STATUS_LOCAL_MODE m) = 0 ∧
        s.injecting m = false)) := by decide +kernel
theorem test_meets_log_fetch : let s : State := { (sv.wr F.PKG_LOG_SEL_LOG 2).wr F.PKG_LOG_SEL_SEQ 6 with
      log.fetching := true, log.access := [{ time := 0, source := 0, reason := 1, origin := 0, addr := 0, data := 0, count := 1, seq := 6 }] }
    s.rd F.PKG_LOG_SEL_LOG < 4 ∧ s.activeSp ≠ none ∧ s.metadataPresent = true
      ∧ ((s.logWords (s.rd F.PKG_LOG_SEL_LOG)).find? (fun x => x.1 == s.rd F.PKG_LOG_SEL_SEQ)).isSome = true
      ∧ (s.log.access.map (fun r => r.words.length)) = [4] ∧ ({ s with activeSp := none } : State).activeSp = none := by decide +kernel
theorem test_meets_nor : sv.rd F.PKG_NOR_CTRL_BUSY = 0 ∧ norMode sv.mode = true ∧ norMode (at_ .safeStop).mode = false ∧ norWhere 1 0x3FFFF00 = true
    ∧ norWhere 1 0x3FFFF01 = false ∧ norWhere 2 0x2FFFF00 = true ∧ norWhere 2 0x3000000 = false ∧ norWhere 3 0x2FF0000 = true ∧ norWhere 3 0x2FF0001 = false
    ∧ sv.norPresent 1 = true ∧ ({ sv with img.norDead := [1] } : State).norPresent 1 = false ∧ norLogs sv.mode = true ∧ sv.norHeld 1 = false
    ∧ sv.rd F.PKG_IMAGE_VERIFY_BUSY = 0 ∧ sv.rd F.PKG_LC_REQ_BUSY = 0 ∧ sv.lcFault 1 = some 5 := by decide +kernel
/-- A token that passes where its signature does. -/
theorem tokenFault_none {s : State} {t typ : Nat} {g : Option Nat} {owner : Bool}
    (ok : s.tokenLe t 0 4 = 0x4B54464A ∧ s.tokenLe t 56 1 = (if owner then 1 else 2) ∧ (owner || s.keyGood (s.tokenLe t 57 1)) = true
      ∧ s.tokenLe t 8 16 = s.serial ∧ s.tokenLe t 24 32 = s.nonce ∧ s.tokenLe t 4 1 = typ
      ∧ (∀ x, g = some x → s.tokenLe t 5 1 = x) ∧ (g = none → s.tokenLe t 5 1 < 4 ∧ s.tokenLe t 5 1 ≠ s.tokenLe t 57 1))
    (sig : Config.ecdsaOk (if owner then .inr (s.tokenBytes t 59 97) else .inl (s.tokenLe t 57 1)) (hashLe (s.tokenBytes t 0 160)) (s.tokenBytes t 160 96) = true) :
    s.tokenFault t typ g owner = none := by
  obtain ⟨h1, h2, h3, h4, h5, h6, h7, h8⟩ := ok
  cases g with
  | some x => cases owner <;> simp_all [State.tokenFault]
  | none =>
    have := h8 rfl
    cases owner <;> simp_all [State.tokenFault]
/-- A state with a token of a type, a target and a kind of signer in register t. -/
def token (s : State) (t typ target signer : Nat) : State :=
  (s.wr (F.PKG_LC_TOKEN_DATA t 0) (0x4B54464A + typ * 2 ^ 32 + target * 2 ^ 40)).wr (F.PKG_LC_TOKEN_DATA t 7) signer
def passes (s : State) (t : Nat) (owner : Bool) : Prop :=
  Config.ecdsaOk (if owner then .inr (s.tokenBytes t 59 97) else .inl (s.tokenLe t 57 1)) (hashLe (s.tokenBytes t 0 160)) (s.tokenBytes t 160 96) = true
def lc (m : Mode) (code : Nat) : State := (at_ m).wr F.PKG_LC_CODE code
/-- An operation whose tokens pass is allowed (Table 15-5). -/
theorem lcFault_none {s : State} :
    (s.lcAllowed 1 = true → s.tokenFault 0 1 (some 0x07) false = none → s.lcFault 1 = none) ∧
    (s.lcAllowed 2 = true → s.tokenFault 0 2 (some 0x0F) true = none → s.ownerKeyOk = true → s.lcFault 2 = none) ∧
    (s.lcAllowed 3 = true → s.tokenFault 0 3 (some 0x1F) true = none → s.ownerKeyOk = true → s.tokenFault 1 4 (some 0x1F) false = none → s.lcFault 3 = none) ∧
    (s.lcAllowed 5 = true → s.tokenFault 0 5 (some 0x3F) false = none → s.lcFault 5 = none) ∧
    (s.lcAllowed 6 = true → s.tokenFault 0 6 none false = none → s.lcFault 6 = none) := by
  refine ⟨?_, ?_, ?_, ?_, ?_⟩ <;> intros <;> simp_all [State.lcFault]
theorem test_meets_open (h : passes (token (lc .sealedHalt 3) 0 1 0x07 2) 0 false) : (token (lc .sealedHalt 3) 0 1 0x07 2).lcFault 1 = none :=
  lcFault_none.1 (by decide +kernel) (tokenFault_none (by decide +kernel) h)
theorem test_meets_seal (h : passes (token (lc .service 7) 0 2 0x0F 1) 0 true) : (token (lc .service 7) 0 2 0x0F 1).lcFault 2 = none :=
  lcFault_none.2.1 (by decide +kernel) (tokenFault_none (by decide +kernel) h) (by decide +kernel)
theorem test_meets_return_tokens (h : passes (token (token (lc .service 7) 1 4 0x1F 2) 0 3 0x1F 1) 0 true)
    (h' : passes (token (token (lc .service 7) 1 4 0x1F 2) 0 3 0x1F 1) 1 false) : (token (token (lc .service 7) 1 4 0x1F 2) 0 3 0x1F 1).lcFault 3 = none :=
  lcFault_none.2.2.1 (by decide +kernel) (tokenFault_none (by decide +kernel) h) (by decide +kernel) (tokenFault_none (by decide +kernel) h')
theorem test_meets_retire (h : passes (token (lc .returnTest 0x1F) 0 5 0x3F 2) 0 false) : (token (lc .returnTest 0x1F) 0 5 0x3F 2).lcFault 5 = none :=
  lcFault_none.2.2.2.1 (by decide +kernel) (tokenFault_none (by decide +kernel) h)
theorem test_meets_revoke (h : passes (token (lc .service 7) 0 6 3 2) 0 false) : (token (lc .service 7) 0 6 3 2).lcFault 6 = none :=
  lcFault_none.2.2.2.2 (by decide +kernel) (tokenFault_none (by decide +kernel) h)
theorem test_meets_jtag : sv.pwr.rind = true ∧ sv.mode ≠ .returnTest ∧ (F.PKG_MODE_at : BitVec 32).toNat % 8 = 0 ∧ (regAt F.PKG_MODE_at).isSome = true
    ∧ sv.jtagReads F.PKG_MODE_at = true ∧ (lc .service 0x0F).jtagReads (F.INST_INFO_at 0) = false ∧ sv.jtagWrites (F.LANE_TEST_at 511) = true
    ∧ sv.jtagWrites F.PKG_MODE_at = false ∧ (lc .service 0x3F).lcOpen = true ∧ ((sv.setDomain 428 1).setDomain 429 1).domain (428 + (1 : Fin 2).val) = 1
    ∧ (lc .service 0x3F).makerOk = true ∧ sv.makerOk = false := by decide +kernel
theorem test_meets_spdm : sv.roleOf 0 = .host ∧ sv.isAnchor 0 = true ∧ portsOn sv.mode = true ∧ ({ sv with img.rootKey := some 0 } : State).canSign = true
    ∧ 16 ≤ ({ sv with spdm.queue := List.replicate 16 (0, .challenge) } : State).spdm.queue.length
    ∧ ({ sv with spdm.queue := List.replicate 15 (0, .challenge) } : State).spdm.queue.length < 16 ∧ (0xFF : Fin 256).val = 0xFF := by decide +kernel
def zmp0 : ZmpIn := { seq := 1 }
theorem test_meets_zmp : zmp0.frameOk = true ∧ zmp0.valid = true ∧ zmp0.busy = false ∧ sv.mgr.answers = [] ∧ sv.mgr.holder = none ∧ sv.pathOk .mgr = true
    ∧ leased.mgr.holder = some .mgr ∧ (64#16).toNat ≤ 64 ∧ ({ leased with wall := 1 } : State).mgr.leaseEnd ≤ 1
    ∧ (({ sv with mgr.answers := [{ src := .mgr, seq := 1, typ := 7, payload := [] }] } : State).stored .mgr 7 zmp0.seq.toNat).isSome = true := by decide +kernel
theorem test_meets_register_write : (0x301#32).toNat % 8 ≠ 0 ∧ regAt 0x3FFFF8 = none ∧ (0x3FFFF8 : Nat) % 8 = 0 ∧ (regAt 0x300).isSome = true
    ∧ ((sv.pulseDraw.2).rindAccess 0x300).hidden 0x300 = false ∧ (0x300 : Nat) ≠ F.PKG_LOG_SEL_at := by decide +kernel
theorem test_meets_commit : let e : Epoch := { phase := .apply, awAck := [3] }
    sv.mgr.epoch = none ∧ commitMode sv.mode = true ∧ commitMode (at_ .safeStop).mode = false ∧ sv.epochFree = true ∧ sv.scrim.epochOpen = false
      ∧ (3 : Fin 1024).val ∈ e.awAck ∧ ({ e with awAck := [] } : Epoch).awAck = [] ∧ inGate (0x1000018#32).toNat = false ∧ sv.safePoint (0x1000018#32).toNat = true
      ∧ mget ({ sv with mgr.pend := [(0x1000018, (7, 1))] } : State).mgr.pend (0x1000018#32).toNat = some (7, 1) := by decide +kernel
/-- Counters 0 to 3 of cell 0 enabled and at their last value, counters 0 and 1 chained. -/
def counting : State := (((((sv.setDomain 0 1).wr (F.CTR_CTL_EN 0) 0xFF).wr (F.CTR_CFG_EVT 0 2) 3).wr (F.CTR_VAL_VALUE 0 2) (2 ^ 32 - 1)).wr (F.CTR_CFG_CHAIN 0 0) 1)
theorem test_meets_counters : counting.ctrWraps 0 2 1 = true ∧ counting.ctrWraps 0 2 0 = false ∧ counting.ctrLive 0 2 = true ∧ counting.cellFenced 0 = false
    ∧ counting.ctrChained 0 2 = false ∧ counting.rd (F.CTR_CFG_SAMPLE 0 2) = 0 ∧ counting.ctrRuns 0 1 = true ∧ counting.ctrChained 0 0 = true
    ∧ counting.rdb (F.CTR_CFG_SAMPLE 0 1) = false ∧ counting.ctrLive 0 4 = false ∧ counting.ctrLive 0 5 = false ∧ counting.hidden (F.CTR_CTL_at 0) = false
    ∧ (∀ n : Fin 8, counting.hidden (F.CTR_VAL_at 0 n) = false) ∧ (∀ j : Fin 4, counting.hidden (F.CTR_PAIR_at 0 j) = false)
    ∧ (counting.wr (F.CTR_CTL_SNAP_ARM 0) 1).rd (F.CTR_CTL_SNAP_ARM 0) = 1 ∧ counting.domain (3 * (0 : Cell).val) = 1
    ∧ counting.rd (F.CTR_SNAP_AT_SNAP_AT 0) ≤ counting.ns ∧ mget [(0, (5, 3))] (0 : Cell).val = some (5, 3) := by decide +kernel
theorem test_meets_grants : ({ sv with img.ctrPerm := [(4095, 4)] } : State).ctrGrant 4095 2 = true ∧ sv.ctrGrant 4095 1 = false ∧ sv.ctrGrant 4095 2 = false := by
  decide +kernel
theorem test_meets_thermal : (sv.setDomain (spineDom 7) 1).runs_ (sensorElem 31) = true ∧ (sv.setDomain 427 1).runs_ (sensorElem 35) = true
    ∧ (35 : Fin 52).val < 36 ∧ ({ sv with therm.warm := [51] } : State).therm.warm = [51] := by decide +kernel
theorem test_meets_cxl_io : bound.firstSlot 0 ≠ none ∧ (0 : Cell).val ∉ bound.pool.paused ∧ bound.vppbInst 0 63 = none ∧ bound.vppbDevice 0 63 = none
    ∧ bound.vppbInst 0 2 = some 3 ∧ bound.vppbDevice 0 2 = none ∧ bound.mode ≠ .safeStop := by decide +kernel
theorem test_meets_frames_of_commands : mget sv.pool.press (7 : Die).val = none ∧ State.reset.pending = [] ∧ State.reset.pwr.rind = true ∧ State.reset.mode ≠ .dormant
    ∧ (at_ .dormant).mode = .dormant ∧ (0 + 1) % 120 ≠ 0 ∧ (119 + 1) % 120 = 0 ∧ ({ sv with img.rootKey := some 0 } : State).img.rootKey = some 0 := by decide +kernel
theorem test_meets_ports : (sv.wr (F.XBAR_STATUS_WIDTH 124) 3).rd (F.XBAR_STATUS_WIDTH ((127 : Cell).val - (127 : Cell).val % 4)) = 3
    ∧ (sv.wr (F.XBAR_STATUS_WIDTH 126) 2).rd (F.XBAR_STATUS_WIDTH ((127 : Cell).val - (127 : Cell).val % 4)) ≠ 3
    ∧ (sv.wr (F.XBAR_STATUS_WIDTH 126) 2).rd (F.XBAR_STATUS_WIDTH ((127 : Cell).val - (127 : Cell).val % 2)) = 2
    ∧ sv.rd (F.XBAR_STATUS_WIDTH ((127 : Cell).val - (127 : Cell).val % 2)) ≠ 2 ∧ sv.roleOf 14 = .onora ∧ sv.roleOf 1 = .idle
    ∧ (F.PKG_LC_CODE).lsb + (F.PKG_LC_CODE).width ≤ 64 ∧ F.PKG_LC_CODE.addr ≠ F.PKG_SERIAL_at 0 := by decide +kernel
theorem test_meets_directory : (0xFFFFF : Nat) < 2 ^ 20 ∧ (15 : Nat) < 16 ∧ dirOffset 127 0xFFFFF 15 true = dirOffset 127 0xFFFFF 15 true
    ∧ (95 : HSlot).val < 96 ∧ (64 : Nat) ≤ (64 : HSlot).val ∧ (63 : HSlot).val < 64 ∧ ({ st := .S, coarse := true, presence := 1 } : DirEntry).presence.toNat < 2 ^ 48
    ∧ ({ img := 0, set := 0, ways := [{ st := .I }] } : CSet).freeWay = some 0 ∧ ({ img := 0, set := 0, ways := [{ st := .S }] } : CSet).freeWay = none
    ∧ ({ img := 0, set := 0, ways := [{ st := .S }] } : CSet).victim = some 0 ∧ (127 : Nat) < 128 := by decide +kernel
theorem test_meets_retransmission : zmpCount (.read 0 64) = true ∧ (match exec (.zmpPing zmp0) sv with | .next t => t.pwr.rind | _ => false) = true := by decide +kernel

end Sys2Proof.Tests
end

/-! # Scope: the frame of every command, where the machine stops, the register space, and the numbers and roles of ports -/

namespace Sys2Proof.Machine

/-! ### The frame of every command (O26) -/

theorem Part.ctorIdx_injective : Function.Injective Part.ctorIdx :=
  Function.LeftInverse.injective Part.ofNat_ctorIdx
/-- Bit i of a set of parts tells whether it holds part i. -/
theorem testBit_partMask (l : List Part) (p : Part) : (partMask l).testBit p.ctorIdx = decide (p ∈ l) := by
  induction l with
  | nil => simp [partMask]
  | cons q l ih =>
    have hq : q.ctorIdx = p.ctorIdx ↔ p = q := Part.ctorIdx_injective.eq_iff.trans eq_comm
    change (q.bit ||| partMask l).testBit p.ctorIdx = _
    rw [Nat.testBit_or, ih, Part.bit, Nat.testBit_two_pow]
    simp only [hq, List.mem_cons, Bool.decide_or]
theorem bit_and_partMask_ne {l : List Part} {p : Part} (hp : p ∉ l) : p.bit &&& partMask l ≠ p.bit := by
  intro e
  have hb : (p.bit &&& partMask l).testBit p.ctorIdx = true := by rw [e, Part.bit, Nat.testBit_two_pow_self]
  rw [Nat.testBit_and, testBit_partMask, Bool.and_eq_true, decide_eq_true_eq] at hb
  exact hp hb.2
/-- An operation that keeps all but the parts of a set changes only parts of that set. -/
theorem Keeps.changesOnly {l : List Part} {s t : State} (h : Keeps (partMask l) s t) : s.changesOnly l t :=
  ⟨h.queue, fun p hp => h.frame p (bit_and_partMask_ne hp)⟩
theorem State.changesOnly_refl (l : List Part) (s : State) : s.changesOnly l s := (Keeps.refl s).changesOnly
/-- Without the Rind supply the module keeps the free values drawn, what has left it, and the wall time. -/
theorem State.unpower_changesOnly (s : State) : s.changesOnly (partsOf .rindStop) s.unpower := by
  refine ⟨rfl, fun p hp => ?_⟩
  cases p with
  | freeCtr => rfl
  | out => rfl
  | wall => rfl
  | _ => exact absurd (by decide) hp

/-- Settles O26: exec_keeps names the parts of every command but RIND_STOP, which removes the supply or changes nothing. -/
theorem everyCommandFrame : Obligations.EveryCommandFrame := by
  intro c s t e
  by_cases hc : c = .rindStop
  · subst hc
    rcases execRindStop_cases (s := s) e with rfl | rfl
    · exact State.changesOnly_refl _ _
    · exact State.unpower_changesOnly s
  · exact (exec_keeps hc e).changesOnly

/-! ### Where the machine stops (O34) -/

/-- Every command but MAKER_PRIVATE answers a next state. -/
theorem exec_answers_next {c : Instr} (hc : ∀ n, c ≠ .makerPrivate n) (s : State) : ∃ t, exec c s = .next t := by
  cases c with
  | makerPrivate n => exact absurd rfl (hc n)
  | _ => exact ⟨_, rfl⟩
/-- MAKER_PRIVATE is permitted in the codes 0x03, 0x1F and 0x3F of a module that has its Rind supply (Table 15-15, log 99). -/
def State.privatePermitted (s : State) : Prop := s.pwr.rind = true ∧ s.rd F.PKG_LC_CODE ∈ [0x03, 0x1F, 0x3F]
theorem State.rind_and_makerOk_iff (s : State) : (s.pwr.rind && s.makerOk) = true ↔ s.privatePermitted := by
  rw [Bool.and_eq_true, State.makerOk, List.contains_iff_mem, State.privatePermitted]
theorem exec_makerPrivate_permitted {s : State} (h : s.privatePermitted) (n : Fin 127) :
    exec (.makerPrivate n) s = .refused .makerPrivate :=
  if_pos (s.rind_and_makerOk_iff.2 h)
theorem exec_makerPrivate_bypassed {s : State} (h : ¬ s.privatePermitted) (n : Fin 127) :
    exec (.makerPrivate n) s = .next (s.jtagRun (0x80 + n.val) false id) :=
  if_neg (mt s.rind_and_makerOk_iff.1 h)
/-- What a step answers: a next state, or the refusal of a permitted MAKER_PRIVATE in front. -/
theorem step_cases (s : State) :
    (∃ t, step s = .next t ∧ ¬ (s.privatePermitted ∧ ∃ n l, s.pending = .makerPrivate n :: l)) ∨
    (step s = .refused .makerPrivate ∧ s.privatePermitted ∧ ∃ n l, s.pending = .makerPrivate n :: l) := by
  cases hq : s.pending with
  | nil => exact .inl ⟨s.tick, by simp only [step, hq], by simp⟩
  | cons c l =>
    have hstep : step s = exec c { s with pending := l } := by simp only [step, hq]
    rw [hstep]
    by_cases hc : ∃ n, c = .makerPrivate n
    · obtain ⟨n, rfl⟩ := hc
      by_cases hp : s.privatePermitted
      · exact .inr ⟨exec_makerPrivate_permitted (s := { s with pending := l }) hp n, hp, n, l, rfl⟩
      · exact .inl ⟨_, exec_makerPrivate_bypassed (s := { s with pending := l }) hp n, fun h => hp h.1⟩
    · obtain ⟨t, ht⟩ := exec_answers_next (fun n e => hc ⟨n, e⟩) { s with pending := l }
      exact .inl ⟨t, ht, fun ⟨_, n, _, e⟩ => hc ⟨n, (List.cons.inj e).1⟩⟩

/-- Settles O34: of the two answers of step_cases, one is no stop and the other is the refusal that the statement names. -/
theorem onlyPrivateInstructionsStop : Obligations.OnlyPrivateInstructionsStop := by
  intro s
  rcases step_cases s with ⟨t, ht, hn⟩ | ⟨hr, ⟨hrind, hcode⟩, hfront⟩
  · refine ⟨by simp [ht], fun r => ?_⟩
    rw [ht]
    exact ⟨nofun, fun ⟨_, hrind, hcode, hfront⟩ => absurd ⟨⟨hrind, hcode⟩, hfront⟩ hn⟩
  · refine ⟨by simp [hr], fun r => ?_⟩
    rw [hr]
    exact ⟨fun e => by cases e; exact ⟨rfl, hrind, hcode, hfront⟩, fun ⟨e, _⟩ => by rw [e]⟩

/-! ### The register space (O35) -/

/-- A map with rising keys lists exactly what it reads. -/
theorem mem_iff_mget {V : Type} {m : NMap V} (h : mwf m = true) (a : Nat) (v : V) : (a, v) ∈ m ↔ mget m a = some v := by
  rw [mwf_iff_pairwise] at h
  induction m with
  | nil => simp [mget]
  | cons e m ih =>
    obtain ⟨k, w⟩ := e
    obtain ⟨hk, hm⟩ := List.pairwise_cons.1 h
    simp only [mget, List.mem_cons, Prod.mk.injEq]
    by_cases e : k = a
    · subst e
      have hv : (k, v) ∉ m := fun hv => lt_irrefl k (hk _ hv)
      simp [hv, eq_comm]
    · simp [e, Ne.symm e, ih hm]
/-- Maps with rising keys that list the same entries are the same. -/
theorem mwf_ext {V : Type} {m m' : NMap V} (h : mwf m = true) (h' : mwf m' = true) (e : ∀ x, x ∈ m ↔ x ∈ m') : m = m' := by
  rw [mwf_iff_pairwise] at h h'
  have : Std.Antisymm fun x y : Nat × V => x.1 < y.1 := ⟨fun _ _ hlt hgt => absurd hgt hlt.asymm⟩
  have : Std.Irrefl fun x y : Nat × V => x.1 < y.1 := ⟨fun x => lt_irrefl x.1⟩
  exact h.eq_of_mem_iff h' e
/-- A canonical register space lists a word that is not the Reset column's exactly where the register holds it. -/
theorem mem_regs_iff {s : State} (h : regsOk s.regs = true) (a : Nat) (w : Word) :
    (a, w) ∈ s.regs ↔ s.reg a = w ∧ w ≠ regReset a := by
  simp only [regsOk, Bool.and_eq_true, List.all_eq_true, bne_iff_ne] at h
  obtain ⟨hwf, hne⟩ := h
  rw [mem_iff_mget hwf, State.reg, mgetD]
  cases hg : mget s.regs a with
  | none => simp [eq_comm]
  | some v =>
    have hv : v ≠ regReset a := hne _ ((mem_iff_mget hwf a v).2 hg)
    simp only [Option.some.injEq, Option.getD_some]
    exact ⟨fun e => ⟨e, e ▸ hv⟩, And.left⟩
/-- Canonical register spaces that read the same are the same. -/
theorem regsOk_ext {s t : State} (hs : regsOk s.regs = true) (ht : regsOk t.regs = true) (e : ∀ a, s.reg a = t.reg a) :
    s.regs = t.regs := by
  refine mwf_ext (Bool.and_eq_true_iff.1 hs).1 (Bool.and_eq_true_iff.1 ht).1 fun ⟨a, w⟩ => ?_
  rw [mem_regs_iff hs, mem_regs_iff ht, e a]
/-- A register that is written back to what it held restores the state. -/
theorem State.setReg_restore {s : State} (h : regsOk s.regs = true) (a : Nat) (w : Word) : (s.setReg a w).setReg a (s.reg a) = s := by
  have hregs : ((s.setReg a w).setReg a (s.reg a)).regs = s.regs := by
    refine regsOk_ext (regsOk_mset (regsOk_mset h a w) a _) h fun b => ?_
    by_cases hb : a = b
    · rw [← hb, State.reg_setReg_same]
    · rw [State.reg_setReg_ne _ _ hb, State.reg_setReg_ne _ _ hb]
  calc (s.setReg a w).setReg a (s.reg a)
      = { s with regs := ((s.setReg a w).setReg a (s.reg a)).regs } := rfl
    _ = s := by rw [hregs]
/-- A write of a field changes the word of its register only. -/
theorem State.wr_onlyRegs (s : State) (f : Fld) (n : Nat) : s.onlyRegs [f.addr] (s.wr f n) :=
  ⟨rfl, fun _ ha => s.reg_wr_ne n (Ne.symm (List.ne_of_not_mem_cons ha))⟩
theorem State.rd_wr_disjoint (s : State) {f g : Fld} (n : Nat) (hg : g.lsb + g.width ≤ 64)
    (h : f.addr ≠ g.addr ∨ f.lsb + f.width ≤ g.lsb ∨ g.lsb + g.width ≤ f.lsb) : (s.wr f n).rd g = s.rd g :=
  s.rd_wr_apart n (by simpa [Fld.apart, hg, or_assoc] using h)

/-- Settles O35, from the read-back, the frame and the canonical form of a write. -/
theorem registerFieldsReadBack : Obligations.RegisterFieldsReadBack :=
  fun s _ _ n hf hg => ⟨s.rd_wr_same n hf, s.rd_wr_disjoint n hg, s.wr_onlyRegs _ n,
    fun h => ⟨regsOk_mset h _ _, State.setReg_restore h _ _⟩⟩

/-! ### Numbers and roles of ports (O36, O38) -/

theorem Cell.of_sub_val (c : Cell) (k : Nat) : (Cell.of (c.val - k)).val = c.val - k := Nat.mod_eq_of_lt (by omega)
/-- The anchor in the words of R15: the first cell of the row, the even cell of the pair, or the cell itself. -/
theorem State.anchorOf_eq (s : State) (c : Cell) : s.anchorOf c =
    if s.rd (F.XBAR_STATUS_WIDTH (c.val - c.val % 4)) = 3 then Cell.of (c.val - c.val % 4)
    else if s.rd (F.XBAR_STATUS_WIDTH (c.val - c.val % 2)) = 2 then Cell.of (c.val - c.val % 2)
    else c := by
  rw [State.anchorOf, Nat.div_mul_self_eq_mod_sub_self, Nat.div_mul_self_eq_mod_sub_self]

/-- Settles O36, one width of the port after the other. -/
theorem portsTakeTheNumberOfTheirAnchor : Obligations.PortsTakeTheNumberOfTheirAnchor := by
  intro c s
  refine ⟨fun h16 => ?_, fun h16 h8 => ?_, fun h16 h8 => ?_⟩
  · rw [s.anchorOf_eq, if_pos h16, Cell.of_sub_val]
  · rw [s.anchorOf_eq, if_neg h16, if_pos h8, Cell.of_sub_val]
  · rw [s.anchorOf_eq, if_neg h16, if_neg h8]

/-- Settles O38: the role stands first among the conditions under which PORT_LINK_UP changes nothing. -/
theorem onoraPortsTrainOnlyOnora : Obligations.OnoraPortsTrainOnlyOnora := by
  intro c x s h
  have hnone : ∀ {q : Prop}, s.roleOf c = .idle ∨ s.roleOf c = .onora ∨ q := h.elim (fun e => .inr (.inl e)) .inl
  exact congrArg Host.Outcome.next (if_pos hnone)

end Sys2Proof.Machine

/-! # Module overview: mode requests, mode events, the state after reset, and the start of the module -/

namespace Sys2Proof.Machine
open Host (Outcome)

/-! ### Requests for a mode (O2) -/

/-- What an accepted request for a mode makes of PKG_MODE and PKG_MODE_REQ (R45). -/
theorem State.goMode_of_request {u : State} {m : Mode} {t : Nat} (ht : t < 16) (h : modeOk u.mode m = true) :
    ((u.wr F.PKG_MODE_REQ_LAST_TARGET t).goMode m 0x0E).mode = m ∧
    ((u.wr F.PKG_MODE_REQ_LAST_TARGET t).goMode m 0x0E).rd F.PKG_MODE_CAUSE = 0x0E ∧
    ((u.wr F.PKG_MODE_REQ_LAST_TARGET t).goMode m 0x0E).rd F.PKG_MODE_REQ_LAST_TARGET = t :=
  have h' : modeOk (u.wr F.PKG_MODE_REQ_LAST_TARGET t).mode m = true := h
  ⟨State.goMode_mode h', State.goMode_cause h', u.goMode_lastTarget m 0x0E t ht⟩
theorem State.modeReq_service {u : State} (hm : u.mode = .drowse) (ht : u.rd F.PKG_MODE_REQ_TARGET = 4) :
    u.modeReq = (u.wr F.PKG_MODE_REQ_LAST_TARGET 4).goMode .service 0x0E := by
  simp [State.modeReq, hm, ht]
theorem State.modeReq_drowse {u : State} (hm : u.mode = .service) (ht : u.rd F.PKG_MODE_REQ_TARGET = 5) :
    u.modeReq = (u.wr F.PKG_MODE_REQ_LAST_TARGET 5).goMode .drowse 0x0E := by
  simp [State.modeReq, hm, ht]
theorem State.modeReq_maintenance {u : State} (hm : u.mode = .service) (ht : u.rd F.PKG_MODE_REQ_TARGET = 8)
    (ha : u.rdb F.MGR_LEASE_CFG_MAINT_ALLOWED = true) (hp : u.maintPorts ≠ []) :
    u.modeReq = { (u.wr F.PKG_MODE_REQ_LAST_TARGET 8).goMode .maintenance 0x0E with
      pool.paused := (u.wr F.PKG_MODE_REQ_LAST_TARGET 8).maintPorts } := by
  simp [State.modeReq, hm, ht, ha, hp]
theorem State.modeReq_safeStop {u : State} (h : modeOk u.mode .safeStop = true) (ht : u.rd F.PKG_MODE_REQ_TARGET = 9) :
    u.modeReq = (u.wr F.PKG_MODE_REQ_LAST_TARGET 9).goMode .safeStop 0x0E := by
  cases hm : u.mode with
  | dormant | safeStop | sealedHalt => rw [hm] at h; cases h
  | _ => simp [State.modeReq, hm, ht]
/-- SAFE_STOP is reached from every mode but DORMANT, SAFE_STOP and SEALED_HALT (Table 1-9). -/
theorem modeOk_safeStop {m : Mode} (h1 : m ≠ .dormant) (h2 : m ≠ .safeStop) (h3 : m ≠ .sealedHalt) : modeOk m .safeStop = true := by
  cases m with
  | dormant => exact absurd rfl h1
  | safeStop => exact absurd rfl h2
  | sealedHalt => exact absurd rfl h3
  | _ => rfl
/-- A request of a service processor that GO answers by one move takes that move. -/
theorem State.modeReqWrite_moves {s : State} (hp : s.mgr.pend = []) {t : Nat} {m : Mode} (ht : t < 16) (hok : modeOk s.mode m = true)
    (k : ∀ u : State, u.mode = s.mode → u.rd F.PKG_MODE_REQ_TARGET = t →
      u.modeReq = (u.wr F.PKG_MODE_REQ_LAST_TARGET t).goMode m 0x0E) :
    (s.modeReqWrite .sp t).mode = m ∧ (s.modeReqWrite .sp t).rd F.PKG_MODE_CAUSE = 0x0E ∧
    (s.modeReqWrite .sp t).rd F.PKG_MODE_REQ_LAST_TARGET = t := by
  obtain ⟨u, hu, htarget, hframe⟩ := State.modeReqWrite_sp hp ht
  obtain ⟨hmode, -, -, -⟩ := State.modeReqWrite_frame hframe
  rw [hu, k u hmode htarget]
  exact State.goMode_of_request ht (by rw [hmode]; exact hok)
/-- MAINTENANCE pauses the ports that PKG_MAINT_SET names (R471). -/
theorem State.modeReqWrite_maintenance {s : State} (hp : s.mgr.pend = []) (hm : s.mode = .service)
    (ha : s.rdb F.MGR_LEASE_CFG_MAINT_ALLOWED = true) (hports : s.maintPorts ≠ []) :
    (s.modeReqWrite .sp 8).mode = .maintenance ∧ (s.modeReqWrite .sp 8).pool.paused = s.maintPorts ∧
    (s.modeReqWrite .sp 8).rd F.PKG_MODE_CAUSE = 0x0E ∧ (s.modeReqWrite .sp 8).rd F.PKG_MODE_REQ_LAST_TARGET = 8 := by
  obtain ⟨u, hu, htarget, hframe⟩ := State.modeReqWrite_sp hp (show 8 < 16 by decide)
  obtain ⟨hmode, -, -, hreg⟩ := State.modeReqWrite_frame hframe
  have hroles : u.roles = s.roles := by rcases hframe with rfl | rfl <;> rfl
  have hpaused : (u.wr F.PKG_MODE_REQ_LAST_TARGET 8).maintPorts = s.maintPorts :=
    State.maintPorts_congr (fun a h => (State.reg_wr_ne u 8 (Ne.symm h)).trans (hreg a h)) hroles
  have hallowed : u.rdb F.MGR_LEASE_CFG_MAINT_ALLOWED = true := by
    rw [State.rdb, State.rd_of_reg (hreg _ (by decide))]; exact ha
  rw [hu, State.modeReq_maintenance (hmode.trans hm) htarget hallowed (by rwa [State.maintPorts_congr hreg hroles])]
  obtain ⟨hnext, hcause, hlast⟩ := State.goMode_of_request (u := u) (m := .maintenance) (show 8 < 16 by decide) (by rw [hmode, hm]; rfl)
  exact ⟨hnext, hpaused, (State.rd_mk _ _).trans hcause, (State.rd_mk _ _).trans hlast⟩

/-- Settles O2: each request stores TARGET and starts one move of Table 1-9. -/
theorem modeRequestsComplete : Obligations.ModeRequestsComplete := by
  refine ⟨fun s hp hm => ⟨_, rfl, ?_⟩, fun s hp hm => ⟨_, rfl, ?_⟩, fun s hp hm ha hports => ⟨_, rfl, ?_⟩, fun s hp h1 h2 h3 => ⟨_, rfl, ?_⟩⟩
  · exact State.modeReqWrite_moves hp (by decide) (by rw [hm]; rfl) fun u hu => State.modeReq_service (hu.trans hm)
  · exact State.modeReqWrite_moves hp (by decide) (by rw [hm]; rfl) fun u hu => State.modeReq_drowse (hu.trans hm)
  · exact State.modeReqWrite_maintenance hp hm ha hports
  · have hok := modeOk_safeStop h1 h2 h3
    exact State.modeReqWrite_moves hp (by decide) hok fun u hu => State.modeReq_safeStop (by rw [hu]; exact hok)

/-! ### Events that move the mode (O46) -/

theorem State.onRind_of_rind {s : State} (h : s.pwr.rind = true) (k : State → State) : s.onRind k = k s := if_pos h
/-- A SAFE_STOP that has ended is DORMANT, with the cause of the stop's end in PKG_MODE, which outlives the loss of power (R44). -/
theorem State.goMode_dormant_powerOff_stopGates {s : State} (h : s.mode = .safeStop) :
    (s.goMode .dormant 0x14).powerOff.stopGates.mode = .dormant ∧
    (s.goMode .dormant 0x14).powerOff.stopGates.rd F.PKG_MODE_CAUSE = 0x14 := by
  constructor
  · rw [(State.stopGates_keeps (P := 134217726) rfl (Keeps.refl _)).mode_eq, State.powerOff_mode]
  · rw [State.rd_of_reg (State.stopGates_reg _ (by decide)), State.powerOff_cause, State.goMode_cause (by rw [h]; rfl)]
theorem State.saveLogs_mode (s : State) : s.saveLogs.mode = s.mode := (State.saveLogs_keeps (P := 134217726) rfl (Keeps.refl s)).mode_eq
theorem State.cellsOff_mode (s : State) : s.cellsOff.mode = s.mode := (State.cellsOff_keeps (P := 134217726) rfl (Keeps.refl s)).mode_eq
theorem State.returnSteps_mode (s : State) (b : Burn) : (s.returnSteps b).mode = s.mode :=
  (State.returnSteps_keeps (P := 134217726) rfl (Keeps.refl s) b).mode_eq
theorem State.stopTime_mode (s : State) : (if s.rdb F.RIND_PWR_STATUS_BOTH_LOST then
    s.wr F.RIND_PWR_BUS_LAST_STOP_US (min 0xFFFF ((s.wall - s.pwr.lostAt) / 3000)) else s).mode = s.mode := by
  split <;> rfl
/-- SAFE_STOP_COMPLETE ends in the move to DORMANT from a state that the drain and the logs have left in SAFE_STOP. -/
theorem execSafeStopComplete_eq {s : State} (h : s.mode = .safeStop) :
    ∃ u : State, u.mode = .safeStop ∧ execSafeStopComplete s = .next (u.goMode .dormant 0x14).powerOff.stopGates := by
  unfold execSafeStopComplete
  rw [if_neg (not_not.2 h)]
  refine ⟨_, ?_, rfl⟩
  rw [State.cellsOff_mode, State.stopTime_mode]
  refine (State.saveLogs_mode _).trans ?_
  cases s.img.returning with
  | none => exact h
  | some b => exact (State.returnSteps_mode s b).trans h
theorem execIdlePolicyDrowse_of_quiet {s : State} (hm : s.mode = .service) (he : s.rd F.RIND_SLEEP_CFG_ENTER_MS ≠ 0)
    (hq : min 128 (max 1 (s.rd F.RIND_SLEEP_CFG_ENTER_QUIET)) ≤ ((List.finRange 128).filter (fun (c : Cell) => s.quiet c)).length) :
    execIdlePolicyDrowse s = .next (s.goMode .drowse 0x10) :=
  congrArg Outcome.next (if_pos ⟨hm, he, hq⟩)
theorem execDrowseWakeLimit_of_awake {s : State} (hm : s.mode = .drowse)
    (hw : max 1 (s.rd F.RIND_SLEEP_CFG_AWAKE_LIMIT) < ((List.range 128).filter (fun c => s.domain (3 * c) == 1)).length) :
    execDrowseWakeLimit s = .next (s.goMode .service 0x11) :=
  congrArg Outcome.next (if_pos ⟨hm, hw⟩)
/-- ENABLE_N high ends SEALED_HALT in DORMANT. -/
theorem execEnableNHigh_sealedHalt {s : State} (hr : s.pwr.rind = true) (h : s.mode = .sealedHalt) :
    execEnableNHigh s = .next ((s.wr F.RIND_PWR_STATUS_ENABLE 0).goMode .dormant 0x12).powerOff := by
  simp only [execEnableNHigh, State.onRind_of_rind hr, State.wr_mode, h]
theorem execEnableNHigh_running {s : State} (hr : s.pwr.rind = true) (h : s.mode ≠ .sealedHalt) :
    execEnableNHigh s = .next ((s.wr F.RIND_PWR_STATUS_ENABLE 0).goMode .safeStop 0x12) := by
  simp only [execEnableNHigh, State.onRind_of_rind hr]
  split
  · exact absurd ‹_› h
  · rfl

/-- Settles O46: each event takes one move of Table 1-9, under the condition that the model's command checks. -/
theorem modeEventsComplete : Obligations.ModeEventsComplete := by
  refine ⟨fun s hr => ?_, fun s hm => ?_, fun s hm he hq => ?_, fun s hm hw => ?_⟩
  · by_cases hh : s.mode = .sealedHalt
    · exact ⟨_, execEnableNHigh_sealedHalt hr hh, fun _ => State.powerOff_mode _, fun h => absurd hh h⟩
    · refine ⟨_, execEnableNHigh_running hr hh, fun h => absurd h hh, fun _ hd hs => ?_⟩
      have hok : modeOk (s.wr F.RIND_PWR_STATUS_ENABLE 0).mode .safeStop = true := modeOk_safeStop hd hs hh
      exact ⟨State.goMode_mode hok, State.goMode_cause hok⟩
  · obtain ⟨u, hu, e⟩ := execSafeStopComplete_eq hm
    exact ⟨_, e, State.goMode_dormant_powerOff_stopGates hu⟩
  · have hok : modeOk s.mode .drowse = true := by rw [hm]; rfl
    exact ⟨_, execIdlePolicyDrowse_of_quiet hm he hq, State.goMode_mode hok, State.goMode_cause hok⟩
  · have hok : modeOk s.mode .service = true := by rw [hm]; rfl
    exact ⟨_, execDrowseWakeLimit_of_awake hm hw, State.goMode_mode hok, State.goMode_cause hok⟩

/-! ### The state after reset (O29) -/

/-- No cell's port is wider than one cell before the image gives it a width. -/
theorem reset_width (c : Cell) : State.reset.rd (F.XBAR_STATUS_WIDTH c) < 2 := by
  revert c; decide +kernel
theorem reset_anchorOf (c : Cell) : State.reset.anchorOf c = c := by
  have hwidth : ∀ n, n < 128 → State.reset.rd (F.XBAR_STATUS_WIDTH n) < 2 := fun n h => reset_width ⟨n, h⟩
  have h4 := hwidth (c.val / 4 * 4) (by omega)
  have h2 := hwidth (c.val / 2 * 2) (by omega)
  rw [State.anchorOf, if_neg (by omega), if_neg (by omega)]
/-- The registers that State.reset lists are those whose columns name fuses, pins, feeds and running domains (log 1). -/
theorem reset_reg {a : Nat} (h : a ∉ [0x300, 0x100000, 0x100260, 0x100268, 0x1030000, 0x1730000]) : State.reset.reg a = regReset a := by
  simp only [List.mem_cons, List.not_mem_nil, or_false, not_or] at h
  obtain ⟨h1, h2, h3, h4, h5, h6⟩ := h
  simp [State.reg, State.reset, mgetD, mget, Ne.symm h1, Ne.symm h2, Ne.symm h3, Ne.symm h4, Ne.symm h5, Ne.symm h6]

/-- Settles O29: State.reset lists six registers and no queue, packet, fence, key, lease or extent. -/
theorem stateAfterReset : Obligations.StateAfterReset :=
  ⟨rfl, rfl, rfl, rfl, fun _ => reset_reg, by decide, by decide, by decide, fun _ _ => rfl, rfl, rfl, rfl, rfl, rfl, rfl,
    fun c => ⟨rfl, reset_anchorOf c⟩⟩

/-! ### Start and boot (O1) -/

/-- The parts that an operation leaves where its set names neither the mode nor package time. -/
theorem Keeps.mode_cyc_eq {s t : State} (h : Keeps 134217722 s t) : t.mode = s.mode ∧ t.cyc = s.cyc :=
  ⟨h.frame .mode (by decide), h.frame .cyc (by decide)⟩
/-- Outside MAINTENANCE the loss of a lease moves no mode (R42, R460). -/
theorem State.loseLease_mode {s : State} (h : s.mode ≠ .maintenance) : s.loseLease.mode = s.mode := by
  unfold State.loseLease
  split
  · rfl
  · extract_lets _ u v
    have hv : v.mode = s.mode := (State.dropShadows_keeps (P := 134217726) rfl (State.emptyClose_keeps rfl
      (State.sat_keeps rfl (Keeps.refl u) F.MGR_ACCESS_CNT_LEASE_LOSSES 1)) 3 8).mode_eq
    rw [if_neg (by rw [hv]; exact h), hv]
theorem State.halt_mode {s : State} (h : modeOk s.mode .sealedHalt = true) (cause : Nat) : (s.halt cause).mode = .sealedHalt := by
  have hm := State.goMode_mode (c := cause) h
  rw [State.halt, State.loseLease_mode (by simp [hm]), hm]
theorem State.halt_cyc (s : State) (cause : Nat) : (s.halt cause).cyc = s.cyc :=
  (State.halt_keeps (P := 134217723) rfl (Keeps.refl s) cause).cyc_eq
/-- Leaving DORMANT starts package time again, in IMAGE_LOAD or, where the life-cycle check fails, in SEALED_HALT (R426, R503). -/
theorem State.leaveDormant_mode_cyc (s : State) :
    (s.leaveDormant.mode = .imageLoad ∨ s.leaveDormant.mode = .sealedHalt) ∧ s.leaveDormant.cyc = 0 := by
  unfold State.leaveDormant
  extract_lets min u v
  have hv : v.mode = .imageLoad ∧ v.cyc = 0 :=
    (State.mendFuses_keeps rfl (State.modeDomains_keeps rfl (State.wr_keeps rfl (Keeps.refl u) F.PKG_IMAGE_MIN_SVN min) .dormant)).mode_cyc_eq
  obtain ⟨hmode, hcyc⟩ := hv
  split
  · obtain ⟨hdrawn, hsame⟩ :=
      (State.fresh_keeps rfl (State.fresh_keeps rfl (State.drawNonce_keeps rfl (Keeps.refl v)))).mode_cyc_eq
    exact ⟨.inl (hdrawn.trans hmode), hsame.trans hcyc⟩
  · exact ⟨.inr (State.halt_mode (by rw [hmode]; rfl) _), (State.halt_cyc _ _).trans hcyc⟩
theorem execEnableNLowStart_dormant {s : State} (hr : s.pwr.rind = true) (hm : s.mode = .dormant)
    (hp : s.rdb F.RIND_PWR_STATUS_PWRGD = true) :
    execEnableNLowStart s = .next (s.wr F.RIND_PWR_STATUS_ENABLE 1).leaveDormant := by
  have hgood : (s.wr F.RIND_PWR_STATUS_ENABLE 1).rdb F.RIND_PWR_STATUS_PWRGD = true := by
    rw [State.rdb, State.rd_wr_apart _ _ (by decide)]; exact hp
  rw [execEnableNLowStart, State.onRind_of_rind hr]
  exact congrArg Outcome.next (if_pos ⟨hm, hgood⟩)

theorem State.wr384_mode (s : State) (f : Nat → Fld) (h : BitVec 384) : (s.wr384 f h).mode = s.mode :=
  (State.wr384_keeps (P := 134217726) rfl (Keeps.refl s) f h).mode_eq
theorem State.triedImage_mode (s : State) (dev : Nat) (y : ImgResult) : (s.triedImage dev y).mode = s.mode :=
  (State.triedImage_keeps (P := 134217726) rfl (Keeps.refl s) dev y).mode_eq
theorem State.setEnvelope_mode (s : State) (x : Image) : (s.setEnvelope x).mode = s.mode :=
  (State.setEnvelope_keeps (P := 134217726) rfl (Keeps.refl s) x).mode_eq
/-- The registers of the running image, before the module's tests begin (Tables 15-18, 15-21). -/
def State.showImage (s : State) (x : Image) : State :=
  (((((s.wr F.PKG_IMAGE_SLOT (x.dev + 1)).wr F.PKG_IMAGE_KIND x.kind).wr F.PKG_IMAGE_FW_SVN x.svn).wr384
    F.PKG_IMAGE_DIGEST_DIGEST x.digest).wr384 F.PKG_OWNER_KEY_KEY_HASH x.keyHash)
theorem State.showImage_mode (s : State) (x : Image) : (s.showImage x).mode = s.mode := by
  rw [State.showImage, State.wr384_mode, State.wr384_mode, State.wr_mode, State.wr_mode, State.wr_mode]
theorem State.takeImage_eq (s : State) (x : Image) (cause : Nat) : s.takeImage x cause =
    if x.kind = 2 then (State.setEnvelope { s.showImage x with img.image := some x } x).goMode .returnTest 0x15
    else State.goMode { s.showImage x with img.image := some x } .selfTest cause := rfl
/-- A verified image starts the tests: those of a return for an image of KIND 2 (Table 1-9). -/
theorem State.takeImage_mode {s : State} (h : s.mode = .imageLoad) (x : Image) (cause : Nat) :
    (s.takeImage x cause).mode = .selfTest ∨ (s.takeImage x cause).mode = .returnTest := by
  have hshown : (s.showImage x).mode = .imageLoad := (s.showImage_mode x).trans h
  rw [State.takeImage_eq]
  generalize s.showImage x = u at hshown
  split
  · exact .inr (State.goMode_mode (by rw [State.setEnvelope_mode, hshown]; rfl))
  · exact .inl (State.goMode_mode (by rw [hshown]; rfl))
/-- The image of device A is taken if it passes, else that of device B, else the module halts (R428). -/
theorem execImageLoadComplete_mode {s : State} (hm : s.mode = .imageLoad) (a b : Bool) :
    ∃ t, execImageLoadComplete a b s = .next t ∧ (t.mode = .selfTest ∨ t.mode = .returnTest ∨ t.mode = .sealedHalt) := by
  refine ⟨_, rfl, ?_⟩
  rw [if_neg (not_not.2 hm)]
  extract_lets _ u ra ua rb ub
  have hua : ua.mode = .imageLoad := (State.triedImage_mode u 0 ra).trans hm
  have hub : ub.mode = .imageLoad := (State.triedImage_mode ua 1 rb).trans hua
  split
  · exact (State.takeImage_mode hua _ _).imp id .inl
  · split
    · exact (State.takeImage_mode hub _ _).imp id .inl
    · exact .inr (.inr (State.halt_mode (by rw [hub]; rfl) _))

theorem execImageStaging_clean {s : State} {x : Image} (hx : s.img.image = some x) (hm : s.mode = .selfTest)
    (hd : digestFault (s.norByte x.dev) (imgSects (s.norByte x.dev)) = none) :
    execImageStaging true s = .next { s with img.staged := true } := by
  simp [execImageStaging, hx, hm, hd]

theorem State.beginBringUp_mode {s : State} (h : s.mode = .selfTest) (x : Image) (cause : Nat) :
    (s.beginBringUp x cause).mode = .bringUp := by
  unfold State.beginBringUp
  extract_lets _ u v
  have hv : v.mode = .selfTest :=
    (foldl_keeps (P := 134217726) (Keeps.refl u) fun _ _ h => foldl_keeps h fun _ _ h => State.putMasked_keeps rfl h _ _ _).mode_eq.trans h
  exact State.goMode_mode (by rw [hv]; rfl)
theorem State.beginBringUp_activeSp (s : State) (x : Image) (cause : Nat) : (s.beginBringUp x cause).activeSp = s.activeSp :=
  (State.beginBringUp_keeps (P := 134217695) rfl (Keeps.refl s) x cause).activeSp_eq
/-- The service processors that SELF_TEST has found, where that of die 0 runs. -/
def State.withSp0 (s : State) (sp7 : Bool) : State := { s with spGone := if sp7 then [] else [7], activeSp := some 0 }
/-- Without a failed element, and within the tolerance, SELF_TEST ends in BRING_UP. -/
theorem execSelfTestComplete_clean {s : State} {x : Image} {sp7 : Bool} (hx : s.img.image = some x) (hm : s.mode = .selfTest)
    (hs : s.img.staged = true) (hb : ((s.withSp0 sp7).applyFields x.fields).beyond = false) :
    execSelfTestComplete [] true sp7 s
      = .next ((s.withSp0 sp7).beginBringUp x (if s.scrim.fence = ({} : FenceMap) then 0x06 else 0x07)) := by
  have hnone : (s.withSp0 sp7).fenceAtTest [] = s.withSp0 sp7 := if_pos rfl
  unfold execSelfTestComplete
  rw [hx]
  dsimp only
  rw [if_neg (by simp [hm, hs])]
  change Outcome.next (if (((s.withSp0 sp7).fenceAtTest []).applyFields x.fields).beyond = true then _ else
    ((s.withSp0 sp7).fenceAtTest []).beginBringUp x (if ((s.withSp0 sp7).fenceAtTest []).scrim.fence = ({} : FenceMap) then 0x06 else 0x07)) = _
  rw [hnone, if_neg (by simp [hb])]
  rfl

/-! ### Rennet (O1) -/

/-- A cell of BRING_UP that still takes Rennet's writes (R432). -/
structure State.TakesRennet (s : State) (c : Cell) : Prop where
  mode : s.mode = .bringUp
  open_ : s.img.distributed = false
  unfenced : s.cellFenced c = false
  unmatched : s.img.matched.contains c.val = false
/-- The condition under which RENNET_WRITE and RENNET_CRC_REPORT of a cell change nothing. -/
theorem State.TakesRennet.guard {s : State} {c : Cell} (h : s.TakesRennet c) :
    ¬(s.mode ≠ .bringUp ∨ s.img.distributed = true ∨ s.cellFenced c = true ∨ s.img.matched.contains c.val = true) := by
  obtain ⟨hm, hd, hf, hc⟩ := h
  simp [hm, hd, hf, -List.contains_eq_mem, hc]
/-- The cell's CRC and count take in a write (R432). -/
def State.foldRennet (s : State) (c : Cell) (a : Nat) (value : Word) : State :=
  { s with img.rennet := mset (0xFFFFFFFF, 0) s.img.rennet c.val (crcWrite (s.rennetOf c).1 a value, (s.rennetOf c).2 + 1) }
theorem execRennetWrite_taken {s : State} {c : Cell} (h : s.TakesRennet c) (addr : BitVec 32) (mask value : Word) :
    execRennetWrite c addr mask value s = .next (if ownReg c addr.toNat
      then (s.foldRennet c addr.toNat value).putMasked addr.toNat (mask &&& BitVec.ofNat 64 (imageBits addr.toNat)) value
      else s.foldRennet c addr.toNat value) :=
  congrArg Outcome.next (if_neg h.guard)
theorem State.reg_putMasked_same (s : State) (a : Nat) (mask value : Word) :
    (s.putMasked a mask value).reg (canonAddr a) = (s.reg (canonAddr a) &&& ~~~mask) ||| (value &&& mask) :=
  s.reg_setReg_same _ _
theorem State.reg_putMasked_ne (s : State) {a b : Nat} (mask value : Word) (h : b ≠ canonAddr a) :
    (s.putMasked a mask value).reg b = s.reg b :=
  s.reg_setReg_ne _ (Ne.symm h)
theorem State.portTrain_img (s : State) (a : Cell) : (s.portTrain a).img = s.img :=
  (State.portTrain_keeps (P := 133955583) rfl (Keeps.refl s) a).img_eq
theorem execRennetCrcReport_marks {s : State} {c : Cell} {x : Image} (hx : s.img.image = some x) (h : s.TakesRennet c)
    (hr : s.img.rewritten.contains c.val = false) :
    ∃ t, execRennetCrcReport c s = .next t ∧ (t.img.matched.contains c.val = true ∨ t.img.rewritten.contains c.val = true) := by
  refine ⟨_, rfl, ?_⟩
  rw [hx]
  dsimp only
  rw [if_neg h.guard, hr]
  split
  · left
    split
    · rw [State.portTrain_img]
      exact List.contains_iff_mem.2 (List.mem_cons_self ..)
    · exact List.contains_iff_mem.2 (List.mem_cons_self ..)
  · right
    exact List.contains_iff_mem.2 (List.mem_cons_self ..)

theorem State.defineWith_fencedUp (s : State) (i t : Nat) (m : Tmpl) (k : Nat) :
    (s.defineWith i t m k).img.fencedUp = s.img.fencedUp := by
  simp only [State.defineWith, State.setOwner, State.wr_img]
/-- The section INSTANCES brings key slots, templates, groups, extents and notes, and marks no fence (R432). -/
theorem State.setInsts_fencedUp (s : State) (l : List ImgInst) : (s.setInsts l).img.fencedUp = s.img.fencedUp := by
  unfold State.setInsts
  refine List.foldlRecOn (motive := fun t : State => t.img.fencedUp = s.img.fencedUp) l _ rfl fun t ht y _ => ?_
  dsimp only
  split
  · next m k u _ halloc =>
    have hu : u.img = t.img := (State.allocSlot_keeps_eq (P := 133955583) rfl halloc (Keeps.refl t)).img_eq
    have hrest := State.settleNotes_keeps (P := 133955583) rfl (foldl_keeps (l := y.exts) (f := fun (s : State) e => s.assignExt y.inst e)
      (ite_keeps (c := y.grouped = true) (fun _ => State.joinGroup_keeps rfl (Keeps.refl (u.defineWith y.inst y.template m k)) y.inst y.group)
        fun _ => Keeps.refl (u.defineWith y.inst y.template m k)) fun _ _ h => State.assignExt_keeps rfl h _ _)
    calc _ = (u.defineWith y.inst y.template m k).img.fencedUp := congrArg ImgSt.fencedUp hrest.img_eq
      _ = t.img.fencedUp := (u.defineWith_fencedUp _ _ _ _).trans (congrArg ImgSt.fencedUp hu)
      _ = s.img.fencedUp := ht
  · exact ht
theorem State.applySections_fencedUp (s : State) (x : Image) : (s.applySections x).img.fencedUp = s.img.fencedUp := by
  unfold State.applySections
  extract_lets _ u
  have hmaps := (State.setCaps_keeps (P := 133955583) rfl (State.setHomeMap_keeps rfl (Keeps.refl u)) x.caps).img_eq
  have hends := fun v : State => (State.freshPools_keeps (P := 133955583) rfl (State.setImgRegions_keeps rfl (Keeps.refl v) x.regions)).img_eq
  rw [hends, State.setInsts_fencedUp, hmaps]
/-- The module as the image and Rennet have set it up, before its mode moves (R432). -/
def State.distribute (s : State) (x : Image) : State := (s.applySections x).homesAround.setEnvelope x
/-- Distribution moves no mode, and no fence is made or forgotten by it. -/
theorem State.distribute_frame (s : State) (x : Image) :
    (s.distribute x).mode = s.mode ∧ (s.distribute x).scrim = s.scrim ∧ (s.distribute x).img.fencedUp = s.img.fencedUp := by
  -- the set of all parts but the mode and Scrim
  have hall : Keeps 134217214 s (s.distribute x) :=
    State.setEnvelope_keeps rfl (State.homesAround_keeps rfl (State.applySections_keeps rfl (Keeps.refl s) x)) x
  have himg := (State.setEnvelope_keeps (P := 133955583) rfl (State.homesAround_keeps rfl (Keeps.refl (s.applySections x))) x).img_eq
  exact ⟨hall.frame .mode (by decide), hall.frame .scrim (by decide), (congrArg ImgSt.fencedUp himg).trans (s.applySections_fencedUp x)⟩
/-- The end of distribution, with the time it took. -/
def State.noteDistributed (s : State) : State :=
  State.wr { s with img.distributed := true } F.PKG_RENNET_DURATION_US ((s.cyc - s.img.bringAt) / 3000)
/-- An element is fenced, is being fenced, or was fenced before the module ran (R41). -/
def State.fenceKnown (s : State) : Bool :=
  s.img.fencedUp || s.scrim.fence != ({} : FenceMap) || s.scrim.epochOpen || !s.scrim.notes.isEmpty
theorem State.noteDistributed_mode (s : State) : s.noteDistributed.mode = s.mode := rfl
theorem State.noteDistributed_distributed (s : State) : s.noteDistributed.img.distributed = true := rfl
theorem State.noteDistributed_fenceKnown (s : State) : s.noteDistributed.fenceKnown = s.fenceKnown := rfl
theorem State.goMode_distributed (s : State) (m : Mode) (cause : Nat) : (s.goMode m cause).img.distributed = s.img.distributed :=
  congrArg ImgSt.distributed (State.goMode_keeps (P := 133955583) rfl (Keeps.refl s) m cause).img_eq
/-- With nothing fenced, no tolerance is exceeded. -/
theorem State.beyond_of_no_fence {s : State} (h : s.scrim.fence = ({} : FenceMap)) : s.beyond = false := by
  simp [State.beyond, h]
/-- Rennet's distribution ends, without a fence, in SERVICE (R41). -/
theorem execRennetDistributionComplete_unfenced {s : State} {x : Image} (hx : s.img.image = some x) (hm : s.mode = .bringUp)
    (hd : s.img.distributed = false) (he : s.scrim.epochOpen = false)
    (hall : (List.finRange 128).all (fun (c : Cell) => s.cellFenced c || s.img.matched.contains c.val) = true)
    (hup : s.img.fencedUp = false) (hf : s.scrim.fence = {}) (hn : s.scrim.notes = []) :
    execRennetDistributionComplete s = .next ((s.distribute x).noteDistributed.goMode .service 0x09) := by
  obtain ⟨-, hscrim, hfenced⟩ := s.distribute_frame x
  unfold execRennetDistributionComplete
  rw [hx]
  dsimp only
  rw [if_neg (by rw [hall, hm, hd]; decide), if_neg (by rw [State.beyond_of_no_fence (by simp [hn, hf])]; decide)]
  have hknown : (s.distribute x).noteDistributed.fenceKnown = false := by
    rw [State.noteDistributed_fenceKnown, State.fenceKnown, hscrim, hfenced, hup, hf, he, hn]
    decide
  change Outcome.next ((s.distribute x).noteDistributed.goMode
    (if (s.distribute x).noteDistributed.fenceKnown = true then .degraded else .service) 0x09) = _
  rw [hknown]
  rfl

/-! ### Rebuild (O1) -/

/-- REBUILD is entered from SERVICE, DEGRADED and, through SERVICE, from DROWSE (Table 1-9). -/
theorem State.toRebuild_mode_cause {s : State} (h : s.mode = .service ∨ s.mode = .degraded ∨ s.mode = .drowse) :
    s.toRebuild.mode = .rebuild ∧ s.toRebuild.rd F.PKG_MODE_CAUSE = 0x0B := by
  have hmove : ∀ u : State, modeOk u.mode .rebuild = true →
      (u.goMode .rebuild 0x0B).mode = .rebuild ∧ (u.goMode .rebuild 0x0B).rd F.PKG_MODE_CAUSE = 0x0B :=
    fun u hu => ⟨State.goMode_mode hu, State.goMode_cause hu⟩
  unfold State.toRebuild
  rcases h with h | h | h
  · simp only [h]
    exact hmove s (by rw [h]; rfl)
  · simp only [h]
    exact hmove s (by rw [h]; rfl)
  · simp only [h]
    exact hmove _ (by rw [State.goMode_mode (by rw [h]; rfl)]; rfl)
/-- The run that copies the primary quarter of stack k's partner begins with its first block (R213). -/
def State.beginRebuild (s : State) (k : Stack) : State :=
  let d := stackDie k
  let x := partnerDie d
  let s := ((s.wr (F.DIR_REBUILD_STATUS_ACTIVE d) 1).wr (F.DIR_REBUILD_STATUS_QUARTER d) (s.rd (F.DIR_STACK_STATUS_PRI_Q x))).wrb
    (F.DIR_REBUILD_STATUS_TARGET d) false
  let s := ((s.wr (F.DIR_REBUILD_STATUS_TOTAL d) resilverBlocks).wr (F.DIR_REBUILD_STATUS_CURSOR d) 0).wr (F.DIR_REBUILD_STATUS_RESULT d) 0
  (s.wr (F.DIR_STACK_STATUS_PRI_STATE x) 2).sendBlock d
theorem State.beginRebuild_mode (s : State) (k : Stack) : (s.beginRebuild k).mode = s.mode := by
  refine Keeps.mode_eq (State.sendBlock_keeps rfl (State.wr_keeps rfl ?_ _ _) _)
  exact State.wr_keeps rfl (State.wr_keeps rfl (State.wr_keeps rfl (State.wrb_keeps rfl (State.wr_keeps rfl
    (State.wr_keeps rfl (Keeps.refl s) _ _) _ _) _ _) _ _) _ _) _ _
theorem execRebuildStart_primary {s : State} {k : Stack} (hk : s.stackFenced k = false)
    (hx : s.stackFenced (dieStack (partnerDie (stackDie k))) = false) (hlost : s.rd (F.DIR_STACK_STATUS_PRI_STATE (partnerDie (stackDie k))) = 3)
    (hfree : s.rd (F.DIR_REBUILD_STATUS_ACTIVE (stackDie k)) = 0) (he : s.scrim.epochOpen = false)
    (hm : s.mode = .service ∨ s.mode = .degraded ∨ s.mode = .drowse) :
    execRebuildStart k false s = .next (s.beginRebuild k).toRebuild := by
  have hidle : s.rdb (F.DIR_REBUILD_STATUS_ACTIVE (stackDie k)) = false := by rw [State.rdb, hfree]; rfl
  have hruns : s.mode = .service ∨ s.mode = .drowse ∨ s.mode = .degraded ∨ s.mode = .rebuild := by tauto
  unfold execRebuildStart State.beginRebuild
  simp [hk, hx, hlost, hidle, he, hruns]

/-! ### The eight commands together (O1) -/

/-- Settles O1: each command's rule is the lemma on its exec named here. -/
theorem bootCommandsComplete : Obligations.BootCommandsComplete := by
  refine ⟨fun s hr hm hp => ⟨_, execEnableNLowStart_dormant hr hm hp, State.leaveDormant_mode_cyc _⟩,
    fun a b s hm => execImageLoadComplete_mode hm a b,
    fun s x hx hm hd => execImageStaging_clean hx hm hd,
    fun s x sp7 hx hm hs hb => ?selfTest,
    fun c addr mask value s hm hd hf hc => ?rennetWrite,
    fun c s x hx hm hd hf hc hr => execRennetCrcReport_marks hx ⟨hm, hd, hf, hc⟩ hr,
    fun s x hx hm hd he hall hup hf hn => ?distribution,
    fun k s hk hx hlost hfree he hm => ?rebuild⟩
  case selfTest =>
    exact ⟨_, execSelfTestComplete_clean hx hm hs hb, State.beginBringUp_mode (s := s.withSp0 sp7) hm _ _,
      State.beginBringUp_activeSp (s.withSp0 sp7) _ _⟩
  case rennetWrite =>
    refine ⟨_, execRennetWrite_taken ⟨hm, hd, hf, hc⟩ addr mask value, ?_⟩
    cases hown : ownReg c addr.toNat with
    | true => exact ⟨rfl, fun _ => State.reg_putMasked_same _ _ _ _, nofun, fun b hb => State.reg_putMasked_ne _ _ _ hb⟩
    | false => exact ⟨rfl, nofun, fun _ => rfl, fun _ _ => rfl⟩
  case distribution =>
    have hbring : (s.distribute x).noteDistributed.mode = .bringUp := by
      rw [State.noteDistributed_mode, (s.distribute_frame x).1, hm]
    have hok : modeOk (s.distribute x).noteDistributed.mode .service = true := by rw [hbring]; rfl
    exact ⟨_, execRennetDistributionComplete_unfenced hx hm hd he hall hup hf hn, State.goMode_mode hok,
      (State.goMode_distributed _ _ _).trans (State.noteDistributed_distributed _), State.goMode_cause hok⟩
  case rebuild =>
    exact ⟨_, execRebuildStart_primary hk hx hlost hfree he hm, State.toRebuild_mode_cause (by rwa [State.beginRebuild_mode])⟩

end Sys2Proof.Machine

/-! # Cells and Scrim: routes around a single fault, the events of the fabric, fence epochs and return to service -/

namespace Sys2Proof.Machine
open Host (Outcome)

/-! ### Routes around one fenced link or die (O39) -/

theorem cellX_lt (c : Nat) : cellX c < 16 := by unfold cellX; omega
theorem cellY_lt (c : Cell) : cellY c.val < 8 := by unfold cellY; omega
/-- The die of a cell from its place: four dies to a row, each of four columns and four rows (R28). -/
theorem die_of_place (c : Nat) : c / 16 = cellY c / 4 * 4 + cellX c / 4 := by unfold cellX cellY; omega
theorem cellX_cellAt {x y : Nat} (hx : x < 16) : cellX (cellAt x y) = x := by unfold cellX cellAt; omega
theorem cellY_cellAt {x y : Nat} (hx : x < 16) : cellY (cellAt x y) = y := by unfold cellY cellAt; omega
theorem cellAt_div (x y : Nat) : cellAt x y / 16 = y / 4 * 4 + x / 4 := by unfold cellAt; omega
theorem cellAt_lt {x y : Nat} (hx : x < 16) (hy : y < 8) : cellAt x y < 128 := by unfold cellAt; omega
/-- Every place of the mesh has its cell. -/
theorem exists_cell_at {x y : Nat} (hx : x < 16) (hy : y < 8) : ∃ w : Cell, cellX w.val = x ∧ cellY w.val = y :=
  ⟨⟨cellAt x y, cellAt_lt hx hy⟩, cellX_cellAt hx, cellY_cellAt hx⟩

theorem mem_span {a b i : Nat} : i ∈ span a b ↔ min a b ≤ i ∧ i ≤ max a b := by
  simp only [span, List.mem_map, List.mem_range]
  exact ⟨by rintro ⟨k, hk, rfl⟩; omega, fun h => ⟨i - min a b, by omega, by omega⟩⟩
/-- The links passed from a to b, by the lower of their ends. -/
theorem mem_span_dropLast {a b i : Nat} : i ∈ (span a b).dropLast ↔ min a b ≤ i ∧ i < max a b := by
  simp only [span, List.range_succ, List.map_append, List.map_cons, List.map_nil, List.dropLast_concat, List.mem_map, List.mem_range]
  exact ⟨by rintro ⟨k, hk, rfl⟩; omega, fun h => ⟨i - min a b, by omega, by omega⟩⟩
theorem mem_xyLinks {s d n : Nat} : n ∈ xyLinks s d ↔
    (∃ i, (min (cellX s) (cellX d) ≤ i ∧ i < max (cellX s) (cellX d)) ∧ hLink i (cellY s) = n) ∨
    (∃ j, (min (cellY s) (cellY d) ≤ j ∧ j < max (cellY s) (cellY d)) ∧ vLink (cellX d) j = n) := by
  simp only [xyLinks, List.mem_append, List.mem_map, mem_span_dropLast]
theorem mem_xyDies {s d k : Nat} : k ∈ xyDies s d ↔
    (∃ i, (min (cellX s) (cellX d) ≤ i ∧ i ≤ max (cellX s) (cellX d)) ∧ cellAt i (cellY s) / 16 = k) ∨
    (∃ j, (min (cellY s) (cellY d) ≤ j ∧ j ≤ max (cellY s) (cellY d)) ∧ cellAt (cellX d) j / 16 = k) := by
  simp only [xyDies, List.mem_append, List.mem_map, mem_span]

theorem xyClear_link_iff {n s d : Nat} : xyClear { links := [n] } s d = true ↔ n ∉ xyLinks s d := by
  simp [xyClear, List.forall_mem_ne']
theorem xyClear_die_iff {k s d : Nat} : xyClear { dies := [k] } s d = true ↔ k ∉ xyDies s d := by
  simp [xyClear, List.forall_mem_ne']

/-- A link between two columns is not on a path that starts in another row, or that stays in its column. -/
theorem xyClear_of_horizontal {n : Nat} (hn : n < 120) {s d : Nat} (h : cellY s ≠ n / 15 ∨ cellX s = cellX d) :
    xyClear { links := [n] } s d = true := by
  have hs := cellX_lt s
  have hd := cellX_lt d
  rw [xyClear_link_iff, mem_xyLinks]
  rintro (⟨i, hi, rfl⟩ | ⟨j, -, rfl⟩)
  · unfold hLink at h; omega
  · unfold vLink at hn; omega
/-- A link between two rows is not on a path that ends in another column, or that stays in its row. -/
theorem xyClear_of_vertical {n : Nat} (hn : 120 ≤ n) {s d : Cell} (h : cellX d.val ≠ (n - 120) / 7 ∨ cellY s.val = cellY d.val) :
    xyClear { links := [n] } s.val d.val = true := by
  have hs := cellY_lt s
  have hd := cellY_lt d
  have hx := cellX_lt s.val
  have hx' := cellX_lt d.val
  rw [xyClear_link_iff, mem_xyLinks]
  rintro (⟨i, hi, rfl⟩ | ⟨j, hj, rfl⟩)
  · unfold hLink at hn; omega
  · unfold vLink at h; omega
/-- A path that starts in the other row of dies meets a die only where it ends. -/
theorem xyClear_of_other_dieRow {k : Nat} {s d : Cell} (hs : cellY s.val / 4 ≠ k / 4) (hd : d.val / 16 ≠ k) (hk : k < 8) :
    xyClear { dies := [k] } s.val d.val = true := by
  have hsy := cellY_lt s
  have hdy := cellY_lt d
  have hsx := cellX_lt s.val
  have hdx := cellX_lt d.val
  rw [die_of_place] at hd
  rw [xyClear_die_iff, mem_xyDies]
  rintro (⟨i, hi, e⟩ | ⟨j, hj, e⟩)
  · rw [cellAt_div] at e; omega
  · rw [cellAt_div] at e; omega
/-- A path within one column of cells meets no die of another column of dies. -/
theorem xyClear_of_other_dieColumn {k : Nat} {s d : Nat} (hx : cellX s = cellX d) (hs : cellX s / 4 ≠ k % 4) :
    xyClear { dies := [k] } s d = true := by
  have hd := cellX_lt d
  rw [xyClear_die_iff, mem_xyDies]
  rintro (⟨i, hi, e⟩ | ⟨j, -, e⟩)
  · rw [cellAt_div] at e; omega
  · rw [cellAt_div] at e; omega

theorem foldl_ne_none {α β : Type} {f : Option β → α → Option β} (hf : ∀ o x, f o x ≠ none) {l : List α} (hl : l ≠ []) (o : Option β) :
    l.foldl f o ≠ none := by
  induction l generalizing o with
  | nil => exact absurd rfl hl
  | cons x l ih =>
    cases l with
    | nil => exact hf o x
    | cons y l => exact ih (List.cons_ne_nil y l) (f o x)
/-- A destination in service is reached over any waypoint in service between two clear paths (R60). -/
theorem route_ne_unreachable {m : FenceMap} {s d : Nat} (w : Cell) (hd : d / 16 ∉ m.dies) (hw : w.val / 16 ∉ m.dies)
    (hsw : xyClear m s w.val = true) (hwd : xyClear m w.val d = true) : route m s d ≠ .unreachable := by
  unfold route
  rw [if_neg (by simpa using hd)]
  split
  · exact nofun
  · extract_lets ok
    have hok : ok ≠ [] := List.ne_nil_of_mem (a := w.val) (by simp [ok, hw, hsw, hwd])
    split
    · exact nofun
    · next hnone =>
      refine absurd hnone (foldl_ne_none (fun o x => ?_) hok none)
      dsimp only
      split
      · split <;> exact nofun
      · exact nofun
theorem route_of_xyClear {m : FenceMap} {s d : Nat} (hd : d / 16 ∉ m.dies) (h : xyClear m s d = true) : route m s d = .direct := by
  rw [route, if_neg (by simpa using hd), if_pos h]

/-- Around a link between two columns the waypoint stands in the source's column, in another row. -/
theorem route_around_horizontal {n : Nat} (hn : n < 120) (s d : Cell) : route { links := [n] } s.val d.val ≠ .unreachable := by
  have hnot : ∀ c : Nat, c / 16 ∉ ({ links := [n] } : FenceMap).dies := fun _ => List.not_mem_nil
  obtain ⟨w, hx, hy⟩ := exists_cell_at (cellX_lt s.val) (y := (n / 15 + 1) % 8) (by omega)
  exact route_ne_unreachable w (hnot _) (hnot _) (xyClear_of_horizontal hn (.inr hx.symm)) (xyClear_of_horizontal hn (.inl (by omega)))
/-- Around a link between two rows the waypoint stands in the destination's row, in another column. -/
theorem route_around_vertical {n : Nat} (hn : 120 ≤ n) (s d : Cell) : route { links := [n] } s.val d.val ≠ .unreachable := by
  have hnot : ∀ c : Nat, c / 16 ∉ ({ links := [n] } : FenceMap).dies := fun _ => List.not_mem_nil
  obtain ⟨w, hx, hy⟩ := exists_cell_at (x := ((n - 120) / 7 + 1) % 16) (by omega) (cellY_lt d)
  exact route_ne_unreachable w (hnot _) (hnot _) (xyClear_of_vertical hn (.inl (by omega))) (xyClear_of_vertical hn (.inr hy))
/-- Around a die in the source's row of dies the waypoint stands in the source's column, in the other row of dies. -/
theorem route_around_die (k : Die) {s d : Cell} (hs : s.val / 16 ≠ k.val) (hd : d.val / 16 ≠ k.val) :
    route { dies := [k.val] } s.val d.val ≠ .unreachable := by
  have hnot : ∀ {c : Nat}, c / 16 ≠ k.val → c / 16 ∉ ({ dies := [k.val] } : FenceMap).dies := fun h => by simpa using h
  by_cases hrow : cellY s.val / 4 = k.val / 4
  · have hcol : cellX s.val / 4 ≠ k.val % 4 := by rw [die_of_place] at hs; have := cellX_lt s.val; omega
    obtain ⟨w, hx, hy⟩ := exists_cell_at (cellX_lt s.val) (y := (k.val / 4 * 4 + 4) % 8) (by omega)
    have hw : cellY w.val / 4 ≠ k.val / 4 := by omega
    have hwk : w.val / 16 ≠ k.val := by rw [die_of_place]; have := cellX_lt w.val; omega
    exact route_ne_unreachable w (hnot hd) (hnot hwk) (xyClear_of_other_dieColumn hx.symm hcol) (xyClear_of_other_dieRow hw hd k.isLt)
  · rw [route_of_xyClear (hnot hd) (xyClear_of_other_dieRow hrow hd k.isLt)]
    exact nofun

/-- Settles O39: a waypoint beside the failed link, or in the other row of dies, takes every pair around a single fault. -/
theorem singleFaultsLeaveEveryPairARoute : Obligations.SingleFaultsLeaveEveryPairARoute := by
  refine ⟨fun l s d => ?_, fun x s d hs hd => route_around_die x hs hd⟩
  rcases Nat.lt_or_ge l.val 120 with h | h
  · exact route_around_horizontal h s d
  · exact route_around_vertical h s d

/-! ### Units at a router (O3) -/

/-- With nothing absorbed outside an epoch there is nothing to issue again. -/
theorem State.settleLost_of_nil {s : State} (h : s.spill.lost = []) : s.settleLost = s := by
  unfold State.settleLost
  split
  · rfl
  · rw [h]
    exact congrArg (fun l => ({ s with spill.lost := l } : State)) h.symm
theorem State.takeUnit_spineOff {s : State} {c : Cell} (h : s.spineOn c = false) (d : Dir) (p : Pkt) (u : Nat) (ecc : Ecc) (hcrc vc : Bool) :
    s.takeUnit c d p u ecc hcrc vc = s := by
  simp [State.takeUnit, h]
/-- While an input rejects, a valid slot only shows that its link is alive (R54, R65). -/
theorem State.takeUnit_rejecting {s : State} {c : Cell} {d : Dir} {ecc : Ecc} (h : s.spineOn c = true)
    (hr : s.scrim.rejecting.contains (c.val * 5 + d.num) = true) (he : ecc ≠ .uncorrectable) (p : Pkt) (u : Nat) (hcrc vc : Bool) :
    s.takeUnit c d p u ecc hcrc vc = { s with scrim.seen := mput s.scrim.seen (c.val * 5 + d.num) s.cyc } := by
  unfold State.takeUnit
  simp only [h, he, decide_false, Bool.not_true, Bool.false_eq_true, if_false, hr, if_true]
theorem State.takeUnit_clean {s : State} {c : Cell} {d : Dir} {p : Pkt} (h : s.spineOn c = true)
    (hr : s.scrim.rejecting.contains (c.val * 5 + d.num) = false) (hp : p.opc.vc ≠ 7) (u : Nat) :
    s.takeUnit c d p u .clean true true = State.goodUnit { s with scrim.seen := mput s.scrim.seen (c.val * 5 + d.num) s.cyc } c d p u := by
  unfold State.takeUnit
  simp [h, hr, hp, -List.contains_eq_mem]
/-- An internal link rejects what it cannot correct, and counts the replay that it requests (R53, R54). -/
theorem State.takeUnit_uncorrectable {s : State} {c : Cell} {d : Dir} (h : s.spineOn c = true)
    (hr : s.scrim.rejecting.contains (c.val * 5 + d.num) = false) (hd : edgeOf c.val d = none) (p : Pkt) (u : Nat) (hcrc vc : Bool) :
    s.takeUnit c d p u .uncorrectable hcrc vc = State.sat { s.rejected c d p u with
      scrim.rejecting := (c.val * 5 + d.num) :: (s.rejected c d p u).scrim.rejecting } (F.SCRIM_LINK_ERR_REPLAYS c) := by
  unfold State.takeUnit State.badUnit
  simp [h, hr, hd, -List.contains_eq_mem]
theorem execScrimUnitReceive_uncorrectable {s : State} {c : Cell} {d : Dir} (h : s.spineOn c = true)
    (hr : s.scrim.rejecting.contains (c.val * 5 + d.num) = false) (hd : edgeOf c.val d = none) (hl : s.spill.lost = [])
    (p : Pkt) (u : Fin 65) (hcrc vc : Bool) : ∃ t, execScrimUnitReceive c d p u .uncorrectable hcrc vc s = .next t ∧
      t.scrim.rejecting.contains (c.val * 5 + d.num) = true ∧
      t.rd (F.SCRIM_LINK_ERR_REPLAYS c) = min (2 ^ (F.SCRIM_LINK_ERR_REPLAYS c).width - 1) (s.rd (F.SCRIM_LINK_ERR_REPLAYS c) + 1) := by
  have hkeep : Keeps 512 s (s.rejected c d p u) := State.rejected_keeps rfl (Keeps.refl s) c d p u
  have hlost : (s.rejected c d p u).spill = s.spill := hkeep.frame .spill (by decide)
  have hregs : (s.rejected c d p u).regs = s.regs := (hkeep.frame .regs (by decide)).1
  refine ⟨_, rfl, ?_⟩
  rw [State.takeUnit_uncorrectable h hr hd, State.settleLost_of_nil (by rw [State.sat_spill]; exact (congrArg SpillSt.lost hlost).trans hl)]
  refine ⟨by simp, ?_⟩
  rw [State.rd_sat _ _ (show 16 + 16 ≤ 64 by decide), State.rd_congr (s := s) (by exact hregs)]

/-! ### Replays and heartbeats (O3) -/

theorem execScrimReplayRequest_seam {c : Cell} {d : Dir} (h : (edgeOf c.val d).isSome = true) (again : Bool) (s : State) :
    execScrimReplayRequest c d again s = .next s := congrArg Outcome.next (if_pos h)
/-- A replay in good order ends the count of its failures, and the far input takes flits again (R54). -/
theorem execScrimReplayRequest_first {c : Cell} {d : Dir} {m : Nat} (hm : neighbour c.val d = some m) (hd : edgeOf c.val d = none) (s : State) :
    execScrimReplayRequest c d false s = .next { s with
      scrim.replayFails := mset 0 s.scrim.replayFails (c.val * 5 + d.num) 0
      scrim.rejecting := s.scrim.rejecting.filter (· != m * 5 + d.opp.num) } := by
  simp [execScrimReplayRequest, hd, hm]
theorem execHeartbeatSend_on {s : State} {c : Cell} {d : Dir} {m : Nat} (hm : neighbour c.val d = some m) (h : s.spineOn c = true) :
    execHeartbeatSend c d s = .next { s with scrim.seen := mput s.scrim.seen (m * 5 + d.opp.num) s.cyc } := by
  simp [execHeartbeatSend, hm, h]

/-! ### Candidates for fencing (O3, O4) -/

theorem State.note_notes (s : State) (e : Elem) : (s.note e).scrim.notes.contains e = true := by
  unfold State.note
  split
  · assumption
  · simp
/-- A failed element is noted for the leader (R65, R67). -/
theorem State.failElem_notes (s : State) (e : Elem) (cell : Option Cell) (cause detail : Nat) :
    (s.failElem e cell cause detail).scrim.notes.contains e = true := State.note_notes _ e
theorem State.declareDead_notes {s : State} {c : Cell} {d : Dir} {n : Nat} (h : s.outDead c d = false) (hn : linkOf c.val d = some n)
    (cause : Nat) : (s.declareDead c d cause).scrim.notes.contains (.link (Fin.ofNat 232 n)) = true := by
  unfold State.declareDead
  rw [if_neg (by simp [h]), hn]
  exact State.failElem_notes _ _ _ _ _
/-- A link that is already noted stays noted when its other end dies. -/
theorem State.declareDead_notes_of_noted {s : State} {c : Cell} {d : Dir} {n : Nat}
    (h : s.scrim.notes.contains (.link (Fin.ofNat 232 n)) = true) (hn : linkOf c.val d = some n) (cause : Nat) :
    (s.declareDead c d cause).scrim.notes.contains (.link (Fin.ofNat 232 n)) = true := by
  cases hd : s.outDead c d with
  | true => rw [State.declareDead, if_pos hd]; exact h
  | false => exact State.declareDead_notes hd hn cause
theorem execHeartbeatTimeout_silent {s : State} {c : Cell} {d : Dir} {n : Nat} (hn : linkOf c.val d = some n) (h : s.spineOn c = true)
    (hs : s.silent c d = true) : execHeartbeatTimeout c d s = .next (s.declareDead c d 0x0002) := by
  have hloc : d ≠ .loc := by rintro rfl; cases hn
  simp [execHeartbeatTimeout, h, hs, hloc, hn]

/-- The sides on which a link leaves its two ends. -/
def linkSides (n : Nat) : Dir × Dir := (if n < 120 then .east else .south, if n < 120 then .west else .north)
theorem linkEnds_lt (n : MeshLink) : (linkEnds n.val).1 < 128 ∧ (linkEnds n.val).2 < 128 := by
  unfold linkEnds
  split
  · exact ⟨cellAt_lt (by omega) (by omega), cellAt_lt (by omega) (by omega)⟩
  · exact ⟨cellAt_lt (by omega) (by omega), cellAt_lt (by omega) (by omega)⟩
/-- A link stands on the east and west, or south and north, sides of the two cells that it joins (R49). -/
theorem linkOf_linkEnds (n : MeshLink) : linkOf (linkEnds n.val).1 (linkSides n.val).1 = some n.val ∧
    linkOf (linkEnds n.val).2 (linkSides n.val).2 = some n.val := by
  have hn := n.isLt
  unfold linkEnds linkSides
  by_cases h : n.val < 120 <;> simp only [h, if_true, if_false, linkOf, hLink, vLink]
  · rw [cellX_cellAt (by omega), cellX_cellAt (by omega), cellY_cellAt (by omega), cellY_cellAt (by omega), if_neg (by omega), if_neg (by omega)]
    exact ⟨congrArg some (by omega), congrArg some (by omega)⟩
  · rw [cellX_cellAt (by omega), cellX_cellAt (by omega), cellY_cellAt (by omega), cellY_cellAt (by omega), if_neg (by omega), if_neg (by omega)]
    exact ⟨congrArg some (by omega), congrArg some (by omega)⟩
theorem execUcieLinkDown_seam {n : MeshLink} (h : seamLink n.val = true) (s : State) : execUcieLinkDown n s =
    .next ((s.declareDead (Cell.of (linkEnds n.val).1) (linkSides n.val).1 0x0003).declareDead
      (Cell.of (linkEnds n.val).2) (linkSides n.val).2 0x0003) := by
  by_cases hn : n.val < 120
  · simp [execUcieLinkDown, linkSides, h, hn]
  · simp [execUcieLinkDown, linkSides, h, hn]
theorem execUcieLinkDown_notes {s : State} {n : MeshLink} (h : seamLink n.val = true)
    (hd : s.outDead (Cell.of (linkEnds n.val).1) (linkSides n.val).1 = false) :
    ∃ t, execUcieLinkDown n s = .next t ∧ t.scrim.notes.contains (.link n) = true := by
  obtain ⟨ha, hb⟩ := linkEnds_lt n
  obtain ⟨hsa, hsb⟩ := linkOf_linkEnds n
  have hea : (Cell.of (linkEnds n.val).1).val = (linkEnds n.val).1 := Nat.mod_eq_of_lt ha
  have heb : (Cell.of (linkEnds n.val).2).val = (linkEnds n.val).2 := Nat.mod_eq_of_lt hb
  have hnoted := State.declareDead_notes_of_noted (State.declareDead_notes hd (by rw [hea]; exact hsa) 0x0003)
    (c := Cell.of (linkEnds n.val).2) (d := (linkSides n.val).2) (by rw [heb]; exact hsb) 0x0003
  rw [Fin.ofNat_val_eq_self] at hnoted
  exact ⟨_, execUcieLinkDown_seam h s, hnoted⟩

/-! ### Edges of a die (O3) -/

/-- Registers that no step of a fold writes keep their words. -/
theorem foldl_reg_of_mem {α : Type} {a : Nat} {l : List α} {f : State → α → State} (k : ∀ x ∈ l, ∀ t, (f t x).reg a = t.reg a) (s : State) :
    (l.foldl f s).reg a = s.reg a :=
  List.foldlRecOn (motive := fun t : State => t.reg a = s.reg a) l f rfl fun t ht x hx => (k x hx t).trans ht
/-- An edge none of whose links still trains is ACTIVE, unless all of them are fenced (R63). -/
theorem State.edgeTrained_active {s : State} {d e : Nat} (ht : s.scrim.training = [])
    (hf : (edgeLinks d e).all s.scrim.fence.links.contains = false) :
    s.edgeTrained d e = (s.wr (F.DIE_LATH_STATUS_STATE d e) 2).wrBit (F.DIE_STATUS_EDGE_UP d) e true := by
  unfold State.edgeTrained
  simp [ht, hf, -List.contains_eq_mem]
theorem State.edgeTrained_scrim (s : State) (d e : Nat) : (s.edgeTrained d e).scrim = s.scrim :=
  (State.edgeTrained_keeps (P := 134217215) rfl (Keeps.refl s) d e).scrim_eq
theorem State.edgeTrained_state {s : State} {d e : Nat} (he : e < 4) (ht : s.scrim.training = [])
    (hf : (edgeLinks d e).all s.scrim.fence.links.contains = false) : (s.edgeTrained d e).rd (F.DIE_LATH_STATUS_STATE d e) = 2 := by
  have hne : F.DIE_STATUS_at d ≠ F.DIE_LATH_STATUS_at d e := by unfold F.DIE_STATUS_at F.DIE_LATH_STATUS_at; omega
  rw [State.edgeTrained_active ht hf, State.wrBit, State.rd_wr_ne _ _ hne, State.rd_wr_same _ _ (show 0 + 3 ≤ 64 by decide)]
  rfl
/-- The edge of another die is not touched. -/
theorem State.edgeTrained_state_ne {s : State} {d e d' e' : Nat} (hd : d ≠ d') (he : e < 4) (he' : e' < 4) :
    (s.edgeTrained d e).rd (F.DIE_LATH_STATUS_STATE d' e') = s.rd (F.DIE_LATH_STATUS_STATE d' e') := by
  have hup : F.DIE_STATUS_at d ≠ F.DIE_LATH_STATUS_at d' e' := by unfold F.DIE_STATUS_at F.DIE_LATH_STATUS_at; omega
  have hst : F.DIE_LATH_STATUS_at d e ≠ F.DIE_LATH_STATUS_at d' e' := by unfold F.DIE_LATH_STATUS_at; omega
  have hboth : ∀ n m v, ((s.wr (F.DIE_LATH_STATUS_STATE d e) n).wrBit (F.DIE_STATUS_EDGE_UP d) m v).rd (F.DIE_LATH_STATUS_STATE d' e')
      = s.rd (F.DIE_LATH_STATUS_STATE d' e') := fun n m v => (State.rd_wr_ne _ _ hup).trans (State.rd_wr_ne _ _ hst)
  unfold State.edgeTrained
  extract_lets l
  split
  · rfl
  · split
    · exact hboth _ _ _
    · exact hboth _ _ _
theorem execSeamTrainComplete_failed {s : State} {n : MeshLink} (h : s.scrim.training.contains n.val = true) :
    ∃ t, execSeamTrainComplete n false s = .next t ∧ t.scrim.notes.contains (.link n) = true := by
  refine ⟨_, rfl, ?_⟩
  rw [h]
  exact State.failElem_notes _ _ _ _ _
theorem execSeamTrainComplete_last {s : State} {n : MeshLink} (h : s.scrim.training = [n.val]) : execSeamTrainComplete n true s =
    .next ((({ s with scrim.training := [] } : State).edgeTrained ((linkEnds n.val).1 / 16) (if n.val < 120 then 1 else 2)).edgeTrained
      ((linkEnds n.val).2 / 16) (if n.val < 120 then 3 else 0)) := by
  by_cases hn : n.val < 120
  · simp [execSeamTrainComplete, h, hn]
  · simp [execSeamTrainComplete, h, hn]
/-- The last link of a training makes the edges on both of its sides ACTIVE (R63). -/
theorem execSeamTrainComplete_actives {s : State} {n : MeshLink} {a b : Nat} (h : s.scrim.training = [n.val])
    (ha : a = (linkEnds n.val).1 / 16) (hb : b = (linkEnds n.val).2 / 16) (hab : a ≠ b)
    (hfa : (edgeLinks a (if n.val < 120 then 1 else 2)).all s.scrim.fence.links.contains = false)
    (hfb : (edgeLinks b (if n.val < 120 then 3 else 0)).all s.scrim.fence.links.contains = false) :
    ∃ t, execSeamTrainComplete n true s = .next t ∧ t.scrim.training = [] ∧
      t.rd (F.DIE_LATH_STATUS_STATE a (if n.val < 120 then 1 else 2)) = 2 ∧
      t.rd (F.DIE_LATH_STATUS_STATE b (if n.val < 120 then 3 else 0)) = 2 := by
  have hea : (if n.val < 120 then 1 else 2) < 4 := by split <;> decide
  have heb : (if n.val < 120 then 3 else 0) < 4 := by split <;> decide
  refine ⟨_, execSeamTrainComplete_last h, ?_⟩
  rw [← ha, ← hb]
  refine ⟨by rw [State.edgeTrained_scrim, State.edgeTrained_scrim], ?_, ?_⟩
  · rw [State.edgeTrained_state_ne hab.symm heb hea]
    exact State.edgeTrained_state hea rfl hfa
  · exact State.edgeTrained_state heb (by rw [State.edgeTrained_scrim]) (by rw [State.edgeTrained_scrim]; exact hfb)

theorem execLathLpEntry_idle {s : State} {d : Die} {e : Fin 4} (he : (edgePresent d.val).testBit e.val = true) (hm : s.mode = .drowse)
    (hi : s.rd (F.DIE_LATH_CTRL_LP_IDLE d e) ≠ 0) (ha : s.rd (F.DIE_LATH_STATUS_STATE d e) = 2) : execLathLpEntry d e s =
    .next ((s.wr (F.DIE_LATH_STATUS_LINK_LP d e) 0xF).wr (F.DIE_LATH_STATUS_LINK_LP (facing d e) ((e.val + 2) % 4)) 0xF) :=
  congrArg Outcome.next (if_pos (by simp [he, hm, hi, ha]))
theorem execLathLpExit_waits {s : State} {d : Die} {e : Fin 4} (h : s.rd (F.DIE_LATH_STATUS_LINK_LP d e) ≠ 0) (c : Cell) (p : Pkt) :
    execLathLpExit d e c p s = .next { s.standAt c p with scrim.waiting := mmod [] s.scrim.waiting c.val (· ++ [p]) } :=
  congrArg Outcome.next (if_pos (by simp [h]))
/-- A side that leaves low power shows no link of it there any more (R64). -/
theorem State.sideWakes_linkLp (s : State) (d e : Nat) : (s.sideWakes d e).rd (F.DIE_LATH_STATUS_LINK_LP d e) = 0 := by
  unfold State.sideWakes
  extract_lets lp u
  split
  · assumption
  · exact (State.rd_mk (u.wr (F.DIE_LATH_STATUS_LINK_LP d e) 0) _).trans (State.rd_wr_same _ _ (show 4 + 4 ≤ 64 by decide))
theorem State.sideWakes_linkLp_ne {s : State} {d e d' e' : Nat} (he : e < 4) (he' : e' < 4) (h : ¬(d' = d ∧ e' = e)) :
    (s.sideWakes d' e').rd (F.DIE_LATH_STATUS_LINK_LP d e) = s.rd (F.DIE_LATH_STATUS_LINK_LP d e) := by
  have hst : F.DIE_LATH_STATUS_at d' e' ≠ F.DIE_LATH_STATUS_at d e := by unfold F.DIE_LATH_STATUS_at; omega
  have herr : ∀ j < 4, F.DIE_LATH_ERR_at d' e' j ≠ F.DIE_LATH_STATUS_at d e := by
    intro j hj; unfold F.DIE_LATH_ERR_at F.DIE_LATH_STATUS_at; omega
  unfold State.sideWakes
  extract_lets lp u
  split
  · rfl
  · refine (State.rd_mk (u.wr (F.DIE_LATH_STATUS_LINK_LP d' e') 0) _).trans ((State.rd_wr_ne _ _ hst).trans (State.rd_of_reg ?_))
    refine foldl_reg_of_mem (fun j hj t => ?_) s
    split
    · exact State.reg_wr_ne _ _ (herr j (List.mem_range.1 hj))
    · rfl
theorem State.edgeWakes_linkLp (s : State) {d e : Nat} (he : e < 4) : (s.edgeWakes d e).rd (F.DIE_LATH_STATUS_LINK_LP d e) = 0 := by
  have hside := s.sideWakes_linkLp d e
  unfold State.edgeWakes
  extract_lets u
  split
  · by_cases h : facing d e = d ∧ (e + 2) % 4 = e
    · omega
    · rw [State.sideWakes_linkLp_ne he (Nat.mod_lt _ (by decide)) h, hside]
  · exact hside
theorem execLathEdgeActive_present {d : Die} {e : Fin 4} (he : (edgePresent d.val).testBit e.val = true) (s : State) :
    execLathEdgeActive d e s = .next (s.edgeWakes d.val e.val) := congrArg Outcome.next (if_pos he)

/-! ### Snapshots of the statistics (O3) -/

/-- SCRIM_SNAP shows the longest time that the live count holds, and starts the count and the interval again (R72, R73). -/
theorem execScrimSnap_latMax (c : Cell) (s : State) : ∃ t, execScrimSnap c s = .next t ∧
    t.rd (F.SCRIM_LAT_MAX_MAX_NS c) = mgetD 0 s.scrim.maxLive c.val % 2 ^ (F.SCRIM_LAT_MAX_MAX_NS c).width ∧
    mget t.scrim.maxLive c.val = none ∧ mgetD 0 t.scrim.snapAt c.val = s.cyc := by
  refine ⟨_, rfl, ?_⟩
  extract_lets bytes stall hist longest interval
  have hbytes : Keeps 2 s bytes := foldl_keeps (Keeps.refl s) fun _ _ h => State.wr_keeps rfl (State.wr_keeps rfl h _ _) _ _
  have hhist : Keeps 2 s hist :=
    foldl_keeps (State.wr_keeps rfl hbytes _ _) fun _ _ h => State.wr_keeps rfl (State.wr_keeps rfl h _ _) _ _
  have hscrim : hist.scrim = s.scrim := hhist.frame .scrim (by decide)
  have hcyc : interval.cyc = s.cyc := (State.wr_keeps rfl (State.wr_keeps rfl hhist _ _) _ _).frame .cyc (by decide)
  have hne : F.SCRIM_STAT_CTRL_at c ≠ F.SCRIM_LAT_MAX_at c := by unfold F.SCRIM_STAT_CTRL_at F.SCRIM_LAT_MAX_at; omega
  have hmax : interval.rd (F.SCRIM_LAT_MAX_MAX_NS c) = mgetD 0 s.scrim.maxLive c.val % 2 ^ (F.SCRIM_LAT_MAX_MAX_NS c).width := by
    rw [← hscrim]
    exact (State.rd_wr_ne _ _ hne).trans (State.rd_wr_same _ _ (show 0 + 32 ≤ 64 by decide))
  clear_value interval
  exact ⟨(State.rd_mk interval _).trans hmax, mget_mdel_self _ _, (mgetD_mset_self 0 interval.scrim.snapAt _ _).trans hcyc⟩

/-! ### The fourteen rules together (O3) -/

/-- Settles O3: each command's rule is the lemma on its exec named here. That a whole edge and the facing one enter and leave low power
together is the model's choice (log 28). -/
theorem scrimCommandsComplete : Obligations.ScrimCommandsComplete := by
  refine ⟨fun c d p u ecc h v s hs => ?_, fun c d p u ecc h v s hs hr he => ?_,
    fun c d p u h v s hs hr hd hl => execScrimUnitReceive_uncorrectable hs hr hd hl p u h v,
    fun c d p u s hs hr hp => ?_,
    fun c d again s h => execScrimReplayRequest_seam h again s,
    fun c d m s hm hd => ⟨_, execScrimReplayRequest_first hm hd s, mgetD_mset_self 0 s.scrim.replayFails _ 0, by simp⟩,
    fun c d m s hm hs => ⟨_, execHeartbeatSend_on hm hs, mget_mput_self s.scrim.seen _ _⟩,
    fun c d n s hn hd hs hq => ⟨_, execHeartbeatTimeout_silent hn hs hq, State.declareDead_notes hd hn _⟩,
    fun n s hs hd => execUcieLinkDown_notes hs hd,
    fun n s ht => ⟨execSeamTrainComplete_failed ht, fun a b ha hb hab h hfa hfb => execSeamTrainComplete_actives h ha hb hab hfa hfb⟩,
    execScrimSnap_latMax,
    fun d e s he hm hi ha => execLathLpEntry_idle he hm hi ha,
    fun d e c p s h => ⟨_, execLathLpExit_waits h c p, mgetD_mset_self [] s.scrim.waiting _ _⟩,
    fun d e s he => ⟨_, execLathEdgeActive_present he s, s.edgeWakes_linkLp e.isLt⟩⟩
  · exact congrArg (fun t => Outcome.next t.settleLost) (State.takeUnit_spineOff hs d p u ecc h v)
  · exact congrArg (fun t => Outcome.next t.settleLost) (State.takeUnit_rejecting hs hr he p u h v)
  · exact congrArg (fun t => Outcome.next t.settleLost) (State.takeUnit_clean hs hr hp u)

/-! ### Fence epochs (O4) -/

theorem State.showLeader_scrim (s : State) : s.showLeader.scrim = s.scrim :=
  (State.showLeader_keeps (P := 134217215) rfl (Keeps.refl s)).scrim_eq
/-- The epoch that opens on notes and returns carries them (R67, R374). -/
theorem State.fenceNotes_opens (s : State) (notes ret : List Elem) : (s.fenceNotes notes ret).scrim.epochOpen = true ∧
    (s.fenceNotes notes ret).scrim.adding = notes ++ s.wholeDies notes ∧ (s.fenceNotes notes ret).scrim.returning = ret := by
  unfold State.fenceNotes State.openEpoch
  simp only [State.showLeader_scrim, and_self]
/-- A note of an element that is not fenced opens an epoch that adds it, or joins the next one (R67). -/
theorem execFenceNote_takes {s : State} {e : Elem} (h : s.scrim.fence.has e = false) : ∃ t, execFenceNote e s = .next t ∧
    (s.scrim.epochOpen = true → e ∈ t.scrim.nextNotes) ∧ (s.scrim.epochOpen = false → t.scrim.epochOpen = true ∧ e ∈ t.scrim.adding) := by
  refine ⟨_, rfl, ?_⟩
  extract_lets src u
  have hu : u.scrim.fence.has e = false := h
  have he : u.scrim.epochOpen = s.scrim.epochOpen := rfl
  rw [if_neg (by simp [hu]), ← he]
  cases u.scrim.epochOpen with
  | false =>
    obtain ⟨hopen, hadd, -⟩ := u.fenceNotes_opens [e] []
    exact ⟨nofun, fun _ => ⟨hopen, by simp [hadd]⟩⟩
  | true =>
    refine ⟨fun _ => ?_, nofun⟩
    rw [if_pos rfl]
    split
    · exact List.contains_iff_mem.1 ‹_›
    · exact List.mem_append_right _ (List.mem_singleton_self e)
theorem execFenceMap_applies {s : State} {c : Cell} (ho : s.scrim.epochOpen = true) (hd : s.dieFenced (dieOf c) = false) :
    ∃ t, execFenceMap c s = .next t ∧ c ∈ t.scrim.applied := by
  refine ⟨_, rfl, ?_⟩
  by_cases hc : c ∈ s.scrim.applied
  · rw [if_pos (by simp [hc])]
    exact hc
  · rw [if_neg (by simp [ho, hd, hc])]
    exact List.mem_cons_self
/-- While the router of a die in service has not reported, the epoch stays open (R67). -/
theorem State.tryClose_waits {s : State} {x : Cell} (hd : s.dieFenced (dieOf x) = false) (hx : x ∉ s.scrim.reported) : s.tryClose = s := by
  unfold State.tryClose
  refine if_neg fun h => ?_
  have hready := List.all_eq_true.1 (Bool.and_eq_true_iff.1 h).2 x (List.mem_finRange x)
  simp [hd, hx] at hready
theorem State.tryClose_closed {s : State} (h : s.scrim.epochOpen = false) : s.tryClose = s := by
  rw [State.tryClose, h]
  rfl
theorem execFenceCompletionReport_reports {s : State} {c x : Cell} (ho : s.scrim.epochOpen = true) (hc : c ∈ s.scrim.applied)
    (hd : s.dieFenced (dieOf x) = false) (hx : x ∉ s.scrim.reported) (hne : x ≠ c) :
    ∃ t, execFenceCompletionReport c s = .next t ∧ t.scrim.epochOpen = true ∧ c ∈ t.scrim.reported := by
  refine ⟨_, rfl, ?_⟩
  rw [if_neg (by simp [ho, hc]), State.tryClose_waits (x := x) (by exact hd) (by dsimp only; split <;> simp [hx, hne])]
  refine ⟨ho, ?_⟩
  dsimp only
  split
  · exact List.contains_iff_mem.1 ‹_›
  · exact List.mem_cons_self

/-! ### Domains (O4) -/

theorem domFld_fits (n : Nat) : (domFld n).lsb + (domFld n).width ≤ 64 := by
  simp only [domFld, F.RIND_DOMAIN_STATE_D]; omega
/-- The domains' states stand in the registers from 0x100200 up to 0x100280. -/
theorem domFld_addr {n : Nat} (h : n < 432) : 0x100200 ≤ (domFld n).addr ∧ (domFld n).addr < 0x100280 := by
  simp only [domFld, F.RIND_DOMAIN_STATE_D, F.RIND_DOMAIN_STATE_at]; omega
theorem domFld_apart {n m : Nat} (h : n ≠ m) : (domFld n).apart (domFld m) = true := by
  have hbits : (domFld n).addr ≠ (domFld m).addr ∨ (domFld n).lsb + (domFld n).width ≤ (domFld m).lsb ∨
      (domFld m).lsb + (domFld m).width ≤ (domFld n).lsb := by
    simp only [domFld, F.RIND_DOMAIN_STATE_D, F.RIND_DOMAIN_STATE_at]; omega
  simpa [Fld.apart, domFld_fits, or_assoc] using hbits
theorem State.domain_setDomain_same (s : State) (n : Nat) {st : Nat} (h : st < 4) : (s.setDomain n st).domain n = st := by
  have hwr : (s.wr (domFld n) st).domain n = st := (State.rd_wr_same _ _ (domFld_fits n)).trans (Nat.mod_eq_of_lt h)
  unfold State.setDomain
  split
  · assumption
  · extract_lets u
    split
    · exact (State.rd_mk u _).trans hwr
    · exact hwr
theorem State.domain_setDomain_ne (s : State) {n m : Nat} (st : Nat) (h : n ≠ m) : (s.setDomain n st).domain m = s.domain m := by
  have hwr : (s.wr (domFld n) st).domain m = s.domain m := State.rd_wr_apart _ _ (domFld_apart h)
  unfold State.setDomain
  split
  · rfl
  · extract_lets u
    split
    · exact (State.rd_mk u _).trans hwr
    · exact hwr
theorem State.setDomain_scrim (s : State) (n st : Nat) : (s.setDomain n st).scrim = s.scrim :=
  (State.setDomain_keeps (P := 134217215) rfl (Keeps.refl s) n st).scrim_eq

/-! ### Drains (O4) -/

theorem execDrainedReport_drained {s : State} {c : Cell} (hs : s.rd (F.SCRIM_RTR_STATUS_DRAIN_STATE c) = 1) (hi : s.injecting c = false)
    (he : s.ejected c = true) : execDrainedReport c s =
    .next ((s.wr (F.SCRIM_RTR_STATUS_LOCAL_MODE c) 1).wr (F.SCRIM_RTR_STATUS_DRAIN_STATE c) 2) :=
  congrArg Outcome.next (if_pos ⟨hs, by simp [hi], he⟩)
/-- At the commit point a cell's logic and SRAM enter retention, and its empty crossings are reset (R70, R119). -/
def State.commitCell (s : State) (m : Cell) : State :=
  let s := (s.setDomain (3 * m.val) 2).setDomain (3 * m.val + 1) 2
  { s with scrim.committed := m :: s.scrim.committed }.xingReset (xingOfCell m)
theorem State.commitCell_committed (s : State) (m : Cell) : (s.commitCell m).scrim.committed = m :: s.scrim.committed :=
  congrArg (fun x : ScrimSt => m :: x.committed) ((State.setDomain_scrim _ _ _).trans (State.setDomain_scrim _ _ _))
theorem State.commitCell_domain (s : State) (m : Cell) : (s.commitCell m).domain (3 * m.val) = 2 :=
  (State.domain_setDomain_ne (s.setDomain (3 * m.val) 2) 2 (by omega)).trans (s.domain_setDomain_same _ (by decide))
theorem State.foldl_commitCell_committed (l : List Cell) (s : State) :
    (l.foldl State.commitCell s).scrim.committed = l.reverse ++ s.scrim.committed := by
  induction l generalizing s with
  | nil => rfl
  | cons m l ih => rw [List.foldl_cons, ih, State.commitCell_committed]; simp
theorem execDrainCommit_drained {s : State} {c : Cell} (h : ∀ m ∈ s.portMembers c, s.rd (F.SCRIM_RTR_STATUS_DRAIN_STATE m) = 2 ∧
    m ∉ s.scrim.committed ∧ s.domain (3 * m.val) = 1) : execDrainCommit c s = .next ((s.portMembers c).foldl State.commitCell s) := by
  refine congrArg Outcome.next (if_neg ?_)
  rw [List.any_eq_true]
  rintro ⟨m, hm, hbad⟩
  obtain ⟨hdrain, hcommit, hdomain⟩ := h m hm
  simp [hdrain, hcommit, hdomain] at hbad
theorem State.abandonDrain_scrim (s : State) (c : Cell) (st : Nat) : (s.abandonDrain c st).scrim = s.scrim :=
  (State.abandonDrain_keeps (P := 134217215) rfl (Keeps.refl s) c st).scrim_eq
/-- An abandoned drain writes registers of routers only. -/
theorem State.abandonDrain_reg (s : State) (c : Cell) (st : Nat) {a : Nat} (h : a < 0x1010000) : (s.abandonDrain c st).reg a = s.reg a := by
  have hne : ∀ m : Cell, F.SCRIM_RTR_STATUS_at m ≠ a := by intro m; unfold F.SCRIM_RTR_STATUS_at; omega
  refine foldl_reg (fun t m => ?_) s
  dsimp only
  split
  · rfl
  · exact (State.reg_wr_ne _ _ (hne m)).trans (State.reg_wr_ne _ _ (hne m))
/-- A local output that does not absorb does not come to absorb as a drain is abandoned. -/
theorem State.abandonDrain_localMode {s : State} {c : Cell} (h : s.rd (F.SCRIM_RTR_STATUS_LOCAL_MODE c) ≠ 2) (st : Nat) :
    (s.abandonDrain c st).rd (F.SCRIM_RTR_STATUS_LOCAL_MODE c) ≠ 2 := by
  refine List.foldlRecOn (motive := fun t : State => t.rd (F.SCRIM_RTR_STATUS_LOCAL_MODE c) ≠ 2) _ _ h fun t ht m _ => ?_
  dsimp only
  split
  · exact ht
  · by_cases hm : m = c
    · rw [hm, State.rd_wr_same _ _ (show 4 + 2 ≤ 64 by decide)]
      exact (by decide : 0 % 2 ^ 2 ≠ 2)
    · have hne : F.SCRIM_RTR_STATUS_at m ≠ F.SCRIM_RTR_STATUS_at c := by
        have := Fin.val_ne_of_ne hm
        unfold F.SCRIM_RTR_STATUS_at; omega
      rwa [State.rd_wr_ne _ _ hne, State.rd_wr_ne _ _ hne]
theorem execDrainLimitExpiry_draining {s : State} {c : Cell} (h : s.rd (F.SCRIM_RTR_STATUS_DRAIN_STATE c) = 1) :
    ∃ t, execDrainLimitExpiry c s = .next t ∧ t.rd F.RIND_SLEEP_CNT_TIMED_OUT = min 255 (s.rd F.RIND_SLEEP_CNT_TIMED_OUT + 1) := by
  refine ⟨_, congrArg Outcome.next (if_pos h), ?_⟩
  rw [State.rd_sat _ _ (by decide), State.rd_of_reg (s.abandonDrain_reg c 4 (by decide))]
  rfl

/-! ### Units that pass a router (O4) -/

/-- What the passage of units through a router's buffers and its local output leaves: the registers, the packets that wait for a held port or
a sleeping edge, the cells past their commit point, and the epoch. -/
structure State.Passes (s t : State) : Prop where
  regs : t.regs = s.regs
  waiting : t.scrim.waiting = s.scrim.waiting
  committed : t.scrim.committed = s.scrim.committed
  epochOpen : t.scrim.epochOpen = s.scrim.epochOpen
theorem State.Passes.refl (s : State) : s.Passes s := ⟨rfl, rfl, rfl, rfl⟩
theorem State.Passes.trans {s t u : State} (h : s.Passes t) (k : t.Passes u) : s.Passes u :=
  ⟨k.regs.trans h.regs, k.waiting.trans h.waiting, k.committed.trans h.committed, k.epochOpen.trans h.epochOpen⟩
theorem State.fillVc_passes {s0 s : State} (h : s0.Passes s) (c : Cell) (i v fuel : Nat) : s0.Passes (s.fillVc c i v fuel) := by
  induction fuel generalizing s with
  | zero => exact h
  | succ fuel ih =>
    unfold State.fillVc
    extract_lets k
    split
    · exact h
    · split
      · exact h
      · refine ih ?_
        exact ⟨h.regs, h.waiting, h.committed, h.epochOpen⟩
theorem State.fill_passes {s0 s : State} (h : s0.Passes s) (c : Cell) (i : Nat) : s0.Passes (s.fill c i) := by
  unfold State.fill
  split
  · exact h
  · exact List.foldlRecOn (motive := s0.Passes) _ _ h fun t ht v _ => State.fillVc_passes ht c i v 66
theorem State.bufTake_passes {s0 s : State} (h : s0.Passes s) (c : Cell) (i : Nat) (p : Pkt) (u : Nat) : s0.Passes (s.bufTake c i p u) := by
  unfold State.bufTake
  refine State.fill_passes ?_ c i
  exact ⟨h.regs, h.waiting, h.committed, h.epochOpen⟩
theorem State.drrPick_passes {s0 s t : State} {n c : Cell} {o d : Dir} {fuel i : Nat} {b : BufUnit} (h : s0.Passes s)
    (e : s.drrPick n o c d fuel = some (i, b, t)) : s0.Passes t := by
  induction fuel generalizing s with
  | zero => cases e
  | succ fuel ih =>
    unfold State.drrPick at e
    extract_lets v k serve at e
    clear_value serve
    cases serve with
    | none =>
      refine ih ?_ e
      exact ⟨h.regs, h.waiting, h.committed, h.epochOpen⟩
    | some x =>
      cases e
      exact ⟨h.regs, h.waiting, h.committed, h.epochOpen⟩
theorem State.received_passes (s : State) (c : Cell) (p : Pkt) (u : Nat) : s.Passes (s.received c p u) := by
  have hw : (s.receipt c p u (unitBytes u)).waiting = s.scrim.waiting ∧ (s.receipt c p u (unitBytes u)).committed = s.scrim.committed ∧
      (s.receipt c p u (unitBytes u)).epochOpen = s.scrim.epochOpen := by
    unfold State.receipt
    extract_lets x k
    split
    · split
      · split <;> exact ⟨rfl, rfl, rfl⟩
      · exact ⟨rfl, rfl, rfl⟩
    · exact ⟨rfl, rfl, rfl⟩
  obtain ⟨hwait, hcommit, hopen⟩ := hw
  exact ⟨rfl, hwait, hcommit, hopen⟩
theorem State.boundary_passes (s : State) (c : Cell) (o : Dir) (p : Pkt) (u : Nat) : s.Passes (s.boundary c o p u) := by
  unfold State.boundary
  split
  · exact ⟨rfl, rfl, rfl, rfl⟩
  · exact .refl s
/-- A local output that does not absorb passes its units on, and loses none (R57, R67). -/
theorem State.localUnit_passes {s : State} {c : Cell} (h : s.rd (F.SCRIM_RTR_STATUS_LOCAL_MODE c) ≠ 2) (p : Pkt) (u : Nat) :
    s.Passes (s.localUnit c p u) := by
  have ht : s.Passes ((s.received c p u).boundary c .loc p u) := (s.received_passes c p u).trans (State.boundary_passes _ c .loc p u)
  unfold State.localUnit
  extract_lets k t w
  split
  · exact ht.trans ⟨rfl, rfl, rfl, rfl⟩
  · rw [if_neg (by rw [State.rd_congr (s := s) (by exact ht.regs)]; exact h)]
    exact ht.trans ⟨rfl, rfl, rfl, rfl⟩
theorem State.localOut_passes {s : State} {c : Cell} (h : s.rd (F.SCRIM_RTR_STATUS_LOCAL_MODE c) ≠ 2) (fuel : Nat) :
    s.Passes (s.localOut c fuel) := by
  induction fuel generalizing s with
  | zero => exact .refl s
  | succ fuel ih =>
    unfold State.localOut
    split
    · exact .refl s
    · split
      · next i b t hpick =>
        have ht := State.bufTake_passes (State.drrPick_passes (.refl s) hpick) c i b.p b.u
        have hu := ht.trans (State.localUnit_passes (by rw [State.rd_congr ht.regs]; exact h) b.p b.u)
        exact hu.trans (ih (by rw [State.rd_congr hu.regs]; exact h))
      · exact .refl s
theorem State.standAt_passes (s : State) (c : Cell) (p : Pkt) : s.Passes (s.standAt c p) := by
  unfold State.standAt
  extract_lets k u t v
  split
  · exact .refl s
  · refine State.fill_passes ?_ c _
    exact ⟨rfl, rfl, rfl, rfl⟩

/-! ### The release of HOLD (O4) -/

/-- The packets that still wait at the router of c once its local port goes on. -/
def State.stillWaiting (s : State) (c : Cell) : List Pkt := (mgetD [] s.scrim.waiting c.val).filter (fun p => outOf c p != Dir.loc)
theorem State.stillWaiting_not_loc {s : State} {c : Cell} {q : Pkt} (h : q ∈ s.stillWaiting c) : outOf c q ≠ .loc := by
  simpa using (List.mem_filter.1 h).2
/-- With HOLD released nothing waits for the local output any more, unless it absorbs (R71). -/
theorem State.releaseHold_spec {s : State} {c : Cell} (h : s.rd (F.SCRIM_RTR_STATUS_LOCAL_MODE c) ≠ 2) :
    (s.releaseHold c).regs = s.regs ∧ (s.releaseHold c).scrim.committed = s.scrim.committed ∧
    (s.releaseHold c).scrim.epochOpen = s.scrim.epochOpen ∧ mgetD [] (s.releaseHold c).scrim.waiting c.val = s.stillWaiting c := by
  unfold State.releaseHold State.ejectAll
  obtain ⟨hregs, hwait, hcommit, hopen⟩ := State.localOut_passes (s := { s with
    scrim.waiting := mmod [] s.scrim.waiting c.val (fun w => w.filter (fun (p : Pkt) => outOf c p != Dir.loc))
    scrim.heldUnits := mdel s.scrim.heldUnits c.val }) h _
  exact ⟨hregs, hcommit, hopen, by rw [hwait]; exact mgetD_mset_self [] s.scrim.waiting _ _⟩

/-! ### Arrivals at a port in HOLD (O4) -/

theorem Pkt.same_refl (p : Pkt) : p.same p = true := decide_eq_true rfl
/-- The packets that wait at a router once p has come to wait there, once. -/
def waitsOnce (l : List Pkt) (p : Pkt) : List Pkt := if l.any (fun q => q.same p) then l else l ++ [p]
theorem exists_same_mem_waitsOnce (l : List Pkt) (p : Pkt) : ∃ q ∈ waitsOnce l p, q.same p = true := by
  unfold waitsOnce
  split
  · exact List.any_eq_true.1 ‹_›
  · exact ⟨p, List.mem_append_right _ (List.mem_singleton_self p), Pkt.same_refl p⟩
theorem State.wakeCells_scrim (l : List Cell) (s : State) : (l.foldl (fun (s : State) (m : Cell) => s.wakeCell m) s).scrim = s.scrim :=
  (foldl_keeps (P := 134217215) (Keeps.refl s) fun _ m h => State.wakeCell_keeps rfl h m).scrim_eq
/-- Past its commit point a port keeps the packet that arrives, and its cells wake (R71). -/
theorem State.holdArrival_committed {s : State} {c : Cell} (h : c ∈ s.scrim.committed) (p : Pkt) :
    mgetD [] (s.holdArrival c p).scrim.waiting c.val = waitsOnce (mgetD [] s.scrim.waiting c.val) p := by
  have hstand := s.standAt_passes c p
  unfold State.holdArrival
  extract_lets t first src u v
  have hu : u.scrim.waiting = mmod [] s.scrim.waiting c.val (fun l => waitsOnce l p) := by
    rw [← hstand.waiting]; rfl
  have hv : v.scrim = u.scrim := by
    dsimp only [v]
    split
    · exact (State.logYield_keeps (P := 134217215) rfl (Keeps.refl u) _ _ _ _ _ _).scrim_eq
    · rfl
  have hc : u.scrim.committed.contains c = true := by
    rw [show u.scrim.committed = s.scrim.committed from hstand.committed]; exact List.contains_iff_mem.2 h
  rw [if_pos hc, State.wakeCells_scrim, hv, hu]
  exact mgetD_mset_self [] s.scrim.waiting _ _
/-- Before the commit point an arrival cancels the drain, and nothing waits for the local output any more (R71). -/
theorem State.holdArrival_cancels {s : State} {c : Cell} (h : c ∉ s.scrim.committed) (hm : s.rd (F.SCRIM_RTR_STATUS_LOCAL_MODE c) ≠ 2)
    (p : Pkt) : ∀ q ∈ mgetD [] (s.holdArrival c p).scrim.waiting c.val, outOf c q ≠ .loc := by
  have hstand := s.standAt_passes c p
  unfold State.holdArrival
  extract_lets t first src u v
  have hc : ¬ u.scrim.committed.contains c = true := by
    rw [show u.scrim.committed = s.scrim.committed from hstand.committed]; exact mt List.contains_iff_mem.1 h
  have hmode : u.rd (F.SCRIM_RTR_STATUS_LOCAL_MODE c) ≠ 2 := by
    rw [State.rd_congr (s := s) (show u.regs = s.regs from hstand.regs)]; exact hm
  have hsat : ((u.abandonDrain c 3).sat F.RIND_SLEEP_CNT_CANCELLED).rd (F.SCRIM_RTR_STATUS_LOCAL_MODE c) ≠ 2 := by
    have hne : F.RIND_SLEEP_CNT_at ≠ F.SCRIM_RTR_STATUS_at c := by unfold F.RIND_SLEEP_CNT_at F.SCRIM_RTR_STATUS_at; omega
    rw [State.sat, State.rd_wr_ne _ _ hne]
    exact State.abandonDrain_localMode hmode 3
  rw [if_neg hc]
  obtain ⟨-, -, -, hwait⟩ := State.releaseHold_spec hsat
  rw [hwait]
  exact fun q hq => State.stillWaiting_not_loc hq
theorem execHoldUnitArrival_hold {s : State} {c : Cell} (h : s.rd (F.SCRIM_RTR_STATUS_LOCAL_MODE c) = 1) (p : Pkt) :
    execHoldUnitArrival c p s = .next (s.holdArrival c p) := congrArg Outcome.next (if_pos h)

/-! ### Wakes (O4) -/

/-- The cell's domains are ON, its commit point is behind it, and its wake has ended (R408). -/
def State.domainsOn (s : State) (c : Cell) : State :=
  let t := min 0xFFFF ((s.cyc - mgetD s.cyc s.pwr.wakeAt c.val) / 3)
  let s := (s.setDomain (3 * c.val) 1).setDomain (3 * c.val + 1) 1
  { s with
    scrim.committed := s.scrim.committed.filter (· != c)
    pwr.wakeAt := mdel s.pwr.wakeAt c.val
    pwr.onNs := mput (mput s.pwr.onNs (3 * c.val) t) (3 * c.val + 1) t }
theorem State.domainsOn_domain (s : State) (c : Cell) : (s.domainsOn c).domain (3 * c.val) = 1 :=
  (State.domain_setDomain_ne (s.setDomain (3 * c.val) 1) 1 (by omega)).trans (s.domain_setDomain_same _ (by decide))
theorem State.domainsOn_scrim (s : State) (c : Cell) :
    (s.domainsOn c).scrim = { s.scrim with committed := s.scrim.committed.filter (· != c) } :=
  congrArg (fun x : ScrimSt => { x with committed := x.committed.filter (· != c) })
    ((State.setDomain_scrim _ _ _).trans (State.setDomain_scrim _ _ _))
theorem State.domainsOn_sched (s : State) (c : Cell) : (s.domainsOn c).sched = s.sched :=
  (State.setDomain_keeps (P := 134213631) rfl (State.setDomain_keeps rfl (Keeps.refl s) (3 * c.val) 1) (3 * c.val + 1) 1).sched_eq
/-- The wake is counted, and every shaper's CREDIT is 0 (R408). -/
def State.wakeCounted (s : State) (c : Cell) (t : Nat) : State :=
  (List.range 10).foldl (fun (s : State) o => (List.range 8).foldl (fun (s : State) tc => s.setCredit c o tc 0) s)
    ((s.inc F.RIND_SLEEP_CNT_WAKES).raise F.RIND_SLEEP_STATUS_WAKE_MAX_NS t)
theorem State.wakeCounted_keeps (s : State) (c : Cell) (t : Nat) : Keeps 2 s (s.wakeCounted c t) :=
  foldl_keeps (State.raise_keeps rfl (State.inc_keeps rfl (Keeps.refl s) _ _) _ _) fun _ _ h =>
    foldl_keeps h fun _ _ h => State.setCredit_keeps rfl h _ _ _ _
theorem State.wakeCounted_scrim (s : State) (c : Cell) (t : Nat) : (s.wakeCounted c t).scrim = s.scrim :=
  (s.wakeCounted_keeps c t).frame .scrim (by decide)
theorem State.wakeCounted_sched (s : State) (c : Cell) (t : Nat) : (s.wakeCounted c t).sched = s.sched :=
  (s.wakeCounted_keeps c t).frame .sched (by decide)
theorem State.wakeCounted_domain (s : State) (c : Cell) (t : Nat) {n : Nat} (h : n < 432) : (s.wakeCounted c t).domain n = s.domain n := by
  obtain ⟨hlo, hhi⟩ := domFld_addr h
  have hcredit : ∀ (u : State) (o tc : Nat) (v : Int), (u.setCredit c o tc v).reg (domFld n).addr = u.reg (domFld n).addr := fun u o tc v =>
    State.reg_wr_ne _ _ (by simp only [F.SHP_CREDIT_CREDIT, F.SHP_CREDIT_at]; omega)
  refine State.rd_of_reg ((foldl_reg (fun u o => foldl_reg (fun u tc => hcredit u o tc 0) u) _).trans ?_)
  unfold State.raise State.inc
  rw [State.reg_wr_ne _ _ (by simp only [F.RIND_SLEEP_STATUS_WAKE_MAX_NS, F.RIND_SLEEP_STATUS_at]; omega),
    State.reg_wr_ne _ _ (by simp only [F.RIND_SLEEP_CNT_WAKES, F.RIND_SLEEP_CNT_at]; omega)]
/-- A period that ended in retention is copied as one that spans it (R408). -/
def State.copyDue (s : State) (c : Cell) : State :=
  if s.sched.due.contains c.val then { s with sched.due := s.sched.due.filter (· != c.val) }.copyObs c false else s
theorem State.copyDue_scrim (s : State) (c : Cell) : (s.copyDue c).scrim = s.scrim := by
  unfold State.copyDue
  split
  · exact (State.copyObs_keeps (P := 134217215) rfl (Keeps.refl _) c false).scrim_eq
  · rfl
theorem State.copyDue_of_not_due {s : State} {c : Cell} (h : c.val ∉ s.sched.due) : s.copyDue c = s := if_neg (mt List.contains_iff_mem.1 h)
/-- The local port is NORMAL again, and shows no drain. -/
def State.localNormal (s : State) (c : Cell) : State := (s.wr (F.SCRIM_RTR_STATUS_DRAIN_STATE c) 0).wr (F.SCRIM_RTR_STATUS_LOCAL_MODE c) 0
theorem State.localNormal_localMode (s : State) (c : Cell) : (s.localNormal c).rd (F.SCRIM_RTR_STATUS_LOCAL_MODE c) = 0 :=
  State.rd_wr_same _ _ (show 4 + 2 ≤ 64 by decide)
theorem State.localNormal_domain (s : State) (c : Cell) {n : Nat} (h : n < 432) : (s.localNormal c).domain n = s.domain n := by
  obtain ⟨hlo, hhi⟩ := domFld_addr h
  have hne : F.SCRIM_RTR_STATUS_at c ≠ (domFld n).addr := by unfold F.SCRIM_RTR_STATUS_at; omega
  exact (State.rd_wr_ne _ _ hne).trans (State.rd_wr_ne _ _ hne)
/-- A cell that has woken, before its HOLD is released. -/
def State.woken (s : State) (c : Cell) : State :=
  (((s.domainsOn c).wakeCounted c (min 0xFFFF ((s.cyc - mgetD s.cyc s.pwr.wakeAt c.val) / 3))).copyDue c).localNormal c
theorem execDomainOnSignal_waking {s : State} {c : Cell} (h : s.domain (3 * c.val) = 3) :
    execDomainOnSignal c s = .next ((s.woken c).releaseHold c).tryClose := congrArg Outcome.next (if_neg (not_not.2 h))
theorem State.woken_scrim (s : State) (c : Cell) :
    (s.woken c).scrim = { s.scrim with committed := s.scrim.committed.filter (· != c) } := by
  rw [State.woken, State.localNormal, State.wr_scrim, State.wr_scrim, State.copyDue_scrim, State.wakeCounted_scrim, State.domainsOn_scrim]
theorem State.woken_domain {s : State} {c : Cell} (h : c.val ∉ s.sched.due) : (s.woken c).domain (3 * c.val) = 1 := by
  have hn : 3 * c.val < 432 := by omega
  have hdue : c.val ∉ ((s.domainsOn c).wakeCounted c (min 0xFFFF ((s.cyc - mgetD s.cyc s.pwr.wakeAt c.val) / 3))).sched.due := by
    rw [State.wakeCounted_sched, State.domainsOn_sched]; exact h
  rw [State.woken, State.localNormal_domain _ _ hn, State.copyDue_of_not_due hdue, State.wakeCounted_domain _ _ _ hn, State.domainsOn_domain]
theorem execDomainOnSignal_wakes {s : State} {c : Cell} (h : s.domain (3 * c.val) = 3) (ho : s.scrim.epochOpen = false) :
    ∃ t, execDomainOnSignal c s = .next t ∧ c ∉ t.scrim.committed ∧ (∀ q ∈ mgetD [] t.scrim.waiting c.val, outOf c q ≠ .loc) ∧
      (c.val ∉ s.sched.due → t.domain (3 * c.val) = 1) := by
  have hmode : (s.woken c).rd (F.SCRIM_RTR_STATUS_LOCAL_MODE c) ≠ 2 := by rw [State.woken, State.localNormal_localMode]; decide
  obtain ⟨hregs, hcommit, hopen, hwait⟩ := State.releaseHold_spec hmode
  have hclosed : ((s.woken c).releaseHold c).scrim.epochOpen = false := by rw [hopen, State.woken_scrim]; exact ho
  refine ⟨_, execDomainOnSignal_waking h, ?_⟩
  rw [State.tryClose_closed hclosed]
  refine ⟨?_, ?_, fun hdue => ?_⟩
  · rw [hcommit, State.woken_scrim]
    simp
  · rw [hwait]
    exact fun q hq => State.stillWaiting_not_loc hq
  · exact (State.rd_congr hregs _).trans (State.woken_domain hdue)

/-- A fault that is noted opens no epoch by itself. -/
theorem State.failElem_epochOpen (s : State) (e : Elem) (cell : Option Cell) (cause detail : Nat) :
    (s.failElem e cell cause detail).scrim.epochOpen = s.scrim.epochOpen := by
  have hnote : ∀ u : State, (u.note e).scrim.epochOpen = u.scrim.epochOpen := by
    intro u; unfold State.note; split <;> rfl
  unfold State.failElem
  extract_lets run u v
  have hu : Keeps 134217215 s u := State.logFault_keeps rfl (Keeps.refl s) _ _ _ _ _ _ _ _ _ _
  have hv : Keeps 134217215 s v := ite_keeps (fun _ => hu) fun _ => State.logStep_keeps rfl (State.beginRecovery_keeps rfl hu _) 1
  rw [hnote, hv.scrim_eq]
theorem execWakeFail_notes {s : State} {c : Cell} (h : s.domain (3 * c.val) = 3) (ho : s.scrim.epochOpen = false) :
    ∃ t, execWakeFail c s = .next t ∧ Elem.cell c ∈ t.scrim.notes := by
  refine ⟨_, congrArg Outcome.next (if_pos h), ?_⟩
  rw [State.tryClose_closed (by rw [State.failElem_epochOpen]; exact ho)]
  exact List.contains_iff_mem.1 (State.failElem_notes _ _ _ _ _)

/-! ### Service processors (O4) -/

/-- An entry of the fault log moves no register below the logs' pointers. -/
theorem State.logFaultRec_reg (s : State) (r : FaultRec) {a : Nat} (h : a < 0x280) : (s.logFaultRec r).reg a = s.reg a := by
  have hnext : ∀ (u : State) (n : Nat), (u.wr (F.PKG_LOG_PTR_NEXT_SEQ 0) n).reg a = u.reg a := fun u n => u.reg_wr_ne n (by
    simp only [F.PKG_LOG_PTR_NEXT_SEQ, F.PKG_LOG_PTR_at]; omega)
  have hold : ∀ (u : State) (n : Nat), (u.wr (F.PKG_LOG_PTR_OLDEST_SEQ 0) n).reg a = u.reg a := fun u n => u.reg_wr_ne n (by
    simp only [F.PKG_LOG_PTR_OLDEST_SEQ, F.PKG_LOG_PTR_at]; omega)
  unfold State.logFaultRec State.writeFault State.logBump
  extract_lets r n u src
  split
  · split
    · exact (hold _ _).trans (hnext _ _)
    · exact hnext _ _
  · split
    · rfl
    · exact State.reg_wr_ne _ _ (by simp only [F.PKG_LOG_DROP_DROPPED, F.PKG_LOG_DROP_at]; omega)
/-- A fault entry counts one fault (R363). -/
theorem State.logFault_faults (s : State) (cls : Nat) (cell : Option Cell) (subj cause detail elem : Nat) (outside : Bool)
    (toward : Option Mode) (last same : Bool) :
    (s.logFault cls cell subj cause detail elem outside toward last same).rd F.PKG_FAULT_STATUS_FAULTS
      = min (2 ^ F.PKG_FAULT_STATUS_FAULTS.width - 1) (s.rd F.PKG_FAULT_STATUS_FAULTS + 1) := by
  unfold State.logFault
  extract_lets dbl u v w
  have hu : u.rd F.PKG_FAULT_STATUS_FAULTS = min (2 ^ F.PKG_FAULT_STATUS_FAULTS.width - 1) (s.rd F.PKG_FAULT_STATUS_FAULTS + 1) :=
    State.rd_sat _ _ (by decide)
  have hv : v.rd F.PKG_FAULT_STATUS_FAULTS = u.rd F.PKG_FAULT_STATUS_FAULTS := by
    dsimp only [v]; split
    · exact State.rd_wr_apart _ _ (by decide)
    · rfl
  have hw : w.rd F.PKG_FAULT_STATUS_FAULTS = v.rd F.PKG_FAULT_STATUS_FAULTS := by
    dsimp only [w]; split
    · exact State.rd_wr_apart _ _ (by decide)
    · rfl
  rw [State.rd_of_reg (State.logFaultRec_reg _ _ (by decide)), hw, hv, hu]
theorem State.logStep_faults (s : State) (step : Nat) : (s.logStep step).rd F.PKG_FAULT_STATUS_FAULTS = s.rd F.PKG_FAULT_STATUS_FAULTS := by
  unfold State.logStep
  extract_lets t u bound v
  have hu : u.rd F.PKG_FAULT_STATUS_FAULTS = s.rd F.PKG_FAULT_STATUS_FAULTS := by
    dsimp only [u]; split <;> exact State.rd_wr_apart _ _ (by decide)
  rw [State.rd_wr_apart _ _ (by decide), State.rd_of_reg (State.logFaultRec_reg _ _ (by decide)), hu]
theorem State.beginRecovery_faults (s : State) (cls : Nat) :
    (s.beginRecovery cls).rd F.PKG_FAULT_STATUS_FAULTS = s.rd F.PKG_FAULT_STATUS_FAULTS := by
  unfold State.beginRecovery
  split
  · exact State.rd_wr_apart _ _ (by decide)
  · rfl
/-- A recovery that has nothing to do: its steps end at once (R364). -/
def State.emptyRecovery (s : State) : State := ((((s.beginRecovery 0x0D).logStep 1).logStep 2).logStep 3).logStep 4
theorem State.emptyRecovery_faults (s : State) : s.emptyRecovery.rd F.PKG_FAULT_STATUS_FAULTS = s.rd F.PKG_FAULT_STATUS_FAULTS := by
  simp only [State.emptyRecovery, State.logStep_faults, State.beginRecovery_faults]
theorem State.emptyRecovery_keeps (s : State) : Keeps 16386 s s.emptyRecovery :=
  State.logStep_keeps rfl (State.logStep_keeps rfl (State.logStep_keeps rfl (State.logStep_keeps rfl
    (State.beginRecovery_keeps rfl (Keeps.refl s) _) _) _) _) _
/-- The service processor of die 0 is gone while it was active: the standby on die 7 takes over, if it may (R27). -/
def State.withoutSp0 (s : State) : State := { s with spGone := 0 :: s.spGone, activeSp := State.nextSp { s with spGone := 0 :: s.spGone } 0 }
theorem State.withoutSp0_activeSp {s : State} (h : s.dieFenced 7 = false) (hg : (7 : Die) ∉ s.spGone) : s.withoutSp0.activeSp = some 7 := by
  have hpair : (Fin.ofNat 8 (7 - (0 : Die).val) : Die) = 7 := rfl
  simp only [State.withoutSp0, State.nextSp, hpair]
  rw [if_neg]
  simp [State.dieFenced] at h ⊢
  exact ⟨h, hg⟩
/-- The loss of the active service processor on die 0, with the fault entry that it leaves (R27). -/
def State.sp0Fault (s : State) : State := s.withoutSp0.logFault 0x0D none 0xFFFF 0x000B 0 0 false
theorem execSpHeartbeatMiss_active {s : State} (hg : (0 : Die) ∉ s.spGone) (hf : s.dieFenced 0 = false) (ha : s.activeSp = some 0) :
    execSpHeartbeatMiss 0 s = .next (if s.rd F.PKG_FAULT_STATUS_STEP != 0 then s.sp0Fault else s.sp0Fault.emptyRecovery) := by
  unfold execSpHeartbeatMiss
  extract_lets d run u v w
  have hd : d = 0 := rfl
  have hv : v = s.withoutSp0 := if_pos (show u.activeSp = some d from ha)
  rw [if_neg (by simp [hd, hg, hf, ha]), show w = s.sp0Fault from congrArg (fun x : State => x.logFault 0x0D none 0xFFFF 0x000B 0 0 false) hv]
  rfl
theorem execSpHeartbeatMiss_replaces {s : State} (hg : (0 : Die) ∉ s.spGone) (hf : s.dieFenced 0 = false) (ha : s.activeSp = some 0) :
    ∃ t, execSpHeartbeatMiss 0 s = .next t ∧ (0 : Die) ∈ t.spGone ∧
      (s.dieFenced 7 = false → (7 : Die) ∉ s.spGone → t.activeSp = some 7) ∧
      t.rd F.PKG_FAULT_STATUS_FAULTS = min (2 ^ F.PKG_FAULT_STATUS_FAULTS.width - 1) (s.rd F.PKG_FAULT_STATUS_FAULTS + 1) := by
  refine ⟨_, execSpHeartbeatMiss_active hg hf ha, ?_⟩
  have hfault : Keeps 16386 s.withoutSp0 s.sp0Fault := State.logFault_keeps rfl (Keeps.refl _) _ _ _ _ _ _ _ _ _ _
  have hcount : s.sp0Fault.rd F.PKG_FAULT_STATUS_FAULTS = min (2 ^ F.PKG_FAULT_STATUS_FAULTS.width - 1) (s.rd F.PKG_FAULT_STATUS_FAULTS + 1) :=
    State.logFault_faults _ _ _ _ _ _ _ _ _ _ _
  have hend : ∀ t, Keeps 16386 s.withoutSp0 t → t.rd F.PKG_FAULT_STATUS_FAULTS = s.sp0Fault.rd F.PKG_FAULT_STATUS_FAULTS →
      (0 : Die) ∈ t.spGone ∧ (s.dieFenced 7 = false → (7 : Die) ∉ s.spGone → t.activeSp = some 7) ∧
      t.rd F.PKG_FAULT_STATUS_FAULTS = min (2 ^ F.PKG_FAULT_STATUS_FAULTS.width - 1) (s.rd F.PKG_FAULT_STATUS_FAULTS + 1) := by
    intro t ht hrd
    have hgone : t.spGone = s.withoutSp0.spGone := ht.frame .spGone (by decide)
    have hsp : t.activeSp = s.withoutSp0.activeSp := ht.frame .activeSp (by decide)
    exact ⟨by rw [hgone]; exact List.mem_cons_self, fun h7 hg7 => hsp.trans (State.withoutSp0_activeSp h7 hg7), hrd.trans hcount⟩
  split
  · exact hend _ hfault rfl
  · exact hend _ (hfault.trans (State.emptyRecovery_keeps _)) (State.emptyRecovery_faults _)

/-! ### Return to service (O4) -/

theorem State.startTraining_reg (s : State) (d e : Nat) (ls : List Nat) {a : Nat} (h : a < 0x100000) : (s.startTraining d e ls).reg a = s.reg a := by
  have hstate : ∀ (u : State) (d e n : Nat), (u.wr (F.DIE_LATH_STATUS_STATE d e) n).reg a = u.reg a := fun u d e n => u.reg_wr_ne n (by
    simp only [F.DIE_LATH_STATUS_STATE, F.DIE_LATH_STATUS_at]; omega)
  unfold State.startTraining
  split
  · rfl
  · extract_lets tr src u
    have htr : ∀ (v : State) (d e : Nat), (tr v d e).reg a = v.reg a := by
      intro v d e; dsimp only [tr]; split
      · rfl
      · exact hstate v d e 1
    split
    · rfl
    · exact (htr _ _ _).trans ((htr _ _ _).trans rfl)
/-- PKG_FENCE_RETURN shows that the return of an element has begun. -/
def State.returnBegins (s : State) (e : Elem) : State :=
  ({ s with log.returning := some e }.wr F.PKG_FENCE_RETURN_BUSY 1).wr F.PKG_FENCE_RETURN_RESULT 0
theorem State.returnBegins_busy (s : State) (e : Elem) : (s.returnBegins e).rd F.PKG_FENCE_RETURN_BUSY = 1 :=
  (State.rd_wr_apart _ _ (by decide)).trans (State.rd_wr_same _ _ (by decide))
/-- What a return does to clocks, domains and links leaves the record of the return alone. -/
theorem State.startReturn_frame (s : State) (e : Elem) : (s.startReturn e).log = (s.returnBegins e).log ∧
    ∀ a < 0x100000, (s.startReturn e).reg a = (s.returnBegins e).reg a := by
  have hset : ∀ u : State, u.setDomains.log = u.log ∧ ∀ a < 0x100000, u.setDomains.reg a = u.reg a := fun u =>
    ⟨(State.setDomains_keeps (P := 134201343) rfl (Keeps.refl u)).log_eq, fun _ h => u.setDomains_reg h⟩
  cases e with
  | cell c => exact hset _
  | stack k => exact hset _
  | die d =>
    obtain ⟨hlog, hreg⟩ := hset ((s.returnBegins (.die d)).pllStart d.val)
    exact ⟨hlog.trans (State.pllStart_keeps (P := 134201343) rfl (Keeps.refl _) _).log_eq,
      fun a h => (hreg a h).trans (State.pllStart_reg _ _ h)⟩
  | link n =>
    obtain ⟨hlog, hreg⟩ := hset (s.returnBegins (.link n))
    have hstart : s.startReturn (.link n) = if seamLink n.val then
        (s.returnBegins (.link n)).setDomains.startTraining ((linkEnds n.val).1 / 16) (if n.val < 120 then 1 else 2) [n.val]
      else (s.returnBegins (.link n)).setDomains := rfl
    rw [hstart]
    split
    · exact ⟨(State.startTraining_keeps (P := 134201343) rfl (Keeps.refl _) _ _ _).log_eq.trans hlog,
        fun a h => (State.startTraining_reg _ _ _ _ h).trans (hreg a h)⟩
    · exact ⟨hlog, hreg⟩
theorem State.startReturn_begins (s : State) (e : Elem) : (s.startReturn e).log.returning = some e ∧
    (s.startReturn e).rd F.PKG_FENCE_RETURN_BUSY = 1 := by
  obtain ⟨hlog, hreg⟩ := s.startReturn_frame e
  exact ⟨by rw [hlog]; rfl, (State.rd_of_reg (hreg _ (by decide))).trans (s.returnBegins_busy e)⟩
/-- A service processor's GO starts the operation, without the lease (R17, R374). -/
theorem execFenceReturnGo_sp (s : State) : execFenceReturnGo (.inl .sp) s = .next s.fenceReturnOp := rfl
theorem State.not_busy {s : State} (h : s.rd F.PKG_FENCE_RETURN_BUSY = 0) : ¬ s.rdb F.PKG_FENCE_RETURN_BUSY = true := by
  rw [State.rdb, h]; decide
/-- GO while no return runs: the element that KIND and ELEM name starts its return where it may, and is refused otherwise. -/
theorem State.fenceReturnOp_named {s : State} (h : s.rd F.PKG_FENCE_RETURN_BUSY = 0) {e : Elem}
    (he : elemOf (s.rd F.PKG_FENCE_RETURN_KIND) (s.rd F.PKG_FENCE_RETURN_ELEM) = some e) :
    s.fenceReturnOp = if s.mayReturn e then s.startReturn e else s.flag F.PKG_FENCE_RETURN_REFUSED := by
  rw [State.fenceReturnOp, if_neg (State.not_busy h), he]
theorem State.fenceReturnOp_unnamed {s : State} (h : s.rd F.PKG_FENCE_RETURN_BUSY = 0)
    (he : elemOf (s.rd F.PKG_FENCE_RETURN_KIND) (s.rd F.PKG_FENCE_RETURN_ELEM) = none) :
    s.fenceReturnOp = s.flag F.PKG_FENCE_RETURN_REFUSED := by
  rw [State.fenceReturnOp, if_neg (State.not_busy h), he]
theorem State.mem_returnSet (s : State) (e : Elem) : e ∈ s.returnSet e := by
  cases e with
  | die d => exact List.mem_cons_self
  | _ => exact List.mem_singleton_self _
/-- A test that has passed, with no epoch open, opens the epoch that returns the element (R374). -/
theorem execReturnSelfTestComplete_passed {s : State} {e : Elem} (hr : s.log.returning = some e) (hf : s.scrim.fence.has e = true)
    (hn : e ∉ s.scrim.nextReturns) (ho : s.scrim.epochOpen = false) (ht : s.trained e = true) :
    execReturnSelfTestComplete true s = .next (s.fenceNotes [] (s.returnSet e)) := by
  simp [execReturnSelfTestComplete, hr, hf, hn, ho, ht]
/-- An element that is barred from return until DORMANT. -/
def State.bar (s : State) (e : Elem) : State := { s with scrim.barred := e :: s.scrim.barred.filter (· != e) }
theorem execReturnSelfTestComplete_failed {s : State} {e : Elem} (hr : s.log.returning = some e) (hf : s.scrim.fence.has e = true)
    (hn : e ∉ s.scrim.nextReturns) : execReturnSelfTestComplete false s = .next ((s.bar e).endReturn 2) := by
  simp [execReturnSelfTestComplete, State.bar, hr, hf, hn]
/-- A return that has failed: nothing returns any more, and RESULT shows it. -/
def State.returnFailed (s : State) : State := ({ s with log.returning := none }.wr F.PKG_FENCE_RETURN_BUSY 0).wr F.PKG_FENCE_RETURN_RESULT 2
theorem State.endReturn_failed {s : State} {e : Elem} (hr : s.log.returning = some e) : s.endReturn 2 = s.returnFailed.setDomains := by
  rw [State.endReturn, hr]
  rfl
theorem State.endReturn_failed_spec {s : State} {e : Elem} (hr : s.log.returning = some e) : (s.endReturn 2).scrim = s.scrim ∧
    (s.endReturn 2).log.returning = none ∧ (s.endReturn 2).rd F.PKG_FENCE_RETURN_RESULT = 2 := by
  have hkeep : Keeps 32770 s.returnFailed s.returnFailed.setDomains := State.setDomains_keeps rfl (Keeps.refl _)
  have hscrim : s.returnFailed.setDomains.scrim = s.returnFailed.scrim := hkeep.frame .scrim (by decide)
  have hlog : s.returnFailed.setDomains.log = s.returnFailed.log := hkeep.frame .log (by decide)
  rw [State.endReturn_failed hr]
  refine ⟨hscrim.trans rfl, by rw [hlog]; rfl, ?_⟩
  rw [State.rd_of_reg (State.setDomains_reg _ (by decide)), State.returnFailed, State.rd_wr_same _ _ (by decide)]
  rfl

/-! ### The twelve rules together (O4) -/

/-- Settles O4: each command's rule is the lemma on its exec named here. -/
theorem fenceCommandsComplete : Obligations.FenceCommandsComplete := by
  refine ⟨fun e s h => execFenceNote_takes h,
    fun c s ho hd => execFenceMap_applies ho hd,
    fun c x s ho hc hd hx hne => execFenceCompletionReport_reports ho hc hd hx hne,
    fun c s hs hi he => execDrainedReport_drained hs hi he,
    fun c s h => ⟨_, execDrainCommit_drained h, fun m hm => ?committed, fun hone => ?retention⟩,
    fun c s h => execDrainLimitExpiry_draining h,
    fun c p s h => ⟨_, execHoldUnitArrival_hold h p, fun hc => ?kept, fun hc => State.holdArrival_cancels hc (by rw [h]; decide) p⟩,
    fun c s h ho => execDomainOnSignal_wakes h ho,
    fun c s h ho => execWakeFail_notes h ho,
    fun s hg hf ha => execSpHeartbeatMiss_replaces hg hf ha,
    fun s hb => ⟨fun e he hm => ?go, fun e he hm => ?refused, fun he => congrArg Outcome.next (State.fenceReturnOp_unnamed hb he)⟩,
    fun e s hr hf hn => ⟨fun ho ht => ?passed, ?failed⟩⟩
  case committed =>
    rw [State.foldl_commitCell_committed]
    exact List.mem_append_left _ (List.mem_reverse.2 hm)
  case retention =>
    rw [hone]
    exact s.commitCell_domain c
  case kept =>
    rw [State.holdArrival_committed hc p]
    exact exists_same_mem_waitsOnce _ p
  case go =>
    refine ⟨_, execFenceReturnGo_sp s, ?_⟩
    rw [State.fenceReturnOp_named hb he, if_pos hm]
    exact s.startReturn_begins e
  case refused =>
    exact congrArg Outcome.next ((State.fenceReturnOp_named hb he).trans (if_neg (by simp [hm])))
  case passed =>
    obtain ⟨hopen, -, hret⟩ := s.fenceNotes_opens [] (s.returnSet e)
    exact ⟨_, execReturnSelfTestComplete_passed hr hf hn ho ht, hopen, by rw [hret]; exact s.mem_returnSet e⟩
  case failed =>
    obtain ⟨hscrim, hnone, hresult⟩ := State.endReturn_failed_spec (s := s.bar e) hr
    exact ⟨_, execReturnSelfTestComplete_failed hr hf hn, by rw [hscrim]; exact List.mem_cons_self, hnone, hresult⟩

end Sys2Proof.Machine

/-! # Switch core: frames of the commands that write registers only, intake and responses, spill queues and gates -/

namespace Sys2Proof.Machine
open Host (Outcome)

/-! ### Writes of some registers only (O24) -/

theorem State.onlyRegs.refl (l : List Nat) (s : State) : s.onlyRegs l s := ⟨rfl, fun _ _ => rfl⟩
theorem State.onlyRegs.trans {l : List Nat} {s t u : State} (h : s.onlyRegs l t) (k : t.onlyRegs l u) : s.onlyRegs l u := by
  obtain ⟨ht, hregs⟩ := h
  obtain ⟨hu, kregs⟩ := k
  exact ⟨by rw [hu, ht], fun a ha => (kregs a ha).trans (hregs a ha)⟩
section
variable {l : List Nat} {s0 s : State}
theorem State.onlyRegs.setReg {a : Nat} {w : Word} (h : s0.onlyRegs l s) (ha : a ∈ l) : s0.onlyRegs l (s.setReg a w) :=
  h.trans ⟨rfl, fun _ hb => s.reg_setReg_ne w (ne_of_mem_of_not_mem ha hb)⟩
theorem State.onlyRegs.wr {f : Fld} {n : Nat} (h : s0.onlyRegs l s) (hf : f.addr ∈ l) : s0.onlyRegs l (s.wr f n) := h.setReg hf
theorem State.onlyRegs.ite {t : State} {p : Prop} [Decidable p] (h : p → s0.onlyRegs l s) (k : ¬p → s0.onlyRegs l t) :
    s0.onlyRegs l (if p then s else t) := by
  split
  · exact h ‹_›
  · exact k ‹_›
theorem State.onlyRegs.foldl {α : Type} {xs : List α} {f : State → α → State} (h : s0.onlyRegs l s)
    (k : ∀ t, s0.onlyRegs l t → ∀ x ∈ xs, s0.onlyRegs l (f t x)) : s0.onlyRegs l (xs.foldl f s) :=
  List.foldlRecOn (motive := s0.onlyRegs l) xs f h k
/-- What a command answers is the next state. -/
theorem onlyRegs_of_next {t u : State} (e : (.next u : Outcome State Fault Refusal) = .next t) (h : s.onlyRegs l u) : s.onlyRegs l t := by
  cases e
  exact h
theorem State.onRind_onlyRegs {k : State → State} (h : s.onlyRegs l (k s)) : s.onlyRegs l (s.onRind k) := .ite (fun _ => h) fun _ => .refl l s
end
/-- The register of a listed element is among those of the list, whose elements stand there by number. -/
theorem mem_map_val {n : Nat} {l : List (Fin n)} {x : Fin n} (g : Nat → Nat) (h : x ∈ l) : g x ∈ List.map g (do let a ← l; pure a.val) :=
  List.mem_map_of_mem (by simpa using ⟨x, h, rfl⟩)

/-! ### The manager port's lanes (O24) -/

theorem mgrSync_addr (m : Fin 2) : (mgrSync m).addr = F.LANE_M_STATUS_at := by
  unfold mgrSync
  split <;> rfl
theorem State.onlyRegs.wr_mgrSync {l : List Nat} {s0 s : State} {m : Fin 2} {n : Nat} (h : s0.onlyRegs l s) (hl : F.LANE_M_STATUS_at ∈ l) :
    s0.onlyRegs l (s.wr (mgrSync m) n) := h.wr (by rw [mgrSync_addr]; exact hl)
theorem execMgrFrameReceive_onlyRegs {s t : State} {x2 whole : Bool} {skip0 skip1 : BitVec 16}
    (e : execMgrFrameReceive x2 whole skip0 skip1 s = .next t) :
    s.onlyRegs [F.LANE_M_ERR_at 0, F.LANE_M_ERR_at 1, F.LANE_M_STATUS_at, F.LANE_M_FRAMES_at] t := by
  refine onlyRegs_of_next e ?_
  extract_lets u v
  have hu : s.onlyRegs [F.LANE_M_ERR_at 0, F.LANE_M_ERR_at 1, F.LANE_M_STATUS_at, F.LANE_M_FRAMES_at] u :=
    .wr (.wr (.refl _ s) (.head _)) (.tail _ (.head _))
  have hv : s.onlyRegs [F.LANE_M_ERR_at 0, F.LANE_M_ERR_at 1, F.LANE_M_STATUS_at, F.LANE_M_FRAMES_at] v :=
    .wr hu (.tail _ (.tail _ (.head _)))
  have hframes : F.LANE_M_FRAMES_at ∈ [F.LANE_M_ERR_at 0, F.LANE_M_ERR_at 1, F.LANE_M_STATUS_at, F.LANE_M_FRAMES_at] := by simp
  exact .ite (fun _ => .wr hv hframes) fun _ => .wr hv hframes
theorem execMgrSyncGain_onlyRegs {s t : State} {m : Fin 2} (e : execMgrSyncGain m s = .next t) : s.onlyRegs [F.LANE_M_STATUS_at] t := by
  refine onlyRegs_of_next e ?_
  have h : s.onlyRegs [F.LANE_M_STATUS_at] (s.wr (mgrSync m) 1) := .wr_mgrSync (.refl _ s) (.head _)
  refine .ite (fun _ => h) fun _ => ?_
  split
  · exact .wr h (.head _)
  · exact .wr h (.head _)
  · exact .ite (fun _ => .wr h (.head _)) fun _ => h
theorem execMgrSyncLoss_onlyRegs {s t : State} {m : Fin 2} {viol disp : BitVec 16} (e : execMgrSyncLoss m viol disp s = .next t) :
    s.onlyRegs [F.LANE_M_STATUS_at, F.LANE_M_ERR_at m] t := by
  refine onlyRegs_of_next e ?_
  have herr : F.LANE_M_ERR_at m ∈ [F.LANE_M_STATUS_at, F.LANE_M_ERR_at m] := .tail _ (.head _)
  extract_lets u
  have hu : s.onlyRegs [F.LANE_M_STATUS_at, F.LANE_M_ERR_at m] u := .wr (.wr (.refl _ s) herr) herr
  exact .ite (fun _ => .wr (.wr_mgrSync hu (.head _)) herr) fun _ => hu
theorem execMgrWidthFallback_onlyRegs {s t : State} {m : Fin 2} (e : execMgrWidthFallback m s = .next t) :
    s.onlyRegs [F.LANE_M_STATUS_at] t :=
  onlyRegs_of_next e (.ite (fun _ => .wr (.refl _ s) (.head _)) fun _ => .refl _ s)
theorem execMgrWidthRestoreX2_onlyRegs {s t : State} (e : execMgrWidthRestoreX2 s = .next t) : s.onlyRegs [F.LANE_M_STATUS_at] t :=
  onlyRegs_of_next e (.ite (fun _ => .wr (.refl _ s) (.head _)) fun _ => .refl _ s)
theorem execMgrLoopWrite_sp_onlyRegs {s t : State} {v : Bool} (e : execMgrLoopWrite .sp v s = .next t) :
    s.onlyRegs [F.LANE_M_CTRL_at] t :=
  onlyRegs_of_next e (.wr (f := F.LANE_M_CTRL_LOOP) (n := v.toNat) (.refl _ s) (.head _))

/-! ### Power entry (O24) -/

theorem feedFld_addr (f : Nat) : (feedFld f).addr = F.RIND_PWR_STATUS_at := by
  unfold feedFld
  split <;> rfl
section
variable {l : List Nat} {s0 s : State} (h : s0.onlyRegs l s) (hs : F.RIND_PWR_STATUS_at ∈ l) (hb : F.RIND_PWR_BUS_at ∈ l)
include h
theorem State.onlyRegs.lower {f : Fld} {v : Nat} (hf : f.addr ∈ l) : s0.onlyRegs l (s.lower f v) := .ite (fun _ => .wr h hf) fun _ => h
include hs
theorem State.onlyRegs.setCtrl {n : Nat} : s0.onlyRegs l (s.setCtrl n) := .wr h hs
theorem State.onlyRegs.tryDebounce : s0.onlyRegs l s.tryDebounce := .ite (fun _ => .setCtrl h hs) fun _ => h
include hb
theorem State.onlyRegs.showPower : s0.onlyRegs l s.showPower := .wr (.wr h hb) hs
theorem State.onlyRegs.setFeed {f st v : Nat} (hf : F.RIND_PWR_FEED_at f ∈ l) : s0.onlyRegs l (s.setFeed f st v) := by
  have hst : s0.onlyRegs l ((s.wr (feedFld f) st).wr (F.RIND_PWR_FEED_V_NOW f) v) := .wr (.wr h (by rw [feedFld_addr]; exact hs)) hf
  exact .showPower (.ite (fun _ => .lower hst hf) fun _ => hst) hs hb
theorem State.onlyRegs.feedCurrent {f i : Nat} (hf : F.RIND_PWR_FEED_at f ∈ l) : s0.onlyRegs l (s.feedCurrent f i) :=
  .showPower (.wr (.wr h hf) hf) hs hb
theorem State.onlyRegs.gatesOff {st : Nat} : s0.onlyRegs l (s.gatesOff st) := .showPower (.wr (.setCtrl h hs) hs) hs hb
end
/-- The registers that a trip of the ramp writes (R388, R389, R393). -/
abbrev rampTripRegs (f : Nat) : List Nat :=
  [F.RIND_PWR_STATUS_at, F.RIND_PWR_FEED_at f, F.RIND_PWR_BUS_at, F.RIND_PWR_TIMER_at, F.RIND_PWR_EVT_at, F.RIND_PWR_LAST_at]
/-- A trip outside ON is no loss of the feeds, and writes registers of the power entry only (R393). -/
theorem State.onlyRegs.trip {s0 s : State} {f cause : Nat} (h : s0.onlyRegs (rampTripRegs f) s) (hc : s.ctrl ≠ 3) :
    s0.onlyRegs (rampTripRegs f) (s.trip cause) := by
  have hs : F.RIND_PWR_STATUS_at ∈ rampTripRegs f := by simp
  have hb : F.RIND_PWR_BUS_at ∈ rampTripRegs f := by simp
  have ht : F.RIND_PWR_TIMER_at ∈ rampTripRegs f := by simp
  have hl : F.RIND_PWR_LAST_at ∈ rampTripRegs f := by simp
  have hoff : (s.ctrl == 3) = false := by simpa using hc
  unfold State.trip
  rw [hoff]
  extract_lets on n u v w
  have hu : s0.onlyRegs (rampTripRegs f) u := .wr (.wr (.wr h hl) hl) hl
  have hv : s0.onlyRegs (rampTripRegs f) v := .wr (.wr hu hs) ht
  have hw : s0.onlyRegs (rampTripRegs f) w := .ite (fun _ => .wr (.gatesOff hv hs hb) hs) fun _ => .wr (.gatesOff hv hs hb) hs
  exact .ite nofun fun _ => hw
theorem State.ctrl_wr_apart {s : State} {f : Fld} {n : Nat} (h : f.apart F.RIND_PWR_STATUS_CTRL_STATE = true) : (s.wr f n).ctrl = s.ctrl :=
  s.rd_wr_apart n h
theorem State.feedCurrent_ctrl (s : State) (f : Fin 2) (i : Nat) : (s.feedCurrent f i).ctrl = s.ctrl := by
  have hnow : (F.RIND_PWR_FEED_I_NOW f).apart F.RIND_PWR_STATUS_CTRL_STATE = true := by revert f; decide
  have hpeak : (F.RIND_PWR_FEED_I_PEAK f).apart F.RIND_PWR_STATUS_CTRL_STATE = true := by revert f; decide
  rw [State.feedCurrent, State.showPower, State.ctrl_wr_apart (by decide), State.ctrl_wr_apart (by decide), State.raise,
    State.ctrl_wr_apart hpeak, State.ctrl_wr_apart hnow]
theorem execRampTrip_onlyRegs {s t : State} {f : Fin 2} {i : BitVec 16} {c : Instr}
    (hc : c ∈ [Instr.rampTimeout, .shortDetect, .rampComparatorTrip f i]) (e : exec c s = .next t) : s.onlyRegs (rampTripRegs f) t := by
  have hevt : F.RIND_PWR_EVT_at ∈ rampTripRegs f := by simp
  have hfail : s.onlyRegs (rampTripRegs f) (s.sat F.RIND_PWR_EVT_RAMP_FAIL) := .wr (.refl _ s) hevt
  have hfast : s.onlyRegs (rampTripRegs f) ((s.feedCurrent f i.toNat).sat F.RIND_PWR_EVT_FAST) :=
    .wr (.feedCurrent (.refl _ s) (.head _) (.tail _ (.tail _ (.head _))) (.tail _ (.head _))) hevt
  have hfailCtrl : (s.sat F.RIND_PWR_EVT_RAMP_FAIL).ctrl = s.ctrl := State.ctrl_wr_apart (by decide)
  have hfastCtrl : ((s.feedCurrent f i.toNat).sat F.RIND_PWR_EVT_FAST).ctrl = s.ctrl :=
    (State.ctrl_wr_apart (by decide)).trans (s.feedCurrent_ctrl f _)
  simp only [List.mem_cons, List.not_mem_nil, or_false] at hc
  rcases hc with rfl | rfl | rfl
  · exact onlyRegs_of_next e (State.onRind_onlyRegs (.ite (fun h => .trip hfail (by rw [hfailCtrl, h]; decide)) fun _ => .refl _ s))
  · exact onlyRegs_of_next e (State.onRind_onlyRegs (.ite (fun h => .trip hfail (by rw [hfailCtrl, h]; decide)) fun _ => .refl _ s))
  · exact onlyRegs_of_next e (State.onRind_onlyRegs (.ite (fun h => .trip hfast (by rw [hfastCtrl, h]; decide)) fun _ => .refl _ s))
theorem execSenseMated_onlyRegs {s t : State} (e : execSenseMated s = .next t) : s.onlyRegs [F.RIND_PWR_STATUS_at] t :=
  onlyRegs_of_next e (State.onRind_onlyRegs (.tryDebounce (.wr (.wr (.wr (.refl _ s) (.head _)) (.head _)) (.head _)) (.head _)))
theorem execDebounceExpiry_onlyRegs {s t : State} (e : execDebounceExpiry s = .next t) :
    s.onlyRegs [F.RIND_PWR_STATUS_at, F.RIND_PWR_BUS_at] t :=
  onlyRegs_of_next e (State.onRind_onlyRegs (.ite (fun _ => .showPower (.setCtrl (.refl _ s) (.head _)) (.head _) (.tail _ (.head _)))
    fun _ => .refl _ s))
theorem execRampComplete_onlyRegs {s t : State} {v : BitVec 16} (e : execRampComplete v s = .next t) :
    s.onlyRegs [F.RIND_PWR_STATUS_at, F.RIND_PWR_BUS_at] t := by
  have hb : F.RIND_PWR_BUS_at ∈ [F.RIND_PWR_STATUS_at, F.RIND_PWR_BUS_at] := .tail _ (.head _)
  have hon : s.onlyRegs [F.RIND_PWR_STATUS_at, F.RIND_PWR_BUS_at] ((s.setCtrl 3).wr F.RIND_PWR_STATUS_GATE_ON 1) :=
    .wr (.setCtrl (.refl _ s) (.head _)) (.head _)
  exact onlyRegs_of_next e (State.onRind_onlyRegs (.ite (fun _ => .showPower (.lower (.wr hon hb) hb) (.head _) hb) fun _ => .refl _ s))
theorem execTripWaitExpiry_onlyRegs {s t : State} (e : execTripWaitExpiry s = .next t) :
    s.onlyRegs [F.RIND_PWR_STATUS_at, F.RIND_PWR_BUS_at, F.RIND_PWR_EVT_at] t :=
  onlyRegs_of_next e (State.onRind_onlyRegs (.ite (fun _ => .refl _ s) fun _ => .ite
    (fun _ => .showPower (.wr (.setCtrl (.refl _ s) (.head _)) (.tail _ (.tail _ (.head _)))) (.head _) (.tail _ (.head _)))
    fun _ => .setCtrl (.refl _ s) (.head _)))
theorem execLatchClearEnableCycle_onlyRegs {s t : State} (e : execLatchClearEnableCycle s = .next t) :
    s.onlyRegs [F.RIND_PWR_STATUS_at] t := by
  refine onlyRegs_of_next e (State.onRind_onlyRegs ?_)
  have h : s.onlyRegs [F.RIND_PWR_STATUS_at] (s.wr F.RIND_PWR_STATUS_ENABLE 1) := .wr (.refl _ s) (.head _)
  dsimp only
  split
  · exact h
  · exact h
  · exact h
  · exact .wr (.wr (.setCtrl h (.head _)) (.head _)) (.head _)
  · exact .wr h (.head _)
theorem execRetryCountClear_onlyRegs {s t : State} (e : execRetryCountClear s = .next t) : s.onlyRegs [F.RIND_PWR_STATUS_at] t :=
  onlyRegs_of_next e (State.onRind_onlyRegs (.ite (fun _ => .wr (.refl _ s) (.head _)) fun _ => .refl _ s))
theorem execPwrgdAssert_onlyRegs {s t : State} (e : execPwrgdAssert s = .next t) : s.onlyRegs [F.RIND_PWR_STATUS_at] t :=
  onlyRegs_of_next e (State.onRind_onlyRegs (.ite (fun _ => .wr (.wr (.wr (.refl _ s) (.head _)) (.head _)) (.head _)) fun _ => .refl _ s))
theorem execFeedValid_onlyRegs {s t : State} {f : Fin 2} {v : BitVec 16} (e : execFeedValid f v s = .next t) :
    s.onlyRegs [F.RIND_PWR_STATUS_at, F.RIND_PWR_FEED_at f, F.RIND_PWR_BUS_at] t :=
  onlyRegs_of_next e (State.onRind_onlyRegs
    (.tryDebounce (.setFeed (.refl _ s) (.head _) (.tail _ (.tail _ (.head _))) (.tail _ (.head _))) (.head _)))
theorem execIdealDiodeReverseOff_onlyRegs {s t : State} {f : Fin 2} (e : execIdealDiodeReverseOff f s = .next t) :
    s.onlyRegs [F.RIND_PWR_STATUS_at, F.RIND_PWR_FEED_EVT_at] t := by
  have hcount : (if f = 0 then F.RIND_PWR_FEED_EVT_REV_OFF_A else F.RIND_PWR_FEED_EVT_REV_OFF_B).addr = F.RIND_PWR_FEED_EVT_at := by
    split <;> rfl
  exact onlyRegs_of_next e (State.onRind_onlyRegs (.wr (.wr (.refl _ s) (by rw [hcount]; simp)) (.head _)))
theorem State.clrPeak_onlyRegs (s : State) :
    s.onlyRegs [F.RIND_PWR_FEED_at 0, F.RIND_PWR_FEED_at 1, F.RIND_PWR_BUS_at, F.RIND_PWR_TIMER_at] s.clrPeak := by
  refine .wr (.wr (.foldl (.refl _ s) fun u hu f hf => ?_) (.tail _ (.tail _ (.head _)))) (.tail _ (.tail _ (.tail _ (.head _))))
  have hfeed : F.RIND_PWR_FEED_at f ∈ [F.RIND_PWR_FEED_at 0, F.RIND_PWR_FEED_at 1, F.RIND_PWR_BUS_at, F.RIND_PWR_TIMER_at] := by
    rcases List.mem_pair.1 hf with rfl | rfl <;> simp
  exact .wr (.wr hu hfeed) hfeed
theorem execClrPeak_sp_onlyRegs {s t : State} (e : execClrPeak .sp s = .next t) :
    s.onlyRegs [F.RIND_PWR_FEED_at 0, F.RIND_PWR_FEED_at 1, F.RIND_PWR_BUS_at, F.RIND_PWR_TIMER_at] t :=
  onlyRegs_of_next e (State.onRind_onlyRegs s.clrPeak_onlyRegs)

/-! ### Clocks and sleep (O24) -/

/-- The clock status, and the PLL status of the eight dies (R400). -/
abbrev clockRegs : List Nat := F.RIND_CLK_STATUS_at :: (List.range 8).map F.DIE_PLL_STATUS_at
/-- PLLs in one state move to another as the crystal fails or comes back (R400). -/
theorem State.onlyRegs.movePlls {s0 s : State} {old new_ : Nat} (h : s0.onlyRegs clockRegs s) : s0.onlyRegs clockRegs ((List.range 8).foldl
    (fun (s : State) d => if s.rd (F.DIE_PLL_STATUS_STATE d) = old then s.wr (F.DIE_PLL_STATUS_STATE d) new_ else s) s) := by
  refine .foldl h fun u hu d hd => ?_
  have hreg : F.DIE_PLL_STATUS_at d ∈ clockRegs := .tail _ (List.mem_map_of_mem hd)
  exact .ite (fun _ => .wr hu hreg) fun _ => hu
theorem execXtal_onlyRegs {s t : State} {c : Instr} (hc : c ∈ [Instr.xtalLoss, .xtalRestore]) (e : exec c s = .next t) :
    s.onlyRegs clockRegs t := by
  have hclk : ∀ n, s.onlyRegs clockRegs (((s.wr F.RIND_CLK_STATUS_XTAL_LOST n).wr F.RIND_CLK_STATUS_RIND_INT n).wr F.RIND_CLK_STATUS_MGR_HOLD n) :=
    fun n => .wr (.wr (.wr (.refl _ s) (.head _)) (.head _)) (.head _)
  rcases List.mem_pair.1 hc with rfl | rfl
  · exact onlyRegs_of_next e (State.onRind_onlyRegs (.movePlls (.wr (hclk 1) (.head _))))
  · exact onlyRegs_of_next e (State.onRind_onlyRegs (.movePlls (hclk 0)))
theorem execRtcXtalLoss_onlyRegs {s t : State} (e : execRtcXtalLoss s = .next t) : s.onlyRegs [F.RIND_CLK_STATUS_at] t :=
  onlyRegs_of_next e (State.onRind_onlyRegs (.wr (.refl _ s) (.head _)))
theorem State.rtcWrite_onlyRegs (s : State) (v : Nat) : s.onlyRegs [F.RIND_RTC_at] (s.rtcWrite v) := .wr (.wr (.refl _ s) (.head _)) (.head _)
theorem execRtcWrite_sp_onlyRegs {s t : State} {v : BitVec 32} (e : execRtcWrite .sp v s = .next t) : s.onlyRegs [F.RIND_RTC_at] t :=
  onlyRegs_of_next e (State.onRind_onlyRegs (s.rtcWrite_onlyRegs v.toNat))
theorem execSleepClrMax_sp_onlyRegs {s t : State} (e : execSleepClrMax .sp s = .next t) : s.onlyRegs [F.RIND_SLEEP_STATUS_at] t :=
  onlyRegs_of_next e (State.onRind_onlyRegs (.wr (f := F.RIND_SLEEP_STATUS_WAKE_MAX_NS) (n := 0) (.refl _ s) (.head _)))
theorem execDrainedReport_onlyRegs {s t : State} {c : Cell} (e : execDrainedReport c s = .next t) : s.onlyRegs [F.SCRIM_RTR_STATUS_at c] t :=
  onlyRegs_of_next e (.ite (fun _ => .wr (.wr (.refl _ s) (.head _)) (.head _)) fun _ => .refl _ s)
theorem execRetentionIdle_onlyRegs {s t : State} {c : Cell} (e : execRetentionIdle c s = .next t) :
    s.onlyRegs ((s.portMembers c).map (fun m => F.SCRIM_RTR_STATUS_at m)) t := by
  refine onlyRegs_of_next e (.ite (fun _ => .refl _ s) fun _ => .foldl (.refl _ s) fun u hu m hm => ?_)
  have hreg := mem_map_val F.SCRIM_RTR_STATUS_at hm
  have hdrain := State.onlyRegs.wr (f := F.SCRIM_RTR_STATUS_DRAIN_STATE m) (n := 1) hu hreg
  exact .ite (fun _ => hdrain) fun _ => .wr hdrain hreg

/-! ### Ports, routers and edges (O24) -/

theorem State.portWidth_wr {s : State} {f : Fld} (h : ∀ a, f.addr ≠ F.XBAR_STATUS_at a) (n : Nat) (c : Cell) :
    (s.wr f n).portWidth c = s.portWidth c := by
  rw [State.portWidth, State.portCells, s.rd_wr_ne n (g := F.XBAR_STATUS_WIDTH c) (h c)]
  rfl
theorem execRefclkReturn_onlyRegs {s t : State} {d : Die} (e : execRefclkReturn d s = .next t) :
    s.onlyRegs ((s.dieAnchors d).map (fun a => F.LANE_PORT_STATUS_at a)) t := by
  refine onlyRegs_of_next e (.foldl (.refl _ s) fun u hu a ha => ?_)
  have hreg := List.mem_map_of_mem (f := F.LANE_PORT_STATUS_at) ha
  exact .wr hu hreg
theorem execL1Entry_onlyRegs {s t : State} {c : Cell} (e : execL1Entry c s = .next t) :
    s.onlyRegs (F.LANE_PORT_STATUS_at c :: (List.range (s.portWidth c)).map (fun j => F.LANE_STATUS_at (4 * c.val + j))) t := by
  refine onlyRegs_of_next e (.ite (fun _ => ?_) fun _ => .refl _ s)
  have hwidth : (s.wr (F.LANE_PORT_STATUS_STATE c) 5).portWidth c = s.portWidth c :=
    State.portWidth_wr (fun a => by simp only [F.LANE_PORT_STATUS_STATE, F.LANE_PORT_STATUS_at, F.XBAR_STATUS_at]; omega) 5 c
  rw [State.lanePwr, hwidth]
  refine .foldl (.wr (.refl _ s) (.head _)) fun u hu j hj => ?_
  have hreg := List.mem_map_of_mem (f := fun j => F.LANE_STATUS_at (4 * c.val + j)) hj
  exact .ite (fun _ => .wr hu (.tail _ hreg)) fun _ => hu
theorem execLanePrbsStatRead_sp_onlyRegs {s t : State} {l : Lane} (e : execLanePrbsStatRead .sp l s = .next t) :
    s.onlyRegs [F.LANE_PRBS_BITS_at l] t :=
  onlyRegs_of_next e (.wr (f := F.LANE_PRBS_BITS_BITS l) (n := s.bitsCompared l) (.refl _ s) (.head _))
theorem execLathLpEntry_onlyRegs {s t : State} {d : Die} {x : Fin 4} (e : execLathLpEntry d x s = .next t) :
    s.onlyRegs [F.DIE_LATH_STATUS_at d x, F.DIE_LATH_STATUS_at (facing d x) ((x.val + 2) % 4)] t :=
  onlyRegs_of_next e (.ite (fun _ => .wr (.wr (.refl _ s) (.head _)) (.tail _ (.head _))) fun _ => .refl _ s)

/-! ### Marks, views and snapshots (O24) -/

theorem execXbarClrHwm_onlyRegs {s t : State} {c : Cell} (e : execXbarClrHwm c s = .next t) : s.onlyRegs [F.XBAR_TRACK_at c] t :=
  onlyRegs_of_next e (.wr (.refl _ s) (.head _))
theorem execHomeTtClrHwm_onlyRegs {s t : State} {c : Cell} (e : execHomeTtClrHwm c s = .next t) : s.onlyRegs [F.HOME_TT_at c] t :=
  onlyRegs_of_next e (.wr (.refl _ s) (.head _))
theorem execHomeProxyClrHwm_onlyRegs {s t : State} {c : Cell} (e : execHomeProxyClrHwm c s = .next t) :
    s.onlyRegs [F.HOME_PROXY_STATUS_at c] t :=
  onlyRegs_of_next e (.wr (.refl _ s) (.head _))
theorem execTakeoverQuiesceComplete_onlyRegs {s t : State} (e : execTakeoverQuiesceComplete s = .next t) :
    s.onlyRegs ((s.takingOver 1).map (fun c => F.HOME_TAKE_at c)) t := by
  refine onlyRegs_of_next e (.foldl (.refl _ s) fun u hu c hc => ?_)
  have hreg := List.mem_map_of_mem (f := F.HOME_TAKE_at) hc
  exact .wr hu hreg
/-- The fields of SPILL_CTX_VIEW0 to VIEW2 of a cell, and what a context shows there, in the order of capture (Table 4-7). -/
def SpillCtx.view (x : SpillCtx) (c : Cell) : List (Fld × Nat) :=
  [(F.SPILL_CTX_VIEW0_ACTIVE c, 1), (F.SPILL_CTX_VIEW0_IN c, x.inp), (F.SPILL_CTX_VIEW0_OUT c, x.out), (F.SPILL_CTX_VIEW0_TC c, x.tc),
    (F.SPILL_CTX_VIEW0_FSEQ_WR c, x.fseqWr), (F.SPILL_CTX_VIEW0_FSEQ_RD c, x.fseqRd), (F.SPILL_CTX_VIEW1_STACK c, x.stack),
    (F.SPILL_CTX_VIEW1_HEAD_CHUNK c, x.headChunk), (F.SPILL_CTX_VIEW1_HEAD_WORD c, x.headWord), (F.SPILL_CTX_VIEW1_TAIL_CHUNK c, x.tailChunk),
    (F.SPILL_CTX_VIEW1_TAIL_WORD c, x.tailWord), (F.SPILL_CTX_VIEW1_HEAD_REG c, x.headReg.toNat), (F.SPILL_CTX_VIEW1_FETCH_OUT c, x.fetch.toNat),
    (F.SPILL_CTX_VIEW2_FRAMES c, min 0xFFFFFF (x.committed.length - x.fetch.toNat)), (F.SPILL_CTX_VIEW2_CHUNKS c, x.chunks.length)]
/-- Stores values into fields, one after the other. -/
def State.wrAll (s : State) (l : List (Fld × Nat)) : State := l.foldl (fun s e => s.wr e.1 e.2) s
theorem State.captureSpillViews_none {s : State} {c : Cell} (h : s.sctx c (s.rd (F.SPILL_CTX_SEL_CTX c)) = none) : s.captureSpillViews c =
    ((s.setReg (F.SPILL_CTX_VIEW0_at c) 0).setReg (F.SPILL_CTX_VIEW1_at c) 0).setReg (F.SPILL_CTX_VIEW2_at c) 0 := by
  simp only [State.captureSpillViews, h]
theorem State.captureSpillViews_some {s : State} {c : Cell} {x : SpillCtx} (h : s.sctx c (s.rd (F.SPILL_CTX_SEL_CTX c)) = some x) :
    s.captureSpillViews c = (s.setReg (F.SPILL_CTX_VIEW0_at c) 0).wrAll (x.view c) := by
  simp only [State.captureSpillViews, h]
  rfl
theorem SpillCtx.view_addr {x : SpillCtx} {c : Cell} {e : Fld × Nat} (h : e ∈ x.view c) :
    e.1.addr ∈ [F.SPILL_CTX_VIEW0_at c, F.SPILL_CTX_VIEW1_at c, F.SPILL_CTX_VIEW2_at c] := by
  have hall : (x.view c).map (fun e => e.1.addr) = List.replicate 6 (F.SPILL_CTX_VIEW0_at c) ++ List.replicate 7 (F.SPILL_CTX_VIEW1_at c)
      ++ List.replicate 2 (F.SPILL_CTX_VIEW2_at c) := rfl
  have he := List.mem_map_of_mem (f := fun e : Fld × Nat => e.1.addr) h
  rw [hall] at he
  simpa [or_assoc] using he
theorem execSpillCtxView0Read_onlyRegs {s t : State} {c : Cell} (e : execSpillCtxView0Read c s = .next t) :
    s.onlyRegs [F.SPILL_CTX_VIEW0_at c, F.SPILL_CTX_VIEW1_at c, F.SPILL_CTX_VIEW2_at c] t := by
  refine onlyRegs_of_next e ?_
  cases h : s.sctx c (s.rd (F.SPILL_CTX_SEL_CTX c)) with
  | none =>
    rw [State.captureSpillViews_none h]
    exact .setReg (.setReg (.setReg (.refl _ s) (.head _)) (.tail _ (.head _))) (.tail _ (.tail _ (.head _)))
  | some x =>
    rw [State.captureSpillViews_some h]
    exact .foldl (.setReg (.refl _ s) (.head _)) fun _ hu _ he => .wr hu (SpillCtx.view_addr he)
theorem State.instSnap_onlyRegs (s : State) (i : Nat) : s.onlyRegs [F.INST_CTR_READS_at i, F.INST_CTR_WRITES_at i, F.INST_CTR_RD_LAT_at i,
    F.INST_CTR_HOLD_NS_at i, F.INST_CTR_THROTTLE_NS_at i, F.INST_CTR_TIME_at i] (s.instSnap i) := by
  refine .wr (.wr (.wr (.wr (.wr (.wr (.refl _ s) ?_) ?_) ?_) ?_) ?_) ?_
  · exact .head _
  · exact .tail _ (.head _)
  · exact .tail _ (.tail _ (.head _))
  · exact .tail _ (.tail _ (.tail _ (.head _)))
  · exact .tail _ (.tail _ (.tail _ (.tail _ (.head _))))
  · exact .tail _ (.tail _ (.tail _ (.tail _ (.tail _ (.head _)))))
theorem execInstCtrSnap_tenant_onlyRegs {s t : State} {i : Inst} (e : execInstCtrSnap none i s = .next t) :
    s.onlyRegs [F.INST_CTR_READS_at i, F.INST_CTR_WRITES_at i, F.INST_CTR_RD_LAT_at i,
      F.INST_CTR_HOLD_NS_at i, F.INST_CTR_THROTTLE_NS_at i, F.INST_CTR_TIME_at i] t :=
  onlyRegs_of_next e (.ite (fun _ => s.instSnap_onlyRegs i) fun _ => .refl _ s)
theorem execCtrSnapAtReached_onlyRegs {s t : State} {c : Cell} (e : execCtrSnapAtReached c s = .next t) :
    s.onlyRegs (F.CTR_CTL_at c :: F.CTR_SNAP_TIME_at c :: (List.range 8).map (F.CTR_SNAPVAL_at c)) t := by
  refine onlyRegs_of_next e (.ite (fun _ => .wr (.wr (.foldl (.refl _ s) fun u hu n hn => ?_) (.tail _ (.head _))) (.head _)) fun _ => .refl _ s)
  have hreg := List.mem_map_of_mem (f := F.CTR_SNAPVAL_at c) hn
  exact .wr hu (.tail _ (.tail _ hreg))

/-! ### The frames together (O24) -/

/-- Settles O24: each command's frame is the lemma on its exec named here. -/
theorem registerOnlyFrames : Obligations.RegisterOnlyFrames := by
  intro s t
  refine ⟨fun _ _ _ _ => execMgrFrameReceive_onlyRegs, fun _ => execMgrSyncGain_onlyRegs, fun _ _ _ => execMgrSyncLoss_onlyRegs,
    fun _ => execMgrWidthFallback_onlyRegs, execMgrWidthRestoreX2_onlyRegs, fun _ => execMgrLoopWrite_sp_onlyRegs, execSenseMated_onlyRegs,
    execDebounceExpiry_onlyRegs, fun _ => execRampComplete_onlyRegs, fun _ _ _ => execRampTrip_onlyRegs, execTripWaitExpiry_onlyRegs,
    fun c hc => ?status, fun _ _ => execFeedValid_onlyRegs, fun _ => execIdealDiodeReverseOff_onlyRegs, execClrPeak_sp_onlyRegs,
    fun _ => execXtal_onlyRegs, execRtcXtalLoss_onlyRegs, fun _ => execRtcWrite_sp_onlyRegs, execSleepClrMax_sp_onlyRegs,
    fun _ => execRefclkReturn_onlyRegs, fun _ => execL1Entry_onlyRegs, fun _ => execLanePrbsStatRead_sp_onlyRegs,
    fun _ => execDrainedReport_onlyRegs, fun _ => execRetentionIdle_onlyRegs, fun _ _ => execLathLpEntry_onlyRegs,
    fun _ => execXbarClrHwm_onlyRegs, fun _ => execSpillCtxView0Read_onlyRegs, fun _ => execHomeTtClrHwm_onlyRegs,
    fun _ => execHomeProxyClrHwm_onlyRegs, execTakeoverQuiesceComplete_onlyRegs, fun _ => execInstCtrSnap_tenant_onlyRegs,
    fun _ => execCtrSnapAtReached_onlyRegs⟩
  case status =>
    simp only [List.mem_cons, List.not_mem_nil, or_false] at hc
    rcases hc with rfl | rfl | rfl
    · exact execLatchClearEnableCycle_onlyRegs
    · exact execRetryCountClear_onlyRegs
    · exact execPwrgdAssert_onlyRegs

end Sys2Proof.Machine

namespace Sys2Proof.Machine
open Host (Outcome)

/-! ### Requests of a host (O5) -/

theorem mgetD_mmod_self {V : Type} [DecidableEq V] (d : V) (m : NMap V) (a : Nat) (f : V → V) : mgetD d (mmod d m a f) a = f (mgetD d m a) :=
  mgetD_mset_self d m a _
theorem execHostRequestReceive_pass {a : Cell} {r : HostReq} {s t : State} (hm : s.mode ≠ .safeStop) (h : s.hostPass a r = some t)
    (hp : s.pool.paused.contains a.val = false) :
    execHostRequestReceive a r s = .next (t.xingPass (F.SPILL_XING_CELL_at a 0) (HostReq.entries r)) := by
  unfold execHostRequestReceive
  rw [if_neg hm, h]
  dsimp only
  rw [hp]
  rfl
theorem execHostRequestReceive_held {a : Cell} {r : HostReq} {s : State} (hm : s.mode ≠ .safeStop) (h : s.hostPass a r = none) :
    execHostRequestReceive a r s = .next ((s.enterHold a r).xingPass (F.SPILL_XING_CELL_at a 0) (HostReq.entries r)) := by
  unfold execHostRequestReceive
  rw [if_neg hm, h]
/-- A request joins the hold of its port (R240). -/
def State.putHeld (s : State) (a : Cell) (h : Held) : State :=
  State.inc { s with pool.hold := mmod [] s.pool.hold a.val (fun l => l ++ [h]) } (F.INST_PORT_STATUS_HOLD_USED a)
/-- The hold counts a request for the tenant it names, and notes a stray (R240, R247). -/
def State.countHeld (s : State) (a : Cell) (i : Inst) (stray : Bool) : State :=
  State.creditUpdate (State.inc (if stray then (s.sat (F.INST_MIG_STATUS_STRAY i)).logEvent .strayRead i a.val else s) (F.INST_USE_HELD i)) a i
theorem State.enterHold_adds {s : State} {a : Cell} (r : HostReq) (h : s.rd (F.INST_PORT_STATUS_HOLD_USED a) < 1024) :
    ∃ x, s.enterHold a r = s.putHeld a x ∨ ∃ i stray, s.enterHold a r = (s.putHeld a x).countHeld a i stray := by
  unfold State.enterHold
  rw [if_neg (by omega)]
  extract_lets d i priv stray line p h0 x
  refine ⟨x, ?_⟩
  split
  · exact .inr ⟨i, stray, rfl⟩
  · exact .inl rfl
theorem State.putHeld_length (s : State) (a : Cell) (x : Held) :
    (mgetD [] (s.putHeld a x).pool.hold a.val).length = (mgetD [] s.pool.hold a.val).length + 1 := by
  have h : mgetD [] (s.putHeld a x).pool.hold a.val = mgetD [] s.pool.hold a.val ++ [x] :=
    mgetD_mmod_self [] s.pool.hold a.val (fun l => l ++ [x])
  rw [h, List.length_append, List.length_singleton]
/-- The count of held requests has a bit more than the hold has places. -/
theorem State.putHeld_holdUsed {s : State} {a : Cell} (h : s.rd (F.INST_PORT_STATUS_HOLD_USED a) < 1024) (x : Held) :
    (s.putHeld a x).rd (F.INST_PORT_STATUS_HOLD_USED a) = s.rd (F.INST_PORT_STATUS_HOLD_USED a) + 1 := by
  refine (State.rd_inc _ _ (show 32 + 11 ≤ 64 by decide)).trans (Nat.mod_eq_of_lt ?_)
  change s.rd (F.INST_PORT_STATUS_HOLD_USED a) + 1 < 2 ^ 11
  omega
theorem State.countHeld_pool (s : State) (a : Cell) (i : Inst) (stray : Bool) : (s.countHeld a i stray).pool = s.pool := by
  refine Keeps.pool_eq (State.creditUpdate_keeps rfl (State.inc_keeps rfl (ite_keeps (fun _ => ?_) fun _ => Keeps.refl s) _ _) _ _)
  exact State.logEvent_keeps rfl (State.sat_keeps rfl (Keeps.refl s) _ _) _ _ _
theorem State.logEvent_regs (s : State) (k : EventKind) (subj port : Nat) : (s.logEvent k subj port).regs = s.regs :=
  (State.logEvent_keeps (P := 134217725) rfl (Keeps.refl s) k subj port).regs_eq
theorem use_addr_ne_portStatus (a : Cell) (i : Nat) : F.INST_USE_at i ≠ F.INST_PORT_STATUS_at a := by
  simp only [F.INST_USE_at, F.INST_PORT_STATUS_at]
  omega
theorem mig_addr_ne_portStatus (a : Cell) (i : Nat) : F.INST_MIG_STATUS_at i ≠ F.INST_PORT_STATUS_at a := by
  simp only [F.INST_MIG_STATUS_at, F.INST_PORT_STATUS_at]
  omega
theorem State.creditUpdate_holdUsed (s : State) (a : Cell) (i : Nat) :
    (s.creditUpdate a i).rd (F.INST_PORT_STATUS_HOLD_USED a) = s.rd (F.INST_PORT_STATUS_HOLD_USED a) := by
  refine (State.rd_wr_other _ (f := F.INST_PORT_STATUS_CREDIT_CLOSED a) (g := F.INST_PORT_STATUS_HOLD_USED a) _ rfl
    (.inl (show 0 + 1 ≤ 32 by decide)) (show 32 + 11 ≤ 64 by decide)).trans ?_
  exact State.rd_wr_ne _ _ (use_addr_ne_portStatus a i)
theorem State.countHeld_holdUsed (s : State) (a : Cell) (i : Inst) (stray : Bool) :
    (s.countHeld a i stray).rd (F.INST_PORT_STATUS_HOLD_USED a) = s.rd (F.INST_PORT_STATUS_HOLD_USED a) := by
  refine (State.creditUpdate_holdUsed _ a i).trans ((State.rd_wr_ne _ _ (use_addr_ne_portStatus a i)).trans ?_)
  split
  · rw [State.rd_congr (State.logEvent_regs ..)]
    exact State.rd_wr_ne _ _ (mig_addr_ne_portStatus a i)
  · rfl
theorem State.enterHold_counts {s : State} {a : Cell} (r : HostReq) (h : s.rd (F.INST_PORT_STATUS_HOLD_USED a) < 1024) :
    (mgetD [] (s.enterHold a r).pool.hold a.val).length = (mgetD [] s.pool.hold a.val).length + 1 ∧
      (s.enterHold a r).rd (F.INST_PORT_STATUS_HOLD_USED a) = s.rd (F.INST_PORT_STATUS_HOLD_USED a) + 1 := by
  obtain ⟨x, hx | ⟨i, stray, hx⟩⟩ := State.enterHold_adds r h
  · rw [hx]
    exact ⟨s.putHeld_length a x, State.putHeld_holdUsed h x⟩
  · rw [hx, State.countHeld_pool, State.countHeld_holdUsed]
    exact ⟨s.putHeld_length a x, State.putHeld_holdUsed h x⟩

/-! ### Admission (O5) -/

theorem execHoldAdmit_first {a : Cell} {h : Held} {s : State} (hm : s.mode ≠ .safeStop) (hf : s.cellFenced a = false)
    (hc : mgetD 0 s.pool.admitAt a.val ≠ s.cyc + 1)
    (ht : s.nextTurn a (mgetD 0 s.pool.ptrMin a.val) (((heads (mgetD [] s.pool.hold a.val) []).filter
      (fun h => s.eligible a h (s.heldVerdict a h))).filter
        (fun h => h.who < 4096 && s.bwMin h.who > 0 && decide (0 ≤ mgetD 0 s.pool.credMin h.who))) = some h) :
    execHoldAdmit a s = .next (State.letIn { s with
      pool.ptrMin := mset 0 s.pool.ptrMin a.val (s.turnOf a h), pool.admitAt := mset 0 s.pool.admitAt a.val (s.cyc + 1) }
        a h (s.heldVerdict a h)) := by
  unfold execHoldAdmit
  rw [if_neg (by simp [hm, hf, hc])]
  simp only [List.partition_eq_filter_filter, ht]

/-! ### Requests of a pass-through device (O5) -/

theorem execDeviceRequestReceive_other {c : Cell} {r : DevReq} {s : State} (hm : s.mode ≠ .safeStop) (hk : r.kind ≠ .io) :
    execDeviceRequestReceive c r s = .next (s.deviceReceive c r) := by
  unfold execDeviceRequestReceive
  rw [if_neg hm, if_neg (by simp [hk])]
theorem execDeviceRequestReceive_io {c : Cell} {r : DevReq} {s : State} (hm : s.mode ≠ .safeStop) (hd : mgetD [] s.pool.devHeld c.val = []) :
    execDeviceRequestReceive c r s = .next (s.deviceReceive c r) := by
  unfold execDeviceRequestReceive
  rw [if_neg hm, if_neg (by simp [hd])]
section
variable {c : Cell} {r : DevReq} {s : State} {a b : Nat} (hv : s.deviceVcs c = some (a, b)) (hk : r.kind = .io)
include hv hk
theorem State.deviceReceive_paused {i : Inst} {dpa : Nat} (hd : s.decode (Cell.of a) r.hpa.toNat = some (i, dpa)) (hp : s.pausedAt c i = true) :
    s.deviceReceive c r = { s with pool.devHeld := mmod [] s.pool.devHeld c.val (fun l => l ++ [r]) } := by
  unfold State.deviceReceive
  rw [hv]
  dsimp only
  rw [hk]
  dsimp only
  rw [hd]
  exact if_pos (by rw [hp]; rfl)
theorem State.deviceReceive_serves {i : Inst} {dpa : Nat} (hd : s.decode (Cell.of a) r.hpa.toNat = some (i, dpa)) (hp : s.pausedAt c i = false)
    (hq : s.pool.paused.contains (s.anchorOf c).val = false) (hl : s.devTupleLost c r i dpa = false) :
    s.deviceReceive c r = s.deviceServe c r i dpa := by
  unfold State.deviceReceive
  rw [hv]
  dsimp only
  rw [hk]
  dsimp only
  rw [hd]
  exact if_neg (by rw [hp, hq, hl]; decide)
theorem State.deviceReceive_forwards (hd : s.decode (Cell.of a) r.hpa.toNat = none) (hq : s.pool.paused.contains (s.anchorOf c).val = false) :
    s.deviceReceive c r = s.passIn (s.anchorOf c) (Cell.of a) .cxlio 2 r.hpa 0 r.data none s.cyc := by
  unfold State.deviceReceive
  rw [hv]
  dsimp only
  rw [hk]
  dsimp only
  rw [hd]
  exact if_neg (by rw [hq]; decide)
end
theorem State.lostOf_of_nil {s : State} (h : s.spill.lost = []) (a : Cell) (sel : TSlot → Bool) : s.lostOf a sel = false := by
  rw [State.lostOf, h]
  rfl
theorem State.slot_congr {s t : State} (h : t.xbar = s.xbar) (c : Cell) (k : Slot) : t.slot c k = s.slot c k := by
  unfold State.slot
  rw [h]
theorem State.slot_setSlot (s : State) (c : Cell) (k : Slot) (t : TSlot) : (s.setSlot c k t).slot c k = some t := mget_mput_self _ _ _
theorem State.takeSlot_xbar (s : State) (c : Cell) (k : Slot) (t : TSlot) : (s.takeSlot c k t).xbar = (s.setSlot c k t).xbar :=
  (State.ctrEvent_keeps (P := 134216703) rfl (State.raise_keeps rfl (State.inc_keeps rfl (Keeps.refl (s.setSlot c k t)) _ _) _ _) _ _ _ _ _ _).xbar_eq
theorem State.takeSlot_scrim (s : State) (c : Cell) (k : Slot) (t : TSlot) : (s.takeSlot c k t).scrim = s.scrim :=
  (State.takeSlot_keeps (P := 134217215) rfl (Keeps.refl s) c k t).scrim_eq
theorem State.portCredit_xbar (s : State) (a : Cell) : (s.portCredit a).xbar = s.xbar :=
  (State.portCredit_keeps (P := 134216703) rfl (Keeps.refl s) a).xbar_eq
theorem State.portCredit_scrim (s : State) (a : Cell) : (s.portCredit a).scrim = s.scrim :=
  (State.portCredit_keeps (P := 134217215) rfl (Keeps.refl s) a).scrim_eq
theorem State.slot_takeSlot (s : State) (c : Cell) (k : Slot) (t : TSlot) : (s.takeSlot c k t).slot c k = some t :=
  (State.slot_congr (s.takeSlot_xbar c k t) c k).trans (s.slot_setSlot c k t)
/-- A request between a host and its device takes a slot of its slot cell, and leaves (R79, R80). -/
theorem State.passIn_sends {s : State} {a e : Cell} {k : Slot} (hl : s.spill.lost = []) (hk : s.firstSlot (s.ioCell a e) = some k)
    (opc : Opc) (tc : Tc) (addr : BitVec 52) (mcell : Cell) (data : List Line) (rx : Nat) : ∃ x p,
      s.passIn a e opc tc addr mcell data none rx = ((s.takeSlot (s.ioCell a e) k x).portCredit a).send p := by
  unfold State.passIn
  simp only [State.lostOf_of_nil hl, hk]
  exact ⟨_, _, rfl⟩
theorem State.deviceReceive_leaves {c : Cell} {r : DevReq} {s : State} {a b : Nat} {k : Slot} (hv : s.deviceVcs c = some (a, b))
    (hk : r.kind = .io) (hd : s.decode (Cell.of a) r.hpa.toNat = none) (hq : s.pool.paused.contains (s.anchorOf c).val = false)
    (hs : s.firstSlot (s.ioCell (s.anchorOf c) (Cell.of a)) = some k) (hl : s.spill.lost = []) :
    ((s.deviceReceive c r).slot (s.ioCell (s.anchorOf c) (Cell.of a)) k).isSome = true ∧
      (s.deviceReceive c r).scrim.flight.length = s.scrim.flight.length + 1 := by
  obtain ⟨x, p, h⟩ := State.passIn_sends hl hs .cxlio 2 r.hpa 0 r.data s.cyc
  rw [State.deviceReceive_forwards hv hk hd hq, h]
  constructor
  · rw [State.slot_congr (s := s.takeSlot (s.ioCell (s.anchorOf c) (Cell.of a)) k x) (by rw [State.send_xbar, State.portCredit_xbar]),
      State.slot_takeSlot]
    rfl
  · rw [State.send_flight, State.portCredit_scrim, State.takeSlot_scrim, List.length_append, List.length_singleton]

/-! ### The default map (O5) -/

/-- The newest element stays in a list that is cut at its front. -/
theorem mem_drop_concat {α : Type} (l : List α) (x : α) (n : Nat) : x ∈ (l ++ [x]).drop ((l ++ [x]).length - (n + 1)) := by
  have h : (l ++ [x]).length - (n + 1) ≤ l.length := by simp
  rw [List.drop_append_of_le_length h]
  exact List.mem_append_right _ (List.mem_singleton_self x)
theorem execDefaultMapFetchReturn_caches (i : Inst) (r : Fin 2) (k : Ext) (s : State) :
    ∃ t, execDefaultMapFetchReturn i r k s = .next t ∧ (r.val, k.val) ∈ mgetD [] t.pool.mapCache i.val ∧
      (mgetD [] t.pool.mapCache i.val).length ≤ 256 := by
  refine ⟨_, rfl, ?_⟩
  dsimp only
  rw [mgetD_mmod_self]
  refine ⟨mem_drop_concat _ _ 255, ?_⟩
  rw [List.length_drop]
  omega

/-! ### Frames that arrive and start (O5) -/

theorem execFrameArrive_inner {c : Cell} {i o : Fin 10} {p : Pkt} {s : State} (he : s.endsOk i o p = true) (hi : i ≠ 0) (got : Fin 65)
    (x : ArriveIn) : execFrameArrive c i o p got x s =
      .next ((s.frameArrive c i o { p := p, cyc := s.cyc, got := min got.val p.len.val, enq := s.ns, bad := x.bad }).settleLost) := by
  have hval : i.val ≠ 0 := fun h => hi (Fin.ext h)
  unfold execFrameArrive
  rw [if_neg (by rw [he]; decide)]
  dsimp only
  rw [if_neg hval, if_neg (by simp [hval])]
theorem State.frameArrive_late {c : Cell} {i o : Nat} {f : Frame} {s : State} (hi : i ≠ 0)
    (hb : s.fromScrim c i f.p = true → s.behind f.p = false) (hl : s.lateFrame c f.p = true) :
    s.frameArrive c i o f = (s.take f.p).lateDiscard c := by
  unfold State.frameArrive
  dsimp only
  rw [if_neg hi, if_neg (by simp only [Bool.and_eq_true, not_and, Bool.not_eq_true]; exact hb), if_pos hl]
/-- What Scrim has delivered, its cell consumes. -/
def State.fromLane (s : State) (c : Cell) (i : Nat) (p : Pkt) : State := if s.fromScrim c i p then s.deliver p else s
theorem State.fromLane_keeps (s : State) (c : Cell) (i : Nat) (p : Pkt) : Keeps 512 s (s.fromLane c i p) :=
  ite_keeps (fun _ => State.deliver_keeps rfl (Keeps.refl s) p) fun _ => Keeps.refl s
theorem State.frameArrive_taken {c : Cell} {i o : Nat} {f : Frame} {s t : State} (hi : i ≠ 0)
    (hb : s.fromScrim c i f.p = true → s.behind f.p = false) (hl : s.lateFrame c f.p = false)
    (ha : (s.fromLane c i f.p).voqAbsorbs c i o f.p.tc = false) (hq : (s.fromLane c i f.p).queueWaits c i o f.p.tc false = false)
    (ht : (s.fromLane c i f.p).tryAdmit c i o f = some t) : s.frameArrive c i o f = t := by
  unfold State.frameArrive
  dsimp only
  rw [if_neg hi, if_neg (by simp only [Bool.and_eq_true, not_and, Bool.not_eq_true]; exact hb), if_neg (by rw [hl]; decide)]
  change (if (s.fromLane c i f.p).voqAbsorbs c i o f.p.tc = true then _ else if (s.fromLane c i f.p).queueWaits c i o f.p.tc false = true then _ else
    match (s.fromLane c i f.p).tryAdmit c i o f with
    | some s => s
    | none => (s.fromLane c i f.p).waitAt c i o f) = t
  rw [ha, hq, ht]
  rfl
/-- The input takes its one admission decision of this core cycle (R92). -/
def State.decided (s : State) (c : Cell) (i : Nat) : State := { s with xbar.admitAt := mset 0 s.xbar.admitAt (c.val * 10 + i) (s.cyc + 1) }
theorem State.tryAdmit_normal {c : Cell} {i o : Nat} {f : Frame} {s : State} (hd : mgetD 0 s.xbar.admitAt (c.val * 10 + i) ≠ s.cyc + 1)
    (hx : s.ctxOf c i o f.p.tc = none) (ha : s.admits c o f.p.tc f.p.granules = true) :
    s.tryAdmit c i o f = some (((s.decided c i).chargeGran c o f.p.tc f.p.granules false).joinVoq c i o f) := by
  unfold State.tryAdmit
  dsimp only
  rw [hx, if_neg (by simp [hd]), if_pos ha]
  rfl
theorem State.chargeGran_voq (s : State) (c : Cell) (o tc g : Nat) (lent : Bool) : (s.chargeGran c o tc g lent).xbar.voq = s.xbar.voq := by
  unfold State.chargeGran
  dsimp only
  split
  · rw [State.dec_xbar, State.inc_xbar]
  · rw [State.dec_xbar, State.inc_xbar]
theorem State.joinVoq_voqAt (s : State) (c : Cell) (i o : Nat) (f : Frame) :
    (s.joinVoq c i o f).voqAt c i o f.p.tc = s.voqAt c i o f.p.tc ++ [f] :=
  mgetD_mset_self [] _ _ _
theorem State.admits_congr {s t : State} (hr : t.regs = s.regs) (hx : t.xbar = s.xbar) (c : Cell) (o tc g : Nat) :
    t.admits c o tc g = s.admits c o tc g := by
  unfold State.admits State.needShared State.resOf State.alphaOf
  rw [hx, State.reg_congr hr, State.rd_congr hr, State.rd_congr hr]
theorem State.ctxOf_congr {s t : State} (h : t.spill = s.spill) (c : Cell) (i o tc : Nat) : t.ctxOf c i o tc = s.ctxOf c i o tc := by
  unfold State.ctxOf
  rw [h]
/-- A frame whose VOQ is NORMAL, and that is admitted, joins the tail of its VOQ (R92). -/
theorem State.frameArrive_joins {c : Cell} {i o : Nat} {f : Frame} {s : State} (hi : i ≠ 0)
    (hb : s.fromScrim c i f.p = true → s.behind f.p = false) (hl : s.lateFrame c f.p = false)
    (hd : mgetD 0 s.xbar.admitAt (c.val * 10 + i) ≠ s.cyc + 1) (hw : mgetD [] s.xbar.waiting (c.val * 10 + i) = [])
    (ha : s.admits c o f.p.tc f.p.granules = true) (hx : s.ctxOf c i o f.p.tc = none) :
    (s.frameArrive c i o f).voqAt c i o f.p.tc = s.voqAt c i o f.p.tc ++ [f] ∧ (s.frameArrive c i o f).spill = s.spill := by
  have hk := s.fromLane_keeps c i f.p
  have hxbar : (s.fromLane c i f.p).xbar = s.xbar := hk.frame .xbar (by decide)
  have hregs : (s.fromLane c i f.p).regs = s.regs := (hk.frame .regs (by decide)).1
  have hspill : (s.fromLane c i f.p).spill = s.spill := hk.frame .spill (by decide)
  have hcyc : (s.fromLane c i f.p).cyc = s.cyc := hk.frame .cyc (by decide)
  have hctx : (s.fromLane c i f.p).ctxOf c i o f.p.tc = none := (State.ctxOf_congr hspill ..).trans hx
  have habsorbs : (s.fromLane c i f.p).voqAbsorbs c i o f.p.tc = false := by rw [State.voqAbsorbs, hctx]
  have hwaits : (s.fromLane c i f.p).queueWaits c i o f.p.tc false = false := by rw [State.queueWaits, hxbar, hw]; rfl
  have hadmit := State.tryAdmit_normal (s := s.fromLane c i f.p) (by rwa [hxbar, hcyc]) hctx ((State.admits_congr hregs hxbar ..).trans ha)
  rw [State.frameArrive_taken hi hb hl habsorbs hwaits hadmit, State.joinVoq_voqAt, State.voqAt, State.chargeGran_voq]
  refine ⟨?_, ?_⟩
  · change mgetD [] (s.fromLane c i f.p).xbar.voq _ ++ _ = _
    rw [hxbar]
    rfl
  · refine Eq.trans (Keeps.spill_eq (State.joinVoq_keeps rfl (State.chargeGran_keeps rfl (Keeps.refl _) _ _ _ _ _) _ _ _ _)) ?_
    exact hspill
theorem execFrameStart_one {c : Cell} {x : StartIn} {m : Req} {g a : Nat} {s : State}
    (h : matchRound ((s.countWaits c x).iter c) ((s.countWaits c x).requests c x) ((s.countWaits c x).rd (F.XBAR_GPTR_PTR c))
      ((s.countWaits c x).rd (F.XBAR_APTR_PTR c)) = ([m], g, a)) :
    execFrameStart c x s = .next ((((((s.countWaits c x).wr (F.XBAR_GPTR_PTR c) g).wr (F.XBAR_APTR_PTR c) a).startFrame c m.inp m.out m.tc
      x).admitWaiting c).settleLost) := by
  unfold execFrameStart State.round
  dsimp only
  rw [h]
  rfl

/-! ### Samples (O5) -/

theorem State.reloadSample_sampDue (s : State) (c : Cell) (o : Nat) : (s.reloadSample c o).xbar.sampDue = s.xbar.sampDue := by
  unfold State.reloadSample
  dsimp only
  split <;> rfl
theorem State.reloadSample_fixed {s : State} {c : Cell} (h : s.rd (F.XBAR_SAMP_CTRL_RAND c) = 0) (o : Nat) :
    mgetD 0 (s.reloadSample c o).xbar.sampCnt (c.val * 10 + o) = s.rd (F.XBAR_SAMP_CTRL_N_M1 c) + 1 := by
  unfold State.reloadSample
  dsimp only
  rw [if_neg (by rw [State.rdb, h]; decide)]
  exact mgetD_mset_self 0 s.xbar.sampCnt (c.val * 10 + o) (s.rd (F.XBAR_SAMP_CTRL_N_M1 c) + 1)
/-- The next frame of an output is sampled (R106). -/
def State.markSample (s : State) (k : Nat) : State := if s.xbar.sampDue.contains k then s else { s with xbar.sampDue := s.xbar.sampDue ++ [k] }
theorem State.mem_markSample (s : State) (k : Nat) : k ∈ (s.markSample k).xbar.sampDue := by
  unfold State.markSample
  split
  · next h => exact List.contains_iff_mem.1 h
  · exact List.mem_append_right _ (List.mem_singleton_self k)
theorem State.markSample_regs (s : State) (k : Nat) : (s.markSample k).regs = s.regs := by
  unfold State.markSample
  split <;> rfl
theorem execSampleCounterExpiry_due {c : Cell} {o : Fin 10} {s : State} (he : s.rdb (F.XBAR_SAMP_CTRL_EN c) = true)
    (ho : (s.rd (F.XBAR_SAMP_CTRL_OUT_EN c)).testBit o.val = true) (hc : mgetD 0 s.xbar.sampCnt (c.val * 10 + o.val) = 0) :
    execSampleCounterExpiry c o s = .next ((s.markSample (c.val * 10 + o.val)).reloadSample c o) := by
  unfold execSampleCounterExpiry
  dsimp only
  rw [if_neg (by rw [he, ho, hc]; decide)]
  rfl

/-! ### Responses and slots (O5) -/

theorem State.freeGran_slots (s : State) (c : Cell) (o tc g : Nat) (refill : Bool) : (s.freeGran c o tc g refill).xbar.slots = s.xbar.slots := by
  rw [State.freeGran, State.showShared, State.wr_xbar, State.inc_xbar, State.dec_xbar]
theorem State.freeKept_slots (s : State) (c : Cell) (k : Slot) : (s.freeKept c k).xbar.slots = s.xbar.slots := by
  unfold State.freeKept
  split
  · exact State.freeGran_slots _ _ _ _ _ _
  · rfl
theorem State.reissueDone_xbar (s : State) (c : Cell) (k : Slot) : (s.reissueDone c k).xbar = s.xbar :=
  (State.reissueDone_keeps (P := 134216703) rfl (Keeps.refl s) c k).xbar_eq
theorem State.freeSlot_slot (s : State) (c : Cell) (k : Slot) : (s.freeSlot c k).slot c k = none := by
  unfold State.freeSlot
  split
  · assumption
  · rw [State.slot, State.reissueDone_xbar, State.dec_xbar, State.freeKept_slots]
    exact mget_mdel_self _ _
theorem State.releaseSlot_slot (s : State) (c : Cell) (k : Slot) (t : TSlot) : (s.releaseSlot c k t).slot c k = none := by
  have h : (s.releaseSlot c k t).xbar = (s.freeSlot c k).xbar :=
    Keeps.xbar_eq (ite_keeps (fun _ => State.portCredit_keeps rfl (Keeps.refl _) _)
      fun _ => State.creditUpdate_keeps rfl (State.dec_keeps rfl (Keeps.refl _) _ _) _ _)
  exact (State.slot_congr h c k).trans (s.freeSlot_slot c k)
/-- What a response puts out at its port (R171). -/
def Resp.leaves (r : Resp) (c a : Cell) : Out :=
  match r with
  | .vcs d ur => .vcsCpl a d ur
  | .pass p => .tlp c p
  | r => .resp c r
/-- The data units of a response. -/
def Resp.units (r : Resp) : Nat :=
  match r with
  | .memData _ _ _ => 1
  | .ioCpl d _ _ => d.length
  | .pass p => p.len.val
  | _ => 0
/-- The counts of the tenant whose request is answered (R481). -/
def State.countAnswer (s : State) (t : TSlot) : State :=
  if t.io then s
  else if readOpc t.hdr.opc then (s.instCount t.hdr.inst.val 0 1).instCount t.hdr.inst.val 2 ((s.cyc - t.rx) / 3)
  else if needsWr t.hdr.opc && t.hdr.opc != .inva then s.instCount t.hdr.inst.val 1 1 else s
theorem State.countAnswer_out (s : State) (t : TSlot) : (s.countAnswer t).out = s.out := by
  refine Keeps.out_eq (ite_keeps (fun _ => Keeps.refl s) fun _ => ite_keeps (fun _ => ?_) fun _ => ite_keeps (fun _ => ?_) fun _ => Keeps.refl s)
  · exact State.instCount_keeps rfl (State.instCount_keeps rfl (Keeps.refl s) _ _ _) _ _ _
  · exact State.instCount_keeps rfl (Keeps.refl s) _ _ _
theorem State.releaseSlot_out (s : State) (c : Cell) (k : Slot) (t : TSlot) : (s.releaseSlot c k t).out = s.out :=
  (State.releaseSlot_keeps (P := 134217711) rfl (Keeps.refl s) c k t).out_eq
/-- A response of a request that asked no grant leaves, and its slot frees. -/
theorem execHostResponseDepart_leaves {c : Cell} {k : Slot} {x : TSlot} {r : Resp} {s : State} (hs : s.slot c k = some x)
    (hr : x.resp = some r) (hd : x.discard = false) (he : x.ended = none) (hg : x.grantBy = none) :
    execHostResponseDepart c k s = .next (State.releaseSlot
      (((s.xingPass (F.SPILL_XING_CELL_at c 1) (1 + r.units)).emit (r.leaves c x.port)).countAnswer x) c k x) := by
  unfold execHostResponseDepart
  rw [hs]
  dsimp -zeta only
  rw [hr]
  dsimp -zeta only
  extract_lets units u i v hdr w own z
  have hu : u = (s.xingPass (F.SPILL_XING_CELL_at c 1) (1 + r.units)).emit (r.leaves c x.port) := if_neg (by rw [hd]; decide)
  have hv : v = u.countAnswer x := rfl
  have hw : w = v := by simp only [w, hg]
  have hz : z = w := by simp only [z, hg]
  rw [if_neg (by rw [he]; decide), hz, hw, hv, hu]
theorem execSlotHoldExpire_frees {c : Cell} {k : Slot} {x : TSlot} {n : Nat} {s : State} (hs : s.slot c k = some x) (he : x.ended = some n)
    (hn : n + 3000000 ≤ s.cyc) : execSlotHoldExpire c k s = .next (s.releaseSlot c k x) := by
  unfold execSlotHoldExpire
  rw [hs]
  dsimp only
  rw [he]
  exact congrArg Outcome.next (if_pos hn)

/-! ### The ten commands together (O5) -/

/-- Settles O5: each command's rule is the lemma on its exec named here. -/
theorem switchIntakeComplete : Obligations.SwitchIntakeComplete := by
  refine ⟨fun a r s hm => ⟨fun t h hp => execHostRequestReceive_pass hm h hp, fun h hu => ?held⟩,
    fun a h s hm hf hc ht => execHoldAdmit_first hm hf hc ht,
    fun c r s a b hm hv => ⟨fun hk => execDeviceRequestReceive_other hm hk, fun hk hd => ?io⟩,
    fun i r k s => execDefaultMapFetchReturn_caches i r k s,
    fun c i o p got x s he hb => ⟨fun hi hd hl _ hw ha hx hn => ?joins, fun hi hl => ?late⟩,
    fun c x m g a s h => execFrameStart_one h,
    fun c o s he ho hc => ⟨_, execSampleCounterExpiry_due he ho hc, ?due, fun hr => ?reload⟩,
    fun c k x r s hs hr hd he hg => ⟨_, r.leaves c x.port, execHostResponseDepart_leaves hs hr hd he hg, ?out,
      State.releaseSlot_slot _ c k x, ?kind⟩,
    fun c k x n s hs he hn => ⟨_, execSlotHoldExpire_frees hs he hn, s.releaseSlot_slot c k x⟩,
    fun _ _ => rfl⟩
  case held =>
    refine ⟨_, execHostRequestReceive_held hm h, ?_⟩
    rw [State.xingPass_pool, State.rd_congr (State.xingPass_regs ..)]
    exact State.enterHold_counts r hu
  case io =>
    refine ⟨fun i dpa hx hp => ⟨_, execDeviceRequestReceive_io hm hd, ?_⟩,
      fun i dpa hx hp hq hl => (execDeviceRequestReceive_io hm hd).trans (congrArg Outcome.next (State.deviceReceive_serves hv hk hx hp hq hl)),
      fun k sc hx hq hsc hs hl => ⟨_, execDeviceRequestReceive_io hm hd, ?_⟩⟩
    · rw [State.deviceReceive_paused hv hk hx hp]
      exact (mgetD_mmod_self [] s.pool.devHeld c.val (fun l => l ++ [r])).trans (by rw [hd]; rfl)
    · subst hsc
      exact State.deviceReceive_leaves hv hk hx hq hs hl
  case joins =>
    refine ⟨_, execFrameArrive_inner he hi got x, ?_⟩
    obtain ⟨hvoq, hspill⟩ := State.frameArrive_joins (c := c) (i := i) (o := o)
      (f := { p := p, cyc := s.cyc, got := min got.val p.len.val, enq := s.ns, bad := x.bad }) (fun h => hi (Fin.ext h)) hb hl hd hw ha hx
    rw [State.settleLost_of_nil (by rw [hspill, hn])]
    exact hvoq
  case late =>
    rw [← State.frameArrive_late (i := i) (o := o)
      (f := { p := p, cyc := s.cyc, got := min got.val p.len.val, enq := s.ns, bad := x.bad }) (fun h => hi (Fin.ext h)) hb hl]
    exact execFrameArrive_inner he hi got x
  case due =>
    rw [State.reloadSample_sampDue]
    exact s.mem_markSample _
  case reload =>
    have hregs := s.markSample_regs (c.val * 10 + o.val)
    rw [State.reloadSample_fixed ((State.rd_congr hregs _).trans hr), State.rd_congr hregs]
  case out =>
    rw [State.releaseSlot_out, State.countAnswer_out, State.emit_out, State.xingPass_out]
  case kind =>
    refine ⟨fun d ur h => by rw [h]; rfl, fun p h => by rw [h]; rfl, fun hv hp => ?_⟩
    unfold Resp.leaves
    split
    · exact absurd rfl (hv _ _)
    · exact absurd rfl (hp _)
    · rfl
end Sys2Proof.Machine

namespace Sys2Proof.Machine
open Host (Outcome)

/-! ### Chunks (O6) -/

theorem State.markWaiting_of_none {s : State} {c : Cell} (h : ∀ n, s.sctx c n = none) (bad : BitVec 129) : s.markWaiting c bad = s := by
  unfold State.markWaiting
  split
  · rw [h]
  · rfl
/-- Without a context no tail waits for a chunk. -/
theorem State.writeWaiting_of_none {s : State} {c : Cell} (h : ∀ n, s.sctx c n = none) : s.writeWaiting c = s := by
  refine List.foldl_fixed' (fun n => ?_) _
  have hrest : s.writeRest c n = s := by rw [State.writeRest, h]
  rw [hrest]
  dsimp only
  rw [h]
theorem State.showShare_spill (s : State) (c : Cell) (k : Nat) : (s.showShare c k).spill = s.spill :=
  (State.showShare_keeps (P := 134215679) rfl (Keeps.refl s) c k).spill_eq
/-- A chunk of a stack is the cell's from now on (R101). -/
def State.grantChunk (s : State) (c : Cell) (k n : Nat) : State :=
  State.showShare { s with spill.granted := mput s.spill.granted (k * 2 ^ 21 + n) c.val } c k
theorem State.grantChunk_spill (s : State) (c : Cell) (k n : Nat) :
    (s.grantChunk c k n).spill = { s.spill with granted := mput s.spill.granted (k * 2 ^ 21 + n) c.val } := State.showShare_spill _ c k
theorem State.setSpare_spill (s : State) (c : Cell) (l : List Nat) :
    (s.setSpare c l).spill = { s.spill with spare := mset [] s.spill.spare c.val l } := State.wr_spill _ _ _
theorem execChunkGrant_grants {c : Cell} {n : Fin 1572864} {s : State} (hs : (s.spare c).length < 4)
    (hg : mget s.spill.granted (s.spillStack c * 2 ^ 21 + n.val) = none) (hf : s.stackFenced (s.spillStack c) = false)
    (hk : s.chunkOk c = true) (hc : ∀ m, s.sctx c m = none) (hl : s.spill.lost = []) (bad : BitVec 129) :
    execChunkGrant c n bad s = .next ((s.grantChunk c (s.spillStack c) n.val).setSpare c (s.spare c ++ [n.val])) := by
  have hspill := s.grantChunk_spill c (s.spillStack c) n.val
  have hgrant : ∀ m, (s.grantChunk c (s.spillStack c) n.val).sctx c m = none := fun m => by rw [State.sctx, hspill]; exact hc m
  have hspare : (s.grantChunk c (s.spillStack c) n.val).spare c = s.spare c := by rw [State.spare, hspill]; rfl
  unfold execChunkGrant
  dsimp only
  rw [if_neg (by rw [hg, hf]; simp [hs]), if_neg (by rw [hk]; decide)]
  change Outcome.next (((((s.grantChunk c (s.spillStack c) n.val).markWaiting c bad).setSpare c
    ((s.grantChunk c (s.spillStack c) n.val).spare c ++ [n.val])).writeWaiting c).settleLost) = _
  rw [State.markWaiting_of_none hgrant, hspare, State.writeWaiting_of_none (fun m => by rw [State.sctx, State.setSpare_spill]; exact hgrant m),
    State.settleLost_of_nil (by rw [State.setSpare_spill, hspill]; exact hl)]

/-! ### Committed frames and fetches (O6) -/

/-- With no frame waiting at an input, none is admitted. -/
theorem State.admitWaiting_of_nil {s : State} {c : Cell} (h : ∀ i, mgetD [] s.xbar.waiting (c.val * 10 + i) = []) : s.admitWaiting c = s := by
  have hnone : ∀ i, waitHeads i [] = [] := fun i => by simp [waitHeads, nextWaiting]
  have hheads : (List.range 10).flatMap (fun i =>
      (waitHeads i (mgetD [] s.xbar.waiting (c.val * 10 + i))).map (fun w => (i, w))) = [] := by simp [h, hnone]
  unfold State.admitWaiting
  dsimp only
  rw [hheads]
  rfl
theorem State.sctx_setSctx (s : State) (c : Cell) (n : Nat) (x : SpillCtx) : (s.setSctx c n x).sctx c n = some x := mget_mput_self _ _ _
/-- The oldest frame of a context whose length slot is acknowledged is committed. -/
theorem committed_of_ack {l : List WFrame} {w : WFrame} (h : l.find? (fun w => !w.acked) = some w) :
    ∃ v r, (l.map (fun v => if v.fseq = w.fseq then { v with acked := true } else v)).takeWhile (·.acked) = v :: r := by
  cases l with
  | nil => cases h
  | cons v l =>
    have hv : (if v.fseq = w.fseq then { v with acked := true } else v).acked = true := by
      cases ha : v.acked with
      | true => split <;> simp [ha]
      | false =>
        have hw : v = w := by simpa [ha] using h
        rw [hw, if_pos rfl]
    exact ⟨_, _, by rw [List.map_cons, List.takeWhile_cons_of_pos hv]⟩
/-- After a commit the head register holds word 0 of a frame (R126). -/
theorem State.readHead_of_committed {s : State} {c : Cell} {n : Nat} {x : SpillCtx} {w : WFrame} {l : List WFrame}
    (h : s.sctx c n = some x) (hw : x.committed = w :: l) :
    (s.readHead c n).sctx c n = some { x with headReg := true } ∧ (s.readHead c n).xbar = s.xbar := by
  unfold State.readHead
  rw [h]
  dsimp only
  rw [hw]
  dsimp only
  split
  · next hr =>
    refine ⟨?_, rfl⟩
    rw [h, ← hr]
  · refine ⟨?_, ?_⟩
    · obtain ⟨y, hy⟩ := State.xingPass_eq ((s.setSctx c n { x with headReg := true }).xingPass (F.SPILL_XING_HBM_at (stackDie x.stack) 0) 1)
        (F.SPILL_XING_HBM_at (stackDie x.stack) 1) 1
      obtain ⟨z, hz⟩ := State.xingPass_eq (s.setSctx c n { x with headReg := true }) (F.SPILL_XING_HBM_at (stackDie x.stack) 0) 1
      rw [hy, hz]
      exact s.sctx_setSctx c n _
    · rw [State.send_xbar, State.xingPass_xbar, State.xingPass_xbar]
      rfl
theorem State.freeGran_waiting (s : State) (c : Cell) (o tc g : Nat) (refill : Bool) :
    (s.freeGran c o tc g refill).xbar.waiting = s.xbar.waiting := by
  rw [State.freeGran, State.showShared, State.wr_xbar, State.inc_xbar, State.dec_xbar]
theorem State.freeGran_spill (s : State) (c : Cell) (o tc g : Nat) (refill : Bool) : (s.freeGran c o tc g refill).spill = s.spill :=
  (State.freeGran_keeps (P := 134215679) rfl (Keeps.refl s) c o tc g refill).spill_eq
theorem execLengthSlotAck_commits {c : Cell} {n : Fin 64} {x : SpillCtx} {w : WFrame} {s : State} (hx : s.sctx c n = some x)
    (hw : x.frames.find? (fun w => !w.acked) = some w) (hs : s.slotWritten c x w = true)
    (hn : ∀ i, mgetD [] s.xbar.waiting (c.val * 10 + i) = []) : ∃ t, execLengthSlotAck c n s = .next t ∧
      t.sctx c n = some { x with frames := x.frames.map (fun v => if v.fseq = w.fseq then { v with acked := true } else v), headReg := true } := by
  unfold execLengthSlotAck
  rw [hx]
  dsimp -zeta only
  rw [hw]
  dsimp -zeta only
  rw [if_neg (by rw [hs]; decide)]
  extract_lets d u fs v
  obtain ⟨f, r, hf⟩ := committed_of_ack hw
  obtain ⟨hctx, hxbar⟩ := State.readHead_of_committed (u.sctx_setSctx c n { x with frames := fs }) hf
  have hidle : ∀ i, mgetD [] (v.freeGran c x.out x.tc w.charge true).xbar.waiting (c.val * 10 + i) = [] := fun i => by
    rw [State.freeGran_waiting, hxbar]
    change mgetD [] (s.xingPass (F.SPILL_XING_HBM_at d 0) (w.f.p.len.val + 2)).xbar.waiting (c.val * 10 + i) = []
    rw [State.xingPass_xbar]
    exact hn i
  refine ⟨_, rfl, ?_⟩
  rw [State.admitWaiting_of_nil hidle, State.sctx, State.freeGran_spill]
  exact hctx
theorem execSpillFetch_reads {c : Cell} {n : Fin 64} {x : SpillCtx} {w : WFrame} {l : List WFrame} {s : State} (hx : s.sctx c n = some x)
    (hr : x.headReg = true) (hf : x.fetch = false) (hw : x.committed = w :: l)
    (hv : (s.voqAt c x.inp x.out x.tc).length + ((mgetD [] s.xbar.waiting (c.val * 10 + x.inp)).filter
      (fun f => f.1 == x.out && f.2.p.tc.val == x.tc && f.2.whey)).length ≤ 1) :
    execSpillFetch c n s = .next ((((s.xingPass (F.SPILL_XING_HBM_at (stackDie x.stack) 0) (x.touched w).length).setSctx c n
      { x with fetch := true }).inc (F.SPILL_STATUS_FETCH_OUT c)).readPkts c n x w) := by
  unfold execSpillFetch
  rw [hx]
  dsimp only
  rw [hw]
  exact congrArg Outcome.next (if_pos (by rw [hr, hf, decide_eq_true hv]; rfl))
theorem execSpillReadReturn_takes {c : Cell} {n : Fin 64} {x : SpillCtx} {w : WFrame} {l : List WFrame} {s : State}
    (hx : s.sctx c n = some x) (hw : x.frames = w :: l) (hf : x.fetch = true) (r : SpillIn) :
    execSpillReadReturn c n r s = .next ((State.spillData
      { s with scrim.flight := s.scrim.flight.filter (fun f =>
        !(f.p.opc == Opc.bulk && f.p.src == c && f.p.tagSlot.val == 0x3FE && f.p.htid.val == n.val)) } c n x w r).settleLost) := by
  unfold execSpillReadReturn State.spillReturn
  rw [hx]
  dsimp only
  rw [hw, hf]

/-! ### Views, marks and gates (O6) -/

theorem State.rd_wrAll_apart {l : List (Fld × Nat)} {g : Fld} (h : ∀ e ∈ l, e.1.apart g = true) (s : State) : (s.wrAll l).rd g = s.rd g := by
  induction l generalizing s with
  | nil => rfl
  | cons e l ih => exact (ih (fun e' he => h e' (.tail _ he)) _).trans (s.rd_wr_apart _ (h e (.head _)))
/-- A field reads what it was given last, if nothing that follows shares a bit with it. -/
theorem State.rd_wrAll_last {l r : List (Fld × Nat)} {f : Fld} {v : Nat} (hf : f.lsb + f.width ≤ 64) (h : ∀ e ∈ r, e.1.apart f = true)
    (s : State) : (s.wrAll (l ++ (f, v) :: r)).rd f = v % 2 ^ f.width := by
  rw [State.wrAll, List.foldl_append]
  exact (State.rd_wrAll_apart h _).trans (State.rd_wr_same _ _ hf)
/-- No two fields of the views of a context share a bit (Table 4-7). -/
theorem SpillCtx.view_apart (x : SpillCtx) (c : Cell) : ((x.view c).map Prod.fst).Pairwise (fun f g => g.apart f = true) := by
  have h01 : F.SPILL_CTX_VIEW0_at c ≠ F.SPILL_CTX_VIEW1_at c := by unfold F.SPILL_CTX_VIEW0_at F.SPILL_CTX_VIEW1_at; omega
  have h02 : F.SPILL_CTX_VIEW0_at c ≠ F.SPILL_CTX_VIEW2_at c := by unfold F.SPILL_CTX_VIEW0_at F.SPILL_CTX_VIEW2_at; omega
  have h12 : F.SPILL_CTX_VIEW1_at c ≠ F.SPILL_CTX_VIEW2_at c := by unfold F.SPILL_CTX_VIEW1_at F.SPILL_CTX_VIEW2_at; omega
  simp [SpillCtx.view, Fld.apart, F.SPILL_CTX_VIEW0_ACTIVE, F.SPILL_CTX_VIEW0_IN, F.SPILL_CTX_VIEW0_OUT, F.SPILL_CTX_VIEW0_TC,
    F.SPILL_CTX_VIEW0_FSEQ_WR, F.SPILL_CTX_VIEW0_FSEQ_RD, F.SPILL_CTX_VIEW1_STACK, F.SPILL_CTX_VIEW1_HEAD_CHUNK, F.SPILL_CTX_VIEW1_HEAD_WORD,
    F.SPILL_CTX_VIEW1_TAIL_CHUNK, F.SPILL_CTX_VIEW1_TAIL_WORD, F.SPILL_CTX_VIEW1_HEAD_REG, F.SPILL_CTX_VIEW1_FETCH_OUT, F.SPILL_CTX_VIEW2_FRAMES,
    F.SPILL_CTX_VIEW2_CHUNKS, h01.symm, h02.symm, h12.symm]
theorem State.rd_view {x : SpillCtx} {c : Cell} {l r : List (Fld × Nat)} {f : Fld} {v : Nat} (e : x.view c = l ++ (f, v) :: r)
    (hf : f.lsb + f.width ≤ 64) (s : State) : (s.wrAll (x.view c)).rd f = v % 2 ^ f.width := by
  have h := x.view_apart c
  rw [e, List.map_append, List.map_cons, List.pairwise_append, List.pairwise_cons] at h
  obtain ⟨-, ⟨hr, -⟩, -⟩ := h
  rw [e]
  exact State.rd_wrAll_last hf (fun y hy => hr _ (List.mem_map_of_mem hy)) s
theorem execSpillCtxView0Read_shows (c : Cell) (s : State) :
    ∃ t, execSpillCtxView0Read c s = .next t ∧ (s.sctx c (s.rd (F.SPILL_CTX_SEL_CTX c)) = none → t.reg (F.SPILL_CTX_VIEW0_at c) = 0) ∧
      ∀ x, s.sctx c (s.rd (F.SPILL_CTX_SEL_CTX c)) = some x → t.rd (F.SPILL_CTX_VIEW0_ACTIVE c) = 1 ∧
        t.rd (F.SPILL_CTX_VIEW0_TC c) = x.tc % 2 ^ (F.SPILL_CTX_VIEW0_TC c).width ∧
        t.rd (F.SPILL_CTX_VIEW2_CHUNKS c) = x.chunks.length % 2 ^ (F.SPILL_CTX_VIEW2_CHUNKS c).width := by
  refine ⟨_, rfl, fun h => ?_, fun x h => ?_⟩
  · have h1 : F.SPILL_CTX_VIEW1_at c ≠ F.SPILL_CTX_VIEW0_at c := by unfold F.SPILL_CTX_VIEW1_at F.SPILL_CTX_VIEW0_at; omega
    have h2 : F.SPILL_CTX_VIEW2_at c ≠ F.SPILL_CTX_VIEW0_at c := by unfold F.SPILL_CTX_VIEW2_at F.SPILL_CTX_VIEW0_at; omega
    rw [State.captureSpillViews_none h, State.reg_setReg_ne _ _ h2, State.reg_setReg_ne _ _ h1]
    exact State.reg_setReg_same _ _ _
  · rw [State.captureSpillViews_some h]
    exact ⟨State.rd_view (l := []) rfl (show 63 + 1 ≤ 64 by decide) _,
      State.rd_view (l := (x.view c).take 3) rfl (show 44 + 3 ≤ 64 by decide) _,
      State.rd_view (l := (x.view c).take 14) rfl (show 19 + 21 ≤ 64 by decide) _⟩
theorem execSpillXingClrHwm_restarts {x : Xing} {s : State} (h : (regAt (xingAddr x)).isSome = true)
    (he : ∀ (d : Die) (e j : Fin 4), x = .lath d e j → (edgePresent d.val).testBit e.val = true) :
    execSpillXingClrHwm x s = .next (s.wr (xingHwm (xingAddr x)) (getBits (s.xingWord (xingAddr x) 0) 16 16)) := by
  obtain ⟨r, hr⟩ := Option.isSome_iff_exists.1 h
  unfold execSpillXingClrHwm
  dsimp only
  rw [hr]
  refine congrArg Outcome.next (if_neg ?_)
  split
  · next d e j => simp [he d e j rfl]
  · decide
theorem execGateBoundary_open (c : Cell) (s : State) :
    ∃ t, execGateBoundary c s = .next t ∧ t.rd (F.GATE_STATUS_OPEN c) = s.gatesOpen c % 2 ^ (F.GATE_STATUS_OPEN c).width := by
  have hrun : (F.GATE_STATUS_RUNNING c).apart (F.GATE_STATUS_OPEN c) = true := by revert c; decide
  have hentry : (F.GATE_STATUS_ENTRY c).apart (F.GATE_STATUS_OPEN c) = true := by revert c; decide
  refine ⟨_, rfl, ?_⟩
  dsimp only
  rw [State.wrb, State.rd_wr_apart _ _ hrun, State.rd_wr_apart _ _ hentry]
  exact State.rd_wr_same _ _ (show 32 + 8 ≤ 64 by decide)

/-! ### Observation (O6) -/

/-- A new period of a cell's observation starts now, SAMP being busy with the old one's records (R149). -/
theorem State.copyObs_since (s : State) (c : Cell) : mgetD 0 (s.copyObs c true).sched.since c.val = s.ns := by
  have h : Keeps 4098 s ((List.range 4).foldl (fun s q => s.copyQueue c q) s) :=
    foldl_keeps (Keeps.refl s) fun _ _ h => State.copyQueue_keeps rfl h _ _
  refine (mgetD_mset_self _ _ _ _).trans ?_
  rw [State.ns, h.frame .cyc (by decide), State.ns]
theorem execHistPeriodEnd_retained {c : Cell} {s : State} (hp : s.rd (F.SHP_OBS_CTRL_HIST_PERIOD c) ≠ 0) (hr : s.retained c = true) (b : Bool) :
    execHistPeriodEnd c b s = .next { s with sched.due := c.val :: s.sched.due.filter (· != c.val) } := by
  unfold execHistPeriodEnd
  rw [if_neg hp, if_pos hr]
theorem execHistPeriodEnd_on {c : Cell} {s : State} (hp : s.rd (F.SHP_OBS_CTRL_HIST_PERIOD c) ≠ 0) (hr : s.retained c = false) (b : Bool) :
    execHistPeriodEnd c b s = .next (s.copyObs c b) := by
  unfold execHistPeriodEnd
  rw [if_neg hp, if_neg (by rw [hr]; decide)]
/-- One depth sample of one watched queue (R148). -/
def State.sampleQueue (s : State) (c : Cell) (q : Nat) : State :=
  match s.watched c q with
  | some (o, tc) =>
    let (n, sp) := s.queueDepth c o tc
    { s with
      sched.live := mmod {} s.sched.live (c.val * 4 + q) (fun (l : ObsLive) =>
        { l with depth := bump l.depth (depthBucket n), maxDepth := max l.maxDepth (min n 0xFFFF),
                 spilled := l.spilled || sp, satur := l.satur || l.depth.getD (depthBucket n) 0 = 0xFFFFFFFF }) }
  | none => s
theorem State.sampleDepth_eq (s : State) (c : Cell) : s.sampleDepth c = (List.range 4).foldl (fun s q => s.sampleQueue c q) s := rfl
/-- What a sample of queue q is taken from stands in t as in s. -/
structure State.SameQueue (s t : State) (c : Cell) (q : Nat) : Prop where
  watched : t.watched c q = s.watched c q
  depth : ∀ o tc, t.queueDepth c o tc = s.queueDepth c o tc
  live : mgetD {} t.sched.live (c.val * 4 + q) = mgetD {} s.sched.live (c.val * 4 + q)
theorem State.sampleQueue_other {s t : State} {c : Cell} {q p : Nat} (h : s.SameQueue t c q) (hp : p ≠ q) :
    s.SameQueue (t.sampleQueue c p) c q := by
  unfold State.sampleQueue
  split
  · next o tc _ =>
    obtain ⟨hw, hd, hl⟩ := h
    exact ⟨hw, hd, (mgetD_mset_ne _ _ _ _ (by omega)).trans hl⟩
  · exact h
theorem State.sampleQueues_others {s t : State} {c : Cell} {q : Nat} {l : List Nat} (h : s.SameQueue t c q) (hl : q ∉ l) :
    s.SameQueue (l.foldl (fun s q => s.sampleQueue c q) t) c q :=
  List.foldlRecOn (motive := fun u => s.SameQueue u c q) l _ h fun _ hu _ hp => State.sampleQueue_other hu (ne_of_mem_of_not_mem hp hl)
theorem State.sampleQueue_depth {s : State} {c : Cell} {q o tc : Nat} (h : s.watched c q = some (o, tc)) :
    (mgetD {} (s.sampleQueue c q).sched.live (c.val * 4 + q)).depth
      = bump (mgetD {} s.sched.live (c.val * 4 + q)).depth (depthBucket (s.queueDepth c o tc).1) := by
  unfold State.sampleQueue
  rw [h]
  dsimp only
  rw [mgetD_mmod_self]
/-- Every watched queue of a cell is sampled once. -/
theorem State.sampleDepth_depth {s : State} {c : Cell} {q : Fin 4} {o tc : Nat} (h : s.watched c q = some (o, tc)) :
    (mgetD {} (s.sampleDepth c).sched.live (c.val * 4 + q.val)).depth
      = bump (mgetD {} s.sched.live (c.val * 4 + q.val)).depth (depthBucket (s.queueDepth c o tc).1) := by
  obtain ⟨l, r, e, hl⟩ := List.eq_append_cons_of_mem (List.mem_range.2 q.isLt)
  have hr : q.val ∉ r := by
    have hn := List.nodup_range (n := 4)
    rw [e] at hn
    exact (List.nodup_cons.1 (List.nodup_append.1 hn).2.1).1
  rw [State.sampleDepth_eq, e, List.foldl_append, List.foldl_cons]
  obtain ⟨hw, hd, hv⟩ := State.sampleQueues_others (l := l) ⟨rfl, fun _ _ => rfl, rfl⟩ hl (s := s) (t := s) (c := c)
  rw [(State.sampleQueues_others ⟨rfl, fun _ _ => rfl, rfl⟩ hr).live, State.sampleQueue_depth (hw.trans h), hd, hv]

/-! ### Yields of skims (O6) -/

/-- A yield record leaves the crossbar. -/
theorem State.logYield_xbar (s : State) (a b : Nat) (c : Option Cell) (x y z : Nat) : (s.logYield a b c x y z).xbar = s.xbar :=
  (State.logYield_keeps (P := 134216703) rfl (Keeps.refl s) a b c x y z).xbar_eq
/-- With a service processor a yield is the newest entry of the fault log (R377). -/
theorem State.logYield_newest {s : State} (h : s.activeSp ≠ none) (kept yielded : Nat) (cell : Option Cell) (subj cause detail : Nat) :
    ∃ r, (s.logYield kept yielded cell subj cause detail).log.fault.head? = some r ∧
      r.kind = 2 ∧ r.cause = cause ∧ r.detail = detail % 65536 := by
  have hsp : s.activeSp.isSome = true := Option.isSome_iff_ne_none.2 h
  unfold State.logYield State.logFaultRec
  dsimp only
  rw [if_pos hsp, State.writeFault, (State.logBump_keeps (P := 134201343) rfl (Keeps.refl _) _ _).log_eq, List.head?_take]
  exact ⟨_, rfl, rfl, rfl, rfl⟩
theorem execSkimYieldWindowEnd_logs {c : Cell} {v n : Nat} {s : State} (h : mget s.xbar.skimWin c.val = some (v, n)) :
    execSkimYieldWindowEnd c s = .next (State.logYield { s with xbar.skimWin := mdel s.xbar.skimWin c.val }
      5 6 (some c) 0xFFFF 0x010E (v + 256 * n)) := by
  unfold execSkimYieldWindowEnd
  rw [h]

/-! ### The twelve commands together (O6) -/

/-- Settles O6: each command's rule is the lemma on its exec named here. -/
theorem spillAndGateComplete : Obligations.SpillAndGateComplete := by
  refine ⟨fun c n bad s hs hg hf hk hc hl => ⟨_, execChunkGrant_grants hs hg hf hk hc hl bad, ?spare, ?granted⟩,
    fun c n x w s hx hw hs hn => execLengthSlotAck_commits hx hw hs hn,
    fun c n x w l s hx hr hf hw hv => execSpillFetch_reads hx hr hf hw hv,
    fun c n r x w l s hx hw hf => execSpillReadReturn_takes hx hw hf r,
    fun k s => ⟨_, rfl, List.contains_iff_mem.1 (s.failElem_notes _ _ _ _)⟩,
    fun c s => execSpillCtxView0Read_shows c s,
    fun x s h he => execSpillXingClrHwm_restarts h he,
    fun c s => execGateBoundary_open c s,
    fun c s hp => ⟨fun hr => ⟨_, execHistPeriodEnd_on hp hr true, s.copyObs_since c⟩,
      fun hr => ⟨_, execHistPeriodEnd_retained hp hr true, List.mem_cons_self ..⟩⟩,
    fun c s => ⟨_, rfl, s.copyObs_since c⟩,
    fun c s hr => ⟨_, congrArg Outcome.next (if_neg (by rw [hr]; decide)), fun q o tc h => State.sampleDepth_depth h⟩,
    fun c v n s h hsp => ⟨_, execSkimYieldWindowEnd_logs h, ?window,
      State.logYield_newest (s := { s with xbar.skimWin := mdel s.xbar.skimWin c.val }) hsp ..⟩⟩
  case spare =>
    rw [State.spare, State.setSpare_spill]
    exact mgetD_mset_self _ _ _ _
  case granted =>
    rw [State.setSpare_spill, State.grantChunk_spill]
    exact mget_mput_self _ _ _
  case window =>
    rw [State.logYield_xbar]
    exact mget_mdel_self _ _
end Sys2Proof.Machine

/-! # Switch core: frames of the registers of commands that also change tables, queues or pins -/

namespace Sys2Proof.Machine
open Host (Outcome)

/-! ### Registers that read as before (O25) -/

/-- No register reads otherwise in t than in s but those at the addresses of l; the rest of State may differ. -/
def State.regsBut (l : List Nat) (s t : State) : Prop := ∀ a, a ∉ l → t.reg a = s.reg a
section
variable {l : List Nat} {s0 s t : State}
theorem State.regsBut.refl (l : List Nat) (s : State) : s.regsBut l s := fun _ _ => rfl
/-- What changes no register keeps the frame. -/
theorem State.regsBut.of_regs (h : s0.regsBut l s) (e : t.regs = s.regs) : s0.regsBut l t :=
  fun a ha => (State.reg_congr e a).trans (h a ha)
theorem State.regsBut.same (e : t.regs = s.regs) : s.regsBut l t := .of_regs (.refl l s) e
theorem State.regsBut.setReg {a : Nat} {w : Word} (h : s0.regsBut l s) (ha : a ∈ l) : s0.regsBut l (s.setReg a w) :=
  fun b hb => (s.reg_setReg_ne w (ne_of_mem_of_not_mem ha hb)).trans (h b hb)
theorem State.regsBut.wr {f : Fld} {n : Nat} (h : s0.regsBut l s) (hf : f.addr ∈ l) : s0.regsBut l (s.wr f n) := h.setReg hf
theorem State.regsBut.flag {f : Fld} (h : s0.regsBut l s) (hf : f.addr ∈ l) : s0.regsBut l (s.flag f) := (h.wr hf).of_regs (s.flag_regs f)
theorem State.regsBut.ite {p : Prop} [Decidable p] (h : p → s0.regsBut l s) (k : ¬p → s0.regsBut l t) : s0.regsBut l (if p then s else t) := by
  split
  · exact h ‹_›
  · exact k ‹_›
theorem State.regsBut.foldl {α : Type} {xs : List α} {f : State → α → State} (h : s0.regsBut l s)
    (k : ∀ u, s0.regsBut l u → ∀ x ∈ xs, s0.regsBut l (f u x)) : s0.regsBut l (xs.foldl f s) :=
  List.foldlRecOn (motive := s0.regsBut l) xs f h k
/-- What a command answers is the next state. -/
theorem regsBut_of_next {u : State} (e : (.next u : Outcome State Fault Refusal) = .next t) (h : s.regsBut l u) : s.regsBut l t := by
  cases e
  exact h
/-- The frame of one register, as the statement writes it. -/
theorem State.regsBut.ne {b : Nat} (h : s.regsBut [b] t) : ∀ a, a ≠ b → t.reg a = s.reg a := fun a ha => h a (by simpa using ha)
end

/-! ### The lane checkers (O25) -/

theorem State.inject_regsBut (s : State) (l : Lane) : s.regsBut [F.LANE_PRBS_STAT_at l] (s.inject l) :=
  .ite (fun _ => .refl _ s) fun _ => .ite (fun _ => .wr (.same rfl) (.head _)) fun _ => .same rfl
theorem execInjOne_sp_regsBut {s t : State} {l : Lane} (e : execInjOne .sp l s = .next t) : s.regsBut [F.LANE_PRBS_STAT_at l] t :=
  regsBut_of_next e (s.inject_regsBut l)
theorem execInjRateError_regsBut {s t : State} {l : Lane} (e : execInjRateError l s = .next t) : s.regsBut [F.LANE_PRBS_STAT_at l] t :=
  regsBut_of_next e (.ite (fun _ => s.inject_regsBut l) fun _ => .refl _ s)
theorem execPrbsCheckerLock_regsBut {s t : State} {l : Lane} (e : execPrbsCheckerLock l s = .next t) :
    s.regsBut [F.LANE_PRBS_STAT_at l] t :=
  regsBut_of_next e (.ite (fun _ => .refl _ s) fun _ =>
    .of_regs (s := s.wr (F.LANE_PRBS_STAT_LOCKED l) 1) (.wr (.refl _ s) (.head _)) rfl)
theorem execPrbsCheckerLockLoss_regsBut {s t : State} {l : Lane} {n : BitVec 32} (e : execPrbsCheckerLockLoss l n s = .next t) :
    s.regsBut [F.LANE_PRBS_STAT_at l] t :=
  regsBut_of_next e (.ite (fun _ => .refl _ s) fun _ => .wr (.wr (.wr (.same rfl) (.head _)) (.head _)) (.head _))
/-- The registers of a lane's checker (Tables 10-13, 10-14). -/
abbrev checkerRegs (l : Nat) : List Nat := [F.LANE_TEST_at l, F.LANE_PRBS_STAT_at l, F.LANE_PRBS_BITS_at l]
theorem State.setChkEn_on_regsBut (s : State) (l : Lane) : s.regsBut (checkerRegs l) (s.setChkEn l true) := by
  have hstat : F.LANE_PRBS_STAT_at l ∈ checkerRegs l := .tail _ (.head _)
  exact .wr (.wr (.wr (.wr (.same rfl) (.head _)) hstat) hstat) (.tail _ (.tail _ (.head _)))
/-- A service processor writes every register (R452). -/
theorem State.ifMay_sp (s : State) (f : Fld) (v : Nat) (k : State → State) : s.ifMay .sp f v k = k s := rfl
theorem execChkEnSet_sp_regsBut {s t : State} {l : Lane} (e : execChkEnSet .sp l s = .next t) :
    s.regsBut (checkerRegs l) t := by
  refine regsBut_of_next e ?_
  rw [State.ifMay_sp]
  exact .ite (fun _ => s.setChkEn_on_regsBut l) fun _ => .refl _ s

/-! ### Spill queues, proxies and the directory's view (O25) -/

theorem State.readPkts_regs (s : State) (c : Cell) (n : Nat) (x : SpillCtx) (w : WFrame) : (s.readPkts c n x w).regs = s.regs :=
  (State.readPkts_keeps rfl (Keeps.refl s) c n x w).regs_eq
theorem execSpillFetch_regsBut {s t : State} {c : Cell} {n : Fin 64} (e : execSpillFetch c n s = .next t) :
    s.regsBut [F.SPILL_STATUS_at c] t := by
  refine regsBut_of_next e ?_
  split
  · exact .refl _ s
  · split
    · exact .refl _ s
    · exact .ite (fun _ => .of_regs (.wr (.same (s.xingPass_regs _ _)) (.head _)) (State.readPkts_regs ..)) fun _ => .refl _ s
theorem execProxyAgeCheck_regsBut {s t : State} {h : Cell} (e : execProxyAgeCheck h s = .next t) :
    s.regsBut [F.HOME_PROXY_STATUS_at h, F.HOME_PROXY_DROPS_at h] t :=
  regsBut_of_next e (.wr (.wr (.same rfl) (.head _)) (.tail _ (.head _)))
theorem execDirLookup_regsBut {s t : State} {h : Cell} (e : execDirLookup h s = .next t) : s.regsBut [F.DIR_VIEW2_at h] t :=
  regsBut_of_next e (.wr (.ite (fun _ => .refl _ s) fun _ => .same rfl) (.head _))
theorem execDirLookupComplete_regsBut {s t : State} {h : Cell} (e : execDirLookupComplete h s = .next t) :
    s.regsBut [F.DIR_VIEW0_at h, F.DIR_VIEW1_at h, F.DIR_VIEW2_at h] t := by
  refine regsBut_of_next e (.ite (fun _ => .refl _ s) fun _ => ?_)
  have hview : F.DIR_VIEW2_at h ∈ [F.DIR_VIEW0_at h, F.DIR_VIEW1_at h, F.DIR_VIEW2_at h] := .tail _ (.tail _ (.head _))
  refine .wr (.wr (.wr (.wr (.wr (.wr (.wr (.wr (.setReg ?_ hview) hview) hview) hview) hview) hview) hview) hview) hview
  exact .setReg (.setReg (.same rfl) (.head _)) (.tail _ (.head _))

/-! ### Snoops and their answers (O25) -/

/-- A packet that comes into a cell out of HOLD, or into a fenced one, changes the absorb counts only, and what it does there. -/
theorem State.arrive_regsBut {s : State} {p : Pkt} {k : State → State} (hk : ∀ u, (k u).regs = u.regs)
    (h : s.cellFenced p.dst = true ∨ s.rd (F.SCRIM_RTR_STATUS_LOCAL_MODE p.dst) ≠ 1) : s.regsBut [F.SCRIM_ABSORB_at p.dst] (s.arrive p k) := by
  refine .ite (fun _ => .wr (.same (State.lose_keeps rfl (Keeps.refl s) [p]).regs_eq) (.head _)) fun hf => .ite (fun _ => .refl _ s) fun _ => ?_
  rw [if_neg (h.resolve_left hf)]
  exact .ite (fun _ => .same (s.take_regs p)) fun _ => .same ((hk _).trans (s.take_regs p))
theorem State.anchorSnoop_regsBut {s : State} {p : Pkt}
    (h : s.cellFenced p.dst = true ∨ s.rd (F.SCRIM_RTR_STATUS_LOCAL_MODE p.dst) ≠ 1) : s.regsBut [F.SCRIM_ABSORB_at p.dst] (s.anchorSnoop p) := by
  refine State.arrive_regsBut (fun u => ?_) h
  dsimp only
  split
  · rfl
  · split
    · rfl
    · rfl
theorem execSnoop_regsBut {s t : State} {p : Pkt} {c : Instr} (hc : c ∈ [Instr.bisnpcur p, .bisnpdata p, .bisnpinv p, .bicack p])
    (e : exec c s = .next t) (h : s.cellFenced p.dst = true ∨ s.rd (F.SCRIM_RTR_STATUS_LOCAL_MODE p.dst) ≠ 1) :
    s.regsBut [F.SCRIM_ABSORB_at p.dst] t := by
  simp only [List.mem_cons, List.not_mem_nil, or_false] at hc
  rcases hc with rfl | rfl | rfl | rfl
  · exact regsBut_of_next e (State.anchorSnoop_regsBut (p := { p with opc := .bisnpcur }) h)
  · exact regsBut_of_next e (State.anchorSnoop_regsBut (p := { p with opc := .bisnpdata }) h)
  · exact regsBut_of_next e (State.anchorSnoop_regsBut (p := { p with opc := .bisnpinv }) h)
  · exact regsBut_of_next e (State.arrive_regsBut (p := { p with opc := .bicack }) (fun u => u.emit_regs _) h)
theorem State.sendBirsp_regs (s : State) (a : Cell) (n : Nat) (b : BiTag) (mv : Mv) : (s.sendBirsp a n b mv).regs = s.regs :=
  (State.sendBirsp_keeps rfl (Keeps.refl s) a n b mv).regs_eq
theorem execHostBirsp_regsBut {s t : State} {h : Cell} {n : Fin 4096} {mv : Mv} (e : execHostBirsp h n mv s = .next t) :
    s.regsBut [F.HOME_BIRSP_HOLD_at h] t := by
  refine regsBut_of_next e ?_
  split
  · exact .refl _ s
  · exact .ite (fun _ => .refl _ s) fun _ => .ite (fun _ => .wr (.same rfl) (.head _)) fun _ => .same (State.sendBirsp_regs ..)

/-! ### Keys (O25) -/

theorem execIdeKmKeySet_regsBut {s t : State} {p : Cell} {go : Bool} (e : execIdeKmKeySet p go s = .next t) :
    s.regsBut [F.SEC_IDE_at p] t :=
  regsBut_of_next e (.ite (fun _ => .refl _ s) fun _ =>
    .wr (.wr (.ite (fun _ => .same rfl) fun _ => .same rfl) (.head _)) (.head _))
theorem State.regsBut.setKeyRec {l : List Nat} {s0 s : State} {k : Nat} {r : KeyRec} (h : s0.regsBut l s) (hs : F.SEC_STATUS_at ∈ l) :
    s0.regsBut l (s.setKeyRec k r) := .wr (.of_regs h rfl) hs
theorem execZeroize_regsBut {s t : State} {c : Cell} {k : KeySlot} (e : execZeroize c k s = .next t) : s.regsBut [F.SEC_STATUS_at] t :=
  regsBut_of_next e (.ite (fun _ => .setKeyRec (.same rfl) (.head _)) fun _ => .refl _ s)
theorem execZeroizeComplete_regsBut {s t : State} {k : KeySlot} (e : execZeroizeComplete k s = .next t) :
    s.regsBut [F.SEC_STATUS_at, F.SEC_KEY_CNT_at] t :=
  regsBut_of_next e (.ite (fun _ => .wr (.setKeyRec (.same rfl) (.head _)) (.tail _ (.head _))) fun _ => .refl _ s)

/-! ### Press and migration (O25) -/

theorem State.startWalkers_regs (s : State) : s.startWalkers.regs = s.regs := (State.startWalkers_keeps rfl (Keeps.refl s)).regs_eq
theorem State.regsBut.pressEnd {l : List Nat} {s0 s : State} {d : Nat} (h : s0.regsBut l s) (hop : F.INST_PRESS_OP_at d ∈ l)
    (heng : F.INST_ENG_STATUS_at d ∈ l) : s0.regsBut l (s.pressEnd d) := by
  refine .of_regs (.wr (.wr ?_ hop) heng) (State.startWalkers_regs _)
  exact .of_regs h rfl
theorem execPressSourceDrained_regsBut {s t : State} {d : Die} (e : execPressSourceDrained d s = .next t) :
    s.regsBut [F.INST_PRESS_OP_at d, F.INST_ENG_STATUS_at d] t := by
  refine regsBut_of_next e ?_
  split
  next o _ =>
    refine .ite (fun _ => .refl _ s) fun _ => State.regsBut.pressEnd (.foldl (.refl _ s) fun u hu q _ => ?_) (.head _) (.tail _ (.head _))
    exact .of_regs hu rfl
  next => exact .refl _ s
/-- No Press operation has a part that moves an extent of the list. -/
def State.noPress (s : State) (es : List Nat) : Prop := ∀ d o, mget s.pool.press d = some o → ∀ q ∈ o.parts, q.2.ext ∉ es
theorem State.noPress.of_pool {s t : State} {i : Nat} (h : s.noPress (s.owner i).exts) (e : t.pool = s.pool) : t.noPress (t.owner i).exts := by
  unfold State.noPress State.owner
  rw [e]
  exact h
theorem State.abortMoves_of_noPress {s : State} {es : List Nat} (h : s.noPress es) : s.abortMoves es = s := by
  refine List.foldlRecOn (motive := fun u => u = s) _ _ rfl fun u hu d _ => ?_
  subst hu
  split
  next o ho => exact if_neg (by simpa using h d o ho)
  next => rfl
/-- The registers that the start of a migration or a save writes (R246). -/
abbrev migRegs (i : Nat) : List Nat := [F.INST_INFO_at i, F.INST_MIG_at i, F.INST_MIG_STATUS_at i]
theorem State.regsBut.freeze {s0 s : State} {i : Nat} {m : Mig} (h : s0.regsBut (migRegs i) s) (hp : s.noPress (s.owner i).exts) :
    s0.regsBut (migRegs i) (s.freeze i m) := by
  have hst : F.INST_MIG_STATUS_at i ∈ migRegs i := .tail _ (.tail _ (.head _))
  refine .wr (.wr (.wr (.wr (.wr (.of_regs ?_ (congrArg State.regs (State.abortMoves_of_noPress hp))) (.head _)) hst) hst)
    (.tail _ (.head _))) (.head _)
  exact .of_regs h rfl
theorem State.migRefuse_regsBut (s : State) (i : Nat) : s.regsBut (migRegs i) (s.migRefuse i) := .flag (.refl _ s) (.tail _ (.head _))
theorem State.migrateOp_regsBut {s : State} {i : Nat} (hp : s.noPress (s.owner i).exts) : s.regsBut (migRegs i) (s.migrateOp i) := by
  refine .ite (fun _ => .refl _ s) fun _ => ?_
  split
  · exact .ite (fun _ => .freeze (.refl _ s) hp) fun _ => s.migRefuse_regsBut i
  · exact s.migRefuse_regsBut i
theorem State.saveOp_regsBut {s : State} {i : Nat} (hp : s.noPress (s.owner i).exts) : s.regsBut (migRegs i) (s.saveOp i) := by
  refine .ite (fun _ => .refl _ s) fun _ => .ite (fun _ => s.migRefuse_regsBut i) fun _ => ?_
  have hstray : s.regsBut (migRegs i) (s.wr (F.INST_MIG_STATUS_STRAY i) 0) := .wr (.refl _ s) (.tail _ (.tail _ (.head _)))
  exact hstray.freeze (hp.of_pool (s.wr_pool _ _))
theorem execMigStart_regsBut {s t : State} {i : Inst} {c : Instr} (hc : c ∈ [Instr.migMigrate .sp i, .migSave .sp i])
    (e : exec c s = .next t) (hp : s.noPress (s.owner i).exts) : s.regsBut (migRegs i) t := by
  rcases List.mem_pair.1 hc with rfl | rfl
  · exact regsBut_of_next e (State.migrateOp_regsBut hp)
  · exact regsBut_of_next e (State.saveOp_regsBut hp)

/-! ### The boot memory (O25) -/

/-- The control register of the NOR window and its data words (Table 15-23). -/
abbrev norRegs : List Nat := F.PKG_NOR_CTRL_at :: (List.range 32).map F.PKG_NOR_DATA_at
theorem State.norEffect_regsBut (s : State) (o : NorOp) (ok : Bool) : s.regsBut norRegs (s.norEffect o ok) := by
  unfold State.norEffect
  split
  · refine .foldl (.refl _ s) fun u hu n hn => ?_
    have hreg := List.mem_map_of_mem (f := F.PKG_NOR_DATA_at) hn
    exact .wr hu (.tail _ hreg)
  · exact .refl _ s
  · exact .same rfl
  · exact .same rfl
  · exact .same rfl
  · exact .same rfl
theorem execNorOpComplete_regsBut {s t : State} {ok : Bool} (e : execNorOpComplete ok s = .next t) : s.regsBut norRegs t := by
  refine regsBut_of_next e ?_
  split
  · exact .refl _ s
  · exact .of_regs (.wr (.wr (.of_regs (s.norEffect_regsBut _ ok) rfl) (.head _)) (.head _))
      (State.catchUp_keeps rfl (Keeps.refl _) _).regs_eq

/-! ### Counters (O25) -/

/-- The pointers of a cell's sample records and the words of its ring (Table 17-7). -/
abbrev srecRegs (c : Nat) : List Nat := F.CTR_SREC_PTR_at c :: (List.range 64).map (fun n => F.CTR_SREC_at c (n / 8) (n % 8))
/-- The ring holds eight records of eight words. -/
theorem srecRec_mem {c r w : Nat} (hr : r < 8) (hw : w < 8) : (F.CTR_SREC_REC c r w).addr ∈ srecRegs c := by
  refine .tail _ (List.mem_map.2 ⟨8 * r + w, List.mem_range.2 (by omega), ?_⟩)
  rw [Nat.mul_add_div (by decide), Nat.div_eq_of_lt hw, Nat.mul_add_mod, Nat.mod_eq_of_lt hw]
  rfl
theorem State.ctrRing_regsBut (s : State) (c : Cell) (ws : List Nat) : s.regsBut (srecRegs c) (s.ctrRing c ws) :=
  .ite (fun _ => .wr (.refl _ s) (.head _)) fun _ => .wr
    (.foldl (.refl _ s) fun _ hu _ hn => .wr hu (srecRec_mem (s.rd_lt (F.CTR_SREC_PTR_WR_IDX c)) (List.mem_range.1 hn))) (.head _)
theorem State.sendHist_regs (s : State) (c : Cell) : (s.sendHist c).regs = s.regs := (State.sendHist_keeps rfl (Keeps.refl s) c).regs_eq
theorem execCtrCapture_regsBut {s t : State} {c : Cell} {busy : Bool} (e : execCtrCapture c busy s = .next t) : s.regsBut (srecRegs c) t := by
  refine regsBut_of_next e ?_
  split
  · exact .refl _ s
  · extract_lets ws u
    have hu : s.regsBut (srecRegs c) u := .wr (s.ctrRing_regsBut c ws) (.head _)
    exact .ite (fun _ => .of_regs hu rfl) fun _ => .of_regs hu (State.sendHist_regs ..)
/-- The control register of a cell's counters and their values (Tables 17-5, 17-6). -/
abbrev ctrRegs (c : Nat) : List Nat := F.CTR_CTL_at c :: (List.range 8).map (F.CTR_VAL_at c)
theorem ctrVal_mem {c n : Nat} (h : n < 8) : F.CTR_VAL_at c n ∈ ctrRegs c := .tail _ (List.mem_map_of_mem (List.mem_range.2 h))
theorem State.ctrSignal_regs (s : State) (c n : Nat) : (s.ctrSignal c n).regs = s.regs := (State.ctrSignal_keeps rfl (Keeps.refl s) c n).regs_eq
/-- Only a lower half carries, so the counter that it carries into is one of the eight (R475). -/
theorem State.ctrAdd_regsBut (s : State) {c n k : Nat} (h : n < 8) : s.regsBut (ctrRegs c) (s.ctrAdd c n k) := by
  have hlo : F.CTR_VAL_at c n ∈ ctrRegs c := ctrVal_mem h
  refine .ite (fun _ => .wr (.refl _ s) hlo) fun _ => .ite (fun hch => ?chained) fun _ => .ite (fun _ => ?sampled) fun _ => ?alone
  case chained =>
    have heven : n % 2 = 0 := by simpa using (Bool.and_eq_true_iff.1 hch).2
    have hhi : F.CTR_VAL_at c (n + 1) ∈ ctrRegs c := ctrVal_mem (by omega)
    refine .ite (fun _ => .wr (.refl _ s) hlo) fun _ => .ite (fun _ => .wr (.wr (.refl _ s) hlo) hhi) fun _ => .ite (fun _ => ?_) fun _ => ?_
    · exact .of_regs (.wr (.wr (.flag (.wr (.refl _ s) hlo) (.head _)) hlo) hhi) (State.ctrSignal_regs ..)
    · exact .wr (.flag (.wr (.refl _ s) hlo) (.head _)) hhi
  case sampled => exact .of_regs (.wr (.flag (.refl _ s) (.head _)) hlo) (State.ctrSignal_regs ..)
  case alone => exact .wr (.flag (.refl _ s) (.head _)) hlo
theorem execCtrOverflow_regsBut {s t : State} {c : Cell} {n : Fin 8} {k : Fin 1025} (e : execCtrOverflow c n k s = .next t) :
    s.regsBut (ctrRegs c) t :=
  regsBut_of_next e (.ite (fun _ => .ite (fun _ => s.ctrAdd_regsBut n.isLt) fun _ => .refl _ s) fun _ => .refl _ s)

/-! ### Onora links (O25) -/

theorem State.sendWord_regs (s : State) (a : Cell) (typ seq : Nat) (slots : List OSlot) (nak : Bool) :
    (s.sendWord a typ seq slots nak).regs = s.regs := (State.sendWord_keeps rfl (Keeps.refl s) a typ seq slots nak).regs_eq
theorem State.sendNak_regsBut (s : State) (a : Cell) : s.regsBut [F.ONL_ERR_at a] (s.sendNak a) :=
  .of_regs (s := s.sat (F.ONL_ERR_NAKS_SENT a)) (.wr (.refl _ s) (.head _)) (State.sendWord_regs ..)
theorem execOnoraNakRepeat_regsBut {s t : State} {c : Cell} (e : execOnoraNakRepeat c s = .next t) : s.regsBut [F.ONL_ERR_at c] t :=
  regsBut_of_next e (.ite (fun _ => s.sendNak_regsBut c) fun _ => .refl _ s)
/-- The registers that the start of training writes (R337). -/
abbrev trainRegs (c : Nat) : List Nat := [F.LANE_PORT_STATUS_at c, F.ONL_STATUS_at c, F.LANE_PORT_CTRL_at c]
theorem State.regsBut.trainStart {s0 s : State} {c : Cell} (h : s0.regsBut (trainRegs c) s) : s0.regsBut (trainRegs c) (s.trainStart c) := by
  have hst : F.ONL_STATUS_at c ∈ trainRegs c := .tail _ (.head _)
  unfold State.trainStart
  split
  · exact .wr (.wr (.wr h hst) hst) (.tail _ (.tail _ (.head _)))
  · extract_lets u
    have hu : s0.regsBut (trainRegs c) (u.wr (F.LANE_PORT_STATUS_STATE c) 2) := .wr (.wr (.wr h hst) hst) (.head _)
    exact .of_regs hu rfl
theorem execOnoraStart_regsBut {s t : State} {c : Cell} {v : Instr} (hv : v ∈ [Instr.onoraTrainRetry c, .onoraSignalRegained c])
    (e : exec v s = .next t) : s.regsBut (trainRegs c) t := by
  rcases List.mem_pair.1 hv with rfl | rfl
  · exact regsBut_of_next e (.ite (fun _ => .trainStart (.refl _ s)) fun _ => .refl _ s)
  · exact regsBut_of_next e (.ite (fun _ => .trainStart (.same rfl)) fun _ => .refl _ s)

/-! ### The frames together (O25) -/

/-- Settles O25: each command's frame is the lemma on its exec named here. -/
theorem registerFrames : Obligations.RegisterFrames := by
  intro s t
  refine ⟨fun l c hc e => ?prbs, fun _ _ e => (execPrbsCheckerLockLoss_regsBut e).ne, fun _ => execChkEnSet_sp_regsBut,
    fun _ _ e => (execSpillFetch_regsBut e).ne, fun _ => execProxyAgeCheck_regsBut, fun _ e => (execDirLookup_regsBut e).ne,
    fun _ => execDirLookupComplete_regsBut, fun _ _ hc e h => (execSnoop_regsBut hc e h).ne, fun _ _ _ e => (execHostBirsp_regsBut e).ne,
    fun _ _ e => (execIdeKmKeySet_regsBut e).ne, fun _ _ e => (execZeroize_regsBut e).ne, fun _ => execZeroizeComplete_regsBut,
    fun _ => execPressSourceDrained_regsBut, fun _ _ => execMigStart_regsBut, fun _ => execNorOpComplete_regsBut,
    fun _ _ => execCtrCapture_regsBut, fun _ _ _ => execCtrOverflow_regsBut, fun _ e => (execOnoraNakRepeat_regsBut e).ne,
    fun _ _ => execOnoraStart_regsBut⟩
  case prbs =>
    simp only [List.mem_cons, List.not_mem_nil, or_false] at hc
    rcases hc with rfl | rfl | rfl
    · exact (execInjOne_sp_regsBut e).ne
    · exact (execInjRateError_regsBut e).ne
    · exact (execPrbsCheckerLock_regsBut e).ne

end Sys2Proof.Machine

/-! # Coherence homes: hashing, places of directory entries, presence and victim ways -/

namespace Sys2Proof.Machine
open Host (Outcome)

/-! ### Home hashing (O40) -/

/-- What the bits of a line address above its low seven give to the fold of R154. -/
def foldAbove (m : Nat) : Nat :=
  m % 128 ^^^ m / 2 ^ 7 % 128 ^^^ m / 2 ^ 14 % 128 ^^^ m / 2 ^ 21 % 128 ^^^ m / 2 ^ 28 % 128 ^^^ m / 2 ^ 35 % 16
theorem homeIndex_eq_foldAbove (n line : Nat) : homeIndex n line = (line % 128 ^^^ foldAbove (line / 128)) % n := by
  simp only [homeIndex, lineBits, foldAbove, Nat.div_div_eq_div_mul, Nat.xor_assoc, Nat.reducePow, Nat.reduceMul, Nat.div_one]
/-- For a power of two up to 128 cells, the low bits of a line meet the fold of the others bit by bit. -/
theorem homeIndex_two_pow {k : Nat} (hk : k ≤ 7) (line : Nat) :
    homeIndex (2 ^ k) line = line % 2 ^ k ^^^ foldAbove (line / 128) % 2 ^ k := by
  have hdvd : 2 ^ k ∣ 128 := Nat.pow_dvd_pow 2 hk
  rw [homeIndex_eq_foldAbove, Nat.xor_mod_two_pow, Nat.mod_mod_of_dvd _ hdvd]
/-- The lines of one aligned group of 2 ^ k agree above their low seven bits. -/
theorem group_div_eq {k : Nat} (hk : k ≤ 7) (base : Nat) {i : Nat} (hi : i < 2 ^ k) : (2 ^ k * base + i) / 128 = base / 2 ^ (7 - k) := by
  have h128 : 128 = 2 ^ k * 2 ^ (7 - k) := by rw [← Nat.pow_add, Nat.add_sub_cancel' hk]
  rw [h128, ← Nat.div_div_eq_div_mul, Nat.mul_add_div (Nat.two_pow_pos k), Nat.div_eq_of_lt hi, Nat.add_zero]
theorem homeIndex_group_injective {k : Nat} (hk : k ≤ 7) {base i j : Nat} (hi : i < 2 ^ k) (hj : j < 2 ^ k)
    (h : homeIndex (2 ^ k) (2 ^ k * base + i) = homeIndex (2 ^ k) (2 ^ k * base + j)) : i = j := by
  rw [homeIndex_two_pow hk, homeIndex_two_pow hk, group_div_eq hk base hi, group_div_eq hk base hj] at h
  simpa [Nat.mul_add_mod, Nat.mod_eq_of_lt hi, Nat.mod_eq_of_lt hj] using Nat.xor_left_injective h

/-- Settles O40: for a group of 2 ^ k lines the fold is a permutation of the low k bits. -/
theorem homesSpreadLines : Obligations.HomesSpreadLines := by
  refine ⟨fun s c line => rfl, fun n hn => ?_⟩
  obtain ⟨k, hk, rfl⟩ : ∃ k ≤ 7, n = 2 ^ k := by
    rcases hn with rfl | rfl | rfl
    · exact ⟨7, by decide, rfl⟩
    · exact ⟨6, by decide, rfl⟩
    · exact ⟨5, by decide, rfl⟩
  refine ⟨fun line => ⟨?_, Nat.mod_lt _ (Nat.two_pow_pos k)⟩, fun base i j hi hj h => homeIndex_group_injective hk hi hj h⟩
  simp only [homeIndex, lineBits, Nat.reducePow, Nat.div_one]

/-! ### Places of directory entries (O41) -/

/-- The slab of a cell among the 32 of its copy (R157). -/
def slabOf (c : Cell) : Nat := 16 * (dieOf c % 2) + c.val % 16
theorem slabOf_lt (c : Cell) : slabOf c < 32 := by unfold slabOf; omega
theorem dirOffset_eq (c : Cell) (set way : Nat) (m : Bool) :
    dirOffset c set way m = slabOf c * 0x10000000 + set * 0x100 + way * 0x10 + (if m then 0x200000000 else 0) := rfl
theorem dirOffset_primary_lt (c : Cell) {set way : Nat} (hs : set < 2 ^ 20) (hw : way < 16) : dirOffset c set way false < 0x200000000 := by
  have := slabOf_lt c
  rw [dirOffset_eq, if_neg (by decide)]
  omega
theorem dirOffset_mirror (c : Cell) (set way : Nat) : dirOffset c set way true = 0x200000000 + dirOffset c set way false := by
  rw [dirOffset_eq, dirOffset_eq, if_pos rfl, if_neg (by decide)]
  omega
theorem slab_of_dirOffset (c : Cell) {set way : Nat} (hs : set < 2 ^ 20) (hw : way < 16) (m : Bool) :
    dirOffset c set way m % 0x200000000 / 0x10000000 = slabOf c := by
  have := slabOf_lt c
  rw [dirOffset_eq]
  cases m <;> simp <;> omega
theorem set_way_of_dirOffset (c : Cell) {set way : Nat} (hs : set < 2 ^ 20) (hw : way < 16) (m : Bool) :
    dirOffset c set way m / 256 % 2 ^ 20 = set ∧ dirOffset c set way m / 16 % 16 = way := by
  rw [dirOffset_eq]
  cases m <;> simp <;> omega
theorem dirSet_lt (line : Nat) : dirSet line < 2 ^ 20 :=
  Nat.xor_lt_two_pow (Nat.mod_lt _ (by decide)) (lt_trans (Nat.mod_lt _ (by decide)) (by decide))
/-- The quarter of a die's own controller, and of its mirror partner's, is the die's (Table 6-1). -/
theorem dieQuarter_primaryDie {d : Nat} (h : d < 8) :
    dieQuarter (primaryDie d) = 2 * (d % 4 / 2) + d / 4 ∧ dieQuarter (((primaryDie d + 4) % 8 + 4) % 8) = 2 * (d % 4 / 2) + d / 4 := by
  revert d
  decide
/-- A cell from its quarter and its slab. -/
theorem cell_of_quarter_slab (c : Cell) {q : Nat} (hq : q = 2 * (dieOf c % 4 / 2) + dieOf c / 4) :
    Cell.of ((q % 2 * 4 + q / 2 * 2 + slabOf c / 16) * 16 + slabOf c % 16) = c := by
  have hrow : q % 2 = c.val / 64 := by unfold dieOf at hq; omega
  have hpair : q / 2 = c.val / 16 % 4 / 2 := by unfold dieOf at hq; omega
  have hdie : slabOf c / 16 = c.val / 16 % 2 := by unfold slabOf dieOf; omega
  have hcell : slabOf c % 16 = c.val % 16 := by unfold slabOf; omega
  apply Fin.ext
  rw [hrow, hpair, hdie, hcell, Fin.val_ofNat]
  omega
theorem offsetCell_primary (c : Cell) {set way : Nat} (hs : set < 2 ^ 20) (hw : way < 16) :
    offsetCell (primaryDie (dieOf c)) (dirOffset c set way false) = c := by
  have hd : dieOf c < 8 := by unfold dieOf; omega
  simp only [offsetCell, if_pos (dirOffset_primary_lt c hs hw), slab_of_dirOffset c hs hw]
  exact cell_of_quarter_slab c (dieQuarter_primaryDie hd).1
theorem offsetCell_mirror (c : Cell) {set way : Nat} (hs : set < 2 ^ 20) (hw : way < 16) :
    offsetCell ((primaryDie (dieOf c) + 4) % 8) (dirOffset c set way true) = c := by
  have hd : dieOf c < 8 := by unfold dieOf; omega
  have hge : ¬ dirOffset c set way true < 0x200000000 := by rw [dirOffset_mirror]; omega
  simp only [offsetCell, if_neg hge, slab_of_dirOffset c hs hw]
  exact cell_of_quarter_slab c (dieQuarter_primaryDie hd).2
theorem primaryDie_row {d : Nat} (h : d < 8) : primaryDie d / 4 = d / 4 := by
  revert d
  decide

/-- Settles O41: an offset is read back digit by digit, as slab, set and way. -/
theorem directoryPlacesAreDistinct : Obligations.DirectoryPlacesAreDistinct := by
  intro c set way hs hw
  have hlow := dirOffset_primary_lt c hs hw
  have hmir := dirOffset_mirror c set way
  refine ⟨⟨hlow, by omega, by omega⟩, dirSet_lt, offsetCell_primary c hs hw, offsetCell_mirror c hs hw,
    primaryDie_row (by omega), fun b set' way' m hs' hw' h => ?_⟩
  obtain ⟨hset, hway⟩ := set_way_of_dirOffset c hs hw m
  obtain ⟨hset', hway'⟩ := set_way_of_dirOffset b hs' hw' m
  have hslab : slabOf c = slabOf b := by rw [← slab_of_dirOffset c hs hw m, ← slab_of_dirOffset b hs' hw' m, h]
  rw [h] at hset hway
  refine ⟨hset.symm.trans hset', hway.symm.trans hway', ?_⟩
  unfold slabOf dieOf at hslab
  omega

/-! ### Presence (O42) -/

theorem getLsbD_two_pow {n i : Nat} (hi : i < 64) : (BitVec.ofNat 64 (2 ^ n)).getLsbD i = decide (n = i) := by
  rw [BitVec.getLsbD_ofNat, Nat.testBit_two_pow]
  simp [hi]
/-- The sharers of an exact entry are the slots whose bits are set. -/
theorem DirEntry.mem_holders_exact {e : DirEntry} (hst : e.st = .S) (hc : e.coarse = false) (g : HSlot) :
    g ∈ e.holders ↔ e.presence.getLsbD g.val = true := by
  simp only [DirEntry.holders, hst, hc, List.mem_map, List.mem_filter, List.mem_range, BitVec.testBit_toNat, Bool.false_eq_true, if_false]
  constructor
  · rintro ⟨j, ⟨hj, hbit⟩, rfl⟩
    rwa [Fin.val_ofNat, Nat.mod_eq_of_lt (by omega)]
  · intro h
    exact ⟨g.val, ⟨BitVec.lt_of_getLsbD h, h⟩, Fin.ofNat_val_eq_self g⟩
/-- The sharers of a coarse entry are both slots of each pair whose bit is set. -/
theorem DirEntry.mem_holders_coarse {e : DirEntry} (hst : e.st = .S) (hc : e.coarse = true) (g : HSlot) :
    g ∈ e.holders ↔ g.val < 96 ∧ e.presence.getLsbD (g.val / 2) = true := by
  simp only [DirEntry.holders, hst, hc, List.mem_flatMap, List.mem_filter, List.mem_range, BitVec.testBit_toNat, if_true, List.mem_cons,
    List.not_mem_nil, or_false]
  constructor
  · rintro ⟨j, ⟨hj, hbit⟩, rfl | rfl⟩
    · rw [Fin.val_ofNat, Nat.mod_eq_of_lt (by omega)]
      exact ⟨by omega, by rwa [show 2 * j / 2 = j by omega]⟩
    · rw [Fin.val_ofNat, Nat.mod_eq_of_lt (by omega)]
      exact ⟨by omega, by rwa [show (2 * j + 1) / 2 = j by omega]⟩
  · rintro ⟨hg, hbit⟩
    refine ⟨g.val / 2, ⟨by omega, hbit⟩, ?_⟩
    rcases Nat.mod_two_eq_zero_or_one g.val with h | h
    · exact .inl (Fin.ext (by rw [Fin.val_ofNat]; omega))
    · exact .inr (Fin.ext (by rw [Fin.val_ofNat]; omega))
/-- A set of slots as pairs: the bit of each pair of which a slot is in the set (R164). -/
def pairBits (w : Word) : Nat := (List.range 64).foldl (fun acc b => if w.toNat.testBit b then acc ||| 2 ^ (b / 2) else acc) 0
theorem testBit_pairFold (w : Word) (n i : Nat) :
    ((List.range n).foldl (fun acc b => if w.toNat.testBit b then acc ||| 2 ^ (b / 2) else acc) 0).testBit i = true ↔
      ∃ b < n, w.getLsbD b = true ∧ b / 2 = i := by
  induction n with
  | zero => simp
  | succ n ih =>
    rw [List.range_succ, List.foldl_append, List.foldl_cons, List.foldl_nil, BitVec.testBit_toNat]
    have hsplit : (∃ b < n + 1, w.getLsbD b = true ∧ b / 2 = i) ↔ (∃ b < n, w.getLsbD b = true ∧ b / 2 = i) ∨ w.getLsbD n = true ∧ n / 2 = i := by
      constructor
      · rintro ⟨b, hb, h⟩
        rcases Nat.lt_succ_iff_lt_or_eq.1 hb with hb | rfl
        · exact .inl ⟨b, hb, h⟩
        · exact .inr h
      · rintro (⟨b, hb, h⟩ | h)
        · exact ⟨b, by omega, h⟩
        · exact ⟨n, by omega, h⟩
    rw [hsplit]
    split
    · next hbit => rw [Nat.testBit_or, Nat.testBit_two_pow, Bool.or_eq_true, ih, decide_eq_true_eq]; simp [hbit]
    · next hbit => rw [ih]; simp [hbit]
theorem testBit_pairBits (w : Word) (i : Nat) : (pairBits w).testBit i = true ↔ ∃ b, w.getLsbD b = true ∧ b / 2 = i := by
  rw [pairBits, testBit_pairFold]
  exact ⟨fun ⟨b, _, h⟩ => ⟨b, h⟩, fun ⟨b, h⟩ => ⟨b, BitVec.lt_of_getLsbD h.1, h⟩⟩

/-- A sharer joins an entry: its bit, its pair's bit, or its pair's bit beside the pairs of the former sharers (R164). -/
theorem DirEntry.addSharer_coarse {e : DirEntry} (hst : e.st = .S) (hc : e.coarse = true) (h : HSlot) :
    e.addSharer h = { e with presence := e.presence ||| BitVec.ofNat 64 (2 ^ (h.val / 2)) } := by
  simp only [DirEntry.addSharer, hst, hc, if_true]
theorem DirEntry.addSharer_low {e : DirEntry} (hst : e.st = .S) (hc : e.coarse = false) {h : HSlot} (hh : h.val < 64) :
    e.addSharer h = { e with presence := e.presence ||| BitVec.ofNat 64 (2 ^ h.val) } := by
  simp only [DirEntry.addSharer, hst, hc, if_true, Bool.false_eq_true, if_false, hh]
theorem DirEntry.addSharer_high {e : DirEntry} (hst : e.st = .S) (hc : e.coarse = false) {h : HSlot} (hh : 64 ≤ h.val) :
    e.addSharer h = { e with coarse := true, presence := BitVec.ofNat 64 (pairBits e.presence ||| 2 ^ (h.val / 2)) } := by
  simp only [DirEntry.addSharer, hst, hc, if_true, Bool.false_eq_true, if_false, Nat.not_lt.2 hh]
  rfl

theorem DirEntry.mem_addSharer_coarse {e : DirEntry} {h : HSlot} (hst : e.st = .S) (hc : e.coarse = true) (g : HSlot) :
    g ∈ (e.addSharer h).holders ↔ g.val < 96 ∧ (g.val / 2 = h.val / 2 ∨ e.presence.getLsbD (g.val / 2) = true) := by
  rw [DirEntry.addSharer_coarse hst hc]
  refine (DirEntry.mem_holders_coarse (by exact hst) (by exact hc) g).trans ?_
  refine and_congr_right fun hg => ?_
  rw [BitVec.getLsbD_or, getLsbD_two_pow (by omega), Bool.or_eq_true, decide_eq_true_eq, or_comm, eq_comm]
theorem DirEntry.mem_addSharer_high {e : DirEntry} {h : HSlot} (hst : e.st = .S) (hc : e.coarse = false) (hk : 64 ≤ h.val) (g : HSlot) :
    g ∈ (e.addSharer h).holders ↔ g.val < 96 ∧ (g.val / 2 = h.val / 2 ∨ ∃ k ∈ e.holders, k.val / 2 = g.val / 2) := by
  rw [DirEntry.addSharer_high hst hc hk]
  refine (DirEntry.mem_holders_coarse (by exact hst) rfl g).trans ?_
  refine and_congr_right fun hg => ?_
  rw [BitVec.getLsbD_ofNat, Nat.testBit_or, Nat.testBit_two_pow, Bool.and_eq_true, Bool.or_eq_true, testBit_pairBits, decide_eq_true_eq,
    decide_eq_true_eq, or_comm, eq_comm (a := h.val / 2)]
  refine ⟨fun ⟨_, hor⟩ => hor.imp_right ?_, fun hor => ⟨by omega, hor.imp_right ?_⟩⟩
  · rintro ⟨b, hb, hpair⟩
    have hlt := BitVec.lt_of_getLsbD hb
    refine ⟨⟨b, by omega⟩, (DirEntry.mem_holders_exact hst hc _).2 hb, hpair⟩
  · rintro ⟨k, hk, hpair⟩
    exact ⟨k.val, (DirEntry.mem_holders_exact hst hc _).1 hk, hpair⟩
theorem DirEntry.mem_addSharer_low {e : DirEntry} {h : HSlot} (hst : e.st = .S) (hc : e.coarse = false) (hh : h.val < 64) (g : HSlot) :
    g ∈ (e.addSharer h).holders ↔ g = h ∨ g ∈ e.holders := by
  rw [DirEntry.addSharer_low hst hc hh, DirEntry.mem_holders_exact hst hc]
  refine (DirEntry.mem_holders_exact (by exact hst) (by exact hc) g).trans ?_
  rw [BitVec.getLsbD_or, Bool.or_eq_true, or_comm]
  refine or_congr_left ?_
  rw [BitVec.getLsbD_ofNat, Nat.testBit_two_pow, Bool.and_eq_true, decide_eq_true_eq, decide_eq_true_eq, Fin.ext_iff]
  omega
theorem DirEntry.addSharer_st {e : DirEntry} (hst : e.st = .S) (h : HSlot) : (e.addSharer h).st = .S := by
  cases hc : e.coarse with
  | true => rw [DirEntry.addSharer_coarse hst hc]; exact hst
  | false =>
    rcases Nat.lt_or_ge h.val 64 with hh | hh
    · rw [DirEntry.addSharer_low hst hc hh]; exact hst
    · rw [DirEntry.addSharer_high hst hc hh]; exact hst
theorem DirEntry.holders_lt {e : DirEntry} (hst : e.st = .S) {g : HSlot} (hg : g ∈ e.holders) : g.val < 96 := by
  cases hc : e.coarse with
  | true => exact ((DirEntry.mem_holders_coarse hst hc g).1 hg).1
  | false => exact lt_trans (BitVec.lt_of_getLsbD ((DirEntry.mem_holders_exact hst hc g).1 hg)) (by decide)
/-- The entry that a sharer joins covers it and the former sharers. -/
theorem DirEntry.mem_addSharer {e : DirEntry} {h : HSlot} (hst : e.st = .S) (hh : h.val < 96) {g : HSlot} (hg : g = h ∨ g ∈ e.holders) :
    g ∈ (e.addSharer h).holders := by
  have hlt : g.val < 96 := hg.elim (fun e => e ▸ hh) (DirEntry.holders_lt hst)
  cases hc : e.coarse with
  | true => exact (DirEntry.mem_addSharer_coarse hst hc g).2 ⟨hlt, hg.imp (fun e => by rw [e]) fun hm => ((DirEntry.mem_holders_coarse hst hc g).1 hm).2⟩
  | false =>
    rcases Nat.lt_or_ge h.val 64 with hlow | hhigh
    · exact (DirEntry.mem_addSharer_low hst hc hlow g).2 hg
    · exact (DirEntry.mem_addSharer_high hst hc hhigh g).2 ⟨hlt, hg.imp (fun e => by rw [e]) fun hm => ⟨g, hm, rfl⟩⟩
theorem DirEntry.dropHolder_coarse {e : DirEntry} (hst : e.st = .S) (hc : e.coarse = true) (h : HSlot) : e.dropHolder h = e := by
  simp only [DirEntry.dropHolder, hst, hc, if_true]
theorem DirEntry.mem_dropHolder_exact {e : DirEntry} {h : HSlot} (hst : e.st = .S) (hc : e.coarse = false) (g : HSlot) :
    g ∈ (e.dropHolder h).holders ↔ g ∈ e.holders ∧ g ≠ h := by
  have hbit : (e.presence &&& ~~~(BitVec.ofNat 64 (2 ^ h.val))).getLsbD g.val = true ↔ e.presence.getLsbD g.val = true ∧ g ≠ h := by
    rw [BitVec.getLsbD_and, Bool.and_eq_true]
    refine and_congr_right fun hg => ?_
    have hlt := BitVec.lt_of_getLsbD hg
    rw [BitVec.getLsbD_not, getLsbD_two_pow hlt, decide_eq_true hlt, Bool.true_and, Bool.not_eq_true', decide_eq_false_iff_not, Ne, Fin.ext_iff,
      eq_comm]
  rw [DirEntry.mem_holders_exact hst hc, ← hbit]
  simp only [DirEntry.dropHolder, hst, hc, Bool.false_eq_true, if_false]
  split
  · next hz => rw [hz]; simp [DirEntry.clear, DirEntry.holders]
  · exact DirEntry.mem_holders_exact rfl rfl g

/-- Settles O42: who an entry covers is read off its presence bits, exact or in pairs. -/
theorem directoryNeverForgetsASharer : Obligations.DirectoryNeverForgetsASharer := by
  intro e h hst hh _
  refine ⟨DirEntry.mem_addSharer hst hh (.inl rfl), DirEntry.addSharer_st hst h, fun g hg => DirEntry.mem_addSharer hst hh (.inr hg),
    fun hc hlow => ⟨?_, DirEntry.mem_addSharer_low hst hc hlow⟩, fun hc hhigh => ⟨?_, fun g hg => ?_⟩,
    fun hc => DirEntry.dropHolder_coarse hst hc h, fun hc _ => DirEntry.mem_dropHolder_exact hst hc⟩
  · rw [DirEntry.addSharer_low hst hc hlow]; exact hc
  · rw [DirEntry.addSharer_high hst hc hhigh]
  · rw [DirEntry.mem_addSharer_high hst hc hhigh, and_iff_right hg]

/-! ### Victim ways (O43) -/

/-- The pick of a victim after one more way (R182). -/
def CSet.pickOlder (x : CSet) (acc : Option (Nat × Nat)) (i : Nat) : Option (Nat × Nat) :=
  match x.ways[i]? with
  | some e => if e.st.transient then acc else
      match acc with
      | some (j, a) => if e.age.val > a then some (i, e.age.val) else some (j, a)
      | none => some (i, e.age.val)
  | none => acc
/-- The pick among the first n ways. -/
def CSet.oldest (x : CSet) (n : Nat) : Option (Nat × Nat) := (List.range n).foldl x.pickOlder none
theorem CSet.victim_eq (x : CSet) : x.victim = (x.oldest x.ways.length).map (·.1) := rfl
theorem CSet.oldest_succ (x : CSet) (n : Nat) : x.oldest (n + 1) = x.pickOlder (x.oldest n) n := by
  rw [CSet.oldest, List.range_succ, List.foldl_append]
  rfl
/-- Among the first n ways, way i is unblocked, none that is unblocked has a higher AGE, and none before it has the same. -/
def CSet.OldestBelow (x : CSet) (n i a : Nat) : Prop :=
  (∃ e, x.ways[i]? = some e ∧ e.st.transient = false ∧ e.age.val = a) ∧
  ∀ j < n, ∀ f, x.ways[j]? = some f → f.st.transient = false → f.age.val ≤ a ∧ (f.age.val = a → i ≤ j)
/-- What a pick among the first n ways says of them. -/
def CSet.PickOk (x : CSet) (n : Nat) : Option (Nat × Nat) → Prop
  | none => ∀ j < n, ∀ f, x.ways[j]? = some f → f.st.transient = true
  | some (i, a) => i < n ∧ x.OldestBelow n i a
theorem forall_lt_succ_of {n : Nat} {P : Nat → Prop} (h : ∀ j < n, P j) (hn : P n) : ∀ j < n + 1, P j :=
  fun j hj => (Nat.lt_succ_iff_lt_or_eq.1 hj).elim (h j) fun e => e ▸ hn
theorem CSet.pickOlder_ok {x : CSet} {n : Nat} {o : Option (Nat × Nat)} (h : x.PickOk n o) : x.PickOk (n + 1) (x.pickOlder o n) := by
  have hskip : (∀ f, x.ways[n]? = some f → f.st.transient = true) → x.PickOk (n + 1) o := by
    intro hn
    match o, h with
    | none, h => exact forall_lt_succ_of h hn
    | some (i, a), ⟨hi, hway, hall⟩ =>
      exact ⟨by omega, hway, forall_lt_succ_of hall fun f hf ht => absurd (hn f hf) (by simp [ht])⟩
  unfold CSet.pickOlder
  split
  · next e he =>
    split
    · next ht => exact hskip fun f hf => by cases he.symm.trans hf; exact ht
    · next ht =>
      rw [Bool.not_eq_true] at ht
      match o, h with
      | none, h =>
        refine ⟨by omega, ⟨e, he, ht, rfl⟩, forall_lt_succ_of (fun j hj f hf hft => absurd (h j hj f hf) (by simp [hft])) fun f hf _ => ?_⟩
        cases he.symm.trans hf
        exact ⟨le_rfl, fun _ => le_rfl⟩
      | some (i, a), ⟨hi, hway, hall⟩ =>
        dsimp only
        split
        · next hgt =>
          refine ⟨by omega, ⟨e, he, ht, rfl⟩, forall_lt_succ_of (fun j hj f hf hft => ?_) fun f hf _ => ?_⟩
          · obtain ⟨hle, -⟩ := hall j hj f hf hft
            exact ⟨by omega, by omega⟩
          · cases he.symm.trans hf
            exact ⟨le_rfl, fun _ => le_rfl⟩
        · refine ⟨by omega, hway, forall_lt_succ_of hall fun f hf _ => ?_⟩
          cases he.symm.trans hf
          exact ⟨by omega, fun _ => by omega⟩
  · next hn => exact hskip fun f hf => by rw [hn] at hf; cases hf
theorem CSet.oldest_ok (x : CSet) (n : Nat) : x.PickOk n (x.oldest n) := by
  induction n with
  | zero => exact fun j hj => absurd hj (by omega)
  | succ n ih => rw [CSet.oldest_succ]; exact CSet.pickOlder_ok ih
theorem forall_mem_iff_getElem? {α : Type} {l : List α} {P : α → Prop} : (∀ j < l.length, ∀ f, l[j]? = some f → P f) ↔ ∀ e ∈ l, P e := by
  constructor
  · intro h e he
    obtain ⟨j, hj, rfl⟩ := List.getElem_of_mem he
    exact h j hj _ (List.getElem?_eq_getElem hj)
  · exact fun h j _ f hf => h f (List.mem_of_getElem? hf)
theorem CSet.freeWay_some {x : CSet} {i : Nat} (h : x.freeWay = some i) :
    (∃ e, x.ways[i]? = some e ∧ e.st = .I) ∧ ∀ j < i, ∀ e, x.ways[j]? = some e → e.st ≠ .I := by
  obtain ⟨hi, hfree, hbefore⟩ := List.findIdx?_eq_some_iff_getElem.1 h
  refine ⟨⟨x.ways[i], List.getElem?_eq_getElem hi, by simpa using hfree⟩, fun j hj e he => ?_⟩
  obtain ⟨hlt, rfl⟩ := List.getElem?_eq_some_iff.1 he
  simpa using hbefore j hj
theorem CSet.freeWay_none_iff (x : CSet) : x.freeWay = none ↔ ∀ e ∈ x.ways, e.st ≠ .I := by
  simp [CSet.freeWay, List.findIdx?_eq_none_iff]
theorem CSet.victim_some {x : CSet} {i : Nat} (h : x.victim = some i) : ∃ e, x.ways[i]? = some e ∧ e.st.transient = false ∧
    ∀ j f, x.ways[j]? = some f → f.st.transient = false → f.age ≤ e.age ∧ (f.age = e.age → i ≤ j) := by
  have hok := x.oldest_ok x.ways.length
  rw [CSet.victim_eq] at h
  match ho : x.oldest x.ways.length, h, hok with
  | some (k, a), h, hok =>
    cases h
    obtain ⟨-, ⟨e, he, ht, rfl⟩, hall⟩ := hok
    refine ⟨e, he, ht, fun j f hf hft => ?_⟩
    obtain ⟨hle, htie⟩ := hall j (List.getElem?_eq_some_iff.1 hf).1 f hf hft
    exact ⟨hle, fun heq => htie (by rw [heq])⟩
theorem CSet.victim_none_iff (x : CSet) : x.victim = none ↔ ∀ e ∈ x.ways, e.st.transient = true := by
  have hok := x.oldest_ok x.ways.length
  rw [CSet.victim_eq, Option.map_eq_none_iff]
  constructor
  · intro h
    rw [h] at hok
    exact forall_mem_iff_getElem?.1 hok
  · intro h
    match ho : x.oldest x.ways.length with
    | none => rfl
    | some (i, a) =>
      rw [ho] at hok
      obtain ⟨-, ⟨e, he, ht, -⟩, -⟩ := hok
      exact absurd (h e (List.mem_of_getElem? he)) (by simp [ht])
theorem CSet.touch_getElem? {x : CSet} {j : Nat} {e : DirEntry} (i : Nat) (h : x.ways[j]? = some e) :
    (x.touch i).ways[j]? = some { e with age := if j = i then 0 else Fin.ofNat 16 (min 15 (e.age.val + 1)) } := by
  rw [CSet.touch, List.getElem?_mapIdx, h, Option.map_some]
  split
  · rfl
  · rfl

/-- Settles O43: the fold over the ways keeps the lowest among the oldest unblocked ways seen so far. -/
theorem victimWayIsTheOldest : Obligations.VictimWayIsTheOldest := fun x =>
  ⟨fun _ => CSet.freeWay_some, x.freeWay_none_iff, fun _ => CSet.victim_some, x.victim_none_iff,
    fun i => ⟨List.length_mapIdx, fun _ _ h => CSet.touch_getElem? i h⟩⟩

end Sys2Proof.Machine

/-! # Coherence homes: requests at their home -/

namespace Sys2Proof.Machine
open Host (Outcome)

/-! ### Messages that arrive -/

/-- A message that may arrive is consumed. -/
theorem State.arrive_of_mayArrive {s : State} {p : Pkt} (h : s.mayArrive p = true) (k : State → State) : s.arrive p k = k (s.take p) := by
  simp only [State.mayArrive, Bool.and_eq_true, Bool.not_eq_true', bne_iff_ne] at h
  obtain ⟨⟨⟨hf, hs⟩, hb⟩, hm⟩ := h
  rw [State.arrive, if_neg (by simp [hf]), if_neg (by simp [hb]), if_neg hm, if_neg (by simp [hs])]
theorem State.injection_fence (s : State) (c : Cell) (p : Pkt) :
    (s.injection c p).fence = s.scrim.fence ∧ (s.injection c p).epochOpen = s.scrim.epochOpen := by
  unfold State.injection
  extract_lets x k
  split
  · exact ⟨rfl, rfl⟩
  · exact ⟨rfl, rfl⟩
theorem State.receipt_fence (s : State) (c : Cell) (p : Pkt) (u n : Nat) :
    (s.receipt c p u n).fence = s.scrim.fence ∧ (s.receipt c p u n).epochOpen = s.scrim.epochOpen := by
  unfold State.receipt
  extract_lets x k
  split
  · split
    · split <;> exact ⟨rfl, rfl⟩
    · exact ⟨rfl, rfl⟩
  · exact ⟨rfl, rfl⟩
/-- Counting the bytes and the time of a packet leaves the fences and the epoch. -/
theorem State.landed_fence (s : State) (p : Pkt) : (s.landed p).fence = s.scrim.fence ∧ (s.landed p).epochOpen = s.scrim.epochOpen := by
  unfold State.landed
  extract_lets inj u k
  have hu : u.scrim.fence = s.scrim.fence ∧ u.scrim.epochOpen = s.scrim.epochOpen := by
    dsimp only [u]
    split
    · exact s.injection_fence p.src p
    · exact ⟨rfl, rfl⟩
  split
  · exact ⟨rfl, rfl⟩
  · obtain ⟨hf, ho⟩ := u.receipt_fence p.dst p k (p.bytes - (if k = 0 then 0 else 32 + 64 * (k - 1)))
    exact ⟨hf.trans hu.1, ho.trans hu.2⟩
theorem State.take_fence (s : State) (p : Pkt) : (s.take p).scrim.fence = s.scrim.fence := (s.landed_fence p).1
theorem State.take_epochOpen (s : State) (p : Pkt) : (s.take p).scrim.epochOpen = s.scrim.epochOpen := (s.landed_fence p).2
theorem State.take_cellFenced (s : State) (p : Pkt) (c : Cell) : (s.take p).cellFenced c = s.cellFenced c := by
  rw [State.cellFenced, State.take_fence, State.cellFenced]
theorem State.take_lineHeld (s : State) (p : Pkt) (h : Cell) (line : Nat) : (s.take p).lineHeld h line = s.lineHeld h line := by
  rw [State.lineHeld, State.take_epochOpen]
  rfl

/-! ### The intake (O7) -/

theorem State.ctrEvent_home (s : State) (c evt : Nat) (bits : List Nat) (k : Nat) (f : Bool) (i : Option Nat) :
    (s.ctrEvent c evt bits k f i).home = s.home :=
  (State.ctrEvent_keeps (P := 134209535) rfl (Keeps.refl s) c evt bits k f i).home_eq
theorem State.ctrEvent_scrim (s : State) (c evt : Nat) (bits : List Nat) (k : Nat) (f : Bool) (i : Option Nat) :
    (s.ctrEvent c evt bits k f i).scrim = s.scrim :=
  (State.ctrEvent_keeps (P := 134217215) rfl (Keeps.refl s) c evt bits k f i).scrim_eq
theorem State.ctrEvent_regsBut (s : State) (c evt : Nat) (bits : List Nat) (k : Nat) (f : Bool) (i : Option Nat) :
    s.regsBut (ctrRegs c) (s.ctrEvent c evt bits k f i) :=
  .ite (fun _ => .refl _ s) fun _ => .foldl (.refl _ s) fun u hu _ hn => .ite
    (fun _ a ha => (u.ctrAdd_regsBut (List.mem_range.1 hn) a ha).trans (hu a ha)) fun _ => hu
/-- The registers that the intake of a home counts in. -/
abbrev intakeRegs (h : Nat) : List Nat := F.HOME_INTAKE_at h :: F.HOME_REQS_at h :: ctrRegs h
theorem homeStatus_not_mem_intakeRegs (h : Nat) : F.HOME_STATUS_at h ∉ intakeRegs h := by
  simp only [F.HOME_STATUS_at, F.HOME_INTAKE_at, F.HOME_REQS_at, F.CTR_CTL_at, F.CTR_VAL_at, List.mem_cons, List.mem_map, List.mem_range]
  omega
theorem homeCfg_not_mem_intakeRegs (h : Nat) : F.HOME_CFG_at h ∉ intakeRegs h := by
  simp only [F.HOME_CFG_at, F.HOME_INTAKE_at, F.HOME_REQS_at, F.CTR_CTL_at, F.CTR_VAL_at, List.mem_cons, List.mem_map, List.mem_range]
  omega
/-- Requests that join or leave the intake of home h change its list, its ring and what it counts. -/
structure State.IntakeMoves (h : Cell) (s t : State) : Prop where
  home : ∃ l r, t.home = { s.home with intake := l, ring := r }
  scrim : t.scrim = s.scrim
  regs : s.regsBut (intakeRegs h) t
section
variable {h : Cell} {s t u : State}
theorem State.IntakeMoves.trans (a : State.IntakeMoves h s t) (b : State.IntakeMoves h t u) : State.IntakeMoves h s u := by
  obtain ⟨⟨_, _, ha⟩, hsa, hra⟩ := a
  obtain ⟨⟨l, r, hb⟩, hsb, hrb⟩ := b
  exact ⟨⟨l, r, by rw [hb, ha]⟩, hsb.trans hsa, fun x hx => (hrb x hx).trans (hra x hx)⟩
theorem State.IntakeMoves.of_home (e : t.home = s.home) (es : t.scrim = s.scrim) (er : s.regsBut (intakeRegs h) t) : State.IntakeMoves h s t :=
  ⟨⟨s.home.intake, s.home.ring, e⟩, es, er⟩
theorem State.IntakeMoves.tt (m : State.IntakeMoves h s t) : t.home.tt = s.home.tt := by
  obtain ⟨⟨_, _, e⟩, -, -⟩ := m
  rw [e]
theorem State.IntakeMoves.setAside (m : State.IntakeMoves h s t) : t.home.setAside = s.home.setAside := by
  obtain ⟨⟨_, _, e⟩, -, -⟩ := m
  rw [e]
theorem State.IntakeMoves.ext (m : State.IntakeMoves h s t) : t.home.ext = s.home.ext := by
  obtain ⟨⟨_, _, e⟩, -, -⟩ := m
  rw [e]
theorem State.IntakeMoves.txns (m : State.IntakeMoves h s t) (c : Cell) : t.txns c = s.txns c := by rw [State.txns, m.tt, State.txns]
theorem State.IntakeMoves.txnOfTag (m : State.IntakeMoves h s t) (c : Cell) (p : Pkt) : t.txnOfTag c p = s.txnOfTag c p := by
  rw [State.txnOfTag, m.txns, State.txnOfTag]
theorem State.IntakeMoves.freeHtid (m : State.IntakeMoves h s t) (c : Cell) (lo n : Nat) : t.freeHtid c lo n = s.freeHtid c lo n := by
  rw [State.freeHtid, m.tt, State.freeHtid]
theorem State.IntakeMoves.entryFor (m : State.IntakeMoves h s t) (c : Cell) (o : Opc) : t.entryFor c o = s.entryFor c o := by
  have hgeneral : t.freeGeneral c = s.freeGeneral c := m.freeHtid c 0 928
  have hinternal : t.freeInternal c = s.freeInternal c := m.freeHtid c 992 32
  unfold State.entryFor
  rw [hgeneral, hinternal]
theorem State.IntakeMoves.lineBlocked (m : State.IntakeMoves h s t) (c : Cell) (line : Nat) : t.lineBlocked c line = s.lineBlocked c line := by
  rw [State.lineBlocked, m.txns, State.lineBlocked]
theorem State.IntakeMoves.extOf (m : State.IntakeMoves h s t) (c : Cell) (e : Nat) : t.extOf c e = s.extOf c e := by
  rw [State.extOf, m.ext, State.extOf]
theorem State.IntakeMoves.topo (m : State.IntakeMoves h s t) : t.topo h = s.topo h :=
  State.rd_of_reg (m.regs _ (homeStatus_not_mem_intakeRegs h))
theorem State.IntakeMoves.lineIdx (m : State.IntakeMoves h s t) (line : Nat) : t.lineIdx h line = s.lineIdx h line := by
  rw [State.lineIdx, m.topo, State.lineIdx]
theorem State.IntakeMoves.lineHeld (m : State.IntakeMoves h s t) (line : Nat) : t.lineHeld h line = s.lineHeld h line := by
  rw [State.lineHeld, m.lineIdx, State.slabCell, m.lineIdx, m.topo, m.scrim]
  obtain ⟨⟨_, _, e⟩, -, -⟩ := m
  rw [e]
  rfl
theorem State.IntakeMoves.rd_specEn (m : State.IntakeMoves h s t) : t.rd (F.HOME_CFG_SPEC_EN h) = s.rd (F.HOME_CFG_SPEC_EN h) :=
  State.rd_of_reg (m.regs _ (homeCfg_not_mem_intakeRegs h))
end
theorem State.intakeCounts_home (s : State) (h : Cell) : (s.intakeCounts h).home = s.home :=
  (State.intakeCounts_keeps (P := 134209535) rfl (Keeps.refl s) h).home_eq
theorem State.intakeCounts_scrim (s : State) (h : Cell) : (s.intakeCounts h).scrim = s.scrim :=
  (State.intakeCounts_keeps (P := 134217215) rfl (Keeps.refl s) h).scrim_eq
theorem State.intakeCounts_regsBut (s : State) (h : Cell) : s.regsBut (intakeRegs h) (s.intakeCounts h) :=
  .wr (.wr (.wr (.refl _ s) (.head _)) (.head _)) (.head _)
/-- A new list and a new ring of the intake, counted. -/
theorem State.intakeCounts_moves {s u : State} (h : Cell) {l : NMap (List HReq)} {r : NMap Pkt}
    (e : u = { s with home.intake := l, home.ring := r }) : State.IntakeMoves h s (u.intakeCounts h) := by
  subst e
  exact ⟨⟨l, r, State.intakeCounts_home ..⟩, State.intakeCounts_scrim ..,
    fun a ha => (State.intakeCounts_regsBut _ h a ha).trans (s.reg_mk a)⟩
theorem State.ringFree_ring (s : State) (h : Cell) (r : HReq) : ∃ m, s.ringFree h r = { s with home.ring := m } := by
  unfold State.ringFree
  split
  · exact ⟨s.home.ring, rfl⟩
  · exact ⟨_, rfl⟩
theorem State.foldl_ringFree_ring (l : List HReq) (s : State) (h : Cell) :
    ∃ m, l.foldl (fun s r => s.ringFree h r) s = { s with home.ring := m } := by
  refine List.foldlRecOn (motive := fun t : State => ∃ m, t = { s with home.ring := m }) l _ ⟨s.home.ring, rfl⟩ fun t ⟨m, ht⟩ r _ => ?_
  obtain ⟨m', e⟩ := t.ringFree_ring h r
  exact ⟨m', by rw [e, ht]⟩
theorem State.intakeTake_moves (s : State) (h : Cell) (go : HReq → Bool) : State.IntakeMoves h s (s.intakeTake h go) := by
  unfold State.intakeTake
  extract_lets l u rest up load q v x
  obtain ⟨m, hu⟩ : ∃ m, u = { s with home.ring := m } := State.foldl_ringFree_ring _ s h
  obtain ⟨m', hv⟩ : ∃ m, v = { u with home.ring := m } := State.foldl_ringFree_ring _ u h
  exact State.intakeCounts_moves h (l := mset [] v.home.intake h.val q) (r := m') (by dsimp only [x]; rw [hv, hu])
/-- The first request of an empty intake stands in SRAM (R168). -/
theorem State.intakePut_of_empty {s : State} {h : Cell} (he : mgetD [] s.home.intake h.val = []) (r : HReq) :
    s.intakePut h r = State.intakeCounts { s with home.intake := mset [] s.home.intake h.val [r] } h := by
  simp [State.intakePut, he]
theorem State.intakePut_of_empty_moves {s : State} {h : Cell} (he : mgetD [] s.home.intake h.val = []) (r : HReq) :
    State.IntakeMoves h s (s.intakePut h r) := by
  rw [State.intakePut_of_empty he]
  exact State.intakeCounts_moves h rfl
theorem State.intakePut_of_empty_intake {s : State} {h : Cell} (he : mgetD [] s.home.intake h.val = []) (r : HReq) :
    mgetD [] (s.intakePut h r).home.intake h.val = [r] := by
  rw [State.intakePut_of_empty he, State.intakeCounts_home]
  exact mgetD_mset_same ([] : List HReq) s.home.intake h.val [r]
/-- A request leaves the intake and is counted (R168). -/
def State.leaveIntake (s : State) (h : Cell) (r : HReq) : State :=
  ((s.intakeTake h (fun x => x == r)).inc (F.HOME_REQS_COUNT h)).ctrEvent h 0x0E [intakeBit r.p.opc]
theorem State.leaveIntake_moves (s : State) (h : Cell) (r : HReq) : State.IntakeMoves h s (s.leaveIntake h r) := by
  have hcount : ∀ u : State, State.IntakeMoves h u (u.inc (F.HOME_REQS_COUNT h)) := fun u =>
    .of_home (u.inc_home _ _) (u.inc_scrim _ _) (.wr (.refl _ u) (.tail _ (.head _)))
  have hevent : ∀ u : State, State.IntakeMoves h u (u.ctrEvent h 0x0E [intakeBit r.p.opc]) := fun u =>
    .of_home (State.ctrEvent_home ..) (State.ctrEvent_scrim ..) fun a ha => u.ctrEvent_regsBut _ _ _ _ _ _ a fun hm => ha (.tail _ (.tail _ hm))
  exact ((s.intakeTake_moves h _).trans (hcount _)).trans (hevent _)

/-! ### Departures from the intake (O7) -/

section
variable {s : State} {h : Cell} {r : HReq} {l : List HReq} (hi : mgetD [] s.home.intake h.val = r :: l) (ht : s.txnOfTag h r.p = none)
include hi ht
theorem State.departNext_setsAside (hh : s.lineHeld h r.p.line = true) (ho : r.p.opc ≠ .specrd) : s.departNext h =
    State.sat { s.leaveIntake h r with home.setAside := mmod [] s.home.setAside h.val (· ++ [{ r with ring := none }]) }
      (F.HOME_TAKE_SET_ASIDE h) := by
  unfold State.departNext
  rw [hi]
  dsimp only
  rw [ht]
  dsimp only
  rw [if_pos (by simp [hh, ho])]
  rfl
theorem State.departNext_departs {id : Htid} (hh : s.lineHeld h r.p.line = false) (he : s.entryFor h r.p.opc = some id) (ho : r.p.opc ≠ .specrd) :
    s.departNext h = (s.leaveIntake h r).depart h id r.p r.ecc := by
  unfold State.departNext
  rw [hi]
  dsimp only
  rw [ht]
  dsimp only
  rw [if_neg (by simp [hh]), he]
  dsimp only
  rw [if_neg ho]
  rfl
theorem State.departNext_specrd {id : Htid} (he : s.entryFor h r.p.opc = some id) (ho : r.p.opc = .specrd) :
    s.departNext h = (s.leaveIntake h r).specRow h r.p := by
  unfold State.departNext
  rw [hi]
  dsimp only
  rw [ht]
  dsimp only
  rw [if_neg (by simp [ho]), he]
  dsimp only
  rw [if_pos ho]
  rfl
end

/-! ### Requests of hosts (O7) -/

theorem State.entryFor_general {s : State} {h : Cell} {id : Htid} (he : s.freeGeneral h = some id) (o : Opc) : s.entryFor h o = some id := by
  unfold State.entryFor
  rw [he]

section
variable {s : State} {q : Pkt} (ha : s.mayArrive q = true) (ecc : Ecc)
include ha
/-- A request of a transaction that is open is its re-issue, or is counted as late (R173). -/
theorem State.homeRequest_open {id : Htid} {t : Txn} (ht : s.txnOfTag q.dst q = some (id, t)) : s.homeRequest q ecc =
    if q.gen > t.req.gen then (s.take q).adopt q.dst id t q else (s.take q).inc (F.HOME_LATE_COUNT q.dst) := by
  have ht' : (s.take q).txnOfTag q.dst q = some (id, t) := ht
  rw [State.homeRequest, State.arrive_of_mayArrive ha]
  dsimp only
  rw [ht']
variable (ht : s.txnOfTag q.dst q = none)
include ht
theorem State.homeRequest_taken {id : Htid} {t : Txn} {w : Cell × Slot × Gen} (hw : s.wbOf q.dst q = some (id, t, w)) :
    s.homeRequest q ecc = (s.take q).adoptWb q.dst id t w q := by
  have ht' : (s.take q).txnOfTag q.dst q = none := ht
  have hw' : (s.take q).wbOf q.dst q = some (id, t, w) := hw
  rw [State.homeRequest, State.arrive_of_mayArrive ha]
  dsimp only
  rw [ht', hw']
variable (hw : s.wbOf q.dst q = none)
include hw
theorem State.homeRequest_gaveBack (hg : q.dst.val * 128 + s.lineIdx q.dst q.line ∈ s.home.gaveBack) :
    s.homeRequest q ecc = (s.take q).inc (F.HOME_LATE_COUNT q.dst) := by
  have ht' : (s.take q).txnOfTag q.dst q = none := ht
  have hw' : (s.take q).wbOf q.dst q = none := hw
  rw [State.homeRequest, State.arrive_of_mayArrive ha]
  dsimp only
  rw [ht', hw']
  exact if_pos (List.contains_iff_mem.2 hg)
variable (hg : q.dst.val * 128 + s.lineIdx q.dst q.line ∉ s.home.gaveBack)
include hg
theorem State.homeRequest_new : s.homeRequest q ecc = match (if Opc.gives q.opc then s.crossing q.dst q else none) with
    | some (id, t) => ((s.take q).takeWb q.dst id t q).2.setTxn q.dst id ((s.take q).takeWb q.dst id t q).1
    | none => if (mgetD [] s.home.intake q.dst.val).isEmpty then ((s.take q).intakePut q.dst { p := q, ecc := ecc }).departNext q.dst
        else (s.take q).intakePut q.dst { p := q, ecc := ecc } := by
  have ht' : (s.take q).txnOfTag q.dst q = none := ht
  have hw' : (s.take q).wbOf q.dst q = none := hw
  have hg' : ¬ (s.take q).home.gaveBack.contains (q.dst.val * 128 + (s.take q).lineIdx q.dst q.line) = true := by
    rw [List.contains_iff_mem]
    exact hg
  rw [State.homeRequest, State.arrive_of_mayArrive ha]
  dsimp only
  rw [ht', hw']
  dsimp only
  rw [if_neg hg']
  rfl
theorem State.homeRequest_crossing {id : Htid} {t : Txn} (ho : Opc.gives q.opc = true) (hc : s.crossing q.dst q = some (id, t)) :
    s.homeRequest q ecc = ((s.take q).takeWb q.dst id t q).2.setTxn q.dst id ((s.take q).takeWb q.dst id t q).1 := by
  rw [State.homeRequest_new ha ecc ht hw hg, if_pos ho, hc]
variable (hc : Opc.gives q.opc = true → s.crossing q.dst q = none)
include hc
theorem State.homeRequest_queues (hi : mgetD [] s.home.intake q.dst.val ≠ []) :
    s.homeRequest q ecc = (s.take q).intakePut q.dst { p := q, ecc := ecc } := by
  have hcross : (if Opc.gives q.opc = true then s.crossing q.dst q else none) = none := by simpa using hc
  rw [State.homeRequest_new ha ecc ht hw hg, hcross]
  dsimp only
  rw [if_neg (by simpa using hi)]
theorem State.homeRequest_alone (hi : mgetD [] s.home.intake q.dst.val = []) :
    s.homeRequest q ecc = ((s.take q).intakePut q.dst { p := q, ecc := ecc }).departNext q.dst := by
  have hcross : (if Opc.gives q.opc = true then s.crossing q.dst q else none) = none := by simpa using hc
  rw [State.homeRequest_new ha ecc ht hw hg, hcross]
  dsimp only
  rw [if_pos (by simpa using hi)]
variable (hi : mgetD [] s.home.intake q.dst.val = [])
include hi
theorem State.homeRequest_setsAside (ho : q.opc ≠ .specrd) (hh : s.lineHeld q.dst q.line = true) :
    (s.homeRequest q ecc).home.setAside = mmod [] s.home.setAside q.dst.val (· ++ [{ p := q, ecc := ecc }]) := by
  have hm := State.intakePut_of_empty_moves (s := s.take q) (h := q.dst) hi { p := q, ecc := ecc }
  have hheld : ((s.take q).intakePut q.dst { p := q, ecc := ecc }).lineHeld q.dst q.line = true := by
    rw [hm.lineHeld, State.take_lineHeld]; exact hh
  rw [State.homeRequest_alone ha ecc ht hw hg hc hi,
    State.departNext_setsAside (State.intakePut_of_empty_intake (s := s.take q) hi _) ((hm.txnOfTag _ _).trans ht) hheld ho]
  dsimp only [State.sat, State.wr_home]
  rw [hm.setAside]
  rfl
theorem State.homeRequest_departs {id : Htid} (ho : q.opc ≠ .specrd) (hh : s.lineHeld q.dst q.line = false) (he : s.freeGeneral q.dst = some id) :
    s.homeRequest q ecc = (((s.take q).intakePut q.dst { p := q, ecc := ecc }).leaveIntake q.dst { p := q, ecc := ecc }).depart q.dst id q ecc := by
  have hm := State.intakePut_of_empty_moves (s := s.take q) (h := q.dst) hi { p := q, ecc := ecc }
  have hheld : ((s.take q).intakePut q.dst { p := q, ecc := ecc }).lineHeld q.dst q.line = false := by
    rw [hm.lineHeld, State.take_lineHeld]; exact hh
  have hentry : ((s.take q).intakePut q.dst { p := q, ecc := ecc }).entryFor q.dst q.opc = some id := by
    rw [hm.entryFor]
    exact State.entryFor_general (s := s.take q) he q.opc
  rw [State.homeRequest_alone ha ecc ht hw hg hc hi,
    State.departNext_departs (State.intakePut_of_empty_intake (s := s.take q) hi _) ((hm.txnOfTag _ _).trans ht) hheld hentry ho]
end

/-! ### Speculative reads (O7) -/

theorem State.freeCount_scrim (s : State) (h : Cell) (p : Pkt) : (s.freeCount h p).scrim = s.scrim := by
  unfold State.freeCount
  split
  · exact s.inc_scrim _ _
  · rfl
/-- Why a SPECRD of line p.line sends no MSPEC (Table 6-6, R224). -/
def State.specBarred (s : State) (h : Cell) (p : Pkt) : Prop :=
  s.lineBlocked h p.line = true ∨ s.lineHeld h p.line = true ∨ s.rd (F.HOME_CFG_SPEC_EN h) = 0 ∨ (s.extOf h p.ext).noMem = true
theorem State.specBarred_iff (s : State) (h : Cell) (p : Pkt) : s.specBarred h p ↔
    (s.lineBlocked h p.line || s.lineHeld h p.line || !s.rdb (F.HOME_CFG_SPEC_EN h) || (s.extOf h p.ext).noMem) = true := by
  have hlt : s.rd (F.HOME_CFG_SPEC_EN h) < 2 := s.rd_lt _
  have hen : s.rd (F.HOME_CFG_SPEC_EN h) = 0 ↔ s.rdb (F.HOME_CFG_SPEC_EN h) = false := by
    rw [State.rdb, beq_eq_false_iff_ne]
    omega
  simp only [State.specBarred, hen, Bool.or_eq_true, Bool.not_eq_true', or_assoc]
theorem State.specRow_barred {s : State} {h : Cell} {p : Pkt} (hb : s.specBarred h p) : s.specRow h p = s.freeCount h p :=
  if_pos ((s.specBarred_iff h p).1 hb)
theorem State.specRow_sends {s : State} {h : Cell} {p : Pkt} (hb : ¬ s.specBarred h p) : s.specRow h p =
    s.send { p with opc := .mspec, src := h, dst := (s.extOf h p.ext).mcell, mcell := (s.extOf h p.ext).mcell, home := h } :=
  if_neg (mt (s.specBarred_iff h p).2 hb)
theorem State.IntakeMoves.specBarred {h : Cell} {s t : State} (m : State.IntakeMoves h s t) (p : Pkt) : t.specBarred h p ↔ s.specBarred h p := by
  rw [State.specBarred, m.lineBlocked, m.lineHeld, m.rd_specEn, m.extOf, State.specBarred]
theorem State.take_specBarred (s : State) (q : Pkt) (h : Cell) (p : Pkt) : (s.take q).specBarred h p ↔ s.specBarred h p := by
  rw [State.specBarred, State.take_lineHeld]
  exact Iff.rfl
section
variable {s : State} {q : Pkt} (ha : s.mayArrive q = true) (ht : s.txnOfTag q.dst q = none) (hw : s.wbOf q.dst q = none)
  (hg : q.dst.val * 128 + s.lineIdx q.dst q.line ∉ s.home.gaveBack) (hi : mgetD [] s.home.intake q.dst.val = []) (ho : q.opc = .specrd)
  {id : Htid} (he : s.freeGeneral q.dst = some id)
include ha ht hw hg hi ho he
/-- A SPECRD before which nothing stands leaves the intake at once, and keeps no entry (R168). -/
theorem State.homeRequest_specrd : ∃ t, s.homeRequest q .clean = t.specRow q.dst q ∧ State.IntakeMoves q.dst (s.take q) t := by
  have hm := State.intakePut_of_empty_moves (s := s.take q) (h := q.dst) hi { p := q }
  have hentry : ((s.take q).intakePut q.dst { p := q }).entryFor q.dst q.opc = some id := by
    rw [hm.entryFor]
    exact State.entryFor_general (s := s.take q) he q.opc
  have hgives : Opc.gives q.opc = true → s.crossing q.dst q = none := by rw [ho]; nofun
  refine ⟨_, ?_, hm.trans (State.leaveIntake_moves _ q.dst { p := q })⟩
  rw [State.homeRequest_alone ha .clean ht hw hg hgives hi,
    State.departNext_specrd (State.intakePut_of_empty_intake (s := s.take q) hi _) ((hm.txnOfTag _ _).trans ht) hentry ho]
theorem State.homeRequest_specrd_barred (hb : s.specBarred q.dst q) : (s.homeRequest q .clean).scrim = (s.take q).scrim := by
  obtain ⟨t, ht, hm⟩ := State.homeRequest_specrd ha ht hw hg hi ho he
  rw [ht, State.specRow_barred ((hm.specBarred q).2 ((s.take_specBarred q q.dst q).2 hb)), State.freeCount_scrim, hm.scrim]
theorem State.homeRequest_specrd_sends (hb : ¬ s.specBarred q.dst q) : ∃ f, (s.homeRequest q .clean).scrim.flight =
      (s.take q).scrim.flight ++ [{ loc := q.dst, p := f }] ∧
    f.opc = .mspec ∧ f.dst = (s.extOf q.dst q.ext).mcell ∧ f.home = q.dst := by
  obtain ⟨t, ht, hm⟩ := State.homeRequest_specrd ha ht hw hg hi ho he
  rw [ht, State.specRow_sends (mt (fun h => (s.take_specBarred q q.dst q).1 ((hm.specBarred q).1 h)) hb), State.send_flight, hm.scrim, hm.extOf]
  exact ⟨_, rfl, rfl, rfl, rfl⟩
end

/-! ### What waits at a home starts (O7) -/

theorem State.startChain_head {s : State} {h : Cell} {line : Nat} {id : Htid} {t : Txn} (hb : s.lineBlocked h line = false)
    (hc : s.chainHead h line = some (id, t)) (hd : t.awDir = false) :
    s.startChain h line = s.startTxn h id { t with phase := .lookup } .clean := by
  unfold State.startChain
  rw [if_neg (by simp [hb]), hc]
  exact if_neg (by simp [hd])
theorem State.startChain_idle {s : State} {h : Cell} {line : Nat} (hn : s.lineBlocked h line = true ∨ s.chainHead h line = none) :
    s.startChain h line = s := by
  unfold State.startChain
  rcases hn with hb | hc
  · exact if_pos hb
  · rw [hc]
    exact ite_self s
theorem State.startWaiter_idle {s : State} {h : Cell} {line : Nat} (hn : s.wayWaiter h line = none) : s.startWaiter h line = s := by
  unfold State.startWaiter
  rw [hn]
theorem State.startInstall_idle {s : State} {h : Cell} (hn : mgetD [] s.home.parked h.val = []) (line : Nat) : s.startInstall h line = s := by
  unfold State.startInstall
  rw [hn]
  rfl
theorem State.proxyRun_idle {s : State} {h : Cell} (hn : mgetD [] s.home.pchain h.val = []) (line : Nat) : s.proxyRun h line = s := by
  unfold State.proxyRun
  rw [hn]
  exact ite_self s
/-- With nothing that waits for the line, HOME_CHAIN_START starts the oldest request of the intake (R168). -/
theorem execHomeChainStart_idle {s : State} {h : Cell} {line : BitVec 46}
    (hb : s.lineBlocked h line.toNat = true ∨ s.chainHead h line.toNat = none) (hw : s.wayWaiter h line.toNat = none)
    (hp : mgetD [] s.home.parked h.val = []) (hc : mgetD [] s.home.pchain h.val = []) :
    execHomeChainStart h line s = .next (s.departNext h) := by
  unfold execHomeChainStart
  dsimp only
  rw [State.startChain_idle hb, State.startWaiter_idle hw, State.startInstall_idle hp, State.proxyRun_idle hc]

/-! ### Conflicts (O7) -/

theorem State.ctrEvent_txns (s : State) (h : Cell) (c evt : Nat) (bits : List Nat) : (s.ctrEvent c evt bits).txns h = s.txns h := by
  rw [State.txns, State.ctrEvent_home, State.txns]
theorem State.ctrEvent_snoopOpen (s : State) (h : Cell) (p : Pkt) (c evt : Nat) (bits : List Nat) :
    (s.ctrEvent c evt bits).snoopOpen h p = s.snoopOpen h p := by
  rw [State.snoopOpen, State.ctrEvent_txns, State.ctrEvent_home, State.snoopOpen]
theorem State.ctrEvent_grantOpen (s : State) (h : Cell) (p : Pkt) (c evt : Nat) (bits : List Nat) :
    (s.ctrEvent c evt bits).grantOpen h p = s.grantOpen h p := by
  rw [State.grantOpen, State.ctrEvent_txns, State.grantOpen]
/-- BICONF by whether a snoop of the line is open and whether the host's own grant is (R186, R187; log 27). -/
theorem execBiconf_eq {s : State} {p q : Pkt} (hq : q = { p with opc := .biconf }) (ha : s.mayArrive q = true) : execBiconf p s = .next
    (if s.snoopOpen p.dst p = false then (((s.take q).ctrEvent p.dst 0x0E [5]).inc (F.HOME_PROTO_COUNT p.dst)).sendBicack p.dst q
     else if s.grantOpen p.dst p = true then { (s.take q).ctrEvent p.dst 0x0E [5] with home.conflicts := mmod [] s.home.conflicts p.dst.val (· ++ [q]) }
     else ((s.take q).ctrEvent p.dst 0x0E [5]).sendBicack p.dst q) := by
  subst hq
  have hsnoop : ((s.take { p with opc := .biconf }).ctrEvent p.dst 0x0E [5]).snoopOpen p.dst { p with opc := .biconf } = s.snoopOpen p.dst p :=
    State.ctrEvent_snoopOpen ..
  have hgrant : ((s.take { p with opc := .biconf }).ctrEvent p.dst 0x0E [5]).grantOpen p.dst { p with opc := .biconf } = s.grantOpen p.dst p :=
    State.ctrEvent_grantOpen ..
  unfold execBiconf
  rw [State.arrive_of_mayArrive ha]
  dsimp only
  rw [hsnoop, hgrant, State.ctrEvent_home, State.take_home]
  simp only [Bool.not_eq_true']

/-! ### The commands together (O7) -/

/-- The commands of requests at their home, each with its opcode. -/
abbrev homeCommands (p : Pkt) (ecc : Ecc) : List (Instr × Opc) :=
  [(.rds p ecc, .rds), (.rda p ecc, .rda), (.rdi p ecc, .rdi), (.inva p ecc, .inva), (.wri p ecc, .wri), (.wra p ecc, .wra),
    (.wrptl p ecc, .wrptl), (.clnevct p ecc, .clnevct), (.recallMsg p ecc, .recall)]
theorem exec_homeCommand {p : Pkt} {ecc : Ecc} {c : Instr} {o : Opc} (h : (c, o) ∈ homeCommands p ecc) (s : State) :
    exec c s = .next (s.homeRequest { p with opc := o } ecc) ∧ o ≠ .specrd := by
  simp only [homeCommands, List.mem_cons, List.not_mem_nil, or_false, Prod.mk.injEq] at h
  rcases h with ⟨rfl, rfl⟩ | ⟨rfl, rfl⟩ | ⟨rfl, rfl⟩ | ⟨rfl, rfl⟩ | ⟨rfl, rfl⟩ | ⟨rfl, rfl⟩ | ⟨rfl, rfl⟩ | ⟨rfl, rfl⟩ |
    ⟨rfl, rfl⟩
  all_goals exact ⟨rfl, nofun⟩
theorem Opc.gives_iff (o : Opc) : Opc.gives o = true ↔ o ∈ [Opc.wri, .wra, .wrptl, .clnevct] := by
  simp [Opc.gives, or_assoc]

/-- Settles O7: each case of a request's arrival is a lemma on homeRequest, and SPECRD, HOME_CHAIN_START and BICONF have theirs. -/
theorem coherenceRequestsComplete : Obligations.CoherenceRequestsComplete := by
  refine ⟨fun p q ecc c o s hc hq ha => ?requests, fun p q s hq ha ht hw hg => ?speculative, fun h line s => ?chain, fun p q s hq ha => ?conflict⟩
  case requests =>
    obtain ⟨he, ho⟩ := exec_homeCommand hc s
    subst hq
    rw [he]
    refine ⟨fun id t ht hle => ?_, fun id t ht hlt => ?_, fun id t w ht hw => ?_, fun ht hw hg => ?_, fun ht hw hg =>
      ⟨fun id t hgives hcross => ?_, fun hcross => ⟨fun hi => ?_, fun hi => ⟨fun hh => ⟨_, rfl, ?_⟩, fun id hh hfree => ?_⟩⟩⟩⟩
    · rw [State.homeRequest_open ha ecc ht, if_neg (not_lt.2 hle)]
    · rw [State.homeRequest_open ha ecc ht, if_pos hlt]
    · rw [State.homeRequest_taken ha ecc ht hw]
    · rw [State.homeRequest_gaveBack ha ecc ht hw hg]
    · rw [State.homeRequest_crossing ha ecc ht hw hg ((Opc.gives_iff o).2 hgives) hcross]
    · rw [State.homeRequest_queues ha ecc ht hw hg (fun h => hcross ((Opc.gives_iff o).1 h)) hi]
    · exact State.homeRequest_setsAside ha ecc ht hw hg (fun h => hcross ((Opc.gives_iff o).1 h)) hi ho hh
    · rw [State.homeRequest_departs ha ecc ht hw hg (fun h => hcross ((Opc.gives_iff o).1 h)) hi ho hh hfree]
      rfl
  case speculative =>
    subst hq
    refine ⟨fun hi => ?_, fun id hi hfree => ?_⟩
    · exact congrArg Outcome.next (State.homeRequest_queues ha .clean ht hw hg nofun hi)
    · refine ⟨fun hb => ⟨_, rfl, congrArg ScrimSt.flight (State.homeRequest_specrd_barred ha ht hw hg hi rfl hfree hb)⟩, fun hb hh hen hx => ?_⟩
      obtain ⟨f, hf⟩ := State.homeRequest_specrd_sends ha ht hw hg hi rfl hfree (by
        simp only [State.specBarred, not_or, Bool.not_eq_true]; exact ⟨hb, hh, hen, hx⟩)
      exact ⟨_, f, rfl, hf⟩
  case chain =>
    refine ⟨fun id t hb hc hd => ?_, fun id r l hb hw hp hpc hi ht hh he ho => ?_⟩
    · rw [← State.startChain_head hb hc hd]
      rfl
    · refine (execHomeChainStart_idle hb hw hp hpc).trans ?_
      rw [State.departNext_departs hi ht hh he ho]
      rfl
  case conflict =>
    have hexec := execBiconf_eq hq ha
    refine ⟨fun hs hg => ⟨_, hexec, ?_⟩, fun hs hg => hexec.trans ?_, fun hs => hexec.trans ?_⟩
    · rw [if_neg (by simp [hs]), if_pos hg]
    · rw [if_neg (by simp [hs]), if_neg (by simp [hg])]
    · rw [if_pos hs]

end Sys2Proof.Machine

/-! # Coherence homes: MEMORY cells and directory controllers -/

namespace Sys2Proof.Machine
open Host (Outcome)

/-! ### Accesses of a MEMORY cell (O8) -/

/-- MRD, MSPEC and WDATA share their arrival: an ONORA cell passes it on, any other serves the peers that R272 permits. -/
theorem State.access_of_mayArrive {s : State} {q : Pkt} (ha : s.mayArrive q = true) (hk : s.keyWait q.dst q = false) (serve refuse : State → State) :
    (if s.keyWait q.dst q then s else s.arrive q fun s =>
        if s.roleOf q.dst = .onora then s.exportSend q.dst q else if s.peerOk q then serve s else refuse s) =
      if s.roleOf q.dst = .onora then (s.take q).exportSend q.dst q else if s.peerOk q then serve (s.take q) else refuse (s.take q) := by
  rw [if_neg (by simp [hk]), State.arrive_of_mayArrive ha]
  rfl
theorem execMrd_eq {s : State} {p q : Pkt} (hq : q = { p with opc := .mrd }) (ha : s.mayArrive q = true) (hk : s.keyWait p.dst q = false) :
    exec (.mrd p) s = .next (if s.roleOf p.dst = .onora then (s.take q).exportSend p.dst q else if s.peerOk q then (s.take q).memRead p.dst q
      else ((s.take q).exportViolation q false).answerRead p.dst q 0 false) := by
  subst hq
  exact congrArg Outcome.next (State.access_of_mayArrive ha hk _ _)
theorem execMspec_eq {s : State} {p q : Pkt} (hq : q = { p with opc := .mspec }) (ha : s.mayArrive q = true) (hk : s.keyWait p.dst q = false) :
    exec (.mspec p) s = .next (if s.roleOf p.dst = .onora then (s.take q).exportSend p.dst q else if s.peerOk q then (s.take q).memSpec p.dst q
      else (s.take q).exportViolation q false) := by
  subst hq
  exact congrArg Outcome.next (State.access_of_mayArrive ha hk _ _)
theorem execWdata_eq {s : State} {p q : Pkt} (hq : q = { p with opc := .wdata }) (ha : s.mayArrive q = true) (hk : s.keyWait p.dst q = false) :
    exec (.wdata p) s = .next (if s.roleOf p.dst = .onora then (s.take q).exportSend p.dst q else if s.peerOk q then (s.take q).memWrite p.dst q
      else ((s.take q).exportViolation q true).answerWrite p.dst q) := by
  subst hq
  exact congrArg Outcome.next (State.access_of_mayArrive ha hk _ _)

section
variable {s : State} {m : Cell} {p : Pkt}
theorem State.memRead_lost (hx : (s.homeExt m p.ext).st = .lost) :
    s.memRead m p = (s.sat (F.INST_MEM_ERR_LOST_ACC m)).readFail m p (s.parentAcc p false) true := if_pos hx
theorem State.memSpec_keyed {d : DevEnt} {k : BitVec 512} (hd : s.devEnt m p.ext = some d) (hk : s.keyAt m d p = some k) :
    s.memSpec m p = (s.putAcc { cell := m, p := p, write := false, spec := true }).2.emit (.expRead m s.pool.nextAcc (d.dpa p)) := by
  unfold State.memSpec
  rw [hd]
  exact if_pos (by rw [hk]; rfl)
/-- The cell has no entry for the extent, or no key for it (R225). -/
def State.keyless (s : State) (m : Cell) (p : Pkt) : Prop := ∀ d, s.devEnt m p.ext = some d → s.keyAt m d p = none
theorem State.memSpec_keyless (hk : s.keyless m p) : s.memSpec m p = s.noKey m := by
  unfold State.memSpec
  split
  · next d hd => exact if_neg (by rw [hk d hd]; decide)
  · rfl
section
variable (hx : (s.homeExt m p.ext).st ≠ .lost) (hl : s.pool.lost.contains m.val = false)
include hx hl
theorem State.memRead_keyed {d : DevEnt} {k : BitVec 512} (hd : s.devEnt m p.ext = some d) (hk : s.keyAt m d p = some k) : s.memRead m p =
    (s.putAcc { cell := m, p := p, write := false, of_ := s.parentAcc p false }).2.emit (.expRead m s.pool.nextAcc (d.dpa p)) := by
  unfold State.memRead
  dsimp only
  rw [if_neg hx, if_neg (by rw [hl]; decide), hd]
  dsimp only
  rw [hk]
  rfl
theorem State.memRead_keyless (hk : s.keyless m p) : s.memRead m p = (s.noKey m).readFail m p (s.parentAcc p false) false := by
  unfold State.memRead
  dsimp only
  rw [if_neg hx, if_neg (by rw [hl]; decide)]
  split
  · next d hd => rw [hk d hd]
  · rfl
theorem State.memWrite_keyed {d : DevEnt} {k : BitVec 512} (hd : s.devEnt m p.ext = some d) (hk : s.keyAt m d p = some k) : s.memWrite m p =
    if s.mustHold m p then (s.putAcc { cell := m, p := p, write := true, held := true, of_ := s.parentAcc p true }).2
    else s.performWrite m p (s.parentAcc p true) d k := by
  unfold State.memWrite
  dsimp only
  rw [if_neg hx, if_neg (by rw [hl]; decide), hd]
  dsimp only
  rw [hk]
theorem State.memWrite_keyless (hk : s.keyless m p) : s.memWrite m p = (s.noKey m).discardWrite m p (s.parentAcc p true) := by
  unfold State.memWrite
  dsimp only
  rw [if_neg hx, if_neg (by rw [hl]; decide)]
  split
  · next d hd => rw [hk d hd]
  · rfl
end
end

/-! ### What an expander answers (O8) -/

section
variable {s : State} {m : Cell} {n : Nat} {a : MemAcc} (hn : mget s.pool.acc n = some a) (hc : a.cell = m) (raw : Line)
include hn hc
theorem State.expReadData_spec (hs : a.spec = true) (st : ExpSt) : s.expReadData m n raw st = s.dropAcc n := by
  unfold State.expReadData
  rw [hn]
  dsimp only
  rw [if_neg (not_not.2 hc), if_pos hs]
section
variable (hs : a.spec = false) {d : DevEnt} (hd : s.devEnt m a.p.ext = some d) (hr : a.rmw = false)
include hs hd hr
theorem State.expReadData_ok {key : BitVec 512} (hk : s.keyAt m d a.p = some key) (ho : a.of_ = none) : s.expReadData m n raw .ok =
    ((s.ctrEvent m 0x18 [1]).dropAcc n).answerRead m a.p (decrypt key a.p.line raw) false := by
  unfold State.expReadData
  rw [hn]
  dsimp only
  rw [if_neg (not_not.2 hc), if_neg (by rw [hs]; decide), hd]
  dsimp only
  rw [hk]
  dsimp only
  rw [if_neg (by rw [hr]; decide), ho]
  dsimp only
  rw [if_neg (by simp)]
  rfl
theorem State.expReadData_keyless (hk : s.keyAt m d a.p = none) (st : ExpSt) : s.expReadData m n raw st =
    ((s.dropAcc n).noKey m).readFail m a.p a.of_ false := by
  unfold State.expReadData
  rw [hn]
  dsimp only
  rw [if_neg (not_not.2 hc), if_neg (by rw [hs]; decide), hd]
  dsimp only
  rw [hk]
  exact if_neg (by rw [hr]; decide)
end
theorem State.expWriteDone_write (hw : a.write = true) (hh : a.held = false) : s.expWriteDone m n = s.writeStep n { a with awOwn := false } := by
  unfold State.expWriteDone
  rw [hn]
  exact if_pos ⟨hc, hw, by rw [hh]; rfl⟩
end

/-! ### Directory controllers (O8) -/

/-- A controller in service consumes a whole packet in its order; the packet crosses to the HBM (R115). -/
theorem State.ctrlArrive_unfenced {s : State} {p : Pkt} (hd : s.dieFenced (dieOf p.dst) = false) (hs : s.stackFenced (dieStack (dieOf p.dst)) = false)
    (hb : s.behind p = false) (ht : p.stomp = false) (k : Nat → State → State) :
    s.ctrlArrive p k = k (dieOf p.dst) ((s.take p).xingPass (F.SPILL_XING_HBM_at (dieOf p.dst) 0) (1 + p.data.length)) := by
  unfold State.ctrlArrive
  dsimp only
  rw [if_neg (by simp [hd, hs]), if_neg (by simp [hb]), if_neg (by simp [ht])]
/-- The four data units of the set that an offset names, from the copy it names (R159). -/
def State.setData (s : State) (d off : Nat) : List Line :=
  (List.range 4).map (fun i => packUnit (((s.setIn (decide (off ≥ 0x200000000)) (offsetCell d off) (off / 256 % 2 ^ 20)).drop (4 * i)).take 4))
theorem State.setData_congr {s t : State} (h : t.home = s.home) (d off : Nat) : t.setData d off = s.setData d off := by
  unfold State.setData State.setIn State.dirCopy
  rw [h]
theorem execDirrd_clean {s : State} {p q : Pkt} (hq : q = { p with opc := .dirrd }) (hd : s.dieFenced (dieOf p.dst) = false)
    (hs : s.stackFenced (dieStack (dieOf p.dst)) = false) (hb : s.behind q = false) (ht : q.stomp = false) (mir : Ecc) (ns : BitVec 32) :
    ∃ u : State, u.home = s.home ∧ u.scrim = (s.take q).scrim ∧ exec (.dirrd p .clean mir ns) s =
      .next (u.send { q with opc := .dirdata, src := q.dst, dst := q.src, tc := 5, len := 4, data := s.setData (dieOf p.dst) p.addr.toNat, pois := 0 }) := by
  subst hq
  obtain ⟨u, hu⟩ : ∃ u, u = ((s.take { p with opc := .dirrd }).xingPass (F.SPILL_XING_HBM_at (dieOf p.dst) 0) (1 + p.data.length)).raise
    (F.DIR_STACK_LAT_RD_MAX (dieOf p.dst)) ns.toNat := ⟨_, rfl⟩
  have hhome : u.home = s.home := by rw [hu, State.raise_home, State.xingPass_home, State.take_home]
  have hscrim : u.scrim = (s.take { p with opc := .dirrd }).scrim := by rw [hu, State.raise_scrim, State.xingPass_scrim]
  refine ⟨u.xingPass (F.SPILL_XING_HBM_at (dieOf p.dst) 1) 4, (State.xingPass_home ..).trans hhome, (State.xingPass_scrim ..).trans hscrim, ?_⟩
  change execDirrd p .clean mir ns s = _
  unfold execDirrd
  dsimp only
  rw [State.ctrlArrive_unfenced (p := { p with opc := .dirrd }) hd hs hb ht, ← State.setData_congr hhome, hu]
  rfl
theorem State.holdsBlock_congr {s t : State} {d : Nat} (hs : t.reg (F.DIR_STACK_STATUS_at d) = s.reg (F.DIR_STACK_STATUS_at d))
    (hr : t.reg (F.DIR_REBUILD_STATUS_at d) = s.reg (F.DIR_REBUILD_STATUS_at d)) (p : Pkt) : t.holdsBlock d p = s.holdsBlock d p := by
  have hstack : ∀ f : Fld, f.addr = F.DIR_STACK_STATUS_at d → t.rd f = s.rd f := fun f hf => State.rd_of_reg (by rw [hf]; exact hs)
  have hrun : ∀ f : Fld, f.addr = F.DIR_REBUILD_STATUS_at d → t.rd f = s.rd f := fun f hf => State.rd_of_reg (by rw [hf]; exact hr)
  unfold State.holdsBlock State.rdb
  rw [hstack (F.DIR_STACK_STATUS_MIR_STATE d) rfl, hstack (F.DIR_STACK_STATUS_PRI_STATE d) rfl, hstack (F.DIR_STACK_STATUS_MIR_Q d) rfl,
    hstack (F.DIR_STACK_STATUS_PRI_Q d) rfl, hrun (F.DIR_REBUILD_STATUS_ACTIVE d) rfl, hrun (F.DIR_REBUILD_STATUS_QUARTER d) rfl,
    hrun (F.DIR_REBUILD_STATUS_CURSOR d) rfl]
/-- The source of a run keeps a write for the block that it copies (R214). -/
theorem State.dirWrite_holds {s : State} {d : Nat} {p : Pkt} (h : s.holdsBlock d p = true) :
    s.dirWrite d p = { s with home.rsHeld := mmod [] s.home.rsHeld d (· ++ [p]) } := by
  have hst : (if p.addr.toNat ≥ 0x200000000 then s.rd (F.DIR_STACK_STATUS_MIR_STATE d) else s.rd (F.DIR_STACK_STATUS_PRI_STATE d)) ≠ 2 := by
    simp only [State.holdsBlock, Bool.and_eq_true, bne_iff_ne, decide_eq_true_eq] at h
    exact h.1.1.1
  unfold State.dirWrite
  dsimp only
  rw [if_neg hst, if_pos h]
theorem State.dirWrite_scrim (s : State) (d : Nat) (p : Pkt) : (s.dirWrite d p).scrim = s.scrim :=
  (State.dirWrite_keeps (P := 134217215) rfl (Keeps.refl s) d p).scrim_eq
theorem State.sendDirack_flight (s : State) (p : Pkt) : ∃ f, (s.sendDirack p).scrim.flight = s.scrim.flight ++ [{ loc := p.dst, p := f }] ∧
    f.opc = .dirack ∧ f.dst = p.src ∧ f.len = 0 ∧ f.htid = p.htid :=
  ⟨s.issued { p with opc := .dirack, src := p.dst, dst := p.src, tc := 6, len := 0, data := [] }, rfl, rfl, rfl, rfl, rfl⟩
theorem execDirwr_within {s : State} {p q : Pkt} (hq : q = { p with opc := .dirwr }) (hd : s.dieFenced (dieOf p.dst) = false)
    (hs : s.stackFenced (dieStack (dieOf p.dst)) = false) (hb : s.behind q = false) (ht : q.stomp = false) {ns : BitVec 32} (hn : ns.toNat ≤ 110) :
    ∃ u : State, u.home = s.home ∧ u.scrim = (s.take q).scrim ∧ u.holdsBlock (dieOf p.dst) q = s.holdsBlock (dieOf p.dst) q ∧
      exec (.dirwr p ns) s = .next (if s.holdsBlock (dieOf p.dst) q then (u.dirWrite (dieOf p.dst) q).xingPass (F.SPILL_XING_HBM_at (dieOf p.dst) 1) 1
        else ((u.dirWrite (dieOf p.dst) q).xingPass (F.SPILL_XING_HBM_at (dieOf p.dst) 1) 1).sendDirack q) := by
  subst hq
  obtain ⟨v, hv⟩ : ∃ v, v = (s.take { p with opc := .dirwr }).xingPass (F.SPILL_XING_HBM_at (dieOf p.dst) 0) (1 + p.data.length) := ⟨_, rfl⟩
  have hreg : ∀ a, F.DIR_STACK_LAT_at (dieOf p.dst) ≠ a → (v.raise (F.DIR_STACK_LAT_WR_MAX (dieOf p.dst)) ns.toNat).reg a = s.reg a := by
    intro a hne
    rw [State.raise, State.reg_wr_ne _ _ hne, hv]
    exact State.reg_congr (State.xingPass_regs ..) a
  have hhold : (v.raise (F.DIR_STACK_LAT_WR_MAX (dieOf p.dst)) ns.toNat).holdsBlock (dieOf p.dst) { p with opc := .dirwr } =
      s.holdsBlock (dieOf p.dst) { p with opc := .dirwr } :=
    State.holdsBlock_congr (hreg _ (by unfold F.DIR_STACK_LAT_at F.DIR_STACK_STATUS_at; omega))
      (hreg _ (by unfold F.DIR_STACK_LAT_at F.DIR_REBUILD_STATUS_at; omega)) _
  refine ⟨v.raise (F.DIR_STACK_LAT_WR_MAX (dieOf p.dst)) ns.toNat, ?_, ?_, hhold, ?_⟩
  · rw [State.raise_home, hv, State.xingPass_home, State.take_home]
  · rw [State.raise_scrim, hv, State.xingPass_scrim]
  · change execDirwr p ns s = _
    unfold execDirwr
    dsimp only
    rw [State.ctrlArrive_unfenced (p := { p with opc := .dirwr }) hd hs hb ht, ← hhold, hv]
    dsimp only
    rw [if_neg (not_lt.2 hn)]

/-! ### The directory's answers (O8) -/

section
variable {s : State} {p q : Pkt}
theorem execDirdata_read (hq : q = { p with opc := .dirdata }) (ha : s.mayArrive q = true) {t : Txn} (ht : s.txn p.dst p.htid = some t)
    (hd : t.awDir = true) (hp : t.phase ≠ .chain) (hc : s.cset p.dst (s.slabCell p.dst t.req.line) (dirSet t.req.line) = none)
    (hi : s.indexPinned p.dst (dirSet t.req.line) = false) : exec (.dirdata p) s =
    .next (((s.take q).haveSet p.dst (s.slabCell p.dst t.req.line) (dirSet t.req.line)
      (if p.poison then none else some (p.data.flatMap unpackUnit))).withSet p.dst p.htid { t with awDir := false, reload := false }) := by
  subst hq
  have ht' : (s.take { p with opc := .dirdata }).txn p.dst p.htid = some t := ht
  have hc' : (s.take { p with opc := .dirdata }).cset p.dst ((s.take { p with opc := .dirdata }).slabCell p.dst t.req.line) (dirSet t.req.line) = none := hc
  have hi' : ¬ (s.take { p with opc := .dirdata }).indexPinned p.dst (dirSet t.req.line) = true := Bool.not_eq_true _ ▸ hi
  change execDirdata p s = _
  unfold execDirdata
  rw [State.arrive_of_mayArrive ha]
  dsimp only
  rw [ht']
  dsimp only
  rw [if_pos hd, hc']
  dsimp only
  rw [if_neg hi']
  exact congrArg Outcome.next (if_neg hp)
theorem execDirdata_cached (hq : q = { p with opc := .dirdata }) (ha : s.mayArrive q = true) {t : Txn} (ht : s.txn p.dst p.htid = some t)
    (hd : t.awDir = true) (hp : t.phase ≠ .chain) {x : CSet} (hc : s.cset p.dst (s.slabCell p.dst t.req.line) (dirSet t.req.line) = some x)
    (hr : t.reload = false) : exec (.dirdata p) s = .next ((s.take q).withSet p.dst p.htid { t with awDir := false, reload := false }) := by
  subst hq
  have ht' : (s.take { p with opc := .dirdata }).txn p.dst p.htid = some t := ht
  have hc' : (s.take { p with opc := .dirdata }).cset p.dst ((s.take { p with opc := .dirdata }).slabCell p.dst t.req.line) (dirSet t.req.line) = some x := hc
  change execDirdata p s = _
  unfold execDirdata
  rw [State.arrive_of_mayArrive ha]
  dsimp only
  rw [ht']
  dsimp only
  rw [if_pos hd, hc']
  dsimp only
  rw [if_neg (by rw [hr]; decide)]
  exact congrArg Outcome.next (if_neg hp)
theorem execDirdata_late (hq : q = { p with opc := .dirdata }) (ha : s.mayArrive q = true) (ht : s.txn p.dst p.htid = none) :
    exec (.dirdata p) s = .next ((s.take q).inc (F.HOME_LATE_COUNT p.dst)) := by
  subst hq
  have ht' : (s.take { p with opc := .dirdata }).txn p.dst p.htid = none := ht
  change execDirdata p s = _
  unfold execDirdata
  rw [State.arrive_of_mayArrive ha]
  dsimp only
  rw [ht']
theorem execDirack_eq (hq : q = { p with opc := .dirack }) (ha : s.mayArrive q = true) : exec (.dirack p) s =
    .next (match s.txn p.dst p.htid with
      | some t => if t.rsAck.contains p.src then (s.take q).advance p.dst p.htid { t with rsAck := t.rsAck.erase p.src }
          else if t.awAck = 0 then (s.take q).inc (F.HOME_LATE_COUNT p.dst) else (s.take q).advance p.dst p.htid { t with awAck := t.awAck - 1 }
      | none => (s.take q).inc (F.HOME_LATE_COUNT p.dst)) := by
  subst hq
  change execDirack p s = _
  unfold execDirack
  rw [State.arrive_of_mayArrive ha]
  rfl
end

/-! ### The commands together (O8) -/

/-- Settles O8: the reads, the writes, the expander's answers and the directory's accesses each by the lemma on what serves them. -/
theorem memoryAndDirectoryComplete : Obligations.MemoryAndDirectoryComplete := by
  refine ⟨fun p q s hq ha hk => ?read, fun p q s hq ha hk => ?speculative, fun p q s hq ha hk => ?write, fun m n a raw st s hn hc => ?expander,
    fun p q s hq ha => ?flush, fun p q mir ns s hq hd hs hb ht => ?dirRead, fun p q ns s hq hd hs hb ht hn => ?dirWrite, fun p q s hq ha => ?dirData,
    fun p q s hq ha => ?dirAck⟩
  case read =>
    have hext : p.ext = q.ext := hq ▸ rfl
    rw [execMrd_eq hq ha hk, hext]
    refine ⟨fun ho => by rw [if_pos ho], fun ho => ?_⟩
    rw [if_neg ho]
    refine ⟨fun hp => by rw [if_neg (by simp [hp])], fun hp hx => ?_, fun hp hx hl => ?_⟩
    · rw [if_pos hp, State.memRead_lost (s := s.take q) (p := q) hx]
      rfl
    · rw [if_pos hp]
      exact ⟨fun d k hd hkey => congrArg Outcome.next (State.memRead_keyed (s := s.take q) (p := q) hx hl hd hkey),
        fun hkey => congrArg Outcome.next (State.memRead_keyless (s := s.take q) (p := q) hx hl hkey)⟩
  case speculative =>
    have hext : p.ext = q.ext := hq ▸ rfl
    rw [execMspec_eq hq ha hk, hext]
    refine ⟨fun ho => by rw [if_pos ho], fun ho => ?_⟩
    rw [if_neg ho]
    refine ⟨fun hp => by rw [if_neg (by simp [hp])], fun d k hp hd hkey => ?_, fun hp hkey => ?_⟩
    · rw [if_pos hp]
      exact congrArg Outcome.next (State.memSpec_keyed (s := s.take q) (p := q) hd hkey)
    · rw [if_pos hp]
      exact congrArg Outcome.next (State.memSpec_keyless (s := s.take q) (p := q) hkey)
  case write =>
    have hext : p.ext = q.ext := hq ▸ rfl
    rw [execWdata_eq hq ha hk, hext]
    refine ⟨fun ho => by rw [if_pos ho], fun ho => ?_⟩
    rw [if_neg ho]
    refine ⟨fun hp => by rw [if_neg (by simp [hp])], fun hp hx hl => ?_⟩
    rw [if_pos hp]
    refine ⟨fun d k hd hkey => ?_, fun hkey => congrArg Outcome.next (State.memWrite_keyless (s := s.take q) (p := q) hx hl hkey)⟩
    rw [State.memWrite_keyed (s := s.take q) (p := q) hx hl hd hkey]
    exact ⟨fun hh => congrArg Outcome.next (if_pos hh), fun hh => congrArg Outcome.next (if_neg (Bool.not_eq_true _ ▸ hh))⟩
  case expander =>
    exact ⟨fun hs => congrArg Outcome.next (State.expReadData_spec hn hc raw hs st),
      fun d key hs hd hkey hr ho hst => congrArg Outcome.next (hst ▸ State.expReadData_ok hn hc raw hs hd hr hkey ho),
      fun d hs hd hkey hr => congrArg Outcome.next (State.expReadData_keyless hn hc raw hs hd hr hkey st),
      fun hw hh => congrArg Outcome.next (State.expWriteDone_write hn hc hw hh)⟩
  case flush =>
    subst hq
    exact congrArg Outcome.next (State.arrive_of_mayArrive ha _)
  case dirRead =>
    obtain ⟨u, -, hu, he⟩ := execDirrd_clean hq hd hs hb ht mir ns
    subst hq
    exact ⟨_, u.issued _, he, (State.send_flight ..).trans (by rw [hu]), rfl, rfl, rfl, rfl, rfl⟩
  case dirWrite =>
    obtain ⟨u, hhome, hscrim, hhold, he⟩ := execDirwr_within hq hd hs hb ht hn
    subst hq
    refine ⟨fun hh => ?_, fun hh => ?_⟩
    · rw [if_neg (by simp [hh])] at he
      obtain ⟨f, hf, hfields⟩ := State.sendDirack_flight ((u.dirWrite (dieOf p.dst) { p with opc := .dirwr }).xingPass
        (F.SPILL_XING_HBM_at (dieOf p.dst) 1) 1) { p with opc := .dirwr }
      rw [State.xingPass_scrim, State.dirWrite_scrim, hscrim] at hf
      exact ⟨_, f, he, hf, hfields⟩
    · rw [if_pos hh] at he
      refine ⟨_, he, ?_, ?_⟩
      · rw [State.xingPass_scrim, State.dirWrite_scrim, hscrim]
      · rw [State.xingPass_home, State.dirWrite_holds (hhold.trans hh), ← hhome]
  case dirData =>
    exact ⟨fun t ht hd hp => ⟨execDirdata_read hq ha ht hd hp, fun x hc hr => execDirdata_cached hq ha ht hd hp hc hr⟩, execDirdata_late hq ha⟩
  case dirAck =>
    rw [execDirack_eq hq ha]
    refine ⟨fun t ht hr => ?_, fun t ht hr hw => ?_, fun ht => ?_⟩
    · rw [ht]
      exact congrArg Outcome.next (if_pos (List.contains_iff_mem.2 hr))
    · rw [ht]
      dsimp only
      rw [if_neg (mt List.contains_iff_mem.1 hr), if_neg hw]
    · rw [ht]

end Sys2Proof.Machine

/-! # Coherence homes: responses, snoops and directory lookups -/

namespace Sys2Proof.Machine
open Host (Outcome)

/-! ### Responses to a tracker slot (O9) -/

/-- A response of the slot's generation acts on the slot (R82). -/
theorem State.forSlot_of_mayArrive {s : State} {p : Pkt} {x : TSlot} (ha : s.mayArrive p = true) (hx : s.slot p.dst p.tagSlot = some x)
    (hg : x.hdr.gen = p.gen) (he : x.ended = none) (k : TSlot → State → State) : s.forSlot p k = k x (s.take p) := by
  have hx' : (s.take p).slot p.dst p.tagSlot = some x := hx
  rw [State.forSlot, State.arrive_of_mayArrive ha, hx']
  exact if_pos (by rw [hg, he]; simp)
section
variable {s : State} {p : Pkt} {x : TSlot} (hx : s.slot p.dst p.tagSlot = some x) (hg : x.hdr.gen = p.gen) (he : x.ended = none)
include hx hg he
section
variable (ha : s.mayArrive { p with opc := .grant } = true)
include ha
theorem execGrant_device {d : DevTrack} (hd : x.dev = some d) : exec (.grant p) s = .next ((s.take { p with opc := .grant }).devLine p.dst p.tagSlot
    { x with granted := some p.mv, grantBy := some (p.src, p.htid), grantM := p.mcell }) := by
  change execGrant p s = _
  unfold execGrant
  dsimp only
  rw [State.forSlot_of_mayArrive (p := { p with opc := .grant }) ha hx hg he]
  exact congrArg Outcome.next (if_pos (by rw [hd]; rfl))
theorem execGrant_host (hd : x.dev = none) : ∃ y, exec (.grant p) s = .next ((s.take { p with opc := .grant }).setSlot p.dst p.tagSlot y) ∧
    y.granted = some p.mv ∧ y.grantBy = some (p.src, p.htid) ∧ (x.hdr.opc = .inva → y.resp = some .cmpE) ∧
    (∀ d po, x.hdr.opc ≠ .inva → x.rdata = some (d, po) → y.resp = some (.memData p.mv d po)) := by
  change ∃ y, execGrant p s = _ ∧ _
  unfold execGrant
  dsimp only
  rw [State.forSlot_of_mayArrive (p := { p with opc := .grant }) ha hx hg he]
  rw [if_neg (by rw [hd]; decide)]
  refine ⟨_, rfl, ?_⟩
  by_cases hi : x.hdr.opc = .inva
  · rw [if_pos hi]
    exact ⟨rfl, rfl, fun _ => rfl, fun _ _ hn => absurd hi hn⟩
  · rw [if_neg hi]
    cases hr : x.rdata with
    | none => exact ⟨rfl, rfl, fun h => absurd h hi, fun _ _ _ h => absurd h.symm (Option.some_ne_none _)⟩
    | some r => exact ⟨rfl, rfl, fun h => absurd h hi, fun d po _ h => by cases h; rfl⟩
end
section
variable (ha : s.mayArrive { p with opc := .rdata } = true)
include ha
theorem execRdata_again {d : Line × Bool} (hr : x.rdata = some d) :
    exec (.rdata p) s = .next ((s.take { p with opc := .rdata }).lateDiscard p.dst) := by
  change execRdata p s = _
  unfold execRdata
  dsimp only
  rw [State.forSlot_of_mayArrive (p := { p with opc := .rdata }) ha hx hg he]
  exact congrArg Outcome.next (if_pos (by rw [hr]; rfl))
theorem execRdata_device {d : DevTrack} (hr : x.rdata = none) (hd : x.dev = some d) : exec (.rdata p) s =
    .next ((s.take { p with opc := .rdata }).devLine p.dst p.tagSlot { x with rdata := some (p.data.headD 0, p.poison), rdataFrom := p.src }) := by
  change execRdata p s = _
  unfold execRdata
  dsimp only
  rw [State.forSlot_of_mayArrive (p := { p with opc := .rdata }) ha hx hg he]
  rw [if_neg (by rw [hr]; decide)]
  exact congrArg Outcome.next (if_pos (by rw [hd]; rfl))
theorem execRdata_host (hr : x.rdata = none) (hd : x.dev = none) :
    ∃ y, exec (.rdata p) s = .next ((s.take { p with opc := .rdata }).setSlot p.dst p.tagSlot y) ∧ y.rdata = some (p.data.headD 0, p.poison) ∧
      (∀ mv, x.granted = some mv → y.resp = some (.memData mv (p.data.headD 0) p.poison)) := by
  change ∃ y, execRdata p s = _ ∧ _
  unfold execRdata
  dsimp only
  rw [State.forSlot_of_mayArrive (p := { p with opc := .rdata }) ha hx hg he]
  rw [if_neg (by rw [hr]; decide), if_neg (by rw [hd]; decide)]
  refine ⟨_, rfl, ?_⟩
  cases hv : x.granted with
  | none => exact ⟨rfl, nofun⟩
  | some mv => exact ⟨rfl, fun _ h => by cases h; rfl⟩
end
theorem execWgo_eq (ha : s.mayArrive { p with opc := .wgo } = true) : exec (.wgo p) s =
    .next (if s.cellFenced p.src then s.take { p with opc := .wgo } else (((s.take { p with opc := .wgo }).setSlot p.dst p.tagSlot
      { x with wgo := some (p.src, p.mcell, p.htid) }).send
        { p with opc := .wdata, src := p.dst, dst := p.mcell, home := p.src, bmask := x.hdr.bmask, tc := s.dataTc p.dst x.hdr.inst, len := 1,
                 data := x.wdata, pois := x.hdr.pois }).releaseBirsp x.port p.line) := by
  change execWgo p s = _
  unfold execWgo
  dsimp only
  rw [State.forSlot_of_mayArrive (p := { p with opc := .wgo }) ha hx hg he]
  rw [State.take_cellFenced]
  rfl
theorem execWcmp_eq (ha : s.mayArrive { p with opc := .wcmp } = true) : exec (.wcmp p) s =
    .next (if x.dev.isSome then ((s.take { p with opc := .wcmp }).freeKept p.dst p.tagSlot).devLine p.dst p.tagSlot x
      else if x.io then ((s.take { p with opc := .wcmp }).freeKept p.dst p.tagSlot).releaseSlot p.dst p.tagSlot x
      else (((s.take { p with opc := .wcmp }).freeKept p.dst p.tagSlot).setSlot p.dst p.tagSlot { x with resp := some .cmp }).releaseBirsp x.port p.line) := by
  change execWcmp p s = _
  unfold execWcmp
  dsimp only
  rw [State.forSlot_of_mayArrive (p := { p with opc := .wcmp }) ha hx hg he]
  rfl
end

/-! ### Completions and answers at a home (O9) -/

section
variable {s : State} {p q : Pkt}
/-- With no response slot and no FWD of the line an MCMP is its transaction's, or late (R177). -/
theorem execMcmp_eq (hq : q = { p with opc := .mcmp }) (ha : s.mayArrive q = true) (hc : s.chainSlot p.dst p.tagSlot = none)
    (hf : s.fwdOf p.dst p.line = none) : exec (.mcmp p) s = .next (match s.txn p.dst p.htid with
      | some t => if t.req.line ≠ p.line then (s.take q).inc (F.HOME_LATE_COUNT p.dst)
          else if t.awMrd && Pkt.tagGen t.req == Pkt.tagGen p then
            if !t.proxy then (s.take q).advance p.dst p.htid { t with awMrd := false }
            else if t.phase = .wr then (s.take q).proxyWrote p.dst p.htid t
            else (s.take q).proxyDone p.dst p.htid { t with awMrd := false }
          else if t.awWb.contains (Pkt.tagGen p) then (s.take q).advance p.dst p.htid { t with awWb := t.awWb.erase (Pkt.tagGen p) }
          else (s.take q).inc (F.HOME_LATE_COUNT p.dst)
      | none => (s.take q).inc (F.HOME_LATE_COUNT p.dst)) := by
  subst hq
  have hc' : (s.take { p with opc := .mcmp }).chainSlot p.dst p.tagSlot = none := hc
  have hf' : (s.take { p with opc := .mcmp }).fwdOf p.dst (Pkt.line { p with opc := .mcmp }) = none := hf
  change execMcmp p s = _
  unfold execMcmp
  rw [State.arrive_of_mayArrive ha]
  dsimp only
  rw [hc', if_neg (fun h => Bool.false_ne_true h.2)]
  rw [show ((s.take { p with opc := .mcmp }).fwdOf p.dst (Pkt.line { p with opc := .mcmp })).filter
    (fun f => f.awWb.contains (Pkt.tagGen { p with opc := .mcmp })) = none by rw [hf']; rfl]
  cases ht : s.txn p.dst p.htid with
  | none =>
    have ht' : (s.take { p with opc := .mcmp }).txn p.dst p.htid = none := ht
    rw [ht']
  | some t =>
    have ht' : (s.take { p with opc := .mcmp }).txn p.dst p.htid = some t := ht
    rw [ht']
    rfl
theorem execDone_eq (hq : q = { p with opc := .done }) (ha : s.mayArrive q = true) : exec (.done p) s = .next ((match s.txn p.dst p.htid with
      | some t => if !t.awDone || t.req.line != p.line || Pkt.tagGen t.req != Pkt.tagGen p then (s.take q).inc (F.HOME_LATE_COUNT p.dst)
          else if t.proxy then (s.take q).proxyDone p.dst p.htid { t with awDone := false }
          else (s.take q).advance p.dst p.htid { t with awDone := false }
      | none => (s.take q).inc (F.HOME_LATE_COUNT p.dst)).answerConflicts p.dst) := by
  subst hq
  change execDone p s = _
  unfold execDone
  rw [State.arrive_of_mayArrive ha]
  rfl
theorem execBirsp_awaited (hq : q = { p with opc := .birsp }) (ha : s.mayArrive q = true) {t : Txn} (ht : s.txn p.dst p.htid = some t)
    (hl : t.req.line = p.line) (hs : t.awSnp.contains p.hslot = true) (hw : t.snpWait.contains p.hslot = false) :
    exec (.birsp p) s = .next (((s.take q).countExtra p.dst t p.mv).snoopAnswer p.dst p.htid t p.hslot p.mv) := by
  subst hq
  have hfilter : ((s.take { p with opc := .birsp }).txn p.dst p.htid).filter
      (fun t => t.req.line == p.line && t.awSnp.contains p.hslot && !t.snpWait.contains p.hslot) = some t := by
    rw [show (s.take { p with opc := .birsp }).txn p.dst p.htid = some t from ht]
    exact if_pos (by dsimp only; rw [hl, hs, hw]; simp)
  change execBirsp p s = _
  unfold execBirsp
  rw [State.arrive_of_mayArrive ha]
  dsimp only
  change Outcome.next (match ((s.take { p with opc := .birsp }).txn p.dst p.htid).filter
    (fun t => t.req.line == p.line && t.awSnp.contains p.hslot && !t.snpWait.contains p.hslot) with | some t => _ | none => _) = _
  rw [hfilter]
theorem execBirsp_late (hq : q = { p with opc := .birsp }) (ha : s.mayArrive q = true) (ht : s.txn p.dst p.htid = none)
    (hf : s.fwdOf p.dst p.line = none) : exec (.birsp p) s = .next ((s.take q).inc (F.HOME_LATE_COUNT p.dst)) := by
  subst hq
  have ht' : (s.take { p with opc := .birsp }).txn p.dst p.htid = none := ht
  have hf' : (s.take { p with opc := .birsp }).fwdOf p.dst p.line = none := hf
  change execBirsp p s = _
  unfold execBirsp
  rw [State.arrive_of_mayArrive ha]
  dsimp only
  rw [ht']
  change Outcome.next (match (s.take { p with opc := .birsp }).fwdOf p.dst p.line with | some f => _ | none => _) = _
  rw [hf']
end

/-! ### The next RECALL of a sweep (O9) -/

theorem State.sweepSend_none {s : State} {w : Sweep} {g : SweepEng} (h : sweepLine w.exts g.next = none) :
    s.sweepSend w g = (s, { g with line := none }) := by
  unfold State.sweepSend
  rw [h, ite_self]
/-- An engine with less than 2,048 open RECALLs sends the one of its next line (R259). -/
theorem State.sweepSend_some {s : State} {w : Sweep} {g : SweepEng} {l : Nat} (ho : s.rd (F.INST_ENG_STATUS_RECALL_OPEN g.die) < 2048)
    (h : sweepLine w.exts g.next = some l) : ∃ u : State, s.sweepSend w g = (u, { g with line := some l, next := g.next + w.engs.length }) ∧
      u.pool = s.pool ∧ ∃ f ∈ u.scrim.flight, f.p.opc = .recall ∧ f.p.line = l % 2 ^ 46 := by
  unfold State.sweepSend
  rw [if_pos ho, h]
  have hline : (BitVec.ofNat 52 (l * 64)).toNat / 64 = l % 2 ^ 46 := by
    rw [BitVec.toNat_ofNat]
    omega
  exact ⟨_, rfl, State.inc_pool .., _, List.mem_append_right _ (List.mem_singleton_self _), rfl, hline⟩
theorem State.sweepOn_eq (s : State) (w w' : Sweep) (g : SweepEng) (d : Nat) (hg : w'.engDone g = false) :
    (s.sweepOn w w' g d).pool = { s.pool with sweeps := s.pool.sweeps.map (fun (x : Sweep) => if x = w then w' else x) } ∧
      (s.sweepOn w w' g d).scrim = s.scrim := by
  unfold State.sweepOn
  dsimp only
  rw [if_neg (by rw [hg]; decide)]
  split
  · exact ⟨State.wr_pool .., State.wr_scrim ..⟩
  · exact ⟨State.wr_pool .., State.wr_scrim ..⟩
  · exact ⟨rfl, rfl⟩
/-- The only engine of a sweep takes a new state. -/
theorem Sweep.put_single {w : Sweep} {g : SweepEng} (h : w.engs = [g]) (g' : SweepEng) : w.put g g' = { w with engs := [g'] } := by
  unfold Sweep.put
  rw [h, List.map_singleton, if_pos ⟨rfl, rfl⟩]
section
variable {s : State} {p q : Pkt} {w : Sweep} {g : SweepEng} (hw : w.engs = [g])
include hw
theorem execRcmp_single (hq : q = { p with opc := .rcmp }) (ha : s.mayArrive q = true) (hs : s.pool.sweeps = [w]) (hc : ctrlCell g.die = p.dst)
    (hl : g.line = some p.line) : exec (.rcmp p) s = .next ((s.take q).sweepStep w g).nextCommit := by
  subst hq
  have hs' : (s.take { p with opc := .rcmp }).pool.sweeps = [w] := hs
  have hit : (ctrlCell g.die == p.dst && g.line == some p.line) = true := by rw [hc, hl]; simp
  have hengs : w.engs.find? (fun g => ctrlCell g.die == p.dst && g.line == some p.line) = some g := by rw [hw]; exact List.find?_cons_of_pos hit
  have hany : w.engs.any (fun g => ctrlCell g.die == p.dst && g.line == some p.line) = true := by
    rw [hw]
    exact List.any_eq_true.2 ⟨g, List.mem_singleton_self g, hit⟩
  have hsweep : (s.take { p with opc := .rcmp }).pool.sweeps.find? (fun w => w.engs.any (fun g => ctrlCell g.die == p.dst && g.line == some p.line)) =
    some w := by rw [hs']; exact List.find?_cons_of_pos hany
  change execRcmp p s = _
  unfold execRcmp
  rw [State.arrive_of_mayArrive ha]
  dsimp only
  change Outcome.next (match (s.take { p with opc := .rcmp }).pool.sweeps.find?
    (fun w => w.engs.any (fun g => ctrlCell g.die == p.dst && g.line == some p.line)) with | none => _ | some w => _) = _
  rw [hsweep]
  change Outcome.next (match w.engs.find? (fun g => ctrlCell g.die == p.dst && g.line == some p.line) with | none => _ | some g => _) = _
  rw [hengs]
theorem State.sweepStep_last (hn : sweepLine w.exts g.next = none) : s.sweepStep w g =
    (s.dec (F.INST_ENG_STATUS_RECALL_OPEN g.die)).sweepEnd w { w with engs := [{ g with line := none }] } g.die := by
  unfold State.sweepStep
  rw [State.sweepSend_none hn]
  dsimp only
  rw [Sweep.put_single hw, if_pos (by simp [Sweep.engDone, hn])]
theorem State.sweepStep_next {l : Nat} (hs : s.pool.sweeps = [w]) (ho : s.rd (F.INST_ENG_STATUS_RECALL_OPEN g.die) ≤ 2048)
    (hn : sweepLine w.exts g.next = some l) :
    (s.sweepStep w g).pool.sweeps = [{ w with engs := [{ g with line := some l, next := g.next + 1 }] }] ∧
      ∃ f ∈ (s.sweepStep w g).scrim.flight, f.p.opc = .recall ∧ f.p.line = l % 2 ^ 46 := by
  have hopen : (s.dec (F.INST_ENG_STATUS_RECALL_OPEN g.die)).rd (F.INST_ENG_STATUS_RECALL_OPEN g.die) < 2048 := by
    rw [State.rd_dec s 1 (by decide : 48 + 12 ≤ 64)]
    omega
  obtain ⟨u, hu, hpool, hflight⟩ := State.sweepSend_some hopen hn
  have hstep : s.sweepStep w g = u.sweepOn w { w with engs := [{ g with line := some l, next := g.next + 1 }] }
      { g with line := some l, next := g.next + 1 } g.die := by
    unfold State.sweepStep
    rw [hu]
    dsimp only
    rw [Sweep.put_single hw, if_neg (by simp [Sweep.engDone]), hw]
    rfl
  obtain ⟨hpool', hscrim⟩ := u.sweepOn_eq w { w with engs := [{ g with line := some l, next := g.next + 1 }] }
    { g with line := some l, next := g.next + 1 } g.die rfl
  rw [hstep, hpool', hscrim]
  refine ⟨?_, hflight⟩
  dsimp only
  rw [hpool, State.dec_pool, hs, List.map_singleton, if_pos rfl]
end

/-! ### Snoops at an anchor (O9) -/

theorem mget_eq_none {V : Type} {m : NMap V} {a : Nat} (h : ∀ e ∈ m, e.1 ≠ a) : mget m a = none := by
  induction m with
  | nil => rfl
  | cons e t ih =>
    obtain ⟨k, v⟩ := e
    rw [mget, if_neg (h (k, v) (.head _)), ih fun e he => h e (.tail _ he)]
/-- With no open BITag a BISnp takes tag 0 and goes to the host (R175). -/
theorem State.anchorSnoop_first {s : State} {p : Pkt} (ha : s.mayArrive p = true) (hb : ∀ e ∈ s.home.bitag, e.1 / 4096 ≠ p.dst.val) :
    s.anchorSnoop p = State.emit { s.take p with
      home.bitag := mput s.home.bitag (p.dst.val * 4096) { home := p.src, htid := p.htid, addr := p.addr, hslot := p.hslot, opc := p.opc } }
      (.biSnp p.dst 0 p.opc p.addr) := by
  have hdup : (s.take p).home.bitag.any (fun e => e.1 / 4096 == p.dst.val && e.2.home == p.src && e.2.htid == p.htid && e.2.addr == p.addr
      && e.2.hslot == p.hslot) = false :=
    List.any_eq_false.2 fun e he => by simp [hb e he]
  have hfree : (List.range 4096).find? (fun t => (mget (s.take p).home.bitag (p.dst.val * 4096 + t)).isNone) = some 0 :=
    List.find?_range_eq_some.2 ⟨by
      rw [State.take_home, mget_eq_none fun e he heq => hb e he (by omega)]
      rfl, by simp, fun _ h => absurd h (Nat.not_lt_zero _)⟩
  rw [State.anchorSnoop, State.arrive_of_mayArrive ha]
  dsimp only
  rw [hdup, if_neg (by decide), hfree]
  dsimp only
  rw [Nat.add_zero, State.take_home]
  rfl
theorem execHostBirsp_open {s : State} {a : Cell} {n : Fin 4096} {b : BiTag} (hb : mget s.home.bitag (a.val * 4096 + n.val) = some b)
    (hh : b.held = none) (mv : Mv) : exec (.hostBirsp a n mv) s = .next (if s.writeOpen a (b.addr.toNat / 64) s.cyc then
      State.inc { s with home.bitag := mput s.home.bitag (a.val * 4096 + n.val) { b with held := some mv, heldAt := s.cyc } } (F.HOME_BIRSP_HOLD_COUNT a)
      else s.sendBirsp a n.val b mv) := by
  change execHostBirsp a n mv s = _
  unfold execHostBirsp
  rw [hb]
  exact congrArg Outcome.next (if_neg (by rw [hh]; decide))
/-- A BIConflict becomes a BICONF, to the cell whose snoop is open for the line or to the line's home (R202). -/
theorem execHostBiconflict_sends (a : Cell) (addr : BitVec 52) (s : State) :
    ∃ t f, exec (.hostBiconflict a addr) s = .next t ∧ t.scrim.flight = s.scrim.flight ++ [{ loc := a, p := f }] ∧ f.opc = .biconf ∧ f.addr = addr ∧
      ((∀ e ∈ s.home.bitag, e.1 / 4096 = a.val → e.2.addr.toNat / 64 ≠ addr.toNat / 64) → f.dst = s.homeOf a (addr.toNat / 64)) := by
  change ∃ t f, execHostBiconflict a addr s = _ ∧ _
  unfold execHostBiconflict
  split
  · next e he =>
    refine ⟨_, s.issued _, rfl, State.send_flight .., rfl, rfl, fun h => ?_⟩
    have hhit := List.find?_some he
    simp only [Bool.and_eq_true, beq_iff_eq] at hhit
    exact absurd hhit.2 (h e (List.mem_of_find?_eq_some he) hhit.1)
  · exact ⟨_, s.issued _, rfl, State.send_flight .., rfl, rfl, fun _ => rfl⟩

/-! ### A host that does not answer (O9) -/

/-- With a service processor a fault is the newest entry of the fault log (R377). -/
theorem State.logFault_newest {s : State} (h : s.activeSp ≠ none) (cls : Nat) (cell : Option Cell) (subj cause detail elem : Nat) (outside : Bool) :
    ∃ r, (s.logFault cls cell subj cause detail elem outside).log.fault.head? = some r ∧ r.cls = cls ∧ r.cause = cause ∧ r.detail = detail % 65536 := by
  unfold State.logFault
  extract_lets dbl u v x
  have hu : Keeps 134217695 s u := State.sat_keeps rfl (Keeps.refl s) _ _
  have hv : Keeps 134217695 s v := ite_keeps (fun _ => State.wr_keeps rfl hu _ _) fun _ => hu
  have hx : Keeps 134217695 s x := ite_keeps (fun _ => State.wr_keeps rfl hv _ _) fun _ => hv
  have hsp : x.activeSp.isSome = true := hx.activeSp_eq ▸ Option.isSome_iff_ne_none.2 h
  unfold State.logFaultRec
  dsimp only
  rw [if_pos hsp, State.writeFault, (State.logBump_keeps (P := 134201343) rfl (Keeps.refl _) _ _).log_eq, List.head?_take]
  exact ⟨_, rfl, rfl, rfl, rfl⟩
theorem State.slotGone_activeSp (s : State) (h : Cell) (hs : HSlot) : (s.slotGone h hs).activeSp = s.activeSp :=
  (State.slotGone_keeps (P := 134217695) rfl (Keeps.refl s) h hs).activeSp_eq

/-! ### The directory view (O9) -/

theorem execDirLookup_starts (h : Cell) (s : State) : ∃ t, exec (.dirLookup h) s = .next t ∧ h ∈ t.home.looking ∧ t.rd (F.DIR_VIEW2_VALID h) = 0 := by
  refine ⟨_, rfl, ?_, State.rd_wr_same _ _ (by decide : 63 + 1 ≤ 64)⟩
  rw [State.wr_home]
  split
  · next hl => exact List.contains_iff_mem.1 hl
  · exact List.mem_append_right _ (List.mem_singleton_self h)
/-- A write of another field of the last view leaves VALID. -/
theorem State.rd_viewValid_wr (s : State) {h : Nat} {f : Fld} (n : Nat) (ha : f.addr = F.DIR_VIEW2_at h) (hf : f.lsb + f.width ≤ 63) :
    (s.wr f n).rd (F.DIR_VIEW2_VALID h) = s.rd (F.DIR_VIEW2_VALID h) :=
  State.rd_wr_other s n ha (.inl hf) (by decide : 63 + 1 ≤ 64)
/-- The lookup delivers: VALID and the line's home stand in the last view (R166). -/
theorem execDirLookupComplete_delivers {h : Cell} {s : State} (hl : h ∈ s.home.looking) :
    ∃ t, exec (.dirLookupComplete h) s = .next t ∧ h ∉ t.home.looking ∧ t.rd (F.DIR_VIEW2_VALID h) = 1 ∧
      t.rd (F.DIR_VIEW2_HOME h) = (s.homeOf h (s.rd (F.DIR_SEL_LINE h))).val := by
  change ∃ t, execDirLookupComplete h s = _ ∧ _
  unfold execDirLookupComplete
  rw [if_neg (by simp [hl])]
  refine ⟨_, rfl, ?_, ?_, ?_⟩
  · simp only [State.wrb, State.wr_home, State.setReg_home]
    simp
  · rw [State.rd_viewValid_wr _ _ rfl (by decide : 0 + 7 ≤ 63), State.rd_viewValid_wr _ _ rfl (by decide : 26 + 20 ≤ 63),
      State.rd_viewValid_wr _ _ rfl (by decide : 46 + 4 ≤ 63), State.rd_viewValid_wr _ _ rfl (by decide : 50 + 10 ≤ 63), State.wrb,
      State.rd_viewValid_wr _ _ rfl (by decide : 60 + 1 ≤ 63), State.wrb, State.rd_viewValid_wr _ _ rfl (by decide : 61 + 1 ≤ 63), State.wrb,
      State.rd_viewValid_wr _ _ rfl (by decide : 62 + 1 ≤ 63), State.rd_wr_same _ _ (by decide : 63 + 1 ≤ 64)]
    exact Nat.mod_eq_of_lt (by decide : 1 < 2 ^ 1)
  · rw [State.rd_wr_same _ _ (by decide : 0 + 7 ≤ 64)]
    exact Nat.mod_eq_of_lt (s.homeOf h (s.rd (F.DIR_SEL_LINE h))).isLt
theorem execHomeTtClrHwm_restarts (h : Cell) (s : State) :
    ∃ t, exec (.homeTtClrHwm h) s = .next t ∧ t.rd (F.HOME_TT_HWM h) = s.rd (F.HOME_TT_IN_USE h) :=
  ⟨_, rfl, (State.rd_wr_same _ _ (by decide : 49 + 11 ≤ 64)).trans (Nat.mod_eq_of_lt (State.rd_lt s (F.HOME_TT_IN_USE h)))⟩

/-! ### The commands together (O9) -/

/-- Settles O9: the responses act on their slot, the completions on their transaction, a RECALL's completion on its sweep, the snoops at their
anchor. -/
theorem responsesAndSnoopsComplete : Obligations.ResponsesAndSnoopsComplete := by
  refine ⟨fun p x s hx hg he => ⟨fun ha => ⟨fun d hd => execGrant_device hx hg he ha hd, fun hd => ?grant⟩,
      fun ha => ⟨fun d hr hd => execRdata_device hx hg he ha hr hd, fun hr hd => ?rdata, fun d hr => execRdata_again hx hg he ha hr⟩,
      fun ha => ?wgo, fun ha => ?wcmp⟩,
    fun p s => ⟨fun ha hc hf => ?mcmp, fun ha => ?done, fun ha => ⟨fun t => execBirsp_awaited rfl ha, execBirsp_late rfl ha⟩,
      fun ha => congrArg Outcome.next (State.arrive_of_mayArrive ha _)⟩,
    fun p w g s ha hs hw hc hl => ?rcmp, fun p q c o s ho hq ha hb => ?snoop, fun a n mv b s hb hh => ?hostBirsp, fun a addr s => ?biconflict,
    fun h hs s hsp => ?timeout, fun h s => ⟨execDirLookup_starts h s, execDirLookupComplete_delivers, execHomeTtClrHwm_restarts h s⟩⟩
  case grant =>
    obtain ⟨y, e, hy⟩ := execGrant_host hx hg he ha hd
    exact ⟨_, y, e, State.slot_setSlot .., hy⟩
  case rdata =>
    obtain ⟨y, e, hy⟩ := execRdata_host hx hg he ha hr hd
    exact ⟨_, y, e, State.slot_setSlot .., hy⟩
  case wgo =>
    rw [execWgo_eq hx hg he ha]
    exact ⟨fun hf => congrArg Outcome.next (if_pos hf), fun hf => congrArg Outcome.next (if_neg (by simp [hf]))⟩
  case wcmp =>
    rw [execWcmp_eq hx hg he ha]
    exact ⟨fun d hd => congrArg Outcome.next (if_pos (by rw [hd]; rfl)),
      fun hd hi => by rw [if_neg (by rw [hd]; decide), if_pos hi], fun hd hi => by rw [if_neg (by rw [hd]; decide), if_neg (by simp [hi])]⟩
  case mcmp =>
    rw [execMcmp_eq rfl ha hc hf]
    refine ⟨fun t ht hl hp hm hg => ?_, fun t ht hl hm hw => ?_, fun ht => by rw [ht]⟩
    · rw [ht]
      dsimp only
      rw [if_neg (not_not.2 hl), if_pos (by simp [hm, hg]), if_pos (by simp [hp])]
    · rw [ht]
      dsimp only
      rw [if_neg (not_not.2 hl), if_neg (by simp [hm]), if_pos (List.contains_iff_mem.2 hw)]
  case done =>
    rw [execDone_eq rfl ha]
    refine ⟨fun t ht hd hl hp hg => ?_, fun ht => by rw [ht]⟩
    rw [ht]
    dsimp only
    rw [if_neg (by simp [hd, hl, hg]), if_neg (by simp [hp])]
  case rcmp =>
    rw [execRcmp_single hw rfl ha hs hc hl]
    exact ⟨fun l ho hn => ⟨_, rfl, State.sweepStep_next (s := s.take { p with opc := .rcmp }) hw hs ho hn⟩,
      fun hn => by rw [State.sweepStep_last hw hn]⟩
  case snoop =>
    subst hq
    have hexec : exec c s = .next (s.anchorSnoop { p with opc := o }) := by
      simp only [List.mem_cons, Prod.mk.injEq, List.not_mem_nil, or_false] at ho
      obtain ⟨rfl, rfl⟩ | ⟨rfl, rfl⟩ | ⟨rfl, rfl⟩ := ho <;> rfl
    exact ⟨_, hexec.trans (congrArg Outcome.next (State.anchorSnoop_first ha hb)), rfl, mget_mput_same ..⟩
  case hostBirsp =>
    rw [execHostBirsp_open hb hh]
    refine ⟨fun ho => ⟨_, congrArg Outcome.next (if_pos ho), ?_, ?_⟩, fun ho => congrArg Outcome.next (if_neg (by simp [ho]))⟩
    · rw [State.inc_home]
      exact mget_mput_same ..
    · rfl
  case biconflict =>
    -- The clause asks for the destination only under all the other facts, which the lemma has outright.
    obtain ⟨t, f, -, -, -, -, hdst⟩ := execHostBiconflict_sends a addr s
    exact ⟨t, f, fun ⟨_, _, _, _, hnone⟩ => hdst hnone⟩
  case timeout =>
    have hsp' : (State.emit (s.slotGone h hs) (.linkFailure ((s.slotGone h hs).anchorFor h hs))).activeSp ≠ none :=
      fun e => hsp ((State.slotGone_activeSp s h hs).symm.trans e)
    obtain ⟨r, hr, hcls, hcause, hdetail⟩ := State.logFault_newest hsp' 0x0F (some h) hs.val 0x000D hs.val
      ((State.emit (s.slotGone h hs) (.linkFailure ((s.slotGone h hs).anchorFor h hs))).anchorFor h hs).val true
    exact ⟨_, r, rfl, hr, hcls, hcause, hdetail.trans (Nat.mod_eq_of_lt (by omega))⟩

end Sys2Proof.Machine

/-! # Coherence homes: owner ordering, takeover, twins and re-silvering -/

namespace Sys2Proof.Machine
open Host (Outcome)

/-! ### Forwards at a proxy (O10) -/

/-- A FWD whose line is not served, at a proxy in whose chains no FWD waits, is no duplicate (R369): it waits for a place or joins its chain. -/
theorem execFwd_new {s : State} {p q : Pkt} (hq : q = { p with opc := .fwd }) (ha : s.mayArrive q = true)
    (hs : ∀ f ∈ mgetD [] s.home.fwdServe p.dst.val, f.p.line ≠ p.line) (hc : ∀ i ∈ mgetD [] s.home.pchain p.dst.val, i.isFwd = false) :
    exec (.fwd p) s = .next (if s.rd (F.HOME_PROXY_STATUS_FWD_USE p.dst) ≥ 256 ∨ mgetD [] s.home.fwdWait p.dst.val ≠ [] then
        { s.take q with home.fwdWait := mmod [] s.home.fwdWait p.dst.val (· ++ [q]) }
      else ({ s.take q with
        home.pchain := mmod [] s.home.pchain p.dst.val (· ++ [({ line := BitVec.ofNat 46 p.line, isFwd := true, p := q } : PItem)]) }.inc
          (F.HOME_PROXY_STATUS_FWD_USE p.dst)).proxyRun p.dst p.line) := by
  have hserved : (mgetD [] s.home.fwdServe p.dst.val).any (fun f => f.p.src == p.src && f.p.htid == p.htid && f.p.line == p.line) = false :=
    List.any_eq_false.2 fun f hf => by simp [hs f hf]
  have hwaits : (mgetD [] s.home.pchain p.dst.val).any
      (fun i => i.isFwd && (i.p.src == p.src && i.p.htid == p.htid && i.p.line == p.line)) = false :=
    List.any_eq_false.2 fun i hi => by simp [hc i hi]
  subst hq
  change execFwd p s = _
  unfold execFwd
  rw [State.arrive_of_mayArrive ha]
  dsimp only
  rw [if_neg]
  · rfl
  · rw [Bool.or_eq_true]
    exact fun h => h.elim (ne_true_of_eq_false hserved) (ne_true_of_eq_false hwaits)

/-! ### The owner's answers (O10) -/

/-- An answer of a proxy is its forward's, or late (R199). -/
theorem State.ownerAnswer_eq {s : State} {q : Pkt} (ha : s.mayArrive q = true) : s.ownerAnswer q = match s.txn q.dst q.htid with
    | some t => match t.awFwd.find? (fun hs => s.anchorFor q.dst hs == q.src) with
      | some hs => (s.take q).advance q.dst q.htid
          { t with awFwd := t.awFwd.erase hs, found := if t.phase = .fwd then ownerLeft t.found q.mv else t.found }
      | none => (s.take q).inc (F.HOME_LATE_COUNT q.dst)
    | none => (s.take q).inc (F.HOME_LATE_COUNT q.dst) := by
  unfold State.ownerAnswer
  rw [State.arrive_of_mayArrive ha]
  rfl
theorem State.ownerAnswer_forwarded {s : State} {q : Pkt} (ha : s.mayArrive q = true) {t : Txn} {hs : HSlot} (ht : s.txn q.dst q.htid = some t)
    (hf : t.awFwd.find? (fun k => s.anchorFor q.dst k == q.src) = some hs) (hp : t.phase = .fwd) :
    s.ownerAnswer q = (s.take q).advance q.dst q.htid { t with awFwd := t.awFwd.erase hs, found := ownerLeft t.found q.mv } := by
  rw [State.ownerAnswer_eq ha, ht]
  dsimp only
  rw [hf]
  dsimp only
  rw [if_pos hp]
theorem State.ownerAnswer_late {s : State} {q : Pkt} (ha : s.mayArrive q = true) (ht : s.txn q.dst q.htid = none) :
    s.ownerAnswer q = (s.take q).inc (F.HOME_LATE_COUNT q.dst) := by
  rw [State.ownerAnswer_eq ha, ht]

/-! ### Idle entries of a proxy (O10) -/

/-- The entry is one of anchor a that no transaction blocks and that has held I for IDLE_DROP (R194). -/
def State.idleAt (s : State) (a : Cell) (e : Nat × PEnt) : Prop :=
  e.1 / 4096 = a.val ∧ PEnt.busy e.2 = false ∧ e.2.held = .I ∧ s.rd (F.HOME_PROXY_CFG_IDLE_DROP a) ≠ 0 ∧
    s.rd (F.HOME_PROXY_CFG_IDLE_DROP a) ≤ s.us - e.2.since
/-- The age check drops the idle entries and no other. -/
theorem execProxyAgeCheck_proxy (a : Cell) (s : State) :
    ∃ t, exec (.proxyAgeCheck a) s = .next t ∧ ∀ e, e ∈ t.home.proxy ↔ e ∈ s.home.proxy ∧ ¬ s.idleAt a e := by
  refine ⟨_, rfl, fun e => ?_⟩
  rw [State.inc_home, State.dec_home, List.mem_filter]
  simp only [State.idleAt, Bool.not_eq_true', Bool.and_eq_false_iff, not_and_or]
  simp only [beq_eq_false_iff_ne, Bool.not_eq_false', decide_eq_false_iff_not, or_assoc, Bool.not_eq_false]

/-! ### Takeover (O10) -/

theorem HOME_TAKE_at_inj {a b : Nat} (h : F.HOME_TAKE_at a = F.HOME_TAKE_at b) : a = b := by
  unfold F.HOME_TAKE_at at h
  omega
/-- Quiesce to flush, at the cells whose numbers are listed. -/
theorem State.rd_foldl_takeState (l : List Nat) (s : State) (c : Nat) :
    (l.foldl (fun s x => s.wr (F.HOME_TAKE_STATE x) 2) s).rd (F.HOME_TAKE_STATE c) = if c ∈ l then 2 else s.rd (F.HOME_TAKE_STATE c) := by
  induction l generalizing s with
  | nil => rfl
  | cons x l ih =>
    rw [List.foldl_cons, ih]
    by_cases hx : x = c
    · subst hx
      rw [State.rd_wr_same s 2 (by decide : 30 + 2 ≤ 64), if_pos (List.mem_cons_self ..)]
      exact ite_self _
    · rw [State.rd_wr_ne s 2 fun h => hx (HOME_TAKE_at_inj h)]
      simp [Ne.symm hx]
theorem execTakeoverQuiesceComplete_flush (s : State) : ∃ t, exec .takeoverQuiesceComplete s = .next t ∧
    ∀ c : Cell, t.rd (F.HOME_TAKE_STATE c) = (if c ∈ s.takingOver 1 then 2 else s.rd (F.HOME_TAKE_STATE c)) := by
  refine ⟨_, rfl, fun c => (State.rd_foldl_takeState _ s c).trans (if_congr ?_ rfl rfl)⟩
  simp [Fin.val_inj]
theorem execTakeoverFlushComplete_open {s : State} (h : s.flushOpen = true ∨ s.givingOpen = true) (slow : Option Cell) :
    exec (.takeoverFlushComplete slow) s = .next s := congrArg Outcome.next (if_pos (.inr h))
theorem State.givingOpen_of_nil {s : State} (h : s.home.giving = []) : s.givingOpen = false := by
  unfold State.givingOpen
  rw [h]
  exact List.any_eq_false.2 fun _ _ => by simp
/-- The only home that flushes releases its lines, and the recovery ends its third step (R365). -/
theorem execTakeoverFlushComplete_single {s : State} {c : Cell} (hc : s.takingOver 2 = [c]) (hf : s.flushOpen = false) (hg : s.home.giving = []) :
    exec (.takeoverFlushComplete none) s = .next
      (if (s.release c).rd F.PKG_FAULT_STATUS_STEP = 3 then ((s.release c).logStep 3).endReissue else s.release c) := by
  change execTakeoverFlushComplete none s = _
  unfold execTakeoverFlushComplete
  dsimp only
  rw [hc, if_neg (by simp [hf, State.givingOpen_of_nil hg]), if_neg (by simp [hg]), List.foldl_cons, List.foldl_nil]
/-- No line of a home is in B_TAKE, and nothing is set aside there. -/
def State.clearTake (s : State) (c : Cell) : State :=
  { s with home.held := s.home.held.filter (fun k => k / 128 != c.val), home.setAside := mdel s.home.setAside c.val }
/-- A home releases its lines where no request of them was set aside (R208). -/
theorem State.release_of_nil {s : State} {c : Cell} (h : mgetD [] s.home.setAside c.val = []) : ∃ n, s.release c =
    (((s.clearTake c).wr (F.HOME_TAKE_STATE c) 3).wr (F.HOME_TAKE_SET_ASIDE c) 0).wr (F.HOME_TAKE_LAST_US c) n := by
  unfold State.release
  rw [h]
  exact ⟨_, rfl⟩
section
variable {s : State} {c : Cell} (h : mgetD [] s.home.setAside c.val = [])
include h
theorem State.release_state : (s.release c).rd (F.HOME_TAKE_STATE c) = 3 := by
  obtain ⟨n, hn⟩ := State.release_of_nil h
  rw [hn,
    State.rd_wr_other (f := F.HOME_TAKE_LAST_US c) (g := F.HOME_TAKE_STATE c) _ n rfl (.inr (by decide : 30 + 2 ≤ 48)) (by decide : 30 + 2 ≤ 64),
    State.rd_wr_other (f := F.HOME_TAKE_SET_ASIDE c) (g := F.HOME_TAKE_STATE c) _ 0 rfl (.inl (by decide : 0 + 18 ≤ 30)) (by decide : 30 + 2 ≤ 64),
    State.rd_wr_same _ 3 (by decide : 30 + 2 ≤ 64)]
  rfl
theorem State.release_setAside : (s.release c).rd (F.HOME_TAKE_SET_ASIDE c) = 0 := by
  obtain ⟨n, hn⟩ := State.release_of_nil h
  rw [hn,
    State.rd_wr_other (f := F.HOME_TAKE_LAST_US c) (g := F.HOME_TAKE_SET_ASIDE c) _ n rfl (.inr (by decide : 0 + 18 ≤ 48)) (by decide : 0 + 18 ≤ 64),
    State.rd_wr_same _ 0 (by decide : 0 + 18 ≤ 64)]
  rfl
theorem State.release_held : (s.release c).home.held = s.home.held.filter (fun k => k / 128 != c.val) := by
  obtain ⟨n, hn⟩ := State.release_of_nil h
  rw [hn, State.wr_home, State.wr_home, State.wr_home]
  rfl
end

/-! ### The steps of a recovery (O10) -/

/-- The registers that the log of a recovery's step writes (R365, R377, R378). -/
abbrev stepRegs : List Nat := [F.PKG_FAULT_STATUS_at, F.PKG_FAULT_TIMES_at, F.PKG_LOG_PTR_at 0, F.PKG_LOG_DROP_at 0]
theorem State.logFaultRec_regsBut (s : State) (r : FaultRec) : s.regsBut stepRegs (s.logFaultRec r) := by
  have hptr : F.PKG_LOG_PTR_at 0 ∈ stepRegs := .tail _ (.tail _ (.head _))
  have hdrop : F.PKG_LOG_DROP_at 0 ∈ stepRegs := .tail _ (.tail _ (.tail _ (.head _)))
  unfold State.logFaultRec State.writeFault State.logBump
  extract_lets r l n u
  have hu : s.regsBut stepRegs u := .wr (.same rfl) hptr
  exact .ite (fun _ => .ite (fun _ => .wr hu hptr) fun _ => hu) fun _ => .ite (fun _ => .same rfl) fun _ => .wr (.refl _ s) hdrop
theorem State.logStep_regsBut (s : State) (step : Nat) : s.regsBut stepRegs (s.logStep step) := by
  have htimes : F.PKG_FAULT_TIMES_at ∈ stepRegs := .tail _ (.head _)
  unfold State.logStep
  extract_lets t u bound v
  have hu : s.regsBut stepRegs u := by
    dsimp only [u]
    split <;> exact .wr (.refl _ s) htimes
  have hv : s.regsBut stepRegs v := fun a h => (u.logFaultRec_regsBut _ a h).trans (hu a h)
  exact .wr hv (.head _)
/-- The end of a takeover's step in the log moves nothing of a home. -/
theorem State.endStep_regsBut (s : State) : s.regsBut stepRegs (s.logStep 3).endReissue :=
  .ite (fun _ a h => ((s.logStep 3).logStep_regsBut 4 a h).trans (s.logStep_regsBut 3 a h)) fun _ => s.logStep_regsBut 3
theorem State.endStep_home (s : State) : (s.logStep 3).endReissue.home = s.home :=
  (State.endReissue_keeps (P := 134209535) rfl (State.logStep_keeps rfl (Keeps.refl s) 3)).home_eq
theorem homeTake_not_mem_stepRegs (c : Nat) : F.HOME_TAKE_at c ∉ stepRegs := by
  simp only [F.HOME_TAKE_at, F.PKG_FAULT_STATUS_at, F.PKG_FAULT_TIMES_at, F.PKG_LOG_PTR_at, F.PKG_LOG_DROP_at,
    List.mem_cons, List.not_mem_nil, or_false]
  omega
/-- The release of the only home that flushes: RELEASED, nothing set aside, and no line of it in B_TAKE (R208). -/
theorem execTakeoverFlushComplete_releases {s : State} {c : Cell} (hc : s.takingOver 2 = [c]) (hf : s.flushOpen = false)
    (hg : s.home.giving = []) (hs : mgetD [] s.home.setAside c.val = []) :
    ∃ t, exec (.takeoverFlushComplete none) s = .next t ∧ t.rd (F.HOME_TAKE_STATE c) = 3 ∧ t.rd (F.HOME_TAKE_SET_ASIDE c) = 0 ∧
      t.home.held = s.home.held.filter (fun k => k / 128 != c.val) := by
  refine ⟨_, execTakeoverFlushComplete_single hc hf hg, ?_⟩
  split
  · have hrd : ∀ f : Fld, f.addr = F.HOME_TAKE_at c → ((s.release c).logStep 3).endReissue.rd f = (s.release c).rd f := fun f hf =>
      State.rd_of_reg ((s.release c).endStep_regsBut _ (hf ▸ homeTake_not_mem_stepRegs c))
    rw [hrd _ rfl, hrd _ rfl, State.endStep_home]
    exact ⟨State.release_state hs, State.release_setAside hs, State.release_held hs⟩
  · exact ⟨State.release_state hs, State.release_setAside hs, State.release_held hs⟩

/-! ### Twins (O10) -/

section
variable {s : State} {c : Cell} {hs : HSlot}
theorem State.loseSlot_alone (h : s.twinOf c hs = none) : s.loseSlot c hs = s.slotGone c hs := by
  rw [State.loseSlot, h]
/-- A slot with a twin passes to it, or goes with a twin that is lost already (R210). -/
theorem State.loseSlot_twin {k : HSlot} (h : s.twinOf c hs = some k) (hl : s.slotLost c hs = false) : s.loseSlot c hs =
    if s.slotLost c k then (s.slotGone c k).slotGone c hs
    else { s with home.twinLost := s.home.twinLost ++ [c.val * 128 + hs.val] }.resendTo c hs := by
  rw [State.loseSlot, h]
  exact if_neg (by simp [hl])
end

/-! ### Re-silvering (O10) -/

theorem copyState_addr_ne (x : Nat) (mirror : Bool) (d : Nat) : (copyState x mirror).addr ≠ F.DIR_REBUILD_STATUS_at d := by
  have haddr : (copyState x mirror).addr = F.DIR_STACK_STATUS_at x := by cases mirror <;> rfl
  rw [haddr, F.DIR_STACK_STATUS_at, F.DIR_REBUILD_STATUS_at]
  omega
/-- What the last block of the run of die d leaves: the run has ended, RESULT is 1, and the copies are in service (R215). -/
def State.endRun (s : State) (d : Nat) (self : Bool) : State :=
  let s := (s.wr (F.DIR_REBUILD_STATUS_ACTIVE d) 0).wr (F.DIR_REBUILD_STATUS_RESULT d) 1
  if self then s.wr (s.targetState d) 1 else (s.wr (s.targetState d) 0).wr (s.sourceState d) 0
/-- The end of a run writes ACTIVE and RESULT of its status register, and the states of copies elsewhere. -/
theorem State.endRun_reg (s : State) (d : Nat) (self : Bool) : (s.endRun d self).reg (F.DIR_REBUILD_STATUS_at d) =
    ((s.wr (F.DIR_REBUILD_STATUS_ACTIVE d) 0).wr (F.DIR_REBUILD_STATUS_RESULT d) 1).reg (F.DIR_REBUILD_STATUS_at d) := by
  unfold State.endRun
  extract_lets u
  have htarget := copyState_addr_ne (if u.selfRun d then d else partnerDie d) (u.toMirror d) d
  split
  · exact u.reg_wr_ne 1 htarget
  · exact ((u.wr (u.targetState d) 0).reg_wr_ne 0 (copyState_addr_ne d _ d)).trans (u.reg_wr_ne 0 htarget)
section
variable (s : State) (d : Nat) (self : Bool)
theorem State.endRun_cursor : (s.endRun d self).rd (F.DIR_REBUILD_STATUS_CURSOR d) = s.rd (F.DIR_REBUILD_STATUS_CURSOR d) := by
  rw [State.rd_of_reg (f := F.DIR_REBUILD_STATUS_CURSOR d) (s.endRun_reg d self),
    State.rd_wr_other (f := F.DIR_REBUILD_STATUS_RESULT d) (g := F.DIR_REBUILD_STATUS_CURSOR d) _ 1 rfl (.inr (by decide : 0 + 32 ≤ 58))
      (by decide : 0 + 32 ≤ 64),
    State.rd_wr_other (f := F.DIR_REBUILD_STATUS_ACTIVE d) (g := F.DIR_REBUILD_STATUS_CURSOR d) _ 0 rfl (.inr (by decide : 0 + 32 ≤ 63))
      (by decide : 0 + 32 ≤ 64)]
theorem State.endRun_active : (s.endRun d self).rd (F.DIR_REBUILD_STATUS_ACTIVE d) = 0 := by
  rw [State.rd_of_reg (f := F.DIR_REBUILD_STATUS_ACTIVE d) (s.endRun_reg d self),
    State.rd_wr_other (f := F.DIR_REBUILD_STATUS_RESULT d) (g := F.DIR_REBUILD_STATUS_ACTIVE d) _ 1 rfl (.inl (by decide : 58 + 2 ≤ 63))
      (by decide : 63 + 1 ≤ 64),
    State.rd_wr_same _ 0 (by decide : 63 + 1 ≤ 64)]
  rfl
theorem State.endRun_result : (s.endRun d self).rd (F.DIR_REBUILD_STATUS_RESULT d) = 1 := by
  rw [State.rd_of_reg (f := F.DIR_REBUILD_STATUS_RESULT d) (s.endRun_reg d self), State.rd_wr_same _ 1 (by decide : 58 + 2 ≤ 64)]
  rfl
end
/-- The acknowledgement of a block moves the cursor on; the last block ends the run (R214, R215). -/
theorem State.resilverAck_active {s : State} {d : Nat} (h : s.rd (F.DIR_REBUILD_STATUS_ACTIVE d) = 1) :
    ∃ u : State, u.rd (F.DIR_REBUILD_STATUS_CURSOR d) = (s.rd (F.DIR_REBUILD_STATUS_CURSOR d) + 1) % 2 ^ (F.DIR_REBUILD_STATUS_CURSOR d).width ∧
      s.resilverAck d = if s.rd (F.DIR_REBUILD_STATUS_CURSOR d) + 1 ≥ resilverBlocks then u.endRun d (s.selfRun d)
        else if s.selfRun d then u else u.sendBlock d := by
  have hactive : ¬ (!s.rdb (F.DIR_REBUILD_STATUS_ACTIVE d)) = true := by simp [State.rdb, h]
  unfold State.resilverAck
  rw [if_neg hactive]
  exact ⟨_, State.rd_wr_same _ _ (by decide : 0 + 32 ≤ 64), rfl⟩
theorem State.resilverAck_cursor {s : State} {d : Nat} (h : s.rd (F.DIR_REBUILD_STATUS_ACTIVE d) = 1) :
    (s.resilverAck d).rd (F.DIR_REBUILD_STATUS_CURSOR d) =
      (s.rd (F.DIR_REBUILD_STATUS_CURSOR d) + 1) % 2 ^ (F.DIR_REBUILD_STATUS_CURSOR d).width := by
  obtain ⟨u, hu, hack⟩ := State.resilverAck_active h
  rw [hack, ← hu]
  split
  · exact u.endRun_cursor d _
  · split
    · rfl
    · exact State.rd_send u _ _
theorem State.resilverAck_ends {s : State} {d : Nat} (h : s.rd (F.DIR_REBUILD_STATUS_ACTIVE d) = 1)
    (hl : resilverBlocks ≤ s.rd (F.DIR_REBUILD_STATUS_CURSOR d) + 1) :
    (s.resilverAck d).rd (F.DIR_REBUILD_STATUS_ACTIVE d) = 0 ∧ (s.resilverAck d).rd (F.DIR_REBUILD_STATUS_RESULT d) = 1 := by
  obtain ⟨u, -, hack⟩ := State.resilverAck_active h
  rw [hack, if_pos hl]
  exact ⟨u.endRun_active d _, u.endRun_result d _⟩

/-! ### The commands together (O10) -/

/-- Settles O10: a new FWD waits or joins its chain, an owner's answer settles its forward, the age check drops the idle entries, and takeover,
twins and re-silvering each take the step of their lemma. -/
theorem ownerOrderingAndTakeoverComplete : Obligations.OwnerOrderingAndTakeoverComplete := by
  refine ⟨fun p q s hq ha hs hc => ?forward, fun p q c s hcmd ha => ?answer, fun a s => ?age, fun a s => ⟨_, rfl, ?mark⟩,
    execTakeoverQuiesceComplete_flush, fun s h => execTakeoverFlushComplete_open h none,
    fun c s hc hf hg => execTakeoverFlushComplete_releases hc hf hg, fun c hs s => ?twin,
    fun d s h => ⟨_, rfl, State.resilverAck_cursor h, State.resilverAck_ends h⟩⟩
  case forward =>
    have hexec := execFwd_new hq ha hs hc
    refine ⟨fun hfull => ⟨_, hexec, ?_⟩, fun hroom hwait => hexec.trans (congrArg Outcome.next (if_neg ?_))⟩
    · rw [if_pos (.inl hfull)]
      exact ⟨rfl, rfl⟩
    · simp [hroom, hwait]
  case answer =>
    have hexec : exec c s = .next (s.ownerAnswer q) ∧ q.dst = p.dst ∧ q.htid = p.htid ∧ q.src = p.src := by
      rcases List.mem_pair.1 hcmd with h | h <;> cases h <;> exact ⟨rfl, rfl, rfl, rfl⟩
    obtain ⟨hexec, hdst, hhtid, hsrc⟩ := hexec
    rw [hexec, ← hdst, ← hhtid, ← hsrc]
    exact ⟨fun t hs ht hf hp => congrArg Outcome.next (State.ownerAnswer_forwarded ha ht hf hp),
      fun ht => congrArg Outcome.next (State.ownerAnswer_late ha ht)⟩
  case age =>
    obtain ⟨t, hexec, hproxy⟩ := execProxyAgeCheck_proxy a s
    refine ⟨t, hexec, fun e he hkeep => (hproxy e).2 ⟨he, fun ⟨hcell, hbusy, hheld, hlim, hage⟩ => ?_⟩, fun e he => ((hproxy e).1 he).1,
      fun e he hcell hbusy hheld hlim => not_le.1 fun hage => ((hproxy e).1 he).2 ⟨hcell, hbusy, hheld, hlim, hage⟩⟩
    rcases hkeep with h | h | h | h | h
    · exact h hcell
    · exact ne_true_of_eq_false hbusy h
    · exact h hheld
    · exact hlim h
    · exact not_lt.2 hage h
  case mark =>
    exact (State.rd_wr_same s _ (by decide : 26 + 13 ≤ 64)).trans (Nat.mod_eq_of_lt (State.rd_lt s (F.HOME_PROXY_STATUS_ENTRIES a)))
  case twin =>
    refine ⟨fun h => congrArg Outcome.next (State.loseSlot_alone h), fun k h hl => ⟨fun hk => ?_, fun hk => ?_⟩⟩
    · exact congrArg Outcome.next ((State.loseSlot_twin h hl).trans (if_pos hk))
    · exact congrArg Outcome.next ((State.loseSlot_twin h hl).trans (if_neg (by simp [hk])))

end Sys2Proof.Machine

/-! # Pooling and instances: reads of one field behind writes of others -/

namespace Sys2Proof.Machine

/-! ### Fields by address, lowest bit and width

These are rd_wr_ne, rd_wr_other and rd_wr_same with the fields taken apart, so that omega decides their conditions once simp has unfolded the
names of the fields. -/

section
variable (s : State) {a b l w l' w' : Nat} (n : Nat)
theorem State.rd_wr_addr (h : a ≠ b) : (s.wr ⟨a, l, w⟩ n).rd ⟨b, l', w'⟩ = s.rd ⟨b, l', w'⟩ := s.rd_wr_ne n h
theorem State.rd_wr_bits (h : l + w ≤ l' ∨ l' + w' ≤ l) (h' : l' + w' ≤ 64) : (s.wr ⟨a, l, w⟩ n).rd ⟨a, l', w'⟩ = s.rd ⟨a, l', w'⟩ :=
  s.rd_wr_other n rfl h h'
theorem State.rd_wr_self (h : l + w ≤ 64) : (s.wr ⟨a, l, w⟩ n).rd ⟨a, l, w⟩ = n % 2 ^ w := s.rd_wr_same n h
end

/-- The die of a bound record's host port is one of the eight. -/
theorem State.hostDie_lt (s : State) (i : Nat) : s.rd (F.INST_INFO_HOST_PORT i) / 16 < 8 := by
  have h : s.rd (F.INST_INFO_HOST_PORT i) < 128 := s.rd_lt _
  omega
/-- A flag that reads 0 is not set. -/
theorem State.not_rdb {s : State} {f : Fld} (h : s.rd f = 0) : ¬ s.rdb f = true := by simp [State.rdb, h]

end Sys2Proof.Machine

/-! # Pooling: COPY and the scrub of an extent -/

namespace Sys2Proof.Machine
open Host (Outcome)

/-! ### COPY_GO (O49) -/

theorem exec_copyGo {src : Option Src} (h : src ∈ [none, some Src.sp]) (i : Inst) (s : State) :
    exec (.copyGo src i) s = .next (s.copyOp i (!src.isSome)) := by
  rcases List.mem_pair.1 h with rfl | rfl
  · rfl
  · rfl

/-- The COPY of n pages that COPY_GO enters at die d: parts of 512 pages each, the last one the rest (R255). -/
def State.copyNew (s : State) (i n d : Nat) (tenant : Bool) : CopyOp where
  die := d
  priv := !tenant
  tenant := tenant
  parts := (List.range ((n + 511) / 512)).map fun k =>
    { num := k, srcDpa := s.rd (F.INST_COPY_SRC_SRC_DPA i) / 4096 * 4096 + k * 2 ^ 21,
      dstDpa := s.rd (F.INST_COPY_DST_DST_DPA i) / 4096 * 4096 + k * 2 ^ 21, lines := min (512 * 64) ((n - 512 * k) * 64) }
/-- A COPY that the engine of die d has taken, before its parts start. -/
def State.copyEnter (s : State) (i d : Nat) (o : CopyOp) : State :=
  ((({ s with pool.copy := mput s.pool.copy i o }.wr (F.INST_COPY_CTRL_BUSY i) 1).wr (F.INST_PRESS_OP_BUSY d) 1).wr
    ⟨F.INST_COPY_STATUS_at i, 0, 64⟩ 0).wr (F.INST_ENG_STATUS_PRESS_ACTIVE d) (2 ^ o.parts.length - 1)
theorem State.copyEnter_copyBusy (s : State) (i : Nat) {d : Nat} (_ : d < 8) (o : CopyOp) :
    (s.copyEnter i d o).rd (F.INST_COPY_CTRL_BUSY i) = 1 := by
  simp (disch := omega) [State.copyEnter, F.INST_COPY_CTRL_BUSY, F.INST_PRESS_OP_BUSY, F.INST_ENG_STATUS_PRESS_ACTIVE, F.INST_COPY_CTRL_at,
    F.INST_COPY_STATUS_at, F.INST_PRESS_OP_at, F.INST_ENG_STATUS_at, State.rd_wr_addr, State.rd_wr_self]
theorem State.copyEnter_engineBusy (s : State) (i : Nat) {d : Nat} (_ : d < 8) (o : CopyOp) :
    (s.copyEnter i d o).rd (F.INST_PRESS_OP_BUSY d) = 1 := by
  simp (disch := omega) [State.copyEnter, F.INST_COPY_CTRL_BUSY, F.INST_PRESS_OP_BUSY, F.INST_ENG_STATUS_PRESS_ACTIVE, F.INST_COPY_CTRL_at,
    F.INST_COPY_STATUS_at, F.INST_PRESS_OP_at, F.INST_ENG_STATUS_at, State.rd_wr_addr, State.rd_wr_self]

theorem State.copyEnter_sec (s : State) (i d : Nat) (o : CopyOp) : (s.copyEnter i d o).sec = s.sec := by
  rw [State.copyEnter, State.wr_sec, State.wr_sec, State.wr_sec, State.wr_sec]

section
variable {s : State} {i n d : Nat} (hn : n = s.rd (F.INST_COPY_CTRL_LEN_4K i)) (hd : d = s.rd (F.INST_INFO_HOST_PORT i) / 16)
  (hb : s.rd (F.INST_COPY_CTRL_BUSY i) = 0) (tenant : Bool)
include hn hd hb
theorem State.copyOp_refused (h : n = 0 ∨ 8192 < n ∨ s.rd (F.INST_PRESS_OP_BUSY d) = 1 ∨ s.instSt i ≠ 3) :
    s.copyOp i tenant = s.flag (F.INST_COPY_CTRL_REFUSED i) := by
  unfold State.copyOp
  rw [if_neg (State.not_rdb hb), ← hn, ← hd]
  exact if_pos (by simpa [State.rdb] using h)
theorem State.copyOp_starts (h0 : 0 < n) (hmax : n ≤ 8192) (he : s.rd (F.INST_PRESS_OP_BUSY d) = 0) (hst : s.instSt i = 3) {t : State}
    (ht : t = s.copyEnter i d (s.copyNew i n d tenant)) :
    s.copyOp i tenant = if s.sec.barrier.any (fun b => b.insts.contains i) then t else t.copyBegin i := by
  have hgo : ¬ (n = 0 ∨ n > 8192 ∨ s.rdb (F.INST_PRESS_OP_BUSY d) = true ∨ s.instSt i ≠ 3) := by
    simp [State.rdb, he, hst, Nat.ne_of_gt h0, hmax]
  rw [← State.copyEnter_sec s i d, ← ht]
  unfold State.copyOp
  rw [if_neg (State.not_rdb hb), ← hn, ← hd]
  dsimp only
  rw [if_neg hgo, ht]
  rfl
end

/-! ### The last part of a COPY (O49) -/

/-- The COPY of a record ends, and the engine of its die is free. -/
def State.copyEnd (s : State) (i d : Nat) : State :=
  ({ s with pool.copy := mdel s.pool.copy i }.wr (F.INST_COPY_CTRL_BUSY i) 0).wr (F.INST_PRESS_OP_BUSY d) 0
theorem State.copyEnd_busy (s : State) (i : Nat) {d : Nat} (_ : d < 8) : (s.copyEnd i d).rd (F.INST_COPY_CTRL_BUSY i) = 0 := by
  simp (disch := omega) [State.copyEnd, F.INST_COPY_CTRL_BUSY, F.INST_COPY_CTRL_at, F.INST_PRESS_OP_BUSY, F.INST_PRESS_OP_at,
    State.rd_wr_addr, State.rd_wr_self]
theorem State.copyEnd_status (s : State) (i : Nat) {d : Nat} (_ : d < 8) (p : Nat) :
    (s.copyEnd i d).rd (F.INST_COPY_STATUS_PART i p) = s.rd (F.INST_COPY_STATUS_PART i p) := by
  simp (disch := omega) only [State.copyEnd, F.INST_COPY_CTRL_BUSY, F.INST_COPY_CTRL_at, F.INST_PRESS_OP_BUSY, F.INST_PRESS_OP_at,
    F.INST_COPY_STATUS_PART, F.INST_COPY_STATUS_at, State.rd_wr_addr, State.rd_mk]
theorem execCopyPartComplete_last {i : Inst} {p : Fin 16} {o : CopyOp} {q : CopyPart} {s : State} (ho : mget s.pool.copy i.val = some o)
    (hp : o.parts = [q]) (hq : q.num = p.val) (he : q.ended = false) (hl : q.lines ≤ q.line) : exec (.copyPartComplete i p) s =
    .next (((s.wr (F.INST_COPY_STATUS_PART i p) q.result).wrBit (F.INST_ENG_STATUS_PRESS_ACTIVE o.die) p.val false).copyEnd i o.die) := by
  have hfind : o.parts.find? (fun q => q.num == p.val) = some q := by simp [hp, hq]
  refine congrArg Outcome.next ?_
  simp only [ho, hfind]
  rw [if_neg (by simp [he, hl]), if_pos (by simp [hp, hq])]
  rfl

/-! ### Brine (O49) -/

theorem State.capUpdate_pool (s : State) (i : Nat) : (s.capUpdate i).pool = s.pool :=
  (State.capUpdate_keeps (P := 133693439) rfl (Keeps.refl s) i).pool_eq
/-- An offer changes owners and open events only. -/
theorem State.offerExts_pool (s : State) (o : Nat) (es : List Nat) :
    ∃ own dc, (s.offerExts o es).pool = { s.pool with own := own, dcOpen := dc } := by
  unfold State.offerExts
  extract_lets w ms t
  split
  · exact ⟨s.pool.own, s.pool.dcOpen, rfl⟩
  · refine List.foldlRecOn (motive := fun u : State => ∃ own dc, u.pool = { s.pool with own := own, dcOpen := dc }) _ _
      ⟨t.pool.own, t.pool.dcOpen, rfl⟩ fun u hu i _ => ?_
    obtain ⟨own, dc, h⟩ := hu
    exact ⟨u.pool.own, mmod [] u.pool.dcOpen i (fun l => l ++ [(o, es)]), by
      rw [State.capUpdate_pool, State.emit_pool, h]⟩
theorem State.scrubDone_assigned {s : State} {e : Nat} {b : Scrub} (hb : mget s.pool.scrub e = some b) (hs : (s.extNow e).sides ≠ [])
    (hk : s.scrubKeyed (b.owner + (if b.group then 4096 else 0)) e = true) :
    mget (s.scrubDone e).pool.scrub e = none ∧ (s.scrubDone e).lifeOf e = 1 := by
  unfold State.scrubDone State.lifeOf
  simp -zeta only [hb]
  rw [if_neg (by simp [hs, hk])]
  extract_lets key u _ v
  obtain ⟨own, dc, h⟩ := (v.setLife e 1).offerExts_pool (b.owner + (if b.group then 4096 else 0)) [e]
  rw [State.capUpdate_pool, h]
  exact ⟨mget_mdel_self _ _, mgetD_mset_self 0 v.pool.life e 1⟩

/-! ### The commands together (O49) -/

/-- Settles O49: COPY_GO by its two outcomes, the last part by the lemma on its exec, and BRINE_COMPLETE by what an offer leaves of the pool. -/
theorem copyAndScrubComplete : Obligations.CopyAndScrubComplete := by
  refine ⟨fun i n d s hn hd hb src hsrc => ⟨fun h => ?refused, fun h0 hmax he hst => ?starts⟩, fun i p o q s ho hdie hp hq he hl => ?part,
    fun e b s hb hs hk => ⟨_, rfl, State.scrubDone_assigned hb hs hk⟩⟩
  case refused => rw [exec_copyGo hsrc, State.copyOp_refused hn hd hb _ h]
  case starts =>
    have hd8 : d < 8 := hd ▸ s.hostDie_lt i
    have hop := State.copyOp_starts hn hd hb (!src.isSome) h0 hmax he hst rfl
    refine ⟨_, s.copyNew i n d (!src.isSome), s.copyEnter_copyBusy i hd8 _, s.copyEnter_engineBusy i hd8 _, mget_mput_self _ _ _, rfl,
      Bool.not_not _, ?_, fun hnone => ?_, fun b hb hin => ?_⟩
    · simp [State.copyNew]
    · rw [exec_copyGo hsrc, hop, hnone]
      rfl
    · rw [exec_copyGo hsrc, hop, if_pos (by simp [hb, hin])]
  case part =>
    have hbit (u : State) : (u.wrBit (F.INST_ENG_STATUS_PRESS_ACTIVE o.die) p.val false).rd (F.INST_COPY_STATUS_PART i p)
        = u.rd (F.INST_COPY_STATUS_PART i p) := u.rd_wr_ne _ (by
      simp only [F.INST_ENG_STATUS_PRESS_ACTIVE, F.INST_ENG_STATUS_at, F.INST_COPY_STATUS_PART, F.INST_COPY_STATUS_at]; omega)
    refine ⟨_, execCopyPartComplete_last ho hp hq he hl, mget_mdel_self _ _, State.copyEnd_busy _ i hdie, ?_⟩
    rw [State.copyEnd_status _ i hdie, hbit, State.rd_wr_same]
    simp only [F.INST_COPY_STATUS_PART]
    omega

end Sys2Proof.Machine

/-! # Pooling: Press -/

namespace Sys2Proof.Machine
open Host (Outcome)

/-! ### An operation of Press begins and ends (O48) -/

theorem State.pressShow_pool (s : State) (d : Nat) (o : PressOp) : (s.pressShow d o).pool = s.pool :=
  (State.pressShow_keeps (P := 133693439) rfl (Keeps.refl s) d o).pool_eq
theorem State.pressShow_busy (s : State) (d : Nat) (o : PressOp) :
    (s.pressShow d o).rd (F.INST_PRESS_OP_BUSY d) = s.rd (F.INST_PRESS_OP_BUSY d) := by
  have h : s.regsBut [F.INST_PRESS_STATUS_at d, F.INST_ENG_STATUS_at d] (s.pressShow d o) :=
    .wr (.foldl (.refl _ s) fun _ hu _ _ => .wr hu (.head _)) (.tail _ (.head _))
  refine State.rd_of_reg (h _ ?_)
  simp [F.INST_PRESS_OP_BUSY, F.INST_PRESS_OP_at, F.INST_PRESS_STATUS_at, F.INST_ENG_STATUS_at]
theorem State.pressBegin_press (s : State) (d : Nat) (o : PressOp) (new : List PressPart) : mget (s.pressBegin d o new).pool.press d = some o := by
  rw [State.pressBegin, State.pressShow_pool, State.wr_pool]
  exact mget_mput_self _ _ _
theorem State.pressBegin_busy (s : State) (d : Nat) (o : PressOp) (new : List PressPart) :
    (s.pressBegin d o new).rd (F.INST_PRESS_OP_BUSY d) = 1 := by
  rw [State.pressBegin, State.pressShow_busy, State.rd_wr_same _ _ (by decide : 1 + 1 ≤ 64)]
  rfl
theorem State.pressBegin_mode (s : State) (d : Nat) (o : PressOp) (new : List PressPart) : (s.pressBegin d o new).mode = s.mode :=
  (State.pressBegin_keeps (P := 134217726) rfl (Keeps.refl s) d o new).mode_eq
theorem State.pressEnd_press (s : State) (d : Nat) : mget (s.pressEnd d).pool.press d = none := by
  rw [State.pressEnd, (State.startWalkers_keeps (P := 133693439) rfl (Keeps.refl _)).pool_eq, State.wr_pool, State.wr_pool]
  exact mget_mdel_self _ _
theorem State.pressEnd_busy (s : State) (d : Nat) : (s.pressEnd d).rd (F.INST_PRESS_OP_BUSY d) = 0 := by
  rw [State.pressEnd, State.rd_congr (State.startWalkers_regs _)]
  simp (disch := omega) [F.INST_PRESS_OP_BUSY, F.INST_PRESS_OP_at, F.INST_ENG_STATUS_PRESS_ACTIVE, F.INST_ENG_STATUS_at, State.rd_wr_addr,
    State.rd_wr_self]
theorem State.pressEnd_active (s : State) (d : Nat) : (s.pressEnd d).rd (F.INST_ENG_STATUS_PRESS_ACTIVE d) = 0 := by
  rw [State.pressEnd, State.rd_congr (State.startWalkers_regs _), State.rd_wr_same _ _ (by decide : 0 + 16 ≤ 64)]
  rfl

/-! ### MOVE (O48) -/

theorem exec_pressMoveGo_sp (d : Die) (s : State) : exec (.pressMoveGo .sp d) s = .next (s.moveOp d) := rfl
/-- The parts that a MOVE begins with carry the numbers of PART_EN. -/
theorem State.moveParts_fst (s : State) (d : Nat) (ns : List Nat) (l : List (Nat × PressPart)) :
    (ns.foldl (fun (l : List (Nat × PressPart)) p => l ++ [s.movePart d l p]) l).map (·.1) = l.map (·.1) ++ ns := by
  induction ns generalizing l with
  | nil => simp
  | cons p ns ih => rw [List.foldl_cons, ih]; simp [State.movePart]

section
variable {s : State} {d en : Nat} {ns : List Nat} (hen : en = s.rd (F.INST_PRESS_OP_PART_EN d))
  (hns : ns = (List.range 16).filter (fun p => en.testBit p))
include hen hns
theorem State.moveOp_refused (h : s.rd (F.INST_PRESS_OP_BUSY d) = 1 ∨ ns = [] ∨
    ∃ p ∈ ns, s.extBusy (s.rd (F.INST_PRESS_PART_EXT d p)) = true) : s.moveOp d = s.flag (F.INST_PRESS_OP_REFUSED d) := by
  subst hns hen
  refine if_pos ?_
  rcases h with h | h | ⟨p, hp, h⟩
  · exact .inl (by simp [State.rdb, h])
  · exact .inr (.inl (by simp [h]))
  · exact .inr (.inr (.inl (List.any_eq_true.2 ⟨_, List.mem_map_of_mem hp, h⟩)))
theorem State.moveOp_starts (hb : s.rd (F.INST_PRESS_OP_BUSY d) = 0) (h0 : ns ≠ [])
    (hx : ∀ p ∈ ns, s.extBusy (s.rd (F.INST_PRESS_PART_EXT d p)) = false) (hdup : (ns.map (fun p => s.rd (F.INST_PRESS_PART_EXT d p))).Nodup) :
    ∃ o new, s.moveOp d = (s.pressBegin d o new).pressCheck d ∧ o.resilver = false ∧ o.parts.map (·.1) = ns := by
  subst hns hen
  refine ⟨_, _, if_neg ?_, rfl, s.moveParts_fst d _ []⟩
  simpa [State.rdb, hb, h0, hdup.dedup] using hx
end

/-! ### Blocks, ABORT and the source's drain (O48) -/

/-- A part after a block of it is acknowledged (R253). -/
def PressPart.acked (q : PressPart) (poisoned failed : Bool) : PressPart :=
  let q := { q with block := q.block + 1, poisoned := q.poisoned || poisoned }
  if failed then { q with code := 6, ended := true }
  else if q.block ≥ extBlocks then { q with code := if q.poisoned then 2 else 1, ended := true } else q
theorem PressPart.acked_ext (q : PressPart) (poisoned failed : Bool) : (q.acked poisoned failed).ext = q.ext := by
  unfold PressPart.acked
  dsimp only
  split
  · rfl
  · split
    · rfl
    · rfl
theorem PressPart.acked_ok {q : PressPart} (h : q.block + 1 < extBlocks) (poisoned : Bool) :
    q.acked poisoned false = { q with block := q.block + 1, poisoned := q.poisoned || poisoned } := by
  unfold PressPart.acked
  exact (if_neg Bool.false_ne_true).trans (if_neg (not_le.2 h))
theorem execPressBlockAck_single {d : Die} {o : PressOp} {q : PressPart} {p : Fin 16} {s : State} (ho : mget s.pool.press d.val = some o)
    (hp : o.parts = [(p.val, q)]) (he : q.ended = false) (hn : s.partNoted q = false) (poisoned failed : Bool) :
    ∃ t : State, exec (.pressBlockAck d p poisoned failed) s = .next ((t.releaseHeld q.ext).pressCheck d) ∧
      mget t.pool.press d.val = some { o with parts := [(p.val, q.acked poisoned failed)] } := by
  have hfind : o.parts.find? (fun q => q.1 == p.val) = some (p.val, q) := by simp [hp]
  have hexec : exec (.pressBlockAck d p poisoned failed) s = execPressBlockAck d p poisoned failed s := rfl
  rw [hexec, ← q.acked_ext poisoned failed]
  unfold execPressBlockAck
  simp -zeta only [ho, hfind]
  rw [if_neg (by simp [he, hn])]
  extract_lets m u q1 q2 _ v
  refine ⟨v, rfl, (mget_mput_self _ _ _).trans ?_⟩
  simp [hp, q2, q1, PressPart.acked]

theorem execPressAbort_move {d : Die} {o : PressOp} {s : State} (ho : mget s.pool.press d.val = some o) (hr : o.resilver = false)
    (hm : o.remap = false) : exec (.pressAbort .sp d) s = .next (State.pressCheck { s with pool.press := mput s.pool.press d.val { o with
      parts := o.parts.map (fun (q : Nat × PressPart) => (q.1, if q.2.ended then q.2 else { q.2 with code := 5, ended := true })) } } d) := by
  have hexec : exec (.pressAbort .sp d) s = .next (s.abortMoveOf d []) := rfl
  rw [hexec, State.abortMoveOf]
  simp [ho, hr, hm]
theorem execPressAbort_none {d : Die} {o : PressOp} {s : State} (ho : mget s.pool.press d.val = some o) (h : o.resilver = true ∨ o.remap = true) :
    exec (.pressAbort .sp d) s = .next s := by
  have hexec : exec (.pressAbort .sp d) s = .next (s.abortMoveOf d []) := rfl
  rw [hexec, State.abortMoveOf]
  simp only [ho]
  rw [if_pos h]

theorem execPressSourceDrained_ends {d : Die} {o : PressOp} {s : State} (ho : mget s.pool.press d.val = some o) (hn : o.noted = true)
    (hacc : ∀ q ∈ o.parts, ∀ a ∈ s.pool.acc, a.2.write = true → a.2.p.ext = q.2.ext → a.2.cell.val ≠ q.2.src) :
    exec (.pressSourceDrained d) s = .next ((o.parts.foldl (fun (s : State) q => s.setDev q.2.src q.2.ext none) s).pressEnd d) := by
  refine congrArg Outcome.next ?_
  simp only [ho]
  refine if_neg ?_
  simpa [hn] using hacc

/-! ### RESILVER (O48) -/

theorem State.toRebuild_of_rebuild {s : State} (h : s.mode = .rebuild) : s.toRebuild = s := by
  unfold State.toRebuild
  rw [h]
/-- The two tests by which a RESILVER enters REBUILD are the transition of Table 1-9 from SERVICE, DEGRADED or DROWSE. -/
theorem State.toRebuild_eq (s : State) : (let u := if s.mode = .service ∨ s.mode = .degraded then s.goMode .rebuild 0x0B else s
    if u.mode = .drowse then (u.goMode .service 0x0B).goMode .rebuild 0x0B else u) = s.toRebuild := by
  have hmove (h : modeOk s.mode .rebuild = true) : (if (s.goMode .rebuild 0x0B).mode = .drowse then
      ((s.goMode .rebuild 0x0B).goMode .service 0x0B).goMode .rebuild 0x0B else s.goMode .rebuild 0x0B) = s.goMode .rebuild 0x0B :=
    if_neg (by rw [State.goMode_mode h]; decide)
  unfold State.toRebuild
  cases hm : s.mode
  case service => simpa using hmove (by rw [hm]; rfl)
  case degraded => simpa using hmove (by rw [hm]; rfl)
  all_goals simp [hm]

/-- A RESILVER of a SINGLE extent with a replacement side begins: where the mode changes, no fence epoch is open and no note waits, and SERVICE
and DROWSE have nothing fenced (R231, R252). -/
theorem execPressResilverStart_begins {e : Ext} {c : Cell} {x : Fin 4096} {d p : Nat} {q : PressPart} {s : State}
    (hst : (s.extNow e).st = .single) (hb : s.extBusy e = false) (hw : mget s.sec.walk e.val = none) (hd : d = dieOf (s.extNow e).mcell)
    (hp : s.silverPart d = some p) (hr : s.replaceOk e c x = true)
    (hq : q = { ext := e.val, src := (s.extNow e).mcell.val, mirrorSide := true, destCell := c.val, destExt := x.val })
    (hquiet : s.mode = .rebuild ∨ s.scrim.epochOpen = false ∧ s.scrim.notes = [])
    (hwhole : s.mode = .service ∨ s.mode = .drowse → s.scrim.fence = {}) :
    exec (.pressResilverStart e c x) s = .next (s.toRebuild.pressBegin d
      { resilver := true, parts := (((mget s.toRebuild.pool.press d).map (·.parts)).getD []).filter (fun y => y.1 != p) ++ [(p, q)] } [q]) := by
  have hexec : exec (.pressResilverStart e c x) s = execPressResilverStart e c x s := rfl
  rw [hexec, ← s.toRebuild_eq, hq]
  subst hd
  unfold execPressResilverStart
  simp only [hp]
  rw [if_neg]
  rcases hquiet with h | ⟨ho, hn⟩
  · simp [hst, hb, hw, hr, h]
  · simpa [hst, hb, hw, hr, ho, hn] using hwhole

/-! ### The commands together (O48) -/

/-- Settles O48: MOVE by its two outcomes, ABORT, blocks and drains by the lemma on their exec, and the three starts of a RESILVER by one lemma. -/
theorem pressCommandsComplete : Obligations.PressCommandsComplete := by
  refine ⟨fun d en ns s hen hns => ⟨fun h => ?refused, fun hb h0 hx hdup => ?starts⟩, fun d o s ho => ⟨execPressAbort_move ho,
    execPressAbort_none ho, fun q p po hp he hn => ⟨fun hlast => ?block, ?failed⟩, fun hn hacc => ?drained⟩,
    fun e c x d p q s hst hb hw hd hp hr hq => ?silver⟩
  case refused => rw [exec_pressMoveGo_sp, State.moveOp_refused hen hns h]
  case starts =>
    obtain ⟨o, new, hop, hmove, hparts⟩ := State.moveOp_starts hen hns hb h0 hx hdup
    exact ⟨_, o, (exec_pressMoveGo_sp d s).trans (congrArg _ hop), s.pressBegin_press d o new, hmove, hparts, s.pressBegin_busy d o new⟩
  case block =>
    obtain ⟨t, hexec, hpress⟩ := execPressBlockAck_single ho hp he hn po false
    exact ⟨t, hexec, by rw [hpress, PressPart.acked_ok hlast]⟩
  case failed => exact execPressBlockAck_single ho hp he hn po true
  case drained =>
    exact ⟨_, execPressSourceDrained_ends ho hn hacc, State.pressEnd_press _ _, State.pressEnd_busy _ _, State.pressEnd_active _ _⟩
  case silver =>
    have hbegin := execPressResilverStart_begins hst hb hw hd hp hr hq
    refine ⟨fun hm => ?_, fun ho hn hm => ?_, fun hm ho hn hf => ?_⟩
    · rw [hbegin (.inl hm) (by simp [hm]), State.toRebuild_of_rebuild hm]
    · have hmode := State.toRebuild_mode_cause (s := s) (hm.imp And.left .inl)
      refine ⟨s.toRebuild, hbegin (.inr ⟨ho, hn⟩) fun h => ?_, hmode⟩
      rcases hm with ⟨-, hf⟩ | hm
      · exact hf
      · simp [hm] at h
    · refine ⟨_, hbegin (.inr ⟨ho, hn⟩) fun _ => hf, ?_⟩
      rw [State.pressBegin_mode]
      exact (State.toRebuild_mode_cause (.inr (.inr hm))).1

end Sys2Proof.Machine

/-! # Instances: migration, save and restore -/

namespace Sys2Proof.Machine
open Host (Outcome)

/-! ### The end of a migration (O12, O47) -/

section
variable (s : State) (i step result : Nat)
theorem State.migEnd_instSt : (s.migEnd i step result).instSt i = s.instSt i := by
  rw [State.instSt, State.migEnd, State.rd_mk]
  simp (disch := omega) only [State.instSt, F.INST_INFO_STATE, F.INST_INFO_MIGRATING, F.INST_INFO_at, F.INST_MIG_BUSY, F.INST_MIG_at,
    F.INST_MIG_STATUS_STEP, F.INST_MIG_STATUS_RESULT, F.INST_MIG_STATUS_at, State.rd_wr_addr, State.rd_wr_bits]
theorem State.migEnd_step : (s.migEnd i step result).rd (F.INST_MIG_STATUS_STEP i) = step % 16 := by
  rw [State.migEnd, State.rd_mk]
  simp (disch := omega) [F.INST_INFO_MIGRATING, F.INST_INFO_at, F.INST_MIG_BUSY, F.INST_MIG_at, F.INST_MIG_STATUS_STEP,
    F.INST_MIG_STATUS_RESULT, F.INST_MIG_STATUS_at, State.rd_wr_addr, State.rd_wr_bits, State.rd_wr_self]
theorem State.migEnd_result : (s.migEnd i step result).rd (F.INST_MIG_STATUS_RESULT i) = result % 16 := by
  rw [State.migEnd, State.rd_mk]
  simp (disch := omega) [F.INST_INFO_MIGRATING, F.INST_INFO_at, F.INST_MIG_BUSY, F.INST_MIG_at, F.INST_MIG_STATUS_RESULT,
    F.INST_MIG_STATUS_at, State.rd_wr_addr, State.rd_wr_self]
theorem State.migEnd_busy : (s.migEnd i step result).rd (F.INST_MIG_BUSY i) = 0 := by
  rw [State.migEnd, State.rd_mk]
  simp (disch := omega) [F.INST_INFO_MIGRATING, F.INST_INFO_at, F.INST_MIG_BUSY, F.INST_MIG_at, State.rd_wr_addr, State.rd_wr_self]
theorem State.migEnd_migs : mget (s.migEnd i step result).pool.migs i = none := mget_mdel_self _ _
end

/-! ### PREPARE (O12) -/

/-- A record whose target vPPB has been taken (R245). -/
def State.prepared (s : State) (i tp tv : Nat) (m : Mig) : State :=
  let s := { s with pool.migs := mput s.pool.migs i m }
  let s := ((s.wr (F.INST_VPPB_KIND tp tv) 1).wr (F.INST_VPPB_STATE tp tv) 1).wr (F.INST_VPPB_TARGET tp tv) i
  let s := (s.wr (F.INST_PORT_STATUS_BOUND tp) (s.boundVppbs tp).length).emit (.hotAdd (Cell.of tp) tv)
  (((s.wr (F.INST_INFO_STATE i) 4).wr (F.INST_MIG_STATUS_STEP i) 1).wr (F.INST_MIG_STATUS_RESULT i) 0).wr (F.INST_MIG_STATUS_STRAY i) 0
section
variable (s : State) (i tp tv : Nat) (m : Mig)
theorem State.prepared_instSt : (s.prepared i tp tv m).instSt i = 4 := by
  rw [State.instSt, State.prepared]
  simp (disch := omega) [F.INST_INFO_STATE, F.INST_INFO_at, F.INST_MIG_STATUS_STEP, F.INST_MIG_STATUS_RESULT, F.INST_MIG_STATUS_STRAY,
    F.INST_MIG_STATUS_at, State.rd_wr_addr, State.rd_wr_self]
theorem State.prepared_step : (s.prepared i tp tv m).rd (F.INST_MIG_STATUS_STEP i) = 1 := by
  rw [State.prepared]
  simp (disch := omega) [F.INST_MIG_STATUS_STEP, F.INST_MIG_STATUS_RESULT, F.INST_MIG_STATUS_STRAY, State.rd_wr_bits, State.rd_wr_self]
theorem State.prepared_target (_ : tp < 128) (_ : tv < 64) : (s.prepared i tp tv m).rd (F.INST_VPPB_TARGET tp tv) = i % 4096 := by
  rw [State.prepared]
  simp -implicitDefEqProofs (disch := omega) [F.INST_INFO_STATE, F.INST_INFO_at, F.INST_MIG_STATUS_STEP, F.INST_MIG_STATUS_RESULT,
    F.INST_MIG_STATUS_STRAY, F.INST_MIG_STATUS_at, F.INST_PORT_STATUS_BOUND, F.INST_PORT_STATUS_at, F.INST_VPPB_TARGET, F.INST_VPPB_at,
    State.rd_wr_addr, State.rd_wr_self]
theorem State.prepared_migs : mget (s.prepared i tp tv m).pool.migs i = some m := by
  rw [State.prepared, State.wr_pool, State.wr_pool, State.wr_pool, State.wr_pool, State.emit_pool, State.wr_pool, State.wr_pool, State.wr_pool,
    State.wr_pool]
  exact mget_mput_self _ _ _
end
theorem exec_migPrepare_sp (i : Inst) (s : State) : exec (.migPrepare .sp i) s = .next (s.prepareOp i) := rfl
section
variable {s : State} {i : Nat} (hb : s.rd (F.INST_MIG_BUSY i) = 0)
include hb
theorem State.prepareOp_refused (h : s.instSt i ≠ 3) : s.prepareOp i = s.flag (F.INST_MIG_REFUSED i) := by
  unfold State.prepareOp
  rw [if_neg (State.not_rdb hb)]
  exact if_pos (.inl h)
theorem State.prepareOp_prepares {tp tv : Nat} (htp : tp = s.rd (F.INST_MIG_T_PORT i)) (htv : tv = s.rd (F.INST_MIG_T_VPPB i))
    (h3 : s.instSt i = 3) (hmode : s.rd (F.INST_MIG_MODE i) = 0) (hmig : (s.tmpl i).mig = true)
    (hm : mget s.pool.migs i = none) (hhere : s.rd (F.INST_MIG_T_MODULE i) = s.chainAddr)
    (hdom : s.sameDomain (s.rd (F.INST_INFO_HOST_PORT i)) tp = true) (hrole : s.roleOf (Cell.of tp) = .host)
    (hanc : (s.anchorOf (Cell.of tp)).val = tp) (hkind : s.rd (F.INST_VPPB_KIND tp tv) = 0) (hroom : (s.boundVppbs tp).length < 64) :
    s.prepareOp i = s.prepared i tp tv
      { srcPort := s.rd (F.INST_INFO_HOST_PORT i), srcVppb := s.rd (F.INST_INFO_VPPB i), tPort := tp, tVppb := tv,
        remote := s.rd (F.INST_MIG_MODE i) = 1, tModule := s.rd (F.INST_MIG_T_MODULE i) } := by
  unfold State.prepareOp
  rw [if_neg (State.not_rdb hb), ← htp, ← htv]
  dsimp only
  have hok : ¬ (s.roleOf (Cell.of tp) ≠ .host ∨ (s.anchorOf (Cell.of tp)).val ≠ tp ∨ s.rd (F.INST_VPPB_KIND tp tv) ≠ 0
      ∨ (s.boundVppbs tp).length ≥ 64) :=
    fun h => h.elim (· hrole) (·.elim (· hanc) (·.elim (· hkind) (Nat.not_le.2 hroom)))
  rw [if_neg (by simp only [h3, hmode, hmig, hm, hhere, hdom, hok]; simp), if_neg (by simp [hhere]), if_pos hhere]
  rfl
end

/-! ### The freeze (O12) -/

section
variable (s : State) (i : Nat) (m : Mig)
theorem State.freeze_instSt : (s.freeze i m).instSt i = 5 := by
  rw [State.instSt, State.freeze]
  simp (disch := omega) [F.INST_INFO_STATE, F.INST_INFO_MIGRATING, F.INST_INFO_at, F.INST_MIG_STATUS_STEP, F.INST_MIG_STATUS_RESULT,
    F.INST_MIG_STATUS_at, F.INST_MIG_BUSY, F.INST_MIG_at, State.rd_wr_addr, State.rd_wr_bits, State.rd_wr_self]
theorem State.freeze_step : (s.freeze i m).rd (F.INST_MIG_STATUS_STEP i) = 2 := by
  rw [State.freeze]
  simp (disch := omega) [F.INST_INFO_MIGRATING, F.INST_INFO_at, F.INST_MIG_STATUS_STEP, F.INST_MIG_STATUS_RESULT,
    F.INST_MIG_STATUS_at, F.INST_MIG_BUSY, F.INST_MIG_at, State.rd_wr_addr, State.rd_wr_bits, State.rd_wr_self]
theorem State.freeze_busy : (s.freeze i m).rd (F.INST_MIG_BUSY i) = 1 := by
  rw [State.freeze]
  simp (disch := omega) [F.INST_INFO_MIGRATING, F.INST_INFO_at, F.INST_MIG_BUSY, F.INST_MIG_at, State.rd_wr_addr, State.rd_wr_self]
theorem State.freeze_migrating : (s.freeze i m).rd (F.INST_INFO_MIGRATING i) = 1 := by
  rw [State.freeze]
  simp (disch := omega) [F.INST_INFO_MIGRATING, State.rd_wr_self]
variable {s} in
theorem State.freeze_migs (h : ∀ d, mget s.pool.press d = none) : mget (s.freeze i m).pool.migs i =
    some { m with frozen := true, freezeAt := s.cyc, limit := max 100 (s.rd (F.INST_PORT_CFG_FREEZE_LIMIT m.srcPort)) } := by
  rw [State.freeze, State.wr_pool, State.wr_pool, State.wr_pool, State.wr_pool, State.wr_pool,
    State.abortMoves_of_noPress (fun d o hd => by simp [h d] at hd)]
  exact mget_mput_self _ _ _
end
theorem exec_migMigrate_sp (i : Inst) (s : State) : exec (.migMigrate .sp i) s = .next (s.migrateOp i) := rfl
theorem exec_migSave_sp (i : Inst) (s : State) : exec (.migSave .sp i) s = .next (s.saveOp i) := rfl
theorem exec_migAbort_sp (i : Inst) (s : State) : exec (.migAbort .sp i) s = .next (s.abortOp i) := rfl
/-- What SAVE notes of a record before it freezes it: it migrates to nowhere (R249). -/
def State.saveMig (s : State) (i : Nat) : Mig where
  srcPort := s.rd (F.INST_INFO_HOST_PORT i)
  srcVppb := s.rd (F.INST_INFO_VPPB i)
  tPort := 0
  tVppb := 0
  save := true
  remote := true
  tModule := s.chainAddr
section
variable {s : State} {i : Nat} (hb : s.rd (F.INST_MIG_BUSY i) = 0)
include hb
theorem State.migrateOp_freezes {m : Mig} (hm : mget s.pool.migs i = some m) (h4 : s.instSt i = 4) : s.migrateOp i = s.freeze i m := by
  unfold State.migrateOp
  rw [if_neg (State.not_rdb hb), hm]
  exact if_pos h4
theorem State.migrateOp_refused (h : s.instSt i ≠ 4) : s.migrateOp i = s.flag (F.INST_MIG_REFUSED i) := by
  unfold State.migrateOp
  rw [if_neg (State.not_rdb hb)]
  split
  · exact if_neg h
  · rfl
theorem State.saveOp_freezes (h3 : s.instSt i = 3) : s.saveOp i = (s.wr (F.INST_MIG_STATUS_STRAY i) 0).freeze i (s.saveMig i) := by
  unfold State.saveOp
  rw [if_neg (State.not_rdb hb), if_neg (not_not_intro h3)]
  rfl
theorem State.saveOp_refused (h : s.instSt i ≠ 3) : s.saveOp i = s.flag (F.INST_MIG_REFUSED i) := by
  unfold State.saveOp
  rw [if_neg (State.not_rdb hb)]
  exact if_pos h
theorem State.abortOp_refused (hm : mget s.pool.migs i = none) : s.abortOp i = s.flag (F.INST_MIG_REFUSED i) := by
  unfold State.abortOp
  rw [hm]
  exact if_neg (State.not_rdb hb)
end

/-! ### ABORT and FREEZE_LIMIT (O12) -/

/-- What a migration has sent of a blob is neither a register nor a part of the pool. -/
theorem State.regs_pool_of_tx {s t : State} {tx : NMap (Nat × Nat × Nat × List Line)} (e : s = { t with onl.tx := tx }) :
    s.regs = t.regs ∧ s.pool = t.pool := by
  subst e
  exact ⟨rfl, rfl⟩
/-- An operation that does not complete ends as a migration does, in the state it came from. -/
theorem State.migBack_eq {s : State} {i : Nat} {m : Mig} (h : mget s.pool.migs i = some m) (result : Nat) : ∃ u : State, ∃ tx,
    s.migBack i result = { (u.wr (F.INST_INFO_STATE i) m.back).migEnd i 0 result with onl.tx := tx } := by
  unfold State.migBack
  rw [h]
  exact ⟨_, _, rfl⟩
theorem State.migBack_ends {s : State} {i : Nat} {m : Mig} (h : mget s.pool.migs i = some m) (hback : m.back < 16) (result : Nat) :
    (s.migBack i result).instSt i = m.back ∧ (s.migBack i result).rd (F.INST_MIG_STATUS_RESULT i) = result % 16 ∧
      (s.migBack i result).rd (F.INST_MIG_BUSY i) = 0 ∧ mget (s.migBack i result).pool.migs i = none := by
  obtain ⟨u, tx, e⟩ := State.migBack_eq h result
  obtain ⟨hregs, hpool⟩ := State.regs_pool_of_tx e
  have hrd := State.rd_congr hregs
  refine ⟨?_, (hrd _).trans (State.migEnd_result ..), (hrd _).trans (State.migEnd_busy ..), hpool ▸ State.migEnd_migs ..⟩
  calc (s.migBack i result).instSt i
    _ = ((u.wr (F.INST_INFO_STATE i) m.back).migEnd i 0 result).instSt i := hrd _
    _ = (u.wr (F.INST_INFO_STATE i) m.back).instSt i := State.migEnd_instSt ..
    _ = m.back % 2 ^ 4 := State.rd_wr_self _ _ (by decide)
    _ = m.back := Nat.mod_eq_of_lt hback
theorem State.abortOp_ends {s : State} {i : Nat} {m : Mig} (h : mget s.pool.migs i = some m) (ht : m.thawed = false) :
    s.abortOp i = (s.migBack i 2).nextCommit := by
  unfold State.abortOp
  rw [h]
  exact if_neg (by simp [ht])
theorem exec_freezeLimitExpiry_ends {i : Inst} {m : Mig} {s : State} (h : mget s.pool.migs i.val = some m) (h5 : s.instSt i = 5)
    (hl : m.freezeAt + m.limit * 3000 ≤ s.cyc) : exec (.freezeLimitExpiry i) s = .next (s.migBack i 3).nextCommit := by
  refine congrArg Outcome.next ?_
  simp only [h]
  exact if_pos ⟨h5, hl⟩

/-! ### The commands together (O12) -/

/-- Settles O12: each command by its one outcome under the clause's conditions, and the fields by what that outcome reads. -/
theorem migrationStartsComplete : Obligations.MigrationStartsComplete := by
  refine ⟨fun i tp tv s htp htv hb h3 hmode hmig hm hhere hdom hrole hanc hkind hroom => ?prepare, fun i m s hm hb h4 => ?migrate,
    fun i s hb h3 => ?save, fun i m s hm hback => ⟨fun ht => ?abort, fun h5 hl => ?limit⟩,
    fun i s hb => ⟨fun h => ⟨?_, ?_⟩, fun h => ?_, fun h => ?_⟩⟩
  case prepare =>
    have hp : tp < 128 := htp ▸ s.rd_lt _
    have hv : tv < 64 := htv ▸ s.rd_lt _
    refine ⟨_, congrArg Outcome.next (State.prepareOp_prepares hb htp htv h3 hmode hmig hm hhere hdom hrole hanc hkind hroom),
      State.prepared_instSt .., State.prepared_step .., ?_, _, State.prepared_migs .., rfl, rfl, rfl, rfl⟩
    exact (State.prepared_target _ _ _ _ _ hp hv).trans (Nat.mod_eq_of_lt i.isLt)
  case migrate =>
    exact ⟨_, congrArg Outcome.next (State.migrateOp_freezes hb hm h4), State.freeze_instSt .., State.freeze_step .., State.freeze_busy ..,
      State.freeze_migrating .., State.freeze_migs _ _⟩
  case save =>
    have hnote : s.saveOp i = (s.wr (F.INST_MIG_STATUS_STRAY i) 0).freeze i (s.saveMig i) := State.saveOp_freezes hb h3
    refine ⟨_, congrArg Outcome.next hnote, State.freeze_instSt .., State.freeze_step .., State.freeze_busy .., fun hp => ?_⟩
    refine ⟨_, State.freeze_migs i _ ?_, rfl, rfl, rfl, ?_⟩
    · rwa [State.wr_pool]
    · rw [State.wr_cyc]
  case abort =>
    obtain ⟨hst, hres, hbusy, hnone⟩ := State.migBack_ends hm hback 2
    exact ⟨s.migBack i 2, congrArg Outcome.next (State.abortOp_ends hm ht), hst, hres, hbusy, hnone⟩
  case limit =>
    obtain ⟨hst, hres, hbusy, hnone⟩ := State.migBack_ends hm hback 3
    exact ⟨s.migBack i 3, exec_freezeLimitExpiry_ends hm h5 hl, hst, hres, hbusy, hnone⟩
  · rw [exec_migPrepare_sp, State.prepareOp_refused hb h]
  · rw [exec_migSave_sp, State.saveOp_refused hb h]
  · rw [exec_migMigrate_sp, State.migrateOp_refused hb h]
  · rw [exec_migAbort_sp, State.abortOp_refused hb h]

/-! ### What a write of one register leaves (O47) -/

section
variable {s t : State}
theorem State.capExts_congr {i : Nat} (hpool : t.pool = s.pool) (hgrouped : t.rd (F.INST_INFO_GROUPED i) = s.rd (F.INST_INFO_GROUPED i))
    (hgroup : t.rd (F.INST_INFO_GROUP i) = s.rd (F.INST_INFO_GROUP i)) : t.capExts i = s.capExts i := by
  unfold State.capExts State.ownerKey State.owner State.rdb
  rw [hpool, hgrouped, hgroup]
theorem State.installSets_congr (hpool : t.pool = s.pool) (hsec : t.sec = s.sec) (c i : Nat) : t.installSets c i = s.installSets c i := by
  unfold State.installSets State.placeSets State.owner State.regions
  rw [hpool, hsec]
theorem State.regionCells_congr {a : Nat} (h : ∀ v < 64, t.reg (F.INST_VPPB_at a v) = s.reg (F.INST_VPPB_at a v)) :
    t.regionCells a = s.regionCells a := by
  have hkind (v : Nat) (hv : v < 64) : t.rd (F.INST_VPPB_KIND a v) = s.rd (F.INST_VPPB_KIND a v) := State.rd_of_reg (h v hv)
  have htarget (v : Nat) (hv : v < 64) : t.rd (F.INST_VPPB_TARGET a v) = s.rd (F.INST_VPPB_TARGET a v) := State.rd_of_reg (h v hv)
  unfold State.regionCells
  rw [List.filter_congr fun v hv => by rw [hkind v (List.mem_range.1 hv)]]
  congr 1
  exact List.map_congr_left fun v hv => by rw [htarget v (List.mem_range.1 (List.mem_filter.1 hv).1)]
end
/-- The entries that bind a record at a port do not depend on where its migration stands. -/
theorem State.bindSets_migStep (s : State) (a i n : Nat) :
    ((s.wr (F.INST_MIG_STATUS_STEP i) n).regionCells a).flatMap (fun c => (s.wr (F.INST_MIG_STATUS_STEP i) n).installSets c i) =
      (s.regionCells a).flatMap (fun c => s.installSets c i) := by
  have hcells : (s.wr (F.INST_MIG_STATUS_STEP i) n).regionCells a = s.regionCells a := State.regionCells_congr fun v hv =>
    s.reg_wr_ne n (by simp only [F.INST_MIG_STATUS_STEP, F.INST_MIG_STATUS_at, F.INST_VPPB_at]; omega)
  have hsets := State.installSets_congr (s.wr_pool (F.INST_MIG_STATUS_STEP i) n) (s.wr_sec (F.INST_MIG_STATUS_STEP i) n)
  simp only [hcells, hsets]

/-! ### The drain of the freeze (O47) -/

/-- A record frozen with nothing open, at a step of its migration. -/
def State.frozenAt (s : State) (i step : Nat) : State := (s.wr (F.INST_INFO_STATE i) 6).wr (F.INST_MIG_STATUS_STEP i) step
section
variable (s : State) (i step : Nat)
theorem State.frozenAt_instSt : (s.frozenAt i step).instSt i = 6 := by
  rw [State.instSt, State.frozenAt]
  simp (disch := omega) [F.INST_INFO_STATE, F.INST_INFO_at, F.INST_MIG_STATUS_STEP, F.INST_MIG_STATUS_at, State.rd_wr_addr, State.rd_wr_self]
theorem State.frozenAt_step : (s.frozenAt i step).rd (F.INST_MIG_STATUS_STEP i) = step % 16 := State.rd_wr_self _ _ (by decide)
theorem State.capExts_state (n : Nat) : (s.wr (F.INST_INFO_STATE i) n).capExts i = s.capExts i :=
  State.capExts_congr (s.wr_pool _ _) (State.rd_wr_bits _ _ (by decide) (by decide)) (State.rd_wr_bits _ _ (by decide) (by decide))
end
theorem exec_migFreezeDrained {i : Inst} {m : Mig} {s : State} (hm : mget s.pool.migs i.val = some m) (h5 : s.instSt i = 5)
    (hidle : s.freezeBusy i m = false) : exec (.migFreezeDrained i) s =
      .next (if m.remote then (s.frozenAt i 3).startSweep (.migRecall i) i (s.capExts i) none else s.frozenAt i 4) := by
  refine congrArg Outcome.next ?_
  simp only [hm]
  rw [if_neg (by simp [h5, hidle]), s.capExts_state i 6]
  rfl

/-! ### The blob (O47) -/

/-- The blob that SAVE makes of a record (Table 8-8). -/
def State.blobOf (s : State) (i : Nat) (remote : Bool) : Blob where
  seq := s.pool.blobSeq + 1
  inst := i
  srcModule := s.chainAddr
  remote := remote
  own := s.owner i
  shares := (s.reg (F.INST_SHARE0_at i), s.reg (F.INST_SHARE1_at i))
  info := s.reg (F.INST_INFO_at i)
section
variable (s : State) (i to_ : Nat) (remote : Bool)
theorem State.makeBlob_blobs : mget (s.makeBlob i remote to_).pool.blobs i = some (s.blobOf i remote) := mget_mput_self _ _ _
theorem State.makeBlob_blobSeq : (s.makeBlob i remote to_).pool.blobSeq = s.pool.blobSeq + 1 := rfl
theorem State.makeBlob_regs : (s.makeBlob i remote to_).regs = s.regs := rfl
theorem State.makeBlob_chainAddr : (s.makeBlob i remote to_).chainAddr = s.chainAddr := rfl
theorem State.makeBlob_sealKey (m seq : Nat) : (s.makeBlob i remote to_).sealKey m seq = s.sealKey m seq := rfl
theorem State.sealKey_migStep (m seq n : Nat) : (s.wr (F.INST_MIG_STATUS_STEP i) n).sealKey m seq = s.sealKey m seq := by
  have haddr : (s.wr (F.INST_MIG_STATUS_STEP i) n).chainAddr = s.chainAddr :=
    s.rd_wr_ne n (by simp only [F.INST_MIG_STATUS_STEP, F.INST_MIG_STATUS_at, F.ONL_CHAIN_ADDR, F.ONL_CHAIN_at]; omega)
  unfold State.sealKey State.localBlobKey State.chainKey
  rw [haddr, State.wr_sec, State.wr_img, State.wr_onl]
end
/-- A record leaves the vPPB of its source (R246, R249). -/
def State.leaveSource (s : State) (m : Mig) : State := (s.emit (.removal (Cell.of m.srcPort) m.srcVppb 1)).freeVppb m.srcPort m.srcVppb
/-- A migration whose blob has no key ends with RESULT 4 (R289). -/
def State.migNoKey (s : State) (i : Nat) : State := (s.wr (F.INST_MIG_STATUS_RESULT i) 4).wr (F.INST_MIG_BUSY i) 0
section
variable (s : State) (i : Nat)
theorem State.migNoKey_result : (s.migNoKey i).rd (F.INST_MIG_STATUS_RESULT i) = 4 := by
  rw [State.migNoKey]
  simp (disch := omega) [F.INST_MIG_BUSY, F.INST_MIG_at, F.INST_MIG_STATUS_RESULT, F.INST_MIG_STATUS_at, State.rd_wr_addr, State.rd_wr_self]
theorem State.migNoKey_busy : (s.migNoKey i).rd (F.INST_MIG_BUSY i) = 0 := by
  rw [State.migNoKey]
  simp (disch := omega) [F.INST_MIG_BUSY, State.rd_wr_self]
end
/-- SAVE_COMPLETE at step 4: the blob is made, and each kind of operation goes on (Table 8-7). -/
theorem exec_migSaveComplete {i : Inst} {m : Mig} {s u : State} (hm : mget s.pool.migs i.val = some m) (h6 : s.instSt i = 6)
    (h4 : s.rd (F.INST_MIG_STATUS_STEP i) = 4) (hu : u = s.makeBlob i m.remote m.tModule) : exec (.migSaveComplete i) s = .next (
      if m.save then (((u.leaveSource m).wr (F.INST_INFO_STATE i) 7).migEnd i 9 1).regionCommit (.srcGone i) [i.val] (u.removeSets m.srcPort i)
      else if m.tModule = u.chainAddr then
        (u.wr (F.INST_MIG_STATUS_STEP i) 6).regionCommit (.restore i) [i.val] ((u.regionCells m.tPort).flatMap (fun c => u.installSets c i))
      else if ((u.wr (F.INST_MIG_STATUS_STEP i) 5).sealKey m.tModule (u.wr (F.INST_MIG_STATUS_STEP i) 5).pool.blobSeq).isNone then
        (u.wr (F.INST_MIG_STATUS_STEP i) 5).migNoKey i
      else (u.wr (F.INST_MIG_STATUS_STEP i) 5).sendBlob i (u.wr (F.INST_MIG_STATUS_STEP i) 5).pool.blobSeq m.tModule) := by
  subst hu
  refine congrArg Outcome.next ?_
  simp only [hm]
  exact if_neg (by simp [h6, h4])

/-! ### The thaw at the target (O47) -/

/-- A record bound at its target, and the downtime shown (R246). -/
def State.thawAt (s : State) (i : Nat) (m : Mig) : State :=
  let s := ((s.wr (F.INST_INFO_STATE i) 3).wr (F.INST_INFO_HOST_PORT i) m.tPort).wr (F.INST_INFO_VPPB i) m.tVppb
  let s := (s.wr (F.INST_VPPB_STATE m.tPort m.tVppb) 2).tenantEvent i 1
  let s := s.wr (F.INST_MIG_STATUS_DOWNTIME_US i) (min 0xFFFF ((s.cyc - m.freezeAt) / 3000))
  s.wr (F.INST_MIG_STATUS_STEP i) 7
section
variable (s : State) (i : Nat) {m : Mig}
theorem State.thawAt_step : (s.thawAt i m).rd (F.INST_MIG_STATUS_STEP i) = 7 := State.rd_wr_self _ _ (by decide)
theorem State.thawAt_bound (_ : m.tPort < 128) (_ : m.tVppb < 64) : (s.thawAt i m).instSt i = 3 ∧
    (s.thawAt i m).rd (F.INST_INFO_HOST_PORT i) = m.tPort % 128 ∧ (s.thawAt i m).rd (F.INST_INFO_VPPB i) = m.tVppb % 64 ∧
    (s.thawAt i m).rd (F.INST_VPPB_STATE m.tPort m.tVppb) = 2 := by
  rw [State.instSt, State.thawAt]
  simp -implicitDefEqProofs (disch := omega) [State.tenantEvent, F.INST_INFO_STATE, F.INST_INFO_HOST_PORT, F.INST_INFO_VPPB, F.INST_INFO_at,
    F.INST_VPPB_STATE, F.INST_VPPB_at, F.INST_EVENT_CODE, F.INST_EVENT_TIME, F.INST_EVENT_at, F.INST_MIG_STATUS_DOWNTIME_US,
    F.INST_MIG_STATUS_STEP, F.INST_MIG_STATUS_at, State.rd_wr_addr, State.rd_wr_bits, State.rd_wr_self]
theorem State.thawAt_pool : (s.thawAt i m).pool = s.pool := by
  rw [State.thawAt, State.wr_pool, State.wr_pool, State.tenantEvent, State.wr_pool, State.wr_pool, State.wr_pool, State.wr_pool, State.wr_pool,
    State.wr_pool]
end
/-- The source of a LOCAL migration drains (Table 8-7, step 8). -/
def State.drainSource (s : State) (i : Nat) (m : Mig) : State :=
  ((s.wr (F.INST_MIG_STATUS_STEP i) 8).startSweep (.migDrain i) i (s.capExts i) (some (s.hslotOf (Cell.of m.srcPort)))).nextCommit
theorem exec_migRestoreComplete {i : Inst} {m : Mig} {s u : State} (hm : mget s.pool.migs i.val = some m) (hr : m.ready = true)
    (hu : u = s.thawAt i m) : exec (.migRestoreComplete i) s = .next (
      if 128 ≤ m.srcPort then u.migEnd i 9 1
      else if m.remote then ((u.leaveSource m).migEnd i 9 1).regionCommit (.srcGone i) [i.val] (u.removeSets m.srcPort i)
      else { u with pool.migs := mput u.pool.migs i.val { m with thawed := true, ready := false } }.drainSource i m) := by
  subst hu
  refine congrArg Outcome.next ?_
  simp only [hm]
  exact if_neg (by simp [hr])

/-! ### RESTORE of a blob (O47) -/

/-- What RESTORE notes of a record: the target, and the state it came from (R249). -/
def State.restoreMig (s : State) (i tp tv : Nat) (b : Blob) : Mig where
  srcPort := 128
  srcVppb := 0
  tPort := tp
  tVppb := tv
  freezeAt := s.cyc
  frozen := true
  save := true
  remote := b.remote
  tModule := s.chainAddr
  back := s.instSt i
/-- The record of a blob at its target's vPPB, before the module commit of its regions (R249). -/
def State.unsealed (s : State) (i tp tv : Nat) (b : Blob) : State :=
  let s := { s with
    pool.restored := (b.srcModule, b.seq) :: s.pool.restored
    pool.migs := mput s.pool.migs i (s.restoreMig i tp tv b) }
  let s := (s.setReg (F.INST_SHARE0_at i) b.shares.1).setReg (F.INST_SHARE1_at i) b.shares.2
  let s := s.setOwner i b.own
  let s := (s.wr (F.INST_INFO_TEMPLATE i) (getBits b.info 32 8)).wr (F.INST_INFO_STATE i) 4
  let s := ((s.wr (F.INST_VPPB_KIND tp tv) 1).wr (F.INST_VPPB_STATE tp tv) 1).wr (F.INST_VPPB_TARGET tp tv) i
  let s := (s.wr (F.INST_PORT_STATUS_BOUND tp) (s.boundVppbs tp).length).emit (.hotAdd (Cell.of tp) tv)
  ((s.wr (F.INST_MIG_STATUS_STEP i) 6).wr (F.INST_MIG_STATUS_RESULT i) 0).wr (F.INST_MIG_BUSY i) 1
section
variable (s : State) (i tp tv : Nat) (b : Blob)
theorem State.unsealed_busy : (s.unsealed i tp tv b).rd (F.INST_MIG_BUSY i) = 1 := State.rd_wr_self _ _ (by decide)
theorem State.unsealed_step : (s.unsealed i tp tv b).rd (F.INST_MIG_STATUS_STEP i) = 6 := by
  rw [State.unsealed]
  simp (disch := omega) [F.INST_MIG_BUSY, F.INST_MIG_at, F.INST_MIG_STATUS_STEP, F.INST_MIG_STATUS_RESULT, F.INST_MIG_STATUS_at,
    State.rd_wr_addr, State.rd_wr_bits, State.rd_wr_self]
theorem State.unsealed_instSt (_ : tp < 128) (_ : tv < 64) : (s.unsealed i tp tv b).instSt i = 4 := by
  rw [State.instSt, State.unsealed]
  simp -implicitDefEqProofs (disch := omega) [F.INST_INFO_STATE, F.INST_INFO_at, F.INST_MIG_BUSY, F.INST_MIG_at, F.INST_MIG_STATUS_STEP,
    F.INST_MIG_STATUS_RESULT, F.INST_MIG_STATUS_at, F.INST_VPPB_KIND, F.INST_VPPB_STATE, F.INST_VPPB_TARGET, F.INST_VPPB_at,
    F.INST_PORT_STATUS_BOUND, F.INST_PORT_STATUS_at, State.rd_wr_addr, State.rd_wr_self]
theorem State.unsealed_target (_ : tp < 128) (_ : tv < 64) : (s.unsealed i tp tv b).rd (F.INST_VPPB_TARGET tp tv) = i % 4096 := by
  rw [State.unsealed]
  simp -implicitDefEqProofs (disch := omega) [F.INST_MIG_BUSY, F.INST_MIG_at, F.INST_MIG_STATUS_STEP, F.INST_MIG_STATUS_RESULT,
    F.INST_MIG_STATUS_at, F.INST_VPPB_TARGET, F.INST_VPPB_at, F.INST_PORT_STATUS_BOUND, F.INST_PORT_STATUS_at, State.rd_wr_addr,
    State.rd_wr_self]
theorem State.unsealed_pool : (s.unsealed i tp tv b).pool = { s.pool with
    own := mset {} s.pool.own i b.own
    restored := (b.srcModule, b.seq) :: s.pool.restored
    migs := mput s.pool.migs i (s.restoreMig i tp tv b) } := by
  rw [State.unsealed, State.wr_pool, State.wr_pool, State.wr_pool, State.emit_pool, State.wr_pool, State.wr_pool, State.wr_pool, State.wr_pool,
    State.wr_pool, State.wr_pool, State.setOwner, State.setReg_pool, State.setReg_pool]
end
section
variable {s : State} {i tp tv : Nat} {b : Blob} (hb : mget s.pool.blobs i = some b) (hbusy : s.rd (F.INST_MIG_BUSY i) = 0)
  (htp : tp = s.rd (F.INST_MIG_T_PORT i)) (htv : tv = s.rd (F.INST_MIG_T_VPPB i)) (hst : s.instSt i = 7 ∨ s.instSt i = 0)
  (hrole : s.roleOf (Cell.of tp) = .host) (hanc : (s.anchorOf (Cell.of tp)).val = tp) (hkind : s.rd (F.INST_VPPB_KIND tp tv) = 0)
  (hdom : s.groupDomainOk i tp = true)
include hb hbusy htp htv hst hrole hanc hkind hdom
/-- RESTORE of a blob at a free vPPB goes on unless the blob does not open or was restored before. -/
theorem State.restoreOp_eq (tagOk : Bool) : s.restoreOp i tagOk =
    if (!tagOk) = true ∨ s.pool.restored.contains (b.srcModule, b.seq) = true then s.wr (F.INST_MIG_STATUS_RESULT i) 4
    else (s.unsealed i tp tv b).regionCommit (.restore i) [i]
      (((s.unsealed i tp tv b).regionCells tp).flatMap (fun c => (s.unsealed i tp tv b).installSets c i)) := by
  have hok : ¬ ((s.instSt i ≠ 7 ∧ s.instSt i ≠ 0) ∨ s.roleOf (Cell.of tp) ≠ .host ∨ (s.anchorOf (Cell.of tp)).val ≠ tp
      ∨ (s.rd (F.INST_VPPB_KIND tp tv) ≠ 0 ∧ (!decide (s.rd (F.INST_VPPB_KIND tp tv) = 1 ∧ s.rd (F.INST_VPPB_TARGET tp tv) = i)) = true)
      ∨ (!s.groupDomainOk i tp) = true) :=
    fun h => h.elim (fun h => hst.elim h.1 h.2) (·.elim (· hrole) (·.elim (· hanc) (·.elim (·.1 hkind) (by simp [hdom]))))
  unfold State.restoreOp
  rw [if_neg (State.not_rdb hbusy), ← htp, ← htv]
  simp -zeta only [hb]
  exact if_neg hok
end
theorem exec_migRestore_sp (i : Inst) (tagOk : Bool) (s : State) : exec (.migRestore .sp i tagOk) s = .next (s.restoreOp i tagOk) := rfl

/-! ### The commands together (O47) -/

/-- Settles O47: each event by the lemma that says once what it does, and the fields by what its outcome reads. -/
theorem migrationStepsComplete : Obligations.MigrationStepsComplete := by
  refine ⟨fun i m s hm h5 hidle => ⟨fun hr => ?here, fun hr => ?sweep⟩, fun i m s hm h6 h4 => ?save,
    fun i m s hm hr hp hv => ?thaw, fun i b tp tv s hb hbusy htp htv hst hrole hanc hkind hdom => ?restore⟩
  case here =>
    refine ⟨s.frozenAt i 4, ?_, State.frozenAt_instSt .., State.frozenAt_step ..⟩
    rw [exec_migFreezeDrained hm h5 hidle, if_neg (by simp [hr])]
  case sweep =>
    rw [exec_migFreezeDrained hm h5 hidle, if_pos hr]
    rfl
  case save =>
    generalize hu : s.makeBlob i m.remote m.tModule = u
    have he := exec_migSaveComplete hm h6 h4 hu.symm
    have hregs : u.regs = s.regs := hu ▸ State.makeBlob_regs ..
    have hseq : u.pool.blobSeq = s.pool.blobSeq + 1 := hu ▸ State.makeBlob_blobSeq ..
    have haddr : u.chainAddr = s.chainAddr := hu ▸ State.makeBlob_chainAddr ..
    have hkey (k seq : Nat) : (u.wr (F.INST_MIG_STATUS_STEP i) 5).sealKey k seq = s.sealKey k seq :=
      (State.sealKey_migStep ..).trans (hu ▸ State.makeBlob_sealKey ..)
    rw [haddr, hkey, State.wr_pool, hseq] at he
    refine ⟨u, _, hu ▸ State.makeBlob_blobs .., rfl, rfl, hseq, hregs, fun hs => ?_, fun hs hhere => ?_, fun hs haway hk => ?_, fun hs haway hk => ?_⟩
    · refine ⟨_, he.trans (by rw [if_pos hs]), ?_, State.migEnd_result .., State.migEnd_busy .., State.migEnd_migs ..⟩
      exact (State.migEnd_instSt ..).trans (State.rd_wr_self _ _ (by decide))
    · refine ⟨u.wr (F.INST_MIG_STATUS_STEP i) 6, ?_, State.rd_wr_self _ _ (by decide), ?_⟩
      · calc (u.wr (F.INST_MIG_STATUS_STEP i) 6).instSt i
          _ = u.instSt i := u.rd_wr_ne _ (by simp only [F.INST_MIG_STATUS_STEP, F.INST_MIG_STATUS_at, F.INST_INFO_STATE, F.INST_INFO_at]; omega)
          _ = s.instSt i := State.rd_congr hregs _
          _ = 6 := h6
      · rw [he, if_neg (by simp [hs]), if_pos hhere, u.bindSets_migStep]
    · refine ⟨(u.wr (F.INST_MIG_STATUS_STEP i) 5).migNoKey i, ?_, State.migNoKey_result .., State.migNoKey_busy ..⟩
      rw [he, if_neg (by simp [hs]), if_neg haway, if_pos (by simp [State.sealKey, haway, hk])]
    · refine ⟨u.wr (F.INST_MIG_STATUS_STEP i) 5, ?_, State.rd_wr_self _ _ (by decide)⟩
      rw [he, if_neg (by simp [hs]), if_neg haway, if_neg (by simpa using hk)]
  case thaw =>
    generalize hu : s.thawAt i m = u
    have he := exec_migRestoreComplete hm hr hu.symm
    have hpool : u.pool = s.pool := hu ▸ State.thawAt_pool ..
    obtain ⟨hst, hport, hvppb, hvst⟩ := hu ▸ State.thawAt_bound s i hp hv
    refine ⟨u, hst, hport.trans (Nat.mod_eq_of_lt hp), hvppb.trans (Nat.mod_eq_of_lt hv), hvst, hu ▸ State.thawAt_step .., hpool,
      fun h => ?_, fun h hl v e => ?_, fun h hl => ?_⟩
    · rw [he, if_pos h]
    · rw [← hpool] at e
      rw [he, if_neg (by omega), if_neg (by simp [hl]), ← e]
      rfl
    · refine ⟨_, he.trans (by rw [if_neg (by omega), if_pos hl]), State.migEnd_step .., State.migEnd_result .., State.migEnd_migs ..⟩
  case restore =>
    have hop := State.restoreOp_eq hb hbusy htp htv hst hrole hanc hkind hdom
    have hp : tp < 128 := htp ▸ s.rd_lt _
    have hv : tv < 64 := htv ▸ s.rd_lt _
    refine ⟨?_, fun h => ?_, fun h => ⟨s.unsealed i tp tv b, ?_, ?_, ?_, State.unsealed_instSt _ _ _ _ _ hp hv, State.unsealed_step ..,
      State.unsealed_busy .., (State.unsealed_target _ _ _ _ _ hp hv).trans (Nat.mod_eq_of_lt i.isLt)⟩⟩
    · rw [exec_migRestore_sp, hop, if_pos (.inl rfl)]
    · rw [exec_migRestore_sp, hop, if_pos (.inr (by simpa using h))]
    · rw [exec_migRestore_sp, hop, if_neg (by simpa using h)]
    · rw [State.unsealed_pool]
      exact List.mem_cons_self
    · rw [State.owner, State.unsealed_pool]
      exact mgetD_mset_self ..

end Sys2Proof.Machine

/-! # Isolation: MAP notes, keys, rotations, the barrier and link encryption -/

namespace Sys2Proof.Machine
open Host (Outcome)

/-! ### MAP notes (O13) -/

section
variable {s : State} {c : Cell} {n : Nat} {x : MapNote}
/-- A cell that has every earlier note applies a note: its entries are the note's, and the cell has acknowledged. -/
theorem State.applyNote_applies (hn : mget s.pool.notes n = some x) (hc : c.val ∉ x.acked) (hf : s.cellFenced c = false)
    (hord : ∀ e ∈ s.pool.notes, e.1 < n → c.val ∈ e.2.acked) : mget (s.applyNote c n).pool.notes n = some { x with acked := c.val :: x.acked } ∧
      (s.applyNote c n).home.ext = x.home.foldl (fun (m : NMap ExtEnt) (h : Nat × ExtEnt) => mset {} m (c.val * 65536 + h.1) h.2) s.home.ext := by
  have hgo : ¬ (x.acked.contains c.val = true ∨ s.cellFenced c = true
      ∨ s.pool.notes.any (fun (e : Nat × MapNote) => e.1 < n && !e.2.acked.contains c.val) = true) := by
    simpa [hc, hf] using fun a y hy => hord (a, y) hy
  unfold State.applyNote
  simp -zeta only [hn]
  rw [if_neg hgo]
  extract_lets _ t _ u v
  refine ⟨mget_mput_self _ _ _, ?_⟩
  change v.home.ext = u.home.ext
  refine congrArg HomeSt.ext (?_ : v.home = u.home)
  refine List.foldlRecOn (motive := fun w : State => w.home = u.home) _ _ rfl fun w hw d _ => ?_
  split
  · exact hw
  · exact hw
end
section
variable {n : Nat} {x : MapNote} {s : State} (hn : mget s.pool.notes n = some x)
include hn
theorem exec_mapNoteComplete_waits (h : s.noteAcked x = false) : exec (.mapNoteComplete n) s = .next s := by
  refine congrArg Outcome.next ?_
  simp only [hn]
  exact if_pos (by simp [h])
theorem exec_mapNoteComplete_ends (h : s.noteAcked x = true) (hg : x.goal = .none) :
    exec (.mapNoteComplete n) s = .next { s with pool.notes := mdel s.pool.notes n } := by
  refine congrArg Outcome.next ?_
  simp only [hn, hg]
  exact if_neg (by simp [h])
theorem exec_mapNoteComplete_remap {d : Nat} {o : PressOp} (h : s.noteAcked x = true) (hg : x.goal = .remap d)
    (ho : mget s.pool.press d = some o) : exec (.mapNoteComplete n) s =
      .next { s with pool.notes := mdel s.pool.notes n, pool.press := mput s.pool.press d { o with noted := true } } := by
  refine congrArg Outcome.next ?_
  simp only [hn, hg, ho]
  exact if_neg (by simp [h])
end

/-! ### Key slots (O13) -/

theorem State.setKeyRec_sec (s : State) (k : Nat) (r : KeyRec) : (s.setKeyRec k r).sec = { s.sec with slots := mset {} s.sec.slots k r } := by
  rw [State.setKeyRec, State.wr_sec]
theorem State.keyRec_setKeyRec (s : State) (k : Nat) (r : KeyRec) : (s.setKeyRec k r).keyRec k = r := by
  rw [State.keyRec, State.setKeyRec_sec]
  exact mgetD_mset_self ..
theorem State.keyRec_inc (s : State) (f : Fld) (n k : Nat) : (s.inc f n).keyRec k = s.keyRec k := by
  rw [State.keyRec, State.inc_sec, ← State.keyRec]
theorem State.rd_setKeyRec (s : State) (k : Nat) (r : KeyRec) {f : Fld} (h : F.SEC_STATUS_at ≠ f.addr) : (s.setKeyRec k r).rd f = s.rd f := by
  rw [State.setKeyRec, State.rd_wr_ne _ _ h]
  rfl
theorem State.rotShow_sec (s : State) : s.rotShow.sec = s.sec := (State.rotShow_keeps (P := 133169151) rfl (Keeps.refl s)).sec_eq
/-- The registers of the rotation keep its RESULT. -/
theorem State.rotShow_result (s : State) : s.rotShow.rd F.SEC_ROT_STATUS_RESULT = s.rd F.SEC_ROT_STATUS_RESULT := by
  unfold State.rotShow State.wrb
  dsimp only
  split
  · simp (disch := omega) only [F.SEC_STATUS_ROTATING, F.SEC_STATUS_at, F.SEC_ROTATE_BUSY, F.SEC_ROTATE_at, F.SEC_ROT_STATUS_EXT_LEFT,
      F.SEC_ROT_STATUS_OLD_SLOT, F.SEC_ROT_STATUS_NEW_SLOT, F.SEC_ROT_STATUS_RESULT, F.SEC_ROT_STATUS_at, State.rd_wr_addr, State.rd_wr_bits]
  · simp (disch := omega) only [F.SEC_STATUS_ROTATING, F.SEC_STATUS_at, F.SEC_ROTATE_BUSY, F.SEC_ROTATE_at, F.SEC_ROT_STATUS_EXT_LEFT,
      F.SEC_ROT_STATUS_RESULT, F.SEC_ROT_STATUS_at, State.rd_wr_addr, State.rd_wr_bits]
theorem State.endRots_sec {s : State} (h : s.sec.rots = []) : s.endRots.sec = { s.sec with rots := [] } := by
  unfold State.endRots
  simp only [h, List.filter_nil, List.foldl_nil, List.isEmpty_nil, if_true]
  exact State.rotShow_sec _
theorem State.startWalkers_of_noRots {s : State} (h : s.sec.rots = []) : s.startWalkers = s := by
  unfold State.startWalkers
  rw [h]
  rfl
/-- Walkers that start change nothing of the keys but the walkers. -/
theorem State.startWalkers_sec (s : State) : ∃ w, s.startWalkers.sec = { s.sec with walk := w } := by
  refine List.foldlRecOn (motive := fun u : State => ∃ w, u.sec = { s.sec with walk := w }) _ _ ⟨_, rfl⟩ fun u hu r _ => ?_
  split
  · exact hu
  · refine List.foldlRecOn (motive := fun u : State => ∃ w, u.sec = { s.sec with walk := w }) _ _ hu fun v hv e _ => ?_
    obtain ⟨w, hw⟩ := hv
    dsimp only
    split
    · exact ⟨w, hw⟩
    · exact ⟨_, by rw [hw]⟩

/-! ### ZEROIZE (O13) -/

section
variable {s : State} {k : KeySlot} (h4 : (s.keyRec k).st = 4)
include h4
theorem exec_zeroize (c : Cell) : exec (.zeroize c k) s = .next
    ({ s with sec.keyRam := mdel s.sec.keyRam (c.val * 8192 + k.val) }.setKeyRec k
      { s.keyRec k with awAck := (s.keyRec k).awAck.filter (· != c.val) }) :=
  congrArg Outcome.next (if_pos h4)
theorem exec_zeroizeComplete (hack : (s.keyRec k).awAck = []) : exec (.zeroizeComplete k) s = .next
    (({ s with sec.keyRam := mkeep (fun x _ => x % 8192 != k.val) s.sec.keyRam,
               sec.loads := s.sec.loads.filter (fun x => x.2.1 != k.val) }.setKeyRec k {}).inc F.SEC_KEY_CNT_ZEROIZED) :=
  congrArg Outcome.next (if_pos ⟨h4, by simp [hack]⟩)
end

/-! ### KEY_GENERATE_COMPLETE and KEYLOAD (O13) -/

/-- The record of a slot whose key has been drawn (R281). -/
def State.keyMade (s : State) (k : Nat) : KeyRec :=
  { s.keyRec k with making := false, key := BitVec.ofNat 512 (Config.freeRandom s.freeCtr), at_ := s.wall }
/-- A slot with its key, which goes to every MEMORY cell. -/
def State.keyGenerated (s : State) (k : Nat) : State :=
  ({ s with freeCtr := s.freeCtr + 1 }.setKeyRec k (s.keyMade k)).inc F.SEC_KEY_CNT_GENERATED
theorem State.keyGenerated_sec (s : State) (k : Nat) :
    (s.keyGenerated k).sec = { s.sec with slots := mset {} s.sec.slots k (s.keyMade k) } := by
  rw [State.keyGenerated, State.inc_sec, State.setKeyRec_sec]
theorem State.keyGenerated_memCells (s : State) (k : Nat) : (s.keyGenerated k).memCells = s.memCells := by
  have hroles : (s.keyGenerated k).roles = s.roles := by
    rw [State.keyGenerated, State.inc, State.wr_roles, State.setKeyRec, State.wr_roles]
  have hscrim : (s.keyGenerated k).scrim = s.scrim := by
    rw [State.keyGenerated, State.inc, State.wr_scrim, State.setKeyRec, State.wr_scrim]
  unfold State.memCells State.roleOf State.cellFenced
  rw [hroles, hscrim]
/-- With no rotation a new key changes nothing but its slot and the notes to the cells. -/
theorem State.keyGenerated_loads {s t : State} {k : Nat} (hrots : s.sec.rots = [])
    (ht : t = (((s.keyGenerated k).sendLoads k).endRots).startWalkers) :
    t.keyRec k = s.keyMade k ∧ t.sec.loads = s.sec.loads ++ t.keyNotes s.memCells k := by
  have hu : ((s.keyGenerated k).sendLoads k).sec.rots = [] := by
    rw [State.sendLoads, State.keyGenerated_sec, hrots]
  have he : ((s.keyGenerated k).sendLoads k).endRots.sec = { s.sec with
      slots := mset {} s.sec.slots k (s.keyMade k), rots := [], loads := s.sec.loads ++ (s.keyGenerated k).keyNotes s.memCells k } := by
    rw [State.endRots_sec hu, State.sendLoads, State.keyGenerated_memCells, State.keyGenerated_sec]
  rw [State.startWalkers_of_noRots (by rw [he])] at ht
  have hsec := (congrArg State.sec ht).trans he
  have hkey : t.keyRec k = s.keyMade k := by
    rw [State.keyRec, hsec]
    exact mgetD_mset_self ..
  have hkey' : (s.keyGenerated k).keyRec k = s.keyMade k := by
    rw [State.keyRec, State.keyGenerated_sec]
    exact mgetD_mset_self ..
  have hnotes : t.keyNotes s.memCells k = (s.keyGenerated k).keyNotes s.memCells k := by
    unfold State.keyNotes State.transportKey
    rw [hkey, hkey', hsec, State.keyGenerated_sec]
  refine ⟨hkey, ?_⟩
  rw [hnotes, hsec]
theorem exec_keyGenerateComplete_unhealthy {k : KeySlot} {equal : Bool} {s : State} (h : s.keysOk = false) :
    exec (.keyGenerateComplete k equal) s = .next s := congrArg Outcome.next (if_pos (.inr (by simp [h])))
section
variable {k : KeySlot} {s : State} (hmake : (s.keyRec k).making = true) (hok : s.keysOk = true)
include hmake hok
theorem exec_keyGenerateComplete_equal : exec (.keyGenerateComplete k true) s = .next { s with freeCtr := s.freeCtr + 1 } :=
  congrArg Outcome.next (if_neg (by simp [hmake, hok]))
theorem exec_keyGenerateComplete_draws : exec (.keyGenerateComplete k false) s =
    .next (((s.keyGenerated k).sendLoads k).endRots).startWalkers :=
  congrArg Outcome.next (if_neg (by simp [hmake, hok]))
end
section
variable {c : Cell} {k : KeySlot} {f : Nat × Nat × BitVec 576 → Bool} (hf : f = fun x => x.1 == c.val && x.2.1 == k.val) {s : State}
include hf
theorem exec_keyload_none (h : s.sec.loads.find? f = none) : exec (.keyload c k) s = .next s := by
  subst hf
  refine congrArg Outcome.next ?_
  simp only [h]
variable {x : Nat × Nat × BitVec 576} (hx : s.sec.loads.find? f = some x)
include hx
/-- The cell stores what it unwraps for a slot that holds a key. -/
theorem exec_keyload_stores {w : BitVec 256} {key : BitVec 512} (h0 : (s.keyRec k).st ≠ 0) (h4 : (s.keyRec k).st ≠ 4)
    (hm : (s.keyRec k).making = false) (hw : s.transportKey = some w) (hu : unwrapKey w x.2.2 = some key) : exec (.keyload c k) s =
      .next { s with sec.loads := s.sec.loads.filter (fun x => !f x), sec.keyRam := mput s.sec.keyRam (c.val * 8192 + k.val) key }.startWalkers := by
  subst hf
  refine congrArg Outcome.next ?_
  have hkey : (({ s with sec.loads := s.sec.loads.filter (fun x => !(x.1 == c.val && x.2.1 == k.val)) } : State).transportKey.bind
      fun t => unwrapKey t x.2.2) = some key := by
    change s.transportKey.bind _ = _
    rw [hw]
    exact hu
  simp only [hx]
  rw [if_neg (by simp [h0, h4, hm]), hkey]
theorem exec_keyload_drops (h : (s.keyRec k).st = 0 ∨ (s.keyRec k).st = 4 ∨ (s.keyRec k).making = true ∨
    s.transportKey.bind (fun w => unwrapKey w x.2.2) = none) :
    exec (.keyload c k) s = .next { s with sec.loads := s.sec.loads.filter (fun x => !f x) } := by
  subst hf
  refine congrArg Outcome.next ?_
  have hkey : (if (s.keyRec k).st = 0 ∨ (s.keyRec k).st = 4 ∨ (s.keyRec k).making = true then none
      else (({ s with sec.loads := s.sec.loads.filter (fun x => !(x.1 == c.val && x.2.1 == k.val)) } : State).transportKey.bind
        fun t => unwrapKey t x.2.2)) = none := by
    split
    · rfl
    next hn => exact (h.resolve_left fun e => hn (.inl e)).resolve_left (fun e => hn (.inr (.inl e))) |>.resolve_left fun e => hn (.inr (.inr e))
  simp only [hx]
  rw [hkey]
end

/-! ### HEALTH_TEST_FAIL (O13) -/

/-- An entry of the fault log moves the logs' registers only. -/
theorem State.logFault_regsBut (s : State) (cls : Nat) (cell : Option Cell) (subj cause detail elem : Nat) (outside : Bool) :
    s.regsBut stepRegs (s.logFault cls cell subj cause detail elem outside) := by
  unfold State.logFault
  extract_lets dbl u v w
  have hu : s.regsBut stepRegs u := .wr (.refl _ s) (.head _)
  have hv : s.regsBut stepRegs v := .ite (fun _ => .wr hu (.head _)) fun _ => hu
  have hw : s.regsBut stepRegs w := .ite (fun _ => .wr hv (.head _)) fun _ => hv
  exact fun a h => (w.logFaultRec_regsBut _ a h).trans (hw a h)
/-- The state that a failed health test leaves before its entry in the log. -/
def State.unhealthy (s : State) (drbg : Bool) : State :=
  (if drbg then s.wr F.SEC_STATUS_DRBG_FAIL 1 else s.wr F.SEC_STATUS_ENTROPY_FAIL 1).wr F.SEC_STATUS_READY 0
theorem State.unhealthy_activeSp (s : State) (drbg : Bool) : (s.unhealthy drbg).activeSp = s.activeSp := by
  cases drbg
  case false => exact (State.wr_activeSp ..).trans (State.wr_activeSp ..)
  case true => exact (State.wr_activeSp ..).trans (State.wr_activeSp ..)
theorem State.unhealthy_ready (s : State) (drbg : Bool) : (s.unhealthy drbg).rd F.SEC_STATUS_READY = 0 := State.rd_wr_self _ _ (by decide)
theorem State.unhealthy_drbg (s : State) : (s.unhealthy true).rd F.SEC_STATUS_DRBG_FAIL = 1 :=
  (State.rd_wr_bits _ _ (by decide) (by decide)).trans (State.rd_wr_self _ _ (by decide))
theorem State.unhealthy_entropy (s : State) : (s.unhealthy false).rd F.SEC_STATUS_ENTROPY_FAIL = 1 :=
  (State.rd_wr_bits _ _ (by decide) (by decide)).trans (State.rd_wr_self _ _ (by decide))
theorem exec_healthTestFail (drbg : Bool) (s : State) : exec (.healthTestFail drbg) s =
    .next ((s.unhealthy drbg).logFault 0x11 none 0xFFFF 0x000F (if drbg then 2 else 1) 0 false) := rfl

/-! ### Rotations (O13) -/

/-- A rotation of an owner from the slot `old` to a slot taken for it. -/
def State.rotStarted (s : State) (owner old new : Nat) (byMgr : Bool) : State :=
  let s := s.setKeyRec old { s.keyRec old with st := 2 }
  let s := s.setKeyRec new { s.keyRec new with st := 3 }
  let s := { s with
    sec.rots := s.sec.rots ++ [(⟨owner % 4096, owner ≥ 4096, old, new,
      (s.owner owner).exts.filter (fun e => !(s.extNow e).sides.isEmpty), byMgr⟩ : Rot)] }
  (s.wr F.SEC_ROT_STATUS_RESULT 2).rotShow
theorem State.rotStarted_rots (s : State) (owner old new : Nat) (byMgr : Bool) : ∃ r : Rot,
    (s.rotStarted owner old new byMgr).sec.rots = s.sec.rots ++ [r] ∧ r.old = old ∧ r.byMgr = byMgr := by
  rw [State.rotStarted, State.rotShow_sec, State.wr_sec, State.setKeyRec_sec, State.setKeyRec_sec]
  exact ⟨_, rfl, rfl, rfl⟩
theorem State.rotStarted_result (s : State) (owner old new : Nat) (byMgr : Bool) :
    (s.rotStarted owner old new byMgr).rd F.SEC_ROT_STATUS_RESULT = 2 := (State.rotShow_result _).trans (State.rd_wr_self _ _ (by decide))
theorem State.allocSlot_rots (s : State) (owner : Nat) (group : Bool) : (s.allocSlot owner group).2.sec.rots = s.sec.rots := by
  unfold State.allocSlot
  split
  · split
    · rw [State.setKeyRec_sec]
    · rfl
  · rfl
section
variable {s : State} {o : Nat} (byMgr : Bool)
theorem State.startRot_none (h : (s.owner o).key = none) : s.startRot o byMgr = none := by
  unfold State.startRot
  rw [h]
theorem State.startRot_queues (hk : (s.owner o).key ≠ none) (hr : s.rotOf o ≠ none) : s.startRot o byMgr = some (s.queueRot o byMgr) := by
  obtain ⟨k, hk⟩ := Option.ne_none_iff_exists'.1 hk
  unfold State.startRot
  rw [hk]
  exact if_pos (.inr (Option.isSome_iff_ne_none.2 hr))
theorem State.startRot_starts {k new : Nat} (hk : (s.owner o).key = some k) (hl : s.sec.rots.length < 64) (hr : s.rotOf o = none)
    (ha : (s.allocSlot (o % 4096) (decide (o ≥ 4096))).1 = some new) :
    s.startRot o byMgr = some ((s.allocSlot (o % 4096) (decide (o ≥ 4096))).2.rotStarted o k new byMgr) := by
  unfold State.startRot
  generalize s.allocSlot (o % 4096) (decide (o ≥ 4096)) = a at ha ⊢
  obtain ⟨_, t⟩ := a
  subst ha
  rw [hk]
  exact if_neg (by simp [hr, hl])
end
section
variable {s : State} {o : Nat} (ho : o = s.rd F.SEC_ROTATE_OWNER + (if s.rdb F.SEC_ROTATE_GROUP then 4096 else 0))
  (hb : s.rd F.SEC_ROTATE_BUSY = 0)
include ho hb
/-- SEC_ROTATE_GO that finds the engine free starts or queues the rotation, or is refused. -/
theorem exec_secRotateGo_sp : exec (.secRotateGo .sp) s = .next (if s.sec.rots.length ≥ 64 then s.flag F.SEC_ROTATE_REFUSED
    else (s.startRot o true).getD ((s.noKeyFor o).flag F.SEC_ROTATE_REFUSED)) := by
  change Outcome.next s.rotateOp = _
  refine congrArg Outcome.next ?_
  unfold State.rotateOp
  rw [if_neg (State.not_rdb hb), ← ho]
  dsimp only
  cases s.startRot o true with
  | none => rfl
  | some t => rfl
end

/-! ### The age of keys (O13) -/

theorem exec_rotationAgeCheck_none {s : State} (h : s.rd F.SEC_CFG_ROT_PERIOD = 0 ∨
    (∀ e ∈ s.sec.slots, e.2.st = 1 → (s.wall - e.2.at_) / hourCyc < 24 * s.rd F.SEC_CFG_ROT_PERIOD)) : exec .rotationAgeCheck s = .next s := by
  refine congrArg Outcome.next ?_
  rcases h with h | h
  · exact if_pos h
  · have hnone : s.sec.slots.filter (fun (e : Nat × KeyRec) => e.2.st == 1 && !e.2.making &&
        decide ((s.wall - e.2.at_) / hourCyc ≥ 24 * s.rd F.SEC_CFG_ROT_PERIOD)) = [] :=
      List.filter_eq_nil_iff.2 fun e he => by
        simpa using fun h1 _ => h e he h1
    dsimp only
    rw [hnone]
    exact ite_self _
theorem exec_rotationAgeCheck_one {k : Nat} {r : KeyRec} {s : State} (hs : s.sec.slots = [(k, r)]) (h1 : r.st = 1) (hm : r.making = false)
    (hp : s.rd F.SEC_CFG_ROT_PERIOD ≠ 0) (hage : 24 * s.rd F.SEC_CFG_ROT_PERIOD ≤ (s.wall - r.at_) / hourCyc) : exec .rotationAgeCheck s =
      .next ((s.startRot (r.owner + (if r.group then 4096 else 0)) false).getD (s.noKeyFor (r.owner + (if r.group then 4096 else 0)))) := by
  refine congrArg Outcome.next ?_
  have hone : s.sec.slots.filter (fun (e : Nat × KeyRec) => e.2.st == 1 && !e.2.making &&
      decide ((s.wall - e.2.at_) / hourCyc ≥ 24 * s.rd F.SEC_CFG_ROT_PERIOD)) = [(k, r)] := by
    rw [hs, List.filter_cons_of_pos (by simp [h1, hm, hage]), List.filter_nil]
  dsimp only
  rw [if_neg hp, hone]
  rfl

/-! ### The walkers (O13) -/

theorem State.releaseHeld_sec (s : State) (e : Nat) : (s.releaseHeld e).sec = s.sec :=
  (State.releaseHeld_keeps (P := 133169151) rfl (Keeps.refl s) e).sec_eq
theorem exec_rekeyBlockAck_next {e : Ext} {w : Walker} {s : State} (hw : mget s.sec.walk e.val = some w) (hb : w.block + 1 < extBlocks) :
    ∃ t, exec (.rekeyBlockAck e) s = .next t ∧ mget t.sec.walk e.val = some { w with block := w.block + 1, mirBlock := w.mirBlock + 1 } := by
  refine ⟨_, rfl, ?_⟩
  simp -zeta only [hw]
  rw [if_neg (by omega)]
  extract_lets new u w' _ v
  rw [if_pos hb, State.releaseHeld_sec]
  exact mget_mput_self _ _ _

/-! ### The barrier (O13) -/

/-- A barrier one more cell of which has drained (R277). -/
def Barrier.drain (b : Barrier) (c : Cell) : Barrier := { b with drained := c.val :: b.drained }
/-- A cell shows that it has drained. -/
def State.cellDrained (s : State) (c : Cell) (b : Barrier) : State :=
  { s.wr (F.PROT_STATUS_BARRIER c) 2 with sec.barrier := some (b.drain c) }
section
variable (s : State) (c : Cell) (b : Barrier)
theorem State.cellDrained_scrim : (s.cellDrained c b).scrim = s.scrim := by
  rw [State.cellDrained, State.wr_scrim]
theorem State.cellDrained_cellFenced (d : Cell) : (s.cellDrained c b).cellFenced d = s.cellFenced d := by
  rw [State.cellFenced, State.cellDrained_scrim, ← State.cellFenced]
theorem State.cellDrained_shows : (s.cellDrained c b).rd (F.PROT_STATUS_BARRIER c) = 2 := by
  rw [State.cellDrained, State.rd_mk]
  exact State.rd_wr_self _ _ (by decide)
end

section
variable {c : Cell} {b : Barrier} {s : State} (hb : s.sec.barrier = some b) (hc : c.val ∈ b.cells) (hd : c.val ∉ b.drained)
include hb
theorem exec_barrierDrained_busy (h : s.barrierBusy c b.insts = true) : exec (.barrierDrained c) s = .next s := by
  refine congrArg Outcome.next ?_
  simp only [hb]
  exact if_pos (.inr h)
include hc hd
/-- A cell that is idle is drained; the engine orders the swap with the last one. -/
theorem exec_barrierDrained_idle (h : s.barrierBusy c b.insts = false) : exec (.barrierDrained c) s = .next (
    if !s.scrim.epochOpen && b.cells.all (fun x => (b.drain c).drained.contains x || s.cellFenced (Cell.of x)) then
      (((s.cellDrained c b).barSwap (b.drain c)).epochRegions (b.drain c) true).nextCommit
    else s.cellDrained c b) := by
  have hnew : b.drained.contains c.val = false := by simpa using hd
  rw [← s.cellDrained_scrim c b, ← funext (s.cellDrained_cellFenced c b)]
  refine congrArg Outcome.next ?_
  simp -zeta only [hb, hnew, Bool.false_eq_true, if_false]
  exact if_neg (by simp [hc, h])
theorem exec_barrierLimitExpiry_refuses {n : Nat} {u : State} (hn : n = ((b.sets.find? (fun x => x.1 == c.val)).map (fun x => x.2.1)).getD 0)
    (hu : u = if b.goal = .epoch then (s.endBarrier b).refuseRegions (firstEntries b.sets) 5 (c.val, n) (c.val, n) else s.endBarrier b) :
    exec (.barrierLimitExpiry c) s = .next
      ((((((u.logCommit 2 1 5 (some c) (F.PROT_REGION_at c n 0) 0 (4 * b.sets.length)).barRefused b.goal).epochRegions b
        false).resumeDevices b.cells).resumeCopies b.insts).again b).nextCommit := by
  subst hn hu
  refine congrArg Outcome.next ?_
  simp only [hb]
  exact if_neg (by simp [hc, hd])
end

/-! ### Link encryption (O13) -/

theorem exec_ideKmKeySet_sets {p : Cell} {s : State} (ha : s.anchorOf p = p) (hi : s.roleOf p ≠ .idle) (ho : s.roleOf p ≠ .onora) (go : Bool) :
    ∃ t, exec (.ideKmKeySet p go) s = .next t ∧ t.rd (F.SEC_IDE_STATE p) = (if go then 2 else 1) ∧
      mget t.sec.ide p.val = some { draw := s.freeCtr, byModule := s.roleOf p == .memory } := by
  refine ⟨_, congrArg Outcome.next (if_neg (by simp [ha, hi, ho])), ?_, ?_⟩
  · refine (State.rd_wr_self _ _ (by decide)).trans ?_
    split
    · rfl
    · rfl
  · rw [State.wr_sec, State.sat, State.wr_sec]
    split
    · exact mget_mput_self _ _ _
    · exact mget_mput_self _ _ _
theorem exec_ideIntegrityFailure_drops {p : Cell} {s : State} (h : s.rd (F.SEC_IDE_STATE p) = 1 ∨ s.rd (F.SEC_IDE_STATE p) = 2) :
    exec (.ideIntegrityFailure p) s = .next ((State.sat { s with sec.ide := mdel s.sec.ide p.val } (F.SEC_IDE_FAILS p)).linkDown p 1 3) :=
  congrArg Outcome.next (if_neg (by omega))

/-! ### The commands together (O13) -/

/-- Settles O13: each command by the lemma that says once what it does, and the fields by what its outcome reads. -/
theorem isolationCommandsComplete : Obligations.IsolationCommandsComplete := by
  refine ⟨fun c n x s hn hc hf hord => ?note, fun n x s hn => ⟨exec_mapNoteComplete_waits hn, exec_mapNoteComplete_ends hn, ?remap⟩,
    fun c k s h4 => ⟨?zeroize, fun hack => ?zeroized⟩, fun k s hmake hok hrots _ => ⟨exec_keyGenerateComplete_equal hmake hok, ?generate⟩,
    fun k equal s h => exec_keyGenerateComplete_unhealthy h,
    fun c k f s hf => ⟨fun x w key hx h0 h4 hm hw hu => ?keyload, fun x hx h => exec_keyload_drops hf hx h, exec_keyload_none hf⟩,
    fun drbg s hsp => ?health, fun o s ho hb => ⟨fun h => ?full, fun hr hk hl => ?queued, fun hk hl => ?unkeyed, fun k hk hl hr ha => ?rotates⟩,
    fun s => ⟨exec_rotationAgeCheck_none, fun k r => exec_rotationAgeCheck_one⟩, fun e w s hw hb => exec_rekeyBlockAck_next hw hb,
    fun c b s hb hc hd => ⟨exec_barrierDrained_busy hb, fun d h hdc hne hdd hdf => ?drained, fun h hone he => ?swap,
      fun n u hn hu => exec_barrierLimitExpiry_refuses hb hc hd hn hu⟩,
    fun p s ha hi ho go => exec_ideKmKeySet_sets ha hi ho go, fun p s h => exec_ideIntegrityFailure_drops h⟩
  case note =>
    obtain ⟨hack, hext⟩ := State.applyNote_applies hn hc hf hord
    refine ⟨_, rfl, hack, fun e v hx _ => ?_⟩
    rw [hext, hx]
    exact mgetD_mset_self ..
  case remap => exact fun d o h hg ho _ => ⟨_, exec_mapNoteComplete_remap hn h hg ho, mget_mput_self _ _ _⟩
  case zeroize =>
    refine ⟨_, exec_zeroize h4 c, ?_, ?_⟩
    · rw [State.setKeyRec_sec]
      exact mget_mdel_self _ _
    · rw [State.keyRec_setKeyRec]
      simp
  case zeroized =>
    refine ⟨_, exec_zeroizeComplete h4 hack, ?_, ?_, ?_⟩
    · exact (State.keyRec_inc ..).trans (State.keyRec_setKeyRec ..)
    · rw [State.inc_sec, State.setKeyRec_sec]
      simp [mkeep]
    · rw [State.rd_inc _ _ (by decide), State.rd_setKeyRec _ _ _ (by decide), State.rd_mk]
  case generate =>
    obtain ⟨hkey, hloads⟩ := State.keyGenerated_loads hrots rfl
    exact ⟨_, exec_keyGenerateComplete_draws hmake hok, congrArg KeyRec.key hkey, congrArg KeyRec.making hkey, hloads⟩
  case keyload =>
    refine ⟨_, exec_keyload_stores hf hx h0 h4 hm hw hu, ?_⟩
    obtain ⟨w, hsec⟩ := State.startWalkers_sec
      { s with sec.loads := s.sec.loads.filter (fun x => !f x), sec.keyRam := mput s.sec.keyRam (c.val * 8192 + k.val) key }
    rw [hsec]
    exact ⟨mget_mput_self _ _ _, rfl⟩
  case health =>
    obtain ⟨r, hr, hcls, hcause, _⟩ := State.logFault_newest (s := s.unhealthy drbg) (by rwa [State.unhealthy_activeSp]) 0x11 none 0xFFFF 0x000F
      (if drbg then 2 else 1) 0 false
    have hrd (f : Fld) (hf : f.addr ∉ stepRegs) := State.rd_of_reg ((s.unhealthy drbg).logFault_regsBut 0x11 none 0xFFFF 0x000F
      (if drbg then 2 else 1) 0 false f.addr hf)
    refine ⟨_, r, exec_healthTestFail drbg s, ?_, fun h => ?_, fun h => ?_, hr, hcls, hcause⟩
    · exact (hrd _ (by decide)).trans (s.unhealthy_ready drbg)
    · subst h
      exact (hrd _ (by decide)).trans s.unhealthy_drbg
    · subst h
      exact (hrd _ (by decide)).trans s.unhealthy_entropy
  case full => rw [exec_secRotateGo_sp ho hb, if_pos h]
  case queued => rw [exec_secRotateGo_sp ho hb, if_neg (by omega), State.startRot_queues true hk hr, Option.getD_some]
  case unkeyed => rw [exec_secRotateGo_sp ho hb, if_neg (by omega), State.startRot_none true hk, Option.getD_none]
  case rotates =>
    obtain ⟨new, ha⟩ := Option.ne_none_iff_exists'.1 ha
    obtain ⟨r, hrots, hold, hby⟩ := (s.allocSlot (o % 4096) (decide (o ≥ 4096))).2.rotStarted_rots o k new true
    rw [State.allocSlot_rots] at hrots
    refine ⟨_, r, ?_, hrots, hold, hby, State.rotStarted_result ..⟩
    rw [exec_secRotateGo_sp ho hb, if_neg (by omega), State.startRot_starts true hk hl hr ha, Option.getD_some]
  case drained =>
    have hopen : b.cells.all (fun x => (b.drain c).drained.contains x || s.cellFenced (Cell.of x)) = false := by
      refine List.all_eq_false.2 ⟨d.val, hdc, ?_⟩
      have hd' : d.val ∉ (b.drain c).drained := fun h => (List.mem_cons.1 h).elim (fun e => hne (Fin.ext e)) hdd
      simp [hd', hdf]
    refine ⟨_, exec_barrierDrained_idle hb hc hd h, ?_⟩
    rw [hopen, Bool.and_false, if_neg Bool.false_ne_true]
    exact ⟨rfl, s.cellDrained_shows c b⟩
  case swap =>
    have hall : b.cells.all (fun x => (b.drain c).drained.contains x || s.cellFenced (Cell.of x)) = true := by
      simp [hone, Barrier.drain]
    rw [exec_barrierDrained_idle hb hc hd h, hall, he, if_pos (by rfl)]
    rfl

end Sys2Proof.Machine

/-! # Pooling: the fabric manager, binding, Dynamic Capacity and the links of ports -/

namespace Sys2Proof.Machine
open Host (Outcome)

/-! ### The FM API from the manager that holds the lease (O11) -/

section
variable {s : State} (h : s.mgr.holder = some .mgr)
include h
theorem State.fmLease_of_holder : s.fmLease .mgr = s := by
  unfold State.fmLease
  rw [h]
  rfl
theorem State.holds_of_holder : s.holds .mgr = true := by simp [State.holds, h]
theorem State.fmQuery_answers (hr : s.envelope.reads.getLsbD 6 = true) (data : List Nat) : s.fmQuery .mgr data = s.emit (.fm .mgr true data) := by
  unfold State.fmQuery State.mctpIn
  dsimp only
  rw [State.fmLease_of_holder h, if_neg (by simp [State.holds_of_holder h]), if_pos hr]
/-- A command whose writes the envelope permits, and that the module does not refuse, is performed and answered. -/
theorem State.fmDo_performs {ws : List (Fld × Nat)} (hw : ∀ w ∈ ws, s.judge w.1.addr w.1.lsb w.1.width w.2 = none) (k : State → State)
    {fail : State → Option State} (hf : fail s = none) : s.fmDo .mgr ws k fail = (k s).emit (.fm .mgr true []) := by
  have hnone : ws.find? (fun w => (s.judge w.1.addr w.1.lsb w.1.width w.2).isSome) = none :=
    List.find?_eq_none.2 fun w hm => by simp [hw w hm]
  unfold State.fmDo State.mctpIn
  dsimp only
  rw [State.fmLease_of_holder h, if_neg (by simp [State.holds_of_holder h]), hnone]
  dsimp only
  rw [hf]
end
theorem State.giveKey_of_key {s : State} {o : Nat} (h : (s.owner o).key ≠ none) : s.giveKey o = some s :=
  if_pos (Option.isSome_iff_ne_none.2 h)
section
variable {s : State} (h : s.mgr.holder = some .mgr)
include h
theorem exec_fmBindVppb_mgr {i : Inst} {port : Cell} {v : Fin 64}
    (hop : s.judge (F.INST_BIND_OP i).addr (F.INST_BIND_OP i).lsb (F.INST_BIND_OP i).width 1 = none)
    (hport : s.judge (F.INST_BIND_PORT i).addr (F.INST_BIND_PORT i).lsb (F.INST_BIND_PORT i).width port.val = none)
    (hvppb : s.judge (F.INST_BIND_VPPB i).addr (F.INST_BIND_VPPB i).lsb (F.INST_BIND_VPPB i).width v.val = none)
    (hgo : s.judge (F.INST_BIND_GO i).addr (F.INST_BIND_GO i).lsb (F.INST_BIND_GO i).width 1 = none) : exec (.fmBindVppb .mgr i port v) s =
      .next (((((s.wr (F.INST_BIND_OP i) 1).wr (F.INST_BIND_PORT i) port).wr (F.INST_BIND_VPPB i) v).bindOp i port v).emit (.fm .mgr true [])) := by
  refine congrArg Outcome.next (State.fmDo_performs h (fun w hw => ?_) _ rfl)
  simp only [List.mem_cons, List.not_mem_nil, or_false] at hw
  rcases hw with rfl | rfl | rfl | rfl
  · exact hop
  · exact hport
  · exact hvppb
  · exact hgo
theorem exec_fmUnbindVppb_mgr {port : Cell} {v : Fin 64} {m : Fin 3} {i : Nat} (hi : i = s.rd (F.INST_VPPB_TARGET port v))
    (hk : s.rd (F.INST_VPPB_KIND port v) = 1) (hop : s.judge (F.INST_BIND_OP i).addr (F.INST_BIND_OP i).lsb (F.INST_BIND_OP i).width 2 = none)
    (hmode : s.judge (F.INST_BIND_MODE i).addr (F.INST_BIND_MODE i).lsb (F.INST_BIND_MODE i).width m.val = none)
    (hgo : s.judge (F.INST_BIND_GO i).addr (F.INST_BIND_GO i).lsb (F.INST_BIND_GO i).width 1 = none) : exec (.fmUnbindVppb .mgr port v m) s =
      .next ((((s.wr (F.INST_BIND_OP i) 2).wr (F.INST_BIND_MODE i) m).unbindOp i m true).emit (.fm .mgr true [])) := by
  subst hi
  refine congrArg Outcome.next ?_
  unfold State.fmUnbindVppb
  refine (State.fmDo_performs h (fun w hw => ?_) _ rfl).trans ?_
  · simp only [List.mem_cons, List.not_mem_nil, or_false] at hw
    rcases hw with rfl | rfl | rfl
    · exact hop
    · exact hmode
    · exact hgo
  · simp only [hk]
variable {i : Inst} (hgo : s.judge (F.INST_BIND_GO i).addr (F.INST_BIND_GO i).lsb (F.INST_BIND_GO i).width 1 = none) (exts : List Ext)
include hgo
theorem exec_fmInitiateDcAdd_mgr (hst : s.instSt i ≠ 0) (hk : (s.owner i).key ≠ none) :
    exec (.fmInitiateDcAdd .mgr i 0 exts) s = .next ((s.dcAddOp i (exts.map (·.val))).emit (.fm .mgr true [])) := by
  refine congrArg Outcome.next ?_
  unfold State.fmDcAdd
  refine (State.fmDo_performs h (fun w hw => ?_) _ ?_).trans ?_
  · exact List.mem_singleton.1 hw ▸ hgo
  · simp [hst, State.ownerKey, State.giveKey_of_key hk]
  · simp [hst, State.ownerKey, State.giveKey_of_key hk]
theorem exec_fmInitiateDcRelease_mgr (force : Bool) (hst : s.instSt i = 3) :
    exec (.fmInitiateDcRelease .mgr i exts force) s = .next ((s.releaseOp i (exts.map (·.val)) force).emit (.fm .mgr true [])) := by
  refine congrArg Outcome.next ((State.fmDo_performs h (fun w hw => ?_) _ rfl).trans ?_)
  · exact List.mem_singleton.1 hw ▸ hgo
  · rw [if_pos hst]
end

/-! ### What the offers of capacity leave (O11) -/

section
variable {s : State} {a : Nat} (ha : ∀ j < 4096, F.INST_CAP_at j ≠ a)
include ha
theorem State.capUpdate_reg (i : Nat) : (s.capUpdate i).reg a = s.reg a := by
  unfold State.capUpdate
  split
  · rfl
  next hi =>
    have hne : F.INST_CAP_at i ≠ a := ha i (by omega)
    exact (State.reg_wr_ne _ _ hne).trans ((State.reg_wr_ne _ _ hne).trans (State.reg_wr_ne _ _ hne))
theorem State.offerReady_reg (o : Nat) : (s.offerReady o).reg a = s.reg a := by
  unfold State.offerReady State.offerExts
  extract_lets w ms t
  split
  · rfl
  · exact List.foldlRecOn (motive := fun u : State => u.reg a = s.reg a) _ _ rfl fun u hu i _ => (State.capUpdate_reg ha i).trans hu
end

/-! ### BIND (O11) -/

/-- A record whose vPPB is taken, before the module commit of its regions (R235). -/
def State.binding (s : State) (i port v : Nat) : State :=
  let s := ((s.wr (F.INST_INFO_STATE i) 2).wr (F.INST_INFO_HOST_PORT i) port).wr (F.INST_INFO_VPPB i) v
  let s := ((s.wr (F.INST_VPPB_KIND port v) 1).wr (F.INST_VPPB_STATE port v) 1).wr (F.INST_VPPB_TARGET port v) i
  (s.wr (F.INST_PORT_STATUS_BOUND port) (s.boundVppbs port).length).wr (F.INST_BIND_BUSY i) 1
/-- A record whose regions are in place (R235). -/
def State.bound (s : State) (i a v : Nat) : State :=
  (((s.emit (.hotAdd (Cell.of a) v)).wr (F.INST_VPPB_STATE a v) 2).wr (F.INST_INFO_STATE i) 3).wr (F.INST_BIND_BUSY i) 0
section
variable (s : State) (i : Nat) {port v : Nat}
theorem State.binding_pool : (s.binding i port v).pool = s.pool := by
  rw [State.binding, State.wr_pool, State.wr_pool, State.wr_pool, State.wr_pool, State.wr_pool, State.wr_pool, State.wr_pool, State.wr_pool]
theorem State.binding_sec : (s.binding i port v).sec = s.sec := by
  rw [State.binding, State.wr_sec, State.wr_sec, State.wr_sec, State.wr_sec, State.wr_sec, State.wr_sec, State.wr_sec, State.wr_sec]
theorem State.binding_reads (_ : port < 128) (_ : v < 64) : (s.binding i port v).rd (F.INST_INFO_HOST_PORT i) = port % 128 ∧
    (s.binding i port v).rd (F.INST_INFO_VPPB i) = v % 64 ∧
    (s.binding i port v).rd (F.INST_INFO_GROUPED i) = s.rd (F.INST_INFO_GROUPED i) ∧
    (s.binding i port v).rd (F.INST_VPPB_TARGET port v) = i % 4096 := by
  rw [State.binding]
  simp -implicitDefEqProofs (disch := omega) [F.INST_INFO_STATE, F.INST_INFO_HOST_PORT, F.INST_INFO_VPPB, F.INST_INFO_GROUPED, F.INST_INFO_at,
    F.INST_VPPB_KIND, F.INST_VPPB_STATE, F.INST_VPPB_TARGET, F.INST_VPPB_at, F.INST_PORT_STATUS_BOUND, F.INST_PORT_STATUS_at,
    F.INST_BIND_BUSY, F.INST_BIND_at, State.rd_wr_addr, State.rd_wr_bits, State.rd_wr_self]
theorem State.bound_reads (_ : v < 64) : (s.bound i port v).rd (F.INST_INFO_STATE i) = 3 ∧ (s.bound i port v).rd (F.INST_BIND_BUSY i) = 0 ∧
    (s.bound i port v).rd (F.INST_VPPB_STATE port v) = 2 ∧
    (s.bound i port v).rd (F.INST_VPPB_TARGET port v) = s.rd (F.INST_VPPB_TARGET port v) ∧
    (s.bound i port v).rd (F.INST_INFO_HOST_PORT i) = s.rd (F.INST_INFO_HOST_PORT i) ∧
    (s.bound i port v).rd (F.INST_INFO_GROUPED i) = s.rd (F.INST_INFO_GROUPED i) := by
  rw [State.bound]
  simp -implicitDefEqProofs (disch := omega) [F.INST_INFO_STATE, F.INST_INFO_HOST_PORT, F.INST_INFO_GROUPED, F.INST_INFO_at, F.INST_VPPB_STATE,
    F.INST_VPPB_TARGET, F.INST_VPPB_at, F.INST_BIND_BUSY, F.INST_BIND_at, State.rd_wr_addr, State.rd_wr_bits, State.rd_wr_self]
end
theorem cap_addr_ne_info (i : Nat) : ∀ j < 4096, F.INST_CAP_at j ≠ F.INST_INFO_at i := by
  intro j _
  simp only [F.INST_CAP_at, F.INST_INFO_at]
  omega
theorem cap_addr_ne_bind (i : Nat) : ∀ j < 4096, F.INST_CAP_at j ≠ F.INST_BIND_at i := by
  intro j _
  simp only [F.INST_CAP_at, F.INST_BIND_at]
  omega
theorem cap_addr_ne_vppb (a : Nat) {v : Nat} (_ : v < 64) : ∀ j < 4096, F.INST_CAP_at j ≠ F.INST_VPPB_at a v := by
  intro j _
  simp only [F.INST_CAP_at, F.INST_VPPB_at]
  omega
/-- A record outside a group is bound, and offered what is scrubbed of its own. -/
theorem State.barDone_bind {s : State} {i a v : Nat} (ha : s.rd (F.INST_INFO_HOST_PORT i) = a) (hv : s.rd (F.INST_INFO_VPPB i) = v)
    (hg : s.rd (F.INST_INFO_GROUPED i) = 0) (hv' : v < 64) : s.barDone (.bind i) = (s.bound i a v).offerReady i := by
  obtain ⟨-, -, -, -, -, hgrouped⟩ := s.bound_reads i hv'
  have hno : ((s.bound i a v).offerReady i).rd (F.INST_INFO_GROUPED i) = 0 :=
    (State.rd_of_reg (State.offerReady_reg (cap_addr_ne_info i) i)).trans (hgrouped.trans hg)
  unfold State.barDone
  dsimp only
  rw [ha, hv]
  exact if_neg (State.not_rdb hno)
/-- The change of a record without regions is in place at once. -/
theorem State.regionCommit_bind {s : State} {i : Nat} (hr : (s.owner i).regions = []) (hfull : ∀ c : Nat, (s.regions c).length ≤ 1024) (is : List Nat)
    (a : Nat) : s.regionCommit (.bind i) is ((s.regionCells a).flatMap (fun c => s.installSets c i)) = s.barDone (.bind i) := by
  have hsets : (s.regionCells a).flatMap (fun c => s.installSets c i) = [] :=
    List.flatMap_eq_nil_iff.2 fun c _ => by simp [State.installSets, State.placeSets, hr]
  have hroom : s.tableFull (.bind i) = none := by
    simp [State.tableFull, hr, hfull]
  rw [State.regionCommit, hsets, hroom]
  rfl
theorem State.groupDomainOk_of_ungrouped {s : State} {i : Nat} (h : s.rd (F.INST_INFO_GROUPED i) = 0) (port : Nat) : s.groupDomainOk i port = true := by
  simp [State.groupDomainOk, State.rdb, h]
theorem State.flag_reads_one (s : State) (i : Nat) :
    (s.flag (F.INST_BIND_REFUSED i)).rd (F.INST_BIND_REFUSED i) = 1 ∧ (s.flag (F.INST_BIND_REFUSED i)).instSt i = s.instSt i := by
  have hrd (f : Fld) : (s.flag (F.INST_BIND_REFUSED i)).rd f = (s.wr (F.INST_BIND_REFUSED i) 1).rd f := State.rd_congr (s.flag_regs _) f
  refine ⟨(hrd _).trans (State.rd_wr_self _ _ (by decide)), (hrd _).trans (State.rd_wr_ne _ _ ?_)⟩
  simp only [F.INST_BIND_REFUSED, F.INST_BIND_at, F.INST_INFO_STATE, F.INST_INFO_at]
  omega
theorem exec_bind_sp (i : Inst) (s : State) : exec (.bind .sp i) s =
    .next (s.bindOp i (s.rd (F.INST_BIND_PORT i)) (s.rd (F.INST_BIND_VPPB i))) := rfl
section
variable {s : State} {i port v : Nat} (hb : s.rd (F.INST_BIND_BUSY i) = 0)
include hb
theorem State.bindOp_refused (h : s.instSt i ≠ 1) : s.bindOp i port v = s.flag (F.INST_BIND_REFUSED i) := by
  unfold State.bindOp
  rw [if_neg (State.not_rdb hb)]
  exact if_pos (.inl h)
theorem State.bindOp_binds (h1 : s.instSt i = 1) (hrole : s.roleOf (Cell.of port) = .host) (hanc : (s.anchorOf (Cell.of port)).val = port)
    (hkind : s.rd (F.INST_VPPB_KIND port v) = 0) (hroom : (s.boundVppbs port).length < 64) (hkey : (s.owner i).key ≠ none)
    (hr : (s.owner i).regions = []) (hg : s.rd (F.INST_INFO_GROUPED i) = 0) (hfull : ∀ c : Nat, (s.regions c).length ≤ 1024) (hp : port < 128)
    (hv : v < 64) : s.bindOp i port v = ((s.binding i port v).bound i port v).offerReady i := by
  have hok : ¬ (s.instSt i ≠ 1 ∨ s.roleOf (Cell.of port) ≠ .host ∨ (s.anchorOf (Cell.of port)).val ≠ port ∨ s.rd (F.INST_VPPB_KIND port v) ≠ 0
      ∨ (s.boundVppbs port).length ≥ 64 ∨ (!s.groupDomainOk i port) = true) :=
    fun h => h.elim (· h1) (·.elim (· hrole) (·.elim (· hanc) (·.elim (· hkind) (·.elim (Nat.not_le.2 hroom)
      (by simp [State.groupDomainOk_of_ungrouped hg])))))
  obtain ⟨hport, hvppb, hgrouped, -⟩ := s.binding_reads i hp hv
  have hreg : ((s.binding i port v).owner i).regions = [] := by rw [State.owner, State.binding_pool, ← State.owner, hr]
  have hlen : ∀ c : Nat, ((s.binding i port v).regions c).length ≤ 1024 := fun c => by
    rw [State.regions, State.binding_sec, ← State.regions]
    exact hfull c
  calc s.bindOp i port v
    _ = (s.binding i port v).regionCommit (.bind i) [i]
        (((s.binding i port v).regionCells port).flatMap (fun c => (s.binding i port v).installSets c i)) := by
      unfold State.bindOp
      rw [if_neg (State.not_rdb hb), if_neg hok, State.giveKey_of_key hkey]
      rfl
    _ = (s.binding i port v).barDone (.bind i) := State.regionCommit_bind hreg hlen _ _
    _ = ((s.binding i port v).bound i port v).offerReady i :=
      State.barDone_bind (hport.trans (Nat.mod_eq_of_lt hp)) (hvppb.trans (Nat.mod_eq_of_lt hv)) (hgrouped.trans hg) hv
end

/-! ### UNBIND (O11) -/

theorem exec_unbindKeep_sp (i : Inst) (s : State) : exec (.unbindKeep .sp i) s = .next (s.unbindOp i (s.rd (F.INST_BIND_MODE i)) true) := rfl
theorem exec_unbindRelease_sp (i : Inst) (s : State) : exec (.unbindRelease .sp i) s = .next (s.unbindOp i (s.rd (F.INST_BIND_MODE i)) false) := rfl
section
variable {s : State} {i : Nat} {mode : Nat} (keep : Bool) (hb : s.rd (F.INST_BIND_BUSY i) = 0)
include hb
theorem State.unbindOp_refused (h3 : s.instSt i ≠ 3) (h9 : s.instSt i ≠ 9) : s.unbindOp i mode keep = s.flag (F.INST_BIND_REFUSED i) := by
  unfold State.unbindOp
  rw [if_neg (State.not_rdb hb)]
  exact if_pos ⟨h3, h9⟩
/-- A managed removal of a bound record waits for the host to disable its slot (R220). -/
theorem State.unbindOp_waits {a v : Nat} (ha : a = s.rd (F.INST_INFO_HOST_PORT i)) (hv : v = s.rd (F.INST_INFO_VPPB i)) (h3 : s.instSt i = 3)
    (hm : mode = 0 ∨ mode = 3) : (s.unbindOp i mode keep).rd (F.INST_INFO_STATE i) = 8 ∧
      mget (s.unbindOp i mode keep).pool.slotWait (a * 64 + v) = some (some (i, keep)) := by
  have hv64 : v < 64 := hv ▸ s.rd_lt _
  have hwait : (if mode = 3 then 0 else mode) = 0 ∧ s.instSt i = 3 := by
    refine ⟨?_, h3⟩
    split
    · rfl
    next hne => exact hm.resolve_right hne
  unfold State.unbindOp
  rw [if_neg (State.not_rdb hb), if_neg (by simp [h3]), ← ha, ← hv]
  extract_lets a v m wait gone u t
  rw [if_pos hwait]
  refine ⟨?_, mget_mput_self _ _ _⟩
  rw [State.rd_mk]
  simp -implicitDefEqProofs (disch := omega) [t, F.INST_INFO_STATE, F.INST_INFO_at, F.INST_VPPB_STATE, F.INST_VPPB_at, F.INST_BIND_BUSY, F.INST_BIND_at,
    State.rd_wr_addr, State.rd_wr_self]
end

/-! ### Answers of the host about capacity (O11) -/

section
variable {s : State} {i : Inst} {exts : List Ext}
theorem exec_dcAddResponse_none (h : mgetD [] s.pool.dcOpen i.val = []) : exec (.dcAddResponse i exts) s = .next s := by
  refine congrArg Outcome.next ?_
  unfold State.addResponse
  rw [h]
/-- A host that takes every extent of its oldest offer. -/
theorem exec_dcAddResponse_takes {l : List (Nat × List Nat)} (h : mgetD [] s.pool.dcOpen i.val = (i.val, exts.map (·.val)) :: l)
    (hown : ∀ e ∈ exts, e.val ∈ (s.owner i).exts) : ∃ t, exec (.dcAddResponse i exts) s = .next t ∧ mgetD [] t.pool.dcOpen i.val = l ∧
      ∀ e ∈ exts, e.val ∉ (t.owner i).offered ∧ e.val ∈ (t.owner i).accepted := by
  have hyes : (exts.map (·.val)).filter (fun e => (exts.map (·.val)).contains e && (s.owner i).exts.contains e) = exts.map (·.val) :=
    List.filter_eq_self.2 fun e he => by
      obtain ⟨x, hx, rfl⟩ := List.mem_map.1 he
      simpa [hown x hx] using ⟨x, hx, rfl⟩
  have hno : (exts.map (·.val)).filter (fun e => !(exts.map (·.val)).contains e && (s.owner i).exts.contains e) = [] :=
    List.filter_eq_nil_iff.2 fun e he => by
      rw [List.contains_iff_mem.2 he]
      simp
  refine ⟨_, rfl, ?_⟩
  unfold State.addResponse
  simp -zeta only [h]
  extract_lets o yes no _ t u w
  have hyes' : yes = exts.map (·.val) := hyes
  have hno' : no = [] := hno
  rw [if_pos (.inl (by rw [hno']; rfl)), State.owner, State.capUpdate_pool]
  refine ⟨mgetD_mset_self .., fun e he => ?_⟩
  have hown : mgetD {} u.pool.own i.val = _ := mgetD_mset_self ..
  have hmem : e.val ∈ yes := hyes' ▸ List.mem_map.2 ⟨e, he, rfl⟩
  rw [hown]
  refine ⟨fun hoff => ?_, ?_⟩
  · simp [hmem] at hoff
  · by_cases hacc : e.val ∈ o.accepted
    · exact List.mem_append_left _ hacc
    · exact List.mem_append_right _ (List.mem_filter.2 ⟨hmem, by simpa using hacc⟩)
theorem exec_dcReleaseResponse_unasked (h : ∀ e ∈ exts, e.val ∉ mgetD [] s.pool.dcGiving i.val) : exec (.dcReleaseResponse i exts) s = .next s := by
  have hmine : (mgetD [] s.pool.dcGiving i.val).filter (fun e => (exts.map (·.val)).contains e) = [] :=
    List.filter_eq_nil_iff.2 fun e he => by
      simp only [List.contains_iff_mem, List.mem_map, not_exists, not_and]
      exact fun x hx hxe => h x hx (hxe ▸ he)
  exact congrArg Outcome.next (if_pos (by rw [hmine]; rfl))
/-- The host has answered all that it was asked to release. -/
def State.released (s : State) (i : Nat) : State := { s with pool.dcGiving := mdel s.pool.dcGiving i }
theorem State.released_self (s : State) (i : Nat) : mgetD [] (s.released i).pool.dcGiving i = [] :=
  congrArg (Option.getD · []) (mget_mdel_self s.pool.dcGiving i)
theorem State.released_ne (s : State) {i j : Nat} (h : i ≠ j) : mgetD [] (s.released i).pool.dcGiving j = mgetD [] s.pool.dcGiving j :=
  congrArg (Option.getD · []) (mget_mdel_ne s.pool.dcGiving h)
theorem State.recallFor_nil (s : State) (o i : Nat) : s.recallFor o i [] = s := rfl
theorem State.recallFor_of_ne (s : State) (o i : Nat) {l : List Nat} (h : l ≠ []) : s.recallFor o i l = s.startSweep (.release o) i l none :=
  if_neg (by simpa using h)
section
variable (hne : exts ≠ []) (h : mgetD [] s.pool.dcGiving i.val = exts.map (·.val))
include hne h
/-- A host that releases what it was asked to has its own extents recalled, and those of its group that no other member still holds. -/
theorem exec_dcReleaseResponse_all {own due : List Nat} {g : Nat} (hown : own = (exts.map (·.val)).filter (fun e => (s.owner i).exts.contains e))
    (hg : g = 4096 + s.rd (F.INST_INFO_GROUP i)) (hdue : due = (exts.map (·.val)).filter (fun e => !own.contains e &&
      !(s.hostsOf g).any (fun j => (mgetD [] (s.released i).pool.dcGiving j).contains e))) :
    exec (.dcReleaseResponse i exts) s = .next (((s.released i).recallFor i i own).recallFor g i due) := by
  have hself : (exts.map (·.val)).filter (fun e => (exts.map (·.val)).contains e) = exts.map (·.val) :=
    List.filter_eq_self.2 fun e he => List.contains_iff_mem.2 he
  have hrest : (exts.map (·.val)).filter (fun e => !(exts.map (·.val)).contains e) = [] :=
    List.filter_eq_nil_iff.2 fun e he => by
      rw [List.contains_iff_mem.2 he]
      simp
  have hset : mset [] s.pool.dcGiving i.val [] = mdel s.pool.dcGiving i.val := if_pos rfl
  subst hdue hown hg
  refine congrArg Outcome.next ?_
  dsimp only
  rw [h, hself, hrest, hset, if_neg (by simp [hne])]
  rfl
theorem exec_dcReleaseResponse_own (hown : ∀ e ∈ exts, e.val ∈ (s.owner i).exts) : exec (.dcReleaseResponse i exts) s =
    .next ((s.released i).startSweep (.release i) i (exts.map (·.val)) none) := by
  have hall : (exts.map (·.val)).filter (fun e => (s.owner i).exts.contains e) = exts.map (·.val) :=
    List.filter_eq_self.2 fun e he => by
      obtain ⟨x, hx, rfl⟩ := List.mem_map.1 he
      exact List.contains_iff_mem.2 (hown x hx)
  have hnone : (exts.map (·.val)).filter (fun e => !(exts.map (·.val)).contains e &&
      !(s.hostsOf (4096 + s.rd (F.INST_INFO_GROUP i))).any (fun j => (mgetD [] (s.released i).pool.dcGiving j).contains e)) = [] :=
    List.filter_eq_nil_iff.2 fun e he => by
      rw [List.contains_iff_mem.2 he]
      simp
  rw [exec_dcReleaseResponse_all hne h hall.symm rfl hnone.symm, State.recallFor_nil, State.recallFor_of_ne _ _ _ (by simpa using hne)]
theorem exec_dcReleaseResponse_shared {g : Nat} (hg : g = 4096 + s.rd (F.INST_INFO_GROUP i)) (hown : ∀ e ∈ exts, e.val ∉ (s.owner i).exts)
    (hlast : ∀ j ∈ s.hostsOf g, j ≠ i.val → ∀ e ∈ exts, e.val ∉ mgetD [] s.pool.dcGiving j) : exec (.dcReleaseResponse i exts) s =
    .next ((s.released i).startSweep (.release g) i (exts.map (·.val)) none) := by
  have hnone : (exts.map (·.val)).filter (fun e => (s.owner i).exts.contains e) = [] :=
    List.filter_eq_nil_iff.2 fun e he => by
      obtain ⟨x, hx, rfl⟩ := List.mem_map.1 he
      exact fun hc => hown x hx (List.contains_iff_mem.1 hc)
  have hfree (e : Nat) (he : e ∈ exts.map (·.val)) (j : Nat) (hj : j ∈ s.hostsOf g) : e ∉ mgetD [] (s.released i).pool.dcGiving j := by
    obtain ⟨x, hx, rfl⟩ := List.mem_map.1 he
    by_cases hji : j = i.val
    · rw [hji, State.released_self]
      exact List.not_mem_nil
    · rw [State.released_ne s (Ne.symm hji)]
      exact hlast j hj hji x hx
  have hall : (exts.map (·.val)).filter (fun e => !([] : List Nat).contains e &&
      !(s.hostsOf g).any (fun j => (mgetD [] (s.released i).pool.dcGiving j).contains e)) = exts.map (·.val) :=
    List.filter_eq_self.2 fun e he => by
      simpa using fun j hj => hfree e he j hj
  rw [exec_dcReleaseResponse_all hne h hnone.symm hg hall.symm, State.recallFor_nil,
    State.recallFor_of_ne _ _ _ (by simpa using hne)]
end
end

/-! ### A port comes up (O11) -/

theorem laneStatus_addr_ne (l c : Nat) : F.LANE_STATUS_at l ≠ F.LANE_PORT_STATUS_at c := by
  simp only [F.LANE_STATUS_at, F.LANE_PORT_STATUS_at]
  omega
theorem laneTxeq_addr_ne (l c : Nat) : F.LANE_TXEQ_at l ≠ F.LANE_PORT_STATUS_at c := by
  simp only [F.LANE_TXEQ_at, F.LANE_PORT_STATUS_at]
  omega
/-- Domains write no register of the ports. -/
theorem State.setDomain_portReg (s : State) {n : Nat} (hn : n < 432) (st c : Nat) :
    (s.setDomain n st).reg (F.LANE_PORT_STATUS_at c) = s.reg (F.LANE_PORT_STATUS_at c) := by
  obtain ⟨-, hhi⟩ := domFld_addr hn
  have hwr : (s.wr (domFld n) st).reg (F.LANE_PORT_STATUS_at c) = s.reg (F.LANE_PORT_STATUS_at c) :=
    s.reg_wr_ne st (by simp only [F.LANE_PORT_STATUS_at]; omega)
  unfold State.setDomain
  split
  · rfl
  · dsimp only
    split
    · exact (State.reg_mk (s.wr (domFld n) st) _).trans hwr
    · exact hwr
theorem State.setDomains_portReg (s : State) (c : Nat) : s.setDomains.reg (F.LANE_PORT_STATUS_at c) = s.reg (F.LANE_PORT_STATUS_at c) := by
  unfold State.setDomains
  split
  · rfl
  · refine List.foldlRecOn (motive := fun u : State => u.reg (F.LANE_PORT_STATUS_at c) = s.reg (F.LANE_PORT_STATUS_at c)) _ _ rfl fun u hu n hn => ?_
    have hn := List.mem_range.1 hn
    split
    · split
      · exact (u.setDomain_portReg hn 1 c).trans hu
      · exact hu
    · exact (u.setDomain_portReg hn 0 c).trans hu
theorem State.showLanes_portReg (s : State) (a : Cell) (used pwr c : Nat) : (s.showLanes a used pwr).reg (F.LANE_PORT_STATUS_at c) =
    (s.wr (F.LANE_PORT_STATUS_LANES_USED a) used).reg (F.LANE_PORT_STATUS_at c) := by
  refine (State.setDomains_portReg _ c).trans ?_
  refine List.foldlRecOn (motive := fun u : State => u.reg (F.LANE_PORT_STATUS_at c) = (s.wr (F.LANE_PORT_STATUS_LANES_USED a) used).reg _) _ _ rfl
    fun u hu j _ => ?_
  exact (State.regsBut.ne (b := F.LANE_STATUS_at (4 * a.val + j)) (.wr (.wr (.wr (.wr (.refl _ u) (.head _)) (.head _)) (.head _)) (.head _)) _
    (laneStatus_addr_ne _ c).symm).trans hu
theorem State.equalise_portReg (s : State) (l c : Nat) : (s.equalise l).reg (F.LANE_PORT_STATUS_at c) = s.reg (F.LANE_PORT_STATUS_at c) := by
  have h : s.regsBut [F.LANE_TXEQ_at l] (s.equalise l) :=
    .wr (.wr (.wr (.wr (.wr (.wr (.same rfl) (.head _)) (.head _)) (.head _)) (.head _)) (.head _)) (.head _)
  exact h.ne _ (laneTxeq_addr_ne l c).symm
theorem State.portL0_reads (s : State) (c : Cell) (w rate proto : Nat) (rev : Bool) :
    (s.portL0 c w rate proto rev).rd (F.LANE_PORT_STATUS_STATE c) = 3 ∧
      (s.portL0 c w rate proto rev).rd (F.LANE_PORT_STATUS_WIDTH c) = w % 2 ^ (F.LANE_PORT_STATUS_WIDTH c).width := by
  unfold State.portL0
  extract_lets u t
  have hreg := t.showLanes_portReg c (laneMask (t.portWidth c) w rev) 2 c
  rw [State.rd_of_reg (f := F.LANE_PORT_STATUS_STATE c) hreg, State.rd_of_reg (f := F.LANE_PORT_STATUS_WIDTH c) hreg]
  simp (disch := omega) [t, u, State.wrb, F.LANE_PORT_STATUS_WIDTH, F.LANE_PORT_STATUS_RATE, F.LANE_PORT_STATUS_PROTO, F.LANE_PORT_STATUS_STATE,
    F.LANE_PORT_STATUS_REVERSED, F.LANE_PORT_STATUS_LANES_USED, F.LANE_PORT_STATUS_at, F.LANE_PORT_CTRL_BUSY, F.LANE_PORT_CTRL_at,
    State.rd_wr_addr, State.rd_wr_bits, State.rd_wr_self]
/-- What a port that has come up keeps while its lanes and its role follow: its link, and the image. -/
def State.keepsLink (s t : State) (c : Cell) : Prop := t.img = s.img ∧ t.reg (F.LANE_PORT_STATUS_at c) = s.reg (F.LANE_PORT_STATUS_at c)
theorem State.keepsLink.equalise {s t : State} {c : Cell} (h : s.keepsLink t c) (l : Nat) : s.keepsLink (t.equalise l) c :=
  ⟨(State.equalise_keeps (P := 133955583) rfl (Keeps.refl t) l).img_eq.trans h.1, (t.equalise_portReg l c).trans h.2⟩
theorem State.keepsLink.wr {s t : State} {c : Cell} (h : s.keepsLink t c) {f : Fld} (hf : f.addr ≠ F.LANE_PORT_STATUS_at c) (n : Nat) :
    s.keepsLink (t.wr f n) c := ⟨(t.wr_img f n).trans h.1, (t.reg_wr_ne n hf).trans h.2⟩
theorem State.keepsLink.lane {s t : State} {c : Cell} (h : s.keepsLink t c) (x : LaneSt) : s.keepsLink { t with lane := x } c := ⟨h.1, h.2⟩
theorem State.keepsLink.home {s t : State} {c : Cell} (h : s.keepsLink t c) (x : HomeSt) : s.keepsLink { t with home := x } c := ⟨h.1, h.2⟩
theorem State.keepsLink.pool {s t : State} {c : Cell} (h : s.keepsLink t c) (x : PoolSt) : s.keepsLink { t with pool := x } c := ⟨h.1, h.2⟩
theorem info_addr_ne_port (i : Nat) (c : Cell) : F.INST_INFO_at i ≠ F.LANE_PORT_STATUS_at c := by
  have hc := c.isLt
  simp only [F.INST_INFO_at, F.LANE_PORT_STATUS_at]
  omega
theorem State.autoBind_of_noRules {s : State} {trigger : Nat} {c : Cell} (h : s.rulesFor trigger c = []) (run : State → AbRule → Option State) :
    s.autoBind trigger c run = s := by
  unfold State.autoBind
  rw [h]
  exact ite_self _
theorem State.rulesFor_congr {s t : State} (h : t.img = s.img) (trigger : Nat) (a : Cell) : t.rulesFor trigger a = s.rulesFor trigger a := by
  rw [State.rulesFor, h, ← State.rulesFor]
theorem State.keepsLink.rulesFor {s t : State} {c : Cell} (h : s.keepsLink t c) (trigger : Nat) (a : Cell) :
    t.rulesFor trigger a = s.rulesFor trigger a := State.rulesFor_congr h.1 trigger a
theorem State.portL0_rulesFor (s : State) (c : Cell) (w rate proto : Nat) (rev : Bool) (trigger : Nat) (a : Cell) :
    (s.portL0 c w rate proto rev).rulesFor trigger a = s.rulesFor trigger a :=
  State.rulesFor_congr (State.portL0_keeps (P := 133955583) rfl (Keeps.refl s) c w rate proto rev).img_eq trigger a
/-- A port that trains with no auto-bind rule at it comes up in L0, and nothing that follows takes its link away. -/
theorem exec_portLinkUp_trains {c : Cell} {x : LinkUp} {s : State} (hi : s.roleOf c ≠ .idle) (ho : s.roleOf c ≠ .onora) (ha : s.anchorOf c = c)
    (hm : portsOn s.mode = true) (hf : s.cellFenced c = false) (href : s.rd (F.LANE_PORT_STATUS_REF_LOST c) = 0)
    (hrules : ∀ n, s.rulesFor n c = []) {rate w : Nat} (hrate : rate = trainRate (s.roleOf c) x.pcie x.rate (s.rd (F.LANE_PORT_CFG_MAX_RATE c)))
    (hw : w = trainWidth x.width (s.rd (F.LANE_PORT_CFG_MAX_WIDTH c))) (hrate0 : rate ≠ 0) (hw0 : w ≠ 0)
    (hst : s.rd (F.LANE_PORT_STATUS_STATE c) < 3 ∨ 6 < s.rd (F.LANE_PORT_STATUS_STATE c)) : ∃ t, exec (.portLinkUp c x) s = .next t ∧
      (s.portL0 c w rate (protoOf (s.roleOf c) x.pcie x.lopt rate) (x.reverses && x.rev)).keepsLink t c := by
  refine ⟨_, rfl, ?_⟩
  extract_lets r rate' w' noRef rev u _ v y hs _ z host _ mem
  subst hrate hw
  have href' : noRef = false := by simp [noRef, State.rdb, href]
  have hst' : ¬ (3 ≤ s.rd (F.LANE_PORT_STATUS_STATE c) ∧ s.rd (F.LANE_PORT_STATUS_STATE c) ≤ 6) := by omega
  rw [if_neg (by simp only [r, rate', w', hi, ho, ha, hm, hf, href', hrate0, hw0, hst']; simp)]
  have hv : u.keepsLink v c := State.keepsLink.lane ⟨rfl, rfl⟩ _
  have hy : u.keepsLink y c := by
    refine List.foldlRecOn (motive := fun t : State => u.keepsLink t c) _ _ hv fun t ht j _ => ?_
    exact (ht.wr (laneStatus_addr_ne _ c) _).equalise _
  have hz : u.keepsLink z c := by
    dsimp only [z]
    split
    · exact hy
    · exact hy.home _
  have hhost : u.keepsLink host c := by
    refine List.foldlRecOn (motive := fun t : State => u.keepsLink t c) _ _ hz fun t ht i _ => ?_
    split
    · exact ht.wr (info_addr_ne_port _ c) _
    · exact ht
  have hmem : u.keepsLink mem c := hy.pool _
  have hno {t : State} (ht : u.keepsLink t c) (n : Nat) : t.rulesFor n c = [] := by
    exact (ht.rulesFor n c).trans ((s.portL0_rulesFor ..).trans (hrules n))
  generalize r = role
  split
  · rw [State.autoBind_of_noRules (hno hhost 1)]
    exact hhost
  · rw [State.autoBind_of_noRules (hno hmem 3)]
    exact hmem
  · rw [State.autoBind_of_noRules (hno hy 5)]
    exact hy
  · exact hy
theorem State.downAs_of_role {s : State} {c : Cell} {r : Role} (hr : s.roleOf c = r) (ha : s.anchorOf c = c) : s.downAs c r = s.linkDown c 1 0 :=
  if_pos ⟨hr, ha⟩

/-! ### The commands together (O11) -/

/-- Settles O11: each command by the lemma that says once what it does under the clause's conditions, and the fields by what its outcome reads. -/
theorem poolAndPortCommandsComplete : Obligations.PoolAndPortCommandsComplete := by
  refine ⟨fun port i s h hr => ⟨?vcs, ?dcd, ?region⟩, fun s h => ⟨fun i port v hop hport hvppb hgo => exec_fmBindVppb_mgr h hop hport hvppb hgo,
      fun port v m i hi hk hop hmode hgo => exec_fmUnbindVppb_mgr h hi hk hop hmode hgo,
      fun i exts hgo => ⟨exec_fmInitiateDcAdd_mgr h hgo exts, exec_fmInitiateDcRelease_mgr h hgo exts⟩⟩,
    fun i port v s hport hvppb hb => ⟨fun h => ?unfit, fun h1 hrole hanc hkind hroom hkey hr hg hfull => ?binds⟩,
    fun i a v s ha hv hb => ⟨fun h3 h9 => ?unbound, fun h3 hm => ⟨?keeps, ?releases⟩⟩,
    fun i exts s => ⟨fun l h hown => exec_dcAddResponse_takes h hown, exec_dcAddResponse_none, exec_dcReleaseResponse_unasked,
      fun hne h => ⟨exec_dcReleaseResponse_own hne h, fun g => exec_dcReleaseResponse_shared hne h⟩⟩,
    fun c x s hi ho ha hm hf href hrules hrate hw hst => ?up,
    fun c s ha => ⟨fun hr => congrArg Outcome.next (State.downAs_of_role hr ha), fun hr => congrArg Outcome.next (State.downAs_of_role hr ha),
      fun hr => congrArg Outcome.next (State.downAs_of_role hr ha)⟩⟩
  case vcs => exact congrArg Outcome.next (State.fmQuery_answers h hr _)
  case dcd =>
    refine ⟨_, _, congrArg Outcome.next (State.fmQuery_answers h hr _), (List.monotone_filter_right _ fun e he => ?_).length_le⟩
    have h2 : e.2 = 2 := beq_iff_eq.1 he
    rw [h2]
    rfl
  case region => exact ⟨_, congrArg Outcome.next (State.fmQuery_answers h hr _), rfl⟩
  case unfit =>
    rw [exec_bind_sp, State.bindOp_refused hb h]
    exact ⟨_, rfl, s.flag_reads_one i⟩
  case binds =>
    have hp : port < 128 := hport ▸ s.rd_lt _
    have hv : v < 64 := hvppb ▸ s.rd_lt _
    obtain ⟨hhost, -, -, htarget⟩ := s.binding_reads i hp hv
    obtain ⟨hst, hbusy, hvst, hvtarget, hvhost, -⟩ := (s.binding i port v).bound_reads i hv
    have hinfo {f : Fld} (hf : f.addr = F.INST_INFO_at i) := State.rd_of_reg (f := f)
      (State.offerReady_reg (s := (s.binding i port v).bound i port v) (hf ▸ cap_addr_ne_info i) i)
    have hvp {f : Fld} (hf : f.addr = F.INST_VPPB_at port v) := State.rd_of_reg (f := f)
      (State.offerReady_reg (s := (s.binding i port v).bound i port v) (hf ▸ cap_addr_ne_vppb port hv) i)
    have hbind := State.rd_of_reg (f := F.INST_BIND_BUSY i)
      (State.offerReady_reg (s := (s.binding i port v).bound i port v) (cap_addr_ne_bind i) i)
    rw [exec_bind_sp, ← hport, ← hvppb, State.bindOp_binds hb h1 hrole hanc hkind hroom hkey hr hg hfull hp hv]
    exact ⟨_, rfl, (hinfo rfl).trans hst, (hinfo rfl).trans (hvhost.trans (hhost.trans (Nat.mod_eq_of_lt hp))), hbind.trans hbusy,
      (hvp rfl).trans hvst, (hvp rfl).trans (hvtarget.trans (htarget.trans (Nat.mod_eq_of_lt i.isLt)))⟩
  case unbound =>
    rw [exec_unbindKeep_sp, State.unbindOp_refused true hb h3 h9]
    exact ⟨_, rfl, s.flag_reads_one i⟩
  case keeps => exact ⟨_, exec_unbindKeep_sp i s, State.unbindOp_waits true hb ha hv h3 hm⟩
  case releases => exact ⟨_, exec_unbindRelease_sp i s, State.unbindOp_waits false hb ha hv h3 hm⟩
  case up =>
    obtain ⟨t, he, -, hreg⟩ := exec_portLinkUp_trains hi ho ha hm hf href hrules rfl rfl hrate hw hst
    obtain ⟨hst', hwidth⟩ := s.portL0_reads c (trainWidth x.width (s.rd (F.LANE_PORT_CFG_MAX_WIDTH c)))
      (trainRate (s.roleOf c) x.pcie x.rate (s.rd (F.LANE_PORT_CFG_MAX_RATE c))) _ _
    exact ⟨t, he, (State.rd_of_reg hreg).trans hst', (State.rd_of_reg hreg).trans hwidth⟩

end Sys2Proof.Machine

/-! # Isolation: the root device key -/

namespace Sys2Proof.Machine
open Host (Outcome)

/-! ### The fused root device key over every step (O33) -/

/-- The idle cycle keeps what Safety names, the fused key with it. -/
theorem State.tick_key {s : State} {k : Nat} (h : s.img.rootKey = some k) : s.tick.img.rootKey = some k :=
  (State.tick_keeps (P := 75230751) (Nat.and_self _) (Keeps.refl s)).key k h

/-- Settles O33: a step is the idle cycle, or the command in front on a state that differs in its queue alone; each keeps a fused key. -/
theorem rootKeyIsNeverChanged : Obligations.RootKeyIsNeverChanged := by
  intro s t k hkey hstep
  unfold step at hstep
  split at hstep
  case h_1 =>
    obtain rfl : s.tick = t := Outcome.next.inj hstep
    exact State.tick_key hkey
  case h_2 c rest _ =>
    have hfront : ({ s with pending := rest } : State).img.rootKey = some k := hkey
    exact exec_key hstep hfront

end Sys2Proof.Machine

/-! # Serial lanes: TEST_ENTER at an unnamed rate, and the manager port's lanes -/

namespace Sys2Proof.Machine
open Host (Outcome)

/-! ### TEST_ENTER with a code that names no rate (O14) -/

/-- Codes 8 to 15 of the four-bit TEST_RATE name no rate: TEST_ENTER is refused in every mode (R308, log 79). -/
theorem State.testEnter_of_rate_unnamed {s : State} {c : Cell} (hb : s.rd (F.LANE_PORT_CTRL_BUSY c) = 0)
    (hst : s.rd (F.LANE_PORT_STATUS_STATE c) ≠ 6) (hr : 7 < s.rd (F.LANE_PORT_CTRL_TEST_RATE c)) :
    s.testEnter c = s.flag (F.LANE_PORT_CTRL_TEST_REFUSED c) := by
  have hrate : max 1 (s.rd (F.LANE_PORT_CTRL_TEST_RATE c)) > 7 := lt_max_of_lt_right hr
  unfold State.testEnter
  rw [if_neg (not_or.2 ⟨State.not_rdb hb, hst⟩), if_pos (.inr (.inl hrate))]
/-- A refused TEST_ENTER leaves the port in its state. -/
theorem State.rd_portState_testRefused (s : State) (c : Cell) :
    (s.flag (F.LANE_PORT_CTRL_TEST_REFUSED c)).rd (F.LANE_PORT_STATUS_STATE c) = s.rd (F.LANE_PORT_STATUS_STATE c) :=
  State.rd_of_reg (s.reg_flag_ne (by simp [F.LANE_PORT_CTRL_TEST_REFUSED, F.LANE_PORT_CTRL_at, F.LANE_PORT_STATUS_STATE, F.LANE_PORT_STATUS_at]))

/-- Refutes O14: its clause on TEST_ENTER in SELF_TEST excludes TEST_RATE 7 alone, while the four-bit field also holds 8 to 15, which name no
rate and are refused. The counterexample is the port of cell 0 after reset, in SELF_TEST with TEST_RATE 8. -/
theorem not_laneCommandsComplete : ¬ Obligations.LaneCommandsComplete := by
  unfold Obligations.LaneCommandsComplete
  rintro ⟨-, -, -, -, htest, -⟩
  obtain ⟨s, hmode, hrole, hbusy, hstate, hrate⟩ : ∃ s : State, s.mode = .selfTest ∧ s.roleOf 0 ≠ .onora ∧
      s.rd (F.LANE_PORT_CTRL_BUSY (0 : Cell)) = 0 ∧ s.rd (F.LANE_PORT_STATUS_STATE (0 : Cell)) = 0 ∧
      s.rd (F.LANE_PORT_CTRL_TEST_RATE (0 : Cell)) = 8 :=
    ⟨State.wr { State.reset with mode := .selfTest } (F.LANE_PORT_CTRL_TEST_RATE 0) 8, rfl, by decide, by decide, by decide,
      State.rd_wr_same _ _ (by decide)⟩
  obtain ⟨-, henters, -⟩ := htest 0 s hbusy
  obtain ⟨t, he, htest6, -⟩ := henters hmode hrole (by omega) (by omega)
  have hrefused : s.flag (F.LANE_PORT_CTRL_TEST_REFUSED (0 : Cell)) = t :=
    (State.testEnter_of_rate_unnamed hbusy (by omega) (by omega)).symm.trans (Outcome.next.inj he)
  have hkept : t.rd (F.LANE_PORT_STATUS_STATE (0 : Cell)) = 0 := by
    rw [← hrefused, State.rd_portState_testRefused, hstate]
  omega

/-! ### The manager port's lanes (O15) -/

/-- SYNC of lane m is bit m of LANE_M_STATUS. -/
theorem mgrSync_eq (m : Fin 2) : mgrSync m = ⟨F.LANE_M_STATUS_at, m.val, 1⟩ := by
  revert m; decide
/-- A write of SYNC reads back. -/
theorem State.rd_mgrSync_wr_same (s : State) (m : Fin 2) (b : Bool) : (s.wr (mgrSync m) b.toNat).rd (mgrSync m) = b.toNat := by
  rw [mgrSync_eq, State.rd_wr_self _ _ (by omega), Nat.mod_eq_of_lt (by cases b <;> decide)]
/-- SYNC and TX_WIDTH share no bit. -/
theorem mgrSync_apart_txWidth (m : Fin 2) :
    (mgrSync m).apart F.LANE_M_STATUS_TX_WIDTH = true ∧ F.LANE_M_STATUS_TX_WIDTH.apart (mgrSync m) = true := by
  revert m; decide
/-- SYNC and the counters of the manager port's lanes share no register. -/
theorem laneMErr_addr_ne_mgrSync (k : Nat) (m : Fin 2) : F.LANE_M_ERR_at k ≠ (mgrSync m).addr := by
  rw [mgrSync_addr]
  simp only [F.LANE_M_ERR_at, F.LANE_M_STATUS_at]
  omega

/-- A frame shows the width it came at (R317). -/
theorem State.rd_rxWidth_wr (s : State) (x2 : Bool) :
    (s.wr F.LANE_M_STATUS_RX_WIDTH (if x2 then 2 else 1)).rd F.LANE_M_STATUS_RX_WIDTH = if x2 then 2 else 1 := by
  rw [State.rd_wr_same _ _ (by decide)]
  cases x2 <;> rfl
/-- Its SKIP symbols and its width leave the counts of frames (R316). -/
theorem State.rd_frames_skips_rxWidth (s : State) (a b w : Nat) {f : Fld} (hf : f.addr = F.LANE_M_FRAMES_at) :
    ((((s.inc (F.LANE_M_ERR_CC_ADJ 0) a).inc (F.LANE_M_ERR_CC_ADJ 1) b).wr F.LANE_M_STATUS_RX_WIDTH w).rd f) = s.rd f := by
  refine State.rd_of_reg ?_
  rw [hf, State.reg_wr_ne _ _ (by decide), State.inc, State.reg_wr_ne _ _ (by decide), State.inc, State.reg_wr_ne _ _ (by decide)]
/-- A frame that ends whole is counted as received, with wrap. -/
theorem exec_mgrFrameReceive_whole (x2 : Bool) (a b : BitVec 16) (s : State) :
    ∃ t, exec (.mgrFrameReceive x2 true a b) s = .next t ∧ t.rd F.LANE_M_STATUS_RX_WIDTH = (if x2 then 2 else 1) ∧
      t.rd F.LANE_M_FRAMES_RECEIVED = (s.rd F.LANE_M_FRAMES_RECEIVED + 1) % 2 ^ F.LANE_M_FRAMES_RECEIVED.width := by
  refine ⟨_, rfl, ?_, ?_⟩
  · exact (State.rd_wr_ne _ _ (by decide)).trans (State.rd_rxWidth_wr _ x2)
  · refine (State.rd_inc _ _ (by decide)).trans ?_
    rw [State.rd_frames_skips_rxWidth s _ _ _ rfl]
/-- A frame that ends short is counted as aborted, up to the counter's largest value. -/
theorem exec_mgrFrameReceive_short (x2 : Bool) (a b : BitVec 16) (s : State) :
    ∃ t, exec (.mgrFrameReceive x2 false a b) s = .next t ∧ t.rd F.LANE_M_STATUS_RX_WIDTH = (if x2 then 2 else 1) ∧
      t.rd F.LANE_M_FRAMES_ABORTED = min (2 ^ F.LANE_M_FRAMES_ABORTED.width - 1) (s.rd F.LANE_M_FRAMES_ABORTED + 1) := by
  refine ⟨_, rfl, ?_, ?_⟩
  · exact (State.rd_wr_ne _ _ (by decide)).trans (State.rd_rxWidth_wr _ x2)
  · refine (State.rd_sat _ _ (by decide)).trans ?_
    rw [State.rd_frames_skips_rxWidth s _ _ _ rfl]

/-- A lane that gains sync starts the transmitter at the width that WIDTH fixes, if it stands still (R315, R318). -/
theorem exec_mgrSyncGain_starts (m : Fin 2) (s : State) : ∃ t, exec (.mgrSyncGain m) s = .next t ∧ t.rd (mgrSync m) = 1 ∧
    (s.rd F.LANE_M_STATUS_TX_WIDTH = 0 → s.mgrWidth = 1 → t.rd F.LANE_M_STATUS_TX_WIDTH = 2) ∧
    (s.rd F.LANE_M_STATUS_TX_WIDTH = 0 → s.mgrWidth = 2 → t.rd F.LANE_M_STATUS_TX_WIDTH = 1) := by
  obtain ⟨hapart, hapart'⟩ := mgrSync_apart_txWidth m
  have hsync : (s.wr (mgrSync m) 1).rd (mgrSync m) = 1 := s.rd_mgrSync_wr_same m true
  have hsync' (n : Nat) : ((s.wr (mgrSync m) 1).wr F.LANE_M_STATUS_TX_WIDTH n).rd (mgrSync m) = 1 :=
    (State.rd_wr_apart _ n hapart').trans hsync
  have htx : (s.wr (mgrSync m) 1).rd F.LANE_M_STATUS_TX_WIDTH = s.rd F.LANE_M_STATUS_TX_WIDTH := s.rd_wr_apart 1 hapart
  have hwidth : (s.wr (mgrSync m) 1).mgrWidth = s.mgrWidth := s.rd_wr_ne 1 (by rw [mgrSync_addr]; decide)
  refine ⟨_, rfl, ?_, fun h0 h1 => ?_, fun h0 h2 => ?_⟩
  · dsimp only
    split
    · exact hsync
    · split
      · exact hsync' 2
      · exact hsync' 1
      · split
        · exact hsync' 2
        · exact hsync
  · rw [if_neg (not_not.2 (htx.trans h0)), hwidth, h1]
    exact State.rd_wr_same _ _ (by decide)
  · rw [if_neg (not_not.2 (htx.trans h0)), hwidth, h2]
    exact State.rd_wr_same _ _ (by decide)

/-- The lane's counters after the symbols of a loss are added (R315). -/
theorem State.rd_mgrSymbols (s : State) (m : Fin 2) (v d : Nat) {u : State}
    (hu : u = (s.sat (F.LANE_M_ERR_CODE_VIOL m) v).sat (F.LANE_M_ERR_DISP_ERR m) d) :
    u.rd (F.LANE_M_ERR_CODE_VIOL m) = min (2 ^ (F.LANE_M_ERR_CODE_VIOL m).width - 1) (s.rd (F.LANE_M_ERR_CODE_VIOL m) + v) ∧
      u.rd (F.LANE_M_ERR_SYNC_LOSS m) = s.rd (F.LANE_M_ERR_SYNC_LOSS m) ∧ u.rd (mgrSync m) = s.rd (mgrSync m) := by
  subst hu
  refine ⟨?_, ?_, ?_⟩
  · exact (State.rd_wr_bits _ _ (by decide) (by decide)).trans (State.rd_sat _ _ (show 48 + 16 ≤ 64 by decide))
  · exact (State.rd_wr_bits _ _ (by decide) (by decide)).trans (State.rd_wr_bits _ _ (by decide) (by decide))
  · exact (State.rd_wr_ne _ _ (laneMErr_addr_ne_mgrSync m m)).trans (State.rd_wr_ne _ _ (laneMErr_addr_ne_mgrSync m m))
/-- After MGR_SYNC_LOSS the lane is out of sync, and a lane that was in sync counts the loss (R315). -/
theorem exec_mgrSyncLoss_counts (m : Fin 2) (v d : BitVec 16) (s : State) : ∃ t, exec (.mgrSyncLoss m v d) s = .next t ∧ t.rd (mgrSync m) = 0 ∧
    t.rd (F.LANE_M_ERR_CODE_VIOL m) = min (2 ^ (F.LANE_M_ERR_CODE_VIOL m).width - 1) (s.rd (F.LANE_M_ERR_CODE_VIOL m) + v.toNat) ∧
    (s.rd (mgrSync m) = 1 →
      t.rd (F.LANE_M_ERR_SYNC_LOSS m) = min (2 ^ (F.LANE_M_ERR_SYNC_LOSS m).width - 1) (s.rd (F.LANE_M_ERR_SYNC_LOSS m) + 1)) := by
  refine ⟨_, rfl, ?_⟩
  extract_lets u
  obtain ⟨hviol, hloss, hsync⟩ := s.rd_mgrSymbols m v.toNat d.toNat (u := u) rfl
  have hne : (mgrSync m).addr ≠ F.LANE_M_ERR_at m := (laneMErr_addr_ne_mgrSync m m).symm
  by_cases h : s.rd (mgrSync m) = 1
  · rw [if_pos (by rw [State.rdb, hsync, h]; rfl)]
    refine ⟨?_, ?_, fun _ => ?_⟩
    · exact (State.rd_wr_ne _ _ hne.symm).trans (u.rd_mgrSync_wr_same m false)
    · exact (State.rd_wr_bits _ _ (by decide) (by decide)).trans ((u.rd_wr_ne 0 hne).trans hviol)
    · refine (State.rd_sat _ _ (show 16 + 16 ≤ 64 by decide)).trans ?_
      rw [u.rd_wr_ne 0 hne, hloss]
  · have hlt : s.rd (mgrSync m) < 2 ^ 1 := by
      rw [mgrSync_eq]
      exact s.rd_lt _
    have hout : u.rd (mgrSync m) = 0 := by omega
    rw [if_neg (State.not_rdb hout)]
    exact ⟨hout, hviol, fun h1 => absurd h1 h⟩

/-- In automatic width the transmitter leaves a lane out of sync for the other one (R318). -/
theorem exec_mgrWidthFallback_auto {m : Fin 2} {s : State} (hw : s.mgrWidth = 0 ∨ s.mgrWidth = 3) (hs : s.rd (mgrSync m) = 0) :
    ∃ t, exec (.mgrWidthFallback m) s = .next t ∧ t.rd F.LANE_M_STATUS_TX_WIDTH = (if m = 1 then 1 else 3) := by
  refine ⟨_, congrArg Outcome.next (if_pos ⟨hw, by simp [State.rdb, hs]⟩), ?_⟩
  rw [State.rd_wr_same _ _ (by decide)]
  split <;> rfl
/-- In automatic width the transmitter takes both lanes again once both hold sync (R318). -/
theorem exec_mgrWidthRestoreX2_auto {s : State} (hw : s.mgrWidth = 0 ∨ s.mgrWidth = 3) (h0 : s.rd F.LANE_M_STATUS_SYNC0 = 1)
    (h1 : s.rd F.LANE_M_STATUS_SYNC1 = 1) : ∃ t, exec .mgrWidthRestoreX2 s = .next t ∧ t.rd F.LANE_M_STATUS_TX_WIDTH = 2 :=
  ⟨_, congrArg Outcome.next (if_pos ⟨hw, by simp [State.rdb, h0], by simp [State.rdb, h1]⟩), State.rd_wr_same _ _ (by decide)⟩
/-- A service processor's write of LOOP takes effect (R319). -/
theorem exec_mgrLoopWrite_sp (v : Bool) (s : State) : ∃ t, exec (.mgrLoopWrite .sp v) s = .next t ∧ t.rd F.LANE_M_CTRL_LOOP = v.toNat := by
  refine ⟨_, congrArg Outcome.next (s.ifMay_sp F.LANE_M_CTRL_LOOP v.toNat fun s => s.wrb F.LANE_M_CTRL_LOOP v), ?_⟩
  rw [State.wrb, State.rd_wr_same _ _ (by decide)]
  cases v <;> rfl

/-- Settles O15: each clause is the lemma on its command; a transmitter that sends emits its SKIP by the branch that the command takes. -/
theorem managerLanesComplete : Obligations.ManagerLanesComplete :=
  ⟨fun x2 a b s => ⟨exec_mgrFrameReceive_whole x2 a b s, exec_mgrFrameReceive_short x2 a b s⟩, exec_mgrSyncGain_starts,
    exec_mgrSyncLoss_counts, fun _ h => congrArg Outcome.next (if_neg h), fun _ _ => exec_mgrWidthFallback_auto,
    fun _ => exec_mgrWidthRestoreX2_auto, exec_mgrLoopWrite_sp⟩

end Sys2Proof.Machine

/-! # Onora: the link layer -/

namespace Sys2Proof.Machine
open Host (Outcome)

/-! ### Received frames (O16) -/

/-- A control word without credit reports, ACK and NAK changes nothing. -/
theorem State.takeControl_of_empty {x : OCtl} (hcr : x.cr = []) (hack : x.ack = none) (hnak : x.nak = none) (s : State) (a : Cell) :
    s.takeControl a x = s := by
  rw [State.takeControl, hcr, hack, hnak]
  rfl
/-- The link once a frame in sequence is counted and no failed frame stands (R329, R331). -/
def State.frameCounted (s : State) (c : Cell) : State :=
  (State.wr { s with onl.failed := s.onl.failed.filter (· != c.val) } (F.ONL_SEQ_RX_EXPECT c) (s.rd (F.ONL_SEQ_RX_EXPECT c) + 1)).inc
    (F.ONL_RX_FRAMES_COUNT c)
/-- The link once a DATA frame is accepted, before its control word and its slots are taken (R332). -/
def State.frameAccepted (s : State) (c : Cell) : State :=
  { s.frameCounted c with onl.unacked := mput (s.frameCounted c).onl.unacked c.val (mgetD 0 (s.frameCounted c).onl.unacked c.val + 1) }
theorem State.frameCounted_unacked (s : State) (c : Cell) : (s.frameCounted c).onl.unacked = s.onl.unacked := by
  rw [State.frameCounted, State.inc, State.wr_onl, State.wr_onl]
theorem State.frameAccepted_rxExpect (s : State) (c : Cell) :
    (s.frameAccepted c).rd (F.ONL_SEQ_RX_EXPECT c) = (s.rd (F.ONL_SEQ_RX_EXPECT c) + 1) % 4096 := by
  have hne : (F.ONL_RX_FRAMES_COUNT c).addr ≠ (F.ONL_SEQ_RX_EXPECT c).addr := by
    simp only [F.ONL_RX_FRAMES_COUNT, F.ONL_RX_FRAMES_at, F.ONL_SEQ_RX_EXPECT, F.ONL_SEQ_at]
    omega
  rw [State.frameAccepted, State.rd_mk, State.frameCounted, State.inc, State.rd_wr_ne _ _ hne]
  exact State.rd_wr_self _ _ (by decide)
theorem State.frameAccepted_not_failed (s : State) (c : Cell) : c.val ∉ (s.frameAccepted c).onl.failed := by
  simp [State.frameAccepted, State.frameCounted, State.inc]
theorem State.frameAccepted_unacked (s : State) (c : Cell) :
    mgetD 0 (s.frameAccepted c).onl.unacked c.val = mgetD 0 s.onl.unacked c.val + 1 := by
  rw [mgetD, State.frameAccepted, mget_mput_self, Option.getD_some, s.frameCounted_unacked]

section
variable {c : Cell} {s : State} (hup : s.linkUp c = true)
include hup
theorem exec_onoraDataFrame_fails {f : OFrame} (h : f.fec = false ∨ f.fcrc = false ∨ f.units = false) :
    exec (.onoraDataFrame c f) s = .next (s.frameFails c f.fec) := by
  refine congrArg Outcome.next ?_
  rw [if_neg (by simp [hup]), if_pos (by simpa using h)]
section
variable {f : OFrame} (hfec : f.fec = true) (hfcrc : f.fcrc = true) (hunits : f.units = true)
include hfec hfcrc hunits
/-- A good frame out of sequence gives its control word only while no failed frame stands (the model's choice, log 147). -/
theorem exec_onoraDataFrame_outOfSequence (hseq : f.seq.val ≠ s.rd (F.ONL_SEQ_RX_EXPECT c)) :
    exec (.onoraDataFrame c f) s = .next (if c.val ∈ s.onl.failed then s else s.takeControl c f.ctl) := by
  refine congrArg Outcome.next ?_
  simp only [if_neg (show ¬ (!s.linkUp c) = true by simp [hup]), if_neg (show ¬ (!f.fec ∨ !f.fcrc ∨ !f.units) by simp [hfec, hfcrc, hunits]),
    if_pos hseq, List.contains_iff_mem]
theorem exec_onoraDataFrame_accepts (hseq : f.seq.val = s.rd (F.ONL_SEQ_RX_EXPECT c)) (hcr : f.ctl.cr = []) (hack : f.ctl.ack = none)
    (hnak : f.ctl.nak = none) (hslots : f.slots = []) (hn : mgetD 0 s.onl.unacked c.val < 63) :
    exec (.onoraDataFrame c f) s = .next (s.frameAccepted c) := by
  have hfew : ¬ (mgetD 0 (s.frameCounted c).onl.unacked c.val + 1 ≥ 64 ∧ (s.frameAccepted c).linkUp c = true) := by
    rw [s.frameCounted_unacked]
    omega
  change Outcome.next _ = _
  rw [if_neg (by simp [hup]), if_neg (by simp [hfec, hfcrc, hunits])]
  simp only [hslots, State.takeControl_of_empty hcr hack hnak, List.foldl_nil, hseq, ne_eq, not_true, if_false]
  exact congrArg Outcome.next (if_neg hfew)
end
theorem exec_onoraIdleFrame_up (ok : Bool) (x : OCtl) :
    exec (.onoraIdleFrame c ok x) s = .next (if ok then s.takeControl c x else s.frameFails c true) :=
  congrArg Outcome.next (if_neg (by simp [hup]))
theorem exec_onoraAckTimer_up (h : 0 < mgetD 0 s.onl.unacked c.val) : exec (.onoraAckTimer c) s = .next (s.sendFrame c 0 0 []) :=
  congrArg Outcome.next (if_pos ⟨hup, h⟩)
theorem exec_onoraNakRepeat_up (h : c.val ∈ s.onl.failed) : exec (.onoraNakRepeat c) s = .next (s.sendNak c) :=
  congrArg Outcome.next (if_pos ⟨hup, List.contains_iff_mem.2 h⟩)
theorem exec_onoraAlignSend_up : exec (.onoraAlignSend c) s = .next (s.emit (.onlAlign c)) := congrArg Outcome.next (if_pos (.inl hup))
end
theorem exec_onoraCreditTimeout_waits {c : Cell} {s : State}
    (h : ∃ x ∈ mgetD [] s.onl.queue c.val, s.rd (F.ONL_CREDIT_TX_HELD c x.cu.phase x.p.opc.vc) < x.need) :
    exec (.onoraCreditTimeout c) s = .next (s.linkBreak c 2) :=
  congrArg Outcome.next (if_pos (by simpa using h))
/-- A frame that leaves acknowledges all that has been accepted (R332). -/
theorem State.sendFrame_unacked (s : State) (a : Cell) (typ seq : Nat) (slots : List OSlot) :
    mget (s.sendFrame a typ seq slots).onl.unacked a.val = none := mget_mdel_self _ _
theorem State.sendFrame_out (s : State) (a : Cell) (typ seq : Nat) (slots : List OSlot) :
    (s.sendFrame a typ seq slots).out = .onlFrame a typ seq (s.control a false) slots :: s.out := rfl

/-! ### Training blocks (O16) -/

section
variable {c : Cell} {j : Fin 16} {b : TrainBlock} {s : State} (hlo : 2 ≤ s.rd (F.ONL_STATUS_TRAIN_STATE c))
  (hhi : s.rd (F.ONL_STATUS_TRAIN_STATE c) ≤ 5) (hj : j.val < s.portWidth c)
include hlo hhi hj
/-- The sixteenth block in a row that fails its TCRC on a lane fails the training (the model's reading, log 153). -/
theorem exec_onoraTrainingBlock_badTcrc (hb : b.tcrc = false) : exec (.onoraTrainingBlock c j b) s =
    .next (if 16 ≤ mgetD 0 s.onl.tcrc (4 * c.val + j.val) + 1 then s.trainFail c
      else { s with onl.tcrc := mset 0 s.onl.tcrc (4 * c.val + j.val) (mgetD 0 s.onl.tcrc (4 * c.val + j.val) + 1) }) := by
  refine congrArg Outcome.next ?_
  rw [if_neg (by omega), if_pos (by simp [hb])]
theorem exec_onoraTrainingBlock_goodTcrc (hb : b.tcrc = true) (hl : 4 * c.val + j.val < 512) :
    ∃ t, exec (.onoraTrainingBlock c j b) s = .next t ∧ mget t.onl.reqId (4 * c.val + j.val) = some b.reqId.val := by
  have hlane : (Fin.ofNat 512 (4 * c.val + j.val)).val = 4 * c.val + j.val := Nat.mod_eq_of_lt hl
  refine ⟨_, rfl, ?_⟩
  rw [if_neg (by omega), if_neg (by simp [hb])]
  extract_lets l _ u v w _ x
  split
  next hold => exact hlane ▸ hold
  next =>
    have hx : mget x.onl.reqId (4 * c.val + j.val) = some b.reqId.val := by
      dsimp only [x]
      rw [hlane, mget_mput_self]
    split
    · split <;> exact hx
    · exact hx
end

/-! ### The states of training (O16) -/

theorem laneTxeq_addr_ne_onlStatus (l c : Nat) : F.LANE_TXEQ_at l ≠ F.ONL_STATUS_at c := by
  simp only [F.LANE_TXEQ_at, F.ONL_STATUS_at]
  omega
/-- The presets of the lanes leave the state of the link. -/
theorem State.startPreset_onlStatus (s : State) (a : Cell) (c : Nat) : (s.startPreset a).reg (F.ONL_STATUS_at c) = s.reg (F.ONL_STATUS_at c) := by
  refine foldl_reg (fun t j => ?_) s
  have hne := laneTxeq_addr_ne_onlStatus (4 * a.val + j) c
  rw [State.reg_wr_ne _ _ hne, State.setCoefs, State.reg_wr_ne _ _ hne, State.reg_wr_ne _ _ hne, State.reg_wr_ne _ _ hne,
    State.reg_wr_ne _ _ hne, State.reg_wr_ne _ _ hne]
/-- What the partner says of itself stands in ONL_STATUS (Table 11-7). -/
def State.nbrTold (s : State) (c : Cell) (x : OParam) : State :=
  ((s.wr (F.ONL_STATUS_NBR_ADDR c) x.addr).wr (F.ONL_STATUS_NBR_MEMBER c) x.member).wr (F.ONL_STATUS_NBR_PORT c) x.port
theorem State.nbrTold_regsBut (s : State) (c : Cell) (x : OParam) : s.regsBut [F.ONL_STATUS_at c] (s.nbrTold c x) :=
  .wr (.wr (.wr (.refl _ s) (.head _)) (.head _)) (.head _)
theorem State.nbrTold_nbrAddr (s : State) (c : Cell) (x : OParam) : (s.nbrTold c x).rd (F.ONL_STATUS_NBR_ADDR c) = x.addr.val :=
  ((State.rd_wr_bits _ _ (by decide) (by decide)).trans (State.rd_wr_bits _ _ (by decide) (by decide))).trans
    ((State.rd_wr_self _ _ (by decide)).trans (Nat.mod_eq_of_lt x.addr.isLt))
/-- The partner is not the neighbour that the image names, or the two sides disagree on the date line (R340). -/
def State.badNeighbour (s : State) (c : Cell) (x : OParam) : Prop :=
  x.addr.val ≠ s.rd (F.ONL_CFG_NBR_EXPECT c) ∨ x.dateline ≠ s.rdb (F.ONL_CFG_DATELINE c) ∨ x.addr.val = s.chainAddr
theorem State.badNeighbour_nbrTold (s : State) (c : Cell) (x : OParam) : (s.nbrTold c x).badNeighbour c x ↔ s.badNeighbour c x := by
  have hreg (f : Fld) (hf : f.addr ≠ F.ONL_STATUS_at c) : (s.nbrTold c x).rd f = s.rd f := State.rd_of_reg ((s.nbrTold_regsBut c x).ne _ hf)
  have hcfg : F.ONL_CFG_at c ≠ F.ONL_STATUS_at c := by simp only [F.ONL_CFG_at, F.ONL_STATUS_at]; omega
  have hchain : F.ONL_CHAIN_at 0 ≠ F.ONL_STATUS_at c := by simp only [F.ONL_CHAIN_at, F.ONL_STATUS_at]; omega
  rw [State.badNeighbour, State.badNeighbour, State.rdb, State.rdb, State.chainAddr, State.chainAddr, hreg _ hcfg, hreg _ hcfg, hreg _ hchain]

section
variable {c : Cell} {s : State} (x : OParam) (n : BitVec 12)
theorem exec_onoraTrainStateComplete_detect (h : s.rd (F.ONL_STATUS_TRAIN_STATE c) = 1) : ∃ t, exec (.onoraTrainStateComplete c x n) s = .next t ∧
    t.rd (F.ONL_STATUS_TRAIN_STATE c) = 2 ∧ t.rd (F.ONL_STATUS_LINK_STATE c) = 1 ∧ mget t.onl.trainAt c.val = some s.cyc := by
  refine ⟨_, rfl, ?_⟩
  simp only [h]
  refine ⟨?_, ?_, ?_⟩
  · refine (State.rd_of_reg (State.startPreset_onlStatus _ _ _)).trans ?_
    exact (State.rd_wr_bits _ _ (by decide) (by decide)).trans (State.rd_wr_self _ _ (by decide))
  · exact (State.rd_of_reg (State.startPreset_onlStatus _ _ _)).trans (State.rd_wr_self _ _ (by decide))
  · rw [(State.startPreset_keeps (P := 134086655) rfl (Keeps.refl _) c).onl_eq]
    exact mget_mput_self _ _ _
theorem exec_onoraTrainStateComplete_lock (h : s.rd (F.ONL_STATUS_TRAIN_STATE c) = 2) :
    ∃ t, exec (.onoraTrainStateComplete c x n) s = .next t ∧ t.rd (F.ONL_STATUS_TRAIN_STATE c) = 3 := by
  refine ⟨_, rfl, ?_⟩
  simp only [h]
  exact State.rd_wr_self _ _ (by decide)
theorem exec_onoraTrainStateComplete_equalise (h : s.rd (F.ONL_STATUS_TRAIN_STATE c) = 3) :
    ∃ t, exec (.onoraTrainStateComplete c x n) s = .next t ∧ t.rd (F.ONL_STATUS_TRAIN_STATE c) = 4 ∧ t.rd (F.ONL_TRAIN_EQ_REQS c) = n.toNat := by
  have hne : (F.ONL_TRAIN_EQ_REQS c).addr ≠ (F.ONL_STATUS_TRAIN_STATE c).addr := by
    simp only [F.ONL_TRAIN_EQ_REQS, F.ONL_TRAIN_at, F.ONL_STATUS_TRAIN_STATE, F.ONL_STATUS_at]
    omega
  refine ⟨_, rfl, ?_⟩
  simp only [h]
  exact ⟨(State.rd_wr_ne _ _ hne).trans (State.rd_wr_self _ _ (by decide)),
    (State.rd_wr_self _ _ (by decide)).trans (Nat.mod_eq_of_lt n.isLt)⟩
theorem exec_onoraTrainStateComplete_badNeighbour (h : s.rd (F.ONL_STATUS_TRAIN_STATE c) = 4) (hbad : s.badNeighbour c x) :
    ∃ t, exec (.onoraTrainStateComplete c x n) s = .next t ∧ t.rd (F.ONL_STATUS_LINK_STATE c) = 6 ∧ t.rd (F.ONL_STATUS_TRAIN_STATE c) = 0 := by
  have hne : (F.ONL_CTRL_BUSY c).addr ≠ F.ONL_STATUS_at c := by
    simp only [F.ONL_CTRL_BUSY, F.ONL_CTRL_at, F.ONL_STATUS_at]
    omega
  refine ⟨_, rfl, ?_⟩
  simp only [h]
  split
  · exact ⟨(State.rd_wr_ne _ _ hne).trans ((State.rd_wr_bits _ _ (by decide) (by decide)).trans (State.rd_wr_self _ _ (by decide))),
      (State.rd_wr_ne _ _ hne).trans (State.rd_wr_self _ _ (by decide))⟩
  next hgood => exact absurd ((s.badNeighbour_nbrTold c x).2 hbad) hgood
theorem exec_onoraTrainStateComplete_goodNeighbour (h : s.rd (F.ONL_STATUS_TRAIN_STATE c) = 4) (hgood : ¬ s.badNeighbour c x) :
    exec (.onoraTrainStateComplete c x n) s = .next ((s.nbrTold c x).wr (F.ONL_STATUS_TRAIN_STATE c)
      (if 7 ≤ s.rd (F.LANE_PORT_CFG_MAX_RATE c) ∧ x.maxRate = 7 ∧ c.val ∉ s.onl.fast then 5 else 6)) := by
  refine congrArg Outcome.next ?_
  simp only [h]
  refine (if_neg (mt (s.badNeighbour_nbrTold c x).1 hgood)).trans ?_
  rw [apply_ite ((s.nbrTold c x).wr (F.ONL_STATUS_TRAIN_STATE c))]
  exact if_congr (by simp [and_assoc]) rfl rfl
theorem exec_onoraTrainStateComplete_speed (h : s.rd (F.ONL_STATUS_TRAIN_STATE c) = 5) : ∃ t, exec (.onoraTrainStateComplete c x n) s = .next t ∧
    t.rd (F.ONL_STATUS_TRAIN_STATE c) = 2 ∧ c.val ∈ t.onl.fast := by
  refine ⟨_, rfl, ?_⟩
  simp only [h]
  exact ⟨State.rd_wr_self _ _ (by decide), List.mem_cons_self⟩
theorem exec_onoraTrainStateComplete_up (h : s.rd (F.ONL_STATUS_TRAIN_STATE c) = 6) :
    exec (.onoraTrainStateComplete c x n) s = .next (s.linkComesUp c (if c.val ∈ s.onl.fast then 7 else 6)) := by
  refine congrArg Outcome.next ?_
  simp only [h, List.contains_iff_mem]
end

/-! ### Failed trainings, retries and RETRAIN (O16) -/

/-- A failed training latches the link after TRAIN_RETRIES failures in a row (R340). -/
theorem State.trainFail_linkState (s : State) (c : Cell) : (s.trainFail c).rd (F.ONL_STATUS_LINK_STATE c) =
    if max 1 (s.rd (F.ONL_CFG_TRAIN_RETRIES c)) ≤ mgetD 0 s.onl.fails c.val + 1 then 5 else 0 := by
  unfold State.trainFail
  extract_lets n _ u v
  have hretries : v.rd (F.ONL_CFG_TRAIN_RETRIES c) = s.rd (F.ONL_CFG_TRAIN_RETRIES c) := by
    refine State.rd_of_reg ?_
    simp only [v, State.trainEnds, State.sat]
    rw [State.reg_wr_ne, State.reg_wr_ne, State.reg_wr_ne]
    · rfl
    all_goals
      simp only [F.ONL_CFG_TRAIN_RETRIES, F.ONL_CFG_at, F.ONL_STATUS_TRAIN_STATE, F.ONL_STATUS_at, F.ONL_TRAIN_FAILS, F.ONL_TRAIN_at,
        F.ONL_CTRL_BUSY, F.ONL_CTRL_at]
      omega
  refine (State.rd_wr_self _ _ (by decide)).trans ?_
  rw [hretries]
  split <;> rfl
theorem exec_onoraTrainTimeout_fails {c : Cell} {s : State} (hlo : 2 ≤ s.rd (F.ONL_STATUS_TRAIN_STATE c))
    (hhi : s.rd (F.ONL_STATUS_TRAIN_STATE c) ≤ 6) : exec (.onoraTrainTimeout c) s = .next (s.trainFail c) :=
  congrArg Outcome.next (if_pos ⟨hlo, hhi⟩)
theorem exec_onoraRetrain_sp (c : Cell) (s : State) : exec (.onoraRetrain .sp c) s = .next (s.retrain c) := rfl
/-- A link that is DOWN and has lanes to train goes to TRAINING (R344). -/
theorem State.trainStart_linkSt {s : State} {c : Cell} (h : s.onlWidth c ≠ none) : (s.trainStart c).linkSt c = 1 := by
  have hne : (F.LANE_PORT_STATUS_STATE c).addr ≠ F.ONL_STATUS_at c := by
    simp only [F.LANE_PORT_STATUS_STATE, F.LANE_PORT_STATUS_at, F.ONL_STATUS_at]
    omega
  unfold State.trainStart
  split
  next hw => exact absurd hw h
  next =>
    extract_lets u
    rw [State.linkSt, State.rd_mk]
    exact (State.rd_wr_ne _ _ hne).trans ((State.rd_wr_bits _ _ (by decide) (by decide)).trans (State.rd_wr_self _ _ (by decide)))
theorem State.retrain_down {s : State} {c : Cell} (hbusy : s.rd (F.ONL_CTRL_BUSY c) = 0) (hst : s.linkSt c = 0) (hrole : s.roleOf c = .onora)
    (hanc : s.anchorOf c = c) (hw : s.onlWidth c ≠ none) :
    s.retrain c = (State.trainStart { s with onl.fails := mdel s.onl.fails c.val } c).wr (F.ONL_CTRL_BUSY c) 1 := by
  have h1 := State.trainStart_linkSt (s := { s with onl.fails := mdel s.onl.fails c.val }) hw
  unfold State.retrain
  simp only [if_neg (State.not_rdb hbusy), hst]
  rw [if_pos ⟨hrole, hanc⟩, if_pos (.inl h1)]
theorem State.retrain_active {s : State} {c : Cell} (hbusy : s.rd (F.ONL_CTRL_BUSY c) = 0) (hst : s.linkSt c = 3) (hmode : s.mode ≠ .maintenance) :
    s.retrain c = s.flag (F.ONL_CTRL_REFUSED c) := by
  unfold State.retrain
  simp only [if_neg (State.not_rdb hbusy), hst]
  exact if_neg fun h => hmode h.1
/-- In SAFE_STOP, with no chain slot taken and nothing to replay, LEAVE goes out on each link that is up (R345). -/
theorem exec_onoraLeaveSend_safeStop {s : State} (hmode : s.mode = .safeStop) (hslot : s.onl.cslot = []) (hstore : s.onl.store = []) :
    exec .onoraLeaveSend s = .next ((s.onoraAnchors.filter s.linkUp).foldl (fun (s : State) a => s.sendFrame a 2 0 []) s) :=
  congrArg Outcome.next (if_pos ⟨hmode, hslot, hstore⟩)

/-! ### The commands together (O16) -/

/-- Settles O16: each clause by the lemma that says once what its command does under the clause's conditions, and the fields by what that
state reads. -/
theorem onoraLinkComplete : Obligations.OnoraLinkComplete := by
  refine ⟨fun c f s hup => ⟨exec_onoraDataFrame_fails hup, fun hfec hfcrc hunits hseq => ⟨fun hf => ?stands, fun hf => ?control⟩,
      fun hfec hfcrc hunits hseq hcr hack hnak hslots hn => ?accepted,
      fun x => ⟨exec_onoraIdleFrame_up hup true x, exec_onoraIdleFrame_up hup false x⟩, rfl,
      fun h => ⟨_, exec_onoraAckTimer_up hup h, s.sendFrame_unacked c 0 0 [], s.sendFrame_out c 0 0 []⟩,
      exec_onoraNakRepeat_up hup, exec_onoraAlignSend_up hup, rfl, exec_onoraCreditTimeout_waits, rfl⟩,
    fun c j b s hlo hhi hj => ⟨fun hb hn => ?counts, fun hb hn => ?sixteenth, exec_onoraTrainingBlock_goodTcrc hlo hhi hj⟩,
    fun c x n s => ⟨exec_onoraTrainStateComplete_detect x n, exec_onoraTrainStateComplete_lock x n, exec_onoraTrainStateComplete_equalise x n,
      fun h => ⟨exec_onoraTrainStateComplete_badNeighbour x n h, fun haddr hdate hown => ?neighbour⟩,
      exec_onoraTrainStateComplete_speed x n, exec_onoraTrainStateComplete_up x n⟩,
    fun c s => ⟨fun hlo hhi => ⟨_, exec_onoraTrainTimeout_fails hlo hhi, s.trainFail_linkState c⟩,
      fun hst hn => congrArg Outcome.next (if_pos ⟨hst, hn⟩), fun hbusy hst hrole hanc hw => ?retrains, fun hbusy hst hmode => ?refused,
      fun hst => congrArg Outcome.next (if_pos hst)⟩,
    fun s hmode hslot hstore a ha => ?leaves⟩
  case stands => rw [exec_onoraDataFrame_outOfSequence hup hfec hfcrc hunits hseq, if_pos hf]
  case control => rw [exec_onoraDataFrame_outOfSequence hup hfec hfcrc hunits hseq, if_neg hf]
  case accepted =>
    rw [hseq]
    exact ⟨_, exec_onoraDataFrame_accepts hup hfec hfcrc hunits hseq hcr hack hnak hslots hn, s.frameAccepted_rxExpect c,
      s.frameAccepted_not_failed c, s.frameAccepted_unacked c⟩
  case counts => rw [exec_onoraTrainingBlock_badTcrc hlo hhi hj hb, if_neg (by omega)]
  case sixteenth => rw [exec_onoraTrainingBlock_badTcrc hlo hhi hj hb, if_pos hn]
  case neighbour =>
    have hgood : ¬ s.badNeighbour c x := by
      rintro (h | h | h)
      · exact h haddr
      · exact h hdate
      · exact hown h
    refine ⟨_, exec_onoraTrainStateComplete_goodNeighbour x n h hgood, ?_, ?_⟩
    · exact (State.rd_wr_bits _ _ (by decide) (by decide)).trans (s.nbrTold_nbrAddr c x)
    · refine (State.rd_wr_self _ _ (by decide)).trans ?_
      split <;> rfl
  case retrains =>
    rw [exec_onoraRetrain_sp, State.retrain_down hbusy hst hrole hanc hw]
    exact ⟨_, rfl, State.rd_wr_self _ _ (by decide)⟩
  case refused => rw [exec_onoraRetrain_sp, State.retrain_active hbusy hst hmode]
  case leaves =>
    refine ⟨_, exec_onoraLeaveSend_safeStop hmode hslot hstore, ?_⟩
    rw [ha]
    rfl

end Sys2Proof.Machine

/-! # Onora: the chain of modules -/

namespace Sys2Proof.Machine
open Host (Outcome)

/-! ### What sending on the chain leaves (O17) -/

/-- The offsets of the registers that sending on a link and taking a packet from it write: sequence numbers, credits and the counters of
Table 11-19. -/
def linkReg (a : Nat) : Prop :=
  a % 0x100000 = 0x70018 ∨ (0x70100 ≤ a % 0x100000 ∧ a % 0x100000 < 0x70180) ∨ (0x70400 ≤ a % 0x100000 ∧ a % 0x100000 < 0x70420)
theorem linkReg_seq (c : Nat) : linkReg (F.ONL_SEQ_at c) := by
  simp only [linkReg, F.ONL_SEQ_at]
  omega
theorem linkReg_txFrames (c : Nat) : linkReg (F.ONL_TX_FRAMES_at c) := by
  simp only [linkReg, F.ONL_TX_FRAMES_at]
  omega
theorem linkReg_absorbed (c : Nat) : linkReg (F.ONL_ABSORBED_at c) := by
  simp only [linkReg, F.ONL_ABSORBED_at]
  omega
theorem linkReg_notes (c : Nat) : linkReg (F.ONL_NOTES_at c) := by
  simp only [linkReg, F.ONL_NOTES_at]
  omega
theorem Opc.vc_lt (o : Opc) : o.vc < 8 := by
  cases o with
  | pass _ v => exact v.isLt.trans (by decide)
  | xfer v => exact v.isLt
  | _ => decide
theorem linkReg_credit (c : Nat) (p : Fin 2) (o : Opc) : linkReg (F.ONL_CREDIT_at c p o.vc) := by
  have hv := Opc.vc_lt o
  have hp := p.isLt
  simp only [linkReg, F.ONL_CREDIT_at]
  omega
theorem not_linkReg_chain (c : Nat) : ¬ linkReg (F.ONL_CHAIN_at c) := by
  simp only [linkReg, F.ONL_CHAIN_at]
  omega
theorem not_linkReg_route (c : Nat) {m : Nat} (hm : m < 32) : ¬ linkReg (F.ONL_ROUTE_at c m) := by
  simp only [linkReg, F.ONL_ROUTE_at]
  omega
theorem not_linkReg_status (c : Nat) : ¬ linkReg (F.ONL_STATUS_at c) := by
  simp only [linkReg, F.ONL_STATUS_at]
  omega
theorem not_linkReg_xbar (c : Nat) : ¬ linkReg (F.XBAR_STATUS_at c) := by
  simp only [linkReg, F.XBAR_STATUS_at]
  omega

/-- The chain's state without the queues, replay stores, receive buffers and credit reports of the links. -/
def OnlSt.offLinks (o : OnlSt) : OnlSt :=
  { o with queue := [], store := [], freed := [], told := [], crPtr := [], unacked := [], arrived := [] }
/-- What stays when packets are queued for links, leave on them, are absorbed or are taken from a receive buffer: every other register,
the roles, and the chain's state off the links. -/
structure State.sends (s t : State) : Prop where
  regs : ∀ a, ¬ linkReg a → t.reg a = s.reg a
  roles : t.roles = s.roles
  onl : t.onl.offLinks = s.onl.offLinks

section
variable {s0 s t : State}
theorem State.sends.refl (s : State) : s.sends s := ⟨fun _ _ => rfl, rfl, rfl⟩
theorem State.sends.trans (h : s0.sends s) (k : s.sends t) : s0.sends t :=
  ⟨fun a ha => (k.regs a ha).trans (h.regs a ha), k.roles.trans h.roles, k.onl.trans h.onl⟩
theorem State.sends.after (k : s.sends t) (h : s0.sends s) : s0.sends t := h.trans k
/-- What changes no register, no role and nothing off the links. -/
theorem State.sends.same (hregs : t.regs = s.regs) (hroles : t.roles = s.roles) (honl : t.onl.offLinks = s.onl.offLinks) : s.sends t :=
  ⟨fun a _ => State.reg_congr hregs a, hroles, honl⟩
theorem State.sends.from_same (h : s.sends t) (hregs : s.regs = s0.regs) (hroles : s.roles = s0.roles) (honl : s.onl.offLinks = s0.onl.offLinks) :
    s0.sends t := (State.sends.same hregs hroles honl).trans h
theorem State.sends.wr {f : Fld} {n : Nat} (h : s0.sends s) (hf : linkReg f.addr) : s0.sends (s.wr f n) :=
  h.trans ⟨fun _ ha => s.reg_wr_ne n fun e => ha (e ▸ hf), rfl, rfl⟩
theorem State.sends.foldl {α : Type} {xs : List α} {f : State → α → State} (h : s0.sends s) (k : ∀ (u : State) (x : α), u.sends (f u x)) :
    s0.sends (xs.foldl f s) :=
  List.foldlRecOn (motive := s0.sends) xs f h fun u hu x _ => hu.trans (k u x)
theorem State.sends.rd (h : s.sends t) {f : Fld} (hf : ¬ linkReg f.addr) : t.rd f = s.rd f := State.rd_of_reg (h.regs _ hf)
/-- A part of the chain's state off the links. -/
theorem State.sends.get (h : s.sends t) {α : Type} (f : OnlSt → α) (hf : ∀ o : OnlSt, f o.offLinks = f o := by exact fun _ => rfl) :
    f t.onl = f s.onl := (hf _).symm.trans ((congrArg f h.onl).trans (hf _))
theorem State.sends.chainAddr (h : s.sends t) : t.chainAddr = s.chainAddr := h.rd (not_linkReg_chain 0)
end

theorem State.sendWord_sends (s : State) (a : Cell) (typ seq : Nat) (slots : List OSlot) (nak : Bool) : s.sends (s.sendWord a typ seq slots nak) :=
  .same rfl rfl rfl
theorem State.sendData_sends (s : State) (a : Cell) (slots : List OSlot) (pkts : List CPkt) : s.sends (s.sendData a slots pkts) := by
  unfold State.sendData
  extract_lets seq _ u
  have hu : s.sends u := .same rfl rfl rfl
  exact (State.sendWord_sends ..).after (.wr (.wr (.wr hu (linkReg_seq a)) (linkReg_seq a)) (linkReg_txFrames a))
theorem State.pump_sends (s : State) (a : Cell) : s.sends (s.pump a) := by
  unfold State.pump
  split
  · exact .refl s
  · split
    extract_lets _ u v sl
    have hu : s.sends u := .same rfl rfl rfl
    have hv : s.sends v := hu.foldl fun t x => .wr (.refl t) (linkReg_credit a _ _)
    exact hv.foldl fun t k => t.sendData_sends ..
theorem State.queueOn_sends (s : State) (a : Cell) (x : CPkt) : s.sends (s.queueOn a x) :=
  (State.pump_sends _ a).from_same rfl rfl rfl
theorem State.sendOnlabs_sends (s : State) (a : Cell) (x : CPkt) : s.sends (s.sendOnlabs a x) := by
  have hnote : s.sends (s.inc (F.ONL_NOTES_COUNT a)) := .wr (.refl s) (linkReg_notes a)
  unfold State.sendOnlabs
  extract_lets n m
  split
  · exact .refl s
  · split
    · exact hnote.trans (.same (State.send_regs ..) (State.send_roles ..) (congrArg OnlSt.offLinks (State.send_onl ..)))
    · split
      · exact hnote.trans (State.queueOn_sends ..)
      · exact .refl s
theorem State.absorbChain_sends (s : State) (a : Cell) (xs : List CPkt) : s.sends (s.absorbChain a xs) :=
  .foldl (.refl s) fun u x => (State.sendOnlabs_sends _ a x).after (.wr (.refl u) (linkReg_absorbed a))
theorem State.chainOut_sends (s : State) (a : Cell) (x : CPkt) : s.sends (s.chainOut a x) := by
  unfold State.chainOut
  split
  · exact s.queueOn_sends ..
  · exact s.absorbChain_sends ..
theorem State.chainNew_sends (s : State) (a : Cell) (m : Fin 32) (p : Pkt) : s.sends (s.chainNew a m p) := s.chainOut_sends ..
theorem State.sendAck_sends (s : State) (c : Cell) (o : Opc) (m : Fin 32) (xseq result : Nat) : s.sends (s.sendAck c o m xseq result) :=
  s.chainNew_sends ..
theorem State.sendPieces_sends (s : State) (o : Opc) (m xseq total : Nat) (ls : List Line) : s.sends (s.sendPieces o m xseq total ls) :=
  .foldl (.refl s) fun u _ => u.chainNew_sends ..
theorem State.flood_sends (s : State) (l : Line) (but : Option Nat) : s.sends (s.flood l but) := by
  refine .foldl (.refl s) fun t n => ?_
  split
  · exact .refl t
  · split
    · exact t.queueOn_sends ..
    · exact .refl t
theorem State.freeRx_sends (s : State) (a : Cell) (x : CPkt) : s.sends (s.freeRx a x) :=
  .wr (.same rfl rfl rfl) (linkReg_credit a _ _)
/-- A packet that leaves its receive buffer changes nothing but the buffer. -/
theorem State.chainTake_sends (s : State) (c : Cell) (x : CPkt) : s.sends (s.chainTake c x) := by
  unfold State.chainTake
  split
  · exact (State.freeRx_sends ..).from_same rfl rfl rfl
  · exact .refl s
theorem State.chainTake_chainAddr (s : State) (c : Cell) (x : CPkt) : (s.chainTake c x).chainAddr = s.chainAddr := (s.chainTake_sends c x).chainAddr
/-- It moves registers and the chain's state only. -/
theorem State.chainTake_keeps_self (s : State) (c : Cell) (x : CPkt) : Keeps 131074 s (s.chainTake c x) := State.chainTake_keeps rfl (Keeps.refl s) c x

/-! ### Routes hold while packets are sent (O17) -/

theorem State.onoraAnchors_congr {s t : State} (hroles : t.roles = s.roles) (hreg : ∀ c, t.reg (F.XBAR_STATUS_at c) = s.reg (F.XBAR_STATUS_at c)) :
    t.onoraAnchors = s.onoraAnchors := by
  have hwidth (c : Nat) : t.rd (F.XBAR_STATUS_WIDTH c) = s.rd (F.XBAR_STATUS_WIDTH c) := State.rd_of_reg (hreg c)
  have hrole (c : Cell) : t.roleOf c = s.roleOf c := by rw [State.roleOf, hroles, State.roleOf]
  have hanchor (c : Cell) : t.anchorOf c = s.anchorOf c := by rw [State.anchorOf, hwidth, hwidth, State.anchorOf]
  simp only [State.onoraAnchors, hrole, hanchor]
/-- The link toward a module is read from the routes, the roles and the states of the links. -/
theorem State.via_congr {s t : State} (hregs : ∀ a, ¬ linkReg a → t.reg a = s.reg a) (hroles : t.roles = s.roles) (hnext : t.onl.next = s.onl.next)
    {m : Nat} (hm : m < 32) : t.via m = s.via m := by
  have hstatus (f : Fld) {c : Nat} (hf : f.addr = F.ONL_STATUS_at c) : t.rd f = s.rd f :=
    State.rd_of_reg (hregs _ (hf ▸ not_linkReg_status c))
  have hreach : t.rdb (F.ONL_ROUTE_REACH 0 m) = s.rdb (F.ONL_ROUTE_REACH 0 m) := by
    rw [State.rdb, State.rd_of_reg (hregs _ (not_linkReg_route 0 hm)), State.rdb]
  have hlink (a : Cell) : t.linkSt a = s.linkSt a := hstatus _ rfl
  have hnbr (a : Cell) : t.nbrOf a = s.nbrOf a := hstatus _ rfl
  have hactive (n : Nat) : t.activeTo n = s.activeTo n := by
    simp only [State.activeTo, State.onoraAnchors_congr hroles fun c => hregs _ (not_linkReg_xbar c), hlink, hnbr]
  rw [State.via, hreach, hnext, hactive, State.via]

/-! ### Notes and advertisements (O17) -/

section
variable {p : Pkt} {s : State} (hmay : s.mayArrive { p with opc := .onlabs } = true)
include hmay
theorem exec_onlabs_reissues {x : TSlot} (hx : s.slot p.tagCell p.tagSlot = some x) (hcell : p.tagCell = p.dst) (hgen : x.hdr.gen = p.gen) :
    exec (.onlabs p) s = .next ((s.take { p with opc := .onlabs }).reissue p.dst p.tagSlot x) := by
  have hx' : (s.take { p with opc := .onlabs }).slot p.tagCell p.tagSlot = some x := hx
  refine congrArg Outcome.next ((State.arrive_of_mayArrive hmay _).trans ?_)
  simp only [hx']
  exact if_pos ⟨hcell, hgen⟩
theorem exec_onlabs_free (hx : s.slot p.tagCell p.tagSlot = none) :
    exec (.onlabs p) s = .next ((s.take { p with opc := .onlabs }).endReissue) := by
  have hx' : (s.take { p with opc := .onlabs }).slot p.tagCell p.tagSlot = none := hx
  refine congrArg Outcome.next ((State.arrive_of_mayArrive hmay _).trans ?_)
  simp only [hx']
end
/-- One advertisement of an address is no conflict (R352). -/
theorem conflicting_singleton (e : Nat × Nat × Nat) : conflicting [e] = false := by
  simp [conflicting, List.eraseDups_cons]
theorem State.advConflict_of_singleton (s : State) (o : Nat) (e : Nat × Nat × Nat) : s.advConflict o [e] = s :=
  if_neg fun h => Bool.false_ne_true ((conflicting_singleton e).symm.trans h.1)
theorem exec_routeadv_first {c : Cell} {x : CPkt} {s : State} {o boot seq : Nat} (ho : o = lineGet (x.p.data.headD 0) 0 1 % 32)
    (hboot : boot = lineGet (x.p.data.headD 0) 4 4) (hseq : seq = lineGet (x.p.data.headD 0) 8 4) (hseen : mgetD [] s.onl.seen o = [])
    (hother : o ≠ s.chainAddr) : exec (.routeadv c x) s =
      .next (({ s.chainTake c x with onl.seen := mset [] (s.chainTake c x).onl.seen o [(boot, seq, s.cyc)] } : State).keepAdv x
        (x.p.data.headD 0) o boot seq) := by
  have hseen' : (s.chainTake c x).onl.seen = s.onl.seen := (s.chainTake_sends c x).get OnlSt.seen
  have hcyc : (s.chainTake c x).cyc = s.cyc := ((s.chainTake_keeps_self c x).frame .cyc (by decide))
  change Outcome.next _ = _
  simp only [← ho, ← hboot, ← hseq, hseen', hcyc, hseen, List.filter_nil, List.any_nil, Bool.false_eq_true, if_false]
  rw [State.advConflict_of_singleton]
  exact congrArg Outcome.next (if_neg fun e => hother (e.trans (s.chainTake_chainAddr c x)))
theorem State.advertise_reads (s : State) : s.advertise.onl.advSeq = (s.onl.advSeq + 1) % 2 ^ 32 ∧ s.advertise.onl.nbrs = s.neighbours := by
  unfold State.advertise
  extract_lets m l _ u
  have h := u.flood_sends l none
  exact ⟨h.get OnlSt.advSeq, h.get OnlSt.nbrs⟩
/-- An origin that has not been heard for 50 ms is dropped (R351). -/
theorem exec_routeadvStale_old {m : Fin 32} {s : State} (h : ∀ v, mget s.onl.adv m.val = some v → v.heard + 50 * msCyc ≤ s.cyc) :
    exec (.routeadvStale m) s = .next (State.routes { s with onl.adv := mdel s.onl.adv m.val }) := by
  refine congrArg Outcome.next (if_neg ?_)
  simpa [Option.any_eq_true] using h
theorem exec_addrConflictClear_old {m : Fin 32} {s : State} (hother : m.val ≠ s.chainAddr)
    (h : ∀ e ∈ mgetD [] s.onl.seen m.val, e.2.2 + 50 * msCyc ≤ s.cyc) : exec (.addrConflictClear m) s =
      .next (State.routes { s.wr (F.ONL_ROUTE_CONFLICT 0 m) 0 with onl.seen := mdel s.onl.seen m.val }) := by
  have hnear : (mgetD [] s.onl.seen m.val).filter (fun e => s.cyc < e.2.2 + 50 * msCyc) = [] := by
    simpa [List.filter_eq_nil_iff] using h
  have haddr : (s.wr (F.ONL_ROUTE_CONFLICT 0 m) 0).chainAddr = s.chainAddr :=
    s.rd_wr_ne 0 (by simp only [F.ONL_ROUTE_CONFLICT, F.ONL_ROUTE_at, F.ONL_CHAIN_ADDR, F.ONL_CHAIN_at]; omega)
  refine congrArg Outcome.next ?_
  rw [hnear, if_neg (by simp)]
  exact congrArg State.routes (if_neg fun e => hother (e.trans haddr))

/-! ### The end of a chain epoch (O17) -/

theorem exec_chainEpochClose_closed {s : State} (h : s.onl.epochOpen = false) : exec .chainEpochClose s = .next s :=
  congrArg Outcome.next (if_pos (by simp [h]))
theorem exec_chainEpochClose_open {s : State} (h : s.onl.epochOpen = true) : ∃ t, exec .chainEpochClose s = .next t ∧ t.onl.epochOpen = false ∧
    t.rd (F.ONL_CHAIN_CEPOCH 0) = (s.rd (F.ONL_CHAIN_CEPOCH 0) + 1) % 2 ^ (F.ONL_CHAIN_CEPOCH 0).width := by
  refine ⟨_, congrArg Outcome.next (if_neg (by simp [h])), rfl, ?_⟩
  refine (State.sends.rd (.foldl (.refl _) fun u a => ?_) (not_linkReg_chain 0)).trans (s.rd_inc 1 (by decide))
  exact (State.absorbChain_sends ..).from_same rfl rfl rfl

/-! ### Probes (O17) -/

/-- PROBE_SEND at one module: a reachable one gets a PROBE with the next PSEQ (R357). -/
def State.probeOne (s : State) (m : Nat) : State :=
  match s.via m with
  | some a =>
    let q := (s.onl.pseq + 1) % 2 ^ 32
    State.chainNew { s with onl.pseq := q, onl.probe := mput s.onl.probe m (q, s.ns) } a (Fin.ofNat 32 m) (payload .probe a [lineOf [(0, s.ns), (8, q)]])
  | none => s
theorem exec_probeSend (s : State) : exec .probeSend s = .next ((List.range 32).foldl State.probeOne s) := rfl
theorem State.probeOne_of_via {s : State} {m : Nat} {a : Cell} (h : s.via m = some a) :
    ∃ q, (s.probeOne m).onl.probe = mput s.onl.probe m q := by
  refine ⟨((s.onl.pseq + 1) % 2 ^ 32, s.ns), ?_⟩
  unfold State.probeOne
  rw [h]
  exact (State.chainNew_sends ..).get OnlSt.probe
theorem State.probeOne_of_unreachable {s : State} {m : Nat} (h : s.via m = none) : s.probeOne m = s := by
  unfold State.probeOne
  rw [h]
theorem State.probeOne_via (s : State) (m : Nat) {k : Nat} (hk : k < 32) : (s.probeOne m).via k = s.via k := by
  unfold State.probeOne
  split
  next a _ =>
    extract_lets q
    have h := State.chainNew_sends { s with onl.pseq := q, onl.probe := mput s.onl.probe m (q, s.ns) } a (Fin.ofNat 32 m)
      (payload .probe a [lineOf [(0, s.ns), (8, q)]])
    exact State.via_congr h.regs h.roles (h.get OnlSt.next) hk
  · rfl
/-- An open probe stays open when others are sent. -/
theorem State.probeOne_keeps_open (s : State) (m : Nat) {k : Nat} (h : mget s.onl.probe k ≠ none) : mget (s.probeOne m).onl.probe k ≠ none := by
  cases hv : s.via m with
  | none => rwa [State.probeOne_of_unreachable hv]
  | some a =>
    obtain ⟨q, hq⟩ := State.probeOne_of_via hv
    rw [hq]
    by_cases hk : m = k
    · subst hk
      rw [mget_mput_self]
      exact Option.some_ne_none _
    · rwa [mget_mput_ne _ _ hk]
theorem State.probeOne_opens {s : State} {m : Nat} (h : s.via m ≠ none) : mget (s.probeOne m).onl.probe m ≠ none := by
  obtain ⟨a, ha⟩ := Option.ne_none_iff_exists'.1 h
  obtain ⟨q, hq⟩ := State.probeOne_of_via ha
  rw [hq, mget_mput_self]
  exact Option.some_ne_none _
/-- After PROBE_SEND at each module of a list, each that is reachable has an open probe, and so has each that had one. -/
theorem foldl_probeOne_ne_none {l : List Nat} (hl : ∀ m ∈ l, m < 32) (s : State) :
    ∀ m, mget s.onl.probe m ≠ none ∨ (m ∈ l ∧ s.via m ≠ none) → mget (l.foldl State.probeOne s).onl.probe m ≠ none := by
  induction l generalizing s with
  | nil => exact fun m h => h.resolve_right fun ⟨hm, _⟩ => absurd hm List.not_mem_nil
  | cons k l ih =>
    intro m h
    refine ih (fun n hn => hl n (.tail _ hn)) (s.probeOne k) m ?_
    rcases h with h | ⟨hm, hvia⟩
    · exact .inl (s.probeOne_keeps_open k h)
    · rcases List.mem_cons.1 hm with rfl | hm'
      · exact .inl (State.probeOne_opens hvia)
      · exact .inr ⟨hm', by rwa [s.probeOne_via k (hl m hm)]⟩
theorem exec_probeSend_opens (s : State) : ∃ t, exec .probeSend s = .next t ∧ ∀ m, m < 32 → s.via m ≠ none → mget t.onl.probe m ≠ none :=
  ⟨_, exec_probeSend s, fun m hm hvia => foldl_probeOne_ne_none (fun _ h => List.mem_range.1 h) s m (.inr ⟨List.mem_range.2 hm, hvia⟩)⟩

/-- A precedence record moves the logs' registers only. -/
theorem State.logYield_regsBut (s : State) (kept yielded : Nat) (cell : Option Cell) (subj cause detail : Nat) :
    s.regsBut stepRegs (s.logYield kept yielded cell subj cause detail) := s.logFaultRec_regsBut _
theorem route_not_mem_stepRegs (c m : Nat) : F.ONL_ROUTE_at c m ∉ stepRegs := by
  simp only [stepRegs, F.ONL_ROUTE_at, F.PKG_FAULT_STATUS_at, F.PKG_FAULT_TIMES_at, F.PKG_LOG_PTR_at, F.PKG_LOG_DROP_at, List.mem_cons,
    List.not_mem_nil, or_false]
  omega
/-- A route of exported capacity that becomes OVER is logged with ranks 4 and 6 (R357). -/
def State.logOver (s : State) (c : Cell) (m : Nat) (late : Bool) : State :=
  if late && !s.rdb (F.ONL_ROUTE_OVER 0 m) && s.onl.rext.any (fun (e : Nat × Nat × Nat) => e.2.1 == m) then s.logYield 4 6 (some c) 0xFFFF 0x010A m
  else s
theorem State.logOver_route (s : State) (c : Cell) (m : Nat) (late : Bool) (k : Nat) :
    (s.logOver c m late).reg (F.ONL_ROUTE_at 0 k) = s.reg (F.ONL_ROUTE_at 0 k) := by
  unfold State.logOver
  split
  · exact s.logYield_regsBut _ _ _ _ _ _ _ (route_not_mem_stepRegs 0 k)
  · rfl
/-- The answer to the open probe gives the round trip and whether it exceeds the budget (R357). -/
theorem exec_probersp_answers {c : Cell} {x : CPkt} {at_ : Nat} {s : State}
    (h : mget s.onl.probe x.cu.smod.val = some (lineGet (x.p.data.headD 0) 8 4, at_)) : exec (.probersp c x) s =
      .next ((((s.chainTake c x).wr (F.ONL_ROUTE_RTT_NS 0 x.cu.smod) (min (2 ^ 32 - 1) (s.ns - lineGet (x.p.data.headD 0) 0 8))).logOver c x.cu.smod
        (decide (s.budgetNs < s.ns - lineGet (x.p.data.headD 0) 0 8))).wrb (F.ONL_ROUTE_OVER 0 x.cu.smod)
        (decide (s.budgetNs < s.ns - lineGet (x.p.data.headD 0) 0 8))) := by
  have hsends := s.chainTake_sends c x
  have hprobe : mget (s.chainTake c x).onl.probe x.cu.smod.val = some (lineGet (x.p.data.headD 0) 8 4, at_) :=
    (congrArg (mget · x.cu.smod.val) (hsends.get OnlSt.probe)).trans h
  have hns : (s.chainTake c x).ns = s.ns := by rw [State.ns, (s.chainTake_keeps_self c x).frame .cyc (by decide), State.ns]
  have hbudget : (s.chainTake c x).budgetNs = s.budgetNs := by rw [State.budgetNs, hsends.rd (not_linkReg_chain 0), State.budgetNs]
  change Outcome.next _ = _
  simp only [hprobe, ne_eq, not_true, if_false, hns, hbudget]
  rfl
theorem exec_probersp_measures {c : Cell} {x : CPkt} {at_ : Nat} {s : State}
    (h : mget s.onl.probe x.cu.smod.val = some (lineGet (x.p.data.headD 0) 8 4, at_)) : ∃ t, exec (.probersp c x) s = .next t ∧
      t.rd (F.ONL_ROUTE_RTT_NS 0 x.cu.smod) = min (2 ^ 32 - 1) (s.ns - lineGet (x.p.data.headD 0) 0 8) ∧
      t.rdb (F.ONL_ROUTE_OVER 0 x.cu.smod) = decide (s.budgetNs < s.ns - lineGet (x.p.data.headD 0) 0 8) := by
  refine ⟨_, exec_probersp_answers h, ?_, ?_⟩
  · refine (State.rd_wr_bits _ _ (by decide) (by decide)).trans ((State.rd_of_reg (State.logOver_route ..)).trans ?_)
    exact (State.rd_wr_self _ _ (by decide)).trans (Nat.mod_eq_of_lt (by omega))
  · rw [State.rdb, State.wrb, State.rd_wr_same _ _ (show 62 + 1 ≤ 64 by decide)]
    cases decide (s.budgetNs < s.ns - lineGet (x.p.data.headD 0) 0 8) <;> rfl

/-! ### Blobs (O17) -/

section
variable {c : Cell} {x : CPkt} {s : State}
theorem State.chainTake_rxBlob (s : State) (c : Cell) (x : CPkt) : (s.chainTake c x).onl.rxBlob = s.onl.rxBlob :=
  (s.chainTake_sends c x).get OnlSt.rxBlob
theorem exec_blob_partial (h : (addPiece (mget s.onl.rxBlob x.cu.smod.val) x.p.data).2 = false) (b : Option Blob) : exec (.blob c x b) s =
    .next { s.chainTake c x with
      onl.rxBlob := mput (s.chainTake c x).onl.rxBlob x.cu.smod.val (addPiece (mget s.onl.rxBlob x.cu.smod.val) x.p.data).1 } := by
  refine congrArg Outcome.next ?_
  simp only [s.chainTake_rxBlob c x, h]
  rfl
theorem exec_blob_unreadable (h : (addPiece (mget s.onl.rxBlob x.cu.smod.val) x.p.data).2 = true) : exec (.blob c x none) s =
    .next (State.sendAck { s.chainTake c x with onl.rxBlob := mdel (s.chainTake c x).onl.rxBlob x.cu.smod.val } c .blob x.cu.smod
      (addPiece (mget s.onl.rxBlob x.cu.smod.val) x.p.data).1.xseq 4) := by
  refine congrArg Outcome.next ?_
  simp only [s.chainTake_rxBlob c x, h]
  rfl
/-- A refused blob's migration ends with RESULT 4, and the blob is repeated no more (R249). -/
theorem exec_blobAck_refused {i q n : Nat} {ls : List Line} {m : Mig} (htx : s.onl.tx = [(i, (x.cu.smod.val, q, n, ls))])
    (hq : q % 2 ^ 64 = lineGet (x.p.data.headD 0) 0 8) (hmig : mget s.pool.migs i = some m) (hr : lineGet (x.p.data.headD 0) 15 1 ≠ 1) :
    ∃ t, exec (.blobAck c x) s = .next t ∧ t.onl.tx = [] ∧ t.rd (F.INST_MIG_STATUS_RESULT i) = 4 ∧ t.rd (F.INST_MIG_BUSY i) = 0 := by
  have htx' : (s.chainTake c x).onl.tx = [(i, (x.cu.smod.val, q, n, ls))] := ((s.chainTake_sends c x).get OnlSt.tx).trans htx
  have hmig' : mget (s.chainTake c x).pool.migs i = some m := by rwa [(s.chainTake_keeps_self c x).frame .pool (by decide)]
  refine ⟨_, rfl, ?_⟩
  simp only [htx', List.find?_cons, hq, beq_self_eq_true, Bool.and_self, hmig', if_neg hr]
  have hne : (F.INST_MIG_BUSY i).addr ≠ (F.INST_MIG_STATUS_RESULT i).addr := by
    simp only [F.INST_MIG_BUSY, F.INST_MIG_at, F.INST_MIG_STATUS_RESULT, F.INST_MIG_STATUS_at]
    omega
  refine ⟨?_, (State.rd_wr_ne _ _ hne).trans (State.rd_wr_self _ _ (by decide)), State.rd_wr_self _ _ (by decide)⟩
  simp [mdel]
theorem exec_blobRetransmit_repeats {i : Inst} {m q n : Nat} {ls : List Line} (h : mget s.onl.tx i.val = some (m, q, n, ls)) :
    exec (.blobRetransmit i) s = .next (s.sendPieces .blob m q n ls) := by
  refine congrArg Outcome.next ?_
  simp only [h]
end

/-! ### Key exchange (O17) -/

/-- The module's own KEYX changes no key that it holds. -/
theorem State.sendKeyx_keys (s : State) (m : Nat) : (s.sendKeyx m).onl.csk = s.onl.csk ∧ (s.sendKeyx m).onl.keyxSeen = s.onl.keyxSeen := by
  unfold State.sendKeyx
  split
  next own identity _ _ =>
    have h := (State.sendPieces_sends s .keyx m (s.onl.boot % 2 ^ 32) (s.keyxBytes own identity).length (linesOf (s.keyxBytes own identity)))
    exact ⟨h.get OnlSt.csk, h.get OnlSt.keyxSeen⟩
  · exact ⟨rfl, rfl⟩
/-- The chain sealing key of a module, from its whole KEYX (Table 11-23). -/
def keyxKey (p : Pieces) (hash : Nat) : PeerKey :=
  { boot := p.xseq, hash := hash, key := (((((mget p.got 0).getD []).take 2).flatMap (fun (l : Line) => leBytes 64 l.toNat)).drop 8).take 97 }
/-- A module's key is held, and its pieces are dropped. -/
def State.holdKey (s : State) (m : Nat) (k : PeerKey) : State :=
  { s with onl.rxKeyx := mdel s.onl.rxKeyx m, onl.csk := mput s.onl.csk m k }
/-- A BOOT not seen before is answered with the module's own KEYX (R351). -/
def State.answerKeyx (s : State) (m xseq : Nat) : State :=
  if s.onl.keyxSeen.contains (m, xseq) then s else State.sendKeyx { s with onl.keyxSeen := (m, xseq) :: s.onl.keyxSeen } m
theorem State.answerKeyx_keys (s : State) (m xseq : Nat) :
    (s.answerKeyx m xseq).onl.csk = s.onl.csk ∧ (m, xseq) ∈ (s.answerKeyx m xseq).onl.keyxSeen := by
  unfold State.answerKeyx
  split
  next hseen => exact ⟨rfl, List.contains_iff_mem.1 hseen⟩
  · obtain ⟨hcsk, hseen⟩ := State.sendKeyx_keys { s with onl.keyxSeen := (m, xseq) :: s.onl.keyxSeen } m
    exact ⟨hcsk, hseen ▸ List.mem_cons_self⟩
section
variable {c : Cell} {x : CPkt} {hash : BitVec 384} {p : Pieces} {s : State}
  (hp : p = (addPiece (mget s.onl.rxKeyx x.cu.smod.val) x.p.data).1) (hack : (lineGet (x.p.data.headD 0) 14 1).testBit 0 = false)
  (hall : (addPiece (mget s.onl.rxKeyx x.cu.smod.val) x.p.data).2 = true) (hmark : lineGet (((mget p.got 0).getD []).headD 0) 0 4 = 0x58464B4A)
  (haddr : lineGet (((mget p.got 0).getD []).headD 0) 4 1 = x.cu.smod.val) (hpeer : hash.toNat ∈ s.img.peers)
include hp hack hall hmark haddr hpeer
/-- A whole KEYX of a peer, signed as it should be, is held and acknowledged (R289, R351). -/
theorem exec_keyx_accepts : exec (.keyx c x true hash) s = .next ((((s.chainTake c x).holdKey x.cu.smod (keyxKey p hash.toNat)).sendAck c .keyx
    x.cu.smod p.xseq 1).answerKeyx x.cu.smod p.xseq) := by
  have hrx : (s.chainTake c x).onl.rxKeyx = s.onl.rxKeyx := (s.chainTake_sends c x).get OnlSt.rxKeyx
  have hpeer' : (s.chainTake c x).img.peers.contains hash.toNat = true := by
    rw [(s.chainTake_keeps_self c x).frame .img (by decide)]
    exact List.contains_iff_mem.2 hpeer
  rw [← hrx] at hp hall
  change Outcome.next _ = _
  simp only [hack, hall, ← hp, hmark, haddr, hpeer', beq_self_eq_true, Bool.and_self, Bool.not_true, Bool.false_eq_true, if_false, if_true]
  rfl
theorem exec_keyx_holds : ∃ t, exec (.keyx c x true hash) s = .next t ∧
    (∃ k, mget t.onl.csk x.cu.smod.val = some k ∧ k.boot = p.xseq ∧ k.hash = hash.toNat) ∧ (x.cu.smod.val, p.xseq) ∈ t.onl.keyxSeen := by
  refine ⟨_, exec_keyx_accepts hp hack hall hmark haddr hpeer, ⟨keyxKey p hash.toNat, ?_, rfl, rfl⟩, (State.answerKeyx_keys ..).2⟩
  rw [(State.answerKeyx_keys ..).1, (State.sendAck_sends ..).get OnlSt.csk]
  exact mget_mput_self _ _ _
end

/-! ### Transit, import and return (O17) -/

section
variable {p : Pkt} {x : CPkt} {s : State} (hmay : s.mayArrive p = true) (hx : unwrap p = some x)
include hmay hx
/-- A packet past HOP_LIMIT is absorbed without an ONLABS (the model's reading, log 85). -/
theorem exec_xfer_beyond (h : s.rd (F.ONL_CHAIN_HOP_LIMIT 0) < x.cu.hops.val) :
    exec (.xfer p) s = .next ((s.take p).inc (F.ONL_HOP_ABSORB_COUNT p.dst)) := by
  refine congrArg Outcome.next ((State.arrive_of_mayArrive hmay _).trans ?_)
  simp only [hx]
  exact if_pos h
theorem exec_xfer_within (h : x.cu.hops.val ≤ s.rd (F.ONL_CHAIN_HOP_LIMIT 0)) (hcep : x.cu.cep = s.cep) :
    exec (.xfer p) s = .next (if s.linkSt p.dst = 3 then (s.take p).queueOn p.dst x else (s.take p).chainOut p.dst x) := by
  have hcep' : (s.take p).cep = x.cu.cep := hcep.symm
  refine congrArg Outcome.next ((State.arrive_of_mayArrive hmay _).trans ?_)
  simp only [hx, hcep']
  rw [if_neg (by simpa using h), if_neg (by simp)]
  rfl
end
/-- The only packet that waits at a cell leaves none when it is taken. -/
theorem State.chainTake_last {s : State} {c p : Cell} {x : CPkt} (h : mgetD [] s.onl.arrived c.val = [(p, x)]) :
    mgetD [] (s.chainTake c x).onl.arrived c.val = [] := by
  simp [State.chainTake, State.freeRx, State.dec, h, mgetD_mmod_self]
/-- The chain slot of an imported request: the module it comes from and its header (R355). -/
def importSlot (x : CPkt) : CSlot := { smod := x.cu.smod, hdr := { x.p with data := [] }, awData := true }
/-- Chain slot k of a cell holds an imported request. -/
def State.importHeld (s : State) (c : Cell) (x : CPkt) (k : Slot) : State :=
  { s with onl.cslot := mput s.onl.cslot (c.val * 1024 + k.val) (importSlot x) }
/-- A request leaves the receive buffer for chain slot k, and is counted (Table 11-14). -/
def State.importTaken (s : State) (c : Cell) (x : CPkt) (k : Slot) : State :=
  (((s.chainTake c x).inc (F.ONL_CSLOT_IMPORTS c)).importHeld c x k).inc (F.ONL_CSLOT_IN_USE c)
theorem State.importTaken_onl (s : State) (c : Cell) (x : CPkt) (k : Slot) :
    (s.importTaken c x k).onl = ((s.chainTake c x).importHeld c x k).onl := by
  rw [State.importTaken, State.inc_onl, State.importHeld, State.inc_onl, State.importHeld]
/-- An imported request as it goes to its MCELL, under chain slot k. -/
def State.importReq (s : State) (c : Cell) (x : CPkt) (k : Slot) : Pkt :=
  { x.p with
    src := c, tagCell := c, tagSlot := k, gen := 0, hslot := Fin.ofNat 128 x.cu.smod.val, home := c
    dst := (s.homeExt c x.p.ext).mcell, mcell := (s.homeExt c x.p.ext).mcell, priv := false }
/-- A request to an extent with memory takes the first chain slot where it is free, and goes to its MCELL (R355). -/
theorem exec_chainImport_sends {c p : Cell} {x : CPkt} {s : State} (harr : mgetD [] s.onl.arrived c.val = [(p, x)])
    (hreq : chainReq x.p.opc = true) (hspec : x.p.opc ≠ .mspec) (hmode : s.mode ≠ .safeStop)
    (hfree : mget s.onl.cslot (c.val * 1024 + 768) = none) (hmem : (s.homeExt c x.p.ext).noMem = false) :
    exec (.chainImport c) s = .next ((s.importTaken c x (Fin.ofNat 1024 768)).send (s.importReq c x (Fin.ofNat 1024 768))) := by
  have hslot : (List.range 256).find? (fun k => (mget s.onl.cslot (c.val * 1024 + 768 + k)).isNone) = some 0 := by
    rw [List.range_succ_eq_map, List.find?_cons_of_pos (by simp [hfree])]
  have hext : ((s.chainTake c x).inc (F.ONL_CSLOT_IMPORTS c)).homeExt c x.p.ext = s.homeExt c x.p.ext := by
    rw [State.homeExt, State.inc, State.wr_home, (s.chainTake_keeps_self c x).frame .home (by decide), ← State.homeExt]
  change Outcome.next _ = _
  simp only [harr, List.find?_cons, hreq, if_neg hmode, hslot, if_neg hspec, hext, hmem, Bool.not_false, if_true]
  rfl
theorem State.importHeld_cslot (s : State) (c : Cell) (x : CPkt) (k : Slot) :
    mget (s.importHeld c x k).onl.cslot (c.val * 1024 + k.val) = some (importSlot x) := mget_mput_self _ _ _
theorem State.importHeld_arrived (s : State) (c : Cell) (x : CPkt) (k : Slot) : (s.importHeld c x k).onl.arrived = s.onl.arrived := rfl
/-- A response from exported capacity goes to the cell of its TAG at its local extent (R356). -/
theorem exec_onoraResponseReturn_sends {c : Cell} {x : CPkt} {e : Nat × Nat × Nat} {s : State}
    (he : s.onl.rext.find? (fun v => v.2.1 == x.cu.smod.val && v.2.2 == x.p.ext) = some e) (hop : x.p.opc ≠ .mcmp) :
    exec (.onoraResponseReturn c x) s = .next ((s.chainTake c x).send
      { x.p with src := c, dst := x.p.tagCell, addr := BitVec.ofNat 52 (x.p.addr.toNat - x.p.ext * 2 ^ 30 + e.1 * 2 ^ 30) }) := by
  have hrext : (s.chainTake c x).onl.rext = s.onl.rext := (s.chainTake_sends c x).get OnlSt.rext
  refine congrArg Outcome.next ?_
  simp only [hrext, he]
  exact if_neg hop


/-! ### The commands together (O17) -/

/-- Settles O17: each clause by the lemma that says once what its command does under the clause's conditions. -/
theorem onoraChainComplete : Obligations.OnoraChainComplete := by
  refine ⟨fun p s hmay => ⟨fun x hx hcell hgen => exec_onlabs_reissues hmay hx hcell hgen, exec_onlabs_free hmay⟩,
    fun c x o boot seq s ho hboot hseq hseen hother => exec_routeadv_first ho hboot hseq hseen hother,
    fun s => ⟨_, rfl, s.advertise_reads⟩, fun m s => ⟨exec_routeadvStale_old, exec_addrConflictClear_old⟩,
    fun s => ⟨exec_chainEpochClose_closed, exec_chainEpochClose_open⟩, exec_probeSend_opens, fun c x n s => rfl,
    fun c x at_ s h => exec_probersp_measures h, fun c x b p s hp => ⟨fun h => ?partly, fun h hb => ?unreadable⟩,
    fun c x i q n ls m s htx hq hmig _ hr => exec_blobAck_refused htx hq hmig hr, fun i m q n ls s h => exec_blobRetransmit_repeats h,
    fun c x h p s hp hack hall hmark haddr hpeer => exec_keyx_holds hp hack hall hmark haddr hpeer,
    fun p x s hmay hx => ⟨exec_xfer_beyond hmay hx, fun hhops hcep => ⟨fun hst => ?link, fun hst => ?onward⟩⟩,
    fun c p x s harr hreq hspec hmode hfree hmem => ?imported,
    fun c x e s he hop => exec_onoraResponseReturn_sends he hop⟩
  case partly => exact hp ▸ exec_blob_partial h b
  case unreadable =>
    subst hp hb
    exact exec_blob_unreadable h
  case link => rw [exec_xfer_within hmay hx hhops hcep, if_pos hst]
  case imported =>
    refine ⟨_, importSlot x, exec_chainImport_sends harr hreq hspec hmode hfree hmem, ?_, rfl, rfl, ?_⟩
    · rw [State.send_onl, State.importTaken_onl]
      exact State.importHeld_cslot _ c x (Fin.ofNat 1024 768)
    · rw [State.send_onl, State.importTaken_onl, State.importHeld_arrived]
      exact State.chainTake_last harr
  case onward => rw [exec_xfer_within hmay hx hhops hcep, if_neg hst]

end Sys2Proof.Machine

/-! # The invariant of every run, the step's two forms, and THERM_N -/

namespace Sys2Proof.Machine
open Host (Outcome)

/-! ### Soundness (O30, O31) -/

/-- The idle cycle keeps a sound state sound. -/
theorem State.tick_sound {s : State} (h : s.Sound) : s.tick.Sound :=
  (State.tick_keeps (P := 75230751) (Nat.and_self _) (Keeps.refl s)).sound h
/-- What is left in the queue is no part of soundness. -/
theorem State.Sound.withPending {s : State} (h : s.Sound) (l : List Instr) : ({ s with pending := l } : State).Sound :=
  ⟨h.regs, h.nor, h.therm, h.answers, h.signs⟩
/-- The registers that State.reset lists stand at rising addresses, none of them at the value of its Reset column. -/
theorem reset_regsOk : regsOk State.reset.regs = true := by decide +kernel

/-- Settles O30: besides its registers, State.reset lists no boot memory, warm sensor, stored answer or request to sign. -/
theorem resetIsSound : Obligations.ResetIsSound :=
  ⟨reset_regsOk, rfl, rfl, Nat.zero_le _, Nat.zero_le _⟩
/-- Settles O31: a step is the idle cycle or the command in front, and each keeps a sound state sound. -/
theorem stepKeepsSound : Obligations.StepKeepsSound := by
  intro s t hs hstep
  unfold step at hstep
  split at hstep
  case h_1 =>
    obtain rfl : s.tick = t := Outcome.next.inj hstep
    exact State.tick_sound hs
  case h_2 c rest _ => exact exec_sound (hs.withPending rest) hstep

/-! ### The two forms of a step (O27, O28) -/

/-- Settles O27: the queue's front selects the branch of step. -/
theorem stepTakesTheFront : Obligations.StepTakesTheFront := fun _ _ _ => rfl

/-- Without the Rind supply no cycle passes. -/
theorem State.tick_of_not_rind {s : State} (h : s.pwr.rind = false) : s.tick = s := if_neg (by simp [h])
/-- What the real-time clock and the debounce leave of a core cycle's start: time moves on by one. -/
def State.newCycle (s : State) : State :=
  { s.rtcCycle.tryDebounce with wall := s.rtcCycle.tryDebounce.wall + 1, setNow := [] }
theorem State.tick_of_rind {s : State} (h : s.pwr.rind = true) :
    s.tick = if s.newCycle.mode = .dormant then s.newCycle.dormantCycle else s.newCycle.runCycle := State.onRind_of_rind h _
theorem State.rtcDebounce_keeps (s : State) : Keeps 2 s s.rtcCycle.tryDebounce :=
  State.tryDebounce_keeps rfl (State.rtcCycle_keeps rfl (Keeps.refl s))
theorem State.newCycle_wall (s : State) : s.newCycle.wall = s.wall + 1 :=
  congrArg (· + 1) (s.rtcDebounce_keeps.frame .wall (by decide))
theorem State.newCycle_mode (s : State) : s.newCycle.mode = s.mode := s.rtcDebounce_keeps.frame .mode (by decide)
theorem State.newCycle_cyc (s : State) : s.newCycle.cyc = s.cyc := s.rtcDebounce_keeps.frame .cyc (by decide)
/-- ENABLE and PWRGD are neither the clock's nor CTRL_STATE. -/
theorem State.newCycle_status (s : State) {f : Fld} (ha : f.addr = F.RIND_PWR_STATUS_at)
    (hf : F.RIND_PWR_STATUS_CTRL_STATE.apart f = true) : s.newCycle.rdb f = s.rdb f := by
  have hrtc : s.rtcCycle.rd f = s.rd f := by
    refine State.rd_of_reg ?_
    rw [ha]
    unfold State.rtcCycle State.inc
    split
    · rfl
    · split
      · rw [State.reg_wr_ne _ _ (by decide), State.reg_wr_ne _ _ (by decide)]
      · rw [State.reg_wr_ne _ _ (by decide)]
  have hdeb : s.rtcCycle.tryDebounce.rd f = s.rtcCycle.rd f := by
    unfold State.tryDebounce
    split
    · exact State.rd_wr_apart _ _ hf
    · rfl
  exact congrArg (· == 1) (hdeb.trans hrtc)

/-- Outside DORMANT a cycle advances package time by one and moves no mode. -/
theorem State.runCycle_mode_cyc (s : State) : s.runCycle.mode = s.mode ∧ s.runCycle.cyc = s.cyc + 1 := by
  have hstart : Keeps 134217722 s s.shapersCycle.leaveCycle.stallCycle :=
    State.stallCycle_keeps rfl (State.leaveCycle_keeps rfl (State.shapersCycle_keeps rfl (Keeps.refl s)))
  unfold State.runCycle
  generalize s.shapersCycle.leaveCycle.stallCycle = u at hstart
  obtain ⟨hmode, hcyc⟩ := hstart.mode_cyc_eq
  extract_lets u' v w x y
  have hrest : Keeps 134217722 v (y.countingCells.foldl State.ctrCycle y) :=
    foldl_keeps (State.resumeDevices_keeps rfl (State.resumeLines_keeps rfl (State.keyxCycle_keeps rfl (State.settleLost_keeps rfl
      (State.xingSync_keeps rfl (State.holdCycle_keeps rfl (State.chunkCycle_keeps rfl (State.admitCycle_keeps rfl
        (State.wheyCycle_keeps rfl (Keeps.refl v))))))))) _) fun _ c h => State.ctrCycle_keeps rfl h c
  obtain ⟨hmode', hcyc'⟩ := hrest.mode_cyc_eq
  exact ⟨hmode'.trans hmode, hcyc'.trans (congrArg (· + 1) hcyc)⟩
theorem State.runCycle_wall (s : State) : s.runCycle.wall = s.wall := (State.runCycle_keeps (P := 67108863) rfl (Keeps.refl s)).wall_eq
theorem State.dormantCycle_wall {s : State} (h : s.mode = .dormant) : s.dormantCycle.wall = s.wall :=
  (State.dormantCycle_keeps (P := 67108863) rfl (Keeps.refl s) h).wall_eq

/-- Settles O28: the cycle of tick by its three branches: no supply, a cycle outside DORMANT, and a cycle in DORMANT. -/
theorem emptyQueuePassesACycle : Obligations.EmptyQueuePassesACycle := by
  intro s hq
  have hstep : step s = .next s.tick := by simp only [step, hq]
  have hqueue : s.tick.pending = [] := (State.tick_keeps (P := 75230751) (Nat.and_self _) (Keeps.refl s)).queue.trans hq
  refine ⟨s.tick, hstep, hqueue, State.tick_of_not_rind, fun hr => ?_⟩
  rw [State.tick_of_rind hr, s.newCycle_mode]
  by_cases hm : s.mode = .dormant
  · rw [if_pos hm]
    refine ⟨(State.dormantCycle_wall (s.newCycle_mode.trans hm)).trans s.newCycle_wall, fun h => absurd hm h, fun _ => ?_⟩
    unfold State.dormantCycle
    rw [s.newCycle_wall, s.newCycle_status rfl (by decide), s.newCycle_status rfl (by decide)]
    refine ⟨fun h => ?_, fun h => ?_⟩
    · rw [if_pos h]
      obtain ⟨hmode, hcyc⟩ := s.newCycle.leaveDormant_mode_cyc
      exact ⟨hcyc, hmode⟩
    · rw [if_neg h]
      exact ⟨s.newCycle_cyc, s.newCycle_mode.trans hm⟩
  · rw [if_neg hm]
    obtain ⟨hmode, hcyc⟩ := s.newCycle.runCycle_mode_cyc
    exact ⟨s.newCycle.runCycle_wall.trans s.newCycle_wall, fun _ => ⟨by rw [hcyc, s.newCycle_cyc], hmode.trans s.newCycle_mode⟩,
      fun h => absurd h hm⟩

/-! ### THERM_N (O37) -/

theorem State.warm_mem (s : State) (x : Fin 52) : x ∈ (s.warm x).therm.warm := by
  unfold State.warm
  dsimp only
  split
  · exact List.contains_iff_mem.1 ‹_›
  · exact .head _
theorem State.warm_keeps_warm (s : State) (x : Fin 52) {y : Fin 52} (h : y ∈ s.therm.warm) : y ∈ (s.warm x).therm.warm := by
  unfold State.warm
  dsimp only
  split
  · exact h
  · exact .tail _ h
theorem exec_thermalWarn {s : State} (h : s.pwr.rind = true) (x : Fin 52) : exec (.thermalWarn x) s = .next (s.warm x) :=
  congrArg Outcome.next (State.onRind_of_rind h _)
theorem exec_thermalRelease {s : State} (h : s.pwr.rind = true) :
    exec .thermalRelease s = .next { s with therm.warm := [], therm.asserted := false } :=
  congrArg Outcome.next (State.onRind_of_rind h _)
/-- The commands that may change the temperature state. -/
theorem therm_not_mem_partsOf {c : Instr} (hw : ∀ x, c ≠ .thermalWarn x) (hr : c ≠ .thermalRelease) (ht : ∀ xs, c ≠ .thermalTrip xs)
    (hs : c ≠ .rindStop) : Part.therm ∉ partsOf c := by
  cases c with
  | thermalWarn x => exact absurd rfl (hw x)
  | thermalRelease => exact absurd rfl hr
  | thermalTrip xs => exact absurd rfl (ht xs)
  | rindStop => exact absurd rfl hs
  | _ => dsimp only [partsOf]; decide

/-- Settles O37: the two commands by what they make of the temperature state, the others by their frame, and the last clause by the
invariant's reading of THERM_N. -/
theorem thermNFollowsTheSensors : Obligations.ThermNFollowsTheSensors := by
  refine ⟨fun x s h => ⟨_, exec_thermalWarn h x, rfl, s.warm_mem x, fun _ => s.warm_keeps_warm x, rfl⟩,
    fun s h => ⟨_, exec_thermalRelease h, rfl, rfl, rfl⟩, fun c s t hw hr ht hs e => ?_, fun s x hs hx => ?_⟩
  · exact (everyCommandFrame c s t e).2 .therm (therm_not_mem_partsOf hw hr ht hs)
  · have hwarm : s.therm.asserted = !s.therm.warm.isEmpty := by simpa [thermOk] using hs.therm
    simp [hwarm, List.ne_nil_of_mem hx]

end Sys2Proof.Machine

/-! # Writes of registers by a service processor: what is attempted, stored and started -/

namespace Sys2Proof.Machine
open Host (Outcome)

/-! ### Words of field values -/

/-- Two bit ranges of a word that share no bit. -/
def rangesApart (l w l' w' : Nat) : Bool := decide (l + w ≤ l') || decide (l' + w' ≤ l)
theorem rangesApart_iff {l w l' w' : Nat} : rangesApart l w l' w' = true ↔ l + w ≤ l' ∨ l' + w' ≤ l := by
  simp [rangesApart]
/-- A field that none of the shown fields touches keeps its bits. -/
theorem getBits_showFields_apart {lsb width : Nat} (hfit : lsb + width ≤ 64) {l : List (Fld × Nat)}
    (h : ∀ f ∈ l.map Prod.fst, rangesApart f.lsb f.width lsb width = true) (w : Word) :
    getBits (showFields w l) lsb width = getBits w lsb width := by
  induction l generalizing w with
  | nil => rfl
  | cons x l ih =>
    obtain ⟨hx, hl⟩ := List.forall_mem_cons.1 h
    exact (ih hl _).trans (getBits_putBits_other _ _ (rangesApart_iff.1 hx) hfit)
/-- A shown field reads its value, cut to its width, if no later one touches it. -/
theorem getBits_showFields_of_split {f : Fld} {v : Nat} (hfit : f.lsb + f.width ≤ 64) (l r : List (Fld × Nat))
    (h : ∀ g ∈ r.map Prod.fst, rangesApart g.lsb g.width f.lsb f.width = true) (w : Word) :
    getBits (showFields w (l ++ (f, v) :: r)) f.lsb f.width = v % 2 ^ f.width := by
  rw [showFields, List.foldl_append]
  exact (getBits_showFields_apart hfit h _).trans (getBits_putBits_same _ _ hfit)

/-! ### What a register shows -/

/-- Reading pulse fields as 0 leaves the fields that share no bit with one (R19). -/
theorem getBits_pulsesZero {lsb width : Nat} (hfit : lsb + width ≤ 64) {fs : List FieldDef}
    (h : ∀ f ∈ fs, f.kind = .pulse → rangesApart f.lsb f.width lsb width = true) (w : Word) :
    getBits (fs.foldl (fun (w : Word) f => if f.kind = .pulse then putBits w f.lsb f.width 0 else w) w) lsb width = getBits w lsb width := by
  induction fs generalizing w with
  | nil => rfl
  | cons f fs ih =>
    obtain ⟨hf, hfs⟩ := List.forall_mem_cons.1 h
    refine (ih hfs _).trans ?_
    dsimp only
    split
    · exact getBits_putBits_other _ _ (rangesApart_iff.1 (hf ‹_›)) hfit
    · rfl
/-- A register of the module shows, with no field pending, its stored word with its views. -/
theorem State.active_pkg {s : State} {a : Nat} {r : RegDef} {l : List Nat} (hr : regAt a = some (r, l)) (hh : s.hidden a = false)
    (hp : s.mgr.pend = []) (ha : a < 0x1000000) {lsb width : Nat} (hfit : lsb + width ≤ 64)
    (hpulse : ∀ f ∈ r.fields, f.kind = .pulse → rangesApart f.lsb f.width lsb width = true) :
    getBits (s.active a) lsb width = getBits (s.viewPkg a (s.reg a)) lsb width := by
  have hhome : homeAddr a = a := if_neg (by omega)
  have hnone : mget s.mgr.pend a = none := by rw [hp]; rfl
  unfold State.active
  simp only [hr, hh, hhome, hnone, Bool.false_eq_true, if_false, if_pos ha]
  exact getBits_pulsesZero hfit hpulse _
/-- A register of a cell shows, with no field pending, its stored word with its views. -/
theorem State.active_cell {s : State} {a : Nat} {c : Cell} {r : RegDef} {l : List Nat} (hr : regAt a = some (r, l)) (hh : s.hidden a = false)
    (hp : s.mgr.pend = []) (hhome : homeAddr a = a) (hc : cellOfAddr a = some c) {lsb width : Nat} (hfit : lsb + width ≤ 64)
    (hpulse : ∀ f ∈ r.fields, f.kind = .pulse → rangesApart f.lsb f.width lsb width = true) :
    getBits (s.active a) lsb width = getBits (s.viewCell c a (s.reg a)) lsb width := by
  have ha : 0x10000000 ≤ a := by
    unfold cellOfAddr at hc
    split at hc
    · omega
    · cases hc
  have hnone : mget s.mgr.pend a = none := by rw [hp]; rfl
  unfold State.active
  simp only [hr, hh, hhome, hnone, Bool.false_eq_true, if_false, hc, if_neg (show ¬ a < 0x1000000 by omega),
    if_neg (show ¬ a < 0x10000000 by omega)]
  exact getBits_pulsesZero hfit hpulse _

/-- Registers of the PKG block are never hidden. -/
theorem State.hidden_pkg (s : State) {a : Nat} (ha : a < 0x100000) : s.hidden a = false := by
  have hc : cellOfAddr a = none := if_neg (by omega)
  simp [State.hidden, State.blockOff, State.unusedReg, hc, show a < 0x400000 by omega, show ¬ 0x400400 ≤ a by omega,
    show ¬ 0x1000000 ≤ a by omega]

/-! ### What a write attempts, stores and starts (R19, R463) -/

/-- A write of word w attempts a field of the register at an address. -/
def State.tries (s : State) (a : Nat) (w : Word) (f : FieldDef) : Bool :=
  match f.kind with
  | .static | .status => false
  | .commit => getBits w f.lsb f.width != getBits (s.shadowed a) f.lsb f.width
  | .live => getBits w f.lsb f.width != getBits (s.active a) f.lsb f.width
  | .clear | .pulse => getBits w f.lsb f.width != 0
/-- The first pass of a write over an attempted field: stores. -/
def State.storeField (u : State) (h : Nat) (w : Word) (f : FieldDef) : State :=
  match f.kind with
  | .live => u.storeLive .sp h f.lsb f.width (getBits w f.lsb f.width)
  | .commit => u.storeShadow h f.lsb f.width (getBits w f.lsb f.width)
  | .clear => u.setReg h (u.reg h &&& ~~~(putBits 0 f.lsb f.width (getBits w f.lsb f.width) &&& ~~~(BitVec.ofNat 64 (mgetD 0 u.setNow h))))
  | _ => u
/-- The state between the stores of a write and its pulses (R20). -/
def State.writeStores (s : State) (a : Nat) (w : Word) (fs : List FieldDef) (u : State) : State :=
  fs.foldl (fun u f => if s.tries a w f then u.storeField (homeAddr a) w f else u) u
/-- The pulses that a write starts. -/
def State.writePulses (s : State) (a : Nat) (w : Word) (e : PulseIn) (fs : List FieldDef) (u : State) : State :=
  fs.foldl (fun u f => if s.tries a w f = true ∧ f.kind = .pulse then u.pulse .sp (homeAddr a) f.lsb e else u) u
theorem State.attempts_eq {s : State} {a : Nat} (ha : regionAddr a = false) (r : RegDef) (w : Word) :
    s.attempts a r w = r.fields.filterMap (fun f => if s.tries a w f then some ⟨f, getBits w f.lsb f.width⟩ else none) := by
  unfold State.attempts State.tries
  rw [ha]
  rfl
theorem State.act_attempts {s : State} {a : Nat} (ha : regionAddr a = false) (r : RegDef) (w : Word) (e : PulseIn) :
    s.act .sp a (s.attempts a r w) e = s.writePulses a w e r.fields (s.writeStores a w r.fields s) := by
  rw [State.attempts_eq ha, State.act, List.foldl_filterMap, List.foldl_filterMap, State.writePulses, State.writeStores]
  congr 1
  · funext u f
    by_cases ht : s.tries a w f = true
    · simp only [ht, if_true, true_and]
    · simp [ht]
  · congr 1
    funext u f
    by_cases ht : s.tries a w f = true
    · simp only [ht, if_true]
      rfl
    · simp [ht]
theorem State.reaches_reg {a : Nat} {x : RegDef × List Nat} (h8 : a % 8 = 0) (hr : regAt a = some x) (s : State) (src : Src) (data : Nat) :
    s.reaches src a data = none := by
  rw [State.reaches, if_neg (not_not.2 h8), hr]
  rfl
/-- A service processor's write of a register that stands on the map and shows: what it attempts acts, and PKG_LOG_SEL starts a fetch. -/
theorem State.writeReg_sp {s : State} {a : Nat} {r : RegDef} {l : List Nat} (h8 : a % 8 = 0) (hr : regAt a = some (r, l))
    (hh : (s.rindAccess a).hidden a = false) (w : Word) (e : PulseIn) : s.writeReg .sp a w e =
      if a = F.PKG_LOG_SEL_at then ((s.rindAccess a).act .sp a ((s.rindAccess a).attempts a r w) e).logFetchOp
      else (s.rindAccess a).act .sp a ((s.rindAccess a).attempts a r w) e := by
  unfold State.writeReg
  simp only [reduceCtorEq, false_and, if_false, State.reaches_reg h8 hr, hr, hh, Bool.false_eq_true, State.permit, and_true]
theorem State.rindAccess_outside {a : Nat} (h : ¬ (0x100000 ≤ a ∧ a < 0x200000)) (s : State) : s.rindAccess a = s := by
  unfold State.rindAccess
  split
  · exact if_neg h
  · rfl
/-- A service processor's write outside the Rind domain, but of PKG_LOG_SEL: stores, then pulses. -/
theorem State.writeReg_sp_eq {s : State} {a : Nat} {r : RegDef} {l : List Nat} (h8 : a % 8 = 0) (hr : regAt a = some (r, l))
    (hh : s.hidden a = false) (hrind : ¬ (0x100000 ≤ a ∧ a < 0x200000)) (hreg : regionAddr a = false) (hsel : a ≠ F.PKG_LOG_SEL_at) (w : Word)
    (e : PulseIn) : s.writeReg .sp a w e = s.writePulses a w e r.fields (s.writeStores a w r.fields s) := by
  have hs := State.rindAccess_outside hrind s
  rw [State.writeReg_sp h8 hr (by rw [hs]; exact hh), if_neg hsel, hs, State.act_attempts hreg]

/-! ### Live fields -/

/-- The field of a register at an address. -/
def FieldDef.at_ (f : FieldDef) (a : Nat) : Fld := ⟨a, f.lsb, f.width⟩
/-- The fields of a register, each within 64 bits, none sharing a bit with another. -/
def fieldsOk (fs : List FieldDef) : Bool :=
  fs.all (fun f => decide (f.lsb + f.width ≤ 64)) && decide (fs.Pairwise (fun f g => rangesApart f.lsb f.width g.lsb g.width = true))
/-- A write meets plain fields: it stores the live ones where they stand, opens no shadow and clears nothing. -/
structure PlainWrite (a : Nat) (w : Word) (fs : List FieldDef) : Prop where
  home : homeAddr a = a
  stores : ∀ (u : State) lsb width v, u.storeLive .sp a lsb width v = u.wr ⟨a, lsb, width⟩ v
  fields : ∀ f ∈ fs, f.kind ≠ .commit ∧ (f.kind = .clear → getBits w f.lsb f.width = 0)
theorem PlainWrite.head {a : Nat} {w : Word} {f : FieldDef} {fs : List FieldDef} (h : PlainWrite a w (f :: fs)) : PlainWrite a w [f] :=
  ⟨h.home, h.stores, List.forall_mem_singleton.2 (h.fields f (.head _))⟩
theorem PlainWrite.tail {a : Nat} {w : Word} {f : FieldDef} {fs : List FieldDef} (h : PlainWrite a w (f :: fs)) : PlainWrite a w fs :=
  ⟨h.home, h.stores, fun g hg => h.fields g (.tail _ hg)⟩
section
variable {s : State} {a : Nat} {w : Word}
/-- What a write does to one plain field: nothing, or a store of a live field. -/
theorem PlainWrite.field {f : FieldDef} (h : PlainWrite a w [f]) (u : State) : s.writeStores a w [f] u = u ∨
    f.kind = .live ∧ s.writeStores a w [f] u = u.wr (f.at_ a) (getBits w f.lsb f.width) := by
  obtain ⟨hcommit, hclear⟩ := h.fields f (.head _)
  change (if s.tries a w f then u.storeField (homeAddr a) w f else u) = u ∨
    f.kind = .live ∧ (if s.tries a w f then u.storeField (homeAddr a) w f else u) = _
  rw [h.home]
  by_cases ht : s.tries a w f = true
  · rw [if_pos ht]
    unfold State.storeField
    cases hkind : f.kind with
    | live => exact .inr ⟨rfl, h.stores ..⟩
    | commit => exact absurd hkind hcommit
    | clear => simp [State.tries, hkind, hclear hkind] at ht
    | static | status | pulse => exact .inl rfl
  · exact .inl (if_neg ht)
/-- A plain write changes its register alone. -/
theorem State.writeStores_onlyRegs {fs : List FieldDef} (h : PlainWrite a w fs) (u : State) : u.onlyRegs [a] (s.writeStores a w fs u) := by
  induction fs generalizing u with
  | nil => exact .refl _ u
  | cons f fs ih =>
    refine .trans ?_ (ih h.tail (s.writeStores a w [f] u))
    rcases h.head.field u with e | ⟨-, e⟩
    · rw [e]
      exact .refl _ u
    · rw [e]
      exact u.wr_onlyRegs _ _
/-- A plain write leaves a field that is no live field of its register. -/
theorem State.rd_writeStores_apart {fs : List FieldDef} (h : PlainWrite a w fs) {g : Fld} (hg : g.lsb + g.width ≤ 64)
    (hl : ∀ f ∈ fs, f.kind = .live → rangesApart f.lsb f.width g.lsb g.width = true) (u : State) : (s.writeStores a w fs u).rd g = u.rd g := by
  induction fs generalizing u with
  | nil => rfl
  | cons f fs ih =>
    obtain ⟨hf, hls⟩ := List.forall_mem_cons.1 hl
    refine (ih h.tail hls (s.writeStores a w [f] u)).trans ?_
    rcases h.head.field u with e | ⟨hlive, e⟩
    · rw [e]
    · rw [e]
      exact u.rd_wr_disjoint _ hg (.inr (rangesApart_iff.1 (hf hlive)))
/-- After a plain write a live field holds what the word has for it, whether the write attempts it or finds it there. -/
theorem State.rd_writeStores_live {fs : List FieldDef} (hok : fieldsOk fs = true) (h : PlainWrite a w fs) {f : FieldDef} (hf : f ∈ fs)
    (hlive : f.kind = .live) (u : State) (hu : u.rd (f.at_ a) = getBits (s.active a) f.lsb f.width) :
    (s.writeStores a w fs u).rd (f.at_ a) = getBits w f.lsb f.width := by
  simp only [fieldsOk, Bool.and_eq_true, List.all_eq_true, decide_eq_true_eq] at hok
  obtain ⟨hfit, hpair⟩ := hok
  induction fs generalizing u with
  | nil => cases hf
  | cons x fs ih =>
    obtain ⟨hx, hpair⟩ := List.pairwise_cons.1 hpair
    obtain ⟨hfx, hffs⟩ := List.forall_mem_cons.1 hfit
    change (s.writeStores a w fs (s.writeStores a w [x] u)).rd _ = _
    rcases List.mem_cons.1 hf with rfl | hf
    · rw [State.rd_writeStores_apart h.tail hfx fun g hg _ => rangesApart_iff.2 (rangesApart_iff.1 (hx g hg)).symm]
      change State.rd (if s.tries a w f then u.storeField (homeAddr a) w f else u) _ = _
      by_cases ht : s.tries a w f = true
      · rw [if_pos ht, h.home, State.storeField, hlive]
        dsimp only
        rw [h.stores]
        exact (State.rd_wr_same u (f := f.at_ a) _ hfx).trans (Nat.mod_eq_of_lt (Nat.mod_lt _ (Nat.two_pow_pos _)))
      · rw [if_neg ht, hu]
        by_contra hne
        refine ht ?_
        rw [State.tries, hlive]
        exact bne_iff_ne.2 (Ne.symm hne)
    · refine ih h.tail hf _ ?_ hffs hpair
      exact (State.rd_writeStores_apart h.head (hffs f hf) (List.forall_mem_singleton.2 fun _ => hx f hf) u).trans hu
end

/-! ### Registers of the PKG block -/

/-- The live fields of a register of the PKG block that has no views show what is stored, with no field pending. -/
theorem State.active_live {s : State} {a : Nat} {r : RegDef} (hr : regAt a = some (r, [])) (hp : s.mgr.pend = []) (ha : a < 0x100000)
    (hview : ∀ w, s.viewPkg a w = w) (hok : fieldsOk r.fields = true)
    (hpulse : ∀ f ∈ r.fields, f.kind = .live → ∀ g ∈ r.fields, g.kind = .pulse → rangesApart g.lsb g.width f.lsb f.width = true)
    {f : FieldDef} (hf : f ∈ r.fields) (hlive : f.kind = .live) : s.rd (f.at_ a) = getBits (s.active a) f.lsb f.width := by
  simp only [fieldsOk, Bool.and_eq_true, List.all_eq_true, decide_eq_true_eq] at hok
  rw [State.active_pkg hr (State.hidden_pkg s ha) hp (by omega) (hok.1 f hf) (hpulse f hf hlive), hview]
  rfl
/-- What a service processor's write of a register of the PKG block leaves for its pulses: the register's live fields hold what the word has for
them, and nothing else changed. -/
theorem State.pkgWrite_sp {s : State} {a : Nat} {r : RegDef} {w : Word} (e : PulseIn) (hr : regAt a = some (r, [])) (hp : s.mgr.pend = [])
    (ha : a < 0x100000 ∧ a % 8 = 0 ∧ a ≠ F.PKG_LOG_SEL_at) (hview : ∀ w, s.viewPkg a w = w) (hok : fieldsOk r.fields = true)
    (hpulse : ∀ f ∈ r.fields, f.kind = .live → ∀ g ∈ r.fields, g.kind = .pulse → rangesApart g.lsb g.width f.lsb f.width = true)
    (hplain : PlainWrite a w r.fields) :
    ∃ u, s.writeReg .sp a w e = s.writePulses a w e r.fields u ∧ s.onlyRegs [a] u ∧
      (∀ f ∈ r.fields, f.kind = .live → u.rd (f.at_ a) = getBits w f.lsb f.width) ∧
      (∀ g : Fld, g.lsb + g.width ≤ 64 → (∀ f ∈ r.fields, f.kind = .live → rangesApart f.lsb f.width g.lsb g.width = true) → u.rd g = s.rd g) := by
  obtain ⟨hlt, h8, hsel⟩ := ha
  refine ⟨s.writeStores a w r.fields s, State.writeReg_sp_eq h8 hr (State.hidden_pkg s hlt) (by omega) ?_ hsel w e,
    State.writeStores_onlyRegs hplain s, fun f hf hlive => ?_, fun g hg hl => State.rd_writeStores_apart hplain hg hl s⟩
  · simp [regionAddr]; omega
  · exact State.rd_writeStores_live hok hplain hf hlive s (State.active_live hr hp hlt hview hok hpulse hf hlive)

end Sys2Proof.Machine

/-! # Power entry: what each event of the feeds, the contacts and the controller leaves in the registers -/

namespace Sys2Proof.Machine
open Host (Outcome)

/-! ### Fields that a step of the power entry leaves (O18) -/

section
variable (s : State) {f g : Fld} {n : Nat}
theorem State.rd_sat_apart (h : f.apart g = true) : (s.sat f n).rd g = s.rd g := s.rd_wr_apart _ h
theorem State.rd_raise_apart (h : f.apart g = true) : (s.raise f n).rd g = s.rd g := s.rd_wr_apart _ h
theorem State.rd_lower_apart (h : f.apart g = true) : (s.lower f n).rd g = s.rd g := by
  unfold State.lower
  split
  · exact s.rd_wr_apart _ h
  · rfl
theorem State.rd_setCtrl_apart (h : F.RIND_PWR_STATUS_CTRL_STATE.apart g = true) : (s.setCtrl n).rd g = s.rd g := s.rd_wr_apart _ h
theorem State.rd_showPower_apart (hp : F.RIND_PWR_BUS_P_NOW.apart g = true) (hc : F.RIND_PWR_STATUS_CARRYING.apart g = true) :
    s.showPower.rd g = s.rd g := (State.rd_wr_apart _ _ hc).trans (s.rd_wr_apart _ hp)
theorem State.rd_gatesOff_apart (hs : F.RIND_PWR_STATUS_CTRL_STATE.apart g = true) (hg : F.RIND_PWR_STATUS_GATE_ON.apart g = true)
    (hp : F.RIND_PWR_BUS_P_NOW.apart g = true) (hc : F.RIND_PWR_STATUS_CARRYING.apart g = true) : (s.gatesOff n).rd g = s.rd g :=
  (State.rd_showPower_apart _ hp hc).trans ((State.rd_wr_apart _ _ hg).trans (s.rd_setCtrl_apart hs))
theorem State.rd_tryDebounce_apart (h : F.RIND_PWR_STATUS_CTRL_STATE.apart g = true) : s.tryDebounce.rd g = s.rd g := by
  unfold State.tryDebounce
  split
  · exact s.rd_setCtrl_apart h
  · rfl
theorem State.rd_feedCurrent_apart {i : Nat} (hn : (F.RIND_PWR_FEED_I_NOW i).apart g = true) (hk : (F.RIND_PWR_FEED_I_PEAK i).apart g = true)
    (hp : F.RIND_PWR_BUS_P_NOW.apart g = true) (hc : F.RIND_PWR_STATUS_CARRYING.apart g = true) : (s.feedCurrent i n).rd g = s.rd g :=
  (State.rd_showPower_apart _ hp hc).trans ((State.rd_raise_apart _ hk).trans (s.rd_wr_apart _ hn))
theorem State.rd_setFeed_apart {i st : Nat} (hs : (feedFld i).apart g = true) (hn : (F.RIND_PWR_FEED_V_NOW i).apart g = true)
    (hm : (F.RIND_PWR_FEED_V_MIN i).apart g = true) (hp : F.RIND_PWR_BUS_P_NOW.apart g = true) (hc : F.RIND_PWR_STATUS_CARRYING.apart g = true) :
    (s.setFeed i st n).rd g = s.rd g := by
  have hwr : ((s.wr (feedFld i) st).wr (F.RIND_PWR_FEED_V_NOW i) n).rd g = s.rd g := (State.rd_wr_apart _ _ hn).trans (s.rd_wr_apart _ hs)
  refine (State.rd_showPower_apart _ hp hc).trans ?_
  split
  · exact (State.rd_lower_apart _ hm).trans hwr
  · exact hwr
end
theorem State.ctrl_setCtrl (s : State) {n : Nat} (h : n < 16) : (s.setCtrl n).ctrl = n := (s.rd_wr_same n (by decide)).trans (Nat.mod_eq_of_lt h)
theorem State.ctrl_showPower (s : State) : s.showPower.ctrl = s.ctrl := s.rd_showPower_apart (by decide) (by decide)
theorem State.ctrl_gatesOff (s : State) {n : Nat} (h : n < 16) : (s.gatesOff n).ctrl = n :=
  (State.ctrl_showPower _).trans ((State.ctrl_wr_apart (by decide)).trans (s.ctrl_setCtrl h))

/-! ### Feeds (R383 to R386) -/

/-- A feed's state and voltage share no bit with one another, with the bus's power or with the controller's state. -/
theorem feed_apart (f : Fin 2) : (F.RIND_PWR_FEED_V_NOW f).apart (feedFld f) = true ∧ (F.RIND_PWR_FEED_V_MIN f).apart (feedFld f) = true ∧
    (F.RIND_PWR_FEED_V_MIN f).apart (F.RIND_PWR_FEED_V_NOW f) = true ∧
    ∀ g ∈ [feedFld f, F.RIND_PWR_FEED_V_NOW f], F.RIND_PWR_BUS_P_NOW.apart g = true ∧ F.RIND_PWR_STATUS_CARRYING.apart g = true ∧
      F.RIND_PWR_STATUS_CTRL_STATE.apart g = true := by revert f; decide
theorem State.rd_wr_feedFld (s : State) (f : Fin 2) {st : Nat} (h : st < 4) : (s.wr (feedFld f) st).rd (feedFld f) = st := by
  have hfit : (feedFld f).lsb + (feedFld f).width ≤ 64 := by revert f; decide
  have hwidth : (feedFld f).width = 2 := by revert f; decide
  rw [State.rd_wr_same _ _ hfit, hwidth]
  exact Nat.mod_eq_of_lt h
theorem State.rd_setFeed_state (s : State) (f : Fin 2) {st : Nat} (h : st < 4) (v : Nat) : (s.setFeed f st v).rd (feedFld f) = st := by
  obtain ⟨hnow, hmin, -, hbus⟩ := feed_apart f
  obtain ⟨hp, hc, -⟩ := hbus (feedFld f) (.head _)
  have hst : ((s.wr (feedFld f) st).wr (F.RIND_PWR_FEED_V_NOW f) v).rd (feedFld f) = st :=
    (State.rd_wr_apart _ _ hnow).trans (s.rd_wr_feedFld f h)
  refine (State.rd_showPower_apart _ hp hc).trans ?_
  split
  · exact (State.rd_lower_apart _ hmin).trans hst
  · exact hst
theorem State.rd_setFeed_voltage (s : State) (f : Fin 2) (st : Nat) (v : BitVec 16) :
    (s.setFeed f st v.toNat).rd (F.RIND_PWR_FEED_V_NOW f) = v.toNat := by
  obtain ⟨-, -, hmin, hbus⟩ := feed_apart f
  obtain ⟨hp, hc, -⟩ := hbus (F.RIND_PWR_FEED_V_NOW f) (.tail _ (.head _))
  have hv : ((s.wr (feedFld f) st).wr (F.RIND_PWR_FEED_V_NOW f) v.toNat).rd (F.RIND_PWR_FEED_V_NOW f) = v.toNat :=
    (State.rd_wr_same _ _ (show 0 + 16 ≤ 64 by decide)).trans (Nat.mod_eq_of_lt v.isLt)
  refine (State.rd_showPower_apart _ hp hc).trans ?_
  split
  · exact (State.rd_lower_apart _ hmin).trans hv
  · exact hv
theorem State.setFeed_ctrl (s : State) (f : Fin 2) (st v : Nat) : (s.setFeed f st v).ctrl = s.ctrl :=
  s.rd_setFeed_apart (by revert f; decide) (by revert f; decide) (by revert f; decide) (by decide) (by decide)
theorem State.rd_setFeed_other (s : State) (f : Fin 2) (st v : Nat) : (s.setFeed f st v).rd (feedFld (1 - f.val)) = s.rd (feedFld (1 - f.val)) :=
  s.rd_setFeed_apart (by revert f; decide) (by revert f; decide) (by revert f; decide) (by revert f; decide) (by revert f; decide)
theorem State.anyFeed_iff (s : State) (f : Fin 2) : s.anyFeed = true ↔ s.rd (feedFld f) = 1 ∨ s.rd (feedFld (1 - f.val)) = 1 := by
  have hboth : s.anyFeed = true ↔ s.rd (feedFld 0) = 1 ∨ s.rd (feedFld 1) = 1 := by simp [State.anyFeed, State.feedOk]
  fin_cases f
  · exact hboth
  · exact hboth.trans or_comm
theorem exec_feedValid {s : State} (h : s.pwr.rind = true) (f : Fin 2) (v : BitVec 16) : ∃ t, exec (.feedValid f v) s = .next t ∧
    t.rd (feedFld f) = 1 ∧ t.rd (F.RIND_PWR_FEED_V_NOW f) = v.toNat :=
  ⟨_, congrArg Outcome.next (State.onRind_of_rind h _),
    (State.rd_tryDebounce_apart _ (by revert f; decide)).trans (s.rd_setFeed_state f (by decide) _),
    (State.rd_tryDebounce_apart _ (by revert f; decide)).trans (s.rd_setFeed_voltage f 1 v)⟩

/-- A feed that was VALID and is so no longer is counted as lost. -/
def State.feedGone (s : State) (f : Fin 2) (st v : Nat) : State :=
  (s.setFeed f st v).sat (if f = 0 then F.RIND_PWR_FEED_EVT_LOSS_A else F.RIND_PWR_FEED_EVT_LOSS_B)
theorem State.feedLost_of_supplied {s : State} {f : Fin 2} {st v : Nat} (h : s.rd (feedFld f) = 1) (hany : (s.feedGone f st v).anyFeed = true) :
    s.feedLost f st v = (s.feedGone f st v).logFault 0x10 none 0xFFFF 0x000E f.val f.val true := by
  have hwas : s.feedOk f = true := beq_iff_eq.2 h
  unfold State.feedLost
  simp only [hwas, if_true, Bool.not_true, Bool.false_eq_true, if_false]
  exact if_pos hany
theorem State.feedLost_of_debounce {s : State} {f : Fin 2} {st v : Nat} (h : s.rd (feedFld f) = 1) (hany : ¬ (s.feedGone f st v).anyFeed = true)
    (hc : (s.feedGone f st v).ctrl = 1) : s.feedLost f st v = (s.feedGone f st v).setCtrl 0 := by
  have hwas : s.feedOk f = true := beq_iff_eq.2 h
  unfold State.feedGone at hany hc
  unfold State.feedLost State.feedGone
  simp only [hwas, if_true, Bool.not_true, Bool.false_eq_true, if_false, if_neg hany, hc]
theorem State.feedGone_reads (s : State) (f : Fin 2) {st : Nat} (h : st < 4) (v : Nat) : (s.feedGone f st v).rd (feedFld f) = st ∧
    (s.feedGone f st v).rd (feedFld (1 - f.val)) = s.rd (feedFld (1 - f.val)) ∧ (s.feedGone f st v).ctrl = s.ctrl :=
  ⟨(State.rd_sat_apart _ (by revert f; decide)).trans (s.rd_setFeed_state f h v),
    (State.rd_sat_apart _ (by revert f; decide)).trans (s.rd_setFeed_other f st v),
    (State.rd_sat_apart _ (by revert f; decide)).trans (s.setFeed_ctrl f st v)⟩
theorem State.feedGone_activeSp (s : State) (f : Fin 2) (st v : Nat) : (s.feedGone f st v).activeSp = s.activeSp :=
  (State.sat_keeps rfl (State.setFeed_keeps rfl (Keeps.refl s) f st v) _ _).activeSp_eq
/-- With the other feed VALID the loss of one is a fault outside the promise (R383, R377). -/
theorem State.feedLost_logs {s : State} {f : Fin 2} (h : s.rd (feedFld f) = 1) (ho : s.rd (feedFld (1 - f.val)) = 1) (hsp : s.activeSp ≠ none)
    {st : Nat} (hst : st < 4) (v : Nat) : ∃ r, (s.feedLost f st v).rd (feedFld f) = st ∧
      (s.feedLost f st v).log.fault.head? = some r ∧ r.cls = 0x10 ∧ r.cause = 0x000E := by
  obtain ⟨hgone, hother, -⟩ := s.feedGone_reads f hst v
  have hany : (s.feedGone f st v).anyFeed = true := (State.anyFeed_iff _ f).2 (.inr (hother.trans ho))
  have hsp' : (s.feedGone f st v).activeSp ≠ none := by rwa [s.feedGone_activeSp]
  rw [State.feedLost_of_supplied h hany]
  obtain ⟨r, hr, hcls, hcause, -⟩ := State.logFault_newest hsp' 0x10 none 0xFFFF 0x000E f.val f.val true
  refine ⟨r, (State.rd_of_reg (State.logFault_regsBut _ _ _ _ _ _ _ _ _ ?_)).trans hgone, hr, hcls, hcause⟩
  rw [feedFld_addr]
  decide
/-- Without another one it ends a debounce (Table 13-2). -/
theorem State.feedLost_debounce {s : State} {f : Fin 2} (h : s.rd (feedFld f) = 1) (ho : s.rd (feedFld (1 - f.val)) ≠ 1) (hc : s.ctrl = 1)
    {st : Nat} (hst : st < 4) (h1 : st ≠ 1) (v : Nat) : (s.feedLost f st v).rd (feedFld f) = st ∧ (s.feedLost f st v).ctrl = 0 := by
  obtain ⟨hgone, hother, hctrl⟩ := s.feedGone_reads f hst v
  have hnone : ¬ (s.feedGone f st v).anyFeed = true := by
    rw [State.anyFeed_iff _ f, hgone, hother]
    exact not_or.2 ⟨h1, ho⟩
  rw [State.feedLost_of_debounce h hnone (hctrl.trans hc)]
  obtain ⟨-, -, -, hbus⟩ := feed_apart f
  exact ⟨(State.rd_setCtrl_apart _ (hbus _ (.head _)).2.2).trans hgone, State.ctrl_setCtrl _ (by decide)⟩
theorem exec_feedUv {s : State} (hr : s.pwr.rind = true) {f : Fin 2} (h : s.rd (feedFld f) = 1) (v : BitVec 16) :
    exec (.feedUv f v) s = .next (s.feedLost f 2 v.toNat) :=
  congrArg Outcome.next ((State.onRind_of_rind hr _).trans (if_pos (beq_iff_eq.2 h)))
theorem exec_feedOv {s : State} (hr : s.pwr.rind = true) (f : Fin 2) (v : BitVec 16) :
    exec (.feedOv f v) s = .next (s.feedLost f 3 v.toNat) := congrArg Outcome.next (State.onRind_of_rind hr _)


/-! ### Contacts, ramp and trips (Table 13-2, R387 to R393) -/

theorem exec_idealDiodeReverseOff {s : State} (h : s.pwr.rind = true) : ∃ t, exec (.idealDiodeReverseOff 0) s = .next t ∧
    t.rd F.RIND_PWR_STATUS_CARRYING = s.rd F.RIND_PWR_STATUS_CARRYING &&& 2 ∧
    t.rd F.RIND_PWR_FEED_EVT_REV_OFF_A = min (2 ^ F.RIND_PWR_FEED_EVT_REV_OFF_A.width - 1) (s.rd F.RIND_PWR_FEED_EVT_REV_OFF_A + 1) := by
  refine ⟨_, congrArg Outcome.next (State.onRind_of_rind h _), ?_, ?_⟩
  · refine (State.rd_wr_same _ _ (by decide)).trans ?_
    rw [if_pos rfl, if_pos rfl, State.rd_sat_apart _ (by decide)]
    exact Nat.mod_eq_of_lt (Nat.lt_of_le_of_lt Nat.and_le_right (by decide))
  · exact (State.rd_wr_apart _ _ (by decide)).trans (s.rd_sat 1 (by decide))
/-- The contacts as SENSE_MATED finds them. -/
def State.mated (s : State) : State := ((s.wr F.RIND_PWR_STATUS_SENSE_L 1).wr F.RIND_PWR_STATUS_SENSE_M 1).wr F.RIND_PWR_STATUS_SENSE_S 1
theorem State.mated_reads (s : State) : s.mated.rd F.RIND_PWR_STATUS_SENSE_L = 1 ∧ s.mated.rd F.RIND_PWR_STATUS_SENSE_M = 1 ∧
    s.mated.rd F.RIND_PWR_STATUS_SENSE_S = 1 ∧ s.mated.ctrl = s.ctrl ∧ s.mated.rd (feedFld 0) = s.rd (feedFld 0) := by
  unfold State.mated State.ctrl
  simp (disch := decide) only [State.rd_wr_same, State.rd_wr_apart, and_true]
  exact ⟨rfl, rfl, rfl⟩
theorem exec_senseMated {s : State} (h : s.pwr.rind = true) : ∃ t, exec .senseMated s = .next t ∧ t.rd F.RIND_PWR_STATUS_SENSE_L = 1 ∧
    t.rd F.RIND_PWR_STATUS_SENSE_M = 1 ∧ t.rd F.RIND_PWR_STATUS_SENSE_S = 1 ∧ (s.ctrl = 0 → s.rd (feedFld 0) = 1 → t.ctrl = 1) ∧
    (s.ctrl ≠ 0 → t.ctrl = s.ctrl) := by
  obtain ⟨hl, hm, hs, hctrl, hfeed⟩ := s.mated_reads
  refine ⟨s.mated.tryDebounce, congrArg Outcome.next (State.onRind_of_rind h _), ?_, ?_, ?_, fun h0 hf => ?_, fun h0 => ?_⟩
  · exact (State.rd_tryDebounce_apart _ (by decide)).trans hl
  · exact (State.rd_tryDebounce_apart _ (by decide)).trans hm
  · exact (State.rd_tryDebounce_apart _ (by decide)).trans hs
  · have hsenses : s.mated.senses = true := by simp [State.senses, State.rdb, hl, hm, hs]
    have hany : s.mated.anyFeed = true := (State.anyFeed_iff _ 0).2 (.inl (hfeed.trans hf))
    rw [State.tryDebounce, if_pos ⟨hctrl.trans h0, hsenses, hany⟩]
    exact State.ctrl_setCtrl _ (by decide)
  · rw [State.tryDebounce, if_neg fun h => h0 (hctrl.symm.trans h.1)]
    exact hctrl
theorem exec_debounceExpiry {s : State} (hr : s.pwr.rind = true) (h : s.ctrl = 1) : ∃ t, exec .debounceExpiry s = .next t ∧ t.ctrl = 2 :=
  ⟨_, congrArg Outcome.next ((State.onRind_of_rind hr _).trans (if_pos h)), (State.ctrl_showPower _).trans (s.ctrl_setCtrl (by decide))⟩
theorem exec_rampComplete {s : State} (hr : s.pwr.rind = true) (h : s.ctrl = 2) (v : BitVec 16) : ∃ t, exec (.rampComplete v) s = .next t ∧
    t.ctrl = 3 ∧ t.rd F.RIND_PWR_STATUS_GATE_ON = 1 ∧ t.rd F.RIND_PWR_BUS_V_NOW = v.toNat := by
  refine ⟨_, congrArg Outcome.next ((State.onRind_of_rind hr _).trans (if_pos h)), ?_, ?_, ?_⟩
  · rw [State.ctrl_showPower, State.ctrl, State.rd_lower_apart _ (by decide), State.rd_wr_apart _ _ (by decide), State.rd_wr_apart _ _ (by decide)]
    exact s.ctrl_setCtrl (by decide)
  · rw [State.rd_showPower_apart _ (by decide) (by decide), State.rd_lower_apart _ (by decide), State.rd_wr_apart _ _ (by decide)]
    exact State.rd_wr_same _ _ (by decide)
  · rw [State.rd_showPower_apart _ (by decide) (by decide), State.rd_lower_apart _ (by decide)]
    exact (State.rd_wr_same _ _ (by decide)).trans (Nat.mod_eq_of_lt v.isLt)

/-- What a trip notes before the gates are pulled: the retries so far, the cause and the time (R393). -/
def State.tripNoted (s : State) (cause : Nat) : State :=
  ((((s.wr F.RIND_PWR_LAST_RETRY_AT (s.rd F.RIND_PWR_STATUS_RETRY_CNT)).wr F.RIND_PWR_LAST_CAUSE cause).wr F.RIND_PWR_LAST_RTC_S
    (s.rd F.RIND_RTC_SEC)).wr F.RIND_PWR_STATUS_TIMER_RUN 0).wr F.RIND_PWR_TIMER_TIMER_NOW 0
/-- A trip outside ON retries, or latches after the third retry; it is no loss of the feeds. -/
theorem State.trip_outside_on {s : State} (h : s.ctrl ≠ 3) (cause : Nat) : s.trip cause =
    if s.rd F.RIND_PWR_STATUS_RETRY_CNT = 3 then ((s.tripNoted cause).gatesOff 5).wr F.RIND_PWR_STATUS_LATCHED 1
    else ((s.tripNoted cause).gatesOff 4).wr F.RIND_PWR_STATUS_RETRY_CNT (s.rd F.RIND_PWR_STATUS_RETRY_CNT + 1) := by
  have hoff : (s.ctrl == 3) = false := beq_eq_false_iff_ne.2 h
  unfold State.trip
  rw [hoff]
  rfl
theorem State.tripNoted_cause (s : State) {cause : Nat} (h : cause < 256) : (s.tripNoted cause).rd F.RIND_PWR_LAST_CAUSE = cause := by
  unfold State.tripNoted
  rw [State.rd_wr_apart _ _ (by decide), State.rd_wr_apart _ _ (by decide), State.rd_wr_apart _ _ (by decide), State.rd_wr_same _ _ (by decide)]
  exact Nat.mod_eq_of_lt h
theorem State.trip_retries {s : State} (hc : s.ctrl ≠ 3) (hn : s.rd F.RIND_PWR_STATUS_RETRY_CNT ≠ 3) {cause : Nat} (h : cause < 256) :
    (s.trip cause).ctrl = 4 ∧ (s.trip cause).rd F.RIND_PWR_LAST_CAUSE = cause ∧
    (s.trip cause).rd F.RIND_PWR_STATUS_RETRY_CNT = s.rd F.RIND_PWR_STATUS_RETRY_CNT + 1 := by
  rw [State.trip_outside_on hc, if_neg hn]
  refine ⟨(State.ctrl_wr_apart (by decide)).trans (State.ctrl_gatesOff _ (by decide)), ?_, ?_⟩
  · rw [State.rd_wr_apart _ _ (by decide), State.rd_gatesOff_apart _ (by decide) (by decide) (by decide) (by decide)]
    exact s.tripNoted_cause h
  · refine (State.rd_wr_same _ _ (by decide)).trans (Nat.mod_eq_of_lt ?_)
    have hlt : s.rd F.RIND_PWR_STATUS_RETRY_CNT < 4 := s.rd_lt _
    change _ < 4
    omega
theorem State.trip_latches {s : State} (hc : s.ctrl ≠ 3) (hn : s.rd F.RIND_PWR_STATUS_RETRY_CNT = 3) {cause : Nat} (h : cause < 256) :
    (s.trip cause).ctrl = 5 ∧ (s.trip cause).rd F.RIND_PWR_LAST_CAUSE = cause ∧ (s.trip cause).rd F.RIND_PWR_STATUS_LATCHED = 1 := by
  rw [State.trip_outside_on hc, if_pos hn]
  refine ⟨(State.ctrl_wr_apart (by decide)).trans (State.ctrl_gatesOff _ (by decide)), ?_, State.rd_wr_same _ _ (by decide)⟩
  rw [State.rd_wr_apart _ _ (by decide), State.rd_gatesOff_apart _ (by decide) (by decide) (by decide) (by decide)]
  exact s.tripNoted_cause h
/-- The three events that end a ramp are trips of their own causes (R388, R389). -/
theorem exec_rampTrip {s : State} (hr : s.pwr.rind = true) (h : s.ctrl = 2) {f : Fin 2} {i : BitVec 16} {c : Instr} {n : Nat}
    (hc : (c, n) ∈ [(Instr.rampTimeout, 7), (.shortDetect, 6), (.rampComparatorTrip f i, 5)]) :
    ∃ u : State, exec c s = .next (u.trip n) ∧ u.ctrl = 2 ∧ u.rd F.RIND_PWR_STATUS_RETRY_CNT = s.rd F.RIND_PWR_STATUS_RETRY_CNT ∧ n < 256 := by
  have hin : (F.RIND_PWR_FEED_I_NOW f).apart F.RIND_PWR_STATUS_RETRY_CNT = true := by clear hc; revert f; decide
  have hpk : (F.RIND_PWR_FEED_I_PEAK f).apart F.RIND_PWR_STATUS_RETRY_CNT = true := by clear hin hc; revert f; decide
  have hfast : exec (.rampComparatorTrip f i) s = .next (((s.feedCurrent f i.toNat).sat F.RIND_PWR_EVT_FAST).trip 5) :=
    congrArg Outcome.next ((State.onRind_of_rind hr _).trans (if_pos h))
  simp only [List.mem_cons, Prod.mk.injEq, List.not_mem_nil, or_false] at hc
  obtain ⟨rfl, rfl⟩ | ⟨rfl, rfl⟩ | ⟨rfl, rfl⟩ := hc
  · exact ⟨s.sat F.RIND_PWR_EVT_RAMP_FAIL, congrArg Outcome.next ((State.onRind_of_rind hr _).trans (if_pos h)),
      (State.ctrl_wr_apart (by decide)).trans h, State.rd_sat_apart _ (by decide), by decide⟩
  · exact ⟨s.sat F.RIND_PWR_EVT_RAMP_FAIL, congrArg Outcome.next ((State.onRind_of_rind hr _).trans (if_pos h)),
      (State.ctrl_wr_apart (by decide)).trans h, State.rd_sat_apart _ (by decide), by decide⟩
  · exact ⟨_, hfast, (State.ctrl_wr_apart (by decide)).trans ((s.feedCurrent_ctrl f _).trans h),
      (State.rd_sat_apart _ (by decide)).trans (s.rd_feedCurrent_apart hin hpk (by decide) (by decide)), by decide⟩
theorem exec_faultTimerExpiry {s : State} (hr : s.pwr.rind = true) (h : s.ctrl = 3) (f : Fin 2) (i : BitVec 16) :
    exec (.faultTimerExpiry f i) s = .next ((((s.feedCurrent f i.toNat).sat F.RIND_PWR_EVT_BREAKER).raise F.RIND_PWR_TIMER_TIMER_MAX 100000).trip
      (1 + f.val)) := congrArg Outcome.next ((State.onRind_of_rind hr _).trans (if_pos h))
theorem exec_fastTrip {s : State} (hr : s.pwr.rind = true) (h : s.ctrl = 3) (f : Fin 2) (i : BitVec 16) :
    exec (.fastTrip f i) s = .next (((s.feedCurrent f i.toNat).sat F.RIND_PWR_EVT_FAST).trip (3 + f.val)) :=
  congrArg Outcome.next ((State.onRind_of_rind hr _).trans (if_pos h))

/-! ### Retries, latches and PWRGD (R391, R393, R394) -/

theorem exec_tripWaitExpiry_ramps {s : State} (hr : s.pwr.rind = true) (h : s.ctrl = 4) (hs : s.senses = true) :
    ∃ t, exec .tripWaitExpiry s = .next t ∧ t.ctrl = 2 := by
  have he : exec .tripWaitExpiry s = .next ((s.setCtrl 2).sat F.RIND_PWR_EVT_RETRIES).showPower :=
    congrArg Outcome.next ((State.onRind_of_rind hr _).trans ((if_neg (not_not.2 h)).trans (if_pos hs)))
  exact ⟨_, he, (State.ctrl_showPower _).trans ((State.ctrl_wr_apart (by decide)).trans (s.ctrl_setCtrl (by decide)))⟩
theorem exec_tripWaitExpiry_open {s : State} (hr : s.pwr.rind = true) (h : s.ctrl = 4) (hs : s.senses = false) :
    ∃ t, exec .tripWaitExpiry s = .next t ∧ t.ctrl = 0 := by
  have he : exec .tripWaitExpiry s = .next (s.setCtrl 0) :=
    congrArg Outcome.next ((State.onRind_of_rind hr _).trans ((if_neg (not_not.2 h)).trans (if_neg (by simp [hs]))))
  exact ⟨_, he, s.ctrl_setCtrl (by decide)⟩
theorem exec_latchClearEnableCycle {s : State} (hr : s.pwr.rind = true) (h : s.ctrl = 5) : ∃ t, exec .latchClearEnableCycle s = .next t ∧
    t.ctrl = 0 ∧ t.rd F.RIND_PWR_STATUS_LATCHED = 0 ∧ t.rd F.RIND_PWR_STATUS_RETRY_CNT = 0 := by
  have hc : (s.wr F.RIND_PWR_STATUS_ENABLE 1).ctrl = 5 := (State.ctrl_wr_apart (by decide)).trans h
  have he : exec .latchClearEnableCycle s = .next
      ((((s.wr F.RIND_PWR_STATUS_ENABLE 1).setCtrl 0).wr F.RIND_PWR_STATUS_LATCHED 0).wr F.RIND_PWR_STATUS_RETRY_CNT 0) := by
    refine congrArg Outcome.next ((State.onRind_of_rind hr _).trans ?_)
    dsimp only
    rw [hc]
    rfl
  refine ⟨_, he, ?_, ?_, State.rd_wr_same _ _ (by decide)⟩
  · rw [State.ctrl_wr_apart (by decide), State.ctrl_wr_apart (by decide)]
    exact State.ctrl_setCtrl _ (by decide)
  · exact (State.rd_wr_apart _ _ (by decide)).trans (State.rd_wr_same _ _ (by decide))
/-- The contacts as LATCH_CLEAR_REINSERTION finds them. -/
def State.unmated (s : State) : State := ((s.wr F.RIND_PWR_STATUS_SENSE_L 0).wr F.RIND_PWR_STATUS_SENSE_M 0).wr F.RIND_PWR_STATUS_SENSE_S 0
theorem exec_latchClearReinsertion {s : State} (hr : s.pwr.rind = true) (h : s.ctrl = 5) : ∃ t, exec .latchClearReinsertion s = .next t ∧
    t.ctrl = 0 ∧ t.rd F.RIND_PWR_STATUS_LATCHED = 0 ∧ t.rd F.RIND_PWR_STATUS_RETRY_CNT = 0 ∧ t.rd F.RIND_PWR_STATUS_SENSE_S = 0 := by
  have hc : s.unmated.ctrl = 5 := by
    rw [State.unmated, State.ctrl_wr_apart (by decide), State.ctrl_wr_apart (by decide), State.ctrl_wr_apart (by decide), h]
  have hopen : s.unmated.contactOpens = s.unmated := by
    rw [State.contactOpens, hc]
    rfl
  have he : exec .latchClearReinsertion s = .next (((s.unmated.setCtrl 0).wr F.RIND_PWR_STATUS_LATCHED 0).wr F.RIND_PWR_STATUS_RETRY_CNT 0) := by
    refine congrArg Outcome.next ((State.onRind_of_rind hr _).trans ?_)
    change ((if s.unmated.contactOpens.ctrl = 5 then s.unmated.contactOpens.setCtrl 0 else s.unmated.contactOpens).wr _ 0).wr _ 0 = _
    rw [hopen, if_pos hc]
  refine ⟨_, he, ?_, ?_, State.rd_wr_same _ _ (by decide), ?_⟩
  · rw [State.ctrl_wr_apart (by decide), State.ctrl_wr_apart (by decide)]
    exact State.ctrl_setCtrl _ (by decide)
  · exact (State.rd_wr_apart _ _ (by decide)).trans (State.rd_wr_same _ _ (by decide))
  · rw [State.rd_wr_apart _ _ (by decide), State.rd_wr_apart _ _ (by decide), State.rd_setCtrl_apart _ (by decide)]
    exact State.rd_wr_same _ _ (by decide)
theorem exec_retryCountClear {s : State} (hr : s.pwr.rind = true) (h : s.rd F.RIND_PWR_STATUS_PWRGD = 1) :
    ∃ t, exec .retryCountClear s = .next t ∧ t.rd F.RIND_PWR_STATUS_RETRY_CNT = 0 :=
  ⟨_, congrArg Outcome.next ((State.onRind_of_rind hr _).trans (if_pos (beq_iff_eq.2 h))), State.rd_wr_same _ _ (by decide)⟩
theorem exec_pwrgdAssert {s : State} (hr : s.pwr.rind = true) (h : s.ctrl = 3) (hf : s.anyFeed = true) (hs : s.rd F.RIND_PWR_STATUS_SENSE_S = 1)
    (ht : s.rd F.RIND_PWR_STATUS_TIMER_RUN = 0) : ∃ t, exec .pwrgdAssert s = .next t ∧ t.rd F.RIND_PWR_STATUS_PWRGD = 1 ∧
      t.rd F.RIND_PWR_STATUS_BOTH_LOST = 0 := by
  have hc : s.ctrl = 3 ∧ s.anyFeed = true ∧ s.rdb F.RIND_PWR_STATUS_SENSE_S = true ∧ (!s.rdb F.RIND_PWR_STATUS_TIMER_RUN) = true :=
    ⟨h, hf, by simp [State.rdb, hs], by simp [State.rdb, ht]⟩
  exact ⟨_, congrArg Outcome.next ((State.onRind_of_rind hr _).trans (if_pos hc)), State.rd_wr_same _ _ (by decide),
    (State.rd_wr_apart _ _ (by decide)).trans (State.rd_wr_same _ _ (by decide))⟩
theorem exec_feedwarnTimeout {s : State} (hr : s.pwr.rind = true) :
    exec .feedwarnTimeout s = .next ((s.wr F.RIND_PWR_STATUS_FEEDWARN 1).bothLost 1) := congrArg Outcome.next (State.onRind_of_rind hr _)
/-- A loss that is already noted changes LOST_WHY and PWRGD only (R394). -/
theorem State.bothLost_again {s : State} (h : s.rd F.RIND_PWR_STATUS_BOTH_LOST = 1) (why : Nat) : s.bothLost why =
    ((s.wr F.RIND_PWR_STATUS_LOST_WHY why).wr F.RIND_PWR_STATUS_BOTH_LOST 1).wr F.RIND_PWR_STATUS_PWRGD 0 := if_pos (beq_iff_eq.2 h)
theorem exec_feedwarnTimeout_again {s : State} (hr : s.pwr.rind = true) (h : s.rd F.RIND_PWR_STATUS_BOTH_LOST = 1) :
    ∃ t, exec .feedwarnTimeout s = .next t ∧ t.rd F.RIND_PWR_STATUS_LOST_WHY = 1 ∧ t.rd F.RIND_PWR_STATUS_PWRGD = 0 := by
  refine ⟨_, exec_feedwarnTimeout hr, ?_⟩
  rw [State.bothLost_again ((s.rd_wr_apart 1 (by decide)).trans h)]
  refine ⟨?_, State.rd_wr_same _ _ (by decide)⟩
  rw [State.rd_wr_apart _ _ (by decide), State.rd_wr_apart _ _ (by decide)]
  exact State.rd_wr_same _ _ (by decide)
theorem exec_senseSBreak_debounce {s : State} (hr : s.pwr.rind = true) (h : s.ctrl = 1) : ∃ t, exec .senseSBreak s = .next t ∧
    t.ctrl = 0 ∧ t.rd F.RIND_PWR_STATUS_SENSE_S = 0 := by
  have hc : (s.wr F.RIND_PWR_STATUS_SENSE_S 0).ctrl = 1 := (State.ctrl_wr_apart (by decide)).trans h
  have he : exec .senseSBreak s = .next ((s.wr F.RIND_PWR_STATUS_SENSE_S 0).setCtrl 0) := by
    refine congrArg Outcome.next ((State.onRind_of_rind hr _).trans ?_)
    dsimp only
    rw [hc]
    rfl
  exact ⟨_, he, State.ctrl_setCtrl _ (by decide), (State.rd_setCtrl_apart _ (by decide)).trans (State.rd_wr_same _ _ (by decide))⟩
theorem exec_senseSBreak_on {s : State} (hr : s.pwr.rind = true) (h : s.ctrl = 3) :
    exec .senseSBreak s = .next ((s.wr F.RIND_PWR_STATUS_SENSE_S 0).bothLost 2) := by
  have hc : (s.wr F.RIND_PWR_STATUS_SENSE_S 0).ctrl = 3 := (State.ctrl_wr_apart (by decide)).trans h
  refine congrArg Outcome.next ((State.onRind_of_rind hr _).trans ?_)
  dsimp only
  rw [hc]
  rfl
/-- A contact that opens outside ON stops a debounce or a ramp, and changes nothing else (Table 13-6). -/
theorem State.contactOpens_outside_on {s : State} (h : s.ctrl ≠ 3) :
    s.contactOpens = if s.ctrl = 1 ∨ s.ctrl = 2 then s.gatesOff 0 else s := by
  unfold State.contactOpens
  split
  next h1 => rw [if_pos (.inl h1)]
  next h2 => rw [if_pos (.inr h2)]
  next h3 => exact absurd h3 h
  next h1 h2 _ => rw [if_neg (not_or.2 ⟨h1, h2⟩)]
theorem exec_senseLmOpen {s : State} (hr : s.pwr.rind = true) (h : s.ctrl ≠ 3) : ∃ t, exec (.senseLmOpen true) s = .next t ∧
    t.rd F.RIND_PWR_STATUS_SENSE_L = 0 ∧ (s.ctrl = 1 ∨ s.ctrl = 2 → t.ctrl = 0) := by
  have hc : (s.wr F.RIND_PWR_STATUS_SENSE_L 0).ctrl = s.ctrl := State.ctrl_wr_apart (by decide)
  have hl : (s.wr F.RIND_PWR_STATUS_SENSE_L 0).rd F.RIND_PWR_STATUS_SENSE_L = 0 := State.rd_wr_same _ _ (by decide)
  have he : exec (.senseLmOpen true) s = .next (s.wr F.RIND_PWR_STATUS_SENSE_L 0).contactOpens := congrArg Outcome.next (State.onRind_of_rind hr _)
  refine ⟨_, he, ?_⟩
  rw [State.contactOpens_outside_on (by rwa [hc]), hc]
  split
  · exact ⟨(State.rd_gatesOff_apart _ (by decide) (by decide) (by decide) (by decide)).trans hl, fun _ => State.ctrl_gatesOff _ (by decide)⟩
  · exact ⟨hl, fun h => absurd h ‹_›⟩

/-! ### The Rind domain, and CLR_PEAK (R382, Table 13-10) -/

theorem exec_rindStart {s : State} (h : s.pwr.rind = false) : ∃ t, exec .rindStart s = .next t ∧ t.pwr.rind = true ∧ t.ctrl = 0 ∧
    t.rd F.RIND_PWR_STATUS_PWRGD = 0 ∧ t.rd F.RIND_CLK_STATUS_MGR_LOCK = 1 := by
  have hdom {g : Fld} (hg : g.addr ≠ (domFld 431).addr) (u : State) : (u.setDomain 431 1).rd g = u.rd g := by
    unfold State.setDomain
    split
    · rfl
    · exact u.rd_wr_ne 1 (Ne.symm hg)
  have hrind (u : State) : (u.setDomain 431 1).pwr.rind = u.pwr.rind := by
    unfold State.setDomain
    split
    · rfl
    · rfl
  refine ⟨_, congrArg Outcome.next (if_neg (by simp [h])), hrind _, ?_, ?_, ?_⟩
  · refine (hdom (by decide) _).trans ?_
    rw [State.rd_showPower_apart _ (by decide) (by decide)]
    simp (disch := decide) only [State.rd_wr_apart]
    exact State.ctrl_setCtrl _ (by decide)
  · refine (hdom (by decide) _).trans ?_
    rw [State.rd_showPower_apart _ (by decide) (by decide)]
    simp (disch := decide) only [State.rd_wr_apart, State.rd_wr_same]
    decide
  · refine (hdom (by decide) _).trans ?_
    rw [State.rd_showPower_apart _ (by decide) (by decide)]
    simp (disch := decide) only [State.rd_wr_apart, State.rd_wr_same]
    decide
theorem exec_rindStop {s : State} (h : s.pwr.rind = true) : exec .rindStop s = .next s.unpower := congrArg Outcome.next (State.onRind_of_rind h _)
/-- The extremes of a feed start again from its present current and voltage. -/
def State.clrFeedPeak (s : State) (f : Nat) : State :=
  (s.wr (F.RIND_PWR_FEED_I_PEAK f) (s.rd (F.RIND_PWR_FEED_I_NOW f))).wr (F.RIND_PWR_FEED_V_MIN f) (s.rd (F.RIND_PWR_FEED_V_NOW f))
theorem State.clrPeak_eq (s : State) : ∃ n m, s.clrPeak = (((s.clrFeedPeak 0).clrFeedPeak 1).wr F.RIND_PWR_BUS_V_MIN n).wr F.RIND_PWR_TIMER_TIMER_MAX m ∧
    m = s.rd F.RIND_PWR_TIMER_TIMER_NOW := by
  refine ⟨_, _, rfl, ?_⟩
  simp (disch := decide) only [List.foldl, State.rd_wr_apart]
theorem State.clrPeak_reads (s : State) : (∀ f : Fin 2, s.clrPeak.rd (F.RIND_PWR_FEED_I_PEAK f) = s.rd (F.RIND_PWR_FEED_I_NOW f) ∧
    s.clrPeak.rd (F.RIND_PWR_FEED_V_MIN f) = s.rd (F.RIND_PWR_FEED_V_NOW f)) ∧
    s.clrPeak.rd F.RIND_PWR_TIMER_TIMER_MAX = s.rd F.RIND_PWR_TIMER_TIMER_NOW := by
  have hlt (g : Fld) {n : Nat} (h : g.width = n) : s.rd g % 2 ^ n = s.rd g := Nat.mod_eq_of_lt (h ▸ s.rd_lt g)
  obtain ⟨n, m, he, hm⟩ := s.clrPeak_eq
  rw [he, hm]
  unfold State.clrFeedPeak
  refine ⟨fun f => ?_, ?_⟩
  · fin_cases f
    · simp (disch := decide) only [State.rd_wr_apart, State.rd_wr_same]
      exact ⟨hlt _ rfl, hlt _ rfl⟩
    · simp (disch := decide) only [State.rd_wr_apart, State.rd_wr_same]
      exact ⟨hlt _ rfl, hlt _ rfl⟩
  · simp (disch := decide) only [State.rd_wr_apart, State.rd_wr_same]
    exact hlt _ rfl
theorem exec_clrPeak_sp {s : State} (h : s.pwr.rind = true) : exec (.clrPeak .sp) s = .next s.clrPeak := congrArg Outcome.next (State.onRind_of_rind h _)

/-- Settles O18: each clause by the lemma on its event's exec, a trip of the ramp by the state that meets it. -/
theorem powerEntryComplete : Obligations.PowerEntryComplete := by
  refine ⟨fun s h => exec_rindStart h, fun s hr => ⟨⟨_, exec_rindStop hr, rfl, rfl, rfl, rfl, rfl⟩, exec_feedValid hr, fun f v hf => ⟨fun ho hsp => ?lost,
      fun ho hc => ?debounced⟩, exec_idealDiodeReverseOff hr, exec_senseMated hr, exec_debounceExpiry hr,
    fun h2 => ⟨exec_rampComplete hr h2, fun f i c n hc => ?ramp⟩, fun h3 f i => ⟨exec_faultTimerExpiry hr h3 f i, exec_fastTrip hr h3 f i⟩,
    fun h4 => ⟨exec_tripWaitExpiry_ramps hr h4, exec_tripWaitExpiry_open hr h4⟩,
    fun h5 => ⟨exec_latchClearEnableCycle hr h5, exec_latchClearReinsertion hr h5⟩, exec_retryCountClear hr, exec_pwrgdAssert hr,
    exec_feedwarnTimeout hr, exec_feedwarnTimeout_again hr, exec_senseSBreak_debounce hr, exec_senseSBreak_on hr, exec_senseLmOpen hr,
    ⟨_, exec_clrPeak_sp hr, s.clrPeak_reads⟩⟩⟩
  case lost =>
    obtain ⟨r, huv⟩ := State.feedLost_logs hf ho hsp (st := 2) (by decide) v.toNat
    obtain ⟨r', hov⟩ := State.feedLost_logs hf ho hsp (st := 3) (by decide) v.toNat
    exact ⟨⟨_, r, exec_feedUv hr hf v, huv⟩, ⟨_, r', exec_feedOv hr f v, hov⟩⟩
  case debounced =>
    exact ⟨⟨_, exec_feedUv hr hf v, State.feedLost_debounce hf ho hc (by decide) (by decide) _⟩,
      ⟨_, exec_feedOv hr f v, State.feedLost_debounce hf ho hc (by decide) (by decide) _⟩⟩
  case ramp =>
    obtain ⟨u, he, hctrl, hcnt, hn⟩ := exec_rampTrip hr h2 hc
    have hoff : u.ctrl ≠ 3 := by omega
    refine ⟨fun hretry => ⟨_, he, ?_⟩, fun hlatch => ⟨_, he, State.trip_latches hoff (hcnt.trans hlatch) hn⟩⟩
    obtain ⟨hwait, hcause, hnext⟩ := State.trip_retries hoff (hcnt ▸ hretry) hn
    exact ⟨hwait, hcause, hnext.trans (by rw [hcnt])⟩

end Sys2Proof.Machine

/-! # Performance counters, temperature sensors and CXL.io at a vPPB -/

namespace Sys2Proof.Machine
open Host (Outcome)

/-! ### The registers of a cell's counters (Tables 17-4 to 17-6) -/

theorem State.onlyRegs.flag {l : List Nat} {s0 s : State} {f : Fld} (h : s0.onlyRegs l s) (hf : f.addr ∈ l) : s0.onlyRegs l (s.flag f) :=
  (h.wr (n := 1) hf).trans ⟨rfl, fun _ _ => rfl⟩
theorem ctrVal_ne_val (c : Nat) {n m : Nat} (h : n ≠ m) : F.CTR_VAL_at c n ≠ F.CTR_VAL_at c m := by
  simp only [F.CTR_VAL_at]; omega
theorem ctrVal_ne_ctl (c : Nat) {n : Nat} (h : n < 8) : F.CTR_VAL_at c n ≠ F.CTR_CTL_at c := by
  simp only [F.CTR_VAL_at, F.CTR_CTL_at]; omega
theorem ctrVal_ne_cfg (c n : Nat) {m : Nat} (h : m < 8) : F.CTR_VAL_at c n ≠ F.CTR_CFG_at c m := by
  simp only [F.CTR_VAL_at, F.CTR_CFG_at]; omega
theorem ctrVal_ne_domain (c n : Nat) (d : Cell) : F.CTR_VAL_at c n ≠ (domFld (3 * d.val)).addr := by
  have := domFld_addr (n := 3 * d.val) (by omega)
  simp only [F.CTR_VAL_at]; omega
theorem State.ctrVal_lt (s : State) (c n : Nat) : s.rd (F.CTR_VAL_VALUE c n) < 2 ^ 32 := s.rd_lt _
theorem State.ctrVal_wr_same (s : State) (c n : Nat) {v : Nat} (h : v < 2 ^ 32) : (s.wr (F.CTR_VAL_VALUE c n) v).rd (F.CTR_VAL_VALUE c n) = v :=
  (s.rd_wr_same v (by simp [F.CTR_VAL_VALUE])).trans (Nat.mod_eq_of_lt h)
theorem State.ctrVal_wr_ne (s : State) (c : Nat) {n m : Nat} (v : Nat) (h : n ≠ m) :
    (s.wr (F.CTR_VAL_VALUE c n) v).rd (F.CTR_VAL_VALUE c m) = s.rd (F.CTR_VAL_VALUE c m) := s.rd_wr_ne v (ctrVal_ne_val c h)
theorem State.ctrVal_flag (s : State) (c : Nat) {n : Nat} (m : Nat) (h : n < 8) :
    (s.flag (F.CTR_CTL_OVF_BIT c m)).rd (F.CTR_VAL_VALUE c n) = s.rd (F.CTR_VAL_VALUE c n) :=
  (s.rd_flag _ _).trans (s.rd_wr_ne 1 (ctrVal_ne_ctl c h).symm)

/-! ### Overflow bits (R477) -/

theorem State.rdBit_eq (s : State) (f : Fld) (b : Nat) : s.rdBit f b = (decide (b < f.width) && (s.reg f.addr).toNat.testBit (f.lsb + b)) := by
  simp [State.rdBit, State.rd, getBits, Nat.testBit_mod_two_pow, Nat.testBit_div_two_pow, Nat.add_comm]
theorem State.rdBit_of_reg {s t : State} {f : Fld} (h : t.reg f.addr = s.reg f.addr) (b : Nat) : t.rdBit f b = s.rdBit f b := by
  unfold State.rdBit
  rw [State.rd_of_reg h]
/-- A write of 1 to one bit of a field sets that bit and no other of the field. -/
theorem State.rdBit_wr_bit (s : State) (a : Nat) {l w n m : Nat} (hl : l + w ≤ 64) (hm : m < w) :
    (s.wr ⟨a, l + n, 1⟩ 1).rdBit ⟨a, l, w⟩ m = (s.rdBit ⟨a, l, w⟩ m || decide (m = n)) := by
  have hreg : (s.wr ⟨a, l + n, 1⟩ 1).reg a = putBits (s.reg a) (l + n) 1 1 := s.reg_setReg_same a _
  simp only [State.rdBit_eq]
  rw [hreg, testBit_putBits]
  by_cases h : m = n
  · subst h
    simp [hm, show l + m < 64 by omega]
  · have hout : (decide (l + n ≤ l + m) && decide (l + m < l + n + 1)) = false := by simp; omega
    simp only [hout, hm, h, show l + m < 64 by omega, decide_true, decide_false, Bool.true_and, Bool.not_false, Bool.and_true, Bool.false_and,
      Bool.or_false]
/-- The overflow of one counter sets its own bit of OVF and no other. -/
theorem State.ovf_flag (s : State) (c n : Nat) {m : Nat} (hm : m < 8) :
    (s.flag (F.CTR_CTL_OVF_BIT c n)).rdBit (F.CTR_CTL_OVF c) m = (s.rdBit (F.CTR_CTL_OVF c) m || decide (m = n)) :=
  (congrArg (Nat.testBit · m) (s.rd_flag _ _)).trans (s.rdBit_wr_bit (F.CTR_CTL_at c) (by decide) hm)
theorem State.ovf_wr_val (s : State) (c : Nat) {n : Nat} (v m : Nat) (hn : n < 8) :
    (s.wr (F.CTR_VAL_VALUE c n) v).rdBit (F.CTR_CTL_OVF c) m = s.rdBit (F.CTR_CTL_OVF c) m :=
  State.rdBit_of_reg (s.reg_wr_ne v (f := F.CTR_VAL_VALUE c n) (b := F.CTR_CTL_at c) (ctrVal_ne_ctl c hn)) m

/-! ### What an event adds (R473, R475) -/

/-- Whether a counter counts rests on the control register and the cell's domain, not on its value. -/
theorem State.ctrRuns_wr_val (s : State) (c : Cell) {n : Nat} (v m : Nat) (hn : n < 8) :
    (s.wr (F.CTR_VAL_VALUE c n) v).ctrRuns c m = s.ctrRuns c m := by
  have hctl {f : Fld} (hf : f.addr = F.CTR_CTL_at c) : (s.wr (F.CTR_VAL_VALUE c n) v).rd f = s.rd f :=
    s.rd_wr_ne v (hf ▸ ctrVal_ne_ctl c hn)
  have hdom : (s.wr (F.CTR_VAL_VALUE c n) v).domain (3 * c) = s.domain (3 * c) := s.rd_wr_ne v (ctrVal_ne_domain c n c)
  simp only [State.ctrRuns, State.rdBit, State.rdb]
  rw [hctl rfl, hctl rfl, hdom]
theorem State.rdb_sample_flag_wr_val (s : State) (c n v k : Nat) {m : Nat} (hm : m < 8) :
    ((s.wr (F.CTR_VAL_VALUE c n) v).flag (F.CTR_CTL_OVF_BIT c k)).rdb (F.CTR_CFG_SAMPLE c m) = s.rdb (F.CTR_CFG_SAMPLE c m) := by
  have hctl : F.CTR_CTL_at c ≠ F.CTR_CFG_at c m := by simp only [F.CTR_CTL_at, F.CTR_CFG_at]; omega
  unfold State.rdb
  rw [State.rd_flag, State.rd_wr_ne _ _ hctl, State.rd_wr_ne _ _ (ctrVal_ne_cfg c n hm)]
theorem State.rdb_sample_flag (s : State) (c k : Nat) {m : Nat} (hm : m < 8) :
    (s.flag (F.CTR_CTL_OVF_BIT c k)).rdb (F.CTR_CFG_SAMPLE c m) = s.rdb (F.CTR_CFG_SAMPLE c m) := by
  have hctl : F.CTR_CTL_at c ≠ F.CTR_CFG_at c m := by simp only [F.CTR_CTL_at, F.CTR_CFG_at]; omega
  unfold State.rdb
  rw [State.rd_flag, State.rd_wr_ne _ _ hctl]

/-- An addition that fits is a write of the value. -/
theorem State.ctrAdd_fits {s : State} {c n k : Nat} (h : s.rd (F.CTR_VAL_VALUE c n) + k < 2 ^ 32) :
    s.ctrAdd c n k = s.wr (F.CTR_VAL_VALUE c n) (s.rd (F.CTR_VAL_VALUE c n) + k) := if_pos h
/-- A counter that is not chained and does not sample sets its overflow bit and goes on from what is over. -/
theorem State.ctrAdd_wraps {s : State} {c n k : Nat} (hn : n < 8) (hch : s.ctrChained c n = false) (hsm : s.rdb (F.CTR_CFG_SAMPLE c n) = false)
    (h : ¬s.rd (F.CTR_VAL_VALUE c n) + k < 2 ^ 32) : s.ctrAdd c n k =
      (s.flag (F.CTR_CTL_OVF_BIT c n)).wr (F.CTR_VAL_VALUE c n) (s.rd (F.CTR_VAL_VALUE c n) + k - 2 ^ 32) := by
  unfold State.ctrAdd
  rw [if_neg h, if_neg (by simp [hch])]
  exact if_neg (by simp [State.rdb_sample_flag s c n hn, hsm])
section
variable {s : State} {c : Cell} {n k : Nat} (heven : n % 2 = 0) (hn : n + 1 < 8) (hch : s.ctrChained c n = true)
  (hrun : s.ctrRuns c (n + 1) = true) (hlo : ¬s.rd (F.CTR_VAL_VALUE c n) + k < 2 ^ 32)
include heven hn hch hrun hlo
/-- A chained lower half that wraps carries into the upper one. -/
theorem State.ctrAdd_carries (hhi : s.rd (F.CTR_VAL_VALUE c (n + 1)) + 1 < 2 ^ 32) : s.ctrAdd c n k =
    (s.wr (F.CTR_VAL_VALUE c n) (s.rd (F.CTR_VAL_VALUE c n) + k - 2 ^ 32)).wr (F.CTR_VAL_VALUE c (n + 1)) (s.rd (F.CTR_VAL_VALUE c (n + 1)) + 1) := by
  have hup := s.ctrVal_wr_ne c (s.rd (F.CTR_VAL_VALUE c n) + k - 2 ^ 32) (show n ≠ n + 1 by omega)
  unfold State.ctrAdd
  simp only [if_neg hlo, hch, heven, beq_self_eq_true, Bool.and_self, if_true, State.ctrRuns_wr_val s c _ _ (show n < 8 by omega), hrun,
    Bool.not_true, Bool.false_eq_true, if_false, hup, if_pos hhi]
/-- When the upper half wraps too, its overflow bit is set and the pair starts again. -/
theorem State.ctrAdd_wraps_pair (hsm : s.rdb (F.CTR_CFG_SAMPLE c (n + 1)) = false) (hhi : ¬s.rd (F.CTR_VAL_VALUE c (n + 1)) + 1 < 2 ^ 32) :
    s.ctrAdd c n k = ((s.wr (F.CTR_VAL_VALUE c n) (s.rd (F.CTR_VAL_VALUE c n) + k - 2 ^ 32)).flag (F.CTR_CTL_OVF_BIT c (n + 1))).wr
      (F.CTR_VAL_VALUE c (n + 1)) 0 := by
  have hup := s.ctrVal_wr_ne c (s.rd (F.CTR_VAL_VALUE c n) + k - 2 ^ 32) (show n ≠ n + 1 by omega)
  unfold State.ctrAdd
  simp only [if_neg hlo, hch, heven, beq_self_eq_true, Bool.and_self, if_true, State.ctrRuns_wr_val s c _ _ (show n < 8 by omega), hrun,
    Bool.not_true, Bool.false_eq_true, if_false, hup, if_neg hhi, State.rdb_sample_flag_wr_val s c n _ (n + 1) hn, hsm]
end

/-- The pair of a chained lower half counts modulo 2^64 (R475). -/
theorem State.ctrAdd_chained {s : State} {c : Cell} {n k : Nat} (hk : k < 2 ^ 32) (heven : n % 2 = 0) (hn : n + 1 < 8)
    (hrun : s.ctrRuns c (n + 1) = true) (hch : s.ctrChained c n = true) (hsm : s.rdb (F.CTR_CFG_SAMPLE c (n + 1)) = false) :
    let v := s.rd (F.CTR_VAL_VALUE c n) + 2 ^ 32 * s.rd (F.CTR_VAL_VALUE c (n + 1)) + k
    let t := s.ctrAdd c n k
    t.rd (F.CTR_VAL_VALUE c n) + 2 ^ 32 * t.rd (F.CTR_VAL_VALUE c (n + 1)) = v % 2 ^ 64 ∧
    t.rdBit (F.CTR_CTL_OVF c) n = s.rdBit (F.CTR_CTL_OVF c) n ∧
    t.rdBit (F.CTR_CTL_OVF c) (n + 1) = (s.rdBit (F.CTR_CTL_OVF c) (n + 1) || decide (2 ^ 64 ≤ v)) ∧
    s.onlyRegs [F.CTR_VAL_at c n, F.CTR_VAL_at c (n + 1), F.CTR_CTL_at c] t := by
  intro v t
  have hlt := s.ctrVal_lt c n
  have hlt' := s.ctrVal_lt c (n + 1)
  have hn8 : n < 8 := by omega
  by_cases hlo : s.rd (F.CTR_VAL_VALUE c n) + k < 2 ^ 32
  case pos =>
    rw [show t = _ from State.ctrAdd_fits hlo, State.ctrVal_wr_same _ _ _ hlo, State.ctrVal_wr_ne _ _ _ (show n ≠ n + 1 by omega),
      State.ovf_wr_val _ _ _ _ hn8, State.ovf_wr_val _ _ _ _ hn8, decide_eq_false (p := 2 ^ 64 ≤ v) (by omega), Bool.or_false]
    exact ⟨by omega, rfl, rfl, .wr (.refl _ s) (.head _)⟩
  case neg =>
    have hrest : s.rd (F.CTR_VAL_VALUE c n) + k - 2 ^ 32 < 2 ^ 32 := by omega
    by_cases hhi : s.rd (F.CTR_VAL_VALUE c (n + 1)) + 1 < 2 ^ 32
    case pos =>
      rw [show t = _ from State.ctrAdd_carries heven hn hch hrun hlo hhi, State.ctrVal_wr_same _ _ _ hhi,
        State.ctrVal_wr_ne _ _ _ (show n + 1 ≠ n by omega), State.ctrVal_wr_same _ _ _ hrest, State.ovf_wr_val _ _ _ _ hn,
        State.ovf_wr_val _ _ _ _ hn8, State.ovf_wr_val _ _ _ _ hn, State.ovf_wr_val _ _ _ _ hn8,
        decide_eq_false (p := 2 ^ 64 ≤ v) (by omega), Bool.or_false]
      exact ⟨by omega, rfl, rfl, .wr (.wr (.refl _ s) (.head _)) (.tail _ (.head _))⟩
    case neg =>
      rw [show t = _ from State.ctrAdd_wraps_pair heven hn hch hrun hlo hsm hhi, State.ctrVal_wr_same _ _ _ (by decide),
        State.ctrVal_wr_ne _ _ _ (show n + 1 ≠ n by omega), State.ctrVal_flag _ _ _ hn8, State.ctrVal_wr_same _ _ _ hrest,
        State.ovf_wr_val _ _ _ _ hn, State.ovf_wr_val _ _ _ _ hn, State.ovf_flag _ _ _ hn8, State.ovf_flag _ _ _ hn,
        State.ovf_wr_val _ _ _ _ hn8, State.ovf_wr_val _ _ _ _ hn8, decide_eq_true (p := 2 ^ 64 ≤ v) (by omega), decide_eq_true rfl,
        decide_eq_false (p := n = n + 1) (by omega), Bool.or_false]
      exact ⟨by omega, rfl, rfl, .wr (.flag (.wr (.refl _ s) (.head _)) (.tail _ (.tail _ (.head _)))) (.tail _ (.head _))⟩
/-- A counter of its own counts modulo 2^32 (R475). -/
theorem State.ctrAdd_unchained {s : State} {c n k : Nat} (hk : k < 2 ^ 32) (hn : n < 8) (hch : s.ctrChained c n = false)
    (hsm : s.rdb (F.CTR_CFG_SAMPLE c n) = false) :
    let v := s.rd (F.CTR_VAL_VALUE c n) + k
    let t := s.ctrAdd c n k
    t.rd (F.CTR_VAL_VALUE c n) = v % 2 ^ 32 ∧
    t.rdBit (F.CTR_CTL_OVF c) n = (s.rdBit (F.CTR_CTL_OVF c) n || decide (2 ^ 32 ≤ v)) ∧
    s.onlyRegs [F.CTR_VAL_at c n, F.CTR_CTL_at c] t := by
  intro v t
  have hlt := s.ctrVal_lt c n
  by_cases h : v < 2 ^ 32
  case pos =>
    rw [show t = _ from State.ctrAdd_fits h, State.ctrVal_wr_same _ _ _ h, State.ovf_wr_val _ _ _ _ hn,
      decide_eq_false (p := 2 ^ 32 ≤ v) (by omega), Bool.or_false]
    exact ⟨(Nat.mod_eq_of_lt h).symm, rfl, .wr (.refl _ s) (.head _)⟩
  case neg =>
    rw [show t = _ from State.ctrAdd_wraps hn hch hsm h, State.ctrVal_wr_same _ _ _ (by omega), State.ovf_wr_val _ _ _ _ hn,
      State.ovf_flag _ _ _ hn, decide_eq_true (p := 2 ^ 32 ≤ v) (by omega), decide_eq_true rfl]
    exact ⟨by omega, rfl, .wr (.flag (.refl _ s) (.tail _ (.head _))) (.head _)⟩

/-- Settles O44: whether the lower half wraps, and then whether the upper one does. -/
theorem chainedCountersCountSixtyFourBits : Obligations.ChainedCountersCountSixtyFourBits := fun _ j _ _ hk =>
  ⟨fun hrun hch hsm => State.ctrAdd_chained hk (by omega) (by omega) hrun hch hsm,
   fun n hch hsm => State.ctrAdd_unchained hk n.isLt hch hsm⟩

/-! ### Pulses of a write -/

section
variable {s : State} {a : Nat} {w : Word} {e : PulseIn} {fs : List FieldDef}
/-- A write of 0 to every pulse field starts nothing. -/
theorem State.writePulses_of_zero (h : ∀ f ∈ fs, f.kind = .pulse → getBits w f.lsb f.width = 0) (u : State) :
    s.writePulses a w e fs u = u := by
  refine List.foldlRecOn (motive := fun t : State => t = u) fs _ rfl fun t ht f hf => ?_
  rw [ht]
  refine if_neg fun ⟨htries, hpulse⟩ => ?_
  simp [State.tries, hpulse, h f hf hpulse] at htries
/-- The one pulse field that a write sets starts its action. -/
theorem State.writePulses_one {l r : List FieldDef} {f : FieldDef} (hl : ∀ g ∈ l, g.kind = .pulse → getBits w g.lsb g.width = 0)
    (hr : ∀ g ∈ r, g.kind = .pulse → getBits w g.lsb g.width = 0) (hf : f.kind = .pulse) (hw : getBits w f.lsb f.width ≠ 0) (u : State) :
    s.writePulses a w e (l ++ f :: r) u = u.pulse .sp (homeAddr a) f.lsb e := by
  have htries : s.tries a w f = true := by simpa [State.tries, hf] using hw
  unfold State.writePulses
  rw [List.foldl_append, show l.foldl _ u = u from State.writePulses_of_zero hl u, List.foldl_cons]
  refine (State.writePulses_of_zero hr _).trans ?_
  exact if_pos ⟨htries, hf⟩
end

/-! ### Registers of a cell -/

/-- The address of an offset in a cell's registers (Table 16-15). -/
def cellAddr (c : Cell) (o : Nat) : Nat := 0x10000000 + c.val * 0x100000 + o
section
variable (c : Cell) {o : Nat} (ho : o < 0x100000)
include ho
theorem cellAddr_range : 0x10000000 ≤ cellAddr c o ∧ cellAddr c o < 0x20000000 := by
  have := c.isLt
  unfold cellAddr; omega
theorem cellAddr_mod : cellAddr c o % 0x100000 = o := by unfold cellAddr; omega
theorem cellOfAddr_cellAddr : cellOfAddr (cellAddr c o) = some c := by
  rw [cellOfAddr, if_pos (cellAddr_range c ho), show cellAddr c o / 0x100000 = 256 + c.val by unfold cellAddr; omega]
  have := c.isLt
  exact congrArg some (Fin.ext (by simp only [Cell.of, Fin.val_ofNat]; omega))
theorem homeAddr_cellAddr (h : o < 0x70200) : homeAddr (cellAddr c o) = cellAddr c o := by
  rw [homeAddr, if_pos (cellAddr_range c ho), cellAddr_mod c ho]
  exact if_neg (by omega)
theorem mapOf_cellAddr (h : 0x60000 ≤ o ∧ o < 0x70000) : mapOf (cellAddr c o) = mapCtr := by
  obtain ⟨h1, h2⟩ := cellAddr_range c ho
  unfold mapOf
  simp only [if_neg (show ¬cellAddr c o < 0x100000 by omega), if_neg (show ¬cellAddr c o < 0x200000 by omega),
    if_neg (show ¬cellAddr c o < 0x400000 by omega), if_neg (show ¬cellAddr c o < 0x1000000 by omega),
    if_neg (show ¬cellAddr c o < 0x10000000 by omega), if_pos h2, cellAddr_mod c ho]
  simp only [if_neg (show ¬o < 0x10000 by omega), if_neg (show ¬o < 0x20000 by omega), if_neg (show ¬o < 0x30000 by omega),
    if_neg (show ¬o < 0x40000 by omega), if_neg (show ¬o < 0x50000 by omega), if_neg (show ¬o < 0x60000 by omega), if_pos h.2]
end
/-- The cell that an offset is in counts as the first index of the cell's registers. -/
theorem splitIdx_cell (c : Cell) {x : Nat} (h : x < 0x100000) (ds : List (Nat × Nat)) :
    splitIdx ((128, 0x100000) :: ds) (c.val * 0x100000 + x) = (splitIdx ds x).map (c.val :: ·) := by
  have hdiv : (c.val * 0x100000 + x) / 0x100000 = c.val := by omega
  have hmod : (c.val * 0x100000 + x) % 0x100000 = x := by omega
  rw [splitIdx, hdiv, hmod, if_pos c.isLt]
theorem findReg_skip {r : RegDef} {rs : List RegDef} {a : Nat} (hb : r.base ≤ a) (h : splitIdx r.dims (a - r.base) = none) :
    findReg (r :: rs) a = findReg rs a := by
  rw [findReg, if_neg (Nat.not_lt.2 hb), h]
theorem findReg_here {r : RegDef} {rs : List RegDef} {a : Nat} {ix : List Nat} (hb : r.base ≤ a) (h : splitIdx r.dims (a - r.base) = some ix) :
    findReg (r :: rs) a = some (r, ix) := by
  rw [findReg, if_neg (Nat.not_lt.2 hb), h]
section
variable (c : Cell) {p b o : Nat} {ds : List (Nat × Nat)} {fs : List FieldDef} {rs : List RegDef} (hp : p = 0x10000000 + b) (hb : b ≤ o)
  (ho : o < 0x100000)
include hp hb ho
theorem splitIdx_cellAddr : p ≤ cellAddr c o ∧ splitIdx ((128, 0x100000) :: ds) (cellAddr c o - p) = (splitIdx ds (o - b)).map (c.val :: ·) := by
  have hsub : cellAddr c o - p = c.val * 0x100000 + (o - b) := by unfold cellAddr; omega
  rw [hsub, splitIdx_cell c (by omega)]
  exact ⟨by unfold cellAddr; omega, rfl⟩
theorem findReg_cell_skip (h : splitIdx ds (o - b) = none) :
    findReg (⟨p, (128, 0x100000) :: ds, fs⟩ :: rs) (cellAddr c o) = findReg rs (cellAddr c o) := by
  obtain ⟨hle, hsplit⟩ := splitIdx_cellAddr c (ds := ds) hp hb ho
  exact findReg_skip hle (by rw [hsplit, h]; rfl)
theorem findReg_cell_here {ix : List Nat} (h : splitIdx ds (o - b) = some ix) :
    findReg (⟨p, (128, 0x100000) :: ds, fs⟩ :: rs) (cellAddr c o) = some (⟨p, (128, 0x100000) :: ds, fs⟩, c.val :: ix) := by
  obtain ⟨hle, hsplit⟩ := splitIdx_cellAddr c (ds := ds) hp hb ho
  exact findReg_here hle (by rw [hsplit, h]; rfl)
end
theorem regAt_of_findReg (c : Cell) {o : Nat} (ho : 0x60000 ≤ o ∧ o < 0x70000) {x : RegDef × List Nat}
    (h : findReg mapCtr (cellAddr c o) = some x) : regAt (cellAddr c o) = some x := by
  have hp : presentAt (cellAddr c o) x.2 = true := if_neg (by have := cellAddr_range c (o := o) (by omega); omega)
  rw [regAt, mapOf_cellAddr c (by omega) ho, h]
  simp only [hp, if_true]

/-! ### The counters' registers -/

theorem ctrVal_cellAddr (c : Cell) (n : Nat) : F.CTR_VAL_at c n = cellAddr c (0x60040 + n * 8) := by
  unfold F.CTR_VAL_at cellAddr; omega
theorem ctrPair_cellAddr (c : Cell) (j : Nat) : F.CTR_PAIR_at c j = cellAddr c (0x600C0 + j * 8) := by
  unfold F.CTR_PAIR_at cellAddr; omega
theorem ctrCtl_cellAddr (c : Cell) : F.CTR_CTL_at c = cellAddr c 0x600E0 := by
  unfold F.CTR_CTL_at cellAddr; omega
/-- The rows of CTR_VAL, CTR_PAIR and CTR_CTL (Tables 17-5, 17-6). -/
def ctrValRow : RegDef := ⟨0x10060040, [(128, 0x100000), (8, 0x8)], [⟨0, 32, .live, false, fun _ => 0⟩]⟩
def ctrPairRow : RegDef := ⟨0x100600C0, [(128, 0x100000), (4, 0x8)], [⟨32, 32, .live, false, fun _ => 0⟩, ⟨0, 32, .live, false, fun _ => 0⟩]⟩
def ctrCtlRow : RegDef := ⟨0x100600E0, [(128, 0x100000)], [⟨32, 8, .clear, false, fun _ => 0⟩, ⟨16, 8, .status, false, fun _ => 0⟩,
  ⟨8, 8, .live, false, fun _ => 0⟩, ⟨2, 1, .live, false, fun _ => 0⟩, ⟨1, 1, .live, false, fun _ => 0⟩, ⟨0, 1, .pulse, false, fun _ => 0⟩]⟩
/-- An offset beyond an array of eight words hits none of them. -/
theorem splitIdx_beyond {n x : Nat} (h : n * 8 ≤ x) : splitIdx [(n, 8)] x = none := if_neg (by omega)
theorem splitIdx_word {n k : Nat} (h : k < n) : splitIdx [(n, 8)] (k * 8) = some [k] := by
  rw [splitIdx, Nat.mul_div_cancel _ (by decide), if_pos h, Nat.mul_mod_left]
  rfl
theorem regAt_ctrVal (c : Cell) (n : Fin 8) : regAt (F.CTR_VAL_at c n) = some (ctrValRow, [c.val, n.val]) := by
  have := n.isLt
  rw [ctrVal_cellAddr]
  refine regAt_of_findReg c (by omega) ?_
  refine (findReg_cell_skip c (b := 0x60000) rfl (by omega) (by omega) (splitIdx_beyond (by omega))).trans ?_
  refine findReg_cell_here c (b := 0x60040) rfl (by omega) (by omega) ?_
  rw [Nat.add_sub_cancel_left]
  exact splitIdx_word n.isLt
theorem regAt_ctrPair (c : Cell) (j : Fin 4) : regAt (F.CTR_PAIR_at c j) = some (ctrPairRow, [c.val, j.val]) := by
  have := j.isLt
  rw [ctrPair_cellAddr]
  refine regAt_of_findReg c (by omega) ?_
  refine (findReg_cell_skip c (b := 0x60000) rfl (by omega) (by omega) (splitIdx_beyond (by omega))).trans ?_
  refine (findReg_cell_skip c (b := 0x60040) rfl (by omega) (by omega) (splitIdx_beyond (by omega))).trans ?_
  refine (findReg_cell_skip c (b := 0x60080) rfl (by omega) (by omega) (splitIdx_beyond (by omega))).trans ?_
  refine findReg_cell_here c (b := 0x600C0) rfl (by omega) (by omega) ?_
  rw [Nat.add_sub_cancel_left]
  exact splitIdx_word j.isLt
theorem regAt_ctrCtl (c : Cell) : regAt (F.CTR_CTL_at c) = some (ctrCtlRow, [c.val]) := by
  rw [ctrCtl_cellAddr]
  refine regAt_of_findReg c (by decide) ?_
  refine (findReg_cell_skip c (b := 0x60000) rfl (by decide) (by decide) (splitIdx_beyond (by decide))).trans ?_
  refine (findReg_cell_skip c (b := 0x60040) rfl (by decide) (by decide) (splitIdx_beyond (by decide))).trans ?_
  refine (findReg_cell_skip c (b := 0x60080) rfl (by decide) (by decide) (splitIdx_beyond (by decide))).trans ?_
  refine (findReg_cell_skip c (b := 0x600C0) rfl (by decide) (by decide) (splitIdx_beyond (by decide))).trans ?_
  exact findReg_cell_here c (b := 0x600E0) rfl (by decide) (by decide) rfl

/-! ### Writes of a cell's registers by a service processor -/

/-- A service processor's write of a register of a cell's counters: stores, then pulses. -/
theorem State.writeReg_ctr {s : State} (c : Cell) {o : Nat} (ho : 0x60000 ≤ o ∧ o < 0x70000) (h8 : o % 8 = 0) {r : RegDef} {l : List Nat}
    (hr : regAt (cellAddr c o) = some (r, l)) (hh : s.hidden (cellAddr c o) = false) (w : Word) (e : PulseIn) :
    s.writeReg .sp (cellAddr c o) w e = s.writePulses (cellAddr c o) w e r.fields (s.writeStores (cellAddr c o) w r.fields s) := by
  obtain ⟨h1, h2⟩ := cellAddr_range c (o := o) (by omega)
  refine State.writeReg_sp_eq (by unfold cellAddr; omega) hr hh (by omega) ?_ (by unfold F.PKG_LOG_SEL_at; omega) w e
  simp only [regionAddr, cellAddr_mod c (show o < 0x100000 by omega)]
  simp; omega
/-- A Live field of a counter register outside the pairs is stored where it stands. -/
theorem State.storeLive_ctr (u : State) (c : Cell) {o : Nat} (ho : 0x60000 ≤ o ∧ o < 0x70000) (hpair : ¬(0x600C0 ≤ o ∧ o < 0x600E0))
    (lsb width v : Nat) : u.storeLive .sp (cellAddr c o) lsb width v = u.wr ⟨cellAddr c o, lsb, width⟩ v := by
  obtain ⟨h1, -⟩ := cellAddr_range c (o := o) (by omega)
  unfold State.storeLive
  simp only [F.PKG_MAINT_SET_at, F.LANE_M_CTRL_at, F.RIND_RTC_at]
  rw [if_neg (by omega), if_neg (by omega), if_neg (by omega), if_neg (by omega), cellOfAddr_cellAddr c (by omega)]
  dsimp only
  rw [cellAddr_mod c (by omega), if_neg (by omega), if_neg (by omega), if_neg hpair]
theorem State.pulse_ctr (u : State) (c : Cell) {o : Nat} (ho : o < 0x100000) (lsb : Nat) (e : PulseIn) :
    u.pulse .sp (cellAddr c o) lsb e = u.pulseCell c (cellAddr c o) lsb e := by
  obtain ⟨h1, -⟩ := cellAddr_range c ho
  rw [State.pulse, if_neg (by omega), if_neg (by omega), cellOfAddr_cellAddr c ho]

/-! ### What the writes of the counters leave (R476, R477) -/

/-- Whether a counter counts does not rest on the counters' values. -/
theorem State.ctrLive_congr {s t : State} {c : Cell} (h : ∀ b, (∀ m < 8, b ≠ F.CTR_VAL_at c m) → t.reg b = s.reg b) {n : Nat} (hn : n < 8) :
    t.ctrLive c n = s.ctrLive c n := by
  have hctl {f : Fld} (hf : f.addr = F.CTR_CTL_at c) : t.rd f = s.rd f :=
    State.rd_of_reg (h _ fun m hm e => ctrVal_ne_ctl c hm (e.symm.trans hf))
  have hcfg {f : Fld} {k : Nat} (hk : k < 8) (hf : f.addr = F.CTR_CFG_at c k) : t.rd f = s.rd f :=
    State.rd_of_reg (h _ fun m _ e => ctrVal_ne_cfg c m hk (e.symm.trans hf))
  have hdom : t.domain (3 * c) = s.domain (3 * c) := State.rd_of_reg (h _ fun m _ e => ctrVal_ne_domain c m c e.symm)
  have hen : t.rd (F.CTR_CTL_EN c) = s.rd (F.CTR_CTL_EN c) := hctl rfl
  have hfreeze : t.rd (F.CTR_CTL_FREEZE c) = s.rd (F.CTR_CTL_FREEZE c) := hctl rfl
  have hevt : t.rd (F.CTR_CFG_EVT c n) = s.rd (F.CTR_CFG_EVT c n) := hcfg hn rfl
  have hchain : t.rd (F.CTR_CFG_CHAIN c (n / 2 * 2)) = s.rd (F.CTR_CFG_CHAIN c (n / 2 * 2)) := hcfg (by omega) rfl
  simp only [State.ctrLive, State.ctrRuns, State.ctrChained, State.rdBit, State.rdb]
  rw [hen, hfreeze, hevt, hchain, hdom]
/-- A counter that does not count takes no increment. -/
theorem State.ctrCount_of_not_live {s : State} {c : Cell} {n : Nat} (h : s.ctrLive c n = false) (k : Nat) : s.ctrCount c n k = s :=
  if_neg (by simp [h])
theorem State.viewCell_ctrVal (s : State) (c : Cell) (n : Fin 8) (w : Word) : s.viewCell c (cellAddr c (0x60040 + n.val * 8)) w = w := by
  have := n.isLt
  simp only [State.viewCell, cellAddr_mod c (show 0x60040 + n.val * 8 < 0x100000 by omega)]
  rw [if_neg (by omega), if_neg (by omega), if_neg (by omega), if_neg (by omega), if_neg (by omega), if_neg (by omega), if_neg (by omega),
    if_neg (by omega), if_neg (by omega), if_neg (by omega)]
/-- A write of CTR_VAL sets the value, and nothing else. -/
theorem State.writeReg_ctrVal {s : State} (hp : s.mgr.pend = []) (c : Cell) (n : Fin 8) (hh : s.hidden (F.CTR_VAL_at c n) = false) (v : BitVec 32)
    (e : PulseIn) : (s.writeReg .sp (F.CTR_VAL_at c n) (v.setWidth 64) e).rd (F.CTR_VAL_VALUE c n) = v.toNat ∧
      s.onlyRegs [F.CTR_VAL_at c n] (s.writeReg .sp (F.CTR_VAL_at c n) (v.setWidth 64) e) := by
  have hlt := n.isLt
  have hr := regAt_ctrVal c n
  unfold F.CTR_VAL_VALUE
  rw [ctrVal_cellAddr] at hr hh ⊢
  have ho : 0x60000 ≤ 0x60040 + n.val * 8 ∧ 0x60040 + n.val * 8 < 0x70000 := by omega
  have hhome := homeAddr_cellAddr c (o := 0x60040 + n.val * 8) (by omega) (by omega)
  have hplain : PlainWrite (cellAddr c (0x60040 + n.val * 8)) (v.setWidth 64) ctrValRow.fields :=
    ⟨hhome, fun u => u.storeLive_ctr c ho (by omega), by simp [ctrValRow]⟩
  have hactive : getBits (s.active (cellAddr c (0x60040 + n.val * 8))) 0 32 = s.rd ⟨cellAddr c (0x60040 + n.val * 8), 0, 32⟩ := by
    rw [State.active_cell hr hh hp hhome (cellOfAddr_cellAddr c (by omega)) (by decide) (by simp [ctrValRow]), s.viewCell_ctrVal]
    rfl
  rw [State.writeReg_ctr c ho (by omega) hr hh, State.writePulses_of_zero (by simp [ctrValRow])]
  refine ⟨(State.rd_writeStores_live (by decide) hplain (.head _) rfl s hactive.symm).trans ?_, State.writeStores_onlyRegs hplain s⟩
  have := v.isLt
  simp only [getBits, BitVec.toNat_setWidth]
  omega
theorem exec_ctrValWrite_sp {s : State} {c : Cell} {n : Fin 8} (hp : s.mgr.pend = []) (hh : s.hidden (F.CTR_VAL_at c n) = false)
    (hl : s.ctrLive c n = false) (v : BitVec 32) (k : Fin 1025) :
    ∃ t, exec (.ctrValWrite .sp c n v k) s = .next t ∧ t.rd (F.CTR_VAL_VALUE c n) = v.toNat := by
  obtain ⟨hrd, honly⟩ := State.writeReg_ctrVal hp c n hh v (burns .ok .ok)
  have hlive := (State.ctrLive_congr (fun b hb => honly.2 b (mt List.mem_singleton.1 (hb n n.isLt))) n.isLt).trans hl
  exact ⟨_, congrArg Outcome.next (State.ctrCount_of_not_live hlive k), hrd⟩

/-- What the store of one half of a pair leaves: that half's value, and every other register. -/
theorem State.store_pairHalf {s u : State} {a : Nat} {w : Word} {f : FieldDef} {c k : Nat} (hf : f.kind = .live) (hw : f.width = 32)
    (hstore : ∀ v, u.storeLive .sp (homeAddr a) f.lsb f.width v = u.wr (F.CTR_VAL_VALUE c k) v)
    (hu : u.rd (F.CTR_VAL_VALUE c k) = getBits (s.active a) f.lsb f.width) :
    (s.writeStores a w [f] u).rd (F.CTR_VAL_VALUE c k) = getBits w f.lsb f.width ∧
      ∀ b, b ≠ F.CTR_VAL_at c k → (s.writeStores a w [f] u).reg b = u.reg b := by
  change State.rd (if s.tries a w f then u.storeField (homeAddr a) w f else u) _ = _ ∧
    ∀ b, _ → State.reg (if s.tries a w f then u.storeField (homeAddr a) w f else u) b = _
  by_cases ht : s.tries a w f = true
  · have hwr : u.storeField (homeAddr a) w f = u.wr (F.CTR_VAL_VALUE c k) (getBits w f.lsb f.width) := by
      rw [State.storeField, hf]
      exact hstore _
    rw [if_pos ht, hwr]
    refine ⟨u.ctrVal_wr_same c k ?_, fun b hb => u.reg_wr_ne _ (Ne.symm hb)⟩
    rw [hw]
    exact Nat.mod_lt _ (by decide)
  · rw [if_neg ht]
    refine ⟨hu.trans ?_, fun _ _ => rfl⟩
    by_contra hne
    refine ht ?_
    rw [State.tries, hf]
    exact bne_iff_ne.2 (Ne.symm hne)
theorem State.viewCell_ctrPair (s : State) (c : Cell) (j : Fin 4) (w : Word) : s.viewCell c (cellAddr c (0x600C0 + j.val * 8)) w =
    BitVec.ofNat 64 (s.rd (F.CTR_VAL_VALUE c (2 * j.val)) + s.rd (F.CTR_VAL_VALUE c (2 * j.val + 1)) * 2 ^ 32) := by
  have := j.isLt
  simp only [State.viewCell, cellAddr_mod c (show 0x600C0 + j.val * 8 < 0x100000 by omega)]
  rw [if_neg (by omega), if_neg (by omega), if_neg (by omega), if_neg (by omega), if_neg (by omega), if_pos (by omega),
    show (0x600C0 + j.val * 8 - 0x600C0) / 8 = j.val by omega]
theorem State.storeLive_ctrPair (u : State) (c : Cell) (j : Fin 4) (lsb width v : Nat) :
    u.storeLive .sp (cellAddr c (0x600C0 + j.val * 8)) lsb width v =
      u.wr (F.CTR_VAL_VALUE c (2 * j.val + (if lsb = 0 then 0 else 1))) v := by
  have := j.isLt
  obtain ⟨h1, -⟩ := cellAddr_range c (o := 0x600C0 + j.val * 8) (by omega)
  unfold State.storeLive
  simp only [F.PKG_MAINT_SET_at, F.LANE_M_CTRL_at, F.RIND_RTC_at]
  rw [if_neg (by omega), if_neg (by omega), if_neg (by omega), if_neg (by omega), cellOfAddr_cellAddr c (by omega)]
  dsimp only
  rw [cellAddr_mod c (by omega), if_neg (by omega), if_neg (by omega), if_pos (by omega), show (0x600C0 + j.val * 8 - 0x600C0) / 8 = j.val by omega]
/-- A pair of counters as its register shows it. -/
theorem getBits_pairWord {lo hi : Nat} (hlo : lo < 2 ^ 32) (hhi : hi < 2 ^ 32) :
    getBits (BitVec.ofNat 64 (lo + hi * 2 ^ 32)) 0 32 = lo ∧ getBits (BitVec.ofNat 64 (lo + hi * 2 ^ 32)) 32 32 = hi := by
  simp only [getBits, BitVec.toNat_ofNat]
  omega
/-- A write of CTR_PAIR sets both halves, and nothing else. -/
theorem State.writeReg_ctrPair {s : State} (hp : s.mgr.pend = []) (c : Cell) (j : Fin 4) (hh : s.hidden (F.CTR_PAIR_at c j) = false) (v : Word)
    (e : PulseIn) : (s.writeReg .sp (F.CTR_PAIR_at c j) v e).rd (F.CTR_VAL_VALUE c (2 * j.val)) = getBits v 0 32 ∧
      (s.writeReg .sp (F.CTR_PAIR_at c j) v e).rd (F.CTR_VAL_VALUE c (2 * j.val + 1)) = getBits v 32 32 ∧
      ∀ b, (∀ m < 8, b ≠ F.CTR_VAL_at c m) → (s.writeReg .sp (F.CTR_PAIR_at c j) v e).reg b = s.reg b := by
  have hlt := j.isLt
  have hr := regAt_ctrPair c j
  rw [ctrPair_cellAddr] at hr hh ⊢
  have hhome := homeAddr_cellAddr c (o := 0x600C0 + j.val * 8) (by omega) (by omega)
  have hactive (lsb : Nat) (hl : lsb + 32 ≤ 64) : getBits (s.active (cellAddr c (0x600C0 + j.val * 8))) lsb 32 =
      getBits (BitVec.ofNat 64 (s.rd (F.CTR_VAL_VALUE c (2 * j.val)) + s.rd (F.CTR_VAL_VALUE c (2 * j.val + 1)) * 2 ^ 32)) lsb 32 := by
    rw [State.active_cell hr hh hp hhome (cellOfAddr_cellAddr c (by omega)) hl (by simp [ctrPairRow]), s.viewCell_ctrPair]
  obtain ⟨hlo, hhi⟩ := getBits_pairWord (s.ctrVal_lt c (2 * j.val)) (s.ctrVal_lt c (2 * j.val + 1))
  rw [State.writeReg_ctr c (by omega) (by omega) hr hh, State.writePulses_of_zero (by simp [ctrPairRow])]
  obtain ⟨hup, hupRegs⟩ := State.store_pairHalf (s := s) (u := s) (w := v) (f := ⟨32, 32, .live, false, fun _ => 0⟩) (c := c)
    (k := 2 * j.val + 1) rfl rfl (fun x => by rw [hhome]; exact s.storeLive_ctrPair c j 32 32 x) ((hactive 32 (by decide)).trans hhi).symm
  obtain ⟨hdown, hdownRegs⟩ := State.store_pairHalf (s := s) (w := v) (f := ⟨0, 32, .live, false, fun _ => 0⟩) (c := c)
    (k := 2 * j.val) rfl rfl (fun x => by rw [hhome]; exact State.storeLive_ctrPair _ c j 0 32 x)
    ((State.rd_of_reg (hupRegs _ (ctrVal_ne_val c (by omega)))).trans ((hactive 0 (by decide)).trans hlo).symm)
  exact ⟨hdown, (State.rd_of_reg (hdownRegs _ (ctrVal_ne_val c (by omega)))).trans hup,
    fun b hb => (hdownRegs b (hb _ (by omega))).trans (hupRegs b (hb _ (by omega)))⟩
theorem exec_ctrPairWrite_sp {s : State} {c : Cell} {j : Fin 4} (hp : s.mgr.pend = []) (hh : s.hidden (F.CTR_PAIR_at c j) = false)
    (hlo : s.ctrLive c (2 * j.val) = false) (hhi : s.ctrLive c (2 * j.val + 1) = false) (v : Word) (k l : Fin 1025) :
    ∃ t, exec (.ctrPairWrite .sp c j v k l) s = .next t ∧
      t.rd (F.CTR_VAL_VALUE c (2 * j.val)) + t.rd (F.CTR_VAL_VALUE c (2 * j.val + 1)) * 2 ^ 32 = v.toNat := by
  obtain ⟨hdown, hup, hregs⟩ := State.writeReg_ctrPair hp c j hh v (burns .ok .ok)
  have hlive {n : Nat} (hn : n < 8) := State.ctrLive_congr hregs (n := n) hn
  refine ⟨_, rfl, ?_⟩
  rw [State.ctrCount_of_not_live ((hlive (by omega)).trans hlo), State.ctrCount_of_not_live ((hlive (by omega)).trans hhi), hdown, hup]
  have := v.isLt
  simp only [getBits]
  omega

/-! ### The control register and snapshots (R477, R480) -/

theorem State.viewCell_ctrCtl (s : State) (c : Cell) (w : Word) : ∃ n, s.viewCell c (cellAddr c 0x600E0) w = showFields w [(F.CTR_CTL_RUN 0, n)] := by
  simp only [State.viewCell, cellAddr_mod c (show 0x600E0 < 0x100000 by decide)]
  rw [if_neg (by decide), if_neg (by decide), if_neg (by decide), if_neg (by decide), if_neg (by decide), if_neg (by decide)]
  exact ⟨_, if_pos trivial⟩
/-- The word that FREEZE and SNAP are written with (Table 17-6). -/
def State.ctrCtlWord (s : State) (c : Cell) (freeze snap : Nat) : Word :=
  wordOf [(F.CTR_CTL_EN c, s.rd (F.CTR_CTL_EN c)), (F.CTR_CTL_SNAP_ARM c, s.rd (F.CTR_CTL_SNAP_ARM c)), (F.CTR_CTL_FREEZE c, freeze),
    (F.CTR_CTL_SNAP c, snap)]
theorem State.ctrCtlWord_bits (s : State) (c : Cell) {freeze snap : Nat} (hf : freeze < 2) (hs : snap < 2) :
    getBits (s.ctrCtlWord c freeze snap) 32 8 = 0 ∧ getBits (s.ctrCtlWord c freeze snap) 1 1 = freeze ∧
      getBits (s.ctrCtlWord c freeze snap) 0 1 = snap := by
  unfold State.ctrCtlWord wordOf
  refine ⟨?_, ?_, ?_⟩
  · rw [getBits_showFields_apart (by decide) (by simp [rangesApart, F.CTR_CTL_EN, F.CTR_CTL_SNAP_ARM, F.CTR_CTL_FREEZE, F.CTR_CTL_SNAP])]
    rfl
  · exact (getBits_showFields_of_split (f := F.CTR_CTL_FREEZE c) (show 1 + 1 ≤ 64 by decide) [_, _] [_]
      (by simp [rangesApart, F.CTR_CTL_FREEZE, F.CTR_CTL_SNAP]) 0).trans (Nat.mod_eq_of_lt hf)
  · exact (getBits_showFields_of_split (f := F.CTR_CTL_SNAP c) (show 0 + 1 ≤ 64 by decide) [_, _, _] [] (by simp) 0).trans (Nat.mod_eq_of_lt hs)
/-- What a write of the control register leaves for its SNAP: FREEZE as written, and no other register changed. -/
theorem State.ctrCtl_stores {s : State} (hp : s.mgr.pend = []) (c : Cell) (hh : s.hidden (F.CTR_CTL_at c) = false) {freeze snap : Nat}
    (hf : freeze < 2) (hs : snap < 2) : ∃ u : State, u.rd (F.CTR_CTL_FREEZE c) = freeze ∧ s.onlyRegs [F.CTR_CTL_at c] u ∧
      s.ctrCtl .sp c freeze snap = if snap = 0 then u else u.ctrSnap c := by
  obtain ⟨hovf, hfreeze, hsnap⟩ := s.ctrCtlWord_bits c hf hs
  have hr := regAt_ctrCtl c
  have hw : s.ctrCtl .sp c freeze snap = s.writeReg .sp (F.CTR_CTL_at c) (s.ctrCtlWord c freeze snap) (burns .ok .ok) := rfl
  unfold F.CTR_CTL_FREEZE
  rw [hw, ctrCtl_cellAddr]
  rw [ctrCtl_cellAddr] at hr hh
  have hhome := homeAddr_cellAddr c (o := 0x600E0) (by decide) (by decide)
  have hplain : PlainWrite (cellAddr c 0x600E0) (s.ctrCtlWord c freeze snap) ctrCtlRow.fields :=
    ⟨hhome, fun u => u.storeLive_ctr c (by decide) (by decide), by simp [ctrCtlRow, hovf]⟩
  have hactive : getBits (s.active (cellAddr c 0x600E0)) 1 1 = s.rd ⟨cellAddr c 0x600E0, 1, 1⟩ := by
    rw [State.active_cell hr hh hp hhome (cellOfAddr_cellAddr c (by decide)) (by decide) (by simp [ctrCtlRow, rangesApart])]
    obtain ⟨n, hn⟩ := s.viewCell_ctrCtl c (s.reg (cellAddr c 0x600E0))
    rw [hn, getBits_showFields_apart (by decide) (by simp [rangesApart, F.CTR_CTL_RUN])]
    rfl
  rw [State.writeReg_ctr c (by decide) (by decide) hr hh]
  refine ⟨_, (State.rd_writeStores_live (by decide) hplain (f := ⟨1, 1, .live, false, fun _ => 0⟩) (by simp [ctrCtlRow]) rfl s hactive.symm).trans
    hfreeze, State.writeStores_onlyRegs hplain s, ?_⟩
  by_cases h0 : snap = 0
  · rw [if_pos h0]
    exact State.writePulses_of_zero (by simpa [ctrCtlRow] using hsnap.trans h0) _
  · rw [if_neg h0]
    refine (State.writePulses_one (l := [_, _, _, _, _]) (r := []) (f := ⟨0, 1, .pulse, false, fun _ => 0⟩) (by simp) (by simp) rfl
      (fun h => h0 (hsnap.symm.trans h)) _).trans ?_
    rw [hhome, State.pulse_ctr _ c (by decide)]
    simp only [State.pulseCell, cellAddr_mod c (show 0x600E0 < 0x100000 by decide)]
    rfl

/-- The registers of one index after a fold that writes one for each. -/
theorem foldl_reg_at {l : List Nat} {f : State → Nat → State} {A : Nat → Nat} (hf : ∀ m ∈ l, ∀ t b, b ≠ A m → (f t m).reg b = t.reg b)
    (hnd : l.Nodup) {n : Nat} (hn : n ∈ l) (hA : ∀ m ∈ l, m ≠ n → A m ≠ A n) (s : State) :
    ∃ u : State, (∀ b, (∀ m ∈ l, m ≠ n → b ≠ A m) → u.reg b = s.reg b) ∧ (l.foldl f s).reg (A n) = (f u n).reg (A n) := by
  obtain ⟨l1, l2, rfl⟩ := List.append_of_mem hn
  obtain ⟨-, hnd2, hdisj⟩ := List.nodup_append.1 hnd
  have hn1 : n ∉ l1 := fun h => hdisj n h n (.head _) rfl
  have hn2 : n ∉ l2 := (List.nodup_cons.1 hnd2).1
  refine ⟨l1.foldl f s, fun b hb => foldl_reg_of_mem (fun m hm t => ?_) s, ?_⟩
  · exact hf m (List.mem_append_left _ hm) t b (hb m (List.mem_append_left _ hm) (ne_of_mem_of_not_mem hm hn1))
  · rw [List.foldl_append, List.foldl_cons]
    refine foldl_reg_of_mem (fun m hm t => ?_) _
    have hm' : m ∈ l1 ++ n :: l2 := List.mem_append_right _ (.tail _ hm)
    exact hf m hm' t _ (hA m hm' (ne_of_mem_of_not_mem hm hn2)).symm
/-- A snapshot copies all eight counters with the time (R480). -/
theorem State.ctrSnap_reads (s : State) (c : Nat) :
    (∀ n : Fin 8, (s.ctrSnap c).rd (F.CTR_SNAPVAL_VALUE c n) = s.rd (F.CTR_VAL_VALUE c n)) ∧ (s.ctrSnap c).rd (F.CTR_SNAP_TIME_TIME c) = s.ns % 2 ^ 64 := by
  refine ⟨fun n => ?_, State.rd_wr_same _ _ (by simp [F.CTR_SNAP_TIME_TIME])⟩
  have hlt := n.isLt
  obtain ⟨u, hu, hn⟩ := foldl_reg_at (l := List.range 8) (f := fun (s : State) n => s.wr (F.CTR_SNAPVAL_VALUE c n) (s.rd (F.CTR_VAL_VALUE c n)))
    (A := F.CTR_SNAPVAL_at c) (fun m _ t b hb => t.reg_wr_ne _ (Ne.symm hb)) List.nodup_range (List.mem_range.2 n.isLt)
    (fun m _ hm => by unfold F.CTR_SNAPVAL_at; omega) s
  have hval : u.rd (F.CTR_VAL_VALUE c n) = s.rd (F.CTR_VAL_VALUE c n) :=
    State.rd_of_reg (hu _ fun m hm _ => by have := List.mem_range.1 hm; simp only [F.CTR_VAL_VALUE, F.CTR_VAL_at, F.CTR_SNAPVAL_at]; omega)
  refine (State.rd_wr_ne _ _ ?_).trans ((State.rd_of_reg (f := F.CTR_SNAPVAL_VALUE c n) hn).trans ?_)
  · simp only [F.CTR_SNAP_TIME_TIME, F.CTR_SNAP_TIME_at, F.CTR_SNAPVAL_VALUE, F.CTR_SNAPVAL_at]; omega
  · rw [State.rd_wr_same _ _ (by simp [F.CTR_SNAPVAL_VALUE]), hval]
    exact Nat.mod_eq_of_lt (s.ctrVal_lt c n)
section
variable {s : State} {c : Cell} (hp : s.mgr.pend = []) (hh : s.hidden (F.CTR_CTL_at c) = false)
include hp hh
theorem exec_ctrFreezeWrite_sp (v : Bool) : ∃ t, exec (.ctrFreezeWrite .sp c v) s = .next t ∧ t.rd (F.CTR_CTL_FREEZE c) = v.toNat := by
  obtain ⟨u, hu, -, he⟩ := State.ctrCtl_stores hp c hh (freeze := v.toNat) (snap := 0) v.toNat_lt (by decide)
  exact ⟨u, congrArg Outcome.next he, hu⟩
theorem exec_ctrSnap_sp : ∃ t, exec (.ctrSnap .sp c) s = .next t ∧ (∀ n : Fin 8, t.rd (F.CTR_SNAPVAL_VALUE c n) = s.rd (F.CTR_VAL_VALUE c n)) ∧
    t.rd (F.CTR_SNAP_TIME_TIME c) = s.ns % 2 ^ 64 := by
  obtain ⟨u, -, ⟨hparts, hregs⟩, he⟩ := State.ctrCtl_stores hp c hh (freeze := s.rd (F.CTR_CTL_FREEZE c)) (snap := 1) (s.rd_lt _) (by decide)
  obtain ⟨hvals, htime⟩ := u.ctrSnap_reads c
  have hns : u.ns = s.ns := by rw [hparts]; rfl
  refine ⟨_, congrArg Outcome.next he, fun n => (hvals n).trans (State.rd_of_reg (hregs _ ?_)), hns ▸ htime⟩
  exact mt List.mem_singleton.1 (ctrVal_ne_ctl c n.isLt)
end
theorem exec_ctrSnapAtReached {s : State} {c : Cell} (ha : s.rd (F.CTR_CTL_SNAP_ARM c) = 1) (hd : s.domain (3 * c.val) = 1)
    (ht : s.rd (F.CTR_SNAP_AT_SNAP_AT c) ≤ s.ns) (hf : s.cellFenced c = false) :
    ∃ t, exec (.ctrSnapAtReached c) s = .next t ∧ (∀ n : Fin 8, t.rd (F.CTR_SNAPVAL_VALUE c n) = s.rd (F.CTR_VAL_VALUE c n)) ∧
      t.rd (F.CTR_CTL_SNAP_ARM c) = 0 := by
  obtain ⟨hvals, -⟩ := s.ctrSnap_reads c
  refine ⟨_, congrArg Outcome.next (if_pos ⟨beq_iff_eq.2 ha, hd, ht, by simp [hf]⟩), fun n => (State.rd_wr_ne _ _ ?_).trans (hvals n),
    State.rd_wr_same _ _ (by simp [F.CTR_CTL_SNAP_ARM])⟩
  simp only [F.CTR_CTL_SNAP_ARM, F.CTR_CTL_at, F.CTR_SNAPVAL_VALUE, F.CTR_SNAPVAL_at]; omega

/-! ### Overflows and captures (R475, R477 to R479) -/

theorem exec_ctrOverflow_none {s : State} {c : Cell} {n : Fin 8} {k : Fin 1025} (h : s.ctrWraps c n k = false) :
    exec (.ctrOverflow c n k) s = .next s := congrArg Outcome.next (if_neg (by simp [h]))
theorem exec_ctrOverflow_wraps {s : State} {c : Cell} {n : Fin 8} {k : Fin 1025} (hw : s.ctrWraps c n k = true) (hl : s.ctrLive c n = true)
    (hf : s.cellFenced c = false) (hch : s.ctrChained c n = false) (hsm : s.rd (F.CTR_CFG_SAMPLE c n) = 0) :
    ∃ t, exec (.ctrOverflow c n k) s = .next t ∧ t.rd (F.CTR_VAL_VALUE c n) = s.rd (F.CTR_VAL_VALUE c n) + k.val - 2 ^ 32 ∧
      (t.rd (F.CTR_CTL_OVF c)).testBit n.val = true := by
  have hlt := s.ctrVal_lt c n
  have hwrap : 2 ^ 32 ≤ s.rd (F.CTR_VAL_VALUE c n) + k.val := of_decide_eq_true (Bool.and_eq_true_iff.1 hw).1
  obtain ⟨hval, hovf, -⟩ := State.ctrAdd_unchained (k := k.val) (by omega) n.isLt hch (beq_eq_false_iff_ne.2 (by omega))
  refine ⟨_, congrArg Outcome.next ((if_pos hw).trans (if_pos ⟨hl, by simp [hf]⟩)), hval.trans (by omega), hovf.trans ?_⟩
  rw [decide_eq_true hwrap, Bool.or_true]

/-- SAMP sends a cell's counter record last (R479). -/
theorem State.sendHist_of_record {s : State} {c : Cell} {ws : List Nat} (h : mget s.ctr.record c.val = some ws) :
    ∃ u : State, u.activeSp = s.activeSp ∧ u.ctr = s.ctr ∧ s.sendHist c =
      { u with ctr.record := mdel u.ctr.record c.val }.emit (.samp (u.mgtPkt c ((ws.length + 7) / 8) (packed 64 ws))) := by
  unfold State.sendHist
  extract_lets u
  have hu : u.activeSp = s.activeSp ∧ u.ctr = s.ctr := by
    refine List.foldlRecOn (motive := fun t : State => t.activeSp = s.activeSp ∧ t.ctr = s.ctr) _ _ ⟨rfl, rfl⟩ fun t ht q _ => ?_
    dsimp only
    split <;> exact ht
  obtain ⟨hsp, hctr⟩ := hu
  have hrec : mget u.ctr.record c.val = some ws := by rw [hctr]; exact h
  refine ⟨u, hsp, hctr, ?_⟩
  rw [hrec]
/-- The record of a capture is taken: it waits for SAMP, and its sequence number is used (R478, R479). -/
def State.ctrTaken (s : State) (c : Cell) (t0 m : Nat) : State :=
  { (s.ctrRing c (s.ctrRecord c t0 m)).inc (F.CTR_SREC_PTR_TAKEN c) with
    ctr.capture := mdel s.ctr.capture c.val, ctr.lost := mdel s.ctr.lost c.val, ctr.record := mput s.ctr.record c.val (s.ctrRecord c t0 m)
    ctr.seq := mset 0 s.ctr.seq c.val ((mgetD 0 s.ctr.seq c.val + 1) % 2 ^ 32) }
/-- A counter record is one data unit (Table 17-2). -/
theorem State.length_ctrRecord (s : State) (c : Cell) (t0 m : Nat) : (s.ctrRecord c t0 m).length = 8 := rfl
theorem State.ctrRing_keeps_activeSp_ctr (s : State) (c : Cell) (ws : List Nat) :
    ((s.ctrRing c ws).inc (F.CTR_SREC_PTR_TAKEN c)).activeSp = s.activeSp ∧ ((s.ctrRing c ws).inc (F.CTR_SREC_PTR_TAKEN c)).ctr = s.ctr :=
  have h : Keeps 2 s ((s.ctrRing c ws).inc (F.CTR_SREC_PTR_TAKEN c)) := State.inc_keeps rfl (State.ctrRing_keeps rfl (Keeps.refl s) _ _) _ _
  ⟨h.frame .activeSp (by decide), h.frame .ctr (by decide)⟩
theorem State.ctrTaken_activeSp (s : State) (c : Cell) (t0 m : Nat) : (s.ctrTaken c t0 m).activeSp = s.activeSp := by
  obtain ⟨hsp, -⟩ := s.ctrRing_keeps_activeSp_ctr c (s.ctrRecord c t0 m)
  unfold State.ctrTaken
  dsimp only
  exact hsp
theorem exec_ctrCapture {s : State} {c : Cell} {t0 m : Nat} (h : mget s.ctr.capture c.val = some (t0, m)) (busy : Bool) :
    exec (.ctrCapture c busy) s = .next (if busy then s.ctrTaken c t0 m else (s.ctrTaken c t0 m).sendHist c) := by
  obtain ⟨-, hctr⟩ := s.ctrRing_keeps_activeSp_ctr c (s.ctrRecord c t0 m)
  change execCtrCapture c busy s = _
  unfold execCtrCapture State.ctrTaken
  rw [h]
  dsimp only
  rw [hctr]
theorem exec_ctrCapture_busy {s : State} {c : Cell} {t0 m : Nat} (h : mget s.ctr.capture c.val = some (t0, m)) :
    ∃ t, exec (.ctrCapture c true) s = .next t ∧ mget t.ctr.capture c.val = none ∧ mget t.ctr.record c.val = some (s.ctrRecord c t0 m) ∧
      mgetD 0 t.ctr.seq c.val = (mgetD 0 s.ctr.seq c.val + 1) % 2 ^ 32 :=
  ⟨_, exec_ctrCapture h true, mget_mdel_self _ _, mget_mput_self _ _ _, mgetD_mset_self _ _ _ _⟩
theorem exec_ctrCapture_sends {s : State} {c : Cell} {t0 m : Nat} (h : mget s.ctr.capture c.val = some (t0, m)) :
    ∃ t, exec (.ctrCapture c false) s = .next t ∧ mget t.ctr.capture c.val = none ∧ mget t.ctr.record c.val = none ∧
      t.out.head? = some (.samp (s.mgtPkt c 1 (packed 64 (s.ctrRecord c t0 m)))) := by
  obtain ⟨u, husp, huctr, he⟩ := State.sendHist_of_record (s := s.ctrTaken c t0 m) (mget_mput_self _ _ _)
  have hpkt (n x : Nat) : u.mgtPkt c n x = s.mgtPkt c n x := by
    unfold State.mgtPkt State.spCell
    rw [husp, State.ctrTaken_activeSp]
  refine ⟨_, exec_ctrCapture h false, ?_⟩
  simp only [Bool.false_eq_true, if_false]
  rw [he, State.length_ctrRecord, hpkt, show (8 + 7) / 8 = 1 from rfl, State.emit_ctr, State.emit_out, huctr, List.head?_cons]
  exact ⟨mget_mdel_self _ _, mget_mdel_self _ _, rfl⟩

/-! ### Counts of an instance, and trips (R482, R499) -/

theorem exec_instCtrSnap_tenant (i : Inst) (s : State) :
    (s.ctrGrant i 1 = true ∨ s.ctrGrant i 2 = true → exec (.instCtrSnap none i) s = .next (s.instSnap i)) ∧
      (s.ctrGrant i 1 = false → s.ctrGrant i 2 = false → exec (.instCtrSnap none i) s = .next s) :=
  ⟨fun h => congrArg Outcome.next (if_pos h), fun h1 h2 => congrArg Outcome.next (if_neg (by simp [h1, h2]))⟩
/-- The state in which the trip of one sensor that watches no regulator faults its element. -/
def State.warmed (s : State) (x : Fin 52) : State := { s.warm x with pwr.tripped := s.pwr.tripped.dedup }
theorem State.tripAll_one (s : State) {x : Fin 52} (hx : x.val < 36) : s.tripAll [x] =
    ([sensorElem x].filter (s.warmed x).runs_).foldl
      (fun (s : State) e => s.failElem e none (match e with | .stack _ => 0x0005 | _ => 0x0004) (elemNum e)) (s.warmed x) := by
  have hnone : [x].filter (fun (x : Fin 52) => decide (36 ≤ x.val)) = [] := List.filter_eq_nil_iff.2 fun y hy => by
    rw [List.mem_singleton.1 hy]
    simp; omega
  unfold State.tripAll
  rw [hnone]
  rfl
theorem State.warmed_runs (s : State) (x : Fin 52) (e : Elem) : (s.warmed x).runs_ e = s.runs_ e := by cases e <;> rfl
/-- The trip of a sensor of a die or a stack faults that element if it runs (Table 18-12). -/
theorem exec_thermalTrip_one {s : State} (hr : s.pwr.rind = true) {x : Fin 52} (hrun : s.runs_ (sensorElem x) = true) (hx : x.val < 36) :
    exec (.thermalTrip [x]) s = .next ((s.warmed x).failElem (sensorElem x) none (if x.val < 32 then 0x0004 else 0x0005)
      (elemNum (sensorElem x))) := by
  have hcause : (match sensorElem x with | .stack _ => 0x0005 | _ => 0x0004) = if x.val < 32 then 0x0004 else 0x0005 := by
    unfold sensorElem
    by_cases h : x.val < 32
    · rw [if_pos h, if_pos h]
    · rw [if_neg h, if_neg h, if_pos hx]
  refine congrArg Outcome.next ((State.onRind_of_rind hr _).trans ((s.tripAll_one hx).trans ?_))
  rw [List.filter_cons_of_pos ((s.warmed_runs x _).trans hrun), ← hcause]
  rfl

/-! ### CXL.io at a vPPB (R218 to R222) -/

theorem State.hostIo_of_slot {s : State} {a : Cell} (hm : s.mode ≠ .safeStop) (hp : a.val ∉ s.pool.paused) (r : IoReq) :
    exec (.hostCxlIoRequest a r) s = .next (s.hostIo a r) :=
  congrArg Outcome.next (if_neg (by simp [hm, hp]))
section
variable {s : State} {a : Cell} {v : Fin 64} (hs : s.firstSlot a ≠ none) (hd : s.vppbDevice a v = none)
include hs
theorem State.hostIo_slot_guard (r : IoReq) : ¬(s.instAnswers a r && (s.firstSlot a).isNone) = true := by simp [hs]
theorem State.hostIo_window_unbound (hi : s.vppbInst a v = none) (o w) : s.hostIo a (.window v o w) = s.vcsAnswer a [] true := by
  rw [State.hostIo, if_neg (State.hostIo_slot_guard hs _)]
  simp only [hi]
theorem State.hostIo_window_read {i : Inst} (hi : s.vppbInst a v = some i) (o) :
    s.hostIo a (.window v o none) = s.vcsAnswer a [(s.tenantRead i o.val).toNat] := by
  rw [State.hostIo, if_neg (State.hostIo_slot_guard hs _)]
  simp only [hi]
theorem State.hostIo_window_write {i : Inst} (hi : s.vppbInst a v = some i) (o w) :
    s.hostIo a (.window v o (some w)) = (s.tenantWrite i o.val w).vcsAnswer a [] := by
  rw [State.hostIo, if_neg (State.hostIo_slot_guard hs _)]
  simp only [hi]
include hd
theorem State.hostIo_device_unbound (h d) : s.hostIo a (.device v h d) = s.vcsAnswer a [] true := by
  rw [State.hostIo, if_neg (State.hostIo_slot_guard hs _)]
  simp only [hd]
theorem State.hostIo_decoders_unbound (hi : s.vppbInst a v = none) (l) : s.hostIo a (.decoders v l) = s.vcsAnswer a [] true := by
  rw [State.hostIo, if_neg (State.hostIo_slot_guard hs _)]
  simp only [hd, hi]
theorem State.hostIo_decoders_bound {i : Inst} (hi : s.vppbInst a v = some i) (x : BitVec 52 × BitVec 52 × BitVec 52) :
    s.hostIo a (.decoders v [x]) = (s.setDecoders a (fun y => y.dev.isNone && y.inst == i)
      [{ inst := i, base := x.1, size := x.2.1, dpa := x.2.2 }]).vcsAnswer a [] := by
  rw [State.hostIo, if_neg (State.hostIo_slot_guard hs _)]
  simp only [hd, hi]
  rfl
end
theorem State.mem_setDecoders (s : State) (a : Cell) (same : Hdm → Bool) (x : Hdm) : x ∈ mgetD [] (s.setDecoders a same [x]).pool.hdm a.val := by
  unfold State.setDecoders
  dsimp only
  rw [mgetD_mmod_self]
  exact List.mem_append_right _ (.head _)

/-- Settles O23: each clause by the lemma on its command's exec. -/
theorem countersThermalAndIoComplete : Obligations.CountersThermalAndIoComplete := by
  refine ⟨fun c n k s => ⟨exec_ctrOverflow_none, exec_ctrOverflow_wraps⟩, fun c t0 m s h => ⟨exec_ctrCapture_busy h, exec_ctrCapture_sends h⟩,
    fun c s hp hctl hval hpair => ⟨fun n v k hl => exec_ctrValWrite_sp hp (hval n) hl v k,
      fun j v k l hlo hhi => exec_ctrPairWrite_sp hp (hpair j) hlo hhi v k l, exec_ctrFreezeWrite_sp hp hctl, exec_ctrSnap_sp hp hctl⟩,
    fun c s => exec_ctrSnapAtReached, exec_instCtrSnap_tenant,
    fun s hr => ⟨fun x => ⟨_, exec_thermalWarn hr x, s.warm_mem x, rfl⟩, ⟨_, exec_thermalRelease hr, rfl, rfl⟩, fun x => exec_thermalTrip_one hr⟩,
    fun a v s hm hp hs => ⟨fun hi hd => ?unbound, fun i hi hd => ?bound⟩⟩
  case unbound =>
    exact ⟨fun l => (State.hostIo_of_slot hm hp _).trans (congrArg _ (State.hostIo_decoders_unbound hs hd hi l)),
      fun o w => (State.hostIo_of_slot hm hp _).trans (congrArg _ (State.hostIo_window_unbound hs hi o w)),
      fun h d => (State.hostIo_of_slot hm hp _).trans (congrArg _ (State.hostIo_device_unbound hs hd h d))⟩
  case bound =>
    exact ⟨fun o => (State.hostIo_of_slot hm hp _).trans (congrArg _ (State.hostIo_window_read hs hi o)),
      fun o w => (State.hostIo_of_slot hm hp _).trans (congrArg _ (State.hostIo_window_write hs hi o w)),
      fun x => ⟨_, (State.hostIo_of_slot hm hp _).trans (congrArg _ (State.hostIo_decoders_bound hs hd hi x)), State.mem_setDecoders _ _ _ _⟩⟩

end Sys2Proof.Machine

/-! # The manager's protocols, the lease and commit epochs -/

namespace Sys2Proof.Machine
open Host (Outcome)

/-! ### Requests and the store of responses (R453 to R455) -/

/-- Each ZMP request but MCTP runs with the Rind domain. -/
theorem exec_zmp {x : ZmpIn} {r : ZmpReq} {c : Instr}
    (h : match r with
      | .acquire k => c = .zmpAcquire x k
      | .renew k => c = .zmpRenew x k
      | .release k => c = .zmpRelease x k
      | .read a n => c = .zmpRead x a n
      | .write a l => c = .zmpWrite x a l
      | .ping => c = .zmpPing x) (s : State) : exec c s = .next (s.onRind fun s => s.zmpReq .mgr x r) := by
  cases r <;> (subst h; rfl)
section
variable {s : State} {src : Src} {x : ZmpIn} {typ : Nat} {count : Bool} (hf : x.frameOk = true) (hb : x.busy = false) (hv : x.valid = true)
  (hc : count = true) (k : State → List Nat × State)
include hf hb hv hc
/-- A request that was executed is answered again from the store. -/
theorem State.zmpRun_stored {a : Answer} (h : s.stored src typ x.seq.toNat = some a) : s.zmpRun src x typ count k =
    (s.sat F.MGR_ZMP_CNT_REPLAYED).zmpAnswer src typ x.seq.toNat 0 (a.payload.map (fun w => w.toNat)) := by
  unfold State.zmpRun
  simp only [hf, hb, hv, hc, Bool.not_true, Bool.or_self, Bool.false_eq_true, if_false, h]
/-- What the execution of a new request leaves: its response is stored, first of eight, and sent. -/
def State.zmpDone (src : Src) (seq typ : Nat) (y : List Nat × State) : State :=
  { y.2 with mgr.answers := (({ src := src, seq := seq, typ := typ, payload := y.1.map (BitVec.ofNat 64) } : Answer) :: y.2.mgr.answers).take 8
    }.zmpAnswer src typ seq 0 y.1
theorem State.zmpRun_new (h : s.stored src typ x.seq.toNat = none) : s.zmpRun src x typ count k = State.zmpDone src x.seq.toNat typ (k s) := by
  unfold State.zmpRun
  simp only [hf, hb, hv, hc, Bool.not_true, Bool.or_self, Bool.false_eq_true, if_false, h]
  rfl
/-- After a request was taken its response stands in the store. -/
theorem State.zmpRun_stores : ∃ a, (s.zmpRun src x typ count k).stored src typ x.seq.toNat = some a := by
  cases h : s.stored src typ x.seq.toNat with
  | some a =>
    rw [State.zmpRun_stored hf hb hv hc k h]
    exact ⟨a, h⟩
  | none =>
    rw [State.zmpRun_new hf hb hv hc k h]
    exact ⟨_, List.find?_cons_of_pos (by simp)⟩
end

/-- Settles O45: the first arrival leaves the response in the store, and the second is answered from there. -/
theorem retransmittedRequestsActOnce : Obligations.RetransmittedRequestsActOnce := by
  intro x r c s t hmatch hf hb hv hc hexec hrind
  have hst : s.onRind (fun s => s.zmpReq .mgr x r) = t := Outcome.next.inj ((exec_zmp hmatch s).symm.trans hexec)
  have hs : s.pwr.rind = true := by
    by_contra hoff
    have hsame : s = t := (if_neg hoff).symm.trans hst
    exact hoff (hsame ▸ hrind)
  obtain ⟨a, ha⟩ := State.zmpRun_stores (s := s) (src := .mgr) (typ := zmpType r) hf hb hv hc (fun s => s.zmpDo .mgr r)
  have ht : t.stored .mgr (zmpType r) x.seq.toNat = some a := by
    rw [← hst, State.onRind_of_rind hs]
    exact ha
  refine ⟨a.payload.map (fun w => w.toNat), (exec_zmp hmatch t).trans (congrArg Outcome.next ?_)⟩
  exact (State.onRind_of_rind hrind _).trans (State.zmpRun_stored hf hb hv hc _ ht)

/-! ### Requests on the manager port (R453, R454, R456) -/

section
variable {s : State} {x : ZmpIn} (hr : s.pwr.rind = true) (hf : x.frameOk = true) (hv : x.valid = true)
include hr hf
/-- A request that meets a busy receiver is answered BUSY. -/
theorem exec_zmpAcquire_busy (hb : x.busy = true) (c : BitVec 16) :
    exec (.zmpAcquire x c) s = .next ((s.sat F.MGR_ZMP_CNT_BUSY).zmpAnswer .mgr 1 x.seq.toNat 1 []) := by
  refine congrArg Outcome.next ((State.onRind_of_rind hr _).trans ?_)
  simp [State.zmpReq, State.zmpRun, hf, hb, zmpType]
include hv
/-- A request that the store does not hold is executed, and its response stored and sent. -/
theorem exec_zmp_new (hb : x.busy = false) {r : ZmpReq} {c : Instr} (hc : zmpCount r = true) (hn : s.stored .mgr (zmpType r) x.seq.toNat = none)
    (h : exec c s = .next (s.onRind fun s => s.zmpReq .mgr x r)) :
    exec c s = .next (State.zmpDone .mgr x.seq.toNat (zmpType r) (s.zmpDo .mgr r)) :=
  h.trans (congrArg Outcome.next ((State.onRind_of_rind hr _).trans (State.zmpRun_new hf hb hv hc _ hn)))
end
theorem State.zmpDone_out (src : Src) (seq typ : Nat) (y : List Nat × State) :
    (State.zmpDone src seq typ y).out = .zmp src (typ + 128) seq 0 y.1 :: y.2.out := rfl
theorem State.zmpDone_holder (src : Src) (seq typ : Nat) (y : List Nat × State) : (State.zmpDone src seq typ y).mgr.holder = y.2.mgr.holder := rfl
theorem State.zmpDone_client (src : Src) (seq typ : Nat) (y : List Nat × State) : (State.zmpDone src seq typ y).mgr.client = y.2.mgr.client := rfl
theorem State.zmpDone_leaseEnd (src : Src) (seq typ : Nat) (y : List Nat × State) :
    (State.zmpDone src seq typ y).mgr.leaseEnd = y.2.mgr.leaseEnd := rfl
theorem State.length_readMany (src : Src) (n : Nat) : ∀ (s : State) (a : Nat), (s.readMany src a n).1.length = n := by
  induction n with
  | zero => exact fun _ _ => rfl
  | succ n ih => exact fun s a => congrArg (· + 1) (ih _ _)

/-! ### The lease (R459, R460) -/

theorem State.acquire_free {s : State} {src : Src} (hn : s.mgr.holder = none) (hp : s.pathOk src = true) (hm : s.mode ≠ .sealedHalt) (c : Nat) :
    s.acquire src c = s.grantLease src c := by
  unfold State.acquire
  rw [hn]
  exact if_pos (by simp [hp, hm])
theorem State.holds_iff (s : State) (src : Src) : s.holds src = true ↔ s.mgr.holder = some src := beq_iff_eq
/-- A lost lease has no holder, and no shadows wait for an epoch. -/
theorem State.loseLease_ends {s : State} {h : Src} (hh : s.mgr.holder = some h) : s.loseLease.mgr.holder = none ∧ s.loseLease.mgr.shadow = [] := by
  have hdrop (u : State) : (u.dropShadows 3 8).mgr = { u.mgr with shadow := [] } :=
    (State.logCommit_keeps (P := 132120575) rfl (State.wr_keeps rfl (Keeps.refl { u with mgr.shadow := [] }) _ _) 3 8 0 none 0 0 _).mgr_eq
  have hclose (u : State) : u.emptyClose.mgr.holder = u.mgr.holder := by
    unfold State.emptyClose
    split
    · split <;> rfl
    · rfl
  unfold State.loseLease
  rw [hh]
  dsimp only
  generalize hw : State.dropShadows (State.emptyClose _) 3 8 = w
  have hw' : w.mgr.holder = none ∧ w.mgr.shadow = [] := by
    rw [← hw, hdrop]
    exact ⟨(hclose _).trans rfl, rfl⟩
  split
  · rw [(State.goMode_keeps (P := 132120575) rfl (State.leaveMaint_keeps rfl (Keeps.refl w)) .service 0x0F).mgr_eq]
    exact hw'
  · exact hw'
/-- MAINTENANCE ends with the lease (R42). -/
theorem State.loseLease_maintenance {s : State} {h : Src} (hh : s.mgr.holder = some h) (hm : s.mode = .maintenance) :
    s.loseLease.mode = .service := by
  unfold State.loseLease
  rw [hh]
  dsimp only
  generalize hw : State.dropShadows (State.emptyClose _) 3 8 = w
  have hwm : w.mode = .maintenance := by
    rw [← hw, (State.dropShadows_keeps (P := 134217726) rfl (State.emptyClose_keeps rfl (State.sat_keeps rfl (Keeps.refl _) _ _)) 3 8).mode_eq]
    exact hm
  rw [if_pos hwm]
  refine State.goMode_mode ?_
  rw [(State.leaveMaint_keeps (P := 134217726) rfl (Keeps.refl w)).mode_eq, hwm]
  decide

/-! ### What each request does -/

section
variable {s : State} {x : ZmpIn} (hr : s.pwr.rind = true) (hf : x.frameOk = true) (hv : x.valid = true) (hb : x.busy = false)
  (hn : ∀ n, s.stored .mgr n x.seq.toNat = none)
include hr hf hv hb hn
theorem exec_zmpAcquire_free (c : BitVec 16) (hh : s.mgr.holder = none) (hp : s.pathOk .mgr = true) (hm : s.mode ≠ .sealedHalt) :
    ∃ t l, exec (.zmpAcquire x c) s = .next t ∧ t.mgr.holder = some .mgr ∧ t.mgr.client = c.toNat ∧ t.mgr.leaseEnd = s.wall + s.leaseMs * msCyc ∧
      t.out = .zmp .mgr 129 x.seq.toNat 0 l :: s.out := by
  have hgrant : (s.zmpDo .mgr (.acquire c)).2 = s.grantLease .mgr c.toNat := State.acquire_free hh hp hm _
  refine ⟨_, (s.zmpDo .mgr (.acquire c)).1, exec_zmp_new hr hf hv hb rfl (hn _) rfl, ?_⟩
  rw [State.zmpDone_holder, State.zmpDone_client, State.zmpDone_leaseEnd, State.zmpDone_out, hgrant]
  exact ⟨rfl, rfl, rfl, rfl⟩
theorem exec_zmpRenew_held (c : BitVec 16) (hh : s.mgr.holder = some .mgr) :
    ∃ t l, exec (.zmpRenew x c) s = .next t ∧ t.mgr.leaseEnd = s.wall + s.leaseMs * msCyc ∧ t.out = .zmp .mgr 130 x.seq.toNat 0 l :: s.out := by
  have hgrant : (s.zmpDo .mgr (.renew c)).2 = s.grantLease .mgr c.toNat := if_pos ((s.holds_iff _).2 hh)
  refine ⟨_, (s.zmpDo .mgr (.renew c)).1, exec_zmp_new hr hf hv hb rfl (hn _) rfl, ?_⟩
  rw [State.zmpDone_leaseEnd, State.zmpDone_out, hgrant]
  exact ⟨rfl, rfl⟩
theorem exec_zmpRelease_held (c : BitVec 16) (hh : s.mgr.holder = some .mgr) :
    ∃ t l, exec (.zmpRelease x c) s = .next t ∧ t.mgr.holder = none ∧ t.out.head? = some (.zmp .mgr 131 x.seq.toNat 0 l) := by
  have hlose : (s.zmpDo .mgr (.release c)).2 = s.loseLease := if_pos ((s.holds_iff _).2 hh)
  refine ⟨_, (s.zmpDo .mgr (.release c)).1, exec_zmp_new hr hf hv hb rfl (hn _) rfl, ?_, rfl⟩
  rw [State.zmpDone_holder, hlose]
  exact (State.loseLease_ends hh).1
theorem exec_zmpRead_new (a : BitVec 32) (n : BitVec 16) (h1 : 1 ≤ n.toNat) (h64 : n.toNat ≤ 64) :
    ∃ t l, exec (.zmpRead x a n) s = .next t ∧ t.out.head? = some (.zmp .mgr 132 x.seq.toNat 0 l) ∧ l.length = n.toNat :=
  ⟨_, _, exec_zmp_new hr hf hv hb (by simp [zmpCount, h1, h64]) (hn _) rfl, rfl, State.length_readMany .mgr n.toNat s a.toNat⟩
theorem exec_zmpWrite_one (a : BitVec 32) (w : Word) : exec (.zmpWrite x a [w]) s = .next
    ({ s.writeDraw .mgr a.toNat w with mgr.answers :=
      (({ src := .mgr, seq := x.seq.toNat, typ := 5, payload := [] } : Answer) :: (s.writeDraw .mgr a.toNat w).mgr.answers).take 8 }.zmpAnswer .mgr 5
        x.seq.toNat 0 []) :=
  exec_zmp_new (r := .write a [w]) hr hf hv hb rfl (hn _) rfl
theorem exec_zmpMctp_control : ∃ t, exec (.zmpMctp x (.control .other)) s = .next t ∧ Out.mctp .mgr ∈ t.out :=
  ⟨_, congrArg Outcome.next ((State.onRind_of_rind hr _).trans (State.zmpRun_new hf hb hv rfl _ (hn 6))), .tail _ (.head _)⟩
theorem exec_zmpPing_new :
    ∃ t, exec (.zmpPing x) s = .next t ∧ t.out = .zmp .mgr 135 x.seq.toNat 0 [(s.look F.PKG_MODE_at).toNat] :: s.out :=
  ⟨_, exec_zmp_new (r := .ping) hr hf hv hb rfl (hn _) rfl, rfl⟩
end
section
variable {s : State} {x : ZmpIn} (hr : s.pwr.rind = true)
include hr
theorem exec_zmpPing_stored (hf : x.frameOk = true) (hv : x.valid = true) (hb : x.busy = false) {a : Answer}
    (h : s.stored .mgr 7 x.seq.toNat = some a) : ∃ t, exec (.zmpPing x) s = .next t ∧ t.mgr.answers = s.mgr.answers ∧
      t.out = .zmp .mgr 135 x.seq.toNat 0 (a.payload.map (fun w => w.toNat)) :: s.out :=
  ⟨_, congrArg Outcome.next ((State.onRind_of_rind hr _).trans (State.zmpRun_stored hf hb hv rfl _ h)), rfl, rfl⟩
theorem exec_mctpControl_mgr : exec (.mctpControl .mgr .other) s = .next (s.emit (.mctp .mgr)) :=
  congrArg Outcome.next (State.onRind_of_rind hr _)
/-- A vendor-defined message over the manager port, from the holder of the lease (R457). -/
theorem exec_mctpVendorZmp_ping (hf : x.frameOk = true) (hv : x.valid = true) (hb : x.busy = false) (hn : s.stored .mgr 7 x.seq.toNat = none)
    (hh : s.mgr.holder = some .mgr) :
    ∃ t, exec (.mctpVendorZmp .mgr x .ping) s = .next t ∧ t.out = .zmp .mgr 135 x.seq.toNat 0 [(s.look F.PKG_MODE_at).toNat] :: s.out := by
  have hsame : s.fmLease .mgr = s := if_neg (by simp [hh])
  have hvendor : s.mctpVendor .mgr x .ping = State.zmpDone .mgr x.seq.toNat 7 ((s.fmLease .mgr).zmpDo .mgr .ping) :=
    State.zmpRun_new (count := true) hf hb hv rfl (fun s => (s.fmLease .mgr).zmpDo .mgr .ping) hn
  refine ⟨_, congrArg Outcome.next ((State.onRind_of_rind hr _).trans hvendor), ?_⟩
  rw [State.zmpDone_out, hsame]
  rfl
theorem exec_leaseExpiry {h : Src} (hh : s.mgr.holder = some h) (he : s.mgr.leaseEnd ≤ s.wall) : ∃ t, exec .leaseExpiry s = .next t ∧
    t.mgr.holder = none ∧ t.mgr.shadow = [] ∧ (s.mode = .maintenance → t.mode = .service) ∧ (s.mode ≠ .maintenance → t.mode = s.mode) := by
  obtain ⟨hholder, hshadow⟩ := State.loseLease_ends hh
  exact ⟨_, congrArg Outcome.next ((State.onRind_of_rind hr _).trans (if_pos he)), hholder, hshadow, State.loseLease_maintenance hh,
    State.loseLease_mode⟩
end

/-! ### Writes of a register (R17, R463) -/

section
variable (a : BitVec 32) (v : Word) (s : State)
theorem exec_registerWrite_sp : exec (.registerWrite .sp a v) s = .next (s.pulseDraw.2.writeReg .sp a.toNat v s.pulseDraw.1) := rfl
theorem exec_registerWrite_misaligned (h8 : a.toNat % 8 ≠ 0) :
    exec (.registerWrite .sp a v) s = .next ((s.pulseDraw.2.rindAccess a.toNat).logAccess .sp 1 a.toNat v.toNat) := by
  rw [exec_registerWrite_sp, State.writeReg, if_neg (by simp), State.reaches, if_pos h8]
theorem exec_registerWrite_nowhere (h8 : a.toNat % 8 = 0) (hr : regAt a.toNat = none) :
    exec (.registerWrite .sp a v) s = .next ((s.pulseDraw.2.rindAccess a.toNat).logAccess .sp 2 a.toNat v.toNat) := by
  rw [exec_registerWrite_sp, State.writeReg, if_neg (by simp), State.reaches, if_neg (not_not.2 h8), if_pos (by simp [hr])]
theorem exec_registerWrite_acts {r : RegDef} {l : List Nat} (hr : regAt a.toNat = some (r, l)) (h8 : a.toNat % 8 = 0)
    (hh : (s.pulseDraw.2.rindAccess a.toNat).hidden a.toNat = false) (hsel : a.toNat ≠ F.PKG_LOG_SEL_at) :
    exec (.registerWrite .sp a v) s = .next ((s.pulseDraw.2.rindAccess a.toNat).act .sp a.toNat
      ((s.pulseDraw.2.rindAccess a.toNat).attempts a.toNat r v) s.pulseDraw.1) := by
  rw [exec_registerWrite_sp, State.writeReg_sp h8 hr hh, if_neg hsel]
end

/-! ### Commit epochs (R466 to R470) -/

/-- A plain write of a register without live fields stores nothing. -/
theorem State.writeStores_of_no_live {s : State} {a : Nat} {w : Word} {fs : List FieldDef} (h : PlainWrite a w fs)
    (hl : ∀ f ∈ fs, f.kind ≠ .live) (u : State) : s.writeStores a w fs u = u := by
  induction fs generalizing u with
  | nil => rfl
  | cons f fs ih =>
    obtain ⟨hf, hls⟩ := List.forall_mem_cons.1 hl
    refine (ih h.tail hls (s.writeStores a w [f] u)).trans ?_
    rcases h.head.field u with e | ⟨hlive, -⟩
    · exact e
    · exact absurd hlive hf
/-- The row of PKG_COMMIT (Table 16-11). -/
def commitRow : RegDef := ⟨0x100, [], [⟨32, 32, .status, false, fun _ => 0⟩, ⟨8, 16, .status, false, fun _ => 0⟩,
  ⟨4, 2, .status, false, fun _ => 0⟩, ⟨3, 1, .clear, false, fun _ => 0⟩, ⟨2, 1, .status, false, fun _ => 0⟩, ⟨1, 1, .pulse, false, fun _ => 0⟩,
  ⟨0, 1, .pulse, false, fun _ => 0⟩]⟩
theorem State.storeLive_pkg (u : State) {a : Nat} (ha : a < 0x100000) (hmaint : a ≠ F.PKG_MAINT_SET_at 0 ∧ a ≠ F.PKG_MAINT_SET_at 1)
    (lsb width v : Nat) : u.storeLive .sp a lsb width v = u.wr ⟨a, lsb, width⟩ v := by
  obtain ⟨h0, h1⟩ := hmaint
  have hc : cellOfAddr a = none := if_neg (by omega)
  have hlane : a ≠ F.LANE_M_CTRL_at := by unfold F.LANE_M_CTRL_at; omega
  have hrtc : a ≠ F.RIND_RTC_at := by unfold F.RIND_RTC_at; omega
  rw [State.storeLive, if_neg (not_or.2 ⟨h0, h1⟩), if_neg (fun h => hlane h.1), if_neg hlane, if_neg hrtc, hc]
/-- A write of PKG_COMMIT that clears nothing stores nothing. -/
theorem State.writeReg_commit (s : State) {w : Word} (hw : getBits w 3 1 = 0) (e : PulseIn) :
    s.writeReg .sp F.PKG_COMMIT_at w e = s.writePulses F.PKG_COMMIT_at w e commitRow.fields s := by
  have hplain : PlainWrite F.PKG_COMMIT_at w commitRow.fields :=
    ⟨rfl, fun u => u.storeLive_pkg (by decide) (by decide), by simp [commitRow, hw]⟩
  rw [State.writeReg_sp_eq (r := commitRow) (l := []) (by decide) rfl (State.hidden_pkg s (by decide)) (by decide) (by decide) (by decide),
    State.writeStores_of_no_live hplain (by simp [commitRow])]
theorem exec_commitGo_sp (s : State) : exec (.commitGo .sp) s = .next s.commitGo := by
  refine congrArg Outcome.next ((s.writeReg_commit (by decide) _).trans ?_)
  exact State.writePulses_one (l := [_, _, _, _, _, _]) (r := []) (f := ⟨0, 1, .pulse, false, fun _ => 0⟩) (by simp; decide) (by simp) rfl
    (by decide) s
theorem exec_commitDiscard_sp (s : State) : exec (.commitDiscard .sp) s = .next s.commitDiscard := by
  refine congrArg Outcome.next ((s.writeReg_commit (by decide) _).trans ?_)
  exact State.writePulses_one (l := [_, _, _, _, _]) (r := [_]) (f := ⟨1, 1, .pulse, false, fun _ => 0⟩) (by simp) (by simp; decide) rfl
    (by decide) s
section
variable {s : State}
theorem exec_commitGo_refused (he : s.mgr.epoch = none) (hm : commitMode s.mode = false) :
    ∃ t, exec (.commitGo .sp) s = .next t ∧ t.rd F.PKG_COMMIT_REFUSED = 1 ∧ t.mgr.epoch = none := by
  have hgo : s.commitGo = s.flag F.PKG_COMMIT_REFUSED := (if_neg (by simp [he])).trans (if_pos (by simp [hm]))
  exact ⟨_, (exec_commitGo_sp s).trans (congrArg _ hgo), s.rd_flag_same (by decide) (by decide), he⟩
theorem exec_commitGo_opens (he : s.mgr.epoch = none) (hm : commitMode s.mode = true) : ∃ t e, exec (.commitGo .sp) s = .next t ∧
    t.mgr.epoch = some e ∧ t.mgr.shadow = [] ∧ e.shadows = s.mgr.shadow ∧ e.goAt = s.cyc :=
  ⟨_, _, (exec_commitGo_sp s).trans (congrArg _ ((if_neg (by simp [he])).trans (if_neg (by simp [hm])))), rfl, rfl, rfl, rfl⟩
theorem exec_commitDiscard_empties : ∃ t, exec (.commitDiscard .sp) s = .next t ∧ t.mgr.shadow = [] := by
  refine ⟨_, exec_commitDiscard_sp s, ?_⟩
  unfold State.commitDiscard State.dropShadows
  rw [(State.logCommit_keeps (P := 132120575) rfl (Keeps.refl _) 4 0 0 none 0 0 _).mgr_eq]
  rfl
theorem exec_commitCheckComplete {e : Epoch} (he : s.mgr.epoch = some e) (hp : e.phase = .check) (hf : s.epochFree = true) :
    exec .commitCheckComplete s = .next ((s.judgeEpoch e.shadows).goOn e) := by
  change execCommitCheckComplete s = _
  unfold execCommitCheckComplete
  rw [he]
  exact congrArg Outcome.next (if_neg (by simp [hp, hf]))
theorem exec_commitApply {e : Epoch} {b : Fin 1024} (he : s.mgr.epoch = some e) (hp : e.phase = .apply) (ho : s.scrim.epochOpen = false)
    (hb : b.val ∈ e.awAck) : ∃ t e', exec (.commitApply b) s = .next t ∧ t.mgr.epoch = some e' ∧ b.val ∉ e'.awAck ∧
      (∀ x ∈ e'.shadows, blockOf x.1 ≠ b.val) := by
  have hgo : ¬(e.phase ≠ .apply ∨ s.scrim.epochOpen = true ∨ (!e.awAck.contains b.val) = true) := by simp [hp, ho, hb]
  change ∃ t e', execCommitApply b s = _ ∧ _
  unfold execCommitApply
  rw [he]
  dsimp only
  rw [if_neg hgo]
  refine ⟨_, _, rfl, rfl, by simp, fun x hx => ?_⟩
  simpa using (List.mem_filter.1 hx).2
/-- Outside the gate blocks the named fields of one register apply at their safe point. -/
theorem exec_commitPendingApply {a : BitVec 32} {m : Nat × Nat} (hg : inGate a.toNat = false) (hs : s.safePoint a.toNat = true)
    (hm : mget s.mgr.pend a.toNat = some m) (hlt : m.1 < 2 ^ 64) :
    ∃ t, exec (.commitPendingApply a (BitVec.allOnes 64)) s = .next t ∧ mget t.mgr.pend a.toNat = none := by
  have hnow : m.1 &&& (BitVec.allOnes 64).toNat = m.1 := by
    rw [BitVec.toNat_allOnes, Nat.and_two_pow_sub_one_eq_mod, Nat.mod_eq_of_lt hlt]
  have hpend : (s.applyPending a.toNat (BitVec.allOnes 64).toNat).mgr.pend = mdel s.mgr.pend a.toNat := by
    unfold State.applyPending
    rw [hm]
    dsimp only
    rw [hnow, (State.applyBits_keeps (P := 132120575) rfl (Keeps.refl _) _ _ _).mgr_eq, Nat.xor_self, if_pos rfl]
  refine ⟨(s.applyPending a.toNat (BitVec.allOnes 64).toNat).showWaiting, ?_, ?_⟩
  · change execCommitPendingApply a (BitVec.allOnes 64) s = _
    unfold execCommitPendingApply
    simp only [hg, hs, Bool.false_eq_true, if_false, if_true, List.foldl_cons, List.foldl_nil]
  · rw [(State.showWaiting_keeps (P := 132120575) rfl (Keeps.refl _)).mgr_eq, hpend]
    exact mget_mdel_self _ _
/-- A commit record moves the registers of its log only. -/
theorem State.logCommit_epoch (s : State) (kind rule detail : Nat) (cell : Option Cell) (addr applied refused : Nat) :
    (s.logCommit kind rule detail cell addr applied refused).rd F.PKG_COMMIT_EPOCH = s.rd F.PKG_COMMIT_EPOCH := by
  unfold State.logCommit State.logBump
  split
  · exact State.rd_wr_apart _ _ (by decide)
  · extract_lets r v n u
    have hu : u.rd F.PKG_COMMIT_EPOCH = s.rd F.PKG_COMMIT_EPOCH := State.rd_wr_apart _ _ (by decide)
    split
    · exact (State.rd_wr_apart _ _ (by decide)).trans hu
    · exact hu
/-- The end of an epoch: the results, and BUSY clears; the waiting module commits take their turn. -/
theorem exec_commitEpochEnd {e : Epoch} (he : s.mgr.epoch = some e) (hp : e.phase = .apply) (ha : e.awAck = []) (ho : s.scrim.epochOpen = false) :
    ∃ t : State, exec .commitEpochEnd s = .next t.nextCommit ∧ t.mgr.epoch = none ∧ t.sec.waiting = s.sec.waiting ∧
      t.rd F.PKG_COMMIT_RESULT = (if e.refused ≠ 0 then 2 else if e.applied ≠ 0 then 1 else 3) ∧
      t.rd F.PKG_COMMIT_EPOCH = (s.rd F.PKG_COMMIT_EPOCH + 1) % 2 ^ F.PKG_COMMIT_EPOCH.width := by
  have hgo : ¬(e.phase ≠ .apply ∨ (!e.awAck.isEmpty) = true ∨ s.scrim.epochOpen = true) := by simp [hp, ha, ho]
  have hsec : (s.logCommit 1 0 0 none 0 e.applied e.refused).sec = s.sec :=
    (State.logCommit_keeps (P := 133169151) rfl (Keeps.refl s) 1 0 0 none 0 e.applied e.refused).sec_eq
  have hepoch := s.logCommit_epoch 1 0 0 none 0 e.applied e.refused
  change ∃ t : State, execCommitEpochEnd s = _ ∧ _
  unfold execCommitEpochEnd
  rw [he]
  dsimp only
  rw [if_neg hgo]
  generalize s.logCommit 1 0 0 none 0 e.applied e.refused = u at hsec hepoch
  refine ⟨_, rfl, rfl, congrArg SecSt.waiting hsec, ?_, ?_⟩
  · refine (State.rd_mk _ _).trans ?_
    simp (disch := decide) only [State.inc, State.rd_wr_apart, State.rd_wr_same]
    split
    · rfl
    · split <;> rfl
  · refine (State.rd_mk _ _).trans ?_
    simp (disch := decide) only [State.inc, State.rd_wr_apart, State.rd_wr_same, hepoch]
end

/-- Settles O22: each clause by the lemma on its command's exec. -/
theorem managerAndCommitComplete : Obligations.ManagerAndCommitComplete := by
  refine ⟨fun x s hr hf hv => ⟨exec_zmpAcquire_busy hr hf, fun hb hn => ?new, fun a hb => exec_zmpPing_stored hr hf hv hb⟩,
    fun x s hr => ⟨exec_mctpControl_mgr hr, exec_mctpVendorZmp_ping hr, fun h => exec_leaseExpiry hr⟩, fun a v s u hu => ?write,
    fun s => ⟨exec_commitGo_refused, exec_commitGo_opens, exec_commitDiscard_empties, fun e => exec_commitCheckComplete, fun e b => exec_commitApply,
      fun a m => exec_commitPendingApply, fun e => exec_commitEpochEnd⟩⟩
  case new =>
    exact ⟨exec_zmpAcquire_free hr hf hv hb hn, fun c hh => ⟨exec_zmpRenew_held hr hf hv hb hn c hh, exec_zmpRelease_held hr hf hv hb hn c hh⟩,
      exec_zmpRead_new hr hf hv hb hn, exec_zmpWrite_one hr hf hv hb hn, exec_zmpMctp_control hr hf hv hb hn, exec_zmpPing_new hr hf hv hb hn⟩
  case write =>
    subst hu
    exact ⟨exec_registerWrite_misaligned a v s, exec_registerWrite_nowhere a v s, fun r l hreg h8 hh => exec_registerWrite_acts a v s hreg h8 hh⟩

end Sys2Proof.Machine

/-! # JTAG, debug access and SPDM -/

namespace Sys2Proof.Machine
open Host (Outcome)

/-! ### Instructions of the TAP (R443, R444, R494) -/

theorem State.scanOk_iff (s : State) : s.scanOk = true ↔ s.mode = .dormant ∨ s.mode = .sealedHalt ∨ s.mode = .returnTest := by
  simp [State.scanOk, or_assoc]
section
variable {s : State} (hr : s.pwr.rind = true)
include hr
/-- A permitted instruction is selected and run. -/
theorem State.jtagRun_permitted (c : Nat) {ok : Bool} (h : ok = true) (k : State → State) : s.jtagRun c ok k = k (s.setIr c) :=
  (State.onRind_of_rind hr _).trans (if_pos h)
/-- One that the state does not permit is selected, and acts as BYPASS. -/
theorem State.jtagRun_bypassed (c : Nat) {ok : Bool} (h : ok = false) (k : State → State) : s.jtagRun c ok k = (s.setIr c).emit (.tdo 0xFF 0) :=
  (State.onRind_of_rind hr _).trans (if_neg (by simp [h]))
theorem exec_jtagReset : ∃ t, exec .jtagReset s = .next t ∧ t.jtag.ir = 0x01 :=
  ⟨_, congrArg Outcome.next (State.onRind_of_rind hr _), rfl⟩
theorem exec_jtagIdcode : exec .jtagIdcode s = .next ((s.setIr 0x01).emit (.tdo 0x01 0x196805C7)) :=
  congrArg Outcome.next (State.jtagRun_permitted hr _ rfl _)
theorem exec_jtagBypass : exec .jtagBypass s = .next ((s.setIr 0xFF).emit (.tdo 0xFF 0)) :=
  congrArg Outcome.next (State.jtagRun_permitted hr _ rfl _)
theorem exec_jtagScan_permitted (v : BitVec 9) (h : s.mode = .dormant ∨ s.mode = .sealedHalt ∨ s.mode = .returnTest) :
    (∃ t, exec (.jtagSamplePreload v) s = .next t ∧ t.jtag.ir = 0x02 ∧ t.jtag.bsr = v) ∧
    (∃ t, exec (.jtagExtest v) s = .next t ∧ t.jtag.ir = 0x03 ∧ t.jtag.bsr = v) ∧
    (∃ t, exec .jtagClamp s = .next t ∧ t.jtag.ir = 0x04 ∧ t.jtag.bsr = s.jtag.bsr) ∧
    (∃ t, exec .jtagHighz s = .next t ∧ t.jtag.ir = 0x05 ∧ t.jtag.bsr = s.jtag.bsr) := by
  have hok := s.scanOk_iff.2 h
  exact ⟨⟨_, congrArg Outcome.next (State.jtagRun_permitted hr _ hok _), rfl, rfl⟩,
    ⟨_, congrArg Outcome.next (State.jtagRun_permitted hr _ hok _), rfl, rfl⟩,
    ⟨_, congrArg Outcome.next (State.jtagRun_permitted hr _ hok _), rfl, rfl⟩,
    ⟨_, congrArg Outcome.next (State.jtagRun_permitted hr _ hok _), rfl, rfl⟩⟩
theorem exec_jtagScan_bypassed (v : BitVec 9) (hd : s.mode ≠ .dormant) (hh : s.mode ≠ .sealedHalt) (ht : s.mode ≠ .returnTest) :
    exec (.jtagSamplePreload v) s = .next ((s.setIr 0x02).emit (.tdo 0xFF 0)) ∧ exec (.jtagExtest v) s = .next ((s.setIr 0x03).emit (.tdo 0xFF 0)) ∧
      exec .jtagClamp s = .next ((s.setIr 0x04).emit (.tdo 0xFF 0)) ∧ exec .jtagHighz s = .next ((s.setIr 0x05).emit (.tdo 0xFF 0)) := by
  have hno : s.scanOk = false := Bool.eq_false_iff.2 (mt s.scanOk_iff.1 (by simp [hd, hh, ht]))
  exact ⟨congrArg Outcome.next (State.jtagRun_bypassed hr _ hno _), congrArg Outcome.next (State.jtagRun_bypassed hr _ hno _),
    congrArg Outcome.next (State.jtagRun_bypassed hr _ hno _), congrArg Outcome.next (State.jtagRun_bypassed hr _ hno _)⟩
theorem exec_makerPrivate (n : Fin 127) : (s.makerOk = true → exec (.makerPrivate n) s = .refused .makerPrivate) ∧
    (s.makerOk = false → exec (.makerPrivate n) s = .next ((s.setIr (0x80 + n.val)).emit (.tdo 0xFF 0))) := by
  have hperm : s.privatePermitted ↔ s.makerOk = true := by rw [← s.rind_and_makerOk_iff, hr, Bool.true_and]
  refine ⟨fun h => exec_makerPrivate_permitted (hperm.2 h) n, fun h => ?_⟩
  exact (exec_makerPrivate_bypassed (mt hperm.1 (by simp [h])) n).trans (congrArg Outcome.next (State.jtagRun_bypassed hr _ rfl _))
end

/-! ### Debug access (R444, R445) -/

/-- What JTAG reaches rests on the life-cycle code. -/
theorem State.jtagReach_congr {s t : State} (h : t.rd F.PKG_LC_CODE = s.rd F.PKG_LC_CODE) (a : Nat) :
    t.jtagReads a = s.jtagReads a ∧ t.jtagWrites a = s.jtagWrites a := by
  simp only [State.jtagReads, State.jtagWrites, State.lcOpen, h, and_self]
/-- The state in which DBG_ACC reaches a register: the data of the last read is shifted out. -/
theorem State.dbgShift_code (s : State) (a : Nat) : (((s.setIr 0x20).dbgShift).rindAccess a).rd F.PKG_LC_CODE = s.rd F.PKG_LC_CODE :=
  (State.rd_congr (State.rindAccess_keeps (P := 134217725) rfl (Keeps.refl _) a).regs_eq _).trans (State.rd_wr_apart (s.setIr 0x20) _ (by decide))
section
variable {s : State} (hr : s.pwr.rind = true) {addr : BitVec 32}
include hr
theorem exec_dbgAccRead_eq : exec (.dbgAccRead addr) s = .next
    { (((s.setIr 0x20).dbgShift).readBy .jtag addr.toNat).2 with jtag.data := (((s.setIr 0x20).dbgShift).readBy .jtag addr.toNat).1 } :=
  congrArg Outcome.next (State.jtagRun_permitted hr _ rfl _)
theorem exec_dbgAccRead_reached (h8 : addr.toNat % 8 = 0) (hreg : (regAt addr.toNat).isSome = true) (hj : s.jtagReads addr.toNat = true) :
    exec (.dbgAccRead addr) s = .next { ((((s.setIr 0x20).dbgShift).rindAccess addr.toNat).readReg addr.toNat).2 with
      jtag.data := ((((s.setIr 0x20).dbgShift).rindAccess addr.toNat).readReg addr.toNat).1 } := by
  obtain ⟨x, hx⟩ := Option.isSome_iff_exists.1 hreg
  have hread : (((s.setIr 0x20).dbgShift).rindAccess addr.toNat).jtagReads addr.toNat = true :=
    (State.jtagReach_congr (s.dbgShift_code _) _).1.trans hj
  have hby : ((s.setIr 0x20).dbgShift).readBy .jtag addr.toNat = (((s.setIr 0x20).dbgShift).rindAccess addr.toNat).readReg addr.toNat := by
    unfold State.readBy
    simp only [hread, Bool.not_true, Bool.false_eq_true, and_false, if_false, State.reaches_reg h8 hx, State.mayRead, if_true]
  rw [exec_dbgAccRead_eq hr, hby]
theorem exec_dbgAccRead_refused (hj : s.jtagReads addr.toNat = false) : ∃ t, exec (.dbgAccRead addr) s = .next t ∧ t.jtag.data = 0 := by
  have hread : (((s.setIr 0x20).dbgShift).rindAccess addr.toNat).jtagReads addr.toNat = false :=
    (State.jtagReach_congr (s.dbgShift_code _) _).1.trans hj
  have hby : ((s.setIr 0x20).dbgShift).readBy .jtag addr.toNat =
      (0, (((s.setIr 0x20).dbgShift).rindAccess addr.toNat).jtagRefused addr.toNat false) := if_pos ⟨rfl, by rw [hread]; rfl⟩
  exact ⟨_, exec_dbgAccRead_eq hr, congrArg Prod.fst hby⟩
theorem exec_dbgAccWrite_eq (w : Word) : exec (.dbgAccWrite addr w) s =
    .next (((s.setIr 0x20).dbgShift).pulseDraw.2.writeReg .jtag addr.toNat w ((s.setIr 0x20).dbgShift).pulseDraw.1) :=
  congrArg Outcome.next (State.jtagRun_permitted hr _ rfl _)
theorem exec_dbgAccWrite_refused (w : Word) (hj : s.jtagWrites addr.toNat = false) : exec (.dbgAccWrite addr w) s =
    .next ((((s.setIr 0x20).dbgShift).pulseDraw.2.rindAccess addr.toNat).jtagRefused addr.toNat true) := by
  have hcode : (((s.setIr 0x20).dbgShift).pulseDraw.2.rindAccess addr.toNat).rd F.PKG_LC_CODE = s.rd F.PKG_LC_CODE :=
    (State.rd_congr (State.rindAccess_keeps (P := 134217725) rfl (Keeps.refl _) _).regs_eq _).trans (State.rd_wr_apart (s.setIr 0x20) _ (by decide))
  have hwrite := (State.jtagReach_congr hcode addr.toNat).2.trans hj
  rw [exec_dbgAccWrite_eq hr]
  exact congrArg Outcome.next (if_pos ⟨rfl, by rw [hwrite]; rfl⟩)
end
theorem State.mem_spDo_halt (s : State) (d : Die) : d ∈ (s.spDo d .halt).jtag.halted := by
  unfold State.spDo
  dsimp only
  split
  · exact List.contains_iff_mem.1 ‹_›
  · exact .head _
section
variable {s : State} (hr : s.pwr.rind = true) {sp : Fin 2} (hl : s.lcOpen = true) (hd : s.domain (428 + sp.val) = 1)
include hr hl hd
/-- A service processor that is on takes the operations of DBG_SP where the life cycle permits them. -/
theorem exec_dbgSp_on (op : SpOp) : exec (.dbgSp sp op) s = .next ((s.setIr 0x21).spDo (if sp = 0 then 0 else 7) op) :=
  congrArg Outcome.next ((State.jtagRun_permitted hr _ hl _).trans (if_pos hd))
theorem exec_dbgSp_halt : ∃ t, exec (.dbgSp sp .halt) s = .next t ∧ (if sp = 0 then 0 else 7) ∈ t.jtag.halted :=
  ⟨_, exec_dbgSp_on hr hl hd .halt, State.mem_spDo_halt _ _⟩
theorem exec_dbgSp_read (a) : ∃ t v, exec (.dbgSp sp (.read a)) s = .next t ∧ t.out = .spMem (if sp = 0 then 0 else 7) v :: s.out :=
  ⟨_, _, exec_dbgSp_on hr hl hd (.read a), rfl⟩
end

/-! ### SPDM at a HOST anchor (R450, R451) -/

/-- A request that needs a signature waits in the queue while that has room. -/
theorem State.spdmSign_queues {s : State} (a : Cell) (hs : s.canSign = true) (hq : s.spdm.queue.length < 16) (g : SignFor) :
    (s.spdmSign a g).spdm.queue = s.spdm.queue ++ [(a, g)] := by
  rw [State.spdmSign, if_neg (by simp [hs]), if_neg (by omega)]
section
variable {s : State} {a : Cell} (hh : s.roleOf a = .host) (ha : s.isAnchor a = true) (hp : portsOn s.mode = true)
include hh ha hp
theorem State.spdmAt_anchor (k : State → State) : s.spdmAt a k = k s := if_pos ⟨hh, ha, hp⟩
theorem exec_spdm_certificate : exec (.spdmGetCertificate a 0) s = .next (s.emit (.spdm a .certificate [3])) ∧
    ∀ k : Fin 8, k ≠ 0 → exec (.spdmGetCertificate a k) s = .next (s.emit (.spdm a .invalidRequest [])) :=
  ⟨congrArg Outcome.next ((State.spdmAt_anchor hh ha hp _).trans (if_pos rfl)),
    fun _ hk => congrArg Outcome.next ((State.spdmAt_anchor hh ha hp _).trans (if_neg hk))⟩
theorem exec_spdmGetMeasurements (n : Fin 256) (hn : n.val ≤ 6 ∨ n.val = 0xFF) (sign : Bool) : exec (.spdmGetMeasurements a n sign) s =
    .next (if sign then s.spdmSign a (.measurements n.val) else s.emit (.spdm a .measurements (s.measure n.val))) :=
  congrArg Outcome.next ((State.spdmAt_anchor hh ha hp _).trans (if_neg (by omega)))
theorem exec_spdm_signed (hs : s.canSign = true) (hq : s.spdm.queue.length < 16) :
    (∃ t, exec (.spdmChallenge a) s = .next t ∧ t.spdm.queue = s.spdm.queue ++ [(a, .challenge)]) ∧
    (∃ t, exec (.spdmKeyExchange a) s = .next t ∧ t.spdm.queue = s.spdm.queue ++ [(a, .keyExchange)]) ∧
    (∀ n : Fin 256, n.val ≤ 6 ∨ n.val = 0xFF →
      ∃ t, exec (.spdmGetMeasurements a n true) s = .next t ∧ t.spdm.queue = s.spdm.queue ++ [(a, .measurements n.val)]) :=
  ⟨⟨_, congrArg Outcome.next (State.spdmAt_anchor hh ha hp _), State.spdmSign_queues a hs hq _⟩,
    ⟨_, congrArg Outcome.next (State.spdmAt_anchor hh ha hp _), State.spdmSign_queues a hs hq _⟩,
    fun n hn => ⟨_, exec_spdmGetMeasurements hh ha hp n hn true, State.spdmSign_queues a hs hq _⟩⟩
theorem exec_spdmChallenge_full (hs : s.canSign = true) (hq : 16 ≤ s.spdm.queue.length) :
    exec (.spdmChallenge a) s = .next (s.emit (.spdm a .notReady [])) := by
  refine congrArg Outcome.next ((State.spdmAt_anchor hh ha hp _).trans ?_)
  rw [State.spdmSign, if_neg (by simp [hs]), if_pos hq]
end
section
variable {s : State} {a : Cell} {l : List (Cell × SignFor)}
theorem exec_spdmSignComplete_challenge (h : s.spdm.queue = (a, .challenge) :: l) :
    ∃ t, exec .spdmSignComplete s = .next t ∧ t.spdm.queue = l ∧ t.out = .spdm a .challengeAuth [] :: s.out := by
  change ∃ t, execSpdmSignComplete s = _ ∧ _
  unfold execSpdmSignComplete
  rw [h]
  exact ⟨_, rfl, rfl, rfl⟩
theorem exec_spdmSignComplete_keyExchange (h : s.spdm.queue = (a, .keyExchange) :: l) : ∃ t, exec .spdmSignComplete s = .next t ∧
    t.spdm.queue = l ∧ a ∈ t.spdm.sessions ∧ t.out = .spdm a .keyExchange [] :: s.out := by
  change ∃ t, execSpdmSignComplete s = _ ∧ _
  unfold execSpdmSignComplete
  rw [h]
  refine ⟨_, rfl, rfl, ?_, rfl⟩
  dsimp only [State.emit]
  split
  · exact List.contains_iff_mem.1 ‹_›
  · exact .head _
end

/-- Settles O21: each clause by the lemma on its instruction's or request's exec. -/
theorem debugAndSpdmComplete : Obligations.DebugAndSpdmComplete := by
  refine ⟨fun s hr => ⟨exec_jtagReset hr, exec_jtagIdcode hr, exec_jtagBypass hr, fun v => ⟨exec_jtagScan_permitted hr v, exec_jtagScan_bypassed hr v⟩,
      fun addr h8 hreg => ⟨exec_dbgAccRead_reached hr h8 hreg, exec_dbgAccRead_refused hr, fun w _ => exec_dbgAccWrite_eq hr w,
        exec_dbgAccWrite_refused hr⟩,
      fun sp hl hd => ⟨exec_dbgSp_halt hr hl hd, exec_dbgSp_read hr hl hd⟩, exec_makerPrivate hr⟩, fun a s hh ha hp => ?spdm,
    fun a l s => ⟨exec_spdmSignComplete_challenge, exec_spdmSignComplete_keyExchange⟩⟩
  case spdm =>
    have hat (k) : s.spdmAt a k = k s := State.spdmAt_anchor hh ha hp k
    obtain ⟨hcert, hempty⟩ := exec_spdm_certificate hh ha hp
    exact ⟨congrArg Outcome.next (hat _), congrArg Outcome.next (hat _), congrArg Outcome.next (hat _), hcert, hempty,
      fun n hn => exec_spdmGetMeasurements hh ha hp n hn false, exec_spdm_signed hh ha hp, exec_spdmChallenge_full hh ha hp⟩

end Sys2Proof.Machine

/-! # The NOR window, image verification and the life cycle -/

namespace Sys2Proof.Machine
open Host (Outcome)

/-! ### The NOR window (R434) -/

/-- The row of PKG_NOR_CTRL (Table 15-23). -/
def norCtrlRow : RegDef := ⟨0x600, [], [⟨32, 32, .live, false, fun _ => 0⟩, ⟨28, 1, .live, false, fun _ => 0⟩, ⟨24, 2, .live, false, fun _ => 0⟩,
  ⟨4, 4, .status, false, fun _ => 0⟩, ⟨1, 1, .status, false, fun _ => 0⟩, ⟨0, 1, .pulse, false, fun _ => 0⟩]⟩
/-- The word that an operation of the window is started with. -/
def norCtrlWord (op dev off : Nat) : Word :=
  wordOf [(F.PKG_NOR_CTRL_OP, op), (F.PKG_NOR_CTRL_DEV, dev), (F.PKG_NOR_CTRL_OFFSET, off), (F.PKG_NOR_CTRL_GO, 1)]
theorem norCtrlWord_bits {op dev off : Nat} (ho : op < 4) (hd : dev < 2) (hf : off < 2 ^ 32) : getBits (norCtrlWord op dev off) 24 2 = op ∧
    getBits (norCtrlWord op dev off) 28 1 = dev ∧ getBits (norCtrlWord op dev off) 32 32 = off ∧ getBits (norCtrlWord op dev off) 0 1 = 1 := by
  unfold norCtrlWord wordOf
  refine ⟨?_, ?_, ?_, ?_⟩
  · exact (getBits_showFields_of_split (f := F.PKG_NOR_CTRL_OP) (by decide) [] [_, _, _] (by simp; decide) 0).trans (Nat.mod_eq_of_lt ho)
  · exact (getBits_showFields_of_split (f := F.PKG_NOR_CTRL_DEV) (by decide) [_] [_, _] (by simp; decide) 0).trans (Nat.mod_eq_of_lt hd)
  · exact (getBits_showFields_of_split (f := F.PKG_NOR_CTRL_OFFSET) (by decide) [_, _] [_] (by simp; decide) 0).trans (Nat.mod_eq_of_lt hf)
  · exact getBits_showFields_of_split (f := F.PKG_NOR_CTRL_GO) (by decide) [_, _, _] [] (by simp) 0
/-- What a write of PKG_NOR_CTRL leaves for its GO: the operation as written, and nothing else changed. -/
theorem State.norWrite_stores {s : State} (hp : s.mgr.pend = []) {op : Nat} (ho : op < 4) (dev : Fin 2) (off : BitVec 32) :
    ∃ u : State, s.norWrite .sp op dev off = u.norGo ∧ s.onlyRegs [F.PKG_NOR_CTRL_at] u ∧ u.rd F.PKG_NOR_CTRL_OP = op ∧
      u.rd F.PKG_NOR_CTRL_DEV = dev.val ∧ u.rd F.PKG_NOR_CTRL_OFFSET = off.toNat ∧ u.rd F.PKG_NOR_CTRL_BUSY = s.rd F.PKG_NOR_CTRL_BUSY := by
  obtain ⟨hop, hdev, hoff, hgo⟩ := norCtrlWord_bits ho dev.isLt off.isLt
  have hplain : PlainWrite F.PKG_NOR_CTRL_at (norCtrlWord op dev off.toNat) norCtrlRow.fields :=
    ⟨rfl, fun u => u.storeLive_pkg (by decide) (by decide), by simp [norCtrlRow]⟩
  obtain ⟨u, hw, honly, hlive, hrest⟩ := State.pkgWrite_sp (burns .ok .ok) (show regAt F.PKG_NOR_CTRL_at = some (norCtrlRow, []) from rfl) hp
    (by decide) (fun _ => rfl) (by decide) (by simp [norCtrlRow, rangesApart]) hplain
  refine ⟨u, hw.trans ?_, honly, (hlive ⟨24, 2, .live, false, fun _ => 0⟩ (by simp [norCtrlRow]) rfl).trans hop,
    (hlive ⟨28, 1, .live, false, fun _ => 0⟩ (by simp [norCtrlRow]) rfl).trans hdev,
    (hlive ⟨32, 32, .live, false, fun _ => 0⟩ (by simp [norCtrlRow]) rfl).trans hoff, hrest _ (by decide) (by simp [norCtrlRow]; decide)⟩
  exact State.writePulses_one (l := [_, _, _, _, _]) (r := []) (f := ⟨0, 1, .pulse, false, fun _ => 0⟩) (by simp) (by simp) rfl
    (fun h => Nat.one_ne_zero (hgo.symm.trans h)) u
section
variable {s : State} (hp : s.mgr.pend = []) (hb : s.rd F.PKG_NOR_CTRL_BUSY = 0) {op : Nat} (ho : op < 4) (h0 : op ≠ 0) (dev : Fin 2)
  (off : BitVec 32)
include hp hb ho h0
theorem State.norWrite_refused (hn : norMode s.mode = false ∨ norWhere op off.toNat = false) :
    (s.norWrite .sp op dev off).rd F.PKG_NOR_CTRL_RESULT = 2 ∧ (s.norWrite .sp op dev off).img.norOp = s.img.norOp := by
  obtain ⟨u, he, ⟨hparts, -⟩, hop, hdev, hoff, hbusy⟩ := State.norWrite_stores hp ho dev off
  have hmode : u.mode = s.mode := by rw [hparts]
  have himg : u.img = s.img := by rw [hparts]
  have hbad : (!norMode u.mode || !norWhere op off.toNat) = true := by
    rw [hmode]
    rcases hn with hn | hn <;> simp [hn]
  have hgo : u.norGo = u.wr F.PKG_NOR_CTRL_RESULT 2 := by
    unfold State.norGo State.rdb
    rw [hop, hoff, hdev, hbusy, hb, if_neg (by simp [h0]), if_pos hbad]
  rw [he, hgo]
  exact ⟨State.rd_wr_same _ _ (by decide), congrArg ImgSt.norOp himg⟩
theorem State.norWrite_absent (hm : norMode s.mode = true) (hw : norWhere op off.toNat = true) (ha : s.norPresent dev = false) :
    (s.norWrite .sp op dev off).rd F.PKG_NOR_CTRL_RESULT = 3 ∧ (s.norWrite .sp op dev off).img.norOp = s.img.norOp := by
  obtain ⟨u, he, ⟨hparts, -⟩, hop, hdev, hoff, hbusy⟩ := State.norWrite_stores hp ho dev off
  have hmode : u.mode = s.mode := by rw [hparts]
  have himg : u.img = s.img := by rw [hparts]
  have hpresent : u.norPresent dev = s.norPresent dev := by unfold State.norPresent; rw [himg]
  have hgo : u.norGo = u.wr F.PKG_NOR_CTRL_RESULT 3 := by
    unfold State.norGo State.rdb
    rw [hop, hoff, hdev, hbusy, hb, if_neg (by simp [h0]), if_neg (by simp [hmode, hm, hw]), if_pos (by simp [hpresent, ha])]
  rw [he, hgo]
  exact ⟨State.rd_wr_same _ _ (by decide), congrArg ImgSt.norOp himg⟩
theorem State.norWrite_opens (hm : norMode s.mode = true) (hw : norWhere op off.toNat = true) (ha : s.norPresent dev = true) :
    (s.norWrite .sp op dev off).img.norOp = some ⟨dev.val, op, off.toNat⟩ ∧ (s.norWrite .sp op dev off).rd F.PKG_NOR_CTRL_BUSY = 1 := by
  obtain ⟨u, he, ⟨hparts, -⟩, hop, hdev, hoff, hbusy⟩ := State.norWrite_stores hp ho dev off
  have hmode : u.mode = s.mode := by rw [hparts]
  have hpresent : u.norPresent dev = s.norPresent dev := by unfold State.norPresent; rw [hparts]
  have hgo : u.norGo = ({ u with img.norOp := some ⟨dev.val, op, off.toNat⟩ }.wr F.PKG_NOR_CTRL_BUSY 1).wr F.PKG_NOR_CTRL_RESULT 0 := by
    unfold State.norGo State.rdb
    rw [hop, hoff, hdev, hbusy, hb, if_neg (by simp [h0]), if_neg (by simp [hmode, hm, hw]), if_neg (by simp [hpresent, ha])]
  rw [he, hgo]
  exact ⟨rfl, (State.rd_wr_apart _ _ (by decide)).trans (State.rd_wr_same _ _ (by decide))⟩
end
/-- The entries that a device takes are not part of the window's operation. -/
theorem State.norFlush_norOp (s : State) (dev area n : Nat) : (s.norFlush dev area n).1.img.norOp = s.img.norOp := by
  unfold State.norFlush
  refine List.foldlRecOn (motive := fun t : State => t.img.norOp = s.img.norOp) _ _ rfl fun t ht x _ => ?_
  refine Eq.trans ?_ ht
  unfold State.areaWrite
  dsimp only
  split <;> rfl
theorem State.catchUp_norOp (s : State) (dev : Nat) : (s.catchUp dev).img.norOp = s.img.norOp := by
  unfold State.catchUp
  split
  · rfl
  · exact (State.norFlush_norOp _ _ _ _).trans (State.norFlush_norOp _ _ _ _)
theorem exec_norOpComplete {s : State} {o : NorOp} (h : s.img.norOp = some o) (ok : Bool) : ∃ t, exec (.norOpComplete ok) s = .next t ∧
    t.img.norOp = none ∧ t.rd F.PKG_NOR_CTRL_BUSY = 0 ∧ t.rd F.PKG_NOR_CTRL_RESULT = (if ok then 1 else 3) := by
  change ∃ t, execNorOpComplete ok s = _ ∧ _
  unfold execNorOpComplete
  rw [h]
  refine ⟨_, rfl, State.catchUp_norOp _ _, ?_, ?_⟩
  · rw [State.rd_congr (State.catchUp_keeps (P := 134217725) rfl (Keeps.refl _) _).regs_eq, State.rd_wr_apart _ _ (by decide)]
    exact State.rd_wr_same _ _ (by decide)
  · rw [State.rd_congr (State.catchUp_keeps (P := 134217725) rfl (Keeps.refl _) _).regs_eq, State.rd_wr_same _ _ (by decide)]
    cases ok <;> rfl
theorem exec_norLogWrite {dev : Fin 2} {s : State} (hm : norLogs s.mode = true) (hp : s.norPresent dev = true) (hh : s.norHeld dev = false) :
    exec (.norLogWrite dev) s = .next
      ((s.norFlush dev 0 (s.norPending dev 0).length).1.norFlush dev 1 ((s.norFlush dev 0 (s.norPending dev 0).length).1.norPending dev 1).length).1 :=
  congrArg Outcome.next (if_neg (by simp [hm, hp, hh]))

/-! ### Verification of a slot (R435) -/

/-- The row of PKG_IMAGE_VERIFY (Table 15-22). -/
def imageVerifyRow : RegDef := ⟨0x3E0, [], [⟨8, 8, .status, false, fun _ => 0⟩, ⟨3, 1, .live, false, fun _ => 0⟩, ⟨1, 1, .status, false, fun _ => 0⟩,
  ⟨0, 1, .pulse, false, fun _ => 0⟩]⟩
/-- The word that a verification is started with. -/
def imageVerifyWord (k : Fin 2) : Word := wordOf [(F.PKG_IMAGE_VERIFY_SLOT, k.val), (F.PKG_IMAGE_VERIFY_GO, 1)]
theorem imageVerifyWord_bits (k : Fin 2) : getBits (imageVerifyWord k) 3 1 = k.val ∧ getBits (imageVerifyWord k) 0 1 = 1 := by
  revert k; decide
theorem exec_imageVerify_sp {s : State} (hp : s.mgr.pend = []) (hb : s.rd F.PKG_IMAGE_VERIFY_BUSY = 0) (k : Fin 2) :
    ∃ t, exec (.imageVerify .sp k) s = .next t ∧ t.img.verifying = some k.val ∧ t.rd F.PKG_IMAGE_VERIFY_BUSY = 1 := by
  obtain ⟨hslot, hgo⟩ := imageVerifyWord_bits k
  have hplain : PlainWrite F.PKG_IMAGE_VERIFY_at (imageVerifyWord k) imageVerifyRow.fields :=
    ⟨rfl, fun u => u.storeLive_pkg (by decide) (by decide), by simp [imageVerifyRow]⟩
  obtain ⟨u, hw, -, hlive, hrest⟩ := State.pkgWrite_sp (burns .ok .ok) (show regAt F.PKG_IMAGE_VERIFY_at = some (imageVerifyRow, []) from rfl) hp
    (by decide) (fun _ => rfl) (by decide) (by simp [imageVerifyRow, rangesApart]) hplain
  have hbusy : u.rd F.PKG_IMAGE_VERIFY_BUSY = 0 := (hrest _ (by decide) (by simp [imageVerifyRow]; decide)).trans hb
  have hpulse : s.writePulses F.PKG_IMAGE_VERIFY_at (imageVerifyWord k) (burns .ok .ok) imageVerifyRow.fields u = u.verifyGo :=
    State.writePulses_one (l := [_, _, _]) (r := []) (f := ⟨0, 1, .pulse, false, fun _ => 0⟩) (by simp) (by simp) rfl
      (fun h => Nat.one_ne_zero (hgo.symm.trans h)) u
  have hverify : u.verifyGo = ({ u with img.verifying := some (u.rd F.PKG_IMAGE_VERIFY_SLOT) }.wr F.PKG_IMAGE_VERIFY_BUSY 1).wr
      F.PKG_IMAGE_VERIFY_VERIFY_RESULT 0 := if_neg (by simp [State.rdb, hbusy])
  refine ⟨_, congrArg Outcome.next (hw.trans (hpulse.trans hverify)), congrArg some ?_, ?_⟩
  · exact (hlive ⟨3, 1, .live, false, fun _ => 0⟩ (by simp [imageVerifyRow]) rfl).trans hslot
  · exact (State.rd_wr_apart _ _ (by decide)).trans (State.rd_wr_same _ _ (by decide))

/-! ### Entries of the audit log (R447) -/

/-- An audit entry moves the pointers of its log only. -/
theorem State.rd_logAudit (s : State) (kind source detail addr tag : Nat) {g : Fld} (h : g.addr ≠ F.PKG_LOG_PTR_at 4) :
    (s.logAudit kind source detail addr tag).rd g = s.rd g := by
  unfold State.logAudit State.logBump
  extract_lets r l n u
  have hu : u.rd g = s.rd g := (State.rd_wr_ne _ n (Ne.symm h)).trans (State.rd_mk s g)
  split
  · exact (State.rd_wr_ne u _ (Ne.symm h)).trans hu
  · exact hu
theorem State.rd_svnJudge (s : State) {g : Fld} (h : g.addr ≠ F.PKG_LOG_PTR_at 4) (hi : g.addr ≠ F.PKG_IMAGE_at) : s.svnJudge.rd g = s.rd g := by
  unfold State.svnJudge
  split
  · rfl
  · split
    · dsimp only
      split
      · rw [State.rd_logAudit _ _ _ _ _ _ h]
        exact State.rd_wr_ne s _ (Ne.symm hi)
      · rfl
    · rfl
/-- The end of a verification but for the image's own findings: BUSY clears and VERIFY_RESULT takes the code. -/
def State.verifyDone (s : State) (code : Nat) : State :=
  ({ s with img.verifying := none }.wr F.PKG_IMAGE_VERIFY_BUSY 0).wr F.PKG_IMAGE_VERIFY_VERIFY_RESULT code
/-- What a verification finds: the owner's key, and the place of a failure. -/
def State.verifyFinds (s : State) (y : ImgResult) : State :=
  let s := if y.keyOk && y.image.kind == 1 then { s with img.lastKey := some y.image.keyHash } else s
  match y.fail with
  | some (a, b) => (s.wr F.PKG_IMAGE_FAIL_SECT a).wr F.PKG_IMAGE_FAIL_REC b
  | none => s
theorem State.verifyFinds_keeps (s : State) (y : ImgResult) : (s.verifyFinds y).img.verifying = s.img.verifying ∧
    ∀ g : Fld, g.addr ≠ F.PKG_IMAGE_at → (s.verifyFinds y).rd g = s.rd g := by
  unfold State.verifyFinds
  extract_lets i u
  have hu : u.img.verifying = s.img.verifying ∧ ∀ g : Fld, u.rd g = s.rd g := by
    unfold u
    split <;> exact ⟨rfl, fun _ => rfl⟩
  obtain ⟨hver, hrd⟩ := hu
  split
  · exact ⟨hver, fun g hg => (State.rd_wr_ne _ _ (Ne.symm hg)).trans ((State.rd_wr_ne _ _ (Ne.symm hg)).trans (hrd g))⟩
  · exact ⟨hver, fun g _ => hrd g⟩
theorem exec_imageVerifyComplete_eq {s : State} {n : Nat} (h : s.img.verifying = some n) (sfdp : Bool) :
    ∃ b : Bool, exec (.imageVerifyComplete sfdp) s = .next
      (if b then (((s.verifyDone (s.check11 n sfdp).code).verifyFinds (s.check11 n sfdp)).svnJudge)
        else (s.verifyDone (s.check11 n sfdp).code).verifyFinds (s.check11 n sfdp)) := by
  change ∃ b : Bool, execImageVerifyComplete sfdp s = _
  unfold execImageVerifyComplete
  rw [h]
  exact ⟨_, rfl⟩
theorem exec_imageVerifyComplete {s : State} {n : Nat} (h : s.img.verifying = some n) (sfdp : Bool) :
    ∃ t, exec (.imageVerifyComplete sfdp) s = .next t ∧ t.img.verifying = none ∧ t.rd F.PKG_IMAGE_VERIFY_BUSY = 0 ∧
      t.rd F.PKG_IMAGE_VERIFY_VERIFY_RESULT = (s.check11 n sfdp).code % 256 := by
  obtain ⟨b, he⟩ := exec_imageVerifyComplete_eq h sfdp
  generalize s.check11 n sfdp = y at he
  obtain ⟨hver, hrd⟩ := (s.verifyDone y.code).verifyFinds_keeps y
  have hbusy : (s.verifyDone y.code).rd F.PKG_IMAGE_VERIFY_BUSY = 0 := (State.rd_wr_apart _ _ (by decide)).trans (State.rd_wr_same _ _ (by decide))
  have hres : (s.verifyDone y.code).rd F.PKG_IMAGE_VERIFY_VERIFY_RESULT = y.code % 256 := State.rd_wr_same _ _ (by decide)
  refine ⟨_, he, ?_⟩
  cases b
  case false => exact ⟨hver, (hrd _ (by decide)).trans hbusy, (hrd _ (by decide)).trans hres⟩
  case true =>
    refine ⟨?_, (State.rd_svnJudge _ (by decide) (by decide)).trans ((hrd _ (by decide)).trans hbusy),
      (State.rd_svnJudge _ (by decide) (by decide)).trans ((hrd _ (by decide)).trans hres)⟩
    exact (congrArg ImgSt.verifying (State.svnJudge_keeps (P := 133955583) rfl (Keeps.refl _)).img_eq).trans hver

/-! ### The registers that a life-cycle request moves (R436 to R439, R447) -/

/-- The code of a state is burned with its audit entry. -/
theorem State.setLc_code (s : State) (code source detail tag : Nat) : (s.setLc code source detail tag).rd F.PKG_LC_CODE = code % 256 :=
  (State.rd_logAudit _ _ _ _ _ _ (by decide)).trans (State.rd_wr_same _ _ (by decide))
theorem State.setLc_img (s : State) (code source detail tag : Nat) : (s.setLc code source detail tag).img = s.img :=
  (State.setLc_keeps (P := 133955583) rfl (Keeps.refl s) _ _ _ _).img_eq
theorem State.rd_burned (s : State) (src : Nat) (b : Burn) {g : Fld} (h : g.addr ≠ F.PKG_LOG_PTR_at 4) : (s.burned src b).rd g = s.rd g := by
  unfold State.burned
  split
  · exact State.rd_logAudit _ _ _ _ _ _ h
  · rfl
theorem State.burned_img (s : State) (src : Nat) (b : Burn) : (s.burned src b).img = s.img :=
  (State.burned_keeps (P := 133955583) rfl (Keeps.refl s) _ _).img_eq
/-- A draw of words moves the registers that it fills. -/
theorem State.rd_drawWords (s : State) (f : Nat → Fld) (n : Nat) {g : Fld} (h : ∀ i < n, (f i).addr ≠ g.addr) : (s.drawWords f n).rd g = s.rd g := by
  refine State.rd_of_reg (foldl_reg_of_mem (fun i hi t => ?_) s)
  exact State.reg_wr_ne _ _ (h i (List.mem_range.1 hi))
theorem State.rd_drawNonce (s : State) {g : Fld} (h : ∀ i < 4, F.PKG_LC_NONCE_at i ≠ g.addr) : s.drawNonce.rd g = s.rd g := s.rd_drawWords _ 4 h
/-- A request's end shows its RESULT. -/
theorem State.lcEnd_result (s : State) (src tag : Nat) {result : Nat} (h : result < 256) :
    (s.lcEnd src result tag).rd F.PKG_LC_REQ_RESULT = result := by
  have hwr : (s.wr F.PKG_LC_REQ_RESULT result).rd F.PKG_LC_REQ_RESULT = result := (State.rd_wr_same _ _ (by decide)).trans (Nat.mod_eq_of_lt h)
  refine (State.rd_drawNonce _ (by decide)).trans ?_
  split
  · exact (State.rd_logAudit _ _ _ _ _ _ (by decide)).trans ((State.rd_flag _ _ _).trans ((State.rd_wr_apart _ _ (by decide)).trans hwr))
  · exact hwr
/-- It leaves the registers but its own, the nonce and the audit log's pointers. -/
theorem State.rd_lcEnd (s : State) (src result tag : Nat) {g : Fld} (h : F.PKG_LC_REQ_at ≠ g.addr) (hn : ∀ i < 4, F.PKG_LC_NONCE_at i ≠ g.addr)
    (hl : g.addr ≠ F.PKG_LOG_PTR_at 4) : (s.lcEnd src result tag).rd g = s.rd g := by
  have hwr : (s.wr F.PKG_LC_REQ_RESULT result).rd g = s.rd g := State.rd_wr_ne _ _ h
  refine (State.rd_drawNonce _ hn).trans ?_
  split
  · exact (State.rd_logAudit _ _ _ _ _ _ hl).trans ((State.rd_flag _ _ _).trans ((State.rd_wr_ne _ _ h).trans hwr))
  · exact hwr
theorem State.lcEnd_code (s : State) (src result tag : Nat) : (s.lcEnd src result tag).rd F.PKG_LC_CODE = s.rd F.PKG_LC_CODE :=
  s.rd_lcEnd src result tag (by decide) (by decide) (by decide)
theorem State.lcEnd_img (s : State) (src result tag : Nat) : (s.lcEnd src result tag).img = s.img :=
  (State.lcEnd_keeps (P := 133955583) rfl (Keeps.refl s) _ _ _).img_eq

/-! ### The checks of a request (R438) -/

section
variable {s u : State} (h : s.onlyRegs [F.PKG_LC_REQ_at] u)
include h
/-- What the checks read stands outside PKG_LC_REQ, so its write changes none of them. -/
theorem State.rd_lcReqWritten {g : Fld} (hg : g.addr ≠ F.PKG_LC_REQ_at) : u.rd g = s.rd g := State.rd_of_reg (h.2 _ (mt List.mem_singleton.1 hg))
theorem State.tokenBytes_lcReqWritten (t off n : Nat) : u.tokenBytes t off n = s.tokenBytes t off n := by
  refine List.map_congr_left fun i _ => ?_
  rw [State.rd_lcReqWritten h]
  simp only [F.PKG_LC_TOKEN_DATA, F.PKG_LC_TOKEN_at, F.PKG_LC_REQ_at]; omega
theorem State.tokenLe_lcReqWritten (t off n : Nat) : u.tokenLe t off n = s.tokenLe t off n :=
  congrArg ofLe (State.tokenBytes_lcReqWritten h t off n)
theorem State.tokenKey_lcReqWritten (t : Nat) : u.tokenKey t = s.tokenKey t := congrArg hashLe (State.tokenBytes_lcReqWritten h t 59 97)
theorem State.serial_lcReqWritten : u.serial = s.serial := by
  unfold State.serial
  rw [State.rd_lcReqWritten h (by decide), State.rd_lcReqWritten h (by decide)]
theorem State.nonce_lcReqWritten : u.nonce = s.nonce := by
  unfold State.nonce
  refine List.foldl_ext _ _ 0 fun n i hi => ?_
  have hi := List.mem_range.1 hi
  rw [State.rd_lcReqWritten h]
  simp only [F.PKG_LC_NONCE_NONCE, F.PKG_LC_NONCE_at, F.PKG_LC_REQ_at]; omega
theorem State.tokenFault_lcReqWritten (t typ : Nat) (target : Option Nat) (owner : Bool) :
    u.tokenFault t typ target owner = s.tokenFault t typ target owner := by
  have hkey (k : Nat) : u.keyGood k = s.keyGood k := by
    unfold State.keyGood State.rdBit
    rw [State.rd_lcReqWritten h (by decide)]
  unfold State.tokenFault
  simp only [State.tokenBytes_lcReqWritten h, State.tokenLe_lcReqWritten h, State.serial_lcReqWritten h, State.nonce_lcReqWritten h, hkey]
theorem State.lcFault_lcReqWritten (op : Nat) : u.lcFault op = s.lcFault op := by
  have hcode : u.rd F.PKG_LC_CODE = s.rd F.PKG_LC_CODE := State.rd_lcReqWritten h (by decide)
  have hseal : u.rd F.PKG_LC_SEAL = s.rd F.PKG_LC_SEAL := State.rd_lcReqWritten h (by decide)
  have hmode : u.mode = s.mode := by rw [h.1]
  have himg : u.img = s.img := by rw [h.1]
  have howner : u.ownerKeyOk = s.ownerKeyOk := by
    unfold State.ownerKeyOk
    rw [hcode, himg, State.tokenKey_lcReqWritten h]
  have hallowed : u.lcAllowed op = s.lcAllowed op := by
    unfold State.lcAllowed
    rw [hcode, hseal, hmode]
  unfold State.lcFault
  simp only [hallowed, howner, State.tokenFault_lcReqWritten h]
end

/-! ### GO of a request (R437 to R441) -/

/-- The row of PKG_LC_REQ (Table 15-20). -/
def lcReqRow : RegDef := ⟨0x308, [], [⟨24, 8, .status, false, fun _ => 0⟩, ⟨4, 3, .live, false, fun _ => 0⟩, ⟨2, 1, .clear, false, fun _ => 0⟩,
  ⟨1, 1, .status, false, fun _ => 0⟩, ⟨0, 1, .pulse, false, fun _ => 0⟩]⟩
/-- The word that a request is made with. -/
def lcReqWord (op : Fin 8) : Word := wordOf [(F.PKG_LC_REQ_OP, op.val), (F.PKG_LC_REQ_GO, 1)]
theorem lcReqWord_bits (op : Fin 8) : getBits (lcReqWord op) 4 3 = op.val ∧ getBits (lcReqWord op) 2 1 = 0 ∧ getBits (lcReqWord op) 0 1 = 1 := by
  revert op; decide
/-- What a service processor's request leaves for its GO: the operation as written, and nothing else changed. -/
theorem State.lcWrite_stores {s : State} (hp : s.mgr.pend = []) (op : Fin 8) (hash b : Burn) :
    ∃ u : State, s.lcWrite .sp op hash b = u.lcGo 3 hash b ∧ s.onlyRegs [F.PKG_LC_REQ_at] u ∧ u.rd F.PKG_LC_REQ_OP = op.val ∧
      u.rd F.PKG_LC_REQ_BUSY = s.rd F.PKG_LC_REQ_BUSY := by
  obtain ⟨hop, hclear, hgo⟩ := lcReqWord_bits op
  have hplain : PlainWrite F.PKG_LC_REQ_at (lcReqWord op) lcReqRow.fields :=
    ⟨rfl, fun u => u.storeLive_pkg (by decide) (by decide), by simp [lcReqRow, hclear]⟩
  obtain ⟨u, hw, honly, hlive, hrest⟩ := State.pkgWrite_sp (burns hash b) (show regAt F.PKG_LC_REQ_at = some (lcReqRow, []) from rfl) hp
    (by decide) (fun _ => rfl) (by decide) (by simp [lcReqRow, rangesApart]) hplain
  refine ⟨u, hw.trans ?_, honly, (hlive ⟨4, 3, .live, false, fun _ => 0⟩ (by simp [lcReqRow]) rfl).trans hop,
    hrest _ (by decide) (by simp [lcReqRow]; decide)⟩
  exact State.writePulses_one (l := [_, _, _, _]) (r := []) (f := ⟨0, 1, .pulse, false, fun _ => 0⟩) (by simp) (by simp) rfl
    (fun h => Nat.one_ne_zero (hgo.symm.trans h)) u
section
variable {u : State} {hash b : Burn} (src : Nat) (hb : u.rd F.PKG_LC_REQ_BUSY = 0)
include hb
theorem State.lcGo_refused {r op : Nat} (ho : u.rd F.PKG_LC_REQ_OP = op) (hf : u.lcFault op = some r) :
    u.lcGo src hash b = u.lcEnd src r (if op = 2 ∨ op = 3 then tagOf (u.tokenKey 0) else 0) := by
  unfold State.lcGo State.rdb
  simp only [hb, ho, hf]
  rfl
theorem State.lcGo_opens (hburn : b ≠ .failed) (ho : u.rd F.PKG_LC_REQ_OP = 1) (hf : u.lcFault 1 = none) : ∃ n, u.lcGo src hash b =
    (({ (u.burned src b).fresh.2 with img.seed := some n }.wr F.PKG_LC_SEED_GONE 0).setLc 0x07 src 0x07 0).lcEnd src 1 0 := by
  unfold State.lcGo State.rdb
  simp only [hb, ho, hf, if_neg hburn]
  exact ⟨_, rfl⟩
theorem State.lcGo_seals (hhash : hash ≠ .failed) (hburn : b ≠ .failed) (ho : u.rd F.PKG_LC_REQ_OP = 2) (hf : u.lcFault 2 = none) :
    ∃ v : State, v.img.fuseHash = u.tokenKey 0 ∧ u.lcGo src hash b =
      ((v.showOwnerFuse.wr F.PKG_LC_SEAL 1).setLc 0x0F src 0x0F (tagOf (u.tokenKey 0))).lcEnd src 1 (tagOf (u.tokenKey 0)) := by
  unfold State.lcGo State.rdb
  simp only [hb, ho, hf, if_neg hhash, if_neg hburn]
  refine ⟨_, ?_, rfl⟩
  rw [State.burned_img, State.burned_img]
theorem State.lcGo_returns (ho : u.rd F.PKG_LC_REQ_OP = 3) (hf : u.lcFault 3 = none) (hm : u.mode ≠ .sealedHalt) : u.lcGo src hash b =
    (({ u with img.retKey := tagOf (u.tokenKey 0), img.returning := some b }.wr F.PKG_LC_REQ_BUSY 1).drawNonce).goMode .safeStop 0x0E := by
  unfold State.lcGo State.rdb
  simp only [hb, ho, hf, if_neg hm]
  rfl
theorem State.lcGo_returns_halted (ho : u.rd F.PKG_LC_REQ_OP = 3) (hf : u.lcFault 3 = none) (hm : u.mode = .sealedHalt) : u.lcGo src hash b =
    (State.returnSteps { u with img.retKey := tagOf (u.tokenKey 0) } b).lcEnd src (if b = .failed then 6 else 1) (tagOf (u.tokenKey 0)) := by
  unfold State.lcGo State.rdb
  simp only [hb, ho, hf, hm]
  rfl
theorem State.lcGo_retires (hburn : b ≠ .failed) (ho : u.rd F.PKG_LC_REQ_OP = 5) (hf : u.lcFault 5 = none) :
    u.lcGo src hash b = ((u.burned src b).setLc 0x3F src 0x3F 0).lcEnd src 1 0 := by
  unfold State.lcGo State.rdb
  simp only [hb, ho, hf, if_neg hburn]
  rfl
theorem State.lcGo_revokes (hburn : b ≠ .failed) (ho : u.rd F.PKG_LC_REQ_OP = 6) (hf : u.lcFault 6 = none) :
    u.lcGo src hash b = ((u.burned src b).wrBit F.PKG_LC_REVOKED ((u.burned src b).tokenLe 0 5 1) true).lcEnd src 1 0 := by
  unfold State.lcGo State.rdb
  simp only [hb, ho, hf, if_neg hburn]
  rfl
end

/-! ### What each request leaves (Table 15-12) -/

/-- A return clears the seed and the key slots, and burns RETURNED (R442). -/
theorem State.returnSteps_burns (s : State) {b : Burn} (hb : b ≠ .failed) : (s.returnSteps b).rd F.PKG_LC_CODE = 0x1F ∧
    (s.returnSteps b).img.seed = none ∧ (s.returnSteps b).sec.slots = [] := by
  unfold State.returnSteps
  extract_lets k c x y v i w z
  have hv : v.sec.slots = [] := by
    refine List.foldlRecOn (motive := fun t : State => t.sec.slots = []) _ _ rfl fun t ht a _ => ?_
    refine Eq.trans ?_ ht
    unfold State.ideOff
    dsimp only
    split <;> rfl
  have hz : z.img.seed = none ∧ z.sec.slots = [] := by
    unfold z
    split
    · rw [(State.logAudit_keeps (P := 133955583) rfl (Keeps.refl w) _ _ _ _ _).img_eq,
        (State.logAudit_keeps (P := 133169151) rfl (Keeps.refl w) _ _ _ _ _).sec_eq]
      exact ⟨rfl, hv⟩
    · exact ⟨rfl, hv⟩
  obtain ⟨hseed, hslots⟩ := hz
  rw [if_neg hb, State.setLc_code, State.setLc_img, (State.setLc_keeps (P := 133169151) rfl (Keeps.refl z) _ _ _ _).sec_eq]
  exact ⟨rfl, hseed, hslots⟩
section
variable {s : State} (hp : s.mgr.pend = []) (hb : s.rd F.PKG_LC_REQ_BUSY = 0) {b : Burn}
include hp hb
theorem exec_lcOpen_burns (hburn : b ≠ .failed) (hf : s.lcFault 1 = none) : ∃ t, exec (.lcOpen .sp b) s = .next t ∧ t.rd F.PKG_LC_CODE = 0x07 ∧
    t.img.seed ≠ none ∧ t.rd F.PKG_LC_REQ_RESULT = 1 := by
  obtain ⟨u, he, honly, hop, hbusy⟩ := State.lcWrite_stores hp 1 .ok b
  obtain ⟨n, hgo⟩ := State.lcGo_opens (hash := .ok) 3 (hbusy.trans hb) hburn hop ((State.lcFault_lcReqWritten honly 1).trans hf)
  refine ⟨_, congrArg Outcome.next (he.trans hgo), (State.lcEnd_code _ _ _ _).trans (State.setLc_code _ _ _ _ _), ?_, State.lcEnd_result _ _ _ (by decide)⟩
  rw [State.lcEnd_img, State.setLc_img]
  exact Option.some_ne_none n
theorem exec_lcSeal_burns {h : Burn} (hhash : h ≠ .failed) (hburn : b ≠ .failed) (hf : s.lcFault 2 = none) : ∃ t, exec (.lcSeal .sp h b) s = .next t ∧
    t.rd F.PKG_LC_CODE = 0x0F ∧ t.img.fuseHash = s.tokenKey 0 ∧ t.rd F.PKG_LC_REQ_RESULT = 1 := by
  obtain ⟨u, he, honly, hop, hbusy⟩ := State.lcWrite_stores hp 2 h b
  obtain ⟨v, hv, hgo⟩ := State.lcGo_seals 3 (hbusy.trans hb) hhash hburn hop ((State.lcFault_lcReqWritten honly 2).trans hf)
  refine ⟨_, congrArg Outcome.next (he.trans hgo), (State.lcEnd_code _ _ _ _).trans (State.setLc_code _ _ _ _ _), ?_, State.lcEnd_result _ _ _ (by decide)⟩
  rw [State.lcEnd_img, State.setLc_img, (State.wr_keeps (P := 133955583) rfl (State.showOwnerFuse_keeps rfl (Keeps.refl v)) _ _).img_eq, hv,
    State.tokenKey_lcReqWritten honly]
theorem exec_lcReturn_running (hf : s.lcFault 3 = none) (hm : s.mode ≠ .sealedHalt) : ∃ t, exec (.lcReturn .sp b) s = .next t ∧
    t.mode = .safeStop ∧ t.img.returning = some b ∧ t.rd F.PKG_LC_REQ_BUSY = 1 := by
  obtain ⟨u, he, honly, hop, hbusy⟩ := State.lcWrite_stores hp 3 .ok b
  have hmode : u.mode = s.mode := by rw [honly.1]
  have hgo := State.lcGo_returns (hash := .ok) (b := b) 3 (hbusy.trans hb) hop ((State.lcFault_lcReqWritten honly 3).trans hf) (hmode ▸ hm)
  generalize hv : ({ u with img.retKey := tagOf (u.tokenKey 0), img.returning := some b }.wr F.PKG_LC_REQ_BUSY 1).drawNonce = v at hgo
  have hvmode : v.mode = s.mode := by
    rw [← hv, (State.drawNonce_keeps (P := 134217726) rfl (Keeps.refl _)).mode_eq]
    exact hmode
  have hvimg : v.img.returning = some b := by
    rw [← hv, (State.drawNonce_keeps (P := 133955583) rfl (Keeps.refl _)).img_eq]
    rfl
  have hvbusy : v.rd F.PKG_LC_REQ_BUSY = 1 := by
    rw [← hv, State.rd_drawNonce _ (by decide)]
    exact State.rd_wr_same _ _ (by decide)
  have hallowed : s.lcAllowed 3 = true := by
    by_contra hno
    rw [State.lcFault, if_pos (by simp [hno])] at hf
    cases hf
  have hok : modeOk v.mode .safeStop = true := by
    rw [hvmode]
    have hnor : norMode s.mode = true := (Bool.and_eq_true_iff.1 hallowed).2
    refine modeOk_safeStop (fun e => ?_) (fun e => ?_) hm
    · rw [e] at hnor; cases hnor
    · rw [e] at hnor; cases hnor
  refine ⟨_, congrArg Outcome.next (he.trans hgo), State.goMode_mode hok, ?_, ?_⟩
  · rw [(State.goMode_keeps (P := 133955583) rfl (Keeps.refl v) _ _).img_eq, hvimg]
  · rw [State.goMode_eq hok, State.rd_svnJudge _ (by decide) (by decide), State.rd_of_reg (State.modeDomains_reg _ _ (by decide)),
      State.rd_of_reg (State.noteMode_reg (by decide)), hvbusy]
theorem exec_lcReturn_halted (hburn : b ≠ .failed) (hf : s.lcFault 3 = none) (hm : s.mode = .sealedHalt) : ∃ t, exec (.lcReturn .sp b) s = .next t ∧
    t.rd F.PKG_LC_CODE = 0x1F ∧ t.img.seed = none ∧ t.sec.slots = [] := by
  obtain ⟨u, he, honly, hop, hbusy⟩ := State.lcWrite_stores hp 3 .ok b
  have hmode : u.mode = s.mode := by rw [honly.1]
  have hgo := State.lcGo_returns_halted (hash := .ok) (b := b) 3 (hbusy.trans hb) hop ((State.lcFault_lcReqWritten honly 3).trans hf) (hmode.trans hm)
  obtain ⟨hcode, hseed, hslots⟩ := State.returnSteps_burns { u with img.retKey := tagOf (u.tokenKey 0) } hburn
  refine ⟨_, congrArg Outcome.next (he.trans hgo), (State.lcEnd_code _ _ _ _).trans hcode, ?_, ?_⟩
  · rw [State.lcEnd_img, hseed]
  · rw [(State.lcEnd_keeps (P := 133169151) rfl (Keeps.refl _) _ _ _).sec_eq, hslots]
theorem exec_lcRetire_burns (hburn : b ≠ .failed) (hf : s.lcFault 5 = none) : ∃ t, exec (.lcRetire .sp b) s = .next t ∧
    t.rd F.PKG_LC_CODE = 0x3F ∧ t.rd F.PKG_LC_REQ_RESULT = 1 := by
  obtain ⟨u, he, honly, hop, hbusy⟩ := State.lcWrite_stores hp 5 .ok b
  have hgo := State.lcGo_retires (hash := .ok) 3 (hbusy.trans hb) hburn hop ((State.lcFault_lcReqWritten honly 5).trans hf)
  exact ⟨_, congrArg Outcome.next (he.trans hgo), (State.lcEnd_code _ _ _ _).trans (State.setLc_code _ _ _ _ _), State.lcEnd_result _ _ _ (by decide)⟩
theorem exec_lcRevoke_burns (hburn : b ≠ .failed) (hf : s.lcFault 6 = none) (hk : s.tokenLe 0 5 1 < 4) : ∃ t, exec (.lcRevoke .sp b) s = .next t ∧
    (t.rd F.PKG_LC_REVOKED).testBit (s.tokenLe 0 5 1) = true ∧ t.rd F.PKG_LC_REQ_RESULT = 1 := by
  obtain ⟨u, he, honly, hop, hbusy⟩ := State.lcWrite_stores hp 6 .ok b
  have hgo := State.lcGo_revokes (hash := .ok) 3 (hbusy.trans hb) hburn hop ((State.lcFault_lcReqWritten honly 6).trans hf)
  have htoken : (u.burned 3 b).tokenLe 0 5 1 = s.tokenLe 0 5 1 := by
    rw [← State.tokenLe_lcReqWritten honly]
    refine congrArg ofLe (List.map_congr_left fun i _ => ?_)
    rw [State.rd_burned]
    simp only [F.PKG_LC_TOKEN_DATA, F.PKG_LC_TOKEN_at, F.PKG_LOG_PTR_at]; omega
  refine ⟨_, congrArg Outcome.next (he.trans hgo), ?_, State.lcEnd_result _ _ _ (by decide)⟩
  rw [State.rd_lcEnd _ _ _ _ (by decide) (by decide) (by decide), htoken, State.wrBit, State.rd_wr_same _ _ (by decide),
    Nat.testBit_mod_two_pow]
  simp [F.PKG_LC_REVOKED, hk]
theorem exec_lcOpen_refused {r : Nat} (hf : s.lcFault 1 = some r) (hr : r < 256) : ∃ t, exec (.lcOpen .sp b) s = .next t ∧
    t.rd F.PKG_LC_CODE = s.rd F.PKG_LC_CODE ∧ t.rd F.PKG_LC_REQ_RESULT = r := by
  obtain ⟨u, he, honly, hop, hbusy⟩ := State.lcWrite_stores hp 1 .ok b
  have hgo := State.lcGo_refused (hash := .ok) (b := b) 3 (hbusy.trans hb) hop ((State.lcFault_lcReqWritten honly 1).trans hf)
  exact ⟨_, congrArg Outcome.next (he.trans hgo), (State.lcEnd_code _ _ _ _).trans (State.rd_lcReqWritten honly (by decide)),
    State.lcEnd_result _ _ _ hr⟩
end

/-! ### FUSE_PROG (R436, R437) -/

/-- The root device key is there, drawn if it was not, before the state bit is burned. -/
def State.fuseKey (s : State) : State :=
  match s.img.rootKey with
  | some _ => s
  | none =>
    let (n, s) := s.fresh
    { s with img.rootKey := some n }.drawWords F.PKG_SERIAL_SERIAL 2
theorem State.fuseKey_drawn (s : State) : s.fuseKey.img.rootKey ≠ none := by
  unfold State.fuseKey
  split
  case h_1 n h => simp [h]
  case h_2 =>
    rw [(State.drawWords_keeps (P := 133955583) rfl (Keeps.refl _) _ _).img_eq]
    exact Option.some_ne_none _
theorem exec_fuseProg_blank {s : State} {b : Burn} (hr : s.pwr.rind = true) (hc : s.rd F.PKG_LC_CODE = 0x01) (hm : s.mode = .sealedHalt)
    (hb : b ≠ .failed) : ∃ t, exec (.fuseProg b) s = .next t ∧ t.rd F.PKG_LC_CODE = 0x03 ∧ t.img.rootKey ≠ none := by
  have hcode : (s.setIr 0x40).rd F.PKG_LC_CODE = 0x01 := hc
  have hgo : (s.setIr 0x40).fuseProg b = ((s.setIr 0x40).fuseKey.burned 0 b).setLc 0x03 0 0x03 0 :=
    (if_neg (by simp [hcode, show (s.setIr 0x40).mode = .sealedHalt from hm])).trans (if_neg hb)
  refine ⟨_, congrArg Outcome.next ((State.jtagRun_permitted hr _ (by simp [hc]) _).trans hgo), State.setLc_code _ _ _ _ _, ?_⟩
  rw [State.setLc_img, State.burned_img]
  exact State.fuseKey_drawn _

/-- Settles O20: each clause by the lemma on its command's exec, the three operations of the window by one lemma. -/
theorem imageAndLifeCycleComplete : Obligations.ImageAndLifeCycleComplete := by
  refine ⟨fun dev off s c op hp hb hc => ?window, fun o ok s h => exec_norOpComplete h ok, fun dev s => exec_norLogWrite,
    fun k s hp hb => exec_imageVerify_sp hp hb k, fun n sfdp s h => exec_imageVerifyComplete h sfdp,
    fun s hp hb => ⟨fun b => exec_lcOpen_burns hp hb, fun h b => exec_lcSeal_burns hp hb, fun b => exec_lcReturn_running hp hb,
      fun b => exec_lcReturn_halted hp hb, fun b => exec_lcRetire_burns hp hb, fun b => exec_lcRevoke_burns hp hb,
      fun b r hf _ hr => exec_lcOpen_refused hp hb hf hr⟩, fun b s => exec_fuseProg_blank⟩
  case window =>
    obtain ⟨he, ho, h0⟩ : exec c s = .next (s.norWrite .sp op dev off) ∧ op < 4 ∧ op ≠ 0 := by
      simp only [List.mem_cons, Prod.mk.injEq, List.not_mem_nil, or_false] at hc
      rcases hc with ⟨rfl, rfl⟩ | ⟨rfl, rfl⟩ | ⟨rfl, rfl⟩ <;> exact ⟨rfl, by decide, by decide⟩
    exact ⟨fun hn => ⟨_, he, State.norWrite_refused hp hb ho h0 dev off hn⟩, fun hm hw ha => ⟨_, he, State.norWrite_absent hp hb ho h0 dev off hm hw ha⟩,
      fun hm hw ha => ⟨_, he, State.norWrite_opens hp hb ho h0 dev off hm hw ha⟩⟩

end Sys2Proof.Machine

/-! # Crystals, PLLs, retention, the real-time clock and the log window -/

namespace Sys2Proof.Machine
open Host (Outcome)

/-! ### Crystals, the real-time clock and the sleep maximum (O19) -/

theorem pllReg_injective {m n : Nat} (h : m ≠ n) : F.DIE_PLL_STATUS_at m ≠ F.DIE_PLL_STATUS_at n := by
  unfold F.DIE_PLL_STATUS_at
  omega
/-- The PLLs of the eight dies that are in one state move to another (R400). -/
def State.movePlls (s : State) (old new : Nat) : State :=
  (List.range 8).foldl (fun (s : State) d => if s.rd (F.DIE_PLL_STATUS_STATE d) = old then s.wr (F.DIE_PLL_STATUS_STATE d) new else s) s
theorem State.movePlls_reg (s : State) {old new a : Nat} (h : ∀ d, a ≠ F.DIE_PLL_STATUS_at d) : (s.movePlls old new).reg a = s.reg a :=
  foldl_reg (fun t d => by
    split
    · exact t.reg_wr_ne new (h d).symm
    · rfl) s
theorem State.rd_movePlls_clk (s : State) {old new : Nat} {f : Fld} (h : f.addr = F.RIND_CLK_STATUS_at) : (s.movePlls old new).rd f = s.rd f :=
  State.rd_of_reg (State.movePlls_reg s fun d => by rw [h]; unfold F.RIND_CLK_STATUS_at F.DIE_PLL_STATUS_at; omega)
theorem State.movePlls_pll (s : State) {old new : Nat} (hn : new < 8) (d : Die) : (s.movePlls old new).rd (F.DIE_PLL_STATUS_STATE d) =
    if s.rd (F.DIE_PLL_STATUS_STATE d) = old then new else s.rd (F.DIE_PLL_STATUS_STATE d) := by
  obtain ⟨u, hu, hd⟩ := foldl_reg_at (l := List.range 8) (A := F.DIE_PLL_STATUS_at)
    (f := fun (s : State) d => if s.rd (F.DIE_PLL_STATUS_STATE d) = old then s.wr (F.DIE_PLL_STATUS_STATE d) new else s)
    (fun m _ t b hb => by
      split
      · exact t.reg_wr_ne new hb.symm
      · rfl) List.nodup_range (List.mem_range.2 d.isLt) (fun _ _ => pllReg_injective) s
  have hold : u.rd (F.DIE_PLL_STATUS_STATE d) = s.rd (F.DIE_PLL_STATUS_STATE d) :=
    State.rd_of_reg (hu _ fun _ _ hm => (pllReg_injective hm).symm)
  refine (State.rd_of_reg hd).trans ?_
  rw [← hold]
  split
  · exact (State.rd_wr_same _ _ (show 0 + 3 ≤ 64 by decide)).trans (Nat.mod_eq_of_lt hn)
  · rfl
/-- What a loss or return of the crystal shows of the clock (R400). -/
def State.clockShows (s : State) (v : Nat) : State :=
  ((s.wr F.RIND_CLK_STATUS_XTAL_LOST v).wr F.RIND_CLK_STATUS_RIND_INT v).wr F.RIND_CLK_STATUS_MGR_HOLD v
theorem State.clockShows_reads (s : State) {v : Nat} (hv : v < 2) : (s.clockShows v).rd F.RIND_CLK_STATUS_XTAL_LOST = v ∧
    (s.clockShows v).rd F.RIND_CLK_STATUS_RIND_INT = v ∧ (s.clockShows v).rd F.RIND_CLK_STATUS_MGR_HOLD = v := by
  have hmod : v % 2 ^ 1 = v := Nat.mod_eq_of_lt hv
  refine ⟨?_, ?_, ?_⟩
  · exact (State.rd_wr_apart _ _ (by decide)).trans ((State.rd_wr_apart _ _ (by decide)).trans ((State.rd_wr_same _ _ (by decide)).trans hmod))
  · exact (State.rd_wr_apart _ _ (by decide)).trans ((State.rd_wr_same _ _ (by decide)).trans hmod)
  · exact (State.rd_wr_same _ _ (by decide)).trans hmod
theorem State.rd_clockShows_pll (s : State) (v d : Nat) : (s.clockShows v).rd (F.DIE_PLL_STATUS_STATE d) = s.rd (F.DIE_PLL_STATUS_STATE d) := by
  have hne : F.RIND_CLK_STATUS_at ≠ F.DIE_PLL_STATUS_at d := by unfold F.RIND_CLK_STATUS_at F.DIE_PLL_STATUS_at; omega
  exact (State.rd_wr_ne _ v hne).trans ((State.rd_wr_ne _ v hne).trans (State.rd_wr_ne _ v hne))
section
variable {s : State} (hr : s.pwr.rind = true)
include hr
theorem exec_xtalLoss : exec .xtalLoss s = .next (((s.clockShows 1).sat F.RIND_CLK_STATUS_XTAL_LOSSES).movePlls 2 3) :=
  congrArg Outcome.next (State.onRind_of_rind hr _)
theorem exec_xtalRestore : exec .xtalRestore s = .next ((s.clockShows 0).movePlls 3 2) := congrArg Outcome.next (State.onRind_of_rind hr _)
theorem exec_rtcXtalLoss : exec .rtcXtalLoss s = .next (s.wr F.RIND_CLK_STATUS_RTC_LOST 1) := congrArg Outcome.next (State.onRind_of_rind hr _)
theorem exec_rtcWrite_sp (v : BitVec 32) : exec (.rtcWrite .sp v) s = .next (s.rtcWrite v.toNat) := congrArg Outcome.next (State.onRind_of_rind hr _)
theorem exec_sleepClrMax_sp : exec (.sleepClrMax .sp) s = .next (s.wr F.RIND_SLEEP_STATUS_WAKE_MAX_NS 0) :=
  congrArg Outcome.next (State.onRind_of_rind hr _)
theorem exec_xtalLoss_holds : ∃ t, exec .xtalLoss s = .next t ∧ t.rd F.RIND_CLK_STATUS_XTAL_LOST = 1 ∧ t.rd F.RIND_CLK_STATUS_RIND_INT = 1 ∧
    t.rd F.RIND_CLK_STATUS_MGR_HOLD = 1 ∧ ∀ d : Die, t.rd (F.DIE_PLL_STATUS_STATE d) =
      (if s.rd (F.DIE_PLL_STATUS_STATE d) = 2 then 3 else s.rd (F.DIE_PLL_STATUS_STATE d)) := by
  obtain ⟨hlost, hint, hhold⟩ := s.clockShows_reads (v := 1) (by decide)
  refine ⟨_, exec_xtalLoss hr, (State.rd_movePlls_clk _ rfl).trans ?_, (State.rd_movePlls_clk _ rfl).trans ?_,
    (State.rd_movePlls_clk _ rfl).trans ?_, fun d => (State.movePlls_pll _ (by decide) d).trans ?_⟩
  · exact (State.rd_sat_apart _ (by decide)).trans hlost
  · exact (State.rd_sat_apart _ (by decide)).trans hint
  · exact (State.rd_sat_apart _ (by decide)).trans hhold
  · have hpll : ((s.clockShows 1).sat F.RIND_CLK_STATUS_XTAL_LOSSES).rd (F.DIE_PLL_STATUS_STATE d) = s.rd (F.DIE_PLL_STATUS_STATE d) :=
      (State.rd_wr_ne _ _ (by unfold F.RIND_CLK_STATUS_XTAL_LOSSES F.DIE_PLL_STATUS_STATE F.RIND_CLK_STATUS_at F.DIE_PLL_STATUS_at; dsimp only; omega)).trans
        (s.rd_clockShows_pll 1 d)
    rw [hpll]
theorem exec_xtalRestore_locks : ∃ t, exec .xtalRestore s = .next t ∧ t.rd F.RIND_CLK_STATUS_XTAL_LOST = 0 ∧ t.rd F.RIND_CLK_STATUS_RIND_INT = 0 ∧
    ∀ d : Die, t.rd (F.DIE_PLL_STATUS_STATE d) = (if s.rd (F.DIE_PLL_STATUS_STATE d) = 3 then 2 else s.rd (F.DIE_PLL_STATUS_STATE d)) := by
  obtain ⟨hlost, hint, -⟩ := s.clockShows_reads (v := 0) (by decide)
  refine ⟨_, exec_xtalRestore hr, (State.rd_movePlls_clk _ rfl).trans hlost, (State.rd_movePlls_clk _ rfl).trans hint,
    fun d => (State.movePlls_pll _ (by decide) d).trans ?_⟩
  rw [s.rd_clockShows_pll 0 d]
theorem exec_rtcWrite_sets (v : BitVec 32) : ∃ t, exec (.rtcWrite .sp v) s = .next t ∧ t.rd F.RIND_RTC_SEC = v.toNat ∧ t.rd F.RIND_RTC_SUBSEC = 0 := by
  refine ⟨_, exec_rtcWrite_sp hr v, ?_, State.rd_wr_same _ _ (by decide)⟩
  exact (State.rd_wr_apart _ _ (by decide)).trans ((State.rd_wr_same _ _ (by decide)).trans (Nat.mod_eq_of_lt v.isLt))
end

/-! ### Die PLLs (O19) -/

/-- Domains write the registers from 0x100200 up to 0x100280 only. -/
theorem State.setDomain_reg_outside (s : State) {n : Nat} (hn : n < 432) (st : Nat) {a : Nat} (ha : 0x100280 ≤ a) :
    (s.setDomain n st).reg a = s.reg a := by
  obtain ⟨-, hhi⟩ := domFld_addr hn
  have hwr : (s.wr (domFld n) st).reg a = s.reg a := s.reg_wr_ne st (by omega)
  unfold State.setDomain
  split
  · rfl
  · extract_lets u
    split
    · exact (State.reg_mk u a).trans hwr
    · exact hwr
theorem State.setDomains_reg_outside (s : State) {a : Nat} (ha : 0x100280 ≤ a) : s.setDomains.reg a = s.reg a := by
  unfold State.setDomains
  split
  · rfl
  · refine foldl_reg_of_mem (fun n hn u => ?_) s
    have hn := List.mem_range.1 hn
    split
    · split
      · exact u.setDomain_reg_outside hn 1 ha
      · rfl
    · exact u.setDomain_reg_outside hn 0 ha
/-- Seam links that start to train write the status of the edges they cross only (R63). -/
theorem State.startTraining_reg_edges (s : State) {d e a : Nat} (ls : List Nat) (he : e < 4)
    (ha : ∀ d e, e < 4 → a ≠ F.DIE_LATH_STATUS_at d e) : (s.startTraining d e ls).reg a = s.reg a := by
  unfold State.startTraining
  split
  · rfl
  · extract_lets tr u v
    have htr : ∀ (w : State) (d e : Nat), e < 4 → (tr w d e).reg a = w.reg a := by
      intro w d e he
      dsimp only [tr]
      split
      · rfl
      · exact w.reg_wr_ne 1 (ha d e he).symm
    split
    · rfl
    · exact (htr _ _ _ (Nat.mod_lt _ (by decide))).trans ((htr _ _ _ he).trans rfl)
theorem State.trainSeams_reg (s : State) (d : Nat) {a : Nat} (ha : ∀ d e, e < 4 → a ≠ F.DIE_LATH_STATUS_at d e) :
    (s.trainSeams d).reg a = s.reg a := by
  refine foldl_reg_of_mem (fun e he u => ?_) s
  have he := List.mem_range.1 he
  split
  · split
    · exact u.startTraining_reg_edges _ he ha
    · rfl
  · rfl
theorem pllReg_ne_edge (n d : Nat) {e : Nat} (he : e < 4) : F.DIE_PLL_STATUS_at n ≠ F.DIE_LATH_STATUS_at d e := by
  unfold F.DIE_PLL_STATUS_at F.DIE_LATH_STATUS_at
  omega
theorem exec_pllLock_locks {d : Die} {s : State} (h : s.rd (F.DIE_PLL_STATUS_STATE d) = 1) : ∃ t, exec (.pllLock d) s = .next t ∧
    t.rd (F.DIE_PLL_STATUS_STATE d) = 2 ∧ t.rd (F.DIE_PLL_STATUS_LOCK_US d) = min 0xFFFF ((s.wall - mgetD 0 s.pwr.pllAt d.val) / 3000) := by
  have hreg : ∀ u : State, (u.setDomains.trainSeams d.val).reg (F.DIE_PLL_STATUS_at d) = u.reg (F.DIE_PLL_STATUS_at d) := fun u =>
    (State.trainSeams_reg _ d.val fun x _ he => pllReg_ne_edge d x he).trans
      (u.setDomains_reg_outside (by unfold F.DIE_PLL_STATUS_at; omega))
  refine ⟨_, congrArg Outcome.next (if_neg (not_not.2 h)), (State.rd_of_reg (hreg _)).trans ?_, (State.rd_of_reg (hreg _)).trans ?_⟩
  · exact (State.rd_wr_disjoint _ _ (show 0 + 3 ≤ 64 by decide) (.inr (.inr (show 0 + 3 ≤ 32 by decide)))).trans
      (State.rd_wr_same _ _ (show 0 + 3 ≤ 64 by decide))
  · exact (State.rd_wr_same _ _ (show 32 + 16 ≤ 64 by decide)).trans (Nat.mod_eq_of_lt (by change _ < 2 ^ 16; omega))
theorem exec_pllUnlock_fences {d : Die} {s : State} (h : s.rd (F.DIE_PLL_STATUS_STATE d) = 2) : exec (.pllUnlock d) s =
    .next (((s.wr (F.DIE_PLL_STATUS_STATE d) 4).sat (F.DIE_PLL_STATUS_UNLOCKS d)).failElem (.die d) none 0x0004 d.val) :=
  congrArg Outcome.next (if_neg (not_not.2 h))

/-! ### The drain of a quiet port (O19) -/

/-- The drain of one cell starts: a cell that injects nothing is held at once (R70, R406). -/
def State.drainCell (s : State) (m : Cell) : State :=
  let s := s.wr (F.SCRIM_RTR_STATUS_DRAIN_STATE m) 1
  if s.injecting m then s else s.wr (F.SCRIM_RTR_STATUS_LOCAL_MODE m) 1
theorem rtrReg_injective {m n : Cell} (h : m ≠ n) : F.SCRIM_RTR_STATUS_at m ≠ F.SCRIM_RTR_STATUS_at n := fun e =>
  h (Fin.ext (by unfold F.SCRIM_RTR_STATUS_at at e; omega))
theorem rtrReg_lt (m : Cell) : F.SCRIM_RTR_STATUS_at m < 0x10000000 := by
  unfold F.SCRIM_RTR_STATUS_at
  omega
/-- What a cell injects stands in the state's parts and in the registers of the ports, which start at 0x10000000. -/
theorem State.injecting_wr (s : State) {f : Fld} (hf : f.addr < 0x10000000) (n : Nat) (c : Cell) : (s.wr f n).injecting c = s.injecting c := by
  have hwidth : ∀ a, (s.wr f n).rd (F.XBAR_STATUS_WIDTH a) = s.rd (F.XBAR_STATUS_WIDTH a) := fun a =>
    State.rd_wr_ne _ n (show f.addr ≠ F.XBAR_STATUS_at a by unfold F.XBAR_STATUS_at; omega)
  have hport : ∀ a, (s.wr f n).rd (F.LANE_PORT_STATUS_WIDTH a) = s.rd (F.LANE_PORT_STATUS_WIDTH a) := fun a =>
    State.rd_wr_ne _ n (show f.addr ≠ F.LANE_PORT_STATUS_at a by unfold F.LANE_PORT_STATUS_at; omega)
  have hanchor : (s.wr f n).anchorOf c = s.anchorOf c := by
    unfold State.anchorOf
    rw [hwidth, hwidth]
  have hxing : (s.wr f n).xingHolds c = s.xingHolds c := by
    unfold State.xingHolds
    simp only [hanchor, hport, State.wr_spill]
  unfold State.injecting
  rw [hxing]
  rfl
theorem State.drainCell_reg (s : State) (m : Cell) {a : Nat} (ha : F.SCRIM_RTR_STATUS_at m ≠ a) : (s.drainCell m).reg a = s.reg a := by
  unfold State.drainCell
  dsimp only
  split
  · exact State.reg_wr_ne _ _ ha
  · exact (State.reg_wr_ne _ _ ha).trans (State.reg_wr_ne _ _ ha)
theorem State.drainCell_injecting (s : State) (m c : Cell) : (s.drainCell m).injecting c = s.injecting c := by
  unfold State.drainCell
  dsimp only
  split
  · exact s.injecting_wr (rtrReg_lt m) 1 c
  · exact (State.injecting_wr _ (rtrReg_lt m) 1 c).trans (s.injecting_wr (rtrReg_lt m) 1 c)
theorem State.drainCell_held {s : State} {m : Cell} (h : s.injecting m = false) :
    (s.drainCell m).rd (F.SCRIM_RTR_STATUS_DRAIN_STATE m) = 1 ∧ (s.drainCell m).rd (F.SCRIM_RTR_STATUS_LOCAL_MODE m) = 1 := by
  have heq : s.drainCell m = (s.wr (F.SCRIM_RTR_STATUS_DRAIN_STATE m) 1).wr (F.SCRIM_RTR_STATUS_LOCAL_MODE m) 1 :=
    if_neg (by rw [s.injecting_wr (rtrReg_lt m) 1 m, h]; decide)
  rw [heq]
  refine ⟨?_, State.rd_wr_same _ _ (show 4 + 2 ≤ 64 by decide)⟩
  exact (State.rd_wr_disjoint _ _ (show 0 + 3 ≤ 64 by decide) (.inr (.inr (show 0 + 3 ≤ 4 by decide)))).trans
    (State.rd_wr_same _ _ (show 0 + 3 ≤ 64 by decide))
/-- Of cells that inject nothing, each that starts its drain is held. -/
theorem State.drainCells_held {l : List Cell} {s : State} (h : ∀ m ∈ l, s.injecting m = false) : ∀ m ∈ l,
    (l.foldl State.drainCell s).rd (F.SCRIM_RTR_STATUS_DRAIN_STATE m) = 1 ∧
      (l.foldl State.drainCell s).rd (F.SCRIM_RTR_STATUS_LOCAL_MODE m) = 1 := by
  induction l using List.reverseRecOn with
  | nil => exact fun m hm => nomatch hm
  | append_singleton l x ih =>
    intro m hm
    rw [List.foldl_append, List.foldl_cons, List.foldl_nil]
    by_cases hx : m = x
    · have hinj : (l.foldl State.drainCell s).injecting m = s.injecting m :=
        List.foldlRecOn (motive := fun u : State => u.injecting m = s.injecting m) l _ rfl fun u hu y _ => (u.drainCell_injecting y m).trans hu
      rw [← hx]
      exact State.drainCell_held (hinj.trans (h m hm))
    · have hreg := State.drainCell_reg (l.foldl State.drainCell s) x (rtrReg_injective (Ne.symm hx))
      obtain ⟨hdrain, hmode⟩ := ih (fun y hy => h y (List.mem_append_left _ hy)) m
        ((List.mem_append.1 hm).resolve_right (by simpa using hx))
      exact ⟨(State.rd_of_reg hreg).trans hdrain, (State.rd_of_reg hreg).trans hmode⟩
theorem exec_retentionIdle_drains {c : Cell} {s : State} (hd : s.mode = .drowse) (h : ∀ m ∈ s.portMembers c, s.quiet m = true ∧
      s.domain (3 * m.val) = 1 ∧ s.cellFenced m = false ∧ s.rd (F.SCRIM_RTR_STATUS_LOCAL_MODE m) = 0 ∧ s.injecting m = false) :
    ∃ t, exec (.retentionIdle c) s = .next t ∧ ∀ m ∈ s.portMembers c,
      t.rd (F.SCRIM_RTR_STATUS_DRAIN_STATE m) = 1 ∧ t.rd (F.SCRIM_RTR_STATUS_LOCAL_MODE m) = 1 := by
  have hguard : ¬ (s.mode ≠ .drowse ∨ (s.portMembers c).any (fun (m : Cell) => !s.quiet m || s.domain (3 * m.val) != 1 || s.cellFenced m ||
      s.rd (F.SCRIM_RTR_STATUS_LOCAL_MODE m) != 0) = true) := by
    rintro (hm | hany)
    · exact hm hd
    · obtain ⟨m, hm, hbad⟩ := List.any_eq_true.1 hany
      obtain ⟨hquiet, hdom, hfence, hlocal, -⟩ := h m hm
      simp [hquiet, hdom, hfence, hlocal] at hbad
  refine ⟨(s.portMembers c).foldl State.drainCell s, congrArg Outcome.next (if_neg hguard), State.drainCells_held fun m hm => ?_⟩
  obtain ⟨-, -, -, -, hinj⟩ := h m hm
  exact hinj

/-! ### The log window (R378) -/

/-- The row of PKG_LOG_SEL (Table 12-13). -/
def logSelRow : RegDef := ⟨0x220, [], [⟨32, 32, .live, false, fun _ => 0⟩, ⟨0, 3, .live, false, fun _ => 0⟩]⟩
/-- The word that selects an entry of a log. -/
def logSelWord (l n : Nat) : Word := wordOf [(F.PKG_LOG_SEL_LOG, l), (F.PKG_LOG_SEL_SEQ, n)]
theorem logSelWord_bits {l n : Nat} (hl : l < 8) (hn : n < 2 ^ 32) :
    getBits (logSelWord l n) 0 3 = l ∧ getBits (logSelWord l n) 32 32 = n := by
  unfold logSelWord wordOf
  refine ⟨?_, ?_⟩
  · exact (getBits_showFields_of_split (f := F.PKG_LOG_SEL_LOG) (by decide) [] [_] (by simp; decide) 0).trans (Nat.mod_eq_of_lt hl)
  · exact (getBits_showFields_of_split (f := F.PKG_LOG_SEL_SEQ) (by decide) [_] [] (by simp) 0).trans (Nat.mod_eq_of_lt hn)
/-- A service processor's write of PKG_LOG_SEL stores the selection and starts the fetch. -/
theorem State.logSelWrite_sp (s : State) (w : Word) (e : PulseIn) : s.writeReg .sp F.PKG_LOG_SEL_at w e =
    (s.writeStores F.PKG_LOG_SEL_at w logSelRow.fields s).logFetchOp := by
  have hrind : s.rindAccess F.PKG_LOG_SEL_at = s := State.rindAccess_outside (by decide) s
  have hhide : (s.rindAccess F.PKG_LOG_SEL_at).hidden F.PKG_LOG_SEL_at = false := State.hidden_pkg _ (by decide)
  rw [State.writeReg_sp (by decide) (show regAt F.PKG_LOG_SEL_at = some (logSelRow, []) from rfl) hhide, if_pos rfl, hrind,
    State.act_attempts (by decide), State.writePulses_of_zero (by simp [logSelRow])]
theorem exec_logFetch_starts (l : Fin 8) (n : BitVec 32) {s : State} (hp : s.mgr.pend = []) : ∃ t, exec (.logFetch .sp l n) s = .next t ∧
    t.log.fetching = true ∧ t.rd F.PKG_LOG_STAT_VALID = 0 ∧ t.rd F.PKG_LOG_SEL_LOG = l.val ∧ t.rd F.PKG_LOG_SEL_SEQ = n.toNat := by
  obtain ⟨hlog, hseq⟩ := logSelWord_bits l.isLt n.isLt
  have hplain : PlainWrite F.PKG_LOG_SEL_at (logSelWord l.val n.toNat) logSelRow.fields :=
    ⟨rfl, fun u => u.storeLive_pkg (by decide) (by decide), by simp [logSelRow]⟩
  have hlive : ∀ f ∈ logSelRow.fields, f.kind = .live → (s.writeStores F.PKG_LOG_SEL_at (logSelWord l.val n.toNat) logSelRow.fields s).rd
      (f.at_ F.PKG_LOG_SEL_at) = getBits (logSelWord l.val n.toNat) f.lsb f.width := fun f hf hk =>
    State.rd_writeStores_live (by decide) hplain hf hk s (State.active_live (show regAt F.PKG_LOG_SEL_at = some (logSelRow, []) from rfl) hp
      (by decide) (fun _ => rfl) (by decide) (by simp [logSelRow]) hf hk)
  have hsel : ∀ (u : State) (lsb width : Nat), u.logFetchOp.rd ⟨F.PKG_LOG_SEL_at, lsb, width⟩ = u.rd ⟨F.PKG_LOG_SEL_at, lsb, width⟩ :=
    fun u _ _ => State.rd_of_reg (u.reg_setReg_ne 0 (show F.PKG_LOG_STAT_at ≠ F.PKG_LOG_SEL_at by decide))
  refine ⟨_, congrArg Outcome.next (s.logSelWrite_sp (logSelWord l.val n.toNat) (burns .ok .ok)), rfl, ?_, ?_, ?_⟩
  · exact congrArg (fun w => getBits w 63 1) (State.reg_setReg_same _ _ 0)
  · exact (hsel _ 0 3).trans ((hlive ⟨0, 3, .live, false, fun _ => 0⟩ (by simp [logSelRow]) rfl).trans hlog)
  · exact (hsel _ 32 32).trans ((hlive ⟨32, 32, .live, false, fun _ => 0⟩ (by simp [logSelRow]) rfl).trans hseq)

/-- A fetch that has ended shows no word yet (R378). -/
def State.fetchEnds (s : State) : State :=
  (List.range 4).foldl (fun (s : State) w => s.wr (F.PKG_LOG_DATA_DATA w) 0) { s with log.fetching := false }
/-- The words of an entry show in the data registers. -/
def State.showEntry (s : State) (ws : List Nat) : State :=
  ws.zipIdx.foldl (fun (s : State) (y : Nat × Nat) => s.wr (F.PKG_LOG_DATA_DATA y.2) y.1) s
theorem State.fetchEnds_reg (s : State) {a : Nat} (h : ∀ w < 4, F.PKG_LOG_DATA_at w ≠ a) : s.fetchEnds.reg a = s.reg a :=
  foldl_reg_of_mem (fun w hw u => u.reg_wr_ne 0 (h w (List.mem_range.1 hw))) _
theorem State.showEntry_log (s : State) (ws : List Nat) : (s.showEntry ws).log = s.log :=
  List.foldlRecOn (motive := fun u : State => u.log = s.log) _ _ rfl fun _ hu _ _ => hu
theorem State.showEntry_reg (s : State) {ws : List Nat} (hl : ws.length ≤ 4) {a : Nat} (h : ∀ w < 4, F.PKG_LOG_DATA_at w ≠ a) :
    (s.showEntry ws).reg a = s.reg a :=
  foldl_reg_of_mem (fun y hy u => u.reg_wr_ne _ (h y.2 (by have hlt := (List.mem_zipIdx hy).2.1; omega))) _
theorem State.showEntry_data {ws : List Nat} {k w : Nat} (h : ws[k]? = some w) (s : State) :
    (s.showEntry ws).rd (F.PKG_LOG_DATA_DATA k) = w % 2 ^ 64 := by
  induction ws using List.reverseRecOn with
  | nil => simp at h
  | append_singleton ws x ih =>
    have hstep : s.showEntry (ws ++ [x]) = (s.showEntry ws).wr (F.PKG_LOG_DATA_DATA ws.length) x := by
      unfold State.showEntry
      simp [List.zipIdx_append]
    rw [hstep]
    by_cases hk : k < ws.length
    · rw [List.getElem?_append_left hk] at h
      refine (State.rd_wr_ne _ _ ?_).trans (ih h)
      change F.PKG_LOG_DATA_at ws.length ≠ F.PKG_LOG_DATA_at k
      unfold F.PKG_LOG_DATA_at
      omega
    · obtain ⟨hlt, hget⟩ := List.getElem?_eq_some_iff.1 h
      obtain rfl : k = ws.length := by
        rw [List.length_append, List.length_singleton] at hlt
        omega
      rw [show w = x by simpa using h.symm]
      exact State.rd_wr_same _ _ (show 0 + 64 ≤ 64 by decide)
/-- The registers that a fetch reads and shows, other than the data, stand apart from the data. -/
theorem logData_ne {w a : Nat} (hw : w < 4) (ha : a < 0x230 ∨ 0x280 ≤ a) : F.PKG_LOG_DATA_at w ≠ a := by
  unfold F.PKG_LOG_DATA_at
  omega
theorem State.fetchEnds_logWords (s : State) (l : Nat) : (s.fetchEnds.wr F.PKG_LOG_STAT_VALID 1).logWords l = s.logWords l := by
  have hnext : (s.fetchEnds.wr F.PKG_LOG_STAT_VALID 1).rd (F.PKG_LOG_PTR_NEXT_SEQ 1) = s.rd (F.PKG_LOG_PTR_NEXT_SEQ 1) :=
    (State.rd_wr_apart _ _ (by decide)).trans (State.rd_of_reg (s.fetchEnds_reg fun w hw => logData_ne hw (.inr (by decide))))
  unfold State.logWords
  rw [hnext]
  rfl
section
variable {s : State} (hf : s.log.fetching = true)
include hf
theorem execLogFetchComplete_fetching : execLogFetchComplete s = .next (
    if s.rd F.PKG_LOG_SEL_LOG ≥ 5 then s.fetchEnds.wr F.PKG_LOG_STAT_VALID 1
    else if s.rd F.PKG_LOG_SEL_LOG ≠ 4 ∧ (s.fetchEnds.activeSp.isNone ∨ !s.fetchEnds.metadataPresent) then s.fetchEnds.wr F.PKG_LOG_STAT_NO_SP 1
    else
      match ((s.fetchEnds.wr F.PKG_LOG_STAT_VALID 1).logWords (s.rd F.PKG_LOG_SEL_LOG)).find?
        (fun (x : Nat × List Nat) => x.1 == s.rd F.PKG_LOG_SEL_SEQ) with
      | some x => (s.fetchEnds.wr F.PKG_LOG_STAT_VALID 1).showEntry x.2
      | none =>
        if (s.rd F.PKG_LOG_SEL_SEQ + 2 ^ 32 - s.fetchEnds.rd (F.PKG_LOG_PTR_OLDEST_SEQ (s.rd F.PKG_LOG_SEL_LOG))) % 2 ^ 32 < 2 ^ 31 then
          (s.fetchEnds.wr F.PKG_LOG_STAT_VALID 1).wr F.PKG_LOG_STAT_AHEAD 1
        else (s.fetchEnds.wr F.PKG_LOG_STAT_VALID 1).wr F.PKG_LOG_STAT_GONE 1) :=
  congrArg Outcome.next (if_neg (by simp [hf]))
theorem execLogFetchComplete_ends : ∃ t, exec .logFetchComplete s = .next t ∧ t.log.fetching = false := by
  refine ⟨_, execLogFetchComplete_fetching hf, ?_⟩
  have hlog : s.fetchEnds.log.fetching = false := rfl
  split
  · exact hlog
  · split
    · exact hlog
    · split
      · exact (congrArg LogSt.fetching (State.showEntry_log _ _)).trans hlog
      · split
        · exact hlog
        · exact hlog
section
variable (hl : s.rd F.PKG_LOG_SEL_LOG < 4)
include hl
theorem execLogFetchComplete_noSp (ha : s.activeSp = none) : ∃ t, exec .logFetchComplete s = .next t ∧ t.rd F.PKG_LOG_STAT_NO_SP = 1 := by
  have hgone : s.fetchEnds.activeSp.isNone = true := congrArg Option.isNone ha
  refine ⟨_, execLogFetchComplete_fetching hf, ?_⟩
  rw [if_neg (by omega), if_pos ⟨by omega, .inl hgone⟩]
  exact State.rd_wr_same _ _ (by decide)
theorem execLogFetchComplete_delivers {n : Nat} {ws : List Nat} (ha : s.activeSp ≠ none) (hm : s.metadataPresent = true)
    (hw : (s.logWords (s.rd F.PKG_LOG_SEL_LOG)).find? (fun x => x.1 == s.rd F.PKG_LOG_SEL_SEQ) = some (n, ws)) (hlen : ws.length ≤ 4) :
    ∃ t, exec .logFetchComplete s = .next t ∧ t.rd F.PKG_LOG_STAT_VALID = 1 ∧
      ∀ k w, ws[k]? = some w → t.rd (F.PKG_LOG_DATA_DATA k) = w % 2 ^ 64 := by
  have hsp : ¬ s.fetchEnds.activeSp.isNone = true := fun h => ha (Option.isNone_iff_eq_none.1 h)
  have hmeta : s.fetchEnds.metadataPresent = true := hm
  refine ⟨_, execLogFetchComplete_fetching hf, ?_⟩
  rw [if_neg (by omega), if_neg (by simp [hsp, hmeta]), s.fetchEnds_logWords, hw]
  refine ⟨?_, fun k w h => State.showEntry_data h _⟩
  exact (State.rd_of_reg (State.showEntry_reg _ hlen fun w hw => logData_ne hw (.inl (by decide)))).trans (State.rd_wr_same _ _ (by decide))
end
end

/-- Settles O19: the crystals move the PLLs one by one, the drain holds each cell of the port, and the log window shows what a fetch finds. -/
theorem clocksAndLogFetchComplete : Obligations.ClocksAndLogFetchComplete := by
  unfold Obligations.ClocksAndLogFetchComplete
  refine ⟨fun s hr => ⟨exec_xtalLoss_holds hr, exec_xtalRestore_locks hr, ⟨_, exec_rtcXtalLoss hr, State.rd_wr_same _ _ (by decide)⟩,
      exec_rtcWrite_sets hr, ⟨_, exec_sleepClrMax_sp hr, State.rd_wr_same _ _ (by decide)⟩⟩,
    fun d s => ⟨exec_pllLock_locks, exec_pllUnlock_fences⟩, fun c s => exec_retentionIdle_drains, fun l n s => exec_logFetch_starts l n,
    fun s hf => ⟨execLogFetchComplete_ends hf, execLogFetchComplete_noSp hf, fun n ws hl ha hm hw hlen =>
      execLogFetchComplete_delivers hf hl ha hm hw hlen⟩⟩

end Sys2Proof.Machine
